-- ==== Sys2Proof/Word.lean ====
section
/-!
DEFINITION. The plainest types of the CK6480 model: a byte, a byte string and the machine word.
Byte order, bit fields and checksums are not here: they stand under `Machine/`.
-/

namespace Sys2Proof

/-- One byte. -/
abbrev Byte := BitVec 8

/-- A byte string, in ascending address order. -/
abbrev Bytes := List Byte

/-- A 64-bit word: a Crook stack entry, a 64-bit register. -/
abbrev Word := BitVec 64

end Sys2Proof
end

