-- ==== Sys2Proof/Config.lean ====
section
/-!
DEFINITION. What the spec leaves open, as constants with no body: nothing in Lean can evaluate one or prove a value of one.
A meaning applies a free value to the state's counter `freeNext` (or to its operands), so that each use is a fresh one.
-/

namespace Sys2Proof

/-- A fresh free value, by the number of its use: what the spec calls undefined or does not state. -/
opaque Config.freeNat : Nat → Nat

/-- A fresh free byte: byte `i` of the `n`-th use (a random or an unstated byte string). -/
opaque Config.freeByte : Nat → Nat → BitVec 8

/-- The header bits of a dynamic block, which spell its code lengths, from its symbol counts: R164 leaves them to the device within
RFC 1951, and `dynBlock` holds them to it. -/
opaque Config.dynHeader : List Nat → List Bool

/-- Whether the floating-point unit detects tininess before rounding: IEEE 754-2019 leaves it to the implementation (R312). -/
opaque Config.tinyBeforeRounding : Bool

/-- Whether a fused multiply-add of zero and infinity with a quiet NaN addend signals invalid: IEEE 754-2019 leaves it to the
implementation (R312). -/
opaque Config.fmaNanInvalid : Bool

/-- Byte `i` of a key derived from a slot's key and a context: R418 names SP 800-108 and gives no label. -/
opaque Config.derived : List (BitVec 8) → List (BitVec 8) → Nat → BitVec 8

/-- The part is a CK6480-X: its grade is a fuse (R634). -/
opaque Config.gradeX : Bool

/-- What Get Features returns for a feature before the host sets it, where the spec states no value (R450). -/
opaque Config.featureDefault : Nat → BitVec 32

/-- The cipher pipeline that takes a unit of media traffic, by the bytes of it so far: no rule names one (R405, R406). -/
opaque Config.mediaPipe : Nat → Nat

/-- The version of the set-state format of the device's firmware (R508, R513). -/
opaque Config.mirrorVersion : BitVec 8

/-- Memory errors that arise in the Crook cores in the n-th CTL cycle that passes: core, place, and whether it is uncorrectable. No
rule says when one does (R318). -/
opaque Config.upsets : Nat → List (Nat × Nat × Nat × Bool)

end Sys2Proof
end

