-- ==== Sys2Proof/Syntax.lean ====
section
/-!
DEFINITION. The commands of the block: what the outside world, the clock and the block's own engines can do to it in one
step, one constructor for each row of the table of operations and events, with their operands.
Outcomes that are decided outside the model (a bit error, what a comparator reads, what training found) are operands.
-/

namespace Sys2Proof

/-- One of the two PCIe or Drove ports. -/
inductive Port where
  | a | b
deriving DecidableEq, Repr

/-- The five origins of a register access (R33); a PCIe function carries its FUNC tag. -/
inductive Origin where
  | pcie (func : Nat) | gate | firmware | setManager | testPort
deriving DecidableEq, Repr

/-- A received Gate or Drove flit (R59, R60): whether its CRC holds after FEC correction, the symbols FEC corrected,
its packet area and its link area. -/
structure Flit where
  /-- the CRC holds after FEC correction -/
  crcOk : Bool
  /-- the logical lane of each symbol the FEC corrected -/
  fecCorrected : List (Fin 16)
  /-- packet area, bytes 0-235 -/
  area : Bytes
  /-- link area, bytes 236-243 -/
  link : BitVec 64
deriving DecidableEq, Repr

/-- TAKE_OPEN (R72). -/
structure TakeOpenPkt where
  /-- REQ_ID -/
  reqId : BitVec 16
  /-- TIER -/
  tier : BitVec 8
  /-- KIND -/
  kind : BitVec 8
  /-- RATE, MB/s -/
  rate : BitVec 32
  /-- MIN_RATIO, 8.8 -/
  minRatio : BitVec 16
  /-- STREAMS -/
  streams : BitVec 8
  /-- EFFORT -/
  effort : BitVec 8
  /-- PRED -/
  pred : BitVec 8
  /-- FLAGS -/
  flags : BitVec 8
  /-- DIGEST_ALG -/
  digestAlg : BitVec 8
  /-- DURATION, s -/
  duration : BitVec 32
  /-- RING_GIB -/
  ringGib : BitVec 32
deriving DecidableEq, Repr

/-- FRAME_BEGIN (R76). -/
structure FrameBeginPkt where
  /-- stream ID -/
  stream : BitVec 3
  /-- FRAME_NUMBER -/
  number : BitVec 64
  /-- CAPTURE_TIME -/
  capture : BitVec 64
  /-- DECLARED_LEN -/
  declared : BitVec 40
  /-- PIXFMT -/
  pixfmt : BitVec 8
  /-- WIDTH -/
  width : BitVec 16
  /-- HEIGHT -/
  height : BitVec 16
  /-- CFA -/
  cfa : BitVec 8
deriving DecidableEq, Repr

/-- FRAME_DATA (R77). -/
structure FrameDataPkt where
  /-- stream ID -/
  stream : BitVec 3
  /-- OFFSET -/
  offset : BitVec 40
  /-- FNUM_LO -/
  fnumLo : BitVec 16
  /-- PAYLOAD -/
  payload : Bytes
deriving DecidableEq, Repr

/-- FRAME_END (R78). -/
structure FrameEndPkt where
  /-- stream ID -/
  stream : BitVec 3
  /-- FRAME_NUMBER -/
  number : BitVec 64
  /-- STATUS -/
  status : BitVec 8
  /-- FLAGS -/
  flags : BitVec 8
  /-- CRC32C -/
  crc : BitVec 32
deriving DecidableEq, Repr

/-- META (R79). -/
structure MetaPkt where
  /-- stream ID -/
  stream : BitVec 3
  /-- META_OFFSET -/
  offset : BitVec 16
  /-- data bytes -/
  data : Bytes
deriving DecidableEq, Repr

/-- TRIGGER (R82). -/
structure TriggerPkt where
  /-- trigger time T -/
  t : BitVec 64
  /-- SOURCE_TAG -/
  tag : BitVec 16
  /-- PRE_MS -/
  preMs : BitVec 32
  /-- POST_MS -/
  postMs : BitVec 32
deriving DecidableEq, Repr

/-- CTRL_REQ (R83), also the body of a Drove REG_REQ. -/
structure CtrlReqPkt where
  /-- TAG -/
  tag : BitVec 16
  /-- OP -/
  op : BitVec 8
  /-- PAGE -/
  page : BitVec 16
  /-- OFFSET -/
  offset : BitVec 16
  /-- DATA -/
  data : BitVec 64
deriving DecidableEq, Repr

/-- A camera HEARTBEAT (R86). -/
structure HeartbeatPkt where
  /-- HB_SEQ -/
  seq : BitVec 32
  /-- ECHO_SEQ -/
  echoSeq : BitVec 32
  /-- HOLD_NS -/
  holdNs : BitVec 32
deriving DecidableEq, Repr

/-- Where an engine job comes from: the front of a cluster's job queue (R322), or a host function's job command. -/
inductive JobSrc where
  | cluster (n : Fin 9) | host (fn : Nat)
deriving DecidableEq, Repr

/-- What one die's parameter page reports (R186, R203). -/
structure NandPart where
  /-- manufacturer and model, as one number -/
  model : Nat
  /-- bits per cell in the native mode: 3 TLC, 4 QLC -/
  bitsPerCell : Nat
  /-- planes -/
  planes : Nat
  /-- data bytes of a page -/
  pageBytes : Nat
  /-- spare bytes of a page -/
  spareBytes : Nat
  /-- multi-plane blocks of a die -/
  blocks : Nat
  /-- program units of a multi-plane block in the native mode -/
  units : Nat
  /-- capacity of a die in Gbit -/
  gbit : Nat
  /-- block endurance -/
  endurance : Nat
  /-- tR in ns -/
  tR : Nat
  /-- tPROG in ns -/
  tProg : Nat
  /-- tBERS in ns -/
  tBers : Nat
  /-- ONFI 5.1 with NV-LPDDR4 at VCCQ 1.2 V up to 3,200 MT/s -/
  onfi51 : Bool
  /-- one-shot multi-plane program with cache program, and SLC mode on any block -/
  oneShot : Bool
  /-- volume addressing supported -/
  volumes : Bool
deriving DecidableEq, Repr

/-- What training one channel found (R188). -/
structure NandTraining where
  /-- the first step that failed, 0 for none, beside what the search and the parameter pages decide -/
  failStep : Nat
  /-- the swizzle search's answers (R189): a tried byte and the 256 raw bytes read after it -/
  answers : List (BitVec 8 × Bytes)
  /-- the parameter page of each die found, in order of die number -/
  parts : List NandPart
  /-- factory-marked bad blocks: die and block -/
  badBlocks : List (Nat × Nat)
  /-- DQS and RE swaps under which the read-DQ pattern is clean (R190) -/
  clean : List (Bool × Bool)
deriving DecidableEq, Repr

/-- What one codeword read returned (R195): how many bits of it are zero, and the hard or soft decode's corrected bits
(none: it does not decode). -/
structure CwOutcome where
  /-- zero bits of the codeword -/
  zeros : Nat
  /-- corrected bits, none when it does not decode -/
  corrected : Option Nat
deriving DecidableEq, Repr

/-- A lane width of an operate instruction (R347). -/
inductive Lane where
  | w64 | w32 | w16 | w8
deriving DecidableEq, Repr

/-- The modifier of an operate instruction (R347): lane width, signed, saturating. -/
structure OpMod where
  /-- lane width -/
  w : Lane
  /-- signed -/
  s : Bool
  /-- saturating -/
  t : Bool
deriving DecidableEq, Repr

/-- What ECC said of a load's word (R318). -/
inductive Ecc where
  | none | corrected | uncorrectable
deriving DecidableEq, Repr

/-- A core and the first parcel of an encoding it meets (R337). -/
structure BadParcel where
  /-- core -/
  core : Fin 72
  /-- first parcel -/
  parcel : BitVec 16
deriving DecidableEq, Repr

/-- One segment of a command's data pointer: host memory, or a bit bucket. -/
inductive DSeg where
  | block (addr len : Nat) | bitBucket (len : Nat)
deriving DecidableEq, Repr

/-- An admin command as fetched: issuing function, submission queue, command identifier, NSID and data pointer. -/
structure Cmd where
  /-- issuing function -/
  fn : Nat
  /-- submission queue identifier -/
  sq : Nat
  /-- command identifier -/
  cid : Nat
  /-- namespace identifier -/
  nsid : Nat
  /-- data pointer -/
  dptr : List DSeg
deriving DecidableEq, Repr

/-- The key of a fetched I/O command. -/
structure CmdKey where
  /-- issuing function -/
  fn : Nat
  /-- submission queue identifier -/
  sq : Nat
  /-- command identifier -/
  cid : Nat
deriving DecidableEq, Repr

/-- An I/O command in a submission queue. -/
structure IoCmd where
  /-- issuing function -/
  fn : Nat
  /-- submission queue identifier -/
  sq : Nat
  /-- command identifier -/
  cid : Nat
  /-- opcode -/
  opcode : Nat
  /-- namespace identifier -/
  nsid : Nat
  /-- data pointer -/
  dptr : List DSeg
  /-- CDW10 to CDW15 -/
  cdw10 : Nat
  /-- CDW11 -/
  cdw11 : Nat
  /-- CDW12 -/
  cdw12 : Nat
  /-- CDW13 -/
  cdw13 : Nat
  /-- CDW14 -/
  cdw14 : Nat
  /-- CDW15 -/
  cdw15 : Nat
deriving DecidableEq, Repr

/-- One range of a memory range set (R497). -/
structure MemRange where
  /-- memory namespace -/
  nsid : Nat
  /-- length in bytes -/
  len : Nat
  /-- start byte -/
  start : Nat
deriving DecidableEq, Repr

/-- The Drove packet envelope (R508): receiving physical port, source, destination and hops left. -/
structure DroveHdr where
  /-- physical port it arrived on -/
  port : Port
  /-- SRC, 0xFF before formation -/
  src : BitVec 8
  /-- DST, 0xFF for all members -/
  dst : BitVec 8
  /-- TTL -/
  ttl : BitVec 8
deriving DecidableEq, Repr

/-- IDENT (R508, R509). -/
structure IdentPkt where
  /-- envelope -/
  h : DroveHdr
  /-- SET_ID -/
  setId : BitVec 64
  /-- device serial -/
  serial : Bytes
  /-- physical port sent from -/
  sentFrom : Port
  /-- OTP role -/
  role : BitVec 8
  /-- EPOCH -/
  epoch : BitVec 32
deriving DecidableEq, Repr

/-- FORM (R508, R510, R511). -/
structure FormPkt where
  /-- envelope -/
  h : DroveHdr
  /-- EPOCH -/
  epoch : BitVec 32
  /-- NEXT_INDEX -/
  nextIndex : BitVec 8
  /-- MANAGER -/
  manager : BitVec 8
  /-- STANDBY -/
  standby : BitVec 8
  /-- CONFIG_N -/
  configN : BitVec 8
  /-- LIVE mask -/
  live : BitVec 32
  /-- TOPOLOGY -/
  topology : BitVec 8
deriving DecidableEq, Repr

/-- A Drove HEARTBEAT (R508, R514). -/
structure DroveHbPkt where
  /-- envelope -/
  h : DroveHdr
  /-- EPOCH -/
  epoch : BitVec 32
  /-- active role -/
  role : BitVec 8
  /-- FLAGS -/
  flags : BitVec 8
  /-- LIVE mask heard -/
  live : BitVec 32
  /-- DTIME -/
  dtime : BitVec 64
deriving DecidableEq, Repr

/-- TIME (R508, R517). -/
structure TimePkt where
  /-- envelope -/
  h : DroveHdr
  /-- DTIME at send -/
  dtime : BitVec 64
  /-- ECHO -/
  echo : BitVec 64
  /-- HOLD_NS -/
  hold : BitVec 32
deriving DecidableEq, Repr

/-- ORDER (R508, R519-R521). -/
structure OrderPkt where
  /-- envelope -/
  h : DroveHdr
  /-- EPOCH -/
  epoch : BitVec 32
  /-- OP_ID -/
  opId : BitVec 32
  /-- OP, as SET SERVICE ACTION -/
  op : BitVec 8
  /-- PHASE -/
  phase : BitVec 8
  /-- T -/
  t : BitVec 64
  /-- PARAM, 32 bytes -/
  param : Bytes
deriving DecidableEq, Repr

/-- REPLY (R508, R519). -/
structure ReplyPkt where
  /-- envelope -/
  h : DroveHdr
  /-- EPOCH -/
  epoch : BitVec 32
  /-- OP_ID -/
  opId : BitVec 32
  /-- STATUS -/
  status : BitVec 8
  /-- REASON -/
  reason : BitVec 8
  /-- RESULT, 44 bytes -/
  result : Bytes
deriving DecidableEq, Repr

/-- MIRROR (R508, R513): the record's first byte is the set-state format's version. -/
structure MirrorPkt where
  /-- envelope -/
  h : DroveHdr
  /-- EPOCH -/
  epoch : BitVec 32
  /-- MSEQ -/
  mseq : BitVec 32
  /-- set-state record -/
  data : Bytes
deriving DecidableEq, Repr

/-- REG_REQ (R508, R523). -/
structure RegReqPkt where
  /-- envelope -/
  h : DroveHdr
  /-- the request -/
  req : CtrlReqPkt
deriving DecidableEq, Repr

/-- REG_RSP (R508, R523). -/
structure RegRspPkt where
  /-- envelope -/
  h : DroveHdr
  /-- TAG -/
  tag : BitVec 16
  /-- STATUS -/
  status : BitVec 8
  /-- ERR_CODE -/
  err : BitVec 16
  /-- DATA -/
  data : BitVec 64
deriving DecidableEq, Repr

/-- What DRAM training found on the four channels (R528-R531). -/
structure DramTraining where
  /-- every DIMM is rated for 6,400 MT/s or more and no DRAM requires refresh management (R528) -/
  rated : Bool
  /-- per channel: GiB fitted (0 none), x8, two ranks, trained -/
  chans : List (Nat × Bool × Bool × Bool)
  /-- per channel and lane: read-DQS delay, write-DQ delay, eye -/
  lanes : List (List (Nat × Nat × Nat))
deriving DecidableEq, Repr

/-- One regulator's telemetry answer (R558). -/
structure VregReading where
  /-- slot -/
  slot : Nat
  /-- the slot answered -/
  ack : Bool
  /-- the PEC held -/
  pecOk : Bool
  /-- STATUS_WORD -/
  status : BitVec 16
  /-- READ_VOUT in mV -/
  mv : BitVec 16
  /-- IOUT, 10 mA units -/
  iout : BitVec 16
  /-- POUT, 10 mW units -/
  pout : BitVec 16
  /-- VOUT_MODE is ULINEAR16 -/
  linear : Bool
deriving DecidableEq, Repr

/-- The commands of the block: one constructor for each row of `spec/opcode_table.json`, in the table's order. -/
inductive Instr where
  /-- REGISTER_WRITE (R645). A write to a register that has no row of its own, checked in the order of R645 and then applied or refused. -/
  | registerWrite (o : Origin) (page : Nat) (off : Nat) (len : Nat) (v : BitVec 64)
  /-- ERR_CODE_CLEAR (R40). Writing 1 to ERR_CODE.VALID clears CODE, COUNT and ERR_INFO, and EVENT_RAW.ERR falls. -/
  | errCodeClear (o : Origin) (page : Nat)
  /-- ENABLE_CLEAR (R38). Clearing PAGE_CTRL.ENABLE stops the block accepting new work, unless the page lacks HAS_DISABLE or the block holds take work. -/
  | enableClear (o : Origin) (page : Nat)
  /-- SOFT_RESET (R38). Writing PAGE_CTRL.SOFT_RESET returns the block to reset state except RWS fields, unless refused. -/
  | softReset (o : Origin) (page : Nat)
  /-- PERTURB_POINT_SELECT (R600). A write of PERTURB_SEL.POINT names a perturbation profile for the page, or turns it off. -/
  | perturbPointSelect (o : Origin) (page : Nat) (point : BitVec 8)
  /-- PENDING_LOW_DISCARD (R47). A pending low word of a 64-bit write is discarded 1 µs after it was written. -/
  | pendingLowDiscard (o : Origin)
  /-- FAULT_INTAKE (R608). The FAULT block takes one report from the intake queue and writes, coalesces or loses it in the rings. -/
  | faultIntake
  /-- FAULT_CONSUME (R612). A write of FAULT.CONSUME consumes the oldest unread entries of the device ring. -/
  | faultConsume (o : Origin) (n : BitVec 13)
  /-- GATE_LINK_UP (R52). Gate training from Detect completes and the link enters ACTIVE at 64 GT/s; credits and heartbeats start. -/
  | gateLinkUp (good : BitVec 16) (rev : Bool) (inv : BitVec 16)
  /-- GATE_TRAIN_FAIL (R52). Equalisation at 64 GT/s fails on fewer than four lanes; the failure is recorded. -/
  | gateTrainFail (good : BitVec 16)
  /-- GATE_TRAIN_RETRY (R52). 100 ms after a training failure the Gate link returns to Detect. -/
  | gateTrainRetry
  /-- GATE_LANE_LOST (R55). A lane loses lock for over 4 µs or exceeds the FEC threshold; credits are held and the link retrains narrower. -/
  | gateLaneLost (lane : Fin 16)
  /-- GATE_RETRAIN_DONE (R57). The reduced-width retrain completes, replay resumes and CL_DATA advances again. -/
  | gateRetrainDone (bad : BitVec 16)
  /-- GATE_LINK_DOWN (R58). The Gate link goes down; open frames end with STATUS 0x03, the tunnel ends and unacknowledged device packets are held. -/
  | gateLinkDown
  /-- TAKE_LINK_LOST (R107). GATE.LINK_GRACE_MS expires with the link still down, and the take closes with REASON 0x03. -/
  | takeLinkLost
  /-- FULL_RETRAIN (R56). A write of GATE.LINK_CTRL.FULL_RETRAIN takes the link down on purpose and trains it from Detect. -/
  | fullRetrain (o : Origin)
  /-- GATE_FLIT_RX (R63). A received flit is checked for CRC and sequence, acknowledged or NAKed, and its link area and credits applied. -/
  | gateFlitRx (f : Flit)
  /-- GATE_REPLAY_TIMEOUT (R64). No ACKSEQ advance within 2 µs makes the sender replay from the first unacknowledged flit. -/
  | gateReplayTimeout
  /-- GATE_PACKET_SEND (R80). A queued device packet such as FRAME_ACK or TAKE_GRANT is sent once CTRL credit allows. -/
  | gatePacketSend
  /-- GATE_HEARTBEAT_TX (R86). Every HB_PERIOD the device sends a HEARTBEAT carrying DTIME, width, state and Lee fill. -/
  | gateHeartbeatTx
  /-- TAKE_OPEN (R111). A TAKE_OPEN packet starts admission, or is refused with REASON 0x10 while a take is open. -/
  | takeOpen (p : TakeOpenPkt)
  /-- TAKE_GRANT (R92). Admission completes: reservations are made, the namespace and header are created and TAKE_GRANT is sent, or the take is refused. -/
  | takeGrant
  /-- TAKE_CLOSE (R111). A TAKE_CLOSE packet naming the open take moves it to CLOSING. -/
  | takeClose (id : BitVec 64)
  /-- FRAME_BEGIN (R76). A FRAME_BEGIN packet opens a frame on its stream, or is refused, and ends any frame left open. -/
  | frameBegin (p : FrameBeginPkt)
  /-- FRAME_DATA (R77). A FRAME_DATA packet adds payload to the stream's open frame, or is discarded and marks the frame. -/
  | frameData (p : FrameDataPkt)
  /-- FRAME_END (R78). A FRAME_END packet closes the open frame, checks its CRC and marks it under the frame-level rules. -/
  | frameEnd (p : FrameEndPkt)
  /-- META (R79). A META packet writes metadata bytes of the open frame, discarding bytes beyond 4,096. -/
  | metaPacket (p : MetaPkt)
  /-- TRIGGER (R82). A TRIGGER packet supplies a trigger time and window for a ring take. -/
  | trigger (p : TriggerPkt)
  /-- CTRL_REQ (R84). A CTRL_REQ packet executes a tunnelled register access and answers with CTRL_RSP. -/
  | ctrlReq (p : CtrlReqPkt)
  /-- HEARTBEAT (R87). A camera HEARTBEAT answering a device heartbeat updates GATE.RTT_NS. -/
  | heartbeat (p : HeartbeatPkt)
  /-- TAKE_DURATION_EXPIRY (R111). The granted DURATION passes and the take moves to CLOSING. -/
  | takeDurationExpiry
  /-- TAKE_RATE_BREACH (R99). Unsecured data reaches UNSECURED_CAP; DATA credits are withheld and the take enters HELD. -/
  | takeRateBreach
  /-- TAKE_BREACH_RELEASE (R99). Unsecured data falls below the cap by the release margin; credits are released and the take returns to OPEN. -/
  | takeBreachRelease
  /-- TAKE_RATIO_MEASURE (R100). Each second the take's ratio is measured into RATIO_NOW and TAKE_RATIO_LOW is recorded if below MIN_RATIO. -/
  | takeRatioMeasure
  /-- SECURE_WINDOW_PAD (R103). The tail stripe has held data for SECURE_WINDOW without filling, and a PAD record closes it. -/
  | secureWindowPad
  /-- STRIPE_CLOSE (R101). The last program unit of a stripe completes with pass status and the secured prefix advances. -/
  | stripeClose
  /-- TAKE_CLOSED (R75). Every frame of a closing take is secured or answered and the trailer is durable; TAKE_CLOSED is sent and reservations are released. -/
  | takeClosed
  /-- FALLOW_RESERVATION_USED (R108). A FALLOW take exhausts its Fallow reservation before DURATION and becomes ERASING for the rest of the take. -/
  | fallowReservationUsed
  /-- MEDIA_CAPACITY_FULL (R247). An ERASING take's room is used up and the take closes with REASON 0x02. -/
  | mediaCapacityFull
  /-- SUMMARY_KEY_COMPLETE (R129). A frame's summary record and 256-bit key are complete and the SUMM registers are updated. -/
  | summaryKeyComplete (uid : Nat)
  /-- RULE_SEARCH (R137). The summary key is searched in the trigger rule table, and a match of sufficient class raises a trigger. -/
  | ruleSearch (uid : Nat)
  /-- SLICE_RELEASE (R167). A verified slice is released to the digest snoop and cipher, and its records are appended to the container. -/
  | sliceRelease
  /-- TRIG_PIN_EDGE (R136). A qualified edge on TRIG_IN0 to TRIG_IN2 raises a trigger, subject to hold-off and ownership. -/
  | trigPinEdge (pin : Fin 3) (rising : Bool) (heldNs : Nat)
  /-- SW_FIRE (R135). A write of TRIG.SW_FIRE.FIRE raises a source-5 trigger with SW_TIME and the software windows. -/
  | swFire (o : Origin) (tag : BitVec 16)
  /-- WINDOW_SEAL (R143). DTIME passes the window end plus SETTLE_MS and the window is sealed. -/
  | windowSeal (slot : Fin 64)
  /-- WINDOW_COPY_START (R143). Every pinned frame of a sealed window is secured; the kept take is created and its copy begins. -/
  | windowCopyStart (slot : Fin 64)
  /-- KEPT_TAKE_SEALED (R143). The kept take's copy, final INDEX, MANIFEST and trailer are durable; the kept take is sealed and the window freed. -/
  | keptTakeSealed (slot : Fin 64)
  /-- SHEARS_BLOCK_VERIFIED (R166). A lane's verify decompressor finishes comparing a compressed block with its input. -/
  | shearsBlockVerified (lane : Fin 12) (ok : Bool)
  /-- SHEARS_REEMIT_DONE (R168). A stored re-emission finishes verification; the slice is released, retried again or written LOST.
`miss` is the input block whose stored blocks mismatched, none when the copy compares. -/
  | shearsReemitDone (lane : Fin 12) (miss : Option Nat)
  /-- SHEARS_JOB_MIGRATE (R179). At a DEFLATE block boundary a job on a newly reserved lane moves its state to an unreserved lane. -/
  | shearsJobMigrate (lane : Fin 12)
  /-- LANE_CTRL_RETIRE (R182). A write of LANE_CTRL.RETIRE retires the lane, refused while it is reserved. -/
  | laneCtrlRetire (o : Origin) (lane : Fin 12)
  /-- COMPRESS (R174). A Shears COMPRESS job compresses and verifies its input into the bucket and chain buffers. -/
  | compress (src : JobSrc) (lane : Fin 12) (bad : List Nat)
  /-- INFLATE (R178). A Shears INFLATE job decodes a raw, zlib or gzip stream into the destination. -/
  | inflate (src : JobSrc) (lane : Fin 12)
  /-- INFLATE_UNPREDICT (R174). A Shears INFLATE_UNPREDICT job inflates a SLICE record, inverts prediction and checks the raw CRC. -/
  | inflateUnpredict (src : JobSrc) (lane : Fin 12)
  /-- SHEARS_JOB_COMPLETE (R177). A Shears job ends, zeroes output on failure, writes its completion record and sets its done bit. -/
  | shearsJobComplete (lane : Fin 12)
  /-- NAND_TRAIN_START (R188). At power-up from FOLD each NAND channel powers up and begins its training steps. -/
  | nandTrainStart
  /-- NAND_TRAIN_DONE (R188). A channel completes its training steps and becomes ACTIVE, or fails a step and is retired. -/
  | nandTrainDone (ch : Fin 32) (r : NandTraining)
  /-- NAND_PWR_FAULT (R201). NAND_PWR_FLT[n] stays low for 1 µs; the channel is powered off, isolated and marked FAULT. -/
  | nandPwrFault (ch : Fin 32)
  /-- NAND_DIE_TIMEOUT (R200). A die stays busy past twice its maximum after one RESET and is failed. -/
  | nandDieTimeout (ch : Fin 32) (die : Fin 16)
  /-- NAND_READ_DONE (R195). A read's codewords are transferred and hard-decoded, and each is classified or sent to the retry ladder. -/
  | nandReadDone (ch : Fin 32) (die : Fin 16) (rs : List CwOutcome)
  /-- NAND_RETRY_STEP (R196). A retry-ladder re-read at the next table entry completes and is hard-decoded. -/
  | nandRetryStep (ch : Fin 32) (die : Fin 16) (rs : List CwOutcome)
  /-- NAND_SOFT_DECODE (R197). The three soft reads complete; soft decoding gives class 3 or 4 and the default entry is restored. -/
  | nandSoftDecode (ch : Fin 32) (die : Fin 16) (rs : List CwOutcome)
  /-- NAND_PROGRAM_DONE (R200). A die program completes; a pass advances the stripe and a fail retires the block and rewrites the units. -/
  | nandProgramDone (ch : Fin 32) (die : Fin 16) (pass : Bool)
  /-- NAND_ERASE_DONE (R200). A die erase completes; a fail retires the block. -/
  | nandEraseDone (ch : Fin 32) (die : Fin 16) (pass : Bool)
  /-- NAND_ZQ_SHORT (R184). Every NAND.ZQ_PERIOD the channel runs ZQ short calibration. -/
  | nandZqShort (ch : Fin 32)
  /-- FORCE_OFF (R202). A write of NAND.PWR_CTRL.FORCE_OFF retires an ACTIVE channel as a power fault would, without a fault record. -/
  | forceOff (o : Origin) (ch : Fin 32)
  /-- RETRAIN (R202). A write of NAND.TRAIN_CTRL.RETRAIN reruns training steps 5 to 8, refused while a take is open. -/
  | retrain (o : Origin) (ch : Fin 32) (ok : Bool)
  /-- JOURNAL_PAGE_WRITE (R224). A journal page is written three times in SLC when full or 1 ms after its first record. -/
  | journalPageWrite
  /-- JOURNAL_PAGE_DURABLE (R224). All three copies of a journal page complete program and its records become durable. -/
  | journalPageDurable
  /-- CKPT_NOW (R228). A write of MEDIA.CTRL.CKPT_NOW starts a checkpoint, refused while one is in progress. -/
  | ckptNow (o : Origin)
  /-- CHECKPOINT_PERIOD (R228). MEDIA.CKPT_PERIOD seconds pass and a checkpoint starts. -/
  | checkpointPeriod
  /-- CHECKPOINT_JOURNAL_LIMIT (R228). The journal since the last checkpoint reaches 1 GiB and a checkpoint starts. -/
  | checkpointJournalLimit
  /-- CHECKPOINT_DONE (R227). The checkpoint record's three copies are durable and the Tally pointer is written. -/
  | checkpointDone
  /-- SLC_RESIZE (R216). Each second the SLC region size S is recomputed from free capacity. -/
  | slcResize
  /-- SLC_MIGRATION (R218). SLC data exceeds S or free room falls below 10%, and the oldest SLC groups migrate to TLC or QLC. -/
  | slcMigration
  /-- GC_VICTIM_SELECT (R234). Garbage collection chooses a victim group by score or greedily and starts relocating it. -/
  | gcVictimSelect
  /-- REFRESH_RELOCATE (R240). A queued group is refreshed by relocating its valid units. -/
  | refreshRelocate
  /-- PATROL (R241). A patrol pass reads every closed group once per PATROL.DAYS, or at boot after a long power-off. -/
  | patrol
  /-- WEAR_LEVEL (R243). The erase spread on a die exceeds WEAR_SPREAD and the least-worn closed group is relocated. -/
  | wearLevel (ch : Fin 32) (die : Fin 16)
  /-- RELOCATION_COPY_DONE (R232). A relocation copy is programmed and its journal records and GROUP_FREE are appended. -/
  | relocationCopyDone
  /-- GROUP_ERASE (R226). A freed group's invalidating records and GROUP_FREE are durable, and its erase is issued. -/
  | groupErase (g : Nat)
  /-- GROUP_ERASED (R238). A group's erase completes, ERASED is appended and its blocks enter the Fallow pool. -/
  | groupErased (g : Nat)
  /-- MAP_PAGE_RELOAD (R215). A map page that DRAM returned uncorrectable is rebuilt from flash and the journal. -/
  | mapPageReload (page : Nat)
  /-- BLOCK_WRITE_BUFFER_DRAIN (R459). Data in the block write buffer is programmed out, with pad units, within 5 ms of its arrival. -/
  | blockWriteBufferDrain
  /-- KEY_TABLE_PURGE (R425). Metadata groups holding earlier copies of a deleted key record are relocated and erased within 60 s. -/
  | keyTablePurge
  /-- STRIPE_SNAPSHOT (R269). Each millisecond in which the open set changed, a stripe-journal snapshot is written to three dies. -/
  | stripeSnapshot
  /-- BITMAP_MOVE (R273). After M word writes the region bitmap is copied to the next Tally position. -/
  | bitmapMove
  /-- REBUILD_STRIPE (R281). A degraded or critical stripe is reconstructed into replacement blocks with rebuilt META. -/
  | rebuildStripe
  /-- RESYNC_STRIPE (R275). A pending stripe is read and marked consistent, or relocated and marked void. -/
  | resyncStripe
  /-- RESHAPE_START (R286). A write of ARRAY.RESHAPE_CTRL.START begins a reshape to TARGET_K, unless refused. -/
  | reshapeStart (o : Origin) (k : BitVec 2)
  /-- RESHAPE_REGION (R288). A reshape region's units are relocated, the boundary advances and the reshape checkpoint is written. -/
  | reshapeRegion
  /-- ARRAY_RETIRE (R279). A write of ARRAY.RETIRE_CTRL.RETIRE retires the named die, unless refused. -/
  | arrayRetire (o : Origin) (die : BitVec 9)
  /-- LIT (R341). Pushes a sign-extended 15-bit literal. -/
  | lit (c : Fin 72) (v : BitVec 15)
  /-- JMP (R342). Short jump to a relative target. -/
  | jmp (c : Fin 72) (d : BitVec 12)
  /-- JZ (R342). Short branch taken when the popped entry is zero. -/
  | jz (c : Fin 72) (d : BitVec 12)
  /-- JNZ (R342). Short branch taken when the popped entry is non-zero. -/
  | jnz (c : Fin 72) (d : BitVec 12)
  /-- CALL (R342). Short call that pushes the return address with tag 1. -/
  | call (c : Fin 72) (d : BitVec 12)
  /-- JMP_LONG (R343). Long jump with a 22-bit offset. -/
  | jmpLong (c : Fin 72) (d : BitVec 22)
  /-- JZ_LONG (R343). Long branch taken if zero. -/
  | jzLong (c : Fin 72) (d : BitVec 22)
  /-- JNZ_LONG (R343). Long branch taken if non-zero. -/
  | jnzLong (c : Fin 72) (d : BitVec 22)
  /-- CALL_LONG (R343). Long call with a 22-bit offset. -/
  | callLong (c : Fin 72) (d : BitVec 22)
  /-- LIT32 (R344). Pushes a 32-bit literal, zero- or sign-extended. -/
  | lit32 (c : Fin 72) (sx : Bool) (v : BitVec 32)
  /-- LIT64 (R344). Pushes a 64-bit literal. -/
  | lit64 (c : Fin 72) (v : BitVec 64)
  /-- JMPA (R344). Jumps to an absolute 48-bit address. -/
  | jmpa (c : Fin 72) (t : BitVec 48)
  /-- CALLA (R344). Calls an absolute 48-bit address. -/
  | calla (c : Fin 72) (t : BitVec 48)
  /-- ADDI (R344). Adds a sign-extended 8-bit immediate to the top entry. -/
  | addi (c : Fin 72) (i : BitVec 8)
  /-- LD (R345). Short-form load from the top entry plus a scaled offset. -/
  | ld (c : Fin 72) (w : Lane) (i : BitVec 8) (e : Ecc)
  /-- LDL (R345). Short-form load from LP plus a scaled offset. -/
  | ldl (c : Fin 72) (w : Lane) (i : BitVec 8) (e : Ecc)
  /-- ST (R345). Short-form store to the top entry plus a scaled offset. -/
  | st (c : Fin 72) (w : Lane) (i : BitVec 8)
  /-- STL (R345). Short-form store to LP plus a scaled offset. -/
  | stl (c : Fin 72) (w : Lane) (i : BitVec 8)
  /-- BTST (R346). Pushes core bit a. -/
  | btst (c : Fin 72) (a : BitVec 10)
  /-- BSET (R346). Sets core bit a. -/
  | bset (c : Fin 72) (a : BitVec 10)
  /-- BCLR (R346). Clears core bit a. -/
  | bclr (c : Fin 72) (a : BitVec 10)
  /-- BST (R346). Stores bit 0 of the popped entry into core bit a. -/
  | bst (c : Fin 72) (a : BitVec 10)
  /-- DUP (R347). Duplicates the top entry. -/
  | dup (c : Fin 72)
  /-- DROP (R347). Discards the top entry. -/
  | drop (c : Fin 72)
  /-- SWAP (R347). Exchanges the top two entries. -/
  | swap (c : Fin 72)
  /-- OVER (R347). Copies the second entry to the top. -/
  | over (c : Fin 72)
  /-- NIP (R347). Discards the second entry. -/
  | nip (c : Fin 72)
  /-- TUCK (R347). Copies the top entry below the second. -/
  | tuck (c : Fin 72)
  /-- ROT (R347). Rotates the top three entries. -/
  | rot (c : Fin 72)
  /-- PICK (R347). Copies entry n, 0 to 30, to the top. -/
  | pick (c : Fin 72)
  /-- TORS (R347). Moves a data entry to the return stack with tag 0. -/
  | tors (c : Fin 72)
  /-- FROMRS (R347). Moves the top return entry to the data stack. -/
  | fromrs (c : Fin 72)
  /-- RSCOPY (R347). Copies the top return entry to the data stack. -/
  | rscopy (c : Fin 72)
  /-- RSDROP (R347). Discards the top return entry. -/
  | rsdrop (c : Fin 72)
  /-- ADD (R348). Lane-wise addition, wrapping or saturating. -/
  | add (c : Fin 72) (m : OpMod)
  /-- SUB (R348). Lane-wise subtraction. -/
  | sub (c : Fin 72) (m : OpMod)
  /-- MUL (R348). Lane-wise low product, or the clamped product with T. -/
  | mul (c : Fin 72) (m : OpMod)
  /-- MULH (R348). Lane-wise high half of the product. -/
  | mulh (c : Fin 72) (m : OpMod)
  /-- DIV (R348). Lane-wise division truncated toward zero; a zero divisor traps DIV_ZERO. -/
  | div (c : Fin 72) (m : OpMod)
  /-- MOD (R348). Lane-wise remainder with the sign of a. -/
  | mod (c : Fin 72) (m : OpMod)
  /-- NEG (R348). Lane-wise negation. -/
  | neg (c : Fin 72) (m : OpMod)
  /-- ABS (R348). Lane-wise absolute value. -/
  | abs (c : Fin 72) (m : OpMod)
  /-- MIN (R348). Lane-wise minimum. -/
  | min (c : Fin 72) (m : OpMod)
  /-- MAX (R348). Lane-wise maximum. -/
  | max (c : Fin 72) (m : OpMod)
  /-- CMPEQ (R348). Lane-wise equality mask. -/
  | cmpeq (c : Fin 72) (m : OpMod)
  /-- CMPLT (R348). Lane-wise signed less-than mask. -/
  | cmplt (c : Fin 72) (m : OpMod)
  /-- CMPLTU (R348). Lane-wise unsigned less-than mask. -/
  | cmpltu (c : Fin 72) (m : OpMod)
  /-- AND (R348). 64-bit bitwise AND. -/
  | and (c : Fin 72) (m : OpMod)
  /-- OR (R348). 64-bit bitwise OR. -/
  | or (c : Fin 72) (m : OpMod)
  /-- XOR (R348). 64-bit bitwise XOR. -/
  | xor (c : Fin 72) (m : OpMod)
  /-- NOT (R348). 64-bit bitwise NOT. -/
  | not (c : Fin 72) (m : OpMod)
  /-- SHL (R348). Lane-wise left shift. -/
  | shl (c : Fin 72) (m : OpMod)
  /-- SHR (R348). Lane-wise logical right shift. -/
  | shr (c : Fin 72) (m : OpMod)
  /-- SAR (R348). Lane-wise arithmetic right shift. -/
  | sar (c : Fin 72) (m : OpMod)
  /-- ROL (R348). Lane-wise rotate left. -/
  | rol (c : Fin 72) (m : OpMod)
  /-- POPC (R348). Lane-wise population count. -/
  | popc (c : Fin 72) (m : OpMod)
  /-- CLZ (R348). Lane-wise leading-zero count. -/
  | clz (c : Fin 72) (m : OpMod)
  /-- CTZ (R348). Lane-wise trailing-zero count. -/
  | ctz (c : Fin 72) (m : OpMod)
  /-- SPLAT (R348). Copies lane 0 into every lane. -/
  | splat (c : Fin 72) (m : OpMod)
  /-- EXT (R348). Extracts lane n, zero- or sign-extended. -/
  | ext (c : Fin 72) (m : OpMod)
  /-- INS (R348). Replaces lane n with the low bits of v. -/
  | ins (c : Fin 72) (m : OpMod)
  /-- FADD (R350). Floating-point addition per lane. -/
  | fadd (c : Fin 72) (m : OpMod)
  /-- FSUB (R350). Floating-point subtraction per lane. -/
  | fsub (c : Fin 72) (m : OpMod)
  /-- FMUL (R350). Floating-point multiplication per lane. -/
  | fmul (c : Fin 72) (m : OpMod)
  /-- FDIV (R350). Floating-point division per lane. -/
  | fdiv (c : Fin 72) (m : OpMod)
  /-- FMA (R350). Fused multiply-add per lane, rounded once. -/
  | fma (c : Fin 72) (m : OpMod)
  /-- FMIN (R350). IEEE minimum per lane. -/
  | fmin (c : Fin 72) (m : OpMod)
  /-- FMAX (R350). IEEE maximum per lane. -/
  | fmax (c : Fin 72) (m : OpMod)
  /-- FCMPEQ (R350). Quiet floating-point equality mask. -/
  | fcmpeq (c : Fin 72) (m : OpMod)
  /-- FCMPLT (R350). Signalling floating-point less-than mask. -/
  | fcmplt (c : Fin 72) (m : OpMod)
  /-- CVT_F (R350). Converts integer lanes to floats of the same width. -/
  | cvtF (c : Fin 72) (m : OpMod)
  /-- CVT_I (R350). Converts float lanes to integers of the same width. -/
  | cvtI (c : Fin 72) (m : OpMod)
  /-- CVT_W (R350). Widens binary16 lanes 0 and 1 to binary32. -/
  | cvtW (c : Fin 72) (m : OpMod)
  /-- CVT_N (R350). Narrows binary32 lanes 0 and 1 to binary16. -/
  | cvtN (c : Fin 72) (m : OpMod)
  /-- EXEC (R351). Calls the popped address, pushing a tag-1 return address. -/
  | execCall (c : Fin 72) (m : OpMod)
  /-- RET (R351). Returns to the top return entry, trapping RS_TAG on a tag-0 entry. -/
  | ret (c : Fin 72) (m : OpMod)
  /-- JMPI (R351). Jumps to the popped address. -/
  | jmpi (c : Fin 72) (m : OpMod)
  /-- LOAD (R351). Indirect load of 1 to 8 bytes. -/
  | load (c : Fin 72) (m : OpMod) (e : Ecc)
  /-- STORE (R351). Indirect store of 1 to 8 bytes. -/
  | store (c : Fin 72) (m : OpMod)
  /-- BTSTI (R351). Tests a core or common bit given by address. -/
  | btsti (c : Fin 72) (m : OpMod)
  /-- BSETI (R351). Sets a bit given by address. -/
  | bseti (c : Fin 72) (m : OpMod)
  /-- BCLRI (R351). Clears a bit given by address. -/
  | bclri (c : Fin 72) (m : OpMod)
  /-- BSTI (R351). Stores bit 0 of x into a bit given by address. -/
  | bsti (c : Fin 72) (m : OpMod)
  /-- BTAS (R351). Tests and sets a bit as one indivisible step. -/
  | btas (c : Fin 72) (m : OpMod)
  /-- TRAP (R352). Raises a SOFT trap with an immediate. -/
  | trap (c : Fin 72) (n : BitVec 8)
  /-- SYS_READ (R353). Pushes a core register. -/
  | sysRead (c : Fin 72) (n : BitVec 4)
  /-- SYS_WRITE (R353). Writes a core register under its rules. -/
  | sysWrite (c : Fin 72) (n : BitVec 4)
  /-- NOP (R354). Does nothing. -/
  | nop (c : Fin 72)
  /-- RTI (R315). Returns from a trap handler to TRAPPC. -/
  | rti (c : Fin 72)
  /-- WAIT (R325). Sleeps until a bit is set or a cycle limit passes. -/
  | wait (c : Fin 72)
  /-- WAIT_WAKE (R325). A write to the awaited bit wakes a waiting core, which pushes 1. -/
  | waitWake (c : Fin 72)
  /-- WAIT_TIMEOUT (R325). A WAIT's cycle limit passes and it pushes 0. -/
  | waitTimeout (c : Fin 72)
  /-- POLL (R354). Tests a bit without sleeping. -/
  | poll (c : Fin 72)
  /-- SUBMIT (R323). Writes back and drains, then queues a 64-byte job descriptor and pushes a status. -/
  | submit (c : Fin 72)
  /-- DEPTH (R354). Pushes the number of data entries. -/
  | depth (c : Fin 72)
  /-- RDEPTH (R354). Pushes the number of return entries. -/
  | rdepth (c : Fin 72)
  /-- FENCE (R356). Writes back, invalidates or drains caches and accesses as its options select. -/
  | fence (c : Fin 72) (o : BitVec 4)
  /-- CUSTOM (R357). Runs a decode-table entry's microprogram on the core's operands. -/
  | custom (c : Fin 72) (e : BitVec 6) (m : BitVec 4)
  /-- CORE_PARK (R326). A write of CORE_CTRL.PARK stops the core at its next instruction boundary. -/
  | corePark (o : Origin) (c : Fin 72)
  /-- CORE_RESUME (R334). A write of CORE_CTRL.RESUME resumes a core parked through the register. -/
  | coreResume (o : Origin) (c : Fin 72)
  /-- CORE_RETIRE (R334). A write of CORE_CTRL.RETIRE retires the core, refused for a system core when two or fewer are live. -/
  | coreRetire (o : Origin) (c : Fin 72)
  /-- FIRMWARE_IMAGE_DOWNLOAD (R450). Firmware Image Download transfers part of a firmware image. -/
  | firmwareImageDownload (c : Cmd) (off : Nat) (data : Bytes)
  /-- FIRMWARE_COMMIT (R331). Firmware Commit verifies the image and activates it at reset, or without reset through the handover. -/
  | firmwareCommit (c : Cmd) (slot : Nat) (action : BitVec 3)
  /-- FIRMWARE_HANDOVER (R332). Staging ends and one half of the system cores pauses fetch, hands its state over and restarts on the new image. -/
  | firmwareHandover
  /-- HANDOVER_RESUME (R332). The restarted half takes back its duties and fetch resumes. -/
  | handoverResume
  /-- CROOK_UPDATE_ROLLBACK (R333). The restarted half fails to resume within 20 ms and is reloaded with the old image. -/
  | crookUpdateRollback
  /-- MICROCODE_LOAD (R373). MICROCODE LOAD checks a cluster image and parks the cluster's cores. -/
  | microcodeLoad (c : Cmd) (cluster : BitVec 4) (len : Nat) (data : Bytes)
  /-- MICROCODE_CLUSTER_PARKED (R373). Every core of the cluster is parked and the table and store are written. -/
  | microcodeClusterParked
  /-- MICROCODE_RECHECK (R374). The recomputed fingerprint is compared; the cores resume or are stopped, or the write is repeated or fails. -/
  | microcodeRecheck (written : Bytes)
  /-- SEARCH (R385). An Earmark SEARCH job writes one result per key. -/
  | search (src : JobSrc)
  /-- SEARCH_LIST (R385). An Earmark SEARCH_LIST job writes up to LIST_MAX successive results per key. -/
  | searchList (src : JobSrc)
  /-- EARMARK_WRITE (R389). An Earmark WRITE job writes entries to the shadow and then the array. -/
  | earmarkWrite (src : JobSrc)
  /-- INVALIDATE (R385). An Earmark INVALIDATE job zeroes the named entries. -/
  | invalidate (src : JobSrc)
  /-- EARMARK_READ (R385). An Earmark READ job returns entry records from the shadow. -/
  | earmarkRead (src : JobSrc)
  /-- EARMARK_JOB_COMPLETE (R387). An Earmark job ends and writes its completion record and done bit. -/
  | earmarkJobComplete
  /-- BANK_CFG_WRITE (R380). A write of BANK_CFG changing WIDTH or TABLE waits for the port, then clears the bank and its shadow. -/
  | bankCfgWrite (o : Origin) (bank : Fin 32) (width : BitVec 2) (table : BitVec 5) (share : Bool)
  /-- EARMARK_SCRUB (R391). Every 12 µs one row of each bank is compared with its shadow and repaired. -/
  | earmarkScrub (row : BitVec 12) (lost : List Nat)
  /-- XTS_ENCRYPT (R410). A cipher job encrypts data units with XTS. -/
  | xtsEncrypt (src : JobSrc)
  /-- XTS_DECRYPT (R410). A cipher job decrypts data units with XTS. -/
  | xtsDecrypt (src : JobSrc)
  /-- GCM_ENCRYPT (R411). A GCM encryption segment on a context, returning the tag on FINAL. -/
  | gcmEncrypt (src : JobSrc)
  /-- GCM_DECRYPT (R411). A GCM decryption segment on a context, comparing the tag on FINAL. -/
  | gcmDecrypt (src : JobSrc)
  /-- CIPHER_JOB_COMPLETE (R415). A cipher job ends and writes its completion record. -/
  | cipherJobComplete
  /-- MASK_RESEED (R404). After 2^20 generate requests a mask generator is reseeded from the entropy source. -/
  | maskReseed (g : Fin 7)
  /-- DERIVE_KEKS (R418). The key engine derives KEK_MEDIA. -/
  | deriveKeks
  /-- GENERATE (R418). The key engine generates a key into a slot and returns it wrapped. -/
  | generate
  /-- UNWRAP_LOAD (R418). The key engine unwraps a key into a slot; a take closed by an alarm gets its trailer at its next unwrap. -/
  | unwrapLoad
  /-- WRAP (R418). The key engine wraps a slot's key for export. -/
  | wrap
  /-- DERIVE (R418). The key engine derives a key from one slot into another. -/
  | derive
  /-- LOAD_PLAIN (R418). The key engine loads a plaintext key into a function's slot. -/
  | loadPlain
  /-- CLEAR (R418). The key engine zeroises a slot. -/
  | clear
  /-- KEYENG_JOB_COMPLETE (R419). A key-engine job ends and writes its completion record, and the next queued job starts. -/
  | keyengJobComplete
  /-- KEYENG_ALARM (R427). A rail, clock, temperature or entropy alarm zeroises every key, KEK and mask within 1 µs. -/
  | keyengAlarm (src : BitVec 3)
  /-- ENTROPY_HEALTH_FAIL (R430). A health test fails; the alarm is raised and the start-up test restarts. -/
  | entropyHealthFail (apt : Bool)
  /-- ENTROPY_STARTUP_DONE (R430). The 1,024-sample start-up test ends; the source becomes HEALTHY, or FAILED after three failures. -/
  | entropyStartupDone (ok : Bool)
  /-- UNLOCK (R429). A write of KEYENG.KEY_CTRL.UNLOCK derives KEK_MEDIA, refused while an alarm persists. -/
  | unlock (o : Origin)
  /-- ERASE (R440). A write of KEYENG.KEY_CTRL.ERASE zeroises keys as an alarm does. -/
  | erase (o : Origin)
  /-- HASH (R436). A digest job hashes its source, optionally primed. -/
  | hash (src : JobSrc)
  /-- HASH_COMPARE (R438). A digest job hashes and compares against EXPECT with two comparators; `va` and `vb` are the bits a
  disturbance flips in what comparators A and B put out, 0 for none, here and in the rows below. -/
  | hashCompare (src : JobSrc) (va : BitVec 8) (vb : BitVec 8)
  /-- DIGEST_JOB_COMPLETE (R436). A digest job ends and writes its completion record. -/
  | digestJobComplete
  /-- CLAIM (R437). A write of DIGEST FEED_CTRL.CLAIM claims a register-fed unit, refused if held. -/
  | claim (o : Origin)
  /-- RELEASE (R441). A write of FEED_CTRL.RELEASE releases the claimed unit. -/
  | release (o : Origin)
  /-- START (R437). A write of FEED_CTRL.START begins a register-fed message. -/
  | start (o : Origin) (alg : BitVec 2) (cmp : Bool)
  /-- FEED_WORD (R437). A write of FEED_WORD feeds 8 message bytes. -/
  | feedWord (o : Origin) (w : BitVec 64)
  /-- LAST_WORD (R437). The high-word write of LAST_WORD ends the message and produces its digest or verdict. -/
  | lastWord (o : Origin) (w : BitVec 64) (va : BitVec 8) (vb : BitVec 8)
  /-- PERST_RELEASE (R444). PERST# is released; the port mode is read and the port trains. -/
  | perstRelease (port : Port)
  /-- PERST_ASSERT (R500). PERST# asserted on a port resets its functions. -/
  | perstAssert (port : Port)
  /-- PCIE_LINK_UP (R446). A PCIe port completes training, recording HOSTQ_LINK_DEGRADED if slow or narrow. -/
  | pcieLinkUp (port : Port) (speed : BitVec 3) (width : BitVec 5) (flit : Bool) (sris : Bool)
  /-- HOSTQ_LINK_DOWN (R485). A port leaves L0 other than by PERST# or L1.2. -/
  | hostqLinkDown (port : Port)
  /-- DOORBELL_WRITE (R448). A doorbell write updates the queue context and sets the queue's doorbell bit, or is ignored as invalid. -/
  | doorbellWrite (fn : Nat) (qid : Nat) (isCq : Bool) (v : Nat)
  /-- COMMAND_FETCH (R456). The fetch sequencer takes an I/O command, numbers it and takes its range locks. -/
  | commandFetch (x : IoCmd)
  /-- CREATE_IO_SQ (R455). Creates an I/O submission queue within the function's grant. -/
  | createIoSq (c : Cmd) (qid : Nat) (size : Nat) (cqid : Nat) (pc : Bool)
  /-- CREATE_IO_CQ (R455). Creates an I/O completion queue within the function's grant. -/
  | createIoCq (c : Cmd) (qid : Nat) (size : Nat) (vec : Nat) (ien : Bool) (pc : Bool)
  /-- DELETE_IO_SQ (R464). Deletes an I/O submission queue, ending any freeze. -/
  | deleteIoSq (c : Cmd) (qid : Nat)
  /-- DELETE_IO_CQ (R455). Deletes an I/O completion queue. -/
  | deleteIoCq (c : Cmd) (qid : Nat)
  /-- GET_LOG_PAGE (R479). Returns a standard or vendor log page, consuming error-ring entries when LSP bit 0 is set. -/
  | getLogPage (c : Cmd) (lid : Nat) (lsp : BitVec 4) (rae : Bool) (off : Nat) (len : Nat)
  /-- IDENTIFY (R451). Returns identify data. -/
  | identify (c : Cmd) (cns : Nat) (cntid : Nat)
  /-- ABORT (R465). Aborts an unfetched or lock-waiting command. -/
  | abort (c : Cmd) (sqid : Nat) (acid : Nat)
  /-- SET_FEATURES (R450). Sets a supported feature. -/
  | setFeatures (c : Cmd) (fid : Nat) (v : BitVec 32)
  /-- GET_FEATURES (R450). Returns a supported feature. -/
  | getFeatures (c : Cmd) (fid : Nat)
  /-- ASYNCHRONOUS_EVENT_REQUEST (R463). Posts a request that completes when an asynchronous event is raised. -/
  | asyncEventRequest (c : Cmd)
  /-- NAMESPACE_MANAGEMENT (R453). Creates or deletes a block namespace within the capacity limits. -/
  | namespaceManagement (c : Cmd) (sel : BitVec 4) (nsze : Nat) (ncap : Nat) (flbas : Nat) (dps : Nat)
  /-- NAMESPACE_ATTACHMENT (R491). Attaches or detaches a namespace to PF controllers. -/
  | namespaceAttachment (c : Cmd) (sel : BitVec 4) (ctrls : List Nat)
  /-- FORMAT_NVM (R453). Replaces a block namespace's media key and sets every entry to zeroes. -/
  | formatNvm (c : Cmd) (lbaf : Nat) (ses : BitVec 3)
  /-- KEY_REQUEST (R475). Security Send SPSP 0001h submits a key-engine request for the function. -/
  | keyRequest (c : Cmd) (data : Bytes)
  /-- SECURITY_RECEIVE (R475). Returns the completion record and output of the function's last key request. -/
  | securityReceive (c : Cmd)
  /-- OTP_PROGRAM (R582). Security Send SPSP 0002h checks, audits and programs a new OTP generation. -/
  | otpProgram (c : Cmd) (data : Bytes) (readBack : Bool)
  /-- DECOMMISSION (R583). Security Send SPSP 0003h programs the DECOMMISSION field. -/
  | decommission (c : Cmd) (data : Bytes)
  /-- OPERATOR_CREDENTIAL (R588). Security Send SPSP 0004h sets or clears the operator credential. -/
  | operatorCredential (c : Cmd) (data : Bytes)
  /-- TAKE_ADMIN_CLOSE (R467). TAKE ADMIN closes the open take with REASON 0x04. -/
  | takeAdminClose (c : Cmd) (id : BitVec 64)
  /-- TAKE_ADMIN_DELETE (R253). TAKE ADMIN deletes a closed take, its namespace and its media key. -/
  | takeAdminDelete (c : Cmd) (id : BitVec 64)
  /-- QUEUE_THAW (R464). Resumes fetching on a frozen submission queue. -/
  | queueThaw (c : Cmd) (sqid : Nat)
  /-- ROLE_AUTH_GET_CHALLENGE (R589). ROLE AUTH STEP 01h issues a 64-byte challenge for a role. -/
  | roleAuthGetChallenge (c : Cmd) (role : BitVec 8) (len : Nat)
  /-- ROLE_AUTH_RESPOND (R589). ROLE AUTH STEP 02h checks the HMAC response and grants the role. -/
  | roleAuthRespond (c : Cmd) (role : BitVec 8) (len : Nat) (data : Bytes) (va : BitVec 8) (vb : BitVec 8)
  /-- ROLE_AUTH_CREDENTIAL (R590). ROLE AUTH STEP 03h checks the operator credential and grants operator. -/
  | roleAuthCredential (c : Cmd) (role : BitVec 8) (len : Nat) (data : Bytes)
  /-- ROLE_AUTH_DROP (R590). ROLE AUTH STEP 04h drops the named role. -/
  | roleAuthDrop (c : Cmd) (role : BitVec 8)
  /-- SALVAGE (R468). ARRAY SERVICE SALVAGE returns data groups through full reconstruction, with validity bits. -/
  | salvage (c : Cmd) (count : Nat) (first : Nat) (validity : Nat)
  /-- REFORMAT (R468). ARRAY SERVICE REFORMAT in SAFE destroys all data and formats afresh. -/
  | reformat (c : Cmd) (magic : BitVec 32)
  /-- SET_PROFILE (R490). TENANT PROVISION SET_PROFILE reserves a function's resources from the pools. -/
  | setProfile (c : Cmd) (func : Nat) (data : Bytes)
  /-- CLEAR_PROFILE (R489). TENANT PROVISION CLEAR_PROFILE returns a profile's resources to the pools. -/
  | clearProfile (c : Cmd) (func : Nat)
  /-- SET_SERVICE_STATUS (R524). SET SERVICE STATUS returns the set header and member entries. -/
  | setServiceStatus (c : Cmd)
  /-- ARM_TAKE (R521). SET SERVICE ARM_TAKE runs a two-phase synchronised take start. -/
  | armTake (c : Cmd) (t : BitVec 64) (data : Bytes)
  /-- CANCEL (R523). SET SERVICE CANCEL cancels an armed start before T. -/
  | cancel (c : Cmd) (opId : BitVec 32)
  /-- BARRIER (R520). SET SERVICE BARRIER waits until every member has secured its accepted frames. -/
  | barrier (c : Cmd)
  /-- SNAPSHOT (R520). SET SERVICE SNAPSHOT records a consistent cut of every member's take state. -/
  | snapshot (c : Cmd)
  /-- SET_RESET (R522). SET SERVICE RESET cancels armed starts, empties the queue and re-forms the set. -/
  | setReset (c : Cmd)
  /-- REG_ACCESS (R523). SET SERVICE REG_ACCESS performs a register access on another member. -/
  | regAccess (c : Cmd) (member : BitVec 8) (p : CtrlReqPkt)
  /-- HANDBACK (R523). SET SERVICE HANDBACK performs a set reset that returns the roles in OTP. -/
  | handback (c : Cmd)
  /-- READ (R457). NVM Read of a block or take namespace under range locks. -/
  | read (k : CmdKey)
  /-- WRITE (R219). NVM Write to a block namespace, completing from the buffer or after program. -/
  | write (k : CmdKey)
  /-- FLUSH (R219). NVM Flush, completing at once. -/
  | flush (k : CmdKey)
  /-- COMPARE (R457). NVM Compare under a read lock. -/
  | compare (k : CmdKey)
  /-- VERIFY (R457). NVM Verify under a read lock. -/
  | verify (k : CmdKey)
  /-- WRITE_ZEROES (R252). Sets entries to zeroes and appends ZEROES. -/
  | writeZeroes (k : CmdKey)
  /-- DATASET_MANAGEMENT (R251). Deallocate sets entries unmapped and appends DEALLOCATE. -/
  | datasetManagement (k : CmdKey)
  /-- FRAME_READ (R472). Returns one part of a secured frame, inflating raw bytes on unreserved lanes. -/
  | frameRead (k : CmdKey)
  /-- EARMARK_SEARCH (R473). Runs one Earmark descriptor from the host. -/
  | earmarkSearch (k : CmdKey)
  /-- SHEARS_JOB (R473). Runs one Shears descriptor from the host. -/
  | shearsJob (k : CmdKey)
  /-- DIGEST_JOB (R473). Runs one digest descriptor from the host. -/
  | digestJob (k : CmdKey)
  /-- LOAD_PROGRAM (R476). Loads a flock image into a program slot after checking it. -/
  | loadProgram (c : Cmd) (slot : Nat) (data : Bytes)
  /-- PROGRAM_ACTIVATION_MANAGEMENT (R476). Activates or deactivates a loaded program. -/
  | programActivation (c : Cmd) (slot : Nat) (act : Bool)
  /-- EXECUTE_PROGRAM (R477). Starts a program on the function's idle cores with its parameter data. -/
  | executeProgram (k : CmdKey)
  /-- PROGRAM_CORES_ENDED (R477). Every core of a program has exited or stopped and Execute Program completes. -/
  | programCoresEnded (fn : Nat)
  /-- MEMORY_RANGE_SET_MANAGEMENT (R478). Creates, resizes or deletes a memory range set and maps it in XLATE. -/
  | memoryRangeSet (c : Cmd) (sel : BitVec 4) (rsid : Nat) (ranges : List MemRange)
  /-- MEMORY_READ (R478). Moves data from the memory namespace to host memory. -/
  | memoryRead (k : CmdKey)
  /-- MEMORY_WRITE (R478). Moves data from host memory into the memory namespace. -/
  | memoryWrite (k : CmdKey)
  /-- MEMORY_COPY (R478). Copies from a block or take namespace into the memory namespace. -/
  | memoryCopy (k : CmdKey)
  /-- FUNCTION_RESET (R500). An FLR or VF disable stops, aborts, parks and invalidates a function and starts zeroisation. -/
  | functionReset (fn : Nat)
  /-- FUNCTION_RESET_DONE (R501). Zeroisation of the function's resources completes and the reset ends. -/
  | functionResetDone (fn : Nat)
  /-- CONTROLLER_RESET (R500). CC.EN resets only the NVMe queues of a controller. -/
  | controllerReset (fn : Nat)
  /-- VF_ENABLE (R491). VF Enable creates VFs, granting each its profile and incrementing GEN. -/
  | vfEnable (numVfs : Nat)
  /-- VF_DISABLE (R492). VF Enable cleared or NumVFs lowered disables VFs and erases KEK_FUNC. -/
  | vfDisable (numVfs : Nat)
  /-- DROVE_LINK_UP (R509). A Drove link trains and each side sends IDENT. -/
  | droveLinkUp (p : Port)
  /-- IDENT (R509). An IDENT packet is checked for foreign set, loop-back and excess members. -/
  | ident (q : IdentPkt)
  /-- FORM (R510). A FORM packet fixes indices, roles and orientation, swapping port names if it arrives on physical A. -/
  | form (q : FormPkt)
  /-- DROVE_HEARTBEAT (R514). A Drove HEARTBEAT marks its sender live. -/
  | droveHeartbeat (q : DroveHbPkt)
  /-- TIME (R517). A TIME packet updates the link delay and disciplines DTIME. -/
  | time (q : TimePkt)
  /-- ORDER (R520). An ORDER packet runs a global operation phase locally and is answered with REPLY. -/
  | order (q : OrderPkt)
  /-- REPLY (R520). A REPLY packet reaches the manager with a member's result. -/
  | reply (q : ReplyPkt)
  /-- MIRROR (R513). A MIRROR packet carries a set-state change to the standby. -/
  | mirror (q : MirrorPkt)
  /-- REG_REQ (R523). A REG_REQ packet executes a forwarded register access. -/
  | regReq (q : RegReqPkt)
  /-- REG_RSP (R523). A REG_RSP packet returns a forwarded access's result. -/
  | regRsp (q : RegRspPkt)
  /-- DROVE_LINK_DOWN (R511). A Drove link goes down and the ring becomes a line. -/
  | droveLinkDown (p : Port)
  /-- DROVE_HEARTBEAT_TX (R514). Every 1 ms a member broadcasts HEARTBEAT both ways. -/
  | droveHeartbeatTx
  /-- DROVE_TIME_TX (R517). Every 1 ms each link end sends a TIME packet. -/
  | droveTimeTx
  /-- DROVE_MEMBER_TIMEOUT (R514). A member heard nothing from another for 3 ms, and liveness and quorum are re-evaluated. -/
  | droveMemberTimeout (m : Fin 32)
  /-- ARMED_START (R521). A committed member sends TAKE_GRANT at DTIME T. -/
  | armedStart
  /-- DROVE_START_LOST (R521). At T − 10 ms a member holding a prepare but no commit releases its reservations. -/
  | droveStartLost
  /-- SYNC_IN_EDGE (R517). A rising SYNC_IN edge marks a whole second of set time. -/
  | syncInEdge (rising : Bool)
  /-- SYNC_IN_LOSS (R617). 2 s without a SYNC_IN edge returns the manager to RTC discipline. -/
  | syncInLoss
  /-- DROVE_TIME_FAULT (R518). A member stays more than 100 µs off set time for 1 s. -/
  | droveTimeFault
  /-- DRAM_DRIFT_CHECK (R532). Every DRIFT_PERIOD the oscillator is read, delays shift, and the channel retrains when drift exceeds 12 steps. -/
  | dramDriftCheck (ch : Fin 4) (d : Int)
  /-- DRAM_REFRESH (R533). A refresh is issued at the interval MR4 calls for. -/
  | dramRefresh (ch : Fin 4)
  /-- DRAM_ALERT (R537). ALERT_n starts a CA-parity recovery and replay of commands. -/
  | dramAlert (ch : Fin 4)
  /-- DRAM_UNCORRECTABLE (R536). A burst uncorrectable after re-read is poisoned and handled according to its data kind. -/
  | dramUncorrectable (ch : Fin 4) (addr : BitVec 64) (kind : BitVec 4)
  /-- DRAM_SCRUB (R535). The patrol scrubber reads DRAM and corrects in place. -/
  | dramScrub (ch : Fin 4) (corrected : Nat) (last : Bool)
  /-- DRAM_RETIRE (R539). A write of DRAM RETIRE_CTRL.RETIRE retires the channel, unless refused. -/
  | dramRetire (o : Origin) (ch : Fin 4)
  /-- DRAM_EVACUATION_DONE (R540). Every block is evacuated and the channel is taken out of service. -/
  | dramEvacuationDone (ch : Fin 4)
  /-- MODE_REQ_DOZE (R547). A DOZE request through PWR.MODE_REQ is checked against the vetoes and starts DOZE entry. -/
  | modeReqDoze (o : Origin)
  /-- MODE_REQ_FOLD (R547). A FOLD request through PWR.MODE_REQ is checked and starts FOLD entry. -/
  | modeReqFold (o : Origin)
  /-- DOZE_AFTER_EXPIRY (R547). DOZE_AFTER seconds of unbroken IDLE pass and the device requests DOZE. -/
  | dozeAfterExpiry
  /-- ENTER (R548). A write of PWR.SAFE_CTRL.ENTER sets SAFE cause bit 7. -/
  | enter (o : Origin)
  /-- EXIT (R548). A write of PWR.SAFE_CTRL.EXIT clears the clearable causes, or is refused. -/
  | exit (o : Origin)
  /-- DOZE_DRAIN_DONE (R548). The write buffer is programmed and a checkpoint is durable; quiesce and lowering, or rails off, follow. -/
  | dozeDrainDone
  /-- VREG_STEP_ACK (R555). A voltage step is acknowledged and the next step is sent, or the transition phase ends. -/
  | vregStepAck (slot : Fin 8)
  /-- VREG_STEP_TIMEOUT (R555). A step is unacknowledged for 500 µs and is resent, or fails after three attempts. -/
  | vregStepTimeout (slot : Fin 8)
  /-- WAKE_SOURCE (R563). A wake source fires and is latched, starting DOZE exit or arming a wake from FOLD. -/
  | wakeSource (src : Fin 6)
  /-- DOZE_RETRAIN_DONE (R548). DRAM and NAND retraining after DOZE completes and the firmware resumes in IDLE. -/
  | dozeRetrainDone (bad : List (Nat × Option Nat))
  /-- DOZE_EXIT_RETRY (R563). 10 ms after a failed DOZE exit the exit is retried. -/
  | dozeExitRetry
  /-- FOLD_RESIDENCE_END (R563). 100 ms in FOLD end, and the device wakes if power is good and a wake source fired. -/
  | foldResidenceEnd
  /-- RAILS_OFF_END (R563). After a wake failure, 100 ms with RAILS_EN low end and the rails restart for a cold boot. -/
  | railsOffEnd
  /-- KICK (R566). A write of PWR.WDOG.KICK from the system firmware restarts the watchdog. -/
  | kick (o : Origin)
  /-- PWR_WATCHDOG (R566). A second passes without a kick and the device warm-resets. -/
  | pwrWatchdog
  /-- WARM (R565). A write of PWR.RESET_CTRL.WARM requests a warm reset, subject to veto. -/
  | warm (o : Origin)
  /-- COLD_RESET (R565). VDD_AON rising, AON_RST_N low or a wake from FOLD resets every domain and starts boot. -/
  | coldReset (cause : BitVec 4)
  /-- CLK_LOCK_LOST (R559). The root PLL loses lock; keys are erased and domains held in reset. -/
  | clkLockLost
  /-- PLL_LOCKED (R559). The root PLL locks and boot phase 1 proceeds. -/
  | pllLocked (hz : BitVec 32)
  /-- BOOT_TRAINING_DONE (R571). DRAM and NAND training complete and the boot image is sought. -/
  | bootTrainingDone (r : DramTraining)
  /-- BOOT_IMAGE_CHECK (R569). A boot image finishes loading and its MAC is checked; it is accepted, or the next copy or source is tried. -/
  | bootImageCheck (img : Bytes) (va : BitVec 8) (vb : BitVec 8)
  /-- GO (R570). A write of PWR.MBOX_CTRL.GO in a held boot loads a mailbox image. -/
  | go (o : Origin)
  /-- BOOT_SELF_TEST_DONE (R571). Cipher, digest and entropy self-tests end, retiring failing units. -/
  | bootSelfTestDone (pipes : BitVec 6) (units : BitVec 64)
  /-- BOOT_MAP_LOADED (R230). The checkpoint is found, the map is loaded and replay is applied. -/
  | bootMapLoaded
  /-- BOOT_RECOVERY_DONE (R275). The resynchronisation list is chosen and an open take is cut at its secured prefix. -/
  | bootRecoveryDone
  /-- BOOT_READY (R571). Service start ends and MODE becomes IDLE or SAFE; the Gate port enters Detect. -/
  | bootReady
  /-- VREG_TELEMETRY_POLL (R558). Every 10 ms each slot's voltage, current and power are read and energy is accumulated. -/
  | vregTelemetryPoll (rs : List VregReading)
  /-- PMB_ALERT (R558). PMB_ALERT_N low makes the device read every STATUS_WORD. -/
  | pmbAlert (status : List (BitVec 16))
  /-- SET_MV (R557). A write of VREG VOUT.SET_MV sets a slot's active set point, unless refused. -/
  | setMv (o : Origin) (slot : Fin 8) (mv : BitVec 16)
  /-- RTC_ALARM_FIRE (R562). An enabled comparator's ALARM_TIME is reached and FIRED is set, waking if WAKE. -/
  | rtcAlarmFire (k : Fin 4)
  /-- RTC_OSC_FAIL (R574). The crystal stops for 1 ms; the RTC stops and VALID is cleared. -/
  | rtcOscFail
  /-- THERMAL_SAMPLE (R632). Every 100 µs TJ is refreshed and thermal stages are entered or left. -/
  | thermalSample (tjq : Int) (sensor : BitVec 4)
  /-- DEV_THERMAL_SHUTDOWN (R632). TJ stays at or above 125 °C for 100 ms and the device shuts down to FOLD. -/
  | devThermalShutdown
  /-- PWR_FAIL_N (R104). PWR_FAIL_N low for 2 µs starts the power-failure sequence: credits stop and open frames drain. -/
  | pwrFailN (lowNs : Nat)
  /-- POWERFAIL_DRAIN_END (R104). The 1 ms drain ends, open frames end with STATUS 0x03 and the flush begins. -/
  | powerfailDrainEnd
  /-- POWERFAIL_FLUSH_DONE (R104). Every accepted frame is secured and the close records are written. -/
  | powerfailFlushDone
  /-- POWERFAIL_CLOSE_DONE (R104). The final INDEX, MANIFEST and trailer are durable and the checkpoint starts. -/
  | powerfailCloseDone
  /-- AUTH_CHALLENGE (R589). A ROLE AUTH_CTRL STEP 0x01 write issues a challenge for the origin. -/
  | authChallenge (o : Origin) (role : BitVec 2)
  /-- AUTH_CHECK_RESPONSE (R589). A ROLE AUTH_CTRL STEP 0x02 write checks RESPONSE and grants the role. -/
  | authCheckResponse (o : Origin) (role : BitVec 2) (va : BitVec 8) (vb : BitVec 8)
  /-- AUTH_DROP (R592). A ROLE AUTH_CTRL STEP 0x04 write drops the role. -/
  | authDrop (o : Origin) (role : BitVec 2)
  /-- CHALLENGE_LAPSE (R590). A challenge lapses 10 s after issue. -/
  | challengeLapse (o : Origin)
  /-- ROLE_IDLE_LAPSE (R592). ROLE.IDLE_S passes without a role action and the origin's role ends. -/
  | roleIdleLapse (o : Origin)
  /-- ROLE_LOCKOUT_END (R591). A role's authentication lockout expires. -/
  | roleLockoutEnd (role : BitVec 2)
  /-- ARM (R600). A write of PERTURB.CTRL.ARM arms perturbation where the lifecycle allows it. -/
  | arm (o : Origin)
  /-- KILL (R601). A write of PERTURB.CTRL.KILL ends all perturbation. -/
  | kill (o : Origin)
  /-- PERTURB_EVENT (R598). Each PERIOD_MS an active profile injects its fault, and COUNT exhaustion returns its points to off. -/
  | perturbEvent (n : BitVec 4)
  /-- SHARE_CLAIM (R614). A SHARE.CLAIM with ACTION 0 claims a free resource, or fails with SHARE_HELD. -/
  | shareClaim (o : Origin) (r : BitVec 3)
  /-- SHARE_RELEASE (R646). A SHARE.CLAIM with ACTION 1 releases a resource. -/
  | shareRelease (o : Origin) (r : BitVec 3)
  /-- SHARE_ASSIGN (R646). A SHARE.CLAIM with ACTION 2 assigns a ball resource to a block. -/
  | shareAssign (o : Origin) (r : BitVec 3) (blk : BitVec 8)
  /-- GPIO_EDGE (R616). An edge on PMB_ALERT_N owned by SHARE raises the GPIO_EDGE event. -/
  | gpioEdge (level : Bool)
  /-- REGISTER_READ (R46). A register read is checked in the order of R645, may record an error, and a low-word read snapshots a 64-bit latch for the origin. -/
  | registerRead (o : Origin) (page : Nat) (off : Nat) (len : Nat)
  /-- RTC_LOAD (R574). A write of RTC.CTRL.LOAD sets the RTC to SET and sets VALID. -/
  | rtcLoad (o : Origin)
  /-- NAND_DIE_RESET (R200). A die whose R/B stays busy for twice the operation's parameter-page maximum is sent RESET once. -/
  | nandDieReset (ch : Fin 32) (die : Fin 16)
  /-- POWER_CUT (R106). Power is lost before any hold-up sequence completes, and everything outside the Tally, OTP and NAND is lost, making the next boot unclean. -/
  | powerCut
  /-- SET_SERVICE_TIMEOUT (R523). A SET SERVICE operation waiting for quorum reaches CAP.TO and completes with RESOURCE_HELD. -/
  | setServiceTimeout
  /-- DROVE_FLIT_RX (R507). A flit received on a Drove link is checked for CRC and sequence, acknowledged or NAKed, and its link area and CTRL credits applied. -/
  | droveFlitRx (p : Port) (f : Flit)
  /-- DROVE_REPLAY_TIMEOUT (R507). No ACKSEQ advance within 2 µs on a Drove link makes the sender replay, and four replays in a row retrain the link. -/
  | droveReplayTimeout (p : Port)
  /-- ILLEGAL_ENCODING (R337). A reserved first parcel, opcode or modifier traps ILLEGAL with nothing changed. -/
  | illegalEncoding (c : BadParcel)
  /-- INVALID_COMMAND_OPCODE (R451). A command not listed in R450, or a vendor command from a function not allowed to issue it, completes with Invalid Command Opcode. -/
  | invalidCommandOpcode (c : Cmd) (opcode : BitVec 8)
  /-- MAP_PAGE_WRITEBACK (R227). Dirty map and directory pages are written to the SLC region in the background, dirtiest first, holding dirty directory pages to 16 MiB. -/
  | mapPageWriteback
  /-- ASPM_L1_2_ENTRY (R445). A PCIe port enters ASPM L1.2, shown in HOSTQ.LINK_A or LINK_B.L1_2. -/
  | aspmL12Entry (port : Port)
  /-- ASPM_L1_2_EXIT (R445). A PCIe port leaves L1.2 for L0 outside DOZE. -/
  | aspmL12Exit (port : Port)
  /-- BOOT_TABLES_DONE (R571). Boot phase 5 ends: the placement tables are generated and the persisted microcode is loaded into its clusters. -/
  | bootTablesDone
  /-- PERTURB_DELAY_EXPIRY (R69). The configured delay of a Gate credit delay or Shears back-pressure event expires, releasing HELD_PERTURB credits or the stalled lane. -/
  | perturbDelayExpiry (page : Nat)
  /-- SERVE_ACTIVITY_EXPIRY (R546). 100 ms pass with no host data transfer, host engine job or program instruction, and MODE falls from SERVE to IDLE or from DUAL to TAKE. -/
  | serveActivityExpiry
deriving DecidableEq, Repr

end Sys2Proof
end

