-- ==== Sys2Proof/WellFormed.lean ====
section
/-!
DEFINITION. Well-formed commands: operands within the ranges the spec gives their fields, where the operand's type does not
already hold them.
-/

namespace Sys2Proof

/-- A PCIe origin carries the FUNC tag of a host function: a PF or a VF (R33, R486). -/
def Origin.wf : Origin → Bool
  | .pcie f => decide (f ≤ 0x101)
  | .gate => true
  | .firmware => true
  | .setManager => true
  | .testPort => true

/-- A command names a host function and carries 16-bit queue and command identifiers and a 32-bit NSID (R434-R441). -/
def Cmd.wf (c : Cmd) : Bool := decide (c.fn ≤ 0x101) && decide (c.sq < 65536) && decide (c.cid < 65536) && decide (c.nsid < 2 ^ 32)

/-- The key of a command: host function, queue, identifier. -/
def CmdKey.wf (k : CmdKey) : Bool := decide (k.fn ≤ 0x101) && decide (k.sq < 65536) && decide (k.cid < 65536)

/-- An I/O command's fields fit their widths. -/
def IoCmd.wf (x : IoCmd) : Bool :=
  decide (x.fn ≤ 0x101) && decide (x.sq < 65536) && decide (x.cid < 65536) && decide (x.opcode < 256) && decide (x.nsid < 2 ^ 32)
    && decide (x.cdw10 < 2 ^ 32) && decide (x.cdw11 < 2 ^ 32) && decide (x.cdw12 < 2 ^ 32) && decide (x.cdw13 < 2 ^ 32)
    && decide (x.cdw14 < 2 ^ 32) && decide (x.cdw15 < 2 ^ 32)

/-- A job source names a host function (R322, R324). -/
def JobSrc.wf : JobSrc → Bool
  | .cluster _ => true
  | .host f => decide (f ≤ 0x101)

/-- A flit's packet area is 236 bytes (R59). -/
def Flit.wf (f : Flit) : Bool := f.area.length == 236

/-- FRAME_DATA carries 1 to 224 payload bytes (R77). -/
def FrameDataPkt.wf (p : FrameDataPkt) : Bool := decide (1 ≤ p.payload.length) && decide (p.payload.length ≤ 224)

/-- META carries at least one byte and at most what its LEN of 236 leaves (R79). -/
def MetaPkt.wf (p : MetaPkt) : Bool := decide (1 ≤ p.data.length) && decide (p.data.length ≤ 228)

/-- A codeword has at most its own bits zero (R192, R195). -/
def CwOutcome.wf (r : CwOutcome) : Bool := decide (r.zeros ≤ 2 ^ 17)

/-- A channel's training names parameter pages for at most 16 dies and trial bytes with 256 answers (R185, R189). -/
def NandTraining.wf (r : NandTraining) : Bool := decide (r.parts.length ≤ 16) && r.answers.all fun a => a.2.length == 256

/-- DRAM training names four channels (R526). -/
def DramTraining.wf (r : DramTraining) : Bool := r.chans.length == 4

/-- A Drove envelope: SRC a member or 0xFF before formation, DST a member or 0xFF for all (R507, R508). -/
def DroveHdr.wf (h : DroveHdr) : Bool := (decide (h.src < 32) || h.src == 0xFF) && (decide (h.dst < 32) || h.dst == 0xFF)

/-- An IDENT packet: a serial of 16 bytes (R508). -/
def IdentPkt.wf (q : IdentPkt) : Bool := q.h.wf && q.serial.length == 16
/-- An ORDER packet: PARAM of 32 bytes (R508). -/
def OrderPkt.wf (q : OrderPkt) : Bool := q.h.wf && q.param.length == 32
/-- A REPLY packet: RESULT of 44 bytes (R508). -/
def ReplyPkt.wf (q : ReplyPkt) : Bool := q.h.wf && q.result.length == 44
/-- A MIRROR packet: LEN of 16 to 236 (R508). -/
def MirrorPkt.wf (q : MirrorPkt) : Bool := q.h.wf && decide (q.data.length ≤ 220)

/-- Well-formed commands. -/
def Instr.wf : Instr → Bool
  | .registerWrite o page off len _ => o.wf && decide (page < 65536) && decide (off + len ≤ 4096) && (len == 4 || len == 8)
  | .errCodeClear o page => o.wf && decide (page < 65536)
  | .enableClear o page => o.wf && decide (page < 65536)
  | .softReset o page => o.wf && decide (page < 65536)
  | .perturbPointSelect o page _ => o.wf && decide (page < 65536)
  | .pendingLowDiscard o => o.wf
  | .faultIntake => true
  | .faultConsume o _ => o.wf
  | .gateLinkUp _ _ _ => true
  | .gateTrainFail _ => true
  | .gateTrainRetry => true
  | .gateLaneLost _ => true
  | .gateRetrainDone _ => true
  | .gateLinkDown => true
  | .takeLinkLost => true
  | .fullRetrain o => o.wf
  | .gateFlitRx f => f.wf
  | .gateReplayTimeout => true
  | .gatePacketSend => true
  | .gateHeartbeatTx => true
  | .takeOpen _ => true
  | .takeGrant => true
  | .takeClose _ => true
  | .frameBegin _ => true
  | .frameData p => p.wf
  | .frameEnd _ => true
  | .metaPacket p => p.wf
  | .trigger _ => true
  | .ctrlReq _ => true
  | .heartbeat _ => true
  | .takeDurationExpiry => true
  | .takeRateBreach => true
  | .takeBreachRelease => true
  | .takeRatioMeasure => true
  | .secureWindowPad => true
  | .stripeClose => true
  | .takeClosed => true
  | .fallowReservationUsed => true
  | .mediaCapacityFull => true
  | .summaryKeyComplete _ => true
  | .ruleSearch _ => true
  | .sliceRelease => true
  | .trigPinEdge _ _ _ => true
  | .swFire o _ => o.wf
  | .windowSeal _ => true
  | .windowCopyStart _ => true
  | .keptTakeSealed _ => true
  | .shearsBlockVerified _ _ => true
  | .shearsReemitDone _ _ => true
  | .shearsJobMigrate _ => true
  | .laneCtrlRetire o _ => o.wf
  | .compress src _ _ => src.wf
  | .inflate src _ => src.wf
  | .inflateUnpredict src _ => src.wf
  | .shearsJobComplete _ => true
  | .nandTrainStart => true
  | .nandTrainDone _ r => r.wf
  | .nandPwrFault _ => true
  | .nandDieTimeout _ _ => true
  | .nandReadDone _ _ rs => rs.all CwOutcome.wf
  | .nandRetryStep _ _ rs => rs.all CwOutcome.wf
  | .nandSoftDecode _ _ rs => rs.all CwOutcome.wf
  | .nandProgramDone _ _ _ => true
  | .nandEraseDone _ _ _ => true
  | .nandZqShort _ => true
  | .forceOff o _ => o.wf
  | .retrain o _ _ => o.wf
  | .journalPageWrite => true
  | .journalPageDurable => true
  | .ckptNow o => o.wf
  | .checkpointPeriod => true
  | .checkpointJournalLimit => true
  | .checkpointDone => true
  | .slcResize => true
  | .slcMigration => true
  | .gcVictimSelect => true
  | .refreshRelocate => true
  | .patrol => true
  | .wearLevel _ _ => true
  | .relocationCopyDone => true
  | .groupErase g => decide (g < 16777216)
  | .groupErased g => decide (g < 16777216)
  | .mapPageReload page => decide (page < 4294967296)
  | .blockWriteBufferDrain => true
  | .keyTablePurge => true
  | .stripeSnapshot => true
  | .bitmapMove => true
  | .rebuildStripe => true
  | .resyncStripe => true
  | .reshapeStart o _ => o.wf
  | .reshapeRegion => true
  | .arrayRetire o _ => o.wf
  | .lit _ _ => true
  | .jmp _ _ => true
  | .jz _ _ => true
  | .jnz _ _ => true
  | .call _ _ => true
  | .jmpLong _ _ => true
  | .jzLong _ _ => true
  | .jnzLong _ _ => true
  | .callLong _ _ => true
  | .lit32 _ _ _ => true
  | .lit64 _ _ => true
  | .jmpa _ _ => true
  | .calla _ _ => true
  | .addi _ _ => true
  | .ld _ _ _ _ => true
  | .ldl _ _ _ _ => true
  | .st _ _ _ => true
  | .stl _ _ _ => true
  | .btst _ _ => true
  | .bset _ _ => true
  | .bclr _ _ => true
  | .bst _ _ => true
  | .dup _ => true
  | .drop _ => true
  | .swap _ => true
  | .over _ => true
  | .nip _ => true
  | .tuck _ => true
  | .rot _ => true
  | .pick _ => true
  | .tors _ => true
  | .fromrs _ => true
  | .rscopy _ => true
  | .rsdrop _ => true
  | .add _ _ => true
  | .sub _ _ => true
  | .mul _ _ => true
  | .mulh _ _ => true
  | .div _ _ => true
  | .mod _ _ => true
  | .neg _ _ => true
  | .abs _ _ => true
  | .min _ _ => true
  | .max _ _ => true
  | .cmpeq _ _ => true
  | .cmplt _ _ => true
  | .cmpltu _ _ => true
  | .and _ _ => true
  | .or _ _ => true
  | .xor _ _ => true
  | .not _ _ => true
  | .shl _ _ => true
  | .shr _ _ => true
  | .sar _ _ => true
  | .rol _ _ => true
  | .popc _ _ => true
  | .clz _ _ => true
  | .ctz _ _ => true
  | .splat _ _ => true
  | .ext _ _ => true
  | .ins _ _ => true
  | .fadd _ _ => true
  | .fsub _ _ => true
  | .fmul _ _ => true
  | .fdiv _ _ => true
  | .fma _ _ => true
  | .fmin _ _ => true
  | .fmax _ _ => true
  | .fcmpeq _ _ => true
  | .fcmplt _ _ => true
  | .cvtF _ _ => true
  | .cvtI _ _ => true
  | .cvtW _ _ => true
  | .cvtN _ _ => true
  | .execCall _ _ => true
  | .ret _ _ => true
  | .jmpi _ _ => true
  | .load _ _ _ => true
  | .store _ _ => true
  | .btsti _ _ => true
  | .bseti _ _ => true
  | .bclri _ _ => true
  | .bsti _ _ => true
  | .btas _ _ => true
  | .trap _ _ => true
  | .sysRead _ _ => true
  | .sysWrite _ _ => true
  | .nop _ => true
  | .rti _ => true
  | .wait _ => true
  | .waitWake _ => true
  | .waitTimeout _ => true
  | .poll _ => true
  | .submit _ => true
  | .depth _ => true
  | .rdepth _ => true
  | .fence _ _ => true
  | .custom _ _ _ => true
  | .corePark o _ => o.wf
  | .coreResume o _ => o.wf
  | .coreRetire o _ => o.wf
  | .firmwareImageDownload c off data => c.wf && decide (off < 18446744073709551616) && decide (data.length < 2 ^ 32)
  | .firmwareCommit c slot _ => c.wf && decide (slot < 65536)
  | .firmwareHandover => true
  | .handoverResume => true
  | .crookUpdateRollback => true
  | .microcodeLoad c _ len data => c.wf && decide (len < 4294967296) && decide (data.length < 2 ^ 32)
  | .microcodeClusterParked => true
  | .microcodeRecheck written => decide (written.length < 2 ^ 32)
  | .search src => src.wf
  | .searchList src => src.wf
  | .earmarkWrite src => src.wf
  | .invalidate src => src.wf
  | .earmarkRead src => src.wf
  | .earmarkJobComplete => true
  | .bankCfgWrite o _ _ _ _ => o.wf
  | .earmarkScrub _ lost => lost.all (fun b => decide (b < 32))
  | .xtsEncrypt src => src.wf
  | .xtsDecrypt src => src.wf
  | .gcmEncrypt src => src.wf
  | .gcmDecrypt src => src.wf
  | .cipherJobComplete => true
  | .maskReseed _ => true
  | .deriveKeks => true
  | .generate => true
  | .unwrapLoad => true
  | .wrap => true
  | .derive => true
  | .loadPlain => true
  | .clear => true
  | .keyengJobComplete => true
  | .keyengAlarm _ => true
  | .entropyHealthFail _ => true
  | .entropyStartupDone _ => true
  | .unlock o => o.wf
  | .erase o => o.wf
  | .hash src => src.wf
  | .hashCompare src _ _ => src.wf
  | .digestJobComplete => true
  | .claim o => o.wf
  | .release o => o.wf
  | .start o _ _ => o.wf
  | .feedWord o _ => o.wf
  | .lastWord o _ _ _ => o.wf
  | .perstRelease _ => true
  | .perstAssert _ => true
  | .pcieLinkUp _ _ _ _ _ => true
  | .hostqLinkDown _ => true
  | .doorbellWrite fn qid _ v => decide (fn < 258) && decide (qid < 65536) && decide (v < 65536)
  | .commandFetch x => x.wf
  | .createIoSq c qid size cqid _ => c.wf && decide (qid < 65536) && decide (size < 65536) && decide (cqid < 65536)
  | .createIoCq c qid size vec _ _ => c.wf && decide (qid < 65536) && decide (size < 65536) && decide (vec < 65536)
  | .deleteIoSq c qid => c.wf && decide (qid < 65536)
  | .deleteIoCq c qid => c.wf && decide (qid < 65536)
  | .getLogPage c lid _ _ off len => c.wf && decide (lid < 256) && decide (off < 18446744073709551616) && decide (len < 4294967296)
  | .identify c cns cntid => c.wf && decide (cns < 256) && decide (cntid < 65536)
  | .abort c sqid acid => c.wf && decide (sqid < 65536) && decide (acid < 65536)
  | .setFeatures c fid _ => c.wf && decide (fid < 256)
  | .getFeatures c fid => c.wf && decide (fid < 256)
  | .asyncEventRequest c => c.wf
  | .namespaceManagement c _ nsze ncap flbas dps => c.wf && decide (nsze < 18446744073709551616) && decide (ncap < 18446744073709551616) && decide (flbas < 256) && decide (dps < 256)
  | .namespaceAttachment c _ ctrls => c.wf && decide (ctrls.length ≤ 2047)
  | .formatNvm c lbaf _ => c.wf && decide (lbaf < 64)
  | .keyRequest c data => c.wf && decide (data.length < 2 ^ 32)
  | .securityReceive c => c.wf
  | .otpProgram c data _ => c.wf && decide (data.length < 2 ^ 32)
  | .decommission c data => c.wf && decide (data.length < 2 ^ 32)
  | .operatorCredential c data => c.wf && decide (data.length < 2 ^ 32)
  | .takeAdminClose c _ => c.wf
  | .takeAdminDelete c _ => c.wf
  | .queueThaw c sqid => c.wf && decide (sqid < 65536)
  | .roleAuthGetChallenge c _ len => c.wf && decide (len < 4294967296)
  | .roleAuthRespond c _ len data _ _ => c.wf && decide (len < 4294967296) && decide (data.length < 2 ^ 32)
  | .roleAuthCredential c _ len data => c.wf && decide (len < 4294967296) && decide (data.length < 2 ^ 32)
  | .roleAuthDrop c _ => c.wf
  | .salvage c count first validity => c.wf && decide (count < 65536) && decide (first < 18446744073709551616) && decide (validity < 18446744073709551616)
  | .reformat c _ => c.wf
  | .setProfile c func data => c.wf && decide (func < 65536) && decide (data.length < 2 ^ 32)
  | .clearProfile c func => c.wf && decide (func < 65536)
  | .setServiceStatus c => c.wf
  | .armTake c _ data => c.wf && decide (data.length < 2 ^ 32)
  | .cancel c _ => c.wf
  | .barrier c => c.wf
  | .snapshot c => c.wf
  | .setReset c => c.wf
  | .regAccess c _ _ => c.wf
  | .handback c => c.wf
  | .read k => k.wf
  | .write k => k.wf
  | .flush k => k.wf
  | .compare k => k.wf
  | .verify k => k.wf
  | .writeZeroes k => k.wf
  | .datasetManagement k => k.wf
  | .frameRead k => k.wf
  | .earmarkSearch k => k.wf
  | .shearsJob k => k.wf
  | .digestJob k => k.wf
  | .loadProgram c slot data => c.wf && decide (slot < 65536) && decide (data.length < 2 ^ 32)
  | .programActivation c slot _ => c.wf && decide (slot < 65536)
  | .executeProgram k => k.wf
  | .programCoresEnded fn => decide (fn < 258)
  | .memoryRangeSet c _ rsid ranges => c.wf && decide (rsid < 65536) && decide (ranges.length ≤ 128)
  | .memoryRead k => k.wf
  | .memoryWrite k => k.wf
  | .memoryCopy k => k.wf
  | .functionReset fn => decide (fn < 258)
  | .functionResetDone fn => decide (fn < 258)
  | .controllerReset fn => decide (fn < 258)
  | .vfEnable numVfs => decide (numVfs ≤ 256)
  | .vfDisable numVfs => decide (numVfs ≤ 256)
  | .droveLinkUp _ => true
  | .ident q => q.wf
  | .form q => q.h.wf
  | .droveHeartbeat q => q.h.wf
  | .time q => q.h.wf
  | .order q => q.wf
  | .reply q => q.wf
  | .mirror q => q.wf
  | .regReq q => q.h.wf
  | .regRsp q => q.h.wf
  | .droveLinkDown _ => true
  | .droveHeartbeatTx => true
  | .droveTimeTx => true
  | .droveMemberTimeout _ => true
  | .armedStart => true
  | .droveStartLost => true
  | .syncInEdge _ => true
  | .syncInLoss => true
  | .droveTimeFault => true
  | .dramDriftCheck _ _ => true
  | .dramRefresh _ => true
  | .dramAlert _ => true
  | .dramUncorrectable _ _ _ => true
  | .dramScrub _ _ _ => true
  | .dramRetire o _ => o.wf
  | .dramEvacuationDone _ => true
  | .modeReqDoze o => o.wf
  | .modeReqFold o => o.wf
  | .dozeAfterExpiry => true
  | .enter o => o.wf
  | .exit o => o.wf
  | .dozeDrainDone => true
  | .vregStepAck _ => true
  | .vregStepTimeout _ => true
  | .wakeSource _ => true
  | .dozeRetrainDone bad => bad.all fun c => decide (c.1 < 32) && (match c.2 with | some n => decide (5 ≤ n) && decide (n ≤ 8) | none => true)
  | .dozeExitRetry => true
  | .foldResidenceEnd => true
  | .railsOffEnd => true
  | .kick o => o.wf
  | .pwrWatchdog => true
  | .warm o => o.wf
  | .coldReset _ => true
  | .clkLockLost => true
  | .pllLocked _ => true
  | .bootTrainingDone r => r.wf
  | .bootImageCheck img _ _ => decide (img.length < 2 ^ 32)
  | .go o => o.wf
  | .bootSelfTestDone _ _ => true
  | .bootMapLoaded => true
  | .bootRecoveryDone => true
  | .bootReady => true
  | .vregTelemetryPoll _ => true
  | .pmbAlert status => (status.length == 8)
  | .setMv o _ _ => o.wf
  | .rtcAlarmFire _ => true
  | .rtcOscFail => true
  | .thermalSample _ _ => true
  | .devThermalShutdown => true
  | .pwrFailN _ => true
  | .powerfailDrainEnd => true
  | .powerfailFlushDone => true
  | .powerfailCloseDone => true
  | .authChallenge o _ => o.wf
  | .authCheckResponse o _ _ _ => o.wf
  | .authDrop o _ => o.wf
  | .challengeLapse o => o.wf
  | .roleIdleLapse o => o.wf
  | .roleLockoutEnd _ => true
  | .arm o => o.wf
  | .kill o => o.wf
  | .perturbEvent _ => true
  | .shareClaim o _ => o.wf
  | .shareRelease o _ => o.wf
  | .shareAssign o _ _ => o.wf
  | .gpioEdge _ => true
  | .registerRead o page off len => o.wf && decide (page < 65536) && decide (off + len ≤ 4096) && (len == 4 || len == 8)
  | .rtcLoad o => o.wf
  | .nandDieReset _ _ => true
  | .powerCut => true
  | .setServiceTimeout => true
  | .droveFlitRx _ f => f.wf
  | .droveReplayTimeout _ => true
  | .illegalEncoding _ => true
  | .invalidCommandOpcode c _ => c.wf
  | .mapPageWriteback => true
  | .aspmL12Entry _ => true
  | .aspmL12Exit _ => true
  | .bootTablesDone => true
  | .perturbDelayExpiry page => decide (page < 65536)
  | .serveActivityExpiry => true

end Sys2Proof
end

