-- ==== Sys2Proof/Machine/Bits.lean ====
section
/-!
DEFINITION. Byte order, bit fields, saturating counts, canonical byte memories and the checksums the spec uses.
The device is little-endian (R8).
-/

namespace Sys2Proof.Machine

/-- The low `n` bytes of `v`, least significant first (R8). -/
def leBytes : Nat → Nat → Bytes
  | 0, _ => []
  | n + 1, v => BitVec.ofNat 8 v :: leBytes n (v / 256)

/-- The number a little-endian byte string holds (R8). -/
def leNat : Bytes → Nat
  | [] => 0
  | b :: bs => b.toNat + 256 * leNat bs

/-- The low `n` bytes of `v`, most significant first (used by SHA-2, GCM and the key derivations). -/
def beBytes (n v : Nat) : Bytes := (leBytes n v).reverse

/-- The number a big-endian byte string holds. -/
def beNat (bs : Bytes) : Nat := leNat bs.reverse

/-- Bits `lo .. lo+w-1` of `v`. -/
def bits (v lo w : Nat) : Nat := (v / 2 ^ lo) % 2 ^ w

/-- `v` with bits `lo .. lo+w-1` replaced by the low `w` bits of `x`. -/
def withBits (v lo w x : Nat) : Nat := v - bits v lo w * 2 ^ lo + (x % 2 ^ w) * 2 ^ lo

/-- A Boolean as a bit. -/
def b2n (b : Bool) : Nat := if b then 1 else 0

/-- Bit `i` of `v`. -/
def bitAt (v i : Nat) : Bool := (v / 2 ^ i) % 2 == 1

/-- `v` with bit `i` set or cleared. -/
def setBit (v i : Nat) (b : Bool) : Nat := withBits v i 1 (b2n b)

/-- How many of the low `n` bits of `v` are set. -/
def popCount : Nat → Nat → Nat
  | 0, _ => 0
  | n + 1, v => v % 2 + popCount n (v / 2)

/-- A 32-bit counter that saturates at 0xFFFF_FFFF. -/
def sat32 (n : Nat) : Nat := min n 0xFFFFFFFF

/-- Rounding up a quotient. -/
def ceilDiv (a b : Nat) : Nat := (a + b - 1) / b

/-- The number a `w`-bit two's-complement value stands for. -/
def signedOf (w v : Nat) : Int := if v % 2 ^ w < 2 ^ (w - 1) then (v % 2 ^ w : Nat) else (v % 2 ^ w : Nat) - (2 : Int) ^ w

/-- The `w`-bit two's-complement value of an integer, wrapped. -/
def wrapInt (w : Nat) (i : Int) : Nat := (i % (2 : Int) ^ w).toNat

/-- `len` bytes of `xs` from byte `off`, zero beyond its end. -/
def sliceBytes (xs : Bytes) (off len : Nat) : Bytes :=
  let y := (xs.drop off).take len
  y ++ List.replicate (len - y.length) 0

/-- `xs` cut or zero-padded to `n` bytes. -/
def padTo (n : Nat) (xs : Bytes) : Bytes := sliceBytes xs 0 n

/-- `xs` with `ys` written over it from byte `off` (zero-filled up to `off`). -/
def overlay (xs : Bytes) (off : Nat) (ys : Bytes) : Bytes :=
  let pre := sliceBytes xs 0 off
  pre ++ ys ++ xs.drop (off + ys.length)

/-- Bytewise exclusive-or of two byte strings of one length. -/
def xorBytes (a b : Bytes) : Bytes := List.zipWith (· ^^^ ·) a b

/-- `xs` in pieces of `n` bytes, the last one short if need be. The fuel is the length of `xs`. -/
def chunksAux (n : Nat) : Nat → Bytes → List Bytes
  | 0, _ => []
  | f + 1, xs => if xs.isEmpty then [] else xs.take n :: chunksAux n f (xs.drop n)

/-- `xs` in pieces of `n` bytes, the last one short if need be. -/
def chunks (n : Nat) (xs : Bytes) : List Bytes := chunksAux n xs.length xs

/-- One step of a reflected CRC over eight bits. -/
def crcBits (poly : Nat) : Nat → Nat → Nat
  | 0, c => c
  | n + 1, c => crcBits poly n (if c % 2 == 1 then (c / 2) ^^^ poly else c / 2)

/-- A reflected 32-bit CRC with initial value and final complement of all ones. -/
def crc32With (poly : Nat) (bs : Bytes) : Nat :=
  (bs.foldl (fun c b => crcBits poly 8 (c ^^^ b.toNat)) 0xFFFFFFFF) ^^^ 0xFFFFFFFF

/-- CRC-32C (Castagnoli), as every record of the device uses it. -/
def crc32c (bs : Bytes) : Nat := crc32With 0x82F63B78 bs

/-- The CRC-32 of gzip (R164). -/
def crc32 (bs : Bytes) : Nat := crc32With 0xEDB88320 bs

/-- Adler-32, the check of a zlib stream (R164). -/
def adler32 (bs : Bytes) : Nat :=
  let r := bs.foldl (fun (p : Nat × Nat) b => let a := (p.1 + b.toNat) % 65521; (a, (p.2 + a) % 65521)) (1, 0)
  r.2 * 65536 + r.1

/-- Read one byte of a canonical memory: an unlisted address reads 0. -/
def memRead : List (Nat × Byte) → Nat → Byte
  | [], _ => 0
  | (k, v) :: rest, a => if k == a then v else memRead rest a

/-- Write one byte of a canonical memory: addresses stay strictly rising, and a written 0 removes the entry. -/
def memWrite : List (Nat × Byte) → Nat → Byte → List (Nat × Byte)
  | [], a, b => if b == 0 then [] else [(a, b)]
  | (k, v) :: rest, a, b =>
    if a < k then (if b == 0 then (k, v) :: rest else (a, b) :: (k, v) :: rest)
    else if a == k then (if b == 0 then rest else (a, b) :: rest)
    else (k, v) :: memWrite rest a b

/-- Read `n` bytes from address `a`. -/
def memReadN (m : List (Nat × Byte)) (a : Nat) : Nat → Bytes
  | 0 => []
  | n + 1 => memRead m a :: memReadN m (a + 1) n

/-- Write a byte string from address `a`. -/
def memWriteN (m : List (Nat × Byte)) (a : Nat) : Bytes → List (Nat × Byte)
  | [] => m
  | b :: bs => memWriteN (memWrite m a b) (a + 1) bs

/-- Fill `n` bytes from address `a` with zero. -/
def memZero (m : List (Nat × Byte)) (a n : Nat) : List (Nat × Byte) := m.filter fun c => decide (c.1 < a ∨ a + n ≤ c.1)

/-- The canonical form of a memory: strictly rising addresses, no entry equal to what an unlisted address reads as. -/
def memWf : List (Nat × Byte) → Bool
  | [] => true
  | [(_, v)] => v != 0
  | (k, v) :: (k', v') :: rest => v != 0 && decide (k < k') && memWf ((k', v') :: rest)

/-- Look up a key in an association list. -/
def assoc {α β : Type} [DecidableEq α] : List (α × β) → α → Option β
  | [], _ => none
  | (k, v) :: rest, a => if k = a then some v else assoc rest a

/-- Set a key of an association list: the first entry of that key is replaced, or one is added at the end. -/
def assocSet {α β : Type} [DecidableEq α] : List (α × β) → α → β → List (α × β)
  | [], a, b => [(a, b)]
  | (k, v) :: rest, a, b => if k = a then (a, b) :: rest else (k, v) :: assocSet rest a b

/-- Apply `f` to element `i` of a list. -/
def modAt {α : Type} : List α → Nat → (α → α) → List α
  | [], _, _ => []
  | x :: xs, 0, f => f x :: xs
  | x :: xs, n + 1, f => x :: modAt xs n f

/-- Insert a number in a rising list without repeats. -/
def insertSorted : List Nat → Nat → List Nat
  | [], a => [a]
  | x :: xs, a => if a < x then a :: x :: xs else if a = x then x :: xs else x :: insertSorted xs a

end Sys2Proof.Machine
end

