-- ==== Sys2Proof/Machine/Predict.lean ====
section
/-!
DEFINITION. Samples, the predictor and its inverse, slice cutting (R153-R160) and the summary record (R124-R128).
-/

namespace Sys2Proof.Machine

/-- Sample depth in bits from PIXFMT (R76). -/
def fmtDepth (pixfmt : Nat) : Nat := 8 + 2 * (pixfmt % 8)

/-- Whether PIXFMT says packed (R76). -/
def fmtPacked (pixfmt : Nat) : Bool := bitAt pixfmt 3

/-- Bits of one stored sample (R153). -/
def fmtBits (pixfmt : Nat) : Nat :=
  let d := fmtDepth pixfmt
  if d == 8 then 8 else if d == 16 then 16 else if fmtPacked pixfmt then d else 16

/-- The value domain W of a sample (R153): the same number as its stored bits. -/
def fmtDomain (pixfmt : Nat) : Nat := fmtBits pixfmt

/-- The samples of `n` pixels of a byte string (R153): sample `i` is bits `i*w .. i*w+w-1` of the little-endian bit stream. -/
def samplesOf (w : Nat) : Nat → Nat → List Nat
  | 0, _ => []
  | n + 1, v => v % 2 ^ w :: samplesOf w n (v / 2 ^ w)

/-- Put samples of width `w` back into one little-endian number. -/
def unsamples (w : Nat) : List Nat → Nat
  | [] => 0
  | x :: xs => x % 2 ^ w + 2 ^ w * unsamples w xs

/-- The same-colour distance (R154): 2 for a Bayer frame, 1 for monochrome. -/
def colourStep (cfa : Nat) : Nat := if bitAt cfa 2 then 1 else 2

/-- The prediction at pixel index `i` of a slice of line width `wd`, from the samples before it (R154-R156). -/
def predictAt (pred d wd st : Nat) (xs : Array Nat) (i : Nat) : Nat :=
  let r := i / wd
  let c := i % wd
  let ha := decide (st ≤ c)
  let hb := decide (st ≤ r)
  let a0 := xs.getD (i - st) 0
  let b0 := xs.getD (i - st * wd) 0
  let q0 := xs.getD (i - st * wd - st) 0
  if !ha && !hb then 2 ^ (d - 1)
  else
    let a := if ha then a0 else b0
    let b := if hb then b0 else a0
    let q := if ha && hb then q0 else if ha then a0 else b0
    if pred == 1 then a
    else if pred == 2 then b
    else if pred == 3 then (a + b) / 2
    else if max a b ≤ q then min a b
    else if q ≤ min a b then max a b
    else a + b - q

/-- The mapped residual of a sample (R157). -/
def residual (w x p : Nat) : Nat :=
  let e := (x + 2 ^ w - p % 2 ^ w) % 2 ^ w
  if e < 2 ^ (w - 1) then 2 * e else 2 * (2 ^ w - e) - 1

/-- The sample a mapped residual stands for. -/
def unresidual (w z p : Nat) : Nat :=
  if z % 2 == 0 then (p + z / 2) % 2 ^ w else (p + 2 ^ w - (z + 1) / 2) % 2 ^ w

/-- The residuals of a slice, in raster order. -/
def residuals (pred d w wd st : Nat) (xs : List Nat) : List Nat :=
  let arr := xs.toArray
  (List.range xs.length).map fun i => residual w (arr.getD i 0) (predictAt pred d wd st arr i)

/-- The samples of a slice from its residuals. -/
def unresiduals (pred d w wd st : Nat) (zs : List Nat) : List Nat :=
  (zs.foldl (fun (acc : Array Nat) z => acc.push (unresidual w z (predictAt pred d wd st acc acc.size))) #[]).toList

/-- Pieces of `n` elements; the fuel is the list's length. -/
def rowsAux {α : Type} (n : Nat) : Nat → List α → List (List α)
  | 0, _ => []
  | f + 1, xs => if xs.isEmpty then [] else xs.take n :: rowsAux n f (xs.drop n)

/-- The DEFLATE input bytes of residuals (R158): whole bytes, or for each line the low bytes and then the high bytes. -/
def residualBytes (w wd : Nat) (zs : List Nat) : Bytes :=
  if w ≤ 8 then zs.map (BitVec.ofNat 8)
  else (rowsAux wd zs.length zs).flatMap fun l => l.map (BitVec.ofNat 8) ++ l.map fun z => BitVec.ofNat 8 (z / 256)

/-- The residuals of DEFLATE input bytes. -/
def bytesResiduals (w wd : Nat) (bs : Bytes) : List Nat :=
  if w ≤ 8 then bs.map (·.toNat)
  else (rowsAux (2 * wd) bs.length bs).flatMap fun l =>
    List.zipWith (fun lo hi => lo.toNat + 256 * hi.toNat) (l.take (l.length / 2)) (l.drop (l.length / 2))

/-- A slice as the DEFLATE input a lane makes of it: prediction applied when `pred` is 1 to 4 (R156, R158). -/
def predictSlice (pred pixfmt cfa width : Nat) (raw : Bytes) : Bytes :=
  if pred == 0 then raw
  else
    let w := fmtBits pixfmt
    let n := raw.length * 8 / w
    residualBytes w width (residuals pred (fmtDepth pixfmt) w width (colourStep cfa) (samplesOf w n (leNat raw)))

/-- Inverse prediction of a slice (R154-R158), cut to `rawLen` bytes. -/
def unpredictSlice (pred pixfmt cfa width rawLen : Nat) (inp : Bytes) : Bytes :=
  if pred == 0 then inp
  else
    let w := fmtBits pixfmt
    leBytes rawLen (unsamples w (unresiduals pred (fmtDepth pixfmt) w width (colourStep cfa) (bytesResiduals w width inp)))

/-- One slice of a frame before compression: its offset in the frame, its raw bytes and its predictor. -/
structure RawSlice where
  /-- RAW_OFFSET -/
  off : Nat
  /-- the raw bytes -/
  raw : Bytes
  /-- the predictor in use: the take's for a raster slice, 0 for a tail slice -/
  pred : Nat
deriving DecidableEq, Repr

/-- Pieces of at most `n` bytes with their offsets and predictor; the fuel is the byte count. -/
def cutAt (n pred : Nat) : Nat → Nat → Bytes → List RawSlice
  | 0, _, _ => []
  | f + 1, off, xs => if xs.isEmpty then [] else ⟨off, xs.take n, pred⟩ :: cutAt n pred f (off + n) (xs.drop n)

/-- The slices of a frame (R159, R160). -/
def frameSlices (pixfmt width height pred : Nat) (bytes : Bytes) : List RawSlice :=
  if bytes.isEmpty then [⟨0, [], 0⟩]
  else
    let w := fmtBits pixfmt
    let px := min (width * height) (bytes.length * 8 / w)
    let px := if fmtPacked pixfmt && decide (w ≠ 8) && decide (w ≠ 16) then px - px % 8 else px
    let raster := px * w / 8
    let lines := 8 * (4194304 / (width * w))
    let sliceBytes := lines * width * w / 8
    cutAt sliceBytes pred bytes.length 0 (bytes.take raster) ++
      cutAt 4194304 0 bytes.length raster (bytes.drop raster)

/-- What the summariser knows of a frame beside its pixels. -/
structure SummaryInput where
  /-- FRAME_NUMBER -/
  number : Nat
  /-- CAPTURE_TIME -/
  capture : Nat
  /-- FRAME_INFO of R128 -/
  info : Nat
  /-- META bytes -/
  metaBytes : Bytes
  /-- PIXFMT -/
  pixfmt : Nat
  /-- WIDTH -/
  width : Nat
  /-- HEIGHT -/
  height : Nat
deriving DecidableEq, Repr

/-- The statistics of a frame (R124-R127). -/
structure Stats where
  /-- histogram -/
  hist : List Nat
  /-- tile means -/
  tiles : List Nat
  /-- smallest value -/
  minV : Nat
  /-- largest value -/
  maxV : Nat
  /-- pixels summarised -/
  pixels : Nat
  /-- sum -/
  sum : Nat
  /-- sum of squares -/
  sumsq : Nat
  /-- FLAGS of R124 -/
  flags : Nat
deriving DecidableEq, Repr

/-- The band of 16 a line or column lies in (R126). -/
def bandOf (n i : Nat) : Nat := ((List.range 16).filter fun k => decide (k * n / 16 ≤ i)).length - 1

/-- The statistics of stored bytes (R125-R127). -/
def frameStats (pixfmt width height : Nat) (bytes : Bytes) : Stats :=
  let w := fmtBits pixfmt
  let d := fmtDepth pixfmt
  let want := width * height
  let n := min want (bytes.length * 8 / w)
  let px := (samplesOf w n (leNat bytes)).map (· % 2 ^ d)
  let hist := px.foldl (fun (h : Array Nat) v => h.modify (v / 2 ^ (d - 8)) (· + 1)) (Array.replicate 256 0)
  let idx := (List.range n).zip px
  let ts := idx.foldl (fun (t : Array (Nat × Nat)) p =>
      t.modify (16 * bandOf height (p.1 / width) + bandOf width (p.1 % width)) fun q => (q.1 + p.2, q.2 + 1))
    (Array.replicate 256 (0, 0))
  let tl := ts.toList
  let partialF := decide (n < want)
  let excess := decide (want * w < bytes.length * 8 ∧ ceilDiv (want * w) 8 < bytes.length)
  { hist := hist.toList
    tiles := tl.map fun q => if q.2 == 0 then 0 else q.1 / q.2
    minV := if n == 0 then 0 else px.foldl min (2 ^ d - 1)
    maxV := px.foldl max 0
    pixels := n
    sum := px.foldl (· + ·) 0
    sumsq := px.foldl (fun a v => a + v * v) 0
    flags := b2n partialF + 2 * b2n excess + 4 * b2n (tl.any fun q => q.2 == 0) }

/-- The source value of one key selector (R128). -/
def keySource (st : Stats) (x : SummaryInput) (src index : Nat) : Nat :=
  match src with
  | 1 => st.hist.getD index 0
  | 2 => st.tiles.getD index 0
  | 3 => st.minV
  | 4 => st.maxV
  | 5 => st.sum
  | 6 => st.sumsq
  | 7 => st.pixels
  | 8 => x.number
  | 9 => x.capture
  | 10 => x.info
  | 11 => leNat (sliceBytes x.metaBytes (4 * index) 4)
  | _ => 0

/-- One word of the summary key from its selector (R128). -/
def keyWord (st : Stats) (x : SummaryInput) (sel : Nat) : Nat :=
  (keySource st x (bits sel 0 8) (bits sel 8 12) / 2 ^ bits sel 20 6) % 2 ^ 32

/-- Whether a key selector is legal (R128). -/
def keySelLegal (sel : Nat) : Bool :=
  let src := bits sel 0 8
  let ix := bits sel 8 12
  if src == 1 || src == 2 then decide (ix ≤ 255)
  else if src == 11 then decide (ix ≤ 1023)
  else decide (src ≤ 10) && ix == 0

/-- The 256-bit summary key as eight words (R128). -/
def summaryKey (st : Stats) (x : SummaryInput) (sels : List Nat) : List Nat := sels.map (keyWord st x)

/-- The 2,048-byte summary record (R124). -/
def summaryRecord (st : Stats) (key : List Nat) : Bytes :=
  let body := st.hist.flatMap (leBytes 4) ++ st.tiles.flatMap (leBytes 2) ++ leBytes 2 st.minV ++ leBytes 2 st.maxV ++
    leBytes 4 st.pixels ++ leBytes 8 st.sum ++ leBytes 8 st.sumsq ++ leBytes 4 st.flags ++ leBytes 4 0 ++
    padTo 32 (key.flatMap (leBytes 4)) ++ List.replicate 444 0
  body ++ leBytes 4 (crc32c body)

end Sys2Proof.Machine
end

