-- ==== Sys2Proof/Machine/Sha.lean ====
section
/-!
DEFINITION. The SHA-2 family and HMAC (R432-R438, R589, R593): digests over byte strings, computed on natural numbers.
-/

namespace Sys2Proof.Machine

/-- The four digest algorithms, encoded as DIGEST_ALG (R72). -/
inductive DigestAlg where
  | sha256 | sha384 | sha512 | sha512t256
deriving DecidableEq, Repr

/-- DIGEST_ALG as a number (R72). -/
def DigestAlg.ofCode (n : Nat) : DigestAlg :=
  if n == 0 then .sha256 else if n == 1 then .sha384 else if n == 2 then .sha512 else .sha512t256

/-- DIGEST_ALG's number (R72). -/
def DigestAlg.code : DigestAlg → Nat
  | .sha256 => 0 | .sha384 => 1 | .sha512 => 2 | .sha512t256 => 3

/-- The length of a digest in bytes (R432). -/
def DigestAlg.len : DigestAlg → Nat
  | .sha256 => 32 | .sha384 => 48 | .sha512 => 64 | .sha512t256 => 32

/-- Rotate right in a word of `w` bits. -/
def ror (w x n : Nat) : Nat := ((x / 2 ^ n) + (x % 2 ^ n) * 2 ^ (w - n)) % 2 ^ w

/-! ### Constants: the fractional parts of roots of the first primes (FIPS 180-4, which R432 names) -/

/-- The largest number whose `e`-th power is at most `n`, given the bits above `b` in `r`. -/
def rootBits (e n : Nat) : Nat → Nat → Nat
  | 0, r => r
  | b + 1, r => rootBits e n b (if (r + 2 ^ b) ^ e ≤ n then r + 2 ^ b else r)

/-- The first 64 bits of the fractional part of the `e`-th root of `p`, for roots below 32. -/
def rootFraction (e p : Nat) : Nat := rootBits e (p * 2 ^ (64 * e)) 69 0 % 2 ^ 64

/-- The primes below 410: the first 80. -/
def shaPrimes : List Nat :=
  (List.range 410).filter fun n => decide (2 ≤ n) && ([2, 3, 5, 7, 11, 13, 17, 19].all fun d => n == d || n % d != 0)

/-- Round constants of the 64-bit variants: cube roots of the first 80 primes. -/
def k512 : List Nat := shaPrimes.map (rootFraction 3)

/-- Round constants of SHA-256: 32 bits of the first 64 of them. -/
def k256 : List Nat := (shaPrimes.take 64).map fun p => rootFraction 3 p / 2 ^ 32

/-- SHA-256 initial value: square roots of the first eight primes, 32 bits. -/
def iv256 : List Nat := (shaPrimes.take 8).map fun p => rootFraction 2 p / 2 ^ 32

/-- SHA-384 initial value: square roots of the ninth to the sixteenth prime. -/
def iv384 : List Nat := ((shaPrimes.drop 8).take 8).map (rootFraction 2)

/-- SHA-512 initial value: square roots of the first eight primes. -/
def iv512 : List Nat := (shaPrimes.take 8).map (rootFraction 2)

/-- SHA-512/256 initial value. -/
def iv512t256 : List Nat := [0x22312194fc2bf72c, 0x9f555fa3c84c64c2, 0x2393b86b6f53b151, 0x963877195940eabd,
   0x96283ee2a88effe3, 0xbe5e1e2553863992, 0x2b0199fc2c85b8aa, 0xeb72ddc81c52ca2]

/-- The shape of one SHA-2 variant: word bits, the rotation amounts and the round constants. -/
structure ShaParams where
  /-- word width in bits -/
  w : Nat
  /-- small sigma 0: two rotations and a shift -/
  s0 : Nat × Nat × Nat
  /-- small sigma 1 -/
  s1 : Nat × Nat × Nat
  /-- big sigma 0: three rotations -/
  b0 : Nat × Nat × Nat
  /-- big sigma 1 -/
  b1 : Nat × Nat × Nat
  /-- round constants -/
  k : List Nat

/-- SHA-256. -/
def sha256Params : ShaParams := ⟨32, (7, 18, 3), (17, 19, 10), (2, 13, 22), (6, 11, 25), k256⟩
/-- SHA-384, SHA-512 and SHA-512/256. -/
def sha512Params : ShaParams := ⟨64, (1, 8, 7), (19, 61, 6), (28, 34, 39), (14, 18, 41), k512⟩

/-- The message schedule, newest word first: `n` more words after the 16 of the block. -/
def shaSchedule (p : ShaParams) : Nat → List Nat → List Nat
  | 0, ws => ws
  | n + 1, ws =>
    let a := ws.getD 14 0
    let b := ws.getD 1 0
    let s0 := ror p.w a p.s0.1 ^^^ ror p.w a p.s0.2.1 ^^^ (a / 2 ^ p.s0.2.2)
    let s1 := ror p.w b p.s1.1 ^^^ ror p.w b p.s1.2.1 ^^^ (b / 2 ^ p.s1.2.2)
    shaSchedule p n ((ws.getD 15 0 + s0 + ws.getD 6 0 + s1) % 2 ^ p.w :: ws)

/-- One round on the working variables a to h, with constant `k` and schedule word `x`. -/
def shaRound (p : ShaParams) (r : List Nat) (k x : Nat) : List Nat :=
  match r with
  | [a, b, c, d, e, f, g, h] =>
    let m := 2 ^ p.w
    let s1 := ror p.w e p.b1.1 ^^^ ror p.w e p.b1.2.1 ^^^ ror p.w e p.b1.2.2
    let ch := (e &&& f) ^^^ ((m - 1 - e) &&& g)
    let t1 := h + s1 + ch + k + x
    let s0 := ror p.w a p.b0.1 ^^^ ror p.w a p.b0.2.1 ^^^ ror p.w a p.b0.2.2
    let mj := (a &&& b) ^^^ (a &&& c) ^^^ (b &&& c)
    [(t1 + s0 + mj) % m, a, b, c, (d + t1) % m, e, f, g]
  | _ => r

/-- All rounds of one block. -/
def shaRounds (p : ShaParams) : List Nat → List Nat → List Nat → List Nat
  | r, k :: ks, x :: xs => shaRounds p (shaRound p r k x) ks xs
  | r, _, _ => r

/-- Compress one block into the chaining value. -/
def shaBlock (p : ShaParams) (hs : List Nat) (block : Bytes) : List Nat :=
  let ws := (chunks (p.w / 8) block).map beNat
  let sched := (shaSchedule p (p.k.length - 16) ws.reverse).reverse
  List.zipWith (fun x y => (x + y) % 2 ^ p.w) hs (shaRounds p hs p.k sched)

/-- The padded message. -/
def shaPad (p : ShaParams) (msg : Bytes) : Bytes :=
  let blk := 2 * p.w
  let lenBytes := p.w / 4
  let z := (blk - (msg.length + 1 + lenBytes) % blk) % blk
  msg ++ [0x80] ++ List.replicate z 0 ++ beBytes lenBytes (8 * msg.length)

/-- SHA-2 with given parameters, initial value and output length. -/
def shaWith (p : ShaParams) (iv : List Nat) (out : Nat) (msg : Bytes) : Bytes :=
  ((((chunks (2 * p.w) (shaPad p msg)).foldl (shaBlock p) iv).flatMap (beBytes (p.w / 8)))).take out

/-- The digest of a byte string. -/
def digest : DigestAlg → Bytes → Bytes
  | .sha256, m => shaWith sha256Params iv256 32 m
  | .sha384, m => shaWith sha512Params iv384 48 m
  | .sha512, m => shaWith sha512Params iv512 64 m
  | .sha512t256, m => shaWith sha512Params iv512t256 32 m

/-- SHA-256. -/
def sha256 (m : Bytes) : Bytes := digest .sha256 m

/-- SHA-384. -/
def sha384 (m : Bytes) : Bytes := digest .sha384 m

/-- HMAC-SHA-384 (R589). -/
def hmacSha384 (key msg : Bytes) : Bytes :=
  let k := padTo 128 (if key.length > 128 then sha384 key else key)
  sha384 (k.map (· ^^^ 0x5C) ++ sha384 (k.map (· ^^^ 0x36) ++ msg))

end Sys2Proof.Machine
end

