-- ==== Sys2Proof/Machine/Types.lean ====
section
/-!
DEFINITION. The pieces the state is made of, first part: registers, errors, roles, the Gate, takes, triggers and Shears.
All of it is plain data.
-/

namespace Sys2Proof.Machine

/-- A register field: page, byte offset of its register, lowest bit, width. -/
structure Fld where
  /-- page number; a page held per origin or per unit adds a multiple of 0x10000 -/
  page : Nat
  /-- offset of the register, the low one of a 64-bit pair -/
  off : Nat
  /-- lowest bit -/
  lo : Nat
  /-- width in bits -/
  w : Nat
deriving DecidableEq, Repr

/-- Access codes (R42-R44). -/
inductive Acc where
  | ro | rw | wo | rw1c
deriving DecidableEq, Repr

/-- The role an RWL field names (R43). -/
inductive RoleReq where
  | none | oper | inst | instOrMaker
deriving DecidableEq, Repr

/-- The three roles (R585). -/
inductive Role where
  | operator | installer | maker
deriving DecidableEq, Repr

/-- The kinds of register page (R50); `vf` is a VF's own page 0 (R35). -/
inductive PageKind where
  | gate | take | fallow | summ | trig | lane | shears | nand | media | array | core | cluster | earmark | bank | cipher
  | keyeng | digest | entropy | hostq | vf | tenant | xlate | drove | dram | dramc | pwr | vreg | rtc | clk | otp | role
  | audit | perturb | fault | share | dev
deriving DecidableEq, Repr

/-- One field of a page's register table. -/
structure RegRow where
  /-- offset of the register -/
  off : Nat
  /-- lowest bit -/
  lo : Nat
  /-- width -/
  w : Nat
  /-- the register is a 64-bit pair (R45) -/
  pair : Bool
  /-- access -/
  acc : Acc
  /-- role named -/
  role : RoleReq
  /-- RWS: survives warm and soft reset -/
  rws : Bool
  /-- kept in the configuration record (R647) -/
  cfg : Bool
  /-- reset value -/
  reset : Nat
  /-- legal encodings as ranges; empty for all -/
  legal : List (Nat × Nat)
deriving DecidableEq, Repr

/-- A 64-bit read latch of one origin on one page (R46). -/
structure Latch where
  /-- origin -/
  origin : Origin
  /-- page -/
  page : Nat
  /-- offset of the low word -/
  off : Nat
  /-- the high half latched -/
  hi : Nat
  /-- when -/
  time : Nat
deriving DecidableEq, Repr

/-- A pending low word of one origin on one page (R47). -/
structure PendLow where
  /-- origin -/
  origin : Origin
  /-- page -/
  page : Nat
  /-- offset of the low word -/
  off : Nat
  /-- the word -/
  lo : Nat
  /-- when it was written -/
  time : Nat
deriving DecidableEq, Repr

/-- One report on its way to the error rings (R604, R608). -/
structure Report where
  /-- DTIME -/
  time : Nat
  /-- CODE -/
  code : Nat
  /-- SEVERITY -/
  sev : Nat
  /-- INSTANCE -/
  inst : Nat
  /-- FUNC -/
  func : Nat
  /-- INFO bytes 0-3 -/
  info : Nat
  /-- EXT -/
  ext : Nat
  /-- INFO bytes 12-15 where the code fixes them (R623), else 0 -/
  last : Nat
deriving DecidableEq, Repr

/-- One entry of an error ring (R604). -/
structure RingEntry where
  /-- the first occurrence -/
  rep : Report
  /-- REPEAT -/
  count : Nat
deriving DecidableEq, Repr

/-- An error ring (R606): its unread entries, oldest first, and what it has lost (R610, R611). -/
structure Ring where
  /-- unread entries, oldest first -/
  entries : List RingEntry
  /-- LOST -/
  lost : Nat
  /-- DTIME of the first lost report -/
  firstLost : Nat
  /-- an overflow entry is owed after an unclean stop (R607) -/
  unclean : Bool
deriving DecidableEq, Repr

/-- A rise of a sticky bit, kept for its own CTL cycle (R39). -/
structure Rise where
  /-- page -/
  page : Nat
  /-- bit -/
  bit : Nat
  /-- number of the CTL cycle -/
  cycle : Nat
deriving DecidableEq, Repr

/-- The FAULT block (R604-R613). -/
structure FaultSt where
  /-- the intake queue, at most 64 reports -/
  intake : List Report
  /-- the device ring -/
  dev : Ring
  /-- the rings of host functions -/
  funcs : List (Nat × Ring)
  /-- the newest entry written to the device ring -/
  newest : Option RingEntry
deriving DecidableEq, Repr

/-- A role held by an origin (R587, R592). -/
structure Session where
  /-- origin -/
  origin : Origin
  /-- role -/
  role : Role
  /-- DTIME of its last role action -/
  last : Nat
deriving DecidableEq, Repr

/-- A live challenge (R589, R590). -/
structure Challenge where
  /-- origin -/
  origin : Origin
  /-- role -/
  role : Role
  /-- its 64 bytes -/
  bytes : Bytes
  /-- DTIME at issue -/
  issued : Nat
deriving DecidableEq, Repr

/-- Failure counting of one role (R591), in the always-on domain. -/
structure Lockout where
  /-- consecutive failures -/
  fails : Nat
  /-- lockouts since the last success -/
  count : Nat
  /-- DTIME the lockout ends, 0 for none -/
  until_ : Nat
deriving DecidableEq, Repr

/-- OTP, roles, audit and perturbation (R577-R602). -/
structure TrustSt where
  /-- programmed OTP bytes; an unlisted byte is 0 -/
  otp : List (Nat × Byte)
  /-- maker generation in force since the last cold reset -/
  makerGen : Option Nat
  /-- installer generation in force since the last cold reset -/
  instGen : Option Nat
  /-- decommissioned at the last cold reset -/
  decom : Bool
  /-- roles held -/
  sessions : List Session
  /-- live challenges -/
  challenges : List Challenge
  /-- failures by role: operator, installer, maker -/
  lockouts : List Lockout
  /-- operator credential: salt and digest (R588), durable -/
  cred : Option (Bytes × Bytes)
  /-- the audit log's entries of 128 bytes, oldest first (R593), durable -/
  audit : List Bytes
  /-- SEQ of the next audit entry -/
  auditSeq : Nat
  /-- head digest in the Tally (R595) -/
  auditHead : Bytes
  /-- SEQ of the entry the Tally head names -/
  auditHeadSeq : Nat
  /-- events injected so far by each perturbation profile -/
  injected : List (Nat × Nat)
  /-- the origin that set ARM -/
  armOrigin : Option Origin
  /-- pages whose perturbation holds until a DTIME -/
  delays : List (Nat × Nat)
deriving DecidableEq, Repr

/-- A flit the device sends, as the replay buffer keeps it with its original contents (R60, R62, R63). -/
structure TxFlit where
  /-- SEQ -/
  seq : Nat
  /-- packet area content -/
  packets : List Bytes
  /-- link area, one 64-bit word -/
  link : Nat
deriving DecidableEq, Repr

/-- The Gate link and its buffers (R51-R87). -/
structure GateSt where
  /-- last payload SEQ sent -/
  txSeq : Nat
  /-- last payload SEQ received good and in order -/
  rxSeq : Nat
  /-- a NAK was sent and later payload flits are discarded until the one after `rxSeq` -/
  nakked : Bool
  /-- what the next link area carries: 0 nothing, 1 ACK, 2 NAK -/
  ackOut : Nat
  /-- CTRL packets sent since link-up -/
  txCtrl : Nat
  /-- the camera's CL_CTRL, none before its first flit -/
  limCtrl : Option Nat
  /-- the camera's CL_DATA, kept though the device sends no FRAME_DATA -/
  limData : Nat
  /-- FRAME_DATA packets received since link-up -/
  rxData : Nat
  /-- other credited packets received since link-up -/
  rxCtrl : Nat
  /-- advertised CL_DATA, as a cumulative count -/
  advData : Nat
  /-- advertised CL_CTRL, as a cumulative count -/
  advCtrl : Nat
  /-- received packets waiting in the receive buffers, oldest first -/
  rxBuf : List Bytes
  /-- device packets waiting to be sent -/
  txq : List Bytes
  /-- sent and unacknowledged flits -/
  replay : List TxFlit
  /-- the flit that left last, an idle one with its empty packet area -/
  sent : Option TxFlit
  /-- FEC-corrected symbols of the last 1 ms: logical lane and DTIME (R55) -/
  fec : List (Nat × Nat)
  /-- replays in a row without progress (R64) -/
  replays : Nat
  /-- next HB_SEQ -/
  hbSeq : Nat
  /-- DTIME at which the next heartbeat leaves (R86) -/
  hbDue : Nat
  /-- DTIME since which no acknowledgement has advanced (R64) -/
  ackFrom : Nat
  /-- heartbeats sent: HB_SEQ and the DTIME they carried (R87) -/
  hbTimes : List (Nat × Nat)
  /-- first logical lane of the present width's group (R54) -/
  group : Nat
  /-- DTIME of a link-down with a take open (R58) -/
  graceFrom : Option Nat
  /-- a full retrain or link-down awaits training from Detect; false in DOZE, FOLD and BOOT -/
  mayTrain : Bool
  /-- DTIME of a training failure awaiting its 100 ms (R52) -/
  failedAt : Option Nat
deriving DecidableEq, Repr

/-- A frame of the open take (R76-R81, R114). -/
structure FrameSt where
  /-- number of the frame within the model's run -/
  uid : Nat
  /-- stream -/
  stream : Nat
  /-- FRAME_NUMBER -/
  number : Nat
  /-- CAPTURE_TIME -/
  capture : Nat
  /-- DECLARED_LEN -/
  declared : Nat
  /-- PIXFMT -/
  pixfmt : Nat
  /-- WIDTH -/
  width : Nat
  /-- HEIGHT -/
  height : Nat
  /-- CFA -/
  cfa : Nat
  /-- accepted bytes -/
  bytes : Bytes
  /-- bytes received, those beyond DECLARED_LEN included -/
  recv : Nat
  /-- MARKS -/
  marks : Nat
  /-- camera STATUS -/
  status : Nat
  /-- metadata bytes written -/
  metaMem : List (Nat × Byte)
  /-- one past the highest metadata byte written -/
  metaLen : Nat
  /-- sensor CRC of FRAME_END, 0 for none -/
  crc : Nat
  /-- FRAME_END processed -/
  ended : Bool
  /-- slices queued so far -/
  queued : Nat
  /-- slices released so far -/
  released : Nat
  /-- raw bytes of the slices released so far -/
  relRaw : Nat
  /-- the summary key once complete -/
  key : Option (List Nat)
  /-- rule search done -/
  ruled : Bool
  /-- container offset of the first record -/
  firstRec : Option Nat
  /-- container offset of the FRAME record -/
  recOff : Nat
  /-- container offset past the FRAME record, 0 before it is placed -/
  recEnd : Nat
deriving DecidableEq, Repr

/-- Where a take slice stands. -/
inductive SliceStatus where
  | waiting | onLane | verified | lost
deriving DecidableEq, Repr

/-- A take slice (R159, R166-R168). -/
structure TakeSlice where
  /-- its frame -/
  uid : Nat
  /-- SLICE_INDEX -/
  idx : Nat
  /-- offset, raw bytes, predictor -/
  raw : RawSlice
  /-- status -/
  status : SliceStatus
  /-- re-emitted as stored blocks -/
  stored : Bool
  /-- re-emissions so far -/
  tries : Nat
  /-- the lane whose attempt mismatched last -/
  fromLane : Nat
deriving DecidableEq, Repr

/-- A FRAME_ACK waiting its turn on its stream (R80): none until the frame is secured or refused. -/
structure AckSlot where
  /-- the frame, none for a refused one -/
  uid : Option Nat
  /-- stream -/
  stream : Nat
  /-- the packet once it may leave -/
  pkt : Option Bytes
deriving DecidableEq, Repr

/-- A frame listed in the next INDEX record (R116). -/
structure IndexRow where
  /-- FRAME_NUMBER -/
  number : Nat
  /-- CAPTURE_TIME -/
  capture : Nat
  /-- offset of the FRAME record -/
  off : Nat
  /-- stream -/
  stream : Nat
  /-- MARKS -/
  marks : Nat
  /-- summary key, for the frame index (R398) -/
  key : List Nat
deriving DecidableEq, Repr

/-- An INDEX record that is not yet secured, with what it had before it (R106, R116). -/
structure IndexMark where
  /-- its end -/
  fin : Nat
  /-- the frames it lists -/
  rows : List IndexRow
  /-- offset of the INDEX before it -/
  prev : Nat
  /-- chunk digests listed before it -/
  listed : Nat
deriving DecidableEq, Repr

/-- A take's contract and container header values (R90-R94, R113). -/
structure Contract where
  /-- TAKE_ID -/
  takeId : Nat
  /-- REQ_ID -/
  reqId : Nat
  /-- take namespace -/
  nsid : Nat
  /-- TIER -/
  tier : Nat
  /-- KIND -/
  kind : Nat
  /-- granted RATE -/
  rate : Nat
  /-- MIN_RATIO -/
  minRatio : Nat
  /-- STREAMS -/
  streams : Nat
  /-- EFFORT -/
  effort : Nat
  /-- PRED -/
  pred : Nat
  /-- FLAGS -/
  flags : Nat
  /-- DIGEST_ALG -/
  alg : Nat
  /-- granted DURATION -/
  duration : Nat
  /-- RING_GIB -/
  ringGib : Nat
  /-- UNSECURED_CAP in bytes -/
  cap : Nat
  /-- Lee share in MiB -/
  lee : Nat
  /-- Fallow reservation in MB at grant -/
  reserved : Nat
  /-- data units per stripe at grant -/
  k : Nat
  /-- media key slot -/
  slot : Nat
  /-- reserved Shears lanes at grant -/
  lanes : Nat
deriving DecidableEq, Repr

/-- The take pipeline (R90-R120). -/
structure TakeSt where
  /-- the request under admission -/
  req : Option TakeOpenPkt
  /-- the open take's contract -/
  c : Option Contract
  /-- DTIME of the grant -/
  grantTime : Nat
  /-- plaintext container bytes so far (digest snoop and ring copies read them) -/
  cont : Bytes
  /-- container bytes handed to stripes -/
  placed : Nat
  /-- secured prefix in bytes -/
  secured : Nat
  /-- DTIME at which the tail stripe got its first byte -/
  tailSince : Nat
  /-- frames not yet secured or answered -/
  frames : List FrameSt
  /-- slices not yet released -/
  slices : List TakeSlice
  /-- last accepted FRAME_NUMBER by stream -/
  lastNumber : List (Nat × Nat)
  /-- streams discarding a refused frame's packets (R81) -/
  refusing : List Nat
  /-- FRAME_ACKs in FRAME_BEGIN order -/
  acks : List AckSlot
  /-- frames for the next INDEX -/
  index : List IndexRow
  /-- INDEX records that end past the secured prefix, oldest first -/
  indexed : List IndexMark
  /-- offset of the last INDEX, 0 for none -/
  lastIndex : Nat
  /-- chunk digests listed so far -/
  chunksListed : Nat
  /-- FRAMES stored -/
  framesStored : Nat
  /-- RAW_BYTES stored -/
  rawStored : Nat
  /-- MARKED -/
  marked : Nat
  /-- start of the present ratio measurement, its raw bytes and its stored bytes -/
  ratioFrom : Nat
  /-- raw bytes since then -/
  ratioRaw : Nat
  /-- stored bytes since then -/
  ratioStored : Nat
  /-- close REASON while CLOSING -/
  reason : Nat
  /-- offsets of MANIFEST, final INDEX and container end once the trailer is placed -/
  trailer : Option (Nat × Nat × Nat)
  /-- next frame number of the model -/
  nextUid : Nat
  /-- next TAKE_ID, never reused -/
  nextId : Nat
  /-- stream-table selections copied at admission (R129): 8 streams of 8 words -/
  keysel : List (List Nat)
  /-- ring segments released (R131) -/
  releasedSegs : List Nat
  /-- ring segments to be released, none of whose blocks has been sent an erase yet: the take's NSID and the segment (R132) -/
  releasing : List (Nat × Nat)
  /-- RTC and its validity at grant -/
  rtcAtGrant : Nat
  /-- DTIME a ratio breach was last recorded -/
  ratioLow : Nat
  /-- the power-failure phase: 0 none, 1 drain, 2 flush, 3 close, 4 checkpoint (R104) -/
  pfPhase : Nat
  /-- the take closes without a trailer: the array is offline or the keys are erased (R75) -/
  noTrailer : Bool
  /-- frames answered with FRAME_ACK STATUS 0x01 may not be secured any more: their uids (R111) -/
  lostFrames : List Nat
deriving DecidableEq, Repr

/-- A trigger window (R140-R145). -/
structure Window where
  /-- 0 FREE, 1 OPEN, 2 SEALED, 3 COPYING -/
  state : Nat
  /-- highest-priority source -/
  source : Nat
  /-- SOURCE_TAG of the first trigger -/
  tag : Nat
  /-- PRE_SHORT -/
  preShort : Bool
  /-- CUT -/
  cut : Bool
  /-- LATE -/
  late : Bool
  /-- triggers merged -/
  triggers : Nat
  /-- start -/
  start : Nat
  /-- end, exclusive -/
  fin : Nat
  /-- kept take identifier -/
  keptId : Nat
  /-- reserved take NSID -/
  nsid : Nat
  /-- the ring take's TAKE_ID -/
  ring : Nat
  /-- pinned frames: offset of first record, offset of FRAME record, its end -/
  pinned : List (Nat × Nat × Nat)
  /-- frames of the window that arrived before it sealed and whose records are not yet placed: their uids -/
  awaits : List Nat
  /-- frames of the window whose records have begun to be placed: uid, offset of the first record, end so far -/
  arriving : List (Nat × Nat × Nat)
deriving DecidableEq, Repr

/-- A trigger that has arrived and waits for the end of its CTL cycle (R139). -/
structure Fire where
  /-- number of the CTL cycle -/
  cycle : Nat
  /-- source code -/
  source : Nat
  /-- SOURCE_TAG -/
  tag : Nat
  /-- T -/
  t : Nat
  /-- PRE in ms -/
  pre : Nat
  /-- POST in ms -/
  post : Nat
deriving DecidableEq, Repr

/-- Trigger state beside the registers. -/
structure TrigSt where
  /-- triggers of one CTL cycle in the order in which they are processed (R139) -/
  arrived : List Fire
  /-- the 64 window slots -/
  windows : List Window
  /-- last counted edge per pin, as DTIME -/
  lastEdge : List (Option Nat)
  /-- frames placed in the open ring: stream, CAPTURE_TIME, first record, FRAME record, end -/
  ringFrames : List (Nat × Nat × Nat × Nat × Nat)
  /-- pinned segments of the open ring that the Fallow pool replaced (R134) -/
  drawn : List Nat
  /-- pinned segments that it could not replace -/
  short : List Nat
  /-- kept takes being copied: slot, container, bytes handed to stripes -/
  copies : List (Nat × Bytes × Nat)
deriving DecidableEq, Repr

/-- The function tag and job descriptor of an engine job (R173, R323). -/
structure Job where
  /-- number of the job -/
  id : Nat
  /-- source queue -/
  src : JobSrc
  /-- engine: 0 Shears, 1 Earmark, 2 digest, 3 cipher, 4 key engine -/
  engine : Nat
  /-- FUNC tag -/
  func : Nat
  /-- descriptor bytes -/
  desc : Bytes
  /-- done bit to set, with the function whose window it names and the core for a core bit -/
  done : Option (Nat × Nat × Nat)
  /-- the host command it serves -/
  cmd : Option CmdKey
deriving DecidableEq, Repr

/-- A job that an engine has run, waiting for its completion step: status and completion record (R177). -/
structure JobDone where
  /-- the job -/
  job : Job
  /-- STATUS -/
  status : Nat
  /-- completion address, 0 for none -/
  addr : Nat
  /-- completion record -/
  record : Bytes
  /-- DEFLATE blocks of a COMPRESS job's output (R182), 0 otherwise -/
  blocks : Nat
deriving DecidableEq, Repr

/-- What a Shears lane is doing. -/
inductive LaneWork where
  | idle
  /-- a take slice: frame, slice index, input blocks verified -/
  | slice (uid idx blocks : Nat)
  /-- a job that has run and awaits its completion -/
  | job (d : JobDone)
  /-- a stored re-emission of a take slice -/
  | reemit (uid idx : Nat)
deriving DecidableEq, Repr

/-- One Shears lane (R166-R171). -/
structure LaneSt where
  /-- present work -/
  work : LaneWork
  /-- work suspended by a re-emission (R168) -/
  held : List LaneWork
  /-- DTIMEs of its mismatches within the last second -/
  misses : List Nat
deriving DecidableEq, Repr

/-- The turns of a deficit round robin (R179, R494). -/
structure Turns where
  /-- the function whose turn it is, its quantum already granted -/
  cur : Option Nat
  /-- functions that wait and their deficits, in turn -/
  ring : List (Nat × Nat)
deriving DecidableEq, Repr

/-- The engine job queues: waiting jobs by source and engine, and finished jobs awaiting completion (R322, R324). -/
structure JobsSt where
  /-- waiting jobs, oldest first -/
  queue : List Job
  /-- jobs run and awaiting their completion step, oldest first (engines but Shears) -/
  finished : List JobDone
  /-- next job number -/
  next : Nat
  /-- turns of the Shears scheduler (R179) -/
  turns : Turns
  /-- Shears jobs that left a claimed lane and wait for an unreserved one, oldest first (R94) -/
  parked : List JobDone
deriving DecidableEq, Repr

end Sys2Proof.Machine
end

