-- ==== Sys2Proof/Machine/Regs.lean ====
section
/-!
DEFINITION. The named fields of every register page, their tables (access, reset value, legal encodings), the error codes
and the event bits, as the register tables of the spec's chapters give them (R37, R42-R44, R647 and each block's rule).
-/

namespace Sys2Proof.Machine

/-- LINK_STATUS.WIDTH, bits 1..0 at 0x040 of the GATE page (R89). -/
def R.GATE.LINK_STATUS_WIDTH : Fld := ⟨0x10, 0x040, 0, 2⟩
/-- LINK_STATUS.REVERSED, bits 2..2 at 0x040 of the GATE page (R89). -/
def R.GATE.LINK_STATUS_REVERSED : Fld := ⟨0x10, 0x040, 2, 1⟩
/-- LINK_STATUS.ACTIVE, bits 3..3 at 0x040 of the GATE page (R89). -/
def R.GATE.LINK_STATUS_ACTIVE : Fld := ⟨0x10, 0x040, 3, 1⟩
/-- LINK_STATUS.LTSSM, bits 7..4 at 0x040 of the GATE page (R89). -/
def R.GATE.LINK_STATUS_LTSSM : Fld := ⟨0x10, 0x040, 4, 4⟩
/-- LINK_STATUS.LANE_FAILED, bits 31..16 at 0x040 of the GATE page (R89). -/
def R.GATE.LINK_STATUS_LANE_FAILED : Fld := ⟨0x10, 0x040, 16, 16⟩
/-- LANE_POLARITY.INVERTED, bits 15..0 at 0x044 of the GATE page (R89). -/
def R.GATE.LANE_POLARITY_INVERTED : Fld := ⟨0x10, 0x044, 0, 16⟩
/-- LINK_CTRL.FULL_RETRAIN, bits 0..0 at 0x048 of the GATE page (R89). -/
def R.GATE.LINK_CTRL_FULL_RETRAIN : Fld := ⟨0x10, 0x048, 0, 1⟩
/-- LINK_CTRL.MAX_WIDTH, bits 2..1 at 0x048 of the GATE page (R89). -/
def R.GATE.LINK_CTRL_MAX_WIDTH : Fld := ⟨0x10, 0x048, 1, 2⟩
/-- LANE_FAIL_THRESH.THRESH, bits 15..0 at 0x04C of the GATE page (R89). -/
def R.GATE.LANE_FAIL_THRESH_THRESH : Fld := ⟨0x10, 0x04C, 0, 16⟩
/-- CREDIT_INIT.DATA_INIT, bits 15..0 at 0x050 of the GATE page (R89). -/
def R.GATE.CREDIT_INIT_DATA_INIT : Fld := ⟨0x10, 0x050, 0, 16⟩
/-- CREDIT_INIT.CTRL_INIT, bits 23..16 at 0x050 of the GATE page (R89). -/
def R.GATE.CREDIT_INIT_CTRL_INIT : Fld := ⟨0x10, 0x050, 16, 8⟩
/-- CREDIT_STATE.HELD_BREACH, bits 0..0 at 0x054 of the GATE page (R89). -/
def R.GATE.CREDIT_STATE_HELD_BREACH : Fld := ⟨0x10, 0x054, 0, 1⟩
/-- CREDIT_STATE.HELD_PWRFAIL, bits 1..1 at 0x054 of the GATE page (R89). -/
def R.GATE.CREDIT_STATE_HELD_PWRFAIL : Fld := ⟨0x10, 0x054, 1, 1⟩
/-- CREDIT_STATE.HELD_RETRAIN, bits 2..2 at 0x054 of the GATE page (R89). -/
def R.GATE.CREDIT_STATE_HELD_RETRAIN : Fld := ⟨0x10, 0x054, 2, 1⟩
/-- CREDIT_STATE.HELD_PERTURB, bits 3..3 at 0x054 of the GATE page (R89). -/
def R.GATE.CREDIT_STATE_HELD_PERTURB : Fld := ⟨0x10, 0x054, 3, 1⟩
/-- HB_PERIOD.PERIOD_US, bits 15..0 at 0x058 of the GATE page (R89). -/
def R.GATE.HB_PERIOD_PERIOD_US : Fld := ⟨0x10, 0x058, 0, 16⟩
/-- TUNNEL_CTRL.RIGHTS, bits 1..0 at 0x05C of the GATE page (R89). -/
def R.GATE.TUNNEL_CTRL_RIGHTS : Fld := ⟨0x10, 0x05C, 0, 2⟩
/-- TUNNEL_CTRL.TUNNEL_EN, bits 8..8 at 0x05C of the GATE page (R89). -/
def R.GATE.TUNNEL_CTRL_TUNNEL_EN : Fld := ⟨0x10, 0x05C, 8, 1⟩
/-- LINK_GRACE_MS.GRACE, bits 15..0 at 0x060 of the GATE page (R89). -/
def R.GATE.LINK_GRACE_MS_GRACE : Fld := ⟨0x10, 0x060, 0, 16⟩
/-- STREAM_OPEN.OPEN, bits 7..0 at 0x064 of the GATE page (R89). -/
def R.GATE.STREAM_OPEN_OPEN : Fld := ⟨0x10, 0x064, 0, 8⟩
/-- RTT_NS.RTT, bits 31..0 at 0x068 of the GATE page (R89). -/
def R.GATE.RTT_NS_RTT : Fld := ⟨0x10, 0x068, 0, 32⟩
/-- SHORT_COUNT.COUNT, bits 31..0 at 0x06C of the GATE page (R89). -/
def R.GATE.SHORT_COUNT_COUNT : Fld := ⟨0x10, 0x06C, 0, 32⟩
/-- LONG_COUNT.COUNT, bits 31..0 at 0x070 of the GATE page (R89). -/
def R.GATE.LONG_COUNT_COUNT : Fld := ⟨0x10, 0x070, 0, 32⟩
/-- REFUSED_COUNT.COUNT, bits 31..0 at 0x074 of the GATE page (R89). -/
def R.GATE.REFUSED_COUNT_COUNT : Fld := ⟨0x10, 0x074, 0, 32⟩
/-- CRC_FAIL.COUNT, bits 31..0 at 0x078 of the GATE page (R89). -/
def R.GATE.CRC_FAIL_COUNT : Fld := ⟨0x10, 0x078, 0, 32⟩
/-- FLITS_RX.COUNT, bits 63..0 at 0x080 of the GATE page (R89). -/
def R.GATE.FLITS_RX_COUNT : Fld := ⟨0x10, 0x080, 0, 64⟩
/-- FLITS_REPLAYED.COUNT, bits 63..0 at 0x088 of the GATE page (R89). -/
def R.GATE.FLITS_REPLAYED_COUNT : Fld := ⟨0x10, 0x088, 0, 64⟩
/-- FRAMES_RX.COUNT, bits 63..0 at 0x090 of the GATE page (R89). -/
def R.GATE.FRAMES_RX_COUNT : Fld := ⟨0x10, 0x090, 0, 64⟩
/-- PAYLOAD_RX.BYTES, bits 63..0 at 0x098 of the GATE page (R89). -/
def R.GATE.PAYLOAD_RX_BYTES : Fld := ⟨0x10, 0x098, 0, 64⟩
/-- FEC_CORRECTED.COUNT, bits 63..0 at 0x0A0 of the GATE page (R89). -/
def R.GATE.FEC_CORRECTED_COUNT : Fld := ⟨0x10, 0x0A0, 0, 64⟩
/-- TAKE_STATE.STATE, bits 2..0 at 0x040 of the TAKE page (R121). -/
def R.TAKE.TAKE_STATE_STATE : Fld := ⟨0x11, 0x040, 0, 3⟩
/-- TAKE_STATE.CLOSE_CAUSE, bits 15..8 at 0x040 of the TAKE page (R121). -/
def R.TAKE.TAKE_STATE_CLOSE_CAUSE : Fld := ⟨0x11, 0x040, 8, 8⟩
/-- HOLDUP.HOLDUP_MS, bits 15..0 at 0x044 of the TAKE page (R121). -/
def R.TAKE.HOLDUP_HOLDUP_MS : Fld := ⟨0x11, 0x044, 0, 16⟩
/-- LEE_RESERVE.GIB, bits 15..0 at 0x048 of the TAKE page (R121). -/
def R.TAKE.LEE_RESERVE_GIB : Fld := ⟨0x11, 0x048, 0, 16⟩
/-- SECURE_WINDOW.US, bits 15..0 at 0x04C of the TAKE page (R121). -/
def R.TAKE.SECURE_WINDOW_US : Fld := ⟨0x11, 0x04C, 0, 16⟩
/-- TAKE_ID.ID, bits 63..0 at 0x050 of the TAKE page (R121). -/
def R.TAKE.TAKE_ID_ID : Fld := ⟨0x11, 0x050, 0, 64⟩
/-- GRANT_RATE.MBPS, bits 31..0 at 0x058 of the TAKE page (R121). -/
def R.TAKE.GRANT_RATE_MBPS : Fld := ⟨0x11, 0x058, 0, 32⟩
/-- GRANT_DURATION.SECONDS, bits 31..0 at 0x05C of the TAKE page (R121). -/
def R.TAKE.GRANT_DURATION_SECONDS : Fld := ⟨0x11, 0x05C, 0, 32⟩
/-- UNSECURED_CAP.BYTES, bits 63..0 at 0x060 of the TAKE page (R121). -/
def R.TAKE.UNSECURED_CAP_BYTES : Fld := ⟨0x11, 0x060, 0, 64⟩
/-- UNSECURED.BYTES, bits 63..0 at 0x068 of the TAKE page (R121). -/
def R.TAKE.UNSECURED_BYTES : Fld := ⟨0x11, 0x068, 0, 64⟩
/-- SECURED_LEN.BYTES, bits 63..0 at 0x070 of the TAKE page (R121). -/
def R.TAKE.SECURED_LEN_BYTES : Fld := ⟨0x11, 0x070, 0, 64⟩
/-- RATIO_NOW.RATIO, bits 15..0 at 0x078 of the TAKE page (R121). -/
def R.TAKE.RATIO_NOW_RATIO : Fld := ⟨0x11, 0x078, 0, 16⟩
/-- LANES.MASK, bits 11..0 at 0x07C of the TAKE page (R121). -/
def R.TAKE.LANES_MASK : Fld := ⟨0x11, 0x07C, 0, 12⟩
/-- MEDIA_RATE.MBPS, bits 31..0 at 0x080 of the TAKE page (R121). -/
def R.TAKE.MEDIA_RATE_MBPS : Fld := ⟨0x11, 0x080, 0, 32⟩
/-- DIE_SHARE.PERMILLE, bits 9..0 at 0x084 of the TAKE page (R121). -/
def R.TAKE.DIE_SHARE_PERMILLE : Fld := ⟨0x11, 0x084, 0, 10⟩
/-- BREACH_COUNT.COUNT, bits 31..0 at 0x088 of the TAKE page (R121). -/
def R.TAKE.BREACH_COUNT_COUNT : Fld := ⟨0x11, 0x088, 0, 32⟩
/-- RECOMPUTE_COUNT.COUNT, bits 31..0 at 0x08C of the TAKE page (R121). -/
def R.TAKE.RECOMPUTE_COUNT_COUNT : Fld := ⟨0x11, 0x08C, 0, 32⟩
/-- FRAMES_SECURED.COUNT, bits 63..0 at 0x090 of the TAKE page (R121). -/
def R.TAKE.FRAMES_SECURED_COUNT : Fld := ⟨0x11, 0x090, 0, 64⟩
/-- POOL_BLOCKS.COUNT, bits 31..0 at 0x040 of the FALLOW page (R123). -/
def R.FALLOW.POOL_BLOCKS_COUNT : Fld := ⟨0x61, 0x040, 0, 32⟩
/-- POOL_USER.MB, bits 63..0 at 0x048 of the FALLOW page (R123). -/
def R.FALLOW.POOL_USER_MB : Fld := ⟨0x61, 0x048, 0, 64⟩
/-- RESERVED_USER.MB, bits 63..0 at 0x050 of the FALLOW page (R123). -/
def R.FALLOW.RESERVED_USER_MB : Fld := ⟨0x61, 0x050, 0, 64⟩
/-- LOW_WATER.GB, bits 31..0 at 0x058 of the FALLOW page (R123). -/
def R.FALLOW.LOW_WATER_GB : Fld := ⟨0x61, 0x058, 0, 32⟩
/-- TARGET.GB, bits 31..0 at 0x05C of the FALLOW page (R123). -/
def R.FALLOW.TARGET_GB : Fld := ⟨0x61, 0x05C, 0, 32⟩
/-- ERASE_PENDING.COUNT, bits 31..0 at 0x060 of the FALLOW page (R123). -/
def R.FALLOW.ERASE_PENDING_COUNT : Fld := ⟨0x61, 0x060, 0, 32⟩
/-- FILL_STATE.BELOW_LOW, bits 0..0 at 0x064 of the FALLOW page (R123). -/
def R.FALLOW.FILL_STATE_BELOW_LOW : Fld := ⟨0x61, 0x064, 0, 1⟩
/-- FILL_STATE.AT_TARGET, bits 1..1 at 0x064 of the FALLOW page (R123). -/
def R.FALLOW.FILL_STATE_AT_TARGET : Fld := ⟨0x61, 0x064, 1, 1⟩
/-- FILL_STATE.FILLING, bits 2..2 at 0x064 of the FALLOW page (R123). -/
def R.FALLOW.FILL_STATE_FILLING : Fld := ⟨0x61, 0x064, 2, 1⟩
/-- FRAMES.COUNT, bits 63..0 at 0x040 of the SUMM page (R150). -/
def R.SUMM.FRAMES_COUNT : Fld := ⟨0x12, 0x040, 0, 64⟩
/-- GEOMETRY_COUNT.COUNT, bits 31..0 at 0x048 of the SUMM page (R150). -/
def R.SUMM.GEOMETRY_COUNT_COUNT : Fld := ⟨0x12, 0x048, 0, 32⟩
/-- LAST_FRAME.NUMBER, bits 63..0 at 0x050 of the SUMM page (R150). -/
def R.SUMM.LAST_FRAME_NUMBER : Fld := ⟨0x12, 0x050, 0, 64⟩
/-- LAST_STREAM.STREAM, bits 2..0 at 0x058 of the SUMM page (R150). -/
def R.SUMM.LAST_STREAM_STREAM : Fld := ⟨0x12, 0x058, 0, 3⟩
/-- LAST_KEY.WORD, bits 31..0 at 0x060 + 4 * j of the SUMM page (R150). -/
def R.SUMM.LAST_KEY_WORD (j : Nat) : Fld := ⟨0x12, 0x060 + 4 * j, 0, 32⟩
/-- KEYSEL.SRC, bits 7..0 at 0x100 + 0x20 * n + 4 * j of the SUMM page (R150). -/
def R.SUMM.KEYSEL_SRC (n : Nat) (j : Nat) : Fld := ⟨0x12, 0x100 + 0x20 * n + 4 * j, 0, 8⟩
/-- KEYSEL.INDEX, bits 19..8 at 0x100 + 0x20 * n + 4 * j of the SUMM page (R150). -/
def R.SUMM.KEYSEL_INDEX (n : Nat) (j : Nat) : Fld := ⟨0x12, 0x100 + 0x20 * n + 4 * j, 8, 12⟩
/-- KEYSEL.SHIFT, bits 25..20 at 0x100 + 0x20 * n + 4 * j of the SUMM page (R150). -/
def R.SUMM.KEYSEL_SHIFT (n : Nat) (j : Nat) : Fld := ⟨0x12, 0x100 + 0x20 * n + 4 * j, 20, 6⟩
/-- TRIG_CTRL.PIN_EN, bits 2..0 at 0x040 of the TRIG page (R151). -/
def R.TRIG.TRIG_CTRL_PIN_EN : Fld := ⟨0x13, 0x040, 0, 3⟩
/-- TRIG_CTRL.GATE_EN, bits 3..3 at 0x040 of the TRIG page (R151). -/
def R.TRIG.TRIG_CTRL_GATE_EN : Fld := ⟨0x13, 0x040, 3, 1⟩
/-- TRIG_CTRL.RULE_EN, bits 4..4 at 0x040 of the TRIG page (R151). -/
def R.TRIG.TRIG_CTRL_RULE_EN : Fld := ⟨0x13, 0x040, 4, 1⟩
/-- TRIG_CTRL.SW_EN, bits 5..5 at 0x040 of the TRIG page (R151). -/
def R.TRIG.TRIG_CTRL_SW_EN : Fld := ⟨0x13, 0x040, 5, 1⟩
/-- PIN_EDGE.EDGE, bits 5..0 at 0x044 of the TRIG page (R151). -/
def R.TRIG.PIN_EDGE_EDGE : Fld := ⟨0x13, 0x044, 0, 6⟩
/-- PIN_HOLDOFF.US, bits 15..0 at 0x048 of the TRIG page (R151). -/
def R.TRIG.PIN_HOLDOFF_US : Fld := ⟨0x13, 0x048, 0, 16⟩
/-- DEFAULT_PRE.MS, bits 31..0 at 0x04C of the TRIG page (R151). -/
def R.TRIG.DEFAULT_PRE_MS : Fld := ⟨0x13, 0x04C, 0, 32⟩
/-- DEFAULT_POST.MS, bits 31..0 at 0x050 of the TRIG page (R151). -/
def R.TRIG.DEFAULT_POST_MS : Fld := ⟨0x13, 0x050, 0, 32⟩
/-- HW_RESERVE.SLOTS, bits 5..0 at 0x054 of the TRIG page (R151). -/
def R.TRIG.HW_RESERVE_SLOTS : Fld := ⟨0x13, 0x054, 0, 6⟩
/-- RULE_CFG.TABLE, bits 4..0 at 0x058 of the TRIG page (R151). -/
def R.TRIG.RULE_CFG_TABLE : Fld := ⟨0x13, 0x058, 0, 5⟩
/-- RULE_CFG.MIN_CLASS, bits 11..8 at 0x058 of the TRIG page (R151). -/
def R.TRIG.RULE_CFG_MIN_CLASS : Fld := ⟨0x13, 0x058, 8, 4⟩
/-- RULE_CFG.CHECKED, bits 12..12 at 0x058 of the TRIG page (R151). -/
def R.TRIG.RULE_CFG_CHECKED : Fld := ⟨0x13, 0x058, 12, 1⟩
/-- SETTLE.MS, bits 15..0 at 0x05C of the TRIG page (R151). -/
def R.TRIG.SETTLE_MS : Fld := ⟨0x13, 0x05C, 0, 16⟩
/-- SW_TIME.DTIME, bits 63..0 at 0x060 of the TRIG page (R151). -/
def R.TRIG.SW_TIME_DTIME : Fld := ⟨0x13, 0x060, 0, 64⟩
/-- SW_PRE_MS.MS, bits 31..0 at 0x068 of the TRIG page (R151). -/
def R.TRIG.SW_PRE_MS_MS : Fld := ⟨0x13, 0x068, 0, 32⟩
/-- SW_POST_MS.MS, bits 31..0 at 0x06C of the TRIG page (R151). -/
def R.TRIG.SW_POST_MS_MS : Fld := ⟨0x13, 0x06C, 0, 32⟩
/-- SW_FIRE.TAG, bits 15..0 at 0x070 of the TRIG page (R151). -/
def R.TRIG.SW_FIRE_TAG : Fld := ⟨0x13, 0x070, 0, 16⟩
/-- SW_FIRE.FIRE, bits 31..31 at 0x070 of the TRIG page (R151). -/
def R.TRIG.SW_FIRE_FIRE : Fld := ⟨0x13, 0x070, 31, 1⟩
/-- WINDOWS.USED, bits 6..0 at 0x074 of the TRIG page (R151). -/
def R.TRIG.WINDOWS_USED : Fld := ⟨0x13, 0x074, 0, 7⟩
/-- ACCEPTED_COUNT.COUNT, bits 31..0 at 0x078 of the TRIG page (R151). -/
def R.TRIG.ACCEPTED_COUNT_COUNT : Fld := ⟨0x13, 0x078, 0, 32⟩
/-- MERGED_COUNT.COUNT, bits 31..0 at 0x07C of the TRIG page (R151). -/
def R.TRIG.MERGED_COUNT_COUNT : Fld := ⟨0x13, 0x07C, 0, 32⟩
/-- REFUSED_COUNT.COUNT, bits 31..0 at 0x080 of the TRIG page (R151). -/
def R.TRIG.REFUSED_COUNT_COUNT : Fld := ⟨0x13, 0x080, 0, 32⟩
/-- KEPT_COUNT.COUNT, bits 31..0 at 0x084 of the TRIG page (R151). -/
def R.TRIG.KEPT_COUNT_COUNT : Fld := ⟨0x13, 0x084, 0, 32⟩
/-- WIN_SEL.SLOT, bits 5..0 at 0x088 of the TRIG page (R151). -/
def R.TRIG.WIN_SEL_SLOT : Fld := ⟨0x13, 0x088, 0, 6⟩
/-- WIN_STATE.STATE, bits 2..0 at 0x08C of the TRIG page (R151). -/
def R.TRIG.WIN_STATE_STATE : Fld := ⟨0x13, 0x08C, 0, 3⟩
/-- WIN_STATE.SOURCE, bits 6..3 at 0x08C of the TRIG page (R151). -/
def R.TRIG.WIN_STATE_SOURCE : Fld := ⟨0x13, 0x08C, 3, 4⟩
/-- WIN_STATE.PRE_SHORT, bits 7..7 at 0x08C of the TRIG page (R151). -/
def R.TRIG.WIN_STATE_PRE_SHORT : Fld := ⟨0x13, 0x08C, 7, 1⟩
/-- WIN_STATE.CUT, bits 8..8 at 0x08C of the TRIG page (R151). -/
def R.TRIG.WIN_STATE_CUT : Fld := ⟨0x13, 0x08C, 8, 1⟩
/-- WIN_STATE.LATE, bits 9..9 at 0x08C of the TRIG page (R151). -/
def R.TRIG.WIN_STATE_LATE : Fld := ⟨0x13, 0x08C, 9, 1⟩
/-- WIN_STATE.TRIGGERS, bits 31..16 at 0x08C of the TRIG page (R151). -/
def R.TRIG.WIN_STATE_TRIGGERS : Fld := ⟨0x13, 0x08C, 16, 16⟩
/-- WIN_START.DTIME, bits 63..0 at 0x090 of the TRIG page (R151). -/
def R.TRIG.WIN_START_DTIME : Fld := ⟨0x13, 0x090, 0, 64⟩
/-- WIN_END.DTIME, bits 63..0 at 0x098 of the TRIG page (R151). -/
def R.TRIG.WIN_END_DTIME : Fld := ⟨0x13, 0x098, 0, 64⟩
/-- WIN_KEPT_ID.TAKE_ID, bits 63..0 at 0x0A0 of the TRIG page (R151). -/
def R.TRIG.WIN_KEPT_ID_TAKE_ID : Fld := ⟨0x13, 0x0A0, 0, 64⟩
/-- WIN_FRAMES.COUNT, bits 31..0 at 0x0A8 of the TRIG page (R151). -/
def R.TRIG.WIN_FRAMES_COUNT : Fld := ⟨0x13, 0x0A8, 0, 32⟩
/-- LANE_STATUS.USE, bits 1..0 at 0x040 of the LANE page (R182). -/
def R.LANE.LANE_STATUS_USE (p : Nat)  : Fld := ⟨0x18 + p, 0x040, 0, 2⟩
/-- LANE_STATUS.RESERVED, bits 2..2 at 0x040 of the LANE page (R182). -/
def R.LANE.LANE_STATUS_RESERVED (p : Nat)  : Fld := ⟨0x18 + p, 0x040, 2, 1⟩
/-- LANE_STATUS.RETIRED, bits 3..3 at 0x040 of the LANE page (R182). -/
def R.LANE.LANE_STATUS_RETIRED (p : Nat)  : Fld := ⟨0x18 + p, 0x040, 3, 1⟩
/-- LANE_STATUS.FUNC, bits 16..8 at 0x040 of the LANE page (R182). -/
def R.LANE.LANE_STATUS_FUNC (p : Nat)  : Fld := ⟨0x18 + p, 0x040, 8, 9⟩
/-- LANE_CTRL.RETIRE, bits 0..0 at 0x044 of the LANE page (R182). -/
def R.LANE.LANE_CTRL_RETIRE (p : Nat)  : Fld := ⟨0x18 + p, 0x044, 0, 1⟩
/-- MISMATCH_COUNT.COUNT, bits 31..0 at 0x048 of the LANE page (R182). -/
def R.LANE.MISMATCH_COUNT_COUNT (p : Nat)  : Fld := ⟨0x18 + p, 0x048, 0, 32⟩
/-- REEMIT_COUNT.COUNT, bits 31..0 at 0x04C of the LANE page (R182). -/
def R.LANE.REEMIT_COUNT_COUNT (p : Nat)  : Fld := ⟨0x18 + p, 0x04C, 0, 32⟩
/-- BYTES_IN.BYTES, bits 63..0 at 0x050 of the LANE page (R182). -/
def R.LANE.BYTES_IN_BYTES (p : Nat)  : Fld := ⟨0x18 + p, 0x050, 0, 64⟩
/-- BYTES_OUT.BYTES, bits 63..0 at 0x058 of the LANE page (R182). -/
def R.LANE.BYTES_OUT_BYTES (p : Nat)  : Fld := ⟨0x18 + p, 0x058, 0, 64⟩
/-- BLOCKS_OUT.COUNT, bits 63..0 at 0x060 of the LANE page (R182). -/
def R.LANE.BLOCKS_OUT_COUNT (p : Nat)  : Fld := ⟨0x18 + p, 0x060, 0, 64⟩
/-- JOBS_DONE.COUNT, bits 31..0 at 0x068 of the LANE page (R182). -/
def R.LANE.JOBS_DONE_COUNT (p : Nat)  : Fld := ⟨0x18 + p, 0x068, 0, 32⟩
/-- JOBS_FAILED.COUNT, bits 31..0 at 0x06C of the LANE page (R182). -/
def R.LANE.JOBS_FAILED_COUNT (p : Nat)  : Fld := ⟨0x18 + p, 0x06C, 0, 32⟩
/-- LAST_MISMATCH.BLOCK, bits 15..0 at 0x070 of the LANE page (R182). -/
def R.LANE.LAST_MISMATCH_BLOCK (p : Nat)  : Fld := ⟨0x18 + p, 0x070, 0, 16⟩
/-- LANES_LIVE.MASK, bits 11..0 at 0x040 of the SHEARS page (R183). -/
def R.SHEARS.LANES_LIVE_MASK : Fld := ⟨0x24, 0x040, 0, 12⟩
/-- LANES_RESERVED.MASK, bits 11..0 at 0x044 of the SHEARS page (R183). -/
def R.SHEARS.LANES_RESERVED_MASK : Fld := ⟨0x24, 0x044, 0, 12⟩
/-- RETIRE_LIMIT.MISMATCHES, bits 3..0 at 0x048 of the SHEARS page (R183). -/
def R.SHEARS.RETIRE_LIMIT_MISMATCHES : Fld := ⟨0x24, 0x048, 0, 4⟩
/-- TAKE_CHAIN.SIZE_MIB, bits 15..0 at 0x04C of the SHEARS page (R183). -/
def R.SHEARS.TAKE_CHAIN_SIZE_MIB : Fld := ⟨0x24, 0x04C, 0, 16⟩
/-- TAKE_CHAIN.IN_USE_MIB, bits 31..16 at 0x04C of the SHEARS page (R183). -/
def R.SHEARS.TAKE_CHAIN_IN_USE_MIB : Fld := ⟨0x24, 0x04C, 16, 16⟩
/-- PENDING.JOBS, bits 10..0 at 0x050 of the SHEARS page (R183). -/
def R.SHEARS.PENDING_JOBS : Fld := ⟨0x24, 0x050, 0, 11⟩
/-- OUT_OF_SPACE_COUNT.COUNT, bits 31..0 at 0x054 of the SHEARS page (R183). -/
def R.SHEARS.OUT_OF_SPACE_COUNT_COUNT : Fld := ⟨0x24, 0x054, 0, 32⟩
/-- VERIFY_MISMATCHES.COUNT, bits 63..0 at 0x058 of the SHEARS page (R183). -/
def R.SHEARS.VERIFY_MISMATCHES_COUNT : Fld := ⟨0x24, 0x058, 0, 64⟩
/-- REEMISSIONS.COUNT, bits 63..0 at 0x060 of the SHEARS page (R183). -/
def R.SHEARS.REEMISSIONS_COUNT : Fld := ⟨0x24, 0x060, 0, 64⟩
/-- LOST_SLICES.COUNT, bits 31..0 at 0x068 of the SHEARS page (R183). -/
def R.SHEARS.LOST_SLICES_COUNT : Fld := ⟨0x24, 0x068, 0, 32⟩
/-- CH_STATUS.STATE, bits 2..0 at 0x040 of the NAND page (R204). -/
def R.NAND.CH_STATUS_STATE (p : Nat)  : Fld := ⟨0x80 + p, 0x040, 0, 3⟩
/-- CH_STATUS.PWR_EN, bits 3..3 at 0x040 of the NAND page (R204). -/
def R.NAND.CH_STATUS_PWR_EN (p : Nat)  : Fld := ⟨0x80 + p, 0x040, 3, 1⟩
/-- CH_STATUS.PWR_FLT, bits 4..4 at 0x040 of the NAND page (R204). -/
def R.NAND.CH_STATUS_PWR_FLT (p : Nat)  : Fld := ⟨0x80 + p, 0x040, 4, 1⟩
/-- CH_STATUS.DIES, bits 12..8 at 0x040 of the NAND page (R204). -/
def R.NAND.CH_STATUS_DIES (p : Nat)  : Fld := ⟨0x80 + p, 0x040, 8, 5⟩
/-- CH_STATUS.CODE, bits 17..16 at 0x040 of the NAND page (R204). -/
def R.NAND.CH_STATUS_CODE (p : Nat)  : Fld := ⟨0x80 + p, 0x040, 16, 2⟩
/-- DIE_PRESENT.PRESENT, bits 15..0 at 0x044 of the NAND page (R204). -/
def R.NAND.DIE_PRESENT_PRESENT (p : Nat)  : Fld := ⟨0x80 + p, 0x044, 0, 16⟩
/-- DIE_PRESENT.FAILED, bits 31..16 at 0x044 of the NAND page (R204). -/
def R.NAND.DIE_PRESENT_FAILED (p : Nat)  : Fld := ⟨0x80 + p, 0x044, 16, 16⟩
/-- SWIZZLE.MAP, bits 23..0 at 0x048 of the NAND page (R204). -/
def R.NAND.SWIZZLE_MAP (p : Nat)  : Fld := ⟨0x80 + p, 0x048, 0, 24⟩
/-- SWIZZLE.LEARNED, bits 24..24 at 0x048 of the NAND page (R204). -/
def R.NAND.SWIZZLE_LEARNED (p : Nat)  : Fld := ⟨0x80 + p, 0x048, 24, 1⟩
/-- POLARITY.DQS_SWAP, bits 0..0 at 0x04C of the NAND page (R204). -/
def R.NAND.POLARITY_DQS_SWAP (p : Nat)  : Fld := ⟨0x80 + p, 0x04C, 0, 1⟩
/-- POLARITY.RE_SWAP, bits 1..1 at 0x04C of the NAND page (R204). -/
def R.NAND.POLARITY_RE_SWAP (p : Nat)  : Fld := ⟨0x80 + p, 0x04C, 1, 1⟩
/-- TIMING.RATE_MTS, bits 11..0 at 0x050 of the NAND page (R204). -/
def R.NAND.TIMING_RATE_MTS (p : Nat)  : Fld := ⟨0x80 + p, 0x050, 0, 12⟩
/-- TIMING.MAX_RATE, bits 18..16 at 0x050 of the NAND page (R204). -/
def R.NAND.TIMING_MAX_RATE (p : Nat)  : Fld := ⟨0x80 + p, 0x050, 16, 3⟩
/-- TRAIN_CTRL.RETRAIN, bits 0..0 at 0x054 of the NAND page (R204). -/
def R.NAND.TRAIN_CTRL_RETRAIN (p : Nat)  : Fld := ⟨0x80 + p, 0x054, 0, 1⟩
/-- RETRY_CFG.STEPS, bits 3..0 at 0x058 of the NAND page (R204). -/
def R.NAND.RETRY_CFG_STEPS (p : Nat)  : Fld := ⟨0x80 + p, 0x058, 0, 4⟩
/-- RETRY_CFG.FEATURE_ADDR, bits 15..8 at 0x058 of the NAND page (R204). -/
def R.NAND.RETRY_CFG_FEATURE_ADDR (p : Nat)  : Fld := ⟨0x80 + p, 0x058, 8, 8⟩
/-- HARD_CAP.BITS, bits 15..0 at 0x05C of the NAND page (R204). -/
def R.NAND.HARD_CAP_BITS (p : Nat)  : Fld := ⟨0x80 + p, 0x05C, 0, 16⟩
/-- HARD_CAP.HALF, bits 31..16 at 0x05C of the NAND page (R204). -/
def R.NAND.HARD_CAP_HALF (p : Nat)  : Fld := ⟨0x80 + p, 0x05C, 16, 16⟩
/-- RETRY_TABLE.PARAM, bits 31..0 at 0x060 + 4 * i of the NAND page (R204). -/
def R.NAND.RETRY_TABLE_PARAM (p : Nat) (i : Nat) : Fld := ⟨0x80 + p, 0x060 + 4 * i, 0, 32⟩
/-- PWR_CTRL.FORCE_OFF, bits 0..0 at 0x0A8 of the NAND page (R204). -/
def R.NAND.PWR_CTRL_FORCE_OFF (p : Nat)  : Fld := ⟨0x80 + p, 0x0A8, 0, 1⟩
/-- ZQ_PERIOD.MS, bits 15..0 at 0x0AC of the NAND page (R204). -/
def R.NAND.ZQ_PERIOD_MS (p : Nat)  : Fld := ⟨0x80 + p, 0x0AC, 0, 16⟩
/-- CODEWORDS.COUNT, bits 63..0 at 0x0B0 of the NAND page (R204). -/
def R.NAND.CODEWORDS_COUNT (p : Nat)  : Fld := ⟨0x80 + p, 0x0B0, 0, 64⟩
/-- BITS_CORRECTED.COUNT, bits 63..0 at 0x0B8 of the NAND page (R204). -/
def R.NAND.BITS_CORRECTED_COUNT (p : Nat)  : Fld := ⟨0x80 + p, 0x0B8, 0, 64⟩
/-- OVER_HALF.COUNT, bits 31..0 at 0x0C0 of the NAND page (R204). -/
def R.NAND.OVER_HALF_COUNT (p : Nat)  : Fld := ⟨0x80 + p, 0x0C0, 0, 32⟩
/-- RETRY_READS.COUNT, bits 31..0 at 0x0C4 of the NAND page (R204). -/
def R.NAND.RETRY_READS_COUNT (p : Nat)  : Fld := ⟨0x80 + p, 0x0C4, 0, 32⟩
/-- SOFT_DECODES.COUNT, bits 31..0 at 0x0C8 of the NAND page (R204). -/
def R.NAND.SOFT_DECODES_COUNT (p : Nat)  : Fld := ⟨0x80 + p, 0x0C8, 0, 32⟩
/-- UNCORRECTABLE.COUNT, bits 31..0 at 0x0CC of the NAND page (R204). -/
def R.NAND.UNCORRECTABLE_COUNT (p : Nat)  : Fld := ⟨0x80 + p, 0x0CC, 0, 32⟩
/-- PROGRAM_FAILS.COUNT, bits 31..0 at 0x0D0 of the NAND page (R204). -/
def R.NAND.PROGRAM_FAILS_COUNT (p : Nat)  : Fld := ⟨0x80 + p, 0x0D0, 0, 32⟩
/-- ERASE_FAILS.COUNT, bits 31..0 at 0x0D4 of the NAND page (R204). -/
def R.NAND.ERASE_FAILS_COUNT (p : Nat)  : Fld := ⟨0x80 + p, 0x0D4, 0, 32⟩
/-- DIE_TIMEOUTS.COUNT, bits 31..0 at 0x0D8 of the NAND page (R204). -/
def R.NAND.DIE_TIMEOUTS_COUNT (p : Nat)  : Fld := ⟨0x80 + p, 0x0D8, 0, 32⟩
/-- LAST_UNC.DIE, bits 3..0 at 0x0DC of the NAND page (R204). -/
def R.NAND.LAST_UNC_DIE (p : Nat)  : Fld := ⟨0x80 + p, 0x0DC, 0, 4⟩
/-- LAST_UNC.ROW, bits 27..4 at 0x0DC of the NAND page (R204). -/
def R.NAND.LAST_UNC_ROW (p : Nat)  : Fld := ⟨0x80 + p, 0x0DC, 4, 24⟩
/-- LAST_UNC.CODEWORD, bits 29..28 at 0x0DC of the NAND page (R204). -/
def R.NAND.LAST_UNC_CODEWORD (p : Nat)  : Fld := ⟨0x80 + p, 0x0DC, 28, 2⟩
/-- MEDIA_STATUS.COMPAT, bits 0..0 at 0x040 of the MEDIA page (R254). -/
def R.MEDIA.MEDIA_STATUS_COMPAT : Fld := ⟨0x60, 0x040, 0, 1⟩
/-- MEDIA_STATUS.READ_ONLY, bits 1..1 at 0x040 of the MEDIA page (R254). -/
def R.MEDIA.MEDIA_STATUS_READ_ONLY : Fld := ⟨0x60, 0x040, 1, 1⟩
/-- MEDIA_STATUS.REPLAYED, bits 2..2 at 0x040 of the MEDIA page (R254). -/
def R.MEDIA.MEDIA_STATUS_REPLAYED : Fld := ⟨0x60, 0x040, 2, 1⟩
/-- MEDIA_STATUS.CKPT_FALLBACK, bits 3..3 at 0x040 of the MEDIA page (R254). -/
def R.MEDIA.MEDIA_STATUS_CKPT_FALLBACK : Fld := ⟨0x60, 0x040, 3, 1⟩
/-- MEDIA_STATUS.MAP_PAGED, bits 4..4 at 0x040 of the MEDIA page (R254). -/
def R.MEDIA.MEDIA_STATUS_MAP_PAGED : Fld := ⟨0x60, 0x040, 4, 1⟩
/-- MEDIA_STATUS.GC_GREEDY, bits 5..5 at 0x040 of the MEDIA page (R254). -/
def R.MEDIA.MEDIA_STATUS_GC_GREEDY : Fld := ⟨0x60, 0x040, 5, 1⟩
/-- MEDIA_STATUS.CKPT_BUSY, bits 6..6 at 0x040 of the MEDIA page (R254). -/
def R.MEDIA.MEDIA_STATUS_CKPT_BUSY : Fld := ⟨0x60, 0x040, 6, 1⟩
/-- MEDIA_STATUS.SAFE_CAUSE, bits 11..8 at 0x040 of the MEDIA page (R254). -/
def R.MEDIA.MEDIA_STATUS_SAFE_CAUSE : Fld := ⟨0x60, 0x040, 8, 4⟩
/-- CTRL.CKPT_NOW, bits 0..0 at 0x044 of the MEDIA page (R254). -/
def R.MEDIA.CTRL_CKPT_NOW : Fld := ⟨0x60, 0x044, 0, 1⟩
/-- USER_CAP.MB, bits 63..0 at 0x048 of the MEDIA page (R254). -/
def R.MEDIA.USER_CAP_MB : Fld := ⟨0x60, 0x048, 0, 64⟩
/-- MAXCAP.MB, bits 63..0 at 0x050 of the MEDIA page (R254). -/
def R.MEDIA.MAXCAP_MB : Fld := ⟨0x60, 0x050, 0, 64⟩
/-- ALLOCATED.MB, bits 63..0 at 0x058 of the MEDIA page (R254). -/
def R.MEDIA.ALLOCATED_MB : Fld := ⟨0x60, 0x058, 0, 64⟩
/-- VALID.MB, bits 63..0 at 0x060 of the MEDIA page (R254). -/
def R.MEDIA.VALID_MB : Fld := ⟨0x60, 0x060, 0, 64⟩
/-- SPARE_TOTAL.GB, bits 63..0 at 0x068 of the MEDIA page (R254). -/
def R.MEDIA.SPARE_TOTAL_GB : Fld := ⟨0x60, 0x068, 0, 64⟩
/-- SPARE_USED.GB, bits 63..0 at 0x070 of the MEDIA page (R254). -/
def R.MEDIA.SPARE_USED_GB : Fld := ⟨0x60, 0x070, 0, 64⟩
/-- SPARE_LOW.GB, bits 31..0 at 0x078 of the MEDIA page (R254). -/
def R.MEDIA.SPARE_LOW_GB : Fld := ⟨0x60, 0x078, 0, 32⟩
/-- BLOCK_NS_LIMIT.GB, bits 31..0 at 0x07C of the MEDIA page (R254). -/
def R.MEDIA.BLOCK_NS_LIMIT_GB : Fld := ⟨0x60, 0x07C, 0, 32⟩
/-- SLC_SIZE.GB, bits 31..0 at 0x080 of the MEDIA page (R254). -/
def R.MEDIA.SLC_SIZE_GB : Fld := ⟨0x60, 0x080, 0, 32⟩
/-- SLC_USED.GB, bits 31..0 at 0x084 of the MEDIA page (R254). -/
def R.MEDIA.SLC_USED_GB : Fld := ⟨0x60, 0x084, 0, 32⟩
/-- PE_MAX.CYCLES, bits 16..0 at 0x088 of the MEDIA page (R254). -/
def R.MEDIA.PE_MAX_CYCLES : Fld := ⟨0x60, 0x088, 0, 17⟩
/-- PE_STATS.PE_HIGH, bits 15..0 at 0x08C of the MEDIA page (R254). -/
def R.MEDIA.PE_STATS_PE_HIGH : Fld := ⟨0x60, 0x08C, 0, 16⟩
/-- PE_STATS.PE_LOW, bits 31..16 at 0x08C of the MEDIA page (R254). -/
def R.MEDIA.PE_STATS_PE_LOW : Fld := ⟨0x60, 0x08C, 16, 16⟩
/-- WEAR_SPREAD.CYCLES, bits 15..0 at 0x090 of the MEDIA page (R254). -/
def R.MEDIA.WEAR_SPREAD_CYCLES : Fld := ⟨0x60, 0x090, 0, 16⟩
/-- PATROL.DAYS, bits 7..0 at 0x094 of the MEDIA page (R254). -/
def R.MEDIA.PATROL_DAYS : Fld := ⟨0x60, 0x094, 0, 8⟩
/-- CKPT_PERIOD.S, bits 15..0 at 0x098 of the MEDIA page (R254). -/
def R.MEDIA.CKPT_PERIOD_S : Fld := ⟨0x60, 0x098, 0, 16⟩
/-- REFRESH_PENDING.GROUPS, bits 12..0 at 0x09C of the MEDIA page (R254). -/
def R.MEDIA.REFRESH_PENDING_GROUPS : Fld := ⟨0x60, 0x09C, 0, 13⟩
/-- SEQ_NEXT.SEQ, bits 63..0 at 0x0A0 of the MEDIA page (R254). -/
def R.MEDIA.SEQ_NEXT_SEQ : Fld := ⟨0x60, 0x0A0, 0, 64⟩
/-- CKPT_SEQ.SEQ, bits 63..0 at 0x0A8 of the MEDIA page (R254). -/
def R.MEDIA.CKPT_SEQ_SEQ : Fld := ⟨0x60, 0x0A8, 0, 64⟩
/-- REPLAY_UNITS.COUNT, bits 31..0 at 0x0B0 of the MEDIA page (R254). -/
def R.MEDIA.REPLAY_UNITS_COUNT : Fld := ⟨0x60, 0x0B0, 0, 32⟩
/-- RETIRED_BLOCKS.COUNT, bits 31..0 at 0x0B4 of the MEDIA page (R254). -/
def R.MEDIA.RETIRED_BLOCKS_COUNT : Fld := ⟨0x60, 0x0B4, 0, 32⟩
/-- CONVERSIONS.COUNT, bits 31..0 at 0x0B8 of the MEDIA page (R254). -/
def R.MEDIA.CONVERSIONS_COUNT : Fld := ⟨0x60, 0x0B8, 0, 32⟩
/-- REFRESHED.COUNT, bits 31..0 at 0x0BC of the MEDIA page (R254). -/
def R.MEDIA.REFRESHED_COUNT : Fld := ⟨0x60, 0x0BC, 0, 32⟩
/-- GC_VICTIMS.COUNT, bits 63..0 at 0x0C0 of the MEDIA page (R254). -/
def R.MEDIA.GC_VICTIMS_COUNT : Fld := ⟨0x60, 0x0C0, 0, 64⟩
/-- GC_COPIED.MB, bits 63..0 at 0x0C8 of the MEDIA page (R254). -/
def R.MEDIA.GC_COPIED_MB : Fld := ⟨0x60, 0x0C8, 0, 64⟩
/-- HOST_WRITTEN.MB, bits 63..0 at 0x0D0 of the MEDIA page (R254). -/
def R.MEDIA.HOST_WRITTEN_MB : Fld := ⟨0x60, 0x0D0, 0, 64⟩
/-- NAND_WRITTEN.MB, bits 63..0 at 0x0D8 of the MEDIA page (R254). -/
def R.MEDIA.NAND_WRITTEN_MB : Fld := ⟨0x60, 0x0D8, 0, 64⟩
/-- ARRAY_STATUS.STATE, bits 2..0 at 0x040 of the ARRAY page (R290). -/
def R.ARRAY.ARRAY_STATUS_STATE : Fld := ⟨0x62, 0x040, 0, 3⟩
/-- ARRAY_STATUS.REBUILDING, bits 3..3 at 0x040 of the ARRAY page (R290). -/
def R.ARRAY.ARRAY_STATUS_REBUILDING : Fld := ⟨0x62, 0x040, 3, 1⟩
/-- ARRAY_STATUS.RESYNCING, bits 4..4 at 0x040 of the ARRAY page (R290). -/
def R.ARRAY.ARRAY_STATUS_RESYNCING : Fld := ⟨0x62, 0x040, 4, 1⟩
/-- ARRAY_STATUS.RESYNC_CASE, bits 6..5 at 0x040 of the ARRAY page (R290). -/
def R.ARRAY.ARRAY_STATUS_RESYNC_CASE : Fld := ⟨0x62, 0x040, 5, 2⟩
/-- ARRAY_STATUS.RESHAPING, bits 7..7 at 0x040 of the ARRAY page (R290). -/
def R.ARRAY.ARRAY_STATUS_RESHAPING : Fld := ⟨0x62, 0x040, 7, 1⟩
/-- ARRAY_STATUS.RESHAPE_PAUSED, bits 8..8 at 0x040 of the ARRAY page (R290). -/
def R.ARRAY.ARRAY_STATUS_RESHAPE_PAUSED : Fld := ⟨0x62, 0x040, 8, 1⟩
/-- ARRAY_STATUS.OFFLINE_CAUSE, bits 10..9 at 0x040 of the ARRAY page (R290). -/
def R.ARRAY.ARRAY_STATUS_OFFLINE_CAUSE : Fld := ⟨0x62, 0x040, 9, 2⟩
/-- LAYOUT.K, bits 1..0 at 0x044 of the ARRAY page (R290). -/
def R.ARRAY.LAYOUT_K : Fld := ⟨0x62, 0x044, 0, 2⟩
/-- LAYOUT.OLD_K, bits 3..2 at 0x044 of the ARRAY page (R290). -/
def R.ARRAY.LAYOUT_OLD_K : Fld := ⟨0x62, 0x044, 2, 2⟩
/-- LAYOUT.GENERATION, bits 23..16 at 0x044 of the ARRAY page (R290). -/
def R.ARRAY.LAYOUT_GENERATION : Fld := ⟨0x62, 0x044, 16, 8⟩
/-- RESHAPE_CTRL.TARGET_K, bits 1..0 at 0x048 of the ARRAY page (R290). -/
def R.ARRAY.RESHAPE_CTRL_TARGET_K : Fld := ⟨0x62, 0x048, 0, 2⟩
/-- RESHAPE_CTRL.START, bits 2..2 at 0x048 of the ARRAY page (R290). -/
def R.ARRAY.RESHAPE_CTRL_START : Fld := ⟨0x62, 0x048, 2, 1⟩
/-- RETIRE_CTRL.DIE, bits 8..0 at 0x04C of the ARRAY page (R290). -/
def R.ARRAY.RETIRE_CTRL_DIE : Fld := ⟨0x62, 0x04C, 0, 9⟩
/-- RETIRE_CTRL.RETIRE, bits 9..9 at 0x04C of the ARRAY page (R290). -/
def R.ARRAY.RETIRE_CTRL_RETIRE : Fld := ⟨0x62, 0x04C, 9, 1⟩
/-- RESHAPE_POS.UNITS, bits 63..0 at 0x050 of the ARRAY page (R290). -/
def R.ARRAY.RESHAPE_POS_UNITS : Fld := ⟨0x62, 0x050, 0, 64⟩
/-- RESHAPE_TOTAL.UNITS, bits 63..0 at 0x058 of the ARRAY page (R290). -/
def R.ARRAY.RESHAPE_TOTAL_UNITS : Fld := ⟨0x62, 0x058, 0, 64⟩
/-- DEGRADED_STRIPES.COUNT, bits 63..0 at 0x060 of the ARRAY page (R290). -/
def R.ARRAY.DEGRADED_STRIPES_COUNT : Fld := ⟨0x62, 0x060, 0, 64⟩
/-- CRITICAL_STRIPES.COUNT, bits 63..0 at 0x068 of the ARRAY page (R290). -/
def R.ARRAY.CRITICAL_STRIPES_COUNT : Fld := ⟨0x62, 0x068, 0, 64⟩
/-- RESYNC_PENDING.COUNT, bits 63..0 at 0x070 of the ARRAY page (R290). -/
def R.ARRAY.RESYNC_PENDING_COUNT : Fld := ⟨0x62, 0x070, 0, 64⟩
/-- LOST.DIES, bits 9..0 at 0x078 of the ARRAY page (R290). -/
def R.ARRAY.LOST_DIES : Fld := ⟨0x62, 0x078, 0, 10⟩
/-- LOST.CHANNELS, bits 21..16 at 0x078 of the ARRAY page (R290). -/
def R.ARRAY.LOST_CHANNELS : Fld := ⟨0x62, 0x078, 16, 6⟩
/-- OPEN_STRIPES.COUNT, bits 10..0 at 0x07C of the ARRAY page (R290). -/
def R.ARRAY.OPEN_STRIPES_COUNT : Fld := ⟨0x62, 0x07C, 0, 11⟩
/-- JOURNAL_DIES.DIE0, bits 8..0 at 0x080 of the ARRAY page (R290). -/
def R.ARRAY.JOURNAL_DIES_DIE0 : Fld := ⟨0x62, 0x080, 0, 9⟩
/-- JOURNAL_DIES.DIE1, bits 24..16 at 0x080 of the ARRAY page (R290). -/
def R.ARRAY.JOURNAL_DIES_DIE1 : Fld := ⟨0x62, 0x080, 16, 9⟩
/-- JOURNAL_DIE2.DIE2, bits 8..0 at 0x084 of the ARRAY page (R290). -/
def R.ARRAY.JOURNAL_DIE2_DIE2 : Fld := ⟨0x62, 0x084, 0, 9⟩
/-- BITMAP.POSITION, bits 5..0 at 0x088 of the ARRAY page (R290). -/
def R.ARRAY.BITMAP_POSITION : Fld := ⟨0x62, 0x088, 0, 6⟩
/-- RECONSTRUCTED.COUNT, bits 63..0 at 0x090 of the ARRAY page (R290). -/
def R.ARRAY.RECONSTRUCTED_COUNT : Fld := ⟨0x62, 0x090, 0, 64⟩
/-- WRITE_HOLE.COUNT, bits 31..0 at 0x098 of the ARRAY page (R290). -/
def R.ARRAY.WRITE_HOLE_COUNT : Fld := ⟨0x62, 0x098, 0, 32⟩
/-- REBUILT_UNITS.COUNT, bits 31..0 at 0x09C of the ARRAY page (R290). -/
def R.ARRAY.REBUILT_UNITS_COUNT : Fld := ⟨0x62, 0x09C, 0, 32⟩
/-- LOST_MAP.DIES, bits 31..0 at 0x100 + 4 * i of the ARRAY page (R290). -/
def R.ARRAY.LOST_MAP_DIES (i : Nat) : Fld := ⟨0x62, 0x100 + 4 * i, 0, 32⟩
/-- CORE_STATE.STATE, bits 2..0 at 0x040 of the CORE page (R334). -/
def R.CORE.CORE_STATE_STATE (p : Nat)  : Fld := ⟨0x100 + p, 0x040, 0, 3⟩
/-- CORE_STATE.SYS, bits 3..3 at 0x040 of the CORE page (R334). -/
def R.CORE.CORE_STATE_SYS (p : Nat)  : Fld := ⟨0x100 + p, 0x040, 3, 1⟩
/-- CORE_STATE.TRAP, bits 4..4 at 0x040 of the CORE page (R334). -/
def R.CORE.CORE_STATE_TRAP (p : Nat)  : Fld := ⟨0x100 + p, 0x040, 4, 1⟩
/-- CORE_STATE.FUNC, bits 16..8 at 0x040 of the CORE page (R334). -/
def R.CORE.CORE_STATE_FUNC (p : Nat)  : Fld := ⟨0x100 + p, 0x040, 8, 9⟩
/-- CORE_CTRL.PARK, bits 0..0 at 0x044 of the CORE page (R334). -/
def R.CORE.CORE_CTRL_PARK (p : Nat)  : Fld := ⟨0x100 + p, 0x044, 0, 1⟩
/-- CORE_CTRL.RESUME, bits 1..1 at 0x044 of the CORE page (R334). -/
def R.CORE.CORE_CTRL_RESUME (p : Nat)  : Fld := ⟨0x100 + p, 0x044, 1, 1⟩
/-- CORE_CTRL.RETIRE, bits 2..2 at 0x044 of the CORE page (R334). -/
def R.CORE.CORE_CTRL_RETIRE (p : Nat)  : Fld := ⟨0x100 + p, 0x044, 2, 1⟩
/-- PC_SNAP.PC, bits 63..0 at 0x048 of the CORE page (R334). -/
def R.CORE.PC_SNAP_PC (p : Nat)  : Fld := ⟨0x100 + p, 0x048, 0, 64⟩
/-- LAST_CAUSE.TRAPCAUSE, bits 63..0 at 0x050 of the CORE page (R334). -/
def R.CORE.LAST_CAUSE_TRAPCAUSE (p : Nat)  : Fld := ⟨0x100 + p, 0x050, 0, 64⟩
/-- LAST_TRAPPC.TRAPPC, bits 63..0 at 0x058 of the CORE page (R334). -/
def R.CORE.LAST_TRAPPC_TRAPPC (p : Nat)  : Fld := ⟨0x100 + p, 0x058, 0, 64⟩
/-- CYCLES.COUNT, bits 63..0 at 0x060 of the CORE page (R334). -/
def R.CORE.CYCLES_COUNT (p : Nat)  : Fld := ⟨0x100 + p, 0x060, 0, 64⟩
/-- INSNS.COUNT, bits 63..0 at 0x068 of the CORE page (R334). -/
def R.CORE.INSNS_COUNT (p : Nat)  : Fld := ⟨0x100 + p, 0x068, 0, 64⟩
/-- SPILLS.COUNT, bits 31..0 at 0x070 of the CORE page (R334). -/
def R.CORE.SPILLS_COUNT (p : Nat)  : Fld := ⟨0x100 + p, 0x070, 0, 32⟩
/-- TRAPS.COUNT, bits 31..0 at 0x074 of the CORE page (R334). -/
def R.CORE.TRAPS_COUNT (p : Nat)  : Fld := ⟨0x100 + p, 0x074, 0, 32⟩
/-- ECC_CORRECTED.COUNT, bits 31..0 at 0x078 of the CORE page (R334). -/
def R.CORE.ECC_CORRECTED_COUNT (p : Nat)  : Fld := ⟨0x100 + p, 0x078, 0, 32⟩
/-- ECC_UNCORRECTED.COUNT, bits 31..0 at 0x07C of the CORE page (R334). -/
def R.CORE.ECC_UNCORRECTED_COUNT (p : Nat)  : Fld := ⟨0x100 + p, 0x07C, 0, 32⟩
/-- STACK_DEPTH.DS_HW, bits 5..0 at 0x080 of the CORE page (R334). -/
def R.CORE.STACK_DEPTH_DS_HW (p : Nat)  : Fld := ⟨0x100 + p, 0x080, 0, 6⟩
/-- STACK_DEPTH.RS_HW, bits 13..8 at 0x080 of the CORE page (R334). -/
def R.CORE.STACK_DEPTH_RS_HW (p : Nat)  : Fld := ⟨0x100 + p, 0x080, 8, 6⟩
/-- WAIT_BIT.ADDR, bits 20..0 at 0x084 of the CORE page (R334). -/
def R.CORE.WAIT_BIT_ADDR (p : Nat)  : Fld := ⟨0x100 + p, 0x084, 0, 21⟩
/-- WAIT_BIT.VALID, bits 31..31 at 0x084 of the CORE page (R334). -/
def R.CORE.WAIT_BIT_VALID (p : Nat)  : Fld := ⟨0x100 + p, 0x084, 31, 1⟩
/-- CLUSTER_STATUS.LOAD_STATE, bits 2..0 at 0x040 of the CLUSTER page (R376). -/
def R.CLUSTER.CLUSTER_STATUS_LOAD_STATE (p : Nat)  : Fld := ⟨0x150 + p, 0x040, 0, 3⟩
/-- CLUSTER_STATUS.PERSISTED, bits 3..3 at 0x040 of the CLUSTER page (R376). -/
def R.CLUSTER.CLUSTER_STATUS_PERSISTED (p : Nat)  : Fld := ⟨0x150 + p, 0x040, 3, 1⟩
/-- CLUSTER_STATUS.PARKED, bits 15..8 at 0x040 of the CLUSTER page (R376). -/
def R.CLUSTER.CLUSTER_STATUS_PARKED (p : Nat)  : Fld := ⟨0x150 + p, 0x040, 8, 8⟩
/-- CLUSTER_STATUS.VALID_ENTRIES, bits 22..16 at 0x040 of the CLUSTER page (R376). -/
def R.CLUSTER.CLUSTER_STATUS_VALID_ENTRIES (p : Nat)  : Fld := ⟨0x150 + p, 0x040, 16, 7⟩
/-- WORDS.COUNT, bits 12..0 at 0x044 of the CLUSTER page (R376). -/
def R.CLUSTER.WORDS_COUNT (p : Nat)  : Fld := ⟨0x150 + p, 0x044, 0, 13⟩
/-- LOADS.COUNT, bits 31..0 at 0x048 of the CLUSTER page (R376). -/
def R.CLUSTER.LOADS_COUNT (p : Nat)  : Fld := ⟨0x150 + p, 0x048, 0, 32⟩
/-- PROGRAMS_STOPPED.COUNT, bits 31..0 at 0x04C of the CLUSTER page (R376). -/
def R.CLUSTER.PROGRAMS_STOPPED_COUNT (p : Nat)  : Fld := ⟨0x150 + p, 0x04C, 0, 32⟩
/-- MC_LONG_COUNT.COUNT, bits 31..0 at 0x050 of the CLUSTER page (R376). -/
def R.CLUSTER.MC_LONG_COUNT_COUNT (p : Nat)  : Fld := ⟨0x150 + p, 0x050, 0, 32⟩
/-- MC_STACK_COUNT.COUNT, bits 31..0 at 0x054 of the CLUSTER page (R376). -/
def R.CLUSTER.MC_STACK_COUNT_COUNT (p : Nat)  : Fld := ⟨0x150 + p, 0x054, 0, 32⟩
/-- LAST_MC_TRAP.UADDR, bits 11..0 at 0x058 of the CLUSTER page (R376). -/
def R.CLUSTER.LAST_MC_TRAP_UADDR (p : Nat)  : Fld := ⟨0x150 + p, 0x058, 0, 12⟩
/-- LAST_MC_TRAP.ENTRY, bits 17..12 at 0x058 of the CLUSTER page (R376). -/
def R.CLUSTER.LAST_MC_TRAP_ENTRY (p : Nat)  : Fld := ⟨0x150 + p, 0x058, 12, 6⟩
/-- LAST_MC_TRAP.CORE, bits 20..18 at 0x058 of the CLUSTER page (R376). -/
def R.CLUSTER.LAST_MC_TRAP_CORE (p : Nat)  : Fld := ⟨0x150 + p, 0x058, 18, 3⟩
/-- LAST_MC_TRAP.CAUSE, bits 21..21 at 0x058 of the CLUSTER page (R376). -/
def R.CLUSTER.LAST_MC_TRAP_CAUSE (p : Nat)  : Fld := ⟨0x150 + p, 0x058, 21, 1⟩
/-- FINGERPRINT.BYTES, bits 31..0 at 0x060 + 4 * i of the CLUSTER page (R376). -/
def R.CLUSTER.FINGERPRINT_BYTES (p : Nat) (i : Nat) : Fld := ⟨0x150 + p, 0x060 + 4 * i, 0, 32⟩
/-- ENTRY.ENTRY, bits 31..0 at 0x080 + 4 * c of the CLUSTER page (R376). -/
def R.CLUSTER.ENTRY_ENTRY (p : Nat) (c : Nat) : Fld := ⟨0x150 + p, 0x080 + 4 * c, 0, 32⟩
/-- UADDR.ADDR, bits 11..0 at 0x180 of the CLUSTER page (R376). -/
def R.CLUSTER.UADDR_ADDR (p : Nat)  : Fld := ⟨0x150 + p, 0x180, 0, 12⟩
/-- UWORD.BITS, bits 31..0 at 0x184 + 4 * i of the CLUSTER page (R376). -/
def R.CLUSTER.UWORD_BITS (p : Nat) (i : Nat) : Fld := ⟨0x150 + p, 0x184 + 4 * i, 0, 32⟩
/-- INDEX_BANKS.MASK, bits 31..0 at 0x040 of the EARMARK page (R400). -/
def R.EARMARK.INDEX_BANKS_MASK : Fld := ⟨0x30, 0x040, 0, 32⟩
/-- RETIRE_LIMIT.REPAIRS, bits 7..0 at 0x044 of the EARMARK page (R400). -/
def R.EARMARK.RETIRE_LIMIT_REPAIRS : Fld := ⟨0x30, 0x044, 0, 8⟩
/-- BANKS_RETIRED.MASK, bits 31..0 at 0x048 of the EARMARK page (R400). -/
def R.EARMARK.BANKS_RETIRED_MASK : Fld := ⟨0x30, 0x048, 0, 32⟩
/-- SCRUB_PASSES.COUNT, bits 31..0 at 0x04C of the EARMARK page (R400). -/
def R.EARMARK.SCRUB_PASSES_COUNT : Fld := ⟨0x30, 0x04C, 0, 32⟩
/-- SEARCHES.COUNT, bits 63..0 at 0x050 of the EARMARK page (R400). -/
def R.EARMARK.SEARCHES_COUNT : Fld := ⟨0x30, 0x050, 0, 64⟩
/-- SCRUB_REPAIRS.COUNT, bits 31..0 at 0x058 of the EARMARK page (R400). -/
def R.EARMARK.SCRUB_REPAIRS_COUNT : Fld := ⟨0x30, 0x058, 0, 32⟩
/-- CHECK_REPAIRS.COUNT, bits 31..0 at 0x05C of the EARMARK page (R400). -/
def R.EARMARK.CHECK_REPAIRS_COUNT : Fld := ⟨0x30, 0x05C, 0, 32⟩
/-- SHADOW_LOST.COUNT, bits 31..0 at 0x060 of the EARMARK page (R400). -/
def R.EARMARK.SHADOW_LOST_COUNT : Fld := ⟨0x30, 0x060, 0, 32⟩
/-- BANK_CFG.WIDTH, bits 1..0 at 0x040 of the BANK page (R401). -/
def R.BANK.BANK_CFG_WIDTH (p : Nat)  : Fld := ⟨0x40 + p, 0x040, 0, 2⟩
/-- BANK_CFG.TABLE, bits 6..2 at 0x040 of the BANK page (R401). -/
def R.BANK.BANK_CFG_TABLE (p : Nat)  : Fld := ⟨0x40 + p, 0x040, 2, 5⟩
/-- BANK_CFG.TRIG_SHARE, bits 7..7 at 0x040 of the BANK page (R401). -/
def R.BANK.BANK_CFG_TRIG_SHARE (p : Nat)  : Fld := ⟨0x40 + p, 0x040, 7, 1⟩
/-- BANK_OWNER.FUNC, bits 8..0 at 0x044 of the BANK page (R401). -/
def R.BANK.BANK_OWNER_FUNC (p : Nat)  : Fld := ⟨0x40 + p, 0x044, 0, 9⟩
/-- BANK_OWNER.INDEX, bits 9..9 at 0x044 of the BANK page (R401). -/
def R.BANK.BANK_OWNER_INDEX (p : Nat)  : Fld := ⟨0x40 + p, 0x044, 9, 1⟩
/-- BANK_STATUS.VALID_ENTRIES, bits 12..0 at 0x048 of the BANK page (R401). -/
def R.BANK.BANK_STATUS_VALID_ENTRIES (p : Nat)  : Fld := ⟨0x40 + p, 0x048, 0, 13⟩
/-- BANK_STATUS.HEAD, bits 13..13 at 0x048 of the BANK page (R401). -/
def R.BANK.BANK_STATUS_HEAD (p : Nat)  : Fld := ⟨0x40 + p, 0x048, 13, 1⟩
/-- BANK_STATUS.RETIRED, bits 14..14 at 0x048 of the BANK page (R401). -/
def R.BANK.BANK_STATUS_RETIRED (p : Nat)  : Fld := ⟨0x40 + p, 0x048, 14, 1⟩
/-- REPAIRS.COUNT, bits 31..0 at 0x04C of the BANK page (R401). -/
def R.BANK.REPAIRS_COUNT (p : Nat)  : Fld := ⟨0x40 + p, 0x04C, 0, 32⟩
/-- LAST_REPAIR.ROW, bits 11..0 at 0x050 of the BANK page (R401). -/
def R.BANK.LAST_REPAIR_ROW (p : Nat)  : Fld := ⟨0x40 + p, 0x050, 0, 12⟩
/-- SHADOW_LOST.COUNT, bits 31..0 at 0x054 of the BANK page (R401). -/
def R.BANK.SHADOW_LOST_COUNT (p : Nat)  : Fld := ⟨0x40 + p, 0x054, 0, 32⟩
/-- SEARCHES.COUNT, bits 63..0 at 0x058 of the BANK page (R401). -/
def R.BANK.SEARCHES_COUNT (p : Nat)  : Fld := ⟨0x40 + p, 0x058, 0, 64⟩
/-- HITS.COUNT, bits 63..0 at 0x060 of the BANK page (R401). -/
def R.BANK.HITS_COUNT (p : Nat)  : Fld := ⟨0x40 + p, 0x060, 0, 64⟩
/-- WRITES.COUNT, bits 31..0 at 0x068 of the BANK page (R401). -/
def R.BANK.WRITES_COUNT (p : Nat)  : Fld := ⟨0x40 + p, 0x068, 0, 32⟩
/-- PIPES.LIVE, bits 5..0 at 0x040 of the CIPHER page (R439). -/
def R.CIPHER.PIPES_LIVE : Fld := ⟨0x28, 0x040, 0, 6⟩
/-- SLOTS_USED.KEYS, bits 10..0 at 0x044 of the CIPHER page (R439). -/
def R.CIPHER.SLOTS_USED_KEYS : Fld := ⟨0x28, 0x044, 0, 11⟩
/-- SLOTS_USED.CONTEXTS, bits 26..16 at 0x044 of the CIPHER page (R439). -/
def R.CIPHER.SLOTS_USED_CONTEXTS : Fld := ⟨0x28, 0x044, 16, 11⟩
/-- MASK_STALLS.COUNT, bits 31..0 at 0x048 of the CIPHER page (R439). -/
def R.CIPHER.MASK_STALLS_COUNT : Fld := ⟨0x28, 0x048, 0, 32⟩
/-- LENGTH_ERRORS.COUNT, bits 31..0 at 0x04C of the CIPHER page (R439). -/
def R.CIPHER.LENGTH_ERRORS_COUNT : Fld := ⟨0x28, 0x04C, 0, 32⟩
/-- TAG_FAILS.COUNT, bits 31..0 at 0x050 of the CIPHER page (R439). -/
def R.CIPHER.TAG_FAILS_COUNT : Fld := ⟨0x28, 0x050, 0, 32⟩
/-- MEDIA_BYTES.BYTES, bits 63..0 at 0x058 of the CIPHER page (R439). -/
def R.CIPHER.MEDIA_BYTES_BYTES : Fld := ⟨0x28, 0x058, 0, 64⟩
/-- JOB_BYTES.BYTES, bits 63..0 at 0x060 of the CIPHER page (R439). -/
def R.CIPHER.JOB_BYTES_BYTES : Fld := ⟨0x28, 0x060, 0, 64⟩
/-- KE_STATUS.STATE, bits 1..0 at 0x040 of the KEYENG page (R440). -/
def R.KEYENG.KE_STATUS_STATE : Fld := ⟨0x29, 0x040, 0, 2⟩
/-- KE_STATUS.QUEUED, bits 5..2 at 0x040 of the KEYENG page (R440). -/
def R.KEYENG.KE_STATUS_QUEUED : Fld := ⟨0x29, 0x040, 2, 4⟩
/-- KE_STATUS.HOLDER, bits 16..8 at 0x040 of the KEYENG page (R440). -/
def R.KEYENG.KE_STATUS_HOLDER : Fld := ⟨0x29, 0x040, 8, 9⟩
/-- KE_STATUS.KEY_AUTO, bits 17..17 at 0x040 of the KEYENG page (R440). -/
def R.KEYENG.KE_STATUS_KEY_AUTO : Fld := ⟨0x29, 0x040, 17, 1⟩
/-- KEY_CTRL.UNLOCK, bits 0..0 at 0x044 of the KEYENG page (R440). -/
def R.KEYENG.KEY_CTRL_UNLOCK : Fld := ⟨0x29, 0x044, 0, 1⟩
/-- KEY_CTRL.ERASE, bits 1..1 at 0x044 of the KEYENG page (R440). -/
def R.KEYENG.KEY_CTRL_ERASE : Fld := ⟨0x29, 0x044, 1, 1⟩
/-- ALARM_CAUSE.CAUSE, bits 5..0 at 0x048 of the KEYENG page (R440). -/
def R.KEYENG.ALARM_CAUSE_CAUSE : Fld := ⟨0x29, 0x048, 0, 6⟩
/-- ALARMS.COUNT, bits 31..0 at 0x04C of the KEYENG page (R440). -/
def R.KEYENG.ALARMS_COUNT : Fld := ⟨0x29, 0x04C, 0, 32⟩
/-- BUSY_REFUSALS.COUNT, bits 31..0 at 0x050 of the KEYENG page (R440). -/
def R.KEYENG.BUSY_REFUSALS_COUNT : Fld := ⟨0x29, 0x050, 0, 32⟩
/-- JOBS_DONE.COUNT, bits 31..0 at 0x054 of the KEYENG page (R440). -/
def R.KEYENG.JOBS_DONE_COUNT : Fld := ⟨0x29, 0x054, 0, 32⟩
/-- LAST_ALARM.DTIME, bits 63..0 at 0x058 of the KEYENG page (R440). -/
def R.KEYENG.LAST_ALARM_DTIME : Fld := ⟨0x29, 0x058, 0, 64⟩
/-- UNITS_LIVE.MASK, bits 63..0 at 0x040 of the DIGEST page (R441). -/
def R.DIGEST.UNITS_LIVE_MASK : Fld := ⟨0x2A, 0x040, 0, 64⟩
/-- UNITS_TAKE.RAW, bits 5..0 at 0x048 of the DIGEST page (R441). -/
def R.DIGEST.UNITS_TAKE_RAW : Fld := ⟨0x2A, 0x048, 0, 6⟩
/-- UNITS_TAKE.STORED, bits 13..8 at 0x048 of the DIGEST page (R441). -/
def R.DIGEST.UNITS_TAKE_STORED : Fld := ⟨0x2A, 0x048, 8, 6⟩
/-- FEED_SEL.UNIT, bits 5..0 at 0x04C of the DIGEST page (R441). -/
def R.DIGEST.FEED_SEL_UNIT : Fld := ⟨0x2A, 0x04C, 0, 6⟩
/-- FEED_CTRL.CLAIM, bits 0..0 at 0x050 of the DIGEST page (R441). -/
def R.DIGEST.FEED_CTRL_CLAIM : Fld := ⟨0x2A, 0x050, 0, 1⟩
/-- FEED_CTRL.RELEASE, bits 1..1 at 0x050 of the DIGEST page (R441). -/
def R.DIGEST.FEED_CTRL_RELEASE : Fld := ⟨0x2A, 0x050, 1, 1⟩
/-- FEED_CTRL.START, bits 2..2 at 0x050 of the DIGEST page (R441). -/
def R.DIGEST.FEED_CTRL_START : Fld := ⟨0x2A, 0x050, 2, 1⟩
/-- FEED_CTRL.ALG, bits 4..3 at 0x050 of the DIGEST page (R441). -/
def R.DIGEST.FEED_CTRL_ALG : Fld := ⟨0x2A, 0x050, 3, 2⟩
/-- FEED_CTRL.COMPARE, bits 5..5 at 0x050 of the DIGEST page (R441). -/
def R.DIGEST.FEED_CTRL_COMPARE : Fld := ⟨0x2A, 0x050, 5, 1⟩
/-- FEED_STATUS.STATE, bits 1..0 at 0x054 of the DIGEST page (R441). -/
def R.DIGEST.FEED_STATUS_STATE : Fld := ⟨0x2A, 0x054, 0, 2⟩
/-- FEED_STATUS.HOLDER, bits 10..2 at 0x054 of the DIGEST page (R441). -/
def R.DIGEST.FEED_STATUS_HOLDER : Fld := ⟨0x2A, 0x054, 2, 9⟩
/-- FEED_STATUS.ORIGIN, bits 13..11 at 0x054 of the DIGEST page (R441). -/
def R.DIGEST.FEED_STATUS_ORIGIN : Fld := ⟨0x2A, 0x054, 11, 3⟩
/-- FEED_WORD.BYTES, bits 63..0 at 0x058 of the DIGEST page (R441). -/
def R.DIGEST.FEED_WORD_BYTES : Fld := ⟨0x2A, 0x058, 0, 64⟩
/-- LAST_WORD.BYTES, bits 63..0 at 0x060 of the DIGEST page (R441). -/
def R.DIGEST.LAST_WORD_BYTES : Fld := ⟨0x2A, 0x060, 0, 64⟩
/-- LAST_COUNT.COUNT, bits 3..0 at 0x068 of the DIGEST page (R441). -/
def R.DIGEST.LAST_COUNT_COUNT : Fld := ⟨0x2A, 0x068, 0, 4⟩
/-- VERDICT.VERDICT, bits 31..0 at 0x06C of the DIGEST page (R441). -/
def R.DIGEST.VERDICT_VERDICT : Fld := ⟨0x2A, 0x06C, 0, 32⟩
/-- RESULT.BYTES, bits 31..0 at 0x070 + 4 * i of the DIGEST page (R441). -/
def R.DIGEST.RESULT_BYTES (i : Nat) : Fld := ⟨0x2A, 0x070 + 4 * i, 0, 32⟩
/-- EXPECT.BYTES, bits 31..0 at 0x0B0 + 4 * i of the DIGEST page (R441). -/
def R.DIGEST.EXPECT_BYTES (i : Nat) : Fld := ⟨0x2A, 0x0B0 + 4 * i, 0, 32⟩
/-- MISMATCHES.COUNT, bits 31..0 at 0x0F0 of the DIGEST page (R441). -/
def R.DIGEST.MISMATCHES_COUNT : Fld := ⟨0x2A, 0x0F0, 0, 32⟩
/-- VERDICT_FAULTS.COUNT, bits 31..0 at 0x0F4 of the DIGEST page (R441). -/
def R.DIGEST.VERDICT_FAULTS_COUNT : Fld := ⟨0x2A, 0x0F4, 0, 32⟩
/-- ES_STATUS.STATE, bits 1..0 at 0x040 of the ENTROPY page (R442). -/
def R.ENTROPY.ES_STATUS_STATE : Fld := ⟨0x2B, 0x040, 0, 2⟩
/-- ES_STATUS.STARTUP_FAILS, bits 3..2 at 0x040 of the ENTROPY page (R442). -/
def R.ENTROPY.ES_STATUS_STARTUP_FAILS : Fld := ⟨0x2B, 0x040, 2, 2⟩
/-- RCT_CUTOFF.CUTOFF, bits 7..0 at 0x044 of the ENTROPY page (R442). -/
def R.ENTROPY.RCT_CUTOFF_CUTOFF : Fld := ⟨0x2B, 0x044, 0, 8⟩
/-- APT_CUTOFF.CUTOFF, bits 10..0 at 0x048 of the ENTROPY page (R442). -/
def R.ENTROPY.APT_CUTOFF_CUTOFF : Fld := ⟨0x2B, 0x048, 0, 11⟩
/-- RCT_FAILS.COUNT, bits 31..0 at 0x04C of the ENTROPY page (R442). -/
def R.ENTROPY.RCT_FAILS_COUNT : Fld := ⟨0x2B, 0x04C, 0, 32⟩
/-- APT_FAILS.COUNT, bits 31..0 at 0x050 of the ENTROPY page (R442). -/
def R.ENTROPY.APT_FAILS_COUNT : Fld := ⟨0x2B, 0x050, 0, 32⟩
/-- RESEEDS.COUNT, bits 31..0 at 0x054 of the ENTROPY page (R442). -/
def R.ENTROPY.RESEEDS_COUNT : Fld := ⟨0x2B, 0x054, 0, 32⟩
/-- PORT_CFG.MODE, bits 1..0 at 0x040 of the HOSTQ page (R484). -/
def R.HOSTQ.PORT_CFG_MODE : Fld := ⟨0xB0, 0x040, 0, 2⟩
/-- LINK_A.SPEED, bits 2..0 at 0x044 of the HOSTQ page (R484). -/
def R.HOSTQ.LINK_A_SPEED : Fld := ⟨0xB0, 0x044, 0, 3⟩
/-- LINK_B.SPEED, bits 2..0 at 0x048 of the HOSTQ page (R484). -/
def R.HOSTQ.LINK_B_SPEED : Fld := ⟨0xB0, 0x048, 0, 3⟩
/-- LINK_A.WIDTH, bits 7..3 at 0x044 of the HOSTQ page (R484). -/
def R.HOSTQ.LINK_A_WIDTH : Fld := ⟨0xB0, 0x044, 3, 5⟩
/-- LINK_B.WIDTH, bits 7..3 at 0x048 of the HOSTQ page (R484). -/
def R.HOSTQ.LINK_B_WIDTH : Fld := ⟨0xB0, 0x048, 3, 5⟩
/-- LINK_A.FLIT, bits 8..8 at 0x044 of the HOSTQ page (R484). -/
def R.HOSTQ.LINK_A_FLIT : Fld := ⟨0xB0, 0x044, 8, 1⟩
/-- LINK_B.FLIT, bits 8..8 at 0x048 of the HOSTQ page (R484). -/
def R.HOSTQ.LINK_B_FLIT : Fld := ⟨0xB0, 0x048, 8, 1⟩
/-- LINK_A.SRIS, bits 9..9 at 0x044 of the HOSTQ page (R484). -/
def R.HOSTQ.LINK_A_SRIS : Fld := ⟨0xB0, 0x044, 9, 1⟩
/-- LINK_B.SRIS, bits 9..9 at 0x048 of the HOSTQ page (R484). -/
def R.HOSTQ.LINK_B_SRIS : Fld := ⟨0xB0, 0x048, 9, 1⟩
/-- LINK_A.L1_2, bits 10..10 at 0x044 of the HOSTQ page (R484). -/
def R.HOSTQ.LINK_A_L1_2 : Fld := ⟨0xB0, 0x044, 10, 1⟩
/-- LINK_B.L1_2, bits 10..10 at 0x048 of the HOSTQ page (R484). -/
def R.HOSTQ.LINK_B_L1_2 : Fld := ⟨0xB0, 0x048, 10, 1⟩
/-- QUEUE_PAIRS.GRANTED, bits 12..0 at 0x04C of the HOSTQ page (R484). -/
def R.HOSTQ.QUEUE_PAIRS_GRANTED : Fld := ⟨0xB0, 0x04C, 0, 13⟩
/-- QUEUE_PAIRS.CREATED, bits 28..16 at 0x04C of the HOSTQ page (R484). -/
def R.HOSTQ.QUEUE_PAIRS_CREATED : Fld := ⟨0xB0, 0x04C, 16, 13⟩
/-- RANGE_LOCKS.IN_USE, bits 13..0 at 0x050 of the HOSTQ page (R484). -/
def R.HOSTQ.RANGE_LOCKS_IN_USE : Fld := ⟨0xB0, 0x050, 0, 14⟩
/-- RANGE_LOCKS.PEAK, bits 29..16 at 0x050 of the HOSTQ page (R484). -/
def R.HOSTQ.RANGE_LOCKS_PEAK : Fld := ⟨0xB0, 0x050, 16, 14⟩
/-- FETCH_PAUSES.COUNT, bits 31..0 at 0x054 of the HOSTQ page (R484). -/
def R.HOSTQ.FETCH_PAUSES_COUNT : Fld := ⟨0xB0, 0x054, 0, 32⟩
/-- FROZEN.QUEUES, bits 12..0 at 0x058 of the HOSTQ page (R484). -/
def R.HOSTQ.FROZEN_QUEUES : Fld := ⟨0xB0, 0x058, 0, 13⟩
/-- THAWS.COUNT, bits 31..0 at 0x05C of the HOSTQ page (R484). -/
def R.HOSTQ.THAWS_COUNT : Fld := ⟨0xB0, 0x05C, 0, 32⟩
/-- PAGE_IRQ.VECTOR, bits 10..0 at 0x060 of the HOSTQ page (R484). -/
def R.HOSTQ.PAGE_IRQ_VECTOR : Fld := ⟨0xB0, 0x060, 0, 11⟩
/-- PAGE_IRQ.PF, bits 11..11 at 0x060 of the HOSTQ page (R484). -/
def R.HOSTQ.PAGE_IRQ_PF : Fld := ⟨0xB0, 0x060, 11, 1⟩
/-- PAGE_IRQ.EN, bits 12..12 at 0x060 of the HOSTQ page (R484). -/
def R.HOSTQ.PAGE_IRQ_EN : Fld := ⟨0xB0, 0x060, 12, 1⟩
/-- DB_BITBASE.INDEX, bits 19..0 at 0x064 of the HOSTQ page (R484). -/
def R.HOSTQ.DB_BITBASE_INDEX : Fld := ⟨0xB0, 0x064, 0, 20⟩
/-- FETCHED.COUNT, bits 63..0 at 0x068 of the HOSTQ page (R484). -/
def R.HOSTQ.FETCHED_COUNT : Fld := ⟨0xB0, 0x068, 0, 64⟩
/-- LOCK_WAITS.COUNT, bits 63..0 at 0x070 of the HOSTQ page (R484). -/
def R.HOSTQ.LOCK_WAITS_COUNT : Fld := ⟨0xB0, 0x070, 0, 64⟩
/-- ERRORS.COUNT, bits 31..0 at 0x078 of the HOSTQ page (R484). -/
def R.HOSTQ.ERRORS_COUNT : Fld := ⟨0xB0, 0x078, 0, 32⟩
/-- PAGE_SUMMARY.PAGES, bits 31..0 at 0x080 + 4 * i of the HOSTQ page (R484). -/
def R.HOSTQ.PAGE_SUMMARY_PAGES (i : Nat) : Fld := ⟨0xB0, 0x080 + 4 * i, 0, 32⟩
/-- GEN.GEN, bits 31..0 at 0x080 of the VF page (R499). -/
def R.VF.GEN_GEN (p : Nat)  : Fld := ⟨0x1000 + p, 0x080, 0, 32⟩
/-- QUEUES.PAIRS, bits 12..0 at 0x084 of the VF page (R499). -/
def R.VF.QUEUES_PAIRS (p : Nat)  : Fld := ⟨0x1000 + p, 0x084, 0, 13⟩
/-- CORES.MASK, bits 63..0 at 0x088 of the VF page (R499). -/
def R.VF.CORES_MASK (p : Nat)  : Fld := ⟨0x1000 + p, 0x088, 0, 64⟩
/-- BANKS.MASK, bits 31..0 at 0x090 of the VF page (R499). -/
def R.VF.BANKS_MASK (p : Nat)  : Fld := ⟨0x1000 + p, 0x090, 0, 32⟩
/-- SHARES.SHEARS_WEIGHT, bits 7..0 at 0x094 of the VF page (R499). -/
def R.VF.SHARES_SHEARS_WEIGHT (p : Nat)  : Fld := ⟨0x1000 + p, 0x094, 0, 8⟩
/-- SHARES.MEDIA_SHARE, bits 25..16 at 0x094 of the VF page (R499). -/
def R.VF.SHARES_MEDIA_SHARE (p : Nat)  : Fld := ⟨0x1000 + p, 0x094, 16, 10⟩
/-- KEY_SLOTS.BASE, bits 9..0 at 0x098 of the VF page (R499). -/
def R.VF.KEY_SLOTS_BASE (p : Nat)  : Fld := ⟨0x1000 + p, 0x098, 0, 10⟩
/-- KEY_SLOTS.COUNT, bits 26..16 at 0x098 of the VF page (R499). -/
def R.VF.KEY_SLOTS_COUNT (p : Nat)  : Fld := ⟨0x1000 + p, 0x098, 16, 11⟩
/-- CONTEXTS.BASE, bits 9..0 at 0x09C of the VF page (R499). -/
def R.VF.CONTEXTS_BASE (p : Nat)  : Fld := ⟨0x1000 + p, 0x09C, 0, 10⟩
/-- CONTEXTS.COUNT, bits 26..16 at 0x09C of the VF page (R499). -/
def R.VF.CONTEXTS_COUNT (p : Nat)  : Fld := ⟨0x1000 + p, 0x09C, 16, 11⟩
/-- DRAM_QUOTA.MIB, bits 31..0 at 0x0A0 of the VF page (R499). -/
def R.VF.DRAM_QUOTA_MIB (p : Nat)  : Fld := ⟨0x1000 + p, 0x0A0, 0, 32⟩
/-- DRAM_USED.MIB, bits 31..0 at 0x0A4 of the VF page (R499). -/
def R.VF.DRAM_USED_MIB (p : Nat)  : Fld := ⟨0x1000 + p, 0x0A4, 0, 32⟩
/-- BIT_WINDOW.BITS, bits 20..0 at 0x0A8 of the VF page (R499). -/
def R.VF.BIT_WINDOW_BITS (p : Nat)  : Fld := ⟨0x1000 + p, 0x0A8, 0, 21⟩
/-- NAMESPACES.COUNT, bits 5..0 at 0x0AC of the VF page (R499). -/
def R.VF.NAMESPACES_COUNT (p : Nat)  : Fld := ⟨0x1000 + p, 0x0AC, 0, 6⟩
/-- NAMESPACES.TAKES, bits 6..6 at 0x0AC of the VF page (R499). -/
def R.VF.NAMESPACES_TAKES (p : Nat)  : Fld := ⟨0x1000 + p, 0x0AC, 6, 1⟩
/-- VF_IRQ.VECTOR, bits 5..0 at 0x0B0 of the VF page (R499). -/
def R.VF.VF_IRQ_VECTOR (p : Nat)  : Fld := ⟨0x1000 + p, 0x0B0, 0, 6⟩
/-- VF_IRQ.EN, bits 6..6 at 0x0B0 of the VF page (R499). -/
def R.VF.VF_IRQ_EN (p : Nat)  : Fld := ⟨0x1000 + p, 0x0B0, 6, 1⟩
/-- WITHDRAWN_CORES.MASK, bits 63..0 at 0x0B8 of the VF page (R499). -/
def R.VF.WITHDRAWN_CORES_MASK (p : Nat)  : Fld := ⟨0x1000 + p, 0x0B8, 0, 64⟩
/-- WITHDRAWN_BANKS.MASK, bits 31..0 at 0x0C0 of the VF page (R499). -/
def R.VF.WITHDRAWN_BANKS_MASK (p : Nat)  : Fld := ⟨0x1000 + p, 0x0C0, 0, 32⟩
/-- FUNC_SEL.FUNC, bits 8..0 at 0x040 of the TENANT page (R504). -/
def R.TENANT.FUNC_SEL_FUNC : Fld := ⟨0xB1, 0x040, 0, 9⟩
/-- QP_POOL.FREE, bits 12..0 at 0x044 of the TENANT page (R504). -/
def R.TENANT.QP_POOL_FREE : Fld := ⟨0xB1, 0x044, 0, 13⟩
/-- QP_POOL.ENABLED, bits 28..16 at 0x044 of the TENANT page (R504). -/
def R.TENANT.QP_POOL_ENABLED : Fld := ⟨0xB1, 0x044, 16, 13⟩
/-- CORES_FREE.MASK, bits 63..0 at 0x048 of the TENANT page (R504). -/
def R.TENANT.CORES_FREE_MASK : Fld := ⟨0xB1, 0x048, 0, 64⟩
/-- BANKS_FREE.MASK, bits 31..0 at 0x050 of the TENANT page (R504). -/
def R.TENANT.BANKS_FREE_MASK : Fld := ⟨0xB1, 0x050, 0, 32⟩
/-- SLOTS_FREE.KEYS, bits 10..0 at 0x054 of the TENANT page (R504). -/
def R.TENANT.SLOTS_FREE_KEYS : Fld := ⟨0xB1, 0x054, 0, 11⟩
/-- SLOTS_FREE.CONTEXTS, bits 26..16 at 0x054 of the TENANT page (R504). -/
def R.TENANT.SLOTS_FREE_CONTEXTS : Fld := ⟨0xB1, 0x054, 16, 11⟩
/-- SHARES_FREE.WEIGHT, bits 12..0 at 0x058 of the TENANT page (R504). -/
def R.TENANT.SHARES_FREE_WEIGHT : Fld := ⟨0xB1, 0x058, 0, 13⟩
/-- SHARES_FREE.MEDIA, bits 25..16 at 0x058 of the TENANT page (R504). -/
def R.TENANT.SHARES_FREE_MEDIA : Fld := ⟨0xB1, 0x058, 16, 10⟩
/-- DRAM_POOL.MIB, bits 31..0 at 0x05C of the TENANT page (R504). -/
def R.TENANT.DRAM_POOL_MIB : Fld := ⟨0xB1, 0x05C, 0, 32⟩
/-- DRAM_FREE.MIB, bits 31..0 at 0x060 of the TENANT page (R504). -/
def R.TENANT.DRAM_FREE_MIB : Fld := ⟨0xB1, 0x060, 0, 32⟩
/-- BITS_FREE.BITS, bits 22..0 at 0x064 of the TENANT page (R504). -/
def R.TENANT.BITS_FREE_BITS : Fld := ⟨0xB1, 0x064, 0, 23⟩
/-- SEL_STATE.STATE, bits 1..0 at 0x068 of the TENANT page (R504). -/
def R.TENANT.SEL_STATE_STATE : Fld := ⟨0xB1, 0x068, 0, 2⟩
/-- SEL_GEN.GEN, bits 31..0 at 0x06C of the TENANT page (R504). -/
def R.TENANT.SEL_GEN_GEN : Fld := ⟨0xB1, 0x06C, 0, 32⟩
/-- RESETS.COUNT, bits 31..0 at 0x070 of the TENANT page (R504). -/
def R.TENANT.RESETS_COUNT : Fld := ⟨0xB1, 0x070, 0, 32⟩
/-- FLR_MAX_US.US, bits 31..0 at 0x074 of the TENANT page (R504). -/
def R.TENANT.FLR_MAX_US_US : Fld := ⟨0xB1, 0x074, 0, 32⟩
/-- VFS.ENABLED, bits 8..0 at 0x078 of the TENANT page (R504). -/
def R.TENANT.VFS_ENABLED : Fld := ⟨0xB1, 0x078, 0, 9⟩
/-- ENTRIES.USED, bits 20..0 at 0x040 of the XLATE page (R505). -/
def R.XLATE.ENTRIES_USED : Fld := ⟨0xB2, 0x040, 0, 21⟩
/-- FAULTS.COUNT, bits 31..0 at 0x044 of the XLATE page (R505). -/
def R.XLATE.FAULTS_COUNT : Fld := ⟨0xB2, 0x044, 0, 32⟩
/-- INVALIDATIONS.COUNT, bits 31..0 at 0x048 of the XLATE page (R505). -/
def R.XLATE.INVALIDATIONS_COUNT : Fld := ⟨0xB2, 0x048, 0, 32⟩
/-- LAST_FAULT_VA.VA, bits 63..0 at 0x04C of the XLATE page (R505). -/
def R.XLATE.LAST_FAULT_VA_VA : Fld := ⟨0xB2, 0x04C, 0, 64⟩
/-- LAST_FAULT.FUNC, bits 8..0 at 0x054 of the XLATE page (R505). -/
def R.XLATE.LAST_FAULT_FUNC : Fld := ⟨0xB2, 0x054, 0, 9⟩
/-- LAST_FAULT.WRITE, bits 9..9 at 0x054 of the XLATE page (R505). -/
def R.XLATE.LAST_FAULT_WRITE : Fld := ⟨0xB2, 0x054, 9, 1⟩
/-- LAST_FAULT.FETCH, bits 10..10 at 0x054 of the XLATE page (R505). -/
def R.XLATE.LAST_FAULT_FETCH : Fld := ⟨0xB2, 0x054, 10, 1⟩
/-- LAST_FAULT.ENGINE, bits 11..11 at 0x054 of the XLATE page (R505). -/
def R.XLATE.LAST_FAULT_ENGINE : Fld := ⟨0xB2, 0x054, 11, 1⟩
/-- INVAL_MAX_NS.NS, bits 31..0 at 0x058 of the XLATE page (R505). -/
def R.XLATE.INVAL_MAX_NS_NS : Fld := ⟨0xB2, 0x058, 0, 32⟩
/-- SET_CFG.ROLE, bits 1..0 at 0x040 of the DROVE page (R525). -/
def R.DROVE.SET_CFG_ROLE : Fld := ⟨0xC0, 0x040, 0, 2⟩
/-- SET_CFG.CONFIG_N, bits 7..2 at 0x040 of the DROVE page (R525). -/
def R.DROVE.SET_CFG_CONFIG_N : Fld := ⟨0xC0, 0x040, 2, 6⟩
/-- SET_ID.ID, bits 63..0 at 0x044 of the DROVE page (R525). -/
def R.DROVE.SET_ID_ID : Fld := ⟨0xC0, 0x044, 0, 64⟩
/-- SET_STATUS.ACTIVE_ROLE, bits 1..0 at 0x04C of the DROVE page (R525). -/
def R.DROVE.SET_STATUS_ACTIVE_ROLE : Fld := ⟨0xC0, 0x04C, 0, 2⟩
/-- SET_STATUS.MEMBER, bits 6..2 at 0x04C of the DROVE page (R525). -/
def R.DROVE.SET_STATUS_MEMBER : Fld := ⟨0xC0, 0x04C, 2, 5⟩
/-- SET_STATUS.MANAGER, bits 11..7 at 0x04C of the DROVE page (R525). -/
def R.DROVE.SET_STATUS_MANAGER : Fld := ⟨0xC0, 0x04C, 7, 5⟩
/-- SET_STATUS.STANDBY, bits 16..12 at 0x04C of the DROVE page (R525). -/
def R.DROVE.SET_STATUS_STANDBY : Fld := ⟨0xC0, 0x04C, 12, 5⟩
/-- SET_STATUS.NO_STANDBY, bits 17..17 at 0x04C of the DROVE page (R525). -/
def R.DROVE.SET_STATUS_NO_STANDBY : Fld := ⟨0xC0, 0x04C, 17, 1⟩
/-- SET_STATUS.QUORUM, bits 18..18 at 0x04C of the DROVE page (R525). -/
def R.DROVE.SET_STATUS_QUORUM : Fld := ⟨0xC0, 0x04C, 18, 1⟩
/-- SET_STATUS.TOPOLOGY, bits 19..19 at 0x04C of the DROVE page (R525). -/
def R.DROVE.SET_STATUS_TOPOLOGY : Fld := ⟨0xC0, 0x04C, 19, 1⟩
/-- SET_STATUS.SWAPPED, bits 20..20 at 0x04C of the DROVE page (R525). -/
def R.DROVE.SET_STATUS_SWAPPED : Fld := ⟨0xC0, 0x04C, 20, 1⟩
/-- SET_STATUS.LIVE, bits 26..21 at 0x04C of the DROVE page (R525). -/
def R.DROVE.SET_STATUS_LIVE : Fld := ⟨0xC0, 0x04C, 21, 6⟩
/-- SET_STATUS.HOPS, bits 31..27 at 0x04C of the DROVE page (R525). -/
def R.DROVE.SET_STATUS_HOPS : Fld := ⟨0xC0, 0x04C, 27, 5⟩
/-- EPOCH.EPOCH, bits 31..0 at 0x050 of the DROVE page (R525). -/
def R.DROVE.EPOCH_EPOCH : Fld := ⟨0xC0, 0x050, 0, 32⟩
/-- LIVE_MASK.MASK, bits 31..0 at 0x054 of the DROVE page (R525). -/
def R.DROVE.LIVE_MASK_MASK : Fld := ⟨0xC0, 0x054, 0, 32⟩
/-- LINK_A.UP, bits 0..0 at 0x058 of the DROVE page (R525). -/
def R.DROVE.LINK_A_UP : Fld := ⟨0xC0, 0x058, 0, 1⟩
/-- LINK_B.UP, bits 0..0 at 0x05C of the DROVE page (R525). -/
def R.DROVE.LINK_B_UP : Fld := ⟨0xC0, 0x05C, 0, 1⟩
/-- LINK_A.REFUSAL, bits 3..1 at 0x058 of the DROVE page (R525). -/
def R.DROVE.LINK_A_REFUSAL : Fld := ⟨0xC0, 0x058, 1, 3⟩
/-- LINK_B.REFUSAL, bits 3..1 at 0x05C of the DROVE page (R525). -/
def R.DROVE.LINK_B_REFUSAL : Fld := ⟨0xC0, 0x05C, 1, 3⟩
/-- LINK_A.NEIGHBOUR, bits 8..4 at 0x058 of the DROVE page (R525). -/
def R.DROVE.LINK_A_NEIGHBOUR : Fld := ⟨0xC0, 0x058, 4, 5⟩
/-- LINK_B.NEIGHBOUR, bits 8..4 at 0x05C of the DROVE page (R525). -/
def R.DROVE.LINK_B_NEIGHBOUR : Fld := ⟨0xC0, 0x05C, 4, 5⟩
/-- LINK_DELAY_A.NS, bits 31..0 at 0x060 of the DROVE page (R525). -/
def R.DROVE.LINK_DELAY_A_NS : Fld := ⟨0xC0, 0x060, 0, 32⟩
/-- LINK_DELAY_B.NS, bits 31..0 at 0x064 of the DROVE page (R525). -/
def R.DROVE.LINK_DELAY_B_NS : Fld := ⟨0xC0, 0x064, 0, 32⟩
/-- TIME_OFFSET.NS, bits 31..0 at 0x068 of the DROVE page (R525). -/
def R.DROVE.TIME_OFFSET_NS : Fld := ⟨0xC0, 0x068, 0, 32⟩
/-- SYNC_CTRL.EN, bits 0..0 at 0x06C of the DROVE page (R525). -/
def R.DROVE.SYNC_CTRL_EN : Fld := ⟨0xC0, 0x06C, 0, 1⟩
/-- FAILOVERS.COUNT, bits 31..0 at 0x070 of the DROVE page (R525). -/
def R.DROVE.FAILOVERS_COUNT : Fld := ⟨0xC0, 0x070, 0, 32⟩
/-- HB_MISSES.COUNT, bits 31..0 at 0x074 of the DROVE page (R525). -/
def R.DROVE.HB_MISSES_COUNT : Fld := ⟨0xC0, 0x074, 0, 32⟩
/-- OPS_DONE.COUNT, bits 31..0 at 0x078 of the DROVE page (R525). -/
def R.DROVE.OPS_DONE_COUNT : Fld := ⟨0xC0, 0x078, 0, 32⟩
/-- OPS_QUEUED.COUNT, bits 3..0 at 0x07C of the DROVE page (R525). -/
def R.DROVE.OPS_QUEUED_COUNT : Fld := ⟨0xC0, 0x07C, 0, 4⟩
/-- CH_STATUS.STATE, bits 2..0 at 0x040 of the DRAM page (R542). -/
def R.DRAM.CH_STATUS_STATE (p : Nat)  : Fld := ⟨0xA0 + p, 0x040, 0, 3⟩
/-- CH_STATUS.RETIRE_CAUSE, bits 10..8 at 0x040 of the DRAM page (R542). -/
def R.DRAM.CH_STATUS_RETIRE_CAUSE (p : Nat)  : Fld := ⟨0xA0 + p, 0x040, 8, 3⟩
/-- CONFIG.GIB, bits 6..0 at 0x044 of the DRAM page (R542). -/
def R.DRAM.CONFIG_GIB (p : Nat)  : Fld := ⟨0xA0 + p, 0x044, 0, 7⟩
/-- CONFIG.X8, bits 7..7 at 0x044 of the DRAM page (R542). -/
def R.DRAM.CONFIG_X8 (p : Nat)  : Fld := ⟨0xA0 + p, 0x044, 7, 1⟩
/-- CONFIG.RANKS, bits 8..8 at 0x044 of the DRAM page (R542). -/
def R.DRAM.CONFIG_RANKS (p : Nat)  : Fld := ⟨0xA0 + p, 0x044, 8, 1⟩
/-- TRAIN_LANE.RD_DQS, bits 7..0 at 0x048 + 4 * i of the DRAM page (R542). -/
def R.DRAM.TRAIN_LANE_RD_DQS (p : Nat) (i : Nat) : Fld := ⟨0xA0 + p, 0x048 + 4 * i, 0, 8⟩
/-- TRAIN_LANE.WR_DQ, bits 15..8 at 0x048 + 4 * i of the DRAM page (R542). -/
def R.DRAM.TRAIN_LANE_WR_DQ (p : Nat) (i : Nat) : Fld := ⟨0xA0 + p, 0x048 + 4 * i, 8, 8⟩
/-- TRAIN_LANE.EYE, bits 23..16 at 0x048 + 4 * i of the DRAM page (R542). -/
def R.DRAM.TRAIN_LANE_EYE (p : Nat) (i : Nat) : Fld := ⟨0xA0 + p, 0x048 + 4 * i, 16, 8⟩
/-- DRIFT.ACCUM, bits 7..0 at 0x070 of the DRAM page (R542). -/
def R.DRAM.DRIFT_ACCUM (p : Nat)  : Fld := ⟨0xA0 + p, 0x070, 0, 8⟩
/-- DRIFT.RETRAINS, bits 31..8 at 0x070 of the DRAM page (R542). -/
def R.DRAM.DRIFT_RETRAINS (p : Nat)  : Fld := ⟨0xA0 + p, 0x070, 8, 24⟩
/-- RETIRE_CTRL.RETIRE, bits 0..0 at 0x074 of the DRAM page (R542). -/
def R.DRAM.RETIRE_CTRL_RETIRE (p : Nat)  : Fld := ⟨0xA0 + p, 0x074, 0, 1⟩
/-- CORRECTED.COUNT, bits 31..0 at 0x078 of the DRAM page (R542). -/
def R.DRAM.CORRECTED_COUNT (p : Nat)  : Fld := ⟨0xA0 + p, 0x078, 0, 32⟩
/-- UNCORRECTED.COUNT, bits 31..0 at 0x07C of the DRAM page (R542). -/
def R.DRAM.UNCORRECTED_COUNT (p : Nat)  : Fld := ⟨0xA0 + p, 0x07C, 0, 32⟩
/-- REPLAYS.COUNT, bits 31..0 at 0x080 of the DRAM page (R542). -/
def R.DRAM.REPLAYS_COUNT (p : Nat)  : Fld := ⟨0xA0 + p, 0x080, 0, 32⟩
/-- REPLAY_PEAK.COUNT, bits 3..0 at 0x084 of the DRAM page (R542). -/
def R.DRAM.REPLAY_PEAK_COUNT (p : Nat)  : Fld := ⟨0xA0 + p, 0x084, 0, 4⟩
/-- LAST_UE_ADDR.ADDR, bits 63..0 at 0x088 of the DRAM page (R542). -/
def R.DRAM.LAST_UE_ADDR_ADDR (p : Nat)  : Fld := ⟨0xA0 + p, 0x088, 0, 64⟩
/-- LAST_UE_KIND.KIND, bits 3..0 at 0x090 of the DRAM page (R542). -/
def R.DRAM.LAST_UE_KIND_KIND (p : Nat)  : Fld := ⟨0xA0 + p, 0x090, 0, 4⟩
/-- LIVE.MASK, bits 3..0 at 0x040 of the DRAMC page (R543). -/
def R.DRAMC.LIVE_MASK : Fld := ⟨0xA4, 0x040, 0, 4⟩
/-- LIVE_GIB.GIB, bits 9..0 at 0x044 of the DRAMC page (R543). -/
def R.DRAMC.LIVE_GIB_GIB : Fld := ⟨0xA4, 0x044, 0, 10⟩
/-- BANDWIDTH.MBPS, bits 31..0 at 0x048 of the DRAMC page (R543). -/
def R.DRAMC.BANDWIDTH_MBPS : Fld := ⟨0xA4, 0x048, 0, 32⟩
/-- SCRUB_HOURS.HOURS, bits 7..0 at 0x04C of the DRAMC page (R543). -/
def R.DRAMC.SCRUB_HOURS_HOURS : Fld := ⟨0xA4, 0x04C, 0, 8⟩
/-- DRIFT_PERIOD.MS, bits 9..0 at 0x050 of the DRAMC page (R543). -/
def R.DRAMC.DRIFT_PERIOD_MS : Fld := ⟨0xA4, 0x050, 0, 10⟩
/-- UE_LIMIT.BURSTS, bits 7..0 at 0x054 of the DRAMC page (R543). -/
def R.DRAMC.UE_LIMIT_BURSTS : Fld := ⟨0xA4, 0x054, 0, 8⟩
/-- SCRUB_PASSES.COUNT, bits 31..0 at 0x058 of the DRAMC page (R543). -/
def R.DRAMC.SCRUB_PASSES_COUNT : Fld := ⟨0xA4, 0x058, 0, 32⟩
/-- DATA_LOST.COUNT, bits 31..0 at 0x05C of the DRAMC page (R543). -/
def R.DRAMC.DATA_LOST_COUNT : Fld := ⟨0xA4, 0x05C, 0, 32⟩
/-- MODE.MODE, bits 2..0 at 0x040 of the PWR page (R572). -/
def R.PWR.MODE_MODE : Fld := ⟨0x2, 0x040, 0, 3⟩
/-- MODE.PREV, bits 5..3 at 0x040 of the PWR page (R572). -/
def R.PWR.MODE_PREV : Fld := ⟨0x2, 0x040, 3, 3⟩
/-- MODE_REQ.TARGET, bits 1..0 at 0x044 of the PWR page (R572). -/
def R.PWR.MODE_REQ_TARGET : Fld := ⟨0x2, 0x044, 0, 2⟩
/-- SAFE_CTRL.ENTER, bits 0..0 at 0x048 of the PWR page (R572). -/
def R.PWR.SAFE_CTRL_ENTER : Fld := ⟨0x2, 0x048, 0, 1⟩
/-- SAFE_CTRL.EXIT, bits 1..1 at 0x048 of the PWR page (R572). -/
def R.PWR.SAFE_CTRL_EXIT : Fld := ⟨0x2, 0x048, 1, 1⟩
/-- DOZE_AFTER.S, bits 15..0 at 0x04C of the PWR page (R572). -/
def R.PWR.DOZE_AFTER_S : Fld := ⟨0x2, 0x04C, 0, 16⟩
/-- LAST_OUTCOME.TARGET, bits 2..0 at 0x050 of the PWR page (R572). -/
def R.PWR.LAST_OUTCOME_TARGET : Fld := ⟨0x2, 0x050, 0, 3⟩
/-- LAST_OUTCOME.OUTCOME, bits 4..3 at 0x050 of the PWR page (R572). -/
def R.PWR.LAST_OUTCOME_OUTCOME : Fld := ⟨0x2, 0x050, 3, 2⟩
/-- LAST_OUTCOME.BLOCK, bits 15..8 at 0x050 of the PWR page (R572). -/
def R.PWR.LAST_OUTCOME_BLOCK : Fld := ⟨0x2, 0x050, 8, 8⟩
/-- LAST_OUTCOME.INSTANCE, bits 23..16 at 0x050 of the PWR page (R572). -/
def R.PWR.LAST_OUTCOME_INSTANCE : Fld := ⟨0x2, 0x050, 16, 8⟩
/-- LAST_FUNC.FUNC, bits 8..0 at 0x054 of the PWR page (R572). -/
def R.PWR.LAST_FUNC_FUNC : Fld := ⟨0x2, 0x054, 0, 9⟩
/-- LAST_FUNC.IS_FUNC, bits 9..9 at 0x054 of the PWR page (R572). -/
def R.PWR.LAST_FUNC_IS_FUNC : Fld := ⟨0x2, 0x054, 9, 1⟩
/-- SAFE_CAUSE.CAUSE, bits 7..0 at 0x058 of the PWR page (R572). -/
def R.PWR.SAFE_CAUSE_CAUSE : Fld := ⟨0x2, 0x058, 0, 8⟩
/-- WDOG.KICK, bits 0..0 at 0x05C of the PWR page (R572). -/
def R.PWR.WDOG_KICK : Fld := ⟨0x2, 0x05C, 0, 1⟩
/-- RESET_CTRL.WARM, bits 0..0 at 0x060 of the PWR page (R572). -/
def R.PWR.RESET_CTRL_WARM : Fld := ⟨0x2, 0x060, 0, 1⟩
/-- RESET_CAUSE.CAUSE, bits 3..0 at 0x064 of the PWR page (R572). -/
def R.PWR.RESET_CAUSE_CAUSE : Fld := ⟨0x2, 0x064, 0, 4⟩
/-- WAKE_CAUSE.SOURCES, bits 5..0 at 0x068 of the PWR page (R572). -/
def R.PWR.WAKE_CAUSE_SOURCES : Fld := ⟨0x2, 0x068, 0, 6⟩
/-- HIST_SEL.ENTRY, bits 5..0 at 0x06C of the PWR page (R572). -/
def R.PWR.HIST_SEL_ENTRY : Fld := ⟨0x2, 0x06C, 0, 6⟩
/-- HIST.BYTES, bits 31..0 at 0x070 + 4 * i of the PWR page (R572). -/
def R.PWR.HIST_BYTES (i : Nat) : Fld := ⟨0x2, 0x070 + 4 * i, 0, 32⟩
/-- REFUSALS.COUNT, bits 31..0 at 0x080 of the PWR page (R572). -/
def R.PWR.REFUSALS_COUNT : Fld := ⟨0x2, 0x080, 0, 32⟩
/-- ABORTS.COUNT, bits 31..0 at 0x084 of the PWR page (R572). -/
def R.PWR.ABORTS_COUNT : Fld := ⟨0x2, 0x084, 0, 32⟩
/-- BOOT.SOURCE, bits 1..0 at 0x088 of the PWR page (R572). -/
def R.PWR.BOOT_SOURCE : Fld := ⟨0x2, 0x088, 0, 2⟩
/-- BOOT.COPY, bits 3..2 at 0x088 of the PWR page (R572). -/
def R.PWR.BOOT_COPY : Fld := ⟨0x2, 0x088, 2, 2⟩
/-- BOOT.UNCLEAN, bits 4..4 at 0x088 of the PWR page (R572). -/
def R.PWR.BOOT_UNCLEAN : Fld := ⟨0x2, 0x088, 4, 1⟩
/-- BOOT.ATTEMPTS, bits 15..8 at 0x088 of the PWR page (R572). -/
def R.PWR.BOOT_ATTEMPTS : Fld := ⟨0x2, 0x088, 8, 8⟩
/-- BOOT.READY_MS, bits 31..16 at 0x088 of the PWR page (R572). -/
def R.PWR.BOOT_READY_MS : Fld := ⟨0x2, 0x088, 16, 16⟩
/-- MBOX_ADDR.ADDR, bits 63..12 at 0x090 of the PWR page (R572). -/
def R.PWR.MBOX_ADDR_ADDR : Fld := ⟨0x2, 0x090, 12, 52⟩
/-- MBOX_LEN.BYTES, bits 31..0 at 0x098 of the PWR page (R572). -/
def R.PWR.MBOX_LEN_BYTES : Fld := ⟨0x2, 0x098, 0, 32⟩
/-- MBOX_CTRL.GO, bits 0..0 at 0x09C of the PWR page (R572). -/
def R.PWR.MBOX_CTRL_GO : Fld := ⟨0x2, 0x09C, 0, 1⟩
/-- MBOX_CTRL.STATE, bits 2..1 at 0x09C of the PWR page (R572). -/
def R.PWR.MBOX_CTRL_STATE : Fld := ⟨0x2, 0x09C, 1, 2⟩
/-- LINK_STATUS.PRESENT, bits 7..0 at 0x040 of the VREG page (R573). -/
def R.VREG.LINK_STATUS_PRESENT : Fld := ⟨0x3, 0x040, 0, 8⟩
/-- LINK_STATUS.FAULTED, bits 15..8 at 0x040 of the VREG page (R573). -/
def R.VREG.LINK_STATUS_FAULTED : Fld := ⟨0x3, 0x040, 8, 8⟩
/-- LINK_STATUS.UNSUPPORTED, bits 23..16 at 0x040 of the VREG page (R573). -/
def R.VREG.LINK_STATUS_UNSUPPORTED : Fld := ⟨0x3, 0x040, 16, 8⟩
/-- NO_ACK_COUNT.COUNT, bits 31..0 at 0x044 of the VREG page (R573). -/
def R.VREG.NO_ACK_COUNT_COUNT : Fld := ⟨0x3, 0x044, 0, 32⟩
/-- PEC_ERRORS.COUNT, bits 31..0 at 0x048 of the VREG page (R573). -/
def R.VREG.PEC_ERRORS_COUNT : Fld := ⟨0x3, 0x048, 0, 32⟩
/-- SLOT_CFG.ADDR, bits 6..0 at 0x080 + 0x10 * n of the VREG page (R573). -/
def R.VREG.SLOT_CFG_ADDR (n : Nat) : Fld := ⟨0x3, 0x080 + 0x10 * n, 0, 7⟩
/-- SLOT_CFG.PAGE, bits 15..8 at 0x080 + 0x10 * n of the VREG page (R573). -/
def R.VREG.SLOT_CFG_PAGE (n : Nat) : Fld := ⟨0x3, 0x080 + 0x10 * n, 8, 8⟩
/-- SLOT_CFG.RAIL, bits 19..16 at 0x080 + 0x10 * n of the VREG page (R573). -/
def R.VREG.SLOT_CFG_RAIL (n : Nat) : Fld := ⟨0x3, 0x080 + 0x10 * n, 16, 4⟩
/-- SLOT_CFG.ACK, bits 20..20 at 0x080 + 0x10 * n of the VREG page (R573). -/
def R.VREG.SLOT_CFG_ACK (n : Nat) : Fld := ⟨0x3, 0x080 + 0x10 * n, 20, 1⟩
/-- LIMITS.VMIN_MV, bits 15..0 at 0x084 + 0x10 * n of the VREG page (R573). -/
def R.VREG.LIMITS_VMIN_MV (n : Nat) : Fld := ⟨0x3, 0x084 + 0x10 * n, 0, 16⟩
/-- LIMITS.VMAX_MV, bits 31..16 at 0x084 + 0x10 * n of the VREG page (R573). -/
def R.VREG.LIMITS_VMAX_MV (n : Nat) : Fld := ⟨0x3, 0x084 + 0x10 * n, 16, 16⟩
/-- VOUT.SET_MV, bits 15..0 at 0x088 + 0x10 * n of the VREG page (R573). -/
def R.VREG.VOUT_SET_MV (n : Nat) : Fld := ⟨0x3, 0x088 + 0x10 * n, 0, 16⟩
/-- VOUT.MEAS_MV, bits 31..16 at 0x088 + 0x10 * n of the VREG page (R573). -/
def R.VREG.VOUT_MEAS_MV (n : Nat) : Fld := ⟨0x3, 0x088 + 0x10 * n, 16, 16⟩
/-- TELEM.IOUT, bits 15..0 at 0x08C + 0x10 * n of the VREG page (R573). -/
def R.VREG.TELEM_IOUT (n : Nat) : Fld := ⟨0x3, 0x08C + 0x10 * n, 0, 16⟩
/-- TELEM.POUT, bits 31..16 at 0x08C + 0x10 * n of the VREG page (R573). -/
def R.VREG.TELEM_POUT (n : Nat) : Fld := ⟨0x3, 0x08C + 0x10 * n, 16, 16⟩
/-- NOW.TIME, bits 63..0 at 0x040 of the RTC page (R574). -/
def R.RTC.NOW_TIME : Fld := ⟨0x4, 0x040, 0, 64⟩
/-- SET.TIME, bits 63..0 at 0x048 of the RTC page (R574). -/
def R.RTC.SET_TIME : Fld := ⟨0x4, 0x048, 0, 64⟩
/-- CTRL.LOAD, bits 0..0 at 0x050 of the RTC page (R574). -/
def R.RTC.CTRL_LOAD : Fld := ⟨0x4, 0x050, 0, 1⟩
/-- STATUS.VALID, bits 0..0 at 0x054 of the RTC page (R574). -/
def R.RTC.STATUS_VALID : Fld := ⟨0x4, 0x054, 0, 1⟩
/-- STATUS.OSC_FAIL, bits 1..1 at 0x054 of the RTC page (R574). -/
def R.RTC.STATUS_OSC_FAIL : Fld := ⟨0x4, 0x054, 1, 1⟩
/-- TRIM.HALF_PPM, bits 7..0 at 0x058 of the RTC page (R574). -/
def R.RTC.TRIM_HALF_PPM : Fld := ⟨0x4, 0x058, 0, 8⟩
/-- ALARM_TIME.TIME, bits 63..0 at 0x060 + 0x10 * n of the RTC page (R574). -/
def R.RTC.ALARM_TIME_TIME (n : Nat) : Fld := ⟨0x4, 0x060 + 0x10 * n, 0, 64⟩
/-- ALARM_CTRL.EN, bits 0..0 at 0x068 + 0x10 * n of the RTC page (R574). -/
def R.RTC.ALARM_CTRL_EN (n : Nat) : Fld := ⟨0x4, 0x068 + 0x10 * n, 0, 1⟩
/-- ALARM_CTRL.WAKE, bits 1..1 at 0x068 + 0x10 * n of the RTC page (R574). -/
def R.RTC.ALARM_CTRL_WAKE (n : Nat) : Fld := ⟨0x4, 0x068 + 0x10 * n, 1, 1⟩
/-- ALARM_CTRL.FIRED, bits 2..2 at 0x068 + 0x10 * n of the RTC page (R574). -/
def R.RTC.ALARM_CTRL_FIRED (n : Nat) : Fld := ⟨0x4, 0x068 + 0x10 * n, 2, 1⟩
/-- ROOT_STATUS.LOCKED, bits 0..0 at 0x040 of the CLK page (R575). -/
def R.CLK.ROOT_STATUS_LOCKED : Fld := ⟨0x1, 0x040, 0, 1⟩
/-- ROOT_STATUS.REF_PRESENT, bits 1..1 at 0x040 of the CLK page (R575). -/
def R.CLK.ROOT_STATUS_REF_PRESENT : Fld := ⟨0x1, 0x040, 1, 1⟩
/-- ROOT_STATUS.LOCK_LOSSES, bits 31..16 at 0x040 of the CLK page (R575). -/
def R.CLK.ROOT_STATUS_LOCK_LOSSES : Fld := ⟨0x1, 0x040, 16, 16⟩
/-- REF_FREQ.HZ, bits 31..0 at 0x044 of the CLK page (R575). -/
def R.CLK.REF_FREQ_HZ : Fld := ⟨0x1, 0x044, 0, 32⟩
/-- DOMAINS.RUNNING, bits 4..0 at 0x048 of the CLK page (R575). -/
def R.CLK.DOMAINS_RUNNING : Fld := ⟨0x1, 0x048, 0, 5⟩
/-- OTP_STATUS.LIFECYCLE, bits 1..0 at 0x040 of the OTP page (R602). -/
def R.OTP.OTP_STATUS_LIFECYCLE : Fld := ⟨0x5, 0x040, 0, 2⟩
/-- OTP_STATUS.MAKER_GEN, bits 3..2 at 0x040 of the OTP page (R602). -/
def R.OTP.OTP_STATUS_MAKER_GEN : Fld := ⟨0x5, 0x040, 2, 2⟩
/-- OTP_STATUS.MAKER_VALID, bits 4..4 at 0x040 of the OTP page (R602). -/
def R.OTP.OTP_STATUS_MAKER_VALID : Fld := ⟨0x5, 0x040, 4, 1⟩
/-- OTP_STATUS.INST_GEN, bits 6..5 at 0x040 of the OTP page (R602). -/
def R.OTP.OTP_STATUS_INST_GEN : Fld := ⟨0x5, 0x040, 5, 2⟩
/-- OTP_STATUS.INST_VALID, bits 7..7 at 0x040 of the OTP page (R602). -/
def R.OTP.OTP_STATUS_INST_VALID : Fld := ⟨0x5, 0x040, 7, 1⟩
/-- OTP_STATUS.MAKER_USED, bits 10..8 at 0x040 of the OTP page (R602). -/
def R.OTP.OTP_STATUS_MAKER_USED : Fld := ⟨0x5, 0x040, 8, 3⟩
/-- OTP_STATUS.INST_USED, bits 13..11 at 0x040 of the OTP page (R602). -/
def R.OTP.OTP_STATUS_INST_USED : Fld := ⟨0x5, 0x040, 11, 3⟩
/-- OTP_STATUS.SEED_PENDING, bits 14..14 at 0x040 of the OTP page (R602). -/
def R.OTP.OTP_STATUS_SEED_PENDING : Fld := ⟨0x5, 0x040, 14, 1⟩
/-- OTP_STATUS.GEN_PENDING, bits 15..15 at 0x040 of the OTP page (R602). -/
def R.OTP.OTP_STATUS_GEN_PENDING : Fld := ⟨0x5, 0x040, 15, 1⟩
/-- INST_FLAGS.FLAGS, bits 31..0 at 0x044 of the OTP page (R602). -/
def R.OTP.INST_FLAGS_FLAGS : Fld := ⟨0x5, 0x044, 0, 32⟩
/-- SEED.LAYOUT_SEED, bits 63..0 at 0x048 of the OTP page (R602). -/
def R.OTP.SEED_LAYOUT_SEED : Fld := ⟨0x5, 0x048, 0, 64⟩
/-- BOOT_POLICY.POLICY, bits 31..0 at 0x050 of the OTP page (R602). -/
def R.OTP.BOOT_POLICY_POLICY : Fld := ⟨0x5, 0x050, 0, 32⟩
/-- AUTH_CTRL.STEP, bits 7..0 at 0x040 of the ROLE page (R602). -/
def R.ROLE.AUTH_CTRL_STEP : Fld := ⟨0x6, 0x040, 0, 8⟩
/-- AUTH_CTRL.ROLE, bits 9..8 at 0x040 of the ROLE page (R602). -/
def R.ROLE.AUTH_CTRL_ROLE : Fld := ⟨0x6, 0x040, 8, 2⟩
/-- AUTH_STATUS.RESULT, bits 1..0 at 0x044 of the ROLE page (R602). -/
def R.ROLE.AUTH_STATUS_RESULT : Fld := ⟨0x6, 0x044, 0, 2⟩
/-- AUTH_STATUS.WHY, bits 15..8 at 0x044 of the ROLE page (R602). -/
def R.ROLE.AUTH_STATUS_WHY : Fld := ⟨0x6, 0x044, 8, 8⟩
/-- AUTH_STATUS.LOCKOUT_S, bits 31..16 at 0x044 of the ROLE page (R602). -/
def R.ROLE.AUTH_STATUS_LOCKOUT_S : Fld := ⟨0x6, 0x044, 16, 16⟩
/-- IDLE_S.S, bits 15..0 at 0x048 of the ROLE page (R602). -/
def R.ROLE.IDLE_S_S : Fld := ⟨0x6, 0x048, 0, 16⟩
/-- HOLDERS.INST_ORIGIN, bits 2..0 at 0x04C of the ROLE page (R602). -/
def R.ROLE.HOLDERS_INST_ORIGIN : Fld := ⟨0x6, 0x04C, 0, 3⟩
/-- HOLDERS.INST_HELD, bits 3..3 at 0x04C of the ROLE page (R602). -/
def R.ROLE.HOLDERS_INST_HELD : Fld := ⟨0x6, 0x04C, 3, 1⟩
/-- HOLDERS.MAKER_ORIGIN, bits 6..4 at 0x04C of the ROLE page (R602). -/
def R.ROLE.HOLDERS_MAKER_ORIGIN : Fld := ⟨0x6, 0x04C, 4, 3⟩
/-- HOLDERS.MAKER_HELD, bits 7..7 at 0x04C of the ROLE page (R602). -/
def R.ROLE.HOLDERS_MAKER_HELD : Fld := ⟨0x6, 0x04C, 7, 1⟩
/-- CHALLENGE.BYTES, bits 31..0 at 0x080 + 4 * i of the ROLE page (R602). -/
def R.ROLE.CHALLENGE_BYTES (i : Nat) : Fld := ⟨0x6, 0x080 + 4 * i, 0, 32⟩
/-- RESPONSE.BYTES, bits 31..0 at 0x0C0 + 4 * i of the ROLE page (R602). -/
def R.ROLE.RESPONSE_BYTES (i : Nat) : Fld := ⟨0x6, 0x0C0 + 4 * i, 0, 32⟩
/-- NEWEST_SEQ.SEQ, bits 63..0 at 0x040 of the AUDIT page (R602). -/
def R.AUDIT.NEWEST_SEQ_SEQ : Fld := ⟨0x7, 0x040, 0, 64⟩
/-- OLDEST_SEQ.SEQ, bits 63..0 at 0x048 of the AUDIT page (R602). -/
def R.AUDIT.OLDEST_SEQ_SEQ : Fld := ⟨0x7, 0x048, 0, 64⟩
/-- HEAD.BYTES, bits 31..0 at 0x050 + 4 * i of the AUDIT page (R602). -/
def R.AUDIT.HEAD_BYTES (i : Nat) : Fld := ⟨0x7, 0x050 + 4 * i, 0, 32⟩
/-- GAPS.COUNT, bits 31..0 at 0x070 of the AUDIT page (R602). -/
def R.AUDIT.GAPS_COUNT : Fld := ⟨0x7, 0x070, 0, 32⟩
/-- CTRL.ARM, bits 0..0 at 0x040 of the PERTURB page (R602). -/
def R.PERTURB.CTRL_ARM : Fld := ⟨0x9, 0x040, 0, 1⟩
/-- CTRL.KILL, bits 1..1 at 0x040 of the PERTURB page (R602). -/
def R.PERTURB.CTRL_KILL : Fld := ⟨0x9, 0x040, 1, 1⟩
/-- ACTIVE.PROFILES, bits 14..0 at 0x044 of the PERTURB page (R602). -/
def R.PERTURB.ACTIVE_PROFILES : Fld := ⟨0x9, 0x044, 0, 15⟩
/-- EVENTS.COUNT, bits 31..0 at 0x048 of the PERTURB page (R602). -/
def R.PERTURB.EVENTS_COUNT : Fld := ⟨0x9, 0x048, 0, 32⟩
/-- PROFILE_A.KIND, bits 3..0 at 0x080 + 8 * (n - 1) of the PERTURB page (R602). -/
def R.PERTURB.PROFILE_A_KIND (n : Nat) : Fld := ⟨0x9, 0x080 + 8 * (n - 1), 0, 4⟩
/-- PROFILE_A.COUNT, bits 31..16 at 0x080 + 8 * (n - 1) of the PERTURB page (R602). -/
def R.PERTURB.PROFILE_A_COUNT (n : Nat) : Fld := ⟨0x9, 0x080 + 8 * (n - 1), 16, 16⟩
/-- PROFILE_B.MAGNITUDE, bits 15..0 at 0x084 + 8 * (n - 1) of the PERTURB page (R602). -/
def R.PERTURB.PROFILE_B_MAGNITUDE (n : Nat) : Fld := ⟨0x9, 0x084 + 8 * (n - 1), 0, 16⟩
/-- PROFILE_B.PERIOD_MS, bits 31..16 at 0x084 + 8 * (n - 1) of the PERTURB page (R602). -/
def R.PERTURB.PROFILE_B_PERIOD_MS (n : Nat) : Fld := ⟨0x9, 0x084 + 8 * (n - 1), 16, 16⟩
/-- RING_STATUS.UNREAD, bits 12..0 at 0x040 of the FAULT page (R621). -/
def R.FAULT.RING_STATUS_UNREAD : Fld := ⟨0x8, 0x040, 0, 13⟩
/-- RING_STATUS.FULL, bits 13..13 at 0x040 of the FAULT page (R621). -/
def R.FAULT.RING_STATUS_FULL : Fld := ⟨0x8, 0x040, 13, 1⟩
/-- LOST.COUNT, bits 31..0 at 0x044 of the FAULT page (R621). -/
def R.FAULT.LOST_COUNT : Fld := ⟨0x8, 0x044, 0, 32⟩
/-- FIRST_LOST.DTIME, bits 63..0 at 0x048 of the FAULT page (R621). -/
def R.FAULT.FIRST_LOST_DTIME : Fld := ⟨0x8, 0x048, 0, 64⟩
/-- CONSUME.COUNT, bits 12..0 at 0x050 of the FAULT page (R621). -/
def R.FAULT.CONSUME_COUNT : Fld := ⟨0x8, 0x050, 0, 13⟩
/-- AEN_SEV.MASK, bits 3..0 at 0x054 of the FAULT page (R621). -/
def R.FAULT.AEN_SEV_MASK : Fld := ⟨0x8, 0x054, 0, 4⟩
/-- SEV_COUNT.COUNT, bits 31..0 at 0x058 + 4 * s of the FAULT page (R621). -/
def R.FAULT.SEV_COUNT_COUNT (s : Nat) : Fld := ⟨0x8, 0x058 + 4 * s, 0, 32⟩
/-- NEWEST.BYTES, bits 31..0 at 0x070 + 4 * i of the FAULT page (R621). -/
def R.FAULT.NEWEST_BYTES (i : Nat) : Fld := ⟨0x8, 0x070 + 4 * i, 0, 32⟩
/-- OWNER.STATE, bits 1..0 at 0x040 + 4 * r of the SHARE page (R622). -/
def R.SHARE.OWNER_STATE (r : Nat) : Fld := ⟨0xA, 0x040 + 4 * r, 0, 2⟩
/-- OWNER.ORIGIN, bits 4..2 at 0x040 + 4 * r of the SHARE page (R622). -/
def R.SHARE.OWNER_ORIGIN (r : Nat) : Fld := ⟨0xA, 0x040 + 4 * r, 2, 3⟩
/-- OWNER.FUNC, bits 13..5 at 0x040 + 4 * r of the SHARE page (R622). -/
def R.SHARE.OWNER_FUNC (r : Nat) : Fld := ⟨0xA, 0x040 + 4 * r, 5, 9⟩
/-- OWNER.BLOCK, bits 21..14 at 0x040 + 4 * r of the SHARE page (R622). -/
def R.SHARE.OWNER_BLOCK (r : Nat) : Fld := ⟨0xA, 0x040 + 4 * r, 14, 8⟩
/-- CLAIM.RESOURCE, bits 2..0 at 0x060 of the SHARE page (R622). -/
def R.SHARE.CLAIM_RESOURCE : Fld := ⟨0xA, 0x060, 0, 3⟩
/-- CLAIM.ACTION, bits 4..3 at 0x060 of the SHARE page (R622). -/
def R.SHARE.CLAIM_ACTION : Fld := ⟨0xA, 0x060, 3, 2⟩
/-- CLAIM.BLOCK, bits 12..5 at 0x060 of the SHARE page (R622). -/
def R.SHARE.CLAIM_BLOCK : Fld := ⟨0xA, 0x060, 5, 8⟩
/-- CLAIM_STATUS.RESULT, bits 1..0 at 0x064 of the SHARE page (R622). -/
def R.SHARE.CLAIM_STATUS_RESULT : Fld := ⟨0xA, 0x064, 0, 2⟩
/-- GPIO.LEVEL, bits 0..0 at 0x068 of the SHARE page (R622). -/
def R.SHARE.GPIO_LEVEL : Fld := ⟨0xA, 0x068, 0, 1⟩
/-- IDENT.STEPPING, bits 7..0 at 0x040 of the DEV page (R634). -/
def R.DEV.IDENT_STEPPING : Fld := ⟨0x0, 0x040, 0, 8⟩
/-- IDENT.GRADE, bits 8..8 at 0x040 of the DEV page (R634). -/
def R.DEV.IDENT_GRADE : Fld := ⟨0x0, 0x040, 8, 1⟩
/-- IDENT.PART, bits 31..16 at 0x040 of the DEV page (R634). -/
def R.DEV.IDENT_PART : Fld := ⟨0x0, 0x040, 16, 16⟩
/-- SERIAL.BYTES, bits 31..0 at 0x044 + 4 * i of the DEV page (R634). -/
def R.DEV.SERIAL_BYTES (i : Nat) : Fld := ⟨0x0, 0x044 + 4 * i, 0, 32⟩
/-- TEMP.TJ, bits 11..0 at 0x054 of the DEV page (R634). -/
def R.DEV.TEMP_TJ : Fld := ⟨0x0, 0x054, 0, 12⟩
/-- TEMP.SENSOR, bits 15..12 at 0x054 of the DEV page (R634). -/
def R.DEV.TEMP_SENSOR : Fld := ⟨0x0, 0x054, 12, 4⟩
/-- TEMP_PEAK.TJ, bits 11..0 at 0x058 of the DEV page (R634). -/
def R.DEV.TEMP_PEAK_TJ : Fld := ⟨0x0, 0x058, 0, 12⟩
/-- THERMAL_CTRL.THROTTLE_C, bits 6..0 at 0x05C of the DEV page (R634). -/
def R.DEV.THERMAL_CTRL_THROTTLE_C : Fld := ⟨0x0, 0x05C, 0, 7⟩
/-- THERMAL_STATUS.STAGE, bits 1..0 at 0x060 of the DEV page (R634). -/
def R.DEV.THERMAL_STATUS_STAGE : Fld := ⟨0x0, 0x060, 0, 2⟩
/-- THROTTLE_MS.MS, bits 31..0 at 0x064 of the DEV page (R634). -/
def R.DEV.THROTTLE_MS_MS : Fld := ⟨0x0, 0x064, 0, 32⟩
/-- WINDOW.PAGE, bits 8..0 at 0x044 + 4 * (k - 1) of the VF page (R35). -/
def R.VF.WINDOW_PAGE (p : Nat) (k : Nat) : Fld := ⟨0x1000 + p, 0x044 + 4 * (k - 1), 0, 9⟩
/-- WINDOW.VALID, bits 15..15 at 0x044 + 4 * (k - 1) of the VF page (R35). -/
def R.VF.WINDOW_VALID (p : Nat) (k : Nat) : Fld := ⟨0x1000 + p, 0x044 + 4 * (k - 1), 15, 1⟩
/-- VF_ID.FUNC, bits 8..0 at 0x040 of the VF page (R35). -/
def R.VF.VF_ID_FUNC (p : Nat)  : Fld := ⟨0x1000 + p, 0x040, 0, 9⟩

/-- Error code DEV_THERMAL_THROTTLE, severity NOTE. -/
def E.DEV_THERMAL_THROTTLE : Nat := 0x0110
/-- Error code DEV_THERMAL_HIGH, severity DEGRADED. -/
def E.DEV_THERMAL_HIGH : Nat := 0x0111
/-- Error code DEV_THERMAL_SHUTDOWN, severity FATAL. -/
def E.DEV_THERMAL_SHUTDOWN : Nat := 0x0112
/-- Error code CLK_LOCK_LOST, severity FATAL. -/
def E.CLK_LOCK_LOST : Nat := 0x0210
/-- Error code PWR_ENTRY_REFUSED, severity NOTE. -/
def E.PWR_ENTRY_REFUSED : Nat := 0x0310
/-- Error code PWR_ENTRY_ABORTED, severity DEGRADED. -/
def E.PWR_ENTRY_ABORTED : Nat := 0x0311
/-- Error code PWR_SAFE_ENTERED, severity CONTAINED. -/
def E.PWR_SAFE_ENTERED : Nat := 0x0312
/-- Error code PWR_WATCHDOG, severity DEGRADED. -/
def E.PWR_WATCHDOG : Nat := 0x0313
/-- Error code PWR_BOOT_FALLBACK, severity DEGRADED. -/
def E.PWR_BOOT_FALLBACK : Nat := 0x0314
/-- Error code PWR_BOOT_FAIL, severity FATAL. -/
def E.PWR_BOOT_FAIL : Nat := 0x0315
/-- Error code PWR_WAKE_FAIL, severity DEGRADED. -/
def E.PWR_WAKE_FAIL : Nat := 0x0316
/-- Error code VREG_NO_ACK, severity DEGRADED. -/
def E.VREG_NO_ACK : Nat := 0x0410
/-- Error code VREG_FAULT, severity DEGRADED. -/
def E.VREG_FAULT : Nat := 0x0411
/-- Error code VREG_UNSUPPORTED, severity DEGRADED. -/
def E.VREG_UNSUPPORTED : Nat := 0x0412
/-- Error code VREG_BUSY, severity NOTE. -/
def E.VREG_BUSY : Nat := 0x0413
/-- Error code RTC_OSC_FAIL, severity DEGRADED. -/
def E.RTC_OSC_FAIL : Nat := 0x0510
/-- Error code OTP_GEN_BAD, severity DEGRADED. -/
def E.OTP_GEN_BAD : Nat := 0x0610
/-- Error code OTP_EXHAUSTED, severity NOTE. -/
def E.OTP_EXHAUSTED : Nat := 0x0611
/-- Error code OTP_PROGRAM_FAIL, severity DEGRADED. -/
def E.OTP_PROGRAM_FAIL : Nat := 0x0612
/-- Error code OTP_IMAGE_BAD, severity NOTE. -/
def E.OTP_IMAGE_BAD : Nat := 0x0613
/-- Error code ROLE_AUTH_FAIL, severity NOTE. -/
def E.ROLE_AUTH_FAIL : Nat := 0x0710
/-- Error code ROLE_LOCKOUT, severity DEGRADED. -/
def E.ROLE_LOCKOUT : Nat := 0x0711
/-- Error code ROLE_HELD, severity NOTE. -/
def E.ROLE_HELD : Nat := 0x0712
/-- Error code FAULT_RING_OVERFLOW, severity DEGRADED. -/
def E.FAULT_RING_OVERFLOW : Nat := 0x0810
/-- Error code FAULT_COMMAND_ERROR, severity NOTE. -/
def E.FAULT_COMMAND_ERROR : Nat := 0x0811
/-- Error code AUDIT_GAP, severity DEGRADED. -/
def E.AUDIT_GAP : Nat := 0x0910
/-- Error code AUDIT_CHAIN_BAD, severity CONTAINED. -/
def E.AUDIT_CHAIN_BAD : Nat := 0x0911
/-- Error code PERTURB_BUSY, severity NOTE. -/
def E.PERTURB_BUSY : Nat := 0x0A10
/-- Error code SHARE_HELD, severity NOTE. -/
def E.SHARE_HELD : Nat := 0x0B10
/-- Error code SHARE_NOT_ALLOWED, severity NOTE. -/
def E.SHARE_NOT_ALLOWED : Nat := 0x0B11
/-- Error code GATE_FRAME_SHORT, severity NOTE. -/
def E.GATE_FRAME_SHORT : Nat := 0x1010
/-- Error code GATE_FRAME_LONG, severity NOTE. -/
def E.GATE_FRAME_LONG : Nat := 0x1011
/-- Error code GATE_NO_TAKE, severity NOTE. -/
def E.GATE_NO_TAKE : Nat := 0x1012
/-- Error code GATE_NO_FRAME, severity NOTE. -/
def E.GATE_NO_FRAME : Nat := 0x1013
/-- Error code GATE_BAD_FORMAT, severity NOTE. -/
def E.GATE_BAD_FORMAT : Nat := 0x1014
/-- Error code GATE_FRAME_OFFSET, severity DEGRADED. -/
def E.GATE_FRAME_OFFSET : Nat := 0x1015
/-- Error code GATE_SENSOR_CRC, severity DEGRADED. -/
def E.GATE_SENSOR_CRC : Nat := 0x1016
/-- Error code GATE_META_LONG, severity NOTE. -/
def E.GATE_META_LONG : Nat := 0x1017
/-- Error code GATE_FRAME_ORDER, severity NOTE. -/
def E.GATE_FRAME_ORDER : Nat := 0x1018
/-- Error code GATE_END_MISSING, severity NOTE. -/
def E.GATE_END_MISSING : Nat := 0x1019
/-- Error code GATE_LANE_LOST, severity DEGRADED. -/
def E.GATE_LANE_LOST : Nat := 0x101A
/-- Error code GATE_LINK_DOWN, severity CONTAINED. -/
def E.GATE_LINK_DOWN : Nat := 0x101B
/-- Error code GATE_TRAIN_FAIL, severity CONTAINED. -/
def E.GATE_TRAIN_FAIL : Nat := 0x101C
/-- Error code GATE_REPLAY_LIMIT, severity DEGRADED. -/
def E.GATE_REPLAY_LIMIT : Nat := 0x101D
/-- Error code GATE_CREDIT_OVERRUN, severity DEGRADED. -/
def E.GATE_CREDIT_OVERRUN : Nat := 0x101E
/-- Error code GATE_BAD_PACKET, severity NOTE. -/
def E.GATE_BAD_PACKET : Nat := 0x101F
/-- Error code GATE_TUNNEL_RIGHTS, severity NOTE. -/
def E.GATE_TUNNEL_RIGHTS : Nat := 0x1020
/-- Error code GATE_BUSY, severity NOTE. -/
def E.GATE_BUSY : Nat := 0x1021
/-- Error code TAKE_CONTRACT_REFUSED, severity NOTE. -/
def E.TAKE_CONTRACT_REFUSED : Nat := 0x1110
/-- Error code TAKE_CONTRACT_REDUCED, severity NOTE. -/
def E.TAKE_CONTRACT_REDUCED : Nat := 0x1111
/-- Error code TAKE_RATE_BREACH, severity DEGRADED. -/
def E.TAKE_RATE_BREACH : Nat := 0x1112
/-- Error code TAKE_RATIO_LOW, severity NOTE. -/
def E.TAKE_RATIO_LOW : Nat := 0x1113
/-- Error code TAKE_RECOMPUTED, severity DEGRADED. -/
def E.TAKE_RECOMPUTED : Nat := 0x1114
/-- Error code TAKE_CLOSED_MEDIA_EXHAUSTED, severity CONTAINED. -/
def E.TAKE_CLOSED_MEDIA_EXHAUSTED : Nat := 0x1115
/-- Error code TAKE_POWER_FAIL, severity CONTAINED. -/
def E.TAKE_POWER_FAIL : Nat := 0x1116
/-- Error code TAKE_HOLDUP_SHORT, severity CONTAINED. -/
def E.TAKE_HOLDUP_SHORT : Nat := 0x1117
/-- Error code TAKE_LINK_LOST, severity CONTAINED. -/
def E.TAKE_LINK_LOST : Nat := 0x1118
/-- Error code TAKE_FRAME_UNSECURABLE, severity CONTAINED. -/
def E.TAKE_FRAME_UNSECURABLE : Nat := 0x1119
/-- Error code TAKE_BUSY, severity NOTE. -/
def E.TAKE_BUSY : Nat := 0x111A
/-- Error code TRIG_NO_RING, severity NOTE. -/
def E.TRIG_NO_RING : Nat := 0x1310
/-- Error code TRIG_WINDOWS_FULL, severity DEGRADED. -/
def E.TRIG_WINDOWS_FULL : Nat := 0x1311
/-- Error code TRIG_BAD_WINDOW, severity NOTE. -/
def E.TRIG_BAD_WINDOW : Nat := 0x1312
/-- Error code TRIG_PRE_SHORT, severity NOTE. -/
def E.TRIG_PRE_SHORT : Nat := 0x1313
/-- Error code TRIG_WINDOW_CUT, severity DEGRADED. -/
def E.TRIG_WINDOW_CUT : Nat := 0x1314
/-- Error code TRIG_LATE_FRAME, severity NOTE. -/
def E.TRIG_LATE_FRAME : Nat := 0x1315
/-- Error code TRIG_PIN_UNOWNED, severity NOTE. -/
def E.TRIG_PIN_UNOWNED : Nat := 0x1316
/-- Error code TRIG_RING_SHRUNK, severity DEGRADED. -/
def E.TRIG_RING_SHRUNK : Nat := 0x1317
/-- Error code SHEARS_VERIFY_MISMATCH, severity DEGRADED. -/
def E.SHEARS_VERIFY_MISMATCH : Nat := 0x1810
/-- Error code SHEARS_VERIFY_FATAL, severity CONTAINED. -/
def E.SHEARS_VERIFY_FATAL : Nat := 0x1811
/-- Error code SHEARS_OUT_OF_SPACE, severity NOTE. -/
def E.SHEARS_OUT_OF_SPACE : Nat := 0x1812
/-- Error code SHEARS_BAD_DESCRIPTOR, severity NOTE. -/
def E.SHEARS_BAD_DESCRIPTOR : Nat := 0x1813
/-- Error code SHEARS_BAD_STREAM, severity NOTE. -/
def E.SHEARS_BAD_STREAM : Nat := 0x1814
/-- Error code SHEARS_CHECK_MISMATCH, severity NOTE. -/
def E.SHEARS_CHECK_MISMATCH : Nat := 0x1815
/-- Error code SHEARS_LANE_RETIRED, severity DEGRADED. -/
def E.SHEARS_LANE_RETIRED : Nat := 0x1816
/-- Error code SHEARS_NO_LANE, severity CONTAINED. -/
def E.SHEARS_NO_LANE : Nat := 0x1817
/-- Error code SHEARS_ABORTED, severity NOTE. -/
def E.SHEARS_ABORTED : Nat := 0x1818
/-- Error code SHEARS_XLATE_FAULT, severity NOTE. -/
def E.SHEARS_XLATE_FAULT : Nat := 0x1819
/-- Error code SHEARS_BUSY, severity NOTE. -/
def E.SHEARS_BUSY : Nat := 0x181A
/-- Error code CIPHER_LENGTH_SHORT, severity NOTE. -/
def E.CIPHER_LENGTH_SHORT : Nat := 0x2010
/-- Error code CIPHER_LENGTH_OVER, severity NOTE. -/
def E.CIPHER_LENGTH_OVER : Nat := 0x2011
/-- Error code CIPHER_LENGTH_UNDER, severity NOTE. -/
def E.CIPHER_LENGTH_UNDER : Nat := 0x2012
/-- Error code CIPHER_TAG_MISMATCH, severity NOTE. -/
def E.CIPHER_TAG_MISMATCH : Nat := 0x2013
/-- Error code CIPHER_BAD_DESCRIPTOR, severity NOTE. -/
def E.CIPHER_BAD_DESCRIPTOR : Nat := 0x2014
/-- Error code CIPHER_CONTEXT_BUSY, severity NOTE. -/
def E.CIPHER_CONTEXT_BUSY : Nat := 0x2015
/-- Error code CIPHER_PIPE_RETIRED, severity DEGRADED. -/
def E.CIPHER_PIPE_RETIRED : Nat := 0x2016
/-- Error code CIPHER_MASK_STALL, severity NOTE. -/
def E.CIPHER_MASK_STALL : Nat := 0x2017
/-- Error code CIPHER_XLATE_FAULT, severity NOTE. -/
def E.CIPHER_XLATE_FAULT : Nat := 0x2018
/-- Error code CIPHER_ABORTED, severity NOTE. -/
def E.CIPHER_ABORTED : Nat := 0x2019
/-- Error code KEYENG_BUSY, severity NOTE. -/
def E.KEYENG_BUSY : Nat := 0x2110
/-- Error code KEYENG_BAD_DESCRIPTOR, severity NOTE. -/
def E.KEYENG_BAD_DESCRIPTOR : Nat := 0x2111
/-- Error code KEYENG_UNWRAP_FAIL, severity NOTE. -/
def E.KEYENG_UNWRAP_FAIL : Nat := 0x2112
/-- Error code KEYENG_SLOT_DENIED, severity NOTE. -/
def E.KEYENG_SLOT_DENIED : Nat := 0x2113
/-- Error code KEYENG_ALARM, severity CONTAINED. -/
def E.KEYENG_ALARM : Nat := 0x2114
/-- Error code KEYENG_ALARM_ACTIVE, severity NOTE. -/
def E.KEYENG_ALARM_ACTIVE : Nat := 0x2115
/-- Error code DIGEST_MISMATCH, severity NOTE. -/
def E.DIGEST_MISMATCH : Nat := 0x2210
/-- Error code DIGEST_VERDICT_FAULT, severity CONTAINED. -/
def E.DIGEST_VERDICT_FAULT : Nat := 0x2211
/-- Error code DIGEST_BAD_DESCRIPTOR, severity NOTE. -/
def E.DIGEST_BAD_DESCRIPTOR : Nat := 0x2212
/-- Error code DIGEST_HELD, severity NOTE. -/
def E.DIGEST_HELD : Nat := 0x2213
/-- Error code DIGEST_UNIT_RETIRED, severity DEGRADED. -/
def E.DIGEST_UNIT_RETIRED : Nat := 0x2214
/-- Error code DIGEST_XLATE_FAULT, severity NOTE. -/
def E.DIGEST_XLATE_FAULT : Nat := 0x2215
/-- Error code ENTROPY_HEALTH_FAIL, severity CONTAINED. -/
def E.ENTROPY_HEALTH_FAIL : Nat := 0x2310
/-- Error code ENTROPY_FAILED, severity FATAL. -/
def E.ENTROPY_FAILED : Nat := 0x2311
/-- Error code EARMARK_BAD_DESCRIPTOR, severity NOTE. -/
def E.EARMARK_BAD_DESCRIPTOR : Nat := 0x2810
/-- Error code EARMARK_TABLE_DENIED, severity NOTE. -/
def E.EARMARK_TABLE_DENIED : Nat := 0x2811
/-- Error code EARMARK_XLATE_FAULT, severity NOTE. -/
def E.EARMARK_XLATE_FAULT : Nat := 0x2812
/-- Error code EARMARK_SCRUB_REPAIR, severity NOTE. -/
def E.EARMARK_SCRUB_REPAIR : Nat := 0x2813
/-- Error code EARMARK_CHECK_REPAIR, severity NOTE. -/
def E.EARMARK_CHECK_REPAIR : Nat := 0x2814
/-- Error code EARMARK_SHADOW_LOST, severity DEGRADED. -/
def E.EARMARK_SHADOW_LOST : Nat := 0x2815
/-- Error code EARMARK_BANK_RETIRED, severity DEGRADED. -/
def E.EARMARK_BANK_RETIRED : Nat := 0x2816
/-- Error code EARMARK_ABORTED, severity NOTE. -/
def E.EARMARK_ABORTED : Nat := 0x2817
/-- Error code EARMARK_CONFIG_REFUSED, severity NOTE. -/
def E.EARMARK_CONFIG_REFUSED : Nat := 0x2818
/-- Error code MEDIA_BLOCK_RETIRED, severity NOTE. -/
def E.MEDIA_BLOCK_RETIRED : Nat := 0x3010
/-- Error code MEDIA_SPARE_CONVERTED, severity DEGRADED. -/
def E.MEDIA_SPARE_CONVERTED : Nat := 0x3011
/-- Error code MEDIA_SPARES_EXHAUSTED, severity CONTAINED. -/
def E.MEDIA_SPARES_EXHAUSTED : Nat := 0x3012
/-- Error code MEDIA_CAPACITY_FULL, severity CONTAINED. -/
def E.MEDIA_CAPACITY_FULL : Nat := 0x3013
/-- Error code MEDIA_REPLAY, severity NOTE. -/
def E.MEDIA_REPLAY : Nat := 0x3014
/-- Error code MEDIA_CKPT_FALLBACK, severity DEGRADED. -/
def E.MEDIA_CKPT_FALLBACK : Nat := 0x3015
/-- Error code MEDIA_MAP_RELOAD, severity DEGRADED. -/
def E.MEDIA_MAP_RELOAD : Nat := 0x3016
/-- Error code MEDIA_REFRESH_STARVED, severity DEGRADED. -/
def E.MEDIA_REFRESH_STARVED : Nat := 0x3017
/-- Error code MEDIA_MAP_PAGED, severity DEGRADED. -/
def E.MEDIA_MAP_PAGED : Nat := 0x3018
/-- Error code MEDIA_BUSY, severity NOTE. -/
def E.MEDIA_BUSY : Nat := 0x3019
/-- Error code FALLOW_POOL_EMPTY, severity DEGRADED. -/
def E.FALLOW_POOL_EMPTY : Nat := 0x3110
/-- Error code ARRAY_MEMBER_LOST, severity DEGRADED. -/
def E.ARRAY_MEMBER_LOST : Nat := 0x3210
/-- Error code ARRAY_CRITICAL, severity DEGRADED. -/
def E.ARRAY_CRITICAL : Nat := 0x3211
/-- Error code ARRAY_OFFLINE, severity FATAL. -/
def E.ARRAY_OFFLINE : Nat := 0x3212
/-- Error code ARRAY_RESYNC, severity NOTE. -/
def E.ARRAY_RESYNC : Nat := 0x3213
/-- Error code ARRAY_WRITE_HOLE, severity CONTAINED. -/
def E.ARRAY_WRITE_HOLE : Nat := 0x3214
/-- Error code ARRAY_RECONSTRUCTED, severity NOTE. -/
def E.ARRAY_RECONSTRUCTED : Nat := 0x3215
/-- Error code ARRAY_NO_REPLACEMENT, severity DEGRADED. -/
def E.ARRAY_NO_REPLACEMENT : Nat := 0x3216
/-- Error code ARRAY_RESHAPE_DONE, severity NOTE. -/
def E.ARRAY_RESHAPE_DONE : Nat := 0x3217
/-- Error code ARRAY_BUSY, severity NOTE. -/
def E.ARRAY_BUSY : Nat := 0x3218
/-- Error code ARRAY_NO_ROOM, severity NOTE. -/
def E.ARRAY_NO_ROOM : Nat := 0x3219
/-- Error code ARRAY_JOURNAL_DIE, severity NOTE. -/
def E.ARRAY_JOURNAL_DIE : Nat := 0x321A
/-- Error code NAND_TRAIN_FAIL, severity DEGRADED. -/
def E.NAND_TRAIN_FAIL : Nat := 0x3810
/-- Error code NAND_PWR_FAULT, severity DEGRADED. -/
def E.NAND_PWR_FAULT : Nat := 0x3811
/-- Error code NAND_DIE_TIMEOUT, severity DEGRADED. -/
def E.NAND_DIE_TIMEOUT : Nat := 0x3812
/-- Error code NAND_UNCORRECTABLE, severity DEGRADED. -/
def E.NAND_UNCORRECTABLE : Nat := 0x3813
/-- Error code NAND_PROGRAM_FAIL, severity NOTE. -/
def E.NAND_PROGRAM_FAIL : Nat := 0x3814
/-- Error code NAND_ERASE_FAIL, severity NOTE. -/
def E.NAND_ERASE_FAIL : Nat := 0x3815
/-- Error code NAND_PART_MISMATCH, severity FATAL. -/
def E.NAND_PART_MISMATCH : Nat := 0x3816
/-- Error code NAND_BUSY, severity NOTE. -/
def E.NAND_BUSY : Nat := 0x3817
/-- Error code DRAM_UNSUPPORTED, severity FATAL. -/
def E.DRAM_UNSUPPORTED : Nat := 0x4010
/-- Error code DRAM_TRAIN_FAIL, severity DEGRADED. -/
def E.DRAM_TRAIN_FAIL : Nat := 0x4011
/-- Error code DRAM_CA_REPLAY, severity NOTE. -/
def E.DRAM_CA_REPLAY : Nat := 0x4012
/-- Error code DRAM_CHANNEL_RETIRED, severity DEGRADED. -/
def E.DRAM_CHANNEL_RETIRED : Nat := 0x4013
/-- Error code DRAM_UNCORRECTABLE, severity DEGRADED. -/
def E.DRAM_UNCORRECTABLE : Nat := 0x4014
/-- Error code DRAM_DATA_LOST, severity CONTAINED. -/
def E.DRAM_DATA_LOST : Nat := 0x4015
/-- Error code DRAM_TOO_FEW, severity FATAL. -/
def E.DRAM_TOO_FEW : Nat := 0x4016
/-- Error code DRAM_BUSY, severity NOTE. -/
def E.DRAM_BUSY : Nat := 0x4017
/-- Error code HOSTQ_QUEUE_FROZEN, severity NOTE. -/
def E.HOSTQ_QUEUE_FROZEN : Nat := 0x4810
/-- Error code HOSTQ_LOCKS_FULL, severity NOTE. -/
def E.HOSTQ_LOCKS_FULL : Nat := 0x4811
/-- Error code HOSTQ_THAW_REFUSED, severity NOTE. -/
def E.HOSTQ_THAW_REFUSED : Nat := 0x4812
/-- Error code HOSTQ_LINK_DEGRADED, severity DEGRADED. -/
def E.HOSTQ_LINK_DEGRADED : Nat := 0x4813
/-- Error code HOSTQ_LINK_DOWN, severity CONTAINED. -/
def E.HOSTQ_LINK_DOWN : Nat := 0x4814
/-- Error code HOSTQ_BAD_DOORBELL, severity NOTE. -/
def E.HOSTQ_BAD_DOORBELL : Nat := 0x4815
/-- Error code TENANT_PROFILE_REFUSED, severity NOTE. -/
def E.TENANT_PROFILE_REFUSED : Nat := 0x4910
/-- Error code TENANT_RESET, severity NOTE. -/
def E.TENANT_RESET : Nat := 0x4911
/-- Error code TENANT_CORE_WITHDRAWN, severity DEGRADED. -/
def E.TENANT_CORE_WITHDRAWN : Nat := 0x4912
/-- Error code TENANT_BANK_WITHDRAWN, severity DEGRADED. -/
def E.TENANT_BANK_WITHDRAWN : Nat := 0x4913
/-- Error code XLATE_FAULT, severity NOTE. -/
def E.XLATE_FAULT : Nat := 0x4A10
/-- Error code XLATE_TABLE_FULL, severity DEGRADED. -/
def E.XLATE_TABLE_FULL : Nat := 0x4A11
/-- Error code DROVE_LINK_DOWN, severity DEGRADED. -/
def E.DROVE_LINK_DOWN : Nat := 0x5010
/-- Error code DROVE_FOREIGN, severity NOTE. -/
def E.DROVE_FOREIGN : Nat := 0x5011
/-- Error code DROVE_LOOPBACK, severity NOTE. -/
def E.DROVE_LOOPBACK : Nat := 0x5012
/-- Error code DROVE_TOO_MANY, severity NOTE. -/
def E.DROVE_TOO_MANY : Nat := 0x5013
/-- Error code DROVE_SWAPPED, severity NOTE. -/
def E.DROVE_SWAPPED : Nat := 0x5014
/-- Error code DROVE_LINE, severity DEGRADED. -/
def E.DROVE_LINE : Nat := 0x5015
/-- Error code DROVE_ROLE_CONFLICT, severity DEGRADED. -/
def E.DROVE_ROLE_CONFLICT : Nat := 0x5016
/-- Error code DROVE_MIRROR_VERSION, severity DEGRADED. -/
def E.DROVE_MIRROR_VERSION : Nat := 0x5017
/-- Error code DROVE_FAILOVER, severity DEGRADED. -/
def E.DROVE_FAILOVER : Nat := 0x5018
/-- Error code DROVE_NO_QUORUM, severity CONTAINED. -/
def E.DROVE_NO_QUORUM : Nat := 0x5019
/-- Error code DROVE_QUORUM_REGAINED, severity NOTE. -/
def E.DROVE_QUORUM_REGAINED : Nat := 0x501A
/-- Error code DROVE_TIME_FAULT, severity DEGRADED. -/
def E.DROVE_TIME_FAULT : Nat := 0x501B
/-- Error code DROVE_START_LOST, severity CONTAINED. -/
def E.DROVE_START_LOST : Nat := 0x501C
/-- Error code DROVE_BUSY, severity NOTE. -/
def E.DROVE_BUSY : Nat := 0x501D
/-- Error code DROVE_BAD_PACKET, severity NOTE. -/
def E.DROVE_BAD_PACKET : Nat := 0x501E
/-- Error code CROOK_PROGRAM_STOPPED, severity NOTE. -/
def E.CROOK_PROGRAM_STOPPED : Nat := 0x5810
/-- Error code CROOK_DOUBLE_TRAP, severity CONTAINED. -/
def E.CROOK_DOUBLE_TRAP : Nat := 0x5811
/-- Error code CROOK_ECC_UNCORRECTED, severity DEGRADED. -/
def E.CROOK_ECC_UNCORRECTED : Nat := 0x5812
/-- Error code CROOK_CORE_RETIRED, severity DEGRADED. -/
def E.CROOK_CORE_RETIRED : Nat := 0x5813
/-- Error code CROOK_IMAGE_BAD, severity NOTE. -/
def E.CROOK_IMAGE_BAD : Nat := 0x5814
/-- Error code CROOK_TABLE_MISMATCH, severity NOTE. -/
def E.CROOK_TABLE_MISMATCH : Nat := 0x5815
/-- Error code CROOK_UPDATE_REFUSED, severity NOTE. -/
def E.CROOK_UPDATE_REFUSED : Nat := 0x5816
/-- Error code CROOK_UPDATE_ROLLBACK, severity DEGRADED. -/
def E.CROOK_UPDATE_ROLLBACK : Nat := 0x5817
/-- Error code CROOK_BUSY, severity NOTE. -/
def E.CROOK_BUSY : Nat := 0x5818
/-- Error code MICROCODE_IMAGE_BAD, severity NOTE. -/
def E.MICROCODE_IMAGE_BAD : Nat := 0x5910
/-- Error code MICROCODE_FINGERPRINT, severity NOTE. -/
def E.MICROCODE_FINGERPRINT : Nat := 0x5911
/-- Error code MICROCODE_BUSY, severity NOTE. -/
def E.MICROCODE_BUSY : Nat := 0x5912
/-- Error code MICROCODE_WRITE_FAIL, severity DEGRADED. -/
def E.MICROCODE_WRITE_FAIL : Nat := 0x5913
/-- Error code MICROCODE_MC_LONG, severity NOTE. -/
def E.MICROCODE_MC_LONG : Nat := 0x5914
/-- Error code MICROCODE_MC_STACK, severity NOTE. -/
def E.MICROCODE_MC_STACK : Nat := 0x5915
/-- Error code MICROCODE_PROGRAMS_STOPPED, severity NOTE. -/
def E.MICROCODE_PROGRAMS_STOPPED : Nat := 0x5916

/-- The severity of each error code (R605, and the chapter tables). The common conditions 0x01-0x05 are NOTE (R49). -/
def severityTable : List (Nat × Nat) :=
  [(0x0110, 0), (0x0111, 1), (0x0112, 3), (0x0210, 3), (0x0310, 0), (0x0311, 1), (0x0312, 2), (0x0313, 1),
   (0x0314, 1), (0x0315, 3), (0x0316, 1), (0x0410, 1), (0x0411, 1), (0x0412, 1), (0x0413, 0), (0x0510, 1),
   (0x0610, 1), (0x0611, 0), (0x0612, 1), (0x0613, 0), (0x0710, 0), (0x0711, 1), (0x0712, 0), (0x0810, 1),
   (0x0811, 0), (0x0910, 1), (0x0911, 2), (0x0A10, 0), (0x0B10, 0), (0x0B11, 0), (0x1010, 0), (0x1011, 0),
   (0x1012, 0), (0x1013, 0), (0x1014, 0), (0x1015, 1), (0x1016, 1), (0x1017, 0), (0x1018, 0), (0x1019, 0),
   (0x101A, 1), (0x101B, 2), (0x101C, 2), (0x101D, 1), (0x101E, 1), (0x101F, 0), (0x1020, 0), (0x1021, 0),
   (0x1110, 0), (0x1111, 0), (0x1112, 1), (0x1113, 0), (0x1114, 1), (0x1115, 2), (0x1116, 2), (0x1117, 2),
   (0x1118, 2), (0x1119, 2), (0x111A, 0), (0x1310, 0), (0x1311, 1), (0x1312, 0), (0x1313, 0), (0x1314, 1),
   (0x1315, 0), (0x1316, 0), (0x1317, 1), (0x1810, 1), (0x1811, 2), (0x1812, 0), (0x1813, 0), (0x1814, 0),
   (0x1815, 0), (0x1816, 1), (0x1817, 2), (0x1818, 0), (0x1819, 0), (0x181A, 0), (0x2010, 0), (0x2011, 0),
   (0x2012, 0), (0x2013, 0), (0x2014, 0), (0x2015, 0), (0x2016, 1), (0x2017, 0), (0x2018, 0), (0x2019, 0),
   (0x2110, 0), (0x2111, 0), (0x2112, 0), (0x2113, 0), (0x2114, 2), (0x2115, 0), (0x2210, 0), (0x2211, 2),
   (0x2212, 0), (0x2213, 0), (0x2214, 1), (0x2215, 0), (0x2310, 2), (0x2311, 3), (0x2810, 0), (0x2811, 0),
   (0x2812, 0), (0x2813, 0), (0x2814, 0), (0x2815, 1), (0x2816, 1), (0x2817, 0), (0x2818, 0), (0x3010, 0),
   (0x3011, 1), (0x3012, 2), (0x3013, 2), (0x3014, 0), (0x3015, 1), (0x3016, 1), (0x3017, 1), (0x3018, 1),
   (0x3019, 0), (0x3110, 1), (0x3210, 1), (0x3211, 1), (0x3212, 3), (0x3213, 0), (0x3214, 2), (0x3215, 0),
   (0x3216, 1), (0x3217, 0), (0x3218, 0), (0x3219, 0), (0x321A, 0), (0x3810, 1), (0x3811, 1), (0x3812, 1),
   (0x3813, 1), (0x3814, 0), (0x3815, 0), (0x3816, 3), (0x3817, 0), (0x4010, 3), (0x4011, 1), (0x4012, 0),
   (0x4013, 1), (0x4014, 1), (0x4015, 2), (0x4016, 3), (0x4017, 0), (0x4810, 0), (0x4811, 0), (0x4812, 0),
   (0x4813, 1), (0x4814, 2), (0x4815, 0), (0x4910, 0), (0x4911, 0), (0x4912, 1), (0x4913, 1), (0x4A10, 0),
   (0x4A11, 1), (0x5010, 1), (0x5011, 0), (0x5012, 0), (0x5013, 0), (0x5014, 0), (0x5015, 1), (0x5016, 1),
   (0x5017, 1), (0x5018, 1), (0x5019, 2), (0x501A, 0), (0x501B, 1), (0x501C, 2), (0x501D, 0), (0x501E, 0),
   (0x5810, 0), (0x5811, 2), (0x5812, 1), (0x5813, 1), (0x5814, 0), (0x5815, 0), (0x5816, 0), (0x5817, 1),
   (0x5818, 0), (0x5910, 0), (0x5911, 0), (0x5912, 0), (0x5913, 1), (0x5914, 0), (0x5915, 0), (0x5916, 0)]

/-- EVENT bit 0 of the GATE page. -/
def Ev.GATE.LINK_UP : Nat := 0
/-- EVENT bit 1 of the GATE page. -/
def Ev.GATE.LINK_DOWN : Nat := 1
/-- EVENT bit 2 of the GATE page. -/
def Ev.GATE.LANE_LOST : Nat := 2
/-- EVENT bit 3 of the GATE page. -/
def Ev.GATE.FRAME_SHORT : Nat := 3
/-- EVENT bit 4 of the GATE page. -/
def Ev.GATE.FRAME_LONG : Nat := 4
/-- EVENT bit 5 of the GATE page. -/
def Ev.GATE.FRAME_REFUSED : Nat := 5
/-- EVENT bit 6 of the GATE page. -/
def Ev.GATE.FRAME_OFFSET : Nat := 6
/-- EVENT bit 7 of the GATE page. -/
def Ev.GATE.SENSOR_CRC : Nat := 7
/-- EVENT bit 8 of the GATE page. -/
def Ev.GATE.CREDITS_HELD : Nat := 8
/-- EVENT bit 9 of the GATE page. -/
def Ev.GATE.REPLAY_LIMIT : Nat := 9
/-- EVENT bit 10 of the GATE page. -/
def Ev.GATE.TUNNEL_REFUSED : Nat := 10
/-- EVENT bit 11 of the GATE page. -/
def Ev.GATE.META_LONG : Nat := 11
/-- EVENT bit 12 of the GATE page. -/
def Ev.GATE.FRAME_ORDER : Nat := 12
/-- EVENT bit 13 of the GATE page. -/
def Ev.GATE.END_MISSING : Nat := 13
/-- EVENT bit 0 of the TAKE page. -/
def Ev.TAKE.ADMITTED : Nat := 0
/-- EVENT bit 1 of the TAKE page. -/
def Ev.TAKE.REFUSED : Nat := 1
/-- EVENT bit 2 of the TAKE page. -/
def Ev.TAKE.RATE_BREACH : Nat := 2
/-- EVENT bit 3 of the TAKE page. -/
def Ev.TAKE.BREACH_CLEAR : Nat := 3
/-- EVENT bit 4 of the TAKE page. -/
def Ev.TAKE.RECOMPUTED : Nat := 4
/-- EVENT bit 5 of the TAKE page. -/
def Ev.TAKE.CLOSED : Nat := 5
/-- EVENT bit 6 of the TAKE page. -/
def Ev.TAKE.PWRFAIL : Nat := 6
/-- EVENT bit 7 of the TAKE page. -/
def Ev.TAKE.RATIO_LOW : Nat := 7
/-- EVENT bit 0 of the FALLOW page. -/
def Ev.FALLOW.BELOW_LOW_WATER : Nat := 0
/-- EVENT bit 1 of the FALLOW page. -/
def Ev.FALLOW.AT_TARGET : Nat := 1
/-- EVENT bit 2 of the FALLOW page. -/
def Ev.FALLOW.POOL_EMPTY : Nat := 2
/-- EVENT bit 0 of the SUMM page. -/
def Ev.SUMM.GEOMETRY : Nat := 0
/-- EVENT bit 0 of the TRIG page. -/
def Ev.TRIG.ACCEPTED : Nat := 0
/-- EVENT bit 1 of the TRIG page. -/
def Ev.TRIG.MERGED : Nat := 1
/-- EVENT bit 2 of the TRIG page. -/
def Ev.TRIG.REFUSED : Nat := 2
/-- EVENT bit 3 of the TRIG page. -/
def Ev.TRIG.SEALED : Nat := 3
/-- EVENT bit 4 of the TRIG page. -/
def Ev.TRIG.KEPT : Nat := 4
/-- EVENT bit 5 of the TRIG page. -/
def Ev.TRIG.WINDOW_CUT : Nat := 5
/-- EVENT bit 6 of the TRIG page. -/
def Ev.TRIG.LATE_FRAME : Nat := 6
/-- EVENT bit 7 of the TRIG page. -/
def Ev.TRIG.RING_SHRUNK : Nat := 7
/-- EVENT bit 0 of the LANE page. -/
def Ev.LANE.JOB_DONE : Nat := 0
/-- EVENT bit 1 of the LANE page. -/
def Ev.LANE.VERIFY_MISMATCH : Nat := 1
/-- EVENT bit 2 of the LANE page. -/
def Ev.LANE.REEMITTED : Nat := 2
/-- EVENT bit 3 of the LANE page. -/
def Ev.LANE.RETIRED : Nat := 3
/-- EVENT bit 4 of the LANE page. -/
def Ev.LANE.JOB_FAILED : Nat := 4
/-- EVENT bit 0 of the SHEARS page. -/
def Ev.SHEARS.LANE_RETIRED : Nat := 0
/-- EVENT bit 1 of the SHEARS page. -/
def Ev.SHEARS.SLICE_LOST : Nat := 1
/-- EVENT bit 2 of the SHEARS page. -/
def Ev.SHEARS.NO_LANE : Nat := 2
/-- EVENT bit 0 of the NAND page. -/
def Ev.NAND.TRAINED : Nat := 0
/-- EVENT bit 1 of the NAND page. -/
def Ev.NAND.TRAIN_FAIL : Nat := 1
/-- EVENT bit 2 of the NAND page. -/
def Ev.NAND.PWR_FAULT : Nat := 2
/-- EVENT bit 3 of the NAND page. -/
def Ev.NAND.DIE_FAILED : Nat := 3
/-- EVENT bit 4 of the NAND page. -/
def Ev.NAND.UNCORRECTABLE : Nat := 4
/-- EVENT bit 5 of the NAND page. -/
def Ev.NAND.SOFT_DECODE : Nat := 5
/-- EVENT bit 6 of the NAND page. -/
def Ev.NAND.PROGRAM_FAIL : Nat := 6
/-- EVENT bit 7 of the NAND page. -/
def Ev.NAND.ERASE_FAIL : Nat := 7
/-- EVENT bit 8 of the NAND page. -/
def Ev.NAND.RETIRED : Nat := 8
/-- EVENT bit 0 of the MEDIA page. -/
def Ev.MEDIA.SPARE_CONVERTED : Nat := 0
/-- EVENT bit 1 of the MEDIA page. -/
def Ev.MEDIA.READ_ONLY : Nat := 1
/-- EVENT bit 2 of the MEDIA page. -/
def Ev.MEDIA.CKPT_DONE : Nat := 2
/-- EVENT bit 3 of the MEDIA page. -/
def Ev.MEDIA.REPLAY_DONE : Nat := 3
/-- EVENT bit 4 of the MEDIA page. -/
def Ev.MEDIA.GC_GREEDY : Nat := 4
/-- EVENT bit 5 of the MEDIA page. -/
def Ev.MEDIA.BLOCK_RETIRED : Nat := 5
/-- EVENT bit 6 of the MEDIA page. -/
def Ev.MEDIA.MAP_PAGED : Nat := 6
/-- EVENT bit 7 of the MEDIA page. -/
def Ev.MEDIA.REFRESH_STARVED : Nat := 7
/-- EVENT bit 0 of the ARRAY page. -/
def Ev.ARRAY.MEMBER_LOST : Nat := 0
/-- EVENT bit 1 of the ARRAY page. -/
def Ev.ARRAY.CRITICAL : Nat := 1
/-- EVENT bit 2 of the ARRAY page. -/
def Ev.ARRAY.CRITICAL_CLEAR : Nat := 2
/-- EVENT bit 3 of the ARRAY page. -/
def Ev.ARRAY.REBUILD_DONE : Nat := 3
/-- EVENT bit 4 of the ARRAY page. -/
def Ev.ARRAY.RESYNC_DONE : Nat := 4
/-- EVENT bit 5 of the ARRAY page. -/
def Ev.ARRAY.OFFLINE : Nat := 5
/-- EVENT bit 6 of the ARRAY page. -/
def Ev.ARRAY.RESHAPE_DONE : Nat := 6
/-- EVENT bit 7 of the ARRAY page. -/
def Ev.ARRAY.WRITE_HOLE : Nat := 7
/-- EVENT bit 8 of the ARRAY page. -/
def Ev.ARRAY.NO_REPLACEMENT : Nat := 8
/-- EVENT bit 0 of the CORE page. -/
def Ev.CORE.PARKED : Nat := 0
/-- EVENT bit 1 of the CORE page. -/
def Ev.CORE.STOPPED : Nat := 1
/-- EVENT bit 2 of the CORE page. -/
def Ev.CORE.HALTED : Nat := 2
/-- EVENT bit 3 of the CORE page. -/
def Ev.CORE.ECC_CORRECTED : Nat := 3
/-- EVENT bit 4 of the CORE page. -/
def Ev.CORE.ECC_UNCORRECTED : Nat := 4
/-- EVENT bit 5 of the CORE page. -/
def Ev.CORE.RETIRED : Nat := 5
/-- EVENT bit 0 of the CLUSTER page. -/
def Ev.CLUSTER.LOAD_DONE : Nat := 0
/-- EVENT bit 1 of the CLUSTER page. -/
def Ev.CLUSTER.LOAD_REFUSED : Nat := 1
/-- EVENT bit 2 of the CLUSTER page. -/
def Ev.CLUSTER.MC_LONG : Nat := 2
/-- EVENT bit 3 of the CLUSTER page. -/
def Ev.CLUSTER.MC_STACK : Nat := 3
/-- EVENT bit 4 of the CLUSTER page. -/
def Ev.CLUSTER.PROGRAMS_STOPPED : Nat := 4
/-- EVENT bit 0 of the EARMARK page. -/
def Ev.EARMARK.SCRUB_PASS : Nat := 0
/-- EVENT bit 1 of the EARMARK page. -/
def Ev.EARMARK.REPAIR : Nat := 1
/-- EVENT bit 2 of the EARMARK page. -/
def Ev.EARMARK.SHADOW_LOST : Nat := 2
/-- EVENT bit 3 of the EARMARK page. -/
def Ev.EARMARK.BANK_RETIRED : Nat := 3
/-- EVENT bit 0 of the BANK page. -/
def Ev.BANK.REPAIR : Nat := 0
/-- EVENT bit 1 of the BANK page. -/
def Ev.BANK.SHADOW_LOST : Nat := 1
/-- EVENT bit 2 of the BANK page. -/
def Ev.BANK.RETIRED : Nat := 2
/-- EVENT bit 3 of the BANK page. -/
def Ev.BANK.CLEARED : Nat := 3
/-- EVENT bit 0 of the CIPHER page. -/
def Ev.CIPHER.KEYS_ERASED : Nat := 0
/-- EVENT bit 1 of the CIPHER page. -/
def Ev.CIPHER.PIPE_RETIRED : Nat := 1
/-- EVENT bit 2 of the CIPHER page. -/
def Ev.CIPHER.LENGTH_ERROR : Nat := 2
/-- EVENT bit 3 of the CIPHER page. -/
def Ev.CIPHER.TAG_MISMATCH : Nat := 3
/-- EVENT bit 4 of the CIPHER page. -/
def Ev.CIPHER.MASK_STALL : Nat := 4
/-- EVENT bit 0 of the KEYENG page. -/
def Ev.KEYENG.ALARM : Nat := 0
/-- EVENT bit 1 of the KEYENG page. -/
def Ev.KEYENG.UNLOCKED : Nat := 1
/-- EVENT bit 2 of the KEYENG page. -/
def Ev.KEYENG.BUSY_REFUSED : Nat := 2
/-- EVENT bit 0 of the DIGEST page. -/
def Ev.DIGEST.FEED_DONE : Nat := 0
/-- EVENT bit 1 of the DIGEST page. -/
def Ev.DIGEST.MISMATCH : Nat := 1
/-- EVENT bit 2 of the DIGEST page. -/
def Ev.DIGEST.VERDICT_FAULT : Nat := 2
/-- EVENT bit 3 of the DIGEST page. -/
def Ev.DIGEST.UNIT_RETIRED : Nat := 3
/-- EVENT bit 0 of the ENTROPY page. -/
def Ev.ENTROPY.HEALTHY : Nat := 0
/-- EVENT bit 1 of the ENTROPY page. -/
def Ev.ENTROPY.HEALTH_FAIL : Nat := 1
/-- EVENT bit 2 of the ENTROPY page. -/
def Ev.ENTROPY.FAILED : Nat := 2
/-- EVENT bit 0 of the HOSTQ page. -/
def Ev.HOSTQ.QUEUE_FROZEN : Nat := 0
/-- EVENT bit 1 of the HOSTQ page. -/
def Ev.HOSTQ.LOCKS_FULL : Nat := 1
/-- EVENT bit 2 of the HOSTQ page. -/
def Ev.HOSTQ.LINK_A_CHANGE : Nat := 2
/-- EVENT bit 3 of the HOSTQ page. -/
def Ev.HOSTQ.LINK_B_CHANGE : Nat := 3
/-- EVENT bit 4 of the HOSTQ page. -/
def Ev.HOSTQ.BAD_DOORBELL : Nat := 4
/-- EVENT bit 0 of the VF page. -/
def Ev.VF.CORE_WITHDRAWN : Nat := 0
/-- EVENT bit 1 of the VF page. -/
def Ev.VF.BANK_WITHDRAWN : Nat := 1
/-- EVENT bit 2 of the VF page. -/
def Ev.VF.BAD_ADDRESS : Nat := 2
/-- EVENT bit 0 of the TENANT page. -/
def Ev.TENANT.PROFILE_SET : Nat := 0
/-- EVENT bit 1 of the TENANT page. -/
def Ev.TENANT.PROFILE_REFUSED : Nat := 1
/-- EVENT bit 2 of the TENANT page. -/
def Ev.TENANT.RESET_DONE : Nat := 2
/-- EVENT bit 3 of the TENANT page. -/
def Ev.TENANT.WITHDRAWN : Nat := 3
/-- EVENT bit 0 of the XLATE page. -/
def Ev.XLATE.FAULT : Nat := 0
/-- EVENT bit 1 of the XLATE page. -/
def Ev.XLATE.TABLE_FULL : Nat := 1
/-- EVENT bit 0 of the DROVE page. -/
def Ev.DROVE.FORMED : Nat := 0
/-- EVENT bit 1 of the DROVE page. -/
def Ev.DROVE.LINK_DOWN : Nat := 1
/-- EVENT bit 2 of the DROVE page. -/
def Ev.DROVE.LINE : Nat := 2
/-- EVENT bit 3 of the DROVE page. -/
def Ev.DROVE.NO_QUORUM : Nat := 3
/-- EVENT bit 4 of the DROVE page. -/
def Ev.DROVE.FAILOVER : Nat := 4
/-- EVENT bit 5 of the DROVE page. -/
def Ev.DROVE.FOREIGN : Nat := 5
/-- EVENT bit 6 of the DROVE page. -/
def Ev.DROVE.TIME_FAULT : Nat := 6
/-- EVENT bit 7 of the DROVE page. -/
def Ev.DROVE.START_LOST : Nat := 7
/-- EVENT bit 0 of the DRAM page. -/
def Ev.DRAM.TRAINED : Nat := 0
/-- EVENT bit 1 of the DRAM page. -/
def Ev.DRAM.TRAIN_FAIL : Nat := 1
/-- EVENT bit 2 of the DRAM page. -/
def Ev.DRAM.REPLAY : Nat := 2
/-- EVENT bit 3 of the DRAM page. -/
def Ev.DRAM.UNCORRECTABLE : Nat := 3
/-- EVENT bit 4 of the DRAM page. -/
def Ev.DRAM.RETIRED : Nat := 4
/-- EVENT bit 5 of the DRAM page. -/
def Ev.DRAM.CORRECTED : Nat := 5
/-- EVENT bit 0 of the DRAMC page. -/
def Ev.DRAMC.RETIREMENT : Nat := 0
/-- EVENT bit 1 of the DRAMC page. -/
def Ev.DRAMC.EVACUATED : Nat := 1
/-- EVENT bit 2 of the DRAMC page. -/
def Ev.DRAMC.SCRUB_PASS : Nat := 2
/-- EVENT bit 3 of the DRAMC page. -/
def Ev.DRAMC.DATA_LOST : Nat := 3
/-- EVENT bit 0 of the PWR page. -/
def Ev.PWR.MODE_CHANGE : Nat := 0
/-- EVENT bit 1 of the PWR page. -/
def Ev.PWR.REFUSED : Nat := 1
/-- EVENT bit 2 of the PWR page. -/
def Ev.PWR.ABORTED : Nat := 2
/-- EVENT bit 3 of the PWR page. -/
def Ev.PWR.SAFE_ENTERED : Nat := 3
/-- EVENT bit 4 of the PWR page. -/
def Ev.PWR.SAFE_EXITED : Nat := 4
/-- EVENT bit 0 of the VREG page. -/
def Ev.VREG.NO_ACK : Nat := 0
/-- EVENT bit 1 of the VREG page. -/
def Ev.VREG.FAULT : Nat := 1
/-- EVENT bit 0 of the RTC page. -/
def Ev.RTC.ALARM0 : Nat := 0
/-- EVENT bit 3 of the RTC page. -/
def Ev.RTC.ALARM3 : Nat := 3
/-- EVENT bit 4 of the RTC page. -/
def Ev.RTC.OSC_FAIL : Nat := 4
/-- EVENT bit 0 of the CLK page. -/
def Ev.CLK.LOCK_LOST : Nat := 0
/-- EVENT bit 0 of the OTP page. -/
def Ev.OTP.GEN_BAD : Nat := 0
/-- EVENT bit 1 of the OTP page. -/
def Ev.OTP.PROGRAMMED : Nat := 1
/-- EVENT bit 0 of the ROLE page. -/
def Ev.ROLE.GAINED : Nat := 0
/-- EVENT bit 1 of the ROLE page. -/
def Ev.ROLE.FAILED : Nat := 1
/-- EVENT bit 2 of the ROLE page. -/
def Ev.ROLE.LOCKOUT : Nat := 2
/-- EVENT bit 0 of the AUDIT page. -/
def Ev.AUDIT.GAP : Nat := 0
/-- EVENT bit 1 of the AUDIT page. -/
def Ev.AUDIT.CHAIN_BAD : Nat := 1
/-- EVENT bit 0 of the PERTURB page. -/
def Ev.PERTURB.ARMED : Nat := 0
/-- EVENT bit 1 of the PERTURB page. -/
def Ev.PERTURB.ENDED : Nat := 1
/-- EVENT bit 2 of the PERTURB page. -/
def Ev.PERTURB.EXHAUSTED : Nat := 2
/-- EVENT bit 0 of the FAULT page. -/
def Ev.FAULT.ENTRY : Nat := 0
/-- EVENT bit 1 of the FAULT page. -/
def Ev.FAULT.FULL : Nat := 1
/-- EVENT bit 2 of the FAULT page. -/
def Ev.FAULT.LOST : Nat := 2
/-- EVENT bit 3 of the FAULT page. -/
def Ev.FAULT.CONTAINED : Nat := 3
/-- EVENT bit 4 of the FAULT page. -/
def Ev.FAULT.FATAL : Nat := 4
/-- EVENT bit 0 of the SHARE page. -/
def Ev.SHARE.CLAIMED : Nat := 0
/-- EVENT bit 1 of the SHARE page. -/
def Ev.SHARE.RELEASED : Nat := 1
/-- EVENT bit 2 of the SHARE page. -/
def Ev.SHARE.REFUSED : Nat := 2
/-- EVENT bit 3 of the SHARE page. -/
def Ev.SHARE.GPIO_EDGE : Nat := 3
/-- EVENT bit 0 of the DEV page. -/
def Ev.DEV.THROTTLE : Nat := 0
/-- EVENT bit 1 of the DEV page. -/
def Ev.DEV.HIGH : Nat := 1
/-- EVENT bit 2 of the DEV page. -/
def Ev.DEV.SHUTDOWN : Nat := 2
/-- EVENT bit 1 of the RTC page. -/
def Ev.RTC.ALARM1 : Nat := 1
/-- EVENT bit 2 of the RTC page. -/
def Ev.RTC.ALARM2 : Nat := 2

end Sys2Proof.Machine
end

