-- ==== Sys2Proof/Machine/RegTable.lean ====
section
/-!
DEFINITION. The register tables: for each kind of page, one row for each field its chapter defines, with its access, its
role, whether it survives warm reset (RWS), whether the configuration record keeps it, its reset value and its legal
encodings (an empty list: every encoding is legal). Reset words such as OTP or Tally stand as 0 here: those fields are
filled by start-up or computed from the state.
-/

namespace Sys2Proof.Machine

/-- Rows of the GATE page. -/
def gateRows0 : List RegRow :=
  [⟨0x040, 0, 2, false, .ro, .none, false, false, 0, []⟩,
   ⟨0x040, 2, 1, false, .ro, .none, false, false, 0, []⟩,
   ⟨0x040, 3, 1, false, .ro, .none, false, false, 0, []⟩,
   ⟨0x040, 4, 4, false, .ro, .none, false, false, 0, []⟩,
   ⟨0x040, 8, 8, false, .ro, .none, false, false, 0, []⟩,
   ⟨0x040, 16, 16, false, .ro, .none, false, false, 0, []⟩,
   ⟨0x044, 0, 16, false, .ro, .none, false, false, 0, []⟩,
   ⟨0x044, 16, 16, false, .ro, .none, false, false, 0, []⟩,
   ⟨0x048, 0, 1, false, .wo, .none, false, false, 0, []⟩,
   ⟨0x048, 1, 2, false, .rw, .inst, false, false, 3, [(1, 3)]⟩,
   ⟨0x048, 3, 29, false, .ro, .none, false, false, 0, []⟩,
   ⟨0x04C, 0, 16, false, .rw, .inst, false, false, 0x400, [(1, 65535)]⟩,
   ⟨0x04C, 16, 16, false, .ro, .none, false, false, 0, []⟩,
   ⟨0x050, 0, 16, false, .ro, .none, false, false, 0x2000, []⟩,
   ⟨0x050, 16, 8, false, .ro, .none, false, false, 0x40, []⟩,
   ⟨0x050, 24, 8, false, .ro, .none, false, false, 0, []⟩,
   ⟨0x054, 0, 1, false, .ro, .none, false, false, 0, []⟩,
   ⟨0x054, 1, 1, false, .ro, .none, false, false, 0, []⟩,
   ⟨0x054, 2, 1, false, .ro, .none, false, false, 0, []⟩,
   ⟨0x054, 3, 1, false, .ro, .none, false, false, 0, []⟩,
   ⟨0x054, 4, 28, false, .ro, .none, false, false, 0, []⟩,
   ⟨0x058, 0, 16, false, .rw, .none, false, false, 0x64, [(10, 10000)]⟩,
   ⟨0x058, 16, 16, false, .ro, .none, false, false, 0, []⟩,
   ⟨0x05C, 0, 2, false, .ro, .none, false, false, 0, []⟩]

/-- Rows of the GATE page. -/
def gateRows1 : List RegRow :=
  [⟨0x05C, 2, 6, false, .ro, .none, false, false, 0, []⟩,
   ⟨0x05C, 8, 1, false, .rw, .inst, false, false, 1, []⟩,
   ⟨0x05C, 9, 23, false, .ro, .none, false, false, 0, []⟩,
   ⟨0x060, 0, 16, false, .rw, .inst, false, false, 0x3e8, [(0, 60000)]⟩,
   ⟨0x060, 16, 16, false, .ro, .none, false, false, 0, []⟩,
   ⟨0x064, 0, 8, false, .ro, .none, false, false, 0, []⟩,
   ⟨0x064, 8, 24, false, .ro, .none, false, false, 0, []⟩,
   ⟨0x068, 0, 32, false, .ro, .none, false, false, 0, []⟩,
   ⟨0x06C, 0, 32, false, .ro, .none, false, false, 0, []⟩,
   ⟨0x070, 0, 32, false, .ro, .none, false, false, 0, []⟩,
   ⟨0x074, 0, 32, false, .ro, .none, false, false, 0, []⟩,
   ⟨0x078, 0, 32, false, .ro, .none, false, false, 0, []⟩,
   ⟨0x07C, 0, 32, false, .ro, .none, false, false, 0, []⟩,
   ⟨0x080, 0, 64, true, .ro, .none, false, false, 0, []⟩,
   ⟨0x088, 0, 64, true, .ro, .none, false, false, 0, []⟩,
   ⟨0x090, 0, 64, true, .ro, .none, false, false, 0, []⟩,
   ⟨0x098, 0, 64, true, .ro, .none, false, false, 0, []⟩,
   ⟨0x0A0, 0, 64, true, .ro, .none, false, false, 0, []⟩]

/-- Rows of the GATE page. -/
def gateRows : List RegRow := gateRows0 ++ gateRows1

/-- Rows of the TAKE page. -/
def takeRows0 : List RegRow :=
  [⟨0x040, 0, 3, false, .ro, .none, false, false, 0, []⟩,
   ⟨0x040, 3, 5, false, .ro, .none, false, false, 0, []⟩,
   ⟨0x040, 8, 8, false, .ro, .none, false, false, 0, []⟩,
   ⟨0x040, 16, 16, false, .ro, .none, false, false, 0, []⟩,
   ⟨0x044, 0, 16, false, .rw, .inst, true, true, 0, [(0, 0), (50, 10000)]⟩,
   ⟨0x044, 16, 16, false, .ro, .none, false, false, 0, []⟩,
   ⟨0x048, 0, 16, false, .rw, .inst, true, true, 0, [(1, 65535)]⟩,
   ⟨0x048, 16, 16, false, .ro, .none, false, false, 0, []⟩,
   ⟨0x04C, 0, 16, false, .rw, .none, false, false, 0x7d0, [(200, 50000)]⟩,
   ⟨0x04C, 16, 16, false, .ro, .none, false, false, 0, []⟩,
   ⟨0x050, 0, 64, true, .ro, .none, false, false, 0, []⟩,
   ⟨0x058, 0, 32, false, .ro, .none, false, false, 0, []⟩,
   ⟨0x05C, 0, 32, false, .ro, .none, false, false, 0, []⟩,
   ⟨0x060, 0, 64, true, .ro, .none, false, false, 0, []⟩,
   ⟨0x068, 0, 64, true, .ro, .none, false, false, 0, []⟩,
   ⟨0x070, 0, 64, true, .ro, .none, false, false, 0, []⟩,
   ⟨0x078, 0, 16, false, .ro, .none, false, false, 0, []⟩,
   ⟨0x078, 16, 16, false, .ro, .none, false, false, 0, []⟩,
   ⟨0x07C, 0, 12, false, .ro, .none, false, false, 0, []⟩,
   ⟨0x07C, 12, 20, false, .ro, .none, false, false, 0, []⟩,
   ⟨0x080, 0, 32, false, .ro, .none, false, false, 0, []⟩,
   ⟨0x084, 0, 10, false, .ro, .none, false, false, 0, []⟩,
   ⟨0x084, 10, 22, false, .ro, .none, false, false, 0, []⟩,
   ⟨0x088, 0, 32, false, .ro, .none, false, false, 0, []⟩]

/-- Rows of the TAKE page. -/
def takeRows1 : List RegRow :=
  [⟨0x08C, 0, 32, false, .ro, .none, false, false, 0, []⟩,
   ⟨0x090, 0, 64, true, .ro, .none, false, false, 0, []⟩]

/-- Rows of the TAKE page. -/
def takeRows : List RegRow := takeRows0 ++ takeRows1

/-- Rows of the FALLOW page. -/
def fallowRows : List RegRow :=
  [⟨0x040, 0, 32, false, .ro, .none, false, false, 0, []⟩,
   ⟨0x044, 0, 32, false, .ro, .none, false, false, 0, []⟩,
   ⟨0x048, 0, 64, true, .ro, .none, false, false, 0, []⟩,
   ⟨0x050, 0, 64, true, .ro, .none, false, false, 0, []⟩,
   ⟨0x058, 0, 32, false, .rw, .inst, true, false, 0x3e8, []⟩,
   ⟨0x05C, 0, 32, false, .rw, .inst, true, false, 0x4e20, []⟩,
   ⟨0x060, 0, 32, false, .ro, .none, false, false, 0, []⟩,
   ⟨0x064, 0, 1, false, .ro, .none, false, false, 1, []⟩,
   ⟨0x064, 1, 1, false, .ro, .none, false, false, 0, []⟩,
   ⟨0x064, 2, 1, false, .ro, .none, false, false, 0, []⟩,
   ⟨0x064, 3, 29, false, .ro, .none, false, false, 0, []⟩]

/-- Rows of the SUMM page. -/
def summRows : List RegRow :=
  [⟨0x040, 0, 64, true, .ro, .none, false, false, 0, []⟩,
   ⟨0x048, 0, 32, false, .ro, .none, false, false, 0, []⟩,
   ⟨0x04C, 0, 32, false, .ro, .none, false, false, 0, []⟩,
   ⟨0x050, 0, 64, true, .ro, .none, false, false, 0, []⟩,
   ⟨0x058, 0, 3, false, .ro, .none, false, false, 0, []⟩,
   ⟨0x058, 3, 29, false, .ro, .none, false, false, 0, []⟩] ++
  ((List.range 8).flatMap fun j => [⟨(0x060 + 4 * j), 0, 32, false, .ro, .none, false, false, 0, []⟩]) ++
  ((List.range 8).flatMap fun n => (List.range 8).flatMap fun j => [⟨(0x100 + 0x20 * n + 4 * j), 0, 8, false, .rw, .inst, true, false, 0, []⟩]) ++
  ((List.range 8).flatMap fun n => (List.range 8).flatMap fun j => [⟨(0x100 + 0x20 * n + 4 * j), 8, 12, false, .rw, .inst, true, false, 0, []⟩]) ++
  ((List.range 8).flatMap fun n => (List.range 8).flatMap fun j => [⟨(0x100 + 0x20 * n + 4 * j), 20, 6, false, .rw, .inst, true, false, 0, []⟩]) ++
  ((List.range 8).flatMap fun n => (List.range 8).flatMap fun j => [⟨(0x100 + 0x20 * n + 4 * j), 26, 6, false, .ro, .none, false, false, 0, []⟩])

/-- Rows of the TRIG page. -/
def trigRows0 : List RegRow :=
  [⟨0x040, 0, 3, false, .rw, .none, false, false, 0, []⟩,
   ⟨0x040, 3, 1, false, .rw, .none, false, false, 1, []⟩,
   ⟨0x040, 4, 1, false, .rw, .none, false, false, 0, []⟩,
   ⟨0x040, 5, 1, false, .rw, .none, false, false, 1, []⟩,
   ⟨0x040, 6, 26, false, .ro, .none, false, false, 0, []⟩,
   ⟨0x044, 0, 6, false, .rw, .none, false, false, 0, []⟩,
   ⟨0x044, 6, 26, false, .ro, .none, false, false, 0, []⟩,
   ⟨0x048, 0, 16, false, .rw, .none, false, false, 0x3e8, [(1, 65535)]⟩,
   ⟨0x048, 16, 16, false, .ro, .none, false, false, 0, []⟩,
   ⟨0x04C, 0, 32, false, .rw, .none, false, false, 0x7d0, [(0, 600000)]⟩,
   ⟨0x050, 0, 32, false, .rw, .none, false, false, 0x7d0, [(1, 3600000)]⟩,
   ⟨0x054, 0, 6, false, .rw, .inst, false, false, 8, [(0, 32)]⟩,
   ⟨0x054, 6, 26, false, .ro, .none, false, false, 0, []⟩,
   ⟨0x058, 0, 5, false, .rw, .none, false, false, 0, []⟩,
   ⟨0x058, 5, 3, false, .ro, .none, false, false, 0, []⟩,
   ⟨0x058, 8, 4, false, .rw, .none, false, false, 0, []⟩,
   ⟨0x058, 12, 1, false, .rw, .none, false, false, 0, []⟩,
   ⟨0x058, 13, 19, false, .ro, .none, false, false, 0, []⟩,
   ⟨0x05C, 0, 16, false, .rw, .none, false, false, 0x64, [(0, 10000)]⟩,
   ⟨0x05C, 16, 16, false, .ro, .none, false, false, 0, []⟩,
   ⟨0x060, 0, 64, true, .rw, .none, false, false, 0, []⟩,
   ⟨0x068, 0, 32, false, .rw, .none, false, false, 0, []⟩,
   ⟨0x06C, 0, 32, false, .rw, .none, false, false, 0, []⟩,
   ⟨0x070, 0, 16, false, .wo, .none, false, false, 0, []⟩]

/-- Rows of the TRIG page. -/
def trigRows1 : List RegRow :=
  [⟨0x070, 16, 15, false, .ro, .none, false, false, 0, []⟩,
   ⟨0x070, 31, 1, false, .wo, .none, false, false, 0, []⟩,
   ⟨0x074, 0, 7, false, .ro, .none, false, false, 0, []⟩,
   ⟨0x074, 7, 25, false, .ro, .none, false, false, 0, []⟩,
   ⟨0x078, 0, 32, false, .ro, .none, false, false, 0, []⟩,
   ⟨0x07C, 0, 32, false, .ro, .none, false, false, 0, []⟩,
   ⟨0x080, 0, 32, false, .ro, .none, false, false, 0, []⟩,
   ⟨0x084, 0, 32, false, .ro, .none, false, false, 0, []⟩,
   ⟨0x088, 0, 6, false, .rw, .none, false, false, 0, []⟩,
   ⟨0x088, 6, 26, false, .ro, .none, false, false, 0, []⟩,
   ⟨0x08C, 0, 3, false, .ro, .none, false, false, 0, []⟩,
   ⟨0x08C, 3, 4, false, .ro, .none, false, false, 0, []⟩,
   ⟨0x08C, 7, 1, false, .ro, .none, false, false, 0, []⟩,
   ⟨0x08C, 8, 1, false, .ro, .none, false, false, 0, []⟩,
   ⟨0x08C, 9, 1, false, .ro, .none, false, false, 0, []⟩,
   ⟨0x08C, 10, 6, false, .ro, .none, false, false, 0, []⟩,
   ⟨0x08C, 16, 16, false, .ro, .none, false, false, 0, []⟩,
   ⟨0x090, 0, 64, true, .ro, .none, false, false, 0, []⟩,
   ⟨0x098, 0, 64, true, .ro, .none, false, false, 0, []⟩,
   ⟨0x0A0, 0, 64, true, .ro, .none, false, false, 0, []⟩,
   ⟨0x0A8, 0, 32, false, .ro, .none, false, false, 0, []⟩]

/-- Rows of the TRIG page. -/
def trigRows : List RegRow := trigRows0 ++ trigRows1

/-- Rows of the LANE page. -/
def laneRows : List RegRow :=
  [⟨0x040, 0, 2, false, .ro, .none, false, false, 0, []⟩,
   ⟨0x040, 2, 1, false, .ro, .none, false, false, 0, []⟩,
   ⟨0x040, 3, 1, false, .ro, .none, false, false, 0, []⟩,
   ⟨0x040, 4, 4, false, .ro, .none, false, false, 0, []⟩,
   ⟨0x040, 8, 9, false, .ro, .none, false, false, 0, []⟩,
   ⟨0x040, 17, 15, false, .ro, .none, false, false, 0, []⟩,
   ⟨0x044, 0, 1, false, .wo, .inst, false, false, 0, []⟩,
   ⟨0x044, 1, 31, false, .ro, .none, false, false, 0, []⟩,
   ⟨0x048, 0, 32, false, .ro, .none, false, false, 0, []⟩,
   ⟨0x04C, 0, 32, false, .ro, .none, false, false, 0, []⟩,
   ⟨0x050, 0, 64, true, .ro, .none, false, false, 0, []⟩,
   ⟨0x058, 0, 64, true, .ro, .none, false, false, 0, []⟩,
   ⟨0x060, 0, 64, true, .ro, .none, false, false, 0, []⟩,
   ⟨0x068, 0, 32, false, .ro, .none, false, false, 0, []⟩,
   ⟨0x06C, 0, 32, false, .ro, .none, false, false, 0, []⟩,
   ⟨0x070, 0, 16, false, .ro, .none, false, false, 0, []⟩,
   ⟨0x070, 16, 16, false, .ro, .none, false, false, 0, []⟩]

/-- Rows of the SHEARS page. -/
def shearsRows : List RegRow :=
  [⟨0x040, 0, 12, false, .ro, .none, false, false, 0xfff, []⟩,
   ⟨0x040, 12, 20, false, .ro, .none, false, false, 0, []⟩,
   ⟨0x044, 0, 12, false, .ro, .none, false, false, 0, []⟩,
   ⟨0x044, 12, 20, false, .ro, .none, false, false, 0, []⟩,
   ⟨0x048, 0, 4, false, .rw, .inst, true, false, 2, [(1, 15)]⟩,
   ⟨0x048, 4, 28, false, .ro, .none, false, false, 0, []⟩,
   ⟨0x04C, 0, 16, false, .ro, .none, false, false, 0x60, []⟩,
   ⟨0x04C, 16, 16, false, .ro, .none, false, false, 0, []⟩,
   ⟨0x050, 0, 11, false, .ro, .none, false, false, 0, []⟩,
   ⟨0x050, 11, 21, false, .ro, .none, false, false, 0, []⟩,
   ⟨0x054, 0, 32, false, .ro, .none, false, false, 0, []⟩,
   ⟨0x058, 0, 64, true, .ro, .none, false, false, 0, []⟩,
   ⟨0x060, 0, 64, true, .ro, .none, false, false, 0, []⟩,
   ⟨0x068, 0, 32, false, .ro, .none, false, false, 0, []⟩]

/-- Rows of the NAND page. -/
def nandRows0 : List RegRow :=
  [⟨0x040, 0, 3, false, .ro, .none, false, false, 0, []⟩,
   ⟨0x040, 3, 1, false, .ro, .none, false, false, 0, []⟩,
   ⟨0x040, 4, 1, false, .ro, .none, false, false, 0, []⟩,
   ⟨0x040, 5, 3, false, .ro, .none, false, false, 0, []⟩,
   ⟨0x040, 8, 5, false, .ro, .none, false, false, 0, []⟩,
   ⟨0x040, 13, 3, false, .ro, .none, false, false, 0, []⟩,
   ⟨0x040, 16, 2, false, .ro, .none, false, false, 0, []⟩,
   ⟨0x040, 18, 14, false, .ro, .none, false, false, 0, []⟩,
   ⟨0x044, 0, 16, false, .ro, .none, false, false, 0, []⟩,
   ⟨0x044, 16, 16, false, .ro, .none, false, false, 0, []⟩,
   ⟨0x048, 0, 24, false, .ro, .none, false, false, 0, []⟩,
   ⟨0x048, 24, 1, false, .ro, .none, false, false, 0, []⟩,
   ⟨0x048, 25, 7, false, .ro, .none, false, false, 0, []⟩,
   ⟨0x04C, 0, 1, false, .ro, .none, false, false, 0, []⟩,
   ⟨0x04C, 1, 1, false, .ro, .none, false, false, 0, []⟩,
   ⟨0x04C, 2, 30, false, .ro, .none, false, false, 0, []⟩,
   ⟨0x050, 0, 12, false, .ro, .none, false, false, 0, []⟩,
   ⟨0x050, 12, 4, false, .ro, .none, false, false, 0, []⟩,
   ⟨0x050, 16, 3, false, .rw, .inst, true, false, 3, [(0, 3)]⟩,
   ⟨0x050, 19, 13, false, .ro, .none, false, false, 0, []⟩,
   ⟨0x054, 0, 1, false, .wo, .inst, false, false, 0, []⟩,
   ⟨0x054, 1, 31, false, .ro, .none, false, false, 0, []⟩,
   ⟨0x058, 0, 4, false, .rw, .inst, true, true, 0, []⟩,
   ⟨0x058, 4, 4, false, .ro, .none, false, false, 0, []⟩]

/-- Rows of the NAND page. -/
def nandRows1 : List RegRow :=
  [⟨0x058, 8, 8, false, .rw, .inst, true, true, 0, []⟩,
   ⟨0x058, 16, 16, false, .ro, .none, false, false, 0, []⟩,
   ⟨0x05C, 0, 16, false, .ro, .none, false, false, 0, []⟩,
   ⟨0x05C, 16, 16, false, .ro, .none, false, false, 0, []⟩] ++
  ((List.range 18).flatMap fun i => [⟨(0x060 + 4 * i), 0, 32, false, .rw, .inst, true, true, 0, []⟩]) ++
  [⟨0x0A8, 0, 1, false, .wo, .inst, false, false, 0, []⟩,
   ⟨0x0A8, 1, 31, false, .ro, .none, false, false, 0, []⟩,
   ⟨0x0AC, 0, 16, false, .rw, .none, false, false, 0x64, [(10, 10000)]⟩,
   ⟨0x0AC, 16, 16, false, .ro, .none, false, false, 0, []⟩,
   ⟨0x0B0, 0, 64, true, .ro, .none, false, false, 0, []⟩,
   ⟨0x0B8, 0, 64, true, .ro, .none, false, false, 0, []⟩,
   ⟨0x0C0, 0, 32, false, .ro, .none, false, false, 0, []⟩,
   ⟨0x0C4, 0, 32, false, .ro, .none, false, false, 0, []⟩,
   ⟨0x0C8, 0, 32, false, .ro, .none, false, false, 0, []⟩,
   ⟨0x0CC, 0, 32, false, .ro, .none, false, false, 0, []⟩,
   ⟨0x0D0, 0, 32, false, .ro, .none, false, false, 0, []⟩,
   ⟨0x0D4, 0, 32, false, .ro, .none, false, false, 0, []⟩,
   ⟨0x0D8, 0, 32, false, .ro, .none, false, false, 0, []⟩,
   ⟨0x0DC, 0, 4, false, .ro, .none, false, false, 0, []⟩,
   ⟨0x0DC, 4, 24, false, .ro, .none, false, false, 0, []⟩,
   ⟨0x0DC, 28, 2, false, .ro, .none, false, false, 0, []⟩,
   ⟨0x0DC, 30, 2, false, .ro, .none, false, false, 0, []⟩]

/-- Rows of the NAND page. -/
def nandRows : List RegRow := nandRows0 ++ nandRows1

/-- Rows of the MEDIA page. -/
def mediaRows0 : List RegRow :=
  [⟨0x040, 0, 1, false, .ro, .none, false, false, 0, []⟩,
   ⟨0x040, 1, 1, false, .ro, .none, false, false, 0, []⟩,
   ⟨0x040, 2, 1, false, .ro, .none, false, false, 0, []⟩,
   ⟨0x040, 3, 1, false, .ro, .none, false, false, 0, []⟩,
   ⟨0x040, 4, 1, false, .ro, .none, false, false, 0, []⟩,
   ⟨0x040, 5, 1, false, .ro, .none, false, false, 0, []⟩,
   ⟨0x040, 6, 1, false, .ro, .none, false, false, 0, []⟩,
   ⟨0x040, 7, 1, false, .ro, .none, false, false, 0, []⟩,
   ⟨0x040, 8, 4, false, .ro, .none, false, false, 0, []⟩,
   ⟨0x040, 12, 20, false, .ro, .none, false, false, 0, []⟩,
   ⟨0x044, 0, 1, false, .wo, .none, false, false, 0, []⟩,
   ⟨0x044, 1, 31, false, .ro, .none, false, false, 0, []⟩,
   ⟨0x048, 0, 64, true, .ro, .none, false, false, 0, []⟩,
   ⟨0x050, 0, 64, true, .ro, .none, false, false, 0, []⟩,
   ⟨0x058, 0, 64, true, .ro, .none, false, false, 0, []⟩,
   ⟨0x060, 0, 64, true, .ro, .none, false, false, 0, []⟩,
   ⟨0x068, 0, 64, true, .ro, .none, false, false, 0, []⟩,
   ⟨0x070, 0, 64, true, .ro, .none, false, false, 0, []⟩,
   ⟨0x078, 0, 32, false, .ro, .none, false, false, 0, []⟩,
   ⟨0x07C, 0, 32, false, .ro, .none, false, false, 0, []⟩,
   ⟨0x080, 0, 32, false, .ro, .none, false, false, 0, []⟩,
   ⟨0x084, 0, 32, false, .ro, .none, false, false, 0, []⟩,
   ⟨0x088, 0, 17, false, .rw, .inst, true, true, 0, [(100, 100000)]⟩,
   ⟨0x088, 17, 15, false, .ro, .none, false, false, 0, []⟩]

/-- Rows of the MEDIA page. -/
def mediaRows1 : List RegRow :=
  [⟨0x08C, 0, 16, false, .ro, .none, false, false, 0, []⟩,
   ⟨0x08C, 16, 16, false, .ro, .none, false, false, 0, []⟩,
   ⟨0x090, 0, 16, false, .rw, .inst, true, false, 0x12c, [(50, 10000)]⟩,
   ⟨0x090, 16, 16, false, .ro, .none, false, false, 0, []⟩,
   ⟨0x094, 0, 8, false, .rw, .none, false, false, 0xe, [(1, 90)]⟩,
   ⟨0x094, 8, 24, false, .ro, .none, false, false, 0, []⟩,
   ⟨0x098, 0, 16, false, .rw, .none, false, false, 0x3c, [(10, 3600)]⟩,
   ⟨0x098, 16, 16, false, .ro, .none, false, false, 0, []⟩,
   ⟨0x09C, 0, 13, false, .ro, .none, false, false, 0, []⟩,
   ⟨0x09C, 13, 19, false, .ro, .none, false, false, 0, []⟩,
   ⟨0x0A0, 0, 64, true, .ro, .none, false, false, 0, []⟩,
   ⟨0x0A8, 0, 64, true, .ro, .none, false, false, 0, []⟩,
   ⟨0x0B0, 0, 32, false, .ro, .none, false, false, 0, []⟩,
   ⟨0x0B4, 0, 32, false, .ro, .none, false, false, 0, []⟩,
   ⟨0x0B8, 0, 32, false, .ro, .none, false, false, 0, []⟩,
   ⟨0x0BC, 0, 32, false, .ro, .none, false, false, 0, []⟩,
   ⟨0x0C0, 0, 64, true, .ro, .none, false, false, 0, []⟩,
   ⟨0x0C8, 0, 64, true, .ro, .none, false, false, 0, []⟩,
   ⟨0x0D0, 0, 64, true, .ro, .none, false, false, 0, []⟩,
   ⟨0x0D8, 0, 64, true, .ro, .none, false, false, 0, []⟩]

/-- Rows of the MEDIA page. -/
def mediaRows : List RegRow := mediaRows0 ++ mediaRows1

/-- Rows of the ARRAY page. -/
def arrayRows0 : List RegRow :=
  [⟨0x040, 0, 3, false, .ro, .none, false, false, 0, []⟩,
   ⟨0x040, 3, 1, false, .ro, .none, false, false, 0, []⟩,
   ⟨0x040, 4, 1, false, .ro, .none, false, false, 0, []⟩,
   ⟨0x040, 5, 2, false, .ro, .none, false, false, 0, []⟩,
   ⟨0x040, 7, 1, false, .ro, .none, false, false, 0, []⟩,
   ⟨0x040, 8, 1, false, .ro, .none, false, false, 0, []⟩,
   ⟨0x040, 9, 2, false, .ro, .none, false, false, 0, []⟩,
   ⟨0x040, 11, 21, false, .ro, .none, false, false, 0, []⟩,
   ⟨0x044, 0, 2, false, .ro, .none, false, false, 0, []⟩,
   ⟨0x044, 2, 2, false, .ro, .none, false, false, 0, []⟩,
   ⟨0x044, 4, 12, false, .ro, .none, false, false, 0, []⟩,
   ⟨0x044, 16, 8, false, .ro, .none, false, false, 0, []⟩,
   ⟨0x044, 24, 8, false, .ro, .none, false, false, 0, []⟩,
   ⟨0x048, 0, 2, false, .rw, .inst, false, false, 2, []⟩,
   ⟨0x048, 2, 1, false, .wo, .inst, false, false, 0, []⟩,
   ⟨0x048, 3, 29, false, .ro, .none, false, false, 0, []⟩,
   ⟨0x04C, 0, 9, false, .rw, .inst, false, false, 0, []⟩,
   ⟨0x04C, 9, 1, false, .wo, .inst, false, false, 0, []⟩,
   ⟨0x04C, 10, 22, false, .ro, .none, false, false, 0, []⟩,
   ⟨0x050, 0, 64, true, .ro, .none, false, false, 0, []⟩,
   ⟨0x058, 0, 64, true, .ro, .none, false, false, 0, []⟩,
   ⟨0x060, 0, 64, true, .ro, .none, false, false, 0, []⟩,
   ⟨0x068, 0, 64, true, .ro, .none, false, false, 0, []⟩,
   ⟨0x070, 0, 64, true, .ro, .none, false, false, 0, []⟩]

/-- Rows of the ARRAY page. -/
def arrayRows1 : List RegRow :=
  [⟨0x078, 0, 10, false, .ro, .none, false, false, 0, []⟩,
   ⟨0x078, 10, 6, false, .ro, .none, false, false, 0, []⟩,
   ⟨0x078, 16, 6, false, .ro, .none, false, false, 0, []⟩,
   ⟨0x078, 22, 10, false, .ro, .none, false, false, 0, []⟩,
   ⟨0x07C, 0, 11, false, .ro, .none, false, false, 0, []⟩,
   ⟨0x07C, 11, 21, false, .ro, .none, false, false, 0, []⟩,
   ⟨0x080, 0, 9, false, .ro, .none, false, false, 0, []⟩,
   ⟨0x080, 9, 7, false, .ro, .none, false, false, 0, []⟩,
   ⟨0x080, 16, 9, false, .ro, .none, false, false, 0, []⟩,
   ⟨0x080, 25, 7, false, .ro, .none, false, false, 0, []⟩,
   ⟨0x084, 0, 9, false, .ro, .none, false, false, 0, []⟩,
   ⟨0x084, 9, 23, false, .ro, .none, false, false, 0, []⟩,
   ⟨0x088, 0, 6, false, .ro, .none, false, false, 0, []⟩,
   ⟨0x088, 6, 26, false, .ro, .none, false, false, 0, []⟩,
   ⟨0x08C, 0, 32, false, .ro, .none, false, false, 0, []⟩,
   ⟨0x090, 0, 64, true, .ro, .none, false, false, 0, []⟩,
   ⟨0x098, 0, 32, false, .ro, .none, false, false, 0, []⟩,
   ⟨0x09C, 0, 32, false, .ro, .none, false, false, 0, []⟩] ++
  ((List.range 16).flatMap fun i => [⟨(0x100 + 4 * i), 0, 32, false, .ro, .none, false, false, 0, []⟩])

/-- Rows of the ARRAY page. -/
def arrayRows : List RegRow := arrayRows0 ++ arrayRows1

/-- Rows of the CORE page. -/
def coreRows0 : List RegRow :=
  [⟨0x040, 0, 3, false, .ro, .none, false, false, 0, []⟩,
   ⟨0x040, 3, 1, false, .ro, .none, false, false, 0, []⟩,
   ⟨0x040, 4, 1, false, .ro, .none, false, false, 0, []⟩,
   ⟨0x040, 5, 3, false, .ro, .none, false, false, 0, []⟩,
   ⟨0x040, 8, 9, false, .ro, .none, false, false, 0x1f0, []⟩,
   ⟨0x040, 17, 15, false, .ro, .none, false, false, 0, []⟩,
   ⟨0x044, 0, 1, false, .wo, .inst, false, false, 0, []⟩,
   ⟨0x044, 1, 1, false, .wo, .inst, false, false, 0, []⟩,
   ⟨0x044, 2, 1, false, .wo, .inst, false, false, 0, []⟩,
   ⟨0x044, 3, 29, false, .ro, .none, false, false, 0, []⟩,
   ⟨0x048, 0, 64, true, .ro, .none, false, false, 0, []⟩,
   ⟨0x050, 0, 64, true, .ro, .none, false, false, 0, []⟩,
   ⟨0x058, 0, 64, true, .ro, .none, false, false, 0, []⟩,
   ⟨0x060, 0, 64, true, .ro, .none, false, false, 0, []⟩,
   ⟨0x068, 0, 64, true, .ro, .none, false, false, 0, []⟩,
   ⟨0x070, 0, 32, false, .ro, .none, false, false, 0, []⟩,
   ⟨0x074, 0, 32, false, .ro, .none, false, false, 0, []⟩,
   ⟨0x078, 0, 32, false, .ro, .none, false, false, 0, []⟩,
   ⟨0x07C, 0, 32, false, .ro, .none, false, false, 0, []⟩,
   ⟨0x080, 0, 6, false, .ro, .none, false, false, 0, []⟩,
   ⟨0x080, 6, 2, false, .ro, .none, false, false, 0, []⟩,
   ⟨0x080, 8, 6, false, .ro, .none, false, false, 0, []⟩,
   ⟨0x080, 14, 18, false, .ro, .none, false, false, 0, []⟩,
   ⟨0x084, 0, 21, false, .ro, .none, false, false, 0, []⟩]

/-- Rows of the CORE page. -/
def coreRows1 : List RegRow :=
  [⟨0x084, 21, 10, false, .ro, .none, false, false, 0, []⟩,
   ⟨0x084, 31, 1, false, .ro, .none, false, false, 0, []⟩]

/-- Rows of the CORE page. -/
def coreRows : List RegRow := coreRows0 ++ coreRows1

/-- Rows of the CLUSTER page. -/
def clusterRows : List RegRow :=
  [⟨0x040, 0, 3, false, .ro, .none, false, false, 0, []⟩,
   ⟨0x040, 3, 1, false, .ro, .none, false, false, 0, []⟩,
   ⟨0x040, 4, 4, false, .ro, .none, false, false, 0, []⟩,
   ⟨0x040, 8, 8, false, .ro, .none, false, false, 0, []⟩,
   ⟨0x040, 16, 7, false, .ro, .none, false, false, 0, []⟩,
   ⟨0x040, 23, 9, false, .ro, .none, false, false, 0, []⟩,
   ⟨0x044, 0, 13, false, .ro, .none, false, false, 0, []⟩,
   ⟨0x044, 13, 19, false, .ro, .none, false, false, 0, []⟩,
   ⟨0x048, 0, 32, false, .ro, .none, false, false, 0, []⟩,
   ⟨0x04C, 0, 32, false, .ro, .none, false, false, 0, []⟩,
   ⟨0x050, 0, 32, false, .ro, .none, false, false, 0, []⟩,
   ⟨0x054, 0, 32, false, .ro, .none, false, false, 0, []⟩,
   ⟨0x058, 0, 12, false, .ro, .none, false, false, 0, []⟩,
   ⟨0x058, 12, 6, false, .ro, .none, false, false, 0, []⟩,
   ⟨0x058, 18, 3, false, .ro, .none, false, false, 0, []⟩,
   ⟨0x058, 21, 1, false, .ro, .none, false, false, 0, []⟩,
   ⟨0x058, 22, 10, false, .ro, .none, false, false, 0, []⟩] ++
  ((List.range 8).flatMap fun i => [⟨(0x060 + 4 * i), 0, 32, false, .ro, .none, false, false, 0, []⟩]) ++
  ((List.range 64).flatMap fun c => [⟨(0x080 + 4 * c), 0, 32, false, .ro, .none, false, false, 0, []⟩]) ++
  [⟨0x180, 0, 12, false, .rw, .inst, false, false, 0, []⟩,
   ⟨0x180, 12, 20, false, .ro, .none, false, false, 0, []⟩] ++
  ((List.range 4).flatMap fun i => [⟨(0x184 + 4 * i), 0, 32, false, .ro, .none, false, false, 0, []⟩])

/-- Rows of the EARMARK page. -/
def earmarkRows : List RegRow :=
  [⟨0x040, 0, 32, false, .rw, .inst, true, false, 0xff000000, []⟩,
   ⟨0x044, 0, 8, false, .rw, .inst, true, false, 0x10, [(1, 255)]⟩,
   ⟨0x044, 8, 24, false, .ro, .none, false, false, 0, []⟩,
   ⟨0x048, 0, 32, false, .ro, .none, false, false, 0, []⟩,
   ⟨0x04C, 0, 32, false, .ro, .none, false, false, 0, []⟩,
   ⟨0x050, 0, 64, true, .ro, .none, false, false, 0, []⟩,
   ⟨0x058, 0, 32, false, .ro, .none, false, false, 0, []⟩,
   ⟨0x05C, 0, 32, false, .ro, .none, false, false, 0, []⟩,
   ⟨0x060, 0, 32, false, .ro, .none, false, false, 0, []⟩]

/-- Rows of the BANK page. -/
def bankRows : List RegRow :=
  [⟨0x040, 0, 2, false, .rw, .none, false, false, 0, [(0, 2)]⟩,
   ⟨0x040, 2, 5, false, .rw, .none, false, false, 0, []⟩,
   ⟨0x040, 7, 1, false, .rw, .none, false, false, 0, []⟩,
   ⟨0x040, 8, 24, false, .ro, .none, false, false, 0, []⟩,
   ⟨0x044, 0, 9, false, .ro, .none, false, false, 0x1f0, []⟩,
   ⟨0x044, 9, 1, false, .ro, .none, false, false, 0, []⟩,
   ⟨0x044, 10, 22, false, .ro, .none, false, false, 0, []⟩,
   ⟨0x048, 0, 13, false, .ro, .none, false, false, 0, []⟩,
   ⟨0x048, 13, 1, false, .ro, .none, false, false, 1, []⟩,
   ⟨0x048, 14, 1, false, .ro, .none, false, false, 0, []⟩,
   ⟨0x048, 15, 17, false, .ro, .none, false, false, 0, []⟩,
   ⟨0x04C, 0, 32, false, .ro, .none, false, false, 0, []⟩,
   ⟨0x050, 0, 12, false, .ro, .none, false, false, 0, []⟩,
   ⟨0x050, 12, 20, false, .ro, .none, false, false, 0, []⟩,
   ⟨0x054, 0, 32, false, .ro, .none, false, false, 0, []⟩,
   ⟨0x058, 0, 64, true, .ro, .none, false, false, 0, []⟩,
   ⟨0x060, 0, 64, true, .ro, .none, false, false, 0, []⟩,
   ⟨0x068, 0, 32, false, .ro, .none, false, false, 0, []⟩]

/-- Rows of the CIPHER page. -/
def cipherRows : List RegRow :=
  [⟨0x040, 0, 6, false, .ro, .none, false, false, 0x3f, []⟩,
   ⟨0x040, 6, 26, false, .ro, .none, false, false, 0, []⟩,
   ⟨0x044, 0, 11, false, .ro, .none, false, false, 0, []⟩,
   ⟨0x044, 11, 5, false, .ro, .none, false, false, 0, []⟩,
   ⟨0x044, 16, 11, false, .ro, .none, false, false, 0, []⟩,
   ⟨0x044, 27, 5, false, .ro, .none, false, false, 0, []⟩,
   ⟨0x048, 0, 32, false, .ro, .none, false, false, 0, []⟩,
   ⟨0x04C, 0, 32, false, .ro, .none, false, false, 0, []⟩,
   ⟨0x050, 0, 32, false, .ro, .none, false, false, 0, []⟩,
   ⟨0x054, 0, 32, false, .ro, .none, false, false, 0, []⟩,
   ⟨0x058, 0, 64, true, .ro, .none, false, false, 0, []⟩,
   ⟨0x060, 0, 64, true, .ro, .none, false, false, 0, []⟩]

/-- Rows of the KEYENG page. -/
def keyengRows : List RegRow :=
  [⟨0x040, 0, 2, false, .ro, .none, false, false, 2, []⟩,
   ⟨0x040, 2, 4, false, .ro, .none, false, false, 0, []⟩,
   ⟨0x040, 6, 2, false, .ro, .none, false, false, 0, []⟩,
   ⟨0x040, 8, 9, false, .ro, .none, false, false, 0, []⟩,
   ⟨0x040, 17, 1, false, .ro, .none, false, false, 0, []⟩,
   ⟨0x040, 18, 14, false, .ro, .none, false, false, 0, []⟩,
   ⟨0x044, 0, 1, false, .wo, .oper, false, false, 0, []⟩,
   ⟨0x044, 1, 1, false, .wo, .oper, false, false, 0, []⟩,
   ⟨0x044, 2, 30, false, .ro, .none, false, false, 0, []⟩,
   ⟨0x048, 0, 6, false, .ro, .none, false, false, 0, []⟩,
   ⟨0x048, 6, 26, false, .ro, .none, false, false, 0, []⟩,
   ⟨0x04C, 0, 32, false, .ro, .none, false, false, 0, []⟩,
   ⟨0x050, 0, 32, false, .ro, .none, false, false, 0, []⟩,
   ⟨0x054, 0, 32, false, .ro, .none, false, false, 0, []⟩,
   ⟨0x058, 0, 64, true, .ro, .none, false, false, 0, []⟩]

/-- Rows of the DIGEST page. -/
def digestRows0 : List RegRow :=
  [⟨0x040, 0, 64, true, .ro, .none, false, false, 0xffffffffffffffff, []⟩,
   ⟨0x048, 0, 6, false, .ro, .none, false, false, 0, []⟩,
   ⟨0x048, 6, 2, false, .ro, .none, false, false, 0, []⟩,
   ⟨0x048, 8, 6, false, .ro, .none, false, false, 0, []⟩,
   ⟨0x048, 14, 18, false, .ro, .none, false, false, 0, []⟩,
   ⟨0x04C, 0, 6, false, .rw, .none, false, false, 0, []⟩,
   ⟨0x04C, 6, 26, false, .ro, .none, false, false, 0, []⟩,
   ⟨0x050, 0, 1, false, .wo, .none, false, false, 0, []⟩,
   ⟨0x050, 1, 1, false, .wo, .none, false, false, 0, []⟩,
   ⟨0x050, 2, 1, false, .wo, .none, false, false, 0, []⟩,
   ⟨0x050, 3, 2, false, .rw, .none, false, false, 0, []⟩,
   ⟨0x050, 5, 1, false, .rw, .none, false, false, 0, []⟩,
   ⟨0x050, 6, 26, false, .ro, .none, false, false, 0, []⟩,
   ⟨0x054, 0, 2, false, .ro, .none, false, false, 0, []⟩,
   ⟨0x054, 2, 9, false, .ro, .none, false, false, 0, []⟩,
   ⟨0x054, 11, 3, false, .ro, .none, false, false, 0, []⟩,
   ⟨0x054, 14, 18, false, .ro, .none, false, false, 0, []⟩,
   ⟨0x058, 0, 64, true, .wo, .none, false, false, 0, []⟩,
   ⟨0x060, 0, 64, true, .wo, .none, false, false, 0, []⟩,
   ⟨0x068, 0, 4, false, .rw, .none, false, false, 8, [(1, 8)]⟩,
   ⟨0x068, 4, 28, false, .ro, .none, false, false, 0, []⟩,
   ⟨0x06C, 0, 32, false, .ro, .none, false, false, 0, []⟩] ++
  ((List.range 16).flatMap fun i => [⟨(0x070 + 4 * i), 0, 32, false, .ro, .none, false, false, 0, []⟩]) ++
  ((List.range 16).flatMap fun i => [⟨(0x0B0 + 4 * i), 0, 32, false, .rw, .none, false, false, 0, []⟩])

/-- Rows of the DIGEST page. -/
def digestRows1 : List RegRow :=
  [⟨0x0F0, 0, 32, false, .ro, .none, false, false, 0, []⟩,
   ⟨0x0F4, 0, 32, false, .ro, .none, false, false, 0, []⟩]

/-- Rows of the DIGEST page. -/
def digestRows : List RegRow := digestRows0 ++ digestRows1

/-- Rows of the ENTROPY page. -/
def entropyRows : List RegRow :=
  [⟨0x040, 0, 2, false, .ro, .none, false, false, 0, []⟩,
   ⟨0x040, 2, 2, false, .ro, .none, false, false, 0, []⟩,
   ⟨0x040, 4, 28, false, .ro, .none, false, false, 0, []⟩,
   ⟨0x044, 0, 8, false, .ro, .none, false, false, 0x29, []⟩,
   ⟨0x044, 8, 24, false, .ro, .none, false, false, 0, []⟩,
   ⟨0x048, 0, 11, false, .ro, .none, false, false, 0, []⟩,
   ⟨0x048, 11, 21, false, .ro, .none, false, false, 0, []⟩,
   ⟨0x04C, 0, 32, false, .ro, .none, false, false, 0, []⟩,
   ⟨0x050, 0, 32, false, .ro, .none, false, false, 0, []⟩,
   ⟨0x054, 0, 32, false, .ro, .none, false, false, 0, []⟩]

/-- Rows of the HOSTQ page. -/
def hostqRows0 : List RegRow :=
  [⟨0x040, 0, 2, false, .ro, .none, false, false, 0, []⟩,
   ⟨0x040, 2, 30, false, .ro, .none, false, false, 0, []⟩,
   ⟨0x044, 0, 3, false, .ro, .none, false, false, 0, []⟩,
   ⟨0x048, 0, 3, false, .ro, .none, false, false, 0, []⟩,
   ⟨0x044, 3, 5, false, .ro, .none, false, false, 0, []⟩,
   ⟨0x048, 3, 5, false, .ro, .none, false, false, 0, []⟩,
   ⟨0x044, 8, 1, false, .ro, .none, false, false, 0, []⟩,
   ⟨0x048, 8, 1, false, .ro, .none, false, false, 0, []⟩,
   ⟨0x044, 9, 1, false, .ro, .none, false, false, 0, []⟩,
   ⟨0x048, 9, 1, false, .ro, .none, false, false, 0, []⟩,
   ⟨0x044, 10, 1, false, .ro, .none, false, false, 0, []⟩,
   ⟨0x048, 10, 1, false, .ro, .none, false, false, 0, []⟩,
   ⟨0x044, 11, 21, false, .ro, .none, false, false, 0, []⟩,
   ⟨0x048, 11, 21, false, .ro, .none, false, false, 0, []⟩,
   ⟨0x04C, 0, 13, false, .ro, .none, false, false, 0, []⟩,
   ⟨0x04C, 13, 3, false, .ro, .none, false, false, 0, []⟩,
   ⟨0x04C, 16, 13, false, .ro, .none, false, false, 0, []⟩,
   ⟨0x04C, 29, 3, false, .ro, .none, false, false, 0, []⟩,
   ⟨0x050, 0, 14, false, .ro, .none, false, false, 0, []⟩,
   ⟨0x050, 14, 2, false, .ro, .none, false, false, 0, []⟩,
   ⟨0x050, 16, 14, false, .ro, .none, false, false, 0, []⟩,
   ⟨0x050, 30, 2, false, .ro, .none, false, false, 0, []⟩,
   ⟨0x054, 0, 32, false, .ro, .none, false, false, 0, []⟩,
   ⟨0x058, 0, 13, false, .ro, .none, false, false, 0, []⟩]

/-- Rows of the HOSTQ page. -/
def hostqRows1 : List RegRow :=
  [⟨0x058, 13, 19, false, .ro, .none, false, false, 0, []⟩,
   ⟨0x05C, 0, 32, false, .ro, .none, false, false, 0, []⟩,
   ⟨0x060, 0, 11, false, .rw, .none, false, false, 0, []⟩,
   ⟨0x060, 11, 1, false, .rw, .none, false, false, 0, []⟩,
   ⟨0x060, 12, 1, false, .rw, .none, false, false, 0, []⟩,
   ⟨0x060, 13, 19, false, .ro, .none, false, false, 0, []⟩,
   ⟨0x064, 0, 20, false, .ro, .none, false, false, 0, []⟩,
   ⟨0x064, 20, 12, false, .ro, .none, false, false, 0, []⟩,
   ⟨0x068, 0, 64, true, .ro, .none, false, false, 0, []⟩,
   ⟨0x070, 0, 64, true, .ro, .none, false, false, 0, []⟩,
   ⟨0x078, 0, 32, false, .ro, .none, false, false, 0, []⟩,
   ⟨0x07C, 0, 32, false, .ro, .none, false, false, 0, []⟩] ++
  ((List.range 16).flatMap fun i => [⟨(0x080 + 4 * i), 0, 32, false, .ro, .none, false, false, 0, []⟩])

/-- Rows of the HOSTQ page. -/
def hostqRows : List RegRow := hostqRows0 ++ hostqRows1

/-- Rows of the VF page. -/
def vfRows0 : List RegRow :=
  [⟨0x080, 0, 32, false, .ro, .none, false, false, 0, []⟩,
   ⟨0x084, 0, 13, false, .ro, .none, false, false, 0, []⟩,
   ⟨0x084, 13, 19, false, .ro, .none, false, false, 0, []⟩,
   ⟨0x088, 0, 64, true, .ro, .none, false, false, 0, []⟩,
   ⟨0x090, 0, 32, false, .ro, .none, false, false, 0, []⟩,
   ⟨0x094, 0, 8, false, .ro, .none, false, false, 0, []⟩,
   ⟨0x094, 8, 8, false, .ro, .none, false, false, 0, []⟩,
   ⟨0x094, 16, 10, false, .ro, .none, false, false, 0, []⟩,
   ⟨0x094, 26, 6, false, .ro, .none, false, false, 0, []⟩,
   ⟨0x098, 0, 10, false, .ro, .none, false, false, 0, []⟩,
   ⟨0x098, 10, 6, false, .ro, .none, false, false, 0, []⟩,
   ⟨0x098, 16, 11, false, .ro, .none, false, false, 0, []⟩,
   ⟨0x098, 27, 5, false, .ro, .none, false, false, 0, []⟩,
   ⟨0x09C, 0, 10, false, .ro, .none, false, false, 0, []⟩,
   ⟨0x09C, 10, 6, false, .ro, .none, false, false, 0, []⟩,
   ⟨0x09C, 16, 11, false, .ro, .none, false, false, 0, []⟩,
   ⟨0x09C, 27, 5, false, .ro, .none, false, false, 0, []⟩,
   ⟨0x0A0, 0, 32, false, .ro, .none, false, false, 0, []⟩,
   ⟨0x0A4, 0, 32, false, .ro, .none, false, false, 0, []⟩,
   ⟨0x0A8, 0, 21, false, .ro, .none, false, false, 0, []⟩,
   ⟨0x0A8, 21, 11, false, .ro, .none, false, false, 0, []⟩,
   ⟨0x0AC, 0, 6, false, .ro, .none, false, false, 0, []⟩,
   ⟨0x0AC, 6, 1, false, .ro, .none, false, false, 0, []⟩,
   ⟨0x0AC, 7, 25, false, .ro, .none, false, false, 0, []⟩]

/-- Rows of the VF page. -/
def vfRows1 : List RegRow :=
  [⟨0x0B0, 0, 6, false, .rw, .none, false, false, 0, []⟩,
   ⟨0x0B0, 6, 1, false, .rw, .none, false, false, 0, []⟩,
   ⟨0x0B0, 7, 25, false, .ro, .none, false, false, 0, []⟩,
   ⟨0x0B4, 0, 32, false, .ro, .none, false, false, 0, []⟩,
   ⟨0x0B8, 0, 64, true, .ro, .none, false, false, 0, []⟩,
   ⟨0x0C0, 0, 32, false, .ro, .none, false, false, 0, []⟩] ++
  (((List.range 16).drop 1).flatMap fun k => [⟨(0x044 + 4 * (k - 1)), 0, 9, false, .ro, .none, false, false, 0, []⟩]) ++
  (((List.range 16).drop 1).flatMap fun k => [⟨(0x044 + 4 * (k - 1)), 15, 1, false, .ro, .none, false, false, 0, []⟩]) ++
  [⟨0x040, 0, 9, false, .ro, .none, false, false, 0, []⟩]

/-- Rows of the VF page. -/
def vfRows : List RegRow := vfRows0 ++ vfRows1

/-- Rows of the TENANT page. -/
def tenantRows0 : List RegRow :=
  [⟨0x040, 0, 9, false, .rw, .none, false, false, 0, [(0, 257), (496, 498)]⟩,
   ⟨0x040, 9, 23, false, .ro, .none, false, false, 0, []⟩,
   ⟨0x044, 0, 13, false, .ro, .none, false, false, 0xf80, []⟩,
   ⟨0x044, 13, 3, false, .ro, .none, false, false, 0, []⟩,
   ⟨0x044, 16, 13, false, .ro, .none, false, false, 0, []⟩,
   ⟨0x044, 29, 3, false, .ro, .none, false, false, 0, []⟩,
   ⟨0x048, 0, 64, true, .ro, .none, false, false, 0xffffffffffffffff, []⟩,
   ⟨0x050, 0, 32, false, .ro, .none, false, false, 0, []⟩,
   ⟨0x054, 0, 11, false, .ro, .none, false, false, 0x380, []⟩,
   ⟨0x054, 11, 5, false, .ro, .none, false, false, 0, []⟩,
   ⟨0x054, 16, 11, false, .ro, .none, false, false, 0x3c0, []⟩,
   ⟨0x054, 27, 5, false, .ro, .none, false, false, 0, []⟩,
   ⟨0x058, 0, 13, false, .ro, .none, false, false, 0xfe0, []⟩,
   ⟨0x058, 13, 3, false, .ro, .none, false, false, 0, []⟩,
   ⟨0x058, 16, 10, false, .ro, .none, false, false, 0x3e8, []⟩,
   ⟨0x058, 26, 6, false, .ro, .none, false, false, 0, []⟩,
   ⟨0x05C, 0, 32, false, .ro, .none, false, false, 0, []⟩,
   ⟨0x060, 0, 32, false, .ro, .none, false, false, 0, []⟩,
   ⟨0x064, 0, 23, false, .ro, .none, false, false, 0x400000, []⟩,
   ⟨0x064, 23, 9, false, .ro, .none, false, false, 0, []⟩,
   ⟨0x068, 0, 2, false, .ro, .none, false, false, 0, []⟩,
   ⟨0x068, 2, 30, false, .ro, .none, false, false, 0, []⟩,
   ⟨0x06C, 0, 32, false, .ro, .none, false, false, 0, []⟩,
   ⟨0x070, 0, 32, false, .ro, .none, false, false, 0, []⟩]

/-- Rows of the TENANT page. -/
def tenantRows1 : List RegRow :=
  [⟨0x074, 0, 32, false, .ro, .none, false, false, 0, []⟩,
   ⟨0x078, 0, 9, false, .ro, .none, false, false, 0, []⟩,
   ⟨0x078, 9, 23, false, .ro, .none, false, false, 0, []⟩]

/-- Rows of the TENANT page. -/
def tenantRows : List RegRow := tenantRows0 ++ tenantRows1

/-- Rows of the XLATE page. -/
def xlateRows : List RegRow :=
  [⟨0x040, 0, 21, false, .ro, .none, false, false, 0, []⟩,
   ⟨0x040, 21, 11, false, .ro, .none, false, false, 0, []⟩,
   ⟨0x044, 0, 32, false, .ro, .none, false, false, 0, []⟩,
   ⟨0x048, 0, 32, false, .ro, .none, false, false, 0, []⟩,
   ⟨0x04C, 0, 64, true, .ro, .none, false, false, 0, []⟩,
   ⟨0x054, 0, 9, false, .ro, .none, false, false, 0, []⟩,
   ⟨0x054, 9, 1, false, .ro, .none, false, false, 0, []⟩,
   ⟨0x054, 10, 1, false, .ro, .none, false, false, 0, []⟩,
   ⟨0x054, 11, 1, false, .ro, .none, false, false, 0, []⟩,
   ⟨0x054, 12, 20, false, .ro, .none, false, false, 0, []⟩,
   ⟨0x058, 0, 32, false, .ro, .none, false, false, 0, []⟩]

/-- Rows of the DROVE page. -/
def droveRows0 : List RegRow :=
  [⟨0x040, 0, 2, false, .ro, .none, false, false, 0, []⟩,
   ⟨0x040, 2, 6, false, .ro, .none, false, false, 0, []⟩,
   ⟨0x040, 8, 24, false, .ro, .none, false, false, 0, []⟩,
   ⟨0x044, 0, 64, true, .ro, .none, false, false, 0, []⟩,
   ⟨0x04C, 0, 2, false, .ro, .none, false, false, 0, []⟩,
   ⟨0x04C, 2, 5, false, .ro, .none, false, false, 0, []⟩,
   ⟨0x04C, 7, 5, false, .ro, .none, false, false, 0, []⟩,
   ⟨0x04C, 12, 5, false, .ro, .none, false, false, 0, []⟩,
   ⟨0x04C, 17, 1, false, .ro, .none, false, false, 1, []⟩,
   ⟨0x04C, 18, 1, false, .ro, .none, false, false, 0, []⟩,
   ⟨0x04C, 19, 1, false, .ro, .none, false, false, 0, []⟩,
   ⟨0x04C, 20, 1, false, .ro, .none, false, false, 0, []⟩,
   ⟨0x04C, 21, 6, false, .ro, .none, false, false, 0, []⟩,
   ⟨0x04C, 27, 5, false, .ro, .none, false, false, 0, []⟩,
   ⟨0x050, 0, 32, false, .ro, .none, false, false, 0, []⟩,
   ⟨0x054, 0, 32, false, .ro, .none, false, false, 0, []⟩,
   ⟨0x058, 0, 1, false, .ro, .none, false, false, 0, []⟩,
   ⟨0x05C, 0, 1, false, .ro, .none, false, false, 0, []⟩,
   ⟨0x058, 1, 3, false, .ro, .none, false, false, 0, []⟩,
   ⟨0x05C, 1, 3, false, .ro, .none, false, false, 0, []⟩,
   ⟨0x058, 4, 5, false, .ro, .none, false, false, 0, []⟩,
   ⟨0x05C, 4, 5, false, .ro, .none, false, false, 0, []⟩,
   ⟨0x058, 9, 23, false, .ro, .none, false, false, 0, []⟩,
   ⟨0x05C, 9, 23, false, .ro, .none, false, false, 0, []⟩]

/-- Rows of the DROVE page. -/
def droveRows1 : List RegRow :=
  [⟨0x060, 0, 32, false, .ro, .none, false, false, 0, []⟩,
   ⟨0x064, 0, 32, false, .ro, .none, false, false, 0, []⟩,
   ⟨0x068, 0, 32, false, .ro, .none, false, false, 0, []⟩,
   ⟨0x06C, 0, 1, false, .rw, .inst, false, false, 0, []⟩,
   ⟨0x06C, 1, 31, false, .ro, .none, false, false, 0, []⟩,
   ⟨0x070, 0, 32, false, .ro, .none, false, false, 0, []⟩,
   ⟨0x074, 0, 32, false, .ro, .none, false, false, 0, []⟩,
   ⟨0x078, 0, 32, false, .ro, .none, false, false, 0, []⟩,
   ⟨0x07C, 0, 4, false, .ro, .none, false, false, 0, []⟩,
   ⟨0x07C, 4, 28, false, .ro, .none, false, false, 0, []⟩]

/-- Rows of the DROVE page. -/
def droveRows : List RegRow := droveRows0 ++ droveRows1

/-- Rows of the DRAM page. -/
def dramRows : List RegRow :=
  [⟨0x040, 0, 3, false, .ro, .none, false, false, 0, []⟩,
   ⟨0x040, 3, 5, false, .ro, .none, false, false, 0, []⟩,
   ⟨0x040, 8, 3, false, .ro, .none, false, false, 0, []⟩,
   ⟨0x040, 11, 21, false, .ro, .none, false, false, 0, []⟩,
   ⟨0x044, 0, 7, false, .ro, .none, false, false, 0, []⟩,
   ⟨0x044, 7, 1, false, .ro, .none, false, false, 0, []⟩,
   ⟨0x044, 8, 1, false, .ro, .none, false, false, 0, []⟩,
   ⟨0x044, 9, 23, false, .ro, .none, false, false, 0, []⟩] ++
  ((List.range 10).flatMap fun i => [⟨(0x048 + 4 * i), 0, 8, false, .ro, .none, false, false, 0, []⟩]) ++
  ((List.range 10).flatMap fun i => [⟨(0x048 + 4 * i), 8, 8, false, .ro, .none, false, false, 0, []⟩]) ++
  ((List.range 10).flatMap fun i => [⟨(0x048 + 4 * i), 16, 8, false, .ro, .none, false, false, 0, []⟩]) ++
  ((List.range 10).flatMap fun i => [⟨(0x048 + 4 * i), 24, 8, false, .ro, .none, false, false, 0, []⟩]) ++
  [⟨0x070, 0, 8, false, .ro, .none, false, false, 0, []⟩,
   ⟨0x070, 8, 24, false, .ro, .none, false, false, 0, []⟩,
   ⟨0x074, 0, 1, false, .wo, .inst, false, false, 0, []⟩,
   ⟨0x074, 1, 31, false, .ro, .none, false, false, 0, []⟩,
   ⟨0x078, 0, 32, false, .ro, .none, false, false, 0, []⟩,
   ⟨0x07C, 0, 32, false, .ro, .none, false, false, 0, []⟩,
   ⟨0x080, 0, 32, false, .ro, .none, false, false, 0, []⟩,
   ⟨0x084, 0, 4, false, .ro, .none, false, false, 0, []⟩,
   ⟨0x084, 4, 28, false, .ro, .none, false, false, 0, []⟩,
   ⟨0x088, 0, 64, true, .ro, .none, false, false, 0, []⟩,
   ⟨0x090, 0, 4, false, .ro, .none, false, false, 0, []⟩,
   ⟨0x090, 4, 28, false, .ro, .none, false, false, 0, []⟩]

/-- Rows of the DRAMC page. -/
def dramcRows : List RegRow :=
  [⟨0x040, 0, 4, false, .ro, .none, false, false, 0, []⟩,
   ⟨0x040, 4, 28, false, .ro, .none, false, false, 0, []⟩,
   ⟨0x044, 0, 10, false, .ro, .none, false, false, 0, []⟩,
   ⟨0x044, 10, 22, false, .ro, .none, false, false, 0, []⟩,
   ⟨0x048, 0, 32, false, .ro, .none, false, false, 0, []⟩,
   ⟨0x04C, 0, 8, false, .rw, .none, false, false, 0x18, [(1, 168)]⟩,
   ⟨0x04C, 8, 24, false, .ro, .none, false, false, 0, []⟩,
   ⟨0x050, 0, 10, false, .rw, .none, false, false, 0xa, [(1, 1000)]⟩,
   ⟨0x050, 10, 22, false, .ro, .none, false, false, 0, []⟩,
   ⟨0x054, 0, 8, false, .rw, .inst, true, false, 0x10, [(1, 255)]⟩,
   ⟨0x054, 8, 24, false, .ro, .none, false, false, 0, []⟩,
   ⟨0x058, 0, 32, false, .ro, .none, false, false, 0, []⟩,
   ⟨0x05C, 0, 32, false, .ro, .none, false, false, 0, []⟩]

/-- Rows of the PWR page. -/
def pwrRows0 : List RegRow :=
  [⟨0x040, 0, 3, false, .ro, .none, false, false, 2, []⟩,
   ⟨0x040, 3, 3, false, .ro, .none, false, false, 2, []⟩,
   ⟨0x040, 6, 26, false, .ro, .none, false, false, 0, []⟩,
   ⟨0x044, 0, 2, false, .wo, .oper, false, false, 0, [(0, 1)]⟩,
   ⟨0x044, 2, 30, false, .ro, .none, false, false, 0, []⟩,
   ⟨0x048, 0, 1, false, .wo, .inst, false, false, 0, []⟩,
   ⟨0x048, 1, 1, false, .wo, .inst, false, false, 0, []⟩,
   ⟨0x048, 2, 30, false, .ro, .none, false, false, 0, []⟩,
   ⟨0x04C, 0, 16, false, .rw, .none, false, false, 0, []⟩,
   ⟨0x04C, 16, 16, false, .ro, .none, false, false, 0, []⟩,
   ⟨0x050, 0, 3, false, .ro, .none, false, false, 0, []⟩,
   ⟨0x050, 3, 2, false, .ro, .none, false, false, 0, []⟩,
   ⟨0x050, 5, 3, false, .ro, .none, false, false, 0, []⟩,
   ⟨0x050, 8, 8, false, .ro, .none, false, false, 0, []⟩,
   ⟨0x050, 16, 8, false, .ro, .none, false, false, 0, []⟩,
   ⟨0x050, 24, 8, false, .ro, .none, false, false, 0, []⟩,
   ⟨0x054, 0, 9, false, .ro, .none, false, false, 0, []⟩,
   ⟨0x054, 9, 1, false, .ro, .none, false, false, 0, []⟩,
   ⟨0x054, 10, 22, false, .ro, .none, false, false, 0, []⟩,
   ⟨0x058, 0, 8, false, .ro, .none, false, false, 0, []⟩,
   ⟨0x058, 8, 24, false, .ro, .none, false, false, 0, []⟩,
   ⟨0x05C, 0, 1, false, .wo, .none, false, false, 0, []⟩,
   ⟨0x05C, 1, 31, false, .ro, .none, false, false, 0, []⟩,
   ⟨0x060, 0, 1, false, .wo, .inst, false, false, 0, []⟩]

/-- Rows of the PWR page. -/
def pwrRows1 : List RegRow :=
  [⟨0x060, 1, 31, false, .ro, .none, false, false, 0, []⟩,
   ⟨0x064, 0, 4, false, .ro, .none, false, false, 0, []⟩,
   ⟨0x064, 4, 28, false, .ro, .none, false, false, 0, []⟩,
   ⟨0x068, 0, 6, false, .ro, .none, false, false, 0, []⟩,
   ⟨0x068, 6, 26, false, .ro, .none, false, false, 0, []⟩,
   ⟨0x06C, 0, 6, false, .rw, .none, false, false, 0, []⟩,
   ⟨0x06C, 6, 26, false, .ro, .none, false, false, 0, []⟩] ++
  ((List.range 4).flatMap fun i => [⟨(0x070 + 4 * i), 0, 32, false, .ro, .none, false, false, 0, []⟩]) ++
  [⟨0x080, 0, 32, false, .ro, .none, false, false, 0, []⟩,
   ⟨0x084, 0, 32, false, .ro, .none, false, false, 0, []⟩,
   ⟨0x088, 0, 2, false, .ro, .none, false, false, 0, []⟩,
   ⟨0x088, 2, 2, false, .ro, .none, false, false, 0, []⟩,
   ⟨0x088, 4, 1, false, .ro, .none, false, false, 0, []⟩,
   ⟨0x088, 5, 3, false, .ro, .none, false, false, 0, []⟩,
   ⟨0x088, 8, 8, false, .ro, .none, false, false, 0, []⟩,
   ⟨0x088, 16, 16, false, .ro, .none, false, false, 0, []⟩,
   ⟨0x090, 0, 12, true, .ro, .none, false, false, 0, []⟩,
   ⟨0x090, 12, 52, true, .rw, .none, false, false, 0, []⟩,
   ⟨0x098, 0, 32, false, .rw, .none, false, false, 0, []⟩,
   ⟨0x09C, 0, 1, false, .wo, .none, false, false, 0, []⟩,
   ⟨0x09C, 1, 2, false, .ro, .none, false, false, 0, []⟩,
   ⟨0x09C, 3, 29, false, .ro, .none, false, false, 0, []⟩]

/-- Rows of the PWR page. -/
def pwrRows : List RegRow := pwrRows0 ++ pwrRows1

/-- Rows of the VREG page. -/
def vregRows : List RegRow :=
  [⟨0x040, 0, 8, false, .ro, .none, false, false, 0, []⟩,
   ⟨0x040, 8, 8, false, .ro, .none, false, false, 0, []⟩,
   ⟨0x040, 16, 8, false, .ro, .none, false, false, 0, []⟩,
   ⟨0x040, 24, 8, false, .ro, .none, false, false, 0, []⟩,
   ⟨0x044, 0, 32, false, .ro, .none, false, false, 0, []⟩,
   ⟨0x048, 0, 32, false, .ro, .none, false, false, 0, []⟩] ++
  ((List.range 8).flatMap fun n => [⟨(0x080 + 0x10 * n), 0, 7, false, .ro, .none, false, false, 0, []⟩]) ++
  ((List.range 8).flatMap fun n => [⟨(0x080 + 0x10 * n), 7, 1, false, .ro, .none, false, false, 0, []⟩]) ++
  ((List.range 8).flatMap fun n => [⟨(0x080 + 0x10 * n), 8, 8, false, .ro, .none, false, false, 0, []⟩]) ++
  ((List.range 8).flatMap fun n => [⟨(0x080 + 0x10 * n), 16, 4, false, .ro, .none, false, false, 0, []⟩]) ++
  ((List.range 8).flatMap fun n => [⟨(0x080 + 0x10 * n), 20, 1, false, .ro, .none, false, false, 0, []⟩]) ++
  ((List.range 8).flatMap fun n => [⟨(0x080 + 0x10 * n), 21, 11, false, .ro, .none, false, false, 0, []⟩]) ++
  ((List.range 8).flatMap fun n => [⟨(0x084 + 0x10 * n), 0, 16, false, .ro, .none, false, false, 0, []⟩]) ++
  ((List.range 8).flatMap fun n => [⟨(0x084 + 0x10 * n), 16, 16, false, .ro, .none, false, false, 0, []⟩]) ++
  ((List.range 8).flatMap fun n => [⟨(0x088 + 0x10 * n), 0, 16, false, .rw, .inst, true, false, 0, []⟩]) ++
  ((List.range 8).flatMap fun n => [⟨(0x088 + 0x10 * n), 16, 16, false, .ro, .none, false, false, 0, []⟩]) ++
  ((List.range 8).flatMap fun n => [⟨(0x08C + 0x10 * n), 0, 16, false, .ro, .none, false, false, 0, []⟩]) ++
  ((List.range 8).flatMap fun n => [⟨(0x08C + 0x10 * n), 16, 16, false, .ro, .none, false, false, 0, []⟩])

/-- Rows of the RTC page. -/
def rtcRows : List RegRow :=
  [⟨0x040, 0, 64, true, .ro, .none, false, false, 0, []⟩,
   ⟨0x048, 0, 64, true, .rw, .oper, false, false, 0, []⟩,
   ⟨0x050, 0, 1, false, .wo, .oper, false, false, 0, []⟩,
   ⟨0x050, 1, 31, false, .ro, .none, false, false, 0, []⟩,
   ⟨0x054, 0, 1, false, .ro, .none, false, false, 0, []⟩,
   ⟨0x054, 1, 1, false, .ro, .none, false, false, 0, []⟩,
   ⟨0x054, 2, 30, false, .ro, .none, false, false, 0, []⟩,
   ⟨0x058, 0, 8, false, .rw, .inst, true, false, 0, [(0, 100), (156, 255)]⟩,
   ⟨0x058, 8, 24, false, .ro, .none, false, false, 0, []⟩] ++
  ((List.range 4).flatMap fun n => [⟨(0x060 + 0x10 * n), 0, 64, true, .rw, .none, false, false, 0, []⟩]) ++
  ((List.range 4).flatMap fun n => [⟨(0x068 + 0x10 * n), 0, 1, false, .rw, .none, false, false, 0, []⟩]) ++
  ((List.range 4).flatMap fun n => [⟨(0x068 + 0x10 * n), 1, 1, false, .rw, .none, false, false, 0, []⟩]) ++
  ((List.range 4).flatMap fun n => [⟨(0x068 + 0x10 * n), 2, 1, false, .rw1c, .none, false, false, 0, []⟩]) ++
  ((List.range 4).flatMap fun n => [⟨(0x068 + 0x10 * n), 3, 29, false, .ro, .none, false, false, 0, []⟩])

/-- Rows of the CLK page. -/
def clkRows : List RegRow :=
  [⟨0x040, 0, 1, false, .ro, .none, false, false, 0, []⟩,
   ⟨0x040, 1, 1, false, .ro, .none, false, false, 0, []⟩,
   ⟨0x040, 2, 14, false, .ro, .none, false, false, 0, []⟩,
   ⟨0x040, 16, 16, false, .ro, .none, false, false, 0, []⟩,
   ⟨0x044, 0, 32, false, .ro, .none, false, false, 0, []⟩,
   ⟨0x048, 0, 5, false, .ro, .none, false, false, 0x1f, []⟩,
   ⟨0x048, 5, 27, false, .ro, .none, false, false, 0, []⟩]

/-- Rows of the OTP page. -/
def otpRows : List RegRow :=
  [⟨0x040, 0, 2, false, .ro, .none, false, false, 0, []⟩,
   ⟨0x040, 2, 2, false, .ro, .none, false, false, 0, []⟩,
   ⟨0x040, 4, 1, false, .ro, .none, false, false, 0, []⟩,
   ⟨0x040, 5, 2, false, .ro, .none, false, false, 0, []⟩,
   ⟨0x040, 7, 1, false, .ro, .none, false, false, 0, []⟩,
   ⟨0x040, 8, 3, false, .ro, .none, false, false, 0, []⟩,
   ⟨0x040, 11, 3, false, .ro, .none, false, false, 0, []⟩,
   ⟨0x040, 14, 1, false, .ro, .none, false, false, 0, []⟩,
   ⟨0x040, 15, 1, false, .ro, .none, false, false, 0, []⟩,
   ⟨0x040, 16, 16, false, .ro, .none, false, false, 0, []⟩,
   ⟨0x044, 0, 32, false, .ro, .none, false, false, 0, []⟩,
   ⟨0x048, 0, 64, true, .ro, .none, false, false, 0, []⟩,
   ⟨0x050, 0, 32, false, .ro, .none, false, false, 0, []⟩]

/-- Rows of the ROLE page. -/
def roleRows : List RegRow :=
  [⟨0x040, 0, 8, false, .wo, .none, false, false, 0, [(1, 2), (4, 4)]⟩,
   ⟨0x040, 8, 2, false, .wo, .none, false, false, 0, [(0, 2)]⟩,
   ⟨0x040, 10, 22, false, .ro, .none, false, false, 0, []⟩,
   ⟨0x044, 0, 2, false, .ro, .none, false, false, 0, []⟩,
   ⟨0x044, 2, 6, false, .ro, .none, false, false, 0, []⟩,
   ⟨0x044, 8, 8, false, .ro, .none, false, false, 0, []⟩,
   ⟨0x044, 16, 16, false, .ro, .none, false, false, 0, []⟩,
   ⟨0x048, 0, 16, false, .rw, .inst, true, false, 0x258, [(10, 65535)]⟩,
   ⟨0x048, 16, 16, false, .ro, .none, false, false, 0, []⟩,
   ⟨0x04C, 0, 3, false, .ro, .none, false, false, 0, []⟩,
   ⟨0x04C, 3, 1, false, .ro, .none, false, false, 0, []⟩,
   ⟨0x04C, 4, 3, false, .ro, .none, false, false, 0, []⟩,
   ⟨0x04C, 7, 1, false, .ro, .none, false, false, 0, []⟩,
   ⟨0x04C, 8, 24, false, .ro, .none, false, false, 0, []⟩] ++
  ((List.range 16).flatMap fun i => [⟨(0x080 + 4 * i), 0, 32, false, .ro, .none, false, false, 0, []⟩]) ++
  ((List.range 12).flatMap fun i => [⟨(0x0C0 + 4 * i), 0, 32, false, .wo, .none, false, false, 0, []⟩])

/-- Rows of the AUDIT page. -/
def auditRows : List RegRow :=
  [⟨0x040, 0, 64, true, .ro, .none, false, false, 0, []⟩,
   ⟨0x048, 0, 64, true, .ro, .none, false, false, 0, []⟩] ++
  ((List.range 8).flatMap fun i => [⟨(0x050 + 4 * i), 0, 32, false, .ro, .none, false, false, 0, []⟩]) ++
  [⟨0x070, 0, 32, false, .ro, .none, false, false, 0, []⟩]

/-- Rows of the PERTURB page. -/
def perturbRows : List RegRow :=
  [⟨0x040, 0, 1, false, .rw, .instOrMaker, false, false, 0, []⟩,
   ⟨0x040, 1, 1, false, .wo, .instOrMaker, false, false, 0, []⟩,
   ⟨0x040, 2, 30, false, .ro, .none, false, false, 0, []⟩,
   ⟨0x044, 0, 15, false, .ro, .none, false, false, 0, []⟩,
   ⟨0x044, 15, 17, false, .ro, .none, false, false, 0, []⟩,
   ⟨0x048, 0, 32, false, .ro, .none, false, false, 0, []⟩] ++
  (((List.range 16).drop 1).flatMap fun n => [⟨(0x080 + 8 * (n - 1)), 0, 4, false, .rw, .instOrMaker, false, false, 0, []⟩]) ++
  (((List.range 16).drop 1).flatMap fun n => [⟨(0x080 + 8 * (n - 1)), 4, 12, false, .ro, .none, false, false, 0, []⟩]) ++
  (((List.range 16).drop 1).flatMap fun n => [⟨(0x080 + 8 * (n - 1)), 16, 16, false, .rw, .instOrMaker, false, false, 0, []⟩]) ++
  (((List.range 16).drop 1).flatMap fun n => [⟨(0x084 + 8 * (n - 1)), 0, 16, false, .rw, .instOrMaker, false, false, 0, []⟩]) ++
  (((List.range 16).drop 1).flatMap fun n => [⟨(0x084 + 8 * (n - 1)), 16, 16, false, .rw, .instOrMaker, false, false, 0, []⟩])

/-- Rows of the FAULT page. -/
def faultRows : List RegRow :=
  [⟨0x040, 0, 13, false, .ro, .none, false, false, 0, []⟩,
   ⟨0x040, 13, 1, false, .ro, .none, false, false, 0, []⟩,
   ⟨0x040, 14, 18, false, .ro, .none, false, false, 0, []⟩,
   ⟨0x044, 0, 32, false, .ro, .none, false, false, 0, []⟩,
   ⟨0x048, 0, 64, true, .ro, .none, false, false, 0, []⟩,
   ⟨0x050, 0, 13, false, .wo, .none, false, false, 0, []⟩,
   ⟨0x050, 13, 19, false, .ro, .none, false, false, 0, []⟩,
   ⟨0x054, 0, 4, false, .rw, .none, false, false, 0xc, []⟩,
   ⟨0x054, 4, 28, false, .ro, .none, false, false, 0, []⟩] ++
  ((List.range 4).flatMap fun s => [⟨(0x058 + 4 * s), 0, 32, false, .ro, .none, false, false, 0, []⟩]) ++
  ((List.range 8).flatMap fun i => [⟨(0x070 + 4 * i), 0, 32, false, .ro, .none, false, false, 0, []⟩])

/-- Rows of the SHARE page. -/
def shareRows : List RegRow :=
  ((List.range 7).flatMap fun r => [⟨(0x040 + 4 * r), 0, 2, false, .ro, .none, false, false, 0, []⟩]) ++
  ((List.range 7).flatMap fun r => [⟨(0x040 + 4 * r), 2, 3, false, .ro, .none, false, false, 0, []⟩]) ++
  ((List.range 7).flatMap fun r => [⟨(0x040 + 4 * r), 5, 9, false, .ro, .none, false, false, 0, []⟩]) ++
  ((List.range 7).flatMap fun r => [⟨(0x040 + 4 * r), 14, 8, false, .ro, .none, false, false, 0, []⟩]) ++
  ((List.range 7).flatMap fun r => [⟨(0x040 + 4 * r), 22, 10, false, .ro, .none, false, false, 0, []⟩]) ++
  [⟨0x060, 0, 3, false, .wo, .none, false, false, 0, [(0, 6)]⟩,
   ⟨0x060, 3, 2, false, .wo, .none, false, false, 0, [(0, 2)]⟩,
   ⟨0x060, 5, 8, false, .wo, .none, false, false, 0, []⟩,
   ⟨0x060, 13, 19, false, .ro, .none, false, false, 0, []⟩,
   ⟨0x064, 0, 2, false, .ro, .none, false, false, 0, []⟩,
   ⟨0x064, 2, 30, false, .ro, .none, false, false, 0, []⟩,
   ⟨0x068, 0, 1, false, .ro, .none, false, false, 0, []⟩,
   ⟨0x068, 1, 31, false, .ro, .none, false, false, 0, []⟩]

/-- Rows of the DEV page. -/
def devRows : List RegRow :=
  [⟨0x040, 0, 8, false, .ro, .none, false, false, 0x21, []⟩,
   ⟨0x040, 8, 1, false, .ro, .none, false, false, 0, []⟩,
   ⟨0x040, 9, 7, false, .ro, .none, false, false, 0, []⟩,
   ⟨0x040, 16, 16, false, .ro, .none, false, false, 0x6480, []⟩] ++
  ((List.range 4).flatMap fun i => [⟨(0x044 + 4 * i), 0, 32, false, .ro, .none, false, false, 0, []⟩]) ++
  [⟨0x054, 0, 12, false, .ro, .none, false, false, 0, []⟩,
   ⟨0x054, 12, 4, false, .ro, .none, false, false, 0, []⟩,
   ⟨0x054, 16, 16, false, .ro, .none, false, false, 0, []⟩,
   ⟨0x058, 0, 12, false, .ro, .none, false, false, 0, []⟩,
   ⟨0x058, 12, 20, false, .ro, .none, false, false, 0, []⟩,
   ⟨0x05C, 0, 7, false, .rw, .inst, true, false, 0x64, [(85, 105)]⟩,
   ⟨0x05C, 7, 25, false, .ro, .none, false, false, 0, []⟩,
   ⟨0x060, 0, 2, false, .ro, .none, false, false, 0, []⟩,
   ⟨0x060, 2, 30, false, .ro, .none, false, false, 0, []⟩,
   ⟨0x064, 0, 32, false, .ro, .none, false, false, 0, []⟩]

/-- The kinds of page of the page index (R50), and the VF's own page 0 (R35). -/
def PageKind.rows : PageKind → List RegRow
  | .gate => gateRows
  | .take => takeRows
  | .fallow => fallowRows
  | .summ => summRows
  | .trig => trigRows
  | .lane => laneRows
  | .shears => shearsRows
  | .nand => nandRows
  | .media => mediaRows
  | .array => arrayRows
  | .core => coreRows
  | .cluster => clusterRows
  | .earmark => earmarkRows
  | .bank => bankRows
  | .cipher => cipherRows
  | .keyeng => keyengRows
  | .digest => digestRows
  | .entropy => entropyRows
  | .hostq => hostqRows
  | .vf => vfRows
  | .tenant => tenantRows
  | .xlate => xlateRows
  | .drove => droveRows
  | .dram => dramRows
  | .dramc => dramcRows
  | .pwr => pwrRows
  | .vreg => vregRows
  | .rtc => rtcRows
  | .clk => clkRows
  | .otp => otpRows
  | .role => roleRows
  | .audit => auditRows
  | .perturb => perturbRows
  | .fault => faultRows
  | .share => shareRows
  | .dev => devRows

end Sys2Proof.Machine
end

