-- ==== Sys2Proof/Machine/Types2.lean ====
section
/-!
DEFINITION. The pieces the state is made of, second part: flash channels, the media map and the array.
-/

namespace Sys2Proof.Machine

/-- What a die operation is for. -/
inductive OpFor where
  /-- a host command's read -/
  | cmd (k : CmdKey)
  /-- a program unit of a stripe: group, stripe, member -/
  | unit (group stripe member : Nat)
  /-- an erase of a group's member -/
  | erase (group member : Nat)
  /-- a patrol, refresh or other background read of a group -/
  | background (group : Nat)
  /-- a copy of a device-metadata page -/
  | page (num copy : Nat)
  /-- an erase of a block of device-metadata pages that is done with -/
  | pageErase
  /-- a rebuilt unit: group, stripe, member, and its pieces with data and META (R281) -/
  | rebuild (group stripe member : Nat) (pieces : List (Nat × Bytes × Bytes))
deriving DecidableEq, Repr

/-- The kinds of die operation (R198). -/
inductive OpKind where
  | read | program | erase
deriving DecidableEq, Repr

/-- A die operation in its die's queue (R198). -/
structure DieOp where
  /-- kind -/
  kind : OpKind
  /-- block -/
  block : Nat
  /-- program unit within the block -/
  pu : Nat
  /-- SLC mode -/
  slc : Bool
  /-- pieces read, in codeword order -/
  pieces : List Nat
  /-- pieces not yet decoded -/
  todo : List Nat
  /-- retry step reached (R196), 0 at the default read level -/
  step : Nat
  /-- purpose -/
  use : OpFor
deriving DecidableEq, Repr

/-- A programmed page: its address and its bytes across the data and spare areas (R192, R258). -/
structure FlashPage where
  /-- global die -/
  die : Nat
  /-- block -/
  block : Nat
  /-- program unit -/
  pu : Nat
  /-- page level -/
  level : Nat
  /-- plane -/
  plane : Nat
  /-- its bytes -/
  bytes : Bytes
deriving DecidableEq, Repr

/-- What a channel's sequencer sends its dies (R184, R187, R196-R198, R200). -/
inductive OnfiCmd where
  /-- Volume Select of a volume on a CE -/
  | volumeSelect (ce volume : Nat)
  /-- SET FEATURES: feature address and the four parameter bytes -/
  | setFeatures (addr param : Nat)
  /-- a multi-plane read of a program unit -/
  | read (block pu : Nat)
  /-- the transfer of a program unit -/
  | transfer (block pu : Nat)
  /-- the confirm that starts the program -/
  | confirm (block pu : Nat)
  /-- a multi-plane erase -/
  | erase (block : Nat)
  /-- RESET -/
  | reset
  /-- ZQ long calibration -/
  | zqLong
  /-- ZQ short calibration -/
  | zqShort
  /-- READ PARAMETER PAGE -/
  | readParameterPage
  /-- READ STATUS ENHANCED of a die -/
  | readStatus (die : Nat)
  /-- DCC training -/
  | dcc
  /-- read-DQ training -/
  | readDq
  /-- write-DQ training -/
  | writeDq
deriving DecidableEq, Repr

/-- The flash channels (R184-R202). -/
structure NandSt where
  /-- the part, once the first channel has read its parameter pages -/
  part : Option NandPart
  /-- factory-marked bad blocks: die and block -/
  factoryBad : List (Nat × Nat)
  /-- die queues by global die; the first 8 operations of a queue are in the sequencer and the others wait to enter it (R198) -/
  queues : List (Nat × List DieOp)
  /-- dies whose busy limit passed once and were sent RESET (R200) -/
  resetOnce : List Nat
  /-- pages programmed -/
  flash : List FlashPage
  /-- pieces found uncorrectable: die, block, program unit, piece -/
  bad : List (Nat × Nat × Nat × Nat)
  /-- pieces reported ERASED (R195) -/
  blank : List (Nat × Nat × Nat × Nat)
  /-- channels whose dies are in NV-LPDDR4; the others use SDR timing mode 0 (R184) -/
  lpddr : List Nat
  /-- the volume last selected, by channel and CE (R187) -/
  volume : List ((Nat × Nat) × Nat)
  /-- the retry-table entry in force, by die; an unlisted die is at entry 0 (R196, R197) -/
  entry : List (Nat × Nat)
  /-- operations at the front of a die's queue whose data the sequencer has sent: 1 for the one in progress, 2 when cache program
  has transferred the next unit behind it (R198) -/
  started : List (Nat × Nat)
  /-- the last 32 commands that each channel's sequencer sent, in order -/
  onfi : List (Nat × List OnfiCmd)
  /-- DTIME of the last ZQ calibration, by channel (R184) -/
  zqAt : List (Nat × Nat)
deriving DecidableEq, Repr

/-- A data unit placed in a group (R220, R221): META fields and the 4,096 bytes to program. -/
structure DUnit where
  /-- NSID -/
  nsid : Nat
  /-- KIND -/
  kind : Nat
  /-- LOGICAL -/
  logical : Nat
  /-- SEQ -/
  seq : Nat
  /-- META FLAGS -/
  flags : Nat
  /-- 4,096 bytes, ciphertext for user data -/
  data : Bytes
  /-- the host write waiting for it (R219) -/
  cmd : Option CmdKey
  /-- its MAP or EXTENT record has been appended (R225) -/
  logged : Bool
deriving DecidableEq, Repr

/-- A stripe of a group (R257, R268). -/
structure Stripe where
  /-- data units placed in it, in unit index order -/
  units : List DUnit
  /-- its programs are queued -/
  issued : Bool
  /-- members whose unit is in place: programmed with pass status, and its die not lost since, or rebuilt -/
  done : List Nat
  /-- members whose program failed or never ended (R242): nothing of theirs lies on flash -/
  failed : List Nat
  /-- closed: every unit passed (R101) -/
  closed : Bool
  /-- every program of it has ended and some did not pass: it never closes, and what it holds is read from flash -/
  ended : Bool
  /-- resynchronisation owed (R275) -/
  pend : Bool
  /-- void (R275) -/
  void : Bool
deriving DecidableEq, Repr

/-- What a block group holds (R207): the container of one take as it is written, block-namespace data, SLC-region data, device
metadata, or what relocation and rewriting have moved of one take's container. -/
inductive GroupUse where
  | take | block | slc | metadata | moved
deriving DecidableEq, Repr

/-- Where a group stands. -/
inductive GroupState where
  | opened | closed | freed
deriving DecidableEq, Repr

/-- A block group (R206, R274). -/
structure Group where
  /-- group number -/
  num : Nat
  /-- data units per stripe -/
  k : Nat
  /-- use -/
  use : GroupUse
  /-- the take's namespace, 0 otherwise -/
  nsid : Nat
  /-- members: die and block, in member order -/
  members : List (Nat × Nat)
  /-- state -/
  state : GroupState
  /-- stripes opened so far, in order -/
  stripes : List Stripe
  /-- GROUP_TAG -/
  tag : Nat
  /-- DTIME it closed -/
  closedAt : Nat
  /-- members erased so far -/
  erased : List Nat
  /-- members whose die is lost and that have no replacement block yet -/
  lostMembers : List Nat
  /-- its erases have been queued -/
  erasing : Bool
  /-- its GROUP_CLOSE record has been appended -/
  closeLogged : Bool
  /-- it has lost a member and closes once its journal records are durable (R280) -/
  ending : Bool
  /-- freed, and its GROUP_FREE waits for the records of the units placed before this SEQ (R226, R232) -/
  freeAt : Option Nat
deriving DecidableEq, Repr

/-- A map entry (R211): mapped to a media address, or zeroes, under the SEQ of its ZEROES record. -/
inductive MapEnt where
  | mapped (group unit : Nat) | zeroes (seq : Nat)
deriving DecidableEq, Repr

/-- A journal record (R223). -/
structure JRec where
  /-- KIND -/
  kind : Nat
  /-- COUNT -/
  count : Nat
  /-- NSID -/
  nsid : Nat
  /-- LOGICAL -/
  logical : Nat
  /-- media address: group and unit -/
  ma : Nat × Nat
  /-- SEQ -/
  seq : Nat
deriving DecidableEq, Repr

/-- The media map as a checkpoint keeps it (R227). -/
structure MapImage where
  /-- block and take maps: namespace and logical unit -/
  map : List ((Nat × Nat) × MapEnt)
  /-- group table -/
  groups : List Group
  /-- groups opened by width -/
  opened : List (Nat × Nat)
  /-- erase counts by die and block -/
  erases : List ((Nat × Nat) × Nat)
  /-- blocks out of use for good: retired or factory-bad -/
  retired : List (Nat × Nat)
  /-- blocks that rebuild has taken as replacements -/
  spareTaken : List (Nat × Nat)
  /-- bytes of block and take data written -/
  hostBytes : Nat
  /-- bytes of data units programmed -/
  nandBytes : Nat
  /-- bytes relocated -/
  gcBytes : Nat
deriving DecidableEq, Repr

/-- One copy of a device-metadata page: a program unit in SLC mode, and whether its program has passed (R224, R227, R269). -/
structure PageCopy where
  /-- die -/
  die : Nat
  /-- block -/
  block : Nat
  /-- program unit -/
  unit : Nat
  /-- programmed -/
  done : Bool
deriving DecidableEq, Repr

/-- A device-metadata page of 64 KiB, written in three copies on dies of distinct channels: a page of the map journal, a checkpoint
record, a stripe journal snapshot (R224, R227, R269). -/
structure MPage where
  /-- page number, LOGICAL of its META (R221) -/
  num : Nat
  /-- KIND of its META -/
  kind : Nat
  /-- SEQ of its META -/
  seq : Nat
  /-- it belongs to the stripe journal, whose dies are its own (R269) -/
  stripe : Bool
  /-- contents -/
  data : Bytes
  /-- copies -/
  copies : List PageCopy
deriving DecidableEq, Repr

/-- A block in use for device-metadata pages. -/
structure MetaBlock where
  /-- die -/
  die : Nat
  /-- block -/
  block : Nat
  /-- next program unit -/
  next : Nat
  /-- it belongs to the stripe journal -/
  stripe : Bool
  /-- its erase is queued -/
  erasing : Bool
deriving DecidableEq, Repr

/-- A written page of the map journal (R224). -/
structure JPage where
  /-- page number -/
  num : Nat
  /-- its records -/
  recs : List JRec
  /-- its three copies have been programmed -/
  durable : Bool
deriving DecidableEq, Repr

/-- A checkpoint record (R227), with all the device metadata that is written with it. -/
structure Ckpt where
  /-- SEQ -/
  seq : Nat
  /-- journal position: the last page number that the checkpoint covers -/
  pos : Nat
  /-- page number of the record itself -/
  num : Nat
  /-- directory root: where each directory page lies -/
  root : List (Nat × (Nat × Nat))
  /-- the map image -/
  image : MapImage
  /-- registers restored from the checkpoint (R254, R290) -/
  regs : List (Fld × Nat)
  /-- the window table (R145) -/
  windows : List Window
  /-- the device error ring (R607) -/
  ring : Ring
  /-- the catalogue of takes and namespaces is device metadata, written through; the offline state (R285) -/
  offline : Bool
  /-- SAFE_CAUSE bits (R548) -/
  safeCause : Nat
  /-- layout seed in force -/
  seed : Nat
  /-- the width that MAXCAP is kept for: a narrowing lowers it at its start (R286) -/
  capK : Nat
deriving DecidableEq, Repr

/-- A checkpoint in progress (R227). -/
structure CkptJob where
  /-- the record, once the journal position that it covers is fixed -/
  record : Option Ckpt
  /-- the dirty directory pages have been placed -/
  dirs : Bool
  /-- its copies are on their way to flash -/
  sent : Bool
deriving DecidableEq, Repr

/-- Units that wait for a place: what they are for, the take's namespace, and the units, which go into one group in order (R239,
R242, R280). -/
structure Waiting where
  /-- use of the group they go to -/
  use : GroupUse
  /-- namespace of the take, 0 otherwise -/
  gn : Nat
  /-- the units -/
  units : List DUnit
deriving DecidableEq, Repr

/-- An LBA in the block write buffer (R219). -/
structure BufEnt where
  /-- namespace -/
  nsid : Nat
  /-- LBA -/
  lba : Nat
  /-- data -/
  data : Bytes
  /-- bytes of the write command that it came with (R217) -/
  size : Nat
deriving DecidableEq, Repr

/-- The media map and its journal (R206-R253). -/
structure MediaSt where
  /-- formatted -/
  formatted : Bool
  /-- the resident map, group table and block accounts -/
  image : MapImage
  /-- next SEQ -/
  seq : Nat
  /-- journal records of the page being filled -/
  page : List JRec
  /-- DTIME of its first record -/
  pageSince : Nat
  /-- journal pages written since the last checkpoint, oldest first -/
  journal : List JPage
  /-- checkpoint records on flash, oldest first -/
  ckpts : List Ckpt
  /-- the checkpoint in progress -/
  job : Option CkptJob
  /-- device-metadata pages on flash or on their way there -/
  pages : List MPage
  /-- blocks in use for them -/
  metaBlocks : List MetaBlock
  /-- next page number of the journal, the checkpoint records and the snapshots -/
  nextPage : Nat
  /-- SEQ of the newest audit entry that lies on flash (R217) -/
  auditAt : Nat
  /-- DTIME of the last checkpoint -/
  ckptAt : Nat
  /-- the block write buffer (R219) -/
  wbuf : List BufEnt
  /-- refresh queue (R240) -/
  refresh : List Nat
  /-- the relocation in progress: source group, units still to copy, what it counts as -/
  reloc : Option (Nat × List Nat × Nat)
  /-- groups freed and waiting for erasure, with the DTIME -/
  freed : List Nat
  /-- groups read by the present patrol pass -/
  patrolled : List Nat
  /-- next group number -/
  nextGroup : Nat
  /-- map pages changed since their last copy on flash, longest first, with the entries changed -/
  dirty : List (Nat × Nat)
  /-- directory pages changed since their last copy on flash, longest first (R227, R228) -/
  dirtyDir : List Nat
  /-- map pages resident in DRAM while the map is demand-paged, latest use first (R214) -/
  resident : List Nat
  /-- S in MB (R216) -/
  slc : Nat
  /-- units that wait for a place -/
  waiting : List Waiting
  /-- Write Zeroes commands that wait for their record: the command and the record's SEQ (R219, R252) -/
  zeroWaits : List (CmdKey × Nat)
  /-- DTIME from which the present or next patrol pass reads (R241) -/
  patrolAt : Nat
  /-- the patrol pass is that of a boot after a long power-off (R241) -/
  patrolBoot : Bool
  /-- what deallocated block units mapped to, which a read may still return (R251): namespace and LBA -/
  hints : List ((Nat × Nat) × MapEnt)
  /-- map pages that DRAM lost and that wait for a reload (R215) -/
  lostPages : List Nat
deriving DecidableEq, Repr

/-- Journal pages written and not yet durable, oldest first. -/
def MediaSt.inFlight (m : MediaSt) : List (List JRec) := (m.journal.filter (!·.durable)).map (·.recs)

/-- The newest checkpoint record. -/
def MediaSt.ckpt (m : MediaSt) : Option Ckpt := m.ckpts.getLast?

/-- Durable records after a journal position. -/
def MediaSt.durableAfter (m : MediaSt) (pos : Nat) : List JRec :=
  (m.journal.filter fun p => p.durable && decide (pos < p.num)).flatMap (·.recs)

/-- Durable records since the last checkpoint. -/
def MediaSt.durable (m : MediaSt) : List JRec := m.durableAfter (match m.ckpt with | some c => c.pos | none => 0)

/-- Lexicographic order of stripes. -/
def stripeLe (a b : Nat × Nat) : Bool := decide (a.1 < b.1) || (a.1 == b.1 && decide (a.2 ≤ b.2))

/-- Insert a stripe in ascending order, once. -/
def insertStripe (l : List (Nat × Nat)) (x : Nat × Nat) : List (Nat × Nat) :=
  match l with
  | [] => [x]
  | y :: ys => if x = y then l else if stripeLe x y then x :: l else y :: insertStripe ys x

/-- A stripe journal snapshot (R270). -/
structure Snapshot where
  /-- SNAP_SEQ -/
  seq : Nat
  /-- SEQ_MARK -/
  mark : Nat
  /-- open groups: number, k and member dies -/
  groups : List (Nat × Nat × List Nat)
  /-- stripes: group, index, PENDING -/
  stripes : List (Nat × Nat × Bool)
  /-- RESYNC -/
  resync : Nat
  /-- RESYNC_CURSOR: group and stripe -/
  cursor : Nat × Nat
deriving DecidableEq, Repr

/-- The reshape checkpoint in the Tally (R288). -/
structure ReshapeRec where
  /-- old k -/
  oldK : Nat
  /-- new k -/
  newK : Nat
  /-- layout generation -/
  gen : Nat
  /-- boundary -/
  boundary : Nat
  /-- size of the old-layout sequence -/
  total : Nat
  /-- a reshape is in progress -/
  active : Bool
deriving DecidableEq, Repr

/-- The areas of the Tally (R21). -/
inductive TallyArea where
  | pointers | bitmap | reshape | counters | power | auditHead | reserve
deriving DecidableEq, Repr

/-- The boot counters of one source and copy (R21, R569): attempts, and whether the last one was accepted. -/
structure BootCount where
  /-- source -/
  source : Nat
  /-- copy -/
  copy : Nat
  /-- attempts -/
  attempts : Nat
  /-- result of the last attempt -/
  accepted : Bool
deriving DecidableEq, Repr

/-- The Tally (R21): what it holds that no other part of the state does, and the wear of its words. -/
structure TallySt where
  /-- the two copies of the map checkpoint pointer: sequence number, 0 where blank, and page number of the record -/
  ptrs : List (Nat × Nat)
  /-- the two copies of the reshape checkpoint -/
  reshape : List Bytes
  /-- the two copies of the region bitmap's header -/
  header : List Bytes
  /-- the boot counters -/
  boots : List BootCount
  /-- copies that a loss of power has left unreadable: area and copy -/
  unread : List (TallyArea × Nat)
  /-- writes of each 64-bit word, by physical word -/
  writes : List (Nat × Nat)
  /-- words relocated into the reserve: word and physical word -/
  moved : List (Nat × Nat)
deriving DecidableEq, Repr

/-- The array (R256-R291). -/
structure ArraySt where
  /-- lost dies -/
  lost : List Nat
  /-- the newest durable snapshot and its page -/
  snap : Option (Nat × Snapshot)
  /-- the snapshot whose copies are being programmed, and its page -/
  snapNew : Option (Nat × Snapshot)
  /-- the open set has changed since the last snapshot -/
  snapDirty : Bool
  /-- stripes owed a resynchronisation that a snapshot lists one by one (R271, R275) -/
  pending : List (Nat × Nat)
  /-- stripes of cases 2 and 3 still to do (R275) -/
  sweep : List (Nat × Nat)
  /-- the groups open at the stop, whose stripes come first (R275) -/
  stopGroups : List Nat
  /-- marked regions (R272) -/
  bitmap : List Nat
  /-- bitmap word writes at the present position (R273) -/
  bitmapWrites : Nat
  /-- the reshape checkpoint in force (R288) -/
  reshape : Option ReshapeRec
  /-- the old-layout groups in the order of the sequence, with their data units (R287) -/
  reshapeSeq : List (Nat × Nat)
  /-- layout seed in force -/
  seed : Nat
  /-- substitutions made per width and channel, on top of the generator's turns (R264) -/
  turns : List ((Nat × Nat) × Nat)
  /-- groups whose wait for a replacement block has been recorded (R267) -/
  noReplacement : List Nat
  /-- units whose data is lost to a write hole or with the write buffer, until they are written again: namespace and logical
  unit (R277, R536) -/
  holes : List (Nat × Nat)
  /-- groups closed under the reshape so far, of the old layout and freed -/
  reshapeFreed : Nat
deriving DecidableEq, Repr

/-- Every stripe owed a resynchronisation, in the order of their turns: those of the groups open at the stop, then ascending group and
stripe (R275). -/
def ArraySt.owed (a : ArraySt) : List (Nat × Nat) :=
  let l := (a.pending ++ a.sweep).foldl insertStripe []
  (l.filter fun x => a.stopGroups.contains x.1) ++ l.filter fun x => !a.stopGroups.contains x.1

/-- Units placed for a take: as it is written, or moved since. -/
def GroupUse.isTake : GroupUse → Bool
  | .take => true | .moved => true | .block => false | .slc => false | .metadata => false

/-- SLC mode of a use (R217). -/
def GroupUse.isSlc : GroupUse → Bool
  | .slc => true | .metadata => true | .take => false | .block => false | .moved => false

/-- Every program of a stripe has ended. -/
def Stripe.settled (t : Stripe) : Bool := t.closed || t.ended || t.void

/-- A stripe is written: every program of it has ended, and it still holds units. -/
def Stripe.written (t : Stripe) : Bool := (t.closed || t.ended) && !t.void

end Sys2Proof.Machine
end

