-- ==== Sys2Proof/Machine/Types3.lean ====
section
/-!
DEFINITION. The pieces the state is made of, third part: keys and namespaces.
-/

namespace Sys2Proof.Machine

/-- A loaded key slot (R417). -/
structure KeySlot where
  /-- slot number -/
  slot : Nat
  /-- the key: 32 bytes, or 64 for an XTS pair -/
  key : Bytes
  /-- an XTS pair -/
  xts : Bool
  /-- owning FUNC -/
  owner : Nat
  /-- the media key record it caches, 0 for none -/
  ref : Nat
deriving DecidableEq, Repr

/-- A wrapped media key in the key table (R424), durable. -/
structure KeyRec where
  /-- record number -/
  num : Nat
  /-- SEQ at its creation -/
  seq : Nat
  /-- namespace -/
  nsid : Nat
  /-- the wrapped key, 72 bytes -/
  wrapped : Bytes
deriving DecidableEq, Repr

/-- A GCM message context (R411). -/
structure GcmCtx where
  /-- context slot -/
  ctx : Nat
  /-- owning FUNC -/
  owner : Nat
  /-- key slot -/
  slot : Nat
  /-- encrypting -/
  enc : Bool
  /-- IV -/
  iv : Bytes
  /-- declared AAD and payload lengths -/
  aadLen : Nat
  /-- declared payload length -/
  len : Nat
  /-- AAD so far -/
  aad : Bytes
  /-- payload so far (as given) -/
  inp : Bytes
  /-- output so far -/
  out : Bytes
deriving DecidableEq, Repr

/-- The cipher and the key engine (R403-R429). -/
structure KeySt where
  /-- KEK_MEDIA -/
  kekMedia : Option Bytes
  /-- function KEKs -/
  kekFunc : List (Nat × Bytes)
  /-- loaded slots -/
  slots : List KeySlot
  /-- media key records -/
  records : List KeyRec
  /-- next record number -/
  nextRec : Nat
  /-- open messages -/
  ctxs : List GcmCtx
  /-- waiting key engine jobs, oldest first; the front one is running -/
  queue : List Job
  /-- results of the jobs run, awaiting completion -/
  finished : List JobDone
  /-- key-table pages that have changed and that no place was found for yet -/
  due : List Nat
  /-- key-table pages of deleted records whose earlier copies flash may still hold (R425) -/
  purge : List Nat
  /-- alarm conditions that persist, by cause bit -/
  conds : Nat
  /-- takes whose trailer waits for their key (R428): namespace, and what of the take the trailer is made from -/
  owedTrailers : List (Nat × TakeSt)
  /-- mask generators that give masks: 0-5 of the pipelines, 6 of the key engine -/
  masks : List Nat
  /-- blocks for which each generator has given masks since its last reseed (R404) -/
  draws : List (Nat × Nat)
  /-- a derivation of KEK_MEDIA that waits for masks; true for one by UNLOCK (R423, R429) -/
  derive : Option Bool
  /-- an alarm has erased the keys, and no UNLOCK has brought them back (R429) -/
  alarmed : Bool
  /-- DTIME of the last recorded mask stall (R404) -/
  stallAt : Option Nat
deriving DecidableEq, Repr

/-- The kinds of namespace (R452). -/
inductive NsKind where
  | block | compute | memory | take
deriving DecidableEq, Repr

/-- A take's entry in the catalogue (R119, R480). -/
structure TakeInfo where
  /-- TAKE_ID -/
  takeId : Nat
  /-- 0 ordinary, 1 ring, 2 kept -/
  kind : Nat
  /-- tier -/
  tier : Nat
  /-- STREAMS -/
  streams : Nat
  /-- still recording -/
  opened : Bool
  /-- INCOMPLETE -/
  incomplete : Bool
  /-- CLOSE_REASON -/
  reason : Nat
  /-- window flags: PRE_SHORT, CUT, LATE -/
  flags : Nat
  /-- parent ring's TAKE_ID -/
  parent : Nat
  /-- DTIME at grant -/
  start : Nat
  /-- DTIME at close -/
  fin : Nat
  /-- container bytes -/
  bytes : Nat
  /-- frames -/
  frames : Nat
  /-- raw bytes -/
  raw : Nat
  /-- marked frames -/
  marked : Nat
  /-- digest algorithm -/
  alg : Nat
deriving DecidableEq, Repr

/-- A namespace (R119, R452-R454). -/
structure Ns where
  /-- NSID -/
  nsid : Nat
  /-- kind -/
  kind : NsKind
  /-- NSZE in LBAs or bytes -/
  nsze : Nat
  /-- NUSE -/
  nuse : Nat
  /-- functions it is attached to -/
  attached : List Nat
  /-- KEY_REF: record number -/
  keyRec : Nat
  /-- KEY_REF: SEQ of the record (R424) -/
  keySeq : Nat
  /-- the take, for a take namespace -/
  tk : Option TakeInfo
  /-- released byte ranges of a ring take (R133), as segment numbers -/
  released : List Nat
deriving DecidableEq, Repr

end Sys2Proof.Machine
end

