-- ==== Sys2Proof/Machine/Types4.lean ====
section
/-!
DEFINITION. The pieces the state is made of, fourth part: memories, translation, the Crook cores, their clusters, and the
resources of functions.
-/

namespace Sys2Proof.Machine

/-- The memories jobs and cores reach: canonical lists of address and byte, where an unlisted address reads 0. -/
structure MemSt where
  /-- DRAM -/
  dram : List (Nat × Byte)
  /-- Common -/
  common : List (Nat × Byte)
  /-- host memory behind port A -/
  hostA : List (Nat × Byte)
  /-- host memory behind port B -/
  hostB : List (Nat × Byte)
  /-- poisoned 64-byte bursts of DRAM, by address ÷ 64 (R536) -/
  poison : List Nat
deriving DecidableEq, Repr

/-- What a translated access reaches (R496). -/
inductive Target where
  | dram | common | hostA | hostB
deriving DecidableEq, Repr

/-- An XLATE entry (R496). -/
structure XEnt where
  /-- FUNC -/
  func : Nat
  /-- virtual address of its first byte -/
  va : Nat
  /-- SIZE: 0 for 4 KiB, 1 for 2 MiB, 2 for 1 GiB -/
  size : Nat
  /-- R -/
  r : Bool
  /-- W -/
  w : Bool
  /-- X -/
  x : Bool
  /-- TARGET -/
  tgt : Target
  /-- target address -/
  pa : Nat
deriving DecidableEq, Repr

/-- A line of a core's D-cache (R297). -/
structure DLine where
  /-- target -/
  tgt : Target
  /-- address ÷ 64 -/
  line : Nat
  /-- 64 bytes -/
  data : Bytes
  /-- to be written back -/
  dirty : Bool
deriving DecidableEq, Repr

/-- The states of a core, as CORE_STATE.STATE encodes them (R334). -/
inductive CoreState where
  | off | parked | running | waiting | stopped | halted | retired
deriving DecidableEq, Repr

/-- Who asked a core to park (R326). -/
inductive Parker where
  | register | load | handover | reset | doze | thermal
deriving DecidableEq, Repr

/-- The program a user core runs (R327-R330, R320, R321). -/
structure ProgRun where
  /-- HANDLER, 0 for none -/
  handler : Nat
  /-- FLAGS[0]: needs a custom decode table -/
  needs : Bool
  /-- FINGERPRINT -/
  fingerprint : Bytes
  /-- a delivered trap is in progress -/
  delivered : Bool
  /-- the host command it serves -/
  cmd : CmdKey
  /-- index within the program -/
  index : Nat
  /-- how it ended: none while running, then the result of EXIT or none for a stop -/
  ended : Option (Option Word)
  /-- how many cores of the program had ended before it -/
  rank : Nat
deriving DecidableEq, Repr

/-- Where a memory error of a core stands (R318): a 64-bit word of local memory, a D-cache or an I-cache line, a micro-TLB entry. -/
inductive CoreMem where
  | word (i : Nat)
  | dline (t : Target) (line : Nat)
  | iline (t : Target) (line : Nat)
  | utlb (func va : Nat)
deriving DecidableEq, Repr

/-- A memory error that no access has met yet (R318). -/
structure Upset where
  /-- where it stands -/
  place : CoreMem
  /-- uncorrectable -/
  double : Bool
deriving DecidableEq, Repr

/-- One Crook core (R292-R335). -/
structure Core where
  /-- state -/
  state : CoreState
  /-- PC -/
  pc : BitVec 48
  /-- DSP -/
  dsp : BitVec 17
  /-- RSP -/
  rsp : BitVec 17
  /-- LP -/
  lp : BitVec 17
  /-- DSL -/
  dsl : BitVec 17
  /-- DSH -/
  dsh : BitVec 17
  /-- RSL -/
  rsl : BitVec 17
  /-- RSH -/
  rsh : BitVec 17
  /-- STATUS -/
  status : BitVec 64
  /-- TRAPVEC -/
  trapvec : BitVec 48
  /-- TRAPCAUSE -/
  trapcause : BitVec 64
  /-- TRAPPC -/
  trappc : BitVec 48
  /-- CYCLE -/
  cycle : BitVec 64
  /-- FUNC -/
  func : BitVec 9
  /-- hardware part of the data stack, top first -/
  ds : List Word
  /-- hardware part of the return stack, top first, with tags -/
  rs : List (Word × Bool)
  /-- local data memory, 128 KiB -/
  mem : List (Nat × Byte)
  /-- D-cache, oldest line first -/
  dcache : List DLine
  /-- micro-TLB, oldest entry first -/
  utlb : List XEnt
  /-- park requests in force -/
  parkers : List Parker
  /-- DTIME since which it has been parked or waiting -/
  since : Nat
  /-- the bit a WAIT awaits and its limit in cycles -/
  wait : Option (Nat × Nat)
  /-- program -/
  prog : Option ProgRun
  /-- PC_SNAP -/
  pcSnap : BitVec 48
  /-- LAST_CAUSE -/
  lastCause : BitVec 64
  /-- LAST_TRAPPC -/
  lastTrapPc : BitVec 48
  /-- INSNS -/
  insns : Nat
  /-- SPILLS -/
  spills : Nat
  /-- TRAPS -/
  traps : Nat
  /-- ECC_CORRECTED -/
  eccCorrected : Nat
  /-- ECC_UNCORRECTED -/
  eccUncorrected : Nat
  /-- DTIMEs of its uncorrectable errors within 24 h (R319) -/
  eccTimes : List Nat
  /-- I-cache, oldest line first (R20, R297) -/
  icache : List DLine
  /-- memory errors that stand in its local memory, caches and micro-TLB (R318) -/
  upsets : List Upset
deriving DecidableEq, Repr

/-- A core after cold reset: OFF, FUNC 0x1F0, its stacks empty in the smallest layout that R303, R326 and R330 allow (the spec gives
the limits a value at load alone: log entry 56), everything else 0. -/
def Core.off : Core :=
  ⟨.off, 0, 0x1DE68, 0x1DF28, 0, 0x1DE68, 0x1DEE8, 0x1DF28, 0x1DFB8, 0, 0, 0, 0, 0, 0x1F0, [], [], [], [], [], [], 0, none, none, 0, 0, 0, 0, 0, 0, 0, 0, [], [], []⟩

/-- `k` with the page counters, the last trap and the error times of `old`: they outlive a grant, a program and a restart (R319,
R334). -/
def Core.keeping (k old : Core) : Core :=
  { k with pcSnap := old.pcSnap, lastCause := old.lastCause, lastTrapPc := old.lastTrapPc, spills := old.spills, traps := old.traps,
           eccCorrected := old.eccCorrected, eccUncorrected := old.eccUncorrected, eccTimes := old.eccTimes }

/-- A microcode load in progress (R373). -/
structure McLoad where
  /-- cluster -/
  cluster : Nat
  /-- the command, none for a boot or firmware load -/
  cmd : Option CmdKey
  /-- image bytes -/
  image : Bytes
  /-- phase: 2 PARK, 3 WRITE, 4 RECHECK -/
  phase : Nat
  /-- the write is being repeated -/
  again : Bool
deriving DecidableEq, Repr

/-- A cluster's decode table and microcode store (R358). -/
structure Cluster where
  /-- the 64 entries, a missing one 0 -/
  table : List Nat
  /-- microwords from address 0, a missing one 0 -/
  store : List Nat
  /-- WORDS of the image in force -/
  words : Nat
  /-- fingerprint in force -/
  fingerprint : Bytes
  /-- image kept in the NAND boot region (R375) -/
  kept : Option Bytes
deriving DecidableEq, Repr

/-- The fingerprint of an empty table: SHA-256 of 65,792 zero bytes (R372). -/
def emptyFingerprint : Bytes := beBytes 32 0x8d79f3966ca57c37fb086844e2536919235336676418fd08bbc2a99d19743f2a

/-- A cluster after cold reset (R358). -/
def Cluster.empty : Cluster := ⟨[], [], 0, emptyFingerprint, none⟩

/-- A function's profile (R489, R490). -/
structure Prof where
  /-- FUNC -/
  func : Nat
  /-- attach every new take -/
  takes : Bool
  /-- QUEUE_PAIRS -/
  pairs : Nat
  /-- SHEARS_WEIGHT -/
  weight : Nat
  /-- CORES: bit i = core 8 + i -/
  cores : Nat
  /-- BANKS -/
  banks : Nat
  /-- first key slot -/
  keyBase : Nat
  /-- key slots -/
  keys : Nat
  /-- first context slot -/
  ctxBase : Nat
  /-- context slots -/
  ctxs : Nat
  /-- DRAM_MIB -/
  dram : Nat
  /-- MEDIA_SHARE -/
  share : Nat
  /-- first common bit of its window -/
  bitBase : Nat
  /-- BIT_WINDOW -/
  bits : Nat
  /-- NSID list -/
  nsids : List Nat
  /-- WINDOWS 1-15, none where not valid -/
  windows : List (Option Nat)
deriving DecidableEq, Repr

/-- An enabled function and what it holds (R491). -/
structure Fn where
  /-- what it was granted -/
  p : Prof
  /-- GEN -/
  gen : Nat
  /-- DRAM address of its Subsystem Local Memory -/
  dramBase : Nat
  /-- memory range sets: identifier and ranges (R478) -/
  ranges : List (Nat × List MemRange)
deriving DecidableEq, Repr

/-- Tenants (R486-R506). -/
structure TenantSt where
  /-- profiles, kept in device metadata -/
  profs : List Prof
  /-- enabled functions -/
  fns : List Fn
  /-- GEN by function, kept in device metadata -/
  gens : List (Nat × Nat)
  /-- functions being reset, with the DTIME of the start -/
  resetting : List (Nat × Nat)
  /-- PFs whose profile has changed since their last reset (R491) -/
  newProf : List Nat
deriving DecidableEq, Repr

end Sys2Proof.Machine
end

