-- ==== Sys2Proof/Machine/Types5.lean ====
section
/-!
DEFINITION. The pieces the state is made of, fifth part: modes, regulators, boot.
-/

namespace Sys2Proof.Machine

/-- The mode transitions that take time (R548, R550, R565). -/
inductive TranKind where
  | dozeEntry | dozeExit | foldEntry | warm
deriving DecidableEq, Repr

/-- One voltage step still to send: slot and target in mV (R555). -/
structure VStep where
  /-- slot -/
  slot : Nat
  /-- target of the step, mV -/
  mv : Nat
deriving DecidableEq, Repr

/-- A transition in progress (R548, R550). -/
structure Tran where
  /-- kind -/
  kind : TranKind
  /-- phase, numbered as in R548 -/
  phase : Nat
  /-- voltage steps still to complete, the first one sent -/
  steps : List VStep
  /-- steps completed in this transition, newest first -/
  doneSteps : List VStep
  /-- failed attempts of the step sent -/
  attempts : Nat
  /-- the rails are being restored after an abort -/
  reversing : Bool
  /-- a failed DOZE exit is being retried (R563) -/
  retried : Bool
  /-- DTIME at which the retry starts, 0 for none -/
  retryAt : Nat
deriving DecidableEq, Repr

/-- Accounting of one mode (R552). -/
structure ModeAcct where
  /-- nanoseconds spent -/
  ns : Nat
  /-- energy in units of 10 µJ -/
  energy : Nat
  /-- entries -/
  entries : Nat
  /-- refusals -/
  refusals : Nat
  /-- aborts -/
  aborts : Nat
deriving DecidableEq, Repr

/-- What a held boot holds for (R528, R567, R570). -/
inductive Held where
  | no | noImage | dram
deriving DecidableEq, Repr

/-- Firmware images and the update under way (R331-R333, R567-R569). -/
structure FwSt where
  /-- running image, none before boot accepts one -/
  running : Option Bytes
  /-- the three copies in the NAND boot region, none for a blank one (R567) -/
  region : List (Option Bytes)
  /-- firmware slots 1-7: committed images -/
  slots : List (Nat × Bytes)
  /-- download buffer: offset and bytes -/
  buf : List (Nat × Byte)
  /-- bytes downloaded -/
  bufLen : Nat
  /-- slot to activate at the next reset -/
  nextSlot : Option Nat
  /-- update in progress: the new image and the run, 1 or 2 -/
  update : Option (Bytes × Nat)
  /-- a handover has begun, of the present run or of a restart -/
  inHandover : Bool
  /-- system cores that the others restart after an uncorrectable error (R319) -/
  restart : List Nat
  /-- the running image's monitor entry, which a user core's TRAPVEC takes at an image load (R314, R333) -/
  monitor : BitVec 48
  /-- cluster 0 as it was before the update in progress (R333) -/
  oldCluster : Option Cluster
deriving DecidableEq, Repr

/-- Modes, regulators, RTC wake and boot (R545-R576). -/
structure PwrSt where
  /-- transition in progress -/
  tran : Option Tran
  /-- wake sources latched -/
  wakes : Nat
  /-- the 100 ms of a FOLD residence have ended (R563) -/
  residenceOver : Bool
  /-- RAILS_EN is held low after a failed wake (R563) -/
  railsOff : Bool
  /-- MAIN_PWR_OK -/
  mainOk : Bool
  /-- PWR_FAIL_N is high -/
  pfHigh : Bool
  /-- DTIME of the last host activity (R546) -/
  serveAt : Option Nat
  /-- DTIME since which MODE has been IDLE -/
  idleSince : Nat
  /-- DTIME at which the present mode was entered -/
  modeSince : Nat
  /-- history entries, newest first (R551) -/
  history : List Bytes
  /-- accounting by mode, in the Tally -/
  acct : List ModeAcct
  /-- refusals and aborts by block, in the Tally -/
  blockAcct : List (Nat × Nat)
  /-- cold resets since first format, in the Tally -/
  colds : Nat
  /-- boot phase in progress, 0 after READY -/
  bootPhase : Nat
  /-- DTIME at which the boot began -/
  bootAt : Nat
  /-- DRAM training of phase 2 is done -/
  dramTrained : Bool
  /-- boot sources and copies still to try: source and copy -/
  sources : List (Nat × Nat)
  /-- held boot -/
  held : Held
  /-- boot keys locked (R569) -/
  keysLocked : Bool
  /-- the last stop was clean -/
  cleanStop : Bool
  /-- DTIME-independent: the RTC value at the last stop, for R241 -/
  stoppedAt : Nat
  /-- the three copies of the configuration record in the NAND boot region, each of 4,096 bytes or blank (R647) -/
  config : List Bytes
  /-- DTIME of the last KICK -/
  kickAt : Nat
  /-- firmware -/
  fw : FwSt
  /-- TJ, quarter degrees -/
  tj : Int
  /-- DTIME since which TJ has been at 125 °C or more -/
  hotSince : Option Nat
  /-- DTIME since which stage 1 or above has held -/
  stageSince : Option Nat
  /-- PLL locked in this boot -/
  locked : Bool
  /-- a power-failure sequence had begun before the last stop (R106) -/
  pfBegun : Bool
  /-- PERST# released, port A and port B -/
  perst : Bool × Bool
  /-- regulator transactions of VOUT.SET_MV still to send: slot and mV -/
  setSteps : List VStep
  /-- all power is lost: only VDD_AON rising or AON_RST_N starts the device again -/
  dead : Bool
  /-- failed attempts of the first of `setSteps` -/
  setTries : Nat
  /-- the last stop was a thermal shutdown (R633) -/
  thermal : Bool
deriving DecidableEq, Repr

end Sys2Proof.Machine
end

