-- ==== Sys2Proof/Machine/Types6.lean ====
section
/-!
DEFINITION. The pieces the state is made of, sixth part: Earmark, register-fed digests and the host interface.
-/

namespace Sys2Proof.Machine

/-- An Earmark entry: its tag and its units (R378). -/
structure EEnt where
  /-- CLASS -/
  cls : Nat
  /-- VALID -/
  valid : Bool
  /-- values, unit 0 first -/
  vals : List Nat
  /-- care masks, unit 0 first -/
  cares : List Nat
deriving DecidableEq, Repr

/-- An Earmark bank: entries that are not all zero, by index, in the array and in its shadow (R378, R391). -/
structure EBank where
  /-- the array -/
  array : List (Nat × EEnt)
  /-- the shadow -/
  shadow : List (Nat × EEnt)
  /-- DTIMEs of its repairs within the last second (R395) -/
  repairs : List Nat
deriving DecidableEq, Repr

/-- A span the firmware has entered in the frame index (R398). -/
structure ESpan where
  /-- bank -/
  bank : Nat
  /-- entry index -/
  index : Nat
  /-- TAKE_ID -/
  takeId : Nat
  /-- container offset of its INDEX record -/
  off : Nat
deriving DecidableEq, Repr

/-- A job in progress: items completed, keys with HIT, results with REPAIRED, and the STATUS that stopped it (R387, R389). -/
structure EarProg where
  /-- job -/
  job : Nat
  /-- items completed -/
  items : Nat
  /-- keys with HIT -/
  hits : Nat
  /-- results with REPAIRED -/
  repairs : Nat
  /-- the STATUS that stopped it -/
  stop : Option Nat
deriving DecidableEq, Repr

/-- Earmark (R378-R402). -/
structure EarmarkSt where
  /-- banks 0-31 -/
  banks : List EBank
  /-- frame-index spans -/
  spans : List ESpan
  /-- DTIME of the last search that hit a span of a take, by TAKE_ID -/
  searched : List (Nat × Nat)
  /-- DTIME of the last recorded denial of a rule search (R397) -/
  denied : Option Nat
  /-- banks of the frame index since boot (R398) -/
  index : List Nat
  /-- jobs in progress (R389) -/
  runs : List EarProg
  /-- the queue whose operation each table's port took last: 0-8 the clusters, 9 the host (R388) -/
  turns : List (Nat × Nat)
deriving DecidableEq, Repr

/-- A register-fed message (R437). -/
structure Feed where
  /-- unit, 60-63 -/
  unit : Nat
  /-- its claimant -/
  origin : Origin
  /-- message bytes so far -/
  msg : Bytes
deriving DecidableEq, Repr

/-- A submission queue (R455, R461). -/
structure Sq where
  /-- function -/
  fn : Nat
  /-- identifier -/
  qid : Nat
  /-- entries -/
  size : Nat
  /-- its completion queue -/
  cqid : Nat
  /-- tail doorbell -/
  tail : Nat
  /-- head: entries fetched -/
  head : Nat
  /-- CID, Status Field and DTIME of the command that froze it -/
  frozen : Option (Nat × Nat × Nat)
  /-- global index (R448) -/
  gidx : Nat
deriving DecidableEq, Repr

/-- A completion queue (R449, R455). -/
structure Cq where
  /-- function -/
  fn : Nat
  /-- identifier -/
  qid : Nat
  /-- entries -/
  size : Nat
  /-- vector -/
  vec : Nat
  /-- interrupts enabled -/
  ien : Bool
  /-- head doorbell -/
  head : Nat
  /-- entries posted so far, modulo the size -/
  tail : Nat
deriving DecidableEq, Repr

/-- A range-lock entry: namespace, first LBA, LBAs, write (R457). -/
structure RLock where
  /-- namespace -/
  nsid : Nat
  /-- first LBA -/
  first : Nat
  /-- LBAs -/
  count : Nat
  /-- write -/
  wr : Bool
deriving DecidableEq, Repr

/-- Where a fetched command stands. -/
inductive CmdPhase where
  /-- waits on a range lock (R458) -/
  | waits
  /-- may start -/
  | ready
  /-- reads, programs or an engine job are outstanding -/
  | running
  /-- completed; its write lock is still held (R459) -/
  | locked
deriving DecidableEq, Repr

/-- A fetched I/O command (R456-R459). -/
structure HCmd where
  /-- the command -/
  x : IoCmd
  /-- fetch number -/
  num : Nat
  /-- locks it holds -/
  locks : List RLock
  /-- phase -/
  phase : CmdPhase
  /-- units still to be read or programmed, as a count -/
  left : Nat
  /-- a read of it failed -/
  failed : Bool
deriving DecidableEq, Repr

/-- A completion entry posted or about to be (R461). -/
structure Cqe where
  /-- function -/
  fn : Nat
  /-- completion queue -/
  cq : Nat
  /-- submission queue -/
  sq : Nat
  /-- CID -/
  cid : Nat
  /-- Status Field without the phase tag: SCT and SC -/
  status : Nat
  /-- DW0 -/
  dw0 : Nat
  /-- DW1 -/
  dw1 : Nat
deriving DecidableEq, Repr

/-- What an admin command waits for. -/
inductive AdminFor where
  | takeClosed | takeDeleted (nsid : Nat) | microcode | keyJob (id : Nat) | update | syncTake | setOp (opId : Nat) | regAccess (tag : Nat)
  | program (slot : Nat) (data : Bytes)
deriving DecidableEq, Repr

/-- A pending asynchronous event: type, information and log page. -/
structure AsyncEv where
  /-- function -/
  fn : Nat
  /-- type -/
  ty : Nat
  /-- information -/
  info : Nat
  /-- log page named -/
  page : Nat
deriving DecidableEq, Repr

/-- An entry of the Error Information log (R462). -/
structure ErrInfo where
  /-- function -/
  fn : Nat
  /-- error count -/
  count : Nat
  /-- SQID -/
  sq : Nat
  /-- CID -/
  cid : Nat
  /-- Status Field -/
  status : Nat
  /-- LBA -/
  lba : Nat
  /-- NSID -/
  nsid : Nat
deriving DecidableEq, Repr

/-- A program in a slot of a compute namespace (R476). -/
structure ProgSlot where
  /-- function -/
  fn : Nat
  /-- slot -/
  slot : Nat
  /-- flock image -/
  image : Bytes
  /-- active -/
  active : Bool
deriving DecidableEq, Repr

/-- The host interface (R444-R485). -/
structure HostSt where
  /-- submission queues -/
  sqs : List Sq
  /-- completion queues -/
  cqs : List Cq
  /-- fetched commands, in fetch order -/
  cmds : List HCmd
  /-- completion entries posted and not yet released by the host -/
  cqes : List Cqe
  /-- admin commands not yet complete -/
  waiting : List (Cmd × AdminFor)
  /-- Asynchronous Event Requests outstanding, oldest first -/
  aers : List Cmd
  /-- events waiting for a request, or masked until their log page is read -/
  events : List AsyncEv
  /-- event masks: function and log page, cleared by reading the page with RAE = 0 -/
  masked : List (Nat × Nat)
  /-- Error Information entries, newest first -/
  errInfo : List ErrInfo
  /-- error completions so far, by function -/
  errCount : List (Nat × Nat)
  /-- feature values: function and feature -/
  features : List ((Nat × Nat) × Nat)
  /-- compute programs -/
  progs : List ProgSlot
  /-- what Security Receive returns, by function (R475) -/
  secOut : List (Nat × Bytes)
  /-- MSI-X messages sent: function and vector, counted -/
  msix : List ((Nat × Nat) × Nat)
  /-- GENERATION of the take catalog (R482) -/
  catalog : Nat
  /-- a pause of fetching is in progress (R460) -/
  paused : Bool
  /-- controllers on which a queue has frozen since C1h was last read (R463) -/
  frozenSeen : List Nat
  /-- Changed Namespace Lists: function and NSID -/
  changed : List (Nat × Nat)
  /-- commands not yet fetched that an Abort has ended (R465) -/
  aborts : List CmdKey
  /-- the turns by which functions are fetched while die time is short (R494) -/
  turns : Turns
deriving DecidableEq, Repr

end Sys2Proof.Machine
end

