-- ==== Sys2Proof/Machine/Types7.lean ====
section
/-!
DEFINITION. The pieces the state is made of, seventh part: DRAM channels and the Drove set.
-/

namespace Sys2Proof.Machine

/-- A command to the DRAM parts that an event of the table sends: a refresh, or a read of a mode register (R532, R533). -/
inductive DramOp where
  /-- refresh -/
  | refresh
  /-- a mode register is read: MR4, or the DQS interval oscillator of one rank -/
  | modeRead
deriving DecidableEq, Repr

/-- A command in a channel's retry buffer, with the DTIME of its issue (R537). -/
structure DramCmd where
  /-- command -/
  op : DramOp
  /-- DTIME of its last issue -/
  issued : Nat
deriving DecidableEq, Repr

/-- What the DRAM controller remembers beside its registers (R533, R537-R539), by channel. -/
structure DramSt where
  /-- DTIMEs of the replays of the last millisecond -/
  replays : List (List Nat)
  /-- DTIMEs of the uncorrectable bursts of the last second -/
  ues : List (List Nat)
  /-- refresh-rate indication last read from MR4 -/
  mr4 : List Nat
  /-- DTIME of the last refresh -/
  refreshed : List Nat
  /-- retry buffer: the last 64 commands, oldest first -/
  retry : List (List DramCmd)
deriving DecidableEq, Repr

/-- A Drove link, by physical port (R507-R509, R517). -/
structure DroveLink where
  /-- in ACTIVE -/
  up : Bool
  /-- REFUSAL: 0 none, 1 foreign, 2 loop-back, 3 too many -/
  refusal : Nat
  /-- the serial of the last neighbour whose IDENT was accepted here -/
  peer : Option Bytes
  /-- the neighbour's IDENT of this link-up has been accepted -/
  ident : Bool
  /-- the neighbour's index -/
  neighbour : Nat
  /-- link delay in ns -/
  delay : Nat
  /-- the last TIME received: the DTIME it carried, and the own DTIME at its arrival -/
  heard : Option (Nat × Nat)
  /-- last payload SEQ sent -/
  txSeq : Nat
  /-- last payload SEQ received good and in order -/
  rxSeq : Nat
  /-- a NAK was sent and later payload flits are discarded until the one after `rxSeq` -/
  nakked : Bool
  /-- what the next link area carries: 0 nothing, 1 ACK, 2 NAK -/
  ackOut : Nat
  /-- credited packets sent since link-up -/
  txCtrl : Nat
  /-- the neighbour's CL_CTRL -/
  limCtrl : Option Nat
  /-- credited packets received since link-up -/
  rxCtrl : Nat
  /-- advertised CL_CTRL, as a cumulative count -/
  advCtrl : Nat
  /-- received packets waiting, oldest first -/
  rxBuf : List Bytes
  /-- packets waiting to be sent -/
  txq : List Bytes
  /-- sent and unacknowledged flits -/
  replay : List TxFlit
  /-- replays in a row without progress -/
  replays : Nat
  /-- DTIME since which no acknowledgement has advanced -/
  ackFrom : Nat
  /-- retraining at its width after four replays (R64) -/
  retraining : Bool
deriving DecidableEq, Repr

/-- What is known of a set member from its heartbeats (R508, R514). -/
structure Member where
  /-- index -/
  idx : Nat
  /-- DTIME of the last heartbeat heard -/
  heard : Nat
  /-- EPOCH it carried -/
  epoch : Nat
  /-- active role -/
  role : Nat
  /-- FLAGS -/
  flags : Nat
  /-- its DTIME less the own one, ns -/
  offset : Int
  /-- physical port the last one arrived on is A -/
  viaA : Bool
deriving DecidableEq, Repr

/-- A member's REPLY to an operation: member, STATUS, REASON, RESULT. -/
structure OpReply where
  /-- member -/
  idx : Nat
  /-- STATUS -/
  status : Nat
  /-- REASON -/
  reason : Nat
  /-- RESULT -/
  result : Bytes
deriving DecidableEq, Repr

/-- A global operation (R519-R523). -/
structure SetOp where
  /-- OP_ID on the ring -/
  opId : Nat
  /-- the member that issued it -/
  issuer : Nat
  /-- its number at the issuer -/
  tag : Nat
  /-- OP: 2 ARM_TAKE, 3 CANCEL, 4 BARRIER, 5 SNAPSHOT, 6 RESET, 8 HANDBACK -/
  op : Nat
  /-- PHASE: 0 prepare, 1 commit, 2 cancel -/
  phase : Nat
  /-- T, or for CANCEL the OP_ID named -/
  t : Nat
  /-- PARAM -/
  param : Bytes
  /-- DTIME of its issue, for CAP.TO -/
  since : Nat
  /-- the MSEQ of its MIRROR record while the standby has not acknowledged it (R513) -/
  mirror : Option Nat
  /-- the ORDER of the present phase has been sent -/
  sent : Bool
  /-- answers to the present phase -/
  replies : List OpReply
  /-- first refusal: member and REASON -/
  refused : Option (Nat × Nat)
deriving DecidableEq, Repr

/-- A prepared or armed start at this member (R521). -/
structure Armed where
  /-- OP_ID -/
  opId : Nat
  /-- T -/
  t : Nat
  /-- committed -/
  committed : Bool
deriving DecidableEq, Repr

/-- The Drove set agent (R507-R526). -/
structure DroveSt where
  /-- physical port A -/
  a : DroveLink
  /-- physical port B -/
  b : DroveLink
  /-- active role -/
  role : Nat
  /-- own index, none before formation -/
  member : Option Nat
  /-- manager's index -/
  manager : Nat
  /-- eligible standby's index -/
  standby : Option Nat
  /-- members numbered by the last FORM that came round, for the manager -/
  admitted : Nat
  /-- line -/
  line : Bool
  /-- port names swapped -/
  swapped : Bool
  /-- EPOCH -/
  epoch : Nat
  /-- the other members heard within 3 ms -/
  live : List Member
  /-- quorum -/
  quorum : Bool
  /-- takeover sent and not yet acknowledged by every live member (R515) -/
  taking : Bool
  /-- NEXT_INDEX of the manager's last FORM at its receipt: hops from the manager downstream, or along a line -/
  formHops : Nat
  /-- that FORM arrived on physical port A -/
  formA : Bool
  /-- waiting: quorum was held and is lost (R516) -/
  waiting : Bool
  /-- offset from set time, ns -/
  offset : Int
  /-- DTIME since which the offset has been beyond 100 µs -/
  offSince : Option Nat
  /-- the time fault of this excursion is recorded -/
  faulted : Bool
  /-- last SYNC_IN edge -/
  syncAt : Option Nat
  /-- the standby's set-state version differs from the manager's, at either of them (R513) -/
  mirrorBad : Bool
  /-- the set state of the last MIRROR record taken -/
  setState : Bytes
  /-- next MSEQ -/
  mseq : Nat
  /-- next OP_ID of this EPOCH -/
  nextOp : Nat
  /-- next number of a locally issued operation -/
  nextTag : Nat
  /-- operation in progress, on the manager -/
  cur : Option SetOp
  /-- operations that wait behind it -/
  queue : List SetOp
  /-- operations issued here that wait for quorum, or for the manager's result -/
  held : List SetOp
  /-- OP_IDs answered in this EPOCH with PHASE, and the REPLY sent -/
  answered : List ((Nat × Nat) × Bytes)
  /-- a barrier whose local quiesce is not reached: OP_ID, next frame uid and next journal SEQ at its arrival -/
  quiesce : Option (Nat × Nat × Nat)
  /-- a start prepared or armed here -/
  armed : Option Armed
  /-- armed starts the manager has committed: OP_ID and T -/
  starts : List (Nat × Nat)
deriving DecidableEq, Repr

/-- A Drove link that is down. -/
def DroveLink.down : DroveLink :=
  ⟨false, 0, none, false, 0, 0, none, 1023, 1023, false, 0, 0, none, 0, 128, [], [], [], 0, 0, false⟩

/-- No set. -/
def DroveSt.reset : DroveSt :=
  { a := DroveLink.down, b := DroveLink.down, role := 0, member := none, manager := 0, standby := none, admitted := 0, line := false,
    swapped := false, epoch := 0, live := [], quorum := false, taking := false, formHops := 0, formA := false, waiting := false, offset := 0, offSince := none,
    faulted := false, syncAt := none, mirrorBad := false, setState := [], mseq := 0, nextOp := 0, nextTag := 0, cur := none, queue := [], held := [],
    answered := [], quiesce := none, armed := none, starts := [] }

end Sys2Proof.Machine
end

