-- ==== Sys2Proof/Machine/State.lean ====
section
/-!
DEFINITION. The state of the CK6480 block: everything the spec gives it, as plain data, with the queue of waiting commands,
and the state after reset.
-/

namespace Sys2Proof.Machine

/-- Why a step stops with a fault: no meaning of this model ends so on every path. -/
inductive Fault where
  /-- raised by no command: kept so that the interface has a fault type that is not empty; safe -/
  | none_
deriving DecidableEq, Repr

/-- Why a step is refused. -/
inductive Refusal where
  /-- a command whose meaning is not modelled, by its mnemonic; raised by `exec` alone; safe -/
  | notModelled (mnemonic : String)
deriving DecidableEq, Repr

/-- The state of the block. -/
structure State where
  /-- waiting commands, first in, first out -/
  pending : List Instr
  /-- DTIME in ns -/
  time : Nat
  /-- the model's own: number of the next use of a free value -/
  freeNext : Nat
  /-- the RTC's count in 1/32768 s at DTIME `rtcAt` (R561) -/
  rtcBase : Nat
  /-- DTIME at which `rtcBase` held -/
  rtcAt : Nat
  /-- CTL cycles that DTIME has been slewed for since its last correction of 1 ns (R560; log entry 87) -/
  slewed : Nat
  /-- register fields that differ from their reset value -/
  regs : List (Fld × Nat)
  /-- 64-bit read latches -/
  latches : List Latch
  /-- pending low words -/
  lows : List PendLow
  /-- what the last register read returned, by origin -/
  readData : List (Origin × Nat)
  /-- the model's own: CODE of what refused the last register write, none if it was accepted, for the answers of R83 and R508 -/
  refusal : Option Nat
  /-- sticky bits that rose in the present CTL cycle (R39) -/
  rises : List Rise
  /-- error intake and rings -/
  fault : FaultSt
  /-- OTP, roles, audit, perturbation -/
  trust : TrustSt
  /-- Gate port -/
  gate : GateSt
  /-- take pipeline -/
  take : TakeSt
  /-- triggers -/
  trig : TrigSt
  /-- Shears lanes 0-11 -/
  lanes : Vector LaneSt 12
  /-- engine jobs -/
  jobs : JobsSt
  /-- flash channels -/
  nand : NandSt
  /-- media map -/
  media : MediaSt
  /-- array -/
  array : ArraySt
  /-- the Tally -/
  tally : TallySt
  /-- cipher and key engine -/
  keys : KeySt
  /-- namespaces -/
  ns : List Ns
  /-- DRAM, Common and host memory -/
  mem : MemSt
  /-- XLATE table -/
  xlate : List XEnt
  /-- Crook cores 0-71 -/
  cores : Vector Core 72
  /-- clusters 0-8 -/
  clusters : Vector Cluster 9
  /-- microcode load in progress -/
  mcLoad : Option McLoad
  /-- tenants -/
  tenant : TenantSt
  /-- modes, regulators, boot -/
  pwr : PwrSt
  /-- Earmark -/
  ear : EarmarkSt
  /-- register-fed digest messages -/
  feeds : List Feed
  /-- host interface -/
  host : HostSt
  /-- DRAM channels -/
  dram : DramSt
  /-- Drove set -/
  drove : DroveSt
deriving DecidableEq, Repr

/-- An empty error ring. -/
def Ring.empty : Ring := ⟨[], 0, 0, false⟩

/-- Roles, audit and perturbation of a device with blank OTP and an empty log (log entry 2). -/
def TrustSt.reset : TrustSt :=
  { otp := [], makerGen := none, instGen := none, decom := false, sessions := [], challenges := [],
    lockouts := [⟨0, 0, 0⟩, ⟨0, 0, 0⟩, ⟨0, 0, 0⟩], cred := none, audit := [], auditSeq := 1, auditHead := [], auditHeadSeq := 0,
    injected := [], armOrigin := none, delays := [] }

/-- The Gate with its link down (R51-R68): the first payload flit takes SEQ 0 (log entry 4). -/
def GateSt.reset : GateSt :=
  { txSeq := 1023, rxSeq := 1023, nakked := false, ackOut := 0, txCtrl := 0, limCtrl := none, limData := 0, rxData := 0,
    rxCtrl := 0, advData := 8192, advCtrl := 64, rxBuf := [], txq := [], replay := [], sent := none, fec := [], replays := 0, hbSeq := 0, hbDue := 0, ackFrom := 0, hbTimes := [],
    group := 0, graceFrom := none, mayTrain := false, failedAt := none }

/-- No take open. -/
def TakeSt.reset : TakeSt :=
  { req := none, c := none, grantTime := 0, cont := [], placed := 0, secured := 0, tailSince := 0, frames := [], slices := [],
    lastNumber := [], refusing := [], acks := [], index := [], indexed := [], lastIndex := 0, chunksListed := 0, framesStored := 0,
    rawStored := 0, marked := 0, ratioFrom := 0, ratioRaw := 0, ratioStored := 0, reason := 0, trailer := none, nextUid := 0,
    nextId := 1, keysel := [], releasedSegs := [], releasing := [], rtcAtGrant := 0, ratioLow := 0, pfPhase := 0, noTrailer := false,
    lostFrames := [] }

/-- A free trigger window. -/
def Window.free : Window := ⟨0, 0, 0, false, false, false, 0, 0, 0, 0, 0, 0, [], [], []⟩

/-- An empty map. -/
def MapImage.empty : MapImage := ⟨[], [], [], [], [], [], 0, 0, 0⟩

/-- An unformatted media map (R231). -/
def MediaSt.reset : MediaSt :=
  { formatted := false, image := MapImage.empty, seq := 1, page := [], pageSince := 0, journal := [], ckpts := [], job := none,
    pages := [], metaBlocks := [], nextPage := 1, auditAt := 0, ckptAt := 0, wbuf := [], refresh := [], reloc := none, freed := [],
    patrolled := [], nextGroup := 0, dirty := [], dirtyDir := [], resident := [], slc := 0, waiting := [], zeroWaits := [],
    patrolAt := 0, patrolBoot := false, hints := [], lostPages := [] }

/-- An array with no group. -/
def ArraySt.reset : ArraySt :=
  { lost := [], snap := none, snapNew := none, snapDirty := false, pending := [], sweep := [], stopGroups := [], bitmap := [],
    bitmapWrites := 0, reshape := none, reshapeSeq := [], seed := 0, turns := [], noReplacement := [], holes := [], reshapeFreed := 0 }

/-- A Tally in which nothing has been written (R21). -/
def TallySt.reset : TallySt :=
  { ptrs := [(0, 0), (0, 0)], reshape := [[], []], header := [[], []], boots := [], unread := [], writes := [], moved := [] }

/-- No key loaded (R403-R429). -/
def KeySt.reset : KeySt :=
  { kekMedia := none, kekFunc := [], slots := [], records := [], nextRec := 1, due := [], ctxs := [], queue := [], finished := [],
    purge := [], conds := 0, owedTrailers := [], masks := [], draws := [], derive := none, alarmed := false, stallAt := none }

/-- Firmware before boot has accepted an image. -/
def FwSt.reset : FwSt :=
  { running := none, region := [none, none, none], slots := [], buf := [], bufLen := 0, nextSlot := none, update := none, inHandover := false,
    restart := [], monitor := 0, oldCluster := none }

/-- Power and boot right after a cold reset: phase 1 of the boot (R565, R566). -/
def PwrSt.reset : PwrSt :=
  { tran := none, wakes := 0, residenceOver := false, railsOff := false, mainOk := true, pfHigh := true, serveAt := none,
    idleSince := 0, modeSince := 0, history := [], acct := List.replicate 8 ⟨0, 0, 0, 0, 0⟩, blockAcct := [], colds := 1,
    bootPhase := 1, bootAt := 0, dramTrained := false, sources := [], held := .no, keysLocked := false, cleanStop := false,
    stoppedAt := 0, config := [[], [], []], kickAt := 0, fw := FwSt.reset, tj := 100, hotSince := none, stageSince := none,
    locked := false, pfBegun := false, perst := (false, false), setSteps := [],
    dead := false, setTries := 0, thermal := false }

/-- Earmark with every bank clear; the frame index is formed at boot (R398). -/
def EarmarkSt.reset : EarmarkSt := ⟨List.replicate 32 ⟨[], [], []⟩, [], [], none, [], [], []⟩

/-- No queue created. -/
def HostSt.reset : HostSt :=
  { sqs := [], cqs := [], cmds := [], cqes := [], waiting := [], aers := [], events := [], masked := [], errInfo := [],
    errCount := [], features := [], progs := [], secOut := [], msix := [], catalog := 0, paused := false, frozenSeen := [],
    changed := [], aborts := [], turns := ⟨none, []⟩ }

/-- The machine right after a cold reset of a device that has never been formatted: every register at its reset value, every
memory and queue empty (log entry 2). -/
def State.reset : State :=
  { pending := [], time := 0, freeNext := 0, rtcBase := 0, rtcAt := 0, slewed := 0, regs := [], latches := [], lows := [], readData := [], refusal := none, rises := [],
    fault := ⟨[], Ring.empty, [], none⟩, trust := TrustSt.reset, gate := GateSt.reset, take := TakeSt.reset,
    trig := ⟨[], List.replicate 64 Window.free, [none, none, none], [], [], [], []⟩, lanes := Vector.replicate 12 ⟨.idle, [], []⟩,
    jobs := ⟨[], [], 0, ⟨none, []⟩, []⟩, nand := ⟨none, [], [], [], [], [], [], [], [], [], [], [], []⟩, media := MediaSt.reset, array := ArraySt.reset,
    tally := TallySt.reset, keys := KeySt.reset, ns := [], mem := ⟨[], [], [], [], []⟩, xlate := [], cores := Vector.replicate 72 Core.off,
    clusters := Vector.replicate 9 Cluster.empty, mcLoad := none, tenant := ⟨[], [], [], [], []⟩, pwr := PwrSt.reset,
    ear := EarmarkSt.reset, feeds := [], host := HostSt.reset,
    dram := ⟨[[], [], [], []], [[], [], [], []], [0, 0, 0, 0], [0, 0, 0, 0], [[], [], [], []]⟩, drove := DroveSt.reset }

end Sys2Proof.Machine
end

