-- ==== Sys2Proof/Machine/Ops.lean ====
section
/-!
DEFINITION. The operations every block shares: reading and writing a register field, raising an event, recording an error,
drawing a free value, holding a role, appending to the audit log.
-/

namespace Sys2Proof.Machine

/-- The outcome of a command that takes a next state. -/
abbrev Out := Host.Outcome State Fault Refusal

/-! ### Pages -/

/-- The kind of page a page number names (R50); pages held per origin or unit repeat every 0x10000, and 0x1000 + FUNC is the
page 0 of a VF (R35). None for a number absent from the page index. -/
def kindOf (page : Nat) : Option PageKind :=
  let p := page % 0x10000
  if p = 0 then some .dev else if p = 1 then some .clk else if p = 2 then some .pwr else if p = 3 then some .vreg
  else if p = 4 then some .rtc else if p = 5 then some .otp else if p = 6 then some .role else if p = 7 then some .audit
  else if p = 8 then some .fault else if p = 9 then some .perturb else if p = 0xA then some .share
  else if p = 0x10 then some .gate else if p = 0x11 then some .take else if p = 0x12 then some .summ
  else if p = 0x13 then some .trig else if 0x18 ≤ p ∧ p ≤ 0x23 then some .lane else if p = 0x24 then some .shears
  else if p = 0x28 then some .cipher else if p = 0x29 then some .keyeng else if p = 0x2A then some .digest
  else if p = 0x2B then some .entropy else if p = 0x30 then some .earmark
  else if 0x40 ≤ p ∧ p ≤ 0x5F then some .bank else if p = 0x60 then some .media else if p = 0x61 then some .fallow
  else if p = 0x62 then some .array else if 0x80 ≤ p ∧ p ≤ 0x9F then some .nand
  else if 0xA0 ≤ p ∧ p ≤ 0xA3 then some .dram else if p = 0xA4 then some .dramc else if p = 0xB0 then some .hostq
  else if p = 0xB1 then some .tenant else if p = 0xB2 then some .xlate else if p = 0xC0 then some .drove
  else if 0x100 ≤ p ∧ p ≤ 0x147 then some .core else if 0x150 ≤ p ∧ p ≤ 0x158 then some .cluster
  else if 0x1000 ≤ p ∧ p < 0x1200 then some .vf else none

/-- BLOCK_ID of a kind of page (R49, R50). -/
def PageKind.block : PageKind → Nat
  | .dev => 1 | .clk => 2 | .pwr => 3 | .vreg => 4 | .rtc => 5 | .otp => 6 | .role => 7 | .fault => 8 | .audit => 9
  | .perturb => 0xA | .share => 0xB | .gate => 0x10 | .take => 0x11 | .summ => 0x12 | .trig => 0x13 | .lane => 0x18
  | .shears => 0x18 | .cipher => 0x20 | .keyeng => 0x21 | .digest => 0x22 | .entropy => 0x23 | .earmark => 0x28
  | .bank => 0x28 | .media => 0x30 | .fallow => 0x31 | .array => 0x32 | .nand => 0x38 | .dram => 0x40 | .dramc => 0x40
  | .hostq => 0x48 | .tenant => 0x49 | .vf => 0x49 | .xlate => 0x4A | .drove => 0x50 | .core => 0x58 | .cluster => 0x59

/-- INSTANCE of a page (R50); the page 0 of VF n has INSTANCE n - 1 (R499). -/
def pageInst (page : Nat) : Nat :=
  let p := page % 0x10000
  match kindOf p with
  | some .lane => p - 0x18
  | some .shears => 12
  | some .earmark => 32
  | some .bank => p - 0x40
  | some .nand => p - 0x80
  | some .dram => p - 0xA0
  | some .dramc => 4
  | some .core => p - 0x100
  | some .cluster => p - 0x150
  | some .vf => p - 0x1001
  | _ => 0

/-- HAS_SOFT_RESET (R37, R182, R401). -/
def PageKind.hasReset : PageKind → Bool
  | .lane => true | .bank => true | _ => false

/-- HAS_DISABLE (R37, R182). -/
def PageKind.hasDisable : PageKind → Bool
  | .lane => true | _ => false

/-- HAS_PERTURB (R37, R89, R182, R204, R401, R525, R542). -/
def PageKind.hasPerturb : PageKind → Bool
  | .gate => true | .lane => true | .nand => true | .bank => true | .drove => true | .dram => true | _ => false

/-- WINDOWABLE (R37, R334, R401). -/
def PageKind.windowable : PageKind → Bool
  | .core => true | .bank => true | _ => false

/-! ### Fields of the common header (R37) -/

/-- PAGE_CTRL.ENABLE. -/
def H.ENABLE (p : Nat) : Fld := ⟨p, 0x008, 0, 1⟩
/-- PAGE_STATUS.RESET_BUSY. -/
def H.RESET_BUSY (p : Nat) : Fld := ⟨p, 0x00C, 2, 1⟩
/-- PAGE_STATUS.DEGRADED. -/
def H.DEGRADED (p : Nat) : Fld := ⟨p, 0x00C, 3, 1⟩
/-- PAGE_STATUS.RETIRED. -/
def H.RETIRED (p : Nat) : Fld := ⟨p, 0x00C, 4, 1⟩
/-- EVENT_RAW but for ERR, which reads ERR_CODE.VALID (R40). -/
def H.RAW (p : Nat) : Fld := ⟨p, 0x010, 0, 31⟩
/-- EVENT_MASK. -/
def H.MASK (p : Nat) : Fld := ⟨p, 0x014, 0, 32⟩
/-- EVENT_STICKY. -/
def H.STICKY (p : Nat) : Fld := ⟨p, 0x018, 0, 32⟩
/-- EVENT_COUNT. -/
def H.COUNT (p : Nat) : Fld := ⟨p, 0x01C, 0, 32⟩
/-- ERR_CODE.CODE. -/
def H.CODE (p : Nat) : Fld := ⟨p, 0x020, 0, 16⟩
/-- ERR_CODE.COUNT. -/
def H.ERRS (p : Nat) : Fld := ⟨p, 0x020, 16, 8⟩
/-- ERR_CODE.VALID. -/
def H.VALID (p : Nat) : Fld := ⟨p, 0x020, 31, 1⟩
/-- ERR_INFO.INFO. -/
def H.INFO (p : Nat) : Fld := ⟨p, 0x024, 0, 32⟩
/-- PERTURB_SEL.POINT. -/
def H.POINT (p : Nat) : Fld := ⟨p, 0x02C, 0, 8⟩

/-! ### Register fields -/

/-- The reset value of a field (R44): the header's ENABLE is 1, an EARMARK bank's table is its own number, the owner of the
PMB_ALERT_N ball is PWR and the Lee reserve is fixed to the take (R614, R646); every other field takes its row's value. -/
def resetOf (f : Fld) : Nat :=
  let p := f.page % 0x10000
  if f.off = 0x008 ∧ f.lo = 0 then 1
  else if f.off < 0x040 then 0
  else if p = 0xA ∧ f.off = 0x054 then (if f.lo = 0 then 1 else if f.lo = 14 then 3 else 0)
  else if p = 0xA ∧ f.off = 0x058 then (if f.lo = 0 then 2 else if f.lo = 5 then 0x1F1 else 0)
  else
    match kindOf p with
    | none => 0
    | some k =>
      if k = .bank ∧ f = R.BANK.BANK_CFG_TABLE (p - 0x40) then p - 0x40
      else if k = .vf ∧ f.off = 0x040 then p - 0x1000
      else match k.rows.find? (fun r => r.off == f.off && r.lo == f.lo) with
        | some r => r.reset
        | none => 0

/-- The value of a register field. -/
def State.get (s : State) (f : Fld) : Nat :=
  match assoc s.regs f with
  | some v => v
  | none => resetOf f

/-- Set a register field to the low bits of `v`. -/
def State.put (s : State) (f : Fld) (v : Nat) : State := { s with regs := assocSet s.regs f (v % 2 ^ f.w) }

/-- Set a one-bit field. -/
def State.putBit (s : State) (f : Fld) (b : Bool) : State := s.put f (b2n b)

/-- A one-bit field as a Boolean. -/
def State.bit (s : State) (f : Fld) : Bool := s.get f != 0

/-- Add to a counting field, saturating at its width. -/
def State.bump (s : State) (f : Fld) (n : Nat := 1) : State := s.put f (min (s.get f + n) (2 ^ f.w - 1))

/-- Set several fields in turn. -/
def State.puts (s : State) (l : List (Fld × Nat)) : State := l.foldl (fun t p => t.put p.1 p.2) s

/-- Return fields to their reset values. -/
def State.unput (s : State) (keep : Fld → Bool) : State := { s with regs := s.regs.filter fun p => keep p.1 }

/-! ### Free values -/

/-- A fresh free value: what the spec leaves open (log entry 3). -/
def State.fresh (s : State) : Nat × State := (Config.freeNat s.freeNext, { s with freeNext := s.freeNext + 1 })

/-- A fresh free byte string of length `n` (log entry 3). -/
def State.freshBytes (s : State) (n : Nat) : Bytes × State :=
  ((List.range n).map (Config.freeByte s.freeNext), { s with freeNext := s.freeNext + 1 })

/-! ### Events and errors -/

/-- The interrupt request of a page (R39). -/
def State.requests (s : State) (page : Nat) : Bool := s.get (H.STICKY page) &&& s.get (H.MASK page) != 0

/-- Count an MSI-X message of a function's vector (R449). -/
def State.countMsi (s : State) (fn vec : Nat) : State :=
  { s with host := { s.host with msix := assocSet s.host.msix (fn, vec) ((assoc s.host.msix (fn, vec)).getD 0 + 1) } }

/-- The message of a page whose request has risen (R449): on the PF's vector for a device page, and on the vector of each VF
that shows the page in a window, or whose page 0 it is. -/
def State.pageIrq (s : State) (page : Nat) : State :=
  let vf := fun (t : State) (f : Nat) =>
    if t.get (R.VF.VF_IRQ_EN f) = 1 then t.countMsi f (t.get (R.VF.VF_IRQ_VECTOR f)) else t
  if 0x1000 ≤ page then vf s (page - 0x1000)
  else
    let t := if s.get R.HOSTQ.PAGE_IRQ_EN = 1 then
        s.countMsi (if s.get R.HOSTQ.PAGE_IRQ_PF = 1 then 0x101 else 0) (s.get R.HOSTQ.PAGE_IRQ_VECTOR) else s
    (s.tenant.fns.filter fun f => f.p.windows.contains (some page)).foldl (fun t f => vf t f.p.func) t

/-- The message that follows a rise of a page's request between two states. -/
def State.irqAfter (s t : State) (page : Nat) : State := if !s.requests page && t.requests page then t.pageIrq page else t

/-- A sticky bit rises: it is set, and the CTL cycle is kept for R39. -/
def State.rise (s : State) (page bit : Nat) : State :=
  let t := s.put (H.STICKY page) (setBit (s.get (H.STICKY page)) bit true)
  { t with rises := ⟨page, bit, s.time / 10⟩ :: s.rises.filter (·.cycle == s.time / 10) }

/-- Sticky bits of a page that rose in the present CTL cycle, which a write of 1 does not clear (R39). -/
def State.risen (s : State) (page : Nat) : Nat :=
  (s.rises.filter fun r => r.page == page && r.cycle == s.time / 10).foldl (fun v r => setBit v r.bit true) 0

/-- A momentary event: its sticky bit is set and EVENT_COUNT rises (R37, R39). -/
def State.pulse (s : State) (page bit : Nat) : State := s.irqAfter ((s.rise page bit).bump (H.COUNT page)) page

/-- A condition with a present state: EVENT_RAW follows it, and a rise sets the sticky bit and counts (R37). -/
def State.level (s : State) (page bit : Nat) (b : Bool) : State :=
  let raw := s.get (H.RAW page)
  let t := s.put (H.RAW page) (setBit raw bit b)
  if b && !bitAt raw bit then t.pulse page bit else t

/-- Insert a report among those of its own CTL cycle in ascending block ID, then instance (R608). -/
def insertReport (r : Report) : List Report → List Report
  | [] => [r]
  | x :: xs =>
    if x.time / 10 = r.time / 10 ∧ (r.code / 256 < x.code / 256 ∨ (r.code / 256 = x.code / 256 ∧ r.inst < x.inst))
    then r :: x :: xs else x :: insertReport r xs

/-- A report that a ring loses (R610). -/
def Ring.lose (r : Ring) (time : Nat) : Ring :=
  { r with lost := sat32 (r.lost + 1), firstLost := if r.lost = 0 then time else r.firstLost }

/-- The ring of a host function, empty if it has none yet. -/
def FaultSt.func (f : FaultSt) (fn : Nat) : Ring := (assoc f.funcs fn).getD ⟨[], 0, 0, false⟩

/-- Send a report to the intake queue; with 64 waiting it is lost to the device ring and to its function's ring (R608). -/
def State.report (s : State) (r : Report) : State :=
  if s.fault.intake.length < 64 then { s with fault := { s.fault with intake := insertReport r s.fault.intake } }
  else
    let f := { s.fault with dev := s.fault.dev.lose r.time }
    let f := if r.func ≤ 0x101 then { f with funcs := assocSet f.funcs r.func ((f.func r.func).lose r.time) } else f
    { s with fault := f }

/-- A handover of the system cores has paused fetch: of an update (R332), or of cores that the others restart (R319). -/
def State.handing (s : State) : Bool := s.pwr.fw.inHandover || !s.pwr.fw.restart.isEmpty

/-- SEVERITY of a code (R605); the common conditions 0x01-0x05 are NOTE on every page (R49). -/
def severityOf (code : Nat) : Nat := (assoc severityTable code).getD 0

/-- Record an error in a page (R40). -/
def State.recordPage (s : State) (page code info : Nat) : State :=
  let first := s.get (H.VALID page) = 0
  let t := if first then ((((s.put (H.CODE page) code).put (H.INFO page) info).put (H.VALID page) 1).bump (H.COUNT page)) else s
  let t := t.bump (H.ERRS page)
  s.irqAfter (t.rise page 31) page

/-- Record an error in a page (R40) and report it (R604, R644). -/
def State.record (s : State) (page code info : Nat) (func : Nat := 0x1F0) (ext : Nat := 0) (last : Nat := 0) : State :=
  (s.recordPage page code info).report ⟨s.time, code, severityOf code, pageInst page, func, info % 2 ^ 32, ext, last⟩

/-- A common condition 0x01-0x05 on a page (R49). -/
def commonCode (page cond : Nat) : Nat :=
  match kindOf page with
  | some k => k.block * 256 + cond
  | none => 0x100 + cond

/-! ### Origins and roles -/

/-- ORIGIN code (R41). -/
def originCode : Origin → Nat
  | .pcie _ => 0 | .gate => 1 | .firmware => 2 | .setManager => 3 | .testPort => 4

/-- FUNC of a writer, 0 if the origin has none (R41). -/
def originFunc : Origin → Nat
  | .pcie f => f | _ => 0

/-- FUNC tag of a report made for an origin (R644). -/
def originTag : Origin → Nat
  | .pcie f => f | _ => 0x1F0

/-- Page key of a register held separately for each origin. -/
def originPage (page : Nat) (o : Origin) : Nat :=
  page + 0x10000 * (match o with
    | .pcie f => f + 1 | .gate => 0x201 | .firmware => 0x202 | .setManager => 0x203 | .testPort => 0x204)

/-- A field of a register held separately for each origin. -/
def Fld.of (f : Fld) (o : Origin) : Fld := { f with page := originPage f.page o }

/-- ERR_INFO of a refused register access (R41). -/
def accessInfo (o : Origin) (off : Nat) : Nat := off % 0x1000 + originFunc o * 2 ^ 16 + originCode o * 2 ^ 25

/-- ERR_INFO of OTP, ROLE, AUDIT and PERTURB conditions (R603). -/
def roleInfo (o : Origin) (n : Nat) : Nat := originCode o + originFunc o * 8 + n * 2 ^ 12

/-- OTP bytes from offset `a`. -/
def State.otpN (s : State) (a n : Nat) : Bytes := memReadN s.trust.otp a n

/-- Offset of the installer generation in force (R577, R580). -/
def State.instBase (s : State) : Option Nat := s.trust.instGen.map fun g => 768 + 768 * g

/-- A little-endian field of the installer generation in force, 0 when the block is absent. -/
def State.instField (s : State) (a n : Nat) : Nat :=
  match s.instBase with
  | some b => leNat (s.otpN (b + a) n)
  | none => 0

/-- Bit `i` of the installer FLAGS in force (R579). -/
def State.instFlag (s : State) (i : Nat) : Bool := bitAt (s.instField 4 4) i

/-- Offset of the maker generation in force. -/
def State.makerBase (s : State) : Option Nat := s.trust.makerGen.map fun g => 256 * g

/-- LIFECYCLE (R584): 0 BLANK, 1 MAKER, 2 FIELD, 3 DECOMMISSIONED. -/
def State.lifecycle (s : State) : Nat :=
  if s.trust.decom then 3
  else match s.trust.makerGen, s.trust.instGen with
    | none, _ => 0
    | some _, none => 1
    | some _, some _ => 2

/-- The serial number, from the maker generation in force. -/
def State.serial (s : State) : Bytes :=
  match s.makerBase with
  | some b => s.otpN (b + 8) 16
  | none => List.replicate 16 0

/-- The origin holds the role through an exchange (R587), Gate rights (R586), OPERATOR_OPEN (R588) or a blank device's test
port (R584). System firmware holds every role: it acts for the device (log entry 12). -/
def State.holdsExactly (s : State) (o : Origin) (r : Role) : Bool :=
  s.trust.sessions.any (fun x => x.origin == o && x.role == r)
  || (r == .operator && s.instFlag 2)
  || (r == .operator && o == .gate && s.get R.GATE.TUNNEL_CTRL_RIGHTS != 0 && (s.get R.GATE.LINK_STATUS_LTSSM == 4 || s.get R.GATE.LINK_STATUS_LTSSM == 5))
  || (r == .maker && o == .testPort && s.lifecycle == 0)
  || o == .firmware

/-- The origin holds the role or one ranked above it (R43, R585). -/
def State.holds (s : State) (o : Origin) : Role → Bool
  | .operator => s.holdsExactly o .operator || s.holdsExactly o .installer || s.holdsExactly o .maker
  | .installer => s.holdsExactly o .installer || s.holdsExactly o .maker
  | .maker => s.holdsExactly o .maker

/-- The role an RWL field names is held (R43). -/
def State.meets (s : State) (o : Origin) : RoleReq → Bool
  | .none => true
  | .oper => s.holds o .operator
  | .inst => s.holds o .installer
  | .instOrMaker => s.holds o .installer

/-- ROLE byte of an audit entry (R593): the highest role held, 0xFF for none and for the system firmware (log entry 12). -/
def State.roleByte (s : State) (o : Origin) : Nat :=
  if o == .firmware then 0xFF else if s.holdsExactly o .maker then 2 else if s.holdsExactly o .installer then 1
  else if s.holdsExactly o .operator then 0 else 0xFF

/-- The origin acted on a role: its idle time starts again (R592). -/
def State.touch (s : State) (o : Origin) : State :=
  { s with trust := { s.trust with sessions := s.trust.sessions.map fun x =>
      if x.origin == o then { x with last := s.time } else x } }

/-! ### Clock and audit log -/

/-- The RTC's count in 1/32768 s now, the trim of R561 applied. -/
def State.rtcTicks (s : State) : Nat :=
  let trim := signedOf 8 (s.get R.RTC.TRIM_HALF_PPM)
  let rate : Nat := ((2000000 : Int) + trim).toNat
  if s.get R.RTC.STATUS_OSC_FAIL = 1 then s.rtcBase
  else s.rtcBase + (s.time - s.rtcAt) * 32768 * rate / (2000000 * 1000000000)

/-- The RTC value in the layout of R113: [14:0] subseconds, [62:15] seconds. -/
def State.rtcValue (s : State) : Nat := s.rtcTicks % 2 ^ 63

/-- The last audit entry's digest: the SHA-256 of its 128 bytes, or of SERIAL before the first (R593). -/
def State.auditPrev (s : State) : Bytes :=
  match s.trust.audit.getLast? with
  | some e => sha256 e
  | none => if s.trust.auditSeq ≤ 1 then sha256 s.serial else s.trust.auditHead

/-- An audit entry (R593). -/
def auditEntry (seq time rtc role : Nat) (o : Origin) (action result : Nat) (param prev : Bytes) : Bytes :=
  leBytes 8 seq ++ leBytes 8 time ++ leBytes 8 rtc ++ leBytes 1 role ++ leBytes 1 (originCode o) ++ leBytes 2 (originFunc o)
    ++ leBytes 2 action ++ leBytes 1 result ++ [0] ++ padTo 64 param ++ prev

/-! ### The Tally (R21) -/

/-- First 64-bit word of an area: the areas lie in the order of R21's table (log entry 34). -/
def TallyArea.base : TallyArea → Nat
  | .pointers => 0 | .bitmap => 512 | .reshape => 8704 | .counters => 9216 | .power => 9344 | .auditHead => 11392 | .reserve => 11520

/-- Words of the whole Tally: 2 MiB. -/
def tallyWords : Nat := 262144

/-- Writes that a word endures (R20). -/
def tallyEndurance : Nat := 10000000000

/-- The physical word behind a word of an area. -/
def TallySt.word (t : TallySt) (a : TallyArea) (i : Nat) : Nat := (assoc t.moved (a.base + i)).getD (a.base + i)

/-- The next word of the reserve. -/
def TallySt.nextReserve (t : TallySt) : Nat :=
  TallyArea.reserve.base + (t.writes.filter fun x => decide (TallyArea.reserve.base ≤ x.1)).length

/-- A word is written: with the last write that it endures its contents move to a word of the reserve, while there is one (R21; log
entry 34). -/
def TallySt.wear (t : TallySt) (a : TallyArea) (i : Nat) : TallySt :=
  let w := t.word a i
  let n := (assoc t.writes w).getD 0 + 1
  if n < tallyEndurance ∨ tallyWords ≤ t.nextReserve then { t with writes := assocSet t.writes w n }
  else { t with writes := assocSet (assocSet t.writes w n) t.nextReserve 1, moved := assocSet t.moved (a.base + i) t.nextReserve }

/-- Words of an area are written. -/
def State.wearTally (s : State) (a : TallyArea) (is : List Nat) : State :=
  { s with tally := is.foldl (fun t i => t.wear a i) s.tally }

/-- Change what the Tally holds. -/
def State.setTally (s : State) (f : TallySt → TallySt) : State := { s with tally := f s.tally }

/-- An attempt to boot is written to the boot counters: its source, copy and result (R569; log entry 34). -/
def State.countBoot (s : State) (src copy : Nat) (ok : Bool) : State :=
  let old := s.tally.boots.find? fun b => b.source == src && b.copy == copy
  let n := (match old with | some b => b.attempts | none => 0) + 1
  ((s.bump R.PWR.BOOT_ATTEMPTS).setTally fun t =>
    { t with boots := t.boots.filter (fun b => !(b.source == src && b.copy == copy)) ++ [⟨src, copy, n, ok⟩] }).wearTally .counters [3 * src + copy]

/-- Set the head in the Tally to the newest entry (R595): its position and its digest. -/
def State.auditSync (s : State) : State :=
  match s.trust.audit.getLast? with
  | some e => State.wearTally { s with trust := { s.trust with auditHead := sha256 e, auditHeadSeq := leNat (e.take 8) } } .auditHead
      (List.range 5)
  | none => s

/-- Append an audit entry, the oldest leaving a full log of 65,536 (R593), durable at once (log entry 13). -/
def State.audit (s : State) (o : Origin) (role action result : Nat) (param : Bytes) : State :=
  let e := auditEntry s.trust.auditSeq s.time s.rtcValue role o action result param s.auditPrev
  let l := s.trust.audit ++ [e]
  State.auditSync { s with trust := { s.trust with audit := if l.length > 65536 then l.drop 1 else l,
                                                   auditSeq := s.trust.auditSeq + 1 } }

/-- Chain the entries after a changed one again (R596, log entry 13). -/
def rechain : Bytes → List Bytes → List Bytes
  | _, [] => []
  | prev, e :: es => let e' := e.take 96 ++ prev; e' :: rechain (sha256 e') es

/-- The newest entry of an origin and action that may still take a coalesced event: within one second (R596). -/
def coalesceAt (l : List Bytes) (time : Nat) (o : Origin) (action : Nat) : Option Nat :=
  let hits := (l.zipIdx.filter fun p =>
    leNat (sliceBytes p.1 28 2) == action && leNat (sliceBytes p.1 25 1) == originCode o
      && leNat (sliceBytes p.1 26 2) == originFunc o && decide (time < leNat (sliceBytes p.1 8 8) + 1000000000)).map (·.2)
  hits.getLast?

/-- Append an entry of ACTION 0x0003 or 0x0011, which coalesces with the origin's last within the second: its count, the
32-bit word at PARAM offset `cnt`, rises (R596). -/
def State.auditCoalesced (s : State) (o : Origin) (role action result : Nat) (param : Bytes) (cnt : Nat) : State :=
  match coalesceAt s.trust.audit s.time o action with
  | none => s.audit o role action result (overlay (padTo 64 param) cnt (leBytes 4 1))
  | some i =>
    let e := s.trust.audit.getD i []
    let n := leNat (sliceBytes e (32 + cnt) 4) + 1
    let e' := overlay e (32 + cnt) (leBytes 4 n)
    let after := rechain (sha256 e') (s.trust.audit.drop (i + 1))
    State.auditSync { s with trust := { s.trust with audit := s.trust.audit.take i ++ [e'] ++ after } }

/-! ### Pieces used across blocks -/

/-- Change the Gate state. -/
def State.setGate (s : State) (f : GateSt → GateSt) : State := { s with gate := f s.gate }
/-- Change the take state. -/
def State.setTake (s : State) (f : TakeSt → TakeSt) : State := { s with take := f s.take }
/-- Change the trigger state. -/
def State.setTrig (s : State) (f : TrigSt → TrigSt) : State := { s with trig := f s.trig }
/-- Change the job queues. -/
def State.setJobs (s : State) (f : JobsSt → JobsSt) : State := { s with jobs := f s.jobs }
/-- Change the flash channels. -/
def State.setNand (s : State) (f : NandSt → NandSt) : State := { s with nand := f s.nand }
/-- Change the media map. -/
def State.setMedia (s : State) (f : MediaSt → MediaSt) : State := { s with media := f s.media }
/-- Change the array. -/
def State.setArray (s : State) (f : ArraySt → ArraySt) : State := { s with array := f s.array }
/-- Change the keys. -/
def State.setKeys (s : State) (f : KeySt → KeySt) : State := { s with keys := f s.keys }
/-- Change trust state. -/
def State.setTrust (s : State) (f : TrustSt → TrustSt) : State := { s with trust := f s.trust }

end Sys2Proof.Machine
end

