-- ==== Sys2Proof/Machine/Mem.lean ====
section
/-!
DEFINITION. Memories and translation: the four targets behind XLATE, lookups under a function tag (R496, R301), engine
accesses, common bits (R308-R310) and done bits (R324).
-/

namespace Sys2Proof.Machine

/-- The bytes of one target. -/
def MemSt.at (m : MemSt) : Target → List (Nat × Byte)
  | .dram => m.dram | .common => m.common | .hostA => m.hostA | .hostB => m.hostB

/-- Replace the bytes of one target. -/
def MemSt.set (m : MemSt) (t : Target) (l : List (Nat × Byte)) : MemSt :=
  match t with
  | .dram => { m with dram := l }
  | .common => { m with common := l }
  | .hostA => { m with hostA := l }
  | .hostB => { m with hostB := l }

/-- Read `n` bytes of a target. -/
def MemSt.read (m : MemSt) (t : Target) (a n : Nat) : Bytes := memReadN (m.at t) a n

/-- A range of a target holds a poisoned burst (R536). -/
def MemSt.poisoned (m : MemSt) (t : Target) (a n : Nat) : Bool :=
  t == .dram && m.poison.any fun b => decide (a < 64 * b + 64) && decide (64 * b < a + n)

/-- A write to DRAM clears the poison of the bursts it touches (R536). -/
def MemSt.cleanse (m : MemSt) (t : Target) (a n : Nat) : MemSt :=
  if m.poisoned t a n then { m with poison := m.poison.filter fun b => !(decide (a < 64 * b + 64) && decide (64 * b < a + n)) } else m

/-- Write a byte string to a target. -/
def MemSt.write (m : MemSt) (t : Target) (a : Nat) (bs : Bytes) : MemSt :=
  (m.set t (memWriteN (m.at t) a bs)).cleanse t a bs.length

/-- Size of an entry's page in bytes (R496). -/
def XEnt.bytes (e : XEnt) : Nat := 4096 * 512 ^ e.size

/-- The entry covers a virtual address under a tag. -/
def XEnt.covers (e : XEnt) (func va : Nat) : Bool := e.func == func && e.va ≤ va && va < e.va + e.bytes

/-- The target address of a covered virtual address. -/
def XEnt.phys (e : XEnt) (va : Nat) : Nat := e.pa + (va - e.va)

/-- What an access needs of an entry's permissions. -/
inductive Need where
  | r | w | x
deriving DecidableEq, Repr

/-- The entry grants the permission. -/
def XEnt.allows (e : XEnt) : Need → Bool
  | .r => e.r | .w => e.w | .x => e.x

/-- Bytes of Common (R20). -/
def commonBytes : Nat := 24 * 2 ^ 20

/-- The entry grants an access at a virtual address: its permission, and for Common an address that exists (R20; log entry 18). -/
def XEnt.grants (e : XEnt) (n : Need) (va : Nat) : Bool := e.allows n && (e.tgt != .common || decide (e.phys va < commonBytes))

/-- XLATE's lookup by FUNC and virtual address (R496). -/
def xfind (t : List XEnt) (func va : Nat) : Option XEnt := t.find? (·.covers func va)

/-- Record a translation fault in the XLATE page (R301, R498, R505, R506); an engine's read of poisoned data is none (R536). -/
def State.xlateFault (s : State) (func va : Nat) (unit : Nat) (wr fetch engine : Bool) : State :=
  if engine && !wr && (match xfind s.xlate func va with | some e => e.allows .r && s.mem.poisoned e.tgt (e.phys va) 1 | none => false) then s
  else ((((((s.put R.XLATE.LAST_FAULT_VA_VA va).put R.XLATE.LAST_FAULT_FUNC func).putBit R.XLATE.LAST_FAULT_WRITE wr).putBit
    R.XLATE.LAST_FAULT_FETCH fetch).putBit R.XLATE.LAST_FAULT_ENGINE engine).bump R.XLATE.FAULTS_COUNT).pulse 0xB2 Ev.XLATE.FAULT
    |>.record 0xB2 E.XLATE_FAULT (func % 512 + (unit % 128) * 512) func va

/-- The pieces of `n` bytes from `va`, cut at 4 KiB boundaries. The fuel bounds their number. -/
def pagePieces : Nat → Nat → Nat → List (Nat × Nat)
  | 0, _, _ => []
  | f + 1, va, n =>
    if n = 0 then []
    else
      let k := min n (4096 - va % 4096)
      (va, k) :: pagePieces f (va + k) (n - k)

/-- The first address of a range that XLATE does not grant, if any. -/
def xfault (t : List XEnt) (func : Nat) (need : Need) : List (Nat × Nat) → Option Nat
  | [] => none
  | (va, _) :: ps =>
    match xfind t func va with
    | some e => if e.grants need va then xfault t func need ps else some va
    | none => some va

/-- The pieces of an engine access. -/
def piecesOf (va n : Nat) : List (Nat × Nat) := pagePieces (n / 4096 + 2) va n

/-- The first address of a range that reads a poisoned burst. -/
def State.xpoison (s : State) (func : Nat) (ps : List (Nat × Nat)) : Option Nat :=
  ps.findSome? fun p => (xfind s.xlate func p.1).bind fun e =>
    if e.tgt = .dram then
      let hits := s.mem.poison.filter fun b => decide (e.phys p.1 < 64 * b + 64) && decide (64 * b < e.phys p.1 + p.2)
      (hits.head?).map fun b => p.1 + (64 * b - e.phys p.1)
    else none

/-- An engine's read of `n` bytes under a tag: the bytes, or the address that faults or is poisoned (R16, R301, R536). -/
def State.xread (s : State) (func va n : Nat) : Except Nat Bytes :=
  match (xfault s.xlate func .r (piecesOf va n)).orElse fun _ => s.xpoison func (piecesOf va n) with
  | some a => .error a
  | none => .ok ((piecesOf va n).flatMap fun p =>
      match xfind s.xlate func p.1 with
      | some e => s.mem.read e.tgt (e.phys p.1) p.2
      | none => [])

/-- Write pieces of a byte string through XLATE; a piece without an entry is left out. -/
def xwriteAux (t : List XEnt) (func : Nat) : List (Nat × Nat) → Bytes → MemSt → MemSt
  | [], _, m => m
  | (va, n) :: ps, bs, m =>
    let m' := match xfind t func va with
      | some e => m.write e.tgt (e.phys va) (bs.take n)
      | none => m
    xwriteAux t func ps (bs.drop n) m'

/-- An engine's write under a tag: nothing is written where any byte faults (R301). -/
def State.xwrite (s : State) (func va : Nat) (bs : Bytes) : Except Nat State :=
  match xfault s.xlate func .w (piecesOf va bs.length) with
  | some a => .error a
  | none => .ok { s with mem := xwriteAux s.xlate func (piecesOf va bs.length) bs s.mem }

/-- The on-chip SRAM by block, in KiB (R20): Common, Crook cores, microcode stores, Earmark, Shears, media metadata cache, host queue and
function context store, key slots. No block borrows another's. -/
def sramKib : List Nat := [24 * 1024, 72 * (64 + 128 + 32), 9 * 64, 32 * 4096 * 16 / 1024, 12 * 384, 3 * 1024, 2 * 1024, 64]

/-! ### Functions -/

/-- Virtual address of byte 0 of a function's memory namespace (R497). -/
def slmVa : Nat := 0x10000000000

/-- An enabled function's record. -/
def State.fn (s : State) (func : Nat) : Option Fn := s.tenant.fns.find? (·.p.func == func)

/-- The function is being reset. -/
def State.isResetting (s : State) (func : Nat) : Bool := s.tenant.resetting.any (·.1 == func)

/-- The function tag is one of R486. -/
def funcValid (f : Nat) : Bool := f ≤ 0x101 || (0x1F0 ≤ f && f ≤ 0x1F2)

/-! ### Bits -/

/-- First common bit of the firmware's window, past the 4,194,304 grantable ones (log entry 20). -/
def systemBitBase : Nat := 4194304

/-- Size of the firmware's window (log entry 20). -/
def systemBits : Nat := 1048576

/-- The window of common bits of a tag: first bit and size (R309). -/
def State.bitWindow (s : State) (func : Nat) : Nat × Nat :=
  if 0x1F0 ≤ func then (systemBitBase, systemBits)
  else match s.fn func with
    | some f => (f.p.bitBase, f.p.bits)
    | none => (0, 0)

/-- Read bit `i` of a byte memory from byte `base` (R308). -/
def memBit (m : List (Nat × Byte)) (base i : Nat) : Bool := (memRead m (base + i / 8)).toNat.testBit (i % 8)

/-- Write bit `i` of a byte memory from byte `base` (R308). -/
def memSetBit (m : List (Nat × Byte)) (base i : Nat) (b : Bool) : List (Nat × Byte) :=
  memWrite m (base + i / 8) (BitVec.ofNat 8 (setBit (memRead m (base + i / 8)).toNat (i % 8) b))

/-- Byte address of the core-bit space in local memory (R295). -/
def coreBitBase : Nat := 0x1E000

/-- Where a 21-bit bit address lies for a tag: a core bit, a common bit, or nowhere (R308, R309). -/
inductive BitPlace where
  | core (n : Nat) | common (n : Nat) | none
deriving DecidableEq, Repr

/-- Resolve a bit address under a tag. -/
def State.bitPlace (s : State) (func addr : Nat) : BitPlace :=
  if 2 ^ 21 ≤ addr then .none
  else if bitAt addr 20 then
    let w := s.bitWindow func
    if addr % 2 ^ 20 < w.2 then .common (w.1 + addr % 2 ^ 20) else .none
  else if addr < 2 ^ 16 then .core addr else .none

/-- Read a common bit. -/
def State.commonBit (s : State) (n : Nat) : Bool := memBit s.mem.common 0 n

/-- Write a common bit. -/
def State.setCommonBit (s : State) (n : Nat) (b : Bool) : State :=
  { s with mem := { s.mem with common := memSetBit s.mem.common 0 n b } }

/-- Change core `c`, by its number; a number past 71 changes nothing. -/
def State.modCore (s : State) (c : Nat) (f : Core → Core) : State :=
  if h : c < 72 then { s with cores := s.cores.set c (f s.cores[c]) } else s

/-- An engine sets a done bit: address, tag whose window it names, core for a core bit (R324). -/
def State.setDone (s : State) (d : Option (Nat × Nat × Nat)) : State :=
  match d with
  | none => s
  | some (addr, func, core) =>
    match s.bitPlace func addr with
    | .common n => s.setCommonBit n true
    | .core n => s.modCore core fun c => { c with mem := memSetBit c.mem coreBitBase n true }
    | .none => s

end Sys2Proof.Machine
end

