-- ==== Sys2Proof/Machine/ModeBase.lean ====
section
/-!
DEFINITION. The mode and what moves it with activity (R545, R546, R552).
-/

namespace Sys2Proof.Machine

/-- MODE (R545). -/
def State.mode (s : State) : Nat := s.get R.PWR.MODE_MODE

/-- The array is offline (R283, R548). -/
def State.offline (s : State) : Bool := bitAt (s.get R.PWR.SAFE_CAUSE_CAUSE) 1

/-- Change power and boot state. -/
def State.setPwr (s : State) (f : PwrSt → PwrSt) : State := { s with pwr := f s.pwr }

/-- Enter a mode, with its accounting (R545, R552). -/
def State.setMode (s : State) (m : Nat) : State :=
  let o := s.mode
  if o = m then s
  else
    let t := s.setPwr fun p =>
      { p with acct := modAt (modAt p.acct o fun a => { a with ns := a.ns + (s.time - p.modeSince) }) m
                 fun a => { a with entries := sat32 (a.entries + 1) },
               modeSince := s.time, idleSince := if m = 3 then s.time else p.idleSince }
    (t.puts [(R.PWR.MODE_PREV, o), (R.PWR.MODE_MODE, m)]).pulse 2 Ev.PWR.MODE_CHANGE

/-- A host was active within the last 100 ms (R546). -/
def State.serving (s : State) : Bool :=
  match s.pwr.serveAt with | some t => decide (s.time < t + 100000000) | none => false

/-- IDLE, TAKE, SERVE and DUAL follow activity (R546). -/
def State.follow (s : State) : State :=
  if s.mode < 3 ∨ s.mode = 7 then s
  else
    let tk := s.get R.TAKE.TAKE_STATE_STATE != 0
    s.setMode (if tk && s.serving then 6 else if tk then 4 else if s.serving then 5 else 3)

/-- A host command has transferred data, a host job has run, or a program's core has retired an instruction (R546). -/
def State.hostActive (s : State) : State := (s.setPwr fun p => { p with serveAt := some s.time }).follow

end Sys2Proof.Machine
end

