-- ==== Sys2Proof/Machine/CrookBase.lean ====
section
/-!
DEFINITION. What the Crook instructions share: stacks with spill and fill (R303-R307), translation and the D-cache
(R295-R301), bits (R308-R310), traps (R315-R317), the monitor of user cores (R320, R321) and the running of one instruction.
-/

namespace Sys2Proof.Machine

/-- A trap: CAUSE, DETAIL, WRITE and FETCH (R315-R317). -/
structure Trap where
  /-- CAUSE -/
  cause : Nat
  /-- DETAIL -/
  detail : Nat
  /-- WRITE -/
  wr : Bool
  /-- FETCH -/
  fetch : Bool
deriving DecidableEq, Repr

/-- What an instruction works on: the rest of the state, its core, the cycles so far, and a trap of R369 whose stores stand. -/
structure Ctx where
  /-- the state -/
  s : State
  /-- the core's number -/
  c : Nat
  /-- the core -/
  k : Core
  /-- cycles so far -/
  cost : Nat
  /-- MC_LONG or MC_STACK -/
  late : Option Trap
  /-- a WAIT that has to sleep: bit address and limit (R325) -/
  hold : Option (Nat × Nat)
  /-- uncorrectable errors that microcode has met and suppressed (R363) -/
  eccs : Nat

/-- An instruction's effect: it traps before anything changes, or goes on. -/
abbrev Body := Ctx → Except Trap Ctx

/-- ILLEGAL (R337). -/
def trapIllegal : Trap := ⟨0x03, 0, false, false⟩
/-- PRIVILEGE. -/
def trapPrivilege : Trap := ⟨0x05, 0, false, false⟩
/-- ALIGN at an address (R299). -/
def trapAlign (a : Nat) (wr : Bool) : Trap := ⟨0x0A, a, wr, false⟩

/-- STATUS.SYS. -/
def Core.sys (k : Core) : Bool := k.status.getLsbD 0
/-- STATUS.TRAP. -/
def Core.inTrap (k : Core) : Bool := k.status.getLsbD 1
/-- STATUS with SYS and TRAP set as given. -/
def Core.withMode (k : Core) (sys trap : Bool) : Core :=
  { k with status := BitVec.ofNat 64 (setBit (setBit k.status.toNat 0 sys) 1 trap) }
/-- The tag under which a core's accesses go (R300, R309). -/
def Core.tag (k : Core) : Nat := if k.sys then 0x1F0 else k.func.toNat

/-- Add cycles. -/
def Ctx.spend (x : Ctx) (n : Nat) : Ctx := { x with cost := x.cost + n }

/-! ### Memory errors -/

/-- MEM_ECC (R317, R318). -/
def trapEcc : Trap := ⟨0x01, 0, false, false⟩

/-- Put a memory error into a core. -/
def Core.upset (k : Core) (p : CoreMem) (double : Bool) : Core := { k with upsets := k.upsets ++ [⟨p, double⟩] }

/-- Errors at a place are gone. -/
def Core.heal (k : Core) (p : CoreMem) : Core := { k with upsets := k.upsets.filter (·.place ≠ p) }

/-- An uncorrectable error stands at a place. -/
def Core.broken (k : Core) (p : CoreMem) : Bool := k.upsets.any fun u => u.double && u.place == p

/-- A correctable error that an access meets is corrected in place and counted (R318). -/
def Ctx.corrected (x : Ctx) : Ctx :=
  { x with s := x.s.pulse (0x100 + x.c) Ev.CORE.ECC_CORRECTED, k := { x.k with eccCorrected := sat32 (x.k.eccCorrected + 1) } }

/-- An access meets what stands at a place that holds no uncorrectable error. -/
def Ctx.meet (x : Ctx) (p : CoreMem) : Ctx :=
  if x.k.upsets.any (·.place == p) then { x.corrected with k := x.corrected.k.heal p } else x

/-- The places of the 64-bit words that hold bytes `a` to `a + n − 1` of local memory (R296). -/
def localPlaces (a n : Nat) : List CoreMem := (List.range ((a + n + 7) / 8 - a / 8)).map fun i => .word (a / 8 + i)

/-- An access reads local memory: an uncorrectable error traps MEM_ECC, a correctable one is corrected (R318). -/
def Ctx.readLocal (x : Ctx) (a n : Nat) : Except Trap Ctx :=
  if x.k.upsets = [] then .ok x
  else if (localPlaces a n).any x.k.broken then .error trapEcc
  else .ok ((localPlaces a n).foldl Ctx.meet x)

/-- An access writes local memory: a word it writes whole loses its error; one it writes in part is read first (R296; log entry
57). -/
def Ctx.writeLocal (x : Ctx) (a n : Nat) : Except Trap Ctx :=
  if x.k.upsets = [] then .ok x
  else if a % 8 = 0 ∧ n % 8 = 0 then .ok { x with k := (localPlaces a n).foldl Core.heal x.k }
  else x.readLocal a n

/-! ### Stacks -/

/-- Add to SPILLS, with the 8 cycles of a spill or a fill (R304). -/
def Ctx.moved (x : Ctx) : Ctx := { x with cost := x.cost + 8, k := { x.k with spills := sat32 (x.k.spills + 1) } }

/-- Fill one block of the data stack (R304). -/
def Ctx.fillD1 (x : Ctx) : Ctx :=
  let p := x.k.dsp.toNat - 64
  let es := (chunks 8 (memReadN x.k.mem p 64)).map fun b => BitVec.ofNat 64 (leNat b)
  { x.moved with k := { x.moved.k with ds := x.k.ds ++ es.reverse, dsp := BitVec.ofNat 17 p } }

/-- Fill the data stack until `n` entries are in hardware (R304, R305). The fuel bounds the blocks. -/
def Ctx.fillD : Nat → Nat → Ctx → Except Trap Ctx
  | 0, _, x => .ok x
  | f + 1, n, x =>
    if n ≤ x.k.ds.length then .ok x
    else if x.k.dsp.toNat ≤ x.k.dsl.toNat then .error ⟨0x06, 0, false, false⟩
    else match x.readLocal (x.k.dsp.toNat - 64) 64 with
      | .error t => .error t
      | .ok y => Ctx.fillD f n y.fillD1

/-- Spill the 8 deepest hardware entries of the data stack, the deepest at the lowest address (R304). -/
def Ctx.spillD1 (x : Ctx) : Ctx :=
  let n := x.k.ds.length - 8
  let p := x.k.dsp.toNat
  let bs := (x.k.ds.drop n).reverse.flatMap fun w => leBytes 8 w.toNat
  { x.moved with k := { (localPlaces p 64).foldl Core.heal x.moved.k with
    ds := x.k.ds.take n, dsp := BitVec.ofNat 17 (p + 64), mem := memWriteN x.k.mem p bs } }

/-- The extension of the high limits in a trap handler (R305). -/
def Core.guard (k : Core) (block : Nat) : Nat := if k.sys && k.inTrap then block else 0

/-- Make room for `m` entries after `n` leave (R304, R305). -/
def Ctx.roomD (x : Ctx) (n m : Nat) : Except Trap Ctx :=
  if x.k.ds.length - n + m ≤ 32 then .ok x
  else if x.k.dsh.toNat + x.k.guard 64 < x.k.dsp.toNat + 64 then .error ⟨0x08, 0, false, false⟩
  else .ok x.spillD1

/-- `n` inputs present and room for `m` outputs on the data stack (R338). -/
def Ctx.needD (x : Ctx) (n m : Nat) : Except Trap Ctx :=
  match Ctx.fillD 5 n x with
  | .error t => .error t
  | .ok y => y.roomD n m

/-- Fill one block of the return stack (R304, R306). -/
def Ctx.fillR1 (x : Ctx) : Ctx :=
  let p := x.k.rsp.toNat - 72
  let es := (chunks 8 (memReadN x.k.mem p 64)).map fun b => BitVec.ofNat 64 (leNat b)
  let tags := leNat (memReadN x.k.mem (p + 64) 8)
  let ts := es.zipIdx.map fun e => (e.1, bitAt tags e.2)
  { x.moved with k := { x.moved.k with rs := x.k.rs ++ ts.reverse, rsp := BitVec.ofNat 17 p } }

/-- Fill the return stack until `n` entries are in hardware. -/
def Ctx.fillR : Nat → Nat → Ctx → Except Trap Ctx
  | 0, _, x => .ok x
  | f + 1, n, x =>
    if n ≤ x.k.rs.length then .ok x
    else if x.k.rsp.toNat ≤ x.k.rsl.toNat then .error ⟨0x07, 0, false, false⟩
    else match x.readLocal (x.k.rsp.toNat - 72) 72 with
      | .error t => .error t
      | .ok y => Ctx.fillR f n y.fillR1

/-- Spill the 8 deepest hardware entries of the return stack with their tag word (R304, R306). -/
def Ctx.spillR1 (x : Ctx) : Ctx :=
  let n := x.k.rs.length - 8
  let p := x.k.rsp.toNat
  let es := (x.k.rs.drop n).reverse
  let tags := es.zipIdx.foldl (fun v e => v + b2n e.1.2 * 2 ^ e.2) 0
  let bs := (es.flatMap fun e => leBytes 8 e.1.toNat) ++ leBytes 8 tags
  { x.moved with k := { (localPlaces p 72).foldl Core.heal x.moved.k with
    rs := x.k.rs.take n, rsp := BitVec.ofNat 17 (p + 72), mem := memWriteN x.k.mem p bs } }

/-- `n` inputs present and room for `m` outputs on the return stack. -/
def Ctx.needR (x : Ctx) (n m : Nat) : Except Trap Ctx :=
  match Ctx.fillR 5 n x with
  | .error t => .error t
  | .ok y =>
    if y.k.rs.length - n + m ≤ 32 then .ok y
    else if y.k.rsh.toNat + y.k.guard 72 < y.k.rsp.toNat + 72 then .error ⟨0x09, 0, false, false⟩
    else .ok y.spillR1

/-- Data entry `i` from the top. -/
def Ctx.top (x : Ctx) (i : Nat) : Word := x.k.ds.getD i 0

/-- The top `n` data entries give way to `out`, top first. -/
def Ctx.rep (x : Ctx) (n : Nat) (out : List Word) : Ctx := { x with k := { x.k with ds := out ++ x.k.ds.drop n } }

/-- The top `n` return entries give way to `out`, top first. -/
def Ctx.repR (x : Ctx) (n : Nat) (out : List (Word × Bool)) : Ctx := { x with k := { x.k with rs := out ++ x.k.rs.drop n } }

/-- The top return entry. -/
def Ctx.topR (x : Ctx) : Word × Bool := x.k.rs.getD 0 (0, false)

/-- An instruction that replaces `n` data entries with `m`, computed from the stack with all inputs present. -/
def Ctx.operate (x : Ctx) (n m : Nat) (f : Ctx → List Word) : Except Trap Ctx :=
  match x.needD n m with
  | .error t => .error t
  | .ok y => .ok (y.rep n (f y))

/-- Continue at an address; an odd one traps ALIGN (R299) and one with a bit of [63:48] set traps ADDR_RANGE (R295). -/
def Ctx.goto (x : Ctx) (a : Nat) : Except Trap Ctx :=
  if a % 2 = 1 then .error (trapAlign (a % 2 ^ 48) false)
  else if 2 ^ 48 ≤ a then .error ⟨0x0B, a % 2 ^ 48, false, false⟩
  else .ok { x with k := { x.k with pc := BitVec.ofNat 48 a } }

/-- The constraints of R303. -/
def stacksOk (dsl dsp dsh rsl rsp rsh : Nat) : Bool :=
  decide (dsl ≤ dsp) && decide (dsp ≤ dsh) && decide (dsh + 64 ≤ 0x1E000) && dsl % 8 == 0 && dsh % 8 == 0
    && (dsh - dsl) % 64 == 0 && (dsp - dsl) % 64 == 0
    && decide (rsl ≤ rsp) && decide (rsp ≤ rsh) && decide (rsh + 72 ≤ 0x1E000) && rsl % 8 == 0 && rsh % 8 == 0
    && (rsh - rsl) % 72 == 0 && (rsp - rsl) % 72 == 0
    && (decide (dsh + 64 ≤ rsl) || decide (rsh + 72 ≤ dsl))

/-- The stack limits R330 lays out: DSL, DSH, RSL, RSH. -/
def stackLayout (dsBytes rsBytes : Nat) : Nat × Nat × Nat × Nat :=
  let rsh := 0x1E000 - 72
  let rsl := rsh - rsBytes
  let dsh := rsl - 64
  (dsh - dsBytes, dsh, rsl, rsh)

/-- A core's stack registers as R330 lays them out, both stacks empty in memory. -/
def Core.layStacks (k : Core) (dsBytes rsBytes : Nat) : Core :=
  let lay := stackLayout dsBytes rsBytes
  { k with dsl := BitVec.ofNat 17 lay.1, dsh := BitVec.ofNat 17 lay.2.1, rsl := BitVec.ofNat 17 lay.2.2.1,
           rsh := BitVec.ofNat 17 lay.2.2.2, dsp := BitVec.ofNat 17 lay.1, rsp := BitVec.ofNat 17 lay.2.2.1 }

/-! ### Memory -/

/-- Write a D-cache line back. -/
def writeLine (m : MemSt) (l : DLine) : MemSt := if l.dirty then m.write l.tgt (l.line * 64) l.data else m

/-- The micro-TLB's entry for an address holds an uncorrectable error (R318). -/
def Ctx.tlbBroken (x : Ctx) (va : Nat) : Bool :=
  match x.k.utlb.find? (·.covers x.k.tag va) with
  | some e => x.k.broken (.utlb e.func e.va)
  | none => false

/-- The core's translation of an address: its micro-TLB, refilled from XLATE on a miss (R300). -/
def Ctx.lookup (x : Ctx) (va : Nat) : Option (XEnt × Ctx) :=
  match x.k.utlb.find? (·.covers x.k.tag va) with
  | some e => some (e, x)
  | none =>
    match xfind x.s.xlate x.k.tag va with
    | none => none
    | some e =>
      let l := if x.k.utlb.length < 32 then x.k.utlb else x.k.utlb.drop 1
      some (e, { x with cost := x.cost + 140, k := { x.k with utlb := l ++ [e] } })

/-- Where an access lands: local memory, or a target's address (R295-R301, R318). -/
def Ctx.locate (x : Ctx) (a n : Nat) (need : Need) (wr : Bool) : Except Trap (Ctx × Option (Target × Nat)) :=
  if a % n ≠ 0 then .error (trapAlign (a % 2 ^ 48) wr)
  else if 2 ^ 48 ≤ a ∨ (0x20000 ≤ a ∧ a < 2 ^ 32) then .error ⟨0x0B, a % 2 ^ 48, wr, false⟩
  else if a < 0x20000 then .ok (x, none)
  else if x.tlbBroken a then .error trapEcc
  else match x.lookup a with
    | none => .error ⟨0x0D, a, wr, false⟩
    | some (e, y) => if e.grants need a then .ok (y, some (e.tgt, e.phys a)) else .error ⟨0x0D, a, wr, false⟩

/-- The line of a target's address in a cache. -/
def lineIn (l : List DLine) (t : Target) (pa : Nat) : Option DLine := l.find? fun l => l.tgt == t && l.line == pa / 64

/-- A cache without a target's line. -/
def withoutLine (l : List DLine) (t : Target) (pa : Nat) : List DLine := l.filter fun l => !(l.tgt == t && l.line == pa / 64)

/-- The line of a target's address in the D-cache. -/
def Core.line (k : Core) (t : Target) (pa : Nat) : Option DLine := lineIn k.dcache t pa

/-- Cycles of a line fill: R299's table gives DRAM and Common; for host memory the cycles are a free value. -/
def Ctx.fillCost (x : Ctx) (t : Target) : Ctx :=
  match t with
  | .dram => x.spend 220
  | .common => x.spend 40
  | _ =>
    let f := x.s.fresh
    { x with s := f.2, cost := x.cost + f.1 }

/-- An access meets its D-cache line: a clean line with an uncorrectable error is dropped, a dirty one traps MEM_ECC (R318). -/
def Ctx.meetLine (x : Ctx) (t : Target) (pa : Nat) : Except Trap Ctx :=
  match x.k.line t pa with
  | none => .ok x
  | some l =>
    let p := CoreMem.dline t (pa / 64)
    if !x.k.broken p then .ok (x.meet p)
    else if l.dirty then .error trapEcc
    else .ok { x with k := { x.k.heal p with dcache := withoutLine x.k.dcache t pa } }

/-- Bring a line into the D-cache, the oldest of 512 giving way (R297; log entry 21). -/
def Ctx.fillLine (x : Ctx) (t : Target) (pa : Nat) : Except Trap Ctx :=
  match x.k.line t pa with
  | some _ => .ok (x.spend 3)
  | none =>
    let old := if x.k.dcache.length < 512 then [] else x.k.dcache.take 1
    if old.any fun l => l.dirty && x.k.broken (.dline l.tgt l.line) then .error trapEcc
    else
      let m := old.foldl writeLine x.s.mem
      let l : DLine := ⟨t, pa / 64, m.read t (pa / 64 * 64) 64, false⟩
      .ok (Ctx.fillCost { x with s := { x.s with mem := m }, k := { x.k with dcache := x.k.dcache.drop old.length ++ [l] } } t)

/-- The D-cache line of an access, present and whole: a poisoned burst of DRAM traps MEM_ECC (R318, R536). -/
def Ctx.useLine (x : Ctx) (t : Target) (pa : Nat) (wr : Bool) : Except Trap Ctx :=
  if !wr && (x.k.line t pa).isNone && x.s.mem.poisoned t (pa / 64 * 64) 64 then .error trapEcc
  else match x.meetLine t pa with
    | .error e => .error e
    | .ok y => y.fillLine t pa

/-- An error that an access's own ECC outcome reports stands at a place. -/
def Ctx.struck (x : Ctx) (p : CoreMem) (e : Ecc) : Ctx :=
  match e with
  | .none => x
  | .corrected => { x with k := x.k.upset p false }
  | .uncorrectable => { x with k := x.k.upset p true }

/-- Load `n` bytes at `a`, naturally aligned (R299, R301). -/
def Ctx.load (x : Ctx) (a n : Nat) (e : Ecc) : Except Trap (Ctx × Nat) :=
  match x.locate a n .r false with
  | .error t => .error t
  | .ok (y, none) =>
    match (y.struck (.word (a / 8)) e).readLocal a n with
    | .error t => .error t
    | .ok z => .ok (z.spend 1, leNat (memReadN z.k.mem a n))
  | .ok (y, some (.common, pa)) => .ok (y.spend 40, leNat (y.s.mem.read .common pa n))
  | .ok (y, some (t, pa)) =>
    match (if (y.k.line t pa).isSome then y.struck (.dline t (pa / 64)) e else y).useLine t pa false with
    | .error e => .error e
    | .ok z => .ok (z, leNat (sliceBytes (((z.k.line t pa).map (·.data)).getD []) (pa % 64) n))

/-- Store the low `n` bytes of `v` at `a` (R299, R301, R307). -/
def Ctx.store (x : Ctx) (a n v : Nat) : Except Trap Ctx :=
  match x.locate a n .w true with
  | .error t => .error t
  | .ok (y, none) =>
    match y.writeLocal a n with
    | .error t => .error t
    | .ok z =>
      if y.k.rsl.toNat < a + n ∧ a < y.k.rsh.toNat + 72 then .error ⟨0x0E, a, true, false⟩
      else .ok { z.spend 1 with k := { z.k with mem := memWriteN y.k.mem a (leBytes n v) } }
  | .ok (y, some (.common, pa)) =>
    .ok { y.spend 2 with s := { y.s with mem := y.s.mem.write .common pa (leBytes n v) } }
  | .ok (y, some (t, pa)) =>
    match y.useLine t pa true with
    | .error e => .error e
    | .ok z =>
      let z := if (y.k.line t pa).isSome && !y.k.broken (.dline t (pa / 64)) then { z with cost := y.cost + 1 } else z
      .ok { z with k := { z.k with dcache := z.k.dcache.map fun l =>
        if l.tgt == t && l.line == pa / 64 then { l with data := overlay l.data (pa % 64) (leBytes n v), dirty := true } else l } }

/-- The number of dirty lines. -/
def Core.dirtyLines (k : Core) : Nat := (k.dcache.filter (·.dirty)).length

/-- Every dirty line is written back and stays valid (R356); one with an uncorrectable error traps MEM_ECC (R318). -/
def Ctx.writeBack (x : Ctx) : Except Trap Ctx :=
  let dirty := (x.k.dcache.filter (·.dirty)).map fun l => CoreMem.dline l.tgt l.line
  if dirty.any x.k.broken then .error trapEcc
  else
    let y := if x.k.upsets = [] then x else dirty.foldl Ctx.meet x
    .ok { y with s := { y.s with mem := x.k.dcache.foldl writeLine x.s.mem },
                 k := { y.k with dcache := x.k.dcache.map fun l => { l with dirty := false } } }

/-! ### Bits -/

/-- Resolve a bit address of an operand (R308, R309, R351). -/
def Ctx.bitAddr (x : Ctx) (a : Nat) : Except Trap BitPlace :=
  match x.s.bitPlace x.k.tag a with
  | .none => .error ⟨0x0C, a % 2 ^ 48, false, false⟩
  | p => .ok p

/-- Read a bit. -/
def Ctx.getBit (x : Ctx) : BitPlace → Bool
  | .core n => memBit x.k.mem coreBitBase n
  | .common n => x.s.commonBit n
  | .none => false

/-- Write a bit. -/
def Ctx.putBit (x : Ctx) (p : BitPlace) (b : Bool) : Ctx :=
  match p with
  | .core n => { x with k := { x.k with mem := memSetBit x.k.mem coreBitBase n b } }
  | .common n => { x with s := x.s.setCommonBit n b }
  | .none => x

/-- A bit operation reads the word of a core bit (R296, R308). -/
def Ctx.meetBit (x : Ctx) : BitPlace → Except Trap Ctx
  | .core n => x.readLocal (coreBitBase + n / 8) 1
  | _ => .ok x

/-- Cycles of a bit operation: core bit or common bit. -/
def BitPlace.cycles (p : BitPlace) (core common : Nat) : Nat :=
  match p with
  | .common _ => common
  | _ => core

/-! ### Traps -/

/-- TRAPCAUSE (R316). -/
def Trap.pack (t : Trap) (prevSys : Bool) : Nat :=
  t.cause % 256 + b2n prevSys * 2 ^ 8 + b2n t.wr * 2 ^ 9 + b2n t.fetch * 2 ^ 10 + (t.detail % 2 ^ 48) * 2 ^ 16

/-- Set a core. -/
def State.setCore (s : State) (c : Fin 72) (k : Core) : State := { s with cores := s.cores.set c k }

/-- ERR_INFO of a CROOK condition (R335). -/
def crookInfo (cause func : Nat) : Nat := cause % 256 + (func % 512) * 256

/-- The faulting address that a TRAPCAUSE holds, for EXT of the error ring (R316, R604): for ADDR_RANGE, ALIGN, XLATE_FAULT and
RS_PROTECT, else 0. -/
def faultAddr (cause : Nat) : Nat := if [0x02, 0x0A, 0x0B, 0x0D, 0x0E].contains (cause % 256) then cause / 2 ^ 16 else 0

/-- The page of a core. -/
def corePage (c : Nat) : Nat := 0x100 + c

/-- The program of a core ends with a result, or stops: `rank` says how many of its cores had ended before (R320, R477). -/
def State.endProg (s : State) (p : ProgRun) (r : Option Word) : ProgRun :=
  let n := (s.cores.toList.filter fun k => match k.prog with | some q => q.cmd == p.cmd && q.ended.isSome | none => false).length
  { p with ended := some r, rank := n }

/-- A core's program stops: the record of CROOK_PROGRAM_STOPPED, the end of its host command owed, the core STOPPED (R320). -/
def State.stopProgram (s : State) (c : Fin 72) (k : Core) (pc : BitVec 48) : State :=
  let t := s.setCore c { k with state := .stopped, pcSnap := pc, since := s.time,
                                prog := k.prog.map fun p => s.endProg p none }
  (t.pulse (corePage c) Ev.CORE.STOPPED).record (corePage c) E.CROOK_PROGRAM_STOPPED
    (crookInfo (k.lastCause.toNat % 256) k.func.toNat) k.func.toNat (faultAddr k.lastCause.toNat)

/-- Causes that the monitor delivers to a HANDLER (R320). -/
def delivered (cause detail : Nat) : Bool :=
  [0x10, 0x0A, 0x0B, 0x0C, 0x02, 0x0D, 0x03, 0x04, 0x11, 0x12].contains cause || (cause == 0x13 && decide (0x10 ≤ detail))

/-- What the monitor does with a trap of a program on a user core: `k0` the core as the program left it, `k` after trap entry
(R320, R321; log entry 22). A HANDLER that no core may go to traps in its turn (R295, R299), with the delivered trap in progress: the
program stops (log entry 56). -/
def State.monitor (s : State) (c : Fin 72) (k0 k : Core) (p : ProgRun) (t : Trap) : State :=
  let user := { k with status := k0.status, trappc := k.trappc }
  if delivered t.cause t.detail ∧ p.handler ≠ 0 ∧ ¬ p.delivered then
    match Ctx.needD ⟨s, c, { k0 with cycle := k.cycle }, 0, none, none, 0⟩ 0 2 with
    | .error _ => s.stopProgram c k k0.pc
    | .ok x =>
      let y := x.rep 0 [k.trapcause, BitVec.ofNat 64 k.trappc.toNat]
      match y.goto p.handler with
      | .error e => s.stopProgram c { k with lastCause := BitVec.ofNat 64 (e.pack false), traps := sat32 (k.traps + 1) } k0.pc
      | .ok z =>
        s.setCore c { user with ds := y.k.ds, dsp := y.k.dsp, mem := y.k.mem, spills := y.k.spills,
                                cycle := k.cycle + BitVec.ofNat 64 x.cost, pc := z.k.pc,
                                prog := some { p with delivered := true } }
  else if t.cause = 0x13 ∧ t.detail = 0 then
    match Ctx.needD ⟨s, c, k0, 0, none, none, 0⟩ 1 1 with
    | .error _ =>
      let f := s.fresh
      (f.2.setCore c { k with state := .stopped, pcSnap := k0.pc, since := s.time,
                              prog := some (s.endProg p (some (BitVec.ofNat 64 f.1))) }).pulse (corePage c) Ev.CORE.STOPPED
    | .ok x =>
      (s.setCore c { k with state := .stopped, pcSnap := k0.pc, since := s.time,
                            prog := some (s.endProg p (some (x.top 0))) }).pulse (corePage c) Ev.CORE.STOPPED
  else if t.cause = 0x13 ∧ t.detail = 1 then
    match Ctx.needD ⟨s, c, k0, 0, none, none, 0⟩ 1 0 with
    | .error _ => s.stopProgram c k k0.pc
    | .ok x =>
      match x.goto (x.top 0).toNat with
      | .error _ => s.stopProgram c k k0.pc
      | .ok y =>
        let z := y.rep 1 []
        s.setCore c { user with ds := z.k.ds, dsp := z.k.dsp, spills := z.k.spills, pc := y.k.pc,
                                cycle := k.cycle + BitVec.ofNat 64 x.cost, prog := some { p with delivered := false } }
  else s.stopProgram c k k0.pc

/-- A core takes a trap at `pc` (R315, R316), and on a user core that runs a program in user state the monitor acts on it. The program of
a core that halts has stopped there: HALTED has no way back to it (R316, R477; log entry 22). -/
def State.trapCore (s : State) (c : Fin 72) (k : Core) (t : Trap) (trappc : BitVec 48) : State :=
  let cause := BitVec.ofNat 64 (t.pack k.sys)
  let s := if t.cause = 0x02 ∨ t.cause = 0x0D then s.xlateFault k.tag t.detail c t.wr t.fetch false else s
  let k1 := { k with lastCause := cause, lastTrapPc := trappc, traps := sat32 (k.traps + 1) }
  if k.inTrap then
    ((s.setCore c { k1 with state := .halted, pcSnap := k.pc, since := s.time,
                            prog := k.prog.map fun p => if p.ended.isSome then p else s.endProg p none }).pulse (corePage c) Ev.CORE.HALTED).record
      (corePage c) E.CROOK_DOUBLE_TRAP (crookInfo t.cause k.func.toNat) k.func.toNat (faultAddr cause.toNat)
  else
    let k2 := { k1.withMode true true with trappc := trappc, trapcause := cause, pc := k.trapvec, cycle := k.cycle + 6 }
    match k.prog with
    | some p => if c.val < 8 ∨ k.sys ∨ p.ended.isSome then s.setCore c k2 else s.monitor c k k2 p t
    | none => s.setCore c k2

/-! ### Running an instruction -/

/-- The I-cache line of a fetch: one with an uncorrectable error is dropped and fetched again without a trap, a missing one is filled,
the oldest of 1,024 giving way (R20, R297, R318; log entry 21). -/
def Ctx.fetchLine (x : Ctx) (t : Target) (pa : Nat) : Except Trap Ctx :=
  let p := CoreMem.iline t (pa / 64)
  let x := if x.k.broken p then { x with k := { x.k.heal p with icache := withoutLine x.k.icache t pa } } else x.meet p
  if (lineIn x.k.icache t pa).isSome then .ok x
  else if x.s.mem.poisoned t (pa / 64 * 64) 64 then .error { trapEcc with fetch := true }
  else
    let l := if x.k.icache.length < 1024 then x.k.icache else x.k.icache.drop 1
    .ok (Ctx.fillCost { x with k := { x.k with icache := l ++ [⟨t, pa / 64, x.s.mem.read t (pa / 64 * 64) 64, false⟩] } } t)

/-- The fetch of one parcel (R297, R336): it lies in translated space with X. -/
def Ctx.fetch1 (x : Ctx) (a : Nat) : Except Trap Ctx :=
  if 0x20000 ≤ a ∧ a < 2 ^ 32 then .error ⟨0x0B, a, false, true⟩
  else if a < 0x20000 then .error ⟨0x02, a, false, true⟩
  else if x.tlbBroken a then .error { trapEcc with fetch := true }
  else match x.lookup a with
    | none => .error ⟨0x02, a, false, true⟩
    | some (e, y) => if e.grants .x a then y.fetchLine e.tgt (e.phys a) else .error ⟨0x02, a, false, true⟩

/-- The fetch of every parcel from `a` (R336). -/
def Ctx.fetch : Nat → Nat → Ctx → Except Trap Ctx
  | 0, _, x => .ok x
  | n + 1, a, x =>
    match x.fetch1 a with
    | .error t => .error t
    | .ok y => Ctx.fetch n ((a + 2) % 2 ^ 48) y

/-- The parcel at an address that has been fetched: its bytes in the I-cache. -/
def Ctx.parcel (x : Ctx) (a : Nat) : BitVec 16 :=
  match x.lookup a with
  | some (e, _) => BitVec.ofNat 16 (leNat (sliceBytes (((lineIn x.k.icache e.tgt (e.phys a)).map (·.data)).getD []) (e.phys a % 64) 2))
  | none => 0

/-- An instruction that worked on `y` retires on core `c`: its cycles count, and it is activity of its program (R339, R546). -/
def Ctx.retire (y : Ctx) (c : Fin 72) : State :=
  let t := y.s.setCore c { y.k with cycle := y.k.cycle + BitVec.ofNat 64 y.cost, insns := y.k.insns + 1 }
  if y.k.prog.isSome then t.hostActive else t

end Sys2Proof.Machine
end

