-- ==== Sys2Proof/Machine/CrookOps.lean ====
section
/-!
DEFINITION. Parking, resuming and retiring cores (R326, R319, R495), and handing jobs to the engines (R322-R324).
-/

namespace Sys2Proof.Machine

/-- CORE cycles between two moments: CORE runs at 2.4 GHz. -/
def coreCycles (from_ to_ : Nat) : BitVec 64 := BitVec.ofNat 64 ((to_ - from_) * 24 / 10)

/-- The fields of SUBMIT's control word that R323 reserves. -/
def submitReserved (cw : Nat) : Bool :=
  decide (5 ≤ bits cw 0 4) || bits cw 36 28 != 0 || (bitAt cw 35 && !funcValid (bits cw 26 9))

/-- The instruction at a core's PC writes lines back before anything else shows: FENCE with WB or INV, or a SUBMIT that is going to queue
(R323, R326, R356). -/
def Ctx.writesBack (x : Ctx) : Bool :=
  match Ctx.fetch 1 x.k.pc.toNat x with
  | .error _ => false
  | .ok y =>
    let p := (y.parcel x.k.pc.toNat).toNat
    (p / 16 == 0xFA1 && p % 4 != 0) || (p == 0xFA04 && match y.needD 2 1 with
      | .error _ => false
      | .ok z =>
        let cw := (z.top 0).toNat
        !submitReserved cw && (z.k.sys || (bits cw 0 4 != 4 && !bitAt cw 35)))

/-- A park request may fall inside the write-back of a FENCE or a SUBMIT, which then ends early at a cache line: how many lines it has
written back by then is free. They stay written back, and the instruction is executed again from its start (R326; log entry 58). -/
def State.caught (s : State) (c : Fin 72) : State :=
  let k := s.cores[c]
  if k.upsets ≠ [] ∨ k.dirtyLines = 0 ∨ Ctx.writesBack ⟨s, c, k, 0, none, none, 0⟩ = false then s
  else
    let f := s.fresh
    let n := f.1 % (k.dirtyLines + 1)
    let done := (k.dcache.filter (·.dirty)).take n
    { f.2 with mem := done.foldl writeLine f.2.mem }.setCore c
      { k with dcache := k.dcache.map fun l => if done.contains l then { l with dirty := false } else l }

/-- A park request takes effect at the present instruction boundary; a WAIT ends and will run again (R325, R326). -/
def State.parkCore (s : State) (c : Fin 72) (p : Parker) : State :=
  let s := if (s.cores[c]).state = .running then s.caught c else s
  let k := s.cores[c]
  let add := { k with parkers := if k.parkers.contains p then k.parkers else p :: k.parkers }
  match k.state with
  | .running => (s.setCore c { add with state := .parked, pcSnap := k.pc, since := s.time }).pulse (corePage c) Ev.CORE.PARKED
  | .waiting => (s.setCore c { add with state := .parked, pcSnap := k.pc, wait := none }).pulse (corePage c) Ev.CORE.PARKED
  | .parked => s.setCore c add
  | .off => s
  | .stopped => s
  | .halted => s
  | .retired => s

/-- Change a core by what is not its own instruction; STOPPED rises where the change brings it there (R334). -/
def State.turnCore (s : State) (c : Nat) (f : Core → Core) : State :=
  let is := fun (t : State) => match t.cores.toList[c]? with | some k => k.state == .stopped | none => false
  let t := s.modCore c f
  if is t && !is s then t.pulse (corePage c) Ev.CORE.STOPPED else t

/-- A park request ends; the core resumes once none is left (R326). A user core without a program waits for one. -/
def State.resumeCore (s : State) (c : Fin 72) (p : Parker) : State :=
  let k := s.cores[c]
  let left := k.parkers.filter (· ≠ p)
  if k.state = .parked ∧ left = [] ∧ 8 ≤ c.val ∧ k.prog = none then s.turnCore c fun _ => { k with parkers := [], state := .stopped }
  else if k.state = .parked ∧ left = [] then
    s.setCore c { k with parkers := [], state := .running, cycle := k.cycle + coreCycles k.since s.time }
  else s.setCore c { k with parkers := left }

/-- The function that holds a user core (R293). -/
def State.coreOwner (s : State) (c : Nat) : Option Fn := s.tenant.fns.find? fun f => decide (8 ≤ c) && bitAt f.p.cores (c - 8)

/-- A resource's page leaves a function's windows (R495). -/
def Fn.unmap (f : Fn) (page : Nat) : Fn :=
  { f with p := { f.p with windows := f.p.windows.map fun w => if w = some page then none else w } }

/-- Change a function's record. -/
def State.modFn (s : State) (func : Nat) (g : Fn → Fn) : State :=
  { s with tenant := { s.tenant with fns := s.tenant.fns.map fun f => if f.p.func == func then g f else f } }

/-- A retired user core is withdrawn from its function (R495). -/
def State.withdrawCore (s : State) (c : Nat) : State :=
  match s.coreOwner c with
  | none => s
  | some f =>
    let t := s.modFn f.p.func fun g =>
      Fn.unmap { g with p := { g.p with cores := setBit g.p.cores (c - 8) false } } (corePage c)
    let vf := 0x1000 + f.p.func
    let t := t.put (R.VF.WITHDRAWN_CORES_MASK (f.p.func)) (setBit (t.get (R.VF.WITHDRAWN_CORES_MASK (f.p.func))) (c - 8) true)
    ((t.pulse vf Ev.VF.CORE_WITHDRAWN).pulse 0xB1 Ev.TENANT.WITHDRAWN).record 0xB1 E.TENANT_CORE_WITHDRAWN
      (f.p.func % 512 + (c % 128) * 512) f.p.func

/-- A core is retired until cold reset (R319, R334); the program it runs ends, and a user core leaves its function,
so that its FUNC reads 0x1F0 (R293). -/
def State.retireCore (s : State) (c : Fin 72) : State :=
  let k := s.cores[c]
  let t := s.setCore c { k with state := .retired, func := 0x1F0, pcSnap := k.pc, wait := none, parkers := [],
                                prog := k.prog.map fun p => if p.ended.isSome then p else s.endProg p none }
  let t := (t.putBit (H.RETIRED (corePage c)) true).pulse (corePage c) Ev.CORE.RETIRED
  (t.record (corePage c) E.CROOK_CORE_RETIRED (crookInfo (k.lastCause.toNat % 256) k.func.toNat) k.func.toNat
    (faultAddr k.lastCause.toNat)).withdrawCore c

/-- System cores that are live: not OFF, HALTED or RETIRED. -/
def State.liveSystemCores (s : State) : Nat :=
  ((List.range 8).filter fun c => match s.cores.toList[c]? with
    | some k => k.state != .retired && k.state != .off && k.state != .halted
    | none => false).length

/-! ### Jobs -/

/-- The waiting jobs of one queue. -/
def State.queued (s : State) (src : JobSrc) (engine : Nat) : List Job :=
  s.jobs.queue.filter fun j => j.src == src && j.engine == engine

/-- The front job of one queue (R322). -/
def State.frontJob (s : State) (src : JobSrc) (engine : Nat) : Option Job := (s.queued src engine).head?

/-- A job leaves its queue. -/
def State.takeJob (s : State) (id : Nat) : State := s.setJobs fun j => { j with queue := j.queue.filter (·.id != id) }

/-- Queue a job. -/
def State.submitJob (s : State) (src : JobSrc) (engine func : Nat) (desc : Bytes) (done : Option (Nat × Nat × Nat))
    (cmd : Option CmdKey) : State :=
  s.setJobs fun j => { j with queue := j.queue ++ [⟨j.next, src, engine, func, desc, done, cmd⟩], next := j.next + 1 }

/-- A Shears lane is live: enabled and not retired (R182). -/
def State.laneLive (s : State) (l : Nat) : Bool :=
  s.get (R.LANE.LANE_STATUS_RETIRED l) == 0 && s.get (H.ENABLE (0x18 + l)) == 1

/-- An engine class has a live unit (R323). -/
def State.engineLive (s : State) (e : Nat) : Bool :=
  if e = 0 then (List.range 12).any s.laneLive
  else if e = 1 then s.get R.EARMARK.BANKS_RETIRED_MASK != 2 ^ 32 - 1
  else if e = 2 then s.get R.DIGEST.UNITS_LIVE_MASK != 0
  else if e = 3 then s.get R.CIPHER.PIPES_LIVE != 0
  else true

end Sys2Proof.Machine
end

