-- ==== Sys2Proof/Machine/Deflate.lean ====
section
/-!
DEFINITION. The DEFLATE compressor of a Shears lane (R161-R164), its wrappers (R178) and the inflater (R165).
-/

namespace Sys2Proof.Machine

/-- One token of a compressed block. -/
inductive Tok where
  /-- a literal byte -/
  | lit (b : Nat)
  /-- a match of a length at a distance -/
  | mtch (len dist : Nat)
deriving DecidableEq, Repr

/-- The hash of three bytes (R162). -/
def hash3 (b0 b1 b2 : Nat) : Nat := ((b0 * 1024) ^^^ (b1 * 32) ^^^ b2) % 32768

/-- The chain depth of an effort level (R163). -/
def effortDepth (e : Nat) : Nat := [0, 1, 2, 4, 4, 16, 32, 128, 512, 4096].getD e 0

/-- Whether an effort level matches lazily (R163). -/
def effortLazy (e : Nat) : Bool := decide (4 ≤ e)

/-- The length of the match of positions `p` and `q` (`q` earlier), at most `n` bytes. -/
def matchLen (a : Array Nat) (p q : Nat) : Nat → Nat
  | 0 => 0
  | n + 1 => if a.getD p 0 == a.getD q 1 then 1 + matchLen a (p + 1) (q + 1) n else 0

/-- The best match over candidate positions, most recent first (R162): the longest, the nearest of equals. -/
def bestMatch (a : Array Nat) (p room : Nat) : List Nat → Nat × Nat → Nat × Nat
  | [], best => best
  | q :: qs, best =>
    if p - q > 32768 then best
    else
      let l := matchLen a p q (min 258 room)
      bestMatch a p room qs (if best.1 < l then (l, p - q) else best)

/-- The state of the matcher: the hash chains, as positions by hash, most recent first. -/
abbrev Chains := Array (List Nat)

/-- Enter positions `p .. p+n-1` of the input, those with three bytes left in their block `fin` (R162). -/
def enterPos (a : Array Nat) (fin : Nat) : Nat → Nat → Chains → Chains
  | 0, _, c => c
  | n + 1, p, c =>
    enterPos a fin n (p + 1)
      (if p + 3 ≤ fin then c.modify (hash3 (a.getD p 0) (a.getD (p + 1) 0) (a.getD (p + 2) 0)) (p :: ·) else c)

/-- The match at position `p` (length 0 where there is none), with the chains before `p` entered. -/
def findMatch (a : Array Nat) (depth fin p : Nat) (c : Chains) : Nat × Nat :=
  if p + 3 ≤ fin then
    let cs := (c.getD (hash3 (a.getD p 0) (a.getD (p + 1) 0) (a.getD (p + 2) 0)) []).take depth
    let m := bestMatch a p (fin - p) cs (0, 0)
    if m.1 < 3 then (0, 0) else m
  else (0, 0)

/-- The tokens of one input block, from position `p` to `fin`; `held` is the match held under lazy matching (R162). -/
def tokenise (a : Array Nat) (depth : Nat) (lazy : Bool) (fin : Nat) : Nat → Nat → Nat × Nat → Chains → List Tok × Chains
  | 0, _, _, c => ([], c)
  | f + 1, p, held, c =>
    if p < fin then
      let m := findMatch a depth fin p c
      if held.1 ≠ 0 then
        -- the match held is the one of position p-1
        if held.1 < m.1 then
          let r := tokenise a depth lazy fin f (p + 1) m (enterPos a fin 1 p c)
          (Tok.lit (a.getD (p - 1) 0) :: r.1, r.2)
        else
          let r := tokenise a depth lazy fin f (p - 1 + held.1) (0, 0) (enterPos a fin (held.1 - 1) p c)
          (Tok.mtch held.1 held.2 :: r.1, r.2)
      else if m.1 == 0 then
        let r := tokenise a depth lazy fin f (p + 1) (0, 0) (enterPos a fin 1 p c)
        (Tok.lit (a.getD p 0) :: r.1, r.2)
      else if lazy then tokenise a depth lazy fin f (p + 1) m (enterPos a fin 1 p c)
      else
        let r := tokenise a depth lazy fin f (p + m.1) (0, 0) (enterPos a fin m.1 p c)
        (Tok.mtch m.1 m.2 :: r.1, r.2)
    else if held.1 ≠ 0 then ([Tok.mtch held.1 held.2], c)
    else ([], c)

/-- `n` bits of a number, least significant first. -/
def bitsLsb : Nat → Nat → List Bool
  | 0, _ => []
  | n + 1, v => (v % 2 == 1) :: bitsLsb n (v / 2)

/-- `n` bits of a code, most significant first. -/
def bitsMsb (n v : Nat) : List Bool := (bitsLsb n v).reverse

/-- Base lengths of the length codes 257 to 285 with their extra bits. -/
def lenCodes : List (Nat × Nat) :=
  [(3, 0), (4, 0), (5, 0), (6, 0), (7, 0), (8, 0), (9, 0), (10, 0), (11, 1), (13, 1), (15, 1), (17, 1), (19, 2), (23, 2),
   (27, 2), (31, 2), (35, 3), (43, 3), (51, 3), (59, 3), (67, 4), (83, 4), (99, 4), (115, 4), (131, 5), (163, 5), (195, 5),
   (227, 5), (258, 0)]

/-- Base distances of the distance codes 0 to 29 with their extra bits. -/
def distCodes : List (Nat × Nat) :=
  [(1, 0), (2, 0), (3, 0), (4, 0), (5, 1), (7, 1), (9, 2), (13, 2), (17, 3), (25, 3), (33, 4), (49, 4), (65, 5), (97, 5),
   (129, 6), (193, 6), (257, 7), (385, 7), (513, 8), (769, 8), (1025, 9), (1537, 9), (2049, 10), (3073, 10), (4097, 11),
   (6145, 11), (8193, 12), (12289, 12), (16385, 13), (24577, 13)]

/-- The code of a value in such a table: its index, base and extra bits (the last row whose base is not above it). -/
def codeFor (t : List (Nat × Nat)) (v : Nat) : Nat × Nat × Nat :=
  let k := (t.takeWhile fun r => decide (r.1 ≤ v)).length - 1
  let r := t.getD k (0, 0)
  (k, r.1, r.2)

/-- The fixed literal/length code lengths (RFC 1951). -/
def fixedLens : List Nat := List.replicate 144 8 ++ List.replicate 112 9 ++ List.replicate 24 7 ++ List.replicate 8 8

/-- The fixed distance code lengths (RFC 1951). -/
def fixedDistLens : List Nat := List.replicate 30 5

/-- The first code of each length, for lengths 1 to 15 (RFC 1951, 3.2.2): entry `l` is for length `l`. -/
def firstCodes (lens : List Nat) : List Nat :=
  (List.range 16).foldl (fun acc l =>
    if l == 0 then [0]
    else acc ++ [2 * (acc.getLastD 0 + (if l == 1 then 0 else lens.count (l - 1)))]) []

/-- The canonical code of a symbol: its length and bits. -/
def codeOf (lens : List Nat) (sym : Nat) : Nat × Nat :=
  let l := lens.getD sym 0
  (l, (firstCodes lens).getD l 0 + (lens.take sym).count l)

/-- The bits of a symbol. -/
def symBits (lens : List Nat) (sym : Nat) : List Bool := let c := codeOf lens sym; bitsMsb c.1 c.2

/-- The bits of a token under literal/length and distance code lengths. -/
def tokBits (lens dlens : List Nat) : Tok → List Bool
  | .lit b => symBits lens b
  | .mtch l d =>
    let lc := codeFor lenCodes l
    let dc := codeFor distCodes d
    symBits lens (257 + lc.1) ++ bitsLsb lc.2.2 (l - lc.2.1) ++ symBits dlens dc.1 ++ bitsLsb dc.2.2 (d - dc.2.1)

/-- The symbol counts of a block's literal/length and distance alphabets, from which a dynamic block is built (R164). -/
def tokCounts (ts : List Tok) : List Nat :=
  let c := ts.foldl (fun (h : Array Nat) t => match t with
    | .lit b => h.modify b (· + 1)
    | .mtch l d => (h.modify (257 + (codeFor lenCodes l).1) (· + 1)).modify (286 + (codeFor distCodes d).1) (· + 1))
    (Array.replicate 316 0)
  (c.modify 256 (· + 1)).toList

/-! ### Reading codes and the header of a dynamic block -/

/-- A bit source: the bits still to read. -/
abbrev BitSrc := List Bool

/-- Read `n` bits, least significant first; none where the stream ends. -/
def readBits : Nat → BitSrc → Option (Nat × BitSrc)
  | 0, s => some (0, s)
  | _ + 1, [] => none
  | n + 1, b :: s => match readBits n s with
    | some (v, r) => some (b2n b + 2 * v, r)
    | none => none

/-- Decode one symbol of a canonical code: `code` is the bits read so far, `len` their number, `f` the lengths left. -/
def readSym (lens firsts : List Nat) : Nat → Nat → Nat → BitSrc → Option (Nat × BitSrc)
  | 0, _, _, _ => none
  | _ + 1, _, _, [] => none
  | f + 1, code, len, b :: s =>
    let code := 2 * code + b2n b
    let len := len + 1
    let k := firsts.getD len 0
    if k ≤ code && decide (code < k + lens.count len) then
      some ((((List.range lens.length).filter fun i => lens.getD i 0 == len).getD (code - k) 0), s)
    else readSym lens firsts f code len s

/-- Decode one symbol. -/
def readCode (lens : List Nat) (s : BitSrc) : Option (Nat × BitSrc) := readSym lens (firstCodes lens) 15 0 0 s

/-- The order in which code length code lengths are stored (RFC 1951). -/
def clOrder : List Nat := [16, 17, 18, 0, 8, 7, 9, 6, 10, 5, 11, 4, 12, 3, 13, 2, 14, 1, 15]

/-- Read `n` code length code lengths of 3 bits each. -/
def readCl : Nat → BitSrc → Option (List Nat × BitSrc)
  | 0, s => some ([], s)
  | n + 1, s => match readBits 3 s with
    | none => none
    | some (v, s) => match readCl n s with
      | none => none
      | some (vs, s) => some (v :: vs, s)

/-- Read code lengths up to `n` of them, with the repeat codes. -/
def readLens (cl : List Nat) (n : Nat) : Nat → BitSrc → List Nat → Option (List Nat × BitSrc)
  | 0, _, _ => none
  | f + 1, s, acc =>
    if acc.length ≥ n then (if acc.length == n then some (acc, s) else none)
    else match readCode cl s with
      | none => none
      | some (sym, s) =>
        if sym < 16 then readLens cl n f s (acc ++ [sym])
        else
          let p := if sym == 16 then (2, 3) else if sym == 17 then (3, 3) else (7, 11)
          if sym == 16 && acc.isEmpty then none
          else match readBits p.1 s with
            | none => none
            | some (v, s) => readLens cl n f s (acc ++ List.replicate (p.2 + v) (if sym == 16 then acc.getLastD 0 else 0))

/-- Whether code lengths are over-subscribed. -/
def overSubscribed (lens : List Nat) : Bool :=
  decide (2 ^ 15 < ((List.range 15).map fun i => lens.count (i + 1) * 2 ^ (14 - i)).sum)

/-- The code lengths of a dynamic block. -/
def readDynamic (s : BitSrc) : Option (List Nat × List Nat × BitSrc) :=
  match readBits 14 s with
  | none => none
  | some (v, s) =>
    let hlit := v % 32 + 257
    let hdist := v / 32 % 32 + 1
    let hclen := v / 1024 + 4
    match readCl hclen s with
    | none => none
    | some (cls, s) =>
      let cl := (List.range 19).map fun i => cls.getD (clOrder.findIdx (· == i)) 0
      match readLens cl (hlit + hdist) (hlit + hdist + 1) s [] with
      | none => none
      | some (ls, s) =>
        if hlit > 286 || overSubscribed cl || overSubscribed (ls.take hlit) || overSubscribed (ls.drop hlit) then none
        else some (ls.take hlit, ls.drop hlit, s)

/-! ### Dynamic blocks -/

/-- Code lengths make a complete code of at most 15 bits (RFC 1951, 3.2.2). -/
def completeLens (lens : List Nat) : Bool :=
  (lens.all fun l => decide (l ≤ 15)) && ((List.range 15).map fun i => lens.count (i + 1) * 2 ^ (14 - i)).sum == 2 ^ 15

/-- A choice for a dynamic block, of header bits alone, is valid DEFLATE for the symbol counts: the header spells the code lengths
and nothing more, each of the two codes is complete, or a distance code of at most one symbol, and every symbol that the block
uses has a code (R164, RFC 1951 3.2.7). The lengths that it spells. -/
def dynValid (counts : List Nat) (header : List Bool) : Option (List Nat × List Nat) :=
  match readDynamic header with
  | some (ls, ds, []) =>
    let used := fun (lens : List Nat) (base n : Nat) =>
      (List.range n).all fun i => counts.getD (base + i) 0 == 0 || lens.getD i 0 != 0
    if completeLens ls && (completeLens ds || ((ds.all fun l => decide (l ≤ 1)) && decide (ds.count 1 ≤ 1)))
        && used ls 0 286 && used ds 286 30 then some (ls, ds) else none
  | _ => none

/-- Code lengths that suit any block: literal/length codes of 8 and 9 bits, distance codes of 4 and 5. -/
def plainLens : List Nat × List Nat := (List.replicate 226 8 ++ List.replicate 60 9, List.replicate 2 4 ++ List.replicate 28 5)

/-- The header that spells `plainLens`: 286 and 30 lengths, each written with a code of two bits for the lengths 4, 5, 8 and 9. -/
def plainHeader : List Bool :=
  let cl := (List.range 19).map fun i => if i = 4 ∨ i = 5 ∨ i = 8 ∨ i = 9 then 2 else 0
  bitsLsb 5 29 ++ bitsLsb 5 29 ++ bitsLsb 4 15 ++ (clOrder.flatMap fun i => bitsLsb 3 (cl.getD i 0))
    ++ (plainLens.1 ++ plainLens.2).flatMap (symBits cl)

/-- The header and the code lengths of a dynamic block: the part's own choice, held to RFC 1951 as R164 holds it; a value of the
open constant that is no choice the rule allows gives way to one that is (log entry 3). -/
def dynBlock (counts : List Nat) : List Bool × List Nat × List Nat :=
  let h := Config.dynHeader counts
  match dynValid counts h with
  | some ls => (h, ls)
  | none => (plainHeader, plainLens)

/-- A Huffman block: fixed, or dynamic with the code lengths the part chooses (R164). -/
def huffBlock (dyn final : Bool) (ts : List Tok) : List Bool :=
  if dyn then
    let b := dynBlock (tokCounts ts)
    final :: false :: true :: b.1 ++ ts.flatMap (tokBits b.2.1 b.2.2) ++ symBits b.2.1 256
  else final :: true :: false :: ts.flatMap (tokBits fixedLens fixedDistLens) ++ symBits fixedLens 256

/-- Bits to the next byte boundary from bit position `n`. -/
def padBits (n : Nat) : Nat := (8 - n % 8) % 8

/-- The stored blocks of a piece of input, at most 32,768 bytes each (R164), from bit position `pos`. -/
def storedBlocks (final : Bool) : Nat → List Bytes → List Bool
  | _, [] => []
  | pos, x :: xs =>
    let hd := (final && xs.isEmpty) :: false :: false :: List.replicate (padBits (pos + 3)) false
    let here := hd ++ bitsLsb 16 x.length ++ bitsLsb 16 (65535 - x.length) ++ x.flatMap fun b => bitsLsb 8 b.toNat
    here ++ storedBlocks final (pos + here.length) xs

/-- One input block in the shorter of its forms (R164), and the number of DEFLATE blocks it takes: a stored one takes one for each
32,768 bytes. -/
def emitBlock (effort : Nat) (dyn final : Bool) (pos : Nat) (raw : Bytes) (ts : List Tok) : List Bool × Nat :=
  let cs := chunks 32768 raw
  let st := storedBlocks final pos cs
  if effort == 0 then (st, cs.length)
  else let h := huffBlock dyn final ts
       if h.length ≤ st.length then (h, 1) else (st, cs.length)

/-- Eight bits at a time into bytes, the last byte padded with zero bits; the fuel is the bit count. -/
def packBitsAux : Nat → List Bool → Bytes
  | 0, _ => []
  | f + 1, bs =>
    if bs.isEmpty then []
    else BitVec.ofNat 8 ((bs.take 8).foldr (fun b a => b2n b + 2 * a) 0) :: packBitsAux f (bs.drop 8)

/-- Bits to bytes. -/
def packBits (bs : List Bool) : Bytes := packBitsAux bs.length bs

/-- The blocks of a DEFLATE stream over input blocks, and their number; block numbers listed in `stored` are emitted as stored
blocks (R169). -/
def deflateBlocks (a : Array Nat) (effort : Nat) (dyn : Bool) (stored : List Nat) :
    List Bytes → Nat → Nat → Nat → Chains → List Bool × Nat
  | [], _, _, _, _ => ([], 0)
  | blk :: rest, num, start, pos, c =>
    let fin := start + blk.length
    let r := tokenise a (effortDepth effort) (effortLazy effort) fin (2 * blk.length + 2) start (0, 0) c
    let here := emitBlock (if stored.contains num then 0 else effort) dyn rest.isEmpty pos blk r.1
    let next := deflateBlocks a effort dyn stored rest (num + 1) fin (pos + here.1.length) r.2
    (here.1 ++ next.1, here.2 + next.2)

/-- The bits of a raw DEFLATE stream and its number of blocks. -/
def deflateBits (effort : Nat) (dyn : Bool) (stored : List Nat) (inp : Bytes) : List Bool × Nat :=
  deflateBlocks ((inp.map (·.toNat)).toArray) effort dyn stored (chunks 65536 inp) 0 0 0 (Array.replicate 32768 [])

/-- The raw DEFLATE stream of an input (R160-R164): an empty input is a final static block holding only end-of-block. -/
def deflate (effort : Nat) (dyn : Bool) (stored : List Nat) (inp : Bytes) : Bytes :=
  if inp.isEmpty then [0x03, 0x00] else packBits (deflateBits effort dyn stored inp).1

/-- The number of DEFLATE blocks of an input's stream (R182). -/
def deflateCount (effort : Nat) (dyn : Bool) (stored : List Nat) (inp : Bytes) : Nat :=
  if inp.isEmpty then 1 else (deflateBits effort dyn stored inp).2

/-- A compressed job stream with its wrapper (R178): 0 raw, 1 zlib, 2 gzip. -/
def deflateWrapped (wrap effort : Nat) (dyn : Bool) (stored : List Nat) (inp : Bytes) : Bytes :=
  let body := deflate effort dyn stored inp
  if wrap == 1 then
    let flevel := if effort ≤ 1 then 0 else if effort ≤ 5 then 1 else if effort == 6 then 2 else 3
    let flg := flevel * 64
    let fcheck := (31 - (0x78 * 256 + flg) % 31) % 31
    [0x78, BitVec.ofNat 8 (flg + fcheck)] ++ body ++ beBytes 4 (adler32 inp)
  else if wrap == 2 then
    [0x1F, 0x8B, 8, 0, 0, 0, 0, 0, 0, 255] ++ body ++ leBytes 4 (crc32 inp) ++ leBytes 4 (inp.length % 2 ^ 32)
  else body

/-! ### Inflating -/

/-- Copy `n` bytes from distance `d` in the reversed output. -/
def copyBack (d : Nat) : Nat → Bytes → Bytes
  | 0, out => out
  | n + 1, out => copyBack d n (out.getD (d - 1) 0 :: out)

/-- The symbols of a Huffman block, onto the reversed output; none for an invalid code or distance. -/
def inflateSyms (lens dlens : List Nat) : Nat → BitSrc → Bytes → Option (BitSrc × Bytes)
  | 0, _, _ => none
  | f + 1, s, out =>
    match readCode lens s with
    | none => none
    | some (sym, s) =>
      if sym < 256 then inflateSyms lens dlens f s (BitVec.ofNat 8 sym :: out)
      else if sym == 256 then some (s, out)
      else if sym ≥ 286 then none
      else
        let lc := lenCodes.getD (sym - 257) (0, 0)
        match readBits lc.2 s with
        | none => none
        | some (le, s) =>
          match readCode dlens s with
          | none => none
          | some (dsym, s) =>
            if dsym ≥ 30 then none
            else
              let dc := distCodes.getD dsym (0, 0)
              match readBits dc.2 s with
              | none => none
              | some (de, s) =>
                let d := dc.1 + de
                if d > out.length then none else inflateSyms lens dlens f s (copyBack d (lc.1 + le) out)

/-- Read `n` whole bytes. -/
def readBytes : Nat → BitSrc → Bytes → Option (BitSrc × Bytes)
  | 0, s, out => some (s, out)
  | n + 1, s, out => match readBits 8 s with
    | none => none
    | some (v, s) => readBytes n s (BitVec.ofNat 8 v :: out)

/-- The blocks of a stream, onto the reversed output. -/
def inflateBlocks (total : Nat) : Nat → BitSrc → Bytes → Option (BitSrc × Bytes)
  | 0, _, _ => none
  | f + 1, s, out =>
    match readBits 3 s with
    | none => none
    | some (h, s) =>
      let r := if h / 2 == 0 then
          let s := s.drop (padBits (total - s.length))
          match readBits 32 s with
          | none => none
          | some (v, s) => if v % 65536 + v / 65536 == 65535 then readBytes (v % 65536) s out else none
        else if h / 2 == 1 then inflateSyms fixedLens (List.replicate 32 5) (s.length + 1) s out
        else if h / 2 == 2 then
          match readDynamic s with
          | none => none
          | some (ls, ds, s) => inflateSyms ls ds (s.length + 1) s out
        else none
      match r with
      | none => none
      | some (s, out) => if h % 2 == 1 then some (s, out) else inflateBlocks total f s out

/-- Inflate a raw DEFLATE stream (RFC 1951): its output and how many input bytes it used; none for a bad stream. -/
def inflate (inp : Bytes) : Option (Bytes × Nat) :=
  let src := inp.flatMap fun b => bitsLsb 8 b.toNat
  match inflateBlocks src.length (src.length + 1) src [] with
  | none => none
  | some (s, out) => some (out.reverse, inp.length - s.length / 8)

/-- The outcome of inflating a wrapped stream (R178). -/
inductive InflateResult where
  /-- output and input bytes consumed -/
  | ok (out : Bytes) (used : Nat)
  /-- STATUS 0x03 -/
  | badStream
  /-- STATUS 0x04 -/
  | checkMismatch
deriving DecidableEq, Repr

/-- The length of a zero-terminated string with its terminator; none where it does not end. -/
def zstrLen (bs : Bytes) : Option Nat :=
  if bs.contains 0 then some ((bs.takeWhile (· ≠ 0)).length + 1) else none

/-- The length of a gzip header (R178), or none where it is malformed. -/
def gzipHeaderLen (bs : Bytes) : Option Nat :=
  if bs.length < 10 || bs.take 3 ≠ [0x1F, 0x8B, 8] then none
  else
    let flg := (bs.getD 3 0).toNat
    if flg ≥ 32 then none
    else
      let n0 := if bitAt flg 2 then 12 + leNat (sliceBytes bs 10 2) else 10
      let n1 := if bitAt flg 3 then (zstrLen (bs.drop n0)).map (· + n0) else some n0
      let n2 := match n1 with
        | none => none
        | some n => if bitAt flg 4 then (zstrLen (bs.drop n)).map (· + n) else some n
      match n2 with
      | none => none
      | some n => let m := if bitAt flg 1 then n + 2 else n
                  if m > bs.length then none else some m

/-- Inflate a stream in wrapper 0 raw, 1 zlib or 2 gzip (R178). -/
def inflateWrapped (wrap : Nat) (bs : Bytes) : InflateResult :=
  if wrap == 1 then
    let cmf := (bs.getD 0 0).toNat
    let flg := (bs.getD 1 0).toNat
    if bs.length < 2 || cmf % 16 ≠ 8 || cmf / 16 > 7 || (cmf * 256 + flg) % 31 ≠ 0 || bitAt flg 5 then .badStream
    else match inflate (bs.drop 2) with
      | none => .badStream
      | some (out, n) =>
        if bs.length < 2 + n + 4 then .badStream
        else if beNat (sliceBytes bs (2 + n) 4) == adler32 out then .ok out (2 + n + 4) else .checkMismatch
  else if wrap == 2 then
    match gzipHeaderLen bs with
    | none => .badStream
    | some h => match inflate (bs.drop h) with
      | none => .badStream
      | some (out, n) =>
        if bs.length < h + n + 8 then .badStream
        else if leNat (sliceBytes bs (h + n) 4) == crc32 out && leNat (sliceBytes bs (h + n + 4) 4) == out.length % 2 ^ 32
          then .ok out (h + n + 8) else .checkMismatch
  else match inflate bs with
    | none => .badStream
    | some (out, n) => .ok out n

end Sys2Proof.Machine
end

