-- ==== Sys2Proof/Machine/HostBase.lean ====
section
/-!
DEFINITION. The host interface's shared operations: data pointers, status codes, completion, queue freeze, asynchronous
events, interrupts, and range locks (R449, R454, R457-R463, R483).
-/

namespace Sys2Proof.Machine

/-! ### Status codes: vendor ones from R483, the standard ones as NVM Express numbers them (log entry 40) -/

/-- Successful Completion. -/
def Nv.ok : Nat := 0x000
/-- Invalid Command Opcode. -/
def Nv.badOpcode : Nat := 0x001
/-- Invalid Field in Command. -/
def Nv.badField : Nat := 0x002
/-- Data Transfer Error. -/
def Nv.dataError : Nat := 0x004
/-- Internal Error. -/
def Nv.internal : Nat := 0x006
/-- Command Abort Requested. -/
def Nv.aborted : Nat := 0x007
/-- Command Aborted due to SQ Deletion. -/
def Nv.sqDeleted : Nat := 0x008
/-- Invalid Namespace or Format. -/
def Nv.badNs : Nat := 0x00B
/-- Command Sequence Error. -/
def Nv.sequence : Nat := 0x00C
/-- Namespace Is Write Protected. -/
def Nv.protected : Nat := 0x020
/-- LBA Out of Range. -/
def Nv.outOfRange : Nat := 0x080
/-- Invalid Queue Identifier. -/
def Nv.badQueue : Nat := 0x101
/-- Completion Queue Invalid. -/
def Nv.badCq : Nat := 0x100
/-- Invalid Queue Size. -/
def Nv.badSize : Nat := 0x102
/-- Asynchronous Event Request Limit Exceeded. -/
def Nv.aerLimit : Nat := 0x105
/-- Invalid Firmware Slot. -/
def Nv.badSlot : Nat := 0x106
/-- Invalid Firmware Image. -/
def Nv.badImage : Nat := 0x107
/-- Invalid Interrupt Vector. -/
def Nv.badVector : Nat := 0x108
/-- Invalid Log Page. -/
def Nv.badLog : Nat := 0x109
/-- Invalid Format. -/
def Nv.badFormat : Nat := 0x10A
/-- Firmware Activation Requires Controller Level Reset. -/
def Nv.needsReset : Nat := 0x111
/-- Invalid Queue Deletion. -/
def Nv.badDelete : Nat := 0x10C
/-- Namespace Insufficient Capacity. -/
def Nv.noCapacity : Nat := 0x115
/-- Namespace Identifier Unavailable. -/
def Nv.noNsid : Nat := 0x116
/-- Namespace Already Attached. -/
def Nv.alreadyAttached : Nat := 0x118
/-- Namespace Not Attached. -/
def Nv.notAttached : Nat := 0x11A
/-- Controller List Invalid. -/
def Nv.badList : Nat := 0x11C
/-- Unrecovered Read Error. -/
def Nv.unrecovered : Nat := 0x281
/-- Compare Failure. -/
def Nv.compareFail : Nat := 0x285
/-- Deallocated or Unwritten Logical Block. -/
def Nv.deallocated : Nat := 0x287
/-- TAKE_CONTRACT_REFUSED. -/
def Nv.contract : Nat := 0x780
/-- FRAME_NOT_FOUND. -/
def Nv.frameNotFound : Nat := 0x781
/-- ARRAY_OFFLINE. -/
def Nv.offline : Nat := 0x782
/-- LENGTH_MISMATCH. -/
def Nv.length : Nat := 0x783
/-- OUT_OF_SPACE. -/
def Nv.space : Nat := 0x784
/-- DECODE_TABLE_MISMATCH. -/
def Nv.table : Nat := 0x785
/-- ROLE_REQUIRED. -/
def Nv.role : Nat := 0x786
/-- RESOURCE_HELD. -/
def Nv.held : Nat := 0x787
/-- KEYS_ERASED. -/
def Nv.keys : Nat := 0x788
/-- PROGRAM_STOPPED. -/
def Nv.stopped : Nat := 0x789

/-! ### Data pointers -/

/-- Change the host interface. -/
def State.setHost (s : State) (f : HostSt → HostSt) : State := { s with host := f s.host }

/-- A physical function. -/
def isPf (fn : Nat) : Bool := fn == 0 || fn == 0x101

/-- The memory behind a function's port. -/
def hostTarget (fn : Nat) : Target := if fn = 0x101 then .hostB else .hostA

/-- Bytes a data pointer spans. -/
def dptrLen (d : List DSeg) : Nat := (d.map fun x => match x with | .block _ n => n | .bitBucket n => n).foldl (· + ·) 0

/-- Write bytes through a data pointer; a bit bucket drops its share (R450). -/
def dptrWrite (t : Target) : List DSeg → Bytes → MemSt → MemSt
  | [], _, m => m
  | .block a n :: ds, bs, m => dptrWrite t ds (bs.drop n) (m.write t a (bs.take n))
  | .bitBucket n :: ds, bs, m => dptrWrite t ds (bs.drop n) m

/-- Read `n` bytes through a data pointer; a bit bucket reads as nothing. -/
def dptrRead (t : Target) : List DSeg → Nat → MemSt → Bytes
  | [], _, _ => []
  | .block a n :: ds, k, m => m.read t a (min n k) ++ dptrRead t ds (k - n) m
  | .bitBucket _ :: ds, k, m => dptrRead t ds k m

/-- Send data to the host. -/
def State.toHost (s : State) (fn : Nat) (d : List DSeg) (bs : Bytes) : State :=
  { s with mem := dptrWrite (hostTarget fn) d bs s.mem }

/-- Read data from the host. -/
def State.fromHost (s : State) (fn : Nat) (d : List DSeg) (n : Nat) : Bytes := dptrRead (hostTarget fn) d n s.mem

/-! ### Interrupts and events -/

/-- Send an MSI-X message (R449). -/
def State.msi (s : State) (fn vec : Nat) : State :=
  s.setHost fun h => { h with msix := assocSet h.msix (fn, vec) ((assoc h.msix (fn, vec)).getD 0 + 1) }

/-- A completion queue of a function; queue 0 is its admin queue. -/
def State.cq (s : State) (fn qid : Nat) : Option Cq := s.host.cqs.find? fun q => q.fn == fn && q.qid == qid

/-- A submission queue of a function. -/
def State.sq (s : State) (fn qid : Nat) : Option Sq := s.host.sqs.find? fun q => q.fn == fn && q.qid == qid

/-- The lowest number a list does not hold. -/
def lowestFree (l : List Nat) : Nat := ((List.range (l.length + 1)).find? fun n => !l.contains n).getD 0

/-- The global index of the next submission queue: the lowest free one (R448; log entry 74). -/
def State.nextGidx (s : State) : Nat := lowestFree (s.host.sqs.map (·.gidx))

/-- Change a submission queue. -/
def State.modSq (s : State) (fn qid : Nat) (f : Sq → Sq) : State :=
  s.setHost fun h => { h with sqs := h.sqs.map fun q => if q.fn == fn && q.qid == qid then f q else q }

/-- Post a completion entry, with its interrupt (R449). -/
def State.post (s : State) (e : Cqe) : State :=
  let t := s.setHost fun h =>
    { h with cqes := h.cqes ++ [e],
             cqs := h.cqs.map fun q => if q.fn == e.fn && q.qid == e.cq then { q with tail := (q.tail + 1) % max 1 q.size } else q }
  match s.cq e.fn e.cq with
  | some q => if q.ien then t.msi e.fn q.vec else t
  | none => if e.cq = 0 then t.msi e.fn 0 else t

/-- Raise an asynchronous event: it completes a waiting request, or waits for one, or for the read of its log page. -/
def State.raiseEvent (s : State) (e : AsyncEv) : State :=
  if s.host.masked.contains (e.fn, e.page) then
    if s.host.events.contains e then s else s.setHost fun h => { h with events := h.events ++ [e] }
  else
    match s.host.aers.find? (·.fn == e.fn) with
    | none => if s.host.events.contains e then s else s.setHost fun h => { h with events := h.events ++ [e] }
    | some c =>
      let t := s.setHost fun h => { h with aers := h.aers.filter (· != c), masked := h.masked ++ [(e.fn, e.page)] }
      t.post ⟨c.fn, 0, 0, c.cid, 0, e.ty + e.info * 256 + e.page * 65536, 0⟩

/-- The event of a vendor log page on a controller (R463, R613). -/
def State.vendorEvent (s : State) (fn page : Nat) : State := s.raiseEvent ⟨fn, 7, 0, page⟩

/-- Asynchronous Event Configuration until the host sets it: every notice of R450's areas enabled (log entry 40). -/
def asyncDefault : Nat := 0x31F

/-- A notice of Asynchronous Event Configuration is enabled on a controller (log entry 40). -/
def State.noticeOn (s : State) (fn bit : Nat) : Bool := bitAt ((assoc s.host.features (fn, 0x0B)).getD asyncDefault) bit

/-- A namespace changed on each controller it is attached to (R454): it enters their Changed Namespace List. -/
def State.nsChanged (s : State) (n : Ns) : State :=
  let new := (n.attached.map fun f => (f, n.nsid)).filter fun x => !s.host.changed.contains x
  let t := s.setHost fun h => { h with changed := h.changed ++ new }
  (n.attached.filter fun f => t.noticeOn f 8).foldl (fun t f => t.raiseEvent ⟨f, 2, 0, 4⟩) t

/-- The take catalog changed (R482). -/
def State.catalogChanged (s : State) : State := s.setHost fun h => { h with catalog := h.catalog + 1 }

/-! ### Errors and completion -/

/-- First LBA of an I/O command. -/
def ioLba (x : IoCmd) : Nat := x.cdw10 + x.cdw11 * 2 ^ 32

/-- NLB of an I/O command, as a count. -/
def ioNlb (x : IoCmd) : Nat := x.cdw12 % 65536 + 1

/-- An error completion: the Error Information log, the error ring (R462, R623) and HOSTQ.ERRORS. -/
def State.commandError (s : State) (fn sq cid status nsid lba : Nat) : State :=
  let n := (assoc s.host.errCount fn).getD 0 + 1
  let t := s.setHost fun h =>
    { h with errCount := assocSet h.errCount fn n,
             errInfo := (⟨fn, n, sq, cid, status, lba, nsid⟩ :: h.errInfo).take 4096 }
  (t.bump R.HOSTQ.ERRORS_COUNT).record 0x08 E.FAULT_COMMAND_ERROR (sq % 65536 + (cid % 65536) * 65536) fn lba status

/-- The controller takes admin commands: its function exists and is not being reset, and the device is in service. -/
def State.adminReady (s : State) (fn : Nat) : Bool :=
  s.tenant.fns.any (fun f => f.p.func == fn) && (assoc s.tenant.resetting fn).isNone && decide (3 ≤ s.get R.PWR.MODE_MODE)

/-- Complete an admin command. -/
def State.completeAdmin (s : State) (c : Cmd) (status : Nat) (dw0 : Nat := 0) (dw1 : Nat := 0) : State :=
  let t := if status = 0 then s else s.commandError c.fn 0 c.cid status c.nsid 0
  t.post ⟨c.fn, 0, 0, c.cid, status, dw0, dw1⟩

/-- Complete an admin command with data for the host. -/
def State.completeData (s : State) (c : Cmd) (bs : Bytes) : State := (s.toHost c.fn c.dptr bs).completeAdmin c Nv.ok

/-- A fetched command. -/
def State.hcmd (s : State) (k : CmdKey) : Option HCmd :=
  s.host.cmds.find? fun h => h.x.fn == k.fn && h.x.sq == k.sq && h.x.cid == k.cid && h.phase != .locked

/-- Change a fetched command. -/
def State.modCmd (s : State) (k : CmdKey) (f : HCmd → HCmd) : State :=
  s.setHost fun h => { h with cmds := h.cmds.map fun c =>
    if c.x.fn == k.fn && c.x.sq == k.sq && c.x.cid == k.cid && c.phase != .locked then f c else c }

/-- Two lock entries conflict (R458). -/
def RLock.conflicts (a b : RLock) : Bool :=
  a.nsid == b.nsid && decide (max a.first b.first < min (a.first + a.count) (b.first + b.count)) && (a.wr || b.wr)

/-- A command conflicts with an entry of an earlier one (R458). -/
def HostSt.blocked (h : HostSt) (c : HCmd) : Bool :=
  h.cmds.any fun d => decide (d.num < c.num) && d.locks.any fun a => c.locks.any fun b => a.conflicts b

/-- Range-lock entries in use. -/
def HostSt.locksUsed (h : HostSt) : Nat := (h.cmds.map (·.locks.length)).foldl (· + ·) 0

/-- Commands whose conflicts have gone may start (R458), and RANGE_LOCKS shows the entries in use. -/
def State.relock (s : State) : State :=
  let t := s.setHost fun h =>
    { h with cmds := h.cmds.map fun c => if c.phase == .waits && !h.blocked c then { c with phase := .ready } else c }
  let n := t.host.locksUsed
  let t := t.setHost fun h => if n = 0 then { h with paused := false } else h
  (t.put R.HOSTQ.RANGE_LOCKS_IN_USE n).put R.HOSTQ.RANGE_LOCKS_PEAK (max (t.get R.HOSTQ.RANGE_LOCKS_PEAK) n)

/-- Frozen submission queues. -/
def State.countFrozen (s : State) : State :=
  s.put R.HOSTQ.FROZEN_QUEUES (s.host.sqs.filter (·.frozen.isSome)).length

/-- An error completion freezes its submission queue (R461, R463). -/
def State.freezeSq (s : State) (fn qid cid status : Nat) : State :=
  match s.sq fn qid with
  | none => s
  | some q =>
    if q.frozen.isSome || qid = 0 then s
    else
      let t := ((s.modSq fn qid fun q => { q with frozen := some (cid, status, s.time) }).countFrozen.pulse 0xB0
        Ev.HOSTQ.QUEUE_FROZEN).record 0xB0 E.HOSTQ_QUEUE_FROZEN (fn % 512 + (qid % 4096) * 512) fn
      if t.host.frozenSeen.contains fn then t
      else (t.setHost fun h => { h with frozenSeen := h.frozenSeen ++ [fn] }).vendorEvent fn 0xC1

/-- Complete an I/O command; with `keep` its locks stay until its data is programmed (R457, R459, R461). -/
def State.completeCmd (s : State) (k : CmdKey) (status : Nat) (dw0 : Nat := 0) (dw1 : Nat := 0) (keep : Bool := false) : State :=
  match s.hcmd k with
  | none => s
  | some c =>
    let t := if keep then s.modCmd k fun h => { h with phase := .locked }
      else s.setHost fun h => { h with cmds := h.cmds.filter (· != c) }
    let t := if status = 0 then t else t.commandError k.fn k.sq k.cid status c.x.nsid (ioLba c.x)
    let cq := match s.sq k.fn k.sq with | some q => q.cqid | none => 0
    let t := t.post ⟨k.fn, cq, k.sq, k.cid, status, dw0, dw1⟩
    let t := if status = 0 then t else t.freezeSq k.fn k.sq k.cid status
    t.relock

/-- One data unit of a write has completed program: with its last one its lock is released, and it completes if it has not
yet (R219, R457). -/
def State.unitProgrammed (s : State) (k : CmdKey) : State :=
  match s.host.cmds.find? fun h => h.x.fn == k.fn && h.x.sq == k.sq && h.x.cid == k.cid && h.x.opcode == 1 with
  | none => s
  | some c =>
    if 1 < c.left then s.setHost fun h => { h with cmds := h.cmds.map fun d => if d == c then { d with left := d.left - 1 } else d }
    else if c.phase = .locked then (s.setHost fun h => { h with cmds := h.cmds.filter (· != c) }).relock
    else s.completeCmd k Nv.ok

/-! ### Admin commands that wait -/

/-- Complete the admin commands that wait for a cause. -/
def State.wake (s : State) (p : AdminFor → Bool) (status : Nat) (dw0 : Nat := 0) : State :=
  let hits := s.host.waiting.filter fun w => p w.2
  hits.foldl (fun t w => t.completeAdmin w.1 status dw0)
    (s.setHost fun h => { h with waiting := h.waiting.filter fun w => !p w.2 })

/-- An admin command waits. -/
def State.await (s : State) (c : Cmd) (w : AdminFor) : State := s.setHost fun h => { h with waiting := h.waiting ++ [(c, w)] }

/-! ### Engine jobs -/

/-- A 64-byte descriptor's field. -/
def descN (d : Bytes) (off n : Nat) : Nat := leNat (sliceBytes d off n)

/-- NVMe status of an engine STATUS (R474). -/
def engineNvme (status : Nat) : Nat :=
  if status = 0 ∨ status = 3 ∨ status = 4 then Nv.ok
  else if status = 1 then Nv.space
  else if status = 2 ∨ status = 8 then Nv.badField
  else if status = 6 then Nv.dataError
  else Nv.internal

/-- A job ends: its completion record is written where it names one, its done bit is set after it, and the host command it
serves completes (R177, R324, R473, R474). `fault` records an address of the record that XLATE rejects. -/
def State.endJob (s : State) (d : JobDone) (verdict : Nat) (fault : State → Nat → State) : State :=
  let t := if d.addr = 0 then s else
    match s.xwrite d.job.func d.addr d.record with
    | .ok t => t
    | .error a => fault s a
  let t := t.setDone d.job.done
  match d.job.cmd with
  | none => t
  | some k =>
    let st := if d.job.engine = 2 ∧ descN d.job.desc 0 1 = 2 ∧ d.status = 0 ∧ verdict = 0x00 then Nv.internal else engineNvme d.status
    t.completeCmd k st (d.status + (if d.job.engine = 2 then verdict * 256 else 0)) (leNat (d.record.take 4))

/-- Remember a job's result until its completion step. -/
def State.finishJob (s : State) (d : JobDone) : State := s.setJobs fun j => { j with finished := j.finished ++ [d] }

/-- The oldest job of an engine that has run and awaits its completion. -/
def State.doneJob (s : State) (engine : Nat) : Option JobDone := s.jobs.finished.find? (·.job.engine == engine)

/-- Remove a finished job. -/
def State.dropDone (s : State) (d : JobDone) : State := s.setJobs fun j => { j with finished := j.finished.filter (·.job.id != d.job.id) }

/-- The front job of a queue, when it carries the operation, or an operation that is none of the engine's (any row answers
that one with a bad descriptor). -/
def State.jobFor (s : State) (src : JobSrc) (engine op ops : Nat) : Option Job :=
  match s.frontJob src engine with
  | none => none
  | some j =>
    let o := descN j.desc 0 1
    if o = op ∨ o = 0 ∨ ops < o then some j else none

end Sys2Proof.Machine
end

