-- ==== Sys2Proof/Machine/EarmarkBase.lean ====
section
/-!
DEFINITION. Earmark: entries, tables, matching and resolution, writing an entry, repair and retirement of banks, the rule
search, and the frame index (R378-R399).
-/

namespace Sys2Proof.Machine

/-! ### Banks and tables -/

/-- Units of an entry of a bank (R378). -/
def State.bankWidth (s : State) (b : Nat) : Nat := 2 ^ s.get (R.BANK.BANK_CFG_WIDTH b)

/-- Head of a bank's table. -/
def State.bankTable (s : State) (b : Nat) : Nat := s.get (R.BANK.BANK_CFG_TABLE b)

/-- Owner of a bank. -/
def State.bankOwner (s : State) (b : Nat) : Nat := s.get (R.BANK.BANK_OWNER_FUNC b)

/-- The banks of a table in ascending order, none where its named head is no head (R379). -/
def State.tableBanks (s : State) (n : Nat) : List Nat :=
  if s.bankTable n = n then (List.range 32).filter fun b => s.bankTable b == n else []

/-- A bank is retired. -/
def State.bankRetired (s : State) (b : Nat) : Bool := bitAt (s.get R.EARMARK.BANKS_RETIRED_MASK) b

/-- A bank's contents. -/
def State.bank (s : State) (b : Nat) : EBank := s.ear.banks.getD b ⟨[], [], []⟩

/-- Change Earmark. -/
def State.setEar (s : State) (f : EarmarkSt → EarmarkSt) : State := { s with ear := f s.ear }

/-- Change a bank's contents, and show its valid entries. -/
def State.modBank (s : State) (b : Nat) (f : EBank → EBank) : State :=
  let t := s.setEar fun e => { e with banks := modAt e.banks b f }
  t.put (R.BANK.BANK_STATUS_VALID_ENTRIES b) ((t.bank b).array.filter fun x => x.2.valid).length

/-- An entry of zeros. -/
def EEnt.zero (w : Nat) : EEnt := ⟨0, false, List.replicate w 0, List.replicate w 0⟩

/-- The entry at an index of one copy of a bank. -/
def entAt (l : List (Nat × EEnt)) (w i : Nat) : EEnt := (assoc l i).getD (EEnt.zero w)

/-- Set an entry; an entry of zeros is not listed. -/
def entSet (l : List (Nat × EEnt)) (w i : Nat) (e : EEnt) : List (Nat × EEnt) :=
  if e = EEnt.zero w then l.filter (·.1 != i) else assocSet l i e

/-- Write an entry to the shadow and then to the array (R391); a record with VALID 0 is stored as zeros (R385). -/
def State.writeEnt (s : State) (b i : Nat) (e : EEnt) : State :=
  let w := s.bankWidth b
  let e := if e.valid then e else EEnt.zero w
  (s.modBank b fun k => { k with shadow := entSet k.shadow w i e, array := entSet k.array w i e }).bump (R.BANK.WRITES_COUNT b)

/-- A bank and its shadow hold nothing. -/
def State.wipeBank (s : State) (b : Nat) : State :=
  (s.modBank b fun k => { k with array := [], shadow := [] }).setEar fun e => { e with spans := e.spans.filter (·.bank != b) }

/-- Every entry of a bank and of its shadow is cleared (R380, R401). -/
def State.clearBank (s : State) (b : Nat) : State := (s.wipeBank b).pulse (0x40 + b) Ev.BANK.CLEARED

/-- BANK_CFG of a bank, and HEAD with it, are at their reset values (R396, R401). -/
def State.defaultBank (s : State) (b : Nat) : State :=
  s.puts [(R.BANK.BANK_CFG_WIDTH b, 0), (R.BANK.BANK_CFG_TABLE b, b), (R.BANK.BANK_CFG_TRIG_SHARE b, 0), (R.BANK.BANK_STATUS_HEAD b, 1)]

/-! ### Matching -/

/-- Bits of a unit that must agree, and do (R381). -/
def unitMatch (val care key mask : Nat) : Bool := (val ^^^ key) &&& care &&& mask == 0

/-- An entry matches a key under a mask (R381). -/
def EEnt.hits (e : EEnt) (key mask : List Nat) : Bool :=
  e.valid && (List.range key.length).all fun j => unitMatch (e.vals.getD j 0) (e.cares.getD j 0) (key.getD j 0) (mask.getD j 0)

/-- The matching entries of a table, outside an exclusion list: bank, index, entry. -/
def State.matches (s : State) (n : Nat) (key mask : List Nat) (skip : List (Nat × Nat)) : List (Nat × Nat × EEnt) :=
  (s.tableBanks n).flatMap fun b =>
    (s.bank b).array.filterMap fun x =>
      if x.2.hits key mask && !skip.contains (b, x.1) then some (b, x.1, x.2) else none

/-- Entry `a` wins over `b`: highest class, then lowest bank, then lowest index (R382). -/
def beats (a b : Nat × Nat × EEnt) : Bool :=
  decide (b.2.2.cls < a.2.2.cls) || (a.2.2.cls == b.2.2.cls && (decide (a.1 < b.1) || (a.1 == b.1 && decide (a.2.1 < b.2.1))))

/-- The winner of a list of matches. -/
def winner : List (Nat × Nat × EEnt) → Option (Nat × Nat × EEnt)
  | [] => none
  | x :: xs => some (xs.foldl (fun m y => if beats y m then y else m) x)

/-- A result word (R383). -/
def resultWord (w : Nat × Nat × EEnt) (ms : List (Nat × Nat × EEnt)) (verified repaired : Bool) : Nat :=
  let ties := (ms.filter fun m => m.2.2.cls == w.2.2.cls).length - 1
  1 + b2n (decide (2 ≤ ms.length)) * 2 + b2n verified * 4 + b2n repaired * 8 + w.2.2.cls % 16 * 16 + min ties 15 * 256
    + w.2.1 % 4096 * 2 ^ 32 + w.1 % 32 * 2 ^ 44

/-! ### Repair and retirement -/

/-- ERR_INFO of an EARMARK condition (R402). -/
def earInfo (bank row func : Nat) : Nat := bank % 32 + row % 4096 * 32 + func % 512 * 2 ^ 17

/-- A retired bank is withdrawn from its function, and is granted to none (R379, R395, R495). -/
def State.withdrawBank (s : State) (b : Nat) : State :=
  match s.tenant.fns.find? fun f => bitAt f.p.banks b with
  | none => s
  | some f =>
    let fn := f.p.func
    let t := s.modFn fn fun g => Fn.unmap { g with p := { g.p with banks := setBit g.p.banks b false } } (0x40 + b)
    let t := t.puts [(R.VF.WITHDRAWN_BANKS_MASK fn, setBit (t.get (R.VF.WITHDRAWN_BANKS_MASK fn)) b true), (R.BANK.BANK_OWNER_FUNC b, 0x1F0)]
    ((t.pulse (0x1000 + fn) Ev.VF.BANK_WITHDRAWN).pulse 0xB1 Ev.TENANT.WITHDRAWN).record 0xB1 E.TENANT_BANK_WITHDRAWN
      (fn % 512 + b % 128 * 512) fn

/-- A bank is retired until cold reset (R395). -/
def State.retireBank (s : State) (b : Nat) : State :=
  let t := s.puts [(R.EARMARK.BANKS_RETIRED_MASK, setBit (s.get R.EARMARK.BANKS_RETIRED_MASK) b true),
    (R.BANK.BANK_STATUS_RETIRED b, 1), (H.RETIRED (0x40 + b), 1)]
  let t := (t.pulse (0x40 + b) Ev.BANK.RETIRED).pulse 0x30 Ev.EARMARK.BANK_RETIRED
  (t.record (0x40 + b) E.EARMARK_BANK_RETIRED (earInfo b 0 (s.bankOwner b)) (s.bankOwner b)).withdrawBank b

/-- A repair of a row of a bank: the counts, the record, and the retirement beyond the limit in 1 s (R391, R392, R395). -/
def State.countRepair (s : State) (b row : Nat) (scrub : Bool) : State :=
  let t := (s.bump (R.BANK.REPAIRS_COUNT b)).put (R.BANK.LAST_REPAIR_ROW b) row
  let t := t.bump (if scrub then R.EARMARK.SCRUB_REPAIRS_COUNT else R.EARMARK.CHECK_REPAIRS_COUNT)
  let t := (t.pulse (0x40 + b) Ev.BANK.REPAIR).pulse 0x30 Ev.EARMARK.REPAIR
  let t := t.record (0x40 + b) (if scrub then E.EARMARK_SCRUB_REPAIR else E.EARMARK_CHECK_REPAIR) (earInfo b row (s.bankOwner b))
    (s.bankOwner b)
  let t := t.modBank b fun k => { k with repairs := (k.repairs.filter fun x => decide (s.time < x + 1000000000)) ++ [s.time] }
  if t.get R.EARMARK.RETIRE_LIMIT_REPAIRS < (t.bank b).repairs.length ∧ !t.bankRetired b then t.retireBank b else t

/-! ### Jobs -/

/-- What an Earmark job has done so far: items, hits, repairs, and the STATUS that stopped it. -/
structure EarRun where
  /-- the state -/
  s : State
  /-- items completed -/
  items : Nat
  /-- keys with HIT -/
  hits : Nat
  /-- results with REPAIRED -/
  repairs : Nat
  /-- STATUS that stopped the job -/
  stop : Option Nat

/-- An Earmark descriptor's fields are legal for its operation (R384). -/
def earDescOk (d : Bytes) : Bool :=
  let op := descN d 0 1
  let fl := descN d 1 1
  let search := op == 1 || op == 2
  let noDst := op == 3 || op == 4
  decide (1 ≤ op) && decide (op ≤ 5) && (search || !bitAt fl 0) && decide (descN d 2 1 < 32)
    && (if op == 2 then decide (1 ≤ descN d 3 1) && decide (descN d 3 1 ≤ 16) else descN d 3 1 == 0)
    && decide (1 ≤ descN d 4 4) && decide (descN d 4 4 ≤ 65536)
    && descN d 16 8 % 8 == 0 && descN d 24 8 % 8 == 0 && (!noDst || descN d 24 8 == 0)
    && (bitAt fl 1 || descN d 32 8 == 0) && descN d 40 8 % 32 == 0

/-- A table holds a retired bank (R395). -/
def State.tableRetired (s : State) (n : Nat) : Bool := (s.tableBanks n).any s.bankRetired

/-- The STATUS that refuses a whole job: bad descriptor, table denied, bank retired (R384, R386, R395). -/
def State.earRefusal (s : State) (j : Job) : Option Nat :=
  let n := descN j.desc 2 1
  if !earDescOk j.desc then some 0x02
  else if s.tableRetired n then some 0x09
  else if s.bankTable n ≠ n ∨ (j.func ≠ 0x1F0 ∧ s.bankOwner n ≠ j.func) then some 0x08
  else none

/-- A word list from bytes. -/
def wordsOf (bs : Bytes) : List Nat := (chunks 8 bs).map leNat

/-- The entry an ENTRY_ID names in a table: bank and index, none for a bad one (R386). -/
def State.entryId (s : State) (n v : Nat) : Option (Nat × Nat) :=
  let b := v / 4096 % 32
  if (s.tableBanks n).contains b ∧ v % 4096 < 4096 / s.bankWidth n then some (b, v % 4096) else none

/-- Stop a job at an item. -/
def EarRun.halt (r : EarRun) (st : Nat) : EarRun := { r with stop := some st }

/-- Read an item of a job. -/
def EarRun.fetch (r : EarRun) (func a n : Nat) (k : Bytes → EarRun) : EarRun :=
  match r.s.xread func a n with
  | .ok bs => k bs
  | .error x => { r with s := r.s.xlateFault func x 0 false false true, stop := some 0x06 }

/-- Write a job's results. -/
def EarRun.put (r : EarRun) (func a : Nat) (bs : Bytes) (k : State → EarRun) : EarRun :=
  match r.s.xwrite func a bs with
  | .ok t => k t
  | .error x => { r with s := r.s.xlateFault func x 0 true false true, stop := some 0x06 }

/-- One entry record of a WRITE job (R385, R389). -/
def EarRun.writeItem (j : Job) (r : EarRun) (i : Nat) : EarRun :=
  let d := j.desc
  let n := descN d 2 1
  let w := r.s.bankWidth n
  r.fetch j.func (descN d 16 8 + (8 + 16 * w) * i) (8 + 16 * w) fun bs =>
    match r.s.entryId n (leNat (bs.take 4)) with
    | none => r.halt 0x02
    | some p =>
      let tag := (bs.getD 4 0).toNat
      let ws := wordsOf (bs.drop 8)
      { r with s := r.s.writeEnt p.1 p.2 ⟨tag % 16, bitAt tag 4, ws.take w, ws.drop w⟩, items := r.items + 1 }

/-- One ENTRY_ID of an INVALIDATE job. -/
def EarRun.invalidateItem (j : Job) (r : EarRun) (i : Nat) : EarRun :=
  let n := descN j.desc 2 1
  r.fetch j.func (descN j.desc 16 8 + 4 * i) 4 fun bs =>
    match r.s.entryId n (leNat bs) with
    | none => r.halt 0x02
    | some p => { r with s := r.s.writeEnt p.1 p.2 (EEnt.zero (r.s.bankWidth n)), items := r.items + 1 }

/-- The progress of a job; none yet where it has not begun. -/
def State.earRun (s : State) (id : Nat) : EarRun :=
  match s.ear.runs.find? (·.job == id) with
  | some p => ⟨s, p.items, p.hits, p.repairs, p.stop⟩
  | none => ⟨s, 0, 0, 0, none⟩

/-- A job has begun. -/
def State.earBegun (s : State) (id : Nat) : Bool := s.ear.runs.any (·.job == id)

/-- Keep the progress of a job. -/
def EarRun.keep (r : EarRun) (id : Nat) : State :=
  r.s.setEar fun e => { e with runs := e.runs.filter (·.job != id) ++ [⟨id, r.items, r.hits, r.repairs, r.stop⟩] }

/-- A job's progress is no longer needed. -/
def State.endRun (s : State) (id : Nat) : State := s.setEar fun e => { e with runs := e.runs.filter (·.job != id) }

/-- The queue of a source at the port: the clusters and the host (R388). -/
def portQueue : JobSrc → Nat
  | .cluster n => n.val
  | .host _ => 9

/-- The Earmark jobs at the front of their queues: the hosts' jobs form one queue at the port (R322, R388). -/
def State.earFronts (s : State) : List Job :=
  (List.range 10).filterMap fun q => s.jobs.queue.find? fun j => j.engine == 1 && portQueue j.src == q

/-- A front job has an operation left for its table's port: its whole-job checks pass, no item has stopped it, and items are left. -/
def State.earLive (s : State) (j : Job) : Bool :=
  (s.earBegun j.id || (s.earRefusal j).isNone) && (s.earRun j.id).stop.isNone && decide ((s.earRun j.id).items < descN j.desc 4 4)

/-- One item of a job, unless its table holds a retired bank by now (R386, R395). -/
def EarRun.item (j : Job) (step : EarRun → Nat → EarRun) (r : EarRun) : EarRun :=
  if r.stop.isSome then r else if r.s.tableRetired (descN j.desc 2 1) then r.halt 0x09 else step r r.items

/-- A write or invalidation takes its next item (R388, R389). -/
def State.earWriteOne (s : State) (j : Job) : State :=
  ((s.earRun j.id).item j (if descN j.desc 0 1 = 3 then EarRun.writeItem j else EarRun.invalidateItem j)).keep j.id

/-- The address of a write's or an invalidation's next ENTRY_ID (R385). -/
def State.nextEntry (s : State) (j : Job) : Option (Nat × Nat) :=
  let n := descN j.desc 2 1
  let size := if descN j.desc 0 1 = 3 then 8 + 16 * s.bankWidth n else 4
  match s.xread j.func (descN j.desc 16 8 + size * (s.earRun j.id).items) 4 with
  | .ok bs => s.entryId n (leNat bs)
  | .error _ => none

/-- A write to an entry is pending: a front job that has begun names it next (R392). -/
def State.pendingWrite (s : State) (b i : Nat) : Option Job :=
  s.earFronts.find? fun j =>
    (descN j.desc 0 1 == 3 || descN j.desc 0 1 == 4) && s.earBegun j.id && s.earLive j && s.nextEntry j == some (b, i)

/-! ### Searches -/

/-- Count a search of a table. -/
def State.countSearch (s : State) (n : Nat) : State :=
  (s.tableBanks n).foldl (fun t b => t.bump (R.BANK.SEARCHES_COUNT b)) (s.bump R.EARMARK.SEARCHES_COUNT)

/-- A checked search (R392): a winner that differs from its shadow is rewritten and the search repeated. A write to the winner that is
pending has the search repeated too, at most 4 times and with no repair; whether it commits in between is free (log entry 85). After
the fourth repeat the result is unverified. The answer holds the winner, the matches, whether an entry was repaired, and whether it is
verified; the fuel bounds the repairs by the entries of a table. -/
def State.checkedSearch (n : Nat) (key mask : List Nat) (skip : List (Nat × Nat)) : Nat → Nat → Bool → State →
    Option ((Nat × Nat × EEnt) × List (Nat × Nat × EEnt) × Bool × Bool) × State
  | 0, _, _, s => (none, s)
  | f + 1, again, rep, s =>
    let ms := s.matches n key mask skip
    match winner ms with
    | none => (none, s)
    | some w =>
      match s.pendingWrite w.1 w.2.1 with
      | some j =>
        if again = 0 then (some (w, ms, rep, false), s)
        else
          let r := s.fresh
          State.checkedSearch n key mask skip f (again - 1) rep (if r.1 % 2 = 0 then r.2 else r.2.earWriteOne j)
      | none =>
        let wd := s.bankWidth w.1
        let sh := entAt (s.bank w.1).shadow wd w.2.1
        if sh = w.2.2 then (some (w, ms, rep, true), s)
        else
          let t := s.modBank w.1 fun k => { k with array := entSet k.array wd w.2.1 sh }
          State.checkedSearch n key mask skip f again true (t.countRepair w.1 (w.2.1 * wd) false)

/-- One search: its result word, its winner, and the state with its counts (R381-R383, R392). -/
def State.search1 (s : State) (n : Nat) (key mask : List Nat) (skip : List (Nat × Nat)) (checked : Bool) :
    Nat × Option (Nat × Nat × EEnt) × State :=
  let s := s.countSearch n
  let fin := fun (w : Nat × Nat × EEnt) (ms : List (Nat × Nat × EEnt)) (rep ver : Bool) (t : State) =>
    let t := t.bump (R.BANK.HITS_COUNT w.1)
    let t := if t.ear.index.contains w.1 then
        t.setEar fun e => { e with searched := assocSet e.searched (w.2.2.vals.getD 1 0) t.time } else t
    (resultWord w ms ver rep, some w, t)
  if checked then
    match State.checkedSearch n key mask skip 131076 4 false s with
    | (none, t) => (0, none, t)
    | (some (w, ms, rep, ver), t) => fin w ms rep ver t
  else
    let ms := s.matches n key mask skip
    match winner ms with
    | none => (0, none, s)
    | some w => fin w ms false false s

/-! ### Trigger rules -/

/-- The rule search of a summary key (R137, R397): SOURCE_TAG and class of the winner. -/
def State.ruleHit (s : State) (key : List Nat) : Option (Nat × Nat) × State :=
  let n := s.get R.TRIG.RULE_CFG_TABLE
  let bs := s.tableBanks n
  if bs.isEmpty || bs.any s.bankRetired || !(s.bankOwner n == 0x1F0 || s.bit (R.BANK.BANK_CFG_TRIG_SHARE n)) then
    let quiet := match s.ear.denied with | some d => decide (s.time < d + 1000000000) | none => false
    if quiet then (none, s)
    else (none, (s.setEar fun e => { e with denied := some s.time }).record 0x30 E.EARMARK_TABLE_DENIED (earInfo n 0 0x1F1) 0x1F1)
  else
    let w := s.bankWidth n
    let words := (List.range w).map fun j => key.getD (2 * j) 0 + key.getD (2 * j + 1) 0 * 2 ^ 32
    let r := s.search1 n words (List.replicate w (2 ^ 64 - 1)) [] (s.bit R.TRIG.RULE_CFG_CHECKED)
    match r.2.1 with
    | none => (none, r.2.2)
    | some x => (some (x.2.1 % 4096 + (bs.findIdx (· == x.1)) % 16 * 4096, x.2.2.cls), r.2.2)

/-! ### The frame index -/

/-- The banks of INDEX_BANKS become the frame index at boot: owned by the firmware, width 4, one table (R398). -/
def State.formIndex (s : State) : State :=
  let bs := (List.range 32).filter fun b => bitAt (s.get R.EARMARK.INDEX_BANKS_MASK) b
  let head := bs.headD 0
  let t := bs.foldl (fun t b => t.puts [(R.BANK.BANK_CFG_WIDTH b, 2), (R.BANK.BANK_CFG_TABLE b, head), (R.BANK.BANK_OWNER_FUNC b, 0x1F0),
    (R.BANK.BANK_OWNER_INDEX b, 1), (R.BANK.BANK_STATUS_HEAD b, b2n (b == head))]) s
  t.setEar fun e => { e with index := bs }

/-- Lowest bits over which the capture times of a span differ (R398). -/
def spanBits (tmin tmax : Nat) : Nat := if tmin = tmax then 0 else Nat.log2 (tmin ^^^ tmax) + 1

/-- Two key words as one unit. -/
def keyUnit (key : List Nat) (j : Nat) : Nat := key.getD (2 * j) 0 % 2 ^ 32 + key.getD (2 * j + 1) 0 % 2 ^ 32 * 2 ^ 32

/-- Bits on which every value of a list agrees with the first. -/
def agree (v : Nat) (vs : List Nat) : Nat := (2 ^ 64 - 1) ^^^ (vs.foldl (fun m x => m ||| (x ^^^ v)) 0)

/-- The entry of a span of frames: capture times and keys (R398). -/
def spanEntry (takeId : Nat) (fs : List (Nat × List Nat)) : EEnt :=
  let ts := fs.map (·.1)
  let tmin := ts.foldl min (ts.headD 0)
  let tmax := ts.foldl max 0
  let p := spanBits tmin tmax
  let u := fun j => keyUnit (fs.headD (0, [])).2 j
  let care := fun j => agree (u j) (fs.map fun f => keyUnit f.2 j)
  ⟨0, true, [tmin / 2 ^ p * 2 ^ p, takeId, u 0, u 1], [2 ^ 64 - 2 ^ p, 2 ^ 64 - 1, care 0, care 1]⟩

/-- The first free entry of the frame index. -/
def State.indexFree (s : State) : Option (Nat × Nat) :=
  (s.ear.index.filter fun b => !s.bankRetired b).findSome? fun b =>
    ((List.range 1024).find? fun i => (assoc (s.bank b).shadow i).isNone).map fun i => (b, i)

/-- Remove frame-index entries (R399). -/
def State.dropSpans (s : State) (p : ESpan → Bool) : State :=
  let gone := s.ear.spans.filter p
  let t := gone.foldl (fun t x => t.writeEnt x.bank x.index (EEnt.zero 4)) s
  t.setEar fun e => { e with spans := e.spans.filter fun x => !p x }

/-- The take of an id is open, or is a kept take still being copied. -/
def State.takeOpenId (s : State) (id : Nat) : Bool :=
  (match s.take.c with | some c => c.takeId == id | none => false)
    || s.ns.any fun n => match n.tk with | some k => k.takeId == id && k.opened | none => false

/-- Enter a span of a take in the frame index; a full index gives up the spans of the least recently searched closed take
(R398, R399); those of an open take stay. -/
def State.enterSpan (s : State) (takeId off : Nat) (fs : List (Nat × List Nat)) : State :=
  if fs.isEmpty || s.ear.index.isEmpty then s
  else
    let s : State := match s.indexFree with
      | some _ => s
      | none =>
        let ids := (s.ear.spans.map (·.takeId)).filter fun i => i != takeId && !s.takeOpenId i
        match ids with
        | [] => s
        | i :: is =>
          let old := is.foldl (fun m x => if (assoc s.ear.searched x).getD 0 < (assoc s.ear.searched m).getD 0 then x else m) i
          s.dropSpans (·.takeId == old)
    match s.indexFree with
    | none => s
    | some p => (s.writeEnt p.1 p.2 (spanEntry takeId fs)).setEar fun e => { e with spans := e.spans ++ [⟨p.1, p.2, takeId, off⟩] }

/-! ### BANK_CFG -/

/-- The origin is the owner function of a bank or the system firmware (R380). -/
def State.mayConfig (s : State) (o : Origin) (b : Nat) : Bool :=
  match o with
  | .firmware => true
  | .pcie f => s.bankOwner b == f
  | _ => false

/-- A write of BANK_CFG changes WIDTH or TABLE. -/
def State.bankCfgChanges (s : State) (b width table : Nat) : Bool :=
  width != s.get (R.BANK.BANK_CFG_WIDTH b) || table != s.bankTable b

/-- A write of BANK_CFG is refused where it would break R379, change WIDTH or TABLE of a head with members, or come from elsewhere
(R380). -/
def State.bankCfgBad (s : State) (o : Origin) (b width table : Nat) : Bool :=
  let member := table == b || (decide (table < b) && s.bankTable table == table && s.bankOwner table == s.bankOwner b
    && s.get (R.BANK.BANK_CFG_WIDTH table) == width)
  let heads := (List.range 32).any fun c => c != b && s.bankTable c == b
  !s.mayConfig o b || !member || (s.bankCfgChanges b width table && heads)

/-- A write of BANK_CFG: a change of WIDTH or TABLE clears the bank and its shadow (R380). -/
def State.setBankCfg (s : State) (b width table : Nat) (share : Bool) : State :=
  let t := s.puts [(R.BANK.BANK_CFG_WIDTH b, width), (R.BANK.BANK_CFG_TABLE b, table),
    (R.BANK.BANK_CFG_TRIG_SHARE b, b2n share), (R.BANK.BANK_STATUS_HEAD b, b2n (table == b))]
  if s.bankCfgChanges b width table then t.clearBank b else t

/-- A shadow entry is lost, with its array entry (R394); an entry of the frame index is written again from the INDEX records. -/
def State.loseEnt (s : State) (b i row : Nat) : State :=
  let w := s.bankWidth b
  let t := s.modBank b fun k => { k with array := entSet k.array w i (EEnt.zero w), shadow := entSet k.shadow w i (EEnt.zero w) }
  let t := (t.bump (R.BANK.SHADOW_LOST_COUNT b)).bump R.EARMARK.SHADOW_LOST_COUNT
  let t := (t.pulse (0x40 + b) Ev.BANK.SHADOW_LOST).pulse 0x30 Ev.EARMARK.SHADOW_LOST
  let t := t.record (0x40 + b) E.EARMARK_SHADOW_LOST (earInfo b row (s.bankOwner b)) (s.bankOwner b)
  if s.ear.spans.any fun x => x.bank == b && x.index == i then t.writeEnt b i (entAt (s.bank b).shadow w i) else t

end Sys2Proof.Machine
end

