-- ==== Sys2Proof/Machine/GateCredit.lean ====
section
/-!
DEFINITION. The credits the Gate advertises and what withholds them (R65-R69).
-/

namespace Sys2Proof.Machine

/-- TYPE of a packet (R70). -/
def pktType (p : Bytes) : Nat := (p.getD 0 0).toNat

/-- Received FRAME_DATA packets waiting. -/
def GateSt.dataWaiting (g : GateSt) : Nat := (g.rxBuf.filter (pktType · == 0x11)).length

/-- Received packets of the CTRL class waiting. -/
def GateSt.ctrlWaiting (g : GateSt) : Nat := (g.rxBuf.filter fun p => pktType p != 0x11 && pktType p != 0x3F).length

/-- DATA credits are withheld for a cause of R69. -/
def State.dataHeld (s : State) : Bool :=
  s.bit R.GATE.CREDIT_STATE_HELD_BREACH || s.bit R.GATE.CREDIT_STATE_HELD_PWRFAIL || s.bit R.GATE.CREDIT_STATE_HELD_RETRAIN
    || s.bit R.GATE.CREDIT_STATE_HELD_PERTURB

/-- The advertised limits follow the counts received and the free places (R67); CL_DATA stands still under a hold (R69) and
while a take closes (R111). -/
def State.advance (s : State) : State :=
  let held := s.dataHeld
  let stop := held || s.get R.TAKE.TAKE_STATE_STATE == 4
  let t := s.setGate fun g =>
    { g with advCtrl := g.rxCtrl + (64 - g.ctrlWaiting),
             advData := if stop then g.advData else max g.advData (g.rxData + (8192 - g.dataWaiting)) }
  t.level 0x10 Ev.GATE.CREDITS_HELD held

/-- Set one hold of R69. -/
def State.hold (s : State) (f : Fld) (b : Bool) : State := (s.putBit f b).advance

end Sys2Proof.Machine
end

