-- ==== Sys2Proof/Machine/TrustBase.lean ====
section
/-!
DEFINITION. Operations of roles, the audit log and perturbation that other blocks call (R585-R601).
-/

namespace Sys2Proof.Machine

/-- Pages that implement PERTURB_SEL (R37, R598). -/
def perturbPages : List Nat :=
  [0x10] ++ (List.range 12).map (0x18 + ·) ++ (List.range 32).map (0x40 + ·) ++ (List.range 32).map (0x80 + ·)
    ++ (List.range 4).map (0xA0 + ·) ++ [0xC0]

/-- Bit n−1 of PERTURB.ACTIVE: profile n is named by a page (R602). -/
def State.activeProfiles (s : State) : Nat :=
  ((List.range 15).filter fun i => perturbPages.any fun p => s.get (H.POINT p) == i + 1).foldl (fun v i => v + 2 ^ i) 0

/-- Causes of ACTION 0x0041, in the order of R601. -/
inductive PerturbEnd where
  | kill | role | powerFail | alarm | safe | reset
deriving DecidableEq, Repr

/-- The code of a cause (log entry 14). -/
def PerturbEnd.toCode : PerturbEnd → Nat
  | .kill => 0 | .role => 1 | .powerFail => 2 | .alarm => 3 | .safe => 4 | .reset => 5

/-- All perturbation ends: every POINT and ARM return to 0, a hold of the Gate's credits for it ends (R69), and an entry of ACTION
0x0041 is appended (R601). -/
def State.endPerturb (s : State) (cause : PerturbEnd) : State :=
  if s.get R.PERTURB.CTRL_ARM = 0 ∧ perturbPages.all (fun p => s.get (H.POINT p) == 0) then s
  else
    let o := s.trust.armOrigin.getD .firmware
    let t := s.audit o (s.roleByte o) 0x0041 0 (leBytes 1 cause.toCode)
    let t := perturbPages.foldl (fun u p => if u.get (H.POINT p) = 0 then u else u.put (H.POINT p) 0) t
    let t := (t.put R.PERTURB.CTRL_ARM 0).hold R.GATE.CREDIT_STATE_HELD_PERTURB false
    let t := t.setTrust fun x => { x with armOrigin := none, injected := [], delays := [] }
    t.pulse 9 Ev.PERTURB.ENDED

/-- Causes for which a role ends, in the order of R592. -/
inductive RoleEnd where
  | drop | idle | functionReset | linkDown | manager | reset
deriving DecidableEq, Repr

/-- The code of a cause of ACTION 0x0002 (R594). -/
def RoleEnd.toCode : RoleEnd → Nat
  | .drop => 0 | .idle => 1 | .functionReset => 2 | .linkDown => 3 | .manager => 4 | .reset => 5

/-- ROLE number (R593). -/
def Role.num : Role → Nat
  | .operator => 0 | .installer => 1 | .maker => 2

/-- HOLDERS shows who holds installer and maker (R602). -/
def State.showHolders (s : State) : State :=
  let i := s.trust.sessions.find? (·.role == .installer)
  let m := s.trust.sessions.find? (·.role == .maker)
  s.puts [(R.ROLE.HOLDERS_INST_ORIGIN, (i.map (originCode ·.origin)).getD 0), (R.ROLE.HOLDERS_INST_HELD, b2n i.isSome),
    (R.ROLE.HOLDERS_MAKER_ORIGIN, (m.map (originCode ·.origin)).getD 0), (R.ROLE.HOLDERS_MAKER_HELD, b2n m.isSome)]

/-- SHARE.OWNER fields of RTC comparator `k`, resource k + 1 (R614). -/
def State.freeComparator (s : State) (r : Nat) : State :=
  s.puts [(R.SHARE.OWNER_STATE r, 0), (R.SHARE.OWNER_ORIGIN r, 0), (R.SHARE.OWNER_FUNC r, 0), (R.SHARE.OWNER_BLOCK r, 0)]

/-- The comparators an origin holds, as resource numbers. -/
def State.comparatorsOf (s : State) (o : Origin) : List Nat :=
  [1, 2, 3, 4].filter fun r => s.get (R.SHARE.OWNER_STATE r) == 1 && s.get (R.SHARE.OWNER_ORIGIN r) == originCode o
    && s.get (R.SHARE.OWNER_FUNC r) == originFunc o

/-- A held role of an origin ends (R592): the entry of ACTION 0x0002, the end of perturbation it armed (R601), and the
release of RTC comparators held under it (R614). -/
def State.endRole (s : State) (x : Session) (cause : RoleEnd) : State :=
  let t := s.audit x.origin x.role.num 0x0002 0 (leBytes 1 cause.toCode)
  let t := if t.trust.armOrigin = some x.origin ∧ x.role ≠ .operator then t.endPerturb .role else t
  let t := t.setTrust fun u => { u with sessions := u.sessions.filter (· ≠ x) }
  let t := if t.holds x.origin .operator then t
    else (t.comparatorsOf x.origin).foldl (fun u r => (u.freeComparator r).pulse 0xA Ev.SHARE.RELEASED) t
  t.showHolders

/-- Every role of an origin ends. -/
def State.endRolesOf (s : State) (o : Origin) (cause : RoleEnd) : State :=
  (s.trust.sessions.filter (·.origin == o)).foldl (fun t x => t.endRole x cause) s

/-- An origin gains a role (R589, R590): METHOD 0 challenge, 1 credential, 2 Gate rights, 3 OPERATOR_OPEN. -/
def State.gainRole (s : State) (o : Origin) (r : Role) (method : Nat) : State :=
  let t := s.audit o r.num 0x0001 0 (leBytes 1 r.num ++ leBytes 1 method)
  let t := t.setTrust fun u =>
    { u with sessions := (u.sessions.filter fun x => !(x.origin == o && x.role == r)) ++ [⟨o, r, s.time⟩] }
  t.showHolders.pulse 6 Ev.ROLE.GAINED

/-- Lifetime of perturbation, role lapses and audits aside: the lockout record of a role (R591). -/
def State.lockout (s : State) (r : Role) : Lockout := s.trust.lockouts.getD r.num ⟨0, 0, 0⟩

/-- Set the lockout record of a role. -/
def State.setLockout (s : State) (r : Role) (l : Lockout) : State :=
  s.setTrust fun u => { u with lockouts := modAt u.lockouts r.num fun _ => l }

end Sys2Proof.Machine
end

