-- ==== Sys2Proof/Machine/GateOps.lean ====
section
/-!
DEFINITION. The Gate port's shared operations: credits, packets, acknowledgement and replay, widths, and the consequences of
a link-down (R51-R89).
-/

namespace Sys2Proof.Machine

/-! ### Link -/

/-- The link is in ACTIVE (R89). -/
def State.gateActive (s : State) : Bool := s.get R.GATE.LINK_STATUS_LTSSM == 4

/-- The link is retraining (R89). -/
def State.gateRetrain (s : State) : Bool := s.get R.GATE.LINK_STATUS_LTSSM == 5

/-- Lanes of a width encoding (R89). -/
def widthLanes (w : Nat) : Nat := if w = 3 then 16 else if w = 2 then 8 else if w = 1 then 4 else 0

/-- Every lane of a group is in the mask. -/
def groupOk (ok first n : Nat) : Bool := (List.range n).all fun i => bitAt ok (first + i)

/-- The lowest-numbered group of the widest width that R54 allows with the good lanes and MAX_WIDTH: width and first lane. 'No lane
above MAX_WIDTH' is read as lanes 0 to its width less 1, so under x8 the group 8-15 is never used (DEDUCED, log entry 24). -/
def chooseGroup (ok maxw : Nat) : Option (Nat × Nat) :=
  ([(3, 0), (2, 0), (2, 8), (1, 0), (1, 4), (1, 8), (1, 12)]).find? fun g =>
    g.1 ≤ maxw && g.2 + widthLanes g.1 ≤ widthLanes maxw && groupOk ok g.2 (widthLanes g.1)

/-- Set LINK_STATUS for a link in ACTIVE. -/
def State.setActive (s : State) (g : Nat × Nat) : State :=
  (s.puts [(R.GATE.LINK_STATUS_WIDTH, g.1), (R.GATE.LINK_STATUS_ACTIVE, 1), (R.GATE.LINK_STATUS_LTSSM, 4)]).setGate
    fun x => { x with group := g.2 }

/-- ERR_INFO of a frame condition: stream and FRAME_NUMBER[15:0] (R88). -/
def frameInfo (stream number : Nat) : Nat := stream % 8 + (number % 65536) * 8

/-- Record a frame condition of the Gate, with its event where it has one (R88, R644). -/
def State.gateErr (s : State) (code : Nat) (stream number : Nat) : State :=
  s.record 0x10 code (frameInfo stream number) 0x1F1 number

/-! ### The receive buffer -/

/-- Remove the first element that satisfies `p`. -/
def removeFirst {α : Type} (p : α → Bool) : List α → List α
  | [] => []
  | x :: xs => if p x then xs else x :: removeFirst p xs

/-- The packet leaves the receive buffer for the take path, if it waits there, and its place frees (R67). -/
def State.leaveRx (s : State) (p : Bytes → Bool) : State :=
  (s.setGate fun g => { g with rxBuf := removeFirst p g.rxBuf }).advance

/-- Unanswered tunnel requests (R84): those that wait in the receive buffer, and those whose answer, other than busy, has not left. -/
def GateSt.unanswered (g : GateSt) : Nat :=
  (g.rxBuf.filter (pktType · == 0x30)).length + (g.txq.filter fun p => pktType p == 0x31 && (p.getD 6 0).toNat != 3).length

/-- The tunnel serves requests (R85). -/
def State.tunnelOpen (s : State) : Bool := s.get R.GATE.TUNNEL_CTRL_RIGHTS != 0 && s.get R.GATE.TUNNEL_CTRL_TUNNEL_EN == 1

/-- Queue a device packet. -/
def State.send (s : State) (p : Bytes) : State := s.setGate fun g => { g with txq := g.txq ++ [p] }

/-- The common header of a device packet (R70). -/
def pktHeader (ty stream len : Nat) : Bytes := leBytes 1 ty ++ leBytes 1 stream ++ leBytes 2 len

/-- CTRL_RSP (R83). -/
def rspPkt (tag status err data : Nat) : Bytes :=
  pktHeader 0x31 0 24 ++ leBytes 2 tag ++ leBytes 1 status ++ [0] ++ leBytes 2 err ++ leBytes 2 0 ++ leBytes 8 data ++ leBytes 4 0

/-- LEN range of a packet a camera may send (R71). -/
def cameraLen : Nat → Option (Nat × Nat)
  | 0x01 => some (32, 32) | 0x03 => some (16, 16) | 0x10 => some (32, 32) | 0x11 => some (13, 236) | 0x12 => some (24, 24)
  | 0x18 => some (9, 236) | 0x20 => some (24, 24) | 0x30 => some (24, 24) | 0x3F => some (32, 32) | _ => none

/-- One packet received: its credit is checked and it takes a place in the receive buffer (R65-R68). A tunnel request beyond 16
unanswered ones is answered busy and leaves its place at once (R84). -/
def State.takeIn (s : State) (p : Bytes) : State :=
  if pktType p = 0x3F then s.setGate fun g => { g with rxBuf := g.rxBuf ++ [p] }
  else if pktType p = 0x11 then
    let t := s.setGate fun g => { g with rxData := g.rxData + 1 }
    if s.gate.rxData < s.gate.advData then t.setGate fun g => { g with rxBuf := g.rxBuf ++ [p] }
    else (t.setGate fun g => { g with advData := g.advData + 1 }).record 0x10 E.GATE_CREDIT_OVERRUN 0 0x1F1
  else
    let t := s.setGate fun g => { g with rxCtrl := g.rxCtrl + 1 }
    if s.gate.rxCtrl < s.gate.advCtrl ∧ pktType p = 0x30 ∧ s.tunnelOpen ∧ 16 ≤ s.gate.unanswered then
      t.send (rspPkt (leNat (sliceBytes p 4 2)) 3 0 0)
    else if s.gate.rxCtrl < s.gate.advCtrl then t.setGate fun g => { g with rxBuf := g.rxBuf ++ [p] }
    else (t.setGate fun g => { g with advCtrl := g.advCtrl + 1 }).record 0x10 E.GATE_CREDIT_OVERRUN 0 0x1F1

/-- Receive the packets of a packet area in order (R70, R71). The fuel bounds their number. -/
def State.parseArea : Nat → State → Bytes → State
  | 0, s, _ => s
  | f + 1, s, a =>
    if a.length < 4 ∨ pktType a = 0 then s
    else
      let len := leNat (sliceBytes a 2 2)
      match cameraLen (pktType a) with
      | none => s.record 0x10 E.GATE_BAD_PACKET 0 0x1F1
      | some (lo, hi) =>
        if len < lo ∨ hi < len ∨ a.length < len then s.record 0x10 E.GATE_BAD_PACKET 0 0x1F1
        else State.parseArea f (s.takeIn (a.take len)) (a.drop len)

/-! ### Sending -/

/-- A link area (R60): SEQ, FTYPE, ACKSEQ, ACKT, CL_DATA, CL_CTRL, LSTATE. -/
def linkArea (seq ftype ackseq ackt clData clCtrl lstate : Nat) : Nat :=
  seq % 1024 + ftype * 2 ^ 10 + ackseq % 1024 * 2 ^ 12 + ackt * 2 ^ 22 + clData % 65536 * 2 ^ 24 + clCtrl % 256 * 2 ^ 40 + lstate * 2 ^ 48

/-- The link area of the Gate's next flit: what it acknowledges and the limits it advertises (R60, R63, R67). -/
def GateSt.linkArea (g : GateSt) (seq ftype lstate : Nat) : Nat :=
  Machine.linkArea seq ftype g.rxSeq g.ackOut g.advData g.advCtrl lstate

/-- Send one payload flit: it takes the next SEQ and stays in the replay buffer until acknowledged (R60, R62, R64). -/
def State.payload (s : State) (ps : List Bytes) : State :=
  s.setGate fun g =>
    let q := (g.txSeq + 1) % 1024
    let f : TxFlit := ⟨q, ps, g.linkArea q 0 0⟩
    { g with txSeq := q, replay := g.replay ++ [f], sent := some f, ackOut := 0, ackFrom := if g.replay.isEmpty then s.time else g.ackFrom }

/-- Send an idle flit: it repeats the last SEQ, its packet area is all zero, and its link area carries what is due (R60). -/
def State.idleFlit (s : State) (lstate : Nat) : State :=
  s.setGate fun g => { g with sent := some ⟨g.txSeq, [], g.linkArea g.txSeq 1 lstate⟩, ackOut := 0 }

/-- The link areas sent so far do not carry the present limits. -/
def GateSt.limitsNew (g : GateSt) : Bool :=
  match g.sent with
  | some f => bits f.link 24 16 != g.advData % 65536 || bits f.link 40 8 != g.advCtrl % 256
  | none => false

/-- The camera's limit admits one more CTRL packet, in modular order (R66). -/
def GateSt.mayCtrl (g : GateSt) : Bool :=
  match g.limCtrl with
  | some l => (l + 256 - (g.txCtrl + 1) % 256) % 256 < 128
  | none => false


/-- TAKE_GRANT (R73). -/
def grantPkt (reqId result reason takeId rate duration cap lee : Nat) : Bytes :=
  pktHeader 0x02 0 40 ++ leBytes 2 reqId ++ leBytes 1 result ++ leBytes 1 reason ++ leBytes 8 takeId ++ leBytes 4 rate
    ++ leBytes 4 duration ++ leBytes 8 cap ++ leBytes 4 lee ++ leBytes 4 0

/-- TAKE_CLOSED (R75). -/
def closedPkt (takeId reason digestLen frames raw stored marked : Nat) (top : Bytes) : Bytes :=
  pktHeader 0x04 0 112 ++ leBytes 8 takeId ++ leBytes 1 reason ++ leBytes 1 digestLen ++ leBytes 2 0 ++ leBytes 8 frames
    ++ leBytes 8 raw ++ leBytes 8 stored ++ leBytes 8 marked ++ padTo 64 top

/-- FRAME_ACK (R80). -/
def ackPkt (stream number status marks stored time : Nat) : Bytes :=
  pktHeader 0x13 stream 32 ++ leBytes 8 number ++ leBytes 1 status ++ leBytes 1 marks ++ leBytes 2 0 ++ leBytes 5 stored
    ++ leBytes 3 0 ++ leBytes 8 time

/-! ### Acknowledgement -/

/-- An ACK or NAK names `a`: the flits up to it leave the replay buffer (R63). -/
def ackReplay (a : Nat) (l : List TxFlit) : List TxFlit := l.filter fun f => (a + 1024 - f.seq) % 1024 ≥ 512

/-- All unacknowledged flits are sent again (R63, R64). -/
def State.resend (s : State) : State :=
  (s.bump R.GATE.FLITS_REPLAYED_COUNT s.gate.replay.length).setGate fun g => { g with ackFrom := s.time }

/-- A retrain begins: a flit with LSTATE 1 asks the camera for it, and credits are held until it ends (R56, R60, R69). -/
def State.beginRetrain (s : State) : State :=
  ((s.idleFlit 1).puts [(R.GATE.LINK_STATUS_LTSSM, 5), (R.GATE.LINK_STATUS_ACTIVE, 0)]).hold R.GATE.CREDIT_STATE_HELD_RETRAIN true

/-- A replay of all unacknowledged flits: the fourth in a row without progress retrains the link at its width (R64). -/
def State.replayAll (s : State) : State :=
  if s.gate.replay.isEmpty then s
  else
    let t := s.resend.setGate fun g => { g with replays := g.replays + 1 }
    if t.gate.replays < 4 then t
    else ((t.pulse 0x10 Ev.GATE.REPLAY_LIMIT).record 0x10 E.GATE_REPLAY_LIMIT 0 0x1F1).beginRetrain

/-- The acknowledgement part of a link area is applied (R60, R63): a NAK has the flits after it sent again. -/
def State.applyAck (s : State) (ackt ackseq : Nat) : State :=
  if ackt = 0 then s
  else
    let left := ackReplay ackseq s.gate.replay
    let moved := left.length < s.gate.replay.length
    let t := s.setGate fun g => { g with replay := left, replays := if moved then 0 else g.replays, ackFrom := if moved then s.time else g.ackFrom }
    if ackt = 2 then t.replayAll else t

/-- The camera's credit limits are applied; a stale one is ignored (R66). -/
def State.applyLimits (s : State) (clData clCtrl : Nat) : State :=
  s.setGate fun g =>
    { g with limCtrl := match g.limCtrl with
               | none => some clCtrl
               | some l => if (clCtrl + 256 - l) % 256 < 128 then some clCtrl else some l,
             limData := if (clData + 65536 - g.limData) % 65536 < 32768 then clData else g.limData }

/-- The packets of unacknowledged flits that a link-down holds to send again: FRAME_ACK, TAKE_GRANT and TAKE_CLOSED (R58). -/
def GateSt.heldBack (g : GateSt) : List Bytes :=
  (g.replay.flatMap (·.packets)).filter fun p => pktType p == 0x13 || pktType p == 0x02 || pktType p == 0x04

/-- The link goes down, for the link (R56, R58): replay ends, its unacknowledged FRAME_ACK, TAKE_GRANT and TAKE_CLOSED go
to the front of the queue, tunnel answers and unexecuted requests are lost, and the tunnel's roles end (R592). -/
def State.linkReset (s : State) : State :=
  let t := s.puts [(R.GATE.LINK_STATUS_LTSSM, 0), (R.GATE.LINK_STATUS_ACTIVE, 0), (R.GATE.LINK_STATUS_WIDTH, 0)]
  let t := t.setGate fun g =>
    { g with txq := g.heldBack ++ g.txq.filter (pktType · != 0x31),
             rxBuf := g.rxBuf.filter fun p => pktType p != 0x30 && pktType p != 0x3F,
             replay := [], sent := none, fec := [], replays := 0, nakked := false, ackOut := 0, hbTimes := [], mayTrain := true, limCtrl := none, failedAt := none }
  let t := t.hold R.GATE.CREDIT_STATE_HELD_RETRAIN false
  let rights := s.get R.GATE.TUNNEL_CTRL_RIGHTS != 0 && (s.gateActive || s.gateRetrain)
  let t := if rights then t.audit .gate 0 0x0002 0 (leBytes 1 RoleEnd.linkDown.toCode) else t
  (t.endRolesOf .gate .linkDown).pulse 0x10 Ev.GATE.LINK_DOWN

end Sys2Proof.Machine
end

