-- ==== Sys2Proof/Machine/Aes.lean ====
section
/-!
DEFINITION. AES-256 and its modes: XTS with ciphertext stealing, GCM, CMAC, the SP 800-108 counter derivation and AES key
wrap (R403, R410-R414, R418, R422).
-/

namespace Sys2Proof.Machine

/-- The AES S-box, first half. -/
def aesSboxLo : List Nat :=
  [0x63, 0x7c, 0x77, 0x7b, 0xf2, 0x6b, 0x6f, 0xc5, 0x30, 0x1, 0x67, 0x2b, 0xfe, 0xd7, 0xab, 0x76,
   0xca, 0x82, 0xc9, 0x7d, 0xfa, 0x59, 0x47, 0xf0, 0xad, 0xd4, 0xa2, 0xaf, 0x9c, 0xa4, 0x72, 0xc0,
   0xb7, 0xfd, 0x93, 0x26, 0x36, 0x3f, 0xf7, 0xcc, 0x34, 0xa5, 0xe5, 0xf1, 0x71, 0xd8, 0x31, 0x15,
   0x4, 0xc7, 0x23, 0xc3, 0x18, 0x96, 0x5, 0x9a, 0x7, 0x12, 0x80, 0xe2, 0xeb, 0x27, 0xb2, 0x75,
   0x9, 0x83, 0x2c, 0x1a, 0x1b, 0x6e, 0x5a, 0xa0, 0x52, 0x3b, 0xd6, 0xb3, 0x29, 0xe3, 0x2f, 0x84,
   0x53, 0xd1, 0x0, 0xed, 0x20, 0xfc, 0xb1, 0x5b, 0x6a, 0xcb, 0xbe, 0x39, 0x4a, 0x4c, 0x58, 0xcf,
   0xd0, 0xef, 0xaa, 0xfb, 0x43, 0x4d, 0x33, 0x85, 0x45, 0xf9, 0x2, 0x7f, 0x50, 0x3c, 0x9f, 0xa8,
   0x51, 0xa3, 0x40, 0x8f, 0x92, 0x9d, 0x38, 0xf5, 0xbc, 0xb6, 0xda, 0x21, 0x10, 0xff, 0xf3, 0xd2]

/-- The AES S-box, second half. -/
def aesSboxHi : List Nat :=
  [0xcd, 0xc, 0x13, 0xec, 0x5f, 0x97, 0x44, 0x17, 0xc4, 0xa7, 0x7e, 0x3d, 0x64, 0x5d, 0x19, 0x73,
   0x60, 0x81, 0x4f, 0xdc, 0x22, 0x2a, 0x90, 0x88, 0x46, 0xee, 0xb8, 0x14, 0xde, 0x5e, 0xb, 0xdb,
   0xe0, 0x32, 0x3a, 0xa, 0x49, 0x6, 0x24, 0x5c, 0xc2, 0xd3, 0xac, 0x62, 0x91, 0x95, 0xe4, 0x79,
   0xe7, 0xc8, 0x37, 0x6d, 0x8d, 0xd5, 0x4e, 0xa9, 0x6c, 0x56, 0xf4, 0xea, 0x65, 0x7a, 0xae, 0x8,
   0xba, 0x78, 0x25, 0x2e, 0x1c, 0xa6, 0xb4, 0xc6, 0xe8, 0xdd, 0x74, 0x1f, 0x4b, 0xbd, 0x8b, 0x8a,
   0x70, 0x3e, 0xb5, 0x66, 0x48, 0x3, 0xf6, 0xe, 0x61, 0x35, 0x57, 0xb9, 0x86, 0xc1, 0x1d, 0x9e,
   0xe1, 0xf8, 0x98, 0x11, 0x69, 0xd9, 0x8e, 0x94, 0x9b, 0x1e, 0x87, 0xe9, 0xce, 0x55, 0x28, 0xdf,
   0x8c, 0xa1, 0x89, 0xd, 0xbf, 0xe6, 0x42, 0x68, 0x41, 0x99, 0x2d, 0xf, 0xb0, 0x54, 0xbb, 0x16]

/-- The AES S-box. -/
def aesSbox (x : Nat) : Nat := if x < 128 then aesSboxLo.getD x 0 else aesSboxHi.getD (x - 128) 0

/-- The inverse S-box: the place of `x` in the S-box. -/
def aesInvSbox (x : Nat) : Nat := (aesSboxLo ++ aesSboxHi).findIdx (· == x)

/-- Multiplication by x in GF(2^8) with the AES polynomial. -/
def aesXtime (a : Nat) : Nat := if a < 128 then 2 * a else (2 * a) ^^^ 0x11B

/-- Multiplication in GF(2^8) with the AES polynomial, over `n` bits of the second operand. -/
def aesMul : Nat → Nat → Nat → Nat
  | 0, _, _ => 0
  | n + 1, a, b => (if b % 2 == 1 then a else 0) ^^^ aesMul n (aesXtime a) (b / 2)

/-- The words of the AES-256 key schedule, newest first: `n` words still to make, `i` the number of the next. -/
def aesExpand : Nat → Nat → Nat → List (List Nat) → List (List Nat)
  | 0, _, _, ws => ws
  | n + 1, i, rcon, ws =>
    let t := ws.headD []
    let u := if i % 8 == 0 then
        (match (t.drop 1 ++ t.take 1).map aesSbox with | x :: xs => (x ^^^ rcon) :: xs | [] => [])
      else if i % 8 == 4 then t.map aesSbox else t
    let w := List.zipWith (· ^^^ ·) (ws.getD 7 []) u
    aesExpand n (i + 1) (if i % 8 == 0 then aesXtime rcon else rcon) (w :: ws)

/-- The 15 round keys of AES-256, each 16 bytes, first round first. -/
def aesRoundKeys (key : Bytes) : List (List Nat) :=
  let k := (padTo 32 key).map (·.toNat)
  let w0 := (List.range 8).map fun i => (k.drop (4 * i)).take 4
  let ws := (aesExpand 52 8 1 w0.reverse).reverse
  (List.range 15).map fun r => ((ws.drop (4 * r)).take 4).flatten

/-- AddRoundKey. -/
def aesAddKey (s k : List Nat) : List Nat := List.zipWith (· ^^^ ·) s k

/-- ShiftRows: row `r` of the column-major state moves left by `r`. -/
def aesShiftRows (s : List Nat) : List Nat := (List.range 16).map fun i => s.getD ((i + 4 * (i % 4)) % 16) 0

/-- Inverse ShiftRows. -/
def aesInvShiftRows (s : List Nat) : List Nat := (List.range 16).map fun i => s.getD ((i + 12 * (i % 4)) % 16) 0

/-- MixColumns with a row of the circulant matrix. -/
def aesMix (row : List Nat) (s : List Nat) : List Nat :=
  (List.range 16).map fun i =>
    (List.range 4).foldl (fun acc j => acc ^^^ aesMul 8 (s.getD (4 * (i / 4) + j) 0) (row.getD ((j + 4 - i % 4) % 4) 0)) 0

/-- AES-256 encryption of one block. -/
def aesEncBlock (key block : Bytes) : Bytes :=
  let ks := aesRoundKeys key
  let s0 := aesAddKey ((padTo 16 block).map (·.toNat)) (ks.getD 0 [])
  let s := (List.range 13).foldl (fun s r => aesAddKey (aesMix [2, 3, 1, 1] (aesShiftRows (s.map aesSbox))) (ks.getD (r + 1) [])) s0
  (aesAddKey (aesShiftRows (s.map aesSbox)) (ks.getD 14 [])).map (BitVec.ofNat 8)

/-- AES-256 decryption of one block. -/
def aesDecBlock (key block : Bytes) : Bytes :=
  let ks := aesRoundKeys key
  let s0 := aesAddKey ((padTo 16 block).map (·.toNat)) (ks.getD 14 [])
  let s := (List.range 13).foldl
    (fun s r => aesMix [14, 11, 13, 9] (aesAddKey ((aesInvShiftRows s).map aesInvSbox) (ks.getD (13 - r) []))) s0
  (aesAddKey ((aesInvShiftRows s).map aesInvSbox) (ks.getD 0 [])).map (BitVec.ofNat 8)

/-- The next XTS tweak: multiplication by x in GF(2^128), little-endian. -/
def xtsNext (t : Nat) : Nat := if t < 2 ^ 127 then 2 * t else (2 * t - 2 ^ 128) ^^^ 0x87

/-- One XTS block under tweak `t`. -/
def xtsBlock (enc : Bool) (k1 : Bytes) (t : Nat) (b : Bytes) : Bytes :=
  let tb := leBytes 16 t
  xorBytes ((if enc then aesEncBlock else aesDecBlock) k1 (xorBytes b tb)) tb

/-- XTS over whole blocks and a short last block (ciphertext stealing). -/
def xtsBlocks (enc : Bool) (k1 : Bytes) : List Bytes → Nat → Bytes
  | [], _ => []
  | [b], t => if b.length == 16 then xtsBlock enc k1 t b else b
  | [a, b], t =>
    if b.length == 16 then xtsBlock enc k1 t a ++ xtsBlock enc k1 (xtsNext t) b
    else
      let t1 := if enc then t else xtsNext t
      let t2 := if enc then xtsNext t else t
      let cc := xtsBlock enc k1 t1 a
      xtsBlock enc k1 t2 (b ++ cc.drop b.length) ++ cc.take b.length
  | a :: b :: c :: rest, t => xtsBlock enc k1 t a ++ xtsBlocks enc k1 (b :: c :: rest) (xtsNext t)

/-- AES-256-XTS of one data unit: the 64-byte key holds K1 then K2, `tweak` is the 128-bit unit number (R410). -/
def xtsCrypt (enc : Bool) (key : Bytes) (tweak : Nat) (data : Bytes) : Bytes :=
  xtsBlocks enc (key.take 32) (chunks 16 data) (leNat (aesEncBlock (key.drop 32) (leBytes 16 tweak)))

/-- GHASH multiplication over `n` bits, top bit of `x` first; `v` is the shifted operand. -/
def ghashMulAux : Nat → Nat → Nat → Nat → Nat
  | 0, _, _, z => z
  | n + 1, x, v, z =>
    ghashMulAux n x (if v % 2 == 1 then (v / 2) ^^^ (0xE1 * 2 ^ 120) else v / 2) (if bitAt x n then z ^^^ v else z)

/-- GHASH multiplication in GF(2^128). -/
def ghashMul (x y : Nat) : Nat := ghashMulAux 128 x y 0

/-- GHASH over zero-padded blocks, from value `y0`. -/
def ghash (h : Nat) (y0 : Nat) (bs : Bytes) : Nat := (chunks 16 bs).foldl (fun y b => ghashMul (y ^^^ beNat (padTo 16 b)) h) y0

/-- The counter stream of GCM from counter block `ctr`, over the data's blocks. -/
def gcmCtr (key : Bytes) : List Bytes → Nat → Bytes
  | [], _ => []
  | b :: bs, ctr =>
    let c' := (ctr / 2 ^ 32) * 2 ^ 32 + (ctr + 1) % 2 ^ 32
    xorBytes b ((aesEncBlock key (beBytes 16 c')).take b.length) ++ gcmCtr key bs c'

/-- The pre-counter block of a 96-bit IV. -/
def gcmJ0 (iv : Bytes) : Nat := beNat (padTo 12 iv) * 2 ^ 32 + 1

/-- AES-256-GCM keystream applied to data, for a 96-bit IV (R411). -/
def gcmCrypt (key iv data : Bytes) : Bytes := gcmCtr key (chunks 16 data) (gcmJ0 iv)

/-- The GCM tag over associated data and ciphertext (R414). -/
def gcmTag (key iv aad ct : Bytes) : Bytes :=
  let h := beNat (aesEncBlock key (List.replicate 16 0))
  let y := ghash h (ghash h 0 aad) ct
  let y := ghashMul (y ^^^ (8 * aad.length * 2 ^ 64 + 8 * ct.length)) h
  xorBytes (aesEncBlock key (beBytes 16 (gcmJ0 iv))) (beBytes 16 y)

/-- Doubling in the CMAC field. -/
def cmacDouble (x : Nat) : Nat := if x < 2 ^ 127 then 2 * x else (2 * x - 2 ^ 128) ^^^ 0x87

/-- AES-256-CMAC. -/
def aesCmac (key msg : Bytes) : Bytes :=
  let l := beNat (aesEncBlock key (List.replicate 16 0))
  let bs := chunks 16 msg
  let last := bs.getLastD []
  let k1 := cmacDouble l
  let fin := if bs.isEmpty || last.length < 16 then
      xorBytes (padTo 16 (last ++ [0x80])) (beBytes 16 (cmacDouble k1))
    else xorBytes last (beBytes 16 k1)
  let x := bs.dropLast.foldl (fun x b => aesEncBlock key (xorBytes x b)) (List.replicate 16 0)
  aesEncBlock key (xorBytes x fin)

/-- SP 800-108 in counter mode with AES-256-CMAC: `n` bytes for a label and a context (R422). -/
def kdfCounter (key label context : Bytes) (n : Nat) : Bytes :=
  ((List.range (ceilDiv n 16)).flatMap fun i => aesCmac key (beBytes 4 (i + 1) ++ label ++ [0] ++ context ++ beBytes 4 (8 * n))).take n

/-- One step of AES key wrap, at step number `t`. -/
def kwStep (key : Bytes) (st : Nat × List Bytes) (t : Nat) : Nat × List Bytes :=
  let i := (t - 1) % st.2.length
  let b := aesEncBlock key (beBytes 8 st.1 ++ st.2.getD i [])
  (beNat (b.take 8) ^^^ t, st.2.set i (b.drop 8))

/-- One step of AES key unwrap. -/
def kwUnstep (key : Bytes) (st : Nat × List Bytes) (t : Nat) : Nat × List Bytes :=
  let i := (t - 1) % st.2.length
  let b := aesDecBlock key (beBytes 8 (st.1 ^^^ t) ++ st.2.getD i [])
  (beNat (b.take 8), st.2.set i (b.drop 8))

/-- AES key wrap (RFC 3394) of a key of whole 8-byte pieces. -/
def aesWrap (kek key : Bytes) : Bytes :=
  let r := ((List.range (6 * (key.length / 8))).map (· + 1)).foldl (kwStep kek) (0xA6A6A6A6A6A6A6A6, chunks 8 key)
  beBytes 8 r.1 ++ r.2.flatten

/-- AES key unwrap: none where the integrity check fails. -/
def aesUnwrap (kek wrapped : Bytes) : Option Bytes :=
  let p := chunks 8 (wrapped.drop 8)
  let r := (((List.range (6 * p.length)).map (· + 1)).reverse).foldl (kwUnstep kek) (beNat (wrapped.take 8), p)
  if r.1 == 0xA6A6A6A6A6A6A6A6 then some r.2.flatten else none

end Sys2Proof.Machine
end

