-- ==== Sys2Proof/Machine/Geometry.lean ====
section
/-!
DEFINITION. The flash part's geometry, live dies, the codeword with its scrambler and parity (R192-R194), META (R221), P and Q
(R260, R261), and the placement tables (R263).
-/

namespace Sys2Proof.Machine

/-! ### Population -/

/-- The part in use; before the population is known, a part of no blocks. -/
def State.part (s : State) : NandPart := s.nand.part.getD ⟨0, 3, 4, 16384, 2048, 0, 0, 0, 0, 0, 1, 0, false, false, false⟩

/-- The channel of a global die (R185). -/
def dieChannel (d : Nat) : Nat := d / 16

/-- A channel is ACTIVE (R204). -/
def State.chActive (s : State) (c : Nat) : Bool := s.get (R.NAND.CH_STATUS_STATE c) == 2

/-- Dies per channel, as found. -/
def State.diesPerChannel (s : State) : Nat :=
  ((List.range 32).map fun c => s.get (R.NAND.CH_STATUS_DIES c)).foldl max 0

/-- A die is live: its channel is ACTIVE, it is present, and it is not lost (R91, R279). -/
def State.dieLive (s : State) (d : Nat) : Bool :=
  s.chActive (dieChannel d) && bitAt (s.get (R.NAND.DIE_PRESENT_PRESENT (dieChannel d))) (d % 16) && !s.array.lost.contains d

/-- The live dies in ascending order. -/
def State.liveDies (s : State) : List Nat := (List.range 512).filter s.dieLive

/-- Active channels. -/
def State.activeChannels (s : State) : Nat := ((List.range 32).filter s.chActive).length

/-- Width of a K encoding (R290). -/
def widthOf (e : Nat) : Nat := if e = 0 then 8 else if e = 1 then 12 else if e = 2 then 16 else 24

/-- The width in force (R256). -/
def State.width (s : State) : Nat := widthOf (s.get R.ARRAY.LAYOUT_K)

/-- 4 KiB pieces of a stripe unit: 16 in SLC mode, else planes × page × bits per cell (R257, R258). -/
def State.pieces (s : State) (slc : Bool) : Nat :=
  s.part.planes * s.part.pageBytes * (if slc then 1 else s.part.bitsPerCell) / 4096

/-- Data bytes of a native multi-plane block (R209, R244). -/
def State.blockBytes (s : State) : Nat := s.part.units * s.pieces false * 4096

/-- Blocks of a die that are not factory-marked bad. -/
def State.usable (s : State) (d : Nat) : Nat :=
  s.part.blocks - (s.nand.factoryBad.filter (·.1 == d)).length

/-- Spare blocks that a die holds (R266). -/
def State.spareBlocks (s : State) (d : Nat) : Nat := ceilDiv (4 * s.usable d) 100

/-- The blocks of a die that are not factory-marked bad. -/
def State.goodBlocks (s : State) (d : Nat) : List Nat :=
  (List.range s.part.blocks).filter fun b => !s.nand.factoryBad.contains (d, b)

/-- The spare blocks of a die: its last good ones (R266; log entry 30). -/
def State.isSpare (s : State) (d b : Nat) : Bool :=
  ((s.goodBlocks d).drop (s.usable d - s.spareBlocks d)).contains b

/-- The CE of a die (R185). -/
def dieCe (d : Nat) : Nat := d % 16 % 4

/-- The volume address of a die on its CE (R185). -/
def dieVolume (d : Nat) : Nat := d % 16 / 4

/-- The code in force: parity blocks, hard-decode capability and whether it is code B; none before the population is known
(R192). -/
def NandSt.code (n : NandSt) : Option (Nat × Nat × Bool) :=
  match n.part with
  | none => none
  | some p => if p.spareBytes < 2560 then some (15, 160, false) else some (19, 220, true)

/-- The code in force. -/
def State.codeOf (s : State) : Option (Nat × Nat × Bool) := s.nand.code

/-- The length of a codeword: data, META and 32 bytes for each parity block (R192). -/
def NandSt.cwLen (n : NandSt) : Nat := 4128 + 32 * (match n.code with | some c => c.1 | none => 0)

/-! ### Codewords -/

/-- One step of the scrambler: polynomial x^32 + x^22 + x^2 + x + 1 (R193). -/
def lfsrStep (v : Nat) : Nat :=
  let b := (v / 2 ^ 31 + v / 2 ^ 21 + v / 2 + v) % 2
  (v * 2) % 2 ^ 32 + b

/-- `n` scrambler bytes from a state, least significant bit of each byte first; the emitted bit is the highest one. -/
def scrambleBytes : Nat → Nat → Bytes
  | 0, _ => []
  | n + 1, v =>
    let r := (List.range 8).foldl (fun (p : Nat × Nat) i => (lfsrStep p.1, p.2 + p.1 / 2 ^ 31 % 2 * 2 ^ i)) (v, 0)
    BitVec.ofNat 8 r.2 :: scrambleBytes n r.1

/-- The seed of a codeword (R193). -/
def scrambleSeed (row cw : Nat) : Nat := row % 2 ^ 24 + (cw % 4) * 2 ^ 24 + 2 ^ 31

/-- Data and META under the scrambler (R193). -/
def scramble (row cw : Nat) (bs : Bytes) : Bytes := xorBytes bs (scrambleBytes bs.length (scrambleSeed row cw))

/-- The generator of R194. -/
def ldpcNext (x : Nat) : Nat × Nat := let y := (x * 1103515245 + 12345) % 2 ^ 32; (y / 65536, y)

/-- The rows and shifts of one information block column. The fuel bounds repeated rows. -/
def ldpcColumn (m : Nat) : Nat → Nat → List (Nat × Nat) → List (Nat × Nat) × Nat
  | 0, x, acc => (acc, x)
  | f + 1, x, acc =>
    if 4 ≤ acc.length then (acc, x)
    else
      let a := ldpcNext x
      let r := a.1 % m
      if acc.any (·.1 == r) then ldpcColumn m f a.2 acc
      else
        let b := ldpcNext a.2
        ldpcColumn m f b.2 (acc ++ [(r, b.1 % 256)])

/-- The rows and shifts of every information block column, in order. -/
def ldpcColumns (m : Nat) : Nat → Nat → List (List (Nat × Nat))
  | 0, _ => []
  | n + 1, x => let r := ldpcColumn m 1000 x []; r.1 :: ldpcColumns m n r.2

/-- A 256-bit block under a circulant of shift `sh`: bit t of the result is bit (t + sh) mod 256 of the block. -/
def circulant (v sh : Nat) : Nat := v / 2 ^ sh + v % 2 ^ sh * 2 ^ (256 - sh)

/-- The parity blocks of 129 information blocks (R194). -/
def ldpcParity (codeB : Bool) (info : List Nat) : List Nat :=
  let m := if codeB then 19 else 15
  let cols := ldpcColumns m 129 (if codeB then 0x5E6F7081 else 0x1D2C3B4A)
  let syn := (List.zip cols info).foldl (fun (acc : List Nat) p =>
      p.1.foldl (fun a rs => modAt a rs.1 fun v => v ^^^ circulant p.2 rs.2) acc) (List.replicate m 0)
  (syn.foldl (fun (p : Nat × List Nat) sj => let pj := sj ^^^ p.1; (pj, p.2 ++ [pj])) (0, [])).2

/-- A codeword: scrambled data and META, then parity (R192-R194). -/
def codeword (codeB : Bool) (row cw : Nat) (data metaB : Bytes) : Bytes :=
  let sc := scramble row cw (padTo 4096 data ++ padTo 32 metaB)
  sc ++ (ldpcParity codeB ((chunks 32 sc).map leNat)).flatMap (leBytes 32)

/-- Data and META of a codeword's bytes. -/
def uncodeword (row cw : Nat) (bs : Bytes) : Bytes × Bytes :=
  let p := scramble row cw (bs.take 4128)
  (p.take 4096, (p.drop 4096).take 32)

/-- META (R221). -/
def metaBytes (seq nsid kind flags logical tag : Nat) (data : Bytes) : Bytes :=
  let m := leBytes 8 seq ++ leBytes 4 nsid ++ leBytes 1 kind ++ leBytes 1 flags ++ leBytes 2 0 ++ leBytes 8 logical ++ leBytes 4 tag
  m ++ leBytes 4 (crc32c (padTo 4096 data ++ m))

/-- The META CRC holds (R221, R222). -/
def metaOk (data m : Bytes) : Bool := leNat (sliceBytes m 28 4) == crc32c (data ++ m.take 28)

/-- Row address of a page of a program unit: block, unit and page level (R193; log entry 31). -/
def rowAddr (block pu level units bits : Nat) : Nat := (block * units + pu) * bits + level

/-- Piece `j` of a unit lies in codeword j mod 4, plane (j div 4) mod 4, page level j div 16 (R258). -/
def pieceCw (j : Nat) : Nat := j % 4
/-- Plane of a piece (R258). -/
def piecePlane (j : Nat) : Nat := j / 4 % 4
/-- Page level of a piece (R258). -/
def pieceLevel (j : Nat) : Nat := j / 16
/-- The piece in a codeword of a page (R258). -/
def pieceOf (level plane cw : Nat) : Nat := 16 * level + 4 * plane + cw

/-- The row address of a piece. -/
def State.pieceRow (s : State) (block pu piece : Nat) : Nat :=
  rowAddr block pu (pieceLevel piece) s.part.units s.part.bitsPerCell

/-! ### Flash contents -/

/-- The codeword at an address, none where nothing is programmed: codeword i starts at page byte i × codeword length (R192). -/
def NandSt.at (n : NandSt) (die block pu piece : Nat) : Option Bytes :=
  (n.flash.find? fun f => f.die == die && f.block == block && f.pu == pu && f.level == pieceLevel piece
    && f.plane == piecePlane piece).map fun f => sliceBytes f.bytes (n.cwLen * pieceCw piece) n.cwLen

/-- A page as it is written: its four codewords back to back from byte 0 across the data and spare areas, and 0xFF beyond the last
one (R192). -/
def State.pageImage (s : State) (block pu level plane : Nat) (ps : List (Nat × Bytes × Bytes)) : Bytes :=
  let n := s.nand.cwLen
  let b := match s.codeOf with | some c => c.2.2 | none => false
  let cws := (List.range 4).flatMap fun i =>
    let j := pieceOf level plane i
    match ps.find? (·.1 == j) with
    | some p => codeword b (s.pieceRow block pu j) i p.2.1 p.2.2
    | none => List.replicate n 0xFF
  cws ++ List.replicate (s.part.pageBytes + s.part.spareBytes - 4 * n) 0xFF

/-- Program a unit, given as (piece, data, META): every page of it, plane by plane and level by level (R192, R258). -/
def State.programUnit (s : State) (die block pu : Nat) (ps : List (Nat × Bytes × Bytes)) : State :=
  s.setNand fun n =>
    { n with
      flash := n.flash ++ (List.range (ps.length / 16)).flatMap fun l => (List.range 4).map fun q =>
        ⟨die, block, pu, l, q, s.pageImage block pu l q ps⟩
      blank := n.blank.filter fun f => !(f.1 == die && f.2.1 == block && f.2.2.1 == pu) }

/-- Erase a block. -/
def State.eraseBlock (s : State) (die block : Nat) : State :=
  s.setNand fun n => { n with flash := n.flash.filter fun f => !(f.die == die && f.block == block),
                              bad := n.bad.filter fun f => !(f.1 == die && f.2.1 == block),
                              blank := n.blank.filter fun f => !(f.1 == die && f.2.1 == block) }

/-- A codeword that is there has a META whose CRC is wrong (R221, R222). -/
def State.metaBad (s : State) (die block pu piece : Nat) : Bool :=
  match s.nand.at die block pu piece with
  | none => false
  | some bs => let r := uncodeword (s.pieceRow block pu piece) (pieceCw piece) bs; !metaOk r.1 r.2

/-- A piece as decoded: its data and META, none when it is unavailable: its die lost, nothing programmed, its codeword class 4
or reported ERASED, or its META CRC wrong (R195, R261). -/
def State.readPiece (s : State) (die block pu piece : Nat) : Option (Bytes × Bytes) :=
  if !s.dieLive die || s.nand.bad.contains (die, block, pu, piece) || s.nand.blank.contains (die, block, pu, piece) then none
  else
    match s.nand.at die block pu piece with
    | none => none
    | some bs =>
      let r := uncodeword (s.pieceRow block pu piece) (pieceCw piece) bs
      if metaOk r.1 r.2 then some r else none

/-! ### The sequencer -/

/-- A channel's sequencer sends commands to its dies (R184). -/
def NandSt.sent (n : NandSt) (c : Nat) (cmds : List OnfiCmd) : NandSt :=
  let l := (assoc n.onfi c).getD [] ++ cmds
  { n with onfi := assocSet n.onfi c (l.drop (l.length - 32)) }

/-- A channel sends commands to a die: before the first of them Volume Select, where the die's volume is not the one last selected
on its CE; with 4 or fewer dies per channel there is no volume addressing (R185, R187). -/
def State.sendOnfi (s : State) (d : Nat) (cmds : List OnfiCmd) : State :=
  let k := (dieChannel d, dieCe d)
  let same := decide (s.diesPerChannel ≤ 4) || assoc s.nand.volume k == some (dieVolume d)
  s.setNand fun n =>
    { n with volume := if same then n.volume else assocSet n.volume k (dieVolume d) }.sent (dieChannel d)
      (if same then cmds else .volumeSelect (dieCe d) (dieVolume d) :: cmds)

/-- What the sequencer sends for an operation as it begins (R198): a program is transferred whole and then confirmed. -/
def DieOp.cmds (o : DieOp) : List OnfiCmd :=
  match o.kind with
  | .read => [.read o.block o.pu]
  | .program => [.transfer o.block o.pu, .confirm o.block o.pu]
  | .erase => [.erase o.block]

/-- Operations of a die whose data has been sent. -/
def State.sentOps (s : State) (d : Nat) : Nat := (assoc s.nand.started d).getD 0

/-- Show how many operations of a die have been sent. -/
def State.setSent (s : State) (d n : Nat) : State :=
  s.setNand fun x => { x with started := if n = 0 then x.started.filter (·.1 != d) else assocSet x.started d n }

/-- A die's queue goes on (R198): the operation that has come to its front begins, and behind a program the next program's data is
transferred during tPROG. -/
def State.beginOps (s : State) (d : Nat) : State :=
  match (assoc s.nand.queues d).getD [] with
  | [] => s.setSent d 0
  | a :: rest =>
    let t := if s.sentOps d = 0 then (s.sendOnfi d a.cmds).setSent d 1 else s
    match rest.head? with
    | some b => if a.kind = .program ∧ b.kind = .program ∧ t.sentOps d = 1
        then (t.sendOnfi d [.transfer b.block b.pu]).setSent d 2 else t
    | none => t

/-- Append an operation to a die's queue (R198). -/
def State.queueOp (s : State) (d : Nat) (op : DieOp) : State :=
  (s.setNand fun n => { n with queues := assocSet n.queues d ((assoc n.queues d).getD [] ++ [op]) }).beginOps d

/-- An operation of a die has ended: where another die of the channel is busy, the sequencer asks for this one's status alone
(R184). -/
def State.askStatus (s : State) (d : Nat) : State :=
  if s.nand.started.any fun x => x.1 != d && dieChannel x.1 == dieChannel d then s.sendOnfi d [.readStatus (d % 16)] else s

/-- The front operation of a die leaves its queue; a unit that cache program has transferred is confirmed (R198). -/
def State.popOp (s0 : State) (d : Nat) : State :=
  let s := s0.askStatus d
  let t := s.setNand fun n => { n with queues := assocSet n.queues d (((assoc n.queues d).getD []).drop 1),
                                       resetOnce := n.resetOnce.filter (· != d) }
  if s.sentOps d = 2 then
    match ((assoc t.nand.queues d).getD []).head? with
    | some o => ((t.sendOnfi d [.confirm o.block o.pu]).setSent d 1).beginOps d
    | none => t.setSent d 0
  else (t.setSent d 0).beginOps d

/-! ### P and Q -/

/-- Multiplication in GF(2^8) with 0x11D (R260). The fuel is the number of bits. -/
def gfMulAux : Nat → Nat → Nat → Nat
  | 0, _, _ => 0
  | n + 1, a, b =>
    let a2 := if 128 ≤ a then (2 * a) ^^^ 0x11D else 2 * a
    (if b % 2 = 1 then a else 0) ^^^ gfMulAux n a2 (b / 2)

/-- Multiplication in GF(2^8). -/
def gfMul (a b : Nat) : Nat := gfMulAux 8 a b

/-- A power of g = 2. -/
def gfPow : Nat → Nat
  | 0 => 1
  | n + 1 => gfMul 2 (gfPow n)

/-- The inverse of a non-zero element: a^254. -/
def gfInv (a : Nat) : Nat := (List.range 254).foldl (fun v _ => gfMul v a) 1

/-- A byte string times a constant. -/
def gfScale (c : Nat) (bs : Bytes) : Bytes := bs.map fun b => BitVec.ofNat 8 (gfMul c b.toNat)

/-- 4,096 zero bytes. -/
def zeroPiece : Bytes := List.replicate 4096 0

/-- P over the data pieces (R260). -/
def pOf (ds : List Bytes) : Bytes := ds.foldl xorBytes zeroPiece

/-- Q over the data pieces (R260). -/
def qOf (ds : List Bytes) : Bytes := (ds.zipIdx.map fun d => gfScale (gfPow d.2) d.1).foldl xorBytes zeroPiece

/-- The data pieces of a row with up to two unavailable ones, by R261's table; none where more are missing. -/
def reconstruct (ds : List (Option Bytes)) (p q : Option Bytes) : Option (List Bytes) :=
  let miss := (ds.zipIdx.filter fun d => d.1.isNone).map (·.2)
  let known := ds.map fun d => d.getD zeroPiece
  let gone := miss.length + (if p.isNone then 1 else 0) + (if q.isNone then 1 else 0)
  if 2 < gone then none
  else
    match miss with
    | [] => some known
    | [x] =>
      match p, q with
      | some pv, _ => some (modAt known x fun _ => xorBytes pv (pOf known))
      | none, some qv => some (modAt known x fun _ => gfScale (gfInv (gfPow x)) (xorBytes qv (qOf known)))
      | none, none => none
    | [x, y] =>
      match p, q with
      | some pv, some qv =>
        let p' := xorBytes pv (pOf known)
        let q' := xorBytes qv (qOf known)
        let dx := gfScale (gfInv (gfPow x ^^^ gfPow y)) (xorBytes q' (gfScale (gfPow y) p'))
        some (modAt (modAt known x fun _ => dx) y fun _ => xorBytes p' dx)
      | _, _ => none
    | _ => none

/-! ### Placement -/

/-- The generator of R263: the next output and the state. -/
def layoutNext (st : Nat) : Nat × Nat :=
  let s1 := (st + 0x9E3779B97F4A7C15) % 2 ^ 64
  let z := ((s1 ^^^ (s1 / 2 ^ 30)) * 0xBF58476D1CE4E5B9) % 2 ^ 64
  let z := ((z ^^^ (z / 2 ^ 27)) * 0x94D049BB133111EB) % 2 ^ 64
  (z ^^^ (z / 2 ^ 31), s1)

/-- Exchange two elements of a list. -/
def swapAt (l : List Nat) (i j : Nat) : List Nat :=
  let a := l.getD i 0
  let b := l.getD j 0
  modAt (modAt l i fun _ => b) j fun _ => a

/-- Fisher-Yates, from position `i` down to 1 (R263). -/
def shuffleFrom : Nat → List Nat → Nat → List Nat × Nat
  | 0, l, st => (l, st)
  | i + 1, l, st =>
    let r := layoutNext st
    shuffleFrom i (swapAt l (i + 1) (r.1 % (i + 2))) r.2

/-- Shuffle a list (R263). -/
def shuffle01 (l : List Nat) (st : Nat) : List Nat × Nat := shuffleFrom (l.length - 1) l st

/-- The state of the table generator: generator state, die orders, turns, channel queue. -/
structure LayoutGen where
  /-- generator state -/
  st : Nat
  /-- die order by channel -/
  order : List (List Nat)
  /-- turns by channel -/
  turn : List Nat
  /-- channel queue -/
  q : List Nat

/-- The die orders of the 32 channels. -/
def layoutOrders (n : Nat) : Nat → Nat → List (List Nat) → List (List Nat) × Nat
  | 0, st, acc => (acc, st)
  | c + 1, st, acc => let r := shuffle01 (List.range n) st; layoutOrders n c r.2 (acc ++ [r.1])

/-- The generator at row 0 (R263). -/
def layoutStart (seed n : Nat) : LayoutGen :=
  let r := layoutOrders n 32 (seed ^^^ 0x9E3779B97F4A7C15) []
  ⟨r.2, r.1, List.replicate 32 0, []⟩

/-- One member of a row: the first channel of the queue that the row does not use. -/
def layoutMember (n : Nat) (g : LayoutGen) (row : List Nat) : LayoutGen × List Nat :=
  let used := row.map dieChannel
  let g := if g.q.all used.contains then
      let r := shuffle01 (List.range 32) g.st
      { g with st := r.2, q := g.q ++ r.1 } else g
  match g.q.find? fun c => !used.contains c with
  | none => (g, row)
  | some c =>
    let t := g.turn.getD c 0
    let d := (g.order.getD c []).getD (t % n) 0
    ({ g with q := g.q.erase c, turn := modAt g.turn c (· + 1) }, row ++ [c * 16 + d])

/-- A row of `w` members. -/
def layoutRow (n : Nat) : Nat → LayoutGen → List Nat → LayoutGen × List Nat
  | 0, g, row => (g, row)
  | w + 1, g, row => let r := layoutMember n g row; layoutRow n w r.1 r.2

/-- Row `r` of the table. -/
def layoutAt (n w : Nat) : Nat → LayoutGen → List Nat
  | 0, g => (layoutRow n w g []).2
  | r + 1, g => layoutAt n w r (layoutRow n w g []).1

/-- The generator after the whole table of 4,096 rows. -/
def layoutEnd (n w : Nat) : Nat → LayoutGen → LayoutGen
  | 0, g => g
  | r + 1, g => layoutEnd n w r (layoutRow n w g []).1

end Sys2Proof.Machine
end

