-- ==== Sys2Proof/Machine/MediaBase.lean ====
section
/-!
DEFINITION. Block groups, the Fallow pool, sequence numbers, the map journal, the placing of data units into stripes, the
issue of stripes to the dies, and the reading of a data unit (R206-R212, R220-R227, R237, R256-R268, R271).
-/

namespace Sys2Proof.Machine

/-! ### Blocks and the pool -/

/-- The groups of the table. -/
def State.groups (s : State) : List Group := s.media.image.groups

/-- A group by number. -/
def State.group? (s : State) (n : Nat) : Option Group := s.groups.find? (·.num == n)

/-- Change the map image. -/
def State.setImage (s : State) (f : MapImage → MapImage) : State := s.setMedia fun m => { m with image := f m.image }

/-- Change a group. -/
def State.modGroup (s : State) (n : Nat) (f : Group → Group) : State :=
  s.setImage fun i => { i with groups := i.groups.map fun g => if g.num == n then f g else g }

/-- A block belongs to some group, or holds device-metadata pages. -/
def State.blockUsed (s : State) (d b : Nat) : Bool :=
  (s.groups.any fun g => g.members.contains (d, b)) || s.media.metaBlocks.any fun x => x.die == d && x.block == b

/-- The erased blocks of a die outside groups, spares and retired blocks. -/
def State.freeBlocks (s : State) (d : Nat) : List Nat :=
  (s.goodBlocks d).filter fun b => !s.isSpare d b && !s.media.image.retired.contains (d, b) && !s.blockUsed d b

/-- The erase count of a block. -/
def State.eraseCount (s : State) (d b : Nat) : Nat := (assoc s.media.image.erases (d, b)).getD 0

/-- The block of the lowest erase count, ties to the lowest index (R208). -/
def State.leastWorn (s : State) (d : Nat) : List Nat → Option Nat
  | [] => none
  | b :: bs => some (bs.foldl (fun m x => if s.eraseCount d x < s.eraseCount d m then x else m) b)

/-- POOL_BLOCKS: the erased blocks of the live dies (R123, R237). -/
def State.poolBlocks (s : State) : Nat := (s.liveDies.map fun d => (s.freeBlocks d).length).foldl (· + ·) 0

/-- User MB that `n` blocks back at width `k` (R123). -/
def State.userMB (s : State) (n k : Nat) : Nat := n * s.blockBytes * k * 985 / ((k + 2) * 1000 * 1000000)

/-- POOL_USER (R123). -/
def State.poolUser (s : State) : Nat := s.userMB s.poolBlocks s.width

/-- The width at which a new group opens: the new one during a reshape (R287). -/
def State.openWidth (s : State) : Nat :=
  match s.array.reshape with
  | some r => if r.active then r.newK else s.width
  | none => s.width

/-! ### Device-metadata pages -/

/-- JOURNAL_DIES: the dies of the stripe journal (R269). -/
def State.journalDies (s : State) : List Nat :=
  [s.get R.ARRAY.JOURNAL_DIES_DIE0, s.get R.ARRAY.JOURNAL_DIES_DIE1, s.get R.ARRAY.JOURNAL_DIE2_DIE2]

/-- Up to three live dies on distinct channels that meet a condition, the lowest ones. The fuel is their number. -/
def State.pickDies (s : State) (ok : Nat → Bool) : Nat → List Nat → List Nat
  | 0, l => l
  | f + 1, l =>
    match s.liveDies.find? fun d => ok d && !l.any fun e => dieChannel e == dieChannel d with
    | some d => s.pickDies ok f (l ++ [d])
    | none => l

/-- The block of a die that takes the next page, while it has a program unit left. -/
def State.pageBlock (s : State) (d : Nat) (stripe : Bool) : Option MetaBlock :=
  s.media.metaBlocks.find? fun x => x.die == d && x.stripe == stripe && !x.erasing && decide (x.next < s.part.units)

/-- A block for pages may leave the pool: nothing but the open take draws on its reservation (R237). -/
def State.maySpend (s : State) : Bool := decide (s.get R.FALLOW.RESERVED_USER_MB + s.userMB 1 s.width ≤ s.poolUser)

/-- A die may take a copy of a page. -/
def State.mayHold (s : State) (stripe : Bool) (d : Nat) : Bool :=
  s.dieLive d && decide (0 < s.part.units) && ((s.pageBlock d stripe).isSome || (!(s.freeBlocks d).isEmpty && s.maySpend))

/-- The dies of the next page (R224, R227, R269): the stripe journal has its own, and the map journal and the checkpoint records go to
others (log entry 35). -/
def State.pageDies (s : State) (stripe : Bool) : List Nat :=
  if stripe then s.journalDies.eraseDups.filter (s.mayHold true)
  else s.pickDies (fun d => s.mayHold false d && !s.journalDies.contains d) 3 []

/-- Take the next program unit for pages on a die: its block and number. -/
def State.takeUnit (s : State) (d : Nat) (stripe : Bool) : Option ((Nat × Nat) × State) :=
  match s.pageBlock d stripe with
  | some x => some ((x.block, x.next), s.setMedia fun m => { m with metaBlocks := m.metaBlocks.map fun y =>
      if y.die == d && y.block == x.block then { y with next := y.next + 1 } else y })
  | none => if !s.maySpend then none else (s.leastWorn d (s.freeBlocks d)).map fun b =>
      ((b, 0), s.setMedia fun m => { m with metaBlocks := m.metaBlocks ++ [⟨d, b, 1, stripe, false⟩] })

/-- A device-metadata page by number. -/
def State.page? (s : State) (n : Nat) : Option MPage := s.media.pages.find? (·.num == n)

/-- Change a page. -/
def State.modPage (s : State) (n : Nat) (f : MPage → MPage) : State :=
  s.setMedia fun m => { m with pages := m.pages.map fun p => if p.num == n then f p else p }

/-- Queue copy `i` of a page on a die. -/
def State.addCopy (s : State) (n i d : Nat) : State :=
  match s.page? n with
  | none => s
  | some p =>
    match s.takeUnit d p.stripe with
    | none => s
    | some (b, t) =>
      let c : PageCopy := ⟨d, b.1, b.2, false⟩
      (t.modPage n fun p => { p with copies := if i < p.copies.length then modAt p.copies i fun _ => c else p.copies ++ [c] }).queueOp d
        ⟨.program, b.1, b.2, true, [], [], 0, .page n i⟩

/-- Write a page in three copies (R224, R227, R269): its number; none where three dies cannot take them. -/
def State.putPage (s : State) (kind seq : Nat) (stripe : Bool) (data : Bytes) : Option (Nat × State) :=
  let ds := s.pageDies stripe
  if ds.length ≠ 3 then none
  else
    let n := s.media.nextPage
    let t := s.setMedia fun m => { m with nextPage := n + 1, pages := m.pages ++ [⟨n, kind, seq, stripe, data, []⟩] }
    some (n, ds.zipIdx.foldl (fun t d => t.addCopy n d.2 d.1) t)

/-- Every copy of a page has been programmed. -/
def State.pageDone (s : State) (n : Nat) : Bool :=
  match s.page? n with
  | some p => decide (3 ≤ p.copies.length) && p.copies.all (·.done)
  | none => false

/-- The pieces of a page: piece, data, META (R221; log entry 35). -/
def MPage.pieces (p : MPage) : List (Nat × Bytes × Bytes) :=
  (List.range 16).map fun j =>
    let d := padTo 4096 (sliceBytes p.data (4096 * j) 4096)
    (j, d, metaBytes p.seq 0 p.kind 2 p.num 0 d)

/-- A copy of a page has passed its program. -/
def State.pageProgrammed (s : State) (n i d block unit : Nat) : State :=
  match s.page? n with
  | none => s
  | some p => (s.programUnit d block unit p.pieces).modPage n fun p =>
      { p with copies := modAt p.copies i fun c => { c with done := true } }

/-- Some copy of a page reads back. -/
def State.pageReads (s : State) (n : Nat) : Bool :=
  match s.page? n with
  | some p => p.copies.any fun c => c.done && (List.range 16).all fun j => (s.readPiece c.die c.block c.unit j).isSome
  | none => false

/-- Something still names a page: the journal, a checkpoint record, a snapshot. -/
def State.pageNamed (s : State) (n : Nat) : Bool :=
  (s.media.journal.any (·.num == n)) || (s.media.ckpts.any (·.num == n))
    || (match s.media.job with | some j => (match j.record with | some c => j.sent && c.num == n | none => false) | none => false)
    || (match s.array.snap with | some x => x.1 == n | none => false) || (match s.array.snapNew with | some x => x.1 == n | none => false)

/-- Pages that nothing names any longer go, and full blocks that hold no other pages are erased. -/
def State.dropPages (s : State) : State :=
  let t := s.setMedia fun m => { m with pages := m.pages.filter fun p => s.pageNamed p.num }
  let old := t.media.metaBlocks.filter fun x => !x.erasing && decide (t.part.units ≤ x.next) && t.dieLive x.die
    && !t.media.pages.any fun p => p.copies.any fun c => c.die == x.die && c.block == x.block
  old.foldl (fun t x => (t.setMedia fun m => { m with metaBlocks := m.metaBlocks.map fun y =>
      if y.die == x.die && y.block == x.block then { y with erasing := true } else y }).queueOp x.die
        ⟨.erase, x.block, 0, true, [], [], 0, .pageErase⟩) t

/-! ### Journal -/

/-- A journal record's 32 bytes (R223). -/
def JRec.bytes (r : JRec) : Bytes :=
  leBytes 1 r.kind ++ leBytes 1 0 ++ leBytes 2 r.count ++ leBytes 4 r.nsid ++ leBytes 8 r.logical
    ++ leBytes 8 (r.ma.2 % 2 ^ 20 + r.ma.1 % 2 ^ 20 * 2 ^ 20) ++ leBytes 8 r.seq

/-- A journal page's 64 KiB: its records in order (R224). -/
def journalBytes (rs : List JRec) : Bytes := padTo 65536 (rs.flatMap JRec.bytes)

/-- Take a SEQ (R220). -/
def State.nextSeq (s : State) : Nat × State := (s.media.seq, s.setMedia fun m => { m with seq := m.seq + 1 })

/-- The page being filled is written, its first 2,048 records where more have come while no dies could take it (R224). -/
def State.writeJournal (s : State) : State :=
  let rs := s.media.page.take 2048
  match rs.getLast? with
  | none => s
  | some r =>
    match s.putPage 4 r.seq false (journalBytes rs) with
    | none => s
    | some (n, t) => t.setMedia fun m =>
        { m with page := m.page.drop 2048, pageSince := if (m.page.drop 2048).isEmpty then 0 else s.time, journal := m.journal ++ [⟨n, rs, false⟩] }

/-- Append a journal record; a full page is written (R223, R224). -/
def State.addRec (s : State) (r : JRec) : State :=
  let t := s.setMedia fun m => { m with page := m.page ++ [r], pageSince := if m.page.isEmpty then s.time else m.pageSince }
  if 2048 ≤ t.media.page.length then t.writeJournal else t

/-- Append a journal record that takes a SEQ of its own (R220, R223). -/
def State.journal (s : State) (kind count nsid logical : Nat) (ma : Nat × Nat) : State :=
  let q := s.nextSeq
  q.2.addRec ⟨kind, count, nsid, logical, ma, q.1⟩

/-- The runs of at most 65,535 units that a range is journalled in (R223). -/
def runsOf : Nat → Nat → Nat → List (Nat × Nat)
  | 0, _, _ => []
  | f + 1, lba, n => if n = 0 then [] else (lba, min 65535 n) :: runsOf f (lba + 65535) (n - 65535)

/-- Journal a change of a range of logical units, in as many records as it takes (R223). -/
def State.journalRuns (s : State) (kind nsid lba n : Nat) : State :=
  (runsOf (n / 65535 + 1) lba n).foldl (fun t x => t.journal kind x.2 nsid x.1 (0, 0)) s

/-- Records that are not durable yet, oldest first. -/
def State.volatileRecs (s : State) : List JRec := s.media.inFlight.flatten ++ s.media.page

/-! ### Opening a group -/

/-- A die may supply a member: it is live and has an erased block. -/
def State.maySupply (s : State) (d : Nat) : Bool := s.dieLive d && !(s.freeBlocks d).isEmpty

/-- Substitute the members of a row that cannot supply a block (R264): the row, and the turns taken. -/
def State.substitute (s : State) (n : Nat) (order : List (List Nat)) (turn : List Nat) : Nat → List Nat → Option (List Nat × List Nat)
  | 0, row => some (row, turn)
  | i + 1, row =>
    match State.substitute s n order turn i row with
    | none => none
    | some (row, turn) =>
      let d := row.getD i 0
      if s.maySupply d then some (row, turn)
      else
        let others := (row.zipIdx.filter (·.2 != i)).map fun x => dieChannel x.1
        let tries := (List.range 31).filterMap fun t =>
          let c2 := (dieChannel d + t + 1) % 32
          if s.chActive c2 && !others.contains c2 then
            ((List.range n).map fun j => c2 * 16 + (order.getD c2 []).getD ((turn.getD c2 0 + j) % n) 0).find? s.maySupply
          else none
        match tries with
        | [] => none
        | d2 :: _ => some (modAt row i fun _ => d2, modAt turn (dieChannel d2) (· + 1))

/-- The region of a block in the Tally bitmap (R272). -/
def State.region (s : State) (d b : Nat) : Nat :=
  let rd := ceilDiv (s.part.blocks * s.blockBytes) (2 ^ 30)
  d * rd + b * s.blockBytes / 2 ^ 30

/-- The 16-byte header of the region bitmap (R273). -/
def bitmapHeader (pos count : Nat) : Bytes :=
  let b := leBytes 1 pos ++ leBytes 3 0 ++ leBytes 8 count
  b ++ leBytes 4 (crc32c b)

/-- A header's CRC holds. -/
def headerOk (b : Bytes) : Bool := b.length == 16 && leNat (b.drop 12) == crc32c (b.take 12)

/-- Both copies of the bitmap's header are written, the first copy first: in the last 512 bytes of the area, at offset 65,024
(R273). -/
def State.writeBitmapHeader (s : State) : State :=
  let h := bitmapHeader (s.get R.ARRAY.BITMAP_POSITION) s.array.bitmapWrites
  (s.setTally fun t => { t with header := [h, h], unread := t.unread.filter (·.1 != .bitmap) }).wearTally .bitmap [8128, 8129, 8130, 8131]

/-- Words of the bitmap are written at its present position, and the header counts them (R272, R273; log entry 34). -/
def State.writeBitmap (s : State) (l regions : List Nat) : State :=
  let ws := (regions.map (· / 64)).eraseDups
  let p := s.get R.ARRAY.BITMAP_POSITION
  ((s.setArray fun a => { a with bitmap := l, bitmapWrites := a.bitmapWrites + ws.length }).wearTally .bitmap (ws.map (64 * p + ·))).writeBitmapHeader

/-- Set the bits of a group's blocks in the region bitmap (R272). -/
def State.markRegions (s : State) (ms : List (Nat × Nat)) : State :=
  let rs := (ms.map fun m => s.region m.1 m.2).filter fun r => !s.array.bitmap.contains r
  if rs.isEmpty then s else s.writeBitmap (rs.foldl insertSorted s.array.bitmap) rs

/-- The member list of the next group of a width, none where it cannot open (R264). -/
def State.nextMembers (s : State) (k : Nat) : Option (List (Nat × Nat) × List Nat) :=
  let n := s.diesPerChannel
  if n = 0 then none
  else
    let o := (assoc s.media.image.opened k).getD 0
    let g0 := layoutStart s.array.seed n
    let row := layoutAt n (k + 2) (o % 4096) g0
    let fin := layoutEnd n (k + 2) 4096 g0
    let turn := fin.turn.zipIdx.map fun t => t.1 + (assoc s.array.turns (k, t.2)).getD 0
    match s.substitute n g0.order turn row.length row with
    | none => none
    | some (row2, turn2) =>
      let ms := row2.map fun d => (d, (s.leastWorn d (s.freeBlocks d)).getD 0)
      some (ms, turn2.zipIdx.map fun t => t.1 - fin.turn.getD t.2 0)

/-- The namespace is the open take's. -/
def State.isTakeNs (s : State) (nsid : Nat) : Bool := match s.take.c with | some c => c.nsid == nsid | none => false

/-- A writer may draw a group's blocks: only the open take draws on its reservation (R237). -/
def State.mayDraw (s : State) (use : GroupUse) (nsid k : Nat) : Bool :=
  (use == .take && s.isTakeNs nsid) || decide (s.get R.FALLOW.RESERVED_USER_MB + s.userMB (k + 2) k ≤ s.poolUser)

/-- 16 groups are open (R231). -/
def State.groupsFull (s : State) : Bool := decide (16 ≤ (s.groups.filter (·.state == .opened)).length)

/-- A writer finds no unreserved erased block for a new group (R239). -/
def State.poolShort (s : State) (use : GroupUse) (nsid : Nat) : Bool :=
  !s.groupsFull && (!s.mayDraw use nsid s.openWidth || (s.nextMembers s.openWidth).isNone)

/-- A writer other than the open take waits, a kept take's copy among them: where it is for want of erased blocks, the pool shows it
(R239). -/
def State.noPlace (s : State) (use : GroupUse) (nsid : Nat) : State :=
  if !(use == .take && s.isTakeNs nsid) && s.poolShort use nsid then (s.pulse 0x61 Ev.FALLOW.POOL_EMPTY).record 0x61 E.FALLOW_POOL_EMPTY 0 else s

/-- Open a group: none where no block may be drawn, 16 groups are open, or no member list exists (R206, R208, R231, R264). -/
def State.openGroup (s : State) (use : GroupUse) (nsid : Nat) : Option State :=
  let k := s.openWidth
  if !s.mayDraw use nsid k || s.groupsFull then none
  else
    match s.nextMembers k with
    | none => none
    | some (ms, turns) =>
      let num := s.media.nextGroup
      let g : Group := { num := num, k := k, use := use, nsid := nsid, members := ms, state := .opened, stripes := [],
                         tag := s.media.seq % 2 ^ 32, closedAt := 0, erased := [], lostMembers := [], erasing := false,
                         closeLogged := false, ending := false, freeAt := none }
      let t := s.setMedia fun m => { m with nextGroup := (m.nextGroup + 1) % 2 ^ 20 }
      let t := t.setImage fun i => { i with groups := i.groups ++ [g],
                                            opened := assocSet i.opened k ((assoc i.opened k).getD 0 + 1) }
      let t := t.setArray fun a => { a with
        snapDirty := true
        turns := turns.zipIdx.foldl (fun l x => if x.1 = 0 then l else assocSet l (k, x.2) x.1) a.turns }
      let t := if use = .take ∧ s.isTakeNs nsid then t.put R.FALLOW.RESERVED_USER_MB (t.get R.FALLOW.RESERVED_USER_MB - t.userMB (k + 2) k) else t
      some ((t.journal 0x05 1 nsid num (num, 0)).markRegions ms)

/-! ### Stripes -/

/-- Data units of a stripe. -/
def State.stripeUnits (s : State) (g : Group) : Nat := g.k * s.pieces g.use.isSlc

/-- The role of member `m` in stripe `i`: data index, or k for P and k + 1 for Q (R259). -/
def memberRole (k i m : Nat) : Nat := (m + (k + 2) - i % (k + 2)) % (k + 2)

/-- The member holding role `j` of stripe `i` (R259). -/
def roleMember (k i j : Nat) : Nat := (j + i) % (k + 2)

/-- A stripe lacking every unit. -/
def Stripe.fresh : Stripe := ⟨[], false, [], [], false, false, false, false⟩

/-- Stripes from the first program issued until they close (R268). -/
def State.openStripes (s : State) : Nat :=
  (s.groups.map fun g => (g.stripes.filter fun t => t.issued && !t.settled).length).foldl (· + ·) 0

/-- A durable snapshot lists the stripe (R271). -/
def State.listed (s : State) (g i : Nat) : Bool :=
  match s.array.snap with
  | some n => n.2.stripes.any fun x => x.1 == g && x.2.1 == i
  | none => false

/-- Queue the programs of a stripe's units: the open set has changed (R269). -/
def State.issueStripe (s : State) (g : Group) (i : Nat) : State :=
  let t := g.members.zipIdx.foldl (fun t m =>
    t.queueOp m.1.1 ⟨.program, m.1.2, i, g.use.isSlc, [], [], 0, .unit g.num i m.2⟩) s
  (t.modGroup g.num fun g => { g with stripes := modAt g.stripes i fun st => { st with issued := true } }).setArray
    fun a => { a with snapDirty := true }

/-- Issue the full stripes of a group that a durable snapshot lists, while fewer than 1,024 stripes are open (R268, R271). -/
def State.issueGroup (s : State) (g : Group) : State :=
  g.stripes.zipIdx.foldl (fun t st =>
    if decide (t.stripeUnits g ≤ st.1.units.length) && !st.1.issued && !st.1.void && t.listed g.num st.2
        && decide (t.openStripes < 1024)
    then t.issueStripe g st.2 else t) s

/-- Issue every stripe that is ready. -/
def State.issueReady (s : State) : State :=
  (s.groups.filter fun g => g.state == .opened && !g.ending).foldl (fun t g => t.issueGroup g) s

/-- A stripe takes one more data unit. -/
def Stripe.takes (st : Stripe) (per : Nat) : Bool := !st.issued && !st.void && decide (st.units.length < per)

/-- Data units that an open group still takes; one of an old layout only to its next stripe boundary (R287). -/
def State.groupRoom (s : State) (g : Group) : Nat :=
  let per := s.stripeUnits g
  let last := match g.stripes.getLast? with
    | some st => if st.takes per then per - st.units.length else 0
    | none => 0
  if g.ending then 0 else last + (if g.k = s.openWidth then (s.part.units - g.stripes.length) * per else 0)

/-- The group takes one more data unit. -/
def State.hasRoom (s : State) (g : Group) : Bool := decide (0 < s.groupRoom g)

/-- The open group of a use that takes so many units. -/
def State.openFor (s : State) (use : GroupUse) (nsid need : Nat) : Option Group :=
  s.groups.find? fun g => g.state == .opened && g.use == use && g.nsid == nsid && decide (need ≤ s.groupRoom g)

/-- Put a unit into a group's last stripe, or a new one. -/
def Group.putUnit (g : Group) (per : Nat) (u : DUnit) : Group :=
  match g.stripes.getLast? with
  | some st =>
    if st.takes per then { g with stripes := g.stripes.dropLast ++ [{ st with units := st.units ++ [u] }] }
    else { g with stripes := g.stripes ++ [{ Stripe.fresh with units := [u] }] }
  | none => { g with stripes := [{ Stripe.fresh with units := [u] }] }

/-- A data unit takes a SEQ and the next place of a group (R209, R220), and a stripe that is ready is issued. -/
def State.putIn (s : State) (gn : Nat) (u : DUnit) : State :=
  let q := s.nextSeq
  let v := q.2.modGroup gn fun g => g.putUnit (s.stripeUnits g) { u with seq := q.1, logged := false }
  match v.group? gn with
  | some g => v.issueGroup g
  | none => v

/-- A pad unit (R221). -/
def DUnit.pad : DUnit := ⟨0, 0, 0, 0, 0, zeroPiece, none, false⟩

/-- Fill the last stripe of a group with pad units (R221). The fuel is the stripe's size. -/
def State.padGroup (gn : Nat) : Nat → State → State
  | 0, s => s
  | f + 1, s =>
    match s.group? gn with
    | none => s
    | some g =>
      match g.stripes.getLast? with
      | none => s
      | some st => if g.state = .opened ∧ st.takes (s.stripeUnits g) = true then State.padGroup gn f (s.putIn gn DUnit.pad) else s

/-- Pad the last stripe of a use's open groups. -/
def State.padStripe (s : State) (use : GroupUse) (gn : Nat) : State :=
  (s.groups.filter fun g => g.state == .opened && g.use == use && g.nsid == gn).foldl (fun t g => State.padGroup g.num 2048 t) s

/-- An open group of a use that takes so many units, opened where there is none: an extent never crosses a group (R212), so one with
too little room left is padded. None where no group can open. -/
def State.roomFor (s : State) (use : GroupUse) (gn need : Nat) : Option (Nat × State) :=
  match s.openFor use gn need with
  | some g => some (g.num, s)
  | none =>
    match (s.padStripe use gn).openGroup use gn with
    | none => none
    | some t => (t.openFor use gn need).map fun g => (g.num, t)

/-- Units of the use and take wait for a place: later ones do not overtake them. -/
def State.waits (s : State) (use : GroupUse) (gn : Nat) : Bool := s.media.waiting.any fun w => w.use == use && w.gn == gn

/-- Place a data unit (R209, R220): it takes a SEQ and the next place of its use's open group; the first unit of an extent needs room
for the whole of it. None where no group can open, or others wait before it. -/
def State.placeUnit (s : State) (use : GroupUse) (gn : Nat) (nsid kind logical flags : Nat) (data : Bytes) (cmd : Option CmdKey) :
    Option State :=
  if s.waits use gn then none
  else (s.roomFor use gn (if use.isTake && logical % 256 == 0 then 256 else 1)).map fun r =>
    r.2.putIn r.1 ⟨nsid, kind, logical, 0, flags, data, cmd, false⟩

/-- The pieces that member `m` programs in a stripe: piece, data, META (R209, R221, R222, R259, R260). -/
def State.unitPieces (s : State) (g : Group) (i m : Nat) : List (Nat × Bytes × Bytes) :=
  match g.stripes[i]? with
  | none => []
  | some st =>
    let p := s.pieces g.use.isSlc
    let role := memberRole g.k i m
    let fl := if g.use.isSlc then 2 else 0
    if role < g.k then
      (List.range p).map fun j =>
        let u := st.units.getD (role * p + j) DUnit.pad
        (j, u.data, metaBytes u.seq u.nsid u.kind (u.flags + fl) u.logical g.tag u.data)
    else
      let last := ((st.units.getLast?).map (·.seq)).getD 0
      (List.range p).map fun j =>
        let ds := (List.range g.k).map fun r => padTo 4096 ((st.units.getD (r * p + j) DUnit.pad).data)
        let d := if role = g.k then pOf ds else qOf ds
        (j, d, metaBytes last 0 0x07 fl 0 g.tag d)

/-- Where data unit `u` of a group lies: stripe, data index, piece (R209). -/
def State.unitPlace (s : State) (g : Group) (u : Nat) : Nat × Nat × Nat :=
  let p := s.pieces g.use.isSlc
  (u / (g.k * p), u % (g.k * p) / p, u % p)

/-- The data pieces, P and Q of a piece row. -/
def State.pieceRowOf (s : State) (g : Group) (i piece : Nat) : List (Option Bytes) × Option Bytes × Option Bytes :=
  let get := fun j =>
    let m := g.members.getD (roleMember g.k i j) (0, 0)
    (s.readPiece m.1 m.2 i piece).map (·.1)
  ((List.range g.k).map get, get g.k, get (g.k + 1))

/-- Unavailable pieces of a row. -/
def rowGone (r : List (Option Bytes) × Option Bytes × Option Bytes) : Nat :=
  (r.1.filter (·.isNone)).length + (if r.2.1.isNone then 1 else 0) + (if r.2.2.isNone then 1 else 0)

/-- The data of a row of a stripe that is still owed a resynchronisation (R277): at most one piece may be unavailable, and the
parities must agree with the rest. -/
def pendingRow (row : List (Option Bytes) × Option Bytes × Option Bytes) : Option (List Bytes) :=
  match reconstruct row.1 row.2.1 row.2.2 with
  | none => none
  | some ds =>
    if 1 < rowGone row then none
    else
      let ok := (match row.2.1 with | some p => p == pOf ds | none => true) && (match row.2.2 with | some q => q == qOf ds | none => true)
      if rowGone row = 0 ∨ ok then some ds else none

/-- The data pieces that a row of a stripe proves: a pending one only by its parities (R261, R277). -/
def Stripe.rowData (st : Stripe) (row : List (Option Bytes) × Option Bytes × Option Bytes) : Option (List Bytes) :=
  if st.pend then pendingRow row else reconstruct row.1 row.2.1 row.2.2

/-- A unit of the stripe on member `m` is read from the program buffers: the stripe's programs have not all ended, or that member's
failed and the unit has not been written again yet (R242, R280). -/
def Stripe.buffered (st : Stripe) (m : Nat) : Bool := !st.written || (!st.pend && st.failed.contains m)

/-- The data of a unit read from flash, or from the program buffers; reconstruction where its piece is unavailable (R261, R262,
R277). None: unreadable. -/
def State.readUnit (s : State) (gn u : Nat) : Option Bytes × State :=
  match s.group? gn with
  | none => (none, s)
  | some g =>
    let (i, j, piece) := s.unitPlace g u
    match g.stripes[i]? with
    | none => (none, s)
    | some st =>
      let at_ := roleMember g.k i j
      if st.buffered at_ then ((st.units[u - i * s.stripeUnits g]?).map (·.data), s)
      else
        let m := g.members.getD at_ (0, 0)
        match s.readPiece m.1 m.2 i piece with
        | some r => (some r.1, s)
        | none =>
          match st.rowData (s.pieceRowOf g i piece) with
          | some ds => (ds[j]?, (s.bump R.ARRAY.RECONSTRUCTED_COUNT).record 0x62 E.ARRAY_RECONSTRUCTED (m.1 % 512 + gn * 512))
          | none =>
            if st.pend then
              (none, ((s.bump R.ARRAY.WRITE_HOLE_COUNT).pulse 0x62 Ev.ARRAY.WRITE_HOLE).record 0x62 E.ARRAY_WRITE_HOLE
                (m.1 % 512 + gn * 512))
            else (none, s)

/-- A unit is read that no die operation has brought in: the sequencer sends the reads of its own die, or of the row's other members
where it is reconstructed (R187, R262). -/
def State.fetchUnit (s : State) (gn u : Nat) : Option Bytes × State :=
  match s.group? gn with
  | none => (none, s)
  | some g =>
    let (i, j, piece) := s.unitPlace g u
    match g.stripes[i]? with
    | none => (none, s)
    | some st =>
      let at_ := roleMember g.k i j
      if st.buffered at_ then s.readUnit gn u
      else
        let m := g.members.getD at_ (0, 0)
        let ms := if (s.readPiece m.1 m.2 i piece).isSome then [m] else g.members.filter fun x => x != m && s.dieLive x.1
        (ms.foldl (fun t x => t.sendOnfi x.1 [.read x.2 i]) s).readUnit gn u

/-! ### The map -/

/-- The map entry of a logical unit. -/
def State.mapEnt (s : State) (nsid logical : Nat) : Option MapEnt := assoc s.media.image.map (nsid, logical)

/-- SEQ of the unit or record a map entry names. -/
def State.entSeq (s : State) (e : MapEnt) : Nat :=
  match e with
  | .zeroes q => q
  | .mapped gn u =>
    match s.group? gn with
    | none => 0
    | some g =>
      let i := u / s.stripeUnits g
      match g.stripes[i]? with
      | none => 0
      | some st => ((st.units[u - i * s.stripeUnits g]?).map (·.seq)).getD 0

/-- Data unit indices and units of a stripe. -/
def State.stripeIndex (s : State) (g : Group) (i : Nat) : List (Nat × DUnit) :=
  match g.stripes[i]? with
  | none => []
  | some st => st.units.zipIdx.map fun u => (i * s.stripeUnits g + u.2, u.1)

/-- The data index of a unit of a group, and the member its stripe unit lies on (R209, R259). -/
def State.unitMember (s : State) (g : Group) (u : Nat) : Nat :=
  let x := s.unitPlace g u
  roleMember g.k x.1 x.2.1

/-- A device-metadata unit placed in a metadata group (R221). -/
structure MetaAt where
  /-- KIND -/
  kind : Nat
  /-- LOGICAL -/
  logical : Nat
  /-- SEQ -/
  seq : Nat
  /-- group -/
  gn : Nat
  /-- data unit index -/
  idx : Nat
  /-- it lies on flash -/
  ready : Bool

/-- The unit on member `m` of a stripe lies on flash. -/
def Stripe.holds (st : Stripe) (m : Nat) : Bool := st.done.contains m || (st.written && !st.failed.contains m)

/-- The device-metadata units of a group. -/
def State.metaOf (s : State) (g : Group) : List MetaAt :=
  g.stripes.zipIdx.flatMap fun st => if st.1.void then [] else (s.stripeIndex g st.2).filterMap fun x =>
    if x.2.kind < 3 then none
    else some ⟨x.2.kind, x.2.logical, x.2.seq, g.num, x.1, st.1.holds (s.unitMember g x.1)⟩

/-- The device-metadata units of the metadata groups. -/
def State.metaAll (s : State) : List MetaAt :=
  (s.groups.filter fun g => g.use == .metadata && g.state != .freed).flatMap s.metaOf

/-- A unit supersedes another: a later copy of the same page. -/
def MetaAt.after (x y : MetaAt) : Bool := x.kind == y.kind && x.logical == y.logical && decide (y.seq < x.seq)

/-- The locator of a metadata page: its newest copy on flash (R227, R281). -/
def State.metaUnit (s : State) (kind logical : Nat) : Option MetaAt :=
  let l := s.metaAll.filter fun x => x.ready && x.kind == kind && x.logical == logical
  l.find? fun x => l.all fun y => decide (y.seq ≤ x.seq)

/-- Units of a KIND that are placed and not on flash yet. -/
def State.metaPending (s : State) (kind : Nat) : Nat := (s.metaAll.filter fun x => !x.ready && x.kind == kind).length

/-- The namespace is a take's. -/
def State.nsIsTake (s : State) (nsid : Nat) : Bool := s.ns.any fun n => n.nsid == nsid && n.kind == .take

/-- Number of the map page that holds a logical unit's entry: 512 entries, of an LBA each or of a MiB of a take (R211, R212;
log entry 61). -/
def State.mapPageOf (s : State) (nsid logical : Nat) : Nat :=
  nsid * 2 ^ 32 + (if s.nsIsTake nsid then logical / (512 * 256) else logical / 512)

/-- BLOCK_NS_LIMIT in GB (R213). -/
def State.blockLimit (s : State) : Nat := 1000 * (s.get R.DRAMC.LIVE_GIB_GIB / 8)

/-- Block-map pages for which live DRAM has room: those of BLOCK_NS_LIMIT, at 512 LBAs each (R213, R214). -/
def State.mapRoom (s : State) : Nat := s.blockLimit * 1000000000 / (512 * 4096)

/-- The block map is demand-paged and the page is not resident (R214). -/
def State.pageMissing (s : State) (p : Nat) : Bool :=
  s.bit R.MEDIA.MEDIA_STATUS_MAP_PAGED && !s.nsIsTake (p / 2 ^ 32) && !s.media.resident.contains p

/-- A page of the demand-paged block map is used: it becomes resident, and the pages used longest ago make room; a page that has
changed since its last copy on flash stays until it is written (R214; log entry 39). -/
def State.residePage (s : State) (p : Nat) : State :=
  if !s.bit R.MEDIA.MEDIA_STATUS_MAP_PAGED || s.nsIsTake (p / 2 ^ 32) then s
  else
    let l := p :: s.media.resident.filter (· != p)
    let keep := (l.zipIdx.filter fun x => decide (x.2 < s.mapRoom) || (assoc s.media.dirty x.1).isSome).map (·.1)
    s.setMedia fun m => { m with resident := keep }

/-- The read that brings a page of the map in from flash: die and operation; none where its newest copy cannot be read or there is
none. -/
def State.pageRead (s : State) (p : Nat) (use : OpFor) : Option (Nat × DieOp) :=
  (s.metaUnit 3 p).bind fun x => (s.group? x.gn).bind fun g =>
    let y := s.unitPlace g x.idx
    let m := g.members.getD (roleMember g.k y.1 y.2.1) (0, 0)
    if s.dieLive m.1 && (s.nand.at m.1 m.2 y.1 y.2.2).isSome then
      some (m.1, ⟨.read, m.2, y.1, g.use.isSlc, [y.2.2], [y.2.2], 0, use⟩)
    else none

/-- A page of the map is needed: one that is not resident is read from flash (R214). The number of reads queued. -/
def State.needPage (s : State) (p : Nat) (use : OpFor) : Nat × State :=
  if s.pageMissing p then
    match s.pageRead p use with
    | some r => (1, (s.residePage p).queueOp r.1 r.2)
    | none => (0, s.residePage p)
  else (0, s.residePage p)

/-- An entry of a map page has changed since the page's last copy on flash (R227). -/
def State.dirtyPage (s : State) (nsid logical : Nat) : State :=
  let p := s.mapPageOf nsid logical
  (s.needPage p (.background 0)).2.setMedia fun m => { m with dirty := assocSet m.dirty p ((assoc m.dirty p).getD 0 + 1) }

/-- The directory page that locates a map page: 512 of them each (R227; log entry 36). -/
def dirPageOf (p : Nat) : Nat := p / 512

/-- A directory page has changed since its last copy on flash. -/
def State.dirtyDirPage (s : State) (d : Nat) : State :=
  s.setMedia fun m => { m with dirtyDir := if m.dirtyDir.contains d then m.dirtyDir else m.dirtyDir ++ [d] }

/-- Map a unit unless the entry in force carries a higher SEQ (R220). -/
def State.mapUnit (s : State) (nsid logical gn u seq : Nat) : State :=
  let set := ((s.setImage fun i => { i with map := assocSet i.map (nsid, logical) (.mapped gn u) }).dirtyPage nsid logical).setMedia
    fun m => { m with hints := m.hints.filter (·.1 != (nsid, logical)) }
  let set := set.setArray fun a => { a with holes := a.holes.filter (· != (nsid, logical)) }
  match s.mapEnt nsid logical with
  | some e => if seq < s.entSeq e then s else set
  | none => set

/-- Remove the map entry of a logical unit. -/
def State.unmapUnit (s : State) (nsid logical : Nat) : State :=
  (s.setImage fun i => { i with map := i.map.filter fun x => x.1 != (nsid, logical) }).dirtyPage nsid logical

/-- The unit lies in a segment of a ring that is to be released (R131, R132). -/
def State.leaving (s : State) (nsid logical : Nat) : Bool :=
  s.take.releasing.contains (nsid, logical / 262144) && decide (2 ≤ logical)

/-- Units of a group that the map names and that are kept. -/
def State.validUnits (s : State) (gn : Nat) : List (Nat × Nat × Nat) :=
  s.media.image.map.filterMap fun x =>
    match x.2 with
    | .mapped g u => if g == gn && !s.leaving x.1.1 x.1.2 then some (x.1.1, x.1.2, u) else none
    | .zeroes _ => none

/-- Placed units that are not yet mapped, and those that wait for a place, become pads where they meet a condition: their logical unit
was overwritten by a hint or a zero, or deleted (R251-R253). -/
def State.cancelWhere (s : State) (p : DUnit → Bool) : State :=
  let off := fun (u : DUnit) => if p u then { u with kind := 0 } else u
  (s.setImage fun i =>
    { i with groups := i.groups.map fun g =>
        { g with stripes := g.stripes.map fun st => if st.closed then st else { st with units := st.units.map off } } }).setMedia
    fun m => { m with waiting := m.waiting.map fun w => { w with units := w.units.map off } }

/-- A placed unit of a block namespace that is not yet mapped becomes a pad (R251, R252). -/
def State.cancelUnits (s : State) (nsid logical : Nat) : State :=
  s.cancelWhere fun u => u.kind == 1 && u.nsid == nsid && u.logical == logical

/-- A program of a data member has completed: its units are mapped, and the directory follows the map pages (R220, R227). -/
def State.mapMember (s : State) (g : Group) (i m : Nat) : State :=
  ((s.stripeIndex g i).filter fun x => s.unitMember g x.1 == m).foldl (fun t x =>
    let u := x.2
    if u.kind = 1 ∨ u.kind = 2 then t.mapUnit u.nsid u.logical g.num x.1 u.seq
    else if u.kind = 3 ∧ u.logical < 2 ^ 62 then t.dirtyDirPage (dirPageOf u.logical)
    else t) s

/-- A unit whose record is still to be appended: SEQ, group, unit index, the unit, and whether its program has completed. -/
structure OwedRec where
  /-- SEQ -/
  seq : Nat
  /-- group -/
  gn : Nat
  /-- data unit index -/
  idx : Nat
  /-- the unit -/
  unit : DUnit
  /-- programmed -/
  ready : Bool

/-- Insert in SEQ order. -/
def insertOwed (x : OwedRec) : List OwedRec → List OwedRec
  | [] => [x]
  | y :: ys => if x.seq < y.seq then x :: y :: ys else y :: insertOwed x ys

/-- The units whose MAP or EXTENT records are owed, in SEQ order (R225). -/
def State.owedRecs (s : State) : List OwedRec :=
  (s.groups.flatMap fun g => g.stripes.zipIdx.flatMap fun st =>
    if st.1.void then []
    else (s.stripeIndex g st.2).filterMap fun x =>
      if (x.2.kind == 1 || x.2.kind == 2) && !x.2.logged then
        some ⟨x.2.seq, g.num, x.1, x.2, st.1.holds (s.unitMember g x.1)⟩
      else none).foldl (fun l x => insertOwed x l) []

/-- Two units of a take belong to one extent, in one place. -/
def OwedRec.sameExtent (x y : OwedRec) : Bool :=
  x.unit.kind == 2 && y.unit.kind == 2 && x.gn == y.gn && x.unit.nsid == y.unit.nsid && x.unit.logical / 256 == y.unit.logical / 256

/-- The units whose records are written: each block unit, and the last of those that follow one another in an extent (R223). -/
def recUnits : List OwedRec → List OwedRec
  | [] => []
  | x :: rest => match rest with
    | [] => [x]
    | y :: _ => if x.sameExtent y then recUnits rest else x :: recUnits rest

/-- Append the record of programmed units, under the SEQ of the last of them: MAP for a block unit, EXTENT for the part of an extent that
lies on flash by then, which may have been recorded as far as an earlier unit before (R220, R223, R225; log entry 77). -/
def State.addUnitRec (s : State) (o : OwedRec) : State :=
  if o.unit.kind = 1 then s.addRec ⟨0x01, 1, o.unit.nsid, o.unit.logical, (o.gn, o.idx), o.seq⟩
  else s.addRec ⟨0x02, 1, o.unit.nsid, o.unit.logical / 256, (o.gn, o.idx - o.unit.logical % 256), o.seq⟩

/-- The records of units have been appended. -/
def State.markRecs (s : State) (l : List OwedRec) : State :=
  s.setImage fun i => { i with groups := i.groups.map fun g =>
    let q := (l.filter (·.gn == g.num)).map (·.seq)
    if q.isEmpty then g
    else { g with stripes := g.stripes.map fun st => { st with units := st.units.map fun u => if q.contains u.seq then { u with logged := true } else u } } }

/-- GROUP_FREE is appended once no unit placed before the group was freed still owes its record (R226, R232). -/
def State.logFrees (s : State) : State :=
  let owed := s.owedRecs
  (s.groups.filter fun g => match g.freeAt with | some q => owed.all fun o => decide (q ≤ o.seq) | none => false).foldl (fun t g =>
    (t.journal 0x07 1 0 g.num (g.num, 0)).modGroup g.num fun h => { h with freeAt := none }) s

/-- Append the records whose turn has come, in SEQ order, GROUP_CLOSE after every record of a closed group, and GROUP_FREE after the
records before it (R225, R226). -/
def State.logReady (s : State) : State :=
  let ready := (s.owedRecs).takeWhile (·.ready)
  let t := (recUnits ready).foldl State.addUnitRec (s.markRecs ready)
  ((t.groups.filter fun g => g.state == .closed && !g.closeLogged
      && (g.stripes.all fun st => st.void || st.units.all fun u => u.logged || !(u.kind == 1 || u.kind == 2))).foldl (fun t g =>
    (t.journal 0x06 1 0 g.num (g.num, 0)).modGroup g.num fun h => { h with closeLogged := true }) t).logFrees

/-- Close a group (R207, R225). -/
def State.closeGroup (s : State) (gn : Nat) : State :=
  (s.modGroup gn fun g => if g.state = .opened then { g with state := .closed, closedAt := s.time } else g).setArray
    fun a => { a with snapDirty := true }

/-- Close the groups that have lost a member, each once its journal records are durable (R280). -/
def State.closeEnding (s : State) : State :=
  let owed := s.owedRecs
  ((s.groups.filter fun g => g.ending && g.state == .opened && !(s.volatileRecs.any fun r => r.ma.1 == g.num)
      && owed.all fun o => o.gn != g.num).foldl (fun t g => t.closeGroup g.num) s).logReady

/-- Free a group whose units are all invalid: its GROUP_FREE is appended in its turn and its erase awaits durability (R226,
R233). -/
def State.freeGroup (s : State) (gn : Nat) : State :=
  ((s.modGroup gn fun g => { g with state := .freed, freeAt := some s.media.seq }).setMedia fun m => { m with freed := m.freed ++ [gn] }).logFrees

/-- The metadata units of a group that no later copy on flash supersedes: kind, page number and unit index (R221). -/
def State.validMeta (s : State) (g : Group) : List (Nat × Nat × Nat) :=
  let all := s.metaAll.filter (·.ready)
  ((s.metaOf g).filter fun x => !all.any (·.after x)).map fun x => (x.kind, x.logical, x.idx)

/-- Valid data units of a group, as a count. -/
def State.validCount (s : State) (g : Group) : Nat :=
  if g.use = .metadata then (s.validMeta g).length else (s.validUnits g.num).length

/-- A closed group none of whose programs is still on its way. -/
def Group.quiet (g : Group) : Bool := g.state == .closed && g.stripes.all (·.settled)

/-- Free the quiet groups that hold no valid unit (R233); a group that is being relocated is freed when that ends. -/
def State.freeEmpty (s : State) : State :=
  let busy := match s.media.reloc with | some r => some r.1 | none => none
  (s.groups.filter fun g => g.quiet && some g.num != busy && s.validCount g == 0).foldl (fun t g => t.freeGroup g.num) s

/-- Close the open groups that take no more units once every stripe of theirs has closed (R207, R225). -/
def State.closeFull (s : State) : State :=
  ((s.groups.filter fun g => g.state == .opened && !g.ending && !s.hasRoom g && g.stripes.all (·.settled)).foldl
    (fun t g => t.closeGroup g.num) s).logReady

/-- The stripes of a group that were not issued go: what they held is written elsewhere, or not at all. -/
def State.voidUnissued (s : State) (gn : Nat) : State :=
  s.modGroup gn fun g => { g with stripes := g.stripes.map fun st => if st.issued || st.void then st else { st with void := true } }

/-- Close the open groups of a namespace's take: their unwritten units stay erased (R207). -/
def State.closeTakeGroups (s : State) (nsid : Nat) : State :=
  (s.groups.filter fun g => g.state == .opened && g.use.isTake && g.nsid == nsid).foldl
    (fun t g => (t.closeGroup g.num).voidUnissued g.num) s |>.logReady

/-- Queue a group for refresh: 4,096 places, none twice (R240). -/
def State.queueRefresh (s : State) (gn : Nat) : State :=
  if s.media.refresh.contains gn || 4096 ≤ s.media.refresh.length then s
  else s.setMedia fun m => { m with refresh := m.refresh ++ [gn] }

/-! ### Units that wait for a place -/

/-- A unit's write has been overtaken: its namespace is gone, the map's entry is newer, or a later copy has been placed (R220). -/
def State.superseded (s : State) (u : DUnit) : Bool :=
  if u.kind = 1 ∨ u.kind = 2 then
    !(s.ns.any (·.nsid == u.nsid)) || (match s.mapEnt u.nsid u.logical with | some e => decide (u.seq < s.entSeq e) | none => false)
      || s.groups.any fun g => g.stripes.any fun st => !st.void && st.units.any fun v =>
          v.kind == u.kind && v.nsid == u.nsid && v.logical == u.logical && decide (u.seq < v.seq)
  else s.groups.any fun g => g.stripes.any fun st => !st.void && st.units.any fun v =>
    v.kind == u.kind && v.logical == u.logical && decide (u.seq < v.seq)

/-- Place a batch in order: an extent of a take in one group, other units where there is room. None where one finds no place. -/
def State.placeBatch (use : GroupUse) (gn : Nat) : List DUnit → State → Option State
  | [], s => some s
  | u :: us, s =>
    if use.isTake then (s.roomFor use gn 256).map fun r => (u :: us).foldl (fun t v => t.putIn r.1 v) r.2
    else match s.roomFor use gn 1 with
      | some r => State.placeBatch use gn us (r.2.putIn r.1 u)
      | none => none

/-- What is left to place of a batch: units that have been overtaken are pads in an extent, and drop out of any other batch. -/
def State.stillOwed (s : State) (w : Waiting) : List DUnit :=
  let us := w.units.map fun u => if u.kind = 0 ∨ s.superseded u then DUnit.pad else u
  if w.use.isTake then (us.reverse.dropWhile (·.kind == 0)).reverse else us.filter (·.kind != 0)

/-- Units are placed, or wait for erased blocks (R239, R242, R280). -/
def State.placeOrWait (s : State) (w : Waiting) : State :=
  match s.stillOwed w with
  | [] => s
  | us =>
    match (if s.waits w.use w.gn then none else State.placeBatch w.use w.gn us s) with
    | some t => t
    | none => (s.noPlace w.use w.gn).setMedia fun m => { m with waiting := m.waiting ++ [{ w with units := us }] }

/-- What waits is tried again, each use in its order; only the take's own group stays unpadded. -/
def State.retryWaiting (s : State) : State :=
  let l := s.media.waiting
  let t := l.foldl (fun t w =>
    match t.stillOwed w with
    | [] => t
    | us =>
      match (if t.waits w.use w.gn then none else State.placeBatch w.use w.gn us t) with
      | some v => v
      | none => t.setMedia fun m => { m with waiting := m.waiting ++ [{ w with units := us }] })
    (s.setMedia fun m => { m with waiting := [] })
  l.foldl (fun t w => if w.use = .take then t else t.padStripe w.use w.gn) t

/-! ### Queries of the take namespaces -/

/-- Logical units of a take that lie in a closed stripe. -/
def State.closedLogicals (s : State) (nsid : Nat) : List Nat :=
  (s.groups.filter fun g => g.use.isTake && g.nsid == nsid).flatMap fun g =>
    (g.stripes.filter fun st => st.closed && !st.void).flatMap fun st => (st.units.filter (·.kind == 2)).map (·.logical)

/-- The units placed for a take, and those that wait for a place, that lie in no closed stripe. -/
def State.openLogicals (s : State) (nsid : Nat) : List Nat :=
  let placed := (s.groups.filter fun g => g.use.isTake && g.nsid == nsid).flatMap fun g =>
    (g.stripes.filter fun st => !st.closed && !st.void).flatMap fun st => (st.units.filter (·.kind == 2)).map (·.logical)
  let waiting := (s.media.waiting.filter fun w => w.use.isTake && w.gn == nsid).flatMap fun w => (w.units.filter (·.kind == 2)).map (·.logical)
  match placed ++ waiting with
  | [] => []
  | l => let done := s.closedLogicals nsid; l.filter fun x => !done.contains x

/-- The secured prefix of the open take's container, in bytes: up to the first placed unit that lies in no closed stripe
(R101). -/
def State.securedPrefix (s : State) (nsid placed : Nat) : Nat :=
  match s.openLogicals nsid with
  | [] => placed
  | l :: ls => min placed (4096 * ls.foldl min l)

end Sys2Proof.Machine
end

