-- ==== Sys2Proof/Machine/KeyBase.lean ====
section
/-!
DEFINITION. Key slots, KEKs and media keys, and the jobs of the key engine (R417-R427).
-/

namespace Sys2Proof.Machine

/-! ### Slots -/

/-- SLOTS_USED and KE_STATUS follow the contents (R439, R440). -/
def State.showKeys (s : State) : State :=
  let st := if s.keys.kekMedia.isNone then 2 else if s.keys.queue.isEmpty then 0 else 1
  s.puts [(R.CIPHER.SLOTS_USED_KEYS, s.keys.slots.length), (R.CIPHER.SLOTS_USED_CONTEXTS, s.keys.ctxs.length),
    (R.KEYENG.KE_STATUS_STATE, st), (R.KEYENG.KE_STATUS_QUEUED, s.keys.queue.length - 1),
    (R.KEYENG.KE_STATUS_HOLDER, ((s.keys.queue.head?).map (·.func)).getD 0)]

/-- A loaded slot. -/
def State.keySlot (s : State) (n : Nat) : Option KeySlot := s.keys.slots.find? (·.slot == n)

/-- The function a key slot belongs to: 0-127 to the system, others by grant (R417, R491). -/
def State.slotOwner (s : State) (n : Nat) : Option Nat :=
  if n < 128 then some 0x1F0
  else (s.tenant.fns.find? fun f => decide (f.p.keyBase ≤ n) && decide (n < f.p.keyBase + f.p.keys)).map (·.p.func)

/-- Load a slot, in place of what it held. -/
def State.loadSlot (s : State) (k : KeySlot) : State :=
  (s.setKeys fun x => { x with slots := (x.slots.filter (·.slot != k.slot)) ++ [k] }).showKeys

/-- Zeroise a slot. -/
def State.clearSlot (s : State) (n : Nat) : State :=
  (s.setKeys fun x => { x with slots := x.slots.filter (·.slot != n) }).showKeys

/-- An active message, an unfinished cipher job or the open take names the slot (R417, R421). -/
def State.slotBusy (s : State) (n : Nat) : Bool :=
  s.keys.ctxs.any (·.slot == n) || (s.jobs.queue.any fun j => j.engine == 3 && descN j.desc 2 2 % 1024 == n)
    || (s.jobs.finished.any fun d => d.job.engine == 3 && descN d.job.desc 2 2 % 1024 == n)
    || (match s.take.c with | some c => c.slot == n | none => false)

/-- A system slot for a media key: a free one, else the least recently used that nothing names (R417). -/
def State.systemSlot (s : State) : Option Nat :=
  match (List.range 128).find? fun n => (s.keySlot n).isNone with
  | some n => some n
  | none => ((s.keys.slots.filter fun k => decide (k.slot < 128) && !s.slotBusy k.slot).head?).map (·.slot)

/-! ### KEKs -/

/-- The root key and the installer secret in force (R422, R577). -/
def State.rootKey (s : State) : Bytes :=
  match s.makerBase with | some b => s.otpN (b + 24) 32 | none => List.replicate 32 0
/-- The installer secret in force. -/
def State.installerSecret (s : State) : Bytes :=
  match s.instBase with | some b => s.otpN (b + 160) 32 | none => List.replicate 32 0

/-- "CK6480-KEK". -/
def kekLabel : Bytes := [0x43, 0x4B, 0x36, 0x34, 0x38, 0x30, 0x2D, 0x4B, 0x45, 0x4B]

/-- A KEK (R422). -/
def State.kek (s : State) (purpose func gen : Nat) : Bytes :=
  kdfCounter s.rootKey kekLabel (s.installerSecret ++ leBytes 1 purpose ++ leBytes 2 func ++ leBytes 4 gen) 32

/-- Derive KEK_MEDIA (R422, R423). -/
def State.deriveMedia (s : State) : State := (s.setKeys fun x => { x with kekMedia := some (s.kek 1 0 0) }).showKeys

/-- Provisioning generation of a function. -/
def State.genOf (s : State) (func : Nat) : Nat := (assoc s.tenant.gens func).getD 0

/-- The KEK that wraps for a function, derived on its first key request; system jobs use KEK_MEDIA (R418, R422). -/
def State.kekFor (s : State) (func : Nat) : Option Bytes × State :=
  match s.keys.kekMedia with
  | none => (none, s)
  | some m =>
    if 0x1F0 ≤ func then (some m, s)
    else match assoc s.keys.kekFunc func with
      | some k => (some k, s)
      | none =>
        let k := s.kek 2 func (s.genOf func)
        (some k, s.setKeys fun x => { x with kekFunc := assocSet x.kekFunc func k })

/-! ### Masks -/

/-- ERR_INFO of CIPHER, KEYENG and DIGEST conditions (R443): pipeline, unit, FUNC, HOLDER_FUNC. -/
def keyInfo (pipe unit func holder : Nat) : Nat := pipe % 8 + unit % 64 * 8 + func % 512 * 2 ^ 9 + holder % 512 * 2 ^ 18

/-- The pipelines that can take a block: live ones with fresh masks (R404, R407). -/
def State.readyPipes (s : State) : List Nat :=
  (List.range 6).filter fun p => bitAt (s.get R.CIPHER.PIPES_LIVE) p && s.keys.masks.contains p

/-- Blocks between two reseeds of a generator: 2^20 requests of 4,096 bits, at 256 bits a block (R404). -/
def maskLimit : Nat := 2 ^ 24

/-- A generator gives masks for blocks; at its limit it gives no more until it is reseeded (R404). -/
def State.drawMasks (s : State) (g blocks : Nat) : State :=
  let n := (assoc s.keys.draws g).getD 0 + blocks
  s.setKeys fun k => { k with draws := assocSet k.draws g n, masks := if n < maskLimit then k.masks else k.masks.filter (· != g) }

/-- A stall of pipeline `p` for masks, recorded at most once per second (R404). -/
def State.maskStall (s : State) (p : Nat) : State :=
  let t := (s.bump R.CIPHER.MASK_STALLS_COUNT).pulse 0x28 Ev.CIPHER.MASK_STALL
  let due := match s.keys.stallAt with | some x => decide (x + 1000000000 ≤ s.time) | none => true
  if due then (t.record 0x28 E.CIPHER_MASK_STALL (keyInfo p 0 0x1F0 0)).setKeys fun k => { k with stallAt := some s.time } else t

/-- Media traffic finds no pipeline with fresh masks and waits: the stall of the lowest live one is counted (R404; log entry 44). -/
def State.mediaStall (s : State) : State :=
  match (List.range 6).find? fun p => bitAt (s.get R.CIPHER.PIPES_LIVE) p with
  | some p => s.maskStall p
  | none => s

/-- Media traffic of `n` bytes passes the cipher, on a pipeline with fresh masks (R404, R405; log entry 44). -/
def State.mediaBytes (s : State) (n : Nat) : State :=
  let l := s.readyPipes
  let p := l.getD (Config.mediaPipe (s.get R.CIPHER.MEDIA_BYTES_BYTES) % max 1 l.length) 0
  (s.bump R.CIPHER.MEDIA_BYTES_BYTES n).drawMasks p (ceilDiv n 16)

/-! ### Media keys -/

/-- The key-table page of a record: 42 of them each (log entry 93). -/
def keyPageOf (rec : Nat) : Nat := (rec - 1) / 42

/-- The 4,096 bytes of a key-table page: for each record its number, SEQ, namespace and wrapped key (R424; log entry 93). -/
def State.keyPageBytes (s : State) (n : Nat) : Bytes :=
  padTo 4096 ((List.range 42).flatMap fun i => match s.keys.records.find? (·.num == 42 * n + i + 1) with
    | some r => padTo 96 (leBytes 8 r.num ++ leBytes 8 r.seq ++ leBytes 8 r.nsid ++ r.wrapped)
    | none => List.replicate 96 0)

/-- Write a key-table page into a metadata group, to be located by its page number and SEQ; without a place for it it stays due
(R424; log entry 93). -/
def State.writeKeyPage (s : State) (n : Nat) : State :=
  match s.placeUnit .metadata 0 0 3 (2 ^ 62 + n) 0 (s.keyPageBytes n) none with
  | some t => (t.padStripe .metadata 0).setKeys fun k => { k with due := k.due.filter (· != n) }
  | none => s.setKeys fun k => { k with due := if k.due.contains n then k.due else k.due ++ [n] }

/-- Write the key-table pages that are due. -/
def State.writeKeyPages (s : State) : State := s.keys.due.foldl State.writeKeyPage s

/-- SEQ of a record, as KEY_REF holds it (R424). -/
def State.keySeq (s : State) (rec : Nat) : Nat := ((s.keys.records.find? (·.num == rec)).map (·.seq)).getD 0

/-- Generate a media key for a namespace, wrapped under KEK_MEDIA into the key table, and load it: record number and slot
(R424). None without KEK_MEDIA or a slot. -/
def State.newMediaKey (s : State) (nsid : Nat) : Option (Nat × Nat) × State :=
  match s.keys.kekMedia, s.systemSlot with
  | some m, some n =>
    let f := s.freshBytes 64
    let q := f.2.nextSeq
    let t := q.2.setKeys fun x =>
      { x with records := x.records ++ [⟨x.nextRec, q.1, nsid, aesWrap m f.1⟩], nextRec := x.nextRec + 1 }
    (some (s.keys.nextRec, n), (t.writeKeyPage (keyPageOf s.keys.nextRec)).loadSlot ⟨n, f.1, true, 0x1F0, s.keys.nextRec⟩)
  | _, _ => (none, s)

/-- The media key that a KEY_REF names: from the slot that caches it, which becomes the most recently used, or unwrapped into a slot
from the record whose number and SEQ both match (R417, R424). None where no KEK is held or the record is gone. -/
def State.mediaKey (s : State) (rec seq : Nat) : Option Bytes × State :=
  match s.keys.slots.find? fun k => k.ref == rec && rec != 0 with
  | some k => (some k.key, s.loadSlot k)
  | none =>
    match s.keys.kekMedia, s.keys.records.find? (fun r => r.num == rec && r.seq == seq), s.systemSlot with
    | some m, some r, some n =>
      match aesUnwrap m r.wrapped with
      | some key => (some key, s.loadSlot ⟨n, key, true, 0x1F0, rec⟩)
      | none => (none, s)
    | _, _, _ => (none, s)

/-- KEY_REF of a record (R113, R424). -/
def State.keyRef (s : State) (rec : Nat) : Bytes :=
  match s.keys.records.find? (·.num == rec) with
  | some r => leBytes 8 r.num ++ leBytes 8 r.seq
  | none => List.replicate 16 0

/-- A key record is removed with its take or namespace: its page is written without it, and the earlier copies are to be purged within
60 s (R425). -/
def State.dropKey (s : State) (rec : Nat) : State :=
  let t := (s.keys.slots.filter fun k => k.ref == rec).foldl (fun t k => t.clearSlot k.slot) s
  if s.keys.records.any (·.num == rec) then
    (t.setKeys fun x => { x with records := x.records.filter (·.num != rec), purge := insertSorted x.purge (keyPageOf rec) }).writeKeyPage
      (keyPageOf rec)
  else t

/-! ### Alarms -/

/-- Everything R427 names is zeroised: slots, contexts, KEKs, mask generators; jobs in flight and queued end with keys erased. -/
def State.zeroiseKeys (s : State) : State :=
  let done := s.keys.queue.map fun j => (⟨j, 0x0B, descN j.desc 56 8, leBytes 4 (descN j.desc 8 4) ++ leBytes 1 0x0B ++ leBytes 27 0, 0⟩ : JobDone)
  let erase := fun (d : JobDone) => if d.job.engine = 3 then
      { d with status := 0x0B, record := overlay (overlay d.record 4 [0x0B]) 16 (List.replicate 16 0) } else d
  let t := s.setKeys fun x => { x with kekMedia := none, kekFunc := [], slots := [], ctxs := [], queue := [],
                                       finished := x.finished ++ done, masks := [], derive := none, alarmed := true }
  let t := t.setJobs fun j => { j with finished := j.finished.map erase }
  (t.showKeys).pulse 0x28 Ev.CIPHER.KEYS_ERASED

/-! ### Key engine jobs -/

/-- Completion record of the key engine (R419). -/
def keyRecord (tag status holder : Nat) : Bytes :=
  leBytes 4 tag ++ leBytes 1 status ++ leBytes 1 0 ++ leBytes 2 holder ++ leBytes 24 0

/-- A system job: it may use the two places kept for it (R420). -/
def systemTag (f : Nat) : Bool := f == 0x1F0 || f == 0x1F1

/-- A job comes to the key engine: it takes a place or completes busy (R420). -/
def State.offerKeyJob (s : State) (j : Job) : State :=
  let n := s.keys.queue.length
  if n ≤ 8 ∨ (systemTag j.func ∧ n ≤ 10) then (s.setKeys fun x => { x with queue := x.queue ++ [j] }).showKeys
  else
    let h := ((s.keys.queue.head?).map (·.func)).getD 0
    let t := s.setKeys fun x => { x with finished := x.finished ++ [⟨j, 0x0A, descN j.desc 56 8, keyRecord (descN j.desc 8 4) 0x0A h, 0⟩] }
    ((t.bump R.KEYENG.BUSY_REFUSALS_COUNT).pulse 0x29 Ev.KEYENG.BUSY_REFUSED).record 0x29 E.KEYENG_BUSY (keyInfo 0 0 j.func h) j.func

/-- The engine fetches the jobs that wait in the clusters' key engine queues. -/
def State.fetchKeyJobs (s : State) : State :=
  (s.jobs.queue.filter (·.engine == 4)).foldl (fun t j => (t.takeJob j.id).offerKeyJob j) s

/-- A host function's request. -/
def hostSrc : JobSrc → Bool
  | .host _ => true
  | .cluster _ => false

/-- A job's source bytes: after the descriptor for a host request (R475), else through XLATE. -/
def State.keySrc (s : State) (j : Job) (n : Nat) : Except Nat Bytes :=
  match j.src with
  | .host _ => .ok (sliceBytes j.desc 64 n)
  | .cluster _ => s.xread j.func (descN j.desc 16 8) n

/-- A key engine descriptor's fields are legal (R419). -/
def keyDescOk (d : Bytes) (host : Bool) : Bool :=
  let op := descN d 0 1
  let ty := descN d 1 1
  let len := descN d 12 4
  let usesSrc := op == 4 || op == 5
  let makes := op == 2 || op == 4
  decide (1 ≤ op) && decide (op ≤ 7) && decide (ty ≤ 1) && (usesSrc || descN d 4 2 % 1024 == 0)
    && (if op == 3 then len == (if ty = 0 then 40 else 72) else if op == 6 then len == (if ty = 0 then 32 else 64)
        else if op == 5 then decide (1 ≤ len) && decide (len ≤ 64) else len == 0)
    && (makes || descN d 24 8 == 0) && (!host || op != 1)

/-- Bytes of a key by KEY_TYPE. -/
def keyBytes (ty : Nat) : Nat := if ty = 0 then 32 else 64

/-- A job's outcome: STATUS, the wrapped key it returns, and the state. -/
abbrev KeyOut := Nat × Bytes × State

/-- Deliver a wrapped key. -/
def State.keyDst (s : State) (j : Job) (w : Bytes) : KeyOut :=
  match j.src with
  | .host _ => (0, w, s)
  | .cluster _ =>
    match s.xwrite j.func (descN j.desc 24 8) w with
    | .ok t => (0, [], t)
    | .error a => (0x06, [], s.xlateFault j.func a 0 true false true)

/-- The owner of a slot that a job of a function may use (R417, R421): system tags count as 0x1F0. -/
def State.ownsSlot (s : State) (func n : Nat) : Bool :=
  match s.slotOwner n with
  | some f => f == func || (f == 0x1F0 && systemTag func)
  | none => false

/-- The target slot may be loaded or cleared: STATUS 0x11 or 0x12, 0 for yes (R421). -/
def State.slotCheck (s : State) (func n : Nat) : Nat := if !s.ownsSlot func n then 0x11 else if s.slotBusy n then 0x12 else 0

/-- The key a job derives (log entry 3). -/
def deriveBytes (src ctx : Bytes) (n : Nat) : Bytes := (List.range n).map (Config.derived src ctx)

/-- KEK_MEDIA may be derived without an UNLOCK: KEY_AUTO is set, and no alarm has erased the keys since (R423, R429). -/
def State.mayDerive (s : State) : Bool := s.instFlag 1 && !s.trust.decom && s.makerBase.isSome && !s.keys.alarmed

/-- Run a key engine job (R418, R421). No KEK: STATUS 0x0B for all but DERIVE_KEKS and CLEAR, and for DERIVE_KEKS where only UNLOCK may
bring one (R423, R429; log entry 41). -/
def State.runKey (s : State) (j : Job) : KeyOut :=
  let d := j.desc
  let op := descN d 0 1
  let ty := descN d 1 1
  let slot := descN d 2 2 % 1024
  let src := descN d 4 2 % 1024
  let fault := fun a => ((0x06, [], s.xlateFault j.func a 0 false false true) : KeyOut)
  if !keyDescOk d (hostSrc j.src) then (0x02, [], s)
  else if op = 1 then
    if !systemTag j.func then (0x02, [], s)
    else if s.keys.kekMedia.isSome || s.mayDerive then (0, [], s.deriveMedia) else (0x0B, [], s)
  else if op = 7 then
    match s.slotCheck j.func slot with
    | 0 => (0, [], s.clearSlot slot)
    | st => (st, [], s)
  else
    match s.kekFor j.func with
    | (none, _) => (0x0B, [], s)
    | (some kek, s) =>
      if op = 4 then
        if !s.ownsSlot j.func src then (0x11, [], s)
        else match s.keySlot src with
          | none => (0x02, [], s)
          | some k => if k.xts == (ty == 1) then s.keyDst j (aesWrap kek k.key) else (0x02, [], s)
      else
        match s.slotCheck j.func slot with
        | 0 =>
          let load := fun (t : State) (key : Bytes) => t.loadSlot ⟨slot, key, ty == 1, j.func, 0⟩
          if op = 2 then
            let f := s.freshBytes (keyBytes ty)
            (load f.2 f.1).keyDst j (aesWrap kek f.1)
          else if op = 3 then
            match s.keySrc j (descN d 12 4) with
            | .error a => fault a
            | .ok w => match aesUnwrap kek w with
              | some key => (0, [], load s key)
              | none => (0x10, [], s)
          else if op = 5 then
            if !s.ownsSlot j.func src then (0x11, [], s)
            else match s.keySlot src, s.keySrc j (descN d 12 4) with
              | _, .error a => fault a
              | none, _ => (0x02, [], s)
              | some k, .ok ctx => (0, [], load s (deriveBytes k.key ctx (keyBytes ty)))
          else if slot < 128 then (0x11, [], s)
          else match s.keySrc j (descN d 12 4) with
            | .error a => fault a
            | .ok key => (0, [], load s key)
        | st => (st, [], s)

/-- Record the error of a key engine job (R443). -/
def State.keyErr (s : State) (j : Job) (st : Nat) : State :=
  let info := keyInfo 0 0 j.func 0
  if st = 0x02 then s.record 0x29 E.KEYENG_BAD_DESCRIPTOR info j.func
  else if st = 0x10 then s.record 0x29 E.KEYENG_UNWRAP_FAIL info j.func
  else if st = 0x11 then s.record 0x29 E.KEYENG_SLOT_DENIED info j.func
  else s

/-- The front job of the key engine runs and leaves its place. -/
def State.runFront (s : State) (j : Job) : State :=
  let r := s.runKey j
  let t := (r.2.2.keyErr j r.1).setKeys fun x =>
    { x with queue := x.queue.drop 1, finished := x.finished ++ [⟨j, r.1, descN j.desc 56 8, keyRecord (descN j.desc 8 4) r.1 0 ++ r.2.1, 0⟩] }
  t.showKeys

/-- Run the job at the front of the key engine when it carries the operation, or an operation that is none of R418's. All but CLEAR pass
AES blocks and wait for the engine's own mask generator, of which each takes one request (R404, R418; log entry 44). -/
def State.keyJob (s : State) (op : Nat) : State :=
  let s := s.fetchKeyJobs
  match s.keys.queue.head? with
  | none => s
  | some j =>
    let o := descN j.desc 0 1
    if o = op ∨ o = 0 ∨ 7 < o then
      if o = 7 then s.runFront j
      else if s.keys.masks.contains 6 then (s.drawMasks 6 16).runFront j
      else s
    else s

/-- A reset of a function removes its waiting key engine jobs; a running one completes, with the DMA of the function suppressed: its done
bit is set, and no record and no key is written (R324, R421, R500; log entry 86). -/
def State.closeKeyJobs (s : State) (func : Nat) : State :=
  let t := match s.keys.queue.head? with
    | some j => if j.func = func then { s.runFront j with mem := s.mem } else s
    | none => s
  let done := t.keys.finished.filter (·.job.func == func)
  let t := t.setKeys fun k => { k with queue := k.queue.filter (·.func != func), finished := k.finished.filter (·.job.func != func) }
  done.foldl (fun t d => (t.bump R.KEYENG.JOBS_DONE_COUNT).setDone d.job.done) t

/-- NVMe status of a key STATUS (R475). -/
def keyNvme (st : Nat) : Nat :=
  if st = 0 then Nv.ok else if st = 0x02 ∨ st = 0x10 then Nv.badField
  else if st = 0x0A ∨ st = 0x11 ∨ st = 0x12 then Nv.held
  else if st = 0x0B then Nv.keys else Nv.dataError

/-- The oldest key engine job that has run completes: its record and done bit, or the answer of a function's request, which
Security Receive returns (R419, R424, R475). -/
def State.keyComplete (s : State) : State :=
  match s.keys.finished with
  | [] => s
  | d :: ds =>
    let t := (s.setKeys fun x => { x with finished := ds }).bump R.KEYENG.JOBS_DONE_COUNT
    match d.job.src with
    | .host fn =>
      let t := t.setHost fun h => { h with secOut := assocSet h.secOut fn (padTo 104 d.record) }
      t.wake (fun w => w == .keyJob d.job.id) (keyNvme d.status) d.status
    | .cluster _ => t.endJob { d with record := d.record.take 32 } 0 fun u a => u.xlateFault d.job.func a 0 true false true

end Sys2Proof.Machine
end

