-- ==== Sys2Proof/Machine/TakeBase.lean ====
section
/-!
DEFINITION. The take pipeline's shared operations: rates and allowance (R91, R92, R96, R98), trigger windows as the ring's
segments see them (R131-R134, R143), the container (R112-R117), its placing on media (R101, R103, R408), frames and their
acknowledgement (R80, R81, R102), and slices on lanes (R159, R166, R170).
-/

namespace Sys2Proof.Machine

/-! ### Rates -/

/-- Live DRAM channels. -/
def State.liveDram (s : State) : Nat := popCount 4 (s.get R.DRAMC.LIVE_MASK)

/-- P of R91 and R541 as a fraction: MB/s. -/
def State.mediaP (s : State) : Nat × Nat :=
  let p := s.part
  let n := s.liveDies.length * p.planes * p.pageBytes * p.bitsPerCell * 1000
  let d := max 1 p.tProg
  let b := 23040 * s.liveDram
  if n ≤ b * d then (n, d) else (b, 1)

/-- M_FALLOW (R91). -/
def State.mFallow (s : State) : Nat :=
  let p := s.mediaP
  let k := s.width
  9653 * p.1 * k / (10000 * p.2 * (k + 2))

/-- M_ERASING (R91). -/
def State.mErasing (s : State) : Nat := 85 * s.mFallow / 100

/-- Media rate of a tier. -/
def State.mRate (s : State) (tier : Nat) : Nat := if tier = 0 then s.mFallow else s.mErasing

/-- Gate limit of the present width (R91). -/
def State.gateLimit (s : State) : Nat := 7000 * widthLanes (s.get R.GATE.LINK_STATUS_WIDTH)

/-- Live Shears lanes (R92). -/
def State.liveLanes (s : State) : Nat := popCount 12 (s.get R.SHEARS.LANES_LIVE_MASK)

/-- Lee share in MiB (R94). -/
def State.leeShare (s : State) : Nat := min (1024 * s.get R.TAKE.LEE_RESERVE_GIB) (512 * s.get R.DRAMC.LIVE_GIB_GIB)

/-- UNSECURED_CAP in bytes (R98). -/
def State.allowance (s : State) (m lee : Nat) : Nat :=
  min (max (512 * 2 ^ 20) ((s.get R.TAKE.HOLDUP_HOLDUP_MS - 25) * 1000 * m)) (lee * 2 ^ 20)

/-- The release margin (R99). -/
def releaseMargin (cap : Nat) : Nat := min 1000000000 (cap / 2)

/-- A namespace. -/
def State.nsOf (s : State) (nsid : Nat) : Option Ns := s.ns.find? (·.nsid == nsid)

/-- Change a namespace. -/
def State.modNs (s : State) (nsid : Nat) (f : Ns → Ns) : State :=
  { s with ns := s.ns.map fun n => if n.nsid == nsid then f n else n }

/-- Bytes to MB, rounded up. -/
def toMB (b : Nat) : Nat := ceilDiv b 1000000

/-- Capacity that a take holds: its container, ring segments released aside. -/
def Ns.heldMB (n : Ns) : Nat :=
  match n.kind, n.tk with
  | .take, some t => toMB (t.bytes - n.released.length * 2 ^ 30)
  | .block, _ => toMB (n.nsze * 4096)
  | _, _ => 0

/-- ALLOCATED: block namespaces and takes, reservations included (R255). -/
def State.allocatedMB (s : State) : Nat :=
  let held := (s.ns.map Ns.heldMB).foldl (· + ·) 0
  match s.take.c with
  | some c => held + max 0 (c.reserved - toMB s.take.cont.length)
  | none => held + s.get R.FALLOW.RESERVED_USER_MB

/-- Free user capacity in MB (R92, R245). -/
def State.freeUserMB (s : State) : Nat := s.get R.MEDIA.MAXCAP_MB - s.allocatedMB

/-- Unsecured data (R96): raw bytes before the cipher, container bytes beyond the secured prefix after it. -/
def State.unsecured (s : State) : Nat :=
  ((s.take.frames.map fun f => if f.recEnd = 0 then f.bytes.length - f.relRaw + f.metaLen else 0).foldl (· + ·) 0)
    + (s.take.cont.length - s.take.secured)

/-- A take is open: OPEN or HELD (R111). -/
def State.takeLive (s : State) : Bool := s.get R.TAKE.TAKE_STATE_STATE == 2 || s.get R.TAKE.TAKE_STATE_STATE == 3

/-- The open take's TAKE_ID, 0 for none. -/
def State.takeId (s : State) : Nat := match s.take.c with | some c => c.takeId | none => 0

/-- Record a TAKE condition (R122). -/
def State.takeErr (s : State) (code : Nat) : State := s.record 0x11 code (s.takeId % 2 ^ 32) 0x1F1 s.takeId

/-! ### Ring segments and windows -/

/-- Bytes of a segment. -/
def segBytes : Nat := 2 ^ 30

/-- Segments that hold a byte range. -/
def segsOf (a b : Nat) : List Nat := (List.range ((b - 1) / segBytes + 1)).filter fun x => decide (a / segBytes ≤ x)

/-- Segments of the open ring that windows pin: those of their frames, and what has arrived of frames under way (R143). -/
def State.pinnedSegs (s : State) : List Nat :=
  ((s.trig.windows.filter fun w => w.state != 0 && w.ring == s.takeId).flatMap fun w =>
    (w.pinned.flatMap fun f => segsOf f.1 f.2.2) ++ w.arriving.flatMap fun f => segsOf f.2.1 f.2.2).eraseDups

/-- Segments of the open ring that are to be released. -/
def State.releasingSegs (s : State) : List Nat :=
  match s.take.c with
  | some c => (s.take.releasing.filter (·.1 == c.nsid)).map (·.2)
  | none => []

/-- Segments of the open ring that exist, are not released and are not pinned, oldest first. -/
def State.freeSegs (s : State) : List Nat :=
  let n := ceilDiv s.take.cont.length segBytes
  let pinned := s.pinnedSegs
  (List.range n).filter fun x => !s.take.releasedSegs.contains x && !s.releasingSegs.contains x && !pinned.contains x

/-- Change a window. -/
def State.modWin (s : State) (i : Nat) (f : Window → Window) : State := s.setTrig fun t => { t with windows := modAt t.windows i f }

/-- A window slot. -/
def State.win (s : State) (i : Nat) : Window := s.trig.windows.getD i Window.free

/-- ERR_INFO of a TRIG condition (R152). -/
def trigInfo (src : Nat) (slot : Option Nat) : Nat := src % 16 + (match slot with | some w => w % 64 * 16 + 1024 | none => 0)

/-- Record a TRIG condition. -/
def State.trigErr (s : State) (code src : Nat) (slot : Option Nat) : State := s.record 0x13 code (trigInfo src slot) 0x1F1 s.takeId

/-- Frames under way whose CAPTURE_TIME lies in a window: their uids. -/
def State.windowFrames (s : State) (w : Window) : List Nat :=
  (s.take.frames.filter fun f => f.recEnd == 0 && decide (w.start ≤ f.capture) && decide (f.capture < w.fin)).map (·.uid)

/-- A window seals: closed to new frames (R143). -/
def State.sealWindow (s : State) (i : Nat) (cut : Bool) : State :=
  let w := s.win i
  if w.state ≠ 1 then s
  else (s.modWin i fun w => { w with state := 2, cut := w.cut || cut, awaits := s.windowFrames w }).pulse 0x13 Ev.TRIG.SEALED

/-- The ring's unpinned segments have fallen to the minimum: an open window is cut at its last pinned frame (R134, R143). -/
def State.cutWindow (s : State) (i : Nat) : State :=
  let w := s.win i
  let t := s.modWin i fun w => { w with state := 2, cut := true, awaits := [], arriving := [] }
  ((t.pulse 0x13 Ev.TRIG.SEALED).pulse 0x13 Ev.TRIG.WINDOW_CUT).trigErr E.TRIG_WINDOW_CUT w.source (some i)

/-- User data in MB that the pool can spare for pinned segments. -/
def State.poolSpare (s : State) : Nat := s.poolUser - s.get R.FALLOW.RESERVED_USER_MB

/-- Segments drawn for pinned ones whose blocks have not left the pool yet: the ring's segments beyond RING_GIB stand on blocks
that POOL_USER no longer counts (R134, R237). -/
def State.drawsOwed (s : State) : Nat :=
  let held := ceilDiv s.take.cont.length segBytes - (s.take.releasedSegs.length + s.releasingSegs.length)
  s.trig.drawn.length - (held - (match s.take.c with | some c => c.ringGib | none => 0))

/-- A sealed window gives up the frames it still waits for, because pinning one would leave fewer than two unpinned segments: it
is cut as an open one is (R134). The rule names open windows only; that a sealed one is cut too, and shows it, is this model's
choice (DESIGN CHOICE, log entry 55). -/
def State.cutSealed (s : State) (i : Nat) : State :=
  let w := s.win i
  ((s.modWin i fun w => { w with cut := true, awaits := [], arriving := [] }).pulse 0x13 Ev.TRIG.WINDOW_CUT).trigErr E.TRIG_WINDOW_CUT w.source (some i)

/-- A trigger keeps a segment that was to be released, before the first erase of its blocks (R132): its extents are journalled again, and
the groups that were freed for it are not. -/
def State.keepSeg (s : State) (nsid seg : Nat) : State :=
  if !s.take.releasing.contains (nsid, seg) then s
  else
    let t := s.setTake fun k => { k with releasing := k.releasing.filter (· != (nsid, seg)) }
    let us := t.media.image.map.filterMap fun x => match x.2 with
      | .mapped g u => if x.1.1 == nsid && x.1.2 / 262144 == seg then some (x.1.2, g, u) else none
      | .zeroes _ => none
    let t := (us.filter fun x => x.1 % 256 == 255).foldl (fun t x => t.journal 0x02 1 nsid (x.1 / 256) (x.2.1, x.2.2 - 255)) t
    let back := fun (g : Group) => g.state == .freed && !g.erasing && us.any fun x => x.2.1 == g.num
    let names := (t.groups.filter back).map (·.num)
    (t.setImage fun i => { i with groups := i.groups.map fun g => if back g then { g with state := .closed, freeAt := none } else g }).setMedia
      fun m => { m with freed := m.freed.filter fun n => !names.contains n }

/-- Window `i` pins the segments of a stretch of the ring: each segment newly pinned is drawn from the pool or, where the pool cannot
supply it, is one that the ring gives up sooner; a stretch that would leave fewer than two unpinned segments is not pinned, and cuts the
window (R134, R143). -/
def State.pinSpan (s : State) (i a b : Nat) : Bool × State :=
  let w := s.win i
  let old := s.pinnedSegs
  let new := (segsOf a b).filter fun x => !old.contains x
  let fits := decide ((s.drawsOwed + new.length) * segBytes ≤ s.poolSpare * 1000000)
  let left := (s.freeSegs.filter fun x => !new.contains x).length
  if !new.isEmpty && !fits && decide (left < 2) then (false, if w.state = 1 then s.cutWindow i else s.cutSealed i)
  else
    let t := (segsOf a b).foldl (fun t x => match t.take.c with | some c => t.keepSeg c.nsid x | none => t) s
    (true, if new.isEmpty then t
      else if fits then t.setTrig fun x => { x with drawn := x.drawn ++ new }
      else ((t.setTrig fun x => { x with short := x.short ++ new }).pulse 0x13 Ev.TRIG.RING_SHRUNK).trigErr
        E.TRIG_RING_SHRUNK w.source (some i))

/-- Pin a placed frame in window `i` (R134, R143). -/
def State.pinFrame (s : State) (i : Nat) (f : Nat × Nat × Nat) : State :=
  let w := s.win i
  if w.pinned.contains f || (w.state != 1 && w.state != 2) then s
  else
    let r := s.pinSpan i f.1 f.2.2
    if r.1 then r.2.modWin i fun w => { w with pinned := w.pinned ++ [f] } else r.2

/-- A window takes a frame: open, with the frame in its bounds, or sealed and waiting for it (R140, R143). -/
def Window.takes (w : Window) (uid capture : Nat) : Bool :=
  (w.state == 1 && decide (w.start ≤ capture) && decide (capture < w.fin)) || (w.state == 2 && w.awaits.contains uid)

/-- What has arrived of a frame under way, from its first record to the container's end, is pinned by the windows that take it
(R143). -/
def State.pinArriving (s : State) (i : Nat) (f : FrameSt) : State :=
  match f.firstRec with
  | none => s
  | some a =>
    let w := s.win i
    if w.ring ≠ s.takeId ∨ f.recEnd ≠ 0 ∨ w.takes f.uid f.capture = false then s
    else
      let r := s.pinSpan i a s.take.cont.length
      if r.1 then r.2.modWin i fun w => { w with arriving := w.arriving.filter (·.1 != f.uid) ++ [(f.uid, a, s.take.cont.length)] } else r.2

/-- A placed frame joins the windows that take it (R140, R143). -/
def State.joinWindows (s : State) (uid capture : Nat) (f : Nat × Nat × Nat) : State :=
  (List.range 64).foldl (fun t i =>
    let w := t.win i
    if w.ring ≠ t.takeId ∨ w.takes uid capture = false then t
    else (t.pinFrame i f).modWin i fun w =>
      { w with awaits := w.awaits.filter (· != uid), arriving := w.arriving.filter (·.1 != uid) }) s

/-- A segment of the open ring is to be released: its units count as gone from here on, and a group that holds no other is freed
(R131, R253). Until the first erase of its blocks a trigger may still keep its frames (R132; log entry 47). -/
def State.startRelease (s : State) (nsid seg : Nat) : State :=
  ((s.setTake fun k => { k with releasing := k.releasing ++ [(nsid, seg)] }).journal 0x02 1024 nsid (seg * 1024) (0, 0)).freeEmpty

/-- A segment of a ring is released, at the first erase of its blocks: its units leave the map, its frames are lost to later
windows, and its frame-index entries go (R132, R399). -/
def State.releaseSeg (s : State) (nsid seg : Nat) : State :=
  let lo := if seg = 0 then 2 else seg * 262144
  let hi := (seg + 1) * 262144
  let mine := match s.take.c with | some c => c.nsid == nsid | none => false
  let id := (((s.nsOf nsid).bind (·.tk)).map (·.takeId)).getD 0
  let t := s.setImage fun i => { i with map := i.map.filter fun x =>
    !(x.1.1 == nsid && decide (lo ≤ x.1.2) && decide (x.1.2 < hi)) }
  let t := t.setTake fun k => { k with releasedSegs := if mine then k.releasedSegs ++ [seg] else k.releasedSegs,
                                       releasing := k.releasing.filter (· != (nsid, seg)) }
  let t := t.modNs nsid fun n => { n with released := n.released ++ [seg] }
  let t := if mine then t.setTrig fun x => { x with ringFrames := x.ringFrames.filter fun f => !(segsOf f.2.2.1 f.2.2.2.2).contains seg } else t
  t.dropSpans fun x => x.takeId == id && x.off / segBytes == seg

/-- The first erase of a group is issued: the segments that it holds and that are to be released are released (R132), those of a ring that
has closed meanwhile too. -/
def State.releaseWith (s : State) (gn : Nat) : State :=
  (s.take.releasing.filter fun r => s.media.image.map.any fun x => x.1.1 == r.1 && x.1.2 / 262144 == r.2 && (match x.2 with
    | .mapped g _ => g == gn
    | .zeroes _ => false)).foldl (fun t r => t.releaseSeg r.1 r.2) s

/-- The oldest unpinned segments are released until `n` remain. The fuel is their number. -/
def State.releaseTo (nsid n : Nat) : Nat → State → State
  | 0, s => s
  | f + 1, s =>
    let l := s.freeSegs
    if l.length ≤ n then s
    else match l with
      | [] => s
      | x :: _ => State.releaseTo nsid n f (s.startRelease nsid x)

/-- The write head of a ring take needs a new segment (R131, R134). -/
def State.ringRoom (s : State) (c : Contract) (newLen : Nat) : State :=
  if c.kind ≠ 1 ∨ ceilDiv newLen segBytes ≤ ceilDiv s.take.cont.length segBytes then s
  else
    let limit := max 2 (c.ringGib - s.trig.short.length)
    let l := s.freeSegs.length
    if limit ≤ l then State.releaseTo c.nsid (limit - 1) l s else s

/-! ### Placing the container on media -/

/-- Encrypt and place the container's whole 4 KiB units that have not been placed (R101, R408). The fuel is their number. -/
def State.placeTake : Nat → State → State
  | 0, s => s
  | f + 1, s =>
    match s.take.c with
    | none => s
    | some c =>
      let p := s.take.placed
      if s.take.cont.length < p + 4096 ∨ s.readyPipes.isEmpty then s
      else match s.keySlot c.slot with
        | none => s
        | some k =>
          let ct := xtsCrypt true k.key (p / 4096) (sliceBytes s.take.cont p 4096)
          match s.placeUnit .take c.nsid c.nsid 2 (p / 4096) 0 ct none with
          | none => s
          | some t =>
            State.placeTake f (((t.setTake fun x => { x with placed := p + 4096 }).mediaBytes 4096).setImage
              fun i => { i with hostBytes := i.hostBytes + 4096 })

/-- Place what waits; without fresh masks it waits on (R404). -/
def State.placeAll (s : State) : State :=
  if s.take.c.isSome ∧ s.take.placed + 4096 ≤ s.take.cont.length ∧ s.readyPipes.isEmpty then s.mediaStall
  else State.placeTake ((s.take.cont.length - s.take.placed) / 4096) s

/-- Data bytes of a stripe of a take group of width `k`. -/
def State.stripeBytes (s : State) (k : Nat) : Nat := k * s.pieces false * 4096

/-- The room left in the stripe at the container's tail, 0 where the tail lies at a stripe's end (R103). -/
def State.tailRoom (s : State) (c : Contract) : Nat :=
  let un := s.take.cont.length - s.take.placed
  let full := fun (k u : Nat) => (k * s.pieces false - u) * 4096
  match s.openFor .take c.nsid 1 with
  | some g =>
    match g.stripes.getLast? with
    | some st =>
      let r := full g.k st.units.length
      if un ≤ r then r - un else s.stripeBytes g.k - (un - r) % max 1 (s.stripeBytes g.k)
    | none => if un = 0 then 0 else s.stripeBytes g.k - un
  | none => if un = 0 then 0 else s.stripeBytes c.k - un % max 1 (s.stripeBytes c.k)

/-- Append bytes to the container, zeros up to the next multiple of 64 after them, and place them (R112). -/
def State.appendRaw (s : State) (bs : Bytes) : State :=
  match s.take.c with
  | none => s
  | some c =>
    let n := s.take.cont.length + bs.length
    let pad := (64 - n % 64) % 64
    let s := s.ringRoom c (n + pad)
    let room := s.tailRoom c
    let t := s.setTake fun x => { x with
      cont := x.cont ++ bs ++ List.replicate pad 0
      tailSince := if room < bs.length + pad ∨ room = 0 then s.time else x.tailSince }
    t.placeAll

/-! ### Records -/

/-- A record header (R114): type, stream, body length, frame number, bytes 16-59. -/
def recHeader (ty stream body number : Nat) (mid : Bytes) : Bytes :=
  let h := leBytes 1 ty ++ leBytes 1 stream ++ leBytes 2 64 ++ leBytes 4 body ++ leBytes 8 number ++ padTo 44 mid
  h ++ leBytes 4 (crc32c h)

/-- Bytes of a chunk (R117). -/
def chunkBytes : Nat := 4 * 2 ^ 20

/-- Digest of chunk `i` of a container of which `covered` bytes count. -/
def chunkDigest (alg : Nat) (cont : Bytes) (covered i : Nat) : Bytes :=
  digest (DigestAlg.ofCode alg) ((cont.take covered).drop (i * chunkBytes) |>.take chunkBytes)

/-- An INDEX entry (R114). -/
def indexEntry (r : IndexRow) : Bytes :=
  leBytes 8 r.number ++ leBytes 8 r.capture ++ leBytes 8 r.off ++ leBytes 1 r.stream ++ leBytes 1 r.marks ++ leBytes 6 0

/-- An INDEX record at the end of a container (R114, R116), and the chunks listed after it. -/
def indexRecord (alg : Nat) (cont : Bytes) (index : List IndexRow) (lastIndex listed : Nat) : Bytes × Nat :=
  let off := cont.length
  let done := max listed (off / chunkBytes)
  let ds := ((List.range done).drop listed).flatMap (chunkDigest alg cont off)
  let body := index.flatMap indexEntry ++ ds
  (recHeader 0x05 0 body.length 0
    (leBytes 4 index.length ++ leBytes 4 (done - listed) ++ leBytes 8 lastIndex ++ leBytes 4 listed) ++ body, done)

/-- Append an INDEX record and enter its span in the frame index (R398). -/
def State.appendIndex (s : State) (c : Contract) : State :=
  let x := s.take
  let off := x.cont.length
  let r := indexRecord c.alg x.cont x.index x.lastIndex x.chunksListed
  let t := s.setTake fun y => { y with index := [], lastIndex := off, chunksListed := r.2,
                                        indexed := y.indexed ++ [⟨off + r.1.length, x.index, x.lastIndex, x.chunksListed⟩] }
  (t.appendRaw r.1).enterSpan c.takeId off (x.index.map fun r => (r.capture, r.key))

/-- The next record boundary lies at or after a multiple of 1 GiB that has no INDEX yet (R116). -/
def State.indexDue (s : State) : Bool := decide (s.take.lastIndex / 2 ^ 30 < s.take.cont.length / 2 ^ 30)

/-- Append a body record, after the INDEX where one is due. -/
def State.appendRec (s : State) (bs : Bytes) : State :=
  match s.take.c with
  | none => s
  | some c => (if s.indexDue then s.appendIndex c else s).appendRaw bs

/-! ### Frames -/

/-- Change a frame. -/
def State.modFrame (s : State) (uid : Nat) (f : FrameSt → FrameSt) : State :=
  s.setTake fun t => { t with frames := t.frames.map fun x => if x.uid == uid then f x else x }

/-- A frame by number. -/
def State.frame? (s : State) (uid : Nat) : Option FrameSt := s.take.frames.find? (·.uid == uid)

/-- The open frame of a stream. -/
def State.openFrame (s : State) (stream : Nat) : Option FrameSt := s.take.frames.find? fun f => f.stream == stream && !f.ended

/-- STREAM_OPEN follows the open frames (R89). -/
def State.showStreams (s : State) : State :=
  s.put R.GATE.STREAM_OPEN_OPEN (((List.range 8).filter fun n => (s.openFrame n).isSome).foldl (fun v n => v + 2 ^ n) 0)

/-- MARKS with a bit set. -/
def mark (m bit : Nat) : Nat := setBit m bit true

/-- DEFLATE input of a slice. -/
def sliceInput (f : FrameSt) (x : TakeSlice) : Bytes :=
  if x.stored then x.raw.raw else predictSlice x.raw.pred f.pixfmt f.cfa f.width x.raw.raw

/-- Input blocks of a slice (R161). -/
def sliceBlocks (f : FrameSt) (x : TakeSlice) : Nat := max 1 (ceilDiv (sliceInput f x).length 65536)

/-- The DEFLATE stream a lane makes of a slice (R160, R162, R164, R168). -/
def sliceBody (c : Contract) (f : FrameSt) (x : TakeSlice) : Bytes :=
  if x.stored then deflate 0 false [] x.raw.raw else deflate c.effort (bitAt c.flags 0) [] (sliceInput f x)

/-- DEFLATE blocks of the stream a lane makes of a slice (R182). -/
def sliceCount (c : Contract) (f : FrameSt) (x : TakeSlice) : Nat :=
  if x.stored then deflateCount 0 false [] x.raw.raw else deflateCount c.effort (bitAt c.flags 0) [] (sliceInput f x)

/-- The SLICE record (R114). A LOST one keeps FLAGS[1] and PRED 0 of its re-emissions (DESIGN CHOICE, log entry 79). -/
def sliceRecord (c : Contract) (f : FrameSt) (x : TakeSlice) (last : Bool) : Bytes :=
  let lost := x.status == .lost
  let body := if lost then [] else sliceBody c f x
  let fl := b2n last + b2n x.stored * 2 + b2n (!x.stored && bitAt c.flags 0) * 4 + b2n lost * 8
  let mid := leBytes 4 x.idx ++ leBytes 4 fl ++ leBytes 5 x.raw.off ++ leBytes 3 0 ++ leBytes 4 x.raw.raw.length
    ++ leBytes 1 (if x.stored then 0 else x.raw.pred) ++ leBytes 1 f.pixfmt ++ leBytes 2 f.width ++ leBytes 4 (crc32c x.raw.raw)
  recHeader 0x01 f.stream body.length f.number mid ++ body

/-- RAW slice digests joined, and their digest (R434). -/
def rawDigest (alg : Nat) (f : FrameSt) (pred : Nat) : Bytes :=
  let a := DigestAlg.ofCode alg
  digest a ((frameSlices f.pixfmt f.width f.height pred f.bytes).flatMap fun x => digest a x.raw)

/-- The FRAME record (R114). -/
def frameRecord (c : Contract) (f : FrameSt) (slices first : Nat) : Bytes :=
  let body := if bitAt c.flags 1 then rawDigest c.alg f c.pred else []
  let mid := leBytes 8 f.capture ++ leBytes 5 f.declared ++ leBytes 1 f.pixfmt ++ leBytes 1 f.cfa ++ leBytes 1 f.status
    ++ leBytes 5 f.bytes.length ++ leBytes 1 f.marks ++ leBytes 2 f.width ++ leBytes 2 f.height ++ leBytes 2 0
    ++ leBytes 4 slices ++ leBytes 8 first ++ leBytes 4 f.crc
  recHeader 0x04 f.stream body.length f.number mid ++ body

/-- What the summariser knows of a frame (R128). -/
def summaryInput (f : FrameSt) : SummaryInput :=
  { number := f.number, capture := f.capture, info := f.stream + f.marks * 256 + f.status * 65536 + f.pixfmt * 2 ^ 24,
    metaBytes := memReadN f.metaMem 0 f.metaLen, pixfmt := f.pixfmt, width := f.width, height := f.height }

/-- The last records of a frame once its slices are released and its key is complete: SUMMARY, META if any, FRAME (R115). A frame with a
record in a released segment is lost to every window (R132). -/
def State.finishFrame (s : State) (uid : Nat) : State :=
  match s.take.c, s.frame? uid with
  | some c, some f =>
    match f.key with
    | none => s
    | some key =>
      if !f.ended || f.recEnd ≠ 0 || s.take.slices.any (·.uid == uid) then s
      else
        let sum := summaryRecord (frameStats f.pixfmt f.width f.height f.bytes) key
        let t := s.appendRec (recHeader 0x02 f.stream sum.length f.number [] ++ sum)
        let t := if f.metaLen = 0 then t
          else t.appendRec (recHeader 0x03 f.stream f.metaLen f.number [] ++ memReadN f.metaMem 0 f.metaLen)
        let t := if t.indexDue then t.appendIndex c else t
        let off := t.take.cont.length
        let first := f.firstRec.getD off
        let rec_ := frameRecord c f f.released first
        let t := t.appendRaw rec_
        let fin := off + rec_.length
        let t := t.modFrame uid fun g => { g with recOff := off, recEnd := fin }
        let t := t.setTake fun x => { x with
          index := x.index ++ [⟨f.number, f.capture, off, f.stream, f.marks, key⟩]
          framesStored := x.framesStored + 1
          rawStored := x.rawStored + f.bytes.length
          marked := x.marked + b2n (f.marks != 0) }
        let t := if c.kind = 1 ∧ (segsOf first fin).all (fun x => !t.take.releasedSegs.contains x) then
            (t.setTrig fun x => { x with ringFrames := x.ringFrames ++ [(f.stream, f.capture, first, off, fin)] }).joinWindows
              uid f.capture (first, off, fin)
          else t
        t
  | _, _ => s

/-! ### Acknowledgement -/

/-- Whether an earlier slot of the same stream still waits. -/
def ackFront (seen : List Nat) (a : AckSlot) : Bool := !seen.contains a.stream

/-- The FRAME_ACKs whose turn has come, and the slots left (R80). -/
def ackTurn : List Nat → List AckSlot → List Bytes × List AckSlot
  | _, [] => ([], [])
  | seen, a :: as =>
    match a.pkt with
    | some p =>
      if ackFront seen a then let r := ackTurn seen as; (p :: r.1, r.2)
      else let r := ackTurn seen as; (r.1, a :: r.2)
    | none => let r := ackTurn (a.stream :: seen) as; (r.1, a :: r.2)

/-- Queue the FRAME_ACKs whose turn has come. -/
def State.flushAcks (s : State) : State :=
  let r := ackTurn [] s.take.acks
  r.1.foldl (fun t p => t.send p) (s.setTake fun t => { t with acks := r.2 })

/-- Answer a frame. -/
def State.ackFrame (s : State) (f : FrameSt) (status stored time : Nat) : State :=
  (s.setTake fun t => { t with
    frames := t.frames.filter (·.uid != f.uid)
    slices := t.slices.filter (·.uid != f.uid)
    acks := t.acks.map fun a => if a.uid = some f.uid then { a with pkt := some (ackPkt f.stream f.number status f.marks stored time) } else a }).flushAcks

/-- No window awaits a frame any more. -/
def State.unawait (s : State) (uid : Nat) : State :=
  s.setTrig fun t => { t with windows := t.windows.map fun w =>
    { w with awaits := w.awaits.filter (· != uid), arriving := w.arriving.filter (·.1 != uid) } }

/-- An accepted frame that cannot be secured is answered so, and no window awaits it (R80, R122, R143). -/
def State.refuseFrame (s : State) (f : FrameSt) : State := ((s.ackFrame f 1 0 0).takeErr E.TAKE_FRAME_UNSECURABLE).unawait f.uid

/-- The secured prefix advances, and the frames it reaches are secured (R101, R102). -/
def State.advanceSecured (s : State) : State :=
  match s.take.c with
  | none => s
  | some c =>
    let p := min s.take.cont.length (s.securedPrefix c.nsid s.take.placed)
    let t := s.setTake fun x =>
      { x with secured := max x.secured p, indexed := x.indexed.filter fun r => decide (max x.secured p < r.fin) }
    let hits := t.take.frames.filter fun f => f.recEnd != 0 && decide (f.recEnd ≤ t.take.secured)
    hits.foldl (fun u f => (u.bump R.TAKE.FRAMES_SECURED_COUNT).ackFrame f 0 f.bytes.length u.time) t

/-- The catalogue and the namespace of the open take follow the container (R119, R482). -/
def State.showTake (s : State) : State :=
  match s.take.c with
  | none => s
  | some c =>
    s.modNs c.nsid fun n =>
      { n with nuse := s.take.secured / 4096,
               tk := n.tk.map fun t => { t with bytes := s.take.cont.length, frames := s.take.framesStored,
                                                raw := s.take.rawStored, marked := s.take.marked } }

/-! ### Lanes -/

/-- A lane. -/
def State.lane (s : State) (l : Nat) : LaneSt := if h : l < 12 then s.lanes[l] else ⟨.idle, [], []⟩

/-- Change a lane, and show what it does (R182). -/
def State.modLane (s : State) (l : Nat) (f : LaneSt → LaneSt) : State :=
  if h : l < 12 then
    let x := f s.lanes[l]
    let use := match x.work with | .idle => 0 | .slice .. => 1 | .job _ => 2 | .reemit .. => 3
    let fn := match x.work with | .idle => 0 | .job d => d.job.func | _ => 0x1F1
    ({ s with lanes := s.lanes.set l x }).puts [(R.LANE.LANE_STATUS_USE l, use), (R.LANE.LANE_STATUS_FUNC l, fn)]
  else s

/-- A lane is reserved by the open take. -/
def State.laneReserved (s : State) (l : Nat) : Bool := s.bit (R.LANE.LANE_STATUS_RESERVED l)

/-- The lane may start work: live, idle, and not stalled by perturbation (R182, R598). -/
def State.laneFree (s : State) (l : Nat) : Bool :=
  s.laneLive l && (s.lane l).work == .idle && !s.trust.delays.any (·.1 == 0x18 + l)

/-- Bytes of a slice's stored copy (R164). -/
def TakeSlice.storedBytes (x : TakeSlice) : Nat := (deflate 0 false [] x.raw.raw).length

/-- Buffers of 1 MiB that a slice's output takes from the take chain list beyond its bucket (R172): those of the larger of its own
output and the stored copy that a mismatch would make of it, so that a re-emission (R168) finds its buffers. -/
def State.sliceChain (s : State) (x : TakeSlice) : Nat :=
  match s.take.c, s.take.frames.find? (·.uid == x.uid) with
  | some c, some f => ceilDiv (max (sliceBody c f x).length x.storedBytes - 2 ^ 20) (2 ^ 20)
  | _, _ => 0

/-- Slices that hold output buffers: those on lanes, and those verified and not yet released. -/
def State.slicesHeld (s : State) : List TakeSlice := s.take.slices.filter fun x => x.status == .onLane || x.status == .verified

/-- MiB of the take chain list in use (R172). -/
def State.chainInUse (s : State) : Nat := (s.slicesHeld.map s.sliceChain).foldl (· + ·) 0

/-- A slice may start: the take chain list of 96 MiB has the buffers its output needs (R172). No slice needs more than 6, so that
with fewer than 16 slices holding buffers there is always room. -/
def State.chainFits (s : State) (x : TakeSlice) : Bool :=
  decide (s.slicesHeld.length < 16) || decide (s.chainInUse + s.sliceChain x ≤ 96)

/-- Jobs that left a claimed lane take up the lowest idle unreserved lanes, oldest first (R94). -/
def State.unparkJobs (s : State) : State :=
  s.jobs.parked.foldl (fun t d =>
    match (List.range 12).find? fun l => !t.laneReserved l && t.laneFree l with
    | none => t
    | some l =>
      (t.modLane l fun y => { y with work := .job d }).setJobs fun j => { j with parked := j.parked.filter (·.job.id != d.job.id) }) s

/-- Start waiting take slices on idle reserved lanes, lowest first, and jobs that wait for an unreserved lane on theirs. -/
def State.dispatchSlices (s : State) : State :=
  ((s.take.slices.filter (·.status == .waiting)).foldl (fun t x =>
    match (List.range 12).find? fun l => t.laneReserved l && t.laneFree l with
    | none => t
    | some l =>
      if t.chainFits x then
        (t.modLane l fun y => { y with work := .slice x.uid x.idx 0 }).setTake fun k =>
          { k with slices := k.slices.map fun z => if z.uid == x.uid && z.idx == x.idx then { z with status := .onLane } else z }
      else t) s).unparkJobs

/-- Slices of a frame that are complete while more bytes may come (R159): whole raster slices with bytes after them. -/
def wholeSlices (f : FrameSt) : Nat :=
  let w := fmtBits f.pixfmt
  let lines := 8 * (4194304 / max 1 (f.width * w))
  let b := lines * f.width * w / 8
  if b = 0 then 0 else min ((f.bytes.length - 1) / b) (f.height / max 1 lines)

/-- Queue the slices of a frame up to number `n`. -/
def State.queueSlices (s : State) (uid n : Nat) : State :=
  match s.take.c, s.frame? uid with
  | some c, some f =>
    let all := frameSlices f.pixfmt f.width f.height c.pred f.bytes
    let new := ((all.take n).zipIdx.drop f.queued).map fun x => (⟨uid, x.2, x.1, .waiting, false, 0, 0⟩ : TakeSlice)
    ((s.setTake fun t => { t with slices := t.slices ++ new }).modFrame uid fun g => { g with queued := max g.queued (min n all.length) }).dispatchSlices
  | _, _ => s

/-- The open frame ends (R78, R81): SHORT, LONG, CRC_BAD, CAMERA_STATUS and DAMAGED as its rows give. -/
def State.endFrame (s : State) (f : FrameSt) (status : Nat) (crc : Option Nat) (damaged : Bool) : State :=
  let short := decide (f.recv < f.declared)
  let long := decide (f.declared < f.recv)
  let bad := match crc with | some c => !long && c != crc32c f.bytes | none => false
  let m := f.marks
  let m := if short then mark m 0 else m
  let m := if long then mark m 1 else m
  let m := if damaged then mark m 2 else m
  let m := if bad then mark m 4 else m
  let m := if status ≠ 0 then mark m 5 else m
  let t := s.modFrame f.uid fun g => { g with marks := m, status := status, crc := crc.getD 0, ended := true }
  let t := if short then ((t.bump R.GATE.SHORT_COUNT_COUNT).pulse 0x10 Ev.GATE.FRAME_SHORT).gateErr E.GATE_FRAME_SHORT f.stream f.number else t
  let t := if long then ((t.bump R.GATE.LONG_COUNT_COUNT).pulse 0x10 Ev.GATE.FRAME_LONG).gateErr E.GATE_FRAME_LONG f.stream f.number else t
  let t := if bad then (t.pulse 0x10 Ev.GATE.SENSOR_CRC).gateErr E.GATE_SENSOR_CRC f.stream f.number else t
  let t := (t.bump R.GATE.FRAMES_RX_COUNT).showStreams
  t.queueSlices f.uid (f.bytes.length + 1)

/-- Every open frame ends as the device ends it (R58, R104, R111). -/
def State.endOpenFrames (s : State) (status : Nat) : State :=
  (s.take.frames.filter (!·.ended)).foldl (fun t f => t.endFrame f status none false) s

end Sys2Proof.Machine
end

