-- ==== Sys2Proof/Machine/Windows.lean ====
section
/-!
DEFINITION. Windows: acceptance, merging and slots (R135, R138-R143). Log entry 72 names what the rules leave open.
-/

namespace Sys2Proof.Machine

/-! ### Identifiers -/

/-- The lowest free take NSID (R452), those reserved by windows excluded (R142). -/
def State.takeNsid (s : State) : Option Nat :=
  let used := s.ns.map (·.nsid) ++ (s.trig.windows.filter (·.state != 0)).map (·.nsid)
  let n := ((List.range (used.length + 1)).map (0x10000 + ·)).find? fun i => !used.contains i
  match n with
  | some i => if i < 0x30000 then some i else none
  | none => none

/-! ### Acceptance -/

/-- Priority of a source, 1 the highest (R135). -/
def trigPriority (src : Nat) : Nat := if src ≤ 2 then 1 else src - 1

/-- A trigger is refused (R135, R138, R142). -/
def State.refuseTrigger (s : State) (code src : Nat) : State :=
  ((s.bump R.TRIG.REFUSED_COUNT_COUNT).pulse 0x13 Ev.TRIG.REFUSED).trigErr code src none

/-- Pin the retained frames that a window covers (R143). -/
def State.pinRetained (s : State) (i : Nat) : State :=
  let w := s.win i
  (s.trig.ringFrames.filter fun f => decide (w.start ≤ f.2.1) && decide (f.2.1 < w.fin)).foldl
    (fun t f => if (t.win i).state = 1 then t.pinFrame i (f.2.2.1, f.2.2.2.1, f.2.2.2.2) else t) s

/-- Pin what has arrived of the frames under way that a window covers (R143). -/
def State.pinUnderWay (s : State) (i : Nat) : State := s.take.frames.foldl (fun t f => t.pinArriving i f) s

/-- The union of two windows in the slot of the first (R141). Among sources of one priority the first window's stays (DESIGN CHOICE, log
entry 72). -/
def Window.join (a b : Window) : Window :=
  { a with
    source := if trigPriority b.source < trigPriority a.source then b.source else a.source
    preShort := a.preShort || b.preShort, cut := a.cut || b.cut, late := a.late || b.late
    triggers := min (a.triggers + b.triggers) 65535
    start := min a.start b.start, fin := max a.fin b.fin
    pinned := a.pinned ++ b.pinned.filter fun f => !a.pinned.contains f
    arriving := a.arriving ++ b.arriving.filter fun f => !a.arriving.contains f }

/-- The open windows of the ring that a window overlaps or touches, by slot (R141). -/
def State.touching (s : State) (a b : Nat) : List Nat :=
  (List.range 64).filter fun i =>
    let w := s.win i
    w.state == 1 && w.ring == s.takeId && decide (a ≤ w.fin) && decide (w.start ≤ b)

/-- The oldest retained frame is later than the window's start (R143). -/
def State.preShort (s : State) (start : Nat) : Bool :=
  match (s.trig.ringFrames.map (·.2.1)) with
  | [] => false
  | c :: cs => decide (start < cs.foldl min c)

/-- A trigger with its time and durations (R135, R138, R140-R143). A new window takes the lowest free slot, bridged windows merge into the
lowest of theirs, and a start before DTIME 0 is 0 (DESIGN CHOICE, log entry 72). -/
def State.trigger (s : State) (src tag time pre post : Nat) : State :=
  match s.take.c with
  | some c =>
    if c.kind ≠ 1 ∨ !s.takeLive then s.refuseTrigger E.TRIG_NO_RING src
    else if 600000 < pre ∨ 3600000 < post ∨ pre + post = 0 ∨ s.time + 3600000000000 < time then s.refuseTrigger E.TRIG_BAD_WINDOW src
    else
      let a := time - pre * 1000000
      let b := time + post * 1000000
      let w0 : Window := { Window.free with state := 1, source := src, tag := tag, triggers := 1, start := a, fin := b, ring := c.takeId }
      let acc := fun (t : State) => ((t.bump R.TRIG.ACCEPTED_COUNT_COUNT).pulse 0x13 Ev.TRIG.ACCEPTED)
      match s.touching a b with
      | i :: is =>
        let w := is.foldl (fun w j => w.join (s.win j)) ((s.win i).join w0)
        let t := is.foldl (fun t j => t.modWin j fun _ => Window.free) s
        let t := (acc (t.modWin i fun _ => w)).bump R.TRIG.MERGED_COUNT_COUNT
        ((t.pulse 0x13 Ev.TRIG.MERGED).pinRetained i).pinUnderWay i
      | [] =>
        let top := if trigPriority src ≤ 2 then 64 else 64 - s.get R.TRIG.HW_RESERVE_SLOTS
        match (List.range top).find? (fun i => (s.win i).state == 0), s.takeNsid with
        | some i, some n =>
          let short := s.preShort a
          let t := acc (s.modWin i fun _ => { w0 with preShort := short, nsid := n })
          let t := if short then t.trigErr E.TRIG_PRE_SHORT src (some i) else t
          (t.pinRetained i).pinUnderWay i
        | _, _ => s.refuseTrigger E.TRIG_WINDOWS_FULL src
  | none => s.refuseTrigger E.TRIG_NO_RING src

/-- A trigger takes its place among those of its CTL cycle: by priority, then by source code, then as it came (R139). -/
def insertFire (f : Fire) : List Fire → List Fire
  | [] => [f]
  | x :: xs =>
    if trigPriority f.source < trigPriority x.source ∨ (trigPriority f.source = trigPriority x.source ∧ f.source < x.source)
    then f :: x :: xs else x :: insertFire f xs

/-- The triggers that have arrived are processed in their order (R139). -/
def State.settleTriggers (s : State) : State :=
  s.trig.arrived.foldl (fun t f => t.trigger f.source f.tag f.t f.pre f.post) (s.setTrig fun x => { x with arrived := [] })

/-- A trigger arrives: it waits for the end of its CTL cycle, and what an earlier cycle left is processed first (R139; log entry
32). -/
def State.arrive (s : State) (src tag time pre post : Nat) : State :=
  let t := if s.trig.arrived.all (·.cycle == s.time / 10) then s else s.settleTriggers
  t.setTrig fun x => { x with arrived := insertFire ⟨s.time / 10, src, tag, time, pre, post⟩ x.arrived }

end Sys2Proof.Machine
end

