-- ==== Sys2Proof/Machine/TakeClose.lean ====
section
/-!
DEFINITION. The ends of a take: CLOSING and its trailer (R75, R103, R111, R116-R118), the cut (R106, R283, R428), the release
of everything a contract reserves (R94), and recomputation (R108, R109).
-/

namespace Sys2Proof.Machine

/-! ### Lanes a contract reserves -/

/-- The lowest-numbered live lanes. -/
def State.lowestLanes (s : State) (n : Nat) : List Nat := ((List.range 12).filter s.laneLive).take n

/-- The reservation covers exactly the given lanes (R94, R170). -/
def State.reserveLanes (s : State) (ls : List Nat) : State :=
  let m := ls.foldl (fun v l => v + 2 ^ l) 0
  ((List.range 12).foldl (fun t l => t.put (R.LANE.LANE_STATUS_RESERVED l) (b2n (ls.contains l))) s).puts
    [(R.TAKE.LANES_MASK, m), (R.SHEARS.LANES_RESERVED_MASK, m)]

/-! ### Recomputation -/

/-- DIE_SHARE in permille (R94). -/
def dieShare (rate ratio m : Nat) : Nat := if m = 0 then 0 else min 1000 (ceilDiv (980 * rate * 256) (max 1 ratio * m))

/-- Change the open take's contract. -/
def State.modContract (s : State) (f : Contract → Contract) : State := s.setTake fun t => { t with c := t.c.map f }

/-- The contract is computed again (R108): the rate may fall to the Gate's, the lanes' and the media's limits, the allowance
follows, the reserved lanes are the lowest live ones, and a fall of the rate sends TAKE_GRANT (R109). The number of reserved lanes
stays that of the grant (DESIGN CHOICE, log entry 26). While the take closes only its lanes move (R94, R170). -/
def State.recompute (s : State) : State :=
  match s.take.c with
  | none => s
  | some c =>
    if !s.takeLive then (s.reserveLanes (s.lowestLanes c.lanes)).dispatchSlices
    else
      let m := s.mRate c.tier
      let g := if s.gateLimit = 0 then c.rate else s.gateLimit
      let rate := min (min c.rate g) (min (9600 * s.liveLanes) (m * c.minRatio / 256))
      let lee := min c.lee s.leeShare
      let cap := min c.cap (s.allowance m lee)
      let t := s.modContract fun c => { c with rate := rate, lee := lee, cap := cap }
      let t := (t.bump R.TAKE.RECOMPUTE_COUNT_COUNT).pulse 0x11 Ev.TAKE.RECOMPUTED
      let t := t.puts [(R.TAKE.GRANT_RATE_MBPS, rate), (R.TAKE.UNSECURED_CAP_BYTES, cap),
        (R.TAKE.DIE_SHARE_PERMILLE, dieShare rate c.minRatio m)]
      let t := (t.reserveLanes (t.lowestLanes c.lanes)).dispatchSlices
      if rate < c.rate then
        (t.send (grantPkt c.reqId 1 1 c.takeId rate c.duration cap lee)).takeErr E.TAKE_RECOMPUTED
      else t

/-! ### Frames that cannot be secured -/

/-- Frames whose FRAME record has been placed and that are not kept leave the counts and the index (R106). -/
def TakeSt.uncount (x : TakeSt) (gone : List FrameSt) : TakeSt :=
  let placed := gone.filter fun f => f.recEnd != 0
  let keep := fun (r : IndexRow) => !placed.any fun f => f.recOff == r.off
  { x with index := x.index.filter keep, indexed := x.indexed.map fun m => { m with rows := m.rows.filter keep }
           framesStored := x.framesStored - placed.length
           rawStored := x.rawStored - (placed.map (·.bytes.length)).foldl (· + ·) 0
           marked := x.marked - (placed.filter fun f => f.marks != 0).length }

/-- The take cut at its secured prefix (R106): later bytes go; the frames that end beyond it leave the counts and the index; an
INDEX that the cut takes away gives back the rows and the place that it had. -/
def TakeSt.cut (x0 : TakeSt) : TakeSt :=
  let x := x0.uncount x0.frames
  let p := x.secured
  let lost := x.indexed.filter fun r => decide (p < r.fin)
  let rows := lost.flatMap (·.rows) ++ x.index
  let first := lost.head?
  { x with cont := x.cont.take p, placed := min x.placed p, slices := [], frames := [], acks := [], trailer := none, index := rows
           lastIndex := (first.map (·.prev)).getD x.lastIndex, chunksListed := (first.map (·.listed)).getD x.chunksListed
           indexed := x.indexed.filter fun r => decide (r.fin ≤ p) }

/-- The open ring's windows keep no frame past the secured prefix, and await none (R106, R143, R145). -/
def State.cutPinned (s : State) : State :=
  s.setTrig fun t => { t with windows := t.windows.map fun w =>
    if w.state != 0 && w.ring == s.takeId then { w with pinned := w.pinned.filter fun f => decide (f.2.2 ≤ s.take.secured), awaits := [], arriving := [] }
    else w }

/-- The container is cut at its secured prefix (R106), and the frames that end beyond it are answered FRAME_ACK STATUS 0x01. -/
def State.cutTake (s : State) : State :=
  let t := s.take.frames.foldl (fun t f => t.refuseFrame f) s
  t.cutPinned.setTake fun x => { s.take.cut with acks := x.acks, lostFrames := x.lostFrames }

/-- The slices of frames leave the lanes. -/
def State.clearLanes (s : State) (gone : List FrameSt) : State :=
  (List.range 12).foldl (fun t l =>
    match (t.lane l).work with
    | .slice u _ _ => if gone.any (·.uid == u) then t.modLane l fun x => { x with work := .idle } else t
    | .reemit u _ => if gone.any (·.uid == u) then t.modLane l fun x => { x with work := x.held.headD .idle, held := x.held.drop 1 } else t
    | _ => t) s

/-- The frames that meet a condition are answered as not securable: none is counted, and their slices leave the lanes. -/
def State.refuseFrames (s : State) (p : FrameSt → Bool) : State :=
  let gone := s.take.frames.filter p
  ((gone.foldl (fun t f => t.refuseFrame f) s).setTake fun x => x.uncount gone).clearLanes gone

/-! ### The trailer -/

/-- The MANIFEST record's header and body at offset `off` (R114, R117). -/
def manifest (alg : Nat) (cont : Bytes) (off : Nat) : Bytes × Bytes :=
  let n := ceilDiv off chunkBytes
  let body := (List.range n).flatMap (chunkDigest alg cont off)
  let mid := leBytes 4 n ++ leBytes 1 alg ++ leBytes 1 (DigestAlg.ofCode alg).len ++ leBytes 2 0 ++ leBytes 8 off
  (recHeader 0x07 0 body.length 0 mid, body)

/-- The trailer (R118). -/
def trailerBytes (takeId reason alg frames raw stored marked man idx time : Nat) (top : Bytes) : Bytes :=
  let b := [0x43, 0x4F, 0x52, 0x4B, 0x54, 0x45, 0x4E, 0x44] ++ leBytes 8 takeId ++ leBytes 1 reason
    ++ leBytes 1 (DigestAlg.ofCode alg).len ++ leBytes 6 0 ++ leBytes 8 frames ++ leBytes 8 raw ++ leBytes 8 stored ++ leBytes 8 marked
    ++ leBytes 8 man ++ leBytes 8 idx ++ leBytes 8 time ++ padTo 64 top
  let h := padTo 4092 b
  h ++ leBytes 4 (crc32c h)

/-- The final INDEX, the MANIFEST and the trailer are placed, and the rest of the last stripe is filled (R103, R116-R118). -/
def State.placeTrailer (s : State) (c : Contract) (reason : Nat) : State :=
  let idx := s.take.cont.length
  let t := s.appendIndex c
  let man := t.take.cont.length
  let m := manifest c.alg t.take.cont man
  let t := t.appendRaw (m.1 ++ m.2)
  let n := t.take.cont.length
  let t := t.appendRaw (List.replicate ((4096 - n % 4096) % 4096) 0)
  let fin := t.take.cont.length
  let top := digest (DigestAlg.ofCode c.alg) m.2
  let t := t.appendRaw (trailerBytes c.takeId reason c.alg t.take.framesStored t.take.rawStored (fin + 4096) t.take.marked man idx
    t.time top)
  (t.setTake fun x => { x with trailer := some (man, idx, fin + 4096) }).padStripe .take c.nsid

/-- A closing take whose frames all have their records gets its trailer. -/
def State.tryTrailer (s : State) : State :=
  match s.take.c with
  | none => s
  | some c =>
    if s.get R.TAKE.TAKE_STATE_STATE = 4 ∧ s.take.trailer = none ∧ s.take.noTrailer = false ∧ s.take.frames.all (fun f => f.recEnd != 0) then
      s.placeTrailer c s.take.reason
    else s

/-! ### Closing -/

/-- Every open window of the ring seals when the take leaves OPEN and HELD (R143). -/
def State.sealAll (s : State) : State :=
  (List.range 64).foldl (fun t i =>
    if (t.win i).state = 1 then t.sealWindow i (decide (t.time < (t.win i).fin)) else t) s

/-- An open take goes to CLOSING with a REASON and a CLOSE_CAUSE (R111, R121): the triggers that have
arrived are processed (R135), its open frames end, credits stop, its windows seal. -/
def State.closeTake (s : State) (reason cause : Nat) (frameStatus : Nat := 2) : State :=
  if !s.takeLive then s
  else
    let t := (s.settleTriggers.endOpenFrames frameStatus).sealAll
    let t := t.puts [(R.TAKE.TAKE_STATE_STATE, 4), (R.TAKE.TAKE_STATE_CLOSE_CAUSE, cause), (R.GATE.CREDIT_STATE_HELD_BREACH, 0)]
    let t := t.setTake fun x => { x with reason := reason }
    let t := if reason = 2 then t.takeErr E.TAKE_CLOSED_MEDIA_EXHAUSTED else t
    t.advance.tryTrailer

/-- Bytes that take groups already open can hold, with the pool's reservation (R111's table: blocks already reserved). -/
def State.reservedRoom (s : State) (c : Contract) : Nat :=
  let open_ := (s.groups.filter fun g => g.state == .opened && g.use == .take && g.nsid == c.nsid).map fun g =>
    s.groupRoom g * 4096
  open_.foldl (· + ·) 0 + s.get R.FALLOW.RESERVED_USER_MB * 1000000

/-- The frames that no longer fit the room: the first ones fit while their raw bytes do. -/
def frameOverflow : Nat → List FrameSt → List Nat
  | _, [] => []
  | room, f :: fs =>
    if f.recEnd ≠ 0 then frameOverflow room fs
    else if f.bytes.length + 8192 ≤ room then frameOverflow (room - f.bytes.length - 8192) fs
    else f.uid :: frameOverflow 0 fs

/-- The media is exhausted (R246, R247): the take closes with REASON 0x02; frames that do not fit reserved blocks are
answered so. -/
def State.closeExhausted (s : State) (cause : Nat) : State :=
  match s.take.c with
  | none => s
  | some c =>
    if !s.takeLive then s
    else
      let t := s.endOpenFrames 2
      let no := frameOverflow (t.reservedRoom c) t.take.frames
      (t.refuseFrames fun f => no.contains f.uid).closeTake 2 cause

/-- A take is closing, by itself or in the power-failure sequence (R104, R111). -/
def State.takeEnding (s : State) : Bool := s.take.c.isSome && decide (4 ≤ s.get R.TAKE.TAKE_STATE_STATE)

/-- The array goes offline with a take open (R283): no frame can be secured and no trailer is written. A take that was closing already
closes with REASON 0x02 from there on (R122). -/
def State.closeOffline (s : State) : State :=
  if !s.takeLive && !s.takeEnding then s
  else
    let late := !s.takeLive && s.take.reason != 2
    let t := (s.setTake fun x => { x with noTrailer := true }).closeTake 2 5
    let t := if late then t.takeErr E.TAKE_CLOSED_MEDIA_EXHAUSTED else t
    let t := (t.clearLanes t.take.frames).cutTake
    t.puts [(R.TAKE.TAKE_STATE_CLOSE_CAUSE, 5)] |>.setTake fun x => { x with reason := 2 }

/-- Every stage that a frame still needs is live (R111's table). -/
def State.stagesLive (s : State) (f : FrameSt) : Bool :=
  let slices := s.take.slices.any (·.uid == f.uid)
  (!slices || decide (0 < s.liveLanes)) && (f.recEnd != 0 && decide (f.recEnd ≤ s.take.placed) || s.get R.CIPHER.PIPES_LIVE != 0)

/-- SAFE entry for a cause of bits 2-7 closes the take (R111). -/
def State.closeSafe (s : State) : State :=
  if !s.takeLive then s
  else
    let t := s.endOpenFrames 2
    (t.refuseFrames fun f => !t.stagesLive f).closeTake 7 9

/-- A key alarm closes the take: frames whose bytes have passed the cipher are secured, the others answered; its trailer waits
for its key (R428). -/
def State.closeKeys (s : State) : State :=
  if !s.takeLive && !s.takeEnding then s
  else
    let done := s.take.trailer.isSome && decide (s.take.cont.length ≤ s.take.placed)
    if done then s
    else
      let t := (s.setTake fun x => { x with noTrailer := true, trailer := none }).closeTake 8 0x0A
      let t := t.setTake fun x => { x with reason := 8 }
      let t := t.put R.TAKE.TAKE_STATE_CLOSE_CAUSE 0x0A
      let t := t.refuseFrames fun f => f.recEnd == 0 || decide (t.take.placed < f.recEnd)
      match t.take.c with
      | some c => t.padStripe .take c.nsid
      | none => t

/-- All that a contract reserves is released, and the take's registers that show the open take return to 0 (R94, R111). -/
def State.releaseTake (s : State) : State :=
  let t := (s.reserveLanes []).unparkJobs
  let t := t.puts [(R.TAKE.TAKE_STATE_STATE, 0), (R.TAKE.GRANT_RATE_MBPS, 0), (R.TAKE.GRANT_DURATION_SECONDS, 0),
    (R.TAKE.UNSECURED_CAP_BYTES, 0), (R.TAKE.SECURED_LEN_BYTES, 0), (R.TAKE.RATIO_NOW_RATIO, 0), (R.TAKE.DIE_SHARE_PERMILLE, 0),
    (R.FALLOW.RESERVED_USER_MB, 0), (R.DIGEST.UNITS_TAKE_RAW, 0), (R.DIGEST.UNITS_TAKE_STORED, 0)]
  let keep := t.take
  let t := t.setTake fun _ => { TakeSt.reset with
    nextUid := keep.nextUid, nextId := keep.nextId, lostFrames := keep.lostFrames, refusing := keep.refusing, releasing := keep.releasing }
  (t.setTrig fun x => { x with ringFrames := [], drawn := [], short := [] }).showStreams.advance

/-- The namespace of a take is sealed at its container's length, and the catalogue says how it ended (R119, R482). -/
def State.sealNs (s : State) (nsid reason len : Nat) (incomplete : Bool) : State :=
  let t := s.modNs nsid fun n =>
    { n with nsze := len / 4096, nuse := len / 4096,
             tk := n.tk.map fun k => { k with opened := false, incomplete := incomplete, reason := reason, fin := s.time, bytes := len,
                                              frames := s.take.framesStored, raw := s.take.rawStored, marked := s.take.marked } }
  match t.nsOf nsid with
  | some n => t.catalogChanged.nsChanged n
  | none => t

end Sys2Proof.Machine
end

