-- ==== Sys2Proof/Machine/Modes.lean ====
section
/-!
DEFINITION. The mode and what moves it without a request: activity and SAFE (R545, R546, R548), and reading a take's container
back from media.
-/

namespace Sys2Proof.Machine

/-- A cause of SAFE arises (R548): SAFE is entered at once but in FOLD, DOZE and BOOT; perturbation ends (R601), and a take
open closes for causes 2-7 (R111). -/
def State.enterSafe (s : State) (bit : Nat) : State :=
  let was := s.mode
  let t := s.put R.PWR.SAFE_CAUSE_CAUSE (setBit (s.get R.PWR.SAFE_CAUSE_CAUSE) bit true)
  if was ≤ 2 then t
  else
    let t := if 2 ≤ bit then t.closeSafe else t
    if was = 7 then t
    else
      let t := (t.setMode 7).endPerturb .safe
      (t.pulse 2 Ev.PWR.SAFE_ENTERED).record 2 E.PWR_SAFE_ENTERED (7 + was * 256)

/-! ### Reading a take back -/

/-- The plaintext of one unit of a namespace from media, under its key (R403, R408). -/
def State.readPlain (s : State) (key : Bytes) (nsid unit : Nat) : Option Bytes × State :=
  match s.mapEnt nsid unit with
  | some (.mapped g u) =>
    match s.fetchUnit g u with
    | (some ct, t) => (some (xtsCrypt false key unit ct), t)
    | (none, t) => (none, t)
  | some (.zeroes _) => (some zeroPiece, s)
  | none => (none, s)

/-- Several units in order; none where one cannot be read. -/
def State.readUnits (key : Bytes) (nsid : Nat) : List Nat → State → Option Bytes × State
  | [], s => (some [], s)
  | u :: us, s =>
    match s.readPlain key nsid u with
    | (none, t) => (none, t)
    | (some b, t) =>
      match State.readUnits key nsid us t with
      | (some bs, v) => (some (b ++ bs), v)
      | (none, v) => (none, v)

/-- Bytes of a container. -/
def State.readTake (s : State) (n : Ns) (off len : Nat) : Option Bytes × State :=
  if s.readyPipes.isEmpty then (none, s.mediaStall)
  else match s.mediaKey n.keyRec n.keySeq with
  | (none, t) => (none, t)
  | (some key, t) =>
    let a := off / 4096
    let k := ceilDiv (off + len) 4096 - a
    match State.readUnits key n.nsid ((List.range k).map (a + ·)) t with
    | (some bs, v) => (some (sliceBytes bs (off - a * 4096) len), v)
    | (none, v) => (none, v)

/-! ### Settling -/

/-- What follows every change of the take's container: credits, the trailer of a closing take, and what the registers and the
namespace show (R67, R111, R119). -/
def State.settle (s : State) : State :=
  let t := s.advance.tryTrailer
  (t.put R.TAKE.SECURED_LEN_BYTES t.take.secured).showTake

end Sys2Proof.Machine
end

