-- ==== Sys2Proof/Machine/CrookRun.lean ====
section
/-!
DEFINITION. The running of one Crook instruction: fetch, effect, trap or retirement (R315, R336, R339), and what follows an
uncorrectable memory error (R318, R319).
-/

namespace Sys2Proof.Machine

/-! ### System cores -/

/-- DS_BYTES and RS_BYTES that two free values choose among all that fit below 0x1E000 (R326, R330). -/
def stackBytes (a b : Nat) : Nat × Nat :=
  let ds := 128 + 64 * (a % ((0x1E000 - 136 - 144 - 128) / 64 + 1))
  (ds, 144 + 72 * (b % ((0x1E000 - 136 - 144 - ds) / 72 + 1)))

/-- A system core starts on the firmware image: RUNNING in system state, where the image has it start, with the stacks the image asks
for (log entries 25 and 56). -/
def State.startSystem (s : State) (c : Fin 72) : State :=
  let f := s.fresh
  let g := f.2.fresh
  let d := g.2.fresh
  let r := d.2.fresh
  let b := stackBytes d.1 r.1
  r.2.setCore c ({ Core.off.layStacks b.1 b.2 with
    state := .running, status := 1, pc := BitVec.ofNat 48 (2 * f.1), trapvec := BitVec.ofNat 48 (2 * g.1) }.keeping s.cores[c])

/-- Fewer than two live system cores lead to SAFE (R319). -/
def State.checkSystem (s : State) : State := if s.liveSystemCores < 2 then s.enterSafe 4 else s

/-- A system core waits for the others to restart it from the firmware image, which pauses fetch (R319). -/
def State.restartSystem (s : State) (c : Fin 72) : State :=
  (s.parkCore c .handover).setPwr fun p => { p with fw := { p.fw with restart := p.fw.restart.filter (· != c.val) ++ [c.val] } }

/-- The system cores that wait for their restart start on the firmware image, and fetch resumes (R319, R332). -/
def State.restartEnds (s : State) : State :=
  (((List.finRange 72).filter fun c => s.pwr.fw.restart.contains c.val && decide ((s.cores[c]).state ≠ .retired)).foldl State.startSystem s).setPwr fun p =>
    { p with fw := { p.fw with restart := [] } }

/-! ### Uncorrectable errors -/

/-- 24 hours in ns. -/
def dayNs : Nat := 86400000000000

/-- An uncorrectable error is counted and recorded; the third within 24 h retires the core, and a system core is otherwise started
again by the others (R318, R319). -/
def State.eccTrapped (s : State) (c : Fin 72) : State :=
  let k := s.cores[c]
  let ts := s.time :: k.eccTimes.filter fun t => decide (s.time < t + dayNs)
  let t := s.setCore c { k with eccUncorrected := sat32 (k.eccUncorrected + 1), eccTimes := ts }
  let t := (t.pulse (corePage c) Ev.CORE.ECC_UNCORRECTED).record (corePage c) E.CROOK_ECC_UNCORRECTED
    (crookInfo 1 k.func.toNat) k.func.toNat
  let t := if 3 ≤ ts.length then t.retireCore c else if c.val < 8 then t.restartSystem c else t
  if c.val < 8 then t.checkSystem else t

/-- A core takes a trap (R315), with what MEM_ECC (R318, R319) and the halt of a system core (R319) bring. -/
def State.trapped (s : State) (c : Fin 72) (k : Core) (t : Trap) (pc : BitVec 48) : State :=
  let u := s.trapCore c k t pc
  let u := if t.cause = 1 then u.eccTrapped c else u
  if c.val < 8 ∧ (u.cores[c]).state = .halted then u.checkSystem else u

/-! ### One instruction -/

/-- One instruction of `len` parcels and `cyc` base cycles on core `c`: nothing happens unless the core is RUNNING; then its
parcels are fetched, its effect happens with PC past it, and it retires, which is activity of its program (R546), or it traps. A WAIT
that sleeps costs what its fills and translations took; the rest counts when it ends. -/
def State.insn (s : State) (c : Fin 72) (len cyc : Nat) (body : Body) : State :=
  let k := s.cores[c]
  if k.state ≠ .running then s
  else
    match Ctx.fetch len k.pc.toNat ⟨s, c, k, cyc, none, none, 0⟩ with
    | .error t => s.trapped c k t k.pc
    | .ok x =>
      match body { x with k := { x.k with pc := k.pc + BitVec.ofNat 48 (2 * len) } } with
      | .error t => s.trapped c k t (if t.cause = 0x13 then k.pc + BitVec.ofNat 48 (2 * len) else k.pc)
      | .ok y =>
        let t := match y.late, y.hold with
          | _, some w => y.s.setCore c { y.k with pc := k.pc, state := .waiting, wait := some w, since := y.s.time,
                                                  cycle := y.k.cycle + BitVec.ofNat 64 (y.cost - cyc) }
          | some t, none =>
            y.s.trapped c { y.k with ds := k.ds, rs := k.rs, dsp := k.dsp, rsp := k.rsp, pc := k.pc,
                                     cycle := y.k.cycle + BitVec.ofNat 64 y.cost } t k.pc
          | none, none => y.retire c
        y.eccs.repeat (·.eccTrapped c) t

/-- Core `n`'s memories by a number: a word of local memory, or the line or entry that stands at the place in a cache or in the
micro-TLB. -/
def Core.place (k : Core) (kind i : Nat) : CoreMem :=
  let at_ := fun (l : List DLine) => l[i % max 1 l.length]?
  match kind % 4 with
  | 0 => .word (i % 16384)
  | 1 => (match at_ k.dcache with | some l => .dline l.tgt l.line | none => .word (i % 16384))
  | 2 => (match at_ k.icache with | some l => .iline l.tgt l.line | none => .word (i % 16384))
  | _ => (match k.utlb[i % max 1 k.utlb.length]? with | some e => .utlb e.func e.va | none => .word (i % 16384))

/-- Memory errors arise in the cores as time passes: which ones is free (R318; log entry 57). -/
def State.coreUpsets (s : State) : State :=
  (Config.upsets s.freeNext).foldl (fun t u => t.modCore u.1 fun k => k.upset (k.place u.2.1 u.2.2.1) u.2.2.2)
    { s with freeNext := s.freeNext + 1 }

end Sys2Proof.Machine
end

