-- ==== Sys2Proof/Machine/Float.lean ====
section
/-!
DEFINITION. IEEE 754-2019 binary16 and binary32 arithmetic as R312 and R350 use it: round to nearest, ties to even, subnormals
kept, canonical quiet NaN, and the five sticky flags.
-/

namespace Sys2Proof.Machine

/-- A binary format: precision with the hidden bit, and exponent field width. -/
structure FFmt where
  /-- precision -/
  p : Nat
  /-- width of the exponent field -/
  eb : Nat
deriving DecidableEq, Repr

/-- binary16. -/
def half : FFmt := ⟨11, 5⟩
/-- binary32. -/
def single : FFmt := ⟨24, 8⟩

/-- Exponent bias. -/
def FFmt.bias (f : FFmt) : Nat := 2 ^ (f.eb - 1) - 1
/-- Width in bits. -/
def FFmt.width (f : FFmt) : Nat := f.p + f.eb
/-- The canonical quiet NaN (R312). -/
def FFmt.qnan (f : FFmt) : Nat := (2 ^ f.eb - 1) * 2 ^ (f.p - 1) + 2 ^ (f.p - 2)
/-- Infinity of a sign. -/
def FFmt.inf (f : FFmt) (s : Bool) : Nat := b2n s * 2 ^ (f.width - 1) + (2 ^ f.eb - 1) * 2 ^ (f.p - 1)
/-- Zero of a sign. -/
def FFmt.zero (f : FFmt) (s : Bool) : Nat := b2n s * 2 ^ (f.width - 1)

/-- A decoded value: NaN (signalling or not), infinity, or sign, mantissa and exponent of `m · 2^e`. -/
inductive Fp where
  | nan (signalling : Bool) | inf (s : Bool) | fin (s : Bool) (m : Nat) (e : Int)
deriving DecidableEq, Repr

/-- Decode a bit pattern. -/
def FFmt.decode (f : FFmt) (v : Nat) : Fp :=
  let s := bitAt v (f.width - 1)
  let ex := bits v (f.p - 1) f.eb
  let fr := bits v 0 (f.p - 1)
  if ex = 2 ^ f.eb - 1 then (if fr = 0 then .inf s else .nan (!bitAt fr (f.p - 2)))
  else if ex = 0 then .fin s fr (2 - (f.bias : Int) - f.p)
  else .fin s (fr + 2 ^ (f.p - 1)) ((ex : Int) - f.bias - f.p + 1)

/-- FFLAGS masks, bit 0 of them being STATUS bit 4 (R314). -/
def fInvalid : Nat := 1
/-- Divide by zero. -/
def fDivZero : Nat := 2
/-- Overflow. -/
def fOverflow : Nat := 4
/-- Underflow. -/
def fUnderflow : Nat := 8
/-- Inexact. -/
def fInexact : Nat := 16

/-- `m` divided by `2^k`, rounded to nearest with ties to even. -/
def rne (m k : Nat) : Nat :=
  let q := m / 2 ^ k
  let r := m % 2 ^ k
  if 2 * r > 2 ^ k ∨ (2 * r = 2 ^ k ∧ q % 2 = 1) then q + 1 else q

/-- Round `m · 2^e`, with a non-zero remainder below it where `sticky`, to the format: result and flags. -/
def FFmt.round (f : FFmt) (s : Bool) (m : Nat) (e : Int) (sticky : Bool) : Nat × Nat :=
  if m = 0 ∧ !sticky then (f.zero s, 0)
  else
    let m := m * 2 ^ (f.p + 3) + b2n sticky
    let e := e - (f.p + 3 : Nat)
    let n : Int := Nat.log2 m + 1
    let emin : Int := 1 - (f.bias : Int)
    let q' := e + n - f.p
    let q := max q' (emin - f.p + 1)
    let k := (q - e).toNat
    let r := rne m k
    let inexact := m % 2 ^ k != 0
    let before := decide (e + n ≤ emin)
    let after := before && !(rne m (q' - e).toNat == 2 ^ f.p && q' + f.p == emin)
    let tiny := if Config.tinyBeforeRounding then before else after
    let code := (q + f.p - 2 + f.bias).toNat * 2 ^ (f.p - 1) + r
    if code ≥ (2 ^ f.eb - 1) * 2 ^ (f.p - 1) then (f.inf s, fOverflow + fInexact)
    else (b2n s * 2 ^ (f.width - 1) + code,
          (if inexact then fInexact else 0) + (if inexact && tiny then fUnderflow else 0))

/-- A NaN result for operands of which one is NaN: invalid for a signalling one. -/
def FFmt.nanOf (f : FFmt) (sig : Bool) : Nat × Nat := (f.qnan, if sig then fInvalid else 0)

/-- An operand is a signalling NaN. -/
def Fp.signalling : Fp → Bool
  | .nan b => b | _ => false

/-- An operand is a NaN. -/
def Fp.isNan : Fp → Bool
  | .nan _ => true | _ => false

/-- The integer `±m·2^e` scaled by `2^-base`, for `base ≤ e`. -/
def scaled (s : Bool) (m : Nat) (e base : Int) : Int :=
  let v : Int := m * 2 ^ (e - base).toNat
  if s then -v else v

/-- Sum of two finite values, rounded once. -/
def FFmt.addFin (f : FFmt) (s1 : Bool) (m1 : Nat) (e1 : Int) (s2 : Bool) (m2 : Nat) (e2 : Int) : Nat × Nat :=
  let b := min e1 e2
  let v := scaled s1 m1 e1 b + scaled s2 m2 e2 b
  if v = 0 then (f.zero (s1 && s2), 0) else f.round (v < 0) v.natAbs b false

/-- Addition of decoded values. -/
def FFmt.addFp (f : FFmt) (a b : Fp) : Nat × Nat :=
  match a, b with
  | .nan x, y => f.nanOf (x || y.signalling)
  | x, .nan y => f.nanOf (y || x.signalling)
  | .inf s, .inf t => if s = t then (f.inf s, 0) else (f.qnan, fInvalid)
  | .inf s, .fin .. => (f.inf s, 0)
  | .fin .., .inf t => (f.inf t, 0)
  | .fin s1 m1 e1, .fin s2 m2 e2 => f.addFin s1 m1 e1 s2 m2 e2

/-- The opposite sign. -/
def Fp.neg : Fp → Fp
  | .nan b => .nan b | .inf s => .inf (!s) | .fin s m e => .fin (!s) m e

/-- FADD. -/
def FFmt.add (f : FFmt) (a b : Nat) : Nat × Nat := f.addFp (f.decode a) (f.decode b)
/-- FSUB. -/
def FFmt.sub (f : FFmt) (a b : Nat) : Nat × Nat := f.addFp (f.decode a) (f.decode b).neg

/-- FMUL. -/
def FFmt.mul (f : FFmt) (a b : Nat) : Nat × Nat :=
  match f.decode a, f.decode b with
  | .nan x, y => f.nanOf (x || y.signalling)
  | x, .nan y => f.nanOf (y || x.signalling)
  | .inf s, .inf t => (f.inf (s != t), 0)
  | .inf s, .fin t m _ => if m = 0 then (f.qnan, fInvalid) else (f.inf (s != t), 0)
  | .fin s m _, .inf t => if m = 0 then (f.qnan, fInvalid) else (f.inf (s != t), 0)
  | .fin s1 m1 e1, .fin s2 m2 e2 => f.round (s1 != s2) (m1 * m2) (e1 + e2) false

/-- FDIV. -/
def FFmt.div (f : FFmt) (a b : Nat) : Nat × Nat :=
  match f.decode a, f.decode b with
  | .nan x, y => f.nanOf (x || y.signalling)
  | x, .nan y => f.nanOf (y || x.signalling)
  | .inf _, .inf _ => (f.qnan, fInvalid)
  | .inf s, .fin t _ _ => (f.inf (s != t), 0)
  | .fin s _ _, .inf t => (f.zero (s != t), 0)
  | .fin s1 m1 e1, .fin s2 m2 e2 =>
    if m2 = 0 then (if m1 = 0 then (f.qnan, fInvalid) else (f.inf (s1 != s2), fDivZero))
    else
      let k := 2 * f.p + 4
      let n := m1 * 2 ^ k
      f.round (s1 != s2) (n / m2) (e1 - e2 - k) (n % m2 != 0)

/-- FMA: a × b + c, rounded once. -/
def FFmt.fma (f : FFmt) (a b c : Nat) : Nat × Nat :=
  let x := f.decode a
  let y := f.decode b
  let z := f.decode c
  let sig := x.signalling || y.signalling || z.signalling
  if x.isNan || y.isNan then f.nanOf sig
  else
    match x, y with
    | .inf _, .fin _ 0 _ | .fin _ 0 _, .inf _ =>
      if z.isNan then (f.qnan, if sig || Config.fmaNanInvalid then fInvalid else 0) else (f.qnan, fInvalid)
    | .inf s, .inf t | .inf s, .fin t _ _ | .fin s _ _, .inf t => f.addFp (.inf (s != t)) z
    | .fin s1 m1 e1, .fin s2 m2 e2 => f.addFp (.fin (s1 != s2) (m1 * m2) (e1 + e2)) z
    | _, _ => f.nanOf sig

/-- Numeric order of two values that are not NaN: `a < b`. -/
def Fp.lt : Fp → Fp → Bool
  | .inf s, .inf t => s && !t
  | .inf s, .fin .. => s
  | .fin .., .inf t => !t
  | .fin s1 m1 e1, .fin s2 m2 e2 => decide (scaled s1 m1 e1 (min e1 e2) < scaled s2 m2 e2 (min e1 e2))
  | _, _ => false

/-- Numeric equality of two values that are not NaN. -/
def Fp.eqv : Fp → Fp → Bool
  | .inf s, .inf t => s == t
  | .fin s1 m1 e1, .fin s2 m2 e2 => decide (scaled s1 m1 e1 (min e1 e2) = scaled s2 m2 e2 (min e1 e2))
  | _, _ => false

/-- The sign of a value. -/
def Fp.sign : Fp → Bool
  | .inf s => s | .fin s _ _ => s | .nan _ => false

/-- Below in the order of IEEE minimum, where −0 counts below +0. -/
def Fp.below (a b : Fp) : Bool := a.lt b || (a.eqv b && a.sign && !b.sign)

/-- FMIN and FMAX. -/
def FFmt.minmax (f : FFmt) (max : Bool) (a b : Nat) : Nat × Nat :=
  let x := f.decode a
  let y := f.decode b
  if x.isNan || y.isNan then f.nanOf (x.signalling || y.signalling)
  else if x.below y != max then (a, 0) else (b, 0)

/-- FCMPEQ, quiet. -/
def FFmt.cmpeq (f : FFmt) (a b : Nat) : Bool × Nat :=
  let x := f.decode a
  let y := f.decode b
  (x.eqv y, if x.signalling || y.signalling then fInvalid else 0)

/-- FCMPLT, signalling. -/
def FFmt.cmplt (f : FFmt) (a b : Nat) : Bool × Nat :=
  let x := f.decode a
  let y := f.decode b
  (x.lt y, if x.isNan || y.isNan then fInvalid else 0)

/-- CVT.F: an integer to the format. -/
def FFmt.ofInt (f : FFmt) (i : Int) : Nat × Nat := f.round (i < 0) i.natAbs 0 false

/-- CVT.I: the format to a `w`-bit integer, signed or not; NaN gives 0, a value out of range the nearest limit. -/
def FFmt.toInt (f : FFmt) (w : Nat) (sgn : Bool) (a : Nat) : Nat × Nat :=
  let lo : Int := if sgn then -(2 : Int) ^ (w - 1) else 0
  let hi : Int := if sgn then (2 : Int) ^ (w - 1) - 1 else (2 : Int) ^ w - 1
  match f.decode a with
  | .nan _ => (0, fInvalid)
  | .inf s => (wrapInt w (if s then lo else hi), fInvalid)
  | .fin s m e =>
    let r : Nat := if 0 ≤ e then m * 2 ^ e.toNat else rne m (-e).toNat
    let exact := decide (0 ≤ e) || m % 2 ^ (-e).toNat == 0
    let v : Int := if s then -(r : Int) else r
    if v < lo then (wrapInt w lo, fInvalid)
    else if hi < v then (wrapInt w hi, fInvalid)
    else (wrapInt w v, if exact then 0 else fInexact)

/-- CVT.W and CVT.N: one format to another. -/
def FFmt.convert (f g : FFmt) (a : Nat) : Nat × Nat :=
  match f.decode a with
  | .nan b => g.nanOf b
  | .inf s => (g.inf s, 0)
  | .fin s m e => g.round s m e false

end Sys2Proof.Machine
end

