-- ==== Sys2Proof/Machine/ArrayBase.lean ====
section
/-!
DEFINITION. Shared operations of the media map and the array: spares and retired blocks (R242-R246), copies of units (R220,
R232), lost members and the rewriting of open stripes (R279, R280), the array's state (R281-R283), reshape (R286, R287), and
format (R210, R244, R256).
-/

namespace Sys2Proof.Machine

/-! ### Errors -/

/-- Record a MEDIA condition about a group (R255). -/
def State.mediaErr (s : State) (code gn : Nat) : State := s.record 0x60 code (gn % 2 ^ 20)

/-- Record an ARRAY condition about a die and a group (R291). -/
def State.arrayErr (s : State) (code die gn : Nat) : State := s.record 0x62 code (die % 512 + gn % 2 ^ 20 * 512)

/-! ### Spares -/

/-- Whole GB of a number of multi-plane blocks (R244). -/
def State.blocksGB (s : State) (n : Nat) : Nat := n * s.blockBytes / 1000000000

/-- Free spare in GB. -/
def State.freeSpare (s : State) : Nat := s.get R.MEDIA.SPARE_TOTAL_GB - s.get R.MEDIA.SPARE_USED_GB

/-- SPARE_USED: the retired blocks and those that rebuild took, in whole GB (R244; log entry 62). -/
def State.chargeSpares (s : State) : State :=
  s.put R.MEDIA.SPARE_USED_GB (s.blocksGB (s.media.image.retired.length + s.media.image.spareTaken.length))

/-- Unallocated capacity in whole GB (R245). -/
def State.unallocatedGB (s : State) : Nat := (s.get R.MEDIA.MAXCAP_MB - s.allocatedMB) / 1000

/-- Spares are exhausted (R246, R247): an open take closes, and the device enters SAFE. -/
def State.exhaustSpares (s : State) : State :=
  let t := s.puts [(R.MEDIA.MEDIA_STATUS_READ_ONLY, 1),
    (R.MEDIA.MEDIA_STATUS_SAFE_CAUSE, if s.bit R.MEDIA.MEDIA_STATUS_COMPAT then 2 else 1)]
  let t := (t.pulse 0x60 Ev.MEDIA.READ_ONLY).record 0x60 E.MEDIA_SPARES_EXHAUSTED 0
  ((t.closeExhausted 3).enterSafe 0).settle

/-- Whole GB of user capacity that restore free spare to twice SPARE_LOW (R245), cut to what is unallocated. -/
def State.spareWanted (s : State) : Nat :=
  let k := s.width
  min (ceilDiv ((2 * s.get R.MEDIA.SPARE_LOW_GB - s.freeSpare) * k * 985) ((k + 2) * 1000)) s.unallocatedGB

/-- Convert `x` GB of user capacity to spare (R245). -/
def State.convertSpare (s : State) (x : Nat) : State :=
  let k := s.width
  let t := s.puts [(R.MEDIA.MAXCAP_MB, s.get R.MEDIA.MAXCAP_MB - 1000 * x),
    (R.MEDIA.SPARE_TOTAL_GB, s.get R.MEDIA.SPARE_TOTAL_GB + x * (k + 2) * 1000 / (k * 985))]
  let t := (t.journal 0x0C 1 0 (1000 * x) (0, 0)).bump R.MEDIA.CONVERSIONS_COUNT
  (t.pulse 0x60 Ev.MEDIA.SPARE_CONVERTED).record 0x60 E.MEDIA_SPARE_CONVERTED 0

/-- Free spare below SPARE_LOW is restored from unallocated capacity, or the spares are exhausted (R245, R246). -/
def State.checkSpares (s : State) : State :=
  let low := s.get R.MEDIA.SPARE_LOW_GB
  if !s.media.formatted || decide (low ≤ s.freeSpare) || s.bit R.MEDIA.MEDIA_STATUS_READ_ONLY then s
  else if s.bit R.MEDIA.MEDIA_STATUS_COMPAT || s.spareWanted == 0 then s.exhaustSpares
  else
    let t := s.convertSpare s.spareWanted
    if t.freeSpare < low ∧ t.unallocatedGB = 0 then t.exhaustSpares else t

/-- In SAFE for want of spares, freed capacity goes first to restore free spare (R250). -/
def State.restoreSpare (s : State) : State :=
  if s.bit R.MEDIA.MEDIA_STATUS_READ_ONLY && s.spareWanted != 0 then s.convertSpare s.spareWanted else s

/-- A block is retired (R242). -/
def State.retireBlock (s : State) (d b gn : Nat) : State :=
  if s.media.image.retired.contains (d, b) then s
  else
    let t := (s.setImage fun i => { i with retired := i.retired ++ [(d, b)] }).setMedia fun m =>
      { m with metaBlocks := m.metaBlocks.filter fun x => !(x.die == d && x.block == b) }
    let t := (t.journal 0x0D 1 0 gn (gn, 0)).bump R.MEDIA.RETIRED_BLOCKS_COUNT
    ((t.pulse 0x60 Ev.MEDIA.BLOCK_RETIRED).mediaErr E.MEDIA_BLOCK_RETIRED gn).chargeSpares.checkSpares

/-! ### Valid units and copies -/

/-- Indices of the valid data units of a group. -/
def State.validIdx (s : State) (g : Group) : List Nat :=
  if g.use = .metadata then (s.validMeta g).map (·.2.2) else (s.validUnits g.num).map (·.2.2)

/-- Capacity of a group in data units. -/
def State.groupUnits (s : State) (g : Group) : Nat := s.part.units * s.stripeUnits g

/-- A copy of a logical unit is on its way: placed in a stripe whose programs have not all ended, or waiting for a place. -/
def State.copying (s : State) (nsid logical : Nat) : Bool :=
  let hit := fun (u : DUnit) => u.nsid == nsid && u.logical == logical && (u.kind == 1 || u.kind == 2)
  (s.groups.any fun g => g.stripes.any fun st => !st.settled && st.units.any hit) || s.media.waiting.any fun w => w.units.any hit

/-- The data of a unit is lost to a write hole: no entry names it any longer, which the journal records as a DEALLOCATE, and reads of it
fail until it is written again (R223, R276, R277; log entry 91). -/
def State.loseUnit (s : State) (nsid logical : Nat) : State :=
  ((s.unmapUnit nsid logical).journal 0x03 1 nsid logical (0, 0)).setArray fun a => { a with holes := if a.holes.contains (nsid, logical) then a.holes else a.holes ++ [(nsid, logical)] }

/-- The stripe of a unit is still owed a resynchronisation. -/
def State.unitPending (s : State) (gn u : Nat) : Bool :=
  match s.group? gn with
  | some g => (match g.stripes[u / max 1 (s.stripeUnits g)]? with | some st => st.pend | none => false)
  | none => false

/-- A unit of device metadata is lost to a write hole: it holds nothing any longer, and the page is written again from what DRAM holds of
it (R217, R227, R276). -/
def State.loseMeta (s : State) (gn u : Nat) : State :=
  match (s.metaAll).find? fun x => x.gn == gn && x.idx == u with
  | none => s
  | some x =>
    let per := max 1 (((s.group? gn).map s.stripeUnits).getD 1)
    let t := s.modGroup gn fun g => { g with stripes := modAt g.stripes (u / per) fun st =>
      { st with units := modAt st.units (u % per) fun y => { y with kind := 0 } } }
    if x.kind = 3 ∧ x.logical < 2 ^ 62 then
      t.setMedia fun m => { m with dirty := assocSet m.dirty x.logical ((assoc m.dirty x.logical).getD 0 + 1) }
    else if x.kind = 3 ∧ x.logical < 2 ^ 63 then t.writeKeyPage (x.logical - 2 ^ 62)
    else if x.kind = 3 then t.dirtyDirPage (x.logical - 2 ^ 63)
    else t.setMedia fun m => { m with auditAt := min m.auditAt (32 * x.logical) }

/-- The data of a unit that a relocation reads: one that a write hole has taken is lost (R277), any other that cannot be read stays
where it is. -/
def State.readToMove (s : State) (nsid logical gn u : Nat) : Option Bytes × State :=
  match s.fetchUnit gn u with
  | (some b, t) => (some b, t)
  | (none, t) => (none, if !s.unitPending gn u then t else if nsid = 0 then t.loseMeta gn u else t.loseUnit nsid logical)

/-- Count a relocated unit. -/
def State.countCopy (s : State) : State := s.setImage fun i => { i with gcBytes := i.gcBytes + 4096 }

/-- Relocated copies of units take new SEQs and places in an open group (R220, R232): NSID, KIND, LOGICAL, unit index. Where one finds
no place the rest waits in the source (R239). -/
def State.copyUnits (use : GroupUse) (gn g : Nat) : List (Nat × Nat × Nat × Nat) → State → State
  | [], s => s
  | (nsid, kind, logical, u) :: rest, s =>
    match s.readToMove nsid logical g u with
    | (none, t) => State.copyUnits use gn g rest t
    | (some b, t) =>
      match t.placeUnit use gn nsid kind logical 1 b none with
      | none => t.noPlace use gn
      | some v => State.copyUnits use gn g rest v.countCopy

/-- The units of an extent, in place: pads where it has none, up to its last (R212). -/
def extentUnits (us : List DUnit) : List DUnit :=
  (List.range ((us.map fun u => u.logical % 256 + 1).foldl max 0)).map fun j =>
    match us.reverse.find? fun u => u.logical % 256 == j with
    | some u => { u with cmd := none }
    | none => DUnit.pad

/-- Relocate extents of a take, each whole and in one group (R212, R220, R232): the extent and its valid units, logical unit and unit
index. -/
def State.copyExtents (nsid g : Nat) : List (List (Nat × Nat)) → State → State
  | [], s => s
  | us :: rest, s =>
    match (if s.waits .moved nsid then none else s.roomFor .moved nsid 256) with
    | none => s.noPlace .moved nsid
    | some (dst, t) =>
      let r := us.foldl (fun (p : List DUnit × State) x =>
        match p.2.readToMove nsid x.1 g x.2 with
        | (some b, v) => (p.1 ++ [⟨nsid, 2, x.1, 0, 1, b, none, false⟩], v.countCopy)
        | (none, v) => (p.1, v)) ([], t)
      State.copyExtents nsid g rest ((extentUnits r.1).foldl (fun v u => v.putIn dst u) r.2)

/-- The use and namespace a relocated copy of a group's unit goes to: a take's own reservation is drawn on by nothing but its writing
(R237), so what relocation moves of it has groups of its own. -/
def Group.copyTo (g : Group) (slcOut : Bool) : GroupUse × Nat :=
  match g.use with
  | .take => (.moved, g.nsid)
  | .moved => (.moved, g.nsid)
  | .block => (.block, 0)
  | .slc => if slcOut then (.block, 0) else (.slc, 0)
  | .metadata => (.metadata, 0)

/-- A later copy of a metadata unit is placed. -/
def State.metaCopied (s : State) (x : MetaAt) : Bool := s.metaAll.any (·.after x)

/-- The valid units of a group whose index meets a condition and that are not being copied, and the stripes that their copies end in
are filled; of a take's group the extents that have a unit there (R212, R220, R232). -/
def State.copyWhere (s : State) (g : Group) (p : Nat → Bool) (slcOut : Bool) : State :=
  let dst := g.copyTo slcOut
  let t : State := match g.use with
    | .metadata => State.copyUnits dst.1 dst.2 g.num
        (((s.metaOf g).filter fun x => p x.idx && !s.metaCopied x).map fun x => (0, x.kind, x.logical, x.idx)) s
    | .block | .slc => State.copyUnits dst.1 dst.2 g.num
        (((s.validUnits g.num).filter fun x => p x.2.2 && !s.copying x.1 x.2.1).map fun x => (x.1, 1, x.2.1, x.2.2)) s
    | .take | .moved =>
      let us := (s.validUnits g.num).map (·.2)
      let es := ((us.filter fun x => p x.2).map fun x => x.1 / 256).foldl insertSorted []
      State.copyExtents g.nsid g.num ((es.map fun e => us.filter fun x => x.1 / 256 == e).filter fun l =>
        !l.any fun x => s.copying g.nsid x.1) s
  t.padStripe dst.1 dst.2

/-- Some valid unit of a group whose index meets a condition is not being copied. -/
def State.uncopied (s : State) (g : Group) (p : Nat → Bool) : Bool :=
  if g.use = .metadata then (s.metaOf g).any fun x => p x.idx && !s.metaCopied x
  else (s.validUnits g.num).any fun x => p x.2.2 && !s.copying x.1 x.2.1

/-- Copy the valid units of a range of unit indices. -/
def State.copyRange (s : State) (g : Group) (lo hi : Nat) (slcOut : Bool) : State :=
  s.copyWhere g (fun u => decide (lo ≤ u) && decide (u < hi)) slcOut

/-! ### Array state -/

/-- Members whose unit of a stripe was in place and is missing: a program that failed is no lost member. -/
def Group.missing (g : Group) (st : Stripe) : Nat :=
  ((List.range (g.k + 2)).filter fun m => !st.done.contains m && !st.failed.contains m).length

/-- Written stripes of the array that meet a condition on their missing members: group and stripe, ascending. -/
def State.stripesWith (s : State) (p : Nat → Bool) : List (Nat × Nat) :=
  (((s.groups.map (·.num)).foldl insertSorted []).filterMap s.group?).flatMap fun g =>
    if g.state = .freed then []
    else (g.stripes.zipIdx.filter fun x => x.1.written && p (g.missing x.1)).map fun x => (g.num, x.2)

/-- Degraded stripes (R281). -/
def State.degraded (s : State) : List (Nat × Nat) := s.stripesWith (· == 1)
/-- Critical stripes (R281). -/
def State.critical (s : State) : List (Nat × Nat) := s.stripesWith (· == 2)
/-- A written stripe, not owed a resynchronisation, has a piece row with three unavailable pieces or more (R277, R283). -/
def State.rowBroken (s : State) (gn i piece : Nat) : Bool :=
  match s.group? gn with
  | none => false
  | some g => (match g.stripes[i]? with
    | some st => st.written && !st.pend && g.state != .freed && decide (3 ≤ rowGone (s.pieceRowOf g i piece))
    | none => false)

/-- Stripes that are lost (R283): three members are missing or failed, or members missing and an uncorrectable piece make three. -/
def State.broken (s : State) : List (Nat × Nat) :=
  ((s.groups.filter (·.state != .freed)).flatMap fun g => (g.stripes.zipIdx.filter fun x => x.1.written && !x.1.pend
      && decide (3 ≤ g.k + 2 - ((List.range (g.k + 2)).filter x.1.done.contains).length)).map fun x => (g.num, x.2))
    ++ s.nand.bad.filterMap fun b =>
      (s.groups.find? fun g => g.members.contains (b.1, b.2.1)).bind fun g =>
        if s.rowBroken g.num b.2.2.1 b.2.2.2 then some (g.num, b.2.2.1) else none

/-- The array goes offline (R283): 1 a piece row lost, 2 too few channels. -/
def State.goOffline (s : State) (cause : Nat) : State :=
  if s.offline then s
  else
    let t := (s.put R.ARRAY.ARRAY_STATUS_OFFLINE_CAUSE cause).pulse 0x62 Ev.ARRAY.OFFLINE
    ((t.arrayErr E.ARRAY_OFFLINE 0 0).closeOffline.enterSafe 1).settle

/-- The array goes offline where a written stripe has lost three members, or fewer than 10 channels remain (R283). -/
def State.checkOffline (s : State) : State :=
  if !s.media.formatted then s
  else if !s.broken.isEmpty then s.goOffline 1
  else if s.activeChannels < 10 then s.goOffline 2
  else s

/-- An uncorrectable piece of a written stripe leaves a row with three unavailable pieces (R283), outside a write hole (R277). -/
def State.checkRow (s : State) (gn i piece : Nat) : State := if s.rowBroken gn i piece then s.goOffline 1 else s

/-! ### Rewriting -/

/-- What goes elsewhere when units of a group do: in a take's group the whole extents that they belong to, with the one that the take
is being written to, so that an extent stays in one piece (R212); in any other the units themselves. What is taken from the group a
take is written to goes on into its next one; what is taken from any other of its groups has groups of its own. -/
def Group.batches (g : Group) (sel : Nat → Nat → Bool) : List Waiting :=
  let all := g.stripes.zipIdx.flatMap fun st => if st.1.void then [] else st.1.units.zipIdx.map fun u => (st.2, u.2, u.1)
  let hit := (all.filter fun x => sel x.1 x.2.1 && x.2.2.kind != 0).map (·.2.2)
  if g.use.isTake then
    let live := g.use == .take && g.state == .opened
    let us := (all.map (·.2.2)).filter (·.kind == 2)
    let tail := match us.getLast? with | some u => if live && u.logical % 256 != 255 then [u.logical / 256] else [] | none => []
    let es := (hit.map (·.logical / 256) ++ tail).foldl insertSorted []
    es.map fun e => ⟨if live then .take else .moved, g.nsid, extentUnits (us.filter fun u => u.logical / 256 == e)⟩
  else if hit.isEmpty then [] else [⟨g.use, 0, hit⟩]

/-- Batches are written again, or wait (R239, R242, R280). The take's own group goes on filling; any other stripe is padded. -/
def State.writeAgain (s : State) (l : List Waiting) : State :=
  let t := l.foldl State.placeOrWait s
  l.foldl (fun t w => if w.use = .take then t else t.padStripe w.use w.gn) t

/-- A stripe that is written again elsewhere is void, and owed a resynchronisation where a program of it was issued (R280). -/
def State.voidStripe (s : State) (gn i : Nat) : State :=
  match (s.group? gn).bind fun g => g.stripes[i]? with
  | none => s
  | some st =>
    let t := s.modGroup gn fun h => { h with stripes := modAt h.stripes i fun x => { x with void := true, pend := st.issued } }
    if st.issued then t.setArray fun a => { a with pending := a.pending ++ [(gn, i)], snapDirty := true } else t

/-- The operation programs a unit of a group's stripe that meets a condition. -/
def DieOp.programs (gn : Nat) (p : Nat → Bool) (o : DieOp) : Bool :=
  match o.use with
  | .unit g i _ => g == gn && p i
  | _ => false

/-- A die's queue after some of its operations have left it: one that is in progress at its front stays so, a unit that cache program
had transferred behind one that left is confirmed, and what comes to the front begins (R198). `old` is the queue as it was. -/
def State.regroup (s : State) (d : Nat) (old : List DieOp) (gone : DieOp → Bool) : State :=
  let k := s.sentOps d
  let kept := (old.take k).filter fun o => !gone o
  let u := s.setSent d kept.length
  let u := match old.head?, kept with
    | some a, b :: _ => if gone a ∧ k = 2 then u.sendOnfi d [.confirm b.block b.pu] else u
    | _, _ => u
  u.beginOps d

/-- The programs of a group's stripe leave the die queues, and what stood behind them goes on. -/
def State.dropPrograms (s : State) (gn : Nat) (p : Nat → Bool) : State :=
  let hit := s.nand.queues.filter fun q => q.2.any (DieOp.programs gn p)
  let t := s.setNand fun n => { n with queues := n.queues.map fun q => (q.1, q.2.filter fun o => !DieOp.programs gn p o) }
  hit.foldl (fun t q => t.regroup q.1 q.2 (DieOp.programs gn p)) t

/-- A group that has lost a member (R280): an open one takes no more units and closes, at its last closed stripe, once its journal
records are durable; every stripe whose programs have not all ended is written again in full. -/
def State.closeLost (s : State) (gn : Nat) : State :=
  match s.group? gn with
  | none => s
  | some g =>
    let un := (g.stripes.zipIdx.filter fun x => !x.1.settled).map (·.2)
    let t := if g.state = .opened then s.modGroup gn fun h => { h with ending := true } else s
    let t := t.dropPrograms gn un.contains
    let t := un.foldl (fun t i => t.voidStripe gn i) t
    ((t.writeAgain (g.batches fun i _ => un.contains i)).setArray fun a => { a with snapDirty := true }).closeEnding

/-- Every program of a stripe has ended and one has failed: it never closes (R101, R242). -/
def State.endStripe (s : State) (gn i : Nat) : State :=
  match s.group? gn with
  | none => s
  | some g =>
    match g.stripes[i]? with
    | none => s
    | some st =>
      if st.closed || st.failed.isEmpty || !((List.range (g.k + 2)).all fun m => st.done.contains m || st.failed.contains m) then s
      else (s.modGroup gn fun h => { h with stripes := modAt h.stripes i fun x => { x with ended := true } }).setArray
        fun a => { a with snapDirty := true }

/-- A program of a group failed (R242): its block retires, the group closes at once and is queued for refresh, and the failed
program's data units are written again elsewhere, with the stripes of the group that were not issued yet. -/
def State.programFailed (s : State) (gn i m : Nat) : State :=
  match s.group? gn with
  | none => s
  | some g =>
    let d := g.members.getD m (0, 0)
    let role := memberRole g.k i m
    let p := max 1 (s.pieces g.use.isSlc)
    let mine := fun (pos : Nat) => decide (role < g.k) && pos / p == role
    let fresh := (g.stripes.zipIdx.filter fun x => !x.1.issued && !x.1.void).map (·.2)
    let t := s.modGroup gn fun h => { h with stripes := modAt h.stripes i fun st =>
      { st with failed := if st.failed.contains m then st.failed else st.failed ++ [m]
                units := st.units.zipIdx.map fun u => if mine u.2 then { u.1 with logged := true } else u.1 } }
    let t := if g.state = .opened then (t.closeGroup gn).voidUnissued gn else t
    let t := (t.queueRefresh gn).endStripe gn i
    let t := t.writeAgain (g.batches fun j pos => (j == i && mine pos) || fresh.contains j)
    t.retireBlock d.1 d.2 gn

/-! ### Pages that move -/

/-- The die that a copy of a page goes to when its program cannot pass where it is: another die on a channel of its own; the stripe
journal's stay on its dies (R224, R269). -/
def State.otherDie (s : State) (p : MPage) (i : Nat) : Option Nat :=
  let rest := (p.copies.zipIdx.filter (·.2 != i)).map (·.1.die)
  let was := (p.copies[i]?).map (·.die)
  if p.stripe then s.journalDies.find? fun d => s.mayHold true d && !rest.contains d
  else s.liveDies.find? fun d => some d != was && s.mayHold false d && !s.journalDies.contains d
    && !rest.any fun e => dieChannel e == dieChannel d

/-- Write a copy of a page again (R224). -/
def State.moveCopy (s : State) (n i : Nat) : State :=
  match (s.page? n).bind fun p => s.otherDie p i with
  | some d => s.addCopy n i d
  | none => s

/-- The copies of a page that have not passed and are on no die's queue are written again. -/
def State.requeueCopies (s : State) (n : Nat) : State :=
  match s.page? n with
  | none => s
  | some p => (p.copies.zipIdx.filter fun c => !c.1.done && !(((assoc s.nand.queues c.1.die).getD []).any fun o => o.use == .page n c.2)).foldl
      (fun t c => t.moveCopy n c.2) s

/-- Dies are lost: the copies that were on their way to them go to others, and their blocks hold pages no more. -/
def State.movePages (s : State) (ds : List Nat) : State :=
  let t := s.setMedia fun m => { m with metaBlocks := m.metaBlocks.filter fun x => !ds.contains x.die }
  (t.media.pages.filter fun p => p.copies.any fun c => !c.done && ds.contains c.die).foldl (fun t p => t.requeueCopies p.num) t

/-! ### Reshape -/

/-- Encoding of a width (R290). -/
def kCode (k : Nat) : Nat := if k = 8 then 0 else if k = 12 then 1 else if k = 16 then 2 else 3

/-- The reshape checkpoint's bytes (R288): a number that rises with each write, old k, new k, layout generation, whether a reshape is in
progress, boundary, size of the sequence, and the CRC-32C (log entry 34). -/
def ReshapeRec.bytes (r : ReshapeRec) (seq : Nat) : Bytes :=
  let b := leBytes 8 seq ++ leBytes 1 r.oldK ++ leBytes 1 r.newK ++ leBytes 1 r.gen ++ leBytes 1 (b2n r.active) ++ leBytes 8 r.boundary
    ++ leBytes 8 r.total
  b ++ leBytes 4 (crc32c b)

/-- What a copy holds, none where its CRC is wrong: its number and the record. -/
def reshapeOf (b : Bytes) : Option (Nat × ReshapeRec) :=
  if b.length = 32 ∧ leNat (b.drop 28) = crc32c (b.take 28) then
    some (leNat (b.take 8), ⟨leNat (sliceBytes b 8 1), leNat (sliceBytes b 9 1), leNat (sliceBytes b 10 1), leNat (sliceBytes b 12 8),
      leNat (sliceBytes b 20 8), leNat (sliceBytes b 11 1) == 1⟩)
  else none

/-- The newest reshape checkpoint in the Tally whose CRC holds. -/
def State.newestReshape (s : State) : Option (Nat × ReshapeRec) :=
  (s.tally.reshape.filterMap reshapeOf).foldl (fun m x => match m with | some y => if y.1 < x.1 then some x else m | none => some x) none

/-- The reshape checkpoint is written to the Tally, to the copy that was not written last (R288). -/
def State.setReshape (s : State) (r : ReshapeRec) : State :=
  let q := (match s.newestReshape with | some x => x.1 | none => 0) + 1
  let t := s.setArray fun a => { a with reshape := some r }
  (t.setTally fun y => { y with reshape := modAt y.reshape (q % 2) fun _ => r.bytes q }).wearTally .reshape
    ((List.range 4).map (256 * (q % 2) + ·))

/-- A reshape is in progress. -/
def State.reshaping (s : State) : Bool := match s.array.reshape with | some r => r.active | none => false

/-- MAXCAP at a new width, the parity capacity changed (R286; log entry 64). -/
def narrowedCap (cap oldK newK : Nat) : Nat := cap * newK * (oldK + 2) / ((newK + 2) * oldK)

/-- A reshape begins (R286, R287): the old layout's open groups fill their last stripe and close, and its groups form the
sequence. -/
def State.startReshape (s : State) (newK : Nat) : State :=
  let oldK := s.width
  let seq := (((s.groups.filter fun g => g.state != .freed && g.k != newK).map (·.num)).foldl insertSorted []).filterMap fun n =>
    (s.group? n).map fun g => (n, s.groupUnits g)
  let total := (seq.map (·.2)).foldl (· + ·) 0
  let t := if newK < oldK then s.put R.MEDIA.MAXCAP_MB (narrowedCap (s.get R.MEDIA.MAXCAP_MB) oldK newK) else s
  let t := (t.setArray fun a => { a with reshapeSeq := seq, reshapeFreed := 0, snapDirty := true }).setReshape
    ⟨oldK, newK, t.get R.ARRAY.LAYOUT_GENERATION, 0, total, true⟩
  let t := t.puts [(R.ARRAY.LAYOUT_OLD_K, kCode oldK), (R.ARRAY.RESHAPE_POS_UNITS, 0), (R.ARRAY.RESHAPE_TOTAL_UNITS, total)]
  t.closeFull

/-- A channel is being trained (R188). -/
def State.training (s : State) : Bool := (List.range 32).any fun c => s.get (R.NAND.CH_STATUS_STATE c) == 1

/-- Fewer than k + 2 channels remain active: the device reshapes to the widest width that fits (R286). -/
def State.autoReshape (s : State) : State :=
  let n := s.activeChannels
  if !s.media.formatted || s.reshaping || s.offline || decide (s.width + 2 ≤ n) then s
  else match [24, 16, 12, 8].find? fun k => decide (k + 2 ≤ n) with
    | some k => s.startReshape k
    | none => s

/-! ### Lost members -/

/-- Show the journal dies. -/
def State.setJournal (s : State) (l : List Nat) : State :=
  s.puts [(R.ARRAY.JOURNAL_DIES_DIE0, l.getD 0 0), (R.ARRAY.JOURNAL_DIES_DIE1, l.getD 1 0), (R.ARRAY.JOURNAL_DIE2_DIE2, l.getD 2 0)]

/-- A lost journal die is replaced by the lowest live die on a channel of its own that the map journal does not use (R269; log entry
65). -/
def State.replaceJournal (s : State) (d : Nat) : State :=
  let l := s.journalDies
  if !s.media.formatted || !l.contains d then s
  else
    let others := l.filter (· != d)
    match s.liveDies.find? fun e => !(others.any fun x => dieChannel x == dieChannel e) && !s.media.metaBlocks.any fun x => x.die == e && !x.stripe with
    | some e => ((s.setJournal (l.map fun x => if x == d then e else x)).arrayErr E.ARRAY_JOURNAL_DIE d 0)
    | none => s

/-- Mark one die lost (R279). -/
def State.markLost (s : State) (d : Nat) : State :=
  if s.array.lost.contains d then s
  else
    let t := s.setArray fun a => { a with lost := insertSorted a.lost d, snapDirty := true }
    let f := R.ARRAY.LOST_MAP_DIES (d / 32)
    let t := t.put f (setBit (t.get f) (d % 32) true)
    let t := (t.pulse 0x62 Ev.ARRAY.MEMBER_LOST).arrayErr E.ARRAY_MEMBER_LOST d 0
    t.replaceJournal d

/-- The members of a group on lost dies: their units are missing until rebuilt. -/
def Group.dropDies (g : Group) (lost : List Nat) : Group :=
  let ms := (g.members.zipIdx.filter fun m => lost.contains m.1.1).map (·.2)
  { g with lostMembers := (ms.foldl insertSorted g.lostMembers), stripes := g.stripes.map fun st =>
             if st.written then { st with done := st.done.filter fun m => !ms.contains m } else st }

/-- Reads of a lost die complete by reconstruction; the commands they serve are told. -/
def State.failQueue (s : State) (d : Nat) : List DieOp × State :=
  ((assoc s.nand.queues d).getD [], s.setNand fun n =>
    { n with queues := n.queues.filter (·.1 != d), resetOnce := n.resetOnce.filter (· != d),
             started := n.started.filter (·.1 != d), entry := n.entry.filter (·.1 != d) })

/-- Erases queued on a lost die count as done. -/
def State.skipErases (s : State) (ops : List DieOp) : State :=
  ops.foldl (fun t o => match o.use with
    | .erase g m => t.modGroup g fun x => { x with erased := insertSorted x.erased m }
    | _ => t) s

/-- A boot has not loaded the map yet (R571). -/
def State.beforeMap (s : State) : Bool := decide (1 ≤ s.pwr.bootPhase) && decide (s.pwr.bootPhase ≤ 7)

/-- The array follows the channels that are left (R283, R286): not while one is still training, whose outcome is open (R188), nor before
a boot has the map and its stripes. -/
def State.followChannels (s : State) : State := if s.training || s.beforeMap then s else s.checkOffline.autoReshape

/-- The groups with a member on dies that are lost, and with stripes still to write, are closed, and these written again (R280); before a
boot has the map this waits for it. -/
def State.closeHit (s : State) (ds : List Nat) : State :=
  if s.beforeMap then s
  else ((s.groups.filter fun g => (g.state == .opened || g.stripes.any fun st => !st.settled)
      && g.members.any fun m => ds.contains m.1).map (·.num)).foldl State.closeLost s

/-- Dies are lost (R279-R283, R286, R108): their queued operations fail, groups that hold them lose those members, open groups
close and write their open stripes again, and the array's state, its width and the contract follow. The operations that were
queued are the first answer. -/
def State.loseDies (s : State) (ds : List Nat) : List DieOp × State :=
  let new := ds.filter fun d => !s.array.lost.contains d
  if new.isEmpty then ([], s)
  else
    let c0 := s.critical
    let t := new.foldl State.markLost s
    let q := new.foldl (fun (p : List DieOp × State) d => let r := p.2.failQueue d; (p.1 ++ r.1, r.2)) ([], t)
    let t := q.2.skipErases q.1
    let t := t.setImage fun i => { i with groups := i.groups.map (·.dropDies new) }
    let t := (t.movePages new).closeHit new
    let crit := t.critical.filter fun x => !c0.contains x
    let t := if crit.isEmpty then t
      else ((crit.map (·.1)).eraseDups).foldl (fun t g => t.arrayErr E.ARRAY_CRITICAL 0 g) (t.pulse 0x62 Ev.ARRAY.CRITICAL)
    (q.1, (t.followChannels.recompute).settle)

/-- The dies of a channel as the population has them (R185). -/
def State.channelDies (s : State) (c : Nat) : List Nat := (List.range s.diesPerChannel).map (c * 16 + ·)

/-! ### The SLC region -/

/-- Valid data in MB. -/
def State.validMB (s : State) : Nat :=
  ((s.media.image.map.filter fun x => match x.2 with | .mapped .. => true | .zeroes _ => false).length * 4096) / 1000000

/-- S in MB (R216). -/
def State.slcMB (s : State) : Nat := min 3000000 (max 64000 ((s.get R.MEDIA.USER_CAP_MB - s.validMB) * 5 / 100))

/-- S is recomputed (R216). -/
def State.resizeSlc (s : State) : State := s.setMedia fun m => { m with slc := s.slcMB }

/-! ### Format -/

/-- The reference magazine: 512 dies of the reference part with no factory-marked bad block (R209). -/
def State.referenceMagazine (s : State) : Bool :=
  s.liveDies.length == 512 && s.part.blocks == 2944 && s.part.units == 432 && s.part.bitsPerCell == 3 && s.part.planes == 4
    && s.part.pageBytes == 16384 && s.nand.factoryBad.isEmpty && s.width == 16

/-- Good blocks of the live dies outside the spare ones. -/
def State.poolAtFormat (s : State) : Nat :=
  (s.liveDies.map fun d => s.usable d - s.spareBlocks d).foldl (· + ·) 0

/-- USER_CAP (R210): what is left of the good blocks after spare, parity and metadata, less a reserve that the spec states for
the reference magazine alone (R209), 100 TB there; elsewhere the reserve is a free value (log entry 60). -/
def State.formatCap (s : State) : Nat × State :=
  if s.referenceMagazine then (100000000, s)
  else
    let room := s.userMB s.poolAtFormat s.width
    let f := s.fresh
    (room - f.1 % (room + 1), f.2)

/-- SPARE_TOTAL at format (R244). -/
def State.spareAtFormat (s : State) : Nat := s.blocksGB ((s.liveDies.map s.spareBlocks).foldl (· + ·) 0)

/-- SPARE_LOW (R244). -/
def State.spareLow (s : State) : Nat := s.blocksGB (2 * ((s.liveDies.map s.usable).foldl max 0))

/-- LAYOUT_SEED and the width from the installer settings in force; 16+2 without them (R256, R580). -/
def State.otpLayout (s : State) : Nat × Nat :=
  match s.instBase with
  | some _ => (s.instField 8 8, s.instField 16 1 % 4)
  | none => (0, 2)

/-- Format (R210, R220, R244, R256): an empty map at the width and seed in OTP. -/
def State.format (s : State) : State :=
  let l := s.otpLayout
  let keep := s.media
  let t := s.setMedia fun _ => { MediaSt.reset with
    formatted := true, seq := keep.seq, ckptAt := s.time
    image := { MapImage.empty with erases := keep.image.erases, retired := keep.image.retired } }
  let t := t.setArray fun a => { ArraySt.reset with lost := a.lost, seed := l.1 }
  let t := (t.setTally fun y => { y with ptrs := [(0, 0), (0, 0)], reshape := [[], []], unread := [] }).setReshape
    ⟨widthOf l.2, widthOf l.2, 0, 0, 0, false⟩
  let t := t.setNand fun n => { n with queues := [], flash := [], bad := [], blank := [], started := [] }
  let t := t.puts [(R.ARRAY.LAYOUT_K, l.2), (R.ARRAY.LAYOUT_OLD_K, 0), (R.ARRAY.RESHAPE_POS_UNITS, 0), (R.ARRAY.RESHAPE_TOTAL_UNITS, 0),
    (R.ARRAY.ARRAY_STATUS_OFFLINE_CAUSE, 0), (R.ARRAY.ARRAY_STATUS_RESYNC_CASE, 0)]
  let c := t.formatCap
  (c.2.puts [(R.MEDIA.USER_CAP_MB, c.1), (R.MEDIA.MAXCAP_MB, c.1), (R.MEDIA.SPARE_TOTAL_GB, c.2.spareAtFormat),
    (R.MEDIA.SPARE_LOW_GB, c.2.spareLow), (R.MEDIA.MEDIA_STATUS_READ_ONLY, 0), (R.MEDIA.MEDIA_STATUS_SAFE_CAUSE, 0)]).chargeSpares
    |>.setJournal (c.2.pickDies (fun _ => true) 3 []) |>.writeBitmapHeader |>.resizeSlc

end Sys2Proof.Machine
end

