-- ==== Sys2Proof/Machine/Tasks.lean ====
section
/-!
DEFINITION. The order of the background tasks, and what makes one of them ready to run (R24, R236, R241, R249, R267).
-/

namespace Sys2Proof.Machine

/-! ### Replacement blocks -/

/-- Free spare blocks of a die. -/
def State.freeSpares (s : State) (d : Nat) : List Nat :=
  (s.goodBlocks d).filter fun b => s.isSpare d b && !s.media.image.retired.contains (d, b) && !s.blockUsed d b

/-- The replacement block of a lost member (R266): the die of the most free spare blocks among those whose channel holds no
other live member, else an erased block outside the reservation. -/
def State.replacement (s : State) (g : Group) (m : Nat) : Option (Nat × Nat) :=
  let others := (g.members.zipIdx.filter fun x => x.2 != m && s.dieLive x.1.1).map fun x => dieChannel x.1.1
  let dies := s.liveDies.filter fun d => !others.contains (dieChannel d)
  let best := dies.foldl (fun (b : Option Nat) d => match b with
    | none => if (s.freeSpares d).isEmpty then none else some d
    | some e => if (s.freeSpares e).length < (s.freeSpares d).length then some d else b) none
  match best with
  | some d => (s.leastWorn d (s.freeSpares d)).map fun b => (d, b)
  | none =>
    match dies.find? fun d => !(s.freeBlocks d).isEmpty && decide (s.get R.FALLOW.RESERVED_USER_MB + s.userMB 1 g.k ≤ s.poolUser) with
    | some d => (s.leastWorn d (s.freeBlocks d)).map fun b => (d, b)
    | none => none

/-- Give the lost members of a group their replacement blocks (R266, R267); the answer says that each has one. -/
def State.replaceMembers (s : State) (gn : Nat) : Bool × State :=
  match s.group? gn with
  | none => (false, s)
  | some g => g.lostMembers.foldl (fun (r : Bool × State) m =>
      match r.2.group? gn with
      | none => (false, r.2)
      | some h =>
        match r.2.replacement h m with
        | none => (false, r.2)
        | some b =>
          let t := r.2.modGroup gn fun x => { x with members := modAt x.members m fun _ => b, lostMembers := x.lostMembers.filter (· != m) }
          (r.1, (t.setImage fun i => { i with spareTaken := i.spareTaken ++ [b] }).chargeSpares.checkSpares)) (true, s)

/-- Rebuild works only on closed groups (R281). -/
def State.groupClosed (s : State) (gn : Nat) : Bool := match s.group? gn with | some g => g.state == .closed | none => false

/-- Rebuild may work on a group: it is closed, and waits for no replacement block (R267, R281). -/
def State.canRebuild (s : State) (gn : Nat) : Bool := s.groupClosed gn && (s.replaceMembers gn).1

/-! ### Tasks -/

/-- A stripe was open at the unclean stop: its resynchronisation is owed, and it had not closed (R275, R278). -/
def State.openAtStop (s : State) (x : Nat × Nat) : Bool :=
  match (s.group? x.1).bind fun g => g.stripes[x.2]? with
  | some st => st.pend && !st.closed && !st.void
  | none => false

/-- Unit indices of a stripe. -/
def State.inStripe (s : State) (g : Group) (i u : Nat) : Bool :=
  decide (i * s.stripeUnits g ≤ u) && decide (u < (i + 1) * s.stripeUnits g)

/-- The copies of everything that a stripe still holds are on their way. -/
def State.resyncWaits (s : State) (x : Nat × Nat) : Bool :=
  match s.group? x.1 with
  | some g => (s.validIdx g).any (s.inStripe g x.2) && !s.uncopied g (s.inStripe g x.2)
  | none => false

/-- The stripes that resynchronisation can go on with, in their order (R275). -/
def State.resyncReady (s : State) : List (Nat × Nat) := s.array.owed.filter (!s.resyncWaits ·)

/-- The closed groups that the present patrol pass has not read yet. -/
def State.unpatrolled (s : State) : List Group := s.groups.filter fun g => g.state == .closed && !s.media.patrolled.contains g.num

/-- A patrol pass has groups to read (R241; log entry 45). -/
def State.patrolDue (s : State) : Bool := decide (s.media.patrolAt ≤ s.time) && !s.unpatrolled.isEmpty

/-- In SAFE with no block in the pool refresh stops (R249). -/
def State.starved (s : State) : Bool := s.mode == 7 && s.poolBlocks == 0

/-- The first group of the refresh queue whose programs have all ended. -/
def State.toRefresh (s : State) : Option Group := (s.media.refresh.filterMap s.group?).find? (·.quiet)

/-- The relocation in progress has copies to make, and none of them waits for a place. -/
def State.relocating (s : State) (p : Nat → Bool) : Bool :=
  match s.media.reloc with
  | some r => p r.2.2 && s.media.waiting.isEmpty
  | none => false

/-- A task of R24's order has work that it can do: 0 rebuild of critical stripes, 1 resynchronisation of stripes open at an unclean
stop, 2 refresh with patrol, 3 rebuild of degraded stripes, 4 the rest of resynchronisation. -/
def State.taskReady (s : State) (rank : Nat) : Bool :=
  if rank = 0 then s.critical.any fun x => s.canRebuild x.1
  else if rank = 1 then s.resyncReady.any s.openAtStop
  else if rank = 2 then (!s.starved && (s.toRefresh.isSome || s.relocating (· == 2))) || s.patrolDue
  else if rank = 3 then s.degraded.any fun x => s.canRebuild x.1
  else if rank = 4 then !s.resyncReady.isEmpty
  else false

/-- A task receives die time: every task above it is idle or blocked (R24), with no take open as well (R236), and the array is in
service (R283). -/
def State.mayTask (s : State) (rank : Nat) : Bool := !s.offline && (List.range (min rank 5)).all fun i => !s.taskReady i

/-- In SAFE garbage collection runs only to supply refresh and rebuild (R249); patrol takes no blocks. -/
def State.supplies (s : State) : Bool :=
  s.mode != 7 || !s.media.refresh.isEmpty || !s.critical.isEmpty || !s.degraded.isEmpty || !s.media.waiting.isEmpty

end Sys2Proof.Machine
end

