-- ==== Sys2Proof/Machine/Media.lean ====
section
/-!
DEFINITION. The media map's background commands: journal, checkpoints, the SLC region, garbage collection, refresh, patrol,
wear levelling, erasure and the write buffer (R215-R253).
-/

namespace Sys2Proof.Machine

/-! ### Journal and checkpoints -/

/-- A take's removal once its TAKE_DELETE is durable: its map, key, index spans and namespace go, what was on its way is not
mapped, its groups are freed, and the command that asked completes (R253, R425, R399). -/
def State.removeTake (s : State) (nsid : Nat) : State :=
  match s.nsOf nsid with
  | none => s
  | some n =>
    let id := match n.tk with | some k => k.takeId | none => 0
    let t := s.setImage fun i => { i with map := i.map.filter fun x => x.1.1 != nsid }
    let t := (t.cancelWhere fun u => u.kind == 2 && u.nsid == nsid).closeTakeGroups nsid
    let t := (t.dropKey n.keyRec).dropSpans (·.takeId == id)
    let t := { t with ns := t.ns.filter (·.nsid != nsid) }.setTake fun x => { x with releasing := x.releasing.filter (·.1 != nsid) }
    let t := (t.catalogChanged.nsChanged n).freeEmpty.restoreSpare
    t.wake (· == .takeDeleted nsid) Nv.ok

/-- Records have become durable: takes deleted by them go, and the Write Zeroes commands that waited for them complete (R252, R253). -/
def State.recsDurable (s : State) (rs : List JRec) : State :=
  let t := (rs.filter (·.kind == 0x09)).foldl (fun t r => t.removeTake r.nsid) s
  let hit := fun (x : CmdKey × Nat) => rs.any fun r => r.kind == 0x04 && r.seq == x.2
  (t.media.zeroWaits.filter hit).foldl (fun t x => t.completeCmd x.1 Nv.ok)
    (t.setMedia fun m => { m with zeroWaits := m.zeroWaits.filter (!hit ·) })

/-- JOURNAL_PAGE_WRITE: the page being filled is written, full or 1 ms after its first record (R224). -/
def execJournalPageWrite (s : State) : Out :=
  if s.media.page.isEmpty then .next s else .next { s with time := max s.time (s.media.pageSince + 1000000) }.writeJournal

/-- Registers that a checkpoint keeps (R254, R290). -/
def ckptFields : List Fld :=
  [R.MEDIA.USER_CAP_MB, R.MEDIA.MAXCAP_MB, R.MEDIA.SPARE_TOTAL_GB, R.MEDIA.SPARE_USED_GB, R.MEDIA.SPARE_LOW_GB,
   R.MEDIA.RETIRED_BLOCKS_COUNT, R.MEDIA.CONVERSIONS_COUNT, R.MEDIA.REFRESHED_COUNT, R.MEDIA.GC_VICTIMS_COUNT,
   R.ARRAY.RECONSTRUCTED_COUNT, R.ARRAY.WRITE_HOLE_COUNT, R.ARRAY.REBUILT_UNITS_COUNT] ++ (List.range 16).map R.ARRAY.LOST_MAP_DIES

/-- SEQ at a journal position: that of the last record before it. -/
def State.journalSeq (s : State) : Nat :=
  (s.media.journal.flatMap (·.recs)).foldl (fun m r => max m r.seq) (match s.media.ckpt with | some c => c.seq | none => 0)

/-- Where each directory page lies: its number, group and unit (R227). -/
def State.dirRoot (s : State) : List (Nat × (Nat × Nat)) :=
  let l := s.metaAll.filter fun x => x.ready && x.kind == 3 && decide (2 ^ 63 ≤ x.logical)
  (l.filter fun x => !l.any (·.after x)).map fun x => (x.logical - 2 ^ 63, (x.gn, x.idx))

/-- The checkpoint record of this moment. -/
def State.ckptNow (s : State) : Ckpt :=
  { seq := s.journalSeq, pos := s.media.nextPage - 1, num := 0, root := s.dirRoot, image := s.media.image,
    regs := ckptFields.map fun f => (f, s.get f), windows := s.trig.windows, ring := s.fault.dev, offline := s.offline,
    safeCause := s.get R.PWR.SAFE_CAUSE_CAUSE, seed := s.array.seed, capK := min s.width s.openWidth }

/-- A media address in 8 bytes (R209, R211). -/
def maBytes (gn u : Nat) : Bytes := leBytes 8 (u % 2 ^ 20 + gn % 2 ^ 20 * 2 ^ 20)

/-- The checkpoint record's page: journal position, SEQ, directory root, and a CRC-32C at its end; the places of the fields are the
model's (R227, R229; log entry 36). -/
def Ckpt.bytes (c : Ckpt) : Bytes :=
  let b := padTo 65532 (leBytes 8 c.pos ++ leBytes 8 c.seq ++ leBytes 8 c.root.length
    ++ c.root.flatMap fun x => leBytes 8 x.1 ++ maBytes x.2.1 x.2.2)
  b ++ leBytes 4 (crc32c b)

/-- One entry of a map page (R211, R212). -/
def State.entryWord (s : State) (nsid logical : Nat) : Nat :=
  match s.mapEnt nsid logical with
  | none => 0
  | some (.zeroes _) => 2 * 2 ^ 40
  | some (.mapped g u) => u % 2 ^ 20 + g % 2 ^ 20 * 2 ^ 20 + 2 ^ 40

/-- The entry of an extent: where its first unit lies, found from any unit of it that is mapped (R212). -/
def State.extentWord (s : State) (nsid ext : Nat) : Nat :=
  match (List.range 256).findSome? fun j => match s.mapEnt nsid (256 * ext + j) with
    | some (.mapped g u) => some (g, u - j)
    | _ => none with
  | some x => x.2 % 2 ^ 20 + x.1 % 2 ^ 20 * 2 ^ 20 + 2 ^ 40
  | none => 0

/-- The 4,096 bytes of a map page (R211, R212; log entry 61). -/
def State.mapPageBytes (s : State) (page : Nat) : Bytes :=
  let nsid := page / 2 ^ 32
  let p := page % 2 ^ 32
  (List.range 512).flatMap fun i => leBytes 8 (if s.nsIsTake nsid then s.extentWord nsid (p * 512 + i) else s.entryWord nsid (p * 512 + i))

/-- The 4,096 bytes of a directory page: where each of its 512 map pages lies (R227; log entry 36). -/
def State.dirPageBytes (s : State) (d : Nat) : Bytes :=
  (List.range 512).flatMap fun i => match s.metaUnit 3 (512 * d + i) with
    | some x => leBytes 8 (x.idx % 2 ^ 20 + x.gn % 2 ^ 20 * 2 ^ 20 + 2 ^ 40)
    | none => leBytes 8 0

/-- The 4,096 bytes of an audit page: 32 entries of 128 bytes (R217, R593; log entry 36). -/
def State.auditPageBytes (s : State) (n : Nat) : Bytes :=
  let first := s.trust.auditSeq - s.trust.audit.length
  padTo 4096 (((s.trust.audit.zipIdx.filter fun x => decide ((first + x.2 - 1) / 32 = n)).map fun x => padTo 128 x.1).flatten)

/-- Place a page of device metadata (R217, R221). -/
def State.placeMeta (s : State) (kind logical : Nat) (data : Bytes) : Option State := s.placeUnit .metadata 0 0 kind logical 0 data none

/-- Write a map page (R227). -/
def State.writeMap (s : State) (p : Nat) : State :=
  match s.placeMeta 3 p (s.mapPageBytes p) with
  | some t => t.setMedia fun m => { m with dirty := m.dirty.filter (·.1 != p) }
  | none => s.noPlace .metadata 0

/-- Write a directory page (R227; log entry 36). -/
def State.writeDir (s : State) (d : Nat) : State :=
  match s.placeMeta 3 (2 ^ 63 + d) (s.dirPageBytes d) with
  | some t => t.setMedia fun m => { m with dirtyDir := m.dirtyDir.filter (· != d) }
  | none => s.noPlace .metadata 0

/-- Write the audit log's next page: its entries after the newest one on flash (R217). -/
def State.writeAudit (s : State) : State :=
  if s.trust.auditSeq - 1 ≤ s.media.auditAt then s
  else
    let n := max s.media.auditAt (s.trust.auditSeq - 1 - s.trust.audit.length) / 32
    match s.placeMeta 6 n (s.auditPageBytes n) with
    | some t => t.setMedia fun m => { m with auditAt := min (s.trust.auditSeq - 1) (32 * (n + 1)) }
    | none => s.noPlace .metadata 0

/-- A checkpoint ends a mode's entry or a power failure, and follows the drain of the write buffer (R104, R219, R548). -/
def State.draining (s : State) : Bool :=
  s.take.pfPhase == 4 || (match s.pwr.tran with | some x => x.kind != .dozeExit && x.phase == 2 | none => false)

/-- What the write buffer held is on flash (R219): it is empty, nothing waits for a place, and every program of block data and
metadata has ended. An array that is offline, or keys that are erased, leave nothing to program with. -/
def State.drained (s : State) : Bool :=
  !s.media.formatted || s.offline || s.keys.kekMedia.isNone
    || (s.media.wbuf.isEmpty && s.media.waiting.isEmpty
      && s.groups.all fun g => g.use == .take || g.stripes.all fun st => st.settled || st.units.isEmpty)

/-- Every journal page up to a position is durable. -/
def State.journalTo (s : State) (pos : Nat) : Bool := s.media.journal.all fun p => p.durable || decide (pos < p.num)

/-- A checkpoint fixes its journal position: the page being filled is written, and the map pages changed so far are (R227; log entry
36). -/
def State.fixCkpt (s : State) : State :=
  if s.draining && !s.drained then s
  else
    let t := ((s.media.dirty.foldl (fun t p => t.writeMap p.1) s.writeKeyPages).padStripe .metadata 0).writeJournal
    if t.media.page.isEmpty && t.media.dirty.isEmpty then t.setMedia fun m => { m with job := some ⟨some t.ckptNow, false, false⟩ }
    else t

/-- The directory pages that have changed are written (R227). -/
def State.writeDirs (s : State) (c : Ckpt) : State :=
  let t := (s.media.dirtyDir.foldl State.writeDir s).padStripe .metadata 0
  t.setMedia fun m => { m with job := some ⟨some c, m.dirtyDir.isEmpty, false⟩ }

/-- The checkpoint record is written in three copies, with the device metadata of this moment (R227, R145, R607). -/
def State.sendCkpt (s : State) (c : Ckpt) : State :=
  let c := { c with root := s.dirRoot, windows := s.trig.windows, ring := s.fault.dev, offline := s.offline,
                    safeCause := s.get R.PWR.SAFE_CAUSE_CAUSE }
  match s.putPage 5 c.seq false c.bytes with
  | some (n, t) => t.setMedia fun m => { m with job := some ⟨some { c with num := n }, true, true⟩ }
  | none => s

/-- A checkpoint in progress takes its next step once the last one is durable: the journal up to the position, the directory pages,
the record (R227, R228). -/
def State.ckptStep (s : State) : State :=
  match s.media.job with
  | none => s
  | some j =>
    match j.record with
    | none => s.fixCkpt
    | some c =>
      if j.sent || !s.journalTo c.pos || s.metaPending 3 != 0 then s
      else if !j.dirs then
        let t := s.writeDirs c
        if t.media.dirtyDir.isEmpty && t.metaPending 3 == 0 then t.sendCkpt c else t
      else s.sendCkpt c

/-- A checkpoint starts (R227, R228): refused while one is in progress; what a power failure or a mode's entry takes begins afresh. -/
def State.startCkpt (s : State) : State :=
  ((s.put R.MEDIA.MEDIA_STATUS_CKPT_BUSY 1).setMedia fun m => { m with job := some ⟨none, false, false⟩ }).ckptStep

/-- The copies of the Tally's checkpoint pointer that can be read, newest first: copy, sequence number and page (R21, R227). -/
def State.pointers (s : State) : List (Nat × Nat × Nat) :=
  let l := (s.tally.ptrs.zipIdx.filter fun x => x.1.1 != 0 && !s.tally.unread.contains (.pointers, x.2)).map fun x => (x.2, x.1)
  (l.filter fun x => l.all fun y => decide (y.2.1 ≤ x.2.1)) ++ l.filter fun x => l.any fun y => decide (x.2.1 < y.2.1)

/-- The Tally's checkpoint pointer is written to the copy that does not hold the newest (R227). -/
def State.writePointer (s : State) (num : Nat) : State :=
  let new := s.pointers.head?
  let i := match new with | some x => 1 - x.1 | none => 0
  let q := match new with | some x => x.2.1 + 1 | none => 1
  (s.setTally fun y => { y with ptrs := modAt y.ptrs i fun _ => (q, num), unread := y.unread.filter (· != (.pointers, i)) }).wearTally .pointers
    [256 * i, 256 * i + 1]

/-- The checkpoint record is durable, and the Tally pointer written: the records that neither copy names, and the journal before them,
are done with (R227). -/
def State.takeCkpt (s : State) (c : Ckpt) : State :=
  let t := s.writePointer c.num
  let t := t.setMedia fun m =>
    let l := (m.ckpts ++ [c]).filter fun x => t.tally.ptrs.any fun p => p.1 != 0 && p.2 == x.num
    let lo := l.foldl (fun v x => min v x.pos) c.pos
    { m with ckpts := l, job := none, ckptAt := t.time, journal := m.journal.filter fun p => decide (lo < p.num) }
  ((t.put R.MEDIA.MEDIA_STATUS_CKPT_BUSY 0).pulse 0x60 Ev.MEDIA.CKPT_DONE).dropPages

/-- A page is programmed within the command that writes it: a format writes its first checkpoint so (log entry 36). -/
def State.putPageNow (s : State) (kind seq : Nat) (data : Bytes) : Nat × State :=
  let n := s.media.nextPage
  let t := s.setMedia fun m => { m with nextPage := n + 1, pages := m.pages ++ [⟨n, kind, seq, false, data, []⟩] }
  (n, (s.pageDies false).zipIdx.foldl (fun t d =>
    match t.takeUnit d.1 false with
    | none => t
    | some (b, v) => (v.modPage n fun p => { p with copies := p.copies ++ [⟨d.1, b.1, b.2, false⟩] }).sendOnfi d.1 [.transfer b.1 b.2, .confirm b.1 b.2]
      |>.pageProgrammed n d.2 d.1 b.1 b.2) t)

/-- The first checkpoint of a format (R210, R227). -/
def State.installCkpt (s : State) : State :=
  let c := s.ckptNow
  let r := s.putPageNow 5 c.seq c.bytes
  r.2.takeCkpt { c with num := r.1 }

/-- The checkpoint's position no longer covers the journal that a clean stop leaves (R231). -/
def State.ckptStale (s : State) (c : Ckpt) : Bool := s.draining && (!s.media.page.isEmpty || s.media.journal.any fun p => decide (c.pos < p.num))

/-- The record of the checkpoint in progress, once its three copies are programmed; one that a clean stop cannot use starts
afresh. -/
def State.ckptReady (s : State) : Option Ckpt × State :=
  match s.media.job with
  | some ⟨some c, _, true⟩ =>
    if s.draining && !s.drained then (none, s)
    else if s.ckptStale c then (none, s.startCkpt)
    else if s.pageDone c.num then (some c, s) else (none, s.requeueCopies c.num)
  | _ => (none, s.ckptStep)

/-- JOURNAL_PAGE_DURABLE: the three copies of the oldest written page have completed program (R224); a copy that lies on no die's queue is
written again. -/
def execJournalPageDurable (s : State) : Out :=
  match s.media.journal.find? (!·.durable) with
  | none => .next s
  | some p =>
    if s.pageDone p.num then
      let t := s.setMedia fun m => { m with journal := m.journal.map fun q => if q.num == p.num then { q with durable := true } else q }
      .next ((t.recsDurable p.recs).closeEnding).retryWaiting.ckptStep
    else .next (s.requeueCopies p.num)

/-- CHECKPOINT_PERIOD: CKPT_PERIOD seconds have passed since the last checkpoint (R228). -/
def execCheckpointPeriod (s : State) : Out :=
  if !s.media.formatted || s.bit R.MEDIA.MEDIA_STATUS_CKPT_BUSY then .next s
  else .next { s with time := max s.time (s.media.ckptAt + s.get R.MEDIA.CKPT_PERIOD_S * 1000000000) }.startCkpt

/-- CHECKPOINT_JOURNAL_LIMIT: the journal since the last checkpoint has reached 1 GiB (R228). -/
def execCheckpointJournalLimit (s : State) : Out :=
  let n := s.media.durable.length + (s.media.inFlight.flatten).length
  if !s.media.formatted || s.bit R.MEDIA.MEDIA_STATUS_CKPT_BUSY || decide (n * 32 < 2 ^ 30) then .next s else .next s.startCkpt

/-! ### The SLC region -/

/-- Valid SLC data in bytes. -/
def State.slcBytes (s : State) : Nat :=
  ((s.groups.filter (·.use.isSlc)).map s.validCount).foldl (· + ·) 0 * 4096

/-- SLC_RESIZE (R216). -/
def execSlcResize (s : State) : Out := if s.media.formatted then .next s.resizeSlc else .next s

/-- A group's relocation begins: a group of no valid unit is freed at once, others have their valid units copied (R232, R233). -/
def State.relocate (s : State) (g : Group) (why : Nat) : State :=
  if s.validCount g = 0 then (s.freeGroup g.num).setMedia fun m => { m with refresh := m.refresh.filter (· != g.num) }
  else (s.copyRange g 0 (s.groupUnits g) (why == 1)).setMedia fun m =>
    { m with reloc := some (g.num, [], why), refresh := m.refresh.filter (· != g.num) }

/-- The quiet groups of a use, oldest close first. -/
def State.closedOf (s : State) (p : Group → Bool) : List Group :=
  (s.groups.filter fun g => g.quiet && p g).foldl
    (fun l g => (l.takeWhile fun h => decide (h.closedAt ≤ g.closedAt)) ++ g :: l.dropWhile fun h => decide (h.closedAt ≤ g.closedAt)) []

/-- Migration is due (R218): SLC data exceeds S, or free room is below 10% of S. In SAFE it would supply nothing (R249). -/
def State.migrationDue (s : State) : Bool := s.media.formatted && s.mode != 7 && decide (s.media.slc * 1000000 * 9 < s.slcBytes * 10)

/-- SLC_MIGRATION (R218): the oldest closed SLC group goes to the native mode. It counts as garbage collection (R24). -/
def execSlcMigration (s : State) : Out :=
  if s.media.reloc.isSome || !s.mayTask 5 || !s.migrationDue then .next s
  else match s.closedOf (·.use == .slc) with
    | g :: _ => .next (s.relocate g 1)
    | [] => .next s

/-! ### Garbage collection -/

/-- Ten-digit base 2 logarithm of n, times 2^40: `e` is its whole part, `m` the mantissa in 64 bits. The fuel is the number of
fraction bits. -/
def log2Frac : Nat → Nat → Nat → Nat
  | 0, _, acc => acc
  | f + 1, m, acc =>
    let q := m * m / 2 ^ 64
    if 2 ^ 65 ≤ q then log2Frac f (q / 2) (2 * acc + 1) else log2Frac f q (2 * acc)

/-- The base 2 logarithm of a number, times 2^40. -/
def log2Fixed (n : Nat) : Nat :=
  let e := Nat.log2 n
  e * 2 ^ 40 + log2Frac 40 (n * 2 ^ 64 / 2 ^ e) 0

/-- A quotient in binary32. -/
def f32Of (n d : Nat) : Nat := (single.div (single.round false n 0 false).1 (single.round false d 0 false).1).1

/-- The score of a candidate in binary32, operation by operation (R234; log entry 66). -/
def State.gcScore (s : State) (g : Group) : Nat :=
  let n := s.groupUnits g
  let v := s.validCount g
  let age := min ((s.time - g.closedAt) / 1000000000) (2 ^ 20)
  let pe := (g.members.map fun m => s.eraseCount m.1 m.2).foldl max 0
  let a := f32Of (n - v) (n + v)
  let l := (single.round false (log2Fixed (2 + age)) (-40) false).1
  let r := f32Of pe (max 1 (s.get R.MEDIA.PE_MAX_CYCLES))
  let c := (single.minmax false r (f32Of 145 100)).1
  let w := (single.sub (f32Of 3 2) c).1
  (single.mul (single.mul a l).1 w).1

/-- The member that names a group: the lowest die index and its block (R208). -/
def Group.name (g : Group) : Nat × Nat := (g.members.foldl (fun (m : Option (Nat × Nat)) x =>
  match m with | none => some x | some y => if x.1 < y.1 then some x else some y) none).getD (0, 0)

/-- A group comes before another on ties (R234). -/
def nameBefore (a b : Group) : Bool :=
  decide (a.name.1 < b.name.1) || (a.name.1 == b.name.1 && decide (a.name.2 < b.name.2))

/-- A take's group becomes a candidate by the release of extents that it holds (R233). -/
def State.hasReleased (s : State) (g : Group) : Bool :=
  match s.nsOf g.nsid with
  | some n => !n.released.isEmpty && decide (s.validCount g < (g.stripes.map fun st => if st.void then 0
      else (st.units.filter (·.kind == 2)).length).foldl (· + ·) 0)
  | none => false

/-- Candidates (R233): a group of no valid unit is freed without them. -/
def State.gcCandidates (s : State) : List Group :=
  s.groups.filter fun g => g.quiet && (!g.use.isTake || s.hasReleased g) && decide (0 < s.validCount g)
    && decide (s.validCount g < s.groupUnits g)

/-- The greedy rule is in force (R235). -/
def State.greedy (s : State) : Bool := decide (s.poolUser < s.get R.FALLOW.LOW_WATER_GB * 1000)

/-- The victim (R234, R235). -/
def State.gcVictim (s : State) : Option Group :=
  let better := fun (a b : Group) =>
    if s.greedy then
      let x := s.validCount a
      let y := s.validCount b
      decide (x < y) || (x == y && nameBefore a b)
    else
      let x := s.gcScore a
      let y := s.gcScore b
      decide (y < x) || (x == y && nameBefore a b)
  match s.gcCandidates with
  | [] => none
  | g :: gs => some (gs.foldl (fun m x => if better x m then x else m) g)

/-- User capacity in MB of groups awaiting erasure. -/
def State.pendingMB (s : State) : Nat :=
  ((s.groups.filter (·.state == .freed)).map fun g => s.userMB g.members.length g.k).foldl (· + ·) 0

/-- Garbage collection has work (R236); in SAFE only to supply others (R249). -/
def State.gcDue (s : State) : Bool :=
  (decide (s.poolUser + s.pendingMB < s.get R.FALLOW.TARGET_GB * 1000) || decide (s.media.slc * 1000000 < s.slcBytes)
    || s.groups.any (·.state == .freed)) && s.supplies

/-- The group that wear levelling takes on a die (R243): the one with the die's least-worn block in a closed group, where the die's highest
erase count exceeds that block's by more than WEAR_SPREAD. -/
def State.wearPick (s : State) (d : Nat) : Option Group :=
  let high := ((s.goodBlocks d).map (s.eraseCount d)).foldl max 0
  let pe := fun (g : Group) => ((g.members.find? (·.1 == d)).map fun m => s.eraseCount d m.2).getD 0
  match s.groups.filter fun g => g.quiet && g.members.any (·.1 == d) with
  | [] => none
  | g :: gs =>
    let low := gs.foldl (fun m x => if pe x < pe m then x else m) g
    if high ≤ pe low + s.get R.MEDIA.WEAR_SPREAD_CYCLES then none else some low

/-- Wear levelling is due (R243); not in SAFE (R249). -/
def State.wearDue (s : State) : Bool := s.mode != 7 && ((s.groups.flatMap fun g => g.members.map (·.1)).eraseDups).any fun d => (s.wearPick d).isSome

/-- Garbage collection, migration or wear levelling has work that it can do (R24, R218, R243). -/
def State.gcReady (s : State) : Bool :=
  s.relocating (· != 2) || (s.media.reloc.isNone && ((s.gcDue && !s.gcCandidates.isEmpty)
    || (s.migrationDue && !(s.closedOf (·.use == .slc)).isEmpty) || s.wearDue))

/-- The FALLOW page's levels follow the pool (R123). -/
def State.showPool (s : State) : State :=
  let u := s.poolUser
  (s.level 0x61 Ev.FALLOW.BELOW_LOW_WATER (decide (u < s.get R.FALLOW.LOW_WATER_GB * 1000))).level 0x61 Ev.FALLOW.AT_TARGET
    (decide (s.get R.FALLOW.TARGET_GB * 1000 ≤ u))

/-- The greedy rule comes into force: its event (R235, R254). -/
def State.noteGreedy (s : State) : State :=
  let t := if s.greedy && !s.bit R.MEDIA.MEDIA_STATUS_GC_GREEDY then s.pulse 0x60 Ev.MEDIA.GC_GREEDY else s
  t.putBit R.MEDIA.MEDIA_STATUS_GC_GREEDY s.greedy

/-- GC_VICTIM_SELECT (R24, R233-R236): groups of no valid unit are freed, and the victim's valid units are copied. -/
def execGcVictimSelect (s : State) : Out :=
  if !s.media.formatted || s.offline then .next s
  else
    let t := s.noteGreedy.freeEmpty
    if t.media.reloc.isSome || !t.gcDue || !t.mayTask 5 then .next t
    else match t.gcVictim with
      | some g => .next (t.relocate g 0).showPool
      | none => .next t

/-- REFRESH_RELOCATE (R24, R240, R249): the first group of the refresh queue whose programs have ended is relocated; a relocation of garbage
collection gives way to it, and what that one has left in its source is chosen again later. In SAFE an empty pool starves it. -/
def execRefreshRelocate (s : State) : Out :=
  let t := s.setMedia fun m => { m with refresh := m.refresh.filter fun n => match s.group? n with | some g => g.state != .freed | none => false }
  if (match t.media.reloc with | some r => r.2.2 == 2 | none => false) || !t.mayTask 2 then .next t
  else match t.toRefresh with
    | none => .next t
    | some g =>
      if t.starved then .next ((t.pulse 0x60 Ev.MEDIA.REFRESH_STARVED).mediaErr E.MEDIA_REFRESH_STARVED g.num)
      else .next (t.relocate g 2).showPool

/-- Queue background reads of every programmed unit of a group (R241). -/
def State.readGroup (s : State) (g : Group) : State :=
  (List.range g.stripes.length).foldl (fun t i =>
    g.members.foldl (fun t m =>
      if s.dieLive m.1 then
        let ps := List.range (s.pieces g.use.isSlc)
        t.queueOp m.1 ⟨.read, m.2, i, g.use.isSlc, ps, ps, 0, .background g.num⟩
      else t) t) s

/-- PATROL (R24, R241): the pass reads the next closed group; with none left it ends, and the next one begins PATROL.DAYS after it
began (log entry 45). -/
def execPatrol (s : State) : Out :=
  if !s.mayTask 2 then .next s
  else
    let t := { s with time := max s.time s.media.patrolAt }
    match t.unpatrolled.head? with
    | some g => .next ((t.readGroup g).setMedia fun m => { m with patrolled := m.patrolled ++ [g.num] })
    | none => .next (t.setMedia fun m =>
        { m with patrolled := [], patrolAt := m.patrolAt + t.get R.MEDIA.PATROL_DAYS * 86400000000000, patrolBoot := false })

/-- WEAR_LEVEL (R24, R243, R249). -/
def execWearLevel (ch : Fin 32) (die : Fin 16) (s : State) : Out :=
  if s.media.reloc.isSome || !s.mayTask 5 || s.mode == 7 then .next s
  else match s.wearPick (ch.val * 16 + die.val) with
    | none => .next s
    | some g => .next (s.relocate g 3).showPool

/-- RELOCATION_COPY_DONE (R24, R232, R283): in its task's turn, once no valid unit is left in the source it is freed, and GROUP_FREE
follows the copies' records; what could not be copied yet is tried again (R239). -/
def execRelocationCopyDone (s : State) : Out :=
  match s.media.reloc with
  | none => .next s
  | some (n, _, why) =>
    if !s.mayTask (if why = 2 then 2 else 5) then .next s
    else match s.group? n with
    | none => .next (s.setMedia fun m => { m with reloc := none })
    | some g =>
      if g.state ≠ .freed ∧ s.validCount g ≠ 0 then .next (s.retryWaiting.copyRange g 0 (s.groupUnits g) (why == 1))
      else
        let t := (if g.state = .freed then s else s.freeGroup n).setMedia fun m => { m with reloc := none }
        .next (if why = 2 then t.bump R.MEDIA.REFRESHED_COUNT else t.bump R.MEDIA.GC_VICTIMS_COUNT)

/-! ### Erasure -/

/-- PE_STATS: the highest erase count, and the lowest of a live block that is not retired (R254). -/
def State.peStats (s : State) : Nat × Nat :=
  let live := s.liveDies.flatMap fun d => ((s.goodBlocks d).filter fun b => !s.media.image.retired.contains (d, b)).map (s.eraseCount d)
  let high := (s.media.image.erases.map (·.2)).foldl max 0
  (min 65535 high, min 65535 (live.foldl min high))

/-- A group's GROUP_FREE, and with it every record before it, is durable (R226). -/
def State.freeDurable (s : State) (g : Group) : Bool :=
  g.freeAt.isNone && !s.volatileRecs.any fun r => r.kind == 0x07 && r.logical == g.num

/-- A unit of a take's group has a copy in a stripe that has not closed: the container's secured prefix rests on it till then (R101,
R280). -/
def State.copyUnsecured (s : State) (g : Group) : Bool :=
  g.use.isTake && (let l := s.openLogicals g.nsid
    g.stripes.any fun st => st.closed && st.units.any fun u => u.kind == 2 && u.nsid == g.nsid && l.contains u.logical)

/-- GROUP_ERASE (R226, R238): the freed group's erases are queued on its live dies, while the pool is below TARGET; the segments of the
open ring that it holds are released (R132). -/
def execGroupErase (g : Nat) (s : State) : Out :=
  match s.group? g with
  | none => .next s
  | some x =>
    if x.state ≠ .freed ∨ x.erasing ∨ !s.freeDurable x ∨ s.copyUnsecured x ∨ s.get R.FALLOW.TARGET_GB * 1000 ≤ s.poolUser then .next s
    else
      let t := x.members.zipIdx.foldl (fun t m =>
        if t.dieLive m.1.1 then t.queueOp m.1.1 ⟨.erase, m.1.2, 0, x.use.isSlc, [], [], 0, .erase g m.2⟩
        else t.modGroup g fun y => { y with erased := insertSorted y.erased m.2 }) (s.releaseWith g)
      .next (t.modGroup g fun y => { y with erasing := true })

/-- GROUP_ERASED (R226, R238): with every member erased, ERASED is appended, the blocks enter the pool, and those that wait for
blocks go on (R239). -/
def execGroupErased (g : Nat) (s : State) : Out :=
  match s.group? g with
  | none => .next s
  | some x =>
    if x.state ≠ .freed ∨ !x.erasing ∨ !(List.range x.members.length).all x.erased.contains then .next s
    else
      let t := (s.setImage fun i => { i with groups := i.groups.filter (·.num != g) }).journal 0x08 1 0 g (g, 0)
      .next (t.setMedia fun m => { m with freed := m.freed.filter (· != g) }).retryWaiting.showPool

/-! ### Map pages, write buffer, key table -/

/-- The dirtiest map page, the one longest dirty on ties (R227). -/
def State.dirtiest (s : State) : Option Nat :=
  (s.media.dirty.find? fun p => s.media.dirty.all fun q => decide (q.2 ≤ p.2)).map (·.1)

/-- MAP_PAGE_WRITEBACK (R217, R227, R228): the dirtiest map page is written to the SLC region; a directory page goes first where 16 MiB of
them are dirty or about to be, and where no map page is; then the audit log's page. -/
def execMapPageWriteback (s : State) : Out :=
  let full := decide (4096 ≤ s.media.dirtyDir.length + s.metaPending 3)
  let t := match s.media.dirtyDir, s.dirtiest with
    | d :: _, p => if full then s.writeDir d else (match p with | some p => s.writeMap p | none => s.writeDir d)
    | [], some p => s.writeMap p
    | [], none => s.writeAudit
  .next (t.padStripe .metadata 0)

/-- The use a block write goes to: SLC for at most 128 KiB while the region has room (R217). -/
def State.writeUse (s : State) (bytes : Nat) : GroupUse :=
  if bytes ≤ 131072 ∧ s.slcBytes + bytes ≤ s.media.slc * 1000000 then .slc else .block

/-- Place one LBA of the write buffer, encrypted (R408): its write's lock is released with its program. A writer that finds no
erased block waits, and the pool shows it (R239). -/
def State.drainOne (s : State) (w : BufEnt) (use : GroupUse) : State :=
  match s.nsOf w.nsid with
  | none => s
  | some n =>
    if s.readyPipes.isEmpty then s.mediaStall
    else match s.mediaKey n.keyRec n.keySeq with
    | (none, t) => t
    | (some key, t) =>
      let t := t.mediaBytes 4096
      let ct := xtsCrypt true key w.lba w.data
      let owner := (t.host.cmds.find? fun c => c.x.opcode == 1 && c.x.nsid == w.nsid && decide (ioLba c.x ≤ w.lba)
        && decide (w.lba < ioLba c.x + ioNlb c.x)).map fun c => (⟨c.x.fn, c.x.sq, c.x.cid⟩ : CmdKey)
      match t.placeUnit use 0 w.nsid 1 w.lba 0 ct owner with
      | none => t.noPlace use 0
      | some v =>
        (v.setMedia fun m => { m with wbuf := removeFirst (· == w) m.wbuf }).setImage fun i => { i with hostBytes := i.hostBytes + 4096 }

/-- Program out what the write buffer holds, with pad units; the size of the write that it came with says where (R217, R219,
R459). -/
def State.drainBuffer (s : State) : State :=
  let t := s.media.wbuf.foldl (fun t w => t.drainOne w (t.writeUse w.size)) s
  (t.padStripe .slc 0).padStripe .block 0

/-- BLOCK_WRITE_BUFFER_DRAIN (R459). -/
def execBlockWriteBufferDrain (s : State) : Out :=
  if s.media.wbuf.isEmpty || s.offline then .next s else .next s.drainBuffer.showPool

/-- The metadata groups, freed ones until their erase too, that hold a copy of a key-table page older than the newest on flash (R425). -/
def State.oldKeyGroups (s : State) (n : Nat) : List Group :=
  let mine := fun (u : DUnit) => u.kind == 3 && u.logical == 2 ^ 62 + n
  let new := match s.metaUnit 3 (2 ^ 62 + n) with | some x => x.seq | none => 0
  s.groups.filter fun g => g.use == .metadata && g.stripes.any fun st => st.units.any fun u => mine u && decide (u.seq < new)

/-- The purge of a key-table page goes on: while a newer copy is still on its way it waits; then the groups that hold the earlier copies
close, once their placed stripes are issued, and are queued for refresh, which relocates what else they hold and frees them to be
erased (R425, R240); with none left it is done. -/
def State.purgeKeyPage (s : State) (n : Nat) : State :=
  if s.keys.due.contains n || s.metaAll.any fun x => !x.ready && x.kind == 3 && x.logical == 2 ^ 62 + n then s
  else match s.oldKeyGroups n with
    | [] => s.setKeys fun k => { k with purge := k.purge.filter (· != n) }
    | gs => (gs.filter fun g => g.state == .closed || (g.state == .opened && g.stripes.all fun st => st.issued || st.void)).foldl (fun t g =>
        (t.closeGroup g.num).queueRefresh g.num) s |>.logReady.freeEmpty

/-- KEY_TABLE_PURGE (R24, R425): at refresh's priority, the metadata groups that hold a deleted record's earlier copies are relocated and
erased. -/
def execKeyTablePurge (s : State) : Out :=
  if !s.mayTask 2 then .next s else .next (s.keys.purge.foldl State.purgeKeyPage s.writeKeyPages)

end Sys2Proof.Machine
end

