-- ==== Sys2Proof/Machine/Array.lean ====
section
/-!
DEFINITION. The array's background commands: snapshots, the Tally bitmap, rebuild, resynchronisation and reshape (R266-R289).
-/

namespace Sys2Proof.Machine

/-! ### Snapshot and bitmap -/

/-- The open stripes of a group. -/
def Group.openStripes (g : Group) : List Nat := (g.stripes.zipIdx.filter fun x => x.1.issued && !x.1.settled).map (·.2)

/-- The next two stripes of an open group beyond its highest issued one (R271). -/
def State.lookAhead (s : State) (g : Group) : List Nat :=
  let next := ((g.stripes.zipIdx.filter fun x => x.1.issued).map (·.2 + 1)).foldl max 0
  if g.ending then [] else [next, next + 1].filter fun i => decide (i < s.part.units)

/-- The look-ahead entries that a snapshot has listed already: stripes of open groups that have not been issued, and may be under that
snapshot (R271). -/
def State.keptAhead (s : State) : List (Nat × Nat × Bool) :=
  let was := fun (x : Option (Nat × Snapshot)) => match x with | some n => n.2.stripes | none => []
  ((was s.array.snap ++ was s.array.snapNew).filterMap fun x => (s.group? x.1).bind fun g =>
    if g.state = .opened ∧ g.ending = false ∧ x.2.1 < s.part.units ∧ x.2.2 = false
        ∧ (match g.stripes[x.2.1]? with | some st => !st.issued && !st.void | none => true) = true
    then some x else none).eraseDups

/-- The next snapshot (R270, R271): open stripes, those still owed a resynchronisation, the look-ahead that is listed already, then as
much of the new look-ahead as 2,048 entries leave room for; a stripe that finds none waits. -/
def State.makeSnap (s : State) : Snapshot :=
  let a := s.array
  let open_ := s.groups.filter (·.state == .opened)
  let now := (s.groups.flatMap fun g => g.openStripes.map fun i => (g.num, i, false)) ++ (a.pending.map fun p => (p.1, p.2, true)) ++ s.keptAhead
  let next := (open_.flatMap fun g => (s.lookAhead g).map fun i => (g.num, i, false)).filter (!s.keptAhead.contains ·)
  let last := fun (x : Option (Nat × Snapshot)) => match x with | some n => n.2.seq | none => 0
  { seq := max (last a.snap) (last a.snapNew) + 1, mark := s.media.seq,
    groups := open_.map fun g => (g.num, g.k, g.members.map (·.1)),
    stripes := (now ++ next).take 2048,
    resync := if !a.sweep.isEmpty then s.get R.ARRAY.ARRAY_STATUS_RESYNC_CASE else if a.pending.isEmpty then 0 else 1,
    cursor := if a.sweep.any fun x => a.stopGroups.contains x.1 then (0, 0) else (a.sweep.foldl insertStripe []).headD (0, 0) }

/-- ASCII "CORKSJNL". -/
def snapMagic : Bytes := [0x43, 0x4F, 0x52, 0x4B, 0x53, 0x4A, 0x4E, 0x4C]

/-- A snapshot's 64 KiB: its 32 KiB, and zeros (R270). -/
def Snapshot.bytes (n : Snapshot) : Bytes :=
  let group := fun (g : Nat × Nat × List Nat) =>
    leBytes 4 (g.1 % 2 ^ 20) ++ leBytes 1 g.2.1 ++ leBytes 1 g.2.2.length ++ leBytes 2 0
      ++ (List.range 26).flatMap (fun i => leBytes 2 (g.2.2.getD i 0xFFFF)) ++ leBytes 4 0
  let stripe := fun (x : Nat × Nat × Bool) => leBytes 8 (x.1 % 2 ^ 20 + x.2.1 % 2 ^ 16 * 2 ^ 20 + b2n x.2.2 * 2 ^ 36)
  let b := snapMagic ++ leBytes 8 n.seq ++ leBytes 8 n.mark ++ leBytes 2 n.groups.length ++ leBytes 2 n.stripes.length
    ++ leBytes 1 n.resync ++ leBytes 3 0 ++ leBytes 8 (n.cursor.1 % 2 ^ 20 + n.cursor.2 % 2 ^ 16 * 2 ^ 20) ++ leBytes 24 0
    ++ n.groups.flatMap group ++ n.stripes.flatMap stripe
  let c := padTo 32764 b
  padTo 65536 (c ++ leBytes 4 (crc32c c))

/-- Regions of the blocks of open groups, of groups that the durable snapshot still lists, and of groups with stripes of a sweep still to
do, keep their bits, so that a further unclean stop finds these again; the others are cleared (R272, R276; log entry 92). -/
def State.clearRegions (s : State) : State :=
  let listed := fun (g : Group) => match s.array.snap with | some n => n.2.groups.any fun x => x.1 == g.num | none => false
  let keep := (s.groups.filter fun g => g.state == .opened || listed g || s.array.sweep.any fun x => x.1 == g.num).flatMap fun g => g.members.map fun m => s.region m.1 m.2
  let gone := s.array.bitmap.filter fun r => !keep.contains r
  if gone.isEmpty then s else s.writeBitmap (s.array.bitmap.filter keep.contains) gone

/-- STRIPE_SNAPSHOT: the open set has changed, and a snapshot page is written to the three journal dies (R269-R271); the next waits
until this one is durable (log entry 35). -/
def execStripeSnapshot (s : State) : Out :=
  match s.array.snapNew with
  | some n => .next (s.requeueCopies n.1)
  | none =>
    if !s.array.snapDirty then .next s
    else
      let n := s.makeSnap
      match s.putPage 0 n.mark true n.bytes with
      | some (p, t) => .next (t.setArray fun a => { a with snapNew := some (p, n), snapDirty := false })
      | none => .next s

/-- A snapshot's three copies have been programmed: it is durable, and the stripes that it lists may be issued (R269-R272). -/
def State.snapStep (s : State) : State :=
  match s.array.snapNew with
  | none => s
  | some n =>
    if s.pageDone n.1 then ((s.setArray fun a => { a with snap := some n, snapNew := none }).clearRegions.issueReady).dropPages
    else s

/-- M of R273. -/
def State.bitmapM (s : State) : Nat :=
  if 512 * ceilDiv (s.part.blocks * s.blockBytes) (2 ^ 30) ≤ 131072 then 2 ^ 28 else 2 ^ 27

/-- BITMAP_MOVE (R273): the bitmap is copied to the next position, then the headers are written. -/
def execBitmapMove (s : State) : Out :=
  if s.array.bitmapWrites < s.bitmapM then .next s
  else
    let p := (s.get R.ARRAY.BITMAP_POSITION + 1) % 64
    let words := ceilDiv (512 * ceilDiv (s.part.blocks * s.blockBytes) (2 ^ 30)) 64
    let t := s.wearTally .bitmap ((List.range words).map (64 * p + ·))
    .next ((t.setArray fun a => { a with bitmapWrites := 0 }).put R.ARRAY.BITMAP_POSITION p).writeBitmapHeader

/-! ### Resynchronisation -/

/-- Every unit of a stripe is programmed and its parities match (R275). -/
def State.consistent (s : State) (g : Group) (i : Nat) : Bool :=
  (List.range (s.pieces g.use.isSlc)).all fun j =>
    let row := s.pieceRowOf g i j
    rowGone row == 0 && (let ds := row.1.map (·.getD zeroPiece)
      row.2.1 == some (pOf ds) && row.2.2 == some (qOf ds))

/-- A stripe is done with: it is owed nothing any longer, and the next snapshots say so (R271, R275). -/
def State.resyncEnd (s : State) (gn i : Nat) (f : Stripe → Stripe) : State :=
  let t := s.setArray fun a =>
    { a with pending := a.pending.filter (· != (gn, i)), sweep := a.sweep.filter (· != (gn, i)), snapDirty := true }
  t.modGroup gn fun h => { h with stripes := modAt h.stripes i fun y => f { y with pend := false } }

/-- Resynchronise one stripe (R275-R277): one that is consistent is so marked; of any other the valid units are relocated, or lost to a
write hole, and it is void once it holds none. -/
def State.resyncAt (s : State) (gn i : Nat) : State :=
  match (s.group? gn).bind fun g => (g.stripes[i]?).map fun st => (g, st) with
  | none => s.resyncEnd gn i id
  | some (g, st) =>
    if !st.void && s.consistent g i then s.resyncEnd gn i fun y => { y with closed := true, done := List.range (g.k + 2), failed := [] }
    else
      let t := s.copyWhere g (s.inStripe g i) false
      if (t.validIdx g).any (t.inStripe g i) then t else t.resyncEnd gn i fun y => { y with void := true }

/-- The stripe that resynchronisation takes next (R24, R275): of those that do not wait for their copies the first one open at the stop,
and with none of these, behind rebuild and refresh, the first of the rest. -/
def State.nextResync (s : State) : Option (Nat × Nat) :=
  match s.resyncReady.find? s.openAtStop with
  | some x => if s.mayTask 1 then some x else none
  | none => if s.mayTask 4 then s.resyncReady.head? else none

/-- RESYNC_STRIPE (R24, R275, R276). -/
def execResyncStripe (s : State) : Out :=
  match s.nextResync with
    | none => .next s
    | some (gn, i) =>
      let t := s.resyncAt gn i
      .next (if t.array.owed.isEmpty then (t.pulse 0x62 Ev.ARRAY.RESYNC_DONE).freeEmpty else t)

/-- A read that needs reconstruction from a stripe still owed a resynchronisation runs it ahead of its turn (R278). -/
def State.resyncAhead (s : State) (gn u : Nat) : State :=
  match s.group? gn with
  | none => s
  | some g =>
    let x := s.unitPlace g u
    let m := g.members.getD (roleMember g.k x.1 x.2.1) (0, 0)
    match g.stripes[x.1]? with
    | some st => if st.pend && !st.buffered (roleMember g.k x.1 x.2.1) && (s.readPiece m.1 m.2 x.1 x.2.2).isNone && !s.resyncWaits (gn, x.1)
        then s.resyncAt gn x.1 else s
    | none => s

/-! ### Rebuild -/

/-- META of a rebuilt data unit (R281): from the map entry or metadata locator that names it, KIND 0x00 where none does. -/
def State.rebuiltMeta (s : State) (g : Group) (seq u : Nat) (data : Bytes) : Bytes :=
  let fl := if g.use.isSlc then 2 else 0
  match (s.validMeta g).find? (·.2.2 == u), s.media.image.map.find? fun x => x.2 == .mapped g.num u with
  | some x, _ => metaBytes seq 0 x.1 fl x.2.1 g.tag data
  | none, some x => metaBytes seq x.1.1 (if g.use.isTake then 2 else 1) fl x.1.2 g.tag data
  | none, none => metaBytes seq 0 0 fl 0 g.tag data

/-- The rebuilt pieces of a member in a stripe; none where a row has more than two unavailable pieces. -/
def State.rebuiltUnit (s : State) (g : Group) (i m : Nat) : Option (List (Nat × Bytes × Bytes)) :=
  let p := s.pieces g.use.isSlc
  let role := memberRole g.k i m
  let seq := match g.stripes[i]? with | some st => ((st.units.getLast?).map (·.seq)).getD 0 | none => 0
  (List.range p).foldr (fun j acc =>
    let row := s.pieceRowOf g i j
    match acc, (match g.stripes[i]? with | some st => st.rowData row | none => none) with
    | some l, some ds =>
      let d := if role < g.k then ds.getD role zeroPiece else if role = g.k then pOf ds else qOf ds
      let mt := if role < g.k then s.rebuiltMeta g seq (i * s.stripeUnits g + role * p + j) d
        else metaBytes seq 0 0x07 (if g.use.isSlc then 2 else 0) 0 g.tag d
      some ((j, d, mt) :: l)
    | _, _ => none) (some [])

/-- The operation programs a rebuilt unit of a stripe. -/
def DieOp.rebuilds (gn i : Nat) (o : DieOp) : Bool :=
  match o.use with
  | .rebuild g j _ _ => g == gn && j == i
  | _ => false

/-- The rebuilt units of a stripe are on their way to flash. -/
def State.rebuilding (s : State) (x : Nat × Nat) : Bool := s.nand.queues.any fun q => q.2.any (DieOp.rebuilds x.1 x.2)

/-- Rebuild the missing units of one stripe, in one pass: the members left are read, and the units are programmed in their
replacement blocks, each in its die's queue (R187, R198, R281); one still owed a resynchronisation has that first (R278). -/
def State.rebuildAt (s : State) (gn i : Nat) : State :=
  match (s.group? gn).bind fun g => (g.stripes[i]?).map fun st => (g, st) with
  | none => s
  | some (g, st) =>
    if st.pend then s.resyncAt gn i
    else
      let miss := (List.range (g.k + 2)).filter fun m => !st.done.contains m && !st.failed.contains m
      let new := miss.map fun m => (m, s.rebuiltUnit g i m)
      if new.any (·.2.isNone) then s.goOffline 1
      else
        let t := (g.members.zipIdx.filter fun m => st.done.contains m.2 && s.dieLive m.1.1).foldl (fun t m => t.sendOnfi m.1.1 [.read m.1.2 i]) s
        new.foldl (fun t x =>
          let b := g.members.getD x.1 (0, 0)
          t.queueOp b.1 ⟨.program, b.2, i, g.use.isSlc, [], [], 0, .rebuild gn i x.1 (x.2.getD [])⟩) t

/-- With its last critical, or degraded, stripe the array's events come (R290). `crit` says that there were critical ones before. -/
def State.rebuildEvents (s : State) (crit : Bool) : State :=
  let t := if crit && s.critical.isEmpty then s.pulse 0x62 Ev.ARRAY.CRITICAL_CLEAR else s
  if t.critical.isEmpty && t.degraded.isEmpty then t.pulse 0x62 Ev.ARRAY.REBUILD_DONE else t

/-- A rebuilt unit has been programmed (R281). -/
def State.rebuilt (s : State) (gn i m d block : Nat) (ps : List (Nat × Bytes × Bytes)) : State :=
  let t := (s.programUnit d block i ps).modGroup gn fun h =>
    { h with stripes := modAt h.stripes i fun y => { y with done := if y.done.contains m then y.done else y.done ++ [m] } }
  (t.bump R.ARRAY.REBUILT_UNITS_COUNT).rebuildEvents (!s.critical.isEmpty)

/-- The program of a rebuilt unit failed (R242): its block retires and the group is queued for refresh; the unit is served from the
program buffers till it is relocated. -/
def State.rebuildFailed (s : State) (gn i m d block : Nat) : State :=
  let t := (s.modGroup gn fun h =>
    { h with stripes := modAt h.stripes i fun y => { y with failed := if y.failed.contains m then y.failed else y.failed ++ [m] } }).queueRefresh gn
  (t.retireBlock d block gn).rebuildEvents (!s.critical.isEmpty)

/-- The rebuild of a group waits for a block: recorded once per wait (R267). -/
def State.noteWait (s : State) (gn : Nat) : State :=
  if s.array.noReplacement.contains gn then s
  else ((s.setArray fun a => { a with noReplacement := a.noReplacement ++ [gn] }).pulse 0x62 Ev.ARRAY.NO_REPLACEMENT).arrayErr
    E.ARRAY_NO_REPLACEMENT 0 gn

/-- The stripes that rebuild has to take, critical ones first: those of closed groups that are not on their way (R281, R282). -/
def State.toRebuild (s : State) : List (Nat × Nat) :=
  (if s.mayTask 3 then s.critical ++ s.degraded else s.critical).filter fun x => s.groupClosed x.1 && !s.rebuilding x

/-- REBUILD_STRIPE (R24, R267, R281, R282): the first critical stripe, else the first degraded one, of a closed group that has its
replacement blocks; the others' wait is recorded. -/
def execRebuildStripe (s : State) : Out :=
  if !s.mayTask 0 then .next s
  else
    let l := s.toRebuild
    let t := ((l.map (·.1)).eraseDups.filter (!s.canRebuild ·)).foldl State.noteWait s
    match l.find? fun x => s.canRebuild x.1 with
    | none => .next t
    | some (gn, i) =>
      .next (((t.replaceMembers gn).2.setArray fun a => { a with noReplacement := a.noReplacement.filter (· != gn) }).rebuildAt gn i)

/-! ### Reshape -/

/-- The reshape pauses (R29, R289): a handover, critical stripes, or a resynchronisation of case 2 or 3. -/
def State.reshapePaused (s : State) : Bool :=
  s.handing || !s.critical.isEmpty || (!s.array.owed.isEmpty && decide (2 ≤ s.get R.ARRAY.ARRAY_STATUS_RESYNC_CASE))

/-- Part of an old-layout group is not yet as it will stay: the group is open still, or programs of the part's stripes have not ended
(R287). -/
def State.partBusy (s : State) (g : Group) (lo hi : Nat) : Bool :=
  g.state == .opened || g.stripes.zipIdx.any fun x => !x.1.void && !x.1.settled
    && decide (x.2 * s.stripeUnits g < hi) && decide (lo < (x.2 + 1) * s.stripeUnits g)

/-- The reshape receives die time: every task above it is idle or blocked (R24). -/
def State.mayReshape (s : State) : Bool := s.mayTask 5 && !s.gcReady

/-- The group's share of a region of the sequence: from the first group, its start, and the region's bounds. -/
def regionParts : Nat → Nat → Nat → List (Nat × Nat) → List (Nat × Nat × Nat)
  | _, _, _, [] => []
  | at_, lo, hi, (g, n) :: rest =>
    let a := max lo at_ - at_
    let b := min hi (at_ + n) - at_
    if a < b then (g, a, b) :: regionParts (at_ + n) lo hi rest else regionParts (at_ + n) lo hi rest

/-- Groups wholly before a position of the sequence. -/
def groupsBefore : Nat → Nat → List (Nat × Nat) → List Nat
  | _, _, [] => []
  | at_, pos, (g, n) :: rest => if at_ + n ≤ pos then g :: groupsBefore (at_ + n) pos rest else []

/-- The parity capacity that `n` freed groups give a widening, in whole GB (R286). -/
def State.widenGain (s : State) (r : ReshapeRec) (n : Nat) : Nat :=
  n * 2 * s.blockBytes * (r.newK - r.oldK) / (r.newK * 1000000000)

/-- The new width is in force (R289); where the active channels no longer carry it, the device reshapes again (R286). -/
def State.endReshape (s : State) (r : ReshapeRec) : State :=
  let gen := min 255 (s.get R.ARRAY.LAYOUT_GENERATION + 1)
  let t := (s.setArray fun a => { a with reshapeSeq := [] }).setReshape { r with active := false, gen := gen, oldK := r.newK }
  let t := t.setImage fun i => { i with opened := i.opened.filter (·.1 == r.newK) }
  let t := t.puts [(R.ARRAY.LAYOUT_K, kCode r.newK), (R.ARRAY.LAYOUT_OLD_K, 0), (R.ARRAY.LAYOUT_GENERATION, gen)]
  ((t.pulse 0x62 Ev.ARRAY.RESHAPE_DONE).arrayErr E.ARRAY_RESHAPE_DONE 0 0).followChannels

/-- RESHAPE_REGION (R24, R287-R289): the valid units of the region at the boundary are copied; once none is left there, and none can
come, the boundary passes it, groups it has passed are freed, and at the end of the sequence the reshape is done. -/
def execReshapeRegion (s : State) : Out :=
  match s.array.reshape with
  | none => .next s
  | some r =>
    if !r.active || s.reshapePaused || !s.mayReshape then .next s
    else
      let hi := min r.total (r.boundary + 262144)
      let parts := regionParts 0 r.boundary hi s.array.reshapeSeq
      let left := parts.any fun x => match s.group? x.1 with
        | some g => g.state != .freed && (s.partBusy g x.2.1 x.2.2 || (s.validIdx g).any fun y => decide (x.2.1 ≤ y) && decide (y < x.2.2))
        | none => false
      if left then
        .next (parts.foldl (fun t x => match t.group? x.1 with
          | some g => if g.state = .freed then t else t.copyRange g x.2.1 x.2.2 false
          | none => t) s)
      else
        let passed := groupsBefore 0 hi s.array.reshapeSeq
        let t := passed.foldl (fun t n => match t.group? n with
          | some g => if g.quiet && t.validCount g == 0 then t.freeGroup n else t
          | none => t) s
        let n := (passed.filter fun n => match t.group? n with | some g => g.state == .freed | none => true).length
        let gain := t.widenGain r n - t.widenGain r t.array.reshapeFreed
        let t := if r.oldK < r.newK then t.put R.MEDIA.SPARE_TOTAL_GB (t.get R.MEDIA.SPARE_TOTAL_GB + gain) else t
        let r2 := { r with boundary := hi }
        let t := ((t.setArray fun a => { a with reshapeFreed := n }).setReshape r2).put R.ARRAY.RESHAPE_POS_UNITS hi
        .next (if hi = r.total then t.endReshape r2 else t)

end Sys2Proof.Machine
end

