-- ==== Sys2Proof/Machine/Turns.lean ====
section
/-!
DEFINITION. Deficit round robin, by which Shears jobs start (R179) and host commands are fetched (R494).
-/

namespace Sys2Proof.Machine

/-- One function that waits: its tag, its deficit, the size of what it would start next, and its quantum. -/
structure Waiter where
  /-- FUNC -/
  func : Nat
  /-- deficit -/
  deficit : Nat
  /-- size of its next item -/
  size : Nat
  /-- quantum -/
  quantum : Nat
deriving DecidableEq, Repr

/-- Grants a function still needs before its next item fits. -/
def Waiter.grants (w : Waiter) : Nat := ceilDiv (w.size - w.deficit) (max 1 w.quantum)

/-- The functions that wait, in turn: those of the ring keep their deficits, one that waits no longer loses its own, and new ones
join at the end with none. -/
def Turns.waiters (t : Turns) (active : List (Nat × Nat × Nat)) : List Waiter :=
  let old := t.ring.filterMap fun r => (active.find? (·.1 == r.1)).map fun a => (⟨r.1, r.2, a.2.1, a.2.2⟩ : Waiter)
  let new := active.filter fun a => !t.ring.any (·.1 == a.1)
  old ++ new.map fun a => ⟨a.1, 0, a.2.1, a.2.2⟩

/-- The round in which a waiter is served, the present one being 0: a function gets one grant each time its turn begins, and the
one whose turn it is has had its grant. -/
def Waiter.round (w : Waiter) (inTurn : Bool) : Nat := if inTurn then w.grants else max 1 w.grants - 1

/-- The waiter served first: its place and its round. -/
def firstServed (cur : Option Nat) (ws : List Waiter) : Option (Nat × Nat) :=
  ws.zipIdx.foldl (fun b x =>
    let r := x.1.round (x.2 == 0 && cur == some x.1.func)
    match b with
    | none => some (x.2, r)
    | some y => if r < y.2 then some (x.2, r) else b) none

/-- Who is served next among the functions that wait, each given with the size of its next item and its quantum, and the turns
after it: every turn that began has added a quantum, the served function has spent its item's size and keeps its turn. -/
def Turns.pick (t : Turns) (active : List (Nat × Nat × Nat)) : Option (Nat × Turns) :=
  let ws := t.waiters active
  match firstServed t.cur ws with
  | none => none
  | some (i, r) =>
    let after := ws.zipIdx.map fun x =>
      let n := if x.2 = 0 ∧ t.cur = some x.1.func then r else if x.2 ≤ i then r + 1 else r
      (x.1.func, x.1.deficit + n * x.1.quantum - if x.2 = i then x.1.size else 0)
    match ws[i]? with
    | some w => some (w.func, ⟨some w.func, after.drop i ++ after.take i⟩)
    | none => none

end Sys2Proof.Machine
end

