-- ==== Sys2Proof/Machine/ShearsBase.lean ====
section
/-!
DEFINITION. Shears lanes and jobs: mismatches, retirement and re-emission (R166-R170), output buffers and the three job
operations (R173-R178).
-/

namespace Sys2Proof.Machine

/-- ERR_INFO of a SHEARS condition (R181). -/
def shearsInfo (lane func status : Nat) : Nat := lane % 16 + func % 512 * 16 + status % 8 * 2 ^ 13

/-- Page of a lane. -/
def lanePage (l : Nat) : Nat := 0x18 + l

/-! ### Lanes -/

/-- The next live lane in cyclic order from `l`, reserved lanes first (R168): `l` itself comes last among the reserved, and before the
unreserved ones (DESIGN CHOICE, log entry 79). -/
def State.nextLane (s : State) (l : Nat) : Option Nat :=
  let cyc := (List.range 12).map fun i => (l + 1 + i) % 12
  match cyc.find? fun x => s.laneLive x && s.laneReserved x with
  | some x => some x
  | none => cyc.find? s.laneLive

/-- The lane that re-emits a block of a job run on `l` and continues it (R169): the next other live unreserved one in cyclic order,
and `l` itself, while it is live and unreserved, only where there is no other (DESIGN CHOICE, log entry 79). With none the job waits
for one. -/
def State.nextJobLane (s : State) (l : Nat) : Option Nat :=
  let cyc := (List.range 12).map fun i => (l + 1 + i) % 12
  cyc.find? fun x => s.laneLive x && !s.laneReserved x

/-- Change a take slice. -/
def State.modSlice (s : State) (uid idx : Nat) (f : TakeSlice → TakeSlice) : State :=
  s.setTake fun t => { t with slices := t.slices.map fun x => if x.uid == uid && x.idx == idx then f x else x }

/-- A slice of the take. -/
def State.slice? (s : State) (uid idx : Nat) : Option TakeSlice := s.take.slices.find? fun x => x.uid == uid && x.idx == idx

/-- A stored re-emission of a slice starts on the lane after `l`, whose work it suspends (R168). -/
def State.startReemit (s : State) (uid idx l : Nat) : State :=
  match s.nextLane l with
  | none => s.modSlice uid idx fun x => { x with status := .waiting, stored := true, tries := x.tries + 1, fromLane := l }
  | some m =>
    let t := s.modSlice uid idx fun x => { x with status := .onLane, stored := true, tries := x.tries + 1, fromLane := l }
    t.modLane m fun y => { y with work := .reemit uid idx, held := if y.work == .idle then y.held else y.work :: y.held }

/-- The lane takes up what a re-emission suspended, or falls idle. -/
def State.resumeLane (s : State) (l : Nat) : State := s.modLane l fun y => { y with work := y.held.headD .idle, held := y.held.drop 1 }

/-- The take slices on a retired lane go elsewhere; a job on it moves at its next block boundary. -/
def State.emptyLane (s : State) (l : Nat) : State :=
  let ws := (s.lane l).work :: (s.lane l).held
  let jobs := ws.filter fun w => match w with | .job _ => true | _ => false
  let t := s.modLane l fun y => { y with work := jobs.headD .idle, held := jobs.drop 1 }
  ws.foldl (fun t w =>
    match w with
    | .slice u i _ => t.modSlice u i fun x => { x with status := .waiting }
    | .reemit u i => (t.modSlice u i fun x => { x with tries := x.tries - 1 }).startReemit u i l
    | _ => t) t

/-- Retire a lane (R170): the reservation moves, the contract is computed again, and with no live lane left SAFE is entered. -/
def State.retireLane (s : State) (l : Nat) : State :=
  if s.bit (R.LANE.LANE_STATUS_RETIRED l) then s
  else
    let t := s.puts [(R.LANE.LANE_STATUS_RETIRED l, 1), (H.RETIRED (lanePage l), 1),
      (R.SHEARS.LANES_LIVE_MASK, setBit (s.get R.SHEARS.LANES_LIVE_MASK) l false)]
    let t := (t.pulse (lanePage l) Ev.LANE.RETIRED).pulse 0x24 Ev.SHEARS.LANE_RETIRED
    let t := (t.record (lanePage l) E.SHEARS_LANE_RETIRED (shearsInfo l 0x1F1 0) 0x1F1).emptyLane l
    let t := t.recompute.dispatchSlices
    if t.get R.SHEARS.LANES_LIVE_MASK != 0 then t
    else ((t.pulse 0x24 Ev.SHEARS.NO_LANE).record 0x24 E.SHEARS_NO_LANE (shearsInfo l 0x1F1 0) 0x1F1).enterSafe 2

/-- A verify mismatch of a lane: counts, record, and retirement at the limit within 1 s (R168-R170). -/
def State.laneMiss (s : State) (l block func : Nat) (stored : Bool) : State :=
  let t := (s.bump (R.LANE.MISMATCH_COUNT_COUNT l)).bump R.SHEARS.VERIFY_MISMATCHES_COUNT
  let t := (t.put (R.LANE.LAST_MISMATCH_BLOCK l) block).pulse (lanePage l) Ev.LANE.VERIFY_MISMATCH
  let t := t.record (lanePage l) E.SHEARS_VERIFY_MISMATCH (shearsInfo l func 0) func
  let t := t.modLane l fun y => { y with misses := (y.misses.filter fun x => decide (s.time < x + 1000000000)) ++ [s.time] }
  if stored || decide (t.get R.SHEARS.RETIRE_LIMIT_MISMATCHES ≤ (t.lane l).misses.length) then t.retireLane l else t

/-! ### Output -/

/-- Write bytes over spans of virtual memory in order, each cut at 4 KiB boundaries: the state, or the faulting address and the
spans written before it. -/
def writeSpans (func : Nat) : List (Nat × Nat) → Bytes → List (Nat × Nat) → State → Except (Nat × List (Nat × Nat) × State) State
  | [], _, _, s => .ok s
  | (a, n) :: ps, bs, acc, s =>
    if bs.isEmpty then .ok s
    else
      let k := min n bs.length
      match s.xwrite func a (bs.take k) with
      | .ok t => writeSpans func ps (bs.drop k) (acc ++ [(a, k)]) t
      | .error x => .error (x, acc, s)

/-- Write bytes over spans page by page, leaving out each page that faults. -/
def writePages (func : Nat) (ps : List (Nat × Nat)) (bs : Bytes) (s : State) : State :=
  ((ps.flatMap fun p => piecesOf p.1 p.2).foldl (fun (r : State × Bytes) p =>
    (match r.1.xwrite func p.1 (r.2.take p.2) with | .ok u => u | .error _ => r.1, r.2.drop p.2)) (s, bs)).1

/-- Zero the spans a failed job wrote, leaving out each page that faults (R176). -/
def zeroSpans (func : Nat) (ps : List (Nat × Nat)) (s : State) : State := 
  writePages func ps (List.replicate ((ps.map (·.2)).foldl (· + ·) 0) 0) s

/-- The first `n` bytes of spans. -/
def cutSpans : Nat → List (Nat × Nat) → List (Nat × Nat)
  | _, [] => []
  | n, (a, k) :: ps => if n = 0 then [] else (a, min n k) :: cutSpans (n - k) ps

/-- The chain entries that `need` bytes beyond the bucket use: address and length; the STATUS that stops the job otherwise. -/
def chainEntries (s : State) (func list : Nat) : Nat → Nat → Nat → Except (Nat × Option Nat) (List (Nat × Nat))
  | 0, _, need => if need = 0 then .ok [] else .error (0x01, none)
  | f + 1, i, need =>
    if need = 0 then .ok []
    else
      match s.xread func (list + 16 * i) 16 with
      | .error a => .error (0x06, some a)
      | .ok e =>
        let n := leNat (sliceBytes e 8 4)
        if n < 64 then .error (0x02, none)
        else match chainEntries s func list f (i + 1) (need - n) with
          | .ok l => .ok ((leNat (e.take 8), n) :: l)
          | .error x => .error x

/-- The chain entries a job may fill, for a job that runs out of space. -/
def chainAll (s : State) (func list : Nat) : Nat → Nat → List (Nat × Nat)
  | 0, _ => []
  | f + 1, i =>
    match s.xread func (list + 16 * i) 16 with
    | .error _ => []
    | .ok e => (leNat (e.take 8), leNat (sliceBytes e 8 4)) :: chainAll s func list f (i + 1)

/-! ### Jobs -/

/-- A Shears descriptor's fields are legal (R173). -/
def shearsDescOk (d : Bytes) : Bool :=
  let op := descN d 0 1
  let wrap := descN d 1 1
  let eff := descN d 2 1
  let chain := bitAt (descN d 3 1) 1
  let n := descN d 10 2
  decide (1 ≤ op) && decide (op ≤ 3) && decide (wrap ≤ 2) && (op != 3 || wrap == 0)
    && (if op == 1 then decide (eff ≤ 9) else eff == 0) && (op == 3 || descN d 4 1 == 0)
    && decide (n ≤ 4096) && (chain || n == 0)
    && decide (1 ≤ descN d 24 8) && decide (descN d 24 8 < 2 ^ 40) && decide (64 ≤ descN d 40 8) && decide (descN d 40 8 < 2 ^ 40)
    && descN d 48 8 % 16 == 0 && (n != 0 || descN d 48 8 == 0) && descN d 56 8 % 32 == 0

/-- What a job makes before its output is placed. -/
inductive ShearsOut where
  /-- output, input consumed, CRC-32C -/
  | ok (out : Bytes) (used crc : Nat)
  /-- STATUS of a failure -/
  | fail (status : Nat)
deriving DecidableEq, Repr

/-- A whole SLICE record decoded (R114, R174). -/
def unSlice (cfa : Nat) (rec_ : Bytes) : ShearsOut :=
  let h := rec_.take 64
  let body := leNat (sliceBytes h 4 4)
  let pred := descN h 36 1
  let rawLen := descN h 32 4
  if rec_.length < 64 ∨ leNat (sliceBytes h 60 4) ≠ crc32c (h.take 60) then .fail 0x04
  else if descN h 0 1 ≠ 1 ∨ bitAt (descN h 20 4) 3 ∨ 4 < pred ∨ rec_.length < 64 + body then .fail 0x03
  else
    match inflate (sliceBytes rec_ 64 body) with
    | none => .fail 0x03
    | some (z, _) =>
      let raw := if pred = 0 then z else unpredictSlice pred (descN h 37 1) cfa (descN h 38 2) rawLen z
      if raw.length = rawLen ∧ crc32c raw = descN h 40 4 then .ok raw (64 + body) (crc32c raw) else .fail 0x04

/-- What the operation makes of its input (R164, R174, R178). -/
def shearsRun (d inp : Bytes) (stored : List Nat) (fatal : Bool) : ShearsOut :=
  let op := descN d 0 1
  if op = 1 then
    if fatal then .fail 0x07
    else .ok (deflateWrapped (descN d 1 1) (descN d 2 1) (bitAt (descN d 3 1) 0) stored inp) inp.length (crc32c inp)
  else if op = 2 then
    match inflateWrapped (descN d 1 1) inp with
    | .ok out used => .ok out used (crc32c out)
    | .badStream => .fail 0x03
    | .checkMismatch => .fail 0x04
  else unSlice (descN d 4 1 % 8) inp

/-- Completion record (R177); on a failure after the descriptor was accepted the fields the rule leaves open are free
(log entry 53). -/
def State.shearsRecord (s : State) (d : Bytes) (status reemits out used crc chains : Nat) : Bytes × State :=
  let head := leBytes 4 (descN d 12 4) ++ leBytes 1 status ++ [0] ++ leBytes 2 reemits
  if status = 0 then (head ++ leBytes 8 out ++ leBytes 8 used ++ leBytes 4 crc ++ leBytes 2 chains ++ leBytes 2 0, s)
  else if status = 2 then (head ++ leBytes 24 0, s)
  else
    let f := s.freshBytes 14
    (head ++ leBytes 8 0 ++ f.1 ++ leBytes 2 0, f.2)

/-- A failed job: what it had written is zeroed (R176). -/
def State.shearsFail (s : State) (j : Job) (status reemits : Nat) (spans : List (Nat × Nat)) : JobDone × State :=
  let t := zeroSpans j.func spans s
  let r := t.shearsRecord j.desc status reemits 0 0 0 0
  (⟨j, status, descN j.desc 56 8, r.1, 0⟩, r.2)

/-- Some first part of spans, its length free: how much a job had written when its input proved bad is not stated
(log entry 53). -/
def State.freeSpans (s : State) (spans : List (Nat × Nat)) : List (Nat × Nat) × State :=
  let n := (spans.map (·.2)).foldl (· + ·) 0
  let f := s.fresh
  (cutSpans (f.1 % (n + 1)) spans, f.2)

/-- Place a job's output: the bucket, then the chain entries (R175, R176). -/
def State.shearsPlace (s : State) (j : Job) (reemits used crc blocks : Nat) (out : Bytes) : JobDone × State :=
  let d := j.desc
  let bucket := (descN d 32 8, descN d 40 8)
  let n := descN d 10 2
  match chainEntries s j.func (descN d 48 8) n 0 (out.length - bucket.2) with
  | .error (0x06, some a) => (s.xlateFault j.func a 0 false false true).shearsFail j 0x06 reemits [bucket]
  | .error (0x01, _) => s.shearsFail j 0x01 reemits (bucket :: chainAll s j.func (descN d 48 8) n 0)
  | .error (st, _) => s.shearsFail j st reemits []
  | .ok es =>
    match writeSpans j.func (bucket :: es) out [] s with
    | .error (a, done, t) => (t.xlateFault j.func a 0 true false true).shearsFail j 0x06 reemits done
    | .ok t =>
      let r := t.shearsRecord d 0 reemits out.length used crc es.length
      (⟨j, 0, descN d 56 8, r.1, blocks⟩, r.2)

/-- The failed attempts of a job up to the one that ends it: two failed re-emissions of one block fail the job (R169). -/
def jobAttempts (bad : List Nat) : List Nat :=
  bad.foldl (fun l b => if l.any fun x => decide (3 ≤ l.count x) then l else l ++ [b]) []

/-- Run a Shears job: descriptor, input, operation, output (R173-R178). -/
def State.shearsJob (s : State) (j : Job) (bad : List Nat) : JobDone × State :=
  let d := j.desc
  let bucket := (descN d 32 8, descN d 40 8)
  let addr := if descN d 56 8 % 32 = 0 then descN d 56 8 else 0
  if !shearsDescOk d then
    let r := s.shearsRecord d 2 0 0 0 0 0
    (⟨j, 2, addr, r.1, 0⟩, r.2)
  else
    match s.xread j.func (descN d 16 8) (descN d 24 8) with
    | .error a => (s.xlateFault j.func a 0 false false true).shearsFail j 0x06 0 []
    | .ok inp =>
      let blocks := ceilDiv inp.length 65536
      let bad := if descN d 0 1 = 1 then jobAttempts (bad.filter (· < blocks)) else []
      let fatal := bad.any fun b => decide (3 ≤ (bad.filter (· == b)).length)
      let reemits := bad.eraseDups.length
      match shearsRun d inp bad fatal with
      | .ok out used crc => s.shearsPlace j reemits used crc
          (if descN d 0 1 = 1 then deflateCount (descN d 2 1) (bitAt (descN d 3 1) 0) bad inp else 0) out
      | .fail st =>
        let f := s.freeSpans (bucket :: chainAll s j.func (descN d 48 8) (descN d 10 2) 0)
        f.2.shearsFail j st reemits f.1

/-- The Shears weight of a function, and 1 for the device's own tags, to which the spec gives none (R179; DESIGN CHOICE, log entry
33). -/
def State.shearsWeight (s : State) (func : Nat) : Nat := match s.fn func with | some f => max 1 f.p.weight | none => 1

/-- The Shears jobs at the front of their queues: the oldest of each function (R179, R322). -/
def State.shearsFronts (s : State) : List Job :=
  let js := s.jobs.queue.filter (·.engine == 0)
  let fronts := js.filter fun j => (js.find? (·.src == j.src)) == some j
  fronts.filter fun j => (fronts.find? (·.func == j.func)) == some j

/-- The job that the scheduler starts next, by deficit round robin with a quantum of 64 KiB of input times the function's weight,
and the turns after it (R179). -/
def State.shearsNext (s : State) : Option (Job × Turns) :=
  let fronts := s.shearsFronts
  match s.jobs.turns.pick (fronts.map fun j => (j.func, descN j.desc 24 8, 65536 * s.shearsWeight j.func)) with
  | none => none
  | some (f, t) => (fronts.find? (·.func == f)).map fun j => (j, t)

/-- What a verify mismatch of a job does: the lane that made the attempt counts it; but for the one that fails the job, the next
lane re-emits the block as stored blocks and goes on from there (R169). `x` holds the state, the lane the job is on, the last lane
it was on, and the attempts so far. With no lane left to go to, the job is on none, and the attempts left are not made. -/
def jobMiss (func : Nat) (x : State × Option Nat × Nat × List Nat) (b : Nat) : State × Option Nat × Nat × List Nat :=
  let old := x.2.2.2
  match x.2.1 with
  | none => x
  | some l =>
    let u := x.1.laneMiss l b func (old.contains b)
    if 2 ≤ old.count b then (u, some l, l, old ++ [b])
    else
      match u.nextJobLane l with
      | none => (u, none, l, old ++ [b])
      | some m =>
        (((u.bump (R.LANE.REEMIT_COUNT_COUNT m)).bump R.SHEARS.REEMISSIONS_COUNT).pulse (lanePage m) Ev.LANE.REEMITTED, some m, m,
          old ++ [b])

/-- A job's blocks are compressed, and so can mismatch: its descriptor holds and its input is read (R169, R176). -/
def State.shearsRuns (s : State) (j : Job) : Bool :=
  shearsDescOk j.desc && match s.xread j.func (descN j.desc 16 8) (descN j.desc 24 8) with | .ok _ => true | .error _ => false

/-- Start a job of one operation from the front of a queue on an unreserved lane that may start work, when it is the one the
scheduler starts next (R179, R180): nothing happens otherwise. `bad` names the blocks that mismatch, once for each failed attempt
(R169). -/
def State.startShears (s : State) (src : JobSrc) (l op : Nat) (bad : List Nat) : State :=
  match s.jobFor src 0 op 3, s.shearsNext with
  | some j, some (k, turns) =>
    if j.id ≠ k.id || s.laneReserved l || !s.laneFree l then s
    else
      let r := ((s.takeJob j.id).setJobs fun x => { x with turns := turns }).shearsJob j bad
      let blocks := ceilDiv (descN j.desc 24 8) 65536
      let miss := if op = 1 ∧ s.shearsRuns j then jobAttempts (bad.filter (· < blocks)) else []
      let t := r.2.modLane l fun y => { y with work := .job r.1 }
      let w := miss.foldl (jobMiss j.func) (t, some l, l, [])
      match w.2.1 with
      | none => (w.1.setJobs fun x => { x with parked := x.parked ++ [r.1] }).resumeLane l
      | some m =>
        if m = l then w.1
        else
          let u := w.1.resumeLane l
          u.modLane m fun y => { y with work := .job r.1, held := if y.work == .idle then y.held else y.work :: y.held }
  | _, _ => s

end Sys2Proof.Machine
end

