-- ==== Sys2Proof/Machine/HostIoBase.lean ====
section
/-!
DEFINITION. What I/O commands share: their checks (R120, R133, R248, R284, R423), the die reads they wait for, reading LBAs back,
the map pages they need (R214, R215), and their completion (R251, R262, R457, R461).
-/

namespace Sys2Proof.Machine

/-! ### Checks -/

/-- The namespace a command names, when it is attached to its function (R452, R454). -/
def State.ioNs (s : State) (x : IoCmd) : Option Ns :=
  (s.nsOf x.nsid).bind fun n => if n.attached.contains x.fn then some n else none

/-- LBAs of a namespace that may be read. -/
def Ns.readable (n : Ns) : Nat :=
  match n.kind with
  | .take => n.nuse
  | _ => n.nsze

/-- A range of LBAs touches a released segment (R133). -/
def Ns.touchesReleased (n : Ns) (lba count : Nat) : Bool :=
  n.released.any fun g => let lo := if g = 0 then 2 else g * 262144
    decide (lba < (g + 1) * 262144) && decide (lo < lba + count)

/-- The status that stops an I/O command on block or take namespaces before it starts, 0 for none. -/
def State.ioCheck (s : State) (x : IoCmd) (wr : Bool) (lba count : Nat) : Nat :=
  match s.ioNs x with
  | none => Nv.badNs
  | some n =>
    if n.kind ≠ .block ∧ n.kind ≠ .take then Nv.badOpcode
    else if s.offline then Nv.offline
    else if s.keys.kekMedia.isNone then Nv.keys
    else if wr ∧ n.kind = .take then Nv.protected
    else if n.readable < lba + count then Nv.outOfRange
    else if n.kind = .take ∧ n.touchesReleased lba count then Nv.deallocated
    else if wr ∧ s.mode = 7 then Nv.protected
    else 0

/-- The command's data pointer does not span the bytes to move, or they are more than MDTS allows (R451). -/
def ioShort (x : IoCmd) (n : Nat) : Bool := decide (dptrLen x.dptr < n) || decide (2 ^ 26 < n)

/-! ### Reads -/

/-- Where an LBA's data lies on a live die: die, block, stripe, mode, piece; none where no die is read (R262, R15). -/
def State.pieceAt (s : State) (nsid lba : Nat) : Option (Nat × Nat × Nat × Bool × Nat) :=
  match s.mapEnt nsid lba with
  | some (.mapped gn u) =>
    (s.group? gn).bind fun g =>
      let x := s.unitPlace g u
      let m := g.members.getD (roleMember g.k x.1 x.2.1) (0, 0)
      if s.dieLive m.1 && (s.nand.at m.1 m.2 x.1 x.2.2).isSome then some (m.1, m.2, x.1, g.use.isSlc, x.2.2) else none
  | _ => none

/-- Pieces gathered into one read per program unit. -/
def gather : List (Nat × Nat × Nat × Bool × Nat) → List (Nat × Nat × Nat × Bool × List Nat) → List (Nat × Nat × Nat × Bool × List Nat)
  | [], acc => acc
  | (d, b, i, m, p) :: rest, acc =>
    let hit := acc.any fun y => y.1 == d && y.2.1 == b && y.2.2.1 == i
    gather rest (if hit then acc.map fun y => if y.1 == d && y.2.1 == b && y.2.2.1 == i then (d, b, i, m, y.2.2.2.2 ++ [p]) else y
      else acc ++ [(d, b, i, m, [p])])

/-- The map pages of a range of logical units. -/
def State.pagesOf (s : State) (nsid lba count : Nat) : List Nat := ((List.range count).map fun i => s.mapPageOf nsid (lba + i)).eraseDups

/-- A range of logical units needs a map page that DRAM has lost, and waits for its reload (R215). -/
def State.pageLost (s : State) (nsid lba count : Nat) : Bool :=
  !s.media.lostPages.isEmpty && (s.pagesOf nsid lba count).any s.media.lostPages.contains

/-- The map pages of a range are read from flash where they are not resident (R214): how many reads there are. -/
def State.needPages (s : State) (k : CmdKey) (nsid lba count : Nat) : Nat × State :=
  if !s.bit R.MEDIA.MEDIA_STATUS_MAP_PAGED then (0, s)
  else (s.pagesOf nsid lba count).foldl (fun (r : Nat × State) p => let q := r.2.needPage p (.cmd k); (r.1 + q.1, q.2)) (0, s)

/-- Queue the die reads of a range of LBAs for a command, of map pages and of data: how many there are. -/
def State.queueReads (s : State) (k : CmdKey) (nsid lba count : Nat) : Nat × State :=
  let r := s.needPages k nsid lba count
  let s := r.2
  let ops := gather ((List.range count).filterMap fun i => s.pieceAt nsid (lba + i)) []
  (r.1 + ops.length, ops.foldl (fun t o => t.queueOp o.1 ⟨.read, o.2.1, o.2.2.1, o.2.2.2.1, o.2.2.2.2, o.2.2.2.2, 0, .cmd k⟩) s)

/-- The data of one LBA of a block or take namespace under its key, which the command's die reads have brought in. A deallocated unit reads as zeroes or as it was before
(R251): a free value chooses. None: it cannot be read. -/
def State.readLba (s : State) (key : Bytes) (nsid lba : Nat) : Option Bytes × State :=
  if s.array.holes.contains (nsid, lba) then (none, s)
  else match s.mapEnt nsid lba with
    | some (.zeroes _) => (some zeroPiece, s)
    | some (.mapped g u) =>
      match s.readUnit g u with
      | (some ct, t) => (some (xtsCrypt false key lba ct), t)
      | (none, t) => (none, t)
    | none =>
      match assoc s.media.hints (nsid, lba) with
      | some (.mapped g u) =>
        let f := s.fresh
        if f.1 % 2 = 0 then (some zeroPiece, f.2)
        else match f.2.fetchUnit g u with
          | (some ct, t) => (some (xtsCrypt false key lba ct), t)
          | (none, t) => (some zeroPiece, t)
      | _ => (some zeroPiece, s)

/-- Several LBAs in order; none where one cannot be read. -/
def State.readLbas (key : Bytes) (nsid : Nat) : List Nat → State → Option Bytes × State
  | [], s => (some [], s)
  | l :: ls, s =>
    match s.readLba key nsid l with
    | (none, t) => (none, t)
    | (some b, t) =>
      match State.readLbas key nsid ls t with
      | (some bs, v) => (some (b ++ bs), v)
      | (none, v) => (none, v)

/-- The units of a range that need reconstruction from stripes still owed a resynchronisation have these run first (R278). -/
def State.aheadOf (s : State) (nsid lba count : Nat) : State :=
  if s.array.owed.isEmpty then s
  else (List.range count).foldl (fun t i => match t.mapEnt nsid (lba + i) with
    | some (.mapped g u) => t.resyncAhead g u
    | _ => t) s

/-- A unit of a range needs reconstruction from a stripe that is still owed a resynchronisation: its read waits until what that one moves
has been programmed elsewhere (R278). -/
def State.resyncFirst (s : State) (nsid lba count : Nat) : Bool :=
  !s.array.owed.isEmpty && (List.range count).any fun i => match s.mapEnt nsid (lba + i) with
    | some (.mapped gn u) => (match s.group? gn with
      | some g =>
        let x := s.unitPlace g u
        let m := g.members.getD (roleMember g.k x.1 x.2.1) (0, 0)
        (match g.stripes[x.1]? with
          | some st => st.pend && !st.buffered (roleMember g.k x.1 x.2.1) && (s.readPiece m.1 m.2 x.1 x.2.2).isNone
          | none => false)
      | none => false)
    | _ => false

/-- The plaintext of a range of LBAs of a namespace. -/
def State.readRange (s : State) (n : Ns) (lba count : Nat) : Option Bytes × State :=
  match s.mediaKey n.keyRec n.keySeq with
  | (none, t) => (none, t)
  | (some key, t) => State.readLbas key n.nsid ((List.range count).map (lba + ·)) (t.mediaBytes (4096 * count))

/-! ### Source ranges of a memory copy -/

/-- A source range of Memory Copy: namespace, first LBA, LBAs (R478; log entry 67). -/
def copyRanges (n : Nat) (bs : Bytes) : List (Nat × Nat × Nat) :=
  (List.range n).map fun i =>
    let e := sliceBytes bs (32 * i) 32
    (leNat (e.take 4), leNat (sliceBytes e 8 8), leNat (sliceBytes e 16 2) + 1)

/-- Bytes of source range entries of a Memory Copy command. -/
def State.copySources (s : State) (x : IoCmd) : List (Nat × Nat × Nat) :=
  let n := x.cdw12 % 256 + 1
  copyRanges n (s.fromHost x.fn x.dptr (32 * n))

/-- Read the sources of a Memory Copy in order. -/
def State.readSources (s : State) : List (Nat × Nat × Nat) → Option Bytes × State
  | [] => (some [], s)
  | (nsid, lba, count) :: rest =>
    match s.nsOf nsid with
    | none => (none, s)
    | some n =>
      match s.readRange n lba count with
      | (none, t) => (none, t)
      | (some b, t) =>
        match t.readSources rest with
        | (some bs, v) => (some (b ++ bs), v)
        | (none, v) => (none, v)

/-! ### Completion -/

/-- DRAM address of a byte of a memory namespace (R478). -/
def State.slmBase (s : State) (x : IoCmd) : Option (Nat × Nat) := (s.fn (x.nsid - 0x600)).map fun f => (f.dramBase, f.p.dram * 2 ^ 20)

/-- First byte a memory command names (log entry 67). -/
def slmByte (x : IoCmd) : Nat := x.cdw10 + x.cdw11 * 2 ^ 32

/-- The ranges of logical units that a reading command reads: namespace, first unit, units (R457, R478). -/
def State.readsOf (s : State) (x : IoCmd) : List (Nat × Nat × Nat) :=
  match s.ioNs x with
  | none => []
  | some n =>
    match n.kind with
    | .memory => s.copySources x
    | .compute => []
    | .block => [(x.nsid, ioLba x, ioNlb x)]
    | .take => [(x.nsid, ioLba x, ioNlb x)]

/-- Every die read of a command has ended: it transfers its data, compares or checks, and completes (R457, R461); not with a map page
that DRAM has lost (R215), not before the cipher has masks (R404), and not before a stripe that it needs for reconstruction has been
resynchronised (R278). Keys that an alarm has erased meanwhile end it (R428). -/
def State.finishIo (s : State) (k : CmdKey) : State :=
  match s.hcmd k with
  | none => s
  | some c =>
    match s.ioNs c.x with
    | none => s.completeCmd k Nv.badNs
    | some n =>
      if s.keys.kekMedia.isNone && !(s.readsOf c.x).isEmpty then s.completeCmd k Nv.keys
      else if s.readyPipes.isEmpty && !(s.readsOf c.x).isEmpty then s.mediaStall.modCmd k fun h => { h with left := 0 }
      else if (s.readsOf c.x).any fun r => s.pageLost r.1 r.2.1 r.2.2 then s.modCmd k fun h => { h with left := 0 }
      else
      let s := (s.readsOf c.x).foldl (fun t r => t.aheadOf r.1 r.2.1 r.2.2) s
      if (s.readsOf c.x).any fun r => s.resyncFirst r.1 r.2.1 r.2.2 then s.modCmd k fun h => { h with left := 0 }
      else match n.kind with
      | .memory =>
        match s.slmBase c.x with
        | none => s.completeCmd k Nv.badNs
        | some _ =>
          match s.readSources (s.copySources c.x) with
          | (none, t) => t.completeCmd k Nv.unrecovered
          | (some bs, t) => match t.xwrite k.fn (slmVa + slmByte c.x) bs with
            | .error x => (t.xlateFault k.fn x 0 true false true).completeCmd k Nv.dataError
            | .ok u => u.hostActive.completeCmd k Nv.ok
      | _ =>
        let count := ioNlb c.x
        match s.readRange n (ioLba c.x) count with
        | (none, t) => t.completeCmd k Nv.unrecovered
        | (some bs, t) =>
          if c.x.opcode = 5 then
            let t := t.hostActive
            if t.fromHost c.x.fn c.x.dptr (4096 * count) = bs then t.completeCmd k Nv.ok else t.completeCmd k Nv.compareFail
          else if c.x.opcode = 0x0C then t.completeCmd k Nv.ok
          else ((t.toHost c.x.fn c.x.dptr bs).hostActive).completeCmd k Nv.ok

/-- Reading commands whose die reads have ended, and that waited, go on. -/
def State.resumeReading (s : State) (p : HCmd → Bool) : State :=
  (s.host.cmds.filter fun c => c.phase == .running && c.left == 0 && c.x.opcode != 1 && c.x.opcode != 8 && !(s.readsOf c.x).isEmpty && p c).foldl
    (fun t c => t.finishIo ⟨c.x.fn, c.x.sq, c.x.cid⟩) s

/-- One die read of a command has ended. -/
def State.readEnded (s : State) (k : CmdKey) : State :=
  match s.hcmd k with
  | none => s
  | some c => if 1 < c.left then s.modCmd k fun h => { h with left := h.left - 1 } else s.finishIo k

/-- Start the die reads of a command over LBA ranges; with none to make, it goes on at once. -/
def State.startReads (s : State) (k : CmdKey) (ranges : List (Nat × Nat × Nat)) : State :=
  let r := ranges.foldl (fun (p : Nat × State) x => let q := p.2.queueReads k x.1 x.2.1 x.2.2; (p.1 + q.1, q.2)) (0, s)
  let t := r.2.modCmd k fun h => { h with left := r.1, phase := .running }
  if r.1 = 0 then t.finishIo k else t

/-- Operations that failed with their die go on without it: reads complete by reconstruction (R200, R262). -/
def State.endOps (s : State) (ops : List DieOp) : State :=
  ops.foldl (fun t o => match o.use with | .cmd k => if o.kind = .read then t.readEnded k else t | _ => t) s

end Sys2Proof.Machine
end

