-- ==== Sys2Proof/Machine/Cipher.lean ====
section
/-!
DEFINITION. Cipher jobs: XTS data units and GCM messages on contexts (R409-R416), and their completion (R415).
-/

namespace Sys2Proof.Machine

/-! ### Descriptors -/

/-- KEY_SLOT (R409): its reserved bits are ignored (R9). -/
def descKey (d : Bytes) : Nat := descN d 2 2 % 1024

/-- CONTEXT of a GCM job (R409). -/
def descCtx (d : Bytes) : Nat := descN d 4 2 % 1024

/-- COMPLETION is legal in both forms of a descriptor (R409); reserved fields are ignored (R9). -/
def cipherShared (d : Bytes) : Bool := descN d 56 8 % 32 == 0

/-- An XTS descriptor is legal, its UNIT_LEN aside (R409). -/
def xtsDescOk (d : Bytes) : Bool :=
  cipherShared d && descN d 1 1 == 3 && descN d 4 2 == 0 && descN d 6 1 == 0 && decide (1 ≤ descN d 32 5)

/-- DECLARED_LEN of a FIRST job (R409). -/
def gcmDeclared (d : Bytes) : Nat := descN d 37 3 + descN d 40 2 * 2 ^ 24

/-- A GCM descriptor is legal (R409, R411). -/
def gcmDescOk (d : Bytes) : Bool :=
  let fl := descN d 1 1
  let first := bitAt fl 0
  let final := bitAt fl 1
  let tag := descN d 6 1
  cipherShared d
    && (if final then decide (12 ≤ tag) && decide (tag ≤ 16) else tag == 0 && descN d 32 5 % 16 == 0)
    && (if first then decide (descN d 12 4 ≤ 65536) && decide (gcmDeclared d ≤ 2 ^ 36 - 32) else descN d 12 4 == 0 && gcmDeclared d == 0)

/-- The completion record (R415). -/
def cipherRecord (tag status pipe out : Nat) (mac : Bytes) : Bytes :=
  leBytes 4 tag ++ leBytes 1 status ++ leBytes 1 pipe ++ [0, 0] ++ leBytes 8 out ++ padTo 16 mac

/-! ### Contexts -/

/-- The function a context slot belongs to: 0-63 to the system, others by grant (R417, R491). -/
def State.ctxOwner (s : State) (n : Nat) : Option Nat :=
  if n < 64 then some 0x1F0
  else (s.tenant.fns.find? fun f => decide (f.p.ctxBase ≤ n) && decide (n < f.p.ctxBase + f.p.ctxs)).map (·.p.func)

/-- The context belongs to the tag. -/
def State.ownsCtx (s : State) (func n : Nat) : Bool :=
  match s.ctxOwner n with
  | some f => f == func || (f == 0x1F0 && systemTag func)
  | none => false

/-- The open message of a context. -/
def State.ctxMsg (s : State) (n : Nat) : Option GcmCtx := s.keys.ctxs.find? (·.ctx == n)

/-- A context becomes free (R412). -/
def State.freeCtx (s : State) (n : Nat) : State := (s.setKeys fun k => { k with ctxs := k.ctxs.filter (·.ctx != n) }).showKeys

/-- Set the message of a context. -/
def State.setCtx (s : State) (c : GcmCtx) : State :=
  (s.setKeys fun k => { k with ctxs := k.ctxs.filter (·.ctx != c.ctx) ++ [c] }).showKeys

/-- A loaded key of the right type in a slot the tag owns (R416). -/
def State.cipherKey (s : State) (func slot : Nat) (xts : Bool) : Option KeySlot :=
  if s.ownsSlot func slot then (s.keySlot slot).bind fun k => if k.xts = xts then some k else none else none

/-! ### Running a job -/

/-- What a job did: STATUS, bytes written, tag. -/
abbrev CipherOut := Nat × Nat × Bytes × State

/-- The error of a cipher STATUS (R443). -/
def State.cipherErr (s : State) (st pipe func : Nat) : State :=
  let info := keyInfo pipe 0 func 0
  let len := fun (code : Nat) => ((s.bump R.CIPHER.LENGTH_ERRORS_COUNT).pulse 0x28 Ev.CIPHER.LENGTH_ERROR).record 0x28 code info func
  if st = 0x02 then s.record 0x28 E.CIPHER_BAD_DESCRIPTOR info func
  else if st = 0x06 then s.record 0x28 E.CIPHER_XLATE_FAULT info func
  else if st = 0x0A then s.record 0x28 E.CIPHER_CONTEXT_BUSY info func
  else if st = 0x0C then len E.CIPHER_LENGTH_SHORT
  else if st = 0x0D then len E.CIPHER_LENGTH_OVER
  else if st = 0x0E then len E.CIPHER_LENGTH_UNDER
  else if st = 0x0F then
    ((s.bump R.CIPHER.TAG_FAILS_COUNT).pulse 0x28 Ev.CIPHER.TAG_MISMATCH).record 0x28 E.CIPHER_TAG_MISMATCH info func
  else s

/-- XTS over the data units of a job, from data unit number `dun` (R410). -/
def xtsUnits (enc : Bool) (key : Bytes) (dun : Nat) (units : List Bytes) : Bytes :=
  (units.zipIdx.map fun u => xtsCrypt enc key ((dun + u.2) % 2 ^ 128) u.1).flatten

/-- An XTS job (R409, R410, R416). A translation fault writes nothing (log entry 43). -/
def State.xtsRun (s : State) (j : Job) (enc : Bool) : CipherOut :=
  let d := j.desc
  let u := descN d 12 4
  let n := descN d 32 5
  if !xtsDescOk d || decide (2 ^ 24 < u) then (0x02, 0, [], s)
  else if u < 16 then (0x0C, 0, [], s)
  else if n % u ≠ 0 then (0x02, 0, [], s)
  else match s.cipherKey j.func (descKey d) true with
    | none => (0x02, 0, [], s)
    | some k =>
      match s.xread j.func (descN d 16 8) n with
      | .error a => (0x06, 0, [], s.xlateFault j.func a 0 false false true)
      | .ok src =>
        match s.xwrite j.func (descN d 24 8) (xtsUnits enc k.key (descN d 40 16) (chunks u src)) with
        | .error a => (0x06, 0, [], s.xlateFault j.func a 0 true false true)
        | .ok t => (0x00, n, [], t.bump R.CIPHER.JOB_BYTES_BYTES n)

/-- The message a GCM job works on: its own with FIRST, else the open one (R411, R412). STATUS where there is none. -/
def State.gcmOpen (s : State) (j : Job) (enc : Bool) : Except Nat GcmCtx :=
  let d := j.desc
  let n := descCtx d
  let slot := descKey d
  if bitAt (descN d 1 1) 0 then
    if !s.ownsCtx j.func n || (s.ctxMsg n).isSome then .error 0x0A
    else .ok ⟨n, j.func, slot, enc, sliceBytes d 42 12, descN d 12 4, gcmDeclared d, [], [], []⟩
  else match s.ctxMsg n with
    | some c => if c.owner = j.func ∧ c.slot = slot ∧ c.enc = enc then .ok c else .error 0x02
    | none => .error 0x02

/-- A GCM segment with its message and key: the output, the tag, the state of the message (R411, R413, R414). -/
def State.gcmSegment (s : State) (j : Job) (c : GcmCtx) (key : Bytes) : CipherOut :=
  let d := j.desc
  let final := bitAt (descN d 1 1) 1
  let aadLen := descN d 12 4
  let n := descN d 32 5
  let tagLen := descN d 6 1
  let isOver := decide (c.len < c.inp.length + n)
  let isUnder := final && decide (c.inp.length + n < c.len)
  let check := final && !c.enc && !isOver && !isUnder
  let gone := fun (t : State) => t.freeCtx c.ctx
  match s.xread j.func (descN d 16 8) (aadLen + n + (if check then tagLen else 0)) with
  | .error a => (0x06, 0, [], gone (s.xlateFault j.func a 0 false false true))
  | .ok src =>
    let aad := c.aad ++ src.take aadLen
    let m := if isOver then c.len - c.inp.length else n
    let inp := c.inp ++ sliceBytes src aadLen m
    let all := gcmCrypt key c.iv inp
    let seg := all.drop c.inp.length
    let ct := if c.enc then all else inp
    let mac := gcmTag key c.iv aad ct
    let bad := check && (mac.take tagLen != sliceBytes src (aadLen + n) tagLen)
    let out := if bad then List.replicate m 0 else seg
    match s.xwrite j.func (descN d 24 8) out with
    | .error a => (0x06, 0, [], gone (s.xlateFault j.func a 0 true false true))
    | .ok t =>
      let t := t.bump R.CIPHER.JOB_BYTES_BYTES m
      if isOver then (0x0D, m, [], gone t)
      else if isUnder then (0x0E, m, [], gone t)
      else if bad then (0x0F, m, [], gone t)
      else if final then (0x00, m, if c.enc then mac.take tagLen else [], gone t)
      else (0x00, m, [], t.setCtx { c with aad := aad, inp := inp, out := c.out ++ out })

/-- A GCM job (R409, R411-R416). A failure of a job on its own open message frees the context. -/
def State.gcmRun (s : State) (j : Job) (enc : Bool) : CipherOut :=
  let d := j.desc
  let n := descCtx d
  let own := match s.ctxMsg n with | some c => c.owner == j.func && !bitAt (descN d 1 1) 0 | none => false
  let fail := fun (st : Nat) => ((st, 0, [], if own && st != 0x0A then s.freeCtx n else s) : CipherOut)
  if !gcmDescOk d then fail 0x02
  else match s.gcmOpen j enc with
    | .error st => fail st
    | .ok c => match s.cipherKey j.func (descKey d) false with
      | none => fail 0x02
      | some k => s.gcmSegment j c k.key

/-- A job must wait: an earlier one on its context is unfinished (R412). -/
def State.ctxWaits (s : State) (j : Job) : Bool :=
  let gcm := fun (d : Bytes) => descN d 0 1 == 3 || descN d 0 1 == 4
  gcm j.desc && s.jobs.finished.any fun x => x.job.engine == 3 && gcm x.job.desc && descCtx x.job.desc == descCtx j.desc

/-- The jobs in flight on a pipeline. -/
def State.pipeJobs (s : State) (p : Nat) : List Job :=
  (s.jobs.finished.filter fun d => d.job.engine == 3 && descN d.record 5 1 == p).map (·.job)

/-- Bytes queued on a pipeline (R406). -/
def State.pipeQueued (s : State) (p : Nat) : Nat := ((s.pipeJobs p).map fun j => descN j.desc 32 5).foldl (· + ·) 0

/-- Where a new job may go: the live pipelines with the fewest queued bytes among those that hold fewer than 64 messages (R406). -/
def State.pipesFor (s : State) : List Nat :=
  let l := (List.range 6).filter fun p => bitAt (s.get R.CIPHER.PIPES_LIVE) p && decide ((s.pipeJobs p).length < 64)
  l.filter fun p => l.all fun q => decide (s.pipeQueued p ≤ s.pipeQueued q)

/-- The front cipher job of a queue runs when it carries the operation, on the live pipeline with the fewest queued bytes; a free value
chooses among equal ones (R406; log entry 44). Without fresh masks that pipeline stalls, and the job waits (R404). -/
def State.cipherJob (s : State) (src : JobSrc) (op : Nat) : State :=
  match s.jobFor src 3 op 4 with
  | none => s
  | some j =>
    if s.ctxWaits j then s
    else match s.pipesFor with
      | [] => s
      | p0 :: ps =>
        let c := s.fresh
        let pipe := (p0 :: ps).getD (c.1 % (ps.length + 1)) p0
        if !s.keys.masks.contains pipe then c.2.maskStall pipe
        else
          let f := c.2.takeJob j.id
          let o := descN j.desc 0 1
          let r := if o = 1 ∨ o = 2 then f.xtsRun j (o == 1)
            else if o = 3 ∨ o = 4 then f.gcmRun j (o == 3) else (0x02, 0, [], f)
          (((r.2.2.2.cipherErr r.1 pipe j.func).drawMasks pipe (ceilDiv r.2.1 16))).finishJob
            ⟨j, r.1, descN j.desc 56 8, cipherRecord (descN j.desc 8 4) r.1 pipe r.2.1 r.2.2.1, 0⟩

/-! ### Commands -/

/-- XTS_ENCRYPT (R409, R410). -/
def execXtsEncrypt (src : JobSrc) (s : State) : Out := .next (s.cipherJob src 1)

/-- XTS_DECRYPT (R409, R410). -/
def execXtsDecrypt (src : JobSrc) (s : State) : Out := .next (s.cipherJob src 2)

/-- GCM_ENCRYPT (R411-R413). -/
def execGcmEncrypt (src : JobSrc) (s : State) : Out := .next (s.cipherJob src 3)

/-- GCM_DECRYPT (R411-R414). -/
def execGcmDecrypt (src : JobSrc) (s : State) : Out := .next (s.cipherJob src 4)

/-- CIPHER_JOB_COMPLETE: the oldest job that has run gets its record and done bit (R415, R324). -/
def execCipherJobComplete (s : State) : Out :=
  match s.doneJob 3 with
  | none => .next s
  | some d => .next ((s.dropDone d).endJob d 0 fun t a =>
      (t.xlateFault d.job.func a 0 true false true).record 0x28 E.CIPHER_XLATE_FAULT (keyInfo (descN d.record 5 1) 0 d.job.func 0)
        d.job.func)

end Sys2Proof.Machine
end

