-- ==== Sys2Proof/Machine/RegCheck.lean ====
section
/-!
DEFINITION. The check of every register access (R31-R48, R645): which page an origin reaches, the register's rows, the role they
name, the legal encodings, and the audit of writes that need a role (R593-R596). A block's own registers act through `regCmd`.
-/

namespace Sys2Proof.Machine

/-! ### Rows -/

/-- Rows of the common header (R37). -/
def hdrRows : List RegRow :=
  [⟨0x000, 0, 32, false, .ro, .none, false, false, 0, []⟩, ⟨0x004, 0, 32, false, .ro, .none, false, false, 0, []⟩,
   ⟨0x008, 0, 1, false, .rw, .inst, false, false, 1, []⟩, ⟨0x008, 1, 1, false, .wo, .inst, false, false, 0, []⟩,
   ⟨0x00C, 0, 32, false, .ro, .none, false, false, 0, []⟩, ⟨0x010, 0, 32, false, .ro, .none, false, false, 0, []⟩,
   ⟨0x014, 0, 32, false, .rw, .none, false, false, 0, []⟩, ⟨0x018, 0, 32, false, .rw1c, .none, false, false, 0, []⟩,
   ⟨0x01C, 0, 32, false, .ro, .none, false, false, 0, []⟩, ⟨0x020, 0, 31, false, .ro, .none, false, false, 0, []⟩,
   ⟨0x020, 31, 1, false, .rw1c, .none, false, false, 0, []⟩, ⟨0x024, 0, 32, false, .ro, .none, false, false, 0, []⟩,
   ⟨0x028, 0, 32, false, .ro, .none, false, false, 0, []⟩, ⟨0x02C, 0, 8, false, .rw, .instOrMaker, false, false, 0, []⟩,
   ⟨0x030, 0, 32, false, .ro, .none, false, false, 0, []⟩, ⟨0x034, 0, 32, false, .ro, .none, false, false, 0, []⟩,
   ⟨0x038, 0, 32, false, .ro, .none, false, false, 0, []⟩, ⟨0x03C, 0, 32, false, .ro, .none, false, false, 0, []⟩]

/-- Rows of a page. -/
def rowsOf (page : Nat) : List RegRow :=
  match kindOf page with
  | some k => hdrRows ++ k.rows
  | none => []

/-- The row belongs to the register at an offset: the high word of a pair is part of it. -/
def RegRow.covers (r : RegRow) (off : Nat) : Bool := r.off == off || (r.pair && r.off + 4 == off)

/-- Rows of the register at a 4-byte aligned offset. -/
def rowsAt (page off : Nat) : List RegRow := (rowsOf page).filter (·.covers off)

/-- The page defines the offset. -/
def defined (page off : Nat) : Bool := (rowsOf page).any (·.covers off)

/-- The offset is the low word of a 64-bit pair. -/
def pairLow (page off : Nat) : Bool := (rowsOf page).any fun r => r.pair && r.off == off

/-- The offset is the high word of a 64-bit pair. -/
def pairHigh (page off : Nat) : Bool := (rowsOf page).any fun r => r.pair && r.off + 4 == off

/-! ### Roles named -/

/-- Rank of a role requirement. -/
def RoleReq.rank : RoleReq → Nat
  | .none => 0 | .oper => 1 | .inst => 2 | .instOrMaker => 2

/-- The role that the fields of a register name: the highest, since a write carries every field (R42, R43). -/
def needOf (rows : List RegRow) : RoleReq := rows.foldl (fun m r => if m.rank < r.role.rank then r.role else m) .none

/-- Roles named by any RWL field of a page: bit 0 operator, bit 1 installer, bit 2 maker (R37). -/
def namedRoles (page : Nat) : Nat :=
  let rs := (rowsOf page).map (·.role)
  b2n (rs.contains .oper) + 2 * b2n (rs.contains .inst || rs.contains .instOrMaker) + 4 * b2n (rs.contains .instOrMaker)

/-! ### Reach -/

/-- A held boot serves only the DEV, PWR, OTP, FAULT and DRAM pages to PCIe (R570). A PCIe write of an indexed page that BAR2 does not
serve then ends as DEV_BAD_ADDRESS, which the spec does not say (DESIGN CHOICE, log entry 15). -/
def State.served (s : State) (page : Nat) : Bool :=
  s.pwr.held == .no || page == 0 || page == 2 || page == 5 || page == 8 || (decide (0xA0 ≤ page) && decide (page ≤ 0xA4))

/-- The origin is a VF. -/
def isVf : Origin → Bool
  | .pcie f => decide (1 ≤ f) && decide (f ≤ 0x100)
  | _ => false

/-- The function holds the page in one of its windows, or it is its own page 0 (R35, R36). A VF's command names the device page that
its window shows, not the BAR2 page 1-15 it goes through: the step from window k to WINDOW[k].PAGE is the sender's (DESIGN CHOICE,
log entry 15). -/
def State.vfSees (s : State) (f page : Nat) : Bool :=
  page == 0x1000 + f || s.tenant.fns.any fun x => x.p.func == f && x.p.windows.contains (some page)

/-- The origin reaches the page (R31-R36). -/
def State.reaches (s : State) (o : Origin) (page : Nat) : Bool :=
  (kindOf page).isSome && (match o with
    | .pcie f => if isVf o then s.vfSees f page else decide (page < 0x200) && s.served page
    | _ => decide (page < 0x200))

/-- The register pages have power and no reset holds them: never in FOLD (R545). -/
def State.powered (s : State) : Bool := s.get R.PWR.MODE_MODE != 0


/-! ### Refusals and audit -/

/-- An access is refused: the page records a common condition (R41, R49). -/
def State.refuseAccess (s : State) (o : Origin) (page off cond : Nat) : State :=
  { s with refusal := some (commonCode page cond) }.record page (commonCode page cond) (accessInfo o off) (originTag o)

/-- A block refuses a write by a condition of its own, with its ERR_INFO. -/
def State.refuseBlock (s : State) (o : Origin) (page code info : Nat) : State :=
  { s with refusal := some code }.record page code info (originTag o)

/-- Registers held separately for each origin: WIN_SEL, UADDR, FEED_SEL, FUNC_SEL, HIST_SEL, the ROLE exchange and CLAIM_STATUS
(R151, R376, R441, R504, R572, R602, R622). -/
def perOrigin (page off : Nat) : Bool :=
  match kindOf page with
  | some .trig => off == 0x088
  | some .cluster => off == 0x180
  | some .digest => off == 0x04C
  | some .tenant => off == 0x040
  | some .pwr => off == 0x06C
  | some .role => off == 0x040 || off == 0x044 || decide (0x080 ≤ off)
  | some .share => off == 0x064
  | _ => false

/-- The home of a field, as the origin reaches it. -/
def homeOf (o : Origin) (page : Nat) (r : RegRow) : Fld :=
  let f : Fld := ⟨page, r.off, r.lo, r.w⟩
  if perOrigin page r.off then f.of o else f

/-- The present value of a register, from its writable fields, as the origin reaches it. -/
def State.word (s : State) (o : Origin) (page off : Nat) : Nat :=
  ((rowsAt page off).filter (·.acc == .rw)).foldl (fun v r => v + s.get (homeOf o page r) * 2 ^ r.lo) 0

/-- PARAM of ACTIONs 0x0010 and 0x0011: page, offset, value written, previous value (R594; log entry 16). -/
def writeParam (page off v old : Nat) : Bytes := leBytes 4 page ++ leBytes 4 off ++ leBytes 8 v ++ leBytes 8 old

/-- A write to a register that names a role is audited before it acts (R594, R595), and counts as a role action (R592). -/
def State.auditWrite (s : State) (o : Origin) (page off v old result : Nat) : State :=
  (s.audit o (s.roleByte o) 0x0010 result (writeParam page off v old)).touch o

/-- A write refused for want of a role is audited (R594, R596). -/
def State.auditLocked (s : State) (o : Origin) (page off v old : Nat) : State :=
  s.auditCoalesced o (s.roleByte o) 0x0011 1 (writeParam page off v old) 24

/-- Forget the origin's pending low word on a page, as any other write there makes it (R47). -/
def State.dropLow (s : State) (o : Origin) (page : Nat) : State :=
  { s with lows := s.lows.filter fun x => !(x.origin == o && x.page == page) }

/-- A write to a page that the origin does not reach (R32, R36, R645). -/
def State.noPage (s : State) (o : Origin) (off : Nat) : State :=
  match o with
  | .pcie f =>
    if isVf o then (s.refuseAccess o (0x1000 + f) off 3).pulse (0x1000 + f) Ev.VF.BAD_ADDRESS else s.refuseAccess o 0 off 3
  | _ => s.refuseAccess o 0 off 3

/-! ### A register's command -/

/-- A write of a 32-bit register whose effect is a block's operation, checked in the order of R645: `locked` adds to what refuses it
with BLOCK_LOCKED, `legal` says that no field carries a reserved encoding, `busy` that the block's state refuses the write, `log`
how a write with a role is audited, given its RESULT, `deny` how a refusal is recorded, `act` what the write does. It discards the
origin's pending low word on the page (R47). -/
def State.regCmdBy (s : State) (o : Origin) (page off v : Nat) (locked legal busy : Bool) (log : State → Nat → State)
    (deny act : State → State) : State :=
  if !s.powered then s
  else if !s.reaches o page then s.noPage o off
  else
    let s := { s.dropLow o page with refusal := none }
    let need := needOf (rowsAt page off)
    if !s.meets o need || locked then
      (if need = .none then s else s.auditLocked o page off v (s.word o page off)).refuseAccess o page off 2
    else if !legal then s.refuseAccess o page off 1
    else
      let t := if need = .none then s else log s (b2n busy)
      if busy then deny t else act t

/-- A write of a register with the audit entry of ACTION 0x0010. -/
def State.regCmd (s : State) (o : Origin) (page off v : Nat) (legal busy : Bool) (deny act : State → State) : State :=
  s.regCmdBy o page off v false legal busy (fun t r => t.auditWrite o page off v (t.word o page off) r) deny act

end Sys2Proof.Machine
end

