-- ==== Sys2Proof/Machine/DigestBase.lean ====
section
/-!
DEFINITION. Digests: verdicts of the two comparators (R438), digest jobs (R435, R436), and the register-fed units 60-63
(R437, R441).
-/

namespace Sys2Proof.Machine

/-! ### Verdicts -/

/-- What a comparator puts out: 0xA5 for a match, 0x5A for a mismatch, with the bits a disturbance flips (R438). -/
def comparator (same : Bool) (flips : BitVec 8) : Nat := ((if same then 0xA5#8 else 0x5A#8) ^^^ flips).toNat

/-- The VERDICT word of the two outputs, 0 where they disagree (R438). -/
def verdictWord (a b : Nat) : Nat := if a = b then a + (255 - a) * 2 ^ 8 + b * 2 ^ 16 + (255 - b) * 2 ^ 24 else 0

/-- The VERDICT byte of a completion record (R438): 0x00 for every fault. -/
def verdictByte (a b : Nat) : Nat := if a = b ∧ (a = 0xA5 ∨ a = 0x5A) then a else 0

/-- The exact match that software may accept (R438). -/
def verdictAccepts (a b : Nat) : Bool := verdictWord a b == 0x5AA55AA5

/-- Count and record what a comparison found (R438, R441, R443). -/
def State.noteVerdict (s : State) (a b info func : Nat) : State :=
  if a ≠ b then
    ((s.bump R.DIGEST.VERDICT_FAULTS_COUNT).pulse 0x2A Ev.DIGEST.VERDICT_FAULT).record 0x2A E.DIGEST_VERDICT_FAULT info func
  else if a = 0x5A then
    ((s.bump R.DIGEST.MISMATCHES_COUNT).pulse 0x2A Ev.DIGEST.MISMATCH).record 0x2A E.DIGEST_MISMATCH info func
  else s

/-- ERR_INFO of a DIGEST condition (R443). -/
def digestInfo (unit func : Nat) : Nat := unit % 64 * 8 + func % 512 * 2 ^ 9

/-! ### Jobs -/

/-- FLAGS.PRIME of a digest descriptor (R436). -/
def descPrime (d : Bytes) : Bool := bitAt (descN d 2 1) 0

/-- A digest descriptor's fields are legal (R436); reserved ones are ignored (R9). -/
def digestDescOk (d : Bytes) : Bool :=
  let op := descN d 0 1
  (op == 1 || op == 2) && decide (descN d 1 1 ≤ 3) && decide (descN d 16 8 < 2 ^ 40)
    && (descPrime d || descN d 24 8 == 0) && (op == 2 || descN d 32 8 == 0)

/-- Block bytes of an algorithm (R435). -/
def digestBlock (alg : Nat) : Nat := if alg = 0 then 64 else 128

/-- A live unit that no take and no claimant holds; which one runs a job the spec leaves open (log entry 44). -/
def State.digestUnit (s : State) : Nat × State :=
  let l := (List.range 64).filter fun u => bitAt (s.get R.DIGEST.UNITS_LIVE_MASK) u && s.feeds.all (·.unit != u)
  let f := s.fresh
  (l.getD (f.1 % max 1 l.length) 0, f.2)

/-- The completion record (R436). -/
def digestRecord (tag status verdict unit consumed : Nat) : Bytes :=
  leBytes 4 tag ++ leBytes 1 status ++ leBytes 1 verdict ++ leBytes 1 unit ++ [0] ++ leBytes 8 consumed ++ List.replicate 16 0

/-- Run a digest job: its status, verdict byte and the bytes hashed. -/
def State.digestRun (s : State) (j : Job) (unit : Nat) (va vb : BitVec 8) : Nat × Nat × Nat × State :=
  let d := j.desc
  let n := descN d 16 8
  let info := digestInfo unit j.func
  let fault := fun (a : Nat) (wr : Bool) =>
    ((6, 0, 0, (s.xlateFault j.func a 0 wr false true).record 0x2A E.DIGEST_XLATE_FAULT info j.func) : Nat × Nat × Nat × State)
  if !digestDescOk d then (2, 0, 0, s.record 0x2A E.DIGEST_BAD_DESCRIPTOR info j.func)
  else
    let alg := descN d 1 1
    let pre := if descPrime d then s.xread j.func (descN d 24 8) (digestBlock alg) else .ok []
    match pre, s.xread j.func (descN d 8 8) n with
    | .error a, _ => fault a false
    | _, .error a => fault a false
    | .ok p, .ok m =>
      let h := digest (DigestAlg.ofCode alg) (p ++ m)
      let put := if descN d 40 8 = 0 then .ok s else s.xwrite j.func (descN d 40 8) h
      match put with
      | .error a => fault a true
      | .ok t =>
        if descN d 0 1 = 1 then (0, 0, n, t)
        else match t.xread j.func (descN d 32 8) h.length with
          | .error a => (6, 0, 0, (t.xlateFault j.func a 0 false false true).record 0x2A E.DIGEST_XLATE_FAULT info j.func)
          | .ok e =>
            let a := comparator (e == h) va
            let b := comparator (e == h) vb
            (0, verdictByte a b, n, t.noteVerdict a b info j.func)

/-- The front digest job of a queue runs, when it carries the operation. -/
def State.digestJob (s : State) (src : JobSrc) (op : Nat) (va vb : BitVec 8) : State :=
  match s.jobFor src 2 op 2 with
  | none => s
  | some j =>
    let u := (s.takeJob j.id).digestUnit
    let r := u.2.digestRun j u.1 va vb
    let t := match src with | .host _ => r.2.2.2.hostActive | .cluster _ => r.2.2.2
    t.finishJob ⟨j, r.1, descN j.desc 56 8, digestRecord (descN j.desc 4 4) r.1 r.2.1 u.1 r.2.2.1, 0⟩

/-! ### Register-fed units -/

/-- A field of a register that each unit has for itself (R441). -/
def Fld.ofUnit (f : Fld) (u : Nat) : Fld := { f with page := 0x2A + 0x10000 * (0x400 + u) }

/-- The unit an origin has selected. -/
def State.feedSel (s : State) (o : Origin) : Nat := s.get (R.DIGEST.FEED_SEL_UNIT.of o)

/-- The claimant of a unit and its message. -/
def State.feed (s : State) (u : Nat) : Option Feed := s.feeds.find? (·.unit == u)

/-- The origin's selected unit is one of 60-63; else a feed control is refused as a reserved encoding (R441). -/
def State.feedUnitOk (s : State) (o : Origin) : Bool := decide (60 ≤ s.feedSel o)

/-- Refusal of a unit another origin holds (R437). -/
def State.heldFeed (s : State) (o : Origin) : State :=
  s.refuseBlock o 0x2A E.DIGEST_HELD (digestInfo (s.feedSel o) (originFunc o))

/-- The selected unit cannot be claimed: another origin holds it, or it is retired (R437). -/
def State.feedHeld (s : State) (o : Origin) : Bool :=
  match s.feed (s.feedSel o) with
  | some f => decide (f.origin ≠ o)
  | none => !bitAt (s.get R.DIGEST.UNITS_LIVE_MASK) (s.feedSel o)

/-- FEED_CTRL.CLAIM (R437, R441). -/
def State.feedClaim (s : State) (o : Origin) : State :=
  let u := s.feedSel o
  if (s.feed u).isSome then s
  else ({ s with feeds := s.feeds ++ [(⟨u, o, []⟩ : Feed)] } : State).puts [(R.DIGEST.FEED_STATUS_STATE.ofUnit u, 1),
    (R.DIGEST.FEED_STATUS_HOLDER.ofUnit u, originFunc o), (R.DIGEST.FEED_STATUS_ORIGIN.ofUnit u, originCode o)]

/-- A unit becomes free. -/
def State.freeFeed (s : State) (u : Nat) : State :=
  ({ s with feeds := s.feeds.filter (·.unit != u) } : State).puts [(R.DIGEST.FEED_STATUS_STATE.ofUnit u, 0),
    (R.DIGEST.FEED_STATUS_HOLDER.ofUnit u, 0), (R.DIGEST.FEED_STATUS_ORIGIN.ofUnit u, 0)]

/-- The claimant's own message at its selected unit. -/
def State.ownFeed (s : State) (o : Origin) : Option Feed := (s.feed (s.feedSel o)).bind fun f => if f.origin = o then some f else none

/-- The selected unit is another origin's (R437). -/
def State.feedForeign (s : State) (o : Origin) : Bool := (s.feed (s.feedSel o)).isSome && (s.ownFeed o).isNone

/-- FEED_CTRL.RELEASE: the claimant only (R441). -/
def State.feedRelease (s : State) (o : Origin) : State :=
  match s.ownFeed o with
  | some f => s.freeFeed f.unit
  | none => s

/-- The bytes of a message. -/
def State.setFeed (s : State) (u : Nat) (m : Bytes) : State :=
  { s with feeds := s.feeds.map fun f => if f.unit == u then { f with msg := m } else f }

/-- FEED_CTRL.START: the claimant begins a message (R437). -/
def State.feedStart (s : State) (o : Origin) : State :=
  match s.ownFeed o with
  | some f => (s.setFeed f.unit []).put (R.DIGEST.FEED_STATUS_STATE.ofUnit f.unit) 2
  | none => s

/-- A write of FEED_CTRL: its plain fields, then what it commands. -/
def State.feedCtrl (s : State) (o : Origin) (v : Nat) : State :=
  let u := s.feedSel o
  let t := s.puts [(R.DIGEST.FEED_CTRL_ALG.ofUnit u, v / 8), (R.DIGEST.FEED_CTRL_COMPARE.ofUnit u, v / 32)]
  let t := if bitAt v 0 then t.feedClaim o else t
  let t := if bitAt v 2 then t.feedStart o else t
  if bitAt v 1 then t.feedRelease o else t

/-- What refuses a write of FEED_CTRL for the holder's sake: a claim of a held unit, or a control of another's (R437). -/
def State.feedBusy (s : State) (o : Origin) (v : Nat) : Bool :=
  bitAt v 0 && s.feedHeld o || (bitAt v 1 || bitAt v 2) && s.feedForeign o

/-- The claimant's message while its unit hashes. -/
def State.hashing (s : State) (o : Origin) : Option Feed :=
  (s.ownFeed o).bind fun f => if s.get (R.DIGEST.FEED_STATUS_STATE.ofUnit f.unit) = 2 then some f else none

/-- FEED_WORD: 8 message bytes, byte 0 in bits [7:0] (R437). -/
def State.feedWord (s : State) (o : Origin) (w : Nat) : State :=
  match s.hashing o with
  | some f => s.setFeed f.unit (f.msg ++ leBytes 8 w)
  | none => s

/-- EXPECT of a unit. -/
def State.feedExpect (s : State) (u n : Nat) : Bytes :=
  ((List.range 16).flatMap fun i => leBytes 4 (s.get ((R.DIGEST.EXPECT_BYTES i).ofUnit u))).take n

/-- LAST_WORD: the message ends with its low LAST_COUNT bytes; RESULT, and VERDICT where COMPARE is set (R437, R438). -/
def State.feedLast (s : State) (o : Origin) (w : Nat) (va vb : BitVec 8) : State :=
  match s.hashing o with
  | none => s
  | some f =>
    let u := f.unit
    let m := f.msg ++ (leBytes 8 w).take (s.get (R.DIGEST.LAST_COUNT_COUNT.ofUnit u))
    let h := digest (DigestAlg.ofCode (s.get (R.DIGEST.FEED_CTRL_ALG.ofUnit u))) m
    let t := (List.range 16).foldl (fun t i => t.put ((R.DIGEST.RESULT_BYTES i).ofUnit u) (leNat (sliceBytes h (4 * i) 4))) (s.setFeed u m)
    let t := (t.put (R.DIGEST.FEED_STATUS_STATE.ofUnit u) 3).pulse 0x2A Ev.DIGEST.FEED_DONE
    if t.get (R.DIGEST.FEED_CTRL_COMPARE.ofUnit u) = 0 then t
    else
      let same := t.feedExpect u h.length == h
      let a := comparator same va
      let b := comparator same vb
      (t.put (R.DIGEST.VERDICT_VERDICT.ofUnit u) (verdictWord a b)).noteVerdict a b (digestInfo u (originFunc o))
        (originTag o)

/-- The units an origin holds are released, at a reset of its function (R436). -/
def State.releaseFeeds (s : State) (o : Origin) : State :=
  (s.feeds.filter (·.origin == o)).foldl (fun t f => t.freeFeed f.unit) s

end Sys2Proof.Machine
end

