-- ==== Sys2Proof/Machine/TenantBase.lean ====
section
/-!
DEFINITION. Functions: the pools and profiles (R488-R492), creation and removal of a function, XLATE entries of its memory range
sets (R478, R497, R498), and the reset of a function (R500-R503).
-/

namespace Sys2Proof.Machine

/-- Change the tenants. -/
def State.setTenant (s : State) (f : TenantSt → TenantSt) : State := { s with tenant := f s.tenant }

/-! ### Pools -/

/-- What a function holds without a profile: a PF 64 queue pairs and SHEARS_WEIGHT 16, a VF one pair and weight 1 (R491). -/
def defaultProf (func : Nat) : Prof :=
  if isPf func then ⟨func, false, 64, 16, 0, 0, 0, 0, 0, 0, 0, 0, 0, 0, [], []⟩
  else ⟨func, false, 1, 1, 0, 0, 0, 0, 0, 0, 0, 0, 0, 0, [], []⟩

/-- A function's profile. -/
def State.profOf (s : State) (func : Nat) : Option Prof := s.tenant.profs.find? (·.func == func)

/-- Everything reserved for a function: its profile, what it was granted, and the default of a PF with neither (log entry 70). -/
def State.claims (s : State) (func : Nat) : List Prof :=
  let l := (s.profOf func).toList ++ ((s.fn func).map (·.p)).toList
  if l.isEmpty ∧ isPf func then [defaultProf func] else l

/-- Functions with a claim. -/
def State.claimants (s : State) : List Nat :=
  let a : List Nat := s.tenant.profs.map (·.func)
  let b : List Nat := s.tenant.fns.map (·.p.func)
  ([0, 0x101] ++ a ++ b).eraseDups

/-- Units of a counted resource reserved for functions other than `but`: the larger of profile and grant for each. -/
def State.reserved (s : State) (but : Option Nat) (g : Prof → Nat) : Nat :=
  ((s.claimants.filter fun f => some f != but).map fun f => ((s.claims f).map g).foldl max 0).foldl (· + ·) 0

/-- A mask reserved for functions other than `but`. -/
def State.reservedMask (s : State) (but : Option Nat) (g : Prof → Nat) : Nat :=
  ((s.claimants.filter fun f => some f != but).flatMap s.claims).foldl (fun v p => v ||| g p) 0

/-- Ranges reserved for functions other than `but`. -/
def State.reservedRanges (s : State) (but : Option Nat) (g : Prof → Nat × Nat) : List (Nat × Nat) :=
  (((s.claimants.filter fun f => some f != but).flatMap s.claims).map g).filter fun r => r.2 != 0

/-- The lowest free range of `n` places in [lo, hi) (R490); 0 for an empty one. -/
def lowestRange (used : List (Nat × Nat)) (lo hi n : Nat) : Option Nat :=
  if n = 0 then some 0
  else
    let ok := fun b => decide (lo ≤ b) && decide (b + n ≤ hi) && used.all fun r => decide (b + n ≤ r.1) || decide (r.1 + r.2 ≤ b)
    let c := (lo :: used.map fun r => r.1 + r.2).filter ok
    match c with
    | [] => none
    | b :: bs => some (bs.foldl min b)

/-- Grantable user cores: those not retired (R488). -/
def State.coresGrantable (s : State) : Nat :=
  (List.range 64).foldl (fun v i =>
    match s.cores.toList[8 + i]? with
    | some k => if k.state = .retired then v else v + 2 ^ i
    | none => v) 0

/-- Grantable banks: neither of the frame index nor retired (R488). -/
def State.banksGrantable (s : State) : Nat :=
  (List.range 32).foldl (fun v b => if s.ear.index.contains b || s.bankRetired b then v else v + 2 ^ b) 0

/-- A mask lies within another. -/
def maskIn (a b : Nat) : Bool := a &&& b == a

/-! ### Profiles -/

/-- The windows of 15 entries of a profile's bytes (R489). -/
def profWindows (d : Bytes) : List (Option Nat) :=
  (List.range 15).map fun i => let w := descN d (40 + 2 * i) 2; if bitAt w 15 then some (w % 512) else none

/-- A profile's bytes, ranges not yet chosen (R489). -/
def profOfBytes (d : Bytes) : Prof :=
  { func := descN d 0 2, takes := bitAt (descN d 2 2) 0, pairs := descN d 4 2, weight := descN d 6 1, cores := descN d 8 8,
    banks := descN d 16 4, keyBase := 0, keys := descN d 20 2, ctxBase := 0, ctxs := descN d 22 2, dram := descN d 24 4,
    share := descN d 28 2, bitBase := 0, bits := descN d 32 4,
    nsids := (List.range (descN d 36 1)).map fun i => descN d (128 + 4 * i) 4, windows := profWindows d }

/-- A window of a profile names a page of its own cores or banks (R490). -/
def Prof.windowOk (p : Prof) (page : Nat) : Bool :=
  (decide (0x108 ≤ page) && decide (page < 0x148) && bitAt p.cores (page - 0x108))
    || (decide (0x40 ≤ page) && decide (page < 0x60) && bitAt p.banks (page - 0x40))

/-- A profile's fields are legal (R489, R490). -/
def State.profLegal (s : State) (func : Nat) (d : Bytes) : Bool :=
  let p := profOfBytes d
  d.length == 256 && decide (func ≤ 0x101) && p.func == func && decide (descN d 2 2 ≤ 1)
    && decide (1 ≤ p.pairs) && decide (p.pairs ≤ if isPf func then 2048 else 1024) && decide (1 ≤ p.weight) && descN d 7 1 == 0
    && decide (p.keys ≤ 896) && decide (p.ctxs ≤ 960) && p.dram % 64 == 0 && decide (p.share ≤ 1000) && descN d 30 2 == 0
    && p.bits % 4096 == 0 && decide (p.bits ≤ 1048576) && decide (descN d 36 1 ≤ 32) && descN d 37 3 == 0
    && ((List.range 15).all fun i => descN d (40 + 2 * i) 2 / 512 % 64 == 0)
    && p.windows.all (fun w => match w with | some g => p.windowOk g | none => true)
    && ((d.drop 70).take 58).all (· == 0) && ((d.drop (128 + 4 * descN d 36 1)).all (· == 0))
    && p.nsids.all fun n => s.ns.any fun x => x.nsid == n && (x.kind == .block || x.kind == .take)

/-- The profile with its ranges, where every pool suffices (R488, R490); none where one is short or a core or bank is held. -/
def State.fitProf (s : State) (p : Prof) : Option Prof :=
  let b := some p.func
  let fits := decide (s.reserved b (·.pairs) + p.pairs ≤ 4096) && decide (s.reserved b (·.weight) + p.weight ≤ 4096)
    && decide (s.reserved b (·.share) + p.share ≤ 1000) && decide (s.reserved b (·.dram) + p.dram ≤ s.get R.TENANT.DRAM_POOL_MIB)
    && maskIn p.cores s.coresGrantable && p.cores &&& s.reservedMask b (·.cores) == 0
    && maskIn p.banks s.banksGrantable && p.banks &&& s.reservedMask b (·.banks) == 0
  if !fits then none
  else match lowestRange (s.reservedRanges b fun q => (q.keyBase, q.keys)) 128 1024 p.keys,
      lowestRange (s.reservedRanges b fun q => (q.ctxBase, q.ctxs)) 64 1024 p.ctxs,
      lowestRange (s.reservedRanges b fun q => (q.bitBase, q.bits)) 0 4194304 p.bits with
    | some k, some c, some w => some { p with keyBase := k, ctxBase := c, bitBase := w }
    | _, _, _ => none

/-! ### XLATE entries of a function (R497) -/

/-- The pages that cover [o, o + n) whole: 2 MiB where they fit, else 4 KiB. The fuel bounds their number. -/
def slmPages : Nat → Nat → Nat → List (Nat × Nat)
  | 0, _, _ => []
  | f + 1, o, n =>
    if n < 4096 then []
    else if o % 2 ^ 21 = 0 ∧ 2 ^ 21 ≤ n then (o, 1) :: slmPages f (o + 2 ^ 21) (n - 2 ^ 21)
    else (o, 0) :: slmPages f (o + 4096) (n - 4096)

/-- An entry of a memory namespace. -/
def Fn.slmEnt (f : Fn) (p : Nat × Nat) : XEnt := ⟨f.p.func, slmVa + p.1, p.2, true, true, false, .dram, f.dramBase + p.1⟩

/-- A 2 MiB entry as 512 small ones. -/
def XEnt.split (e : XEnt) : List XEnt :=
  if e.size = 1 then (List.range 512).map fun i => { e with size := 0, va := e.va + 4096 * i, pa := e.pa + 4096 * i } else [e]

/-- The entry meets a range of virtual addresses. -/
def XEnt.meets (e : XEnt) (va n : Nat) : Bool := decide (e.va < va + n) && decide (va < e.va + e.bytes)

/-- The pages of a code section are mapped R and X and lose W (R328, R497). -/
def mapCode (func va n : Nat) (t : List XEnt) : List XEnt :=
  t.flatMap fun e =>
    if e.func = func ∧ n ≠ 0 ∧ e.meets va n then e.split.map fun x => if x.meets va n then { x with x := true, w := false } else x else [e]

/-- Add the pages of a range that no entry covers yet. -/
def addRange (f : Fn) (t : List XEnt) (r : MemRange) : List XEnt :=
  let ps := (slmPages (r.len / 4096 + 1) r.start r.len).filter fun p =>
    t.all fun e => !(e.func == f.p.func && e.meets (slmVa + p.1) (4096 * 512 ^ p.2))
  t ++ ps.map f.slmEnt

/-- Code sections of an image: target and length (R327). -/
def codeSections (img : Bytes) : List (Nat × Nat) :=
  (List.range (descN img 12 2)).filterMap fun i =>
    let e := 256 + 32 * i
    if descN img e 1 = 1 then some (descN img (e + 8) 8, descN img (e + 4) 4) else none

/-- The entries of a function: its active ranges, with the code of the programs it has loaded (R497). -/
def State.fnEntries (s : State) (f : Fn) : List XEnt :=
  let t := (f.ranges.flatMap (·.2)).foldl (addRange f) []
  ((s.host.progs.filter (·.fn == f.p.func)).flatMap fun p => codeSections p.image).foldl (fun t c => mapCode f.p.func c.1 c.2 t) t

/-- Every micro-TLB drops its entries of a function (R302, R498). Its longest time is left open (log entry 73). -/
def State.invalidate (s : State) (func : Nat) : State :=
  let t := (List.range 72).foldl (fun t c => t.modCore c fun k => { k with utlb := k.utlb.filter (·.func != func) }) s
  let f := t.fresh
  (f.2.bump R.XLATE.INVALIDATIONS_COUNT).put R.XLATE.INVAL_MAX_NS_NS (max (s.get R.XLATE.INVAL_MAX_NS_NS) (f.1 % 2001))

/-- ENTRIES follows the table. -/
def State.showXlate (s : State) : State := s.put R.XLATE.ENTRIES_USED s.xlate.length

/-- Map a function's memory range sets again; entries that go or shrink are invalidated (R478, R498). None where the table has
no room (R506). -/
def State.remap (s : State) (f : Fn) : Option State :=
  let es := s.fnEntries f
  let others := s.xlate.filter (·.func != f.p.func)
  if 1048576 < others.length + es.length then none
  else
    let old := s.xlate.filter (·.func == f.p.func)
    let t := { s with xlate := others ++ es }
    some (if old.all es.contains then t else t.invalidate f.p.func).showXlate

/-- Every entry of a function goes (R498). -/
def State.unmapFn (s : State) (func : Nat) : State := ({ s with xlate := s.xlate.filter (·.func != func) }.invalidate func).showXlate

/-! ### Queues of a controller -/

/-- QUEUE_PAIRS.CREATED (R484). -/
def State.countQueues (s : State) : State := s.put R.HOSTQ.QUEUE_PAIRS_CREATED s.host.sqs.length

/-- The admin queue pair of a controller (R455; log entry 74). -/
def State.addAdmin (s : State) (func : Nat) : State :=
  (s.setHost fun h => { h with sqs := h.sqs ++ [⟨func, 0, 4096, 0, 0, 0, none, s.nextGidx⟩], cqs := h.cqs ++ [⟨func, 0, 4096, 0, true, 0, 0⟩] }).countQueues

/-- Queues, commands and pending events of a controller go; commands post no completion, and their locks are released
(R500, R502). A write keeps its lock until its data is programmed. -/
def State.dropQueues (s : State) (func : Nat) : State :=
  let t := s.setHost fun h =>
    { h with sqs := h.sqs.filter (·.fn != func), cqs := h.cqs.filter (·.fn != func), cqes := h.cqes.filter (·.fn != func),
             cmds := h.cmds.filter (·.x.fn != func), waiting := h.waiting.filter (·.1.fn != func), aers := h.aers.filter (·.fn != func),
             events := h.events.filter (·.fn != func), masked := h.masked.filter (·.1 != func),
             features := h.features.filter (·.1.1 != func), changed := h.changed.filter (·.1 != func), frozenSeen := h.frozenSeen.filter (· != func),
             aborts := h.aborts.filter (·.fn != func) }
  t.relock.countFrozen.countQueues

/-! ### Creation and removal -/

/-- The banks of a mask get an owner. -/
def State.ownBanks (s : State) (mask owner : Nat) : State :=
  (List.range 32).foldl (fun t b => if bitAt mask b then t.put (R.BANK.BANK_OWNER_FUNC b) owner else t) s

/-- The user cores of a mask. -/
def coresOf (mask : Nat) : List Nat := ((List.range 64).filter (bitAt mask)).map (8 + ·)

/-- Default windows: the granted core pages, then the granted bank pages, up to 15 (R499). -/
def Prof.defaultWindows (p : Prof) : List (Option Nat) :=
  (((coresOf p.cores).map (0x100 + ·) ++ ((List.range 32).filter (bitAt p.banks)).map (0x40 + ·)).take 15).map some

/-- Withdrawn and retired resources leave a grant (R495). -/
def State.liveGrant (s : State) (p : Prof) : Prof :=
  { p with cores := p.cores &&& s.coresGrantable, banks := p.banks &&& s.banksGrantable }

/-- The lowest DRAM address for a quota, above those of the functions (log entry 71). -/
def State.slmPlace (s : State) (mib : Nat) : Nat :=
  (lowestRange (s.tenant.fns.map fun f => (f.dramBase, f.p.dram * 2 ^ 20)) 0 (2 ^ 60) (mib * 2 ^ 20)).getD 0

/-- The namespaces of a profile are attached to its function. -/
def State.attachAll (s : State) (p : Prof) : State :=
  p.nsids.foldl (fun t n => t.modNs n fun x => { x with attached := if x.attached.contains p.func then x.attached else x.attached ++ [p.func] }) s

/-- A function receives its grants, its namespaces, an admin queue and the next GEN (R491). -/
def State.createFn (s : State) (func : Nat) : State :=
  let p := s.liveGrant ((s.profOf func).getD (defaultProf func))
  let p := if p.windows.all (·.isNone) then { p with windows := p.defaultWindows } else p
  let gen := s.genOf func + 1
  let f : Fn := ⟨p, gen, s.slmPlace p.dram, []⟩
  let t := s.setTenant fun x => { x with fns := x.fns ++ [f], gens := assocSet x.gens func gen }
  let t := (coresOf p.cores).foldl (fun t c => t.turnCore c fun k => { Core.off with state := .stopped, func := BitVec.ofNat 9 func }.keeping k) t
  let t := (t.ownBanks p.banks func).unput fun x => x.page != 0x1000 + func
  let ns := fun (id : Nat) (k : NsKind) (n : Nat) => (⟨id, k, n, 0, [func], 0, 0, none, []⟩ : Ns)
  let t := { t with ns := t.ns ++ [ns (0x400 + func) .compute 0, ns (0x600 + func) .memory (p.dram * 2 ^ 20)] }
  (t.attachAll p).addAdmin func

/-- Functions can hold grants: the device is up, and the boot has its kept microcode and its frame index in place (R375, R398, R571). -/
def State.mayGrant (s : State) : Bool := s.mode != 0 && (s.pwr.bootPhase == 0 || decide (5 < s.pwr.bootPhase))

/-- A function's grants go back to its profile (R492). -/
def State.removeFn (s : State) (func : Nat) : State :=
  match s.fn func with
  | none => s
  | some f =>
    let t := (s.dropQueues func).unmapFn func
    let t := t.setTenant fun x => { x with fns := x.fns.filter (·.p.func != func) }
    let t := (coresOf f.p.cores).foldl (fun t c => t.modCore c fun k => if k.state = .retired then { k with func := 0x1F0 } else Core.off.keeping k) t
    let t := t.ownBanks f.p.banks 0x1F0
    let ns : List Ns := t.ns.filter fun n => n.nsid != 0x400 + func && n.nsid != 0x600 + func
    let t := { t with ns := ns.map fun (n : Ns) => { n with attached := n.attached.filter (· != func) } }
    let t := t.setHost fun h => { h with progs := h.progs.filter (·.fn != func) }
    t.setKeys fun k => { k with kekFunc := k.kekFunc.filter (·.1 != func) }

/-! ### Reset of a function -/

/-- An aborted job leaves its destination undefined (R180): what its output would have filled takes free bytes (log entry 54). -/
def State.abortOutput (s : State) (d : JobDone) : State :=
  let n := if d.status = 0 then leNat (sliceBytes d.record 8 8) else 0
  let x := d.job.desc
  let spans := cutSpans n ((descN x 32 8, descN x 40 8) :: chainAll s d.job.func (descN x 48 8) (descN x 10 2) 0)
  let f := s.freshBytes n
  writePages d.job.func spans f.1 f.2

/-- A lane's work that belongs to a function stops (R180). -/
def State.abortLane (s : State) (func l : Nat) : State :=
  let mine := fun (w : LaneWork) => match w with | .job d => d.job.func == func | _ => false
  let gone := ((s.lane l).work :: (s.lane l).held).filterMap fun w => match w with
    | .job d => if d.job.func == func then some d else none
    | _ => none
  let t := s.modLane l fun y => { y with held := y.held.filter fun w => !mine w }
  let t := if mine (t.lane l).work then t.resumeLane l else t
  gone.foldl (fun t d => (t.abortOutput d).record (lanePage l) E.SHEARS_ABORTED (shearsInfo l func 5) func) t

/-- The function's engine jobs stop: no completion record, no done bit (R180, R396, R416, R421, R436). -/
def State.abortJobs (s : State) (func : Nat) : State :=
  let ciphers := (s.jobs.finished.filter fun d => d.job.engine == 3 && d.job.func == func).map fun d => descN d.record 5 1
  let queued := s.jobs.queue.filter fun j => j.engine == 3 && j.func == func
  let tables := ((s.jobs.queue.filter fun j => j.engine == 1 && j.func == func)
    ++ ((s.jobs.finished.map (·.job)).filter fun j => j.engine == 1 && j.func == func))
  let t := (List.range 12).foldl (fun t l => t.abortLane func l) s
  let waiting := t.jobs.queue.filter fun j => j.engine == 0 && j.func == func
  let parked := t.jobs.parked.filter (·.job.func == func)
  let t := parked.foldl State.abortOutput t
  let t := (waiting ++ parked.map (·.job)).foldl (fun t _ => t.record 0x24 E.SHEARS_ABORTED (shearsInfo 0 func 5) func) t
  let t := tables.foldl (fun (t : State) j => (t.endRun j.id).record 0x30 E.EARMARK_ABORTED (earInfo (descN j.desc 2 1) 0 func) func) t
  let t := t.setJobs fun j => { j with queue := j.queue.filter (·.func != func), finished := j.finished.filter (·.job.func != func),
                                       parked := j.parked.filter (·.job.func != func) }
  let t := t.closeKeyJobs func
  let t := (ciphers ++ queued.map fun _ => 0).foldl (fun (t : State) p => t.record 0x28 E.CIPHER_ABORTED (keyInfo p 0 func 0) func) t
  ((t.releaseFeeds (.pcie func)).showKeys).dispatchSlices

/-- Every bank a function owns is invalidated, and those withdrawn from it, and their BANK_CFG is at its reset value (R396, R503). -/
def State.dropBanks (s : State) (func : Nat) : State :=
  let own := match s.fn func with | some f => f.p.banks | none => 0
  ((List.range 32).filter fun b => bitAt own b || bitAt (s.get (R.VF.WITHDRAWN_BANKS_MASK func)) b).foldl
    (fun t b => (t.clearBank b).defaultBank b) s

/-- A function reset starts, or merges with one that runs: Stop, Abort, Park and Invalidate (R500, R502, R503). -/
def State.startReset (s : State) (func : Nat) : State :=
  if (s.fn func).isNone ∨ s.isResetting func then s
  else
    let t := s.setTenant fun x => { x with resetting := x.resetting ++ [(func, s.time)] }
    let t := (t.abortJobs func).dropQueues func
    let t := t.dropBanks func
    let mask := match s.fn func with | some f => f.p.cores | none => 0
    let t := (List.finRange 72).foldl (fun t c => if decide (8 ≤ c.val) && bitAt mask (c.val - 8) then t.parkCore c .reset else t) t
    (t.unmapFn func).endRolesOf (.pcie func) .functionReset

/-- A core after a function reset: its contents are zero, it waits for a program, and a microcode load keeps it parked
(R374, R501, R503). -/
def Core.zeroised (k : Core) : Core :=
  let ps := k.parkers.filter (· ≠ .reset)
  ({ Core.off with state := if k.state = .retired then .retired else if ps.isEmpty then .stopped else .parked, func := k.func,
                   parkers := ps, since := k.since } : Core).keeping k

/-- Zeroisation (R501): slots, contexts, KEK_FUNC, cores, banks with their configuration, the window of common bits, range sets
and what the DRAM quota held. -/
def State.zeroise (s : State) (f : Fn) : State :=
  let p := f.p
  let keyIn := fun (n : Nat) => decide (p.keyBase ≤ n) && decide (n < p.keyBase + p.keys)
  let ctxIn := fun (n : Nat) => decide (p.ctxBase ≤ n) && decide (n < p.ctxBase + p.ctxs)
  let t := (s.setKeys fun k => { k with slots := k.slots.filter fun x => !keyIn x.slot, ctxs := k.ctxs.filter fun x => !ctxIn x.ctx,
                                        kekFunc := k.kekFunc.filter (·.1 != p.func) }).showKeys
  let t := (coresOf p.cores).foldl (fun t c => t.turnCore c Core.zeroised) t
  let t := ((List.range 32).filter (bitAt p.banks)).foldl (fun t b =>
    (t.wipeBank b).defaultBank b) t
  let t := t.setHost fun h => { h with progs := h.progs.filter (·.fn != p.func), secOut := h.secOut.filter (·.1 != p.func) }
  let t := t.modFn p.func fun g => { g with ranges := [] }
  let bits := List.range (p.bits / 8)
  let m := if bits.isEmpty then t.mem.common else memZero t.mem.common (p.bitBase / 8) (p.bits / 8)
  { t with mem := { t.mem with common := m, dram := memZero t.mem.dram f.dramBase (p.dram * 2 ^ 20) } }

/-- The function stays enabled: a PF, or a VF within NumVFs (R491, R492). -/
def State.staysEnabled (s : State) (func : Nat) : Bool := isPf func || decide (func ≤ s.get R.TENANT.VFS_ENABLED)

/-- A function reset ends: zeroisation is complete; a PF takes a new profile, a disabled VF is removed (R491, R492, R500, R503). -/
def State.endReset (s : State) (func start : Nat) : State :=
  match s.fn func with
  | none => s.setTenant fun x => { x with resetting := x.resetting.filter (·.1 != func) }
  | some f =>
    let t := (s.zeroise f).setTenant fun x => { x with resetting := x.resetting.filter (·.1 != func) }
    let us := (s.time - start + 999) / 1000
    let t := (t.bump R.TENANT.RESETS_COUNT).put R.TENANT.FLR_MAX_US_US (max (t.get R.TENANT.FLR_MAX_US_US) us)
    let t := (t.pulse 0xB1 Ev.TENANT.RESET_DONE).record 0xB1 E.TENANT_RESET (func % 512) func
    if !t.staysEnabled func then
      let t := t.removeFn func
      { t with fault := { t.fault with funcs := t.fault.funcs.filter (·.1 != func) } }
    else if t.tenant.newProf.contains func then
      let keep := (t.ns.filter fun n => n.attached.contains func).map (·.nsid)
      let t := (t.removeFn func).createFn func
      let t := t.setTenant fun x => { x with newProf := x.newProf.filter (· != func) }
      t.attachAll { f.p with nsids := keep }
    else t.addAdmin func

/-- The functions of a port (R486, R500). -/
def State.portFns (s : State) (port : Port) : List Nat :=
  (s.tenant.fns.map (·.p.func)).filter fun f => match port with | .a => f != 0x101 | .b => f == 0x101

/-- A reset of PF A clears VF Enable and resets every VF (R492, R500). -/
def State.resetFn (s : State) (func : Nat) : State :=
  if func = 0 then (s.portFns .a).foldl State.startReset (s.put R.TENANT.VFS_ENABLED 0)
  else s.startReset func

end Sys2Proof.Machine
end

