-- ==== Sys2Proof/Machine/Tenant.lean ====
section
/-!
DEFINITION. TENANT PROVISION (R489, R490), function and controller resets, VFs (R491, R492, R500-R503), and compute namespaces:
programs, their execution, and memory range sets (R327-R330, R476-R478).
-/

namespace Sys2Proof.Machine

/-! ### Profiles -/

/-- A refused profile changes nothing and is recorded (R490). -/
def State.refuseProfile (s : State) (c : Cmd) (func status : Nat) : State :=
  ((s.pulse 0xB1 Ev.TENANT.PROFILE_REFUSED).record 0xB1 E.TENANT_PROFILE_REFUSED (func % 512)
    (if func ≤ 0x101 then func else c.fn)).completeAdmin c status

/-- A firmware update refuses TENANT PROVISION, MICROCODE LOAD and reshape start (R26). -/
def State.updating (s : State) : Bool := s.pwr.fw.update.isSome

/-- The function is enabled as R490 means it: a VF with n ≤ NumVFs. -/
def State.vfEnabled (s : State) (func : Nat) : Bool := !isPf func && (s.fn func).isSome

/-- SET_PROFILE (R489, R490). -/
def execSetProfile (c : Cmd) (func : Nat) (data : Bytes) (s : State) : Out :=
  if !s.adminReady c.fn then .next s
  else if c.fn ≠ 0 then .next (s.refuseProfile c func Nv.badOpcode)
  else if s.updating then .next (s.refuseProfile c func Nv.held)
  else if !s.profLegal func data then .next (s.refuseProfile c func Nv.badField)
  else if s.vfEnabled func then .next (s.refuseProfile c func Nv.held)
  else match s.fitProf (profOfBytes data) with
    | none => .next (s.refuseProfile c func Nv.held)
    | some p =>
      let t := s.setTenant fun x =>
        { x with profs := x.profs.filter (·.func != func) ++ [p],
                 newProf := if isPf func then x.newProf.filter (· != func) ++ [func] else x.newProf }
      .next ((t.pulse 0xB1 Ev.TENANT.PROFILE_SET).completeAdmin c Nv.ok)

/-- CLEAR_PROFILE (R489): an enabled VF keeps its grants, and the command is refused (log entry 70). -/
def execClearProfile (c : Cmd) (func : Nat) (s : State) : Out :=
  if !s.adminReady c.fn then .next s
  else if c.fn ≠ 0 then .next (s.refuseProfile c func Nv.badOpcode)
  else if s.updating then .next (s.refuseProfile c func Nv.held)
  else if 0x101 < func then .next (s.refuseProfile c func Nv.badField)
  else if s.vfEnabled func then .next (s.refuseProfile c func Nv.held)
  else
    let t := s.setTenant fun x =>
      { x with profs := x.profs.filter (·.func != func),
               newProf := if isPf func ∧ (s.profOf func).isSome then x.newProf.filter (· != func) ++ [func] else x.newProf }
    .next (t.completeAdmin c Nv.ok)

/-! ### Functions -/

/-- FUNCTION_RESET (R500). -/
def execFunctionReset (fn : Nat) (s : State) : Out := .next (s.resetFn fn)

/-- FUNCTION_RESET_DONE (R501, R503). -/
def execFunctionResetDone (fn : Nat) (s : State) : Out :=
  match assoc s.tenant.resetting fn with
  | none => .next s
  | some start => .next (s.endReset fn start)

/-- CONTROLLER_RESET (R500): CC.EN affects only the controller's queues. -/
def execControllerReset (fn : Nat) (s : State) : Out :=
  if (s.fn fn).isNone ∨ s.isResetting fn then .next s else .next ((s.dropQueues fn).addAdmin fn)

/-- VF_ENABLE (R491): VF Enable becomes 1 with NumVFs; a VF whose removal still runs is removed first, so that it comes back
with the next GEN. -/
def execVfEnable (numVfs : Nat) (s : State) : Out :=
  if (s.fn 0).isNone ∨ 256 < numVfs ∨ numVfs ≤ s.get R.TENANT.VFS_ENABLED then .next s
  else
    let vfs := (List.range numVfs).map (· + 1)
    let t := vfs.foldl (fun t f =>
      match assoc t.tenant.resetting f with
      | some start => if t.staysEnabled f then t else t.endReset f start
      | none => t) s
    let t := t.put R.TENANT.VFS_ENABLED numVfs
    .next (vfs.foldl (fun t f => if (t.fn f).isSome then t else t.createFn f) t)

/-- VF_DISABLE (R492): VF Enable cleared, or a lower NumVFs; each VF beyond it is reset and removed. -/
def execVfDisable (numVfs : Nat) (s : State) : Out :=
  let n := min numVfs (s.get R.TENANT.VFS_ENABLED)
  let t := s.put R.TENANT.VFS_ENABLED n
  .next (((s.tenant.fns.map (·.p.func)).filter fun f => !isPf f && decide (n < f)).foldl State.startReset t)

/-! ### Programs -/

/-- "CORKFLCK" (R327). -/
def flockMagic : Bytes := [0x43, 0x4F, 0x52, 0x4B, 0x46, 0x4C, 0x43, 0x4B]

/-- A section of an image: kind, length, target, file offset (R327). -/
structure Section where
  /-- KIND -/
  kind : Nat
  /-- LENGTH -/
  len : Nat
  /-- TARGET -/
  target : Nat
  /-- FILE_OFFSET -/
  off : Nat
  /-- its reserved bytes are zero -/
  clean : Bool

/-- The sections of an image. -/
def sectionsOf (img : Bytes) : List Section :=
  (List.range (descN img 12 2)).map fun i =>
    let e := 256 + 32 * i
    ⟨descN img e 1, descN img (e + 4) 4, descN img (e + 8) 8, descN img (e + 16) 8, descN img (e + 1) 3 == 0 && descN img (e + 24) 8 == 0⟩

/-- The data of a section. -/
def Section.data (x : Section) (img : Bytes) : Bytes := sliceBytes img x.off x.len

/-- A section lies inside the image and its reserved fields are zero (R327, R329). -/
def Section.ok (x : Section) (imageLen dsl : Nat) : Bool :=
  x.clean && decide (1 ≤ x.kind) && decide (x.kind ≤ 4)
    && (if x.kind = 3 then x.off == 0 else decide (x.off + x.len ≤ imageLen))
    && (if x.kind = 2 ∨ x.kind = 3 then decide (x.target + x.len ≤ dsl) else true)

/-- A section's target is mapped for its function (R328): CODE in pages that become R and X, SHARED_INIT in writable ones. -/
def State.sectionMapped (s : State) (func : Nat) (x : Section) : Bool :=
  if x.kind = 1 then (xfault s.xlate func .r (piecesOf x.target x.len)).isNone
  else if x.kind = 4 then (xfault s.xlate func .w (piecesOf x.target x.len)).isNone
  else true

/-- The loader accepts an image for a function (R329), its decode-table fingerprint aside. -/
def State.imageOk (s : State) (func : Nat) (d : Bytes) : Bool :=
  let n := descN d 40 8
  let fl := descN d 10 2
  let ds := descN d 32 4
  let rs := descN d 36 4
  let lay := stackLayout ds rs
  let img := d.take n
  d.take 8 == flockMagic && descN d 8 2 == 1 && decide (fl ≤ 1) && decide (1 ≤ descN d 12 2) && decide (descN d 12 2 ≤ 64)
    && descN d 14 2 == 0 && ((sliceBytes d 112 144).all (· == 0)) && (fl == 1 || (sliceBytes d 48 32).all (· == 0))
    && ds % 64 == 0 && decide (128 ≤ ds) && rs % 72 == 0 && decide (144 ≤ rs) && decide (ds + rs + 64 + 72 ≤ 0x1E000)
    && decide (n ≤ d.length) && decide (256 + 32 * descN d 12 2 ≤ n)
    && ((sectionsOf img).all fun x => x.ok n lay.1 && s.sectionMapped func x)
    && sha256 (overlay img 80 (List.replicate 32 0)) == sliceBytes d 80 32

/-- The clusters that hold a core of a function. -/
def clustersOf (f : Fn) : List Nat := ((coresOf f.p.cores).map (· / 8)).eraseDups

/-- An image's fingerprint is that of every cluster of its function (R329, R476). -/
def State.tableOk (s : State) (f : Fn) (d : Bytes) : Bool :=
  descN d 10 2 == 0 || (clustersOf f).all fun c => match s.clusters.toList[c]? with
    | some k => k.fingerprint == sliceBytes d 48 32
    | none => false

/-- Copy the CODE and SHARED_INIT sections of an image (R328). -/
def State.copySections (s : State) (func : Nat) (img : Bytes) : State :=
  ((sectionsOf img).filter fun x => x.kind == 1 || x.kind == 4).foldl (fun t x =>
    { t with mem := xwriteAux t.xlate func (piecesOf x.target x.len) (x.data img) t.mem }) s

/-- A compute or memory namespace command of the function's own namespace. -/
def State.ownNs (s : State) (c : Cmd) (base : Nat) : Option Fn := if c.nsid = base + c.fn then s.fn c.fn else none

/-- A function's slot holds an image, its sections copied; it is not active yet (R476). -/
def State.placeProg (s : State) (fn slot : Nat) (img : Bytes) : State :=
  (s.copySections fn img).setHost fun h =>
    { h with progs := h.progs.filter (fun p => !(p.fn == fn && p.slot == slot)) ++ [⟨fn, slot, img, false⟩] }

/-- An image of a function is checked and taken (R328, R329, R476). Its conditions are recorded in core 0's page (log entry 75). -/
def State.loadProgram (s : State) (c : Cmd) (slot : Nat) (data : Bytes) : State :=
  match s.ownNs c 0x400 with
  | none => s.completeAdmin c Nv.badNs
  | some f =>
    if 16 ≤ slot then s.completeAdmin c Nv.badField
    else if !s.imageOk c.fn data then
      (s.record 0x100 E.CROOK_IMAGE_BAD (crookInfo 0 c.fn) c.fn).completeAdmin c Nv.badField
    else if !s.tableOk f data then
      (s.record 0x100 E.CROOK_TABLE_MISMATCH (crookInfo 0 c.fn) c.fn).completeAdmin c Nv.table
    else
      match (s.placeProg c.fn slot (data.take (descN data 40 8))).remap f with
      | none => ((s.pulse 0xB2 Ev.XLATE.TABLE_FULL).record 0xB2 E.XLATE_TABLE_FULL (c.fn % 512) c.fn).completeAdmin c Nv.noCapacity
      | some u => u.completeAdmin c Nv.ok

/-- A microcode load writes a cluster that holds a core of the function (R374). -/
def State.loadBlocks (s : State) (fn : Nat) : Bool :=
  match s.mcLoad, s.fn fn with
  | some m, some f => (clustersOf f).contains m.cluster
  | _, _ => false

/-- LOAD_PROGRAM (R328, R329, R374, R476): one that arrives during a microcode load of its cluster waits. -/
def execLoadProgram (c : Cmd) (slot : Nat) (data : Bytes) (s : State) : Out :=
  if !s.adminReady c.fn then .next s
  else if s.loadBlocks c.fn then .next (s.await c (.program slot data)) else .next (s.loadProgram c slot data)

/-- A program in a slot of a function. -/
def State.prog (s : State) (fn slot : Nat) : Option ProgSlot := s.host.progs.find? fun p => p.fn == fn && p.slot == slot

/-- PROGRAM_ACTIVATION_MANAGEMENT (R476). -/
def execProgramActivation (c : Cmd) (slot : Nat) (act : Bool) (s : State) : Out :=
  if !s.adminReady c.fn then .next s
  else match s.ownNs c 0x400, s.prog c.fn slot with
  | none, _ => .next (s.completeAdmin c Nv.badNs)
  | some _, none => .next (s.completeAdmin c Nv.badField)
  | some _, some _ =>
    .next ((s.setHost fun h => { h with progs := h.progs.map fun p =>
      if p.fn == c.fn && p.slot == slot then { p with active := act } else p }).completeAdmin c Nv.ok)

/-- The idle cores of a function: granted, without a program, not parked, in a cluster that no load writes (R477); a program load is one
of the ways out of HALTED (R316). -/
def State.idleCores (s : State) (f : Fn) : List Nat :=
  (coresOf f.p.cores).filter fun c => match s.cores.toList[c]? with
    | some k => (k.state == .stopped || k.state == .halted) && k.prog.isNone && (match s.mcLoad with | some m => m.cluster != c / 8 | none => true)
    | none => false

/-- A core that starts an image: zeroised, then laid out (R314, R330), with the monitor's entry in TRAPVEC (R333). -/
def startedCore (k : Core) (img : Bytes) (monitor : BitVec 48) (cmd : CmdKey) (index n : Nat) : Core :=
  let local_ := ((sectionsOf img).filter (·.kind == 2)).foldl (fun m x => memWriteN m x.target (x.data img)) ([] : List (Nat × Byte))
  { k.layStacks (descN img 32 4) (descN img 36 4) with
           state := .running, pc := BitVec.ofNat 48 (descN img 16 8), lp := 0, status := 0, cycle := 0, insns := 0, ds := [BitVec.ofNat 64 n, BitVec.ofNat 64 index],
           rs := [], mem := local_, dcache := [], icache := [], utlb := [], upsets := [], wait := none,
           trapvec := monitor, trapcause := 0, trappc := 0,
           prog := some ⟨descN img 24 8, descN img 10 2 == 1, sliceBytes img 48 32, false, cmd, index, none, 0⟩ }

/-- A core starts an image: the transfer to an ENTRY that no core may go to traps (R295, R299), and the monitor acts on it. -/
def State.startImage (s : State) (c : Nat) (img : Bytes) (cmd : CmdKey) (index n : Nat) : State :=
  if h : c < 72 then
    let c : Fin 72 := ⟨c, h⟩
    let k := startedCore s.cores[c] img s.pwr.fw.monitor cmd index n
    match (⟨s, c, k, 0, none, none, 0⟩ : Ctx).goto (descN img 16 8) with
    | .error t => s.trapped c k t k.pc
    | .ok x => s.setCore c x.k
  else s

/-- EXECUTE_PROGRAM (R330, R477): slot and range set in CDW10, bytes of parameter data in CDW11 (log entry 67). -/
def execExecuteProgram (k : CmdKey) (s : State) : Out :=
  match s.hcmd k with
  | none => .next s
  | some h =>
    if h.phase ≠ .ready then .next s
    else match s.ioNs h.x, s.fn k.fn with
      | none, _ => .next (s.completeCmd k Nv.badNs)
      | _, none => .next (s.completeCmd k Nv.badNs)
      | some ns, some f =>
        if ns.kind ≠ .compute then .next s
        else if ns.nsid ≠ 0x400 + k.fn then .next (s.completeCmd k Nv.badNs)
        else if s.offline then .next (s.completeCmd k Nv.offline)
        else
          let len := h.x.cdw11
          match s.prog k.fn (h.x.cdw10 % 65536), assoc f.ranges (h.x.cdw10 / 65536) with
          | some p, some (r :: _) =>
            let data := s.fromHost k.fn h.x.dptr len
            let n := leNat (data.take 2)
            if !p.active || decide (4096 < len) || decide (len < 2) || decide (dptrLen h.x.dptr < len) || decide (r.len < len)
                || n == 0 || decide ((coresOf f.p.cores).length < n) then .next (s.completeCmd k Nv.badField)
            else
              let idle := s.idleCores f
              if idle.length < n then .next (s.completeCmd k Nv.held)
              else
                let t := { s with mem := s.mem.write .dram (f.dramBase + r.start) data }
                let t := (idle.take n).zipIdx.foldl (fun t c => t.startImage c.1 p.image k c.2 n) t
                .next ((t.modCmd k fun x => { x with phase := .running }).hostActive)
          | _, _ => .next (s.completeCmd k Nv.badField)

/-- The cores that run a command's program. -/
def State.progCores (s : State) (k : CmdKey) : List (Nat × ProgRun) :=
  s.cores.toList.zipIdx.filterMap fun c => c.1.prog.bind fun p => if p.cmd = k ∧ 8 ≤ c.2 then some (c.2, p) else none

/-- The cores of a program are idle again. -/
def State.freeCores (s : State) (k : CmdKey) : State :=
  (s.progCores k).foldl (fun t c => t.modCore c.1 fun x => { x with prog := none, state := if x.state = .parked then .parked else x.state }) s

/-- The first program of a function all of whose cores have ended. -/
def State.endedProg (s : State) (fn : Nat) : Option CmdKey :=
  let ks := s.cores.toList.filterMap fun c => c.prog.bind fun p => if p.cmd.fn = fn then some p.cmd else none
  ks.find? fun k => (s.progCores k).all fun c => c.2.ended.isSome

/-- PROGRAM_CORES_ENDED (R477): the result of index 0, or the index of the first core that stopped. -/
def execProgramCoresEnded (fn : Nat) (s : State) : Out :=
  match s.endedProg fn with
  | none => .next s
  | some k =>
    let cs := (s.progCores k).map (·.2)
    let stops := cs.filter fun p => p.ended == some none
    let t := s.freeCores k
    match stops with
    | p :: ps => .next (t.completeCmd k Nv.stopped (ps.foldl (fun m q => if q.rank < m.rank then q else m) p).index)
    | [] =>
      let v := match cs.find? (·.index == 0) with | some ⟨_, _, _, _, _, _, some (some w), _⟩ => w.toNat | _ => 0
      .next (t.completeCmd k Nv.ok (v % 2 ^ 32) (v / 2 ^ 32))

/-! ### Memory range sets -/

/-- A set of ranges is legal (R478): up to 32 ranges of the function's namespace, in whole 4 KiB pages (log entry 76). -/
def rangesOk (fn : Nat) (rs : List MemRange) : Bool :=
  decide (rs.length ≤ 32) && rs.all fun r => r.nsid == 0x600 + fn && r.start % 4096 == 0 && r.len % 4096 == 0

/-- A function's range sets change and are mapped, or the table has no room (R478, R493, R506). -/
def State.setRanges (s : State) (c : Cmd) (f : Fn) (sets : List (Nat × List MemRange)) (dw0 : Nat) : State :=
  match (s.modFn c.fn fun g => { g with ranges := sets }).remap { f with ranges := sets } with
  | some t => t.completeAdmin c Nv.ok dw0
  | none => ((s.pulse 0xB2 Ev.XLATE.TABLE_FULL).record 0xB2 E.XLATE_TABLE_FULL (c.fn % 512) c.fn).completeAdmin c Nv.noCapacity

/-- MEMORY_RANGE_SET_MANAGEMENT (R478, R493): SEL 0 creates the lowest free set, 1 deletes, 2 replaces (log entry 67). -/
def execMemoryRangeSet (c : Cmd) (sel : BitVec 4) (rsid : Nat) (ranges : List MemRange) (s : State) : Out :=
  if !s.adminReady c.fn then .next s
  else match s.ownNs c 0x600 with
  | none => .next (s.completeAdmin c Nv.badNs)
  | some f =>
    let op := sel.toNat
    let new := (List.range 16).find? fun i => (assoc f.ranges i).isNone
    if op = 1 then
      if (assoc f.ranges rsid).isNone then .next (s.completeAdmin c Nv.badField)
      else .next (s.setRanges c f (f.ranges.filter (·.1 != rsid)) 0)
    else if op ≠ 0 ∧ op ≠ 2 then .next (s.completeAdmin c Nv.badField)
    else if !rangesOk c.fn ranges then .next (s.completeAdmin c Nv.badField)
    else if ranges.any fun r => decide (f.p.dram * 2 ^ 20 < r.start + r.len) then .next (s.completeAdmin c Nv.noCapacity)
    else if op = 2 then
      if (assoc f.ranges rsid).isNone then .next (s.completeAdmin c Nv.badField)
      else .next (s.setRanges c f (assocSet f.ranges rsid ranges) rsid)
    else match new with
      | none => .next (s.completeAdmin c Nv.badField)
      | some i => .next (s.setRanges c f (assocSet f.ranges i ranges) i)

end Sys2Proof.Machine
end

