-- ==== Sys2Proof/Machine/AdminQueues.lean ====
section
/-!
DEFINITION. Admin commands over queues, features and events (R450, R451, R455, R461-R465, R493). What NVM Express alone defines of
them is in log entry 40.
-/

namespace Sys2Proof.Machine

/-- Queue pairs granted to a function, its admin pair included (R455, R491). -/
def State.pairsOf (s : State) (fn : Nat) : Nat := match s.fn fn with | some f => f.p.pairs | none => 0

/-- MSI-X vectors of a function (R447). -/
def vectorsOf (fn : Nat) : Nat := if isPf fn then 2048 else 64

/-- An identifier that an I/O queue of the function may carry (R455, R493). -/
def State.qidOk (s : State) (fn qid : Nat) : Bool := qid != 0 && decide (qid < s.pairsOf fn)

/-- The size of an I/O queue in entries is legal (R451, R455). -/
def queueSizeOk (size : Nat) : Bool := decide (2 ≤ size) && decide (size ≤ 16384)

/-- CREATE_IO_CQ (R449, R455, R493). -/
def execCreateIoCq (c : Cmd) (qid size vec : Nat) (ien pc : Bool) (s : State) : Out :=
  if !s.adminReady c.fn then .next s
  else if !s.qidOk c.fn qid || (s.cq c.fn qid).isSome then .next (s.completeAdmin c Nv.badQueue)
  else if !queueSizeOk size then .next (s.completeAdmin c Nv.badSize)
  else if vectorsOf c.fn ≤ vec then .next (s.completeAdmin c Nv.badVector)
  else if !pc then .next (s.completeAdmin c Nv.badField)
  else .next ((s.setHost fun h => { h with cqs := h.cqs ++ [⟨c.fn, qid, size, vec, ien, 0, 0⟩] }).completeAdmin c Nv.ok)

/-- CREATE_IO_SQ (R448, R455, R484, R493). -/
def execCreateIoSq (c : Cmd) (qid size cqid : Nat) (pc : Bool) (s : State) : Out :=
  if !s.adminReady c.fn then .next s
  else if cqid = 0 ∨ (s.cq c.fn cqid).isNone then .next (s.completeAdmin c Nv.badCq)
  else if !s.qidOk c.fn qid || (s.sq c.fn qid).isSome then .next (s.completeAdmin c Nv.badQueue)
  else if !queueSizeOk size then .next (s.completeAdmin c Nv.badSize)
  else if !pc then .next (s.completeAdmin c Nv.badField)
  else
    let t := s.setHost fun h => { h with sqs := h.sqs ++ [⟨c.fn, qid, size, cqid, 0, 0, none, s.nextGidx⟩] }
    .next (t.countQueues.completeAdmin c Nv.ok)

/-- The commands fetched from a queue end; a write whose units are not all programmed keeps its lock (R457). -/
def State.endQueue (s : State) (fn qid : Nat) : State :=
  (s.host.cmds.filter fun h => h.x.fn == fn && h.x.sq == qid && h.phase != .locked).foldl (fun t h =>
    t.completeCmd ⟨fn, qid, h.x.cid⟩ Nv.sqDeleted 0 0 (h.x.opcode == 1 && h.phase == .running && decide (0 < h.left))) s

/-- DELETE_IO_SQ (R464): a freeze of the queue ends with it. -/
def execDeleteIoSq (c : Cmd) (qid : Nat) (s : State) : Out :=
  if !s.adminReady c.fn then .next s
  else if qid = 0 ∨ (s.sq c.fn qid).isNone then .next (s.completeAdmin c Nv.badQueue)
  else
    let t := s.endQueue c.fn qid
    let t := t.setHost fun h =>
      { h with sqs := h.sqs.filter fun q => !(q.fn == c.fn && q.qid == qid), aborts := h.aborts.filter fun k => !(k.fn == c.fn && k.sq == qid) }
    .next (t.countFrozen.countQueues.completeAdmin c Nv.ok)

/-- DELETE_IO_CQ (R455). -/
def execDeleteIoCq (c : Cmd) (qid : Nat) (s : State) : Out :=
  if !s.adminReady c.fn then .next s
  else if qid = 0 ∨ (s.cq c.fn qid).isNone then .next (s.completeAdmin c Nv.badQueue)
  else if s.host.sqs.any fun q => q.fn == c.fn && q.cqid == qid && q.qid != 0 then .next (s.completeAdmin c Nv.badDelete)
  else
    let t := s.setHost fun h =>
      { h with cqs := h.cqs.filter fun q => !(q.fn == c.fn && q.qid == qid), cqes := h.cqes.filter fun e => !(e.fn == c.fn && e.cq == qid) }
    .next (t.completeAdmin c Nv.ok)

/-! ### Abort and thaw -/

/-- The cores of a program stop (R320, R477). -/
def State.stopCores (s : State) (k : CmdKey) : State :=
  (s.progCores k).foldl (fun t c =>
    if h : c.1 < 72 then
      match t.cores.toList[c.1]? with
      | some x => if c.2.ended.isSome then t else t.stopProgram ⟨c.1, h⟩ x x.pc
      | none => t
    else t) s

/-- A command not fetched is among the entries between head and tail; whether the one named is, the host alone knows (log entry 40). -/
def State.unfetched (s : State) (k : CmdKey) : Bool × State :=
  match s.sq k.fn k.sq with
  | some q => if q.head = q.tail then (false, s) else let f := s.fresh; (f.1 % 2 == 0, f.2)
  | none => (false, s)

/-- ABORT (R465, R477): DW0 is 1 where the command was not aborted. -/
def execAbort (c : Cmd) (sqid acid : Nat) (s : State) : Out :=
  let k : CmdKey := ⟨c.fn, sqid, acid⟩
  if !s.adminReady c.fn then .next s
  else match s.hcmd k with
    | some h =>
      if h.phase = .waits then .next ((s.completeCmd k Nv.aborted).completeAdmin c Nv.ok)
      else if !(s.progCores k).isEmpty then .next ((((s.stopCores k).freeCores k).completeCmd k Nv.aborted).completeAdmin c Nv.ok)
      else .next (s.completeAdmin c Nv.ok 1)
    | none =>
      if sqid = 0 then .next (s.completeAdmin c Nv.ok 1)
      else
        let u := s.unfetched k
        if u.1 then
          .next ((u.2.setHost fun h => { h with aborts := if h.aborts.contains k then h.aborts else h.aborts ++ [k] }).completeAdmin c Nv.ok)
        else .next (u.2.completeAdmin c Nv.ok 1)

/-- QUEUE_THAW (R464). -/
def execQueueThaw (c : Cmd) (sqid : Nat) (s : State) : Out :=
  if !s.adminReady c.fn then .next s
  else match s.sq c.fn sqid with
    | some q =>
      if q.frozen.isSome then
        let t := (s.modSq c.fn sqid fun q => { q with frozen := none }).countFrozen.bump R.HOSTQ.THAWS_COUNT
        .next (t.completeAdmin c Nv.ok)
      else .next ((s.record 0xB0 E.HOSTQ_THAW_REFUSED (c.fn % 512 + sqid % 4096 * 512) c.fn).completeAdmin c Nv.badField)
    | none => .next ((s.record 0xB0 E.HOSTQ_THAW_REFUSED (c.fn % 512 + sqid % 4096 * 512) c.fn).completeAdmin c Nv.badField)

/-! ### Features and events -/

/-- Features that R450 lists: arbitration, power management, temperature threshold, number of queues, interrupt coalescing, interrupt
vector configuration, asynchronous event configuration. -/
def featureListed (fid : Nat) : Bool := [1, 2, 4, 7, 8, 9, 0x0B].contains fid

/-- Number of Queues: the function's grant as I/O queues, counted from 0 (R455; log entry 40). -/
def State.queueCount (s : State) (fn : Nat) : Nat := (s.pairsOf fn - 2) * 65537

/-- A value that a feature takes: power state 0 only (R450), a vector that exists. -/
def featureOk (fn fid v : Nat) : Bool :=
  featureListed fid && (if fid = 2 then v % 32 == 0 else if fid = 9 then decide (v % 65536 < vectorsOf fn)
    else if fid = 7 then v % 65536 != 65535 && v / 65536 != 65535 else true)

/-- SET_FEATURES (R450, R455). -/
def execSetFeatures (c : Cmd) (fid : Nat) (v : BitVec 32) (s : State) : Out :=
  if !s.adminReady c.fn then .next s
  else if !featureOk c.fn fid v.toNat then .next (s.completeAdmin c Nv.badField)
  else if fid = 7 then
    if s.host.sqs.any (fun q => q.fn == c.fn && q.qid != 0) || s.host.cqs.any (fun q => q.fn == c.fn && q.qid != 0) then
      .next (s.completeAdmin c Nv.sequence)
    else .next (s.completeAdmin c Nv.ok (s.queueCount c.fn))
  else .next ((s.setHost fun h => { h with features := assocSet h.features (c.fn, fid) v.toNat }).completeAdmin c Nv.ok)

/-- A feature's value. -/
def State.feature (s : State) (fn fid : Nat) : Nat :=
  if fid = 7 then s.queueCount fn
  else (assoc s.host.features (fn, fid)).getD
    (if fid = 0x0B then asyncDefault else if fid = 2 then 0 else (Config.featureDefault fid).toNat)

/-- GET_FEATURES (R450, R455). -/
def execGetFeatures (c : Cmd) (fid : Nat) (s : State) : Out :=
  if !s.adminReady c.fn then .next s
  else if !featureListed fid then .next (s.completeAdmin c Nv.badField)
  else .next (s.completeAdmin c Nv.ok (s.feature c.fn fid))

/-- ASYNCHRONOUS_EVENT_REQUEST (R451, R463): at most AERL + 1 = 8 wait; an event that waits completes one at once. -/
def execAsyncEventRequest (c : Cmd) (s : State) : Out :=
  if !s.adminReady c.fn then .next s
  else if 8 ≤ (s.host.aers.filter (·.fn == c.fn)).length then .next (s.completeAdmin c Nv.aerLimit)
  else
    let t := s.setHost fun h => { h with aers := h.aers ++ [c] }
    match s.host.events.find? fun e => e.fn == c.fn && !s.host.masked.contains (e.fn, e.page) with
    | some e => .next ((t.setHost fun h => { h with events := h.events.filter (· != e) }).raiseEvent e)
    | none => .next t

/-- An opcode that R450 and R466 list for a function: the base specification's numbers, and the vendor commands that the function may
issue. The numbers of the two computational sets are not in the spec (log entry 40). -/
def adminListed (fn opcode : Nat) : Bool :=
  [0x00, 0x01, 0x02, 0x04, 0x05, 0x06, 0x08, 0x09, 0x0A, 0x0C, 0x0D, 0x10, 0x11, 0x15, 0x80, 0x81, 0x82, 0xC1, 0xC2].contains opcode
    || (isPf fn && [0xC0, 0xC4, 0xC6, 0xC8].contains opcode) || (fn == 0 && opcode == 0xC5)

/-- INVALID_COMMAND_OPCODE (R451, R466): a command whose opcode is listed is another row's. -/
def execInvalidCommandOpcode (c : Cmd) (opcode : BitVec 8) (s : State) : Out :=
  if s.adminReady c.fn && !adminListed c.fn opcode.toNat then .next (s.completeAdmin c Nv.badOpcode) else .next s

end Sys2Proof.Machine
end

