-- ==== Sys2Proof/Machine/FaultBase.lean ====
section
/-!
DEFINITION. The error rings (R604-R613): writing, coalescing and losing entries, consuming them, and log page C5h.
-/

namespace Sys2Proof.Machine

/-- Slots of a ring: the device's and a function's (R606). -/
def devSlots : Nat := 4096
/-- Slots of a function's ring. -/
def funcSlots : Nat := 256

/-- The report coalesces into an entry (R609). -/
def RingEntry.takes (e : RingEntry) (r : Report) : Bool :=
  r.code != E.FAULT_COMMAND_ERROR && e.rep.code == r.code && e.rep.inst == r.inst && e.rep.func == r.func
    && decide (e.rep.time ≤ r.time) && decide (r.time < e.rep.time + 1000000) && decide (e.count < 65535)

/-- The entry with one more occurrence (R609). -/
def RingEntry.again (e : RingEntry) (r : Report) : RingEntry :=
  { rep := { e.rep with last := sat32 ((r.time - e.rep.time) / 1000) }, count := e.count + 1 }

/-- The place of an entry that takes a report, among the 16 newest. -/
def Ring.coalesce (x : Ring) (r : Report) : Option Nat :=
  let n := x.entries.length
  ((x.entries.zipIdx.filter fun e => decide (n < e.2 + 17) && e.1.takes r).map (·.2)).getLast?

/-- The place of the entry that a CONTAINED or FATAL one replaces in a full ring (R610). -/
def Ring.victim (x : Ring) (sev : Nat) : Option Nat :=
  if sev < 2 then none
  else match x.entries.findIdx? fun e => e.rep.sev == 0 with
    | some i => some i
    | none => x.entries.findIdx? fun e => decide (e.rep.sev < sev)

/-- The overflow entry a ring owes (R611). -/
def Ring.overflow (x : Ring) (time func : Nat) : RingEntry :=
  ⟨⟨time, E.FAULT_RING_OVERFLOW, severityOf E.FAULT_RING_OVERFLOW, 0, func, x.lost % 2 ^ 32, x.firstLost, b2n x.unclean⟩, 1⟩

/-- A ring that owes an overflow entry and has a free slot writes it (R611). -/
def Ring.settle (x : Ring) (slots time func : Nat) : Ring × Bool :=
  if (x.lost ≠ 0 ∨ x.unclean) ∧ x.entries.length < slots then
    (⟨x.entries ++ [x.overflow time func], 0, 0, false⟩, true)
  else (x, false)

/-- A report comes to a ring (R609, R610): the ring, and whether it made a new entry. -/
def Ring.accept (x : Ring) (slots : Nat) (r : Report) : Ring × Bool :=
  match x.coalesce r with
  | some i => ({ x with entries := modAt x.entries i fun e => e.again r }, false)
  | none =>
    if x.entries.length < slots then ({ x with entries := x.entries ++ [⟨r, 1⟩] }, true)
    else match x.victim r.sev with
      | some i =>
        let old := (x.entries.getD i ⟨r, 1⟩).rep.time
        (({ x with entries := x.entries.eraseIdx i ++ [(⟨r, 1⟩ : RingEntry)] } : Ring).lose old, true)
      | none => (x.lose r.time, false)

/-- Change the FAULT block. -/
def State.setFault (s : State) (f : FaultSt → FaultSt) : State := { s with fault := f s.fault }

/-- A new entry raises the event of R613 on a controller, where AEN_SEV selects its severity. -/
def State.ringEvent (s : State) (sev fn : Nat) : State :=
  if bitAt (s.get R.FAULT.AEN_SEV_MASK) sev then s.vendorEvent fn 0xC5 else s

/-- What follows a new entry of the device ring: its events and the asynchronous event on both PFs (R613, R621). -/
def State.newEntry (s : State) (e : RingEntry) : State :=
  let t := (s.setFault fun f => { f with newest := some e }).pulse 8 Ev.FAULT.ENTRY
  let t := if e.rep.sev = 2 then t.pulse 8 Ev.FAULT.CONTAINED else if e.rep.sev = 3 then t.pulse 8 Ev.FAULT.FATAL else t
  (t.ringEvent e.rep.sev 0).ringEvent e.rep.sev 0x101

/-- Write a report into the device ring and its function's ring. -/
def State.enterReport (s : State) (r : Report) : State :=
  let was := s.fault.dev
  let d := was.accept devSlots r
  let t := (s.setFault fun f => { f with dev := d.1 }).bump (R.FAULT.SEV_COUNT_COUNT r.sev)
  let t := if d.2 then t.newEntry ⟨r, 1⟩ else t
  let t := if was.entries.length < devSlots ∧ d.1.entries.length = devSlots then t.pulse 8 Ev.FAULT.FULL else t
  let t := if was.lost < d.1.lost then t.pulse 8 Ev.FAULT.LOST else t
  if 0x101 < r.func then t
  else
    let x := (t.fault.func r.func).accept funcSlots r
    let t := t.setFault fun f => { f with funcs := assocSet f.funcs r.func x.1 }
    if x.2 then t.ringEvent r.sev r.func else t

/-- The ring without its entries from `lo` up to `hi`. -/
def Ring.without (x : Ring) (lo hi : Nat) : Ring := { x with entries := x.entries.take lo ++ x.entries.drop (max lo hi) }

/-- Consume entries of the device ring; a freed slot takes the overflow entry owed (R611, R612). -/
def State.consumeDev (s : State) (lo hi : Nat) : State :=
  let x := s.fault.dev
  let y := (x.without lo hi).settle devSlots s.time 0x1F0
  let t := s.setFault fun f => { f with dev := y.1 }
  if y.2 then
    match y.1.entries.getLast? with
    | some e => (t.newEntry e).recordPage 8 E.FAULT_RING_OVERFLOW e.rep.info
    | none => t
  else t

/-- Consume entries of a function's ring. -/
def State.consumeFunc (s : State) (fn lo hi : Nat) : State :=
  let x := s.fault.func fn
  let y := (x.without lo hi).settle funcSlots s.time fn
  let t := s.setFault fun f => { f with funcs := assocSet f.funcs fn y.1 }
  if y.2 then t.ringEvent (severityOf E.FAULT_RING_OVERFLOW) fn else t

/-- An entry's 32 bytes (R604). -/
def RingEntry.bytes (e : RingEntry) : Bytes :=
  leBytes 8 e.rep.time ++ leBytes 2 e.rep.code ++ leBytes 1 e.rep.sev ++ leBytes 1 e.rep.inst ++ leBytes 2 (e.rep.func % 512)
    ++ leBytes 2 e.count ++ leBytes 4 e.rep.info ++ leBytes 8 e.rep.ext ++ leBytes 4 e.rep.last

/-- Log page C5h of a ring (R612). -/
def Ring.page (x : Ring) (slots time : Nat) : Bytes :=
  padTo (32 + 32 * slots) (leBytes 4 x.entries.length ++ leBytes 4 slots ++ leBytes 4 x.lost ++ leBytes 4 0 ++ leBytes 8 x.firstLost
    ++ leBytes 8 time ++ x.entries.flatMap RingEntry.bytes)

/-- The entries wholly within a read of `len` bytes at `off` of the page, as a range from the oldest (R612). -/
def pageEntries (off len : Nat) : Nat × Nat := ((off + 31 - 32) / 32, (off + len - 32) / 32)

/-- FAULT_INTAKE: one report of the intake queue (R608-R611). -/
def execFaultIntake (s : State) : Out :=
  match s.fault.intake with
  | [] => .next s
  | r :: rs => .next ((s.setFault fun f => { f with intake := rs }).enterReport r)

end Sys2Proof.Machine
end

