-- ==== Sys2Proof/Machine/Operands.lean ====
section
/-!
DEFINITION. The lanes of the operate class and the arithmetic on them (R347-R350), shared with microcode (R362).
-/

namespace Sys2Proof.Machine

/-- Lane width in bits (R347). -/
def laneBits : Lane → Nat
  | .w64 => 64 | .w32 => 32 | .w16 => 16 | .w8 => 8

/-- Access width in bytes of a W or ww field (R345, R351). -/
def laneBytes (w : Lane) : Nat := laneBits w / 8

/-- The lanes of an entry, lane 0 first. -/
def lanesOf (w : Lane) (v : Word) : List Nat :=
  (List.range (64 / laneBits w)).map fun i => bits v.toNat (laneBits w * i) (laneBits w)

/-- An entry from its lanes; each lane's low bits count. -/
def ofLanes (w : Lane) (ls : List Nat) : Word :=
  BitVec.ofNat 64 (ls.foldr (fun l v => l % 2 ^ laneBits w + v * 2 ^ laneBits w) 0)

/-- A lane as a number, signed or not. -/
def laneVal (w : Lane) (s : Bool) (v : Nat) : Int := if s then signedOf (laneBits w) v else (v : Int)

/-- An exact result as a lane: wrapped, or with T clamped to the signed or unsigned range (R348). -/
def narrow (w : Lane) (s t : Bool) (r : Int) : Nat :=
  let n := laneBits w
  if t then
    if s then wrapInt n (max (-(2 : Int) ^ (n - 1)) (min ((2 : Int) ^ (n - 1) - 1) r))
    else wrapInt n (max 0 (min ((2 : Int) ^ n - 1) r))
  else wrapInt n r

/-- All ones or zero (R340). -/
def maskLane (w : Lane) (b : Bool) : Nat := if b then 2 ^ laneBits w - 1 else 0

/-- Apply a function to every lane. -/
def lane1 (w : Lane) (f : Nat → Nat) (a : Word) : Word := ofLanes w ((lanesOf w a).map f)

/-- Apply a function to every pair of lanes. -/
def lane2 (w : Lane) (f : Nat → Nat → Nat) (a b : Word) : Word := ofLanes w (List.zipWith f (lanesOf w a) (lanesOf w b))

/-- A two-operand integer operation on lane values with the modifier's signed and saturate bits. -/
def laneInt (m : OpMod) (f : Int → Int → Int) (a b : Word) : Word :=
  lane2 m.w (fun x y => narrow m.w m.s m.t (f (laneVal m.w m.s x) (laneVal m.w m.s y))) a b

/-- ADD, lane-wise (R348). -/
def laneAdd (m : OpMod) : Word → Word → Word := laneInt m (· + ·)
/-- SUB. -/
def laneSub (m : OpMod) : Word → Word → Word := laneInt m (· - ·)
/-- MUL. -/
def laneMul (m : OpMod) : Word → Word → Word := laneInt m (· * ·)
/-- MULH: the high half of the full product. -/
def laneMulh (m : OpMod) : Word → Word → Word :=
  lane2 m.w fun x y => wrapInt (laneBits m.w) ((laneVal m.w m.s x * laneVal m.w m.s y) / (2 : Int) ^ laneBits m.w)
/-- DIV truncated toward zero; T has no effect on an unsigned one (R349). -/
def laneDiv (m : OpMod) : Word → Word → Word := laneInt m Int.tdiv
/-- MOD: the sign of a (R348, R349). -/
def laneMod (m : OpMod) : Word → Word → Word := laneInt { m with t := false } Int.tmod
/-- NEG. -/
def laneNeg (m : OpMod) (a : Word) : Word := lane1 m.w (fun x => narrow m.w m.s m.t (-laneVal m.w m.s x)) a
/-- ABS, lanes taken as signed. -/
def laneAbs (m : OpMod) (a : Word) : Word := lane1 m.w (fun x => narrow m.w true m.t |laneVal m.w true x|) a
/-- MIN. -/
def laneMin (m : OpMod) : Word → Word → Word := laneInt { m with t := false } min
/-- MAX. -/
def laneMax (m : OpMod) : Word → Word → Word := laneInt { m with t := false } max
/-- CMPEQ. -/
def laneEq (m : OpMod) : Word → Word → Word := lane2 m.w fun x y => maskLane m.w (x == y)
/-- CMPLT, signed. -/
def laneLt (m : OpMod) : Word → Word → Word := lane2 m.w fun x y => maskLane m.w (laneVal m.w true x < laneVal m.w true y)
/-- CMPLTU. -/
def laneLtu (m : OpMod) : Word → Word → Word := lane2 m.w fun x y => maskLane m.w (x < y)
/-- The shift count: b mod w, of the whole top entry (R348). -/
def shiftCount (m : OpMod) (b : Word) : Nat := b.toNat % laneBits m.w
/-- SHL. -/
def laneShl (m : OpMod) (a b : Word) : Word := lane1 m.w (fun x => x * 2 ^ shiftCount m b) a
/-- SHR. -/
def laneShr (m : OpMod) (a b : Word) : Word := lane1 m.w (fun x => x / 2 ^ shiftCount m b) a
/-- SAR. -/
def laneSar (m : OpMod) (a b : Word) : Word :=
  lane1 m.w (fun x => wrapInt (laneBits m.w) (laneVal m.w true x / (2 : Int) ^ shiftCount m b)) a
/-- ROL. -/
def laneRol (m : OpMod) (a b : Word) : Word :=
  let n := shiftCount m b
  lane1 m.w (fun x => (x * 2 ^ n) % 2 ^ laneBits m.w + x / 2 ^ (laneBits m.w - n)) a
/-- POPC. -/
def lanePopc (m : OpMod) (a : Word) : Word := lane1 m.w (popCount (laneBits m.w)) a
/-- Zeros above the highest one bit of an n-bit number. -/
def leadingZeros : Nat → Nat → Nat
  | 0, _ => 0
  | n + 1, v => if bitAt v n then 0 else 1 + leadingZeros n v
/-- Zeros below the lowest one bit of an n-bit number. -/
def trailingZeros : Nat → Nat → Nat
  | 0, _ => 0
  | n + 1, v => if v % 2 = 1 then 0 else 1 + trailingZeros n (v / 2)
/-- CLZ: w for a zero lane. -/
def laneClz (m : OpMod) (a : Word) : Word := lane1 m.w (leadingZeros (laneBits m.w)) a
/-- CTZ: w for a zero lane. -/
def laneCtz (m : OpMod) (a : Word) : Word := lane1 m.w (trailingZeros (laneBits m.w)) a
/-- SPLAT. -/
def laneSplat (m : OpMod) (a : Word) : Word := lane1 m.w (fun _ => bits a.toNat 0 (laneBits m.w)) a
/-- EXT: lane n, zero- or sign-extended. -/
def laneExt (m : OpMod) (a : Word) (n : Nat) : Word :=
  BitVec.ofInt 64 (laneVal m.w m.s ((lanesOf m.w a).getD n 0))
/-- INS: lane n replaced by the low bits of v. -/
def laneIns (m : OpMod) (a v : Word) (n : Nat) : Word :=
  ofLanes m.w (modAt (lanesOf m.w a) n fun _ => bits v.toNat 0 (laneBits m.w))

/-- Some lane of a divisor is zero (R313). -/
def anyZeroLane (m : OpMod) (b : Word) : Bool := (lanesOf m.w b).any (· == 0)

/-- Cycles of DIV and MOD (R348). -/
def divCycles : Lane → Nat
  | .w64 => 24 | .w32 => 14 | .w16 => 9 | .w8 => 6

/-- The modifier fields an opcode accepts: a field it does not accept must be zero (R347). -/
def modOk (m : OpMod) (w s t : Bool) : Bool := (w || m.w == .w64) && (s || !m.s) && (t || !m.t)

/-- An operate instruction: a reserved modifier traps ILLEGAL before anything else (R337). -/
def guardMod (ok : Bool) (b : Body) : Body := fun x => if ok then b x else .error trapIllegal

/-- A one-operand operation. -/
def unary (f : Word → Word) : Body := fun x => x.operate 1 1 fun y => [f (y.top 0)]

/-- A two-operand operation a op b, b on top (R338). -/
def binary (f : Word → Word → Word) : Body := fun x => x.operate 2 1 fun y => [f (y.top 1) (y.top 0)]

/-- A division: DIV_ZERO once both operands are present and before any lane is written (R313, R349). -/
def division (m : OpMod) (f : Word → Word → Word) : Body := fun x =>
  match x.needD 2 1 with
  | .error t => .error t
  | .ok y => if anyZeroLane m (y.top 0) then .error ⟨0x10, 0, false, false⟩ else .ok (y.rep 2 [f (y.top 1) (y.top 0)])

/-! ### Floating point -/

/-- The format of a floating-point lane width; W 0b00 and 0b11 are reserved (R350). -/
def floatFmt : Lane → Option FFmt
  | .w32 => some single
  | .w16 => some half
  | .w64 => none
  | .w8 => none

/-- Set sticky bits of STATUS.FFLAGS (R312). -/
def Ctx.flags (x : Ctx) (f : Nat) : Ctx := { x with k := { x.k with status := x.k.status ||| BitVec.ofNat 64 (f * 16) } }

/-- A floating-point operation on every lane of its operands: the result lanes and the flags it raises. -/
def floatLanes (w : Lane) (f : List Nat → Nat × Nat) (ops : List Word) : Word × Nat :=
  let rs := (List.range (64 / laneBits w)).map fun i => f (ops.map fun v => (lanesOf w v).getD i 0)
  (ofLanes w (rs.map (·.1)), rs.foldl (fun v r => v ||| r.2) 0)

/-- A floating-point instruction of `n` operands; `f` takes a lane's operands, the deepest first. -/
def floating (m : OpMod) (n : Nat) (f : FFmt → List Nat → Nat × Nat) : Body := fun x =>
  match floatFmt m.w with
  | none => .error trapIllegal
  | some fmt =>
    match x.needD n 1 with
    | .error t => .error t
    | .ok y =>
      let r := floatLanes m.w (f fmt) ((List.range n).reverse.map y.top)
      .ok ((y.rep n [r.1]).flags r.2)

end Sys2Proof.Machine
end

