-- ==== Sys2Proof/Machine/CrookMem.lean ====
section
/-!
DEFINITION. Loads and stores of the Crook cores (R345, R351).
-/

namespace Sys2Proof.Machine

/-- A loaded value as an entry, sign-extended where `sx` says so. -/
def loaded (w : Lane) (sx : Bool) (v : Nat) : Word := BitVec.ofInt 64 (laneVal w sx v)

/-- A load that replaces `n` entries by the value at the address `f` computes. -/
def loadBody (w : Lane) (sx : Bool) (e : Ecc) (n : Nat) (f : Ctx → Word) : Body := fun x =>
  match x.needD n 1 with
  | .error t => .error t
  | .ok y =>
    match y.load (f y).toNat (laneBytes w) e with
    | .error t => .error t
    | .ok (z, v) => .ok (z.rep n [loaded w sx v])

/-- A store of the entry `n` − 1 places below the top at the address `f` computes; `n` entries leave. -/
def storeBody (w : Lane) (n : Nat) (f : Ctx → Word) : Body := fun x =>
  match x.needD n 0 with
  | .error t => .error t
  | .ok y =>
    match y.store (f y).toNat (laneBytes w) (bits (y.top (n - 1)).toNat 0 (laneBits w)) with
    | .error t => .error t
    | .ok z => .ok (z.rep n [])

/-- The offset of a short form: i × width (R345). -/
def shortOff (w : Lane) (i : BitVec 8) : Word := BitVec.ofNat 64 (i.toNat * laneBytes w)

/-- LD (R345). -/
def execLd (c : Fin 72) (w : Lane) (i : BitVec 8) (e : Ecc) (s : State) : Out :=
  .next (s.insn c 1 0 (loadBody w false e 1 fun y => y.top 0 + shortOff w i))

/-- LDL (R345): the base is LP. -/
def execLdl (c : Fin 72) (w : Lane) (i : BitVec 8) (e : Ecc) (s : State) : Out :=
  .next (s.insn c 1 0 (loadBody w false e 0 fun y => y.k.lp.zeroExtend 64 + shortOff w i))

/-- ST (R345). -/
def execSt (c : Fin 72) (w : Lane) (i : BitVec 8) (s : State) : Out :=
  .next (s.insn c 1 0 (storeBody w 2 fun y => y.top 0 + shortOff w i))

/-- STL (R345). -/
def execStl (c : Fin 72) (w : Lane) (i : BitVec 8) (s : State) : Out :=
  .next (s.insn c 1 0 (storeBody w 1 fun y => y.k.lp.zeroExtend 64 + shortOff w i))

/-- LOAD (R351): sign-extended under the signed modifier. -/
def execLoad (c : Fin 72) (m : OpMod) (e : Ecc) (s : State) : Out :=
  .next (s.insn c 1 0 (guardMod (modOk m true true false) (loadBody m.w m.s e 1 fun y => y.top 0)))

/-- STORE (R351). -/
def execStore (c : Fin 72) (m : OpMod) (s : State) : Out :=
  .next (s.insn c 1 0 (guardMod (modOk m true false false) (storeBody m.w 2 fun y => y.top 0)))

end Sys2Proof.Machine
end

