-- ==== Sys2Proof/Machine/Microcode.lean ====
section
/-!
DEFINITION. CUSTOM: the decode table and the running of microcode (R357, R359-R369).
-/

namespace Sys2Proof.Machine

/-- Page of a cluster (R376). -/
def clusterPage (n : Nat) : Nat := 0x150 + n

/-- A cluster. -/
def State.cluster (s : State) (n : Nat) : Cluster := s.clusters.toList.getD n Cluster.empty

/-- Entry `e` of a cluster's decode table (R359). -/
def Cluster.entry (q : Cluster) (e : Nat) : Nat := q.table.getD e 0
/-- START. -/
def entStart (v : Nat) : Nat := bits v 0 12
/-- IN. -/
def entIn (v : Nat) : Nat := bits v 12 3
/-- OUT. -/
def entOut (v : Nat) : Nat := bits v 15 2
/-- SYS_ONLY. -/
def entSys (v : Nat) : Bool := bitAt v 17
/-- VALID. -/
def entValid (v : Nat) : Bool := bitAt v 18

/-- The lane width of a two-bit field (R347). -/
def laneOf (n : Nat) : Lane := if n = 0 then .w64 else if n = 1 then .w32 else if n = 2 then .w16 else .w8

/-- A custom instruction in progress (R360). -/
structure Micro where
  /-- the core's context -/
  x : Ctx
  /-- U0-U15 -/
  u : List Word
  /-- O0 and O1, none until written -/
  o : List (Option Word)
  /-- microcycles so far -/
  cyc : Nat

/-- A micro-register. -/
def Micro.reg (m : Micro) (i : Nat) : Word := m.u.getD i 0

/-- The ALU of a microword (R362). -/
def microAlu (aop : Nat) (m : OpMod) (a b : Word) : Word :=
  if aop = 0x01 then laneAdd m a b else if aop = 0x02 then laneSub m a b else if aop = 0x03 then laneMul m a b
  else if aop = 0x04 then laneMulh m a b else if aop = 0x05 then laneMin m a b else if aop = 0x06 then laneMax m a b
  else if aop = 0x07 then laneEq m a b else if aop = 0x08 then laneLt m a b else if aop = 0x09 then laneLtu m a b
  else if aop = 0x0A then a &&& b else if aop = 0x0B then a ||| b else if aop = 0x0C then a ^^^ b
  else if aop = 0x0D then a &&& ~~~b else if aop = 0x0E then laneShl m a b else if aop = 0x0F then laneShr m a b
  else if aop = 0x10 then laneSar m a b else if aop = 0x11 then laneRol m a b else if aop = 0x12 then lanePopc m a
  else if aop = 0x13 then laneClz m a else if aop = 0x14 then laneCtz m a else if aop = 0x15 then laneAbs m a
  else if aop = 0x16 then laneNeg m a else if aop = 0x17 then laneSplat m a else if aop = 0x18 then b else a

/-- What a microword's memory operation did: the context, the value for U[MDATA], the cause for U15, its microcycles. -/
structure MicroMem where
  /-- context after it -/
  x : Ctx
  /-- value of a load or bit test -/
  v : Word
  /-- 0, or the cause that suppressed it -/
  cause : Nat
  /-- microcycles -/
  cyc : Nat

/-- The latency of R299's table for a store, whose instruction cycles R345 gives otherwise. -/
def storeLatency (x : Ctx) (a n : Nat) : Nat :=
  match x.locate a n .w true with
  | .ok (_, some (.common, _)) => 38
  | .ok (y, some (t, pa)) => if (y.k.line t pa).isSome then 2 else 0
  | _ => 0

/-- An access that would trap is suppressed; an uncorrectable error is still counted and recorded (R363). -/
def Ctx.suppress (x : Ctx) (t : Trap) : Ctx := if t.cause = 1 then { x with eccs := x.eccs + 1 } else x

/-- A microword's memory or bit operation (R363): what a core instruction would trap on is suppressed. -/
def microMem (x : Ctx) (mop : Nat) (w : Lane) (sx : Bool) (a data : Word) : MicroMem :=
  if mop = 1 then
    match x.load a.toNat (laneBytes w) .none with
    | .error t => ⟨x.suppress t, 0, t.cause, 1⟩
    | .ok (y, v) => ⟨y, BitVec.ofInt 64 (laneVal w sx v), 0, max 1 (y.cost - x.cost)⟩
  else if mop = 2 then
    match x.store a.toNat (laneBytes w) (bits data.toNat 0 (laneBits w)) with
    | .error t => ⟨x.suppress t, 0, t.cause, 1⟩
    | .ok y => ⟨y, 0, 0, max 1 (y.cost - x.cost + storeLatency x a.toNat (laneBytes w))⟩
  else
    match x.bitAddr a.toNat with
    | .error t => ⟨x, 0, t.cause, 1⟩
    | .ok p =>
      match x.meetBit p with
      | .error t => ⟨x.suppress t, 0, t.cause, 1⟩
      | .ok z =>
        let old : Word := if z.getBit p then 1 else 0
        let y := if mop = 3 then z else z.putBit p (mop != 5)
        ⟨y, old, 0, p.cycles 1 40⟩

/-- How a custom instruction goes on after a microword. -/
inductive MicroNext where
  | go (m : Micro) (at_ : Nat)
  | done (m : Micro)
  | trap (m : Micro) (cause at_ : Nat)

/-- The registers after a microword: ALU result, loaded value, U15, and the decrement of SOP 5. Where the decrement meets another
write of its register, the spec gives no order and the value is free. -/
def microWrites (m : Micro) (x : Ctx) (alu mem : Option (Nat × Word)) (st dec : Option (Nat × Word)) : Ctx × List Word :=
  let put := fun (u : List Word) (w : Option (Nat × Word)) => match w with | some p => modAt u p.1 fun _ => p.2 | none => u
  let u := put (put (put m.u alu) mem) st
  match dec with
  | none => (x, u)
  | some d =>
    if [alu, mem, st].any fun w => match w with | some p => p.1 == d.1 | none => false then
      let f := x.s.fresh
      ({ x with s := f.2 }, modAt u d.1 fun _ => BitVec.ofNat 64 f.1)
    else (x, modAt u d.1 fun _ => d.2)

/-- One microword (R361-R368). -/
def microStep (m : Micro) (out at_ v : Nat) : MicroNext :=
  let mod : OpMod := ⟨laneOf (bits v 6 2), bitAt v 8, bitAt v 9⟩
  let imm : Word := BitVec.ofNat 64 (bits v 64 64)
  let d := bits v 19 4
  let dmode := bits v 23 2
  let mop := bits v 25 3
  let md := bits v 35 4
  let sop := bits v 39 3
  let cond := m.reg (bits v 42 4)
  let r := microAlu (bits v 0 6) mod (m.reg (bits v 10 4)) (if bitAt v 18 then imm else m.reg (bits v 14 4))
  let q : MicroMem := if mop = 0 then ⟨m.x, 0, 0, 1⟩
    else microMem m.x mop (laneOf (bits v 28 2)) (bitAt v 30) (m.reg (bits v 31 4)) (m.reg md)
  let cyc := m.cyc + q.cyc
  let alu := if dmode = 1 then some (d, r) else none
  let mem := if mop = 1 ∨ mop = 3 ∨ mop = 6 then some (md, q.v) else none
  let st := if mop = 0 then none else some (15, BitVec.ofNat 64 q.cause)
  let dec := if sop = 5 then some (bits v 42 4, cond - 1) else none
  let w := microWrites m q.x alu mem st dec
  let o := if dmode = 2 then modAt m.o d fun _ => some r else m.o
  let n : Micro := ⟨w.1, w.2, o, cyc⟩
  if 256 < cyc ∨ (cyc = 256 ∧ sop ≠ 4) then .trap n 0x11 at_
  else if dmode = 2 ∧ out ≤ d then .trap n 0x12 at_
  else if sop = 4 then (if (o.take out).any (·.isNone) then .trap n 0x12 at_ else .done n)
  else
    let jump := sop = 1 ∨ (sop = 2 ∧ cond = 0) ∨ (sop = 3 ∧ cond ≠ 0) ∨ (sop = 5 ∧ cond ≠ 1)
    .go n (if jump then bits v 46 12 else (at_ + 1) % 4096)

/-- Run microwords from an address. The fuel bounds their number: each takes a microcycle at least. -/
def microRun (store : List Nat) (out : Nat) : Nat → Micro → Nat → MicroNext
  | 0, m, a => .trap m 0x11 a
  | f + 1, m, a =>
    match microStep m out a (store.getD a 0) with
    | .go n b => microRun store out f n b
    | r => r

/-- ERR_INFO of MICROCODE conditions (R377). -/
def mcInfo (core entry addr : Nat) : Nat := core % 8 + entry % 64 * 8 + addr % 4096 * 512

/-- MC_LONG or MC_STACK is shown and recorded in the cluster's page (R368, R369, R376). -/
def State.mcTrap (s : State) (c e cause addr : Nat) (func : Nat) : State :=
  let n := c / 8
  let long := cause = 0x11
  let t := s.puts [(R.CLUSTER.LAST_MC_TRAP_UADDR n, addr), (R.CLUSTER.LAST_MC_TRAP_ENTRY n, e),
    (R.CLUSTER.LAST_MC_TRAP_CORE n, c % 8), (R.CLUSTER.LAST_MC_TRAP_CAUSE n, if long then 0 else 1)]
  let t := t.bump (if long then R.CLUSTER.MC_LONG_COUNT_COUNT n else R.CLUSTER.MC_STACK_COUNT_COUNT n)
  (t.pulse (clusterPage n) (if long then Ev.CLUSTER.MC_LONG else Ev.CLUSTER.MC_STACK)).record (clusterPage n)
    (if long then E.MICROCODE_MC_LONG else E.MICROCODE_MC_STACK) (mcInfo c e addr) func

/-- The micro-registers at the first microword (R360). -/
def microStart (x : Ctx) (ins : Nat) (imm : BitVec 4) : Micro :=
  ⟨x, ((List.range 4).map fun i => if i < ins then x.top i else 0) ++ [imm.zeroExtend 64] ++ List.replicate 11 0, [none, none], 0⟩

/-- CUSTOM's effect (R357, R366-R369). -/
def customBody (e : BitVec 6) (imm : BitVec 4) : Body := fun x =>
  let q := x.s.cluster (x.c / 8)
  let v := q.entry e.toNat
  if !entValid v || (entSys v && !x.k.sys) then .error ⟨0x04, e.toNat, false, false⟩
  else
    match x.needD (entIn v) (entOut v) with
    | .error t => .error t
    | .ok y =>
      match microRun q.store (entOut v) 256 (microStart y (entIn v) imm) (entStart v) with
      | .done m => .ok { m.x.rep (entIn v) ((m.o.take (entOut v)).map (·.getD 0)) with cost := y.cost + m.cyc }
      | .go m _ => .ok m.x
      | .trap m cause a =>
        .ok { m.x with s := m.x.s.mcTrap x.c e.toNat cause a y.k.func.toNat, cost := y.cost + m.cyc,
                       late := some ⟨cause, e.toNat, false, false⟩ }

/-- CUSTOM (R357). -/
def execCustom (c : Fin 72) (e : BitVec 6) (m : BitVec 4) (s : State) : Out := .next (s.insn c 1 2 (customBody e m))

end Sys2Proof.Machine
end

