-- ==== Sys2Proof/Machine/Firmware.lean ====
section
/-!
DEFINITION. Boot images and their MAC (R567-R569), firmware download, commit and the handover (R331-R333), and microcode loads
(R370-R377).
-/

namespace Sys2Proof.Machine

/-! ### Vendor commands -/

/-- PARAM of ACTION 0x0030: opcode or SPSP, then CDW10 to CDW15 (R594; log entry 16). -/
def vendorParam (op : Nat) (cdws : List Nat) : Bytes := leBytes 4 op ++ (List.range 6).flatMap fun i => leBytes 4 (cdws.getD i 0)

/-- A vendor command or Security Send carried out with a role is audited before it acts (R594, R595), and counts as a role action
(R592). -/
def State.auditVendor (s : State) (o : Origin) (op : Nat) (cdws : List Nat) (refused : Bool) : State :=
  (s.audit o (s.roleByte o) 0x0030 (b2n refused) (vendorParam op cdws)).touch o

/-! ### Boot images -/

/-- ASCII "CORKBOOT". -/
def bootMagic : Bytes := [0x43, 0x4F, 0x52, 0x4B, 0x42, 0x4F, 0x4F, 0x54]

/-- The layout of a boot image holds (R568). -/
def bootLayoutOk (img : Bytes) : Bool :=
  let n := leNat (sliceBytes img 12 4)
  img.length == n && decide (4096 ≤ n) && decide (n ≤ 16777216) && n % 16 == 0 && img.take 8 == bootMagic && leNat (sliceBytes img 8 2) == 1
    && leNat (sliceBytes img 10 2) == 0 && leNat (sliceBytes img 20 4) == 0

/-- The boot key: the installer's, or the maker's when no installer key is programmed (R569); none on a blank device (R584). -/
def State.bootKey (s : State) : Option Bytes :=
  match s.instBase, s.makerBase with
  | some b, _ => some (s.otpN (b + 192) 48)
  | none, some b => some (s.otpN (b + 56) 48)
  | none, none => none

/-- An image is accepted under R569: its layout holds, and VERDICT over its MAC reads 0x5AA5_5AA5. -/
def State.verifyImage (s : State) (img : Bytes) (va vb : BitVec 8) : Bool × State :=
  match s.bootKey with
  | none => (false, s)
  | some key =>
    if !bootLayoutOk img then (false, s)
    else
      let same := img.drop (img.length - 48) == hmacSha384 key (img.take (img.length - 48))
      let a := comparator same va
      let b := comparator same vb
      (verdictAccepts a b, s.noteVerdict a b (digestInfo 0 0x1F0) 0x1F0)

/-- Change the firmware state. -/
def State.setFw (s : State) (f : FwSt → FwSt) : State := { s with pwr := { s.pwr with fw := f s.pwr.fw } }

/-! ### Download and commit -/

/-- The bytes downloaded, in order from offset 0. -/
def FwSt.image (f : FwSt) : Bytes := (List.range f.bufLen).map fun i => (assoc f.buf i).getD 0

/-- FIRMWARE_IMAGE_DOWNLOAD (R450): part of an image at an offset. An image longer than R568 allows is refused. -/
def execFirmwareImageDownload (c : Cmd) (off : Nat) (data : Bytes) (s : State) : Out :=
  if !s.adminReady c.fn then .next s
  else if 16777216 < off + data.length ∨ data = [] then .next (s.completeAdmin c Nv.badField)
  else .next ((s.setFw fun f => { f with
    buf := data.zipIdx.foldl (fun b x => assocSet b (off + x.2) x.1) f.buf, bufLen := max f.bufLen (off + data.length) }).completeAdmin c Nv.ok)

/-- PARAM of ACTION 0x0031: slot and FW_VERSION (R594; log entry 16). -/
def commitParam (slot : Nat) (img : Bytes) : Bytes := leBytes 4 slot ++ padTo 8 (sliceBytes img 24 8)

/-- An update is refused and recorded (R331). -/
def State.refuseUpdate (s : State) : State := s.record 0x100 E.CROOK_UPDATE_REFUSED (crookInfo 0 0x1F0)

/-- The slot that a commit names; 0 leaves the choice to the device (R450; log entry 78). -/
def State.commitSlot (s : State) (slot : Nat) : Nat × State :=
  if slot = 0 then let f := s.fresh; (1 + f.1 % 2, f.2) else (slot, s)

/-- The image that the next reset activates: its slot is noted and copy 0 of the boot region holds it, the copies behind it unchanged
(R331, R567; log entry 78). -/
def State.atNextReset (s : State) (slot : Nat) (img : Bytes) : State :=
  s.setFw fun f => { f with nextSlot := some slot, region := some img :: f.region.drop 1 }

/-- A place in Common above the common bits, for `n` bytes that the firmware puts there (R332, R569): where is free (log entry 25). -/
def State.commonPlace (s : State) (n : Nat) : Nat × State :=
  let f := s.fresh
  (0x80000 + 64 * (f.1 % ((commonBytes - 0x80000 - n) / 64 + 1)), f.2)

/-- The firmware puts bytes into Common. -/
def State.toCommon (s : State) (b : Bytes) : State :=
  let p := s.commonPlace b.length
  { p.2 with mem := p.2.mem.write .common p.1 b }

/-- Stage (R332): the image is held in Common and in copy 0 of the boot region, with the old one behind it for R333. -/
def State.stage (s : State) (slot : Nat) (img : Bytes) : State := (s.toCommon img).atNextReset slot img

/-- Commit an image to a slot (R331, R450): actions 0 and 1 take the downloaded image, 2 the slot's, 3 the downloaded one where
there is one. Action 0 only stores; the others activate it at the next reset, or, for 3, without reset where the handover formats
agree. An image whose verification fails is refused, and activates only at the next reset, where the ROM meets it (R331, R567; log entry
78). -/
def State.commit (s : State) (c : Cmd) (slot action : Nat) : State :=
  let w := s.commitSlot slot
  let s := w.2
  let n := w.1
  let fw := s.pwr.fw
  let new := if action = 2 ∨ fw.bufLen = 0 then none else some fw.image
  let held := assoc fw.slots n
  match if action ≤ 1 then new else (match new with | some i => some i | none => held) with
  | none => s.completeAdmin c Nv.badImage
  | some img =>
    let v := s.verifyImage img 0 0
    let log := fun (t : State) (r : Nat) => t.audit (.pcie c.fn) (t.roleByte (.pcie c.fn)) 0x0031 r (commitParam n img)
    let held := fun (t : State) => t.setFw fun f =>
      { f with slots := assocSet f.slots n img, buf := if new.isSome then [] else f.buf, bufLen := if new.isSome then 0 else f.bufLen }
    if !v.1 then
      let t := (log v.2 1).refuseUpdate
      (if action = 0 then t else (held t).atNextReset n img).completeAdmin c Nv.badImage
    else
      let t := held (log v.2 0)
      let later := t.atNextReset n img
      if action = 0 then t.completeAdmin c Nv.ok
      else if action ≤ 2 then later.completeAdmin c Nv.needsReset
      else
        match s.pwr.fw.running with
        | some old =>
          if sliceBytes old 16 4 = sliceBytes img 16 4 then
            ((t.stage n img).setFw fun f => { f with update := some (img, 1), inHandover := false }).await c .update
          else later.refuseUpdate.completeAdmin c Nv.needsReset
        | none => later.refuseUpdate.completeAdmin c Nv.needsReset

/-- FIRMWARE_COMMIT (R331, R450). -/
def execFirmwareCommit (c : Cmd) (slot : Nat) (action : BitVec 3) (s : State) : Out :=
  if !s.adminReady c.fn then .next s
  else if 2 < slot then .next (s.completeAdmin c Nv.badSlot)
  else if 3 < action.toNat then .next (s.completeAdmin c Nv.badField)
  else if s.pwr.fw.update.isSome then .next (s.completeAdmin c Nv.held)
  else .next (s.commit c slot action.toNat)

/-! ### Handover -/

/-- The system cores of a run's half (R332). -/
def halfOf (run : Nat) : List (Fin 72) := (List.finRange 72).filter fun c => if run = 1 then decide (c.val < 4) else decide (4 ≤ c.val) && decide (c.val < 8)

/-- State transfer (R332): firmware state goes to Common in the handover format, which the source does not lay out: free bytes. -/
def State.transferState (s : State) : State :=
  let f := s.fresh
  let b := f.2.freshBytes (64 * (1 + f.1 % 64))
  b.2.toCommon b.1

/-- FIRMWARE_HANDOVER (R332): fetch pauses, the outgoing half is parked, its duties moved, and firmware state is transferred. It waits
while system cores are being restarted (R319). -/
def execFirmwareHandover (s : State) : Out :=
  match s.pwr.fw.update with
  | none => .next s
  | some (_, run) =>
    if s.handing then .next s
    else .next ((halfOf run).foldl (fun t c => t.parkCore c .handover) (s.setFw fun f => { f with inHandover := true })).transferState

/-- A half starts on an image; retired cores stay so. -/
def State.startHalf (s : State) (run : Nat) : State :=
  (halfOf run).foldl (fun t c => if (t.cores[c]).state = .retired then t else t.startSystem c) s

/-! ### Microcode images -/

/-- A decode-table entry's first refused field, as its byte within the entry (R359, R371). -/
def entryBad (words v : Nat) : Option Nat :=
  if !entValid v then (if v = 0 then none else some 0)
  else if words ≤ entStart v then some 0
  else if 4 < entIn v ∨ entOut v = 3 then some 1
  else if bits v 19 13 ≠ 0 then some 2
  else none

/-- A microword's first refused field, as its byte within the microword (R361, R364). -/
def wordBad (words v : Nat) : Option Nat :=
  let d := bits v 19 4
  let dm := bits v 23 2
  let mop := bits v 25 3
  let md := bits v 35 4
  let sop := bits v 39 3
  let loads := mop = 1 ∨ mop = 3 ∨ mop = 6
  if 0x18 < bits v 0 6 then some 0
  else if dm = 3 ∨ (dm = 2 ∧ 1 < d) ∨ (dm = 1 ∧ d = 15) then some 2
  else if mop = 7 then some 3
  else if loads ∧ (md = 15 ∨ (dm = 1 ∧ md = d)) then some 4
  else if 6 ≤ sop then some 4
  else if (sop = 1 ∨ sop = 2 ∨ sop = 3 ∨ sop = 5) ∧ words ≤ bits v 46 12 then some 5
  else if bits v 58 6 ≠ 0 then some 7
  else none

/-- ASCII "CORKMCOD". -/
def mcMagic : Bytes := [0x43, 0x4F, 0x52, 0x4B, 0x4D, 0x43, 0x4F, 0x44]

/-- WORDS of a cluster image. -/
def mcWords (img : Bytes) : Nat := leNat (sliceBytes img 12 2)
/-- Entry `e` of a cluster image. -/
def mcEntry (img : Bytes) (e : Nat) : Nat := leNat (sliceBytes img (64 + 4 * e) 4)
/-- Microword `i` of a cluster image. -/
def mcWord (img : Bytes) (i : Nat) : Nat := leNat (sliceBytes img (320 + 16 * i) 16)

/-- The image byte offset of a cluster image's first refused field (R370, R371, R377). -/
def mcBad (img : Bytes) : Option Nat :=
  let n := mcWords img
  if img.take 8 ≠ mcMagic then some 0
  else if leNat (sliceBytes img 8 2) ≠ 1 then some 8
  else if 1 < leNat (sliceBytes img 10 2) then some 10
  else if n = 0 ∨ 4096 < n then some 12
  else if leNat (sliceBytes img 14 2) ≠ 0 then some 14
  else if leNat (sliceBytes img 48 16) ≠ 0 then some 48
  else match (List.range 64).findSome? fun e => (entryBad n (mcEntry img e)).map (64 + 4 * e + ·) with
    | some b => some b
    | none => (List.range n).findSome? fun i => (wordBad n (mcWord img i)).map (320 + 16 * i + ·)

/-- The 65,792 bytes that the fingerprint covers (R372). -/
def mcCovered (img : Bytes) : Bytes := sliceBytes img 64 256 ++ padTo 65536 (sliceBytes img 320 (16 * mcWords img))

/-- The same bytes of a table and a store (R372). -/
def Cluster.covered (q : Cluster) : Bytes := padTo 256 (q.table.flatMap (leBytes 4)) ++ padTo 65536 (q.store.flatMap (leBytes 16))

/-- Write an image's table and store into a cluster. -/
def State.writeCluster (s : State) (n : Nat) (img : Bytes) : State :=
  if h : n < 9 then
    { s with clusters := s.clusters.set n { s.clusters[n] with
        table := (List.range 64).map (mcEntry img), store := (List.range (mcWords img)).map (mcWord img), words := mcWords img,
        fingerprint := sliceBytes img 16 32 } }
  else s

/-- Keep an image, or none, for the boots to come (R375). -/
def State.keepCluster (s : State) (n : Nat) (img : Option Bytes) : State :=
  if h : n < 9 then { s with clusters := s.clusters.set n { s.clusters[n] with kept := img } } else s

/-- A cluster is left with no valid entry and a zeroed store (R374). -/
def State.clearCluster (s : State) (n : Nat) : State :=
  if h : n < 9 then { s with clusters := s.clusters.set n { Cluster.empty with kept := s.clusters[n].kept } } else s

/-- The microcode of cluster 0 comes with a firmware image, which the spec does not lay out: legal entries and microwords that are
free values otherwise (R27, R332; log entry 78). -/
def State.freeCluster0 (s : State) : State :=
  let f := s.fresh
  let n := 1 + f.1 % 4096
  let base := f.2.freeNext
  let legal := fun (bad : Nat → Nat → Option Nat) (w i : Nat) => let v := Config.freeNat (base + i) % 2 ^ w; if (bad n v).isNone then v else 0
  let q : Cluster := { table := (List.range 64).map (legal entryBad 32), store := (List.range n).map fun i => legal wordBad 128 (64 + i), words := n
                       fingerprint := [], kept := none }
  { f.2 with freeNext := base + 64 + n, clusters := f.2.clusters.set 0 { q with fingerprint := sha256 q.covered } }

/-- The firmware in force brings its core monitor, whose entry the source does not give: user cores take it at their next image load (R314,
R333; log entry 25). -/
def State.newMonitor (s : State) : State := let f := s.fresh; f.2.setFw fun w => { w with monitor := BitVec.ofNat 48 (2 * f.1) }

/-- A handover ends: fetch resumes and the watchdog runs again (R332, R566). -/
def State.fetchResumes (s : State) : State := ({ s with pwr := { s.pwr with kickAt := s.time } } : State).setFw fun f => { f with inHandover := false }

/-- HANDOVER_RESUME (R319, R332): the restarted half takes its duties back and fetch resumes. The first run brings the image's microcode for
cluster 0; after the second the update has ended, with the new image in every copy of the boot region. Outside an update it is the
restart of system cores that ends. -/
def execHandoverResume (s : State) : Out :=
  if !s.handing then .next s
  else
    let t := s.restartEnds
    match s.pwr.fw.update with
    | none => .next t.fetchResumes
    | some (img, run) =>
      if !s.pwr.fw.inHandover then .next t.fetchResumes
      else if run = 1 then
        let u := ((t.setFw fun f => { f with oldCluster := some (s.cluster 0) }).startHalf 1).freeCluster0
        .next (u.fetchResumes.setFw fun f => { f with update := some (img, 2) })
      else
        let u := (t.startHalf run).newMonitor.fetchResumes
        .next ((u.setFw fun f => { f with update := none, running := some img, region := List.replicate 3 (some img), oldCluster := none }).wake
          (· == .update) Nv.ok)

/-- CROOK_UPDATE_ROLLBACK (R333): both halves end on the old image, its microcode in cluster 0 and the boot region. -/
def execCrookUpdateRollback (s : State) : Out :=
  match s.pwr.fw.update with
  | none => .next s
  | some (_, run) =>
    if !s.pwr.fw.inHandover then .next s
    else
      let t := s.restartEnds.startHalf run
      let t := if run = 2 then t.startHalf 1 else t
      let t := match t.pwr.fw.oldCluster with | some q => { t with clusters := t.clusters.set 0 q } | none => t
      let t := t.fetchResumes.setFw fun f =>
        { f with update := none, nextSlot := none, oldCluster := none, region := List.replicate 3 f.running }
      .next ((t.record 0x100 E.CROOK_UPDATE_ROLLBACK (crookInfo 0 0x1F0)).wake (· == .update) Nv.internal)

/-! ### Microcode loads -/

/-- The cores of a cluster. -/
def clusterCores (n : Nat) : List (Fin 72) := (List.finRange 72).filter fun c => c.val / 8 == n

/-- A load is refused, recorded in the cluster's page (R371, R372, R375, R376). -/
def State.refuseLoad (s : State) (c : Cmd) (n code info status : Nat) : State :=
  ((s.pulse (clusterPage n) Ev.CLUSTER.LOAD_REFUSED).record (clusterPage n) code info c.fn).completeAdmin c status

/-- A checked load: its cores are parked (R373). -/
def State.startLoad (s : State) (c : Cmd) (n : Nat) (img : Bytes) : State :=
  let t : State := { s with mcLoad := some ⟨n, none, img, 2, false⟩ }
  ((clusterCores n).foldl (fun t k => t.parkCore k .load) t).await c .microcode

/-- MICROCODE_LOAD (R370-R375, R469). -/
def execMicrocodeLoad (c : Cmd) (cluster : BitVec 4) (len : Nat) (data : Bytes) (s : State) : Out :=
  let n := cluster.toNat
  let o := Origin.pcie c.fn
  let words := 320 + 16 * mcWords data
  let log := fun (refused : Bool) => s.auditVendor o 0xC6 [n, len] refused
  if !s.adminReady c.fn then .next s
  else if !isPf c.fn then .next (s.completeAdmin c Nv.badOpcode)
  else if !s.holds o .installer then .next (s.completeAdmin c Nv.role)
  else if n = 0 ∨ 8 < n then .next ((log true).completeAdmin c Nv.badField)
  else if s.updating || s.mcLoad.isSome then .next ((log true).refuseLoad c n E.MICROCODE_BUSY 0 Nv.held)
  else if len ≠ words ∨ len ≠ dptrLen c.dptr ∨ data.length ≠ len then .next ((log true).completeAdmin c Nv.length)
  else match mcBad data with
    | some b => .next ((log true).refuseLoad c n E.MICROCODE_IMAGE_BAD b Nv.badField)
    | none =>
      if sliceBytes data 16 32 ≠ sha256 (mcCovered data) then .next ((log true).refuseLoad c n E.MICROCODE_FINGERPRINT 0 Nv.table)
      else .next ((log false).startLoad c n data)

/-- MICROCODE_CLUSTER_PARKED (R373): the table and the store are written. -/
def execMicrocodeClusterParked (s : State) : Out :=
  match s.mcLoad with
  | none => .next s
  | some m =>
    if m.phase ≠ 2 then .next s
    else .next { s.writeCluster m.cluster m.image with mcLoad := some { m with phase := 4 } }

/-- A core's running program needs a decode table other than the cluster's (R374). -/
def Core.mismatched (k : Core) (fp : Bytes) : Bool :=
  match k.prog with
  | some p => p.ended.isNone && p.needs && p.fingerprint != fp
  | none => false

/-- Programs that the new table does not suit stop, each counted once (R374, R376). -/
def State.stopMismatched (s : State) (n : Nat) : State :=
  let fp := (s.cluster n).fingerprint
  let hit := (clusterCores n).filter fun c => (s.cores[c]).mismatched fp
  let progs := (hit.filterMap fun c => (s.cores[c]).prog.map (·.cmd)).eraseDups
  let t := hit.foldl (fun t c => t.stopProgram c { t.cores[c] with parkers := [] } (t.cores[c]).pc) s
  if progs.isEmpty then t
  else ((t.bump (R.CLUSTER.PROGRAMS_STOPPED_COUNT n) progs.length).pulse (clusterPage n) Ev.CLUSTER.PROGRAMS_STOPPED).record (clusterPage n)
    E.MICROCODE_PROGRAMS_STOPPED 0

/-- The load ends: mismatched programs stop, the other cores resume, the command completes, and image loads that waited are
checked (R373, R374). -/
def State.endLoad (s : State) (n status : Nat) : State :=
  let t := s.stopMismatched n
  let t := (clusterCores n).foldl (fun t c => t.resumeCore c .load) { t with mcLoad := none }
  let t := t.wake (· == .microcode) status
  let late := t.host.waiting.filterMap fun w => match w.2 with | .program slot d => some (w.1, slot, d) | _ => none
  let t := t.setHost fun h => { h with waiting := h.waiting.filter fun w => match w.2 with | .program _ _ => false | _ => true }
  late.foldl (fun t w => t.loadProgram w.1 w.2.1 w.2.2) t

/-- MICROCODE_RECHECK (R373-R375): the fingerprint recomputed over what was written. -/
def execMicrocodeRecheck (written : Bytes) (s : State) : Out :=
  match s.mcLoad with
  | none => .next s
  | some m =>
    let n := m.cluster
    if m.phase ≠ 4 then .next s
    else if sha256 written = sliceBytes m.image 16 32 then
      let t := s.keepCluster n (if bitAt (leNat (sliceBytes m.image 10 2)) 0 then some m.image else none)
      let t := (t.bump (R.CLUSTER.LOADS_COUNT n)).pulse (clusterPage n) Ev.CLUSTER.LOAD_DONE
      .next (t.endLoad n Nv.ok)
    else if m.again = false then .next { s.writeCluster n m.image with mcLoad := some { m with again := true } }
    else .next (((s.clearCluster n).record (clusterPage n) E.MICROCODE_WRITE_FAIL 0).endLoad n Nv.internal)

end Sys2Proof.Machine
end

