-- ==== Sys2Proof/Machine/DramBase.lean ====
section
/-!
DEFINITION. DRAM channels: live capacity, retirement, and what is done about lost data (R213, R214, R532-R544).
-/

namespace Sys2Proof.Machine

/-- Page of a DRAM channel. -/
def dramPage (c : Nat) : Nat := 0xA0 + c

/-- State of a DRAM channel (R542). -/
def State.dramState (s : State) (c : Nat) : Nat := s.get (R.DRAM.CH_STATUS_STATE c)

/-- ERR_INFO of DRAM conditions (R544). -/
def dramInfo (ch sub rank kind addr : Nat) : Nat :=
  ch % 4 + sub % 2 * 4 + rank % 2 * 8 + kind % 16 * 16 + bits addr 14 24 * 256

/-- LIVE and LIVE_GIB follow the channels in service (R543). -/
def State.showDram (s : State) : State :=
  let live := (List.range 4).filter fun c => s.dramState c == 2 || s.dramState c == 3
  s.puts [(R.DRAMC.LIVE_MASK, live.foldl (fun v c => v + 2 ^ c) 0),
    (R.DRAMC.LIVE_GIB_GIB, (live.map fun c => s.get (R.DRAM.CONFIG_GIB c)).foldl (· + ·) 0)]

/-- TENANT.DRAM_POOL is recomputed (R488, R540): what of live DRAM the spec leaves to tenants is open (log entry 71). -/
def State.poolDram (s : State) : State :=
  let room := (1024 * s.get R.DRAMC.LIVE_GIB_GIB - s.leeShare) / 64
  let f := s.fresh
  f.2.put R.TENANT.DRAM_POOL_MIB (64 * (f.1 % (room + 1)))

/-- Capacity of the block namespaces in GB, rounded up. -/
def State.blockGB (s : State) : Nat :=
  ceilDiv (((s.ns.filter (·.kind == .block)).map fun n => n.nsze * 4096).foldl (· + ·) 0) 1000000000

/-- The block map becomes demand-paged: the pages that DRAM has room for stay resident (R214; log entry 39). -/
def State.pageMap (s : State) : State :=
  if s.bit R.MEDIA.MEDIA_STATUS_MAP_PAGED then s
  else
    let ps := ((s.media.image.map.map fun x => s.mapPageOf x.1.1 x.1.2).eraseDups).filter fun p => !s.nsIsTake (p / 2 ^ 32)
    let keep := (ps.zipIdx.filter fun x => decide (x.2 < s.mapRoom) || (assoc s.media.dirty x.1).isSome).map (·.1)
    (((s.put R.MEDIA.MEDIA_STATUS_MAP_PAGED 1).setMedia fun m => { m with resident := keep }).pulse 0x60 Ev.MEDIA.MAP_PAGED).mediaErr
      E.MEDIA_MAP_PAGED 0

/-- A channel is retired (R539, R540): allocation stops, the contract and the pools are computed again and evacuation begins. -/
def State.retireDram (s : State) (c cause : Nat) : State :=
  if s.dramState c ≠ 2 ∧ s.dramState c ≠ 3 ∧ s.dramState c ≠ 1 then s
  else
    let t := (s.puts [(R.DRAM.CH_STATUS_STATE c, 5), (R.DRAM.CH_STATUS_RETIRE_CAUSE c, cause), (H.RETIRED (dramPage c), 1)]).showDram
    let t := ((t.pulse (dramPage c) Ev.DRAM.RETIRED).pulse 0xA4 Ev.DRAMC.RETIREMENT).record (dramPage c) E.DRAM_CHANNEL_RETIRED
      (dramInfo c 0 0 0 0)
    let t := t.recompute.poolDram
    let t := if t.blockLimit < t.blockGB then t.pageMap else t
    if 2 ≤ t.liveDram then t else ((t.record 0xA4 E.DRAM_TOO_FEW (dramInfo c 0 0 0 0)).pageMap).enterSafe 5

/-- Times still within a span of now. -/
def within (time span : Nat) (l : List Nat) : List Nat := l.filter fun x => decide (time < x + span)

/-- Change what the controller remembers of a channel's uncorrectable bursts: those of the last 1 s (R539). -/
def State.noteUe (s : State) (c : Nat) : State :=
  { s with dram := { s.dram with ues := modAt s.dram.ues c fun l => s.time :: within s.time 1000000000 l } }

/-- Change what the controller remembers of a channel's replays: those of the last 1 ms (R538). -/
def State.noteReplay (s : State) (c : Nat) : State :=
  { s with dram := { s.dram with replays := modAt s.dram.replays c fun l => s.time :: within s.time 1000000 l } }

/-- Change what the controller remembers of DRAM. -/
def State.setDram (s : State) (f : DramSt → DramSt) : State := { s with dram := f s.dram }

/-- Commands are sent to a channel and enter its retry buffer, which keeps the last 64 (R537). -/
def State.sendDram (s : State) (c : Nat) (cs : List DramCmd) : State :=
  s.setDram fun d => { d with retry := modAt d.retry c fun l => (l ++ cs).drop ((l ++ cs).length - 64) }

/-- A channel's parts are in the controller's hands: it is ACTIVE, with an empty retry buffer, and its refresh interval begins. -/
def State.dramUp (s : State) (c : Nat) : State :=
  (s.put (R.DRAM.CH_STATUS_STATE c) 2).setDram fun d =>
    { d with refreshed := modAt d.refreshed c fun _ => s.time, retry := modAt d.retry c fun _ => [] }

/-- Refresh interval in ns that an MR4 indication calls for (R533; log entry 49). -/
def refreshNs (mr4 : Nat) : Nat := if mr4 ≤ 2 then 3900 else 1950

/-- A replay: every command after the last known-good one, issued 50 ns ago or longer, is issued again in order (R537). -/
def State.reissue (s : State) (c : Nat) : State :=
  let again := fun (x : DramCmd) => if x.issued + 50 ≤ s.time then x else { x with issued := s.time }
  s.setDram fun d => { d with retry := modAt d.retry c fun l => l.map again }

/-- Take data is lost (R536): a slice, a free value says which, is written LOST and its frame marked DAMAGED. -/
def State.loseTakeData (s : State) : State :=
  let l := s.take.slices.filter (·.status != .lost)
  let f := s.fresh
  match l[f.1 % l.length]? with
  | none => s
  | some x =>
    let t := (f.2.modSlice x.uid x.idx fun y => { y with status := .lost }).modFrame x.uid fun g => { g with marks := mark g.marks 2 }
    let t := (List.range 12).foldl (fun t i => match (t.lane i).work with
      | .slice u j _ => if u = x.uid ∧ j = x.idx then t.resumeLane i else t
      | .reemit u j => if u = x.uid ∧ j = x.idx then t.resumeLane i else t
      | _ => t) t
    t.dispatchSlices.settle

/-- Write-buffer data is lost (R536): an LBA, a free value says which, reads as unrecovered until it is written again, and the
write it came with is done with it. -/
def State.loseBufferData (s : State) : State :=
  let l := s.media.wbuf
  let f := s.fresh
  match l[f.1 % l.length]? with
  | none => s
  | some w =>
    let t := f.2.setMedia fun m => { m with wbuf := removeFirst (· == w) m.wbuf }
    let t := t.setArray fun a => { a with holes := a.holes.filter (· != (w.nsid, w.lba)) ++ [(w.nsid, w.lba)] }
    let t := ((t.bump R.DRAMC.DATA_LOST_COUNT).pulse 0xA4 Ev.DRAMC.DATA_LOST).record 0xA4 E.DRAM_DATA_LOST (dramInfo 0 0 0 2 0)
    match t.host.cmds.find? fun c => c.x.opcode == 1 && c.x.nsid == w.nsid && decide (ioLba c.x ≤ w.lba)
        && decide (w.lba < ioLba c.x + ioNlb c.x) with
    | some c => t.unitProgrammed ⟨c.x.fn, c.x.sq, c.x.cid⟩
    | none => t

/-- A shadow entry is lost (R394): a free value says which of those written. -/
def State.loseShadow (s : State) : State :=
  let all := (List.range 32).flatMap fun b => (s.bank b).shadow.map fun e => (b, e.1)
  let f := s.fresh
  match all[f.1 % all.length]? with
  | none => s
  | some (b, i) =>
    f.2.loseEnt b i (i * s.bankWidth b)

/-- A resident map page is lost and waits for its reload (R215): a free value says which. -/
def State.loseMapPage (s : State) : State :=
  let ps := ((s.media.image.map.map fun x => s.mapPageOf x.1.1 x.1.2).eraseDups).filter (!s.pageMissing ·)
  let f := s.fresh
  match ps[f.1 % ps.length]? with
  | none => s
  | some p => f.2.setMedia fun m => { m with lostPages := if m.lostPages.contains p then m.lostPages else m.lostPages ++ [p] }

/-- What is done about lost data, by kind (R536). -/
def State.loseData (s : State) (kind addr : Nat) : State :=
  if kind = 0 then s.loseMapPage
  else if kind = 1 then s.loseTakeData
  else if kind = 2 then s.loseBufferData
  else if kind = 3 then s.loseShadow
  else if kind = 5 then
    { s with mem := { s.mem with poison := if s.mem.poison.contains (addr / 64) then s.mem.poison else s.mem.poison ++ [addr / 64] } }
  else s

end Sys2Proof.Machine
end

