-- ==== Sys2Proof/Machine/Dram.lean ====
section
/-!
DEFINITION. DRAM commands: drift, refresh, replay, uncorrectable bursts, scrubbing and evacuation (R532-R540). DRAM_RETIRE stands
with the register rows.
-/

namespace Sys2Proof.Machine

/-- The channel is in use: ACTIVE, or evacuating. -/
def State.dramUsed (s : State) (c : Nat) : Bool := s.dramState c == 2 || s.dramState c == 5

/-- A lane of a channel trained again: its delays are where the new windows lie, which are open but for their least width
(R530, R531). -/
def State.trainLane (s : State) (c i : Nat) : State :=
  let f := s.fresh
  let g := f.2.fresh
  let h := g.2.fresh
  h.2.puts [(R.DRAM.TRAIN_LANE_RD_DQS c i, f.1), (R.DRAM.TRAIN_LANE_WR_DQ c i, g.1), (R.DRAM.TRAIN_LANE_EYE c i, 16 + h.1 % 240)]

/-- A channel trains again with success: the accumulated drift starts afresh. -/
def State.trainAgain (s : State) (c : Nat) : State :=
  (((List.range 10).foldl (fun t i => t.trainLane c i) s).put (R.DRAM.DRIFT_ACCUM c) 0).pulse (dramPage c) Ev.DRAM.TRAINED

/-- DRAM_DRIFT_CHECK (R532): the DQS interval oscillator of each rank is read and delays shift by the drift measured; beyond 12 steps since training the channel is retrained. -/
def execDramDriftCheck (ch : Fin 4) (d : Int) (s : State) : Out :=
  let c := ch.val
  if !s.dramUsed c then .next s
  else
    let s := s.sendDram c (List.replicate (1 + s.get (R.DRAM.CONFIG_RANKS c)) ⟨.modeRead, s.time⟩)
    let acc := signedOf 8 (s.get (R.DRAM.DRIFT_ACCUM c)) + d
    if 12 < acc.natAbs then .next ((s.bump (R.DRAM.DRIFT_RETRAINS c)).trainAgain c)
    else
      let t := (List.range 10).foldl (fun t i => t.put (R.DRAM.TRAIN_LANE_WR_DQ c i)
        (wrapInt 8 ((t.get (R.DRAM.TRAIN_LANE_WR_DQ c i) : Int) + d))) s
      .next (t.put (R.DRAM.DRIFT_ACCUM c) (wrapInt 8 acc))

/-- DRAM_REFRESH (R533): the refresh that is due, at the interval MR4 calls for, and those that were due before it; they pass through
the retry buffer, and MR4 is read again, which says what the parts say (log entry 49). -/
def execDramRefresh (ch : Fin 4) (s : State) : Out :=
  let c := ch.val
  if !s.dramUsed c then .next s
  else
    let last := s.dram.refreshed.getD c 0
    let ivl := refreshNs (s.dram.mr4.getD c 0)
    let n := max 1 ((s.time - last) / ivl)
    let rs := (List.range (min n 64)).map fun i => (⟨.refresh, last + (n - min n 64 + i + 1) * ivl⟩ : DramCmd)
    let t := ({ s with time := max s.time (last + ivl) } : State).sendDram c (rs ++ [⟨.modeRead, last + n * ivl⟩])
    let f := t.fresh
    .next (f.2.setDram fun d => { d with mr4 := modAt d.mr4 c fun _ => f.1 % 8, refreshed := modAt d.refreshed c fun _ => last + n * ivl })

/-- A replay; more than 8 within 1 ms retire the channel (R537-R539). -/
def State.dramReplay (s : State) (c : Nat) : State :=
  if !s.dramUsed c then s
  else
    let t := (((s.reissue c).noteReplay c).bump (R.DRAM.REPLAYS_COUNT c)).pulse (dramPage c) Ev.DRAM.REPLAY
    let n := (t.dram.replays.getD c []).length
    let t := (t.put (R.DRAM.REPLAY_PEAK_COUNT c) (min 15 (max n (t.get (R.DRAM.REPLAY_PEAK_COUNT c))))).record (dramPage c) E.DRAM_CA_REPLAY
      (dramInfo c 0 0 0 0)
    if 8 < n then t.retireDram c 2 else t

/-- DRAM_ALERT (R537-R539). -/
def execDramAlert (ch : Fin 4) (s : State) : Out := .next (s.dramReplay ch.val)

/-- DRAM_UNCORRECTABLE (R536, R539): the subchannel and rank of an address, which the spec does not give, are free. -/
def execDramUncorrectable (ch : Fin 4) (addr : BitVec 64) (kind : BitVec 4) (s : State) : Out :=
  let c := ch.val
  let k := kind.toNat
  if !s.dramUsed c || decide (8 ≤ k) then .next s
  else
    let f := s.fresh
    let rank := if s.bit (R.DRAM.CONFIG_RANKS c) then f.1 / 2 else 0
    let t := ((f.2.noteUe c).bump (R.DRAM.UNCORRECTED_COUNT c)).puts [(R.DRAM.LAST_UE_ADDR_ADDR c, addr.toNat), (R.DRAM.LAST_UE_KIND_KIND c, k)]
    let t := (t.pulse (dramPage c) Ev.DRAM.UNCORRECTABLE).record (dramPage c) E.DRAM_UNCORRECTABLE (dramInfo c f.1 rank k addr.toNat)
    let t := t.loseData k addr.toNat
    .next (if t.get R.DRAMC.UE_LIMIT_BURSTS < (t.dram.ues.getD c []).length then t.retireDram c 3 else t)

/-- DRAM_SCRUB (R535). -/
def execDramScrub (ch : Fin 4) (corrected : Nat) (last : Bool) (s : State) : Out :=
  let c := ch.val
  if !s.dramUsed c then .next s
  else
    let t := if corrected = 0 then s else (s.bump (R.DRAM.CORRECTED_COUNT c) corrected).pulse (dramPage c) Ev.DRAM.CORRECTED
    .next (if last then (t.bump R.DRAMC.SCRUB_PASSES_COUNT).pulse 0xA4 Ev.DRAMC.SCRUB_PASS else t)

/-- DRAM_EVACUATION_DONE (R540). -/
def execDramEvacuationDone (ch : Fin 4) (s : State) : Out :=
  if s.dramState ch.val ≠ 5 then .next s
  else .next ((s.put (R.DRAM.CH_STATUS_STATE ch.val) 6).pulse 0xA4 Ev.DRAMC.EVACUATED)

end Sys2Proof.Machine
end

