-- ==== Sys2Proof/Machine/TrigBase.lean ====
section
/-!
DEFINITION. Triggers as they arrive (R135), and the container of a kept take (R146, R147).
-/

namespace Sys2Proof.Machine

/-- SUMM_GEOMETRY (R150). -/
def E.SUMM_GEOMETRY : Nat := 0x1210

/-- A duration of 0 selects the default. -/
def orDefault (v d : Nat) : Nat := if v = 0 then d else v

/-- A trigger with the TRIG defaults. -/
def State.triggerDefault (s : State) (src tag time : Nat) : State :=
  s.arrive src tag time (s.get R.TRIG.DEFAULT_PRE_MS) (s.get R.TRIG.DEFAULT_POST_MS)

/-- A write of SW_FIRE with FIRE = 1 (R135); SW_EN = 0 accepts none, and counts none as refused (DESIGN CHOICE, log entry 72). -/
def State.swFire (s : State) (tag : Nat) : State :=
  if !s.bit R.TRIG.TRIG_CTRL_SW_EN then s
  else s.arrive 5 tag (s.get R.TRIG.SW_TIME_DTIME) (orDefault (s.get R.TRIG.SW_PRE_MS_MS) (s.get R.TRIG.DEFAULT_PRE_MS))
    (orDefault (s.get R.TRIG.SW_POST_MS_MS) (s.get R.TRIG.DEFAULT_POST_MS))

/-! ### The header of a container -/

/-- What a take header says beside the serial number (R113, R146). -/
structure HeaderVals where
  /-- FLAGS -/
  flags : Nat
  /-- TAKE_ID -/
  takeId : Nat
  /-- DTIME at grant -/
  time : Nat
  /-- RTC at grant -/
  rtc : Nat
  /-- the contract -/
  c : Contract
  /-- DURATION -/
  duration : Nat
  /-- KEY_REF -/
  keyRef : Bytes
  /-- parent ring's TAKE_ID -/
  parent : Nat

/-- The take header (R113). -/
def takeHeader (serial : Bytes) (h : HeaderVals) : Bytes :=
  let b := [0x43, 0x4F, 0x52, 0x4B, 0x54, 0x41, 0x4B, 0x45] ++ leBytes 2 1 ++ leBytes 2 0 ++ leBytes 4 h.flags ++ leBytes 8 h.takeId
    ++ padTo 16 serial ++ leBytes 8 h.time ++ leBytes 8 h.rtc ++ leBytes 1 h.c.tier ++ leBytes 1 h.c.kind ++ leBytes 1 h.c.effort
    ++ leBytes 1 h.c.pred ++ leBytes 1 h.c.alg ++ leBytes 1 h.c.streams ++ leBytes 2 0 ++ leBytes 4 h.c.rate ++ leBytes 2 h.c.minRatio
    ++ leBytes 2 0 ++ leBytes 4 h.duration ++ leBytes 4 h.c.ringGib ++ leBytes 8 h.c.cap ++ leBytes 1 h.c.k ++ leBytes 7 0
    ++ padTo 16 h.keyRef ++ leBytes 8 h.parent
  let h := padTo 4092 b
  h ++ leBytes 4 (crc32c h)

/-- The stream table (R113, R129). -/
def streamTable (c : Contract) (sels : List (List Nat)) : Bytes :=
  padTo 4096 ((List.range 8).flatMap fun n =>
    if bitAt c.streams n then
      padTo 64 (leBytes 1 1 ++ leBytes 1 c.pred ++ leBytes 1 c.effort ++ leBytes 1 (b2n (bitAt c.flags 0)) ++ leBytes 4 0
        ++ (sels.getD n []).flatMap (leBytes 4))
    else List.replicate 64 0)

/-! ### Kept takes -/

/-- A record header's CRC holds (R114). -/
def headOk (h : Bytes) : Bool := leNat (sliceBytes h 60 4) == crc32c (h.take 60)

/-- The records in a stretch of container bytes: offset and bytes. Where a lost unit has taken a header, the next one is looked for at
64-byte boundaries (R114, R277). The fuel bounds their number. -/
def recordsIn : Nat → Nat → Bytes → List (Nat × Bytes)
  | 0, _, _ => []
  | f + 1, off, bs =>
    if bs.length < 64 then []
    else if !headOk bs then recordsIn f (off + 64) (bs.drop 64)
    else
      let n := 64 + leNat (sliceBytes bs 4 4)
      let step := n + (64 - n % 64) % 64
      (off, bs.take n) :: recordsIn f (off + step) (bs.drop step)

/-- RTYPE and stream of a record. -/
def recType (r : Bytes) : Nat := (r.getD 0 0).toNat
/-- Stream of a record. -/
def recStream (r : Bytes) : Nat := (r.getD 1 0).toNat % 8

/-- The records of one pinned frame: those of its stream from its first record to its FRAME record (R115, R140). -/
def State.frameRecords (s : State) (n : Ns) (f : Nat × Nat × Nat) : List (Nat × Bytes) × State :=
  match s.readTake n f.1 (f.2.2 - f.1) with
  | (none, t) => ([], t)
  | (some bs, t) =>
    let rs := recordsIn bs.length f.1 bs
    let st := ((rs.find? fun r => r.1 == f.2.1).map fun r => recStream r.2).getD 8
    (rs.filter fun r => recStream r.2 == st && decide (1 ≤ recType r.2) && decide (recType r.2 ≤ 4), t)

/-- Insert records by offset, none twice. -/
def insertRec (r : Nat × Bytes) : List (Nat × Bytes) → List (Nat × Bytes)
  | [] => [r]
  | x :: xs => if r.1 < x.1 then r :: x :: xs else if r.1 = x.1 then x :: xs else x :: insertRec r xs

/-- A container under construction. -/
structure Bld where
  /-- bytes so far -/
  cont : Bytes
  /-- frames for the next INDEX -/
  index : List IndexRow
  /-- last INDEX -/
  lastIndex : Nat
  /-- chunk digests listed -/
  listed : Nat
  /-- new offsets of copied records, by old offset -/
  moved : List (Nat × Nat)
  /-- key of the last SUMMARY, by stream -/
  keys : List (Nat × List Nat)
  /-- frame-index spans: offset of the INDEX and its frames -/
  spans : List (Nat × List (Nat × List Nat))
  /-- FRAMES, RAW_BYTES, MARKED -/
  counts : Nat × Nat × Nat

/-- Append bytes and zeros up to the next multiple of 64. -/
def Bld.raw (b : Bld) (bs : Bytes) : Bld :=
  let n := b.cont.length + bs.length
  { b with cont := b.cont ++ bs ++ List.replicate ((64 - n % 64) % 64) 0 }

/-- Append an INDEX record. -/
def Bld.addIndex (alg : Nat) (b : Bld) : Bld :=
  let off := b.cont.length
  let r := indexRecord alg b.cont b.index b.lastIndex b.listed
  { (b.raw r.1) with index := [], lastIndex := off, listed := r.2,
                     spans := b.spans ++ [(off, b.index.map fun x => (x.capture, x.key))] }

/-- Copy one record; a FRAME record's first-record offset and CRC are rewritten (R147). -/
def Bld.copy (alg : Nat) (b : Bld) (r : Nat × Bytes) : Bld :=
  let b := if b.lastIndex / 2 ^ 30 < b.cont.length / 2 ^ 30 then b.addIndex alg else b
  let off := b.cont.length
  let b := { b with moved := b.moved ++ [(r.1, off)] }
  let st := recStream r.2
  if recType r.2 = 4 then
    let old := leNat (sliceBytes r.2 48 8)
    let h := overlay (r.2.take 60) 48 (leBytes 8 ((assoc b.moved old).getD off))
    let marks := leNat (sliceBytes r.2 37 1)
    let row : IndexRow := ⟨leNat (sliceBytes r.2 8 8), leNat (sliceBytes r.2 16 8), off, st, marks, (assoc b.keys st).getD []⟩
    { (b.raw (h ++ leBytes 4 (crc32c h) ++ r.2.drop 64)) with
      index := b.index ++ [row]
      counts := (b.counts.1 + 1, b.counts.2.1 + leNat (sliceBytes r.2 32 5), b.counts.2.2 + b2n (marks != 0)) }
  else
    let b := if recType r.2 = 2 then
        { b with keys := assocSet b.keys st ((List.range 8).map fun j => leNat (sliceBytes r.2 (64 + 1568 + 4 * j) 4)) }
      else b
    b.raw r.2

/-- Final INDEX, MANIFEST and trailer (R116-R118): the finished container. -/
def Bld.finish (b : Bld) (takeId reason alg time : Nat) : Bld :=
  let idx := b.cont.length
  let b := b.addIndex alg
  let man := b.cont.length
  let m := manifest alg b.cont man
  let b := b.raw (m.1 ++ m.2)
  let cont := b.cont ++ List.replicate ((4096 - b.cont.length % 4096) % 4096) 0
  let top := digest (DigestAlg.ofCode alg) m.2
  { b with cont := cont ++ trailerBytes takeId reason alg b.counts.1 b.counts.2.1 (cont.length + 4096) b.counts.2.2 man idx time top }

/-- Hand the units of a kept take to stripes, from a byte on, while groups can open. The fuel is their number. -/
def State.placeKept (key : Bytes) (nsid : Nat) (cont : Bytes) : Nat → Nat → State → Nat × State
  | 0, p, s => (p, s)
  | f + 1, p, s =>
    if cont.length < p + 4096 ∨ s.readyPipes.isEmpty then (p, s)
    else
      match s.placeUnit .take nsid nsid 2 (p / 4096) 0 (xtsCrypt true key (p / 4096) (sliceBytes cont p 4096)) none with
      | none => (p, s)
      | some t => State.placeKept key nsid cont f (p + 4096) (t.mediaBytes 4096)

/-- Continue the copy of a slot; a copy wholly handed over has its last stripe padded, and one that finds no erased block waits, which the
pool shows (R239). -/
def State.copyKept (s : State) (slot : Nat) : State :=
  match s.trig.copies.find? (·.1 == slot), s.nsOf (s.win slot).nsid with
  | some x, some n =>
    match s.mediaKey n.keyRec n.keySeq with
    | (none, t) => t
    | (some key, t) =>
      let r := State.placeKept key n.nsid x.2.1 ((x.2.1.length - x.2.2) / 4096) x.2.2 t
      let t := r.2.setTrig fun k => { k with copies := k.copies.map fun y => if y.1 == slot then (y.1, y.2.1, r.1) else y }
      if r.1 = x.2.1.length then (if x.2.2 < x.2.1.length then t.padStripe .take n.nsid else t)
      else if t.readyPipes.isEmpty then t.mediaStall
      else t.noPlace .take n.nsid
  | _, _ => s

end Sys2Proof.Machine
end

