-- ==== Sys2Proof/Machine/HostIo.lean ====
section
/-!
DEFINITION. The I/O commands of the host (R219, R251, R252, R457, R470-R474, R478).
-/

namespace Sys2Proof.Machine

/-- A fetched command of an opcode that may start. -/
def State.readyCmd (s : State) (k : CmdKey) (op : Nat) : Option HCmd :=
  (s.hcmd k).bind fun c => if c.phase == .ready && c.x.opcode == op then some c else none

/-- Run a block or take command after its checks; one that needs a lost map page waits (R215). -/
def State.ioRun (s : State) (k : CmdKey) (op : Nat) (wr data : Bool) (go : State → HCmd → Ns → State) : Out :=
  match s.readyCmd k op with
  | none => .next s
  | some c =>
    match s.ioCheck c.x wr (ioLba c.x) (ioNlb c.x), s.ioNs c.x with
    | 0, some n => .next (if data && ioShort c.x (4096 * ioNlb c.x) then s.completeCmd k Nv.badField
        else if s.pageLost n.nsid (ioLba c.x) (ioNlb c.x) then s else go s c n)
    | st, _ => .next (s.completeCmd k st)

/-- READ (R457). -/
def execRead (k : CmdKey) (s : State) : Out :=
  s.ioRun k 2 false true fun s c n => s.startReads k [(n.nsid, ioLba c.x, ioNlb c.x)]

/-- COMPARE (R457). -/
def execCompare (k : CmdKey) (s : State) : Out :=
  s.ioRun k 5 false true fun s c n => s.startReads k [(n.nsid, ioLba c.x, ioNlb c.x)]

/-- VERIFY (R457). -/
def execVerify (k : CmdKey) (s : State) : Out :=
  s.ioRun k 0x0C false false fun s c n => s.startReads k [(n.nsid, ioLba c.x, ioNlb c.x)]

/-- Place every LBA of a write at once; none where one finds no erased block (R219, R239). -/
def State.writeThrough (key : Bytes) (k : CmdKey) (use : GroupUse) (nsid : Nat) : List (Nat × Bytes) → State → Option State
  | [], s => some s
  | (lba, d) :: rest, s =>
    match s.placeUnit use 0 nsid 1 lba 0 (xtsCrypt true key lba d) (some k) with
    | none => none
    | some t => State.writeThrough key k use nsid rest ((t.mediaBytes 4096).setImage fun i => { i with hostBytes := i.hostBytes + 4096 })

/-- WRITE (R219, R239): with hold-up it completes from the 64 MiB write buffer and keeps its lock; without, its units are placed
and it completes when they have been programmed. A full buffer or an empty pool makes it wait. -/
def execWrite (k : CmdKey) (s : State) : Out :=
  s.ioRun k 1 true true fun s c n =>
    let lba := ioLba c.x
    let cnt := ioNlb c.x
    let ds := (chunks 4096 (s.fromHost c.x.fn c.x.dptr (4096 * cnt))).zipIdx.map fun x => (lba + x.2, x.1)
    if 50 ≤ s.get R.TAKE.HOLDUP_HOLDUP_MS then
      if 16384 < s.media.wbuf.length + cnt then s
      else
        let t := s.setMedia fun m => { m with wbuf := m.wbuf ++ ds.map fun x => ⟨n.nsid, x.1, x.2, 4096 * cnt⟩ }
        (((t.modCmd k fun h => { h with left := cnt }).hostActive).completeCmd k Nv.ok 0 0 true)
    else
      if s.readyPipes.isEmpty then s.mediaStall
      else match s.mediaKey n.keyRec n.keySeq with
      | (none, t) => t.completeCmd k Nv.keys
      | (some key, t) =>
        let use := t.writeUse (4096 * cnt)
        match State.writeThrough key k use n.nsid ds (t.modCmd k fun h => { h with left := cnt, phase := .running }) with
        | none => s.noPlace use 0
        | some v => (v.padStripe use 0).hostActive

/-- FLUSH (R219): it completes at once. -/
def execFlush (k : CmdKey) (s : State) : Out :=
  match s.readyCmd k 0 with
  | none => .next s
  | some c =>
    match s.ioNs c.x with
    | none => .next (s.completeCmd k Nv.badNs)
    | some _ => .next (s.completeCmd k (if s.offline then Nv.offline else Nv.ok))

/-- Set the entries of a run of LBAs to zeroes (R252): the ZEROES record and its SEQ, which the entries carry, so that a copy that was
read before it does not come back (R220); placed units of the run that are not mapped yet are pads. -/
def State.zeroRun (s : State) (nsid : Nat) (r : Nat × Nat) : State :=
  let q := s.media.seq
  let hit := fun (l : Nat) => decide (r.1 ≤ l) && decide (l < r.1 + r.2)
  let t := (List.range r.2).foldl (fun t i =>
    (t.setImage fun m => { m with map := assocSet m.map (nsid, r.1 + i) (.zeroes q) }).dirtyPage nsid (r.1 + i)) s
  let t := t.cancelWhere fun u => u.kind == 1 && u.nsid == nsid && hit u.logical
  let t := t.setArray fun a => { a with holes := a.holes.filter fun x => !(x.1 == nsid && hit x.2) }
  (t.setMedia fun m => { m with
    hints := m.hints.filter fun h => !(h.1.1 == nsid && hit h.1.2)
    wbuf := m.wbuf.filter fun w => !(w.nsid == nsid && hit w.lba) }).journal 0x04 r.2 nsid r.1 (0, 0)

/-- Set a range of LBAs to zeroes, in runs of at most 65,535 (R223, R252). -/
def State.zeroRange (s : State) (nsid lba count : Nat) : State :=
  (runsOf (count / 65535 + 1) lba count).foldl (fun t r => t.zeroRun nsid r) s

/-- WRITE_ZEROES (R219, R252): without hold-up it completes once its ZEROES record is durable, so that the zeroes outlive a loss of
power. -/
def execWriteZeroes (k : CmdKey) (s : State) : Out :=
  s.ioRun k 8 true false fun s c n =>
    let t := (s.zeroRange n.nsid (ioLba c.x) (ioNlb c.x)).hostActive
    if 50 ≤ t.get R.TAKE.HOLDUP_HOLDUP_MS then t.completeCmd k Nv.ok
    else (t.modCmd k fun h => { h with phase := .running, left := 1 }).setMedia fun m => { m with zeroWaits := m.zeroWaits ++ [(k, t.media.seq - 1)] }

/-- The ranges of a Dataset Management command: first LBA and LBAs. -/
def State.dsmRanges (s : State) (x : IoCmd) : List (Nat × Nat) :=
  let n := x.cdw10 % 256 + 1
  let bs := s.fromHost x.fn x.dptr (16 * n)
  (List.range n).map fun i => (leNat (sliceBytes bs (16 * i + 8) 8), leNat (sliceBytes bs (16 * i + 4) 4))

/-- Deallocate a range: its entries are unmapped, those of units that a write hole has taken as well; what they named may still be read
(R251). -/
def State.deallocate (s : State) (nsid : Nat) (r : Nat × Nat) : State :=
  let hit := fun (x : Nat × Nat) => x.1 == nsid && decide (r.1 ≤ x.2) && decide (x.2 < r.1 + r.2)
  let old := s.media.image.map.filter fun x => hit x.1
  let t := old.foldl (fun t x => t.unmapUnit x.1.1 x.1.2) s
  let t := (t.setMedia fun m => { m with hints := m.hints.filter (fun h => !hit h.1) ++ old }).cancelWhere fun u =>
    u.kind == 1 && hit (u.nsid, u.logical)
  (t.setArray fun a => { a with holes := a.holes.filter (!hit ·) }).journalRuns 0x03 nsid r.1 r.2

/-- DATASET_MANAGEMENT (R251): only Deallocate acts. -/
def execDatasetManagement (k : CmdKey) (s : State) : Out :=
  match s.readyCmd k 9 with
  | none => .next s
  | some c =>
    let rs := s.dsmRanges c.x
    match s.ioNs c.x, s.ioCheck c.x true 0 0 with
    | some n, 0 =>
      if rs.any fun r => decide (n.nsze < r.1 + r.2) then .next (s.completeCmd k Nv.outOfRange)
      else if rs.any fun r => s.pageLost n.nsid r.1 r.2 then .next s
      else if !bitAt c.x.cdw11 2 then .next (s.completeCmd k Nv.ok)
      else .next ((rs.foldl (fun t r => t.deallocate n.nsid r) s).hostActive.completeCmd k Nv.ok)
    | _, st => .next (s.completeCmd k (if st = 0 then Nv.badNs else st))

/-! ### Frames -/

/-- The container bytes of a take that may be read, zeros where a unit is released or cannot be read (R133), and the units that a
write hole has taken (R277). -/
def State.containerOf (s : State) (n : Ns) : Bytes × List Nat × State :=
  match (s.aheadOf n.nsid 0 n.nuse).mediaKey n.keyRec n.keySeq with
  | (none, t) => ([], [], t)
  | (some key, t) => (List.range n.nuse).foldl (fun (p : Bytes × List Nat × State) u =>
      match p.2.2.readPlain key n.nsid u with
      | (some b, v) => (p.1 ++ b, p.2.1, v)
      | (none, v) => (p.1 ++ zeroPiece, if v.array.holes.contains (n.nsid, u) then p.2.1 ++ [u] else p.2.1, v)) ([], [], t)

/-- A stretch of a container touches lost units. -/
def lostIn (l : List Nat) (off len : Nat) : Bool := l.any fun u => decide (4096 * u < off + len) && decide (off < 4096 * (u + 1))

/-- FRAME records named by the chain of INDEX records that ends at an offset, in container order. The fuel bounds the chain. -/
def indexChain (cont : Bytes) : Nat → Nat → List Nat
  | 0, _ => []
  | f + 1, off =>
    let h := sliceBytes cont off 64
    if off = 0 ∨ recType h ≠ 5 then []
    else
      let n := descN h 16 4
      indexChain cont f (descN h 24 8) ++ (List.range n).map fun i => leNat (sliceBytes cont (off + 64 + 32 * i + 16) 8)

/-- Offsets of the FRAME records of a take in container order: by its INDEX records once it has a trailer, else record by
record. -/
def frameOffsets (cont : Bytes) : List Nat :=
  let tr := sliceBytes cont (cont.length - 4096) 4096
  if tr.take 8 = [0x43, 0x4F, 0x52, 0x4B, 0x54, 0x45, 0x4E, 0x44] then indexChain cont cont.length (descN tr 64 8)
  else ((recordsIn cont.length 8192 (cont.drop 8192)).filter fun r => recType r.2 == 4).map (·.1)

/-- A record of a container. -/
def recAt (cont : Bytes) (off : Nat) : Bytes :=
  let h := sliceBytes cont off 64
  sliceBytes cont off (64 + descN h 4 4)

/-- The FRAME record that a command names: the OCCURRENCE-th of its number and stream that no released segment touches. -/
def findFrame (n : Ns) (cont : Bytes) (number stream occ : Nat) : Option Nat :=
  (frameOffsets cont).filter (fun off =>
    let r := recAt cont off
    recType r == 4 && descN r 8 8 == number && recStream r == stream && decide (off + r.length ≤ cont.length)
      && !(segsOf (descN r 48 8) (off + r.length)).any n.released.contains) |>.getD occ 0 |> fun off =>
    if off = 0 then none else some off

/-- The raw bytes that a frame's slices hold in a range, zeros where they are LOST, the number of LOST slices there, and none where a
slice's CRC fails (R277, R472). Slices come with their offsets. -/
def rawRange (cfa lo hi : Nat) (lost : List Nat) : List (Nat × Bytes) → Option (Bytes × Nat)
  | [] => some (List.replicate (hi - lo) 0, 0)
  | (off, r) :: rs =>
    match rawRange cfa lo hi lost rs with
    | none => none
    | some (acc, l) =>
      let a := descN r 24 5
      let n := descN r 32 4
      if a + n ≤ lo ∨ hi ≤ a then some (acc, l)
      else if bitAt (descN r 20 4) 3 || lostIn lost off r.length then some (acc, l + 1)
      else match unSlice cfa r with
        | .ok out _ _ =>
          let p := (out.take (hi - a)).drop (lo - a)
          let at_ := max a lo - lo
          some (acc.take at_ ++ p ++ acc.drop (at_ + p.length), l)
        | .fail _ => none

/-- Completion DW1 of FRAME READ (R471). -/
def frameDw1 (r : Bytes) (lost : Nat) : Nat := descN r 37 1 + descN r 31 1 * 2 ^ 8 + min lost 65535 * 2 ^ 16

/-- FRAME_READ (R470-R472). -/
def execFrameRead (k : CmdKey) (s : State) : Out :=
  match s.readyCmd k 0x82 with
  | none => .next s
  | some c =>
    let x := c.x
    let part := bits x.cdw12 8 3
    let off := x.cdw13 + x.cdw14 % 256 * 2 ^ 32
    let len := x.cdw15 % 2 ^ 27
    match s.ioNs x with
    | none => .next (s.completeCmd k Nv.badNs)
    | some n =>
      if n.kind ≠ .take then .next (s.completeCmd k Nv.badOpcode)
      else if s.offline then .next (s.completeCmd k Nv.offline)
      else if s.keys.kekMedia.isNone then .next (s.completeCmd k Nv.keys)
      else if 3 < part ∨ len = 0 ∨ 67108864 < len then
        .next (s.completeCmd k Nv.badField)
      else if dptrLen x.dptr < len then .next (s.completeCmd k Nv.length)
      else if part = 0 ∧ !((List.range 12).any fun l => s.laneLive l && !s.laneReserved l) then .next s
      else if s.pageLost n.nsid 0 n.nuse then .next s
      else if (s.aheadOf n.nsid 0 n.nuse).resyncFirst n.nsid 0 n.nuse then .next (s.aheadOf n.nsid 0 n.nuse)
      else if s.readyPipes.isEmpty then .next s.mediaStall
      else
        let (cont, bad, t) := s.containerOf n
        match findFrame n cont (x.cdw10 + x.cdw11 * 2 ^ 32) (x.cdw12 % 8) (x.cdw12 / 2 ^ 16) with
        | none => .next (t.completeCmd k Nv.frameNotFound)
        | some fo =>
          let fr := recAt cont fo
          let st := recStream fr
          let first := descN fr 48 8
          let rs := (recordsIn cont.length first ((cont.take fo).drop first)).filter fun r => recStream r.2 == st
          let one := fun (ty : Nat) => rs.find? fun r => recType r.2 == ty
          let body := fun (ty : Nat) => match one ty with
            | some r => if lostIn bad r.1 r.2.length then none else some (r.2.drop 64)
            | none => none
          let size := fun (ty : Nat) => match one ty with | some r => r.2.length - 64 | none => 0
          let whole := if part = 0 then descN fr 32 5 else if part = 1 then size 2 else if part = 2 then size 3 else fr.length
          if lostIn bad fo fr.length || (part != 0 && part != 3 && whole == 0 && lostIn bad first (fo - first)) then
            .next (t.completeCmd k Nv.unrecovered)
          else if whole ≤ off then .next (t.completeCmd k Nv.badField)
          else
            let m := min len (whole - off)
            let sl := rs.filter fun r => recType r.2 == 1
            let gone := if sl.length < descN fr 44 4 && lostIn bad first (fo - first) then descN fr 44 4 - sl.length else 0
            let out := if part = 0 then (rawRange (descN fr 30 1) off (off + m) bad sl).map fun r => (r.1, r.2 + gone)
              else if part = 1 then (body 2).map fun b => (sliceBytes b off m, 0)
              else if part = 2 then (body 3).map fun b => (sliceBytes b off m, 0)
              else some (sliceBytes fr off m, 0)
            match out with
            | none => .next (t.completeCmd k Nv.unrecovered)
            | some (bs, lost) => .next (((t.toHost x.fn x.dptr bs).hostActive).completeCmd k Nv.ok m (frameDw1 fr lost))

/-! ### Engine jobs -/

/-- Hand a descriptor of the data pointer to an engine (R473); with 1,024 Shears jobs pending a further one waits in its queue
(R179). -/
def State.engineCmd (s : State) (k : CmdKey) (op engine : Nat) : Out :=
  match s.readyCmd k op with
  | none => .next s
  | some c =>
    match s.ioNs c.x with
    | none => .next (s.completeCmd k Nv.badNs)
    | some n =>
      if n.kind ≠ .compute ∨ n.nsid ≠ 0x400 + k.fn then .next (s.completeCmd k Nv.badNs)
      else if s.offline then .next (s.completeCmd k Nv.offline)
      else if dptrLen c.x.dptr < 64 then
        .next (s.completeCmd k Nv.badField)
      else
        let d := s.fromHost k.fn c.x.dptr 64
        let t := (s.modCmd k fun h => { h with phase := .running }).hostActive
        if engine = 0 ∧ 1024 ≤ (s.jobs.queue.filter (·.engine == 0)).length then .next s
        else .next (t.submitJob (.host k.fn) engine k.fn d none (some k))

/-- EARMARK_SEARCH (R473). -/
def execEarmarkSearch (k : CmdKey) (s : State) : Out := s.engineCmd k 0x87 1

/-- SHEARS_JOB (R473). -/
def execShearsJob (k : CmdKey) (s : State) : Out := s.engineCmd k 0x8B 0

/-- DIGEST_JOB (R473). -/
def execDigestJob (k : CmdKey) (s : State) : Out := s.engineCmd k 0x8F 2

/-! ### Subsystem Local Memory -/

/-- Run a command on the function's own memory namespace (R478). -/
def State.slmRun (s : State) (k : CmdKey) (go : State → HCmd → Nat → Nat → State) : Out :=
  match s.hcmd k with
  | none => .next s
  | some c =>
    if c.phase ≠ .ready then .next s
    else match s.ioNs c.x with
      | none => .next (s.completeCmd k Nv.badNs)
      | some n =>
        if n.kind ≠ .memory then .next s
        else if s.offline then .next (s.completeCmd k Nv.offline)
        else match s.slmBase c.x with
          | none => .next (s.completeCmd k Nv.badNs)
          | some b => .next (go s c b.1 b.2)

/-- MEMORY_READ (R16, R478): CDW12 bytes from the byte CDW10-11 name (log entry 67), through the XLATE entries of the function. -/
def execMemoryRead (k : CmdKey) (s : State) : Out :=
  s.slmRun k fun s c base size =>
    let a := slmByte c.x
    let n := c.x.cdw12
    if size < a + n then s.completeCmd k Nv.outOfRange
    else if ioShort c.x n then s.completeCmd k Nv.badField
    else if s.mem.poisoned .dram (base + a) n then s.completeCmd k Nv.unrecovered
    else match s.xread k.fn (slmVa + a) n with
      | .error x => (s.xlateFault k.fn x 0 false false true).completeCmd k Nv.dataError
      | .ok bs => ((s.toHost k.fn c.x.dptr bs).hostActive).completeCmd k Nv.ok

/-- MEMORY_WRITE (R16, R478). -/
def execMemoryWrite (k : CmdKey) (s : State) : Out :=
  s.slmRun k fun s c _ size =>
    let a := slmByte c.x
    let n := c.x.cdw12
    if size < a + n then s.completeCmd k Nv.outOfRange
    else if ioShort c.x n then s.completeCmd k Nv.badField
    else match s.xwrite k.fn (slmVa + a) (s.fromHost k.fn c.x.dptr n) with
      | .error x => (s.xlateFault k.fn x 0 true false true).completeCmd k Nv.dataError
      | .ok t => t.hostActive.completeCmd k Nv.ok

/-- MEMORY_COPY (R478): the named ranges of block and take namespaces go to the memory namespace in order. -/
def execMemoryCopy (k : CmdKey) (s : State) : Out :=
  s.slmRun k fun s c _ size =>
    let rs := s.copySources c.x
    let total := 4096 * (rs.map (·.2.2)).foldl (· + ·) 0
    let bad := rs.findSome? fun r =>
      let st := s.ioCheck { c.x with nsid := r.1 } false r.2.1 r.2.2
      if st = 0 then none else some st
    match bad with
    | some st => s.completeCmd k st
    | none => if size < slmByte c.x + total then s.completeCmd k Nv.outOfRange
        else if rs.any fun r => s.pageLost r.1 r.2.1 r.2.2 then s else s.startReads k rs

end Sys2Proof.Machine
end

