-- ==== Sys2Proof/Machine/Host.lean ====
section
/-!
DEFINITION. PCIe ports (R444-R446, R485, R500), doorbells (R448), and the fetch sequencer with its range locks (R456-R460).
-/

namespace Sys2Proof.Machine

/-! ### Ports -/

/-- The PF of a port. -/
def portPf : Port → Nat
  | .a => 0 | .b => 0x101

/-- SPEED, WIDTH, FLIT, SRIS and L1_2 of a port's LINK register. -/
def linkFields : Port → Fld × Fld × Fld × Fld × Fld
  | .a => (R.HOSTQ.LINK_A_SPEED, R.HOSTQ.LINK_A_WIDTH, R.HOSTQ.LINK_A_FLIT, R.HOSTQ.LINK_A_SRIS, R.HOSTQ.LINK_A_L1_2)
  | .b => (R.HOSTQ.LINK_B_SPEED, R.HOSTQ.LINK_B_WIDTH, R.HOSTQ.LINK_B_FLIT, R.HOSTQ.LINK_B_SRIS, R.HOSTQ.LINK_B_L1_2)

/-- The event of a port's link. -/
def linkEvent : Port → Nat
  | .a => Ev.HOSTQ.LINK_A_CHANGE | .b => Ev.HOSTQ.LINK_B_CHANGE

/-- ERR_INFO of HOSTQ conditions (R485). -/
def hostqInfo (fn qid : Nat) (port : Port) : Nat := fn % 512 + qid % 4096 * 512 + (match port with | .a => 0 | .b => 2 ^ 21)

/-- PERST# of a port is released. -/
def State.perstHigh (s : State) : Port → Bool
  | .a => s.pwr.perst.1 | .b => s.pwr.perst.2

/-- Set PERST# of a port. -/
def State.setPerst (s : State) (p : Port) (v : Bool) : State :=
  s.setPwr fun x => { x with perst := match p with | .a => (v, x.perst.2) | .b => (x.perst.1, v) }

/-- The port exists in the port mode (R444). -/
def State.portExists (s : State) : Port → Bool
  | .a => true | .b => s.get R.HOSTQ.PORT_CFG_MODE == 1

/-- A port's link register, as one. -/
def State.setLink (s : State) (p : Port) (speed width : Nat) (flit sris l12 : Bool) : State :=
  let f := linkFields p
  s.puts [(f.1, speed), (f.2.1, width), (f.2.2.1, b2n flit), (f.2.2.2.1, b2n sris), (f.2.2.2.2, b2n l12)]

/-- A port is in L0 or L1.2: its link is up. -/
def State.linkUp (s : State) (p : Port) : Bool := s.get (linkFields p).1 != 0

/-- PERST_RELEASE (R444): the port mode is read from OTP, and the port's PF appears, in a boot once the tables that its grants need are in
place (R375, R398, R571). -/
def execPerstRelease (port : Port) (s : State) : Out :=
  let t := (s.setPerst port true).put R.HOSTQ.PORT_CFG_MODE (b2n (s.instFlag 5))
  .next (if t.mayGrant ∧ t.portExists port ∧ (t.fn (portPf port)).isNone then t.createFn (portPf port) else t)

/-- PERST_ASSERT (R485, R500): the link goes down without a report, and the port's functions are reset. -/
def execPerstAssert (port : Port) (s : State) : Out :=
  let up := s.linkUp port
  let t := (s.setPerst port false).setLink port 0 0 false false false
  let t := if up then t.pulse 0xB0 (linkEvent port) else t
  .next (t.resetFn (portPf port))

/-- Lanes of a port at full width (R444). -/
def State.fullWidth (s : State) : Nat := if s.get R.HOSTQ.PORT_CFG_MODE = 1 then 8 else 16

/-- PCIE_LINK_UP (R445, R446): a speed of 1 to 6 as LINK encodes it, a width in lanes. -/
def execPcieLinkUp (port : Port) (speed : BitVec 3) (width : BitVec 5) (flit sris : Bool) (s : State) : Out :=
  let sp := speed.toNat
  let w := width.toNat
  if !s.perstHigh port || !s.portExists port || sp == 0 || sp == 7 || !([1, 2, 4, 8, 16] : List Nat).contains w || decide (s.fullWidth < w) then .next s
  else
    let t := (s.setLink port sp w flit sris false).pulse 0xB0 (linkEvent port)
    .next (if sp < 6 ∨ w < s.fullWidth then t.record 0xB0 E.HOSTQ_LINK_DEGRADED (hostqInfo (portPf port) 0 port) (portPf port) else t)

/-- HOSTQ_LINK_DOWN (R485). -/
def execHostqLinkDown (port : Port) (s : State) : Out :=
  if !s.linkUp port then .next s
  else
    let t := (s.setLink port 0 0 false false false).pulse 0xB0 (linkEvent port)
    .next (t.record 0xB0 E.HOSTQ_LINK_DOWN (hostqInfo (portPf port) 0 port) (portPf port))

/-- ASPM_L1_2_ENTRY (R445, R484). -/
def execAspmL12Entry (port : Port) (s : State) : Out :=
  if !s.linkUp port || s.get (linkFields port).2.2.2.2 == 1 then .next s
  else .next ((s.put (linkFields port).2.2.2.2 1).pulse 0xB0 (linkEvent port))

/-- ASPM_L1_2_EXIT (R445): in DOZE the exit is a wake instead (R550). -/
def execAspmL12Exit (port : Port) (s : State) : Out :=
  if !s.linkUp port || s.get (linkFields port).2.2.2.2 == 0 || s.mode == 1 then .next s
  else .next ((s.put (linkFields port).2.2.2.2 0).pulse 0xB0 (linkEvent port))

/-! ### Doorbells -/

/-- The port of a function. -/
def portOf (fn : Nat) : Port := if fn = 0x101 then .b else .a

/-- A doorbell write that names no queue or a value at or beyond its size (R448). -/
def State.badDoorbell (s : State) (fn qid info : Nat) : State :=
  ((s.raiseEvent ⟨fn, 0, info, 1⟩).pulse 0xB0 Ev.HOSTQ.BAD_DOORBELL).record 0xB0 E.HOSTQ_BAD_DOORBELL (hostqInfo fn qid (portOf fn)) fn

/-- Drop the first `n` posted entries of a completion queue. -/
def dropCqes (fn cq : Nat) : Nat → List Cqe → List Cqe
  | 0, l => l
  | _, [] => []
  | n + 1, e :: es => if e.fn = fn ∧ e.cq = cq then dropCqes fn cq n es else e :: dropCqes fn cq (n + 1) es

/-- DOORBELL_WRITE (R448). -/
def execDoorbellWrite (fn qid : Nat) (isCq : Bool) (v : Nat) (s : State) : Out :=
  if (s.fn fn).isNone then .next s
  else if isCq then
    match s.cq fn qid with
    | none => .next (s.badDoorbell fn qid 0)
    | some q =>
      if q.size ≤ v then .next (s.badDoorbell fn qid 1)
      else
        .next (s.setHost fun h =>
          { h with cqes := dropCqes fn qid ((v + q.size - q.head) % q.size) h.cqes,
                   cqs := h.cqs.map fun x => if x.fn == fn && x.qid == qid then { x with head := v } else x })
  else match s.sq fn qid with
    | none => .next (s.badDoorbell fn qid 0)
    | some q =>
      if q.size ≤ v then .next (s.badDoorbell fn qid 1)
      else
        let t := s.modSq fn qid fun x => { x with tail := v }
        let b := s.get R.HOSTQ.DB_BITBASE_INDEX + q.gidx
        .next (if b < systemBits then t.setCommonBit (systemBitBase + b) true else t)

/-! ### Fetch -/

/-- The range-lock entries a command needs (R457). -/
def State.locksOf (s : State) (x : IoCmd) : List RLock :=
  match s.ioNs x with
  | some n =>
    if n.kind ≠ .block then []
    else if x.opcode = 2 ∨ x.opcode = 5 ∨ x.opcode = 0x0C then [⟨x.nsid, ioLba x, ioNlb x, false⟩]
    else if x.opcode = 1 ∨ x.opcode = 8 then [⟨x.nsid, ioLba x, ioNlb x, true⟩]
    else if x.opcode = 9 then (s.dsmRanges x).map fun r => ⟨x.nsid, r.1, r.2, true⟩
    else []
  | none => []

/-- An I/O command of R450 for its namespace's kind. -/
def State.listedOpcode (s : State) (x : IoCmd) : Bool :=
  match s.ioNs x with
  | some n =>
    match n.kind with
    | .block => [0, 1, 2, 5, 8, 9, 0x0C].contains x.opcode
    | .take => [0, 1, 2, 5, 8, 9, 0x0C, 0x82].contains x.opcode
    | .compute => true
    | .memory => true
  | none => true

/-- A command leaves its queue and gets its fetch number (R456). -/
def State.fetched (s : State) (x : IoCmd) (c : HCmd) : State :=
  ((s.modSq x.fn x.sq fun q => { q with head := (q.head + 1) % max 1 q.size }).bump R.HOSTQ.FETCHED_COUNT).setHost fun h =>
    { h with cmds := h.cmds ++ [c] }

/-- Fetching pauses until range-lock entries are free: recorded once for each pause (R460). -/
def State.pauseFetch (s : State) : State :=
  if s.host.paused then s
  else
    ((((s.setHost fun h => { h with paused := true }).bump R.HOSTQ.FETCH_PAUSES_COUNT).pulse 0xB0 Ev.HOSTQ.LOCKS_FULL).record 0xB0
      E.HOSTQ_LOCKS_FULL 0)

/-- New I/O commands may be fetched: no firmware handover runs, and the function is not being reset (R26, R332, R500). -/
def State.mayFetch (s : State) (fn : Nat) : Bool := !s.handing && !s.isResetting fn && decide (3 ≤ s.mode)

/-- A command can be fetched from a queue. -/
def State.sqWaits (s : State) (q : Sq) : Bool := q.qid != 0 && q.frozen.isNone && q.head != q.tail && s.mayFetch q.fn

/-- Host I/O demand exceeds the die time left to it (R494): operations wait behind a die's full queue (log entry 48). -/
def State.diesShort (s : State) : Bool := s.nand.queues.any fun q => decide (8 < q.2.length)

/-- MEDIA_SHARE of a function. -/
def State.shareOf (s : State) (fn : Nat) : Nat := match s.fn fn with | some f => f.p.share | none => 0

/-- The functions with a share that wait to be fetched, each with the size of a command and its quantum (R494). -/
def State.shareWaits (s : State) : List (Nat × Nat × Nat) :=
  (((s.host.sqs.filter s.sqWaits).map (·.fn)).eraseDups.filter fun f => s.shareOf f != 0).map fun f => (f, 1000, s.shareOf f)

/-- The fetch sequencer's turn (R494): the turns after a fetch for this function, none where another function is fetched before it.
While die time suffices every function may be fetched; while it is short, functions with a share take turns by deficit round robin,
and one with share 0 is fetched only when none of them waits. -/
def State.fetchTurn (s : State) (fn : Nat) : Option Turns :=
  if !s.diesShort then some s.host.turns
  else match s.host.turns.pick s.shareWaits with
    | none => some s.host.turns
    | some (f, t) => if f = fn then some t else none

/-- A command whose turn it is and whose range-lock entries are free leaves its queue (R456-R461, R465). -/
def State.fetchNext (s : State) (x : IoCmd) (locks : List RLock) : Out :=
  let k : CmdKey := ⟨x.fn, x.sq, x.cid⟩
  let c : HCmd := ⟨x, s.get R.HOSTQ.FETCHED_COUNT, locks, .ready, 0, false⟩
  let waits := s.host.blocked c
  let t := (s.fetched x (if waits then { c with phase := .waits } else c)).setHost fun h => { h with paused := false }
  let t := if waits then t.bump R.HOSTQ.LOCK_WAITS_COUNT else t
  if t.host.aborts.contains k then
    .next ((t.setHost fun h => { h with aborts := h.aborts.filter (· != k) }).completeCmd k Nv.aborted)
  else if !t.listedOpcode x then .next (t.completeCmd k Nv.badOpcode)
  else if (t.ioNs x).isNone then .next (t.completeCmd k Nv.badNs)
  else .next t.relock

/-- COMMAND_FETCH (R456-R461, R465, R494): the next command of an I/O submission queue. -/
def execCommandFetch (x : IoCmd) (s : State) : Out :=
  match s.sq x.fn x.sq with
  | none => .next s
  | some q =>
    if !s.sqWaits q then .next s
    else if (s.hcmd ⟨x.fn, x.sq, x.cid⟩).isSome then .next s
    else match s.fetchTurn x.fn with
      | none => .next s
      | some t =>
        let locks := s.locksOf x
        if 8192 < s.host.locksUsed + locks.length then .next s.pauseFetch
        else (s.setHost fun h => { h with turns := t }).fetchNext x locks

end Sys2Proof.Machine
end

