-- ==== Sys2Proof/Machine/Nand.lean ====
section
/-!
DEFINITION. The flash channels: training, faults, reads with retry and soft decoding, programs and erases (R184-R205).
-/

namespace Sys2Proof.Machine

/-- Page of a channel. -/
def nandPage (c : Nat) : Nat := 0x80 + c

/-- Record a NAND condition (R205). -/
def State.nandErr (s : State) (c code die step row : Nat) : State :=
  s.record (nandPage c) code (die % 16 + step % 16 * 16 + row % 2 ^ 24 * 256)

/-! ### Training -/

/-- NAND_TRAIN_START: every channel that is OFF powers up (R188). -/
def execNandTrainStart (s : State) : Out :=
  .next ((List.range 32).foldl (fun t c =>
    if t.get (R.NAND.CH_STATUS_STATE c) = 0 then t.puts [(R.NAND.CH_STATUS_STATE c, 1), (R.NAND.CH_STATUS_PWR_EN c, 1)] else t) s)

/-- A byte under a permutation of its bits: bit n of the argument becomes bit `m n`. -/
def permByte (m : List Nat) (b : Nat) : Nat := m.zipIdx.foldl (fun v x => v + b2n (bitAt b x.2) * 2 ^ x.1) 0

/-- The ONFI CRC-16 of a parameter page (R189; log entry 68). -/
def onfiCrc (bs : Bytes) : Nat :=
  bs.foldl (fun c b => (List.range 8).foldl (fun c i =>
    let x := (c / 2 ^ 15 + b.toNat / 2 ^ (7 - i)) % 2
    let d := c * 2 % 65536
    if x = 1 then d ^^^ 0x8005 else d) c) 0x4F4E

/-- Bits of several bytes at one position. -/
def column (bs : List Nat) (i : Nat) : List Bool := bs.map (bitAt · i)

/-- Extend partial permutations by the lines that device bit may carry. -/
def extendPerms (ps : List (List Nat)) (opts : List Nat) : List (List Nat) :=
  ps.flatMap fun p => (opts.filter fun m => !p.contains m).map fun m => p ++ [m]

/-- The permutations under which a tried byte becomes READ PARAMETER PAGE and what was read after it a parameter page (R189). -/
def permsOf (a : BitVec 8 × Bytes) : List (List Nat) :=
  let raw := (a.1.toNat :: (a.2.take 4).map (·.toNat))
  let want := [0xEC, 0x4F, 0x4E, 0x46, 0x49]
  let opts := (List.range 8).map fun n => (List.range 8).filter fun m => column raw n == column want m
  (opts.foldl extendPerms [[]]).filter fun p =>
    let page := a.2.map fun b => BitVec.ofNat 8 (permByte p b.toNat)
    leNat (sliceBytes page 254 2) == onfiCrc (page.take 254)

/-- The one permutation the search accepts, if any (R189; log entry 69). -/
def swizzleOf (answers : List (BitVec 8 × Bytes)) : Option (List Nat) :=
  match ((answers.filter fun a => popCount 8 a.1.toNat == 5 && a.2.length == 256).flatMap permsOf).eraseDups with
  | [p] => some p
  | _ => none

/-- A part meets the checked rows of R203. -/
def qualifies (p : NandPart) (dies : Nat) : Bool :=
  p.onfi51 && (p.bitsPerCell == 3 || p.bitsPerCell == 4) && decide (512 ≤ p.gbit) && decide (p.gbit ≤ 4096) && p.planes == 4
    && p.pageBytes == 16384 && decide (2048 ≤ p.spareBytes) && p.oneShot && (p.volumes || decide (dies ≤ 4)) && decide (p.tR ≤ 100000)
    && decide (p.tProg ≤ (if p.bitsPerCell = 3 then 3000000 else 6000000)) && decide (p.tBers ≤ 10000000)

/-- The population of a channel agrees with itself, with the other channels and with R203 (R185, R186). -/
def State.population (s : State) (c : Nat) (parts : List NandPart) : Option NandPart :=
  match parts with
  | [] => none
  | p :: _ =>
    let n := parts.length
    let others := (List.range 32).filter fun d => d != c && s.get (R.NAND.CH_STATUS_DIES d) != 0
    if [1, 2, 4, 8, 16].contains n && parts.all (· == p) && qualifies p n && (match s.nand.part with | some q => q == p | none => true)
        && others.all fun d => s.get (R.NAND.CH_STATUS_DIES d) == n
    then some p else none

/-- Rate of an encoding in MT/s. -/
def nandRate (e : Nat) : Nat := 800 * (e + 1)

/-- A channel fails its training: it is RETIRED, and lost to the array (R188, R202). -/
def State.trainFail (s : State) (c step : Nat) : State :=
  let t := (s.put (R.NAND.CH_STATUS_STATE c) 3).setNand fun n => { n with lpddr := n.lpddr.filter (· != c) }
  let t := (t.pulse (nandPage c) Ev.NAND.TRAIN_FAIL).pulse (nandPage c) Ev.NAND.RETIRED
  let t := (t.nandErr c E.NAND_TRAIN_FAIL 0 step 0).putBit (H.RETIRED (nandPage c)) true
  if t.media.formatted then let r := t.loseDies (t.channelDies c); r.2.followChannels.endOps r.1 else t

/-- The population is known: the dies of the channels that failed before it was are lost (R188, R202). -/
def State.loseFailed (s : State) : State :=
  if !s.media.formatted then s
  else
    let ds := ((List.range 32).filter fun c => 3 ≤ s.get (R.NAND.CH_STATUS_STATE c)).flatMap s.channelDies
    let r := s.loseDies ds
    r.2.endOps r.1

/-- Steps 5-8 of a channel's training are complete (R188): its dies are in NV-LPDDR4 at the target rate, their volumes are appointed,
ZQ long, DCC and the DQ trainings have run (R184), and it is ACTIVE. -/
def State.trained (s : State) (c : Nat) : State :=
  let t := s.setNand fun n => { n with lpddr := insertSorted n.lpddr c, volume := n.volume.filter (·.1.1 != c)
                                       zqAt := assocSet n.zqAt c s.time }.sent c [.zqLong, .dcc, .readDq, .writeDq]
  let t := (t.puts [(R.NAND.CH_STATUS_STATE c, 2),
    (R.NAND.TIMING_RATE_MTS c, nandRate (t.get (R.NAND.TIMING_MAX_RATE c)))]).pulse (nandPage c) Ev.NAND.TRAINED
  if t.media.formatted then t.followChannels else t

/-- The parts disagree or do not qualify: SAFE, and no channel in service; one in FAULT or RETIRED stays as it is (R186, R201). -/
def State.partMismatch (s : State) (c : Nat) : State :=
  let t := s.nandErr c E.NAND_PART_MISMATCH 0 3 0
  let t := (List.range 32).foldl (fun t d =>
    let t := if 3 ≤ t.get (R.NAND.CH_STATUS_STATE d) then t else t.put (R.NAND.CH_STATUS_STATE d) 0
    t.puts [(R.NAND.CH_STATUS_CODE d, 0), (R.NAND.HARD_CAP_BITS d, 0), (R.NAND.HARD_CAP_HALF d, 0)]) t
  t.enterSafe 6

/-- The code of the part shows on every channel page (R192, R204). -/
def State.showCode (s : State) : State :=
  match s.codeOf with
  | none => s
  | some k => (List.range 32).foldl (fun t d => t.puts [(R.NAND.CH_STATUS_CODE d, if k.2.2 then 2 else 1), (R.NAND.HARD_CAP_BITS d, k.2.1),
      (R.NAND.HARD_CAP_HALF d, k.2.1 / 2)]) s

/-- NAND_TRAIN_DONE (R185, R186, R188-R192). -/
def execNandTrainDone (ch : Fin 32) (r : NandTraining) (s : State) : Out :=
  let c := ch.val
  if s.get (R.NAND.CH_STATUS_STATE c) ≠ 1 then .next s
  else if r.failStep = 1 then .next (s.trainFail c 1)
  else match swizzleOf r.answers with
    | none => .next (s.trainFail c 2)
    | some p =>
      let s := s.puts [(R.NAND.SWIZZLE_MAP c, p.zipIdx.foldl (fun v x => v + x.1 * 8 ^ x.2) 0), (R.NAND.SWIZZLE_LEARNED c, 1)]
      if r.failStep = 2 then .next (s.trainFail c 2)
      else if r.failStep = 3 then .next (s.trainFail c 3)
      else if bitAt (s.get R.PWR.SAFE_CAUSE_CAUSE) 6 then .next s
      else match s.population c r.parts with
        | none => .next (s.partMismatch c)
        | some part =>
          let n := r.parts.length
          let marked := (s.nand.factoryBad.filter fun b => dieChannel b.1 != c) ++ r.badBlocks.map fun b => (c * 16 + b.1, b.2)
          let t := s.setNand fun x => { x with part := some part, factoryBad := marked }.sent c (List.replicate n .readParameterPage)
          let t := ((t.puts [(R.NAND.CH_STATUS_DIES c, n), (R.NAND.DIE_PRESENT_PRESENT c, 2 ^ n - 1)]).showCode).loseFailed
          if r.failStep ≠ 0 ∧ r.failStep ≤ 6 then .next (t.trainFail c r.failStep)
          else match r.clean with
            | [] => .next (t.trainFail c 7)
            | (dqs, re) :: _ =>
              let t := t.puts [(R.NAND.POLARITY_DQS_SWAP c, b2n dqs), (R.NAND.POLARITY_RE_SWAP c, b2n re)]
              if r.failStep ≠ 0 then .next (t.trainFail c r.failStep)
              else .next (t.trained c)

/-- NAND_ZQ_SHORT (R184): ZQ_PERIOD after its last calibration an ACTIVE channel runs ZQ short. -/
def execNandZqShort (ch : Fin 32) (s : State) : Out :=
  let c := ch.val
  if !s.chActive c then .next s
  else
    let at_ := max s.time ((assoc s.nand.zqAt c).getD 0 + s.get (R.NAND.ZQ_PERIOD_MS c) * 1000000)
    .next ({ s with time := at_ }.setNand fun n => { n with zqAt := assocSet n.zqAt c at_ }.sent c [.zqShort])

/-! ### Channel and die faults -/

/-- The channel leaves service: power off, queued operations failed, its dies lost (R201, R202). -/
def State.channelOff (s : State) (c st : Nat) : State :=
  let t := (s.puts [(R.NAND.CH_STATUS_STATE c, st), (R.NAND.CH_STATUS_PWR_EN c, 0)]).setNand fun n =>
    { n with lpddr := n.lpddr.filter (· != c), volume := n.volume.filter (·.1.1 != c) }
  let r := t.loseDies (t.channelDies c)
  r.2.followChannels.endOps r.1

/-- NAND_PWR_FAULT (R201). -/
def execNandPwrFault (ch : Fin 32) (s : State) : Out :=
  let c := ch.val
  let st := s.get (R.NAND.CH_STATUS_STATE c)
  if st = 4 ∨ s.get (R.NAND.CH_STATUS_PWR_EN c) = 0 then .next s
  else
    let t := (s.put (R.NAND.CH_STATUS_PWR_FLT c) 1).pulse (nandPage c) Ev.NAND.PWR_FAULT
    .next ((t.nandErr c E.NAND_PWR_FAULT 0 0 0).channelOff c 4)

/-- The operation at the front of a die's queue. -/
def State.frontOp (s : State) (d : Nat) : Option DieOp := ((assoc s.nand.queues d).getD []).head?

/-- NAND_DIE_RESET (R200): a die busy past its limit is sent RESET once for the operation. -/
def execNandDieReset (ch : Fin 32) (die : Fin 16) (s : State) : Out :=
  let d := ch.val * 16 + die.val
  if (s.frontOp d).isNone || s.nand.resetOnce.contains d then .next s
  else .next ((s.setNand fun n => { n with resetOnce := n.resetOnce ++ [d] }).sendOnfi d [.reset])

/-- NAND_DIE_TIMEOUT (R200): busy again past its limit after RESET, the die has failed. -/
def execNandDieTimeout (ch : Fin 32) (die : Fin 16) (s : State) : Out :=
  let c := ch.val
  let d := c * 16 + die.val
  if !s.nand.resetOnce.contains d || !s.dieLive d then .next s
  else
    let t := s.put (R.NAND.DIE_PRESENT_FAILED c) (setBit (s.get (R.NAND.DIE_PRESENT_FAILED c)) die.val true)
    let t := (t.bump (R.NAND.DIE_TIMEOUTS_COUNT c)).pulse (nandPage c) Ev.NAND.DIE_FAILED
    let row := match s.frontOp d with | some o => s.pieceRow o.block o.pu 0 | none => 0
    let r := (t.nandErr c E.NAND_DIE_TIMEOUT die.val 0 row).loseDies [d]
    .next (r.2.endOps r.1)

/-! ### Reads -/

/-- Replace the front operation of a die. -/
def State.setFront (s : State) (d : Nat) (o : DieOp) : State :=
  s.setNand fun n => { n with queues := assocSet n.queues d (o :: ((assoc n.queues d).getD []).drop 1) }

/-- SET FEATURES with an entry of the retry table, which is then in force on the die (R196, R197). -/
def State.retryEntry (s : State) (c n : Nat) : OnfiCmd :=
  .setFeatures (s.get (R.NAND.RETRY_CFG_FEATURE_ADDR c)) (s.get (R.NAND.RETRY_TABLE_PARAM c n))

/-- The die reads again at given entries of the retry table, in turn; the last one stays in force. -/
def State.readAt (s : State) (d : Nat) (o : DieOp) (es : List Nat) : State :=
  let c := dieChannel d
  (s.sendOnfi d (es.flatMap fun e => [s.retryEntry c e, .read o.block o.pu])).setNand fun n =>
    { n with entry := assocSet n.entry d (es.getLastD 0) }

/-- After any retry or soft read the default entry is restored before the die's next operation (R197). -/
def State.restoreEntry (s : State) (d : Nat) : State :=
  if (assoc s.nand.entry d).isNone then s
  else (s.sendOnfi d [s.retryEntry (dieChannel d) 0]).setNand fun n => { n with entry := n.entry.filter (·.1 != d) }

/-- The group a block belongs to. -/
def State.groupOf (s : State) (d b : Nat) : Option Group := s.groups.find? fun g => g.members.contains (d, b)

/-- Queue a block's group for refresh (R240). -/
def State.refreshBlock (s : State) (d b : Nat) : State :=
  match s.groupOf d b with
  | some g => if g.state = .freed then s else s.queueRefresh g.num
  | none => s

/-- A codeword decodes: what an earlier read found of it, uncorrectable or ERASED, no longer holds (R195). -/
def State.forgetFault (s : State) (d block pu piece : Nat) : State :=
  s.setNand fun n => { n with bad := n.bad.filter (· != (d, block, pu, piece)), blank := n.blank.filter (· != (d, block, pu, piece)) }

/-- A codeword that decoded: counts, and the refresh rule (R195, R240). `cls` 0 for the default level. -/
def State.decoded (s : State) (d : Nat) (o : DieOp) (cls piece bits_ : Nat) : State :=
  let c := dieChannel d
  let half := s.get (R.NAND.HARD_CAP_HALF c)
  let s := s.forgetFault d o.block o.pu piece
  let t := (s.bump (R.NAND.CODEWORDS_COUNT c)).bump (R.NAND.BITS_CORRECTED_COUNT c) bits_
  if cls = 0 then if half < bits_ then (t.bump (R.NAND.OVER_HALF_COUNT c)).refreshBlock d o.block else t
  else if cls = 2 then
    let t := t.bump (R.NAND.RETRY_READS_COUNT c)
    if half < bits_ then t.refreshBlock d o.block else t
  else ((t.bump (R.NAND.SOFT_DECODES_COUNT c)).pulse (nandPage c) Ev.NAND.SOFT_DECODE).refreshBlock d o.block

/-- A codeword is uncorrectable: class 4 (R195, R240, R283). -/
def State.uncorrectable (s : State) (d : Nat) (o : DieOp) (piece : Nat) : State :=
  let c := dieChannel d
  let row := s.pieceRow o.block o.pu piece
  let t := (s.bump (R.NAND.CODEWORDS_COUNT c)).bump (R.NAND.UNCORRECTABLE_COUNT c)
  let t := t.puts [(R.NAND.LAST_UNC_DIE c, d % 16), (R.NAND.LAST_UNC_ROW c, row), (R.NAND.LAST_UNC_CODEWORD c, pieceCw piece)]
  let t := (t.pulse (nandPage c) Ev.NAND.UNCORRECTABLE).nandErr c E.NAND_UNCORRECTABLE (d % 16) 0 row
  let t := t.setNand fun n => { n with bad := if n.bad.contains (d, o.block, o.pu, piece) then n.bad else n.bad ++ [(d, o.block, o.pu, piece)] }
  let t := t.refreshBlock d o.block
  match t.groupOf d o.block with
  | some g => t.checkRow g.num o.pu piece
  | none => t

/-- The read at the front of a die ends: the command it serves is told. -/
def State.endRead (s : State) (d : Nat) (o : DieOp) : State :=
  let t := (s.restoreEntry d).popOp d
  match o.use with
  | .cmd k => t.readEnded k
  | .unit .. => t
  | .erase .. => t
  | .background _ => t
  | .page .. => t
  | .pageErase => t
  | .rebuild .. => t

/-- A codeword of at most 8 zero bits is reported ERASED: it holds nothing (R195). -/
def State.reportErased (s : State) (d : Nat) (o : DieOp) (piece : Nat) : State :=
  s.setNand fun n => { n with blank := if n.blank.contains (d, o.block, o.pu, piece) then n.blank else n.blank ++ [(d, o.block, o.pu, piece)] }

/-- A codeword that decoded at one level: it counts in its class, but one whose META CRC is wrong is class 4 (R195, R222). -/
def State.classed (s : State) (d : Nat) (o : DieOp) (cls piece n : Nat) : State :=
  if s.metaBad d o.block o.pu piece then s.uncorrectable d o piece else s.decoded d o cls piece n

/-- Decode the codewords that a read still lacks, in order, at one level: what is left (R195-R197). -/
def State.decodeAll (cls : Nat) (d : Nat) (o : DieOp) : List Nat → List CwOutcome → State → List Nat × State
  | [], _, s => ([], s)
  | p :: ps, rs, s =>
    match rs with
    | [] => let q := State.decodeAll cls d o ps [] s; (p :: q.1, q.2)
    | x :: xs =>
      if x.zeros ≤ 8 then State.decodeAll cls d o ps xs (s.reportErased d o p)
      else match x.corrected with
        | some n => State.decodeAll cls d o ps xs (s.classed d o cls p n)
        | none => let q := State.decodeAll cls d o ps xs s; (p :: q.1, q.2)

/-- Every codeword left is uncorrectable, and the read ends. -/
def State.giveUp (s : State) (d : Nat) (o : DieOp) (left : List Nat) : State :=
  (left.foldl (fun t p => t.uncorrectable d o p) s).endRead d o

/-- The read goes to step `n` of the ladder, or past its end to the three soft reads at SOFT_MINUS, the default and SOFT_PLUS
(R196, R197). -/
def State.nextLevel (s : State) (d : Nat) (o : DieOp) (n : Nat) : State :=
  if n ≤ s.get (R.NAND.RETRY_CFG_STEPS (dieChannel d)) then s.readAt d o [n] else s.readAt d o [16, 0, 17]

/-- NAND_READ_DONE (R195, R196): what fails at the default level goes to the ladder, or is class 4 where there is none. -/
def execNandReadDone (ch : Fin 32) (die : Fin 16) (rs : List CwOutcome) (s : State) : Out :=
  let d := ch.val * 16 + die.val
  match s.frontOp d with
  | none => .next s
  | some o =>
    if o.kind ≠ .read ∨ o.step ≠ 0 then .next s
    else
      let q := State.decodeAll 0 d o o.todo rs s
      if q.1.isEmpty then .next (q.2.endRead d o)
      else if s.get (R.NAND.RETRY_CFG_FEATURE_ADDR ch.val) = 0 then .next (q.2.giveUp d o q.1)
      else .next ((q.2.setFront d { o with todo := q.1, step := 1 }).nextLevel d o 1)

/-- NAND_RETRY_STEP (R196): the next entry of the ladder. -/
def execNandRetryStep (ch : Fin 32) (die : Fin 16) (rs : List CwOutcome) (s : State) : Out :=
  let d := ch.val * 16 + die.val
  match s.frontOp d with
  | none => .next s
  | some o =>
    if o.kind ≠ .read ∨ o.step = 0 ∨ s.get (R.NAND.RETRY_CFG_STEPS ch.val) < o.step then .next s
    else
      let q := State.decodeAll 2 d o o.todo rs s
      .next (if q.1.isEmpty then q.2.endRead d o
        else (q.2.setFront d { o with todo := q.1, step := o.step + 1 }).nextLevel d o (o.step + 1))

/-- NAND_SOFT_DECODE (R197): the ladder is exhausted; class 3 or class 4 for each codeword left. -/
def execNandSoftDecode (ch : Fin 32) (die : Fin 16) (rs : List CwOutcome) (s : State) : Out :=
  let d := ch.val * 16 + die.val
  match s.frontOp d with
  | none => .next s
  | some o =>
    if o.kind ≠ .read ∨ o.step = 0 ∨ o.step ≤ s.get (R.NAND.RETRY_CFG_STEPS ch.val) then .next s
    else
      let q := State.decodeAll 3 d o o.todo rs s
      .next (q.2.giveUp d o q.1)

/-! ### Programs and erases -/

/-- A unit of a stripe has been programmed: its codewords lie on flash, its units are mapped, their writes go on, and reads that waited for
a resynchronisation to move them (R200, R219, R225, R278). -/
def State.programmed (s : State) (d : Nat) (o : DieOp) (gn i m : Nat) : State :=
  match s.group? gn with
  | none => s
  | some g =>
    let t := s.programUnit d o.block o.pu (s.unitPieces g i m)
    let data := memberRole g.k i m < g.k
    let t := if data then t.setImage fun x => { x with nandBytes := x.nandBytes + 4096 * t.pieces g.use.isSlc } else t
    let t := t.modGroup gn fun h =>
      { h with stripes := modAt h.stripes i fun st => { st with done := if st.done.contains m then st.done else st.done ++ [m] } }
    let t := if data then t.mapMember g i m else t
    let t := t.logReady
    if data then
      let t := (((t.stripeIndex g i).filter fun x => t.unitMember g x.1 == m).filterMap (·.2.cmd)).foldl (fun t k => t.unitProgrammed k) t
      if t.array.owed.isEmpty then t else t.resumeReading fun _ => true
    else t

/-- A program of a die failed: counted and recorded (R200, R205). -/
def State.programFail (s : State) (c d : Nat) (o : DieOp) : State :=
  let t := (s.bump (R.NAND.PROGRAM_FAILS_COUNT c)).pulse (nandPage c) Ev.NAND.PROGRAM_FAIL
  t.nandErr c E.NAND_PROGRAM_FAIL (d % 16) 0 (t.pieceRow o.block o.pu 0)

/-- An erase of a die failed: counted and recorded (R200, R205). -/
def State.eraseFail (s : State) (c d : Nat) (o : DieOp) : State :=
  let t := (s.bump (R.NAND.ERASE_FAILS_COUNT c)).pulse (nandPage c) Ev.NAND.ERASE_FAIL
  t.nandErr c E.NAND_ERASE_FAIL (d % 16) 0 (t.pieceRow o.block 0 0)

/-- NAND_PROGRAM_DONE (R200, R224, R225, R242, R269, R281): a unit of a stripe, a copy of a page, which is written elsewhere where it
failed, or a rebuilt unit. -/
def execNandProgramDone (ch : Fin 32) (die : Fin 16) (pass : Bool) (s : State) : Out :=
  let c := ch.val
  let d := c * 16 + die.val
  match s.frontOp d with
  | none => .next s
  | some o =>
    match o.use with
    | .unit gn i m =>
      let t := s.popOp d
      if pass then .next ((t.programmed d o gn i m).endStripe gn i).ckptStep
      else .next ((t.programFail c d o).programFailed gn i m).logReady
    | .page n i =>
      let t := s.popOp d
      if pass then .next (t.pageProgrammed n i d o.block o.pu).snapStep
      else .next (((t.programFail c d o).retireBlock d o.block 0).moveCopy n i)
    | .cmd _ => .next s
    | .erase .. => .next s
    | .rebuild gn i m ps =>
      let t := s.popOp d
      .next (if pass then t.rebuilt gn i m d o.block ps else (t.programFail c d o).rebuildFailed gn i m d o.block)
    | .background _ => .next s
    | .pageErase => .next s

/-- A block has been erased: its erase count rises (R200, R208). -/
def State.blockErased (s : State) (d b : Nat) : State :=
  (s.eraseBlock d b).setImage fun i => { i with erases := assocSet i.erases (d, b) ((assoc i.erases (d, b)).getD 0 + 1) }

/-- NAND_ERASE_DONE (R200, R242): a member of a group, or a block of pages that are done with. -/
def execNandEraseDone (ch : Fin 32) (die : Fin 16) (pass : Bool) (s : State) : Out :=
  let c := ch.val
  let d := c * 16 + die.val
  match s.frontOp d with
  | none => .next s
  | some o =>
    match o.use with
    | .erase gn m =>
      let t := (s.popOp d).modGroup gn fun g => { g with erased := insertSorted g.erased m }
      .next (if pass then t.blockErased d o.block else (t.eraseFail c d o).retireBlock d o.block gn)
    | .pageErase =>
      let t := (s.popOp d).setMedia fun m => { m with metaBlocks := m.metaBlocks.filter fun x => !(x.die == d && x.block == o.block) }
      .next (if pass then (t.blockErased d o.block).showPool else (t.eraseFail c d o).retireBlock d o.block 0)
    | .cmd _ => .next s
    | .unit .. => .next s
    | .background _ => .next s
    | .page .. => .next s
    | .rebuild .. => .next s

end Sys2Proof.Machine
end

