-- ==== Sys2Proof/Machine/Keyeng.lean ====
section
/-!
DEFINITION. The key engine's commands (R418-R421), alarms (R426-R429), the entropy source (R430), and the trailers owed to
takes that an alarm closed (R428); and the reseeding of mask generators (R404).
-/

namespace Sys2Proof.Machine

/-! ### Owed trailers -/

/-- The final INDEX, MANIFEST and trailer that a take closed by an alarm, or cut at a boot, still owes, once its media key unwraps
(R106, R428). -/
def State.placeOwed (s : State) (o : Nat × TakeSt) : State :=
  match s.nsOf o.1, o.2.c with
  | some n, some c =>
    match s.mediaKey n.keyRec n.keySeq with
    | (none, t) => t
    | (some _, t) =>
      match t.keys.slots.find? (·.ref == n.keyRec) with
      | none => t
      | some k =>
        let keep := t.take
        let c := { c with slot := k.slot }
        let t := { t with take := { o.2 with c := some c, noTrailer := false, trailer := none, placed := o.2.cont.length } }
        let t := t.placeTrailer c o.2.reason
        let len := t.take.cont.length
        let t := (t.sealNs c.nsid o.2.reason len false).closeTakeGroups c.nsid
        ({ t with take := keep }).setKeys fun x => { x with owedTrailers := x.owedTrailers.filter (·.1 != o.1) }
  | _, _ => s.setKeys fun x => { x with owedTrailers := x.owedTrailers.filter (·.1 != o.1) }

/-- Every owed trailer, while KEK_MEDIA is held and the map is in place. -/
def State.owedTrails (s : State) : State :=
  if s.keys.kekMedia.isNone || (s.pwr.bootPhase != 0 && decide (s.pwr.bootPhase < 7)) then s else s.keys.owedTrailers.foldl State.placeOwed s

/-! ### Alarms -/

/-- An alarm of ALARM_CAUSE bit `c`: zeroisation, the take's close, the end of perturbation (R427, R428, R601). -/
def State.alarm (s : State) (c : Nat) : State :=
  let t := s.puts [(R.KEYENG.ALARM_CAUSE_CAUSE, setBit (s.get R.KEYENG.ALARM_CAUSE_CAUSE) c true), (R.KEYENG.LAST_ALARM_DTIME, s.time)]
  let t := ((t.bump R.KEYENG.ALARMS_COUNT).pulse 0x29 Ev.KEYENG.ALARM).record 0x29 E.KEYENG_ALARM 0
  (t.zeroiseKeys.closeKeys.endPerturb .alarm).settle

/-- What refuses KEY_CTRL.UNLOCK: an alarm condition persists, or the entropy source is not HEALTHY (R429). -/
def State.unlockBarred (s : State) : Bool := s.keys.conds != 0 || s.get R.ENTROPY.ES_STATUS_STATE != 1

/-- KEK_MEDIA comes from a derivation; by UNLOCK, the alarm is over (R423, R429). -/
def State.derived (s : State) (unlock : Bool) : State :=
  let t := s.deriveMedia.setKeys fun k => { k with derive := none, alarmed := k.alarmed && !unlock }
  if unlock then (t.put R.KEYENG.ALARM_CAUSE_CAUSE 0).pulse 0x29 Ev.KEYENG.UNLOCKED else t

/-- Derive KEK_MEDIA, once the key engine has masks (R404). -/
def State.derive (s : State) (unlock : Bool) : State :=
  if s.keys.masks.contains 6 then s.derived unlock else s.setKeys fun k => { k with derive := some unlock }

/-- KEY_CTRL.UNLOCK (R429). -/
def State.unlockKeys (s : State) : State := (s.derive true).owedTrails

/-- Generators have masks again: what waited for them goes on (R404). -/
def State.masked (s : State) : State :=
  let t := match s.keys.derive with | some u => (s.derive u).owedTrails | none => s
  (if t.take.c.isSome then t.placeAll.settle else t).resumeReading fun _ => true

/-! ### Commands -/

/-- DERIVE_KEKS (R418, R422). -/
def execDeriveKeks (s : State) : Out := .next (s.keyJob 1).owedTrails
/-- GENERATE (R418). -/
def execGenerate (s : State) : Out := .next (s.keyJob 2)
/-- UNWRAP_LOAD (R418, R428). -/
def execUnwrapLoad (s : State) : Out := .next (s.keyJob 3).owedTrails
/-- WRAP (R418). -/
def execWrap (s : State) : Out := .next (s.keyJob 4)
/-- DERIVE (R418). -/
def execDerive (s : State) : Out := .next (s.keyJob 5)
/-- LOAD_PLAIN (R418). -/
def execLoadPlain (s : State) : Out := .next (s.keyJob 6)
/-- CLEAR (R418). -/
def execClear (s : State) : Out := .next (s.keyJob 7)

/-- KEYENG_JOB_COMPLETE (R419, R475). -/
def execKeyengJobComplete (s : State) : Out := .next s.keyComplete

/-- A condition of a source persists beyond its detection: a temperature does until a sample in range; of a rail or of the clock no
command reports it, and a free value says so (R426, R429; log entry 42). Entropy shows in ES_STATUS. -/
def State.conditions (s : State) (c : Nat) : State :=
  let r := s.fresh
  if c = 2 ∨ c = 3 then s.setKeys fun k => { k with conds := setBit k.conds c true }
  else if c ≤ 1 then r.2.setKeys fun k => { k with conds := setBit k.conds c (r.1 % 2 == 1) }
  else s

/-- KEYENG_ALARM (R426, R427): sources 0 rail, 1 clock, 2 over-temperature, 3 under-temperature, 4 entropy; those beyond are none of
R426's. -/
def execKeyengAlarm (src : BitVec 3) (s : State) : Out :=
  let c := src.toNat
  if 4 < c then .next s else .next ((s.conditions c).alarm c)

/-- A rail or clock condition that persists may end in any CTL cycle: no command reports its end (log entry 42). -/
def State.condsEnd (s : State) : State :=
  if s.keys.conds % 4 = 0 then s
  else
    let r := s.fresh
    r.2.setKeys fun k => { k with conds := k.conds &&& (0x1C + r.1 % 4) }

/-- MASK_RESEED (R404): generator 0-5 of a pipeline, 6 of the key engine; one that is not at its limit is not reseeded. Without a healthy
entropy source the generator gets nothing, and its pipeline stalls. -/
def execMaskReseed (g : Fin 7) (s : State) : Out :=
  if s.keys.masks.contains g.val then .next s
  else if s.get R.ENTROPY.ES_STATUS_STATE = 1 then
    .next ((s.setKeys fun k => { k with masks := k.masks ++ [g.val], draws := assocSet k.draws g.val 0 }).bump R.ENTROPY.RESEEDS_COUNT).masked
  else .next (if g.val < 6 then s.maskStall g.val else s)

/-- ENTROPY_HEALTH_FAIL (R430): a failure of the repetition count or the adaptive proportion test. -/
def execEntropyHealthFail (apt : Bool) (s : State) : Out :=
  if s.get R.ENTROPY.ES_STATUS_STATE ≠ 1 then .next s
  else
    let t := (s.put R.ENTROPY.ES_STATUS_STATE 2).bump (if apt then R.ENTROPY.APT_FAILS_COUNT else R.ENTROPY.RCT_FAILS_COUNT)
    .next (((t.pulse 0x2B Ev.ENTROPY.HEALTH_FAIL).record 0x2B E.ENTROPY_HEALTH_FAIL 0).alarm 4)

/-- ENTROPY_STARTUP_DONE (R430). A failed start-up test is a health-test failure: it raises the alarm (log entry 42). A healthy
source seeds every mask generator. -/
def execEntropyStartupDone (ok : Bool) (s : State) : Out :=
  let st := s.get R.ENTROPY.ES_STATUS_STATE
  if st = 1 ∨ st = 3 then .next s
  else if ok then
    let t := s.puts [(R.ENTROPY.ES_STATUS_STATE, 1), (R.ENTROPY.ES_STATUS_STARTUP_FAILS, 0)]
    .next ((t.setKeys fun k => { k with masks := List.range 7, draws := [] }).pulse 0x2B Ev.ENTROPY.HEALTHY).masked
  else
    let n := s.get R.ENTROPY.ES_STATUS_STARTUP_FAILS + 1
    let t := s.puts [(R.ENTROPY.ES_STATUS_STATE, if 3 ≤ n then 3 else 2), (R.ENTROPY.ES_STATUS_STARTUP_FAILS, n)]
    let t := ((t.pulse 0x2B Ev.ENTROPY.HEALTH_FAIL).record 0x2B E.ENTROPY_HEALTH_FAIL 0).alarm 4
    .next (if 3 ≤ n then (t.pulse 0x2B Ev.ENTROPY.FAILED).record 0x2B E.ENTROPY_FAILED 0 else t)

end Sys2Proof.Machine
end

