-- ==== Sys2Proof/Machine/Otp.lean ====
section
/-!
DEFINITION. The OTP generations: their validity, the generation in force, and the registers that mirror them (R577-R581, R584).
-/

namespace Sys2Proof.Machine

/-- The 256 bytes of a maker generation (R577). -/
def State.makerImage (s : State) (g : Nat) : Bytes := s.otpN (256 * g) 256

/-- The 768 bytes of an installer generation (R577). -/
def State.instImage (s : State) (g : Nat) : Bytes := s.otpN (768 + 768 * g) 768

/-- A byte of an image. -/
def imgN (img : Bytes) (a n : Nat) : Nat := leNat (sliceBytes img a n)

/-- A maker image is valid by itself (R578, R580). -/
def makerOk (img : Bytes) : Bool :=
  img.length == 256 && imgN img 0 1 == 0xA5 && imgN img 1 1 == 1 && imgN img 252 4 == crc32c (sliceBytes img 1 251)

/-- A regulator slot of an installer image carries no reserved encoding (R579, R573). -/
def slotOk (img : Bytes) (n : Nat) : Bool :=
  let a := 32 + 16 * n
  imgN img a 1 == 0 || (decide (imgN img a 1 < 128) && decide (imgN img (a + 2) 1 ≤ 8) && decide (imgN img (a + 3) 1 ≤ 1))

/-- An installer image is valid (R579, R580). -/
def instOk (img : Bytes) : Bool :=
  img.length == 768 && imgN img 0 1 == 0xA5 && imgN img 1 1 == 1 && imgN img 764 4 == crc32c (sliceBytes img 1 763)
    && decide (imgN img 16 1 ≤ 3) && decide (imgN img 17 1 ≤ 2) && decide (2 ≤ imgN img 19 1) && decide (imgN img 19 1 ≤ 32)
    && (List.range 8).all (slotOk img)

/-- A maker generation after generation 0 repeats its SERIAL and ROOT_KEY (R580). -/
def repeatsFirst (first img : Bytes) : Bool := sliceBytes first 8 48 == sliceBytes img 8 48

/-- Maker generation `g` is valid (R580). -/
def State.makerValid (s : State) (g : Nat) : Bool :=
  makerOk (s.makerImage g) && (g == 0 || repeatsFirst (s.makerImage 0) (s.makerImage g))

/-- Installer generation `g` is valid (R580). -/
def State.instValid (s : State) (g : Nat) : Bool := instOk (s.instImage g)

/-- A generation has been programmed, at least in part. -/
def imgUsed (img : Bytes) : Bool := img.any (· != 0)

/-- Maker generations programmed. -/
def State.makerUsed (s : State) : Nat := ((List.range 3).filter fun g => imgUsed (s.makerImage g)).length

/-- Installer generations programmed. -/
def State.instUsed (s : State) : Nat := ((List.range 4).filter fun g => imgUsed (s.instImage g)).length

/-- The valid maker generation of the highest index (R580). -/
def State.newestMaker (s : State) : Option Nat := ((List.range 3).filter s.makerValid).getLast?

/-- The valid installer generation of the highest index (R580). -/
def State.newestInst (s : State) : Option Nat := ((List.range 4).filter s.instValid).getLast?

/-- Set bits of the DECOMMISSION field (R583). -/
def State.decomBits (s : State) : Nat := ((s.otpN 3840 16).map fun b => popCount 8 b.toNat).foldl (· + ·) 0

/-- Set point at the start of a rail, or its nominal value, in mV (R554, R573). -/
def railNominal (rail : Nat) : Nat :=
  if rail ≤ 1 then 800 else if rail = 2 then 750 else if rail = 3 then 750 else if rail = 4 then 1200 else if rail = 5 then 1100
  else if rail = 6 then 850 else if rail = 7 then 1200 else 1800

/-- The regulator slots as the installer generation in force has them (R573, R579). -/
def State.loadSlots (s : State) : State :=
  let t := (List.range 8).foldl (fun t n =>
    let a := 32 + 16 * n
    let rail := s.instField (a + 2) 1
    let present := s.instField a 1 != 0
    let t := t.puts [(R.VREG.SLOT_CFG_ADDR n, s.instField a 1), (R.VREG.SLOT_CFG_PAGE n, s.instField (a + 1) 1), (R.VREG.SLOT_CFG_RAIL n, rail),
      (R.VREG.SLOT_CFG_ACK n, s.instField (a + 3) 1), (R.VREG.LIMITS_VMIN_MV n, s.instField (a + 4) 2), (R.VREG.LIMITS_VMAX_MV n, s.instField (a + 6) 2),
      (R.VREG.VOUT_SET_MV n, if present then railNominal rail else 0)]
    t) s
  t.put R.VREG.LINK_STATUS_PRESENT ((List.range 8).foldl (fun v n => v + 2 ^ n * b2n (s.instField (32 + 16 * n) 1 != 0)) 0)

/-- A newer valid generation than the one in force awaits cold reset (R602). -/
def State.genPending (s : State) : Bool := s.newestMaker != s.trust.makerGen || s.newestInst != s.trust.instGen

/-- The layout seed in force differs from OTP's (R581). -/
def State.seedPending (s : State) : Bool := s.media.formatted && s.array.seed != s.instField 8 8

/-- The OTP page (R602). -/
def State.showOtp (s : State) : State :=
  s.puts [(R.OTP.OTP_STATUS_LIFECYCLE, s.lifecycle), (R.OTP.OTP_STATUS_MAKER_GEN, s.trust.makerGen.getD 0),
    (R.OTP.OTP_STATUS_MAKER_VALID, b2n s.trust.makerGen.isSome), (R.OTP.OTP_STATUS_INST_GEN, s.trust.instGen.getD 0),
    (R.OTP.OTP_STATUS_INST_VALID, b2n s.trust.instGen.isSome), (R.OTP.OTP_STATUS_MAKER_USED, s.makerUsed),
    (R.OTP.OTP_STATUS_INST_USED, s.instUsed), (R.OTP.OTP_STATUS_SEED_PENDING, b2n s.seedPending), (R.OTP.OTP_STATUS_GEN_PENDING, b2n s.genPending),
    (R.OTP.INST_FLAGS_FLAGS, s.instField 4 4), (R.OTP.SEED_LAYOUT_SEED, s.instField 8 8), (R.OTP.BOOT_POLICY_POLICY, s.instField 28 4)]

/-- Every register that mirrors OTP takes its value (R34, R85, R246, R442, R512, R573, R602). -/
def State.mirrorOtp (s : State) : State :=
  let sn := s.serial
  let t := (List.range 4).foldl (fun t i => t.put (R.DEV.SERIAL_BYTES i) (leNat (sliceBytes sn (4 * i) 4))) s
  t.showOtp.puts [(R.MEDIA.MEDIA_STATUS_COMPAT, b2n (s.instFlag 0)), (R.GATE.TUNNEL_CTRL_RIGHTS, s.instField 17 1),
    (R.DROVE.SET_CFG_ROLE, s.instField 18 1 % 4), (R.DROVE.SET_CFG_CONFIG_N, s.instField 19 1), (R.DROVE.SET_ID_ID, s.instField 20 8),
    (R.ENTROPY.APT_CUTOFF_CUTOFF, match s.makerBase with | some b => leNat (s.otpN (b + 152) 2) | none => 0)]

/-- At a cold reset the newest valid generations come into force (R580, R581, R584). -/
def State.takeOtp (s : State) : State :=
  (s.setTrust fun x => { x with makerGen := s.newestMaker, instGen := s.newestInst, decom := decide (64 ≤ s.decomBits) }).loadSlots

/-- Each boot records the generations that are programmed and not valid (R580, R603). -/
def State.badGens (s : State) : State :=
  let bad := ((List.range 3).filter fun g => imgUsed (s.makerImage g) && !s.makerValid g)
    ++ ((List.range 4).filter fun g => imgUsed (s.instImage g) && !s.instValid g)
  bad.foldl (fun t g => (t.pulse 5 Ev.OTP.GEN_BAD).record 5 E.OTP_GEN_BAD (roleInfo .firmware g)) s

end Sys2Proof.Machine
end

