-- ==== Sys2Proof/Machine/PwrBase.lean ====
section
/-!
DEFINITION. Requests for a mode: vetoes (R547-R549), outcomes and their history (R550-R552), and the voltage steps (R555-R557).
-/

namespace Sys2Proof.Machine

/-! ### Outcomes -/

/-- Who refuses or breaks a request: block, instance, and the function if it is one (R551); a function is named by block 0x49,
instance 0 and its own number, as chapter 19's worked example has it. -/
structure Refuser where
  /-- block ID -/
  block : Nat
  /-- instance -/
  inst : Nat
  /-- function -/
  func : Option Nat
deriving DecidableEq, Repr

/-- A block as refuser. -/
def refuser (block inst : Nat) : Option Refuser := some ⟨block, inst, none⟩

/-- Show the last request and its outcome (R572). -/
def State.setOutcome (s : State) (target outcome : Nat) (r : Refuser) : State :=
  s.puts [(R.PWR.LAST_OUTCOME_TARGET, target), (R.PWR.LAST_OUTCOME_OUTCOME, outcome), (R.PWR.LAST_OUTCOME_BLOCK, r.block),
    (R.PWR.LAST_OUTCOME_INSTANCE, r.inst), (R.PWR.LAST_FUNC_FUNC, r.func.getD 0), (R.PWR.LAST_FUNC_IS_FUNC, b2n r.func.isSome)]

/-- A history entry (R551). -/
def histEntry (time target from_ outcome phase : Nat) (r : Refuser) : Bytes :=
  leBytes 8 time ++ [target, from_, outcome, phase, r.block, r.inst].flatMap (leBytes 1)
    ++ leBytes 2 (r.func.getD 0 + 2 ^ 15 * b2n r.func.isSome)

/-- A request is refused (2) or its entry aborted (3): counters, record, event and history (R551, R552, R576). -/
def State.charge (s : State) (target outcome phase : Nat) (r : Refuser) : State :=
  let from_ := s.mode
  let ref := decide (outcome = 2)
  let t := s.setOutcome target outcome r
  let t := t.setPwr fun p =>
    { p with history := (histEntry s.time target from_ outcome phase r :: p.history).take 64
             acct := modAt p.acct target fun a => if ref then { a with refusals := sat32 (a.refusals + 1) } else { a with aborts := sat32 (a.aborts + 1) }
             blockAcct := assocSet p.blockAcct r.block (sat32 ((assoc p.blockAcct r.block).getD 0 + 1)) }
  let t := t.wearTally .power [target]
  let t := if ref then (t.bump R.PWR.REFUSALS_COUNT).pulse 2 Ev.PWR.REFUSED else (t.bump R.PWR.ABORTS_COUNT).pulse 2 Ev.PWR.ABORTED
  t.record 2 (if ref then E.PWR_ENTRY_REFUSED else E.PWR_ENTRY_ABORTED) (target + from_ * 2 ^ 8 + outcome * 2 ^ 16 + phase * 2 ^ 24)

/-! ### Vetoes -/

/-- Functions with a core running or waiting, or a host engine job pending (R549). -/
def State.busyFns (s : State) : List Nat :=
  let cores := (s.cores.toList.drop 8).filterMap fun k => if k.state == .running || k.state == .waiting then some k.func.toNat else none
  let jobs := ((s.jobs.queue.filter (·.cmd.isSome)).map (·.func)) ++ ((s.jobs.finished.filter (·.job.cmd.isSome)).map (·.job.func))
    ++ ((s.keys.queue.filter (·.cmd.isSome)).map (·.func))
  (cores ++ jobs).eraseDups

/-- A host job is on a lane. -/
def State.laneHosts (s : State) : List Nat :=
  ((List.range 12).filterMap fun l => match (s.lane l).work with
    | .job d => if d.job.cmd.isSome then some d.job.func else none
    | _ => none).eraseDups

/-- A trained port is not in L1.2. -/
def State.portAwake (s : State) : Bool :=
  (s.get R.HOSTQ.LINK_A_SPEED != 0 && !s.bit R.HOSTQ.LINK_A_L1_2) || (s.get R.HOSTQ.LINK_B_SPEED != 0 && !s.bit R.HOSTQ.LINK_B_L1_2)

/-- The kinds of request (R547, R549). -/
inductive PwrReq where
  | doze | fold | warm | safeIn | safeOut
deriving DecidableEq, Repr

/-- TARGET mode of a request; a warm reset leads to BOOT (log entry 29). -/
def PwrReq.target : PwrReq → Nat
  | .doze => 1 | .fold => 0 | .warm => 2 | .safeIn => 7 | .safeOut => 3

/-- The request fits the present mode (R545, R547). -/
def State.reqFits (s : State) : PwrReq → Bool
  | .doze => s.mode == 3
  | .fold => s.mode == 3 || s.mode == 7
  | .warm => decide (2 ≤ s.mode)
  | .safeIn => decide (2 ≤ s.mode)
  | .safeOut => decide (2 ≤ s.mode)

/-- The first veto that holds, with the state after a free choice among equal refusers (R549; log entry 29). -/
def State.veto (s : State) (q : PwrReq) : Option Refuser × State :=
  let sleep := q == .doze || q == .fold
  let down := sleep || q == .warm
  let fns := s.busyFns ++ s.laneHosts
  if s.pwr.tran.isSome || s.take.pfPhase != 0 || !s.reqFits q then (refuser 3 0, s)
  else if down && s.get R.TAKE.TAKE_STATE_STATE != 0 then (refuser 0x11 0, s)
  else if s.pwr.fw.update.isSome then (refuser 0x58 0, s)
  else if down && s.mcLoad.isSome then (refuser 0x59 ((s.mcLoad.map (·.cluster)).getD 0), s)
  else if sleep && ((decide (1 ≤ s.drove.role) && decide (s.drove.role ≤ 2) && !s.drove.live.isEmpty) || s.drove.armed.isSome) then (refuser 0x50 0, s)
  else if sleep && !fns.isEmpty then
    let f := s.fresh
    let n := fns.getD (f.1 % fns.length) 0
    (some ⟨0x49, 0, some n⟩, f.2)
  else if sleep && (!s.host.cmds.isEmpty || (q == .doze && s.portAwake)) then (refuser 0x48 0, s)
  else if sleep && !s.critical.isEmpty then (refuser 0x32 0, s)
  else if q == .doze && !s.keys.queue.isEmpty then (refuser 0x21 0, s)
  else
    match if q == .doze then (List.range 8).find? (bitAt (s.get R.VREG.LINK_STATUS_UNSUPPORTED)) else none with
    | some n => (refuser 4 n, s)
    | none => (none, s)

/-- A request is checked: refused with its outcome, or carried out (R549, R551). -/
def State.request (s : State) (q : PwrReq) (go : State → State) : State :=
  match s.veto q with
  | (some r, t) => t.charge q.target 2 0 r
  | (none, t) => go (t.setOutcome q.target 0 ⟨0, 0, none⟩)

/-! ### Voltage steps -/

/-- Steps of at most 50 mV from one set point to another (R555). The fuel bounds their number. -/
def stepsTo (slot : Nat) : Nat → Nat → Nat → List VStep
  | 0, _, _ => []
  | f + 1, a, b =>
    if a = b then []
    else
      let c := if a < b then min b (a + 50) else max b (a - 50)
      ⟨slot, c⟩ :: stepsTo slot f c b

/-- The present slots of a rail. -/
def State.railSlots (s : State) (rail : Nat) : List Nat :=
  (List.range 8).filter fun n => bitAt (s.get R.VREG.LINK_STATUS_PRESENT) n && s.get (R.VREG.SLOT_CFG_RAIL n) == rail

/-- DOZE set point of a rail, in mV (R557). -/
def dozePoint (rail : Nat) : Nat := if rail = 2 then 700 else 650

/-- The steps of DOZE entry, in order (R557). -/
def State.dozeSteps (s : State) : List VStep :=
  [1, 0, 2].flatMap fun rail => (s.railSlots rail).flatMap fun n => stepsTo n 64 (s.get (R.VREG.VOUT_SET_MV n)) (dozePoint rail)

/-- The steps of DOZE exit: the entry's in reverse (R557). -/
def State.raiseSteps (s : State) : List VStep :=
  ([1, 0, 2].reverse).flatMap fun rail => ((s.railSlots rail).reverse).flatMap fun n =>
    stepsTo n 64 (dozePoint rail) (s.get (R.VREG.VOUT_SET_MV n))

/-! ### Quiesce and resume -/

/-- The cores 0-71. -/
def State.eachCore (s : State) (f : State → Fin 72 → State) : State := (List.finRange 72).foldl f s

/-- DOZE phase 3: cores parked, DRAM in self-refresh, CORE, ENG and FAB gated, MEM stopped, the Gate and Drove links down (R548,
R560). -/
def State.quiesce (s : State) : State :=
  let t := s.eachCore fun t c => t.parkCore c .doze
  let t := (List.range 4).foldl (fun t c => if t.dramState c = 2 then t.put (R.DRAM.CH_STATUS_STATE c) 3 else t) t
  let t := t.put R.CLK.DOMAINS_RUNNING 0x10
  let t := if t.gateActive || t.gateRetrain then t.linkReset else t
  let t := (t.put R.GATE.LINK_STATUS_LTSSM 0).setGate fun g => { g with mayTrain := false, failedAt := none }
  let t := t.puts [(R.DROVE.LINK_A_UP, 0), (R.DROVE.LINK_B_UP, 0), (R.DROVE.SET_STATUS_QUORUM, 0), (R.DROVE.SET_STATUS_LIVE, 1)]
  { t with drove := { t.drove with a := DroveLink.down, b := DroveLink.down, live := [], quorum := false } }

/-- The clocks run again (R548, R560). -/
def State.clocksOn (s : State) : State := s.put R.CLK.DOMAINS_RUNNING 0x1F

/-- The firmware unparks and the links may train (R548, R54). -/
def State.unquiesce (s : State) : State :=
  let t := (List.range 4).foldl (fun t c => if t.dramState c = 3 then t.dramUp c else t) s
  (t.eachCore fun t c => t.resumeCore c .doze).setGate fun g => { g with mayTrain := true }

end Sys2Proof.Machine
end

