-- ==== Sys2Proof/Machine/Restart.lean ====
section
/-!
DEFINITION. What a reset or the loss of the rails leaves (R44, R106, R145, R565, R607, R614): what flash, the Tally, OTP, device
metadata and the always-on domain hold stays; all else takes its reset value. FOLD is entered here, and a boot begins here.
-/

namespace Sys2Proof.Machine

/-! ### Registers -/

/-- What the Tally and device metadata hold of the array's registers (R269, R273, R285, R288). -/
def keptArray : List Fld :=
  [R.ARRAY.LAYOUT_K, R.ARRAY.LAYOUT_OLD_K, R.ARRAY.LAYOUT_GENERATION, R.ARRAY.RESHAPE_POS_UNITS, R.ARRAY.RESHAPE_TOTAL_UNITS,
   R.ARRAY.JOURNAL_DIES_DIE0, R.ARRAY.JOURNAL_DIES_DIE1, R.ARRAY.JOURNAL_DIE2_DIE2, R.ARRAY.BITMAP_POSITION,
   R.ARRAY.ARRAY_STATUS_OFFLINE_CAUSE]

/-- Registers of the always-on domain and the Tally, which every reset but the rise of VDD_AON leaves (R561, R614; log entry 27). -/
def keptAlways (f : Fld) : Bool :=
  keptArray.contains f ||
  (f.page == 4 && (f.off == 0x054 || decide (0x060 ≤ f.off)))
    || (f.page == 0xA && decide (0x044 ≤ f.off) && decide (f.off ≤ 0x050))
    || f == R.CLK.ROOT_STATUS_LOCK_LOSSES || f == R.PWR.REFUSALS_COUNT || f == R.PWR.ABORTS_COUNT || f == R.HOSTQ.PORT_CFG_MODE

/-- Retirements and what OTP gives, which a warm reset leaves (R565, R204; log entry 27). -/
def keptRetired (f : Fld) : Bool :=
  f == H.RETIRED f.page || f == R.SHEARS.LANES_LIVE_MASK || f == R.EARMARK.BANKS_RETIRED_MASK || f == R.CIPHER.PIPES_LIVE
    || f == R.DIGEST.UNITS_LIVE_MASK || (List.range 12).any (fun l => f == R.LANE.LANE_STATUS_RETIRED l)
    || (List.range 32).any (fun b => f == R.BANK.BANK_STATUS_RETIRED b)
    || (List.range 4).any (fun c => f == R.DRAM.CH_STATUS_STATE c || f == R.DRAM.CH_STATUS_RETIRE_CAUSE c)
    || (List.range 32).any (fun c => f == R.NAND.CH_STATUS_STATE c || f == R.NAND.CH_STATUS_CODE c || f == R.NAND.HARD_CAP_BITS c
          || f == R.NAND.HARD_CAP_HALF c)
    || (f.page == 3 && (f == R.VREG.LINK_STATUS_PRESENT || (decide (0x080 ≤ f.off) && decide (f.off % 0x10 < 8))))

/-- The field's row is RWS (R44). -/
def isRws (f : Fld) : Bool :=
  match kindOf f.page with
  | some k => k.rows.any fun r => r.off == f.off && r.lo == f.lo && r.rws
  | none => false

/-- What a warm reset leaves (R44, R614, R616, R646). -/
def keptWarm (f : Fld) : Bool :=
  keptAlways f || (decide (f.page < 0x10000) && isRws f) || keptRetired f || (f.page == 0xA && (f.off == 0x040 || f.off == 0x054 || f.off == 0x068))

/-! ### Media and array -/

/-- A stripe as flash holds it: one whose programs had not all ended, and one that was being written again elsewhere, is owed a
resynchronisation, and what its programs did not place is not there (R106, R220, R275, R280). -/
def Stripe.onFlash (pieces k i : Nat) (st : Stripe) : Stripe :=
  let bare := fun (u : DUnit) => { u with cmd := none }
  if st.closed || st.ended || (st.void && !st.pend) then { st with units := st.units.map bare }
  else if !st.issued || st.done.isEmpty then { Stripe.fresh with void := true }
  else
    { st with ended := true, pend := true, void := false, failed := (List.range (k + 2)).filter (!st.done.contains ·)
              units := st.units.zipIdx.map fun u =>
                if st.done.contains (roleMember k i (u.2 / max 1 pieces)) then bare u.1 else { bare u.1 with kind := 0 } }

/-- Drop the last stripes that hold nothing. -/
def dropEmpty (l : List Stripe) : List Stripe := (l.reverse.dropWhile fun st => st.void && st.units.isEmpty).reverse

/-- A group as flash holds it. -/
def State.groupOnFlash (s : State) (g : Group) : Group :=
  { g with stripes := dropEmpty (g.stripes.zipIdx.map fun x => x.1.onFlash (s.pieces g.use.isSlc) g.k x.2) }

/-- A record of the journal is durable, or the checkpoint was taken after it. -/
def State.recDurable (s : State) (kind logical : Nat) : Bool :=
  ((s.media.durableAfter 0).any fun r => r.kind == kind && r.logical == logical)
    || (match s.media.ckpt with
        | some c => match c.image.groups.find? (·.num == logical) with
          | some g => (kind == 0x06 && g.closeLogged) || (kind == 0x07 && g.state == .freed && g.freeAt.isNone)
          | none => false
        | none => false)

/-- The physical state of a group when power goes: a free that is not durable never happened, and an erase starts afresh (R226). -/
def State.groupKept (s : State) (g : Group) : Group :=
  let h := s.groupOnFlash g
  let freed := g.state == .freed && s.recDurable 0x07 g.num
  { h with state := if g.state = .freed then (if freed then .freed else .closed) else g.state
           erased := [], erasing := false, ending := false, freeAt := none, closeLogged := g.closeLogged && s.recDurable 0x06 g.num }

/-- The journal pages that a boot reads: those whose three copies have been programmed, up to the first that lacks one (R224, R230;
log entry 36). -/
def State.durablePages (s : State) : List JPage :=
  s.media.journal.takeWhile fun p => p.durable || s.pageDone p.num

/-- The record of a checkpoint in progress of which a copy has been programmed: a boot that scans for records finds it (R229). -/
def State.sentCkpt (s : State) : List Ckpt :=
  match s.media.job with
  | some ⟨some c, _, true⟩ => if (match s.page? c.num with | some p => p.copies.any (·.done) | none => false) then [c] else []
  | _ => []

/-- The media map when power goes: what is on flash and in the Tally stays; the map itself is loaded again at boot (R230). The causes
of SAFE that a checkpoint records are written through to it (R285, R548; log entry 28). -/
def State.lostMedia (s : State) : MediaSt :=
  let m := s.media
  let now := fun (c : Ckpt) => { c with offline := s.offline, safeCause := s.get R.PWR.SAFE_CAUSE_CAUSE }
  { MediaSt.reset with
    formatted := m.formatted, nextGroup := m.nextGroup, journal := s.durablePages, nextPage := m.nextPage
    auditAt := m.auditAt, metaBlocks := m.metaBlocks.map fun x => { x with erasing := false }
    pages := m.pages
    ckpts := (if s.pwr.bootPhase = 0 ∨ 7 ≤ s.pwr.bootPhase then m.ckpts.map now else m.ckpts) ++ s.sentCkpt
    image := { m.image with map := [], groups := m.image.groups.map s.groupKept } }

/-- The array when power goes: the stripe journal, the Tally's bitmap and reshape checkpoint, and the lists kept in device
metadata stay; lost members stay lost until cold reset (R279). -/
def ArraySt.kept (a : ArraySt) (warm : Bool) : ArraySt :=
  { ArraySt.reset with
    lost := if warm then a.lost else [], snap := a.snap, snapNew := a.snapNew, bitmap := a.bitmap, bitmapWrites := a.bitmapWrites
    reshape := a.reshape, reshapeSeq := a.reshapeSeq, reshapeFreed := a.reshapeFreed, seed := a.seed, turns := a.turns, holes := a.holes }

/-- The Tally when power goes: after an unclean stop any of the copies of the checkpoint pointer and of the bitmap's header may be
unreadable, as a free value says (R229, R275; log entry 34). -/
def State.tallyKept (s : State) : TallySt :=
  if s.pwr.cleanStop then s.tally
  else
    let v := s.fresh.1
    let bad := ([(.pointers, 0), (.pointers, 1), (.bitmap, 0), (.bitmap, 1)] : List (TallyArea × Nat)).zipIdx.filterMap fun x =>
      if bitAt v x.2 then some x.1 else none
    { s.tally with unread := (s.tally.unread ++ bad).eraseDups }

/-! ### Takes -/

/-- The open take as the next boot finds it: cut at its secured prefix, its trailer owed with CLOSE_REASON 0x06 (R106). A take whose
whole trailer was secured is closed as it stands. -/
def State.cutAtLoss (s : State) : State :=
  match s.take.c with
  | none => s
  | some c =>
    let x := s.take
    let whole := match x.trailer with | some (_, _, fin) => decide (fin ≤ x.secured) | none => false
    if s.get R.TAKE.TAKE_STATE_STATE < 2 then s
    else if whole then s.sealNs c.nsid x.reason x.cont.length false
    else
      let y := { x.cut with reason := if x.reason = 8 then 8 else 6 }
      let t := { s with take := y }
      (t.sealNs c.nsid y.reason y.cont.length true).setKeys fun k => { k with owedTrailers := k.owedTrailers ++ [(c.nsid, y)] }

/-- Windows open at the stop are sealed at the ring's secured prefix, with CUT set (R145); no window keeps or awaits a frame past
it, and copies resume from what is on flash. -/
def State.cutWindows (s : State) : State :=
  let t := ((List.range 64).foldl (fun t i => if (t.win i).state = 1 then t.sealWindow i true else t) s).cutPinned
  t.setTrig fun x => { x with copies := x.copies.map fun c =>
    (c.1, c.2.1, min c.2.2 (s.securedPrefix ((x.windows.getD c.1 Window.free).nsid) c.2.2)) }

/-! ### The whole -/

/-- Namespaces that outlive a reset: those in the catalogue, and only the PFs' attachments (R491, R492). -/
def keptNs (l : List Ns) : List Ns :=
  (l.filter fun n => n.kind == .block || n.kind == .take).map fun n => { n with attached := n.attached.filter fun f => f == 0 || f == 0x101 }

/-- A core after a reset: a retired one stays so over a warm reset. -/
def coresAfter (warm : Bool) (l : Vector Core 72) : Vector Core 72 :=
  l.map fun k => if warm ∧ k.state = .retired then { Core.off with state := .retired } else Core.off

/-- The RTC's count is taken over at this moment. -/
def State.rebaseRtc (s : State) : State := { s with rtcBase := s.rtcTicks, rtcAt := s.time }

/-- A channel that a reset finds evacuating or retired stays retired, and a flash channel in FAULT or RETIRED as well; others are
OFF. -/
def State.channelsOff (s : State) : State :=
  let t := (List.range 4).foldl (fun t c => t.put (R.DRAM.CH_STATUS_STATE c) (if 5 ≤ s.get (R.DRAM.CH_STATUS_STATE c) then 6 else 0)) s
  (List.range 32).foldl (fun t c => t.put (R.NAND.CH_STATUS_STATE c) (if 3 ≤ s.get (R.NAND.CH_STATUS_STATE c) then s.get (R.NAND.CH_STATUS_STATE c) else 0)) t

/-- Everything that is not kept takes its reset value. The window table is kept whole (DESIGN CHOICE, log entry 72). -/
def State.lose (s0 : State) (warm : Bool) : State :=
  let s := (s0.rebaseRtc.cutWindows).cutAtLoss
  let p := s.pwr
  let t : State := { State.reset with
    pending := s.pending, time := s.time, freeNext := s.fresh.2.freeNext, rtcBase := s.rtcBase, rtcAt := s.rtcAt
    regs := s.regs.filter fun x => if warm then keptWarm x.1 else keptAlways x.1
    trust := { TrustSt.reset with
      otp := s.trust.otp, makerGen := s.trust.makerGen, instGen := s.trust.instGen, decom := s.trust.decom, lockouts := s.trust.lockouts
      cred := s.trust.cred, audit := s.trust.audit, auditSeq := s.trust.auditSeq, auditHead := s.trust.auditHead
      auditHeadSeq := s.trust.auditHeadSeq }
    take := { TakeSt.reset with nextUid := s.take.nextUid, nextId := s.take.nextId }
    trig := { State.reset.trig with windows := s.trig.windows, copies := s.trig.copies }
    nand := { State.reset.nand with
      part := if warm then s.nand.part else none, factoryBad := s.nand.factoryBad, flash := s.nand.flash, bad := s.nand.bad
      blank := s.nand.blank }
    media := s.lostMedia, array := s.array.kept warm, tally := s.tallyKept
    keys := { KeySt.reset with records := s.keys.records, nextRec := s.keys.nextRec, due := s.keys.due, purge := s.keys.purge, owedTrailers := s.keys.owedTrailers, alarmed := warm && s.keys.alarmed }
    ns := keptNs s.ns, mem := { State.reset.mem with hostA := s.mem.hostA, hostB := s.mem.hostB }
    cores := coresAfter warm s.cores, clusters := s.clusters.map fun q => { Cluster.empty with kept := q.kept }
    tenant := { State.reset.tenant with profs := s.tenant.profs, gens := s.tenant.gens }
    host := { HostSt.reset with catalog := s.host.catalog }
    pwr := { PwrSt.reset with
      wakes := p.wakes, mainOk := p.mainOk, pfHigh := p.pfHigh, perst := p.perst, modeSince := p.modeSince
      acct := p.acct, blockAcct := p.blockAcct, colds := p.colds, cleanStop := p.cleanStop, stoppedAt := p.stoppedAt, config := p.config
      fw := { FwSt.reset with region := p.fw.region, slots := p.fw.slots, nextSlot := p.fw.nextSlot }
      tj := p.tj, hotSince := none, pfBegun := p.pfBegun, dead := p.dead, bootAt := s.time
      thermal := p.thermal }
    drove := { DroveSt.reset with epoch := s.drove.epoch, nextOp := s.drove.nextOp } }
  if warm then t.channelsOff else t

/-- Roles and perturbation end by a reset, with their audit entries (R592, R601). -/
def State.endTrust (s : State) : State := (s.trust.sessions.foldl (fun t x => t.endRole x .reset) s).endPerturb .reset

/-- FOLD is entered (R545, R548, R104): every rail but the always-on domain's is off. -/
def State.enterFold (s : State) (clean railsOff : Bool) : State :=
  let t := (s.endTrust.setMode 0).setPwr fun p => { p with cleanStop := clean || p.cleanStop, stoppedAt := s.rtcTicks, wakes := 0 }
  let t := (t.lose false).setPwr fun p => { p with bootPhase := 0, railsOff := railsOff, residenceOver := false, modeSince := s.time }
  t.puts [(R.PWR.MODE_MODE, 0), (R.PWR.MODE_PREV, s.mode)]

/-- The functions of ports whose PERST# is released exist again in a boot, once their grants can be made (R375, R398, R444, R491). -/
def State.portFnsBack (s : State) : State :=
  let t := if s.pwr.perst.1 && (s.fn 0).isNone then s.createFn 0 else s
  if s.pwr.perst.2 && t.get R.HOSTQ.PORT_CFG_MODE == 1 && (t.fn 0x101).isNone then t.createFn 0x101 else t

/-- Before the first format the width is OTP's (R256, R290). -/
def State.layoutBack (s : State) : State := if s.media.formatted then s else s.put R.ARRAY.LAYOUT_K s.otpLayout.2

/-- DTIME is set to the RTC's seconds and subseconds (R560). -/
def State.setDtime (s : State) : State :=
  let n := s.rtcTicks
  { s with time := n * 1000000000 / 32768, rtcBase := n, rtcAt := n * 1000000000 / 32768 }

/-- A boot begins (R565, R571): DTIME follows the RTC, OTP is read at a cold reset, and the pages that mirror it are filled. -/
def State.startBoot (s : State) (cold : Bool) (cause : Nat) : State :=
  let t := s.setDtime
  let t := t.setPwr fun p => { p with bootPhase := 1, bootAt := t.time, modeSince := t.time, colds := if cold then p.colds + 1 else p.colds,
                                      idleSince := t.time, railsOff := false, residenceOver := false }
  let t := if cold then t.takeOtp else t
  (t.mirrorOtp.puts [(R.PWR.RESET_CAUSE_CAUSE, cause), (R.PWR.WAKE_CAUSE_SOURCES, if cause = 2 then t.pwr.wakes else 0),
    (R.CLK.ROOT_STATUS_REF_PRESENT, 1)]).layoutBack

/-- A cold reset (R565): from FOLD what is left is already lost, and the alarms and OSC_FAIL, which FOLD kept, return to their reset
values with every other field (R44, R574). The always-on domain itself starts afresh where VDD_AON rises or
AON_RST_N goes low; the RTC is then no longer valid after the former (R561; log entry 27). -/
def State.coldReset (s : State) (cause : Nat) : State :=
  let from_ := s.mode
  let t := if from_ = 0 then s else ((s.endTrust.setMode 2).setPwr fun p => { p with stoppedAt := s.rtcTicks }).lose false
  let t := if from_ = 0 then
      t.setPwr fun p => { p with acct := modAt (modAt p.acct 0 fun a => { a with ns := a.ns + (s.time - p.modeSince) }) 2
                                           fun a => { a with entries := sat32 (a.entries + 1) } }
    else t
  let t := t.puts [(R.PWR.MODE_MODE, 2), (R.PWR.MODE_PREV, from_)]
  let t := t.rebaseRtc.unput fun f => !(f == R.RTC.STATUS_OSC_FAIL || (f.page == 4 && decide (0x060 ≤ f.off)))
  let t := if 2 ≤ cause then t else t.setTrust fun x => { x with lockouts := TrustSt.reset.lockouts }
  let t := if cause = 0 then
      let f := t.fresh
      { f.2 with rtcBase := f.1 % 2 ^ 63, regs := f.2.regs.filter fun x => x.1.page != 4 }
    else t
  (t.setPwr fun p => { p with dead := false }).startBoot true cause

/-- A warm reset (R565): the always-on domain and RWS fields stay. -/
def State.warmReset (s : State) (cause : Nat) (clean : Bool) : State :=
  let t := ((s.endTrust.setMode 2).setPwr fun p => { p with cleanStop := clean || p.cleanStop, stoppedAt := s.rtcTicks }).lose true
  (t.puts [(R.PWR.MODE_MODE, 2), (R.PWR.MODE_PREV, s.mode)]).startBoot false cause

end Sys2Proof.Machine
end

