-- ==== Sys2Proof/Machine/Take.lean ====
section
/-!
DEFINITION. The lifecycle of a take: admission (R92-R94), the allowance (R96-R100), padding and securing (R101-R103), and
closing (R111).
-/

namespace Sys2Proof.Machine

/-- Refuse a TAKE_OPEN (R73, R111, R122). -/
def State.refuseTake (s : State) (p : TakeOpenPkt) (reason : Nat) : State :=
  ((s.send (grantPkt p.reqId.toNat 2 reason 0 0 0 0 0)).pulse 0x11 Ev.TAKE.REFUSED).record 0x11 E.TAKE_CONTRACT_REFUSED reason 0x1F1

/-- TAKE_OPEN (R72, R74, R111): every one is answered, in POWERFAIL with REASON 0x10 too (DESIGN CHOICE, log entry 26). -/
def execTakeOpen (p : TakeOpenPkt) (s : State) : Out :=
  let s := s.leaveRx (pktType · == 0x01)
  let st := s.get R.TAKE.TAKE_STATE_STATE
  if st = 0 then .next ((s.put R.TAKE.TAKE_STATE_STATE 1).setTake fun t => { t with req := some p }).follow
  else .next (s.refuseTake p 0x10)

/-- A TAKE_OPEN holds a reserved encoding (R72, R74, R130). -/
def openReserved (p : TakeOpenPkt) : Bool :=
  decide (1 < p.tier.toNat) || decide (1 < p.kind.toNat) || p.rate.toNat == 0 || decide (112000 < p.rate.toNat)
    || decide (p.minRatio.toNat < 256) || p.streams.toNat == 0 || decide (4 < p.effort.toNat) || decide (4 < p.pred.toNat)
    || decide (3 < p.digestAlg.toNat) || (p.kind.toNat == 0 && p.ringGib.toNat != 0) || (p.kind.toNat == 1 && decide (p.ringGib.toNat < 4))

/-- What admission computes (R92): a refusal, or rate, duration, allowance, Lee share in MiB. -/
inductive Admission where
  | refuse (reason : Nat)
  | grant (rate duration cap lee : Nat)
deriving DecidableEq, Repr

/-- Admission (R92). Rates in MB/s; r is MIN_RATIO / 256; capacities are compared in bytes. -/
def State.admission (s : State) (p : TakeOpenPkt) : Admission :=
  if openReserved p then .refuse 0x13
  else if p.kind.toNat = 1 ∧ p.tier.toNat = 0 then .refuse 0x14
  else if s.offline then .refuse 0x15
  else if s.takeNsid.isNone then .refuse 0x16
  else if s.mode = 7 ∨ s.keys.kekMedia.isNone ∨ s.lifecycle = 3 then .refuse 0x11
  else
    let m := s.mRate p.tier.toNat
    let r := p.minRatio.toNat
    let rate := min (min p.rate.toNat s.gateLimit) (min (9600 * s.liveLanes) (m * r / 256))
    let rate := if bitAt p.flags.toNat 1 && p.digestAlg.toNat == 0 then min rate 76800 else rate
    if rate = 0 then .refuse 0x17
    else
      let cap := s.allowance m s.leeShare
      let room := if p.tier.toNat = 0 then s.poolUser * 1000000 else s.freeUserMB * 1000000 - cap
      if p.kind.toNat = 1 ∧ room < p.ringGib.toNat * 2 ^ 30 then .refuse 0x12
      else if p.tier.toNat = 1 ∧ s.poolUser * 1000000 < cap then .refuse 0x12
      else
        let dmax := room * r / (256 * rate * 1000000)
        if dmax = 0 then .refuse 0x12
        else
          let want := p.duration.toNat
          let d := if p.kind.toNat = 1 ∨ (p.tier.toNat = 1 ∧ want = 0) then 0 else if want = 0 then dmax else min want dmax
          .grant rate d cap s.leeShare

/-- REASON of a grant (R93). -/
def grantReason (p : TakeOpenPkt) (rate duration : Nat) : Nat :=
  let a := rate != p.rate.toNat
  let b := duration != p.duration.toNat
  b2n a + b2n b * 2

/-- Fallow reservation of a grant in MB (R94). -/
def reservedMB (tier rate minRatio duration cap : Nat) : Nat :=
  if tier = 0 then ceilDiv (rate * 256 * duration) minRatio else toMB cap

/-- The container's reserved size in LBAs while a take is open (R119, R133; log entry 50). -/
def reservedLbas (p : TakeOpenPkt) (rate duration : Nat) : Nat :=
  if p.kind.toNat = 1 ∨ duration = 0 then 2 ^ 38 else ceilDiv (rate * 256 * duration * 1000000) (p.minRatio.toNat * 4096)

/-- Digest units of a take: RAW and STORED snoops (R432). -/
def takeUnits (p : TakeOpenPkt) (rate : Nat) : Nat × Nat :=
  let u := if p.digestAlg.toNat = 0 then 2400 else 3840
  (if bitAt p.flags.toNat 1 then ceilDiv rate u else 0, ceilDiv (rate * 256) (p.minRatio.toNat * u))

/-- The summary-key selectors in force for the used streams (R113, R129). -/
def State.keySels (s : State) (streams : Nat) : List (List Nat) :=
  (List.range 8).map fun n =>
    if bitAt streams n then
      (List.range 8).map fun j =>
        s.get (R.SUMM.KEYSEL_SRC n j) + s.get (R.SUMM.KEYSEL_INDEX n j) * 2 ^ 8 + s.get (R.SUMM.KEYSEL_SHIFT n j) * 2 ^ 20
    else []

/-- The grant's contract, reservations, namespace, header and stream table (R94, R111-R113, R119). -/
def State.openTake (s : State) (p : TakeOpenPkt) (rate duration cap lee nsid rec slot : Nat) : State :=
  let m := s.mRate p.tier.toNat
  let id := s.take.nextId
  let lanes := ceilDiv rate 9600
  let res := reservedMB p.tier.toNat rate p.minRatio.toNat duration cap
  let c : Contract :=
    { takeId := id, reqId := p.reqId.toNat, nsid := nsid, tier := p.tier.toNat, kind := p.kind.toNat, rate := rate,
      minRatio := p.minRatio.toNat, streams := p.streams.toNat, effort := p.effort.toNat, pred := p.pred.toNat, flags := p.flags.toNat % 4,
      alg := p.digestAlg.toNat, duration := duration, ringGib := p.ringGib.toNat, cap := cap, lee := lee, reserved := res,
      k := s.openWidth, slot := slot, lanes := lanes }
  let sels := s.keySels c.streams
  let tk : TakeInfo :=
    { takeId := id, kind := c.kind, tier := c.tier, streams := c.streams, opened := true, incomplete := false, reason := 0, flags := 0,
      parent := 0, start := s.time, fin := 0, bytes := 0, frames := 0, raw := 0, marked := 0, alg := c.alg }
  let n : Ns := { nsid := nsid, kind := .take, nsze := reservedLbas p rate duration, nuse := 0,
                  attached := [0, 0x101] ++ (s.tenant.fns.filter (·.p.takes)).map (·.p.func), keyRec := rec, keySeq := s.keySeq rec, tk := some tk, released := [] }
  let u := takeUnits p rate
  let t := s.puts [(R.TAKE.TAKE_STATE_STATE, 2), (R.TAKE.TAKE_ID_ID, id), (R.TAKE.GRANT_RATE_MBPS, rate),
    (R.TAKE.GRANT_DURATION_SECONDS, duration), (R.TAKE.UNSECURED_CAP_BYTES, cap), (R.TAKE.SECURED_LEN_BYTES, 0),
    (R.TAKE.RATIO_NOW_RATIO, 0), (R.TAKE.DIE_SHARE_PERMILLE, dieShare rate c.minRatio m), (R.TAKE.FRAMES_SECURED_COUNT, 0),
    (R.FALLOW.RESERVED_USER_MB, res), (R.DIGEST.UNITS_TAKE_RAW, u.1), (R.DIGEST.UNITS_TAKE_STORED, u.2)]
  let t := t.setTake fun x =>
    { TakeSt.reset with c := some c, grantTime := s.time, tailSince := s.time, ratioFrom := s.time, nextUid := x.nextUid, nextId := id + 1,
                        keysel := sels, rtcAtGrant := s.rtcValue, acks := x.acks, refusing := x.refusing,
                        releasing := x.releasing }
  let t := { t with ns := t.ns ++ [n] }
  let t := t.reserveLanes (t.lowestLanes lanes)
  let fl := b2n (bitAt c.flags 1) + b2n (bitAt c.flags 0) * 2 + s.get R.RTC.STATUS_VALID * 8
  let h := takeHeader s.serial ⟨fl, id, s.time, s.rtcValue, c, duration, t.keyRef rec, 0⟩
  (t.appendRaw (h ++ streamTable c sels)).catalogChanged.nsChanged n

/-- Admission's outcome for a request: the take opens, or its TAKE_OPEN is refused (R73, R92-R94, R111), with REASON 0x11 too where no
key slot of the system is free for its media key (DESIGN CHOICE, log entry 26). -/
def State.grantTake (s : State) (p : TakeOpenPkt) : State :=
  let s := s.setTake fun t => { t with req := none }
  let no := fun (t : State) (why : Nat) => (((t.put R.TAKE.TAKE_STATE_STATE 0).refuseTake p why).follow : State)
  match s.admission p, s.takeNsid with
  | .refuse why, _ => no s why
  | .grant rate d cap lee, some nsid =>
    match s.newMediaKey nsid with
    | (none, t) => no t 0x11
    | (some (rec, slot), t) =>
      let why := grantReason p rate d
      let u := t.openTake p rate d cap lee nsid rec slot
      let u := u.send (grantPkt p.reqId.toNat (b2n (why != 0)) why u.takeId rate d cap lee)
      let u := if why = 0 then u else u.takeErr E.TAKE_CONTRACT_REDUCED
      (u.pulse 0x11 Ev.TAKE.ADMITTED).follow.settle
  | .grant .., none => no s 0x16

/-- TAKE_GRANT (R73, R92-R94, R111): the request under admission is granted or refused. An armed start's waits for its T (R521). -/
def execTakeGrant (s : State) : Out :=
  match s.take.req with
  | none => .next s
  | some p => if s.get R.TAKE.TAKE_STATE_STATE ≠ 1 ∨ s.drove.armed.isSome then .next s else .next (s.grantTake p)

/-- TAKE_CLOSE (R74, R111): a take that is CLOSING is not open. -/
def execTakeClose (id : BitVec 64) (s : State) : Out :=
  let s := s.leaveRx (pktType · == 0x03)
  if !s.takeLive || s.takeId != id.toNat then .next (s.record 0x10 E.GATE_BAD_PACKET 0 0x1F1)
  else .next (s.closeTake 0 1).settle

/-- TAKE_DURATION_EXPIRY (R111): DURATION in DTIME from the grant. -/
def execTakeDurationExpiry (s : State) : Out :=
  match s.take.c with
  | some c =>
    if !s.takeLive || c.duration == 0 then .next s
    else .next ({ s with time := max s.time (s.take.grantTime + c.duration * 1000000000) }.closeTake 1 2).settle
  | none => .next s

/-- TAKE_RATE_BREACH (R99): unsecured data reaches the allowance. -/
def execTakeRateBreach (s : State) : Out :=
  match s.take.c with
  | some c =>
    if s.get R.TAKE.TAKE_STATE_STATE ≠ 2 ∨ s.unsecured < c.cap then .next s
    else
      let t := (s.put R.TAKE.TAKE_STATE_STATE 3).hold R.GATE.CREDIT_STATE_HELD_BREACH true
      .next (((t.bump R.TAKE.BREACH_COUNT_COUNT).pulse 0x11 Ev.TAKE.RATE_BREACH).takeErr E.TAKE_RATE_BREACH)
  | none => .next s

/-- TAKE_BREACH_RELEASE (R99): unsecured data is below the allowance by the release margin. -/
def execTakeBreachRelease (s : State) : Out :=
  match s.take.c with
  | some c =>
    if s.get R.TAKE.TAKE_STATE_STATE ≠ 3 ∨ c.cap < s.unsecured + releaseMargin c.cap then .next s
    else .next (((s.put R.TAKE.TAKE_STATE_STATE 2).hold R.GATE.CREDIT_STATE_HELD_BREACH false).pulse 0x11 Ev.TAKE.BREACH_CLEAR)
  | none => .next s

/-- TAKE_RATIO_MEASURE (R100): one second of payload; with nothing stored the ratio shows its largest value (log entry 52). -/
def execTakeRatioMeasure (s : State) : Out :=
  match s.take.c with
  | some c =>
    if !s.takeLive then .next s
    else
      let t := { s with time := max s.time (s.take.ratioFrom + 1000000000) }
      let raw := t.take.ratioRaw
      let stored := t.take.cont.length - t.take.ratioStored
      let u := t.setTake fun x => { x with ratioFrom := t.time, ratioRaw := 0, ratioStored := x.cont.length }
      if raw = 0 then .next u
      else
        let r := if stored = 0 then 65535 else min 65535 (raw * 256 / stored)
        let u := u.put R.TAKE.RATIO_NOW_RATIO r
        if c.minRatio ≤ r then .next u
        else .next (((u.setTake fun x => { x with ratioLow := t.time }).pulse 0x11 Ev.TAKE.RATIO_LOW).takeErr E.TAKE_RATIO_LOW)
  | none => .next s

/-- A PAD record that fills `room` bytes (R103, R114). -/
def padRecord (room : Nat) : Bytes := recHeader 0x06 0 (room - 64) 0 [] ++ List.replicate (room - 64) 0

/-- SECURE_WINDOW_PAD (R103): the tail stripe has waited SECURE_WINDOW without filling. -/
def execSecureWindowPad (s : State) : Out :=
  match s.take.c with
  | some c =>
    if s.take.trailer.isSome || s.take.noTrailer || s.tailRoom c == 0 then .next s
    else
      let t := { s with time := max s.time (s.take.tailSince + s.get R.TAKE.SECURE_WINDOW_US * 1000) }
      let t := if t.indexDue then t.appendIndex c else t
      let room := t.tailRoom c
      .next (if room = 0 then t else t.appendRaw (padRecord room)).settle
  | none => .next s

/-- The first stripe all of whose units have completed program and that has not closed. -/
def State.stripeToClose (s : State) : Option (Group × Nat) :=
  s.groups.findSome? fun g =>
    (g.stripes.zipIdx.find? fun x => !x.1.settled && !x.1.pend && (List.range (g.k + 2)).all x.1.done.contains).map fun x => (g, x.2)

/-- NUSE of a kept take being copied follows its secured prefix (R119, R148). -/
def State.followCopies (s : State) : State :=
  s.trig.copies.foldl (fun t x => t.modNs (t.win x.1).nsid fun n => { n with nuse := t.securedPrefix n.nsid x.2.2 / 4096 }) s

/-- STRIPE_CLOSE (R101, R102): a stripe closes and the secured prefix advances. -/
def execStripeClose (s : State) : Out :=
  match s.stripeToClose with
  | none => .next s
  | some (g, i) =>
    let t := s.modGroup g.num fun g => { g with stripes := modAt g.stripes i fun st => { st with closed := true } }
    let t := t.setArray fun a => { a with snapDirty := true }
    .next (t.advanceSecured.followCopies.closeFull.retryWaiting.freeEmpty.issueReady.ckptStep).settle

/-- Every frame of a closing take is secured or answered, and its trailer, if it gets one, is secured (R111). -/
def State.takeDone (s : State) : Bool :=
  let x := s.take
  x.frames.isEmpty && (x.noTrailer || (x.trailer.isSome && decide (x.cont.length ≤ x.secured)))

/-- The end of a take: TAKE_CLOSED is sent, its namespace sealed, all that it reserved released (R75, R111). The CLOSE_REASONs of a
power failure and of a recovery never appear in TAKE_CLOSED, so none is sent for them (R75, R118). -/
def State.finishTake (s : State) (c : Contract) : State :=
  let t := if s.take.noTrailer then s.cutTake else s
  let x := t.take
  let len := (DigestAlg.ofCode c.alg).len
  let top := if x.noTrailer then [] else
    match x.trailer with
    | some (man, _, _) => digest (DigestAlg.ofCode c.alg) (manifest c.alg (x.cont.take man) man).2
    | none => []
  let t := if x.reason = 5 ∨ x.reason = 6 then t
    else t.send (closedPkt c.takeId x.reason len x.framesStored x.rawStored x.cont.length x.marked top)
  let t := if x.reason = 8 then t.setKeys fun k => { k with owedTrailers := k.owedTrailers ++ [(c.nsid, x)] } else t
  let t := ((((t.sealNs c.nsid x.reason x.cont.length x.noTrailer).closeTakeGroups c.nsid).releaseTake).pulse 0x11 Ev.TAKE.CLOSED).follow
  t.wake (· == .takeClosed) Nv.ok

/-- TAKE_CLOSED (R75, R111): every frame is answered and the trailer is durable, or none is due. -/
def execTakeClosed (s : State) : Out :=
  match s.take.c with
  | none => .next s
  | some c => if s.get R.TAKE.TAKE_STATE_STATE ≠ 4 ∨ s.take.pfPhase ≠ 0 ∨ !s.takeDone then .next s else .next (s.finishTake c)

/-- FALLOW_RESERVATION_USED (R108): a FALLOW take goes on as ERASING. -/
def execFallowReservationUsed (s : State) : Out :=
  match s.take.c with
  | some c =>
    if !s.takeLive || c.tier != 0 || s.get R.FALLOW.RESERVED_USER_MB != 0 then .next s
    else .next ((s.modContract fun c => { c with tier := 1 }).recompute)
  | none => .next s

/-- MEDIA_CAPACITY_FULL (R247): an ERASING take's room is used up. -/
def execMediaCapacityFull (s : State) : Out :=
  match s.take.c with
  | some c =>
    let held := (s.ns.map Ns.heldMB).foldl (· + ·) 0
    if !s.takeLive || c.tier != 1 || decide (c.cap < (s.get R.MEDIA.MAXCAP_MB - held) * 1000000) then .next s
    else .next ((s.record 0x60 E.MEDIA_CAPACITY_FULL 0 0x1F1).closeExhausted 4).settle
  | none => .next s

end Sys2Proof.Machine
end

