-- ==== Sys2Proof/Machine/Power.lean ====
section
/-!
DEFINITION. Mode requests, DOZE and FOLD, regulators, RTC alarms and thermal stages (R545-R576, R631-R633), and the power-failure
sequence (R104-R106).
-/

namespace Sys2Proof.Machine

/-! ### Requests -/

/-- Phase 2 of an entry, and of a warm reset by request: the write buffer is programmed and a checkpoint taken (R548, R565). -/
def State.startDrain (s : State) (k : TranKind) : State :=
  let t := s.setPwr fun p => { p with tran := some ⟨k, 2, [], [], 0, false, false, 0⟩ }
  if t.media.formatted then t.drainBuffer.startCkpt else t

/-- MODE_REQ_DOZE (R547-R549). -/
def execModeReqDoze (o : Origin) (s : State) : Out :=
  .next (s.regCmd o 2 0x044 1 true false id fun t => t.request .doze fun t => t.startDrain .dozeEntry)

/-- MODE_REQ_FOLD (R547-R549). -/
def execModeReqFold (o : Origin) (s : State) : Out :=
  .next (s.regCmd o 2 0x044 0 true false id fun t => t.request .fold fun t => t.startDrain .foldEntry)

/-- DOZE_AFTER_EXPIRY (R547): DOZE_AFTER seconds of unbroken IDLE have passed. -/
def execDozeAfterExpiry (s : State) : Out :=
  let n := s.get R.PWR.DOZE_AFTER_S
  if n = 0 ∨ s.mode ≠ 3 then .next s
  else .next ({ s with time := max s.time (s.pwr.idleSince + n * 1000000000) }.request .doze fun t => t.startDrain .dozeEntry)

/-- ENTER (R547-R549). -/
def execEnter (o : Origin) (s : State) : Out :=
  .next (s.regCmd o 2 0x048 1 true false id fun t =>
    t.request .safeIn fun t => ((t.setOutcome 7 1 ⟨0, 0, none⟩).enterSafe 7).settle)

/-- Causes left after an installer's exit has cleared what it may (R548, R250). -/
def State.causesLeft (s : State) : Nat :=
  let c := setBit (s.get R.PWR.SAFE_CAUSE_CAUSE) 7 false
  if s.get R.MEDIA.SPARE_LOW_GB ≤ s.freeSpare then setBit c 0 false else c

/-- Block and instance behind a SAFE cause (R548). -/
def causeBlock (bit : Nat) : Option Refuser :=
  ([(0, 0x30, 0), (1, 0x32, 0), (2, 0x18, 12), (3, 0x20, 0), (4, 0x58, 0), (5, 0x40, 4), (6, 0x38, 0)].find? (·.1 == bit)).map fun x => ⟨x.2.1, x.2.2, none⟩

/-- SAFE ends (R548, R545). -/
def State.leaveSafe (s : State) : State :=
  let was := bitAt (s.get R.PWR.SAFE_CAUSE_CAUSE) 0
  let t := (s.put R.PWR.SAFE_CAUSE_CAUSE 0).setOutcome 3 1 ⟨0, 0, none⟩
  let t := if was then t.puts [(R.MEDIA.MEDIA_STATUS_READ_ONLY, 0), (R.MEDIA.MEDIA_STATUS_SAFE_CAUSE, 0)] else t
  if t.mode = 7 then ((t.setMode 3).pulse 2 Ev.PWR.SAFE_EXITED).follow else t

/-- EXIT (R548-R550): refused while a cause stays. -/
def execExit (o : Origin) (s : State) : Out :=
  .next (s.regCmd o 2 0x048 2 true false id fun t =>
    t.request .safeOut fun t =>
      let left := t.causesLeft
      match ((List.range 7).find? (bitAt left)).bind causeBlock with
      | some r => t.charge 3 2 0 r
      | none => t.leaveSafe)

/-! ### DOZE -/

/-- DOZE exit begins: the wake is shown, and the rails rise (R548). -/
def State.startDozeExit (s : State) : State :=
  let st := s.raiseSteps
  let t := s.put R.PWR.WAKE_CAUSE_SOURCES s.pwr.wakes
  let t := if st.isEmpty then t.clocksOn else t
  t.setPwr fun p => { p with tran := some ⟨.dozeExit, if st.isEmpty then 4 else 2, st, [], 0, false, false, 0⟩ }

/-- DOZE is entered; a wake source latched meanwhile ends it at once (R548, R550). -/
def State.dozeEntered (s : State) : State :=
  let t := ((s.setPwr fun p => { p with tran := none }).setOutcome 1 1 ⟨0, 0, none⟩).setMode 1
  if t.pwr.wakes = 0 then t else t.startDozeExit

/-- The newest checkpoint covers the whole journal (R231). -/
def State.covered (s : State) : Bool :=
  s.media.page.isEmpty && (match s.media.ckpt with | some c => s.media.journal.all fun p => decide (p.num ≤ c.pos) | none => false)

/-- DOZE_DRAIN_DONE (R231, R548): the buffer is programmed, and a durable checkpoint covers the journal; records that came after it ask for
another one. -/
def execDozeDrainDone (s : State) : Out :=
  match s.pwr.tran with
  | none => .next s
  | some x =>
    let ready := !s.media.formatted || (s.drained && !s.bit R.MEDIA.MEDIA_STATUS_CKPT_BUSY)
    if x.phase ≠ 2 ∨ x.kind = .dozeExit ∨ !ready then .next s
    else if s.media.formatted && !s.offline && !s.covered then .next s.startCkpt
    else match x.kind with
      | .dozeEntry =>
        let st := s.dozeSteps
        let t := s.quiesce.setPwr fun p => { p with tran := some { x with phase := 4, steps := st }, wakes := 0, setSteps := [] }
        .next (if st.isEmpty then t.dozeEntered else t)
      | .foldEntry => .next ((s.setOutcome 0 1 ⟨0, 0, none⟩).enterFold true false)
      | .warm => .next ((s.setOutcome 2 1 ⟨0, 0, none⟩).warmReset 3 true)
      | .dozeExit => .next s

/-- The steps of a transition are done: its next phase (R548, R550). -/
def State.stepsDone (s : State) (x : Tran) : State :=
  match x.kind with
  | .dozeEntry => if x.reversing then s.clocksOn.setPwr fun p => { p with tran := some { x with kind := .dozeExit, phase := 4 } } else s.dozeEntered
  | .dozeExit => s.clocksOn.setPwr fun p => { p with tran := some { x with phase := 4 } }
  | .foldEntry => s
  | .warm => s

/-- A slot's step succeeded or failed for good: its FAULTED bit (R556). -/
def State.slotFault (s : State) (n : Nat) (b : Bool) : State :=
  s.put R.VREG.LINK_STATUS_FAULTED (setBit (s.get R.VREG.LINK_STATUS_FAULTED) n b)

/-- VREG_STEP_ACK (R555-R557). -/
def execVregStepAck (slot : Fin 8) (s : State) : Out :=
  let n := slot.val
  match s.pwr.tran with
  | some x =>
    match x.steps with
    | v :: rest =>
      if v.slot ≠ n ∨ x.retryAt ≠ 0 then .next s
      else
        let y := { x with steps := rest, attempts := 0, doneSteps := if x.reversing then x.doneSteps else v :: x.doneSteps }
        let t := (s.slotFault n false).setPwr fun p => { p with tran := some y }
        .next (if rest.isEmpty then t.stepsDone y else t)
    | [] => .next s
  | none =>
    match s.pwr.setSteps with
    | v :: rest => if v.slot = n then .next ((s.slotFault n false).setPwr fun p => { p with setSteps := rest, setTries := 0 }) else .next s
    | [] => .next s

/-! ### Steps that fail -/

/-- The step that takes each completed step back, newest first (R550). -/
def stepsBack (start : Nat → Nat) : List VStep → List VStep
  | [] => []
  | v :: older => ⟨v.slot, match older.find? (·.slot == v.slot) with | some w => w.mv | none => start v.slot⟩ :: stepsBack start older

/-- A slot fails its third attempt: recorded, its bit set (R556). -/
def State.slotFailed (s : State) (n : Nat) : State :=
  ((s.slotFault n true).pulse 3 Ev.VREG.NO_ACK).record 3 E.VREG_NO_ACK n

/-- A transition's step has failed for good (R550, R556, R563): DOZE entry is reversed; an exit is retried once after 10 ms, then
RAILS_EN goes low. -/
def State.tranFailed (s : State) (x : Tran) (n : Nat) : State :=
  let t := s.slotFailed n
  if x.kind = .dozeEntry ∧ !x.reversing then
    let t := t.charge 1 3 4 ⟨4, n, none⟩
    let back := stepsBack (fun m => s.get (R.VREG.VOUT_SET_MV m)) x.doneSteps
    let y := { x with reversing := true, steps := back, doneSteps := [], attempts := 0 }
    let t := t.setPwr fun p => { p with tran := some y }
    if back.isEmpty then t.stepsDone y else t
  else if x.retried then t.enterFold true true
  else t.setPwr fun p => { p with tran := some { x with attempts := 0, retried := true, retryAt := s.time + 10000000 } }

/-- VREG_STEP_TIMEOUT (R555, R556): a step is sent at most three times. -/
def execVregStepTimeout (slot : Fin 8) (s : State) : Out :=
  let n := slot.val
  match s.pwr.tran with
  | some x =>
    match x.steps with
    | v :: _ =>
      if v.slot ≠ n ∨ x.retryAt ≠ 0 then .next s
      else
        let t := s.bump R.VREG.NO_ACK_COUNT_COUNT
        if x.attempts < 2 then .next (t.setPwr fun p => { p with tran := some { x with attempts := x.attempts + 1 } })
        else .next (t.tranFailed x n)
    | [] => .next s
  | none =>
    match s.pwr.setSteps with
    | v :: _ =>
      if v.slot ≠ n then .next s
      else
        let t := s.bump R.VREG.NO_ACK_COUNT_COUNT
        if s.pwr.setTries < 2 then .next (t.setPwr fun p => { p with setTries := p.setTries + 1 })
        else .next ((t.slotFailed n).setPwr fun p => { p with setSteps := p.setSteps.filter (·.slot != n), setTries := 0 })
    | [] => .next s

/-- DOZE_EXIT_RETRY (R563). -/
def execDozeExitRetry (s : State) : Out :=
  match s.pwr.tran with
  | none => .next s
  | some x =>
    if x.retryAt = 0 then .next s
    else .next ({ s with time := max s.time x.retryAt }.setPwr fun p => { p with tran := some { x with retryAt := 0, attempts := 0 } })

/-! ### Waking -/

/-- FOLD ends when its 100 ms are over, power is good and a wake source has fired (R563). -/
def State.tryWake (s : State) : State :=
  let p := s.pwr
  if s.mode = 0 ∧ p.wakes ≠ 0 ∧ p.residenceOver ∧ p.mainOk ∧ p.pfHigh ∧ !p.railsOff ∧ !p.dead then s.coldReset 2 else s

/-- Block and instance behind a wake source (R550; log entry 29). -/
def wakeBlock (src : Nat) : Refuser := ⟨[5, 3, 0x48, 0x10, 0x50, 0x48].getD src 3, 0, none⟩

/-- A wake source fires (R563): 0 RTC, 1 MAIN_PWR_OK, 2 PERST#, 3 Gate, 4 Drove, 5 L1.2 exit. -/
def State.wakeUp (s : State) (src : Nat) : State :=
  let latch := s.setPwr fun p => { p with wakes := setBit p.wakes src true }
  if s.mode = 0 then (if src ≤ 2 then latch.tryWake else s)
  else
    match s.pwr.tran with
    | none => if s.mode = 1 then latch.startDozeExit else s
    | some x =>
      if x.kind ≠ .dozeEntry ∨ x.reversing then s
      else if x.phase = 2 then (s.charge 1 3 2 (wakeBlock src)).setPwr fun p => { p with tran := none }
      else latch

/-- WAKE_SOURCE (R548, R550, R563). A rising edge of MAIN_PWR_OK shows that PWR_FAIL_N is high as well (log entry 29). -/
def execWakeSource (src : Fin 6) (s : State) : Out :=
  let t := if src.val = 1 ∧ !s.pwr.dead then s.setPwr fun p => { p with mainOk := true, pfHigh := true } else s
  .next (t.wakeUp src.val)

/-- The recheck of an ACTIVE channel on leaving DOZE (R191): DCC and read-DQ are run again. A channel that fails them reruns steps 5-8,
as a retrain does, and fails as in R188 where that fails too. `r` says whether the recheck failed, and then at which step the rerun
did. -/
def State.recheck (s : State) (c : Nat) (r : Option (Option Nat)) : State :=
  if !s.chActive c then s
  else
    let t := s.setNand fun n => n.sent c [.dcc, .readDq]
    match r with
    | none => t
    | some none => t.trained c
    | some (some step) => t.trainFail c step

/-- DOZE_RETRAIN_DONE (R548, R191, R530): `bad` lists the channels whose recheck fails, with the step at which the rerun failed. DRAM is trained afresh, the NAND channels are rechecked, the firmware unparks. -/
def execDozeRetrainDone (bad : List (Nat × Option Nat)) (s : State) : Out :=
  match s.pwr.tran with
  | none => .next s
  | some x =>
    if x.kind ≠ .dozeExit ∨ x.phase ≠ 4 then .next s
    else
      let t := (List.range 32).foldl (fun t c => t.recheck c (assoc bad c)) s
      let t := t.unquiesce
      let t := (List.range 4).foldl (fun t c => if t.dramUsed c then t.trainAgain c else t) t
      let t := t.setPwr fun p => { p with tran := none, wakes := 0 }
      .next ((if t.mode = 1 then t.setMode 3 else t).settle.follow)

/-- FOLD_RESIDENCE_END (R563): 100 ms in FOLD are over. -/
def execFoldResidenceEnd (s : State) : Out :=
  if s.mode ≠ 0 ∨ s.pwr.residenceOver then .next s
  else .next ({ s with time := max s.time (s.pwr.modeSince + 100000000) }.setPwr fun p => { p with residenceOver := true }).tryWake

/-- ERR_INFO of a PWR condition: bytes 8-11 of a history entry (R576). -/
def pwrInfo (target from_ outcome phase : Nat) : Nat := target + from_ * 2 ^ 8 + outcome * 2 ^ 16 + phase * 2 ^ 24

/-- RAILS_OFF_END (R563): the rails restart at their boot set points. -/
def execRailsOffEnd (s : State) : Out :=
  if s.mode ≠ 0 ∨ !s.pwr.railsOff ∨ s.pwr.dead then .next s
  else .next ((({ s with time := max s.time (s.pwr.modeSince + 100000000) }.coldReset 6).record 2 E.PWR_WAKE_FAIL (pwrInfo 3 1 0 2)))

/-! ### Resets -/

/-- KICK (R566): a write from any other origin than the system firmware does nothing. -/
def execKick (o : Origin) (s : State) : Out :=
  .next (s.regCmd o 2 0x05C 1 true false id fun t => if o = .firmware then t.setPwr fun p => { p with kickAt := t.time } else t)

/-- PWR_WATCHDOG (R566): a second has passed without a kick. It does not run before firmware does, in DOZE, or in a handover. -/
def execPwrWatchdog (s : State) : Out :=
  if s.mode < 2 || s.pwr.fw.running.isNone || s.handing then .next s
  else
    let t := { s with time := max s.time (s.pwr.kickAt + 1000000000) }.warmReset 4 false
    .next (t.record 2 E.PWR_WATCHDOG (pwrInfo 2 s.mode 0 0))

/-- WARM (R565). -/
def execWarm (o : Origin) (s : State) : Out :=
  .next (s.regCmd o 2 0x060 1 true false id fun t => t.request .warm fun t => t.startDrain .warm)

/-- COLD_RESET (R565): VDD_AON rising and AON_RST_N low at any time, a wake from FOLD and a wake failure where they are due. -/
def execColdReset (cause : BitVec 4) (s : State) : Out :=
  let c := cause.toNat
  if c ≤ 1 then .next (s.coldReset c)
  else if c = 2 ∧ s.mode = 0 ∧ !s.pwr.railsOff ∧ !s.pwr.dead then .next (s.coldReset 2)
  else if c = 6 then execRailsOffEnd s
  else .next s

/-- CLK_LOCK_LOST (R559): the clock alarm erases the keys, every domain but the always-on one is reset, and the loss is counted. -/
def execClkLockLost (s : State) : Out :=
  if s.mode = 0 then .next s
  else
    let t := ((s.bump R.CLK.ROOT_STATUS_LOCK_LOSSES).alarm 1).warmReset 5 false
    .next ((t.pulse 1 Ev.CLK.LOCK_LOST).record 1 E.CLK_LOCK_LOST 0)

/-! ### Regulators -/

/-- One slot's answer to the boot's or the 10 ms poll (R553, R558, R616). -/
def State.slotReading (s : State) (r : VregReading) : State :=
  let n := r.slot
  if 8 ≤ n ∨ !bitAt (s.get R.VREG.LINK_STATUS_PRESENT) n ∨ bitAt (s.get R.VREG.LINK_STATUS_UNSUPPORTED) n then s
  else if !r.ack then s.bump R.VREG.NO_ACK_COUNT_COUNT
  else if !r.pecOk then (s.bump R.VREG.PEC_ERRORS_COUNT).bump R.VREG.NO_ACK_COUNT_COUNT
  else if s.mode = 2 ∧ !r.linear then
    (s.put R.VREG.LINK_STATUS_UNSUPPORTED (setBit (s.get R.VREG.LINK_STATUS_UNSUPPORTED) n true)).record 3 E.VREG_UNSUPPORTED n
  else
    let t := s.puts [(R.VREG.VOUT_MEAS_MV n, r.mv.toNat), (R.VREG.TELEM_IOUT n, r.iout.toNat), (R.VREG.TELEM_POUT n, r.pout.toNat)]
    let t := t.setPwr fun p => { p with acct := modAt p.acct s.mode fun a => { a with energy := a.energy + 10 * r.pout.toNat } }
    if t.get (R.SHARE.OWNER_BLOCK 5) = 0x0B ∧ r.status ≠ 0 then (t.pulse 3 Ev.VREG.FAULT).record 3 E.VREG_FAULT n else t

/-- VREG_TELEMETRY_POLL (R553, R558). -/
def execVregTelemetryPoll (rs : List VregReading) (s : State) : Out :=
  if s.mode < 2 then .next s else .next (rs.foldl State.slotReading s)

/-- PMB_ALERT (R558): while PWR owns the ball, every slot's STATUS_WORD is read. -/
def execPmbAlert (status : List (BitVec 16)) (s : State) : Out :=
  if s.mode < 2 ∨ s.get (R.SHARE.OWNER_BLOCK 5) ≠ 3 then .next s
  else .next ((List.range 8).foldl (fun t n =>
    if bitAt (t.get R.VREG.LINK_STATUS_PRESENT) n && !bitAt (t.get R.VREG.LINK_STATUS_UNSUPPORTED) n && status.getD n 0 != 0 then
      (t.pulse 3 Ev.VREG.FAULT).record 3 E.VREG_FAULT n else t) s)

/-- Set-point range of a rail that the device sets, in mV (R573, R624). -/
def railRange (rail : Nat) : Option (Nat × Nat) := if rail ≤ 1 then some (650, 850) else if rail = 2 then some (700, 800) else none

/-- A set point is no reserved value (R553, R573). -/
def State.setPointOk (s : State) (n v : Nat) : Bool :=
  let rail := s.get (R.VREG.SLOT_CFG_RAIL n)
  bitAt (s.get R.VREG.LINK_STATUS_PRESENT) n && !bitAt (s.get R.VREG.LINK_STATUS_UNSUPPORTED) n && (match railRange rail with
    | some (a, b) => decide (a ≤ v) && decide (v ≤ b) && decide (s.get (R.VREG.LIMITS_VMIN_MV n) ≤ v) && decide (v ≤ s.get (R.VREG.LIMITS_VMAX_MV n))
    | none => v == railNominal rail)

/-- A set point of a rail that the device sets is refused outside IDLE and SAFE, or where DOZE would need more than 7 steps
(R557). -/
def State.setPointBusy (s : State) (n v : Nat) : Bool :=
  (railRange (s.get (R.VREG.SLOT_CFG_RAIL n))).isSome
    && ((s.mode != 3 && s.mode != 7) || decide (7 < ((s.put (R.VREG.VOUT_SET_MV n) v).dozeSteps).length))

/-- Take a set point; a fixed rail is never commanded (R554, R555). -/
def State.takeSetPoint (s : State) (n v : Nat) : State :=
  if (railRange (s.get (R.VREG.SLOT_CFG_RAIL n))).isNone then s
  else
    let now := match (s.pwr.setSteps.filter (·.slot == n)).getLast? with | some x => x.mv | none => s.get (R.VREG.VOUT_SET_MV n)
    (s.put (R.VREG.VOUT_SET_MV n) v).setPwr fun p => { p with setSteps := p.setSteps ++ stepsTo n 64 now v }

/-- SET_MV (R553, R557, R573). -/
def execSetMv (o : Origin) (slot : Fin 8) (mv : BitVec 16) (s : State) : Out :=
  let n := slot.val
  let v := mv.toNat
  .next (s.regCmd o 3 (0x088 + 0x10 * n) v (s.setPointOk n v) (s.setPointBusy n v) (fun t => t.refuseBlock o 3 E.VREG_BUSY n)
    fun t => t.takeSetPoint n v)

/-! ### RTC -/

/-- The moment at which the RTC reaches a count, the trim applied. -/
def State.timeOfTicks (s : State) (n : Nat) : Nat :=
  let rate : Nat := ((2000000 : Int) + signedOf 8 (s.get R.RTC.TRIM_HALF_PPM)).toNat
  if n ≤ s.rtcTicks then s.time else max s.time (s.rtcAt + ceilDiv ((n - s.rtcBase) * 2000000 * 1000000000) (32768 * rate))

/-- RTC_ALARM_FIRE (R562). -/
def execRtcAlarmFire (k : Fin 4) (s : State) : Out :=
  let n := k.val
  if s.get (R.RTC.ALARM_CTRL_EN n) = 0 ∨ s.get (R.RTC.ALARM_CTRL_FIRED n) = 1 ∨ s.pwr.dead then .next s
  else
    let at_ := s.get (R.RTC.ALARM_TIME_TIME n) % 2 ^ 63
    if s.rtcTicks < at_ ∧ s.get R.RTC.STATUS_OSC_FAIL = 1 then .next s
    else
      let t := ({ s with time := s.timeOfTicks at_ }.put (R.RTC.ALARM_CTRL_FIRED n) 1).pulse 4 n
      .next (if s.get (R.RTC.ALARM_CTRL_WAKE n) = 1 then t.wakeUp 0 else t)

/-- RTC_OSC_FAIL (R574, R619): the RTC stops. -/
def execRtcOscFail (s : State) : Out :=
  if s.get R.RTC.STATUS_OSC_FAIL = 1 ∨ s.pwr.dead then .next s
  else .next (((s.rebaseRtc.puts [(R.RTC.STATUS_OSC_FAIL, 1), (R.RTC.STATUS_VALID, 0)]).pulse 4 Ev.RTC.OSC_FAIL).record 4 E.RTC_OSC_FAIL 0)

/-- LOAD takes effect: the RTC is SET and valid (R561, R574). -/
def State.loadRtc (s : State) : State :=
  { s with rtcBase := s.get R.RTC.SET_TIME % 2 ^ 63, rtcAt := s.time }.put R.RTC.STATUS_VALID 1

/-- RTC_LOAD (R561, R574). -/
def execRtcLoad (o : Origin) (s : State) : Out := .next (s.regCmd o 4 0x050 1 true false id State.loadRtc)

/-! ### Temperature -/

/-- ERR_INFO of a DEV condition (R635). -/
def State.devInfo (s : State) : Nat := s.get R.DEV.TEMP_TJ + s.get R.DEV.TEMP_SENSOR * 2 ^ 12

/-- The thermal stage that a sample of TJ leads to (R632), in quarter degrees: a stage ends 5 °C below its threshold. -/
def thermalStage (cur thr : Nat) (tj : Int) : Nat :=
  if cur = 3 then 3
  else if 440 ≤ tj ∨ (cur = 2 ∧ 420 < tj) then 2
  else if 4 * (thr : Int) ≤ tj ∨ (1 ≤ cur ∧ 4 * (thr : Int) - 20 < tj) then 1
  else 0

/-- Time in stage 1 or above is counted in whole milliseconds (R634). -/
def State.countThrottle (s : State) (cur new : Nat) : State :=
  let t := match s.pwr.stageSince with
    | some a => if cur = 0 then s else (s.bump R.DEV.THROTTLE_MS_MS ((s.time - a) / 1000000)).setPwr fun p =>
        { p with stageSince := some (a + (s.time - a) / 1000000 * 1000000) }
    | none => s
  t.setPwr fun p => { p with stageSince := if new = 0 then none else if cur = 0 then some s.time else p.stageSince }

/-- A temperature outside -50 to 125 °C raises the alarm of R426, once while it lasts (log entry 42). -/
def State.thermalAlarm (s : State) (bit : Nat) (out : Bool) : State :=
  let was := bitAt s.keys.conds bit
  let t := s.setKeys fun k => { k with conds := setBit k.conds bit out }
  if out && !was then t.alarm bit else t

/-- Phase 1 of the boot ends: DRAM and NAND train in parallel (R188, R530, R571). -/
def State.endPhase1 (s : State) : State :=
  let t := (List.range 32).foldl (fun t c =>
    if t.get (R.NAND.CH_STATUS_STATE c) = 0 then t.puts [(R.NAND.CH_STATUS_STATE c, 1), (R.NAND.CH_STATUS_PWR_EN c, 1)] else t) s
  let t := (List.range 4).foldl (fun t c => if t.dramState c = 0 then t.put (R.DRAM.CH_STATUS_STATE c) 1 else t) t
  t.setPwr fun p => { p with bootPhase := 2 }

/-- The boot passes from phase 1: the PLL has locked, and after a thermal shutdown TJ is below 105 °C (R559, R632). -/
def State.tryPhase2 (s : State) : State :=
  if s.pwr.bootPhase = 1 ∧ s.pwr.locked ∧ !(s.pwr.thermal && decide (420 ≤ s.pwr.tj)) then s.endPhase1 else s

/-- THERMAL_SAMPLE (R631, R632, R634). TJ comes in quarter degrees. -/
def execThermalSample (tjq : Int) (sensor : BitVec 4) (s : State) : Out :=
  if s.mode = 0 then .next s
  else
    let cur := s.get R.DEV.THERMAL_STATUS_STAGE
    let new := thermalStage cur (s.get R.DEV.THERMAL_CTRL_THROTTLE_C) tjq
    let peak := signedOf 12 (s.get R.DEV.TEMP_PEAK_TJ)
    let t := s.puts [(R.DEV.TEMP_TJ, wrapInt 12 tjq), (R.DEV.TEMP_SENSOR, sensor.toNat), (R.DEV.TEMP_PEAK_TJ, wrapInt 12 (max peak tjq)),
      (R.DEV.THERMAL_STATUS_STAGE, new)]
    let t := t.setPwr fun p => { p with tj := tjq, hotSince := if tjq < 500 then none else some (p.hotSince.getD s.time) }
    let t := t.countThrottle cur new
    let t := if cur = 0 ∧ 1 ≤ new then (t.pulse 0 Ev.DEV.THROTTLE).record 0 E.DEV_THERMAL_THROTTLE t.devInfo else t
    let t := if cur ≤ 1 ∧ 2 ≤ new then (t.pulse 0 Ev.DEV.HIGH).record 0 E.DEV_THERMAL_HIGH t.devInfo else t
    let t := if 2 ≤ new then t.eachCore fun t c => if 8 ≤ c.val then t.parkCore c .thermal else t
      else if 2 ≤ cur then t.eachCore fun t c => t.resumeCore c .thermal else t
    .next ((t.thermalAlarm 2 (decide (500 < tjq))).thermalAlarm 3 (decide (tjq < -200))).tryPhase2

/-! ### The power-failure sequence -/

/-- The last phases of R104: the write buffer is programmed, the checkpoint written, and FOLD entered. -/
def State.lastPhases (s : State) : State :=
  if s.media.formatted then ((s.setTake fun x => { x with pfPhase := 4 }).drainBuffer).startCkpt
  else (s.setPwr fun p => { p with pfBegun := false }).enterFold true false

/-- CHECKPOINT_DONE (R227): the record's three copies are durable, and the Tally pointer is written. It follows the drain of the buffer
where it ends a mode's entry or a power failure (R104, R219, R548). -/
def execCheckpointDone (s : State) : Out :=
  match s.ckptReady with
  | (none, t) => .next t
  | (some c, t) =>
    if t.take.pfPhase = 4 then .next (((t.takeCkpt c).setPwr fun p => { p with pfBegun := false }).enterFold true false)
    else .next (t.takeCkpt c)

/-- DEV_THERMAL_SHUTDOWN (R632): after the alarm's handling, the checkpoint and FOLD entry. -/
def execDevThermalShutdown (s : State) : Out :=
  match s.pwr.hotSince with
  | none => .next s
  | some a =>
    if s.mode < 2 ∨ s.pwr.bootPhase ≠ 0 ∨ s.take.pfPhase ≠ 0 then .next s
    else
      let t := ({ s with time := max s.time (a + 100000000) }.put R.DEV.THERMAL_STATUS_STAGE 3).pulse 0 Ev.DEV.SHUTDOWN
      let t := t.record 0 E.DEV_THERMAL_SHUTDOWN t.devInfo
      let t := t.thermalAlarm 2 true
      let t := t.setPwr fun p => { p with thermal := true, tran := none }
      .next (if t.take.c.isSome then t.setTake fun x => { x with pfPhase := 2 } else t.lastPhases)

/-- The sequence begins (R69, R104, R111; TAKE_POWER_FAIL is recorded where there is a take, DESIGN CHOICE, log entry 59): credits are held, a take's frames drain; with no take, the checkpoint follows at once. -/
def State.powerFailure (s : State) : State :=
  let t := (s.setPwr fun p => { p with pfBegun := true, tran := none, setSteps := [] }).endPerturb .powerFail
  let live := t.takeLive
  let t := if live then t.settleTriggers else t
  let t := (t.hold R.GATE.CREDIT_STATE_HELD_PWRFAIL true).put R.TAKE.TAKE_STATE_STATE 5
  let t := t.pulse 0x11 Ev.TAKE.PWRFAIL
  if t.take.c.isSome then
    let t := if live then t.put R.TAKE.TAKE_STATE_CLOSE_CAUSE 8 else t
    (t.takeErr E.TAKE_POWER_FAIL).setTake fun x => { x with pfPhase := if live then 1 else 2 }
  else (t.setTake fun x => { x with req := none }).lastPhases

/-- PWR_FAIL_N (R104, R550, R564): low for `lowNs` ns. -/
def execPwrFailN (lowNs : Nat) (s : State) : Out :=
  if lowNs < 2000 ∨ s.pwr.dead then .next s
  else
    let t := s.setPwr fun p => { p with pfHigh := false }
    if t.mode = 0 ∨ t.take.pfPhase ≠ 0 then .next t
    else if t.mode = 1 then .next (t.enterFold true false)
    else if t.pwr.bootPhase ≠ 0 then .next (t.enterFold false false)
    else .next t.powerFailure.follow

/-- POWERFAIL_DRAIN_END (R104): the frames still open end with STATUS 0x03. -/
def execPowerfailDrainEnd (s : State) : Out :=
  if s.take.pfPhase ≠ 1 then .next s else .next ((s.endOpenFrames 3).setTake fun x => { x with pfPhase := 2 })

/-- POWERFAIL_FLUSH_DONE (R104): every accepted frame is secured; the windows seal and the trailer follows with CLOSE_REASON 0x05,
unless the take has closed for another reason or gets none. -/
def execPowerfailFlushDone (s : State) : Out :=
  match s.take.c with
  | none => .next s
  | some c =>
    if s.take.pfPhase ≠ 2 ∨ !s.take.frames.isEmpty then .next s
    else
      let t := s.sealAll.setTake fun x => { x with pfPhase := 3 }
      if t.take.noTrailer || t.take.trailer.isSome then .next t
      else .next ((t.setTake fun x => { x with reason := 5 }).placeTrailer c 5)

/-- POWERFAIL_CLOSE_DONE (R104): the trailer is durable; the checkpoint starts. -/
def execPowerfailCloseDone (s : State) : Out :=
  match s.take.c with
  | none => .next s
  | some c =>
    if s.take.pfPhase ≠ 3 ∨ !s.takeDone then .next s
    else
      let t := (s.finishTake c).put R.TAKE.TAKE_STATE_STATE (if s.pwr.pfBegun then 5 else 0)
      .next t.follow.lastPhases

/-- POWER_CUT (R106, R565): all power goes, and with it everything that the Tally, OTP and flash do not hold. -/
def execPowerCut (s : State) : Out :=
  let t := if s.mode = 0 then s else (s.setPwr fun p => { p with stoppedAt := s.rtcTicks }).lose false
  .next ((t.setPwr fun p => { p with dead := true, bootPhase := 0, mainOk := false, pfHigh := false, wakes := 0, residenceOver := false,
                                     railsOff := false, modeSince := s.time }).puts [(R.PWR.MODE_MODE, 0), (R.PWR.MODE_PREV, s.mode)])

/-- SERVE_ACTIVITY_EXPIRY (R546): 100 ms without host activity. -/
def execServeActivityExpiry (s : State) : Out :=
  match s.pwr.serveAt with
  | some a => if s.mode < 3 then .next s else .next { s with time := max s.time (a + 100000000) }.follow
  | none => .next s

end Sys2Proof.Machine
end

