-- ==== Sys2Proof/Machine/Replay.lean ====
section
/-!
DEFINITION. Applying the map journal and what flash holds beyond it, at boot and where DRAM has lost a map page (R215, R223, R229,
R230, R274).
-/

namespace Sys2Proof.Machine

/-! ### Records -/

/-- Remove a range of logical units of a namespace from the map. -/
def State.unmapRange (s : State) (nsid lo hi : Nat) : State :=
  s.setImage fun i => { i with map := i.map.filter fun x => !(x.1.1 == nsid && decide (lo ≤ x.1.2) && decide (x.1.2 < hi)) }

/-- Set a run of units to zeroes, under their record's SEQ. -/
def State.zeroUnits (s : State) (nsid lo n seq : Nat) : State :=
  s.setImage fun i => { i with map := (List.range n).foldl (fun m j => assocSet m (nsid, lo + j) (.zeroes seq)) i.map }

/-- The units of a group in stripes that are not void. -/
def State.liveUnits (s : State) (g : Group) : List (Nat × DUnit) :=
  g.stripes.zipIdx.flatMap fun st => if st.1.void then [] else s.stripeIndex g st.2

/-- The units of an extent that its record covers: those of the group that carry the take's NSID and logical unit, up to the record's
SEQ. -/
def State.mapExtent (s : State) (r : JRec) : State :=
  match s.group? r.ma.1 with
  | none => s
  | some g =>
    let us := (s.liveUnits g).filter fun x => x.2.kind == 2 && x.2.nsid == r.nsid && x.2.logical / 256 == r.logical && decide (x.2.seq ≤ r.seq)
    us.foldl (fun t x => t.mapUnit r.nsid x.2.logical g.num x.1 x.2.seq) s

/-- A run of extents of a ring take was released (R132, R223): it leaves the map, and the namespace shows the segment. -/
def State.replayRelease (s : State) (r : JRec) : State :=
  let seg := r.logical / 1024
  (s.unmapRange r.nsid (if r.logical = 0 then 2 else 256 * r.logical) (256 * (r.logical + r.count))).modNs r.nsid fun n =>
    { n with released := if n.released.contains seg then n.released else n.released ++ [seg] }

/-- Apply a journal record to the map (R223, R230): a void stripe holds no mapped unit (R276). -/
def State.applyMap (s : State) (r : JRec) : State :=
  if r.kind = 1 then (match s.group? r.ma.1 with
    | some g => if (s.liveUnits g).any (·.1 == r.ma.2) then s.mapUnit r.nsid r.logical r.ma.1 r.ma.2 r.seq else s
    | none => s)
  else if r.kind = 2 then if r.count = 1 then s.mapExtent r else s.replayRelease r
  else if r.kind = 3 then s.unmapRange r.nsid r.logical (r.logical + r.count)
  else if r.kind = 4 then s.zeroUnits r.nsid r.logical r.count r.seq
  else if r.kind = 9 ∨ r.kind = 0xB then s.setImage fun i => { i with map := i.map.filter fun x => x.1.1 != r.nsid }
  else s

/-- Apply a durable journal record to the map and the accounts (R223, R230). Group records are what the group table shows. -/
def State.applyRec (s : State) (r : JRec) : State :=
  if r.kind = 0xC then
    let k := s.width
    (s.puts [(R.MEDIA.MAXCAP_MB, s.get R.MEDIA.MAXCAP_MB - r.logical),
      (R.MEDIA.SPARE_TOTAL_GB, s.get R.MEDIA.SPARE_TOTAL_GB + r.logical / 1000 * (k + 2) * 1000 / (k * 985))]).bump R.MEDIA.CONVERSIONS_COUNT
  else if r.kind = 0xD then s.bump R.MEDIA.RETIRED_BLOCKS_COUNT
  else s.applyMap r

/-! ### The checkpoint -/

/-- The checkpoint that a boot starts from (R227, R229), and whether it was found by the scan of the metadata pages: the newest that a
readable pointer copy names, else the one of the highest SEQ (log entry 36). -/
def State.bootCkpt (s : State) : Option (Ckpt × Bool) :=
  let readable := s.media.ckpts.filter fun c => s.pageReads c.num
  match s.pointers.findSome? fun p => readable.find? (·.num == p.2.2) with
  | some c => some (c, false)
  | none => (readable.reverse.find? fun c => readable.all fun d => decide (d.seq ≤ c.seq)).map fun c => (c, true)

/-! ### Groups -/

/-- The newest snapshot of which a copy reads back (R275). -/
def State.newestSnap (s : State) : Option Snapshot :=
  match s.array.snapNew, s.array.snap with
  | some a, some b => if s.pageReads a.1 then some a.2 else if s.pageReads b.1 then some b.2 else none
  | some a, none => if s.pageReads a.1 then some a.2 else none
  | none, some b => if s.pageReads b.1 then some b.2 else none
  | none, none => none

/-- A block of a group carries its GROUP_TAG in the first codeword (R274). -/
def State.tagFound (s : State) (g : Group) : Bool :=
  g.members.any fun m => match s.readPiece m.1 m.2 0 0 with
    | some r => leNat (sliceBytes r.2 24 4) == g.tag
    | none => false

/-- A boot finds a group (R230, R274): the checkpoint holds it, a durable GROUP_OPEN names it, the newest readable snapshot lists it, or a
block of it carries its tag. -/
def State.groupFound (s : State) (c : Ckpt) (g : Group) : Bool :=
  (c.image.groups.any (·.num == g.num)) || ((s.media.durableAfter c.pos).any fun r => r.kind == 0x05 && r.logical == g.num)
    || (match s.newestSnap with | some n => n.groups.any fun x => x.1 == g.num | none => false) || s.tagFound g

/-- Groups of the checkpoint that were erased without a durable ERASED record are erased again before their blocks are used
(R230, R232). -/
def State.eraseAgain (s : State) (c : Ckpt) : List Group :=
  (c.image.groups.filter fun g => (s.group? g.num).isNone
      && !((s.media.durableAfter c.pos).any fun r => r.kind == 0x08 && r.logical == g.num)
      && !g.members.any fun m => s.blockUsed m.1 m.2).map fun g =>
    { g with state := .freed, stripes := [], erased := [], erasing := false, freeAt := none }

/-! ### The scan -/

/-- The units that the scan of the open groups finds on flash, in SEQ order: those that decode, whose META CRC holds, and that lie beyond
the journal (R222, R230). -/
def State.scanFound (s : State) (seqJ : Nat) : List OwedRec :=
  (s.groups.flatMap fun g =>
    if g.closeLogged || g.state == .freed then []
    else ((List.range g.stripes.length).flatMap (s.stripeIndex g)).filterMap fun x =>
      let y := s.unitPlace g x.1
      let m := g.members.getD (roleMember g.k y.1 y.2.1) (0, 0)
      match s.readPiece m.1 m.2 y.1 y.2.2 with
      | none => none
      | some r =>
        let seq := leNat (r.2.take 8)
        let u := { x.2 with seq := seq, nsid := leNat (sliceBytes r.2 8 4), kind := leNat (sliceBytes r.2 12 1), logical := leNat (sliceBytes r.2 16 8) }
        if (u.kind == 1 || u.kind == 2) && decide (seqJ < seq) && s.ns.any (·.nsid == u.nsid) then some ⟨seq, g.num, x.1, u, true⟩
        else none).foldl (fun l x => insertOwed x l) []

/-- Map the units found, in SEQ order. -/
def State.mapFound (s : State) (l : List OwedRec) : State := l.foldl (fun t x => t.mapUnit x.unit.nsid x.unit.logical x.gn x.idx x.seq) s

/-- Highest SEQ that any unit carries. -/
def State.highestSeq (s : State) : Nat :=
  (s.groups.flatMap fun g => g.stripes.flatMap fun st => st.units.map (·.seq)).foldl max 0

/-- Which units' records the journal holds. -/
def State.markLogged (s : State) (seqJ : Nat) : State :=
  s.setImage fun i => { i with groups := i.groups.map fun g =>
    { g with stripes := g.stripes.map fun st => { st with units := st.units.map fun u => { u with logged := g.closeLogged || decide (u.seq ≤ seqJ) } } } }

/-! ### A map page that DRAM has lost -/

/-- The map as flash and the journal have it: the newest checkpoint's, the records since, and the programmed units whose records are
still to come; of a sealed take nothing past its end (R106, R215). -/
def State.rebuiltMap (s : State) : List ((Nat × Nat) × MapEnt) :=
  let (map, pos) := match s.media.ckpt with | some c => (c.image.map, c.pos) | none => ([], 0)
  let t := s.setImage fun i => { i with map := map }
  let recs := (s.media.journal.filter fun p => decide (pos < p.num)).flatMap (·.recs) ++ s.media.page
  let t := (recs.foldl State.applyMap t).mapFound (s.owedRecs.filter (·.ready))
  t.media.image.map.filter fun x => s.ns.any fun n => n.nsid == x.1.1 && (n.kind != .take || decide (x.1.2 < n.nuse)
    || (match n.tk with | some k => k.opened | none => false))

/-- A map page is rebuilt from its last flash copy and the journal records that touch it (R215; log entry 36). -/
def State.reloadPage (s : State) (p : Nat) : State :=
  let new := s.rebuiltMap.filter fun x => s.mapPageOf x.1.1 x.1.2 == p
  let t := s.setImage fun i => { i with map := new.foldl (fun m x => assocSet m x.1 x.2) (i.map.filter fun x => s.mapPageOf x.1.1 x.1.2 != p) }
  (t.setMedia fun m => { m with lostPages := m.lostPages.filter (· != p) }).residePage p

/-- Reading commands whose die reads have ended and that waited for a page go on (R215). -/
def State.resumeReads (s : State) (p : Nat) : State :=
  s.resumeReading fun c => (s.readsOf c.x).any fun r => (s.pagesOf r.1 r.2.1 r.2.2).contains p

/-- MAP_PAGE_RELOAD (R215): the page is rebuilt, and the commands that waited for it go on. -/
def execMapPageReload (page : Nat) (s : State) : Out :=
  if s.media.lostPages.contains page then .next (((s.reloadPage page).mediaErr E.MEDIA_MAP_RELOAD 0).resumeReads page) else .next s

end Sys2Proof.Machine
end

