-- ==== Sys2Proof/Machine/Boot.lean ====
section
/-!
DEFINITION. The boot, phase by phase (R571): training (R528-R531), the boot image (R567-R570), self-tests (R407, R434), the map and its
replay (R229-R231), recovery (R106, R275, R620) and READY. Log entry 28 says how the model's flash stands in for what the device
scans.
-/

namespace Sys2Proof.Machine

/-- PLL_LOCKED (R559). -/
def execPllLocked (hz : BitVec 32) (s : State) : Out :=
  if s.pwr.bootPhase ≠ 1 ∨ s.pwr.locked then .next s
  else
    let t := (s.puts [(R.CLK.ROOT_STATUS_LOCKED, 1), (R.CLK.REF_FREQ_HZ, hz.toNat)]).badGens
    .next (t.setPwr fun p => { p with locked := true }).tryPhase2

/-! ### Training -/

/-- The population of DRAM is one the device supports (R527, R528). -/
def dramSupported (r : DramTraining) : Bool :=
  r.rated && (match r.chans with
    | [] => false
    | c :: _ => (c.1 == 16 || c.1 == 32 || c.1 == 64) && (List.range 4).all fun i =>
        match r.chans[i]? with | some d => d.1 == c.1 && d.2.1 == c.2.1 && d.2.2.1 == c.2.2.1 | none => false)

/-- One channel after its training (R530, R531). A channel that failed has nothing to evacuate. -/
def State.dramResult (r : DramTraining) (s : State) (c : Nat) : State :=
  if s.dramState c ≠ 1 then s
  else
    let d := r.chans.getD c (0, false, false, false)
    let ls := r.lanes.getD c []
    let t := s.puts [(R.DRAM.CONFIG_GIB c, d.1), (R.DRAM.CONFIG_X8 c, b2n d.2.1), (R.DRAM.CONFIG_RANKS c, b2n d.2.2.1)]
    let t := (List.range 10).foldl (fun t i =>
      let l := ls.getD i (0, 0, 0)
      t.puts [(R.DRAM.TRAIN_LANE_RD_DQS c i, l.1), (R.DRAM.TRAIN_LANE_WR_DQ c i, l.2.1), (R.DRAM.TRAIN_LANE_EYE c i, l.2.2)]) t
    if d.2.2.2 && (List.range 10).all (fun i => decide (16 ≤ (ls.getD i (0, 0, 0)).2.2)) then
      (t.dramUp c).pulse (dramPage c) Ev.DRAM.TRAINED
    else
      let t := (t.pulse (dramPage c) Ev.DRAM.TRAIN_FAIL).record (dramPage c) E.DRAM_TRAIN_FAIL (dramInfo c 0 0 0 0)
      let t := t.puts [(R.DRAM.CH_STATUS_STATE c, 6), (R.DRAM.CH_STATUS_RETIRE_CAUSE c, 1), (H.RETIRED (dramPage c), 1)]
      ((t.pulse (dramPage c) Ev.DRAM.RETIRED).pulse 0xA4 Ev.DRAMC.RETIREMENT).record (dramPage c) E.DRAM_CHANNEL_RETIRED (dramInfo c 0 0 0 0)

/-- GiB of the installed DRAM: every channel's, retired or not (R121, R647). -/
def State.installedGib (s : State) : Nat := ((List.range 4).map fun c => s.get (R.DRAM.CONFIG_GIB c)).foldl (· + ·) 0

/-- The fields that the configuration record keeps (R647). -/
def configFields : List Fld :=
  [R.TAKE.HOLDUP_HOLDUP_MS, R.TAKE.LEE_RESERVE_GIB, R.MEDIA.PE_MAX_CYCLES]
    ++ (List.range 32).flatMap fun c =>
      [R.NAND.RETRY_CFG_STEPS c, R.NAND.RETRY_CFG_FEATURE_ADDR c] ++ (List.range 18).map (R.NAND.RETRY_TABLE_PARAM c)

/-- Bytes that a field takes in the record. -/
def Fld.bytes (f : Fld) : Nat := ceilDiv f.w 8

/-- The record of 4 KiB (R647): a number that rises with each write, then the fields, and the CRC-32C over the first 4,092 bytes. The
number and the fields' places are the model's (DESIGN CHOICE, log entry 17). -/
def State.configRecord (s : State) (seq : Nat) : Bytes :=
  let body := padTo 4092 (leBytes 8 seq ++ configFields.flatMap fun f => leBytes f.bytes (s.get f))
  body ++ leBytes 4 (crc32c body)

/-- A copy is readable: its CRC holds. -/
def configOk (b : Bytes) : Bool := b.length == 4096 && leNat (b.drop 4092) == crc32c (b.take 4092)

/-- The newest copy whose CRC holds (R647). -/
def State.newestConfig (s : State) : Option Bytes :=
  (s.pwr.config.filter configOk).foldl (fun m b => match m with
    | some x => if leNat (x.take 8) < leNat (b.take 8) then some b else m
    | none => some b) none

/-- The values a copy holds. -/
def configValues (b : Bytes) : List (Fld × Nat) :=
  (configFields.foldl (fun (r : List (Fld × Nat) × Bytes) f => (r.1 ++ [(f, leNat (r.2.take f.bytes))], r.2.drop f.bytes))
    ([], b.drop 8)).1

/-- The values without a record (R647). -/
def State.configDefaults (s : State) : List (Fld × Nat) :=
  configFields.map fun f => (f,
    if f = R.TAKE.LEE_RESERVE_GIB then s.installedGib / 2
    else if f = R.MEDIA.PE_MAX_CYCLES then min 100000 (max 100 s.part.endurance) else 0)

/-- The field is kept by the configuration record; its reset value is 0. -/
def isConfig (f : Fld) : Bool :=
  (f.page == 0x11 && (f.off == 0x044 || f.off == 0x048)) || (f.page == 0x60 && f.off == 0x088)
    || (decide (0x80 ≤ f.page) && decide (f.page < 0xA0) && decide (0x058 ≤ f.off) && decide (f.off < 0x0A8))

/-- The fields are loaded from the newest readable copy (R647). -/
def State.loadConfig (s : State) : State :=
  let l := match s.newestConfig with | some b => configValues b | none => s.configDefaults
  (s.unput fun f => !isConfig f).puts (l.filter (·.2 != 0))

/-- The record is written to its three copies, which have all completed program when the write ends (R647). -/
def State.keepConfig (s : State) : State :=
  let seq := match s.newestConfig with | some b => leNat (b.take 8) + 1 | none => 1
  s.setPwr fun p => { p with config := List.replicate 3 (s.configRecord seq) }

/-- The boot's sources and NAND copies, in the order of the policy in force (R567, R579): source and copy. The mailbox is used
once the boot is held. -/
def State.bootSources (s : State) : List (Nat × Nat) :=
  let nand := [(0, 0), (0, 1), (0, 2)]
  match s.instBase with
  | none => nand ++ [(1, 0)]
  | some _ =>
    let p := s.instField 28 4
    ([bits p 0 2, bits p 2 2, bits p 4 2].eraseDups).flatMap fun x => if x = 0 then nand else if x = 1 then [(1, 0)] else []

/-- The policy enables the mailbox (R567, R570). -/
def State.mailboxOn (s : State) : Bool :=
  match s.instBase with
  | none => s.makerBase.isSome
  | some _ => let p := s.instField 28 4; [bits p 0 2, bits p 2 2, bits p 4 2].contains 2

/-- Every source has failed: the boot is held (R567, R570). -/
def State.holdBoot (s : State) : State :=
  (s.record 2 E.PWR_BOOT_FAIL (pwrInfo 3 2 0 3)).setPwr fun p => { p with held := .noImage }

/-- BOOT_TRAINING_DONE (R528, R530, R531, R571). -/
def execBootTrainingDone (r : DramTraining) (s : State) : Out :=
  if s.pwr.bootPhase ≠ 2 ∨ s.pwr.held ≠ .no ∨ (List.range 32).any (fun c => s.get (R.NAND.CH_STATUS_STATE c) == 1) then .next s
  else if !dramSupported r then
    .next ((s.record 0xA4 E.DRAM_UNSUPPORTED (dramInfo 0 0 0 0 0)).setPwr fun p => { p with held := .dram })
  else
    let t := ((List.range 4).foldl (State.dramResult r) s).showDram
    let t := if 2 ≤ t.liveDram then t else (t.record 0xA4 E.DRAM_TOO_FEW (dramInfo 0 0 0 0 0)).enterSafe 5
    let t := t.loadConfig.poolDram
    let t := t.setPwr fun p => { p with bootPhase := 3, dramTrained := true, sources := t.bootSources }
    .next (if t.pwr.sources.isEmpty then t.holdBoot else t)

/-! ### The boot image -/

/-- An image is accepted (R569): it has been loaded into Common, the boot keys are locked, and firmware starts on the system cores (log
entry 25). -/
def State.acceptImage (s : State) (img : Bytes) (src copy : Nat) : State :=
  let t := (s.toCommon img).newMonitor.setFw fun f =>
    { f with running := some img, region := if src = 0 then f.region.set copy (some img) else f.region, nextSlot := none }
  let t := (t.puts [(R.PWR.BOOT_SOURCE, src), (R.PWR.BOOT_COPY, copy)]).setPwr fun p =>
    { p with keysLocked := true, held := .no, bootPhase := 4, sources := [], kickAt := t.time }
  ((List.finRange 72).filter (·.val < 8)).foldl (fun t c => if (t.cores[c]).state = .retired then t else t.startSystem c) t

/-- BOOT_IMAGE_CHECK (R567, R569): the copy or source whose turn it is. What NAND holds is the region's copy. -/
def execBootImageCheck (img : Bytes) (va vb : BitVec 8) (s : State) : Out :=
  if s.pwr.bootPhase ≠ 3 ∨ s.pwr.held ≠ .no then .next s
  else match s.pwr.sources with
    | [] => .next s
    | (src, copy) :: rest =>
      let v := s.verifyImage img va vb
      let fits := src != 0 || (match s.pwr.fw.region.getD copy none with | some r => r == img | none => true)
      let v := (v.1, v.2.countBoot src copy (v.1 && fits))
      if v.1 && fits then .next (v.2.acceptImage img src copy)
      else
        let t := v.2.setPwr fun p => { p with sources := rest }
        let t := if src = 0 then t.record 2 E.PWR_BOOT_FALLBACK (pwrInfo 3 2 0 3) else t
        .next (if rest.isEmpty then t.holdBoot else t)

/-- GO (R570): a mailbox image in a held boot. -/
def execGo (o : Origin) (s : State) : Out :=
  .next (s.regCmd o 2 0x09C 1 true false id fun t =>
    if t.pwr.held = .no then t
    else
      let n := t.get R.PWR.MBOX_LEN_BYTES
      let refuse := fun (t : State) => t.put R.PWR.MBOX_CTRL_STATE 2
      if !t.mailboxOn then t
      else if t.pwr.held = .dram ∨ n < 4096 ∨ 16777216 < n then refuse t
      else
        let img := t.mem.read .hostA (4096 * t.get R.PWR.MBOX_ADDR_ADDR) n
        let v := t.verifyImage img 0 0
        let v := (v.1, v.2.countBoot 2 0 v.1)
        if v.1 then (v.2.put R.PWR.MBOX_CTRL_STATE 3).acceptImage img 2 0 else refuse v.2)

/-! ### Self-tests and tables -/

/-- Pipelines that fail their known-answer tests are retired until cold reset (R407). -/
def State.retirePipes (s : State) (bad : Nat) : State :=
  (List.range 6).foldl (fun t p =>
    if bitAt bad p && bitAt (t.get R.CIPHER.PIPES_LIVE) p then
      ((t.put R.CIPHER.PIPES_LIVE (setBit (t.get R.CIPHER.PIPES_LIVE) p false)).pulse 0x28 Ev.CIPHER.PIPE_RETIRED).record 0x28
        E.CIPHER_PIPE_RETIRED (keyInfo p 0 0x1F0 0)
    else t) s

/-- Digest units that fail theirs are retired. -/
def State.retireUnits (s : State) (bad : Nat) : State :=
  (List.range 64).foldl (fun t u =>
    if bitAt bad u && bitAt (t.get R.DIGEST.UNITS_LIVE_MASK) u then
      ((t.put R.DIGEST.UNITS_LIVE_MASK (setBit (t.get R.DIGEST.UNITS_LIVE_MASK) u false)).pulse 0x2A Ev.DIGEST.UNIT_RETIRED).record 0x2A
        E.DIGEST_UNIT_RETIRED (digestInfo u 0x1F0)
    else t) s

/-- Live cipher pipelines. -/
def State.livePipes (s : State) : Nat := popCount 6 (s.get R.CIPHER.PIPES_LIVE)

/-- BOOT_SELF_TEST_DONE (R407, R423, R434, R571). -/
def execBootSelfTestDone (pipes : BitVec 6) (units : BitVec 64) (s : State) : Out :=
  if s.pwr.bootPhase ≠ 4 then .next s
  else
    let t := (s.retirePipes pipes.toNat).retireUnits units.toNat
    let t := if t.livePipes < 5 then t.enterSafe 3 else t
    let t := if t.mayDerive then t.derive false else t
    .next (t.setPwr fun p => { p with bootPhase := 5 })

/-- BOOT_TABLES_DONE (R263, R375, R398): the placement tables follow from the seed, microcode kept over resets is loaded, and the
frame index is formed; then the ports' functions receive their grants. -/
def execBootTablesDone (s : State) : Out :=
  if s.pwr.bootPhase ≠ 5 then .next s
  else
    let t := (List.range 8).foldl (fun t i => match (t.cluster (i + 1)).kept with | some img => t.writeCluster (i + 1) img | none => t) s
    .next (t.formIndex.setPwr fun p => { p with bootPhase := 6 }).portFnsBack

/-! ### The map -/

/-- The reshape checkpoint in force is the newest in the Tally whose CRC holds, and with it the width (R256, R288, R290). -/
def State.loadReshape (s : State) : State :=
  match s.newestReshape with
  | some (_, r) => (s.setArray fun a => { a with reshape := some r }).put R.ARRAY.LAYOUT_K (kCode (if r.active then r.oldK else r.newK))
  | none => s

/-- The width that MAXCAP is kept for: the new one from a narrowing's start on (R286). -/
def State.capWidth (s : State) : Nat := max 1 (min s.width s.openWidth)

/-- MAXCAP as a boot finds it: the checkpoint's, lowered where a narrowing has begun since it, as the Tally's reshape checkpoint shows
(R286, R288). -/
def State.loadedCap (s : State) (c : Ckpt) : Nat :=
  let cap := (assoc c.regs R.MEDIA.MAXCAP_MB).getD 0
  if s.capWidth < c.capK then narrowedCap cap c.capK s.capWidth else cap

/-- The groups that a boot finds, and those to erase again (R230, R274). -/
def State.loadGroups (s : State) (c : Ckpt) : State :=
  (s.setImage fun i => { i with
    map := c.image.map, hostBytes := c.image.hostBytes, nandBytes := c.image.nandBytes, gcBytes := c.image.gcBytes
    groups := i.groups.filter (s.groupFound c) ++ s.eraseAgain c }).puts c.regs |>.put R.MEDIA.MAXCAP_MB (s.loadedCap c)

/-- The map is loaded from the checkpoint, and after an unclean stop the journal and the scan are applied (R227, R229-R231); `scan` says
that the checkpoint was found by the scan. A unit lost to a write hole stays lost while nothing newer is mapped (R277), and a take whose
TAKE_DELETE became durable as power went is removed now (R253). -/
def State.loadMap (s0 : State) (c : Ckpt) (scan : Bool) : State :=
  let unclean := !s0.pwr.cleanStop
  let late := (s0.media.journal.filter (!·.durable)).flatMap (·.recs)
  let s := s0.setMedia fun m => { m with journal := m.journal.map (fun p => { p with durable := true })
                                         ckpts := m.ckpts.filter (·.num != c.num) ++ [c] }
  let recs := s.media.durableAfter c.pos
  let seqJ := recs.foldl (fun m r => max m r.seq) c.seq
  let t := (recs.foldl State.applyRec (s.loadReshape.loadGroups c)).markLogged seqJ
  let found := if unclean then t.scanFound seqJ else []
  let t := t.mapFound found
  let t := t.setMedia fun m => { m with
    seq := max seqJ t.highestSeq + 1, hints := []
    freed := (m.image.groups.filter (·.state == .freed)).map (·.num) }
  let t := t.setArray fun a => { a with holes := s.array.holes.filter fun x => (t.mapEnt x.1 x.2).isNone }
  let t := (t.recsDurable late).freeEmpty
  let t := if scan then (t.put R.MEDIA.MEDIA_STATUS_CKPT_FALLBACK 1).mediaErr E.MEDIA_CKPT_FALLBACK 0 else t
  if unclean then
    ((t.puts [(R.MEDIA.MEDIA_STATUS_REPLAYED, 1), (R.MEDIA.REPLAY_UNITS_COUNT, found.length), (R.PWR.BOOT_UNCLEAN, 1)]).pulse 0x60
      Ev.MEDIA.REPLAY_DONE).record 0x60 E.MEDIA_REPLAY found.length
  else t

/-- Patrol begins a pass at boot, marked where the RTC shows more than 30 days since the last stop (R241; log entry 45). -/
def State.bootPatrol (s : State) : State :=
  let long := s.get R.RTC.STATUS_VALID == 1 && decide (30 * 86400 * 32768 < s.rtcTicks - s.pwr.stoppedAt)
  s.setMedia fun m => { m with patrolAt := s.time, patrolled := [], patrolBoot := long }

/-- The device ring comes back with its read state; after an unclean stop its first new entry is the overflow entry (R607). What
the boot itself has reported follows. -/
def State.restoreRing (s : State) (c : Ckpt) : State :=
  let own := s.fault.dev.entries
  let r := { c.ring with unclean := c.ring.unclean || !s.pwr.cleanStop }
  let r := (r.settle devSlots s.time 0x1F0).1
  let r := own.foldl (fun r e => (r.accept devSlots e.rep).1) r
  s.setFault fun f => { f with dev := r }

/-- The dies that the checkpoint lists as lost stay so (R290). -/
def State.restoreLost (s : State) (c : Ckpt) : State :=
  let was := (List.range 512).filter fun d => bitAt ((assoc c.regs (R.ARRAY.LOST_MAP_DIES (d / 32))).getD 0) (d % 32)
  let all := s.array.lost.foldl insertSorted was
  (s.setArray fun a => { a with lost := all }).puts ((List.range 16).map fun i =>
    (R.ARRAY.LOST_MAP_DIES i, (all.filter fun d => d / 32 == i).foldl (fun v d => v + 2 ^ (d % 32)) 0))

/-- Causes of SAFE that outlive a reset: spares, an offline array, the installer's (R246, R285, R548). -/
def State.restoreSafe (s : State) (c : Ckpt) : State :=
  let keep := fun (b : Nat) => bitAt c.safeCause b || (b == 1 && c.offline)
  let v := [0, 1, 7].foldl (fun v b => if keep b then setBit v b true else v) (s.get R.PWR.SAFE_CAUSE_CAUSE)
  let t := s.put R.PWR.SAFE_CAUSE_CAUSE v
  if keep 0 then t.puts [(R.MEDIA.MEDIA_STATUS_READ_ONLY, 1), (R.MEDIA.MEDIA_STATUS_SAFE_CAUSE, if t.bit R.MEDIA.MEDIA_STATUS_COMPAT then 2 else 1)]
  else t

/-- The first format, where the part is in place and the installer settings are (R210, R231, R256; log entry 2). -/
def State.firstFormat (s : State) : State :=
  if s.trust.instGen.isSome && !bitAt (s.get R.PWR.SAFE_CAUSE_CAUSE) 6 && !s.liveDies.isEmpty then
    (s.setMedia fun m => { m with seq := max m.seq (s.highestSeq + 1) }).format.installCkpt
  else s

/-- BOOT_MAP_LOADED (R229-R231, R244-R246, R571). -/
def execBootMapLoaded (s : State) : Out :=
  if s.pwr.bootPhase ≠ 6 then .next s
  else
    let t := match s.bootCkpt with
      | some (c, scan) => if s.media.formatted then (((s.loadMap c scan).restoreLost c).restoreSafe c).restoreRing c else s.firstFormat
      | none => s.firstFormat
    let t := t.chargeSpares.checkSpares.resizeSlc.bootPatrol
    let t := if t.blockLimit < t.blockGB then t.pageMap else t
    .next (t.showPool.setPwr fun p => { p with bootPhase := 7 })

/-! ### Recovery -/

/-- Written stripes of the groups that meet a condition. -/
def State.writtenStripes (s : State) (p : Group → Bool) : List (Nat × Nat) :=
  (s.groups.filter fun g => g.state != .freed && p g).flatMap fun g => (g.stripes.zipIdx.filter (·.1.written)).map fun x => (g.num, x.2)

/-- Written stripes of every group with a block in a marked region (R275, case 2). -/
def State.markedStripes (s : State) : List (Nat × Nat) :=
  s.writtenStripes fun g => g.members.any fun m => s.array.bitmap.contains (s.region m.1 m.2)

/-- A copy of the bitmap's header in the Tally reads back, and names the position in use (R273, R275). -/
def State.headerReads (s : State) : Bool :=
  s.tally.header.zipIdx.any fun x => !s.tally.unread.contains (.bitmap, x.2) && headerOk x.1
    && leNat (x.1.take 1) == s.get R.ARRAY.BITMAP_POSITION

/-- Written stripes that a cursor leaves undone (R270, R276). -/
def leftBy (cursor : Nat × Nat) (l : List (Nat × Nat)) : List (Nat × Nat) := l.filter (stripeLe cursor)

/-- What there is to resynchronise after an unclean stop (R275, R276): the case, the stripes that the newest snapshot lists, and those of
cases 2 and 3. -/
def State.chooseResync (s : State) : Nat × List (Nat × Nat) × List (Nat × Nat) :=
  match s.newestSnap with
  | some n =>
    let listed := (n.stripes.map fun x => (x.1, x.2.1)).filter fun x => (s.group? x.1).isSome
    if n.resync < 2 then (1, listed, [])
    else (n.resync, listed, leftBy n.cursor (if n.resync = 2 then s.markedStripes else s.writtenStripes fun _ => true))
  | none => if s.headerReads then (2, [], s.markedStripes) else (3, [], s.writtenStripes fun _ => true)

/-- After a clean stop only what was still owed a resynchronisation is, as the newest snapshot lists it or its cursor leaves it. -/
def State.owedResync (s : State) : Nat × List (Nat × Nat) × List (Nat × Nat) :=
  let l := s.groups.flatMap fun g => (g.stripes.zipIdx.filter (·.1.pend)).map fun x => (g.num, x.2)
  let hit := fun (x : Nat × Nat) => match s.newestSnap with | some n => n.stripes.any fun y => y.1 == x.1 && y.2.1 == x.2 | none => true
  let rest := l.filter (!hit ·)
  let was := match s.newestSnap with | some n => n.resync | none => 0
  (if l.isEmpty then 0 else if rest.isEmpty then 1 else max 2 was, l.filter hit, rest)

/-- A stripe is owed a resynchronisation; one that was listed and never programmed is void. -/
def State.oweStripe (s : State) (x : Nat × Nat) : State :=
  s.modGroup x.1 fun g =>
    let more := List.replicate (x.2 + 1 - g.stripes.length) { Stripe.fresh with void := true }
    { g with stripes := modAt (g.stripes ++ more) x.2 fun st => { st with pend := true } }

/-- Groups that an unclean stop found open take no more units: they close, and what they had not written stays erased (log entry 46). -/
def State.closeAtStop (s : State) : State :=
  if s.pwr.cleanStop then s
  else ((s.groups.filter (·.state == .opened)).foldl (fun t g => (t.closeGroup g.num).voidUnissued g.num) s).logReady

/-- Resynchronisation begins: the case, the stripes listed one by one and the others (R275, R278). -/
def State.startResync (s : State) (c : Nat × List (Nat × Nat) × List (Nat × Nat)) : State :=
  let pend := c.2.1.foldl insertStripe []
  let sweep := (c.2.2.filter (!pend.contains ·)).foldl insertStripe []
  let stop := (s.groups.filter (·.state == .opened)).map (·.num)
  let t := ((pend ++ sweep).foldl State.oweStripe s).closeAtStop
  let t := (t.setArray fun a => { a with pending := pend, sweep := sweep, stopGroups := stop, snapDirty := s.media.formatted }).put
    R.ARRAY.ARRAY_STATUS_RESYNC_CASE c.1
  if c.1 = 0 then t else t.record 0x62 E.ARRAY_RESYNC c.1

/-- The die's GROUP_TAG is not that of the block the group table names (R620). -/
def State.wrongDie (s : State) (d : Nat) : Bool :=
  match (s.groups.filter (·.state == .closed)).findSome? fun g => (g.members.find? (·.1 == d)).map fun m => (g, m) with
  | none => false
  | some (g, m) => match s.readPiece d m.2 0 0 with
    | some r => leNat (sliceBytes r.2 24 4) != g.tag
    | none => false

/-- Takes open at the stop keep nothing beyond their secured prefix (R106). -/
def State.cutMaps (s : State) : State :=
  s.keys.owedTrailers.foldl (fun t o => t.setImage fun i => { i with map := i.map.filter fun x =>
    !(x.1.1 == o.1 && decide (o.2.cont.length ≤ 4096 * x.1.2)) }) s

/-- A power-failure sequence had begun and a take was cut (R106). -/
def State.holdupShort (s : State) : State :=
  match s.keys.owedTrailers.find? (·.2.reason == 6) with
  | some (_, x) =>
    let id := match x.c with | some c => c.takeId | none => 0
    if s.pwr.pfBegun then s.record 0x11 E.TAKE_HOLDUP_SHORT (id % 2 ^ 32) 0x1F1 id else s
  | none => s

/-- BOOT_RECOVERY_DONE (R106, R275, R280, R283, R286, R620): the array takes up what the dies found lost before the map was there ask of
it. -/
def execBootRecoveryDone (s : State) : Out :=
  if s.pwr.bootPhase ≠ 7 then .next s
  else
    let t := if !s.media.formatted then s
      else s.startResync (if s.pwr.cleanStop then s.owedResync else s.chooseResync)
    let bad := t.liveDies.filter t.wrongDie
    let t := t.setPwr fun p => { p with bootPhase := 8 }
    let t := ((if bad.isEmpty then t else (t.loseDies bad).2).closeHit t.array.lost).followChannels
    .next t.holdupShort.cutMaps.owedTrails

/-! ### The frame index at READY -/

/-- The frames that an INDEX record lists, with their summary keys: read from their FRAME and SUMMARY records (R114, R116). -/
def State.indexedFrames (s : State) (n : Ns) (off entries : Nat) : List (Nat × List Nat) × State :=
  match s.readTake n (off + 64) (32 * entries) with
  | (none, t) => ([], t)
  | (some es, t) => (List.range entries).foldl (fun (r : List (Nat × List Nat) × State) i =>
      let fo := leNat (sliceBytes es (32 * i + 16) 8)
      match r.2.readTake n fo 64 with
      | (none, u) => (r.1, u)
      | (some h, u) =>
        let q := u.frameRecords n (descN h 48 8, descN h 48 8, fo + 64)
        let key := match q.1.find? fun x => recType x.2 == 2 with
          | some x => (List.range 8).map fun j => leNat (sliceBytes x.2 (64 + 1568 + 4 * j) 4)
          | none => []
        (r.1 ++ [(leNat (sliceBytes es (32 * i + 8) 8), key)], q.2)) ([], t)

/-- Enter the spans of the INDEX records of a take, the last of which lies at an offset (R398). The fuel bounds their chain. -/
def State.enterChain (n : Ns) (takeId : Nat) : Nat → Nat → State → State
  | 0, _, s => s
  | f + 1, off, s =>
    if off = 0 then s
    else match s.readTake n off 64 with
      | (none, t) => t
      | (some h, t) =>
        if recType h ≠ 5 ∨ !headOk h then t
        else
          let t := State.enterChain n takeId f (descN h 24 8) t
          let r := t.indexedFrames n off (descN h 16 4)
          r.2.enterSpan takeId off r.1

/-- At READY the firmware enters the spans of the takes it holds in the frame index, from their INDEX records (R398); without KEK_MEDIA, or
with no trailer, none can be read, and a search follows the chain (R399; log entry 88). -/
def State.bootSpans (s : State) : State :=
  if s.ear.index.isEmpty || s.keys.kekMedia.isNone || s.offline then s
  else s.ns.foldl (fun t n =>
    match n.tk with
    | none => t
    | some k =>
      if n.nuse = 0 then t
      else match t.readTake n (4096 * n.nuse - 4096) 4096 with
        | (none, u) => u
        | (some tr, u) =>
          if tr.take 8 = [0x43, 0x4F, 0x52, 0x4B, 0x54, 0x45, 0x4E, 0x44] then State.enterChain n k.takeId n.nuse (descN tr 64 8) u else u) s

/-! ### READY -/

/-- The causes of SAFE that a boot finds (R182, R319, R407, R539, R548). -/
def State.safeAtReady (s : State) : State :=
  let hit := [(2, decide (s.liveLanes = 0)), (3, decide (s.livePipes < 5)), (4, decide (s.liveSystemCores < 2)), (5, decide (s.liveDram < 2))]
  s.put R.PWR.SAFE_CAUSE_CAUSE (hit.foldl (fun v x => if x.2 then setBit v x.1 true else v) (s.get R.PWR.SAFE_CAUSE_CAUSE))

/-- BOOT_READY (R545, R548, R571): IDLE, or SAFE where a cause holds. -/
def execBootReady (s : State) : Out :=
  if s.pwr.bootPhase ≠ 8 then .next s
  else
    let t := (s.safeAtReady.put R.PWR.BOOT_READY_MS (min 65535 ((s.time - s.pwr.bootAt) / 1000000))).setPwr fun p =>
      { p with bootPhase := 0, cleanStop := false, pfBegun := false, thermal := false, kickAt := s.time }
    let t := (t.setGate fun g => { g with mayTrain := true }).bootSpans
    if t.get R.PWR.SAFE_CAUSE_CAUSE = 0 then .next (t.setMode 3)
    else .next (((t.setMode 7).pulse 2 Ev.PWR.SAFE_ENTERED).record 2 E.PWR_SAFE_ENTERED (7 + 2 * 256))

end Sys2Proof.Machine
end

