-- ==== Sys2Proof/Machine/CrookAlu.lean ====
section
/-!
DEFINITION. The integer and lane operations of the operate class (R348, R349), the 8-bit immediate addition (R344).
-/

namespace Sys2Proof.Machine

/-- ADD (R348). -/
def execAdd (c : Fin 72) (m : OpMod) (s : State) : Out :=
  .next (s.insn c 1 1 (guardMod (modOk m true true true) (binary (laneAdd m))))

/-- SUB (R348). -/
def execSub (c : Fin 72) (m : OpMod) (s : State) : Out :=
  .next (s.insn c 1 1 (guardMod (modOk m true true true) (binary (laneSub m))))

/-- MUL (R348). -/
def execMul (c : Fin 72) (m : OpMod) (s : State) : Out :=
  .next (s.insn c 1 3 (guardMod (modOk m true true true) (binary (laneMul m))))

/-- MULH (R348). -/
def execMulh (c : Fin 72) (m : OpMod) (s : State) : Out :=
  .next (s.insn c 1 4 (guardMod (modOk m true true false) (binary (laneMulh m))))

/-- DIV (R348, R349): a zero in any lane of b traps DIV_ZERO. -/
def execDiv (c : Fin 72) (m : OpMod) (s : State) : Out :=
  .next (s.insn c 1 (divCycles m.w) (guardMod (modOk m true true true) (division m (laneDiv m))))

/-- MOD (R348, R349). -/
def execMod (c : Fin 72) (m : OpMod) (s : State) : Out :=
  .next (s.insn c 1 (divCycles m.w) (guardMod (modOk m true true false) (division m (laneMod m))))

/-- NEG (R348). -/
def execNeg (c : Fin 72) (m : OpMod) (s : State) : Out :=
  .next (s.insn c 1 1 (guardMod (modOk m true true true) (unary (laneNeg m))))

/-- ABS (R348). -/
def execAbs (c : Fin 72) (m : OpMod) (s : State) : Out :=
  .next (s.insn c 1 1 (guardMod (modOk m true false true) (unary (laneAbs m))))

/-- MIN (R348, R340). -/
def execMin (c : Fin 72) (m : OpMod) (s : State) : Out :=
  .next (s.insn c 1 1 (guardMod (modOk m true true false) (binary (laneMin m))))

/-- MAX (R348, R340). -/
def execMax (c : Fin 72) (m : OpMod) (s : State) : Out :=
  .next (s.insn c 1 1 (guardMod (modOk m true true false) (binary (laneMax m))))

/-- CMPEQ (R348, R340). -/
def execCmpeq (c : Fin 72) (m : OpMod) (s : State) : Out :=
  .next (s.insn c 1 1 (guardMod (modOk m true false false) (binary (laneEq m))))

/-- CMPLT (R348, R340). -/
def execCmplt (c : Fin 72) (m : OpMod) (s : State) : Out :=
  .next (s.insn c 1 1 (guardMod (modOk m true false false) (binary (laneLt m))))

/-- CMPLTU (R348, R340). -/
def execCmpltu (c : Fin 72) (m : OpMod) (s : State) : Out :=
  .next (s.insn c 1 1 (guardMod (modOk m true false false) (binary (laneLtu m))))

/-- AND, 64 bits (R348). -/
def execAnd (c : Fin 72) (m : OpMod) (s : State) : Out :=
  .next (s.insn c 1 1 (guardMod (modOk m false false false) (binary (· &&& ·))))

/-- OR, 64 bits (R348). -/
def execOr (c : Fin 72) (m : OpMod) (s : State) : Out :=
  .next (s.insn c 1 1 (guardMod (modOk m false false false) (binary (· ||| ·))))

/-- XOR, 64 bits (R348). -/
def execXor (c : Fin 72) (m : OpMod) (s : State) : Out :=
  .next (s.insn c 1 1 (guardMod (modOk m false false false) (binary (· ^^^ ·))))

/-- NOT (R348). -/
def execNot (c : Fin 72) (m : OpMod) (s : State) : Out :=
  .next (s.insn c 1 1 (guardMod (modOk m false false false) (unary fun a => ~~~a)))

/-- SHL by b mod w (R348). -/
def execShl (c : Fin 72) (m : OpMod) (s : State) : Out :=
  .next (s.insn c 1 1 (guardMod (modOk m true false false) (binary (laneShl m))))

/-- SHR by b mod w (R348). -/
def execShr (c : Fin 72) (m : OpMod) (s : State) : Out :=
  .next (s.insn c 1 1 (guardMod (modOk m true false false) (binary (laneShr m))))

/-- SAR by b mod w (R348). -/
def execSar (c : Fin 72) (m : OpMod) (s : State) : Out :=
  .next (s.insn c 1 1 (guardMod (modOk m true false false) (binary (laneSar m))))

/-- ROL by b mod w (R348). -/
def execRol (c : Fin 72) (m : OpMod) (s : State) : Out :=
  .next (s.insn c 1 1 (guardMod (modOk m true false false) (binary (laneRol m))))

/-- POPC (R348). -/
def execPopc (c : Fin 72) (m : OpMod) (s : State) : Out :=
  .next (s.insn c 1 1 (guardMod (modOk m true false false) (unary (lanePopc m))))

/-- CLZ (R348). -/
def execClz (c : Fin 72) (m : OpMod) (s : State) : Out :=
  .next (s.insn c 1 1 (guardMod (modOk m true false false) (unary (laneClz m))))

/-- CTZ (R348). -/
def execCtz (c : Fin 72) (m : OpMod) (s : State) : Out :=
  .next (s.insn c 1 1 (guardMod (modOk m true false false) (unary (laneCtz m))))

/-- SPLAT (R348). -/
def execSplat (c : Fin 72) (m : OpMod) (s : State) : Out :=
  .next (s.insn c 1 1 (guardMod (modOk m true false false) (unary (laneSplat m))))

/-- EXT: lane n of a; n at or above the lane count traps ILLEGAL once the operands are present (R338, R348). -/
def execExt (c : Fin 72) (m : OpMod) (s : State) : Out :=
  .next (s.insn c 1 1 (guardMod (modOk m true true false) fun x =>
    match x.needD 2 1 with
    | .error t => .error t
    | .ok y =>
      if 64 / laneBits m.w ≤ (y.top 0).toNat then .error trapIllegal else .ok (y.rep 2 [laneExt m (y.top 1) (y.top 0).toNat])))

/-- INS: lane n of a replaced by the low bits of v (R348). -/
def execIns (c : Fin 72) (m : OpMod) (s : State) : Out :=
  .next (s.insn c 1 1 (guardMod (modOk m true false false) fun x =>
    match x.needD 3 1 with
    | .error t => .error t
    | .ok y =>
      if 64 / laneBits m.w ≤ (y.top 0).toNat then .error trapIllegal
      else .ok (y.rep 3 [laneIns m (y.top 2) (y.top 1) (y.top 0).toNat])))

end Sys2Proof.Machine
end

