-- ==== Sys2Proof/Machine/CrookBit.lean ====
section
/-!
DEFINITION. Direct and indirect bit operations (R346, R351, R308-R310), POLL (R354).
-/

namespace Sys2Proof.Machine

/-- A bit test as an entry (R340). -/
def bitWord (b : Bool) : Word := if b then 1 else 0

/-- BTST: core bit a (R346). -/
def execBtst (c : Fin 72) (a : BitVec 10) (s : State) : Out :=
  .next (s.insn c 1 1 fun x =>
    match x.needD 0 1 with
    | .error t => .error t
    | .ok y =>
      match y.meetBit (.core a.toNat) with
      | .error t => .error t
      | .ok z => .ok (z.rep 0 [bitWord (z.getBit (.core a.toNat))]))
/-- Write a bit, its word read first (R296). -/
def Ctx.changeBit (x : Ctx) (p : BitPlace) (b : Bool) : Except Trap Ctx :=
  match x.meetBit p with
  | .error t => .error t
  | .ok y => .ok (y.putBit p b)

/-- BSET (R346). -/
def execBset (c : Fin 72) (a : BitVec 10) (s : State) : Out :=
  .next (s.insn c 1 1 fun x => x.changeBit (.core a.toNat) true)
/-- BCLR (R346). -/
def execBclr (c : Fin 72) (a : BitVec 10) (s : State) : Out :=
  .next (s.insn c 1 1 fun x => x.changeBit (.core a.toNat) false)
/-- BST: bit 0 of the popped entry (R346). -/
def execBst (c : Fin 72) (a : BitVec 10) (s : State) : Out :=
  .next (s.insn c 1 1 fun x =>
    match x.needD 1 0 with
    | .error t => .error t
    | .ok y => (y.rep 1 []).changeBit (.core a.toNat) ((y.top 0).getLsbD 0))

/-- An indirect bit operation of `n` operands, the bit address on top: what it pushes and what it writes, with its cycles
beyond the first. -/
def bitIndirect (m : OpMod) (n common : Nat) (out : Ctx → Bool → List Word) (wr : Ctx → Option Bool) : Body :=
  guardMod (modOk m false false false) fun x =>
    match x.needD n 1 with
    | .error t => .error t
    | .ok y =>
      match y.bitAddr (y.top 0).toNat with
      | .error t => .error t
      | .ok p =>
        match y.meetBit p with
        | .error t => .error t
        | .ok w =>
          let z := (w.rep n (out w (w.getBit p))).spend (p.cycles 0 (common - 1))
          .ok (match wr w with
            | some v => z.putBit p v
            | none => z)

/-- BTSTI (R351). -/
def execBtsti (c : Fin 72) (m : OpMod) (s : State) : Out :=
  .next (s.insn c 1 1 (bitIndirect m 1 40 (fun _ b => [bitWord b]) fun _ => none))
/-- BSETI (R351). -/
def execBseti (c : Fin 72) (m : OpMod) (s : State) : Out :=
  .next (s.insn c 1 1 (bitIndirect m 1 40 (fun _ _ => []) fun _ => some true))
/-- BCLRI (R351). -/
def execBclri (c : Fin 72) (m : OpMod) (s : State) : Out :=
  .next (s.insn c 1 1 (bitIndirect m 1 40 (fun _ _ => []) fun _ => some false))
/-- BSTI (R351). -/
def execBsti (c : Fin 72) (m : OpMod) (s : State) : Out :=
  .next (s.insn c 1 1 (bitIndirect m 2 40 (fun _ _ => []) fun y => some ((y.top 1).getLsbD 0)))
/-- BTAS: the old value, then the bit is 1, as one step (R310, R351). -/
def execBtas (c : Fin 72) (m : OpMod) (s : State) : Out :=
  .next (s.insn c 1 1 (bitIndirect m 1 42 (fun _ b => [bitWord b]) fun _ => some true))

/-- POLL: 2 cycles for a core bit, 40 for a common bit (R325, R354). -/
def execPoll (c : Fin 72) (s : State) : Out :=
  .next (s.insn c 1 2 fun x =>
    match x.needD 1 1 with
    | .error t => .error t
    | .ok y =>
      match y.bitAddr (y.top 0).toNat with
      | .error t => .error t
      | .ok p =>
        match y.meetBit p with
        | .error t => .error t
        | .ok z => .ok ((z.rep 1 [bitWord (z.getBit p)]).spend (p.cycles 0 38)))

end Sys2Proof.Machine
end

