-- ==== Sys2Proof/Machine/CrookDecode.lean ====
section
/-!
DEFINITION. The encoding of Crook instructions (R336, R337, R341-R354, R357): the class table, the decoder from parcels, the encoder, the
instruction that stands at a core's PC, and the trap of a reserved encoding.
-/

namespace Sys2Proof.Machine

/-- The parcels of an instruction, from its first parcel alone (R336, R337). -/
def parcelLen (p : BitVec 16) : Nat :=
  match bits p.toNat 8 8 with
  | 0xF0 => 3 | 0xF1 => 5 | 0xF2 => 4 | 0xF3 => 4 | 0xF4 => 2 | _ => 1

/-- One opcode of the operate class: the modifier fields it accepts, whether W must name a floating-point format, and its
instruction (R347). -/
structure OpRow where
  /-- opcode -/
  op : Nat
  /-- accepts W -/
  w : Bool
  /-- accepts S -/
  s : Bool
  /-- accepts T -/
  t : Bool
  /-- W values 0b00 and 0b11 are reserved (R350) -/
  fp : Bool
  /-- the instruction -/
  instr : Fin 72 → OpMod → Instr

/-- The stack operations (R347). -/
def opStack : List OpRow :=
  [⟨0x00, false, false, false, false, fun c _ => .dup c⟩,
   ⟨0x01, false, false, false, false, fun c _ => .drop c⟩,
   ⟨0x02, false, false, false, false, fun c _ => .swap c⟩,
   ⟨0x03, false, false, false, false, fun c _ => .over c⟩,
   ⟨0x04, false, false, false, false, fun c _ => .nip c⟩,
   ⟨0x05, false, false, false, false, fun c _ => .tuck c⟩,
   ⟨0x06, false, false, false, false, fun c _ => .rot c⟩,
   ⟨0x07, false, false, false, false, fun c _ => .pick c⟩,
   ⟨0x08, false, false, false, false, fun c _ => .tors c⟩,
   ⟨0x09, false, false, false, false, fun c _ => .fromrs c⟩,
   ⟨0x0A, false, false, false, false, fun c _ => .rscopy c⟩,
   ⟨0x0B, false, false, false, false, fun c _ => .rsdrop c⟩]

/-- The integer and lane operations up to XOR (R348). -/
def opArith : List OpRow :=
  [⟨0x20, true, true, true, false, fun c m => .add c m⟩,
   ⟨0x21, true, true, true, false, fun c m => .sub c m⟩,
   ⟨0x22, true, true, true, false, fun c m => .mul c m⟩,
   ⟨0x23, true, true, false, false, fun c m => .mulh c m⟩,
   ⟨0x24, true, true, true, false, fun c m => .div c m⟩,
   ⟨0x25, true, true, false, false, fun c m => .mod c m⟩,
   ⟨0x26, true, true, true, false, fun c m => .neg c m⟩,
   ⟨0x27, true, false, true, false, fun c m => .abs c m⟩,
   ⟨0x28, true, true, false, false, fun c m => .min c m⟩,
   ⟨0x29, true, true, false, false, fun c m => .max c m⟩,
   ⟨0x2A, true, false, false, false, fun c m => .cmpeq c m⟩,
   ⟨0x2B, true, false, false, false, fun c m => .cmplt c m⟩,
   ⟨0x2C, true, false, false, false, fun c m => .cmpltu c m⟩,
   ⟨0x30, false, false, false, false, fun c m => .and c m⟩,
   ⟨0x31, false, false, false, false, fun c m => .or c m⟩,
   ⟨0x32, false, false, false, false, fun c m => .xor c m⟩]

/-- The integer and lane operations from NOT (R348). -/
def opLogic : List OpRow :=
  [⟨0x33, false, false, false, false, fun c m => .not c m⟩,
   ⟨0x34, true, false, false, false, fun c m => .shl c m⟩,
   ⟨0x35, true, false, false, false, fun c m => .shr c m⟩,
   ⟨0x36, true, false, false, false, fun c m => .sar c m⟩,
   ⟨0x37, true, false, false, false, fun c m => .rol c m⟩,
   ⟨0x38, true, false, false, false, fun c m => .popc c m⟩,
   ⟨0x39, true, false, false, false, fun c m => .clz c m⟩,
   ⟨0x3A, true, false, false, false, fun c m => .ctz c m⟩,
   ⟨0x40, true, false, false, false, fun c m => .splat c m⟩,
   ⟨0x41, true, true, false, false, fun c m => .ext c m⟩,
   ⟨0x42, true, false, false, false, fun c m => .ins c m⟩]

/-- The floating-point operations with a W field (R350). -/
def opFloat : List OpRow :=
  [⟨0x50, true, false, false, true, fun c m => .fadd c m⟩,
   ⟨0x51, true, false, false, true, fun c m => .fsub c m⟩,
   ⟨0x52, true, false, false, true, fun c m => .fmul c m⟩,
   ⟨0x53, true, false, false, true, fun c m => .fdiv c m⟩,
   ⟨0x54, true, false, false, true, fun c m => .fma c m⟩,
   ⟨0x55, true, false, false, true, fun c m => .fmin c m⟩,
   ⟨0x56, true, false, false, true, fun c m => .fmax c m⟩,
   ⟨0x57, true, false, false, true, fun c m => .fcmpeq c m⟩,
   ⟨0x58, true, false, false, true, fun c m => .fcmplt c m⟩,
   ⟨0x59, true, true, false, true, fun c m => .cvtF c m⟩,
   ⟨0x5A, true, true, false, true, fun c m => .cvtI c m⟩]

/-- CVT.W and CVT.N (R350), control, indirect memory and indirect bits (R351). -/
def opControl : List OpRow :=
  [⟨0x5B, false, false, false, false, fun c m => .cvtW c m⟩,
   ⟨0x5C, false, false, false, false, fun c m => .cvtN c m⟩,
   ⟨0x60, false, false, false, false, fun c m => .execCall c m⟩,
   ⟨0x61, false, false, false, false, fun c m => .ret c m⟩,
   ⟨0x62, false, false, false, false, fun c m => .jmpi c m⟩,
   ⟨0x68, true, true, false, false, fun c m => .load c m .none⟩,
   ⟨0x69, true, false, false, false, fun c m => .store c m⟩,
   ⟨0x70, false, false, false, false, fun c m => .btsti c m⟩,
   ⟨0x71, false, false, false, false, fun c m => .bseti c m⟩,
   ⟨0x72, false, false, false, false, fun c m => .bclri c m⟩,
   ⟨0x73, false, false, false, false, fun c m => .bsti c m⟩,
   ⟨0x74, false, false, false, false, fun c m => .btas c m⟩]

/-- The opcodes of the operate class (R347-R351). -/
def opTable : List OpRow := opStack ++ opArith ++ opLogic ++ opFloat ++ opControl

/-- The modifier of an operate parcel: W, S, T (R347). -/
def modOf (p : Nat) : OpMod := ⟨laneOf (bits p 0 2), bitAt p 2, bitAt p 3⟩

/-- The instruction of an operate parcel, none for a reserved opcode or modifier (R347). -/
def decodeOp (c : Fin 72) (p : Nat) : Option Instr :=
  (opTable.find? (·.op == bits p 4 8)).bind fun r =>
    let m := modOf p
    if modOk m r.w r.s r.t && (!r.fp || m.w == .w32 || m.w == .w16) then some (r.instr c m) else none

/-- The four branches by oo, short or long (R342, R343). -/
def decodeBranch (c : Fin 72) (p : Nat) : Instr :=
  let d := BitVec.ofNat 12 p
  match bits p 12 2 with
  | 0 => .jmp c d | 1 => .jz c d | 2 => .jnz c d | _ => .call c d

/-- The long branches (R343). -/
def decodeLong (c : Fin 72) (p q : Nat) : Instr :=
  let d := BitVec.ofNat 22 (bits p 0 6 * 2 ^ 16 + q)
  match bits p 6 2 with
  | 0 => .jmpLong c d | 1 => .jzLong c d | 2 => .jnzLong c d | _ => .callLong c d

/-- The short forms of loads and stores by ww, o and s (R345). -/
def decodeShort (c : Fin 72) (p : Nat) : Instr :=
  let w := laneOf (bits p 10 2)
  let i := BitVec.ofNat 8 p
  match bitAt p 9, bitAt p 8 with
  | false, false => .ld c w i .none | false, true => .ldl c w i .none | true, false => .st c w i | true, true => .stl c w i

/-- The direct bit operations by oo (R346). -/
def decodeBit (c : Fin 72) (p : Nat) : Instr :=
  let a := BitVec.ofNat 10 p
  match bits p 10 2 with
  | 0 => .btst c a | 1 => .bset c a | 2 => .bclr c a | _ => .bst c a

/-- The control operations by s (R354). -/
def decodeControl (c : Fin 72) (s : Nat) : Option Instr :=
  match s with
  | 0 => some (.nop c) | 1 => some (.rti c) | 2 => some (.wait c) | 3 => some (.poll c) | 4 => some (.submit c)
  | 5 => some (.depth c) | 6 => some (.rdepth c)
  | _ => if 0x11 ≤ s ∧ s ≤ 0x1F then some (.fence c (BitVec.ofNat 4 s)) else none

/-- The instruction of the classes 0xF000 to 0xFFFF, its data parcels in `q` (R337, R344, R352-R354, R357). -/
def decodeF (c : Fin 72) (p : Nat) (q : Nat → Nat) : Option Instr :=
  let low := p % 256
  let v := q 1 + q 2 * 2 ^ 16
  match bits p 8 4 with
  | 0x0 => if low < 2 then some (.lit32 c (low == 1) (BitVec.ofNat 32 v)) else none
  | 0x1 => if low = 0 then some (.lit64 c (BitVec.ofNat 64 (v + q 3 * 2 ^ 32 + q 4 * 2 ^ 48))) else none
  | 0x2 => if low = 0 then some (.jmpa c (BitVec.ofNat 48 (v + q 3 * 2 ^ 32))) else none
  | 0x3 => if low = 0 then some (.calla c (BitVec.ofNat 48 (v + q 3 * 2 ^ 32))) else none
  | 0x4 => some (decodeLong c p (q 1))
  | 0x6 => some (.addi c (BitVec.ofNat 8 low))
  | 0x8 => some (.trap c (BitVec.ofNat 8 low))
  | 0x9 => if bits p 4 3 = 0 then some (if bitAt p 7 then .sysWrite c (BitVec.ofNat 4 p) else .sysRead c (BitVec.ofNat 4 p)) else none
  | 0xA => decodeControl c low
  | 0x5 | 0x7 | 0xB => none
  | _ => some (.custom c (BitVec.ofNat 6 (bits p 4 6)) (BitVec.ofNat 4 p))

/-- The instruction of a parcel sequence, none for a reserved encoding (R337). -/
def decodeParcels (c : Fin 72) (ps : List (BitVec 16)) : Option Instr :=
  let q := fun i => (ps.getD i 0).toNat
  let p := q 0
  if p < 0x8000 then some (.lit c (BitVec.ofNat 15 p))
  else if p < 0xC000 then some (decodeBranch c p)
  else if p < 0xD000 then decodeOp c p
  else if p < 0xE000 then some (decodeShort c p)
  else if p < 0xF000 then some (decodeBit c p)
  else decodeF c p q

/-- A first parcel whose encoding the instruction set reserves, whatever follows it (R337). -/
def parcelReserved (p : BitVec 16) : Bool := (decodeParcels 0 [p]).isNone

/-! ### The encoder -/

/-- W's encoding (R345, R347). -/
def laneCode : Lane → Nat
  | .w64 => 0 | .w32 => 1 | .w16 => 2 | .w8 => 3

/-- An operate parcel: 0xC000 + 16 × opcode + modifier (R347). -/
def opParcel (op : Nat) (m : OpMod) : BitVec 16 := BitVec.ofNat 16 (0xC000 + 16 * op + laneCode m.w + 4 * b2n m.s + 8 * b2n m.t)

/-- Parcel `i` of a value that follows a first parcel, its low half first (R344). -/
def dataParcels (n v : Nat) : List (BitVec 16) := (List.range n).map fun i => BitVec.ofNat 16 (v / 2 ^ (16 * i))

/-- The core and the parcels of a Crook instruction; none for a command that is none. -/
def parcelsOf : Instr → Option (Fin 72 × List (BitVec 16))
  | .lit c v => some (c, [v.zeroExtend 16])
  | .jmp c d => some (c, [BitVec.ofNat 16 (0x8000 + d.toNat)])
  | .jz c d => some (c, [BitVec.ofNat 16 (0x9000 + d.toNat)])
  | .jnz c d => some (c, [BitVec.ofNat 16 (0xA000 + d.toNat)])
  | .call c d => some (c, [BitVec.ofNat 16 (0xB000 + d.toNat)])
  | .jmpLong c d => some (c, [BitVec.ofNat 16 (0xF400 + d.toNat / 2 ^ 16), BitVec.ofNat 16 d.toNat])
  | .jzLong c d => some (c, [BitVec.ofNat 16 (0xF440 + d.toNat / 2 ^ 16), BitVec.ofNat 16 d.toNat])
  | .jnzLong c d => some (c, [BitVec.ofNat 16 (0xF480 + d.toNat / 2 ^ 16), BitVec.ofNat 16 d.toNat])
  | .callLong c d => some (c, [BitVec.ofNat 16 (0xF4C0 + d.toNat / 2 ^ 16), BitVec.ofNat 16 d.toNat])
  | .lit32 c sx v => some (c, BitVec.ofNat 16 (0xF000 + b2n sx) :: dataParcels 2 v.toNat)
  | .lit64 c v => some (c, 0xF100 :: dataParcels 4 v.toNat)
  | .jmpa c t => some (c, 0xF200 :: dataParcels 3 t.toNat)
  | .calla c t => some (c, 0xF300 :: dataParcels 3 t.toNat)
  | .addi c i => some (c, [BitVec.ofNat 16 (0xF600 + i.toNat)])
  | .ld c w i _ => some (c, [BitVec.ofNat 16 (0xD000 + laneCode w * 1024 + i.toNat)])
  | .ldl c w i _ => some (c, [BitVec.ofNat 16 (0xD100 + laneCode w * 1024 + i.toNat)])
  | .st c w i => some (c, [BitVec.ofNat 16 (0xD200 + laneCode w * 1024 + i.toNat)])
  | .stl c w i => some (c, [BitVec.ofNat 16 (0xD300 + laneCode w * 1024 + i.toNat)])
  | .btst c a => some (c, [BitVec.ofNat 16 (0xE000 + a.toNat)])
  | .bset c a => some (c, [BitVec.ofNat 16 (0xE400 + a.toNat)])
  | .bclr c a => some (c, [BitVec.ofNat 16 (0xE800 + a.toNat)])
  | .bst c a => some (c, [BitVec.ofNat 16 (0xEC00 + a.toNat)])
  | .dup c => some (c, [opParcel 0x00 ⟨.w64, false, false⟩])
  | .drop c => some (c, [opParcel 0x01 ⟨.w64, false, false⟩])
  | .swap c => some (c, [opParcel 0x02 ⟨.w64, false, false⟩])
  | .over c => some (c, [opParcel 0x03 ⟨.w64, false, false⟩])
  | .nip c => some (c, [opParcel 0x04 ⟨.w64, false, false⟩])
  | .tuck c => some (c, [opParcel 0x05 ⟨.w64, false, false⟩])
  | .rot c => some (c, [opParcel 0x06 ⟨.w64, false, false⟩])
  | .pick c => some (c, [opParcel 0x07 ⟨.w64, false, false⟩])
  | .tors c => some (c, [opParcel 0x08 ⟨.w64, false, false⟩])
  | .fromrs c => some (c, [opParcel 0x09 ⟨.w64, false, false⟩])
  | .rscopy c => some (c, [opParcel 0x0A ⟨.w64, false, false⟩])
  | .rsdrop c => some (c, [opParcel 0x0B ⟨.w64, false, false⟩])
  | .add c m => some (c, [opParcel 0x20 m])
  | .sub c m => some (c, [opParcel 0x21 m])
  | .mul c m => some (c, [opParcel 0x22 m])
  | .mulh c m => some (c, [opParcel 0x23 m])
  | .div c m => some (c, [opParcel 0x24 m])
  | .mod c m => some (c, [opParcel 0x25 m])
  | .neg c m => some (c, [opParcel 0x26 m])
  | .abs c m => some (c, [opParcel 0x27 m])
  | .min c m => some (c, [opParcel 0x28 m])
  | .max c m => some (c, [opParcel 0x29 m])
  | .cmpeq c m => some (c, [opParcel 0x2A m])
  | .cmplt c m => some (c, [opParcel 0x2B m])
  | .cmpltu c m => some (c, [opParcel 0x2C m])
  | .and c m => some (c, [opParcel 0x30 m])
  | .or c m => some (c, [opParcel 0x31 m])
  | .xor c m => some (c, [opParcel 0x32 m])
  | .not c m => some (c, [opParcel 0x33 m])
  | .shl c m => some (c, [opParcel 0x34 m])
  | .shr c m => some (c, [opParcel 0x35 m])
  | .sar c m => some (c, [opParcel 0x36 m])
  | .rol c m => some (c, [opParcel 0x37 m])
  | .popc c m => some (c, [opParcel 0x38 m])
  | .clz c m => some (c, [opParcel 0x39 m])
  | .ctz c m => some (c, [opParcel 0x3A m])
  | .splat c m => some (c, [opParcel 0x40 m])
  | .ext c m => some (c, [opParcel 0x41 m])
  | .ins c m => some (c, [opParcel 0x42 m])
  | .fadd c m => some (c, [opParcel 0x50 m])
  | .fsub c m => some (c, [opParcel 0x51 m])
  | .fmul c m => some (c, [opParcel 0x52 m])
  | .fdiv c m => some (c, [opParcel 0x53 m])
  | .fma c m => some (c, [opParcel 0x54 m])
  | .fmin c m => some (c, [opParcel 0x55 m])
  | .fmax c m => some (c, [opParcel 0x56 m])
  | .fcmpeq c m => some (c, [opParcel 0x57 m])
  | .fcmplt c m => some (c, [opParcel 0x58 m])
  | .cvtF c m => some (c, [opParcel 0x59 m])
  | .cvtI c m => some (c, [opParcel 0x5A m])
  | .cvtW c m => some (c, [opParcel 0x5B m])
  | .cvtN c m => some (c, [opParcel 0x5C m])
  | .execCall c m => some (c, [opParcel 0x60 m])
  | .ret c m => some (c, [opParcel 0x61 m])
  | .jmpi c m => some (c, [opParcel 0x62 m])
  | .load c m _ => some (c, [opParcel 0x68 m])
  | .store c m => some (c, [opParcel 0x69 m])
  | .btsti c m => some (c, [opParcel 0x70 m])
  | .bseti c m => some (c, [opParcel 0x71 m])
  | .bclri c m => some (c, [opParcel 0x72 m])
  | .bsti c m => some (c, [opParcel 0x73 m])
  | .btas c m => some (c, [opParcel 0x74 m])
  | .trap c n => some (c, [BitVec.ofNat 16 (0xF800 + n.toNat)])
  | .sysRead c n => some (c, [BitVec.ofNat 16 (0xF900 + n.toNat)])
  | .sysWrite c n => some (c, [BitVec.ofNat 16 (0xF980 + n.toNat)])
  | .nop c => some (c, [0xFA00])
  | .rti c => some (c, [0xFA01])
  | .wait c => some (c, [0xFA02])
  | .poll c => some (c, [0xFA03])
  | .submit c => some (c, [0xFA04])
  | .depth c => some (c, [0xFA05])
  | .rdepth c => some (c, [0xFA06])
  | .fence c o => some (c, [BitVec.ofNat 16 (0xFA10 + o.toNat)])
  | .custom c e m => some (c, [BitVec.ofNat 16 (0xFC00 + e.toNat * 16 + m.toNat)])
  | .illegalEncoding x => some (x.core, [x.parcel])
  | _ => none

/-! ### The instruction at the PC -/

/-- The instruction that stands at core `c`'s PC, as the core fetches it (R336): the trap of its fetch, or what it decodes to. The commands
carry decoded fields and are not compared with it (log entry 9). A reserved encoding is none: the core meets it as ILLEGAL_ENCODING. -/
def State.insnAt (s : State) (c : Fin 72) : Except Trap (Option Instr) :=
  let pc := s.cores[c].pc.toNat
  match Ctx.fetch 1 pc ⟨s, c, s.cores[c], 0, none, none, 0⟩ with
  | .error t => .error t
  | .ok x =>
    let n := parcelLen (x.parcel pc)
    match Ctx.fetch n pc x with
    | .error t => .error t
    | .ok y =>
      let ps := (List.range n).map fun i => y.parcel ((pc + 2 * i) % 2 ^ 48)
      .ok (decodeParcels c ps)

/-- A reserved first parcel, opcode, modifier or field value traps ILLEGAL with DETAIL 0 once every parcel of its length is fetched (R336,
R337); a parcel that is none of these is no such command. -/
def execIllegalEncoding (x : BadParcel) (s : State) : Out :=
  .next (if parcelReserved x.parcel then s.insn x.core (parcelLen x.parcel) 1 fun _ => .error trapIllegal else s)

end Sys2Proof.Machine
end

