-- ==== Sys2Proof/Machine/CrookFloat.lean ====
section
/-!
DEFINITION. Floating point on binary32 and binary16 lanes (R350, R312).
-/

namespace Sys2Proof.Machine

/-- FADD (R350). -/
def execFadd (c : Fin 72) (m : OpMod) (s : State) : Out :=
  .next (s.insn c 1 3 (guardMod (modOk m true false false) (floating m 2 fun fmt l => fmt.add (l.getD 0 0) (l.getD 1 0))))

/-- FSUB (R350). -/
def execFsub (c : Fin 72) (m : OpMod) (s : State) : Out :=
  .next (s.insn c 1 3 (guardMod (modOk m true false false) (floating m 2 fun fmt l => fmt.sub (l.getD 0 0) (l.getD 1 0))))

/-- FMUL (R350). -/
def execFmul (c : Fin 72) (m : OpMod) (s : State) : Out :=
  .next (s.insn c 1 3 (guardMod (modOk m true false false) (floating m 2 fun fmt l => fmt.mul (l.getD 0 0) (l.getD 1 0))))

/-- FDIV (R350). -/
def execFdiv (c : Fin 72) (m : OpMod) (s : State) : Out :=
  .next (s.insn c 1 (if m.w = .w32 then 12 else 8) (guardMod (modOk m true false false) (floating m 2 fun fmt l => fmt.div (l.getD 0 0) (l.getD 1 0))))

/-- FMA: a × b + c, rounded once (R350). -/
def execFma (c : Fin 72) (m : OpMod) (s : State) : Out :=
  .next (s.insn c 1 4 (guardMod (modOk m true false false) (floating m 3 fun fmt l => fmt.fma (l.getD 0 0) (l.getD 1 0) (l.getD 2 0))))

/-- FMIN: IEEE 754-2019 minimum (R350). -/
def execFmin (c : Fin 72) (m : OpMod) (s : State) : Out :=
  .next (s.insn c 1 1 (guardMod (modOk m true false false) (floating m 2 fun fmt l => fmt.minmax false (l.getD 0 0) (l.getD 1 0))))

/-- FMAX: IEEE 754-2019 maximum (R350). -/
def execFmax (c : Fin 72) (m : OpMod) (s : State) : Out :=
  .next (s.insn c 1 1 (guardMod (modOk m true false false) (floating m 2 fun fmt l => fmt.minmax true (l.getD 0 0) (l.getD 1 0))))

/-- FCMPEQ, quiet (R350, R340). -/
def execFcmpeq (c : Fin 72) (m : OpMod) (s : State) : Out :=
  .next (s.insn c 1 1 (guardMod (modOk m true false false) (floating m 2 fun fmt l => let r := fmt.cmpeq (l.getD 0 0) (l.getD 1 0); (maskLane m.w r.1, r.2))))

/-- FCMPLT, signalling (R350, R340). -/
def execFcmplt (c : Fin 72) (m : OpMod) (s : State) : Out :=
  .next (s.insn c 1 1 (guardMod (modOk m true false false) (floating m 2 fun fmt l => let r := fmt.cmplt (l.getD 0 0) (l.getD 1 0); (maskLane m.w r.1, r.2))))

/-- CVT.F: integer lane to a float of the same width (R350). -/
def execCvtF (c : Fin 72) (m : OpMod) (s : State) : Out :=
  .next (s.insn c 1 2 (guardMod (modOk m true true false) (floating m 1 fun fmt l => fmt.ofInt (laneVal m.w m.s (l.getD 0 0)))))

/-- CVT.I: float to an integer of the same width (R350). -/
def execCvtI (c : Fin 72) (m : OpMod) (s : State) : Out :=
  .next (s.insn c 1 2 (guardMod (modOk m true true false) (floating m 1 fun fmt l => fmt.toInt (laneBits m.w) m.s (l.getD 0 0))))

/-- CVT.W: binary16 lanes 0 and 1 to binary32 lanes 0 and 1 (R350). -/
def execCvtW (c : Fin 72) (m : OpMod) (s : State) : Out :=
  .next (s.insn c 1 2 (guardMod (modOk m false false false) fun x =>
    match x.needD 1 1 with
    | .error t => .error t
    | .ok y =>
      let r := ((lanesOf .w16 (y.top 0)).take 2).map (FFmt.convert half single)
      .ok ((y.rep 1 [ofLanes .w32 (r.map (·.1))]).flags (r.foldl (fun v p => v ||| p.2) 0))))

/-- CVT.N: binary32 lanes 0 and 1 to binary16 lanes 0 and 1, lanes 2 and 3 zero (R350). -/
def execCvtN (c : Fin 72) (m : OpMod) (s : State) : Out :=
  .next (s.insn c 1 2 (guardMod (modOk m false false false) fun x =>
    match x.needD 1 1 with
    | .error t => .error t
    | .ok y =>
      let r := (lanesOf .w32 (y.top 0)).map (FFmt.convert single half)
      .ok ((y.rep 1 [ofLanes .w16 (r.map (·.1))]).flags (r.foldl (fun v p => v ||| p.2) 0))))

end Sys2Proof.Machine
end

