-- ==== Sys2Proof/Machine/CrookFlow.lean ====
section
/-!
DEFINITION. Literals, branches, calls and ADDI (R341-R344), and the indirect transfers (R351).
-/

namespace Sys2Proof.Machine

/-- Push one entry. -/
def pushWord (w : Word) : Body := fun x => x.operate 0 1 fun _ => [w]

/-- The target of a relative branch (R342, R343): PC is already past it. -/
def Ctx.target (x : Ctx) (d : Int) : Nat := wrapInt 48 (x.k.pc.toNat + 2 * d)

/-- Continue at a relative target. -/
def jumpRel (d : Int) : Body := fun x => .ok { x with k := { x.k with pc := BitVec.ofNat 48 (x.target d) } }

/-- A conditional branch: the popped entry decides, a taken branch costs one cycle more (R343). -/
def branchRel (zero : Bool) (d : Int) : Body := fun x =>
  match x.needD 1 0 with
  | .error t => .error t
  | .ok y =>
    let taken := (y.top 0 == 0) == zero
    let z := y.rep 1 []
    if taken then jumpRel d (z.spend 1) else .ok z

/-- Push the return address with tag 1 and go (R307, R343). -/
def callTo (a : Ctx → Nat) : Body := fun x =>
  match x.needR 0 1 with
  | .error t => .error t
  | .ok y =>
    match y.goto (a y) with
    | .error t => .error t
    | .ok z => .ok (z.repR 0 [(BitVec.ofNat 64 x.k.pc.toNat, true)])

/-- LIT: the literal, sign-extended from bit 14 (R341). -/
def execLit (c : Fin 72) (v : BitVec 15) (s : State) : Out := .next (s.insn c 1 1 (pushWord (v.signExtend 64)))

/-- JMP, short (R342, R343). -/
def execJmp (c : Fin 72) (d : BitVec 12) (s : State) : Out := .next (s.insn c 1 2 (jumpRel d.toInt))

/-- JZ, short (R342, R343). -/
def execJz (c : Fin 72) (d : BitVec 12) (s : State) : Out := .next (s.insn c 1 1 (branchRel true d.toInt))

/-- JNZ, short (R342, R343). -/
def execJnz (c : Fin 72) (d : BitVec 12) (s : State) : Out := .next (s.insn c 1 1 (branchRel false d.toInt))

/-- CALL, short (R342, R343). -/
def execCall (c : Fin 72) (d : BitVec 12) (s : State) : Out := .next (s.insn c 1 2 (callTo fun x => x.target d.toInt))

/-- JMP, long (R343). -/
def execJmpLong (c : Fin 72) (d : BitVec 22) (s : State) : Out := .next (s.insn c 2 3 (jumpRel d.toInt))

/-- JZ, long (R343). -/
def execJzLong (c : Fin 72) (d : BitVec 22) (s : State) : Out := .next (s.insn c 2 2 (branchRel true d.toInt))

/-- JNZ, long (R343). -/
def execJnzLong (c : Fin 72) (d : BitVec 22) (s : State) : Out := .next (s.insn c 2 2 (branchRel false d.toInt))

/-- CALL, long (R343). -/
def execCallLong (c : Fin 72) (d : BitVec 22) (s : State) : Out := .next (s.insn c 2 3 (callTo fun x => x.target d.toInt))

/-- LIT32, zero- or sign-extended (R344). -/
def execLit32 (c : Fin 72) (sx : Bool) (v : BitVec 32) (s : State) : Out :=
  .next (s.insn c 3 2 (pushWord (if sx then v.signExtend 64 else v.zeroExtend 64)))

/-- LIT64 (R344). -/
def execLit64 (c : Fin 72) (v : BitVec 64) (s : State) : Out := .next (s.insn c 5 3 (pushWord v))

/-- JMPA (R344, R299). -/
def execJmpa (c : Fin 72) (t : BitVec 48) (s : State) : Out := .next (s.insn c 4 4 fun x => x.goto t.toNat)

/-- CALLA (R344): to an odd address it traps ALIGN and pushes nothing. -/
def execCalla (c : Fin 72) (t : BitVec 48) (s : State) : Out := .next (s.insn c 4 4 (callTo fun _ => t.toNat))

/-- ADDI: 64-bit wrap (R344). -/
def execAddi (c : Fin 72) (i : BitVec 8) (s : State) : Out := .next (s.insn c 1 1 (unary fun a => a + i.signExtend 64))

/-- EXEC: call the popped address (R351). -/
def execExecCall (c : Fin 72) (m : OpMod) (s : State) : Out :=
  .next (s.insn c 1 3 (guardMod (modOk m false false false) fun x =>
    match x.needD 1 0 with
    | .error t => .error t
    | .ok y =>
      match y.needR 0 1 with
      | .error t => .error t
      | .ok z =>
        match z.goto (z.top 0).toNat with
        | .error t => .error t
        | .ok w => .ok ((w.rep 1 []).repR 0 [(BitVec.ofNat 64 x.k.pc.toNat, true)])))

/-- RET: an entry with tag 0 traps RS_TAG (R307, R351). -/
def execRet (c : Fin 72) (m : OpMod) (s : State) : Out :=
  .next (s.insn c 1 2 (guardMod (modOk m false false false) fun x =>
    match x.needR 1 0 with
    | .error t => .error t
    | .ok y =>
      if y.topR.2 then
        match y.goto y.topR.1.toNat with
        | .error t => .error t
        | .ok z => .ok (z.repR 1 [])
      else .error ⟨0x0F, 0, false, false⟩))

/-- JMPI: continue at the popped address (R351). -/
def execJmpi (c : Fin 72) (m : OpMod) (s : State) : Out :=
  .next (s.insn c 1 3 (guardMod (modOk m false false false) fun x =>
    match x.needD 1 0 with
    | .error t => .error t
    | .ok y =>
      match y.goto (y.top 0).toNat with
      | .error t => .error t
      | .ok z => .ok (z.rep 1 [])))

end Sys2Proof.Machine
end

