-- ==== Sys2Proof/Machine/CrookStack.lean ====
section
/-!
DEFINITION. The stack operations of the operate class (R347) and the two depths (R354).
-/

namespace Sys2Proof.Machine

/-- A stack operation: its modifier is not an operand of the command, so it is 0. -/
def shuffle (n m : Nat) (f : Ctx → List Word) : Body := fun x => x.operate n m f

/-- DUP (R347). -/
def execDup (c : Fin 72) (s : State) : Out := .next (s.insn c 1 1 (shuffle 1 2 fun x => [x.top 0, x.top 0]))
/-- DROP (R347). -/
def execDrop (c : Fin 72) (s : State) : Out := .next (s.insn c 1 1 (shuffle 1 0 fun _ => []))
/-- SWAP (R347). -/
def execSwap (c : Fin 72) (s : State) : Out := .next (s.insn c 1 1 (shuffle 2 2 fun x => [x.top 1, x.top 0]))
/-- OVER (R347). -/
def execOver (c : Fin 72) (s : State) : Out := .next (s.insn c 1 1 (shuffle 2 3 fun x => [x.top 1, x.top 0, x.top 1]))
/-- NIP (R347). -/
def execNip (c : Fin 72) (s : State) : Out := .next (s.insn c 1 1 (shuffle 2 1 fun x => [x.top 0]))
/-- TUCK (R347). -/
def execTuck (c : Fin 72) (s : State) : Out := .next (s.insn c 1 1 (shuffle 2 3 fun x => [x.top 0, x.top 1, x.top 0]))
/-- ROT: ( a b c -- b c a ) (R347). -/
def execRot (c : Fin 72) (s : State) : Out :=
  .next (s.insn c 1 1 (shuffle 3 3 fun x => [x.top 2, x.top 0, x.top 1]))

/-- PICK: n above 30 traps ILLEGAL once n is present (R338, R347); the entry is read before a full hardware part makes room. -/
def execPick (c : Fin 72) (s : State) : Out :=
  .next (s.insn c 1 2 fun x =>
    match x.needD 1 1 with
    | .error t => .error t
    | .ok y =>
      let n := (y.top 0).toNat
      if 30 < n then .error trapIllegal
      else
        match Ctx.fillD 5 (n + 2) y with
        | .error t => .error t
        | .ok z =>
          match z.roomD (n + 2) (n + 2) with
          | .error t => .error t
          | .ok w => .ok (w.rep 1 [z.top (n + 1)]))

/-- TORS: to the return stack with tag 0 (R307, R347). -/
def execTors (c : Fin 72) (s : State) : Out :=
  .next (s.insn c 1 1 fun x =>
    match x.needD 1 0 with
    | .error t => .error t
    | .ok y =>
      match y.needR 0 1 with
      | .error t => .error t
      | .ok z => .ok ((z.rep 1 []).repR 0 [(z.top 0, false)]))

/-- FROMRS: the tag is ignored (R307, R347). -/
def execFromrs (c : Fin 72) (s : State) : Out :=
  .next (s.insn c 1 1 fun x =>
    match x.needR 1 0 with
    | .error t => .error t
    | .ok y =>
      match y.needD 0 1 with
      | .error t => .error t
      | .ok z => .ok ((z.rep 0 [z.topR.1]).repR 1 []))

/-- RSCOPY: the tag is ignored (R307, R347). -/
def execRscopy (c : Fin 72) (s : State) : Out :=
  .next (s.insn c 1 1 fun x =>
    match x.needR 1 1 with
    | .error t => .error t
    | .ok y =>
      match y.needD 0 1 with
      | .error t => .error t
      | .ok z => .ok (z.rep 0 [z.topR.1]))

/-- RSDROP (R347). -/
def execRsdrop (c : Fin 72) (s : State) : Out :=
  .next (s.insn c 1 1 fun x =>
    match x.needR 1 0 with
    | .error t => .error t
    | .ok y => .ok (y.repR 1 []))

/-- Data entries: the hardware part and what is spilled (R354). -/
def Core.depth (k : Core) : Nat := k.ds.length + (k.dsp.toNat - k.dsl.toNat) / 8
/-- Return entries (R354). -/
def Core.rdepth (k : Core) : Nat := k.rs.length + 8 * (k.rsp.toNat - k.rsl.toNat) / 72

/-- DEPTH: data entries before it (R354). -/
def execDepth (c : Fin 72) (s : State) : Out :=
  .next (s.insn c 1 1 fun x => x.operate 0 1 fun _ => [BitVec.ofNat 64 x.k.depth])
/-- RDEPTH: return entries (R354). -/
def execRdepth (c : Fin 72) (s : State) : Out :=
  .next (s.insn c 1 1 fun x => x.operate 0 1 fun _ => [BitVec.ofNat 64 x.k.rdepth])

end Sys2Proof.Machine
end

