-- ==== Sys2Proof/Machine/CrookSys.lean ====
section
/-!
DEFINITION. TRAP, the SYS reads and writes, and the control operations (R352-R356) with the waking and the limit of a WAIT
(R325).
-/

namespace Sys2Proof.Machine

/-- TRAP n: SOFT with DETAIL n and TRAPPC at the next instruction (R352). -/
def execTrap (c : Fin 72) (n : BitVec 8) (s : State) : Out := .next (s.insn c 1 1 fun _ => .error ⟨0x13, n.toNat, false, false⟩)

/-- The value SYS reads for register `n`, none for a reserved one (R353). -/
def sysValue (k : Core) : Nat → Option Word
  | 0 => some (k.pc.zeroExtend 64) | 1 => some (k.dsp.zeroExtend 64) | 2 => some (k.rsp.zeroExtend 64)
  | 3 => some (k.lp.zeroExtend 64) | 4 => some (k.dsl.zeroExtend 64) | 5 => some (k.dsh.zeroExtend 64)
  | 6 => some (k.rsl.zeroExtend 64) | 7 => some (k.rsh.zeroExtend 64) | 8 => some k.status
  | 9 => some (k.trapvec.zeroExtend 64) | 10 => some k.trapcause | 11 => some (k.trappc.zeroExtend 64)
  | 12 => some k.cycle | 13 => some (k.func.zeroExtend 64) | _ => none

/-- SYS read (R353, R314): TRAPVEC, TRAPCAUSE and TRAPPC trap PRIVILEGE in user state. -/
def execSysRead (c : Fin 72) (n : BitVec 4) (s : State) : Out :=
  .next (s.insn c 1 1 fun x =>
    match sysValue x.k n.toNat with
    | none => .error trapIllegal
    | some _ =>
      if ¬ x.k.sys ∧ 9 ≤ n.toNat ∧ n.toNat ≤ 11 then .error trapPrivilege
      else x.operate 0 1 fun y => [(sysValue y.k n.toNat).getD 0])

/-- The stack registers after a write of register 1, 2 or 4-7: DSL, DSP, DSH, RSL, RSP, RSH. -/
def stackRegs (k : Core) (n v : Nat) : Nat × Nat × Nat × Nat × Nat × Nat :=
  (if n = 4 then v else k.dsl.toNat, if n = 1 then v else k.dsp.toNat, if n = 5 then v else k.dsh.toNat,
   if n = 6 then v else k.rsl.toNat, if n = 2 then v else k.rsp.toNat, if n = 7 then v else k.rsh.toNat)

/-- The effect of a SYS write of `v` on the core, once the value is popped; none where the write rules trap ILLEGAL (R303, R314,
R353). -/
def sysStore (k : Core) (n v : Nat) : Option Core :=
  if n = 3 then if v % 8 = 0 ∧ v < 0x20000 then some { k with lp := BitVec.ofNat 17 v } else none
  else if n = 8 then
    if k.sys then if v < 2 ^ 9 ∧ bits v 2 2 = 0 then some { k with status := BitVec.ofNat 64 v } else none
    else some { k with status := BitVec.ofNat 64 (withBits k.status.toNat 4 5 (bits v 4 5)) }
  else if n = 9 then if v % 2 = 0 ∧ v < 2 ^ 48 then some { k with trapvec := BitVec.ofNat 48 v } else none
  else if n = 10 then some { k with trapcause := BitVec.ofNat 64 v }
  else if n = 11 then if v % 2 = 0 ∧ v < 2 ^ 48 then some { k with trappc := BitVec.ofNat 48 v } else none
  else if n = 12 then some { k with cycle := BitVec.ofNat 64 v }
  else
    let r := stackRegs k n v
    if v < 2 ^ 17 ∧ stacksOk r.1 r.2.1 r.2.2.1 r.2.2.2.1 r.2.2.2.2.1 r.2.2.2.2.2 = true then
      let w := BitVec.ofNat 17 v
      some (if n = 1 then { k with dsp := w, ds := [] }
        else if n = 2 then { k with rsp := w, rs := [] }
        else if n = 4 then { k with dsl := w } else if n = 5 then { k with dsh := w }
        else if n = 6 then { k with rsl := w } else { k with rsh := w })
    else none

/-- SYS write (R353): PC, FUNC and the reserved numbers trap ILLEGAL; in user state all but LP and STATUS trap PRIVILEGE. -/
def execSysWrite (c : Fin 72) (n : BitVec 4) (s : State) : Out :=
  .next (s.insn c 1 (if n = 1 ∨ n = 2 then 2 else 1) fun x =>
    if n = 0 ∨ 13 ≤ n.toNat then .error trapIllegal
    else if ¬ x.k.sys ∧ n ≠ 3 ∧ n ≠ 8 then .error trapPrivilege
    else
      match x.needD 1 0 with
      | .error t => .error t
      | .ok y =>
        let z := y.rep 1 []
        match sysStore z.k n.toNat (y.top 0).toNat with
        | none => .error trapIllegal
        | some k => .ok { z with k := k })

/-- NOP (R354). -/
def execNop (c : Fin 72) (s : State) : Out := .next (s.insn c 1 1 fun x => .ok x)


/-- RTI: PC from TRAPPC, SYS from TRAPCAUSE.PREV_SYS, TRAP cleared; PRIVILEGE in user state (R315, R354). -/
def execRti (c : Fin 72) (s : State) : Out :=
  .next (s.insn c 1 6 fun x =>
    if x.k.sys then .ok { x with k := { x.k.withMode (x.k.trapcause.getLsbD 8) false with pc := x.k.trappc } }
    else .error trapPrivilege)

/-- WAIT: 1 when the bit is already set, otherwise the core sleeps with its operands kept and PC at the WAIT (R325). -/
def execWait (c : Fin 72) (s : State) : Out :=
  .next (s.insn c 1 2 fun x =>
    match x.needD 2 1 with
    | .error t => .error t
    | .ok y =>
      match y.bitAddr (y.top 1).toNat with
      | .error t => .error t
      | .ok p =>
        match y.meetBit p with
        | .error t => .error t
        | .ok z => if z.getBit p then .ok (z.rep 2 [1]) else .ok { z with hold := some ((z.top 1).toNat, (z.top 0).toNat) })

/-- A sleeping WAIT ends with a flag: its operands give way to it, PC passes it, and the time counts into CYCLE. -/
def Core.endWait (k : Core) (flag : Word) (time : Nat) : Core :=
  { k with state := .running, wait := none, ds := flag :: k.ds.drop 2, pc := k.pc + 2, insns := k.insns + 1,
           cycle := k.cycle + coreCycles k.since time }

/-- The bit a sleeping core awaits is set (R308, R309). -/
def State.awaited (s : State) (c : Fin 72) (addr : Nat) : Bool :=
  Ctx.getBit ⟨s, c, s.cores[c], 0, none, none, 0⟩ (s.bitPlace s.cores[c].tag addr)

/-- WAIT_WAKE: the awaited bit is set and the WAIT pushes 1 (R325). -/
def execWaitWake (c : Fin 72) (s : State) : Out :=
  let k := s.cores[c]
  match k.state, k.wait with
  | .waiting, some (a, _) => if s.awaited c a then .next (s.setCore c (k.endWait 1 s.time)) else .next s
  | _, _ => .next s

/-- DTIME at which a WAIT's limit of `n` cycles passes. -/
def waitDeadline (k : Core) (n : Nat) : Nat := k.since + ceilDiv (n * 10) 24

/-- WAIT_TIMEOUT: the limit passes first and the WAIT pushes 0; a limit of 0 waits without bound (R325). -/
def execWaitTimeout (c : Fin 72) (s : State) : Out :=
  let k := s.cores[c]
  match k.state, k.wait with
  | .waiting, some (a, n) =>
    if n = 0 ∨ s.awaited c a then .next s
    else
      let t := { s with time := max s.time (waitDeadline k n) }
      .next (t.setCore c (k.endWait 0 t.time))
  | _, _ => .next s

/-- The 64 bytes of a descriptor with the cycles of reading them (R354). -/
def Ctx.descriptor (x : Ctx) (a : Nat) : Except Trap (Ctx × Bytes) :=
  match x.locate a 64 .r false with
  | .error t => .error t
  | .ok (y, none) =>
    match y.readLocal a 64 with
    | .error t => .error t
    | .ok z => .ok (z, memReadN z.k.mem a 64)
  | .ok (y, some (.common, pa)) => .ok (y.spend 40, y.s.mem.read .common pa 64)
  | .ok (y, some (t, pa)) =>
    match y.useLine t pa false with
    | .error t => .error t
    | .ok z => .ok (z, ((z.k.line t pa).map (·.data)).getD [])

/-- SUBMIT (R323, R355): status 3, 2 or 1 queues nothing (log entry 23 for their order). -/
def execSubmit (c : Fin 72) (s : State) : Out :=
  .next (s.insn c 1 12 fun x =>
    match x.needD 2 1 with
    | .error t => .error t
    | .ok y =>
      let d := (y.top 1).toNat
      let cw := (y.top 0).toNat
      if submitReserved cw then .error trapIllegal
      else if ¬ y.k.sys ∧ (bits cw 0 4 = 4 ∨ bitAt cw 35 = true) then .error trapPrivilege
      else
        match y.descriptor d with
        | .error t => .error t
        | .ok (z, desc) =>
          match z.writeBack with
          | .error t => .error t
          | .ok w =>
          let func := if bitAt cw 35 then bits cw 26 9 else w.k.func.toNat
          let eng := bits cw 0 4
          let src := JobSrc.cluster ⟨c.val / 8, by omega⟩
          let st : Nat := if w.s.isResetting func then 3 else if !w.s.engineLive eng then 2
            else if 64 ≤ (w.s.queued src eng).length then 1 else 0
          let done := if bitAt cw 4 then some (bits cw 5 21, w.k.tag, c.val) else none
          let t := if st = 0 then w.s.submitJob src eng func desc done none else w.s
          .ok ({ w with s := t }.rep 2 [BitVec.ofNat 64 st]))

/-- FENCE with options WB, INV, IINV and DRAIN (R356); no option is a reserved value. -/
def execFence (c : Fin 72) (o : BitVec 4) (s : State) : Out :=
  .next (s.insn c 1 4 fun x =>
    if o = 0 then .error trapIllegal
    else
      match (if o.getLsbD 0 then (x.spend (8 * x.k.dirtyLines)).writeBack else .ok x) with
      | .error t => .error t
      | .ok a =>
        match (if o.getLsbD 1 then (a.spend (512 + 8 * a.k.dirtyLines)).writeBack else .ok a) with
        | .error t => .error t
        | .ok y =>
          let b := if o.getLsbD 1 then { y with k := { y.k with dcache := [] } } else y
          .ok (if o.getLsbD 2 then { b.spend 1024 with k := { b.k with icache := [] } } else b))

end Sys2Proof.Machine
end

