-- ==== Sys2Proof/Machine/Digest.lean ====
section
/-!
DEFINITION. Digest jobs of cores and hosts (R436, R438); the writes of the DIGEST page stand with the register rows.
-/

namespace Sys2Proof.Machine

/-- HASH (R436). -/
def execHash (src : JobSrc) (s : State) : Out := .next (s.digestJob src 1 0 0)

/-- HASH_COMPARE (R436, R438). -/
def execHashCompare (src : JobSrc) (va vb : BitVec 8) (s : State) : Out := .next (s.digestJob src 2 va vb)

/-- DIGEST_JOB_COMPLETE: the oldest job that has run gets its record and done bit (R436, R324). -/
def execDigestJobComplete (s : State) : Out :=
  match s.doneJob 2 with
  | none => .next s
  | some d => .next ((s.dropDone d).endJob d (descN d.record 5 1) fun t a =>
      (t.xlateFault d.job.func a 0 true false true).record 0x2A E.DIGEST_XLATE_FAULT (digestInfo (descN d.record 6 1) d.job.func)
        d.job.func)

end Sys2Proof.Machine
end

