-- ==== Sys2Proof/Machine/DroveBase.lean ====
section
/-!
DEFINITION. The Drove set's shared operations: its links (R507-R509), packets and their way round the ring (R508, R519), the page
(R525), liveness and quorum (R514, R516), formation (R510-R512, R515) and set time (R517, R518). Readings: log entry 80.
-/

namespace Sys2Proof.Machine

/-- Change the Drove state. -/
def State.setDrove (s : State) (f : DroveSt → DroveSt) : State := { s with drove := f s.drove }

/-- A link by physical port. -/
def DroveSt.link (d : DroveSt) : Port → DroveLink
  | .a => d.a
  | .b => d.b

/-- Change a link. -/
def State.modLink (s : State) (p : Port) (f : DroveLink → DroveLink) : State :=
  s.setDrove fun d => match p with
    | .a => { d with a := f d.a }
    | .b => { d with b := f d.b }

/-- The other port. -/
def otherPort : Port → Port
  | .a => .b
  | .b => .a

/-- The physical port that serves as logical A, downstream (R510). -/
def DroveSt.down (d : DroveSt) : Port := if d.swapped then .b else .a

/-- The logical port, 0 for A, that a physical port serves as. -/
def DroveSt.logical (d : DroveSt) (p : Port) : Nat := b2n (p != d.down)

/-- A port is physical A. -/
def isA : Port → Bool
  | .a => true
  | .b => false

/-- The link carries packets of the set: up, its neighbour's IDENT accepted, not refused (R509). -/
def DroveLink.open_ (l : DroveLink) : Bool := l.up && l.ident && l.refusal == 0

/-- Record a DROVE condition (R526). -/
def State.droveErr (s : State) (code member port : Nat) : State := s.record 0xC0 code (member % 32 + port % 2 * 32)

/-- Own index, 0 before formation. -/
def DroveSt.me (d : DroveSt) : Nat := d.member.getD 0

/-- OTP role (R512). -/
def State.droveOtpRole (s : State) : Nat := s.get R.DROVE.SET_CFG_ROLE

/-- CONFIG_N. -/
def State.configN (s : State) : Nat := s.get R.DROVE.SET_CFG_CONFIG_N

/-- This device is the active manager. -/
def DroveSt.manages (d : DroveSt) : Bool := d.role == 1

/-- Members of the set: the live ones with the device itself. -/
def DroveSt.count (d : DroveSt) : Nat := d.live.length + 1

/-- Hops along a ring of `n` members, and whether the shorter path goes downstream. -/
def ringPath (n me to_ : Nat) : Nat × Bool :=
  let n := max 1 n
  let dn := (to_ + n - me % n) % n
  if dn ≤ n - dn then (dn, true) else (n - dn, false)

/-- Distance to the manager (R525). -/
def DroveSt.hops (d : DroveSt) : Nat :=
  if d.manages || d.member.isNone then 0 else if d.line then d.formHops else (ringPath d.count d.me d.manager).1

/-- The physical port of the shorter path to a member. On a line it is the one by which the member was last heard, and for one not
heard the one that leads to the manager. -/
def DroveSt.portTo (d : DroveSt) (m : Nat) : Port :=
  if d.line then
    match d.live.find? (·.idx == m) with
    | some x => if x.viaA then .a else .b
    | none => if d.formA then .a else .b
  else if (ringPath d.count d.me m).2 then d.down else otherPort d.down

/-- LIVE mask: the live members with the device itself. -/
def DroveSt.liveMask (d : DroveSt) : Nat :=
  match d.member with
  | some m => d.live.foldl (fun v x => setBit v x.idx true) (2 ^ m)
  | none => d.live.foldl (fun v x => setBit v x.idx true) 0

/-- A signed value in 32 bits. -/
def int32 (i : Int) : Nat := (i % 4294967296).toNat

/-- The DROVE page follows the set (R525). -/
def State.showDrove (s : State) : State :=
  let d := s.drove
  let a := d.link d.down
  let b := d.link (otherPort d.down)
  let n := if d.member.isSome then d.count else 0
  s.puts [(R.DROVE.SET_STATUS_ACTIVE_ROLE, d.role), (R.DROVE.SET_STATUS_MEMBER, d.me), (R.DROVE.SET_STATUS_MANAGER, d.manager),
    (R.DROVE.SET_STATUS_STANDBY, d.standby.getD 0), (R.DROVE.SET_STATUS_NO_STANDBY, b2n d.standby.isNone),
    (R.DROVE.SET_STATUS_QUORUM, b2n d.quorum), (R.DROVE.SET_STATUS_TOPOLOGY, b2n d.line),
    (R.DROVE.SET_STATUS_SWAPPED, b2n d.swapped), (R.DROVE.SET_STATUS_LIVE, n), (R.DROVE.SET_STATUS_HOPS, d.hops),
    (R.DROVE.EPOCH_EPOCH, d.epoch), (R.DROVE.LIVE_MASK_MASK, d.liveMask),
    (R.DROVE.LINK_A_UP, b2n a.up), (R.DROVE.LINK_A_REFUSAL, a.refusal), (R.DROVE.LINK_A_NEIGHBOUR, a.neighbour),
    (R.DROVE.LINK_B_UP, b2n b.up), (R.DROVE.LINK_B_REFUSAL, b.refusal), (R.DROVE.LINK_B_NEIGHBOUR, b.neighbour),
    (R.DROVE.LINK_DELAY_A_NS, a.delay), (R.DROVE.LINK_DELAY_B_NS, b.delay), (R.DROVE.TIME_OFFSET_NS, int32 d.offset),
    (R.DROVE.OPS_QUEUED_COUNT, if d.manages then d.queue.length + b2n d.cur.isSome else 0)]

/-! ### Links (R507, R508) -/

/-- HEARTBEAT and TIME consume no credit (R508). -/
def uncredited (p : Bytes) : Bool := pktType p == 0x42 || pktType p == 0x43

/-- The neighbour's limit admits one more credited packet, in modular order (R66). -/
def DroveLink.mayCtrl (l : DroveLink) : Bool :=
  match l.limCtrl with
  | some x => (x + 256 - (l.txCtrl + 1) % 256) % 256 < 128
  | none => false

/-- Send one payload flit (R60, R64). -/
def DroveLink.payload (l : DroveLink) (time : Nat) (p : Bytes) : DroveLink :=
  let q := (l.txSeq + 1) % 1024
  { l with txSeq := q, replay := l.replay ++ [⟨q, [p], linkArea q 0 l.rxSeq l.ackOut 0 l.advCtrl 0⟩], ackOut := 0, ackFrom := if l.replay.isEmpty then time else l.ackFrom }

/-- Waiting packets leave while the neighbour's credit and the replay buffer admit them. -/
def linkPump (time : Nat) : List Bytes → DroveLink → DroveLink
  | [], l => { l with txq := [] }
  | p :: ps, l =>
    if l.up && !l.retraining && decide (l.replay.length < 512) && l.mayCtrl then
      linkPump time ps { l.payload time p with txCtrl := l.txCtrl + 1 }
    else { l with txq := p :: ps }

/-- Both links send what they may. -/
def State.drovePump (s : State) : State :=
  s.setDrove fun d => { d with a := linkPump s.time d.a.txq d.a, b := linkPump s.time d.b.txq d.b }

/-- Queue a credited packet on a link that is up. -/
def State.linkSend (s : State) (p : Port) (pkt : Bytes) : State :=
  if (s.drove.link p).up then s.modLink p fun l => { l with txq := l.txq ++ [pkt] } else s

/-- Send a packet of the set by a port: HEARTBEAT and TIME at once, others by credit. -/
def State.setSend (s : State) (p : Port) (pkt : Bytes) : State :=
  let l := s.drove.link p
  if !l.open_ then s
  else if !uncredited pkt then s.linkSend p pkt
  else if l.retraining || 512 ≤ l.replay.length then s
  else s.modLink p fun l => l.payload s.time pkt

/-- The end of a DROVE command: packets leave and the page follows. -/
def State.droveDone (s : State) : State := s.drovePump.showDrove

/-! ### Packets (R508) -/

/-- The common header. -/
def droveHeader (ty src len dst ttl : Nat) : Bytes := leBytes 1 ty ++ leBytes 1 src ++ leBytes 2 len ++ leBytes 1 dst ++ leBytes 1 ttl ++ leBytes 2 0

/-- SRC of an own packet. -/
def DroveSt.src (d : DroveSt) : Nat := d.member.getD 0xFF

/-- IDENT, as sent by a physical port. -/
def State.identPkt (s : State) (p : Port) : Bytes :=
  droveHeader 0x40 s.drove.src 48 0xFF 0 ++ leBytes 8 (s.get R.DROVE.SET_ID_ID) ++ padTo 16 s.serial ++ leBytes 1 (b2n (!isA p))
    ++ leBytes 1 s.droveOtpRole ++ leBytes 2 0 ++ leBytes 4 s.drove.epoch ++ leBytes 8 0

/-- FORM from the stored formation, with its hops from the manager: the next index and TTL. -/
def State.formPkt (s : State) (src next ttl : Nat) : Bytes :=
  let d := s.drove
  droveHeader 0x41 src 24 0xFF ttl ++ leBytes 4 d.epoch ++ leBytes 1 next ++ leBytes 1 d.manager ++ leBytes 1 (d.standby.getD 0xFF)
    ++ leBytes 1 s.configN ++ leBytes 4 d.liveMask ++ leBytes 1 (b2n d.line) ++ leBytes 3 0

/-- HEARTBEAT. -/
def State.droveHbPkt (s : State) (ttl : Nat) : Bytes :=
  let d := s.drove
  droveHeader 0x42 d.src 32 0xFF ttl ++ leBytes 4 d.epoch ++ leBytes 1 d.role ++ leBytes 1 (b2n s.takeLive + 2 * b2n d.quorum)
    ++ leBytes 2 0 ++ leBytes 4 d.liveMask ++ leBytes 8 s.time ++ leBytes 4 0

/-- TIME on a link: the last TIME received there is echoed with its hold. -/
def State.timePkt (s : State) (l : DroveLink) : Bytes :=
  let h := l.heard.getD (0, s.time)
  droveHeader 0x43 s.drove.src 32 0xFF 0 ++ leBytes 8 s.time ++ leBytes 8 h.1 ++ leBytes 4 (s.time - h.2) ++ leBytes 4 0

/-- ORDER. -/
def orderBytes (src dst ttl epoch opId op phase t : Nat) (param : Bytes) : Bytes :=
  droveHeader 0x44 src 64 dst ttl ++ leBytes 4 epoch ++ leBytes 4 opId ++ leBytes 1 op ++ leBytes 1 phase ++ leBytes 2 0 ++ leBytes 8 t
    ++ padTo 32 param ++ leBytes 4 0

/-- REPLY. -/
def replyBytes (src dst ttl epoch opId status reason : Nat) (result : Bytes) : Bytes :=
  droveHeader 0x45 src 64 dst ttl ++ leBytes 4 epoch ++ leBytes 4 opId ++ leBytes 1 status ++ leBytes 1 reason ++ leBytes 2 0
    ++ padTo 44 result

/-- MIRROR. -/
def mirrorBytes (src dst ttl epoch mseq : Nat) (data : Bytes) : Bytes :=
  droveHeader 0x46 src (16 + data.length) dst ttl ++ leBytes 4 epoch ++ leBytes 4 mseq ++ data

/-- The packet is addressed to this member. -/
def State.forMe (s : State) (h : DroveHdr) : Bool := s.drove.member == some h.dst.toNat

/-- A packet that is for others too goes on by the other port with one hop less (R508). -/
def State.passOn (s : State) (h : DroveHdr) (pkt : Nat → Bytes) : State :=
  if h.ttl.toNat = 0 ∨ s.forMe h ∨ s.drove.member = some h.src.toNat then s else s.setSend (otherPort h.port) (pkt (h.ttl.toNat - 1))

/-- A packet whose place in the receive buffer frees: the first of its type on its port. -/
def State.takePkt (s : State) (h : DroveHdr) (ty : Nat) : State :=
  s.modLink h.port fun l =>
    let rx := removeFirst (fun p => pktType p == ty) l.rxBuf
    { l with rxBuf := rx, advCtrl := l.rxCtrl + (128 - (rx.filter fun p => !uncredited p).length) }

/-- A packet of the set is taken only from a link whose neighbour was accepted (R509). -/
def State.heeds (s : State) (h : DroveHdr) : Bool := (s.drove.link h.port).open_

/-! ### Formation (R510-R512, R515) -/

/-- Send FORM as the manager by a port. -/
def State.sendForm (s : State) (p : Port) : State := s.setSend p (s.formPkt s.drove.src 1 31)

/-- Send FORM as the manager: downstream from physical A on a ring, both ways on a line (R510, R511). -/
def State.announce (s : State) : State := if s.drove.line then (s.sendForm .a).sendForm .b else s.sendForm .a

/-- The formation a member stored goes on by a port, or a manager's own. -/
def State.resendForm (s : State) (p : Port) : State :=
  let d := s.drove
  if d.manages then s.sendForm p else s.setSend p (s.formPkt d.manager (d.formHops + 1) (31 - d.formHops))

/-- The ring becomes a line (R511). -/
def State.goLine (s : State) : State :=
  if s.drove.line then s
  else ((s.setDrove fun d => { d with line := true }).pulse 0xC0 Ev.DROVE.LINE).droveErr E.DROVE_LINE s.drove.me 0

/-- A new EPOCH: no OP_ID of it has been answered (R515, R520). -/
def State.setEpoch (s : State) (e : Nat) : State := s.setDrove fun d => { d with epoch := e % 2 ^ 32, answered := [] }

/-! ### Set time (R517, R518) -/

/-- Move DTIME by a signed amount; the RTC counts on from the same instant. -/
def State.shiftTime (s : State) (d : Int) : State :=
  let t := (Int.ofNat s.time + d).toNat
  { s with time := t, rtcBase := s.rtcTicks, rtcAt := t }

/-- Discipline of DTIME against a reference `off` ahead: a step of more than 1 µs while no take is open or admitting, else a
slew of at most 100 ppm, 100 ns in the millisecond between references, by a free amount. -/
def State.discipline (s : State) (off : Int) : State :=
  let s := s.setDrove fun d => { d with offset := off }
  let big := decide (1000 < off.natAbs)
  if big && s.get R.TAKE.TAKE_STATE_STATE == 0 then
    (s.shiftTime off).setDrove fun d => { d with offSince := none, faulted := false }
  else
    let f := s.fresh
    let m := Int.ofNat (min off.natAbs (f.1 % 101))
    let t := f.2.shiftTime (if 0 ≤ off then m else -m)
    if decide (100000 < off.natAbs) then t.setDrove fun d => { d with offSince := some (d.offSince.getD s.time) }
    else t.setDrove fun d => { d with offSince := none, faulted := false }

/-- One CTL cycle of 10 ns, in which the RTC disciplines DTIME (R19, R560): where they are more than one RTC count apart, DTIME is
slewed towards the RTC by 100 ppm, 1 ns in each 1,000 cycles, and the RTC keeps its own pace. A stopped RTC disciplines nothing, nor does
one in a set whose manager does (log entry 87). -/
def State.tick (s : State) : State :=
  let t := { s with time := s.time + 10 }
  let mine := t.time * 32768 / 1000000000
  let member := !s.drove.live.isEmpty && !s.drove.manages
  if s.get R.RTC.STATUS_OSC_FAIL = 1 ∨ member ∨ (t.rtcTicks ≤ mine + 1 ∧ mine ≤ t.rtcTicks + 1) then t
  else if t.slewed < 999 then { t with slewed := t.slewed + 1 }
  else if mine < t.rtcTicks then { t with slewed := 0, time := t.time + 1, rtcAt := t.rtcAt + 1 }
  else { t with slewed := 0, time := t.time - 1, rtcAt := t.rtcAt - 1 }

/-- DROVE owns the SYNC_IN ball and uses it, on the manager (R517, R614). -/
def State.syncIn (s : State) : Bool :=
  s.get (R.SHARE.OWNER_STATE 0) == 1 && s.get (R.SHARE.OWNER_BLOCK 0) == 0x50 && s.bit R.DROVE.SYNC_CTRL_EN && s.drove.manages

/-! ### What an armed start holds (R521) -/

/-- A prepared start ends: its reservations are released. -/
def State.disarm (s : State) : State :=
  match s.drove.armed with
  | none => s
  | some _ =>
    let t := s.setDrove fun d => { d with armed := none }
    let t := (t.setTake fun x => { x with req := none }).reserveLanes []
    (t.puts [(R.TAKE.TAKE_STATE_STATE, 0), (R.FALLOW.RESERVED_USER_MB, 0)]).follow

end Sys2Proof.Machine
end

