-- ==== Sys2Proof/Machine/Earmark.lean ====
section
/-!
DEFINITION. Earmark jobs, their completion and the scrubber (R384-R394).
-/

namespace Sys2Proof.Machine

/-- Results of SEARCH_LIST: successive searches that exclude the entries listed before (R385). -/
def listSearch (n : Nat) (key mask : List Nat) (checked : Bool) : Nat → List (Nat × Nat) → State → List Nat × State
  | 0, _, s => ([], s)
  | f + 1, skip, s =>
    let r := s.search1 n key mask skip checked
    match r.2.1 with
    | none => ([0], r.2.2)
    | some w => let q := listSearch n key mask checked f (skip ++ [(w.1, w.2.1)]) r.2.2; (r.1 :: q.1, q.2)

/-- One key of a search job with `per` results; none is written once a repair has retired a bank of the table (R395). -/
def EarRun.searchItem (j : Job) (per : Nat) (mask : List Nat) (r : EarRun) (i : Nat) : EarRun :=
  let d := j.desc
  let n := descN d 2 1
  let w := r.s.bankWidth n
  r.fetch j.func (descN d 16 8 + 8 * w * i) (8 * w) fun bs =>
    let q := listSearch n (wordsOf bs) mask (bitAt (descN d 1 1) 0) per [] r.s
    let out := ((q.1 ++ List.replicate per 0).take per).flatMap (leBytes 8)
    if q.2.tableRetired n then { r with s := q.2 }.halt 0x09
    else { r with s := q.2 }.put j.func (descN d 24 8 + 8 * per * i) out fun t =>
      { r with s := t, items := r.items + 1, hits := r.hits + b2n (q.1.headD 0 % 2 == 1),
               repairs := r.repairs + (q.1.filter fun x => bitAt x 3).length }

/-- An entry record (R385). -/
def entryRecord (w id : Nat) (e : EEnt) : Bytes :=
  leBytes 4 id ++ leBytes 1 (e.cls % 16 + b2n e.valid * 16) ++ leBytes 3 0
    ++ (List.range w).flatMap (fun j => leBytes 8 (e.vals.getD j 0)) ++ (List.range w).flatMap (fun j => leBytes 8 (e.cares.getD j 0))

/-- One ENTRY_ID of a READ job: the record comes from the shadow, its reserved bits [31:17] zero (R9, R383). -/
def EarRun.readItem (j : Job) (r : EarRun) (i : Nat) : EarRun :=
  let n := descN j.desc 2 1
  let w := r.s.bankWidth n
  r.fetch j.func (descN j.desc 16 8 + 4 * i) 4 fun bs =>
    match r.s.entryId n (leNat bs) with
    | none => r.halt 0x02
    | some p =>
      r.put j.func (descN j.desc 24 8 + (8 + 16 * w) * i) (entryRecord w (leNat bs % 2 ^ 17) (entAt (r.s.bank p.1).shadow w p.2)) fun t =>
        { r with s := t, items := r.items + 1 }

/-- Run the items of a job that are left until one stops it (R386). -/
def EarRun.items_ (j : Job) (step : EarRun → Nat → EarRun) (n : Nat) (r : EarRun) : EarRun :=
  (List.range (n - r.items)).foldl (fun r _ => r.item j step) r

/-- Completion record (R387). -/
def earRecord (tag status items hits repairs : Nat) : Bytes :=
  leBytes 4 tag ++ leBytes 1 status ++ leBytes 3 0 ++ leBytes 4 items ++ leBytes 4 hits ++ leBytes 2 repairs ++ leBytes 14 0

/-- Record the error of an Earmark job. -/
def State.earErr (s : State) (j : Job) (status : Nat) : State :=
  let info := earInfo (descN j.desc 2 1) 0 j.func
  if status = 0x02 then s.record 0x30 E.EARMARK_BAD_DESCRIPTOR info j.func
  else if status = 0x08 then s.record 0x30 E.EARMARK_TABLE_DENIED info j.func
  else if status = 0x06 then s.record 0x30 E.EARMARK_XLATE_FAULT info j.func
  else s

/-- Run what is left of an Earmark job of one operation from the front of its queue: nothing happens where none waits there. A job that
has begun has passed its whole-job checks. -/
def State.earJob (s : State) (src : JobSrc) (op : Nat) (step : Job → EarRun → Nat → EarRun) : State :=
  match s.jobFor src 1 op 5 with
  | none => s
  | some j =>
    let t := s.takeJob j.id
    let tag := descN j.desc 8 4
    let addr := if descN j.desc 40 8 % 32 = 0 then descN j.desc 40 8 else 0
    match if t.earBegun j.id then none else t.earRefusal j with
    | some st => (t.earErr j st).finishJob ⟨j, st, addr, earRecord tag st 0 0 0, 0⟩
    | none =>
      let r := EarRun.items_ j (step j) (descN j.desc 4 4) (t.earRun j.id)
      let st := r.stop.getD 0
      ((r.s.endRun j.id).earErr j st).finishJob ⟨j, st, addr, earRecord tag st r.items r.hits r.repairs, 0⟩

/-- The items of a search job, under its key mask (R381, R384). -/
def searchItems (per : Job → Nat) (j : Job) (r : EarRun) (i : Nat) : EarRun :=
  let w := r.s.bankWidth (descN j.desc 2 1)
  if bitAt (descN j.desc 1 1) 1 then
    r.fetch j.func (descN j.desc 32 8) (8 * w) fun m => EarRun.searchItem j (per j) (wordsOf m) r i
  else EarRun.searchItem j (per j) (List.replicate w (2 ^ 64 - 1)) r i

/-- The items of a job by its operation (R385). -/
def earItems (j : Job) : EarRun → Nat → EarRun :=
  match descN j.desc 0 1 with
  | 1 => searchItems (fun _ => 1) j
  | 2 => searchItems (fun j => descN j.desc 3 1) j
  | 3 => EarRun.writeItem j
  | 4 => EarRun.invalidateItem j
  | _ => EarRun.readItem j

/-! ### The ports -/

/-- A write or an invalidation. -/
def earWrites (j : Job) : Bool := descN j.desc 0 1 == 3 || descN j.desc 0 1 == 4

/-- The job whose operation a table's port takes among those ready: a write or an invalidation first, then the searches round robin
among the queues (R388). -/
def State.portPick (s : State) (n : Nat) (ready : List Job) : Option Job :=
  match ready.find? earWrites with
  | some j => some j
  | none =>
    let last := (assoc s.ear.turns n).getD 9
    (List.range 10).findSome? fun i => ready.find? fun j => portQueue j.src == (last + 1 + i) % 10

/-- One cycle of a table's port: the operation it takes of those that are ready, which reads of DRAM and of the host decide and no rule
says: a free value (log entry 85). A READ uses no port (R390). -/
def State.portCycle (s : State) (n : Nat) : State :=
  let r := s.fresh
  let ready := s.earFronts.filter fun j => descN j.desc 2 1 == n && r.1.testBit (portQueue j.src) && s.earLive j
  match r.2.portPick n (ready.filter fun j => descN j.desc 0 1 != 5) with
  | none => r.2
  | some j =>
    let t := (((r.2.earRun j.id).item j (earItems j)).keep j.id)
    if earWrites j then t else t.setEar fun e => { e with turns := assocSet e.turns n (portQueue j.src) }

/-- The READ jobs that wait go on by one record each (R385, R390). -/
def State.earReads (s : State) : State :=
  (s.earFronts.filter fun j => descN j.desc 0 1 == 5 && s.earLive j).foldl (fun t j => ((t.earRun j.id).item j (earItems j)).keep j.id) s

/-- Earmark in one CTL cycle, 12 of ENG (R17): the jobs that wait go on, each table's port taking one operation in each ENG cycle
(R388, R389). -/
def State.earTick (s : State) : State :=
  if s.jobs.queue.all (·.engine != 1) then s
  else
    let tables := (s.earFronts.map fun j => descN j.desc 2 1).eraseDups
    ((List.range 12).foldl (fun t _ => tables.foldl State.portCycle t) s).earReads

/-- SEARCH (R385). -/
def execSearch (src : JobSrc) (s : State) : Out := .next (s.earJob src 1 (searchItems fun _ => 1))

/-- SEARCH_LIST (R385). -/
def execSearchList (src : JobSrc) (s : State) : Out := .next (s.earJob src 2 (searchItems fun j => descN j.desc 3 1))

/-- EARMARK_WRITE (R385, R389). -/
def execEarmarkWrite (src : JobSrc) (s : State) : Out := .next (s.earJob src 3 fun j r i => r.writeItem j i)

/-- INVALIDATE (R385). -/
def execInvalidate (src : JobSrc) (s : State) : Out := .next (s.earJob src 4 fun j r i => r.invalidateItem j i)

/-- EARMARK_READ (R385). -/
def execEarmarkRead (src : JobSrc) (s : State) : Out := .next (s.earJob src 5 fun j r i => r.readItem j i)

/-- EARMARK_JOB_COMPLETE: the oldest job that has run gets its completion record and done bit (R387, R324). -/
def execEarmarkJobComplete (s : State) : Out :=
  match s.doneJob 1 with
  | none => .next s
  | some d => .next ((s.dropDone d).endJob d 0 fun t a =>
      (t.xlateFault d.job.func a 0 true false true).record 0x30 E.EARMARK_XLATE_FAULT (earInfo (descN d.job.desc 2 1) 0 d.job.func)
        d.job.func)

/-! ### Scrubbing -/

/-- One unit of an entry, with the tag where it is the first. -/
def EEnt.unit (e : EEnt) (j : Nat) : Nat × Nat × Option (Nat × Bool) :=
  (e.vals.getD j 0, e.cares.getD j 0, if j = 0 then some (e.cls, e.valid) else none)

/-- Take unit `j` of `e` from `sh`, with the tag where it is the first. -/
def EEnt.mend (e sh : EEnt) (j : Nat) : EEnt :=
  let e := { e with vals := modAt e.vals j fun _ => sh.vals.getD j 0, cares := modAt e.cares j fun _ => sh.cares.getD j 0 }
  if j = 0 then { e with cls := sh.cls, valid := sh.valid } else e

/-- The scrub of one row of a bank (R391), or its loss where the shadow cannot be read; the firmware writes a lost frame-index
entry again from its INDEX record (R394). -/
def State.scrubRow (s : State) (row : Nat) (lost : List Nat) (b : Nat) : State :=
  let w := s.bankWidth b
  let i := row / w
  if lost.contains b then
    s.loseEnt b i row
  else
    let a := entAt (s.bank b).array w i
    let sh := entAt (s.bank b).shadow w i
    if a.unit (row % w) = sh.unit (row % w) then s
    else (s.modBank b fun k => { k with array := entSet k.array w i (a.mend sh (row % w)) }).countRepair b row true

/-- EARMARK_SCRUB: one row of each bank, 12 µs after the one before; the last row ends a pass (R391). -/
def execEarmarkScrub (row : BitVec 12) (lost : List Nat) (s : State) : Out :=
  let t := (List.range 32).foldl (fun t b => t.scrubRow row.toNat lost b) { s with time := s.time + 12000 }
  .next (if row = 4095 then (t.bump R.EARMARK.SCRUB_PASSES_COUNT).pulse 0x30 Ev.EARMARK.SCRUB_PASS else t)

end Sys2Proof.Machine
end

