-- ==== Sys2Proof/Machine/GateLink.lean ====
section
/-!
DEFINITION. The Gate link: training, lane loss, link-down, flits, replay, packets and heartbeats (R51-R70, R86, R87).
FULL_RETRAIN and CTRL_REQ stand with the register rows.
-/

namespace Sys2Proof.Machine

/-- Training from Detect is under way, in Detect, Polling, Configuration or Equalisation: only outside FOLD, DOZE and BOOT (R52). -/
def State.mayDetect (s : State) : Bool := s.gate.mayTrain && decide (3 ≤ s.mode) && decide (s.get R.GATE.LINK_STATUS_LTSSM < 4)

/-- One CTL cycle of training: when the link passes on from Detect to Polling, Configuration and Equalisation is free, since it
depends on the camera (R52; log entry 24). -/
def State.trainTick (s : State) : State :=
  if !s.mayDetect || s.gate.failedAt.isSome || decide (3 ≤ s.get R.GATE.LINK_STATUS_LTSSM) then s
  else
    let f := s.fresh
    if f.1 % 2 = 0 then f.2.put R.GATE.LINK_STATUS_LTSSM (s.get R.GATE.LINK_STATUS_LTSSM + 1) else f.2

/-- One CTL cycle of a link in ACTIVE: an idle flit carries an acknowledgement or a limit that no payload flit has taken (R60, R63,
R67). A heartbeat that is due goes first (R86). -/
def State.idleTick (s : State) : State :=
  if s.gateActive && decide (s.time < s.gate.hbDue) && (s.gate.ackOut != 0 || s.gate.limitsNew) then s.idleFlit 0 else s

/-- Numbering, credits and heartbeats start afresh (R60, R67, R86). -/
def State.freshLink (s : State) : State :=
  s.setGate fun g =>
    { g with txSeq := 1023, rxSeq := 1023, nakked := false, ackOut := 0, txCtrl := 0, limCtrl := none, limData := 0, rxData := 0,
             rxCtrl := 0, advData := 8192, advCtrl := 64, rxBuf := [], replay := [], sent := none, fec := [], replays := 0, hbSeq := 0, hbTimes := [],
             hbDue := s.time }

/-- The link returns within the grace of R58. -/
def State.endGrace (s : State) : State :=
  match s.gate.graceFrom with
  | some t => if s.time ≤ t + s.get R.GATE.LINK_GRACE_MS_GRACE * 1000000 then s.setGate fun g => { g with graceFrom := none } else s
  | none => s

/-- GATE_LINK_UP (R52-R54, R56, R67): the training sequence ends with the `good` lanes at 64 GT/s. A width below x16 bounds an open
take's rate (R108). LANE_FAILED shows every lane that did not train, those outside the chosen width too (DEDUCED, log entry 24). -/
def execGateLinkUp (good : BitVec 16) (rev : Bool) (inv : BitVec 16) (s : State) : Out :=
  match chooseGroup good.toNat (s.get R.GATE.LINK_CTRL_MAX_WIDTH) with
  | none => .next s
  | some g =>
    if !s.mayDetect || s.gate.failedAt.isSome then .next s
    else
      let t := s.freshLink.setActive g
      let t := t.puts [(R.GATE.LINK_STATUS_REVERSED, b2n rev), (R.GATE.LANE_POLARITY_INVERTED, inv.toNat),
        (R.GATE.LINK_STATUS_LANE_FAILED, 65535 - good.toNat)]
      let u := (t.endGrace.pulse 0x10 Ev.GATE.LINK_UP).advance
      .next (if g.1 < 3 then u.recompute else u)

/-- GATE_TRAIN_FAIL (R52): no width can be formed from the lanes that completed equalisation; the link leaves Equalisation for Detect
after 100 ms. -/
def execGateTrainFail (good : BitVec 16) (s : State) : Out :=
  if !s.mayDetect || s.gate.failedAt.isSome || (chooseGroup good.toNat (s.get R.GATE.LINK_CTRL_MAX_WIDTH)).isSome then .next s
  else .next (((s.put R.GATE.LINK_STATUS_LTSSM 3).setGate fun g => { g with failedAt := some s.time }).record 0x10 E.GATE_TRAIN_FAIL 0 0x1F1)

/-- GATE_TRAIN_RETRY (R52): Detect again 100 ms after a failure. -/
def execGateTrainRetry (s : State) : Out :=
  match s.gate.failedAt with
  | some t => .next (({ s with time := max s.time (t + 100000000) }.put R.GATE.LINK_STATUS_LTSSM 0).setGate fun g => { g with failedAt := none })
  | none => .next s

/-- A link-down (R56, R58): the link restarts, and an open take's frames end as if by STATUS 0x03. -/
def State.linkDown (s : State) : State :=
  let t := s.linkReset
  if t.takeLive then (t.endOpenFrames 3).setGate fun g => { g with graceFrom := some t.time } else t

/-- No width is left: the link goes down (R55). -/
def State.linkFail (s : State) : State := (s.record 0x10 E.GATE_LINK_DOWN 0 0x1F1).linkDown

/-- The lanes the link runs on, by their numbers in the x16 link, which every later report keeps (DESIGN CHOICE, log entry 59). -/
def State.carries (s : State) (l : Nat) : Bool :=
  decide (s.gate.group ≤ l) && decide (l < s.gate.group + widthLanes (s.get R.GATE.LINK_STATUS_WIDTH))

/-- A lane is excluded (R55). -/
def State.failLane (s : State) (l : Nat) : State :=
  let t := s.put R.GATE.LINK_STATUS_LANE_FAILED (setBit (s.get R.GATE.LINK_STATUS_LANE_FAILED) l true)
  (t.pulse 0x10 Ev.GATE.LANE_LOST).record 0x10 E.GATE_LANE_LOST l 0x1F1

/-- The widest group left. -/
def State.groupLeft (s : State) : Option (Nat × Nat) :=
  chooseGroup (65535 - s.get R.GATE.LINK_STATUS_LANE_FAILED) (s.get R.GATE.LINK_CTRL_MAX_WIDTH)

/-- A lane fails in ACTIVE (R55, R56, R108): credits are held and the link retrains to the widest width left. -/
def State.loseLane (s : State) (l : Nat) : State :=
  let t := s.failLane l
  match t.groupLeft with
  | none => t.linkFail
  | some g => ((t.put R.GATE.LINK_STATUS_WIDTH g.1).setGate fun x => { x with group := g.2 }).beginRetrain.recompute

/-- GATE_LANE_LOST (R55): a lane that carries the link has lost symbol lock for more than 4 µs. -/
def execGateLaneLost (lane : Fin 16) (s : State) : Out :=
  if !s.gateActive || !s.carries lane.val then .next s else .next (s.loseLane lane.val)

/-- The symbols the FEC corrected join those of the last 1 ms (R55). -/
def State.noteFec (s : State) (lanes : List (Fin 16)) : State :=
  s.setGate fun g => { g with fec := (g.fec.filter fun x => decide (s.time < x.2 + 1000000)) ++ lanes.map fun l => (l.val, s.time) }

/-- A lane that carries the link and whose corrected symbols of the last 1 ms exceed LANE_FAIL_THRESH (R55). -/
def State.noisyLane (s : State) : Option Nat :=
  (List.range 16).find? fun l => s.carries l && decide (s.get R.GATE.LANE_FAIL_THRESH_THRESH < (s.gate.fec.filter (·.1 == l)).length)

/-- A lane fails by its error rate (R55): its count starts afresh. -/
def State.judgeLanes (s : State) : State :=
  match s.noisyLane with
  | some l => if s.gateActive then (s.setGate fun g => { g with fec := g.fec.filter (·.1 != l) }).loseLane l else s
  | none => s

/-- GATE_RETRAIN_DONE (R55-R57): lanes that failed meanwhile are excluded, and replay resumes. -/
def execGateRetrainDone (bad : BitVec 16) (s : State) : Out :=
  if !s.gateRetrain then .next s
  else
    let lost := (List.range 16).filter fun l => bad.getLsbD l && s.carries l
    let t := lost.foldl (fun t l => t.failLane l) s
    match t.groupLeft with
    | none => .next t.linkFail
    | some g =>
      let w := s.get R.GATE.LINK_STATUS_WIDTH
      let g := if lost.isEmpty then (w, s.gate.group) else g
      let u := (t.setActive g).hold R.GATE.CREDIT_STATE_HELD_RETRAIN false
      let u := (u.setGate fun x => { x with hbDue := u.time, replays := 0 }).resend
      .next (if g.1 = w then u else u.recompute)

/-- GATE_LINK_DOWN (R55): every lane is lost. -/
def execGateLinkDown (s : State) : Out := if s.gateActive || s.gateRetrain then .next s.linkFail else .next s

/-- TAKE_LINK_LOST (R58, R107): the grace has passed without a link. -/
def execTakeLinkLost (s : State) : Out :=
  match s.gate.graceFrom with
  | none => .next s
  | some t =>
    let u := { s with time := max s.time (t + s.get R.GATE.LINK_GRACE_MS_GRACE * 1000000) }.setGate fun g => { g with graceFrom := none }
    if u.takeLive then .next ((u.takeErr E.TAKE_LINK_LOST).closeTake 3 6).settle else .next u

/-! ### Flits -/

/-- A flit is discarded and a NAK names the last good SEQ (R63). -/
def State.nak (s : State) : State := s.setGate fun g => { g with nakked := true, ackOut := 2 }

/-- GATE_FLIT_RX (R59-R63, R66-R68, R71). -/
def execGateFlitRx (f : Flit) (s : State) : Out :=
  if !s.gateActive then .next s
  else
    let s := (s.bump R.GATE.FEC_CORRECTED_COUNT f.fecCorrected.length).noteFec f.fecCorrected
    let link := f.link.toNat
    let ftype := bits link 10 2
    let ackt := bits link 22 2
    let lstate := bits link 48 2
    if !f.crcOk || decide (2 ≤ ftype) || ackt == 3 || decide (2 ≤ lstate) then .next (s.bump R.GATE.CRC_FAIL_COUNT).nak.judgeLanes
    else
      let t := (s.applyAck ackt (bits link 12 10)).applyLimits (bits link 24 16) (bits link 40 8)
      let u :=
        if ftype = 1 then t
        else if bits link 0 10 = (t.gate.rxSeq + 1) % 1024 then
          let t := t.setGate fun g => { g with rxSeq := bits link 0 10, nakked := false, ackOut := 1 }
          (State.parseArea 60 (t.bump R.GATE.FLITS_RX_COUNT) f.area).advance
        else if t.gate.nakked then t
        else t.nak
      .next (if lstate = 1 ∧ u.gateActive then u.beginRetrain else u.judgeLanes)

/-- GATE_REPLAY_TIMEOUT (R64): 2 µs without progress. -/
def execGateReplayTimeout (s : State) : Out :=
  if !s.gateActive || s.gate.replay.isEmpty then .next s
  else .next { s with time := max s.time (s.gate.ackFrom + 2000) }.replayAll

/-- STATE of a device heartbeat (R86). -/
def State.hbState (s : State) : Nat :=
  b2n s.takeLive + b2n (s.bit R.GATE.CREDIT_STATE_HELD_BREACH) * 2 + b2n s.dataHeld * 4 + b2n (s.mode == 7) * 8
    + b2n (s.bit R.GATE.CREDIT_STATE_HELD_PWRFAIL) * 16

/-- LEE_FILL (R86). -/
def State.leeFill (s : State) : Nat :=
  match s.take.c with
  | some c => min 100 (s.unsecured * 100 / max 1 c.cap)
  | none => 0

/-- A device heartbeat (R86). -/
def State.heartbeatPkt (s : State) : Bytes :=
  pktHeader 0x3F 0 32 ++ leBytes 4 s.gate.hbSeq ++ leBytes 8 s.time ++ leBytes 1 (widthLanes (s.get R.GATE.LINK_STATUS_WIDTH))
    ++ leBytes 1 s.hbState ++ leBytes 1 s.leeFill ++ [0] ++ leBytes 12 0

/-- A heartbeat has left: the next takes the next HB_SEQ, one period later. -/
def State.heartbeatSent (s : State) : State :=
  s.setGate fun g => { g with hbSeq := (g.hbSeq + 1) % 2 ^ 32, hbTimes := g.hbTimes ++ [(g.hbSeq, s.time)],
                              hbDue := s.time + s.get R.GATE.HB_PERIOD_PERIOD_US * 1000 }

/-- GATE_HEARTBEAT_TX (R65, R86): heartbeats consume no credit. -/
def execGateHeartbeatTx (s : State) : Out :=
  if !s.gateActive || 512 ≤ s.gate.replay.length then .next s
  else
    let t := { s with time := max s.time s.gate.hbDue }
    .next (t.payload [t.heartbeatPkt]).heartbeatSent

/-- GATE_PACKET_SEND (R62, R65, R66, R80): the first waiting packet leaves, if the camera has granted its credit. Its flit carries a
heartbeat that is due, so the first flit after link-up or resume has one (R86). -/
def execGatePacketSend (s : State) : Out :=
  match s.gate.txq with
  | [] => .next s
  | p :: ps =>
    if !s.gateActive || 512 ≤ s.gate.replay.length || !s.gate.mayCtrl then .next s
    else
      let t := s.setGate fun g => { g with txq := ps, txCtrl := g.txCtrl + 1 }
      .next (if s.time < s.gate.hbDue then t.payload [p] else (t.payload [t.heartbeatPkt, p]).heartbeatSent)

/-- HEARTBEAT (R87): the answer to a device heartbeat gives the round trip. -/
def execHeartbeat (p : HeartbeatPkt) (s : State) : Out :=
  let t := s.leaveRx (pktType · == 0x3F)
  match assoc t.gate.hbTimes p.echoSeq.toNat with
  | some sent => .next (t.put R.GATE.RTT_NS_RTT (t.time - sent - p.holdNs.toNat))
  | none => .next t

end Sys2Proof.Machine
end

