-- ==== Sys2Proof/Machine/Shears.lean ====
section
/-!
DEFINITION. What Shears lanes do (R166-R180). A write of LANE_CTRL stands with the register rows.
-/

namespace Sys2Proof.Machine

/-- A slice is verified: the lane's counts, its input bytes those of the raw slice, and its next work (R166, R167, R182). -/
def State.sliceDone (s : State) (l uid idx : Nat) : State :=
  match s.take.c, s.frame? uid, s.slice? uid idx with
  | some c, some f, some x =>
    let t := ((s.bump (R.LANE.BYTES_IN_BYTES l) x.raw.raw.length).bump (R.LANE.BYTES_OUT_BYTES l) (sliceBody c f x).length).bump
      (R.LANE.BLOCKS_OUT_COUNT l) (sliceCount c f x)
    ((t.modSlice uid idx fun y => { y with status := .verified }).resumeLane l).dispatchSlices
  | _, _, _ => (s.resumeLane l).dispatchSlices

/-- SHEARS_BLOCK_VERIFIED (R166-R168, R170): one more block of the lane's take slice has been compared; the last one also
compares the raw CRC. -/
def execShearsBlockVerified (lane : Fin 12) (ok : Bool) (s : State) : Out :=
  match (s.lane lane.val).work with
  | .slice uid idx n =>
    match s.frame? uid, s.slice? uid idx with
    | some f, some x =>
      if ok then
        if n + 1 < sliceBlocks f x then .next (s.modLane lane.val fun y => { y with work := .slice uid idx (n + 1) })
        else .next (s.sliceDone lane.val uid idx)
      else
        let t := (s.resumeLane lane.val).laneMiss lane.val n 0x1F1 false
        .next (t.startReemit uid idx lane.val).dispatchSlices
    | _, _ => .next (s.resumeLane lane.val)
  | _ => .next s

/-- A slice is lost (R168): its frame is marked DAMAGED. -/
def State.loseSlice (s : State) (uid idx l : Nat) : State :=
  let t := s.modSlice uid idx fun x => { x with status := .lost }
  let t := t.modFrame uid fun f => { f with marks := mark f.marks 2 }
  ((t.bump R.SHEARS.LOST_SLICES_COUNT).pulse 0x24 Ev.SHEARS.SLICE_LOST).record (lanePage l) E.SHEARS_VERIFY_FATAL
    (shearsInfo l 0x1F1 0) 0x1F1

/-- Input blocks of a slice's stored copy, whose input is the raw slice with no prediction (R161, R168). -/
def TakeSlice.rawBlocks (x : TakeSlice) : Nat := max 1 (ceilDiv x.raw.raw.length 65536)

/-- SHEARS_REEMIT_DONE (R168, R170): the copy is verified, tried once more on a further lane, or lost. `miss` is the input block
whose stored blocks mismatched, which LAST_MISMATCH names (R182). -/
def execShearsReemitDone (lane : Fin 12) (miss : Option Nat) (s : State) : Out :=
  let l := lane.val
  match (s.lane l).work with
  | .reemit uid idx =>
    let t := ((s.bump (R.LANE.REEMIT_COUNT_COUNT l)).bump R.SHEARS.REEMISSIONS_COUNT).pulse (lanePage l) Ev.LANE.REEMITTED
    match miss with
    | none => .next (t.sliceDone l uid idx)
    | some b =>
      let tries := ((t.slice? uid idx).map (·.tries)).getD 2
      let blocks := ((t.slice? uid idx).map (·.rawBlocks)).getD 1
      let u := (t.resumeLane l).laneMiss l (b % blocks) 0x1F1 true
      if tries < 2 then .next (u.startReemit uid idx l).dispatchSlices
      else .next (u.loseSlice uid idx l).dispatchSlices
  | _ => .next s

/-- SHEARS_JOB_MIGRATE (R94, R179): a job on a lane newly reserved, or retired, leaves it at its block boundary
for the lowest idle unreserved lane, or waits for one. -/
def execShearsJobMigrate (lane : Fin 12) (s : State) : Out :=
  let l := lane.val
  match (s.lane l).work with
  | .job d =>
    if s.laneLive l && !s.laneReserved l then .next s
    else
      .next (((s.setJobs fun j => { j with parked := j.parked ++ [d] }).resumeLane l).dispatchSlices)
  | _ => .next s

/-- COMPRESS (R164, R169, R174, R175, R178). -/
def execCompress (src : JobSrc) (lane : Fin 12) (bad : List Nat) (s : State) : Out := .next (s.startShears src lane.val 1 bad)

/-- INFLATE (R165, R175, R178). -/
def execInflate (src : JobSrc) (lane : Fin 12) (s : State) : Out := .next (s.startShears src lane.val 2 [])

/-- INFLATE_UNPREDICT (R154-R158, R174). -/
def execInflateUnpredict (src : JobSrc) (lane : Fin 12) (s : State) : Out := .next (s.startShears src lane.val 3 [])

/-- The error of a job's STATUS (R181). -/
def shearsCode (status : Nat) : Nat :=
  if status = 1 then E.SHEARS_OUT_OF_SPACE else if status = 2 then E.SHEARS_BAD_DESCRIPTOR else if status = 3 then E.SHEARS_BAD_STREAM
  else if status = 4 then E.SHEARS_CHECK_MISMATCH else if status = 6 then E.SHEARS_XLATE_FAULT else E.SHEARS_VERIFY_FATAL

/-- SHEARS_JOB_COMPLETE (R177, R181, R182): the record names the lane that finished the job. -/
def execShearsJobComplete (lane : Fin 12) (s : State) : Out :=
  let l := lane.val
  match (s.lane l).work with
  | .job d =>
    let d := { d with record := overlay d.record 5 [BitVec.ofNat 8 l] }
    let f := d.job.func
    let t := s.resumeLane l
    let t :=
      if d.status = 0 then
        let used := leNat (sliceBytes d.record 16 8)
        let out := leNat (sliceBytes d.record 8 8)
        let t := (t.bump (R.LANE.JOBS_DONE_COUNT l)).pulse (lanePage l) Ev.LANE.JOB_DONE
        ((t.bump (R.LANE.BYTES_IN_BYTES l) used).bump (R.LANE.BYTES_OUT_BYTES l) out).bump (R.LANE.BLOCKS_OUT_COUNT l)
          d.blocks
      else
        let t := (t.bump (R.LANE.JOBS_FAILED_COUNT l)).pulse (lanePage l) Ev.LANE.JOB_FAILED
        let t := if d.status = 1 then t.bump R.SHEARS.OUT_OF_SPACE_COUNT_COUNT else t
        t.record (lanePage l) (shearsCode d.status) (shearsInfo l f d.status) f
    let t := match d.job.src with | .host _ => t.hostActive | .cluster _ => t
    let t := t.endJob d 0 fun u a =>
      (u.xlateFault f a 0 true false true).record (lanePage l) E.SHEARS_XLATE_FAULT (shearsInfo l f 6) f
    .next t.dispatchSlices
  | _ => .next s

end Sys2Proof.Machine
end

