-- ==== Sys2Proof/Machine/Trig.lean ====
section
/-!
DEFINITION. Triggers, windows and kept takes (R135-R149); SW_FIRE, a register write, stands with the register rows.
-/

namespace Sys2Proof.Machine

/-- TRIGGER (R82, R135): the packet's own times, 0 selecting the TRIG defaults; GATE_EN = 0 accepts none, and counts none as refused
(DESIGN CHOICE, log entry 72). -/
def execTrigger (p : TriggerPkt) (s : State) : Out :=
  let t := s.leaveRx (pktType · == 0x20)
  if !t.bit R.TRIG.TRIG_CTRL_GATE_EN then .next t
  else
    .next (t.arrive 3 p.tag.toNat p.t.toNat (orDefault p.preMs.toNat (t.get R.TRIG.DEFAULT_PRE_MS))
      (orDefault p.postMs.toNat (t.get R.TRIG.DEFAULT_POST_MS)))

/-- TRIG owns the TRIG_IN2 ball (R136, R614). -/
def State.trigOwnsPin2 (s : State) : Bool :=
  s.get (R.SHARE.OWNER_STATE 0) != 0 && s.get (R.SHARE.OWNER_BLOCK 0) == 0x13

/-- An edge is one that PIN_EDGE counts for the pin (R151). -/
def State.countsEdge (s : State) (pin : Nat) (rising : Bool) : Bool :=
  match bits (s.get R.TRIG.PIN_EDGE_EDGE) (2 * pin) 2 with
  | 0 => rising
  | 1 => !rising
  | 2 => true
  | _ => false

/-- TRIG_PIN_EDGE (R136). A pin whose PIN_EN bit is 0 records nothing, and the holdoff runs from the last edge that counted, unowned ones
included (DESIGN CHOICE, log entry 72). -/
def execTrigPinEdge (pin : Fin 3) (rising : Bool) (heldNs : Nat) (s : State) : Out :=
  let early := match s.trig.lastEdge.getD pin.val none with
    | some t => decide (s.time < t + s.get R.TRIG.PIN_HOLDOFF_US * 1000)
    | none => false
  if heldNs < 100 || !bitAt (s.get R.TRIG.TRIG_CTRL_PIN_EN) pin.val || !s.countsEdge pin.val rising || early then .next s
  else
    let t := s.setTrig fun x => { x with lastEdge := modAt x.lastEdge pin.val fun _ => some s.time }
    if pin.val = 2 ∧ !t.trigOwnsPin2 then .next (t.trigErr E.TRIG_PIN_UNOWNED 2 none)
    else .next (t.triggerDefault pin.val 0 s.time)

/-- RULE_SEARCH (R137): the key of a frame is searched once. -/
def execRuleSearch (uid : Nat) (s : State) : Out :=
  match s.frame? uid with
  | some f =>
    match f.key with
    | some key =>
      if f.ruled || !s.bit R.TRIG.TRIG_CTRL_RULE_EN then .next s
      else
        let r := (s.modFrame uid fun g => { g with ruled := true }).ruleHit key
        match r.1 with
        | some (tag, cls) =>
          if s.get R.TRIG.RULE_CFG_MIN_CLASS ≤ cls then .next (r.2.triggerDefault 4 tag f.capture) else .next r.2
        | none => .next r.2
    | none => .next s
  | none => .next s

/-- WINDOW_SEAL (R143): an open window whose end and settling time have passed. -/
def execWindowSeal (slot : Fin 64) (s : State) : Out :=
  let s := s.settleTriggers
  let w := s.win slot.val
  if w.state ≠ 1 then .next s
  else .next ({ s with time := max s.time (w.fin + s.get R.TRIG.SETTLE_MS * 1000000) }.sealWindow slot.val false)

/-- The functions a new take is attached to (R454, R489). -/
def State.takeAttach (s : State) : List Nat := [0, 0x101] ++ (s.tenant.fns.filter (·.p.takes)).map (·.p.func)

/-- The namespace of a take by its TAKE_ID. -/
def State.nsOfTake (s : State) (id : Nat) : Option Ns := s.ns.find? fun n => match n.tk with | some t => t.takeId == id | none => false

/-- Every pinned frame of the window is secured (R143). -/
def State.pinnedSecured (s : State) (w : Window) : Bool :=
  w.awaits.isEmpty && (w.ring != s.takeId || s.take.c.isNone || w.pinned.all fun f => decide (f.2.2 ≤ s.take.secured))

/-- The header of a kept take: the parent's, with the fields of R146 (log entry 51). -/
def keptHeader (parent : Bytes) (takeId duration k parentId : Nat) (keyRef : Bytes) : Bytes :=
  let fl := setBit (leNat (sliceBytes parent 12 4)) 2 true
  let h := [(12, leBytes 4 fl), (16, leBytes 8 takeId), (57, [0]), (72, leBytes 4 duration), (76, leBytes 4 0), (80, leBytes 8 0),
            (88, leBytes 1 k), (96, padTo 16 keyRef), (112, leBytes 8 parentId)].foldl
    (fun (b : Bytes) x => overlay b x.1 x.2) (parent.take 4092)
  h ++ leBytes 4 (crc32c h)

/-- The records of a window's frames, in ring order. -/
def State.windowRecords (s : State) (n : Ns) (w : Window) : List (Nat × Bytes) × State :=
  w.pinned.foldl (fun (r : List (Nat × Bytes) × State) f =>
    let q := r.2.frameRecords n f
    (q.1.foldl (fun l x => insertRec x l) r.1, q.2)) ([], s)

/-- WINDOW_COPY_START (R143, R146-R148): the kept take is created and its copy begins, the DTIME of which is the trailer's DTIME at close
(DESIGN CHOICE, log entry 72). -/
def execWindowCopyStart (slot : Fin 64) (s : State) : Out :=
  let w := s.win slot.val
  if w.state ≠ 2 ∨ !s.pinnedSecured w then .next s
  else
    match s.nsOfTake w.ring with
    | none => .next s
    | some ring =>
      match s.readTake ring 0 8192 with
      | (none, t) => .next t
      | (some head, t) =>
        match t.newMediaKey w.nsid with
        | (none, t) => .next t
        | (some (rec, _), t) =>
          let id := t.take.nextId
          let dur := ceilDiv (w.fin - w.start) 1000000000
          let alg := (head.getD 60 0).toNat
          let h := keptHeader (head.take 4096) id dur t.openWidth w.ring (t.keyRef rec)
          let r := t.windowRecords ring w
          let b0 : Bld := { cont := h ++ head.drop 4096, index := [], lastIndex := 0, listed := 0, moved := [], keys := [], spans := [],
                            counts := (0, 0, 0) }
          let b := (r.1.foldl (Bld.copy alg) b0).finish id 0 alg r.2.time
          let tk : TakeInfo :=
            { takeId := id, kind := 2, tier := (head.getD 56 0).toNat, streams := (head.getD 61 0).toNat, opened := true,
              incomplete := false, reason := 0, flags := b2n w.preShort + b2n w.cut * 2 + b2n w.late * 4, parent := w.ring,
              start := leNat (sliceBytes head 40 8), fin := 0, bytes := b.cont.length, frames := b.counts.1, raw := b.counts.2.1,
              marked := b.counts.2.2, alg := alg }
          let n : Ns := { nsid := w.nsid, kind := .take, nsze := b.cont.length / 4096, nuse := 0, attached := r.2.takeAttach,
                          keyRec := rec, keySeq := t.keySeq rec, tk := some tk, released := [] }
          let v := r.2.setTake fun x => { x with nextId := id + 1 }
          let v := { v with ns := v.ns ++ [n] }
          let v := v.modWin slot.val fun w => { w with state := 3, keptId := id }
          let v := v.setTrig fun x => { x with copies := x.copies ++ [(slot.val, b.cont, 0)] }
          let v := b.spans.foldl (fun v x => v.enterSpan id x.1 x.2) v
          .next ((v.catalogChanged.nsChanged n).copyKept slot.val)

/-- KEPT_TAKE_SEALED (R143, R148): the copy, with its trailer, is durable; the segments are unpinned and the slot is free. -/
def execKeptTakeSealed (slot : Fin 64) (s : State) : Out :=
  let s := s.copyKept slot.val
  let w := s.win slot.val
  match s.trig.copies.find? (·.1 == slot.val) with
  | none => .next s
  | some x =>
    if w.state ≠ 3 ∨ x.2.2 < x.2.1.length ∨ !(s.openLogicals w.nsid).isEmpty then .next s
    else
      let t := s.modNs w.nsid fun n =>
        { n with nuse := n.nsze, tk := n.tk.map fun k => { k with
                   opened := false, fin := s.time, flags := b2n w.preShort + b2n w.cut * 2 + b2n w.late * 4 } }
      let t := (t.closeTakeGroups w.nsid).modWin slot.val fun _ => Window.free
      let t := t.setTrig fun k => { k with copies := k.copies.filter (·.1 != slot.val) }
      let keep := t.pinnedSegs
      let t := t.setTrig fun k => { k with drawn := k.drawn.filter keep.contains, short := k.short.filter keep.contains }
      let t := ((t.bump R.TRIG.KEPT_COUNT_COUNT).pulse 0x13 Ev.TRIG.KEPT).catalogChanged
      match t.nsOf w.nsid with
      | some n => .next (t.nsChanged n)
      | none => .next t

end Sys2Proof.Machine
end

