-- ==== Sys2Proof/Machine/RegOps.lean ====
section
/-!
DEFINITION. The registers whose write commands something of a block: what each write does, and the commands that are such writes
(R56, R135, R182, R202, R254, R279, R286, R334, R380, R437, R440, R441, R539, R612). Each is checked in the order of R645.
-/

namespace Sys2Proof.Machine

/-- Bits `lo` to `lo + w - 1` of a word. -/
def field (v lo w : Nat) : Nat := v / 2 ^ lo % 2 ^ w

/-! ### Gate and triggers -/

/-- A write of GATE.LINK_CTRL (R56, R89). -/
def State.writeLinkCtrl (s : State) (o : Origin) (v : Nat) : State :=
  s.regCmd o 0x10 0x048 v (field v 1 2 != 0) (bitAt v 0 && s.takeLive) (fun t => t.refuseBlock o 0x10 E.GATE_BUSY 0) fun t =>
    let t := t.put R.GATE.LINK_CTRL_MAX_WIDTH (field v 1 2)
    if bitAt v 0 then t.linkReset else t

/-- FULL_RETRAIN (R56): the other field is written as it stands. -/
def execFullRetrain (o : Origin) (s : State) : Out := .next (s.writeLinkCtrl o (1 + 2 * s.get R.GATE.LINK_CTRL_MAX_WIDTH))

/-- A write of TRIG.SW_FIRE (R135, R151). -/
def State.writeSwFire (s : State) (o : Origin) (v : Nat) : State :=
  s.regCmd o 0x13 0x070 v true false id fun t => if bitAt v 31 then t.swFire (v % 65536) else t

/-- SW_FIRE (R135). -/
def execSwFire (o : Origin) (tag : BitVec 16) (s : State) : Out := .next (s.writeSwFire o (tag.toNat + 2 ^ 31))

/-! ### Lanes and channels -/

/-- A write of LANE_CTRL (R170, R182). -/
def State.writeLaneCtrl (s : State) (o : Origin) (l v : Nat) : State :=
  s.regCmd o (lanePage l) 0x044 v true (bitAt v 0 && s.bit (R.LANE.LANE_STATUS_RESERVED l))
    (fun t => t.refuseBlock o (lanePage l) E.SHEARS_BUSY (shearsInfo l (originFunc o) 0))
    fun t => if bitAt v 0 then t.retireLane l else t

/-- LANE_CTRL_RETIRE (R170, R182). -/
def execLaneCtrlRetire (o : Origin) (lane : Fin 12) (s : State) : Out := .next (s.writeLaneCtrl o lane.val 1)

/-- A write of PWR_CTRL: an ACTIVE channel is retired (R202). -/
def State.writePwrCtrl (s : State) (o : Origin) (c v : Nat) : State :=
  s.regCmd o (nandPage c) 0x0A8 v true false id fun t =>
    if !bitAt v 0 || !t.chActive c then t
    else (((t.putBit (H.RETIRED (nandPage c)) true).pulse (nandPage c) Ev.NAND.RETIRED).channelOff c 3)

/-- FORCE_OFF (R202). -/
def execForceOff (o : Origin) (ch : Fin 32) (s : State) : Out := .next (s.writePwrCtrl o ch.val 1)

/-- A retrain of an ACTIVE channel: steps 5-8 (R188, R202). The step of a failure is free. -/
def State.retrain (s : State) (c : Nat) (ok : Bool) : State :=
  if !s.chActive c then s
  else if ok then s.trained c
  else
    let f := s.fresh
    f.2.trainFail c (5 + f.1 % 4)

/-- A write of TRAIN_CTRL (R202). -/
def State.writeTrainCtrl (s : State) (o : Origin) (c v : Nat) (ok : Bool) : State :=
  s.regCmd o (nandPage c) 0x054 v true (bitAt v 0 && s.takeLive) (fun t => t.refuseBlock o (nandPage c) E.NAND_BUSY 0)
    fun t => if bitAt v 0 then t.retrain c ok else t

/-- RETRAIN (R202). -/
def execRetrain (o : Origin) (ch : Fin 32) (ok : Bool) (s : State) : Out := .next (s.writeTrainCtrl o ch.val 1 ok)

/-! ### Media and array -/

/-- A write of MEDIA.CTRL (R254). -/
def State.writeMediaCtrl (s : State) (o : Origin) (v : Nat) : State :=
  s.regCmd o 0x60 0x044 v true (bitAt v 0 && s.bit R.MEDIA.MEDIA_STATUS_CKPT_BUSY) (fun t => t.refuseBlock o 0x60 E.MEDIA_BUSY 0)
    fun t => if bitAt v 0 && t.media.formatted then t.startCkpt else t

/-- CKPT_NOW (R254). -/
def execCkptNow (o : Origin) (s : State) : Out := .next (s.writeMediaCtrl o 1)

/-- What refuses a reshape with ARRAY_BUSY (R286); k + 2 channels must be active. A firmware update bars it too (R26): the code is then
the model's choice (log entry 19). -/
def State.reshapeBusy (s : State) (k : Nat) : Bool :=
  !s.media.formatted || s.reshaping || s.offline || !s.critical.isEmpty || decide (s.activeChannels < k + 2) || k == s.width || s.updating

/-- A narrowing that would leave less than ALLOCATED (R286). -/
def State.reshapeNoRoom (s : State) (k : Nat) : Bool :=
  decide (k < s.width) && decide (narrowedCap (s.get R.MEDIA.MAXCAP_MB) s.width k < s.allocatedMB)

/-- A write of RESHAPE_CTRL (R286, R290). -/
def State.writeReshapeCtrl (s : State) (o : Origin) (v : Nat) : State :=
  let k := widthOf (v % 4)
  let busy := s.reshapeBusy k
  s.regCmd o 0x62 0x048 v true (bitAt v 2 && (busy || s.reshapeNoRoom k))
    (fun t => t.refuseBlock o 0x62 (if busy then E.ARRAY_BUSY else E.ARRAY_NO_ROOM) 0) fun t =>
      let t := t.put R.ARRAY.RESHAPE_CTRL_TARGET_K v
      if bitAt v 2 then t.startReshape k else t

/-- RESHAPE_START (R286). -/
def execReshapeStart (o : Origin) (k : BitVec 2) (s : State) : Out := .next (s.writeReshapeCtrl o (k.toNat + 4))

/-- A write of RETIRE_CTRL (R279, R290). -/
def State.writeRetireCtrl (s : State) (o : Origin) (v : Nat) : State :=
  let d := v % 512
  s.regCmd o 0x62 0x04C v true (bitAt v 9 && (s.array.lost.contains d || !s.critical.isEmpty))
    (fun t => t.refuseBlock o 0x62 E.ARRAY_BUSY d) fun t =>
      let t := t.put R.ARRAY.RETIRE_CTRL_DIE d
      if bitAt v 9 && t.dieLive d then let r := t.loseDies [d]; r.2.endOps r.1 else t

/-- ARRAY_RETIRE (R279). -/
def execArrayRetire (o : Origin) (die : BitVec 9) (s : State) : Out := .next (s.writeRetireCtrl o (die.toNat + 512))

/-! ### Cores and clusters -/

/-- A write of CORE_CTRL (R326, R334): PARK and RESUME together are reserved. -/
def State.writeCoreCtrl (s : State) (o : Origin) (c : Fin 72) (v : Nat) : State :=
  s.regCmd o (corePage c) 0x044 v (!(bitAt v 0 && bitAt v 1)) (bitAt v 2 && decide (c.val < 8) && decide (s.liveSystemCores ≤ 2))
    (fun t => t.refuseBlock o (corePage c) E.CROOK_BUSY (crookInfo 0 (t.cores[c]).func.toNat)) fun t =>
      let t := if bitAt v 0 then t.parkCore c .register else t
      let t := if bitAt v 1 then t.resumeCore c .register else t
      if bitAt v 2 && (t.cores[c]).state != .retired then t.retireCore c else t

/-- CORE_PARK (R326). -/
def execCorePark (o : Origin) (c : Fin 72) (s : State) : Out := .next (s.writeCoreCtrl o c 1)

/-- CORE_RESUME (R334). -/
def execCoreResume (o : Origin) (c : Fin 72) (s : State) : Out := .next (s.writeCoreCtrl o c 2)

/-- CORE_RETIRE (R319, R334). -/
def execCoreRetire (o : Origin) (c : Fin 72) (s : State) : Out := .next (s.writeCoreCtrl o c 4)

/-! ### Earmark banks -/

/-- A write of BANK_CFG (R379, R380, R401). -/
def State.writeBankCfg (s : State) (o : Origin) (b v : Nat) : State :=
  let w := field v 0 2
  let tb := field v 2 5
  s.regCmd o (0x40 + b) 0x040 v (w != 3) (s.bankCfgBad o b w tb)
    (fun t => t.refuseBlock o (0x40 + b) E.EARMARK_CONFIG_REFUSED (earInfo b 0 (originFunc o)))
    fun t => t.setBankCfg b w tb (bitAt v 7)

/-- BANK_CFG_WRITE (R380). -/
def execBankCfgWrite (o : Origin) (bank : Fin 32) (width : BitVec 2) (table : BitVec 5) (share : Bool) (s : State) : Out :=
  .next (s.writeBankCfg o bank.val (width.toNat + table.toNat * 4 + b2n share * 128))

/-! ### Keys and digests -/

/-- A write of KEY_CTRL (R427, R429, R440): UNLOCK and ERASE together are reserved. -/
def State.writeKeyCtrl (s : State) (o : Origin) (v : Nat) : State :=
  s.regCmd o 0x29 0x044 v (!(bitAt v 0 && bitAt v 1)) (bitAt v 0 && s.unlockBarred)
    (fun t => t.refuseBlock o 0x29 E.KEYENG_ALARM_ACTIVE (keyInfo 0 0 (originFunc o) 0)) fun t =>
      let t := if bitAt v 0 then t.unlockKeys else t
      if bitAt v 1 then t.alarm 5 else t

/-- UNLOCK (R429). -/
def execUnlock (o : Origin) (s : State) : Out := .next (s.writeKeyCtrl o 1)

/-- ERASE (R427, R440). -/
def execErase (o : Origin) (s : State) : Out := .next (s.writeKeyCtrl o 2)

/-- A write of FEED_CTRL (R437, R441): its controls are for units 60-63 alone. -/
def State.writeFeedCtrl (s : State) (o : Origin) (v : Nat) : State :=
  s.regCmd o 0x2A 0x050 v (v % 8 == 0 || s.feedUnitOk o) (s.feedBusy o v) (·.heldFeed o) fun t => t.feedCtrl o v

/-- FEED_CTRL with its plain fields as they stand at the origin's unit. -/
def State.feedPlain (s : State) (o : Origin) : Nat :=
  s.get (R.DIGEST.FEED_CTRL_ALG.ofUnit (s.feedSel o)) * 8 + s.get (R.DIGEST.FEED_CTRL_COMPARE.ofUnit (s.feedSel o)) * 32

/-- CLAIM (R437). -/
def execClaim (o : Origin) (s : State) : Out := .next (s.writeFeedCtrl o (1 + s.feedPlain o))

/-- RELEASE (R441). -/
def execRelease (o : Origin) (s : State) : Out := .next (s.writeFeedCtrl o (2 + s.feedPlain o))

/-- START (R437). -/
def execStart (o : Origin) (alg : BitVec 2) (cmp : Bool) (s : State) : Out :=
  .next (s.writeFeedCtrl o (4 + alg.toNat * 8 + b2n cmp * 32))

/-- A write of FEED_WORD, both words (R437). -/
def State.writeFeedWord (s : State) (o : Origin) (v : Nat) : State := s.regCmd o 0x2A 0x058 v true false id fun t => t.feedWord o v

/-- FEED_WORD (R437). -/
def execFeedWord (o : Origin) (w : BitVec 64) (s : State) : Out := .next (s.writeFeedWord o w.toNat)

/-- A write of LAST_WORD, both words (R437, R438). -/
def State.writeLastWord (s : State) (o : Origin) (v : Nat) (va vb : BitVec 8) : State :=
  s.regCmd o 0x2A 0x060 v true false id fun t => t.feedLast o v va vb

/-- LAST_WORD (R437, R438). -/
def execLastWord (o : Origin) (w : BitVec 64) (va vb : BitVec 8) (s : State) : Out := .next (s.writeLastWord o w.toNat va vb)

/-! ### DRAM and faults -/

/-- A write of a channel's RETIRE_CTRL (R539). -/
def State.writeDramRetire (s : State) (o : Origin) (c v : Nat) : State :=
  let few := decide (s.liveDram < 3) && (s.dramState c == 2 || s.dramState c == 3)
  let other := (List.range 4).any fun d => d != c && s.dramState d == 5
  s.regCmd o (dramPage c) 0x074 v true (bitAt v 0 && (few || other))
    (fun t => t.refuseBlock o (dramPage c) E.DRAM_BUSY (dramInfo c 0 0 0 0)) fun t => if bitAt v 0 then t.retireDram c 4 else t

/-- DRAM_RETIRE (R539). -/
def execDramRetire (o : Origin) (ch : Fin 4) (s : State) : Out := .next (s.writeDramRetire o ch.val 1)

/-- A write of FAULT.CONSUME (R612, R621): PF and system firmware origins only. -/
def State.writeConsume (s : State) (o : Origin) (v : Nat) : State :=
  let may := match o with | .firmware => true | .pcie f => isPf f | _ => false
  let n := v % 8192
  s.regCmdBy o 8 0x050 v (!may) (decide (n ≤ s.fault.dev.entries.length)) false (fun t _ => t) id fun t => t.consumeDev 0 n

/-- FAULT_CONSUME (R612). -/
def execFaultConsume (o : Origin) (n : BitVec 13) (s : State) : Out := .next (s.writeConsume o n.toNat)

end Sys2Proof.Machine
end

