-- ==== Sys2Proof/Machine/Share.lean ====
section
/-!
DEFINITION. Shared resources (R614, R616, R622, R646): claiming, releasing and assigning them by SHARE.CLAIM, and the general input.
-/

namespace Sys2Proof.Machine

/-- ERR_INFO of a SHARE condition: resource, origin, FUNC. -/
def shareInfo (o : Origin) (r : Nat) : Nat := r + originCode o * 8 + originFunc o * 64

/-- CLAIM_STATUS of the origin. -/
def State.claimResult (s : State) (o : Origin) (v : Nat) : State := s.put (R.SHARE.CLAIM_STATUS_RESULT.of o) v

/-- A claim is refused: 2 held, 3 not allowed. -/
def State.claimRefused (s : State) (o : Origin) (r v : Nat) : State :=
  ((s.claimResult o v).pulse 0xA Ev.SHARE.REFUSED).record 0xA (if v = 2 then E.SHARE_HELD else E.SHARE_NOT_ALLOWED) (shareInfo o r)
    (originTag o)

/-- The owner of a resource: an origin (block 0), or a block. -/
def State.setOwner (s : State) (r : Nat) (origin func blk : Nat) : State :=
  s.puts [(R.SHARE.OWNER_STATE r, 1), (R.SHARE.OWNER_ORIGIN r, origin), (R.SHARE.OWNER_FUNC r, func), (R.SHARE.OWNER_BLOCK r, blk)]

/-- The origin holds RTC comparator resource `r`. -/
def State.holdsComparator (s : State) (o : Origin) (r : Nat) : Bool := (s.comparatorsOf o).contains r

/-- Claim a resource (R614): only the comparators 1-4, by operator or above; the holder may claim again. -/
def State.shareClaim (s : State) (o : Origin) (r : Nat) : State :=
  if r = 0 ∨ 5 ≤ r ∨ !s.holds o .operator then s.claimRefused o r 3
  else if s.get (R.SHARE.OWNER_STATE r) ≠ 0 ∧ !s.holdsComparator o r then s.claimRefused o r 2
  else ((s.setOwner r (originCode o) (originFunc o) 0).claimResult o 1).pulse 0xA Ev.SHARE.CLAIMED

/-- Release a resource (R614, R646): a comparator by its holder or an installer, a ball by an installer. -/
def State.shareRelease (s : State) (o : Origin) (r : Nat) : State :=
  let inst := s.holds o .installer
  if 6 ≤ r then s.claimRefused o r 3
  else if r = 0 ∨ r = 5 then
    if !inst then s.claimRefused o r 3
    else
      let t := if r = 0 then s.freeComparator 0 else (s.setOwner 5 0 0 3).put R.SHARE.GPIO_LEVEL 0
      (t.claimResult o 1).pulse 0xA Ev.SHARE.RELEASED
  else if !inst && !s.holdsComparator o r then s.claimRefused o r 3
  else ((s.freeComparator r).claimResult o 1).pulse 0xA Ev.SHARE.RELEASED

/-- The block that holds resource 0 is using it (R614). -/
def State.ballBusy (s : State) : Bool :=
  s.get (R.SHARE.OWNER_STATE 0) == 1
    && ((s.get (R.SHARE.OWNER_BLOCK 0) == 0x13 && s.takeLive && ((s.take.c.map (·.kind)).getD 0 == 1) && bitAt (s.get R.TRIG.TRIG_CTRL_PIN_EN) 2)
      || (s.get (R.SHARE.OWNER_BLOCK 0) == 0x50 && s.bit R.DROVE.SYNC_CTRL_EN))

/-- Assign a ball to a block (R614, R646). The general input's level is what the pin has: free. -/
def State.shareAssign (s : State) (o : Origin) (r blk : Nat) : State :=
  if (r ≠ 0 ∧ r ≠ 5) ∨ !s.holds o .installer then s.claimRefused o r 3
  else if r = 0 ∧ s.ballBusy then s.claimRefused o r 2
  else
    let f := s.fresh
    let t := (if r = 5 ∧ blk = 0x0B then f.2.put R.SHARE.GPIO_LEVEL f.1 else if r = 5 then s.put R.SHARE.GPIO_LEVEL 0 else s)
    ((t.setOwner r 0 0 blk).claimResult o 1).pulse 0xA Ev.SHARE.CLAIMED

/-- A CLAIM word holds no reserved encoding (R622). -/
def claimLegal (r action blk : Nat) : Bool :=
  decide (r < 7) && decide (action < 3)
    && (action != 2 || (r != 0 || blk == 0x13 || blk == 0x50) && (r != 5 || blk == 0x03 || blk == 0x0B))

/-- A write of CLAIM. -/
def State.claim (s : State) (o : Origin) (r action blk : Nat) : State :=
  s.regCmd o 0xA 0x060 (r + action * 8 + blk * 32) (claimLegal r action blk) false id fun t =>
    if action = 0 then t.shareClaim o r else if action = 1 then t.shareRelease o r else t.shareAssign o r blk

/-- SHARE_CLAIM (R614, R646). -/
def execShareClaim (o : Origin) (r : BitVec 3) (s : State) : Out := .next (s.claim o r.toNat 0 0)

/-- SHARE_RELEASE (R614, R646). -/
def execShareRelease (o : Origin) (r : BitVec 3) (s : State) : Out := .next (s.claim o r.toNat 1 0)

/-- SHARE_ASSIGN (R614, R646). -/
def execShareAssign (o : Origin) (r : BitVec 3) (blk : BitVec 8) (s : State) : Out := .next (s.claim o r.toNat 2 blk.toNat)

/-- GPIO_EDGE (R616): an edge of PMB_ALERT_N while SHARE owns it. -/
def execGpioEdge (level : Bool) (s : State) : Out :=
  if s.get (R.SHARE.OWNER_BLOCK 5) ≠ 0x0B ∨ s.get R.PWR.MODE_MODE = 0 then .next s
  else .next ((s.putBit R.SHARE.GPIO_LEVEL level).pulse 0xA Ev.SHARE.GPIO_EDGE)

end Sys2Proof.Machine
end

