-- ==== Sys2Proof/Machine/Trust.lean ====
section
/-!
DEFINITION. OTP programming (R582, R583), roles and their authentication (R585-R592), and test perturbation (R598-R601). Log entry 81
says how the model reads what R586-R591 leave open.
-/

namespace Sys2Proof.Machine

/-! ### OTP -/

/-- OTP bytes at an address: bits go from 0 to 1 only (R577). -/
def burn (otp : List (Nat × Byte)) (a : Nat) (bs : Bytes) : List (Nat × Byte) :=
  bs.zipIdx.foldl (fun m x => memWrite m (a + x.2) (memRead m (a + x.2) ||| x.1)) otp

/-- PARAM of ACTION 0x0020 (R594; log entry 16). -/
def otpParam (block gen : Nat) (img : Bytes) : Bytes := leBytes 1 block ++ leBytes 1 gen ++ leBytes 2 0 ++ sha256 img

/-- Program a generation: everything but MARKER, then MARKER, then the read-back (R582). -/
def State.burnGen (s : State) (base : Nat) (img : Bytes) (readBack : Bool) : State :=
  let t := s.setTrust fun x => { x with otp := burn x.otp (base + 1) (img.drop 1) }
  (if readBack then (t.setTrust fun x => { x with otp := burn x.otp base (img.take 1) }).pulse 5 Ev.OTP.PROGRAMMED else t).showOtp

/-- OTP_PROGRAM (R582). -/
def execOtpProgram (c : Cmd) (data : Bytes) (readBack : Bool) (s : State) : Out :=
  let o := Origin.pcie c.fn
  let maker := data.length == 256
  let role : Role := if maker then .maker else .installer
  if !s.adminReady c.fn then .next s
  else if !isPf c.fn then .next (s.completeAdmin c Nv.badOpcode)
  else if !s.holdsExactly o role then .next (s.completeAdmin c Nv.role)
  else
    let free := if maker then (List.range 3).find? fun g => !imgUsed (s.makerImage g)
      else (List.range 4).find? fun g => !imgUsed (s.instImage g)
    let g := free.getD 0
    let ok := if maker then makerOk data && (g == 0 || repeatsFirst (s.makerImage 0) data) else instOk data
    let log := fun (r : Nat) => (s.audit o role.num 0x0020 r (otpParam (b2n (!maker)) g data)).touch o
    if !ok then .next (((log 1).record 5 E.OTP_IMAGE_BAD (roleInfo o g) c.fn).completeAdmin c Nv.badField)
    else match free with
      | none => .next (((log 1).record 5 E.OTP_EXHAUSTED (roleInfo o 0) c.fn).completeAdmin c Nv.space)
      | some g =>
        let t := (log 0).burnGen (if maker then 256 * g else 768 + 768 * g) data readBack
        if readBack then .next (t.completeAdmin c Nv.ok)
        else .next ((t.record 5 E.OTP_PROGRAM_FAIL (roleInfo o g) c.fn).completeAdmin c Nv.internal)

/-- ASCII "CK6480-DECOMMISS". -/
def decomText : Bytes := [0x43, 0x4B, 0x36, 0x34, 0x38, 0x30, 0x2D, 0x44, 0x45, 0x43, 0x4F, 0x4D, 0x4D, 0x49, 0x53, 0x53]

/-- DECOMMISSION (R583): it is in force from the next cold reset (R584). -/
def execDecommission (c : Cmd) (data : Bytes) (s : State) : Out :=
  let o := Origin.pcie c.fn
  if !s.adminReady c.fn then .next s
  else if !s.holds o .installer then .next (s.completeAdmin c Nv.role)
  else if data ≠ decomText then .next (s.completeAdmin c Nv.badField)
  else
    let t := (s.audit o (s.roleByte o) 0x0021 0 []).touch o
    .next ((t.setTrust fun x => { x with otp := burn x.otp 3840 (List.replicate 16 0xFF) }).completeAdmin c Nv.ok)

/-- OPERATOR_CREDENTIAL (R588): the salt is random, and free. -/
def execOperatorCredential (c : Cmd) (data : Bytes) (s : State) : Out :=
  let o := Origin.pcie c.fn
  let n := data.length
  if !s.adminReady c.fn then .next s
  else if !s.holdsExactly o .installer then .next (s.completeAdmin c Nv.role)
  else if n ≠ 0 ∧ (n < 8 ∨ 64 < n) then .next (s.completeAdmin c Nv.badField)
  else
    let t := (s.audit o 1 0x0022 0 (leBytes 4 n)).touch o
    let f := t.freshBytes 16
    .next (if n = 0 then (t.setTrust fun x => { x with cred := none }).completeAdmin c Nv.ok
      else (f.2.setTrust fun x => { x with cred := some (f.1, sha384 (f.1 ++ data)) }).completeAdmin c Nv.ok)

/-! ### Roles -/

/-- Role of an encoding. -/
def roleOf (n : Nat) : Option Role := if n = 0 then some .operator else if n = 1 then some .installer else if n = 2 then some .maker else none

/-- The origin may gain the role by an exchange, in the present lifecycle (R584, R586, R588). -/
def State.mayGain (s : State) (o : Origin) (r : Role) : Bool :=
  let l := s.lifecycle
  match r with
  | .operator => l != 3 && (match o with | .pcie _ => true | .setManager => true | _ => false)
  | .installer => l == 2 && (match o with | .pcie f => isPf f | .setManager => true | .gate => s.get R.GATE.TUNNEL_CTRL_RIGHTS == 2 | _ => false)
  | .maker => (l == 1 || l == 3 || (l == 2 && s.instFlag 4)) && (match o with | .pcie f => isPf f | .setManager => true | .testPort => true | _ => false)

/-- The role's authentication is locked out (R591). -/
def State.lockedOut (s : State) (r : Role) : Bool := decide (s.time < (s.lockout r).until_)

/-- The other origin that holds installer or maker (R587). -/
def State.otherHolder (s : State) (o : Origin) (r : Role) : Option Origin :=
  if r = .operator then none else (s.trust.sessions.find? fun x => x.role == r && x.origin != o).map (·.origin)

/-- Record a ROLE condition (R603). -/
def State.roleErr (s : State) (o : Origin) (r : Role) (code : Nat) : State := s.record 6 code (roleInfo o r.num) (originTag o)

/-- A refusal of a role is audited (R593). -/
def State.auditRefusal (s : State) (o : Origin) (r : Role) : State :=
  s.auditCoalesced o r.num 0x0003 1 (leBytes 4 (s.lockout r).fails) 4

/-- A failed response or credential counts; each fifth in a row starts a lockout (R590, R591). -/
def State.authFail (s : State) (o : Origin) (r : Role) : State :=
  let l := s.lockout r
  let n := l.fails + 1
  let t := s.auditCoalesced o r.num 0x0003 2 (leBytes 4 n) 4
  let t := (t.pulse 6 Ev.ROLE.FAILED).roleErr o r E.ROLE_AUTH_FAIL
  if n % 5 = 0 then
    (t.setLockout r ⟨n, l.count + 1, t.time + min 3600 (60 * 2 ^ l.count) * 1000000000⟩).pulse 6 Ev.ROLE.LOCKOUT
  else t.setLockout r { l with fails := n }

/-- A role is granted: the role's counts start afresh (R591). -/
def State.grant (s : State) (o : Origin) (r : Role) (method : Nat) : State := (s.gainRole o r method).setLockout r ⟨0, 0, 0⟩

/-- A refusal before any exchange: WHY 5 not allowed, 3 lockout, 4 held; 0 for none (R586, R587, R591). -/
def State.authRefused (s : State) (o : Origin) (r : Role) : Nat × State :=
  if !s.mayGain o r then (5, s.auditRefusal o r)
  else if s.lockedOut r then (3, (s.auditRefusal o r).roleErr o r E.ROLE_LOCKOUT)
  else if (s.otherHolder o r).isSome then (4, (s.auditRefusal o r).roleErr o r E.ROLE_HELD)
  else (0, s)

/-- The challenge's 64 bytes (R589). -/
def State.challengeBytes (s : State) (o : Origin) (r : Role) (nonce : Bytes) : Bytes :=
  nonce ++ s.serial ++ leBytes 1 r.num ++ leBytes 1 (originCode o) ++ leBytes 2 (originFunc o) ++ leBytes 4 (s.lockout r).fails ++ leBytes 8 s.time

/-- A challenge request (R589-R591): WHY, the challenge, and the state. The nonce of the DRBG is free. -/
def State.challenge (s : State) (o : Origin) (r : Role) : Nat × Bytes × State :=
  if r = .operator then (5, [], s.auditRefusal o r)
  else
    let w := s.authRefused o r
    if w.1 ≠ 0 then (w.1, [], w.2)
    else
      let f := w.2.freshBytes 32
      let b := f.2.challengeBytes o r f.1
      (0, b, f.2.setTrust fun x => { x with challenges := x.challenges.filter (·.origin != o) ++ [⟨o, r, b, f.2.time⟩] })

/-- The key that a role's responses are made with (R578, R579). -/
def State.roleKey (s : State) (r : Role) : Bytes :=
  match r with
  | .maker => match s.makerBase with | some b => s.otpN (b + 104) 48 | none => []
  | _ => match s.instBase with | some b => s.otpN (b + 240) 48 | none => []

/-- A response (R589-R591): WHY 0 granted, 1 bad, 2 lapsed, 4 held, 5 not allowed. -/
def State.respond (s : State) (o : Origin) (r : Role) (resp : Bytes) (va vb : BitVec 8) : Nat × State :=
  if r = .operator ∨ !s.mayGain o r then (5, s.auditRefusal o r)
  else match s.trust.challenges.find? fun x => x.origin == o && x.role == r && decide (s.time < x.issued + 10000000000) with
    | none => (2, s.authFail o r)
    | some ch =>
      let t := s.setTrust fun x => { x with challenges := x.challenges.filter (·.origin != o) }
      let same := resp == hmacSha384 (t.roleKey r) ch.bytes
      let a := comparator same va
      let b := comparator same vb
      let t := t.noteVerdict a b (digestInfo 0 0x1F0) 0x1F0
      if !verdictAccepts a b then (1, t.authFail o r)
      else if (t.otherHolder o r).isSome then (4, (t.auditRefusal o r).roleErr o r E.ROLE_HELD)
      else (0, t.grant o r 0)

/-- The operator credential (R588, R590, R591). -/
def State.credential (s : State) (o : Origin) (data : Bytes) : Nat × State :=
  let w := s.authRefused o .operator
  if w.1 ≠ 0 then w
  else
    let ok := match s.trust.cred with | some (salt, d) => sha384 (salt ++ data) == d | none => false
    if ok then (0, s.grant o .operator 1) else (1, s.authFail o .operator)

/-- The named role of an origin ends (R590, R592). -/
def State.dropRole (s : State) (o : Origin) (r : Role) : State :=
  match s.trust.sessions.find? fun x => x.origin == o && x.role == r with
  | some x => s.endRole x .drop
  | none => s

/-! ### ROLE AUTH -/

/-- The completion of a ROLE AUTH command, by WHY (R586, R587, R590, R591). -/
def State.authDone (s : State) (c : Cmd) (r : Role) (why : Nat) : State :=
  if why = 0 then s.completeAdmin c Nv.ok
  else if why = 3 then s.completeAdmin c Nv.held
  else if why = 4 then
    let h := (s.otherHolder (.pcie c.fn) r).getD (.pcie 0)
    s.completeAdmin c Nv.held (originCode h + originFunc h * 2 ^ 16)
  else if why = 5 then s.completeAdmin c Nv.badField
  else s.completeAdmin c Nv.role

/-- ROLE_AUTH_GET_CHALLENGE (R466, R589, R590). -/
def execRoleAuthGetChallenge (c : Cmd) (role : BitVec 8) (len : Nat) (s : State) : Out :=
  if !s.adminReady c.fn then .next s
  else match roleOf role.toNat with
    | none => .next (s.completeAdmin c Nv.badField)
    | some r =>
      if len ≠ 64 then .next (s.completeAdmin c Nv.length)
      else
        let w := s.challenge (.pcie c.fn) r
        .next (if w.1 = 0 then w.2.2.completeData c w.2.1 else w.2.2.authDone c r w.1)

/-- ROLE_AUTH_RESPOND (R466, R589, R590). -/
def execRoleAuthRespond (c : Cmd) (role : BitVec 8) (len : Nat) (data : Bytes) (va vb : BitVec 8) (s : State) : Out :=
  if !s.adminReady c.fn then .next s
  else match roleOf role.toNat with
    | none => .next (s.completeAdmin c Nv.badField)
    | some r =>
      if len ≠ 48 then .next (s.completeAdmin c Nv.length)
      else let w := s.respond (.pcie c.fn) r (data.take 48) va vb; .next (w.2.authDone c r w.1)

/-- ROLE_AUTH_CREDENTIAL (R466, R588, R590): it grants operator alone. -/
def execRoleAuthCredential (c : Cmd) (role : BitVec 8) (len : Nat) (data : Bytes) (s : State) : Out :=
  if !s.adminReady c.fn then .next s
  else if role.toNat ≠ 0 then .next (s.completeAdmin c Nv.badField)
  else let w := s.credential (.pcie c.fn) (data.take len); .next (w.2.authDone c .operator w.1)

/-- ROLE_AUTH_DROP (R466, R590). -/
def execRoleAuthDrop (c : Cmd) (role : BitVec 8) (s : State) : Out :=
  if !s.adminReady c.fn then .next s
  else match roleOf role.toNat with
    | none => .next (s.completeAdmin c Nv.badField)
    | some r => .next ((s.dropRole (.pcie c.fn) r).completeAdmin c Nv.ok)

/-! ### The ROLE page -/

/-- AUTH_STATUS of an origin, and the role it asked about (R602). -/
def State.authStatus (s : State) (o : Origin) (role result why : Nat) : State :=
  s.puts [(R.ROLE.AUTH_STATUS_RESULT.of o, result), (R.ROLE.AUTH_STATUS_WHY.of o, why), (R.ROLE.AUTH_CTRL_ROLE.of o, role)]

/-- A write of AUTH_CTRL: STEP and ROLE. -/
def State.authCtrl (s : State) (o : Origin) (step role : Nat) (act : Role → State → State) : State :=
  s.regCmd o 6 0x040 (step + role * 256) (decide (role < 3)) false id fun t => match roleOf role with | some r => act r t | none => t

/-- STEP 0x01: a challenge (R589). -/
def State.stepChallenge (s : State) (o : Origin) (r : Role) : State :=
  let w := s.challenge o r
  let t := w.2.2.authStatus o r.num (if w.1 = 0 then 1 else 3) w.1
  if w.1 ≠ 0 then t
  else t.puts ((List.range 16).map fun i => ((R.ROLE.CHALLENGE_BYTES i).of o, leNat (sliceBytes w.2.1 (4 * i) 4)))

/-- STEP 0x02: the RESPONSE registers are checked (R589). -/
def State.stepRespond (s : State) (o : Origin) (va vb : BitVec 8) (r : Role) : State :=
  let resp := (List.range 12).flatMap fun i => leBytes 4 (s.get ((R.ROLE.RESPONSE_BYTES i).of o))
  let w := s.respond o r resp va vb
  w.2.authStatus o r.num (if w.1 = 0 then 2 else 3) w.1

/-- STEP 0x04: the role is dropped (R592). -/
def State.stepDrop (s : State) (o : Origin) (r : Role) : State := (s.dropRole o r).authStatus o r.num 0 0

/-- AUTH_CHALLENGE (R589, R602). -/
def execAuthChallenge (o : Origin) (role : BitVec 2) (s : State) : Out := .next (s.authCtrl o 1 role.toNat fun r t => t.stepChallenge o r)

/-- AUTH_CHECK_RESPONSE (R589, R602). -/
def execAuthCheckResponse (o : Origin) (role : BitVec 2) (va vb : BitVec 8) (s : State) : Out :=
  .next (s.authCtrl o 2 role.toNat fun r t => t.stepRespond o va vb r)

/-- AUTH_DROP (R592, R602). -/
def execAuthDrop (o : Origin) (role : BitVec 2) (s : State) : Out := .next (s.authCtrl o 4 role.toNat fun r t => t.stepDrop o r)

/-- CHALLENGE_LAPSE (R590). -/
def execChallengeLapse (o : Origin) (s : State) : Out :=
  match s.trust.challenges.find? (·.origin == o) with
  | none => .next s
  | some ch =>
    let t := { s with time := max s.time (ch.issued + 10000000000) }.setTrust fun x => { x with challenges := x.challenges.filter (·.origin != o) }
    .next (if t.get (R.ROLE.AUTH_STATUS_RESULT.of o) = 1 then t.authStatus o ch.role.num 3 2 else t)

/-- ROLE_IDLE_LAPSE (R592): the sessions of the origin that have been idle for IDLE_S end. -/
def execRoleIdleLapse (o : Origin) (s : State) : Out :=
  let idle := s.get R.ROLE.IDLE_S_S * 1000000000
  match (s.trust.sessions.filter (·.origin == o)).map (·.last) with
  | [] => .next s
  | l :: ls =>
    let t : State := { s with time := max s.time (ls.foldl min l + idle) }
    .next ((s.trust.sessions.filter fun x => x.origin == o && decide (x.last + idle ≤ t.time)).foldl (fun t x => t.endRole x .idle) t)

/-- ROLE_LOCKOUT_END (R591). -/
def execRoleLockoutEnd (role : BitVec 2) (s : State) : Out :=
  match roleOf role.toNat with
  | none => .next s
  | some r =>
    let l := s.lockout r
    if l.until_ = 0 then .next s else .next ({ s with time := max s.time l.until_ }.setLockout r { l with until_ := 0 })

/-! ### Perturbation -/

/-- The lifecycle allows perturbation (R600). -/
def State.perturbOpen (s : State) : Bool := s.lifecycle == 1 || (s.lifecycle == 2 && s.instFlag 3)

/-- PARAM of ACTION 0x0040: page, profile, KIND, MAGNITUDE, PERIOD_MS, COUNT (R594; log entry 16). -/
def State.perturbParam (s : State) (page n : Nat) : Bytes :=
  leBytes 4 page ++ leBytes 1 n ++ (if n = 0 then leBytes 7 0 else leBytes 1 (s.get (R.PERTURB.PROFILE_A_KIND n))
    ++ leBytes 2 (s.get (R.PERTURB.PROFILE_B_MAGNITUDE n)) ++ leBytes 2 (s.get (R.PERTURB.PROFILE_B_PERIOD_MS n))
    ++ leBytes 2 (s.get (R.PERTURB.PROFILE_A_COUNT n)))

/-- Audit of ACTION 0x0040. -/
def State.auditPerturb (s : State) (o : Origin) (page n result : Nat) : State :=
  (s.audit o (s.roleByte o) 0x0040 result (s.perturbParam page n)).touch o

/-- Perturbation is armed (R600). -/
def State.armBy (s : State) (o : Origin) : State :=
  ((s.put R.PERTURB.CTRL_ARM 1).setTrust fun x => { x with armOrigin := some o }).pulse 9 Ev.PERTURB.ARMED

/-- ARM (R600). -/
def execArm (o : Origin) (s : State) : Out :=
  .next (s.regCmdBy o 9 0x040 1 (!s.perturbOpen) true false (fun t r => t.auditPerturb o 9 0 r) id fun t => t.armBy o)

/-- KILL (R601). -/
def execKill (o : Origin) (s : State) : Out :=
  .next (s.regCmd o 9 0x040 2 true false id fun t => t.endPerturb .kill)

/-- Positions of `n` flipped bits among those left, each a free value. -/
def State.freeBits : Nat → List Nat → State → List Nat × State
  | 0, _, s => ([], s)
  | n + 1, l, s =>
    match l with
    | [] => ([], s)
    | _ =>
      let f := s.fresh
      let b := l.getD (f.1 % l.length) 0
      let r := State.freeBits n (l.filter (· != b)) f.2
      (b :: r.1, r.2)

/-- Bits of one unit of an entry flip: 0-63 its value, 64-127 its care mask. -/
def EEnt.flip (e : EEnt) (j : Nat) (bs : List Nat) : EEnt :=
  bs.foldl (fun e b =>
    if b < 64 then { e with vals := modAt e.vals j fun v => setBit v b (!bitAt v b) }
    else { e with cares := modAt e.cares j fun v => setBit v (b - 64) (!bitAt v (b - 64)) }) e

/-- MAGNITUDE bits flip in one row of a bank's array, not in its shadow (R598): which is free. -/
def State.flipRow (s : State) (b mag : Nat) : State :=
  if s.bankRetired b then s
  else
    let f := s.fresh
    let row := f.1 % 4096
    let w := s.bankWidth b
    let r := State.freeBits mag (List.range 128) f.2
    r.2.modBank b fun k => { k with array := entSet k.array w (row / w) ((entAt k.array w (row / w)).flip (row % w) r.1) }

/-- MAGNITUDE bits flip in one burst read of a channel (R534, R535, R598): one bit is corrected; whether more are is open, and where
they are not the re-read is clean. -/
def State.flipBurst (s : State) (c mag : Nat) : State :=
  if !s.dramUsed c || mag == 0 then s
  else
    let f := s.fresh
    let t := if mag = 1 then s else f.2
    if mag = 1 ∨ f.1 % 2 = 0 then (t.bump (R.DRAM.CORRECTED_COUNT c)).pulse (dramPage c) Ev.DRAM.CORRECTED else t

/-- A page's perturbation lasts until a moment. -/
def State.delayPage (s : State) (page us : Nat) : State :=
  s.setTrust fun x => { x with delays := x.delays.filter (·.1 != page) ++ [(page, s.time + 1000 * us)] }

/-- The fault of a profile's KIND on a page (R598, R599). Jitter, flash bit errors and hop delays show in what the flash and the ring
do next, which comes with their own commands (log entry 82). -/
def State.inject (s : State) (kind mag page : Nat) : State :=
  if kind = 1 then (s.delayPage page mag).hold R.GATE.CREDIT_STATE_HELD_PERTURB true
  else if kind = 2 then s.delayPage page mag
  else if kind = 4 then (List.range mag).foldl (fun t _ => t.dramReplay (page - 0xA0)) s
  else if kind = 5 then
    if 0x40 ≤ page ∧ page < 0x60 then s.flipRow (page - 0x40) mag
    else if 0xA0 ≤ page ∧ page < 0xA4 then s.flipBurst (page - 0xA0) mag
    else s
  else s

/-- Pages that name a profile. -/
def State.namedBy (s : State) (n : Nat) : List Nat := perturbPages.filter fun p => s.get (H.POINT p) == n

/-- COUNT is spent: every PERTURB_SEL that names the profile returns to 0 (R598). -/
def State.spendProfile (s : State) (n : Nat) : State :=
  let k := (assoc s.trust.injected n).getD 0
  if s.get (R.PERTURB.PROFILE_A_COUNT n) = 0 ∨ k < s.get (R.PERTURB.PROFILE_A_COUNT n) then s
  else ((s.namedBy n).foldl (fun t p => t.put (H.POINT p) 0) (s.setTrust fun x =>
    { x with injected := x.injected.filter (·.1 != n) })).pulse 9 Ev.PERTURB.EXHAUSTED

/-- PERTURB_EVENT (R598): the profile injects its fault on every page that names it. -/
def execPerturbEvent (n : BitVec 4) (s : State) : Out :=
  let n := n.toNat
  let ps := s.namedBy n
  let kind := s.get (R.PERTURB.PROFILE_A_KIND n)
  if n = 0 ∨ ps.isEmpty ∨ kind = 0 then .next s
  else
    let t := ps.foldl (fun t p => t.inject kind (s.get (R.PERTURB.PROFILE_B_MAGNITUDE n)) p) s
    let t := (t.bump R.PERTURB.EVENTS_COUNT).setTrust fun x => { x with injected := assocSet x.injected n ((assoc x.injected n).getD 0 + 1) }
    .next (t.spendProfile n)

/-- PERTURB_DELAY_EXPIRY (R69, R598). -/
def execPerturbDelayExpiry (page : Nat) (s : State) : Out :=
  match assoc s.trust.delays page with
  | none => .next s
  | some d =>
    let t := { s with time := max s.time d }.setTrust fun x => { x with delays := x.delays.filter (·.1 != page) }
    .next (if page = 0x10 then t.hold R.GATE.CREDIT_STATE_HELD_PERTURB false else t.dispatchSlices)

end Sys2Proof.Machine
end

