-- ==== Sys2Proof/Machine/Views.lean ====
section
/-!
DEFINITION. What register fields read (R37, R40 and each block's register table): fields that show other state are computed here,
registers held per origin or per unit are found here, and every other field reads what it holds.
-/

namespace Sys2Proof.Machine

/-! ### The common header (R37) -/

/-- A lane works on nothing. -/
def State.laneIdle (s : State) (l : Nat) : Bool := (s.lane l).work == .idle && (s.lane l).held.isEmpty

/-- PAGE_STATUS.QUIESCED: the block has no work in progress (R37; log entry 83 says what counts for each block). -/
def State.pageQuiesced (s : State) (page : Nat) : Bool :=
  match kindOf page with
  | some .gate => s.gate.rxBuf.isEmpty && s.gate.txq.isEmpty && s.gate.replay.isEmpty
  | some .take => s.get R.TAKE.TAKE_STATE_STATE == 0
  | some .trig => s.trig.copies.isEmpty
  | some .lane => s.laneIdle (page - 0x18)
  | some .shears => (List.range 12).all s.laneIdle && !s.jobs.queue.any (·.engine == 0)
  | some .nand => s.nand.queues.all fun q => dieChannel q.1 != page - 0x80 || q.2.isEmpty
  | some .media => !s.bit R.MEDIA.MEDIA_STATUS_CKPT_BUSY && s.media.reloc.isNone && s.media.wbuf.isEmpty
  | some .fallow => s.media.freed.isEmpty
  | some .array => s.array.owed.isEmpty && s.degraded.isEmpty && s.critical.isEmpty && !s.reshaping
  | some .earmark => !s.jobs.queue.any (·.engine == 1)
  | some .digest => !s.jobs.queue.any (·.engine == 2) && s.feeds.isEmpty
  | some .cipher => !s.jobs.queue.any (·.engine == 3)
  | some .keyeng => s.keys.queue.isEmpty
  | some .hostq => s.host.cmds.isEmpty && s.host.waiting.isEmpty
  | some .tenant => s.tenant.resetting.isEmpty
  | some .core => match s.cores.toList[page - 0x100]? with | some k => k.state != .running && k.state != .waiting | none => true
  | some .cluster => match s.mcLoad with | some l => l.cluster != page - 0x150 | none => true
  | some .pwr => s.pwr.tran.isNone
  | some .drove => s.drove.cur.isNone && s.drove.queue.isEmpty
  | _ => true

/-- PAGE_STATUS.DEGRADED: part of the block's resources is retired, and not all of them (R37): lanes, banks, pipelines, digest
units, dies of a channel and of the array, DRAM channels, cores of a cluster. -/
def State.pageDegraded (s : State) (page : Nat) : Bool :=
  match kindOf page with
  | some .shears => s.get R.SHEARS.LANES_LIVE_MASK != 2 ^ 12 - 1 && s.get R.SHEARS.LANES_LIVE_MASK != 0
  | some .earmark => s.get R.EARMARK.BANKS_RETIRED_MASK != 0 && s.get R.EARMARK.BANKS_RETIRED_MASK != 2 ^ 32 - 1
  | some .cipher => s.get R.CIPHER.PIPES_LIVE != 2 ^ 6 - 1 && s.get R.CIPHER.PIPES_LIVE != 0
  | some .digest => s.get R.DIGEST.UNITS_LIVE_MASK != 2 ^ 64 - 1 && s.get R.DIGEST.UNITS_LIVE_MASK != 0
  | some .nand => s.array.lost.any fun d => dieChannel d == page - 0x80
  | some .array => !s.array.lost.isEmpty
  | some .dramc => (List.range 4).any fun c => s.get (R.DRAM.CH_STATUS_STATE c) == 6
  | some .cluster => (List.range 8).any fun i => match s.cores.toList[8 * (page - 0x150) + i]? with
    | some k => k.state == .retired
    | none => false
  | _ => false

/-- EVENT_RAW but for ERR (R37): a core's PARKED, STOPPED, HALTED and RETIRED follow its state (R334). -/
def State.rawEvents (s : State) (page : Nat) : Nat :=
  match kindOf page, s.cores.toList[page - 0x100]? with
  | some .core, some k =>
    b2n (k.state == .parked) * 2 ^ Ev.CORE.PARKED + b2n (k.state == .stopped) * 2 ^ Ev.CORE.STOPPED
      + b2n (k.state == .halted) * 2 ^ Ev.CORE.HALTED + b2n (k.state == .retired) * 2 ^ Ev.CORE.RETIRED
  | _, _ => s.get (H.RAW page)

/-- Words of the header, and the halves of PAGE_CTRL and ERR_CODE. -/
def State.viewHeader (s : State) (o : Origin) (page : Nat) (k : PageKind) (off lo : Nat) : Nat :=
  if off = 0x000 then k.block + pageInst page * 2 ^ 8 + 2 ^ 16
  else if off = 0x004 then b2n k.hasReset + 2 * b2n k.hasDisable + 4 * b2n k.hasPerturb + 8 * b2n k.windowable
  else if off = 0x008 then (if lo = 0 then s.get (H.ENABLE page) else 0)
  else if off = 0x00C then
    s.get (H.ENABLE page) + 2 * b2n (s.pageQuiesced page) + 4 * s.get (H.RESET_BUSY page) + 8 * b2n (s.pageDegraded page)
      + 16 * s.get (H.RETIRED page)
  else if off = 0x010 then s.rawEvents page + 2 ^ 31 * s.get (H.VALID page)
  else if off = 0x014 then s.get (H.MASK page)
  else if off = 0x018 then s.get (H.STICKY page)
  else if off = 0x01C then s.get (H.COUNT page)
  else if off = 0x020 then (if lo = 0 then s.get (H.CODE page) + s.get (H.ERRS page) * 2 ^ 16 else s.get (H.VALID page))
  else if off = 0x024 then s.get (H.INFO page)
  else if off = 0x028 then
    b2n (s.holdsExactly o .operator) + 2 * b2n (s.holdsExactly o .installer) + 4 * b2n (s.holdsExactly o .maker)
      + namedRoles page * 2 ^ 8
  else if off = 0x02C then s.get (H.POINT page)
  else 0

/-! ### Blocks -/

/-- Fields of the TAKE page that are live (R96, R121). -/
def State.viewTake (s : State) (off : Nat) : Option Nat :=
  if off = 0x068 then some s.unsecured
  else if off = 0x080 then some (match s.take.c with | some c => s.mRate c.tier | none => s.mFallow)
  else none

/-- Fields of the FALLOW page (R123). -/
def State.viewFallow (s : State) (off lo : Nat) : Option Nat :=
  let owed := fun (g : Group) => g.members.length - g.erased.length
  let freed := s.groups.filter (·.state == .freed)
  if off = 0x040 then some s.poolBlocks
  else if off = 0x048 then some s.poolUser
  else if off = 0x060 then some ((freed.map owed).foldl (· + ·) 0)
  else if off = 0x064 ∧ lo = 0 then some (b2n (decide (s.poolUser < 1000 * s.get R.FALLOW.LOW_WATER_GB)))
  else if off = 0x064 ∧ lo = 1 then some (b2n (decide (1000 * s.get R.FALLOW.TARGET_GB ≤ s.poolUser)))
  else if off = 0x064 ∧ lo = 2 then some (b2n (freed.any (·.erasing)))
  else none

/-- WINDOWS.USED and the window registers of the TRIG page, for the slot that the origin's WIN_SEL names (R151). -/
def State.viewTrig (s : State) (o : Origin) (off lo : Nat) : Option Nat :=
  let slot := s.get (R.TRIG.WIN_SEL_SLOT.of o)
  let w := s.trig.windows.getD slot Window.free
  if off = 0x074 then some (s.trig.windows.filter (·.state != 0)).length
  else if off = 0x088 then some (if lo = 0 then slot else 0)
  else if off = 0x08C then
    some (if lo = 0 then w.state else if lo = 3 then w.source else if lo = 7 then b2n w.preShort else if lo = 8 then b2n w.cut
      else if lo = 9 then b2n w.late else if lo = 16 then min w.triggers 65535 else 0)
  else if off = 0x090 then some w.start
  else if off = 0x098 then some w.fin
  else if off = 0x0A0 then some w.keptId
  else if off = 0x0A8 then some w.pinned.length
  else none

/-- Fields of the SHEARS common page (R183). -/
def State.viewShears (s : State) (off lo : Nat) : Option Nat :=
  if off = 0x04C ∧ lo = 16 then some s.chainInUse
  else if off = 0x050 ∧ lo = 0 then some (min 1024 (s.jobs.queue.filter (·.engine == 0)).length)
  else none

/-- Fields of the MEDIA page (R254). -/
def State.viewMedia (s : State) (off lo : Nat) : Option Nat :=
  if off = 0x040 then (if lo = 5 then some (b2n (s.media.formatted && s.greedy)) else none)
  else if off = 0x080 then some (s.media.slc / 1000)
  else if off = 0x08C then some (if lo = 0 then s.peStats.1 else s.peStats.2)
  else if off = 0x0A8 then some (match s.media.ckpt with | some c => c.seq | none => 0)
  else if off = 0x058 then some s.allocatedMB
  else if off = 0x060 then some s.validMB
  else if off = 0x07C then some s.blockLimit
  else if off = 0x084 then some (s.slcBytes / 1000000000)
  else if off = 0x09C then some s.media.refresh.length
  else if off = 0x0A0 then some s.media.seq
  else if off = 0x0C8 then some (s.media.image.gcBytes / 1000000)
  else if off = 0x0D0 then some (s.media.image.hostBytes / 1000000)
  else if off = 0x0D8 then some (s.media.image.nandBytes / 1000000)
  else none

/-- ARRAY_STATUS.STATE (R290): 0 online, 1 degraded, 2 critical, 3 offline. -/
def State.arrayState (s : State) : Nat :=
  if s.offline then 3 else if !s.critical.isEmpty then 2 else if !s.degraded.isEmpty then 1 else 0

/-- Channels in FAULT or RETIRED. -/
def State.lostChannels (s : State) : Nat :=
  ((List.range 32).filter fun c => s.get (R.NAND.CH_STATUS_STATE c) == 3 || s.get (R.NAND.CH_STATUS_STATE c) == 4).length

/-- Fields of the ARRAY page (R290). -/
def State.viewArray (s : State) (off lo : Nat) : Option Nat :=
  if off = 0x040 then
    (if lo = 0 then some s.arrayState
     else if lo = 3 then some (b2n (!s.offline && !(s.degraded.isEmpty && s.critical.isEmpty)))
     else if lo = 4 then some (b2n (!s.array.owed.isEmpty))
     else if lo = 7 then some (b2n s.reshaping)
     else if lo = 8 then some (b2n (s.reshaping && s.reshapePaused)) else none)
  else if off = 0x060 then some s.degraded.length
  else if off = 0x068 then some s.critical.length
  else if off = 0x070 then some s.array.owed.length
  else if off = 0x078 then (if lo = 0 then some s.array.lost.length else if lo = 16 then some s.lostChannels else none)
  else if off = 0x07C ∧ lo = 0 then some s.openStripes
  else none

/-- STATE of a core (R334). -/
def CoreState.toCode : CoreState → Nat
  | .off => 0 | .parked => 1 | .running => 2 | .waiting => 3 | .stopped => 4 | .halted => 5 | .retired => 6

/-- CYCLE of core `c`, whose parked and waiting cycles count as they pass (R314, R334). -/
def State.liveCycle (s : State) (c : Nat) (k : Core) : BitVec 64 :=
  if k.state = .waiting ∨ (k.state = .parked ∧ (c < 8 ∨ k.prog.isSome)) then k.cycle + coreCycles k.since s.time else k.cycle

/-- Fields of a core's page (R334), CYCLES as given. -/
def Core.view (k : Core) (cycles : BitVec 64) (off lo : Nat) : Nat :=
  if off = 0x040 then
    (if lo = 0 then k.state.toCode else if lo = 3 then b2n k.sys else if lo = 4 then b2n k.inTrap
     else if lo = 8 then k.func.toNat else 0)
  else if off = 0x048 then k.pcSnap.toNat
  else if off = 0x050 then k.lastCause.toNat
  else if off = 0x058 then k.lastTrapPc.toNat
  else if off = 0x060 then cycles.toNat
  else if off = 0x068 then k.insns
  else if off = 0x070 then k.spills
  else if off = 0x074 then k.traps
  else if off = 0x078 then k.eccCorrected
  else if off = 0x07C then k.eccUncorrected
  else if off = 0x080 then (if lo = 0 then k.ds.length else if lo = 8 then k.rs.length else 0)
  else if off = 0x084 ∧ k.state = .waiting then (if lo = 0 then (k.wait.map (·.1)).getD 0 else if lo = 31 then 1 else 0)
  else 0

/-- Fields of a cluster's page (R376). -/
def State.viewCluster (s : State) (o : Origin) (n off lo : Nat) : Option Nat :=
  let q := s.cluster n
  let mine := match s.mcLoad with | some l => l.cluster == n | none => false
  if off = 0x040 then
    (if lo = 0 then some (match s.mcLoad with | some l => if mine then l.phase else 0 | none => 0)
     else if lo = 3 then some (b2n q.kept.isSome)
     else if lo = 8 then some ((List.range 8).foldl (fun v i => match s.cores.toList[8 * n + i]? with
        | some k => if mine && k.parkers.contains .load then v + 2 ^ i else v
        | none => v) 0)
     else if lo = 16 then some ((List.range 64).filter fun e => entValid (q.entry e)).length else none)
  else if off = 0x044 ∧ lo = 0 then some q.words
  else if 0x060 ≤ off ∧ off < 0x080 then some (leNat (sliceBytes q.fingerprint (off - 0x060) 4))
  else if 0x080 ≤ off ∧ off < 0x180 then some (q.entry ((off - 0x080) / 4))
  else if off = 0x180 then some (if lo = 0 then s.get ((R.CLUSTER.UADDR_ADDR n).of o) else 0)
  else if 0x184 ≤ off ∧ off < 0x194 then
    some (if s.holds o .installer then bits (q.store.getD (s.get ((R.CLUSTER.UADDR_ADDR n).of o)) 0) (8 * (off - 0x184)) 32 else 0)
  else none

/-- Pages 32i to 32i + 31 that request an interrupt (R484). -/
def State.pageSummary (s : State) (i : Nat) : Nat :=
  (List.range 32).foldl (fun v b => if (kindOf (32 * i + b)).isSome && s.requests (32 * i + b) then v + 2 ^ b else v) 0

/-- Fields of the HOSTQ page (R484). -/
def State.viewHostq (s : State) (off lo : Nat) : Option Nat :=
  if off = 0x04C ∧ lo = 0 then some ((s.tenant.fns.map (·.p.pairs)).foldl (· + ·) 0)
  else if 0x080 ≤ off ∧ off < 0x0C0 then some (s.pageSummary ((off - 0x080) / 4))
  else none

/-- MiB of a function's memory namespace that its memory range sets cover (R493, R499). -/
def Fn.usedMiB (f : Fn) : Nat :=
  let rs := f.ranges.flatMap (·.2)
  let mib := (rs.flatMap fun r => (List.range (ceilDiv (r.start % 2 ^ 20 + r.len) (2 ^ 20))).map fun i => r.start / 2 ^ 20 + i).eraseDups
  mib.length

/-- A VF's page 0 (R35, R499); a disabled VF has nothing to show. -/
def State.viewVf (s : State) (f off lo : Nat) : Option Nat :=
  if off = 0x040 then some (if lo = 0 then f else 0)
  else match s.fn f with
    | none => if 0x0B0 ≤ off then none else some 0
    | some x =>
      if 0x044 ≤ off ∧ off < 0x080 then
        match x.p.windows.getD ((off - 0x044) / 4) none with
        | some g => some (if lo = 0 then g else if lo = 15 then 1 else 0)
        | none => some 0
      else if off = 0x080 then some x.gen
      else if off = 0x084 then some (if lo = 0 then x.p.pairs else 0)
      else if off = 0x088 then some x.p.cores
      else if off = 0x090 then some x.p.banks
      else if off = 0x094 then some (if lo = 0 then x.p.weight else if lo = 16 then x.p.share else 0)
      else if off = 0x098 then some (if lo = 0 then x.p.keyBase else if lo = 16 then x.p.keys else 0)
      else if off = 0x09C then some (if lo = 0 then x.p.ctxBase else if lo = 16 then x.p.ctxs else 0)
      else if off = 0x0A0 then some x.p.dram
      else if off = 0x0A4 then some x.usedMiB
      else if off = 0x0A8 then some (if lo = 0 then x.p.bits else 0)
      else if off = 0x0AC then
        some (if lo = 0 then (s.ns.filter fun n => n.attached.contains f).length else if lo = 6 then b2n x.p.takes else 0)
      else none

/-- Bits of `a` that are not in `b`. -/
def maskOut (a b : Nat) : Nat := a - (a &&& b)

/-- SEL_STATE of a function (R504). -/
def State.selState (s : State) (f : Nat) : Nat :=
  if s.isResetting f then 3 else if (s.fn f).isSome then 2 else if (s.profOf f).isSome then 1 else 0

/-- Fields of the TENANT page (R488, R504). -/
def State.viewTenant (s : State) (o : Origin) (off lo : Nat) : Option Nat :=
  let sel := s.get (R.TENANT.FUNC_SEL_FUNC.of o)
  if off = 0x040 then some (if lo = 0 then sel else 0)
  else if off = 0x044 then
    (if lo = 0 then some (4096 - s.reserved none (·.pairs)) else if lo = 16 then some ((s.tenant.fns.map (·.p.pairs)).foldl (· + ·) 0)
     else none)
  else if off = 0x048 then some (maskOut s.coresGrantable (s.reservedMask none (·.cores)))
  else if off = 0x050 then some (maskOut s.banksGrantable (s.reservedMask none (·.banks)))
  else if off = 0x054 then
    (if lo = 0 then some (896 - s.reserved none (·.keys)) else if lo = 16 then some (960 - s.reserved none (·.ctxs)) else none)
  else if off = 0x058 then
    (if lo = 0 then some (4096 - s.reserved none (·.weight)) else if lo = 16 then some (1000 - s.reserved none (·.share)) else none)
  else if off = 0x060 then some (s.get R.TENANT.DRAM_POOL_MIB - s.reserved none (·.dram))
  else if off = 0x064 ∧ lo = 0 then some (4194304 - s.reserved none (·.bits))
  else if off = 0x068 ∧ lo = 0 then some (s.selState sel)
  else if off = 0x06C then some ((assoc s.tenant.gens sel).getD 0)
  else none

/-- Fields of the PWR page: the history ring (R551, R572). -/
def State.viewPwr (s : State) (o : Origin) (off lo : Nat) : Option Nat :=
  let sel := s.get (R.PWR.HIST_SEL_ENTRY.of o)
  if off = 0x06C then some (if lo = 0 then sel else 0)
  else if 0x070 ≤ off ∧ off < 0x080 then some (leNat (sliceBytes (s.pwr.history.getD sel []) (off - 0x070) 4))
  else none

/-- Seconds left of a role's lockout (R591, R602). -/
def State.lockoutLeft (s : State) (r : Nat) : Nat :=
  min 65535 (ceilDiv ((s.trust.lockouts.getD r ⟨0, 0, 0⟩).until_ - s.time) 1000000000)

/-- Fields of the ROLE page, which is held for each origin but for IDLE_S and HOLDERS (R602). -/
def State.viewRole (s : State) (o : Origin) (off lo w : Nat) : Option Nat :=
  if off = 0x044 ∧ lo = 16 then some (s.lockoutLeft (s.get (R.ROLE.AUTH_CTRL_ROLE.of o)))
  else if off = 0x044 ∨ (0x080 ≤ off ∧ off < 0x0C0) then some (s.get (Fld.of ⟨6, off, lo, w⟩ o))
  else none

/-- Fields of the AUDIT page (R593, R602). -/
def State.viewAudit (s : State) (off : Nat) : Option Nat :=
  if off = 0x040 then some (s.trust.auditSeq - 1)
  else if off = 0x048 then some (leNat (((s.trust.audit.head?).getD []).take 8))
  else if 0x050 ≤ off ∧ off < 0x070 then some (leNat (sliceBytes s.trust.auditHead (off - 0x050) 4))
  else none

/-- Fields of the FAULT page (R610, R621). -/
def State.viewFault (s : State) (off lo : Nat) : Option Nat :=
  let r := s.fault.dev
  if off = 0x040 then (if lo = 0 then some r.entries.length else if lo = 13 then some (b2n (decide (devSlots ≤ r.entries.length))) else none)
  else if off = 0x044 then some r.lost
  else if off = 0x048 then some r.firstLost
  else if 0x070 ≤ off ∧ off < 0x090 then
    some (match s.fault.newest with | some e => leNat (sliceBytes e.bytes (off - 0x070) 4) | none => 0)
  else none

/-! ### A field -/

/-- What a block's field shows where it is computed or held per origin or unit. -/
def State.viewBlock (s : State) (o : Origin) (page : Nat) (k : PageKind) (off lo w : Nat) : Option Nat :=
  match k with
  | .dev => if off = 0x040 ∧ lo = 8 then some (b2n Config.gradeX) else none
  | .take => s.viewTake off
  | .fallow => s.viewFallow off lo
  | .trig => s.viewTrig o off lo
  | .shears => s.viewShears off lo
  | .media => s.viewMedia off lo
  | .array => s.viewArray off lo
  | .core => (s.cores.toList[page - 0x100]?).map fun k => k.view (s.liveCycle (page - 0x100) k) off lo
  | .cluster => s.viewCluster o (page - 0x150) off lo
  | .keyeng => if off = 0x040 ∧ lo = 17 then some (b2n (s.instFlag 1)) else none
  | .digest =>
    if off = 0x04C then some (s.get (Fld.of ⟨0x2A, off, lo, w⟩ o))
    else if 0x050 ≤ off ∧ off < 0x0F0 then some (s.get (Fld.ofUnit ⟨0x2A, off, lo, w⟩ (s.feedSel o)))
    else none
  | .hostq => s.viewHostq off lo
  | .vf => s.viewVf (page - 0x1000) off lo
  | .tenant => s.viewTenant o off lo
  | .dramc => if off = 0x048 then some (51200 * s.liveDram) else none
  | .pwr => s.viewPwr o off lo
  | .rtc => if off = 0x040 then some s.rtcValue else none
  | .role => s.viewRole o off lo w
  | .audit => s.viewAudit off
  | .perturb => if off = 0x044 ∧ lo = 0 then some s.activeProfiles else none
  | .fault => s.viewFault off lo
  | .share => if off = 0x064 ∧ lo = 0 then some (s.get (R.SHARE.CLAIM_STATUS_RESULT.of o)) else none
  | _ => none

/-- What the origin reads from a field of a row: a WO field reads 0, and a block under soft reset reads 0 beyond its header. -/
def State.viewRow (s : State) (o : Origin) (page : Nat) (r : RegRow) : Nat :=
  match kindOf page with
  | none => 0
  | some k =>
    if r.off < 0x040 then s.viewHeader o page k r.off r.lo
    else if r.acc = .wo ∨ s.bit (H.RESET_BUSY page) then 0
    else ((s.viewBlock o page k r.off r.lo r.w).getD (s.get ⟨page, r.off, r.lo, r.w⟩)) % 2 ^ r.w

/-- The register at an offset as the origin reads it now: all 64 bits of a pair, whose low word the offset names. -/
def State.viewReg (s : State) (o : Origin) (page off : Nat) : Nat :=
  ((rowsOf page).filter (·.off == off)).foldl (fun v r => v + s.viewRow o page r * 2 ^ r.lo) 0

end Sys2Proof.Machine
end

