-- ==== Sys2Proof/Machine/RegAccess.lean ====
section
/-!
DEFINITION. Register accesses from every origin (R31-R48, R645): what a write of each register does, the pairs of R45-R47, and the
register commands. Readings: log entries 20, 81, 82 and 84.
-/

namespace Sys2Proof.Machine

/-- The state of an outcome that is a next state. -/
def outState (s : State) : Out → State
  | .next t => t
  | _ => s

/-! ### The common header -/

/-- Event bits that a page's chapter defines, from bit 0. -/
def PageKind.events : PageKind → Nat
  | .gate => 14 | .take => 8 | .fallow => 3 | .summ => 1 | .trig => 8 | .lane => 5 | .shears => 3 | .nand => 9 | .media => 8
  | .array => 9 | .core => 6 | .cluster => 5 | .earmark => 4 | .bank => 4 | .cipher => 5 | .keyeng => 3 | .digest => 4
  | .entropy => 3 | .hostq => 5 | .vf => 3 | .tenant => 4 | .xlate => 2 | .drove => 8 | .dram => 6 | .dramc => 4 | .pwr => 5
  | .vreg => 2 | .rtc => 5 | .clk => 1 | .otp => 2 | .role => 3 | .audit => 2 | .perturb => 3 | .fault => 5 | .share => 4
  | .dev => 3

/-- The defined event bits of a page. -/
def eventBits (page : Nat) : Nat := 2 ^ 31 + (match kindOf page with | some k => 2 ^ k.events - 1 | none => 0)

/-- A write of EVENT_MASK: reserved bits ignore it. -/
def State.writeMask (s : State) (o : Origin) (page v : Nat) : State :=
  s.regCmd o page 0x014 v true false id fun t => t.irqAfter (t.put (H.MASK page) (v &&& eventBits page)) page

/-- What EVENT_STICKY holds after a write: the bits written 1 are cleared, but for those that rose in the same CTL cycle (R39). -/
def State.stickyAfter (s : State) (page v : Nat) : Nat :=
  let old := s.get (H.STICKY page)
  let clear := old &&& v
  old - (clear - (clear &&& s.risen page))

/-- A write of EVENT_STICKY (R39). -/
def State.writeSticky (s : State) (o : Origin) (page v : Nat) : State :=
  s.regCmd o page 0x018 v true false id fun t => t.put (H.STICKY page) (t.stickyAfter page v)

/-- ERR_CODE.VALID is cleared, and with it CODE, COUNT and ERR_INFO (R40). -/
def State.clearErr (s : State) (page : Nat) : State :=
  s.puts [(H.VALID page, 0), (H.CODE page, 0), (H.ERRS page, 0), (H.INFO page, 0)]

/-- A write of ERR_CODE. -/
def State.writeErrCode (s : State) (o : Origin) (page v : Nat) : State :=
  s.regCmd o page 0x020 v true false id fun t => if bitAt v 31 then t.clearErr page else t

/-- The block holds work tagged FUNC 0x1F1, of the take pipeline or of a job, or an open take's reservation (R38): a lane, or a bank whose
table a job that has begun uses. -/
def State.ctrlHeld (s : State) (page : Nat) : Bool :=
  match kindOf page with
  | some .lane =>
    let l := page - 0x18
    s.bit (R.LANE.LANE_STATUS_RESERVED l)
      || ((s.lane l).work :: (s.lane l).held).any fun w => match w with
        | .slice .. => true
        | .reemit .. => true
        | .job d => d.job.func == 0x1F1
        | .idle => false
  | some .bank =>
    s.jobs.queue.any fun j => j.engine == 1 && j.func == 0x1F1 && s.earBegun j.id && (s.tableBanks (descN j.desc 2 1)).contains (page - 0x40)
  | _ => false

/-- A job on a lane stops without a completion record; the host command it serves ends (R180; log entry 84). -/
def State.stopJob (s : State) (l : Nat) (w : LaneWork) : State :=
  match w with
  | .job d =>
    let t := s.record (lanePage l) E.SHEARS_ABORTED (shearsInfo l d.job.func 5) d.job.func
    match d.job.cmd with
    | some k => t.completeCmd k (engineNvme 5)
    | none => t
  | _ => s

/-- A lane's soft reset: its job stops, and its page returns to reset state but for its retirement (R37, R44, R170). -/
def State.resetLane (s : State) (l : Nat) : State :=
  let ws := (s.lane l).work :: (s.lane l).held
  let t := s.modLane l fun _ => ⟨.idle, [], []⟩
  let t := ws.foldl (fun t w => t.stopJob l w) t
  t.unput fun f => f.page != lanePage l || f == R.LANE.LANE_STATUS_RETIRED l || f == H.RETIRED (lanePage l)

/-- A bank's soft reset (R401): it is cleared as under R380, and its page returns to reset state but for its owner and its
retirement. -/
def State.resetBank (s : State) (b : Nat) : State :=
  let p := 0x40 + b
  let t := s.unput fun f => f.page != p || f.off == 0x044 || f == R.BANK.BANK_STATUS_RETIRED b || f == H.RETIRED p
  (t.modBank b fun k => { k with repairs := [] }).clearBank b

/-- A soft reset of a page that has one (R37). -/
def State.softReset (s : State) (page : Nat) : State :=
  match kindOf page with
  | some .lane => s.resetLane (page - 0x18)
  | some .bank => s.resetBank (page - 0x40)
  | _ => s

/-- A write of PAGE_CTRL (R37, R38). A write of ENABLE = 0 to a held lane is refused with CTRL_HELD also where ENABLE reads 0 already
(DESIGN CHOICE, log entry 15). -/
def State.writePageCtrl (s : State) (o : Origin) (page v : Nat) : State :=
  match kindOf page with
  | none => s
  | some k =>
    s.regCmd o page 0x008 v ((bitAt v 0 || k.hasDisable) && (!bitAt v 1 || k.hasReset)) ((!bitAt v 0 || bitAt v 1) && s.ctrlHeld page)
      (fun t => t.refuseAccess o page 0x008 5) fun t =>
        let t := t.putBit (H.ENABLE page) (bitAt v 0)
        if bitAt v 1 then t.softReset page else t

/-- The kind of profile that serves a page (R598). -/
def kindServes (k : Nat) : PageKind → Bool
  | .gate => k == 1
  | .lane => k == 2
  | .nand => k == 3 || k == 5
  | .dram => k == 4 || k == 5
  | .bank => k == 5
  | .drove => k == 6
  | _ => false

/-- A write of PERTURB_SEL (R37, R38, R598, R600). A profile that no page named counts its events afresh. -/
def State.writePerturbSel (s : State) (o : Origin) (page v : Nat) : State :=
  match kindOf page with
  | none => s
  | some k =>
    let n := v % 256
    let legal := n == 0 || (k.hasPerturb && decide (n ≤ 15) && kindServes (s.get (R.PERTURB.PROFILE_A_KIND n)) k)
    let locked := k.hasPerturb && n != 0 && (!s.perturbOpen || s.get R.PERTURB.CTRL_ARM == 0)
    s.regCmdBy o page 0x02C v locked legal false (fun t r => if k.hasPerturb then t.auditPerturb o page n r else t) id fun t =>
      if !k.hasPerturb then t
      else
        let t := if (t.namedBy n).isEmpty then t.setTrust fun x => { x with injected := x.injected.filter (·.1 != n) } else t
        t.put (H.POINT page) n

/-- A write of a header register; those read only ignore it. -/
def State.writeHeader (s : State) (o : Origin) (page off v : Nat) : State :=
  if off = 0x008 then s.writePageCtrl o page v
  else if off = 0x014 then s.writeMask o page v
  else if off = 0x018 then s.writeSticky o page v
  else if off = 0x020 then s.writeErrCode o page v
  else if off = 0x02C then s.writePerturbSel o page v
  else s.regCmd o page off v true false id id

/-! ### Plain fields -/

/-- A value lies in one of the legal ranges; an empty list allows every one. -/
def rangeOk (l : List (Nat × Nat)) (v : Nat) : Bool := l.isEmpty || l.any fun r => decide (r.1 ≤ v) && decide (v ≤ r.2)

/-- No field of the register carries a reserved encoding by its row (R42). -/
def rowsLegal (page off v : Nat) : Bool :=
  ((rowsOf page).filter (·.off == off)).all fun r => r.acc == .ro || rangeOk r.legal (field v r.lo r.w)

/-- The home of a field, a digest unit's by the origin's FEED_SEL (R441). -/
def State.fieldHome (s : State) (o : Origin) (page : Nat) (r : RegRow) : Fld :=
  if kindOf page = some .digest ∧ 0x050 ≤ r.off ∧ r.off < 0x0F0 then Fld.ofUnit ⟨page, r.off, r.lo, r.w⟩ (s.feedSel o)
  else homeOf o page r

/-- One field takes its part of a written value. -/
def State.putRow (s : State) (o : Origin) (page v : Nat) (r : RegRow) : State :=
  let f := s.fieldHome o page r
  let x := field v r.lo r.w
  match r.acc with
  | .rw => s.put f x
  | .wo => if perOrigin page r.off then s.put f x else s
  | .rw1c => s.put f (s.get f - (s.get f &&& x))
  | .ro => s

/-- The fields of a register take a written value, and the configuration record follows where it keeps one of them (R647). -/
def State.putRows (s : State) (o : Origin) (page off v : Nat) : State :=
  let rows := (rowsOf page).filter (·.off == off)
  let t := rows.foldl (fun t r => t.putRow o page v r) s
  if rows.any (·.cfg) then t.keepConfig else t

/-- A write of plain fields, with what more is reserved, what refuses it, and what follows it. -/
def State.writePlain (s : State) (o : Origin) (page off v : Nat) (locked legal busy : Bool) (deny after : State → State) : State :=
  s.regCmdBy o page off v locked (rowsLegal page off v && legal) busy
    (fun t r => t.auditWrite o page off v (t.word o page off) r) deny fun t => after (t.putRows o page off v)

/-! ### Registers with conditions of their own -/

/-- HOLDUP and LEE_RESERVE: written only with no take (R121). -/
def State.writeTakeCfg (s : State) (o : Origin) (off v : Nat) : State :=
  s.writePlain o 0x11 off v false (off != 0x048 || decide (v % 65536 ≤ s.installedGib / 2)) (s.get R.TAKE.TAKE_STATE_STATE != 0)
    (fun t => t.refuseBlock o 0x11 E.TAKE_BUSY (t.takeId % 2 ^ 32)) id

/-- LOW_WATER and TARGET (R123). -/
def State.writeFallow (s : State) (o : Origin) (off v : Nat) : State :=
  let ok := if off = 0x058 then decide (v < s.get R.FALLOW.TARGET_GB)
    else decide (s.get R.FALLOW.LOW_WATER_GB < v) && decide (1000 * v ≤ s.get R.MEDIA.USER_CAP_MB)
  s.writePlain o 0x61 off v false ok false id State.showPool

/-- A KEYSEL selector is legal (R128). -/
def selectorOk (v : Nat) : Bool :=
  let src := field v 0 8
  let idx := field v 8 12
  if src = 1 ∨ src = 2 then decide (idx < 256) else if src = 11 then decide (idx < 1024) else decide (src < 11) && idx == 0

/-- PIN_EDGE: two bits for each pin, 0b11 reserved (R151). -/
def edgesOk (v : Nat) : Bool := (List.range 3).all fun i => field v (2 * i) 2 != 3

/-- MAGNITUDE lies in the range of a KIND (R598). -/
def magOk (kind m : Nat) : Bool :=
  if kind = 3 then decide (m ≤ 24) else if kind = 4 then decide (1 ≤ m) && decide (m ≤ 8) else true

/-- A profile (R598, R600, R602): KIND and COUNT, or MAGNITUDE and PERIOD_MS, which a KIND other than 0 needs. Its audit entry is of
ACTION 0x0040 and has the values as the write gives them (R594; log entry 16). -/
def State.writeProfile (s : State) (o : Origin) (off v : Nat) : State :=
  let n := (off - 0x080) / 8 + 1
  let kind := s.get (R.PERTURB.PROFILE_A_KIND n)
  let ok := if off % 8 = 0 then decide (v % 16 ≤ 6) else magOk kind (v % 65536) && (kind == 0 || field v 16 16 != 0)
  s.regCmdBy o 9 off v false (rowsLegal 9 off v && ok) (!(s.namedBy n).isEmpty)
    (fun t r => (t.audit o (t.roleByte o) 0x0040 r ((t.putRows o 9 off v).perturbParam 9 n)).touch o)
    (fun t => t.refuseBlock o 9 E.PERTURB_BUSY (roleInfo o 0)) fun t => t.putRows o 9 off v

/-- PERTURB.CTRL (R600, R601): a KILL ends what an ARM of the same write would start. -/
def State.writePerturbCtrl (s : State) (o : Origin) (v : Nat) : State :=
  let arm := bitAt v 0
  if arm && !bitAt v 1 then outState s (execArm o s)
  else s.regCmdBy o 9 0x040 v (arm && !s.perturbOpen) true false (fun t r => t.auditWrite o 9 0x040 v (t.word o 9 0x040) r) id fun t =>
    if bitAt v 1 then t.endPerturb .kill else t.put R.PERTURB.CTRL_ARM 0

/-- A comparator's registers, its holder's to write (R615). -/
def State.writeAlarm (s : State) (o : Origin) (off v : Nat) : State :=
  s.writePlain o 4 off v (!s.holdsComparator o ((off - 0x060) / 16 + 1)) true false id id

/-- TRIM: the count so far stands at the old rate (R561). -/
def State.writeTrim (s : State) (o : Origin) (v : Nat) : State :=
  s.regCmd o 4 0x058 v (rowsLegal 4 0x058 v) false id fun t => t.rebaseRtc.putRows o 4 0x058 v

/-- A write that only commands something: with its bit clear it does nothing. -/
def State.onBit (s : State) (o : Origin) (page off v : Nat) (b : Bool) (act : State) : State :=
  if b then act else s.regCmd o page off v true false id id

/-- MODE_REQ: every write is a request (R572). -/
def State.writeModeReq (s : State) (o : Origin) (v : Nat) : State :=
  if v % 4 = 0 then outState s (execModeReqFold o s) else if v % 4 = 1 then outState s (execModeReqDoze o s)
  else s.regCmd o 2 0x044 v false false id id

/-- SAFE_CTRL (R548, R572). -/
def State.writeSafeCtrl (s : State) (o : Origin) (v : Nat) : State :=
  if v % 4 = 1 then outState s (execEnter o s) else if v % 4 = 2 then outState s (execExit o s)
  else s.regCmd o 2 0x048 v (v % 4 == 0) false id id

/-- Registers of the PWR page. -/
def State.writePwr (s : State) (o : Origin) (off v : Nat) : State :=
  if off = 0x044 then s.writeModeReq o v
  else if off = 0x048 then s.writeSafeCtrl o v
  else if off = 0x05C then s.onBit o 2 off v (bitAt v 0) (outState s (execKick o s))
  else if off = 0x060 then s.onBit o 2 off v (bitAt v 0) (outState s (execWarm o s))
  else if off = 0x09C then s.onBit o 2 off v (bitAt v 0) (outState s (execGo o s))
  else s.writePlain o 2 off v false true false id id

/-- Registers of the VREG page (R573). -/
def State.writeVreg (s : State) (o : Origin) (off v : Nat) : State :=
  if h : 0x088 ≤ off ∧ off % 16 = 8 ∧ (off - 0x088) / 16 < 8 then
    outState s (execSetMv o ⟨(off - 0x088) / 16, h.2.2⟩ (BitVec.ofNat 16 v) s)
  else s.writePlain o 3 off v false true false id id

/-- Registers of the RTC page (R561, R574, R615). -/
def State.writeRtc (s : State) (o : Origin) (off v : Nat) : State :=
  if off = 0x050 then s.onBit o 4 off v (bitAt v 0) (outState s (execRtcLoad o s))
  else if off = 0x058 then s.writeTrim o v
  else if 0x060 ≤ off then s.writeAlarm o off v
  else s.writePlain o 4 off v false true false id id

/-- AUTH_CTRL (R589, R602): comparators undisturbed (log entry 81). -/
def State.writeAuthCtrl (s : State) (o : Origin) (v : Nat) : State :=
  let role := field v 8 2
  if v % 256 = 1 then s.authCtrl o 1 role fun r t => t.stepChallenge o r
  else if v % 256 = 2 then s.authCtrl o 2 role fun r t => t.stepRespond o 0 0 r
  else if v % 256 = 4 then s.authCtrl o 4 role fun r t => t.stepDrop o r
  else s.regCmd o 6 0x040 v false false id id

/-- Registers of the DIGEST page (R437, R441): comparators undisturbed. -/
def State.writeDigest (s : State) (o : Origin) (off v : Nat) : State :=
  if off = 0x050 then s.writeFeedCtrl o v
  else if off = 0x058 then s.writeFeedWord o v
  else if off = 0x060 then s.writeLastWord o v 0 0
  else s.writePlain o 0x2A off v false true false id id

/-- Registers of a NAND channel's page (R202, R204): whether a retrain succeeds is free. -/
def State.writeNand (s : State) (o : Origin) (c off v : Nat) : State :=
  if off = 0x054 then let f := s.fresh; f.2.writeTrainCtrl o c v (f.1 % 2 == 0)
  else if off = 0x0A8 then s.writePwrCtrl o c v
  else s.writePlain o (nandPage c) off v false true false id id

/-! ### A write -/

/-- The write of a block's register, in full: the offset is the low one of a pair. -/
def State.writeBlock (s : State) (o : Origin) (page : Nat) (k : PageKind) (off v : Nat) : State :=
  let plain := s.writePlain o page off v false true false id id
  match k with
  | .gate => if off = 0x048 then s.writeLinkCtrl o v else plain
  | .take => if off = 0x044 ∨ off = 0x048 then s.writeTakeCfg o off v else plain
  | .fallow => if off = 0x058 ∨ off = 0x05C then s.writeFallow o off v else plain
  | .summ => s.writePlain o page off v false (decide (off < 0x100) || selectorOk v) false id id
  | .trig =>
    if off = 0x070 then s.writeSwFire o v else if off = 0x044 then s.writePlain o page off v false (edgesOk v) false id id else plain
  | .lane => if off = 0x044 then s.writeLaneCtrl o (page - 0x18) v else plain
  | .nand => s.writeNand o (page - 0x80) off v
  | .media => if off = 0x044 then s.writeMediaCtrl o v else plain
  | .array => if off = 0x048 then s.writeReshapeCtrl o v else if off = 0x04C then s.writeRetireCtrl o v else plain
  | .core => if h : off = 0x044 ∧ page - 0x100 < 72 then s.writeCoreCtrl o ⟨page - 0x100, h.2⟩ v else plain
  | .bank => if off = 0x040 then s.writeBankCfg o (page - 0x40) v else plain
  | .keyeng => if off = 0x044 then s.writeKeyCtrl o v else plain
  | .digest => s.writeDigest o off v
  | .hostq =>
    if off = 0x060 then s.writePlain o page off v false (!bitAt v 11 || s.get R.HOSTQ.PORT_CFG_MODE == 1) false id id else plain
  | .dram => if off = 0x074 then s.writeDramRetire o (page - 0xA0) v else plain
  | .pwr => s.writePwr o off v
  | .vreg => s.writeVreg o off v
  | .rtc => s.writeRtc o off v
  | .role => if off = 0x040 then s.writeAuthCtrl o v else plain
  | .perturb => if off = 0x040 then s.writePerturbCtrl o v else if 0x080 ≤ off then s.writeProfile o off v else plain
  | .fault => if off = 0x050 then s.writeConsume o v else plain
  | .share => if off = 0x060 then s.claim o (v % 8) (field v 3 2) (field v 5 8) else plain
  | .dev | .shears | .cluster | .earmark | .cipher | .entropy | .vf | .tenant | .xlate | .drove | .dramc | .clk | .otp | .audit => plain

/-- The write of a register, in full. -/
def State.writeReg (s : State) (o : Origin) (page off v : Nat) : State :=
  match kindOf page with
  | none => s
  | some k => if off < 0x040 then s.writeHeader o page off v else s.writeBlock o page k off v

/-- The origin's pending low word of a pair, written within the last microsecond (R47). -/
def State.pendingLow (s : State) (o : Origin) (page off : Nat) : Option Nat :=
  (s.lows.find? fun x => x.origin == o && x.page == page && x.off == off && decide (s.time ≤ x.time + 1000)).map (·.lo)

/-- A low word of a pair waits for its high word, if the origin may write the pair (R47, R645). -/
def State.holdLow (s : State) (o : Origin) (page off v : Nat) : State :=
  let rows := rowsAt page off
  let locked := kindOf page = some .rtc && decide (0x060 ≤ off) && !s.holdsComparator o ((off - 0x060) / 16 + 1)
  if rows.all (·.acc == .ro) then { s with refusal := none }
  else s.regCmdBy o page off v locked true false (fun t _ => t) id fun t => { t with lows := t.lows ++ [⟨o, page, off, v, t.time⟩] }

/-- A 32-bit write (R42-R47). A high word written alone commits the pair with its live low word: the low half of what the pair reads,
so 0 for FEED_WORD and LAST_WORD, which are write-only; a pair refused at its commit names its low word's offset in ERR_INFO (DESIGN
CHOICE, log entry 15). -/
def State.write32 (s : State) (o : Origin) (page off v : Nat) : State :=
  if !defined page off then (s.dropLow o page).refuseAccess o page off 3
  else if pairLow page off then (s.dropLow o page).holdLow o page off v
  else if pairHigh page off then
    let lo := (s.pendingLow o page (off - 4)).getD (s.viewReg o page (off - 4) % 2 ^ 32)
    (s.dropLow o page).writeReg o page (off - 4) (lo + v * 2 ^ 32)
  else (s.dropLow o page).writeReg o page off v

/-- A half of an 8-byte write that is not to a pair; the halves of R45 hold nothing pending. -/
def State.writeHalf (s : State) (o : Origin) (page off v : Nat) : State :=
  if !defined page off then s.refuseAccess o page off 3
  else if pairLow page off || pairHigh page off then { s with refusal := none }
  else s.writeReg o page off v

/-- The access has a legal width and alignment (R48). -/
def widthOk (off len : Nat) : Bool := (len == 4 && off % 4 == 0) || (len == 8 && off % 8 == 0)

/-- A register write, in the order of R645. An 8-byte write that is split under R45 is a write on the page like any other to a low word
that the origin holds pending, and a split read to its latch (DESIGN CHOICE, log entry 15). -/
def State.regWrite (s : State) (o : Origin) (page off len v : Nat) : State :=
  if !s.powered then s
  else if !s.reaches o page then s.noPage o off
  else if !widthOk off len then (s.dropLow o page).refuseAccess o page off 4
  else if len = 4 then s.write32 o page off (v % 2 ^ 32)
  else if pairLow page off then (s.dropLow o page).writeReg o page off v
  else ((s.dropLow o page).writeHalf o page off (v % 2 ^ 32)).writeHalf o page (off + 4) (v / 2 ^ 32)

/-! ### A read -/

/-- The 32 bits at an offset as the origin reads them now. -/
def State.viewWord (s : State) (o : Origin) (page off : Nat) : Nat :=
  if pairHigh page off then s.viewReg o page (off - 4) / 2 ^ 32 else s.viewReg o page off % 2 ^ 32

/-- The origin's latch for a high word (R46). -/
def State.latched (s : State) (o : Origin) (page off : Nat) : Option Nat :=
  (s.latches.find? fun x => x.origin == o && x.page == page && x.off + 4 == off && decide (s.time ≤ x.time + 1000)).map (·.hi)

/-- A register read, in the order of R645: the state after it, and what it returns (R45, R46, R48). -/
def State.regRead (s : State) (o : Origin) (page off len : Nat) : State × Nat :=
  let t := { s with latches := s.latches.filter fun x => !(x.origin == o && x.page == page) }
  if !s.powered || !s.reaches o page then (s, 0)
  else if !widthOk off len then (t.refuseAccess o page off 4, 0)
  else if len = 8 then
    (t, if pairLow page off then s.viewReg o page off else s.viewWord o page off + s.viewWord o page (off + 4) * 2 ^ 32)
  else if pairLow page off then
    let v := s.viewReg o page off
    ({ t with latches := t.latches ++ [⟨o, page, off, v / 2 ^ 32, s.time⟩] }, v % 2 ^ 32)
  else (t, (s.latched o page off).getD (s.viewWord o page off))

/-! ### Commands -/

/-- REGISTER_WRITE (R42-R48, R645). -/
def execRegisterWrite (o : Origin) (page off len : Nat) (v : BitVec 64) (s : State) : Out := .next (s.regWrite o page off len v.toNat)

/-- REGISTER_READ (R45, R46, R48, R645): what it returns is kept for the origin. -/
def execRegisterRead (o : Origin) (page off len : Nat) (s : State) : Out :=
  let r := s.regRead o page off len
  .next { r.1 with readData := assocSet r.1.readData o r.2 }

/-- ERR_CODE_CLEAR (R40). -/
def execErrCodeClear (o : Origin) (page : Nat) (s : State) : Out := .next (s.regWrite o page 0x020 4 (2 ^ 31))

/-- ENABLE_CLEAR (R38). -/
def execEnableClear (o : Origin) (page : Nat) (s : State) : Out := .next (s.regWrite o page 0x008 4 0)

/-- SOFT_RESET (R37, R38): ENABLE is written as it stands. -/
def execSoftReset (o : Origin) (page : Nat) (s : State) : Out := .next (s.regWrite o page 0x008 4 (2 + s.get (H.ENABLE page)))

/-- PERTURB_POINT_SELECT (R598, R600). -/
def execPerturbPointSelect (o : Origin) (page : Nat) (point : BitVec 8) (s : State) : Out := .next (s.regWrite o page 0x02C 4 point.toNat)

/-- PENDING_LOW_DISCARD (R47): 1 µs after it was written, the origin's oldest pending low word is discarded. -/
def execPendingLowDiscard (o : Origin) (s : State) : Out :=
  match s.lows.find? (·.origin == o) with
  | none => .next s
  | some x => .next { s with time := max s.time (x.time + 1000), lows := s.lows.filter (· != x) }

end Sys2Proof.Machine
end

