-- ==== Sys2Proof/Machine/Tunnel.lean ====
section
/-!
DEFINITION. Register requests as packets: the request and its answer (R83), what a request does, and the Gate control tunnel (R83-R85).
The Drove set forwards the same requests (R523).
-/

namespace Sys2Proof.Machine

/-- A request's answer: STATUS, ERR_CODE and DATA. -/
structure RegAnswer where
  /-- STATUS -/
  status : Nat
  /-- ERR_CODE -/
  err : Nat
  /-- DATA -/
  data : Nat
deriving DecidableEq, Repr

/-- Bytes 4-23 of a CTRL_REQ. -/
def reqBytes (p : CtrlReqPkt) : Bytes :=
  leBytes 2 p.tag.toNat ++ leBytes 1 p.op.toNat ++ [0] ++ leBytes 2 p.page.toNat ++ leBytes 2 p.offset.toNat ++ leBytes 8 p.data.toNat
    ++ leBytes 4 0

/-- Bytes 4-23 of a CTRL_RSP. -/
def rspBytes (tag : Nat) (a : RegAnswer) : Bytes :=
  leBytes 2 tag ++ leBytes 1 a.status ++ [0] ++ leBytes 2 a.err ++ leBytes 2 0 ++ leBytes 8 a.data ++ leBytes 4 0

/-- CTRL_RSP. -/
def answerPkt (tag : Nat) (a : RegAnswer) : Bytes := rspPkt tag a.status a.err a.data

/-- The request's access width in bytes. -/
def reqWidth (p : CtrlReqPkt) : Nat := if p.op.toNat < 2 then 4 else 8

/-- A bad request (R84): a reserved OP, a misaligned OFFSET, or one with bits 15..12 set. -/
def reqBad (p : CtrlReqPkt) : Bool :=
  decide (4 ≤ p.op.toNat) || decide (4096 ≤ p.offset.toNat) || p.offset.toNat % reqWidth p != 0

/-- A request is carried out under an origin (R83, R84): its answer and the state after. A 64-bit write over two separate registers
answers for its high half, which is written last (DESIGN CHOICE, log entry 15). -/
def State.runReq (s : State) (o : Origin) (p : CtrlReqPkt) : RegAnswer × State :=
  let page := p.page.toNat % 512
  let off := p.offset.toNat
  let s := { s with refusal := none }
  if reqBad p then (⟨2, 0, 0⟩, s)
  else if p.op.toNat % 2 = 0 then
    let r := s.regRead o page off (reqWidth p)
    (⟨0, 0, r.2⟩, r.1)
  else
    let t := s.regWrite o page off (reqWidth p) p.data.toNat
    match t.refusal with
    | some code => (⟨1, code, 0⟩, t)
    | none => (⟨0, 0, 0⟩, t)

/-- An answer leaves for the camera, unless the request brought the link down. -/
def State.answerReq (s : State) (tag : Nat) (a : RegAnswer) : State :=
  if s.gateActive || s.gateRetrain then s.send (answerPkt tag a) else s

/-- CTRL_REQ (R83-R85): a request that waits in the receive buffer is executed; one that a link-down has discarded is not there any
more (R58). -/
def execCtrlReq (p : CtrlReqPkt) (s : State) : Out :=
  let t := s.leaveRx (pktType · == 0x30)
  if !s.gate.rxBuf.any (pktType · == 0x30) then .next s
  else if !t.tunnelOpen then .next (((t.pulse 0x10 Ev.GATE.TUNNEL_REFUSED).record 0x10 E.GATE_TUNNEL_RIGHTS 0 0x1F1).answerReq p.tag.toNat ⟨4, 0, 0⟩)
  else if 16 ≤ t.gate.unanswered then .next (t.answerReq p.tag.toNat ⟨3, 0, 0⟩)
  else
    let r := t.runReq .gate p
    .next (r.2.answerReq p.tag.toNat r.1)

end Sys2Proof.Machine
end

