-- ==== Sys2Proof/Machine/DroveRun.lean ====
section
/-!
DEFINITION. Global operations of a Drove set (R513, R516, R519-R524): what a member does with an ORDER, how the manager runs one
operation at a time, mirrors it and completes it, and how SET SERVICE commands wait. Readings: log entry 80.
-/

namespace Sys2Proof.Machine

/-! ### At each member -/

/-- TAKE_OPEN bytes 4-31 (R72, R521). -/
def openOfParam (b : Bytes) : TakeOpenPkt :=
  let n := fun (o k : Nat) => leNat (sliceBytes b o k)
  { reqId := BitVec.ofNat 16 (n 0 2), tier := BitVec.ofNat 8 (n 2 1), kind := BitVec.ofNat 8 (n 3 1), rate := BitVec.ofNat 32 (n 4 4),
    minRatio := BitVec.ofNat 16 (n 8 2), streams := BitVec.ofNat 8 (n 10 1), effort := BitVec.ofNat 8 (n 11 1),
    pred := BitVec.ofNat 8 (n 12 1), flags := BitVec.ofNat 8 (n 13 1), digestAlg := BitVec.ofNat 8 (n 14 1),
    duration := BitVec.ofNat 32 (n 16 4), ringGib := BitVec.ofNat 32 (n 20 4) }

/-- The answer to an ORDER: STATUS, REASON, RESULT; none while a barrier's quiesce is awaited. -/
abbrev OpAnswer := Option (Nat × Nat × Bytes)

/-- Prepare of an armed start: admission, and the reservations of R94 (R521). -/
def State.prepareStart (s : State) (opId t : Nat) (param : Bytes) : OpAnswer × State :=
  let p := openOfParam param
  if s.get R.TAKE.TAKE_STATE_STATE ≠ 0 then (some (1, 0x10, []), s)
  else match s.admission p with
    | .refuse why => (some (1, why, []), s)
    | .grant rate d cap _ =>
      let why := grantReason p rate d
      if why ≠ 0 then (some (1, why, []), s)
      else
        let u := (s.setDrove fun x => { x with armed := some ⟨opId, t, false⟩ }).setTake fun x => { x with req := some p }
        let u := u.puts [(R.TAKE.TAKE_STATE_STATE, 1),
          (R.FALLOW.RESERVED_USER_MB, reservedMB p.tier.toNat rate p.minRatio.toNat d cap)]
        (some (0, 0, []), (u.reserveLanes (u.lowestLanes (ceilDiv rate 9600))).follow)

/-- The five values of a snapshot (R520). -/
def State.snapValues (s : State) : Bytes :=
  leBytes 8 s.host.catalog ++ leBytes 8 s.takeId ++ leBytes 8 (s.get R.TAKE.SECURED_LEN_BYTES)
    ++ leBytes 8 (s.get R.TAKE.FRAMES_SECURED_COUNT) ++ leBytes 8 s.time

/-- A barrier's local quiesce: every frame accepted before it is secured or answered, and the map journal up to it is durable (R520). -/
def State.quiesced (s : State) (uid seq : Nat) : Bool :=
  (s.take.frames.all fun f => decide (uid ≤ f.uid)) && (s.volatileRecs.all fun r => decide (seq ≤ r.seq))

/-- Carry out a phase of an operation here (R520-R522). -/
def State.actOrder (s : State) (opId op phase t : Nat) (param : Bytes) : OpAnswer × State :=
  let ok := fun (u : State) => ((some (0, 0, []), u) : OpAnswer × State)
  let mine := match s.drove.armed with | some a => a.opId == opId | none => false
  if op = 2 then
    if phase = 0 then s.prepareStart opId t param
    else if phase = 1 then
      if mine then ok (s.setDrove fun d => { d with armed := d.armed.map fun a => { a with committed := true } })
      else (some (1, 0, []), s)
    else ok (if mine then s.disarm else s)
  else if op = 3 then
    match s.drove.armed with
    | some a => ok (if a.opId = t then s.disarm else s)
    | none => ok s
  else if op = 4 then
    if s.quiesced s.take.nextUid s.media.seq then ok s
    else (none, s.setDrove fun d => { d with quiesce := some (opId, s.take.nextUid, s.media.seq) })
  else if op = 5 then (some (0, 0, s.snapValues), s)
  else if op = 6 ∨ op = 8 then
    ok (s.disarm.setDrove fun d => { d with offSince := none, faulted := false, role := if d.role = 0 then 0 else s.droveOtpRole })
  else (some (1, 0, []), s)

/-- An answer is given: it is remembered by OP_ID and PHASE, and counted (R520, R525). -/
def State.answer (s : State) (opId phase : Nat) (a : Nat × Nat × Bytes) : State :=
  (s.setDrove fun d =>
    { d with answered := ((opId, phase), leBytes 1 a.1 ++ leBytes 1 a.2.1 ++ a.2.2) :: d.answered }).bump R.DROVE.OPS_DONE_COUNT

/-- Send a member's answer to the manager along the shorter path (R519). -/
def State.sendReply (s : State) (opId : Nat) (a : Nat × Nat × Bytes) : State :=
  let d := s.drove
  s.setSend (d.portTo d.manager) (replyBytes d.src d.manager 31 d.epoch opId a.1 a.2.1 a.2.2)

/-! ### Completion at the issuer -/

/-- The admin command that waits for a locally issued operation. -/
def State.setCmd (s : State) (tag : Nat) : Option Cmd := (s.host.waiting.find? fun w => w.2 == .setOp tag).map (·.1)

/-- A SNAPSHOT's data for the host (R524). -/
def snapData (epoch opId marker configN : Nat) (rs : List OpReply) : Bytes :=
  leBytes 4 epoch ++ leBytes 4 opId ++ leBytes 8 marker ++ leBytes 16 0
    ++ (List.range configN).flatMap fun m =>
      match rs.find? (·.idx == m) with
      | some r => padTo 40 r.result ++ [1] ++ leBytes 7 0
      | none => leBytes 48 0

/-- A locally issued operation completes for the host, a SNAPSHOT with its data. -/
def State.completeSet (s : State) (tag status dw0 dw1 : Nat) (data : Bytes) : State :=
  match s.setCmd tag with
  | none => s
  | some c =>
    let t := s.setHost fun h => { h with waiting := h.waiting.filter fun w => w.2 != .setOp tag }
    let t := if data.isEmpty then t else t.toHost c.fn c.dptr data
    t.completeAdmin c status dw0 dw1

/-- A result for the member that issued an operation: one REPLY for each snapshot entry, then the last with status and dwords
(log entry 80). -/
def State.sendResult (s : State) (op : SetOp) (status dw0 dw1 : Nat) : State :=
  let d := s.drove
  let out := fun (t : State) (body : Bytes) (m more : Nat) =>
    t.setSend (d.portTo op.issuer) (replyBytes d.src op.issuer 31 d.epoch op.tag 0 0
      (padTo 40 body ++ leBytes 1 m ++ leBytes 1 more ++ leBytes 2 status))
  let parts := if op.op = 5 ∧ status = 0 then op.replies else []
  let t := parts.foldl (fun t r => out t r.result r.idx 1) s
  out t (leBytes 4 dw0 ++ leBytes 4 dw1 ++ leBytes 4 op.opId ++ leBytes 8 op.t) d.me 0

/-- An operation completes at the manager. -/
def State.finishOp (s : State) (op : SetOp) (status dw0 dw1 : Nat) : State :=
  if op.issuer = s.drove.me then
    s.completeSet op.tag status dw0 dw1
      (if op.op = 5 ∧ status = 0 then snapData s.drove.epoch op.opId op.t s.configN op.replies else [])
  else s.sendResult op status dw0 dw1

/-! ### At the manager -/

/-- Change the operation in progress. -/
def State.modCur (s : State) (f : SetOp → SetOp) : State := s.setDrove fun d => { d with cur := d.cur.map f }

/-- Send a MIRROR record for a change of the set state; none where no standby is eligible (R513): its MSEQ. -/
def State.mirror (s : State) : Option Nat × State :=
  match s.drove.standby with
  | none => (none, s)
  | some m =>
    let r := s.freshBytes 32
    let t := r.2
    let d := t.drove
    let n := d.mseq
    let t := t.setSend (d.portTo m) (mirrorBytes d.src m 31 d.epoch n (Config.mirrorVersion :: r.1))
    (some n, t.setDrove fun d => { d with mseq := (n + 1) % 2 ^ 32 })

/-- The ORDER of the operation's phase goes both ways (R519). -/
def State.broadcast (s : State) (op : SetOp) : State :=
  let d := s.drove
  let n := d.admitted
  let up := otherPort d.down
  let dist := fun (p : Port) => (d.live.filter fun x => x.viaA == isA p).length
  let ttl := if d.line then (dist d.down, dist up) else (n / 2, (n - 1) / 2)
  let pkt := fun (t : Nat) => orderBytes d.src 0xFF t d.epoch op.opId op.op op.phase op.t op.param
  (s.setSend d.down (pkt ttl.1)).setSend up (pkt ttl.2)

/-- Every live member and the manager itself have answered the phase. -/
def DroveSt.allAnswered (d : DroveSt) (op : SetOp) : Bool :=
  op.replies.any (·.idx == d.me) && d.live.all fun m => op.replies.any fun r => r.idx == m.idx

/-- The manager goes on by itself after a set reset: a new EPOCH, and the ring forms again (R522). -/
def State.reform (s : State) : State :=
  let t := (s.setEpoch (s.drove.epoch + 1)).setDrove fun d => { d with admitted := 1, starts := [] }
  t.announce

/-- Operations that wait behind a set reset complete with RESOURCE_HELD (R522). -/
def State.emptyQueue (s : State) : State :=
  s.drove.queue.foldl (fun t op => t.finishOp op Nv.held 0 0) (s.setDrove fun d => { d with queue := [] })

/-- The operation in progress ends. -/
def State.endCur (s : State) (op : SetOp) (status dw0 dw1 : Nat) : State :=
  (s.finishOp op status dw0 dw1).setDrove fun d => { d with cur := none }

/-- The operation's ORDER is sent and carried out here; none may run while the manager waits, takes over, or has its record not yet
mirrored (R513, R515, R516). -/
def State.launch (s : State) : State :=
  match s.drove.cur with
  | none => s
  | some op =>
    if op.sent || op.mirror.isSome || s.drove.taking || !s.drove.quorum || !s.drove.manages then s
    else
      let op := if op.op = 5 then { op with t := s.time } else op
      let t := (s.modCur fun _ => { op with sent := true }).broadcast op
      match t.actOrder op.opId op.op op.phase op.t op.param with
      | (none, u) => u
      | (some a, u) =>
        (u.answer op.opId op.phase a).modCur fun c =>
          { c with replies := c.replies ++ [⟨u.drove.me, a.1, a.2.1, a.2.2⟩],
                   refused := if a.1 = 0 then c.refused else some (c.refused.getD (u.drove.me, a.2.1)) }

/-- A phase has been answered by all: an armed start goes on to its commit or its cancel, anything else completes (R521-R523). -/
def State.phaseDone (s : State) : State :=
  match s.drove.cur with
  | none => s
  | some op =>
    if !op.sent || !s.drove.allAnswered op then s
    else if op.op = 2 then
      if op.phase = 0 then
        match op.refused with
        | none =>
          let m := s.mirror
          m.2.modCur fun c => { c with phase := 1, sent := false, mirror := m.1, replies := [] }
        | some _ => s.modCur fun c => { c with phase := 2, sent := false, replies := [] }
      else if op.phase = 1 then
        (s.setDrove fun d => { d with starts := (op.opId, op.t) :: d.starts }).endCur op Nv.ok op.opId 0
      else
        let r := op.refused.getD (0, 0)
        s.endCur op Nv.contract r.2 r.1
    else if op.op = 3 then (s.setDrove fun d => { d with starts := d.starts.filter (·.1 != op.t) }).endCur op Nv.ok 0 0
    else if op.op = 6 ∨ op.op = 8 then
      let t := (s.endCur op Nv.ok 0 0).emptyQueue
      if t.drove.manages then t.reform else t.setDrove fun d => { d with starts := [] }
    else s.endCur op Nv.ok 0 0

/-- The next operation in order of arrival begins (R520); a CANCEL after its start's T, or that names none, is a bad field. -/
def State.popSetOp (s : State) : State :=
  match s.drove.cur, s.drove.queue with
  | none, op :: rest =>
    if s.drove.taking || !s.drove.quorum || !s.drove.manages then s
    else
      let t := s.setDrove fun d => { d with queue := rest, cur := some op }
      if op.op = 3 ∧ !(s.drove.starts.any fun x => x.1 == op.t && decide (s.time < x.2)) then t.endCur op Nv.badField 0 0 else t
  | _, _ => s

/-- The manager goes on with its operations as far as it can. The fuel bounds the phases of those that need no other member. -/
def State.runOps : Nat → State → State
  | 0, s => s
  | f + 1, s => State.runOps f s.popSetOp.launch.phaseDone

/-- Operations the queue can hold, with three phases each. -/
def State.goOps (s : State) : State := State.runOps 30 s

/-- An operation reaches the manager (R520, R523): T in range, no more than 8 waiting, mirrored, then queued. -/
def State.offerOp (s : State) (op : SetOp) : State :=
  let d := s.drove
  let same := fun (x : SetOp) => x.issuer == op.issuer && x.tag == op.tag
  if d.queue.any same || (d.cur.map same).getD false then s
  else if op.op = 2 ∧ (op.t < s.time + 50000000 ∨ s.time + 3600000000000 < op.t) then s.finishOp op Nv.badField 0 0
  else if d.cur.isSome ∧ 8 ≤ d.queue.length then (s.finishOp op Nv.held 0 0).droveErr E.DROVE_BUSY op.issuer 0
  else
    let m := s.mirror
    let op := { op with opId := d.nextOp, mirror := m.1, sent := false, phase := 0, replies := [], refused := none }
    (m.2.setDrove fun d => { d with nextOp := (d.nextOp + 1) % 2 ^ 32, queue := d.queue ++ [op] }).goOps

/-- REG_REQ (R508). -/
def regReqBytes (src dst ttl : Nat) (body : Bytes) : Bytes := droveHeader 0x47 src 28 dst ttl ++ padTo 20 body

/-- REG_RSP (R508). -/
def regRspBytes (src dst ttl : Nat) (body : Bytes) : Bytes := droveHeader 0x48 src 28 dst ttl ++ padTo 20 body

/-- The request in the 20 bytes of a REG_REQ. -/
def reqOf (b : Bytes) : CtrlReqPkt :=
  let n := fun (o k : Nat) => leNat (sliceBytes b o k)
  ⟨BitVec.ofNat 16 (n 0 2), BitVec.ofNat 8 (n 2 1), BitVec.ofNat 16 (n 4 2), BitVec.ofNat 16 (n 6 2), BitVec.ofNat 64 (n 8 8)⟩

/-- An operation issued here is no longer waited for. -/
def State.dropHeld (s : State) (tag : Nat) : State := s.setDrove fun d => { d with held := d.held.filter (·.tag != tag) }

/-- A forwarded register access goes to its target once (R523): here at once, else as REG_REQ; one for a member that is not live is a
bad field (log entry 80). -/
def State.forwardAccess (s : State) (op : SetOp) : State :=
  let d := s.drove
  if op.sent then s
  else if op.t = d.me then
    let p := reqOf op.param
    let r := (s.dropHeld op.tag).runReq .setManager p
    r.2.completeSet op.tag Nv.ok 0 0 (answerPkt p.tag.toNat r.1)
  else if !d.live.any (·.idx == op.t) then (s.dropHeld op.tag).completeSet op.tag Nv.badField 0 0 []
  else
    (s.setDrove fun d => { d with held := d.held.map fun x => if x.tag == op.tag then { x with sent := true } else x }).setSend
      (d.portTo op.t) (regReqBytes d.src op.t 31 op.param)

/-- An operation issued here goes to the manager: to itself, or forwarded as an ORDER addressed to the manager under the issuer's own
number (R523; log entry 80); a register access to its target. Without quorum it waits. -/
def State.forwardOp (s : State) (op : SetOp) : State :=
  let d := s.drove
  if !d.quorum || d.member.isNone then s
  else if op.op = 7 then s.forwardAccess op
  else if d.manages then (s.dropHeld op.tag).offerOp { op with issuer := d.me }
  else s.setSend (d.portTo d.manager) (orderBytes d.src d.manager 31 d.epoch op.tag op.op 0 op.t op.param)

/-- Operations issued here and not complete go to the manager again: quorum is back, or the manager is a new one (R523). -/
def State.resumeHeld (s : State) : State := s.drove.held.foldl (fun t op => t.forwardOp op) s

/-- A device that no longer manages gives the operations it runs back to their issuers: its own wait for the new manager (R515). -/
def State.yieldOps (s : State) : State :=
  let d := s.drove
  let all := d.cur.toList ++ d.queue
  let mine := all.filter (·.issuer == d.me)
  let t := s.setDrove fun d => { d with cur := none, queue := [], starts := [], taking := false, admitted := 0 }
  mine.foldl (fun t op =>
    if op.op = 6 ∨ op.op = 8 then t.completeSet op.tag Nv.ok 0 0 []
    else t.setDrove fun d => { d with held := d.held ++ [op] }) t

/-! ### Liveness and quorum (R514, R516) -/

/-- Quorum follows the live members; operations go on when it returns. -/
def State.reQuorum (s : State) : State :=
  let d := s.drove
  let q := d.member.isSome && decide (s.configN < 2 * d.count)
  if q = d.quorum then s
  else if q then
    let t := s.setDrove fun d => { d with quorum := true, waiting := false }
    let t := if d.waiting then t.droveErr E.DROVE_QUORUM_REGAINED d.me 0 else t
    t.resumeHeld.goOps
  else
    ((s.setDrove fun d => { d with quorum := false, waiting := true }).pulse 0xC0 Ev.DROVE.NO_QUORUM).droveErr E.DROVE_NO_QUORUM d.me 0

/-- A takeover ends when every live member's heartbeat carries the new EPOCH (R515). -/
def State.endTaking (s : State) : State :=
  let d := s.drove
  if d.taking && d.live.all fun m => m.epoch == d.epoch then
    ((((s.setDrove fun d => { d with taking := false }).bump R.DROVE.FAILOVERS_COUNT).pulse 0xC0 Ev.DROVE.FAILOVER).droveErr
      E.DROVE_FAILOVER d.me 0).resumeHeld.goOps
  else s

/-- The standby takes the manager's place (R515): the next EPOCH, and FORM both ways. -/
def State.failover (s : State) : State :=
  let t := (s.setEpoch (s.drove.epoch + 1)).goLine
  let t := t.setDrove fun d =>
    { d with role := 1, manager := d.me, standby := none, taking := true, admitted := d.count, line := true, cur := none, queue := [] }
  (((t.endRolesOf .setManager .manager).sendForm .a).sendForm .b).endTaking

/-- The manager knows its standby: the live member whose active role it is (R512, R513). -/
def State.chooseStandby (s : State) : State :=
  if !s.drove.manages then s
  else
    let c := (s.drove.live.find? (·.role == 2)).map (·.idx)
    let t := s.setDrove fun d => { d with standby := if d.mirrorBad then none else c }
    if t.drove.standby.isNone then
      (t.setDrove fun d => { d with queue := d.queue.map fun o => { o with mirror := none }, cur := d.cur.map fun o => { o with mirror := none } }).goOps
    else t

end Sys2Proof.Machine
end

