-- ==== Sys2Proof/Machine/Drove.lean ====
section
/-!
DEFINITION. The Drove links, the packets of a set, its heartbeats and its time (R507-R518, R617). Readings: log entry 80.
-/

namespace Sys2Proof.Machine

/-! ### Links -/

/-- The device takes its OTP role when its first link comes up; the manager takes index 0 (R512). -/
def State.takeRole (s : State) : State :=
  if s.drove.role ≠ 0 then s
  else
    let r := s.droveOtpRole
    s.setDrove fun d => { d with role := r, member := if r = 1 then some 0 else d.member, manager := if r = 1 then 0 else d.manager }

/-- DROVE_LINK_UP (R507-R509, R512): a link trains and sends IDENT, or resumes after a retrain. -/
def execDroveLinkUp (p : Port) (s : State) : Out :=
  let l := s.drove.link p
  if s.droveOtpRole = 0 ∨ s.mode < 3 then .next s
  else if l.up then
    if !l.retraining then .next s
    else .next (s.modLink p fun l => { l with retraining := false, replays := 0, ackFrom := s.time }).droveDone
  else
    let t := s.takeRole
    let t := t.modLink p fun l => { DroveLink.down with up := true, peer := l.peer }
    .next (t.linkSend p (t.identPkt p)).droveDone

/-- A link leaves the set: the ring becomes a line (R511). -/
def State.linkLeft (s : State) (p : Port) : State :=
  if s.drove.member.isNone || s.drove.line then s
  else
    let t := s.goLine
    if t.drove.manages then t.announce else t.setSend (otherPort p) (t.formPkt t.drove.src (t.drove.me + 1) 31)

/-- DROVE_LINK_DOWN (R507, R511). -/
def execDroveLinkDown (p : Port) (s : State) : Out :=
  let l := s.drove.link p
  if !l.up then .next s
  else
    let t := s.modLink p fun l => { DroveLink.down with peer := l.peer }
    let t := (t.pulse 0xC0 Ev.DROVE.LINK_DOWN).droveErr E.DROVE_LINK_DOWN l.neighbour (s.drove.logical p)
    .next (if l.open_ then t.linkLeft p else t).droveDone

/-- LEN range of a Drove packet (R508). -/
def droveLen : Nat → Option (Nat × Nat)
  | 0x40 => some (48, 48) | 0x41 => some (24, 24) | 0x42 => some (32, 32) | 0x43 => some (32, 32) | 0x44 => some (64, 64)
  | 0x45 => some (64, 64) | 0x46 => some (16, 236) | 0x47 => some (28, 28) | 0x48 => some (28, 28) | _ => none

/-- A bad packet on a link (R508). -/
def State.droveBad (s : State) (p : Port) : State := s.droveErr E.DROVE_BAD_PACKET (s.drove.link p).neighbour (s.drove.logical p)

/-- One packet received: it takes a place in the link's buffer, unless it exceeds the credit granted (R66, R508). -/
def State.droveIn (s : State) (p : Port) (b : Bytes) : State :=
  if uncredited b then s.modLink p fun l => { l with rxBuf := l.rxBuf ++ [b] }
  else
    let l := s.drove.link p
    let t := s.modLink p fun l => { l with rxCtrl := l.rxCtrl + 1 }
    if l.rxCtrl < l.advCtrl then t.modLink p fun l => { l with rxBuf := l.rxBuf ++ [b] }
    else (t.modLink p fun l => { l with advCtrl := l.advCtrl + 1 }).droveBad p

/-- Receive the packets of a packet area in order. The fuel bounds their number. -/
def State.droveArea (p : Port) : Nat → State → Bytes → State
  | 0, s, _ => s
  | f + 1, s, a =>
    if a.length < 4 ∨ pktType a = 0 then s
    else
      let len := leNat (sliceBytes a 2 2)
      match droveLen (pktType a) with
      | none => s.droveBad p
      | some (lo, hi) =>
        if len < lo ∨ hi < len ∨ a.length < len then s.droveBad p
        else State.droveArea p f (s.droveIn p (a.take len)) (a.drop len)

/-- A flit is discarded and a NAK names the last good SEQ (R63). -/
def DroveLink.nak (l : DroveLink) : DroveLink := { l with nakked := true, ackOut := 2 }

/-- A replay of all unacknowledged flits: the fourth in a row without progress retrains the link (R64, R507). -/
def DroveLink.replayAll (l : DroveLink) (time : Nat) : DroveLink :=
  if l.replay.isEmpty then l else { l with replays := l.replays + 1, ackFrom := time, retraining := l.retraining || decide (3 ≤ l.replays) }

/-- The acknowledgement and the credit limit of a link area (R60, R63, R66): a NAK has the flits after it sent again. -/
def DroveLink.applyArea (l : DroveLink) (time ackt ackseq clCtrl : Nat) : DroveLink :=
  let left := if ackt = 0 then l.replay else ackReplay ackseq l.replay
  let moved := decide (left.length < l.replay.length)
  let m : DroveLink :=
    { l with replay := left, replays := if moved then 0 else l.replays, ackFrom := if moved then time else l.ackFrom,
             limCtrl := match l.limCtrl with
               | none => some clCtrl
               | some x => if (clCtrl + 256 - x) % 256 < 128 then some clCtrl else some x }
  if ackt = 2 then m.replayAll time else m

/-- DROVE_FLIT_RX (R507, R508). -/
def execDroveFlitRx (p : Port) (f : Flit) (s : State) : Out :=
  let l := s.drove.link p
  if !l.up || l.retraining then .next s
  else
    let link := f.link.toNat
    let ftype := bits link 10 2
    let ackt := bits link 22 2
    let lstate := bits link 48 2
    if !f.crcOk || decide (2 ≤ ftype) || ackt == 3 || decide (2 ≤ lstate) then .next (s.modLink p DroveLink.nak).droveDone
    else
      let t := s.modLink p fun l => l.applyArea s.time ackt (bits link 12 10) (bits link 40 8)
      let u :=
        if ftype = 1 then t
        else if bits link 0 10 = ((t.drove.link p).rxSeq + 1) % 1024 then
          let t := t.modLink p fun l => { l with rxSeq := bits link 0 10, nakked := false, ackOut := 1 }
          if (t.drove.link p).refusal = 0 then State.droveArea p 60 t f.area else t
        else if (t.drove.link p).nakked then t
        else t.modLink p DroveLink.nak
      .next (if lstate = 1 then u.modLink p fun l => { l with retraining := true } else u).droveDone

/-- DROVE_REPLAY_TIMEOUT (R64, R507): 2 µs without progress; the fourth replay in a row retrains the link. -/
def execDroveReplayTimeout (p : Port) (s : State) : Out :=
  let l := s.drove.link p
  if !l.up || l.retraining || l.replay.isEmpty then .next s
  else
    let t := { s with time := max s.time (l.ackFrom + 2000) }
    .next (t.modLink p fun l => l.replayAll t.time).droveDone

/-! ### Formation -/

/-- The link is refused and carries nothing further (R509). -/
def State.refuseLink (s : State) (p : Port) (why code member : Nat) : State :=
  (s.modLink p fun l => { l with refusal := why, txq := [], rxBuf := [] }).droveErr code member (s.drove.logical p)

/-- The manager has admitted CONFIG_N members, and this neighbour is none of those beside it (R509). -/
def State.setFull (s : State) (serial : Bytes) : Bool :=
  s.drove.manages && decide (s.configN ≤ s.drove.admitted) && s.drove.a.peer != some serial && s.drove.b.peer != some serial

/-- IDENT (R509, R512). -/
def execIdent (q : IdentPkt) (s : State) : Out :=
  let p := q.h.port
  let l := s.drove.link p
  let s := s.takePkt q.h 0x40
  if !l.up || l.refusal != 0 then .next s
  else
    let m := q.h.src.toNat
    if q.setId.toNat ≠ s.get R.DROVE.SET_ID_ID then
      .next ((s.refuseLink p 1 E.DROVE_FOREIGN m).pulse 0xC0 Ev.DROVE.FOREIGN).droveDone
    else if padTo 16 q.serial = padTo 16 s.serial then .next (s.refuseLink p 2 E.DROVE_LOOPBACK m).droveDone
    else if s.setFull q.serial then .next (s.refuseLink p 3 E.DROVE_TOO_MANY m).droveDone
    else
      let lost := s.drove.manages && s.droveOtpRole == 1 && q.role.toNat == 1 && decide (leNat s.serial < leNat q.serial)
      let t := if lost then
          (s.setDrove fun d => { d with role := 3, member := none, admitted := 0 }).droveErr E.DROVE_ROLE_CONFLICT m (s.drove.logical p)
        else s
      let t := t.modLink p fun l => { l with ident := true, peer := some q.serial, neighbour := if m < 32 then m else l.neighbour }
      let d := t.drove
      let u := if d.member.isNone then t
        else if d.manages then (if d.line || isA p then t.sendForm p else t)
        else if isA p != d.formA then t.resendForm p else t
      .next u.droveDone

/-- The manager's own FORM came round: the ring is whole (R510, R511). -/
def State.ringClosed (s : State) (next : Nat) (topology : Nat) : State :=
  if topology = 0 then
    ((s.setDrove fun d => { d with admitted := next, line := false }).pulse 0xC0 Ev.DROVE.FORMED).reQuorum
  else if s.drove.line then (s.setDrove fun d => { d with line := false }).announce
  else s

/-- A member takes a FORM's formation (R510-R512, R515). -/
def State.takeForm (s : State) (q : FormPkt) : State :=
  let d := s.drove
  let p := q.h.port
  let top := q.topology.toNat
  let mgr := q.manager.toNat % 32
  let changed := d.member.isSome && decide (d.manager ≠ mgr)
  let s := if d.manages then (s.setDrove fun d => { d with role := 2 }).yieldOps else s
  let s := if d.epoch < q.epoch.toNat then s.setEpoch q.epoch.toNat else s
  let s := if top = 1 then s.goLine else s.setDrove fun d => { d with line := false }
  let direct := decide (q.h.src = q.manager)
  let s := s.setDrove fun d =>
    { d with manager := mgr, standby := if q.standby.toNat < 32 then some q.standby.toNat else none,
             member := if d.member.isNone ∧ top = 0 then some (q.nextIndex.toNat % 32) else d.member,
             formHops := if direct then q.nextIndex.toNat % 32 else d.formHops, formA := if direct then isA p else d.formA }
  let s :=
    if top = 0 ∧ direct then
      let swap := isA p
      let new := swap && !s.drove.swapped
      let t := s.setDrove fun d => { d with swapped := swap }
      (if new then t.droveErr E.DROVE_SWAPPED t.drove.me 0 else t).pulse 0xC0 Ev.DROVE.FORMED
    else s
  let s := if changed then s.endRolesOf .setManager .manager else s
  if changed || decide (d.epoch < q.epoch.toNat) then s.resumeHeld else s

/-- The FORM a member sends on: the next index, a hop less (R508). -/
def State.formOn (s : State) (q : FormPkt) : State :=
  let h := q.h
  if h.ttl.toNat = 0 then s
  else s.setSend (otherPort h.port)
    (droveHeader 0x41 h.src.toNat 24 0xFF (h.ttl.toNat - 1) ++ leBytes 4 q.epoch.toNat ++ leBytes 1 (q.nextIndex.toNat + 1)
      ++ leBytes 1 q.manager.toNat ++ leBytes 1 q.standby.toNat ++ leBytes 1 q.configN.toNat ++ leBytes 4 q.live.toNat
      ++ leBytes 1 q.topology.toNat ++ leBytes 3 0)

/-- FORM (R510-R512, R515): a lower EPOCH is ignored. -/
def execForm (q : FormPkt) (s : State) : Out :=
  let d := s.drove
  let e := q.epoch.toNat
  let ok := s.heeds q.h
  let t := s.takePkt q.h 0x41
  if !ok || e < d.epoch then .next t.droveDone
  else if d.manages && e == d.epoch then
    if q.h.src.toNat = d.me ∧ q.manager.toNat = d.me then .next (t.ringClosed q.nextIndex.toNat q.topology.toNat).droveDone
    else if q.topology = 1 ∧ !d.line then .next (t.goLine.announce).droveDone
    else .next t.droveDone
  else if d.member.isNone ∧ q.topology = 0 ∧ s.configN ≤ q.nextIndex.toNat then
    .next (t.refuseLink q.h.port 3 E.DROVE_TOO_MANY q.h.src.toNat).droveDone
  else .next ((t.takeForm q).formOn q).droveDone

/-! ### Liveness -/

/-- DROVE_HEARTBEAT (R514-R516): its sender is live. -/
def execDroveHeartbeat (q : DroveHbPkt) (s : State) : Out :=
  let m := q.h.src.toNat
  let ok := s.heeds q.h
  let t := s.takePkt q.h 0x42
  if !ok || q.epoch.toNat < s.drove.epoch || 32 ≤ m || s.drove.member == some m then .next t.droveDone
  else
    let x : Member := ⟨m, s.time, q.epoch.toNat, q.role.toNat, q.flags.toNat, Int.ofNat q.dtime.toNat - Int.ofNat s.time, isA q.h.port⟩
    let t := t.setDrove fun d => { d with live := insertMember x (d.live.filter (·.idx != m)) }
    let t := t.passOn q.h fun ttl =>
      droveHeader 0x42 m 32 q.h.dst.toNat ttl ++ leBytes 4 q.epoch.toNat ++ leBytes 1 q.role.toNat ++ leBytes 1 q.flags.toNat
        ++ leBytes 2 0 ++ leBytes 4 q.live.toNat ++ leBytes 8 q.dtime.toNat ++ leBytes 4 0
    .next (t.reQuorum.endTaking.chooseStandby).droveDone
where
  /-- Members in ascending index. -/
  insertMember (x : Member) : List Member → List Member
    | [] => [x]
    | y :: ys => if x.idx < y.idx then x :: y :: ys else y :: insertMember x ys

/-- A barrier's answer goes out once its quiesce is reached (R520). -/
def State.endQuiesce (s : State) : State :=
  match s.drove.quiesce with
  | none => s
  | some (op, uid, seq) =>
    if !s.quiesced uid seq then s
    else
      let t := (s.setDrove fun d => { d with quiesce := none }).answer op 0 (0, 0, [])
      if t.drove.manages then
        (t.modCur fun c => if c.opId = op then { c with replies := c.replies ++ [⟨t.drove.me, 0, 0, []⟩] } else c).goOps
      else t.sendReply op (0, 0, [])

/-- DROVE_HEARTBEAT_TX (R514). -/
def execDroveHeartbeatTx (s : State) : Out :=
  if s.drove.member.isNone then .next s
  else
    let d := s.drove
    let n := s.configN
    let ttl := if d.line then (31, 31) else (n / 2, (n - 1) / 2)
    let t := (s.setSend d.down (s.droveHbPkt ttl.1)).setSend (otherPort d.down) (s.droveHbPkt ttl.2)
    .next t.endQuiesce.droveDone

/-- DROVE_MEMBER_TIMEOUT (R514-R516): 3 ms without a heartbeat from a member; the standby takes a lost manager's place. -/
def execDroveMemberTimeout (m : Fin 32) (s : State) : Out :=
  match s.drove.live.find? (·.idx == m.val) with
  | none => .next s
  | some x =>
    let t := { s with time := max s.time (x.heard + 3000000) }
    let t := t.setDrove fun d => { d with live := d.live.filter (·.idx != m.val), mirrorBad := d.mirrorBad && !(d.manages && d.standby.isNone && x.role == 2) }
    let mgr := decide (s.drove.manager = m.val) && !s.drove.manages
    let t := if mgr then t.bump R.DROVE.HB_MISSES_COUNT 3 else t
    let t := t.reQuorum.chooseStandby
    let t := if mgr && t.drove.role == 2 && t.drove.quorum && !t.drove.mirrorBad && t.drove.member.isSome then t.failover else t
    .next (t.endTaking.goOps).droveDone

/-! ### Set time -/

/-- DROVE_TIME_TX (R517). -/
def execDroveTimeTx (s : State) : Out :=
  let t := s.setSend .a (s.timePkt s.drove.a)
  .next (t.setSend .b (s.timePkt s.drove.b)).droveDone

/-- TIME (R517, R518): the link delay, and discipline by the neighbour on the shortest path to the manager. -/
def execTime (q : TimePkt) (s : State) : Out :=
  let p := q.h.port
  let ok := s.heeds q.h
  let t := s.takePkt q.h 0x43
  if !ok then .next t
  else
    let delay := if q.echo = 0 then (s.drove.link p).delay else ((s.time - q.echo.toNat) - q.hold.toNat) / 2
    let t := t.modLink p fun l =>
      { l with delay := delay, heard := some (q.dtime.toNat, s.time), neighbour := if q.h.src.toNat < 32 then q.h.src.toNat else l.neighbour }
    let d := t.drove
    if d.manages || d.member.isNone || !d.quorum || d.portTo d.manager != p then .next t.droveDone
    else .next (t.discipline (Int.ofNat (q.dtime.toNat + delay) - Int.ofNat s.time)).droveDone

/-- SYNC_IN_EDGE (R517, R617): a rising edge marks a whole second of the manager's DTIME. -/
def execSyncInEdge (rising : Bool) (s : State) : Out :=
  if !rising || !s.syncIn then .next s
  else
    let sec := (s.time + 500000000) / 1000000000 * 1000000000
    let t := s.discipline (Int.ofNat sec - Int.ofNat s.time)
    .next (t.setDrove fun d => { d with syncAt := some t.time }).showDrove

/-- SYNC_IN_LOSS (R617): 2 s without a rising edge. -/
def execSyncInLoss (s : State) : Out :=
  match s.drove.syncAt with
  | none => .next s
  | some t0 =>
    if !s.syncIn then .next s
    else
      let t := { s with time := max s.time (t0 + 2000000000) }.setDrove fun d => { d with syncAt := none, offset := 0, offSince := none }
      .next ((t.pulse 0xC0 Ev.DROVE.TIME_FAULT).droveErr E.DROVE_TIME_FAULT t.drove.me 0).showDrove

/-- DROVE_TIME_FAULT (R518): more than 100 µs off set time for 1 s. -/
def execDroveTimeFault (s : State) : Out :=
  match s.drove.offSince with
  | none => .next s
  | some t0 =>
    if s.drove.faulted then .next s
    else
      let t := { s with time := max s.time (t0 + 1000000000) }.setDrove fun d => { d with faulted := true }
      .next ((t.pulse 0xC0 Ev.DROVE.TIME_FAULT).droveErr E.DROVE_TIME_FAULT t.drove.me 0)

/-! ### Operations -/

/-- The manager answers a forwarded operation (R523): one addressed to it alone is a request of its sender. -/
def State.requested (s : State) (q : OrderPkt) : State :=
  s.offerOp { opId := 0, issuer := q.h.src.toNat % 32, tag := q.opId.toNat, op := q.op.toNat, phase := 0, t := q.t.toNat, param := q.param,
              since := s.time, mirror := none, sent := false, replies := [], refused := none }

/-- After a set reset the OTP manager takes over from a manager that failover had made (R522). -/
def State.takeOver (s : State) : State :=
  if s.drove.role ≠ 1 ∨ s.drove.manager = s.drove.me then s
  else
    let t := (s.setEpoch (s.drove.epoch + 1)).setDrove fun d =>
      { d with manager := d.me, standby := none, admitted := 1, cur := none, queue := [], starts := [] }
    (t.endRolesOf .setManager .manager).announce

/-- ORDER (R516, R519-R522). -/
def execOrder (q : OrderPkt) (s : State) : Out :=
  let d := s.drove
  let ok := s.heeds q.h
  let t := s.takePkt q.h 0x44
  if !ok || q.epoch.toNat < d.epoch then .next t.droveDone
  else
    let t := t.passOn q.h fun ttl =>
      orderBytes q.h.src.toNat q.h.dst.toNat ttl q.epoch.toNat q.opId.toNat q.op.toNat q.phase.toNat q.t.toNat q.param
    let mine := s.forMe q.h || (q.h.dst == 0xFF && d.member != some q.h.src.toNat)
    if !mine || d.member.isNone || !d.quorum then .next t.droveDone
    else if d.manages then .next (if s.forMe q.h then t.requested q else t).droveDone
    else
      let op := q.opId.toNat
      let ph := q.phase.toNat
      match assoc d.answered (op, ph) with
      | some r => .next (t.sendReply op ((r.getD 0 0).toNat, (r.getD 1 0).toNat, r.drop 2)).droveDone
      | none =>
        match t.actOrder op q.op.toNat ph q.t.toNat q.param with
        | (none, u) => .next u.droveDone
        | (some a, u) => .next ((u.answer op ph a).sendReply op a).takeOver.droveDone

/-- A member's answer reaches the manager: to a MIRROR, or to the operation in progress (R513, R520). -/
def State.replied (s : State) (q : ReplyPkt) : State :=
  let m := q.h.src.toNat
  let d := s.drove
  let n := q.opId.toNat
  if q.result.getD 43 0 = 0x46 then
    if d.standby ≠ some m then s
    else if q.status = 0 then
      let ack := fun (o : SetOp) => if o.mirror = some n then { o with mirror := none } else o
      (s.setDrove fun d => { d with queue := d.queue.map ack, cur := d.cur.map ack }).goOps
    else (s.setDrove fun d => { d with mirrorBad := true }).chooseStandby
  else
    (s.modCur fun c =>
      if c.opId ≠ n ∨ !c.sent ∨ c.replies.any (·.idx == m) then c
      else { c with replies := c.replies ++ [⟨m, q.status.toNat, q.reason.toNat, q.result⟩],
                    refused := if q.status = 0 then c.refused else some (c.refused.getD (m, q.reason.toNat)) }).goOps

/-- A result reaches the member that issued the operation (R523): a snapshot's entries come one by one, the last REPLY completes it. -/
def State.resulted (s : State) (q : ReplyPkt) : State :=
  let n := q.opId.toNat
  match s.drove.held.find? (·.tag == n) with
  | none => s
  | some op =>
    let f := fun (o k : Nat) => leNat (sliceBytes q.result o k)
    if f 41 1 = 1 then
      s.setDrove fun d => { d with held := d.held.map fun o =>
        if o.tag == n then { o with replies := o.replies ++ [⟨f 40 1, 0, 0, q.result.take 40⟩] } else o }
    else
      let t := s.setDrove fun d => { d with held := d.held.filter (·.tag != n) }
      let st := f 42 2
      t.completeSet n st (f 0 4) (f 4 4) (if op.op = 5 ∧ st = 0 then snapData q.epoch.toNat (f 8 4) (f 12 8) s.configN op.replies else [])

/-- REPLY (R519, R520, R523). -/
def execReply (q : ReplyPkt) (s : State) : Out :=
  let d := s.drove
  let ok := s.heeds q.h
  let t := s.takePkt q.h 0x45
  if !ok || q.epoch.toNat < d.epoch then .next t.droveDone
  else if !s.forMe q.h then
    .next (t.passOn q.h fun ttl =>
      replyBytes q.h.src.toNat q.h.dst.toNat ttl q.epoch.toNat q.opId.toNat q.status.toNat q.reason.toNat q.result).droveDone
  else .next (if d.manages then t.replied q else t.resulted q).droveDone

/-- MIRROR (R513): the standby takes the set state, or refuses a record of another version. -/
def execMirror (q : MirrorPkt) (s : State) : Out :=
  let d := s.drove
  let ok := s.heeds q.h
  let t := s.takePkt q.h 0x46
  if !ok || q.epoch.toNat < d.epoch then .next t.droveDone
  else if !s.forMe q.h then
    .next (t.passOn q.h fun ttl => mirrorBytes q.h.src.toNat q.h.dst.toNat ttl q.epoch.toNat q.mseq.toNat q.data).droveDone
  else
    let ack := fun (st : Nat) => (st, 0, List.replicate 43 (0 : Byte) ++ [0x46])
    let n := q.mseq.toNat
    if q.data.getD 0 0 = Config.mirrorVersion then
      .next ((t.setDrove fun d => { d with mirrorBad := false, setState := q.data, mseq := n + 1 }).sendReply n (ack 0)).droveDone
    else
      .next (((t.setDrove fun d => { d with mirrorBad := true }).droveErr E.DROVE_MIRROR_VERSION q.h.src.toNat 0).sendReply n (ack 1)).droveDone

/-- REG_REQ (R523): a forwarded access is carried out under the set manager's origin, and its answer goes back. -/
def execRegReq (q : RegReqPkt) (s : State) : Out :=
  let ok := s.heeds q.h
  let t := s.takePkt q.h 0x47
  if !ok then .next t.droveDone
  else if !s.forMe q.h then
    .next (t.passOn q.h fun ttl => regReqBytes q.h.src.toNat q.h.dst.toNat ttl (reqBytes q.req)).droveDone
  else
    let r := t.runReq .setManager q.req
    let d := r.2.drove
    .next (r.2.setSend (d.portTo q.h.src.toNat) (regRspBytes d.src q.h.src.toNat 31 (rspBytes q.req.tag.toNat r.1))).droveDone

/-- REG_RSP (R523): the access it answers completes, with the answer as its data. -/
def execRegRsp (q : RegRspPkt) (s : State) : Out :=
  let ok := s.heeds q.h
  let t := s.takePkt q.h 0x48
  let a : RegAnswer := ⟨q.status.toNat, q.err.toNat, q.data.toNat⟩
  if !ok then .next t.droveDone
  else if !s.forMe q.h then
    .next (t.passOn q.h fun ttl => regRspBytes q.h.src.toNat q.h.dst.toNat ttl (rspBytes q.tag.toNat a)).droveDone
  else match t.drove.held.find? fun x =>
      x.op == 7 && x.sent && x.t == q.h.src.toNat && (reqOf x.param).tag == q.tag with
    | none => .next t.droveDone
    | some x => .next ((t.dropHeld x.tag).completeSet x.tag Nv.ok 0 0 (answerPkt q.tag.toNat a)).droveDone

end Sys2Proof.Machine
end

