-- ==== Sys2Proof/Machine/DroveOps.lean ====
section
/-!
DEFINITION. SET SERVICE and the armed start (R513, R516, R520-R524).  Readings: log entry 80.
-/

namespace Sys2Proof.Machine

/-! ### STATUS (R524) -/

/-- The serial of a member as this device knows it: its own, its neighbours', else a free one. -/
def State.serialOf (s : State) (m : Nat) : Bytes × State :=
  let d := s.drove
  if m = d.me ∧ d.member.isSome then (padTo 16 s.serial, s)
  else match (if d.a.ident && d.a.neighbour == m then d.a.peer else none), (if d.b.ident && d.b.neighbour == m then d.b.peer else none) with
    | some x, _ => (padTo 16 x, s)
    | none, some x => (padTo 16 x, s)
    | none, none => s.freshBytes 16

/-- A member's entry of STATUS. What the device cannot know of another member, and the entry of one that is not live but for its
FLAGS and the reserved byte, is free. -/
def State.statusEntry (s : State) (m : Nat) : Bytes × State :=
  let d := s.drove
  let ser := s.serialOf m
  let entry := fun (serial : Bytes) (role flags hops : Nat) (off : Int) (t : Nat) =>
    padTo 16 serial ++ leBytes 1 role ++ leBytes 1 flags ++ leBytes 1 hops ++ [(0 : Byte)] ++ leBytes 4 (int32 off) ++ leBytes 8 t
  if m = d.me ∧ d.member.isSome then
    (entry ser.1 d.role (1 + 2 * b2n s.takeLive + 4 * b2n d.swapped) d.hops (-d.offset) s.time, ser.2)
  else match d.live.find? (·.idx == m) with
    | some x =>
      let f := ser.2.fresh
      let hops := if m = d.manager then 0 else if d.line then f.1 / 2 % 32 else (ringPath d.count m d.manager).1
      (entry ser.1 x.role (1 + 2 * (x.flags % 2) + 4 * (f.1 % 2)) hops x.offset (Int.ofNat s.time + x.offset).toNat, f.2)
    | none =>
      let r := s.freshBytes 32
      (overlay (overlay r.1 17 [0]) 19 [0], r.2)

/-- STATUS's 32 entries. -/
def State.statusEntries (s : State) : Bytes × State :=
  (List.range 32).foldl (fun (p : Bytes × State) m => let e := p.2.statusEntry m; (p.1 ++ e.1, e.2)) ([], s)

/-- STATUS's header. -/
def State.statusHeader (s : State) : Bytes :=
  let d := s.drove
  leBytes 8 (s.get R.DROVE.SET_ID_ID) ++ leBytes 4 d.epoch ++ leBytes 1 s.configN
    ++ leBytes 1 (if d.member.isSome then d.count else 0) ++ leBytes 1 d.manager ++ leBytes 1 (d.standby.getD 0xFF)
    ++ leBytes 1 (b2n d.line) ++ leBytes 1 (b2n d.quorum) ++ leBytes 14 0

/-- SET_SERVICE_STATUS (R523, R524). -/
def execSetServiceStatus (c : Cmd) (s : State) : Out :=
  if !s.adminReady c.fn then .next s
  else if !isPf c.fn then .next (s.completeAdmin c Nv.badOpcode)
  else
    let e := s.statusEntries
    .next (e.2.completeData c (e.2.statusHeader ++ e.1))

/-! ### Operations -/

/-- An operation is issued here: the admin command waits for its result (R523). -/
def State.issueOp (s : State) (c : Cmd) (op t : Nat) (param : Bytes) : State :=
  let tag := s.drove.nextTag
  let x : SetOp := { opId := 0, issuer := s.drove.me, tag := tag, op := op, phase := 0, t := t, param := param, since := s.time,
                     mirror := none, sent := false, replies := [], refused := none }
  let u := (s.setDrove fun d => { d with nextTag := (tag + 1) % 2 ^ 32, held := d.held ++ [x] }).await c (.setOp tag)
  (u.forwardOp x).droveDone

/-- A SET SERVICE action: on a PF, with the role it needs, audited where it needs one (R466, R523). -/
def State.setService (s : State) (c : Cmd) (action : Nat) (role : Option Role) (cdw12 cdw13 : Nat) (act : State → State) : State :=
  let o := Origin.pcie c.fn
  if !isPf c.fn then s.completeAdmin c Nv.badOpcode
  else match role with
    | none => act s
    | some r =>
      if !s.holds o r then s.completeAdmin c Nv.role else act (s.auditVendor o 0xC8 [action, 0, cdw12, cdw13] false)

/-- ARM_TAKE (R521, R523). -/
def execArmTake (c : Cmd) (t : BitVec 64) (data : Bytes) (s : State) : Out :=
  if !s.adminReady c.fn then .next s
  else
    .next (s.setService c 2 (some .operator) (t.toNat % 2 ^ 32) (t.toNat / 2 ^ 32) fun u =>
      if data.length ≠ 32 then u.completeAdmin c Nv.length else u.issueOp c 2 t.toNat (data.drop 4))

/-- CANCEL (R521, R523). -/
def execCancel (c : Cmd) (opId : BitVec 32) (s : State) : Out :=
  if !s.adminReady c.fn then .next s
  else .next (s.setService c 3 (some .operator) opId.toNat 0 fun u => u.issueOp c 3 opId.toNat [])

/-- BARRIER (R520, R523). -/
def execBarrier (c : Cmd) (s : State) : Out :=
  if !s.adminReady c.fn then .next s
  else .next (s.setService c 4 (some .operator) 0 0 fun u => u.issueOp c 4 0 [])

/-- SNAPSHOT (R520, R523, R524). -/
def execSnapshot (c : Cmd) (s : State) : Out :=
  if !s.adminReady c.fn then .next s
  else .next (s.setService c 5 none 0 0 fun u => u.issueOp c 5 0 [])

/-- SET_RESET (R522, R523). -/
def execSetReset (c : Cmd) (s : State) : Out :=
  if !s.adminReady c.fn then .next s
  else .next (s.setService c 6 (some .installer) 0 0 fun u => u.issueOp c 6 0 [])

/-- HANDBACK (R522, R523): a set reset that returns the roles in OTP. -/
def execHandback (c : Cmd) (s : State) : Out :=
  if !s.adminReady c.fn then .next s
  else .next (s.setService c 8 (some .installer) 0 0 fun u => u.issueOp c 8 0 [])

/-- REG_ACCESS (R523): a write needs the register's role at the issuing origin, and one that needs a role is audited here. -/
def execRegAccess (c : Cmd) (member : BitVec 8) (p : CtrlReqPkt) (s : State) : Out :=
  let o := Origin.pcie c.fn
  let need := if p.op.toNat % 2 = 1 ∧ reqBad p = false then needOf (rowsAt (p.page.toNat % 512) p.offset.toNat) else .none
  if !s.adminReady c.fn then .next s
  else if !isPf c.fn then .next (s.completeAdmin c Nv.badOpcode)
  else if !s.meets o need then .next (s.completeAdmin c Nv.role)
  else
    let t := if need = .none then s else s.auditVendor o 0xC8 [7 + member.toNat * 256, 0, 0, 0] false
    .next (t.issueOp c 7 member.toNat (reqBytes p))

/-- SET_SERVICE_TIMEOUT (R523): the oldest operation that waits for quorum reaches CAP.TO, 10 s (R451). -/
def execSetServiceTimeout (s : State) : Out :=
  match s.drove.held with
  | [] => .next s
  | op :: rest =>
    if s.drove.quorum then .next s
    else
      let t := { s with time := max s.time (op.since + 10000000000) }.setDrove fun d => { d with held := rest }
      .next (t.completeSet op.tag Nv.held 0 0 [])

/-! ### Armed starts -/

/-- ARMED_START (R521): at DTIME T a committed member sends TAKE_GRANT. -/
def execArmedStart (s : State) : Out :=
  match s.drove.armed, s.take.req with
  | some a, some p =>
    if !a.committed then .next s
    else
      let t := { s with time := max s.time a.t }.setDrove fun d => { d with armed := none }
      .next ((t.reserveLanes []).put R.FALLOW.RESERVED_USER_MB 0 |>.grantTake p)
  | _, _ => .next s

/-- DROVE_START_LOST (R521): a prepare without a commit at T − 10 ms. -/
def execDroveStartLost (s : State) : Out :=
  match s.drove.armed with
  | some a =>
    if a.committed then .next s
    else
      let t := { s with time := max s.time (a.t - 10000000) }.disarm
      .next ((t.pulse 0xC0 Ev.DROVE.START_LOST).droveErr E.DROVE_START_LOST t.drove.me 0)
  | none => .next s

end Sys2Proof.Machine
end

