-- ==== Sys2Proof/Machine/Frame.lean ====
section
/-!
DEFINITION. Frames of a take: their packets (R76-R81), the summary key (R124-R129), and the release of verified slices to the
container (R112-R115, R167).
-/

namespace Sys2Proof.Machine

/-- PIXFMT holds no reserved encoding (R76). -/
def pixfmtOk (v : Nat) : Bool :=
  let d := v % 8
  decide (d ≤ 4) && !(bitAt v 3 && (d == 0 || d == 4))

/-- A FRAME_BEGIN holds no reserved encoding (R76). -/
def beginLegal (p : FrameBeginPkt) : Bool :=
  p.declared.toNat != 0 && pixfmtOk p.pixfmt.toNat && p.width.toNat != 0 && p.height.toNat != 0

/-- A refused frame (R81). -/
def State.refuseBegin (s : State) (stream number code : Nat) : State :=
  let t := ((s.bump R.GATE.REFUSED_COUNT_COUNT).pulse 0x10 Ev.GATE.FRAME_REFUSED).gateErr code stream number
  (t.setTake fun x =>
    { x with refusing := if x.refusing.contains stream then x.refusing else x.refusing ++ [stream],
             acks := x.acks ++ [⟨none, stream, some (ackPkt stream number 1 0 0 0)⟩] }).flushAcks

/-- A frame that arrives after a window it lies in has sealed (R144). -/
def State.lateFrames (s : State) (capture : Nat) : State :=
  (List.range 64).foldl (fun t i =>
    let w := t.win i
    if (w.state = 2 ∨ w.state = 3) ∧ w.ring = t.takeId ∧ w.start ≤ capture ∧ capture < w.fin then
      ((t.modWin i fun w => { w with late := true }).pulse 0x13 Ev.TRIG.LATE_FRAME).trigErr E.TRIG_LATE_FRAME w.source (some i)
    else t) s

/-- An accepted FRAME_BEGIN opens a frame (R76, R81). -/
def State.beginFrame (s : State) (p : FrameBeginPkt) : State :=
  let st := p.stream.toNat
  let n := p.number.toNat
  let order := match assoc s.take.lastNumber st with | some l => decide (n ≤ l) | none => false
  let uid := s.take.nextUid
  let f : FrameSt :=
    { uid := uid, stream := st, number := n, capture := p.capture.toNat, declared := p.declared.toNat, pixfmt := p.pixfmt.toNat % 16,
      width := p.width.toNat, height := p.height.toNat, cfa := p.cfa.toNat % 8, bytes := [], recv := 0,
      marks := if order then 8 else 0, status := 0, metaMem := [], metaLen := 0, crc := 0, ended := false, queued := 0, released := 0,
      relRaw := 0, key := none, ruled := false, firstRec := none, recOff := 0, recEnd := 0 }
  let t := s.setTake fun x =>
    { x with frames := x.frames ++ [f], nextUid := uid + 1, lastNumber := assocSet x.lastNumber st n,
             refusing := x.refusing.filter (· != st), acks := x.acks ++ [⟨some uid, st, none⟩] }
  let t := if order then (t.pulse 0x10 Ev.GATE.FRAME_ORDER).gateErr E.GATE_FRAME_ORDER st n else t
  (t.lateFrames p.capture.toNat).showStreams

/-- FRAME_BEGIN (R76, R81). ERR_INFO of GATE_END_MISSING carries the number of the frame that ends, not of the one that begins (DESIGN
CHOICE, log entry 24). -/
def execFrameBegin (p : FrameBeginPkt) (s : State) : Out :=
  let st := p.stream.toNat
  let n := p.number.toNat
  let s := s.leaveRx fun b => pktType b == 0x10 && (b.getD 1 0).toNat % 8 == st
  let t := match s.openFrame st with
    | some f => ((s.pulse 0x10 Ev.GATE.END_MISSING).gateErr E.GATE_END_MISSING st f.number).endFrame f 0 none false
    | none => s.setTake fun x => { x with refusing := x.refusing.filter (· != st) }
  match t.take.c with
  | some c =>
    if !t.takeLive then .next (t.refuseBegin st n E.GATE_NO_TAKE)
    else if !bitAt c.streams st || !beginLegal p then .next (t.refuseBegin st n E.GATE_BAD_FORMAT)
    else .next (t.beginFrame p)
  | none => .next (t.refuseBegin st n E.GATE_NO_TAKE)

/-- A frame packet on a stream with no open frame (R81). -/
def State.noFrame (s : State) (stream number : Nat) : State :=
  if s.take.refusing.contains stream then s else s.gateErr E.GATE_NO_FRAME stream number

/-- FRAME_DATA (R77, R81, R159). -/
def execFrameData (p : FrameDataPkt) (s : State) : Out :=
  let st := p.stream.toNat
  let s := s.leaveRx fun b => pktType b == 0x11 && (b.getD 1 0).toNat % 8 == st
  match s.openFrame st with
  | none => .next (s.noFrame st p.fnumLo.toNat)
  | some f =>
    if p.offset.toNat ≠ f.recv ∨ p.fnumLo.toNat ≠ f.number % 65536 then
      .next (((s.modFrame f.uid fun g => { g with marks := mark g.marks 2 }).pulse 0x10 Ev.GATE.FRAME_OFFSET).gateErr
        E.GATE_FRAME_OFFSET st f.number)
    else
      let acc := p.payload.take (f.declared - f.recv)
      let t := s.modFrame f.uid fun g => { g with bytes := g.bytes ++ acc, recv := g.recv + p.payload.length }
      let t := (t.bump R.GATE.PAYLOAD_RX_BYTES acc.length).setTake fun x => { x with ratioRaw := x.ratioRaw + acc.length }
      match t.frame? f.uid with
      | some g => .next (t.queueSlices g.uid (wholeSlices g))
      | none => .next t

/-- FRAME_END (R78, R81). -/
def execFrameEnd (p : FrameEndPkt) (s : State) : Out :=
  let st := p.stream.toNat
  let s := s.leaveRx fun b => pktType b == 0x12 && (b.getD 1 0).toNat % 8 == st
  match s.openFrame st with
  | none => .next ((s.noFrame st p.number.toNat).setTake fun x => { x with refusing := x.refusing.filter (· != st) })
  | some f =>
    let bad := p.number.toNat != f.number || decide (2 < p.status.toNat)
    .next (s.endFrame f p.status.toNat (if bitAt p.flags.toNat 0 then some p.crc.toNat else none) bad)

/-- META (R79). It carries no frame number, so GATE_NO_FRAME records 0 for it (DESIGN CHOICE, log entry 24). -/
def execMetaPacket (p : MetaPkt) (s : State) : Out :=
  let st := p.stream.toNat
  let off := p.offset.toNat
  let s := s.leaveRx fun b => pktType b == 0x18 && (b.getD 1 0).toNat % 8 == st
  match s.openFrame st with
  | none => .next (s.noFrame st 0)
  | some f =>
    let kept := p.data.take (4096 - off)
    let t := s.modFrame f.uid fun g =>
      { g with metaMem := memWriteN g.metaMem off kept, metaLen := if kept.isEmpty then g.metaLen else max g.metaLen (off + kept.length) }
    if kept.length < p.data.length then .next ((t.pulse 0x10 Ev.GATE.META_LONG).gateErr E.GATE_META_LONG st f.number)
    else .next t

/-- The page shows the last summary (R150). -/
def State.showSummary (s : State) (f : FrameSt) (key : List Nat) : State :=
  (List.range 8).foldl (fun t j => t.put (R.SUMM.LAST_KEY_WORD j) (key.getD j 0))
    ((s.bump R.SUMM.FRAMES_COUNT).puts [(R.SUMM.LAST_FRAME_NUMBER, f.number), (R.SUMM.LAST_STREAM_STREAM, f.stream)])

/-- SUMMARY_KEY_COMPLETE (R127-R129, R150): the key of an ended frame; its SUMMARY record follows once its slices are out. -/
def execSummaryKeyComplete (uid : Nat) (s : State) : Out :=
  match s.frame? uid with
  | some f =>
    if !f.ended || f.key.isSome then .next s
    else
      let st := frameStats f.pixfmt f.width f.height f.bytes
      let key := summaryKey st (summaryInput f) (s.take.keysel.getD f.stream [])
      let t := (s.modFrame uid fun g => { g with key := some key }).showSummary f key
      let t := if st.flags % 4 = 0 then t
        else ((t.bump R.SUMM.GEOMETRY_COUNT_COUNT).pulse 0x12 Ev.SUMM.GEOMETRY).record 0x12 E.SUMM_GEOMETRY
          (frameInfo f.stream f.number + st.flags % 4 * 2 ^ 19) 0x1F1 f.number
      .next (t.finishFrame uid).settle
  | none => .next s

/-- The frames whose records may come next: the first of each stream without its FRAME record (R115). -/
def State.headFrames (s : State) : List FrameSt :=
  let open_ := s.take.frames.filter (·.recEnd == 0)
  open_.filter fun f => (open_.find? (·.stream == f.stream)).map (·.uid) == some f.uid

/-- The next slice of a frame, if it is verified or lost. -/
def State.nextSlice (s : State) (f : FrameSt) : Option TakeSlice :=
  s.take.slices.find? fun x => x.uid == f.uid && x.idx == f.released && (x.status == .verified || x.status == .lost)

/-- A slice's SLICE record goes to the container (R114, R167), and the windows that take its frame pin it (R143). -/
def State.releaseSlice (s : State) (c : Contract) (f : FrameSt) (x : TakeSlice) : State :=
  let last := f.ended && x.idx + 1 == f.queued
  let t := if s.indexDue then s.appendIndex c else s
  let off := t.take.cont.length
  let t := t.appendRaw (sliceRecord c f x last)
  let t := t.setTake fun k => { k with slices := k.slices.filter fun z => !(z.uid == x.uid && z.idx == x.idx) }
  let t := t.modFrame f.uid fun g =>
    { g with released := g.released + 1, relRaw := g.relRaw + x.raw.raw.length, firstRec := some (g.firstRec.getD off) }
  match c.kind, t.frame? f.uid with
  | 1, some g => (List.range 64).foldl (fun t i => t.pinArriving i g) t
  | _, _ => t

/-- SLICE_RELEASE (R115, R116, R131, R167): the first verified slice whose turn it is. -/
def execSliceRelease (s : State) : Out :=
  match s.take.c with
  | none => .next s
  | some c =>
    match s.headFrames.findSome? fun f => (s.nextSlice f).map fun x => (f, x) with
    | none => .next s
    | some (f, x) => .next ((s.releaseSlice c f x).finishFrame f.uid).settle

end Sys2Proof.Machine
end

