-- ==== Sys2Proof/Machine/Identify.lean ====
section
/-!
DEFINITION. Identify (R213, R219, R245, R251, R450-R453): the values that the spec states stand at the offsets of the NVM Express data
structures (log entry 40); every other byte is free.
-/

namespace Sys2Proof.Machine

/-- Write fields of an offset and bytes over a buffer. -/
def overlays (b : Bytes) (fs : List (Nat × Bytes)) : Bytes := fs.foldl (fun x f => overlay x f.1 f.2) b

/-- Bytes in use by a namespace in LBAs: NUSE (R119), of a block namespace the LBAs that hold data. -/
def State.nuseOf (s : State) (n : Ns) : Nat :=
  match n.kind with
  | .block => (s.media.image.map.filter fun x => x.1.1 == n.nsid && (match x.2 with | .mapped .. => true | .zeroes _ => false)).length
  | _ => n.nuse

/-- NCAP of a namespace (R119, R213). -/
def Ns.ncap (n : Ns) : Nat := n.nsze

/-- Identify Namespace: NSZE, NCAP, NUSE, one LBA format of 4,096 bytes without metadata or protection, DLFEAT 0 (R119, R211, R251,
R453). -/
def State.identifyNs (s : State) (n : Ns) : Bytes × State :=
  let r := s.freshBytes 4096
  (overlays r.1 [(0, leBytes 8 n.nsze), (8, leBytes 8 n.ncap), (16, leBytes 8 (s.nuseOf n)), (25, leBytes 1 0), (26, leBytes 1 0),
    (28, leBytes 1 0), (29, leBytes 1 0), (33, leBytes 1 0), (128, leBytes 2 0 ++ leBytes 1 12)], r.2)

/-- Controller identifier: its FUNC. -/
def ctrlId (fn : Nat) : Nat := fn

/-- Identify Controller (R450, R451): serial, MDTS 14, version 2.0, optional commands, ACL 3, AERL 7, FRMW with two slots, neither
read-only, and activation without reset, ELPE 255, total and unallocated capacity, NN, VWC 0. -/
def State.identifyCtrl (s : State) (fn : Nat) : Bytes × State :=
  let r := s.freshBytes 4096
  let mb := fun (v : Nat) => leBytes 16 (v * 1000000)
  (overlays r.1 [(4, padTo 20 s.serial), (77, leBytes 1 14), (78, leBytes 2 (ctrlId fn)), (80, leBytes 4 0x00020000),
    (256, leBytes 2 0x000F), (258, leBytes 1 3), (259, leBytes 1 7), (260, leBytes 1 0x14), (262, leBytes 1 255),
    (280, mb (s.get R.MEDIA.MAXCAP_MB)), (296, mb s.freeUserMB), (516, leBytes 4 0x0002FFFF), (520, leBytes 2 0x008D), (525, leBytes 1 0)],
    r.2)

/-- A list of 4-byte NSIDs above a given one, ascending (1,024 places). -/
def nsidList (l : List Nat) (above : Nat) : Bytes :=
  padTo 4096 (((((l.filter fun n => decide (above < n)).foldl insertSorted []).take 1024)).flatMap (leBytes 4))

/-- A list of 2-byte controller identifiers from a given one, ascending (2,047 places). -/
def ctrlList (l : List Nat) (from_ : Nat) : Bytes :=
  let x := ((l.filter fun n => decide (from_ ≤ n)).foldl insertSorted []).take 2047
  padTo 4096 (leBytes 2 x.length ++ x.flatMap (leBytes 2))

/-- A namespace that a controller may name: any for a PF, an attached one for a VF (R493). -/
def State.seesNs (s : State) (fn nsid : Nat) : Option Ns :=
  (s.nsOf nsid).filter fun n => isPf fn || n.attached.contains fn

/-- IDENTIFY (R451). -/
def execIdentify (c : Cmd) (cns cntid : Nat) (s : State) : Out :=
  let mine := (s.ns.filter (·.attached.contains c.fn)).map (·.nsid)
  let all := if isPf c.fn then s.ns.map (·.nsid) else mine
  let ns := fun (active : Bool) =>
    match s.seesNs c.fn c.nsid with
    | none => s.completeAdmin c Nv.badNs
    | some n =>
      if active && !n.attached.contains c.fn then s.completeData c (List.replicate 4096 0)
      else let r := s.identifyNs n; r.2.completeData c r.1
  if !s.adminReady c.fn then .next s
  else if cns = 0x00 then .next (ns true)
  else if cns = 0x01 then let r := s.identifyCtrl c.fn; .next (r.2.completeData c r.1)
  else if cns = 0x02 then .next (s.completeData c (nsidList mine c.nsid))
  else if cns = 0x10 then .next (s.completeData c (nsidList all c.nsid))
  else if cns = 0x11 then .next (ns false)
  else if cns = 0x12 then
    match s.seesNs c.fn c.nsid with
    | none => .next (s.completeAdmin c Nv.badNs)
    | some n => .next (s.completeData c (ctrlList (n.attached.map ctrlId) cntid))
  else if cns = 0x13 then .next (s.completeData c (ctrlList (s.tenant.fns.map fun f => ctrlId f.p.func) cntid))
  else if ([0x03, 0x05, 0x06, 0x07, 0x08, 0x1C] : List Nat).contains cns then
    let r := s.freshBytes 4096
    .next (r.2.completeData c r.1)
  else .next (s.completeAdmin c Nv.badField)

end Sys2Proof.Machine
end

