-- ==== Sys2Proof/Machine/LogPages.lean ====
section
/-!
DEFINITION. Log pages (R462, R463, R479-R482, R552, R597, R612) and the command that reads them. The layouts of the standard pages are
in log entry 40.
-/

namespace Sys2Proof.Machine

/-- Fields of 8 bytes each, one after another. -/
def qwords (l : List Nat) : Bytes := l.flatMap (leBytes 8)

/-! ### Standard pages -/

/-- An Error Information entry. -/
def ErrInfo.bytes (e : ErrInfo) : Bytes :=
  padTo 64 (leBytes 8 e.count ++ leBytes 2 e.sq ++ leBytes 2 e.cid ++ leBytes 2 (2 * e.status) ++ leBytes 2 0 ++ leBytes 8 e.lba
    ++ leBytes 4 e.nsid)

/-- Error Information (R462): ELPE + 1 = 256 entries of the controller, newest first (R451). -/
def State.errorPage (s : State) (fn : Nat) : Bytes :=
  padTo (64 * 256) (((s.host.errInfo.filter (·.fn == fn)).take 256).flatMap ErrInfo.bytes)

/-- SMART / Health Information: the spare and read-only warnings and the available spare, by what the MEDIA page shows; the rest is
free. -/
def State.smartPage (s : State) : Bytes × State :=
  let r := s.freshBytes 512
  let low := decide (s.freeSpare < s.get R.MEDIA.SPARE_LOW_GB)
  let warn := b2n low + 8 * b2n (s.bit R.MEDIA.MEDIA_STATUS_READ_ONLY)
  (overlay (overlay r.1 0 (leBytes 1 warn)) 3 (leBytes 1 (min 100 (100 * s.freeSpare / max 1 (s.get R.MEDIA.SPARE_TOTAL_GB)))), r.2)

/-- Firmware Slot Information: the slot that the next reset activates; which one runs, and revisions, are free. -/
def State.slotPage (s : State) : Bytes × State :=
  let r := s.freshBytes 512
  let act := (r.1.headD 0).toNat % 8
  (overlay r.1 0 (leBytes 1 (act + (s.pwr.fw.nextSlot.getD 0) % 8 * 16)), r.2)

/-- Changed Namespace List of a controller. -/
def State.changedPage (s : State) (fn : Nat) : Bytes :=
  let l := ((s.host.changed.filter (·.1 == fn)).map (·.2)).foldl insertSorted []
  padTo 4096 (if 1024 < l.length then leBytes 4 0xFFFFFFFF else l.flatMap (leBytes 4))

/-! ### Vendor pages -/

/-- HEALTH AND ARRAY (R480). -/
def State.healthPage (s : State) : Bytes :=
  padTo 512 (leBytes 1 s.arrayState ++ leBytes 1 s.mode ++ leBytes 2 s.array.lost.length ++ leBytes 1 s.lostChannels ++ leBytes 3 0
    ++ qwords [s.degraded.length, s.critical.length, s.array.owed.length, s.get R.MEDIA.USER_CAP_MB, s.get R.MEDIA.MAXCAP_MB,
      s.allocatedMB, s.validMB, s.get R.MEDIA.SPARE_TOTAL_GB, s.get R.MEDIA.SPARE_USED_GB, s.poolUser]
    ++ leBytes 2 s.peStats.1 ++ leBytes 2 s.peStats.2 ++ leBytes 2 (s.get R.SHEARS.LANES_LIVE_MASK)
    ++ leBytes 1 (s.get R.CIPHER.PIPES_LIVE) ++ leBytes 1 (s.get R.DRAMC.LIVE_MASK) ++ qwords [s.get R.DIGEST.UNITS_LIVE_MASK, s.time])

/-- FROZEN QUEUES (R481). -/
def State.frozenPage (s : State) (fn : Nat) : Bytes :=
  let rows := (s.host.sqs.filter (·.fn == fn)).filterMap fun q => q.frozen.map fun f =>
    let left := (s.host.cmds.filter fun h => h.x.fn == fn && h.x.sq == q.qid && h.phase != .locked).length
    leBytes 2 q.qid ++ leBytes 2 f.1 ++ leBytes 2 f.2.1 ++ leBytes 2 left ++ leBytes 8 f.2.2
  leBytes 2 rows.length ++ leBytes 6 0 ++ leBytes 8 s.time ++ rows.flatten

/-- An entry of the take catalog (R482); the container of the open take is as long as it is now. -/
def State.catalogEntry (s : State) (n : Ns) (k : TakeInfo) : Bytes :=
  let live := match s.take.c with | some c => c.nsid == n.nsid | none => false
  let st := if k.opened then (if k.kind = 2 then 2 else 0) else if k.incomplete then 3 else 1
  let nums := if live then [s.take.cont.length, s.take.framesStored, s.take.marked] else [k.bytes, k.frames, k.marked]
  leBytes 8 k.takeId ++ leBytes 4 n.nsid ++ leBytes 1 st ++ leBytes 1 (b2n (k.kind == 1) + 2 * b2n (k.kind == 2) + 4 * (k.flags % 8))
    ++ leBytes 1 (if k.opened then 0xFF else k.reason) ++ [0] ++ qwords ([k.parent, k.start] ++ nums ++ [0])

/-- TAKE CATALOG (R482): the takes attached to the controller. -/
def State.catalogPage (s : State) (fn : Nat) : Bytes :=
  let rows := (s.ns.filter (·.attached.contains fn)).filterMap fun n => n.tk.map (s.catalogEntry n)
  leBytes 4 rows.length ++ leBytes 4 0 ++ leBytes 8 s.host.catalog ++ rows.flatten

/-- Totals of one mode (R552): whole seconds, whole joules. -/
def State.modeAcct (s : State) (m : Nat) : Bytes :=
  let a := s.pwr.acct.getD m ⟨0, 0, 0, 0, 0⟩
  let ns := a.ns + (if s.mode = m then s.time - s.pwr.modeSince else 0)
  qwords [ns / 1000000000, a.energy / 100000] ++ leBytes 4 a.entries ++ leBytes 4 a.refusals ++ leBytes 4 a.aborts ++ leBytes 4 0

/-- POWER ACCOUNTING (R552). -/
def State.powerPage (s : State) : Bytes :=
  padTo 2320 (qwords [s.time, s.pwr.colds] ++ (List.range 8).flatMap s.modeAcct
    ++ ((List.range 256).flatMap fun b => leBytes 4 ((assoc s.pwr.blockAcct b).getD 0)) ++ s.pwr.history.flatten)

/-- AUDIT (R597). -/
def State.auditPage (s : State) : Bytes :=
  let l := s.trust.audit
  let seq := fun (e : Option Bytes) => leNat ((e.getD []).take 8)
  padTo 8388672 (padTo 64 (leBytes 4 l.length ++ leBytes 4 0 ++ qwords [seq l.head?, seq l.getLast?] ++ padTo 32 s.trust.auditHead)
    ++ l.flatten)

/-- ERROR RING (R479, R612): the device ring for a PF, its own for a VF. -/
def State.ringPage (s : State) (fn : Nat) : Bytes :=
  if isPf fn then s.fault.dev.page devSlots s.time else (s.fault.func fn).page funcSlots s.time

/-! ### The command -/

/-- A page's content for a controller, or the status that refuses it (R479). -/
def State.logPage (s : State) (fn lid : Nat) : Except Nat (Bytes × State) :=
  if lid = 1 then .ok (s.errorPage fn, s)
  else if lid = 2 then .ok s.smartPage
  else if lid = 3 then .ok s.slotPage
  else if lid = 4 then .ok (s.changedPage fn, s)
  else if lid = 0xC0 then .ok (s.healthPage, s)
  else if lid = 0xC1 then .ok (s.frozenPage fn, s)
  else if lid = 0xC2 then .ok (s.catalogPage fn, s)
  else if lid = 0xC3 then if isPf fn then .ok (s.powerPage, s) else .error Nv.badLog
  else if lid = 0xC4 then if isPf fn && s.holds (.pcie fn) .installer then .ok (s.auditPage, s.touch (.pcie fn)) else .error Nv.role
  else if lid = 0xC5 then .ok (s.ringPage fn, s)
  else .error Nv.badLog

/-- The page has been read with RAE = 0: its events are raised again from now on (R463). -/
def State.clearPage (s : State) (fn lid : Nat) : State :=
  s.setHost fun h =>
    { h with masked := h.masked.filter (· != (fn, lid)), events := h.events.filter fun e => !(e.fn == fn && e.page == lid),
             frozenSeen := if lid = 0xC1 then h.frozenSeen.filter (· != fn) else h.frozenSeen,
             changed := if lid = 4 then h.changed.filter (·.1 != fn) else h.changed }

/-- The entries of C5h wholly returned are consumed with LSP bit 0 (R612). -/
def State.consumePage (s : State) (fn off len : Nat) : State :=
  let r := pageEntries off len
  if isPf fn then s.consumeDev r.1 r.2 else s.consumeFunc fn r.1 r.2

/-- GET_LOG_PAGE (R479): `len` bytes of the page from `off`, as far as it goes. -/
def execGetLogPage (c : Cmd) (lid : Nat) (lsp : BitVec 4) (rae : Bool) (off len : Nat) (s : State) : Out :=
  if !s.adminReady c.fn then .next s
  else match s.logPage c.fn lid with
    | .error st => .next (s.completeAdmin c st)
    | .ok (page, t) =>
      if off % 4 ≠ 0 ∨ page.length ≤ off ∨ dptrLen c.dptr < len then .next (s.completeAdmin c Nv.badField)
      else
        let t := t.completeData c ((page.drop off).take len)
        let t := if rae then t else t.clearPage c.fn lid
        .next (if lid = 0xC5 ∧ lsp.getLsbD 0 then t.consumePage c.fn off (min len (page.length - off)) else t)

end Sys2Proof.Machine
end

