-- ==== Sys2Proof/Machine/NsAdmin.lean ====
section
/-!
DEFINITION. Admin commands over namespaces, takes and keys, and ARRAY SERVICE (R213, R248, R250, R253, R284, R285, R424, R425, R452-R454,
R466-R468, R475, R491). What NVM Express alone defines of them is in log entry 40.
-/

namespace Sys2Proof.Machine

/-! ### Block namespaces -/

/-- Spares are exhausted: SAFE was entered under R246. -/
def State.readOnly (s : State) : Bool := s.bit R.MEDIA.MEDIA_STATUS_READ_ONLY

/-- Bytes of all block namespaces. -/
def State.blockTotal (s : State) : Nat := ((s.ns.filter (·.kind == .block)).map fun n => n.nsze * 4096).foldl (· + ·) 0

/-- A block namespace of so many LBAs fits (R213, R214, R248). -/
def State.nsFits (s : State) (nsze : Nat) : Bool :=
  !s.bit R.MEDIA.MEDIA_STATUS_MAP_PAGED && decide (s.blockTotal + nsze * 4096 ≤ s.blockLimit * 1000000000)
    && decide (toMB (nsze * 4096) ≤ s.freeUserMB)

/-- The lowest free NSID of block namespaces (R452). -/
def State.freeNsid (s : State) : Option Nat := ((List.range 0x3FF).map (· + 1)).find? fun n => (s.nsOf n).isNone

/-- A block namespace is created (R424, R453, R454). -/
def State.createNs (s : State) (c : Cmd) (nsze : Nat) : State :=
  match s.freeNsid with
  | none => s.completeAdmin c Nv.noNsid
  | some id =>
    match s.newMediaKey id with
    | (none, t) => t.completeAdmin c Nv.keys
    | (some (num, _), t) =>
      let t := { t with ns := t.ns ++ [(⟨id, .block, nsze, 0, [], num, t.keySeq num, none, []⟩ : Ns)] }
      (t.journal 0x0A 1 id 0 (0, 0)).completeAdmin c Nv.ok id

/-- What a block namespace holds is gone: its map, its buffered writes and its units on their way. -/
def State.forgetData (s : State) (nsid : Nat) : State :=
  let t := (s.setImage fun i => { i with map := i.map.filter fun x => x.1.1 != nsid }).cancelWhere fun u => u.kind == 1 && u.nsid == nsid
  (t.setMedia fun m => { m with wbuf := m.wbuf.filter (·.nsid != nsid), hints := m.hints.filter (·.1.1 != nsid) }).setArray fun a =>
    { a with holes := a.holes.filter (·.1 != nsid) }

/-- A block namespace is deleted with its key (R425). -/
def State.deleteNs (s : State) (n : Ns) : State :=
  let t := (s.journal 0x0B 1 n.nsid 0 (0, 0)).forgetData n.nsid
  let t := (t.dropKey n.keyRec).nsChanged n
  (({ t with ns := t.ns.filter (·.nsid != n.nsid) } : State).freeEmpty).restoreSpare

/-- NAMESPACE_MANAGEMENT (R213, R248, R250, R452, R453): SEL 0 creates, 1 deletes. -/
def execNamespaceManagement (c : Cmd) (sel : BitVec 4) (nsze ncap flbas dps : Nat) (s : State) : Out :=
  if !s.adminReady c.fn then .next s
  else if sel = 0 then
    if s.readOnly then .next (s.completeAdmin c Nv.protected)
    else if flbas ≠ 0 ∨ dps ≠ 0 ∨ ncap ≠ nsze then .next (s.completeAdmin c Nv.badFormat)
    else if nsze = 0 then .next (s.completeAdmin c Nv.badField)
    else if !s.nsFits nsze then .next (s.completeAdmin c Nv.noCapacity)
    else .next (s.createNs c nsze)
  else if sel = 1 then
    match s.seesNs c.fn c.nsid with
    | none => .next (s.completeAdmin c Nv.badNs)
    | some n =>
      if n.kind ≠ .block then .next (s.completeAdmin c Nv.badField)
      else if s.readOnly && !s.holds (.pcie c.fn) .installer then .next (s.completeAdmin c Nv.role)
      else .next ((s.deleteNs n).completeAdmin c Nv.ok)
  else .next (s.completeAdmin c Nv.badField)

/-- NAMESPACE_ATTACHMENT (R454, R491): SEL 0 attaches, 1 detaches, PF controllers only. -/
def execNamespaceAttachment (c : Cmd) (sel : BitVec 4) (ctrls : List Nat) (s : State) : Out :=
  if !s.adminReady c.fn then .next s
  else match s.seesNs c.fn c.nsid with
    | none => .next (s.completeAdmin c Nv.badNs)
    | some n =>
      if n.kind = .compute ∨ n.kind = .memory then .next (s.completeAdmin c Nv.badField)
      else if ctrls.isEmpty || !ctrls.all (fun f => isPf f && (s.fn f).isSome) then .next (s.completeAdmin c Nv.badList)
      else if sel = 0 then
        if ctrls.any n.attached.contains then .next (s.completeAdmin c Nv.alreadyAttached)
        else
          let t := s.modNs n.nsid fun x => { x with attached := x.attached ++ ctrls.eraseDups }
          .next ((t.nsChanged { n with attached := ctrls.eraseDups }).completeAdmin c Nv.ok)
      else if sel = 1 then
        if !ctrls.all n.attached.contains then .next (s.completeAdmin c Nv.notAttached)
        else
          let t := s.nsChanged { n with attached := ctrls.eraseDups }
          .next ((t.modNs n.nsid fun x => { x with attached := x.attached.filter fun f => !ctrls.contains f }).completeAdmin c Nv.ok)
      else .next (s.completeAdmin c Nv.badField)

/-- A block namespace gets a new media key and reads as zeroes throughout (R252, R424, R453). -/
def State.formatNs (s : State) (c : Cmd) (n : Ns) : State :=
  match s.newMediaKey n.nsid with
  | (none, t) => t.completeAdmin c Nv.keys
  | (some (num, _), t) =>
    let t := (t.dropKey n.keyRec).modNs n.nsid fun x => { x with keyRec := num, keySeq := t.keySeq num }
    ((((t.forgetData n.nsid).zeroRange n.nsid 0 n.nsze).freeEmpty).nsChanged n).completeAdmin c Nv.ok

/-- FORMAT_NVM (R248, R453). -/
def execFormatNvm (c : Cmd) (lbaf : Nat) (ses : BitVec 3) (s : State) : Out :=
  if !s.adminReady c.fn then .next s
  else match s.seesNs c.fn c.nsid with
    | none => .next (s.completeAdmin c Nv.badNs)
    | some n =>
      if n.kind = .take then .next (s.completeAdmin c Nv.protected)
      else if n.kind ≠ .block ∨ 2 ≤ ses.toNat then .next (s.completeAdmin c Nv.badField)
      else if lbaf ≠ 0 then .next (s.completeAdmin c Nv.badFormat)
      else if s.readOnly then .next (s.completeAdmin c Nv.protected)
      else .next (s.formatNs c n)

/-! ### Key requests of a function -/

/-- KEY_REQUEST (R420, R475): the request goes to the key engine under the function's FUNC; what the last one left is forgotten. -/
def execKeyRequest (c : Cmd) (data : Bytes) (s : State) : Out :=
  if !s.adminReady c.fn then .next s
  else if data.length < 64 ∨ data.length ≠ 64 + descN data 12 4 ∨ descN data 16 8 ≠ 0 ∨ descN data 24 8 ≠ 0 ∨ descN data 56 8 ≠ 0 then
    .next (s.completeAdmin c Nv.badField)
  else
    let id := s.jobs.next
    let t := s.setJobs fun j => { j with next := j.next + 1 }
    let t := t.setHost fun h => { h with secOut := h.secOut.filter (·.1 != c.fn) }
    let j : Job := ⟨id, .host c.fn, 4, c.fn, data, none, none⟩
    .next ((t.await c (.keyJob id)).offerKeyJob j)

/-- SECURITY_RECEIVE (R475): the completion record and the output of the function's last request; with none, free bytes. -/
def execSecurityReceive (c : Cmd) (s : State) : Out :=
  if !s.adminReady c.fn then .next s
  else match assoc s.host.secOut c.fn with
    | some b => .next (s.completeData c b)
    | none => let r := s.freshBytes 104; .next (r.2.completeData c r.1)

/-! ### TAKE ADMIN -/

/-- A vendor command that a PF issues under a role, audited (R466, R594). -/
def State.vendorCmd (s : State) (c : Cmd) (op : Nat) (r : Role) (cdws : List Nat) (act : State → State) : State :=
  if !isPf c.fn then s.completeAdmin c Nv.badOpcode
  else if !s.holds (.pcie c.fn) r then s.completeAdmin c Nv.role
  else act (s.auditVendor (.pcie c.fn) op cdws false)

/-- TAKE_ADMIN_CLOSE (R111, R467): it completes when TAKE_CLOSED has been sent. -/
def execTakeAdminClose (c : Cmd) (id : BitVec 64) (s : State) : Out :=
  if !s.adminReady c.fn then .next s
  else .next (s.vendorCmd c 0xC0 .operator [1, 0, id.toNat % 2 ^ 32, id.toNat / 2 ^ 32] fun t =>
    if t.takeLive && t.takeId == id.toNat then ((t.closeTake 4 7).await c .takeClosed).settle else t.completeAdmin c Nv.badField)

/-- Windows of a ring take that are not free (R149). -/
def State.ringWindows (s : State) (id : Nat) : Bool := s.trig.windows.any fun w => w.state != 0 && w.ring == id

/-- TAKE_ADMIN_DELETE (R149, R250, R253, R467): it completes when the record is durable and the namespace gone. -/
def execTakeAdminDelete (c : Cmd) (id : BitVec 64) (s : State) : Out :=
  if !s.adminReady c.fn then .next s
  else .next (s.vendorCmd c 0xC0 (if s.readOnly then .installer else .operator) [2, 0, id.toNat % 2 ^ 32, id.toNat / 2 ^ 32] fun t =>
    match t.ns.find? fun n => (n.tk.map (·.takeId)) == some id.toNat with
    | none => t.completeAdmin c Nv.badField
    | some n =>
      if (n.tk.any (·.opened)) || t.ringWindows id.toNat || t.host.waiting.any (fun w => w.2 == .takeDeleted n.nsid) then
        t.completeAdmin c Nv.held
      else (t.journal 0x09 1 n.nsid 0 (0, 0)).await c (.takeDeleted n.nsid))

/-! ### ARRAY SERVICE -/

/-- One unit of a namespace for SALVAGE: its data if valid, and whether it is (R284, R468). -/
def State.salvageUnit (s : State) (key : Bytes) (n : Ns) (u : Nat) : Option Bytes × State :=
  if n.nsze ≤ u ∨ s.array.holes.contains (n.nsid, u) then (none, s) else s.readPlain key n.nsid u

/-- Units in order: their data, zeros for an invalid one, and the validity bits. -/
def State.salvageUnits (key : Bytes) (n : Ns) : List Nat → State → Bytes × List Bool × State
  | [], s => ([], [], s)
  | u :: us, s =>
    let r := s.salvageUnit key n u
    let q := State.salvageUnits key n us r.2
    (r.1.getD zeroPiece ++ q.1, r.1.isSome :: q.2.1, q.2.2)

/-- SALVAGE (R284, R468). -/
def execSalvage (c : Cmd) (count first validity : Nat) (s : State) : Out :=
  if !s.adminReady c.fn then .next s
  else .next (s.vendorCmd c 0xC4 .operator
    [1 + count * 65536, 0, first % 2 ^ 32, first / 2 ^ 32, validity % 2 ^ 32, validity / 2 ^ 32] fun t =>
    match t.nsOf c.nsid with
    | none => t.completeAdmin c Nv.badNs
    | some n =>
      if (n.kind ≠ .take ∧ n.kind ≠ .block) ∨ count = 0 ∨ 64 < count ∨ validity % 8 ≠ 0 ∨ dptrLen c.dptr < count * 2 ^ 20 then
        t.completeAdmin c Nv.badField
      else if t.readyPipes.isEmpty then t.mediaStall.completeAdmin c Nv.held
      else match t.mediaKey n.keyRec n.keySeq with
        | (none, u) => u.completeAdmin c Nv.keys
        | (some key, u) =>
          let r := State.salvageUnits key n ((List.range (256 * count)).map (256 * first + ·)) u
          let v := r.2.2
          let v := { v with mem := v.mem.write (hostTarget c.fn) validity (packBits r.2.1) }
          v.hostActive.completeData c r.1)

/-- "FORM". -/
def reformatMagic : BitVec 32 := 0x464F524D

/-- Every namespace, take and media key is destroyed (R468): a take that is still closing ends without a trailer, windows and copies go,
and key records go but for their numbering
(R424); commands fetched for a namespace that is gone end. -/
def State.destroyAll (s : State) : State :=
  let t := match s.take.c with
    | some k => if s.takeEnding then (s.setTake fun x => { x with noTrailer := true }).finishTake k else s
    | none => s
  let t := t.setTrig fun x => { x with windows := List.replicate 64 Window.free, ringFrames := [], drawn := [], short := [], copies := [] }
  let t := t.dropSpans fun _ => true
  let media := fun (n : Ns) => n.kind == NsKind.block || n.kind == NsKind.take
  let gone : List Ns := t.ns.filter media
  let t := (t.host.cmds.filter fun h => gone.any fun n => n.nsid == h.x.nsid).foldl (fun u h =>
    if h.phase = .locked then u.setHost fun x => { x with cmds := x.cmds.filter (· != h) }
    else u.completeCmd ⟨h.x.fn, h.x.sq, h.x.cid⟩ Nv.badNs) t
  let t := t.relock
  let t := gone.foldl (fun u n => u.nsChanged n) t
  let t := if gone.any (fun n => n.kind == NsKind.take) then t.catalogChanged else t
  let t := { t with ns := t.ns.filter fun n => !media n }
  let t := (t.setKeys fun k => { k with records := [], due := [], purge := [], owedTrailers := [], slots := k.slots.filter (·.ref == 0) }).showKeys
  t.wake (fun w => match w with | .takeDeleted _ => true | .takeClosed => true | _ => false) Nv.ok

/-- SAFE after a reformat: causes 0, 1 and 7 are cleared, and with no other the device enters IDLE (R468, R548). -/
def State.endSafe (s : State) : State :=
  let left := (s.get R.PWR.SAFE_CAUSE_CAUSE) &&& 0x7C
  if left = 0 then s.leaveSafe else s.put R.PWR.SAFE_CAUSE_CAUSE left

/-- REFORMAT (R210, R256, R285, R424, R468, R548, R581, R593, R647). -/
def execReformat (c : Cmd) (magic : BitVec 32) (s : State) : Out :=
  if !s.adminReady c.fn then .next s
  else .next (s.vendorCmd c 0xC4 .installer [2, magic.toNat] fun t =>
    if t.mode ≠ 7 ∨ magic ≠ reformatMagic then t.completeAdmin c Nv.badField
    else (((t.destroyAll.format.installCkpt).endSafe.checkSpares).showOtp).completeAdmin c Nv.ok)

end Sys2Proof.Machine
end

