-- ==== Sys2Proof/Machine/Dispatch.lean ====
section
/-!
DEFINITION. The meaning of each command: one arm per constructor of `Instr`, one direct call of its meaning.
-/

namespace Sys2Proof.Machine

/-- The effect of a command on everything but the queue of waiting commands. -/
def exec (i : Instr) (s : State) : Host.Outcome State Fault Refusal :=
  match i with
  | .registerWrite o page off len v => Sys2Proof.Machine.execRegisterWrite o page off len v s
  | .errCodeClear o page => Sys2Proof.Machine.execErrCodeClear o page s
  | .enableClear o page => Sys2Proof.Machine.execEnableClear o page s
  | .softReset o page => Sys2Proof.Machine.execSoftReset o page s
  | .perturbPointSelect o page point => Sys2Proof.Machine.execPerturbPointSelect o page point s
  | .pendingLowDiscard o => Sys2Proof.Machine.execPendingLowDiscard o s
  | .faultIntake => Sys2Proof.Machine.execFaultIntake s
  | .faultConsume o n => Sys2Proof.Machine.execFaultConsume o n s
  | .gateLinkUp good rev inv => Sys2Proof.Machine.execGateLinkUp good rev inv s
  | .gateTrainFail good => Sys2Proof.Machine.execGateTrainFail good s
  | .gateTrainRetry => Sys2Proof.Machine.execGateTrainRetry s
  | .gateLaneLost lane => Sys2Proof.Machine.execGateLaneLost lane s
  | .gateRetrainDone bad => Sys2Proof.Machine.execGateRetrainDone bad s
  | .gateLinkDown => Sys2Proof.Machine.execGateLinkDown s
  | .takeLinkLost => Sys2Proof.Machine.execTakeLinkLost s
  | .fullRetrain o => Sys2Proof.Machine.execFullRetrain o s
  | .gateFlitRx f => Sys2Proof.Machine.execGateFlitRx f s
  | .gateReplayTimeout => Sys2Proof.Machine.execGateReplayTimeout s
  | .gatePacketSend => Sys2Proof.Machine.execGatePacketSend s
  | .gateHeartbeatTx => Sys2Proof.Machine.execGateHeartbeatTx s
  | .takeOpen p => Sys2Proof.Machine.execTakeOpen p s
  | .takeGrant => Sys2Proof.Machine.execTakeGrant s
  | .takeClose id => Sys2Proof.Machine.execTakeClose id s
  | .frameBegin p => Sys2Proof.Machine.execFrameBegin p s
  | .frameData p => Sys2Proof.Machine.execFrameData p s
  | .frameEnd p => Sys2Proof.Machine.execFrameEnd p s
  | .metaPacket p => Sys2Proof.Machine.execMetaPacket p s
  | .trigger p => Sys2Proof.Machine.execTrigger p s
  | .ctrlReq p => Sys2Proof.Machine.execCtrlReq p s
  | .heartbeat p => Sys2Proof.Machine.execHeartbeat p s
  | .takeDurationExpiry => Sys2Proof.Machine.execTakeDurationExpiry s
  | .takeRateBreach => Sys2Proof.Machine.execTakeRateBreach s
  | .takeBreachRelease => Sys2Proof.Machine.execTakeBreachRelease s
  | .takeRatioMeasure => Sys2Proof.Machine.execTakeRatioMeasure s
  | .secureWindowPad => Sys2Proof.Machine.execSecureWindowPad s
  | .stripeClose => Sys2Proof.Machine.execStripeClose s
  | .takeClosed => Sys2Proof.Machine.execTakeClosed s
  | .fallowReservationUsed => Sys2Proof.Machine.execFallowReservationUsed s
  | .mediaCapacityFull => Sys2Proof.Machine.execMediaCapacityFull s
  | .summaryKeyComplete uid => Sys2Proof.Machine.execSummaryKeyComplete uid s
  | .ruleSearch uid => Sys2Proof.Machine.execRuleSearch uid s
  | .sliceRelease => Sys2Proof.Machine.execSliceRelease s
  | .trigPinEdge pin rising heldNs => Sys2Proof.Machine.execTrigPinEdge pin rising heldNs s
  | .swFire o tag => Sys2Proof.Machine.execSwFire o tag s
  | .windowSeal slot => Sys2Proof.Machine.execWindowSeal slot s
  | .windowCopyStart slot => Sys2Proof.Machine.execWindowCopyStart slot s
  | .keptTakeSealed slot => Sys2Proof.Machine.execKeptTakeSealed slot s
  | .shearsBlockVerified lane ok => Sys2Proof.Machine.execShearsBlockVerified lane ok s
  | .shearsReemitDone lane miss => Sys2Proof.Machine.execShearsReemitDone lane miss s
  | .shearsJobMigrate lane => Sys2Proof.Machine.execShearsJobMigrate lane s
  | .laneCtrlRetire o lane => Sys2Proof.Machine.execLaneCtrlRetire o lane s
  | .compress src lane bad => Sys2Proof.Machine.execCompress src lane bad s
  | .inflate src lane => Sys2Proof.Machine.execInflate src lane s
  | .inflateUnpredict src lane => Sys2Proof.Machine.execInflateUnpredict src lane s
  | .shearsJobComplete lane => Sys2Proof.Machine.execShearsJobComplete lane s
  | .nandTrainStart => Sys2Proof.Machine.execNandTrainStart s
  | .nandTrainDone ch r => Sys2Proof.Machine.execNandTrainDone ch r s
  | .nandPwrFault ch => Sys2Proof.Machine.execNandPwrFault ch s
  | .nandDieTimeout ch die => Sys2Proof.Machine.execNandDieTimeout ch die s
  | .nandReadDone ch die rs => Sys2Proof.Machine.execNandReadDone ch die rs s
  | .nandRetryStep ch die rs => Sys2Proof.Machine.execNandRetryStep ch die rs s
  | .nandSoftDecode ch die rs => Sys2Proof.Machine.execNandSoftDecode ch die rs s
  | .nandProgramDone ch die pass => Sys2Proof.Machine.execNandProgramDone ch die pass s
  | .nandEraseDone ch die pass => Sys2Proof.Machine.execNandEraseDone ch die pass s
  | .nandZqShort ch => Sys2Proof.Machine.execNandZqShort ch s
  | .forceOff o ch => Sys2Proof.Machine.execForceOff o ch s
  | .retrain o ch ok => Sys2Proof.Machine.execRetrain o ch ok s
  | .journalPageWrite => Sys2Proof.Machine.execJournalPageWrite s
  | .journalPageDurable => Sys2Proof.Machine.execJournalPageDurable s
  | .ckptNow o => Sys2Proof.Machine.execCkptNow o s
  | .checkpointPeriod => Sys2Proof.Machine.execCheckpointPeriod s
  | .checkpointJournalLimit => Sys2Proof.Machine.execCheckpointJournalLimit s
  | .checkpointDone => Sys2Proof.Machine.execCheckpointDone s
  | .slcResize => Sys2Proof.Machine.execSlcResize s
  | .slcMigration => Sys2Proof.Machine.execSlcMigration s
  | .gcVictimSelect => Sys2Proof.Machine.execGcVictimSelect s
  | .refreshRelocate => Sys2Proof.Machine.execRefreshRelocate s
  | .patrol => Sys2Proof.Machine.execPatrol s
  | .wearLevel ch die => Sys2Proof.Machine.execWearLevel ch die s
  | .relocationCopyDone => Sys2Proof.Machine.execRelocationCopyDone s
  | .groupErase g => Sys2Proof.Machine.execGroupErase g s
  | .groupErased g => Sys2Proof.Machine.execGroupErased g s
  | .mapPageReload page => Sys2Proof.Machine.execMapPageReload page s
  | .blockWriteBufferDrain => Sys2Proof.Machine.execBlockWriteBufferDrain s
  | .keyTablePurge => Sys2Proof.Machine.execKeyTablePurge s
  | .stripeSnapshot => Sys2Proof.Machine.execStripeSnapshot s
  | .bitmapMove => Sys2Proof.Machine.execBitmapMove s
  | .rebuildStripe => Sys2Proof.Machine.execRebuildStripe s
  | .resyncStripe => Sys2Proof.Machine.execResyncStripe s
  | .reshapeStart o k => Sys2Proof.Machine.execReshapeStart o k s
  | .reshapeRegion => Sys2Proof.Machine.execReshapeRegion s
  | .arrayRetire o die => Sys2Proof.Machine.execArrayRetire o die s
  | .lit c v => Sys2Proof.Machine.execLit c v s
  | .jmp c d => Sys2Proof.Machine.execJmp c d s
  | .jz c d => Sys2Proof.Machine.execJz c d s
  | .jnz c d => Sys2Proof.Machine.execJnz c d s
  | .call c d => Sys2Proof.Machine.execCall c d s
  | .jmpLong c d => Sys2Proof.Machine.execJmpLong c d s
  | .jzLong c d => Sys2Proof.Machine.execJzLong c d s
  | .jnzLong c d => Sys2Proof.Machine.execJnzLong c d s
  | .callLong c d => Sys2Proof.Machine.execCallLong c d s
  | .lit32 c sx v => Sys2Proof.Machine.execLit32 c sx v s
  | .lit64 c v => Sys2Proof.Machine.execLit64 c v s
  | .jmpa c t => Sys2Proof.Machine.execJmpa c t s
  | .calla c t => Sys2Proof.Machine.execCalla c t s
  | .addi c imm => Sys2Proof.Machine.execAddi c imm s
  | .ld c w imm e => Sys2Proof.Machine.execLd c w imm e s
  | .ldl c w imm e => Sys2Proof.Machine.execLdl c w imm e s
  | .st c w imm => Sys2Proof.Machine.execSt c w imm s
  | .stl c w imm => Sys2Proof.Machine.execStl c w imm s
  | .btst c a => Sys2Proof.Machine.execBtst c a s
  | .bset c a => Sys2Proof.Machine.execBset c a s
  | .bclr c a => Sys2Proof.Machine.execBclr c a s
  | .bst c a => Sys2Proof.Machine.execBst c a s
  | .dup c => Sys2Proof.Machine.execDup c s
  | .drop c => Sys2Proof.Machine.execDrop c s
  | .swap c => Sys2Proof.Machine.execSwap c s
  | .over c => Sys2Proof.Machine.execOver c s
  | .nip c => Sys2Proof.Machine.execNip c s
  | .tuck c => Sys2Proof.Machine.execTuck c s
  | .rot c => Sys2Proof.Machine.execRot c s
  | .pick c => Sys2Proof.Machine.execPick c s
  | .tors c => Sys2Proof.Machine.execTors c s
  | .fromrs c => Sys2Proof.Machine.execFromrs c s
  | .rscopy c => Sys2Proof.Machine.execRscopy c s
  | .rsdrop c => Sys2Proof.Machine.execRsdrop c s
  | .add c m => Sys2Proof.Machine.execAdd c m s
  | .sub c m => Sys2Proof.Machine.execSub c m s
  | .mul c m => Sys2Proof.Machine.execMul c m s
  | .mulh c m => Sys2Proof.Machine.execMulh c m s
  | .div c m => Sys2Proof.Machine.execDiv c m s
  | .mod c m => Sys2Proof.Machine.execMod c m s
  | .neg c m => Sys2Proof.Machine.execNeg c m s
  | .abs c m => Sys2Proof.Machine.execAbs c m s
  | .min c m => Sys2Proof.Machine.execMin c m s
  | .max c m => Sys2Proof.Machine.execMax c m s
  | .cmpeq c m => Sys2Proof.Machine.execCmpeq c m s
  | .cmplt c m => Sys2Proof.Machine.execCmplt c m s
  | .cmpltu c m => Sys2Proof.Machine.execCmpltu c m s
  | .and c m => Sys2Proof.Machine.execAnd c m s
  | .or c m => Sys2Proof.Machine.execOr c m s
  | .xor c m => Sys2Proof.Machine.execXor c m s
  | .not c m => Sys2Proof.Machine.execNot c m s
  | .shl c m => Sys2Proof.Machine.execShl c m s
  | .shr c m => Sys2Proof.Machine.execShr c m s
  | .sar c m => Sys2Proof.Machine.execSar c m s
  | .rol c m => Sys2Proof.Machine.execRol c m s
  | .popc c m => Sys2Proof.Machine.execPopc c m s
  | .clz c m => Sys2Proof.Machine.execClz c m s
  | .ctz c m => Sys2Proof.Machine.execCtz c m s
  | .splat c m => Sys2Proof.Machine.execSplat c m s
  | .ext c m => Sys2Proof.Machine.execExt c m s
  | .ins c m => Sys2Proof.Machine.execIns c m s
  | .fadd c m => Sys2Proof.Machine.execFadd c m s
  | .fsub c m => Sys2Proof.Machine.execFsub c m s
  | .fmul c m => Sys2Proof.Machine.execFmul c m s
  | .fdiv c m => Sys2Proof.Machine.execFdiv c m s
  | .fma c m => Sys2Proof.Machine.execFma c m s
  | .fmin c m => Sys2Proof.Machine.execFmin c m s
  | .fmax c m => Sys2Proof.Machine.execFmax c m s
  | .fcmpeq c m => Sys2Proof.Machine.execFcmpeq c m s
  | .fcmplt c m => Sys2Proof.Machine.execFcmplt c m s
  | .cvtF c m => Sys2Proof.Machine.execCvtF c m s
  | .cvtI c m => Sys2Proof.Machine.execCvtI c m s
  | .cvtW c m => Sys2Proof.Machine.execCvtW c m s
  | .cvtN c m => Sys2Proof.Machine.execCvtN c m s
  | .execCall c m => Sys2Proof.Machine.execExecCall c m s
  | .ret c m => Sys2Proof.Machine.execRet c m s
  | .jmpi c m => Sys2Proof.Machine.execJmpi c m s
  | .load c m e => Sys2Proof.Machine.execLoad c m e s
  | .store c m => Sys2Proof.Machine.execStore c m s
  | .btsti c m => Sys2Proof.Machine.execBtsti c m s
  | .bseti c m => Sys2Proof.Machine.execBseti c m s
  | .bclri c m => Sys2Proof.Machine.execBclri c m s
  | .bsti c m => Sys2Proof.Machine.execBsti c m s
  | .btas c m => Sys2Proof.Machine.execBtas c m s
  | .trap c n => Sys2Proof.Machine.execTrap c n s
  | .sysRead c n => Sys2Proof.Machine.execSysRead c n s
  | .sysWrite c n => Sys2Proof.Machine.execSysWrite c n s
  | .nop c => Sys2Proof.Machine.execNop c s
  | .rti c => Sys2Proof.Machine.execRti c s
  | .wait c => Sys2Proof.Machine.execWait c s
  | .waitWake c => Sys2Proof.Machine.execWaitWake c s
  | .waitTimeout c => Sys2Proof.Machine.execWaitTimeout c s
  | .poll c => Sys2Proof.Machine.execPoll c s
  | .submit c => Sys2Proof.Machine.execSubmit c s
  | .depth c => Sys2Proof.Machine.execDepth c s
  | .rdepth c => Sys2Proof.Machine.execRdepth c s
  | .fence c o => Sys2Proof.Machine.execFence c o s
  | .custom c e m => Sys2Proof.Machine.execCustom c e m s
  | .corePark o c => Sys2Proof.Machine.execCorePark o c s
  | .coreResume o c => Sys2Proof.Machine.execCoreResume o c s
  | .coreRetire o c => Sys2Proof.Machine.execCoreRetire o c s
  | .firmwareImageDownload c off data => Sys2Proof.Machine.execFirmwareImageDownload c off data s
  | .firmwareCommit c slot action => Sys2Proof.Machine.execFirmwareCommit c slot action s
  | .firmwareHandover => Sys2Proof.Machine.execFirmwareHandover s
  | .handoverResume => Sys2Proof.Machine.execHandoverResume s
  | .crookUpdateRollback => Sys2Proof.Machine.execCrookUpdateRollback s
  | .microcodeLoad c cluster len data => Sys2Proof.Machine.execMicrocodeLoad c cluster len data s
  | .microcodeClusterParked => Sys2Proof.Machine.execMicrocodeClusterParked s
  | .microcodeRecheck written => Sys2Proof.Machine.execMicrocodeRecheck written s
  | .search src => Sys2Proof.Machine.execSearch src s
  | .searchList src => Sys2Proof.Machine.execSearchList src s
  | .earmarkWrite src => Sys2Proof.Machine.execEarmarkWrite src s
  | .invalidate src => Sys2Proof.Machine.execInvalidate src s
  | .earmarkRead src => Sys2Proof.Machine.execEarmarkRead src s
  | .earmarkJobComplete => Sys2Proof.Machine.execEarmarkJobComplete s
  | .bankCfgWrite o bank width table share => Sys2Proof.Machine.execBankCfgWrite o bank width table share s
  | .earmarkScrub row lost => Sys2Proof.Machine.execEarmarkScrub row lost s
  | .xtsEncrypt src => Sys2Proof.Machine.execXtsEncrypt src s
  | .xtsDecrypt src => Sys2Proof.Machine.execXtsDecrypt src s
  | .gcmEncrypt src => Sys2Proof.Machine.execGcmEncrypt src s
  | .gcmDecrypt src => Sys2Proof.Machine.execGcmDecrypt src s
  | .cipherJobComplete => Sys2Proof.Machine.execCipherJobComplete s
  | .maskReseed g => Sys2Proof.Machine.execMaskReseed g s
  | .deriveKeks => Sys2Proof.Machine.execDeriveKeks s
  | .generate => Sys2Proof.Machine.execGenerate s
  | .unwrapLoad => Sys2Proof.Machine.execUnwrapLoad s
  | .wrap => Sys2Proof.Machine.execWrap s
  | .derive => Sys2Proof.Machine.execDerive s
  | .loadPlain => Sys2Proof.Machine.execLoadPlain s
  | .clear => Sys2Proof.Machine.execClear s
  | .keyengJobComplete => Sys2Proof.Machine.execKeyengJobComplete s
  | .keyengAlarm src => Sys2Proof.Machine.execKeyengAlarm src s
  | .entropyHealthFail apt => Sys2Proof.Machine.execEntropyHealthFail apt s
  | .entropyStartupDone ok => Sys2Proof.Machine.execEntropyStartupDone ok s
  | .unlock o => Sys2Proof.Machine.execUnlock o s
  | .erase o => Sys2Proof.Machine.execErase o s
  | .hash src => Sys2Proof.Machine.execHash src s
  | .hashCompare src va vb => Sys2Proof.Machine.execHashCompare src va vb s
  | .digestJobComplete => Sys2Proof.Machine.execDigestJobComplete s
  | .claim o => Sys2Proof.Machine.execClaim o s
  | .release o => Sys2Proof.Machine.execRelease o s
  | .start o alg cmp => Sys2Proof.Machine.execStart o alg cmp s
  | .feedWord o w => Sys2Proof.Machine.execFeedWord o w s
  | .lastWord o w va vb => Sys2Proof.Machine.execLastWord o w va vb s
  | .perstRelease port => Sys2Proof.Machine.execPerstRelease port s
  | .perstAssert port => Sys2Proof.Machine.execPerstAssert port s
  | .pcieLinkUp port speed width flit sris => Sys2Proof.Machine.execPcieLinkUp port speed width flit sris s
  | .hostqLinkDown port => Sys2Proof.Machine.execHostqLinkDown port s
  | .doorbellWrite fn qid isCq v => Sys2Proof.Machine.execDoorbellWrite fn qid isCq v s
  | .commandFetch x => Sys2Proof.Machine.execCommandFetch x s
  | .createIoSq c qid size cqid pc => Sys2Proof.Machine.execCreateIoSq c qid size cqid pc s
  | .createIoCq c qid size vec ien pc => Sys2Proof.Machine.execCreateIoCq c qid size vec ien pc s
  | .deleteIoSq c qid => Sys2Proof.Machine.execDeleteIoSq c qid s
  | .deleteIoCq c qid => Sys2Proof.Machine.execDeleteIoCq c qid s
  | .getLogPage c lid lsp rae off len => Sys2Proof.Machine.execGetLogPage c lid lsp rae off len s
  | .identify c cns cntid => Sys2Proof.Machine.execIdentify c cns cntid s
  | .abort c sqid acid => Sys2Proof.Machine.execAbort c sqid acid s
  | .setFeatures c fid v => Sys2Proof.Machine.execSetFeatures c fid v s
  | .getFeatures c fid => Sys2Proof.Machine.execGetFeatures c fid s
  | .asyncEventRequest c => Sys2Proof.Machine.execAsyncEventRequest c s
  | .namespaceManagement c sel nsze ncap flbas dps => Sys2Proof.Machine.execNamespaceManagement c sel nsze ncap flbas dps s
  | .namespaceAttachment c sel ctrls => Sys2Proof.Machine.execNamespaceAttachment c sel ctrls s
  | .formatNvm c lbaf ses => Sys2Proof.Machine.execFormatNvm c lbaf ses s
  | .keyRequest c data => Sys2Proof.Machine.execKeyRequest c data s
  | .securityReceive c => Sys2Proof.Machine.execSecurityReceive c s
  | .otpProgram c data readBack => Sys2Proof.Machine.execOtpProgram c data readBack s
  | .decommission c data => Sys2Proof.Machine.execDecommission c data s
  | .operatorCredential c data => Sys2Proof.Machine.execOperatorCredential c data s
  | .takeAdminClose c id => Sys2Proof.Machine.execTakeAdminClose c id s
  | .takeAdminDelete c id => Sys2Proof.Machine.execTakeAdminDelete c id s
  | .queueThaw c sqid => Sys2Proof.Machine.execQueueThaw c sqid s
  | .roleAuthGetChallenge c role len => Sys2Proof.Machine.execRoleAuthGetChallenge c role len s
  | .roleAuthRespond c role len data va vb => Sys2Proof.Machine.execRoleAuthRespond c role len data va vb s
  | .roleAuthCredential c role len data => Sys2Proof.Machine.execRoleAuthCredential c role len data s
  | .roleAuthDrop c role => Sys2Proof.Machine.execRoleAuthDrop c role s
  | .salvage c count first validity => Sys2Proof.Machine.execSalvage c count first validity s
  | .reformat c magic => Sys2Proof.Machine.execReformat c magic s
  | .setProfile c func data => Sys2Proof.Machine.execSetProfile c func data s
  | .clearProfile c func => Sys2Proof.Machine.execClearProfile c func s
  | .setServiceStatus c => Sys2Proof.Machine.execSetServiceStatus c s
  | .armTake c t data => Sys2Proof.Machine.execArmTake c t data s
  | .cancel c opId => Sys2Proof.Machine.execCancel c opId s
  | .barrier c => Sys2Proof.Machine.execBarrier c s
  | .snapshot c => Sys2Proof.Machine.execSnapshot c s
  | .setReset c => Sys2Proof.Machine.execSetReset c s
  | .regAccess c member p => Sys2Proof.Machine.execRegAccess c member p s
  | .handback c => Sys2Proof.Machine.execHandback c s
  | .read k => Sys2Proof.Machine.execRead k s
  | .write k => Sys2Proof.Machine.execWrite k s
  | .flush k => Sys2Proof.Machine.execFlush k s
  | .compare k => Sys2Proof.Machine.execCompare k s
  | .verify k => Sys2Proof.Machine.execVerify k s
  | .writeZeroes k => Sys2Proof.Machine.execWriteZeroes k s
  | .datasetManagement k => Sys2Proof.Machine.execDatasetManagement k s
  | .frameRead k => Sys2Proof.Machine.execFrameRead k s
  | .earmarkSearch k => Sys2Proof.Machine.execEarmarkSearch k s
  | .shearsJob k => Sys2Proof.Machine.execShearsJob k s
  | .digestJob k => Sys2Proof.Machine.execDigestJob k s
  | .loadProgram c slot data => Sys2Proof.Machine.execLoadProgram c slot data s
  | .programActivation c slot act => Sys2Proof.Machine.execProgramActivation c slot act s
  | .executeProgram k => Sys2Proof.Machine.execExecuteProgram k s
  | .programCoresEnded fn => Sys2Proof.Machine.execProgramCoresEnded fn s
  | .memoryRangeSet c sel rsid ranges => Sys2Proof.Machine.execMemoryRangeSet c sel rsid ranges s
  | .memoryRead k => Sys2Proof.Machine.execMemoryRead k s
  | .memoryWrite k => Sys2Proof.Machine.execMemoryWrite k s
  | .memoryCopy k => Sys2Proof.Machine.execMemoryCopy k s
  | .functionReset fn => Sys2Proof.Machine.execFunctionReset fn s
  | .functionResetDone fn => Sys2Proof.Machine.execFunctionResetDone fn s
  | .controllerReset fn => Sys2Proof.Machine.execControllerReset fn s
  | .vfEnable numVfs => Sys2Proof.Machine.execVfEnable numVfs s
  | .vfDisable numVfs => Sys2Proof.Machine.execVfDisable numVfs s
  | .droveLinkUp p => Sys2Proof.Machine.execDroveLinkUp p s
  | .ident q => Sys2Proof.Machine.execIdent q s
  | .form q => Sys2Proof.Machine.execForm q s
  | .droveHeartbeat q => Sys2Proof.Machine.execDroveHeartbeat q s
  | .time q => Sys2Proof.Machine.execTime q s
  | .order q => Sys2Proof.Machine.execOrder q s
  | .reply q => Sys2Proof.Machine.execReply q s
  | .mirror q => Sys2Proof.Machine.execMirror q s
  | .regReq q => Sys2Proof.Machine.execRegReq q s
  | .regRsp q => Sys2Proof.Machine.execRegRsp q s
  | .droveLinkDown p => Sys2Proof.Machine.execDroveLinkDown p s
  | .droveHeartbeatTx => Sys2Proof.Machine.execDroveHeartbeatTx s
  | .droveTimeTx => Sys2Proof.Machine.execDroveTimeTx s
  | .droveMemberTimeout m => Sys2Proof.Machine.execDroveMemberTimeout m s
  | .armedStart => Sys2Proof.Machine.execArmedStart s
  | .droveStartLost => Sys2Proof.Machine.execDroveStartLost s
  | .syncInEdge rising => Sys2Proof.Machine.execSyncInEdge rising s
  | .syncInLoss => Sys2Proof.Machine.execSyncInLoss s
  | .droveTimeFault => Sys2Proof.Machine.execDroveTimeFault s
  | .dramDriftCheck ch d => Sys2Proof.Machine.execDramDriftCheck ch d s
  | .dramRefresh ch => Sys2Proof.Machine.execDramRefresh ch s
  | .dramAlert ch => Sys2Proof.Machine.execDramAlert ch s
  | .dramUncorrectable ch addr kind => Sys2Proof.Machine.execDramUncorrectable ch addr kind s
  | .dramScrub ch corrected last => Sys2Proof.Machine.execDramScrub ch corrected last s
  | .dramRetire o ch => Sys2Proof.Machine.execDramRetire o ch s
  | .dramEvacuationDone ch => Sys2Proof.Machine.execDramEvacuationDone ch s
  | .modeReqDoze o => Sys2Proof.Machine.execModeReqDoze o s
  | .modeReqFold o => Sys2Proof.Machine.execModeReqFold o s
  | .dozeAfterExpiry => Sys2Proof.Machine.execDozeAfterExpiry s
  | .enter o => Sys2Proof.Machine.execEnter o s
  | .exit o => Sys2Proof.Machine.execExit o s
  | .dozeDrainDone => Sys2Proof.Machine.execDozeDrainDone s
  | .vregStepAck slot => Sys2Proof.Machine.execVregStepAck slot s
  | .vregStepTimeout slot => Sys2Proof.Machine.execVregStepTimeout slot s
  | .wakeSource src => Sys2Proof.Machine.execWakeSource src s
  | .dozeRetrainDone bad => Sys2Proof.Machine.execDozeRetrainDone bad s
  | .dozeExitRetry => Sys2Proof.Machine.execDozeExitRetry s
  | .foldResidenceEnd => Sys2Proof.Machine.execFoldResidenceEnd s
  | .railsOffEnd => Sys2Proof.Machine.execRailsOffEnd s
  | .kick o => Sys2Proof.Machine.execKick o s
  | .pwrWatchdog => Sys2Proof.Machine.execPwrWatchdog s
  | .warm o => Sys2Proof.Machine.execWarm o s
  | .coldReset cause => Sys2Proof.Machine.execColdReset cause s
  | .clkLockLost => Sys2Proof.Machine.execClkLockLost s
  | .pllLocked hz => Sys2Proof.Machine.execPllLocked hz s
  | .bootTrainingDone r => Sys2Proof.Machine.execBootTrainingDone r s
  | .bootImageCheck img va vb => Sys2Proof.Machine.execBootImageCheck img va vb s
  | .go o => Sys2Proof.Machine.execGo o s
  | .bootSelfTestDone pipes units => Sys2Proof.Machine.execBootSelfTestDone pipes units s
  | .bootMapLoaded => Sys2Proof.Machine.execBootMapLoaded s
  | .bootRecoveryDone => Sys2Proof.Machine.execBootRecoveryDone s
  | .bootReady => Sys2Proof.Machine.execBootReady s
  | .vregTelemetryPoll rs => Sys2Proof.Machine.execVregTelemetryPoll rs s
  | .pmbAlert status => Sys2Proof.Machine.execPmbAlert status s
  | .setMv o slot mv => Sys2Proof.Machine.execSetMv o slot mv s
  | .rtcAlarmFire k => Sys2Proof.Machine.execRtcAlarmFire k s
  | .rtcOscFail => Sys2Proof.Machine.execRtcOscFail s
  | .thermalSample tjq sensor => Sys2Proof.Machine.execThermalSample tjq sensor s
  | .devThermalShutdown => Sys2Proof.Machine.execDevThermalShutdown s
  | .pwrFailN lowNs => Sys2Proof.Machine.execPwrFailN lowNs s
  | .powerfailDrainEnd => Sys2Proof.Machine.execPowerfailDrainEnd s
  | .powerfailFlushDone => Sys2Proof.Machine.execPowerfailFlushDone s
  | .powerfailCloseDone => Sys2Proof.Machine.execPowerfailCloseDone s
  | .authChallenge o role => Sys2Proof.Machine.execAuthChallenge o role s
  | .authCheckResponse o role va vb => Sys2Proof.Machine.execAuthCheckResponse o role va vb s
  | .authDrop o role => Sys2Proof.Machine.execAuthDrop o role s
  | .challengeLapse o => Sys2Proof.Machine.execChallengeLapse o s
  | .roleIdleLapse o => Sys2Proof.Machine.execRoleIdleLapse o s
  | .roleLockoutEnd role => Sys2Proof.Machine.execRoleLockoutEnd role s
  | .arm o => Sys2Proof.Machine.execArm o s
  | .kill o => Sys2Proof.Machine.execKill o s
  | .perturbEvent n => Sys2Proof.Machine.execPerturbEvent n s
  | .shareClaim o r => Sys2Proof.Machine.execShareClaim o r s
  | .shareRelease o r => Sys2Proof.Machine.execShareRelease o r s
  | .shareAssign o r blk => Sys2Proof.Machine.execShareAssign o r blk s
  | .gpioEdge level => Sys2Proof.Machine.execGpioEdge level s
  | .registerRead o page off len => Sys2Proof.Machine.execRegisterRead o page off len s
  | .rtcLoad o => Sys2Proof.Machine.execRtcLoad o s
  | .nandDieReset ch die => Sys2Proof.Machine.execNandDieReset ch die s
  | .powerCut => Sys2Proof.Machine.execPowerCut s
  | .setServiceTimeout => Sys2Proof.Machine.execSetServiceTimeout s
  | .droveFlitRx p f => Sys2Proof.Machine.execDroveFlitRx p f s
  | .droveReplayTimeout p => Sys2Proof.Machine.execDroveReplayTimeout p s
  | .illegalEncoding c => Sys2Proof.Machine.execIllegalEncoding c s
  | .invalidCommandOpcode c opcode => Sys2Proof.Machine.execInvalidCommandOpcode c opcode s
  | .mapPageWriteback => Sys2Proof.Machine.execMapPageWriteback s
  | .aspmL12Entry port => Sys2Proof.Machine.execAspmL12Entry port s
  | .aspmL12Exit port => Sys2Proof.Machine.execAspmL12Exit port s
  | .bootTablesDone => Sys2Proof.Machine.execBootTablesDone s
  | .perturbDelayExpiry page => Sys2Proof.Machine.execPerturbDelayExpiry page s
  | .serveActivityExpiry => Sys2Proof.Machine.execServeActivityExpiry s

end Sys2Proof.Machine
end

