-- ==== Sys2Proof/Machine/Step.lean ====
section
/-!
DEFINITION. The step: the command at the front of the queue runs; on an empty queue one cycle of CTL passes.
-/

namespace Sys2Proof.Machine

/-- What the block does on an empty queue: DTIME advances by one CTL cycle, 10 ns, under the RTC's discipline (R17, R19; log entry 1), the triggers of the
cycle that ends are processed (R139), the Gate's training goes on (R52), its link sends an idle flit that is due (R60), Earmark's ports take
operations (R388), and memory errors may
arise in the cores (R318; log entry 57). -/
def State.idle (s : State) : State := s.settleTriggers.tick.trainTick.idleTick.earTick.condsEnd.coreUpsets

/-- One step: the command at the front of the queue runs on the queue's rest, and an empty queue idles. -/
def step (s : State) : Host.Outcome State Fault Refusal :=
  match s.pending with
  | [] => .next s.idle
  | c :: rest => exec c { s with pending := rest }

/-- The state with the command a word spells put at the front of its queue; unchanged where the word spells none. -/
def State.withFetchWord (s : State) (nbits w : Nat) : State :=
  match decodeTableWord nbits w with
  | some c => { s with pending := c :: s.pending }
  | none => s

end Sys2Proof.Machine
end

