-- ==== Sys2Proof/Safety.lean ====
section
/-!
DEFINITION. What counts as a well-formed machine: the memories keep their canonical form. And what the statements about the
Crook cores say again and again: that an instruction's parcels are fetched, and what it leaves alone.
-/

namespace Sys2Proof.Machine

/-- Every memory of the block keeps its canonical form. -/
def MemSt.wf (m : MemSt) : Bool := memWf m.dram && memWf m.common && memWf m.hostA && memWf m.hostB

/-- No key of any kind is left (R427). -/
def State.keysGone (s : State) : Prop :=
  s.keys.kekMedia = none ∧ s.keys.kekFunc = [] ∧ s.keys.slots = [] ∧ s.keys.ctxs = [] ∧ s.keys.queue = [] ∧ s.keys.masks = []

/-- A cipher job that comes now runs: some pipeline may take it, and all that may hold fresh masks (R404, R406). -/
abbrev State.cipherReady (s : State) : Prop := s.pipesFor ≠ [] ∧ ∀ p ∈ s.pipesFor, p ∈ s.keys.masks

/-- A command whose die reads have all ended. -/
def State.readingCmd (s : State) (k : CmdKey) : State := s.modCmd k fun h => { h with left := 0, phase := .running }

/-! ### Crook instructions -/

/-- Core `c` is RUNNING with no memory error in it and every parcel of an instruction of `len` parcels is fetched: `x` is what the
instruction works on, PC past it (R318, R336). -/
def State.fetchedOn (s : State) (c : Fin 72) (len cyc : Nat) (x : Ctx) : Prop :=
  s.cores[c].state = .running ∧ s.cores[c].upsets = [] ∧ ∃ z, Ctx.fetch len s.cores[c].pc.toNat ⟨s, c, s.cores[c], cyc, none, none, 0⟩ = .ok z
    ∧ x = { z with k := { z.k with pc := s.cores[c].pc + BitVec.ofNat 48 (2 * len) } }

/-- A core's whole data stack, top first: the hardware part, then the spilled entries from just below DSP down to DSL (R303, R304). -/
def Core.wholeDs (k : Core) : List Word :=
  k.ds ++ ((List.range ((k.dsp.toNat - k.dsl.toNat) / 8)).map fun i =>
    BitVec.ofNat 64 (leNat (memReadN k.mem (k.dsp.toNat - 8 * (i + 1)) 8)))

/-- Lane `i` of an entry (R347). -/
def laneAt (w : Lane) (v : Word) (i : Nat) : Nat := bits v.toNat (laneBits w * i) (laneBits w)

/-- An integer as a `w`-bit lane, wrapped, or clamped to the signed or the unsigned range (R348). -/
def laneOfInt (m : OpMod) (r : Int) : Int :=
  let n := laneBits m.w
  let lo : Int := if m.s then -(2 : Int) ^ (n - 1) else 0
  let hi : Int := if m.s then (2 : Int) ^ (n - 1) - 1 else (2 : Int) ^ n - 1
  (if m.t then max lo (min hi r) else r) % (2 : Int) ^ n

/-- What an instruction on core `c` leaves alone: every other core, the memories behind XLATE, and every block but the cores; on the
core itself the stack limits, LP, STATUS, the trap registers, FUNC, the D-cache and the program. -/
structure State.ranOn (s t : State) (c : Fin 72) : Prop where
  others : ∀ d : Fin 72, d ≠ c → t.cores[d] = s.cores[d]
  mem : t.mem = s.mem
  blocks : t.media = s.media ∧ t.array = s.array ∧ t.nand = s.nand ∧ t.take = s.take ∧ t.gate = s.gate ∧ t.keys = s.keys
    ∧ t.jobs = s.jobs ∧ t.trust = s.trust ∧ t.ns = s.ns ∧ t.time = s.time ∧ t.pending = s.pending
  limits : t.cores[c].dsl = s.cores[c].dsl ∧ t.cores[c].dsh = s.cores[c].dsh ∧ t.cores[c].rsl = s.cores[c].rsl
    ∧ t.cores[c].rsh = s.cores[c].rsh ∧ t.cores[c].lp = s.cores[c].lp ∧ t.cores[c].func = s.cores[c].func
  traps : t.cores[c].trapvec = s.cores[c].trapvec ∧ t.cores[c].trapcause = s.cores[c].trapcause
    ∧ t.cores[c].trappc = s.cores[c].trappc
  dcache : t.cores[c].dcache = s.cores[c].dcache
  program : t.cores[c].prog = s.cores[c].prog
  runs : t.cores[c].state = .running
  count : t.cores[c].insns = s.cores[c].insns + 1

/-- An instruction on core `c` that worked on `y`, its operands present, replaced `n` data entries by `out` and went on at `pc`: the
return stack and STATUS are as before, local memory is as the spills left it, and CYCLE counts its cycles (R304, R338, R339). -/
structure State.gave (s t : State) (c : Fin 72) (y : Ctx) (n : Nat) (out : List Word) (pc : BitVec 48) : Prop where
  ran : s.ranOn t c
  ds : t.cores[c].ds = out ++ y.k.ds.drop n
  dsp : t.cores[c].dsp = y.k.dsp
  rs : t.cores[c].rs = s.cores[c].rs ∧ t.cores[c].rsp = s.cores[c].rsp
  local_ : t.cores[c].mem = y.k.mem
  status : t.cores[c].status = s.cores[c].status
  pc : t.cores[c].pc = pc
  cycle : t.cores[c].cycle = s.cores[c].cycle + BitVec.ofNat 64 y.cost

/-- A floating-point instruction on core `c` replaced `n` data entries of `y` by lanes of width `w`: `res` gives each lane's value and the
flags that it raises, bit 0 of them being STATUS bit 4; STATUS changes in nothing else, and PC goes to the next parcel (R312, R314,
R350). -/
def State.gaveFloat (s t : State) (c : Fin 72) (y : Ctx) (n : Nat) (w : Lane) (res : Nat → Nat × Nat) : Prop :=
  s.ranOn t c ∧ t.cores[c].pc = s.cores[c].pc + 2 ∧ t.cores[c].rs = s.cores[c].rs ∧ t.cores[c].rsp = s.cores[c].rsp
    ∧ t.cores[c].mem = y.k.mem ∧ t.cores[c].dsp = y.k.dsp
    ∧ (∃ r : Word, t.cores[c].ds = r :: y.k.ds.drop n ∧ ∀ j < 64 / laneBits w, laneAt w r j = (res j).1 % 2 ^ laneBits w)
    ∧ (∃ fl : Nat, t.cores[c].status = s.cores[c].status ||| BitVec.ofNat 64 (fl * 16)
      ∧ ∀ b, bitAt fl b = true ↔ ∃ j < 64 / laneBits w, bitAt (res j).2 b = true)

end Sys2Proof.Machine
end

