-- ==== Sys2Proof/Certificates/Slice0/Obligations.lean ====
section
/-!
DEFINITION. The statements for the provers.
-/

open Sys2Proof Sys2Proof.Machine

/-- A step with a command at the front of its queue is that command's effect on the state with the rest of the queue. -/
def Obligations.StepRunsFrontCommand : Prop :=
  ∀ (s : State) (c : Instr), step { s with pending := c :: s.pending } = exec c s
/-- The Gate link's own commands complete (R52-R68, R86, R87): training gives the chosen width and the first credits, a failure waits
100 ms, a lane loss holds the credits, a retrain keeps the replay buffer and a link-down empties it, a good flit in order is
acknowledged and a bad one is not, and packets and heartbeats leave under their credits. -/
def Obligations.GateLinkCommandsComplete : Prop :=
  (∀ (s : State) (good inv : BitVec 16) (rev : Bool) (g : Nat × Nat), s.mayDetect = true → s.gate.failedAt = none →
    chooseGroup good.toNat (s.get R.GATE.LINK_CTRL_MAX_WIDTH) = some g →
    ∃ t : State, exec (.gateLinkUp good rev inv) s = .next (if g.1 < 3 then t.recompute else t) ∧ t.gateActive = true ∧ t.get R.GATE.LINK_STATUS_WIDTH = g.1
      ∧ t.get R.GATE.LANE_POLARITY_INVERTED = inv.toNat ∧ t.gate.group = g.2 ∧ t.gate.advData = 8192 ∧ t.gate.advCtrl = 64
      ∧ t.gate.replay = [])
  ∧ (∀ (s : State) (good : BitVec 16), s.mayDetect = true → s.gate.failedAt = none →
    chooseGroup good.toNat (s.get R.GATE.LINK_CTRL_MAX_WIDTH) = none →
    ∃ t : State, exec (.gateTrainFail good) s = .next t ∧ t.gate.failedAt = some s.time
      ∧ (s.get (H.VALID 0x10) = 0 → t.get (H.CODE 0x10) = 0x101C))
  ∧ (∀ (s : State) (at_ : Nat), s.gate.failedAt = some at_ →
    ∃ t : State, exec .gateTrainRetry s = .next t ∧ t.gate.failedAt = none ∧ t.time = max s.time (at_ + 100000000))
  ∧ (∀ (s : State) (lane : Fin 16) (g : Nat × Nat), s.gateActive = true → s.carries lane.val = true →
    (s.failLane lane.val).groupLeft = some g →
    ∃ t : State, exec (.gateLaneLost lane) s = .next t.recompute ∧ t.gateRetrain = true ∧ t.get R.GATE.LINK_STATUS_WIDTH = g.1
      ∧ t.gate.group = g.2 ∧ bitAt (t.get R.GATE.LINK_STATUS_LANE_FAILED) lane.val = true
      ∧ t.bit R.GATE.CREDIT_STATE_HELD_RETRAIN = true)
  ∧ (∀ (s : State) (g : Nat × Nat), s.gateRetrain = true → s.groupLeft = some g →
    ∃ t : State, exec (.gateRetrainDone 0) s = .next t ∧ t.gateActive = true ∧ t.get R.GATE.LINK_STATUS_WIDTH = s.get R.GATE.LINK_STATUS_WIDTH % 4
      ∧ t.bit R.GATE.CREDIT_STATE_HELD_RETRAIN = false ∧ t.gate.replay = s.gate.replay)
  ∧ (∀ s : State, (s.gateActive = true ∨ s.gateRetrain = true) → s.takeLive = false →
    ∃ t : State, exec .gateLinkDown s = .next t ∧ t.gateActive = false ∧ t.gate.replay = [] ∧ t.gate.mayTrain = true)
  ∧ (∀ (s : State) (at_ : Nat), s.gate.graceFrom = some at_ → s.takeLive = true →
    ∃ t : State, exec .takeLinkLost s = .next (t.closeTake 3 6).settle ∧ t.gate.graceFrom = none
      ∧ t.time = max s.time (at_ + s.get R.GATE.LINK_GRACE_MS_GRACE * 1000000))
  ∧ (∀ (s : State) (f : Flit), s.gateActive = true → f.crcOk = true → bits f.link.toNat 10 2 = 0 → bits f.link.toNat 22 2 ≠ 3 →
    bits f.link.toNat 48 2 = 0 → bits f.link.toNat 0 10 = (s.gate.rxSeq + 1) % 1024 →
    ∃ t : State, exec (.gateFlitRx f) s = .next (State.parseArea 60 t f.area).advance.judgeLanes ∧ t.gate.rxSeq = bits f.link.toNat 0 10
      ∧ t.gate.ackOut = 1 ∧ t.gate.nakked = false)
  ∧ (∀ (s : State) (f : Flit), s.gateActive = true → f.crcOk = false → (s.noteFec f.fecCorrected).noisyLane = none →
    ∃ t : State, exec (.gateFlitRx f) s = .next t ∧ t.gate.rxSeq = s.gate.rxSeq ∧ t.gate.rxBuf = s.gate.rxBuf ∧ t.gate.ackOut = 2
      ∧ t.gate.nakked = true)
  ∧ (∀ s : State, s.gateActive = true → s.gate.replay ≠ [] → s.gate.replays < 3 →
    ∃ t : State, exec .gateReplayTimeout s = .next t ∧ t.gate.replays = s.gate.replays + 1 ∧ t.gate.replay = s.gate.replay
      ∧ t.time = max s.time (s.gate.ackFrom + 2000))
  ∧ (∀ (s : State) (p : Bytes) (ps : List Bytes), s.gate.txq = p :: ps → s.gateActive = true → s.gate.replay.length < 512 →
    s.gate.mayCtrl = true →
    ∃ t : State, exec .gatePacketSend s = .next t ∧ t.gate.txq = ps ∧ t.gate.txCtrl = s.gate.txCtrl + 1
      ∧ ∃ f : TxFlit, t.gate.replay = s.gate.replay ++ [f] ∧ t.gate.sent = some f ∧ f.seq = (s.gate.txSeq + 1) % 1024
        ∧ f.packets.getLast? = some p ∧ (s.gate.hbDue ≤ s.time → ∃ b, f.packets = [b, p] ∧ pktType b = 0x3F)
        ∧ bits f.link 0 10 = f.seq ∧ bits f.link 10 2 = 0 ∧ bits f.link 12 10 = s.gate.rxSeq % 1024 ∧ bits f.link 22 2 = s.gate.ackOut % 4)
  ∧ (∀ s : State, s.gateActive = true → s.gate.replay.length < 512 →
    ∃ (t : State) (p : Bytes) (f : TxFlit), exec .gateHeartbeatTx s = .next t ∧ t.gate.hbSeq = (s.gate.hbSeq + 1) % 2 ^ 32 ∧ pktType p = 0x3F
      ∧ t.gate.replay = s.gate.replay ++ [f] ∧ f.seq = (s.gate.txSeq + 1) % 1024 ∧ f.packets = [p] ∧ t.gate.txCtrl = s.gate.txCtrl)
  ∧ (∀ (s : State) (p : HeartbeatPkt) (sent : Nat), assoc s.gate.hbTimes p.echoSeq.toNat = some sent →
    ∃ t : State, exec (.heartbeat p) s = .next t ∧ t.get R.GATE.RTT_NS_RTT = (s.time - sent - p.holdNs.toNat) % 2 ^ 32)

/-- FULL_RETRAIN (R56) and the tunnel (R83-R85). -/
def Obligations.FullRetrainRestartsTheLink : Prop :=
  (∀ (s : State) (o : Origin), s.powered = true → s.reaches o 0x10 = true → s.holds o .installer = true → s.takeLive = false →
    s.get R.GATE.LINK_CTRL_MAX_WIDTH % 4 ≠ 0 →
    ∃ t : State, exec (.fullRetrain o) s = .next t ∧ t.gateActive = false ∧ t.gate.replay = [] ∧ t.gate.mayTrain = true)
  ∧ (∀ (s : State) (o : Origin), s.powered = true → s.reaches o 0x10 = true → s.holds o .installer = true → s.takeLive = true →
    s.get R.GATE.LINK_CTRL_MAX_WIDTH % 4 ≠ 0 →
    ∃ t : State, exec (.fullRetrain o) s = .next t ∧ t.gateActive = s.gateActive ∧ t.gate = s.gate ∧ t.refusal = some 0x1021)
  ∧ (∀ (s : State) (p : CtrlReqPkt), s.gate.rxBuf.any (pktType · == 0x30) = true → s.tunnelOpen = false → s.gateActive = true →
    ∃ t : State, exec (.ctrlReq p) s = .next t ∧ t.gate.txq = s.gate.txq ++ [answerPkt p.tag.toNat ⟨4, 0, 0⟩])
  ∧ (∀ (s : State) (p : CtrlReqPkt), s.gate.rxBuf.any (pktType · == 0x30) = true → s.tunnelOpen = true → s.gateActive = true → 17 ≤ s.gate.unanswered →
    ∃ t : State, exec (.ctrlReq p) s = .next t ∧ t.gate.txq = s.gate.txq ++ [answerPkt p.tag.toNat ⟨3, 0, 0⟩])
  ∧ (∀ (s : State) (p : CtrlReqPkt), s.gate.rxBuf.any (pktType · == 0x30) = true → s.tunnelOpen = true → s.gateActive = true → s.gate.unanswered ≤ 16 → reqBad p = true →
    ∃ t : State, exec (.ctrlReq p) s = .next t ∧ t.gate.txq = s.gate.txq ++ [answerPkt p.tag.toNat ⟨2, 0, 0⟩])
  ∧ (∀ (s : State) (p : CtrlReqPkt), s.gate.rxBuf.any (pktType · == 0x30) = true → s.tunnelOpen = true → s.gateActive = true → s.gate.unanswered ≤ 16 → p.op.toNat = 0 →
    reqBad p = false → s.powered = true → s.reaches .gate (p.page.toNat % 512) = true →
    ∃ (t : State) (a : RegAnswer), exec (.ctrlReq p) s = .next t ∧ a = ((s.leaveRx (pktType · == 0x30)).runReq .gate p).1 ∧ a.status = 0 ∧ a.err = 0
      ∧ t.gate.txq = s.gate.txq ++ [answerPkt p.tag.toNat a])

/-- R68, for both classes: the packet is discarded and GATE_CREDIT_OVERRUN recorded, the count rises, and the limit advances by one. -/
def Obligations.CreditOverrunDiscards : Prop :=
  (∀ (s : State) (p : Bytes), pktType p = 0x11 → s.gate.advData ≤ s.gate.rxData →
    (s.takeIn p).gate = { s.gate with rxData := s.gate.rxData + 1, advData := s.gate.advData + 1 }
      ∧ (s.takeIn p).bit (H.VALID 0x10) = true
      ∧ (s.get (H.VALID 0x10) = 0 → (s.takeIn p).get (H.CODE 0x10) = 0x101E)
      ∧ (s.takeIn p).get (H.ERRS 0x10) = min (s.get (H.ERRS 0x10) + 1) 255)
  ∧ (∀ (s : State) (p : Bytes), pktType p ≠ 0x11 → pktType p ≠ 0x3F → s.gate.advCtrl ≤ s.gate.rxCtrl →
    (s.takeIn p).gate = { s.gate with rxCtrl := s.gate.rxCtrl + 1, advCtrl := s.gate.advCtrl + 1 }
      ∧ (s.takeIn p).bit (H.VALID 0x10) = true
      ∧ (s.get (H.VALID 0x10) = 0 → (s.takeIn p).get (H.CODE 0x10) = 0x101E)
      ∧ (s.takeIn p).get (H.ERRS 0x10) = min (s.get (H.ERRS 0x10) + 1) 255)
/-- Admission and the bounds of a grant (R73, R92-R94, R98, R111). -/
def Obligations.TakeIsAdmittedOrRefused : Prop :=
  (∀ (s : State) (p : TakeOpenPkt), s.get R.TAKE.TAKE_STATE_STATE = 0 →
    ∃ t : State, exec (.takeOpen p) s = .next t.follow ∧ t.get R.TAKE.TAKE_STATE_STATE = 1 ∧ t.take.req = some p ∧ t.gate.txq = s.gate.txq)
  ∧ (∀ (s : State) (p : TakeOpenPkt), 1 ≤ s.get R.TAKE.TAKE_STATE_STATE → s.get R.TAKE.TAKE_STATE_STATE ≤ 4 →
    ∃ t : State, exec (.takeOpen p) s = .next t ∧ t.take = s.take
      ∧ t.gate.txq = s.gate.txq ++ [grantPkt p.reqId.toNat 2 0x10 0 0 0 0 0])
  ∧ (∀ (s : State) (p : TakeOpenPkt) (why : Nat), s.take.req = some p → s.get R.TAKE.TAKE_STATE_STATE = 1 → s.drove.armed = none →
    (s.setTake fun t => { t with req := none }).admission p = .refuse why →
    ∃ t : State, exec .takeGrant s = .next t ∧ t.get R.TAKE.TAKE_STATE_STATE = 0 ∧ t.take = { s.take with req := none }
      ∧ t.gate.txq = s.gate.txq ++ [grantPkt p.reqId.toNat 2 why 0 0 0 0 0])
  ∧ (∀ (s u : State) (p : TakeOpenPkt) (rate d cap lee nsid rec slot : Nat), s.take.req = some p →
    s.get R.TAKE.TAKE_STATE_STATE = 1 → s.drove.armed = none →
    (s.setTake fun t => { t with req := none }).admission p = .grant rate d cap lee →
    (s.setTake fun t => { t with req := none }).takeNsid = some nsid →
    (s.setTake fun t => { t with req := none }).newMediaKey nsid = (some (rec, slot), u) →
    ∃ o t : State, o = u.openTake p rate d cap lee nsid rec slot ∧ exec .takeGrant s = .next t.follow.settle
      ∧ t.gate.txq = o.gate.txq ++ [grantPkt p.reqId.toNat (b2n (grantReason p rate d != 0)) (grantReason p rate d) o.takeId rate d cap lee]
      ∧ t.take = o.take ∧ t.ns = o.ns)
  ∧ (∀ (s : State) (p : TakeOpenPkt) (rate d cap lee : Nat), s.admission p = .grant rate d cap lee →
    0 < rate ∧ rate ≤ p.rate.toNat ∧ rate ≤ s.gateLimit ∧ rate ≤ 9600 * s.liveLanes
      ∧ rate * 256 ≤ s.mRate p.tier.toNat * p.minRatio.toNat
      ∧ (bitAt p.flags.toNat 1 = true → p.digestAlg = 0 → rate ≤ 76800)
      ∧ (p.duration.toNat ≠ 0 → d ≤ p.duration.toNat)
      ∧ cap ≤ lee * 2 ^ 20 ∧ lee ≤ 1024 * s.get R.TAKE.LEE_RESERVE_GIB
      ∧ openReserved p = false ∧ s.offline = false ∧ s.mode ≠ 7 ∧ s.keys.kekMedia ≠ none)

/-- The lifecycle (R99-R103, R108, R111, R247). -/
def Obligations.TakeLifecycleMoves : Prop :=
  (∀ (s : State) (c : Contract) (id : BitVec 64), s.takeLive = true → s.take.c = some c → c.takeId = id.toNat →
    ∃ t : State, exec (.takeClose id) s = .next t.tryTrailer.settle ∧ t.get R.TAKE.TAKE_STATE_STATE = 4
      ∧ t.get R.TAKE.TAKE_STATE_CLOSE_CAUSE = 1 ∧ t.take.reason = 0)
  ∧ (∀ (s : State) (c : Contract) (id : BitVec 64), s.take.c = some c → c.takeId ≠ id.toNat →
    ∃ t : State, exec (.takeClose id) s = .next t ∧ t.take = s.take ∧ (s.get (H.VALID 0x10) = 0 → t.get (H.CODE 0x10) = 0x101F))
  ∧ (∀ (s : State) (c : Contract), s.takeLive = true → s.take.c = some c → c.duration ≠ 0 →
    ∃ t : State, exec .takeDurationExpiry s = .next t.tryTrailer.settle ∧ t.get R.TAKE.TAKE_STATE_STATE = 4
      ∧ t.get R.TAKE.TAKE_STATE_CLOSE_CAUSE = 2 ∧ t.take.reason = 1
      ∧ t.time = max s.time (s.take.grantTime + c.duration * 1000000000))
  ∧ (∀ (s : State) (c : Contract), s.take.c = some c → s.get R.TAKE.TAKE_STATE_STATE = 2 → c.cap ≤ s.unsecured →
    ∃ t : State, exec .takeRateBreach s = .next t ∧ t.get R.TAKE.TAKE_STATE_STATE = 3 ∧ t.bit R.GATE.CREDIT_STATE_HELD_BREACH = true
      ∧ t.get R.TAKE.BREACH_COUNT_COUNT = min (s.get R.TAKE.BREACH_COUNT_COUNT + 1) (2 ^ 32 - 1)
      ∧ t.gate.advData = s.gate.advData ∧ (s.get (H.VALID 0x11) = 0 → t.get (H.CODE 0x11) = 0x1112))
  ∧ (∀ (s : State) (c : Contract), s.take.c = some c → s.get R.TAKE.TAKE_STATE_STATE = 3 →
    s.unsecured + releaseMargin c.cap ≤ c.cap →
    ∃ t : State, exec .takeBreachRelease s = .next t ∧ t.get R.TAKE.TAKE_STATE_STATE = 2 ∧ t.bit R.GATE.CREDIT_STATE_HELD_BREACH = false
      ∧ t.take = s.take)
  ∧ (∀ (s : State) (c : Contract), s.take.c = some c → s.takeLive = true → s.take.ratioStored ≤ s.take.cont.length →
    ∃ t : State, exec .takeRatioMeasure s = .next t ∧ t.take.ratioRaw = 0 ∧ t.take.ratioStored = s.take.cont.length
      ∧ t.time = max s.time (s.take.ratioFrom + 1000000000) ∧ t.take.ratioFrom = t.time
      ∧ (s.take.ratioRaw ≠ 0 → s.take.ratioStored < s.take.cont.length →
          t.get R.TAKE.RATIO_NOW_RATIO = min 65535 (s.take.ratioRaw * 256 / (s.take.cont.length - s.take.ratioStored))))
  ∧ (∀ (s u : State) (c : Contract), s.take.c = some c → s.take.trailer = none → s.take.noTrailer = false → s.tailRoom c ≠ 0 →
    s.indexDue = false → u = { s with time := max s.time (s.take.tailSince + s.get R.TAKE.SECURE_WINDOW_US * 1000) } →
    exec .secureWindowPad s = .next (u.appendRaw (padRecord (s.tailRoom c))).settle)
  ∧ (∀ (s : State) (g : Group) (i : Nat), s.stripeToClose = some (g, i) →
    ∃ t : State, exec .stripeClose s
        = .next (t.advanceSecured.followCopies.closeFull.retryWaiting.freeEmpty.issueReady.ckptStep).settle ∧ t.array.snapDirty = true
      ∧ ∃ h ∈ t.groups, h.num = g.num ∧ (h.stripes[i]?).map (·.closed) = some true)
  ∧ (∀ (s : State) (c : Contract), s.take.c = some c → s.get R.TAKE.TAKE_STATE_STATE = 4 → s.take.pfPhase = 0 → s.takeDone = true →
    s.take.noTrailer = false →
    ∃ (t : State) (top : Bytes), exec .takeClosed s = .next t ∧ t.take.c = none
      ∧ t.gate.txq = s.gate.txq ++ if s.take.reason = 5 ∨ s.take.reason = 6 then []
          else [closedPkt c.takeId s.take.reason (DigestAlg.ofCode c.alg).len s.take.framesStored s.take.rawStored
            s.take.cont.length s.take.marked top])
  ∧ (∀ (s : State) (c : Contract), s.take.c = some c → s.takeLive = true → c.tier = 0 → s.get R.FALLOW.RESERVED_USER_MB = 0 →
    ∃ t : State, exec .fallowReservationUsed s = .next t.recompute ∧ t.take.c = some { c with tier := 1 })
  ∧ (∀ (s : State) (c : Contract), s.take.c = some c → s.takeLive = true → c.tier = 1 →
    (s.get R.MEDIA.MAXCAP_MB - (s.ns.map Ns.heldMB).foldl (· + ·) 0) * 1000000 ≤ c.cap →
    ∃ t : State, exec .mediaCapacityFull s = .next (t.closeExhausted 4).settle ∧ t.take = s.take
      ∧ (s.get (H.VALID 0x60) = 0 → t.get (H.CODE 0x60) = E.MEDIA_CAPACITY_FULL))

/-- Frame packets and what follows them (R76-R79, R81, R115, R127-R129). -/
def Obligations.FramesAreJudgedAndStored : Prop :=
  (∀ (s : State) (p : FrameBeginPkt) (c : Contract), s.openFrame p.stream.toNat = none → s.take.c = some c → s.takeLive = true →
    bitAt c.streams p.stream.toNat = true → beginLegal p = true →
    ∃ (t : State) (f : FrameSt), exec (.frameBegin p) s = .next t ∧ t.take.nextUid = s.take.nextUid + 1 ∧ f ∈ t.take.frames ∧ f.uid = s.take.nextUid
      ∧ f.stream = p.stream.toNat ∧ f.number = p.number.toNat ∧ f.declared = p.declared.toNat ∧ f.recv = 0 ∧ f.ended = false)
  ∧ (∀ (s : State) (p : FrameBeginPkt), s.openFrame p.stream.toNat = none → s.take.c = none →
    ∃ t : State, exec (.frameBegin p) s = .next t ∧ t.take.frames = s.take.frames ∧ p.stream.toNat ∈ t.take.refusing
      ∧ (s.get (H.VALID 0x10) = 0 → t.get (H.CODE 0x10) = 0x1012))
  ∧ (∀ (s : State) (p : FrameDataPkt) (f : FrameSt), s.openFrame p.stream.toNat = some f → s.frame? f.uid = some f →
    p.offset.toNat = f.recv → p.fnumLo.toNat = f.number % 65536 →
    ∃ (t : State) (g : FrameSt), exec (.frameData p) s = .next (t.queueSlices f.uid (wholeSlices g)) ∧ t.frame? f.uid = some g
      ∧ g.recv = f.recv + p.payload.length ∧ g.bytes = f.bytes ++ p.payload.take (f.declared - f.recv) ∧ g.marks = f.marks)
  ∧ (∀ (s : State) (p : FrameDataPkt) (f : FrameSt), s.openFrame p.stream.toNat = some f → s.frame? f.uid = some f →
    (p.offset.toNat ≠ f.recv ∨ p.fnumLo.toNat ≠ f.number % 65536) →
    ∃ (t : State) (g : FrameSt), exec (.frameData p) s = .next t ∧ t.frame? f.uid = some g ∧ g.recv = f.recv ∧ g.bytes = f.bytes
      ∧ bitAt g.marks 2 = true ∧ t.take.ratioRaw = s.take.ratioRaw)
  ∧ (∀ (s : State) (p : FrameEndPkt) (f : FrameSt), s.openFrame p.stream.toNat = some f →
    ∃ t : State, exec (.frameEnd p) s = .next (t.endFrame f p.status.toNat (if bitAt p.flags.toNat 0 then some p.crc.toNat else none)
      (p.number.toNat != f.number || decide (2 < p.status.toNat))) ∧ t.take = s.take)
  ∧ (∀ (s : State) (p : MetaPkt) (f : FrameSt), s.openFrame p.stream.toNat = some f → s.frame? f.uid = some f →
    ∃ (t : State) (g : FrameSt), exec (.metaPacket p) s = .next t ∧ t.frame? f.uid = some g
      ∧ g.metaMem = memWriteN f.metaMem p.offset.toNat (p.data.take (4096 - p.offset.toNat)) ∧ g.marks = f.marks)
  ∧ (∀ (s : State) (uid : Nat) (f : FrameSt), s.frame? uid = some f → f.ended = true → f.key = none →
    ∃ (t : State) (key : List Nat), exec (.summaryKeyComplete uid) s = .next (t.finishFrame uid).settle ∧ t.frame? uid = some { f with key := some key }
      ∧ key = summaryKey (frameStats f.pixfmt f.width f.height f.bytes) (summaryInput f) (s.take.keysel.getD f.stream []))
  ∧ (∀ (s : State) (c : Contract) (f : FrameSt) (x : TakeSlice), s.take.c = some c →
    (s.headFrames.findSome? fun f => (s.nextSlice f).map fun x => (f, x)) = some (f, x) →
    exec .sliceRelease s = .next ((s.releaseSlice c f x).finishFrame f.uid).settle)

/-- The rows of R81 and R78 for the end of a frame, and no other mark. -/
def Obligations.FrameEndMarksTheFrame : Prop :=
  ∀ (s : State) (f : FrameSt) (status : Nat) (crc : Option Nat) (damaged : Bool), s.frame? f.uid = some f →
    ∃ (t : State) (g : FrameSt), s.endFrame f status crc damaged = t.queueSlices f.uid (f.bytes.length + 1) ∧ t.frame? f.uid = some g
      ∧ g.ended = true ∧ g.status = status ∧ g.bytes = f.bytes
      ∧ bitAt g.marks 0 = (bitAt f.marks 0 || decide (f.recv < f.declared))
      ∧ bitAt g.marks 1 = (bitAt f.marks 1 || decide (f.declared < f.recv))
      ∧ bitAt g.marks 2 = (bitAt f.marks 2 || damaged)
      ∧ bitAt g.marks 3 = bitAt f.marks 3
      ∧ bitAt g.marks 4 = (bitAt f.marks 4
          || (match crc with | some c => decide (f.recv ≤ f.declared) && c != crc32c f.bytes | none => false))
      ∧ bitAt g.marks 5 = (bitAt f.marks 5 || status != 0)

/-- R138: each of its cases is refused with TRIG_BAD_WINDOW and leaves every window as it was. -/
def Obligations.BadTriggerWindowIsRefused : Prop :=
  ∀ (s : State) (c : Contract) (src tag time pre post : Nat), s.take.c = some c → c.kind = 1 → s.takeLive = true →
    (600000 < pre ∨ 3600000 < post ∨ pre + post = 0 ∨ s.time + 3600 * 1000000000 < time) →
    (s.trigger src tag time pre post).trig = s.trig
      ∧ (s.get (H.VALID 0x13) = 0 → (s.trigger src tag time pre post).get (H.CODE 0x13) = 0x1312)
      ∧ (s.trigger src tag time pre post).get R.TRIG.REFUSED_COUNT_COUNT = min (s.get R.TRIG.REFUSED_COUNT_COUNT + 1) (2 ^ 32 - 1)

/-- Triggers and windows (R135-R143, R146, R148). -/
def Obligations.TriggersAndWindows : Prop :=
  (∀ (s : State) (p : TriggerPkt), s.bit R.TRIG.TRIG_CTRL_GATE_EN = true →
    ∃ t : State, exec (.trigger p) s = .next (t.arrive 3 p.tag.toNat p.t.toNat (orDefault p.preMs.toNat (s.get R.TRIG.DEFAULT_PRE_MS))
        (orDefault p.postMs.toNat (s.get R.TRIG.DEFAULT_POST_MS)))
      ∧ t.trig = s.trig ∧ t.take = s.take)
  ∧ (∀ (s : State) (pin : Fin 3) (rising : Bool) (ns : Nat), 100 ≤ ns → bitAt (s.get R.TRIG.TRIG_CTRL_PIN_EN) pin.val = true →
    s.countsEdge pin.val rising = true → (pin.val = 2 → s.trigOwnsPin2 = true) →
    (∀ e, s.trig.lastEdge.getD pin.val none = some e → e + s.get R.TRIG.PIN_HOLDOFF_US * 1000 ≤ s.time) →
    ∃ t : State, exec (.trigPinEdge pin rising ns) s
        = .next (t.arrive pin.val 0 s.time (s.get R.TRIG.DEFAULT_PRE_MS) (s.get R.TRIG.DEFAULT_POST_MS))
      ∧ t.trig.windows = s.trig.windows ∧ t.take = s.take)
  ∧ (∀ (s : State) (o : Origin) (tag : BitVec 16), s.powered = true → s.reaches o 0x13 = true →
    s.bit R.TRIG.TRIG_CTRL_SW_EN = true →
    ∃ t : State, exec (.swFire o tag) s
        = .next (t.arrive 5 tag.toNat (s.get R.TRIG.SW_TIME_DTIME)
            (orDefault (s.get R.TRIG.SW_PRE_MS_MS) (s.get R.TRIG.DEFAULT_PRE_MS))
            (orDefault (s.get R.TRIG.SW_POST_MS_MS) (s.get R.TRIG.DEFAULT_POST_MS)))
      ∧ t.trig = s.trig ∧ t.take = s.take)
  ∧ (∀ (s u : State) (uid : Nat) (f : FrameSt) (key : List Nat) (tag cls : Nat), s.frame? uid = some f → f.key = some key →
    f.ruled = false → s.bit R.TRIG.TRIG_CTRL_RULE_EN = true →
    (s.modFrame uid fun g => { g with ruled := true }).ruleHit key = (some (tag, cls), u) → s.get R.TRIG.RULE_CFG_MIN_CLASS ≤ cls →
    exec (.ruleSearch uid) s = .next (u.triggerDefault 4 tag f.capture))
  ∧ (∀ (s : State) (c : Contract) (src tag time pre post i n : Nat), s.take.c = some c → c.kind = 1 → s.takeLive = true →
    pre ≤ 600000 → post ≤ 3600000 → 0 < pre + post → time ≤ s.time + 3600 * 1000000000 →
    s.touching (time - pre * 1000000) (time + post * 1000000) = [] →
    (List.range (if trigPriority src ≤ 2 then 64 else 64 - s.get R.TRIG.HW_RESERVE_SLOTS)).find? (fun i => (s.win i).state == 0) = some i →
    s.trig.windows.length = 64 → s.takeNsid = some n →
    ∃ t : State, s.trigger src tag time pre post = (t.pinRetained i).pinUnderWay i ∧ (t.win i).state = 1 ∧ (t.win i).source = src
      ∧ (t.win i).start = time - pre * 1000000 ∧ (t.win i).fin = time + post * 1000000 ∧ (t.win i).nsid = n ∧ (t.win i).triggers = 1)
  ∧ (∀ (s : State) (a b : Fire), s.trig.arrived = [] →
    (trigPriority a.source < trigPriority b.source ∨ trigPriority a.source = trigPriority b.source ∧ a.source < b.source) →
    ((s.arrive b.source b.tag b.t b.pre b.post).arrive a.source a.tag a.t a.pre a.post).settleTriggers
        = (s.trigger a.source a.tag a.t a.pre a.post).trigger b.source b.tag b.t b.pre b.post
      ∧ ((s.arrive a.source a.tag a.t a.pre a.post).arrive b.source b.tag b.t b.pre b.post).settleTriggers
        = (s.trigger a.source a.tag a.t a.pre a.post).trigger b.source b.tag b.t b.pre b.post)
  ∧ (∀ (s u : State) (slot : Fin 64), u = s.settleTriggers → (u.win slot.val).state = 1 →
    ∃ t : State, exec (.windowSeal slot) s = .next t ∧ (t.win slot.val).state = 2 ∧ (t.win slot.val).pinned = (u.win slot.val).pinned
      ∧ t.time = max u.time ((u.win slot.val).fin + u.get R.TRIG.SETTLE_MS * 1000000))
  ∧ (∀ (s t₀ t₁ : State) (slot : Fin 64) (ring : Ns) (head : Bytes) (rec k : Nat), (s.win slot.val).state = 2 →
    s.pinnedSecured (s.win slot.val) = true → s.nsOfTake (s.win slot.val).ring = some ring →
    s.readTake ring 0 8192 = (some head, t₀) → t₀.newMediaKey (s.win slot.val).nsid = (some (rec, k), t₁) →
    ∃ t : State, exec (.windowCopyStart slot) s = .next (t.copyKept slot.val) ∧ (t.win slot.val).state = 3
      ∧ (t.win slot.val).keptId = t₁.take.nextId)
  ∧ (∀ (s u : State) (slot : Fin 64) (x : Nat × Bytes × Nat), u = s.copyKept slot.val →
    u.trig.copies.find? (·.1 == slot.val) = some x → (u.win slot.val).state = 3 → x.2.1.length ≤ x.2.2 →
    (u.openLogicals (u.win slot.val).nsid).isEmpty = true →
    ∃ t : State, exec (.keptTakeSealed slot) s = .next t ∧ (t.win slot.val).state = 0
      ∧ t.get R.TRIG.KEPT_COUNT_COUNT = min (u.get R.TRIG.KEPT_COUNT_COUNT + 1) (2 ^ 32 - 1))
/-- Shears (R166-R170, R179, R182). -/
def Obligations.ShearsLanesWork : Prop :=
  (∀ (s : State) (lane : Fin 12) (uid idx n : Nat) (f : FrameSt) (x : TakeSlice), (s.lane lane.val).work = .slice uid idx n →
    s.frame? uid = some f → s.slice? uid idx = some x → n + 1 < sliceBlocks f x →
    ∃ t : State, exec (.shearsBlockVerified lane true) s = .next t ∧ (t.lane lane.val).work = .slice uid idx (n + 1) ∧ t.take = s.take)
  ∧ (∀ (s : State) (lane : Fin 12) (uid idx n : Nat) (f : FrameSt) (x : TakeSlice) (c : Contract), (s.lane lane.val).work = .slice uid idx n →
    s.take.c = some c → s.frame? uid = some f → s.slice? uid idx = some x → sliceBlocks f x ≤ n + 1 →
    ∃ t : State, exec (.shearsBlockVerified lane true) s = .next (t.resumeLane lane.val).dispatchSlices
      ∧ t.slice? uid idx = some { x with status := .verified } ∧ t.lanes = s.lanes)
  ∧ (∀ (s : State) (lane : Fin 12) (uid idx n : Nat) (f : FrameSt) (x : TakeSlice), (s.lane lane.val).work = .slice uid idx n →
    s.frame? uid = some f → s.slice? uid idx = some x →
    ∃ t : State, exec (.shearsBlockVerified lane false) s
        = .next ((t.laneMiss lane.val n 0x1F1 false).startReemit uid idx lane.val).dispatchSlices ∧ t.take = s.take)
  ∧ (∀ (s : State) (lane : Fin 12) (uid idx : Nat), (s.lane lane.val).work = .reemit uid idx →
    ∃ t : State, exec (.shearsReemitDone lane none) s = .next (t.sliceDone lane.val uid idx) ∧ t.take = s.take ∧ t.lanes = s.lanes
      ∧ t.get (R.LANE.REEMIT_COUNT_COUNT lane.val) = min (s.get (R.LANE.REEMIT_COUNT_COUNT lane.val) + 1) (2 ^ 32 - 1))
  ∧ (∀ (s : State) (lane : Fin 12) (uid idx b : Nat) (x : TakeSlice), (s.lane lane.val).work = .reemit uid idx → s.slice? uid idx = some x →
    b < x.rawBlocks → ∃ t : State, t.get (R.LANE.LAST_MISMATCH_BLOCK lane.val) = b % 2 ^ (R.LANE.LAST_MISMATCH_BLOCK lane.val).w
      ∧ (x.tries < 2 → exec (.shearsReemitDone lane (some b)) s = .next (t.startReemit uid idx lane.val).dispatchSlices)
      ∧ (2 ≤ x.tries → exec (.shearsReemitDone lane (some b)) s = .next (t.loseSlice uid idx lane.val).dispatchSlices))
  ∧ (∀ (s : State) (uid idx l : Nat) (x : TakeSlice) (f : FrameSt), s.slice? uid idx = some x → s.frame? uid = some f →
    (s.loseSlice uid idx l).slice? uid idx = some { x with status := .lost }
      ∧ (s.loseSlice uid idx l).frame? uid = some { f with marks := mark f.marks 2 }
      ∧ (s.loseSlice uid idx l).get R.SHEARS.LOST_SLICES_COUNT = min (s.get R.SHEARS.LOST_SLICES_COUNT + 1) (2 ^ 32 - 1))
  ∧ (∀ (s : State) (lane : Fin 12) (d : JobDone), (s.lane lane.val).work = .job d →
    (s.laneLive lane.val = false ∨ s.laneReserved lane.val = true) →
    exec (.shearsJobMigrate lane) s
      = .next (((s.setJobs fun j => { j with parked := j.parked ++ [d] }).resumeLane lane.val).dispatchSlices))
  ∧ (∀ (s : State) (lane : Fin 12) (d : JobDone), (s.lane lane.val).work = .job d →
    (s.laneLive lane.val = false ∨ s.laneReserved lane.val = true) → (s.take.slices.all (·.status != .waiting)) = true →
    (∀ m, s.jobs.parked = [] → ((List.range 12).find? fun m => !s.laneReserved m && s.laneFree m) = some m →
      ∃ t : State, exec (.shearsJobMigrate lane) s = .next t ∧ (t.lane m).work = .job d ∧ t.jobs.parked = [])
    ∧ (((List.range 12).find? fun m => !s.laneReserved m && s.laneFree m) = none →
      ∃ t : State, exec (.shearsJobMigrate lane) s = .next t ∧ t.jobs.parked = s.jobs.parked ++ [d]))
  ∧ (∀ (s : State) (o : Origin) (lane : Fin 12), s.powered = true → s.reaches o (lanePage lane.val) = true → s.holds o .installer = true →
    s.bit (R.LANE.LANE_STATUS_RESERVED lane.val) = false →
    ∃ t : State, exec (.laneCtrlRetire o lane) s = .next (t.retireLane lane.val) ∧ t.lanes = s.lanes ∧ t.take = s.take)
  ∧ (∀ (s : State) (o : Origin) (lane : Fin 12), s.powered = true → s.reaches o (lanePage lane.val) = true → s.holds o .installer = true →
    s.bit (R.LANE.LANE_STATUS_RESERVED lane.val) = true →
    ∃ t : State, exec (.laneCtrlRetire o lane) s = .next t ∧ t.lanes = s.lanes ∧ t.take = s.take ∧ t.refusal = some 0x181A)
  ∧ (∀ (s u : State) (src : JobSrc) (lane : Fin 12) (j k : Job) (tn : Turns), s.laneReserved lane.val = false → s.laneFree lane.val = true →
    s.shearsNext = some (k, tn) → k.id = j.id → u = (s.takeJob j.id).setJobs (fun x => { x with turns := tn }) →
    (∀ bad : List Nat, s.jobFor src 0 1 3 = some j → (bad.filter (· < ceilDiv (descN j.desc 24 8) 65536)) = [] →
      ∃ t : State, exec (.compress src lane bad) s = .next t ∧ (t.lane lane.val).work = .job (u.shearsJob j bad).1
        ∧ (u.shearsJob j bad).1.job = j)
    ∧ (∀ bad : List Nat, s.jobFor src 0 1 3 = some j → bad.Nodup →
      (∀ m : Fin 12, (s.lane m.val).misses.length + bad.length < s.get R.SHEARS.RETIRE_LIMIT_MISMATCHES) →
      ∃ (t : State) (m : Nat), exec (.compress src lane bad) s = .next t ∧ m < 12 ∧ (t.lane m).work = .job (u.shearsJob j bad).1
        ∧ (u.shearsJob j bad).1.job = j)
    ∧ (s.jobFor src 0 2 3 = some j →
      ∃ t : State, exec (.inflate src lane) s = .next t ∧ (t.lane lane.val).work = .job (u.shearsJob j []).1 ∧ (u.shearsJob j []).1.job = j)
    ∧ (s.jobFor src 0 3 3 = some j →
      ∃ t : State, exec (.inflateUnpredict src lane) s = .next t ∧ (t.lane lane.val).work = .job (u.shearsJob j []).1
        ∧ (u.shearsJob j []).1.job = j))
  ∧ (∀ (s : State) (lane : Fin 12) (d : JobDone), (s.lane lane.val).work = .job d →
    ∃ (t : State) (e : JobDone) (k : State → Nat → State), exec (.shearsJobComplete lane) s = .next (t.endJob e 0 k).dispatchSlices
      ∧ e.job = d.job ∧ e.status = d.status ∧ (t.lane lane.val).work = (s.lane lane.val).held.headD .idle
      ∧ (d.status = 0 → t.get (R.LANE.JOBS_DONE_COUNT lane.val) = min (s.get (R.LANE.JOBS_DONE_COUNT lane.val) + 1) (2 ^ 32 - 1))
      ∧ (d.status ≠ 0 → t.get (R.LANE.JOBS_FAILED_COUNT lane.val) = min (s.get (R.LANE.JOBS_FAILED_COUNT lane.val) + 1) (2 ^ 32 - 1)))
/-- Flash channels (R184, R188-R202). -/
def Obligations.FlashChannelsWork : Prop :=
  (∀ s : State, ∃ t : State, exec .nandTrainStart s = .next t ∧ ∀ c : Fin 32,
      (s.get (R.NAND.CH_STATUS_STATE c.val) = 0 → t.get (R.NAND.CH_STATUS_STATE c.val) = 1 ∧ t.get (R.NAND.CH_STATUS_PWR_EN c.val) = 1)
      ∧ (s.get (R.NAND.CH_STATUS_STATE c.val) ≠ 0 → t.get (R.NAND.CH_STATUS_STATE c.val) = s.get (R.NAND.CH_STATUS_STATE c.val)))
  ∧ (∀ (s : State) (ch : Fin 32) (r : NandTraining) (p : List Nat) (part : NandPart) (dqs re : Bool) (l : List (Bool × Bool)),
    s.get (R.NAND.CH_STATUS_STATE ch.val) = 1 → r.failStep = 0 → swizzleOf r.answers = some p →
    bitAt (s.get R.PWR.SAFE_CAUSE_CAUSE) 6 = false → s.population ch.val r.parts = some part → r.clean = (dqs, re) :: l →
    ∃ u : State, exec (.nandTrainDone ch r) s
        = .next ((u.loseFailed.puts [(R.NAND.POLARITY_DQS_SWAP ch.val, b2n dqs), (R.NAND.POLARITY_RE_SWAP ch.val, b2n re)]).trained ch.val)
      ∧ u.nand.part = some part ∧ u.get (R.NAND.CH_STATUS_DIES ch.val) = r.parts.length ∧ u.media = s.media
      ∧ (s.media.formatted = false →
        ∃ t : State, exec (.nandTrainDone ch r) s = .next t ∧ t.get (R.NAND.CH_STATUS_STATE ch.val) = 2 ∧ t.nand.part = some part
          ∧ ch.val ∈ t.nand.lpddr
          ∧ t.get (R.NAND.TIMING_RATE_MTS ch.val) = nandRate (s.get (R.NAND.TIMING_MAX_RATE ch.val)) % 2 ^ 12
          ∧ t.get (R.NAND.POLARITY_DQS_SWAP ch.val) = b2n dqs ∧ t.get (R.NAND.POLARITY_RE_SWAP ch.val) = b2n re))
  ∧ (∀ (s : State) (ch : Fin 32), s.get (R.NAND.CH_STATUS_STATE ch.val) ≠ 4 → s.get (R.NAND.CH_STATUS_PWR_EN ch.val) ≠ 0 →
    ∃ t : State, exec (.nandPwrFault ch) s = .next (t.channelOff ch.val 4) ∧ t.get (R.NAND.CH_STATUS_PWR_FLT ch.val) = 1
      ∧ (s.get (H.VALID (nandPage ch.val)) = 0 → t.get (H.CODE (nandPage ch.val)) = 0x3811))
  ∧ (∀ (s : State) (o : Origin) (ch : Fin 32), s.powered = true → s.reaches o (nandPage ch.val) = true → s.holds o .installer = true →
    s.chActive ch.val = true →
    ∃ t : State, exec (.forceOff o ch) s = .next (t.channelOff ch.val 3) ∧ t.bit (H.RETIRED (nandPage ch.val)) = true ∧ t.nand = s.nand)
  ∧ (∀ (s : State) (ch : Fin 32) (die : Fin 16) (o : DieOp), s.frontOp (ch.val * 16 + die.val) = some o →
    s.nand.resetOnce.contains (ch.val * 16 + die.val) = false →
    ∃ t : State, exec (.nandDieReset ch die) s = .next t ∧ (ch.val * 16 + die.val) ∈ t.nand.resetOnce ∧ t.nand.queues = s.nand.queues)
  ∧ (∀ (s : State) (ch : Fin 32) (die : Fin 16), s.nand.resetOnce.contains (ch.val * 16 + die.val) = true →
    s.dieLive (ch.val * 16 + die.val) = true →
    ∃ t : State, exec (.nandDieTimeout ch die) s
        = .next ((t.loseDies [ch.val * 16 + die.val]).2.endOps (t.loseDies [ch.val * 16 + die.val]).1)
      ∧ bitAt (t.get (R.NAND.DIE_PRESENT_FAILED ch.val)) die.val = true
      ∧ t.get (R.NAND.DIE_TIMEOUTS_COUNT ch.val) = min (s.get (R.NAND.DIE_TIMEOUTS_COUNT ch.val) + 1) (2 ^ 32 - 1))
  ∧ (∀ (s t : State) (ch : Fin 32) (die : Fin 16) (rs : List CwOutcome) (o : DieOp) (left : List Nat),
    s.frontOp (ch.val * 16 + die.val) = some o → o.kind = .read → o.step = 0 →
    State.decodeAll 0 (ch.val * 16 + die.val) o o.todo rs s = (left, t) →
    exec (.nandReadDone ch die rs) s = .next (if left = [] then t.endRead (ch.val * 16 + die.val) o
      else if s.get (R.NAND.RETRY_CFG_FEATURE_ADDR ch.val) = 0 then t.giveUp (ch.val * 16 + die.val) o left
      else (t.setFront (ch.val * 16 + die.val) { o with todo := left, step := 1 }).nextLevel (ch.val * 16 + die.val) o 1))
  ∧ (∀ (s t : State) (ch : Fin 32) (die : Fin 16) (rs : List CwOutcome) (o : DieOp) (left : List Nat),
    s.frontOp (ch.val * 16 + die.val) = some o → o.kind = .read → 1 ≤ o.step → o.step ≤ s.get (R.NAND.RETRY_CFG_STEPS ch.val) →
    State.decodeAll 2 (ch.val * 16 + die.val) o o.todo rs s = (left, t) →
    exec (.nandRetryStep ch die rs) s = .next (if left = [] then t.endRead (ch.val * 16 + die.val) o
      else (t.setFront (ch.val * 16 + die.val) { o with todo := left, step := o.step + 1 }).nextLevel (ch.val * 16 + die.val) o (o.step + 1)))
  ∧ (∀ (s t : State) (ch : Fin 32) (die : Fin 16) (rs : List CwOutcome) (o : DieOp) (left : List Nat),
    s.frontOp (ch.val * 16 + die.val) = some o → o.kind = .read → s.get (R.NAND.RETRY_CFG_STEPS ch.val) < o.step →
    State.decodeAll 3 (ch.val * 16 + die.val) o o.todo rs s = (left, t) →
    exec (.nandSoftDecode ch die rs) s = .next (t.giveUp (ch.val * 16 + die.val) o left))
  ∧ (∀ (s : State) (ch : Fin 32) (die : Fin 16) (o : DieOp) (g i m : Nat), s.frontOp (ch.val * 16 + die.val) = some o → o.use = .unit g i m →
    exec (.nandProgramDone ch die true) s
        = .next (((s.popOp (ch.val * 16 + die.val)).programmed (ch.val * 16 + die.val) o g i m).endStripe g i).ckptStep
      ∧ ∃ t : State, exec (.nandProgramDone ch die false) s = .next (t.programFailed g i m).logReady
        ∧ t.get (R.NAND.PROGRAM_FAILS_COUNT ch.val) = min (s.get (R.NAND.PROGRAM_FAILS_COUNT ch.val) + 1) (2 ^ 32 - 1)
        ∧ t.nand = (s.popOp (ch.val * 16 + die.val)).nand)
  ∧ (∀ (s : State) (ch : Fin 32) (die : Fin 16) (o : DieOp) (n i : Nat), s.frontOp (ch.val * 16 + die.val) = some o → o.use = .page n i →
    exec (.nandProgramDone ch die true) s
        = .next ((s.popOp (ch.val * 16 + die.val)).pageProgrammed n i (ch.val * 16 + die.val) o.block o.pu).snapStep
      ∧ ∃ t : State, exec (.nandProgramDone ch die false) s = .next ((t.retireBlock (ch.val * 16 + die.val) o.block 0).moveCopy n i)
        ∧ t.get (R.NAND.PROGRAM_FAILS_COUNT ch.val) = min (s.get (R.NAND.PROGRAM_FAILS_COUNT ch.val) + 1) (2 ^ 32 - 1))
  ∧ (∀ (s : State) (ch : Fin 32) (die : Fin 16) (o : DieOp) (g i m : Nat) (ps : List (Nat × Bytes × Bytes)),
    s.frontOp (ch.val * 16 + die.val) = some o → o.use = .rebuild g i m ps →
    exec (.nandProgramDone ch die true) s = .next ((s.popOp (ch.val * 16 + die.val)).rebuilt g i m (ch.val * 16 + die.val) o.block ps)
      ∧ ∃ t : State, exec (.nandProgramDone ch die false) s = .next (t.rebuildFailed g i m (ch.val * 16 + die.val) o.block)
        ∧ t.get (R.NAND.PROGRAM_FAILS_COUNT ch.val) = min (s.get (R.NAND.PROGRAM_FAILS_COUNT ch.val) + 1) (2 ^ 32 - 1))
  ∧ (∀ (s : State) (ch : Fin 32) (die : Fin 16) (o : DieOp) (g m : Nat), s.frontOp (ch.val * 16 + die.val) = some o → o.use = .erase g m →
    (∃ t : State, exec (.nandEraseDone ch die true) s = .next t
        ∧ assoc t.media.image.erases (ch.val * 16 + die.val, o.block)
          = some ((assoc s.media.image.erases (ch.val * 16 + die.val, o.block)).getD 0 + 1))
      ∧ ∃ t : State, exec (.nandEraseDone ch die false) s = .next (t.retireBlock (ch.val * 16 + die.val) o.block g)
        ∧ t.get (R.NAND.ERASE_FAILS_COUNT ch.val) = min (s.get (R.NAND.ERASE_FAILS_COUNT ch.val) + 1) (2 ^ 32 - 1))
  ∧ (∀ (s : State) (ch : Fin 32) (die : Fin 16) (o : DieOp), s.frontOp (ch.val * 16 + die.val) = some o → o.use = .pageErase →
    (∃ t : State, exec (.nandEraseDone ch die true) s = .next t.showPool
        ∧ (∀ x ∈ t.media.metaBlocks, ¬(x.die = ch.val * 16 + die.val ∧ x.block = o.block))
        ∧ assoc t.media.image.erases (ch.val * 16 + die.val, o.block)
          = some ((assoc s.media.image.erases (ch.val * 16 + die.val, o.block)).getD 0 + 1))
      ∧ ∃ t : State, exec (.nandEraseDone ch die false) s = .next (t.retireBlock (ch.val * 16 + die.val) o.block 0)
        ∧ t.get (R.NAND.ERASE_FAILS_COUNT ch.val) = min (s.get (R.NAND.ERASE_FAILS_COUNT ch.val) + 1) (2 ^ 32 - 1))
  ∧ (∀ (s : State) (ch : Fin 32), s.chActive ch.val = true →
    ∃ t : State, exec (.nandZqShort ch) s = .next t ∧ t.regs = s.regs ∧ t.nand.queues = s.nand.queues
      ∧ t.time = max s.time ((assoc s.nand.zqAt ch.val).getD 0 + s.get (R.NAND.ZQ_PERIOD_MS ch.val) * 1000000)
      ∧ assoc t.nand.zqAt ch.val = some t.time ∧ (assoc t.nand.onfi ch.val).bind List.getLast? = some .zqShort)
  ∧ (∀ (s : State) (ch : Fin 32), s.chActive ch.val = false → exec (.nandZqShort ch) s = .next s)
  ∧ (∀ (s : State) (o : Origin) (ch : Fin 32), s.powered = true → s.reaches o (nandPage ch.val) = true → s.holds o .installer = true →
    s.takeLive = false → s.chActive ch.val = true →
    (∃ t : State, exec (.retrain o ch true) s = .next (t.trained ch.val) ∧ t.nand = s.nand ∧ t.media = s.media)
      ∧ (s.media.formatted = false → ∃ t : State, exec (.retrain o ch true) s = .next t
        ∧ t.get (R.NAND.TIMING_RATE_MTS ch.val) = nandRate (s.get (R.NAND.TIMING_MAX_RATE ch.val)) % 2 ^ 12
        ∧ bitAt (t.get (H.STICKY (nandPage ch.val))) 0 = true)
      ∧ ∃ (t : State) (n : Nat), exec (.retrain o ch false) s = .next (t.trainFail ch.val n) ∧ 5 ≤ n ∧ n ≤ 8 ∧ t.nand = s.nand ∧ t.media = s.media)
/-- The journal and its checkpoints (R224, R227, R228, R252-R254). -/
def Obligations.JournalAndCheckpoints : Prop :=
  (∀ s u : State, s.media.page ≠ [] → u = { s with time := max s.time (s.media.pageSince + 1000000) } → (u.pageDies false).length = 3 →
    ∃ t : State, exec .journalPageWrite s = .next t ∧ t.media.page = s.media.page.drop 2048
      ∧ t.media.journal = s.media.journal ++ [⟨s.media.nextPage, s.media.page.take 2048, false⟩] ∧ t.media.nextPage = s.media.nextPage + 1
      ∧ t.time = u.time ∧ t.media.durable = s.media.durable ∧ t.media.image = s.media.image)
  ∧ (∀ s u : State, s.media.page ≠ [] → u = { s with time := max s.time (s.media.pageSince + 1000000) } → (u.pageDies false).length ≠ 3 →
    exec .journalPageWrite s = .next u)
  ∧ (∀ (s : State) (p : JPage), s.media.journal.find? (!·.durable) = some p → s.pageDone p.num = true →
    ∃ t : State, exec .journalPageDurable s = .next (t.recsDurable p.recs).closeEnding.retryWaiting.ckptStep
      ∧ t.media = { s.media with journal := s.media.journal.map fun q => if q.num == p.num then { q with durable := true } else q }
      ∧ t.ns = s.ns ∧ t.regs = s.regs)
  ∧ (∀ (s : State) (p : JPage), s.media.journal.find? (!·.durable) = some p → s.pageDone p.num = false →
    exec .journalPageDurable s = .next (s.requeueCopies p.num))
  ∧ (∀ (s : State) (r : JRec), r.kind = 0x09 → (s.removeTake r.nsid).media.zeroWaits = [] → s.recsDurable [r] = s.removeTake r.nsid)
  ∧ (∀ (s : State) (rs : List JRec), (rs.all fun r => r.kind != 0x09) = true → s.media.zeroWaits = [] → s.recsDurable rs = s)
  ∧ (∀ (s : State) (c : CmdKey) (q : Nat) (r : JRec), r.kind = 0x04 → r.seq = q → s.media.zeroWaits = [(c, q)] →
    ∃ t : State, s.recsDurable [r] = t.completeCmd c Nv.ok ∧ t.media = { s.media with zeroWaits := [] })
  ∧ (∀ (s : State) (o : Origin), s.powered = true → s.reaches o 0x60 = true → s.holds o .installer = true →
    s.bit R.MEDIA.MEDIA_STATUS_CKPT_BUSY = false → s.media.formatted = true →
    ∃ t : State, exec (.ckptNow o) s = .next t.ckptStep ∧ t.bit R.MEDIA.MEDIA_STATUS_CKPT_BUSY = true
      ∧ t.media = { s.media with job := some ⟨none, false, false⟩ })
  ∧ (∀ (s : State) (o : Origin), s.powered = true → s.reaches o 0x60 = true → s.holds o .installer = true →
    s.bit R.MEDIA.MEDIA_STATUS_CKPT_BUSY = true →
    ∃ t : State, exec (.ckptNow o) s = .next t ∧ t.refusal = some E.MEDIA_BUSY ∧ t.bit R.MEDIA.MEDIA_STATUS_CKPT_BUSY = true ∧ t.media = s.media)
  ∧ (∀ s : State, s.media.formatted = true → s.bit R.MEDIA.MEDIA_STATUS_CKPT_BUSY = false →
    ∃ t : State, exec .checkpointPeriod s = .next t.ckptStep ∧ t.bit R.MEDIA.MEDIA_STATUS_CKPT_BUSY = true
      ∧ t.media = { s.media with job := some ⟨none, false, false⟩ }
      ∧ t.time = max s.time (s.media.ckptAt + s.get R.MEDIA.CKPT_PERIOD_S * 1000000000))
  ∧ (∀ s : State, s.media.formatted = true → s.bit R.MEDIA.MEDIA_STATUS_CKPT_BUSY = false →
    2 ^ 30 ≤ (s.media.durable.length + s.media.inFlight.flatten.length) * 32 →
    ∃ t : State, exec .checkpointJournalLimit s = .next t.ckptStep ∧ t.bit R.MEDIA.MEDIA_STATUS_CKPT_BUSY = true
      ∧ t.media = { s.media with job := some ⟨none, false, false⟩ })
  ∧ (∀ (s : State) (c : Ckpt) (d : Bool), s.media.job = some ⟨some c, d, true⟩ → s.draining = false → s.pageDone c.num = true →
    s.tally.ptrs.length = 2 →
    ∃ t : State, exec .checkpointDone s = .next t ∧ t.media.ckpt = some c ∧ t.media.job = none
      ∧ t.media.durable = s.media.durableAfter c.pos ∧ t.media.page = s.media.page ∧ t.media.image = s.media.image
      ∧ t.bit R.MEDIA.MEDIA_STATUS_CKPT_BUSY = false ∧ t.viewMedia 0x0A8 0 = some c.seq
      ∧ (∃ q : Nat, (q, c.num) ∈ t.tally.ptrs ∧ ∀ x ∈ s.tally.ptrs, x.1 ≠ 0 → (s.tally.unread = [] → x.1 < q))
      ∧ bitAt (t.get (H.STICKY 0x60)) Ev.MEDIA.CKPT_DONE = true)
  ∧ (∀ (s : State) (c : Ckpt) (d : Bool), s.media.job = some ⟨some c, d, true⟩ → s.draining = false → s.pageDone c.num = false →
    exec .checkpointDone s = .next (s.requeueCopies c.num))

/-- Garbage collection, migration, refresh, patrol and wear levelling (R24, R215-R218, R232-R236, R240, R241, R243, R249, R424, R425). -/
def Obligations.MediaBackgroundWorks : Prop :=
  (∀ s : State, s.media.formatted = true →
    ∃ t : State, exec .slcResize s = .next t ∧ t.regs = s.regs
      ∧ t.media = { s.media with slc := min 3000000 (max 64000 ((s.get R.MEDIA.USER_CAP_MB - s.validMB) * 5 / 100)) })
  ∧ (∀ (s : State) (g : Group) (gs : List Group), s.media.formatted = true → s.media.reloc = none → s.mayTask 5 = true → s.mode ≠ 7 →
    s.media.slc * 1000000 * 9 < s.slcBytes * 10 → s.closedOf (·.use == .slc) = g :: gs →
    exec .slcMigration s = .next (s.relocate g 1) ∧ (∀ h ∈ g :: gs, h.quiet = true ∧ h.use = .slc ∧ g.closedAt ≤ h.closedAt))
  ∧ (∀ (s t : State) (g : Group), s.media.formatted = true → s.offline = false → t = s.noteGreedy.freeEmpty → t.media.reloc = none →
    t.gcDue = true → t.mayTask 5 = true → t.gcVictim = some g → exec .gcVictimSelect s = .next (t.relocate g 0).showPool)
  ∧ (∀ (s t : State), s.media.formatted = true → s.offline = false → t = s.noteGreedy.freeEmpty → t.mayTask 5 = false →
    exec .gcVictimSelect s = .next t)
  ∧ (∀ (s : State) (g : Group), (∀ n ∈ s.media.refresh, ∃ h, s.group? n = some h ∧ h.state ≠ .freed) → (∀ r, s.media.reloc = some r → r.2.2 ≠ 2) →
    s.mayTask 2 = true → s.toRefresh = some g → (s.mode ≠ 7 ∨ s.poolBlocks ≠ 0) → exec .refreshRelocate s = .next (s.relocate g 2).showPool)
  ∧ (∀ (s : State) (g : Group), (∀ n ∈ s.media.refresh, ∃ h, s.group? n = some h ∧ h.state ≠ .freed) → (∀ r, s.media.reloc = some r → r.2.2 ≠ 2) →
    s.mayTask 2 = true → s.toRefresh = some g → s.mode = 7 → s.poolBlocks = 0 →
    ∃ t : State, exec .refreshRelocate s = .next t ∧ t.media = s.media
      ∧ (s.get (H.VALID 0x60) = 0 → t.get (H.CODE 0x60) = E.MEDIA_REFRESH_STARVED))
  ∧ (∀ (s u : State) (g : Group) (gs : List Group), s.mayTask 2 = true → s.unpatrolled = g :: gs →
    u = { s with time := max s.time s.media.patrolAt } →
    ∃ t : State, exec .patrol s = .next t ∧ t.media.patrolled = s.media.patrolled ++ [g.num] ∧ t.nand = (u.readGroup g).nand ∧ t.time = u.time)
  ∧ (∀ s : State, s.mayTask 2 = true → s.unpatrolled = [] →
    ∃ t : State, exec .patrol s = .next t ∧ t.media.patrolled = [] ∧ t.nand = s.nand
      ∧ t.media.patrolAt = s.media.patrolAt + s.get R.MEDIA.PATROL_DAYS * 86400000000000)
  ∧ (∀ (s : State) (ch : Fin 32) (die : Fin 16) (gs : List Group) (pe : Group → Nat), s.media.reloc = none → s.mayTask 5 = true → s.mode ≠ 7 →
    gs = (s.groups.filter fun g => g.quiet && g.members.any (·.1 == ch.val * 16 + die.val)) →
    pe = (fun g => ((g.members.find? (·.1 == ch.val * 16 + die.val)).map fun m => s.eraseCount (ch.val * 16 + die.val) m.2).getD 0) →
    (∃ g ∈ gs, pe g + s.get R.MEDIA.WEAR_SPREAD_CYCLES
      < ((s.goodBlocks (ch.val * 16 + die.val)).map (s.eraseCount (ch.val * 16 + die.val))).foldl max 0) →
    ∃ g ∈ gs, (∀ h ∈ gs, pe g ≤ pe h) ∧ exec (.wearLevel ch die) s = .next (s.relocate g 3).showPool)
  ∧ (∀ (s : State) (n why : Nat) (l : List Nat) (g : Group), s.media.reloc = some (n, l, why) → s.group? n = some g → g.state ≠ .freed →
    s.mayTask (if why = 2 then 2 else 5) = true → s.validCount g = 0 →
    ∃ t : State, exec .relocationCopyDone s = .next t ∧ t.media.reloc = none ∧ n ∈ t.media.freed
      ∧ (∀ h, t.group? n = some h → h.state = .freed)
      ∧ (why = 2 → t.get R.MEDIA.REFRESHED_COUNT = min (s.get R.MEDIA.REFRESHED_COUNT + 1) (2 ^ 32 - 1))
      ∧ (why ≠ 2 → t.get R.MEDIA.GC_VICTIMS_COUNT = min (s.get R.MEDIA.GC_VICTIMS_COUNT + 1) (2 ^ 32 - 1)))
  ∧ (∀ (s : State) (n why : Nat) (l : List Nat) (g : Group), s.media.reloc = some (n, l, why) → s.group? n = some g → g.state ≠ .freed →
    s.mayTask (if why = 2 then 2 else 5) = true → s.validCount g ≠ 0 →
    exec .relocationCopyDone s = .next (s.retryWaiting.copyRange g 0 (s.groupUnits g) (why == 1)))
  ∧ (∀ (s : State) (n why : Nat) (l : List Nat), s.media.reloc = some (n, l, why) → s.mayTask (if why = 2 then 2 else 5) = false →
    exec .relocationCopyDone s = .next s)
  ∧ (∀ (s : State) (page : Nat), page ∈ s.media.lostPages →
    ∃ t : State, exec (.mapPageReload page) s = .next (t.resumeReads page) ∧ page ∉ t.media.lostPages
      ∧ (∀ n l, s.mapPageOf n l ≠ page → t.mapEnt n l = s.mapEnt n l)
      ∧ (s.get (H.VALID 0x60) = 0 → t.get (H.CODE 0x60) = E.MEDIA_MAP_RELOAD))
  ∧ (∀ s : State, s.keys.due = [] →
    exec .keyTablePurge s = .next (if s.mayTask 2 = true then s.keys.purge.foldl State.purgeKeyPage s else s))
  ∧ (∀ (s : State) (n : Nat), n ∉ s.keys.due → (∀ x ∈ s.metaAll, x.kind = 3 → x.logical = 2 ^ 62 + n → x.ready = true) →
    (s.oldKeyGroups n = [] → ∃ t : State, s.purgeKeyPage n = t ∧ n ∉ t.keys.purge ∧ t.media = s.media ∧ t.keys.records = s.keys.records)
    ∧ (s.media.refresh.length + (s.oldKeyGroups n).length ≤ 4096 →
      ∀ g ∈ s.oldKeyGroups n, g.state = .closed → g.num ∈ (s.purgeKeyPage n).media.refresh))
  ∧ (∀ (s : State) (r : KeyRec), r ∈ s.keys.records → (s.dropKey r.num).keys.records = s.keys.records.filter (·.num != r.num)
    ∧ keyPageOf r.num ∈ (s.dropKey r.num).keys.purge ∧ ∀ k ∈ (s.dropKey r.num).keys.slots, k ∈ s.keys.slots ∧ k.ref ≠ r.num)
  ∧ (∀ (s : State) (rec seq : Nat), (∀ k ∈ s.keys.slots, k.ref ≠ rec) → (∀ r ∈ s.keys.records, r.num = rec → r.seq ≠ seq) →
    s.mediaKey rec seq = (none, s))
  ∧ (∀ (s : State) (i rank : Nat), s.mayTask rank = true → i < rank → i < 5 → s.taskReady i = false ∧ s.offline = false)

/-- R235: the greedy rule, its ties, and the register that shows it. -/
def Obligations.VictimIsTheBestCandidate : Prop :=
  (∀ (s : State) (g : Group), s.poolUser < s.get R.FALLOW.LOW_WATER_GB * 1000 → s.gcVictim = some g →
    g ∈ s.gcCandidates ∧ ∀ h ∈ s.gcCandidates, s.validCount g ≤ s.validCount h
      ∧ (s.validCount h = s.validCount g → nameBefore h g = false))
  ∧ (∀ s : State, s.noteGreedy.get R.MEDIA.MEDIA_STATUS_GC_GREEDY = (if s.poolUser < s.get R.FALLOW.LOW_WATER_GB * 1000 then 1 else 0))
  ∧ (∀ s : State, s.media.formatted = true →
    s.viewMedia 0x040 5 = some (if s.poolUser < s.get R.FALLOW.LOW_WATER_GB * 1000 then 1 else 0))

/-- R24, R132, R226-R228, R238, R239, R459. -/
def Obligations.GroupsAreErasedAfterTheirRecords : Prop :=
  (∀ (s : State) (g : Nat) (x : Group) (r : JRec), s.group? g = some x → r ∈ s.media.inFlight.flatten ++ s.media.page → r.kind = 0x07 →
    r.logical = g → exec (.groupErase g) s = .next s)
  ∧ (∀ (s : State) (g : Nat) (x : Group), s.group? g = some x →
    (x.freeAt.isSome = true ∨ s.copyUnsecured x = true ∨ s.get R.FALLOW.TARGET_GB * 1000 ≤ s.poolUser) → exec (.groupErase g) s = .next s)
  ∧ (∀ (s : State) (g : Nat) (x : Group), s.group? g = some x → x.state = .freed → x.erasing = false → s.freeDurable x = true →
    s.copyUnsecured x = false → s.poolUser < s.get R.FALLOW.TARGET_GB * 1000 →
    ∃ t : State, exec (.groupErase g) s = .next t ∧ (∃ y, t.group? g = some y ∧ y.erasing = true ∧ y.state = .freed)
      ∧ t.media.page = s.media.page ∧ (s.take.releasing = [] → t.regs = s.regs ∧ t.media.image.map = s.media.image.map))
  ∧ (∀ (s : State) (g : Nat) (x : Group), s.group? g = some x → x.state = .freed → x.erasing = true →
    ((List.range x.members.length).all x.erased.contains) = true →
    ∃ t : State, exec (.groupErased g) s = .next t.retryWaiting.showPool ∧ t.group? g = none ∧ g ∉ t.media.freed
      ∧ t.media.seq = s.media.seq + 1)
  ∧ (∀ s : State, s.media.wbuf ≠ [] → s.offline = false → exec .blockWriteBufferDrain s = .next s.drainBuffer.showPool)
  ∧ (∀ (s : State) (p : Nat) (t : State), s.media.dirtyDir = [] → s.dirtiest = some p → s.placeMeta 3 p (s.mapPageBytes p) = some t →
    exec .mapPageWriteback s
        = .next ((t.setMedia fun m => { m with dirty := m.dirty.filter (·.1 != p) }).padStripe .metadata 0)
      ∧ ∃ n, (p, n) ∈ s.media.dirty ∧ ∀ q ∈ s.media.dirty, q.2 ≤ n)
  ∧ (∀ (s : State) (d : Nat) (rest : List Nat), s.media.dirtyDir = d :: rest → 4096 ≤ s.media.dirtyDir.length + s.metaPending 3 →
    exec .mapPageWriteback s = .next ((s.writeDir d).padStripe .metadata 0))

/-- R220: of two copies of a logical unit the higher SEQ is in force, whichever was programmed first; a Write Zeroes counts with the
SEQ of its record (R252). -/
def Obligations.TheNewestCopyWins : Prop :=
  (∀ (s : State) (nsid logical gn u seq : Nat) (e : MapEnt), s.mapEnt nsid logical = some e → seq < s.entSeq e →
    s.mapUnit nsid logical gn u seq = s)
  ∧ (∀ (s : State) (nsid logical gn u seq : Nat), (∀ e, s.mapEnt nsid logical = some e → s.entSeq e ≤ seq) →
    (s.mapUnit nsid logical gn u seq).mapEnt nsid logical = some (.mapped gn u)
      ∧ ∀ n l, (n, l) ≠ (nsid, logical) → (s.mapUnit nsid logical gn u seq).mapEnt n l = s.mapEnt n l)
  ∧ (∀ (s : State) (nsid logical gn u seq q : Nat), s.mapEnt nsid logical = some (.zeroes q) → seq < q →
    (s.mapUnit nsid logical gn u seq).mapEnt nsid logical = some (.zeroes q))
/-- Snapshots, the bitmap, rebuild, resynchronisation, reshape and retirement (R24, R267, R269-R273, R275, R278, R279, R281, R282,
R286-R290). -/
def Obligations.ArrayBackgroundWorks : Prop :=
  (∀ (s t : State) (p : Nat), s.array.snapNew = none → s.array.snapDirty = true →
    s.putPage 0 s.makeSnap.mark true s.makeSnap.bytes = some (p, t) →
    ∃ u : State, exec .stripeSnapshot s = .next u ∧ u.array.snapNew = some (p, s.makeSnap) ∧ u.array.snapDirty = false
      ∧ u.array.snap = t.array.snap ∧ u.media = t.media ∧ u.nand = t.nand)
  ∧ (∀ (s : State) (p : Nat) (n : Snapshot), s.array.snapNew = some (p, n) → exec .stripeSnapshot s = .next (s.requeueCopies p))
  ∧ (∀ s : State, s.makeSnap.mark = s.media.seq ∧ s.makeSnap.stripes.length ≤ 2048
      ∧ (∀ x, s.array.snap = some x → x.2.seq < s.makeSnap.seq) ∧ (∀ x, s.array.snapNew = some x → x.2.seq < s.makeSnap.seq))
  ∧ (∀ (s : State) (p : Nat) (n : Snapshot), s.array.snapNew = some (p, n) → s.pageDone p = true →
    ∃ u : State, s.snapStep = u.clearRegions.issueReady.dropPages ∧ u.array.snap = some (p, n) ∧ u.array.snapNew = none ∧ u.media = s.media)
  ∧ (∀ s : State, s.bitmapM ≤ s.array.bitmapWrites →
    ∃ t : State, exec .bitmapMove s = .next t ∧ t.get R.ARRAY.BITMAP_POSITION = (s.get R.ARRAY.BITMAP_POSITION + 1) % 64
      ∧ t.array.bitmapWrites = 0 ∧ t.array.bitmap = s.array.bitmap
      ∧ t.tally.header = List.replicate 2 (bitmapHeader ((s.get R.ARRAY.BITMAP_POSITION + 1) % 64) 0))
  ∧ (∀ (s : State) (gn i : Nat) (l : List (Nat × Nat)), s.mayTask 0 = true → s.toRebuild = (gn, i) :: l →
    (s.toRebuild.all fun x => s.canRebuild x.1) = true →
    exec .rebuildStripe s = .next (((s.replaceMembers gn).2.setArray fun a =>
      { a with noReplacement := a.noReplacement.filter (· != gn) }).rebuildAt gn i))
  ∧ (∀ s : State, s.mayTask 0 = true → (s.toRebuild.all fun x => !s.canRebuild x.1) = true →
    ∃ t : State, exec .rebuildStripe s = .next t ∧ ∀ x ∈ s.toRebuild, x.1 ∈ t.array.noReplacement)
  ∧ (∀ (s : State) (x : Nat × Nat), x ∈ s.toRebuild →
    (x ∈ s.critical ∨ x ∈ s.degraded ∧ s.mayTask 3 = true) ∧ s.groupClosed x.1 = true ∧ s.rebuilding x = false)
  ∧ (∀ (s : State) (gn i : Nat), s.nextResync = some (gn, i) → (gn, i) ∈ s.array.owed
    ∧ (s.openAtStop (gn, i) = true ∧ s.mayTask 1 = true ∨ s.openAtStop (gn, i) = false ∧ s.mayTask 4 = true))
  ∧ (∀ (s : State) (gn i : Nat), s.nextResync = some (gn, i) →
    ((s.resyncAt gn i).array.owed ≠ [] → exec .resyncStripe s = .next (s.resyncAt gn i))
    ∧ ((s.resyncAt gn i).array.owed = [] → ∃ u : State, exec .resyncStripe s = .next u.freeEmpty ∧ u.media = (s.resyncAt gn i).media
        ∧ u.array = (s.resyncAt gn i).array ∧ bitAt (u.get (H.STICKY 0x62)) Ev.ARRAY.RESYNC_DONE = true))
  ∧ (∀ (s : State) (o : Origin) (k : BitVec 2), s.powered = true → s.reaches o 0x62 = true → s.holds o .installer = true →
    s.reshapeBusy (widthOf k.toNat) = false → s.reshapeNoRoom (widthOf k.toNat) = false →
    ∃ t : State, exec (.reshapeStart o k) s = .next (t.startReshape (widthOf k.toNat)) ∧ t.get R.ARRAY.RESHAPE_CTRL_TARGET_K = k.toNat
      ∧ t.media = s.media ∧ t.array = s.array)
  ∧ (∀ (s : State) (o : Origin) (k : BitVec 2), s.powered = true → s.reaches o 0x62 = true → s.holds o .installer = true →
    s.reshapeBusy (widthOf k.toNat) = true →
    ∃ t : State, exec (.reshapeStart o k) s = .next t ∧ t.refusal = some E.ARRAY_BUSY ∧ t.media = s.media ∧ t.array = s.array)
  ∧ (∀ (s : State) (newK : Nat), ∃ t : State, s.startReshape newK = t.closeFull ∧ t.media = s.media ∧
      (∃ r : ReshapeRec, t.array.reshape = some r ∧ r.active = true ∧ r.oldK = s.width ∧ r.newK = newK ∧ r.boundary = 0)
      ∧ t.get R.ARRAY.RESHAPE_POS_UNITS = 0
      ∧ (newK < s.width → t.get R.MEDIA.MAXCAP_MB = narrowedCap (s.get R.MEDIA.MAXCAP_MB) s.width newK % 2 ^ R.MEDIA.MAXCAP_MB.w))
  ∧ (∀ (s : State) (r : ReshapeRec), s.array.reshape = some r → r.active = true → s.reshapePaused = false → s.mayReshape = true →
    s.array.reshapeSeq = [] → r.total = 0 → r.boundary = 0 →
    ∃ t : State, exec .reshapeRegion s = .next t.followChannels ∧ t.get R.ARRAY.LAYOUT_K = kCode r.newK ∧ t.get R.ARRAY.LAYOUT_OLD_K = 0
      ∧ t.get R.ARRAY.LAYOUT_GENERATION = min 255 (s.get R.ARRAY.LAYOUT_GENERATION + 1)
      ∧ (∃ q : ReshapeRec, t.array.reshape = some q ∧ q.active = false ∧ q.oldK = r.newK) ∧ t.media.image.map = s.media.image.map)
  ∧ (∀ (s : State) (r : ReshapeRec) (n : Nat) (g : Group) (u : Nat), s.array.reshape = some r → r.active = true →
    s.reshapePaused = false → s.mayReshape = true → s.array.reshapeSeq = [(n, r.total)] → s.group? n = some g → g.state ≠ .freed →
    u ∈ s.validIdx g → r.boundary ≤ u → u < min r.total (r.boundary + 262144) →
    exec .reshapeRegion s = .next (s.copyRange g r.boundary (min r.total (r.boundary + 262144)) false))
  ∧ (∀ (s : State) (o : Origin) (die : BitVec 9), s.powered = true → s.reaches o 0x62 = true → s.holds o .installer = true →
    s.array.lost.contains die.toNat = false → s.critical = [] → s.dieLive die.toNat = true →
    ∃ t : State, exec (.arrayRetire o die) s = .next ((t.loseDies [die.toNat]).2.endOps (t.loseDies [die.toNat]).1)
      ∧ t.get R.ARRAY.RETIRE_CTRL_DIE = die.toNat ∧ t.media = s.media ∧ t.array = s.array)
  ∧ (∀ (s : State) (o : Origin) (die : BitVec 9), s.powered = true → s.reaches o 0x62 = true → s.holds o .installer = true →
    s.array.lost.contains die.toNat = true →
    ∃ t : State, exec (.arrayRetire o die) s = .next t ∧ t.refusal = some E.ARRAY_BUSY ∧ t.media = s.media ∧ t.array = s.array)

/-- The first sentence of R265, for the two ways a new group's member list comes about (R263, R264); R260, R261: rows with nothing
missing, with one data piece missing, and with more than two pieces missing. -/
def Obligations.StripesSurviveALostChannel : Prop :=
  (∀ (n w : Nat) (g : LayoutGen), (∀ l ∈ g.order, ∀ d ∈ l, d < 16) → ((layoutRow n w g []).2.map dieChannel).Nodup)
  ∧ (∀ (s : State) (n : Nat) (order : List (List Nat)) (turn row : List Nat) (i : Nat) (r : List Nat × List Nat), (∀ l ∈ order, ∀ d ∈ l, d < 16) →
    (row.map dieChannel).Nodup → s.substitute n order turn i row = some r → (r.1.map dieChannel).Nodup)
  ∧ (∀ (ds : List Bytes) (p q : Option Bytes), reconstruct (ds.map some) p q = some ds)
  ∧ (∀ (ds : List (Option Bytes)) (p q : Option Bytes), 2 < rowGone (ds, p, q) → reconstruct ds p q = none)
  ∧ (∀ (ds : List Bytes) (x : Nat), (∀ d ∈ ds, d.length = 4096) → x < ds.length →
    reconstruct ((ds.map some).set x none) (some (pOf ds)) (some (qOf ds)) = some ds)

/-- ARRAY SERVICE (R284, R285, R468). -/
def Obligations.SalvageAndReformat : Prop :=
  (∀ (s a u : State) (c : Cmd) (count first validity : Nat) (n : Ns) (key : Bytes), s.adminReady c.fn = true → isPf c.fn = true →
    s.holds (.pcie c.fn) .operator = true → s.nsOf c.nsid = some n → (n.kind = .take ∨ n.kind = .block) → 1 ≤ count → count ≤ 64 →
    validity % 8 = 0 → count * 2 ^ 20 ≤ dptrLen c.dptr →
    a = s.auditVendor (.pcie c.fn) 0xC4 [1 + count * 65536, 0, first % 2 ^ 32, first / 2 ^ 32, validity % 2 ^ 32, validity / 2 ^ 32] false →
    a.readyPipes.isEmpty = false → a.mediaKey n.keyRec n.keySeq = (some key, u) →
    ∃ v t : State, exec (.salvage c count first validity) s = .next t ∧ (⟨c.fn, 0, 0, c.cid, Nv.ok, 0, 0⟩ : Cqe) ∈ t.host.cqes
      ∧ t.mem = dptrWrite (hostTarget c.fn) c.dptr (State.salvageUnits key n ((List.range (256 * count)).map (256 * first + ·)) u).1 v.mem
      ∧ v.mem = (State.salvageUnits key n ((List.range (256 * count)).map (256 * first + ·)) u).2.2.mem.write (hostTarget c.fn) validity
          (packBits (State.salvageUnits key n ((List.range (256 * count)).map (256 * first + ·)) u).2.1))
  ∧ (∀ (s : State) (c : Cmd), s.adminReady c.fn = true → isPf c.fn = true → s.holds (.pcie c.fn) .installer = true → s.mode = 7 →
    ∃ t : State, exec (.reformat c reformatMagic) s = .next t ∧ (⟨c.fn, 0, 0, c.cid, Nv.ok, 0, 0⟩ : Cqe) ∈ t.host.cqes
      ∧ (∀ n ∈ t.ns, n.kind ≠ .take ∧ n.kind ≠ .block) ∧ t.media.formatted = true ∧ t.media.image.map = [] ∧ t.offline = false)
  ∧ (∀ (s : State) (c : Cmd) (m : BitVec 32), s.adminReady c.fn = true → isPf c.fn = true → s.holds (.pcie c.fn) .installer = true →
    (s.mode ≠ 7 ∨ m ≠ reformatMagic) →
    ∃ t : State, exec (.reformat c m) s = .next t ∧ t.ns = s.ns ∧ t.media = s.media)
/-- ADD to MAX (R338, R339, R348, R349) and ADDI (R344). -/
def Obligations.LaneArithmeticIsRight : Prop :=
  (∀ (s : State) (c : Fin 72) (m : OpMod) (x y : Ctx), s.fetchedOn c 1 1 x → x.needD 2 1 = .ok y → modOk m true true true = true →
    (∃ (t : State) (r : Word), exec (.add c m) s = .next t ∧ s.gave t c y 2 [r] (s.cores[c].pc + 2)
      ∧ ∀ i < 64 / laneBits m.w, (laneAt m.w r i : Int)
        = laneOfInt m (laneVal m.w m.s (laneAt m.w (y.top 1) i) + laneVal m.w m.s (laneAt m.w (y.top 0) i)))
    ∧ (∃ (t : State) (r : Word), exec (.sub c m) s = .next t ∧ s.gave t c y 2 [r] (s.cores[c].pc + 2)
      ∧ ∀ i < 64 / laneBits m.w, (laneAt m.w r i : Int)
        = laneOfInt m (laneVal m.w m.s (laneAt m.w (y.top 1) i) - laneVal m.w m.s (laneAt m.w (y.top 0) i))))
  ∧ (∀ (s : State) (c : Fin 72) (m : OpMod) (x y : Ctx), s.fetchedOn c 1 3 x → x.needD 2 1 = .ok y → modOk m true true true = true →
    ∃ (t : State) (r : Word), exec (.mul c m) s = .next t ∧ s.gave t c y 2 [r] (s.cores[c].pc + 2)
      ∧ ∀ i < 64 / laneBits m.w, (laneAt m.w r i : Int)
        = laneOfInt m (laneVal m.w m.s (laneAt m.w (y.top 1) i) * laneVal m.w m.s (laneAt m.w (y.top 0) i)))
  ∧ (∀ (s : State) (c : Fin 72) (m : OpMod) (x y : Ctx), s.fetchedOn c 1 4 x → x.needD 2 1 = .ok y → modOk m true true false = true →
    ∃ (t : State) (r : Word), exec (.mulh c m) s = .next t ∧ s.gave t c y 2 [r] (s.cores[c].pc + 2)
      ∧ ∀ i < 64 / laneBits m.w, (laneAt m.w r i : Int) = (laneVal m.w m.s (laneAt m.w (y.top 1) i)
          * laneVal m.w m.s (laneAt m.w (y.top 0) i) / (2 : Int) ^ laneBits m.w) % (2 : Int) ^ laneBits m.w)
  ∧ (∀ (s : State) (c : Fin 72) (m : OpMod) (x y : Ctx), s.fetchedOn c 1 (divCycles m.w) x → x.needD 2 1 = .ok y →
    (∀ i < 64 / laneBits m.w, laneAt m.w (y.top 0) i ≠ 0) →
    (modOk m true true true = true → ∃ (t : State) (r : Word), exec (.div c m) s = .next t ∧ s.gave t c y 2 [r] (s.cores[c].pc + 2)
      ∧ ∀ i < 64 / laneBits m.w, (laneAt m.w r i : Int)
        = laneOfInt m (Int.tdiv (laneVal m.w m.s (laneAt m.w (y.top 1) i)) (laneVal m.w m.s (laneAt m.w (y.top 0) i))))
    ∧ (modOk m true true false = true → ∃ (t : State) (r : Word), exec (.mod c m) s = .next t ∧ s.gave t c y 2 [r] (s.cores[c].pc + 2)
      ∧ ∀ i < 64 / laneBits m.w, (laneAt m.w r i : Int)
        = Int.tmod (laneVal m.w m.s (laneAt m.w (y.top 1) i)) (laneVal m.w m.s (laneAt m.w (y.top 0) i)) % (2 : Int) ^ laneBits m.w))
  ∧ (∀ (s : State) (c : Fin 72) (m : OpMod) (x y : Ctx), s.fetchedOn c 1 1 x → x.needD 1 1 = .ok y →
    (modOk m true true true = true → ∃ (t : State) (r : Word), exec (.neg c m) s = .next t ∧ s.gave t c y 1 [r] (s.cores[c].pc + 2)
      ∧ ∀ i < 64 / laneBits m.w, (laneAt m.w r i : Int) = laneOfInt m (-laneVal m.w m.s (laneAt m.w (y.top 0) i)))
    ∧ (modOk m true false true = true → ∃ (t : State) (r : Word), exec (.abs c m) s = .next t ∧ s.gave t c y 1 [r] (s.cores[c].pc + 2)
      ∧ ∀ i < 64 / laneBits m.w, (laneAt m.w r i : Int) = laneOfInt { m with s := true } |laneVal m.w true (laneAt m.w (y.top 0) i)|))
  ∧ (∀ (s : State) (c : Fin 72) (m : OpMod) (x y : Ctx), s.fetchedOn c 1 1 x → x.needD 2 1 = .ok y → modOk m true true false = true →
    (∃ (t : State) (r : Word), exec (.min c m) s = .next t ∧ s.gave t c y 2 [r] (s.cores[c].pc + 2)
      ∧ ∀ i < 64 / laneBits m.w, (laneAt m.w r i : Int)
        = min (laneVal m.w m.s (laneAt m.w (y.top 1) i)) (laneVal m.w m.s (laneAt m.w (y.top 0) i)) % (2 : Int) ^ laneBits m.w)
    ∧ (∃ (t : State) (r : Word), exec (.max c m) s = .next t ∧ s.gave t c y 2 [r] (s.cores[c].pc + 2)
      ∧ ∀ i < 64 / laneBits m.w, (laneAt m.w r i : Int)
        = max (laneVal m.w m.s (laneAt m.w (y.top 1) i)) (laneVal m.w m.s (laneAt m.w (y.top 0) i)) % (2 : Int) ^ laneBits m.w))
  ∧ (∀ (s : State) (c : Fin 72) (i : BitVec 8) (x y : Ctx), s.fetchedOn c 1 1 x → x.needD 1 1 = .ok y →
    ∃ t : State, exec (.addi c i) s = .next t ∧ s.gave t c y 1 [y.top 0 + i.signExtend 64] (s.cores[c].pc + 2))

/-- CMPEQ to INS (R340, R347, R348). -/
def Obligations.LaneLogicIsRight : Prop :=
  ∀ (s : State) (c : Fin 72) (m : OpMod) (x : Ctx), s.fetchedOn c 1 1 x →
  (∀ y : Ctx, x.needD 2 1 = .ok y → modOk m true false false = true →
    (∃ (t : State) (r : Word), exec (.cmpeq c m) s = .next t ∧ s.gave t c y 2 [r] (s.cores[c].pc + 2)
      ∧ ∀ i < 64 / laneBits m.w, laneAt m.w r i = if laneAt m.w (y.top 1) i = laneAt m.w (y.top 0) i then 2 ^ laneBits m.w - 1 else 0)
    ∧ (∃ (t : State) (r : Word), exec (.cmplt c m) s = .next t ∧ s.gave t c y 2 [r] (s.cores[c].pc + 2)
      ∧ ∀ i < 64 / laneBits m.w, laneAt m.w r i
        = if laneVal m.w true (laneAt m.w (y.top 1) i) < laneVal m.w true (laneAt m.w (y.top 0) i) then 2 ^ laneBits m.w - 1 else 0)
    ∧ (∃ (t : State) (r : Word), exec (.cmpltu c m) s = .next t ∧ s.gave t c y 2 [r] (s.cores[c].pc + 2)
      ∧ ∀ i < 64 / laneBits m.w, laneAt m.w r i = if laneAt m.w (y.top 1) i < laneAt m.w (y.top 0) i then 2 ^ laneBits m.w - 1 else 0)
    ∧ (∃ (t : State) (r : Word), exec (.shl c m) s = .next t ∧ s.gave t c y 2 [r] (s.cores[c].pc + 2)
      ∧ ∀ i < 64 / laneBits m.w, laneAt m.w r i
        = laneAt m.w (y.top 1) i * 2 ^ ((y.top 0).toNat % laneBits m.w) % 2 ^ laneBits m.w)
    ∧ (∃ (t : State) (r : Word), exec (.shr c m) s = .next t ∧ s.gave t c y 2 [r] (s.cores[c].pc + 2)
      ∧ ∀ i < 64 / laneBits m.w, laneAt m.w r i = laneAt m.w (y.top 1) i / 2 ^ ((y.top 0).toNat % laneBits m.w))
    ∧ (∃ (t : State) (r : Word), exec (.sar c m) s = .next t ∧ s.gave t c y 2 [r] (s.cores[c].pc + 2)
      ∧ ∀ i < 64 / laneBits m.w, (laneAt m.w r i : Int) = (laneVal m.w true (laneAt m.w (y.top 1) i)
          / (2 : Int) ^ ((y.top 0).toNat % laneBits m.w)) % (2 : Int) ^ laneBits m.w)
    ∧ (∃ (t : State) (r : Word), exec (.rol c m) s = .next t ∧ s.gave t c y 2 [r] (s.cores[c].pc + 2)
      ∧ ∀ i < 64 / laneBits m.w, ∀ j < laneBits m.w,
        bitAt (laneAt m.w r i) ((j + (y.top 0).toNat) % laneBits m.w) = bitAt (laneAt m.w (y.top 1) i) j))
  ∧ (∀ y : Ctx, x.needD 2 1 = .ok y → modOk m false false false = true →
    (∃ t : State, exec (.and c m) s = .next t ∧ s.gave t c y 2 [y.top 1 &&& y.top 0] (s.cores[c].pc + 2))
    ∧ (∃ t : State, exec (.or c m) s = .next t ∧ s.gave t c y 2 [y.top 1 ||| y.top 0] (s.cores[c].pc + 2))
    ∧ (∃ t : State, exec (.xor c m) s = .next t ∧ s.gave t c y 2 [y.top 1 ^^^ y.top 0] (s.cores[c].pc + 2)))
  ∧ (∀ y : Ctx, x.needD 1 1 = .ok y → modOk m false false false = true →
    ∃ t : State, exec (.not c m) s = .next t ∧ s.gave t c y 1 [~~~(y.top 0)] (s.cores[c].pc + 2))
  ∧ (∀ y : Ctx, x.needD 1 1 = .ok y → modOk m true false false = true →
    (∃ (t : State) (r : Word), exec (.popc c m) s = .next t ∧ s.gave t c y 1 [r] (s.cores[c].pc + 2)
      ∧ ∀ i < 64 / laneBits m.w, laneAt m.w r i = ((List.range (laneBits m.w)).filter (bitAt (laneAt m.w (y.top 0) i))).length)
    ∧ (∃ (t : State) (r : Word), exec (.clz c m) s = .next t ∧ s.gave t c y 1 [r] (s.cores[c].pc + 2)
      ∧ ∀ i < 64 / laneBits m.w, laneAt m.w r i
        = if laneAt m.w (y.top 0) i = 0 then laneBits m.w else laneBits m.w - 1 - Nat.log2 (laneAt m.w (y.top 0) i))
    ∧ (∃ (t : State) (r : Word), exec (.ctz c m) s = .next t ∧ s.gave t c y 1 [r] (s.cores[c].pc + 2)
      ∧ ∀ i < 64 / laneBits m.w, (laneAt m.w (y.top 0) i = 0 → laneAt m.w r i = laneBits m.w)
        ∧ (laneAt m.w (y.top 0) i ≠ 0 → bitAt (laneAt m.w (y.top 0) i) (laneAt m.w r i) = true
            ∧ laneAt m.w (y.top 0) i % 2 ^ laneAt m.w r i = 0))
    ∧ (∃ (t : State) (r : Word), exec (.splat c m) s = .next t ∧ s.gave t c y 1 [r] (s.cores[c].pc + 2)
      ∧ ∀ i < 64 / laneBits m.w, laneAt m.w r i = laneAt m.w (y.top 0) 0))
  ∧ (∀ y : Ctx, x.needD 2 1 = .ok y → modOk m true true false = true → (y.top 0).toNat < 64 / laneBits m.w →
    ∃ t : State, exec (.ext c m) s = .next t
      ∧ s.gave t c y 2 [BitVec.ofInt 64 (laneVal m.w m.s (laneAt m.w (y.top 1) (y.top 0).toNat))] (s.cores[c].pc + 2))
  ∧ (∀ y : Ctx, x.needD 3 1 = .ok y → modOk m true false false = true → (y.top 0).toNat < 64 / laneBits m.w →
    ∃ (t : State) (r : Word), exec (.ins c m) s = .next t ∧ s.gave t c y 3 [r] (s.cores[c].pc + 2)
      ∧ ∀ i < 64 / laneBits m.w, laneAt m.w r i
        = if i = (y.top 0).toNat then laneAt m.w (y.top 1) 0 else laneAt m.w (y.top 2) i)

/-- FADD to CVT.N (R312, R350). -/
def Obligations.FloatingPointInstructions : Prop :=
  (∀ (s : State) (c : Fin 72) (m : OpMod) (fmt : FFmt), modOk m true false false = true → floatFmt m.w = some fmt →
    (∀ x y : Ctx, s.fetchedOn c 1 3 x → x.needD 2 1 = .ok y →
      (∃ t : State, exec (.fadd c m) s = .next t
        ∧ s.gaveFloat t c y 2 m.w fun j => fmt.add (laneAt m.w (y.top 1) j) (laneAt m.w (y.top 0) j))
      ∧ (∃ t : State, exec (.fsub c m) s = .next t
        ∧ s.gaveFloat t c y 2 m.w fun j => fmt.sub (laneAt m.w (y.top 1) j) (laneAt m.w (y.top 0) j))
      ∧ (∃ t : State, exec (.fmul c m) s = .next t
        ∧ s.gaveFloat t c y 2 m.w fun j => fmt.mul (laneAt m.w (y.top 1) j) (laneAt m.w (y.top 0) j)))
    ∧ (∀ x y : Ctx, s.fetchedOn c 1 (if fmt = single then 12 else 8) x → x.needD 2 1 = .ok y →
      ∃ t : State, exec (.fdiv c m) s = .next t
        ∧ s.gaveFloat t c y 2 m.w fun j => fmt.div (laneAt m.w (y.top 1) j) (laneAt m.w (y.top 0) j))
    ∧ (∀ x y : Ctx, s.fetchedOn c 1 4 x → x.needD 3 1 = .ok y →
      ∃ t : State, exec (.fma c m) s = .next t
        ∧ s.gaveFloat t c y 3 m.w fun j => fmt.fma (laneAt m.w (y.top 2) j) (laneAt m.w (y.top 1) j) (laneAt m.w (y.top 0) j))
    ∧ (∀ x y : Ctx, s.fetchedOn c 1 1 x → x.needD 2 1 = .ok y →
      (∃ t : State, exec (.fmin c m) s = .next t
        ∧ s.gaveFloat t c y 2 m.w fun j => fmt.minmax false (laneAt m.w (y.top 1) j) (laneAt m.w (y.top 0) j))
      ∧ (∃ t : State, exec (.fmax c m) s = .next t
        ∧ s.gaveFloat t c y 2 m.w fun j => fmt.minmax true (laneAt m.w (y.top 1) j) (laneAt m.w (y.top 0) j))
      ∧ (∃ t : State, exec (.fcmpeq c m) s = .next t
        ∧ s.gaveFloat t c y 2 m.w fun j =>
          (if (fmt.cmpeq (laneAt m.w (y.top 1) j) (laneAt m.w (y.top 0) j)).1 = true then 2 ^ laneBits m.w - 1 else 0,
            (fmt.cmpeq (laneAt m.w (y.top 1) j) (laneAt m.w (y.top 0) j)).2))
      ∧ (∃ t : State, exec (.fcmplt c m) s = .next t
        ∧ s.gaveFloat t c y 2 m.w fun j =>
          (if (fmt.cmplt (laneAt m.w (y.top 1) j) (laneAt m.w (y.top 0) j)).1 = true then 2 ^ laneBits m.w - 1 else 0,
            (fmt.cmplt (laneAt m.w (y.top 1) j) (laneAt m.w (y.top 0) j)).2))))
  ∧ (∀ (s : State) (c : Fin 72) (m : OpMod) (fmt : FFmt) (x y : Ctx), modOk m true true false = true → floatFmt m.w = some fmt →
    s.fetchedOn c 1 2 x → x.needD 1 1 = .ok y →
    (∃ t : State, exec (.cvtF c m) s = .next t ∧ s.gaveFloat t c y 1 m.w fun j => fmt.ofInt (laneVal m.w m.s (laneAt m.w (y.top 0) j)))
    ∧ (∃ t : State, exec (.cvtI c m) s = .next t ∧ s.gaveFloat t c y 1 m.w fun j => fmt.toInt (laneBits m.w) m.s (laneAt m.w (y.top 0) j)))
  ∧ (∀ (s : State) (c : Fin 72) (m : OpMod) (x y : Ctx), modOk m false false false = true → s.fetchedOn c 1 2 x → x.needD 1 1 = .ok y →
    (∃ t : State, exec (.cvtW c m) s = .next t ∧ s.gaveFloat t c y 1 .w32 fun j => FFmt.convert half single (laneAt .w16 (y.top 0) j))
    ∧ (∃ t : State, exec (.cvtN c m) s = .next t
      ∧ s.gaveFloat t c y 1 .w16 fun j => if j < 2 then FFmt.convert single half (laneAt .w32 (y.top 0) j) else (0, 0)))
  ∧ (∀ (fmt : FFmt) (a b : Nat), (fmt = half ∨ fmt = single) → ((fmt.decode a).isNan || (fmt.decode b).isNan) = true →
    (∀ r ∈ [fmt.add a b, fmt.sub a b, fmt.mul a b, fmt.div a b, fmt.minmax false a b, fmt.minmax true a b],
      r.1 = (if fmt = half then 0x7E00 else 0x7FC00000)
        ∧ r.2 = if ((fmt.decode a).signalling || (fmt.decode b).signalling) = true then 1 else 0)
    ∧ (fmt.cmpeq a b).1 = false ∧ (fmt.cmplt a b) = (false, 1)
    ∧ (∀ (w : Nat) (sg : Bool), (fmt.decode a).isNan = true → fmt.toInt w sg a = (0, 1)))

/-- The stack operations (R347), the literals (R341, R344) and the depths (R354). -/
def Obligations.StackInstructionsMoveEntries : Prop :=
  (∀ (s : State) (c : Fin 72) (x : Ctx), s.fetchedOn c 1 1 x →
    (∀ y : Ctx, x.needD 1 2 = .ok y → ∃ t : State, exec (.dup c) s = .next t ∧ s.gave t c y 1 [y.top 0, y.top 0] (s.cores[c].pc + 2))
    ∧ (∀ y : Ctx, x.needD 1 0 = .ok y → ∃ t : State, exec (.drop c) s = .next t ∧ s.gave t c y 1 [] (s.cores[c].pc + 2))
    ∧ (∀ y : Ctx, x.needD 2 2 = .ok y → ∃ t : State, exec (.swap c) s = .next t ∧ s.gave t c y 2 [y.top 1, y.top 0] (s.cores[c].pc + 2))
    ∧ (∀ y : Ctx, x.needD 2 3 = .ok y → ∃ t : State, exec (.over c) s = .next t
        ∧ s.gave t c y 2 [y.top 1, y.top 0, y.top 1] (s.cores[c].pc + 2))
    ∧ (∀ y : Ctx, x.needD 2 1 = .ok y → ∃ t : State, exec (.nip c) s = .next t ∧ s.gave t c y 2 [y.top 0] (s.cores[c].pc + 2))
    ∧ (∀ y : Ctx, x.needD 2 3 = .ok y → ∃ t : State, exec (.tuck c) s = .next t
        ∧ s.gave t c y 2 [y.top 0, y.top 1, y.top 0] (s.cores[c].pc + 2))
    ∧ (∀ y : Ctx, x.needD 3 3 = .ok y → ∃ t : State, exec (.rot c) s = .next t
        ∧ s.gave t c y 3 [y.top 2, y.top 0, y.top 1] (s.cores[c].pc + 2))
    ∧ (∀ y z : Ctx, x.needD 1 0 = .ok y → y.needR 0 1 = .ok z → ∃ t : State, exec (.tors c) s = .next t ∧ s.ranOn t c
        ∧ t.cores[c].ds = z.k.ds.drop 1 ∧ t.cores[c].rs = (z.top 0, false) :: z.k.rs ∧ t.cores[c].pc = s.cores[c].pc + 2)
    ∧ (∀ y z : Ctx, x.needR 1 0 = .ok y → y.needD 0 1 = .ok z → ∃ t : State, exec (.fromrs c) s = .next t ∧ s.ranOn t c
        ∧ t.cores[c].ds = z.topR.1 :: z.k.ds ∧ t.cores[c].rs = z.k.rs.drop 1 ∧ t.cores[c].pc = s.cores[c].pc + 2)
    ∧ (∀ y z : Ctx, x.needR 1 1 = .ok y → y.needD 0 1 = .ok z → ∃ t : State, exec (.rscopy c) s = .next t ∧ s.ranOn t c
        ∧ t.cores[c].ds = z.topR.1 :: z.k.ds ∧ t.cores[c].rs = z.k.rs ∧ t.cores[c].pc = s.cores[c].pc + 2)
    ∧ (∀ y : Ctx, x.needR 1 0 = .ok y → ∃ t : State, exec (.rsdrop c) s = .next t ∧ s.ranOn t c
        ∧ t.cores[c].ds = y.k.ds ∧ t.cores[c].rs = y.k.rs.drop 1 ∧ t.cores[c].pc = s.cores[c].pc + 2)
    ∧ (∀ (y : Ctx) (v : BitVec 15), x.needD 0 1 = .ok y → ∃ t : State, exec (.lit c v) s = .next t
        ∧ s.gave t c y 0 [v.signExtend 64] (s.cores[c].pc + 2))
    ∧ (∀ y : Ctx, x.needD 0 1 = .ok y → ∃ t : State, exec (.depth c) s = .next t
        ∧ s.gave t c y 0 [BitVec.ofNat 64 (s.cores[c].ds.length + (s.cores[c].dsp.toNat - s.cores[c].dsl.toNat) / 8)] (s.cores[c].pc + 2))
    ∧ (∀ y : Ctx, x.needD 0 1 = .ok y → ∃ t : State, exec (.rdepth c) s = .next t
        ∧ s.gave t c y 0 [BitVec.ofNat 64 (s.cores[c].rs.length + 8 * (s.cores[c].rsp.toNat - s.cores[c].rsl.toNat) / 72)] (s.cores[c].pc + 2)))
  ∧ (∀ (s : State) (c : Fin 72) (x y z w : Ctx), s.fetchedOn c 1 2 x → x.needD 1 1 = .ok y → (y.top 0).toNat ≤ 30 →
    Ctx.fillD 5 ((y.top 0).toNat + 2) y = .ok z → z.roomD ((y.top 0).toNat + 2) ((y.top 0).toNat + 2) = .ok w →
    ∃ t : State, exec (.pick c) s = .next t ∧ s.gave t c w 1 [z.top ((y.top 0).toNat + 1)] (s.cores[c].pc + 2))
  ∧ (∀ (s : State) (c : Fin 72) (sx : Bool) (v : BitVec 32) (x y : Ctx), s.fetchedOn c 3 2 x → x.needD 0 1 = .ok y →
    ∃ t : State, exec (.lit32 c sx v) s = .next t ∧ s.gave t c y 0 [if sx then v.signExtend 64 else v.zeroExtend 64] (s.cores[c].pc + 6))
  ∧ (∀ (s : State) (c : Fin 72) (v : BitVec 64) (x y : Ctx), s.fetchedOn c 5 3 x → x.needD 0 1 = .ok y →
    ∃ t : State, exec (.lit64 c v) s = .next t ∧ s.gave t c y 0 [v] (s.cores[c].pc + 10))

/-- R303-R305: the hardware part and the spilled blocks are one stack. The premises are the constraints of R303, that the
hardware part holds at most 32 entries, and that local memory has its canonical form; no instruction but PICK needs more than 4 entries. -/
def Obligations.SpillsKeepTheStack : Prop :=
  ∀ (x : Ctx) (n m : Nat), n ≤ 4 → m ≤ 4 → memWf x.k.mem = true → x.k.ds.length ≤ 32 → x.k.dsl.toNat ≤ x.k.dsp.toNat →
    x.k.dsp.toNat ≤ x.k.dsh.toNat + x.k.guard 64 → x.k.dsh.toNat + 64 ≤ 0x1E000 → (x.k.dsp.toNat - x.k.dsl.toNat) % 64 = 0 →
    (match x.needD n m with
      | .error t => t = ⟨0x06, 0, false, false⟩ ∨ t = ⟨0x08, 0, false, false⟩
      | .ok y => y.k.wholeDs = x.k.wholeDs ∧ n ≤ y.k.ds.length ∧ y.k.ds.length - n + m ≤ 32 ∧ x.k.dsl.toNat ≤ y.k.dsp.toNat
          ∧ y.k.dsp.toNat ≤ x.k.dsh.toNat + x.k.guard 64 ∧ y.k.rs = x.k.rs ∧ y.s = x.s ∧ memWf y.k.mem = true)
/-- Direct and indirect bit operations and POLL (R308-R310, R346, R351, R354). -/
def Obligations.BitInstructions : Prop :=
  (∀ (s : State) (c : Fin 72) (a : BitVec 10) (x : Ctx), s.fetchedOn c 1 1 x → memWf s.cores[c].mem = true →
    (∀ y : Ctx, x.needD 0 1 = .ok y → ∃ t : State, exec (.btst c a) s = .next t
      ∧ s.gave t c y 0 [if memBit y.k.mem 0x1E000 a.toNat then 1 else 0] (s.cores[c].pc + 2))
    ∧ (∃ t : State, exec (.bset c a) s = .next t ∧ s.ranOn t c ∧ t.cores[c].ds = s.cores[c].ds
        ∧ t.cores[c].pc = s.cores[c].pc + 2 ∧ ∀ n, memBit t.cores[c].mem 0x1E000 n = if n = a.toNat then true else memBit s.cores[c].mem 0x1E000 n)
    ∧ (∃ t : State, exec (.bclr c a) s = .next t ∧ s.ranOn t c ∧ t.cores[c].ds = s.cores[c].ds
        ∧ t.cores[c].pc = s.cores[c].pc + 2 ∧ ∀ n, memBit t.cores[c].mem 0x1E000 n = if n = a.toNat then false else memBit s.cores[c].mem 0x1E000 n)
    ∧ (∀ y : Ctx, x.needD 1 0 = .ok y → memWf y.k.mem = true → ∃ t : State, exec (.bst c a) s = .next t ∧ s.ranOn t c ∧ t.cores[c].ds = y.k.ds.drop 1
        ∧ t.cores[c].pc = s.cores[c].pc + 2
        ∧ ∀ n, memBit t.cores[c].mem 0x1E000 n = if n = a.toNat then (y.top 0).getLsbD 0 else memBit y.k.mem 0x1E000 n))
  ∧ (∀ (s : State) (c : Fin 72) (m : OpMod) (x y : Ctx) (p : BitPlace), s.fetchedOn c 1 1 x → modOk m false false false = true →
    x.needD 1 1 = .ok y → y.s.bitPlace y.k.tag (y.top 0).toNat = p → p ≠ .none →
    (∃ t : State, exec (.btsti c m) s = .next t ∧ t.cores[c].ds = (if y.getBit p then 1 else 0) :: y.k.ds.drop 1
      ∧ t.cores[c].pc = s.cores[c].pc + 2 ∧ t.cores[c].mem = y.k.mem ∧ t.mem = s.mem)
    ∧ (∃ t : State, exec (.bseti c m) s = .next t ∧ t.cores[c].ds = y.k.ds.drop 1
        ∧ t.cores[c].pc = s.cores[c].pc + 2 ∧ t.cores[c].mem = (y.putBit p true).k.mem ∧ t.mem = (y.putBit p true).s.mem)
    ∧ (∃ t : State, exec (.bclri c m) s = .next t ∧ t.cores[c].ds = y.k.ds.drop 1
        ∧ t.cores[c].pc = s.cores[c].pc + 2 ∧ t.cores[c].mem = (y.putBit p false).k.mem ∧ t.mem = (y.putBit p false).s.mem)
    ∧ (∃ t : State, exec (.btas c m) s = .next t ∧ t.cores[c].ds = (if y.getBit p then 1 else 0) :: y.k.ds.drop 1
      ∧ t.cores[c].pc = s.cores[c].pc + 2 ∧ t.cores[c].mem = (y.putBit p true).k.mem ∧ t.mem = (y.putBit p true).s.mem))
  ∧ (∀ (s : State) (c : Fin 72) (m : OpMod) (x y : Ctx) (p : BitPlace), s.fetchedOn c 1 1 x → modOk m false false false = true →
    x.needD 2 1 = .ok y → y.s.bitPlace y.k.tag (y.top 0).toNat = p → p ≠ .none →
    ∃ t : State, exec (.bsti c m) s = .next t ∧ t.cores[c].ds = y.k.ds.drop 2 ∧ t.cores[c].pc = s.cores[c].pc + 2
      ∧ t.cores[c].mem = (y.putBit p ((y.top 1).getLsbD 0)).k.mem ∧ t.mem = (y.putBit p ((y.top 1).getLsbD 0)).s.mem)
  ∧ (∀ (s : State) (c : Fin 72) (x y : Ctx) (p : BitPlace), s.fetchedOn c 1 2 x → x.needD 1 1 = .ok y →
    y.s.bitPlace y.k.tag (y.top 0).toNat = p → p ≠ .none →
    ∃ t : State, exec (.poll c) s = .next t ∧ s.ranOn t c ∧ t.cores[c].ds = (if y.getBit p then 1 else 0) :: y.k.ds.drop 1
      ∧ t.cores[c].pc = s.cores[c].pc + 2)
  ∧ (∀ (s : State) (c : Fin 72) (m : OpMod) (x y : Ctx), s.fetchedOn c 1 1 x → modOk m false false false = true →
    x.needD 1 1 = .ok y → y.s.bitPlace y.k.tag (y.top 0).toNat = .none →
    exec (.btas c m) s = .next (s.trapped c s.cores[c] ⟨0x0C, (y.top 0).toNat % 2 ^ 48, false, false⟩ s.cores[c].pc))

/-- R299, R307, R342-R344, R351. -/
def Obligations.ControlTransfers : Prop :=
  (∀ (s : State) (c : Fin 72) (d : BitVec 12) (x : Ctx), s.fetchedOn c 1 2 x →
    (∃ t : State, exec (.jmp c d) s = .next t ∧ s.ranOn t c ∧ t.cores[c].ds = s.cores[c].ds ∧ t.cores[c].rs = s.cores[c].rs
      ∧ t.cores[c].pc = s.cores[c].pc + 2 + (d.signExtend 48) * 2)
    ∧ (∀ y : Ctx, s.cores[c].pc.getLsbD 0 = false → x.needR 0 1 = .ok y → ∃ t : State, exec (.call c d) s = .next t ∧ s.ranOn t c
      ∧ t.cores[c].ds = s.cores[c].ds ∧ t.cores[c].rs = ((s.cores[c].pc + 2).zeroExtend 64, true) :: y.k.rs
      ∧ t.cores[c].pc = s.cores[c].pc + 2 + (d.signExtend 48) * 2))
  ∧ (∀ (s : State) (c : Fin 72) (d : BitVec 12) (x y : Ctx), s.fetchedOn c 1 1 x → x.needD 1 0 = .ok y →
    (∃ t : State, exec (.jz c d) s = .next t ∧ s.ranOn t c ∧ t.cores[c].ds = y.k.ds.drop 1 ∧ t.cores[c].rs = s.cores[c].rs
      ∧ t.cores[c].pc = if y.top 0 = 0 then s.cores[c].pc + 2 + (d.signExtend 48) * 2 else s.cores[c].pc + 2)
    ∧ (∃ t : State, exec (.jnz c d) s = .next t ∧ s.ranOn t c ∧ t.cores[c].ds = y.k.ds.drop 1 ∧ t.cores[c].rs = s.cores[c].rs
      ∧ t.cores[c].pc = if y.top 0 = 0 then s.cores[c].pc + 2 else s.cores[c].pc + 2 + (d.signExtend 48) * 2))
  ∧ (∀ (s : State) (c : Fin 72) (d : BitVec 22) (x : Ctx), s.fetchedOn c 2 3 x →
    (∃ t : State, exec (.jmpLong c d) s = .next t ∧ s.ranOn t c ∧ t.cores[c].ds = s.cores[c].ds ∧ t.cores[c].rs = s.cores[c].rs
      ∧ t.cores[c].pc = s.cores[c].pc + 4 + (d.signExtend 48) * 2)
    ∧ (∀ y : Ctx, s.cores[c].pc.getLsbD 0 = false → x.needR 0 1 = .ok y → ∃ t : State, exec (.callLong c d) s = .next t ∧ s.ranOn t c
      ∧ t.cores[c].rs = ((s.cores[c].pc + 4).zeroExtend 64, true) :: y.k.rs ∧ t.cores[c].pc = s.cores[c].pc + 4 + (d.signExtend 48) * 2))
  ∧ (∀ (s : State) (c : Fin 72) (d : BitVec 22) (x y : Ctx), s.fetchedOn c 2 2 x → x.needD 1 0 = .ok y →
    (∃ t : State, exec (.jzLong c d) s = .next t ∧ s.ranOn t c ∧ t.cores[c].ds = y.k.ds.drop 1
      ∧ t.cores[c].pc = if y.top 0 = 0 then s.cores[c].pc + 4 + (d.signExtend 48) * 2 else s.cores[c].pc + 4)
    ∧ (∃ t : State, exec (.jnzLong c d) s = .next t ∧ s.ranOn t c ∧ t.cores[c].ds = y.k.ds.drop 1
      ∧ t.cores[c].pc = if y.top 0 = 0 then s.cores[c].pc + 4 else s.cores[c].pc + 4 + (d.signExtend 48) * 2))
  ∧ (∀ (s : State) (c : Fin 72) (a : BitVec 48) (x : Ctx), s.fetchedOn c 4 4 x →
    (a.getLsbD 0 = false → ∃ t : State, exec (.jmpa c a) s = .next t ∧ s.ranOn t c ∧ t.cores[c].pc = a ∧ t.cores[c].ds = s.cores[c].ds
      ∧ t.cores[c].rs = s.cores[c].rs)
    ∧ (∀ y : Ctx, a.getLsbD 0 = false → x.needR 0 1 = .ok y → ∃ t : State, exec (.calla c a) s = .next t ∧ s.ranOn t c ∧ t.cores[c].pc = a
      ∧ t.cores[c].rs = ((s.cores[c].pc + 8).zeroExtend 64, true) :: y.k.rs)
    ∧ (∀ y : Ctx, a.getLsbD 0 = true → x.needR 0 1 = .ok y →
      exec (.calla c a) s = .next (s.trapped c s.cores[c] ⟨0x0A, a.toNat, false, false⟩ s.cores[c].pc)))
  ∧ (∀ (s : State) (c : Fin 72) (m : OpMod) (x y : Ctx), s.fetchedOn c 1 3 x → modOk m false false false = true → x.needD 1 0 = .ok y →
    (y.top 0).getLsbD 0 = false → (y.top 0).toNat < 2 ^ 48 →
    (∃ t : State, exec (.jmpi c m) s = .next t ∧ s.ranOn t c ∧ t.cores[c].pc = (y.top 0).truncate 48 ∧ t.cores[c].ds = y.k.ds.drop 1)
    ∧ (∀ z : Ctx, y.needR 0 1 = .ok z → ∃ t : State, exec (.execCall c m) s = .next t ∧ s.ranOn t c ∧ t.cores[c].pc = (y.top 0).truncate 48
      ∧ t.cores[c].ds = y.k.ds.drop 1 ∧ t.cores[c].rs = ((s.cores[c].pc + 2).zeroExtend 64, true) :: z.k.rs))
  ∧ (∀ (s : State) (c : Fin 72) (m : OpMod) (x y : Ctx), s.fetchedOn c 1 2 x → modOk m false false false = true → x.needR 1 0 = .ok y →
    (y.topR.2 = true → y.topR.1.getLsbD 0 = false → y.topR.1.toNat < 2 ^ 48 →
      ∃ t : State, exec (.ret c m) s = .next t ∧ s.ranOn t c ∧ t.cores[c].pc = y.topR.1.truncate 48 ∧ t.cores[c].rs = y.k.rs.drop 1
        ∧ t.cores[c].ds = s.cores[c].ds)
    ∧ (y.topR.2 = false → exec (.ret c m) s = .next (s.trapped c s.cores[c] ⟨0x0F, 0, false, false⟩ s.cores[c].pc)))

/-- LD, LDL, ST, STL, LOAD and STORE on local memory (R295, R299, R307, R311, R345, R351). -/
def Obligations.LoadsAndStores : Prop :=
  (∀ (s : State) (c : Fin 72) (w : Lane) (i : BitVec 8) (x y : Ctx) (a : Nat), s.fetchedOn c 1 0 x →
    (x.needD 1 1 = .ok y → a = (y.top 0 + BitVec.ofNat 64 (i.toNat * laneBytes w)).toNat → a % laneBytes w = 0 → a < 0x20000 →
      ∃ t : State, exec (.ld c w i .none) s = .next t ∧ s.ranOn t c ∧ t.cores[c].mem = y.k.mem ∧ t.cores[c].pc = s.cores[c].pc + 2
        ∧ t.cores[c].ds = BitVec.ofNat 64 (leNat (memReadN y.k.mem a (laneBytes w))) :: y.k.ds.drop 1)
    ∧ (x.needD 0 1 = .ok y → a = s.cores[c].lp.toNat + i.toNat * laneBytes w → a % laneBytes w = 0 → a < 0x20000 →
      ∃ t : State, exec (.ldl c w i .none) s = .next t ∧ s.ranOn t c ∧ t.cores[c].mem = y.k.mem ∧ t.cores[c].pc = s.cores[c].pc + 2
        ∧ t.cores[c].ds = BitVec.ofNat 64 (leNat (memReadN y.k.mem a (laneBytes w))) :: y.k.ds)
    ∧ (x.needD 2 0 = .ok y → a = (y.top 0 + BitVec.ofNat 64 (i.toNat * laneBytes w)).toNat → a % laneBytes w = 0 → a < 0x20000 →
      (a + laneBytes w ≤ s.cores[c].rsl.toNat ∨ s.cores[c].rsh.toNat + 72 ≤ a) →
      ∃ t : State, exec (.st c w i) s = .next t ∧ s.ranOn t c ∧ t.cores[c].ds = y.k.ds.drop 2 ∧ t.cores[c].pc = s.cores[c].pc + 2
        ∧ t.cores[c].mem = memWriteN y.k.mem a (leBytes (laneBytes w) (laneAt w (y.top 1) 0)))
    ∧ (x.needD 1 0 = .ok y → a = s.cores[c].lp.toNat + i.toNat * laneBytes w → a % laneBytes w = 0 → a < 0x20000 →
      (a + laneBytes w ≤ s.cores[c].rsl.toNat ∨ s.cores[c].rsh.toNat + 72 ≤ a) →
      ∃ t : State, exec (.stl c w i) s = .next t ∧ s.ranOn t c ∧ t.cores[c].ds = y.k.ds.drop 1 ∧ t.cores[c].pc = s.cores[c].pc + 2
        ∧ t.cores[c].mem = memWriteN y.k.mem a (leBytes (laneBytes w) (laneAt w (y.top 0) 0))))
  ∧ (∀ (s : State) (c : Fin 72) (m : OpMod) (x y : Ctx), s.fetchedOn c 1 0 x →
    (modOk m true true false = true → x.needD 1 1 = .ok y → (y.top 0).toNat % laneBytes m.w = 0 → (y.top 0).toNat < 0x20000 →
      ∃ t : State, exec (.load c m .none) s = .next t ∧ s.ranOn t c ∧ t.cores[c].mem = y.k.mem ∧ t.cores[c].pc = s.cores[c].pc + 2
        ∧ t.cores[c].ds = BitVec.ofInt 64 (laneVal m.w m.s (leNat (memReadN y.k.mem (y.top 0).toNat (laneBytes m.w)))) :: y.k.ds.drop 1)
    ∧ (modOk m true false false = true → x.needD 2 0 = .ok y → (y.top 0).toNat % laneBytes m.w = 0 → (y.top 0).toNat < 0x20000 →
      ((y.top 0).toNat + laneBytes m.w ≤ s.cores[c].rsl.toNat ∨ s.cores[c].rsh.toNat + 72 ≤ (y.top 0).toNat) →
      ∃ t : State, exec (.store c m) s = .next t ∧ s.ranOn t c ∧ t.cores[c].ds = y.k.ds.drop 2 ∧ t.cores[c].pc = s.cores[c].pc + 2
        ∧ t.cores[c].mem = memWriteN y.k.mem (y.top 0).toNat (leBytes (laneBytes m.w) (laneAt m.w (y.top 1) 0)))
    ∧ (modOk m true false false = true → x.needD 2 0 = .ok y → (y.top 0).toNat % laneBytes m.w = 0 → (y.top 0).toNat < 0x20000 →
      s.cores[c].rsl.toNat < (y.top 0).toNat + laneBytes m.w → (y.top 0).toNat < s.cores[c].rsh.toNat + 72 →
      exec (.store c m) s = .next (s.trapped c s.cores[c] ⟨0x0E, (y.top 0).toNat, true, false⟩ s.cores[c].pc))
    ∧ (modOk m true false false = true → x.needD 2 0 = .ok y → (y.top 0).toNat % laneBytes m.w ≠ 0 →
      exec (.store c m) s = .next (s.trapped c s.cores[c] ⟨0x0A, (y.top 0).toNat % 2 ^ 48, true, false⟩ s.cores[c].pc)))
  ∧ (∀ (m : List (Nat × Byte)) (a n b : Nat) (v : Nat), memWf m = true → (b < a ∨ a + n ≤ b) →
    memRead (memWriteN m a (leBytes n v)) b = memRead m b)
  ∧ (∀ (m : List (Nat × Byte)) (a n v : Nat), memWf m = true → memReadN (memWriteN m a (leBytes n v)) a n = leBytes n v
    ∧ memWf (memWriteN m a (leBytes n v)) = true)

/-- R315, R323, R325, R337, R352-R357. -/
def Obligations.SystemInstructions : Prop :=
  (∀ (s : State) (c : Fin 72) (n : BitVec 4) (x y : Ctx) (v : Word), s.fetchedOn c 1 1 x → x.needD 0 1 = .ok y → sysValue y.k n.toNat = some v →
    (s.cores[c].sys = true ∨ n.toNat < 9 ∨ 11 < n.toNat) →
    ∃ t : State, exec (.sysRead c n) s = .next t ∧ s.gave t c y 0 [v] (s.cores[c].pc + 2))
  ∧ (∀ (s : State) (c : Fin 72) (n : BitVec 4) (x y : Ctx) (k : Core), s.fetchedOn c 1 (if n = 1 ∨ n = 2 then 2 else 1) x → x.needD 1 0 = .ok y →
    n ≠ 0 → n.toNat < 13 → (s.cores[c].sys = true ∨ n = 3 ∨ n = 8) → sysStore (y.rep 1 []).k n.toNat (y.top 0).toNat = some k →
    ∃ t : State, exec (.sysWrite c n) s = .next t ∧ t.cores[c] = { k with cycle := k.cycle + BitVec.ofNat 64 y.cost, insns := k.insns + 1 }
      ∧ t.mem = s.mem ∧ ∀ d : Fin 72, d ≠ c → t.cores[d] = s.cores[d])
  ∧ (∀ (s : State) (c : Fin 72) (x : Ctx), s.fetchedOn c 1 1 x → ∃ t : State, exec (.nop c) s = .next t ∧ s.gave t c x 0 [] (s.cores[c].pc + 2))
  ∧ (∀ (s : State) (c : Fin 72) (x : Ctx), s.fetchedOn c 1 6 x → s.cores[c].sys = true →
    ∃ t : State, exec (.rti c) s = .next t ∧ t.cores[c].pc = s.cores[c].trappc ∧ t.cores[c].sys = s.cores[c].trapcause.getLsbD 8
      ∧ t.cores[c].inTrap = false ∧ t.cores[c].ds = s.cores[c].ds ∧ t.cores[c].rs = s.cores[c].rs ∧ t.mem = s.mem
      ∧ ∀ i, 2 ≤ i → t.cores[c].status.getLsbD i = s.cores[c].status.getLsbD i)
  ∧ (∀ (s : State) (c : Fin 72) (x y : Ctx) (p : BitPlace), s.fetchedOn c 1 2 x → x.needD 2 1 = .ok y →
    y.s.bitPlace y.k.tag (y.top 1).toNat = p → p ≠ .none →
    (y.getBit p = true → ∃ t : State, exec (.wait c) s = .next t ∧ s.gave t c y 2 [1] (s.cores[c].pc + 2))
    ∧ (y.getBit p = false → ∃ t : State, exec (.wait c) s = .next t ∧ t.cores[c].state = .waiting ∧ t.cores[c].pc = s.cores[c].pc
        ∧ t.cores[c].ds = y.k.ds ∧ t.cores[c].wait = some ((y.top 1).toNat, (y.top 0).toNat)))
  ∧ (∀ (s : State) (c : Fin 72) (a n : Nat), s.cores[c].state = .waiting → s.cores[c].wait = some (a, n) →
    (s.awaited c a = true → ∃ t : State, exec (.waitWake c) s = .next t ∧ t.cores[c].state = .running
      ∧ t.cores[c].ds = 1 :: s.cores[c].ds.drop 2 ∧ t.cores[c].pc = s.cores[c].pc + 2 ∧ t.cores[c].wait = none)
    ∧ (s.awaited c a = false → n ≠ 0 → ∃ t : State, exec (.waitTimeout c) s = .next t ∧ t.cores[c].state = .running
      ∧ t.cores[c].ds = 0 :: s.cores[c].ds.drop 2 ∧ t.cores[c].pc = s.cores[c].pc + 2 ∧ s.time ≤ t.time
      ∧ s.cores[c].since * 24 + n * 10 ≤ t.time * 24)
    ∧ (n = 0 → exec (.waitTimeout c) s = .next s))
  ∧ (∀ (s : State) (c : Fin 72) (x y : Ctx) (eng : Nat), s.fetchedOn c 1 12 x → x.needD 2 1 = .ok y → eng = bits (y.top 0).toNat 0 4 →
    submitReserved (y.top 0).toNat = false → bitAt (y.top 0).toNat 35 = false → eng < 4 → (y.top 1).toNat % 64 = 0 → (y.top 1).toNat < 0x20000 →
    s.isResetting s.cores[c].func.toNat = false → s.engineLive eng = true → (s.queued (.cluster ⟨c.val / 8, by omega⟩) eng).length < 64 →
    ∃ (t : State) (j : Job), exec (.submit c) s = .next t ∧ t.cores[c].ds = 0 :: y.k.ds.drop 2 ∧ t.jobs.queue = s.jobs.queue ++ [j]
      ∧ j.engine = eng ∧ j.func = s.cores[c].func.toNat ∧ j.desc = memReadN y.k.mem (y.top 1).toNat 64 ∧ t.cores[c].pc = s.cores[c].pc + 2)
  ∧ (∀ (s : State) (c : Fin 72) (o : BitVec 4) (x : Ctx), s.fetchedOn c 1 4 x → o ≠ 0 →
    ∃ t : State, exec (.fence c o) s = .next t ∧ t.cores[c].ds = s.cores[c].ds ∧ t.cores[c].pc = s.cores[c].pc + 2
      ∧ ((o.getLsbD 0 || o.getLsbD 1) = true → t.mem = s.cores[c].dcache.foldl writeLine s.mem)
      ∧ ((o.getLsbD 0 || o.getLsbD 1) = false → t.mem = s.mem ∧ t.cores[c].dcache = s.cores[c].dcache)
      ∧ (o.getLsbD 1 = true → t.cores[c].dcache = []))
  ∧ (∀ (s : State) (c : Fin 72) (e : BitVec 6) (i : BitVec 4) (x y : Ctx) (m : Micro) (v : Nat), s.fetchedOn c 1 2 x →
    v = (s.cluster (c.val / 8)).entry e.toNat → entValid v = true → (entSys v = false ∨ s.cores[c].sys = true) →
    x.needD (entIn v) (entOut v) = .ok y →
    microRun (s.cluster (c.val / 8)).store (entOut v) 256 (microStart y (entIn v) i) (entStart v) = .done m → m.x.late = none → m.x.hold = none →
    exec (.custom c e i) s = .next (m.x.eccs.repeat (·.eccTrapped c)
      (({ m.x.rep (entIn v) ((m.o.take (entOut v)).map (·.getD 0)) with cost := y.cost + m.cyc } : Ctx).retire c)))
  ∧ (∀ (s : State) (c : Fin 72) (n : BitVec 8) (x : Ctx), s.fetchedOn c 1 1 x →
    exec (.trap c n) s = .next (s.trapped c s.cores[c] ⟨0x13, n.toNat, false, false⟩ (s.cores[c].pc + 2)))
  ∧ (∀ (s : State) (c : Fin 72) (p : BitVec 16) (x : Ctx), parcelReserved p = true → s.fetchedOn c (parcelLen p) 1 x →
    exec (.illegalEncoding ⟨c, p⟩) s = .next (s.trapped c s.cores[c] ⟨0x03, 0, false, false⟩ s.cores[c].pc))
  ∧ (∀ (c : Fin 72) (ps : List (BitVec 16)) (i : Instr), ps.length = parcelLen (ps.headD 0) → decodeParcels c ps = some i →
    parcelsOf i = some (c, ps))
  ∧ (∀ (c : Fin 72) (ps : List (BitVec 16)), ps ≠ [] → parcelReserved (ps.headD 0) = true → decodeParcels c ps = none)

/-- R315 and R316: trap entry, the layout of TRAPCAUSE, the double trap, and commands that leave a halted core HALTED. -/
def Obligations.TrapEntry : Prop :=
  (∀ (s : State) (c : Fin 72) (k : Core) (tr : Trap) (pc : BitVec 48), k.inTrap = true →
    (s.trapCore c k tr pc).cores[c].state = .halted
      ∧ (s.trapCore c k tr pc).bit (H.VALID (0x100 + c.val)) = true
      ∧ (s.get (H.VALID (0x100 + c.val)) = 0 → (s.trapCore c k tr pc).get (H.CODE (0x100 + c.val)) = 0x5811))
  ∧ (∀ (s : State) (c : Fin 72) (k : Core) (tr : Trap) (pc : BitVec 48), k.inTrap = false → k.prog = none → tr.cause < 256 → tr.detail < 2 ^ 48 →
    ∃ n : Core, (s.trapCore c k tr pc).cores[c] = n ∧ n.trappc = pc ∧ n.pc = k.trapvec ∧ n.sys = true ∧ n.inTrap = true
      ∧ n.ds = k.ds ∧ n.rs = k.rs ∧ bits n.trapcause.toNat 0 8 = tr.cause ∧ n.trapcause.getLsbD 8 = k.sys
      ∧ n.trapcause.getLsbD 9 = tr.wr ∧ n.trapcause.getLsbD 10 = tr.fetch ∧ bits n.trapcause.toNat 11 5 = 0
      ∧ bits n.trapcause.toNat 16 48 = tr.detail)
  ∧ (∀ (s : State) (c : Fin 72) (len cyc : Nat) (b : Body), s.cores[c].state = .halted → s.insn c len cyc b = s)
  ∧ (∀ (s : State) (c : Fin 72) (o : Origin), s.cores[c].state = .halted →
    (∃ t : State, exec (.corePark o c) s = .next t ∧ t.cores[c].state = .halted)
    ∧ (∃ t : State, exec (.coreResume o c) s = .next t ∧ t.cores[c].state = .halted)
    ∧ exec (.waitWake c) s = .next s ∧ exec (.waitTimeout c) s = .next s)

/-- CORE_CTRL (R319, R326, R334). -/
def Obligations.CoreControl : Prop :=
  ∀ (s : State) (o : Origin) (c : Fin 72), s.powered = true → s.reaches o (0x100 + c.val) = true → s.holds o .installer = true →
  (s.cores[c].state = .running → ∃ t : State, exec (.corePark o c) s = .next t ∧ t.cores[c].state = .parked ∧ t.cores[c].pcSnap = s.cores[c].pc
      ∧ t.cores[c].ds = s.cores[c].ds ∧ t.cores[c].mem = s.cores[c].mem ∧ .register ∈ t.cores[c].parkers
      ∧ bitAt (t.get (H.STICKY (0x100 + c.val))) 0 = true)
  ∧ (s.cores[c].state = .parked → s.cores[c].parkers = [.register] → (c.val < 8 ∨ s.cores[c].prog ≠ none) →
    ∃ t : State, exec (.coreResume o c) s = .next t ∧ t.cores[c].state = .running ∧ t.cores[c].pc = s.cores[c].pc
      ∧ t.cores[c].parkers = [] ∧ t.cores[c].ds = s.cores[c].ds)
  ∧ (s.cores[c].state ≠ .retired → (8 ≤ c.val ∨ 2 < s.liveSystemCores) →
    ∃ t : State, exec (.coreRetire o c) s = .next t ∧ t.cores[c].state = .retired ∧ t.bit (H.RETIRED (0x100 + c.val)) = true)
  ∧ (c.val < 8 → s.liveSystemCores ≤ 2 →
    ∃ t : State, exec (.coreRetire o c) s = .next t ∧ t.cores = s.cores ∧ t.refusal = some E.CROOK_BUSY)
/-- R370-R375. -/
def Obligations.MicrocodeLoads : Prop :=
  (∀ (s : State) (c : Cmd) (n : BitVec 4) (d : Bytes), s.adminReady c.fn = true → isPf c.fn = true → s.holds (.pcie c.fn) .installer = true →
    1 ≤ n.toNat → n.toNat ≤ 8 → s.updating = false → s.mcLoad = none → d.length = 320 + 16 * mcWords d → dptrLen c.dptr = d.length → mcBad d = none →
    (sliceBytes d 16 32 = sha256 (mcCovered d) → ∃ t : State, exec (.microcodeLoad c n d.length d) s = .next t
      ∧ t.mcLoad = some ⟨n.toNat, none, d, 2, false⟩ ∧ t.clusters = s.clusters ∧ (c, AdminFor.microcode) ∈ t.host.waiting
      ∧ ∀ k : Fin 72, k.val / 8 = n.toNat → s.cores[k].state = .running → t.cores[k].state = .parked)
    ∧ (sliceBytes d 16 32 ≠ sha256 (mcCovered d) → ∃ t : State, exec (.microcodeLoad c n d.length d) s = .next t ∧ t.mcLoad = none
      ∧ t.clusters = s.clusters ∧ t.cores = s.cores ∧ (⟨c.fn, 0, 0, c.cid, Nv.table, 0, 0⟩ : Cqe) ∈ t.host.cqes))
  ∧ (∀ (s : State) (c : Cmd) (n : BitVec 4) (len : Nat) (d : Bytes), s.adminReady c.fn = true → isPf c.fn = true →
    (s.holds (.pcie c.fn) .installer = false ∨ s.mcLoad.isSome = true ∨ n = 0 ∨ mcBad d ≠ none) →
    ∃ t : State, exec (.microcodeLoad c n len d) s = .next t ∧ t.mcLoad = s.mcLoad ∧ t.clusters = s.clusters ∧ t.cores = s.cores)
  ∧ (∀ (s : State) (m : McLoad) (q : Fin 9), s.mcLoad = some m → m.phase = 2 → m.cluster = q.val →
    ∃ t : State, exec .microcodeClusterParked s = .next t ∧ t.mcLoad = some { m with phase := 4 }
      ∧ (∀ e < 64, (t.cluster q.val).entry e = mcEntry m.image e)
      ∧ (∀ i < 4096, (t.cluster q.val).store.getD i 0 = if i < mcWords m.image then mcWord m.image i else 0)
      ∧ (t.cluster q.val).fingerprint = sliceBytes m.image 16 32 ∧ t.cores = s.cores)
  ∧ (∀ (s : State) (m : McLoad) (w : Bytes), s.mcLoad = some m → m.phase = 4 →
    (sha256 w = sliceBytes m.image 16 32 → ∃ t : State, exec (.microcodeRecheck w) s = .next (t.endLoad m.cluster Nv.ok)
      ∧ t.get (R.CLUSTER.LOADS_COUNT m.cluster) = min (s.get (R.CLUSTER.LOADS_COUNT m.cluster) + 1) (2 ^ 32 - 1) ∧ t.cores = s.cores)
    ∧ (sha256 w ≠ sliceBytes m.image 16 32 → m.again = false → ∃ t : State, exec (.microcodeRecheck w) s = .next t
      ∧ t.mcLoad = some { m with again := true } ∧ t.clusters = (s.writeCluster m.cluster m.image).clusters)
    ∧ (sha256 w ≠ sliceBytes m.image 16 32 → m.again = true → m.cluster < 9 → ∃ t : State, exec (.microcodeRecheck w) s = .next (t.endLoad m.cluster Nv.internal)
      ∧ (∀ e, entValid ((t.cluster m.cluster).entry e) = false) ∧ (∀ i, (t.cluster m.cluster).store.getD i 0 = 0)
      ∧ (s.get (H.VALID (0x150 + m.cluster)) = 0 → t.get (H.CODE (0x150 + m.cluster)) = E.MICROCODE_WRITE_FAIL)))

/-- R361, R363, R365. -/
def Obligations.MicrowordsOnlyTouchWhatTheyMay : Prop :=
  (∀ (m n : Micro) (out a b v : Nat), bits v 25 3 = 0 → microStep m out a v = .go n b →
    n.cyc = m.cyc + 1 ∧ n.x.k = m.x.k ∧ n.x.s.mem = m.x.s.mem ∧ n.x.s.regs = m.x.s.regs)
  ∧ (∀ (x : Ctx) (w : Lane) (sx : Bool) (a d : Word) (t : Trap), x.load a.toNat (laneBytes w) .none = .error t →
    microMem x 1 w sx a d = ⟨x.suppress t, 0, t.cause, 1⟩)
  ∧ (∀ (x : Ctx) (w : Lane) (sx : Bool) (a d : Word) (t : Trap), x.store a.toNat (laneBytes w) (bits d.toNat 0 (laneBits w)) = .error t →
    microMem x 2 w sx a d = ⟨x.suppress t, 0, t.cause, 1⟩)
  ∧ (∀ (m : Micro) (out a : Nat), m.cyc < 255 → a < 4096 → microStep m out a 0 = .go { m with cyc := m.cyc + 1 } ((a + 1) % 4096))

/-- R331-R333, R450. -/
def Obligations.FirmwareUpdates : Prop :=
  (∀ (s : State) (c : Cmd) (off : Nat) (d : Bytes), s.adminReady c.fn = true → off + d.length ≤ 16777216 → d ≠ [] →
    ∃ t : State, exec (.firmwareImageDownload c off d) s = .next t ∧ (⟨c.fn, 0, 0, c.cid, Nv.ok, 0, 0⟩ : Cqe) ∈ t.host.cqes
      ∧ t.pwr.fw.bufLen = max s.pwr.fw.bufLen (off + d.length) ∧ (∀ i < d.length, assoc t.pwr.fw.buf (off + i) = d[i]?)
      ∧ (∀ j, (j < off ∨ off + d.length ≤ j) → assoc t.pwr.fw.buf j = assoc s.pwr.fw.buf j))
  ∧ (∀ (s u : State) (c : Cmd) (slot : Nat) (img : Bytes), s.adminReady c.fn = true → slot = 1 ∨ slot = 2 → s.pwr.fw.update = none → s.pwr.fw.bufLen ≠ 0 →
    s.pwr.fw.image = img → s.verifyImage img 0 0 = (true, u) →
    (∃ t : State, exec (.firmwareCommit c slot 0) s = .next t ∧ assoc t.pwr.fw.slots slot = some img ∧ t.pwr.fw.nextSlot = s.pwr.fw.nextSlot
      ∧ (⟨c.fn, 0, 0, c.cid, Nv.ok, 0, 0⟩ : Cqe) ∈ t.host.cqes)
    ∧ (∃ t : State, exec (.firmwareCommit c slot 1) s = .next t ∧ assoc t.pwr.fw.slots slot = some img ∧ t.pwr.fw.nextSlot = some slot
      ∧ t.pwr.fw.region = some img :: s.pwr.fw.region.drop 1 ∧ (⟨c.fn, 0, 0, c.cid, Nv.needsReset, 0, 0⟩ : Cqe) ∈ t.host.cqes)
    ∧ (∀ old : Bytes, s.pwr.fw.running = some old → sliceBytes old 16 4 = sliceBytes img 16 4 →
      ∃ t : State, exec (.firmwareCommit c slot 3) s = .next t ∧ t.pwr.fw.update = some (img, 1) ∧ t.pwr.fw.inHandover = false
        ∧ t.pwr.fw.region = some img :: s.pwr.fw.region.drop 1
        ∧ (c, AdminFor.update) ∈ t.host.waiting))
  ∧ (∀ (s u : State) (c : Cmd) (slot : Nat) (action : BitVec 3), s.adminReady c.fn = true → slot = 1 ∨ slot = 2 → action.toNat ≤ 1 →
    s.pwr.fw.update = none → s.pwr.fw.bufLen ≠ 0 → s.verifyImage s.pwr.fw.image 0 0 = (false, u) →
    ∃ t : State, exec (.firmwareCommit c slot action) s = .next t ∧ t.pwr.fw.update = none ∧ t.pwr.fw.running = s.pwr.fw.running
      ∧ (action = 0 → t.pwr.fw.slots = s.pwr.fw.slots ∧ t.pwr.fw.region = s.pwr.fw.region)
      ∧ (action = 1 → t.pwr.fw.nextSlot = some slot ∧ t.pwr.fw.region = some s.pwr.fw.image :: s.pwr.fw.region.drop 1)
      ∧ (⟨c.fn, 0, 0, c.cid, Nv.badImage, 0, 0⟩ : Cqe) ∈ t.host.cqes)
  ∧ (∀ (s : State) (img : Bytes) (run : Nat), s.pwr.fw.update = some (img, run) → s.handing = false →
    ∃ t : State, exec .firmwareHandover s = .next t ∧ t.pwr.fw.inHandover = true
      ∧ ∀ c : Fin 72, c ∈ halfOf run → s.cores[c].state = .running → t.cores[c].state = .parked)
  ∧ (∀ (s : State) (img : Bytes), s.pwr.fw.update = some (img, 1) → s.pwr.fw.inHandover = true →
    ∃ t : State, exec .handoverResume s = .next t ∧ t.pwr.fw.inHandover = false ∧ t.pwr.fw.update = some (img, 2)
      ∧ ∀ c : Fin 72, c.val < 4 → s.cores[c].state ≠ .retired → t.cores[c].state = .running)
  ∧ (∀ (s : State) (img : Bytes), s.pwr.fw.update = some (img, 2) → s.pwr.fw.inHandover = true →
    ∃ t : State, exec .handoverResume s = .next t ∧ t.pwr.fw.inHandover = false ∧ t.pwr.fw.update = none ∧ t.pwr.fw.running = some img
      ∧ t.pwr.fw.region = [some img, some img, some img] ∧ t.clusters = s.clusters)
  ∧ (∀ (s : State) (img : Bytes) (run : Nat), s.pwr.fw.update = some (img, run) → s.pwr.fw.inHandover = true →
    ∃ t : State, exec .crookUpdateRollback s = .next t ∧ t.pwr.fw.inHandover = false ∧ t.pwr.fw.update = none
      ∧ t.pwr.fw.running = s.pwr.fw.running ∧ t.pwr.fw.region = List.replicate 3 s.pwr.fw.running
      ∧ (∀ q : Cluster, s.pwr.fw.oldCluster = some q → t.cluster 0 = q)
      ∧ (s.get (H.VALID 0x100) = 0 → t.get (H.CODE 0x100) = E.CROOK_UPDATE_ROLLBACK))
/-- R381, for every entry, key and mask; word `j` of the key is compared with unit `j`. -/
def Obligations.EntriesMatchBitByBit : Prop :=
  ∀ (e : EEnt) (key mask : List Nat), e.hits key mask = true ↔
    (e.valid = true ∧ ∀ j < key.length, ∀ i, (e.cares.getD j 0).testBit i = false ∨ (mask.getD j 0).testBit i = false
      ∨ (e.vals.getD j 0).testBit i = (key.getD j 0).testBit i)

/-- R382 and R383 for an unchecked search of a table whose entries lie within their ranges (VERIFIED and REPAIRED belong to a
checked search). -/
def Obligations.SearchFindsTheWinner : Prop :=
  ∀ (s : State) (n : Nat) (key mask : List Nat) (ms : List (Nat × Nat × EEnt)), s.matches n key mask [] = ms →
    (∀ x ∈ ms, x.1 < 32 ∧ x.2.1 < 4096 ∧ x.2.2.cls < 16) →
    (ms = [] → (s.search1 n key mask [] false).1 = 0 ∧ (s.search1 n key mask [] false).2.1 = none)
    ∧ (ms ≠ [] → ∃ (w : Nat × Nat × EEnt) (r : Nat), (s.search1 n key mask [] false).1 = r ∧ (s.search1 n key mask [] false).2.1 = some w ∧ w ∈ ms
      ∧ (∀ x ∈ ms, x.2.2.cls < w.2.2.cls ∨ (x.2.2.cls = w.2.2.cls ∧ (w.1 < x.1 ∨ (w.1 = x.1 ∧ w.2.1 ≤ x.2.1))))
      ∧ bitAt r 0 = true ∧ bitAt r 1 = decide (2 ≤ ms.length) ∧ bits r 2 2 = 0 ∧ bits r 4 4 = w.2.2.cls
      ∧ bits r 8 4 = min 15 ((ms.filter fun x => x.2.2.cls == w.2.2.cls).length - 1) ∧ bits r 12 20 = 0 ∧ bits r 32 12 = w.2.1 ∧ bits r 44 5 = w.1
      ∧ r < 2 ^ 49)

/-- R392 and the first row of R393's table. -/
def Obligations.CheckedSearchAgreesWithTheShadow : Prop :=
  ∀ (s t : State) (n fuel again : Nat) (key mask : List Nat) (skip : List (Nat × Nat)) (rep r v : Bool) (w : Nat × Nat × EEnt)
    (ms : List (Nat × Nat × EEnt)), State.checkedSearch n key mask skip fuel again rep s = (some (w, ms, r, v), t) →
    w.2.2.hits key mask = true ∧ (w.1, w.2.1) ∉ skip ∧ ms = t.matches n key mask skip
      ∧ (v = true → w.2.2 = entAt (t.bank w.1).shadow (t.bankWidth w.1) w.2.1 ∧ t.pendingWrite w.1 w.2.1 = none)
      ∧ (v = false → t.pendingWrite w.1 w.2.1 ≠ none)

/-- R380, R384-R387, R391. -/
def Obligations.EarmarkJobsRun : Prop :=
  (∀ (s : State) (src : JobSrc) (j : Job) (st op : Nat), s.jobFor src 1 op 5 = some j → s.earBegun j.id = false →
    (s.takeJob j.id).earRefusal j = some st → 1 ≤ op → op ≤ 5 →
    ∃ (t : State) (d : JobDone), (op = 1 → exec (.search src) s = .next t) ∧ (op = 2 → exec (.searchList src) s = .next t)
      ∧ (op = 3 → exec (.earmarkWrite src) s = .next t) ∧ (op = 4 → exec (.invalidate src) s = .next t)
      ∧ (op = 5 → exec (.earmarkRead src) s = .next t) ∧ t.jobs.finished = s.jobs.finished ++ [d] ∧ d.job = j ∧ d.status = st ∧ t.ear = s.ear
      ∧ t.mem = s.mem ∧ (∀ k ∈ t.jobs.queue, k.id ≠ j.id))
  ∧ (∀ (s : State) (src : JobSrc) (j : Job) (op n w : Nat) (bs : Bytes), op = 1 ∨ op = 2 → s.earBegun j.id = false →
    s.jobFor src 1 op 5 = some j → (s.takeJob j.id).earRefusal j = none → descN j.desc 0 1 = op → descN j.desc 4 4 = 1 → descN j.desc 1 1 = 0 →
    (op = 2 → descN j.desc 3 1 = 1) → n = descN j.desc 2 1 → w = s.bankWidth n → s.xread j.func (descN j.desc 16 8) (8 * w) = .ok bs →
    xfault s.xlate j.func .w (piecesOf (descN j.desc 24 8) 8) = none →
    ∃ (t : State) (d : JobDone) (r : Nat), (op = 1 → exec (.search src) s = .next t) ∧ (op = 2 → exec (.searchList src) s = .next t)
      ∧ r = (s.search1 n (wordsOf bs) (List.replicate w (2 ^ 64 - 1)) [] false).1
      ∧ t.mem = xwriteAux s.xlate j.func (piecesOf (descN j.desc 24 8) 8) (leBytes 8 r) s.mem
      ∧ t.jobs.finished = s.jobs.finished ++ [d] ∧ d.job = j ∧ d.status = 0
      ∧ d.record = earRecord (descN j.desc 8 4) 0 1 (r % 2) 0 ∧ t.ear.banks = s.ear.banks)
  ∧ (∀ (s : State) (src : JobSrc) (j : Job) (n w b e : Nat) (bs : Bytes), s.jobFor src 1 3 5 = some j → s.earBegun j.id = false → (s.takeJob j.id).earRefusal j = none →
    descN j.desc 0 1 = 3 → descN j.desc 4 4 = 1 → n = descN j.desc 2 1 → w = s.bankWidth n → s.xread j.func (descN j.desc 16 8) (8 + 16 * w) = .ok bs →
    s.entryId n (leNat (bs.take 4)) = some (b, e) → b < s.ear.banks.length → s.bankWidth b = w →
    ∃ (t : State) (d : JobDone) (x : EEnt), exec (.earmarkWrite src) s = .next t ∧ t.jobs.finished = s.jobs.finished ++ [d] ∧ d.status = 0
      ∧ x = (if bitAt (bs.getD 4 0).toNat 4 then ⟨(bs.getD 4 0).toNat % 16, true, (wordsOf (bs.drop 8)).take w, (wordsOf (bs.drop 8)).drop w⟩ else EEnt.zero w)
      ∧ entAt (t.bank b).array w e = x ∧ entAt (t.bank b).shadow w e = x
      ∧ (∀ i, i ≠ e → entAt (t.bank b).array w i = entAt (s.bank b).array w i)
      ∧ (∀ c, c ≠ b → t.bank c = s.bank c) ∧ t.mem = s.mem)
  ∧ (∀ (s : State) (src : JobSrc) (j : Job) (n b e : Nat) (bs : Bytes), s.jobFor src 1 4 5 = some j → s.earBegun j.id = false → (s.takeJob j.id).earRefusal j = none →
    descN j.desc 0 1 = 4 → descN j.desc 4 4 = 1 → n = descN j.desc 2 1 → s.xread j.func (descN j.desc 16 8) 4 = .ok bs →
    s.entryId n (leNat bs) = some (b, e) → b < s.ear.banks.length → s.bankWidth b = s.bankWidth n →
    ∃ (t : State) (d : JobDone), exec (.invalidate src) s = .next t ∧ t.jobs.finished = s.jobs.finished ++ [d] ∧ d.status = 0
      ∧ entAt (t.bank b).array (s.bankWidth b) e = EEnt.zero (s.bankWidth b) ∧ (∀ c, c ≠ b → t.bank c = s.bank c) ∧ t.mem = s.mem)
  ∧ (∀ (s : State) (src : JobSrc) (j : Job) (n w b e : Nat) (bs : Bytes), s.jobFor src 1 5 5 = some j → s.earBegun j.id = false → (s.takeJob j.id).earRefusal j = none →
    descN j.desc 0 1 = 5 → descN j.desc 4 4 = 1 → n = descN j.desc 2 1 → w = s.bankWidth n → s.xread j.func (descN j.desc 16 8) 4 = .ok bs →
    s.entryId n (leNat bs) = some (b, e) → xfault s.xlate j.func .w (piecesOf (descN j.desc 24 8) (8 + 16 * w)) = none →
    ∃ (t : State) (d : JobDone), exec (.earmarkRead src) s = .next t ∧ t.jobs.finished = s.jobs.finished ++ [d] ∧ d.status = 0 ∧ t.ear = s.ear
      ∧ t.mem = xwriteAux s.xlate j.func (piecesOf (descN j.desc 24 8) (8 + 16 * w))
          (entryRecord w (leNat bs % 2 ^ 17) (entAt (s.bank b).shadow w e)) s.mem)
  ∧ (∀ (s : State) (d : JobDone), s.doneJob 1 = some d →
    ∃ (t : State) (k : State → Nat → State), exec .earmarkJobComplete s = .next (t.endJob d 0 k) ∧ t.ear = s.ear
      ∧ (∀ e ∈ t.jobs.finished, e.job.id ≠ d.job.id))
  ∧ (∀ (s : State) (o : Origin) (bank : Fin 32) (w : BitVec 2) (tb : BitVec 5) (sh : Bool), s.powered = true → s.reaches o (0x40 + bank.val) = true →
    w ≠ 3 → s.bankCfgBad o bank.val w.toNat tb.toNat = false →
    ∃ t : State, exec (.bankCfgWrite o bank w tb sh) s = .next t ∧ t.get (R.BANK.BANK_CFG_WIDTH bank.val) = w.toNat
      ∧ t.get (R.BANK.BANK_CFG_TABLE bank.val) = tb.toNat ∧ t.get (R.BANK.BANK_CFG_TRIG_SHARE bank.val) = b2n sh
      ∧ (s.bankCfgChanges bank.val w.toNat tb.toNat = true → bank.val < s.ear.banks.length →
          (t.bank bank.val).array = [] ∧ (t.bank bank.val).shadow = [])
      ∧ (s.bankCfgChanges bank.val w.toNat tb.toNat = false → t.ear = s.ear))
  ∧ (∀ (s : State) (o : Origin) (bank : Fin 32) (w : BitVec 2) (tb : BitVec 5) (sh : Bool), s.powered = true → s.reaches o (0x40 + bank.val) = true →
    w ≠ 3 → s.bankCfgBad o bank.val w.toNat tb.toNat = true →
    ∃ t : State, exec (.bankCfgWrite o bank w tb sh) s = .next t ∧ t.ear = s.ear ∧ t.refusal = some E.EARMARK_CONFIG_REFUSED)
  ∧ (∀ (s : State) (row : BitVec 12), (∀ b < 32, (s.bank b).array = (s.bank b).shadow) →
    ∃ t : State, exec (.earmarkScrub row []) s = .next t ∧ t.ear = s.ear ∧ t.time = s.time + 12000
      ∧ t.get R.EARMARK.SCRUB_REPAIRS_COUNT = s.get R.EARMARK.SCRUB_REPAIRS_COUNT)
/-- R438, for every pair of outputs of the comparators. -/
def Obligations.VerdictsAreExact : Prop :=
  (∀ same : Bool, comparator same 0 = (if same then 0xA5 else 0x5A))
  ∧ (∀ (a b : BitVec 8), verdictWord a.toNat b.toNat =
      (if a = b then a.toNat + (0xFF - a.toNat) * 2 ^ 8 + a.toNat * 2 ^ 16 + (0xFF - a.toNat) * 2 ^ 24 else 0))
  ∧ verdictWord 0xA5 0xA5 = 0x5AA55AA5 ∧ verdictWord 0x5A 0x5A = 0xA55AA55A ∧ verdictByte 0xA5 0xA5 = 0xA5 ∧ verdictByte 0x5A 0x5A = 0x5A
  ∧ (∀ (a b : BitVec 8), verdictWord a.toNat b.toNat = 0x5AA55AA5 ↔ (a = 0xA5 ∧ b = 0xA5))
  ∧ (∀ (a b : BitVec 8), a ≠ b ∨ (a ≠ 0xA5 ∧ a ≠ 0x5A) → verdictByte a.toNat b.toNat = 0)
  ∧ (∀ va vb : BitVec 8, va = 0 ∨ vb = 0 → verdictWord (comparator false va) (comparator false vb) ≠ 0x5AA55AA5)
  ∧ (∀ (s : State) (a b info func : Nat), a ≠ b →
      (s.noteVerdict a b info func).get R.DIGEST.VERDICT_FAULTS_COUNT = min (s.get R.DIGEST.VERDICT_FAULTS_COUNT + 1) (2 ^ 32 - 1)
      ∧ bitAt ((s.noteVerdict a b info func).get (H.STICKY 0x2A)) Ev.DIGEST.VERDICT_FAULT = true
      ∧ (s.get (H.VALID 0x2A) = 0 → (s.noteVerdict a b info func).get (H.CODE 0x2A) = E.DIGEST_VERDICT_FAULT))

/-- R435-R438 and R441. -/
def Obligations.DigestJobsRun : Prop :=
  (∀ (s : State) (src : JobSrc) (j : Job) (p m h : Bytes), s.jobFor src 2 1 2 = some j → digestDescOk j.desc = true → descN j.desc 0 1 = 1 →
    (if descPrime j.desc then s.xread j.func (descN j.desc 24 8) (digestBlock (descN j.desc 1 1)) else .ok []) = .ok p →
    s.xread j.func (descN j.desc 8 8) (descN j.desc 16 8) = .ok m → h = digest (DigestAlg.ofCode (descN j.desc 1 1)) (p ++ m) →
    descN j.desc 40 8 ≠ 0 → xfault s.xlate j.func .w (piecesOf (descN j.desc 40 8) h.length) = none →
    ∃ (t : State) (d : JobDone) (u : Nat), exec (.hash src) s = .next t ∧ d.job = j ∧ d.status = 0 ∧ d.record = digestRecord (descN j.desc 4 4) 0 0 u (descN j.desc 16 8)
      ∧ t.jobs.finished = s.jobs.finished ++ [d] ∧ t.mem = xwriteAux s.xlate j.func (piecesOf (descN j.desc 40 8) h.length) h s.mem ∧ t.keys = s.keys)
  ∧ (∀ (s : State) (src : JobSrc) (j : Job) (p m e h : Bytes) (va vb : BitVec 8), s.jobFor src 2 2 2 = some j → digestDescOk j.desc = true → descN j.desc 0 1 = 2 →
    (if descPrime j.desc then s.xread j.func (descN j.desc 24 8) (digestBlock (descN j.desc 1 1)) else .ok []) = .ok p →
    s.xread j.func (descN j.desc 8 8) (descN j.desc 16 8) = .ok m → h = digest (DigestAlg.ofCode (descN j.desc 1 1)) (p ++ m) →
    descN j.desc 40 8 = 0 → s.xread j.func (descN j.desc 32 8) h.length = .ok e →
    ∃ (t : State) (d : JobDone) (u : Nat), exec (.hashCompare src va vb) s = .next t ∧ d.job = j ∧ d.status = 0 ∧ t.mem = s.mem
      ∧ d.record = digestRecord (descN j.desc 4 4) 0 (verdictByte (comparator (e == h) va) (comparator (e == h) vb)) u (descN j.desc 16 8)
      ∧ t.jobs.finished = s.jobs.finished ++ [d])
  ∧ (∀ (s : State) (src : JobSrc) (j : Job) (op : Nat) (va vb : BitVec 8), op = 1 ∨ op = 2 → s.jobFor src 2 op 2 = some j →
    digestDescOk j.desc = false →
    ∃ (t : State) (d : JobDone), (op = 1 → exec (.hash src) s = .next t) ∧ (op = 2 → exec (.hashCompare src va vb) s = .next t) ∧ d.job = j ∧ d.status = 2 ∧ t.jobs.finished = s.jobs.finished ++ [d] ∧ t.mem = s.mem)
  ∧ (∀ (s : State) (d : JobDone), s.doneJob 2 = some d →
    ∃ (t : State) (k : State → Nat → State), exec .digestJobComplete s = .next (t.endJob d (descN d.record 5 1) k) ∧ t.mem = s.mem
      ∧ (∀ e ∈ t.jobs.finished, e.job.id ≠ d.job.id))
  ∧ (∀ (s : State) (o : Origin), s.powered = true → s.reaches o 0x2A = true → 60 ≤ s.feedSel o → s.feed (s.feedSel o) = none →
    bitAt (s.get R.DIGEST.UNITS_LIVE_MASK) (s.feedSel o) = true →
    ∃ t : State, exec (.claim o) s = .next t ∧ t.feed (s.feedSel o) = some ⟨s.feedSel o, o, []⟩
      ∧ t.get (R.DIGEST.FEED_STATUS_STATE.ofUnit (s.feedSel o)) = 1 ∧ t.get (R.DIGEST.FEED_STATUS_ORIGIN.ofUnit (s.feedSel o)) = originCode o)
  ∧ (∀ (s : State) (o : Origin) (f : Feed), s.powered = true → s.reaches o 0x2A = true → 60 ≤ s.feedSel o → s.feed (s.feedSel o) = some f → f.origin ≠ o →
    ∃ t : State, exec (.claim o) s = .next t ∧ t.feeds = s.feeds ∧ t.refusal = some E.DIGEST_HELD)
  ∧ (∀ (s : State) (o : Origin), s.powered = true → s.reaches o 0x2A = true → s.feedSel o < 60 →
    ∃ t : State, exec (.claim o) s = .next t ∧ t.feeds = s.feeds)
  ∧ (∀ (s : State) (o : Origin) (f : Feed) (alg : BitVec 2) (cmp : Bool), s.powered = true → s.reaches o 0x2A = true → 60 ≤ s.feedSel o → s.ownFeed o = some f →
    ∃ (t : State) (g : Feed), exec (.start o alg cmp) s = .next t ∧ t.feed f.unit = some g ∧ g.msg = [] ∧ g.origin = o
      ∧ t.get (R.DIGEST.FEED_CTRL_ALG.ofUnit f.unit) = alg.toNat
      ∧ t.get (R.DIGEST.FEED_CTRL_COMPARE.ofUnit f.unit) = b2n cmp ∧ t.get (R.DIGEST.FEED_STATUS_STATE.ofUnit f.unit) = 2)
  ∧ (∀ (s : State) (o : Origin) (f : Feed) (w : BitVec 64), s.powered = true → s.reaches o 0x2A = true → s.hashing o = some f →
    ∃ (t : State) (g : Feed), exec (.feedWord o w) s = .next t ∧ t.feed f.unit = some g ∧ g.msg = f.msg ++ leBytes 8 w.toNat)
  ∧ (∀ (s : State) (o : Origin) (f : Feed) (w : BitVec 64) (va vb : BitVec 8) (m h : Bytes), s.powered = true → s.reaches o 0x2A = true → s.hashing o = some f →
    m = f.msg ++ (leBytes 8 w.toNat).take (s.get (R.DIGEST.LAST_COUNT_COUNT.ofUnit f.unit)) →
    h = digest (DigestAlg.ofCode (s.get (R.DIGEST.FEED_CTRL_ALG.ofUnit f.unit))) m →
    ∃ t : State, exec (.lastWord o w va vb) s = .next t ∧ t.get (R.DIGEST.FEED_STATUS_STATE.ofUnit f.unit) = 3
      ∧ (∀ i < 16, t.get ((R.DIGEST.RESULT_BYTES i).ofUnit f.unit) = leNat (sliceBytes h (4 * i) 4))
      ∧ (s.get (R.DIGEST.FEED_CTRL_COMPARE.ofUnit f.unit) ≠ 0 → t.get (R.DIGEST.VERDICT_VERDICT.ofUnit f.unit) =
          verdictWord (comparator (s.feedExpect f.unit h.length == h) va) (comparator (s.feedExpect f.unit h.length == h) vb)))
  ∧ (∀ (s : State) (o : Origin) (f : Feed), s.powered = true → s.reaches o 0x2A = true → 60 ≤ s.feedSel o → s.ownFeed o = some f →
    ∃ t : State, exec (.release o) s = .next t ∧ t.feed f.unit = none ∧ t.get (R.DIGEST.FEED_STATUS_STATE.ofUnit f.unit) = 0)

/-- R404, R409-R416. -/
def Obligations.CipherJobsRun : Prop :=
  (∀ (s : State) (src : JobSrc) (j : Job) (op : Nat) (k : KeySlot) (bs out : Bytes), op = 1 ∨ op = 2 →
    s.jobFor src 3 op 4 = some j → descN j.desc 0 1 = op → s.cipherReady → xtsDescOk j.desc = true →
    16 ≤ descN j.desc 12 4 → descN j.desc 12 4 ≤ 2 ^ 24 → descN j.desc 32 5 % descN j.desc 12 4 = 0 → s.cipherKey j.func (descKey j.desc) true = some k →
    s.xread j.func (descN j.desc 16 8) (descN j.desc 32 5) = .ok bs →
    out = xtsUnits (op == 1) k.key (descN j.desc 40 16) (chunks (descN j.desc 12 4) bs) →
    xfault s.xlate j.func .w (piecesOf (descN j.desc 24 8) out.length) = none →
    ∃ (t : State) (d : JobDone) (p : Nat), (op = 1 → exec (.xtsEncrypt src) s = .next t) ∧ (op = 2 → exec (.xtsDecrypt src) s = .next t)
      ∧ p ∈ s.pipesFor ∧ t.mem = xwriteAux s.xlate j.func (piecesOf (descN j.desc 24 8) out.length) out s.mem
      ∧ t.jobs.finished = s.jobs.finished ++ [d] ∧ d.job = j ∧ d.status = 0 ∧ d.record = cipherRecord (descN j.desc 8 4) 0 p (descN j.desc 32 5) []
      ∧ t.keys.slots = s.keys.slots ∧ t.keys.ctxs = s.keys.ctxs)
  ∧ (∀ (s : State) (src : JobSrc) (j : Job) (k : KeySlot) (bs aad inp out : Bytes) (n : Nat), s.jobFor src 3 3 4 = some j → descN j.desc 0 1 = 3 →
    s.ctxWaits j = false → s.cipherReady → gcmDescOk j.desc = true → descN j.desc 1 1 % 4 = 3 → s.ownsCtx j.func (descCtx j.desc) = true →
    s.ctxMsg (descCtx j.desc) = none → s.cipherKey j.func (descKey j.desc) false = some k → n = descN j.desc 32 5 → gcmDeclared j.desc = n →
    s.xread j.func (descN j.desc 16 8) (descN j.desc 12 4 + n) = .ok bs → aad = bs.take (descN j.desc 12 4) → inp = sliceBytes bs (descN j.desc 12 4) n →
    out = gcmCrypt k.key (sliceBytes j.desc 42 12) inp → xfault s.xlate j.func .w (piecesOf (descN j.desc 24 8) out.length) = none →
    ∃ (t : State) (d : JobDone) (p : Nat), exec (.gcmEncrypt src) s = .next t
      ∧ t.mem = xwriteAux s.xlate j.func (piecesOf (descN j.desc 24 8) out.length) out s.mem ∧ t.jobs.finished = s.jobs.finished ++ [d] ∧ d.status = 0
      ∧ d.record = cipherRecord (descN j.desc 8 4) 0 p n ((gcmTag k.key (sliceBytes j.desc 42 12) aad out).take (descN j.desc 6 1))
      ∧ t.ctxMsg (descCtx j.desc) = none ∧ t.keys.slots = s.keys.slots)
  ∧ (∀ (s : State) (src : JobSrc) (j : Job) (k : KeySlot) (bs aad inp out tag : Bytes) (n : Nat), s.jobFor src 3 4 4 = some j → descN j.desc 0 1 = 4 →
    s.ctxWaits j = false → s.cipherReady → gcmDescOk j.desc = true → descN j.desc 1 1 % 4 = 3 → s.ownsCtx j.func (descCtx j.desc) = true →
    s.ctxMsg (descCtx j.desc) = none → s.cipherKey j.func (descKey j.desc) false = some k → n = descN j.desc 32 5 → gcmDeclared j.desc = n →
    s.xread j.func (descN j.desc 16 8) (descN j.desc 12 4 + n + descN j.desc 6 1) = .ok bs → aad = bs.take (descN j.desc 12 4) →
    inp = sliceBytes bs (descN j.desc 12 4) n → tag = sliceBytes bs (descN j.desc 12 4 + n) (descN j.desc 6 1) →
    out = (if (gcmTag k.key (sliceBytes j.desc 42 12) aad inp).take (descN j.desc 6 1) = tag then gcmCrypt k.key (sliceBytes j.desc 42 12) inp
      else List.replicate n 0) →
    xfault s.xlate j.func .w (piecesOf (descN j.desc 24 8) out.length) = none →
    ∃ (t : State) (d : JobDone), exec (.gcmDecrypt src) s = .next t
      ∧ t.mem = xwriteAux s.xlate j.func (piecesOf (descN j.desc 24 8) out.length) out s.mem ∧ t.jobs.finished = s.jobs.finished ++ [d]
      ∧ d.status = (if (gcmTag k.key (sliceBytes j.desc 42 12) aad inp).take (descN j.desc 6 1) = tag then 0 else 0x0F)
      ∧ t.ctxMsg (descCtx j.desc) = none ∧ t.keys.slots = s.keys.slots)
  ∧ (∀ (s : State) (src : JobSrc) (j : Job) (op : Nat), op = 1 ∨ op = 2 → s.jobFor src 3 op 4 = some j →
    descN j.desc 0 1 = op → s.cipherReady → 16 ≤ descN j.desc 12 4 →
    (xtsDescOk j.desc = false ∨ s.cipherKey j.func (descKey j.desc) true = none) →
    ∃ (t : State) (d : JobDone), (op = 1 → exec (.xtsEncrypt src) s = .next t) ∧ (op = 2 → exec (.xtsDecrypt src) s = .next t)
      ∧ t.jobs.finished = s.jobs.finished ++ [d] ∧ d.job = j ∧ d.status = 2 ∧ t.mem = s.mem ∧ t.keys.slots = s.keys.slots ∧ t.keys.ctxs = s.keys.ctxs)
  ∧ (∀ (s : State) (d : JobDone), s.doneJob 3 = some d →
    ∃ (t : State) (k : State → Nat → State), exec .cipherJobComplete s = .next (t.endJob d 0 k) ∧ t.mem = s.mem ∧ t.keys = s.keys
      ∧ (∀ e ∈ t.jobs.finished, e.job.id ≠ d.job.id))
  ∧ (∀ (s : State) (g : Fin 7), s.get R.ENTROPY.ES_STATUS_STATE = 1 → g.val ∉ s.keys.masks →
    ∃ t : State, exec (.maskReseed g) s = .next t.masked ∧ t.keys.masks = s.keys.masks ++ [g.val] ∧ assoc t.keys.draws g.val = some 0
      ∧ t.get R.ENTROPY.RESEEDS_COUNT = min (s.get R.ENTROPY.RESEEDS_COUNT + 1) (2 ^ 32 - 1))
  ∧ (∀ (s : State) (g : Fin 7), s.get R.ENTROPY.ES_STATUS_STATE ≠ 1 → g.val ∉ s.keys.masks →
    ∃ t : State, exec (.maskReseed g) s = .next t ∧ t.keys.masks = s.keys.masks ∧ t.keys.slots = s.keys.slots
      ∧ (g.val < 6 → t.get R.CIPHER.MASK_STALLS_COUNT = min (s.get R.CIPHER.MASK_STALLS_COUNT + 1) (2 ^ 32 - 1)))
  ∧ (∀ (s : State) (g : Fin 7), g.val ∈ s.keys.masks → exec (.maskReseed g) s = .next s)

/-- R418-R422, R424. `u` is the state after the requests that wait in the clusters' queues are fetched. -/
def Obligations.KeyEngineJobsRun : Prop :=
  (∀ (s u : State) (j : Job), s.fetchKeyJobs = u → u.keys.queue.head? = some j → descN j.desc 0 1 = 1 →
    keyDescOk j.desc (hostSrc j.src) = true → systemTag j.func = true → 6 ∈ u.keys.masks → (u.keys.kekMedia ≠ none ∨ u.mayDerive = true) →
    ∃ (t : State) (d : JobDone), exec .deriveKeks s = .next t.owedTrails ∧ t.keys.kekMedia = some (u.kek 1 0 0) ∧ t.keys.slots = u.keys.slots
      ∧ t.keys.queue = u.keys.queue.drop 1 ∧ t.keys.finished = u.keys.finished ++ [d] ∧ d.status = 0)
  ∧ (∀ (s u : State) (j : Job) (h : Nat) (kek : Bytes), s.fetchKeyJobs = u → u.keys.queue.head? = some j → j.src = .host h → descN j.desc 0 1 = 2 →
    keyDescOk j.desc true = true → 6 ∈ u.keys.masks → (u.kekFor j.func).1 = some kek → u.slotCheck j.func (descN j.desc 2 2 % 1024) = 0 →
    ∃ (t : State) (d : JobDone) (key : Bytes), exec .generate s = .next t ∧ key.length = keyBytes (descN j.desc 1 1)
      ∧ t.keySlot (descN j.desc 2 2 % 1024) = some ⟨descN j.desc 2 2 % 1024, key, descN j.desc 1 1 == 1, j.func, 0⟩
      ∧ (∀ n, n ≠ descN j.desc 2 2 % 1024 → t.keySlot n = u.keySlot n)
      ∧ t.keys.finished = u.keys.finished ++ [d] ∧ d.status = 0 ∧ d.record = keyRecord (descN j.desc 8 4) 0 0 ++ aesWrap kek key)
  ∧ (∀ (s u : State) (j : Job) (h : Nat) (kek : Bytes), s.fetchKeyJobs = u → u.keys.queue.head? = some j → j.src = .host h → descN j.desc 0 1 = 3 →
    keyDescOk j.desc true = true → 6 ∈ u.keys.masks → (u.kekFor j.func).1 = some kek → u.slotCheck j.func (descN j.desc 2 2 % 1024) = 0 →
    ∃ (t : State) (d : JobDone), exec .unwrapLoad s = .next t.owedTrails ∧ t.keys.finished = u.keys.finished ++ [d]
      ∧ (∀ key, aesUnwrap kek (sliceBytes j.desc 64 (descN j.desc 12 4)) = some key → d.status = 0
          ∧ t.keySlot (descN j.desc 2 2 % 1024) = some ⟨descN j.desc 2 2 % 1024, key, descN j.desc 1 1 == 1, j.func, 0⟩)
      ∧ (aesUnwrap kek (sliceBytes j.desc 64 (descN j.desc 12 4)) = none → d.status = 0x10 ∧ t.keys.slots = u.keys.slots))
  ∧ (∀ (s u : State) (j : Job) (h : Nat) (kek : Bytes) (k : KeySlot), s.fetchKeyJobs = u → u.keys.queue.head? = some j → j.src = .host h → descN j.desc 0 1 = 4 →
    keyDescOk j.desc true = true → 6 ∈ u.keys.masks → (u.kekFor j.func).1 = some kek → u.ownsSlot j.func (descN j.desc 4 2 % 1024) = true →
    u.keySlot (descN j.desc 4 2 % 1024) = some k → k.xts = (descN j.desc 1 1 == 1) →
    ∃ (t : State) (d : JobDone), exec .wrap s = .next t ∧ t.keys.slots = u.keys.slots ∧ t.keys.finished = u.keys.finished ++ [d] ∧ d.status = 0
      ∧ d.record = keyRecord (descN j.desc 8 4) 0 0 ++ aesWrap kek k.key)
  ∧ (∀ (s u : State) (j : Job) (h : Nat) (kek : Bytes) (k : KeySlot), s.fetchKeyJobs = u → u.keys.queue.head? = some j → j.src = .host h → descN j.desc 0 1 = 5 →
    keyDescOk j.desc true = true → 6 ∈ u.keys.masks → (u.kekFor j.func).1 = some kek → u.slotCheck j.func (descN j.desc 2 2 % 1024) = 0 →
    u.ownsSlot j.func (descN j.desc 4 2 % 1024) = true → u.keySlot (descN j.desc 4 2 % 1024) = some k →
    ∃ (t : State) (d : JobDone) (x : KeySlot), exec .derive s = .next t ∧ t.keySlot (descN j.desc 2 2 % 1024) = some x
      ∧ x.key.length = keyBytes (descN j.desc 1 1) ∧ x.xts = (descN j.desc 1 1 == 1) ∧ x.owner = j.func
      ∧ t.keys.finished = u.keys.finished ++ [d] ∧ d.status = 0)
  ∧ (∀ (s u : State) (j : Job) (h : Nat) (kek : Bytes), s.fetchKeyJobs = u → u.keys.queue.head? = some j → j.src = .host h → descN j.desc 0 1 = 6 →
    keyDescOk j.desc true = true → 6 ∈ u.keys.masks → (u.kekFor j.func).1 = some kek → u.slotCheck j.func (descN j.desc 2 2 % 1024) = 0 → 128 ≤ descN j.desc 2 2 % 1024 →
    ∃ (t : State) (d : JobDone), exec .loadPlain s = .next t
      ∧ t.keySlot (descN j.desc 2 2 % 1024) = some ⟨descN j.desc 2 2 % 1024, sliceBytes j.desc 64 (descN j.desc 12 4), descN j.desc 1 1 == 1, j.func, 0⟩
      ∧ t.keys.finished = u.keys.finished ++ [d] ∧ d.status = 0)
  ∧ (∀ (s u : State) (j : Job), s.fetchKeyJobs = u → u.keys.queue.head? = some j → descN j.desc 0 1 = 7 →
    keyDescOk j.desc (hostSrc j.src) = true → u.slotCheck j.func (descN j.desc 2 2 % 1024) = 0 →
    ∃ (t : State) (d : JobDone), exec .clear s = .next t ∧ t.keySlot (descN j.desc 2 2 % 1024) = none
      ∧ (∀ n, n ≠ descN j.desc 2 2 % 1024 → t.keySlot n = u.keySlot n) ∧ t.keys.finished = u.keys.finished ++ [d] ∧ d.status = 0)
  ∧ (∀ (s u : State) (j : Job) (op : Nat), op = 2 ∨ op = 5 ∨ op = 6 ∨ op = 7 → s.fetchKeyJobs = u →
    u.keys.queue.head? = some j → descN j.desc 0 1 = op → keyDescOk j.desc (hostSrc j.src) = true →
    u.slotCheck j.func (descN j.desc 2 2 % 1024) ≠ 0 → (op = 7 ∨ (u.keys.kekMedia ≠ none ∧ 6 ∈ u.keys.masks)) →
    ∃ (t : State) (d : JobDone), (op = 2 → exec .generate s = .next t) ∧ (op = 5 → exec .derive s = .next t)
      ∧ (op = 6 → exec .loadPlain s = .next t) ∧ (op = 7 → exec .clear s = .next t) ∧ t.keys.slots = u.keys.slots ∧ t.keys.finished = u.keys.finished ++ [d]
      ∧ d.status = (if u.ownsSlot j.func (descN j.desc 2 2 % 1024) then 0x12 else 0x11))
  ∧ (∀ (s u : State) (j : Job), s.fetchKeyJobs = u → u.keys.queue.head? = some j → descN j.desc 0 1 = 1 → keyDescOk j.desc (hostSrc j.src) = true →
    systemTag j.func = true → 6 ∈ u.keys.masks → u.keys.kekMedia = none → u.mayDerive = false →
    ∃ (t : State) (d : JobDone), exec .deriveKeks s = .next t.owedTrails ∧ t.keys.kekMedia = none ∧ t.keys.finished = u.keys.finished ++ [d] ∧ d.status = 0x0B)
  ∧ (∀ (s u : State) (j : Job), s.fetchKeyJobs = u → u.keys.queue.head? = some j → descN j.desc 0 1 = 2 → 6 ∉ u.keys.masks → exec .generate s = .next u)
  ∧ (∀ (s : State) (d : JobDone) (ds : List JobDone) (cl : Fin 9), s.keys.finished = d :: ds → d.job.src = .cluster cl →
    ∃ (t : State) (k : State → Nat → State), exec .keyengJobComplete s = .next (t.endJob { d with record := d.record.take 32 } 0 k) ∧ t.keys.finished = ds
      ∧ t.keys.slots = s.keys.slots ∧ t.mem = s.mem)
  ∧ (∀ (s : State) (d : JobDone) (ds : List JobDone) (fn : Nat), s.keys.finished = d :: ds → d.job.src = .host fn →
    ∃ t : State, exec .keyengJobComplete s = .next (t.wake (fun w => w == .keyJob d.job.id) (keyNvme d.status) d.status) ∧ t.keys.finished = ds
      ∧ assoc t.host.secOut fn = some (padTo 104 d.record))

/-- R426-R430, R440. The take's close, the end of perturbation and the settling of grants that an alarm brings follow in the next
state. -/
def Obligations.AlarmsZeroiseEveryKey : Prop :=
  (∀ (s : State) (c : BitVec 3), c.toNat ≤ 4 →
    ∃ t : State, exec (.keyengAlarm c) s = .next (t.closeKeys.endPerturb .alarm).settle ∧ t.keysGone ∧ bitAt (t.get R.KEYENG.ALARM_CAUSE_CAUSE) c.toNat = true
      ∧ t.get R.KEYENG.ALARMS_COUNT = min (s.get R.KEYENG.ALARMS_COUNT + 1) (2 ^ 32 - 1) ∧ t.take = s.take
      ∧ (∀ j ∈ s.keys.queue, ∃ d ∈ t.keys.finished, d.job = j ∧ d.status = 0x0B)
      ∧ (∀ d ∈ t.jobs.finished, d.job.engine = 3 → d.status = 0x0B))
  ∧ (∀ (s : State) (apt : Bool), s.get R.ENTROPY.ES_STATUS_STATE = 1 →
    ∃ t : State, exec (.entropyHealthFail apt) s = .next (t.closeKeys.endPerturb .alarm).settle ∧ t.keysGone ∧ t.get R.ENTROPY.ES_STATUS_STATE = 2
      ∧ bitAt (t.get R.KEYENG.ALARM_CAUSE_CAUSE) 4 = true)
  ∧ (∀ s : State, s.get R.ENTROPY.ES_STATUS_STATE ≠ 1 → s.get R.ENTROPY.ES_STATUS_STATE ≠ 3 →
    ∃ t : State, exec (.entropyStartupDone true) s = .next t.masked ∧ t.get R.ENTROPY.ES_STATUS_STATE = 1 ∧ t.keys.masks = List.range 7
      ∧ t.keys.slots = s.keys.slots ∧ t.keys.kekMedia = s.keys.kekMedia)
  ∧ (∀ (s : State) (o : Origin), s.powered = true → s.reaches o 0x29 = true → s.holds o .operator = true →
    ∃ t : State, exec (.erase o) s = .next (t.closeKeys.endPerturb .alarm).settle ∧ t.keysGone ∧ bitAt (t.get R.KEYENG.ALARM_CAUSE_CAUSE) 5 = true)
  ∧ (∀ (s : State) (o : Origin), s.powered = true → s.reaches o 0x29 = true → s.holds o .operator = true → s.unlockBarred = false →
    6 ∈ s.keys.masks → ∃ t : State, exec (.unlock o) s = .next t.owedTrails ∧ t.keys.kekMedia = some (s.kek 1 0 0) ∧ t.get R.KEYENG.ALARM_CAUSE_CAUSE = 0
      ∧ t.keys.slots = s.keys.slots ∧ t.keys.kekFunc = s.keys.kekFunc)
  ∧ (∀ (s : State) (o : Origin), s.powered = true → s.reaches o 0x29 = true → s.holds o .operator = true →
    (s.keys.conds ≠ 0 ∨ s.get R.ENTROPY.ES_STATUS_STATE ≠ 1) →
    ∃ t : State, exec (.unlock o) s = .next t ∧ t.keys = s.keys ∧ t.refusal = some E.KEYENG_ALARM_ACTIVE)
  ∧ (∀ (s : State) (o : Origin), s.powered = true → s.reaches o 0x29 = true → s.holds o .operator = false →
    (∃ t : State, exec (.unlock o) s = .next t ∧ t.keys = s.keys) ∧ (∃ t : State, exec (.erase o) s = .next t ∧ t.keys = s.keys))
/-- R458, for every table of fetched commands. -/
def Obligations.ConflictingCommandsWait : Prop :=
  (∀ (h : HostSt) (c : HCmd), h.blocked c = true ↔
    ∃ d ∈ h.cmds, d.num < c.num ∧ ∃ a ∈ d.locks, ∃ b ∈ c.locks, a.nsid = b.nsid ∧ (a.wr = true ∨ b.wr = true)
      ∧ ∃ lba, a.first ≤ lba ∧ lba < a.first + a.count ∧ b.first ≤ lba ∧ lba < b.first + b.count)
  ∧ (∀ a b : RLock, a.wr = false → b.wr = false → a.conflicts b = false)
  ∧ (∀ (s : State) (x : IoCmd) (q : Sq) (c : HCmd), s.sq x.fn x.sq = some q → x.sq ≠ 0 → q.frozen = none → q.head ≠ q.tail → s.mayFetch x.fn = true →
    s.hcmd ⟨x.fn, x.sq, x.cid⟩ = none → s.host.locksUsed + (s.locksOf x).length ≤ 8192 → ⟨x.fn, x.sq, x.cid⟩ ∉ s.host.aborts →
    s.listedOpcode x = true → (s.ioNs x).isSome = true → (s.fetchTurn x.fn).isSome = true → c = ⟨x, s.get R.HOSTQ.FETCHED_COUNT, s.locksOf x, .ready, 0, false⟩ →
    ∃ t : State, exec (.commandFetch x) s = .next t ∧ (if s.host.blocked c then { c with phase := .waits } else c) ∈ t.host.cmds
      ∧ t.get R.HOSTQ.FETCHED_COUNT = min (s.get R.HOSTQ.FETCHED_COUNT + 1) (2 ^ 64 - 1)
      ∧ t.sq x.fn x.sq = some { q with head := (q.head + 1) % max 1 q.size })
  ∧ (∀ (s : State) (i : Nat) (c d : HCmd), s.host.cmds[i]? = some c → s.relock.host.cmds[i]? = some d →
    (d.phase = .waits ↔ (c.phase = .waits ∧ s.host.blocked c = true)) ∧ (c.phase ≠ .waits → d = c)
      ∧ (c.phase = .waits → s.host.blocked c = false → d = { c with phase := .ready }))

/-- R461, R464. -/
def Obligations.ErrorsFreezeTheQueue : Prop :=
  (∀ (s : State) (k : CmdKey) (c : HCmd) (q : Sq) (st d0 d1 : Nat) (keep : Bool), s.hcmd k = some c → s.sq k.fn k.sq = some q → st ≠ 0 → k.sq ≠ 0 →
    (s.completeCmd k st d0 d1 keep).sq k.fn k.sq = some (if q.frozen.isSome then q else { q with frozen := some (k.cid, st, s.time) })
      ∧ (∀ f n, (f, n) ≠ (k.fn, k.sq) → (s.completeCmd k st d0 d1 keep).sq f n = s.sq f n)
      ∧ (⟨k.fn, q.cqid, k.sq, k.cid, st, d0, d1⟩ : Cqe) ∈ (s.completeCmd k st d0 d1 keep).host.cqes)
  ∧ (∀ (s : State) (k : CmdKey) (st d0 d1 : Nat) (keep : Bool), st = 0 ∨ k.sq = 0 → (s.completeCmd k st d0 d1 keep).host.sqs = s.host.sqs)
  ∧ (∀ (s : State) (x : IoCmd) (q : Sq), s.sq x.fn x.sq = some q → q.frozen ≠ none → exec (.commandFetch x) s = .next s)
  ∧ (∀ (s : State) (c : Cmd) (sqid : Nat) (q : Sq), s.adminReady c.fn = true → s.sq c.fn sqid = some q → q.frozen ≠ none →
    ∃ t : State, exec (.queueThaw c sqid) s = .next t ∧ t.sq c.fn sqid = some { q with frozen := none } ∧ (⟨c.fn, 0, 0, c.cid, 0, 0, 0⟩ : Cqe) ∈ t.host.cqes
      ∧ t.get R.HOSTQ.THAWS_COUNT = min (s.get R.HOSTQ.THAWS_COUNT + 1) (2 ^ 32 - 1) ∧ t.host.cmds = s.host.cmds)
  ∧ (∀ (s : State) (c : Cmd) (sqid : Nat), s.adminReady c.fn = true → (∀ q, s.sq c.fn sqid = some q → q.frozen = none) →
    ∃ t : State, exec (.queueThaw c sqid) s = .next t ∧ t.host.sqs = s.host.sqs ∧ (⟨c.fn, 0, 0, c.cid, Nv.badField, 0, 0⟩ : Cqe) ∈ t.host.cqes
      ∧ t.get R.HOSTQ.THAWS_COUNT = s.get R.HOSTQ.THAWS_COUNT)

/-- R444-R448, R460. -/
def Obligations.PortsAndDoorbells : Prop :=
  (∀ (s : State) (p : Port), ∃ t : State, exec (.perstRelease p) s = .next t ∧ t.perstHigh p = true ∧ t.get R.HOSTQ.PORT_CFG_MODE = b2n (s.instFlag 5)
      ∧ (s.mayGrant = true → p = .a ∨ s.instFlag 5 = true → (t.fn (portPf p)).isSome = true)
      ∧ (s.mayGrant = false → t.tenant = s.tenant))
  ∧ (∀ (s : State) (p : Port), ∃ t : State, exec (.perstAssert p) s = .next (t.resetFn (portPf p)) ∧ t.perstHigh p = false ∧ t.linkUp p = false
      ∧ t.host.sqs = s.host.sqs ∧ t.tenant = s.tenant)
  ∧ (∀ (s : State) (p : Port) (sp : BitVec 3) (w : BitVec 5) (flit sris : Bool), s.perstHigh p = true → s.portExists p = true → sp ≠ 0 → sp ≠ 7 →
    w.toNat ∈ [1, 2, 4, 8, 16] → w.toNat ≤ s.fullWidth →
    ∃ t : State, exec (.pcieLinkUp p sp w flit sris) s = .next t ∧ t.get (linkFields p).1 = sp.toNat ∧ t.get (linkFields p).2.1 = w.toNat
      ∧ t.get (linkFields p).2.2.1 = b2n flit ∧ bitAt (t.get (H.STICKY 0xB0)) (linkEvent p) = true
      ∧ (s.get (H.VALID 0xB0) = 0 → sp.toNat < 6 ∨ w.toNat < s.fullWidth → t.get (H.CODE 0xB0) = E.HOSTQ_LINK_DEGRADED)
      ∧ (s.get (H.VALID 0xB0) = 0 → sp.toNat = 6 → w.toNat = s.fullWidth → t.get (H.VALID 0xB0) = 0))
  ∧ (∀ (s : State) (p : Port), s.linkUp p = true →
    ∃ t : State, exec (.hostqLinkDown p) s = .next t ∧ t.linkUp p = false ∧ bitAt (t.get (H.STICKY 0xB0)) (linkEvent p) = true
      ∧ (s.get (H.VALID 0xB0) = 0 → t.get (H.CODE 0xB0) = E.HOSTQ_LINK_DOWN) ∧ t.host.sqs = s.host.sqs ∧ t.host.cqes = s.host.cqes)
  ∧ (∀ (s : State) (p : Port), s.linkUp p = true → s.get (linkFields p).2.2.2.2 = 0 →
    ∃ t : State, exec (.aspmL12Entry p) s = .next t ∧ t.get (linkFields p).2.2.2.2 = 1 ∧ t.get (linkFields p).1 = s.get (linkFields p).1 ∧ t.host.sqs = s.host.sqs ∧ t.host.cqes = s.host.cqes)
  ∧ (∀ (s : State) (p : Port), s.linkUp p = true → s.get (linkFields p).2.2.2.2 = 1 → s.mode ≠ 1 →
    ∃ t : State, exec (.aspmL12Exit p) s = .next t ∧ t.get (linkFields p).2.2.2.2 = 0 ∧ t.get (linkFields p).1 = s.get (linkFields p).1 ∧ t.host.sqs = s.host.sqs ∧ t.host.cqes = s.host.cqes)
  ∧ (∀ (s : State) (fn qid v : Nat) (q : Sq), (s.fn fn).isSome = true → s.sq fn qid = some q → v < q.size →
    ∃ t : State, exec (.doorbellWrite fn qid false v) s = .next t ∧ t.sq fn qid = some { q with tail := v } ∧ t.host.cmds = s.host.cmds
      ∧ (memWf s.mem.common = true → s.get R.HOSTQ.DB_BITBASE_INDEX + q.gidx < systemBits →
          t.commonBit (systemBitBase + (s.get R.HOSTQ.DB_BITBASE_INDEX + q.gidx)) = true))
  ∧ (∀ (s : State) (fn qid v : Nat) (q : Cq), (s.fn fn).isSome = true → s.cq fn qid = some q → v < q.size →
    ∃ t : State, exec (.doorbellWrite fn qid true v) s = .next t ∧ t.cq fn qid = some { q with head := v } ∧ t.host.sqs = s.host.sqs)
  ∧ (∀ (s : State) (fn qid v : Nat), (s.fn fn).isSome = true → (∀ q, s.sq fn qid = some q → q.size ≤ v) →
    ∃ t : State, exec (.doorbellWrite fn qid false v) s = .next t ∧ t.host.sqs = s.host.sqs ∧ bitAt (t.get (H.STICKY 0xB0)) Ev.HOSTQ.BAD_DOORBELL = true
      ∧ (s.get (H.VALID 0xB0) = 0 → t.get (H.CODE 0xB0) = E.HOSTQ_BAD_DOORBELL) ∧ t.mem = s.mem)
  ∧ (∀ (s : State) (x : IoCmd) (q : Sq), s.sq x.fn x.sq = some q → x.sq ≠ 0 → q.frozen = none → q.head ≠ q.tail → s.mayFetch x.fn = true →
    s.hcmd ⟨x.fn, x.sq, x.cid⟩ = none → (s.fetchTurn x.fn).isSome = true → 8192 < s.host.locksUsed + (s.locksOf x).length →
    ∃ t : State, exec (.commandFetch x) s = .next t ∧ t.host.paused = true ∧ t.host.cmds = s.host.cmds ∧ t.host.sqs = s.host.sqs
      ∧ t.get R.HOSTQ.FETCH_PAUSES_COUNT = (if s.host.paused then s.get R.HOSTQ.FETCH_PAUSES_COUNT else min (s.get R.HOSTQ.FETCH_PAUSES_COUNT + 1) (2 ^ 32 - 1)))
  ∧ (∀ (s : State) (x : IoCmd), s.diesShort = true → s.shareOf x.fn = 0 → s.shareWaits ≠ [] → exec (.commandFetch x) s = .next s)
  ∧ (∀ (s : State) (fn : Nat), s.diesShort = false ∨ s.shareWaits = [] → s.fetchTurn fn = some s.host.turns)
  ∧ (∀ (s : State) (f g : Nat) (t u : Turns), s.diesShort = true → s.shareWaits ≠ [] → s.fetchTurn f = some t → s.fetchTurn g = some u → f = g)

/-- R219, R251, R252, R457, R470-R474, R478. -/
def Obligations.HostCommandsRun : Prop :=
  (∀ (s : State) (k : CmdKey) (c : HCmd) (n : Ns) (op m : Nat), op = 2 ∨ op = 5 ∨ op = 0x0C →
    s.readyCmd k op = some c → s.ioCheck c.x false (ioLba c.x) (ioNlb c.x) = 0 → s.ioNs c.x = some n → (op = 0x0C ∨ ioShort c.x (4096 * ioNlb c.x) = false) →
    s.pageLost n.nsid (ioLba c.x) (ioNlb c.x) = false → m = (s.queueReads k n.nsid (ioLba c.x) (ioNlb c.x)).1 → m ≠ 0 →
    ∃ t : State, (op = 2 → exec (.read k) s = .next t) ∧ (op = 5 → exec (.compare k) s = .next t) ∧ (op = 0x0C → exec (.verify k) s = .next t)
      ∧ t.hcmd k = some { c with left := m, phase := .running } ∧ t.mem = s.mem ∧ t.host.cqes = s.host.cqes)
  ∧ (∀ (s u v : State) (k : CmdKey) (c : HCmd) (n : Ns) (op : Nat) (bs : Bytes), op = 2 ∨ op = 5 ∨ op = 0x0C →
    s.readyCmd k op = some c → s.ioCheck c.x false (ioLba c.x) (ioNlb c.x) = 0 → s.ioNs c.x = some n → (op = 0x0C ∨ ioShort c.x (4096 * ioNlb c.x) = false) →
    s.pageLost n.nsid (ioLba c.x) (ioNlb c.x) = false → (s.queueReads k n.nsid (ioLba c.x) (ioNlb c.x)).1 = 0 → s.readyPipes ≠ [] →
    v = (((s.queueReads k n.nsid (ioLba c.x) (ioNlb c.x)).2.readingCmd k).aheadOf n.nsid (ioLba c.x) (ioNlb c.x)) →
    v.resyncFirst n.nsid (ioLba c.x) (ioNlb c.x) = false → v.readRange n (ioLba c.x) (ioNlb c.x) = (some bs, u) →
    ∃ (t : State) (cq st : Nat), (op = 2 → exec (.read k) s = .next t) ∧ (op = 5 → exec (.compare k) s = .next t) ∧ (op = 0x0C → exec (.verify k) s = .next t)
      ∧ (⟨k.fn, cq, k.sq, k.cid, st, 0, 0⟩ : Cqe) ∈ t.host.cqes
      ∧ st = (if op = 5 ∧ s.fromHost c.x.fn c.x.dptr (4096 * ioNlb c.x) ≠ bs then Nv.compareFail else 0)
      ∧ t.mem = (if op = 2 then dptrWrite (hostTarget c.x.fn) c.x.dptr bs s.mem else s.mem)
      ∧ (s.array.owed = [] → t.media.image.map = s.media.image.map))
  ∧ (∀ (s : State) (k : CmdKey) (c : HCmd) (n : Ns), s.readyCmd k 1 = some c → s.ioCheck c.x true (ioLba c.x) (ioNlb c.x) = 0 → s.ioNs c.x = some n →
    ioShort c.x (4096 * ioNlb c.x) = false → s.pageLost n.nsid (ioLba c.x) (ioNlb c.x) = false → 50 ≤ s.get R.TAKE.HOLDUP_HOLDUP_MS →
    s.media.wbuf.length + ioNlb c.x ≤ 16384 →
    ∃ (t : State) (cq : Nat), exec (.write k) s = .next t ∧ (⟨k.fn, cq, k.sq, k.cid, 0, 0, 0⟩ : Cqe) ∈ t.host.cqes ∧ t.mem = s.mem
      ∧ t.media.wbuf = s.media.wbuf ++ ((chunks 4096 (s.fromHost c.x.fn c.x.dptr (4096 * ioNlb c.x))).zipIdx.map fun x =>
          (⟨n.nsid, ioLba c.x + x.2, x.1, 4096 * ioNlb c.x⟩ : BufEnt))
      ∧ (∃ h ∈ t.host.cmds, h.x = c.x ∧ h.locks = c.locks ∧ h.phase = .locked ∧ h.left = ioNlb c.x) ∧ t.media.image = s.media.image)
  ∧ (∀ (s : State) (k : CmdKey) (c : HCmd), s.readyCmd k 0 = some c → (s.ioNs c.x).isSome = true → s.offline = false →
    ∃ (t : State) (cq : Nat), exec (.flush k) s = .next t ∧ (⟨k.fn, cq, k.sq, k.cid, 0, 0, 0⟩ : Cqe) ∈ t.host.cqes ∧ t.media = s.media ∧ t.mem = s.mem)
  ∧ (∀ (s : State) (k : CmdKey) (c : HCmd) (n : Ns), s.readyCmd k 8 = some c → s.ioCheck c.x true (ioLba c.x) (ioNlb c.x) = 0 → s.ioNs c.x = some n →
    s.pageLost n.nsid (ioLba c.x) (ioNlb c.x) = false →
    ∃ t : State, exec (.writeZeroes k) s = .next t ∧ t.mem = s.mem
      ∧ (∀ a b, if a = n.nsid ∧ ioLba c.x ≤ b ∧ b < ioLba c.x + ioNlb c.x then ∃ q, s.media.seq ≤ q ∧ q < t.media.seq ∧ t.mapEnt a b = some (.zeroes q)
          else t.mapEnt a b = s.mapEnt a b)
      ∧ (50 ≤ s.get R.TAKE.HOLDUP_HOLDUP_MS → ∃ cq : Nat, (⟨k.fn, cq, k.sq, k.cid, 0, 0, 0⟩ : Cqe) ∈ t.host.cqes)
      ∧ (s.get R.TAKE.HOLDUP_HOLDUP_MS < 50 → t.host.cqes = s.host.cqes ∧ (k, t.media.seq - 1) ∈ t.media.zeroWaits
          ∧ t.hcmd k = some { c with phase := .running, left := 1 }))
  ∧ (∀ (s : State) (k : CmdKey) (c : HCmd) (n : Ns), s.readyCmd k 9 = some c → s.ioCheck c.x true 0 0 = 0 → s.ioNs c.x = some n →
    (∀ r ∈ s.dsmRanges c.x, r.1 + r.2 ≤ n.nsze ∧ s.pageLost n.nsid r.1 r.2 = false) → bitAt c.x.cdw11 2 = true →
    ∃ (t : State) (cq : Nat), exec (.datasetManagement k) s = .next t ∧ (⟨k.fn, cq, k.sq, k.cid, 0, 0, 0⟩ : Cqe) ∈ t.host.cqes ∧ t.mem = s.mem
      ∧ (∀ r ∈ s.dsmRanges c.x, ∀ b, r.1 ≤ b → b < r.1 + r.2 → t.mapEnt n.nsid b = none)
      ∧ (∀ a b, (a ≠ n.nsid ∨ ∀ r ∈ s.dsmRanges c.x, b < r.1 ∨ r.1 + r.2 ≤ b) → t.mapEnt a b = s.mapEnt a b))
  ∧ (∀ (s : State) (k : CmdKey) (c : HCmd) (n : Ns), s.readyCmd k 9 = some c → s.ioCheck c.x true 0 0 = 0 → s.ioNs c.x = some n →
    (∃ r ∈ s.dsmRanges c.x, n.nsze < r.1 + r.2) →
    ∃ (t : State) (cq : Nat), exec (.datasetManagement k) s = .next t ∧ (⟨k.fn, cq, k.sq, k.cid, Nv.outOfRange, 0, 0⟩ : Cqe) ∈ t.host.cqes ∧ t.media = s.media)
  ∧ (∀ (s u : State) (k : CmdKey) (c : HCmd) (n : Ns) (cont : Bytes) (bad : List Nat) (fo : Option Nat) (off len : Nat), s.readyCmd k 0x82 = some c → s.ioNs c.x = some n → n.kind = .take →
    s.offline = false → s.keys.kekMedia ≠ none → len = c.x.cdw15 % 2 ^ 27 → len ≠ 0 → len ≤ 67108864 → bits c.x.cdw12 8 3 = 3 →
    len ≤ dptrLen c.x.dptr → s.pageLost n.nsid 0 n.nuse = false → (s.aheadOf n.nsid 0 n.nuse).resyncFirst n.nsid 0 n.nuse = false →
    s.readyPipes ≠ [] → s.containerOf n = (cont, bad, u) → off = c.x.cdw13 + c.x.cdw14 % 256 * 2 ^ 32 →
    fo = findFrame n cont (c.x.cdw10 + c.x.cdw11 * 2 ^ 32) (c.x.cdw12 % 8) (c.x.cdw12 / 2 ^ 16) → u.hcmd k = some c →
    ∃ (t : State) (cq : Nat), exec (.frameRead k) s = .next t ∧ (s.array.owed = [] → t.media.image.map = s.media.image.map)
      ∧ (fo = none → (⟨k.fn, cq, k.sq, k.cid, Nv.frameNotFound, 0, 0⟩ : Cqe) ∈ t.host.cqes)
      ∧ (∀ a r m, fo = some a → r = recAt cont a → lostIn bad a r.length = false → off < r.length → m = min len (r.length - off) →
          (⟨k.fn, cq, k.sq, k.cid, 0, m, frameDw1 r 0⟩ : Cqe) ∈ t.host.cqes ∧ t.mem = dptrWrite (hostTarget c.x.fn) c.x.dptr (sliceBytes r off m) u.mem)
      ∧ (∀ a, fo = some a → lostIn bad a (recAt cont a).length = true → (⟨k.fn, cq, k.sq, k.cid, Nv.unrecovered, 0, 0⟩ : Cqe) ∈ t.host.cqes)
      ∧ (∀ a, fo = some a → lostIn bad a (recAt cont a).length = false → (recAt cont a).length ≤ off → (⟨k.fn, cq, k.sq, k.cid, Nv.badField, 0, 0⟩ : Cqe) ∈ t.host.cqes))
  ∧ (∀ (s : State) (k : CmdKey) (c : HCmd) (n : Ns) (op e : Nat), (op = 0x87 ∧ e = 1) ∨ (op = 0x8B ∧ e = 0) ∨ (op = 0x8F ∧ e = 2) →
    s.readyCmd k op = some c → s.ioNs c.x = some n → n.kind = .compute → n.nsid = 0x400 + k.fn → s.offline = false → 64 ≤ dptrLen c.x.dptr →
    (e = 0 → (s.jobs.queue.filter (·.engine == 0)).length < 1024) →
    ∃ t : State, (op = 0x87 → exec (.earmarkSearch k) s = .next t) ∧ (op = 0x8B → exec (.shearsJob k) s = .next t)
      ∧ (op = 0x8F → exec (.digestJob k) s = .next t) ∧ t.jobs.queue = s.jobs.queue ++ [⟨s.jobs.next, .host k.fn, e, k.fn, s.fromHost k.fn c.x.dptr 64, none, some k⟩]
      ∧ t.hcmd k = some { c with phase := .running } ∧ t.mem = s.mem ∧ t.host.cqes = s.host.cqes)
  ∧ (∀ (s : State) (k : CmdKey) (c : HCmd) (n : Ns) (b : Nat × Nat) (out : Bytes), s.hcmd k = some c → c.phase = .ready → s.ioNs c.x = some n → n.kind = .memory →
    s.offline = false → s.slmBase c.x = some b → slmByte c.x + c.x.cdw12 ≤ b.2 → ioShort c.x c.x.cdw12 = false → out = s.fromHost k.fn c.x.dptr c.x.cdw12 →
    (∀ bs, s.mem.poisoned .dram (b.1 + slmByte c.x) c.x.cdw12 = false → s.xread k.fn (slmVa + slmByte c.x) c.x.cdw12 = .ok bs →
      ∃ (t : State) (cq : Nat), exec (.memoryRead k) s = .next t ∧ (⟨k.fn, cq, k.sq, k.cid, 0, 0, 0⟩ : Cqe) ∈ t.host.cqes
        ∧ t.mem = dptrWrite (hostTarget k.fn) c.x.dptr bs s.mem)
    ∧ (s.mem.poisoned .dram (b.1 + slmByte c.x) c.x.cdw12 = true →
      ∃ (t : State) (cq : Nat), exec (.memoryRead k) s = .next t ∧ (⟨k.fn, cq, k.sq, k.cid, Nv.unrecovered, 0, 0⟩ : Cqe) ∈ t.host.cqes ∧ t.mem = s.mem)
    ∧ (xfault s.xlate k.fn .w (piecesOf (slmVa + slmByte c.x) out.length) = none →
      ∃ (t : State) (cq : Nat), exec (.memoryWrite k) s = .next t ∧ (⟨k.fn, cq, k.sq, k.cid, 0, 0, 0⟩ : Cqe) ∈ t.host.cqes
        ∧ t.mem = xwriteAux s.xlate k.fn (piecesOf (slmVa + slmByte c.x) out.length) out s.mem)
    ∧ (∀ a, xfault s.xlate k.fn .w (piecesOf (slmVa + slmByte c.x) out.length) = some a →
      ∃ (t : State) (cq : Nat), exec (.memoryWrite k) s = .next t ∧ (⟨k.fn, cq, k.sq, k.cid, Nv.dataError, 0, 0⟩ : Cqe) ∈ t.host.cqes ∧ t.mem = s.mem))
  ∧ (∀ (s : State) (k : CmdKey) (c : HCmd) (n : Ns) (b : Nat × Nat) (r : Nat × Nat × Nat) (m : Nat), s.hcmd k = some c → c.phase = .ready → s.ioNs c.x = some n →
    n.kind = .memory → s.offline = false → s.slmBase c.x = some b → s.copySources c.x = [r] → s.ioCheck { c.x with nsid := r.1 } false r.2.1 r.2.2 = 0 →
    slmByte c.x + 4096 * r.2.2 ≤ b.2 → s.pageLost r.1 r.2.1 r.2.2 = false → m = (s.queueReads k r.1 r.2.1 r.2.2).1 → m ≠ 0 →
    ∃ t : State, exec (.memoryCopy k) s = .next t ∧ t.hcmd k = some { c with left := m, phase := .running } ∧ t.mem = s.mem)
  ∧ (∀ (s : State) (k : CmdKey) (c : HCmd) (op st : Nat) (wr : Bool), op ∈ [2, 5, 0x0C, 1, 8] → wr = (op == 1 || op == 8) →
    s.readyCmd k op = some c → s.ioCheck c.x wr (ioLba c.x) (ioNlb c.x) = st → st ≠ 0 →
    ∃ (t : State) (cq : Nat), (op = 2 → exec (.read k) s = .next t) ∧ (op = 5 → exec (.compare k) s = .next t)
      ∧ (op = 0x0C → exec (.verify k) s = .next t) ∧ (op = 1 → exec (.write k) s = .next t) ∧ (op = 8 → exec (.writeZeroes k) s = .next t)
      ∧ (⟨k.fn, cq, k.sq, k.cid, st, 0, 0⟩ : Cqe) ∈ t.host.cqes ∧ t.mem = s.mem ∧ t.media = s.media)
  ∧ (∀ (s t : State) (k : CmdKey) (c : HCmd) (n : Ns) (op : Nat) (wr : Bool), op ∈ [2, 5, 0x0C, 1, 8] → wr = (op == 1 || op == 8) → t = s →
    s.readyCmd k op = some c → s.ioCheck c.x wr (ioLba c.x) (ioNlb c.x) = 0 → s.ioNs c.x = some n → ioShort c.x (4096 * ioNlb c.x) = false →
    s.pageLost n.nsid (ioLba c.x) (ioNlb c.x) = true →
    (op = 2 → exec (.read k) s = .next t) ∧ (op = 5 → exec (.compare k) s = .next t)
      ∧ (op = 0x0C → exec (.verify k) s = .next t) ∧ (op = 1 → exec (.write k) s = .next t) ∧ (op = 8 → exec (.writeZeroes k) s = .next t))

/-- R450-R455, R463-R467, R475, R479. -/
def Obligations.AdminCommandsRun : Prop :=
  (∀ (s : State) (c : Cmd) (qid size vec : Nat) (ien : Bool), s.adminReady c.fn = true → s.qidOk c.fn qid = true → s.cq c.fn qid = none → 2 ≤ size → size ≤ 16384 →
    vec < vectorsOf c.fn →
    ∃ t : State, exec (.createIoCq c qid size vec ien true) s = .next t ∧ t.cq c.fn qid = some ⟨c.fn, qid, size, vec, ien, 0, 0⟩
      ∧ (⟨c.fn, 0, 0, c.cid, 0, 0, 0⟩ : Cqe) ∈ t.host.cqes ∧ t.host.sqs = s.host.sqs)
  ∧ (∀ (s : State) (c : Cmd) (qid size cqid : Nat), s.adminReady c.fn = true → cqid ≠ 0 → (s.cq c.fn cqid).isSome = true → s.qidOk c.fn qid = true → s.sq c.fn qid = none →
    2 ≤ size → size ≤ 16384 →
    ∃ (t : State) (g : Nat), exec (.createIoSq c qid size cqid true) s = .next t ∧ t.sq c.fn qid = some ⟨c.fn, qid, size, cqid, 0, 0, none, g⟩
      ∧ (∀ q ∈ s.host.sqs, q.gidx ≠ g) ∧ (⟨c.fn, 0, 0, c.cid, 0, 0, 0⟩ : Cqe) ∈ t.host.cqes)
  ∧ (∀ (s : State) (c : Cmd) (qid : Nat), s.adminReady c.fn = true → qid ≠ 0 → (s.sq c.fn qid).isSome = true →
    ∃ t : State, exec (.deleteIoSq c qid) s = .next t ∧ t.sq c.fn qid = none ∧ (∀ f n, (f, n) ≠ (c.fn, qid) → t.sq f n = s.sq f n)
      ∧ (⟨c.fn, 0, 0, c.cid, 0, 0, 0⟩ : Cqe) ∈ t.host.cqes)
  ∧ (∀ (s : State) (c : Cmd) (qid : Nat), s.adminReady c.fn = true → qid ≠ 0 → (s.cq c.fn qid).isSome = true →
    (∀ q ∈ s.host.sqs, ¬ (q.fn = c.fn ∧ q.cqid = qid ∧ q.qid ≠ 0)) →
    ∃ t : State, exec (.deleteIoCq c qid) s = .next t ∧ t.cq c.fn qid = none ∧ t.host.sqs = s.host.sqs ∧ (⟨c.fn, 0, 0, c.cid, 0, 0, 0⟩ : Cqe) ∈ t.host.cqes)
  ∧ (∀ (s u : State) (c : Cmd) (lid : Nat) (lsp : BitVec 4) (rae : Bool) (off len : Nat) (page : Bytes), s.adminReady c.fn = true → s.logPage c.fn lid = .ok (page, u) → lid ≠ 0xC5 →
    off % 4 = 0 → off < page.length → len ≤ dptrLen c.dptr →
    ∃ t : State, exec (.getLogPage c lid lsp rae off len) s = .next t ∧ t.mem = dptrWrite (hostTarget c.fn) c.dptr ((page.drop off).take len) s.mem
      ∧ (⟨c.fn, 0, 0, c.cid, 0, 0, 0⟩ : Cqe) ∈ t.host.cqes ∧ (rae = true → t.host.frozenSeen = s.host.frozenSeen)
      ∧ (rae = false → lid = 0xC1 → c.fn ∉ t.host.frozenSeen) ∧ t.host.sqs = s.host.sqs)
  ∧ (∀ (s : State) (c : Cmd) (cntid : Nat), s.adminReady c.fn = true →
    ∃ (t : State) (bs : Bytes), exec (.identify c 1 cntid) s = .next t ∧ bs.length = 4096 ∧ t.mem = dptrWrite (hostTarget c.fn) c.dptr bs s.mem
      ∧ leNat (sliceBytes bs 77 1) = 14 ∧ leNat (sliceBytes bs 78 2) = c.fn % 2 ^ 16 ∧ leNat (sliceBytes bs 258 1) = 3 ∧ leNat (sliceBytes bs 259 1) = 7
      ∧ leNat (sliceBytes bs 262 1) = 255 ∧ leNat (sliceBytes bs 516 4) = 0x0002FFFF ∧ leNat (sliceBytes bs 525 1) = 0
      ∧ (⟨c.fn, 0, 0, c.cid, 0, 0, 0⟩ : Cqe) ∈ t.host.cqes)
  ∧ (∀ (s : State) (c : Cmd) (sqid acid : Nat) (h : HCmd), s.adminReady c.fn = true → s.hcmd ⟨c.fn, sqid, acid⟩ = some h → h.phase = .waits →
    ∃ (t : State) (cq : Nat), exec (.abort c sqid acid) s = .next t ∧ (⟨c.fn, cq, sqid, acid, Nv.aborted, 0, 0⟩ : Cqe) ∈ t.host.cqes
      ∧ (⟨c.fn, 0, 0, c.cid, 0, 0, 0⟩ : Cqe) ∈ t.host.cqes ∧ h ∉ t.host.cmds)
  ∧ (∀ (s : State) (c : Cmd) (sqid acid : Nat) (h : HCmd), s.adminReady c.fn = true → s.hcmd ⟨c.fn, sqid, acid⟩ = some h → h.phase = .running → s.progCores ⟨c.fn, sqid, acid⟩ = [] →
    ∃ t : State, exec (.abort c sqid acid) s = .next t ∧ (⟨c.fn, 0, 0, c.cid, 0, 1, 0⟩ : Cqe) ∈ t.host.cqes ∧ t.host.cmds = s.host.cmds)
  ∧ (∀ (s : State) (c : Cmd) (fid : Nat) (v : BitVec 32), s.adminReady c.fn = true → featureOk c.fn fid v.toNat = true → fid ≠ 7 →
    ∃ t : State, exec (.setFeatures c fid v) s = .next t ∧ t.feature c.fn fid = v.toNat ∧ (∀ f n, (f, n) ≠ (c.fn, fid) → t.feature f n = s.feature f n)
      ∧ (⟨c.fn, 0, 0, c.cid, 0, 0, 0⟩ : Cqe) ∈ t.host.cqes)
  ∧ (∀ (s : State) (c : Cmd) (fid : Nat), s.adminReady c.fn = true → featureListed fid = true →
    ∃ t : State, exec (.getFeatures c fid) s = .next t ∧ (⟨c.fn, 0, 0, c.cid, 0, s.feature c.fn fid, 0⟩ : Cqe) ∈ t.host.cqes ∧ t.host.features = s.host.features)
  ∧ (∀ (s : State) (c : Cmd), s.adminReady c.fn = true → (s.host.aers.filter (·.fn == c.fn)).length < 8 →
    (∀ e ∈ s.host.events, e.fn = c.fn → (c.fn, e.page) ∈ s.host.masked) →
    ∃ t : State, exec (.asyncEventRequest c) s = .next t ∧ t.host.aers = s.host.aers ++ [c] ∧ t.host.cqes = s.host.cqes)
  ∧ (∀ (s : State) (c : Cmd) (e : AsyncEv) (es : List AsyncEv), s.adminReady c.fn = true → s.host.events = e :: es → e.fn = c.fn → (e.fn, e.page) ∉ s.host.masked →
    (∀ a ∈ s.host.aers, a.fn ≠ c.fn) →
    ∃ t : State, exec (.asyncEventRequest c) s = .next t ∧ (⟨c.fn, 0, 0, c.cid, 0, e.ty + e.info * 256 + e.page * 65536, 0⟩ : Cqe) ∈ t.host.cqes
      ∧ (c.fn, e.page) ∈ t.host.masked ∧ e ∉ t.host.events)
  ∧ (∀ (s : State) (c : Cmd) (nsze id num slot : Nat), s.adminReady c.fn = true → s.readOnly = false → nsze ≠ 0 → s.nsFits nsze = true → s.freeNsid = some id →
    (s.newMediaKey id).1 = some (num, slot) →
    ∃ t : State, exec (.namespaceManagement c 0 nsze nsze 0 0) s = .next t ∧ t.nsOf id = some ⟨id, .block, nsze, 0, [], num, t.keySeq num, none, []⟩
      ∧ (∀ n, n ≠ id → t.nsOf n = s.nsOf n) ∧ 1 ≤ id ∧ id ≤ 0x3FF ∧ (⟨c.fn, 0, 0, c.cid, 0, id, 0⟩ : Cqe) ∈ t.host.cqes)
  ∧ (∀ (s : State) (c : Cmd) (n : Ns) (nsze ncap flbas dps : Nat), s.adminReady c.fn = true → s.seesNs c.fn c.nsid = some n → n.kind = .block → s.readOnly = false →
    ∃ t : State, exec (.namespaceManagement c 1 nsze ncap flbas dps) s = .next t ∧ t.nsOf n.nsid = none ∧ (∀ b, t.mapEnt n.nsid b = none)
      ∧ (∀ m, m ≠ n.nsid → t.nsOf m = s.nsOf m) ∧ (⟨c.fn, 0, 0, c.cid, 0, 0, 0⟩ : Cqe) ∈ t.host.cqes)
  ∧ (∀ (s : State) (c : Cmd) (n : Ns) (f : Nat), s.adminReady c.fn = true → s.seesNs c.fn c.nsid = some n → n.kind = .block ∨ n.kind = .take → isPf f = true → (s.fn f).isSome = true →
    (f ∉ n.attached → ∃ (t : State) (m : Ns), exec (.namespaceAttachment c 0 [f]) s = .next t ∧ t.nsOf n.nsid = some m ∧ m.attached = n.attached ++ [f]
        ∧ (⟨c.fn, 0, 0, c.cid, 0, 0, 0⟩ : Cqe) ∈ t.host.cqes)
    ∧ (f ∈ n.attached → ∃ (t : State) (m : Ns), exec (.namespaceAttachment c 1 [f]) s = .next t ∧ t.nsOf n.nsid = some m ∧ f ∉ m.attached
        ∧ (⟨c.fn, 0, 0, c.cid, 0, 0, 0⟩ : Cqe) ∈ t.host.cqes))
  ∧ (∀ (s : State) (c : Cmd) (n : Ns) (ses : BitVec 3) (num slot : Nat), s.adminReady c.fn = true → s.seesNs c.fn c.nsid = some n → n.kind = .block → ses.toNat ≤ 1 →
    s.readOnly = false → (s.newMediaKey n.nsid).1 = some (num, slot) →
    ∃ (t : State) (m : Ns), exec (.formatNvm c 0 ses) s = .next t ∧ t.nsOf n.nsid = some m ∧ m.keyRec = num ∧ m.keySeq = t.keySeq num ∧ (∀ b < n.nsze, ∃ q, t.mapEnt n.nsid b = some (.zeroes q))
      ∧ (∀ a b, a ≠ n.nsid → t.mapEnt a b = s.mapEnt a b) ∧ (⟨c.fn, 0, 0, c.cid, 0, 0, 0⟩ : Cqe) ∈ t.host.cqes)
  ∧ (∀ (s : State) (c : Cmd) (d : Bytes), s.adminReady c.fn = true → 64 ≤ d.length → d.length = 64 + descN d 12 4 → descN d 16 8 = 0 → descN d 24 8 = 0 → descN d 56 8 = 0 →
    ∃ (t : State) (j : Job), exec (.keyRequest c d) s = .next (t.offerKeyJob j) ∧ j.engine = 4 ∧ j.func = c.fn ∧ j.desc = d ∧ j.src = .host c.fn
      ∧ t.host.waiting = s.host.waiting ++ [(c, .keyJob j.id)] ∧ assoc t.host.secOut c.fn = none ∧ t.keys = s.keys)
  ∧ (∀ (s : State) (c : Cmd) (b : Bytes), s.adminReady c.fn = true → assoc s.host.secOut c.fn = some b →
    ∃ t : State, exec (.securityReceive c) s = .next t ∧ t.mem = dptrWrite (hostTarget c.fn) c.dptr b s.mem ∧ t.host.secOut = s.host.secOut
      ∧ (⟨c.fn, 0, 0, c.cid, 0, 0, 0⟩ : Cqe) ∈ t.host.cqes)
  ∧ (∀ (s : State) (c : Cmd) (id : BitVec 64), s.adminReady c.fn = true → isPf c.fn = true → s.holds (.pcie c.fn) .operator = true → s.takeLive = true → s.takeId = id.toNat →
    ∃ t : State, exec (.takeAdminClose c id) s = .next ((t.closeTake 4 7).await c .takeClosed).settle ∧ t.take = s.take ∧ t.host.sqs = s.host.sqs ∧ t.host.cqes = s.host.cqes)
  ∧ (∀ (s : State) (c : Cmd) (id : BitVec 64) (n : Ns) (i : TakeInfo), s.adminReady c.fn = true → isPf c.fn = true → s.readOnly = false → s.holds (.pcie c.fn) .operator = true →
    s.ns.find? (fun n => (n.tk.map (·.takeId)) == some id.toNat) = some n → n.tk = some i → i.opened = false → s.ringWindows id.toNat = false →
    (∀ w ∈ s.host.waiting, w.2 ≠ .takeDeleted n.nsid) →
    ∃ t : State, exec (.takeAdminDelete c id) s = .next t ∧ t.host.waiting = s.host.waiting ++ [(c, .takeDeleted n.nsid)] ∧ t.ns = s.ns)
  ∧ (∀ (s : State) (c : Cmd) (id : BitVec 64), s.adminReady c.fn = true → isPf c.fn = true → s.holds (.pcie c.fn) .operator = false →
    (∃ t : State, exec (.takeAdminClose c id) s = .next t ∧ (⟨c.fn, 0, 0, c.cid, Nv.role, 0, 0⟩ : Cqe) ∈ t.host.cqes ∧ t.take = s.take ∧ t.ns = s.ns)
    ∧ (s.readOnly = false →
      ∃ t : State, exec (.takeAdminDelete c id) s = .next t ∧ (⟨c.fn, 0, 0, c.cid, Nv.role, 0, 0⟩ : Cqe) ∈ t.host.cqes ∧ t.take = s.take ∧ t.ns = s.ns))
  ∧ (∀ (s : State) (c : Cmd) (op : BitVec 8), s.adminReady c.fn = true → adminListed c.fn op.toNat = false →
    ∃ t : State, exec (.invalidCommandOpcode c op) s = .next t ∧ (⟨c.fn, 0, 0, c.cid, Nv.badOpcode, 0, 0⟩ : Cqe) ∈ t.host.cqes ∧ t.host.sqs = s.host.sqs)
/-- R488, R490: what the model takes as held by another function is log entry 70's. -/
def Obligations.GrantsAreExclusive : Prop :=
  ∀ (s : State) (p q : Prof), s.fitProf p = some q →
    q = { p with keyBase := q.keyBase, ctxBase := q.ctxBase, bitBase := q.bitBase }
    ∧ (q.keys = 0 ∨ (128 ≤ q.keyBase ∧ q.keyBase + q.keys ≤ 1024)) ∧ (q.ctxs = 0 ∨ (64 ≤ q.ctxBase ∧ q.ctxBase + q.ctxs ≤ 1024))
    ∧ (q.bits = 0 ∨ q.bitBase + q.bits ≤ 4194304)
    ∧ s.reserved (some p.func) (·.pairs) + q.pairs ≤ 4096 ∧ s.reserved (some p.func) (·.weight) + q.weight ≤ 4096
    ∧ s.reserved (some p.func) (·.share) + q.share ≤ 1000 ∧ s.reserved (some p.func) (·.dram) + q.dram ≤ s.get R.TENANT.DRAM_POOL_MIB
    ∧ (∀ f ∈ s.claimants, f ≠ p.func → ∀ r ∈ s.claims f,
        (∀ i, ¬ (q.cores.testBit i = true ∧ r.cores.testBit i = true)) ∧ (∀ i, ¬ (q.banks.testBit i = true ∧ r.banks.testBit i = true))
        ∧ (q.keys = 0 ∨ r.keys = 0 ∨ q.keyBase + q.keys ≤ r.keyBase ∨ r.keyBase + r.keys ≤ q.keyBase)
        ∧ (q.ctxs = 0 ∨ r.ctxs = 0 ∨ q.ctxBase + q.ctxs ≤ r.ctxBase ∨ r.ctxBase + r.ctxs ≤ q.ctxBase)
        ∧ (q.bits = 0 ∨ r.bits = 0 ∨ q.bitBase + q.bits ≤ r.bitBase ∨ r.bitBase + r.bits ≤ q.bitBase))

/-- R476-R478, R489-R493, R500-R503. -/
def Obligations.TenantCommandsRun : Prop :=
  (∀ (s : State) (c : Cmd) (func : Nat) (d : Bytes) (p : Prof), s.adminReady c.fn = true → c.fn = 0 → s.updating = false → s.profLegal func d = true → s.vfEnabled func = false →
    s.fitProf (profOfBytes d) = some p →
    ∃ t : State, exec (.setProfile c func d) s = .next t ∧ t.profOf func = some p ∧ (∀ f, f ≠ func → t.profOf f = s.profOf f) ∧ t.tenant.fns = s.tenant.fns
      ∧ bitAt (t.get (H.STICKY 0xB1)) Ev.TENANT.PROFILE_SET = true ∧ (⟨c.fn, 0, 0, c.cid, 0, 0, 0⟩ : Cqe) ∈ t.host.cqes)
  ∧ (∀ (s : State) (c : Cmd) (func st : Nat) (d : Bytes), s.adminReady c.fn = true →
    st = (if c.fn ≠ 0 then Nv.badOpcode else if s.updating then Nv.held else if s.profLegal func d = false then Nv.badField
      else if s.vfEnabled func ∨ s.fitProf (profOfBytes d) = none then Nv.held else 0) → st ≠ 0 →
    ∃ t : State, exec (.setProfile c func d) s = .next t ∧ t.tenant = s.tenant ∧ (⟨c.fn, 0, 0, c.cid, st, 0, 0⟩ : Cqe) ∈ t.host.cqes
      ∧ (s.get (H.VALID 0xB1) = 0 → t.get (H.CODE 0xB1) = E.TENANT_PROFILE_REFUSED))
  ∧ (∀ (s : State) (c : Cmd) (func : Nat), s.adminReady c.fn = true → c.fn = 0 → s.updating = false → func ≤ 0x101 → s.vfEnabled func = false →
    ∃ t : State, exec (.clearProfile c func) s = .next t ∧ t.profOf func = none ∧ (∀ f, f ≠ func → t.profOf f = s.profOf f)
      ∧ (⟨c.fn, 0, 0, c.cid, 0, 0, 0⟩ : Cqe) ∈ t.host.cqes)
  ∧ (∀ (s : State) (n : Nat), (s.fn 0).isSome = true → n ≤ 256 → s.get R.TENANT.VFS_ENABLED < n → s.tenant.resetting = [] →
    ∃ t : State, exec (.vfEnable n) s = .next t ∧ t.get R.TENANT.VFS_ENABLED = n
      ∧ (∀ f, 1 ≤ f → f ≤ n → (t.fn f).isSome = true ∧ t.genOf f = (if (s.fn f).isSome then s.genOf f else s.genOf f + 1)))
  ∧ (∀ (s : State) (n : Nat), n ≤ s.get R.TENANT.VFS_ENABLED →
    ∃ t : State, exec (.vfDisable n) s = .next t ∧ t.get R.TENANT.VFS_ENABLED = n
      ∧ (∀ f, (s.fn f).isSome = true → isPf f = false → n < f → t.isResetting f = true) ∧ (∀ f, f ≤ n ∨ isPf f = true → t.isResetting f = s.isResetting f))
  ∧ (∀ (s : State) (f : Nat), f ≠ 0 → (s.fn f).isSome = true → s.isResetting f = false →
    ∃ t : State, exec (.functionReset f) s = .next t ∧ t.isResetting f = true ∧ (∀ q ∈ t.host.sqs, q.fn ≠ f) ∧ (∀ h ∈ t.host.cmds, h.x.fn ≠ f)
      ∧ (∀ j ∈ t.jobs.queue, j.func ≠ f) ∧ (∀ d ∈ t.jobs.finished, d.job.func ≠ f) ∧ (∀ e ∈ t.xlate, e.func ≠ f)
      ∧ (∀ e ∈ s.xlate, e.func ≠ f → e ∈ t.xlate) ∧ (∀ g n, g ≠ f → t.sq g n = s.sq g n)
      ∧ ((∀ j, s.keys.queue.head? = some j → j.func ≠ f) → t.keys.slots = s.keys.slots))
  ∧ (∀ (s : State) (f : Nat), s.isResetting f = true → f ≠ 0 → exec (.functionReset f) s = .next s)
  ∧ (∀ (s : State) (f start : Nat) (x : Fn), assoc s.tenant.resetting f = some start → s.fn f = some x → s.staysEnabled f = true → f ∉ s.tenant.newProf →
    ∃ t : State, exec (.functionResetDone f) s = .next t ∧ t.isResetting f = false ∧ t.fn f = some { x with ranges := [] }
      ∧ (∀ k ∈ t.keys.slots, k ∈ s.keys.slots ∧ (k.slot < x.p.keyBase ∨ x.p.keyBase + x.p.keys ≤ k.slot))
      ∧ (∀ k ∈ s.keys.slots, k.slot < x.p.keyBase ∨ x.p.keyBase + x.p.keys ≤ k.slot → k ∈ t.keys.slots)
      ∧ assoc t.keys.kekFunc f = none ∧ (∀ p ∈ t.host.progs, p.fn ≠ f) ∧ t.get R.TENANT.RESETS_COUNT = min (s.get R.TENANT.RESETS_COUNT + 1) (2 ^ 32 - 1)
      ∧ t.mem.hostA = s.mem.hostA ∧ t.mem.hostB = s.mem.hostB)
  ∧ (∀ (s : State) (f : Nat), (s.fn f).isSome = true → s.isResetting f = false →
    ∃ t : State, exec (.controllerReset f) s = .next t ∧ (∀ n, n ≠ 0 → t.sq f n = none) ∧ (t.sq f 0).isSome = true ∧ (∀ h ∈ t.host.cmds, h.x.fn ≠ f)
      ∧ (∀ g n, g ≠ f → t.sq g n = s.sq g n) ∧ t.keys = s.keys ∧ t.xlate = s.xlate)
  ∧ (∀ (s u : State) (c : Cmd) (slot : Nat) (d img : Bytes) (f : Fn), s.adminReady c.fn = true → s.loadBlocks c.fn = false → s.ownNs c 0x400 = some f → slot < 16 →
    s.imageOk c.fn d = true → s.tableOk f d = true → img = d.take (descN d 40 8) → (s.placeProg c.fn slot img).remap f = some u →
    ∃ t : State, exec (.loadProgram c slot d) s = .next t ∧ t.prog c.fn slot = some ⟨c.fn, slot, img, false⟩ ∧ t.xlate = u.xlate
      ∧ (⟨c.fn, 0, 0, c.cid, 0, 0, 0⟩ : Cqe) ∈ t.host.cqes)
  ∧ (∀ (s : State) (c : Cmd) (slot : Nat) (d : Bytes) (f : Fn), s.adminReady c.fn = true → s.loadBlocks c.fn = false → s.ownNs c 0x400 = some f → slot < 16 →
    s.imageOk c.fn d = true → s.tableOk f d = false →
    ∃ t : State, exec (.loadProgram c slot d) s = .next t ∧ t.host.progs = s.host.progs ∧ (⟨c.fn, 0, 0, c.cid, Nv.table, 0, 0⟩ : Cqe) ∈ t.host.cqes)
  ∧ (∀ (s : State) (c : Cmd) (slot : Nat) (a : Bool) (f : Fn) (p : ProgSlot), s.adminReady c.fn = true → s.ownNs c 0x400 = some f → s.prog c.fn slot = some p →
    ∃ t : State, exec (.programActivation c slot a) s = .next t ∧ t.prog c.fn slot = some { p with active := a } ∧ (⟨c.fn, 0, 0, c.cid, 0, 0, 0⟩ : Cqe) ∈ t.host.cqes)
  ∧ (∀ (s : State) (k : CmdKey) (h : HCmd) (ns : Ns) (f : Fn) (p : ProgSlot) (r : MemRange) (rs : List MemRange) (d : Bytes) (n : Nat), s.hcmd k = some h → h.phase = .ready →
    s.ioNs h.x = some ns → ns.kind = .compute → ns.nsid = 0x400 + k.fn → s.fn k.fn = some f → s.offline = false → s.prog k.fn (h.x.cdw10 % 65536) = some p → p.active = true →
    assoc f.ranges (h.x.cdw10 / 65536) = some (r :: rs) → 2 ≤ h.x.cdw11 → h.x.cdw11 ≤ 4096 → h.x.cdw11 ≤ dptrLen h.x.dptr → h.x.cdw11 ≤ r.len →
    d = s.fromHost k.fn h.x.dptr h.x.cdw11 → n = leNat (d.take 2) → 1 ≤ n → n ≤ (coresOf f.p.cores).length →
    (n ≤ (s.idleCores f).length → descN p.image 16 8 % 2 = 0 → descN p.image 16 8 < 2 ^ 48 →
      ∃ t : State, exec (.executeProgram k) s = .next t ∧ t.hcmd k = some { h with phase := .running } ∧ t.mem = s.mem.write .dram (f.dramBase + r.start) d
        ∧ (∀ (i : Nat) (c : Fin 72), ((s.idleCores f).take n)[i]? = some c.val → t.cores[c] = startedCore s.cores[c] p.image s.pwr.fw.monitor k i n)
        ∧ (∀ c : Fin 72, c.val ∉ (s.idleCores f).take n → t.cores[c] = s.cores[c]))
    ∧ (n ≤ (s.idleCores f).length → descN p.image 16 8 % 2 = 1 ∨ 2 ^ 48 ≤ descN p.image 16 8 → descN p.image 24 8 = 0 →
      ∃ t : State, exec (.executeProgram k) s = .next t ∧ t.hcmd k = some { h with phase := .running } ∧ t.mem = s.mem.write .dram (f.dramBase + r.start) d
        ∧ (∀ c : Fin 72, c.val ∈ (s.idleCores f).take n → t.cores[c].state = .stopped ∧ (t.cores[c].prog.bind (·.ended)) = some none)
        ∧ (∀ c : Fin 72, c.val ∉ (s.idleCores f).take n → t.cores[c] = s.cores[c]))
    ∧ ((s.idleCores f).length < n →
      ∃ (t : State) (cq : Nat), exec (.executeProgram k) s = .next t ∧ t.cores = s.cores ∧ (⟨k.fn, cq, k.sq, k.cid, Nv.held, 0, 0⟩ : Cqe) ∈ t.host.cqes))
  ∧ (∀ (s : State) (fn : Nat) (k : CmdKey) (q : ProgRun) (c : Nat) (w : BitVec 64), s.endedProg fn = some k → (s.hcmd k).isSome = true →
    (∀ x ∈ s.progCores k, x.2.ended ≠ some none) → (c, q) ∈ s.progCores k → (∀ x ∈ s.progCores k, x.2.index = 0 → x = (c, q)) → q.index = 0 → q.ended = some (some w) →
    ∃ (t : State) (cq : Nat), exec (.programCoresEnded fn) s = .next t ∧ (⟨k.fn, cq, k.sq, k.cid, 0, w.toNat % 2 ^ 32, w.toNat / 2 ^ 32⟩ : Cqe) ∈ t.host.cqes
      ∧ t.progCores k = [])
  ∧ (∀ (s u : State) (c : Cmd) (rsid i : Nat) (f : Fn) (rs : List MemRange) (sets : List (Nat × List MemRange)), s.adminReady c.fn = true → s.ownNs c 0x600 = some f →
    rangesOk c.fn rs = true → (∀ r ∈ rs, r.start + r.len ≤ f.p.dram * 2 ^ 20) → ((List.range 16).find? fun i => (assoc f.ranges i).isNone) = some i →
    sets = assocSet f.ranges i rs → (s.modFn c.fn fun g => { g with ranges := sets }).remap { f with ranges := sets } = some u →
    ∃ t : State, exec (.memoryRangeSet c 0 rsid rs) s = .next t ∧ t.fn c.fn = some { f with ranges := sets } ∧ t.xlate = u.xlate
      ∧ (⟨c.fn, 0, 0, c.cid, 0, i, 0⟩ : Cqe) ∈ t.host.cqes)
  ∧ (∀ (s : State) (c : Cmd) (sel : BitVec 4) (rsid : Nat) (f : Fn) (rs : List MemRange), s.adminReady c.fn = true → s.ownNs c 0x600 = some f → sel = 0 ∨ sel = 2 →
    rangesOk c.fn rs = true → (∃ r ∈ rs, f.p.dram * 2 ^ 20 < r.start + r.len) →
    ∃ t : State, exec (.memoryRangeSet c sel rsid rs) s = .next t ∧ t.tenant = s.tenant ∧ t.xlate = s.xlate ∧ (⟨c.fn, 0, 0, c.cid, Nv.noCapacity, 0, 0⟩ : Cqe) ∈ t.host.cqes)
/-- R518. -/
def Obligations.SetTimeStepsOnlyWithoutATake : Prop :=
  (∀ (s : State) (off : Int), 1000 < off.natAbs → s.get R.TAKE.TAKE_STATE_STATE = 0 → 0 ≤ (s.time : Int) + off →
    ((s.discipline off).time : Int) = s.time + off ∧ (s.discipline off).drove.offset = off)
  ∧ (∀ (s : State) (off : Int), off.natAbs ≤ 1000 ∨ s.get R.TAKE.TAKE_STATE_STATE ≠ 0 → 100 ≤ s.time →
    ((s.discipline off).time : Int) - s.time ≤ 100 ∧ -100 ≤ ((s.discipline off).time : Int) - s.time
      ∧ (0 ≤ off → s.time ≤ (s.discipline off).time ∧ ((s.discipline off).time : Int) ≤ s.time + off)
      ∧ (off ≤ 0 → (s.discipline off).time ≤ s.time ∧ (s.time : Int) + off ≤ (s.discipline off).time)
      ∧ (s.discipline off).drove.offset = off)
  ∧ (∀ (s : State) (off : Int), (s.discipline off).take = s.take ∧ (s.discipline off).rtcAt = (s.discipline off).time)

/-- R507-R518, R520, R523. `droveDone` sends what may leave and shows the set in the page. -/
def Obligations.DroveLinksAndPackets : Prop :=
  (∀ (s : State) (p : Port), s.droveOtpRole ≠ 0 → 3 ≤ s.mode → (s.drove.link p).up = false →
    ∃ t : State, exec (.droveLinkUp p) s = .next t ∧ (t.drove.link p).up = true ∧ (t.drove.link p).ident = false ∧ (t.drove.link p).refusal = 0
      ∧ (t.drove.link p).txq = [s.takeRole.identPkt p] ∧ (s.drove.role = 0 → t.drove.role = s.droveOtpRole) ∧ t.drove.link (otherPort p) = linkPump s.time (s.drove.link (otherPort p)).txq (s.drove.link (otherPort p)))
  ∧ (∀ (s : State) (p : Port), (s.drove.link p).up = true →
    ∃ t : State, exec (.droveLinkDown p) s = .next t ∧ (t.drove.link p).up = false ∧ bitAt (t.get (H.STICKY 0xC0)) Ev.DROVE.LINK_DOWN = true
      ∧ (s.get (H.VALID 0xC0) = 0 → t.get (H.CODE 0xC0) = E.DROVE_LINK_DOWN)
      ∧ ((s.drove.link p).open_ = true → s.drove.member.isSome = true → t.drove.line = true))
  ∧ (∀ (s : State) (p : Port) (f : Flit), (s.drove.link p).up = true → (s.drove.link p).retraining = false → f.crcOk = false →
    ∃ t : State, exec (.droveFlitRx p f) s = .next t ∧ (t.drove.link p).nakked = true ∧ (t.drove.link p).rxSeq = (s.drove.link p).rxSeq
      ∧ (t.drove.link p).rxBuf = (s.drove.link p).rxBuf)
  ∧ (∀ (s : State) (p : Port) (f : Flit), (s.drove.link p).up = true → (s.drove.link p).retraining = false → f.crcOk = true → bits f.link.toNat 10 2 = 0 →
    bits f.link.toNat 22 2 ≠ 3 → bits f.link.toNat 48 2 = 0 → bits f.link.toNat 0 10 = ((s.drove.link p).rxSeq + 1) % 1024 →
    ∃ t : State, exec (.droveFlitRx p f) s = .next t ∧ (t.drove.link p).rxSeq = bits f.link.toNat 0 10 ∧ (t.drove.link p).nakked = false
      ∧ (bits f.link.toNat 22 2 ≠ 2 → (t.drove.link p).retraining = false))
  ∧ (∀ (s : State) (p : Port) (f : Flit), (s.drove.link p).up = true → (s.drove.link p).retraining = false → f.crcOk = true → bits f.link.toNat 10 2 ≤ 1 →
    bits f.link.toNat 22 2 = 2 → bits f.link.toNat 48 2 = 0 → (s.drove.link p).replay ≠ [] → ackReplay (bits f.link.toNat 12 10) (s.drove.link p).replay = (s.drove.link p).replay →
    3 ≤ (s.drove.link p).replays →
    ∃ t : State, exec (.droveFlitRx p f) s = .next t ∧ (t.drove.link p).retraining = true)
  ∧ (∀ (s : State) (p : Port), (s.drove.link p).up = true → (s.drove.link p).retraining = false → (s.drove.link p).replay ≠ [] →
    ∃ t : State, exec (.droveReplayTimeout p) s = .next t ∧ (t.drove.link p).replays = (s.drove.link p).replays + 1 ∧ t.time = max s.time ((s.drove.link p).ackFrom + 2000)
      ∧ (t.drove.link p).retraining = decide (3 ≤ (s.drove.link p).replays) ∧ ∃ l, (t.drove.link p).replay = (s.drove.link p).replay ++ l)
  ∧ (∀ (s : State) (q : IdentPkt), (s.drove.link q.h.port).up = true → (s.drove.link q.h.port).refusal = 0 → q.setId.toNat = s.get R.DROVE.SET_ID_ID →
    padTo 16 q.serial ≠ padTo 16 s.serial → s.drove.manages = false →
    ∃ t : State, exec (.ident q) s = .next t ∧ (t.drove.link q.h.port).ident = true ∧ (t.drove.link q.h.port).refusal = 0 ∧ (t.drove.link q.h.port).peer = some q.serial)
  ∧ (∀ (s : State) (q : IdentPkt), (s.drove.link q.h.port).up = true → (s.drove.link q.h.port).refusal = 0 → q.setId.toNat ≠ s.get R.DROVE.SET_ID_ID →
    ∃ t : State, exec (.ident q) s = .next t ∧ (t.drove.link q.h.port).refusal = 1 ∧ (t.drove.link q.h.port).open_ = false
      ∧ bitAt (t.get (H.STICKY 0xC0)) Ev.DROVE.FOREIGN = true ∧ (s.get (H.VALID 0xC0) = 0 → t.get (H.CODE 0xC0) = E.DROVE_FOREIGN))
  ∧ (∀ (s : State) (q : IdentPkt), (s.drove.link q.h.port).up = true → (s.drove.link q.h.port).refusal = 0 → q.setId.toNat = s.get R.DROVE.SET_ID_ID →
    padTo 16 q.serial = padTo 16 s.serial →
    ∃ t : State, exec (.ident q) s = .next t ∧ (t.drove.link q.h.port).refusal = 2 ∧ (s.get (H.VALID 0xC0) = 0 → t.get (H.CODE 0xC0) = E.DROVE_LOOPBACK))
  ∧ (∀ (s : State) (q : FormPkt), s.heeds q.h = true → s.drove.epoch ≤ q.epoch.toNat → s.drove.manages = false → s.drove.member = none → s.drove.held = [] →
    q.topology = 0 → q.nextIndex.toNat < s.configN →
    ∃ t : State, exec (.form q) s = .next t ∧ t.drove.member = some (q.nextIndex.toNat % 32) ∧ t.drove.manager = q.manager.toNat % 32 ∧ t.drove.epoch = q.epoch.toNat
      ∧ t.drove.line = false ∧ (q.h.src = q.manager → t.drove.swapped = isA q.h.port))
  ∧ (∀ (s : State) (q : FormPkt), q.epoch.toNat < s.drove.epoch →
    ∃ t : State, exec (.form q) s = .next t ∧ t.drove.member = s.drove.member ∧ t.drove.manager = s.drove.manager ∧ t.drove.epoch = s.drove.epoch ∧ t.drove.role = s.drove.role)
  ∧ (∀ (s : State) (q : DroveHbPkt), s.heeds q.h = true → s.drove.epoch ≤ q.epoch.toNat → q.h.src.toNat < 32 → s.drove.member ≠ some q.h.src.toNat →
    ∃ (u : State) (x : Member), exec (.droveHeartbeat q) s = .next (u.reQuorum.endTaking.chooseStandby).droveDone ∧ x ∈ u.drove.live ∧ x.idx = q.h.src.toNat
      ∧ x.heard = s.time ∧ x.epoch = q.epoch.toNat ∧ x.role = q.role.toNat ∧ (∀ y ∈ s.drove.live, y.idx ≠ q.h.src.toNat → y ∈ u.drove.live))
  ∧ (∀ (s : State) (q : TimePkt) (delay : Nat) (off : Int), s.heeds q.h = true →
    delay = (if q.echo = 0 then (s.drove.link q.h.port).delay else (s.time - q.echo.toNat - q.hold.toNat) / 2) → off = ((q.dtime.toNat + delay : Nat) : Int) - s.time →
    ∃ u : State, u.time = s.time ∧ (u.drove.link q.h.port).delay = delay ∧ (u.drove.link q.h.port).heard = some (q.dtime.toNat, s.time)
      ∧ u.drove.live = s.drove.live ∧ u.drove.member = s.drove.member ∧ u.take = s.take
      ∧ (s.drove.manages = false → s.drove.member ≠ none → s.drove.quorum = true → s.drove.portTo s.drove.manager = q.h.port →
          exec (.time q) s = .next (u.discipline off).droveDone)
      ∧ (s.drove.manages = true ∨ s.drove.member = none ∨ s.drove.quorum = false ∨ s.drove.portTo s.drove.manager ≠ q.h.port →
          exec (.time q) s = .next u.droveDone))
  ∧ (∀ (s : State) (q : OrderPkt) (r : Bytes), s.heeds q.h = true → s.drove.epoch ≤ q.epoch.toNat → q.h.dst = 0xFF → s.drove.member ≠ none → s.drove.member ≠ some q.h.src.toNat →
    s.drove.quorum = true → s.drove.manages = false → assoc s.drove.answered (q.opId.toNat, q.phase.toNat) = some r →
    ∃ u : State, exec (.order q) s = .next (u.sendReply q.opId.toNat ((r.getD 0 0).toNat, (r.getD 1 0).toNat, r.drop 2)).droveDone ∧ u.drove.armed = s.drove.armed
      ∧ u.drove.answered = s.drove.answered ∧ u.take = s.take ∧ u.media = s.media)
  ∧ (∀ (s u v : State) (q : OrderPkt) (a : Option (Nat × Nat × Bytes)), s.heeds q.h = true → s.drove.epoch ≤ q.epoch.toNat → q.h.dst = 0xFF → s.drove.member ≠ none →
    s.drove.member ≠ some q.h.src.toNat → s.drove.quorum = true → s.drove.manages = false → assoc s.drove.answered (q.opId.toNat, q.phase.toNat) = none →
    u = (s.takePkt q.h 0x44).passOn q.h (fun ttl => orderBytes q.h.src.toNat q.h.dst.toNat ttl q.epoch.toNat q.opId.toNat q.op.toNat q.phase.toNat q.t.toNat q.param) →
    u.actOrder q.opId.toNat q.op.toNat q.phase.toNat q.t.toNat q.param = (a, v) →
    u.take = s.take ∧ u.drove.armed = s.drove.armed ∧ u.drove.answered = s.drove.answered
      ∧ (∀ x, a = some x → exec (.order q) s = .next ((v.answer q.opId.toNat q.phase.toNat x).sendReply q.opId.toNat x).takeOver.droveDone)
      ∧ (a = none → exec (.order q) s = .next v.droveDone))
  ∧ (∀ (s : State) (q : OrderPkt), s.drove.quorum = false →
    ∃ t : State, exec (.order q) s = .next t ∧ t.drove.armed = s.drove.armed ∧ t.drove.answered = s.drove.answered ∧ t.drove.cur = s.drove.cur ∧ t.drove.queue = s.drove.queue ∧ t.take = s.take)
  ∧ (∀ (s : State) (q : ReplyPkt) (op : SetOp) (c : Cmd) (st : Nat), s.heeds q.h = true → s.drove.epoch ≤ q.epoch.toNat → s.forMe q.h = true → s.drove.manages = false →
    s.drove.held.find? (·.tag == q.opId.toNat) = some op → leNat (sliceBytes q.result 41 1) ≠ 1 → s.setCmd q.opId.toNat = some c → st = leNat (sliceBytes q.result 42 2) →
    ∃ t : State, exec (.reply q) s = .next t ∧ (∀ x ∈ t.drove.held, x.tag ≠ q.opId.toNat)
      ∧ (⟨c.fn, 0, 0, c.cid, st, leNat (sliceBytes q.result 0 4), leNat (sliceBytes q.result 4 4)⟩ : Cqe) ∈ t.host.cqes
      ∧ t.mem = (if op.op = 5 ∧ st = 0 then dptrWrite (hostTarget c.fn) c.dptr (snapData q.epoch.toNat (leNat (sliceBytes q.result 8 4)) (leNat (sliceBytes q.result 12 8))
          s.configN op.replies) s.mem else s.mem))
  ∧ (∀ (s : State) (q : ReplyPkt) (x : SetOp), s.heeds q.h = true → s.drove.epoch ≤ q.epoch.toNat → s.forMe q.h = true → s.drove.manages = true →
    q.result.getD 43 0 ≠ 0x46 → s.drove.cur = some x → x.opId = q.opId.toNat → x.sent = true → (∀ r ∈ x.replies, r.idx ≠ q.h.src.toNat) →
    ∃ (u : State) (y : SetOp), exec (.reply q) s = .next u.goOps.droveDone ∧ u.drove.cur = some y
      ∧ y.replies = x.replies ++ [⟨q.h.src.toNat, q.status.toNat, q.reason.toNat, q.result⟩] ∧ u.take = s.take ∧ u.drove.queue = s.drove.queue)
  ∧ (∀ (s : State) (q : MirrorPkt), s.heeds q.h = true → s.drove.epoch ≤ q.epoch.toNat → s.forMe q.h = true →
    ∃ t : State, exec (.mirror q) s = .next t
      ∧ (q.data.getD 0 0 = Config.mirrorVersion → t.drove.setState = q.data ∧ t.drove.mirrorBad = false)
      ∧ (q.data.getD 0 0 ≠ Config.mirrorVersion → t.drove.setState = s.drove.setState ∧ t.drove.mirrorBad = true
          ∧ (s.get (H.VALID 0xC0) = 0 → t.get (H.CODE 0xC0) = E.DROVE_MIRROR_VERSION)))
  ∧ (∀ (s : State) (q : RegReqPkt), s.heeds q.h = true → s.forMe q.h = true →
    ∃ r : RegAnswer × State, r = (s.takePkt q.h 0x47).runReq .setManager q.req
      ∧ exec (.regReq q) s = .next (r.2.setSend (r.2.drove.portTo q.h.src.toNat)
          (regRspBytes r.2.drove.src q.h.src.toNat 31 (rspBytes q.req.tag.toNat r.1))).droveDone)
  ∧ (∀ (s : State) (q : RegRspPkt) (x : SetOp) (c : Cmd), s.heeds q.h = true → s.forMe q.h = true →
    s.drove.held.find? (fun x => x.op == 7 && x.sent && x.t == q.h.src.toNat && (reqOf x.param).tag == q.tag) = some x → s.setCmd x.tag = some c →
    ∃ t : State, exec (.regRsp q) s = .next t ∧ (∀ y ∈ t.drove.held, y.tag ≠ x.tag) ∧ (⟨c.fn, 0, 0, c.cid, 0, 0, 0⟩ : Cqe) ∈ t.host.cqes
      ∧ t.mem = dptrWrite (hostTarget c.fn) c.dptr (answerPkt q.tag.toNat ⟨q.status.toNat, q.err.toNat, q.data.toNat⟩) s.mem)
  ∧ (∀ (s : State), s.drove.member ≠ none → (s.drove.link s.drove.down).open_ = true → (s.drove.link s.drove.down).retraining = false → (s.drove.link s.drove.down).replay.length < 512 →
    ∃ (u : State) (f : TxFlit), exec .droveHeartbeatTx s = .next (u.endQuiesce).droveDone ∧ (u.drove.link s.drove.down).replay = (s.drove.link s.drove.down).replay ++ [f]
      ∧ f.packets = [s.droveHbPkt (if s.drove.line then 31 else s.configN / 2)])
  ∧ (∀ (s : State) (p : Port), (s.drove.link p).open_ = true → (s.drove.link p).retraining = false → (s.drove.link p).replay.length < 512 →
    ∃ (u : State) (f : TxFlit), exec .droveTimeTx s = .next u.droveDone ∧ (u.drove.link p).replay = (s.drove.link p).replay ++ [f] ∧ f.packets = [s.timePkt (s.drove.link p)])
  ∧ (∀ (s : State) (m : Fin 32) (x : Member), s.drove.live.find? (·.idx == m.val) = some x → s.drove.manager ≠ m.val ∨ s.drove.manages = true →
    ∃ u : State, exec (.droveMemberTimeout m) s = .next (u.reQuorum.chooseStandby.endTaking.goOps).droveDone ∧ u.drove.live = s.drove.live.filter (·.idx != m.val)
      ∧ u.time = max s.time (x.heard + 3000000) ∧ u.drove.role = s.drove.role)
  ∧ (∀ (s : State) (m : Fin 32) (x : Member), s.drove.live.find? (·.idx == m.val) = some x → s.drove.manager = m.val → s.drove.manages = false →
    ∃ u v : State, v = u.reQuorum.chooseStandby ∧ u.drove.live = s.drove.live.filter (·.idx != m.val) ∧ u.time = max s.time (x.heard + 3000000)
      ∧ u.get R.DROVE.HB_MISSES_COUNT = min (s.get R.DROVE.HB_MISSES_COUNT + 3) (2 ^ 32 - 1)
      ∧ exec (.droveMemberTimeout m) s = .next ((if v.drove.role = 2 ∧ v.drove.quorum = true ∧ v.drove.mirrorBad = false ∧ v.drove.member ≠ none then v.failover else v).endTaking.goOps).droveDone)
  ∧ (∀ s : State, ∃ w : State, s.failover = w.endTaking ∧ w.drove.role = 1 ∧ w.drove.manager = s.drove.me ∧ w.drove.epoch = (s.drove.epoch + 1) % 2 ^ 32 ∧ w.drove.line = true
      ∧ w.drove.taking = true ∧ w.drove.cur = none ∧ w.drove.queue = [] ∧ w.drove.member = s.drove.member ∧ w.take = s.take)
  ∧ (∀ s : State, s.syncIn = true →
    ∃ t : State, exec (.syncInEdge true) s = .next t ∧ t.drove.syncAt = some t.time ∧ t.take = s.take
      ∧ (1000 < ((s.time + 500000000) / 1000000000 * 1000000000 - s.time : Int).natAbs → s.get R.TAKE.TAKE_STATE_STATE = 0 → t.time % 1000000000 = 0))
  ∧ (∀ (s : State) (t0 : Nat), s.syncIn = true → s.drove.syncAt = some t0 →
    ∃ t : State, exec .syncInLoss s = .next t ∧ t.drove.syncAt = none ∧ t.time = max s.time (t0 + 2000000000) ∧ bitAt (t.get (H.STICKY 0xC0)) Ev.DROVE.TIME_FAULT = true)
  ∧ (∀ (s : State) (t0 : Nat), s.drove.offSince = some t0 → s.drove.faulted = false →
    ∃ t : State, exec .droveTimeFault s = .next t ∧ t.drove.faulted = true ∧ t.time = max s.time (t0 + 1000000000) ∧ bitAt (t.get (H.STICKY 0xC0)) Ev.DROVE.TIME_FAULT = true
      ∧ (s.get (H.VALID 0xC0) = 0 → t.get (H.CODE 0xC0) = E.DROVE_TIME_FAULT))

/-- R516, R519-R524. -/
def Obligations.SetOperationsRun : Prop :=
  (∀ (s : State) (c : Cmd), s.adminReady c.fn = true → isPf c.fn = true →
    ∃ (t : State) (bs : Bytes), exec (.setServiceStatus c) s = .next t ∧ bs.length = 1056 ∧ leNat (bs.take 8) = s.get R.DROVE.SET_ID_ID
      ∧ leNat (sliceBytes bs 8 4) = s.drove.epoch % 2 ^ 32 ∧ t.mem = dptrWrite (hostTarget c.fn) c.dptr bs s.mem ∧ t.drove = s.drove
      ∧ (⟨c.fn, 0, 0, c.cid, 0, 0, 0⟩ : Cqe) ∈ t.host.cqes)
  ∧ (∀ (s : State) (c : Cmd) (tt : BitVec 64) (data : Bytes) (id : BitVec 32) (n v : Nat) (r : Role) (p : Bytes),
    (n, v, r, p) ∈ [(2, tt.toNat, Role.operator, data.drop 4), (3, id.toNat, .operator, []), (4, 0, .operator, []), (6, 0, .installer, []), (8, 0, .installer, [])] →
    s.adminReady c.fn = true → isPf c.fn = true → data.length = 32 →
    (s.holds (.pcie c.fn) r = true →
      ∃ (u : State) (x : SetOp), (n = 2 → exec (.armTake c tt data) s = .next (u.forwardOp x).droveDone) ∧ (n = 3 → exec (.cancel c id) s = .next (u.forwardOp x).droveDone)
        ∧ (n = 4 → exec (.barrier c) s = .next (u.forwardOp x).droveDone) ∧ (n = 6 → exec (.setReset c) s = .next (u.forwardOp x).droveDone)
        ∧ (n = 8 → exec (.handback c) s = .next (u.forwardOp x).droveDone)
        ∧ u.drove.held = s.drove.held ++ [x] ∧ u.host.waiting = s.host.waiting ++ [(c, .setOp x.tag)]
        ∧ x.op = n ∧ x.t = v ∧ x.param = p ∧ x.since = s.time ∧ u.take = s.take ∧ u.drove.cur = s.drove.cur)
    ∧ (s.holds (.pcie c.fn) r = false →
      ∃ t : State, (n = 2 → exec (.armTake c tt data) s = .next t) ∧ (n = 3 → exec (.cancel c id) s = .next t)
        ∧ (n = 4 → exec (.barrier c) s = .next t) ∧ (n = 6 → exec (.setReset c) s = .next t)
        ∧ (n = 8 → exec (.handback c) s = .next t)
        ∧ t.drove = s.drove ∧ (⟨c.fn, 0, 0, c.cid, Nv.role, 0, 0⟩ : Cqe) ∈ t.host.cqes))
  ∧ (∀ (s : State) (c : Cmd), s.adminReady c.fn = true → isPf c.fn = true →
    ∃ (u : State) (x : SetOp), exec (.snapshot c) s = .next (u.forwardOp x).droveDone ∧ u.drove.held = s.drove.held ++ [x]
      ∧ u.host.waiting = s.host.waiting ++ [(c, .setOp x.tag)] ∧ x.op = 5)
  ∧ (∀ (s : State) (c : Cmd) (m : BitVec 8) (p : CtrlReqPkt), s.adminReady c.fn = true → isPf c.fn = true →
    s.meets (.pcie c.fn) (if p.op.toNat % 2 = 1 ∧ reqBad p = false then needOf (rowsAt (p.page.toNat % 512) p.offset.toNat) else .none) = true →
    ∃ (u : State) (x : SetOp), exec (.regAccess c m p) s = .next (u.forwardOp x).droveDone ∧ u.drove.held = s.drove.held ++ [x]
      ∧ u.host.waiting = s.host.waiting ++ [(c, .setOp x.tag)] ∧ x.op = 7 ∧ x.t = m.toNat ∧ x.param = reqBytes p)
  ∧ (∀ (s : State) (x : SetOp), s.drove.quorum = false ∨ s.drove.member = none → s.forwardOp x = s)
  ∧ (∀ (s : State) (x : SetOp) (c : Cmd), x.issuer = s.drove.me → s.setCmd x.tag = some c → (∀ y ∈ s.drove.queue ++ s.drove.cur.toList, ¬ (y.issuer = x.issuer ∧ y.tag = x.tag)) →
    (x.op = 2 → x.t < s.time + 50000000 ∨ s.time + 3600000000000 < x.t →
      (s.offerOp x).drove.queue = s.drove.queue ∧ (⟨c.fn, 0, 0, c.cid, Nv.badField, 0, 0⟩ : Cqe) ∈ (s.offerOp x).host.cqes)
    ∧ (x.op ≠ 2 → s.drove.cur ≠ none → 8 ≤ s.drove.queue.length →
      (s.offerOp x).drove.queue = s.drove.queue ∧ (⟨c.fn, 0, 0, c.cid, Nv.held, 0, 0⟩ : Cqe) ∈ (s.offerOp x).host.cqes
        ∧ (s.get (H.VALID 0xC0) = 0 → (s.offerOp x).get (H.CODE 0xC0) = E.DROVE_BUSY)))
  ∧ (∀ (s : State) (id tt : Nat) (p : Bytes),
    (s.get R.TAKE.TAKE_STATE_STATE ≠ 0 → s.actOrder id 2 0 tt p = (some (1, 0x10, []), s))
    ∧ (∀ rate d cap k, s.get R.TAKE.TAKE_STATE_STATE = 0 → s.admission (openOfParam p) = .grant rate d cap k → grantReason (openOfParam p) rate d = 0 →
      ∃ u : State, s.actOrder id 2 0 tt p = (some (0, 0, []), u) ∧ u.drove.armed = some ⟨id, tt, false⟩ ∧ u.get R.TAKE.TAKE_STATE_STATE = 1 ∧ u.take.req = some (openOfParam p))
    ∧ (∀ why, s.get R.TAKE.TAKE_STATE_STATE = 0 → s.admission (openOfParam p) = .refuse why → s.actOrder id 2 0 tt p = (some (1, why, []), s))
    ∧ (∀ a, s.drove.armed = some a → a.opId = id →
      (∃ u : State, s.actOrder id 2 1 tt p = (some (0, 0, []), u) ∧ u.drove.armed = some { a with committed := true } ∧ u.take = s.take ∧ u.regs = s.regs)
      ∧ (∃ u : State, s.actOrder id 2 2 tt p = (some (0, 0, []), u) ∧ u.drove.armed = none ∧ u.get R.TAKE.TAKE_STATE_STATE = 0 ∧ u.take.req = none))
    ∧ s.actOrder id 5 0 tt p = (some (0, 0, s.snapValues), s))
  ∧ (∀ (s : State) (a : Armed) (p : TakeOpenPkt), s.drove.armed = some a → s.take.req = some p → a.committed = true →
    ∃ u : State, exec .armedStart s = .next (u.grantTake p) ∧ u.time = max s.time a.t ∧ u.drove.armed = none)
  ∧ (∀ (s : State) (a : Armed), s.drove.armed = some a → a.committed = false →
    ∃ t : State, exec .droveStartLost s = .next t ∧ t.drove.armed = none ∧ t.get R.TAKE.TAKE_STATE_STATE = 0 ∧ t.take.req = none ∧ t.time = max s.time (a.t - 10000000)
      ∧ bitAt (t.get (H.STICKY 0xC0)) Ev.DROVE.START_LOST = true ∧ (s.get (H.VALID 0xC0) = 0 → t.get (H.CODE 0xC0) = E.DROVE_START_LOST))
  ∧ (∀ (s : State) (a : Armed), s.drove.armed = some a → a.committed = true → exec .droveStartLost s = .next s)
  ∧ (∀ (s : State) (op : SetOp) (rest : List SetOp) (c : Cmd), s.drove.held = op :: rest → s.drove.quorum = false → s.setCmd op.tag = some c →
    ∃ t : State, exec .setServiceTimeout s = .next t ∧ t.drove.held = rest ∧ t.time = max s.time (op.since + 10000000000) ∧ (⟨c.fn, 0, 0, c.cid, Nv.held, 0, 0⟩ : Cqe) ∈ t.host.cqes)
/-- R530-R540. What a burst's subchannel and rank are is free. -/
def Obligations.DramCommandsRun : Prop :=
  (∀ (s : State) (ch : Fin 4) (d : Int), s.dramUsed ch.val = true →
    ((signedOf 8 (s.get (R.DRAM.DRIFT_ACCUM ch.val)) + d).natAbs ≤ 12 →
      ∃ t : State, exec (.dramDriftCheck ch d) s = .next t
        ∧ signedOf 8 (t.get (R.DRAM.DRIFT_ACCUM ch.val)) = signedOf 8 (s.get (R.DRAM.DRIFT_ACCUM ch.val)) + d
        ∧ (∀ i < 10, t.get (R.DRAM.TRAIN_LANE_WR_DQ ch.val i) = wrapInt 8 ((s.get (R.DRAM.TRAIN_LANE_WR_DQ ch.val i) : Int) + d))
        ∧ t.get (R.DRAM.DRIFT_RETRAINS ch.val) = s.get (R.DRAM.DRIFT_RETRAINS ch.val) ∧ t.dramState ch.val = s.dramState ch.val)
    ∧ (12 < (signedOf 8 (s.get (R.DRAM.DRIFT_ACCUM ch.val)) + d).natAbs →
      ∃ t : State, exec (.dramDriftCheck ch d) s = .next t ∧ t.get (R.DRAM.DRIFT_ACCUM ch.val) = 0
        ∧ t.get (R.DRAM.DRIFT_RETRAINS ch.val) = min (s.get (R.DRAM.DRIFT_RETRAINS ch.val) + 1) (2 ^ 32 - 1)
        ∧ (∀ i < 10, 16 ≤ t.get (R.DRAM.TRAIN_LANE_EYE ch.val i))
        ∧ bitAt (t.get (H.STICKY (dramPage ch.val))) Ev.DRAM.TRAINED = true ∧ t.dramState ch.val = s.dramState ch.val))
  ∧ (∀ (s : State) (ch : Fin 4), s.dramUsed ch.val = false → exec (.dramRefresh ch) s = .next s)
  ∧ (∀ (s : State) (ch : Fin 4) (last ivl n : Nat), s.dramUsed ch.val = true → last = s.dram.refreshed.getD ch.val 0 →
    ivl = (if s.dram.mr4.getD ch.val 0 ≤ 2 then 3900 else 1950) → n = max 1 ((s.time - last) / ivl) →
    ∃ t : State, exec (.dramRefresh ch) s = .next t ∧ t.time = max s.time (last + ivl) ∧ t.regs = s.regs ∧ t.mem = s.mem ∧ t.dram.replays = s.dram.replays ∧ t.dram.ues = s.dram.ues
      ∧ (s.dram.refreshed.length = 4 → t.dram.refreshed.getD ch.val 0 = last + n * ivl ∧ last + n * ivl ≤ t.time)
      ∧ (s.dram.mr4.length = 4 → t.dram.mr4.getD ch.val 0 < 8)
      ∧ (s.dram.retry.length = 4 → (t.dram.retry.getD ch.val []).getLast? = some ⟨.modeRead, last + n * ivl⟩ ∧ (t.dram.retry.getD ch.val []).length ≤ 64
        ∧ ⟨.refresh, last + n * ivl⟩ ∈ t.dram.retry.getD ch.val []))
  ∧ (∀ (s : State) (ch : Fin 4), s.dramUsed ch.val = true →
    ∃ t : State, exec (.dramAlert ch) s = .next (if 8 < (t.dram.replays.getD ch.val []).length then t.retireDram ch.val 2 else t)
      ∧ t.get (R.DRAM.REPLAYS_COUNT ch.val) = min (s.get (R.DRAM.REPLAYS_COUNT ch.val) + 1) (2 ^ 32 - 1)
      ∧ (s.dram.replays.length = 4 → t.dram.replays.getD ch.val [] = s.time :: within s.time 1000000 (s.dram.replays.getD ch.val []))
      ∧ (s.dram.retry.length = 4 → (t.dram.retry.getD ch.val []).map (·.op) = (s.dram.retry.getD ch.val []).map (·.op)
        ∧ ∀ (i : Nat) (x : DramCmd), (s.dram.retry.getD ch.val [])[i]? = some x →
          (t.dram.retry.getD ch.val [])[i]? = some (if x.issued + 50 ≤ s.time then x else { x with issued := s.time }))
      ∧ bitAt (t.get (H.STICKY (dramPage ch.val))) Ev.DRAM.REPLAY = true
      ∧ (s.get (H.VALID (dramPage ch.val)) = 0 → t.get (H.CODE (dramPage ch.val)) = E.DRAM_CA_REPLAY) ∧ t.dramState ch.val = s.dramState ch.val)
  ∧ (∀ (s : State) (ch : Fin 4) (addr : BitVec 64) (kind : BitVec 4), s.dramUsed ch.val = true → kind.toNat < 8 →
    ∃ w v : State, v = w.loseData kind.toNat addr.toNat
      ∧ exec (.dramUncorrectable ch addr kind) s
        = .next (if v.get R.DRAMC.UE_LIMIT_BURSTS < (v.dram.ues.getD ch.val []).length then v.retireDram ch.val 3 else v)
      ∧ w.get (R.DRAM.UNCORRECTED_COUNT ch.val) = min (s.get (R.DRAM.UNCORRECTED_COUNT ch.val) + 1) (2 ^ 32 - 1)
      ∧ w.get (R.DRAM.LAST_UE_ADDR_ADDR ch.val) = addr.toNat ∧ w.get (R.DRAM.LAST_UE_KIND_KIND ch.val) = kind.toNat
      ∧ (s.dram.ues.length = 4 → w.dram.ues.getD ch.val [] = s.time :: within s.time 1000000000 (s.dram.ues.getD ch.val []))
      ∧ bitAt (w.get (H.STICKY (dramPage ch.val))) Ev.DRAM.UNCORRECTABLE = true
      ∧ (s.get (H.VALID (dramPage ch.val)) = 0 → w.get (H.CODE (dramPage ch.val)) = E.DRAM_UNCORRECTABLE)
      ∧ w.take = s.take ∧ w.media = s.media ∧ w.mem = s.mem)
  ∧ (∀ (s : State) (a : Nat), s.loseData 4 a = s ∧ s.loseData 6 a = s ∧ s.loseData 7 a = s ∧ a / 64 ∈ (s.loseData 5 a).mem.poison
    ∧ (∀ w, s.media.wbuf = [w] → s.host.cmds = [] → (s.loseData 2 a).media.wbuf = [] ∧ (w.nsid, w.lba) ∈ (s.loseData 2 a).array.holes)
    ∧ (∀ x f, s.take.slices = [x] → x.status ≠ .lost → s.frame? x.uid = some f →
      ∃ t : State, s.loseData 1 a = t.dispatchSlices.settle ∧ t.take.slices = [{ x with status := .lost }]
        ∧ t.frame? x.uid = some { f with marks := mark f.marks 2 }))
  ∧ (∀ (s : State) (ch : Fin 4) (n : Nat) (last : Bool), s.dramUsed ch.val = true →
    ∃ t : State, exec (.dramScrub ch n last) s = .next t
      ∧ t.get (R.DRAM.CORRECTED_COUNT ch.val) = (if n = 0 then s.get (R.DRAM.CORRECTED_COUNT ch.val) else min (s.get (R.DRAM.CORRECTED_COUNT ch.val) + n) (2 ^ 32 - 1))
      ∧ t.get R.DRAMC.SCRUB_PASSES_COUNT
        = (if last = true then min (s.get R.DRAMC.SCRUB_PASSES_COUNT + 1) (2 ^ 32 - 1) else s.get R.DRAMC.SCRUB_PASSES_COUNT)
      ∧ (n ≠ 0 → bitAt (t.get (H.STICKY (dramPage ch.val))) Ev.DRAM.CORRECTED = true))
  ∧ (∀ (s : State) (c cause : Nat), c < 4 → cause < 8 → s.dramState c = 1 ∨ s.dramState c = 2 ∨ s.dramState c = 3 →
    ∃ u : State, u.dramState c = 5 ∧ u.get (R.DRAM.CH_STATUS_RETIRE_CAUSE c) = cause ∧ u.get (H.RETIRED (dramPage c)) = 1
      ∧ bitAt (u.get R.DRAMC.LIVE_MASK) c = false ∧ bitAt (u.get (H.STICKY (dramPage c))) Ev.DRAM.RETIRED = true
      ∧ (s.get (H.VALID (dramPage c)) = 0 → u.get (H.CODE (dramPage c)) = E.DRAM_CHANNEL_RETIRED)
      ∧ (2 ≤ u.liveDram → s.retireDram c cause = u)
      ∧ (u.liveDram < 2 → ∃ v : State, s.retireDram c cause = v.enterSafe 5 ∧ v.bit R.MEDIA.MEDIA_STATUS_MAP_PAGED = true ∧ v.dramState c = 5))
  ∧ (∀ (s : State) (o : Origin) (ch : Fin 4), s.powered = true → s.reaches o (dramPage ch.val) = true → s.holds o .installer = true →
    ((s.dramState ch.val ≠ 5 ∧ (3 ≤ s.liveDram ∨ (s.dramState ch.val ≠ 2 ∧ s.dramState ch.val ≠ 3)) ∧ ∀ d < 4, d ≠ ch.val → s.dramState d ≠ 5) →
      ∃ t : State, exec (.dramRetire o ch) s = .next (t.retireDram ch.val 4) ∧ t.regs = s.regs)
    ∧ (((s.liveDram < 3 ∧ (s.dramState ch.val = 2 ∨ s.dramState ch.val = 3)) ∨ ∃ d < 4, d ≠ ch.val ∧ s.dramState d = 5) →
      ∃ t : State, exec (.dramRetire o ch) s = .next t ∧ t.dramState ch.val = s.dramState ch.val ∧ t.refusal = some E.DRAM_BUSY))
  ∧ (∀ (s : State) (ch : Fin 4), s.dramState ch.val = 5 →
    ∃ t : State, exec (.dramEvacuationDone ch) s = .next t ∧ t.dramState ch.val = 6 ∧ bitAt (t.get (H.STICKY 0xA4)) Ev.DRAMC.EVACUATED = true)
/-- R545-R558, R563, R566. -/
def Obligations.ModeRequestsAndTransitions : Prop :=
  (∀ (s : State) (o : Origin) (q : PwrReq) (r : Role),
    (q, r) ∈ [(PwrReq.doze, Role.operator), (.fold, .operator), (.warm, .installer), (.safeIn, .installer), (.safeOut, .installer)] →
    s.powered = true → s.reaches o 2 = true → s.holds o r = true →
    (∀ f : Refuser, (s.veto q).1 = some f →
      ∃ t : State, (q = .doze → exec (.modeReqDoze o) s = .next t) ∧ (q = .fold → exec (.modeReqFold o) s = .next t)
        ∧ (q = .warm → exec (.warm o) s = .next t) ∧ (q = .safeIn → exec (.enter o) s = .next t) ∧ (q = .safeOut → exec (.exit o) s = .next t)
        ∧ t.get R.PWR.LAST_OUTCOME_TARGET = q.target ∧ t.get R.PWR.LAST_OUTCOME_OUTCOME = 2
        ∧ t.get R.PWR.LAST_OUTCOME_BLOCK = f.block % 256 ∧ t.get R.PWR.LAST_OUTCOME_INSTANCE = f.inst % 256
        ∧ t.get R.PWR.LAST_FUNC_FUNC = f.func.getD 0 % 512 ∧ t.get R.PWR.LAST_FUNC_IS_FUNC = b2n f.func.isSome
        ∧ t.pwr.history = (histEntry s.time q.target s.mode 2 0 f :: s.pwr.history).take 64
        ∧ t.get R.PWR.REFUSALS_COUNT = min (s.get R.PWR.REFUSALS_COUNT + 1) (2 ^ 32 - 1)
        ∧ (s.get (H.VALID 2) = 0 → t.get (H.CODE 2) = E.PWR_ENTRY_REFUSED)
        ∧ t.mode = s.mode ∧ t.pwr.tran = s.pwr.tran ∧ t.take = s.take ∧ t.media = s.media)
    ∧ ((s.veto q).1 = none → ∀ k, (q, k) ∈ [(PwrReq.doze, TranKind.dozeEntry), (.fold, .foldEntry), (.warm, .warm)] →
      ∃ t u : State, u = (if t.media.formatted then t.drainBuffer.startCkpt else t) ∧ t.pwr.tran = some ⟨k, 2, [], [], 0, false, false, 0⟩
        ∧ t.get R.PWR.LAST_OUTCOME_TARGET = q.target ∧ t.get R.PWR.LAST_OUTCOME_OUTCOME = 0 ∧ t.mode = s.mode ∧ t.take = s.take ∧ t.media = s.media
        ∧ (q = .doze → exec (.modeReqDoze o) s = .next u) ∧ (q = .fold → exec (.modeReqFold o) s = .next u) ∧ (q = .warm → exec (.warm o) s = .next u)))
  ∧ (∀ (s : State) (q : PwrReq), q = .doze ∨ q = .fold ∨ q = .warm → s.get R.TAKE.TAKE_STATE_STATE ≠ 0 → s.pwr.tran = none → s.take.pfPhase = 0 → s.reqFits q = true →
    (s.veto q).1 = some ⟨0x11, 0, none⟩)
  ∧ (∀ (s : State) (q : PwrReq), s.pwr.tran ≠ none ∨ s.reqFits q = false → (s.veto q).1 = some ⟨3, 0, none⟩)
  ∧ (∀ s : State, s.get R.PWR.DOZE_AFTER_S ≠ 0 → s.mode = 3 →
    ∃ u : State, u = { s with time := max s.time (s.pwr.idleSince + s.get R.PWR.DOZE_AFTER_S * 1000000000) }
      ∧ ((u.veto .doze).1 = none →
        ∃ v : State, v.pwr.tran = some ⟨.dozeEntry, 2, [], [], 0, false, false, 0⟩
          ∧ exec .dozeAfterExpiry s = .next (if v.media.formatted then v.drainBuffer.startCkpt else v))
      ∧ (∀ f, (u.veto .doze).1 = some f → ∃ t : State, exec .dozeAfterExpiry s = .next t ∧ t.mode = 3 ∧ t.pwr.tran = s.pwr.tran
        ∧ t.get R.PWR.LAST_OUTCOME_OUTCOME = 2 ∧ t.get R.PWR.LAST_OUTCOME_BLOCK = f.block % 256))
  ∧ (∀ (s : State) (o : Origin), s.powered = true → s.reaches o 2 = true → s.holds o .installer = true →
    ((s.veto .safeIn).1 = none → ∃ t : State, exec (.enter o) s = .next (t.enterSafe 7).settle ∧ t.get R.PWR.LAST_OUTCOME_OUTCOME = 1 ∧ t.get R.PWR.LAST_OUTCOME_TARGET = 7 ∧ t.mode = s.mode)
    ∧ ((s.veto .safeOut).1 = none → (∀ b < 7, bitAt s.causesLeft b = false) →
      ∃ t : State, exec (.exit o) s = .next t ∧ t.get R.PWR.SAFE_CAUSE_CAUSE = 0 ∧ t.get R.PWR.LAST_OUTCOME_OUTCOME = 1
        ∧ (s.mode = 7 → t.mode ≠ 7 ∧ 3 ≤ t.mode ∧ bitAt (t.get (H.STICKY 2)) Ev.PWR.SAFE_EXITED = true))
    ∧ (∀ b f, (s.veto .safeOut).1 = none → b < 7 → bitAt s.causesLeft b = true → (∀ a < b, bitAt s.causesLeft a = false) → causeBlock b = some f →
      ∃ t : State, exec (.exit o) s = .next t ∧ t.get R.PWR.SAFE_CAUSE_CAUSE = s.get R.PWR.SAFE_CAUSE_CAUSE ∧ t.mode = s.mode
        ∧ t.get R.PWR.LAST_OUTCOME_OUTCOME = 2 ∧ t.get R.PWR.LAST_OUTCOME_BLOCK = f.block))
  ∧ (∀ s : State, s.mode = 3 ∨ s.mode = 4 ∨ s.mode = 5 ∨ s.mode = 6 → ∀ b, 2 ≤ b → b < 8 →
    ∃ t : State, s.enterSafe b = t ∧ t.mode = 7 ∧ bitAt (t.get R.PWR.SAFE_CAUSE_CAUSE) b = true ∧ bitAt (t.get (H.STICKY 2)) Ev.PWR.SAFE_ENTERED = true)
  ∧ (∀ (s : State) (x : Tran), s.pwr.tran = some x → x.phase = 2 →
    s.media.formatted = false ∨ (s.drained = true ∧ s.bit R.MEDIA.MEDIA_STATUS_CKPT_BUSY = false ∧ (s.offline = true ∨ s.covered = true)) →
    (x.kind = .dozeEntry →
      ∃ t : State, t.pwr.tran = some { x with phase := 4, steps := s.dozeSteps } ∧ t.get R.CLK.DOMAINS_RUNNING = 0x10 ∧ t.get R.DROVE.LINK_A_UP = 0 ∧ t.get R.DROVE.LINK_B_UP = 0
        ∧ t.gate.mayTrain = false ∧ (∀ c : Fin 72, t.cores[c].state ≠ .running ∧ t.cores[c].state ≠ .waiting) ∧ (∀ d < 4, t.dramState d ≠ 2)
        ∧ exec .dozeDrainDone s = .next (if s.dozeSteps = [] then t.dozeEntered else t))
    ∧ (x.kind = .foldEntry → ∃ t : State, exec .dozeDrainDone s = .next (t.enterFold true false) ∧ t.get R.PWR.LAST_OUTCOME_OUTCOME = 1 ∧ t.pwr = s.pwr)
    ∧ (x.kind = .warm → ∃ t : State, exec .dozeDrainDone s = .next (t.warmReset 3 true) ∧ t.get R.PWR.LAST_OUTCOME_OUTCOME = 1 ∧ t.pwr = s.pwr))
  ∧ (∀ (s : State) (x : Tran), s.pwr.tran = some x → x.phase = 2 → x.kind ≠ .dozeExit → s.media.formatted = true → s.drained = true →
    s.bit R.MEDIA.MEDIA_STATUS_CKPT_BUSY = false → s.offline = false → s.covered = false → exec .dozeDrainDone s = .next s.startCkpt)
  ∧ (∀ s : State, s.mode ≠ 1 →
    ∃ t : State, s.dozeEntered = (if s.pwr.wakes = 0 then t else t.startDozeExit) ∧ t.mode = 1 ∧ t.pwr.tran = none ∧ t.get R.PWR.LAST_OUTCOME_OUTCOME = 1
      ∧ t.pwr.wakes = s.pwr.wakes)
  ∧ (∀ (s : State) (slot : Fin 8) (x : Tran) (v : VStep) (rest : List VStep), s.pwr.tran = some x → x.steps = v :: rest → v.slot = slot.val → x.retryAt = 0 →
    (∃ (t : State) (y : Tran), exec (.vregStepAck slot) s = .next (if rest = [] then t.stepsDone y else t)
      ∧ y = { x with steps := rest, attempts := 0, doneSteps := if x.reversing then x.doneSteps else v :: x.doneSteps }
      ∧ t.pwr.tran = some y ∧ bitAt (t.get R.VREG.LINK_STATUS_FAULTED) slot.val = false)
    ∧ (x.attempts < 2 →
      ∃ t : State, exec (.vregStepTimeout slot) s = .next t ∧ t.pwr.tran = some { x with attempts := x.attempts + 1 }
        ∧ t.get R.VREG.NO_ACK_COUNT_COUNT = min (s.get R.VREG.NO_ACK_COUNT_COUNT + 1) (2 ^ 32 - 1))
    ∧ (2 ≤ x.attempts →
      ∃ t : State, exec (.vregStepTimeout slot) s = .next (t.tranFailed x slot.val) ∧ t.pwr = s.pwr
        ∧ t.get R.VREG.NO_ACK_COUNT_COUNT = min (s.get R.VREG.NO_ACK_COUNT_COUNT + 1) (2 ^ 32 - 1)))
  ∧ (∀ (s : State) (x : Tran) (n : Nat), n < 8 →
    (x.kind = .dozeEntry → x.reversing = false →
      ∃ (u : State) (y : Tran), s.tranFailed x n = (if y.steps = [] then u.stepsDone y else u) ∧ u.pwr.tran = some y ∧ y.reversing = true
        ∧ y.steps = stepsBack (fun m => s.get (R.VREG.VOUT_SET_MV m)) x.doneSteps ∧ u.mode = s.mode ∧ u.get R.PWR.LAST_OUTCOME_OUTCOME = 3
        ∧ u.get R.PWR.LAST_OUTCOME_BLOCK = 4 ∧ u.get R.PWR.LAST_OUTCOME_INSTANCE = n
        ∧ u.pwr.history = (histEntry s.time 1 s.mode 3 4 ⟨4, n, none⟩ :: s.pwr.history).take 64 ∧ bitAt (u.get R.VREG.LINK_STATUS_FAULTED) n = true
        ∧ (s.get (H.VALID 3) = 0 → u.get (H.CODE 3) = E.VREG_NO_ACK ∧ u.get (H.INFO 3) = n))
    ∧ (x.kind = .dozeExit → x.retried = false →
      ∃ t : State, s.tranFailed x n = t ∧ t.pwr.tran = some { x with attempts := 0, retried := true, retryAt := s.time + 10000000 }
        ∧ bitAt (t.get R.VREG.LINK_STATUS_FAULTED) n = true)
    ∧ (x.kind = .dozeExit → x.retried = true →
      ∃ t : State, s.tranFailed x n = t.enterFold true true ∧ bitAt (t.get R.VREG.LINK_STATUS_FAULTED) n = true ∧ t.pwr = s.pwr))
  ∧ (∀ (s : State) (slot : Fin 8) (v : VStep) (rest : List VStep), s.pwr.tran = none → s.pwr.setSteps = v :: rest → v.slot = slot.val →
    (∃ t : State, exec (.vregStepAck slot) s = .next t ∧ t.pwr.setSteps = rest ∧ bitAt (t.get R.VREG.LINK_STATUS_FAULTED) slot.val = false)
    ∧ (s.pwr.setTries < 2 → ∃ t : State, exec (.vregStepTimeout slot) s = .next t ∧ t.pwr.setSteps = s.pwr.setSteps ∧ t.pwr.setTries = s.pwr.setTries + 1)
    ∧ (2 ≤ s.pwr.setTries → ∃ t : State, exec (.vregStepTimeout slot) s = .next t ∧ (∀ w ∈ t.pwr.setSteps, w.slot ≠ slot.val)
      ∧ bitAt (t.get R.VREG.LINK_STATUS_FAULTED) slot.val = true))
  ∧ (∀ (s : State) (src : Fin 6),
    (s.mode = 0 → src.val ≤ 2 → s.pwr.residenceOver = true → s.pwr.pfHigh = true → s.pwr.mainOk = true → s.pwr.railsOff = false → s.pwr.dead = false →
      ∃ t : State, exec (.wakeSource src) s = .next (t.coldReset 2) ∧ t.pwr.wakes = setBit s.pwr.wakes src.val true ∧ t.regs = s.regs)
    ∧ (s.mode = 0 → src.val ≤ 2 → s.pwr.residenceOver = false →
      ∃ t : State, exec (.wakeSource src) s = .next t ∧ t.pwr.wakes = setBit s.pwr.wakes src.val true ∧ t.mode = 0)
    ∧ (s.mode = 1 → s.pwr.tran = none →
      ∃ t : State, exec (.wakeSource src) s = .next t.startDozeExit ∧ t.pwr.wakes = setBit s.pwr.wakes src.val true ∧ t.regs = s.regs)
    ∧ (∀ x, s.mode ≠ 0 → s.pwr.tran = some x → x.kind = .dozeEntry → x.reversing = false →
      (x.phase = 2 → ∃ t : State, exec (.wakeSource src) s = .next t ∧ t.pwr.tran = none ∧ t.mode = s.mode ∧ t.get R.PWR.LAST_OUTCOME_OUTCOME = 3
        ∧ t.get R.PWR.LAST_OUTCOME_BLOCK = (wakeBlock src.val).block)
      ∧ (x.phase = 4 → ∃ t : State, exec (.wakeSource src) s = .next t ∧ t.pwr.tran = some x ∧ t.pwr.wakes = setBit s.pwr.wakes src.val true)))
  ∧ (∀ s : State, ∃ t : State, s.startDozeExit = t ∧ t.get R.PWR.WAKE_CAUSE_SOURCES = s.pwr.wakes % 64
    ∧ (s.raiseSteps = [] → t.get R.CLK.DOMAINS_RUNNING = 0x1F ∧ t.pwr.tran = some ⟨.dozeExit, 4, [], [], 0, false, false, 0⟩)
    ∧ (s.raiseSteps ≠ [] → t.pwr.tran = some ⟨.dozeExit, 2, s.raiseSteps, [], 0, false, false, 0⟩))
  ∧ (∀ (s : State) (x : Tran), s.pwr.tran = some x → x.kind = .dozeExit → x.phase = 4 →
    ∃ t : State, exec (.dozeRetrainDone []) s = .next t.settle.follow ∧ t.pwr.tran = none ∧ t.pwr.wakes = 0 ∧ (s.mode = 1 → t.mode = 3) ∧ t.gate.mayTrain = true
      ∧ ∀ d < 4, t.dramState d ≠ 3)
  ∧ (∀ (s : State) (x : Tran) (bad : List (Nat × Option Nat)), s.pwr.tran = some x → x.kind = .dozeExit → x.phase = 4 →
    ∃ t : State, exec (.dozeRetrainDone bad) s = .next t.settle.follow ∧ t.pwr.tran = none)
  ∧ (∀ (s : State) (c : Nat), s.chActive c = true →
    ∃ t : State, s.recheck c none = t ∧ s.recheck c (some none) = t.trained c ∧ (∀ n, s.recheck c (some (some n)) = t.trainFail c n)
      ∧ t.regs = s.regs ∧ t.media = s.media)
  ∧ (∀ (s : State) (c : Nat) (r : Option (Option Nat)), s.chActive c = false → s.recheck c r = s)
  ∧ (∀ (s : State) (x : Tran), s.pwr.tran = some x → x.retryAt ≠ 0 →
    ∃ t : State, exec .dozeExitRetry s = .next t ∧ t.time = max s.time x.retryAt ∧ t.pwr.tran = some { x with retryAt := 0, attempts := 0 })
  ∧ (∀ s : State, s.mode = 0 → s.pwr.residenceOver = false →
    ∃ t : State, t.time = max s.time (s.pwr.modeSince + 100000000) ∧ t.pwr.residenceOver = true ∧ t.pwr.wakes = s.pwr.wakes
      ∧ (s.pwr.wakes = 0 → exec .foldResidenceEnd s = .next t)
      ∧ (s.pwr.wakes ≠ 0 → s.pwr.mainOk = true → s.pwr.pfHigh = true → s.pwr.railsOff = false → s.pwr.dead = false →
        exec .foldResidenceEnd s = .next (t.coldReset 2)))
  ∧ (∀ s : State, s.mode = 0 → s.pwr.railsOff = true → s.pwr.dead = false →
    ∃ t : State, exec .railsOffEnd s = .next t ∧ t.mode = 2 ∧ t.get R.PWR.RESET_CAUSE_CAUSE = 6 ∧ t.pwr.bootPhase = 1
      ∧ (s.get (H.VALID 2) = 0 → t.get (H.CODE 2) = E.PWR_WAKE_FAIL)
      ∧ t.pwr.railsOff = false)
  ∧ (∀ (s : State) (o : Origin), s.powered = true → s.reaches o 2 = true →
    ∃ t : State, exec (.kick o) s = .next t ∧ t.pwr = (if o = .firmware then { s.pwr with kickAt := s.time } else s.pwr) ∧ t.regs = s.regs)
  ∧ (∀ (s : State) (rs : List VregReading), 2 ≤ s.mode → exec (.vregTelemetryPoll rs) s = .next (rs.foldl State.slotReading s))
  ∧ (∀ (s : State) (r : VregReading), r.slot < 8 → bitAt (s.get R.VREG.LINK_STATUS_PRESENT) r.slot = true → bitAt (s.get R.VREG.LINK_STATUS_UNSUPPORTED) r.slot = false →
    (r.ack = false → (s.slotReading r).get R.VREG.NO_ACK_COUNT_COUNT = min (s.get R.VREG.NO_ACK_COUNT_COUNT + 1) (2 ^ 32 - 1))
    ∧ (r.ack = true → r.pecOk = false → (s.slotReading r).get R.VREG.PEC_ERRORS_COUNT = min (s.get R.VREG.PEC_ERRORS_COUNT + 1) (2 ^ 32 - 1))
    ∧ (r.ack = true → r.pecOk = true → s.mode = 2 → r.linear = false →
      bitAt ((s.slotReading r).get R.VREG.LINK_STATUS_UNSUPPORTED) r.slot = true
        ∧ (s.get (H.VALID 3) = 0 → (s.slotReading r).get (H.CODE 3) = E.VREG_UNSUPPORTED))
    ∧ (r.ack = true → r.pecOk = true → s.mode ≠ 2 ∨ r.linear = true →
      (s.slotReading r).get (R.VREG.VOUT_MEAS_MV r.slot) = r.mv.toNat ∧ (s.slotReading r).get (R.VREG.TELEM_IOUT r.slot) = r.iout.toNat
        ∧ (s.slotReading r).get (R.VREG.TELEM_POUT r.slot) = r.pout.toNat
        ∧ (s.get (R.SHARE.OWNER_BLOCK 5) = 0x0B → r.status ≠ 0 → bitAt ((s.slotReading r).get (H.STICKY 3)) Ev.VREG.FAULT = true)))
  ∧ (∀ (s : State) (st : List (BitVec 16)), 2 ≤ s.mode → s.get (R.SHARE.OWNER_BLOCK 5) = 3 →
    ∃ t : State, exec (.pmbAlert st) s = .next t ∧ t.mode = s.mode ∧ t.pwr = s.pwr
      ∧ (∀ n < 8, bitAt (s.get R.VREG.LINK_STATUS_PRESENT) n = true → bitAt (s.get R.VREG.LINK_STATUS_UNSUPPORTED) n = false → st.getD n 0 ≠ 0 →
        bitAt (t.get (H.STICKY 3)) Ev.VREG.FAULT = true))
  ∧ (∀ (s : State) (o : Origin) (slot : Fin 8) (mv : BitVec 16), s.powered = true → s.reaches o 3 = true → s.holds o .installer = true →
    (s.setPointOk slot.val mv.toNat = false →
      ∃ t : State, exec (.setMv o slot mv) s = .next t ∧ t.refusal = some 0x0401 ∧ t.get (R.VREG.VOUT_SET_MV slot.val) = s.get (R.VREG.VOUT_SET_MV slot.val))
    ∧ (s.setPointOk slot.val mv.toNat = true → s.setPointBusy slot.val mv.toNat = true →
      ∃ t : State, exec (.setMv o slot mv) s = .next t ∧ t.refusal = some E.VREG_BUSY ∧ t.get (R.VREG.VOUT_SET_MV slot.val) = s.get (R.VREG.VOUT_SET_MV slot.val))
    ∧ (s.setPointOk slot.val mv.toNat = true → s.setPointBusy slot.val mv.toNat = false → s.get (R.VREG.SLOT_CFG_RAIL slot.val) ≤ 2 → s.pwr.setSteps = [] →
      ∃ t : State, exec (.setMv o slot mv) s = .next t ∧ t.get (R.VREG.VOUT_SET_MV slot.val) = mv.toNat
        ∧ t.pwr.setSteps = stepsTo slot.val 64 (s.get (R.VREG.VOUT_SET_MV slot.val)) mv.toNat))
/-- R104-R106, R275, R528-R531, R545-R548, R559-R571, R631-R632. -/
def Obligations.PowerLossResetsAndBoot : Prop :=
  (∀ (s : State) (n : Nat), n < 2000 → exec (.pwrFailN n) s = .next s)
  ∧ (∀ (s : State) (n : Nat), 2000 ≤ n → s.pwr.dead = false → s.take.pfPhase = 0 →
    ∃ t : State, t.pwr = { s.pwr with pfHigh := false } ∧ t.regs = s.regs ∧ t.take = s.take
      ∧ (s.mode = 0 → exec (.pwrFailN n) s = .next t) ∧ (s.mode = 1 → exec (.pwrFailN n) s = .next (t.enterFold true false))
      ∧ (2 ≤ s.mode → s.pwr.bootPhase ≠ 0 → exec (.pwrFailN n) s = .next (t.enterFold false false))
      ∧ (2 ≤ s.mode → s.pwr.bootPhase = 0 → exec (.pwrFailN n) s = .next t.powerFailure.follow))
  ∧ (∀ (s : State) (c : Contract), s.take.c = some c → s.takeLive = true →
    ∃ t : State, s.powerFailure = t ∧ t.get R.TAKE.TAKE_STATE_STATE = 5 ∧ t.get R.TAKE.TAKE_STATE_CLOSE_CAUSE = 8 ∧ t.take.pfPhase = 1 ∧ t.pwr.pfBegun = true
      ∧ t.pwr.tran = none ∧ t.get R.GATE.CREDIT_STATE_HELD_PWRFAIL = 1 ∧ t.take.c = some c ∧ t.take.frames = s.take.frames
      ∧ bitAt (t.get (H.STICKY 0x11)) Ev.TAKE.PWRFAIL = true ∧ (s.get (H.VALID 0x11) = 0 → t.get (H.CODE 0x11) = E.TAKE_POWER_FAIL))
  ∧ (∀ s : State, s.take.pfPhase = 1 →
    ∃ t : State, exec .powerfailDrainEnd s = .next t ∧ t.take.pfPhase = 2)
  ∧ (∀ (s : State) (c : Contract), s.take.c = some c → s.take.pfPhase = 2 → s.take.frames = [] →
    ∃ t : State, t.take.pfPhase = 3 ∧ t.take.c = some c ∧ t.take.trailer = s.take.trailer ∧ t.take.noTrailer = s.take.noTrailer
      ∧ exec .powerfailFlushDone s
        = .next (if s.take.noTrailer = true ∨ s.take.trailer ≠ none then t else (t.setTake fun x => { x with reason := 5 }).placeTrailer c 5))
  ∧ (∀ (s : State) (c : Contract), s.take.c = some c → s.take.pfPhase = 3 → s.takeDone = true →
    ∃ t : State, exec .powerfailCloseDone s = .next t.follow.lastPhases ∧ t.take.c = none
      ∧ t.get R.TAKE.TAKE_STATE_STATE = (if s.pwr.pfBegun = true then 5 else 0))
  ∧ (∀ s : State, s.media.formatted = false → ∃ t : State, s.lastPhases = t.enterFold true false ∧ t.pwr.pfBegun = false ∧ t.regs = s.regs)
  ∧ (∀ (s : State) (clean off : Bool), s.mode ≠ 0 →
    ∃ t : State, s.enterFold clean off = t ∧ t.mode = 0 ∧ t.get R.PWR.MODE_PREV = s.mode % 8 ∧ t.take.c = none ∧ t.keys.kekMedia = none ∧ t.keys.slots = []
      ∧ t.trust.sessions = [] ∧ t.trust.otp = s.trust.otp ∧ t.pwr.tran = none ∧ t.pwr.bootPhase = 0 ∧ t.pwr.railsOff = off ∧ t.pwr.residenceOver = false ∧ t.pwr.wakes = 0
      ∧ t.pwr.cleanStop = (clean || s.pwr.cleanStop) ∧ t.nand.flash = s.nand.flash ∧ t.media.formatted = s.media.formatted)
  ∧ (∀ s : State, s.mode ≠ 0 →
    ∃ t : State, exec .powerCut s = .next t ∧ t.mode = 0 ∧ t.pwr.dead = true ∧ t.take.c = none ∧ t.keys.kekMedia = none ∧ t.trust.sessions = []
      ∧ t.trust.otp = s.trust.otp ∧ t.nand.flash = s.nand.flash ∧ t.pwr.cleanStop = s.pwr.cleanStop)
  ∧ (∀ (s : State) (cause : Nat) (clean : Bool),
    ∃ t : State, s.warmReset cause clean = t ∧ t.mode = 2 ∧ t.get R.PWR.MODE_PREV = s.mode % 8 ∧ t.get R.PWR.RESET_CAUSE_CAUSE = cause % 16 ∧ t.pwr.bootPhase = 1
      ∧ t.take.c = none ∧ t.get R.TAKE.TAKE_STATE_STATE = 0 ∧ t.keys.kekMedia = none ∧ t.trust.sessions = [] ∧ t.trust.otp = s.trust.otp
      ∧ t.trust.instGen = s.trust.instGen ∧ t.get R.ROLE.IDLE_S_S = s.get R.ROLE.IDLE_S_S ∧ t.nand.flash = s.nand.flash ∧ t.pending = s.pending)
  ∧ (∀ (s : State) (cause : Nat), s.mode ≠ 0 →
    ∃ t : State, s.coldReset cause = t ∧ t.mode = 2 ∧ t.get R.PWR.RESET_CAUSE_CAUSE = cause % 16 ∧ t.pwr.bootPhase = 1 ∧ t.take.c = none ∧ t.keys.kekMedia = none
      ∧ t.trust.sessions = [] ∧ t.trust.otp = s.trust.otp ∧ t.trust.instGen = s.newestInst ∧ t.trust.makerGen = s.newestMaker
      ∧ t.get R.ROLE.IDLE_S_S = 600 ∧ t.nand.flash = s.nand.flash ∧ t.pwr.colds = s.pwr.colds + 1 ∧ t.get R.RTC.STATUS_OSC_FAIL = 0
      ∧ t.keys.alarmed = false)
  ∧ (∀ s : State, exec (.coldReset 0) s = .next (s.coldReset 0) ∧ exec (.coldReset 1) s = .next (s.coldReset 1)
    ∧ (s.mode = 0 → s.pwr.railsOff = false → s.pwr.dead = false → exec (.coldReset 2) s = .next (s.coldReset 2)))
  ∧ (∀ s : State, 2 ≤ s.mode → s.pwr.fw.running ≠ none → s.handing = false →
    ∃ t : State, exec .pwrWatchdog s = .next t ∧ t.mode = 2 ∧ t.get R.PWR.RESET_CAUSE_CAUSE = 4 ∧ t.get (H.CODE 2) = E.PWR_WATCHDOG ∧ t.pwr.bootPhase = 1 ∧ t.take.c = none)
  ∧ (∀ s : State, 2 ≤ s.mode → s.pwr.fw.running = none ∨ s.handing = true → exec .pwrWatchdog s = .next s)
  ∧ (∀ s : State, s.mode ≠ 0 →
    ∃ t : State, exec .clkLockLost s = .next t ∧ t.mode = 2 ∧ t.get R.PWR.RESET_CAUSE_CAUSE = 5 ∧ t.get (H.CODE 1) = E.CLK_LOCK_LOST ∧ t.keysGone
      ∧ t.get R.CLK.ROOT_STATUS_LOCK_LOSSES = min (s.get R.CLK.ROOT_STATUS_LOCK_LOSSES + 1) (2 ^ 16 - 1) ∧ t.pwr.bootPhase = 1)
  ∧ (∀ (s : State) (k : Fin 4), s.get (R.RTC.ALARM_CTRL_EN k.val) ≠ 0 → s.get (R.RTC.ALARM_CTRL_FIRED k.val) ≠ 1 → s.pwr.dead = false →
    s.get (R.RTC.ALARM_TIME_TIME k.val) % 2 ^ 63 ≤ s.rtcTicks →
    ∃ t : State, exec (.rtcAlarmFire k) s = .next (if s.get (R.RTC.ALARM_CTRL_WAKE k.val) = 1 then t.wakeUp 0 else t) ∧ t.get (R.RTC.ALARM_CTRL_FIRED k.val) = 1
      ∧ bitAt (t.get (H.STICKY 4)) k.val = true ∧ t.time = s.time)
  ∧ (∀ s : State, s.get R.RTC.STATUS_OSC_FAIL ≠ 1 → s.pwr.dead = false →
    ∃ t : State, exec .rtcOscFail s = .next t ∧ t.get R.RTC.STATUS_OSC_FAIL = 1 ∧ t.get R.RTC.STATUS_VALID = 0 ∧ t.rtcTicks = s.rtcTicks
      ∧ (s.get (H.VALID 4) = 0 → t.get (H.CODE 4) = E.RTC_OSC_FAIL))
  ∧ (∀ (s : State) (o : Origin), s.powered = true → s.reaches o 4 = true → s.holds o .operator = true →
    ∃ t : State, exec (.rtcLoad o) s = .next t ∧ t.rtcValue = s.get R.RTC.SET_TIME % 2 ^ 63 ∧ t.get R.RTC.STATUS_VALID = 1)
  ∧ (∀ (s : State) (tj : Int) (sensor : BitVec 4), s.mode ≠ 0 →
    ∃ t : State, exec (.thermalSample tj sensor) s = .next ((t.thermalAlarm 2 (decide (500 < tj))).thermalAlarm 3 (decide (tj < -200))).tryPhase2
      ∧ t.get R.DEV.TEMP_TJ = wrapInt 12 tj ∧ t.get R.DEV.TEMP_SENSOR = sensor.toNat ∧ t.pwr.tj = tj
      ∧ t.get R.DEV.THERMAL_STATUS_STAGE = thermalStage (s.get R.DEV.THERMAL_STATUS_STAGE) (s.get R.DEV.THERMAL_CTRL_THROTTLE_C) tj
      ∧ (440 ≤ tj → s.get R.DEV.THERMAL_STATUS_STAGE ≤ 1 → t.get R.DEV.THERMAL_STATUS_STAGE = 2
        ∧ (∀ c : Fin 72, 8 ≤ c.val → t.cores[c].state ≠ .running) ∧ bitAt (t.get (H.STICKY 0)) Ev.DEV.HIGH = true))
  ∧ (∀ (s : State) (a : Nat), s.pwr.hotSince = some a → 2 ≤ s.mode → s.pwr.bootPhase = 0 → s.take.pfPhase = 0 →
    ∃ t : State, exec .devThermalShutdown s = .next (if t.take.c.isSome then t.setTake fun x => { x with pfPhase := 2 } else t.lastPhases)
      ∧ t.get R.DEV.THERMAL_STATUS_STAGE = 3 ∧ t.pwr.thermal = true ∧ t.pwr.tran = none ∧ (s.get (H.VALID 0) = 0 → t.get (H.CODE 0) = E.DEV_THERMAL_SHUTDOWN))
  ∧ (∀ (s : State) (a : Nat), s.pwr.serveAt = some a → 3 ≤ s.mode →
    ∃ t : State, exec .serveActivityExpiry s = .next t ∧ t.time = max s.time (a + 100000000) ∧ t.take = s.take
      ∧ t.mode = (if s.mode = 7 then 7 else if s.get R.TAKE.TAKE_STATE_STATE ≠ 0 then 4 else 3))
  ∧ (∀ (s : State) (hz : BitVec 32), s.pwr.bootPhase = 1 → s.pwr.locked = false →
    ∃ t : State, exec (.pllLocked hz) s = .next t.tryPhase2 ∧ t.get R.CLK.ROOT_STATUS_LOCKED = 1 ∧ t.get R.CLK.REF_FREQ_HZ = hz.toNat ∧ t.pwr.locked = true ∧ t.pwr.bootPhase = 1)
  ∧ (∀ s : State, s.pwr.bootPhase = 1 → s.pwr.locked = true → s.pwr.thermal = false →
    ∃ t : State, s.tryPhase2 = t ∧ t.pwr.bootPhase = 2 ∧ (∀ c < 4, s.dramState c = 0 → t.dramState c = 1)
      ∧ (∀ c < 32, s.get (R.NAND.CH_STATUS_STATE c) = 0 → t.get (R.NAND.CH_STATUS_STATE c) = 1 ∧ t.get (R.NAND.CH_STATUS_PWR_EN c) = 1))
  ∧ (∀ (s : State) (r : DramTraining), s.pwr.bootPhase = 2 → s.pwr.held = .no → (∀ c < 32, s.get (R.NAND.CH_STATUS_STATE c) ≠ 1) →
    (dramSupported r = false → ∃ t : State, exec (.bootTrainingDone r) s = .next t ∧ t.pwr.held = .dram ∧ t.pwr.bootPhase = 2
      ∧ (s.get (H.VALID 0xA4) = 0 → t.get (H.CODE 0xA4) = E.DRAM_UNSUPPORTED))
    ∧ (dramSupported r = true →
      ∃ t : State, exec (.bootTrainingDone r) s = .next (if t.pwr.sources = [] then t.holdBoot else t) ∧ t.pwr.bootPhase = 3 ∧ t.pwr.sources = t.bootSources
        ∧ ∀ c < 4, s.newestConfig = none → s.dramState c = 1 → t.dramState c
          = if ((r.chans.getD c (0, false, false, false)).2.2.2 && (List.range 10).all fun i => decide (16 ≤ ((r.lanes.getD c []).getD i (0, 0, 0)).2.2)) = true then 2 else 6))
  ∧ (∀ (s : State) (img : Bytes) (va vb : BitVec 8) (src copy : Nat) (rest : List (Nat × Nat)), s.pwr.bootPhase = 3 → s.pwr.held = .no →
    s.pwr.sources = (src, copy) :: rest →
    ((s.verifyImage img va vb).1 = true → (src ≠ 0 ∨ s.pwr.fw.region.getD copy none = none ∨ s.pwr.fw.region.getD copy none = some img) →
      ∃ u : State, exec (.bootImageCheck img va vb) s = .next (u.acceptImage img src copy) ∧ u.get R.PWR.BOOT_ATTEMPTS = min (s.get R.PWR.BOOT_ATTEMPTS + 1) 255)
    ∧ ((s.verifyImage img va vb).1 = false ∨ (src = 0 ∧ ∃ r, s.pwr.fw.region.getD copy none = some r ∧ r ≠ img) →
      ∃ u : State, exec (.bootImageCheck img va vb) s = .next (if rest = [] then u.holdBoot else u) ∧ u.pwr.sources = rest ∧ u.pwr.bootPhase = 3
        ∧ u.pwr.fw.running = s.pwr.fw.running ∧ u.get R.PWR.BOOT_ATTEMPTS = min (s.get R.PWR.BOOT_ATTEMPTS + 1) 255
        ∧ (src = 0 → s.get (H.VALID 2) = 0 → u.get (H.CODE 2) = E.PWR_BOOT_FALLBACK)))
  ∧ (∀ (s : State) (img key : Bytes), s.bootKey = some key → bootLayoutOk img = true →
    ((s.verifyImage img 0 0).1 = true ↔ img.drop (img.length - 48) = hmacSha384 key (img.take (img.length - 48))))
  ∧ (∀ s : State, ∃ t : State, s.holdBoot = t ∧ t.pwr.held = .noImage ∧ (s.get (H.VALID 2) = 0 → t.get (H.CODE 2) = E.PWR_BOOT_FAIL))
  ∧ (∀ (s : State) (img : Bytes) (src copy : Nat),
    ∃ t : State, s.acceptImage img src copy = t ∧ t.pwr.bootPhase = 4 ∧ t.pwr.fw.running = some img ∧ t.pwr.keysLocked = true ∧ t.pwr.held = .no
      ∧ t.get R.PWR.BOOT_SOURCE = src % 4 ∧ t.get R.PWR.BOOT_COPY = copy % 4)
  ∧ (∀ (s : State) (o : Origin), s.powered = true → s.reaches o 2 = true → s.pwr.held ≠ .no → s.mailboxOn = true →
    (s.pwr.held = .dram ∨ s.get R.PWR.MBOX_LEN_BYTES < 4096 ∨ 16777216 < s.get R.PWR.MBOX_LEN_BYTES →
      ∃ t : State, exec (.go o) s = .next t ∧ t.get R.PWR.MBOX_CTRL_STATE = 2 ∧ t.pwr = s.pwr)
    ∧ (∀ img, s.pwr.held = .noImage → 4096 ≤ s.get R.PWR.MBOX_LEN_BYTES → s.get R.PWR.MBOX_LEN_BYTES ≤ 16777216 →
      img = s.mem.read .hostA (4096 * s.get R.PWR.MBOX_ADDR_ADDR) (s.get R.PWR.MBOX_LEN_BYTES) →
      ((s.verifyImage img 0 0).1 = true → ∃ u : State, exec (.go o) s = .next (u.acceptImage img 2 0) ∧ u.get R.PWR.MBOX_CTRL_STATE = 3)
      ∧ ((s.verifyImage img 0 0).1 = false → ∃ t : State, exec (.go o) s = .next t ∧ t.get R.PWR.MBOX_CTRL_STATE = 2 ∧ t.pwr = s.pwr)))
  ∧ (∀ (s : State) (pipes : BitVec 6) (units : BitVec 64), s.pwr.bootPhase = 4 →
    ∃ t : State, exec (.bootSelfTestDone pipes units) s = .next t ∧ t.pwr.bootPhase = 5
      ∧ (∀ p < 6, bitAt (t.get R.CIPHER.PIPES_LIVE) p = (bitAt (s.get R.CIPHER.PIPES_LIVE) p && !bitAt pipes.toNat p))
      ∧ (∀ u < 64, bitAt (t.get R.DIGEST.UNITS_LIVE_MASK) u = (bitAt (s.get R.DIGEST.UNITS_LIVE_MASK) u && !bitAt units.toNat u))
      ∧ (t.livePipes < 5 → bitAt (t.get R.PWR.SAFE_CAUSE_CAUSE) 3 = true))
  ∧ (∀ s : State, s.pwr.bootPhase = 5 → ∃ t : State, exec .bootTablesDone s = .next t ∧ t.pwr.bootPhase = 6)
  ∧ (∀ s : State, s.pwr.bootPhase = 6 →
    ∃ t : State, exec .bootMapLoaded s = .next t ∧ t.pwr.bootPhase = 7
      ∧ (s.bootCkpt = none → s.trust.instGen ≠ none → bitAt (s.get R.PWR.SAFE_CAUSE_CAUSE) 6 = false → s.liveDies ≠ [] → t.media.formatted = true)
      ∧ (s.bootCkpt = none → s.trust.instGen = none → t.media.formatted = s.media.formatted))
  ∧ (∀ s : State, s.pwr.bootPhase = 7 →
    ∃ t : State, exec .bootRecoveryDone s = .next t ∧ t.pwr.bootPhase = 8
      ∧ (s.media.formatted = true → s.pwr.cleanStop = false → s.newestSnap = none →
        t.get R.ARRAY.ARRAY_STATUS_RESYNC_CASE = (if s.headerReads = true then 2 else 3)))
  ∧ (∀ s : State, s.pwr.bootPhase = 8 →
    ∃ t : State, exec .bootReady s = .next t ∧ t.pwr.bootPhase = 0 ∧ t.gate.mayTrain = true ∧ t.pwr.cleanStop = false
      ∧ (s.get R.PWR.SAFE_CAUSE_CAUSE = 0 → 0 < s.liveLanes → 5 ≤ s.livePipes → 2 ≤ s.liveSystemCores → 2 ≤ s.liveDram → t.mode = 3)
      ∧ (s.get R.PWR.SAFE_CAUSE_CAUSE < 256 → s.get R.PWR.SAFE_CAUSE_CAUSE ≠ 0 ∨ s.liveLanes = 0 ∨ s.livePipes < 5 ∨ s.liveSystemCores < 2 ∨ s.liveDram < 2 →
        t.mode = 7 ∧ (s.get (H.VALID 2) = 0 → t.get (H.CODE 2) = E.PWR_SAFE_ENTERED)))
/-- R577-R603. Which readings the model takes where R586-R591 and R598 are open say log entries 81 and 82. -/
def Obligations.RolesOtpAndPerturbation : Prop :=
  (∀ (s : State) (c : Cmd) (data : Bytes), s.adminReady c.fn = true → isPf c.fn = true → memWf s.trust.otp = true →
    (∀ g : Nat, data.length = 256 → s.holdsExactly (.pcie c.fn) .maker = true → makerOk data = true →
      (List.range 3).find? (fun g => !imgUsed (s.makerImage g)) = some g → (g = 0 ∨ repeatsFirst (s.makerImage 0) data = true) →
      (∃ t : State, exec (.otpProgram c data true) s = .next t ∧ t.makerImage g = data ∧ (∀ h < 3, h ≠ g → t.makerImage h = s.makerImage h)
        ∧ (∀ h < 4, t.instImage h = s.instImage h) ∧ t.trust.makerGen = s.trust.makerGen ∧ (⟨c.fn, 0, 0, c.cid, Nv.ok, 0, 0⟩ : Cqe) ∈ t.host.cqes)
      ∧ (∃ t : State, exec (.otpProgram c data false) s = .next t ∧ imgUsed (t.makerImage g) = true ∧ t.makerValid g = false
        ∧ (⟨c.fn, 0, 0, c.cid, Nv.internal, 0, 0⟩ : Cqe) ∈ t.host.cqes))
    ∧ (∀ g : Nat, data.length ≠ 256 → s.holdsExactly (.pcie c.fn) .installer = true → instOk data = true →
      (List.range 4).find? (fun g => !imgUsed (s.instImage g)) = some g →
      ∃ t : State, exec (.otpProgram c data true) s = .next t ∧ t.instImage g = data ∧ t.instValid g = true ∧ (∀ h < 4, h ≠ g → t.instImage h = s.instImage h)
        ∧ (∀ h < 3, t.makerImage h = s.makerImage h) ∧ t.trust.instGen = s.trust.instGen ∧ (⟨c.fn, 0, 0, c.cid, Nv.ok, 0, 0⟩ : Cqe) ∈ t.host.cqes)
    ∧ (∀ (r : Role) (rb : Bool), r = (if data.length = 256 then .maker else .installer) →
      (s.holdsExactly (.pcie c.fn) r = false → ∃ t : State, exec (.otpProgram c data rb) s = .next t ∧ t.trust = s.trust ∧ (⟨c.fn, 0, 0, c.cid, Nv.role, 0, 0⟩ : Cqe) ∈ t.host.cqes)
      ∧ (s.holdsExactly (.pcie c.fn) r = true → makerOk data = false → instOk data = false →
        ∃ t : State, exec (.otpProgram c data rb) s = .next t ∧ t.trust.otp = s.trust.otp ∧ (⟨c.fn, 0, 0, c.cid, Nv.badField, 0, 0⟩ : Cqe) ∈ t.host.cqes
          ∧ (s.get (H.VALID 5) = 0 → t.get (H.CODE 5) = E.OTP_IMAGE_BAD))
      ∧ (s.holdsExactly (.pcie c.fn) r = true → r = .installer → instOk data = true → (∀ g < 4, imgUsed (s.instImage g) = true) →
        ∃ t : State, exec (.otpProgram c data rb) s = .next t ∧ t.trust.otp = s.trust.otp ∧ (⟨c.fn, 0, 0, c.cid, Nv.space, 0, 0⟩ : Cqe) ∈ t.host.cqes)))
  ∧ (∀ (s : State) (c : Cmd) (data : Bytes), s.adminReady c.fn = true → memWf s.trust.otp = true →
    (s.holds (.pcie c.fn) .installer = true → data = decomText →
      ∃ t : State, exec (.decommission c data) s = .next t ∧ t.decomBits = 128 ∧ t.trust.decom = s.trust.decom ∧ (⟨c.fn, 0, 0, c.cid, Nv.ok, 0, 0⟩ : Cqe) ∈ t.host.cqes)
    ∧ (s.holds (.pcie c.fn) .installer = false →
      ∃ t : State, exec (.decommission c data) s = .next t ∧ t.trust = s.trust ∧ (⟨c.fn, 0, 0, c.cid, Nv.role, 0, 0⟩ : Cqe) ∈ t.host.cqes))
  ∧ (∀ (s : State) (c : Cmd) (data : Bytes), s.adminReady c.fn = true → s.holdsExactly (.pcie c.fn) .installer = true →
    (data = [] → ∃ t : State, exec (.operatorCredential c data) s = .next t ∧ t.trust.cred = none ∧ (⟨c.fn, 0, 0, c.cid, Nv.ok, 0, 0⟩ : Cqe) ∈ t.host.cqes)
    ∧ (8 ≤ data.length → data.length ≤ 64 →
      ∃ (t : State) (salt : Bytes), exec (.operatorCredential c data) s = .next t ∧ salt.length = 16 ∧ t.trust.cred = some (salt, sha384 (salt ++ data)))
    ∧ ((1 ≤ data.length ∧ data.length < 8) ∨ 64 < data.length →
      ∃ t : State, exec (.operatorCredential c data) s = .next t ∧ t.trust.cred = s.trust.cred ∧ (⟨c.fn, 0, 0, c.cid, Nv.badField, 0, 0⟩ : Cqe) ∈ t.host.cqes))
  ∧ (∀ (s : State) (o : Origin) (r : Role), r ≠ .operator → s.mayGain o r = true → s.lockedOut r = false → s.otherHolder o r = none →
    ∃ (t : State) (b : Bytes), s.challenge o r = (0, b, t) ∧ (⟨o, r, b, s.time⟩ : Challenge) ∈ t.trust.challenges
      ∧ (∀ x ∈ t.trust.challenges, x.origin = o → x = ⟨o, r, b, s.time⟩) ∧ sliceBytes b 32 s.serial.length = s.serial
      ∧ (s.serial.length = 16 → b.length = 64 ∧ leNat (sliceBytes b 48 1) = r.num ∧ leNat (sliceBytes b 49 1) = originCode o
        ∧ leNat (sliceBytes b 50 2) = originFunc o % 2 ^ 16 ∧ leNat (sliceBytes b 52 4) = (s.lockout r).fails % 2 ^ 32 ∧ leNat (sliceBytes b 56 8) = s.time % 2 ^ 64))
  ∧ (∀ (s : State) (o h : Origin) (r : Role), r ≠ .operator → s.mayGain o r = true → s.lockedOut r = false → s.otherHolder o r = some h →
    ∃ t : State, s.challenge o r = (4, [], t) ∧ t.trust.sessions = s.trust.sessions ∧ (s.get (H.VALID 6) = 0 → t.get (H.CODE 6) = E.ROLE_HELD))
  ∧ (∀ (s : State) (c : Cmd) (role : BitVec 8) (r : Role), s.adminReady c.fn = true → roleOf role.toNat = some r →
    (∀ (b : Bytes) (u : State), s.challenge (.pcie c.fn) r = (0, b, u) →
      ∃ t : State, exec (.roleAuthGetChallenge c role 64) s = .next t ∧ t.mem = dptrWrite (hostTarget c.fn) c.dptr b u.mem ∧ t.trust = u.trust
        ∧ (⟨c.fn, 0, 0, c.cid, Nv.ok, 0, 0⟩ : Cqe) ∈ t.host.cqes)
    ∧ (∀ (why : Nat) (u : State), s.challenge (.pcie c.fn) r = (why, [], u) → why ≠ 0 → exec (.roleAuthGetChallenge c role 64) s = .next (u.authDone c r why))
    ∧ (∀ len, len ≠ 64 → ∃ t : State, exec (.roleAuthGetChallenge c role len) s = .next t ∧ t.trust = s.trust ∧ (⟨c.fn, 0, 0, c.cid, Nv.length, 0, 0⟩ : Cqe) ∈ t.host.cqes)
    ∧ (∀ (data : Bytes) (va vb : BitVec 8), ∃ w : Nat × State, w = s.respond (.pcie c.fn) r (data.take 48) va vb
      ∧ exec (.roleAuthRespond c role 48 data va vb) s = .next (w.2.authDone c r w.1))
    ∧ (∃ t : State, exec (.roleAuthDrop c role) s = .next t ∧ (⟨c.fn, 0, 0, c.cid, Nv.ok, 0, 0⟩ : Cqe) ∈ t.host.cqes ∧ t.trust = (s.dropRole (.pcie c.fn) r).trust))
  ∧ (∀ (s : State) (c : Cmd) (r : Role) (h : Origin), s.otherHolder (.pcie c.fn) r = some h →
    (⟨c.fn, 0, 0, c.cid, Nv.held, originCode h + originFunc h * 2 ^ 16, 0⟩ : Cqe) ∈ (s.authDone c r 4).host.cqes)
  ∧ (∀ (s : State) (o : Origin) (r : Role) (ch : Challenge) (resp : Bytes), r ≠ .operator → s.mayGain o r = true → s.otherHolder o r = none →
    s.trust.challenges = [ch] → ch.origin = o → ch.role = r → s.time < ch.issued + 10000000000 →
    (resp = hmacSha384 (s.roleKey r) ch.bytes →
      ∃ t : State, s.respond o r resp 0 0 = (0, t) ∧ (⟨o, r, s.time⟩ : Session) ∈ t.trust.sessions ∧ t.trust.challenges = []
        ∧ (s.trust.lockouts.length = 3 → t.lockout r = ⟨0, 0, 0⟩) ∧ bitAt (t.get (H.STICKY 6)) Ev.ROLE.GAINED = true)
    ∧ (resp ≠ hmacSha384 (s.roleKey r) ch.bytes →
      ∃ t : State, s.respond o r resp 0 0 = (1, t) ∧ t.trust.sessions = s.trust.sessions ∧ t.trust.challenges = []
        ∧ (s.trust.lockouts.length = 3 → (t.lockout r).fails = (s.lockout r).fails + 1) ∧ (s.get (H.VALID 6) = 0 → t.get (H.CODE 6) = E.ROLE_AUTH_FAIL)))
  ∧ (∀ (s : State) (o : Origin) (r : Role) (ch : Challenge) (resp : Bytes) (va vb : BitVec 8), r ≠ .operator → s.mayGain o r = true →
    s.trust.challenges = [ch] → ch.issued + 10000000000 ≤ s.time →
    s.respond o r resp va vb = (2, s.authFail o r))
  ∧ (∀ (s : State) (o : Origin) (r : Role), s.trust.lockouts.length = 3 →
    ((s.authFail o r).lockout r).fails = (s.lockout r).fails + 1 ∧ (s.authFail o r).trust.sessions = s.trust.sessions
      ∧ ((s.lockout r).fails % 5 = 4 → ((s.authFail o r).lockout r).count = (s.lockout r).count + 1
        ∧ ((s.authFail o r).lockout r).until_ = s.time + min 3600 (60 * 2 ^ (s.lockout r).count) * 1000000000)
      ∧ ((s.lockout r).fails % 5 ≠ 4 → ((s.authFail o r).lockout r).until_ = (s.lockout r).until_))
  ∧ (∀ (s : State) (c : Cmd) (role : BitVec 8) (salt d data : Bytes), s.adminReady c.fn = true → role = 0 → s.mayGain (.pcie c.fn) .operator = true →
    s.lockedOut .operator = false → s.trust.cred = some (salt, d) →
    (sha384 (salt ++ data) = d →
      ∃ t : State, exec (.roleAuthCredential c role data.length data) s = .next t ∧ (⟨.pcie c.fn, .operator, s.time⟩ : Session) ∈ t.trust.sessions
        ∧ (⟨c.fn, 0, 0, c.cid, Nv.ok, 0, 0⟩ : Cqe) ∈ t.host.cqes)
    ∧ (sha384 (salt ++ data) ≠ d →
      ∃ t : State, exec (.roleAuthCredential c role data.length data) s = .next t ∧ t.trust.sessions = s.trust.sessions
        ∧ (⟨c.fn, 0, 0, c.cid, Nv.role, 0, 0⟩ : Cqe) ∈ t.host.cqes))
  ∧ (∀ (s : State) (o : Origin) (r : Role), (∀ x ∈ (s.dropRole o r).trust.sessions, x ∈ s.trust.sessions)
    ∧ ((s.trust.sessions.filter fun x => x.origin == o && x.role == r).length ≤ 1 → ∀ x ∈ (s.dropRole o r).trust.sessions, ¬ (x.origin = o ∧ x.role = r)))
  ∧ (∀ (s : State) (o : Origin) (role : BitVec 2) (r : Role) (va vb : BitVec 8), s.powered = true → s.reaches o 6 = true →
    (roleOf role.toNat = some r → ∃ u : State, u.regs = s.regs ∧ u.trust = s.trust ∧ u.time = s.time
      ∧ exec (.authChallenge o role) s = .next (u.stepChallenge o r) ∧ exec (.authCheckResponse o role va vb) s = .next (u.stepRespond o va vb r)
      ∧ exec (.authDrop o role) s = .next (u.stepDrop o r))
    ∧ (role = 3 → ∃ t : State, exec (.authChallenge o role) s = .next t ∧ t.refusal = some 0x0701 ∧ t.trust = s.trust))
  ∧ (∀ (s : State) (o : Origin) (r : Role) (b : Bytes) (u : State), s.challenge o r = (0, b, u) → b.length = 64 →
    (s.stepChallenge o r).get (R.ROLE.AUTH_STATUS_RESULT.of o) = 1 ∧ (s.stepChallenge o r).get (R.ROLE.AUTH_STATUS_WHY.of o) = 0
      ∧ ∀ i < 16, (s.stepChallenge o r).get ((R.ROLE.CHALLENGE_BYTES i).of o) = leNat (sliceBytes b (4 * i) 4))
  ∧ (∀ (s : State) (o : Origin) (ch : Challenge), s.trust.challenges.find? (·.origin == o) = some ch →
    ∃ t : State, exec (.challengeLapse o) s = .next t ∧ t.time = max s.time (ch.issued + 10000000000) ∧ (∀ x ∈ t.trust.challenges, x.origin ≠ o)
      ∧ (s.get (R.ROLE.AUTH_STATUS_RESULT.of o) = 1 → t.get (R.ROLE.AUTH_STATUS_RESULT.of o) = 3 ∧ t.get (R.ROLE.AUTH_STATUS_WHY.of o) = 2))
  ∧ (∀ (s : State) (o : Origin) (x : Session), s.trust.sessions = [x] → x.origin = o →
    ∃ t : State, exec (.roleIdleLapse o) s = .next t ∧ t.trust.sessions = [] ∧ t.time = max s.time (x.last + s.get R.ROLE.IDLE_S_S * 1000000000)
      ∧ t.get R.ROLE.HOLDERS_INST_HELD = 0 ∧ t.get R.ROLE.HOLDERS_MAKER_HELD = 0)
  ∧ (∀ (s : State) (role : BitVec 2) (r : Role), roleOf role.toNat = some r → (s.lockout r).until_ ≠ 0 → s.trust.lockouts.length = 3 →
    ∃ t : State, exec (.roleLockoutEnd role) s = .next t ∧ t.time = max s.time (s.lockout r).until_ ∧ t.lockedOut r = false ∧ (t.lockout r).count = (s.lockout r).count)
  ∧ (∀ (s : State) (o : Origin) (role action result : Nat) (param : Bytes), param.length ≤ 64 →
    ∃ e : Bytes, (s.audit o role action result param).trust.audit.getLast? = some e ∧ e.take 8 = leBytes 8 s.trust.auditSeq ∧ sliceBytes e 8 8 = leBytes 8 s.time
      ∧ leNat (sliceBytes e 24 1) = role % 256 ∧ leNat (sliceBytes e 25 1) = originCode o ∧ leNat (sliceBytes e 28 2) = action % 65536
      ∧ leNat (sliceBytes e 30 1) = result % 256 ∧ sliceBytes e 32 param.length = param ∧ e.drop 96 = s.auditPrev
      ∧ (s.audit o role action result param).trust.auditHead = sha256 e ∧ (s.audit o role action result param).trust.auditSeq = s.trust.auditSeq + 1
      ∧ (s.audit o role action result param).auditPrev = sha256 e
      ∧ (s.trust.audit.length ≤ 65536 → (s.audit o role action result param).trust.audit.length ≤ 65536))
  ∧ (∀ (s : State) (o : Origin), s.powered = true → s.reaches o 9 = true → s.holds o .installer = true →
    (s.perturbOpen = true → ∃ t : State, exec (.arm o) s = .next t ∧ t.get R.PERTURB.CTRL_ARM = 1 ∧ t.trust.armOrigin = some o
      ∧ bitAt (t.get (H.STICKY 9)) Ev.PERTURB.ARMED = true)
    ∧ (s.perturbOpen = false → ∃ t : State, exec (.arm o) s = .next t ∧ t.refusal = some 0x0A02 ∧ t.get R.PERTURB.CTRL_ARM = s.get R.PERTURB.CTRL_ARM)
    ∧ (∃ t : State, exec (.kill o) s = .next t ∧ t.get R.PERTURB.CTRL_ARM = 0 ∧ (∀ p ∈ perturbPages, t.get (H.POINT p) = 0)))
  ∧ (∀ (s : State) (n : BitVec 4), n.toNat = 0 ∨ s.namedBy n.toNat = [] → exec (.perturbEvent n) s = .next s)
  ∧ (∀ (s : State) (n : BitVec 4), n.toNat ≠ 0 → s.namedBy n.toNat ≠ [] → s.get (R.PERTURB.PROFILE_A_KIND n.toNat) ≠ 0 →
    ∃ t u : State, t = (s.namedBy n.toNat).foldl (fun t p => t.inject (s.get (R.PERTURB.PROFILE_A_KIND n.toNat)) (s.get (R.PERTURB.PROFILE_B_MAGNITUDE n.toNat)) p) s
      ∧ exec (.perturbEvent n) s = .next (u.spendProfile n.toNat) ∧ u.get R.PERTURB.EVENTS_COUNT = min (t.get R.PERTURB.EVENTS_COUNT + 1) (2 ^ 32 - 1)
      ∧ assoc u.trust.injected n.toNat = some ((assoc t.trust.injected n.toNat).getD 0 + 1))
  ∧ (∀ (s : State) (n k : Nat), 1 ≤ n → n ≤ 15 → assoc s.trust.injected n = some k → s.get (R.PERTURB.PROFILE_A_COUNT n) ≠ 0 →
    (k < s.get (R.PERTURB.PROFILE_A_COUNT n) → s.spendProfile n = s)
    ∧ (s.get (R.PERTURB.PROFILE_A_COUNT n) ≤ k → (s.spendProfile n).namedBy n = [] ∧ bitAt ((s.spendProfile n).get (H.STICKY 9)) Ev.PERTURB.EXHAUSTED = true))
  ∧ (∀ (s : State) (mag : Nat), ∃ t : State, s.inject 1 mag 0x10 = t ∧ t.get R.GATE.CREDIT_STATE_HELD_PERTURB = 1 ∧ assoc t.trust.delays 0x10 = some (s.time + 1000 * mag))
  ∧ (∀ (s : State) (page d : Nat), assoc s.trust.delays page = some d →
    ∃ t : State, t.time = max s.time d ∧ assoc t.trust.delays page = none
      ∧ exec (.perturbDelayExpiry page) s = .next (if page = 0x10 then t.hold R.GATE.CREDIT_STATE_HELD_PERTURB false else t.dispatchSlices))
/-- R31-R49, R600, R604-R617, R622, R645, R646. -/
def Obligations.RegistersAndSharedResources : Prop :=
  (∀ (s : State) (o : Origin) (page off len : Nat) (v : BitVec 64), s.powered = true → s.reaches o page = true →
    (len ≠ 4 ∨ off % 4 ≠ 0) → (len ≠ 8 ∨ off % 8 ≠ 0) →
    (∃ t : State, exec (.registerWrite o page off len v) s = .next t ∧ t.refusal = some (commonCode page 4) ∧ (∀ f : Fld, 0x040 ≤ f.off → t.get f = s.get f)
      ∧ (s.get (H.VALID page) = 0 → t.get (H.CODE page) = commonCode page 4))
    ∧ (∃ t : State, exec (.registerRead o page off len) s = .next t ∧ assoc t.readData o = some 0 ∧ t.refusal = some (commonCode page 4)
      ∧ (∀ f : Fld, 0x040 ≤ f.off → t.get f = s.get f)))
  ∧ (∀ (s : State) (o : Origin) (page off len : Nat) (v : BitVec 64), s.powered = true → s.reaches o page = false →
    ∃ (t : State) (p : Nat), exec (.registerWrite o page off len v) s = .next t ∧ p = (if isVf o = true then 0x1000 + originFunc o else 0) ∧ t.refusal = some (commonCode p 3)
      ∧ (∀ f : Fld, 0x040 ≤ f.off → t.get f = s.get f) ∧ (s.get (H.VALID p) = 0 → t.get (H.CODE p) = commonCode p 3))
  ∧ (∀ (s : State) (o : Origin) (page : Nat) (v : BitVec 64), s.powered = true → s.reaches o page = true →
    (∃ t : State, exec (.registerWrite o page 0x014 4 v) s = .next t ∧ t.get (H.MASK page) = (v.toNat % 2 ^ 32) &&& eventBits page ∧ t.get (H.STICKY page) = s.get (H.STICKY page))
    ∧ (s.latches = [] → ∃ t : State, exec (.registerRead o page 0x014 4) s = .next t ∧ assoc t.readData o = some (s.get (H.MASK page) % 2 ^ 32) ∧ t.regs = s.regs)
    ∧ (∃ t : State, exec (.errCodeClear o page) s = .next t ∧ t.get (H.VALID page) = 0 ∧ t.get (H.CODE page) = 0 ∧ t.get (H.ERRS page) = 0 ∧ t.get (H.INFO page) = 0
      ∧ (∀ f : Fld, 0x040 ≤ f.off → t.get f = s.get f)))
  ∧ (∀ (s : State) (o : Origin) (lo hi : BitVec 64), s.powered = true → s.reaches o 4 = true → s.holds o .operator = true → lo.toNat < 2 ^ 32 → hi.toNat < 2 ^ 32 →
    ∃ t u : State, exec (.registerWrite o 4 0x048 4 lo) s = .next t ∧ t.get R.RTC.SET_TIME = s.get R.RTC.SET_TIME ∧ t.pendingLow o 4 0x048 = some lo.toNat
      ∧ exec (.registerWrite o 4 0x04C 4 hi) t = .next u ∧ u.get R.RTC.SET_TIME = lo.toNat + hi.toNat * 2 ^ 32 ∧ u.pendingLow o 4 0x048 = none)
  ∧ (∀ (s : State) (o : Origin) (hi : BitVec 64), s.powered = true → s.reaches o 4 = true → s.holds o .operator = true → hi.toNat < 2 ^ 32 → s.pendingLow o 4 0x048 = none →
    ∃ t : State, exec (.registerWrite o 4 0x04C 4 hi) s = .next t ∧ t.get R.RTC.SET_TIME = s.get R.RTC.SET_TIME % 2 ^ 32 + hi.toNat * 2 ^ 32)
  ∧ (∀ (s : State) (o : Origin) (x : Latch), s.powered = true → s.reaches o 4 = true →
    ∃ t u : State, exec (.registerRead o 4 0x040 4) s = .next t ∧ assoc t.readData o = some (s.viewReg o 4 0x040 % 2 ^ 32)
      ∧ exec (.registerRead o 4 0x044 4) t = .next u ∧ assoc u.readData o = some (s.viewReg o 4 0x040 / 2 ^ 32)
      ∧ (s.latches = [x] → x.origin = o → x.page = 4 → u.latches = []))
  ∧ (∀ (s : State) (o : Origin) (x : PendLow), s.lows = [x] → x.origin = o →
    ∃ t : State, exec (.pendingLowDiscard o) s = .next t ∧ t.lows = [] ∧ t.time = max s.time (x.time + 1000) ∧ t.regs = s.regs)
  ∧ (∀ (s : State) (page code info func ext last : Nat), code < 2 ^ 16 → info < 2 ^ 32 → page < 0x10000 →
    ∃ t : State, s.record page code info func ext last = t ∧ t.get (H.VALID page) ≠ 0
      ∧ (s.get (H.VALID page) = 0 → t.get (H.CODE page) = code ∧ t.get (H.INFO page) = info ∧ t.get (H.COUNT page) = min (s.get (H.COUNT page) + 1) (2 ^ 32 - 1))
      ∧ (s.get (H.VALID page) ≠ 0 → t.get (H.CODE page) = s.get (H.CODE page) ∧ t.get (H.INFO page) = s.get (H.INFO page) ∧ t.get (H.COUNT page) = s.get (H.COUNT page))
      ∧ t.get (H.ERRS page) = min (s.get (H.ERRS page) + 1) 255 ∧ bitAt (t.get (H.STICKY page)) 31 = true
      ∧ (∀ f : Fld, f.page ≠ page → t.get f = s.get f)
      ∧ (s.fault.intake.length < 64 → t.fault.intake.length = s.fault.intake.length + 1 ∧ t.fault.dev = s.fault.dev)
      ∧ (64 ≤ s.fault.intake.length → t.fault.intake = s.fault.intake ∧ t.fault.dev.lost = min (s.fault.dev.lost + 1) (2 ^ 32 - 1)))
  ∧ (∀ (s : State) (o : Origin) (lane : Fin 12), s.powered = true → s.reaches o (lanePage lane.val) = true → s.holds o .installer = true →
    (s.ctrlHeld (lanePage lane.val) = true →
      (∃ t : State, exec (.enableClear o (lanePage lane.val)) s = .next t ∧ t.refusal = some 0x1805 ∧ t.get (H.ENABLE (lanePage lane.val)) = s.get (H.ENABLE (lanePage lane.val)))
      ∧ (s.get (H.ENABLE (lanePage lane.val)) = 1 → ∃ t : State, exec (.softReset o (lanePage lane.val)) s = .next t ∧ t.refusal = some 0x1805 ∧ t.lanes = s.lanes))
    ∧ (s.ctrlHeld (lanePage lane.val) = false →
      (∃ t : State, exec (.enableClear o (lanePage lane.val)) s = .next t ∧ t.get (H.ENABLE (lanePage lane.val)) = 0)
      ∧ (s.get (H.ENABLE (lanePage lane.val)) = 1 → (s.lane lane.val).work = .idle → (s.lane lane.val).held = [] →
        ∃ t : State, exec (.softReset o (lanePage lane.val)) s = .next t ∧ (t.lane lane.val).work = .idle
          ∧ t.get (R.LANE.JOBS_DONE_COUNT lane.val) = 0 ∧ t.get (H.STICKY (lanePage lane.val)) = 0 ∧ t.get (H.ENABLE (lanePage lane.val)) = 1
          ∧ t.get (R.LANE.LANE_STATUS_RETIRED lane.val) = s.get (R.LANE.LANE_STATUS_RETIRED lane.val))))
  ∧ (∀ (s : State) (o : Origin) (point : BitVec 8), s.powered = true → s.reaches o 0x10 = true → s.holds o .installer = true → 1 ≤ point.toNat →
    (s.perturbOpen = true → s.get R.PERTURB.CTRL_ARM ≠ 0 → point.toNat ≤ 15 → s.get (R.PERTURB.PROFILE_A_KIND point.toNat) = 1 →
      ∃ t : State, exec (.perturbPointSelect o 0x10 point) s = .next t ∧ t.get (H.POINT 0x10) = point.toNat)
    ∧ (s.perturbOpen = true → s.get R.PERTURB.CTRL_ARM ≠ 0 → 16 ≤ point.toNat →
      ∃ t : State, exec (.perturbPointSelect o 0x10 point) s = .next t ∧ t.get (H.POINT 0x10) = s.get (H.POINT 0x10) ∧ t.refusal = some 0x1001)
    ∧ (s.perturbOpen = false ∨ s.get R.PERTURB.CTRL_ARM = 0 →
      ∃ t : State, exec (.perturbPointSelect o 0x10 point) s = .next t ∧ t.get (H.POINT 0x10) = s.get (H.POINT 0x10) ∧ t.refusal = some 0x1002))
  ∧ (∀ (s : State) (r : Report) (rs : List Report), s.fault.intake = r :: rs →
    ∃ u : State, exec .faultIntake s = .next (u.enterReport r) ∧ u.fault = { s.fault with intake := rs } ∧ u.regs = s.regs)
  ∧ (∀ (s : State) (r : Report), r.sev < 4 → (s.enterReport r).fault.dev = (s.fault.dev.accept devSlots r).1
    ∧ (s.enterReport r).get (R.FAULT.SEV_COUNT_COUNT r.sev) = min (s.get (R.FAULT.SEV_COUNT_COUNT r.sev) + 1) (2 ^ 32 - 1)
    ∧ (r.func ≤ 0x101 → (s.enterReport r).fault.func r.func = ((s.fault.func r.func).accept funcSlots r).1))
  ∧ (∀ (x : Ring) (slots : Nat) (r : Report), x.entries.length ≤ slots → 0 < slots →
    (x.accept slots r).1.entries.length ≤ slots
      ∧ (x.accept slots r = (⟨x.entries ++ [⟨r, 1⟩], x.lost, x.firstLost, x.unclean⟩, true)
        ∨ ((x.accept slots r).2 = false ∧ (x.accept slots r).1.lost = x.lost ∧ ∃ i e, x.entries[i]? = some e ∧ x.entries.length ≤ i + 16 ∧ e.takes r = true
            ∧ (x.accept slots r).1.entries[i]? = some (e.again r))
        ∨ (x.entries.length = slots ∧ 2 ≤ r.sev ∧ (x.accept slots r).2 = true ∧ (x.accept slots r).1.entries.getLast? = some ⟨r, 1⟩
            ∧ (x.accept slots r).1.lost = min (x.lost + 1) (2 ^ 32 - 1))
        ∨ (x.entries.length = slots ∧ x.accept slots r = (x.lose r.time, false) ∧ (r.sev < 2 ∨ ∀ e ∈ x.entries, r.sev ≤ e.rep.sev))))
  ∧ (∀ (s : State) (o : Origin) (n : BitVec 13), s.powered = true → s.reaches o 8 = true →
    (o = .firmware ∨ (∃ f, o = .pcie f ∧ isPf f = true) →
      (n.toNat ≤ s.fault.dev.entries.length → s.fault.dev.lost = 0 → s.fault.dev.unclean = false →
        ∃ t : State, exec (.faultConsume o n) s = .next t ∧ t.fault.dev.entries = s.fault.dev.entries.drop n.toNat)
      ∧ (n.toNat ≤ s.fault.dev.entries.length → s.fault.dev.lost ≠ 0 → s.fault.dev.entries.length - n.toNat < 4096 →
        ∃ t : State, exec (.faultConsume o n) s = .next t ∧ t.fault.dev.lost = 0
          ∧ ∃ e, t.fault.dev.entries = s.fault.dev.entries.drop n.toNat ++ [e] ∧ e.rep.code = E.FAULT_RING_OVERFLOW ∧ e.rep.info = s.fault.dev.lost % 2 ^ 32)
      ∧ (s.fault.dev.entries.length < n.toNat → s.fault.intake.length < 64 → ∃ t : State, exec (.faultConsume o n) s = .next t ∧ t.fault.dev = s.fault.dev ∧ t.refusal = some 0x0801))
    ∧ (o = .gate ∨ o = .setManager ∨ o = .testPort → s.fault.intake.length < 64 →
      ∃ t : State, exec (.faultConsume o n) s = .next t ∧ t.fault.dev = s.fault.dev ∧ t.refusal = some 0x0802))
  ∧ (∀ (s : State) (o : Origin) (r : BitVec 3), s.powered = true → s.reaches o 0xA = true →
    (1 ≤ r.toNat → r.toNat ≤ 4 → s.holds o .operator = true → s.get (R.SHARE.OWNER_STATE r.toNat) = 0 ∨ s.holdsComparator o r.toNat = true →
      ∃ t : State, exec (.shareClaim o r) s = .next t ∧ t.get (R.SHARE.OWNER_STATE r.toNat) = 1 ∧ t.get (R.SHARE.OWNER_ORIGIN r.toNat) = originCode o
        ∧ t.get (R.SHARE.OWNER_FUNC r.toNat) = originFunc o % 512 ∧ t.get (R.SHARE.CLAIM_STATUS_RESULT.of o) = 1 ∧ bitAt (t.get (H.STICKY 0xA)) Ev.SHARE.CLAIMED = true)
    ∧ (1 ≤ r.toNat → r.toNat ≤ 4 → s.holds o .operator = true → s.get (R.SHARE.OWNER_STATE r.toNat) ≠ 0 → s.holdsComparator o r.toNat = false →
      ∃ t : State, exec (.shareClaim o r) s = .next t ∧ t.get (R.SHARE.OWNER_ORIGIN r.toNat) = s.get (R.SHARE.OWNER_ORIGIN r.toNat)
        ∧ t.get (R.SHARE.OWNER_FUNC r.toNat) = s.get (R.SHARE.OWNER_FUNC r.toNat) ∧ t.get (R.SHARE.CLAIM_STATUS_RESULT.of o) = 2
        ∧ (s.get (H.VALID 0xA) = 0 → t.get (H.CODE 0xA) = E.SHARE_HELD))
    ∧ (r.toNat = 0 ∨ r.toNat = 5 ∨ r.toNat = 6 → ∃ t : State, exec (.shareClaim o r) s = .next t ∧ t.get (R.SHARE.CLAIM_STATUS_RESULT.of o) = 3
      ∧ t.get (R.SHARE.OWNER_BLOCK r.toNat) = s.get (R.SHARE.OWNER_BLOCK r.toNat) ∧ (s.get (H.VALID 0xA) = 0 → t.get (H.CODE 0xA) = E.SHARE_NOT_ALLOWED))
    ∧ (1 ≤ r.toNat → r.toNat ≤ 4 → s.holdsComparator o r.toNat = true ∨ s.holds o .installer = true →
      ∃ t : State, exec (.shareRelease o r) s = .next t ∧ t.get (R.SHARE.OWNER_STATE r.toNat) = 0 ∧ t.get (R.SHARE.CLAIM_STATUS_RESULT.of o) = 1)
    ∧ (1 ≤ r.toNat → r.toNat ≤ 4 → s.holdsComparator o r.toNat = false → s.holds o .installer = false →
      ∃ t : State, exec (.shareRelease o r) s = .next t ∧ t.get (R.SHARE.OWNER_STATE r.toNat) = s.get (R.SHARE.OWNER_STATE r.toNat) ∧ t.get (R.SHARE.CLAIM_STATUS_RESULT.of o) = 3)
    ∧ (r.toNat = 5 → s.holds o .installer = true →
      (∃ t : State, exec (.shareRelease o r) s = .next t ∧ t.get (R.SHARE.OWNER_BLOCK 5) = 3 ∧ t.get (R.SHARE.OWNER_STATE 5) = 1)
      ∧ (∃ t : State, exec (.shareAssign o r 0x0B) s = .next t ∧ t.get (R.SHARE.OWNER_BLOCK 5) = 0x0B ∧ t.get (R.SHARE.CLAIM_STATUS_RESULT.of o) = 1)
      ∧ (∃ t : State, exec (.shareAssign o r 0x13) s = .next t ∧ t.get (R.SHARE.OWNER_BLOCK 5) = s.get (R.SHARE.OWNER_BLOCK 5) ∧ t.refusal = some 0x0B01))
    ∧ (∀ blk : BitVec 8, r.toNat = 0 → blk = 0x13 ∨ blk = 0x50 → s.holds o .installer = true →
      (s.ballBusy = false → ∃ t : State, exec (.shareAssign o r blk) s = .next t ∧ t.get (R.SHARE.OWNER_BLOCK 0) = blk.toNat ∧ t.get (R.SHARE.OWNER_STATE 0) = 1)
      ∧ (s.ballBusy = true → ∃ t : State, exec (.shareAssign o r blk) s = .next t ∧ t.get (R.SHARE.OWNER_BLOCK 0) = s.get (R.SHARE.OWNER_BLOCK 0)
        ∧ t.get (R.SHARE.CLAIM_STATUS_RESULT.of o) = 2)))
  ∧ (∀ (s : State) (b : Bool), s.get (R.SHARE.OWNER_BLOCK 5) = 0x0B → s.get R.PWR.MODE_MODE ≠ 0 →
    ∃ t : State, exec (.gpioEdge b) s = .next t ∧ t.get R.SHARE.GPIO_LEVEL = b2n b ∧ bitAt (t.get (H.STICKY 0xA)) Ev.SHARE.GPIO_EDGE = true)
/-- The model's invariant of its memories, with R577 and R593 over every command. -/
def Obligations.EveryStepKeepsMemoriesAndOtp : Prop :=
  ∀ s t : State, step s = .next t → s.mem.wf = true → memWf s.trust.otp = true →
    t.mem.wf = true ∧ memWf t.trust.otp = true ∧ t.pending = s.pending.tail
      ∧ (∀ (a i : Nat), (memRead s.trust.otp a).getLsbD i = true → (memRead t.trust.otp a).getLsbD i = true)
      ∧ s.trust.auditSeq ≤ t.trust.auditSeq

/-- R37, R572, R575, R602, R614, R621, R646. -/
def Obligations.ResetIsAsTheRulesSay : Prop :=
  State.reset.pending = [] ∧ State.reset.mem.wf = true ∧ memWf State.reset.trust.otp = true
  ∧ (∀ p : Nat, State.reset.get (H.ENABLE p) = 1 ∧ State.reset.get (H.MASK p) = 0 ∧ State.reset.get (H.STICKY p) = 0 ∧ State.reset.get (H.VALID p) = 0
    ∧ State.reset.get (H.RETIRED p) = 0)
  ∧ (∀ f : Fld, State.reset.get f = resetOf f)
  ∧ State.reset.get R.PWR.MODE_MODE = 2 ∧ State.reset.get R.PWR.MODE_PREV = 2 ∧ State.reset.get R.CLK.DOMAINS_RUNNING = 0x1F
  ∧ State.reset.get R.ROLE.IDLE_S_S = 600 ∧ State.reset.get R.FAULT.AEN_SEV_MASK = 12
  ∧ State.reset.get (R.SHARE.OWNER_STATE 5) = 1 ∧ State.reset.get (R.SHARE.OWNER_BLOCK 5) = 3
  ∧ State.reset.get (R.SHARE.OWNER_STATE 6) = 2 ∧ State.reset.get (R.SHARE.OWNER_FUNC 6) = 0x1F1
  ∧ State.reset.take.c = none ∧ State.reset.trust.sessions = [] ∧ State.reset.keys.kekMedia = none ∧ State.reset.tenant.fns = []
  ∧ (∀ c : Fin 72, State.reset.cores[c].state = .off)
  ∧ ∃ t : State, step State.reset = .next t ∧ t = { State.reset with time := 10, freeNext := 1, cores := t.cores } ∧ ∀ c : Fin 72, t.cores[c].state = .off
end

