-- ==== Sys2Proof/Laws/Frame.lean ====
section
/-!
SUPPORT. What an operation leaves alone, said once for each operation. `forget T s` is `s` with the fields whose bits are set in `T` put back to
their reset values (the bits are numbered in `forget`); a lemma `f_frame` says that `f` changes nothing outside its fields.
-/

namespace Sys2Proof.Laws

open Sys2Proof.Machine

/-- The field `x` if bit `i` of `T` is clear, else `d`. -/
def keep {α : Type} (T i : Nat) (d x : α) : α := bif T.testBit i then d else x

/-- `s` without the fields in `T`. -/
def forget (T : Nat) (s : State) : State :=
  {
    pending := keep T 0 State.reset.pending s.pending
    time := keep T 1 State.reset.time s.time
    freeNext := keep T 2 State.reset.freeNext s.freeNext
    rtcBase := keep T 3 State.reset.rtcBase s.rtcBase
    rtcAt := keep T 4 State.reset.rtcAt s.rtcAt
    regs := keep T 5 State.reset.regs s.regs
    latches := keep T 6 State.reset.latches s.latches
    lows := keep T 7 State.reset.lows s.lows
    readData := keep T 8 State.reset.readData s.readData
    refusal := keep T 9 State.reset.refusal s.refusal
    fault := keep T 10 State.reset.fault s.fault
    trust := keep T 11 State.reset.trust s.trust
    gate := keep T 12 State.reset.gate s.gate
    take := keep T 13 State.reset.take s.take
    trig := keep T 14 State.reset.trig s.trig
    lanes := keep T 15 State.reset.lanes s.lanes
    jobs := keep T 16 State.reset.jobs s.jobs
    nand := keep T 17 State.reset.nand s.nand
    media := keep T 18 State.reset.media s.media
    array := keep T 19 State.reset.array s.array
    keys := keep T 20 State.reset.keys s.keys
    ns := keep T 21 State.reset.ns s.ns
    mem := keep T 22 State.reset.mem s.mem
    xlate := keep T 23 State.reset.xlate s.xlate
    cores := keep T 24 State.reset.cores s.cores
    clusters := keep T 25 State.reset.clusters s.clusters
    mcLoad := keep T 26 State.reset.mcLoad s.mcLoad
    tenant := keep T 27 State.reset.tenant s.tenant
    pwr := keep T 28 State.reset.pwr s.pwr
    ear := keep T 29 State.reset.ear s.ear
    feeds := keep T 30 State.reset.feeds s.feeds
    host := keep T 31 State.reset.host s.host
    dram := keep T 32 State.reset.dram s.dram
    drove := keep T 33 State.reset.drove s.drove
    rises := keep T 34 State.reset.rises s.rises
    tally := keep T 35 State.reset.tally s.tally
    slewed := keep T 36 State.reset.slewed s.slewed
  }

/-- Every bit of `a` is in `b`. -/
def sub (a b : Nat) : Bool := a &&& b == a

theorem sub_bit {a b : Nat} (h : sub a b = true) {i : Nat} (hi : a.testBit i = true) : b.testBit i = true := by
  have e : a &&& b = a := by simpa [sub] using h
  rw [← e, Nat.testBit_and] at hi
  simp only [Bool.and_eq_true] at hi
  exact hi.2

theorem keep_off {α : Type} {T i : Nat} {d x : α} (h : T.testBit i = true) : keep T i d x = d := by simp [keep, h]
theorem keep_on {α : Type} {T i : Nat} {d x : α} (h : T.testBit i = false) : keep T i d x = x := by simp [keep, h]

theorem keep_keep {α : Type} {A B : Nat} (h : sub A B = true) (i : Nat) (d x : α) : keep B i d (keep A i d x) = keep B i d x := by
  cases hb : B.testBit i with
  | true => rw [keep_off hb, keep_off hb]
  | false =>
    have ha : A.testBit i = false := by
      cases ha : A.testBit i with
      | false => rfl
      | true => rw [sub_bit h ha] at hb; exact absurd hb (by decide)
    rw [keep_on ha]

theorem forget_forget {A B : Nat} (h : sub A B = true) (s : State) : forget B (forget A s) = forget B s := by
  simp only [forget, keep_keep h]

/-- What is unchanged outside `A` is unchanged outside a larger `B`. -/
theorem widen {A : Nat} (B : Nat) {s t : State} (h : sub A B = true) (e : forget A t = forget A s) : forget B t = forget B s := by
  rw [← forget_forget h t, e, forget_forget h s]

/-- A step of a program carried in `T` that changes nothing outside it leaves the whole run so. -/
theorem foldl_frame (T : Nat) {β : Type} (g : State → β → State) (h : ∀ s x, forget T (g s x) = forget T s) (l : List β) (s : State) :
    forget T (l.foldl g s) = forget T s := by
  induction l generalizing s with
  | nil => rfl
  | cons x xs ih => rw [List.foldl_cons, ih, h]

/-- The outcome without the fields in `T`. -/
def forgetOut (T : Nat) : Out → Out
  | .next s => .next (forget T s)
  | o => o

theorem set_pending {T : Nat} (h : T.testBit 0 = true) (s : State) (v : List Instr) : forget T { s with pending := v } = forget T s := by
  simp only [forget, keep_off h]
theorem set_time {T : Nat} (h : T.testBit 1 = true) (s : State) (v : Nat) : forget T { s with time := v } = forget T s := by
  simp only [forget, keep_off h]
theorem set_freeNext {T : Nat} (h : T.testBit 2 = true) (s : State) (v : Nat) : forget T { s with freeNext := v } = forget T s := by
  simp only [forget, keep_off h]
theorem set_rtcBase {T : Nat} (h : T.testBit 3 = true) (s : State) (v : Nat) : forget T { s with rtcBase := v } = forget T s := by
  simp only [forget, keep_off h]
theorem set_rtcAt {T : Nat} (h : T.testBit 4 = true) (s : State) (v : Nat) : forget T { s with rtcAt := v } = forget T s := by
  simp only [forget, keep_off h]
theorem set_slewed {T : Nat} (h : T.testBit 36 = true) (s : State) (v : Nat) : forget T { s with slewed := v } = forget T s := by
  simp only [forget, keep_off h]
theorem set_regs {T : Nat} (h : T.testBit 5 = true) (s : State) (v : List (Fld × Nat)) : forget T { s with regs := v } = forget T s := by
  simp only [forget, keep_off h]
theorem set_latches {T : Nat} (h : T.testBit 6 = true) (s : State) (v : List Latch) : forget T { s with latches := v } = forget T s := by
  simp only [forget, keep_off h]
theorem set_lows {T : Nat} (h : T.testBit 7 = true) (s : State) (v : List PendLow) : forget T { s with lows := v } = forget T s := by
  simp only [forget, keep_off h]
theorem set_readData {T : Nat} (h : T.testBit 8 = true) (s : State) (v : List (Origin × Nat)) : forget T { s with readData := v } = forget T s := by
  simp only [forget, keep_off h]
theorem set_refusal {T : Nat} (h : T.testBit 9 = true) (s : State) (v : Option Nat) : forget T { s with refusal := v } = forget T s := by
  simp only [forget, keep_off h]
theorem set_fault {T : Nat} (h : T.testBit 10 = true) (s : State) (v : FaultSt) : forget T { s with fault := v } = forget T s := by
  simp only [forget, keep_off h]
theorem set_trust {T : Nat} (h : T.testBit 11 = true) (s : State) (v : TrustSt) : forget T { s with trust := v } = forget T s := by
  simp only [forget, keep_off h]
theorem set_gate {T : Nat} (h : T.testBit 12 = true) (s : State) (v : GateSt) : forget T { s with gate := v } = forget T s := by
  simp only [forget, keep_off h]
theorem set_take {T : Nat} (h : T.testBit 13 = true) (s : State) (v : TakeSt) : forget T { s with take := v } = forget T s := by
  simp only [forget, keep_off h]
theorem set_trig {T : Nat} (h : T.testBit 14 = true) (s : State) (v : TrigSt) : forget T { s with trig := v } = forget T s := by
  simp only [forget, keep_off h]
theorem set_lanes {T : Nat} (h : T.testBit 15 = true) (s : State) (v : Vector LaneSt 12) : forget T { s with lanes := v } = forget T s := by
  simp only [forget, keep_off h]
theorem set_jobs {T : Nat} (h : T.testBit 16 = true) (s : State) (v : JobsSt) : forget T { s with jobs := v } = forget T s := by
  simp only [forget, keep_off h]
theorem set_nand {T : Nat} (h : T.testBit 17 = true) (s : State) (v : NandSt) : forget T { s with nand := v } = forget T s := by
  simp only [forget, keep_off h]
theorem set_media {T : Nat} (h : T.testBit 18 = true) (s : State) (v : MediaSt) : forget T { s with media := v } = forget T s := by
  simp only [forget, keep_off h]
theorem set_array {T : Nat} (h : T.testBit 19 = true) (s : State) (v : ArraySt) : forget T { s with array := v } = forget T s := by
  simp only [forget, keep_off h]
theorem set_keys {T : Nat} (h : T.testBit 20 = true) (s : State) (v : KeySt) : forget T { s with keys := v } = forget T s := by
  simp only [forget, keep_off h]
theorem set_ns {T : Nat} (h : T.testBit 21 = true) (s : State) (v : List Ns) : forget T { s with ns := v } = forget T s := by
  simp only [forget, keep_off h]
theorem set_mem {T : Nat} (h : T.testBit 22 = true) (s : State) (v : MemSt) : forget T { s with mem := v } = forget T s := by
  simp only [forget, keep_off h]
theorem set_xlate {T : Nat} (h : T.testBit 23 = true) (s : State) (v : List XEnt) : forget T { s with xlate := v } = forget T s := by
  simp only [forget, keep_off h]
theorem set_cores {T : Nat} (h : T.testBit 24 = true) (s : State) (v : Vector Core 72) : forget T { s with cores := v } = forget T s := by
  simp only [forget, keep_off h]
theorem set_clusters {T : Nat} (h : T.testBit 25 = true) (s : State) (v : Vector Cluster 9) : forget T { s with clusters := v } = forget T s := by
  simp only [forget, keep_off h]
theorem set_mcLoad {T : Nat} (h : T.testBit 26 = true) (s : State) (v : Option McLoad) : forget T { s with mcLoad := v } = forget T s := by
  simp only [forget, keep_off h]
theorem set_tenant {T : Nat} (h : T.testBit 27 = true) (s : State) (v : TenantSt) : forget T { s with tenant := v } = forget T s := by
  simp only [forget, keep_off h]
theorem set_pwr {T : Nat} (h : T.testBit 28 = true) (s : State) (v : PwrSt) : forget T { s with pwr := v } = forget T s := by
  simp only [forget, keep_off h]
theorem set_ear {T : Nat} (h : T.testBit 29 = true) (s : State) (v : EarmarkSt) : forget T { s with ear := v } = forget T s := by
  simp only [forget, keep_off h]
theorem set_feeds {T : Nat} (h : T.testBit 30 = true) (s : State) (v : List Feed) : forget T { s with feeds := v } = forget T s := by
  simp only [forget, keep_off h]
theorem set_host {T : Nat} (h : T.testBit 31 = true) (s : State) (v : HostSt) : forget T { s with host := v } = forget T s := by
  simp only [forget, keep_off h]
theorem set_dram {T : Nat} (h : T.testBit 32 = true) (s : State) (v : DramSt) : forget T { s with dram := v } = forget T s := by
  simp only [forget, keep_off h]
theorem set_drove {T : Nat} (h : T.testBit 33 = true) (s : State) (v : DroveSt) : forget T { s with drove := v } = forget T s := by
  simp only [forget, keep_off h]
theorem set_rises {T : Nat} (h : T.testBit 34 = true) (s : State) (v : List Rise) : forget T { s with rises := v } = forget T s := by
  simp only [forget, keep_off h]
theorem set_tally {T : Nat} (h : T.testBit 35 = true) (s : State) (v : TallySt) : forget T { s with tally := v } = forget T s := by
  simp only [forget, keep_off h]

theorem keeps_pending {T : Nat} {s t : State} (e : forget T t = forget T s) (h : T.testBit 0 = false) : t.pending = s.pending := by
  have := congrArg State.pending e
  simpa only [forget, keep_on h] using this
theorem keeps_time {T : Nat} {s t : State} (e : forget T t = forget T s) (h : T.testBit 1 = false) : t.time = s.time := by
  have := congrArg State.time e
  simpa only [forget, keep_on h] using this
theorem keeps_freeNext {T : Nat} {s t : State} (e : forget T t = forget T s) (h : T.testBit 2 = false) : t.freeNext = s.freeNext := by
  have := congrArg State.freeNext e
  simpa only [forget, keep_on h] using this
theorem keeps_rtcBase {T : Nat} {s t : State} (e : forget T t = forget T s) (h : T.testBit 3 = false) : t.rtcBase = s.rtcBase := by
  have := congrArg State.rtcBase e
  simpa only [forget, keep_on h] using this
theorem keeps_rtcAt {T : Nat} {s t : State} (e : forget T t = forget T s) (h : T.testBit 4 = false) : t.rtcAt = s.rtcAt := by
  have := congrArg State.rtcAt e
  simpa only [forget, keep_on h] using this
theorem keeps_slewed {T : Nat} {s t : State} (e : forget T t = forget T s) (h : T.testBit 36 = false) : t.slewed = s.slewed := by
  have := congrArg State.slewed e
  simpa only [forget, keep_on h] using this
theorem keeps_regs {T : Nat} {s t : State} (e : forget T t = forget T s) (h : T.testBit 5 = false) : t.regs = s.regs := by
  have := congrArg State.regs e
  simpa only [forget, keep_on h] using this
theorem keeps_latches {T : Nat} {s t : State} (e : forget T t = forget T s) (h : T.testBit 6 = false) : t.latches = s.latches := by
  have := congrArg State.latches e
  simpa only [forget, keep_on h] using this
theorem keeps_lows {T : Nat} {s t : State} (e : forget T t = forget T s) (h : T.testBit 7 = false) : t.lows = s.lows := by
  have := congrArg State.lows e
  simpa only [forget, keep_on h] using this
theorem keeps_readData {T : Nat} {s t : State} (e : forget T t = forget T s) (h : T.testBit 8 = false) : t.readData = s.readData := by
  have := congrArg State.readData e
  simpa only [forget, keep_on h] using this
theorem keeps_refusal {T : Nat} {s t : State} (e : forget T t = forget T s) (h : T.testBit 9 = false) : t.refusal = s.refusal := by
  have := congrArg State.refusal e
  simpa only [forget, keep_on h] using this
theorem keeps_fault {T : Nat} {s t : State} (e : forget T t = forget T s) (h : T.testBit 10 = false) : t.fault = s.fault := by
  have := congrArg State.fault e
  simpa only [forget, keep_on h] using this
theorem keeps_trust {T : Nat} {s t : State} (e : forget T t = forget T s) (h : T.testBit 11 = false) : t.trust = s.trust := by
  have := congrArg State.trust e
  simpa only [forget, keep_on h] using this
theorem keeps_gate {T : Nat} {s t : State} (e : forget T t = forget T s) (h : T.testBit 12 = false) : t.gate = s.gate := by
  have := congrArg State.gate e
  simpa only [forget, keep_on h] using this
theorem keeps_take {T : Nat} {s t : State} (e : forget T t = forget T s) (h : T.testBit 13 = false) : t.take = s.take := by
  have := congrArg State.take e
  simpa only [forget, keep_on h] using this
theorem keeps_trig {T : Nat} {s t : State} (e : forget T t = forget T s) (h : T.testBit 14 = false) : t.trig = s.trig := by
  have := congrArg State.trig e
  simpa only [forget, keep_on h] using this
theorem keeps_lanes {T : Nat} {s t : State} (e : forget T t = forget T s) (h : T.testBit 15 = false) : t.lanes = s.lanes := by
  have := congrArg State.lanes e
  simpa only [forget, keep_on h] using this
theorem keeps_jobs {T : Nat} {s t : State} (e : forget T t = forget T s) (h : T.testBit 16 = false) : t.jobs = s.jobs := by
  have := congrArg State.jobs e
  simpa only [forget, keep_on h] using this
theorem keeps_nand {T : Nat} {s t : State} (e : forget T t = forget T s) (h : T.testBit 17 = false) : t.nand = s.nand := by
  have := congrArg State.nand e
  simpa only [forget, keep_on h] using this
theorem keeps_media {T : Nat} {s t : State} (e : forget T t = forget T s) (h : T.testBit 18 = false) : t.media = s.media := by
  have := congrArg State.media e
  simpa only [forget, keep_on h] using this
theorem keeps_array {T : Nat} {s t : State} (e : forget T t = forget T s) (h : T.testBit 19 = false) : t.array = s.array := by
  have := congrArg State.array e
  simpa only [forget, keep_on h] using this
theorem keeps_keys {T : Nat} {s t : State} (e : forget T t = forget T s) (h : T.testBit 20 = false) : t.keys = s.keys := by
  have := congrArg State.keys e
  simpa only [forget, keep_on h] using this
theorem keeps_ns {T : Nat} {s t : State} (e : forget T t = forget T s) (h : T.testBit 21 = false) : t.ns = s.ns := by
  have := congrArg State.ns e
  simpa only [forget, keep_on h] using this
theorem keeps_mem {T : Nat} {s t : State} (e : forget T t = forget T s) (h : T.testBit 22 = false) : t.mem = s.mem := by
  have := congrArg State.mem e
  simpa only [forget, keep_on h] using this
theorem keeps_xlate {T : Nat} {s t : State} (e : forget T t = forget T s) (h : T.testBit 23 = false) : t.xlate = s.xlate := by
  have := congrArg State.xlate e
  simpa only [forget, keep_on h] using this
theorem keeps_cores {T : Nat} {s t : State} (e : forget T t = forget T s) (h : T.testBit 24 = false) : t.cores = s.cores := by
  have := congrArg State.cores e
  simpa only [forget, keep_on h] using this
theorem keeps_clusters {T : Nat} {s t : State} (e : forget T t = forget T s) (h : T.testBit 25 = false) : t.clusters = s.clusters := by
  have := congrArg State.clusters e
  simpa only [forget, keep_on h] using this
theorem keeps_mcLoad {T : Nat} {s t : State} (e : forget T t = forget T s) (h : T.testBit 26 = false) : t.mcLoad = s.mcLoad := by
  have := congrArg State.mcLoad e
  simpa only [forget, keep_on h] using this
theorem keeps_tenant {T : Nat} {s t : State} (e : forget T t = forget T s) (h : T.testBit 27 = false) : t.tenant = s.tenant := by
  have := congrArg State.tenant e
  simpa only [forget, keep_on h] using this
theorem keeps_pwr {T : Nat} {s t : State} (e : forget T t = forget T s) (h : T.testBit 28 = false) : t.pwr = s.pwr := by
  have := congrArg State.pwr e
  simpa only [forget, keep_on h] using this
theorem keeps_ear {T : Nat} {s t : State} (e : forget T t = forget T s) (h : T.testBit 29 = false) : t.ear = s.ear := by
  have := congrArg State.ear e
  simpa only [forget, keep_on h] using this
theorem keeps_feeds {T : Nat} {s t : State} (e : forget T t = forget T s) (h : T.testBit 30 = false) : t.feeds = s.feeds := by
  have := congrArg State.feeds e
  simpa only [forget, keep_on h] using this
theorem keeps_host {T : Nat} {s t : State} (e : forget T t = forget T s) (h : T.testBit 31 = false) : t.host = s.host := by
  have := congrArg State.host e
  simpa only [forget, keep_on h] using this
theorem keeps_dram {T : Nat} {s t : State} (e : forget T t = forget T s) (h : T.testBit 32 = false) : t.dram = s.dram := by
  have := congrArg State.dram e
  simpa only [forget, keep_on h] using this
theorem keeps_drove {T : Nat} {s t : State} (e : forget T t = forget T s) (h : T.testBit 33 = false) : t.drove = s.drove := by
  have := congrArg State.drove e
  simpa only [forget, keep_on h] using this
theorem keeps_rises {T : Nat} {s t : State} (e : forget T t = forget T s) (h : T.testBit 34 = false) : t.rises = s.rises := by
  have := congrArg State.rises e
  simpa only [forget, keep_on h] using this
theorem keeps_tally {T : Nat} {s t : State} (e : forget T t = forget T s) (h : T.testBit 35 = false) : t.tally = s.tally := by
  have := congrArg State.tally e
  simpa only [forget, keep_on h] using this

end Sys2Proof.Laws
end

