-- ==== Sys2Proof/Laws/Mem.lean ====
section
/-!
SUPPORT. The laws of memory: a read gives what was written last, and every operation keeps the canonical form of its list.
-/

namespace Sys2Proof.Laws

open Sys2Proof.Machine

/-! ### The canonical form -/

/-- The canonical form said of the head: its value is not 0, and every later address is above it. -/
theorem memWf_cons (k : Nat) (v : Byte) (m : List (Nat × Byte)) :
    memWf ((k, v) :: m) = true ↔ v ≠ 0 ∧ (∀ x ∈ m, k < x.1) ∧ memWf m = true := by
  induction m generalizing k v with
  | nil => simp [memWf]
  | cons x m ih =>
    obtain ⟨k', v'⟩ := x
    have h := ih k' v'
    simp only [memWf, Bool.and_eq_true, bne_iff_ne, ne_eq, decide_eq_true_eq, List.mem_cons, forall_eq_or_imp]
    constructor
    · rintro ⟨⟨hv, hk⟩, hw⟩
      exact ⟨hv, ⟨hk, fun y hy => Nat.lt_trans hk ((h.mp hw).2.1 y hy)⟩, hw⟩
    · rintro ⟨hv, ⟨hk, _⟩, hw⟩
      exact ⟨⟨hv, hk⟩, hw⟩

theorem memRead_above {m : List (Nat × Byte)} {a : Nat} (h : ∀ x ∈ m, a < x.1) : memRead m a = 0 := by
  induction m with
  | nil => rfl
  | cons x m ih =>
    have hk := h x (by simp)
    have hne : (x.1 == a) = false := by simp; omega
    simp only [memRead, hne]
    exact ih fun y hy => h y (by simp [hy])

/-- The addresses a write lists are those listed before and its own. -/
theorem memWrite_addr {m : List (Nat × Byte)} {a : Nat} {b : Byte} {x : Nat × Byte} (h : x ∈ memWrite m a b) : x.1 = a ∨ x ∈ m := by
  induction m with
  | nil =>
    simp only [memWrite] at h
    split at h
    · cases h
    · simp only [List.mem_singleton] at h; exact .inl (by rw [h])
  | cons y m ih =>
    obtain ⟨k, v⟩ := y
    simp only [memWrite] at h
    split at h
    · split at h
      · exact .inr h
      · rcases List.mem_cons.mp h with rfl | h
        · exact .inl rfl
        · exact .inr h
    · split at h
      · split at h
        · exact .inr (List.mem_cons_of_mem _ h)
        · rcases List.mem_cons.mp h with rfl | h
          · exact .inl rfl
          · exact .inr (List.mem_cons_of_mem _ h)
      · rcases List.mem_cons.mp h with rfl | h
        · exact .inr (List.mem_cons_self ..)
        · rcases ih h with h | h
          · exact .inl h
          · exact .inr (List.mem_cons_of_mem _ h)

/-- A write keeps the canonical form. -/
theorem memWrite_wf {m : List (Nat × Byte)} (h : memWf m = true) (a : Nat) (b : Byte) : memWf (memWrite m a b) = true := by
  induction m with
  | nil =>
    cases hb : b == 0
    · simp only [memWrite, hb, memWf, bne, Bool.not_false, Bool.false_eq_true, if_false]
    · simp only [memWrite, hb, if_true, memWf]
  | cons y m ih =>
    obtain ⟨k, v⟩ := y
    obtain ⟨hv, hk, hm⟩ := (memWf_cons k v m).mp h
    simp only [memWrite]
    split
    · rename_i hlt
      split
      · exact h
      · rename_i hb
        refine (memWf_cons a b _).mpr ⟨by simpa using hb, ?_, h⟩
        intro x hx
        rcases List.mem_cons.mp hx with rfl | hx
        · exact hlt
        · exact Nat.lt_trans hlt (hk x hx)
    · rename_i hlt
      split
      · rename_i he
        have he : a = k := by simpa using he
        split
        · exact hm
        · rename_i hb
          exact (memWf_cons a b m).mpr ⟨by simpa using hb, he ▸ hk, hm⟩
      · rename_i he
        have he : a ≠ k := by simpa using he
        refine (memWf_cons k v _).mpr ⟨hv, ?_, ih hm⟩
        intro x hx
        rcases memWrite_addr hx with hx | hx
        · omega
        · exact hk x hx

/-- Reading the byte written gives it. -/
theorem memRead_memWrite_same {m : List (Nat × Byte)} (h : memWf m = true) (a : Nat) (b : Byte) : memRead (memWrite m a b) a = b := by
  induction m with
  | nil =>
    cases hb : b == 0
    · simp only [memWrite, hb, memRead, Bool.false_eq_true, if_false, beq_self_eq_true, if_true]
    · simpa only [memWrite, hb, if_true, memRead] using (beq_iff_eq.mp hb).symm
  | cons y m ih =>
    obtain ⟨k, v⟩ := y
    obtain ⟨hv, hk, hm⟩ := (memWf_cons k v m).mp h
    simp only [memWrite]
    split
    · rename_i hlt
      split
      · rename_i hb
        rw [memRead_above]
        · simpa using (beq_iff_eq.mp hb).symm
        · intro x hx
          rcases List.mem_cons.mp hx with rfl | hx
          · exact hlt
          · exact Nat.lt_trans hlt (hk x hx)
      · simp [memRead]
    · split
      · rename_i he
        have he : a = k := by simpa using he
        split
        · rename_i hb
          rw [memRead_above]
          · simpa using (beq_iff_eq.mp hb).symm
          · intro x hx; rw [he]; exact hk x hx
        · simp [memRead]
      · rename_i he
        have he : (k == a) = false := by simpa using fun e : k = a => he (by simp [e])
        simp only [memRead, he]
        exact ih hm

/-- Every other byte reads as before. -/
theorem memRead_memWrite_other {m : List (Nat × Byte)} (h : memWf m = true) (a : Nat) (b : Byte) {c : Nat} (hc : c ≠ a) :
    memRead (memWrite m a b) c = memRead m c := by
  induction m with
  | nil =>
    have hac : (a == c) = false := by simpa using fun e : a = c => hc e.symm
    cases hb : b == 0
    · simp only [memWrite, hb, memRead, Bool.false_eq_true, if_false, hac]
    · simp only [memWrite, hb, if_true]
  | cons y m ih =>
    obtain ⟨k, v⟩ := y
    obtain ⟨hv, hk, hm⟩ := (memWf_cons k v m).mp h
    have hac : (a == c) = false := by simpa using fun e : a = c => hc e.symm
    simp only [memWrite]
    split
    · split
      · rfl
      · simp [memRead, hac]
    · split
      · rename_i he
        have he : a = k := by simpa using he
        subst he
        split
        · simp [memRead, hac]
        · simp [memRead, hac]
      · by_cases hkc : k = c
        · simp [memRead, hkc]
        · have hkc : (k == c) = false := by simpa using hkc
          simp only [memRead, hkc]
          exact ih hm

/-! ### Byte strings -/

theorem memWriteN_wf {m : List (Nat × Byte)} (h : memWf m = true) (a : Nat) (bs : Bytes) : memWf (memWriteN m a bs) = true := by
  induction bs generalizing m a with
  | nil => exact h
  | cons b bs ih => exact ih (memWrite_wf h a b) (a + 1)

/-- A byte outside the written ones reads as before. -/
theorem memRead_memWriteN_other {m : List (Nat × Byte)} (h : memWf m = true) {a c : Nat} {bs : Bytes} (hc : c < a ∨ a + bs.length ≤ c) :
    memRead (memWriteN m a bs) c = memRead m c := by
  induction bs generalizing m a with
  | nil => rfl
  | cons b bs ih =>
    simp only [List.length_cons] at hc
    rw [memWriteN, ih (memWrite_wf h a b) (by omega), memRead_memWrite_other h a b (by omega)]

/-- A byte among the written ones reads as written. -/
theorem memRead_memWriteN_same {m : List (Nat × Byte)} (h : memWf m = true) {a i : Nat} {bs : Bytes} (hi : i < bs.length) :
    memRead (memWriteN m a bs) (a + i) = bs[i] := by
  induction bs generalizing m a i with
  | nil => cases hi
  | cons b bs ih =>
    cases i with
    | zero => rw [Nat.add_zero, memWriteN, memRead_memWriteN_other (memWrite_wf h a b) (by omega), memRead_memWrite_same h]; rfl
    | succ i =>
      have e : a + (i + 1) = a + 1 + i := by omega
      rw [memWriteN, e, ih (memWrite_wf h a b) (by simpa using hi)]; rfl

theorem length_memReadN (m : List (Nat × Byte)) (a n : Nat) : (memReadN m a n).length = n := by
  induction n generalizing a with
  | zero => rfl
  | succ n ih => simp [memReadN, ih]

theorem memReadN_getElem (m : List (Nat × Byte)) (a n i : Nat) (h : i < (memReadN m a n).length) : (memReadN m a n)[i] = memRead m (a + i) := by
  induction n generalizing a i with
  | zero => cases h
  | succ n ih =>
    cases i with
    | zero => rfl
    | succ i =>
      have e : a + (i + 1) = a + 1 + i := by omega
      simp only [memReadN, List.getElem_cons_succ, e]
      exact ih (a + 1) i _

/-- Reading back what was written. -/
theorem memReadN_memWriteN {m : List (Nat × Byte)} (h : memWf m = true) (a : Nat) (bs : Bytes) : memReadN (memWriteN m a bs) a bs.length = bs := by
  refine List.ext_getElem (length_memReadN ..) fun i h1 h2 => ?_
  rw [memReadN_getElem, memRead_memWriteN_same h h2]

/-- Dropping entries keeps the canonical form. -/
theorem memWf_filter {m : List (Nat × Byte)} (h : memWf m = true) (p : Nat × Byte → Bool) : memWf (m.filter p) = true := by
  induction m with
  | nil => rfl
  | cons y m ih =>
    obtain ⟨k, v⟩ := y
    obtain ⟨hv, hk, hm⟩ := (memWf_cons k v m).mp h
    simp only [List.filter_cons]
    split
    · exact (memWf_cons k v _).mpr ⟨hv, fun x hx => hk x (List.mem_filter.mp hx).1, ih hm⟩
    · exact ih hm

theorem memZero_wf {m : List (Nat × Byte)} (h : memWf m = true) (a n : Nat) : memWf (memZero m a n) = true := memWf_filter h _

/-- A zeroed byte reads 0, every other byte as before. -/
theorem memRead_memZero {m : List (Nat × Byte)} (a n c : Nat) : memRead (memZero m a n) c = if a ≤ c ∧ c < a + n then 0 else memRead m c := by
  induction m with
  | nil => simp [memZero, memRead]
  | cons y m ih =>
    obtain ⟨k, v⟩ := y
    simp only [memZero, List.filter_cons] at *
    by_cases hk : k = c
    · subst hk
      by_cases hr : a ≤ k ∧ k < a + n
      · have : decide (k < a ∨ a + n ≤ k) = false := by simp; omega
        simp only [this, Bool.false_eq_true, if_false, ih, hr, and_self, if_true]
      · have : decide (k < a ∨ a + n ≤ k) = true := by simp; omega
        simp [this, hr, memRead]
    · have hkc : (k == c) = false := by simpa using hk
      split
      · simp only [memRead, hkc]; exact ih
      · simp only [memRead, hkc]; exact ih

theorem memSetBit_wf {m : List (Nat × Byte)} (h : memWf m = true) (base i : Nat) (b : Bool) : memWf (memSetBit m base i b) = true :=
  memWrite_wf h _ _

/-! ### The four targets behind XLATE -/

theorem mem_set_wf {m : MemSt} (h : m.wf = true) (t : Target) {l : List (Nat × Byte)} (hl : memWf l = true) : (m.set t l).wf = true := by
  simp only [MemSt.wf, Bool.and_eq_true] at *
  cases t <;> simp [MemSt.set, hl, h]

theorem mem_at_wf {m : MemSt} (h : m.wf = true) (t : Target) : memWf (m.at t) = true := by
  simp only [MemSt.wf, Bool.and_eq_true] at h
  cases t <;> simp [MemSt.at, h]

@[simp] theorem mem_cleanse_at (m : MemSt) (t u : Target) (a n : Nat) : (m.cleanse t a n).at u = m.at u := by
  unfold MemSt.cleanse; split <;> cases u <;> rfl

theorem mem_cleanse_wf {m : MemSt} (h : m.wf = true) (t : Target) (a n : Nat) : (m.cleanse t a n).wf = true := by
  unfold MemSt.cleanse; split <;> exact h

theorem mem_write_wf {m : MemSt} (h : m.wf = true) (t : Target) (a : Nat) (bs : Bytes) : (m.write t a bs).wf = true :=
  mem_cleanse_wf (mem_set_wf h t (memWriteN_wf (mem_at_wf h t) a bs)) _ _ _

@[simp] theorem mem_set_at_same (m : MemSt) (t : Target) (l : List (Nat × Byte)) : (m.set t l).at t = l := by cases t <;> rfl
theorem mem_set_at_other (m : MemSt) {t u : Target} (l : List (Nat × Byte)) (h : u ≠ t) : (m.set t l).at u = m.at u := by
  cases t <;> cases u <;> first | rfl | exact absurd rfl h

/-- A write to a target is read back, and the other targets are as before. -/
theorem mem_read_write {m : MemSt} (h : m.wf = true) (t : Target) (a : Nat) (bs : Bytes) : (m.write t a bs).read t a bs.length = bs := by
  simp only [MemSt.read, MemSt.write, mem_cleanse_at, mem_set_at_same]
  exact memReadN_memWriteN (mem_at_wf h t) a bs
theorem mem_write_other (m : MemSt) {t u : Target} (a : Nat) (bs : Bytes) (h : u ≠ t) : (m.write t a bs).at u = m.at u := by
  simp only [MemSt.write, mem_cleanse_at, mem_set_at_other _ _ h]

theorem xwriteAux_wf (x : List XEnt) (func : Nat) (ps : List (Nat × Nat)) (bs : Bytes) {m : MemSt} (h : m.wf = true) :
    (xwriteAux x func ps bs m).wf = true := by
  induction ps generalizing bs m with
  | nil => exact h
  | cons p ps ih =>
    obtain ⟨va, n⟩ := p
    refine ih _ ?_
    split
    · exact mem_write_wf h _ _ _
    · exact h

/-- An engine's write keeps the canonical form. -/
theorem xwrite_wf {s t : State} {func va : Nat} {bs : Bytes} (h : s.mem.wf = true) (e : s.xwrite func va bs = .ok t) : t.mem.wf = true := by
  unfold State.xwrite at e
  split at e
  · cases e
  · cases e; exact xwriteAux_wf _ _ _ _ h

theorem setCommonBit_wf {s : State} (h : s.mem.wf = true) (n : Nat) (b : Bool) : (s.setCommonBit n b).mem.wf = true := by
  simp only [MemSt.wf, Bool.and_eq_true, State.setCommonBit] at *
  exact ⟨⟨⟨h.1.1.1, memSetBit_wf h.1.1.2 0 n b⟩, h.1.2⟩, h.2⟩

theorem dptrWrite_wf (t : Target) (d : List DSeg) (bs : Bytes) {m : MemSt} (h : m.wf = true) : (dptrWrite t d bs m).wf = true := by
  induction d generalizing bs m with
  | nil => exact h
  | cons x d ih =>
    cases x with
    | block a n => exact ih _ (mem_write_wf h t a _)
    | bitBucket n => exact ih _ h

/-! ### At reset -/

theorem reset_mem_wf : State.reset.mem.wf = true := rfl

end Sys2Proof.Laws
end

