-- ==== Sys2Proof/Laws/State.lean ====
section
/-!
SUPPORT. One lemma for each field under each update of the state, so that no proof unfolds a record update, and what a register field reads
after a field was set.
-/

namespace Sys2Proof.Machine

/-! ### State.setGate -/

@[simp] theorem State.setGate_pending (s : State) (f : GateSt → GateSt) : (s.setGate f).pending = s.pending := rfl
@[simp] theorem State.setGate_time (s : State) (f : GateSt → GateSt) : (s.setGate f).time = s.time := rfl
@[simp] theorem State.setGate_freeNext (s : State) (f : GateSt → GateSt) : (s.setGate f).freeNext = s.freeNext := rfl
@[simp] theorem State.setGate_rtcBase (s : State) (f : GateSt → GateSt) : (s.setGate f).rtcBase = s.rtcBase := rfl
@[simp] theorem State.setGate_rtcAt (s : State) (f : GateSt → GateSt) : (s.setGate f).rtcAt = s.rtcAt := rfl
@[simp] theorem State.setGate_slewed (s : State) (f : GateSt → GateSt) : (s.setGate f).slewed = s.slewed := rfl
@[simp] theorem State.setGate_regs (s : State) (f : GateSt → GateSt) : (s.setGate f).regs = s.regs := rfl
@[simp] theorem State.setGate_latches (s : State) (f : GateSt → GateSt) : (s.setGate f).latches = s.latches := rfl
@[simp] theorem State.setGate_lows (s : State) (f : GateSt → GateSt) : (s.setGate f).lows = s.lows := rfl
@[simp] theorem State.setGate_readData (s : State) (f : GateSt → GateSt) : (s.setGate f).readData = s.readData := rfl
@[simp] theorem State.setGate_refusal (s : State) (f : GateSt → GateSt) : (s.setGate f).refusal = s.refusal := rfl
@[simp] theorem State.setGate_rises (s : State) (f : GateSt → GateSt) : (s.setGate f).rises = s.rises := rfl
@[simp] theorem State.setGate_fault (s : State) (f : GateSt → GateSt) : (s.setGate f).fault = s.fault := rfl
@[simp] theorem State.setGate_trust (s : State) (f : GateSt → GateSt) : (s.setGate f).trust = s.trust := rfl
@[simp] theorem State.setGate_gate (s : State) (f : GateSt → GateSt) : (s.setGate f).gate = f s.gate := rfl
@[simp] theorem State.setGate_take (s : State) (f : GateSt → GateSt) : (s.setGate f).take = s.take := rfl
@[simp] theorem State.setGate_trig (s : State) (f : GateSt → GateSt) : (s.setGate f).trig = s.trig := rfl
@[simp] theorem State.setGate_lanes (s : State) (f : GateSt → GateSt) : (s.setGate f).lanes = s.lanes := rfl
@[simp] theorem State.setGate_jobs (s : State) (f : GateSt → GateSt) : (s.setGate f).jobs = s.jobs := rfl
@[simp] theorem State.setGate_nand (s : State) (f : GateSt → GateSt) : (s.setGate f).nand = s.nand := rfl
@[simp] theorem State.setGate_media (s : State) (f : GateSt → GateSt) : (s.setGate f).media = s.media := rfl
@[simp] theorem State.setGate_array (s : State) (f : GateSt → GateSt) : (s.setGate f).array = s.array := rfl
@[simp] theorem State.setGate_tally (s : State) (f : GateSt → GateSt) : (s.setGate f).tally = s.tally := rfl
@[simp] theorem State.setGate_keys (s : State) (f : GateSt → GateSt) : (s.setGate f).keys = s.keys := rfl
@[simp] theorem State.setGate_ns (s : State) (f : GateSt → GateSt) : (s.setGate f).ns = s.ns := rfl
@[simp] theorem State.setGate_mem (s : State) (f : GateSt → GateSt) : (s.setGate f).mem = s.mem := rfl
@[simp] theorem State.setGate_xlate (s : State) (f : GateSt → GateSt) : (s.setGate f).xlate = s.xlate := rfl
@[simp] theorem State.setGate_cores (s : State) (f : GateSt → GateSt) : (s.setGate f).cores = s.cores := rfl
@[simp] theorem State.setGate_clusters (s : State) (f : GateSt → GateSt) : (s.setGate f).clusters = s.clusters := rfl
@[simp] theorem State.setGate_mcLoad (s : State) (f : GateSt → GateSt) : (s.setGate f).mcLoad = s.mcLoad := rfl
@[simp] theorem State.setGate_tenant (s : State) (f : GateSt → GateSt) : (s.setGate f).tenant = s.tenant := rfl
@[simp] theorem State.setGate_pwr (s : State) (f : GateSt → GateSt) : (s.setGate f).pwr = s.pwr := rfl
@[simp] theorem State.setGate_ear (s : State) (f : GateSt → GateSt) : (s.setGate f).ear = s.ear := rfl
@[simp] theorem State.setGate_feeds (s : State) (f : GateSt → GateSt) : (s.setGate f).feeds = s.feeds := rfl
@[simp] theorem State.setGate_host (s : State) (f : GateSt → GateSt) : (s.setGate f).host = s.host := rfl
@[simp] theorem State.setGate_dram (s : State) (f : GateSt → GateSt) : (s.setGate f).dram = s.dram := rfl
@[simp] theorem State.setGate_drove (s : State) (f : GateSt → GateSt) : (s.setGate f).drove = s.drove := rfl
@[simp] theorem State.setGate_get (s : State) (f : GateSt → GateSt) (x : Fld) : (s.setGate f).get x = s.get x := rfl

/-! ### State.setTake -/

@[simp] theorem State.setTake_pending (s : State) (f : TakeSt → TakeSt) : (s.setTake f).pending = s.pending := rfl
@[simp] theorem State.setTake_time (s : State) (f : TakeSt → TakeSt) : (s.setTake f).time = s.time := rfl
@[simp] theorem State.setTake_freeNext (s : State) (f : TakeSt → TakeSt) : (s.setTake f).freeNext = s.freeNext := rfl
@[simp] theorem State.setTake_rtcBase (s : State) (f : TakeSt → TakeSt) : (s.setTake f).rtcBase = s.rtcBase := rfl
@[simp] theorem State.setTake_rtcAt (s : State) (f : TakeSt → TakeSt) : (s.setTake f).rtcAt = s.rtcAt := rfl
@[simp] theorem State.setTake_slewed (s : State) (f : TakeSt → TakeSt) : (s.setTake f).slewed = s.slewed := rfl
@[simp] theorem State.setTake_regs (s : State) (f : TakeSt → TakeSt) : (s.setTake f).regs = s.regs := rfl
@[simp] theorem State.setTake_latches (s : State) (f : TakeSt → TakeSt) : (s.setTake f).latches = s.latches := rfl
@[simp] theorem State.setTake_lows (s : State) (f : TakeSt → TakeSt) : (s.setTake f).lows = s.lows := rfl
@[simp] theorem State.setTake_readData (s : State) (f : TakeSt → TakeSt) : (s.setTake f).readData = s.readData := rfl
@[simp] theorem State.setTake_refusal (s : State) (f : TakeSt → TakeSt) : (s.setTake f).refusal = s.refusal := rfl
@[simp] theorem State.setTake_rises (s : State) (f : TakeSt → TakeSt) : (s.setTake f).rises = s.rises := rfl
@[simp] theorem State.setTake_fault (s : State) (f : TakeSt → TakeSt) : (s.setTake f).fault = s.fault := rfl
@[simp] theorem State.setTake_trust (s : State) (f : TakeSt → TakeSt) : (s.setTake f).trust = s.trust := rfl
@[simp] theorem State.setTake_gate (s : State) (f : TakeSt → TakeSt) : (s.setTake f).gate = s.gate := rfl
@[simp] theorem State.setTake_take (s : State) (f : TakeSt → TakeSt) : (s.setTake f).take = f s.take := rfl
@[simp] theorem State.setTake_trig (s : State) (f : TakeSt → TakeSt) : (s.setTake f).trig = s.trig := rfl
@[simp] theorem State.setTake_lanes (s : State) (f : TakeSt → TakeSt) : (s.setTake f).lanes = s.lanes := rfl
@[simp] theorem State.setTake_jobs (s : State) (f : TakeSt → TakeSt) : (s.setTake f).jobs = s.jobs := rfl
@[simp] theorem State.setTake_nand (s : State) (f : TakeSt → TakeSt) : (s.setTake f).nand = s.nand := rfl
@[simp] theorem State.setTake_media (s : State) (f : TakeSt → TakeSt) : (s.setTake f).media = s.media := rfl
@[simp] theorem State.setTake_array (s : State) (f : TakeSt → TakeSt) : (s.setTake f).array = s.array := rfl
@[simp] theorem State.setTake_tally (s : State) (f : TakeSt → TakeSt) : (s.setTake f).tally = s.tally := rfl
@[simp] theorem State.setTake_keys (s : State) (f : TakeSt → TakeSt) : (s.setTake f).keys = s.keys := rfl
@[simp] theorem State.setTake_ns (s : State) (f : TakeSt → TakeSt) : (s.setTake f).ns = s.ns := rfl
@[simp] theorem State.setTake_mem (s : State) (f : TakeSt → TakeSt) : (s.setTake f).mem = s.mem := rfl
@[simp] theorem State.setTake_xlate (s : State) (f : TakeSt → TakeSt) : (s.setTake f).xlate = s.xlate := rfl
@[simp] theorem State.setTake_cores (s : State) (f : TakeSt → TakeSt) : (s.setTake f).cores = s.cores := rfl
@[simp] theorem State.setTake_clusters (s : State) (f : TakeSt → TakeSt) : (s.setTake f).clusters = s.clusters := rfl
@[simp] theorem State.setTake_mcLoad (s : State) (f : TakeSt → TakeSt) : (s.setTake f).mcLoad = s.mcLoad := rfl
@[simp] theorem State.setTake_tenant (s : State) (f : TakeSt → TakeSt) : (s.setTake f).tenant = s.tenant := rfl
@[simp] theorem State.setTake_pwr (s : State) (f : TakeSt → TakeSt) : (s.setTake f).pwr = s.pwr := rfl
@[simp] theorem State.setTake_ear (s : State) (f : TakeSt → TakeSt) : (s.setTake f).ear = s.ear := rfl
@[simp] theorem State.setTake_feeds (s : State) (f : TakeSt → TakeSt) : (s.setTake f).feeds = s.feeds := rfl
@[simp] theorem State.setTake_host (s : State) (f : TakeSt → TakeSt) : (s.setTake f).host = s.host := rfl
@[simp] theorem State.setTake_dram (s : State) (f : TakeSt → TakeSt) : (s.setTake f).dram = s.dram := rfl
@[simp] theorem State.setTake_drove (s : State) (f : TakeSt → TakeSt) : (s.setTake f).drove = s.drove := rfl
@[simp] theorem State.setTake_get (s : State) (f : TakeSt → TakeSt) (x : Fld) : (s.setTake f).get x = s.get x := rfl

/-! ### State.setTrig -/

@[simp] theorem State.setTrig_pending (s : State) (f : TrigSt → TrigSt) : (s.setTrig f).pending = s.pending := rfl
@[simp] theorem State.setTrig_time (s : State) (f : TrigSt → TrigSt) : (s.setTrig f).time = s.time := rfl
@[simp] theorem State.setTrig_freeNext (s : State) (f : TrigSt → TrigSt) : (s.setTrig f).freeNext = s.freeNext := rfl
@[simp] theorem State.setTrig_rtcBase (s : State) (f : TrigSt → TrigSt) : (s.setTrig f).rtcBase = s.rtcBase := rfl
@[simp] theorem State.setTrig_rtcAt (s : State) (f : TrigSt → TrigSt) : (s.setTrig f).rtcAt = s.rtcAt := rfl
@[simp] theorem State.setTrig_slewed (s : State) (f : TrigSt → TrigSt) : (s.setTrig f).slewed = s.slewed := rfl
@[simp] theorem State.setTrig_regs (s : State) (f : TrigSt → TrigSt) : (s.setTrig f).regs = s.regs := rfl
@[simp] theorem State.setTrig_latches (s : State) (f : TrigSt → TrigSt) : (s.setTrig f).latches = s.latches := rfl
@[simp] theorem State.setTrig_lows (s : State) (f : TrigSt → TrigSt) : (s.setTrig f).lows = s.lows := rfl
@[simp] theorem State.setTrig_readData (s : State) (f : TrigSt → TrigSt) : (s.setTrig f).readData = s.readData := rfl
@[simp] theorem State.setTrig_refusal (s : State) (f : TrigSt → TrigSt) : (s.setTrig f).refusal = s.refusal := rfl
@[simp] theorem State.setTrig_rises (s : State) (f : TrigSt → TrigSt) : (s.setTrig f).rises = s.rises := rfl
@[simp] theorem State.setTrig_fault (s : State) (f : TrigSt → TrigSt) : (s.setTrig f).fault = s.fault := rfl
@[simp] theorem State.setTrig_trust (s : State) (f : TrigSt → TrigSt) : (s.setTrig f).trust = s.trust := rfl
@[simp] theorem State.setTrig_gate (s : State) (f : TrigSt → TrigSt) : (s.setTrig f).gate = s.gate := rfl
@[simp] theorem State.setTrig_take (s : State) (f : TrigSt → TrigSt) : (s.setTrig f).take = s.take := rfl
@[simp] theorem State.setTrig_trig (s : State) (f : TrigSt → TrigSt) : (s.setTrig f).trig = f s.trig := rfl
@[simp] theorem State.setTrig_lanes (s : State) (f : TrigSt → TrigSt) : (s.setTrig f).lanes = s.lanes := rfl
@[simp] theorem State.setTrig_jobs (s : State) (f : TrigSt → TrigSt) : (s.setTrig f).jobs = s.jobs := rfl
@[simp] theorem State.setTrig_nand (s : State) (f : TrigSt → TrigSt) : (s.setTrig f).nand = s.nand := rfl
@[simp] theorem State.setTrig_media (s : State) (f : TrigSt → TrigSt) : (s.setTrig f).media = s.media := rfl
@[simp] theorem State.setTrig_array (s : State) (f : TrigSt → TrigSt) : (s.setTrig f).array = s.array := rfl
@[simp] theorem State.setTrig_tally (s : State) (f : TrigSt → TrigSt) : (s.setTrig f).tally = s.tally := rfl
@[simp] theorem State.setTrig_keys (s : State) (f : TrigSt → TrigSt) : (s.setTrig f).keys = s.keys := rfl
@[simp] theorem State.setTrig_ns (s : State) (f : TrigSt → TrigSt) : (s.setTrig f).ns = s.ns := rfl
@[simp] theorem State.setTrig_mem (s : State) (f : TrigSt → TrigSt) : (s.setTrig f).mem = s.mem := rfl
@[simp] theorem State.setTrig_xlate (s : State) (f : TrigSt → TrigSt) : (s.setTrig f).xlate = s.xlate := rfl
@[simp] theorem State.setTrig_cores (s : State) (f : TrigSt → TrigSt) : (s.setTrig f).cores = s.cores := rfl
@[simp] theorem State.setTrig_clusters (s : State) (f : TrigSt → TrigSt) : (s.setTrig f).clusters = s.clusters := rfl
@[simp] theorem State.setTrig_mcLoad (s : State) (f : TrigSt → TrigSt) : (s.setTrig f).mcLoad = s.mcLoad := rfl
@[simp] theorem State.setTrig_tenant (s : State) (f : TrigSt → TrigSt) : (s.setTrig f).tenant = s.tenant := rfl
@[simp] theorem State.setTrig_pwr (s : State) (f : TrigSt → TrigSt) : (s.setTrig f).pwr = s.pwr := rfl
@[simp] theorem State.setTrig_ear (s : State) (f : TrigSt → TrigSt) : (s.setTrig f).ear = s.ear := rfl
@[simp] theorem State.setTrig_feeds (s : State) (f : TrigSt → TrigSt) : (s.setTrig f).feeds = s.feeds := rfl
@[simp] theorem State.setTrig_host (s : State) (f : TrigSt → TrigSt) : (s.setTrig f).host = s.host := rfl
@[simp] theorem State.setTrig_dram (s : State) (f : TrigSt → TrigSt) : (s.setTrig f).dram = s.dram := rfl
@[simp] theorem State.setTrig_drove (s : State) (f : TrigSt → TrigSt) : (s.setTrig f).drove = s.drove := rfl
@[simp] theorem State.setTrig_get (s : State) (f : TrigSt → TrigSt) (x : Fld) : (s.setTrig f).get x = s.get x := rfl

/-! ### State.setJobs -/

@[simp] theorem State.setJobs_pending (s : State) (f : JobsSt → JobsSt) : (s.setJobs f).pending = s.pending := rfl
@[simp] theorem State.setJobs_time (s : State) (f : JobsSt → JobsSt) : (s.setJobs f).time = s.time := rfl
@[simp] theorem State.setJobs_freeNext (s : State) (f : JobsSt → JobsSt) : (s.setJobs f).freeNext = s.freeNext := rfl
@[simp] theorem State.setJobs_rtcBase (s : State) (f : JobsSt → JobsSt) : (s.setJobs f).rtcBase = s.rtcBase := rfl
@[simp] theorem State.setJobs_rtcAt (s : State) (f : JobsSt → JobsSt) : (s.setJobs f).rtcAt = s.rtcAt := rfl
@[simp] theorem State.setJobs_slewed (s : State) (f : JobsSt → JobsSt) : (s.setJobs f).slewed = s.slewed := rfl
@[simp] theorem State.setJobs_regs (s : State) (f : JobsSt → JobsSt) : (s.setJobs f).regs = s.regs := rfl
@[simp] theorem State.setJobs_latches (s : State) (f : JobsSt → JobsSt) : (s.setJobs f).latches = s.latches := rfl
@[simp] theorem State.setJobs_lows (s : State) (f : JobsSt → JobsSt) : (s.setJobs f).lows = s.lows := rfl
@[simp] theorem State.setJobs_readData (s : State) (f : JobsSt → JobsSt) : (s.setJobs f).readData = s.readData := rfl
@[simp] theorem State.setJobs_refusal (s : State) (f : JobsSt → JobsSt) : (s.setJobs f).refusal = s.refusal := rfl
@[simp] theorem State.setJobs_rises (s : State) (f : JobsSt → JobsSt) : (s.setJobs f).rises = s.rises := rfl
@[simp] theorem State.setJobs_fault (s : State) (f : JobsSt → JobsSt) : (s.setJobs f).fault = s.fault := rfl
@[simp] theorem State.setJobs_trust (s : State) (f : JobsSt → JobsSt) : (s.setJobs f).trust = s.trust := rfl
@[simp] theorem State.setJobs_gate (s : State) (f : JobsSt → JobsSt) : (s.setJobs f).gate = s.gate := rfl
@[simp] theorem State.setJobs_take (s : State) (f : JobsSt → JobsSt) : (s.setJobs f).take = s.take := rfl
@[simp] theorem State.setJobs_trig (s : State) (f : JobsSt → JobsSt) : (s.setJobs f).trig = s.trig := rfl
@[simp] theorem State.setJobs_lanes (s : State) (f : JobsSt → JobsSt) : (s.setJobs f).lanes = s.lanes := rfl
@[simp] theorem State.setJobs_jobs (s : State) (f : JobsSt → JobsSt) : (s.setJobs f).jobs = f s.jobs := rfl
@[simp] theorem State.setJobs_nand (s : State) (f : JobsSt → JobsSt) : (s.setJobs f).nand = s.nand := rfl
@[simp] theorem State.setJobs_media (s : State) (f : JobsSt → JobsSt) : (s.setJobs f).media = s.media := rfl
@[simp] theorem State.setJobs_array (s : State) (f : JobsSt → JobsSt) : (s.setJobs f).array = s.array := rfl
@[simp] theorem State.setJobs_tally (s : State) (f : JobsSt → JobsSt) : (s.setJobs f).tally = s.tally := rfl
@[simp] theorem State.setJobs_keys (s : State) (f : JobsSt → JobsSt) : (s.setJobs f).keys = s.keys := rfl
@[simp] theorem State.setJobs_ns (s : State) (f : JobsSt → JobsSt) : (s.setJobs f).ns = s.ns := rfl
@[simp] theorem State.setJobs_mem (s : State) (f : JobsSt → JobsSt) : (s.setJobs f).mem = s.mem := rfl
@[simp] theorem State.setJobs_xlate (s : State) (f : JobsSt → JobsSt) : (s.setJobs f).xlate = s.xlate := rfl
@[simp] theorem State.setJobs_cores (s : State) (f : JobsSt → JobsSt) : (s.setJobs f).cores = s.cores := rfl
@[simp] theorem State.setJobs_clusters (s : State) (f : JobsSt → JobsSt) : (s.setJobs f).clusters = s.clusters := rfl
@[simp] theorem State.setJobs_mcLoad (s : State) (f : JobsSt → JobsSt) : (s.setJobs f).mcLoad = s.mcLoad := rfl
@[simp] theorem State.setJobs_tenant (s : State) (f : JobsSt → JobsSt) : (s.setJobs f).tenant = s.tenant := rfl
@[simp] theorem State.setJobs_pwr (s : State) (f : JobsSt → JobsSt) : (s.setJobs f).pwr = s.pwr := rfl
@[simp] theorem State.setJobs_ear (s : State) (f : JobsSt → JobsSt) : (s.setJobs f).ear = s.ear := rfl
@[simp] theorem State.setJobs_feeds (s : State) (f : JobsSt → JobsSt) : (s.setJobs f).feeds = s.feeds := rfl
@[simp] theorem State.setJobs_host (s : State) (f : JobsSt → JobsSt) : (s.setJobs f).host = s.host := rfl
@[simp] theorem State.setJobs_dram (s : State) (f : JobsSt → JobsSt) : (s.setJobs f).dram = s.dram := rfl
@[simp] theorem State.setJobs_drove (s : State) (f : JobsSt → JobsSt) : (s.setJobs f).drove = s.drove := rfl
@[simp] theorem State.setJobs_get (s : State) (f : JobsSt → JobsSt) (x : Fld) : (s.setJobs f).get x = s.get x := rfl

/-! ### State.setNand -/

@[simp] theorem State.setNand_pending (s : State) (f : NandSt → NandSt) : (s.setNand f).pending = s.pending := rfl
@[simp] theorem State.setNand_time (s : State) (f : NandSt → NandSt) : (s.setNand f).time = s.time := rfl
@[simp] theorem State.setNand_freeNext (s : State) (f : NandSt → NandSt) : (s.setNand f).freeNext = s.freeNext := rfl
@[simp] theorem State.setNand_rtcBase (s : State) (f : NandSt → NandSt) : (s.setNand f).rtcBase = s.rtcBase := rfl
@[simp] theorem State.setNand_rtcAt (s : State) (f : NandSt → NandSt) : (s.setNand f).rtcAt = s.rtcAt := rfl
@[simp] theorem State.setNand_slewed (s : State) (f : NandSt → NandSt) : (s.setNand f).slewed = s.slewed := rfl
@[simp] theorem State.setNand_regs (s : State) (f : NandSt → NandSt) : (s.setNand f).regs = s.regs := rfl
@[simp] theorem State.setNand_latches (s : State) (f : NandSt → NandSt) : (s.setNand f).latches = s.latches := rfl
@[simp] theorem State.setNand_lows (s : State) (f : NandSt → NandSt) : (s.setNand f).lows = s.lows := rfl
@[simp] theorem State.setNand_readData (s : State) (f : NandSt → NandSt) : (s.setNand f).readData = s.readData := rfl
@[simp] theorem State.setNand_refusal (s : State) (f : NandSt → NandSt) : (s.setNand f).refusal = s.refusal := rfl
@[simp] theorem State.setNand_rises (s : State) (f : NandSt → NandSt) : (s.setNand f).rises = s.rises := rfl
@[simp] theorem State.setNand_fault (s : State) (f : NandSt → NandSt) : (s.setNand f).fault = s.fault := rfl
@[simp] theorem State.setNand_trust (s : State) (f : NandSt → NandSt) : (s.setNand f).trust = s.trust := rfl
@[simp] theorem State.setNand_gate (s : State) (f : NandSt → NandSt) : (s.setNand f).gate = s.gate := rfl
@[simp] theorem State.setNand_take (s : State) (f : NandSt → NandSt) : (s.setNand f).take = s.take := rfl
@[simp] theorem State.setNand_trig (s : State) (f : NandSt → NandSt) : (s.setNand f).trig = s.trig := rfl
@[simp] theorem State.setNand_lanes (s : State) (f : NandSt → NandSt) : (s.setNand f).lanes = s.lanes := rfl
@[simp] theorem State.setNand_jobs (s : State) (f : NandSt → NandSt) : (s.setNand f).jobs = s.jobs := rfl
@[simp] theorem State.setNand_nand (s : State) (f : NandSt → NandSt) : (s.setNand f).nand = f s.nand := rfl
@[simp] theorem State.setNand_media (s : State) (f : NandSt → NandSt) : (s.setNand f).media = s.media := rfl
@[simp] theorem State.setNand_array (s : State) (f : NandSt → NandSt) : (s.setNand f).array = s.array := rfl
@[simp] theorem State.setNand_tally (s : State) (f : NandSt → NandSt) : (s.setNand f).tally = s.tally := rfl
@[simp] theorem State.setNand_keys (s : State) (f : NandSt → NandSt) : (s.setNand f).keys = s.keys := rfl
@[simp] theorem State.setNand_ns (s : State) (f : NandSt → NandSt) : (s.setNand f).ns = s.ns := rfl
@[simp] theorem State.setNand_mem (s : State) (f : NandSt → NandSt) : (s.setNand f).mem = s.mem := rfl
@[simp] theorem State.setNand_xlate (s : State) (f : NandSt → NandSt) : (s.setNand f).xlate = s.xlate := rfl
@[simp] theorem State.setNand_cores (s : State) (f : NandSt → NandSt) : (s.setNand f).cores = s.cores := rfl
@[simp] theorem State.setNand_clusters (s : State) (f : NandSt → NandSt) : (s.setNand f).clusters = s.clusters := rfl
@[simp] theorem State.setNand_mcLoad (s : State) (f : NandSt → NandSt) : (s.setNand f).mcLoad = s.mcLoad := rfl
@[simp] theorem State.setNand_tenant (s : State) (f : NandSt → NandSt) : (s.setNand f).tenant = s.tenant := rfl
@[simp] theorem State.setNand_pwr (s : State) (f : NandSt → NandSt) : (s.setNand f).pwr = s.pwr := rfl
@[simp] theorem State.setNand_ear (s : State) (f : NandSt → NandSt) : (s.setNand f).ear = s.ear := rfl
@[simp] theorem State.setNand_feeds (s : State) (f : NandSt → NandSt) : (s.setNand f).feeds = s.feeds := rfl
@[simp] theorem State.setNand_host (s : State) (f : NandSt → NandSt) : (s.setNand f).host = s.host := rfl
@[simp] theorem State.setNand_dram (s : State) (f : NandSt → NandSt) : (s.setNand f).dram = s.dram := rfl
@[simp] theorem State.setNand_drove (s : State) (f : NandSt → NandSt) : (s.setNand f).drove = s.drove := rfl
@[simp] theorem State.setNand_get (s : State) (f : NandSt → NandSt) (x : Fld) : (s.setNand f).get x = s.get x := rfl

/-! ### State.setMedia -/

@[simp] theorem State.setMedia_pending (s : State) (f : MediaSt → MediaSt) : (s.setMedia f).pending = s.pending := rfl
@[simp] theorem State.setMedia_time (s : State) (f : MediaSt → MediaSt) : (s.setMedia f).time = s.time := rfl
@[simp] theorem State.setMedia_freeNext (s : State) (f : MediaSt → MediaSt) : (s.setMedia f).freeNext = s.freeNext := rfl
@[simp] theorem State.setMedia_rtcBase (s : State) (f : MediaSt → MediaSt) : (s.setMedia f).rtcBase = s.rtcBase := rfl
@[simp] theorem State.setMedia_rtcAt (s : State) (f : MediaSt → MediaSt) : (s.setMedia f).rtcAt = s.rtcAt := rfl
@[simp] theorem State.setMedia_slewed (s : State) (f : MediaSt → MediaSt) : (s.setMedia f).slewed = s.slewed := rfl
@[simp] theorem State.setMedia_regs (s : State) (f : MediaSt → MediaSt) : (s.setMedia f).regs = s.regs := rfl
@[simp] theorem State.setMedia_latches (s : State) (f : MediaSt → MediaSt) : (s.setMedia f).latches = s.latches := rfl
@[simp] theorem State.setMedia_lows (s : State) (f : MediaSt → MediaSt) : (s.setMedia f).lows = s.lows := rfl
@[simp] theorem State.setMedia_readData (s : State) (f : MediaSt → MediaSt) : (s.setMedia f).readData = s.readData := rfl
@[simp] theorem State.setMedia_refusal (s : State) (f : MediaSt → MediaSt) : (s.setMedia f).refusal = s.refusal := rfl
@[simp] theorem State.setMedia_rises (s : State) (f : MediaSt → MediaSt) : (s.setMedia f).rises = s.rises := rfl
@[simp] theorem State.setMedia_fault (s : State) (f : MediaSt → MediaSt) : (s.setMedia f).fault = s.fault := rfl
@[simp] theorem State.setMedia_trust (s : State) (f : MediaSt → MediaSt) : (s.setMedia f).trust = s.trust := rfl
@[simp] theorem State.setMedia_gate (s : State) (f : MediaSt → MediaSt) : (s.setMedia f).gate = s.gate := rfl
@[simp] theorem State.setMedia_take (s : State) (f : MediaSt → MediaSt) : (s.setMedia f).take = s.take := rfl
@[simp] theorem State.setMedia_trig (s : State) (f : MediaSt → MediaSt) : (s.setMedia f).trig = s.trig := rfl
@[simp] theorem State.setMedia_lanes (s : State) (f : MediaSt → MediaSt) : (s.setMedia f).lanes = s.lanes := rfl
@[simp] theorem State.setMedia_jobs (s : State) (f : MediaSt → MediaSt) : (s.setMedia f).jobs = s.jobs := rfl
@[simp] theorem State.setMedia_nand (s : State) (f : MediaSt → MediaSt) : (s.setMedia f).nand = s.nand := rfl
@[simp] theorem State.setMedia_media (s : State) (f : MediaSt → MediaSt) : (s.setMedia f).media = f s.media := rfl
@[simp] theorem State.setMedia_array (s : State) (f : MediaSt → MediaSt) : (s.setMedia f).array = s.array := rfl
@[simp] theorem State.setMedia_tally (s : State) (f : MediaSt → MediaSt) : (s.setMedia f).tally = s.tally := rfl
@[simp] theorem State.setMedia_keys (s : State) (f : MediaSt → MediaSt) : (s.setMedia f).keys = s.keys := rfl
@[simp] theorem State.setMedia_ns (s : State) (f : MediaSt → MediaSt) : (s.setMedia f).ns = s.ns := rfl
@[simp] theorem State.setMedia_mem (s : State) (f : MediaSt → MediaSt) : (s.setMedia f).mem = s.mem := rfl
@[simp] theorem State.setMedia_xlate (s : State) (f : MediaSt → MediaSt) : (s.setMedia f).xlate = s.xlate := rfl
@[simp] theorem State.setMedia_cores (s : State) (f : MediaSt → MediaSt) : (s.setMedia f).cores = s.cores := rfl
@[simp] theorem State.setMedia_clusters (s : State) (f : MediaSt → MediaSt) : (s.setMedia f).clusters = s.clusters := rfl
@[simp] theorem State.setMedia_mcLoad (s : State) (f : MediaSt → MediaSt) : (s.setMedia f).mcLoad = s.mcLoad := rfl
@[simp] theorem State.setMedia_tenant (s : State) (f : MediaSt → MediaSt) : (s.setMedia f).tenant = s.tenant := rfl
@[simp] theorem State.setMedia_pwr (s : State) (f : MediaSt → MediaSt) : (s.setMedia f).pwr = s.pwr := rfl
@[simp] theorem State.setMedia_ear (s : State) (f : MediaSt → MediaSt) : (s.setMedia f).ear = s.ear := rfl
@[simp] theorem State.setMedia_feeds (s : State) (f : MediaSt → MediaSt) : (s.setMedia f).feeds = s.feeds := rfl
@[simp] theorem State.setMedia_host (s : State) (f : MediaSt → MediaSt) : (s.setMedia f).host = s.host := rfl
@[simp] theorem State.setMedia_dram (s : State) (f : MediaSt → MediaSt) : (s.setMedia f).dram = s.dram := rfl
@[simp] theorem State.setMedia_drove (s : State) (f : MediaSt → MediaSt) : (s.setMedia f).drove = s.drove := rfl
@[simp] theorem State.setMedia_get (s : State) (f : MediaSt → MediaSt) (x : Fld) : (s.setMedia f).get x = s.get x := rfl

/-! ### State.setArray -/

@[simp] theorem State.setArray_pending (s : State) (f : ArraySt → ArraySt) : (s.setArray f).pending = s.pending := rfl
@[simp] theorem State.setArray_time (s : State) (f : ArraySt → ArraySt) : (s.setArray f).time = s.time := rfl
@[simp] theorem State.setArray_freeNext (s : State) (f : ArraySt → ArraySt) : (s.setArray f).freeNext = s.freeNext := rfl
@[simp] theorem State.setArray_rtcBase (s : State) (f : ArraySt → ArraySt) : (s.setArray f).rtcBase = s.rtcBase := rfl
@[simp] theorem State.setArray_rtcAt (s : State) (f : ArraySt → ArraySt) : (s.setArray f).rtcAt = s.rtcAt := rfl
@[simp] theorem State.setArray_slewed (s : State) (f : ArraySt → ArraySt) : (s.setArray f).slewed = s.slewed := rfl
@[simp] theorem State.setArray_regs (s : State) (f : ArraySt → ArraySt) : (s.setArray f).regs = s.regs := rfl
@[simp] theorem State.setArray_latches (s : State) (f : ArraySt → ArraySt) : (s.setArray f).latches = s.latches := rfl
@[simp] theorem State.setArray_lows (s : State) (f : ArraySt → ArraySt) : (s.setArray f).lows = s.lows := rfl
@[simp] theorem State.setArray_readData (s : State) (f : ArraySt → ArraySt) : (s.setArray f).readData = s.readData := rfl
@[simp] theorem State.setArray_refusal (s : State) (f : ArraySt → ArraySt) : (s.setArray f).refusal = s.refusal := rfl
@[simp] theorem State.setArray_rises (s : State) (f : ArraySt → ArraySt) : (s.setArray f).rises = s.rises := rfl
@[simp] theorem State.setArray_fault (s : State) (f : ArraySt → ArraySt) : (s.setArray f).fault = s.fault := rfl
@[simp] theorem State.setArray_trust (s : State) (f : ArraySt → ArraySt) : (s.setArray f).trust = s.trust := rfl
@[simp] theorem State.setArray_gate (s : State) (f : ArraySt → ArraySt) : (s.setArray f).gate = s.gate := rfl
@[simp] theorem State.setArray_take (s : State) (f : ArraySt → ArraySt) : (s.setArray f).take = s.take := rfl
@[simp] theorem State.setArray_trig (s : State) (f : ArraySt → ArraySt) : (s.setArray f).trig = s.trig := rfl
@[simp] theorem State.setArray_lanes (s : State) (f : ArraySt → ArraySt) : (s.setArray f).lanes = s.lanes := rfl
@[simp] theorem State.setArray_jobs (s : State) (f : ArraySt → ArraySt) : (s.setArray f).jobs = s.jobs := rfl
@[simp] theorem State.setArray_nand (s : State) (f : ArraySt → ArraySt) : (s.setArray f).nand = s.nand := rfl
@[simp] theorem State.setArray_media (s : State) (f : ArraySt → ArraySt) : (s.setArray f).media = s.media := rfl
@[simp] theorem State.setArray_array (s : State) (f : ArraySt → ArraySt) : (s.setArray f).array = f s.array := rfl
@[simp] theorem State.setArray_tally (s : State) (f : ArraySt → ArraySt) : (s.setArray f).tally = s.tally := rfl
@[simp] theorem State.setArray_keys (s : State) (f : ArraySt → ArraySt) : (s.setArray f).keys = s.keys := rfl
@[simp] theorem State.setArray_ns (s : State) (f : ArraySt → ArraySt) : (s.setArray f).ns = s.ns := rfl
@[simp] theorem State.setArray_mem (s : State) (f : ArraySt → ArraySt) : (s.setArray f).mem = s.mem := rfl
@[simp] theorem State.setArray_xlate (s : State) (f : ArraySt → ArraySt) : (s.setArray f).xlate = s.xlate := rfl
@[simp] theorem State.setArray_cores (s : State) (f : ArraySt → ArraySt) : (s.setArray f).cores = s.cores := rfl
@[simp] theorem State.setArray_clusters (s : State) (f : ArraySt → ArraySt) : (s.setArray f).clusters = s.clusters := rfl
@[simp] theorem State.setArray_mcLoad (s : State) (f : ArraySt → ArraySt) : (s.setArray f).mcLoad = s.mcLoad := rfl
@[simp] theorem State.setArray_tenant (s : State) (f : ArraySt → ArraySt) : (s.setArray f).tenant = s.tenant := rfl
@[simp] theorem State.setArray_pwr (s : State) (f : ArraySt → ArraySt) : (s.setArray f).pwr = s.pwr := rfl
@[simp] theorem State.setArray_ear (s : State) (f : ArraySt → ArraySt) : (s.setArray f).ear = s.ear := rfl
@[simp] theorem State.setArray_feeds (s : State) (f : ArraySt → ArraySt) : (s.setArray f).feeds = s.feeds := rfl
@[simp] theorem State.setArray_host (s : State) (f : ArraySt → ArraySt) : (s.setArray f).host = s.host := rfl
@[simp] theorem State.setArray_dram (s : State) (f : ArraySt → ArraySt) : (s.setArray f).dram = s.dram := rfl
@[simp] theorem State.setArray_drove (s : State) (f : ArraySt → ArraySt) : (s.setArray f).drove = s.drove := rfl
@[simp] theorem State.setArray_get (s : State) (f : ArraySt → ArraySt) (x : Fld) : (s.setArray f).get x = s.get x := rfl

/-! ### State.setTally -/

@[simp] theorem State.setTally_pending (s : State) (f : TallySt → TallySt) : (s.setTally f).pending = s.pending := rfl
@[simp] theorem State.setTally_time (s : State) (f : TallySt → TallySt) : (s.setTally f).time = s.time := rfl
@[simp] theorem State.setTally_freeNext (s : State) (f : TallySt → TallySt) : (s.setTally f).freeNext = s.freeNext := rfl
@[simp] theorem State.setTally_rtcBase (s : State) (f : TallySt → TallySt) : (s.setTally f).rtcBase = s.rtcBase := rfl
@[simp] theorem State.setTally_rtcAt (s : State) (f : TallySt → TallySt) : (s.setTally f).rtcAt = s.rtcAt := rfl
@[simp] theorem State.setTally_slewed (s : State) (f : TallySt → TallySt) : (s.setTally f).slewed = s.slewed := rfl
@[simp] theorem State.setTally_regs (s : State) (f : TallySt → TallySt) : (s.setTally f).regs = s.regs := rfl
@[simp] theorem State.setTally_latches (s : State) (f : TallySt → TallySt) : (s.setTally f).latches = s.latches := rfl
@[simp] theorem State.setTally_lows (s : State) (f : TallySt → TallySt) : (s.setTally f).lows = s.lows := rfl
@[simp] theorem State.setTally_readData (s : State) (f : TallySt → TallySt) : (s.setTally f).readData = s.readData := rfl
@[simp] theorem State.setTally_refusal (s : State) (f : TallySt → TallySt) : (s.setTally f).refusal = s.refusal := rfl
@[simp] theorem State.setTally_rises (s : State) (f : TallySt → TallySt) : (s.setTally f).rises = s.rises := rfl
@[simp] theorem State.setTally_fault (s : State) (f : TallySt → TallySt) : (s.setTally f).fault = s.fault := rfl
@[simp] theorem State.setTally_trust (s : State) (f : TallySt → TallySt) : (s.setTally f).trust = s.trust := rfl
@[simp] theorem State.setTally_gate (s : State) (f : TallySt → TallySt) : (s.setTally f).gate = s.gate := rfl
@[simp] theorem State.setTally_take (s : State) (f : TallySt → TallySt) : (s.setTally f).take = s.take := rfl
@[simp] theorem State.setTally_trig (s : State) (f : TallySt → TallySt) : (s.setTally f).trig = s.trig := rfl
@[simp] theorem State.setTally_lanes (s : State) (f : TallySt → TallySt) : (s.setTally f).lanes = s.lanes := rfl
@[simp] theorem State.setTally_jobs (s : State) (f : TallySt → TallySt) : (s.setTally f).jobs = s.jobs := rfl
@[simp] theorem State.setTally_nand (s : State) (f : TallySt → TallySt) : (s.setTally f).nand = s.nand := rfl
@[simp] theorem State.setTally_media (s : State) (f : TallySt → TallySt) : (s.setTally f).media = s.media := rfl
@[simp] theorem State.setTally_array (s : State) (f : TallySt → TallySt) : (s.setTally f).array = s.array := rfl
@[simp] theorem State.setTally_tally (s : State) (f : TallySt → TallySt) : (s.setTally f).tally = f s.tally := rfl
@[simp] theorem State.setTally_keys (s : State) (f : TallySt → TallySt) : (s.setTally f).keys = s.keys := rfl
@[simp] theorem State.setTally_ns (s : State) (f : TallySt → TallySt) : (s.setTally f).ns = s.ns := rfl
@[simp] theorem State.setTally_mem (s : State) (f : TallySt → TallySt) : (s.setTally f).mem = s.mem := rfl
@[simp] theorem State.setTally_xlate (s : State) (f : TallySt → TallySt) : (s.setTally f).xlate = s.xlate := rfl
@[simp] theorem State.setTally_cores (s : State) (f : TallySt → TallySt) : (s.setTally f).cores = s.cores := rfl
@[simp] theorem State.setTally_clusters (s : State) (f : TallySt → TallySt) : (s.setTally f).clusters = s.clusters := rfl
@[simp] theorem State.setTally_mcLoad (s : State) (f : TallySt → TallySt) : (s.setTally f).mcLoad = s.mcLoad := rfl
@[simp] theorem State.setTally_tenant (s : State) (f : TallySt → TallySt) : (s.setTally f).tenant = s.tenant := rfl
@[simp] theorem State.setTally_pwr (s : State) (f : TallySt → TallySt) : (s.setTally f).pwr = s.pwr := rfl
@[simp] theorem State.setTally_ear (s : State) (f : TallySt → TallySt) : (s.setTally f).ear = s.ear := rfl
@[simp] theorem State.setTally_feeds (s : State) (f : TallySt → TallySt) : (s.setTally f).feeds = s.feeds := rfl
@[simp] theorem State.setTally_host (s : State) (f : TallySt → TallySt) : (s.setTally f).host = s.host := rfl
@[simp] theorem State.setTally_dram (s : State) (f : TallySt → TallySt) : (s.setTally f).dram = s.dram := rfl
@[simp] theorem State.setTally_drove (s : State) (f : TallySt → TallySt) : (s.setTally f).drove = s.drove := rfl
@[simp] theorem State.setTally_get (s : State) (f : TallySt → TallySt) (x : Fld) : (s.setTally f).get x = s.get x := rfl

/-! ### State.setKeys -/

@[simp] theorem State.setKeys_pending (s : State) (f : KeySt → KeySt) : (s.setKeys f).pending = s.pending := rfl
@[simp] theorem State.setKeys_time (s : State) (f : KeySt → KeySt) : (s.setKeys f).time = s.time := rfl
@[simp] theorem State.setKeys_freeNext (s : State) (f : KeySt → KeySt) : (s.setKeys f).freeNext = s.freeNext := rfl
@[simp] theorem State.setKeys_rtcBase (s : State) (f : KeySt → KeySt) : (s.setKeys f).rtcBase = s.rtcBase := rfl
@[simp] theorem State.setKeys_rtcAt (s : State) (f : KeySt → KeySt) : (s.setKeys f).rtcAt = s.rtcAt := rfl
@[simp] theorem State.setKeys_slewed (s : State) (f : KeySt → KeySt) : (s.setKeys f).slewed = s.slewed := rfl
@[simp] theorem State.setKeys_regs (s : State) (f : KeySt → KeySt) : (s.setKeys f).regs = s.regs := rfl
@[simp] theorem State.setKeys_latches (s : State) (f : KeySt → KeySt) : (s.setKeys f).latches = s.latches := rfl
@[simp] theorem State.setKeys_lows (s : State) (f : KeySt → KeySt) : (s.setKeys f).lows = s.lows := rfl
@[simp] theorem State.setKeys_readData (s : State) (f : KeySt → KeySt) : (s.setKeys f).readData = s.readData := rfl
@[simp] theorem State.setKeys_refusal (s : State) (f : KeySt → KeySt) : (s.setKeys f).refusal = s.refusal := rfl
@[simp] theorem State.setKeys_rises (s : State) (f : KeySt → KeySt) : (s.setKeys f).rises = s.rises := rfl
@[simp] theorem State.setKeys_fault (s : State) (f : KeySt → KeySt) : (s.setKeys f).fault = s.fault := rfl
@[simp] theorem State.setKeys_trust (s : State) (f : KeySt → KeySt) : (s.setKeys f).trust = s.trust := rfl
@[simp] theorem State.setKeys_gate (s : State) (f : KeySt → KeySt) : (s.setKeys f).gate = s.gate := rfl
@[simp] theorem State.setKeys_take (s : State) (f : KeySt → KeySt) : (s.setKeys f).take = s.take := rfl
@[simp] theorem State.setKeys_trig (s : State) (f : KeySt → KeySt) : (s.setKeys f).trig = s.trig := rfl
@[simp] theorem State.setKeys_lanes (s : State) (f : KeySt → KeySt) : (s.setKeys f).lanes = s.lanes := rfl
@[simp] theorem State.setKeys_jobs (s : State) (f : KeySt → KeySt) : (s.setKeys f).jobs = s.jobs := rfl
@[simp] theorem State.setKeys_nand (s : State) (f : KeySt → KeySt) : (s.setKeys f).nand = s.nand := rfl
@[simp] theorem State.setKeys_media (s : State) (f : KeySt → KeySt) : (s.setKeys f).media = s.media := rfl
@[simp] theorem State.setKeys_array (s : State) (f : KeySt → KeySt) : (s.setKeys f).array = s.array := rfl
@[simp] theorem State.setKeys_tally (s : State) (f : KeySt → KeySt) : (s.setKeys f).tally = s.tally := rfl
@[simp] theorem State.setKeys_keys (s : State) (f : KeySt → KeySt) : (s.setKeys f).keys = f s.keys := rfl
@[simp] theorem State.setKeys_ns (s : State) (f : KeySt → KeySt) : (s.setKeys f).ns = s.ns := rfl
@[simp] theorem State.setKeys_mem (s : State) (f : KeySt → KeySt) : (s.setKeys f).mem = s.mem := rfl
@[simp] theorem State.setKeys_xlate (s : State) (f : KeySt → KeySt) : (s.setKeys f).xlate = s.xlate := rfl
@[simp] theorem State.setKeys_cores (s : State) (f : KeySt → KeySt) : (s.setKeys f).cores = s.cores := rfl
@[simp] theorem State.setKeys_clusters (s : State) (f : KeySt → KeySt) : (s.setKeys f).clusters = s.clusters := rfl
@[simp] theorem State.setKeys_mcLoad (s : State) (f : KeySt → KeySt) : (s.setKeys f).mcLoad = s.mcLoad := rfl
@[simp] theorem State.setKeys_tenant (s : State) (f : KeySt → KeySt) : (s.setKeys f).tenant = s.tenant := rfl
@[simp] theorem State.setKeys_pwr (s : State) (f : KeySt → KeySt) : (s.setKeys f).pwr = s.pwr := rfl
@[simp] theorem State.setKeys_ear (s : State) (f : KeySt → KeySt) : (s.setKeys f).ear = s.ear := rfl
@[simp] theorem State.setKeys_feeds (s : State) (f : KeySt → KeySt) : (s.setKeys f).feeds = s.feeds := rfl
@[simp] theorem State.setKeys_host (s : State) (f : KeySt → KeySt) : (s.setKeys f).host = s.host := rfl
@[simp] theorem State.setKeys_dram (s : State) (f : KeySt → KeySt) : (s.setKeys f).dram = s.dram := rfl
@[simp] theorem State.setKeys_drove (s : State) (f : KeySt → KeySt) : (s.setKeys f).drove = s.drove := rfl
@[simp] theorem State.setKeys_get (s : State) (f : KeySt → KeySt) (x : Fld) : (s.setKeys f).get x = s.get x := rfl

/-! ### State.setTrust -/

@[simp] theorem State.setTrust_pending (s : State) (f : TrustSt → TrustSt) : (s.setTrust f).pending = s.pending := rfl
@[simp] theorem State.setTrust_time (s : State) (f : TrustSt → TrustSt) : (s.setTrust f).time = s.time := rfl
@[simp] theorem State.setTrust_freeNext (s : State) (f : TrustSt → TrustSt) : (s.setTrust f).freeNext = s.freeNext := rfl
@[simp] theorem State.setTrust_rtcBase (s : State) (f : TrustSt → TrustSt) : (s.setTrust f).rtcBase = s.rtcBase := rfl
@[simp] theorem State.setTrust_rtcAt (s : State) (f : TrustSt → TrustSt) : (s.setTrust f).rtcAt = s.rtcAt := rfl
@[simp] theorem State.setTrust_slewed (s : State) (f : TrustSt → TrustSt) : (s.setTrust f).slewed = s.slewed := rfl
@[simp] theorem State.setTrust_regs (s : State) (f : TrustSt → TrustSt) : (s.setTrust f).regs = s.regs := rfl
@[simp] theorem State.setTrust_latches (s : State) (f : TrustSt → TrustSt) : (s.setTrust f).latches = s.latches := rfl
@[simp] theorem State.setTrust_lows (s : State) (f : TrustSt → TrustSt) : (s.setTrust f).lows = s.lows := rfl
@[simp] theorem State.setTrust_readData (s : State) (f : TrustSt → TrustSt) : (s.setTrust f).readData = s.readData := rfl
@[simp] theorem State.setTrust_refusal (s : State) (f : TrustSt → TrustSt) : (s.setTrust f).refusal = s.refusal := rfl
@[simp] theorem State.setTrust_rises (s : State) (f : TrustSt → TrustSt) : (s.setTrust f).rises = s.rises := rfl
@[simp] theorem State.setTrust_fault (s : State) (f : TrustSt → TrustSt) : (s.setTrust f).fault = s.fault := rfl
@[simp] theorem State.setTrust_trust (s : State) (f : TrustSt → TrustSt) : (s.setTrust f).trust = f s.trust := rfl
@[simp] theorem State.setTrust_gate (s : State) (f : TrustSt → TrustSt) : (s.setTrust f).gate = s.gate := rfl
@[simp] theorem State.setTrust_take (s : State) (f : TrustSt → TrustSt) : (s.setTrust f).take = s.take := rfl
@[simp] theorem State.setTrust_trig (s : State) (f : TrustSt → TrustSt) : (s.setTrust f).trig = s.trig := rfl
@[simp] theorem State.setTrust_lanes (s : State) (f : TrustSt → TrustSt) : (s.setTrust f).lanes = s.lanes := rfl
@[simp] theorem State.setTrust_jobs (s : State) (f : TrustSt → TrustSt) : (s.setTrust f).jobs = s.jobs := rfl
@[simp] theorem State.setTrust_nand (s : State) (f : TrustSt → TrustSt) : (s.setTrust f).nand = s.nand := rfl
@[simp] theorem State.setTrust_media (s : State) (f : TrustSt → TrustSt) : (s.setTrust f).media = s.media := rfl
@[simp] theorem State.setTrust_array (s : State) (f : TrustSt → TrustSt) : (s.setTrust f).array = s.array := rfl
@[simp] theorem State.setTrust_tally (s : State) (f : TrustSt → TrustSt) : (s.setTrust f).tally = s.tally := rfl
@[simp] theorem State.setTrust_keys (s : State) (f : TrustSt → TrustSt) : (s.setTrust f).keys = s.keys := rfl
@[simp] theorem State.setTrust_ns (s : State) (f : TrustSt → TrustSt) : (s.setTrust f).ns = s.ns := rfl
@[simp] theorem State.setTrust_mem (s : State) (f : TrustSt → TrustSt) : (s.setTrust f).mem = s.mem := rfl
@[simp] theorem State.setTrust_xlate (s : State) (f : TrustSt → TrustSt) : (s.setTrust f).xlate = s.xlate := rfl
@[simp] theorem State.setTrust_cores (s : State) (f : TrustSt → TrustSt) : (s.setTrust f).cores = s.cores := rfl
@[simp] theorem State.setTrust_clusters (s : State) (f : TrustSt → TrustSt) : (s.setTrust f).clusters = s.clusters := rfl
@[simp] theorem State.setTrust_mcLoad (s : State) (f : TrustSt → TrustSt) : (s.setTrust f).mcLoad = s.mcLoad := rfl
@[simp] theorem State.setTrust_tenant (s : State) (f : TrustSt → TrustSt) : (s.setTrust f).tenant = s.tenant := rfl
@[simp] theorem State.setTrust_pwr (s : State) (f : TrustSt → TrustSt) : (s.setTrust f).pwr = s.pwr := rfl
@[simp] theorem State.setTrust_ear (s : State) (f : TrustSt → TrustSt) : (s.setTrust f).ear = s.ear := rfl
@[simp] theorem State.setTrust_feeds (s : State) (f : TrustSt → TrustSt) : (s.setTrust f).feeds = s.feeds := rfl
@[simp] theorem State.setTrust_host (s : State) (f : TrustSt → TrustSt) : (s.setTrust f).host = s.host := rfl
@[simp] theorem State.setTrust_dram (s : State) (f : TrustSt → TrustSt) : (s.setTrust f).dram = s.dram := rfl
@[simp] theorem State.setTrust_drove (s : State) (f : TrustSt → TrustSt) : (s.setTrust f).drove = s.drove := rfl
@[simp] theorem State.setTrust_get (s : State) (f : TrustSt → TrustSt) (x : Fld) : (s.setTrust f).get x = s.get x := rfl

/-! ### State.setFault -/

@[simp] theorem State.setFault_pending (s : State) (f : FaultSt → FaultSt) : (s.setFault f).pending = s.pending := rfl
@[simp] theorem State.setFault_time (s : State) (f : FaultSt → FaultSt) : (s.setFault f).time = s.time := rfl
@[simp] theorem State.setFault_freeNext (s : State) (f : FaultSt → FaultSt) : (s.setFault f).freeNext = s.freeNext := rfl
@[simp] theorem State.setFault_rtcBase (s : State) (f : FaultSt → FaultSt) : (s.setFault f).rtcBase = s.rtcBase := rfl
@[simp] theorem State.setFault_rtcAt (s : State) (f : FaultSt → FaultSt) : (s.setFault f).rtcAt = s.rtcAt := rfl
@[simp] theorem State.setFault_slewed (s : State) (f : FaultSt → FaultSt) : (s.setFault f).slewed = s.slewed := rfl
@[simp] theorem State.setFault_regs (s : State) (f : FaultSt → FaultSt) : (s.setFault f).regs = s.regs := rfl
@[simp] theorem State.setFault_latches (s : State) (f : FaultSt → FaultSt) : (s.setFault f).latches = s.latches := rfl
@[simp] theorem State.setFault_lows (s : State) (f : FaultSt → FaultSt) : (s.setFault f).lows = s.lows := rfl
@[simp] theorem State.setFault_readData (s : State) (f : FaultSt → FaultSt) : (s.setFault f).readData = s.readData := rfl
@[simp] theorem State.setFault_refusal (s : State) (f : FaultSt → FaultSt) : (s.setFault f).refusal = s.refusal := rfl
@[simp] theorem State.setFault_rises (s : State) (f : FaultSt → FaultSt) : (s.setFault f).rises = s.rises := rfl
@[simp] theorem State.setFault_fault (s : State) (f : FaultSt → FaultSt) : (s.setFault f).fault = f s.fault := rfl
@[simp] theorem State.setFault_trust (s : State) (f : FaultSt → FaultSt) : (s.setFault f).trust = s.trust := rfl
@[simp] theorem State.setFault_gate (s : State) (f : FaultSt → FaultSt) : (s.setFault f).gate = s.gate := rfl
@[simp] theorem State.setFault_take (s : State) (f : FaultSt → FaultSt) : (s.setFault f).take = s.take := rfl
@[simp] theorem State.setFault_trig (s : State) (f : FaultSt → FaultSt) : (s.setFault f).trig = s.trig := rfl
@[simp] theorem State.setFault_lanes (s : State) (f : FaultSt → FaultSt) : (s.setFault f).lanes = s.lanes := rfl
@[simp] theorem State.setFault_jobs (s : State) (f : FaultSt → FaultSt) : (s.setFault f).jobs = s.jobs := rfl
@[simp] theorem State.setFault_nand (s : State) (f : FaultSt → FaultSt) : (s.setFault f).nand = s.nand := rfl
@[simp] theorem State.setFault_media (s : State) (f : FaultSt → FaultSt) : (s.setFault f).media = s.media := rfl
@[simp] theorem State.setFault_array (s : State) (f : FaultSt → FaultSt) : (s.setFault f).array = s.array := rfl
@[simp] theorem State.setFault_tally (s : State) (f : FaultSt → FaultSt) : (s.setFault f).tally = s.tally := rfl
@[simp] theorem State.setFault_keys (s : State) (f : FaultSt → FaultSt) : (s.setFault f).keys = s.keys := rfl
@[simp] theorem State.setFault_ns (s : State) (f : FaultSt → FaultSt) : (s.setFault f).ns = s.ns := rfl
@[simp] theorem State.setFault_mem (s : State) (f : FaultSt → FaultSt) : (s.setFault f).mem = s.mem := rfl
@[simp] theorem State.setFault_xlate (s : State) (f : FaultSt → FaultSt) : (s.setFault f).xlate = s.xlate := rfl
@[simp] theorem State.setFault_cores (s : State) (f : FaultSt → FaultSt) : (s.setFault f).cores = s.cores := rfl
@[simp] theorem State.setFault_clusters (s : State) (f : FaultSt → FaultSt) : (s.setFault f).clusters = s.clusters := rfl
@[simp] theorem State.setFault_mcLoad (s : State) (f : FaultSt → FaultSt) : (s.setFault f).mcLoad = s.mcLoad := rfl
@[simp] theorem State.setFault_tenant (s : State) (f : FaultSt → FaultSt) : (s.setFault f).tenant = s.tenant := rfl
@[simp] theorem State.setFault_pwr (s : State) (f : FaultSt → FaultSt) : (s.setFault f).pwr = s.pwr := rfl
@[simp] theorem State.setFault_ear (s : State) (f : FaultSt → FaultSt) : (s.setFault f).ear = s.ear := rfl
@[simp] theorem State.setFault_feeds (s : State) (f : FaultSt → FaultSt) : (s.setFault f).feeds = s.feeds := rfl
@[simp] theorem State.setFault_host (s : State) (f : FaultSt → FaultSt) : (s.setFault f).host = s.host := rfl
@[simp] theorem State.setFault_dram (s : State) (f : FaultSt → FaultSt) : (s.setFault f).dram = s.dram := rfl
@[simp] theorem State.setFault_drove (s : State) (f : FaultSt → FaultSt) : (s.setFault f).drove = s.drove := rfl
@[simp] theorem State.setFault_get (s : State) (f : FaultSt → FaultSt) (x : Fld) : (s.setFault f).get x = s.get x := rfl

/-! ### State.setHost -/

@[simp] theorem State.setHost_pending (s : State) (f : HostSt → HostSt) : (s.setHost f).pending = s.pending := rfl
@[simp] theorem State.setHost_time (s : State) (f : HostSt → HostSt) : (s.setHost f).time = s.time := rfl
@[simp] theorem State.setHost_freeNext (s : State) (f : HostSt → HostSt) : (s.setHost f).freeNext = s.freeNext := rfl
@[simp] theorem State.setHost_rtcBase (s : State) (f : HostSt → HostSt) : (s.setHost f).rtcBase = s.rtcBase := rfl
@[simp] theorem State.setHost_rtcAt (s : State) (f : HostSt → HostSt) : (s.setHost f).rtcAt = s.rtcAt := rfl
@[simp] theorem State.setHost_slewed (s : State) (f : HostSt → HostSt) : (s.setHost f).slewed = s.slewed := rfl
@[simp] theorem State.setHost_regs (s : State) (f : HostSt → HostSt) : (s.setHost f).regs = s.regs := rfl
@[simp] theorem State.setHost_latches (s : State) (f : HostSt → HostSt) : (s.setHost f).latches = s.latches := rfl
@[simp] theorem State.setHost_lows (s : State) (f : HostSt → HostSt) : (s.setHost f).lows = s.lows := rfl
@[simp] theorem State.setHost_readData (s : State) (f : HostSt → HostSt) : (s.setHost f).readData = s.readData := rfl
@[simp] theorem State.setHost_refusal (s : State) (f : HostSt → HostSt) : (s.setHost f).refusal = s.refusal := rfl
@[simp] theorem State.setHost_rises (s : State) (f : HostSt → HostSt) : (s.setHost f).rises = s.rises := rfl
@[simp] theorem State.setHost_fault (s : State) (f : HostSt → HostSt) : (s.setHost f).fault = s.fault := rfl
@[simp] theorem State.setHost_trust (s : State) (f : HostSt → HostSt) : (s.setHost f).trust = s.trust := rfl
@[simp] theorem State.setHost_gate (s : State) (f : HostSt → HostSt) : (s.setHost f).gate = s.gate := rfl
@[simp] theorem State.setHost_take (s : State) (f : HostSt → HostSt) : (s.setHost f).take = s.take := rfl
@[simp] theorem State.setHost_trig (s : State) (f : HostSt → HostSt) : (s.setHost f).trig = s.trig := rfl
@[simp] theorem State.setHost_lanes (s : State) (f : HostSt → HostSt) : (s.setHost f).lanes = s.lanes := rfl
@[simp] theorem State.setHost_jobs (s : State) (f : HostSt → HostSt) : (s.setHost f).jobs = s.jobs := rfl
@[simp] theorem State.setHost_nand (s : State) (f : HostSt → HostSt) : (s.setHost f).nand = s.nand := rfl
@[simp] theorem State.setHost_media (s : State) (f : HostSt → HostSt) : (s.setHost f).media = s.media := rfl
@[simp] theorem State.setHost_array (s : State) (f : HostSt → HostSt) : (s.setHost f).array = s.array := rfl
@[simp] theorem State.setHost_tally (s : State) (f : HostSt → HostSt) : (s.setHost f).tally = s.tally := rfl
@[simp] theorem State.setHost_keys (s : State) (f : HostSt → HostSt) : (s.setHost f).keys = s.keys := rfl
@[simp] theorem State.setHost_ns (s : State) (f : HostSt → HostSt) : (s.setHost f).ns = s.ns := rfl
@[simp] theorem State.setHost_mem (s : State) (f : HostSt → HostSt) : (s.setHost f).mem = s.mem := rfl
@[simp] theorem State.setHost_xlate (s : State) (f : HostSt → HostSt) : (s.setHost f).xlate = s.xlate := rfl
@[simp] theorem State.setHost_cores (s : State) (f : HostSt → HostSt) : (s.setHost f).cores = s.cores := rfl
@[simp] theorem State.setHost_clusters (s : State) (f : HostSt → HostSt) : (s.setHost f).clusters = s.clusters := rfl
@[simp] theorem State.setHost_mcLoad (s : State) (f : HostSt → HostSt) : (s.setHost f).mcLoad = s.mcLoad := rfl
@[simp] theorem State.setHost_tenant (s : State) (f : HostSt → HostSt) : (s.setHost f).tenant = s.tenant := rfl
@[simp] theorem State.setHost_pwr (s : State) (f : HostSt → HostSt) : (s.setHost f).pwr = s.pwr := rfl
@[simp] theorem State.setHost_ear (s : State) (f : HostSt → HostSt) : (s.setHost f).ear = s.ear := rfl
@[simp] theorem State.setHost_feeds (s : State) (f : HostSt → HostSt) : (s.setHost f).feeds = s.feeds := rfl
@[simp] theorem State.setHost_host (s : State) (f : HostSt → HostSt) : (s.setHost f).host = f s.host := rfl
@[simp] theorem State.setHost_dram (s : State) (f : HostSt → HostSt) : (s.setHost f).dram = s.dram := rfl
@[simp] theorem State.setHost_drove (s : State) (f : HostSt → HostSt) : (s.setHost f).drove = s.drove := rfl
@[simp] theorem State.setHost_get (s : State) (f : HostSt → HostSt) (x : Fld) : (s.setHost f).get x = s.get x := rfl

/-! ### State.setTenant -/

@[simp] theorem State.setTenant_pending (s : State) (f : TenantSt → TenantSt) : (s.setTenant f).pending = s.pending := rfl
@[simp] theorem State.setTenant_time (s : State) (f : TenantSt → TenantSt) : (s.setTenant f).time = s.time := rfl
@[simp] theorem State.setTenant_freeNext (s : State) (f : TenantSt → TenantSt) : (s.setTenant f).freeNext = s.freeNext := rfl
@[simp] theorem State.setTenant_rtcBase (s : State) (f : TenantSt → TenantSt) : (s.setTenant f).rtcBase = s.rtcBase := rfl
@[simp] theorem State.setTenant_rtcAt (s : State) (f : TenantSt → TenantSt) : (s.setTenant f).rtcAt = s.rtcAt := rfl
@[simp] theorem State.setTenant_slewed (s : State) (f : TenantSt → TenantSt) : (s.setTenant f).slewed = s.slewed := rfl
@[simp] theorem State.setTenant_regs (s : State) (f : TenantSt → TenantSt) : (s.setTenant f).regs = s.regs := rfl
@[simp] theorem State.setTenant_latches (s : State) (f : TenantSt → TenantSt) : (s.setTenant f).latches = s.latches := rfl
@[simp] theorem State.setTenant_lows (s : State) (f : TenantSt → TenantSt) : (s.setTenant f).lows = s.lows := rfl
@[simp] theorem State.setTenant_readData (s : State) (f : TenantSt → TenantSt) : (s.setTenant f).readData = s.readData := rfl
@[simp] theorem State.setTenant_refusal (s : State) (f : TenantSt → TenantSt) : (s.setTenant f).refusal = s.refusal := rfl
@[simp] theorem State.setTenant_rises (s : State) (f : TenantSt → TenantSt) : (s.setTenant f).rises = s.rises := rfl
@[simp] theorem State.setTenant_fault (s : State) (f : TenantSt → TenantSt) : (s.setTenant f).fault = s.fault := rfl
@[simp] theorem State.setTenant_trust (s : State) (f : TenantSt → TenantSt) : (s.setTenant f).trust = s.trust := rfl
@[simp] theorem State.setTenant_gate (s : State) (f : TenantSt → TenantSt) : (s.setTenant f).gate = s.gate := rfl
@[simp] theorem State.setTenant_take (s : State) (f : TenantSt → TenantSt) : (s.setTenant f).take = s.take := rfl
@[simp] theorem State.setTenant_trig (s : State) (f : TenantSt → TenantSt) : (s.setTenant f).trig = s.trig := rfl
@[simp] theorem State.setTenant_lanes (s : State) (f : TenantSt → TenantSt) : (s.setTenant f).lanes = s.lanes := rfl
@[simp] theorem State.setTenant_jobs (s : State) (f : TenantSt → TenantSt) : (s.setTenant f).jobs = s.jobs := rfl
@[simp] theorem State.setTenant_nand (s : State) (f : TenantSt → TenantSt) : (s.setTenant f).nand = s.nand := rfl
@[simp] theorem State.setTenant_media (s : State) (f : TenantSt → TenantSt) : (s.setTenant f).media = s.media := rfl
@[simp] theorem State.setTenant_array (s : State) (f : TenantSt → TenantSt) : (s.setTenant f).array = s.array := rfl
@[simp] theorem State.setTenant_tally (s : State) (f : TenantSt → TenantSt) : (s.setTenant f).tally = s.tally := rfl
@[simp] theorem State.setTenant_keys (s : State) (f : TenantSt → TenantSt) : (s.setTenant f).keys = s.keys := rfl
@[simp] theorem State.setTenant_ns (s : State) (f : TenantSt → TenantSt) : (s.setTenant f).ns = s.ns := rfl
@[simp] theorem State.setTenant_mem (s : State) (f : TenantSt → TenantSt) : (s.setTenant f).mem = s.mem := rfl
@[simp] theorem State.setTenant_xlate (s : State) (f : TenantSt → TenantSt) : (s.setTenant f).xlate = s.xlate := rfl
@[simp] theorem State.setTenant_cores (s : State) (f : TenantSt → TenantSt) : (s.setTenant f).cores = s.cores := rfl
@[simp] theorem State.setTenant_clusters (s : State) (f : TenantSt → TenantSt) : (s.setTenant f).clusters = s.clusters := rfl
@[simp] theorem State.setTenant_mcLoad (s : State) (f : TenantSt → TenantSt) : (s.setTenant f).mcLoad = s.mcLoad := rfl
@[simp] theorem State.setTenant_tenant (s : State) (f : TenantSt → TenantSt) : (s.setTenant f).tenant = f s.tenant := rfl
@[simp] theorem State.setTenant_pwr (s : State) (f : TenantSt → TenantSt) : (s.setTenant f).pwr = s.pwr := rfl
@[simp] theorem State.setTenant_ear (s : State) (f : TenantSt → TenantSt) : (s.setTenant f).ear = s.ear := rfl
@[simp] theorem State.setTenant_feeds (s : State) (f : TenantSt → TenantSt) : (s.setTenant f).feeds = s.feeds := rfl
@[simp] theorem State.setTenant_host (s : State) (f : TenantSt → TenantSt) : (s.setTenant f).host = s.host := rfl
@[simp] theorem State.setTenant_dram (s : State) (f : TenantSt → TenantSt) : (s.setTenant f).dram = s.dram := rfl
@[simp] theorem State.setTenant_drove (s : State) (f : TenantSt → TenantSt) : (s.setTenant f).drove = s.drove := rfl
@[simp] theorem State.setTenant_get (s : State) (f : TenantSt → TenantSt) (x : Fld) : (s.setTenant f).get x = s.get x := rfl

/-! ### State.setPwr -/

@[simp] theorem State.setPwr_pending (s : State) (f : PwrSt → PwrSt) : (s.setPwr f).pending = s.pending := rfl
@[simp] theorem State.setPwr_time (s : State) (f : PwrSt → PwrSt) : (s.setPwr f).time = s.time := rfl
@[simp] theorem State.setPwr_freeNext (s : State) (f : PwrSt → PwrSt) : (s.setPwr f).freeNext = s.freeNext := rfl
@[simp] theorem State.setPwr_rtcBase (s : State) (f : PwrSt → PwrSt) : (s.setPwr f).rtcBase = s.rtcBase := rfl
@[simp] theorem State.setPwr_rtcAt (s : State) (f : PwrSt → PwrSt) : (s.setPwr f).rtcAt = s.rtcAt := rfl
@[simp] theorem State.setPwr_slewed (s : State) (f : PwrSt → PwrSt) : (s.setPwr f).slewed = s.slewed := rfl
@[simp] theorem State.setPwr_regs (s : State) (f : PwrSt → PwrSt) : (s.setPwr f).regs = s.regs := rfl
@[simp] theorem State.setPwr_latches (s : State) (f : PwrSt → PwrSt) : (s.setPwr f).latches = s.latches := rfl
@[simp] theorem State.setPwr_lows (s : State) (f : PwrSt → PwrSt) : (s.setPwr f).lows = s.lows := rfl
@[simp] theorem State.setPwr_readData (s : State) (f : PwrSt → PwrSt) : (s.setPwr f).readData = s.readData := rfl
@[simp] theorem State.setPwr_refusal (s : State) (f : PwrSt → PwrSt) : (s.setPwr f).refusal = s.refusal := rfl
@[simp] theorem State.setPwr_rises (s : State) (f : PwrSt → PwrSt) : (s.setPwr f).rises = s.rises := rfl
@[simp] theorem State.setPwr_fault (s : State) (f : PwrSt → PwrSt) : (s.setPwr f).fault = s.fault := rfl
@[simp] theorem State.setPwr_trust (s : State) (f : PwrSt → PwrSt) : (s.setPwr f).trust = s.trust := rfl
@[simp] theorem State.setPwr_gate (s : State) (f : PwrSt → PwrSt) : (s.setPwr f).gate = s.gate := rfl
@[simp] theorem State.setPwr_take (s : State) (f : PwrSt → PwrSt) : (s.setPwr f).take = s.take := rfl
@[simp] theorem State.setPwr_trig (s : State) (f : PwrSt → PwrSt) : (s.setPwr f).trig = s.trig := rfl
@[simp] theorem State.setPwr_lanes (s : State) (f : PwrSt → PwrSt) : (s.setPwr f).lanes = s.lanes := rfl
@[simp] theorem State.setPwr_jobs (s : State) (f : PwrSt → PwrSt) : (s.setPwr f).jobs = s.jobs := rfl
@[simp] theorem State.setPwr_nand (s : State) (f : PwrSt → PwrSt) : (s.setPwr f).nand = s.nand := rfl
@[simp] theorem State.setPwr_media (s : State) (f : PwrSt → PwrSt) : (s.setPwr f).media = s.media := rfl
@[simp] theorem State.setPwr_array (s : State) (f : PwrSt → PwrSt) : (s.setPwr f).array = s.array := rfl
@[simp] theorem State.setPwr_tally (s : State) (f : PwrSt → PwrSt) : (s.setPwr f).tally = s.tally := rfl
@[simp] theorem State.setPwr_keys (s : State) (f : PwrSt → PwrSt) : (s.setPwr f).keys = s.keys := rfl
@[simp] theorem State.setPwr_ns (s : State) (f : PwrSt → PwrSt) : (s.setPwr f).ns = s.ns := rfl
@[simp] theorem State.setPwr_mem (s : State) (f : PwrSt → PwrSt) : (s.setPwr f).mem = s.mem := rfl
@[simp] theorem State.setPwr_xlate (s : State) (f : PwrSt → PwrSt) : (s.setPwr f).xlate = s.xlate := rfl
@[simp] theorem State.setPwr_cores (s : State) (f : PwrSt → PwrSt) : (s.setPwr f).cores = s.cores := rfl
@[simp] theorem State.setPwr_clusters (s : State) (f : PwrSt → PwrSt) : (s.setPwr f).clusters = s.clusters := rfl
@[simp] theorem State.setPwr_mcLoad (s : State) (f : PwrSt → PwrSt) : (s.setPwr f).mcLoad = s.mcLoad := rfl
@[simp] theorem State.setPwr_tenant (s : State) (f : PwrSt → PwrSt) : (s.setPwr f).tenant = s.tenant := rfl
@[simp] theorem State.setPwr_pwr (s : State) (f : PwrSt → PwrSt) : (s.setPwr f).pwr = f s.pwr := rfl
@[simp] theorem State.setPwr_ear (s : State) (f : PwrSt → PwrSt) : (s.setPwr f).ear = s.ear := rfl
@[simp] theorem State.setPwr_feeds (s : State) (f : PwrSt → PwrSt) : (s.setPwr f).feeds = s.feeds := rfl
@[simp] theorem State.setPwr_host (s : State) (f : PwrSt → PwrSt) : (s.setPwr f).host = s.host := rfl
@[simp] theorem State.setPwr_dram (s : State) (f : PwrSt → PwrSt) : (s.setPwr f).dram = s.dram := rfl
@[simp] theorem State.setPwr_drove (s : State) (f : PwrSt → PwrSt) : (s.setPwr f).drove = s.drove := rfl
@[simp] theorem State.setPwr_get (s : State) (f : PwrSt → PwrSt) (x : Fld) : (s.setPwr f).get x = s.get x := rfl

/-! ### State.setEar -/

@[simp] theorem State.setEar_pending (s : State) (f : EarmarkSt → EarmarkSt) : (s.setEar f).pending = s.pending := rfl
@[simp] theorem State.setEar_time (s : State) (f : EarmarkSt → EarmarkSt) : (s.setEar f).time = s.time := rfl
@[simp] theorem State.setEar_freeNext (s : State) (f : EarmarkSt → EarmarkSt) : (s.setEar f).freeNext = s.freeNext := rfl
@[simp] theorem State.setEar_rtcBase (s : State) (f : EarmarkSt → EarmarkSt) : (s.setEar f).rtcBase = s.rtcBase := rfl
@[simp] theorem State.setEar_rtcAt (s : State) (f : EarmarkSt → EarmarkSt) : (s.setEar f).rtcAt = s.rtcAt := rfl
@[simp] theorem State.setEar_slewed (s : State) (f : EarmarkSt → EarmarkSt) : (s.setEar f).slewed = s.slewed := rfl
@[simp] theorem State.setEar_regs (s : State) (f : EarmarkSt → EarmarkSt) : (s.setEar f).regs = s.regs := rfl
@[simp] theorem State.setEar_latches (s : State) (f : EarmarkSt → EarmarkSt) : (s.setEar f).latches = s.latches := rfl
@[simp] theorem State.setEar_lows (s : State) (f : EarmarkSt → EarmarkSt) : (s.setEar f).lows = s.lows := rfl
@[simp] theorem State.setEar_readData (s : State) (f : EarmarkSt → EarmarkSt) : (s.setEar f).readData = s.readData := rfl
@[simp] theorem State.setEar_refusal (s : State) (f : EarmarkSt → EarmarkSt) : (s.setEar f).refusal = s.refusal := rfl
@[simp] theorem State.setEar_rises (s : State) (f : EarmarkSt → EarmarkSt) : (s.setEar f).rises = s.rises := rfl
@[simp] theorem State.setEar_fault (s : State) (f : EarmarkSt → EarmarkSt) : (s.setEar f).fault = s.fault := rfl
@[simp] theorem State.setEar_trust (s : State) (f : EarmarkSt → EarmarkSt) : (s.setEar f).trust = s.trust := rfl
@[simp] theorem State.setEar_gate (s : State) (f : EarmarkSt → EarmarkSt) : (s.setEar f).gate = s.gate := rfl
@[simp] theorem State.setEar_take (s : State) (f : EarmarkSt → EarmarkSt) : (s.setEar f).take = s.take := rfl
@[simp] theorem State.setEar_trig (s : State) (f : EarmarkSt → EarmarkSt) : (s.setEar f).trig = s.trig := rfl
@[simp] theorem State.setEar_lanes (s : State) (f : EarmarkSt → EarmarkSt) : (s.setEar f).lanes = s.lanes := rfl
@[simp] theorem State.setEar_jobs (s : State) (f : EarmarkSt → EarmarkSt) : (s.setEar f).jobs = s.jobs := rfl
@[simp] theorem State.setEar_nand (s : State) (f : EarmarkSt → EarmarkSt) : (s.setEar f).nand = s.nand := rfl
@[simp] theorem State.setEar_media (s : State) (f : EarmarkSt → EarmarkSt) : (s.setEar f).media = s.media := rfl
@[simp] theorem State.setEar_array (s : State) (f : EarmarkSt → EarmarkSt) : (s.setEar f).array = s.array := rfl
@[simp] theorem State.setEar_tally (s : State) (f : EarmarkSt → EarmarkSt) : (s.setEar f).tally = s.tally := rfl
@[simp] theorem State.setEar_keys (s : State) (f : EarmarkSt → EarmarkSt) : (s.setEar f).keys = s.keys := rfl
@[simp] theorem State.setEar_ns (s : State) (f : EarmarkSt → EarmarkSt) : (s.setEar f).ns = s.ns := rfl
@[simp] theorem State.setEar_mem (s : State) (f : EarmarkSt → EarmarkSt) : (s.setEar f).mem = s.mem := rfl
@[simp] theorem State.setEar_xlate (s : State) (f : EarmarkSt → EarmarkSt) : (s.setEar f).xlate = s.xlate := rfl
@[simp] theorem State.setEar_cores (s : State) (f : EarmarkSt → EarmarkSt) : (s.setEar f).cores = s.cores := rfl
@[simp] theorem State.setEar_clusters (s : State) (f : EarmarkSt → EarmarkSt) : (s.setEar f).clusters = s.clusters := rfl
@[simp] theorem State.setEar_mcLoad (s : State) (f : EarmarkSt → EarmarkSt) : (s.setEar f).mcLoad = s.mcLoad := rfl
@[simp] theorem State.setEar_tenant (s : State) (f : EarmarkSt → EarmarkSt) : (s.setEar f).tenant = s.tenant := rfl
@[simp] theorem State.setEar_pwr (s : State) (f : EarmarkSt → EarmarkSt) : (s.setEar f).pwr = s.pwr := rfl
@[simp] theorem State.setEar_ear (s : State) (f : EarmarkSt → EarmarkSt) : (s.setEar f).ear = f s.ear := rfl
@[simp] theorem State.setEar_feeds (s : State) (f : EarmarkSt → EarmarkSt) : (s.setEar f).feeds = s.feeds := rfl
@[simp] theorem State.setEar_host (s : State) (f : EarmarkSt → EarmarkSt) : (s.setEar f).host = s.host := rfl
@[simp] theorem State.setEar_dram (s : State) (f : EarmarkSt → EarmarkSt) : (s.setEar f).dram = s.dram := rfl
@[simp] theorem State.setEar_drove (s : State) (f : EarmarkSt → EarmarkSt) : (s.setEar f).drove = s.drove := rfl
@[simp] theorem State.setEar_get (s : State) (f : EarmarkSt → EarmarkSt) (x : Fld) : (s.setEar f).get x = s.get x := rfl

/-! ### State.setDram -/

@[simp] theorem State.setDram_pending (s : State) (f : DramSt → DramSt) : (s.setDram f).pending = s.pending := rfl
@[simp] theorem State.setDram_time (s : State) (f : DramSt → DramSt) : (s.setDram f).time = s.time := rfl
@[simp] theorem State.setDram_freeNext (s : State) (f : DramSt → DramSt) : (s.setDram f).freeNext = s.freeNext := rfl
@[simp] theorem State.setDram_rtcBase (s : State) (f : DramSt → DramSt) : (s.setDram f).rtcBase = s.rtcBase := rfl
@[simp] theorem State.setDram_rtcAt (s : State) (f : DramSt → DramSt) : (s.setDram f).rtcAt = s.rtcAt := rfl
@[simp] theorem State.setDram_slewed (s : State) (f : DramSt → DramSt) : (s.setDram f).slewed = s.slewed := rfl
@[simp] theorem State.setDram_regs (s : State) (f : DramSt → DramSt) : (s.setDram f).regs = s.regs := rfl
@[simp] theorem State.setDram_latches (s : State) (f : DramSt → DramSt) : (s.setDram f).latches = s.latches := rfl
@[simp] theorem State.setDram_lows (s : State) (f : DramSt → DramSt) : (s.setDram f).lows = s.lows := rfl
@[simp] theorem State.setDram_readData (s : State) (f : DramSt → DramSt) : (s.setDram f).readData = s.readData := rfl
@[simp] theorem State.setDram_refusal (s : State) (f : DramSt → DramSt) : (s.setDram f).refusal = s.refusal := rfl
@[simp] theorem State.setDram_rises (s : State) (f : DramSt → DramSt) : (s.setDram f).rises = s.rises := rfl
@[simp] theorem State.setDram_fault (s : State) (f : DramSt → DramSt) : (s.setDram f).fault = s.fault := rfl
@[simp] theorem State.setDram_trust (s : State) (f : DramSt → DramSt) : (s.setDram f).trust = s.trust := rfl
@[simp] theorem State.setDram_gate (s : State) (f : DramSt → DramSt) : (s.setDram f).gate = s.gate := rfl
@[simp] theorem State.setDram_take (s : State) (f : DramSt → DramSt) : (s.setDram f).take = s.take := rfl
@[simp] theorem State.setDram_trig (s : State) (f : DramSt → DramSt) : (s.setDram f).trig = s.trig := rfl
@[simp] theorem State.setDram_lanes (s : State) (f : DramSt → DramSt) : (s.setDram f).lanes = s.lanes := rfl
@[simp] theorem State.setDram_jobs (s : State) (f : DramSt → DramSt) : (s.setDram f).jobs = s.jobs := rfl
@[simp] theorem State.setDram_nand (s : State) (f : DramSt → DramSt) : (s.setDram f).nand = s.nand := rfl
@[simp] theorem State.setDram_media (s : State) (f : DramSt → DramSt) : (s.setDram f).media = s.media := rfl
@[simp] theorem State.setDram_array (s : State) (f : DramSt → DramSt) : (s.setDram f).array = s.array := rfl
@[simp] theorem State.setDram_tally (s : State) (f : DramSt → DramSt) : (s.setDram f).tally = s.tally := rfl
@[simp] theorem State.setDram_keys (s : State) (f : DramSt → DramSt) : (s.setDram f).keys = s.keys := rfl
@[simp] theorem State.setDram_ns (s : State) (f : DramSt → DramSt) : (s.setDram f).ns = s.ns := rfl
@[simp] theorem State.setDram_mem (s : State) (f : DramSt → DramSt) : (s.setDram f).mem = s.mem := rfl
@[simp] theorem State.setDram_xlate (s : State) (f : DramSt → DramSt) : (s.setDram f).xlate = s.xlate := rfl
@[simp] theorem State.setDram_cores (s : State) (f : DramSt → DramSt) : (s.setDram f).cores = s.cores := rfl
@[simp] theorem State.setDram_clusters (s : State) (f : DramSt → DramSt) : (s.setDram f).clusters = s.clusters := rfl
@[simp] theorem State.setDram_mcLoad (s : State) (f : DramSt → DramSt) : (s.setDram f).mcLoad = s.mcLoad := rfl
@[simp] theorem State.setDram_tenant (s : State) (f : DramSt → DramSt) : (s.setDram f).tenant = s.tenant := rfl
@[simp] theorem State.setDram_pwr (s : State) (f : DramSt → DramSt) : (s.setDram f).pwr = s.pwr := rfl
@[simp] theorem State.setDram_ear (s : State) (f : DramSt → DramSt) : (s.setDram f).ear = s.ear := rfl
@[simp] theorem State.setDram_feeds (s : State) (f : DramSt → DramSt) : (s.setDram f).feeds = s.feeds := rfl
@[simp] theorem State.setDram_host (s : State) (f : DramSt → DramSt) : (s.setDram f).host = s.host := rfl
@[simp] theorem State.setDram_dram (s : State) (f : DramSt → DramSt) : (s.setDram f).dram = f s.dram := rfl
@[simp] theorem State.setDram_drove (s : State) (f : DramSt → DramSt) : (s.setDram f).drove = s.drove := rfl
@[simp] theorem State.setDram_get (s : State) (f : DramSt → DramSt) (x : Fld) : (s.setDram f).get x = s.get x := rfl

/-! ### State.setDrove -/

@[simp] theorem State.setDrove_pending (s : State) (f : DroveSt → DroveSt) : (s.setDrove f).pending = s.pending := rfl
@[simp] theorem State.setDrove_time (s : State) (f : DroveSt → DroveSt) : (s.setDrove f).time = s.time := rfl
@[simp] theorem State.setDrove_freeNext (s : State) (f : DroveSt → DroveSt) : (s.setDrove f).freeNext = s.freeNext := rfl
@[simp] theorem State.setDrove_rtcBase (s : State) (f : DroveSt → DroveSt) : (s.setDrove f).rtcBase = s.rtcBase := rfl
@[simp] theorem State.setDrove_rtcAt (s : State) (f : DroveSt → DroveSt) : (s.setDrove f).rtcAt = s.rtcAt := rfl
@[simp] theorem State.setDrove_slewed (s : State) (f : DroveSt → DroveSt) : (s.setDrove f).slewed = s.slewed := rfl
@[simp] theorem State.setDrove_regs (s : State) (f : DroveSt → DroveSt) : (s.setDrove f).regs = s.regs := rfl
@[simp] theorem State.setDrove_latches (s : State) (f : DroveSt → DroveSt) : (s.setDrove f).latches = s.latches := rfl
@[simp] theorem State.setDrove_lows (s : State) (f : DroveSt → DroveSt) : (s.setDrove f).lows = s.lows := rfl
@[simp] theorem State.setDrove_readData (s : State) (f : DroveSt → DroveSt) : (s.setDrove f).readData = s.readData := rfl
@[simp] theorem State.setDrove_refusal (s : State) (f : DroveSt → DroveSt) : (s.setDrove f).refusal = s.refusal := rfl
@[simp] theorem State.setDrove_rises (s : State) (f : DroveSt → DroveSt) : (s.setDrove f).rises = s.rises := rfl
@[simp] theorem State.setDrove_fault (s : State) (f : DroveSt → DroveSt) : (s.setDrove f).fault = s.fault := rfl
@[simp] theorem State.setDrove_trust (s : State) (f : DroveSt → DroveSt) : (s.setDrove f).trust = s.trust := rfl
@[simp] theorem State.setDrove_gate (s : State) (f : DroveSt → DroveSt) : (s.setDrove f).gate = s.gate := rfl
@[simp] theorem State.setDrove_take (s : State) (f : DroveSt → DroveSt) : (s.setDrove f).take = s.take := rfl
@[simp] theorem State.setDrove_trig (s : State) (f : DroveSt → DroveSt) : (s.setDrove f).trig = s.trig := rfl
@[simp] theorem State.setDrove_lanes (s : State) (f : DroveSt → DroveSt) : (s.setDrove f).lanes = s.lanes := rfl
@[simp] theorem State.setDrove_jobs (s : State) (f : DroveSt → DroveSt) : (s.setDrove f).jobs = s.jobs := rfl
@[simp] theorem State.setDrove_nand (s : State) (f : DroveSt → DroveSt) : (s.setDrove f).nand = s.nand := rfl
@[simp] theorem State.setDrove_media (s : State) (f : DroveSt → DroveSt) : (s.setDrove f).media = s.media := rfl
@[simp] theorem State.setDrove_array (s : State) (f : DroveSt → DroveSt) : (s.setDrove f).array = s.array := rfl
@[simp] theorem State.setDrove_tally (s : State) (f : DroveSt → DroveSt) : (s.setDrove f).tally = s.tally := rfl
@[simp] theorem State.setDrove_keys (s : State) (f : DroveSt → DroveSt) : (s.setDrove f).keys = s.keys := rfl
@[simp] theorem State.setDrove_ns (s : State) (f : DroveSt → DroveSt) : (s.setDrove f).ns = s.ns := rfl
@[simp] theorem State.setDrove_mem (s : State) (f : DroveSt → DroveSt) : (s.setDrove f).mem = s.mem := rfl
@[simp] theorem State.setDrove_xlate (s : State) (f : DroveSt → DroveSt) : (s.setDrove f).xlate = s.xlate := rfl
@[simp] theorem State.setDrove_cores (s : State) (f : DroveSt → DroveSt) : (s.setDrove f).cores = s.cores := rfl
@[simp] theorem State.setDrove_clusters (s : State) (f : DroveSt → DroveSt) : (s.setDrove f).clusters = s.clusters := rfl
@[simp] theorem State.setDrove_mcLoad (s : State) (f : DroveSt → DroveSt) : (s.setDrove f).mcLoad = s.mcLoad := rfl
@[simp] theorem State.setDrove_tenant (s : State) (f : DroveSt → DroveSt) : (s.setDrove f).tenant = s.tenant := rfl
@[simp] theorem State.setDrove_pwr (s : State) (f : DroveSt → DroveSt) : (s.setDrove f).pwr = s.pwr := rfl
@[simp] theorem State.setDrove_ear (s : State) (f : DroveSt → DroveSt) : (s.setDrove f).ear = s.ear := rfl
@[simp] theorem State.setDrove_feeds (s : State) (f : DroveSt → DroveSt) : (s.setDrove f).feeds = s.feeds := rfl
@[simp] theorem State.setDrove_host (s : State) (f : DroveSt → DroveSt) : (s.setDrove f).host = s.host := rfl
@[simp] theorem State.setDrove_dram (s : State) (f : DroveSt → DroveSt) : (s.setDrove f).dram = s.dram := rfl
@[simp] theorem State.setDrove_drove (s : State) (f : DroveSt → DroveSt) : (s.setDrove f).drove = f s.drove := rfl
@[simp] theorem State.setDrove_get (s : State) (f : DroveSt → DroveSt) (x : Fld) : (s.setDrove f).get x = s.get x := rfl

/-! ### State.put -/

@[simp] theorem State.put_pending (s : State) (x : Fld) (v : Nat) : (s.put x v).pending = s.pending := rfl
@[simp] theorem State.put_time (s : State) (x : Fld) (v : Nat) : (s.put x v).time = s.time := rfl
@[simp] theorem State.put_freeNext (s : State) (x : Fld) (v : Nat) : (s.put x v).freeNext = s.freeNext := rfl
@[simp] theorem State.put_rtcBase (s : State) (x : Fld) (v : Nat) : (s.put x v).rtcBase = s.rtcBase := rfl
@[simp] theorem State.put_rtcAt (s : State) (x : Fld) (v : Nat) : (s.put x v).rtcAt = s.rtcAt := rfl
@[simp] theorem State.put_slewed (s : State) (x : Fld) (v : Nat) : (s.put x v).slewed = s.slewed := rfl
@[simp] theorem State.put_regs (s : State) (x : Fld) (v : Nat) : (s.put x v).regs = assocSet s.regs x (v % 2 ^ x.w) := rfl
@[simp] theorem State.put_latches (s : State) (x : Fld) (v : Nat) : (s.put x v).latches = s.latches := rfl
@[simp] theorem State.put_lows (s : State) (x : Fld) (v : Nat) : (s.put x v).lows = s.lows := rfl
@[simp] theorem State.put_readData (s : State) (x : Fld) (v : Nat) : (s.put x v).readData = s.readData := rfl
@[simp] theorem State.put_refusal (s : State) (x : Fld) (v : Nat) : (s.put x v).refusal = s.refusal := rfl
@[simp] theorem State.put_rises (s : State) (x : Fld) (v : Nat) : (s.put x v).rises = s.rises := rfl
@[simp] theorem State.put_fault (s : State) (x : Fld) (v : Nat) : (s.put x v).fault = s.fault := rfl
@[simp] theorem State.put_trust (s : State) (x : Fld) (v : Nat) : (s.put x v).trust = s.trust := rfl
@[simp] theorem State.put_gate (s : State) (x : Fld) (v : Nat) : (s.put x v).gate = s.gate := rfl
@[simp] theorem State.put_take (s : State) (x : Fld) (v : Nat) : (s.put x v).take = s.take := rfl
@[simp] theorem State.put_trig (s : State) (x : Fld) (v : Nat) : (s.put x v).trig = s.trig := rfl
@[simp] theorem State.put_lanes (s : State) (x : Fld) (v : Nat) : (s.put x v).lanes = s.lanes := rfl
@[simp] theorem State.put_jobs (s : State) (x : Fld) (v : Nat) : (s.put x v).jobs = s.jobs := rfl
@[simp] theorem State.put_nand (s : State) (x : Fld) (v : Nat) : (s.put x v).nand = s.nand := rfl
@[simp] theorem State.put_media (s : State) (x : Fld) (v : Nat) : (s.put x v).media = s.media := rfl
@[simp] theorem State.put_array (s : State) (x : Fld) (v : Nat) : (s.put x v).array = s.array := rfl
@[simp] theorem State.put_tally (s : State) (x : Fld) (v : Nat) : (s.put x v).tally = s.tally := rfl
@[simp] theorem State.put_keys (s : State) (x : Fld) (v : Nat) : (s.put x v).keys = s.keys := rfl
@[simp] theorem State.put_ns (s : State) (x : Fld) (v : Nat) : (s.put x v).ns = s.ns := rfl
@[simp] theorem State.put_mem (s : State) (x : Fld) (v : Nat) : (s.put x v).mem = s.mem := rfl
@[simp] theorem State.put_xlate (s : State) (x : Fld) (v : Nat) : (s.put x v).xlate = s.xlate := rfl
@[simp] theorem State.put_cores (s : State) (x : Fld) (v : Nat) : (s.put x v).cores = s.cores := rfl
@[simp] theorem State.put_clusters (s : State) (x : Fld) (v : Nat) : (s.put x v).clusters = s.clusters := rfl
@[simp] theorem State.put_mcLoad (s : State) (x : Fld) (v : Nat) : (s.put x v).mcLoad = s.mcLoad := rfl
@[simp] theorem State.put_tenant (s : State) (x : Fld) (v : Nat) : (s.put x v).tenant = s.tenant := rfl
@[simp] theorem State.put_pwr (s : State) (x : Fld) (v : Nat) : (s.put x v).pwr = s.pwr := rfl
@[simp] theorem State.put_ear (s : State) (x : Fld) (v : Nat) : (s.put x v).ear = s.ear := rfl
@[simp] theorem State.put_feeds (s : State) (x : Fld) (v : Nat) : (s.put x v).feeds = s.feeds := rfl
@[simp] theorem State.put_host (s : State) (x : Fld) (v : Nat) : (s.put x v).host = s.host := rfl
@[simp] theorem State.put_dram (s : State) (x : Fld) (v : Nat) : (s.put x v).dram = s.dram := rfl
@[simp] theorem State.put_drove (s : State) (x : Fld) (v : Nat) : (s.put x v).drove = s.drove := rfl

/-- What a list of pairs gives for the key set last. -/
theorem assoc_assocSet_same {α β : Type} [DecidableEq α] (l : List (α × β)) (a : α) (b : β) : assoc (assocSet l a b) a = some b := by
  induction l with
  | nil => simp [assocSet, assoc]
  | cons x l ih =>
    simp only [assocSet]
    split <;> simp_all [assoc]

/-- Other keys keep their values. -/
theorem assoc_assocSet_other {α β : Type} [DecidableEq α] (l : List (α × β)) {a c : α} (b : β) (h : c ≠ a) :
    assoc (assocSet l a b) c = assoc l c := by
  induction l with
  | nil => simp [assocSet, assoc, h.symm]
  | cons x l ih =>
    simp only [assocSet]
    split
    · next e => subst e; simp [assoc, h.symm]
    · simp [assoc, ih]

/-- A field reads the low bits of what was put into it. -/
@[simp] theorem State.get_put_same (s : State) (x : Fld) (v : Nat) : (s.put x v).get x = v % 2 ^ x.w := by
  simp only [State.get, State.put_regs, assoc_assocSet_same]

/-- Other fields read as before. -/
theorem State.get_put_other (s : State) {x y : Fld} (v : Nat) (h : y ≠ x) : (s.put x v).get y = s.get y := by
  simp only [State.get, State.put_regs, assoc_assocSet_other _ _ h]

end Sys2Proof.Machine
end

