-- ==== Sys2Proof/Tests/Slice0.lean ====
section
/-!
SUPPORT. The model's own tests: ill-formed commands that well-formedness refuses, the spec's worked examples, and for every statement with
hypotheses one theorem `met_<statement>` that shows a state and operands for each of its clauses, at a boundary of their range where they have one.
-/

namespace Sys2Proof.Tests

open Sys2Proof Sys2Proof.Machine

set_option Elab.async false

/-! ### Ill-formed commands are refused -/

/-- A register access past the end of its page, of a width other than 4 or 8, or of a page of more than 16 bits. -/
theorem test_wf_register : (Instr.registerRead .gate 2 4096 4).wf = false ∧ (Instr.registerWrite .gate 2 4092 8 0).wf = false
    ∧ (Instr.registerRead .gate 2 0 2).wf = false ∧ (Instr.errCodeClear .gate 65536).wf = false := by decide

/-- An origin that is no host function. -/
theorem test_wf_origin : (Instr.kick (.pcie 0x102)).wf = false := by decide

/-- A command of no host function, queue, identifier or NSID, and a key of none. -/
theorem test_wf_command : (Instr.barrier ⟨0x102, 0, 0, 0, []⟩).wf = false ∧ (Instr.barrier ⟨0, 65536, 0, 0, []⟩).wf = false
    ∧ (Instr.barrier ⟨0, 0, 65536, 0, []⟩).wf = false ∧ (Instr.barrier ⟨0, 0, 0, 2 ^ 32, []⟩).wf = false
    ∧ (Instr.read ⟨0x102, 0, 0⟩).wf = false ∧ (Instr.commandFetch ⟨0, 1, 0, 256, 1, [], 0, 0, 0, 0, 0, 0⟩).wf = false := by decide

/-- A job of no host function. -/
theorem test_wf_source : (Instr.hash (.host 0x102)).wf = false := by decide

/-- Packets with a part of a length they cannot have, and a flit whose packet area is short. -/
theorem test_wf_packets : (Instr.gateFlitRx ⟨true, [], [], 0⟩).wf = false ∧ (Instr.frameData ⟨0, 1, 0, []⟩).wf = false
    ∧ (Instr.metaPacket ⟨0, 1, []⟩).wf = false ∧ (Instr.ident ⟨⟨.a, 0, 0xFF, 0⟩, 0, [], .a, 0, 0⟩).wf = false
    ∧ (Instr.order ⟨⟨.a, 0, 0xFF, 0⟩, 0, 0, 0, 0, 0, []⟩).wf = false ∧ (Instr.reply ⟨⟨.a, 0, 0, 0⟩, 0, 0, 0, 0, []⟩).wf = false
    ∧ (Instr.mirror ⟨⟨.a, 0, 0, 0⟩, 0, 0, List.replicate 221 0⟩).wf = false ∧ (Instr.form ⟨⟨.a, 32, 0xFF, 0⟩, 0, 0, 0, 0, 0, 0, 0⟩).wf = false := by decide +kernel

/-- Reports of an event that name more than the hardware has. -/
theorem test_wf_reports : (Instr.nandReadDone 0 0 [⟨2 ^ 17 + 1, none⟩]).wf = false ∧ (Instr.earmarkScrub 0 [32]).wf = false
    ∧ (Instr.bootTrainingDone ⟨true, [], []⟩).wf = false ∧ (Instr.dozeRetrainDone [(32, none)]).wf = false ∧ (Instr.pmbAlert []).wf = false := by decide

/-- Numbers that do not fit their fields. -/
theorem test_wf_numbers : (Instr.groupErase 16777216).wf = false ∧ (Instr.mapPageReload 4294967296).wf = false ∧ (Instr.vfEnable 257).wf = false
    ∧ (Instr.functionReset 258).wf = false ∧ (Instr.doorbellWrite 0 65536 false 0).wf = false ∧ (Instr.perturbDelayExpiry 65536).wf = false := by decide

/-! ### Small states -/

/-- `s` with the register fields of `l` written. -/
def wr (s : State) (l : List (Fld × Nat)) : State := l.foldl (fun s x => s.put x.1 x.2) s

/-- Powered, in SERVE. -/
def wOn : State := wr State.reset [(R.PWR.MODE_MODE, 5)]

/-- SERVE with the Gate link active at x16 and credits on both sides. -/
def wGate : State :=
  let s := wr wOn [(R.GATE.LINK_STATUS_LTSSM, 4), (R.GATE.LINK_STATUS_WIDTH, 3), (R.GATE.TUNNEL_CTRL_RIGHTS, 3), (R.GATE.TUNNEL_CTRL_TUNNEL_EN, 1)]
  { s with gate := { s.gate with limCtrl := some 64, limData := 8192 } }

def wPort : Port := .a
def wCtrlReqPkt : CtrlReqPkt := ⟨1, 0, 0x10, 0x40, 0⟩
def wFlit : Flit := ⟨true, [], [], 0⟩
def wTakeOpenPkt : TakeOpenPkt := ⟨1, 0, 0, 40, 256, 1, 1, 0, 0, 0, 60, 0⟩
def wHeartbeatPkt : HeartbeatPkt := ⟨1, 2, 0⟩

/-- A small flash part. -/
def wPart : NandPart := ⟨1, 3, 4, 16384, 2048, 8, 8, 1024, 3000, 50000, 500000, 5000000, true, true, true⟩

/-- `wGate` with ten flash channels of one die, the stripe width 8, DRAM, a media key engine and a formatted map. -/
def wMedia : State :=
  let s := wr wGate ((List.range 10).flatMap fun c =>
    [(R.NAND.CH_STATUS_STATE c, 2), (R.NAND.CH_STATUS_DIES c, 1), (R.NAND.DIE_PRESENT_PRESENT c, 1)])
  let s := wr s [(R.ARRAY.LAYOUT_K, 0), (R.DRAMC.LIVE_GIB_GIB, 64), (R.DRAMC.LIVE_MASK, 15), (R.TAKE.LEE_RESERVE_GIB, 16), (R.MEDIA.MAXCAP_MB, 100000)]
  { s with nand := { s.nand with part := some wPart }, media := { s.media with formatted := true },
           keys := { s.keys with kekMedia := some (List.replicate 32 7) } }

/-- `s` with every pipeline live and with fresh masks. -/
def wPipes (s : State) : State := { wr s [(R.CIPHER.PIPES_LIVE, 63)] with keys := { s.keys with masks := [0, 1, 2, 3, 4, 5, 6] } }

/-- A contract. -/
def wC : Contract := ⟨1, 7, 0x10000, 1, 0, 100, 256, 3, 1, 0, 0, 0, 60, 0, 1000000, 1024, 5000, 8, 0, 1⟩

/-- `wMedia` with the take of `wC` open. -/
def wTake : State :=
  { wr wMedia [(R.TAKE.TAKE_STATE_STATE, 2), (R.TAKE.TAKE_ID_ID, 1)] with take := { TakeSt.reset with c := some wC } }

/-- A frame of stream 0. -/
def wFrame : FrameSt := ⟨0, 0, 5, 1000, 16, 0, 4, 4, 0, [1, 2, 3, 4], 4, 0, 0, [], 0, 0, false, 0, 0, 0, none, false, none, 0, 0⟩

/-- The open take with one frame. -/
def wFr (f : FrameSt) : State := { wTake with take := { wTake.take with frames := [f], nextUid := 1 } }

def wFrameBeginPkt : FrameBeginPkt := ⟨0, 5, 1000, 16, 0, 4, 4, 0⟩
def wFrameDataPkt : FrameDataPkt := ⟨0, 4, 5, [9, 9]⟩
def wFrameEndPkt : FrameEndPkt := ⟨0, 5, 0, 1, 77⟩
def wMetaPkt : MetaPkt := ⟨0, 4094, [1, 2, 3, 4]⟩
def wTriggerPkt : TriggerPkt := ⟨500, 9, 0, 1000⟩

/-- The first 254 bytes of a parameter page, and the page. -/
def wPage254 : Bytes := [0x4F, 0x4E, 0x46, 0x49, 0x20] ++ List.replicate 249 0
def wPage : Bytes := wPage254 ++ leBytes 2 (onfiCrc wPage254)

/-- A data unit of block namespace 1 at `logical`. -/
def wUnit (logical seq : Nat) : DUnit := ⟨1, 1, logical, seq, 0, [1], none, true⟩

/-- Block group `n` with one stripe of `us` in it. -/
def wGroup (n : Nat) (st : GroupState) (us : List DUnit) : Group :=
  ⟨n, 8, .block, 0, (List.range 10).map fun c => (c * 16, n % 8), st, [⟨us, true, List.range 10, [], true, false, false, false⟩], 1, 0, [], [], false, true, false, none⟩

/-- `wMedia` with groups and a map. -/
def wGr (gs : List Group) (m : List ((Nat × Nat) × MapEnt)) : State :=
  { wMedia with media := { wMedia.media with image := { wMedia.media.image with groups := gs, map := m }, nextGroup := 9, seq := 100 } }

/-- Function `f`, enabled. -/
def wFn (f : Nat) : Fn := ⟨⟨f, true, 16, 1, 2, 2, 256, 4, 16, 2, 2, 64, 0, 8, [1], [none]⟩, 1, 0, []⟩

/-- Block namespace 1 and take namespace 0x10000, with keys at hand. -/
def wNs1 : Ns := ⟨1, .block, 64, 0, [0, 1], 1, 0, none, []⟩
def wNsT : Ns := ⟨0x10000, .take, 8, 0, [0], 1, 0, some ⟨1, 1, 1, 1, false, false, 0, 0, 0, 0, 10, 8192, 0, 0, 0, 0⟩, []⟩

/-- `wMedia` with functions 0 and 1 enabled, function 0 holding every role, and a block namespace. -/
def wHost : State :=
  { wMedia with
    tenant := { wMedia.tenant with fns := [wFn 0, wFn 1] },
    trust := { wMedia.trust with sessions := [⟨.pcie 0, .operator, 0⟩, ⟨.pcie 0, .installer, 0⟩, ⟨.pcie 0, .maker, 0⟩] },
    keys := { wMedia.keys with slots := [⟨5, List.replicate 64 9, true, 0x1F0, 1⟩] },
    ns := [wNs1, wNsT] }

def wCmd : Cmd := ⟨0, 0, 3, 1, [.block 0x1000 (2 ^ 26)]⟩
def wLayoutGen : LayoutGen := ⟨1, List.replicate 32 (List.range 16), List.replicate 32 0, []⟩

/-- A running system core with the data stack `ds` above a spilled block, and one return entry. -/
def wCore (ds : List Word) : Core :=
  { Core.off with
    state := .running, pc := 0x100000000, dsl := 0x1000, dsp := 0x1040, dsh := 0x2000, rsl := 0x3000, rsp := 0x3000, rsh := 0x3480,
    status := 1, func := 0x1F0, ds := ds, rs := [(0x100000010, true), (5, false)], mem := memWriteN [] 0x1038 [7],
    utlb := [⟨0x1F0, 0x100000000, 2, true, true, true, .dram, 0⟩] }

/-- `wOn` with core 3 so. -/
def wCr (ds : List Word) : State := { wOn with cores := wOn.cores.set 3 (wCore ds) }

/-- What the core works on once `len` parcels of an instruction of `cyc` cycles are fetched. -/
def wX (s : State) (c : Fin 72) (len cyc : Nat) : Ctx :=
  match Ctx.fetch len s.cores[c].pc.toNat ⟨s, c, s.cores[c], cyc, none, none, 0⟩ with
  | .ok z => { z with k := { z.k with pc := s.cores[c].pc + BitVec.ofNat 48 (2 * len) } }
  | .error _ => ⟨s, c, s.cores[c], cyc, none, none, 0⟩

/-- The context of an answer. -/
def wOk (x : Ctx) (e : Except Trap Ctx) : Ctx := match e with | .ok y => y | .error _ => x

/-- Core 3 of `wCr ds` changed. -/
def wCrWith (ds : List Word) (f : Core → Core) : State := { wOn with cores := wOn.cores.set 3 (f (wCore ds)) }

/-- What microcode answered. -/
def wDone (m : Micro) (r : MicroNext) : Micro := match r with | .done n => n | _ => m

/-- A trap. -/
def wTrap : Trap := ⟨0x13, 5, true, false⟩

/-- A firmware image whose last 48 bytes are the HMAC-SHA-384 of the rest under 48 zero bytes. -/
def wBootKey : Bytes := List.replicate 48 0
def wBootHead : Bytes := bootMagic ++ [1, 0, 0, 0, 0, 16, 0, 0, 3, 0, 0, 0] ++ List.replicate 4028 0
def wBootImg : Bytes := wBootHead ++ hmacSha384 wBootKey wBootHead

/-- Bytes with their addresses, from `k`. -/
def numbered (k : Nat) : Bytes → List (Nat × Byte)
  | [] => []
  | b :: bs => (k, b) :: numbered (k + 1) bs

/-- An image downloaded, and an image running. -/
def wFwSt (img : Bytes) : FwSt :=
  { FwSt.reset with buf := numbered 0 img, bufLen := 4096, running := some (List.replicate 16 0 ++ [3, 0, 0, 0]) }

/-- `wHost` with that image downloaded, an installer generation in force and an image running. -/
def wFw (img : Bytes) : State :=
  { wHost with trust := { wHost.trust with makerGen := some 0, instGen := some 0 },
               pwr := { wHost.pwr with fw := wFwSt img } }

/-- A microcode image with fingerprint `fp`: one entry and one word. -/
def wMcHead : Bytes := mcMagic ++ [1, 0, 0, 0, 1, 0, 0, 0]
def wMcTail : Bytes := List.replicate 16 0 ++ leBytes 4 0x4A000 ++ List.replicate 252 0 ++ leBytes 16 0x20001004001
def wMc (fp : Bytes) : Bytes := wMcHead ++ (fp ++ wMcTail)

def wMcLoad (ph : Nat) (img : Bytes) (again : Bool) : McLoad := ⟨1, none, img, ph, again⟩

/-- A job descriptor: fields as offset, length and value. -/
def wDesc (l : List (Nat × Nat × Nat)) : Bytes :=
  (List.range 64).map fun i =>
    BitVec.ofNat 8 (l.foldl (fun v x => if x.1 ≤ i && decide (i < x.1 + x.2.1) then x.2.2 / 256 ^ (i - x.1) % 256 else v) 0)

/-- `wOn` with 1 GiB of DRAM at 4 GiB for system jobs, and a few bytes in it. -/
def wMem : State :=
  { wOn with xlate := [⟨0x1F0, 0x100000000, 2, true, true, true, .dram, 0⟩],
             mem := { wOn.mem with dram := [(0, 2), (4, 0x13), (8, 7), (64, 1)] } }

/-- A system job of engine `e` with descriptor `d` at the front of cluster 0's queue. -/
def wJob (e : Nat) (d : Bytes) : Job := ⟨1, .cluster 0, e, 0x1F0, d, none, none⟩
def wJobs (e : Nat) (d : Bytes) : State := { wMem with jobs := ⟨[wJob e d], [], 2, ⟨none, []⟩, []⟩ }
def wDoneJob (e st : Nat) : JobDone := ⟨wJob e [], st, 0, [], 0⟩

/-- Bank `b` of `s` holds `e` at entry 0, in the array and in the shadow. -/
def wBank (s : State) (b : Nat) (e f : EEnt) : State :=
  { s with ear := { s.ear with banks := modAt s.ear.banks b fun _ => ⟨[(0, e)], [(0, f)], []⟩ } }

/-- An I/O command of function 0 on queue 1. -/
def wIo (op nsid c10 c12 : Nat) : IoCmd := ⟨0, 1, 7, op, nsid, [.block 0x1000 0x10000], c10, 0, c12, 0, 0, 0⟩
def wKey : CmdKey := ⟨0, 1, 7⟩

/-- It, fetched and ready. -/
def wHc (x : IoCmd) : HCmd := ⟨x, 5, [], .ready, 0, false⟩

def wSq : Sq := ⟨0, 1, 16, 1, 1, 0, none, 0⟩
def wCq : Cq := ⟨0, 1, 16, 0, true, 0, 0⟩

/-- Compute and memory namespaces of function 0. -/
def wNsC : Ns := ⟨0x400, .compute, 0, 0, [0], 0, 0, none, []⟩
def wNsM : Ns := ⟨0x600, .memory, 0x4000000, 0, [0], 0, 0, none, []⟩

/-- `wHost` with queue pair 1 of function 0, the commands `cs`, and units 5 (on flash) and 6 (zeroes) of namespace 1. -/
def wQ (cs : List HCmd) : State :=
  { wr wHost [(R.TAKE.HOLDUP_HOLDUP_MS, 50)] with
    host := { wHost.host with sqs := [wSq], cqs := [wCq], cmds := cs },
    ns := [wNs1, wNsT, wNsC, wNsM],
    media := (wGr [wGroup 1 .closed [wUnit 5 7]] [((1, 5), .mapped 1 0), ((1, 6), .zeroes 0)]).media,
    nand := { wHost.nand with flash := [⟨0, 1, 0, 0, 0, []⟩] } }

/-- `n` bytes: fields as offset, length and value. -/
def wBytes (n : Nat) (l : List (Nat × Nat × Nat)) : Bytes :=
  (List.range n).map fun i =>
    BitVec.ofNat 8 (l.foldl (fun v x => if x.1 ≤ i && decide (i < x.1 + x.2.1) then x.2.2 / 256 ^ (i - x.1) % 256 else v) 0)

/-- A profile of function 2, and its bytes. -/
def wProf : Prof := ⟨2, false, 8, 1, 4, 4, 0, 8, 0, 8, 64, 100, 0, 4096, [1], List.replicate 15 none⟩
def wProfBytes : Bytes :=
  wBytes 256 [(0, 2, 2), (4, 2, 8), (6, 1, 1), (8, 8, 4), (16, 4, 4), (20, 2, 8), (22, 2, 8), (24, 4, 64), (28, 2, 100), (32, 4, 4096), (36, 1, 1), (128, 4, 1)]

/-- A flock image of one local data section, its fingerprint given, and a load of it. -/
def wImgOf (fp : Bytes) : Bytes :=
  overlay (wBytes 296 [(0, 8, 0x4B434C464B524F43), (8, 2, 1), (12, 2, 1), (16, 8, 0x1000), (32, 4, 128), (36, 4, 144), (40, 8, 296), (256, 1, 2), (260, 4, 8), (272, 8, 288), (288, 8, 77)]) 80 fp
def wImg : Bytes := wImgOf (sha256 (wImgOf (List.replicate 32 0)))

/-- `wQ` with a pool, that program in slot 1 of function 0, a range set 1, a key of its own, a translation, and core 9 stopped. -/
def wTen (cs : List HCmd) : State :=
  let s := wr (wQ cs) [(R.TENANT.DRAM_POOL_MIB, 8192)]
  { s with
    tenant := { s.tenant with fns := [{ wFn 0 with ranges := [(1, [⟨0x600, 8192, 4096⟩])] }, wFn 1] },
    host := { s.host with progs := [⟨0, 1, wImg, true⟩] },
    keys := { s.keys with slots := [⟨5, List.replicate 64 9, true, 0x1F0, 1⟩, ⟨257, List.replicate 64 9, true, 0, 1⟩] },
    xlate := [⟨0, 0x1000, 0, true, true, false, .dram, 0⟩, ⟨1, 0x1000, 0, true, true, false, .dram, 0⟩],
    cores := s.cores.set 9 { Core.off with state := .stopped } }

/-- Core 9 of `wTen` ended with result `w`. -/
def wEnded (w : Word) : State :=
  let s := wTen [{ wHc (wIo 0x83 0x400 1 0) with phase := .running }]
  { s with cores := s.cores.set 9 { Core.off with state := .stopped, prog := some ⟨0, false, [], false, wKey, 0, some (some w), 0⟩ } }

/-- A drove link in use. -/
def wLk : DroveLink := { DroveLink.down with up := true, ident := true, limCtrl := some 100, peer := some [1], replay := [⟨4, [[1]], 0⟩], ackFrom := 500, txSeq := 4, rxBuf := [] }

/-- Member 2 of a formed set of 3 at EPOCH 5 whose manager is member 0, with quorum. -/
def wDr : State :=
  let s := wr wTake [(R.DROVE.SET_CFG_ROLE, 3), (R.DROVE.SET_CFG_CONFIG_N, 3), (R.DROVE.SET_ID_ID, 0x123456789)]
  { s with
    time := 1000000000,
    trust := { s.trust with sessions := [⟨.pcie 0, .operator, 0⟩, ⟨.pcie 0, .installer, 0⟩, ⟨.pcie 0, .maker, 0⟩] },
    tenant := { s.tenant with fns := [wFn 0] },
    drove := { DroveSt.reset with
      a := wLk, b := wLk, role := 3, member := some 2, manager := 0, standby := some 1, epoch := 5, quorum := true,
      live := [⟨0, 999000000, 5, 1, 0, 7, true⟩, ⟨1, 998000000, 5, 2, 0, 7, true⟩] } }

/-- `s` with `f` done to its drove part. -/
def wD (s : State) (f : DroveSt → DroveSt) : State := { s with drove := f s.drove }

/-- The same without a take. -/
def wDr0 : State := wr wDr [(R.TAKE.TAKE_STATE_STATE, 0)]

/-- An envelope of member 0 to member 2. -/
def wHd : DroveHdr := ⟨.a, 0, 2, 4⟩
def wHdAll : DroveHdr := ⟨.a, 0, 0xFF, 4⟩

/-- A set operation of member 2. -/
def wOp (op t : Nat) : SetOp := ⟨0, 2, 9, op, 0, t, [], 5, none, false, [], none⟩

/-- `wDr` with operation `o` held and its command waiting. -/
def wHeld (o : SetOp) : State :=
  let s := wD wDr fun d => { d with held := [o] }
  { s with host := { s.host with waiting := [(wCmd, .setOp o.tag)] } }

/-- An armed start. -/
def wArm (c : Bool) : State :=
  let s := wD (wr wDr [(R.TAKE.TAKE_STATE_STATE, 1)]) fun d => { d with armed := some ⟨7, 1000500000, c⟩ }
  { s with take := { TakeSt.reset with req := some wTakeOpenPkt } }

/-- `wTake` with four DRAM channels in use. -/
def wDram : State :=
  let s := wr wTake ((List.range 4).flatMap fun c => [(R.DRAM.CH_STATUS_STATE c, 2), (R.DRAM.TRAIN_LANE_WR_DQ c 3, 250)])
  { s with trust := { s.trust with sessions := [⟨.pcie 0, .operator, 0⟩, ⟨.pcie 0, .installer, 0⟩, ⟨.pcie 0, .maker, 0⟩] },
           tenant := { s.tenant with fns := [wFn 0] }, dram := ⟨List.replicate 4 [], List.replicate 4 [], List.replicate 4 1, List.replicate 4 0, List.replicate 4 []⟩, time := 5000000 }

/-- IDLE with nothing running, the regulators of slots 0-3 present, every role held by function 0. -/
def wIdle : State :=
  let s := wr wMedia ([(R.PWR.MODE_MODE, 3), (R.PWR.DOZE_AFTER_S, 5), (R.VREG.LINK_STATUS_PRESENT, 15), (R.CLK.DOMAINS_RUNNING, 31)]
    ++ (List.range 4).flatMap fun n => [(R.VREG.SLOT_CFG_RAIL n, n), (R.VREG.VOUT_SET_MV n, 850), (R.VREG.LIMITS_VMIN_MV n, 600), (R.VREG.LIMITS_VMAX_MV n, 1000)])
  { s with trust := { s.trust with sessions := [⟨.pcie 0, .operator, 0⟩, ⟨.pcie 0, .installer, 0⟩, ⟨.pcie 0, .maker, 0⟩] },
           tenant := { s.tenant with fns := [wFn 0] }, time := 7000000000 }

/-- `s` with `f` done to its power part. -/
def wP (s : State) (f : PwrSt → PwrSt) : State := { s with pwr := f s.pwr }

/-- A transition of kind `k` in phase `ph`. -/
def wTr (k : TranKind) (ph : Nat) (l : List VStep) : Tran := ⟨k, ph, l, [], 0, false, false, 0⟩
def wTran (x : Tran) : State := wP wIdle fun p => { p with tran := some x }

/-- Booting, in phase `ph`, with that maker and installer generation in force. -/
def wBoot (ph : Nat) : State :=
  let s := wP (wr wIdle [(R.PWR.MODE_MODE, 2)]) fun p => { p with bootPhase := ph, sources := [(0, 1), (1, 0)], fw := { p.fw with region := [none, none, none] } }
  { s with trust := { s.trust with makerGen := some 0, instGen := some 0 } }

/-- Held without an image, the mailbox open to function 0. -/
def wHeldBoot (h : Held) (len : Nat) : State :=
  let s := wP (wr wIdle [(R.PWR.MODE_MODE, 2), (R.PWR.MBOX_LEN_BYTES, len), (R.PWR.MBOX_ADDR_ADDR, 16)]) fun p => { p with held := h, bootPhase := 3 }
  { s with trust := { s.trust with makerGen := some 0, instGen := none, otp := memWriteN [] 0 [0xA5, 1] } }

/-- A training report with four channels of 16 GiB. -/
def wTrain (eye : Nat) (rated : Bool) : DramTraining := ⟨rated, List.replicate 4 (16, true, false, true), List.replicate 4 (List.replicate 10 (3, 4, eye))⟩

/-- A maker image and an installer image that pass their checks, and the maker image's bytes that are not zero as the OTP holds them. -/
def wMakerImg : Bytes := [0xA5, 1] ++ List.replicate 6 0 ++ [7] ++ List.replicate 243 0 ++ leBytes 4 0x67EA6314
def wInstImg : Bytes := [0xA5, 1] ++ List.replicate 17 0 ++ [2] ++ List.replicate 744 0 ++ leBytes 4 0xE6A8085E
def wMakerOtp : List (Nat × Byte) := [(0, 0xA5), (1, 1), (8, 7), (252, 0x14), (253, 0x63), (254, 0xEA), (255, 0x67)]

/-- The lifecycle's OTP words as a device in the field holds them, function 0 with every role. -/
def wTrust : State :=
  { wIdle with trust := { wIdle.trust with makerGen := some 0, instGen := some 0, lockouts := List.replicate 3 ⟨0, 0, 0⟩ } }
def wNoRole (s : State) : State := { s with trust := { s.trust with sessions := [] } }
def wT (s : State) (f : TrustSt → TrustSt) : State := { s with trust := f s.trust }

/-- What a command left. -/
def wOut (o : Host.Outcome State Fault Refusal) : State := match o with | .next t => t | _ => State.reset

/-- `wX` is what an instruction of `len` parcels works on once they are fetched. -/
theorem fetched_wX {s : State} {c : Fin 72} {len cyc : Nat} (h : s.cores[c].state = .running)
    (hf : (s.cores[c].upsets.isEmpty && (Ctx.fetch len s.cores[c].pc.toNat ⟨s, c, s.cores[c], cyc, none, none, 0⟩).isOk) = true) :
    s.fetchedOn c len cyc (wX s c len cyc) := by
  rw [Bool.and_eq_true] at hf
  refine ⟨h, List.isEmpty_iff.mp hf.1, ?_⟩
  unfold wX
  cases e : Ctx.fetch len s.cores[c].pc.toNat ⟨s, c, s.cores[c], cyc, none, none, 0⟩ with
  | error _ => rw [e] at hf; cases hf.2
  | ok z => exact ⟨z, rfl, rfl⟩

/-- The context of an answer that is one. -/
def wGot (e : Except Trap Ctx) : Ctx := wOk ⟨wOn, 0, Core.off, 0, none, none, 0⟩ e

/-- What microcode stands at in an answer, and that it is done. -/
def wMicroOf (r : MicroNext) : Micro := match r with | .go m _ => m | .done m => m | .trap m _ _ => m
def wIsDone (r : MicroNext) : Bool := match r with | .done _ => true | _ => false

theorem doneOf_eq {r : MicroNext} (h : wIsDone r = true) : r = .done (wMicroOf r) := by
  cases r with
  | done _ => rfl
  | go _ _ => cases h
  | trap _ _ _ => cases h

theorem length_leBytes (n v : Nat) : (leBytes n v).length = n := by
  induction n generalizing v with
  | zero => rfl
  | succ n ih => simp [leBytes, ih]
theorem length_beBytes (n v : Nat) : (beBytes n v).length = n := by simp [beBytes, length_leBytes]

theorem shaRounds_length (p : ShaParams) (ks xs : List Nat) : ∀ r : List Nat, r.length = 8 → (shaRounds p r ks xs).length = 8 := by
  induction ks generalizing xs with
  | nil => intro r h; simpa [shaRounds] using h
  | cons k ks ih =>
    intro r h
    cases xs with
    | nil => simpa [shaRounds] using h
    | cons x xs =>
      refine ih xs _ ?_
      match r, h with
      | [_, _, _, _, _, _, _, _], _ => rfl

theorem shaBlocks_length (p : ShaParams) (bs : List Bytes) : ∀ r : List Nat, r.length = 8 → (bs.foldl (shaBlock p) r).length = 8 := by
  induction bs with
  | nil => intro r h; exact h
  | cons b bs ih => intro r h; exact ih _ (by simp [shaBlock, shaRounds_length, h])

theorem sha384_length (m : Bytes) : (sha384 m).length = 48 := by
  have h := shaBlocks_length sha512Params (chunks (2 * sha512Params.w) (shaPad sha512Params m)) iv384 rfl
  simp only [sha384, digest, shaWith, List.length_take, List.length_flatMap, length_beBytes]
  rw [List.map_const', h]; rfl

theorem sha256_length (m : Bytes) : (sha256 m).length = 32 := by
  have h := shaBlocks_length sha256Params (chunks (2 * sha256Params.w) (shaPad sha256Params m)) iv256 rfl
  simp only [sha256, digest, shaWith, List.length_take, List.length_flatMap, length_beBytes]
  rw [List.map_const', h]; rfl

/-- A record of the journal. -/
def withRecords (s : State) (n : Nat) : State :=
  { s with media := { s.media with journal := [⟨1, List.replicate n ⟨9, 0, 0, 0, (0, 0), 0⟩, true⟩] } }
theorem withRecords_bit (s : State) (n : Nat) (f : Fld) : (withRecords s n).bit f = s.bit f := rfl
theorem withRecords_formatted (s : State) (n : Nat) : (withRecords s n).media.formatted = s.media.formatted := rfl
theorem withRecords_length (s : State) (n : Nat) (h : s.media.ckpts = []) :
    n ≤ (withRecords s n).media.durable.length + (withRecords s n).media.inFlight.flatten.length := by
  simp [withRecords, MediaSt.durable, MediaSt.ckpt, MediaSt.durableAfter, MediaSt.inFlight, h]

/-! A microcode image is the same but for its fingerprint. -/
theorem slice_app {a b : Bytes} {off len : Nat} (h : a.length ≤ off) : sliceBytes (a ++ b) off len = sliceBytes b (off - a.length) len := by
  simp [sliceBytes, List.drop_append, List.drop_eq_nil_of_le h]
theorem wMcHead_length : wMcHead.length = 16 := rfl
theorem wMcTail_length : wMcTail.length = 288 := by decide +kernel
theorem wMc_length {fp : Bytes} (h : fp.length = 32) : (wMc fp).length = 336 := by
  simp only [wMc, List.length_append, h, wMcHead_length, wMcTail_length]
theorem wMc_after {fp gp : Bytes} (h : fp.length = 32) (h' : gp.length = 32) {off : Nat} (ho : 48 ≤ off) (len : Nat) :
    sliceBytes (wMc fp) off len = sliceBytes (wMc gp) off len := by
  have hl := wMcHead_length
  simp only [wMc]
  rw [slice_app (by omega), slice_app (by omega), slice_app (by omega), slice_app (by omega), h, h']
theorem wMc_before (fp gp : Bytes) {off len : Nat} (ho : off + len ≤ 16) : sliceBytes (wMc fp) off len = sliceBytes (wMc gp) off len := by
  have hl := wMcHead_length
  have e : ∀ x : Bytes, ((wMcHead ++ x).drop off).take len = (wMcHead.drop off).take len := by
    intro x
    rw [List.drop_append_of_le_length (by omega), List.take_append_of_le_length (by rw [List.length_drop]; omega)]
  simp only [sliceBytes, wMc, e]
theorem wMc_fp {fp : Bytes} (h : fp.length = 32) : sliceBytes (wMc fp) 16 32 = fp := by
  have hl := wMcHead_length
  simp only [wMc]
  rw [slice_app (by omega), hl]
  simp [sliceBytes, h]
theorem wMc_words (fp gp : Bytes) : mcWords (wMc fp) = mcWords (wMc gp) := by
  simp only [mcWords]; rw [wMc_before fp gp (by omega)]
theorem wMc_covered {fp gp : Bytes} (h : fp.length = 32) (h' : gp.length = 32) : mcCovered (wMc fp) = mcCovered (wMc gp) := by
  simp only [mcCovered]; rw [wMc_words fp gp, wMc_after h h' (by omega), wMc_after h h' (by omega)]
theorem wMc_bad {fp gp : Bytes} (h : fp.length = 32) (h' : gp.length = 32) : mcBad (wMc fp) = mcBad (wMc gp) := by
  have t : (wMc fp).take 8 = (wMc gp).take 8 := by
    simp only [wMc]
    rw [List.take_append_of_le_length (by rw [wMcHead_length]; omega), List.take_append_of_le_length (by rw [wMcHead_length]; omega)]
  have e : mcEntry (wMc fp) = mcEntry (wMc gp) := funext fun e => by simp only [mcEntry]; rw [wMc_after h h' (by omega)]
  have w : mcWord (wMc fp) = mcWord (wMc gp) := funext fun e => by simp only [mcWord]; rw [wMc_after h h' (by omega)]
  unfold mcBad
  rw [t, wMc_words fp gp, e, w, wMc_before fp gp (by omega), wMc_before fp gp (by omega), wMc_before fp gp (by omega), wMc_after h h' (by omega)]
def wMcS : State := { wHost with cores := wHost.cores.set 8 (wCore []) }
theorem wMcS_ready : wMcS.adminReady 0 = true ∧ isPf 0 = true ∧ wMcS.holds (Origin.pcie 0) Role.installer = true ∧ wMcS.updating = false ∧ wMcS.mcLoad = none := by
  decide +kernel
/-- The fingerprint that covers it, and one that does not. -/
theorem wMc_right : ∃ fp : Bytes, fp.length = 32 ∧ fp = sha256 (mcCovered (wMc fp)) :=
  ⟨_, sha256_length _, (congrArg sha256 (wMc_covered (sha256_length _) (List.length_replicate (n := 32) (a := 0)))).symm⟩
theorem wMc_wrong : ∃ fp : Bytes, fp.length = 32 ∧ fp ≠ sha256 (mcCovered (wMc fp)) := by
  have hz : (List.replicate 32 (0 : Byte)).length = 32 := rfl
  have ho : (List.replicate 32 (1 : Byte)).length = 32 := rfl
  have hne : List.replicate 32 (0 : Byte) ≠ List.replicate 32 1 := by decide
  by_cases e : List.replicate 32 (0 : Byte) = sha256 (mcCovered (wMc (List.replicate 32 0)))
  · exact ⟨_, ho, fun e' => hne (e.trans ((congrArg sha256 (wMc_covered hz ho)).trans e'.symm))⟩
  · exact ⟨_, hz, e⟩
/-- The other conditions of a load hold of it whichever its fingerprint is. -/
theorem wMc_loads {fp : Bytes} (h : fp.length = 32) :
    (wMc fp).length = 320 + 16 * mcWords (wMc fp) ∧ dptrLen [.block 0x1000 336] = (wMc fp).length ∧ mcBad (wMc fp) = none := by
  rw [wMc_length h, wMc_words fp (List.replicate 32 0), wMc_bad h (List.length_replicate (n := 32) (a := 0))]; decide +kernel

/-! The firmware image passes its checks, wherever it is read from. -/
theorem wBootHead_length : wBootHead.length = 4048 := by
  simp only [wBootHead, List.length_append, List.length_replicate, List.length_cons, List.length_nil, bootMagic]
theorem wBootMac_length : (hmacSha384 wBootKey wBootHead).length = 48 := by simp only [hmacSha384]; exact sha384_length _
theorem wBootImg_length : wBootImg.length = 4096 := by rw [wBootImg, List.length_append, wBootHead_length, wBootMac_length]
theorem slice_before (a b : Bytes) {off len : Nat} (h : off + len ≤ a.length) : sliceBytes (a ++ b) off len = sliceBytes a off len := by
  simp only [sliceBytes]
  rw [List.drop_append_of_le_length (by omega), List.take_append_of_le_length (by rw [List.length_drop]; omega)]
theorem wBootImg_ok : bootLayoutOk wBootImg = true := by
  have hl := wBootHead_length
  have hs : ∀ off len, off + len ≤ 24 → sliceBytes wBootImg off len = sliceBytes wBootHead off len :=
    fun off len h => slice_before _ _ (by omega)
  have ht : wBootImg.take 8 = wBootHead.take 8 := List.take_append_of_le_length (by omega)
  simp only [bootLayoutOk, wBootImg_length, ht, hs 12 4 (by omega), hs 8 2 (by omega), hs 10 2 (by omega), hs 20 4 (by omega)]
  decide +kernel
theorem wBootImg_verifies {s : State} (h : s.bootKey = some wBootKey) : (s.verifyImage wBootImg 0 0).1 = true := by
  have hd : wBootImg.drop 4048 = hmacSha384 wBootKey wBootHead := by
    rw [wBootImg, ← wBootHead_length, List.drop_left]
  have ht : wBootImg.take 4048 = wBootHead := by rw [wBootImg, ← wBootHead_length, List.take_left]
  have e : wBootImg.length - 48 = 4048 := by rw [wBootImg_length]
  simp only [State.verifyImage, h, wBootImg_ok, e, hd, ht, beq_self_eq_true, Bool.not_true, Bool.false_eq_true, if_false]
  decide +kernel
theorem wBoot_version : [3, 0, 0, 0] = sliceBytes wBootImg 16 4 := by
  rw [wBootImg, slice_before wBootHead _ (by rw [wBootHead_length]; omega)]; decide +kernel
/-- `s` with port A's memory so. -/
def wMail (s : State) (l : List (Nat × Byte)) : State := { s with mem := { s.mem with hostA := l } }
theorem wMail_hostA (s : State) (l : List (Nat × Byte)) : (wMail s l).mem.hostA = l := rfl
theorem wBoot_mail {s : State} (hm : s.mem.hostA = memWriteN [] 65536 wBootImg) (ha : s.get R.PWR.MBOX_ADDR_ADDR = 16)
    (hl : s.get R.PWR.MBOX_LEN_BYTES = 4096) : wBootImg = s.mem.read .hostA (4096 * s.get R.PWR.MBOX_ADDR_ADDR) (s.get R.PWR.MBOX_LEN_BYTES) := by
  have h := Laws.memReadN_memWriteN (m := []) rfl 65536 wBootImg
  rw [wBootImg_length] at h
  simp only [MemSt.read, MemSt.at, hm, ha, hl]
  exact h.symm
theorem assoc_numbered (k : Nat) (bs : Bytes) (i : Nat) (h : i < bs.length) : assoc (numbered k bs) (k + i) = some bs[i] := by
  induction bs generalizing k i with
  | nil => cases h
  | cons b bs ih =>
    cases i with
    | zero => simp [numbered, assoc]
    | succ i =>
      have e : k + (i + 1) = k + 1 + i := by omega
      have hne : ¬ k = k + 1 + i := by omega
      simp only [numbered, assoc, e, hne, if_false, List.getElem_cons_succ]
      exact ih (k + 1) i (by simpa using h)
theorem wFw_image {img : Bytes} (h : img.length = 4096) : (wFwSt img).image = img := by
  refine List.ext_getElem (by simp [FwSt.image, wFwSt, h]) fun i h1 h2 => ?_
  have := assoc_numbered 0 img i h2
  rw [Nat.zero_add] at this
  simp [FwSt.image, wFwSt, this]

/-! A slice of 70,000 bytes, and placing a page whatever its bytes are. -/
theorem sliceBlocks_raw (f : FrameSt) (x : TakeSlice) (n : Nat) (b : Byte) (h : x.stored = false) (h' : x.raw.pred = 0) (h'' : x.raw.raw = List.replicate n b) :
    sliceBlocks f x = max 1 (ceilDiv n 65536) := by
  unfold sliceBlocks sliceInput predictSlice
  rw [h, h', h'']
  simp only [Bool.false_eq_true, if_false, beq_self_eq_true, if_true, List.length_replicate]
theorem placeUnit_some {s : State} {use : GroupUse} {gn nsid kind logical flags : Nat} {data : Bytes} {cmd : Option CmdKey}
    (h : s.waits use gn = false) (h' : (s.roomFor use gn (if use.isTake && logical % 256 == 0 then 256 else 1)).isSome = true) :
    (s.placeUnit use gn nsid kind logical flags data cmd).isSome = true := by
  rw [State.placeUnit, h, if_neg Bool.false_ne_true, Option.isSome_map]; exact h'

theorem triple_of {α β γ : Type} {p : α × β × γ} {a : α} (h : p.1 = a) : p = (a, p.2.1, p.2.2) := by rw [← h]
theorem next_of {o : Host.Outcome State Fault Refusal} (h : (match o with | .next _ => true | _ => false) = true) : o = .next (wOut o) := by
  cases o with
  | next t => rfl
  | fault _ => cases h
  | refused _ => cases h

/-- Where microcode goes next, and the trap an answer is. -/
def wMicroB (r : MicroNext) : Nat := match r with | .go _ b => b | _ => 0
theorem go_of {r : MicroNext} (h : (match r with | .go _ _ => true | _ => false) = true) : r = .go (wMicroOf r) (wMicroB r) := by
  cases r with
  | go _ _ => rfl
  | done _ => cases h
  | trap _ _ _ => cases h
def wTrapOf {α : Type} (e : Except Trap α) : Trap := match e with | .error t => t | .ok _ => wTrap
theorem trap_of {α : Type} {e : Except Trap α} (h : e.isOk = false) : e = .error (wTrapOf e) := by
  cases e with
  | error _ => rfl
  | ok _ => cases h

/-- The CRC with each byte's result asked for before the next, which the kernel evaluates in small steps. -/
def crcGo (poly : Nat) : Nat → Bytes → Nat
  | c, [] => c
  | c, b :: bs => if c = 0 then crcGo poly (crcBits poly 8 (c ^^^ b.toNat)) bs else crcGo poly (crcBits poly 8 (c ^^^ b.toNat)) bs
theorem crcGo_eq (poly c : Nat) (bs : Bytes) : bs.foldl (fun c b => crcBits poly 8 (c ^^^ b.toNat)) c = crcGo poly c bs := by
  induction bs generalizing c with
  | nil => rfl
  | cons b bs ih => simp [crcGo, ih]
theorem crc32c_eq (bs : Bytes) : crc32c bs = crcGo 0x82F63B78 0xFFFFFFFF bs ^^^ 0xFFFFFFFF := by simp only [crc32c, crc32With, crcGo_eq]

theorem some_of {α : Type} {o : Option α} (d : α) (h : o.isSome = true) : o = some (o.getD d) := by
  cases o with
  | none => cases h
  | some _ => rfl

theorem pair_of {α β : Type} {p : α × β} {a : α} (h : p.1 = a) : p = (a, p.2) := by rw [← h]

theorem wGot_ok {e : Except Trap Ctx} (h : e.isOk = true) : e = .ok (wGot e) := by
  cases e with
  | error _ => cases h
  | ok _ => rfl

/-! ### The spec's worked examples -/

/-- Chapter 2's example: a reserved encoding is refused with `ERR_CODE` 0x8001_1301 and `ERR_INFO` 0x44, and the role check comes before it. -/
theorem test_refused_write :
    (wOut (exec (.registerWrite (.pcie 0) 0x13 0x44 4 3) (wNoRole wTrust))).viewReg (.pcie 0) 0x13 0x20 = 0x80011301
      ∧ (wOut (exec (.registerWrite (.pcie 0) 0x13 0x44 4 3) (wNoRole wTrust))).viewReg (.pcie 0) 0x13 0x24 = 0x44
      ∧ (wOut (exec (.registerWrite (.pcie 0) 0x1B 0x44 4 3) (wNoRole wTrust))).viewReg (.pcie 0) 0x1B 0x20 = 0x80011802 := by
  decide +kernel

/-- Chapter 4's example: the cap of a reduced grant. -/
theorem test_unsecured_cap : (wr wOn [(R.TAKE.HOLDUP_HOLDUP_MS, 500)]).allowance 53983 65536 = 25641925000 := by decide +kernel

/-- Chapter 6's example: residuals of 12-bit pixels. -/
theorem test_residuals : predictAt 4 12 16384 1 #[] 0 = 2048 ∧ [residual 12 1000 1000, residual 12 1003 1000, residual 12 996 1000, residual 12 1000 2048] = [0, 6, 7, 0x82F] := by
  decide +kernel

/-- Chapter 10's example: the stacks of an image with 4,096 and 1,440 bytes. -/
theorem test_stack_layout : stackLayout 4096 1440 = (0x1C9D8, 0x1D9D8, 0x1DA18, 0x1DFB8) := by decide +kernel

/-- Chapter 11's example: one addition, three modifiers. -/
theorem test_add_modifiers : laneAdd ⟨.w16, false, false⟩ 0x7FF000018000FFFF 0x00200001FFFF0001 = 0x801000027FFF0000
    ∧ laneAdd ⟨.w16, false, true⟩ 0x7FF000018000FFFF 0x00200001FFFF0001 = 0x80100002FFFFFFFF
    ∧ laneAdd ⟨.w16, true, true⟩ 0x7FF000018000FFFF 0x00200001FFFF0001 = 0x7FFF000280000000 := by decide +kernel

/-- A microword with DMODE 1: AOP, W, A, B, BSEL, D and IMM. -/
def wMw (aop w a b bsel d imm : Nat) : Nat := aop + w * 2 ^ 6 + a * 2 ^ 10 + b * 2 ^ 14 + bsel * 2 ^ 18 + d * 2 ^ 19 + 2 ^ 23 + imm * 2 ^ 64

/-- Chapter 12's microcode of the sum of absolute byte differences, its first and last word as the example gives them. -/
def wSadWords : List Nat :=
  [0x00A804C6, wMw 5 3 1 0 0 6 0, wMw 2 3 5 6 0 7 0, wMw 0x0A 0 7 0 1 8 0x00FF00FF00FF00FF, wMw 0x0F 0 7 0 1 9 8,
   wMw 0x0A 0 9 0 1 9 0x00FF00FF00FF00FF, wMw 1 2 8 9 0 10 0, wMw 3 0 10 0 1 11 0x0001000100010001, 0x0000020001042C0F + 0x30 * 2 ^ 64]
def wSad : State :=
  { wCr [0x8070605040302010, 0x1020304050607080] with
    clusters := wOn.clusters.set 0 ⟨[0, 0, 0, 0, 0, 0x0004A100], List.replicate 256 0 ++ wSadWords, 265, [], none⟩ }

/-- It pushes 512 and costs 11 cycles, after the 220 of the line that its fetch fills (R339). -/
theorem test_sad : (wOut (exec (.custom 3 5 0) wSad)).cores[3].ds = [512] ∧ (wOut (exec (.custom 3 5 0) wSad)).cores[3].cycle = 11 + 220 := by decide +kernel

/-- Chapter 13's spans of a take, and what a search that hits both of them answers. -/
def wSpan (lo hi : Nat) : EEnt := spanEntry 7 [(lo, [0, 0, 0, 0]), (hi, [0, 0, 0, 0])]
theorem test_spans : (wSpan 10000000000 10016000000).vals.head? = some 0x254000000 ∧ (wSpan 10000000000 10016000000).cares.head? = some 0xFFFFFFFFFE000000
    ∧ (wSpan 10020000000 10036000000).cares.head? = some 0xFFFFFFFFFC000000
    ∧ resultWord (24, 17, wSpan 10000000000 10016000000) [(24, 17, wSpan 10000000000 10016000000), (24, 18, wSpan 10020000000 10036000000)] false false
      = 0x0001801100000103 := by decide +kernel

/-- The one function that keeps the device awake is the refuser, whatever the free choice among refusers is. -/
theorem veto_one {s : State} {n : Nat} (h : (s.pwr.tran.isSome || s.take.pfPhase != 0 || !s.reqFits .doze) = false
    ∧ s.get R.TAKE.TAKE_STATE_STATE = 0 ∧ s.pwr.fw.update = none ∧ s.mcLoad = none
    ∧ ((decide (1 ≤ s.drove.role) && decide (s.drove.role ≤ 2) && !s.drove.live.isEmpty) || s.drove.armed.isSome) = false
    ∧ s.busyFns ++ s.laneHosts = [n]) : s.veto .doze = (some ⟨0x49, 0, some n⟩, s.fresh.2) := by
  obtain ⟨h1, h2, h3, h4, h5, h6⟩ := h
  simp only [State.veto, h1, h2, h3, h4, h5, h6]
  simp [Nat.mod_one]
/-- Chapter 19's example: DOZE refused by VF 5, whose core waits. -/
def wDozeVeto : State := { wIdle with cores := wIdle.cores.set 9 { Core.off with state := .waiting, func := 5 } }

/-- The same once the write of MODE_REQ is in the audit log. -/
def wDozeAsked : State :=
  let d : State := { wDozeVeto.dropLow (.pcie 0) 2 with refusal := none }
  d.auditWrite (.pcie 0) 2 0x44 1 (d.word (.pcie 0) 2 0x44) 0

/-- The request goes on from there, and its refuser is function 5. -/
theorem doze_refused_by : exec (.modeReqDoze (.pcie 0)) wDozeVeto = .next (wDozeAsked.fresh.2.charge 1 2 0 ⟨0x49, 0, some 5⟩) := by
  have h : exec (.modeReqDoze (.pcie 0)) wDozeVeto = .next (wDozeAsked.request .doze fun t => t.startDrain .dozeEntry) := by
    simp only [exec, execModeReqDoze, State.regCmd, State.regCmdBy]
    rw [if_neg (by decide +kernel), if_neg (by decide +kernel), if_neg (by decide +kernel), if_neg (by decide +kernel), if_neg (by decide),
      if_neg (by decide +kernel)]
    rfl
  rw [h, State.request, veto_one (n := 5) (by decide +kernel)]
  rfl

theorem test_doze_refused : (wOut (exec (.modeReqDoze (.pcie 0)) wDozeVeto)).viewReg (.pcie 0) 2 0x50 = 0x00004911
    ∧ (wOut (exec (.modeReqDoze (.pcie 0)) wDozeVeto)).viewReg (.pcie 0) 2 0x54 = 0x00000205 := by
  rw [doze_refused_by]
  decide +kernel

/-! ### The hypotheses of the statements are met -/

theorem met_GateLinkCommandsComplete_1 :
  (∃ (s : State) (good : BitVec 16) (g : Nat × Nat), s.mayDetect = true ∧ s.gate.failedAt = none ∧
    chooseGroup good.toNat (s.get R.GATE.LINK_CTRL_MAX_WIDTH) = some g)
  ∧ (∃ (s : State) (good : BitVec 16), s.mayDetect = true ∧ s.gate.failedAt = none ∧ chooseGroup good.toNat (s.get R.GATE.LINK_CTRL_MAX_WIDTH) = none)
  ∧ (∃ (s : State) (at_ : Nat), s.gate.failedAt = some at_)
  ∧ (∃ (s : State) (lane : Fin 16) (g : Nat × Nat), s.gateActive = true ∧ s.carries ↑lane = true ∧ (s.failLane ↑lane).groupLeft = some g) :=
  ⟨⟨{ wOn with gate := { wOn.gate with mayTrain := true } }, 0xFFFF, (3, 0), by decide +kernel⟩,
   ⟨{ wOn with gate := { wOn.gate with mayTrain := true } }, 0x8000, by decide +kernel⟩,
   ⟨{ wOn with gate := { wOn.gate with failedAt := some 7 } }, 7, by decide +kernel⟩,
   ⟨wGate, 15, (2, 0), by decide +kernel⟩⟩

theorem met_GateLinkCommandsComplete_2 :
  (∃ (s : State) (g : Nat × Nat), s.gateRetrain = true ∧ s.groupLeft = some g)
  ∧ (∃ (s : State), (s.gateActive = true ∨ s.gateRetrain = true) ∧ s.takeLive = false)
  ∧ (∃ (s : State) (at_ : Nat), s.gate.graceFrom = some at_ ∧ s.takeLive = true)
  ∧ (∃ (s : State) (f : Flit), s.gateActive = true ∧ f.crcOk = true ∧ bits f.link.toNat 10 2 = 0 ∧ bits f.link.toNat 22 2 ≠ 3 ∧
    bits f.link.toNat 48 2 = 0 ∧ bits f.link.toNat 0 10 = (s.gate.rxSeq + 1) % 1024) :=
  ⟨⟨wr wGate [(R.GATE.LINK_STATUS_LTSSM, 5)], (3, 0), by decide +kernel⟩,
   ⟨wGate, by decide +kernel⟩,
   ⟨{ wr wGate [(R.TAKE.TAKE_STATE_STATE, 2)] with gate := { wGate.gate with graceFrom := some 5 } }, 5, by decide +kernel⟩,
   ⟨wGate, ⟨true, [], [], 0⟩, by decide +kernel⟩⟩

theorem met_GateLinkCommandsComplete_3 :
  (∃ (s : State) (f : Flit), s.gateActive = true ∧ f.crcOk = false ∧ (s.noteFec f.fecCorrected).noisyLane = none)
  ∧ (∃ (s : State), s.gateActive = true ∧ s.gate.replay ≠ [] ∧ s.gate.replays < 3)
  ∧ (∃ (s : State) (p : Bytes) (ps : List Bytes), s.gate.txq = p :: ps ∧ s.gateActive = true ∧ s.gate.replay.length < 512 ∧ s.gate.mayCtrl = true)
  ∧ (∃ (s : State) (p : HeartbeatPkt) (sent : Nat), assoc s.gate.hbTimes p.echoSeq.toNat = some sent) :=
  ⟨⟨wGate, ⟨false, [], [], 0⟩, by decide +kernel⟩,
   ⟨{ wGate with gate := { wGate.gate with replay := [⟨0, [], 0⟩], replays := 2 } }, by decide +kernel⟩,
   ⟨{ wGate with gate := { wGate.gate with txq := [[0x30]] } }, [0x30], [], by decide +kernel⟩,
   ⟨{ wGate with gate := { wGate.gate with hbTimes := [(2, 0)] }, time := 1000 }, wHeartbeatPkt, 0, by decide +kernel⟩⟩

theorem met_FullRetrainRestartsTheLink_1 :
  (∃ (s : State) (o : Origin), s.powered = true ∧ s.reaches o 16 = true ∧ s.holds o Role.installer = true ∧ s.takeLive = false ∧
    s.get R.GATE.LINK_CTRL_MAX_WIDTH % 4 ≠ 0)
  ∧ (∃ (s : State) (o : Origin), s.powered = true ∧ s.reaches o 16 = true ∧ s.holds o Role.installer = true ∧ s.takeLive = true ∧
    s.get R.GATE.LINK_CTRL_MAX_WIDTH % 4 ≠ 0)
  ∧ (∃ (s : State), s.gate.rxBuf.any (pktType · == 0x30) = true ∧ s.tunnelOpen = false ∧ s.gateActive = true) :=
  ⟨⟨wGate, .firmware, by decide +kernel⟩,
   ⟨wr wGate [(R.TAKE.TAKE_STATE_STATE, 3)], .firmware, by decide +kernel⟩,
   ⟨{ wr wGate [(R.GATE.TUNNEL_CTRL_TUNNEL_EN, 0)] with gate := { wGate.gate with rxBuf := [[0x30]] } }, by decide +kernel⟩⟩

theorem met_FullRetrainRestartsTheLink_2 :
  (∃ (s : State), s.gate.rxBuf.any (pktType · == 0x30) = true ∧ s.tunnelOpen = true ∧ s.gateActive = true ∧ 17 ≤ s.gate.unanswered)
  ∧ (∃ (s : State) (p : CtrlReqPkt), s.gate.rxBuf.any (pktType · == 0x30) = true ∧ s.tunnelOpen = true ∧ s.gateActive = true ∧ s.gate.unanswered ≤ 16 ∧ reqBad p = true)
  ∧ (∃ (s : State) (p : CtrlReqPkt), s.gate.rxBuf.any (pktType · == 0x30) = true ∧ s.tunnelOpen = true ∧ s.gateActive = true ∧ s.gate.unanswered ≤ 16 ∧ p.op.toNat = 0 ∧ reqBad p = false ∧
    s.powered = true ∧ s.reaches Origin.gate (p.page.toNat % 512) = true) :=
  ⟨⟨{ wGate with gate := { wGate.gate with rxBuf := [[0x30]], txq := List.replicate 16 [0x31,0,0,0,0,0,0] } }, by decide +kernel⟩,
   ⟨{ wGate with gate := { wGate.gate with rxBuf := [[0x30]] } }, ⟨1, 4, 0x10, 0x40, 0⟩, by decide +kernel⟩,
   ⟨{ wGate with gate := { wGate.gate with rxBuf := [[0x30]] } }, ⟨1, 0, 0x10, 0x40, 0⟩, by decide +kernel⟩⟩

theorem met_CreditOverrunDiscards :
  (∃ (s : State) (p : Bytes), pktType p = 17 ∧ s.gate.advData ≤ s.gate.rxData ∧ s.get (H.VALID 16) = 0)
  ∧ (∃ (s : State) (p : Bytes), pktType p ≠ 17 ∧ pktType p ≠ 63 ∧ s.gate.advCtrl ≤ s.gate.rxCtrl ∧ s.get (H.VALID 16) = 0) :=
  ⟨⟨{ wGate with gate := { wGate.gate with rxData := 8192 } }, [0x11], by decide +kernel⟩,
   ⟨{ wGate with gate := { wGate.gate with rxCtrl := 64 } }, [0x30], by decide +kernel⟩⟩

theorem met_TakeIsAdmittedOrRefused_1 :
  (∃ (s : State), s.get R.TAKE.TAKE_STATE_STATE = 0)
  ∧ (∃ (s : State), 1 ≤ s.get R.TAKE.TAKE_STATE_STATE ∧ s.get R.TAKE.TAKE_STATE_STATE ≤ 4)
  ∧ (∃ (s : State) (p : TakeOpenPkt) (why : Nat), s.take.req = some p ∧ s.get R.TAKE.TAKE_STATE_STATE = 1 ∧ s.drove.armed = none ∧
    ((s.setTake fun (t : TakeSt) => { t with req := none }).admission p = Admission.refuse why)) :=
  ⟨⟨wMedia, by decide +kernel⟩,
   ⟨wr wMedia [(R.TAKE.TAKE_STATE_STATE, 4)], by decide +kernel⟩,
   ⟨{ wr wMedia [(R.TAKE.TAKE_STATE_STATE, 1), (R.PWR.MODE_MODE, 7)] with take := { TakeSt.reset with req := some wTakeOpenPkt } }, wTakeOpenPkt, 0x11,
    by decide +kernel⟩⟩

theorem met_TakeIsAdmittedOrRefused_2 :
  (∃ (s u : State) (p : TakeOpenPkt) (rate d cap lee nsid rec slot : Nat), s.take.req = some p ∧ s.get R.TAKE.TAKE_STATE_STATE = 1 ∧
    s.drove.armed = none ∧ ((s.setTake fun (t : TakeSt) => { t with req := none }).admission p = Admission.grant rate d cap lee) ∧
    ((s.setTake fun (t : TakeSt) => { t with req := none }).takeNsid = some nsid) ∧
    ((s.setTake fun (t : TakeSt) => { t with req := none }).newMediaKey nsid = (some (rec, slot), u)))
  ∧ (∃ (s : State) (p : TakeOpenPkt) (rate d cap lee : Nat), s.admission p = Admission.grant rate d cap lee ∧ bitAt p.flags.toNat 1 = true ∧
    p.digestAlg = 0)
  ∧ (∃ (s : State) (p : TakeOpenPkt) (rate d cap lee : Nat), s.admission p = Admission.grant rate d cap lee ∧ p.duration.toNat ≠ 0) :=
  ⟨⟨{ wr wMedia [(R.TAKE.TAKE_STATE_STATE, 1)] with take := { TakeSt.reset with req := some wTakeOpenPkt } }, _, wTakeOpenPkt, 40, 2, 536870912, 16384,
    0x10000, 1, 0, by decide +kernel, by decide +kernel, by decide +kernel, by decide +kernel, by decide +kernel, pair_of (by decide +kernel)⟩,
   ⟨wMedia, { wTakeOpenPkt with flags := 2 }, 40, 2, 536870912, 16384, by decide +kernel⟩,
   ⟨wMedia, wTakeOpenPkt, 40, 2, 536870912, 16384, by decide +kernel⟩⟩

theorem met_TakeLifecycleMoves_1 :
  (∃ (s : State) (c : Contract) (id : BitVec 64), s.takeLive = true ∧ s.take.c = some c ∧ c.takeId = id.toNat)
  ∧ (∃ (s : State) (c : Contract) (id : BitVec 64), s.take.c = some c ∧ c.takeId ≠ id.toNat)
  ∧ (∃ (s : State) (c : Contract), s.takeLive = true ∧ s.take.c = some c ∧ c.duration ≠ 0)
  ∧ (∃ (s : State) (c : Contract), s.take.c = some c ∧ s.get R.TAKE.TAKE_STATE_STATE = 2 ∧ c.cap ≤ s.unsecured) :=
  ⟨⟨wTake, wC, 1, by decide +kernel⟩,
   ⟨wTake, wC, 2, by decide +kernel⟩,
   ⟨wTake, wC, by decide +kernel⟩,
   ⟨{ wr wTake [] with take := { wTake.take with c := some { wC with cap := 2 }, cont := [1, 2, 3], secured := 1 } }, { wC with cap := 2 },
    by decide +kernel⟩⟩

theorem met_TakeLifecycleMoves_2 :
  (∃ (s : State) (c : Contract), s.take.c = some c ∧ s.get R.TAKE.TAKE_STATE_STATE = 3 ∧ s.unsecured + releaseMargin c.cap ≤ c.cap)
  ∧ (∃ (s : State) (c : Contract), s.take.c = some c ∧ s.takeLive = true ∧ s.take.ratioStored ≤ List.length s.take.cont)
  ∧ (∃ (s u : State) (c : Contract), s.take.c = some c ∧ s.take.trailer = none ∧ s.take.noTrailer = false ∧ s.tailRoom c ≠ 0 ∧ s.indexDue = false ∧
    u = { s with time := max s.time (s.take.tailSince + s.get R.TAKE.SECURE_WINDOW_US * 1000) })
  ∧ (∃ (s : State) (g : Group) (i : Nat), s.stripeToClose = some (g, i)) :=
  ⟨⟨{ wr wTake [(R.TAKE.TAKE_STATE_STATE, 3)] with take := { wTake.take with c := some { wC with cap := 2 }, cont := [1, 2, 3], secured := 2 } },
    { wC with cap := 2 }, by decide +kernel⟩,
   ⟨{ wr wTake [] with take := { wTake.take with cont := [1, 2, 3], ratioRaw := 9, ratioStored := 2 } }, wC, by decide +kernel⟩,
   ⟨{ wr wTake [] with take := { wTake.take with cont := [1, 2, 3] } }, { { wr wTake [] with take := { wTake.take with cont := [1, 2, 3] } } with time := 2000000 },
    wC, by decide +kernel⟩,
   ⟨{ wTake with media := { wTake.media with image := { wTake.media.image with groups := [⟨0, 8, .take, 0x10000, (List.range 10).map fun c => (c * 16, 0), .opened, [⟨[], true, List.range 10, [], false, false, false, false⟩], 1, 0, [], [], false, false, false, none⟩] } } },
    ⟨0, 8, .take, 0x10000, (List.range 10).map fun c => (c * 16, 0), .opened, [⟨[], true, List.range 10, [], false, false, false, false⟩], 1, 0, [], [], false,
    false, false, none⟩, 0, by decide +kernel⟩⟩

theorem met_TakeLifecycleMoves_3 :
  (∃ (s : State) (c : Contract), s.take.c = some c ∧ s.get R.TAKE.TAKE_STATE_STATE = 4 ∧ s.take.pfPhase = 0 ∧ s.takeDone = true ∧
    s.take.noTrailer = false)
  ∧ (∃ (s : State) (c : Contract), s.take.c = some c ∧ s.takeLive = true ∧ c.tier = 0 ∧ s.get R.FALLOW.RESERVED_USER_MB = 0)
  ∧ (∃ (s : State) (c : Contract), s.take.c = some c ∧ s.takeLive = true ∧ c.tier = 1 ∧
    ((s.get R.MEDIA.MAXCAP_MB - List.foldl (fun (x1 x2 : Nat) => x1 + x2) 0 (List.map Ns.heldMB s.ns)) * 1000000 ≤ c.cap)) :=
  ⟨⟨{ wr wTake [(R.TAKE.TAKE_STATE_STATE, 4)] with take := { wTake.take with trailer := some (0, 0, 0), reason := 1 } }, wC, by decide +kernel⟩,
   ⟨{ wr wTake [] with take := { wTake.take with c := some { wC with tier := 0 } } }, { wC with tier := 0 }, by decide +kernel⟩,
   ⟨{ wr wTake [(R.MEDIA.MAXCAP_MB, 1)] with take := { wTake.take with c := some wC } }, wC, by decide +kernel⟩⟩

theorem met_FramesAreJudgedAndStored_1 :
  (∃ (s : State) (p : FrameBeginPkt) (c : Contract), s.openFrame p.stream.toNat = none ∧ s.take.c = some c ∧ s.takeLive = true ∧
    bitAt c.streams p.stream.toNat = true ∧ beginLegal p = true)
  ∧ (∃ (s : State) (p : FrameBeginPkt), s.openFrame p.stream.toNat = none ∧ s.take.c = none)
  ∧ (∃ (s : State) (p : FrameDataPkt) (f : FrameSt), s.openFrame p.stream.toNat = some f ∧ s.frame? f.uid = some f ∧ p.offset.toNat = f.recv ∧
    p.fnumLo.toNat = f.number % 65536)
  ∧ (∃ (s : State) (p : FrameDataPkt) (f : FrameSt), s.openFrame p.stream.toNat = some f ∧ s.frame? f.uid = some f ∧
    (p.offset.toNat ≠ f.recv ∨ p.fnumLo.toNat ≠ f.number % 65536)) :=
  ⟨⟨wTake, wFrameBeginPkt, wC, by decide +kernel⟩,
   ⟨wMedia, wFrameBeginPkt, by decide +kernel⟩,
   ⟨wFr wFrame, wFrameDataPkt, wFrame, by decide +kernel⟩,
   ⟨wFr wFrame, ⟨0, 0, 5, [9]⟩, wFrame, by decide +kernel⟩⟩

theorem met_FramesAreJudgedAndStored_2 :
  (∃ (s : State) (p : FrameEndPkt) (f : FrameSt), s.openFrame p.stream.toNat = some f)
  ∧ (∃ (s : State) (p : MetaPkt) (f : FrameSt), s.openFrame p.stream.toNat = some f ∧ s.frame? f.uid = some f)
  ∧ (∃ (s : State) (uid : Nat) (f : FrameSt), s.frame? uid = some f ∧ f.ended = true ∧ f.key = none)
  ∧ (∃ (s : State) (c : Contract) (f : FrameSt) (x : TakeSlice), s.take.c = some c ∧
    (List.findSome? (fun (f : FrameSt) => Option.map (fun (x : TakeSlice) => (f, x)) (s.nextSlice f)) s.headFrames = some (f, x))) :=
  ⟨⟨wFr wFrame, wFrameEndPkt, wFrame, by decide +kernel⟩,
   ⟨wFr wFrame, wMetaPkt, wFrame, by decide +kernel⟩,
   ⟨wFr { wFrame with ended := true }, 0, { wFrame with ended := true }, by decide +kernel⟩,
   ⟨{ wFr { wFrame with ended := true, queued := 1 } with take := { (wFr { wFrame with ended := true, queued := 1 }).take with slices := [⟨0, 0, ⟨0, [1, 2, 3, 4], 0⟩, .verified, false, 0, 0⟩] } },
    wC, { wFrame with ended := true, queued := 1 }, ⟨0, 0, ⟨0, [1, 2, 3, 4], 0⟩, .verified, false, 0, 0⟩, by decide +kernel⟩⟩

theorem met_FrameEndMarksTheFrame : ∃ (s : State) (f : FrameSt), s.frame? f.uid = some f :=
  ⟨wFr wFrame, wFrame, by decide +kernel⟩

theorem met_BadTriggerWindowIsRefused : ∃ (s : State) (c : Contract) (time pre post : Nat), s.take.c = some c ∧ c.kind = 1 ∧ s.takeLive = true ∧
    (600000 < pre ∨ 3600000 < post ∨ pre + post = 0 ∨ s.time + 3600 * 1000000000 < time) ∧ s.get (H.VALID 19) = 0 :=
  ⟨{ wTake with take := { wTake.take with c := some { wC with kind := 1 } } }, { wC with kind := 1 }, 0, 600001, 0, by decide +kernel⟩

theorem met_TriggersAndWindows_1 :
  (∃ (s : State), s.bit R.TRIG.TRIG_CTRL_GATE_EN = true)
  ∧ (∃ (s : State) (pin : Fin 3) (rising : Bool) (ns : Nat), 100 ≤ ns ∧ bitAt (s.get R.TRIG.TRIG_CTRL_PIN_EN) ↑pin = true ∧
    s.countsEdge (↑pin) rising = true ∧ (pin.val = 2 → s.trigOwnsPin2 = true) ∧ (∀ (e : Nat),
    s.trig.lastEdge.getD (↑pin) none = some e → e + s.get R.TRIG.PIN_HOLDOFF_US * 1000 ≤ s.time))
  ∧ (∃ (s : State) (o : Origin), s.powered = true ∧ s.reaches o 19 = true ∧ s.bit R.TRIG.TRIG_CTRL_SW_EN = true)
  ∧ (∃ (s u : State) (uid : Nat) (f : FrameSt) (key : List Nat) (tag cls : Nat), s.frame? uid = some f ∧ f.key = some key ∧ f.ruled = false ∧
    s.bit R.TRIG.TRIG_CTRL_RULE_EN = true ∧ ((s.modFrame uid fun (g : FrameSt) => { g with ruled := true }).ruleHit key = (some (tag, cls), u)) ∧
    s.get R.TRIG.RULE_CFG_MIN_CLASS ≤ cls) :=
  ⟨⟨wr wTake [(R.TRIG.TRIG_CTRL_GATE_EN, 1)], by decide +kernel⟩,
   ⟨wr wTake [(R.TRIG.TRIG_CTRL_PIN_EN, 7), (R.TRIG.PIN_EDGE_EDGE, 0)], 0, true, 100, by decide +kernel⟩,
   ⟨wr wTake [(R.TRIG.TRIG_CTRL_SW_EN, 1)], .firmware, by decide +kernel⟩,
   ⟨{ wr wTake [(R.TRIG.TRIG_CTRL_RULE_EN, 1)] with ear := { wTake.ear with banks := wTake.ear.banks.set 0 ⟨[(0, ⟨3, true, [9], [0]⟩)], [], []⟩ }, take := { wTake.take with frames := [{ wFrame with key := some [1] }] } },
    ((({ wr wTake [(R.TRIG.TRIG_CTRL_RULE_EN, 1)] with ear := { wTake.ear with banks := wTake.ear.banks.set 0 ⟨[(0, ⟨3, true, [9], [0]⟩)], [], []⟩ }, take := { wTake.take with frames := [{ wFrame with key := some [1] }] } }).modFrame 0 fun g => { g with ruled := true }).ruleHit [1]).2,
    0, { wFrame with key := some [1] }, [1], 0, 3, by decide +kernel⟩⟩

theorem met_TriggersAndWindows_2 :
  (∃ (s : State) (c : Contract) (src time pre post i n : Nat), s.take.c = some c ∧ c.kind = 1 ∧ s.takeLive = true ∧ pre ≤ 600000 ∧ post ≤ 3600000 ∧
    0 < pre + post ∧ time ≤ s.time + 3600 * 1000000000 ∧ s.touching (time - pre * 1000000) (time + post * 1000000) = [] ∧
    (List.find? (fun (i : Nat) => (s.win i).state == 0) (List.range (if trigPriority src ≤ 2 then 64 else 64 - s.get R.TRIG.HW_RESERVE_SLOTS)) = some i) ∧
    s.trig.windows.length = 64 ∧ s.takeNsid = some n)
  ∧ (∃ (s u : State) (slot : Fin 64), u = s.settleTriggers ∧ (u.win slot.val).state = 1)
  ∧ (∃ (s : State) (a b : Fire), s.trig.arrived = [] ∧
    (trigPriority a.source < trigPriority b.source ∨ trigPriority a.source = trigPriority b.source ∧ a.source < b.source))
  ∧ (∃ (s t₀ t₁ : State) (slot : Fin 64) (ring : Ns) (head : Bytes) (rec k : Nat), (s.win ↑slot).state = 2 ∧ s.pinnedSecured (s.win ↑slot) = true ∧
    s.nsOfTake (s.win ↑slot).ring = some ring ∧ s.readTake ring 0 8192 = (some head, t₀) ∧ t₀.newMediaKey (s.win ↑slot).nsid = (some (rec, k), t₁))
  ∧ (∃ (s u : State) (slot : Fin 64) (x : Nat × Bytes × Nat), u = s.copyKept ↑slot ∧
    (List.find? (fun (x : Nat × Bytes × Nat) => x.1 == ↑slot) u.trig.copies = some x) ∧ (u.win ↑slot).state = 3 ∧ List.length x.2.1 ≤ x.2.2 ∧
    (u.openLogicals (u.win ↑slot).nsid).isEmpty = true) :=
  ⟨⟨{ wTake with take := { wTake.take with c := some { wC with kind := 1 } } }, { wC with kind := 1 }, 3, 3600000000000, 600000, 3600000, 0, 0x10000,
    by decide +kernel⟩,
   ⟨{ wTake with trig := { wTake.trig with windows := wTake.trig.windows.set 63 ⟨1, 3, 0, false, false, false, 1, 0, 10, 0, 0x10001, 1, [], [], []⟩ } }, _, 63,
    rfl, by decide +kernel⟩,
   ⟨wTake, ⟨0, 1, 0, 5, 1, 1⟩, ⟨0, 2, 0, 5, 1, 1⟩, by decide +kernel⟩,
   ⟨{ wPipes wMedia with keys := { (wPipes wTake).keys with slots := [⟨5, List.replicate 64 9, true, 0x1F0, 1⟩] }, ns := [⟨0x10000, .take, 8, 0, [0], 1, 0, some ⟨1, 1, 1, 1, false, false, 0, 0, 0, 0, 10, 8192, 0, 0, 0, 0⟩, []⟩], trig := { wTake.trig with windows := wTake.trig.windows.set 63 ⟨2, 3, 0, false, false, false, 1, 0, 10, 0, 0x10001, 1, [], [], []⟩ }, media := { wMedia.media with image := { wMedia.media.image with map := [((0x10000, 0), .zeroes 0), ((0x10000, 1), .zeroes 0)] } } },
    _, _, 63, ⟨0x10000, .take, 8, 0, [0], 1, 0, some ⟨1, 1, 1, 1, false, false, 0, 0, 0, 0, 10, 8192, 0, 0, 0, 0⟩, []⟩, _, _, _, by decide +kernel,
    by decide +kernel, by decide +kernel, pair_of (some_of [] (by decide +kernel)), pair_of (some_of (0, 0) (by decide +kernel))⟩,
   ⟨{ wPipes wMedia with keys := { (wPipes wTake).keys with slots := [⟨5, List.replicate 64 9, true, 0x1F0, 1⟩] }, ns := [⟨0x10001, .take, 8, 0, [0], 1, 0, some ⟨1, 1, 1, 1, false, false, 0, 0, 0, 0, 10, 8192, 0, 0, 0, 0⟩, []⟩], trig := { wTake.trig with windows := wTake.trig.windows.set 63 ⟨3, 3, 0, false, false, false, 1, 0, 10, 2, 0x10001, 1, [], [], []⟩, copies := [(63, [1, 2], 2)] } },
    _, 63, (63, [1, 2], 2), rfl, by decide +kernel⟩⟩

/-- A job of cluster 8 of 64 KiB, `wTake` with it waiting, its turn, and a job that has run. -/
def wShJob (op : Nat) : Job := ⟨1, .cluster 8, 0, 0, wDesc [(0, 1, op), (24, 8, 65536)], none, none⟩
def wSh (op : Nat) : State := { wTake with jobs := ⟨[wShJob op], [], 2, ⟨none, []⟩, []⟩ }
def wShNext (op : Nat) : Job × Turns := (wSh op).shearsNext.getD (wShJob 0, ⟨none, []⟩)
def wShDone (op : Nat) : JobDone := ⟨wShJob op, 0, 0, [], 0⟩

theorem met_ShearsLanesWork_1 :
  (∃ (s : State) (lane : Fin 12) (uid idx n : Nat) (f : FrameSt) (x : TakeSlice), (s.lane ↑lane).work = LaneWork.slice uid idx n ∧
    s.frame? uid = some f ∧ s.slice? uid idx = some x ∧ n + 1 < sliceBlocks f x)
  ∧ (∃ (s : State) (lane : Fin 12) (uid idx n : Nat) (f : FrameSt) (x : TakeSlice) (c : Contract), (s.lane ↑lane).work = LaneWork.slice uid idx n ∧
    s.take.c = some c ∧ s.frame? uid = some f ∧ s.slice? uid idx = some x ∧ sliceBlocks f x ≤ n + 1)
  ∧ (∃ (s : State) (lane : Fin 12) (uid idx b : Nat) (x : TakeSlice), (s.lane ↑lane).work = LaneWork.reemit uid idx ∧ s.slice? uid idx = some x ∧ b < x.rawBlocks)
  ∧ (∃ (s : State) (uid idx : Nat) (x : TakeSlice) (f : FrameSt), s.slice? uid idx = some x ∧ s.frame? uid = some f) :=
  ⟨⟨{ wr (wFr wFrame) [] with take := { (wFr wFrame).take with slices := [⟨0, 0, ⟨0, List.replicate 70000 1, 0⟩, .onLane, false, 0, 0⟩] }, lanes := wTake.lanes.set 11 ⟨.slice 0 0 0, [], []⟩ },
    11, 0, 0, 0, wFrame, ⟨0, 0, ⟨0, List.replicate 70000 1, 0⟩, .onLane, false, 0, 0⟩, rfl, rfl, rfl,
    by rw [sliceBlocks_raw _ _ 70000 1 rfl rfl rfl]; decide⟩,
   ⟨{ wr (wFr wFrame) [] with take := { (wFr wFrame).take with slices := [⟨0, 0, ⟨0, [1, 2, 3, 4], 0⟩, .onLane, false, 0, 0⟩] }, lanes := wTake.lanes.set 11 ⟨.slice 0 0 0, [], []⟩ },
    11, 0, 0, 0, wFrame, ⟨0, 0, ⟨0, [1, 2, 3, 4], 0⟩, .onLane, false, 0, 0⟩, wC, by decide +kernel⟩,
   ⟨{ wr (wFr wFrame) [] with take := { (wFr wFrame).take with slices := [⟨0, 0, ⟨0, [1, 2, 3, 4], 0⟩, .onLane, false, 2, 0⟩] }, lanes := wTake.lanes.set 11 ⟨.reemit 0 0, [], []⟩ },
    11, 0, 0, 0, ⟨0, 0, ⟨0, [1, 2, 3, 4], 0⟩, .onLane, false, 2, 0⟩, by decide +kernel⟩,
   ⟨{ wr (wFr wFrame) [] with take := { (wFr wFrame).take with slices := [⟨0, 0, ⟨0, [1, 2, 3, 4], 0⟩, .onLane, false, 2, 0⟩] }, lanes := wTake.lanes.set 11 ⟨.reemit 0 0, [], []⟩ },
    0, 0, ⟨0, 0, ⟨0, [1, 2, 3, 4], 0⟩, .onLane, false, 2, 0⟩, wFrame, by decide +kernel⟩⟩

theorem met_ShearsLanesWork_2 :
  (∃ (s : State) (lane : Fin 12) (d : JobDone) (m : Nat), (s.lane lane.val).work = .job d ∧ (s.laneLive lane.val = false ∨ s.laneReserved lane.val = true) ∧
    (s.take.slices.all (·.status != .waiting)) = true ∧ s.jobs.parked = [] ∧ ((List.range 12).find? fun m => !s.laneReserved m && s.laneFree m) = some m)
  ∧ (∃ (s : State) (lane : Fin 12) (d : JobDone), (s.lane lane.val).work = .job d ∧ (s.laneLive lane.val = false ∨ s.laneReserved lane.val = true) ∧
    (s.take.slices.all (·.status != .waiting)) = true ∧ ((List.range 12).find? fun m => !s.laneReserved m && s.laneFree m) = none)
  ∧ (∃ (s : State) (o : Origin) (lane : Fin 12), s.powered = true ∧ s.reaches o (lanePage ↑lane) = true ∧ s.holds o Role.installer = true ∧
    s.bit (R.LANE.LANE_STATUS_RESERVED ↑lane) = false)
  ∧ (∃ (s : State) (o : Origin) (lane : Fin 12), s.powered = true ∧ s.reaches o (lanePage ↑lane) = true ∧ s.holds o Role.installer = true ∧
    s.bit (R.LANE.LANE_STATUS_RESERVED ↑lane) = true) :=
  ⟨⟨{ wr wTake [(R.LANE.LANE_STATUS_RESERVED 11, 1)] with lanes := wTake.lanes.set 11 ⟨.job (wShDone 1), [], []⟩ }, 11, wShDone 1, 0, by decide +kernel⟩,
   ⟨{ wr wTake ((List.range 12).map fun l => (R.LANE.LANE_STATUS_RESERVED l, 1)) with lanes := wTake.lanes.set 0 ⟨.job (wShDone 1), [], []⟩ }, 0, wShDone 1,
    by decide +kernel⟩,
   ⟨wTake, .firmware, 11, by decide +kernel⟩,
   ⟨wr wTake [(R.LANE.LANE_STATUS_RESERVED 11, 1)], .firmware, 11, by decide +kernel⟩⟩

theorem met_ShearsLanesWork_3 :
  (∃ (s u : State) (src : JobSrc) (lane : Fin 12) (j k : Job) (tn : Turns) (bad : List Nat), s.laneReserved lane.val = false ∧ s.laneFree lane.val = true ∧
    s.shearsNext = some (k, tn) ∧ k.id = j.id ∧ u = (s.takeJob j.id).setJobs (fun x => { x with turns := tn }) ∧ s.jobFor src 0 1 3 = some j ∧
    (bad.filter (· < ceilDiv (descN j.desc 24 8) 65536)) = [])
  ∧ (∃ (s u : State) (src : JobSrc) (lane : Fin 12) (j k : Job) (tn : Turns) (bad : List Nat), s.laneReserved lane.val = false ∧ s.laneFree lane.val = true ∧
    s.shearsNext = some (k, tn) ∧ k.id = j.id ∧ u = (s.takeJob j.id).setJobs (fun x => { x with turns := tn }) ∧ s.jobFor src 0 1 3 = some j ∧
    bad.Nodup ∧ (∀ m : Fin 12, (s.lane m.val).misses.length + bad.length < s.get R.SHEARS.RETIRE_LIMIT_MISMATCHES))
  ∧ (∃ (s u : State) (src : JobSrc) (lane : Fin 12) (j k : Job) (tn : Turns), s.laneReserved lane.val = false ∧ s.laneFree lane.val = true ∧
    s.shearsNext = some (k, tn) ∧ k.id = j.id ∧ u = (s.takeJob j.id).setJobs (fun x => { x with turns := tn }) ∧ s.jobFor src 0 2 3 = some j)
  ∧ (∃ (s u : State) (src : JobSrc) (lane : Fin 12) (j k : Job) (tn : Turns), s.laneReserved lane.val = false ∧ s.laneFree lane.val = true ∧
    s.shearsNext = some (k, tn) ∧ k.id = j.id ∧ u = (s.takeJob j.id).setJobs (fun x => { x with turns := tn }) ∧ s.jobFor src 0 3 3 = some j) :=
  ⟨⟨wSh 1, _, .cluster 8, 11, wShJob 1, (wShNext 1).1, (wShNext 1).2, [1, 70], by decide +kernel, by decide +kernel, some_of (wShJob 0, ⟨none, []⟩) (by decide +kernel),
    by decide +kernel, rfl, by decide +kernel, by decide +kernel⟩,
   ⟨wr (wSh 1) [(R.SHEARS.RETIRE_LIMIT_MISMATCHES, 2)], _, .cluster 8, 11, wShJob 1, (wShNext 1).1, (wShNext 1).2, [0], by decide +kernel, by decide +kernel,
    by decide +kernel, by decide +kernel, rfl, by decide +kernel, by decide, by decide +kernel⟩,
   ⟨wSh 2, _, .cluster 8, 11, wShJob 2, (wShNext 2).1, (wShNext 2).2, by decide +kernel, by decide +kernel, some_of (wShJob 0, ⟨none, []⟩) (by decide +kernel), by decide +kernel, rfl,
    by decide +kernel⟩,
   ⟨wSh 3, _, .cluster 8, 11, wShJob 3, (wShNext 3).1, (wShNext 3).2, by decide +kernel, by decide +kernel, some_of (wShJob 0, ⟨none, []⟩) (by decide +kernel), by decide +kernel, rfl,
    by decide +kernel⟩⟩

theorem met_FlashChannelsWork_1 :
  (∃ (s : State) (ch : Fin 32) (r : NandTraining) (p : List Nat) (part : NandPart) (dqs re : Bool) (l : List (Bool × Bool)),
    s.get (R.NAND.CH_STATUS_STATE ↑ch) = 1 ∧ r.failStep = 0 ∧ swizzleOf r.answers = some p ∧ bitAt (s.get R.PWR.SAFE_CAUSE_CAUSE) 6 = false ∧
    s.population (↑ch) r.parts = some part ∧ r.clean = (dqs, re) :: l)
  ∧ (∃ (s : State) (ch : Fin 32), s.get (R.NAND.CH_STATUS_STATE ↑ch) ≠ 4 ∧ s.get (R.NAND.CH_STATUS_PWR_EN ↑ch) ≠ 0)
  ∧ (∃ (s : State) (ch : Fin 32) (die : Fin 16) (o : DieOp), s.frontOp (↑ch * 16 + ↑die) = some o ∧ s.nand.resetOnce.contains (↑ch * 16 + ↑die) = false)
  ∧ (∃ (s : State) (ch : Fin 32) (die : Fin 16), s.nand.resetOnce.contains (↑ch * 16 + ↑die) = true ∧ s.dieLive (↑ch * 16 + ↑die) = true) :=
  ⟨⟨wr wMedia [(R.NAND.CH_STATUS_STATE 31, 1)], 31, ⟨0, [(0xEC, wPage)], [wPart], [], [(true, false)]⟩, [0, 1, 2, 3, 4, 5, 6, 7], wPart, true, false,
    [], by decide +kernel⟩,
   ⟨wr wMedia [(R.NAND.CH_STATUS_PWR_EN 0, 1)], 0, by decide +kernel⟩,
   ⟨{ wr wMedia [(R.NAND.RETRY_CFG_STEPS 9, 2)] with nand := { wMedia.nand with queues := [(144, [⟨.read, 1, 2, false, [0, 1], [0, 1], 0, .background 0⟩])] } },
    9, 0, ⟨.read, 1, 2, false, [0, 1], [0, 1], 0, .background 0⟩, by decide +kernel⟩,
   ⟨{ wr wMedia [(R.NAND.RETRY_CFG_STEPS 9, 2)] with nand := { wMedia.nand with queues := [(144, [⟨.read, 1, 2, false, [0, 1], [0, 1], 0, .background 0⟩])], resetOnce := [144] } },
    9, 0, by decide +kernel⟩⟩

theorem met_FlashChannelsWork_2 :
  (∃ (s t : State) (ch : Fin 32) (die : Fin 16) (rs : List CwOutcome) (o : DieOp) (left : List Nat), s.frontOp (↑ch * 16 + ↑die) = some o ∧
    o.kind = OpKind.read ∧ o.step = 0 ∧ State.decodeAll 0 (↑ch * 16 + ↑die) o o.todo rs s = (left, t))
  ∧ (∃ (s t : State) (ch : Fin 32) (die : Fin 16) (rs : List CwOutcome) (o : DieOp) (left : List Nat), s.frontOp (↑ch * 16 + ↑die) = some o ∧
    o.kind = OpKind.read ∧ 1 ≤ o.step ∧ o.step ≤ s.get (R.NAND.RETRY_CFG_STEPS ↑ch) ∧ State.decodeAll 2 (↑ch * 16 + ↑die) o o.todo rs s = (left, t))
  ∧ (∃ (s t : State) (ch : Fin 32) (die : Fin 16) (rs : List CwOutcome) (o : DieOp) (left : List Nat), s.frontOp (↑ch * 16 + ↑die) = some o ∧
    o.kind = OpKind.read ∧ s.get (R.NAND.RETRY_CFG_STEPS ↑ch) < o.step ∧ State.decodeAll 3 (↑ch * 16 + ↑die) o o.todo rs s = (left, t))
  ∧ (∃ (s : State) (ch : Fin 32) (die : Fin 16) (o : DieOp) (g i m : Nat), s.frontOp (↑ch * 16 + ↑die) = some o ∧ o.use = OpFor.unit g i m) :=
  ⟨⟨{ wr wMedia [(R.NAND.RETRY_CFG_STEPS 9, 2)] with nand := { wMedia.nand with queues := [(144, [⟨.read, 1, 2, false, [0, 1], [0, 1], 0, .background 0⟩])] } },
    (State.decodeAll 0 144 (⟨.read, 1, 2, false, [0, 1], [0, 1], 0, .background 0⟩) (⟨.read, 1, 2, false, [0, 1], [0, 1], 0,
    .background 0⟩ : DieOp).todo [⟨100, some 3⟩, ⟨0, none⟩] ({ wr wMedia [(R.NAND.RETRY_CFG_STEPS 9, 2)] with nand := { wMedia.nand with queues := [(144, [⟨.read, 1, 2, false, [0, 1], [0, 1], 0, .background 0⟩])] } })).2,
    9, 0, [⟨100, some 3⟩, ⟨0, none⟩], ⟨.read, 1, 2, false, [0, 1], [0, 1], 0, .background 0⟩, [], by decide +kernel⟩,
   ⟨{ wr wMedia [(R.NAND.RETRY_CFG_STEPS 9, 2)] with nand := { wMedia.nand with queues := [(144, [⟨.read, 1, 2, false, [0, 1], [0, 1], 1, .background 0⟩])] } },
    (State.decodeAll 2 144 (⟨.read, 1, 2, false, [0, 1], [0, 1], 1, .background 0⟩) (⟨.read, 1, 2, false, [0, 1], [0, 1], 1,
    .background 0⟩ : DieOp).todo [⟨100, some 3⟩, ⟨0, none⟩] ({ wr wMedia [(R.NAND.RETRY_CFG_STEPS 9, 2)] with nand := { wMedia.nand with queues := [(144, [⟨.read, 1, 2, false, [0, 1], [0, 1], 1, .background 0⟩])] } })).2,
    9, 0, [⟨100, some 3⟩, ⟨0, none⟩], ⟨.read, 1, 2, false, [0, 1], [0, 1], 1, .background 0⟩, [], by decide +kernel⟩,
   ⟨{ wr wMedia [(R.NAND.RETRY_CFG_STEPS 9, 2)] with nand := { wMedia.nand with queues := [(144, [⟨.read, 1, 2, false, [0, 1], [0, 1], 16, .background 0⟩])] } },
    (State.decodeAll 3 144 (⟨.read, 1, 2, false, [0, 1], [0, 1], 16, .background 0⟩) (⟨.read, 1, 2, false, [0, 1], [0, 1], 16,
    .background 0⟩ : DieOp).todo [⟨100, some 3⟩, ⟨0, none⟩] ({ wr wMedia [(R.NAND.RETRY_CFG_STEPS 9, 2)] with nand := { wMedia.nand with queues := [(144, [⟨.read, 1, 2, false, [0, 1], [0, 1], 16, .background 0⟩])] } })).2,
    9, 0, [⟨100, some 3⟩, ⟨0, none⟩], ⟨.read, 1, 2, false, [0, 1], [0, 1], 16, .background 0⟩, [], by decide +kernel⟩,
   ⟨{ wr wMedia [(R.NAND.RETRY_CFG_STEPS 9, 2)] with nand := { wMedia.nand with queues := [(144, [⟨.program, 1, 2, false, [0, 1], [0, 1], 0, .unit 0 0 9⟩])] } },
    9, 0, ⟨.program, 1, 2, false, [0, 1], [0, 1], 0, .unit 0 0 9⟩, 0, 0, 9, by decide +kernel⟩⟩

/-- `wMedia` with die 144 at work on `o`. -/
def wDie (o : DieOp) : State := { wMedia with nand := { wMedia.nand with queues := [(144, [o])] } }

theorem met_FlashChannelsWork_3 :
  (∃ (s : State) (ch : Fin 32) (die : Fin 16) (o : DieOp) (n i : Nat), s.frontOp (↑ch * 16 + ↑die) = some o ∧ o.use = OpFor.page n i)
  ∧ (∃ (s : State) (ch : Fin 32) (die : Fin 16) (o : DieOp) (g m : Nat), s.frontOp (↑ch * 16 + ↑die) = some o ∧ o.use = OpFor.erase g m)
  ∧ (∃ (s : State) (ch : Fin 32) (die : Fin 16) (o : DieOp) (g i m : Nat) (ps : List (Nat × Bytes × Bytes)), s.frontOp (ch.val * 16 + die.val) = some o ∧ o.use = OpFor.rebuild g i m ps)
  ∧ (∃ (s : State) (ch : Fin 32) (die : Fin 16) (o : DieOp), s.frontOp (↑ch * 16 + ↑die) = some o ∧ o.use = OpFor.pageErase)
  ∧ (∃ (s : State) (ch : Fin 32), s.chActive ↑ch = true)
  ∧ (∃ (s : State) (ch : Fin 32), s.chActive ↑ch = false)
  ∧ (∃ (s : State) (o : Origin) (ch : Fin 32), s.powered = true ∧ s.reaches o (nandPage ↑ch) = true ∧ s.holds o Role.installer = true ∧
    s.takeLive = false ∧ s.chActive ↑ch = true ∧ s.media.formatted = false) :=
  ⟨⟨wDie ⟨.program, 1, 2, true, [], [], 0, .page 5 2⟩, 9, 0, ⟨.program, 1, 2, true, [], [], 0, .page 5 2⟩, 5, 2, by decide +kernel⟩,
   ⟨wDie ⟨.erase, 1, 2, false, [], [], 0, .erase 0 9⟩, 9, 0, ⟨.erase, 1, 2, false, [], [], 0, .erase 0 9⟩, 0, 9, by decide +kernel⟩,
   ⟨wDie ⟨.program, 1, 2, true, [], [], 0, .rebuild 1 0 9 [(0, [1], [])]⟩, 9, 0, ⟨.program, 1, 2, true, [], [], 0, .rebuild 1 0 9 [(0, [1], [])]⟩, 1, 0, 9, [(0, [1], [])], by decide +kernel⟩,
   ⟨wDie ⟨.erase, 1, 0, true, [], [], 0, .pageErase⟩, 9, 0, ⟨.erase, 1, 0, true, [], [], 0, .pageErase⟩, by decide +kernel⟩,
   ⟨wMedia, 9, by decide +kernel⟩,
   ⟨wMedia, 10, by decide +kernel⟩,
   ⟨{ wMedia with media := { wMedia.media with formatted := false } }, .firmware, 9, by decide +kernel⟩⟩

/-- A journal page of number 5, a device-metadata page of that number, programmed or not, and a checkpoint whose record it is. -/
def wJ (s : State) (done : Bool) : State :=
  { s with media := { s.media with journal := [⟨5, [⟨3, 1, 1, 5, (0, 0), 7⟩], false⟩],
                                   pages := [⟨5, 5, 9, false, [], [⟨0, 1, 0, done⟩, ⟨16, 1, 0, true⟩, ⟨32, 1, 0, true⟩]⟩] } }
def wCkpt : Ckpt := ⟨9, 4, 5, [], wMedia.media.image, [], [], wMedia.fault.dev, false, 0, 0, 8⟩
def wCk (done : Bool) : State :=
  let s := wJ (wr wMedia [(R.MEDIA.MEDIA_STATUS_CKPT_BUSY, 1)]) done
  { s with media := { s.media with job := some ⟨some wCkpt, true, true⟩ } }

theorem met_JournalAndCheckpoints_1 :
  (∃ s u : State, s.media.page ≠ [] ∧ u = { s with time := max s.time (s.media.pageSince + 1000000) } ∧ (u.pageDies false).length = 3)
  ∧ (∃ s u : State, s.media.page ≠ [] ∧ u = { s with time := max s.time (s.media.pageSince + 1000000) } ∧ (u.pageDies false).length ≠ 3)
  ∧ (∃ (s : State) (p : JPage), s.media.journal.find? (!·.durable) = some p ∧ s.pageDone p.num = true)
  ∧ (∃ (s : State) (p : JPage), s.media.journal.find? (!·.durable) = some p ∧ s.pageDone p.num = false)
  ∧ (∃ (s : State) (r : JRec), r.kind = 0x09 ∧ (s.removeTake r.nsid).media.zeroWaits = [])
  ∧ (∃ (s : State) (rs : List JRec), (rs.all fun r => r.kind != 0x09) = true ∧ s.media.zeroWaits = [])
  ∧ (∃ (s : State) (c : CmdKey) (q : Nat) (r : JRec), r.kind = 0x04 ∧ r.seq = q ∧ s.media.zeroWaits = [(c, q)]) :=
  ⟨⟨{ wMedia with media := { wMedia.media with page := [⟨3, 1, 1, 5, (0, 0), 7⟩] } }, _, by decide +kernel, rfl, by decide +kernel⟩,
   ⟨{ wOn with media := { wMedia.media with page := [⟨3, 1, 1, 5, (0, 0), 7⟩] } }, _, by decide +kernel, rfl, by decide +kernel⟩,
   ⟨wJ wMedia true, ⟨5, [⟨3, 1, 1, 5, (0, 0), 7⟩], false⟩, by decide +kernel⟩,
   ⟨wJ wMedia false, ⟨5, [⟨3, 1, 1, 5, (0, 0), 7⟩], false⟩, by decide +kernel⟩,
   ⟨wMedia, ⟨9, 0, 0x10000, 0, (0, 0), 7⟩, by decide +kernel⟩,
   ⟨wMedia, [⟨3, 1, 1, 5, (0, 0), 7⟩, ⟨4, 65535, 1, 0, (0, 0), 8⟩], by decide +kernel⟩,
   ⟨{ wMedia with media := { wMedia.media with zeroWaits := [(wKey, 7)] } }, wKey, 7, ⟨4, 1, 1, 5, (0, 0), 7⟩, by decide +kernel⟩⟩

theorem met_JournalAndCheckpoints_2 :
  (∃ (s : State) (o : Origin), s.powered = true ∧ s.reaches o 96 = true ∧ s.holds o Role.installer = true ∧
    s.bit R.MEDIA.MEDIA_STATUS_CKPT_BUSY = false ∧ s.media.formatted = true)
  ∧ (∃ (s : State) (o : Origin), s.powered = true ∧ s.reaches o 96 = true ∧ s.holds o Role.installer = true ∧ s.bit R.MEDIA.MEDIA_STATUS_CKPT_BUSY = true)
  ∧ (∃ (s : State), s.media.formatted = true ∧ s.bit R.MEDIA.MEDIA_STATUS_CKPT_BUSY = false ∧
    2 ^ 30 ≤ (s.media.durable.length + s.media.inFlight.flatten.length) * 32)
  ∧ (∃ (s : State) (c : Ckpt) (d : Bool), s.media.job = some ⟨some c, d, true⟩ ∧ s.draining = false ∧ s.pageDone c.num = true ∧ s.tally.ptrs.length = 2)
  ∧ (∃ (s : State) (c : Ckpt) (d : Bool), s.media.job = some ⟨some c, d, true⟩ ∧ s.draining = false ∧ s.pageDone c.num = false) :=
  ⟨⟨wMedia, .firmware, by decide +kernel⟩,
   ⟨wr wMedia [(R.MEDIA.MEDIA_STATUS_CKPT_BUSY, 1)], .firmware, by decide +kernel⟩,
   ⟨withRecords wMedia (2 ^ 25), (withRecords_formatted ..).trans (by decide +kernel), (withRecords_bit ..).trans (by decide +kernel),
    Nat.mul_le_mul_right 32 (withRecords_length wMedia (2 ^ 25) rfl)⟩,
   ⟨wCk true, wCkpt, true, by decide +kernel⟩,
   ⟨wCk false, wCkpt, true, by decide +kernel⟩⟩

/-- `wGr`, its groups not due for patrol yet, and those of them that refresh waits for. -/
def wBg (gs : List Group) (m : List ((Nat × Nat) × MapEnt)) (rf : List Nat) : State :=
  let s := wGr gs m
  { s with media := { s.media with patrolAt := 10 ^ 18, refresh := rf } }

theorem met_MediaBackgroundWorks_1 :
  (∃ (s : State) (g : Group) (gs : List Group) (h : Group), s.media.formatted = true ∧ s.media.reloc = none ∧ s.mayTask 5 = true ∧ s.mode ≠ 7 ∧
    s.media.slc * 1000000 * 9 < s.slcBytes * 10 ∧ s.closedOf (·.use == .slc) = g :: gs ∧ h ∈ g :: gs)
  ∧ (∃ (s t : State) (g : Group), s.media.formatted = true ∧ s.offline = false ∧ t = s.noteGreedy.freeEmpty ∧ t.media.reloc = none ∧ t.gcDue = true ∧
    t.mayTask 5 = true ∧ t.gcVictim = some g)
  ∧ (∃ s t : State, s.media.formatted = true ∧ s.offline = false ∧ t = s.noteGreedy.freeEmpty ∧ t.mayTask 5 = false)
  ∧ (∃ (s : State) (g : Group), (∀ n ∈ s.media.refresh, ∃ h, s.group? n = some h ∧ h.state ≠ .freed) ∧ (∀ r : Nat × List Nat × Nat, s.media.reloc = some r → r.2.2 ≠ 2) ∧ s.mayTask 2 = true ∧
    s.toRefresh = some g ∧ (s.mode ≠ 7 ∨ s.poolBlocks ≠ 0))
  ∧ (∃ (s : State) (g : Group), (∀ n ∈ s.media.refresh, ∃ h, s.group? n = some h ∧ h.state ≠ .freed) ∧ (∀ r : Nat × List Nat × Nat, s.media.reloc = some r → r.2.2 ≠ 2) ∧ s.mayTask 2 = true ∧
    s.toRefresh = some g ∧ s.mode = 7 ∧ s.poolBlocks = 0) :=
  ⟨⟨wBg [{ wGroup 1 .closed [wUnit 5 7] with use := .slc, closedAt := 9 }, { wGroup 2 .closed [wUnit 5 7] with use := .slc, closedAt := 3 }]
      [((1, 5), .mapped 1 0)] [], { wGroup 2 .closed [wUnit 5 7] with use := .slc, closedAt := 3 },
    [{ wGroup 1 .closed [wUnit 5 7] with use := .slc, closedAt := 9 }], { wGroup 1 .closed [wUnit 5 7] with use := .slc, closedAt := 9 },
    by decide +kernel⟩,
   ⟨wBg [wGroup 1 .closed [wUnit 5 7, wUnit 6 8], wGroup 2 .closed [wUnit 7 9, wUnit 8 10]] [((1, 5), .mapped 1 0), ((1, 7), .mapped 2 0), ((1, 8),
    .mapped 2 1)] [], _, wGroup 1 .closed [wUnit 5 7, wUnit 6 8], by decide +kernel, by decide +kernel, rfl, by decide +kernel, by decide +kernel,
    by decide +kernel, by decide +kernel⟩,
   ⟨wGr [wGroup 1 .closed [wUnit 5 7]] [((1, 5), .mapped 1 0)], _, by decide +kernel, by decide +kernel, rfl, by decide +kernel⟩,
   ⟨wBg [wGroup 1 .closed [wUnit 5 7, wUnit 6 8]] [] [1], wGroup 1 .closed [wUnit 5 7, wUnit 6 8], fun n h => by
      rw [show n = 1 from List.mem_singleton.mp h]; exact ⟨_, rfl, by decide⟩,
    fun _ h => (by cases h), by decide +kernel⟩,
   ⟨{ wr wOn [(R.PWR.MODE_MODE, 7)] with media := (wBg [wGroup 1 .closed [wUnit 5 7]] [] [1]).media }, wGroup 1 .closed [wUnit 5 7], fun n h => by
      rw [show n = 1 from List.mem_singleton.mp h]; exact ⟨_, rfl, by decide⟩,
    fun _ h => (by cases h), by decide +kernel⟩⟩

theorem met_MediaBackgroundWorks_2 :
  (∃ (s u : State) (g : Group) (gs : List Group), s.mayTask 2 = true ∧ s.unpatrolled = g :: gs ∧ u = { s with time := max s.time s.media.patrolAt })
  ∧ (∃ s : State, s.mayTask 2 = true ∧ s.unpatrolled = [])
  ∧ (∃ (s : State) (ch : Fin 32) (die : Fin 16) (gs : List Group) (pe : Group → Nat), s.media.reloc = none ∧ s.mayTask 5 = true ∧ s.mode ≠ 7 ∧
    gs = (s.groups.filter fun g => g.quiet && g.members.any (·.1 == ch.val * 16 + die.val)) ∧
    pe = (fun g => ((g.members.find? (·.1 == ch.val * 16 + die.val)).map fun m => s.eraseCount (ch.val * 16 + die.val) m.2).getD 0) ∧
    (∃ g ∈ gs, pe g + s.get R.MEDIA.WEAR_SPREAD_CYCLES
      < ((s.goodBlocks (ch.val * 16 + die.val)).map (s.eraseCount (ch.val * 16 + die.val))).foldl max 0))
  ∧ (∃ (s : State) (i rank : Nat), s.mayTask rank = true ∧ i < rank ∧ i < 5) :=
  ⟨⟨wGr [wGroup 1 .closed [wUnit 5 7, wUnit 6 8], wGroup 2 .closed [wUnit 7 9, wUnit 8 10]] [((1, 5), .mapped 1 0), ((1, 7), .mapped 2 0), ((1, 8),
    .mapped 2 1)], _, wGroup 1 .closed [wUnit 5 7, wUnit 6 8], [wGroup 2 .closed [wUnit 7 9, wUnit 8 10]], by decide +kernel, by decide +kernel, rfl⟩,
   ⟨wMedia, by decide +kernel⟩,
   ⟨let s := wBg [wGroup 1 .closed [wUnit 5 7, wUnit 6 8]] [] []
    { wr s [(R.MEDIA.WEAR_SPREAD_CYCLES, 100)] with media := { s.media with image := { s.media.image with erases := [((144, 3), 101)] } } },
    9, 0, _, _, by decide +kernel, by decide +kernel, by decide +kernel, rfl, rfl, by decide +kernel⟩,
   ⟨wMedia, 4, 5, by decide +kernel⟩⟩

theorem met_MediaBackgroundWorks_3 :
  (∃ (s : State) (n why : Nat) (l : List Nat) (g : Group), s.media.reloc = some (n, l, why) ∧ s.group? n = some g ∧ g.state ≠ .freed ∧ s.mayTask (if why = 2 then 2 else 5) = true ∧ s.validCount g = 0)
  ∧ (∃ (s : State) (n why : Nat) (l : List Nat) (g : Group), s.media.reloc = some (n, l, why) ∧ s.group? n = some g ∧ g.state ≠ .freed ∧ s.mayTask (if why = 2 then 2 else 5) = true ∧ s.validCount g ≠ 0)
  ∧ (∃ (s : State) (page : Nat), page ∈ s.media.lostPages)
  ∧ (∃ (s : State) (n why : Nat) (l : List Nat), s.media.reloc = some (n, l, why) ∧ s.mayTask (if why = 2 then 2 else 5) = false)
  ∧ (∃ s : State, s.keys.due = [])
  ∧ (∃ (s : State) (n : Nat) (g : Group), n ∉ s.keys.due ∧ (∀ x ∈ s.metaAll, x.kind = 3 → x.logical = 2 ^ 62 + n → x.ready = true) ∧
    s.media.refresh.length + (s.oldKeyGroups n).length ≤ 4096 ∧ g ∈ s.oldKeyGroups n ∧ g.state = GroupState.closed)
  ∧ (∃ (s : State) (n : Nat), n ∉ s.keys.due ∧ (∀ x ∈ s.metaAll, x.kind = 3 → x.logical = 2 ^ 62 + n → x.ready = true) ∧ s.oldKeyGroups n = [])
  ∧ (∃ (s : State) (r : KeyRec) (k : KeySlot), r ∈ s.keys.records ∧ k ∈ (s.dropKey r.num).keys.slots)
  ∧ (∃ (s : State) (rec seq : Nat), (∀ k ∈ s.keys.slots, k.ref ≠ rec) ∧ ∀ r ∈ s.keys.records, r.num = rec → r.seq ≠ seq) :=
  ⟨⟨let s := wBg [wGroup 1 .closed [wUnit 5 7, wUnit 6 8]] [] []
    { s with media := { s.media with reloc := some (1, [], 0) } }, 1, 0, [], wGroup 1 .closed [wUnit 5 7, wUnit 6 8], by decide +kernel⟩,
   ⟨let s := wBg [wGroup 1 .closed [wUnit 5 7, wUnit 6 8]] [((1, 5), .mapped 1 0)] []
    { s with media := { s.media with reloc := some (1, [0], 2) } }, 1, 2, [0], wGroup 1 .closed [wUnit 5 7, wUnit 6 8], by decide +kernel⟩,
   ⟨{ wMedia with media := { wMedia.media with lostPages := [3, 5] } }, 5, by decide +kernel⟩,
   ⟨let s := wBg [wGroup 1 .closed [wUnit 5 7, wUnit 6 8]] [((1, 5), .mapped 1 0)] []
    { s with media := { s.media with reloc := some (1, [0], 0), patrolAt := 10 ^ 18, refresh := [1] } }, 1, 0, [0], by decide +kernel⟩,
   ⟨wMedia, by decide +kernel⟩,
   ⟨wGr [{ wGroup 1 .closed [⟨0, 3, 2 ^ 62 + 5, 7, 0, [1], none, true⟩, ⟨0, 3, 2 ^ 62 + 5, 9, 0, [1], none, true⟩] with use := .metadata }] [], 5,
    { wGroup 1 .closed [⟨0, 3, 2 ^ 62 + 5, 7, 0, [1], none, true⟩, ⟨0, 3, 2 ^ 62 + 5, 9, 0, [1], none, true⟩] with use := .metadata }, by decide +kernel⟩,
   ⟨wGr [{ wGroup 1 .closed [⟨0, 3, 2 ^ 62 + 5, 7, 0, [1], none, true⟩] with use := .metadata }] [], 5, by decide +kernel⟩,
   ⟨{ wOn with keys := { wOn.keys with records := [⟨1, 0, 1, List.replicate 72 0⟩], slots := [⟨5, List.replicate 64 9, true, 0x1F0, 2⟩] } }, ⟨1, 0, 1, List.replicate 72 0⟩,
    ⟨5, List.replicate 64 9, true, 0x1F0, 2⟩, by decide +kernel⟩,
   ⟨{ wOn with keys := { wOn.keys with records := [⟨1, 0, 1, List.replicate 72 0⟩], slots := [⟨5, List.replicate 64 9, true, 0x1F0, 2⟩] } }, 1, 3, by decide +kernel⟩⟩

theorem met_VictimIsTheBestCandidate :
  (∃ (s : State) (g h : Group), s.poolUser < s.get R.FALLOW.LOW_WATER_GB * 1000 ∧ s.gcVictim = some g ∧ h ∈ s.gcCandidates ∧
    s.validCount h = s.validCount g)
  ∧ (∃ (s : State), s.media.formatted = true) :=
  ⟨⟨wr (wGr [wGroup 1 .closed [wUnit 5 7, wUnit 6 8], wGroup 2 .closed [wUnit 7 9, wUnit 8 10]] [((1, 5), .mapped 1 0), ((1, 7), .mapped 2 0), ((1, 8),
    .mapped 2 1)]) [(R.FALLOW.LOW_WATER_GB, 1)], wGroup 1 .closed [wUnit 5 7, wUnit 6 8], wGroup 1 .closed [wUnit 5 7, wUnit 6 8], by decide +kernel⟩,
   ⟨wMedia, by decide +kernel⟩⟩

theorem met_GroupsAreErasedAfterTheirRecords_1 :
  (∃ (s : State) (g : Nat) (x : Group) (r : JRec), s.group? g = some x ∧ r ∈ s.media.inFlight.flatten ++ s.media.page ∧ r.kind = 7 ∧ r.logical = g)
  ∧ (∃ (s : State) (g : Nat) (x : Group), s.group? g = some x ∧
    (x.freeAt.isSome = true ∨ s.copyUnsecured x = true ∨ s.get R.FALLOW.TARGET_GB * 1000 ≤ s.poolUser))
  ∧ (∃ (s : State) (g : Nat) (x : Group), s.group? g = some x ∧ x.state = .freed ∧ x.erasing = false ∧ s.freeDurable x = true ∧
    s.copyUnsecured x = false ∧ s.poolUser < s.get R.FALLOW.TARGET_GB * 1000)
  ∧ (∃ (s : State) (g : Nat) (x : Group), s.group? g = some x ∧ x.state = GroupState.freed ∧ x.erasing = true ∧
    (List.range x.members.length).all x.erased.contains = true) :=
  ⟨⟨{ wGr [wGroup 1 .freed []] [] with media := { (wGr [wGroup 1 .freed []] []).media with page := [⟨7, 1, 0, 1, (1, 0), 7⟩] } }, 1, wGroup 1 .freed [],
    ⟨7, 1, 0, 1, (1, 0), 7⟩, by decide +kernel⟩,
   ⟨wr (wGr [wGroup 1 .freed []] []) [(R.FALLOW.TARGET_GB, 0)], 1, wGroup 1 .freed [], by decide +kernel⟩,
   ⟨wr (wGr [wGroup 1 .freed []] []) [(R.FALLOW.TARGET_GB, 1000)], 1, wGroup 1 .freed [], by decide +kernel⟩,
   ⟨wGr [{ wGroup 1 .freed [] with erasing := true, erased := List.range 10 }] [], 1, { wGroup 1 .freed [] with erasing := true, erased := List.range 10 },
    by decide +kernel⟩⟩

/-- An open metadata group, map pages 0 and 3 dirty, and those directory pages. -/
def wDirty (l : List Nat) : State :=
  let s := wGr [{ wGroup 1 .opened [] with use := .metadata }] []
  { s with media := { s.media with dirty := [(0, 2), (3, 5)], dirtyDir := l } }

theorem met_GroupsAreErasedAfterTheirRecords_2 :
  (∃ (s : State), s.media.wbuf ≠ [] ∧ s.offline = false)
  ∧ (∃ (s : State) (p : Nat) (t : State), s.media.dirtyDir = [] ∧ s.dirtiest = some p ∧ s.placeMeta 3 p (s.mapPageBytes p) = some t)
  ∧ (∃ (s : State) (d : Nat) (rest : List Nat), s.media.dirtyDir = d :: rest ∧ 4096 ≤ s.media.dirtyDir.length + s.metaPending 3) :=
  ⟨⟨{ wMedia with media := { wMedia.media with wbuf := [⟨1, 5, [1], 4096⟩] } }, by decide +kernel⟩,
   ⟨wDirty [], 3, _, by decide +kernel, by decide +kernel, some_of wOn (placeUnit_some (by decide +kernel) (by decide +kernel))⟩,
   ⟨wDirty (0 :: List.replicate 4095 1), 0, List.replicate 4095 1, rfl, Nat.le_trans (Nat.le_of_eq (congrArg (· + 1) (List.length_replicate ..).symm)) (Nat.le_add_right ..)⟩⟩

theorem met_TheNewestCopyWins :
  (∃ (s : State) (nsid logical seq : Nat) (e : MapEnt), s.mapEnt nsid logical = some e ∧ seq < s.entSeq e)
  ∧ (∃ (s : State) (nsid logical seq : Nat), ∀ (e : MapEnt), s.mapEnt nsid logical = some e → s.entSeq e ≤ seq)
  ∧ (∃ (s : State) (nsid logical seq n l : Nat), (∀ (e : MapEnt), s.mapEnt nsid logical = some e → s.entSeq e ≤ seq) ∧ (n, l) ≠ (nsid, logical))
  ∧ (∃ (s : State) (nsid logical seq q : Nat), s.mapEnt nsid logical = some (.zeroes q) ∧ seq < q) :=
  ⟨⟨wGr [wGroup 1 .closed [wUnit 5 7]] [((1, 5), .mapped 1 0)], 1, 5, 6, .mapped 1 0, by decide +kernel⟩,
   ⟨wGr [wGroup 1 .closed [wUnit 5 7]] [((1, 5), .mapped 1 0)], 1, 6, 7, by decide +kernel⟩,
   ⟨wGr [wGroup 1 .closed [wUnit 5 7]] [((1, 5), .mapped 1 0)], 1, 6, 7, 1, 5, by decide +kernel⟩,
   ⟨wGr [] [((1, 5), .zeroes 8)], 1, 5, 7, 8, by decide +kernel⟩⟩

/-- A group of one stripe whose members 0 to `n - 1` are in place. -/
def wShort (gn n : Nat) : Group := { wGroup gn .closed [wUnit 5 7] with stripes := [⟨[wUnit 5 7], true, List.range n, [], true, false, false, false⟩] }

/-- A snapshot on its way, as page 5. -/
def wSnap (done : Bool) : State := { wJ wMedia done with array := { wMedia.array with snapNew := some (5, ⟨3, 7, [], [], 0, (0, 0)⟩) } }

/-- A snapshot is due, and the journal has its dies. -/
def wDirtySnap : State :=
  let s := wr wMedia [(R.ARRAY.JOURNAL_DIES_DIE1, 16), (R.ARRAY.JOURNAL_DIE2_DIE2, 32)]
  { s with array := { s.array with snapDirty := true } }

theorem page_of {α β : Type} {o : Option (α × β)} (h : o.isSome = true) : ∃ b a, o = some (a, b) := by
  cases o with
  | none => cases h
  | some x => exact ⟨x.2, x.1, rfl⟩

theorem met_ArrayBackgroundWorks_1 :
  (∃ (s t : State) (p : Nat), s.array.snapNew = none ∧ s.array.snapDirty = true ∧ s.putPage 0 s.makeSnap.mark true s.makeSnap.bytes = some (p, t))
  ∧ (∃ (s : State) (p : Nat) (n : Snapshot), s.array.snapNew = some (p, n) ∧ s.pageDone p = true)
  ∧ (∃ (s : State) (x : Nat × Snapshot), s.array.snap = some x)
  ∧ (∃ (s : State), s.bitmapM ≤ s.array.bitmapWrites)
  ∧ (∃ (s : State) (gn i : Nat) (l : List (Nat × Nat)), s.mayTask 0 = true ∧ s.toRebuild = (gn, i) :: l ∧
    (s.toRebuild.all fun x => s.canRebuild x.1) = true)
  ∧ (∃ (s : State), s.mayTask 0 = true ∧ (s.toRebuild.all fun x => !s.canRebuild x.1) = true ∧ s.toRebuild ≠ []) :=
  ⟨⟨wDirtySnap, (page_of (by decide +kernel)).imp fun _ h => h.imp fun _ h => ⟨by decide +kernel, by decide +kernel, h⟩⟩,
   ⟨wSnap true, 5, ⟨3, 7, [], [], 0, (0, 0)⟩, by decide +kernel⟩,
   ⟨{ wMedia with array := { wMedia.array with snap := some (5, ⟨3, 7, [], [], 0, (0, 0)⟩) } }, _, rfl⟩,
   ⟨{ wMedia with array := { wMedia.array with bitmapWrites := 2 ^ 28 } }, by decide +kernel⟩,
   ⟨wBg [wShort 1 9] [] [], 1, 0, [], by decide +kernel⟩,
   ⟨wr (wBg [{ wShort 1 9 with lostMembers := [9] }] [] []) [(R.NAND.CH_STATUS_STATE 9, 3)], by decide +kernel⟩⟩

/-- A stripe of group 1 still owed a resynchronisation, and one of group 2 after it. -/
def wOwe (l : List (Nat × Nat)) : State :=
  let s := wBg [wGroup 1 .closed [wUnit 5 7], wGroup 2 .closed [wUnit 6 8]] [] []
  { s with array := { s.array with pending := [(1, 0)], sweep := l } }

theorem met_ArrayBackgroundWorks_2 :
  (∃ (s : State) (gn i : Nat), s.nextResync = some (gn, i) ∧
    (s.resyncAt gn i).array.owed ≠ [])
  ∧ (∃ (s : State) (gn i : Nat), s.nextResync = some (gn, i) ∧
    (s.resyncAt gn i).array.owed = [])
  ∧ (∃ (s : State) (o : Origin) (k : BitVec 2), s.powered = true ∧ s.reaches o 98 = true ∧ s.holds o Role.installer = true ∧
    s.reshapeBusy (widthOf k.toNat) = false ∧ s.reshapeNoRoom (widthOf k.toNat) = false)
  ∧ (∃ (s : State) (o : Origin) (k : BitVec 2), s.powered = true ∧ s.reaches o 98 = true ∧ s.holds o Role.installer = true ∧
    s.reshapeBusy (widthOf k.toNat) = true)
  ∧ (∃ (s : State) (r : ReshapeRec), s.array.reshape = some r ∧ r.active = true ∧ s.reshapePaused = false ∧ s.mayReshape = true ∧ s.array.reshapeSeq = [] ∧
    r.total = 0 ∧ r.boundary = 0) :=
  ⟨⟨wOwe [(2, 0)], 1, 0, by decide +kernel⟩,
   ⟨wOwe [], 1, 0, by decide +kernel⟩,
   ⟨wr wMedia [(R.ARRAY.LAYOUT_K, 1)], .firmware, 0, by decide +kernel⟩,
   ⟨wMedia, .firmware, 3, by decide +kernel⟩,
   ⟨{ wMedia with array := { wMedia.array with reshape := some ⟨8, 16, 1, 0, 0, true⟩ } }, ⟨8, 16, 1, 0, 0, true⟩, by decide +kernel⟩⟩

theorem met_ArrayBackgroundWorks_3 :
  (∃ (s : State) (r : ReshapeRec) (n : Nat) (g : Group) (u : Nat), s.array.reshape = some r ∧ r.active = true ∧ s.reshapePaused = false ∧
    s.mayReshape = true ∧ s.array.reshapeSeq = [(n, r.total)] ∧ s.group? n = some g ∧ g.state ≠ GroupState.freed ∧ u ∈ s.validIdx g ∧
    r.boundary ≤ u ∧ u < min r.total (r.boundary + 262144))
  ∧ (∃ (s : State) (o : Origin) (die : BitVec 9), s.powered = true ∧ s.reaches o 98 = true ∧ s.holds o Role.installer = true ∧
    s.array.lost.contains die.toNat = false ∧ s.critical = [] ∧ s.dieLive die.toNat = true)
  ∧ (∃ (s : State) (o : Origin) (die : BitVec 9), s.powered = true ∧ s.reaches o 98 = true ∧ s.holds o Role.installer = true ∧
    s.array.lost.contains die.toNat = true) :=
  ⟨⟨{ wr (wBg [wGroup 1 .closed [wUnit 5 7, wUnit 6 8]] [((1, 5), .mapped 1 0), ((1, 6), .mapped 1 1)] []) [(R.FALLOW.TARGET_GB, 0)] with media := { (wBg [wGroup 1 .closed [wUnit 5 7, wUnit 6 8]] [((1, 5), .mapped 1 0), ((1, 6), .mapped 1 1)] []).media with slc := 10 ^ 9 }, array := { wMedia.array with reshape := some ⟨8, 16, 1, 0, 2, true⟩, reshapeSeq := [(1, 2)] } },
    ⟨8, 16, 1, 0, 2, true⟩, 1, wGroup 1 .closed [wUnit 5 7, wUnit 6 8], 0, by decide +kernel⟩,
   ⟨wMedia, .firmware, 144, by decide +kernel⟩,
   ⟨{ wMedia with array := { wMedia.array with lost := [511] } }, .firmware, 511, by decide +kernel⟩⟩

theorem met_StripesSurviveALostChannel :
  (∃ (g : LayoutGen), (∀ l ∈ g.order, ∀ d ∈ l, d < 16))
  ∧ (∃ (s : State) (n : Nat) (order : List (List Nat)) (turn row : List Nat) (i : Nat) (r : List Nat × List Nat), (∀ l ∈ order, ∀ d ∈ l, d < 16) ∧
    (List.map dieChannel row).Nodup ∧ s.substitute n order turn i row = some r)
  ∧ (∃ (ds : List (Option Bytes)) (p q : Option Bytes), 2 < rowGone (ds, p, q))
  ∧ (∃ (ds : List Bytes) (x : Nat), (∀ d ∈ ds, List.length d = 4096) ∧ x < ds.length) :=
  ⟨⟨wLayoutGen, by decide +kernel⟩,
   ⟨wMedia, 16, wLayoutGen.order, wLayoutGen.turn, [0, 16, 33], 3, ((wMedia.substitute 16 wLayoutGen.order wLayoutGen.turn 3 [0, 16, 33]).getD ([],
    [])), by decide +kernel⟩,
   ⟨[none, none, some []], none, some [], by decide +kernel⟩,
   ⟨List.replicate 8 (List.replicate 4096 5), 7, by decide +kernel⟩⟩

theorem met_SalvageAndReformat :
  (∃ (s a u : State) (c : Cmd) (count first validity : Nat) (n : Ns) (key : Bytes), s.adminReady c.fn = true ∧ isPf c.fn = true ∧
    s.holds (Origin.pcie c.fn) Role.operator = true ∧ s.nsOf c.nsid = some n ∧ (n.kind = NsKind.take ∨ n.kind = NsKind.block) ∧ 1 ≤ count ∧ count ≤ 64 ∧
    validity % 8 = 0 ∧ count * 2 ^ 20 ≤ dptrLen c.dptr ∧ a = s.auditVendor (Origin.pcie c.fn) 196 [1 + count * 65536, 0, first % 2 ^ 32, first / 2 ^ 32,
    validity % 2 ^ 32, validity / 2 ^ 32] false ∧ a.readyPipes.isEmpty = false ∧ a.mediaKey n.keyRec n.keySeq = (some key, u))
  ∧ (∃ (s : State) (c : Cmd), s.adminReady c.fn = true ∧ isPf c.fn = true ∧ s.holds (Origin.pcie c.fn) Role.installer = true ∧ s.mode = 7)
  ∧ (∃ (s : State) (c : Cmd) (m : BitVec 32), s.adminReady c.fn = true ∧ isPf c.fn = true ∧ s.holds (Origin.pcie c.fn) Role.installer = true ∧
    (s.mode ≠ 7 ∨ m ≠ reformatMagic)) :=
  ⟨⟨wPipes wHost, ((wPipes wHost).auditVendor (.pcie 0) 0xC4 [1 + 1 * 65536, 0, 0, 0, 8, 0] false), (((wPipes wHost).auditVendor (.pcie 0) 0xC4 [1 + 1 * 65536, 0, 0, 0, 8,
    0] false).mediaKey 1 0).2, wCmd, 1, 0, 8, wNs1, (List.replicate 64 9), by decide +kernel⟩,
   ⟨wr wHost [(R.PWR.MODE_MODE, 7)], wCmd, by decide +kernel⟩,
   ⟨wHost, wCmd, reformatMagic, by decide +kernel⟩⟩

theorem met_LaneArithmeticIsRight_1 :
  (∃ (s : State) (c : Fin 72) (m : OpMod) (x y : Ctx), s.fetchedOn c 1 1 x ∧ x.needD 2 1 = Except.ok y ∧ modOk m true true true = true)
  ∧ (∃ (s : State) (c : Fin 72) (m : OpMod) (x y : Ctx), s.fetchedOn c 1 3 x ∧ x.needD 2 1 = Except.ok y ∧ modOk m true true true = true)
  ∧ (∃ (s : State) (c : Fin 72) (m : OpMod) (x y : Ctx), s.fetchedOn c 1 4 x ∧ x.needD 2 1 = Except.ok y ∧ modOk m true true false = true) :=
  ⟨⟨(wCr [0x80FF00017F0180FE, 0x01007FFF80010102, 0x8000000000000001, 5]), 3, ⟨.w16, true, false⟩, _, _,
    fetched_wX (by decide +kernel) (by decide +kernel), wGot_ok (by decide +kernel), by decide +kernel⟩,
   ⟨(wCr [0x80FF00017F0180FE, 0x01007FFF80010102, 0x8000000000000001, 5]), 3, ⟨.w16, true, false⟩, _, _,
    fetched_wX (by decide +kernel) (by decide +kernel), wGot_ok (by decide +kernel), by decide +kernel⟩,
   ⟨(wCr [0x80FF00017F0180FE, 0x01007FFF80010102, 0x8000000000000001, 5]), 3, ⟨.w16, true, false⟩, _, _,
    fetched_wX (by decide +kernel) (by decide +kernel), wGot_ok (by decide +kernel), by decide +kernel⟩⟩

theorem met_LaneArithmeticIsRight_2 :
  (∃ (s : State) (c : Fin 72) (m : OpMod) (x y : Ctx), s.fetchedOn c 1 (divCycles m.w) x ∧ x.needD 2 1 = Except.ok y ∧ (∀ i < 64 / laneBits m.w,
    laneAt m.w (y.top 0) i ≠ 0) ∧ modOk m true true true = true)
  ∧ (∃ (s : State) (c : Fin 72) (m : OpMod) (x y : Ctx), s.fetchedOn c 1 (divCycles m.w) x ∧ x.needD 2 1 = Except.ok y ∧ (∀ i < 64 / laneBits m.w,
    laneAt m.w (y.top 0) i ≠ 0) ∧ modOk m true true false = true)
  ∧ (∃ (s : State) (c : Fin 72) (m : OpMod) (x y : Ctx), s.fetchedOn c 1 1 x ∧ x.needD 1 1 = Except.ok y ∧ modOk m true true true = true) :=
  ⟨⟨(wCr [0xFFFFFFFFFFFFFFFF, 0x8000000000000000]), 3, ⟨.w8, true, false⟩, _, _, fetched_wX (by decide +kernel) (by decide +kernel),
    wGot_ok (by decide +kernel), by decide +kernel⟩,
   ⟨(wCr [0xFFFFFFFFFFFFFFFF, 0x8000000000000000]), 3, ⟨.w8, true, false⟩, _, _, fetched_wX (by decide +kernel) (by decide +kernel),
    wGot_ok (by decide +kernel), by decide +kernel⟩,
   ⟨(wCr [0x80FF00017F0180FE, 0x01007FFF80010102, 0x8000000000000001, 5]), 3, ⟨.w16, true, false⟩, _, _,
    fetched_wX (by decide +kernel) (by decide +kernel), wGot_ok (by decide +kernel), by decide +kernel⟩⟩

theorem met_LaneArithmeticIsRight_3 :
  (∃ (s : State) (c : Fin 72) (m : OpMod) (x y : Ctx), s.fetchedOn c 1 1 x ∧ x.needD 1 1 = Except.ok y ∧ modOk m true false true = true)
  ∧ (∃ (s : State) (c : Fin 72) (m : OpMod) (x y : Ctx), s.fetchedOn c 1 1 x ∧ x.needD 2 1 = Except.ok y ∧ modOk m true true false = true)
  ∧ (∃ (s : State) (c : Fin 72) (x y : Ctx), s.fetchedOn c 1 1 x ∧ x.needD 1 1 = Except.ok y) :=
  ⟨⟨(wCr [0xFFFFFFFFFFFFFFFF, 0x8000000000000000]), 3, ⟨.w16, false, true⟩, _, _, fetched_wX (by decide +kernel) (by decide +kernel),
    wGot_ok (by decide +kernel), by decide +kernel⟩,
   ⟨(wCr [0x80FF00017F0180FE, 0x01007FFF80010102, 0x8000000000000001, 5]), 3, ⟨.w16, true, false⟩, _, _,
    fetched_wX (by decide +kernel) (by decide +kernel), wGot_ok (by decide +kernel), by decide +kernel⟩,
   ⟨(wCr [0x80FF00017F0180FE, 0x01007FFF80010102, 0x8000000000000001, 5]), 3, _, _, fetched_wX (by decide +kernel) (by decide +kernel),
    wGot_ok (by decide +kernel)⟩⟩

theorem met_LaneLogicIsRight_1 :
  (∃ (s : State) (c : Fin 72) (m : OpMod) (x y : Ctx), s.fetchedOn c 1 1 x ∧ x.needD 2 1 = Except.ok y ∧ modOk m true false false = true)
  ∧ (∃ (s : State) (c : Fin 72) (m : OpMod) (x y : Ctx), s.fetchedOn c 1 1 x ∧ x.needD 2 1 = Except.ok y ∧ modOk m false false false = true)
  ∧ (∃ (s : State) (c : Fin 72) (m : OpMod) (x y : Ctx), s.fetchedOn c 1 1 x ∧ x.needD 1 1 = Except.ok y ∧ modOk m false false false = true) :=
  ⟨⟨(wCr [0x80FF00017F0180FE, 0x01007FFF80010102, 0x8000000000000001, 5]), 3, ⟨.w16, false, false⟩, _, _,
    fetched_wX (by decide +kernel) (by decide +kernel), wGot_ok (by decide +kernel), by decide +kernel⟩,
   ⟨(wCr [0x80FF00017F0180FE, 0x01007FFF80010102, 0x8000000000000001, 5]), 3, ⟨.w64, false, false⟩, _, _,
    fetched_wX (by decide +kernel) (by decide +kernel), wGot_ok (by decide +kernel), by decide +kernel⟩,
   ⟨(wCr [0x80FF00017F0180FE, 0x01007FFF80010102, 0x8000000000000001, 5]), 3, ⟨.w64, false, false⟩, _, _,
    fetched_wX (by decide +kernel) (by decide +kernel), wGot_ok (by decide +kernel), by decide +kernel⟩⟩

theorem met_LaneLogicIsRight_2 :
  (∃ (s : State) (c : Fin 72) (m : OpMod) (x y : Ctx), s.fetchedOn c 1 1 x ∧ x.needD 1 1 = Except.ok y ∧ modOk m true false false = true)
  ∧ (∃ (s : State) (c : Fin 72) (m : OpMod) (x y : Ctx), s.fetchedOn c 1 1 x ∧ x.needD 2 1 = Except.ok y ∧ modOk m true true false = true ∧
    BitVec.toNat (y.top 0) < 64 / laneBits m.w)
  ∧ (∃ (s : State) (c : Fin 72) (m : OpMod) (x y : Ctx), s.fetchedOn c 1 1 x ∧ x.needD 3 1 = Except.ok y ∧ modOk m true false false = true ∧
    BitVec.toNat (y.top 0) < 64 / laneBits m.w) :=
  ⟨⟨(wCr [0x80FF00017F0180FE, 0x01007FFF80010102, 0x8000000000000001, 5]), 3, ⟨.w16, false, false⟩, _, _,
    fetched_wX (by decide +kernel) (by decide +kernel), wGot_ok (by decide +kernel), by decide +kernel⟩,
   ⟨(wCr [7, 2, 3]), 3, ⟨.w8, false, false⟩, _, _, fetched_wX (by decide +kernel) (by decide +kernel), wGot_ok (by decide +kernel), by decide +kernel⟩,
   ⟨(wCr [7, 2, 3]), 3, ⟨.w8, false, false⟩, _, _, fetched_wX (by decide +kernel) (by decide +kernel), wGot_ok (by decide +kernel), by decide +kernel⟩⟩

theorem met_FloatingPointInstructions_1 :
  (∃ (s : State) (c : Fin 72) (m : OpMod) (fmt : FFmt) (x y : Ctx), modOk m true false false = true ∧ floatFmt m.w = some fmt ∧ s.fetchedOn c 1 3 x ∧ x.needD 2 1 = Except.ok y)
  ∧ (∃ (s : State) (c : Fin 72) (m : OpMod) (fmt : FFmt) (x y : Ctx), modOk m true false false = true ∧ floatFmt m.w = some fmt ∧ s.fetchedOn c 1 (if fmt = single then 12 else 8) x ∧ x.needD 2 1 = Except.ok y)
  ∧ (∃ (s : State) (c : Fin 72) (m : OpMod) (fmt : FFmt) (x y : Ctx), modOk m true false false = true ∧ floatFmt m.w = some fmt ∧ s.fetchedOn c 1 4 x ∧ x.needD 3 1 = Except.ok y)
  ∧ (∃ (s : State) (c : Fin 72) (m : OpMod) (fmt : FFmt) (x y : Ctx), modOk m true false false = true ∧ floatFmt m.w = some fmt ∧ s.fetchedOn c 1 1 x ∧ x.needD 2 1 = Except.ok y)
  ∧ (∃ (s : State) (c : Fin 72) (m : OpMod) (fmt : FFmt) (x y : Ctx), modOk m true true false = true ∧ floatFmt m.w = some fmt ∧ s.fetchedOn c 1 2 x ∧ x.needD 1 1 = Except.ok y) :=
  ⟨⟨wCr [0x3C0040007E017BFF, 0x7C017BFF00018400, 0x3C003C003C003C00], 3, ⟨.w16, false, false⟩, half, _, _, by decide +kernel, by decide +kernel, fetched_wX (by decide +kernel) (by decide +kernel), wGot_ok (by decide +kernel)⟩,
   ⟨wCr [0x3C0040007E017BFF, 0x7C017BFF00018400, 0x3C003C003C003C00], 3, ⟨.w32, false, false⟩, single, _, _, by decide +kernel, by decide +kernel, fetched_wX (by decide +kernel) (by decide +kernel), wGot_ok (by decide +kernel)⟩,
   ⟨wCr [0x3C0040007E017BFF, 0x7C017BFF00018400, 0x3C003C003C003C00], 3, ⟨.w16, false, false⟩, half, _, _, by decide +kernel, by decide +kernel, fetched_wX (by decide +kernel) (by decide +kernel), wGot_ok (by decide +kernel)⟩,
   ⟨wCr [0x3C0040007E017BFF, 0x7C017BFF00018400, 0x3C003C003C003C00], 3, ⟨.w16, false, false⟩, half, _, _, by decide +kernel, by decide +kernel, fetched_wX (by decide +kernel) (by decide +kernel), wGot_ok (by decide +kernel)⟩,
   ⟨wCr [0x3C0040007E017BFF, 0x7C017BFF00018400, 0x3C003C003C003C00], 3, ⟨.w16, false, false⟩, half, _, _, by decide +kernel, by decide +kernel, fetched_wX (by decide +kernel) (by decide +kernel), wGot_ok (by decide +kernel)⟩⟩

theorem met_FloatingPointInstructions_2 :
  (∃ (s : State) (c : Fin 72) (m : OpMod) (x y : Ctx), modOk m false false false = true ∧ s.fetchedOn c 1 2 x ∧ x.needD 1 1 = Except.ok y)
  ∧ (∃ (fmt : FFmt) (a b : Nat) (r : Nat × Nat), (fmt = half ∨ fmt = single) ∧ ((fmt.decode a).isNan || (fmt.decode b).isNan) = true ∧ r ∈ [fmt.add a b,
    fmt.sub a b, fmt.mul a b, fmt.div a b, fmt.minmax false a b, fmt.minmax true a b])
  ∧ (∃ (fmt : FFmt) (a b : Nat), (fmt = half ∨ fmt = single) ∧ ((fmt.decode a).isNan || (fmt.decode b).isNan) = true ∧ (fmt.decode a).isNan = true) :=
  ⟨⟨(wCr [0x3C0040007E017BFF, 0x7C017BFF00018400, 0x3C003C003C003C00]), 3, ⟨.w64, false, false⟩, _, _, by decide +kernel,
    fetched_wX (by decide +kernel) (by decide +kernel), wGot_ok (by decide +kernel)⟩,
   ⟨half, 0x7E01, 0x3C00, (half.add 0x7E01 0x3C00), by decide +kernel⟩,
   ⟨half, 0x7E01, 0x3C00, by decide +kernel⟩⟩

theorem met_StackInstructionsMoveEntries_1 :
  (∃ (s : State) (c : Fin 72) (x y : Ctx), s.fetchedOn c 1 1 x ∧ x.needD 1 2 = Except.ok y)
  ∧ (∃ (s : State) (c : Fin 72) (x y : Ctx), s.fetchedOn c 1 1 x ∧ x.needD 2 2 = Except.ok y)
  ∧ (∃ (s : State) (c : Fin 72) (x y : Ctx), s.fetchedOn c 1 1 x ∧ x.needD 2 3 = Except.ok y)
  ∧ (∃ (s : State) (c : Fin 72) (x y : Ctx), s.fetchedOn c 1 1 x ∧ x.needD 2 1 = Except.ok y) :=
  ⟨⟨(wCr [0x80FF00017F0180FE, 0x01007FFF80010102, 0x8000000000000001, 5]), 3, _, _, fetched_wX (by decide +kernel) (by decide +kernel),
    wGot_ok (by decide +kernel)⟩,
   ⟨(wCr [0x80FF00017F0180FE, 0x01007FFF80010102, 0x8000000000000001, 5]), 3, _, _, fetched_wX (by decide +kernel) (by decide +kernel),
    wGot_ok (by decide +kernel)⟩,
   ⟨(wCr [0x80FF00017F0180FE, 0x01007FFF80010102, 0x8000000000000001, 5]), 3, _, _, fetched_wX (by decide +kernel) (by decide +kernel),
    wGot_ok (by decide +kernel)⟩,
   ⟨(wCr [0x80FF00017F0180FE, 0x01007FFF80010102, 0x8000000000000001, 5]), 3, _, _, fetched_wX (by decide +kernel) (by decide +kernel),
    wGot_ok (by decide +kernel)⟩⟩

theorem met_StackInstructionsMoveEntries_2 :
  (∃ (s : State) (c : Fin 72) (x y : Ctx), s.fetchedOn c 1 1 x ∧ x.needD 3 3 = Except.ok y)
  ∧ (∃ (s : State) (c : Fin 72) (x y z : Ctx), s.fetchedOn c 1 1 x ∧ x.needD 1 0 = Except.ok y ∧ y.needR 0 1 = Except.ok z)
  ∧ (∃ (s : State) (c : Fin 72) (x y z : Ctx), s.fetchedOn c 1 1 x ∧ x.needR 1 0 = Except.ok y ∧ y.needD 0 1 = Except.ok z)
  ∧ (∃ (s : State) (c : Fin 72) (x y z : Ctx), s.fetchedOn c 1 1 x ∧ x.needR 1 1 = Except.ok y ∧ y.needD 0 1 = Except.ok z) :=
  ⟨⟨(wCr [0x80FF00017F0180FE, 0x01007FFF80010102, 0x8000000000000001, 5]), 3, _, _, fetched_wX (by decide +kernel) (by decide +kernel),
    wGot_ok (by decide +kernel)⟩,
   ⟨(wCr [0x80FF00017F0180FE, 0x01007FFF80010102, 0x8000000000000001, 5]), 3, _, _, _, fetched_wX (by decide +kernel) (by decide +kernel),
    wGot_ok (by decide +kernel), wGot_ok (by decide +kernel)⟩,
   ⟨(wCr [0x80FF00017F0180FE, 0x01007FFF80010102, 0x8000000000000001, 5]), 3, _, _, _, fetched_wX (by decide +kernel) (by decide +kernel),
    wGot_ok (by decide +kernel), wGot_ok (by decide +kernel)⟩,
   ⟨(wCr [0x80FF00017F0180FE, 0x01007FFF80010102, 0x8000000000000001, 5]), 3, _, _, _, fetched_wX (by decide +kernel) (by decide +kernel),
    wGot_ok (by decide +kernel), wGot_ok (by decide +kernel)⟩⟩

theorem met_StackInstructionsMoveEntries_3 :
  (∃ (s : State) (c : Fin 72) (x y : Ctx), s.fetchedOn c 1 1 x ∧ x.needD 0 1 = Except.ok y)
  ∧ (∃ (s : State) (c : Fin 72) (x y z w : Ctx), s.fetchedOn c 1 2 x ∧ x.needD 1 1 = Except.ok y ∧ BitVec.toNat (y.top 0) ≤ 30 ∧
    Ctx.fillD 5 (BitVec.toNat (y.top 0) + 2) y = Except.ok z ∧ z.roomD (BitVec.toNat (y.top 0) + 2) (BitVec.toNat (y.top 0) + 2) = Except.ok w)
  ∧ (∃ (s : State) (c : Fin 72) (x y : Ctx), s.fetchedOn c 3 2 x ∧ x.needD 0 1 = Except.ok y)
  ∧ (∃ (s : State) (c : Fin 72) (x y : Ctx), s.fetchedOn c 5 3 x ∧ x.needD 0 1 = Except.ok y) :=
  ⟨⟨(wCr [0x80FF00017F0180FE, 0x01007FFF80010102, 0x8000000000000001, 5]), 3, _, _, fetched_wX (by decide +kernel) (by decide +kernel),
    wGot_ok (by decide +kernel)⟩,
   ⟨(wCr [5, 1, 2, 3]), 3, _, _, _, _, fetched_wX (by decide +kernel) (by decide +kernel), wGot_ok (by decide +kernel), by decide +kernel,
    wGot_ok (by decide +kernel), wGot_ok (by decide +kernel)⟩,
   ⟨(wCr [0x80FF00017F0180FE, 0x01007FFF80010102, 0x8000000000000001, 5]), 3, _, _, fetched_wX (by decide +kernel) (by decide +kernel),
    wGot_ok (by decide +kernel)⟩,
   ⟨(wCr [0x80FF00017F0180FE, 0x01007FFF80010102, 0x8000000000000001, 5]), 3, _, _, fetched_wX (by decide +kernel) (by decide +kernel),
    wGot_ok (by decide +kernel)⟩⟩

theorem met_SpillsKeepTheStack : ∃ (x : Ctx) (n m : Nat), n ≤ 4 ∧ m ≤ 4 ∧ memWf x.k.mem = true ∧ x.k.ds.length ≤ 32 ∧ x.k.dsl.toNat ≤ x.k.dsp.toNat ∧
    x.k.dsp.toNat ≤ x.k.dsh.toNat + x.k.guard 64 ∧ x.k.dsh.toNat + 64 ≤ 122880 ∧ (x.k.dsp.toNat - x.k.dsl.toNat) % 64 = 0 :=
  ⟨(wX (wCr [0x80FF00017F0180FE, 0x01007FFF80010102, 0x8000000000000001, 5]) 3 1 1), 0, 1, by decide +kernel⟩

theorem met_BitInstructions_1 :
  (∃ (s : State) (c : Fin 72) (x y : Ctx), s.fetchedOn c 1 1 x ∧ memWf s.cores[c].mem = true ∧ x.needD 0 1 = Except.ok y)
  ∧ (∃ (s : State) (c : Fin 72) (x : Ctx), s.fetchedOn c 1 1 x ∧ memWf s.cores[c].mem = true)
  ∧ (∃ (s : State) (c : Fin 72) (x y : Ctx), s.fetchedOn c 1 1 x ∧ memWf s.cores[c].mem = true ∧ x.needD 1 0 = Except.ok y ∧ memWf y.k.mem = true)
  ∧ (∃ (s : State) (c : Fin 72) (m : OpMod) (x y : Ctx) (p : BitPlace), s.fetchedOn c 1 1 x ∧ modOk m false false false = true ∧
    x.needD 1 1 = Except.ok y ∧ y.s.bitPlace y.k.tag (BitVec.toNat (y.top 0)) = p ∧ p ≠ BitPlace.none) :=
  ⟨⟨(wCr [0x0000000000000207, 0x1008, 3]), 3, _, _, fetched_wX (by decide +kernel) (by decide +kernel), by decide +kernel, wGot_ok (by decide +kernel)⟩,
   ⟨(wCr [0x0000000000000207, 0x1008, 3]), 3, _, fetched_wX (by decide +kernel) (by decide +kernel), by decide +kernel⟩,
   ⟨(wCr [0x0000000000000207, 0x1008, 3]), 3, _, _, fetched_wX (by decide +kernel) (by decide +kernel), by decide +kernel, wGot_ok (by decide +kernel),
    by decide +kernel⟩,
   ⟨(wCr [0xFFFF, 1]), 3, ⟨.w64, false, false⟩, _, _, .core 0xFFFF, fetched_wX (by decide +kernel) (by decide +kernel), by decide +kernel,
    wGot_ok (by decide +kernel), by decide +kernel⟩⟩

theorem met_BitInstructions_2 :
  (∃ (s : State) (c : Fin 72) (m : OpMod) (x y : Ctx) (p : BitPlace), s.fetchedOn c 1 1 x ∧ modOk m false false false = true ∧
    x.needD 2 1 = Except.ok y ∧ y.s.bitPlace y.k.tag (BitVec.toNat (y.top 0)) = p ∧ p ≠ BitPlace.none)
  ∧ (∃ (s : State) (c : Fin 72) (x y : Ctx) (p : BitPlace), s.fetchedOn c 1 2 x ∧ x.needD 1 1 = Except.ok y ∧
    y.s.bitPlace y.k.tag (BitVec.toNat (y.top 0)) = p ∧ p ≠ BitPlace.none)
  ∧ (∃ (s : State) (c : Fin 72) (m : OpMod) (x y : Ctx), s.fetchedOn c 1 1 x ∧ modOk m false false false = true ∧ x.needD 1 1 = Except.ok y ∧
    y.s.bitPlace y.k.tag (BitVec.toNat (y.top 0)) = BitPlace.none) :=
  ⟨⟨(wCr [0xFFFF, 1]), 3, ⟨.w64, false, false⟩, _, _, .core 0xFFFF, fetched_wX (by decide +kernel) (by decide +kernel), by decide +kernel,
    wGot_ok (by decide +kernel), by decide +kernel⟩,
   ⟨(wCr [0xFFFF, 1]), 3, _, _, .core 0xFFFF, fetched_wX (by decide +kernel) (by decide +kernel), wGot_ok (by decide +kernel), by decide +kernel⟩,
   ⟨(wCr [0x10000]), 3, ⟨.w64, false, false⟩, _, _, fetched_wX (by decide +kernel) (by decide +kernel), by decide +kernel, wGot_ok (by decide +kernel),
    by decide +kernel⟩⟩

theorem met_ControlTransfers_1 :
  (∃ (s : State) (c : Fin 72) (x y : Ctx), s.fetchedOn c 1 2 x ∧ s.cores[c].pc.getLsbD 0 = false ∧ x.needR 0 1 = Except.ok y)
  ∧ (∃ (s : State) (c : Fin 72) (x y : Ctx), s.fetchedOn c 1 1 x ∧ x.needD 1 0 = Except.ok y)
  ∧ (∃ (s : State) (c : Fin 72) (x y : Ctx), s.fetchedOn c 2 3 x ∧ s.cores[c].pc.getLsbD 0 = false ∧ x.needR 0 1 = Except.ok y) :=
  ⟨⟨(wCr [0x0000000000000207, 0x1008, 3]), 3, _, _, fetched_wX (by decide +kernel) (by decide +kernel), by decide +kernel, wGot_ok (by decide +kernel)⟩,
   ⟨(wCr [0x0000000000000207, 0x1008, 3]), 3, _, _, fetched_wX (by decide +kernel) (by decide +kernel), wGot_ok (by decide +kernel)⟩,
   ⟨(wCr [0x0000000000000207, 0x1008, 3]), 3, _, _, fetched_wX (by decide +kernel) (by decide +kernel), by decide +kernel, wGot_ok (by decide +kernel)⟩⟩

theorem met_ControlTransfers_2 :
  (∃ (s : State) (c : Fin 72) (x y : Ctx), s.fetchedOn c 2 2 x ∧ x.needD 1 0 = Except.ok y)
  ∧ (∃ (s : State) (c : Fin 72) (a : BitVec 48) (x y : Ctx), s.fetchedOn c 4 4 x ∧ a.getLsbD 0 = false ∧ x.needR 0 1 = Except.ok y)
  ∧ (∃ (s : State) (c : Fin 72) (a : BitVec 48) (x y : Ctx), s.fetchedOn c 4 4 x ∧ a.getLsbD 0 = true ∧ x.needR 0 1 = Except.ok y) :=
  ⟨⟨(wCr [0x0000000000000207, 0x1008, 3]), 3, _, _, fetched_wX (by decide +kernel) (by decide +kernel), wGot_ok (by decide +kernel)⟩,
   ⟨(wCr [0x0000000000000207, 0x1008, 3]), 3, 0xFFFFFFFFFFFE, _, _, fetched_wX (by decide +kernel) (by decide +kernel), by decide +kernel,
    wGot_ok (by decide +kernel)⟩,
   ⟨(wCr [0x0000000000000207, 0x1008, 3]), 3, 0xFFFFFFFFFFFF, _, _, fetched_wX (by decide +kernel) (by decide +kernel), by decide +kernel,
    wGot_ok (by decide +kernel)⟩⟩

theorem met_ControlTransfers_3 :
  (∃ (s : State) (c : Fin 72) (m : OpMod) (x y z : Ctx), s.fetchedOn c 1 3 x ∧ modOk m false false false = true ∧ x.needD 1 0 = Except.ok y ∧
    BitVec.getLsbD (y.top 0) 0 = false ∧ BitVec.toNat (y.top 0) < 2 ^ 48 ∧ y.needR 0 1 = Except.ok z)
  ∧ (∃ (s : State) (c : Fin 72) (m : OpMod) (x y : Ctx), s.fetchedOn c 1 2 x ∧ modOk m false false false = true ∧ x.needR 1 0 = Except.ok y ∧
    y.topR.2 = true ∧ BitVec.getLsbD y.topR.1 0 = false ∧ BitVec.toNat y.topR.1 < 2 ^ 48)
  ∧ (∃ (s : State) (c : Fin 72) (m : OpMod) (x y : Ctx), s.fetchedOn c 1 2 x ∧ modOk m false false false = true ∧ x.needR 1 0 = Except.ok y ∧
    y.topR.2 = false) :=
  ⟨⟨(wCr [0xFFFFFFFFFFFE, 5]), 3, ⟨.w64, false, false⟩, _, _, _, fetched_wX (by decide +kernel) (by decide +kernel), by decide +kernel,
    wGot_ok (by decide +kernel), by decide +kernel, by decide +kernel, wGot_ok (by decide +kernel)⟩,
   ⟨(wCr [0xFFFFFFFFFFFE, 5]), 3, ⟨.w64, false, false⟩, _, _, fetched_wX (by decide +kernel) (by decide +kernel), by decide +kernel,
    wGot_ok (by decide +kernel), by decide +kernel⟩,
   ⟨wCrWith [1] fun k => { k with rs := [(5, false)] }, 3, ⟨.w64, false, false⟩, _, _, fetched_wX (by decide +kernel) (by decide +kernel),
    by decide +kernel, wGot_ok (by decide +kernel), by decide +kernel⟩⟩

theorem met_LoadsAndStores_1 :
  (∃ (s : State) (c : Fin 72) (w : Lane) (i : BitVec 8) (x y : Ctx) (a : Nat), s.fetchedOn c 1 0 x ∧ x.needD 1 1 = Except.ok y ∧
    a = BitVec.toNat (y.top 0 + BitVec.ofNat 64 (i.toNat * laneBytes w)) ∧ a % laneBytes w = 0 ∧ a < 131072)
  ∧ (∃ (s : State) (c : Fin 72) (w : Lane) (i : BitVec 8) (x y : Ctx) (a : Nat), s.fetchedOn c 1 0 x ∧ x.needD 0 1 = Except.ok y ∧
    a = s.cores[c].lp.toNat + i.toNat * laneBytes w ∧ a % laneBytes w = 0 ∧ a < 131072)
  ∧ (∃ (s : State) (c : Fin 72) (w : Lane) (i : BitVec 8) (x y : Ctx) (a : Nat), s.fetchedOn c 1 0 x ∧ x.needD 2 0 = Except.ok y ∧
    a = BitVec.toNat (y.top 0 + BitVec.ofNat 64 (i.toNat * laneBytes w)) ∧ a % laneBytes w = 0 ∧ a < 131072 ∧
    (a + laneBytes w ≤ s.cores[c].rsl.toNat ∨ s.cores[c].rsh.toNat + 72 ≤ a)) :=
  ⟨⟨(wCr [0x1FF00, 6]), 3, .w64, 31, _, _, 0x1FFF8, fetched_wX (by decide +kernel) (by decide +kernel), wGot_ok (by decide +kernel), by decide +kernel⟩,
   ⟨(wCr [0x1FF00, 6]), 3, .w64, 255, _, _, 0x7F8, fetched_wX (by decide +kernel) (by decide +kernel), wGot_ok (by decide +kernel), by decide +kernel⟩,
   ⟨(wCr [0x1FF00, 6]), 3, .w64, 31, _, _, 0x1FFF8, fetched_wX (by decide +kernel) (by decide +kernel), wGot_ok (by decide +kernel), by decide +kernel⟩⟩

theorem met_LoadsAndStores_2 :
  (∃ (s : State) (c : Fin 72) (w : Lane) (i : BitVec 8) (x y : Ctx) (a : Nat), s.fetchedOn c 1 0 x ∧ x.needD 1 0 = Except.ok y ∧
    a = s.cores[c].lp.toNat + i.toNat * laneBytes w ∧ a % laneBytes w = 0 ∧ a < 131072 ∧
    (a + laneBytes w ≤ s.cores[c].rsl.toNat ∨ s.cores[c].rsh.toNat + 72 ≤ a))
  ∧ (∃ (s : State) (c : Fin 72) (m : OpMod) (x y : Ctx), s.fetchedOn c 1 0 x ∧ modOk m true true false = true ∧ x.needD 1 1 = Except.ok y ∧
    BitVec.toNat (y.top 0) % laneBytes m.w = 0 ∧ BitVec.toNat (y.top 0) < 131072)
  ∧ (∃ (s : State) (c : Fin 72) (m : OpMod) (x y : Ctx), s.fetchedOn c 1 0 x ∧ modOk m true false false = true ∧ x.needD 2 0 = Except.ok y ∧
    BitVec.toNat (y.top 0) % laneBytes m.w = 0 ∧ BitVec.toNat (y.top 0) < 131072 ∧
    (BitVec.toNat (y.top 0) + laneBytes m.w ≤ s.cores[c].rsl.toNat ∨ s.cores[c].rsh.toNat + 72 ≤ BitVec.toNat (y.top 0))) :=
  ⟨⟨(wCr [0x1FF00, 6]), 3, .w64, 255, _, _, 0x7F8, fetched_wX (by decide +kernel) (by decide +kernel), wGot_ok (by decide +kernel), by decide +kernel⟩,
   ⟨(wCr [0x1FFFF, 6]), 3, ⟨.w8, true, false⟩, _, _, fetched_wX (by decide +kernel) (by decide +kernel), by decide +kernel, wGot_ok (by decide +kernel),
    by decide +kernel⟩,
   ⟨(wCr [0x2FFF, 0x1234]), 3, ⟨.w8, false, false⟩, _, _, fetched_wX (by decide +kernel) (by decide +kernel), by decide +kernel,
    wGot_ok (by decide +kernel), by decide +kernel⟩⟩

theorem met_LoadsAndStores_3 :
  (∃ (s : State) (c : Fin 72) (m : OpMod) (x y : Ctx), s.fetchedOn c 1 0 x ∧ modOk m true false false = true ∧ x.needD 2 0 = Except.ok y ∧
    BitVec.toNat (y.top 0) % laneBytes m.w = 0 ∧ BitVec.toNat (y.top 0) < 131072 ∧ s.cores[c].rsl.toNat < BitVec.toNat (y.top 0) + laneBytes m.w ∧
    BitVec.toNat (y.top 0) < s.cores[c].rsh.toNat + 72)
  ∧ (∃ (s : State) (c : Fin 72) (m : OpMod) (x y : Ctx), s.fetchedOn c 1 0 x ∧ modOk m true false false = true ∧ x.needD 2 0 = Except.ok y ∧
    BitVec.toNat (y.top 0) % laneBytes m.w ≠ 0)
  ∧ (∃ (m : List (Nat × Byte)) (a n b : Nat), memWf m = true ∧ (b < a ∨ a + n ≤ b)) :=
  ⟨⟨(wCr [0x3000, 0x1234]), 3, ⟨.w8, false, false⟩, _, _, fetched_wX (by decide +kernel) (by decide +kernel), by decide +kernel,
    wGot_ok (by decide +kernel), by decide +kernel⟩,
   ⟨(wCr [0x3001, 0x1234]), 3, ⟨.w16, false, false⟩, _, _, fetched_wX (by decide +kernel) (by decide +kernel), by decide +kernel,
    wGot_ok (by decide +kernel), by decide +kernel⟩,
   ⟨[(3, 1), (9, 2)], 4, 5, 9, by decide +kernel⟩⟩

/-- The parcels of the worked example of 11_crook_isa.md decode to the instructions it lists. -/
theorem test_decode_worked_example :
    [[0xF000, 0x0005, 0x0010], [0xC740], [0xAFFB], [0xE80C], [0x0400], [0xFA04], [0xC000], [0xA004], [0xFA02], [0xC010], [0xC720], [0xC610]].map
        (decodeParcels 8)
      = [some (.lit32 8 false 0x00100005), some (.btas 8 ⟨.w64, false, false⟩), some (.jnz 8 0xFFB), some (.bclr 8 12), some (.lit 8 0x0400),
        some (.submit 8), some (.dup 8), some (.jnz 8 4), some (.wait 8), some (.drop 8), some (.bclri 8 ⟨.w64, false, false⟩),
        some (.ret 8 ⟨.w64, false, false⟩)] := by rfl

theorem met_SystemInstructions_1 :
  (∃ (s : State) (c : Fin 72) (n : BitVec 4) (x y : Ctx) (v : Word), s.fetchedOn c 1 1 x ∧ x.needD 0 1 = Except.ok y ∧ sysValue y.k n.toNat = some v ∧
    (s.cores[c].sys = true ∨ n.toNat < 9 ∨ 11 < n.toNat))
  ∧ (∃ (s : State) (c : Fin 72) (n : BitVec 4) (x y : Ctx) (k : Core), (s.fetchedOn c 1 (if n = 1 ∨ n = 2 then 2 else 1) x) ∧ x.needD 1 0 = Except.ok y ∧
    n ≠ 0 ∧ n.toNat < 13 ∧ (s.cores[c].sys = true ∨ n = 3 ∨ n = 8) ∧ sysStore (y.rep 1 []).k n.toNat (BitVec.toNat (y.top 0)) = some k)
  ∧ (∃ (s : State) (c : Fin 72) (x : Ctx), s.fetchedOn c 1 6 x ∧ s.cores[c].sys = true)
  ∧ (∃ (s : State) (c : Fin 72) (x y : Ctx) (p : BitPlace), s.fetchedOn c 1 2 x ∧ x.needD 2 1 = Except.ok y ∧
    y.s.bitPlace y.k.tag (BitVec.toNat (y.top 1)) = p ∧ p ≠ BitPlace.none ∧ y.getBit p = true) :=
  ⟨⟨(wCr [0x0000000000000207, 0x1008, 3]), 3, 0, _, _, ((sysValue (wOk (wX ((wCr [0x0000000000000207, 0x1008,
    3])) 3 1 1) ((wX ((wCr [0x0000000000000207, 0x1008, 3])) 3 1 1).needD 0 1)).k 0).getD 0), fetched_wX (by decide +kernel) (by decide +kernel),
    wGot_ok (by decide +kernel), by decide +kernel⟩,
   ⟨(wCr [0x1FC0, 5]), 3, 1, _, _, ((sysStore ((wOk (wX ((wCr [0x1FC0, 5])) 3 1 2) ((wX ((wCr [0x1FC0,
    5])) 3 1 2).needD 1 0)).rep 1 []).k 1 0x1FC0).getD Core.off), fetched_wX (by decide +kernel) (by decide +kernel), wGot_ok (by decide +kernel),
    by decide +kernel⟩,
   ⟨(wCr [0x0000000000000207, 0x1008, 3]), 3, _, fetched_wX (by decide +kernel) (by decide +kernel), by decide +kernel⟩,
   ⟨wCrWith [10, 7] fun k => { k with mem := memWriteN k.mem 0x1E000 [0x80] }, 3, _, _, .core 7, fetched_wX (by decide +kernel) (by decide +kernel),
    wGot_ok (by decide +kernel), by decide +kernel⟩⟩

theorem met_SystemInstructions_2 :
  (∃ (s : State) (c : Fin 72) (x y : Ctx) (p : BitPlace), s.fetchedOn c 1 2 x ∧ x.needD 2 1 = Except.ok y ∧
    y.s.bitPlace y.k.tag (BitVec.toNat (y.top 1)) = p ∧ p ≠ BitPlace.none ∧ y.getBit p = false)
  ∧ (∃ (s : State) (c : Fin 72) (a n : Nat), s.cores[c].state = CoreState.waiting ∧ s.cores[c].wait = some (a, n) ∧ s.awaited c a = true)
  ∧ (∃ (s : State) (c : Fin 72) (a n : Nat), s.cores[c].state = CoreState.waiting ∧ s.cores[c].wait = some (a, n) ∧ s.awaited c a = false ∧ n ≠ 0)
  ∧ (∃ (s : State) (c : Fin 72) (a n : Nat), s.cores[c].state = CoreState.waiting ∧ s.cores[c].wait = some (a, n) ∧ n = 0)
  ∧ (∃ (s : State) (c : Fin 72) (p : BitVec 16) (x : Ctx), parcelReserved p = true ∧ s.fetchedOn c (parcelLen p) 1 x)
  ∧ (∃ (c : Fin 72) (ps : List (BitVec 16)) (i : Instr), ps.length = parcelLen (ps.headD 0) ∧ decodeParcels c ps = some i)
  ∧ (∃ ps : List (BitVec 16), ps ≠ [] ∧ parcelReserved (ps.headD 0) = true) :=
  ⟨⟨(wCr [10, 7]), 3, _, _, .core 7, fetched_wX (by decide +kernel) (by decide +kernel), wGot_ok (by decide +kernel), by decide +kernel⟩,
   ⟨wCrWith [10, 7, 3] fun k => { k with state := .waiting, wait := some (7, 10), mem := memWriteN k.mem 0x1E000 [0x80] }, 3, 7, 10, by decide +kernel⟩,
   ⟨wCrWith [10, 7, 3] fun k => { k with state := .waiting, wait := some (7, 10) }, 3, 7, 10, by decide +kernel⟩,
   ⟨wCrWith [10, 7, 3] fun k => { k with state := .waiting, wait := some (7, 0) }, 3, 7, 0, by decide +kernel⟩,
   ⟨wCr [1], 3, 0xF003, _, by decide +kernel, fetched_wX (by decide +kernel) (by decide +kernel)⟩,
   ⟨71, [0xF100, 5, 6, 7, 8], _, by decide +kernel, some_of (.nop 0) (by decide +kernel)⟩,
   ⟨[0xF003, 5], by decide +kernel⟩⟩

theorem met_SystemInstructions_3 :
  (∃ (s : State) (c : Fin 72) (x y : Ctx) (eng : Nat), s.fetchedOn c 1 12 x ∧ x.needD 2 1 = Except.ok y ∧ eng = bits (BitVec.toNat (y.top 0)) 0 4 ∧
    submitReserved (BitVec.toNat (y.top 0)) = false ∧ bitAt (BitVec.toNat (y.top 0)) 35 = false ∧ eng < 4 ∧ BitVec.toNat (y.top 1) % 64 = 0 ∧
    BitVec.toNat (y.top 1) < 131072 ∧ s.isResetting s.cores[c].func.toNat = false ∧ s.engineLive eng = true ∧ (s.queued (JobSrc.cluster ⟨↑c / 8,
    by have := c.isLt; omega⟩) eng).length < 64)
  ∧ (∃ (s : State) (c : Fin 72) (o : BitVec 4) (x : Ctx), s.fetchedOn c 1 4 x ∧ o ≠ 0)
  ∧ (∃ (s : State) (c : Fin 72) (e : BitVec 6) (i : BitVec 4) (x y : Ctx) (m : Micro) (v : Nat), s.fetchedOn c 1 2 x ∧
    v = (s.cluster (↑c / 8)).entry e.toNat ∧ entValid v = true ∧ (entSys v = false ∨ s.cores[c].sys = true) ∧
    x.needD (entIn v) (entOut v) = Except.ok y ∧
    microRun (s.cluster (↑c / 8)).store (entOut v) 256 (microStart y (entIn v) i) (entStart v) = MicroNext.done m ∧ m.x.late = none ∧ m.x.hold = none)
  ∧ (∃ (s : State) (c : Fin 72) (x : Ctx), s.fetchedOn c 1 1 x) :=
  ⟨⟨(wCr [0x00, 0x1FFC0]), 3, _, _, 0, fetched_wX (by decide +kernel) (by decide +kernel), wGot_ok (by decide +kernel), by decide +kernel⟩,
   ⟨wCrWith [1] fun k => { k with dcache := [⟨.dram, 2, List.replicate 64 5, true⟩] }, 3, 1, _, fetched_wX (by decide +kernel) (by decide +kernel),
    by decide +kernel⟩,
   ⟨{ wCr [5, 6] with clusters := wOn.clusters.set 0 ⟨[0x4A000], [0x20001004001], 1, [], none⟩ }, 3, 0, 9, _, _, _, 0x4A000,
    fetched_wX (by decide +kernel) (by decide +kernel), by decide +kernel, by decide +kernel, by decide +kernel, wGot_ok (by decide +kernel),
    doneOf_eq (by decide +kernel), by decide +kernel⟩,
   ⟨(wCr [0x0000000000000207, 0x1008, 3]), 3, _, fetched_wX (by decide +kernel) (by decide +kernel)⟩⟩

theorem met_TrapEntry :
  (∃ (s : State) (c : Fin 72) (k : Core), k.inTrap = true ∧ s.get (H.VALID (256 + ↑c)) = 0)
  ∧ (∃ (k : Core) (tr : Trap), k.inTrap = false ∧ k.prog = none ∧ tr.cause < 256 ∧ tr.detail < 2 ^ 48)
  ∧ (∃ (s : State) (c : Fin 72), s.cores[c].state = CoreState.halted)
  ∧ (∃ (s : State) (c : Fin 72), s.cores[c].state = CoreState.halted) :=
  ⟨⟨(wCr [0x0000000000000207, 0x1008, 3]), 3, { wCore [1] with status := 3 }, by decide +kernel⟩,
   ⟨wCore [1], wTrap, by decide +kernel⟩,
   ⟨wCrWith [1] fun k => { k with state := .halted }, 3, by decide +kernel⟩,
   ⟨wCrWith [1] fun k => { k with state := .halted }, 3, by decide +kernel⟩⟩

theorem met_CoreControl :
  (∃ (s : State) (o : Origin) (c : Fin 72), s.powered = true ∧ s.reaches o (256 + ↑c) = true ∧ s.holds o Role.installer = true ∧
    s.cores[c].state = CoreState.running)
  ∧ (∃ (s : State) (o : Origin) (c : Fin 72), s.powered = true ∧ s.reaches o (256 + ↑c) = true ∧ s.holds o Role.installer = true ∧
    s.cores[c].state = CoreState.parked ∧ s.cores[c].parkers = [Parker.register] ∧ (c.val < 8 ∨ s.cores[c].prog ≠ none))
  ∧ (∃ (s : State) (o : Origin) (c : Fin 72), s.powered = true ∧ s.reaches o (256 + ↑c) = true ∧ s.holds o Role.installer = true ∧
    s.cores[c].state ≠ CoreState.retired ∧ (8 ≤ c.val ∨ 2 < s.liveSystemCores))
  ∧ (∃ (s : State) (o : Origin) (c : Fin 72), s.powered = true ∧ s.reaches o (256 + ↑c) = true ∧ s.holds o Role.installer = true ∧ c.val < 8 ∧
    s.liveSystemCores ≤ 2) :=
  ⟨⟨(wCr [0x0000000000000207, 0x1008, 3]), .firmware, 3, by decide +kernel⟩,
   ⟨wCrWith [1] fun k => { k with state := .parked, parkers := [.register] }, .firmware, 3, by decide +kernel⟩,
   ⟨{ wOn with cores := (((wOn.cores.set 0 (wCore [])).set 1 (wCore [])).set 7 (wCore [])) }, .firmware, 7, by decide +kernel⟩,
   ⟨{ wOn with cores := ((wOn.cores.set 0 (wCore [])).set 1 (wCore [])) }, .firmware, 1, by decide +kernel⟩⟩

theorem met_MicrocodeLoads_1 :
  (∃ (s : State) (c : Cmd) (n : BitVec 4) (d : Bytes), s.adminReady c.fn = true ∧ isPf c.fn = true ∧ s.holds (Origin.pcie c.fn) Role.installer = true ∧
    1 ≤ n.toNat ∧ n.toNat ≤ 8 ∧ s.updating = false ∧ s.mcLoad = none ∧ List.length d = 320 + 16 * mcWords d ∧ dptrLen c.dptr = List.length d ∧
    mcBad d = none ∧ sliceBytes d 16 32 = sha256 (mcCovered d))
  ∧ (∃ (s : State) (c : Cmd) (n : BitVec 4) (d : Bytes), s.adminReady c.fn = true ∧ isPf c.fn = true ∧ s.holds (Origin.pcie c.fn) Role.installer = true ∧
    1 ≤ n.toNat ∧ n.toNat ≤ 8 ∧ s.updating = false ∧ s.mcLoad = none ∧ List.length d = 320 + 16 * mcWords d ∧ dptrLen c.dptr = List.length d ∧
    mcBad d = none ∧ sliceBytes d 16 32 ≠ sha256 (mcCovered d))
  ∧ (∃ (s : State) (c : Cmd) (n : BitVec 4) (d : Bytes), s.adminReady c.fn = true ∧ isPf c.fn = true ∧
    (s.holds (Origin.pcie c.fn) Role.installer = false ∨ s.mcLoad.isSome = true ∨ n = 0 ∨ mcBad d ≠ none))
  ∧ (∃ (s : State) (m : McLoad) (q : Fin 9), s.mcLoad = some m ∧ m.phase = 2 ∧ m.cluster = ↑q) :=
  ⟨wMc_right.elim fun fp h => ⟨wMcS, ⟨0, 0, 3, 1, [.block 0x1000 336]⟩, 1, wMc fp, wMcS_ready.1, wMcS_ready.2.1, wMcS_ready.2.2.1, by decide, by decide,
    wMcS_ready.2.2.2.1, wMcS_ready.2.2.2.2, (wMc_loads h.1).1, (wMc_loads h.1).2.1, (wMc_loads h.1).2.2, (wMc_fp h.1).trans h.2⟩,
   wMc_wrong.elim fun fp h => ⟨wMcS, ⟨0, 0, 3, 1, [.block 0x1000 336]⟩, 8, wMc fp, wMcS_ready.1, wMcS_ready.2.1, wMcS_ready.2.2.1, by decide, by decide,
    wMcS_ready.2.2.2.1, wMcS_ready.2.2.2.2, (wMc_loads h.1).1, (wMc_loads h.1).2.1, (wMc_loads h.1).2.2, fun e => h.2 ((wMc_fp h.1).symm.trans e)⟩,
   ⟨wHost, wCmd, 0, [], by decide +kernel⟩,
   ⟨{ wHost with mcLoad := some (wMcLoad 2 (wMc []) false) }, wMcLoad 2 (wMc []) false, 1, by decide +kernel⟩⟩

theorem met_MicrocodeLoads_2 :
  (∃ (s : State) (m : McLoad) (w : Bytes), s.mcLoad = some m ∧ m.phase = 4 ∧ sha256 w = sliceBytes m.image 16 32)
  ∧ (∃ (s : State) (m : McLoad) (w : Bytes), s.mcLoad = some m ∧ m.phase = 4 ∧ sha256 w ≠ sliceBytes m.image 16 32 ∧ m.again = false)
  ∧ (∃ (s : State) (m : McLoad) (w : Bytes), s.mcLoad = some m ∧ m.phase = 4 ∧ sha256 w ≠ sliceBytes m.image 16 32 ∧ m.again = true ∧ m.cluster < 9) :=
  ⟨⟨{ wHost with mcLoad := some (wMcLoad 4 (wMc (sha256 [1, 2])) false) }, wMcLoad 4 (wMc (sha256 [1, 2])) false, [1, 2], by decide +kernel⟩,
   ⟨{ wHost with mcLoad := some (wMcLoad 4 (wMc (sha256 [1, 2])) false) }, wMcLoad 4 (wMc (sha256 [1, 2])) false, [1], by decide +kernel⟩,
   ⟨{ wHost with mcLoad := some (wMcLoad 4 (wMc (sha256 [1, 2])) true) }, wMcLoad 4 (wMc (sha256 [1, 2])) true, [1], by decide +kernel⟩⟩

theorem met_MicrowordsOnlyTouchWhatTheyMay :
  (∃ (m n : Micro) (out a b v : Nat), bits v 25 3 = 0 ∧ microStep m out a v = MicroNext.go n b)
  ∧ (∃ (x : Ctx) (w : Lane) (a : Word) (t : Trap), x.load (BitVec.toNat a) (laneBytes w) Ecc.none = Except.error t)
  ∧ (∃ (x : Ctx) (w : Lane) (a d : Word) (t : Trap), x.store (BitVec.toNat a) (laneBytes w) (bits (BitVec.toNat d) 0 (laneBits w)) = Except.error t)
  ∧ (∃ (m : Micro) (a : Nat), m.cyc < 255 ∧ a < 4096) :=
  ⟨⟨microStart (wX (wCr [1, 2]) 3 1 2) 2 5, _, 1, 4095, _, 0, by decide +kernel, go_of (by decide +kernel)⟩,
   ⟨wX (wCr [1, 2]) 3 1 2, .w16, 1, _, trap_of (by decide +kernel)⟩,
   ⟨wX (wCr [1, 2]) 3 1 2, .w8, 0x3000, 0, _, trap_of (by decide +kernel)⟩,
   ⟨{ microStart (wX (wCr [1, 2]) 3 1 2) 2 5 with cyc := 254 }, 4095, by decide +kernel⟩⟩

theorem met_FirmwareUpdates_1 :
  (∃ (s : State) (c : Cmd) (off : Nat) (d : Bytes), s.adminReady c.fn = true ∧ off + List.length d ≤ 16777216 ∧ d ≠ [])
  ∧ (∃ (s u : State) (c : Cmd) (slot : Nat) (img old : Bytes), s.adminReady c.fn = true ∧ (slot = 1 ∨ slot = 2) ∧ s.pwr.fw.update = none ∧
    s.pwr.fw.bufLen ≠ 0 ∧ s.pwr.fw.image = img ∧ s.verifyImage img 0 0 = (true, u) ∧ s.pwr.fw.running = some old ∧
    sliceBytes old 16 4 = sliceBytes img 16 4)
  ∧ (∃ (s u : State) (c : Cmd) (slot : Nat) (action : BitVec 3), s.adminReady c.fn = true ∧ (slot = 1 ∨ slot = 2) ∧ action.toNat ≤ 1 ∧
    s.pwr.fw.update = none ∧ s.pwr.fw.bufLen ≠ 0 ∧ s.verifyImage s.pwr.fw.image 0 0 = (false, u))
  ∧ (∃ (s : State) (img : Bytes) (run : Nat), s.pwr.fw.update = some (img, run) ∧ s.handing = false) :=
  ⟨⟨wHost, wCmd, 16777214, [1, 2], by decide +kernel⟩,
   ⟨wFw wBootImg, _, wCmd, 1, wBootImg, _, by decide +kernel, Or.inl rfl, by decide +kernel, by decide +kernel, wFw_image wBootImg_length,
    pair_of (wBootImg_verifies (by decide +kernel)), rfl, (by decide +kernel : sliceBytes (List.replicate 16 0 ++ [3, 0, 0, 0]) 16 4 = [3, 0, 0,
    0]).trans wBoot_version⟩,
   ⟨wFw [], _, wCmd, 2, 1, by decide +kernel, Or.inr rfl, by decide +kernel, by decide +kernel, by decide +kernel, pair_of (by decide +kernel)⟩,
   ⟨{ wOn with pwr := { wOn.pwr with fw := { wOn.pwr.fw with update := some ([1], 1), inHandover := false } }, cores := wOn.cores.set 3 (wCore []) },
    [1], 1, by decide +kernel⟩⟩

theorem met_FirmwareUpdates_2 :
  (∃ (s : State) (img : Bytes), s.pwr.fw.update = some (img, 1) ∧ s.pwr.fw.inHandover = true)
  ∧ (∃ (s : State) (img : Bytes), s.pwr.fw.update = some (img, 2) ∧ s.pwr.fw.inHandover = true)
  ∧ (∃ (s : State) (img : Bytes) (run : Nat), s.pwr.fw.update = some (img, run) ∧ s.pwr.fw.inHandover = true) :=
  ⟨⟨{ wOn with pwr := { wOn.pwr with fw := { wOn.pwr.fw with update := some ([1], 1), inHandover := true } }, cores := wOn.cores.set 3 (wCore []) },
    [1], by decide +kernel⟩,
   ⟨{ wOn with pwr := { wOn.pwr with fw := { wOn.pwr.fw with update := some ([1], 2), inHandover := true } }, cores := wOn.cores.set 3 (wCore []) },
    [1], by decide +kernel⟩,
   ⟨{ wOn with pwr := { wOn.pwr with fw := { wOn.pwr.fw with update := some ([1], 2), inHandover := true } }, cores := wOn.cores.set 3 (wCore []) },
    [1], 2, by decide +kernel⟩⟩

theorem met_SearchFindsTheWinner :
  (∃ (s : State) (n : Nat) (key mask : List Nat) (ms : List (Nat × Nat × EEnt)), s.matches n key mask [] = ms ∧ (∀ x ∈ ms, x.1 < 32 ∧ x.2.1 < 4096 ∧
    x.2.2.cls < 16) ∧ ms = [])
  ∧ (∃ (s : State) (n : Nat) (key mask : List Nat) (ms : List (Nat × Nat × EEnt)), s.matches n key mask [] = ms ∧ (∀ x ∈ ms, x.1 < 32 ∧ x.2.1 < 4096 ∧
    x.2.2.cls < 16) ∧ ms ≠ []) :=
  ⟨⟨wOn, 0, [5], [255], [], by decide +kernel⟩,
   ⟨wBank (wBank (wr wOn [(R.BANK.BANK_CFG_TABLE 31, 0)]) 0 ⟨3, true, [5], [0xFF]⟩ ⟨3, true, [5], [0xFF]⟩) 31 ⟨3, true, [5], [0]⟩ ⟨3, true, [5], [0]⟩,
    0, [5], [255], (wBank (wBank (wr wOn [(R.BANK.BANK_CFG_TABLE 31, 0)]) 0 ⟨3, true, [5], [0xFF]⟩ ⟨3, true, [5], [0xFF]⟩) 31 ⟨3, true, [5], [0]⟩ ⟨3,
    true, [5], [0]⟩).matches 0 [5] [255] [], by decide +kernel⟩⟩

/-- An INVALIDATE of entry 2 of bank 0 has begun. -/
def wBegun : State :=
  let s := wJobs 1 (wDesc [(0, 1, 4), (4, 4, 1), (16, 8, 0x100000000)])
  { s with ear := { s.ear with banks := modAt s.ear.banks 0 fun _ => ⟨[(2, ⟨3, true, [5], [0xFF]⟩)], [(2, ⟨3, true, [5], [0xFF]⟩)], []⟩,
                               runs := [⟨1, 0, 0, 0, none⟩] } }

theorem met_CheckedSearchAgreesWithTheShadow :
  (∃ (s t : State) (n fuel again : Nat) (key mask : List Nat) (skip : List (Nat × Nat)) (rep r v : Bool) (w : Nat × Nat × EEnt)
    (ms : List (Nat × Nat × EEnt)), State.checkedSearch n key mask skip fuel again rep s = (some (w, ms, r, v), t) ∧ v = true)
  ∧ (∃ (s t : State) (n fuel again : Nat) (key mask : List Nat) (skip : List (Nat × Nat)) (rep r v : Bool) (w : Nat × Nat × EEnt)
    (ms : List (Nat × Nat × EEnt)), State.checkedSearch n key mask skip fuel again rep s = (some (w, ms, r, v), t) ∧ v = false) :=
  ⟨⟨wBank wOn 0 ⟨3, true, [5], [0]⟩ ⟨3, true, [5], [0xFF]⟩, _, 0, 4096, 4, [5], [255], [], false, true, true, (0, 0, ⟨3, true, [5], [0xFF]⟩), [(0, 0, ⟨3, true,
    [5], [0xFF]⟩)], pair_of (by decide +kernel), rfl⟩,
   ⟨wBegun, _, 0, 4096, 0, [5], [255], [], false, false, false, (0, 2, ⟨3, true, [5], [0xFF]⟩), [(0, 2, ⟨3, true, [5], [0xFF]⟩)], pair_of (by decide +kernel), rfl⟩⟩

theorem met_EarmarkJobsRun_1 :
  (∃ (s : State) (src : JobSrc) (j : Job) (st op : Nat), s.jobFor src 1 op 5 = some j ∧ s.earBegun j.id = false ∧
    (s.takeJob j.id).earRefusal j = some st ∧ 1 ≤ op ∧ op ≤ 5)
  ∧ (∃ (s : State) (src : JobSrc) (j : Job) (op n w : Nat) (bs : Bytes), (op = 1 ∨ op = 2) ∧ s.earBegun j.id = false ∧
    s.jobFor src 1 op 5 = some j ∧ (s.takeJob j.id).earRefusal j = none ∧ descN j.desc 0 1 = op ∧ descN j.desc 4 4 = 1 ∧ descN j.desc 1 1 = 0 ∧
    (op = 2 → descN j.desc 3 1 = 1) ∧ n = descN j.desc 2 1 ∧ w = s.bankWidth n ∧ s.xread j.func (descN j.desc 16 8) (8 * w) = Except.ok bs ∧
    xfault s.xlate j.func Need.w (piecesOf (descN j.desc 24 8) 8) = none)
  ∧ (∃ (s : State) (src : JobSrc) (j : Job) (n w b e : Nat) (bs : Bytes), s.jobFor src 1 3 5 = some j ∧ s.earBegun j.id = false ∧ (s.takeJob j.id).earRefusal j = none ∧
    descN j.desc 0 1 = 3 ∧ descN j.desc 4 4 = 1 ∧ n = descN j.desc 2 1 ∧ w = s.bankWidth n ∧
    s.xread j.func (descN j.desc 16 8) (8 + 16 * w) = Except.ok bs ∧ s.entryId n (leNat (List.take 4 bs)) = some (b, e) ∧ b < s.ear.banks.length ∧
    s.bankWidth b = w) :=
  ⟨⟨wJobs 1 (wDesc [(0, 1, 1), (2, 1, 32)]), .cluster 0, wJob 1 (wDesc [(0, 1, 1), (2, 1, 32)]), 2, 1, by decide +kernel⟩,
   ⟨wBank (wJobs 1 (wDesc [(0, 1, 1), (3, 1, 0), (4, 4, 1), (16, 8, 0x100000000), (24, 8, 0x100000FF8)])) 0 ⟨3, true, [0x1300000002], [0xFF]⟩ ⟨3, true,
    [5], [0xFF]⟩, .cluster 0, wJob 1 (wDesc [(0, 1, 1), (3, 1, 0), (4, 4, 1), (16, 8, 0x100000000), (24, 8, 0x100000FF8)]), 1, 0, 1,
    [2, 0, 0, 0, 0x13, 0, 0, 0], by decide +kernel⟩,
   ⟨wJobs 1 (wDesc [(0, 1, 3), (4, 4, 1), (16, 8, 0x100000000)]), .cluster 0, wJob 1 (wDesc [(0, 1, 3), (4, 4, 1), (16, 8, 0x100000000)]), 0, 1, 0, 2,
    [2, 0, 0, 0, 0x13, 0, 0, 0, 7, 0, 0, 0, 0, 0, 0, 0, 0, 0, 0, 0, 0, 0, 0, 0], by decide +kernel⟩⟩

theorem met_EarmarkJobsRun_2 :
  (∃ (s : State) (src : JobSrc) (j : Job) (n b e : Nat) (bs : Bytes), s.jobFor src 1 4 5 = some j ∧ s.earBegun j.id = false ∧ (s.takeJob j.id).earRefusal j = none ∧
    descN j.desc 0 1 = 4 ∧ descN j.desc 4 4 = 1 ∧ n = descN j.desc 2 1 ∧ s.xread j.func (descN j.desc 16 8) 4 = Except.ok bs ∧
    s.entryId n (leNat bs) = some (b, e) ∧ b < s.ear.banks.length ∧ s.bankWidth b = s.bankWidth n)
  ∧ (∃ (s : State) (src : JobSrc) (j : Job) (n w b e : Nat) (bs : Bytes), s.jobFor src 1 5 5 = some j ∧ s.earBegun j.id = false ∧ (s.takeJob j.id).earRefusal j = none ∧
    descN j.desc 0 1 = 5 ∧ descN j.desc 4 4 = 1 ∧ n = descN j.desc 2 1 ∧ w = s.bankWidth n ∧ s.xread j.func (descN j.desc 16 8) 4 = Except.ok bs ∧
    s.entryId n (leNat bs) = some (b, e) ∧ xfault s.xlate j.func Need.w (piecesOf (descN j.desc 24 8) (8 + 16 * w)) = none)
  ∧ (∃ (s : State) (d : JobDone), s.doneJob 1 = some d) :=
  ⟨⟨wBank (wJobs 1 (wDesc [(0, 1, 4), (4, 4, 1), (16, 8, 0x100000000)])) 0 ⟨3, true, [5], [0xFF]⟩ ⟨3, true, [5], [0xFF]⟩, .cluster 0, wJob 1 (wDesc [(0,
    1, 4), (4, 4, 1), (16, 8, 0x100000000)]), 0, 0, 2, [2, 0, 0, 0], by decide +kernel⟩,
   ⟨wBank (wJobs 1 (wDesc [(0, 1, 5), (4, 4, 1), (16, 8, 0x100000000), (24, 8, 0x100000FF0)])) 0 ⟨3, true, [5], [0xFF]⟩ ⟨3, true, [5], [0xFF]⟩,
    .cluster 0, wJob 1 (wDesc [(0, 1, 5), (4, 4, 1), (16, 8, 0x100000000), (24, 8, 0x100000FF0)]), 0, 1, 0, 2, [2, 0, 0, 0], by decide +kernel⟩,
   ⟨{ wMem with jobs := ⟨[], [wDoneJob 1 0], 2, ⟨none, []⟩, []⟩ }, wDoneJob 1 0, by decide +kernel⟩⟩

theorem met_EarmarkJobsRun_3 :
  (∃ (s : State) (o : Origin) (bank : Fin 32) (w : BitVec 2) (tb : BitVec 5), s.powered = true ∧ s.reaches o (64 + ↑bank) = true ∧ w ≠ 3 ∧
    s.bankCfgBad o (↑bank) w.toNat tb.toNat = false)
  ∧ (∃ (s : State) (o : Origin) (bank : Fin 32) (w : BitVec 2) (tb : BitVec 5), s.powered = true ∧ s.reaches o (64 + ↑bank) = true ∧ w ≠ 3 ∧
    s.bankCfgBad o (↑bank) w.toNat tb.toNat = true)
  ∧ (∃ (s : State), (∀ b < 32, (s.bank b).array = (s.bank b).shadow)) :=
  ⟨⟨wOn, .firmware, 31, 2, 31, by decide +kernel⟩,
   ⟨wOn, .firmware, 31, 1, 0, by decide +kernel⟩,
   ⟨wBank (wr wOn [(R.BANK.BANK_CFG_TABLE 31, 0)]) 0 ⟨3, true, [5], [0xFF]⟩ ⟨3, true, [5], [0xFF]⟩, by decide +kernel⟩⟩

theorem met_VerdictsAreExact :
  (∃ (a b : BitVec 8), (a ≠ b ∨ a ≠ 165 ∧ a ≠ 90))
  ∧ (∃ (va vb : BitVec 8), (va = 0 ∨ vb = 0))
  ∧ (∃ (s : State) (a b : Nat), a ≠ b ∧ s.get (H.VALID 42) = 0) :=
  ⟨⟨0xA5, 0x5A, by decide +kernel⟩,
   ⟨0, 0xFF, by decide +kernel⟩,
   ⟨wOn, 0xA5, 0x5A, by decide +kernel⟩⟩

theorem met_DigestJobsRun_1 :
  (∃ (s : State) (src : JobSrc) (j : Job) (p m h : Bytes), s.jobFor src 2 1 2 = some j ∧ digestDescOk j.desc = true ∧ descN j.desc 0 1 = 1 ∧
    (if descPrime j.desc then s.xread j.func (descN j.desc 24 8) (digestBlock (descN j.desc 1 1)) else Except.ok []) = Except.ok p ∧
    s.xread j.func (descN j.desc 8 8) (descN j.desc 16 8) = Except.ok m ∧ h = digest (DigestAlg.ofCode (descN j.desc 1 1)) (p ++ m) ∧
    descN j.desc 40 8 ≠ 0 ∧ xfault s.xlate j.func Need.w (piecesOf (descN j.desc 40 8) (List.length h)) = none)
  ∧ (∃ (s : State) (src : JobSrc) (j : Job) (p m e h : Bytes), s.jobFor src 2 2 2 = some j ∧ digestDescOk j.desc = true ∧ descN j.desc 0 1 = 2 ∧
    (if descPrime j.desc then s.xread j.func (descN j.desc 24 8) (digestBlock (descN j.desc 1 1)) else Except.ok []) = Except.ok p ∧
    s.xread j.func (descN j.desc 8 8) (descN j.desc 16 8) = Except.ok m ∧ h = digest (DigestAlg.ofCode (descN j.desc 1 1)) (p ++ m) ∧
    descN j.desc 40 8 = 0 ∧ s.xread j.func (descN j.desc 32 8) (List.length h) = Except.ok e)
  ∧ (∃ (s : State) (src : JobSrc) (j : Job) (op : Nat), (op = 1 ∨ op = 2) ∧ s.jobFor src 2 op 2 = some j ∧ digestDescOk j.desc = false) :=
  ⟨⟨wJobs 2 (wDesc [(0, 1, 1), (1, 1, 0), (8, 8, 0x100000000), (16, 8, 3), (40, 8, 0x100000FF0)]), .cluster 0, wJob 2 (wDesc [(0, 1, 1), (1, 1, 0), (8,
    8, 0x100000000), (16, 8, 3), (40, 8, 0x100000FF0)]), [], [2, 0, 0], digest (DigestAlg.ofCode 0) [2, 0, 0], by decide +kernel⟩,
   ⟨wJobs 2 (wDesc [(0, 1, 2), (1, 1, 0), (8, 8, 0x100000000), (16, 8, 3), (32, 8, 0x100000000)]), .cluster 0, wJob 2 (wDesc [(0, 1, 2), (1, 1, 0), (8,
    8, 0x100000000), (16, 8, 3), (32, 8, 0x100000000)]), [], [2, 0, 0], (memReadN [(0, 2), (4, 0x13), (8, 7), (64, 1)] 0 32),
    digest (DigestAlg.ofCode 0) [2, 0, 0], by decide +kernel⟩,
   ⟨wJobs 2 (wDesc [(0, 1, 1), (1, 1, 4)]), .cluster 0, wJob 2 (wDesc [(0, 1, 1), (1, 1, 4)]), 1, by decide +kernel⟩⟩

theorem met_DigestJobsRun_2 :
  (∃ (s : State) (d : JobDone), s.doneJob 2 = some d)
  ∧ (∃ (s : State) (o : Origin), s.powered = true ∧ s.reaches o 42 = true ∧ 60 ≤ s.feedSel o ∧ s.feed (s.feedSel o) = none ∧
    bitAt (s.get R.DIGEST.UNITS_LIVE_MASK) (s.feedSel o) = true)
  ∧ (∃ (s : State) (o : Origin) (f : Feed), s.powered = true ∧ s.reaches o 42 = true ∧ 60 ≤ s.feedSel o ∧ s.feed (s.feedSel o) = some f ∧ f.origin ≠ o) :=
  ⟨⟨{ wMem with jobs := ⟨[], [wDoneJob 2 0], 2, ⟨none, []⟩, []⟩ }, wDoneJob 2 0, by decide +kernel⟩,
   ⟨wr wOn [(R.DIGEST.FEED_SEL_UNIT.of .firmware, 60), (R.DIGEST.UNITS_LIVE_MASK, 2 ^ 64 - 1)], .firmware, by decide +kernel⟩,
   ⟨{ wr wOn [(R.DIGEST.FEED_SEL_UNIT.of .firmware, 63), (R.DIGEST.UNITS_LIVE_MASK, 2 ^ 64 - 1), (R.DIGEST.FEED_STATUS_STATE.ofUnit 63, 1)] with feeds := [⟨63, .gate, []⟩] },
    .firmware, ⟨63, .gate, []⟩, by decide +kernel⟩⟩

theorem met_DigestJobsRun_3 :
  (∃ (s : State) (o : Origin), s.powered = true ∧ s.reaches o 42 = true ∧ s.feedSel o < 60)
  ∧ (∃ (s : State) (o : Origin) (f : Feed), s.powered = true ∧ s.reaches o 42 = true ∧ 60 ≤ s.feedSel o ∧ s.ownFeed o = some f)
  ∧ (∃ (s : State) (o : Origin) (f : Feed) (w : BitVec 64) (m h : Bytes), s.powered = true ∧ s.reaches o 42 = true ∧ s.hashing o = some f ∧
    m = f.msg ++ List.take (s.get (R.DIGEST.LAST_COUNT_COUNT.ofUnit f.unit)) (leBytes 8 w.toNat) ∧
    h = digest (DigestAlg.ofCode (s.get (R.DIGEST.FEED_CTRL_ALG.ofUnit f.unit))) m) :=
  ⟨⟨wr wOn [(R.DIGEST.FEED_SEL_UNIT.of .firmware, 59), (R.DIGEST.UNITS_LIVE_MASK, 2 ^ 64 - 1)], .firmware, by decide +kernel⟩,
   ⟨{ wr wOn [(R.DIGEST.FEED_SEL_UNIT.of .firmware, 63), (R.DIGEST.UNITS_LIVE_MASK, 2 ^ 64 - 1), (R.DIGEST.FEED_STATUS_STATE.ofUnit 63, 1)] with feeds := [⟨63, .firmware, []⟩] },
    .firmware, ⟨63, .firmware, []⟩, by decide +kernel⟩,
   ⟨{ wr wOn [(R.DIGEST.FEED_SEL_UNIT.of .firmware, 63), (R.DIGEST.UNITS_LIVE_MASK, 2 ^ 64 - 1), (R.DIGEST.FEED_STATUS_STATE.ofUnit 63, 2), (R.DIGEST.LAST_COUNT_COUNT.ofUnit 63, 0), (R.DIGEST.FEED_CTRL_COMPARE.ofUnit 63, 1)] with feeds := [⟨63, .firmware, [9]⟩] },
    .firmware, ⟨63, .firmware, [9]⟩, 0x8877665544332211, ([9] ++ (leBytes 8 0x8877665544332211).take 0),
    digest (DigestAlg.ofCode 0) ([9] ++ (leBytes 8 0x8877665544332211).take 0), by decide +kernel⟩⟩

theorem met_CipherJobsRun_1 :
  (∃ (s : State) (src : JobSrc) (j : Job) (op : Nat) (k : KeySlot) (bs out : Bytes), (op = 1 ∨ op = 2) ∧ s.jobFor src 3 op 4 = some j ∧ descN j.desc 0 1 = op ∧ s.cipherReady ∧ xtsDescOk j.desc = true ∧
    16 ≤ descN j.desc 12 4 ∧ descN j.desc 12 4 ≤ 2 ^ 24 ∧ descN j.desc 32 5 % descN j.desc 12 4 = 0 ∧
    s.cipherKey j.func (descKey j.desc) true = some k ∧ s.xread j.func (descN j.desc 16 8) (descN j.desc 32 5) = Except.ok bs ∧
    out = xtsUnits (op == 1) k.key (descN j.desc 40 16) (chunks (descN j.desc 12 4) bs) ∧
    xfault s.xlate j.func Need.w (piecesOf (descN j.desc 24 8) (List.length out)) = none)
  ∧ (∃ (s : State) (src : JobSrc) (j : Job) (k : KeySlot) (bs aad inp out : Bytes) (n : Nat), s.jobFor src 3 3 4 = some j ∧ descN j.desc 0 1 = 3 ∧
    s.ctxWaits j = false ∧ s.cipherReady ∧ gcmDescOk j.desc = true ∧ descN j.desc 1 1 % 4 = 3 ∧ s.ownsCtx j.func (descCtx j.desc) = true ∧
    s.ctxMsg (descCtx j.desc) = none ∧ s.cipherKey j.func (descKey j.desc) false = some k ∧ n = descN j.desc 32 5 ∧ gcmDeclared j.desc = n ∧
    s.xread j.func (descN j.desc 16 8) (descN j.desc 12 4 + n) = Except.ok bs ∧ aad = List.take (descN j.desc 12 4) bs ∧
    inp = sliceBytes bs (descN j.desc 12 4) n ∧ out = gcmCrypt k.key (sliceBytes j.desc 42 12) inp ∧
    xfault s.xlate j.func Need.w (piecesOf (descN j.desc 24 8) (List.length out)) = none)
  ∧ (∃ (s : State) (src : JobSrc) (j : Job) (k : KeySlot) (bs aad inp out tag : Bytes) (n : Nat), s.jobFor src 3 4 4 = some j ∧ descN j.desc 0 1 = 4 ∧
    s.ctxWaits j = false ∧ s.cipherReady ∧ gcmDescOk j.desc = true ∧ descN j.desc 1 1 % 4 = 3 ∧ s.ownsCtx j.func (descCtx j.desc) = true ∧
    s.ctxMsg (descCtx j.desc) = none ∧ s.cipherKey j.func (descKey j.desc) false = some k ∧ n = descN j.desc 32 5 ∧ gcmDeclared j.desc = n ∧
    s.xread j.func (descN j.desc 16 8) (descN j.desc 12 4 + n + descN j.desc 6 1) = Except.ok bs ∧ aad = List.take (descN j.desc 12 4) bs ∧
    inp = sliceBytes bs (descN j.desc 12 4) n ∧ tag = sliceBytes bs (descN j.desc 12 4 + n) (descN j.desc 6 1) ∧
    (out = if List.take (descN j.desc 6 1) (gcmTag k.key (sliceBytes j.desc 42 12) aad inp) = tag then gcmCrypt k.key (sliceBytes j.desc 42 12) inp else List.replicate n 0) ∧
    xfault s.xlate j.func Need.w (piecesOf (descN j.desc 24 8) (List.length out)) = none)
  ∧ (∃ (s : State) (src : JobSrc) (j : Job) (op : Nat), (op = 1 ∨ op = 2) ∧
    s.jobFor src 3 op 4 = some j ∧ descN j.desc 0 1 = op ∧ s.cipherReady ∧ 16 ≤ descN j.desc 12 4 ∧
    (xtsDescOk j.desc = false ∨ s.cipherKey j.func (descKey j.desc) true = none)) :=
  ⟨⟨{ wr (wJobs 3 (wDesc [(0, 1, 1), (1, 1, 3), (2, 2, 5), (12, 4, 16), (16, 8, 0x100000000), (24, 8, 0x100000FF0), (32, 5, 32), (40, 8, 3)])) [(R.CIPHER.PIPES_LIVE, 63)] with keys := { KeySt.reset with masks := [0, 1, 2, 3, 4, 5], slots := [⟨5, List.replicate 64 9, true, 0x1F0, 0⟩] } },
    .cluster 0, wJob 3 (wDesc [(0, 1, 1), (1, 1, 3), (2, 2, 5), (12, 4, 16), (16, 8, 0x100000000), (24, 8, 0x100000FF0), (32, 5, 32), (40, 8, 3)]), 1,
    ⟨5, List.replicate 64 9, true, 0x1F0, 0⟩, memReadN [(0, 2), (4, 0x13), (8, 7), (64, 1)] 0 32,
    xtsUnits (1 == 1) (List.replicate 64 9) 3 (chunks 16 (memReadN [(0, 2), (4, 0x13), (8, 7), (64, 1)] 0 32)), by decide +kernel⟩,
   ⟨{ wr (wJobs 3 (wDesc [(0, 1, 3), (1, 1, 3), (2, 2, 5), (6, 1, 16), (12, 4, 4), (16, 8, 0x100000000), (24, 8, 0x100000FF0), (32, 5, 20), (37, 3, 20)])) [(R.CIPHER.PIPES_LIVE, 63)] with keys := { KeySt.reset with masks := [0, 1, 2, 3, 4, 5], slots := [⟨5, List.replicate 32 9, false, 0x1F0, 0⟩] } },
    .cluster 0, wJob 3 (wDesc [(0, 1, 3), (1, 1, 3), (2, 2, 5), (6, 1, 16), (12, 4, 4), (16, 8, 0x100000000), (24, 8, 0x100000FF0), (32, 5, 20), (37, 3,
    20)]), ⟨5, List.replicate 32 9, false, 0x1F0, 0⟩, memReadN [(0, 2), (4, 0x13), (8, 7), (64, 1)] 0 24, [2, 0, 0, 0], (memReadN [(0, 2), (4, 0x13), (8,
    7), (64, 1)] 4 20), gcmCrypt (List.replicate 32 9) (List.replicate 12 0) (memReadN [(0, 2), (4, 0x13), (8, 7), (64, 1)] 4 20), 20, by decide +kernel⟩,
   ⟨{ wr (wJobs 3 (wDesc [(0, 1, 4), (1, 1, 3), (2, 2, 5), (6, 1, 12), (12, 4, 4), (16, 8, 0x100000000), (24, 8, 0x100000FF0), (32, 5, 20), (37, 3, 20)])) [(R.CIPHER.PIPES_LIVE, 63)] with keys := { KeySt.reset with masks := [0, 1, 2, 3, 4, 5], slots := [⟨5, List.replicate 32 9, false, 0x1F0, 0⟩] } },
    .cluster 0, wJob 3 (wDesc [(0, 1, 4), (1, 1, 3), (2, 2, 5), (6, 1, 12), (12, 4, 4), (16, 8, 0x100000000), (24, 8, 0x100000FF0), (32, 5, 20), (37, 3,
    20)]), ⟨5, List.replicate 32 9, false, 0x1F0, 0⟩, memReadN [(0, 2), (4, 0x13), (8, 7), (64, 1)] 0 36, [2, 0, 0, 0], (memReadN [(0, 2), (4, 0x13), (8,
    7), (64, 1)] 4 20), List.replicate 20 0, (memReadN [(0, 2), (4, 0x13), (8, 7), (64, 1)] 24 12), 20, by decide +kernel⟩,
   ⟨{ wr (wJobs 3 (wDesc [(0, 1, 1), (1, 1, 3), (2, 2, 6), (12, 4, 16), (16, 8, 0x100000000), (24, 8, 0x100000FF0), (32, 5, 32)])) [(R.CIPHER.PIPES_LIVE, 63)] with keys := { KeySt.reset with masks := [0, 1, 2, 3, 4, 5], slots := [⟨5, List.replicate 64 9, true, 0x1F0, 0⟩] } },
    .cluster 0, wJob 3 (wDesc [(0, 1, 1), (1, 1, 3), (2, 2, 6), (12, 4, 16), (16, 8, 0x100000000), (24, 8, 0x100000FF0), (32, 5, 32)]), 1,
    by decide +kernel⟩⟩

theorem met_CipherJobsRun_2 :
  (∃ (s : State) (d : JobDone), s.doneJob 3 = some d)
  ∧ (∃ (s : State) (g : Fin 7), s.get R.ENTROPY.ES_STATUS_STATE = 1 ∧ g.val ∉ s.keys.masks)
  ∧ (∃ (s : State) (g : Fin 7), s.get R.ENTROPY.ES_STATUS_STATE ≠ 1 ∧ g.val ∉ s.keys.masks)
  ∧ (∃ (s : State) (g : Fin 7), g.val ∈ s.keys.masks) :=
  ⟨⟨{ wMem with jobs := ⟨[], [wDoneJob 3 0], 2, ⟨none, []⟩, []⟩ }, wDoneJob 3 0, by decide +kernel⟩,
   ⟨wr wOn [(R.ENTROPY.ES_STATUS_STATE, 1)], 6, by decide +kernel⟩,
   ⟨wr wOn [(R.ENTROPY.ES_STATUS_STATE, 2)], 0, by decide +kernel⟩,
   ⟨{ wOn with keys := { wOn.keys with masks := [6] } }, 6, by decide +kernel⟩⟩

theorem met_KeyEngineJobsRun_1 :
  (∃ (s u : State) (j : Job), s.fetchKeyJobs = u ∧ u.keys.queue.head? = some j ∧ descN j.desc 0 1 = 1 ∧ keyDescOk j.desc (hostSrc j.src) = true ∧
    systemTag j.func = true ∧ 6 ∈ u.keys.masks ∧ (u.keys.kekMedia ≠ none ∨ u.mayDerive = true))
  ∧ (∃ (s u : State) (j : Job) (h : Nat) (kek : Bytes), s.fetchKeyJobs = u ∧ u.keys.queue.head? = some j ∧ j.src = JobSrc.host h ∧ descN j.desc 0 1 = 2 ∧
    keyDescOk j.desc true = true ∧ 6 ∈ u.keys.masks ∧ (u.kekFor j.func).1 = some kek ∧ u.slotCheck j.func (descN j.desc 2 2 % 1024) = 0)
  ∧ (∃ (s u : State) (j : Job) (h : Nat) (kek : Bytes), s.fetchKeyJobs = u ∧ u.keys.queue.head? = some j ∧ j.src = JobSrc.host h ∧ descN j.desc 0 1 = 3 ∧
    keyDescOk j.desc true = true ∧ 6 ∈ u.keys.masks ∧ (u.kekFor j.func).1 = some kek ∧ u.slotCheck j.func (descN j.desc 2 2 % 1024) = 0)
  ∧ (∃ (s u : State) (j : Job) (h : Nat) (kek : Bytes) (k : KeySlot), s.fetchKeyJobs = u ∧ u.keys.queue.head? = some j ∧ j.src = JobSrc.host h ∧
    descN j.desc 0 1 = 4 ∧ keyDescOk j.desc true = true ∧ 6 ∈ u.keys.masks ∧ (u.kekFor j.func).1 = some kek ∧ u.ownsSlot j.func (descN j.desc 4 2 % 1024) = true ∧
    u.keySlot (descN j.desc 4 2 % 1024) = some k ∧ k.xts = (descN j.desc 1 1 == 1)) :=
  ⟨⟨{ wOn with keys := { KeySt.reset with masks := [6], kekMedia := some (List.replicate 32 7), queue := [⟨1, .cluster 0, 4, 0x1F0, wDesc [(0, 1, 1)], none, none⟩], slots := [] } },
    (({ wOn with keys := { KeySt.reset with masks := [6], kekMedia := some (List.replicate 32 7), queue := [⟨1, .cluster 0, 4, 0x1F0, wDesc [(0, 1, 1)], none, none⟩], slots := [] } }).fetchKeyJobs),
    ⟨1, .cluster 0, 4, 0x1F0, wDesc [(0, 1, 1)], none, none⟩, by decide +kernel⟩,
   ⟨{ wOn with keys := { KeySt.reset with masks := [6], kekMedia := some (List.replicate 32 7), queue := [⟨1, .host 0, 4, 0x1F0, wDesc [(0, 1, 2), (1, 1, 1), (2, 2, 5)], none, none⟩], slots := [⟨5, List.replicate 32 9, false, 0x1F0, 0⟩] } },
    (({ wOn with keys := { KeySt.reset with masks := [6], kekMedia := some (List.replicate 32 7), queue := [⟨1, .host 0, 4, 0x1F0, wDesc [(0, 1, 2), (1, 1, 1), (2, 2, 5)], none, none⟩], slots := [⟨5, List.replicate 32 9, false, 0x1F0, 0⟩] } }).fetchKeyJobs),
    ⟨1, .host 0, 4, 0x1F0, wDesc [(0, 1, 2), (1, 1, 1), (2, 2, 5)], none, none⟩, 0, (List.replicate 32 7), by decide +kernel⟩,
   ⟨{ wOn with keys := { KeySt.reset with masks := [6], kekMedia := some (List.replicate 32 7), queue := [⟨1, .host 0, 4, 0x1F0, (wDesc [(0, 1, 3), (2, 2, 5), (12, 4, 40)] ++ aesWrap (List.replicate 32 7) (List.replicate 32 9)), none, none⟩], slots := [] } },
    _, _, 0, (List.replicate 32 7), rfl, rfl, rfl, by decide +kernel, by decide +kernel, by decide +kernel, by decide +kernel⟩,
   ⟨{ wOn with keys := { KeySt.reset with masks := [6], kekMedia := some (List.replicate 32 7), queue := [⟨1, .host 0, 4, 0x1F0, wDesc [(0, 1, 4), (4, 2, 5)], none, none⟩], slots := [⟨5, List.replicate 32 9, false, 0x1F0, 0⟩] } },
    (({ wOn with keys := { KeySt.reset with masks := [6], kekMedia := some (List.replicate 32 7), queue := [⟨1, .host 0, 4, 0x1F0, wDesc [(0, 1, 4), (4, 2, 5)], none, none⟩], slots := [⟨5, List.replicate 32 9, false, 0x1F0, 0⟩] } }).fetchKeyJobs),
    ⟨1, .host 0, 4, 0x1F0, wDesc [(0, 1, 4), (4, 2, 5)], none, none⟩, 0, (List.replicate 32 7), ⟨5, List.replicate 32 9, false, 0x1F0, 0⟩,
    by decide +kernel⟩⟩

theorem met_KeyEngineJobsRun_2 :
  (∃ (s u : State) (j : Job) (h : Nat) (kek : Bytes) (k : KeySlot), s.fetchKeyJobs = u ∧ u.keys.queue.head? = some j ∧ j.src = JobSrc.host h ∧
    descN j.desc 0 1 = 5 ∧ keyDescOk j.desc true = true ∧ 6 ∈ u.keys.masks ∧ (u.kekFor j.func).1 = some kek ∧ u.slotCheck j.func (descN j.desc 2 2 % 1024) = 0 ∧
    u.ownsSlot j.func (descN j.desc 4 2 % 1024) = true ∧ u.keySlot (descN j.desc 4 2 % 1024) = some k)
  ∧ (∃ (s u : State) (j : Job) (h : Nat) (kek : Bytes), s.fetchKeyJobs = u ∧ u.keys.queue.head? = some j ∧ j.src = JobSrc.host h ∧ descN j.desc 0 1 = 6 ∧
    keyDescOk j.desc true = true ∧ 6 ∈ u.keys.masks ∧ (u.kekFor j.func).1 = some kek ∧ u.slotCheck j.func (descN j.desc 2 2 % 1024) = 0 ∧ 128 ≤ descN j.desc 2 2 % 1024)
  ∧ (∃ (s u : State) (j : Job), s.fetchKeyJobs = u ∧ u.keys.queue.head? = some j ∧ descN j.desc 0 1 = 7 ∧ keyDescOk j.desc (hostSrc j.src) = true ∧
    u.slotCheck j.func (descN j.desc 2 2 % 1024) = 0)
  ∧ (∃ (s u : State) (j : Job) (op : Nat), (op = 2 ∨ op = 5 ∨ op = 6 ∨ op = 7) ∧
    s.fetchKeyJobs = u ∧ u.keys.queue.head? = some j ∧ descN j.desc 0 1 = op ∧ keyDescOk j.desc (hostSrc j.src) = true ∧
    u.slotCheck j.func (descN j.desc 2 2 % 1024) ≠ 0 ∧ (op = 7 ∨ u.keys.kekMedia ≠ none ∧ 6 ∈ u.keys.masks)) :=
  ⟨⟨{ wOn with keys := { KeySt.reset with masks := [6], kekMedia := some (List.replicate 32 7), queue := [⟨1, .host 0, 4, 0x1F0, wDesc [(0, 1, 5), (2, 2, 127), (4, 2, 5), (12, 4, 64)], none, none⟩], slots := [⟨5, List.replicate 32 9, false, 0x1F0, 0⟩] } },
    (({ wOn with keys := { KeySt.reset with masks := [6], kekMedia := some (List.replicate 32 7), queue := [⟨1, .host 0, 4, 0x1F0, wDesc [(0, 1, 5), (2, 2, 127), (4, 2, 5), (12, 4, 64)], none, none⟩], slots := [⟨5, List.replicate 32 9, false, 0x1F0, 0⟩] } }).fetchKeyJobs),
    ⟨1, .host 0, 4, 0x1F0, wDesc [(0, 1, 5), (2, 2, 127), (4, 2, 5), (12, 4, 64)], none, none⟩, 0, (List.replicate 32 7), ⟨5, List.replicate 32 9, false,
    0x1F0, 0⟩, by decide +kernel⟩,
   ⟨{ wHost with tenant := { wHost.tenant with fns := [⟨⟨1, true, 16, 1, 2, 2, 128, 4, 16, 2, 2, 64, 0, 8, [1], [none]⟩, 1, 0, []⟩] }, keys := { KeySt.reset with masks := [6], kekMedia := some (List.replicate 32 7), kekFunc := [(1, List.replicate 32 6)], queue := [⟨1, .host 1, 4, 1, (wDesc [(0, 1, 6), (2, 2, 128), (12, 4, 32)] ++ List.replicate 32 3), none, none⟩] } },
    (({ wHost with tenant := { wHost.tenant with fns := [⟨⟨1, true, 16, 1, 2, 2, 128, 4, 16, 2, 2, 64, 0, 8, [1], [none]⟩, 1, 0, []⟩] }, keys := { KeySt.reset with masks := [6], kekMedia := some (List.replicate 32 7), kekFunc := [(1, List.replicate 32 6)], queue := [⟨1, .host 1, 4, 1, (wDesc [(0, 1, 6), (2, 2, 128), (12, 4, 32)] ++ List.replicate 32 3), none, none⟩] } }).fetchKeyJobs),
    ⟨1, .host 1, 4, 1, (wDesc [(0, 1, 6), (2, 2, 128), (12, 4, 32)] ++ List.replicate 32 3), none, none⟩, 1, (List.replicate 32 6), by decide +kernel⟩,
   ⟨{ wOn with keys := { KeySt.reset with masks := [6], kekMedia := some (List.replicate 32 7), queue := [⟨1, .host 0, 4, 0x1F0, wDesc [(0, 1, 7), (2, 2, 5)], none, none⟩], slots := [⟨5, List.replicate 32 9, false, 0x1F0, 0⟩] } },
    (({ wOn with keys := { KeySt.reset with masks := [6], kekMedia := some (List.replicate 32 7), queue := [⟨1, .host 0, 4, 0x1F0, wDesc [(0, 1, 7), (2, 2, 5)], none, none⟩], slots := [⟨5, List.replicate 32 9, false, 0x1F0, 0⟩] } }).fetchKeyJobs),
    ⟨1, .host 0, 4, 0x1F0, wDesc [(0, 1, 7), (2, 2, 5)], none, none⟩, by decide +kernel⟩,
   ⟨{ wOn with keys := { KeySt.reset with masks := [6], kekMedia := some (List.replicate 32 7), queue := [⟨1, .host 0, 4, 0x1F0, (wDesc [(0, 1, 2), (2, 2, 1023), (12, 4, 0)]), none, none⟩], slots := [⟨5, List.replicate 32 9, false, 0x1F0, 0⟩] } },
    (({ wOn with keys := { KeySt.reset with masks := [6], kekMedia := some (List.replicate 32 7), queue := [⟨1, .host 0, 4, 0x1F0, (wDesc [(0, 1, 2), (2, 2, 1023), (12, 4, 0)]), none, none⟩], slots := [⟨5, List.replicate 32 9, false, 0x1F0, 0⟩] } }).fetchKeyJobs),
    ⟨1, .host 0, 4, 0x1F0, (wDesc [(0, 1, 2), (2, 2, 1023), (12, 4, 0)]), none, none⟩, 2, by decide +kernel⟩⟩

/-- One key job of the system firmware, without KEK_MEDIA. -/
def wOneKey (masks : List Nat) (d : Bytes) : State :=
  { wOn with keys := { KeySt.reset with masks := masks, queue := [⟨1, .cluster 0, 4, 0x1F0, d, none, none⟩] } }

theorem met_KeyEngineJobsRun_3 :
  (∃ (s : State) (d : JobDone) (ds : List JobDone) (cl : Fin 9), s.keys.finished = d :: ds ∧ d.job.src = JobSrc.cluster cl)
  ∧ (∃ (s : State) (d : JobDone) (ds : List JobDone) (fn : Nat), s.keys.finished = d :: ds ∧ d.job.src = JobSrc.host fn)
  ∧ (∃ (s u : State) (j : Job), s.fetchKeyJobs = u ∧ u.keys.queue.head? = some j ∧ descN j.desc 0 1 = 1 ∧ keyDescOk j.desc (hostSrc j.src) = true ∧
    systemTag j.func = true ∧ 6 ∈ u.keys.masks ∧ u.keys.kekMedia = none ∧ u.mayDerive = false)
  ∧ (∃ (s u : State) (j : Job), s.fetchKeyJobs = u ∧ u.keys.queue.head? = some j ∧ descN j.desc 0 1 = 2 ∧ 6 ∉ u.keys.masks) :=
  ⟨⟨{ wMem with keys := { KeySt.reset with finished := [wDoneJob 4 0] } }, wDoneJob 4 0, [], 0, by decide +kernel⟩,
   ⟨{ wMem with keys := { KeySt.reset with finished := [⟨⟨1, .host 0, 4, 0x1F0, [], none, none⟩, 0x11, 0, [1], 0⟩] } }, ⟨⟨1, .host 0, 4, 0x1F0, [], none,
    none⟩, 0x11, 0, [1], 0⟩, [], 0, by decide +kernel⟩,
   ⟨wOneKey [6] (wDesc [(0, 1, 1)]), (wOneKey [6] (wDesc [(0, 1, 1)])).fetchKeyJobs, ⟨1, .cluster 0, 4, 0x1F0, wDesc [(0, 1, 1)], none, none⟩, by decide +kernel⟩,
   ⟨wOneKey [] (wDesc [(0, 1, 2)]), (wOneKey [] (wDesc [(0, 1, 2)])).fetchKeyJobs, ⟨1, .cluster 0, 4, 0x1F0, wDesc [(0, 1, 2)], none, none⟩, by decide +kernel⟩⟩

theorem met_AlarmsZeroiseEveryKey_1 :
  (∃ (c : BitVec 3), c.toNat ≤ 4)
  ∧ (∃ (s : State), s.get R.ENTROPY.ES_STATUS_STATE = 1)
  ∧ (∃ (s : State), s.get R.ENTROPY.ES_STATUS_STATE ≠ 1 ∧ s.get R.ENTROPY.ES_STATUS_STATE ≠ 3) :=
  ⟨⟨4, by decide +kernel⟩,
   ⟨wr ({ wHost with keys := { wHost.keys with queue := [wJob 4 []], masks := [1] }, jobs := ⟨[], [wDoneJob 3 0], 2, ⟨none, []⟩, []⟩ }) [(R.ENTROPY.ES_STATUS_STATE,
    1)], by decide +kernel⟩,
   ⟨wr wHost [(R.ENTROPY.ES_STATUS_STATE, 2)], by decide +kernel⟩⟩

theorem met_AlarmsZeroiseEveryKey_2 :
  (∃ (s : State) (o : Origin), s.powered = true ∧ s.reaches o 41 = true ∧ s.holds o Role.operator = true ∧ s.unlockBarred = false ∧ 6 ∈ s.keys.masks)
  ∧ (∃ (s : State) (o : Origin), s.powered = true ∧ s.reaches o 41 = true ∧ s.holds o Role.operator = true ∧
    (s.keys.conds ≠ 0 ∨ s.get R.ENTROPY.ES_STATUS_STATE ≠ 1))
  ∧ (∃ (s : State) (o : Origin), s.powered = true ∧ s.reaches o 41 = true ∧ s.holds o Role.operator = false) :=
  ⟨⟨{ wr wHost [(R.ENTROPY.ES_STATUS_STATE, 1), (R.KEYENG.ALARM_CAUSE_CAUSE, 1)] with keys := { wHost.keys with masks := [6] } }, .firmware, by decide +kernel⟩,
   ⟨wr wHost [(R.ENTROPY.ES_STATUS_STATE, 2)], .firmware, by decide +kernel⟩,
   ⟨wOn, .gate, by decide +kernel⟩⟩

theorem met_ConflictingCommandsWait :
  (∃ (a b : RLock), a.wr = false ∧ b.wr = false)
  ∧ (∃ (s : State) (x : IoCmd) (q : Sq) (c : HCmd), s.sq x.fn x.sq = some q ∧ x.sq ≠ 0 ∧ q.frozen = none ∧ q.head ≠ q.tail ∧ s.mayFetch x.fn = true ∧
    s.hcmd { fn := x.fn, sq := x.sq, cid := x.cid } = none ∧ s.host.locksUsed + (s.locksOf x).length ≤ 8192 ∧ { fn := x.fn, sq := x.sq, cid := x.cid } ∉ s.host.aborts ∧
    s.listedOpcode x = true ∧ (s.ioNs x).isSome = true ∧ (s.fetchTurn x.fn).isSome = true ∧ c = { x := x, num := s.get R.HOSTQ.FETCHED_COUNT, locks := s.locksOf x, phase := CmdPhase.ready, left := 0, failed := false })
  ∧ (∃ (s : State) (i : Nat) (c d : HCmd), s.host.cmds[i]? = some c ∧ s.relock.host.cmds[i]? = some d ∧ c.phase ≠ CmdPhase.waits)
  ∧ (∃ (s : State) (i : Nat) (c d : HCmd), s.host.cmds[i]? = some c ∧ s.relock.host.cmds[i]? = some d ∧ c.phase = CmdPhase.waits ∧ s.host.blocked c = false) :=
  ⟨⟨⟨1, 0, 8, false⟩, ⟨1, 4, 8, false⟩, by decide +kernel⟩,
   ⟨wQ [], wIo 2 1 5 0, wSq, ⟨wIo 2 1 5 0, 0, [⟨1, 5, 1, false⟩], .ready, 0, false⟩, by decide +kernel⟩,
   ⟨wQ [⟨wIo 1 1 5 0, 3, [⟨1, 5, 1, true⟩], .running, 0, false⟩, ⟨{ wIo 2 1 5 0 with cid := 8 }, 5, [⟨1, 5, 1, false⟩], .waits, 0, false⟩], 0,
    ⟨wIo 1 1 5 0, 3, [⟨1, 5, 1, true⟩], .running, 0, false⟩, ⟨wIo 1 1 5 0, 3, [⟨1, 5, 1, true⟩], .running, 0, false⟩, by decide +kernel⟩,
   ⟨wQ [⟨wIo 1 1 5 0, 3, [⟨1, 5, 1, true⟩], .running, 0, false⟩, ⟨{ wIo 2 1 6 0 with cid := 8 }, 5, [⟨1, 6, 1, false⟩], .waits, 0, false⟩], 1,
    ⟨{ wIo 2 1 6 0 with cid := 8 }, 5, [⟨1, 6, 1, false⟩], .waits, 0, false⟩, ⟨{ wIo 2 1 6 0 with cid := 8 }, 5, [⟨1, 6, 1, false⟩], .ready, 0, false⟩,
    by decide +kernel⟩⟩

theorem met_ErrorsFreezeTheQueue_1 :
  (∃ (s : State) (k : CmdKey) (c : HCmd) (q : Sq) (st f n : Nat), s.hcmd k = some c ∧ s.sq k.fn k.sq = some q ∧ st ≠ 0 ∧ k.sq ≠ 0 ∧ (f, n) ≠ (k.fn, k.sq))
  ∧ (∃ (k : CmdKey) (st : Nat), (st = 0 ∨ k.sq = 0))
  ∧ (∃ (s : State) (x : IoCmd) (q : Sq), s.sq x.fn x.sq = some q ∧ q.frozen ≠ none) :=
  ⟨⟨wQ [wHc (wIo 2 1 5 0)], wKey, wHc (wIo 2 1 5 0), wSq, 4, 0, 2, by decide +kernel⟩,
   ⟨wKey, 0, by decide +kernel⟩,
   ⟨{ wQ [wHc (wIo 2 1 5 0)] with host := { (wQ [wHc (wIo 2 1 5 0)]).host with sqs := [{ wSq with frozen := some (7, 4, 0) }] } }, wIo 2 1 5 0,
    { wSq with frozen := some (7, 4, 0) }, by decide +kernel⟩⟩

theorem met_ErrorsFreezeTheQueue_2 :
  (∃ (s : State) (c : Cmd) (sqid : Nat) (q : Sq), s.adminReady c.fn = true ∧ s.sq c.fn sqid = some q ∧ q.frozen ≠ none)
  ∧ (∃ (s : State) (c : Cmd) (sqid : Nat), s.adminReady c.fn = true ∧ (∀ (q : Sq), s.sq c.fn sqid = some q → q.frozen = none)) :=
  ⟨⟨{ wQ [wHc (wIo 2 1 5 0)] with host := { (wQ [wHc (wIo 2 1 5 0)]).host with sqs := [{ wSq with frozen := some (7, 4, 0) }] } }, wCmd, 1,
    { wSq with frozen := some (7, 4, 0) }, by decide +kernel⟩,
   ⟨wQ [], wCmd, 1, by decide +kernel⟩⟩

theorem met_PortsAndDoorbells_1 :
  (∃ (s : State) (p : Port) (sp : BitVec 3) (w : BitVec 5), s.perstHigh p = true ∧ s.portExists p = true ∧ sp ≠ 0 ∧ sp ≠ 7 ∧ w.toNat ∈ [1, 2, 4, 8,
    16] ∧ w.toNat ≤ s.fullWidth)
  ∧ (∃ (s : State) (p : Port), s.linkUp p = true ∧ s.get (linkFields p).2.2.2.2 = 0)
  ∧ (∃ (s : State) (p : Port), s.linkUp p = true ∧ s.get (linkFields p).2.2.2.2 = 1 ∧ s.mode ≠ 1)
  ∧ (∃ (s : State) (fn qid v : Nat) (q : Sq), (s.fn fn).isSome = true ∧ s.sq fn qid = some q ∧ v < q.size) :=
  ⟨⟨{ wr wHost [(R.HOSTQ.LINK_A_SPEED, 6), (R.HOSTQ.LINK_A_WIDTH, 16)] with pwr := { wHost.pwr with perst := (true, true) } }, .a, 6, 16,
    by decide +kernel⟩,
   ⟨{ wr wHost [(R.HOSTQ.LINK_A_SPEED, 6), (R.HOSTQ.LINK_A_WIDTH, 16)] with pwr := { wHost.pwr with perst := (true, true) } }, .a, by decide +kernel⟩,
   ⟨{ wr wHost [(R.HOSTQ.LINK_A_SPEED, 6), (R.HOSTQ.LINK_A_WIDTH, 16), (R.HOSTQ.LINK_A_L1_2, 1)] with pwr := { wHost.pwr with perst := (true, true) } },
    .a, by decide +kernel⟩,
   ⟨wQ [], 0, 1, 15, wSq, by decide +kernel⟩⟩

/-- `wQ` with nine reads on a die, where functions 0 and 1 wait with these shares (R494). -/
def wBusyDies (a b : Nat) : State :=
  let s := wQ []
  let f (i n : Nat) : Fn := { wFn i with p := { (wFn i).p with share := n } }
  { s with host := { s.host with sqs := [wSq, { wSq with fn := 1, gidx := 1 }] }, tenant := { s.tenant with fns := [f 0 a, f 1 b] },
           nand := { s.nand with queues := [(0, List.replicate 9 ⟨.read, 1, 2, false, [0], [0], 0, .background 0⟩)] } }

theorem met_PortsAndDoorbells_2 :
  (∃ (s : State) (fn qid v : Nat) (q : Cq), (s.fn fn).isSome = true ∧ s.cq fn qid = some q ∧ v < q.size)
  ∧ (∃ (s : State) (fn qid v : Nat), (s.fn fn).isSome = true ∧ (∀ (q : Sq), s.sq fn qid = some q → q.size ≤ v))
  ∧ (∃ (s : State) (x : IoCmd) (q : Sq), s.sq x.fn x.sq = some q ∧ x.sq ≠ 0 ∧ q.frozen = none ∧ q.head ≠ q.tail ∧ s.mayFetch x.fn = true ∧
    s.hcmd { fn := x.fn, sq := x.sq, cid := x.cid } = none ∧ (s.fetchTurn x.fn).isSome = true ∧ 8192 < s.host.locksUsed + (s.locksOf x).length)
  ∧ (∃ (s : State) (x : IoCmd), s.diesShort = true ∧ s.shareOf x.fn = 0 ∧ s.shareWaits ≠ [])
  ∧ (∃ s : State, s.diesShort = false ∨ s.shareWaits = [])
  ∧ (∃ (s : State) (f g : Nat) (t u : Turns), s.diesShort = true ∧ s.shareWaits ≠ [] ∧ s.fetchTurn f = some t ∧ s.fetchTurn g = some u) :=
  ⟨⟨wQ [], 0, 1, 15, wCq, by decide +kernel⟩,
   ⟨wQ [], 0, 1, 16, by decide +kernel⟩,
   ⟨wQ [⟨{ wIo 1 1 5 0 with cid := 9 }, 3, List.replicate 8192 ⟨1, 5, 1, true⟩, .running, 0, false⟩], wIo 2 1 5 0, wSq, by decide +kernel⟩,
   ⟨wBusyDies 0 60, { wIo 2 1 5 0 with fn := 0 }, by decide +kernel⟩,
   ⟨wBusyDies 0 0, by decide +kernel⟩,
   ⟨wBusyDies 40 60, 1, 1, _, _, by decide +kernel, by decide +kernel, some_of ⟨none, []⟩ (by decide +kernel), some_of ⟨none, []⟩ (by decide +kernel)⟩⟩

theorem met_HostCommandsRun_1 :
  (∃ (s : State) (k : CmdKey) (c : HCmd) (n : Ns) (op m : Nat), (op = 2 ∨ op = 5 ∨ op = 12) ∧
    s.readyCmd k op = some c ∧ s.ioCheck c.x false (ioLba c.x) (ioNlb c.x) = 0 ∧ s.ioNs c.x = some n ∧
    (op = 12 ∨ ioShort c.x (4096 * ioNlb c.x) = false) ∧ s.pageLost n.nsid (ioLba c.x) (ioNlb c.x) = false ∧ m = (s.queueReads k n.nsid (ioLba c.x) (ioNlb c.x)).1 ∧ m ≠ 0)
  ∧ (∃ (s u v : State) (k : CmdKey) (c : HCmd) (n : Ns) (op : Nat) (bs : Bytes), (op = 2 ∨ op = 5 ∨ op = 12) ∧ s.readyCmd k op = some c ∧ s.ioCheck c.x false (ioLba c.x) (ioNlb c.x) = 0 ∧ s.ioNs c.x = some n ∧
    (op = 12 ∨ ioShort c.x (4096 * ioNlb c.x) = false) ∧ s.pageLost n.nsid (ioLba c.x) (ioNlb c.x) = false ∧ (s.queueReads k n.nsid (ioLba c.x) (ioNlb c.x)).1 = 0 ∧ s.readyPipes ≠ [] ∧
    v = ((s.queueReads k n.nsid (ioLba c.x) (ioNlb c.x)).2.readingCmd k).aheadOf n.nsid (ioLba c.x) (ioNlb c.x) ∧
    v.resyncFirst n.nsid (ioLba c.x) (ioNlb c.x) = false ∧ v.readRange n (ioLba c.x) (ioNlb c.x) = (some bs, u))
  ∧ (∃ (s : State) (k : CmdKey) (c : HCmd) (n : Ns), s.readyCmd k 1 = some c ∧ s.ioCheck c.x true (ioLba c.x) (ioNlb c.x) = 0 ∧ s.ioNs c.x = some n ∧
    ioShort c.x (4096 * ioNlb c.x) = false ∧ s.pageLost n.nsid (ioLba c.x) (ioNlb c.x) = false ∧ 50 ≤ s.get R.TAKE.HOLDUP_HOLDUP_MS ∧ s.media.wbuf.length + ioNlb c.x ≤ 16384)
  ∧ (∃ (s : State) (k : CmdKey) (c : HCmd), s.readyCmd k 0 = some c ∧ (s.ioNs c.x).isSome = true ∧ s.offline = false) :=
  ⟨⟨wQ [wHc (wIo 2 1 5 0)], wKey, wHc (wIo 2 1 5 0), wNs1, 2, 1, by decide +kernel⟩,
   ⟨wPipes (wQ [wHc (wIo 2 1 6 0)]), _, _, wKey, wHc (wIo 2 1 6 0), wNs1, 2, _, by decide +kernel, by decide +kernel, by decide +kernel,
    by decide +kernel, by decide +kernel, by decide +kernel, by decide +kernel, by decide +kernel, rfl, by decide +kernel, pair_of (some_of [] (by decide +kernel))⟩,
   ⟨wQ [wHc (wIo 1 1 62 1)], wKey, wHc (wIo 1 1 62 1), wNs1, by decide +kernel⟩,
   ⟨wQ [wHc (wIo 0 1 0 0)], wKey, wHc (wIo 0 1 0 0), by decide +kernel⟩⟩

theorem met_HostCommandsRun_2 :
  (∃ (s : State) (k : CmdKey) (c : HCmd) (n : Ns), s.readyCmd k 8 = some c ∧ s.ioCheck c.x true (ioLba c.x) (ioNlb c.x) = 0 ∧ s.ioNs c.x = some n ∧ s.pageLost n.nsid (ioLba c.x) (ioNlb c.x) = false)
  ∧ (∃ (s : State) (k : CmdKey) (c : HCmd) (n : Ns), s.readyCmd k 9 = some c ∧ s.ioCheck c.x true 0 0 = 0 ∧ s.ioNs c.x = some n ∧ (∀ r ∈ s.dsmRanges c.x,
    r.1 + r.2 ≤ n.nsze ∧ s.pageLost n.nsid r.1 r.2 = false) ∧ bitAt c.x.cdw11 2 = true)
  ∧ (∃ (s : State) (k : CmdKey) (c : HCmd) (n : Ns), s.readyCmd k 9 = some c ∧ s.ioCheck c.x true 0 0 = 0 ∧ s.ioNs c.x = some n ∧ (∃ r ∈ s.dsmRanges c.x,
    n.nsze < r.1 + r.2))
  ∧ (∃ (s u : State) (k : CmdKey) (c : HCmd) (n : Ns) (cont : Bytes) (bad : List Nat) (fo : Option Nat) (off len : Nat), s.readyCmd k 130 = some c ∧ s.ioNs c.x = some n ∧
    n.kind = NsKind.take ∧ s.offline = false ∧ s.keys.kekMedia ≠ none ∧ len = c.x.cdw15 % 2 ^ 27 ∧ len ≠ 0 ∧ len ≤ 67108864 ∧
    bits c.x.cdw12 8 3 = 3 ∧ len ≤ dptrLen c.x.dptr ∧ s.pageLost n.nsid 0 n.nuse = false ∧
    (s.aheadOf n.nsid 0 n.nuse).resyncFirst n.nsid 0 n.nuse = false ∧ s.readyPipes ≠ [] ∧ s.containerOf n = (cont, bad, u) ∧
    off = c.x.cdw13 + c.x.cdw14 % 256 * 2 ^ 32 ∧ fo = findFrame n cont (c.x.cdw10 + c.x.cdw11 * 2 ^ 32) (c.x.cdw12 % 8) (c.x.cdw12 / 2 ^ 16) ∧ u.hcmd k = some c) :=
  ⟨⟨wQ [wHc (wIo 8 1 62 1)], wKey, wHc (wIo 8 1 62 1), wNs1, by decide +kernel⟩,
   ⟨{ wQ [wHc ({ wIo 9 1 0 0 with cdw11 := 4 })] with mem := { wOn.mem with hostA := memWriteN [] 0x1000 (leBytes 4 0 ++ leBytes 4 2 ++ leBytes 8 5) } },
    wKey, wHc ({ wIo 9 1 0 0 with cdw11 := 4 }), wNs1, by decide +kernel⟩,
   ⟨{ wQ [wHc ({ wIo 9 1 0 0 with cdw11 := 4 })] with mem := { wOn.mem with hostA := memWriteN [] 0x1000 (leBytes 4 0 ++ leBytes 4 60 ++ leBytes 8 5) } },
    wKey, wHc ({ wIo 9 1 0 0 with cdw11 := 4 }), wNs1, by decide +kernel⟩,
   ⟨wPipes (wQ [wHc ({ wIo 0x82 0x10000 5 0x300 with cdw15 := 4096 })]), ((wPipes (wQ [wHc ({ wIo 0x82 0x10000 5 0x300 with cdw15 := 4096 })])).containerOf wNsT).2.2, wKey,
    wHc ({ wIo 0x82 0x10000 5 0x300 with cdw15 := 4096 }), wNsT, [], [], none, 0, 4096, by decide +kernel⟩⟩

/-- `wQ` with function 0's memory namespace mapped. -/
def wSlm (cs : List HCmd) : State := { wQ cs with xlate := [⟨0, slmVa, 1, true, true, false, .dram, 0⟩] }

/-- `wQ` with the map page of namespace 1 lost. -/
def wLostPage (cs : List HCmd) : State := { wQ cs with media := { (wQ []).media with lostPages := [4294967296] } }

theorem met_HostCommandsRun_3 :
  (∃ (s : State) (k : CmdKey) (c : HCmd) (n : Ns) (op e : Nat), (op = 135 ∧ e = 1 ∨ op = 139 ∧ e = 0 ∨ op = 143 ∧ e = 2) ∧ s.readyCmd k op = some c ∧ s.ioNs c.x = some n ∧ n.kind = NsKind.compute ∧ n.nsid = 1024 + k.fn ∧ s.offline = false ∧
    64 ≤ dptrLen c.x.dptr ∧ (e = 0 → (List.filter (fun x => x.engine == 0) s.jobs.queue).length < 1024))
  ∧ (∃ (s : State) (k : CmdKey) (c : HCmd) (n : Ns) (b : Nat × Nat) (out : Bytes) (bs : Bytes), s.hcmd k = some c ∧ c.phase = CmdPhase.ready ∧ s.ioNs c.x = some n ∧
    n.kind = NsKind.memory ∧ s.offline = false ∧ s.slmBase c.x = some b ∧ slmByte c.x + c.x.cdw12 ≤ b.2 ∧ ioShort c.x c.x.cdw12 = false ∧
    out = s.fromHost k.fn c.x.dptr c.x.cdw12 ∧ s.mem.poisoned Target.dram (b.1 + slmByte c.x) c.x.cdw12 = false ∧ s.xread k.fn (slmVa + slmByte c.x) c.x.cdw12 = Except.ok bs)
  ∧ (∃ (s : State) (k : CmdKey) (c : HCmd) (n : Ns) (b : Nat × Nat) (out : Bytes), s.hcmd k = some c ∧ c.phase = CmdPhase.ready ∧ s.ioNs c.x = some n ∧
    n.kind = NsKind.memory ∧ s.offline = false ∧ s.slmBase c.x = some b ∧ slmByte c.x + c.x.cdw12 ≤ b.2 ∧ ioShort c.x c.x.cdw12 = false ∧
    out = s.fromHost k.fn c.x.dptr c.x.cdw12 ∧ s.mem.poisoned Target.dram (b.1 + slmByte c.x) c.x.cdw12 = true)
  ∧ (∃ (s : State) (k : CmdKey) (c : HCmd) (n : Ns) (b : Nat × Nat) (out : Bytes), s.hcmd k = some c ∧ c.phase = CmdPhase.ready ∧ s.ioNs c.x = some n ∧
    n.kind = NsKind.memory ∧ s.offline = false ∧ s.slmBase c.x = some b ∧ slmByte c.x + c.x.cdw12 ≤ b.2 ∧ ioShort c.x c.x.cdw12 = false ∧
    out = s.fromHost k.fn c.x.dptr c.x.cdw12 ∧ xfault s.xlate k.fn Need.w (piecesOf (slmVa + slmByte c.x) (List.length out)) = none)
  ∧ (∃ (s : State) (k : CmdKey) (c : HCmd) (n : Ns) (b : Nat × Nat) (out : Bytes) (a : Nat), s.hcmd k = some c ∧ c.phase = CmdPhase.ready ∧ s.ioNs c.x = some n ∧
    n.kind = NsKind.memory ∧ s.offline = false ∧ s.slmBase c.x = some b ∧ slmByte c.x + c.x.cdw12 ≤ b.2 ∧ ioShort c.x c.x.cdw12 = false ∧
    out = s.fromHost k.fn c.x.dptr c.x.cdw12 ∧ xfault s.xlate k.fn Need.w (piecesOf (slmVa + slmByte c.x) (List.length out)) = some a)
  ∧ (∃ (s : State) (k : CmdKey) (c : HCmd) (n : Ns) (b : Nat × Nat) (r : Nat × Nat × Nat) (m : Nat), s.hcmd k = some c ∧ c.phase = CmdPhase.ready ∧
    s.ioNs c.x = some n ∧ n.kind = NsKind.memory ∧ s.offline = false ∧ s.slmBase c.x = some b ∧ s.copySources c.x = [r] ∧
    s.ioCheck (have __src : IoCmd := c.x; { __src with nsid := r.1 }) false r.2.1 r.2.2 = 0 ∧ slmByte c.x + 4096 * r.2.2 ≤ b.2 ∧
    s.pageLost r.1 r.2.1 r.2.2 = false ∧ m = (s.queueReads k r.1 r.2.1 r.2.2).1 ∧ m ≠ 0)
  ∧ (∃ (s : State) (k : CmdKey) (c : HCmd) (op st : Nat) (wr : Bool), op ∈ [2, 5, 12, 1, 8] ∧ wr = (op == 1 || op == 8) ∧ s.readyCmd k op = some c ∧
    s.ioCheck c.x wr (ioLba c.x) (ioNlb c.x) = st ∧ st ≠ 0)
 :=
  ⟨⟨wQ [wHc (wIo 135 0x400 0 0)], wKey, wHc (wIo 135 0x400 0 0), wNsC, 135, 1, by decide +kernel⟩,
   ⟨wSlm [wHc (wIo 2 0x600 0x1FFFF0 16)], wKey, wHc (wIo 2 0x600 0x1FFFF0 16), wNsM, (0, 0x200000), List.replicate 16 0, List.replicate 16 0, by decide +kernel⟩,
   ⟨{ wSlm [wHc (wIo 2 0x600 0x1FFFF0 16)] with mem := { wOn.mem with poison := [0x7FFF] } }, wKey, wHc (wIo 2 0x600 0x1FFFF0 16), wNsM, (0, 0x200000), List.replicate 16 0, by decide +kernel⟩,
   ⟨wSlm [wHc (wIo 2 0x600 0x1FFFF0 16)], wKey, wHc (wIo 2 0x600 0x1FFFF0 16), wNsM, (0, 0x200000), List.replicate 16 0, by decide +kernel⟩,
   ⟨wQ [wHc (wIo 2 0x600 0x1FFFF0 16)], wKey, wHc (wIo 2 0x600 0x1FFFF0 16), wNsM, (0, 0x200000), List.replicate 16 0, _, rfl, rfl, rfl, rfl, rfl, rfl, by decide +kernel, by decide +kernel, by decide +kernel, some_of 0 (by decide +kernel)⟩,
   ⟨{ wQ [wHc (wIo 2 0x600 0x1FF000 0)] with mem := { wOn.mem with hostA := memWriteN [] 0x1000 (leBytes 4 1 ++ leBytes 4 0 ++ leBytes 8 5) } }, wKey,
    wHc (wIo 2 0x600 0x1FF000 0), wNsM, (0, 0x200000), (1, 5, 1), 1, by decide +kernel⟩,
   ⟨wQ [wHc (wIo 2 1 64 0)], wKey, wHc (wIo 2 1 64 0), 2, Nv.outOfRange, false, by decide +kernel⟩⟩

theorem met_HostCommandsRun_4 :
  (∃ (s t : State) (k : CmdKey) (c : HCmd) (n : Ns) (op : Nat) (wr : Bool), op ∈ [2, 5, 12, 1, 8] ∧ wr = (op == 1 || op == 8) ∧ t = s ∧ s.readyCmd k op = some c ∧
    s.ioCheck c.x wr (ioLba c.x) (ioNlb c.x) = 0 ∧ s.ioNs c.x = some n ∧ ioShort c.x (4096 * ioNlb c.x) = false ∧ s.pageLost n.nsid (ioLba c.x) (ioNlb c.x) = true ∧ op = 2)
  ∧ (∃ (s t : State) (k : CmdKey) (c : HCmd) (n : Ns) (op : Nat) (wr : Bool), op ∈ [2, 5, 12, 1, 8] ∧ wr = (op == 1 || op == 8) ∧ t = s ∧ s.readyCmd k op = some c ∧
    s.ioCheck c.x wr (ioLba c.x) (ioNlb c.x) = 0 ∧ s.ioNs c.x = some n ∧ ioShort c.x (4096 * ioNlb c.x) = false ∧ s.pageLost n.nsid (ioLba c.x) (ioNlb c.x) = true ∧ op = 5)
  ∧ (∃ (s t : State) (k : CmdKey) (c : HCmd) (n : Ns) (op : Nat) (wr : Bool), op ∈ [2, 5, 12, 1, 8] ∧ wr = (op == 1 || op == 8) ∧ t = s ∧ s.readyCmd k op = some c ∧
    s.ioCheck c.x wr (ioLba c.x) (ioNlb c.x) = 0 ∧ s.ioNs c.x = some n ∧ ioShort c.x (4096 * ioNlb c.x) = false ∧ s.pageLost n.nsid (ioLba c.x) (ioNlb c.x) = true ∧ op = 12)
  ∧ (∃ (s t : State) (k : CmdKey) (c : HCmd) (n : Ns) (op : Nat) (wr : Bool), op ∈ [2, 5, 12, 1, 8] ∧ wr = (op == 1 || op == 8) ∧ t = s ∧ s.readyCmd k op = some c ∧
    s.ioCheck c.x wr (ioLba c.x) (ioNlb c.x) = 0 ∧ s.ioNs c.x = some n ∧ ioShort c.x (4096 * ioNlb c.x) = false ∧ s.pageLost n.nsid (ioLba c.x) (ioNlb c.x) = true ∧ op = 1)
  ∧ (∃ (s t : State) (k : CmdKey) (c : HCmd) (n : Ns) (op : Nat) (wr : Bool), op ∈ [2, 5, 12, 1, 8] ∧ wr = (op == 1 || op == 8) ∧ t = s ∧ s.readyCmd k op = some c ∧
    s.ioCheck c.x wr (ioLba c.x) (ioNlb c.x) = 0 ∧ s.ioNs c.x = some n ∧ ioShort c.x (4096 * ioNlb c.x) = false ∧ s.pageLost n.nsid (ioLba c.x) (ioNlb c.x) = true ∧ op = 8) :=
  ⟨⟨wLostPage [wHc (wIo 2 1 62 1)], _, wKey, wHc (wIo 2 1 62 1), wNs1, 2, false, by decide +kernel, rfl, rfl, by decide +kernel⟩,
   ⟨wLostPage [wHc (wIo 5 1 62 1)], _, wKey, wHc (wIo 5 1 62 1), wNs1, 5, false, by decide +kernel, rfl, rfl, by decide +kernel⟩,
   ⟨wLostPage [wHc (wIo 12 1 62 1)], _, wKey, wHc (wIo 12 1 62 1), wNs1, 12, false, by decide +kernel, rfl, rfl, by decide +kernel⟩,
   ⟨wLostPage [wHc (wIo 1 1 62 1)], _, wKey, wHc (wIo 1 1 62 1), wNs1, 1, true, by decide +kernel, rfl, rfl, by decide +kernel⟩,
   ⟨wLostPage [wHc (wIo 8 1 62 1)], _, wKey, wHc (wIo 8 1 62 1), wNs1, 8, true, by decide +kernel, rfl, rfl, by decide +kernel⟩⟩

theorem met_AdminCommandsRun_1 :
  (∃ (s : State) (c : Cmd) (qid size vec : Nat), s.adminReady c.fn = true ∧ s.qidOk c.fn qid = true ∧ s.cq c.fn qid = none ∧ 2 ≤ size ∧ size ≤ 16384 ∧
    vec < vectorsOf c.fn)
  ∧ (∃ (s : State) (c : Cmd) (qid size cqid : Nat), s.adminReady c.fn = true ∧ cqid ≠ 0 ∧ (s.cq c.fn cqid).isSome = true ∧ s.qidOk c.fn qid = true ∧
    s.sq c.fn qid = none ∧ 2 ≤ size ∧ size ≤ 16384)
  ∧ (∃ (s : State) (c : Cmd) (qid : Nat), s.adminReady c.fn = true ∧ qid ≠ 0 ∧ (s.sq c.fn qid).isSome = true)
  ∧ (∃ (s : State) (c : Cmd) (qid : Nat), s.adminReady c.fn = true ∧ qid ≠ 0 ∧ (s.cq c.fn qid).isSome = true ∧ (∀ q ∈ s.host.sqs, ¬(q.fn = c.fn ∧
    q.cqid = qid ∧ q.qid ≠ 0))) :=
  ⟨⟨wQ [], wCmd, 2, 2, 2047, by decide +kernel⟩,
   ⟨wQ [], wCmd, 15, 16384, 1, by decide +kernel⟩,
   ⟨wQ [], wCmd, 1, by decide +kernel⟩,
   ⟨{ wQ [] with host := { (wQ []).host with sqs := [] } }, wCmd, 1, by decide +kernel⟩⟩

theorem met_AdminCommandsRun_2 :
  (∃ (s u : State) (c : Cmd) (lid off len : Nat) (page : Bytes), s.adminReady c.fn = true ∧ s.logPage c.fn lid = Except.ok (page, u) ∧ lid ≠ 197 ∧
    off % 4 = 0 ∧ off < List.length page ∧ len ≤ dptrLen c.dptr)
  ∧ (∃ (s : State) (c : Cmd), s.adminReady c.fn = true)
  ∧ (∃ (s : State) (c : Cmd) (sqid acid : Nat) (h : HCmd), s.adminReady c.fn = true ∧ s.hcmd { fn := c.fn, sq := sqid, cid := acid } = some h ∧
    h.phase = CmdPhase.waits)
  ∧ (∃ (s : State) (c : Cmd) (sqid acid : Nat) (h : HCmd), s.adminReady c.fn = true ∧ s.hcmd { fn := c.fn, sq := sqid, cid := acid } = some h ∧
    h.phase = CmdPhase.running ∧ s.progCores { fn := c.fn, sq := sqid, cid := acid } = []) :=
  ⟨⟨wQ [], (wQ []), wCmd, 0xC1, 0, 0, ((wQ []).frozenPage 0), by decide +kernel⟩,
   ⟨wQ [], wCmd, by decide +kernel⟩,
   ⟨wQ [{ wHc (wIo 2 1 5 0) with phase := .waits }], wCmd, 1, 7, { wHc (wIo 2 1 5 0) with phase := .waits }, by decide +kernel⟩,
   ⟨wQ [{ wHc (wIo 2 1 5 0) with phase := .running }], wCmd, 1, 7, { wHc (wIo 2 1 5 0) with phase := .running }, by decide +kernel⟩⟩

theorem met_AdminCommandsRun_3 :
  (∃ (s : State) (c : Cmd) (fid : Nat) (v : BitVec 32), s.adminReady c.fn = true ∧ featureOk c.fn fid v.toNat = true ∧ fid ≠ 7)
  ∧ (∃ (s : State) (c : Cmd) (fid : Nat), s.adminReady c.fn = true ∧ featureListed fid = true)
  ∧ (∃ (s : State) (c : Cmd), s.adminReady c.fn = true ∧ ((List.filter (fun (x : Cmd) => x.fn == c.fn) s.host.aers).length < 8) ∧ (∀ e ∈ s.host.events,
    e.fn = c.fn → (c.fn, e.page) ∈ s.host.masked))
  ∧ (∃ (s : State) (c : Cmd) (e : AsyncEv) (es : List AsyncEv), s.adminReady c.fn = true ∧ s.host.events = e :: es ∧ e.fn = c.fn ∧ (e.fn,
    e.page) ∉ s.host.masked ∧ (∀ a ∈ s.host.aers, a.fn ≠ c.fn)) :=
  ⟨⟨wQ [], wCmd, 1, 7, by decide +kernel⟩,
   ⟨wQ [], wCmd, 1, by decide +kernel⟩,
   ⟨wQ [], wCmd, by decide +kernel⟩,
   ⟨{ wQ [] with host := { (wQ []).host with events := [⟨0, 2, 1, 0xC1⟩] } }, wCmd, ⟨0, 2, 1, 0xC1⟩, [], by decide +kernel⟩⟩

theorem met_AdminCommandsRun_4 :
  (∃ (s : State) (c : Cmd) (nsze id num slot : Nat), s.adminReady c.fn = true ∧ s.readOnly = false ∧ nsze ≠ 0 ∧ s.nsFits nsze = true ∧
    s.freeNsid = some id ∧ (s.newMediaKey id).1 = some (num, slot))
  ∧ (∃ (s : State) (c : Cmd) (n : Ns), s.adminReady c.fn = true ∧ s.seesNs c.fn c.nsid = some n ∧ n.kind = NsKind.block ∧ s.readOnly = false)
  ∧ (∃ (s : State) (c : Cmd) (n : Ns) (f : Nat), s.adminReady c.fn = true ∧ s.seesNs c.fn c.nsid = some n ∧
    (n.kind = NsKind.block ∨ n.kind = NsKind.take) ∧ isPf f = true ∧ (s.fn f).isSome = true ∧ f ∉ n.attached)
  ∧ (∃ (s : State) (c : Cmd) (n : Ns) (f : Nat), s.adminReady c.fn = true ∧ s.seesNs c.fn c.nsid = some n ∧
    (n.kind = NsKind.block ∨ n.kind = NsKind.take) ∧ isPf f = true ∧ (s.fn f).isSome = true ∧ f ∈ n.attached) :=
  ⟨⟨wr (wQ []) [(R.MEDIA.MAXCAP_MB, 100000)], wCmd, 10, 2, 1, 0, by decide +kernel⟩,
   ⟨wQ [], wCmd, wNs1, by decide +kernel⟩,
   ⟨{ wQ [] with ns := [{ wNs1 with attached := [] }] }, wCmd, { wNs1 with attached := [] }, 0, by decide +kernel⟩,
   ⟨wQ [], wCmd, wNs1, 0, by decide +kernel⟩⟩

theorem met_AdminCommandsRun_5 :
  (∃ (s : State) (c : Cmd) (n : Ns) (ses : BitVec 3) (num slot : Nat), s.adminReady c.fn = true ∧ s.seesNs c.fn c.nsid = some n ∧
    n.kind = NsKind.block ∧ ses.toNat ≤ 1 ∧ s.readOnly = false ∧ (s.newMediaKey n.nsid).1 = some (num, slot))
  ∧ (∃ (s : State) (c : Cmd) (d : Bytes), s.adminReady c.fn = true ∧ 64 ≤ List.length d ∧ List.length d = 64 + descN d 12 4 ∧ descN d 16 8 = 0 ∧
    descN d 24 8 = 0 ∧ descN d 56 8 = 0)
  ∧ (∃ (s : State) (c : Cmd) (b : Bytes), s.adminReady c.fn = true ∧ assoc s.host.secOut c.fn = some b)
  ∧ (∃ (s : State) (c : Cmd) (id : BitVec 64), s.adminReady c.fn = true ∧ isPf c.fn = true ∧ s.holds (Origin.pcie c.fn) Role.operator = true ∧
    s.takeLive = true ∧ s.takeId = id.toNat) :=
  ⟨⟨wQ [], wCmd, wNs1, 1, 1, 0, by decide +kernel⟩,
   ⟨wQ [], wCmd, (wDesc [(0, 1, 3), (12, 4, 40)] ++ List.replicate 40 0), by decide +kernel⟩,
   ⟨{ wQ [] with host := { (wQ []).host with secOut := [(0, [1, 2])] } }, wCmd, [1, 2], by decide +kernel⟩,
   ⟨{ wr wHost [(R.TAKE.TAKE_STATE_STATE, 2), (R.TAKE.TAKE_ID_ID, 1)] with take := { TakeSt.reset with c := some wC } }, wCmd, 1, by decide +kernel⟩⟩

theorem met_AdminCommandsRun_6 :
  (∃ (s : State) (c : Cmd) (id : BitVec 64) (n : Ns) (i : TakeInfo), s.adminReady c.fn = true ∧ isPf c.fn = true ∧ s.readOnly = false ∧
    s.holds (Origin.pcie c.fn) Role.operator = true ∧
    (List.find? (fun (n : Ns) => Option.map (fun (x : TakeInfo) => x.takeId) n.tk == some id.toNat) s.ns = some n) ∧ n.tk = some i ∧ i.opened = false ∧
    s.ringWindows id.toNat = false ∧ (∀ w ∈ s.host.waiting, w.2 ≠ AdminFor.takeDeleted n.nsid))
  ∧ (∃ (s : State) (c : Cmd), s.adminReady c.fn = true ∧ isPf c.fn = true ∧ s.holds (Origin.pcie c.fn) Role.operator = false ∧ s.readOnly = false)
  ∧ (∃ (s : State) (c : Cmd) (op : BitVec 8), s.adminReady c.fn = true ∧ adminListed c.fn op.toNat = false) :=
  ⟨⟨wQ [], wCmd, 1, wNsT, ⟨1, 1, 1, 1, false, false, 0, 0, 0, 0, 10, 8192, 0, 0, 0, 0⟩, by decide +kernel⟩,
   ⟨{ wQ [] with trust := { wHost.trust with sessions := [] } }, wCmd, by decide +kernel⟩,
   ⟨wQ [], wCmd, 0x7F, by decide +kernel⟩⟩

theorem met_GrantsAreExclusive : ∃ (s : State) (p q : Prof) (f : Nat) (r : Prof), s.fitProf p = some q ∧ f ∈ s.claimants ∧ f ≠ p.func ∧ r ∈ s.claims f :=
  ⟨{ wTen [] with tenant := { (wTen []).tenant with fns := [wFn 0, { wFn 1 with p := { (wFn 1).p with cores := 8, banks := 8, keyBase := 128, keys := 16, ctxBase := 64, ctxs := 8, bitBase := 0, bits := 64 } }] } },
    wProf, { wProf with keyBase := 144, ctxBase := 72, bitBase := 64 }, 0, (wFn 0).p, by decide +kernel⟩

theorem met_TenantCommandsRun_1 :
  (∃ (s : State) (c : Cmd) (func : Nat) (d : Bytes) (p : Prof), s.adminReady c.fn = true ∧ c.fn = 0 ∧ s.updating = false ∧ s.profLegal func d = true ∧
    s.vfEnabled func = false ∧ s.fitProf (profOfBytes d) = some p)
  ∧ (∃ (s : State) (c : Cmd) (func st : Nat) (d : Bytes), s.adminReady c.fn = true ∧
    (st = if c.fn ≠ 0 then Nv.badOpcode else if s.updating = true then Nv.held else if s.profLegal func d = false then Nv.badField else if s.vfEnabled func = true ∨ s.fitProf (profOfBytes d) = none then Nv.held else 0) ∧
    st ≠ 0)
  ∧ (∃ (s : State) (c : Cmd) (func : Nat), s.adminReady c.fn = true ∧ c.fn = 0 ∧ s.updating = false ∧ func ≤ 257 ∧ s.vfEnabled func = false)
  ∧ (∃ (s : State) (n : Nat), (s.fn 0).isSome = true ∧ n ≤ 256 ∧ s.get R.TENANT.VFS_ENABLED < n ∧ s.tenant.resetting = []) :=
  ⟨⟨wTen [], wCmd, 2, wProfBytes, { wProf with keyBase := 128, ctxBase := 64, bitBase := 8 }, by decide +kernel⟩,
   ⟨wTen [], wCmd, 2, Nv.badField, [], by decide +kernel⟩,
   ⟨{ wTen [] with tenant := { (wTen []).tenant with profs := [wProf, { wProf with func := 0x101 }] } }, wCmd, 0x101, by decide +kernel⟩,
   ⟨wTen [], 2, by decide +kernel⟩⟩

theorem met_TenantCommandsRun_2 :
  (∃ (s : State) (n : Nat), n ≤ s.get R.TENANT.VFS_ENABLED)
  ∧ (∃ (s : State) (f : Nat), f ≠ 0 ∧ (s.fn f).isSome = true ∧ s.isResetting f = false)
  ∧ (∃ (s : State) (f : Nat), s.isResetting f = true ∧ f ≠ 0)
  ∧ (∃ (s : State) (f start : Nat) (x : Fn), assoc s.tenant.resetting f = some start ∧ s.fn f = some x ∧ s.staysEnabled f = true ∧ f ∉ s.tenant.newProf) :=
  ⟨⟨wr (wTen []) [(R.TENANT.VFS_ENABLED, 1)], 0, by decide +kernel⟩,
   ⟨{ wTen [] with jobs := ⟨[⟨1, .cluster 0, 0, 1, [], none, none⟩, ⟨2, .cluster 0, 0, 0, [], none, none⟩], [], 3, ⟨none, []⟩, []⟩ }, 1, by decide +kernel⟩,
   ⟨{ wTen [] with tenant := { (wTen []).tenant with resetting := [(0, 5), (1, 9)] } }, 1, by decide +kernel⟩,
   ⟨{ wTen [wHc (wIo 2 1 5 0)] with tenant := { (wTen []).tenant with resetting := [(0, 5)] } }, 0, 5, { wFn 0 with ranges := [(1, [⟨0x600, 8192, 4096⟩])] },
    by decide +kernel⟩⟩

theorem met_TenantCommandsRun_3 :
  (∃ (s u : State) (c : Cmd) (slot : Nat) (d img : Bytes) (f : Fn), s.adminReady c.fn = true ∧ s.loadBlocks c.fn = false ∧ s.ownNs c 1024 = some f ∧
    slot < 16 ∧ s.imageOk c.fn d = true ∧ s.tableOk f d = true ∧ img = List.take (descN d 40 8) d ∧ (s.placeProg c.fn slot img).remap f = some u)
  ∧ (∃ (s : State) (c : Cmd) (slot : Nat) (d : Bytes) (f : Fn), s.adminReady c.fn = true ∧ s.loadBlocks c.fn = false ∧ s.ownNs c 1024 = some f ∧
    slot < 16 ∧ s.imageOk c.fn d = true ∧ s.tableOk f d = false)
  ∧ (∃ (s : State) (c : Cmd) (slot : Nat) (f : Fn) (p : ProgSlot), s.adminReady c.fn = true ∧ s.ownNs c 1024 = some f ∧ s.prog c.fn slot = some p)
  ∧ (∃ (s : State) (k : CmdKey) (h : HCmd) (ns : Ns) (f : Fn) (p : ProgSlot) (r : MemRange) (rs : List MemRange) (d : Bytes) (n : Nat),
    s.hcmd k = some h ∧ h.phase = CmdPhase.ready ∧ s.ioNs h.x = some ns ∧ ns.kind = NsKind.compute ∧ ns.nsid = 1024 + k.fn ∧ s.fn k.fn = some f ∧
    s.offline = false ∧ s.prog k.fn (h.x.cdw10 % 65536) = some p ∧ p.active = true ∧ assoc f.ranges (h.x.cdw10 / 65536) = some (r :: rs) ∧
    2 ≤ h.x.cdw11 ∧ h.x.cdw11 ≤ 4096 ∧ h.x.cdw11 ≤ dptrLen h.x.dptr ∧ h.x.cdw11 ≤ r.len ∧ d = s.fromHost k.fn h.x.dptr h.x.cdw11 ∧
    n = leNat (List.take 2 d) ∧ 1 ≤ n ∧ n ≤ (coresOf f.p.cores).length ∧ n ≤ (s.idleCores f).length ∧ descN p.image 16 8 % 2 = 0 ∧ descN p.image 16 8 < 2 ^ 48)
  ∧ (∃ (s : State) (k : CmdKey) (h : HCmd) (ns : Ns) (f : Fn) (p : ProgSlot) (r : MemRange) (rs : List MemRange) (d : Bytes) (n : Nat),
    s.hcmd k = some h ∧ h.phase = CmdPhase.ready ∧ s.ioNs h.x = some ns ∧ ns.kind = NsKind.compute ∧ ns.nsid = 1024 + k.fn ∧ s.fn k.fn = some f ∧
    s.offline = false ∧ s.prog k.fn (h.x.cdw10 % 65536) = some p ∧ p.active = true ∧ assoc f.ranges (h.x.cdw10 / 65536) = some (r :: rs) ∧
    2 ≤ h.x.cdw11 ∧ h.x.cdw11 ≤ 4096 ∧ h.x.cdw11 ≤ dptrLen h.x.dptr ∧ h.x.cdw11 ≤ r.len ∧ d = s.fromHost k.fn h.x.dptr h.x.cdw11 ∧
    n = leNat (List.take 2 d) ∧ 1 ≤ n ∧ n ≤ (coresOf f.p.cores).length ∧ n ≤ (s.idleCores f).length ∧
    (descN p.image 16 8 % 2 = 1 ∨ 2 ^ 48 ≤ descN p.image 16 8) ∧ descN p.image 24 8 = 0)
  ∧ (∃ (s : State) (k : CmdKey) (h : HCmd) (ns : Ns) (f : Fn) (p : ProgSlot) (r : MemRange) (rs : List MemRange) (d : Bytes) (n : Nat),
    s.hcmd k = some h ∧ h.phase = CmdPhase.ready ∧ s.ioNs h.x = some ns ∧ ns.kind = NsKind.compute ∧ ns.nsid = 1024 + k.fn ∧ s.fn k.fn = some f ∧
    s.offline = false ∧ s.prog k.fn (h.x.cdw10 % 65536) = some p ∧ p.active = true ∧ assoc f.ranges (h.x.cdw10 / 65536) = some (r :: rs) ∧
    2 ≤ h.x.cdw11 ∧ h.x.cdw11 ≤ 4096 ∧ h.x.cdw11 ≤ dptrLen h.x.dptr ∧ h.x.cdw11 ≤ r.len ∧ d = s.fromHost k.fn h.x.dptr h.x.cdw11 ∧
    n = leNat (List.take 2 d) ∧ 1 ≤ n ∧ n ≤ (coresOf f.p.cores).length ∧ (s.idleCores f).length < n) :=
  ⟨⟨wTen [], _, { wCmd with nsid := 0x400 }, 3, wImg, wImg, { wFn 0 with ranges := [(1, [⟨0x600, 8192, 4096⟩])] }, by decide +kernel, by decide +kernel,
    by decide +kernel, by decide +kernel, by decide +kernel, by decide +kernel, by decide +kernel, some_of wOn (by decide +kernel)⟩,
   ⟨wTen [], { wCmd with nsid := 0x400 }, 15, let i := overlay wImg 10 [1, 0]; overlay i 80 (sha256 (overlay i 80 (List.replicate 32 0))),
    { wFn 0 with ranges := [(1, [⟨0x600, 8192, 4096⟩])] }, by decide +kernel⟩,
   ⟨wTen [], { wCmd with nsid := 0x400 }, 1, { wFn 0 with ranges := [(1, [⟨0x600, 8192, 4096⟩])] }, ⟨0, 1, wImg, true⟩, by decide +kernel⟩,
   ⟨{ wTen [wHc ({ wIo 0x83 0x400 0x10001 0 with cdw11 := 8 })] with mem := { wOn.mem with hostA := memWriteN [] 0x1000 (leBytes 2 1 ++ leBytes 6 77) } },
    wKey, wHc ({ wIo 0x83 0x400 0x10001 0 with cdw11 := 8 }), wNsC, { wFn 0 with ranges := [(1, [⟨0x600, 8192, 4096⟩])] }, ⟨0, 1, wImg, true⟩, ⟨0x600,
    8192, 4096⟩, [], (leBytes 2 1 ++ leBytes 6 77), 1, by decide +kernel⟩,
   ⟨{ wTen [wHc ({ wIo 0x83 0x400 0x10001 0 with cdw11 := 8 })] with host := { (wTen [wHc ({ wIo 0x83 0x400 0x10001 0 with cdw11 := 8 })]).host with progs := [⟨0, 1, wBytes 296 [(16, 8, 0x1001)], true⟩] }, mem := { wOn.mem with hostA := memWriteN [] 0x1000 (leBytes 2 1 ++ leBytes 6 77) } },
    wKey, wHc ({ wIo 0x83 0x400 0x10001 0 with cdw11 := 8 }), wNsC, { wFn 0 with ranges := [(1, [⟨0x600, 8192, 4096⟩])] }, ⟨0, 1, wBytes 296 [(16, 8, 0x1001)], true⟩, ⟨0x600,
    8192, 4096⟩, [], (leBytes 2 1 ++ leBytes 6 77), 1, by decide +kernel⟩,
   ⟨{ wTen [wHc ({ wIo 0x83 0x400 0x10001 0 with cdw11 := 8 })] with cores := (wTen []).cores.set 9 Core.off, mem := { wOn.mem with hostA := memWriteN [] 0x1000 (leBytes 2 1 ++ leBytes 6 77) } },
    wKey, wHc ({ wIo 0x83 0x400 0x10001 0 with cdw11 := 8 }), wNsC, { wFn 0 with ranges := [(1, [⟨0x600, 8192, 4096⟩])] }, ⟨0, 1, wImg, true⟩, ⟨0x600,
    8192, 4096⟩, [], (leBytes 2 1 ++ leBytes 6 77), 1, by decide +kernel⟩⟩

theorem met_TenantCommandsRun_4 :
  (∃ (s : State) (k : CmdKey) (h : HCmd) (ns : Ns) (f : Fn) (p : ProgSlot) (r : MemRange) (rs : List MemRange) (d : Bytes) (n : Nat),
    s.hcmd k = some h ∧ h.phase = CmdPhase.ready ∧ s.ioNs h.x = some ns ∧ ns.kind = NsKind.compute ∧ ns.nsid = 1024 + k.fn ∧ s.fn k.fn = some f ∧
    s.offline = false ∧ s.prog k.fn (h.x.cdw10 % 65536) = some p ∧ p.active = true ∧ assoc f.ranges (h.x.cdw10 / 65536) = some (r :: rs) ∧
    2 ≤ h.x.cdw11 ∧ h.x.cdw11 ≤ 4096 ∧ h.x.cdw11 ≤ dptrLen h.x.dptr ∧ h.x.cdw11 ≤ r.len ∧ d = s.fromHost k.fn h.x.dptr h.x.cdw11 ∧
    n = leNat (List.take 2 d) ∧ 1 ≤ n ∧ n ≤ (coresOf f.p.cores).length ∧ (s.idleCores f).length < n)
  ∧ (∃ (s : State) (fn : Nat) (k : CmdKey) (q : ProgRun) (c : Nat) (w : BitVec 64), s.endedProg fn = some k ∧ (s.hcmd k).isSome = true ∧
    (∀ x ∈ s.progCores k, x.2.ended ≠ some none) ∧ (c, q) ∈ s.progCores k ∧ (∀ x ∈ s.progCores k, x.2.index = 0 → x = (c, q)) ∧ q.index = 0 ∧
    q.ended = some (some w))
  ∧ (∃ (s u : State) (c : Cmd) (i : Nat) (f : Fn) (rs : List MemRange) (sets : List (Nat × List MemRange)), s.adminReady c.fn = true ∧
    s.ownNs c 1536 = some f ∧ rangesOk c.fn rs = true ∧ (∀ r ∈ rs, r.start + r.len ≤ f.p.dram * 2 ^ 20) ∧
    (List.find? (fun (i : Nat) => (assoc f.ranges i).isNone) (List.range 16) = some i) ∧ sets = assocSet f.ranges i rs ∧
    ((s.modFn c.fn fun (g : Fn) => { g with ranges := sets }).remap { f with ranges := sets } = some u))
  ∧ (∃ (s : State) (c : Cmd) (sel : BitVec 4) (f : Fn) (rs : List MemRange), s.adminReady c.fn = true ∧ s.ownNs c 1536 = some f ∧ (sel = 0 ∨ sel = 2) ∧
    rangesOk c.fn rs = true ∧ (∃ r ∈ rs, f.p.dram * 2 ^ 20 < r.start + r.len)) :=
  ⟨⟨{ wTen [wHc ({ wIo 0x83 0x400 0x10001 0 with cdw11 := 8 })] with cores := wOn.cores, mem := { wOn.mem with hostA := memWriteN [] 0x1000 (leBytes 2 1 ++ leBytes 6 77) } },
    wKey, wHc ({ wIo 0x83 0x400 0x10001 0 with cdw11 := 8 }), wNsC, { wFn 0 with ranges := [(1, [⟨0x600, 8192, 4096⟩])] }, ⟨0, 1, wImg, true⟩, ⟨0x600,
    8192, 4096⟩, [], (leBytes 2 1 ++ leBytes 6 77), 1, by decide +kernel⟩,
   ⟨wEnded 0x500000007, 0, wKey, ⟨0, false, [], false, wKey, 0, some (some 0x500000007), 0⟩, 9, 0x500000007, by decide +kernel⟩,
   ⟨wTen [], _, { wCmd with nsid := 0x600 }, 0, { wFn 0 with ranges := [(1, [⟨0x600, 8192, 4096⟩])] }, [⟨0x600, 4096, 0x1FF000⟩], _, by decide +kernel,
    by decide +kernel, by decide +kernel, by decide +kernel, by decide +kernel, rfl, some_of wOn (by decide +kernel)⟩,
   ⟨wTen [], { wCmd with nsid := 0x600 }, 0, { wFn 0 with ranges := [(1, [⟨0x600, 8192, 4096⟩])] }, [⟨0x600, 8192, 0x1FF000⟩], by decide +kernel⟩⟩

theorem met_SetTimeStepsOnlyWithoutATake :
  (∃ (s : State) (off : Int), 1000 < off.natAbs ∧ s.get R.TAKE.TAKE_STATE_STATE = 0 ∧ 0 ≤ ↑s.time + off)
  ∧ (∃ (s : State) (off : Int), (off.natAbs ≤ 1000 ∨ s.get R.TAKE.TAKE_STATE_STATE ≠ 0) ∧ 100 ≤ s.time ∧ 0 ≤ off)
  ∧ (∃ (s : State) (off : Int), (off.natAbs ≤ 1000 ∨ s.get R.TAKE.TAKE_STATE_STATE ≠ 0) ∧ 100 ≤ s.time ∧ off ≤ 0) :=
  ⟨⟨wDr0, 1001, by decide +kernel⟩,
   ⟨wDr, 5000000, by decide +kernel⟩,
   ⟨wDr, -3000, by decide +kernel⟩⟩

theorem met_DroveLinksAndPackets_1 :
  (∃ (s : State) (p : Port), s.droveOtpRole ≠ 0 ∧ 3 ≤ s.mode ∧ (s.drove.link p).up = false)
  ∧ (∃ (s : State) (p : Port) (f : Flit), (s.drove.link p).up = true ∧ (s.drove.link p).retraining = false ∧ f.crcOk = false)
  ∧ (∃ (s : State) (p : Port) (f : Flit), (s.drove.link p).up = true ∧ (s.drove.link p).retraining = false ∧ f.crcOk = true ∧ bits f.link.toNat 10 2 = 0 ∧
    bits f.link.toNat 22 2 ≠ 3 ∧ bits f.link.toNat 48 2 = 0 ∧ bits f.link.toNat 0 10 = ((s.drove.link p).rxSeq + 1) % 1024)
  ∧ (∃ (s : State) (p : Port) (f : Flit), (s.drove.link p).up = true ∧ (s.drove.link p).retraining = false ∧ f.crcOk = true ∧ bits f.link.toNat 10 2 ≤ 1 ∧
    bits f.link.toNat 22 2 = 2 ∧ bits f.link.toNat 48 2 = 0 ∧ (s.drove.link p).replay ≠ [] ∧
    ackReplay (bits f.link.toNat 12 10) (s.drove.link p).replay = (s.drove.link p).replay ∧ 3 ≤ (s.drove.link p).replays)
  ∧ (∃ (s : State) (p : Port), (s.drove.link p).up = true ∧ (s.drove.link p).retraining = false ∧ (s.drove.link p).replay ≠ []) :=
  ⟨⟨wD (wr wDr0 []) fun d => { d with a := DroveLink.down, role := 0 }, .a, by decide +kernel⟩,
   ⟨wDr, .a, ⟨false, [3], [], 0⟩, by decide +kernel⟩,
   ⟨wDr, .a, ⟨true, [3], [], 0x0⟩, by decide +kernel⟩,
   ⟨wD wDr fun d => { d with a := { wLk with replays := 3 } }, .a, ⟨true, [], [], 0x803000⟩, by decide +kernel⟩,
   ⟨wD wDr fun d => { d with a := { wLk with replays := 0 } }, .a, by decide +kernel⟩⟩

theorem met_DroveLinksAndPackets_2 :
  (∃ (s : State) (q : IdentPkt), (s.drove.link q.h.port).up = true ∧ (s.drove.link q.h.port).refusal = 0 ∧ q.setId.toNat = s.get R.DROVE.SET_ID_ID ∧
    padTo 16 q.serial ≠ padTo 16 s.serial ∧ s.drove.manages = false)
  ∧ (∃ (s : State) (q : IdentPkt), (s.drove.link q.h.port).up = true ∧ (s.drove.link q.h.port).refusal = 0 ∧ q.setId.toNat ≠ s.get R.DROVE.SET_ID_ID)
  ∧ (∃ (s : State) (q : IdentPkt), (s.drove.link q.h.port).up = true ∧ (s.drove.link q.h.port).refusal = 0 ∧ q.setId.toNat = s.get R.DROVE.SET_ID_ID ∧
    padTo 16 q.serial = padTo 16 s.serial)
  ∧ (∃ (s : State) (q : FormPkt), s.heeds q.h = true ∧ s.drove.epoch ≤ q.epoch.toNat ∧ s.drove.manages = false ∧ s.drove.member = none ∧
    s.drove.held = [] ∧ q.topology = 0 ∧ q.nextIndex.toNat < s.configN) :=
  ⟨⟨wD wDr fun d => { d with a := { wLk with ident := false } }, ⟨wHd, 0x123456789, List.replicate 16 5, .b, 1, 4⟩, by decide +kernel⟩,
   ⟨wD wDr fun d => { d with a := { wLk with ident := false } }, ⟨wHd, 0x12345678A, List.replicate 16 5, .b, 1, 4⟩, by decide +kernel⟩,
   ⟨wD wDr fun d => { d with a := { wLk with ident := false } }, ⟨wHd, 0x123456789, List.replicate 16 0, .b, 1, 4⟩, by decide +kernel⟩,
   ⟨wD wDr fun d => { d with member := none, quorum := false, live := [] }, ⟨wHdAll, 5, 2, 0, 1, 3, 7, 0⟩, by decide +kernel⟩⟩

theorem met_DroveLinksAndPackets_3 :
  (∃ (s : State) (q : FormPkt), q.epoch.toNat < s.drove.epoch)
  ∧ (∃ (s : State) (q : DroveHbPkt), s.heeds q.h = true ∧ s.drove.epoch ≤ q.epoch.toNat ∧ q.h.src.toNat < 32 ∧ s.drove.member ≠ some q.h.src.toNat)
  ∧ (∃ (s : State) (q : TimePkt) (delay : Nat) (off : Int), s.heeds q.h = true ∧
    delay = (if q.echo = 0 then (s.drove.link q.h.port).delay else (s.time - q.echo.toNat - q.hold.toNat) / 2) ∧
    off = ((q.dtime.toNat + delay : Nat) : Int) - (s.time : Int))
  ∧ (∃ (s : State) (q : OrderPkt) (r : Bytes), s.heeds q.h = true ∧ s.drove.epoch ≤ q.epoch.toNat ∧ q.h.dst = 255 ∧ s.drove.member ≠ none ∧
    s.drove.member ≠ some q.h.src.toNat ∧ s.drove.quorum = true ∧ s.drove.manages = false ∧ assoc s.drove.answered (q.opId.toNat, q.phase.toNat) = some r) :=
  ⟨⟨wDr, ⟨wHdAll, 4, 2, 0, 1, 3, 7, 0⟩, by decide +kernel⟩,
   ⟨wDr, ⟨wHdAll, 5, 1, 3, 7, 999⟩, by decide +kernel⟩,
   ⟨wDr, ⟨wHd, 1000000500, 999999000, 200⟩, _, _, by decide +kernel, rfl, rfl⟩,
   ⟨wD wDr fun d => { d with answered := [((7, 0), [0, 0, 9])] }, ⟨wHdAll, 5, 7, 2, 0, 1000500000, []⟩, [0, 0, 9], by decide +kernel⟩⟩

theorem met_DroveLinksAndPackets_4 :
  (∃ (s u v : State) (q : OrderPkt) (a : Option (Nat × Nat × Bytes)) (x : Nat × Nat × Bytes), s.heeds q.h = true ∧ s.drove.epoch ≤ q.epoch.toNat ∧ q.h.dst = 255 ∧ s.drove.member ≠ none ∧
    s.drove.member ≠ some q.h.src.toNat ∧ s.drove.quorum = true ∧ s.drove.manages = false ∧ assoc s.drove.answered (q.opId.toNat, q.phase.toNat) = none ∧
    (u = (s.takePkt q.h 68).passOn q.h fun ttl => orderBytes q.h.src.toNat q.h.dst.toNat ttl q.epoch.toNat q.opId.toNat q.op.toNat q.phase.toNat q.t.toNat q.param) ∧
    u.actOrder q.opId.toNat q.op.toNat q.phase.toNat q.t.toNat q.param = (a, v) ∧ a = some x)
  ∧ (∃ (s u v : State) (q : OrderPkt) (a : Option (Nat × Nat × Bytes)), s.heeds q.h = true ∧ s.drove.epoch ≤ q.epoch.toNat ∧ q.h.dst = 255 ∧ s.drove.member ≠ none ∧
    s.drove.member ≠ some q.h.src.toNat ∧ s.drove.quorum = true ∧ s.drove.manages = false ∧ assoc s.drove.answered (q.opId.toNat, q.phase.toNat) = none ∧
    (u = (s.takePkt q.h 68).passOn q.h fun ttl => orderBytes q.h.src.toNat q.h.dst.toNat ttl q.epoch.toNat q.opId.toNat q.op.toNat q.phase.toNat q.t.toNat q.param) ∧
    u.actOrder q.opId.toNat q.op.toNat q.phase.toNat q.t.toNat q.param = (a, v) ∧ a = none)
  ∧ (∃ (s : State), s.drove.quorum = false)
  ∧ (∃ (s : State) (q : ReplyPkt) (op : SetOp) (c : Cmd) (st : Nat), s.heeds q.h = true ∧ s.drove.epoch ≤ q.epoch.toNat ∧ s.forMe q.h = true ∧
    s.drove.manages = false ∧ (List.find? (fun (x : SetOp) => x.tag == q.opId.toNat) s.drove.held = some op) ∧ leNat (sliceBytes q.result 41 1) ≠ 1 ∧ s.setCmd q.opId.toNat = some c ∧
    st = leNat (sliceBytes q.result 42 2))
  ∧ (∃ (s : State) (q : ReplyPkt) (x : SetOp), s.heeds q.h = true ∧ s.drove.epoch ≤ q.epoch.toNat ∧ s.forMe q.h = true ∧ s.drove.manages = true ∧
    q.result.getD 43 0 ≠ 70 ∧ s.drove.cur = some x ∧ x.opId = q.opId.toNat ∧ x.sent = true ∧ ∀ r ∈ x.replies, r.idx ≠ q.h.src.toNat)
  ∧ (∃ (s : State) (q : MirrorPkt), s.heeds q.h = true ∧ s.drove.epoch ≤ q.epoch.toNat ∧ s.forMe q.h = true) :=
  ⟨⟨wDr, _, _, ⟨wHdAll, 5, 7, 5, 0, 0, []⟩, _, _, by decide +kernel, by decide +kernel, by decide +kernel, by decide +kernel, by decide +kernel,
    by decide +kernel, by decide +kernel, by decide +kernel, rfl, rfl, some_of (0, 0, []) (by decide +kernel)⟩,
   ⟨{ wDr with take := { wDr.take with frames := [wFrame], nextUid := 1 } }, _, _, ⟨wHdAll, 5, 7, 4, 0, 0, []⟩, _, by decide +kernel, by decide +kernel, by decide +kernel,
    by decide +kernel, by decide +kernel, by decide +kernel, by decide +kernel, by decide +kernel, rfl, rfl, by decide +kernel⟩,
   ⟨wD wDr fun d => { d with quorum := false }, by decide +kernel⟩,
   ⟨wHeld (wOp 4 0), ⟨wHd, 5, 9, 0, 0, wBytes 44 [(0, 4, 8), (42, 2, 4)]⟩, wOp 4 0, wCmd, 4, by decide +kernel⟩,
   ⟨wD wDr fun d => { d with role := 1, manager := 2, cur := some { wOp 4 0 with sent := true } }, ⟨wHd, 5, BitVec.ofNat 32 (wOp 4 0).opId, 0, 0, wBytes 44 []⟩,
    { wOp 4 0 with sent := true }, by decide +kernel⟩,
   ⟨wDr, ⟨wHd, 5, 1, [1, 2]⟩, by decide +kernel⟩⟩

theorem met_DroveLinksAndPackets_5 :
  (∃ (s : State) (q : RegReqPkt), s.heeds q.h = true ∧ s.forMe q.h = true)
  ∧ (∃ (s : State) (q : RegRspPkt) (x : SetOp) (c : Cmd), s.heeds q.h = true ∧ s.forMe q.h = true ∧
    (List.find? (fun (x : SetOp) => x.op == 7 && x.sent && x.t == q.h.src.toNat && (reqOf x.param).tag == q.tag) s.drove.held = some x) ∧
    s.setCmd x.tag = some c)
  ∧ (∃ (s : State), s.drove.member ≠ none ∧ (s.drove.link s.drove.down).open_ = true ∧ (s.drove.link s.drove.down).retraining = false ∧
    (s.drove.link s.drove.down).replay.length < 512)
  ∧ (∃ (s : State) (p : Port), (s.drove.link p).open_ = true ∧ (s.drove.link p).retraining = false ∧ (s.drove.link p).replay.length < 512) :=
  ⟨⟨wDr, ⟨wHd, wCtrlReqPkt⟩, by decide +kernel⟩,
   ⟨wHeld ({ wOp 7 0 with param := reqBytes wCtrlReqPkt, sent := true }), ⟨wHd, 1, 0, 0, 55⟩, { wOp 7 0 with param := reqBytes wCtrlReqPkt, sent := true },
    wCmd, by decide +kernel⟩,
   ⟨wDr, by decide +kernel⟩,
   ⟨wDr, .b, by decide +kernel⟩⟩

theorem met_DroveLinksAndPackets_6 :
  (∃ (s : State) (m : Fin 32) (x : Member), (List.find? (fun (x : Member) => x.idx == ↑m) s.drove.live = some x) ∧
    (s.drove.manager ≠ ↑m ∨ s.drove.manages = true))
  ∧ (∃ (s : State) (m : Fin 32) (x : Member), (List.find? (fun (x : Member) => x.idx == ↑m) s.drove.live = some x) ∧ s.drove.manager = ↑m ∧
    s.drove.manages = false)
  ∧ (∃ (s : State) (t0 : Nat), s.syncIn = true ∧ s.drove.syncAt = some t0)
  ∧ (∃ (s : State) (t0 : Nat), s.drove.offSince = some t0 ∧ s.drove.faulted = false) :=
  ⟨⟨wDr, 1, ⟨1, 998000000, 5, 2, 0, 7, true⟩, by decide +kernel⟩,
   ⟨wD wDr fun d => { d with role := 2, standby := some 2 }, 0, ⟨0, 999000000, 5, 1, 0, 7, true⟩, by decide +kernel⟩,
   ⟨{ wD (wr wDr0 [(R.SHARE.OWNER_STATE 0, 1), (R.SHARE.OWNER_BLOCK 0, 0x50), (R.DROVE.SYNC_CTRL_EN, 1)]) (fun d => { d with role := 1, manager := 2, syncAt := some 900000000 }) with time := 1400000000 },
    900000000, by decide +kernel⟩,
   ⟨wD wDr fun d => { d with offSince := some 5 }, 5, by decide +kernel⟩⟩

theorem met_SetOperationsRun_1 :
  (∃ (s : State) (c : Cmd) (tt : BitVec 64) (data : Bytes) (id : BitVec 32) (n v : Nat) (r : Role) (p : Bytes), (n, v, r, p) ∈ [(2,
    tt.toNat, Role.operator, List.drop 4 data), (3, id.toNat, Role.operator, []), (4, 0, Role.operator, []), (6, 0, Role.installer, []), (8, 0, Role.installer, [])] ∧ s.adminReady c.fn = true ∧
    isPf c.fn = true ∧ List.length data = 32 ∧ s.holds (Origin.pcie c.fn) r = true)
  ∧ (∃ (s : State) (c : Cmd) (tt : BitVec 64) (data : Bytes) (id : BitVec 32) (n v : Nat) (r : Role) (p : Bytes), (n, v, r, p) ∈ [(2,
    tt.toNat, Role.operator, List.drop 4 data), (3, id.toNat, Role.operator, []), (4, 0, Role.operator, []), (6, 0, Role.installer, []), (8, 0, Role.installer, [])] ∧ s.adminReady c.fn = true ∧
    isPf c.fn = true ∧ List.length data = 32 ∧ s.holds (Origin.pcie c.fn) r = false)
  ∧ (∃ (s : State) (c : Cmd) (p : CtrlReqPkt), s.adminReady c.fn = true ∧ isPf c.fn = true ∧ (s.meets (Origin.pcie c.fn) (if p.op.toNat % 2 = 1 ∧
    reqBad p = false then needOf (rowsAt (p.page.toNat % 512) p.offset.toNat) else RoleReq.none) = true))
  ∧ (∃ (s : State), (s.drove.quorum = false ∨ s.drove.member = none)) :=
  ⟨⟨wDr, wCmd, 1100000000, leBytes 4 0 ++ wBytes 28 [(0, 2, 7)], 3, 2, 1100000000, .operator, (leBytes 4 0 ++ wBytes 28 [(0, 2, 7)]).drop 4, by decide +kernel⟩,
   ⟨{ wDr with trust := { wDr.trust with sessions := [] } }, wCmd, 1100000000, leBytes 4 0 ++ wBytes 28 [(0, 2, 7)], 3, 2, 1100000000, .operator,
    (leBytes 4 0 ++ wBytes 28 [(0, 2, 7)]).drop 4, by decide +kernel⟩,
   ⟨wDr, wCmd, wCtrlReqPkt, by decide +kernel⟩,
   ⟨wD wDr fun d => { d with quorum := false }, by decide +kernel⟩⟩

theorem met_SetOperationsRun_2 :
  (∃ (s : State) (x : SetOp) (c : Cmd), x.issuer = s.drove.me ∧ s.setCmd x.tag = some c ∧ (∀ y ∈ s.drove.queue ++ s.drove.cur.toList,
    ¬(y.issuer = x.issuer ∧ y.tag = x.tag)) ∧ x.op = 2 ∧ (x.t < s.time + 50000000 ∨ s.time + 3600000000000 < x.t))
  ∧ (∃ (s : State) (x : SetOp) (c : Cmd), x.issuer = s.drove.me ∧ s.setCmd x.tag = some c ∧ (∀ y ∈ s.drove.queue ++ s.drove.cur.toList,
    ¬(y.issuer = x.issuer ∧ y.tag = x.tag)) ∧ x.op ≠ 2 ∧ s.drove.cur ≠ none ∧ 8 ≤ s.drove.queue.length ∧ s.get (H.VALID 192) = 0)
  ∧ (∃ (s : State), s.get R.TAKE.TAKE_STATE_STATE ≠ 0)
  ∧ (∃ (s : State) (p : Bytes) (rate d cap k : Nat), s.get R.TAKE.TAKE_STATE_STATE = 0 ∧ s.admission (openOfParam p) = Admission.grant rate d cap k ∧
    grantReason (openOfParam p) rate d = 0) :=
  ⟨⟨wHeld (wOp 2 1049999999), wOp 2 1049999999, wCmd, by decide +kernel⟩,
   ⟨wD (wHeld (wOp 4 0)) fun d => { d with cur := some { wOp 4 0 with tag := 1 }, queue := List.replicate 8 { wOp 4 0 with tag := 2 } }, wOp 4 0, wCmd,
    by decide +kernel⟩,
   ⟨wDr, by decide +kernel⟩,
   ⟨wDr0, wBytes 28 [(0, 2, 7), (4, 4, 40), (8, 2, 256), (10, 1, 1), (11, 1, 1), (16, 4, 1)], 40, 1, 536870912, 16384, by decide +kernel⟩⟩

theorem met_SetOperationsRun_3 :
  (∃ (s : State) (p : Bytes) (why : Nat), s.get R.TAKE.TAKE_STATE_STATE = 0 ∧ s.admission (openOfParam p) = Admission.refuse why)
  ∧ (∃ (s : State) (id : Nat) (a : Armed), s.drove.armed = some a ∧ a.opId = id)
  ∧ (∃ (s : State) (a : Armed) (p : TakeOpenPkt), s.drove.armed = some a ∧ s.take.req = some p ∧ a.committed = true)
  ∧ (∃ (s : State) (a : Armed), s.drove.armed = some a ∧ a.committed = false) :=
  ⟨⟨wr wDr0 [(R.PWR.MODE_MODE, 7)], wBytes 28 [(0, 2, 7), (4, 4, 40), (8, 2, 256), (10, 1, 1), (11, 1, 1), (16, 4, 1)], 0x11, by decide +kernel⟩,
   ⟨wArm false, 7, ⟨7, 1000500000, false⟩, by decide +kernel⟩,
   ⟨wArm true, ⟨7, 1000500000, true⟩, wTakeOpenPkt, by decide +kernel⟩,
   ⟨wArm false, ⟨7, 1000500000, false⟩, by decide +kernel⟩⟩

theorem met_SetOperationsRun_4 : ∃ (s : State) (op : SetOp) (rest : List SetOp) (c : Cmd), s.drove.held = op :: rest ∧ s.drove.quorum = false ∧ s.setCmd op.tag = some c :=
  ⟨wD (wHeld (wOp 4 0)) fun d => { d with quorum := false }, wOp 4 0, [], wCmd, by decide +kernel⟩

theorem met_DramCommandsRun_1 :
  (∃ (s : State) (ch : Fin 4) (d : Int), s.dramUsed ↑ch = true ∧ (signedOf 8 (s.get (R.DRAM.DRIFT_ACCUM ↑ch)) + d).natAbs ≤ 12)
  ∧ (∃ (s : State) (ch : Fin 4) (d : Int), s.dramUsed ↑ch = true ∧ 12 < (signedOf 8 (s.get (R.DRAM.DRIFT_ACCUM ↑ch)) + d).natAbs)
  ∧ (∃ (s : State) (ch : Fin 4), s.dramUsed ch.val = false)
  ∧ (∃ (s : State) (ch : Fin 4) (last ivl n : Nat), s.dramUsed ch.val = true ∧ last = s.dram.refreshed.getD ch.val 0 ∧
    ivl = (if s.dram.mr4.getD ch.val 0 ≤ 2 then 3900 else 1950) ∧ n = max 1 ((s.time - last) / ivl))
  ∧ (∃ (s : State) (ch : Fin 4) (kind : BitVec 4), s.dramUsed ↑ch = true ∧ kind.toNat < 8)
  ∧ (∃ (s : State) (w : BufEnt), s.media.wbuf = [w] ∧ s.host.cmds = []) :=
  ⟨⟨wr wDram [(R.DRAM.DRIFT_ACCUM 1, 0)], 1, 12, by decide +kernel⟩,
   ⟨wr wDram [(R.DRAM.DRIFT_ACCUM 1, 0)], 1, 13, by decide +kernel⟩,
   ⟨wr wDram [(R.DRAM.CH_STATUS_STATE 1, 0)], 1, by decide +kernel⟩,
   ⟨wDram, 3, 0, 3900, 1282, by decide +kernel⟩,
   ⟨wDram, 2, 0, by decide +kernel⟩,
   ⟨{ wDram with media := { wDram.media with wbuf := [⟨1, 5, [1], 4096⟩] } }, ⟨1, 5, [1], 4096⟩, by decide +kernel⟩⟩

theorem met_DramCommandsRun_2 :
  (∃ (s : State) (x : TakeSlice) (f : FrameSt), s.take.slices = [x] ∧ x.status ≠ SliceStatus.lost ∧ s.frame? x.uid = some f)
  ∧ (∃ (s : State) (ch : Fin 4), s.dramUsed ↑ch = true)
  ∧ (∃ (s : State) (c cause : Nat), c < 4 ∧ cause < 8 ∧ (s.dramState c = 1 ∨ s.dramState c = 2 ∨ s.dramState c = 3))
  ∧ (∃ (s : State) (o : Origin) (ch : Fin 4), s.powered = true ∧ s.reaches o (dramPage ↑ch) = true ∧ s.holds o Role.installer = true ∧
    (s.dramState ↑ch ≠ 5 ∧ (3 ≤ s.liveDram ∨ s.dramState ↑ch ≠ 2 ∧ s.dramState ↑ch ≠ 3) ∧ ∀ d < 4, d ≠ ↑ch → s.dramState d ≠ 5)) :=
  ⟨⟨{ wDram with take := { (wFr wFrame).take with slices := [⟨0, 0, ⟨0, [1, 2, 3, 4], 0⟩, .waiting, false, 0, 0⟩] } }, ⟨0, 0, ⟨0, [1, 2, 3, 4], 0⟩,
    .waiting, false, 0, 0⟩, wFrame, by decide +kernel⟩,
   ⟨wDram, 0, by decide +kernel⟩,
   ⟨wr wDram [(R.DRAM.CH_STATUS_STATE 1, 1)], 1, 7, by decide +kernel⟩,
   ⟨wDram, .pcie 0, 0, by decide +kernel⟩⟩

theorem met_DramCommandsRun_3 :
  (∃ (s : State) (o : Origin) (ch : Fin 4), s.powered = true ∧ s.reaches o (dramPage ↑ch) = true ∧ s.holds o Role.installer = true ∧ (s.liveDram < 3 ∧
    (s.dramState ↑ch = 2 ∨ s.dramState ↑ch = 3) ∨ ∃ d < 4, d ≠ ↑ch ∧ s.dramState d = 5))
  ∧ (∃ (s : State) (ch : Fin 4), s.dramState ↑ch = 5) :=
  ⟨⟨wr wDram [(R.DRAM.CH_STATUS_STATE 1, 5), (R.DRAMC.LIVE_MASK, 13)], .pcie 0, 0, by decide +kernel⟩,
   ⟨wr wDram [(R.DRAM.CH_STATUS_STATE 1, 5)], 1, by decide +kernel⟩⟩

theorem met_ModeRequestsAndTransitions_1 :
  (∃ (s : State) (o : Origin) (q : PwrReq) (r : Role) (f : Refuser), (q, r) ∈ [(PwrReq.doze, Role.operator), (PwrReq.fold, Role.operator), (PwrReq.warm, Role.installer), (PwrReq.safeIn, Role.installer), (PwrReq.safeOut, Role.installer)] ∧ s.powered = true ∧ s.reaches o 2 = true ∧ s.holds o r = true ∧
    (s.veto q).1 = some f)
  ∧ (∃ (s : State) (o : Origin) (q : PwrReq) (r : Role) (k : TranKind), (q, r) ∈ [(PwrReq.doze, Role.operator), (PwrReq.fold, Role.operator), (PwrReq.warm, Role.installer), (PwrReq.safeIn, Role.installer), (PwrReq.safeOut, Role.installer)] ∧ s.powered = true ∧ s.reaches o 2 = true ∧ s.holds o r = true ∧
    (s.veto q).1 = none ∧ (q, k) ∈ [(PwrReq.doze, TranKind.dozeEntry), (PwrReq.fold, TranKind.foldEntry), (PwrReq.warm, TranKind.warm)])
  ∧ (∃ (s : State) (q : PwrReq), (q = PwrReq.doze ∨ q = PwrReq.fold ∨ q = PwrReq.warm) ∧ s.get R.TAKE.TAKE_STATE_STATE ≠ 0 ∧ s.pwr.tran = none ∧
    s.take.pfPhase = 0 ∧ s.reqFits q = true)
  ∧ (∃ (s : State) (q : PwrReq), (s.pwr.tran ≠ none ∨ s.reqFits q = false)) :=
  ⟨⟨wTran (wTr .warm 2 []), .pcie 0, .doze, .operator, ⟨3, 0, none⟩, by decide +kernel⟩,
   ⟨wIdle, .pcie 0, .doze, .operator, .dozeEntry, by decide +kernel⟩,
   ⟨wr wIdle [(R.TAKE.TAKE_STATE_STATE, 2)], .doze, by decide +kernel⟩,
   ⟨wTran (wTr .warm 2 []), .doze, by decide +kernel⟩⟩

theorem met_ModeRequestsAndTransitions_2 :
  (∃ (s : State), s.get R.PWR.DOZE_AFTER_S ≠ 0 ∧ s.mode = 3)
  ∧ (∃ (s : State) (o : Origin), s.powered = true ∧ s.reaches o 2 = true ∧ s.holds o Role.installer = true ∧ (s.veto PwrReq.safeIn).1 = none)
  ∧ (∃ (s : State) (o : Origin), s.powered = true ∧ s.reaches o 2 = true ∧ s.holds o Role.installer = true ∧ (s.veto PwrReq.safeOut).1 = none ∧ (∀ b < 7,
    bitAt s.causesLeft b = false))
  ∧ (∃ (s : State) (o : Origin) (b : Nat) (f : Refuser), s.powered = true ∧ s.reaches o 2 = true ∧ s.holds o Role.installer = true ∧
    (s.veto PwrReq.safeOut).1 = none ∧ b < 7 ∧ bitAt s.causesLeft b = true ∧ (∀ a < b, bitAt s.causesLeft a = false) ∧ causeBlock b = some f) :=
  ⟨⟨wIdle, by decide +kernel⟩,
   ⟨wIdle, .pcie 0, by decide +kernel⟩,
   ⟨wr wIdle [(R.PWR.MODE_MODE, 7), (R.PWR.SAFE_CAUSE_CAUSE, 128)], .pcie 0, by decide +kernel⟩,
   ⟨wr wIdle [(R.PWR.MODE_MODE, 7), (R.PWR.SAFE_CAUSE_CAUSE, 193), (R.MEDIA.SPARE_LOW_GB, 100000)], .pcie 0, 0, ⟨48, 0, none⟩, by decide +kernel⟩⟩

/-- `s` with a checkpoint that covers its journal. -/
def wCov (s : State) : State := { s with media := { s.media with ckpts := [wCkpt] } }

theorem met_ModeRequestsAndTransitions_3 :
  (∃ (s : State) (b : Nat), (s.mode = 3 ∨ s.mode = 4 ∨ s.mode = 5 ∨ s.mode = 6) ∧ 2 ≤ b ∧ b < 8)
  ∧ (∃ (s : State) (x : Tran), s.pwr.tran = some x ∧ x.phase = 2 ∧ (s.media.formatted = false ∨ s.drained = true ∧
    s.bit R.MEDIA.MEDIA_STATUS_CKPT_BUSY = false ∧ (s.offline = true ∨ s.covered = true)) ∧ x.kind = TranKind.dozeEntry)
  ∧ (∃ (s : State) (x : Tran), s.pwr.tran = some x ∧ x.phase = 2 ∧ (s.media.formatted = false ∨ s.drained = true ∧
    s.bit R.MEDIA.MEDIA_STATUS_CKPT_BUSY = false ∧ (s.offline = true ∨ s.covered = true)) ∧ x.kind = TranKind.foldEntry)
  ∧ (∃ (s : State) (x : Tran), s.pwr.tran = some x ∧ x.phase = 2 ∧ (s.media.formatted = false ∨ s.drained = true ∧
    s.bit R.MEDIA.MEDIA_STATUS_CKPT_BUSY = false ∧ (s.offline = true ∨ s.covered = true)) ∧ x.kind = TranKind.warm)
  ∧ (∃ (s : State) (x : Tran), s.pwr.tran = some x ∧ x.phase = 2 ∧ x.kind ≠ TranKind.dozeExit ∧ s.media.formatted = true ∧ s.drained = true ∧
    s.bit R.MEDIA.MEDIA_STATUS_CKPT_BUSY = false ∧ s.offline = false ∧ s.covered = false) :=
  ⟨⟨wr wIdle [(R.PWR.MODE_MODE, 3)], 2, by decide +kernel⟩,
   ⟨wCov (wTran (wTr .dozeEntry 2 [])), wTr .dozeEntry 2 [], by decide +kernel⟩,
   ⟨wCov (wTran (wTr .foldEntry 2 [])), wTr .foldEntry 2 [], by decide +kernel⟩,
   ⟨wCov (wTran (wTr .warm 2 [])), wTr .warm 2 [], by decide +kernel⟩,
   ⟨wTran (wTr .warm 2 []), wTr .warm 2 [], by decide +kernel⟩⟩

theorem met_ModeRequestsAndTransitions_4 :
  (∃ (s : State), s.mode ≠ 1)
  ∧ (∃ (s : State) (slot : Fin 8) (x : Tran) (v : VStep) (rest : List VStep), s.pwr.tran = some x ∧ x.steps = v :: rest ∧ v.slot = ↑slot ∧ x.retryAt = 0 ∧
    x.attempts < 2)
  ∧ (∃ (s : State) (slot : Fin 8) (x : Tran) (v : VStep) (rest : List VStep), s.pwr.tran = some x ∧ x.steps = v :: rest ∧ v.slot = ↑slot ∧ x.retryAt = 0 ∧
    2 ≤ x.attempts)
  ∧ (∃ (x : Tran) (n : Nat), n < 8 ∧ x.kind = TranKind.dozeEntry ∧ x.reversing = false) :=
  ⟨⟨wTran (wTr .dozeEntry 4 []), by decide +kernel⟩,
   ⟨wTran (wTr .dozeEntry 4 [⟨1, 800⟩]), 1, wTr .dozeEntry 4 [⟨1, 800⟩], ⟨1, 800⟩, [], by decide +kernel⟩,
   ⟨wTran ({ wTr .dozeEntry 4 [⟨1, 800⟩] with attempts := 2 }), 1, { wTr .dozeEntry 4 [⟨1, 800⟩] with attempts := 2 }, ⟨1, 800⟩, [], by decide +kernel⟩,
   ⟨{ wTr .dozeEntry 4 [⟨1, 800⟩] with doneSteps := [⟨0, 786⟩] }, 1, by decide +kernel⟩⟩

theorem met_ModeRequestsAndTransitions_5 :
  (∃ (x : Tran) (n : Nat), n < 8 ∧ x.kind = TranKind.dozeExit ∧ x.retried = false)
  ∧ (∃ (x : Tran) (n : Nat), n < 8 ∧ x.kind = TranKind.dozeExit ∧ x.retried = true)
  ∧ (∃ (s : State) (slot : Fin 8) (v : VStep) (rest : List VStep), s.pwr.tran = none ∧ s.pwr.setSteps = v :: rest ∧ v.slot = ↑slot ∧ s.pwr.setTries < 2)
  ∧ (∃ (s : State) (slot : Fin 8) (v : VStep) (rest : List VStep), s.pwr.tran = none ∧ s.pwr.setSteps = v :: rest ∧ v.slot = ↑slot ∧ 2 ≤ s.pwr.setTries) :=
  ⟨⟨wTr .dozeExit 2 [⟨1, 800⟩], 1, by decide +kernel⟩,
   ⟨{ wTr .dozeExit 2 [⟨1, 800⟩] with retried := true }, 1, by decide +kernel⟩,
   ⟨wP wIdle fun p => { p with setSteps := [⟨1, 800⟩, ⟨1, 736⟩], setTries := 1 }, 1, ⟨1, 800⟩, [⟨1, 736⟩], by decide +kernel⟩,
   ⟨wP wIdle fun p => { p with setSteps := [⟨1, 800⟩, ⟨1, 736⟩], setTries := 2 }, 1, ⟨1, 800⟩, [⟨1, 736⟩], by decide +kernel⟩⟩

theorem met_ModeRequestsAndTransitions_6 :
  (∃ (s : State) (src : Fin 6), s.mode = 0 ∧ src.val ≤ 2 ∧ s.pwr.residenceOver = true ∧ s.pwr.pfHigh = true ∧ s.pwr.mainOk = true ∧
    s.pwr.railsOff = false ∧ s.pwr.dead = false)
  ∧ (∃ (s : State) (src : Fin 6), s.mode = 0 ∧ src.val ≤ 2 ∧ s.pwr.residenceOver = false)
  ∧ (∃ (s : State), s.mode = 1 ∧ s.pwr.tran = none)
  ∧ (∃ (s : State) (x : Tran), s.mode ≠ 0 ∧ s.pwr.tran = some x ∧ x.kind = TranKind.dozeEntry ∧ x.reversing = false ∧ x.phase = 2) :=
  ⟨⟨wP (wr wIdle [(R.PWR.MODE_MODE, 0)]) fun p => { p with residenceOver := true, mainOk := true, pfHigh := true }, 0, by decide +kernel⟩,
   ⟨wP (wr wIdle [(R.PWR.MODE_MODE, 0)]) fun p => { p with residenceOver := false, mainOk := true, pfHigh := true }, 0, by decide +kernel⟩,
   ⟨wr wIdle [(R.PWR.MODE_MODE, 1)], by decide +kernel⟩,
   ⟨wTran (wTr .dozeEntry 2 []), wTr .dozeEntry 2 [], by decide +kernel⟩⟩

theorem met_ModeRequestsAndTransitions_7 :
  (∃ (s : State) (x : Tran), s.mode ≠ 0 ∧ s.pwr.tran = some x ∧ x.kind = TranKind.dozeEntry ∧ x.reversing = false ∧ x.phase = 4)
  ∧ (∃ (s : State) (x : Tran), s.pwr.tran = some x ∧ x.kind = TranKind.dozeExit ∧ x.phase = 4)
  ∧ (∃ (s : State) (x : Tran), s.pwr.tran = some x ∧ x.retryAt ≠ 0)
  ∧ (∃ (s : State), s.mode = 0 ∧ s.pwr.railsOff = true ∧ s.pwr.dead = false) :=
  ⟨⟨wTran (wTr .dozeEntry 4 [⟨1, 800⟩]), wTr .dozeEntry 4 [⟨1, 800⟩], by decide +kernel⟩,
   ⟨wP (wr wIdle [(R.PWR.MODE_MODE, 1), (R.DRAM.CH_STATUS_STATE 1, 3)]) fun p => { p with tran := some (wTr .dozeExit 4 []), wakes := 3 },
    wTr .dozeExit 4 [], by decide +kernel⟩,
   ⟨wTran ({ wTr .dozeExit 2 [⟨1, 800⟩] with retryAt := 8000000000, retried := true }), { wTr .dozeExit 2 [⟨1, 800⟩] with retryAt := 8000000000, retried := true },
    by decide +kernel⟩,
   ⟨wP (wr wIdle [(R.PWR.MODE_MODE, 0)]) fun p => { p with railsOff := true }, by decide +kernel⟩⟩

theorem met_ModeRequestsAndTransitions_8 :
  (∃ (s : State), 2 ≤ s.mode)
  ∧ (∃ (s : State) (r : VregReading), r.slot < 8 ∧ bitAt (s.get R.VREG.LINK_STATUS_PRESENT) r.slot = true ∧
    bitAt (s.get R.VREG.LINK_STATUS_UNSUPPORTED) r.slot = false ∧ r.ack = false)
  ∧ (∃ (s : State) (r : VregReading), r.slot < 8 ∧ bitAt (s.get R.VREG.LINK_STATUS_PRESENT) r.slot = true ∧
    bitAt (s.get R.VREG.LINK_STATUS_UNSUPPORTED) r.slot = false ∧ r.ack = true ∧ r.pecOk = false)
  ∧ (∃ (s : State) (r : VregReading), r.slot < 8 ∧ bitAt (s.get R.VREG.LINK_STATUS_PRESENT) r.slot = true ∧
    bitAt (s.get R.VREG.LINK_STATUS_UNSUPPORTED) r.slot = false ∧ r.ack = true ∧ r.pecOk = true ∧ s.mode = 2 ∧ r.linear = false ∧ s.get (H.VALID 3) = 0) :=
  ⟨⟨wIdle, by decide +kernel⟩,
   ⟨wIdle, ⟨1, false, true, 0, 800, 20, 30, true⟩, by decide +kernel⟩,
   ⟨wIdle, ⟨1, true, false, 0, 800, 20, 30, true⟩, by decide +kernel⟩,
   ⟨wr wIdle [(R.PWR.MODE_MODE, 2)], ⟨1, true, true, 0, 800, 20, 30, false⟩, by decide +kernel⟩⟩

theorem met_ModeRequestsAndTransitions_9 :
  (∃ (s : State) (r : VregReading), r.slot < 8 ∧ bitAt (s.get R.VREG.LINK_STATUS_PRESENT) r.slot = true ∧
    bitAt (s.get R.VREG.LINK_STATUS_UNSUPPORTED) r.slot = false ∧ r.ack = true ∧ r.pecOk = true ∧ (s.mode ≠ 2 ∨ r.linear = true) ∧
    s.get (R.SHARE.OWNER_BLOCK 5) = 11 ∧ r.status ≠ 0)
  ∧ (∃ (s : State), 2 ≤ s.mode ∧ s.get (R.SHARE.OWNER_BLOCK 5) = 3)
  ∧ (∃ (s : State) (o : Origin) (slot : Fin 8) (mv : BitVec 16), s.powered = true ∧ s.reaches o 3 = true ∧ s.holds o Role.installer = true ∧
    s.setPointOk (↑slot) mv.toNat = false)
  ∧ (∃ (s : State) (o : Origin) (slot : Fin 8) (mv : BitVec 16), s.powered = true ∧ s.reaches o 3 = true ∧ s.holds o Role.installer = true ∧
    s.setPointOk (↑slot) mv.toNat = true ∧ s.setPointBusy (↑slot) mv.toNat = true)
  ∧ (∃ (s : State) (c : Nat), s.chActive c = true)
  ∧ (∃ (s : State) (c : Nat), s.chActive c = false) :=
  ⟨⟨wr wIdle [(R.SHARE.OWNER_BLOCK 5, 11)], ⟨1, true, true, 4, 800, 20, 30, true⟩, by decide +kernel⟩,
   ⟨wr wIdle [(R.SHARE.OWNER_BLOCK 5, 3)], by decide +kernel⟩,
   ⟨wr wIdle [(R.VREG.SLOT_CFG_RAIL 1, 1), (R.PWR.MODE_MODE, 3)], .pcie 0, 1, 5000, by decide +kernel⟩,
   ⟨wr wIdle [(R.VREG.SLOT_CFG_RAIL 1, 1), (R.PWR.MODE_MODE, 5)], .pcie 0, 1, 840, by decide +kernel⟩,
   ⟨wMedia, 9, by decide +kernel⟩,
   ⟨wMedia, 10, by decide +kernel⟩⟩

theorem met_ModeRequestsAndTransitions_10 : ∃ (s : State) (o : Origin) (slot : Fin 8) (mv : BitVec 16), s.powered = true ∧ s.reaches o 3 = true ∧ s.holds o Role.installer = true ∧
    s.setPointOk (↑slot) mv.toNat = true ∧ s.setPointBusy (↑slot) mv.toNat = false ∧ s.get (R.VREG.SLOT_CFG_RAIL ↑slot) ≤ 2 ∧ s.pwr.setSteps = [] :=
  ⟨wr wIdle [(R.VREG.VOUT_SET_MV 0, 650), (R.VREG.VOUT_SET_MV 2, 700), (R.VREG.SLOT_CFG_RAIL 1, 1), (R.PWR.MODE_MODE, 3)], .pcie 0, 1, 840,
    by decide +kernel⟩

theorem met_PowerLossResetsAndBoot_1 :
  (∃ (n : Nat), n < 2000)
  ∧ (∃ (s : State) (n : Nat), 2000 ≤ n ∧ s.pwr.dead = false ∧ s.take.pfPhase = 0)
  ∧ (∃ (s : State) (c : Contract), s.take.c = some c ∧ s.takeLive = true)
  ∧ (∃ (s : State), s.take.pfPhase = 1) :=
  ⟨⟨1999, by decide +kernel⟩,
   ⟨wP (wr wTake [(R.PWR.MODE_MODE, 0)]) fun p => { p with bootPhase := 0 }, 2000, by decide +kernel⟩,
   ⟨wTake, wC, by decide +kernel⟩,
   ⟨{ wTake with take := { wTake.take with pfPhase := 1 } }, by decide +kernel⟩⟩

theorem met_PowerLossResetsAndBoot_2 :
  (∃ (s : State) (c : Contract), s.take.c = some c ∧ s.take.pfPhase = 2 ∧ s.take.frames = [])
  ∧ (∃ (s : State) (c : Contract), s.take.c = some c ∧ s.take.pfPhase = 3 ∧ s.takeDone = true)
  ∧ (∃ (s : State), s.media.formatted = false)
  ∧ (∃ (s : State), s.mode ≠ 0) :=
  ⟨⟨{ wTake with take := { wTake.take with pfPhase := 2 } }, wC, by decide +kernel⟩,
   ⟨wP ({ wTake with take := { wTake.take with pfPhase := 3, noTrailer := true } }) fun p => { p with pfBegun := true }, wC, by decide +kernel⟩,
   ⟨wP { wTake with media := { wTake.media with formatted := false } } fun p => { p with pfBegun := true }, by decide +kernel⟩,
   ⟨wTake, by decide +kernel⟩⟩

theorem met_PowerLossResetsAndBoot_3 :
  (∃ (s : State), s.mode ≠ 0)
  ∧ (∃ (s : State), s.mode = 0 ∧ s.pwr.railsOff = false ∧ s.pwr.dead = false)
  ∧ (∃ (s : State), 2 ≤ s.mode ∧ s.pwr.fw.running ≠ none ∧ s.handing = false)
  ∧ (∃ (s : State), 2 ≤ s.mode ∧ (s.pwr.fw.running = none ∨ s.handing = true)) :=
  ⟨⟨wTake, by decide +kernel⟩,
   ⟨wr wIdle [(R.PWR.MODE_MODE, 0)], by decide +kernel⟩,
   ⟨wP wIdle fun p => { p with fw := { p.fw with running := some [], inHandover := false } }, by decide +kernel⟩,
   ⟨wP wIdle fun p => { p with fw := { p.fw with running := some [], inHandover := true } }, by decide +kernel⟩⟩

theorem met_PowerLossResetsAndBoot_4 :
  (∃ (s : State) (k : Fin 4), s.get (R.RTC.ALARM_CTRL_EN ↑k) ≠ 0 ∧ s.get (R.RTC.ALARM_CTRL_FIRED ↑k) ≠ 1 ∧ s.pwr.dead = false ∧
    s.get (R.RTC.ALARM_TIME_TIME ↑k) % 2 ^ 63 ≤ s.rtcTicks)
  ∧ (∃ (s : State), s.get R.RTC.STATUS_OSC_FAIL ≠ 1 ∧ s.pwr.dead = false)
  ∧ (∃ (s : State) (o : Origin), s.powered = true ∧ s.reaches o 4 = true ∧ s.holds o Role.operator = true)
  ∧ (∃ (s : State), s.mode ≠ 0) :=
  ⟨⟨{ wr wIdle [(R.RTC.ALARM_CTRL_EN 2, 1), (R.RTC.ALARM_CTRL_WAKE 2, 0), (R.RTC.ALARM_TIME_TIME 2, 90)] with rtcBase := 100 }, 2, by decide +kernel⟩,
   ⟨{ wIdle with rtcBase := 100 }, by decide +kernel⟩,
   ⟨wr wIdle [(R.RTC.SET_TIME, 12345)], .pcie 0, by decide +kernel⟩,
   ⟨wIdle, by decide +kernel⟩⟩

theorem met_PowerLossResetsAndBoot_5 :
  (∃ (s : State) (a : Nat), s.pwr.hotSince = some a ∧ 2 ≤ s.mode ∧ s.pwr.bootPhase = 0 ∧ s.take.pfPhase = 0)
  ∧ (∃ (s : State) (a : Nat), s.pwr.serveAt = some a ∧ 3 ≤ s.mode)
  ∧ (∃ (s : State), s.pwr.bootPhase = 1 ∧ s.pwr.locked = false)
  ∧ (∃ (s : State), s.pwr.bootPhase = 1 ∧ s.pwr.locked = true ∧ s.pwr.thermal = false) :=
  ⟨⟨wP wIdle fun p => { p with hotSince := some 5, bootPhase := 0 }, 5, by decide +kernel⟩,
   ⟨wP (wr wIdle [(R.PWR.MODE_MODE, 7), (R.TAKE.TAKE_STATE_STATE, 0)]) fun p => { p with serveAt := some 9 }, 9, by decide +kernel⟩,
   ⟨wBoot 1, by decide +kernel⟩,
   ⟨wP (wr (wBoot 1) [(R.NAND.CH_STATUS_STATE 3, 0)]) fun p => { p with locked := true }, by decide +kernel⟩⟩

theorem met_PowerLossResetsAndBoot_6 :
  (∃ (s : State) (r : DramTraining), s.pwr.bootPhase = 2 ∧ s.pwr.held = Held.no ∧ (∀ c < 32, s.get (R.NAND.CH_STATUS_STATE c) ≠ 1) ∧
    dramSupported r = false)
  ∧ (∃ (s : State) (r : DramTraining), s.pwr.bootPhase = 2 ∧ s.pwr.held = Held.no ∧ (∀ c < 32, s.get (R.NAND.CH_STATUS_STATE c) ≠ 1) ∧
    dramSupported r = true)
  ∧ (∃ (s : State) (img : Bytes) (va vb : BitVec 8) (src copy : Nat) (rest : List (Nat × Nat)), s.pwr.bootPhase = 3 ∧ s.pwr.held = Held.no ∧
    s.pwr.sources = (src, copy) :: rest ∧ (s.verifyImage img va vb).1 = true ∧ (src ≠ 0 ∨ s.pwr.fw.region.getD copy none = none ∨ s.pwr.fw.region.getD copy none = some img))
  ∧ (∃ (s : State) (img : Bytes) (va vb : BitVec 8) (src copy : Nat) (rest : List (Nat × Nat)), s.pwr.bootPhase = 3 ∧ s.pwr.held = Held.no ∧
    s.pwr.sources = (src, copy) :: rest ∧ ((s.verifyImage img va vb).1 = false ∨ (src = 0 ∧ ∃ r, s.pwr.fw.region.getD copy none = some r ∧ r ≠ img))) :=
  ⟨⟨wBoot 2, wTrain 16 false, by decide +kernel⟩,
   ⟨wr (wBoot 2) [(R.DRAM.CH_STATUS_STATE 1, 1)], wTrain 16 true, by decide +kernel⟩,
   ⟨wBoot 3, wBootImg, 0, 0, 0, 1, [(1, 0)], by decide +kernel, by decide +kernel, by decide +kernel, wBootImg_verifies (by decide +kernel),
    Or.inr (Or.inl (by decide +kernel))⟩,
   ⟨wBoot 3, [], 0, 0, 0, 1, [(1, 0)], by decide +kernel⟩⟩

theorem met_PowerLossResetsAndBoot_7 :
  (∃ (s : State) (img key : Bytes), s.bootKey = some key ∧ bootLayoutOk img = true)
  ∧ (∃ (s : State) (o : Origin), s.powered = true ∧ s.reaches o 2 = true ∧ s.pwr.held ≠ Held.no ∧ s.mailboxOn = true ∧
    (s.pwr.held = Held.dram ∨ s.get R.PWR.MBOX_LEN_BYTES < 4096 ∨ 16777216 < s.get R.PWR.MBOX_LEN_BYTES))
  ∧ (∃ (s : State) (o : Origin) (img : Bytes), s.powered = true ∧ s.reaches o 2 = true ∧ s.pwr.held ≠ Held.no ∧ s.mailboxOn = true ∧
    s.pwr.held = Held.noImage ∧ 4096 ≤ s.get R.PWR.MBOX_LEN_BYTES ∧ s.get R.PWR.MBOX_LEN_BYTES ≤ 16777216 ∧
    img = s.mem.read Target.hostA (4096 * s.get R.PWR.MBOX_ADDR_ADDR) (s.get R.PWR.MBOX_LEN_BYTES) ∧ (s.verifyImage img 0 0).1 = true)
  ∧ (∃ (s : State) (o : Origin) (img : Bytes), s.powered = true ∧ s.reaches o 2 = true ∧ s.pwr.held ≠ Held.no ∧ s.mailboxOn = true ∧
    s.pwr.held = Held.noImage ∧ 4096 ≤ s.get R.PWR.MBOX_LEN_BYTES ∧ s.get R.PWR.MBOX_LEN_BYTES ≤ 16777216 ∧
    img = s.mem.read Target.hostA (4096 * s.get R.PWR.MBOX_ADDR_ADDR) (s.get R.PWR.MBOX_LEN_BYTES) ∧ (s.verifyImage img 0 0).1 = false) :=
  ⟨⟨wBoot 3, wBootImg, wBootKey, by decide +kernel, wBootImg_ok⟩,
   ⟨wHeldBoot .dram 4096, .pcie 0, by decide +kernel⟩,
   ⟨wMail (wHeldBoot .noImage 4096) (memWriteN [] 65536 wBootImg), .pcie 0, wBootImg, by decide +kernel, by decide +kernel, by decide +kernel,
    by decide +kernel, by decide +kernel, by decide +kernel, by decide +kernel, wBoot_mail (wMail_hostA ..) (by decide +kernel) (by decide +kernel),
    wBootImg_verifies (by decide +kernel)⟩,
   ⟨wHeldBoot .noImage 4096, .pcie 0, _, by decide +kernel, by decide +kernel, by decide +kernel, by decide +kernel, by decide +kernel,
    by decide +kernel, by decide +kernel, rfl, by decide +kernel⟩⟩

theorem met_PowerLossResetsAndBoot_8 :
  (∃ (s : State), s.pwr.bootPhase = 4)
  ∧ (∃ (s : State), s.pwr.bootPhase = 5)
  ∧ (∃ (s : State), s.pwr.bootPhase = 6)
  ∧ (∃ (s : State), s.pwr.bootPhase = 7) :=
  ⟨⟨wr (wBoot 4) [(R.CIPHER.PIPES_LIVE, 63), (R.DIGEST.UNITS_LIVE_MASK, 2^64-1)], by decide +kernel⟩,
   ⟨wBoot 5, by decide +kernel⟩,
   ⟨{ wBoot 6 with media := { (wBoot 6).media with formatted := false, ckpts := [] } }, by decide +kernel⟩,
   ⟨{ wBoot 7 with array := { (wBoot 7).array with snap := none, snapNew := none } }, by decide +kernel⟩⟩

theorem met_PowerLossResetsAndBoot_9 : ∃ (s : State), s.pwr.bootPhase = 8 :=
  ⟨wBoot 8, by decide +kernel⟩

theorem met_RolesOtpAndPerturbation_1 :
  (∃ (s : State) (c : Cmd) (data : Bytes) (g : Nat), s.adminReady c.fn = true ∧ isPf c.fn = true ∧ memWf s.trust.otp = true ∧ List.length data = 256 ∧
    s.holdsExactly (Origin.pcie c.fn) Role.maker = true ∧ makerOk data = true ∧
    (List.find? (fun (g : Nat) => !imgUsed (s.makerImage g)) (List.range 3) = some g) ∧ (g = 0 ∨ repeatsFirst (s.makerImage 0) data = true))
  ∧ (∃ (s : State) (c : Cmd) (data : Bytes) (g : Nat), s.adminReady c.fn = true ∧ isPf c.fn = true ∧ memWf s.trust.otp = true ∧ List.length data ≠ 256 ∧
    s.holdsExactly (Origin.pcie c.fn) Role.installer = true ∧ instOk data = true ∧
    (List.find? (fun (g : Nat) => !imgUsed (s.instImage g)) (List.range 4) = some g))
  ∧ (∃ (s : State) (c : Cmd) (data : Bytes) (r : Role), s.adminReady c.fn = true ∧ isPf c.fn = true ∧ memWf s.trust.otp = true ∧
    (r = if List.length data = 256 then Role.maker else Role.installer) ∧ s.holdsExactly (Origin.pcie c.fn) r = false)
  ∧ (∃ (s : State) (c : Cmd) (data : Bytes) (r : Role), s.adminReady c.fn = true ∧ isPf c.fn = true ∧ memWf s.trust.otp = true ∧
    (r = if List.length data = 256 then Role.maker else Role.installer) ∧ s.holdsExactly (Origin.pcie c.fn) r = true ∧ makerOk data = false ∧
    instOk data = false) :=
  ⟨⟨wT wTrust fun t => { t with makerGen := none, instGen := none }, wCmd, wMakerImg, 0, by decide +kernel, by decide +kernel, by decide +kernel,
    by decide +kernel, by decide +kernel, by unfold makerOk; simp only [crc32c_eq]; decide +kernel, by decide +kernel, by decide +kernel⟩,
   ⟨wT wTrust fun t => { t with makerGen := none, instGen := none, otp := wMakerOtp }, wCmd, wInstImg, 0, by decide +kernel, by decide +kernel,
    by decide +kernel, by decide +kernel, by decide +kernel, by unfold instOk; simp only [crc32c_eq]; decide +kernel, by decide +kernel⟩,
   ⟨wNoRole (wT wTrust fun t => { t with makerGen := none, instGen := none, otp := wMakerOtp }), wCmd, wInstImg, .installer, by decide +kernel,
    by decide +kernel, by decide +kernel, by decide +kernel, by decide +kernel⟩,
   ⟨wT wTrust fun t => { t with makerGen := none, instGen := none, otp := wMakerOtp }, wCmd, List.replicate 256 1, .maker, by decide +kernel,
    by decide +kernel, by decide +kernel, by decide +kernel, by decide +kernel, by unfold makerOk; simp only [crc32c_eq]; decide +kernel,
    by unfold instOk; simp only [crc32c_eq]; decide +kernel⟩⟩

theorem met_RolesOtpAndPerturbation_2 :
  (∃ (s : State) (c : Cmd) (data : Bytes) (r : Role), s.adminReady c.fn = true ∧ isPf c.fn = true ∧ memWf s.trust.otp = true ∧
    (r = if List.length data = 256 then Role.maker else Role.installer) ∧ s.holdsExactly (Origin.pcie c.fn) r = true ∧ r = Role.installer ∧
    instOk data = true ∧ (∀ g < 4, imgUsed (s.instImage g) = true))
  ∧ (∃ (s : State) (c : Cmd) (data : Bytes), s.adminReady c.fn = true ∧ memWf s.trust.otp = true ∧ s.holds (Origin.pcie c.fn) Role.installer = true ∧
    data = decomText)
  ∧ (∃ (s : State) (c : Cmd), s.adminReady c.fn = true ∧ memWf s.trust.otp = true ∧ s.holds (Origin.pcie c.fn) Role.installer = false)
  ∧ (∃ (s : State) (c : Cmd) (data : Bytes), s.adminReady c.fn = true ∧ s.holdsExactly (Origin.pcie c.fn) Role.installer = true ∧ data = []) :=
  ⟨⟨wT wTrust fun t => { t with otp := (List.range 4).foldl (fun m g => memWriteN m (768 + 768 * g) [0xA5]) [] }, wCmd, wInstImg, .installer,
    by decide +kernel, by decide +kernel, by decide +kernel, by decide +kernel, by decide +kernel, by decide +kernel,
    by unfold instOk; simp only [crc32c_eq]; decide +kernel, by decide +kernel⟩,
   ⟨wTrust, wCmd, decomText, by decide +kernel⟩,
   ⟨wNoRole wTrust, wCmd, by decide +kernel⟩,
   ⟨wTrust, wCmd, [], by decide +kernel⟩⟩

theorem met_RolesOtpAndPerturbation_3 :
  (∃ (s : State) (c : Cmd) (data : Bytes), s.adminReady c.fn = true ∧ s.holdsExactly (Origin.pcie c.fn) Role.installer = true ∧ 8 ≤ List.length data ∧
    List.length data ≤ 64)
  ∧ (∃ (s : State) (c : Cmd) (data : Bytes), s.adminReady c.fn = true ∧ s.holdsExactly (Origin.pcie c.fn) Role.installer = true ∧ (1 ≤ List.length data ∧
    List.length data < 8 ∨ 64 < List.length data))
  ∧ (∃ (s : State) (o : Origin) (r : Role), r ≠ Role.operator ∧ s.mayGain o r = true ∧ s.lockedOut r = false ∧ s.otherHolder o r = none)
  ∧ (∃ (s : State) (o h : Origin) (r : Role), r ≠ Role.operator ∧ s.mayGain o r = true ∧ s.lockedOut r = false ∧ s.otherHolder o r = some h) :=
  ⟨⟨wTrust, wCmd, List.replicate 8 65, by decide +kernel⟩,
   ⟨wTrust, wCmd, List.replicate 1 65, by decide +kernel⟩,
   ⟨wNoRole (wT wTrust fun t => { t with otp := memWriteN [] 772 [16] }), .pcie 0, .installer, by decide +kernel⟩,
   ⟨wT (wNoRole (wT wTrust fun t => { t with otp := memWriteN [] 772 [16] })) fun t => { t with sessions := [⟨.pcie 0x101, .installer, 0⟩] }, .pcie 0,
    .pcie 0x101, .installer, by decide +kernel⟩⟩

theorem met_RolesOtpAndPerturbation_4 :
  (∃ (s : State) (c : Cmd) (role : BitVec 8) (r : Role) (b : Bytes) (u : State), s.adminReady c.fn = true ∧ roleOf role.toNat = some r ∧
    s.challenge (Origin.pcie c.fn) r = (0, b, u))
  ∧ (∃ (s : State) (c : Cmd) (role : BitVec 8) (r : Role) (why : Nat) (u : State), s.adminReady c.fn = true ∧ roleOf role.toNat = some r ∧
    s.challenge (Origin.pcie c.fn) r = (why, [], u) ∧ why ≠ 0)
  ∧ (∃ (s : State) (c : Cmd) (role : BitVec 8) (r : Role) (len : Nat), s.adminReady c.fn = true ∧ roleOf role.toNat = some r ∧ len ≠ 64)
  ∧ (∃ (s : State) (c : Cmd) (role : BitVec 8) (r : Role), s.adminReady c.fn = true ∧ roleOf role.toNat = some r) :=
  ⟨⟨wNoRole (wT wTrust fun t => { t with otp := memWriteN [] 772 [16] }), wCmd, 1, .installer, _, _, by decide +kernel, by decide +kernel,
    triple_of (by decide +kernel)⟩,
   ⟨wT (wNoRole (wT wTrust fun t => { t with otp := memWriteN [] 772 [16] })) fun t => { t with sessions := [⟨.pcie 0x101, .installer, 0⟩] }, wCmd, 1,
    .installer, 4, (((wT (wNoRole (wT wTrust fun t => { t with otp := memWriteN [] 772 [16] })) fun t => { t with sessions := [⟨.pcie 0x101, .installer, 0⟩] })).challenge (.pcie 0) .installer).2.2,
    by decide +kernel⟩,
   ⟨wNoRole (wT wTrust fun t => { t with otp := memWriteN [] 772 [16] }), wCmd, 1, .installer, 63, by decide +kernel⟩,
   ⟨wNoRole (wT wTrust fun t => { t with otp := memWriteN [] 772 [16] }), wCmd, 1, .installer, by decide +kernel⟩⟩

theorem met_RolesOtpAndPerturbation_5 :
  (∃ (s : State) (c : Cmd) (r : Role) (h : Origin), s.otherHolder (Origin.pcie c.fn) r = some h)
  ∧ (∃ (s : State) (o : Origin) (r : Role) (ch : Challenge) (resp : Bytes), r ≠ Role.operator ∧ s.mayGain o r = true ∧ s.otherHolder o r = none ∧
    s.trust.challenges = [ch] ∧ ch.origin = o ∧ ch.role = r ∧ s.time < ch.issued + 10000000000 ∧ resp = hmacSha384 (s.roleKey r) ch.bytes)
  ∧ (∃ (s : State) (o : Origin) (r : Role) (ch : Challenge) (resp : Bytes), r ≠ Role.operator ∧ s.mayGain o r = true ∧ s.otherHolder o r = none ∧
    s.trust.challenges = [ch] ∧ ch.origin = o ∧ ch.role = r ∧ s.time < ch.issued + 10000000000 ∧ resp ≠ hmacSha384 (s.roleKey r) ch.bytes)
  ∧ (∃ (s : State) (o : Origin) (r : Role) (ch : Challenge), r ≠ Role.operator ∧ s.mayGain o r = true ∧ s.trust.challenges = [ch] ∧
    ch.issued + 10000000000 ≤ s.time) :=
  ⟨⟨wT wTrust fun t => { t with sessions := [⟨.pcie 0x101, .installer, 0⟩] }, wCmd, .installer, .pcie 0x101, by decide +kernel⟩,
   ⟨wT (wNoRole (wT wTrust fun t => { t with otp := memWriteN [] 772 [16] })) fun t => { t with challenges := [⟨.pcie 0, .installer, List.replicate 64 3, 5⟩] },
    .pcie 0, .installer, ⟨.pcie 0, .installer, List.replicate 64 3, 5⟩, hmacSha384 (List.replicate 48 0) (List.replicate 64 3), by decide +kernel⟩,
   ⟨wT (wNoRole (wT wTrust fun t => { t with otp := memWriteN [] 772 [16] })) fun t => { t with challenges := [⟨.pcie 0, .installer, List.replicate 64 3, 5⟩] },
    .pcie 0, .installer, ⟨.pcie 0, .installer, List.replicate 64 3, 5⟩, [1], by decide +kernel⟩,
   ⟨{ wT (wNoRole (wT wTrust fun t => { t with otp := memWriteN [] 772 [16] })) fun t => { t with challenges := [⟨.pcie 0, .installer, List.replicate 64 3, 5⟩] } with time := 10000000005 },
    .pcie 0, .installer, ⟨.pcie 0, .installer, List.replicate 64 3, 5⟩, by decide +kernel⟩⟩

theorem met_RolesOtpAndPerturbation_6 :
  (∃ (s : State) (r : Role), s.trust.lockouts.length = 3 ∧ (s.lockout r).fails % 5 = 4)
  ∧ (∃ (s : State) (r : Role), s.trust.lockouts.length = 3 ∧ (s.lockout r).fails % 5 ≠ 4)
  ∧ (∃ (s : State) (c : Cmd) (role : BitVec 8) (salt d data : Bytes), s.adminReady c.fn = true ∧ role = 0 ∧
    s.mayGain (Origin.pcie c.fn) Role.operator = true ∧ s.lockedOut Role.operator = false ∧ s.trust.cred = some (salt, d) ∧ sha384 (salt ++ data) = d)
  ∧ (∃ (s : State) (c : Cmd) (role : BitVec 8) (salt d data : Bytes), s.adminReady c.fn = true ∧ role = 0 ∧
    s.mayGain (Origin.pcie c.fn) Role.operator = true ∧ s.lockedOut Role.operator = false ∧ s.trust.cred = some (salt, d) ∧ sha384 (salt ++ data) ≠ d) :=
  ⟨⟨wT (wNoRole (wT wTrust fun t => { t with otp := memWriteN [] 772 [16] })) fun t => { t with lockouts := [⟨0, 0, 0⟩, ⟨4, 0, 0⟩, ⟨0, 0, 0⟩] },
    .installer, by decide +kernel⟩,
   ⟨wT (wNoRole (wT wTrust fun t => { t with otp := memWriteN [] 772 [16] })) fun t => { t with lockouts := [⟨0, 0, 0⟩, ⟨0, 0, 0⟩, ⟨0, 0, 0⟩] },
    .installer, by decide +kernel⟩,
   ⟨wT (wNoRole (wT wTrust fun t => { t with otp := memWriteN [] 772 [16] })) fun t => { t with cred := some (List.replicate 16 2, sha384 (List.replicate 16 2 ++ List.replicate 8 65)) },
    wCmd, 0, List.replicate 16 2, sha384 (List.replicate 16 2 ++ List.replicate 8 65), List.replicate 8 65, by decide +kernel⟩,
   ⟨wT (wNoRole (wT wTrust fun t => { t with otp := memWriteN [] 772 [16] })) fun t => { t with cred := some (List.replicate 16 2, sha384 (List.replicate 16 2 ++ List.replicate 8 65)) },
    wCmd, 0, List.replicate 16 2, sha384 (List.replicate 16 2 ++ List.replicate 8 65), List.replicate 8 66, by decide +kernel⟩⟩

theorem met_RolesOtpAndPerturbation_7 :
  (∃ (s : State) (o : Origin) (r : Role) (x : Session),
    ((List.filter (fun (x : Session) => x.origin == o && x.role == r) s.trust.sessions).length ≤ 1) ∧ x ∈ (s.dropRole o r).trust.sessions)
  ∧ (∃ (s : State) (o : Origin) (role : BitVec 2) (r : Role), s.powered = true ∧ s.reaches o 6 = true ∧ roleOf role.toNat = some r)
  ∧ (∃ (s : State) (o : Origin) (role : BitVec 2), s.powered = true ∧ s.reaches o 6 = true ∧ role = 3)
  ∧ (∃ (s : State) (o : Origin) (r : Role) (b : Bytes) (u : State) (i : Nat), s.challenge o r = (0, b, u) ∧ List.length b = 64 ∧ i < 16) :=
  ⟨⟨wTrust, .pcie 0, .installer, ⟨.pcie 0, .operator, 0⟩, by decide +kernel⟩,
   ⟨wTrust, .pcie 0, 1, .installer, by decide +kernel⟩,
   ⟨wTrust, .pcie 0, 3, by decide +kernel⟩,
   ⟨wNoRole (wT wTrust fun t => { t with otp := memWriteN [] 772 [16] }), .pcie 0, .installer, _, _, 15, triple_of (by decide +kernel),
    by decide +kernel, by decide +kernel⟩⟩

theorem met_RolesOtpAndPerturbation_8 :
  (∃ (s : State) (o : Origin) (ch : Challenge), (List.find? (fun (x : Challenge) => x.origin == o) s.trust.challenges = some ch))
  ∧ (∃ (s : State) (o : Origin) (x : Session), s.trust.sessions = [x] ∧ x.origin = o)
  ∧ (∃ (s : State) (role : BitVec 2) (r : Role), roleOf role.toNat = some r ∧ (s.lockout r).until_ ≠ 0 ∧ s.trust.lockouts.length = 3)
  ∧ (∃ (param : Bytes), List.length param ≤ 64) :=
  ⟨⟨wr (wT (wNoRole (wT wTrust fun t => { t with otp := memWriteN [] 772 [16] })) fun t => { t with challenges := [⟨.pcie 0, .installer, List.replicate 64 3, 5⟩] }) [(R.ROLE.AUTH_STATUS_RESULT.of (.pcie 0),
    1)], .pcie 0, ⟨.pcie 0, .installer, List.replicate 64 3, 5⟩, by decide +kernel⟩,
   ⟨wT wTrust fun t => { t with sessions := [⟨.pcie 0, .installer, 7⟩] }, .pcie 0, ⟨.pcie 0, .installer, 7⟩, by decide +kernel⟩,
   ⟨wT wTrust fun t => { t with lockouts := [⟨0, 0, 0⟩, ⟨5, 1, 60000000000⟩, ⟨0, 0, 0⟩] }, 1, .installer, by decide +kernel⟩,
   ⟨List.replicate 64 5, by decide +kernel⟩⟩

theorem met_RolesOtpAndPerturbation_9 :
  (∃ (s : State) (o : Origin), s.powered = true ∧ s.reaches o 9 = true ∧ s.holds o Role.installer = true ∧ s.perturbOpen = true)
  ∧ (∃ (s : State) (o : Origin), s.powered = true ∧ s.reaches o 9 = true ∧ s.holds o Role.installer = true ∧ s.perturbOpen = false)
  ∧ (∃ (s : State) (n : BitVec 4), (n.toNat = 0 ∨ s.namedBy n.toNat = []))
  ∧ (∃ (s : State) (n : BitVec 4), n.toNat ≠ 0 ∧ s.namedBy n.toNat ≠ [] ∧ s.get (R.PERTURB.PROFILE_A_KIND n.toNat) ≠ 0) :=
  ⟨⟨wT wTrust fun t => { t with otp := memWriteN [] 772 [8] }, .pcie 0, by decide +kernel⟩,
   ⟨wTrust, .pcie 0, by decide +kernel⟩,
   ⟨wTrust, 0, by decide +kernel⟩,
   ⟨wr (wT wTrust fun t => { t with otp := memWriteN [] 772 [8] }) [(H.POINT 0x18, 4), (R.PERTURB.PROFILE_A_KIND 4, 1), (R.PERTURB.PROFILE_A_COUNT 4,
    2)], 4, by decide +kernel⟩⟩

theorem met_RolesOtpAndPerturbation_10 :
  (∃ (s : State) (n k : Nat), 1 ≤ n ∧ n ≤ 15 ∧ assoc s.trust.injected n = some k ∧ s.get (R.PERTURB.PROFILE_A_COUNT n) ≠ 0 ∧
    k < s.get (R.PERTURB.PROFILE_A_COUNT n))
  ∧ (∃ (s : State) (n k : Nat), 1 ≤ n ∧ n ≤ 15 ∧ assoc s.trust.injected n = some k ∧ s.get (R.PERTURB.PROFILE_A_COUNT n) ≠ 0 ∧
    s.get (R.PERTURB.PROFILE_A_COUNT n) ≤ k)
  ∧ (∃ (s : State) (page d : Nat), assoc s.trust.delays page = some d) :=
  ⟨⟨wT (wr (wT wTrust fun t => { t with otp := memWriteN [] 772 [8] }) [(H.POINT 0x18, 4), (R.PERTURB.PROFILE_A_KIND 4, 1),
    (R.PERTURB.PROFILE_A_COUNT 4, 2)]) fun t => { t with injected := [(4, 1)] }, 4, 1, by decide +kernel⟩,
   ⟨wT (wr (wT wTrust fun t => { t with otp := memWriteN [] 772 [8] }) [(H.POINT 0x18, 4), (R.PERTURB.PROFILE_A_KIND 4, 1),
    (R.PERTURB.PROFILE_A_COUNT 4, 2)]) fun t => { t with injected := [(4, 2)] }, 4, 2, by decide +kernel⟩,
   ⟨wT wTrust fun t => { t with delays := [(0x10, 9000000000)] }, 0x10, 9000000000, by decide +kernel⟩⟩

theorem met_RegistersAndSharedResources_1 :
  (∃ (s : State) (o : Origin) (page off len : Nat), s.powered = true ∧ s.reaches o page = true ∧ (len ≠ 4 ∨ off % 4 ≠ 0) ∧ (len ≠ 8 ∨ off % 8 ≠ 0))
  ∧ (∃ (s : State) (o : Origin) (page : Nat), s.powered = true ∧ s.reaches o page = false)
  ∧ (∃ (s : State) (o : Origin) (page : Nat), s.powered = true ∧ s.reaches o page = true ∧ s.latches = [])
  ∧ (∃ (s : State) (o : Origin) (lo hi : BitVec 64), s.powered = true ∧ s.reaches o 4 = true ∧ s.holds o Role.operator = true ∧ lo.toNat < 2 ^ 32 ∧
    hi.toNat < 2 ^ 32) :=
  ⟨⟨wTrust, .pcie 0, 4, 0x40, 3, by decide +kernel⟩,
   ⟨wTrust, .pcie 0, 0x200, by decide +kernel⟩,
   ⟨wr wTrust [(H.STICKY 0x18, 5), (H.VALID 0x18, 1), (H.CODE 0x18, 9), (H.ERRS 0x18, 3)], .pcie 0, 0x18, by decide +kernel⟩,
   ⟨wr wTrust [(R.RTC.SET_TIME, 77)], .pcie 0, 0xFFFFFFFF, 0x12345678, by decide +kernel⟩⟩

theorem met_RegistersAndSharedResources_2 :
  (∃ (s : State) (o : Origin) (hi : BitVec 64), s.powered = true ∧ s.reaches o 4 = true ∧ s.holds o Role.operator = true ∧ hi.toNat < 2 ^ 32 ∧
    s.pendingLow o 4 72 = none)
  ∧ (∃ (s : State) (o : Origin), s.powered = true ∧ s.reaches o 4 = true)
  ∧ (∃ (s : State) (o : Origin) (x : PendLow), s.lows = [x] ∧ x.origin = o)
  ∧ (∃ (page code info : Nat), code < 2 ^ 16 ∧ info < 2 ^ 32 ∧ page < 65536) :=
  ⟨⟨wr wTrust [(R.RTC.SET_TIME, 77)], .pcie 0, 0x12345678, by decide +kernel⟩,
   ⟨{ wTrust with rtcBase := 0x500000007, latches := [⟨.pcie 0, 4, 0x40, 5, 0⟩] }, .pcie 0, by decide +kernel⟩,
   ⟨{ wTrust with lows := [⟨.pcie 0, 4, 0x48, 5, 9⟩] }, .pcie 0, ⟨.pcie 0, 4, 0x48, 5, 9⟩, by decide +kernel⟩,
   ⟨0x18, 0x1801, 0xFFFFFFFF, by decide +kernel⟩⟩

theorem met_RegistersAndSharedResources_3 :
  (∃ (s : State) (o : Origin) (lane : Fin 12), s.powered = true ∧ s.reaches o (lanePage ↑lane) = true ∧ s.holds o Role.installer = true ∧
    s.ctrlHeld (lanePage ↑lane) = true ∧ s.get (H.ENABLE (lanePage ↑lane)) = 1)
  ∧ (∃ (s : State) (o : Origin) (lane : Fin 12), s.powered = true ∧ s.reaches o (lanePage ↑lane) = true ∧ s.holds o Role.installer = true ∧
    s.ctrlHeld (lanePage ↑lane) = false ∧ s.get (H.ENABLE (lanePage ↑lane)) = 1 ∧ (s.lane ↑lane).work = LaneWork.idle ∧ (s.lane ↑lane).held = [])
  ∧ (∃ (s : State) (o : Origin) (point : BitVec 8), s.powered = true ∧ s.reaches o 16 = true ∧ s.holds o Role.installer = true ∧ 1 ≤ point.toNat ∧
    s.perturbOpen = true ∧ s.get R.PERTURB.CTRL_ARM ≠ 0 ∧ point.toNat ≤ 15 ∧ s.get (R.PERTURB.PROFILE_A_KIND point.toNat) = 1)
  ∧ (∃ (s : State) (o : Origin) (point : BitVec 8), s.powered = true ∧ s.reaches o 16 = true ∧ s.holds o Role.installer = true ∧ 1 ≤ point.toNat ∧
    s.perturbOpen = true ∧ s.get R.PERTURB.CTRL_ARM ≠ 0 ∧ 16 ≤ point.toNat) :=
  ⟨⟨wr wTrust [(R.LANE.LANE_STATUS_RESERVED 3, 1), (H.ENABLE 0x1B, 1)], .pcie 0, 3, by decide +kernel⟩,
   ⟨wr wTrust [(R.LANE.LANE_STATUS_RETIRED 3, 1), (H.ENABLE 0x1B, 1), (R.LANE.JOBS_DONE_COUNT 3, 4), (H.STICKY 0x1B, 5)], .pcie 0, 3, by decide +kernel⟩,
   ⟨wr (wT wTrust fun t => { t with otp := memWriteN [] 772 [8] }) [(R.PERTURB.CTRL_ARM, 1), (R.PERTURB.PROFILE_A_KIND 1, 1)], .pcie 0, 1,
    by decide +kernel⟩,
   ⟨wr (wT wTrust fun t => { t with otp := memWriteN [] 772 [8] }) [(R.PERTURB.CTRL_ARM, 1), (R.PERTURB.PROFILE_A_KIND 1, 1)], .pcie 0, 16,
    by decide +kernel⟩⟩

theorem met_RegistersAndSharedResources_4 :
  (∃ (s : State) (o : Origin) (point : BitVec 8), s.powered = true ∧ s.reaches o 16 = true ∧ s.holds o Role.installer = true ∧ 1 ≤ point.toNat ∧
    (s.perturbOpen = false ∨ s.get R.PERTURB.CTRL_ARM = 0))
  ∧ (∃ (s : State) (r : Report) (rs : List Report), s.fault.intake = r :: rs)
  ∧ (∃ (r : Report), r.sev < 4 ∧ r.func ≤ 257)
  ∧ (∃ (x : Ring) (slots : Nat), x.entries.length ≤ slots ∧ 0 < slots) :=
  ⟨⟨wr (wT wTrust fun t => { t with otp := memWriteN [] 772 [8] }) [(R.PERTURB.CTRL_ARM, 0), (R.PERTURB.PROFILE_A_KIND 1, 1)], .pcie 0, 1,
    by decide +kernel⟩,
   ⟨{ wTrust with fault := { wTrust.fault with intake := List.replicate 2 ⟨5, 0x1234, 2, 3, 0, 7, 0, 0⟩ } }, ⟨5, 0x1234, 2, 3, 0, 7, 0, 0⟩, [⟨5, 0x1234,
    2, 3, 0, 7, 0, 0⟩], by decide +kernel⟩,
   ⟨⟨5, 0x1234, 0, 3, 0, 7, 0, 0⟩, by decide +kernel⟩,
   ⟨⟨List.replicate 3 ⟨⟨5, 0x1235, 2, 3, 0, 7, 0, 0⟩, 1⟩, 0, 0, false⟩, 4, by decide +kernel⟩⟩

theorem met_RegistersAndSharedResources_5 :
  (∃ (s : State) (o : Origin) (n : BitVec 13), s.powered = true ∧ s.reaches o 8 = true ∧ (o = Origin.firmware ∨ ∃ (f : Nat), o = Origin.pcie f ∧
    isPf f = true) ∧ n.toNat ≤ s.fault.dev.entries.length ∧ s.fault.dev.lost = 0 ∧ s.fault.dev.unclean = false)
  ∧ (∃ (s : State) (o : Origin) (n : BitVec 13), s.powered = true ∧ s.reaches o 8 = true ∧ (o = Origin.firmware ∨ ∃ (f : Nat), o = Origin.pcie f ∧
    isPf f = true) ∧ n.toNat ≤ s.fault.dev.entries.length ∧ s.fault.dev.lost ≠ 0 ∧ s.fault.dev.entries.length - n.toNat < 4096)
  ∧ (∃ (s : State) (o : Origin) (n : BitVec 13), s.powered = true ∧ s.reaches o 8 = true ∧ (o = Origin.firmware ∨ ∃ (f : Nat), o = Origin.pcie f ∧
    isPf f = true) ∧ s.fault.dev.entries.length < n.toNat ∧ s.fault.intake.length < 64)
  ∧ (∃ (s : State) (o : Origin), s.powered = true ∧ s.reaches o 8 = true ∧ (o = Origin.gate ∨ o = Origin.setManager ∨ o = Origin.testPort) ∧
    s.fault.intake.length < 64) :=
  ⟨⟨{ wTrust with fault := { wTrust.fault with dev := ⟨List.replicate 3 ⟨⟨5, 0x1234, 2, 3, 0, 7, 0, 0⟩, 1⟩, 0, 0, false⟩ } }, .pcie 0, 3,
    by decide +kernel, by decide +kernel, Or.inr ⟨0, rfl, rfl⟩, by decide +kernel, by decide +kernel, by decide +kernel⟩,
   ⟨{ wTrust with fault := { wTrust.fault with dev := ⟨List.replicate 3 ⟨⟨5, 0x1234, 2, 3, 0, 7, 0, 0⟩, 1⟩, 5, 0, false⟩ } }, .pcie 0, 2,
    by decide +kernel, by decide +kernel, Or.inr ⟨0, rfl, rfl⟩, by decide +kernel, by decide +kernel, by decide +kernel⟩,
   ⟨{ wTrust with fault := { wTrust.fault with dev := ⟨List.replicate 3 ⟨⟨5, 0x1234, 2, 3, 0, 7, 0, 0⟩, 1⟩, 0, 0, false⟩ } }, .pcie 0, 4,
    by decide +kernel, by decide +kernel, Or.inr ⟨0, rfl, rfl⟩, by decide +kernel, by decide +kernel⟩,
   ⟨{ wTrust with fault := { wTrust.fault with dev := ⟨List.replicate 3 ⟨⟨5, 0x1234, 2, 3, 0, 7, 0, 0⟩, 1⟩, 0, 0, false⟩ } }, .gate, by decide +kernel⟩⟩

theorem met_RegistersAndSharedResources_6 :
  (∃ (s : State) (o : Origin) (r : BitVec 3), s.powered = true ∧ s.reaches o 10 = true ∧ 1 ≤ r.toNat ∧ r.toNat ≤ 4 ∧ s.holds o Role.operator = true ∧
    (s.get (R.SHARE.OWNER_STATE r.toNat) = 0 ∨ s.holdsComparator o r.toNat = true))
  ∧ (∃ (s : State) (o : Origin) (r : BitVec 3), s.powered = true ∧ s.reaches o 10 = true ∧ 1 ≤ r.toNat ∧ r.toNat ≤ 4 ∧ s.holds o Role.operator = true ∧
    s.get (R.SHARE.OWNER_STATE r.toNat) ≠ 0 ∧ s.holdsComparator o r.toNat = false)
  ∧ (∃ (s : State) (o : Origin) (r : BitVec 3), s.powered = true ∧ s.reaches o 10 = true ∧ (r.toNat = 0 ∨ r.toNat = 5 ∨ r.toNat = 6))
  ∧ (∃ (s : State) (o : Origin) (r : BitVec 3), s.powered = true ∧ s.reaches o 10 = true ∧ 1 ≤ r.toNat ∧ r.toNat ≤ 4 ∧
    (s.holdsComparator o r.toNat = true ∨ s.holds o Role.installer = true)) :=
  ⟨⟨wTrust, .pcie 0, 1, by decide +kernel⟩,
   ⟨wr wTrust [(R.SHARE.OWNER_STATE 2, 1), (R.SHARE.OWNER_ORIGIN 2, 0), (R.SHARE.OWNER_FUNC 2, 257)], .pcie 0, 2, by decide +kernel⟩,
   ⟨wTrust, .pcie 0, 0, by decide +kernel⟩,
   ⟨wr wTrust [(R.SHARE.OWNER_STATE 2, 1), (R.SHARE.OWNER_ORIGIN 2, 0), (R.SHARE.OWNER_FUNC 2, 257)], .pcie 0, 2, by decide +kernel⟩⟩

theorem met_RegistersAndSharedResources_7 :
  (∃ (s : State) (o : Origin) (r : BitVec 3), s.powered = true ∧ s.reaches o 10 = true ∧ 1 ≤ r.toNat ∧ r.toNat ≤ 4 ∧
    s.holdsComparator o r.toNat = false ∧ s.holds o Role.installer = false)
  ∧ (∃ (s : State) (o : Origin) (r : BitVec 3), s.powered = true ∧ s.reaches o 10 = true ∧ r.toNat = 5 ∧ s.holds o Role.installer = true)
  ∧ (∃ (s : State) (o : Origin) (r : BitVec 3) (blk : BitVec 8), s.powered = true ∧ s.reaches o 10 = true ∧ r.toNat = 0 ∧ (blk = 19 ∨ blk = 80) ∧
    s.holds o Role.installer = true ∧ s.ballBusy = false)
  ∧ (∃ (s : State) (o : Origin) (r : BitVec 3) (blk : BitVec 8), s.powered = true ∧ s.reaches o 10 = true ∧ r.toNat = 0 ∧ (blk = 19 ∨ blk = 80) ∧
    s.holds o Role.installer = true ∧ s.ballBusy = true) :=
  ⟨⟨wNoRole (wr wTrust [(R.SHARE.OWNER_STATE 2, 1), (R.SHARE.OWNER_ORIGIN 2, 0), (R.SHARE.OWNER_FUNC 2, 257)]), .pcie 0, 2, by decide +kernel⟩,
   ⟨wTrust, .pcie 0, 5, by decide +kernel⟩,
   ⟨wTrust, .pcie 0, 0, 0x13, by decide +kernel⟩,
   ⟨wr wTrust [(R.SHARE.OWNER_STATE 0, 1), (R.SHARE.OWNER_BLOCK 0, 0x50), (R.DROVE.SYNC_CTRL_EN, 1)], .pcie 0, 0, 0x13, by decide +kernel⟩⟩

theorem met_RegistersAndSharedResources_8 : ∃ (s : State), s.get (R.SHARE.OWNER_BLOCK 5) = 11 ∧ s.get R.PWR.MODE_MODE ≠ 0 :=
  ⟨wr wTrust [(R.SHARE.OWNER_BLOCK 5, 11)], by decide +kernel⟩

theorem met_EveryStepKeepsMemoriesAndOtp : ∃ (s t : State) (a i : Nat), step s = Host.Outcome.next t ∧ s.mem.wf = true ∧ memWf s.trust.otp = true ∧
    BitVec.getLsbD (memRead s.trust.otp a) i = true :=
  ⟨{ wT wTrust (fun t => { t with otp := memWriteN [] 0 [0xA5, 1] }) with pending := [Instr.powerCut], mem := { wOn.mem with hostA := memWriteN [] 0x1000 [1, 2] } },
    _, 0, 2, next_of (by decide +kernel), by decide +kernel, by decide +kernel, by decide +kernel⟩

end Sys2Proof.Tests
end

section
/-!
Recording an error in a page (R40, R604): which register fields it sets, and that it changes nothing outside the register fields, the
rises, the message counters and the intake queue.
-/

namespace Sys2Proof.Machine

open Sys2Proof.Laws

/-! ### What each operation leaves alone -/

theorem State.put_frame (s : State) (x : Fld) (v : Nat) : forget (2 ^ 5) (s.put x v) = forget (2 ^ 5) s := set_regs rfl s _

theorem State.bump_frame (s : State) (x : Fld) (n : Nat) : forget (2 ^ 5) (s.bump x n) = forget (2 ^ 5) s := State.put_frame ..

theorem State.countMsi_frame (s : State) (fn vec : Nat) : forget (2 ^ 31) (s.countMsi fn vec) = forget (2 ^ 31) s := set_host rfl s _

/-- A page's message changes only the host side's message counters (R449). -/
theorem State.pageIrq_frame (s : State) (page : Nat) : forget (2 ^ 31) (s.pageIrq page) = forget (2 ^ 31) s := by
  have hvf (t : State) (f : Nat) :
      forget (2 ^ 31) (if t.get (R.VF.VF_IRQ_EN f) = 1 then t.countMsi f (t.get (R.VF.VF_IRQ_VECTOR f)) else t) = forget (2 ^ 31) t := by
    split
    · exact State.countMsi_frame ..
    · rfl
  unfold State.pageIrq
  split
  · exact hvf ..
  · refine (foldl_frame _ _ (fun t (f : Fn) => hvf t f.p.func) _ _).trans ?_
    split
    · exact State.countMsi_frame ..
    · rfl

theorem State.irqAfter_frame (s t : State) (page : Nat) : forget (2 ^ 31) (s.irqAfter t page) = forget (2 ^ 31) t := by
  unfold State.irqAfter
  split
  · exact State.pageIrq_frame ..
  · rfl

theorem State.rise_frame (s : State) (page bit : Nat) : forget (2 ^ 5 + 2 ^ 34) (s.rise page bit) = forget (2 ^ 5 + 2 ^ 34) s :=
  (set_rises rfl _ _).trans (set_regs rfl s _)

/-- A report changes only the intake queue and the rings' loss counts (R608). -/
theorem State.report_frame (s : State) (r : Report) : forget (2 ^ 10) (s.report r) = forget (2 ^ 10) s := by
  unfold State.report
  split <;> exact set_fault rfl s _

/-- Recording in a page changes only register fields, rises and message counters. -/
theorem State.recordPage_frame (s : State) (page code info : Nat) :
    forget (2 ^ 5 + 2 ^ 31 + 2 ^ 34) (s.recordPage page code info) = forget (2 ^ 5 + 2 ^ 31 + 2 ^ 34) s := by
  refine (widen _ rfl (State.irqAfter_frame ..)).trans <| (widen _ rfl (State.rise_frame ..)).trans <|
    (widen _ rfl (State.bump_frame ..)).trans ?_
  split
  · refine widen _ (A := 2 ^ 5) rfl ?_
    simp only [State.bump_frame, State.put_frame]
  · rfl

/-- Recording an error changes only register fields, the intake queue, rises and message counters. -/
theorem State.record_frame (s : State) (page code info func ext last : Nat) :
    forget (2 ^ 5 + 2 ^ 10 + 2 ^ 31 + 2 ^ 34) (s.record page code info func ext last) = forget (2 ^ 5 + 2 ^ 10 + 2 ^ 31 + 2 ^ 34) s :=
  (widen _ rfl (State.report_frame ..)).trans (widen _ rfl (State.recordPage_frame ..))

@[simp] theorem State.record_gate (s : State) (page code info func ext last : Nat) :
    (s.record page code info func ext last).gate = s.gate :=
  keeps_gate (State.record_frame ..) rfl

/-! ### What a register field reads afterwards -/

/-- States of the same registers read alike. -/
theorem State.get_of_regs {s t : State} (h : t.regs = s.regs) (x : Fld) : t.get x = s.get x := by rw [State.get, State.get, h]

@[simp] theorem State.irqAfter_get (s t : State) (page : Nat) (x : Fld) : (s.irqAfter t page).get x = t.get x :=
  State.get_of_regs (keeps_regs (State.irqAfter_frame ..) rfl) x

@[simp] theorem State.report_get (s : State) (r : Report) (x : Fld) : (s.report r).get x = s.get x :=
  State.get_of_regs (keeps_regs (State.report_frame ..) rfl) x

theorem State.rise_get_other (s : State) (page bit : Nat) {x : Fld} (h : x ≠ H.STICKY page) : (s.rise page bit).get x = s.get x :=
  State.get_put_other s _ h

/-- A counting field stops at the largest value of its width. -/
@[simp] theorem State.get_bump_same (s : State) (x : Fld) (n : Nat) : (s.bump x n).get x = min (s.get x + n) (2 ^ x.w - 1) := by
  have hlt : min (s.get x + n) (2 ^ x.w - 1) < 2 ^ x.w := by have := Nat.two_pow_pos x.w; omega
  rw [State.bump, State.get_put_same, Nat.mod_eq_of_lt hlt]

theorem State.get_bump_other (s : State) {x y : Fld} (n : Nat) (h : y ≠ x) : (s.bump x n).get y = s.get y := State.get_put_other s _ h

/-! ### The error fields of a page (R40) -/

/-- The first error of a page is latched, and ERRS counts it. -/
theorem State.record_get_first {s : State} {page : Nat} (hv : s.get (H.VALID page) = 0) (code info func ext last : Nat) {x : Fld}
    (hx : x ≠ H.STICKY page) :
    (s.record page code info func ext last).get x =
      (((((s.put (H.CODE page) code).put (H.INFO page) info).put (H.VALID page) 1).bump (H.COUNT page)).bump (H.ERRS page)).get x := by
  simp only [State.record, State.recordPage, State.report_get, State.irqAfter_get, State.rise_get_other _ _ _ hx, hv, if_true]

/-- A later error of a page only counts in ERRS. -/
theorem State.record_get_later {s : State} {page : Nat} (hv : s.get (H.VALID page) ≠ 0) (code info func ext last : Nat) {x : Fld}
    (hx : x ≠ H.STICKY page) : (s.record page code info func ext last).get x = (s.bump (H.ERRS page)).get x := by
  simp only [State.record, State.recordPage, State.report_get, State.irqAfter_get, State.rise_get_other _ _ _ hx, hv, if_false]

/-- Fields at different places of a register page are different. -/
theorem Fld.ne_of_place {x y : Fld} (h : ((x.off, x.lo) == (y.off, y.lo)) = false) : x ≠ y := by
  rintro rfl
  simp at h

theorem State.record_bit_VALID (s : State) (page code info func ext last : Nat) :
    (s.record page code info func ext last).bit (H.VALID page) = true := by
  have hs : H.VALID page ≠ H.STICKY page := Fld.ne_of_place rfl
  have he : H.VALID page ≠ H.ERRS page := Fld.ne_of_place rfl
  have hc : H.VALID page ≠ H.COUNT page := Fld.ne_of_place rfl
  by_cases hv : s.get (H.VALID page) = 0
  · rw [State.bit, State.record_get_first hv _ _ _ _ _ hs, State.get_bump_other _ _ he, State.get_bump_other _ _ hc, State.get_put_same]
    rfl
  · simp [State.bit, State.record_get_later hv _ _ _ _ _ hs, State.get_bump_other _ _ he, hv]

theorem State.record_get_CODE {s : State} {page : Nat} (hv : s.get (H.VALID page) = 0) (code info func ext last : Nat) :
    (s.record page code info func ext last).get (H.CODE page) = code % 2 ^ 16 := by
  have hs : H.CODE page ≠ H.STICKY page := Fld.ne_of_place rfl
  have he : H.CODE page ≠ H.ERRS page := Fld.ne_of_place rfl
  have hc : H.CODE page ≠ H.COUNT page := Fld.ne_of_place rfl
  have hd : H.CODE page ≠ H.VALID page := Fld.ne_of_place rfl
  have hi : H.CODE page ≠ H.INFO page := Fld.ne_of_place rfl
  rw [State.record_get_first hv _ _ _ _ _ hs, State.get_bump_other _ _ he, State.get_bump_other _ _ hc, State.get_put_other _ _ hd,
    State.get_put_other _ _ hi, State.get_put_same]
  rfl

theorem State.record_get_ERRS (s : State) (page code info func ext last : Nat) :
    (s.record page code info func ext last).get (H.ERRS page) = min (s.get (H.ERRS page) + 1) 255 := by
  have hs : H.ERRS page ≠ H.STICKY page := Fld.ne_of_place rfl
  have hc : H.ERRS page ≠ H.COUNT page := Fld.ne_of_place rfl
  have hd : H.ERRS page ≠ H.VALID page := Fld.ne_of_place rfl
  have hi : H.ERRS page ≠ H.INFO page := Fld.ne_of_place rfl
  have hk : H.ERRS page ≠ H.CODE page := Fld.ne_of_place rfl
  by_cases hv : s.get (H.VALID page) = 0
  · rw [State.record_get_first hv _ _ _ _ _ hs, State.get_bump_same, State.get_bump_other _ _ hc, State.get_put_other _ _ hd,
      State.get_put_other _ _ hi, State.get_put_other _ _ hk]
    rfl
  · rw [State.record_get_later hv _ _ _ _ _ hs, State.get_bump_same]
    rfl

end Sys2Proof.Machine
end

section
/-!
The credit check of a received packet (R65-R68).
-/

namespace Sys2Proof.Machine

/-- A FRAME_DATA packet at or beyond the data limit: both sides of the credit rise by one and the overrun is recorded. -/
theorem State.takeIn_data_overrun {s : State} {p : Bytes} (hp : pktType p = 0x11) (hc : s.gate.advData ≤ s.gate.rxData) :
    s.takeIn p = (s.setGate fun g => { g with rxData := g.rxData + 1, advData := g.advData + 1 }).record 0x10 E.GATE_CREDIT_OVERRUN 0 0x1F1 := by
  simp only [State.takeIn, hp, Nat.not_lt.mpr hc, if_true, if_false]
  rfl

/-- A control packet at or beyond the control limit, heartbeats (which need no credit) aside. -/
theorem State.takeIn_ctrl_overrun {s : State} {p : Bytes} (hd : pktType p ≠ 0x11) (hb : pktType p ≠ 0x3F) (hc : s.gate.advCtrl ≤ s.gate.rxCtrl) :
    s.takeIn p = (s.setGate fun g => { g with rxCtrl := g.rxCtrl + 1, advCtrl := g.advCtrl + 1 }).record 0x10 E.GATE_CREDIT_OVERRUN 0 0x1F1 := by
  simp only [State.takeIn, hd, hb, Nat.not_lt.mpr hc, false_and, if_false]
  rfl

/-- Recording an overrun after a change of the Gate state `f` keeps that change and shows in the header of page 0x10. -/
theorem State.record_creditOverrun (s : State) (f : GateSt → GateSt) {t : State}
    (ht : t = (s.setGate f).record 0x10 E.GATE_CREDIT_OVERRUN 0 0x1F1) :
    t.gate = f s.gate ∧ t.bit (H.VALID 0x10) = true ∧ (s.get (H.VALID 0x10) = 0 → t.get (H.CODE 0x10) = 0x101E)
      ∧ t.get (H.ERRS 0x10) = min (s.get (H.ERRS 0x10) + 1) 255 := by
  subst ht
  exact ⟨State.record_gate .., State.record_bit_VALID .., fun hv => State.record_get_CODE (s := s.setGate f) hv .., State.record_get_ERRS ..⟩

/-- Settles O4: beyond its limit a packet of either class leaves the receive buffer as it is, and the record of the overrun touches no Gate state. -/
theorem creditOverrunDiscards : Obligations.CreditOverrunDiscards :=
  ⟨fun s _ hp hc => s.record_creditOverrun _ (State.takeIn_data_overrun hp hc),
   fun s _ hd hb hc => s.record_creditOverrun _ (State.takeIn_ctrl_overrun hd hb hc)⟩

end Sys2Proof.Machine
end

section
/-!
Events and errors of a page as its block's own registers see them (R40, R44): none of these registers changes.
-/

namespace Sys2Proof.Machine

open Sys2Proof.Laws

/-- A momentary event changes only register fields, rises and message counters. -/
theorem State.pulse_frame (s : State) (page bit : Nat) :
    forget (2 ^ 5 + 2 ^ 31 + 2 ^ 34) (s.pulse page bit) = forget (2 ^ 5 + 2 ^ 31 + 2 ^ 34) s :=
  (widen _ rfl (State.irqAfter_frame ..)).trans <| (widen _ rfl (State.bump_frame ..)).trans (widen _ rfl (State.rise_frame ..))

/-- Of the register fields a momentary event changes only its page's sticky bits and event count. -/
theorem State.pulse_get_other (s : State) (page bit : Nat) {x : Fld} (hs : x ≠ H.STICKY page) (hc : x ≠ H.COUNT page) :
    (s.pulse page bit).get x = s.get x := by
  rw [State.pulse, State.irqAfter_get, State.get_bump_other _ _ hc, State.rise_get_other _ _ _ hs]

theorem Fld.ne_of_off_lt {x y : Fld} (h : x.off < y.off) : y ≠ x := by
  rintro rfl
  exact Nat.lt_irrefl _ h

/-- No event changes a register beyond the page's header. -/
theorem State.pulse_get_beyond_header (s : State) (page bit : Nat) {x : Fld} (hx : 0x040 ≤ x.off) : (s.pulse page bit).get x = s.get x :=
  s.pulse_get_other page bit (Fld.ne_of_off_lt (Nat.lt_of_lt_of_le (by decide : 0x018 < 0x040) hx))
    (Fld.ne_of_off_lt (Nat.lt_of_lt_of_le (by decide : 0x01C < 0x040) hx))

/-- No recorded error changes a register beyond the page's header. -/
theorem State.record_get_beyond_header (s : State) (page code info func ext last : Nat) {x : Fld} (hx : 0x040 ≤ x.off) :
    (s.record page code info func ext last).get x = s.get x := by
  have hh {y : Fld} (hy : y.off < 0x040) : x ≠ y := Fld.ne_of_off_lt (Nat.lt_of_lt_of_le hy hx)
  have hs : x ≠ H.STICKY page := hh (by decide : 0x018 < 0x040)
  have he : x ≠ H.ERRS page := hh (by decide : 0x020 < 0x040)
  have hc : x ≠ H.COUNT page := hh (by decide : 0x01C < 0x040)
  have hd : x ≠ H.VALID page := hh (by decide : 0x020 < 0x040)
  have hi : x ≠ H.INFO page := hh (by decide : 0x024 < 0x040)
  have hk : x ≠ H.CODE page := hh (by decide : 0x020 < 0x040)
  by_cases hv : s.get (H.VALID page) = 0
  · rw [State.record_get_first hv _ _ _ _ _ hs, State.get_bump_other _ _ he, State.get_bump_other _ _ hc, State.get_put_other _ _ hd,
      State.get_put_other _ _ hi, State.get_put_other _ _ hk]
  · rw [State.record_get_later hv _ _ _ _ _ hs, State.get_bump_other _ _ he]

@[simp] theorem State.record_trig (s : State) (page code info func ext last : Nat) :
    (s.record page code info func ext last).trig = s.trig :=
  keeps_trig (State.record_frame ..) rfl

@[simp] theorem State.pulse_trig (s : State) (page bit : Nat) : (s.pulse page bit).trig = s.trig := keeps_trig (State.pulse_frame ..) rfl

@[simp] theorem State.bump_trig (s : State) (x : Fld) (n : Nat) : (s.bump x n).trig = s.trig := keeps_trig (State.bump_frame ..) rfl

end Sys2Proof.Machine
end

section
/-!
The refusal of a trigger (R135, R138, R142): what the TRIG page shows of it, and that the windows stay as they were.
-/

namespace Sys2Proof.Machine

theorem State.refuseTrigger_trig (s : State) (code src : Nat) : (s.refuseTrigger code src).trig = s.trig := by
  simp only [State.refuseTrigger, State.trigErr, State.record_trig, State.pulse_trig, State.bump_trig]

/-- The first error of the TRIG page shows the refusal's code. -/
theorem State.refuseTrigger_get_CODE {s : State} (hv : s.get (H.VALID 0x13) = 0) (code src : Nat) :
    (s.refuseTrigger code src).get (H.CODE 0x13) = code % 2 ^ 16 := by
  have hpulse : ((s.bump R.TRIG.REFUSED_COUNT_COUNT).pulse 0x13 Ev.TRIG.REFUSED).get (H.VALID 0x13) = 0 := by
    rw [State.pulse_get_other _ _ _ (Fld.ne_of_place rfl) (Fld.ne_of_place rfl), State.get_bump_other _ _ (Fld.ne_of_place rfl), hv]
  exact State.record_get_CODE hpulse ..

theorem State.refuseTrigger_get_REFUSED_COUNT (s : State) (code src : Nat) :
    (s.refuseTrigger code src).get R.TRIG.REFUSED_COUNT_COUNT = min (s.get R.TRIG.REFUSED_COUNT_COUNT + 1) (2 ^ 32 - 1) := by
  have hx : 0x040 ≤ R.TRIG.REFUSED_COUNT_COUNT.off := by decide
  rw [State.refuseTrigger, State.trigErr, State.record_get_beyond_header _ _ _ _ _ _ _ hx, State.pulse_get_beyond_header _ _ _ hx,
    State.get_bump_same]
  rfl

/-- While a ring take is open, a trigger in one of R138's four cases is refused before its window is looked at. -/
theorem State.trigger_of_badWindow {s : State} {c : Contract} {time pre post : Nat} (hc : s.take.c = some c) (hk : c.kind = 1)
    (hl : s.takeLive = true) (hbad : 600000 < pre ∨ 3600000 < post ∨ pre + post = 0 ∨ s.time + 3600 * 1000000000 < time) (src tag : Nat) :
    s.trigger src tag time pre post = s.refuseTrigger E.TRIG_BAD_WINDOW src := by
  have hring : ¬(c.kind ≠ 1 ∨ (!s.takeLive) = true) := by simp [hk, hl]
  simp only [State.trigger, hc]
  rw [if_neg hring, if_pos hbad]

/-- Settles O9: each of R138's four cases comes to the refusal with TRIG_BAD_WINDOW, which counts, records and leaves the windows alone. -/
theorem badTriggerWindowIsRefused : Obligations.BadTriggerWindowIsRefused := by
  intro s c src tag time pre post hc hk hl hbad
  rw [State.trigger_of_badWindow hc hk hl hbad]
  exact ⟨s.refuseTrigger_trig .., fun hv => State.refuseTrigger_get_CODE hv .., s.refuseTrigger_get_REFUSED_COUNT ..⟩

end Sys2Proof.Machine
end

section
/-!
The greedy choice of a victim (R234, R235) as the least candidate of one linear order, and the register that shows the rule.
-/

namespace Sys2Proof.Machine

/-! ### The order of the candidates -/

/-- What the greedy rule compares: fewest valid units first, then the lowest die index, then the lowest block index (R234, R235). -/
def State.greedyKey (s : State) (g : Group) : ℕ ×ₗ ℕ ×ₗ ℕ := toLex (s.validCount g, toLex g.name)

theorem nameBefore_iff (a b : Group) : nameBefore a b = true ↔ toLex a.name < toLex b.name := by
  simp [nameBefore, Prod.Lex.toLex_lt_toLex]

theorem State.greedyKey_lt_iff (s : State) (a b : Group) :
    s.greedyKey a < s.greedyKey b ↔ s.validCount a < s.validCount b ∨ s.validCount a = s.validCount b ∧ nameBefore a b = true := by
  rw [State.greedyKey, State.greedyKey, Prod.Lex.toLex_lt_toLex, nameBefore_iff]

/-! ### The victim -/

/-- Going through a list and keeping what has the smaller key comes to its first element of least key. -/
theorem foldl_keep_smaller_eq_argmin {α β : Type} [LinearOrder β] (f : α → β) (a : α) (l : List α) :
    some (l.foldl (fun m x => if f x < f m then x else m) a) = (a :: l).argmin f := by
  refine (List.foldl_hom some fun m x => ?_).symm
  simp only [List.argAux]
  split <;> rfl

theorem State.gcVictim_of_greedy {s : State} (h : s.greedy = true) : s.gcVictim = s.gcCandidates.argmin s.greedyKey := by
  rw [State.gcVictim]
  cases s.gcCandidates with
  | nil => rfl
  | cons g gs =>
    rw [← foldl_keep_smaller_eq_argmin]
    simp only [h, if_true, State.greedyKey_lt_iff, Bool.or_eq_true, Bool.and_eq_true, decide_eq_true_eq, beq_iff_eq]

/-- No candidate has a smaller key than the victim of the greedy rule. -/
theorem State.greedyVictim_is_least {s : State} {g : Group} (hs : s.greedy = true) (hg : s.gcVictim = some g) :
    g ∈ s.gcCandidates ∧ ∀ h ∈ s.gcCandidates, ¬ s.greedyKey h < s.greedyKey g := by
  rw [State.gcVictim_of_greedy hs] at hg
  exact ⟨List.argmin_mem hg, fun _ hh => List.not_lt_of_mem_argmin hh hg⟩

/-! ### The register -/

theorem State.greedy_iff (s : State) : s.greedy = true ↔ s.poolUser < s.get R.FALLOW.LOW_WATER_GB * 1000 := decide_eq_true_iff

theorem b2n_greedy (s : State) : b2n s.greedy = if s.poolUser < s.get R.FALLOW.LOW_WATER_GB * 1000 then 1 else 0 := by
  simp only [b2n, State.greedy_iff]

theorem State.noteGreedy_get (s : State) : s.noteGreedy.get R.MEDIA.MEDIA_STATUS_GC_GREEDY = b2n s.greedy := by
  rw [State.noteGreedy, State.putBit, State.get_put_same]
  cases s.greedy <;> rfl

theorem State.viewMedia_GC_GREEDY {s : State} (h : s.media.formatted = true) : s.viewMedia 0x040 5 = some (b2n s.greedy) := by
  simp [State.viewMedia, h]

/-- Settles O15: the greedy victim is a candidate of least key, so none has fewer valid units, and with as many none comes before it by name. -/
theorem victimIsTheBestCandidate : Obligations.VictimIsTheBestCandidate := by
  refine ⟨fun s g hlow hg => ?_, fun s => ?_, fun s hf => ?_⟩
  · obtain ⟨hmem, hleast⟩ := State.greedyVictim_is_least (s.greedy_iff.mpr hlow) hg
    refine ⟨hmem, fun h hh => ?_⟩
    obtain ⟨hfewer, htie⟩ := not_or.mp (mt (s.greedyKey_lt_iff h g).mpr (hleast h hh))
    exact ⟨Nat.le_of_not_lt hfewer, fun heq => Bool.eq_false_iff.mpr fun hname => htie ⟨heq, hname⟩⟩
  · rw [State.noteGreedy_get, b2n_greedy]
  · rw [State.viewMedia_GC_GREEDY hf, b2n_greedy]

end Sys2Proof.Machine
end

section
/-!
When an entry of an Earmark bank matches a key (R381).
-/

namespace Sys2Proof.Machine

/-- A unit matches when each of its bits is don't-care, masked out of the key, or equal to the key's bit. -/
theorem unitMatch_iff (val care key mask : Nat) :
    unitMatch val care key mask = true ↔
      ∀ i, care.testBit i = false ∨ mask.testBit i = false ∨ val.testBit i = key.testBit i := by
  have hbit (i : Nat) : ((val ^^^ key) &&& care &&& mask).testBit i = false ↔
      care.testBit i = false ∨ mask.testBit i = false ∨ val.testBit i = key.testBit i := by
    rw [Nat.testBit_and, Nat.testBit_and, Nat.testBit_xor, Bool.and_eq_false_iff, Bool.and_eq_false_iff, bne_eq_false_iff_eq]
    tauto
  simp only [unitMatch, beq_iff_eq, ← hbit]
  exact ⟨fun h i => by rw [h, Nat.zero_testBit], Nat.zero_of_testBit_eq_false⟩

/-- A valid entry matches a key when each of the key's words matches the unit of its number. -/
theorem EEnt.hits_iff (e : EEnt) (key mask : List Nat) :
    e.hits key mask = true ↔
      e.valid = true ∧ ∀ j < key.length, unitMatch (e.vals.getD j 0) (e.cares.getD j 0) (key.getD j 0) (mask.getD j 0) = true := by
  simp only [EEnt.hits, Bool.and_eq_true, List.all_eq_true, List.mem_range]

/-- Settles O35: an entry matches unit by unit, and a unit bit by bit. -/
theorem entriesMatchBitByBit : Obligations.EntriesMatchBitByBit := by
  intro e key mask
  simp only [EEnt.hits_iff, unitMatch_iff]

end Sys2Proof.Machine
end

section
/-!
The winner of an unchecked Earmark search as the first match of one linear order, and its result word (R382, R383).
-/

namespace Sys2Proof.Machine

open Sys2Proof.Laws

/-! ### The order of the matches -/

/-- What a search compares, first the match that wins: highest class, then lowest bank, then lowest entry index (R382). -/
def matchRank (x : Nat × Nat × EEnt) : ℕᵒᵈ ×ₗ ℕ ×ₗ ℕ := toLex (OrderDual.toDual x.2.2.cls, toLex (x.1, x.2.1))

theorem matchRank_lt_iff (a b : Nat × Nat × EEnt) : matchRank a < matchRank b ↔ beats a b = true := by
  simp [matchRank, beats, Prod.Lex.toLex_lt_toLex]

theorem matchRank_le_iff (a b : Nat × Nat × EEnt) :
    matchRank a ≤ matchRank b ↔ b.2.2.cls < a.2.2.cls ∨ b.2.2.cls = a.2.2.cls ∧ (a.1 < b.1 ∨ a.1 = b.1 ∧ a.2.1 ≤ b.2.1) := by
  simp [matchRank, Prod.Lex.toLex_le_toLex, eq_comm]

theorem winner_eq_argmin (ms : List (Nat × Nat × EEnt)) : winner ms = ms.argmin matchRank := by
  cases ms with
  | nil => rfl
  | cons x xs => simp only [winner, ← foldl_keep_smaller_eq_argmin, matchRank_lt_iff]

@[simp] theorem winner_eq_none_iff {ms : List (Nat × Nat × EEnt)} : winner ms = none ↔ ms = [] := by
  rw [winner_eq_argmin, List.argmin_eq_none]

theorem winner_mem {ms : List (Nat × Nat × EEnt)} {w : Nat × Nat × EEnt} (h : winner ms = some w) : w ∈ ms := by
  rw [winner_eq_argmin] at h
  exact List.argmin_mem h

/-- Every match has a lower class than the winner, or the same class and no earlier place. -/
theorem winner_first {ms : List (Nat × Nat × EEnt)} {w x : Nat × Nat × EEnt} (h : winner ms = some w) (hx : x ∈ ms) :
    x.2.2.cls < w.2.2.cls ∨ x.2.2.cls = w.2.2.cls ∧ (w.1 < x.1 ∨ w.1 = x.1 ∧ w.2.1 ≤ x.2.1) := by
  rw [winner_eq_argmin] at h
  exact (matchRank_le_iff w x).mp (List.le_of_mem_argmin hx h)

/-! ### What counting a search leaves alone -/

/-- Counting a search changes only register fields. -/
theorem State.countSearch_frame (s : State) (n : Nat) : forget (2 ^ 5) (s.countSearch n) = forget (2 ^ 5) s :=
  (foldl_frame _ _ (fun t _ => State.bump_frame t _ _) _ _).trans (State.bump_frame ..)

/-- Counting a search changes no field but a count at 0x050 or 0x058 of its page. -/
theorem State.countSearch_get_before_counts (s : State) (n : Nat) {x : Fld} (hx : x.off < 0x050) : (s.countSearch n).get x = s.get x := by
  have hne {y : Fld} (hy : 0x050 ≤ y.off) : x ≠ y := (Fld.ne_of_off_lt (Nat.lt_of_lt_of_le hx hy)).symm
  have hbanks (bs : List Nat) (t : State) : (bs.foldl (fun t b => t.bump (R.BANK.SEARCHES_COUNT b)) t).get x = t.get x := by
    induction bs generalizing t with
    | nil => rfl
    | cons b bs ih => rw [List.foldl_cons, ih, State.get_bump_other _ _ (hne (by decide : 0x050 ≤ 0x058))]
  rw [State.countSearch, hbanks, State.get_bump_other _ _ (hne (Nat.le_refl 0x050))]

/-- The search's own counts change none of its matches. -/
theorem State.countSearch_matches (s : State) (n : Nat) (key mask : List Nat) (skip : List (Nat × Nat)) :
    (s.countSearch n).matches n key mask skip = s.matches n key mask skip := by
  have htable (b : Nat) : (s.countSearch n).bankTable b = s.bankTable b := s.countSearch_get_before_counts n (by decide : 0x040 < 0x050)
  have hbank (b : Nat) : (s.countSearch n).bank b = s.bank b := by rw [State.bank, State.bank, keeps_ear (s.countSearch_frame n) rfl]
  simp only [State.matches, State.tableBanks, htable, hbank]

/-! ### The search -/

/-- An unchecked search without a match answers with the all-zero word. -/
theorem State.search1_of_no_match {s : State} {n : Nat} {key mask : List Nat} {skip : List (Nat × Nat)}
    (h : s.matches n key mask skip = []) :
    (s.search1 n key mask skip false).1 = 0 ∧ (s.search1 n key mask skip false).2.1 = none := by
  simp only [State.search1, State.countSearch_matches, Bool.false_eq_true, if_false, h, winner, and_self]

/-- An unchecked search with a match answers with the winner and its result word. -/
theorem State.search1_of_winner {s : State} {n : Nat} {key mask : List Nat} {skip : List (Nat × Nat)} {w : Nat × Nat × EEnt}
    (h : winner (s.matches n key mask skip) = some w) :
    (s.search1 n key mask skip false).1 = resultWord w (s.matches n key mask skip) false false
      ∧ (s.search1 n key mask skip false).2.1 = some w := by
  simp only [State.search1, State.countSearch_matches, Bool.false_eq_true, if_false, h, and_self]

/-! ### The fields of the result word (R383) -/

theorem b2n_lt_two (b : Bool) : b2n b < 2 := by cases b <;> decide

theorem bitAt_eq_of_mod_eq_b2n {v i : Nat} {b : Bool} (h : v / 2 ^ i % 2 = b2n b) : bitAt v i = b := by
  rw [bitAt, h]
  cases b <;> rfl

/-- The result word of an unchecked search, for a winner whose numbers fit their fields: HIT, MULTI, VERIFIED with REPAIRED, CLASS, TIES,
the reserved bits, INDEX and BANK, with nothing above them. -/
theorem resultWord_unchecked {w : Nat × Nat × EEnt} {ms : List (Nat × Nat × EEnt)} {r : Nat} (hr : r = resultWord w ms false false)
    (hb : w.1 < 32) (he : w.2.1 < 4096) (hc : w.2.2.cls < 16) :
    bitAt r 0 = true ∧ bitAt r 1 = decide (2 ≤ ms.length) ∧ bits r 2 2 = 0 ∧ bits r 4 4 = w.2.2.cls
      ∧ bits r 8 4 = min 15 ((ms.filter fun x => x.2.2.cls == w.2.2.cls).length - 1) ∧ bits r 12 20 = 0 ∧ bits r 32 12 = w.2.1
      ∧ bits r 44 5 = w.1 ∧ r < 2 ^ 49 := by
  have hmulti := b2n_lt_two (decide (2 ≤ ms.length))
  have hclear : b2n false = 0 := rfl
  have hset : b2n true = 1 := rfl
  simp only [resultWord, hclear, Nat.mod_eq_of_lt hb, Nat.mod_eq_of_lt he, Nat.mod_eq_of_lt hc] at hr
  refine ⟨bitAt_eq_of_mod_eq_b2n ?_, bitAt_eq_of_mod_eq_b2n ?_, ?_⟩
  · omega
  · omega
  · simp only [bits]
    omega

/-- Settles O36: the winner stands first in the order of the matches, and the result word holds its fields side by side. -/
theorem searchFindsTheWinner : Obligations.SearchFindsTheWinner := by
  rintro s n key mask ms rfl hrange
  refine ⟨State.search1_of_no_match, fun hne => ?_⟩
  obtain ⟨w, hw⟩ := Option.ne_none_iff_exists'.mp (mt winner_eq_none_iff.mp hne)
  obtain ⟨hb, he, hc⟩ := hrange w (winner_mem hw)
  obtain ⟨hword, hwin⟩ := State.search1_of_winner hw
  exact ⟨w, _, rfl, hwin, winner_mem hw, fun x hx => winner_first hw hx, resultWord_unchecked hword hb he hc⟩

end Sys2Proof.Machine
end

section
/-!
Range locks (R458): when two entries conflict, which waiting commands a release starts, and the fetch of a command into the table.
-/

namespace Sys2Proof.Machine

open Sys2Proof.Laws

/-! ### Conflicts -/

/-- Two ranges share a number when each starts before the other ends. -/
theorem ranges_share_iff (a m b n : Nat) : max a b < min (a + m) (b + n) ↔ ∃ i, a ≤ i ∧ i < a + m ∧ b ≤ i ∧ i < b + n :=
  ⟨fun h => ⟨max a b, by omega⟩, fun ⟨i, h⟩ => by omega⟩

theorem RLock.conflicts_iff (a b : RLock) :
    a.conflicts b = true ↔ a.nsid = b.nsid ∧ (a.wr = true ∨ b.wr = true)
      ∧ ∃ lba, a.first ≤ lba ∧ lba < a.first + a.count ∧ b.first ≤ lba ∧ lba < b.first + b.count := by
  simp only [RLock.conflicts, Bool.and_eq_true, Bool.or_eq_true, beq_iff_eq, decide_eq_true_eq, ranges_share_iff]
  exact and_right_comm.trans and_assoc

theorem RLock.conflicts_of_reads {a b : RLock} (ha : a.wr = false) (hb : b.wr = false) : a.conflicts b = false := by
  simp only [RLock.conflicts, ha, hb, Bool.or_self, Bool.and_false]

theorem HostSt.blocked_iff (h : HostSt) (c : HCmd) :
    h.blocked c = true ↔ ∃ d ∈ h.cmds, d.num < c.num ∧ ∃ a ∈ d.locks, ∃ b ∈ c.locks, a.conflicts b = true := by
  simp only [HostSt.blocked, List.any_eq_true, Bool.and_eq_true, decide_eq_true_eq]

/-- A command blocked in a table stays blocked when the table gains commands. -/
theorem HostSt.blocked_of_subset {h g : HostSt} {c : HCmd} (hsub : h.cmds ⊆ g.cmds) (hb : h.blocked c = true) : g.blocked c = true := by
  obtain ⟨d, hd, hconf⟩ := (h.blocked_iff c).mp hb
  exact (g.blocked_iff c).mpr ⟨d, hsub hd, hconf⟩

/-! ### A release -/

/-- What a release makes of a fetched command: one that waits and is no longer blocked becomes ready (R458). -/
def HostSt.woken (h : HostSt) (c : HCmd) : HCmd := if c.phase == .waits && !h.blocked c then { c with phase := .ready } else c

theorem HostSt.woken_of_not_waits (h : HostSt) {c : HCmd} (hp : c.phase ≠ .waits) : h.woken c = c := by simp [HostSt.woken, hp]

theorem HostSt.woken_of_blocked {h : HostSt} {c : HCmd} (hb : h.blocked c = true) : h.woken c = c := by simp [HostSt.woken, hb]

theorem HostSt.woken_of_free {h : HostSt} {c : HCmd} (hp : c.phase = .waits) (hb : h.blocked c = false) :
    h.woken c = { c with phase := .ready } := by
  simp [HostSt.woken, hp, hb]

theorem HostSt.woken_waits_iff (h : HostSt) (c : HCmd) : (h.woken c).phase = .waits ↔ c.phase = .waits ∧ h.blocked c = true := by
  by_cases hp : c.phase = .waits
  · cases hb : h.blocked c with
    | true => simp [HostSt.woken_of_blocked hb, hp]
    | false => simp [HostSt.woken_of_free hp hb]
  · simp [h.woken_of_not_waits hp, hp]

/-- Of the host interface a release changes the waiting commands and, with the last entry freed, the pause of fetching (R460). -/
theorem State.relock_host (s : State) :
    s.relock.host =
      let h := { s.host with cmds := s.host.cmds.map s.host.woken }
      if h.locksUsed = 0 then { h with paused := false } else h :=
  rfl

theorem State.relock_cmds (s : State) : s.relock.host.cmds = s.host.cmds.map s.host.woken := by
  rw [State.relock_host, apply_ite HostSt.cmds]
  exact ite_self _

theorem State.relock_sqs (s : State) : s.relock.host.sqs = s.host.sqs := by
  rw [State.relock_host, apply_ite HostSt.sqs]
  exact ite_self _

/-- A release changes no register field but those of RANGE_LOCKS. -/
theorem State.relock_get_other (s : State) {x : Fld} (hu : x ≠ R.HOSTQ.RANGE_LOCKS_IN_USE) (hp : x ≠ R.HOSTQ.RANGE_LOCKS_PEAK) :
    s.relock.get x = s.get x := by
  simp only [State.relock, State.get_put_other _ _ hu, State.get_put_other _ _ hp, State.setHost_get]

/-- A release leaves a command as it is unless it waits and its conflicts have gone. -/
theorem State.mem_relock_cmds {s : State} {c : HCmd} (hc : c ∈ s.host.cmds) (h : c.phase = .waits → s.host.blocked c = true) :
    c ∈ s.relock.host.cmds := by
  have hsame : s.host.woken c = c := by
    by_cases hp : c.phase = .waits
    · exact HostSt.woken_of_blocked (h hp)
    · exact s.host.woken_of_not_waits hp
  rw [State.relock_cmds, List.mem_map]
  exact ⟨c, hc, hsame⟩

/-! ### The queues -/

/-- A submission queue is found by its names. -/
theorem State.sq_names {s : State} {fn qid : Nat} {q : Sq} (h : s.sq fn qid = some q) : q.fn = fn ∧ q.qid = qid := by
  simpa only [Bool.and_eq_true, beq_iff_eq] using List.find?_some h

theorem State.sq_of_sqs {s t : State} (h : t.host.sqs = s.host.sqs) (fn qid : Nat) : t.sq fn qid = s.sq fn qid := by rw [State.sq, State.sq, h]

/-- A changed queue that keeps its names is found under them. -/
theorem State.modSq_sq_same (s : State) (fn qid : Nat) {f : Sq → Sq} (hf : ∀ q, (f q).fn = q.fn ∧ (f q).qid = q.qid) :
    (s.modSq fn qid f).sq fn qid = (s.sq fn qid).map f := by
  have hnames : (fun q : Sq => q.fn == fn && q.qid == qid) ∘ (fun q => if q.fn == fn && q.qid == qid then f q else q)
      = fun q => q.fn == fn && q.qid == qid := by
    funext q
    simp only [Function.comp_apply]
    split
    · obtain ⟨hfn, hqid⟩ := hf q
      rw [hfn, hqid]
    · rfl
  simp only [State.sq, State.modSq, State.setHost_host, List.find?_map, hnames]
  exact Option.map_congr fun q hq => if_pos (List.find?_some hq)

theorem State.sqWaits_iff (s : State) (q : Sq) :
    s.sqWaits q = true ↔ q.qid ≠ 0 ∧ q.frozen = none ∧ q.head ≠ q.tail ∧ s.mayFetch q.fn = true := by
  simp only [State.sqWaits, Bool.and_eq_true, bne_iff_ne, Option.isNone_iff_eq_none, and_assoc]

/-! ### The fetch -/

/-- A command enters the table: it waits, and is counted, when it is blocked then (R458). -/
def State.enrolled (s : State) (x : IoCmd) (c : HCmd) : State :=
  let t := (s.fetched x (if s.host.blocked c then { c with phase := .waits } else c)).setHost fun h => { h with paused := false }
  if s.host.blocked c then t.bump R.HOSTQ.LOCK_WAITS_COUNT else t

theorem State.enrolled_host (s : State) (x : IoCmd) (c : HCmd) :
    (s.enrolled x c).host =
      ((s.fetched x (if s.host.blocked c then { c with phase := .waits } else c)).setHost fun h => { h with paused := false }).host := by
  unfold State.enrolled
  split <;> rfl

theorem State.enrolled_ns (s : State) (x : IoCmd) (c : HCmd) : (s.enrolled x c).ns = s.ns := by
  unfold State.enrolled
  split <;> rfl

theorem State.enrolled_get_FETCHED (s : State) (x : IoCmd) (c : HCmd) :
    (s.enrolled x c).get R.HOSTQ.FETCHED_COUNT = min (s.get R.HOSTQ.FETCHED_COUNT + 1) (2 ^ 64 - 1) := by
  have hne : R.HOSTQ.FETCHED_COUNT ≠ R.HOSTQ.LOCK_WAITS_COUNT := Fld.ne_of_place rfl
  have hfetched (d : HCmd) : (s.fetched x d).get R.HOSTQ.FETCHED_COUNT = min (s.get R.HOSTQ.FETCHED_COUNT + 1) (2 ^ 64 - 1) := by
    rw [State.fetched, State.setHost_get, State.get_bump_same]
    rfl
  unfold State.enrolled
  split
  · rw [State.get_bump_other _ _ hne, State.setHost_get, hfetched]
  · rw [State.setHost_get, hfetched]

theorem State.enrolled_sq (s : State) (x : IoCmd) (c : HCmd) :
    (s.enrolled x c).sq x.fn x.sq = (s.sq x.fn x.sq).map fun q => { q with head := (q.head + 1) % max 1 q.size } := by
  have hsqs : (s.enrolled x c).host.sqs =
      (s.modSq x.fn x.sq fun q => { q with head := (q.head + 1) % max 1 q.size }).host.sqs := by
    rw [State.enrolled_host]
    rfl
  rw [State.sq_of_sqs hsqs]
  exact s.modSq_sq_same _ _ fun _ => ⟨rfl, rfl⟩

theorem State.enrolled_cmds (s : State) (x : IoCmd) (c : HCmd) :
    (s.enrolled x c).host.cmds = s.host.cmds ++ [if s.host.blocked c then { c with phase := .waits } else c] := by
  rw [State.enrolled_host]
  rfl

/-- The release that ends a fetch leaves the fetched command as it entered the table. -/
theorem State.mem_enrolled_relock_cmds (s : State) (x : IoCmd) {c : HCmd} (hready : c.phase = .ready) :
    (if s.host.blocked c then { c with phase := .waits } else c) ∈ (s.enrolled x c).relock.host.cmds := by
  refine State.mem_relock_cmds (by simp [State.enrolled_cmds]) fun hwaits => ?_
  cases hb : s.host.blocked c with
  | true => exact HostSt.blocked_of_subset (by simp [State.enrolled_cmds]) hb
  | false => simp [hb, hready] at hwaits

theorem State.ioNs_of_ns {s t : State} (h : t.ns = s.ns) (x : IoCmd) : t.ioNs x = s.ioNs x := by
  rw [State.ioNs, State.ioNs, State.nsOf, State.nsOf, h]

theorem State.listedOpcode_of_ns {s t : State} (h : t.ns = s.ns) (x : IoCmd) : t.listedOpcode x = s.listedOpcode x := by
  rw [State.listedOpcode, State.listedOpcode, State.ioNs_of_ns h]

theorem State.fetchNext_eq (s : State) (x : IoCmd) (locks : List RLock) :
    s.fetchNext x locks =
      let k : CmdKey := ⟨x.fn, x.sq, x.cid⟩
      let t := s.enrolled x ⟨x, s.get R.HOSTQ.FETCHED_COUNT, locks, .ready, 0, false⟩
      if t.host.aborts.contains k then .next ((t.setHost fun h => { h with aborts := h.aborts.filter (· != k) }).completeCmd k Nv.aborted)
      else if !t.listedOpcode x then .next (t.completeCmd k Nv.badOpcode)
      else if (t.ioNs x).isNone then .next (t.completeCmd k Nv.badNs)
      else .next t.relock :=
  rfl

/-- A listed command whose NSID is found and that no Abort has ended enters the table. -/
theorem State.fetchNext_of_listed {s : State} {x : IoCmd} (locks : List RLock) (hab : ⟨x.fn, x.sq, x.cid⟩ ∉ s.host.aborts)
    (hop : s.listedOpcode x = true) (hns : (s.ioNs x).isSome = true) :
    s.fetchNext x locks = .next (s.enrolled x ⟨x, s.get R.HOSTQ.FETCHED_COUNT, locks, .ready, 0, false⟩).relock := by
  have haborts (c : HCmd) : (s.enrolled x c).host.aborts.contains ⟨x.fn, x.sq, x.cid⟩ = false := by
    rw [State.enrolled_host, List.contains_eq_mem, decide_eq_false_iff_not]
    exact hab
  have hlisted (c : HCmd) : (s.enrolled x c).listedOpcode x = true := by rw [State.listedOpcode_of_ns (s.enrolled_ns x c), hop]
  have hfound (c : HCmd) : ((s.enrolled x c).ioNs x).isNone = false := by
    rw [State.ioNs_of_ns (s.enrolled_ns x c), ← Option.not_isSome, hns]
    rfl
  simp only [State.fetchNext_eq, haborts, hlisted, hfound, Bool.not_true, Bool.false_eq_true, if_false]

/-- With its entries free and its turn come, the next command of a queue is fetched (R456, R460, R494). -/
theorem exec_commandFetch_of_turn {s : State} {x : IoCmd} {q : Sq} {u : Turns} (hq : s.sq x.fn x.sq = some q) (hw : s.sqWaits q = true)
    (hnew : s.hcmd ⟨x.fn, x.sq, x.cid⟩ = none) (hu : s.fetchTurn x.fn = some u) (hroom : s.host.locksUsed + (s.locksOf x).length ≤ 8192) :
    exec (.commandFetch x) s = (s.setHost fun h => { h with turns := u }).fetchNext x (s.locksOf x) := by
  change execCommandFetch x s = _
  simp [execCommandFetch, hq, hw, hnew, hu, Nat.not_lt.mpr hroom]

/-! ### The obligation -/

/-- Settles O44: conflicts are shared LBAs with a write, a fetch enters a command that waits exactly when it is blocked, and a release starts
exactly the waiting commands that are blocked no longer. -/
theorem conflictingCommandsWait : Obligations.ConflictingCommandsWait := by
  refine ⟨fun h c => ?_, fun a b => RLock.conflicts_of_reads, ?_, fun s i c d hc hd => ?_⟩
  · simp only [HostSt.blocked_iff, RLock.conflicts_iff]
  · rintro s x q c hq hid hfrozen hne hmay hnew hroom hab hop hns hturn rfl
    obtain ⟨u, hu⟩ := Option.isSome_iff_exists.mp hturn
    obtain ⟨hfn, hqid⟩ := State.sq_names hq
    have hw : s.sqWaits q = true := (s.sqWaits_iff q).mpr ⟨hqid ▸ hid, hfrozen, hne, hfn ▸ hmay⟩
    have hexec := (exec_commandFetch_of_turn hq hw hnew hu hroom).trans (State.fetchNext_of_listed (s.locksOf x) hab hop hns)
    refine ⟨_, hexec, State.mem_enrolled_relock_cmds _ x rfl, ?_, ?_⟩
    · rw [State.relock_get_other _ (Fld.ne_of_place rfl) (Fld.ne_of_place rfl), State.enrolled_get_FETCHED]
      rfl
    · rw [State.sq_of_sqs (State.relock_sqs _), State.enrolled_sq]
      exact congrArg _ hq
  · have hwoken : d = s.host.woken c := by
      rw [State.relock_cmds, List.getElem?_map, hc] at hd
      exact (Option.some.inj hd).symm
    subst hwoken
    exact ⟨s.host.woken_waits_iff c, s.host.woken_of_not_waits, HostSt.woken_of_free⟩

end Sys2Proof.Machine
end

section
/-!
What each operation of the model leaves alone. `forget T s` is `s` without the fields whose bits are set in `T`; a lemma `forget_f` says that `f`
changes nothing outside its own fields, for every `T` that holds them.
-/

namespace Sys2Proof.Machine

open Sys2Proof.Laws

theorem forget_ite (T : Nat) (c : Prop) [Decidable c] (a b : State) :
    forget T (if c then a else b) = if c then forget T a else forget T b := apply_ite ..

theorem forget_set_refusal {T : Nat} (h : sub 0x200 T = true) (s : State) (v : Option Nat) : forget T { s with refusal := v } = forget T s :=
  set_refusal (sub_bit h rfl) s v

theorem forget_set_fault {T : Nat} (h : sub 0x400 T = true) (s : State) (v : FaultSt) : forget T { s with fault := v } = forget T s :=
  set_fault (sub_bit h rfl) s v

theorem forget_set_trust {T : Nat} (h : sub 0x800 T = true) (s : State) (v : TrustSt) : forget T { s with trust := v } = forget T s :=
  set_trust (sub_bit h rfl) s v

theorem forget_set_take {T : Nat} (h : sub 0x2000 T = true) (s : State) (v : TakeSt) : forget T { s with take := v } = forget T s :=
  set_take (sub_bit h rfl) s v

theorem forget_set_lanes {T : Nat} (h : sub 0x8000 T = true) (s : State) (v : Vector LaneSt 12) : forget T { s with lanes := v } = forget T s :=
  set_lanes (sub_bit h rfl) s v

theorem forget_set_ns {T : Nat} (h : sub 0x200000 T = true) (s : State) (v : List Ns) : forget T { s with ns := v } = forget T s :=
  set_ns (sub_bit h rfl) s v

theorem forget_set_mem {T : Nat} (h : sub 0x400000 T = true) (s : State) (v : MemSt) : forget T { s with mem := v } = forget T s :=
  set_mem (sub_bit h rfl) s v

theorem forget_set_cores {T : Nat} (h : sub 0x1000000 T = true) (s : State) (v : Vector Core 72) : forget T { s with cores := v } = forget T s :=
  set_cores (sub_bit h rfl) s v

theorem forget_set_clusters {T : Nat} (h : sub 0x2000000 T = true) (s : State) (v : Vector Cluster 9) : forget T { s with clusters := v } = forget T s :=
  set_clusters (sub_bit h rfl) s v

theorem forget_set_drove {T : Nat} (h : sub 0x200000000 T = true) (s : State) (v : DroveSt) : forget T { s with drove := v } = forget T s :=
  set_drove (sub_bit h rfl) s v

theorem State.forget_put {T : Nat} (hT : sub 0x20 T = true) (s : State) (f : Fld) (v : ℕ) :
    forget T (State.put s f v) = forget T s :=
  widen T hT <| rfl

theorem State.forget_putBit {T : Nat} (hT : sub 0x20 T = true) (s : State) (f : Fld) (b : Bool) :
    forget T (State.putBit s f b) = forget T s :=
  widen T hT <| rfl

theorem State.forget_bump {T : Nat} (hT : sub 0x20 T = true) (s : State) (f : Fld) (n : ℕ) :
    forget T (State.bump s f n) = forget T s :=
  widen T hT <| rfl

theorem State.forget_puts {T : Nat} (hT : sub 0x20 T = true) (s : State) (l : List (Fld × ℕ)) :
    forget T (State.puts s l) = forget T s :=
  widen T hT <| by simp only [State.puts, State.forget_put, forget_ite, ite_self, foldl_frame, implies_true, sub, Nat.reduceAnd, beq_self_eq_true]

theorem State.forget_unput {T : Nat} (hT : sub 0x20 T = true) (s : State) (keep : Fld → Bool) :
    forget T (State.unput s keep) = forget T s :=
  widen T hT <| rfl

theorem State.forget_fresh {T : Nat} (hT : sub 0x4 T = true) (s : State) :
    forget T (State.fresh s).2 = forget T s :=
  widen T hT <| rfl

theorem State.forget_freshBytes {T : Nat} (hT : sub 0x4 T = true) (s : State) (n : ℕ) :
    forget T (State.freshBytes s n).2 = forget T s :=
  widen T hT <| rfl

theorem State.forget_countMsi {T : Nat} (hT : sub 0x80000000 T = true) (s : State) (fn : ℕ) (vec : ℕ) :
    forget T (State.countMsi s fn vec) = forget T s :=
  widen T hT <| rfl

theorem State.forget_pageIrq {T : Nat} (hT : sub 0x80000000 T = true) (s : State) (page : ℕ) :
    forget T (State.pageIrq s page) = forget T s :=
  widen T hT <| by simp only [State.pageIrq, State.forget_countMsi, forget_ite, ite_self, foldl_frame, implies_true, sub, Nat.reduceAnd, beq_self_eq_true]

theorem State.forget_irqAfter {T : Nat} (hT : sub 0x80000000 T = true) (s : State) (t : State) (page : ℕ) :
    forget T (State.irqAfter s t page) = forget T t :=
  widen T hT <| by simp only [State.irqAfter, State.forget_pageIrq, forget_ite, ite_self, implies_true, sub, Nat.reduceAnd, beq_self_eq_true]

theorem State.forget_rise {T : Nat} (hT : sub 0x400000020 T = true) (s : State) (page : ℕ) (bit : ℕ) :
    forget T (State.rise s page bit) = forget T s :=
  widen T hT <| rfl

theorem State.forget_pulse {T : Nat} (hT : sub 0x480000020 T = true) (s : State) (page : ℕ) (bit : ℕ) :
    forget T (State.pulse s page bit) = forget T s :=
  widen T hT <| by simp only [State.pulse, State.forget_bump, State.forget_rise, State.forget_irqAfter, forget_ite, ite_self, implies_true, sub, Nat.reduceAnd, beq_self_eq_true]

theorem State.forget_level {T : Nat} (hT : sub 0x480000020 T = true) (s : State) (page : ℕ) (bit : ℕ) (b : Bool) :
    forget T (State.level s page bit b) = forget T s :=
  widen T hT <| by simp only [State.level, State.forget_put, State.forget_pulse, forget_ite, ite_self, implies_true, sub, Nat.reduceAnd, beq_self_eq_true]

theorem State.forget_report {T : Nat} (hT : sub 0x400 T = true) (s : State) (r : Report) :
    forget T (State.report s r) = forget T s :=
  widen T hT <| by simp only [State.report, forget_set_fault, forget_ite, ite_self, implies_true, sub, Nat.reduceAnd, beq_self_eq_true]

theorem State.forget_recordPage {T : Nat} (hT : sub 0x480000020 T = true) (s : State) (page : ℕ) (code : ℕ) (info : ℕ) :
    forget T (State.recordPage s page code info) = forget T s :=
  widen T hT <| by simp only [State.recordPage, State.forget_rise, State.forget_irqAfter, State.forget_bump, State.forget_put, forget_ite, ite_self, implies_true, sub, Nat.reduceAnd, beq_self_eq_true]

theorem State.forget_record {T : Nat} (hT : sub 0x480000420 T = true) (s : State) (page : ℕ) (code : ℕ) (info : ℕ) (func : ℕ) (ext : ℕ) (last : ℕ) :
    forget T (State.record s page code info func ext last) = forget T s :=
  widen T hT <| by simp only [State.record, State.forget_report, State.forget_recordPage, forget_ite, ite_self, implies_true, sub, Nat.reduceAnd, beq_self_eq_true]

theorem State.forget_touch {T : Nat} (hT : sub 0x800 T = true) (s : State) (o : Origin) :
    forget T (State.touch s o) = forget T s :=
  widen T hT <| rfl

theorem State.forget_wearTally {T : Nat} (hT : sub 0x800000000 T = true) (s : State) (a : TallyArea) (is : List ℕ) :
    forget T (State.wearTally s a is) = forget T s :=
  widen T hT <| rfl

theorem State.forget_setTally {T : Nat} (hT : sub 0x800000000 T = true) (s : State) (f : TallySt → TallySt) :
    forget T (State.setTally s f) = forget T s :=
  widen T hT <| rfl

theorem State.forget_countBoot {T : Nat} (hT : sub 0x800000020 T = true) (s : State) (src : ℕ) (copy : ℕ) (ok : Bool) :
    forget T (State.countBoot s src copy ok) = forget T s :=
  widen T hT <| rfl

theorem State.forget_auditSync {T : Nat} (hT : sub 0x800000800 T = true) (s : State) :
    forget T (State.auditSync s) = forget T s :=
  widen T hT <| by
    unfold State.auditSync
    split <;> simp only [State.forget_wearTally, forget_set_trust, forget_ite, ite_self, foldl_frame, implies_true, sub, Nat.reduceAnd, beq_self_eq_true]

theorem State.forget_audit {T : Nat} (hT : sub 0x800000800 T = true) (s : State) (o : Origin) (role : ℕ) (action : ℕ) (result : ℕ) (param : Bytes) :
    forget T (State.audit s o role action result param) = forget T s :=
  widen T hT <| by simp only [State.audit, State.forget_auditSync, forget_set_trust, forget_ite, ite_self, implies_true, sub, Nat.reduceAnd, beq_self_eq_true]

theorem State.forget_auditCoalesced {T : Nat} (hT : sub 0x800000800 T = true) (s : State) (o : Origin) (role : ℕ) (action : ℕ) (result : ℕ) (param : Bytes) (cnt : ℕ) :
    forget T (State.auditCoalesced s o role action result param cnt) = forget T s :=
  widen T hT <| by
    unfold State.auditCoalesced
    split <;> simp only [State.forget_auditSync, State.forget_audit, forget_set_trust, forget_ite, ite_self, foldl_frame, implies_true, sub, Nat.reduceAnd, beq_self_eq_true]

theorem State.forget_setGate {T : Nat} (hT : sub 0x1000 T = true) (s : State) (f : GateSt → GateSt) :
    forget T (State.setGate s f) = forget T s :=
  widen T hT <| rfl

theorem State.forget_setTake {T : Nat} (hT : sub 0x2000 T = true) (s : State) (f : TakeSt → TakeSt) :
    forget T (State.setTake s f) = forget T s :=
  widen T hT <| rfl

theorem State.forget_setTrig {T : Nat} (hT : sub 0x4000 T = true) (s : State) (f : TrigSt → TrigSt) :
    forget T (State.setTrig s f) = forget T s :=
  widen T hT <| rfl

theorem State.forget_setJobs {T : Nat} (hT : sub 0x10000 T = true) (s : State) (f : JobsSt → JobsSt) :
    forget T (State.setJobs s f) = forget T s :=
  widen T hT <| rfl

theorem State.forget_setNand {T : Nat} (hT : sub 0x20000 T = true) (s : State) (f : NandSt → NandSt) :
    forget T (State.setNand s f) = forget T s :=
  widen T hT <| rfl

theorem State.forget_setMedia {T : Nat} (hT : sub 0x40000 T = true) (s : State) (f : MediaSt → MediaSt) :
    forget T (State.setMedia s f) = forget T s :=
  widen T hT <| rfl

theorem State.forget_setArray {T : Nat} (hT : sub 0x80000 T = true) (s : State) (f : ArraySt → ArraySt) :
    forget T (State.setArray s f) = forget T s :=
  widen T hT <| rfl

theorem State.forget_setKeys {T : Nat} (hT : sub 0x100000 T = true) (s : State) (f : KeySt → KeySt) :
    forget T (State.setKeys s f) = forget T s :=
  widen T hT <| rfl

theorem State.forget_setTrust {T : Nat} (hT : sub 0x800 T = true) (s : State) (f : TrustSt → TrustSt) :
    forget T (State.setTrust s f) = forget T s :=
  widen T hT <| rfl

theorem State.forget_xlateFault {T : Nat} (hT : sub 0x480000420 T = true) (s : State) (func : ℕ) (va : ℕ) (unit : ℕ) (wr : Bool) (fetch : Bool) (engine : Bool) :
    forget T (State.xlateFault s func va unit wr fetch engine) = forget T s :=
  widen T hT <| by simp only [State.xlateFault, State.forget_bump, State.forget_put, State.forget_pulse, State.forget_record, State.forget_putBit, forget_ite, ite_self, implies_true, sub, Nat.reduceAnd, beq_self_eq_true]

theorem State.forget_modCore {T : Nat} (hT : sub 0x1000000 T = true) (s : State) (c : ℕ) (f : Core → Core) :
    forget T (State.modCore s c f) = forget T s :=
  widen T hT <| by
    unfold State.modCore
    split <;> simp only [forget_set_cores, forget_ite, ite_self, foldl_frame, implies_true, sub, Nat.reduceAnd, beq_self_eq_true]

theorem State.forget_setPwr {T : Nat} (hT : sub 0x10000000 T = true) (s : State) (f : PwrSt → PwrSt) :
    forget T (State.setPwr s f) = forget T s :=
  widen T hT <| rfl

theorem State.forget_setMode {T : Nat} (hT : sub 0x490000020 T = true) (s : State) (m : ℕ) :
    forget T (State.setMode s m) = forget T s :=
  widen T hT <| by simp only [State.setMode, State.forget_puts, State.forget_pulse, State.forget_setPwr, forget_ite, ite_self, implies_true, sub, Nat.reduceAnd, beq_self_eq_true]

theorem State.forget_follow {T : Nat} (hT : sub 0x490000020 T = true) (s : State) :
    forget T (State.follow s) = forget T s :=
  widen T hT <| by simp only [State.follow, State.forget_setMode, forget_ite, ite_self, implies_true, sub, Nat.reduceAnd, beq_self_eq_true]

theorem State.forget_hostActive {T : Nat} (hT : sub 0x490000020 T = true) (s : State) :
    forget T (State.hostActive s) = forget T s :=
  widen T hT <| by simp only [State.hostActive, State.forget_setPwr, State.forget_follow, forget_ite, ite_self, implies_true, sub, Nat.reduceAnd, beq_self_eq_true]

theorem State.forget_setCore {T : Nat} (hT : sub 0x1000000 T = true) (s : State) (c : Fin 72) (k : Core) :
    forget T (State.setCore s c k) = forget T s :=
  widen T hT <| rfl

theorem Ctx.forget_retire {T : Nat} (hT : sub 0x491000020 T = true) (y : Ctx) (c : Fin 72) :
    forget T (Ctx.retire y c) = forget T y.s :=
  widen T hT <| by simp only [Ctx.retire, State.forget_hostActive, State.forget_setCore, forget_ite, ite_self, implies_true, sub, Nat.reduceAnd, beq_self_eq_true]

theorem State.forget_caught {T : Nat} (hT : sub 0x1400004 T = true) (s : State) (c : Fin 72) :
    forget T (State.caught s c) = forget T s :=
  widen T hT <| by simp only [State.caught, State.forget_fresh, State.forget_setCore, forget_set_mem, forget_ite, ite_self, implies_true, sub, Nat.reduceAnd, beq_self_eq_true]

theorem State.forget_parkCore {T : Nat} (hT : sub 0x481400024 T = true) (s : State) (c : Fin 72) (p : Parker) :
    forget T (State.parkCore s c p) = forget T s :=
  widen T hT <| by
    unfold State.parkCore
    dsimp only
    (repeat' split) <;> simp only [State.forget_caught, State.forget_pulse, State.forget_setCore, forget_ite, ite_self, foldl_frame, implies_true, sub, Nat.reduceAnd, beq_self_eq_true]

theorem State.forget_turnCore {T : Nat} (hT : sub 0x481000020 T = true) (s : State) (c : ℕ) (f : Core → Core) :
    forget T (State.turnCore s c f) = forget T s :=
  widen T hT <| by simp only [State.turnCore, State.forget_pulse, State.forget_modCore, forget_ite, ite_self, implies_true, sub, Nat.reduceAnd, beq_self_eq_true]

theorem State.forget_resumeCore {T : Nat} (hT : sub 0x481000020 T = true) (s : State) (c : Fin 72) (p : Parker) :
    forget T (State.resumeCore s c p) = forget T s :=
  widen T hT <| by simp only [State.resumeCore, State.forget_turnCore, State.forget_setCore, forget_ite, ite_self, implies_true, sub, Nat.reduceAnd, beq_self_eq_true]

theorem State.forget_modFn {T : Nat} (hT : sub 0x8000000 T = true) (s : State) (func : ℕ) (g : Fn → Fn) :
    forget T (State.modFn s func g) = forget T s :=
  widen T hT <| rfl

theorem State.forget_withdrawCore {T : Nat} (hT : sub 0x488000420 T = true) (s : State) (c : ℕ) :
    forget T (State.withdrawCore s c) = forget T s :=
  widen T hT <| by
    unfold State.withdrawCore
    split <;> simp only [State.forget_pulse, State.forget_put, State.forget_record, State.forget_modFn, forget_ite, ite_self, foldl_frame, implies_true, sub, Nat.reduceAnd, beq_self_eq_true]

theorem State.forget_setHost {T : Nat} (hT : sub 0x80000000 T = true) (s : State) (f : HostSt → HostSt) :
    forget T (State.setHost s f) = forget T s :=
  widen T hT <| rfl

theorem State.forget_msi {T : Nat} (hT : sub 0x80000000 T = true) (s : State) (fn : ℕ) (vec : ℕ) :
    forget T (State.msi s fn vec) = forget T s :=
  widen T hT <| rfl

theorem State.forget_modSq {T : Nat} (hT : sub 0x80000000 T = true) (s : State) (fn : ℕ) (qid : ℕ) (f : Sq → Sq) :
    forget T (State.modSq s fn qid f) = forget T s :=
  widen T hT <| rfl

theorem State.forget_post {T : Nat} (hT : sub 0x80000000 T = true) (s : State) (e : Cqe) :
    forget T (State.post s e) = forget T s :=
  widen T hT <| by
    unfold State.post
    split <;> simp only [State.forget_msi, State.forget_setHost, forget_ite, ite_self, foldl_frame, implies_true, sub, Nat.reduceAnd, beq_self_eq_true]

theorem State.forget_raiseEvent {T : Nat} (hT : sub 0x80000000 T = true) (s : State) (e : AsyncEv) :
    forget T (State.raiseEvent s e) = forget T s :=
  widen T hT <| by
    unfold State.raiseEvent
    (repeat' split) <;> simp only [State.forget_setHost, State.forget_post, forget_ite, ite_self, foldl_frame, implies_true, sub, Nat.reduceAnd, beq_self_eq_true]

theorem State.forget_vendorEvent {T : Nat} (hT : sub 0x80000000 T = true) (s : State) (fn : ℕ) (page : ℕ) :
    forget T (State.vendorEvent s fn page) = forget T s :=
  widen T hT <| by simp only [State.vendorEvent, State.forget_raiseEvent, forget_ite, ite_self, implies_true, sub, Nat.reduceAnd, beq_self_eq_true]

theorem State.forget_nsChanged {T : Nat} (hT : sub 0x80000000 T = true) (s : State) (n : Ns) :
    forget T (State.nsChanged s n) = forget T s :=
  widen T hT <| by simp only [State.nsChanged, State.forget_raiseEvent, State.forget_setHost, forget_ite, ite_self, foldl_frame, implies_true, sub, Nat.reduceAnd, beq_self_eq_true]

theorem State.forget_catalogChanged {T : Nat} (hT : sub 0x80000000 T = true) (s : State) :
    forget T (State.catalogChanged s) = forget T s :=
  widen T hT <| rfl

theorem State.forget_commandError {T : Nat} (hT : sub 0x480000420 T = true) (s : State) (fn : ℕ) (sq : ℕ) (cid : ℕ) (status : ℕ) (nsid : ℕ) (lba : ℕ) :
    forget T (State.commandError s fn sq cid status nsid lba) = forget T s :=
  widen T hT <| by simp only [State.commandError, State.forget_bump, State.forget_record, State.forget_setHost, forget_ite, ite_self, implies_true, sub, Nat.reduceAnd, beq_self_eq_true]

theorem State.forget_completeAdmin {T : Nat} (hT : sub 0x480000420 T = true) (s : State) (c : Cmd) (status : ℕ) (dw0 : ℕ) (dw1 : ℕ) :
    forget T (State.completeAdmin s c status dw0 dw1) = forget T s :=
  widen T hT <| by simp only [State.completeAdmin, State.forget_commandError, State.forget_post, forget_ite, ite_self, implies_true, sub, Nat.reduceAnd, beq_self_eq_true]

theorem State.forget_modCmd {T : Nat} (hT : sub 0x80000000 T = true) (s : State) (k : CmdKey) (f : HCmd → HCmd) :
    forget T (State.modCmd s k f) = forget T s :=
  widen T hT <| rfl

theorem State.forget_relock {T : Nat} (hT : sub 0x80000020 T = true) (s : State) :
    forget T (State.relock s) = forget T s :=
  widen T hT <| by simp only [State.relock, State.forget_put, State.forget_setHost, forget_ite, ite_self, implies_true, sub, Nat.reduceAnd, beq_self_eq_true]

theorem State.forget_countFrozen {T : Nat} (hT : sub 0x20 T = true) (s : State) :
    forget T (State.countFrozen s) = forget T s :=
  widen T hT <| rfl

theorem State.forget_freezeSq {T : Nat} (hT : sub 0x480000420 T = true) (s : State) (fn : ℕ) (qid : ℕ) (cid : ℕ) (status : ℕ) :
    forget T (State.freezeSq s fn qid cid status) = forget T s :=
  widen T hT <| by
    unfold State.freezeSq
    split <;> simp only [State.forget_vendorEvent, State.forget_pulse, State.forget_modSq, State.forget_countFrozen, State.forget_record, State.forget_setHost, forget_ite, ite_self, foldl_frame, implies_true, sub, Nat.reduceAnd, beq_self_eq_true]

theorem State.forget_completeCmd {T : Nat} (hT : sub 0x480000420 T = true) (s : State) (k : CmdKey) (status : ℕ) (dw0 : ℕ) (dw1 : ℕ) (keep : Bool) :
    forget T (State.completeCmd s k status dw0 dw1 keep) = forget T s :=
  widen T hT <| by
    unfold State.completeCmd
    split <;> simp only [State.forget_freezeSq, State.forget_commandError, State.forget_setHost, State.forget_modCmd, State.forget_relock, State.forget_post, forget_ite, ite_self, foldl_frame, implies_true, sub, Nat.reduceAnd, beq_self_eq_true]

theorem State.forget_wake {T : Nat} (hT : sub 0x480000420 T = true) (s : State) (p : AdminFor → Bool) (status : ℕ) (dw0 : ℕ) :
    forget T (State.wake s p status dw0) = forget T s :=
  widen T hT <| by simp only [State.wake, State.forget_completeAdmin, State.forget_setHost, forget_ite, ite_self, foldl_frame, implies_true, sub, Nat.reduceAnd, beq_self_eq_true]

theorem State.forget_setEar {T : Nat} (hT : sub 0x20000000 T = true) (s : State) (f : EarmarkSt → EarmarkSt) :
    forget T (State.setEar s f) = forget T s :=
  widen T hT <| rfl

theorem State.forget_modBank {T : Nat} (hT : sub 0x20000020 T = true) (s : State) (b : ℕ) (f : EBank → EBank) :
    forget T (State.modBank s b f) = forget T s :=
  widen T hT <| rfl

theorem State.forget_writeEnt {T : Nat} (hT : sub 0x20000020 T = true) (s : State) (b : ℕ) (i : ℕ) (e : EEnt) :
    forget T (State.writeEnt s b i e) = forget T s :=
  widen T hT <| rfl

theorem State.forget_countSearch {T : Nat} (hT : sub 0x20 T = true) (s : State) (n : ℕ) :
    forget T (State.countSearch s n) = forget T s :=
  widen T hT <| by simp only [State.countSearch, State.forget_bump, forget_ite, ite_self, foldl_frame, implies_true, sub, Nat.reduceAnd, beq_self_eq_true]

theorem State.forget_dropSpans {T : Nat} (hT : sub 0x20000020 T = true) (s : State) (p : ESpan → Bool) :
    forget T (State.dropSpans s p) = forget T s :=
  widen T hT <| by simp only [State.dropSpans, State.forget_setEar, State.forget_writeEnt, forget_ite, ite_self, foldl_frame, implies_true, sub, Nat.reduceAnd, beq_self_eq_true]

theorem State.forget_enterSpan {T : Nat} (hT : sub 0x20000020 T = true) (s : State) (takeId : ℕ) (off : ℕ) (fs : List (ℕ × List ℕ)) :
    forget T (State.enterSpan s takeId off fs) = forget T s :=
  widen T hT <| by
    unfold State.enterSpan
    dsimp only
    (repeat' split) <;> simp only [State.forget_writeEnt, State.forget_dropSpans, State.forget_setEar, forget_ite, ite_self, foldl_frame, implies_true, sub, Nat.reduceAnd, beq_self_eq_true]

theorem State.forget_advance {T : Nat} (hT : sub 0x480001020 T = true) (s : State) :
    forget T (State.advance s) = forget T s :=
  widen T hT <| by simp only [State.advance, State.forget_setGate, State.forget_level, forget_ite, ite_self, implies_true, sub, Nat.reduceAnd, beq_self_eq_true]

theorem State.forget_hold {T : Nat} (hT : sub 0x480001020 T = true) (s : State) (f : Fld) (b : Bool) :
    forget T (State.hold s f b) = forget T s :=
  widen T hT <| by simp only [State.hold, State.forget_putBit, State.forget_advance, forget_ite, ite_self, implies_true, sub, Nat.reduceAnd, beq_self_eq_true]

theorem State.forget_endPerturb {T : Nat} (hT : sub 0xc80001820 T = true) (s : State) (cause : PerturbEnd) :
    forget T (State.endPerturb s cause) = forget T s :=
  widen T hT <| by simp only [State.endPerturb, State.forget_hold, State.forget_pulse, State.forget_setTrust, State.forget_put, State.forget_audit, forget_ite, ite_self, foldl_frame, implies_true, sub, Nat.reduceAnd, beq_self_eq_true]

theorem State.forget_showHolders {T : Nat} (hT : sub 0x20 T = true) (s : State) :
    forget T (State.showHolders s) = forget T s :=
  widen T hT <| rfl

theorem State.forget_freeComparator {T : Nat} (hT : sub 0x20 T = true) (s : State) (r : ℕ) :
    forget T (State.freeComparator s r) = forget T s :=
  widen T hT <| rfl

theorem State.forget_endRole {T : Nat} (hT : sub 0xc80001820 T = true) (s : State) (x : Session) (cause : RoleEnd) :
    forget T (State.endRole s x cause) = forget T s :=
  widen T hT <| by simp only [State.endRole, State.forget_endPerturb, State.forget_pulse, State.forget_freeComparator, State.forget_setTrust, State.forget_audit, State.forget_showHolders, forget_ite, ite_self, foldl_frame, implies_true, sub, Nat.reduceAnd, beq_self_eq_true]

theorem State.forget_endRolesOf {T : Nat} (hT : sub 0xc80001820 T = true) (s : State) (o : Origin) (cause : RoleEnd) :
    forget T (State.endRolesOf s o cause) = forget T s :=
  widen T hT <| by simp only [State.endRolesOf, State.forget_endRole, forget_ite, ite_self, foldl_frame, implies_true, sub, Nat.reduceAnd, beq_self_eq_true]

theorem State.forget_gateErr {T : Nat} (hT : sub 0x480000420 T = true) (s : State) (code : ℕ) (stream : ℕ) (number : ℕ) :
    forget T (State.gateErr s code stream number) = forget T s :=
  widen T hT <| by simp only [State.gateErr, State.forget_record, forget_ite, ite_self, implies_true, sub, Nat.reduceAnd, beq_self_eq_true]

theorem State.forget_leaveRx {T : Nat} (hT : sub 0x480001020 T = true) (s : State) (p : Bytes → Bool) :
    forget T (State.leaveRx s p) = forget T s :=
  widen T hT <| by simp only [State.leaveRx, State.forget_setGate, State.forget_advance, forget_ite, ite_self, implies_true, sub, Nat.reduceAnd, beq_self_eq_true]

theorem State.forget_send {T : Nat} (hT : sub 0x1000 T = true) (s : State) (p : Bytes) :
    forget T (State.send s p) = forget T s :=
  widen T hT <| rfl

theorem State.forget_takeIn {T : Nat} (hT : sub 0x480001420 T = true) (s : State) (p : Bytes) :
    forget T (State.takeIn s p) = forget T s :=
  widen T hT <| by simp only [State.takeIn, State.forget_setGate, State.forget_send, State.forget_record, forget_ite, ite_self, implies_true, sub, Nat.reduceAnd, beq_self_eq_true]

theorem State.forget_parseArea {T : Nat} (hT : sub 0x480001420 T = true) (x0 : ℕ) (x1 : State) (x2 : Bytes) :
    forget T (State.parseArea x0 x1 x2) = forget T x1 :=
  widen T hT <| by
    fun_induction State.parseArea x0 x1 x2 <;> simp only [State.forget_takeIn, State.forget_record, forget_ite, ite_self, foldl_frame, implies_true, sub, Nat.reduceAnd, beq_self_eq_true, *]

theorem State.forget_linkReset {T : Nat} (hT : sub 0xc80001820 T = true) (s : State) :
    forget T (State.linkReset s) = forget T s :=
  widen T hT <| by simp only [State.linkReset, State.forget_endRolesOf, State.forget_setGate, State.forget_puts, State.forget_hold, State.forget_pulse, State.forget_audit, forget_ite, ite_self, implies_true, sub, Nat.reduceAnd, beq_self_eq_true]

theorem State.forget_programUnit {T : Nat} (hT : sub 0x20000 T = true) (s : State) (die : ℕ) (block : ℕ) (pu : ℕ) (ps : List (ℕ × Bytes × Bytes)) :
    forget T (State.programUnit s die block pu ps) = forget T s :=
  widen T hT <| rfl

theorem State.forget_sendOnfi {T : Nat} (hT : sub 0x20000 T = true) (s : State) (d : ℕ) (cmds : List OnfiCmd) :
    forget T (State.sendOnfi s d cmds) = forget T s :=
  widen T hT <| by simp only [State.sendOnfi, State.forget_setNand, forget_ite, ite_self, implies_true, sub, Nat.reduceAnd, beq_self_eq_true]

theorem State.forget_setSent {T : Nat} (hT : sub 0x20000 T = true) (s : State) (d : ℕ) (n : ℕ) :
    forget T (State.setSent s d n) = forget T s :=
  widen T hT <| rfl

theorem State.forget_beginOps {T : Nat} (hT : sub 0x20000 T = true) (s : State) (d : ℕ) :
    forget T (State.beginOps s d) = forget T s :=
  widen T hT <| by
    unfold State.beginOps
    (repeat' split) <;> simp only [State.forget_setSent, State.forget_sendOnfi, forget_ite, ite_self, foldl_frame, implies_true, sub, Nat.reduceAnd, beq_self_eq_true]

theorem State.forget_queueOp {T : Nat} (hT : sub 0x20000 T = true) (s : State) (d : ℕ) (op : DieOp) :
    forget T (State.queueOp s d op) = forget T s :=
  widen T hT <| by simp only [State.queueOp, State.forget_beginOps, State.forget_setNand, forget_ite, ite_self, implies_true, sub, Nat.reduceAnd, beq_self_eq_true]

theorem State.forget_askStatus {T : Nat} (hT : sub 0x20000 T = true) (s : State) (d : ℕ) :
    forget T (State.askStatus s d) = forget T s :=
  widen T hT <| by simp only [State.askStatus, State.forget_sendOnfi, forget_ite, ite_self, implies_true, sub, Nat.reduceAnd, beq_self_eq_true]

theorem State.forget_popOp {T : Nat} (hT : sub 0x20000 T = true) (s0 : State) (d : ℕ) :
    forget T (State.popOp s0 d) = forget T s0 :=
  widen T hT <| by
    unfold State.popOp
    dsimp only
    (repeat' split) <;> simp only [State.forget_beginOps, State.forget_setNand, State.forget_askStatus, State.forget_setSent, State.forget_sendOnfi, forget_ite, ite_self, foldl_frame, implies_true, sub, Nat.reduceAnd, beq_self_eq_true]

theorem State.forget_setImage {T : Nat} (hT : sub 0x40000 T = true) (s : State) (f : MapImage → MapImage) :
    forget T (State.setImage s f) = forget T s :=
  widen T hT <| rfl

theorem State.forget_modGroup {T : Nat} (hT : sub 0x40000 T = true) (s : State) (n : ℕ) (f : Group → Group) :
    forget T (State.modGroup s n f) = forget T s :=
  widen T hT <| rfl

theorem State.forget_takeUnit {T : Nat} (hT : sub 0x40000 T = true) (s : State) (d : ℕ) (stripe : Bool) {t} (e : State.takeUnit s d stripe = some t) :
    forget T t.2 = forget T s :=
  widen T hT <| by
    unfold State.takeUnit at e
    split at e
    · cases e
      exact State.forget_setMedia rfl ..
    · split at e
      · cases e
      · obtain ⟨b, -, rfl⟩ := Option.map_eq_some_iff.mp e
        exact State.forget_setMedia rfl ..

theorem State.forget_modPage {T : Nat} (hT : sub 0x40000 T = true) (s : State) (n : ℕ) (f : MPage → MPage) :
    forget T (State.modPage s n f) = forget T s :=
  widen T hT <| rfl

theorem State.forget_addCopy {T : Nat} (hT : sub 0x60000 T = true) (s : State) (n : ℕ) (i : ℕ) (d : ℕ) :
    forget T (State.addCopy s n i d) = forget T s :=
  widen T hT <| by
    unfold State.addCopy
    split
    · rfl
    · split
      · rfl
      next b t ht =>
        dsimp only
        rw [State.forget_queueOp rfl, State.forget_modPage rfl]
        exact State.forget_takeUnit rfl s d _ ht

theorem State.forget_putPage {T : Nat} (hT : sub 0x60000 T = true) (s : State) (kind : ℕ) (seq : ℕ) (stripe : Bool) (data : Bytes) {t} (e : State.putPage s kind seq stripe data = some t) :
    forget T t.2 = forget T s :=
  widen T hT <| by
    unfold State.putPage at e
    dsimp only at e
    split at e
    · cases e
    · cases e
      exact (foldl_frame _ _ (fun u d => State.forget_addCopy rfl ..) ..).trans (State.forget_setMedia rfl ..)

theorem State.forget_pageProgrammed {T : Nat} (hT : sub 0x60000 T = true) (s : State) (n : ℕ) (i : ℕ) (d : ℕ) (block : ℕ) (unit : ℕ) :
    forget T (State.pageProgrammed s n i d block unit) = forget T s :=
  widen T hT <| by
    unfold State.pageProgrammed
    split <;> simp only [State.forget_modPage, State.forget_programUnit, forget_ite, ite_self, foldl_frame, implies_true, sub, Nat.reduceAnd, beq_self_eq_true]

theorem State.forget_dropPages {T : Nat} (hT : sub 0x60000 T = true) (s : State) :
    forget T (State.dropPages s) = forget T s :=
  widen T hT <| by simp only [State.dropPages, State.forget_setMedia, State.forget_queueOp, forget_ite, ite_self, foldl_frame, implies_true, sub, Nat.reduceAnd, beq_self_eq_true]

theorem State.forget_nextSeq {T : Nat} (hT : sub 0x40000 T = true) (s : State) :
    forget T (State.nextSeq s).2 = forget T s :=
  widen T hT <| rfl

theorem State.forget_writeJournal {T : Nat} (hT : sub 0x60000 T = true) (s : State) :
    forget T (State.writeJournal s) = forget T s :=
  widen T hT <| by
    unfold State.writeJournal
    dsimp only
    split
    · rfl
    next r hr =>
      split
      · rfl
      next n t hp =>
        rw [State.forget_setMedia rfl]
        exact State.forget_putPage rfl s 4 r.seq false (journalBytes (s.media.page.take 2048)) hp

theorem State.forget_addRec {T : Nat} (hT : sub 0x60000 T = true) (s : State) (r : JRec) :
    forget T (State.addRec s r) = forget T s :=
  widen T hT <| by simp only [State.addRec, State.forget_writeJournal, State.forget_setMedia, forget_ite, ite_self, implies_true, sub, Nat.reduceAnd, beq_self_eq_true]

theorem State.forget_journal {T : Nat} (hT : sub 0x60000 T = true) (s : State) (kind : ℕ) (count : ℕ) (nsid : ℕ) (logical : ℕ) (ma : ℕ × ℕ) :
    forget T (State.journal s kind count nsid logical ma) = forget T s :=
  widen T hT <| by simp only [State.journal, State.forget_addRec, State.forget_nextSeq, forget_ite, ite_self, implies_true, sub, Nat.reduceAnd, beq_self_eq_true]

theorem State.forget_journalRuns {T : Nat} (hT : sub 0x60000 T = true) (s : State) (kind : ℕ) (nsid : ℕ) (lba : ℕ) (n : ℕ) :
    forget T (State.journalRuns s kind nsid lba n) = forget T s :=
  widen T hT <| by simp only [State.journalRuns, State.forget_journal, forget_ite, ite_self, foldl_frame, implies_true, sub, Nat.reduceAnd, beq_self_eq_true]

theorem State.forget_writeBitmapHeader {T : Nat} (hT : sub 0x800000000 T = true) (s : State) :
    forget T (State.writeBitmapHeader s) = forget T s :=
  widen T hT <| by simp only [State.writeBitmapHeader, State.forget_setTally, State.forget_wearTally, forget_ite, ite_self, implies_true, sub, Nat.reduceAnd, beq_self_eq_true]

theorem State.forget_writeBitmap {T : Nat} (hT : sub 0x800080000 T = true) (s : State) (l : List ℕ) (regions : List ℕ) :
    forget T (State.writeBitmap s l regions) = forget T s :=
  widen T hT <| by simp only [State.writeBitmap, State.forget_wearTally, State.forget_writeBitmapHeader, State.forget_setArray, forget_ite, ite_self, implies_true, sub, Nat.reduceAnd, beq_self_eq_true]

theorem State.forget_markRegions {T : Nat} (hT : sub 0x800080000 T = true) (s : State) (ms : List (ℕ × ℕ)) :
    forget T (State.markRegions s ms) = forget T s :=
  widen T hT <| by simp only [State.markRegions, State.forget_writeBitmap, forget_ite, ite_self, implies_true, sub, Nat.reduceAnd, beq_self_eq_true]

theorem State.forget_noPlace {T : Nat} (hT : sub 0x480000420 T = true) (s : State) (use : GroupUse) (nsid : ℕ) :
    forget T (State.noPlace s use nsid) = forget T s :=
  widen T hT <| by simp only [State.noPlace, State.forget_pulse, State.forget_record, forget_ite, ite_self, implies_true, sub, Nat.reduceAnd, beq_self_eq_true]

theorem State.forget_openGroup {T : Nat} (hT : sub 0x8000e0020 T = true) (s : State) (use : GroupUse) (nsid : ℕ) {t} (e : State.openGroup s use nsid = some t) :
    forget T t = forget T s :=
  widen T hT <| by
    unfold State.openGroup at e
    dsimp only at e
    split at e
    · cases e
    · split at e
      · cases e
      · cases e
        rw [State.forget_markRegions rfl, State.forget_journal rfl]
        split
        · rw [State.forget_put rfl, State.forget_setArray rfl, State.forget_setImage rfl, State.forget_setMedia rfl]
        · rw [State.forget_setArray rfl, State.forget_setImage rfl, State.forget_setMedia rfl]

theorem State.forget_issueStripe {T : Nat} (hT : sub 0xe0000 T = true) (s : State) (g : Group) (i : ℕ) :
    forget T (State.issueStripe s g i) = forget T s :=
  widen T hT <| by simp only [State.issueStripe, State.forget_setArray, State.forget_modGroup, State.forget_queueOp, forget_ite, ite_self, foldl_frame, implies_true, sub, Nat.reduceAnd, beq_self_eq_true]

theorem State.forget_issueGroup {T : Nat} (hT : sub 0xe0000 T = true) (s : State) (g : Group) :
    forget T (State.issueGroup s g) = forget T s :=
  widen T hT <| by simp only [State.issueGroup, State.forget_issueStripe, forget_ite, ite_self, foldl_frame, implies_true, sub, Nat.reduceAnd, beq_self_eq_true]

theorem State.forget_putIn {T : Nat} (hT : sub 0xe0000 T = true) (s : State) (gn : ℕ) (u : DUnit) :
    forget T (State.putIn s gn u) = forget T s :=
  widen T hT <| by
    unfold State.putIn
    dsimp only
    (repeat' split) <;> simp only [State.forget_issueGroup, State.forget_nextSeq, State.forget_modGroup, forget_ite, ite_self, foldl_frame, implies_true, sub, Nat.reduceAnd, beq_self_eq_true]

theorem State.forget_padGroup {T : Nat} (hT : sub 0xe0000 T = true) (gn : ℕ) (x0 : ℕ) (x1 : State) :
    forget T (State.padGroup gn x0 x1) = forget T x1 :=
  widen T hT <| by
    fun_induction State.padGroup gn x0 x1 <;> simp only [State.forget_putIn, forget_ite, ite_self, foldl_frame, implies_true, sub, Nat.reduceAnd, beq_self_eq_true, *]

theorem State.forget_padStripe {T : Nat} (hT : sub 0xe0000 T = true) (s : State) (use : GroupUse) (gn : ℕ) :
    forget T (State.padStripe s use gn) = forget T s :=
  widen T hT <| by simp only [State.padStripe, State.forget_padGroup, forget_ite, ite_self, foldl_frame, implies_true, sub, Nat.reduceAnd, beq_self_eq_true]

theorem State.forget_roomFor {T : Nat} (hT : sub 0x8000e0020 T = true) (s : State) (use : GroupUse) (gn : ℕ) (need : ℕ) {t} (e : State.roomFor s use gn need = some t) :
    forget T t.2 = forget T s :=
  widen T hT <| by
    unfold State.roomFor at e
    split at e
    · cases e
      rfl
    · split at e
      · cases e
      next u hu =>
        obtain ⟨g, -, rfl⟩ := Option.map_eq_some_iff.mp e
        exact (State.forget_openGroup rfl _ _ _ hu).trans (State.forget_padStripe rfl ..)

theorem State.forget_placeUnit {T : Nat} (hT : sub 0x8000e0020 T = true) (s : State) (use : GroupUse) (gn : ℕ) (nsid : ℕ) (kind : ℕ) (logical : ℕ) (flags : ℕ) (data : Bytes) (cmd : Option CmdKey) {t} (e : State.placeUnit s use gn nsid kind logical flags data cmd = some t) :
    forget T t = forget T s :=
  widen T hT <| by
    unfold State.placeUnit at e
    split at e
    · cases e
    · obtain ⟨r, hr, rfl⟩ := Option.map_eq_some_iff.mp e
      exact (State.forget_putIn rfl ..).trans (State.forget_roomFor rfl _ _ _ _ hr)

theorem State.forget_readUnit {T : Nat} (hT : sub 0x480000420 T = true) (s : State) (gn : ℕ) (u : ℕ) :
    forget T (State.readUnit s gn u).2 = forget T s :=
  widen T hT <| by
    unfold State.readUnit
    dsimp only
    (repeat' split) <;> simp only [State.forget_pulse, State.forget_bump, State.forget_record, forget_ite, ite_self, foldl_frame, implies_true, sub, Nat.reduceAnd, beq_self_eq_true]

theorem State.forget_fetchUnit {T : Nat} (hT : sub 0x480020420 T = true) (s : State) (gn : ℕ) (u : ℕ) :
    forget T (State.fetchUnit s gn u).2 = forget T s :=
  widen T hT <| by
    unfold State.fetchUnit
    dsimp only
    (repeat' split) <;> simp only [State.forget_readUnit, State.forget_sendOnfi, forget_ite, ite_self, foldl_frame, implies_true, sub, Nat.reduceAnd, beq_self_eq_true]

theorem State.forget_residePage {T : Nat} (hT : sub 0x40000 T = true) (s : State) (p : ℕ) :
    forget T (State.residePage s p) = forget T s :=
  widen T hT <| by simp only [State.residePage, State.forget_setMedia, forget_ite, ite_self, implies_true, sub, Nat.reduceAnd, beq_self_eq_true]

theorem State.forget_needPage {T : Nat} (hT : sub 0x60000 T = true) (s : State) (p : ℕ) (use : OpFor) :
    forget T (State.needPage s p use).2 = forget T s :=
  widen T hT <| by
    unfold State.needPage
    (repeat' split) <;> simp only [State.forget_residePage, State.forget_queueOp, forget_ite, ite_self, foldl_frame, implies_true, sub, Nat.reduceAnd, beq_self_eq_true]

theorem State.forget_dirtyPage {T : Nat} (hT : sub 0x60000 T = true) (s : State) (nsid : ℕ) (logical : ℕ) :
    forget T (State.dirtyPage s nsid logical) = forget T s :=
  widen T hT <| by simp only [State.dirtyPage, State.forget_setMedia, State.forget_needPage, forget_ite, ite_self, implies_true, sub, Nat.reduceAnd, beq_self_eq_true]

theorem State.forget_dirtyDirPage {T : Nat} (hT : sub 0x40000 T = true) (s : State) (d : ℕ) :
    forget T (State.dirtyDirPage s d) = forget T s :=
  widen T hT <| rfl

theorem State.forget_unmapUnit {T : Nat} (hT : sub 0x60000 T = true) (s : State) (nsid : ℕ) (logical : ℕ) :
    forget T (State.unmapUnit s nsid logical) = forget T s :=
  widen T hT <| by simp only [State.unmapUnit, State.forget_setImage, State.forget_dirtyPage, forget_ite, ite_self, implies_true, sub, Nat.reduceAnd, beq_self_eq_true]

theorem State.forget_cancelWhere {T : Nat} (hT : sub 0x40000 T = true) (s : State) (p : DUnit → Bool) :
    forget T (State.cancelWhere s p) = forget T s :=
  widen T hT <| rfl

theorem State.forget_addUnitRec {T : Nat} (hT : sub 0x60000 T = true) (s : State) (o : OwedRec) :
    forget T (State.addUnitRec s o) = forget T s :=
  widen T hT <| by simp only [State.addUnitRec, State.forget_addRec, forget_ite, ite_self, implies_true, sub, Nat.reduceAnd, beq_self_eq_true]

theorem State.forget_markRecs {T : Nat} (hT : sub 0x40000 T = true) (s : State) (l : List OwedRec) :
    forget T (State.markRecs s l) = forget T s :=
  widen T hT <| rfl

theorem State.forget_logFrees {T : Nat} (hT : sub 0x60000 T = true) (s : State) :
    forget T (State.logFrees s) = forget T s :=
  widen T hT <| by simp only [State.logFrees, State.forget_journal, State.forget_modGroup, forget_ite, ite_self, foldl_frame, implies_true, sub, Nat.reduceAnd, beq_self_eq_true]

theorem State.forget_logReady {T : Nat} (hT : sub 0x60000 T = true) (s : State) :
    forget T (State.logReady s) = forget T s :=
  widen T hT <| by simp only [State.logReady, State.forget_markRecs, State.forget_journal, State.forget_modGroup, State.forget_addUnitRec, State.forget_logFrees, forget_ite, ite_self, foldl_frame, implies_true, sub, Nat.reduceAnd, beq_self_eq_true]

theorem State.forget_closeGroup {T : Nat} (hT : sub 0xc0000 T = true) (s : State) (gn : ℕ) :
    forget T (State.closeGroup s gn) = forget T s :=
  widen T hT <| rfl

theorem State.forget_closeEnding {T : Nat} (hT : sub 0xe0000 T = true) (s : State) :
    forget T (State.closeEnding s) = forget T s :=
  widen T hT <| by simp only [State.closeEnding, State.forget_logReady, State.forget_closeGroup, forget_ite, ite_self, foldl_frame, implies_true, sub, Nat.reduceAnd, beq_self_eq_true]

theorem State.forget_freeGroup {T : Nat} (hT : sub 0x60000 T = true) (s : State) (gn : ℕ) :
    forget T (State.freeGroup s gn) = forget T s :=
  widen T hT <| by simp only [State.freeGroup, State.forget_setMedia, State.forget_modGroup, State.forget_logFrees, forget_ite, ite_self, implies_true, sub, Nat.reduceAnd, beq_self_eq_true]

theorem State.forget_freeEmpty {T : Nat} (hT : sub 0x60000 T = true) (s : State) :
    forget T (State.freeEmpty s) = forget T s :=
  widen T hT <| by simp only [State.freeEmpty, State.forget_freeGroup, forget_ite, ite_self, foldl_frame, implies_true, sub, Nat.reduceAnd, beq_self_eq_true]

theorem State.forget_closeFull {T : Nat} (hT : sub 0xe0000 T = true) (s : State) :
    forget T (State.closeFull s) = forget T s :=
  widen T hT <| by simp only [State.closeFull, State.forget_logReady, State.forget_closeGroup, forget_ite, ite_self, foldl_frame, implies_true, sub, Nat.reduceAnd, beq_self_eq_true]

theorem State.forget_voidUnissued {T : Nat} (hT : sub 0x40000 T = true) (s : State) (gn : ℕ) :
    forget T (State.voidUnissued s gn) = forget T s :=
  widen T hT <| rfl

theorem State.forget_closeTakeGroups {T : Nat} (hT : sub 0xe0000 T = true) (s : State) (nsid : ℕ) :
    forget T (State.closeTakeGroups s nsid) = forget T s :=
  widen T hT <| by simp only [State.closeTakeGroups, State.forget_logReady, State.forget_voidUnissued, State.forget_closeGroup, forget_ite, ite_self, foldl_frame, implies_true, sub, Nat.reduceAnd, beq_self_eq_true]

theorem State.forget_placeBatch {T : Nat} (hT : sub 0x8000e0020 T = true) (use : GroupUse) (gn : ℕ) (x0 : List DUnit) (x1 : State) {t} (e : State.placeBatch use gn x0 x1 = some t) :
    forget T t = forget T x1 :=
  widen T hT <| by
    induction x0 generalizing x1 with
    | nil => cases e; rfl
    | cons u us ih =>
      unfold State.placeBatch at e
      split at e
      · obtain ⟨r, hr, rfl⟩ := Option.map_eq_some_iff.mp e
        exact (foldl_frame _ _ (fun t v => State.forget_putIn rfl ..) ..).trans (State.forget_roomFor rfl _ _ _ _ hr)
      · split at e
        next r hr => exact (ih _ e).trans ((State.forget_putIn rfl ..).trans (State.forget_roomFor rfl _ _ _ _ hr))
        · cases e

theorem State.forget_placeOrWait {T : Nat} (hT : sub 0xc800e0420 T = true) (s : State) (w : Waiting) :
    forget T (State.placeOrWait s w) = forget T s :=
  widen T hT <| by
    unfold State.placeOrWait
    split
    · rfl
    · split
      next t ht =>
        split at ht
        · cases ht
        · exact State.forget_placeBatch rfl _ _ _ _ ht
      · exact (State.forget_setMedia rfl ..).trans (State.forget_noPlace rfl ..)

theorem State.forget_showKeys {T : Nat} (hT : sub 0x20 T = true) (s : State) :
    forget T (State.showKeys s) = forget T s :=
  widen T hT <| by simp only [State.showKeys, State.forget_puts, forget_ite, ite_self, implies_true, sub, Nat.reduceAnd, beq_self_eq_true]

theorem State.forget_loadSlot {T : Nat} (hT : sub 0x100020 T = true) (s : State) (k : KeySlot) :
    forget T (State.loadSlot s k) = forget T s :=
  widen T hT <| by simp only [State.loadSlot, State.forget_setKeys, State.forget_showKeys, forget_ite, ite_self, implies_true, sub, Nat.reduceAnd, beq_self_eq_true]

theorem State.forget_clearSlot {T : Nat} (hT : sub 0x100020 T = true) (s : State) (n : ℕ) :
    forget T (State.clearSlot s n) = forget T s :=
  widen T hT <| by simp only [State.clearSlot, State.forget_setKeys, State.forget_showKeys, forget_ite, ite_self, implies_true, sub, Nat.reduceAnd, beq_self_eq_true]

theorem State.forget_drawMasks {T : Nat} (hT : sub 0x100000 T = true) (s : State) (g : ℕ) (blocks : ℕ) :
    forget T (State.drawMasks s g blocks) = forget T s :=
  widen T hT <| rfl

theorem State.forget_maskStall {T : Nat} (hT : sub 0x480100420 T = true) (s : State) (p : ℕ) :
    forget T (State.maskStall s p) = forget T s :=
  widen T hT <| by simp only [State.maskStall, State.forget_pulse, State.forget_bump, State.forget_setKeys, State.forget_record, forget_ite, ite_self, implies_true, sub, Nat.reduceAnd, beq_self_eq_true]

theorem State.forget_mediaStall {T : Nat} (hT : sub 0x480100420 T = true) (s : State) :
    forget T (State.mediaStall s) = forget T s :=
  widen T hT <| by
    unfold State.mediaStall
    split <;> simp only [State.forget_maskStall, forget_ite, ite_self, foldl_frame, implies_true, sub, Nat.reduceAnd, beq_self_eq_true]

theorem State.forget_mediaBytes {T : Nat} (hT : sub 0x100020 T = true) (s : State) (n : ℕ) :
    forget T (State.mediaBytes s n) = forget T s :=
  widen T hT <| rfl

theorem State.forget_writeKeyPage {T : Nat} (hT : sub 0x8001e0020 T = true) (s : State) (n : ℕ) :
    forget T (State.writeKeyPage s n) = forget T s :=
  widen T hT <| by
    unfold State.writeKeyPage
    split
    next t ht => exact (State.forget_setKeys rfl ..).trans ((State.forget_padStripe rfl ..).trans (State.forget_placeUnit rfl _ _ _ _ _ _ _ _ _ ht))
    · exact State.forget_setKeys rfl ..

theorem State.forget_newMediaKey {T : Nat} (hT : sub 0x8001e0024 T = true) (s : State) (nsid : ℕ) :
    forget T (State.newMediaKey s nsid).2 = forget T s :=
  widen T hT <| by
    unfold State.newMediaKey
    split <;> simp only [State.forget_nextSeq, State.forget_loadSlot, State.forget_writeKeyPage, State.forget_freshBytes, State.forget_setKeys, forget_ite, ite_self, foldl_frame, implies_true, sub, Nat.reduceAnd, beq_self_eq_true]

theorem State.forget_mediaKey {T : Nat} (hT : sub 0x100020 T = true) (s : State) (rec : ℕ) (seq : ℕ) :
    forget T (State.mediaKey s rec seq).2 = forget T s :=
  widen T hT <| by
    unfold State.mediaKey
    (repeat' split) <;> simp only [State.forget_loadSlot, forget_ite, ite_self, foldl_frame, implies_true, sub, Nat.reduceAnd, beq_self_eq_true]

theorem State.forget_dropKey {T : Nat} (hT : sub 0x8001e0020 T = true) (s : State) (rec : ℕ) :
    forget T (State.dropKey s rec) = forget T s :=
  widen T hT <| by simp only [State.dropKey, State.forget_setKeys, State.forget_writeKeyPage, State.forget_clearSlot, forget_ite, ite_self, foldl_frame, implies_true, sub, Nat.reduceAnd, beq_self_eq_true]

theorem State.forget_zeroiseKeys {T : Nat} (hT : sub 0x480110020 T = true) (s : State) :
    forget T (State.zeroiseKeys s) = forget T s :=
  widen T hT <| by simp only [State.zeroiseKeys, State.forget_pulse, State.forget_setJobs, State.forget_setKeys, State.forget_showKeys, forget_ite, ite_self, implies_true, sub, Nat.reduceAnd, beq_self_eq_true]

theorem State.forget_keyErr {T : Nat} (hT : sub 0x480000420 T = true) (s : State) (j : Job) (st : ℕ) :
    forget T (State.keyErr s j st) = forget T s :=
  widen T hT <| by simp only [State.keyErr, State.forget_record, forget_ite, ite_self, implies_true, sub, Nat.reduceAnd, beq_self_eq_true]

theorem State.forget_modNs {T : Nat} (hT : sub 0x200000 T = true) (s : State) (nsid : ℕ) (f : Ns → Ns) :
    forget T (State.modNs s nsid f) = forget T s :=
  widen T hT <| rfl

theorem State.forget_takeErr {T : Nat} (hT : sub 0x480000420 T = true) (s : State) (code : ℕ) :
    forget T (State.takeErr s code) = forget T s :=
  widen T hT <| by simp only [State.takeErr, State.forget_record, forget_ite, ite_self, implies_true, sub, Nat.reduceAnd, beq_self_eq_true]

theorem State.forget_modWin {T : Nat} (hT : sub 0x4000 T = true) (s : State) (i : ℕ) (f : Window → Window) :
    forget T (State.modWin s i f) = forget T s :=
  widen T hT <| rfl

theorem State.forget_trigErr {T : Nat} (hT : sub 0x480000420 T = true) (s : State) (code : ℕ) (src : ℕ) (slot : Option ℕ) :
    forget T (State.trigErr s code src slot) = forget T s :=
  widen T hT <| by simp only [State.trigErr, State.forget_record, forget_ite, ite_self, implies_true, sub, Nat.reduceAnd, beq_self_eq_true]

theorem State.forget_sealWindow {T : Nat} (hT : sub 0x480004020 T = true) (s : State) (i : ℕ) (cut : Bool) :
    forget T (State.sealWindow s i cut) = forget T s :=
  widen T hT <| by simp only [State.sealWindow, State.forget_modWin, State.forget_pulse, forget_ite, ite_self, implies_true, sub, Nat.reduceAnd, beq_self_eq_true]

theorem State.forget_cutWindow {T : Nat} (hT : sub 0x480004420 T = true) (s : State) (i : ℕ) :
    forget T (State.cutWindow s i) = forget T s :=
  widen T hT <| by simp only [State.cutWindow, State.forget_modWin, State.forget_pulse, State.forget_trigErr, forget_ite, ite_self, implies_true, sub, Nat.reduceAnd, beq_self_eq_true]

theorem State.forget_cutSealed {T : Nat} (hT : sub 0x480004420 T = true) (s : State) (i : ℕ) :
    forget T (State.cutSealed s i) = forget T s :=
  widen T hT <| by simp only [State.cutSealed, State.forget_modWin, State.forget_pulse, State.forget_trigErr, forget_ite, ite_self, implies_true, sub, Nat.reduceAnd, beq_self_eq_true]

theorem State.forget_keepSeg {T : Nat} (hT : sub 0x62000 T = true) (s : State) (nsid : ℕ) (seg : ℕ) :
    forget T (State.keepSeg s nsid seg) = forget T s :=
  widen T hT <| by simp only [State.keepSeg, State.forget_setMedia, State.forget_setTake, State.forget_journal, State.forget_setImage, forget_ite, ite_self, foldl_frame, implies_true, sub, Nat.reduceAnd, beq_self_eq_true]

theorem State.forget_pinSpan {T : Nat} (hT : sub 0x480066420 T = true) (s : State) (i : ℕ) (a : ℕ) (b : ℕ) :
    forget T (State.pinSpan s i a b).2 = forget T s :=
  widen T hT <| by
    have hkeep (t : State) (l : List Nat) : forget 0x480066420 (l.foldl (fun t x => match t.take.c with | some c => t.keepSeg c.nsid x | none => t) t)
        = forget 0x480066420 t :=
      foldl_frame _ _ (fun t x => by cases t.take.c with | none => rfl | some c => exact State.forget_keepSeg rfl ..) ..
    unfold State.pinSpan
    dsimp only
    split
    · dsimp only
      split
      · exact State.forget_cutWindow rfl ..
      · exact State.forget_cutSealed rfl ..
    · dsimp only
      split
      · exact hkeep ..
      · split
        · rw [State.forget_setTrig rfl]
          exact hkeep ..
        · rw [State.forget_trigErr rfl, State.forget_pulse rfl, State.forget_setTrig rfl]
          exact hkeep ..

theorem State.forget_pinFrame {T : Nat} (hT : sub 0x480066420 T = true) (s : State) (i : ℕ) (f : ℕ × ℕ × ℕ) :
    forget T (State.pinFrame s i f) = forget T s :=
  widen T hT <| by simp only [State.pinFrame, State.forget_modWin, State.forget_pinSpan, forget_ite, ite_self, implies_true, sub, Nat.reduceAnd, beq_self_eq_true]

theorem State.forget_pinArriving {T : Nat} (hT : sub 0x480066420 T = true) (s : State) (i : ℕ) (f : FrameSt) :
    forget T (State.pinArriving s i f) = forget T s :=
  widen T hT <| by
    unfold State.pinArriving
    split <;> simp only [State.forget_modWin, State.forget_pinSpan, forget_ite, ite_self, foldl_frame, implies_true, sub, Nat.reduceAnd, beq_self_eq_true]

theorem State.forget_startRelease {T : Nat} (hT : sub 0x62000 T = true) (s : State) (nsid : ℕ) (seg : ℕ) :
    forget T (State.startRelease s nsid seg) = forget T s :=
  widen T hT <| by simp only [State.startRelease, State.forget_freeEmpty, State.forget_setTake, State.forget_journal, forget_ite, ite_self, implies_true, sub, Nat.reduceAnd, beq_self_eq_true]

theorem State.forget_releaseTo {T : Nat} (hT : sub 0x62000 T = true) (nsid : ℕ) (n : ℕ) (x0 : ℕ) (x1 : State) :
    forget T (State.releaseTo nsid n x0 x1) = forget T x1 :=
  widen T hT <| by
    -- the recursion's own principle: the list of free segments is kept opaque, for the kernel would evaluate its length
    have hrec (P : (State → State) → Prop) (F : (t : ℕ) → Nat.below (motive := fun _ => State → State) t → State → State) (h0 : ∀ b, P (F 0 b))
        (hs : ∀ k (b : Nat.below (motive := fun _ => State → State) (k + 1)), P b.1 → P (F (k + 1) b)) (k : Nat) :
        P (Nat.brecOn (motive := fun _ => State → State) k F) := by
      induction k with
      | zero => exact h0 _
      | succ k ih => exact hs k _ ih
    revert x1
    delta State.releaseTo State.releaseTo._f
    generalize State.freeSegs = g
    refine hrec (fun h => ∀ s, forget 0x62000 (h s) = forget 0x62000 s) _ ?_ ?_ x0
    · exact fun b s => rfl
    · intro k b ih s
      dsimp only
      split
      · rfl
      · split
        · rfl
        · exact (ih _).trans (State.forget_startRelease rfl ..)

theorem State.forget_ringRoom {T : Nat} (hT : sub 0x62000 T = true) (s : State) (c : Contract) (newLen : ℕ) :
    forget T (State.ringRoom s c newLen) = forget T s :=
  widen T hT <| by simp only [State.ringRoom, State.forget_releaseTo, forget_ite, ite_self, implies_true, sub, Nat.reduceAnd, beq_self_eq_true]

theorem State.forget_placeTake {T : Nat} (hT : sub 0x8001e2020 T = true) (x0 : ℕ) (x1 : State) :
    forget T (State.placeTake x0 x1) = forget T x1 :=
  widen T hT <| by
    induction x0 generalizing x1 with
    | zero => rfl
    | succ n ih =>
      unfold State.placeTake
      split
      · rfl
      · dsimp only
        split
        · rfl
        · split
          · rfl
          · split
            · rfl
            next t ht =>
              rw [ih, State.forget_setImage rfl, State.forget_mediaBytes rfl, State.forget_setTake rfl]
              exact State.forget_placeUnit rfl _ _ _ _ _ _ _ _ _ ht

theorem State.forget_placeAll {T : Nat} (hT : sub 0xc801e2420 T = true) (s : State) :
    forget T (State.placeAll s) = forget T s :=
  widen T hT <| by simp only [State.placeAll, State.forget_mediaStall, State.forget_placeTake, forget_ite, ite_self, implies_true, sub, Nat.reduceAnd, beq_self_eq_true]

theorem State.forget_appendRaw {T : Nat} (hT : sub 0xc801e2420 T = true) (s : State) (bs : Bytes) :
    forget T (State.appendRaw s bs) = forget T s :=
  widen T hT <| by
    unfold State.appendRaw
    split <;> simp only [State.forget_setTake, State.forget_ringRoom, State.forget_placeAll, forget_ite, ite_self, foldl_frame, implies_true, sub, Nat.reduceAnd, beq_self_eq_true]

theorem State.forget_appendIndex {T : Nat} (hT : sub 0xca01e2420 T = true) (s : State) (c : Contract) :
    forget T (State.appendIndex s c) = forget T s :=
  widen T hT <| by simp only [State.appendIndex, State.forget_setTake, State.forget_enterSpan, State.forget_appendRaw, forget_ite, ite_self, implies_true, sub, Nat.reduceAnd, beq_self_eq_true]

theorem State.forget_modFrame {T : Nat} (hT : sub 0x2000 T = true) (s : State) (uid : ℕ) (f : FrameSt → FrameSt) :
    forget T (State.modFrame s uid f) = forget T s :=
  widen T hT <| rfl

theorem State.forget_showStreams {T : Nat} (hT : sub 0x20 T = true) (s : State) :
    forget T (State.showStreams s) = forget T s :=
  widen T hT <| rfl

theorem State.forget_flushAcks {T : Nat} (hT : sub 0x3000 T = true) (s : State) :
    forget T (State.flushAcks s) = forget T s :=
  widen T hT <| by simp only [State.flushAcks, State.forget_setTake, State.forget_send, forget_ite, ite_self, foldl_frame, implies_true, sub, Nat.reduceAnd, beq_self_eq_true]

theorem State.forget_ackFrame {T : Nat} (hT : sub 0x3000 T = true) (s : State) (f : FrameSt) (status : ℕ) (stored : ℕ) (time : ℕ) :
    forget T (State.ackFrame s f status stored time) = forget T s :=
  widen T hT <| by simp only [State.ackFrame, State.forget_setTake, State.forget_flushAcks, forget_ite, ite_self, implies_true, sub, Nat.reduceAnd, beq_self_eq_true]

theorem State.forget_unawait {T : Nat} (hT : sub 0x4000 T = true) (s : State) (uid : ℕ) :
    forget T (State.unawait s uid) = forget T s :=
  widen T hT <| rfl

theorem State.forget_refuseFrame {T : Nat} (hT : sub 0x480007420 T = true) (s : State) (f : FrameSt) :
    forget T (State.refuseFrame s f) = forget T s :=
  widen T hT <| by simp only [State.refuseFrame, State.forget_ackFrame, State.forget_takeErr, State.forget_unawait, forget_ite, ite_self, implies_true, sub, Nat.reduceAnd, beq_self_eq_true]

theorem State.forget_showTake {T : Nat} (hT : sub 0x200000 T = true) (s : State) :
    forget T (State.showTake s) = forget T s :=
  widen T hT <| by
    unfold State.showTake
    split <;> simp only [State.forget_modNs, forget_ite, ite_self, foldl_frame, implies_true, sub, Nat.reduceAnd, beq_self_eq_true]

theorem State.forget_modLane {T : Nat} (hT : sub 0x8020 T = true) (s : State) (l : ℕ) (f : LaneSt → LaneSt) :
    forget T (State.modLane s l f) = forget T s :=
  widen T hT <| by
    unfold State.modLane
    split <;> simp only [State.forget_puts, forget_set_lanes, forget_ite, ite_self, foldl_frame, implies_true, sub, Nat.reduceAnd, beq_self_eq_true]

theorem State.forget_unparkJobs {T : Nat} (hT : sub 0x18020 T = true) (s : State) :
    forget T (State.unparkJobs s) = forget T s :=
  widen T hT <| foldl_frame _ _ (fun t d => by
    cases (List.range 12).find? fun l => !t.laneReserved l && t.laneFree l with
    | none => rfl
    | some l => dsimp only; rw [State.forget_setJobs rfl, State.forget_modLane rfl]) ..

theorem State.forget_dispatchSlices {T : Nat} (hT : sub 0x1a020 T = true) (s : State) :
    forget T (State.dispatchSlices s) = forget T s :=
  widen T hT <| by
    rw [State.dispatchSlices, State.forget_unparkJobs rfl]
    exact foldl_frame _ _ (fun t x => by
      cases (List.range 12).find? fun l => t.laneReserved l && t.laneFree l with
      | none => rfl
      | some l =>
        dsimp only
        split
        · rw [State.forget_setTake rfl, State.forget_modLane rfl]
        · rfl) ..

theorem State.forget_queueSlices {T : Nat} (hT : sub 0x1a020 T = true) (s : State) (uid : ℕ) (n : ℕ) :
    forget T (State.queueSlices s uid n) = forget T s :=
  widen T hT <| by
    unfold State.queueSlices
    split <;> simp only [State.forget_dispatchSlices, State.forget_modFrame, State.forget_setTake, forget_ite, ite_self, foldl_frame, implies_true, sub, Nat.reduceAnd, beq_self_eq_true]

theorem State.forget_endFrame {T : Nat} (hT : sub 0x48001a420 T = true) (s : State) (f : FrameSt) (status : ℕ) (crc : Option ℕ) (damaged : Bool) :
    forget T (State.endFrame s f status crc damaged) = forget T s :=
  widen T hT <| by simp only [State.endFrame, State.forget_showStreams, State.forget_pulse, State.forget_queueSlices, State.forget_bump, State.forget_gateErr, State.forget_modFrame, forget_ite, ite_self, implies_true, sub, Nat.reduceAnd, beq_self_eq_true]

theorem State.forget_endOpenFrames {T : Nat} (hT : sub 0x48001a420 T = true) (s : State) (status : ℕ) :
    forget T (State.endOpenFrames s status) = forget T s :=
  widen T hT <| by simp only [State.endOpenFrames, State.forget_endFrame, forget_ite, ite_self, foldl_frame, implies_true, sub, Nat.reduceAnd, beq_self_eq_true]

theorem State.forget_refuseTrigger {T : Nat} (hT : sub 0x480000420 T = true) (s : State) (code : ℕ) (src : ℕ) :
    forget T (State.refuseTrigger s code src) = forget T s :=
  widen T hT <| by simp only [State.refuseTrigger, State.forget_trigErr, State.forget_bump, State.forget_pulse, forget_ite, ite_self, implies_true, sub, Nat.reduceAnd, beq_self_eq_true]

theorem State.forget_pinRetained {T : Nat} (hT : sub 0x480066420 T = true) (s : State) (i : ℕ) :
    forget T (State.pinRetained s i) = forget T s :=
  widen T hT <| by simp only [State.pinRetained, State.forget_pinFrame, forget_ite, ite_self, foldl_frame, implies_true, sub, Nat.reduceAnd, beq_self_eq_true]

theorem State.forget_pinUnderWay {T : Nat} (hT : sub 0x480066420 T = true) (s : State) (i : ℕ) :
    forget T (State.pinUnderWay s i) = forget T s :=
  widen T hT <| by simp only [State.pinUnderWay, State.forget_pinArriving, forget_ite, ite_self, foldl_frame, implies_true, sub, Nat.reduceAnd, beq_self_eq_true]

theorem State.forget_trigger {T : Nat} (hT : sub 0x480066420 T = true) (s : State) (src : ℕ) (tag : ℕ) (time : ℕ) (pre : ℕ) (post : ℕ) :
    forget T (State.trigger s src tag time pre post) = forget T s :=
  widen T hT <| by
    unfold State.trigger
    dsimp only
    (repeat' split) <;> simp only [State.forget_refuseTrigger, State.forget_modWin, State.forget_pulse, State.forget_pinRetained, State.forget_pinUnderWay, State.forget_bump, State.forget_trigErr, forget_ite, ite_self, foldl_frame, implies_true, sub, Nat.reduceAnd, beq_self_eq_true]

theorem State.forget_settleTriggers {T : Nat} (hT : sub 0x480066420 T = true) (s : State) :
    forget T (State.settleTriggers s) = forget T s :=
  widen T hT <| by simp only [State.settleTriggers, State.forget_trigger, State.forget_setTrig, forget_ite, ite_self, foldl_frame, implies_true, sub, Nat.reduceAnd, beq_self_eq_true]

theorem State.forget_reserveLanes {T : Nat} (hT : sub 0x20 T = true) (s : State) (ls : List ℕ) :
    forget T (State.reserveLanes s ls) = forget T s :=
  widen T hT <| by simp only [State.reserveLanes, State.forget_puts, State.forget_put, forget_ite, ite_self, foldl_frame, implies_true, sub, Nat.reduceAnd, beq_self_eq_true]

theorem State.forget_modContract {T : Nat} (hT : sub 0x2000 T = true) (s : State) (f : Contract → Contract) :
    forget T (State.modContract s f) = forget T s :=
  widen T hT <| rfl

theorem State.forget_cutPinned {T : Nat} (hT : sub 0x4000 T = true) (s : State) :
    forget T (State.cutPinned s) = forget T s :=
  widen T hT <| rfl

theorem State.forget_clearLanes {T : Nat} (hT : sub 0x8020 T = true) (s : State) (gone : List FrameSt) :
    forget T (State.clearLanes s gone) = forget T s :=
  widen T hT <| foldl_frame _ _ (fun t l => by
    split
    · split
      · exact State.forget_modLane rfl ..
      · rfl
    · split
      · exact State.forget_modLane rfl ..
      · rfl
    · rfl) ..

theorem State.forget_refuseFrames {T : Nat} (hT : sub 0x48000f420 T = true) (s : State) (p : FrameSt → Bool) :
    forget T (State.refuseFrames s p) = forget T s :=
  widen T hT <| by simp only [State.refuseFrames, State.forget_refuseFrame, State.forget_clearLanes, State.forget_setTake, forget_ite, ite_self, foldl_frame, implies_true, sub, Nat.reduceAnd, beq_self_eq_true]

theorem State.forget_placeTrailer {T : Nat} (hT : sub 0xca01e2420 T = true) (s : State) (c : Contract) (reason : ℕ) :
    forget T (State.placeTrailer s c reason) = forget T s :=
  widen T hT <| by simp only [State.placeTrailer, State.forget_appendIndex, State.forget_setTake, State.forget_appendRaw, State.forget_padStripe, forget_ite, ite_self, implies_true, sub, Nat.reduceAnd, beq_self_eq_true]

theorem State.forget_tryTrailer {T : Nat} (hT : sub 0xca01e2420 T = true) (s : State) :
    forget T (State.tryTrailer s) = forget T s :=
  widen T hT <| by
    unfold State.tryTrailer
    split <;> simp only [State.forget_placeTrailer, forget_ite, ite_self, foldl_frame, implies_true, sub, Nat.reduceAnd, beq_self_eq_true]

theorem State.forget_sealAll {T : Nat} (hT : sub 0x480004020 T = true) (s : State) :
    forget T (State.sealAll s) = forget T s :=
  widen T hT <| by simp only [State.sealAll, State.forget_sealWindow, forget_ite, ite_self, foldl_frame, implies_true, sub, Nat.reduceAnd, beq_self_eq_true]

theorem State.forget_closeTake {T : Nat} (hT : sub 0xca01ff420 T = true) (s : State) (reason : ℕ) (cause : ℕ) (frameStatus : ℕ) :
    forget T (State.closeTake s reason cause frameStatus) = forget T s :=
  widen T hT <| by simp only [State.closeTake, State.forget_puts, State.forget_setTake, State.forget_sealAll, State.forget_settleTriggers, State.forget_advance, State.forget_tryTrailer, State.forget_takeErr, State.forget_endOpenFrames, forget_ite, ite_self, implies_true, sub, Nat.reduceAnd, beq_self_eq_true]

theorem State.forget_closeExhausted {T : Nat} (hT : sub 0xca01ff420 T = true) (s : State) (cause : ℕ) :
    forget T (State.closeExhausted s cause) = forget T s :=
  widen T hT <| by
    unfold State.closeExhausted
    split <;> simp only [State.forget_refuseFrames, State.forget_closeTake, State.forget_endOpenFrames, forget_ite, ite_self, foldl_frame, implies_true, sub, Nat.reduceAnd, beq_self_eq_true]

theorem State.forget_closeSafe {T : Nat} (hT : sub 0xca01ff420 T = true) (s : State) :
    forget T (State.closeSafe s) = forget T s :=
  widen T hT <| by simp only [State.closeSafe, State.forget_refuseFrames, State.forget_closeTake, State.forget_endOpenFrames, forget_ite, ite_self, implies_true, sub, Nat.reduceAnd, beq_self_eq_true]

theorem State.forget_sealNs {T : Nat} (hT : sub 0x80200000 T = true) (s : State) (nsid : ℕ) (reason : ℕ) (len : ℕ) (incomplete : Bool) :
    forget T (State.sealNs s nsid reason len incomplete) = forget T s :=
  widen T hT <| by
    unfold State.sealNs
    dsimp only
    (repeat' split) <;> simp only [State.forget_modNs, State.forget_nsChanged, State.forget_catalogChanged, forget_ite, ite_self, foldl_frame, implies_true, sub, Nat.reduceAnd, beq_self_eq_true]

theorem State.forget_enterSafe {T : Nat} (hT : sub 0xcb01ffc20 T = true) (s : State) (bit : ℕ) :
    forget T (State.enterSafe s bit) = forget T s :=
  widen T hT <| by simp only [State.enterSafe, State.forget_endPerturb, State.forget_put, State.forget_setMode, State.forget_pulse, State.forget_closeSafe, State.forget_record, forget_ite, ite_self, implies_true, sub, Nat.reduceAnd, beq_self_eq_true]

theorem State.forget_readPlain {T : Nat} (hT : sub 0x480020420 T = true) (s : State) (key : Bytes) (nsid : ℕ) (unit : ℕ) :
    forget T (State.readPlain s key nsid unit).2 = forget T s :=
  widen T hT <| by
    unfold State.readPlain
    split
    next g u _ =>
      have h := State.forget_fetchUnit (T := 0x480020420) rfl s g u
      split
      next heq => rwa [heq] at h
      next heq => rwa [heq] at h
    · rfl
    · rfl

theorem State.forget_readUnits {T : Nat} (hT : sub 0x480020420 T = true) (key : Bytes) (nsid : ℕ) (x0 : List ℕ) (x1 : State) :
    forget T (State.readUnits key nsid x0 x1).2 = forget T x1 :=
  widen T hT <| by
    induction x0 generalizing x1 with
    | nil => rfl
    | cons u us ih =>
      have h := State.forget_readPlain (T := 0x480020420) rfl x1 key nsid u
      unfold State.readUnits
      split
      next heq => rwa [heq] at h
      next t heq =>
        rw [heq] at h
        have hi := ih t
        split
        next heq2 => rw [heq2] at hi; exact hi.trans h
        next heq2 => rw [heq2] at hi; exact hi.trans h

theorem State.forget_readTake {T : Nat} (hT : sub 0x480120420 T = true) (s : State) (n : Ns) (off : ℕ) (len : ℕ) :
    forget T (State.readTake s n off len).2 = forget T s :=
  widen T hT <| by
    have h := State.forget_mediaKey (T := 0x480120420) rfl s n.keyRec n.keySeq
    unfold State.readTake
    split
    · exact State.forget_mediaStall rfl ..
    · split
      next heq => rwa [heq] at h
      next key t heq =>
        rw [heq] at h
        dsimp only
        have hu := State.forget_readUnits (T := 0x480120420) rfl key n.nsid ((List.range (ceilDiv (off + len) 4096 - off / 4096)).map (off / 4096 + ·)) t
        split
        next heq2 => rw [heq2] at hu; exact hu.trans h
        next heq2 => rw [heq2] at hu; exact hu.trans h

theorem State.forget_startSystem {T : Nat} (hT : sub 0x1000004 T = true) (s : State) (c : Fin 72) :
    forget T (State.startSystem s c) = forget T s :=
  widen T hT <| rfl

theorem State.forget_restartEnds {T : Nat} (hT : sub 0x11000004 T = true) (s : State) :
    forget T (State.restartEnds s) = forget T s :=
  widen T hT <| by simp only [State.restartEnds, State.forget_startSystem, State.forget_setPwr, forget_ite, ite_self, foldl_frame, implies_true, sub, Nat.reduceAnd, beq_self_eq_true]

theorem State.forget_mediaErr {T : Nat} (hT : sub 0x480000420 T = true) (s : State) (code : ℕ) (gn : ℕ) :
    forget T (State.mediaErr s code gn) = forget T s :=
  widen T hT <| by simp only [State.mediaErr, State.forget_record, forget_ite, ite_self, implies_true, sub, Nat.reduceAnd, beq_self_eq_true]

theorem State.forget_chargeSpares {T : Nat} (hT : sub 0x20 T = true) (s : State) :
    forget T (State.chargeSpares s) = forget T s :=
  widen T hT <| rfl

theorem State.forget_convertSpare {T : Nat} (hT : sub 0x480060420 T = true) (s : State) (x : ℕ) :
    forget T (State.convertSpare s x) = forget T s :=
  widen T hT <| by simp only [State.convertSpare, State.forget_puts, State.forget_bump, State.forget_pulse, State.forget_journal, State.forget_record, forget_ite, ite_self, implies_true, sub, Nat.reduceAnd, beq_self_eq_true]

theorem State.forget_loseUnit {T : Nat} (hT : sub 0xe0000 T = true) (s : State) (nsid : ℕ) (logical : ℕ) :
    forget T (State.loseUnit s nsid logical) = forget T s :=
  widen T hT <| by simp only [State.loseUnit, State.forget_unmapUnit, State.forget_journal, State.forget_setArray, forget_ite, ite_self, implies_true, sub, Nat.reduceAnd, beq_self_eq_true]

theorem State.forget_loseMeta {T : Nat} (hT : sub 0x8001e0020 T = true) (s : State) (gn : ℕ) (u : ℕ) :
    forget T (State.loseMeta s gn u) = forget T s :=
  widen T hT <| by
    unfold State.loseMeta
    split <;> simp only [State.forget_setMedia, State.forget_writeKeyPage, State.forget_modGroup, State.forget_dirtyDirPage, forget_ite, ite_self, foldl_frame, implies_true, sub, Nat.reduceAnd, beq_self_eq_true]

theorem State.forget_readToMove {T : Nat} (hT : sub 0xc801e0420 T = true) (s : State) (nsid : ℕ) (logical : ℕ) (gn : ℕ) (u : ℕ) :
    forget T (State.readToMove s nsid logical gn u).2 = forget T s :=
  widen T hT <| by
    have h := State.forget_fetchUnit (T := 0xc801e0420) rfl s gn u
    unfold State.readToMove
    split
    next heq => rwa [heq] at h
    next t heq =>
      rw [heq] at h
      dsimp only
      split
      · exact h
      · split
        · exact (State.forget_loseMeta rfl ..).trans h
        · exact (State.forget_loseUnit rfl ..).trans h

theorem State.forget_countCopy {T : Nat} (hT : sub 0x40000 T = true) (s : State) :
    forget T (State.countCopy s) = forget T s :=
  widen T hT <| rfl

theorem State.forget_copyUnits {T : Nat} (hT : sub 0xc801e0420 T = true) (use : GroupUse) (gn : ℕ) (g : ℕ) (x0 : List (ℕ × ℕ × ℕ × ℕ)) (x1 : State) :
    forget T (State.copyUnits use gn g x0 x1) = forget T x1 :=
  widen T hT <| by
    induction x0 generalizing x1 with
    | nil => rfl
    | cons x rest ih =>
      obtain ⟨nsid, kind, logical, u⟩ := x
      have h := State.forget_readToMove (T := 0xc801e0420) rfl x1 nsid logical g u
      unfold State.copyUnits
      split
      next heq => rw [heq] at h; exact (ih _).trans h
      next heq =>
        rw [heq] at h
        split
        · exact (State.forget_noPlace rfl ..).trans h
        next hp => exact (ih _).trans ((State.forget_countCopy rfl _).trans ((State.forget_placeUnit rfl _ _ _ _ _ _ _ _ _ hp).trans h))

theorem State.forget_copyExtents {T : Nat} (hT : sub 0xc801e0420 T = true) (nsid : ℕ) (g : ℕ) (x0 : List (List (ℕ × ℕ))) (x1 : State) :
    forget T (State.copyExtents nsid g x0 x1) = forget T x1 :=
  widen T hT <| by
    induction x0 generalizing x1 with
    | nil => rfl
    | cons us rest ih =>
      unfold State.copyExtents
      split
      · exact State.forget_noPlace rfl ..
      next dst t hroom =>
        have hmoved : forget 0xc801e0420 t = forget 0xc801e0420 x1 := by
          split at hroom
          · cases hroom
          · exact State.forget_roomFor rfl _ _ _ _ hroom
        refine (ih _).trans ((foldl_frame _ _ (fun v u => State.forget_putIn rfl ..) _ _).trans (Eq.trans ?_ hmoved))
        refine List.foldlRecOn us (motive := fun p : List DUnit × State => forget 0xc801e0420 p.2 = forget 0xc801e0420 t) _ rfl fun p hp x _ =>
          Eq.trans ?_ hp
        have h := State.forget_readToMove (T := 0xc801e0420) rfl p.2 nsid x.1 g x.2
        split
        next heq => rw [heq] at h; exact (State.forget_countCopy rfl _).trans h
        next heq => rwa [heq] at h

theorem State.forget_copyWhere {T : Nat} (hT : sub 0xc801e0420 T = true) (s : State) (g : Group) (p : ℕ → Bool) (slcOut : Bool) :
    forget T (State.copyWhere s g p slcOut) = forget T s :=
  widen T hT <| by
    unfold State.copyWhere
    split <;> simp only [State.forget_copyUnits, State.forget_copyExtents, State.forget_padStripe, forget_ite, ite_self, foldl_frame, implies_true, sub, Nat.reduceAnd, beq_self_eq_true]

theorem State.forget_voidStripe {T : Nat} (hT : sub 0xc0000 T = true) (s : State) (gn : ℕ) (i : ℕ) :
    forget T (State.voidStripe s gn i) = forget T s :=
  widen T hT <| by
    unfold State.voidStripe
    split <;> simp only [State.forget_setArray, State.forget_modGroup, forget_ite, ite_self, foldl_frame, implies_true, sub, Nat.reduceAnd, beq_self_eq_true]

theorem State.forget_regroup {T : Nat} (hT : sub 0x20000 T = true) (s : State) (d : ℕ) (old : List DieOp) (gone : DieOp → Bool) :
    forget T (State.regroup s d old gone) = forget T s :=
  widen T hT <| by
    unfold State.regroup
    dsimp only
    (repeat' split) <;> simp only [State.forget_beginOps, State.forget_setSent, State.forget_sendOnfi, forget_ite, ite_self, foldl_frame, implies_true, sub, Nat.reduceAnd, beq_self_eq_true]

theorem State.forget_dropPrograms {T : Nat} (hT : sub 0x20000 T = true) (s : State) (gn : ℕ) (p : ℕ → Bool) :
    forget T (State.dropPrograms s gn p) = forget T s :=
  widen T hT <| by simp only [State.dropPrograms, State.forget_regroup, State.forget_setNand, forget_ite, ite_self, foldl_frame, implies_true, sub, Nat.reduceAnd, beq_self_eq_true]

theorem State.forget_moveCopy {T : Nat} (hT : sub 0x60000 T = true) (s : State) (n : ℕ) (i : ℕ) :
    forget T (State.moveCopy s n i) = forget T s :=
  widen T hT <| by
    unfold State.moveCopy
    split <;> simp only [State.forget_addCopy, forget_ite, ite_self, foldl_frame, implies_true, sub, Nat.reduceAnd, beq_self_eq_true]

theorem State.forget_requeueCopies {T : Nat} (hT : sub 0x60000 T = true) (s : State) (n : ℕ) :
    forget T (State.requeueCopies s n) = forget T s :=
  widen T hT <| by
    unfold State.requeueCopies
    split <;> simp only [State.forget_moveCopy, forget_ite, ite_self, foldl_frame, implies_true, sub, Nat.reduceAnd, beq_self_eq_true]

theorem State.forget_movePages {T : Nat} (hT : sub 0x60000 T = true) (s : State) (ds : List ℕ) :
    forget T (State.movePages s ds) = forget T s :=
  widen T hT <| by simp only [State.movePages, State.forget_setMedia, State.forget_requeueCopies, forget_ite, ite_self, foldl_frame, implies_true, sub, Nat.reduceAnd, beq_self_eq_true]

theorem State.forget_setReshape {T : Nat} (hT : sub 0x800080000 T = true) (s : State) (r : ReshapeRec) :
    forget T (State.setReshape s r) = forget T s :=
  widen T hT <| rfl

theorem State.forget_setJournal {T : Nat} (hT : sub 0x20 T = true) (s : State) (l : List ℕ) :
    forget T (State.setJournal s l) = forget T s :=
  widen T hT <| rfl

theorem State.forget_failQueue {T : Nat} (hT : sub 0x20000 T = true) (s : State) (d : ℕ) :
    forget T (State.failQueue s d).2 = forget T s :=
  widen T hT <| rfl

theorem State.forget_skipErases {T : Nat} (hT : sub 0x40000 T = true) (s : State) (ops : List DieOp) :
    forget T (State.skipErases s ops) = forget T s :=
  widen T hT <| foldl_frame _ _ (fun t o => by
    split
    · exact State.forget_modGroup rfl ..
    · rfl) _ _

theorem State.forget_resizeSlc {T : Nat} (hT : sub 0x40000 T = true) (s : State) :
    forget T (State.resizeSlc s) = forget T s :=
  widen T hT <| rfl

theorem State.forget_formatCap {T : Nat} (hT : sub 0x4 T = true) (s : State) :
    forget T (State.formatCap s).2 = forget T s :=
  widen T hT <| by
    unfold State.formatCap
    split <;> simp only [State.forget_fresh, forget_ite, ite_self, foldl_frame, implies_true, sub, Nat.reduceAnd, beq_self_eq_true]

theorem State.forget_format {T : Nat} (hT : sub 0x8000e0024 T = true) (s : State) :
    forget T (State.format s) = forget T s :=
  widen T hT <| by simp only [State.format, State.forget_puts, State.forget_setReshape, State.forget_setNand, State.forget_setJournal, State.forget_setMedia, State.forget_formatCap, State.forget_setArray, State.forget_setTally, State.forget_writeBitmapHeader, State.forget_resizeSlc, State.forget_chargeSpares, forget_ite, ite_self, implies_true, sub, Nat.reduceAnd, beq_self_eq_true]

theorem State.forget_writePointer {T : Nat} (hT : sub 0x800000000 T = true) (s : State) (num : ℕ) :
    forget T (State.writePointer s num) = forget T s :=
  widen T hT <| rfl

theorem State.forget_takeCkpt {T : Nat} (hT : sub 0xc80060020 T = true) (s : State) (c : Ckpt) :
    forget T (State.takeCkpt s c) = forget T s :=
  widen T hT <| by simp only [State.takeCkpt, State.forget_dropPages, State.forget_setMedia, State.forget_pulse, State.forget_put, State.forget_writePointer, forget_ite, ite_self, implies_true, sub, Nat.reduceAnd, beq_self_eq_true]

theorem State.forget_putPageNow {T : Nat} (hT : sub 0x60000 T = true) (s : State) (kind : ℕ) (seq : ℕ) (data : Bytes) :
    forget T (State.putPageNow s kind seq data).2 = forget T s :=
  widen T hT <| by
    unfold State.putPageNow
    dsimp only
    refine (foldl_frame _ _ (fun t d => ?_) _ _).trans (State.forget_setMedia rfl ..)
    split
    · rfl
    next b v hv =>
      refine (State.forget_pageProgrammed rfl ..).trans ((State.forget_sendOnfi rfl ..).trans ((State.forget_modPage rfl ..).trans ?_))
      exact State.forget_takeUnit rfl _ _ _ hv

theorem State.forget_installCkpt {T : Nat} (hT : sub 0xc80060020 T = true) (s : State) :
    forget T (State.installCkpt s) = forget T s :=
  widen T hT <| by simp only [State.installCkpt, State.forget_takeCkpt, State.forget_putPageNow, forget_ite, ite_self, implies_true, sub, Nat.reduceAnd, beq_self_eq_true]

theorem State.forget_showPool {T : Nat} (hT : sub 0x480000020 T = true) (s : State) :
    forget T (State.showPool s) = forget T s :=
  widen T hT <| by simp only [State.showPool, State.forget_level, forget_ite, ite_self, implies_true, sub, Nat.reduceAnd, beq_self_eq_true]

theorem State.forget_resyncEnd {T : Nat} (hT : sub 0xc0000 T = true) (s : State) (gn : ℕ) (i : ℕ) (f : Stripe → Stripe) :
    forget T (State.resyncEnd s gn i f) = forget T s :=
  widen T hT <| rfl

theorem State.forget_resyncAt {T : Nat} (hT : sub 0xc801e0420 T = true) (s : State) (gn : ℕ) (i : ℕ) :
    forget T (State.resyncAt s gn i) = forget T s :=
  widen T hT <| by
    unfold State.resyncAt
    split <;> simp only [State.forget_copyWhere, State.forget_resyncEnd, forget_ite, ite_self, foldl_frame, implies_true, sub, Nat.reduceAnd, beq_self_eq_true]

theorem State.forget_resyncAhead {T : Nat} (hT : sub 0xc801e0420 T = true) (s : State) (gn : ℕ) (u : ℕ) :
    forget T (State.resyncAhead s gn u) = forget T s :=
  widen T hT <| by
    unfold State.resyncAhead
    dsimp only
    (repeat' split) <;> simp only [State.forget_resyncAt, forget_ite, ite_self, foldl_frame, implies_true, sub, Nat.reduceAnd, beq_self_eq_true]

theorem State.forget_modSlice {T : Nat} (hT : sub 0x2000 T = true) (s : State) (uid : ℕ) (idx : ℕ) (f : TakeSlice → TakeSlice) :
    forget T (State.modSlice s uid idx f) = forget T s :=
  widen T hT <| rfl

theorem State.forget_startReemit {T : Nat} (hT : sub 0xa020 T = true) (s : State) (uid : ℕ) (idx : ℕ) (l : ℕ) :
    forget T (State.startReemit s uid idx l) = forget T s :=
  widen T hT <| by
    unfold State.startReemit
    split <;> simp only [State.forget_modSlice, State.forget_modLane, forget_ite, ite_self, foldl_frame, implies_true, sub, Nat.reduceAnd, beq_self_eq_true]

theorem State.forget_emptyLane {T : Nat} (hT : sub 0xa020 T = true) (s : State) (l : ℕ) :
    forget T (State.emptyLane s l) = forget T s :=
  widen T hT <| (foldl_frame _ _ (fun t w => by
    split
    · exact State.forget_modSlice rfl ..
    · exact (State.forget_startReemit rfl ..).trans (State.forget_modSlice rfl ..)
    · rfl) ..).trans (State.forget_modLane rfl ..)

theorem forget_writePages {T : Nat} (hT : sub 0x400000 T = true) (func : ℕ) (ps : List (ℕ × ℕ)) (bs : Bytes) (s : State) :
    forget T (writePages func ps bs s) = forget T s :=
  widen T hT <| by
    unfold writePages
    generalize ps.flatMap (fun p => piecesOf p.1 p.2) = l
    suffices h : ∀ r : State × Bytes, forget 0x400000 (l.foldl (fun (r : State × Bytes) p =>
        (match r.1.xwrite func p.1 (r.2.take p.2) with | .ok u => u | .error _ => r.1, r.2.drop p.2)) r).1 = forget 0x400000 r.1 from h (s, bs)
    induction l with
    | nil => exact fun _ => rfl
    | cons p l ih =>
      intro r
      rw [List.foldl_cons, ih]
      unfold State.xwrite
      cases xfault r.1.xlate func .w (piecesOf p.1 (r.2.take p.2).length) with
      | none => exact forget_set_mem rfl ..
      | some a => rfl

theorem forget_zeroSpans {T : Nat} (hT : sub 0x400000 T = true) (func : ℕ) (ps : List (ℕ × ℕ)) (s : State) :
    forget T (zeroSpans func ps s) = forget T s :=
  widen T hT <| by simp only [zeroSpans, forget_writePages, forget_ite, ite_self, implies_true, sub, Nat.reduceAnd, beq_self_eq_true]

theorem State.forget_shearsRecord {T : Nat} (hT : sub 0x4 T = true) (s : State) (d : Bytes) (status : ℕ) (reemits : ℕ) (out : ℕ) (used : ℕ) (crc : ℕ) (chains : ℕ) :
    forget T (State.shearsRecord s d status reemits out used crc chains).2 = forget T s :=
  widen T hT <| by
    unfold State.shearsRecord
    (repeat' split) <;> simp only [State.forget_freshBytes, forget_ite, ite_self, foldl_frame, implies_true, sub, Nat.reduceAnd, beq_self_eq_true]

theorem State.forget_shearsFail {T : Nat} (hT : sub 0x400004 T = true) (s : State) (j : Job) (status : ℕ) (reemits : ℕ) (spans : List (ℕ × ℕ)) :
    forget T (State.shearsFail s j status reemits spans).2 = forget T s :=
  widen T hT <| by simp only [State.shearsFail, forget_zeroSpans, State.forget_shearsRecord, forget_ite, ite_self, implies_true, sub, Nat.reduceAnd, beq_self_eq_true]

theorem State.forget_freeSpans {T : Nat} (hT : sub 0x4 T = true) (s : State) (spans : List (ℕ × ℕ)) :
    forget T (State.freeSpans s spans).2 = forget T s :=
  widen T hT <| rfl

theorem State.forget_shearsPlace {T : Nat} (hT : sub 0x480400424 T = true) (s : State) (j : Job) (reemits : ℕ) (used : ℕ) (crc : ℕ) (blocks : ℕ) (out : Bytes) :
    forget T (State.shearsPlace s j reemits used crc blocks out).2 = forget T s :=
  widen T hT <| by
    have hspans (func : Nat) (ps : List (Nat × Nat)) (bs : Bytes) (acc : List (Nat × Nat)) (s : State) :
        (∀ t, writeSpans func ps bs acc s = .ok t → forget 0x480400424 t = forget 0x480400424 s)
        ∧ ∀ e, writeSpans func ps bs acc s = .error e → forget 0x480400424 e.2.2 = forget 0x480400424 s := by
      induction ps generalizing bs acc s with
      | nil => exact ⟨fun t h => by rw [← Except.ok.inj h], fun e h => nomatch h⟩
      | cons p ps ih =>
        obtain ⟨a, n⟩ := p
        unfold writeSpans
        split
        · exact ⟨fun t h => by rw [← Except.ok.inj h], fun e h => nomatch h⟩
        · simp only []
          cases hw : s.xwrite func a (bs.take (min n bs.length)) with
          | ok t =>
            have ht : forget 0x480400424 t = forget 0x480400424 s := by
              unfold State.xwrite at hw
              split at hw
              · cases hw
              · rw [← Except.ok.inj hw]
                exact forget_set_mem rfl ..
            simp only []
            obtain ⟨h1, h2⟩ := ih (bs.drop (min n bs.length)) (acc ++ [(a, min n bs.length)]) t
            exact ⟨fun u h => (h1 u h).trans ht, fun e h => (h2 e h).trans ht⟩
          | error v =>
            simp only []
            exact ⟨fun t h => (nomatch h), fun e h => by rw [← Except.error.inj h]⟩
    unfold State.shearsPlace
    simp only []
    split
    · rw [State.forget_shearsFail rfl, State.forget_xlateFault rfl]
    · exact State.forget_shearsFail rfl ..
    · exact State.forget_shearsFail rfl ..
    · split
      next h => rw [State.forget_shearsFail rfl, State.forget_xlateFault rfl, (hspans ..).2 _ h]
      next h => exact (State.forget_shearsRecord rfl ..).trans ((hspans ..).1 _ h)

theorem State.forget_shearsJob {T : Nat} (hT : sub 0x480400424 T = true) (s : State) (j : Job) (bad : List ℕ) :
    forget T (State.shearsJob s j bad).2 = forget T s :=
  widen T hT <| by
    unfold State.shearsJob
    dsimp only
    (repeat' split) <;> simp only [State.forget_shearsPlace, State.forget_shearsFail, State.forget_shearsRecord, State.forget_xlateFault, State.forget_freeSpans, forget_ite, ite_self, foldl_frame, implies_true, sub, Nat.reduceAnd, beq_self_eq_true]

theorem State.forget_needPages {T : Nat} (hT : sub 0x60000 T = true) (s : State) (k : CmdKey) (nsid : ℕ) (lba : ℕ) (count : ℕ) :
    forget T (State.needPages s k nsid lba count).2 = forget T s :=
  widen T hT <| by
    unfold State.needPages
    split
    · rfl
    · exact List.foldlRecOn _ (motive := fun r : Nat × State => forget 0x60000 r.2 = forget 0x60000 s) _ rfl fun r hr p _ =>
        (State.forget_needPage rfl ..).trans hr

theorem State.forget_queueReads {T : Nat} (hT : sub 0x60000 T = true) (s : State) (k : CmdKey) (nsid : ℕ) (lba : ℕ) (count : ℕ) :
    forget T (State.queueReads s k nsid lba count).2 = forget T s :=
  widen T hT <| by simp only [State.queueReads, State.forget_needPages, State.forget_queueOp, forget_ite, ite_self, foldl_frame, implies_true, sub, Nat.reduceAnd, beq_self_eq_true]

theorem State.forget_readLba {T : Nat} (hT : sub 0x480020424 T = true) (s : State) (key : Bytes) (nsid : ℕ) (lba : ℕ) :
    forget T (State.readLba s key nsid lba).2 = forget T s :=
  widen T hT <| by
    unfold State.readLba
    split
    · rfl
    · split
      · rfl
      next g u _ =>
        have h := State.forget_readUnit (T := 0x480020424) rfl s g u
        split <;> next heq => rwa [heq] at h
      · split
        next g u _ =>
          have hf : forget 0x480020424 s.fresh.2 = forget 0x480020424 s := State.forget_fresh rfl s
          have h := State.forget_fetchUnit (T := 0x480020424) rfl s.fresh.2 g u
          dsimp only
          split
          · exact hf
          · split <;> next heq => rw [heq] at h; exact h.trans hf
        · rfl

theorem State.forget_readLbas {T : Nat} (hT : sub 0x480020424 T = true) (key : Bytes) (nsid : ℕ) (x0 : List ℕ) (x1 : State) :
    forget T (State.readLbas key nsid x0 x1).2 = forget T x1 :=
  widen T hT <| by
    induction x0 generalizing x1 with
    | nil => rfl
    | cons l ls ih =>
      have h := State.forget_readLba (T := 0x480020424) rfl x1 key nsid l
      unfold State.readLbas
      split
      next heq => rwa [heq] at h
      next t heq =>
        rw [heq] at h
        have h2 := ih t
        split <;> next heq2 => rw [heq2] at h2; exact h2.trans h

theorem State.forget_aheadOf {T : Nat} (hT : sub 0xc801e0420 T = true) (s : State) (nsid : ℕ) (lba : ℕ) (count : ℕ) :
    forget T (State.aheadOf s nsid lba count) = forget T s :=
  widen T hT <| by
    unfold State.aheadOf
    split
    · rfl
    · refine foldl_frame _ _ (fun t i => ?_) _ _
      split
      · exact State.forget_resyncAhead rfl ..
      · rfl

theorem State.forget_readRange {T : Nat} (hT : sub 0x480120424 T = true) (s : State) (n : Ns) (lba : ℕ) (count : ℕ) :
    forget T (State.readRange s n lba count).2 = forget T s :=
  widen T hT <| by
    have h := State.forget_mediaKey (T := 0x480120424) rfl s n.keyRec n.keySeq
    unfold State.readRange
    split
    next heq => rwa [heq] at h
    next heq =>
      rw [heq] at h
      exact (State.forget_readLbas rfl ..).trans ((State.forget_mediaBytes rfl ..).trans h)

theorem State.forget_cipherErr {T : Nat} (hT : sub 0x480000420 T = true) (s : State) (st : ℕ) (pipe : ℕ) (func : ℕ) :
    forget T (State.cipherErr s st pipe func) = forget T s :=
  widen T hT <| by simp only [State.cipherErr, State.forget_record, State.forget_bump, State.forget_pulse, forget_ite, ite_self, implies_true, sub, Nat.reduceAnd, beq_self_eq_true]

theorem State.forget_refuseAccess {T : Nat} (hT : sub 0x480000620 T = true) (s : State) (o : Origin) (page : ℕ) (off : ℕ) (cond : ℕ) :
    forget T (State.refuseAccess s o page off cond) = forget T s :=
  widen T hT <| by simp only [State.refuseAccess, State.forget_record, forget_set_refusal, forget_ite, ite_self, implies_true, sub, Nat.reduceAnd, beq_self_eq_true]

theorem State.forget_refuseBlock {T : Nat} (hT : sub 0x480000620 T = true) (s : State) (o : Origin) (page : ℕ) (code : ℕ) (info : ℕ) :
    forget T (State.refuseBlock s o page code info) = forget T s :=
  widen T hT <| by simp only [State.refuseBlock, State.forget_record, forget_set_refusal, forget_ite, ite_self, implies_true, sub, Nat.reduceAnd, beq_self_eq_true]

theorem State.forget_auditWrite {T : Nat} (hT : sub 0x800000800 T = true) (s : State) (o : Origin) (page : ℕ) (off : ℕ) (v : ℕ) (old : ℕ) (result : ℕ) :
    forget T (State.auditWrite s o page off v old result) = forget T s :=
  widen T hT <| by simp only [State.auditWrite, State.forget_audit, State.forget_touch, forget_ite, ite_self, implies_true, sub, Nat.reduceAnd, beq_self_eq_true]

theorem State.forget_auditLocked {T : Nat} (hT : sub 0x800000800 T = true) (s : State) (o : Origin) (page : ℕ) (off : ℕ) (v : ℕ) (old : ℕ) :
    forget T (State.auditLocked s o page off v old) = forget T s :=
  widen T hT <| by simp only [State.auditLocked, State.forget_auditCoalesced, forget_ite, ite_self, implies_true, sub, Nat.reduceAnd, beq_self_eq_true]

theorem State.forget_noPage {T : Nat} (hT : sub 0x480000620 T = true) (s : State) (o : Origin) (off : ℕ) :
    forget T (State.noPage s o off) = forget T s :=
  widen T hT <| by
    unfold State.noPage
    split <;> simp only [State.forget_refuseAccess, State.forget_pulse, forget_ite, ite_self, foldl_frame, implies_true, sub, Nat.reduceAnd, beq_self_eq_true]

theorem State.forget_noteVerdict {T : Nat} (hT : sub 0x480000420 T = true) (s : State) (a : ℕ) (b : ℕ) (info : ℕ) (func : ℕ) :
    forget T (State.noteVerdict s a b info func) = forget T s :=
  widen T hT <| by simp only [State.noteVerdict, State.forget_record, State.forget_bump, State.forget_pulse, forget_ite, ite_self, implies_true, sub, Nat.reduceAnd, beq_self_eq_true]

theorem State.forget_setTenant {T : Nat} (hT : sub 0x8000000 T = true) (s : State) (f : TenantSt → TenantSt) :
    forget T (State.setTenant s f) = forget T s :=
  widen T hT <| rfl

theorem State.forget_addAdmin {T : Nat} (hT : sub 0x80000020 T = true) (s : State) (func : ℕ) :
    forget T (State.addAdmin s func) = forget T s :=
  widen T hT <| rfl

theorem State.forget_ownBanks {T : Nat} (hT : sub 0x20 T = true) (s : State) (mask : ℕ) (owner : ℕ) :
    forget T (State.ownBanks s mask owner) = forget T s :=
  widen T hT <| by simp only [State.ownBanks, State.forget_put, forget_ite, ite_self, foldl_frame, implies_true, sub, Nat.reduceAnd, beq_self_eq_true]

theorem State.forget_attachAll {T : Nat} (hT : sub 0x200000 T = true) (s : State) (p : Prof) :
    forget T (State.attachAll s p) = forget T s :=
  widen T hT <| by simp only [State.attachAll, State.forget_modNs, forget_ite, ite_self, foldl_frame, implies_true, sub, Nat.reduceAnd, beq_self_eq_true]

theorem State.forget_createFn {T : Nat} (hT : sub 0x489200020 T = true) (s : State) (func : ℕ) :
    forget T (State.createFn s func) = forget T s :=
  widen T hT <| by simp only [State.createFn, State.forget_unput, State.forget_setTenant, State.forget_turnCore, State.forget_addAdmin, State.forget_ownBanks, State.forget_attachAll, forget_set_ns, forget_ite, ite_self, foldl_frame, implies_true, sub, Nat.reduceAnd, beq_self_eq_true]

theorem State.forget_auditVendor {T : Nat} (hT : sub 0x800000800 T = true) (s : State) (o : Origin) (op : ℕ) (cdws : List ℕ) (refused : Bool) :
    forget T (State.auditVendor s o op cdws refused) = forget T s :=
  widen T hT <| by simp only [State.auditVendor, State.forget_audit, State.forget_touch, forget_ite, ite_self, implies_true, sub, Nat.reduceAnd, beq_self_eq_true]

theorem State.forget_verifyImage {T : Nat} (hT : sub 0x480000420 T = true) (s : State) (img : Bytes) (va : BitVec 8) (vb : BitVec 8) :
    forget T (State.verifyImage s img va vb).2 = forget T s :=
  widen T hT <| by
    unfold State.verifyImage
    (repeat' split) <;> simp only [State.forget_noteVerdict, forget_ite, ite_self, foldl_frame, implies_true, sub, Nat.reduceAnd, beq_self_eq_true]

theorem State.forget_setFw {T : Nat} (hT : sub 0x10000000 T = true) (s : State) (f : FwSt → FwSt) :
    forget T (State.setFw s f) = forget T s :=
  widen T hT <| rfl

theorem State.forget_startHalf {T : Nat} (hT : sub 0x1000004 T = true) (s : State) (run : ℕ) :
    forget T (State.startHalf s run) = forget T s :=
  widen T hT <| by simp only [State.startHalf, State.forget_startSystem, forget_ite, ite_self, foldl_frame, implies_true, sub, Nat.reduceAnd, beq_self_eq_true]

theorem State.forget_keepCluster {T : Nat} (hT : sub 0x2000000 T = true) (s : State) (n : ℕ) (img : Option Bytes) :
    forget T (State.keepCluster s n img) = forget T s :=
  widen T hT <| by
    unfold State.keepCluster
    split <;> simp only [forget_set_clusters, forget_ite, ite_self, foldl_frame, implies_true, sub, Nat.reduceAnd, beq_self_eq_true]

theorem State.forget_clearCluster {T : Nat} (hT : sub 0x2000000 T = true) (s : State) (n : ℕ) :
    forget T (State.clearCluster s n) = forget T s :=
  widen T hT <| by
    unfold State.clearCluster
    split <;> simp only [forget_set_clusters, forget_ite, ite_self, foldl_frame, implies_true, sub, Nat.reduceAnd, beq_self_eq_true]

theorem State.forget_freeCluster0 {T : Nat} (hT : sub 0x2000004 T = true) (s : State) :
    forget T (State.freeCluster0 s) = forget T s :=
  widen T hT <| rfl

theorem State.forget_newMonitor {T : Nat} (hT : sub 0x10000004 T = true) (s : State) :
    forget T (State.newMonitor s) = forget T s :=
  widen T hT <| rfl

theorem State.forget_fetchResumes {T : Nat} (hT : sub 0x10000000 T = true) (s : State) :
    forget T (State.fetchResumes s) = forget T s :=
  widen T hT <| rfl

theorem State.forget_refuseLoad {T : Nat} (hT : sub 0x480000420 T = true) (s : State) (c : Cmd) (n : ℕ) (code : ℕ) (info : ℕ) (status : ℕ) :
    forget T (State.refuseLoad s c n code info status) = forget T s :=
  widen T hT <| by simp only [State.refuseLoad, State.forget_record, State.forget_completeAdmin, State.forget_pulse, forget_ite, ite_self, implies_true, sub, Nat.reduceAnd, beq_self_eq_true]

theorem State.forget_trainLane {T : Nat} (hT : sub 0x24 T = true) (s : State) (c : ℕ) (i : ℕ) :
    forget T (State.trainLane s c i) = forget T s :=
  widen T hT <| rfl

theorem State.forget_trainAgain {T : Nat} (hT : sub 0x480000024 T = true) (s : State) (c : ℕ) :
    forget T (State.trainAgain s c) = forget T s :=
  widen T hT <| by simp only [State.trainAgain, State.forget_trainLane, State.forget_put, State.forget_pulse, forget_ite, ite_self, foldl_frame, implies_true, sub, Nat.reduceAnd, beq_self_eq_true]

theorem State.forget_frameRecords {T : Nat} (hT : sub 0x480120420 T = true) (s : State) (n : Ns) (f : ℕ × ℕ × ℕ) :
    forget T (State.frameRecords s n f).2 = forget T s :=
  widen T hT <| by
    have h := State.forget_readTake (T := 0x480120420) rfl s n f.1 (f.2.2 - f.1)
    unfold State.frameRecords
    split
    next heq => rwa [heq] at h
    next heq => rwa [heq] at h

theorem State.forget_zeroRun {T : Nat} (hT : sub 0xe0000 T = true) (s : State) (nsid : ℕ) (r : ℕ × ℕ) :
    forget T (State.zeroRun s nsid r) = forget T s :=
  widen T hT <| by simp only [State.zeroRun, State.forget_setMedia, State.forget_setArray, State.forget_dirtyPage, State.forget_journal, State.forget_setImage, State.forget_cancelWhere, forget_ite, ite_self, foldl_frame, implies_true, sub, Nat.reduceAnd, beq_self_eq_true]

theorem State.forget_zeroRange {T : Nat} (hT : sub 0xe0000 T = true) (s : State) (nsid : ℕ) (lba : ℕ) (count : ℕ) :
    forget T (State.zeroRange s nsid lba count) = forget T s :=
  widen T hT <| by simp only [State.zeroRange, State.forget_zeroRun, forget_ite, ite_self, foldl_frame, implies_true, sub, Nat.reduceAnd, beq_self_eq_true]

theorem State.forget_deallocate {T : Nat} (hT : sub 0xe0000 T = true) (s : State) (nsid : ℕ) (r : ℕ × ℕ) :
    forget T (State.deallocate s nsid r) = forget T s :=
  widen T hT <| by simp only [State.deallocate, State.forget_setMedia, State.forget_setArray, State.forget_unmapUnit, State.forget_cancelWhere, State.forget_journalRuns, forget_ite, ite_self, foldl_frame, implies_true, sub, Nat.reduceAnd, beq_self_eq_true]

theorem State.forget_containerOf {T : Nat} (hT : sub 0xc801e0420 T = true) (s : State) (n : Ns) :
    forget T (State.containerOf s n).2.2 = forget T s :=
  widen T hT <| by
    have h := State.forget_mediaKey (T := 0xc801e0420) rfl (s.aheadOf n.nsid 0 n.nuse) n.keyRec n.keySeq
    have ha := State.forget_aheadOf (T := 0xc801e0420) rfl s n.nsid 0 n.nuse
    unfold State.containerOf
    split
    next heq => rw [heq] at h; exact h.trans ha
    next key t heq =>
      rw [heq] at h
      refine Eq.trans (List.foldlRecOn _ (motive := fun p : Bytes × List Nat × State => forget 0xc801e0420 p.2.2 = forget 0xc801e0420 t) _ rfl
        fun p hp u _ => Eq.trans ?_ hp) (h.trans ha)
      have hr := State.forget_readPlain (T := 0xc801e0420) rfl p.2.2 key n.nsid u
      split <;> next heq => rwa [heq] at hr

theorem State.forget_setLink {T : Nat} (hT : sub 0x20 T = true) (s : State) (p : Port) (speed : ℕ) (width : ℕ) (flit : Bool) (sris : Bool) (l12 : Bool) :
    forget T (State.setLink s p speed width flit sris l12) = forget T s :=
  widen T hT <| by simp only [State.setLink, State.forget_puts, forget_ite, ite_self, implies_true, sub, Nat.reduceAnd, beq_self_eq_true]

theorem State.forget_nandErr {T : Nat} (hT : sub 0x480000420 T = true) (s : State) (c : ℕ) (code : ℕ) (die : ℕ) (step : ℕ) (row : ℕ) :
    forget T (State.nandErr s c code die step row) = forget T s :=
  widen T hT <| by simp only [State.nandErr, State.forget_record, forget_ite, ite_self, implies_true, sub, Nat.reduceAnd, beq_self_eq_true]

theorem State.forget_showCode {T : Nat} (hT : sub 0x20 T = true) (s : State) :
    forget T (State.showCode s) = forget T s :=
  widen T hT <| by
    unfold State.showCode
    split <;> simp only [State.forget_puts, forget_ite, ite_self, foldl_frame, implies_true, sub, Nat.reduceAnd, beq_self_eq_true]

theorem State.forget_programFail {T : Nat} (hT : sub 0x480000420 T = true) (s : State) (c : ℕ) (d : ℕ) (o : DieOp) :
    forget T (State.programFail s c d o) = forget T s :=
  widen T hT <| by simp only [State.programFail, State.forget_nandErr, State.forget_bump, State.forget_pulse, forget_ite, ite_self, implies_true, sub, Nat.reduceAnd, beq_self_eq_true]

theorem State.forget_conditions {T : Nat} (hT : sub 0x100004 T = true) (s : State) (c : ℕ) :
    forget T (State.conditions s c) = forget T s :=
  widen T hT <| by simp only [State.conditions, State.forget_setKeys, State.forget_fresh, forget_ite, ite_self, implies_true, sub, Nat.reduceAnd, beq_self_eq_true]

theorem State.forget_loadSlots {T : Nat} (hT : sub 0x20 T = true) (s : State) :
    forget T (State.loadSlots s) = forget T s :=
  widen T hT <| by simp only [State.loadSlots, State.forget_puts, State.forget_put, forget_ite, ite_self, foldl_frame, implies_true, sub, Nat.reduceAnd, beq_self_eq_true]

theorem State.forget_showOtp {T : Nat} (hT : sub 0x20 T = true) (s : State) :
    forget T (State.showOtp s) = forget T s :=
  widen T hT <| by simp only [State.showOtp, State.forget_puts, forget_ite, ite_self, implies_true, sub, Nat.reduceAnd, beq_self_eq_true]

theorem State.forget_mirrorOtp {T : Nat} (hT : sub 0x20 T = true) (s : State) :
    forget T (State.mirrorOtp s) = forget T s :=
  widen T hT <| by simp only [State.mirrorOtp, State.forget_puts, State.forget_put, State.forget_showOtp, forget_ite, ite_self, foldl_frame, implies_true, sub, Nat.reduceAnd, beq_self_eq_true]

theorem State.forget_takeOtp {T : Nat} (hT : sub 0x820 T = true) (s : State) :
    forget T (State.takeOtp s) = forget T s :=
  widen T hT <| by simp only [State.takeOtp, State.forget_setTrust, State.forget_loadSlots, forget_ite, ite_self, implies_true, sub, Nat.reduceAnd, beq_self_eq_true]

theorem State.forget_badGens {T : Nat} (hT : sub 0x480000420 T = true) (s : State) :
    forget T (State.badGens s) = forget T s :=
  widen T hT <| by simp only [State.badGens, State.forget_record, State.forget_pulse, forget_ite, ite_self, foldl_frame, implies_true, sub, Nat.reduceAnd, beq_self_eq_true]

theorem State.forget_setOutcome {T : Nat} (hT : sub 0x20 T = true) (s : State) (target : ℕ) (outcome : ℕ) (r : Refuser) :
    forget T (State.setOutcome s target outcome r) = forget T s :=
  widen T hT <| by simp only [State.setOutcome, State.forget_puts, forget_ite, ite_self, implies_true, sub, Nat.reduceAnd, beq_self_eq_true]

theorem State.forget_charge {T : Nat} (hT : sub 0xc90000420 T = true) (s : State) (target : ℕ) (outcome : ℕ) (phase : ℕ) (r : Refuser) :
    forget T (State.charge s target outcome phase r) = forget T s :=
  widen T hT <| by simp only [State.charge, State.forget_pulse, State.forget_setOutcome, State.forget_bump, State.forget_setPwr, State.forget_record, State.forget_wearTally, forget_ite, ite_self, implies_true, sub, Nat.reduceAnd, beq_self_eq_true]

theorem State.forget_cutAtLoss {T : Nat} (hT : sub 0x80302000 T = true) (s : State) :
    forget T (State.cutAtLoss s) = forget T s :=
  widen T hT <| by
    unfold State.cutAtLoss
    split <;> simp only [State.forget_setKeys, State.forget_sealNs, forget_set_take, forget_ite, ite_self, foldl_frame, implies_true, sub, Nat.reduceAnd, beq_self_eq_true]

theorem State.forget_cutWindows {T : Nat} (hT : sub 0x480004020 T = true) (s : State) :
    forget T (State.cutWindows s) = forget T s :=
  widen T hT <| by simp only [State.cutWindows, State.forget_cutPinned, State.forget_setTrig, State.forget_sealWindow, forget_ite, ite_self, foldl_frame, implies_true, sub, Nat.reduceAnd, beq_self_eq_true]

theorem State.forget_rebaseRtc {T : Nat} (hT : sub 0x18 T = true) (s : State) :
    forget T (State.rebaseRtc s) = forget T s :=
  widen T hT <| rfl

theorem State.forget_channelsOff {T : Nat} (hT : sub 0x20 T = true) (s : State) :
    forget T (State.channelsOff s) = forget T s :=
  widen T hT <| by simp only [State.channelsOff, State.forget_put, forget_ite, ite_self, foldl_frame, implies_true, sub, Nat.reduceAnd, beq_self_eq_true]

theorem State.forget_endTrust {T : Nat} (hT : sub 0xc80001820 T = true) (s : State) :
    forget T (State.endTrust s) = forget T s :=
  widen T hT <| by simp only [State.endTrust, State.forget_endPerturb, State.forget_endRole, forget_ite, ite_self, foldl_frame, implies_true, sub, Nat.reduceAnd, beq_self_eq_true]

theorem State.forget_portFnsBack {T : Nat} (hT : sub 0x489200020 T = true) (s : State) :
    forget T (State.portFnsBack s) = forget T s :=
  widen T hT <| by simp only [State.portFnsBack, State.forget_createFn, forget_ite, ite_self, implies_true, sub, Nat.reduceAnd, beq_self_eq_true]

theorem State.forget_layoutBack {T : Nat} (hT : sub 0x20 T = true) (s : State) :
    forget T (State.layoutBack s) = forget T s :=
  widen T hT <| by simp only [State.layoutBack, State.forget_put, forget_ite, ite_self, implies_true, sub, Nat.reduceAnd, beq_self_eq_true]

theorem State.forget_setDtime {T : Nat} (hT : sub 0x1a T = true) (s : State) :
    forget T (State.setDtime s) = forget T s :=
  widen T hT <| by
    have hset (a b c : Nat) : forget 0x1a { s with time := a, rtcBase := b, rtcAt := c } = forget 0x1a s := rfl
    exact hset ..

theorem State.forget_startBoot {T : Nat} (hT : sub 0x1000083a T = true) (s : State) (cold : Bool) (cause : ℕ) :
    forget T (State.startBoot s cold cause) = forget T s :=
  widen T hT <| by simp only [State.startBoot, State.forget_puts, State.forget_setDtime, State.forget_takeOtp, State.forget_setPwr, State.forget_layoutBack, State.forget_mirrorOtp, forget_ite, ite_self, implies_true, sub, Nat.reduceAnd, beq_self_eq_true]

theorem State.forget_refuseTake {T : Nat} (hT : sub 0x480001420 T = true) (s : State) (p : TakeOpenPkt) (reason : ℕ) :
    forget T (State.refuseTake s p reason) = forget T s :=
  widen T hT <| by simp only [State.refuseTake, State.forget_record, State.forget_send, State.forget_pulse, forget_ite, ite_self, implies_true, sub, Nat.reduceAnd, beq_self_eq_true]

theorem State.forget_leaveSafe {T : Nat} (hT : sub 0x490000020 T = true) (s : State) :
    forget T (State.leaveSafe s) = forget T s :=
  widen T hT <| by simp only [State.leaveSafe, State.forget_setOutcome, State.forget_puts, State.forget_put, State.forget_setMode, State.forget_pulse, State.forget_follow, forget_ite, ite_self, implies_true, sub, Nat.reduceAnd, beq_self_eq_true]

theorem State.forget_cutMaps {T : Nat} (hT : sub 0x40000 T = true) (s : State) :
    forget T (State.cutMaps s) = forget T s :=
  widen T hT <| by simp only [State.cutMaps, State.forget_setImage, forget_ite, ite_self, foldl_frame, implies_true, sub, Nat.reduceAnd, beq_self_eq_true]

theorem State.forget_indexedFrames {T : Nat} (hT : sub 0x480120420 T = true) (s : State) (n : Ns) (off : ℕ) (entries : ℕ) :
    forget T (State.indexedFrames s n off entries).2 = forget T s :=
  widen T hT <| by
    have h := State.forget_readTake (T := 0x480120420) rfl s n (off + 64) (32 * entries)
    unfold State.indexedFrames
    split
    next heq => rwa [heq] at h
    next es t heq =>
      rw [heq] at h
      refine Eq.trans ?_ h
      refine List.foldlRecOn (motive := fun r : List (ℕ × List ℕ) × State => forget 0x480120420 r.2 = forget 0x480120420 t) _ _ rfl fun r hr i _ => ?_
      have hi := State.forget_readTake (T := 0x480120420) rfl r.2 n (leNat (sliceBytes es (32 * i + 16) 8)) 64
      dsimp only
      split
      next heq2 => rw [heq2] at hi; exact hi.trans hr
      next heq2 =>
        rw [heq2] at hi
        exact (State.forget_frameRecords rfl ..).trans (hi.trans hr)

theorem State.forget_enterChain {T : Nat} (hT : sub 0x4a0120420 T = true) (n : Ns) (takeId : ℕ) (x0 : ℕ) (x1 : ℕ) (x2 : State) :
    forget T (State.enterChain n takeId x0 x1 x2) = forget T x2 :=
  widen T hT <| by
    induction x0 generalizing x1 x2 with
    | zero => rfl
    | succ f ih =>
      have h := State.forget_readTake (T := 0x4a0120420) rfl x2 n x1 64
      unfold State.enterChain
      split
      · rfl
      · split
        next heq => rwa [heq] at h
        next heq =>
          rw [heq] at h
          split
          · exact h
          · exact (State.forget_enterSpan rfl ..).trans ((State.forget_indexedFrames rfl ..).trans ((ih ..).trans h))

theorem State.forget_bootSpans {T : Nat} (hT : sub 0x4a0120420 T = true) (s : State) :
    forget T (State.bootSpans s) = forget T s :=
  widen T hT <| by
    unfold State.bootSpans
    split
    · rfl
    · refine foldl_frame _ _ (fun t n => ?_) _ _
      split
      · rfl
      · split
        · rfl
        · have h := State.forget_readTake (T := 0x4a0120420) rfl t n (4096 * n.nuse - 4096) 4096
          split
          next heq => rwa [heq] at h
          next heq =>
            rw [heq] at h
            split
            · exact (State.forget_enterChain rfl ..).trans h
            · exact h

theorem State.forget_setDrove {T : Nat} (hT : sub 0x200000000 T = true) (s : State) (f : DroveSt → DroveSt) :
    forget T (State.setDrove s f) = forget T s :=
  widen T hT <| rfl

theorem State.forget_modLink {T : Nat} (hT : sub 0x200000000 T = true) (s : State) (p : Port) (f : DroveLink → DroveLink) :
    forget T (State.modLink s p f) = forget T s :=
  widen T hT <| rfl

theorem State.forget_droveErr {T : Nat} (hT : sub 0x480000420 T = true) (s : State) (code : ℕ) (member : ℕ) (port : ℕ) :
    forget T (State.droveErr s code member port) = forget T s :=
  widen T hT <| by simp only [State.droveErr, State.forget_record, forget_ite, ite_self, implies_true, sub, Nat.reduceAnd, beq_self_eq_true]

theorem State.forget_showDrove {T : Nat} (hT : sub 0x20 T = true) (s : State) :
    forget T (State.showDrove s) = forget T s :=
  widen T hT <| by simp only [State.showDrove, State.forget_puts, forget_ite, ite_self, implies_true, sub, Nat.reduceAnd, beq_self_eq_true]

theorem State.forget_drovePump {T : Nat} (hT : sub 0x200000000 T = true) (s : State) :
    forget T (State.drovePump s) = forget T s :=
  widen T hT <| rfl

theorem State.forget_linkSend {T : Nat} (hT : sub 0x200000000 T = true) (s : State) (p : Port) (pkt : Bytes) :
    forget T (State.linkSend s p pkt) = forget T s :=
  widen T hT <| by simp only [State.linkSend, State.forget_modLink, forget_ite, ite_self, implies_true, sub, Nat.reduceAnd, beq_self_eq_true]

theorem State.forget_setSend {T : Nat} (hT : sub 0x200000000 T = true) (s : State) (p : Port) (pkt : Bytes) :
    forget T (State.setSend s p pkt) = forget T s :=
  widen T hT <| by simp only [State.setSend, State.forget_modLink, State.forget_linkSend, forget_ite, ite_self, implies_true, sub, Nat.reduceAnd, beq_self_eq_true]

theorem State.forget_droveDone {T : Nat} (hT : sub 0x200000020 T = true) (s : State) :
    forget T (State.droveDone s) = forget T s :=
  widen T hT <| by simp only [State.droveDone, State.forget_drovePump, State.forget_showDrove, forget_ite, ite_self, implies_true, sub, Nat.reduceAnd, beq_self_eq_true]

theorem State.forget_passOn {T : Nat} (hT : sub 0x200000000 T = true) (s : State) (h : DroveHdr) (pkt : ℕ → Bytes) :
    forget T (State.passOn s h pkt) = forget T s := by
  unfold State.passOn
  split
  · rfl
  · exact State.forget_setSend hT ..

theorem State.forget_takePkt {T : Nat} (hT : sub 0x200000000 T = true) (s : State) (h : DroveHdr) (ty : ℕ) :
    forget T (State.takePkt s h ty) = forget T s := State.forget_modLink hT ..

theorem State.forget_sendForm {T : Nat} (hT : sub 0x200000000 T = true) (s : State) (p : Port) :
    forget T (State.sendForm s p) = forget T s :=
  widen T hT <| by simp only [State.sendForm, State.forget_setSend, forget_ite, ite_self, implies_true, sub, Nat.reduceAnd, beq_self_eq_true]

theorem State.forget_announce {T : Nat} (hT : sub 0x200000000 T = true) (s : State) :
    forget T (State.announce s) = forget T s :=
  widen T hT <| by simp only [State.announce, State.forget_sendForm, forget_ite, ite_self, implies_true, sub, Nat.reduceAnd, beq_self_eq_true]

theorem State.forget_goLine {T : Nat} (hT : sub 0x680000420 T = true) (s : State) :
    forget T (State.goLine s) = forget T s :=
  widen T hT <| by simp only [State.goLine, State.forget_droveErr, State.forget_pulse, State.forget_setDrove, forget_ite, ite_self, implies_true, sub, Nat.reduceAnd, beq_self_eq_true]

theorem State.forget_earErr {T : Nat} (hT : sub 0x480000420 T = true) (s : State) (j : Job) (status : ℕ) :
    forget T (State.earErr s j status) = forget T s :=
  widen T hT <| by simp only [State.earErr, State.forget_record, forget_ite, ite_self, implies_true, sub, Nat.reduceAnd, beq_self_eq_true]

theorem State.forget_endGrace {T : Nat} (hT : sub 0x1000 T = true) (s : State) :
    forget T (State.endGrace s) = forget T s :=
  widen T hT <| by
    unfold State.endGrace
    split <;> simp only [State.forget_setGate, forget_ite, ite_self, foldl_frame, implies_true, sub, Nat.reduceAnd, beq_self_eq_true]

theorem State.forget_windowRecords {T : Nat} (hT : sub 0x480120420 T = true) (s : State) (n : Ns) (w : Window) :
    forget T (State.windowRecords s n w).2 = forget T s :=
  widen T hT <| by
    have h (l : List (Nat × Nat × Nat)) (r : List (Nat × Bytes) × State) : forget 0x480120420 (l.foldl (fun (r : List (Nat × Bytes) × State) f =>
        ((r.2.frameRecords n f).1.foldl (fun l x => insertRec x l) r.1, (r.2.frameRecords n f).2)) r).2 = forget 0x480120420 r.2 := by
      induction l generalizing r with
      | nil => rfl
      | cons f l ih =>
        rw [List.foldl_cons, ih]
        exact State.forget_frameRecords rfl ..
    exact h w.pinned ([], s)

theorem State.forget_freeBits {T : Nat} (hT : sub 0x4 T = true) (x0 : ℕ) (x1 : List ℕ) (x2 : State) :
    forget T (State.freeBits x0 x1 x2).2 = forget T x2 := by
  induction x0 generalizing x1 x2 with
  | zero => rfl
  | succ n ih =>
    cases x1 with
    | nil => rfl
    | cons b l => exact (ih _ _).trans (State.forget_fresh hT _)

theorem State.forget_flipRow {T : Nat} (hT : sub 0x20000024 T = true) (s : State) (b : ℕ) (mag : ℕ) :
    forget T (State.flipRow s b mag) = forget T s :=
  widen T hT <| by simp only [State.flipRow, State.forget_freeBits, State.forget_fresh, State.forget_modBank, forget_ite, ite_self, implies_true, sub, Nat.reduceAnd, beq_self_eq_true]

theorem State.forget_droveBad {T : Nat} (hT : sub 0x480000420 T = true) (s : State) (p : Port) :
    forget T (State.droveBad s p) = forget T s :=
  widen T hT <| by simp only [State.droveBad, State.forget_droveErr, forget_ite, ite_self, implies_true, sub, Nat.reduceAnd, beq_self_eq_true]

theorem State.forget_droveIn {T : Nat} (hT : sub 0x680000420 T = true) (s : State) (p : Port) (b : Bytes) :
    forget T (State.droveIn s p b) = forget T s :=
  widen T hT <| by simp only [State.droveIn, State.forget_droveBad, State.forget_modLink, forget_ite, ite_self, implies_true, sub, Nat.reduceAnd, beq_self_eq_true]

theorem State.forget_droveArea {T : Nat} (hT : sub 0x680000420 T = true) (p : Port) (x0 : ℕ) (x1 : State) (x2 : Bytes) :
    forget T (State.droveArea p x0 x1 x2) = forget T x1 :=
  widen T hT <| by
    fun_induction State.droveArea p x0 x1 x2 <;> simp only [State.forget_droveIn, State.forget_droveBad, forget_ite, ite_self, foldl_frame, implies_true, sub, Nat.reduceAnd, beq_self_eq_true, *]

theorem State.forget_lateFrames {T : Nat} (hT : sub 0x480004420 T = true) (s : State) (capture : ℕ) :
    forget T (State.lateFrames s capture) = forget T s :=
  widen T hT <| by simp only [State.lateFrames, State.forget_modWin, State.forget_pulse, State.forget_trigErr, forget_ite, ite_self, foldl_frame, implies_true, sub, Nat.reduceAnd, beq_self_eq_true]

theorem State.forget_showSummary {T : Nat} (hT : sub 0x20 T = true) (s : State) (f : FrameSt) (key : List ℕ) :
    forget T (State.showSummary s f key) = forget T s :=
  widen T hT <| by simp only [State.showSummary, State.forget_puts, State.forget_bump, State.forget_put, forget_ite, ite_self, foldl_frame, implies_true, sub, Nat.reduceAnd, beq_self_eq_true]

theorem State.forget_forgetData {T : Nat} (hT : sub 0xc0000 T = true) (s : State) (nsid : ℕ) :
    forget T (State.forgetData s nsid) = forget T s :=
  widen T hT <| by simp only [State.forgetData, State.forget_setMedia, State.forget_setArray, State.forget_setImage, State.forget_cancelWhere, forget_ite, ite_self, implies_true, sub, Nat.reduceAnd, beq_self_eq_true]

theorem State.forget_endSafe {T : Nat} (hT : sub 0x490000020 T = true) (s : State) :
    forget T (State.endSafe s) = forget T s :=
  widen T hT <| by simp only [State.endSafe, State.forget_leaveSafe, State.forget_put, forget_ite, ite_self, implies_true, sub, Nat.reduceAnd, beq_self_eq_true]

end Sys2Proof.Machine
end

section
/-! ### The tie between `step` and `exec` -/
namespace Sys2Proof.Machine

/-- Settles O1: `step` on a nonempty queue is by definition the command's meaning. -/
theorem stepRunsFrontCommand : Obligations.StepRunsFrontCommand := fun _ _ => rfl

end Sys2Proof.Machine
end

section
/-!
Events and errors as the other parts of the state see them: no part beside the registers, the rises, the intake queue and the message counters
changes; and reading a register after others were written.
-/

namespace Sys2Proof.Machine

open Sys2Proof.Laws

/-! ### What a count, an event and an error leave alone -/

@[simp] theorem State.bump_pending (s : State) (x : Fld) (n : Nat) : (s.bump x n).pending = s.pending := keeps_pending (State.bump_frame ..) rfl
@[simp] theorem State.bump_time (s : State) (x : Fld) (n : Nat) : (s.bump x n).time = s.time := keeps_time (State.bump_frame ..) rfl
@[simp] theorem State.bump_freeNext (s : State) (x : Fld) (n : Nat) : (s.bump x n).freeNext = s.freeNext := keeps_freeNext (State.bump_frame ..) rfl
@[simp] theorem State.bump_rtcBase (s : State) (x : Fld) (n : Nat) : (s.bump x n).rtcBase = s.rtcBase := keeps_rtcBase (State.bump_frame ..) rfl
@[simp] theorem State.bump_rtcAt (s : State) (x : Fld) (n : Nat) : (s.bump x n).rtcAt = s.rtcAt := keeps_rtcAt (State.bump_frame ..) rfl
@[simp] theorem State.bump_slewed (s : State) (x : Fld) (n : Nat) : (s.bump x n).slewed = s.slewed := keeps_slewed (State.bump_frame ..) rfl
@[simp] theorem State.bump_latches (s : State) (x : Fld) (n : Nat) : (s.bump x n).latches = s.latches := keeps_latches (State.bump_frame ..) rfl
@[simp] theorem State.bump_lows (s : State) (x : Fld) (n : Nat) : (s.bump x n).lows = s.lows := keeps_lows (State.bump_frame ..) rfl
@[simp] theorem State.bump_readData (s : State) (x : Fld) (n : Nat) : (s.bump x n).readData = s.readData := keeps_readData (State.bump_frame ..) rfl
@[simp] theorem State.bump_refusal (s : State) (x : Fld) (n : Nat) : (s.bump x n).refusal = s.refusal := keeps_refusal (State.bump_frame ..) rfl
@[simp] theorem State.bump_rises (s : State) (x : Fld) (n : Nat) : (s.bump x n).rises = s.rises := keeps_rises (State.bump_frame ..) rfl
@[simp] theorem State.bump_fault (s : State) (x : Fld) (n : Nat) : (s.bump x n).fault = s.fault := keeps_fault (State.bump_frame ..) rfl
@[simp] theorem State.bump_trust (s : State) (x : Fld) (n : Nat) : (s.bump x n).trust = s.trust := keeps_trust (State.bump_frame ..) rfl
@[simp] theorem State.bump_gate (s : State) (x : Fld) (n : Nat) : (s.bump x n).gate = s.gate := keeps_gate (State.bump_frame ..) rfl
@[simp] theorem State.bump_take (s : State) (x : Fld) (n : Nat) : (s.bump x n).take = s.take := keeps_take (State.bump_frame ..) rfl
@[simp] theorem State.bump_lanes (s : State) (x : Fld) (n : Nat) : (s.bump x n).lanes = s.lanes := keeps_lanes (State.bump_frame ..) rfl
@[simp] theorem State.bump_jobs (s : State) (x : Fld) (n : Nat) : (s.bump x n).jobs = s.jobs := keeps_jobs (State.bump_frame ..) rfl
@[simp] theorem State.bump_nand (s : State) (x : Fld) (n : Nat) : (s.bump x n).nand = s.nand := keeps_nand (State.bump_frame ..) rfl
@[simp] theorem State.bump_media (s : State) (x : Fld) (n : Nat) : (s.bump x n).media = s.media := keeps_media (State.bump_frame ..) rfl
@[simp] theorem State.bump_array (s : State) (x : Fld) (n : Nat) : (s.bump x n).array = s.array := keeps_array (State.bump_frame ..) rfl
@[simp] theorem State.bump_tally (s : State) (x : Fld) (n : Nat) : (s.bump x n).tally = s.tally := keeps_tally (State.bump_frame ..) rfl
@[simp] theorem State.bump_keys (s : State) (x : Fld) (n : Nat) : (s.bump x n).keys = s.keys := keeps_keys (State.bump_frame ..) rfl
@[simp] theorem State.bump_ns (s : State) (x : Fld) (n : Nat) : (s.bump x n).ns = s.ns := keeps_ns (State.bump_frame ..) rfl
@[simp] theorem State.bump_mem (s : State) (x : Fld) (n : Nat) : (s.bump x n).mem = s.mem := keeps_mem (State.bump_frame ..) rfl
@[simp] theorem State.bump_xlate (s : State) (x : Fld) (n : Nat) : (s.bump x n).xlate = s.xlate := keeps_xlate (State.bump_frame ..) rfl
@[simp] theorem State.bump_cores (s : State) (x : Fld) (n : Nat) : (s.bump x n).cores = s.cores := keeps_cores (State.bump_frame ..) rfl
@[simp] theorem State.bump_clusters (s : State) (x : Fld) (n : Nat) : (s.bump x n).clusters = s.clusters := keeps_clusters (State.bump_frame ..) rfl
@[simp] theorem State.bump_mcLoad (s : State) (x : Fld) (n : Nat) : (s.bump x n).mcLoad = s.mcLoad := keeps_mcLoad (State.bump_frame ..) rfl
@[simp] theorem State.bump_tenant (s : State) (x : Fld) (n : Nat) : (s.bump x n).tenant = s.tenant := keeps_tenant (State.bump_frame ..) rfl
@[simp] theorem State.bump_pwr (s : State) (x : Fld) (n : Nat) : (s.bump x n).pwr = s.pwr := keeps_pwr (State.bump_frame ..) rfl
@[simp] theorem State.bump_ear (s : State) (x : Fld) (n : Nat) : (s.bump x n).ear = s.ear := keeps_ear (State.bump_frame ..) rfl
@[simp] theorem State.bump_feeds (s : State) (x : Fld) (n : Nat) : (s.bump x n).feeds = s.feeds := keeps_feeds (State.bump_frame ..) rfl
@[simp] theorem State.bump_host (s : State) (x : Fld) (n : Nat) : (s.bump x n).host = s.host := keeps_host (State.bump_frame ..) rfl
@[simp] theorem State.bump_dram (s : State) (x : Fld) (n : Nat) : (s.bump x n).dram = s.dram := keeps_dram (State.bump_frame ..) rfl
@[simp] theorem State.bump_drove (s : State) (x : Fld) (n : Nat) : (s.bump x n).drove = s.drove := keeps_drove (State.bump_frame ..) rfl

@[simp] theorem State.pulse_pending (s : State) (page bit : Nat) : (s.pulse page bit).pending = s.pending := keeps_pending (State.pulse_frame ..) rfl
@[simp] theorem State.pulse_time (s : State) (page bit : Nat) : (s.pulse page bit).time = s.time := keeps_time (State.pulse_frame ..) rfl
@[simp] theorem State.pulse_freeNext (s : State) (page bit : Nat) : (s.pulse page bit).freeNext = s.freeNext := keeps_freeNext (State.pulse_frame ..) rfl
@[simp] theorem State.pulse_rtcBase (s : State) (page bit : Nat) : (s.pulse page bit).rtcBase = s.rtcBase := keeps_rtcBase (State.pulse_frame ..) rfl
@[simp] theorem State.pulse_rtcAt (s : State) (page bit : Nat) : (s.pulse page bit).rtcAt = s.rtcAt := keeps_rtcAt (State.pulse_frame ..) rfl
@[simp] theorem State.pulse_slewed (s : State) (page bit : Nat) : (s.pulse page bit).slewed = s.slewed := keeps_slewed (State.pulse_frame ..) rfl
@[simp] theorem State.pulse_latches (s : State) (page bit : Nat) : (s.pulse page bit).latches = s.latches := keeps_latches (State.pulse_frame ..) rfl
@[simp] theorem State.pulse_lows (s : State) (page bit : Nat) : (s.pulse page bit).lows = s.lows := keeps_lows (State.pulse_frame ..) rfl
@[simp] theorem State.pulse_readData (s : State) (page bit : Nat) : (s.pulse page bit).readData = s.readData := keeps_readData (State.pulse_frame ..) rfl
@[simp] theorem State.pulse_refusal (s : State) (page bit : Nat) : (s.pulse page bit).refusal = s.refusal := keeps_refusal (State.pulse_frame ..) rfl
@[simp] theorem State.pulse_fault (s : State) (page bit : Nat) : (s.pulse page bit).fault = s.fault := keeps_fault (State.pulse_frame ..) rfl
@[simp] theorem State.pulse_trust (s : State) (page bit : Nat) : (s.pulse page bit).trust = s.trust := keeps_trust (State.pulse_frame ..) rfl
@[simp] theorem State.pulse_gate (s : State) (page bit : Nat) : (s.pulse page bit).gate = s.gate := keeps_gate (State.pulse_frame ..) rfl
@[simp] theorem State.pulse_take (s : State) (page bit : Nat) : (s.pulse page bit).take = s.take := keeps_take (State.pulse_frame ..) rfl
@[simp] theorem State.pulse_lanes (s : State) (page bit : Nat) : (s.pulse page bit).lanes = s.lanes := keeps_lanes (State.pulse_frame ..) rfl
@[simp] theorem State.pulse_jobs (s : State) (page bit : Nat) : (s.pulse page bit).jobs = s.jobs := keeps_jobs (State.pulse_frame ..) rfl
@[simp] theorem State.pulse_nand (s : State) (page bit : Nat) : (s.pulse page bit).nand = s.nand := keeps_nand (State.pulse_frame ..) rfl
@[simp] theorem State.pulse_media (s : State) (page bit : Nat) : (s.pulse page bit).media = s.media := keeps_media (State.pulse_frame ..) rfl
@[simp] theorem State.pulse_array (s : State) (page bit : Nat) : (s.pulse page bit).array = s.array := keeps_array (State.pulse_frame ..) rfl
@[simp] theorem State.pulse_tally (s : State) (page bit : Nat) : (s.pulse page bit).tally = s.tally := keeps_tally (State.pulse_frame ..) rfl
@[simp] theorem State.pulse_keys (s : State) (page bit : Nat) : (s.pulse page bit).keys = s.keys := keeps_keys (State.pulse_frame ..) rfl
@[simp] theorem State.pulse_ns (s : State) (page bit : Nat) : (s.pulse page bit).ns = s.ns := keeps_ns (State.pulse_frame ..) rfl
@[simp] theorem State.pulse_mem (s : State) (page bit : Nat) : (s.pulse page bit).mem = s.mem := keeps_mem (State.pulse_frame ..) rfl
@[simp] theorem State.pulse_xlate (s : State) (page bit : Nat) : (s.pulse page bit).xlate = s.xlate := keeps_xlate (State.pulse_frame ..) rfl
@[simp] theorem State.pulse_cores (s : State) (page bit : Nat) : (s.pulse page bit).cores = s.cores := keeps_cores (State.pulse_frame ..) rfl
@[simp] theorem State.pulse_clusters (s : State) (page bit : Nat) : (s.pulse page bit).clusters = s.clusters := keeps_clusters (State.pulse_frame ..) rfl
@[simp] theorem State.pulse_mcLoad (s : State) (page bit : Nat) : (s.pulse page bit).mcLoad = s.mcLoad := keeps_mcLoad (State.pulse_frame ..) rfl
@[simp] theorem State.pulse_tenant (s : State) (page bit : Nat) : (s.pulse page bit).tenant = s.tenant := keeps_tenant (State.pulse_frame ..) rfl
@[simp] theorem State.pulse_pwr (s : State) (page bit : Nat) : (s.pulse page bit).pwr = s.pwr := keeps_pwr (State.pulse_frame ..) rfl
@[simp] theorem State.pulse_ear (s : State) (page bit : Nat) : (s.pulse page bit).ear = s.ear := keeps_ear (State.pulse_frame ..) rfl
@[simp] theorem State.pulse_feeds (s : State) (page bit : Nat) : (s.pulse page bit).feeds = s.feeds := keeps_feeds (State.pulse_frame ..) rfl
@[simp] theorem State.pulse_dram (s : State) (page bit : Nat) : (s.pulse page bit).dram = s.dram := keeps_dram (State.pulse_frame ..) rfl
@[simp] theorem State.pulse_drove (s : State) (page bit : Nat) : (s.pulse page bit).drove = s.drove := keeps_drove (State.pulse_frame ..) rfl

@[simp] theorem State.record_pending (s : State) (page code info func ext last : Nat) : (s.record page code info func ext last).pending = s.pending := keeps_pending (State.record_frame ..) rfl
@[simp] theorem State.record_time (s : State) (page code info func ext last : Nat) : (s.record page code info func ext last).time = s.time := keeps_time (State.record_frame ..) rfl
@[simp] theorem State.record_freeNext (s : State) (page code info func ext last : Nat) : (s.record page code info func ext last).freeNext = s.freeNext := keeps_freeNext (State.record_frame ..) rfl
@[simp] theorem State.record_rtcBase (s : State) (page code info func ext last : Nat) : (s.record page code info func ext last).rtcBase = s.rtcBase := keeps_rtcBase (State.record_frame ..) rfl
@[simp] theorem State.record_rtcAt (s : State) (page code info func ext last : Nat) : (s.record page code info func ext last).rtcAt = s.rtcAt := keeps_rtcAt (State.record_frame ..) rfl
@[simp] theorem State.record_slewed (s : State) (page code info func ext last : Nat) : (s.record page code info func ext last).slewed = s.slewed := keeps_slewed (State.record_frame ..) rfl
@[simp] theorem State.record_latches (s : State) (page code info func ext last : Nat) : (s.record page code info func ext last).latches = s.latches := keeps_latches (State.record_frame ..) rfl
@[simp] theorem State.record_lows (s : State) (page code info func ext last : Nat) : (s.record page code info func ext last).lows = s.lows := keeps_lows (State.record_frame ..) rfl
@[simp] theorem State.record_readData (s : State) (page code info func ext last : Nat) : (s.record page code info func ext last).readData = s.readData := keeps_readData (State.record_frame ..) rfl
@[simp] theorem State.record_refusal (s : State) (page code info func ext last : Nat) : (s.record page code info func ext last).refusal = s.refusal := keeps_refusal (State.record_frame ..) rfl
@[simp] theorem State.record_trust (s : State) (page code info func ext last : Nat) : (s.record page code info func ext last).trust = s.trust := keeps_trust (State.record_frame ..) rfl
@[simp] theorem State.record_take (s : State) (page code info func ext last : Nat) : (s.record page code info func ext last).take = s.take := keeps_take (State.record_frame ..) rfl
@[simp] theorem State.record_lanes (s : State) (page code info func ext last : Nat) : (s.record page code info func ext last).lanes = s.lanes := keeps_lanes (State.record_frame ..) rfl
@[simp] theorem State.record_jobs (s : State) (page code info func ext last : Nat) : (s.record page code info func ext last).jobs = s.jobs := keeps_jobs (State.record_frame ..) rfl
@[simp] theorem State.record_nand (s : State) (page code info func ext last : Nat) : (s.record page code info func ext last).nand = s.nand := keeps_nand (State.record_frame ..) rfl
@[simp] theorem State.record_media (s : State) (page code info func ext last : Nat) : (s.record page code info func ext last).media = s.media := keeps_media (State.record_frame ..) rfl
@[simp] theorem State.record_array (s : State) (page code info func ext last : Nat) : (s.record page code info func ext last).array = s.array := keeps_array (State.record_frame ..) rfl
@[simp] theorem State.record_tally (s : State) (page code info func ext last : Nat) : (s.record page code info func ext last).tally = s.tally := keeps_tally (State.record_frame ..) rfl
@[simp] theorem State.record_keys (s : State) (page code info func ext last : Nat) : (s.record page code info func ext last).keys = s.keys := keeps_keys (State.record_frame ..) rfl
@[simp] theorem State.record_ns (s : State) (page code info func ext last : Nat) : (s.record page code info func ext last).ns = s.ns := keeps_ns (State.record_frame ..) rfl
@[simp] theorem State.record_mem (s : State) (page code info func ext last : Nat) : (s.record page code info func ext last).mem = s.mem := keeps_mem (State.record_frame ..) rfl
@[simp] theorem State.record_xlate (s : State) (page code info func ext last : Nat) : (s.record page code info func ext last).xlate = s.xlate := keeps_xlate (State.record_frame ..) rfl
@[simp] theorem State.record_cores (s : State) (page code info func ext last : Nat) : (s.record page code info func ext last).cores = s.cores := keeps_cores (State.record_frame ..) rfl
@[simp] theorem State.record_clusters (s : State) (page code info func ext last : Nat) : (s.record page code info func ext last).clusters = s.clusters := keeps_clusters (State.record_frame ..) rfl
@[simp] theorem State.record_mcLoad (s : State) (page code info func ext last : Nat) : (s.record page code info func ext last).mcLoad = s.mcLoad := keeps_mcLoad (State.record_frame ..) rfl
@[simp] theorem State.record_tenant (s : State) (page code info func ext last : Nat) : (s.record page code info func ext last).tenant = s.tenant := keeps_tenant (State.record_frame ..) rfl
@[simp] theorem State.record_pwr (s : State) (page code info func ext last : Nat) : (s.record page code info func ext last).pwr = s.pwr := keeps_pwr (State.record_frame ..) rfl
@[simp] theorem State.record_ear (s : State) (page code info func ext last : Nat) : (s.record page code info func ext last).ear = s.ear := keeps_ear (State.record_frame ..) rfl
@[simp] theorem State.record_feeds (s : State) (page code info func ext last : Nat) : (s.record page code info func ext last).feeds = s.feeds := keeps_feeds (State.record_frame ..) rfl
@[simp] theorem State.record_dram (s : State) (page code info func ext last : Nat) : (s.record page code info func ext last).dram = s.dram := keeps_dram (State.record_frame ..) rfl
@[simp] theorem State.record_drove (s : State) (page code info func ext last : Nat) : (s.record page code info func ext last).drove = s.drove := keeps_drove (State.record_frame ..) rfl

/-- The host side without its message counters. -/
def HostSt.sansMsix (h : HostSt) : HostSt := { h with msix := [] }

theorem State.countMsi_sansMsix (s : State) (fn vec : Nat) : (s.countMsi fn vec).host.sansMsix = s.host.sansMsix := rfl

/-- A page's message changes only message counters of the host side (R449). -/
theorem State.pageIrq_sansMsix (s : State) (page : Nat) : (s.pageIrq page).host.sansMsix = s.host.sansMsix := by
  have hvf (t : State) (f : Nat) :
      (if t.get (R.VF.VF_IRQ_EN f) = 1 then t.countMsi f (t.get (R.VF.VF_IRQ_VECTOR f)) else t).host.sansMsix = t.host.sansMsix := by
    split <;> rfl
  have hall (fs : List Fn) (t : State) : (fs.foldl (fun t (f : Fn) =>
      if t.get (R.VF.VF_IRQ_EN f.p.func) = 1 then t.countMsi f.p.func (t.get (R.VF.VF_IRQ_VECTOR f.p.func)) else t) t).host.sansMsix
        = t.host.sansMsix := by
    induction fs generalizing t with
    | nil => rfl
    | cons f fs ih => rw [List.foldl_cons, ih, hvf]
  unfold State.pageIrq
  split
  · exact hvf ..
  · refine (hall ..).trans ?_
    split <;> rfl

theorem State.irqAfter_sansMsix (s t : State) (page : Nat) : (s.irqAfter t page).host.sansMsix = t.host.sansMsix := by
  unfold State.irqAfter
  split
  · exact State.pageIrq_sansMsix ..
  · rfl

@[simp] theorem State.rise_host (s : State) (page bit : Nat) : (s.rise page bit).host = s.host := keeps_host (State.rise_frame ..) rfl

theorem State.pulse_sansMsix (s : State) (page bit : Nat) : (s.pulse page bit).host.sansMsix = s.host.sansMsix :=
  State.irqAfter_sansMsix ..

theorem State.record_sansMsix (s : State) (page code info func ext last : Nat) :
    (s.record page code info func ext last).host.sansMsix = s.host.sansMsix := by
  rw [State.record, keeps_host (State.report_frame ..) rfl]
  refine (State.irqAfter_sansMsix ..).trans ?_
  rw [State.rise_host, State.bump_host]
  split <;> rfl

@[simp] theorem State.pulse_sqs (s : State) (page bit : Nat) : (s.pulse page bit).host.sqs = s.host.sqs :=
  (congrArg HostSt.sqs (s.pulse_sansMsix page bit) :)
@[simp] theorem State.pulse_cqs (s : State) (page bit : Nat) : (s.pulse page bit).host.cqs = s.host.cqs :=
  (congrArg HostSt.cqs (s.pulse_sansMsix page bit) :)
@[simp] theorem State.pulse_cmds (s : State) (page bit : Nat) : (s.pulse page bit).host.cmds = s.host.cmds :=
  (congrArg HostSt.cmds (s.pulse_sansMsix page bit) :)
@[simp] theorem State.pulse_cqes (s : State) (page bit : Nat) : (s.pulse page bit).host.cqes = s.host.cqes :=
  (congrArg HostSt.cqes (s.pulse_sansMsix page bit) :)
@[simp] theorem State.pulse_waiting (s : State) (page bit : Nat) : (s.pulse page bit).host.waiting = s.host.waiting :=
  (congrArg HostSt.waiting (s.pulse_sansMsix page bit) :)
@[simp] theorem State.pulse_aers (s : State) (page bit : Nat) : (s.pulse page bit).host.aers = s.host.aers :=
  (congrArg HostSt.aers (s.pulse_sansMsix page bit) :)
@[simp] theorem State.pulse_events (s : State) (page bit : Nat) : (s.pulse page bit).host.events = s.host.events :=
  (congrArg HostSt.events (s.pulse_sansMsix page bit) :)
@[simp] theorem State.pulse_masked (s : State) (page bit : Nat) : (s.pulse page bit).host.masked = s.host.masked :=
  (congrArg HostSt.masked (s.pulse_sansMsix page bit) :)
@[simp] theorem State.pulse_errInfo (s : State) (page bit : Nat) : (s.pulse page bit).host.errInfo = s.host.errInfo :=
  (congrArg HostSt.errInfo (s.pulse_sansMsix page bit) :)
@[simp] theorem State.pulse_errCount (s : State) (page bit : Nat) : (s.pulse page bit).host.errCount = s.host.errCount :=
  (congrArg HostSt.errCount (s.pulse_sansMsix page bit) :)
@[simp] theorem State.pulse_features (s : State) (page bit : Nat) : (s.pulse page bit).host.features = s.host.features :=
  (congrArg HostSt.features (s.pulse_sansMsix page bit) :)
@[simp] theorem State.pulse_progs (s : State) (page bit : Nat) : (s.pulse page bit).host.progs = s.host.progs :=
  (congrArg HostSt.progs (s.pulse_sansMsix page bit) :)
@[simp] theorem State.pulse_secOut (s : State) (page bit : Nat) : (s.pulse page bit).host.secOut = s.host.secOut :=
  (congrArg HostSt.secOut (s.pulse_sansMsix page bit) :)
@[simp] theorem State.pulse_catalog (s : State) (page bit : Nat) : (s.pulse page bit).host.catalog = s.host.catalog :=
  (congrArg HostSt.catalog (s.pulse_sansMsix page bit) :)
@[simp] theorem State.pulse_paused (s : State) (page bit : Nat) : (s.pulse page bit).host.paused = s.host.paused :=
  (congrArg HostSt.paused (s.pulse_sansMsix page bit) :)
@[simp] theorem State.pulse_frozenSeen (s : State) (page bit : Nat) : (s.pulse page bit).host.frozenSeen = s.host.frozenSeen :=
  (congrArg HostSt.frozenSeen (s.pulse_sansMsix page bit) :)
@[simp] theorem State.pulse_changed (s : State) (page bit : Nat) : (s.pulse page bit).host.changed = s.host.changed :=
  (congrArg HostSt.changed (s.pulse_sansMsix page bit) :)
@[simp] theorem State.pulse_aborts (s : State) (page bit : Nat) : (s.pulse page bit).host.aborts = s.host.aborts :=
  (congrArg HostSt.aborts (s.pulse_sansMsix page bit) :)
@[simp] theorem State.pulse_turns (s : State) (page bit : Nat) : (s.pulse page bit).host.turns = s.host.turns :=
  (congrArg HostSt.turns (s.pulse_sansMsix page bit) :)
@[simp] theorem State.record_sqs (s : State) (page code info func ext last : Nat) : (s.record page code info func ext last).host.sqs = s.host.sqs :=
  (congrArg HostSt.sqs (s.record_sansMsix page code info func ext last) :)
@[simp] theorem State.record_cqs (s : State) (page code info func ext last : Nat) : (s.record page code info func ext last).host.cqs = s.host.cqs :=
  (congrArg HostSt.cqs (s.record_sansMsix page code info func ext last) :)
@[simp] theorem State.record_cmds (s : State) (page code info func ext last : Nat) : (s.record page code info func ext last).host.cmds = s.host.cmds :=
  (congrArg HostSt.cmds (s.record_sansMsix page code info func ext last) :)
@[simp] theorem State.record_cqes (s : State) (page code info func ext last : Nat) : (s.record page code info func ext last).host.cqes = s.host.cqes :=
  (congrArg HostSt.cqes (s.record_sansMsix page code info func ext last) :)
@[simp] theorem State.record_waiting (s : State) (page code info func ext last : Nat) : (s.record page code info func ext last).host.waiting = s.host.waiting :=
  (congrArg HostSt.waiting (s.record_sansMsix page code info func ext last) :)
@[simp] theorem State.record_aers (s : State) (page code info func ext last : Nat) : (s.record page code info func ext last).host.aers = s.host.aers :=
  (congrArg HostSt.aers (s.record_sansMsix page code info func ext last) :)
@[simp] theorem State.record_events (s : State) (page code info func ext last : Nat) : (s.record page code info func ext last).host.events = s.host.events :=
  (congrArg HostSt.events (s.record_sansMsix page code info func ext last) :)
@[simp] theorem State.record_masked (s : State) (page code info func ext last : Nat) : (s.record page code info func ext last).host.masked = s.host.masked :=
  (congrArg HostSt.masked (s.record_sansMsix page code info func ext last) :)
@[simp] theorem State.record_errInfo (s : State) (page code info func ext last : Nat) : (s.record page code info func ext last).host.errInfo = s.host.errInfo :=
  (congrArg HostSt.errInfo (s.record_sansMsix page code info func ext last) :)
@[simp] theorem State.record_errCount (s : State) (page code info func ext last : Nat) : (s.record page code info func ext last).host.errCount = s.host.errCount :=
  (congrArg HostSt.errCount (s.record_sansMsix page code info func ext last) :)
@[simp] theorem State.record_features (s : State) (page code info func ext last : Nat) : (s.record page code info func ext last).host.features = s.host.features :=
  (congrArg HostSt.features (s.record_sansMsix page code info func ext last) :)
@[simp] theorem State.record_progs (s : State) (page code info func ext last : Nat) : (s.record page code info func ext last).host.progs = s.host.progs :=
  (congrArg HostSt.progs (s.record_sansMsix page code info func ext last) :)
@[simp] theorem State.record_secOut (s : State) (page code info func ext last : Nat) : (s.record page code info func ext last).host.secOut = s.host.secOut :=
  (congrArg HostSt.secOut (s.record_sansMsix page code info func ext last) :)
@[simp] theorem State.record_catalog (s : State) (page code info func ext last : Nat) : (s.record page code info func ext last).host.catalog = s.host.catalog :=
  (congrArg HostSt.catalog (s.record_sansMsix page code info func ext last) :)
@[simp] theorem State.record_paused (s : State) (page code info func ext last : Nat) : (s.record page code info func ext last).host.paused = s.host.paused :=
  (congrArg HostSt.paused (s.record_sansMsix page code info func ext last) :)
@[simp] theorem State.record_frozenSeen (s : State) (page code info func ext last : Nat) : (s.record page code info func ext last).host.frozenSeen = s.host.frozenSeen :=
  (congrArg HostSt.frozenSeen (s.record_sansMsix page code info func ext last) :)
@[simp] theorem State.record_changed (s : State) (page code info func ext last : Nat) : (s.record page code info func ext last).host.changed = s.host.changed :=
  (congrArg HostSt.changed (s.record_sansMsix page code info func ext last) :)
@[simp] theorem State.record_aborts (s : State) (page code info func ext last : Nat) : (s.record page code info func ext last).host.aborts = s.host.aborts :=
  (congrArg HostSt.aborts (s.record_sansMsix page code info func ext last) :)
@[simp] theorem State.record_turns (s : State) (page code info func ext last : Nat) : (s.record page code info func ext last).host.turns = s.host.turns :=
  (congrArg HostSt.turns (s.record_sansMsix page code info func ext last) :)

/-! ### Reading a register after others were written, in a form that `simp (disch := rfl)` uses -/

theorem State.puts_cons (s : State) (x : Fld) (v : Nat) (l : List (Fld × Nat)) : s.puts ((x, v) :: l) = (s.put x v).puts l := rfl

theorem State.puts_nil (s : State) : s.puts [] = s := rfl

theorem State.get_put_of_place (s : State) {x y : Fld} (v : Nat) (h : ((y.off, y.lo) == (x.off, x.lo)) = false) : (s.put x v).get y = s.get y :=
  State.get_put_other s v (Fld.ne_of_place h)

theorem State.get_put_of_page (s : State) {x y : Fld} (v : Nat) (h : (y.page == x.page) = false) : (s.put x v).get y = s.get y :=
  State.get_put_other s v (by rintro rfl; simp at h)

theorem State.get_bump_of_place (s : State) {x y : Fld} (n : Nat) (h : ((y.off, y.lo) == (x.off, x.lo)) = false) :
    (s.bump x n).get y = s.get y :=
  State.get_put_of_place s _ h

theorem State.get_bump_of_page (s : State) {x y : Fld} (n : Nat) (h : (y.page == x.page) = false) : (s.bump x n).get y = s.get y :=
  State.get_put_of_page s _ h

theorem State.pulse_get_beyond (s : State) (page bit : Nat) {x : Fld} (h : Nat.ble 0x040 x.off = true) : (s.pulse page bit).get x = s.get x :=
  State.pulse_get_beyond_header s page bit (Nat.le_of_ble_eq_true h)

theorem State.record_get_beyond (s : State) (page code info func ext last : Nat) {x : Fld} (h : Nat.ble 0x040 x.off = true) :
    (s.record page code info func ext last).get x = s.get x :=
  State.record_get_beyond_header s page code info func ext last (Nat.le_of_ble_eq_true h)

theorem State.pulse_get_of_place (s : State) (page bit : Nat) {x : Fld} (hs : ((x.off, x.lo) == (0x018, 0)) = false)
    (hc : ((x.off, x.lo) == (0x01C, 0)) = false) : (s.pulse page bit).get x = s.get x :=
  State.pulse_get_other s page bit (Fld.ne_of_place hs) (Fld.ne_of_place hc)

end Sys2Proof.Machine
end

section
/-!
Single bits of a number, and the bits of a page's sticky word after an event (R40).
-/

namespace Sys2Proof.Machine

theorem bitAt_eq_testBit (v i : Nat) : bitAt v i = v.testBit i := by
  rw [bitAt, Nat.testBit_eq_decide_div_mod_eq]
  rfl

theorem testBit_two_mul_add_b2n (q : Nat) (b : Bool) (j : Nat) : (2 * q + b2n b).testBit j = if j = 0 then b else q.testBit (j - 1) := by
  cases j with
  | zero => cases b <;> simp [b2n, Nat.testBit_zero]
  | succ j => cases b <;> simp [b2n, Nat.testBit_succ, Nat.mul_add_div]

/-- A number is its bits above `i`, bit `i`, and its bits below. -/
theorem eq_of_bitAt (v i : Nat) : v = 2 ^ i * (2 * (v / 2 ^ i / 2) + v / 2 ^ i % 2) + v % 2 ^ i := by
  have h1 := Nat.div_add_mod v (2 ^ i)
  have h2 := Nat.div_add_mod (v / 2 ^ i) 2
  rw [h2, h1]

theorem setBit_eq (v i : Nat) (b : Bool) : setBit v i b = 2 ^ i * (2 * (v / 2 ^ i / 2) + b2n b) + v % 2 ^ i := by
  have hb : b2n b % 2 ^ 1 = b2n b := by cases b <;> rfl
  have hv := eq_of_bitAt v i
  have hle : v / 2 ^ i % 2 ^ 1 * 2 ^ i ≤ v := (Nat.mul_le_mul_right _ (Nat.mod_le _ _)).trans (Nat.div_mul_le_self v _)
  simp only [setBit, withBits, bits, hb]
  rw [Nat.pow_one] at hle ⊢
  have hm : 2 ^ i * (2 * (v / 2 ^ i / 2) + v / 2 ^ i % 2) = 2 ^ i * (2 * (v / 2 ^ i / 2)) + v / 2 ^ i % 2 * 2 ^ i := by ring
  have hn : 2 ^ i * (2 * (v / 2 ^ i / 2) + b2n b) = 2 ^ i * (2 * (v / 2 ^ i / 2)) + b2n b * 2 ^ i := by ring
  omega

/-- Setting a bit changes that bit only. -/
theorem testBit_setBit (v i : Nat) (b : Bool) (j : Nat) : (setBit v i b).testBit j = if j = i then b else v.testBit j := by
  have hlt := Nat.mod_lt v (Nat.two_pow_pos i)
  have hv : v.testBit j = if j < i then (v % 2 ^ i).testBit j else (v / 2 ^ i).testBit (j - i) := by
    conv_lhs => rw [← Nat.div_add_mod v (2 ^ i), Nat.testBit_two_pow_mul_add _ hlt]
  rw [setBit_eq, Nat.testBit_two_pow_mul_add _ hlt, hv, testBit_two_mul_add_b2n]
  split
  · rw [if_neg (by omega)]
  · by_cases h : j = i
    · rw [if_pos h, if_pos (by omega)]
    · have hk : j - i = j - i - 1 + 1 := by omega
      rw [if_neg h, if_neg (by omega), hk, Nat.testBit_succ, Nat.add_sub_cancel]

@[simp] theorem bitAt_setBit_same (v i : Nat) (b : Bool) : bitAt (setBit v i b) i = b := by
  rw [bitAt_eq_testBit, testBit_setBit, if_pos rfl]

theorem bitAt_setBit_other (v : Nat) {i j : Nat} (b : Bool) (h : j ≠ i) : bitAt (setBit v i b) j = bitAt v j := by
  rw [bitAt_eq_testBit, bitAt_eq_testBit, testBit_setBit, if_neg h]

/-- A bit below the width of a field survives the field's truncation. -/
theorem bitAt_mod_two_pow (v : Nat) {i w : Nat} (h : i < w) : bitAt (v % 2 ^ w) i = bitAt v i := by
  rw [bitAt_eq_testBit, bitAt_eq_testBit, Nat.testBit_mod_two_pow, decide_eq_true h, Bool.true_and]

theorem foldl_or_testBit {α : Type} (g : α → Nat) (l : List α) (v i : Nat) :
    (l.foldl (fun v p => v ||| g p) v).testBit i = (v.testBit i || l.any fun p => (g p).testBit i) := by
  induction l generalizing v with
  | nil => simp
  | cons p l ih => rw [List.foldl_cons, ih, Nat.testBit_or, List.any_cons, Bool.or_assoc]

/-! ### The sticky word -/

theorem State.rise_sticky (s : State) (page bit : Nat) {i : Nat} (hi : i < 32) :
    bitAt ((s.rise page bit).get (H.STICKY page)) i = if i = bit then true else bitAt (s.get (H.STICKY page)) i := by
  change bitAt ((s.put (H.STICKY page) _).get (H.STICKY page)) i = _
  rw [State.get_put_same, bitAt_mod_two_pow _ (show i < (H.STICKY page).w from hi), bitAt_eq_testBit, testBit_setBit, bitAt_eq_testBit]

/-- A momentary event sets its sticky bit and no other. -/
theorem State.pulse_sticky (s : State) (page bit : Nat) {i : Nat} (hi : i < 32) :
    bitAt ((s.pulse page bit).get (H.STICKY page)) i = if i = bit then true else bitAt (s.get (H.STICKY page)) i := by
  rw [State.pulse, State.irqAfter_get, State.get_bump_of_place _ _ rfl, State.rise_sticky _ _ _ hi]

/-- A recorded error sets sticky bit 31 and no other. -/
theorem State.record_sticky (s : State) (page code info func ext last : Nat) {i : Nat} (hi : i < 32) :
    bitAt ((s.record page code info func ext last).get (H.STICKY page)) i = if i = 31 then true else bitAt (s.get (H.STICKY page)) i := by
  rw [State.record, State.report_get, State.recordPage, State.irqAfter_get, State.rise_sticky _ _ _ hi, State.get_bump_of_place _ _ rfl]
  congr 2
  split
  · rw [State.get_bump_of_place _ _ rfl, State.get_put_of_place _ _ rfl, State.get_put_of_place _ _ rfl, State.get_put_of_place _ _ rfl]
  · rfl

/-- An error keeps the events that its page shows. -/
theorem State.record_sticky_of_set {s : State} {page i : Nat} (hi : i < 32) (h : bitAt (s.get (H.STICKY page)) i = true)
    (code info func ext last : Nat) : bitAt ((s.record page code info func ext last).get (H.STICKY page)) i = true := by
  rw [State.record_sticky _ _ _ _ _ _ _ hi, h, ite_self]

end Sys2Proof.Machine
end

section
/-!
Completion entries, event notices and queue freezes (R449, R454, R461-R463): what each changes of the host side.
-/

namespace Sys2Proof.Machine

open Sys2Proof.Laws

/-- A posted entry is added to those the host has not yet released; submission queues and commands stay. -/
theorem State.post_host (s : State) (e : Cqe) :
    (s.post e).host.cqes = s.host.cqes ++ [e] ∧ (s.post e).host.sqs = s.host.sqs ∧ (s.post e).host.cmds = s.host.cmds := by
  unfold State.post
  split
  · split <;> exact ⟨rfl, rfl, rfl⟩
  · split <;> exact ⟨rfl, rfl, rfl⟩

@[simp] theorem State.post_cqes (s : State) (e : Cqe) : (s.post e).host.cqes = s.host.cqes ++ [e] := (s.post_host e).1
@[simp] theorem State.post_sqs (s : State) (e : Cqe) : (s.post e).host.sqs = s.host.sqs := (s.post_host e).2.1
@[simp] theorem State.post_cmds (s : State) (e : Cqe) : (s.post e).host.cmds = s.host.cmds := (s.post_host e).2.2

theorem State.post_frame (s : State) (e : Cqe) : forget (2 ^ 31) (s.post e) = forget (2 ^ 31) s := by
  unfold State.post State.msi
  split
  · split <;> exact (set_host rfl _ _).trans (set_host rfl s _)
  · split <;> exact (set_host rfl _ _).trans (set_host rfl s _)

/-- An event's notice is posted or waits; submission queues and commands stay, and no posted entry is lost. -/
theorem State.raiseEvent_host (s : State) (e : AsyncEv) :
    (s.raiseEvent e).host.sqs = s.host.sqs ∧ (s.raiseEvent e).host.cmds = s.host.cmds
      ∧ s.host.cqes ⊆ (s.raiseEvent e).host.cqes := by
  unfold State.raiseEvent
  split
  · split <;> exact ⟨rfl, rfl, List.Subset.refl _⟩
  · split
    · split <;> exact ⟨rfl, rfl, List.Subset.refl _⟩
    · exact ⟨State.post_sqs .., State.post_cmds .., by rw [State.post_cqes]; exact List.subset_append_left ..⟩

@[simp] theorem State.commandError_sqs (s : State) (fn sq cid status nsid lba : Nat) :
    (s.commandError fn sq cid status nsid lba).host.sqs = s.host.sqs := State.record_sqs ..
@[simp] theorem State.commandError_cmds (s : State) (fn sq cid status nsid lba : Nat) :
    (s.commandError fn sq cid status nsid lba).host.cmds = s.host.cmds := State.record_cmds ..
@[simp] theorem State.commandError_cqes (s : State) (fn sq cid status nsid lba : Nat) :
    (s.commandError fn sq cid status nsid lba).host.cqes = s.host.cqes := State.record_cqes ..
@[simp] theorem State.commandError_time (s : State) (fn sq cid status nsid lba : Nat) :
    (s.commandError fn sq cid status nsid lba).time = s.time := State.record_time ..

/-- An admin command's completion posts its entry and changes no submission queue and no fetched command. -/
theorem State.completeAdmin_host (s : State) (c : Cmd) (status dw0 dw1 : Nat) :
    (s.completeAdmin c status dw0 dw1).host.cqes = s.host.cqes ++ [⟨c.fn, 0, 0, c.cid, status, dw0, dw1⟩]
      ∧ (s.completeAdmin c status dw0 dw1).host.sqs = s.host.sqs ∧ (s.completeAdmin c status dw0 dw1).host.cmds = s.host.cmds := by
  simp only [State.completeAdmin, State.post_cqes, State.post_sqs, State.post_cmds, apply_ite State.host, apply_ite HostSt.cqes,
    apply_ite HostSt.sqs, apply_ite HostSt.cmds, State.commandError_sqs, State.commandError_cmds, State.commandError_cqes, ite_self, and_self]

theorem State.mem_completeAdmin_cqes (s : State) (c : Cmd) (status dw0 dw1 : Nat) :
    (⟨c.fn, 0, 0, c.cid, status, dw0, dw1⟩ : Cqe) ∈ (s.completeAdmin c status dw0 dw1).host.cqes := by
  rw [(s.completeAdmin_host ..).1]
  exact List.mem_append_right _ (List.mem_singleton_self _)

@[simp] theorem State.completeAdmin_sqs (s : State) (c : Cmd) (status dw0 dw1 : Nat) :
    (s.completeAdmin c status dw0 dw1).host.sqs = s.host.sqs := (s.completeAdmin_host ..).2.1
@[simp] theorem State.completeAdmin_cmds (s : State) (c : Cmd) (status dw0 dw1 : Nat) :
    (s.completeAdmin c status dw0 dw1).host.cmds = s.host.cmds := (s.completeAdmin_host ..).2.2

@[simp] theorem State.post_get (s : State) (e : Cqe) (x : Fld) : (s.post e).get x = s.get x :=
  State.get_of_regs (keeps_regs (State.post_frame ..) rfl) x

/-- A completion that is no error changes no register. -/
@[simp] theorem State.completeAdmin_ok_get (s : State) (c : Cmd) (dw0 dw1 : Nat) (x : Fld) : (s.completeAdmin c 0 dw0 dw1).get x = s.get x :=
  State.post_get ..

/-- A completion with an error changes, beyond the pages' headers, the count of errors only. -/
theorem State.completeAdmin_get_beyond (s : State) (c : Cmd) (status dw0 dw1 : Nat) {x : Fld} (hx : Nat.ble 0x040 x.off = true)
    (he : x ≠ R.HOSTQ.ERRORS_COUNT) : (s.completeAdmin c status dw0 dw1).get x = s.get x := by
  rw [State.completeAdmin, State.post_get]
  split
  · rfl
  · rw [State.commandError, State.record_get_beyond _ _ _ _ _ _ _ hx, State.get_bump_other _ _ he, State.setHost_get]

end Sys2Proof.Machine
end

section
/-!
An instruction of a Crook core from its fetch to its end (R300, R304, R318, R338): what a fetch, the fills and spills, and the end of an
instruction change.
-/

namespace Sys2Proof.Machine

open Sys2Proof.Laws

/-! ### Fills and spills -/

/-- `y` is `x` with data entries moved between the hardware part and local memory. -/
def Ctx.DataMoved (x y : Ctx) : Prop :=
  y = { x with cost := y.cost, k := { x.k with ds := y.k.ds, dsp := y.k.dsp, mem := y.k.mem, spills := y.k.spills } }

/-- `y` is `x` with return entries moved between the hardware part and local memory. -/
def Ctx.ReturnMoved (x y : Ctx) : Prop :=
  y = { x with cost := y.cost, k := { x.k with rs := y.k.rs, rsp := y.k.rsp, mem := y.k.mem, spills := y.k.spills } }

theorem Core.foldl_heal_of_clean {k : Core} (hu : k.upsets = []) (ps : List CoreMem) : ps.foldl Core.heal k = k := by
  induction ps with
  | nil => rfl
  | cons p ps ih =>
    have hk : k.heal p = k := by
      cases k
      simp_all [Core.heal]
    rw [List.foldl_cons, hk, ih]

theorem Ctx.readLocal_of_clean {x : Ctx} (hu : x.k.upsets = []) (a n : Nat) : x.readLocal a n = .ok x := if_pos hu

theorem Ctx.writeLocal_of_clean {x : Ctx} (hu : x.k.upsets = []) (a n : Nat) : x.writeLocal a n = .ok x := if_pos hu

theorem Ctx.fillD_moved {x y : Ctx} {f n : Nat} (hu : x.k.upsets = []) (h : Ctx.fillD f n x = .ok y) : x.DataMoved y := by
  induction f generalizing x with
  | zero => cases h; rfl
  | succ f ih =>
    rw [Ctx.fillD] at h
    split at h
    · cases h; rfl
    · split at h
      · cases h
      · rw [Ctx.readLocal_of_clean hu] at h
        exact ih (x := x.fillD1) hu h

theorem Ctx.roomD_moved {x y : Ctx} {n m : Nat} (hu : x.k.upsets = []) (h : x.roomD n m = .ok y) : x.DataMoved y := by
  unfold Ctx.roomD at h
  split at h
  · cases h; rfl
  · split at h
    · cases h
    · cases h
      have hheal := Core.foldl_heal_of_clean (k := x.moved.k) hu (localPlaces x.k.dsp.toNat 64)
      simp only [Ctx.DataMoved, Ctx.spillD1, hheal]
      rfl

theorem Ctx.DataMoved.upsets {x y : Ctx} (h : x.DataMoved y) : y.k.upsets = x.k.upsets := by rw [h]

theorem Ctx.DataMoved.trans {x y z : Ctx} (h : x.DataMoved y) (g : y.DataMoved z) : x.DataMoved z := by
  rw [Ctx.DataMoved] at g ⊢
  rw [g, h]

/-- Making operands present and room for results only moves data entries, on a core without a memory error. -/
theorem Ctx.needD_moved {x y : Ctx} {n m : Nat} (hu : x.k.upsets = []) (h : x.needD n m = .ok y) : x.DataMoved y := by
  unfold Ctx.needD at h
  split at h
  · cases h
  next z hz =>
    have hm := Ctx.fillD_moved hu hz
    exact hm.trans (Ctx.roomD_moved (hm.upsets.trans hu) h)

theorem Ctx.ReturnMoved.upsets {x y : Ctx} (h : x.ReturnMoved y) : y.k.upsets = x.k.upsets := by rw [h]

theorem Ctx.ReturnMoved.trans {x y z : Ctx} (h : x.ReturnMoved y) (g : y.ReturnMoved z) : x.ReturnMoved z := by
  rw [Ctx.ReturnMoved] at g ⊢
  rw [g, h]

theorem Ctx.fillR_moved {x y : Ctx} {f n : Nat} (hu : x.k.upsets = []) (h : Ctx.fillR f n x = .ok y) : x.ReturnMoved y := by
  induction f generalizing x with
  | zero => cases h; rfl
  | succ f ih =>
    rw [Ctx.fillR] at h
    split at h
    · cases h; rfl
    · split at h
      · cases h
      · rw [Ctx.readLocal_of_clean hu] at h
        exact ih (x := x.fillR1) hu h

theorem Ctx.spillR1_moved {x : Ctx} (hu : x.k.upsets = []) : x.ReturnMoved x.spillR1 := by
  have hheal := Core.foldl_heal_of_clean (k := x.moved.k) hu (localPlaces x.k.rsp.toNat 72)
  simp only [Ctx.ReturnMoved, Ctx.spillR1, hheal]
  rfl

/-- The same of the return stack. -/
theorem Ctx.needR_moved {x y : Ctx} {n m : Nat} (hu : x.k.upsets = []) (h : x.needR n m = .ok y) : x.ReturnMoved y := by
  unfold Ctx.needR at h
  split at h
  · cases h
  next z hz =>
    have hm := Ctx.fillR_moved hu hz
    split at h
    · cases h; exact hm
    · split at h
      · cases h
      · cases h; exact hm.trans (Ctx.spillR1_moved (hm.upsets.trans hu))

/-! ### The fetch -/

/-- `y` is `x` after instruction fetches: caches, cycles and the free values drawn for host memory aside. -/
def Ctx.Fetched (x y : Ctx) : Prop :=
  y = { x with s := y.s, cost := y.cost, k := { x.k with icache := y.k.icache, utlb := y.k.utlb } }
    ∧ forget (2 ^ 2) y.s = forget (2 ^ 2) x.s

theorem Ctx.Fetched.trans {x y z : Ctx} (h : x.Fetched y) (g : y.Fetched z) : x.Fetched z := by
  obtain ⟨hy, hys⟩ := h
  obtain ⟨hz, hzs⟩ := g
  refine ⟨?_, hzs.trans hys⟩
  rw [hz, hy]

theorem Ctx.lookup_fetched {x y : Ctx} {va : Nat} {e : XEnt} (h : x.lookup va = some (e, y)) : x.Fetched y := by
  unfold Ctx.lookup at h
  split at h
  · cases h; exact ⟨rfl, rfl⟩
  · split at h
    · cases h
    · cases h; exact ⟨rfl, rfl⟩

theorem Ctx.meet_of_clean {x : Ctx} (hu : x.k.upsets = []) (p : CoreMem) : x.meet p = x := by simp [Ctx.meet, hu]

theorem Ctx.fillCost_fetched (x : Ctx) (t : Target) : x.Fetched (x.fillCost t) := by
  cases t <;> exact ⟨rfl, rfl⟩

theorem Ctx.fetchLine_fetched {x y : Ctx} {t : Target} {pa : Nat} (hu : x.k.upsets = []) (h : x.fetchLine t pa = .ok y) : x.Fetched y := by
  have hb : x.k.broken (.iline t (pa / 64)) = false := by simp [Core.broken, hu]
  simp only [Ctx.fetchLine, hb, Bool.false_eq_true, if_false, Ctx.meet_of_clean hu] at h
  split at h
  · cases h; exact ⟨rfl, rfl⟩
  · split at h
    · cases h
    · cases h
      exact Ctx.Fetched.trans ⟨rfl, rfl⟩ (Ctx.fillCost_fetched _ t)

theorem Ctx.Fetched.upsets {x y : Ctx} (h : x.Fetched y) : y.k.upsets = x.k.upsets := by rw [h.1]

theorem Ctx.fetch1_fetched {x y : Ctx} {a : Nat} (hu : x.k.upsets = []) (h : x.fetch1 a = .ok y) : x.Fetched y := by
  unfold Ctx.fetch1 at h
  split at h
  · cases h
  · split at h
    · cases h
    · split at h
      · cases h
      · split at h
        · cases h
        next e z hz =>
          have hm := Ctx.lookup_fetched hz
          split at h
          · exact hm.trans (Ctx.fetchLine_fetched (hm.upsets.trans hu) h)
          · cases h

theorem Ctx.fetch_fetched {x y : Ctx} {n a : Nat} (hu : x.k.upsets = []) (h : Ctx.fetch n a x = .ok y) : x.Fetched y := by
  induction n generalizing x a with
  | zero => cases h; exact ⟨rfl, rfl⟩
  | succ n ih =>
    rw [Ctx.fetch] at h
    split at h
    · cases h
    next z hz =>
      have hm := Ctx.fetch1_fetched hu hz
      exact hm.trans (ih (hm.upsets.trans hu) h)

/-- What an instruction works on once its parcels are fetched: the core of `s` with its caches and PC gone on. -/
structure State.Begun (s : State) (c : Fin 72) (x : Ctx) : Prop where
  eq : x = { s := x.s, c := c.val, cost := x.cost, late := none, hold := none, eccs := 0,
             k := { s.cores[c] with icache := x.k.icache, utlb := x.k.utlb, pc := x.k.pc } }
  state : forget (2 ^ 2) x.s = forget (2 ^ 2) s
  running : s.cores[c].state = .running
  clean : s.cores[c].upsets = []

theorem State.fetchedOn.begun {s : State} {c : Fin 72} {len cyc : Nat} {x : Ctx} (h : s.fetchedOn c len cyc x) : s.Begun c x := by
  obtain ⟨hrun, hu, z, hz, rfl⟩ := h
  obtain ⟨hk, hs⟩ := Ctx.fetch_fetched (x := ⟨s, c, s.cores[c], cyc, none, none, 0⟩) hu hz
  refine ⟨?_, hs, hrun, hu⟩
  rw [hk]

theorem State.fetchedOn.pc {s : State} {c : Fin 72} {len cyc : Nat} {x : Ctx} (h : s.fetchedOn c len cyc x) :
    x.k.pc = s.cores[c].pc + BitVec.ofNat 48 (2 * len) := by
  obtain ⟨-, -, z, -, rfl⟩ := h
  rfl

section
variable {s : State} {c : Fin 72} {x : Ctx}

theorem State.Begun.upsets (h : s.Begun c x) : x.k.upsets = [] := by
  rw [h.eq]
  exact h.clean

/-- A field of the core that a fetch leaves alone. -/
theorem State.Begun.core {α : Type} (h : s.Begun c x) (f : Core → α)
    (hf : ∀ (k : Core) (i : List DLine) (u : List XEnt) (p : BitVec 48), f { k with icache := i, utlb := u, pc := p } = f k) :
    f x.k = f s.cores[c] := by
  have hk : x.k = { s.cores[c] with icache := x.k.icache, utlb := x.k.utlb, pc := x.k.pc } := congrArg Ctx.k h.eq
  rw [hk, hf]

end

/-! ### The end of an instruction -/

section
variable {s : State} {c : Fin 72} {len cyc : Nat} {x : Ctx} {body : Body}

/-- An instruction that traps nowhere and does not sleep retires. -/
theorem State.insn_of_ok {y : Ctx} (h : s.fetchedOn c len cyc x) (hb : body x = .ok y) (hl : y.late = none) (hh : y.hold = none)
    (he : y.eccs = 0) : s.insn c len cyc body = y.retire c := by
  obtain ⟨hrun, -, z, hz, rfl⟩ := h
  simp only [State.insn, hrun, hz, hb, hl, hh, he, ne_eq, not_true_eq_false, if_false]
  rfl

/-- An instruction whose body traps, but for the trap that TRAP raises, returns to itself. -/
theorem State.insn_of_trap {t : Trap} (h : s.fetchedOn c len cyc x) (hb : body x = .error t) (ht : t.cause ≠ 0x13) :
    s.insn c len cyc body = s.trapped c s.cores[c] t s.cores[c].pc := by
  obtain ⟨hrun, -, z, hz, rfl⟩ := h
  simp only [State.insn, hrun, hz, hb, ht, ne_eq, not_true_eq_false, if_false]

end

theorem Ctx.retire_cores (y : Ctx) (c : Fin 72) :
    (y.retire c).cores = y.s.cores.set c { y.k with cycle := y.k.cycle + BitVec.ofNat 64 y.cost, insns := y.k.insns + 1 } := by
  unfold Ctx.retire
  split
  · exact keeps_cores (State.forget_hostActive (T := 0x490000020) rfl _) rfl
  · rfl

theorem Ctx.retire_core (y : Ctx) (c : Fin 72) :
    (y.retire c).cores[c] = { y.k with cycle := y.k.cycle + BitVec.ofNat 64 y.cost, insns := y.k.insns + 1 } := by
  simp [Ctx.retire_cores]

theorem Ctx.retire_core_other (y : Ctx) {c d : Fin 72} (h : d ≠ c) : (y.retire c).cores[d] = y.s.cores[d] := by
  simp only [Ctx.retire_cores, Fin.getElem_fin]
  exact Vector.getElem_set_ne _ _ (fun he => h (Fin.ext he.symm))

/-- The end of an instruction changes its core, and for a host program's core what shows that the host side is at work. -/
theorem Ctx.retire_frame (y : Ctx) (c : Fin 72) : forget 0x491000020 (y.retire c) = forget 0x491000020 y.s := Ctx.forget_retire rfl y c

/-- The fields of a core that no data or return entry, cache or count of an instruction holds. -/
def Core.fixed (k : Core) : Core :=
  { k with pc := 0, dsp := 0, rsp := 0, status := 0, ds := [], rs := [], mem := [], icache := [], utlb := [], spills := 0 }

/-- An instruction whose state is that of `s`, but for the free values drawn, and whose core keeps its fixed fields leaves the rest
alone. -/
theorem Ctx.retire_ranOn {s : State} {c : Fin 72} {y : Ctx} (hs : forget (2 ^ 2) y.s = forget (2 ^ 2) s)
    (hk : y.k.fixed = s.cores[c].fixed) (hrun : s.cores[c].state = .running) : s.ranOn (y.retire c) c := by
  have hr := y.retire_frame c
  have keep {α : Type} (f : Core → α) (hf : ∀ k : Core, f k.fixed = f k) : f y.k = f s.cores[c] := by rw [← hf, hk, hf]
  refine ⟨fun d hd => ?_, (keeps_mem hr rfl).trans (keeps_mem hs rfl), ?_, ?_, ?_, ?_, ?_, ?_, ?_⟩
  · rw [Ctx.retire_core_other y hd, keeps_cores hs rfl]
  · exact ⟨(keeps_media hr rfl).trans (keeps_media hs rfl), (keeps_array hr rfl).trans (keeps_array hs rfl),
      (keeps_nand hr rfl).trans (keeps_nand hs rfl), (keeps_take hr rfl).trans (keeps_take hs rfl),
      (keeps_gate hr rfl).trans (keeps_gate hs rfl), (keeps_keys hr rfl).trans (keeps_keys hs rfl),
      (keeps_jobs hr rfl).trans (keeps_jobs hs rfl), (keeps_trust hr rfl).trans (keeps_trust hs rfl),
      (keeps_ns hr rfl).trans (keeps_ns hs rfl), (keeps_time hr rfl).trans (keeps_time hs rfl),
      (keeps_pending hr rfl).trans (keeps_pending hs rfl)⟩
  all_goals rw [Ctx.retire_core]
  · exact ⟨keep Core.dsl fun _ => rfl, keep Core.dsh fun _ => rfl, keep Core.rsl fun _ => rfl, keep Core.rsh fun _ => rfl,
      keep Core.lp fun _ => rfl, keep Core.func fun _ => rfl⟩
  · exact ⟨keep Core.trapvec fun _ => rfl, keep Core.trapcause fun _ => rfl, keep Core.trappc fun _ => rfl⟩
  · exact keep Core.dcache fun _ => rfl
  · exact keep Core.prog fun _ => rfl
  · exact (keep Core.state fun _ => rfl).trans hrun
  · exact congrArg (· + 1) (keep Core.insns fun _ => rfl)

/-! ### What an instruction works on, at any point of its body -/

/-- A working context of an instruction on core `c` that has changed only entries, local memory and the counts of its core. -/
structure State.Working (s : State) (c : Fin 72) (z : Ctx) : Prop where
  state : forget (2 ^ 2) z.s = forget (2 ^ 2) s
  fixed : z.k.fixed = s.cores[c].fixed
  running : s.cores[c].state = .running
  clean : s.cores[c].upsets = []
  late : z.late = none
  hold : z.hold = none
  eccs : z.eccs = 0

section
variable {s : State} {c : Fin 72} {x y z : Ctx}

theorem State.Begun.working (h : s.Begun c x) : s.Working c x :=
  ⟨h.state, h.core Core.fixed fun _ _ _ _ => rfl, h.running, h.clean, by rw [h.eq], by rw [h.eq], by rw [h.eq]⟩

theorem State.Working.upsets (h : s.Working c z) : z.k.upsets = [] :=
  (congrArg Core.upsets h.fixed : z.k.fixed.upsets = s.cores[c].fixed.upsets).trans h.clean

/-- A further change of the core's entries, local memory and counts. -/
theorem State.Working.change (h : s.Working c y) (hs : z.s = y.s) (hk : z.k.fixed = y.k.fixed)
    (hend : z.late = y.late ∧ z.hold = y.hold ∧ z.eccs = y.eccs) : s.Working c z := by
  obtain ⟨hl, hh, he⟩ := hend
  exact ⟨hs ▸ h.state, hk.trans h.fixed, h.running, h.clean, hl.trans h.late, hh.trans h.hold, he.trans h.eccs⟩

theorem State.Working.needD (h : s.Working c y) {n m : Nat} (hz : y.needD n m = .ok z) : s.Working c z := by
  rw [Ctx.needD_moved h.upsets hz]
  exact h.change rfl rfl ⟨rfl, rfl, rfl⟩

theorem State.Working.needR (h : s.Working c y) {n m : Nat} (hz : y.needR n m = .ok z) : s.Working c z := by
  rw [Ctx.needR_moved h.upsets hz]
  exact h.change rfl rfl ⟨rfl, rfl, rfl⟩

theorem State.Working.rep (h : s.Working c y) (n : Nat) (out : List Word) : s.Working c (y.rep n out) := h.change rfl rfl ⟨rfl, rfl, rfl⟩

theorem State.Working.repR (h : s.Working c y) (n : Nat) (out : List (Word × Bool)) : s.Working c (y.repR n out) := h.change rfl rfl ⟨rfl, rfl, rfl⟩

theorem State.Working.spend (h : s.Working c y) (n : Nat) : s.Working c (y.spend n) := h.change rfl rfl ⟨rfl, rfl, rfl⟩

theorem State.Working.jump (h : s.Working c y) (pc : BitVec 48) : s.Working c { y with k := { y.k with pc := pc } } := h.change rfl rfl ⟨rfl, rfl, rfl⟩

theorem State.Working.write (h : s.Working c y) (m : List (Nat × Byte)) : s.Working c { y with k := { y.k with mem := m } } := h.change rfl rfl ⟨rfl, rfl, rfl⟩

theorem Ctx.DataMoved.rs_eq (h : x.DataMoved y) : y.k.rs = x.k.rs ∧ y.k.pc = x.k.pc ∧ y.s = x.s := by
  rw [h]
  exact ⟨rfl, rfl, rfl⟩

theorem Ctx.ReturnMoved.ds_eq (h : x.ReturnMoved y) : y.k.ds = x.k.ds ∧ y.k.pc = x.k.pc := by
  rw [h]
  exact ⟨rfl, rfl⟩

theorem State.Begun.entries (h : s.Begun c x) : x.k.ds = s.cores[c].ds ∧ x.k.rs = s.cores[c].rs ∧ x.k.mem = s.cores[c].mem :=
  ⟨h.core Core.ds fun _ _ _ _ => rfl, h.core Core.rs fun _ _ _ _ => rfl, h.core Core.mem fun _ _ _ _ => rfl⟩

/-- An instruction whose body ends so. -/
theorem State.fetchedOn.ends {len cyc : Nat} {body : Body} (h : s.fetchedOn c len cyc x) (hz : s.Working c z) (hb : body x = .ok z) :
    s.ranOn (s.insn c len cyc body) c ∧ (s.insn c len cyc body).cores[c].ds = z.k.ds ∧ (s.insn c len cyc body).cores[c].rs = z.k.rs
      ∧ (s.insn c len cyc body).cores[c].pc = z.k.pc ∧ (s.insn c len cyc body).cores[c].mem = z.k.mem := by
  rw [State.insn_of_ok h hb hz.late hz.hold hz.eccs]
  refine ⟨Ctx.retire_ranOn hz.state hz.fixed hz.running, ?_⟩
  rw [Ctx.retire_core]
  exact ⟨rfl, rfl, rfl, rfl⟩

/-- The same as a statement about the command that runs it. -/
theorem State.fetchedOn.ends_next {len cyc : Nat} {body : Body} {P : State → Prop} (h : s.fetchedOn c len cyc x) (hz : s.Working c z)
    (hb : body x = .ok z)
    (hP : ∀ t : State, s.ranOn t c → t.cores[c].ds = z.k.ds → t.cores[c].rs = z.k.rs → t.cores[c].pc = z.k.pc → t.cores[c].mem = z.k.mem → P t) :
    ∃ t : State, Host.Outcome.next (s.insn c len cyc body) = (.next t : Out) ∧ P t := by
  obtain ⟨hran, hds, hrs, hpc, hmem⟩ := h.ends hz hb
  exact ⟨_, rfl, hP _ hran hds hrs hpc hmem⟩

end

end Sys2Proof.Machine
end

section
/-!
Instructions that only replace entries of the data stack (R338, R341, R344, R347, R354).
-/

namespace Sys2Proof.Machine

open Sys2Proof.Laws

section
variable {s : State} {c : Fin 72} {len cyc : Nat} {x y : Ctx}

/-- Replacing data entries and going on at the next parcel. -/
theorem State.fetchedOn.gave (h : s.fetchedOn c len cyc x) (hm : x.DataMoved y) (n : Nat) (out : List Word) :
    s.gave ((y.rep n out).retire c) c y n out (s.cores[c].pc + BitVec.ofNat 48 (2 * len)) := by
  have hb := h.begun
  have hs : y.s = x.s := by rw [hm]
  have keep {α : Type} (f : Core → α)
      (hd : ∀ (k : Core) (d : List Word) (p : BitVec 17) (m : List (Nat × Byte)) (n : Nat), f { k with ds := d, dsp := p, mem := m, spills := n } = f k)
      (hf : ∀ (k : Core) (i : List DLine) (u : List XEnt) (p : BitVec 48), f { k with icache := i, utlb := u, pc := p } = f k) :
      f y.k = f s.cores[c] := by
    have hk := congrArg (fun z : Ctx => f z.k) hm
    exact (hk.trans (hd ..)).trans (hb.core f hf)
  have hpc : y.k.pc = x.k.pc := by rw [hm]
  have hrs : y.k.rs = s.cores[c].rs := keep Core.rs (fun _ _ _ _ _ => rfl) fun _ _ _ _ => rfl
  have hrsp : y.k.rsp = s.cores[c].rsp := keep Core.rsp (fun _ _ _ _ _ => rfl) fun _ _ _ _ => rfl
  have hst : y.k.status = s.cores[c].status := keep Core.status (fun _ _ _ _ _ => rfl) fun _ _ _ _ => rfl
  have hcy : y.k.cycle = s.cores[c].cycle := keep Core.cycle (fun _ _ _ _ _ => rfl) fun _ _ _ _ => rfl
  refine ⟨Ctx.retire_ranOn (by rw [show (y.rep n out).s = y.s from rfl, hs]; exact hb.state) ?_ hb.running, ?_, ?_, ?_, ?_, ?_, ?_, ?_⟩
  · exact keep Core.fixed (fun _ _ _ _ _ => rfl) fun _ _ _ _ => rfl
  all_goals rw [Ctx.retire_core]
  · rfl
  · rfl
  · exact ⟨hrs, hrsp⟩
  · rfl
  · exact hst
  · exact hpc.trans h.pc
  · exact congrArg (· + BitVec.ofNat 64 y.cost) hcy

theorem State.fetchedOn.needD_moved (h : s.fetchedOn c len cyc x) {n m : Nat} (hy : x.needD n m = .ok y) : x.DataMoved y :=
  Ctx.needD_moved h.begun.upsets hy

/-- An instruction whose body comes to entries replaced on `y`. -/
theorem State.fetchedOn.gives (h : s.fetchedOn c len cyc x) (hm : x.DataMoved y) {body : Body} {n : Nat} {out : List Word}
    (hb : body x = .ok (y.rep n out)) : s.gave (s.insn c len cyc body) c y n out (s.cores[c].pc + BitVec.ofNat 48 (2 * len)) := by
  have hx := h.begun.eq
  have hlate : y.late = none := by rw [hm, hx]
  have hhold : y.hold = none := by rw [hm, hx]
  have heccs : y.eccs = 0 := by rw [hm, hx]
  rw [State.insn_of_ok h hb hlate hhold heccs]
  exact h.gave hm n out

theorem Ctx.operate_of_needD {n m : Nat} (hy : x.needD n m = .ok y) (f : Ctx → List Word) : x.operate n m f = .ok (y.rep n (f y)) := by
  rw [Ctx.operate, hy]

theorem guardMod_of_ok {ok : Bool} (h : ok = true) (b : Body) : guardMod ok b = b := by
  funext x
  rw [guardMod, if_pos h]

/-- An instruction that takes `n` entries and puts others, with room for `m`. -/
theorem State.fetchedOn.operates (h : s.fetchedOn c len cyc x) {n m : Nat} (hy : x.needD n m = .ok y) (f : Ctx → List Word) :
    s.gave (s.insn c len cyc fun x => x.operate n m f) c y n (f y) (s.cores[c].pc + BitVec.ofNat 48 (2 * len)) :=
  h.gives (h.needD_moved hy) (Ctx.operate_of_needD hy f)

end

end Sys2Proof.Machine
end

section
/-!
The lanes of an entry (R347, R348): what each lane of a lane-wise result is.
-/

namespace Sys2Proof.Machine

/-! ### Lanes of an entry -/

theorem laneBits_mul (w : Lane) : laneBits w * (64 / laneBits w) = 64 := by cases w <;> rfl

theorem laneBits_pos (w : Lane) : 0 < laneBits w := by cases w <;> decide

theorem lanesOf_eq (w : Lane) (v : Word) : lanesOf w v = (List.range (64 / laneBits w)).map (laneAt w v) := rfl

theorem laneAt_lt (w : Lane) (v : Word) (i : Nat) : laneAt w v i < 2 ^ laneBits w := Nat.mod_lt _ (Nat.two_pow_pos _)

@[simp] theorem laneAt_mod (w : Lane) (v : Word) (i : Nat) : laneAt w v i % 2 ^ laneBits w = laneAt w v i := Nat.mod_eq_of_lt (laneAt_lt ..)

/-- Bits `k` to `k + n` of a number are those of its low `m` bits, when all lie below `m`. -/
theorem bits_mod_two_pow (v : Nat) {k n m : Nat} (h : k + n ≤ m) : bits (v % 2 ^ m) k n = bits v k n := by
  refine Nat.eq_of_testBit_eq fun j => ?_
  simp only [bits, Nat.testBit_mod_two_pow, Nat.testBit_div_two_pow]
  by_cases hj : j < n
  · have : j + k < m := by omega
    simp [hj, this]
  · simp [hj]

/-- Numbers of one width, packed side by side, first the lowest. -/
theorem bits_packed (b : Nat) (ls : List Nat) (i : Nat) :
    bits (ls.foldr (fun l v => l % 2 ^ b + v * 2 ^ b) 0) (b * i) b = ls.getD i 0 % 2 ^ b := by
  induction ls generalizing i with
  | nil => simp [bits]
  | cons l ls ih =>
    have hpos := Nat.two_pow_pos b
    cases i with
    | zero => simp [bits]
    | succ i =>
      have hdiv : (l % 2 ^ b + ls.foldr (fun l v => l % 2 ^ b + v * 2 ^ b) 0 * 2 ^ b) / 2 ^ b
          = ls.foldr (fun l v => l % 2 ^ b + v * 2 ^ b) 0 := by
        rw [Nat.add_mul_div_right _ _ hpos, Nat.div_eq_of_lt (Nat.mod_lt _ hpos), Nat.zero_add]
      rw [List.foldr_cons, List.getD_cons_succ, ← ih i, bits, bits, Nat.mul_succ, Nat.add_comm (b * i), Nat.pow_add, ← Nat.div_div_eq_div_mul, hdiv]

/-- Lane `i` of an entry made of lanes. -/
theorem laneAt_ofLanes (w : Lane) (ls : List Nat) {i : Nat} (h : i < 64 / laneBits w) :
    laneAt w (ofLanes w ls) i = ls.getD i 0 % 2 ^ laneBits w := by
  have hfits : laneBits w * i + laneBits w ≤ 64 := by
    have := Nat.mul_le_mul_left (laneBits w) h
    rwa [Nat.mul_succ, laneBits_mul] at this
  rw [laneAt, ofLanes, BitVec.toNat_ofNat, bits_mod_two_pow _ hfits, bits_packed]

theorem laneAt_lane1 (w : Lane) (f : Nat → Nat) (a : Word) {i : Nat} (h : i < 64 / laneBits w) :
    laneAt w (lane1 w f a) i = f (laneAt w a i) % 2 ^ laneBits w := by
  rw [lane1, laneAt_ofLanes w _ h, lanesOf_eq]
  simp [List.getD_eq_getElem?_getD, h]

theorem laneAt_lane2 (w : Lane) (f : Nat → Nat → Nat) (a b : Word) {i : Nat} (h : i < 64 / laneBits w) :
    laneAt w (lane2 w f a b) i = f (laneAt w a i) (laneAt w b i) % 2 ^ laneBits w := by
  rw [lane2, laneAt_ofLanes w _ h, lanesOf_eq, lanesOf_eq]
  simp [List.getD_eq_getElem?_getD, h]

/-! ### Integers as lanes -/

theorem wrapInt_cast (n : Nat) (i : Int) : (wrapInt n i : Int) = i % (2 : Int) ^ n :=
  Int.toNat_of_nonneg (Int.emod_nonneg _ (by positivity))

theorem wrapInt_lt (n : Nat) (i : Int) : wrapInt n i < 2 ^ n := by
  have h := Int.emod_lt_of_pos i (show (0 : Int) < 2 ^ n by positivity)
  rw [← wrapInt_cast] at h
  exact_mod_cast h

@[simp] theorem wrapInt_mod (n : Nat) (i : Int) : wrapInt n i % 2 ^ n = wrapInt n i := Nat.mod_eq_of_lt (wrapInt_lt n i)

theorem narrow_eq_wrapInt (w : Lane) (s t : Bool) (r : Int) : ∃ i, narrow w s t r = wrapInt (laneBits w) i := by
  cases t <;> cases s <;> exact ⟨_, rfl⟩

@[simp] theorem narrow_mod (w : Lane) (s t : Bool) (r : Int) : narrow w s t r % 2 ^ laneBits w = narrow w s t r := by
  obtain ⟨i, hi⟩ := narrow_eq_wrapInt w s t r
  rw [hi, wrapInt_mod]

/-- A lane's narrowed result is the integer wrapped, or clamped. -/
theorem narrow_cast (m : OpMod) (r : Int) : (narrow m.w m.s m.t r : Int) = laneOfInt m r := by
  obtain ⟨w, s, t⟩ := m
  cases t <;> cases s <;> simp [narrow, laneOfInt, wrapInt_cast]

theorem laneOfInt_unclamped (m : OpMod) (r : Int) : laneOfInt { m with t := false } r = r % (2 : Int) ^ laneBits m.w := rfl

theorem laneAt_laneInt (m : OpMod) (f : Int → Int → Int) (a b : Word) {i : Nat} (h : i < 64 / laneBits m.w) :
    (laneAt m.w (laneInt m f a b) i : Int) = laneOfInt m (f (laneVal m.w m.s (laneAt m.w a i)) (laneVal m.w m.s (laneAt m.w b i))) := by
  rw [laneInt, laneAt_lane2 _ _ _ _ h, narrow_mod, narrow_cast]

end Sys2Proof.Machine
end

section
/-!
Writes of a command register (R33-R36): what a write that is allowed, refused or denied comes to; and registers of one page beside another's
header.
-/

namespace Sys2Proof.Machine

open Sys2Proof.Laws

/-! ### The header of one page and the registers of another -/

section
variable (s : State) {x : Fld} {page : Nat}

theorem State.pulse_get_of_page (h : x.page ≠ page) (bit : Nat) : (s.pulse page bit).get x = s.get x :=
  State.pulse_get_other s page bit (fun e => h (congrArg Fld.page e)) (fun e => h (congrArg Fld.page e))

theorem State.record_get_of_page (h : x.page ≠ page) (code info func ext last : Nat) :
    (s.record page code info func ext last).get x = s.get x := by
  have hne (y : Fld) (hy : y.page = page) : x ≠ y := fun e => h ((congrArg Fld.page e).trans hy)
  by_cases hv : s.get (H.VALID page) = 0
  · rw [State.record_get_first hv _ _ _ _ _ (hne _ rfl)]
    simp only [State.get_bump_other _ _ (hne (H.ERRS page) rfl), State.get_bump_other _ _ (hne (H.COUNT page) rfl),
      State.get_put_other _ _ (hne (H.VALID page) rfl), State.get_put_other _ _ (hne (H.INFO page) rfl),
      State.get_put_other _ _ (hne (H.CODE page) rfl)]
  · rw [State.record_get_later hv _ _ _ _ _ (hne _ rfl), State.get_bump_other _ _ (hne (H.ERRS page) rfl)]

/-- A record leaves the words of a header below STICKY alone. -/
theorem State.record_get_below (h : x.off < 0x018) (code info func ext last : Nat) :
    (s.record page code info func ext last).get x = s.get x := by
  have hne (y : Fld) (hy : 0x018 ≤ y.off) : x ≠ y := fun e => by
    rw [e] at h
    omega
  by_cases hv : s.get (H.VALID page) = 0
  · rw [State.record_get_first hv _ _ _ _ _ (hne _ (le_refl 0x018))]
    simp only [State.get_bump_other _ _ (hne (H.ERRS page) (by decide : 0x018 ≤ 0x020)),
      State.get_bump_other _ _ (hne (H.COUNT page) (by decide : 0x018 ≤ 0x01C)),
      State.get_put_other _ _ (hne (H.VALID page) (by decide : 0x018 ≤ 0x020)),
      State.get_put_other _ _ (hne (H.INFO page) (by decide : 0x018 ≤ 0x024)),
      State.get_put_other _ _ (hne (H.CODE page) (by decide : 0x018 ≤ 0x020))]
  · rw [State.record_get_later hv _ _ _ _ _ (hne _ (le_refl 0x018)), State.get_bump_other _ _ (hne (H.ERRS page) (by decide : 0x018 ≤ 0x020))]

end

/-! ### A write of a command register -/

section
variable {s : State} {o : Origin} {page off v : Nat} {legal busy : Bool} {deny act : State → State}

theorem State.holds_operator_of_installer (h : s.holds o .installer = true) : s.holds o .operator = true := by
  simp only [State.holds, Bool.or_eq_true] at h ⊢
  tauto

theorem State.meets_of_installer (h : s.holds o .installer = true) (need : RoleReq) : s.meets o need = true := by
  cases need with
  | none => rfl
  | oper => exact State.holds_operator_of_installer h
  | inst => exact h
  | instOrMaker => exact h

theorem State.meets_of_operator {need : RoleReq} (h : s.holds o .operator = true) (hn : need = .oper ∨ need = .none) : s.meets o need = true := by
  rcases hn with rfl | rfl
  · exact h
  · rfl

/-- The part of the trust state that an access leaves alone: OTP and where its present generations lie. -/
def State.secrets (s : State) : List (Nat × Byte) × Option Nat × Option Nat := (s.trust.otp, s.trust.makerGen, s.trust.instGen)

theorem State.auditWrite_secrets (s : State) (o : Origin) (page off v old result : Nat) : (s.auditWrite o page off v old result).secrets = s.secrets := by
  have hsync (t : State) : t.auditSync.secrets = t.secrets := by
    unfold State.auditSync
    split <;> rfl
  exact hsync _

/-- `t` is `s` as a register access of an origin left it: accessed low words and refusal dropped, the audit log gone on. -/
def State.Accessed (s t : State) : Prop := forget 0x800000A80 t = forget 0x800000A80 s ∧ t.refusal = none ∧ t.secrets = s.secrets

theorem State.Accessed.get {t : State} (h : s.Accessed t) (x : Fld) : t.get x = s.get x := State.get_of_regs (keeps_regs h.1 rfl) x

/-- A legal write by an origin that may make it reaches the command's action, or its denial where the command is busy. -/
theorem State.regCmd_meets (hp : s.powered = true) (hr : s.reaches o page = true) (hm : s.meets o (needOf (rowsAt page off)) = true)
    (hl : legal = true) : ∃ t : State, s.Accessed t ∧ s.regCmd o page off v legal busy deny act = if busy then deny t else act t := by
  have hm' : ({ s.dropLow o page with refusal := none } : State).meets o (needOf (rowsAt page off)) = true := hm
  subst hl
  by_cases hn : needOf (rowsAt page off) = .none
  · refine ⟨{ s.dropLow o page with refusal := none }, ⟨rfl, rfl, rfl⟩, ?_⟩
    rw [hn] at hm'
    simp [State.regCmd, State.regCmdBy, hp, hr, hm', hn]
  · refine ⟨({ s.dropLow o page with refusal := none } : State).auditWrite o page off v
      (({ s.dropLow o page with refusal := none } : State).word o page off) (b2n busy), ⟨?_, ?_, ?_⟩, ?_⟩
    · exact State.forget_auditWrite (T := 0x800000A80) rfl ..
    · exact keeps_refusal (State.forget_auditWrite (T := 0x800000800) rfl ..) rfl
    · exact State.auditWrite_secrets ..
    · simp [State.regCmd, State.regCmdBy, hp, hr, hm', hn]

theorem State.regCmd_acts (hp : s.powered = true) (hr : s.reaches o page = true) (hm : s.meets o (needOf (rowsAt page off)) = true)
    (hl : legal = true) (hb : busy = false) : ∃ t : State, s.Accessed t ∧ s.regCmd o page off v legal busy deny act = act t := by
  obtain ⟨t, ht, h⟩ := State.regCmd_meets (v := v) (busy := busy) (deny := deny) (act := act) hp hr hm hl
  exact ⟨t, ht, h.trans (if_neg (by simp [hb]))⟩

theorem State.regCmd_denies (hp : s.powered = true) (hr : s.reaches o page = true) (hm : s.meets o (needOf (rowsAt page off)) = true)
    (hl : legal = true) (hb : busy = true) : ∃ t : State, s.Accessed t ∧ s.regCmd o page off v legal busy deny act = deny t := by
  obtain ⟨t, ht, h⟩ := State.regCmd_meets (v := v) (busy := busy) (deny := deny) (act := act) hp hr hm hl
  exact ⟨t, ht, h.trans (if_pos hb)⟩

/-- A reserved value that the origin may write is refused (R5). -/
theorem State.regCmd_of_illegal (hp : s.powered = true) (hr : s.reaches o page = true) (hm : s.meets o (needOf (rowsAt page off)) = true)
    (hl : legal = false) : ∃ t : State, s.Accessed t ∧ s.regCmd o page off v legal busy deny act = t.refuseAccess o page off 1 := by
  have hm' : ({ s.dropLow o page with refusal := none } : State).meets o (needOf (rowsAt page off)) = true := hm
  refine ⟨{ s.dropLow o page with refusal := none }, ⟨rfl, rfl, rfl⟩, ?_⟩
  simp [State.regCmd, State.regCmdBy, hp, hr, hm', hl]

/-- A write by an origin without the role is refused (R4, R595). -/
theorem State.regCmd_unmet (hp : s.powered = true) (hr : s.reaches o page = true) (hm : s.meets o (needOf (rowsAt page off)) = false) :
    forget 0xC80000EA0 (s.regCmd o page off v legal busy deny act) = forget 0xC80000EA0 s := by
  have hm' : ({ s.dropLow o page with refusal := none } : State).meets o (needOf (rowsAt page off)) = false := hm
  simp only [State.regCmd, State.regCmdBy, hp, hr, hm', Bool.not_true, Bool.not_false, Bool.true_or, if_true, Bool.false_eq_true, if_false]
  rw [State.forget_refuseAccess rfl]
  split
  · rfl
  · exact State.forget_auditLocked rfl ..

/-- Whatever the action keeps, a write of a command register keeps, the record of a refusal aside. -/
theorem State.regCmd_refusal_cases : s.regCmd o page off v legal busy deny act = s
    ∨ (∃ t, forget 0xC80000EA0 t = forget 0xC80000EA0 s ∧ s.regCmd o page off v legal busy deny act = t)
    ∨ ∃ t, s.Accessed t ∧ s.regCmd o page off v legal busy deny act = if busy then deny t else act t := by
  by_cases hp : s.powered = true
  swap
  · exact .inl (by simp [State.regCmd, State.regCmdBy, hp])
  by_cases hr : s.reaches o page = true
  swap
  · refine .inr (.inl ⟨s.noPage o off, State.forget_noPage rfl .., ?_⟩)
    simp [State.regCmd, State.regCmdBy, hp, hr]
  by_cases hm : s.meets o (needOf (rowsAt page off)) = true
  swap
  · exact .inr (.inl ⟨_, State.regCmd_unmet hp hr (Bool.eq_false_iff.mpr hm), rfl⟩)
  cases legal with
  | false =>
    refine .inr (.inl ⟨_, ?_, rfl⟩)
    have hm' : ({ s.dropLow o page with refusal := none } : State).meets o (needOf (rowsAt page off)) = true := hm
    simp only [State.regCmd, State.regCmdBy, hp, hr, hm', Bool.not_true, Bool.not_false, Bool.or_self, if_true, Bool.false_eq_true, if_false]
    exact State.forget_refuseAccess rfl ..
  | true => exact .inr (.inr (State.regCmd_meets hp hr hm rfl))

theorem State.refuseBlock_refusal (s : State) (o : Origin) (page code info : Nat) : (s.refuseBlock o page code info).refusal = some code :=
  State.record_refusal ..

end

end Sys2Proof.Machine
end

section
/-!
Spills and fills of the data stack (R303-R305, R318): a fill reads local memory, so an uncorrectable memory error in the spilled block traps
MEM_ECC, which is neither DS_UNDERFLOW nor DS_OVERFLOW.
-/

namespace Sys2Proof.Machine

/-- A core with eight entries spilled at address 0 and none in hardware; the first word of the spilled block holds an uncorrectable error. -/
def brokenSpillCore : Core :=
  { Core.off with ds := [], dsl := 0, dsp := 64, dsh := 64, mem := [], upsets := [⟨.word 0, true⟩] }

/-- An instruction about to work on that core. -/
def brokenSpill : Ctx := ⟨State.reset, 0, brokenSpillCore, 0, none, none, 0⟩

/-- The fill of an entry from the broken block traps MEM_ECC. -/
theorem brokenSpill_needD : brokenSpill.needD 1 0 = .error trapEcc := by
  have hfill : Ctx.fillD 5 1 brokenSpill = .error trapEcc := rfl
  rw [Ctx.needD, hfill]

/-- Refutes O25: with an uncorrectable error in the spilled block, which no premise excludes, a fill traps MEM_ECC (R318). -/
theorem not_spillsKeepTheStack : ¬ Obligations.SpillsKeepTheStack := by
  unfold Obligations.SpillsKeepTheStack
  intro h
  have htrap := h brokenSpill 1 0 (by decide) (by decide) rfl (by decide) (by decide) (by decide) (by decide) (by decide)
  rw [brokenSpill_needD] at htrap
  revert htrap
  decide

end Sys2Proof.Machine
end

section
/-!
Registers that an operation drops (R24, R499): those it keeps read as before, those it drops read their reset value.
-/

namespace Sys2Proof.Machine

/-- What every step of a fold keeps, the fold keeps. -/
theorem foldl_keeps {σ α β : Type} (view : σ → α) {g : σ → β → σ} (h : ∀ s x, view (g s x) = view s) (l : List β) (s : σ) :
    view (l.foldl g s) = view s := by
  induction l generalizing s with
  | nil => rfl
  | cons x l ih => rw [List.foldl_cons, ih, h]

/-- What is found in a list is found changed after the change of all that are alike. -/
theorem find?_map_if {α : Type} (p : α → Bool) {g : α → α} (hg : ∀ y, p y = true → p (g y) = true) (l : List α) :
    (l.map fun y => if p y then g y else y).find? p = (l.find? p).map g := by
  have hp : p ∘ (fun y => if p y then g y else y) = p := by
    funext y
    by_cases hy : p y = true
    · rw [Function.comp_apply, if_pos hy, hg y hy, hy]
    · rw [Function.comp_apply, if_neg hy]
  rw [List.find?_map, hp]
  cases h : l.find? p with
  | none => rfl
  | some y => rw [Option.map_some, Option.map_some, if_pos (List.find?_some h)]

theorem assoc_filter_of_kept {α β : Type} [DecidableEq α] (l : List (α × β)) (keep : α → Bool) {a : α} (h : keep a = true) :
    assoc (l.filter fun p => keep p.1) a = assoc l a := by
  induction l with
  | nil => rfl
  | cons x l ih =>
    by_cases hx : keep x.1 = true
    · rw [List.filter_cons_of_pos (p := fun p : α × β => keep p.1) hx]
      show (if x.1 = a then some x.2 else _) = if x.1 = a then some x.2 else _
      rw [ih]
    · rw [List.filter_cons_of_neg (p := fun p : α × β => keep p.1) hx, ih]
      show _ = if x.1 = a then some x.2 else assoc l a
      rw [if_neg (show ¬ x.1 = a from fun e => hx (by rw [e]; exact h))]

theorem assoc_filter_of_dropped {α β : Type} [DecidableEq α] (l : List (α × β)) (keep : α → Bool) {a : α} (h : keep a = false) :
    assoc (l.filter fun p => keep p.1) a = none := by
  induction l with
  | nil => rfl
  | cons x l ih =>
    by_cases hx : keep x.1 = true
    · rw [List.filter_cons_of_pos (p := fun p : α × β => keep p.1) hx]
      show (if x.1 = a then some x.2 else _) = none
      rw [ih, if_neg (show ¬ x.1 = a from fun e => absurd (e ▸ hx) (by rw [h]; decide))]
    · rw [List.filter_cons_of_neg (p := fun p : α × β => keep p.1) hx, ih]

theorem State.unput_get_of_kept (s : State) {keep : Fld → Bool} {x : Fld} (h : keep x = true) : (s.unput keep).get x = s.get x := by
  show (match assoc (s.regs.filter fun p => keep p.1) x with | some v => v | none => resetOf x) = _
  rw [assoc_filter_of_kept s.regs keep h]
  rfl

theorem State.unput_get_of_dropped (s : State) {keep : Fld → Bool} {x : Fld} (h : keep x = false) : (s.unput keep).get x = resetOf x := by
  show (match assoc (s.regs.filter fun p => keep p.1) x with | some v => v | none => resetOf x) = _
  rw [assoc_filter_of_dropped s.regs keep h]

end Sys2Proof.Machine
end

section
/-!
Flash channels (R184-R215).
-/

namespace Sys2Proof.Machine

open Sys2Proof.Laws

/-! ### Training starts -/

/-- A channel that is off starts training (R184). -/
def State.trainIfOff (t : State) (c : Nat) : State :=
  if t.get (R.NAND.CH_STATUS_STATE c) = 0 then t.puts [(R.NAND.CH_STATUS_STATE c, 1), (R.NAND.CH_STATUS_PWR_EN c, 1)] else t

theorem State.trainIfOff_get_of_page (t : State) (c : Nat) {x : Fld} (h : x.page ≠ 0x80 + c) : (t.trainIfOff c).get x = t.get x := by
  have hne {y : Fld} (hy : y.page = 0x80 + c) : x ≠ y := fun e => h ((congrArg Fld.page e).trans hy)
  unfold State.trainIfOff
  split
  · rw [State.puts_cons, State.puts_cons, State.puts_nil, State.get_put_other _ _ (hne rfl), State.get_put_other _ _ (hne rfl)]
  · rfl

theorem State.trainIfOff_get (t : State) (c : Nat) :
    (t.get (R.NAND.CH_STATUS_STATE c) = 0 → (t.trainIfOff c).get (R.NAND.CH_STATUS_STATE c) = 1 ∧ (t.trainIfOff c).get (R.NAND.CH_STATUS_PWR_EN c) = 1)
    ∧ (t.get (R.NAND.CH_STATUS_STATE c) ≠ 0 → (t.trainIfOff c).get (R.NAND.CH_STATUS_STATE c) = t.get (R.NAND.CH_STATUS_STATE c)) := by
  unfold State.trainIfOff
  refine ⟨fun h => ?_, fun h => ?_⟩
  · rw [if_pos h, State.puts_cons, State.puts_cons, State.puts_nil, State.get_put_of_place _ _ rfl, State.get_put_same, State.get_put_same]
    exact ⟨rfl, rfl⟩
  · rw [if_neg h]

theorem State.foldl_trainIfOff_get {c : Nat} {l : List Nat} (hc : c ∈ l) (hl : l.Nodup) (s : State) :
    (s.get (R.NAND.CH_STATUS_STATE c) = 0 → (l.foldl State.trainIfOff s).get (R.NAND.CH_STATUS_STATE c) = 1
      ∧ (l.foldl State.trainIfOff s).get (R.NAND.CH_STATUS_PWR_EN c) = 1)
    ∧ (s.get (R.NAND.CH_STATUS_STATE c) ≠ 0 → (l.foldl State.trainIfOff s).get (R.NAND.CH_STATUS_STATE c) = s.get (R.NAND.CH_STATUS_STATE c)) := by
  have hkeep (l : List Nat) (hn : c ∉ l) (t : State) {x : Fld} (hx : x.page = 0x80 + c) : (l.foldl State.trainIfOff t).get x = t.get x := by
    induction l generalizing t with
    | nil => rfl
    | cons d l ih =>
      have hd : x.page ≠ 0x80 + d := fun e => hn (by rw [show c = d by omega]; exact List.mem_cons_self)
      rw [List.foldl_cons, ih (fun h => hn (List.mem_cons_of_mem _ h)), State.trainIfOff_get_of_page _ _ hd]
  induction l generalizing s with
  | nil => cases hc
  | cons d l ih =>
    obtain ⟨hd, hl⟩ := List.nodup_cons.mp hl
    rw [List.foldl_cons]
    rcases List.mem_cons.mp hc with rfl | hc
    · rw [hkeep l hd _ (x := R.NAND.CH_STATUS_STATE c) rfl, hkeep l hd _ (x := R.NAND.CH_STATUS_PWR_EN c) rfl]
      exact s.trainIfOff_get c
    · have hne : (R.NAND.CH_STATUS_STATE c).page ≠ 0x80 + d := fun e => hd (by
        rw [← show c = d from Nat.add_left_cancel (n := 0x80) e]; exact hc)
      have := ih hc hl (s.trainIfOff d)
      rw [State.trainIfOff_get_of_page _ _ hne] at this
      exact this

theorem exec_nandTrainStart (s : State) : exec .nandTrainStart s = .next ((List.range 32).foldl State.trainIfOff s) := rfl

/-! ### Training ends -/

/-- Parameter pages of the same part agree whatever other registers say. -/
theorem State.population_congr {s t : State} (hr : ∀ c, t.get (R.NAND.CH_STATUS_DIES c) = s.get (R.NAND.CH_STATUS_DIES c))
    (hn : t.nand.part = s.nand.part) (c : Nat) (parts : List NandPart) : t.population c parts = s.population c parts := by
  unfold State.population
  simp only [hr, hn]

theorem State.population_length {s : State} {c : Nat} {parts : List NandPart} {part : NandPart} (h : s.population c parts = some part) :
    parts.length ∈ [1, 2, 4, 8, 16] := by
  cases parts with
  | nil => cases h
  | cons p ps =>
    obtain ⟨hc, -⟩ := Option.ite_none_right_eq_some.mp h
    simp only [Bool.and_eq_true, List.contains_iff_mem] at hc
    exact hc.1.1.1.1

/-- The channel's registers after its swizzle was learned (R189). -/
def State.swizzled (s : State) (c : Nat) (p : List Nat) : State :=
  s.puts [(R.NAND.SWIZZLE_MAP c, p.zipIdx.foldl (fun v x => v + x.1 * 8 ^ x.2) 0), (R.NAND.SWIZZLE_LEARNED c, 1)]

theorem State.swizzled_get (s : State) (c : Nat) (p : List Nat) {x : Fld} (hx : x.off ≠ 0x048) : (s.swizzled c p).get x = s.get x := by
  have hne {y : Fld} (hy : y.off = 0x048) : x ≠ y := fun e => hx ((congrArg Fld.off e).trans hy)
  rw [State.swizzled, State.puts_cons, State.puts_cons, State.puts_nil, State.get_put_other _ _ (hne rfl), State.get_put_other _ _ (hne rfl)]

/-- The channel once its parameter pages agree (R187, R193): its part, its bad blocks and its dies. -/
def State.populated (s : State) (c : Nat) (part : NandPart) (n : Nat) (bad : List (Nat × Nat)) : State :=
  let marked := (s.nand.factoryBad.filter fun b => dieChannel b.1 != c) ++ bad.map fun b => (c * 16 + b.1, b.2)
  let t := s.setNand fun x => { x with part := some part, factoryBad := marked }.sent c (List.replicate n .readParameterPage)
  (t.puts [(R.NAND.CH_STATUS_DIES c, n), (R.NAND.DIE_PRESENT_PRESENT c, 2 ^ n - 1)]).showCode

theorem State.showCode_get (s : State) {x : Fld} (h1 : x.off = 0x040 → x.lo ≠ 16) (h2 : x.off ≠ 0x05C) : s.showCode.get x = s.get x := by
  unfold State.showCode
  split
  · rfl
  · refine foldl_keeps (State.get · x) (fun t d => ?_) _ s
    rw [State.puts_cons, State.puts_cons, State.puts_cons, State.puts_nil, State.get_put_other _ _ fun e => h2 (congrArg Fld.off e),
      State.get_put_other _ _ fun e => h2 (congrArg Fld.off e), State.get_put_other]
    exact fun e => h1 (congrArg Fld.off e) (congrArg Fld.lo e)

theorem State.populated_nand (s : State) (c : Nat) (part : NandPart) (n : Nat) (bad : List (Nat × Nat)) :
    (s.populated c part n bad).nand.part = some part :=
  (congrArg NandSt.part (keeps_nand (State.forget_showCode (T := 0x20) rfl _) rfl)).trans rfl

theorem State.populated_media (s : State) (c : Nat) (part : NandPart) (n : Nat) (bad : List (Nat × Nat)) :
    (s.populated c part n bad).media = s.media :=
  (keeps_media (State.forget_showCode (T := 0x20) rfl _) rfl).trans rfl

theorem State.populated_get_DIES (s : State) (c : Nat) (part : NandPart) (n : Nat) (bad : List (Nat × Nat)) :
    (s.populated c part n bad).get (R.NAND.CH_STATUS_DIES c) = n % 2 ^ 5 := by
  simp only [State.populated]
  rw [State.showCode_get _ (fun _ => (by decide : (8 : Nat) ≠ 16)) (by decide : (0x040 : Nat) ≠ 0x05C), State.puts_cons, State.puts_cons, State.puts_nil, State.get_put_of_place _ _ rfl,
    State.get_put_same]
  rfl

theorem State.populated_get_MAX_RATE (s : State) (c : Nat) (part : NandPart) (n : Nat) (bad : List (Nat × Nat)) :
    (s.populated c part n bad).get (R.NAND.TIMING_MAX_RATE c) = s.get (R.NAND.TIMING_MAX_RATE c) := by
  simp only [State.populated]
  rw [State.showCode_get _ (fun h => absurd h (by decide : (0x050 : Nat) ≠ 0x040)) (by decide : (0x050 : Nat) ≠ 0x05C), State.puts_cons, State.puts_cons, State.puts_nil,
    State.get_put_of_place _ _ rfl, State.get_put_of_place _ _ rfl]
  rfl

theorem exec_nandTrainDone {s : State} {ch : Fin 32} {r : NandTraining} {p : List Nat} {part : NandPart} {dqs re : Bool} {l : List (Bool × Bool)}
    (hst : s.get (R.NAND.CH_STATUS_STATE ch.val) = 1) (hf : r.failStep = 0) (hp : swizzleOf r.answers = some p)
    (hb : bitAt (s.get R.PWR.SAFE_CAUSE_CAUSE) 6 = false) (hpart : s.population ch.val r.parts = some part) (hc : r.clean = (dqs, re) :: l) :
    exec (.nandTrainDone ch r) s
      = .next (((((s.swizzled ch.val p).populated ch.val part r.parts.length r.badBlocks).loseFailed).puts
          [(R.NAND.POLARITY_DQS_SWAP ch.val, b2n dqs), (R.NAND.POLARITY_RE_SWAP ch.val, b2n re)]).trained ch.val) := by
  have hb' : bitAt ((s.swizzled ch.val p).get R.PWR.SAFE_CAUSE_CAUSE) 6 = false := by rw [State.swizzled_get _ _ _ (by decide), hb]
  have hpart' : (s.swizzled ch.val p).population ch.val r.parts = some part := by
    rw [State.population_congr (fun c => s.swizzled_get ch.val p (by exact (by decide : (0x040 : Nat) ≠ 0x048))) rfl, hpart]
  have h1 : ¬ s.get (R.NAND.CH_STATUS_STATE ch.val) ≠ 1 := fun h => h hst
  have h2 : ¬ r.failStep = 1 := by rw [hf]; decide
  have h3 : ¬ r.failStep = 2 := by rw [hf]; decide
  have h4 : ¬ r.failStep = 3 := by rw [hf]; decide
  have h5 : ¬ (r.failStep ≠ 0 ∧ r.failStep ≤ 6) := fun h => h.1 hf
  have h6 : ¬ r.failStep ≠ 0 := fun h => h hf
  change (if s.get (R.NAND.CH_STATUS_STATE ch.val) ≠ 1 then (Host.Outcome.next s : Out) else if r.failStep = 1 then _ else _) = _
  rw [if_neg h1, if_neg h2]
  simp only [hp, if_neg h3, if_neg h4]
  change (if bitAt ((s.swizzled ch.val p).get R.PWR.SAFE_CAUSE_CAUSE) 6 = true then _ else
    match (s.swizzled ch.val p).population ch.val r.parts with | none => _ | some part => _) = _
  rw [hb', hpart', if_neg (by decide)]
  simp only [if_neg h5, if_neg h6, hc]
  rfl

theorem mem_insertSorted (l : List Nat) (a : Nat) : a ∈ insertSorted l a := by
  induction l with
  | nil => exact List.mem_cons_self
  | cons x xs ih =>
    unfold insertSorted
    split
    · exact List.mem_cons_self
    · split
      next e => exact e ▸ List.mem_cons_self
      next => exact List.mem_cons_of_mem _ ih

/-- A channel that completes its training is ACTIVE at its rate (R191). -/
theorem State.trained_unformatted {s : State} (hm : s.media.formatted = false) (c : Nat) :
    (s.trained c).get (R.NAND.CH_STATUS_STATE c) = 2
    ∧ (s.trained c).get (R.NAND.TIMING_RATE_MTS c) = nandRate (s.get (R.NAND.TIMING_MAX_RATE c)) % 2 ^ 12
    ∧ bitAt ((s.trained c).get (H.STICKY (nandPage c))) 0 = true
    ∧ (s.trained c).nand.part = s.nand.part ∧ c ∈ (s.trained c).nand.lpddr
    ∧ ∀ x : Fld, x.off = 0x04C → (s.trained c).get x = s.get x := by
  let t := s.setNand fun n => { n with lpddr := insertSorted n.lpddr c, volume := n.volume.filter (·.1.1 != c)
                                       zqAt := assocSet n.zqAt c s.time }.sent c [.zqLong, .dcc, .readDq, .writeDq]
  let u := t.puts [(R.NAND.CH_STATUS_STATE c, 2), (R.NAND.TIMING_RATE_MTS c, nandRate (t.get (R.NAND.TIMING_MAX_RATE c)))]
  have hn : (u.pulse (nandPage c) Ev.NAND.TRAINED).nand = t.nand := keeps_nand (State.forget_pulse (T := 0x480000020) rfl ..) rfl
  have hf : (u.pulse (nandPage c) Ev.NAND.TRAINED).media.formatted = false :=
    (congrArg MediaSt.formatted (keeps_media (State.forget_pulse (T := 0x480000020) rfl ..) rfl)).trans hm
  have he : s.trained c = u.pulse (nandPage c) Ev.NAND.TRAINED := by
    show (if (u.pulse (nandPage c) Ev.NAND.TRAINED).media.formatted = true then _ else _) = _
    rw [if_neg (by rw [hf]; decide)]
  rw [he]
  refine ⟨?_, ?_, ?_, (congrArg NandSt.part hn).trans rfl, ?_, fun x hx => ?_⟩
  · rw [State.pulse_get_beyond _ _ _ rfl]
    exact (State.get_put_of_place _ _ rfl).trans (State.get_put_same ..)
  · rw [State.pulse_get_beyond _ _ _ rfl]
    exact (State.get_put_same ..).trans rfl
  · exact (State.pulse_sticky _ _ _ (by decide)).trans rfl
  · rw [hn]
    exact mem_insertSorted s.nand.lpddr c
  · have hne {y : Fld} (hy : y.off ≠ 0x04C) : x ≠ y := fun e => hy ((congrArg Fld.off e).symm.trans hx)
    have hbeyond : Nat.ble 0x040 x.off = true := by rw [hx]; rfl
    rw [State.pulse_get_beyond _ _ _ hbeyond]
    exact (State.get_put_other _ _ (hne (by exact (by decide : (0x050 : Nat) ≠ 0x04C)))).trans
      (State.get_put_other _ _ (hne (by exact (by decide : (0x040 : Nat) ≠ 0x04C))))

/-- On an unformatted device no die is lost with the channels that failed. -/
theorem State.loseFailed_unformatted {s : State} (h : s.media.formatted = false) : s.loseFailed = s := by
  simp [State.loseFailed, h]

/-! ### Dies and channels that fail -/

section
variable {s : State} {ch : Fin 32} {die : Fin 16}

theorem exec_nandPwrFault (h4 : s.get (R.NAND.CH_STATUS_STATE ch.val) ≠ 4) (h0 : s.get (R.NAND.CH_STATUS_PWR_EN ch.val) ≠ 0) :
    exec (.nandPwrFault ch) s = .next ((((s.put (R.NAND.CH_STATUS_PWR_FLT ch.val) 1).pulse (nandPage ch.val) Ev.NAND.PWR_FAULT).nandErr ch.val
      E.NAND_PWR_FAULT 0 0 0).channelOff ch.val 4) := by
  show execNandPwrFault ch s = _
  unfold execNandPwrFault
  simp only []
  rw [if_neg (by simp [h4, h0])]

/-- The channel's registers and records once a die is taken for failed (R203). -/
def State.dieFailed (s : State) (c die row : Nat) : State :=
  (((s.put (R.NAND.DIE_PRESENT_FAILED c) (setBit (s.get (R.NAND.DIE_PRESENT_FAILED c)) die true)).bump (R.NAND.DIE_TIMEOUTS_COUNT c)).pulse
    (nandPage c) Ev.NAND.DIE_FAILED).nandErr c E.NAND_DIE_TIMEOUT die 0 row

theorem exec_nandDieTimeout (hr : s.nand.resetOnce.contains (ch.val * 16 + die.val) = true) (hl : s.dieLive (ch.val * 16 + die.val) = true) :
    ∃ row, exec (.nandDieTimeout ch die) s = .next (((s.dieFailed ch.val die.val row).loseDies [ch.val * 16 + die.val]).2.endOps
      ((s.dieFailed ch.val die.val row).loseDies [ch.val * 16 + die.val]).1) := by
  refine ⟨match s.frontOp (ch.val * 16 + die.val) with | some o => s.pieceRow o.block o.pu 0 | none => 0, ?_⟩
  show execNandDieTimeout ch die s = _
  unfold execNandDieTimeout
  simp only [hr, hl, Bool.not_true, Bool.or_self, Bool.false_eq_true, if_false]
  rfl

theorem State.dieFailed_get (s : State) (c : Nat) {die : Nat} (hd : die < 16) (row : Nat) :
    bitAt ((s.dieFailed c die row).get (R.NAND.DIE_PRESENT_FAILED c)) die = true
    ∧ (s.dieFailed c die row).get (R.NAND.DIE_TIMEOUTS_COUNT c) = min (s.get (R.NAND.DIE_TIMEOUTS_COUNT c) + 1) (2 ^ 32 - 1) := by
  unfold State.dieFailed State.nandErr
  rw [State.record_get_beyond _ _ _ _ _ _ _ rfl, State.record_get_beyond _ _ _ _ _ _ _ rfl, State.pulse_get_beyond _ _ _ rfl,
    State.pulse_get_beyond _ _ _ rfl, State.get_bump_of_place _ _ rfl, State.get_put_same, State.get_bump_same, State.get_put_of_place _ _ rfl]
  refine ⟨?_, rfl⟩
  rw [bitAt_mod_two_pow _ (show die < (R.NAND.DIE_PRESENT_FAILED c).w from hd), bitAt_eq_testBit, testBit_setBit, if_pos rfl]

theorem exec_nandDieReset {o : DieOp} (ho : s.frontOp (ch.val * 16 + die.val) = some o)
    (hr : s.nand.resetOnce.contains (ch.val * 16 + die.val) = false) :
    exec (.nandDieReset ch die) s
      = .next ((s.setNand fun n => { n with resetOnce := n.resetOnce ++ [ch.val * 16 + die.val] }).sendOnfi (ch.val * 16 + die.val) [.reset]) := by
  show execNandDieReset ch die s = _
  unfold execNandDieReset
  simp only [ho, hr, Option.isNone_some, Bool.or_self, Bool.false_eq_true, if_false]

theorem State.forceOff_acts {s : State} {o : Origin} {c : Nat} (hp : s.powered = true) (hr : s.reaches o (nandPage c) = true)
    (hi : s.holds o .installer = true) (ha : s.chActive c = true) :
    ∃ t : State, s.Accessed t ∧ s.writePwrCtrl o c 1
      = ((t.putBit (H.RETIRED (nandPage c)) true).pulse (nandPage c) Ev.NAND.RETIRED).channelOff c 3 := by
  obtain ⟨t, ht, he⟩ := State.regCmd_acts (s := s) (o := o) (page := nandPage c) (off := 0x0A8) (v := 1) (legal := true) (busy := false) (deny := id)
    (act := fun t => if !bitAt 1 0 || !t.chActive c then t
      else (((t.putBit (H.RETIRED (nandPage c)) true).pulse (nandPage c) Ev.NAND.RETIRED).channelOff c 3)) hp hr (State.meets_of_installer hi _) rfl rfl
  refine ⟨t, ht, he.trans ?_⟩
  have hat : t.chActive c = true := by rw [State.chActive, ht.get]; exact ha
  simp only [hat]
  exact if_neg (by decide)

theorem State.retrain_acts {s : State} {o : Origin} {c : Nat} (hp : s.powered = true) (hr : s.reaches o (nandPage c) = true)
    (hi : s.holds o .installer = true) (hl : s.takeLive = false) (ha : s.chActive c = true) (ok : Bool) :
    ∃ t : State, s.Accessed t ∧ s.writeTrainCtrl o c 1 ok = if ok then t.trained c else t.fresh.2.trainFail c (5 + t.fresh.1 % 4) := by
  obtain ⟨t, ht, he⟩ := State.regCmd_acts (s := s) (o := o) (page := nandPage c) (off := 0x054) (v := 1) (legal := true) (busy := bitAt 1 0 && s.takeLive)
    (deny := fun t => t.refuseBlock o (nandPage c) E.NAND_BUSY 0)
    (act := fun t => if bitAt 1 0 then t.retrain c ok else t) hp hr (State.meets_of_installer hi _) rfl (by rw [hl, Bool.and_false])
  refine ⟨t, ht, he.trans ?_⟩
  have hat : t.chActive c = true := by rw [State.chActive, ht.get]; exact ha
  simp only [State.retrain, hat]
  rfl

theorem exec_nandZqShort (h : s.chActive ch.val = true) : exec (.nandZqShort ch) s
    = .next ({ s with time := max s.time ((assoc s.nand.zqAt ch.val).getD 0 + s.get (R.NAND.ZQ_PERIOD_MS ch.val) * 1000000) }.setNand fun n =>
      { n with zqAt := assocSet n.zqAt ch.val (max s.time ((assoc s.nand.zqAt ch.val).getD 0 + s.get (R.NAND.ZQ_PERIOD_MS ch.val) * 1000000)) }.sent
        ch.val [.zqShort]) := by
  show execNandZqShort ch s = _
  unfold execNandZqShort
  simp only [h, Bool.not_true, Bool.false_eq_true, if_false]

/-- The last command that a channel was sent is the last of its list. -/
theorem NandSt.sent_last (n : NandSt) (c : Nat) (cmds : List OnfiCmd) (x : OnfiCmd) :
    (assoc (n.sent c (cmds ++ [x])).onfi c).bind List.getLast? = some x := by
  simp only [NandSt.sent]
  rw [assoc_assocSet_same, Option.bind_some, ← List.append_assoc, List.getLast?_drop, if_neg, List.getLast?_concat]
  simp only [List.length_append, List.length_singleton]
  omega

end

/-! ### Operations that end -/

section
variable {s : State} {ch : Fin 32} {die : Fin 16} {o : DieOp}

theorem exec_nandReadDone {t : State} {rs : List CwOutcome} {left : List Nat} (ho : s.frontOp (ch.val * 16 + die.val) = some o) (hk : o.kind = .read)
    (h0 : o.step = 0) (hd : State.decodeAll 0 (ch.val * 16 + die.val) o o.todo rs s = (left, t)) :
    exec (.nandReadDone ch die rs) s = .next (if left = [] then t.endRead (ch.val * 16 + die.val) o
      else if s.get (R.NAND.RETRY_CFG_FEATURE_ADDR ch.val) = 0 then t.giveUp (ch.val * 16 + die.val) o left
      else (t.setFront (ch.val * 16 + die.val) { o with todo := left, step := 1 }).nextLevel (ch.val * 16 + die.val) o 1) := by
  have hgo : ¬ (o.kind ≠ .read ∨ o.step ≠ 0) := by simp [hk, h0]
  show execNandReadDone ch die rs s = _
  unfold execNandReadDone
  simp only [ho, if_neg hgo, hd, List.isEmpty_iff]
  split
  · rfl
  · split <;> rfl

theorem exec_nandRetryStep {t : State} {rs : List CwOutcome} {left : List Nat} (ho : s.frontOp (ch.val * 16 + die.val) = some o) (hk : o.kind = .read)
    (h1 : 1 ≤ o.step) (hs : o.step ≤ s.get (R.NAND.RETRY_CFG_STEPS ch.val))
    (hd : State.decodeAll 2 (ch.val * 16 + die.val) o o.todo rs s = (left, t)) :
    exec (.nandRetryStep ch die rs) s = .next (if left = [] then t.endRead (ch.val * 16 + die.val) o
      else (t.setFront (ch.val * 16 + die.val) { o with todo := left, step := o.step + 1 }).nextLevel (ch.val * 16 + die.val) o (o.step + 1)) := by
  have hgo : ¬ (o.kind ≠ .read ∨ o.step = 0 ∨ s.get (R.NAND.RETRY_CFG_STEPS ch.val) < o.step) := by
    simp only [hk, ne_eq, not_true_eq_false, false_or]
    omega
  show execNandRetryStep ch die rs s = _
  unfold execNandRetryStep
  simp only [ho, if_neg hgo, hd, List.isEmpty_iff]

theorem exec_nandSoftDecode {t : State} {rs : List CwOutcome} {left : List Nat} (ho : s.frontOp (ch.val * 16 + die.val) = some o) (hk : o.kind = .read)
    (hs : s.get (R.NAND.RETRY_CFG_STEPS ch.val) < o.step) (hd : State.decodeAll 3 (ch.val * 16 + die.val) o o.todo rs s = (left, t)) :
    exec (.nandSoftDecode ch die rs) s = .next (t.giveUp (ch.val * 16 + die.val) o left) := by
  have hgo : ¬ (o.kind ≠ .read ∨ o.step = 0 ∨ o.step ≤ s.get (R.NAND.RETRY_CFG_STEPS ch.val)) := by
    simp only [hk, ne_eq, not_true_eq_false, false_or]
    omega
  show execNandSoftDecode ch die rs s = _
  unfold execNandSoftDecode
  simp only [ho, if_neg hgo, hd]

theorem State.popOp_frame (s : State) (d : Nat) : forget 0x20000 (s.popOp d) = forget 0x20000 s := State.forget_popOp rfl s d

theorem State.popOp_get (s : State) (d : Nat) (x : Fld) : (s.popOp d).get x = s.get x :=
  State.get_of_regs (keeps_regs (s.popOp_frame d) rfl) x

theorem State.programFail_spec (s : State) (c d : Nat) (o : DieOp) :
    (s.programFail c d o).get (R.NAND.PROGRAM_FAILS_COUNT c) = min (s.get (R.NAND.PROGRAM_FAILS_COUNT c) + 1) (2 ^ 32 - 1)
    ∧ (s.programFail c d o).nand = s.nand := by
  refine ⟨?_, keeps_nand (State.forget_programFail (T := 0x480000420) rfl ..) rfl⟩
  simp only [State.programFail, State.nandErr]
  rw [State.record_get_beyond _ _ _ _ _ _ _ rfl, State.pulse_get_beyond _ _ _ rfl, State.get_bump_same]
  rfl

theorem State.eraseFail_get (s : State) (c d : Nat) (o : DieOp) :
    (s.eraseFail c d o).get (R.NAND.ERASE_FAILS_COUNT c) = min (s.get (R.NAND.ERASE_FAILS_COUNT c) + 1) (2 ^ 32 - 1) := by
  simp only [State.eraseFail, State.nandErr]
  rw [State.record_get_beyond _ _ _ _ _ _ _ rfl, State.pulse_get_beyond _ _ _ rfl, State.get_bump_same]
  rfl

/-- An erase that ends counts for its block and drops nothing else of the map's image. -/
theorem State.blockErased_erases {s t : State} (d b : Nat) (h : t.media.image.erases = s.media.image.erases) :
    assoc (t.blockErased d b).media.image.erases (d, b) = some ((assoc s.media.image.erases (d, b)).getD 0 + 1) := by
  rw [← h]
  exact assoc_assocSet_same ..

variable (ho : s.frontOp (ch.val * 16 + die.val) = some o)
include ho

theorem exec_nandProgramDone_unit {g i m : Nat} (hu : o.use = .unit g i m) :
    exec (.nandProgramDone ch die true) s
      = .next (((s.popOp (ch.val * 16 + die.val)).programmed (ch.val * 16 + die.val) o g i m).endStripe g i).ckptStep
    ∧ exec (.nandProgramDone ch die false) s
      = .next (((s.popOp (ch.val * 16 + die.val)).programFail ch.val (ch.val * 16 + die.val) o).programFailed g i m).logReady := by
  constructor <;>
  · show execNandProgramDone ch die _ s = _
    unfold execNandProgramDone
    simp only [ho, hu]
    rfl

theorem exec_nandProgramDone_page {n i : Nat} (hu : o.use = .page n i) :
    exec (.nandProgramDone ch die true) s
      = .next ((s.popOp (ch.val * 16 + die.val)).pageProgrammed n i (ch.val * 16 + die.val) o.block o.pu).snapStep
    ∧ exec (.nandProgramDone ch die false) s
      = .next ((((s.popOp (ch.val * 16 + die.val)).programFail ch.val (ch.val * 16 + die.val) o).retireBlock (ch.val * 16 + die.val) o.block
        0).moveCopy n i) := by
  constructor <;>
  · show execNandProgramDone ch die _ s = _
    unfold execNandProgramDone
    simp only [ho, hu]
    rfl

theorem exec_nandProgramDone_rebuild {g i m : Nat} {ps : List (Nat × Bytes × Bytes)} (hu : o.use = .rebuild g i m ps) :
    exec (.nandProgramDone ch die true) s = .next ((s.popOp (ch.val * 16 + die.val)).rebuilt g i m (ch.val * 16 + die.val) o.block ps)
    ∧ exec (.nandProgramDone ch die false) s
      = .next (((s.popOp (ch.val * 16 + die.val)).programFail ch.val (ch.val * 16 + die.val) o).rebuildFailed g i m (ch.val * 16 + die.val)
        o.block) := by
  constructor <;>
  · show execNandProgramDone ch die _ s = _
    unfold execNandProgramDone
    simp only [ho, hu, Bool.false_eq_true, if_true, if_false]

/-- The state in which an erased member's outcome is taken. -/
theorem exec_nandEraseDone_member {g m : Nat} (hu : o.use = .erase g m) : ∃ t : State, t.media.image.erases = s.media.image.erases
    ∧ t.regs = s.regs ∧ exec (.nandEraseDone ch die true) s = .next (t.blockErased (ch.val * 16 + die.val) o.block)
    ∧ exec (.nandEraseDone ch die false) s
      = .next ((t.eraseFail ch.val (ch.val * 16 + die.val) o).retireBlock (ch.val * 16 + die.val) o.block g) := by
  refine ⟨(s.popOp (ch.val * 16 + die.val)).modGroup g fun y => { y with erased := insertSorted y.erased m }, ?_, ?_, ?_, ?_⟩
  · exact (congrArg (fun x : MediaSt => x.image.erases) (keeps_media (s.popOp_frame _) rfl) :)
  · exact (keeps_regs (State.forget_modGroup (T := 0x40000) rfl ..) rfl).trans (keeps_regs (s.popOp_frame _) rfl)
  all_goals
    show execNandEraseDone ch die _ s = _
    unfold execNandEraseDone
    simp only [ho, hu, Bool.false_eq_true, if_true, if_false]

theorem exec_nandEraseDone_page (hu : o.use = .pageErase) : ∃ t : State, t.media.image.erases = s.media.image.erases
    ∧ t.regs = s.regs ∧ t.media.metaBlocks = s.media.metaBlocks.filter (fun x => !(x.die == ch.val * 16 + die.val && x.block == o.block))
    ∧ exec (.nandEraseDone ch die true) s = .next (t.blockErased (ch.val * 16 + die.val) o.block).showPool
    ∧ exec (.nandEraseDone ch die false) s
      = .next ((t.eraseFail ch.val (ch.val * 16 + die.val) o).retireBlock (ch.val * 16 + die.val) o.block 0) := by
  have hm := keeps_media (s.popOp_frame (ch.val * 16 + die.val)) rfl
  refine ⟨(s.popOp (ch.val * 16 + die.val)).setMedia fun m => { m with metaBlocks := m.metaBlocks.filter fun x =>
    !(x.die == ch.val * 16 + die.val && x.block == o.block) }, ?_, ?_, ?_, ?_, ?_⟩
  · exact (congrArg (fun x : MediaSt => x.image.erases) hm :)
  · exact (keeps_regs (s.popOp_frame (ch.val * 16 + die.val)) rfl :)
  · exact (congrArg (fun x : MediaSt => x.metaBlocks.filter fun x => !(x.die == ch.val * 16 + die.val && x.block == o.block)) hm :)
  all_goals
    show execNandEraseDone ch die _ s = _
    unfold execNandEraseDone
    simp only [ho, hu, Bool.false_eq_true, if_true, if_false]

end

/-! ### The obligation -/

theorem State.nandPwrFault_get (s : State) (c : Nat) :
    (((s.put (R.NAND.CH_STATUS_PWR_FLT c) 1).pulse (nandPage c) Ev.NAND.PWR_FAULT).nandErr c E.NAND_PWR_FAULT 0 0 0).get (R.NAND.CH_STATUS_PWR_FLT c) = 1
    ∧ (s.get (H.VALID (nandPage c)) = 0 → (((s.put (R.NAND.CH_STATUS_PWR_FLT c) 1).pulse (nandPage c) Ev.NAND.PWR_FAULT).nandErr c
      E.NAND_PWR_FAULT 0 0 0).get (H.CODE (nandPage c)) = 0x3811) := by
  unfold State.nandErr
  refine ⟨?_, fun hv => ?_⟩
  · rw [State.record_get_beyond _ _ _ _ _ _ _ rfl, State.pulse_get_beyond _ _ _ rfl, State.get_put_same]
    rfl
  · rw [State.record_get_CODE]
    · rfl
    · rw [State.pulse_get_of_place _ _ _ rfl rfl, State.get_put_of_place _ _ rfl, hv]

/-- Settles O12: each flash event does what its definition says, and the registers it writes read back. -/
theorem flashChannelsWork : Obligations.FlashChannelsWork := by
  unfold Obligations.FlashChannelsWork
  refine ⟨fun s => ⟨_, exec_nandTrainStart s, fun c => State.foldl_trainIfOff_get (List.mem_range.mpr c.isLt) List.nodup_range s⟩,
    fun s ch r p part dqs re l hst hf hp hb hpart hc => ?_, fun s ch h4 h0 => ⟨_, exec_nandPwrFault h4 h0, s.nandPwrFault_get ch.val⟩,
    fun s o ch hp hr hi ha => ?_, fun s ch die o ho hr => ?_, fun s ch die hr hl => ?_,
    fun s t ch die rs o left ho hk h0 hd => exec_nandReadDone ho hk h0 hd, fun s t ch die rs o left ho hk h1 hs hd => exec_nandRetryStep ho hk h1 hs hd,
    fun s t ch die rs o left ho hk hs hd => exec_nandSoftDecode ho hk hs hd, fun s ch die o g i m ho hu => ?_, fun s ch die o n i ho hu => ?_,
    fun s ch die o g i m ps ho hu => ?_, fun s ch die o g m ho hu => ?_, fun s ch die o ho hu => ?_, fun s ch ha => ?_, fun s ch ha => ?_,
    fun s o ch hp hr hi hl ha => ?_⟩
  case refine_1 =>
    have he := exec_nandTrainDone hst hf hp hb hpart hc
    have hmedia := (State.populated_media (s.swizzled ch.val p) ch.val part r.parts.length r.badBlocks).trans rfl
    have hpartn := State.populated_nand (s.swizzled ch.val p) ch.val part r.parts.length r.badBlocks
    have hdies : ((s.swizzled ch.val p).populated ch.val part r.parts.length r.badBlocks).get (R.NAND.CH_STATUS_DIES ch.val) = r.parts.length := by
      rw [State.populated_get_DIES]
      have := State.population_length hpart
      simp only [List.mem_cons, List.not_mem_nil, or_false] at this
      omega
    have hrate := (State.populated_get_MAX_RATE (s.swizzled ch.val p) ch.val part r.parts.length r.badBlocks).trans
      (s.swizzled_get ch.val p (x := R.NAND.TIMING_MAX_RATE ch.val) (by exact (by decide : (0x050 : Nat) ≠ 0x048)))
    generalize (s.swizzled ch.val p).populated ch.val part r.parts.length r.badBlocks = u at he hmedia hpartn hdies hrate
    refine ⟨u, he, hpartn, hdies, hmedia, fun hm => ⟨_, he, ?_⟩⟩
    have hu : u.media.formatted = false := (congrArg MediaSt.formatted hmedia).trans hm
    rw [State.loseFailed_unformatted hu, State.puts_cons, State.puts_cons, State.puts_nil]
    obtain ⟨hstate, hnew, -, hnand, hlp, hpol⟩ := State.trained_unformatted
      (s := (u.put (R.NAND.POLARITY_DQS_SWAP ch.val) (b2n dqs)).put (R.NAND.POLARITY_RE_SWAP ch.val) (b2n re)) hu ch.val
    refine ⟨hstate, hnand.trans hpartn, hlp, ?_, ?_, ?_⟩
    · rw [hnew, State.get_put_of_place _ _ rfl, State.get_put_of_place _ _ rfl, hrate]
    · rw [hpol _ rfl, State.get_put_of_place _ _ rfl, State.get_put_same]
      cases dqs <;> rfl
    · rw [hpol _ rfl, State.get_put_same]
      cases re <;> rfl
  case refine_2 =>
    obtain ⟨t, ht, he⟩ := State.forceOff_acts hp hr hi ha
    refine ⟨_, congrArg Host.Outcome.next he, ?_, ?_⟩
    · rw [State.bit, State.pulse_get_of_place _ _ _ rfl rfl, State.putBit, State.get_put_same]
      rfl
    · exact (keeps_nand (State.forget_pulse (T := 0x480000020) rfl ..) rfl).trans (keeps_nand ht.1 rfl :)
  case refine_3 =>
    refine ⟨_, exec_nandDieReset ho hr, ?_, rfl⟩
    exact List.mem_append_right _ List.mem_cons_self
  case refine_4 =>
    obtain ⟨row, he⟩ := exec_nandDieTimeout hr hl
    exact ⟨_, he, s.dieFailed_get ch.val die.isLt row⟩
  case refine_5 =>
    obtain ⟨hc, hn⟩ := (s.popOp (ch.val * 16 + die.val)).programFail_spec ch.val (ch.val * 16 + die.val) o
    exact ⟨(exec_nandProgramDone_unit ho hu).1, _, (exec_nandProgramDone_unit ho hu).2, hc.trans (by rw [State.popOp_get]), hn⟩
  case refine_6 =>
    obtain ⟨hc, -⟩ := (s.popOp (ch.val * 16 + die.val)).programFail_spec ch.val (ch.val * 16 + die.val) o
    exact ⟨(exec_nandProgramDone_page ho hu).1, _, (exec_nandProgramDone_page ho hu).2, hc.trans (by rw [State.popOp_get])⟩
  case refine_7 =>
    obtain ⟨hc, -⟩ := (s.popOp (ch.val * 16 + die.val)).programFail_spec ch.val (ch.val * 16 + die.val) o
    exact ⟨(exec_nandProgramDone_rebuild ho hu).1, _, (exec_nandProgramDone_rebuild ho hu).2, hc.trans (by rw [State.popOp_get])⟩
  case refine_8 =>
    obtain ⟨t, hte, hur, he, hf⟩ := exec_nandEraseDone_member ho hu
    refine ⟨⟨_, he, State.blockErased_erases _ _ hte⟩, _, hf, ?_⟩
    rw [State.eraseFail_get, State.get_of_regs hur]
  case refine_9 =>
    obtain ⟨t, hte, hur, htm, he, hf⟩ := exec_nandEraseDone_page ho hu
    refine ⟨⟨_, he, fun x hx => ?_, State.blockErased_erases _ _ hte⟩, _, hf, ?_⟩
    · have hx' : x ∈ t.media.metaBlocks := hx
      rw [htm] at hx'
      have hne := (List.mem_filter.mp hx').2
      rintro ⟨hd, hb⟩
      simp [hd, hb] at hne
    · rw [State.eraseFail_get, State.get_of_regs hur]
  case refine_10 =>
    refine ⟨_, exec_nandZqShort ha, rfl, rfl, rfl, assoc_assocSet_same .., ?_⟩
    exact NandSt.sent_last _ ch.val [] .zqShort
  case refine_11 =>
    show execNandZqShort ch s = _
    unfold execNandZqShort
    simp only [ha, Bool.not_false, if_true]
  case refine_12 =>
    obtain ⟨t, ht, he⟩ := State.retrain_acts hp hr hi hl ha true
    obtain ⟨u, hu, hf⟩ := State.retrain_acts hp hr hi hl ha false
    refine ⟨⟨t, congrArg Host.Outcome.next he, keeps_nand ht.1 rfl, keeps_media ht.1 rfl⟩, fun hm => ⟨_, congrArg Host.Outcome.next he, ?_⟩,
      u.fresh.2, 5 + u.fresh.1 % 4, congrArg Host.Outcome.next hf, by omega, by omega, (keeps_nand hu.1 rfl :), (keeps_media hu.1 rfl :)⟩
    obtain ⟨-, hrate, hst, -⟩ := State.trained_unformatted (s := t) ((congrArg MediaSt.formatted (keeps_media ht.1 rfl)).trans hm) ch.val
    exact ⟨hrate.trans (by rw [ht.get]), hst⟩

end Sys2Proof.Machine
end

section
/-!
Registers that the ends of takes, of the Gate link, SAFE, alarms and the retirement of a lane leave alone: those of the clock, regulator and RTC
pages, the power block's, a lane's last mismatch and the state of a DRAM channel; of the power block's registers SAFE sets mode and causes.
-/

namespace Sys2Proof.Machine

open Sys2Proof.Laws

/-- The registers of later pages that no block's end of work touches, beside those of lanes and DRAM channels. -/
def steadyMasks : List Fld := [R.CIPHER.PIPES_LIVE, R.DIGEST.UNITS_LIVE_MASK, R.ARRAY.ARRAY_STATUS_RESYNC_CASE]

/-- The registers that no block's end of work touches. -/
def steady (x : Fld) : Bool :=
  x.off != 0x02C && (Nat.ble x.page 4 || steadyMasks.contains x || x.off == 0x070 && Nat.ble 0x18 x.page && Nat.ble x.page 0x23
    || x.w == 3 && x.off == 0x040 && Nat.ble 0xA0 x.page)

/-- The place in its word is none of those that a steady register of a later page has. -/
def plain (w lo : Nat) : Bool := !([3, 6, 64].contains w) && !(w == 2 && lo == 5)

/-- A field that is not steady. -/
def loud (x : Fld) : Bool := !steady x

/-- A page of which no register below 0x040 is steady. -/
def noisy (p : Nat) : Bool := Nat.ble 5 p

/-- A figure of the power block that no mode's accounts enter into. -/
def Unaccounted (f : PwrSt → Nat) : Prop := ∀ p a m i, f { p with acct := a, modeSince := m, idleSince := i } = f p

/-- What no block's end of work touches: a steady register, or such a figure. -/
inductive SteadyFld
  | reg (x : Fld) (h : steady x = true)
  | power (f : PwrSt → Nat) (h : Unaccounted f)

def SteadyFld.get : SteadyFld → State → Nat
  | .reg x _, s => s.get x
  | .power f _, s => f s.pwr

/-- Beside the power block's header, the mode and the causes of SAFE. -/
def SteadyFld.still : SteadyFld → Bool
  | .reg x _ => x.page != 2 || Nat.ble 0x044 x.off && x.off != 0x058
  | .power _ _ => true

theorem not_mem_steadyMasks {x : Fld} (hw : plain x.w x.lo = true) : x ∉ steadyMasks := by
  simp only [steadyMasks, List.mem_cons, List.not_mem_nil, or_false]
  rintro (rfl | rfl | rfl) <;> cases hw

theorem plain_ne_three {x : Fld} (hw : plain x.w x.lo = true) : (x.w == 3) = false :=
  beq_eq_false_iff_ne.mpr fun e => by
    rw [plain, e] at hw
    cases hw

theorem ble_eq_false {a b : Nat} (h : b < a) : Nat.ble a b = false :=
  Bool.eq_false_iff.mpr fun e => Nat.not_le.mpr h (Nat.ble_eq.mp e)

theorem loud_of_place {x : Fld} (hp : 5 ≤ x.page) (ho : x.off ≠ 0x070) (hw : plain x.w x.lo = true) : loud x = true := by
  simp [loud, steady, ble_eq_false hp, not_mem_steadyMasks hw, ho, plain_ne_three hw]

theorem loud_of_late {x : Fld} (hp : 0x24 ≤ x.page) (hw : plain x.w x.lo = true) : loud x = true := by
  simp [loud, steady, ble_eq_false (Nat.lt_of_lt_of_le (by decide) hp : 4 < x.page), ble_eq_false (Nat.lt_of_lt_of_le (by decide) hp : 0x23 < x.page),
    not_mem_steadyMasks hw, plain_ne_three hw]

theorem loud_point (p : Nat) : loud (H.POINT p) = true := rfl

theorem noisy_lanePage (l : Nat) : noisy (lanePage l) = true := Nat.ble_eq.mpr (Nat.le_add_right_of_le (by decide))

theorem page_ne_of_steady {x : Fld} (hx : steady x = true) {p : Nat} (hp : noisy p = true) : x.page ≠ p ∨ 0x040 ≤ x.off := by
  by_cases hb : 0x040 ≤ x.off
  · exact .inr hb
  · refine .inl fun e => ?_
    have h70 : ¬ x.off = 0x070 := by omega
    have h40 : ¬ x.off = 0x040 := by omega
    have hmask : x ∉ steadyMasks := by
      simp only [steadyMasks, List.mem_cons, List.not_mem_nil, or_false]
      rintro (rfl | rfl | rfl) <;> exact hb (by decide)
    have hle : 5 ≤ x.page := by
      rw [e]
      exact Nat.ble_eq.mp hp
    simp [steady, h40, h70, hmask, ble_eq_false hle] at hx

section
variable {q : SteadyFld}

theorem steady_of_forget {s t : State} (h : forget 0xFFFFFFFFEFFFFFDF t = forget 0xFFFFFFFFEFFFFFDF s) : q.get t = q.get s := by
  cases q with
  | reg x hx => exact State.get_of_regs (keeps_regs h rfl) x
  | power f hf => exact congrArg f (keeps_pwr h rfl)

theorem get_of_steady {s t : State} {x : Fld} (hx : steady x = true) (h : (SteadyFld.reg x hx).get t = (SteadyFld.reg x hx).get s) : t.get x = s.get x := h

theorem steady_ite (c : Prop) [Decidable c] (s t : State) : q.get (if c then s else t) = if c then q.get s else q.get t := apply_ite q.get ..

theorem steady_foldl {β : Type} (g : State → β → State) (l : List β) (h : ∀ s x, q.get (g s x) = q.get s) (s : State) : q.get (l.foldl g s) = q.get s :=
  foldl_keeps q.get h l s

theorem State.steady_put (s : State) {x : Fld} (hx : loud x = true) (v : Nat) : q.get (s.put x v) = q.get s := by
  cases q with
  | reg y hy =>
    refine State.get_put_other _ _ fun e => ?_
    rw [e] at hy
    rw [loud, hy] at hx
    cases hx
  | power f hf => rfl

/-- A register of the mode or the causes of SAFE written. -/
theorem State.steady_put_power (s : State) (hq : q.still = true) {x : Fld} (hp : x.page = 2) (ho : x.off = 0x040 ∨ x.off = 0x058) (v : Nat) :
    q.get (s.put x v) = q.get s := by
  cases q with
  | reg y hy =>
    refine State.get_put_other _ _ fun e => ?_
    rw [SteadyFld.still, e, hp] at hq
    rcases ho with h | h <;> simp [h] at hq
  | power f hf => rfl

/-- An event or an error of the power block. -/
theorem State.steady_pulse_power (s : State) (hq : q.still = true) (bit : Nat) : q.get (s.pulse 2 bit) = q.get s := by
  cases q with
  | reg x hx =>
    rw [SteadyFld.still, Bool.or_eq_true, Bool.and_eq_true, bne_iff_ne, Nat.ble_eq] at hq
    rcases hq with h | ⟨h, -⟩
    · exact s.pulse_get_of_page h bit
    · exact State.pulse_get_beyond_header s 2 bit (by omega)
  | power f hf => exact congrArg f (State.pulse_pwr ..)

theorem State.steady_record_power (s : State) (hq : q.still = true) (code info func ext last : Nat) : q.get (s.record 2 code info func ext last) = q.get s := by
  cases q with
  | reg x hx =>
    rw [SteadyFld.still, Bool.or_eq_true, Bool.and_eq_true, bne_iff_ne, Nat.ble_eq] at hq
    rcases hq with h | ⟨h, -⟩
    · exact s.record_get_of_page h ..
    · exact State.record_get_beyond _ _ _ _ _ _ _ (Nat.ble_eq.mpr (by omega))
  | power f hf => exact congrArg f (State.record_pwr ..)

theorem State.steady_bump (s : State) {x : Fld} (hx : loud x = true) (n : Nat) : q.get (s.bump x n) = q.get s := s.steady_put hx _

theorem State.steady_putBit (s : State) {x : Fld} (hx : loud x = true) (b : Bool) : q.get (s.putBit x b) = q.get s := s.steady_put hx _

theorem State.steady_puts (s : State) {l : List (Fld × Nat)} (h : l.all (fun p => loud p.1) = true) : q.get (s.puts l) = q.get s := by
  induction l generalizing s with
  | nil => rfl
  | cons p l ih =>
    rw [List.all_cons, Bool.and_eq_true] at h
    exact (ih _ h.2).trans (s.steady_put h.1 _)

theorem State.steady_pulse (s : State) {page : Nat} (hp : noisy page = true) (bit : Nat) : q.get (s.pulse page bit) = q.get s := by
  cases q with
  | reg x hx =>
    rcases page_ne_of_steady hx hp with h | h
    · exact s.pulse_get_of_page h bit
    · exact State.pulse_get_beyond_header s page bit h
  | power f hf => exact congrArg f (State.pulse_pwr ..)

theorem State.steady_record (s : State) {page : Nat} (hp : noisy page = true) (code info func ext last : Nat) :
    q.get (s.record page code info func ext last) = q.get s := by
  cases q with
  | reg x hx =>
    rcases page_ne_of_steady hx hp with h | h
    · exact s.record_get_of_page h ..
    · exact State.record_get_beyond _ _ _ _ _ _ _ (Nat.ble_eq.mpr h)
  | power f hf => exact congrArg f (State.record_pwr ..)

theorem State.steady_level (s : State) {page : Nat} (hp : noisy page = true) (bit : Nat) (b : Bool) : q.get (s.level page bit b) = q.get s := by
  have hraw : q.get (s.put (H.RAW page) (setBit (s.get (H.RAW page)) bit b)) = q.get s := by
    cases q with
    | reg x hx =>
      refine State.get_put_other _ _ fun e => ?_
      rcases page_ne_of_steady hx hp with h | h
      · exact h (congrArg Fld.page e)
      · rw [e] at h
        exact absurd h (by exact (by decide : ¬ 0x040 ≤ 0x010))
    | power f hf => rfl
  unfold State.level
  dsimp only
  split
  · exact (State.steady_pulse _ hp bit).trans hraw
  · exact hraw

theorem loud_lane {x : Fld} {l : Nat} (hp : x.page = 0x18 + l) (ho : x.off = 0x040) (hw : plain x.w x.lo = true) : loud x = true :=
  loud_of_place (by omega) (by omega) hw

theorem State.steady_modLane (s : State) (l : Nat) (f : LaneSt → LaneSt) : q.get (s.modLane l f) = q.get s := by
  unfold State.modLane
  split
  · simp only [State.puts_cons, State.puts_nil]
    rw [State.steady_put _ (loud_lane rfl rfl rfl), State.steady_put _ (loud_lane rfl rfl rfl)]
    exact steady_of_forget rfl
  · rfl

theorem State.steady_modBank (s : State) (b : Nat) (f : EBank → EBank) : q.get (s.modBank b f) = q.get s :=
  (State.steady_put _ (loud_of_place (by simp only [R.BANK.BANK_STATUS_VALID_ENTRIES]; omega) (by simp [R.BANK.BANK_STATUS_VALID_ENTRIES])
    rfl) _).trans (steady_of_forget (State.forget_setEar rfl ..))

theorem State.steady_writeEnt (s : State) (b i : Nat) (e : EEnt) : q.get (s.writeEnt b i e) = q.get s :=
  (State.steady_bump _ (loud_of_place (by simp only [R.BANK.WRITES_COUNT]; omega) (by simp [R.BANK.WRITES_COUNT]) rfl) _).trans
    (s.steady_modBank ..)

theorem State.steady_ackFrame (s : State) (f : FrameSt) (status : ℕ) (stored : ℕ) (time : ℕ) : q.get (State.ackFrame s f status stored time) = q.get s := steady_of_forget (State.forget_ackFrame rfl ..)

theorem State.steady_takeErr (s : State) (code : ℕ) : q.get (State.takeErr s code) = q.get s := by
  simp only [State.takeErr, State.steady_record (page := 0x11) _ rfl]

theorem State.steady_unawait (s : State) (uid : ℕ) : q.get (State.unawait s uid) = q.get s := steady_of_forget (State.forget_unawait rfl ..)

theorem State.steady_refuseFrame (s : State) (f : FrameSt) : q.get (State.refuseFrame s f) = q.get s := by
  simp only [State.refuseFrame, State.steady_ackFrame, State.steady_takeErr, State.steady_unawait]

theorem State.steady_clearLanes (s : State) (gone : List FrameSt) : q.get (State.clearLanes s gone) = q.get s := steady_foldl _ _ (fun t l => by
    split
    · split
      · exact State.steady_modLane ..
      · rfl
    · split
      · exact State.steady_modLane ..
      · rfl
    · rfl) ..

theorem State.steady_setTake (s : State) (f : TakeSt → TakeSt) : q.get (State.setTake s f) = q.get s := steady_of_forget (State.forget_setTake rfl ..)

theorem State.steady_refuseFrames (s : State) (p : FrameSt → Bool) : q.get (State.refuseFrames s p) = q.get s := by
  simp only [State.refuseFrames, State.steady_refuseFrame, State.steady_clearLanes, State.steady_setTake, steady_foldl, implies_true]

theorem State.steady_modWin (s : State) (i : ℕ) (f : Window → Window) : q.get (State.modWin s i f) = q.get s := steady_of_forget (State.forget_modWin rfl ..)

theorem State.steady_sealWindow (s : State) (i : ℕ) (cut : Bool) : q.get (State.sealWindow s i cut) = q.get s := by
  simp only [State.sealWindow, State.steady_modWin, State.steady_pulse (page := 0x13) _ rfl, steady_ite, ite_self]

theorem State.steady_sealAll (s : State) : q.get (State.sealAll s) = q.get s := by
  simp only [State.sealAll, State.steady_sealWindow, steady_ite, ite_self, steady_foldl, implies_true]

theorem State.steady_trigErr (s : State) (code : ℕ) (src : ℕ) (slot : Option ℕ) : q.get (State.trigErr s code src slot) = q.get s := by
  simp only [State.trigErr, State.steady_record (page := 0x13) _ rfl]

theorem State.steady_refuseTrigger (s : State) (code : ℕ) (src : ℕ) : q.get (State.refuseTrigger s code src) = q.get s := by
  simp only [State.refuseTrigger, State.steady_trigErr, State.steady_bump (x := R.TRIG.REFUSED_COUNT_COUNT) _ rfl, State.steady_pulse (page := 0x13) _ rfl]

theorem State.steady_cutWindow (s : State) (i : ℕ) : q.get (State.cutWindow s i) = q.get s := by
  simp only [State.cutWindow, State.steady_modWin, State.steady_pulse (page := 0x13) _ rfl, State.steady_trigErr]

theorem State.steady_cutSealed (s : State) (i : ℕ) : q.get (State.cutSealed s i) = q.get s := by
  simp only [State.cutSealed, State.steady_modWin, State.steady_pulse (page := 0x13) _ rfl, State.steady_trigErr]

theorem State.steady_setTrig (s : State) (f : TrigSt → TrigSt) : q.get (State.setTrig s f) = q.get s := steady_of_forget (State.forget_setTrig rfl ..)

theorem State.steady_pinSpan (s : State) (i a b : Nat) : q.get (s.pinSpan i a b).2 = q.get s := by
  have hkeep (t : State) (l : List Nat) :
      q.get (l.foldl (fun t x => match t.take.c with | some c => t.keepSeg c.nsid x | none => t) t) = q.get t :=
    steady_foldl _ _ (fun t x => by
      cases t.take.c with
      | none => rfl
      | some c => exact steady_of_forget (State.forget_keepSeg rfl ..)) _
  unfold State.pinSpan
  dsimp only
  split
  · dsimp only
    split
    · exact State.steady_cutWindow ..
    · exact State.steady_cutSealed ..
  · dsimp only
    split
    · exact hkeep ..
    · split
      · rw [State.steady_setTrig]
        exact hkeep ..
      · rw [State.steady_trigErr, State.steady_pulse _ rfl, State.steady_setTrig]
        exact hkeep ..

theorem State.steady_pinFrame (s : State) (i : ℕ) (f : ℕ × ℕ × ℕ) : q.get (State.pinFrame s i f) = q.get s := by
  simp only [State.pinFrame, State.steady_modWin, State.steady_pinSpan, steady_ite, ite_self]

theorem State.steady_pinRetained (s : State) (i : ℕ) : q.get (State.pinRetained s i) = q.get s := by
  simp only [State.pinRetained, State.steady_pinFrame, steady_ite, ite_self, steady_foldl, implies_true]

theorem State.steady_pinArriving (s : State) (i : ℕ) (f : FrameSt) : q.get (State.pinArriving s i f) = q.get s := by
  unfold State.pinArriving
  split <;> simp only [State.steady_modWin, State.steady_pinSpan, steady_ite, ite_self]

theorem State.steady_pinUnderWay (s : State) (i : ℕ) : q.get (State.pinUnderWay s i) = q.get s := by
  simp only [State.pinUnderWay, State.steady_pinArriving, steady_foldl, implies_true]

theorem State.steady_trigger (s : State) (src : ℕ) (tag : ℕ) (time : ℕ) (pre : ℕ) (post : ℕ) : q.get (State.trigger s src tag time pre post) = q.get s := by
  unfold State.trigger
  dsimp only
  (repeat' split) <;> simp only [State.steady_refuseTrigger, State.steady_modWin, State.steady_pulse (page := 0x13) _ rfl, State.steady_pinRetained, State.steady_pinUnderWay, State.steady_bump (x := R.TRIG.ACCEPTED_COUNT_COUNT) _ rfl, State.steady_bump (x := R.TRIG.MERGED_COUNT_COUNT) _ rfl, State.steady_trigErr, steady_foldl, implies_true]

theorem State.steady_settleTriggers (s : State) : q.get (State.settleTriggers s) = q.get s := by
  simp only [State.settleTriggers, State.steady_trigger, State.steady_setTrig, steady_foldl, implies_true]

theorem State.steady_setGate (s : State) (f : GateSt → GateSt) : q.get (State.setGate s f) = q.get s := steady_of_forget (State.forget_setGate rfl ..)

theorem State.steady_advance (s : State) : q.get (State.advance s) = q.get s := by
  simp only [State.advance, State.steady_setGate, State.steady_level (page := 0x10) _ rfl]

theorem State.steady_setEar (s : State) (f : EarmarkSt → EarmarkSt) : q.get (State.setEar s f) = q.get s := steady_of_forget (State.forget_setEar rfl ..)

theorem State.steady_dropSpans (s : State) (p : ESpan → Bool) : q.get (State.dropSpans s p) = q.get s := by
  simp only [State.dropSpans, State.steady_setEar, State.steady_writeEnt, steady_foldl, implies_true]

theorem State.steady_enterSpan (s : State) (takeId : ℕ) (off : ℕ) (fs : List (ℕ × List ℕ)) : q.get (State.enterSpan s takeId off fs) = q.get s := by
  unfold State.enterSpan
  dsimp only
  (repeat' split) <;> simp only [State.steady_writeEnt, State.steady_dropSpans, State.steady_setEar]

theorem State.steady_ringRoom (s : State) (c : Contract) (newLen : ℕ) : q.get (State.ringRoom s c newLen) = q.get s := steady_of_forget (State.forget_ringRoom rfl ..)

theorem State.steady_setKeys (s : State) (f : KeySt → KeySt) : q.get (State.setKeys s f) = q.get s := steady_of_forget (State.forget_setKeys rfl ..)

theorem State.steady_maskStall (s : State) (p : ℕ) : q.get (State.maskStall s p) = q.get s := by
  simp only [State.maskStall, State.steady_pulse (page := 0x28) _ rfl, State.steady_bump (x := R.CIPHER.MASK_STALLS_COUNT) _ rfl, State.steady_setKeys, State.steady_record (page := 0x28) _ rfl, steady_ite, ite_self]

theorem State.steady_mediaStall (s : State) : q.get (State.mediaStall s) = q.get s := by
  unfold State.mediaStall
  split <;> simp only [State.steady_maskStall]

theorem State.steady_setImage (s : State) (f : MapImage → MapImage) : q.get (State.setImage s f) = q.get s := steady_of_forget (State.forget_setImage rfl ..)

theorem State.steady_mediaBytes (s : State) (n : Nat) : q.get (s.mediaBytes n) = q.get s :=
  (steady_of_forget (State.forget_drawMasks rfl ..)).trans (State.steady_bump _ rfl _)

theorem State.steady_openGroup (s : State) (use : GroupUse) (nsid : Nat) {t : State} (e : s.openGroup use nsid = some t) : q.get t = q.get s := by
  unfold State.openGroup at e
  dsimp only at e
  split at e
  · cases e
  · split at e
    · cases e
    · cases e
      rw [steady_of_forget (State.forget_markRegions rfl ..), steady_of_forget (State.forget_journal rfl ..)]
      have hm (f : MediaSt → MediaSt) (t : State) : q.get (t.setMedia f) = q.get t := steady_of_forget (State.forget_setMedia rfl ..)
      have ha (f : ArraySt → ArraySt) (t : State) : q.get (t.setArray f) = q.get t := steady_of_forget (State.forget_setArray rfl ..)
      split
      · rw [State.steady_put _ rfl, ha, State.setImage, hm, hm]
      · rw [ha, State.setImage, hm, hm]

theorem State.steady_roomFor (s : State) (use : GroupUse) (gn need : Nat) {r : Nat × State} (e : s.roomFor use gn need = some r) :
    q.get r.2 = q.get s := by
  unfold State.roomFor at e
  split at e
  · cases e
    rfl
  · split at e
    · cases e
    next u hu =>
      obtain ⟨g, -, rfl⟩ := Option.map_eq_some_iff.mp e
      exact (State.steady_openGroup _ _ _ hu).trans (steady_of_forget (State.forget_padStripe rfl ..))

theorem State.steady_placeUnit (s : State) (use : GroupUse) (gn nsid kind logical flags : Nat) (data : Bytes) (cmd : Option CmdKey) {t : State}
    (e : s.placeUnit use gn nsid kind logical flags data cmd = some t) : q.get t = q.get s := by
  have h1 := State.steady_openGroup (q := q)
  unfold State.placeUnit at e
  split at e
  · cases e
  · obtain ⟨r, hr, rfl⟩ := Option.map_eq_some_iff.mp e
    exact (steady_of_forget (State.forget_putIn rfl ..)).trans (State.steady_roomFor _ _ _ _ hr)

theorem State.steady_placeTake (x0 : ℕ) (x1 : State) : q.get (State.placeTake x0 x1) = q.get x1 := by
  induction x0 generalizing x1 with
  | zero => rfl
  | succ n ih =>
    unfold State.placeTake
    split
    · rfl
    · dsimp only
      split
      · rfl
      · split
        · rfl
        · split
          · rfl
          next t ht =>
            rw [ih, State.steady_setImage, State.steady_mediaBytes, State.steady_setTake]
            exact State.steady_placeUnit _ _ _ _ _ _ _ _ _ ht

theorem State.steady_placeAll (s : State) : q.get (State.placeAll s) = q.get s := by
  simp only [State.placeAll, State.steady_mediaStall, State.steady_placeTake, steady_ite, ite_self]

theorem State.steady_appendRaw (s : State) (bs : Bytes) : q.get (State.appendRaw s bs) = q.get s := by
  unfold State.appendRaw
  split <;> simp only [State.steady_setTake, State.steady_ringRoom, State.steady_placeAll]

theorem State.steady_appendIndex (s : State) (c : Contract) : q.get (State.appendIndex s c) = q.get s := by
  simp only [State.appendIndex, State.steady_setTake, State.steady_enterSpan, State.steady_appendRaw]

theorem State.steady_padStripe (s : State) (use : GroupUse) (gn : ℕ) : q.get (State.padStripe s use gn) = q.get s := steady_of_forget (State.forget_padStripe rfl ..)

theorem State.steady_placeTrailer (s : State) (c : Contract) (reason : ℕ) : q.get (State.placeTrailer s c reason) = q.get s := by
  simp only [State.placeTrailer, State.steady_appendIndex, State.steady_setTake, State.steady_appendRaw, State.steady_padStripe]

theorem State.steady_tryTrailer (s : State) : q.get (State.tryTrailer s) = q.get s := by
  unfold State.tryTrailer
  split <;> simp only [State.steady_placeTrailer, steady_ite, ite_self]

theorem State.steady_showStreams (s : State) : q.get s.showStreams = q.get s := State.steady_put _ rfl _

theorem State.steady_setJobs (s : State) (f : JobsSt → JobsSt) : q.get (State.setJobs s f) = q.get s := steady_of_forget (State.forget_setJobs rfl ..)

theorem State.steady_unparkJobs (s : State) : q.get (State.unparkJobs s) = q.get s := steady_foldl _ _ (fun t d => by
    cases (List.range 12).find? fun l => !t.laneReserved l && t.laneFree l with
    | none => rfl
    | some l => dsimp only; rw [State.steady_setJobs, State.steady_modLane]) ..

theorem State.steady_dispatchSlices (s : State) : q.get (State.dispatchSlices s) = q.get s := by
  rw [State.dispatchSlices, State.steady_unparkJobs]
  exact steady_foldl _ _ (fun t x => by
    cases (List.range 12).find? fun l => t.laneReserved l && t.laneFree l with
    | none => rfl
    | some l =>
      dsimp only
      split
      · rw [State.steady_setTake, State.steady_modLane]
      · rfl) ..

theorem State.steady_modFrame (s : State) (uid : ℕ) (f : FrameSt → FrameSt) : q.get (State.modFrame s uid f) = q.get s := steady_of_forget (State.forget_modFrame rfl ..)

theorem State.steady_queueSlices (s : State) (uid : ℕ) (n : ℕ) : q.get (State.queueSlices s uid n) = q.get s := by
  unfold State.queueSlices
  split <;> simp only [State.steady_dispatchSlices, State.steady_modFrame, State.steady_setTake]

theorem State.steady_gateErr (s : State) (code : ℕ) (stream : ℕ) (number : ℕ) : q.get (State.gateErr s code stream number) = q.get s := by
  simp only [State.gateErr, State.steady_record (page := 0x10) _ rfl]

theorem State.steady_endFrame (s : State) (f : FrameSt) (status : ℕ) (crc : Option ℕ) (damaged : Bool) : q.get (State.endFrame s f status crc damaged) = q.get s := by
  simp only [State.endFrame, State.steady_showStreams, State.steady_pulse (page := 0x10) _ rfl, State.steady_queueSlices, State.steady_bump (x := R.GATE.FRAMES_RX_COUNT) _ rfl, State.steady_bump (x := R.GATE.LONG_COUNT_COUNT) _ rfl, State.steady_bump (x := R.GATE.SHORT_COUNT_COUNT) _ rfl, State.steady_gateErr, State.steady_modFrame, steady_ite, ite_self]

theorem State.steady_endOpenFrames (s : State) (status : ℕ) : q.get (State.endOpenFrames s status) = q.get s := by
  simp only [State.endOpenFrames, State.steady_endFrame, steady_foldl, implies_true]

theorem State.steady_closeTake (s : State) (reason : ℕ) (cause : ℕ) (frameStatus : ℕ) : q.get (State.closeTake s reason cause frameStatus) = q.get s := by
  simp only [State.closeTake, State.puts_cons, State.puts_nil, State.steady_put (x := R.GATE.CREDIT_STATE_HELD_BREACH) _ rfl, State.steady_put (x := R.TAKE.TAKE_STATE_CLOSE_CAUSE) _ rfl, State.steady_put (x := R.TAKE.TAKE_STATE_STATE) _ rfl, State.steady_setTake, State.steady_sealAll, State.steady_settleTriggers, State.steady_advance, State.steady_tryTrailer, State.steady_takeErr, State.steady_endOpenFrames, steady_ite, ite_self]

theorem State.steady_closeSafe (s : State) : q.get (State.closeSafe s) = q.get s := by
  simp only [State.closeSafe, State.steady_refuseFrames, State.steady_closeTake, State.steady_endOpenFrames, steady_ite, ite_self]

theorem State.steady_setTrust (s : State) (f : TrustSt → TrustSt) : q.get (State.setTrust s f) = q.get s := steady_of_forget (State.forget_setTrust rfl ..)

theorem State.steady_hold (s : State) {f : Fld} (hf : loud f = true) (b : Bool) : q.get (s.hold f b) = q.get s := by
  rw [State.hold, State.steady_advance, State.steady_putBit _ hf]

theorem State.steady_audit (s : State) (o : Origin) (role : ℕ) (action : ℕ) (result : ℕ) (param : Bytes) : q.get (State.audit s o role action result param) = q.get s := steady_of_forget (State.forget_audit rfl ..)

theorem State.steady_endPerturb (s : State) (cause : PerturbEnd) : q.get (s.endPerturb cause) = q.get s := by
  have hpoints (t : State) : q.get (perturbPages.foldl (fun u p => if u.get (H.POINT p) = 0 then u else u.put (H.POINT p) 0) t) = q.get t :=
    steady_foldl _ _ (fun u p => by
      split
      · rfl
      · exact State.steady_put _ (loud_point p) _) _
  unfold State.endPerturb
  dsimp only
  split
  · rfl
  · rw [State.steady_pulse _ rfl, State.steady_setTrust, State.steady_hold _ rfl, State.steady_put _ rfl, hpoints, State.steady_audit]

theorem State.steady_setMode (hq : q.still = true) (s : State) (m : Nat) : q.get (s.setMode m) = q.get s := by
  have haccount (a : List ModeAcct) (b c : Nat) : q.get (s.setPwr fun p => { p with acct := a, modeSince := b, idleSince := c }) = q.get s := by
    cases q with
    | reg x hx => rfl
    | power f hf => exact hf s.pwr a b c
  unfold State.setMode
  dsimp only
  split
  · rfl
  · rw [State.steady_pulse_power _ hq, State.puts_cons, State.puts_cons, State.puts_nil, State.steady_put_power _ hq rfl (.inl rfl),
      State.steady_put_power _ hq rfl (.inl rfl)]
    exact haccount _ _ _

theorem State.steady_enterSafe (hq : q.still = true) (s : State) (bit : Nat) : q.get (s.enterSafe bit) = q.get s := by
  have hput (v : Nat) : q.get (s.put R.PWR.SAFE_CAUSE_CAUSE v) = q.get s := State.steady_put_power _ hq rfl (.inr rfl) _
  unfold State.enterSafe
  dsimp only
  split
  · exact hput _
  · split
    · split <;> simp only [State.steady_closeSafe, hput]
    · rw [State.steady_record_power _ hq, State.steady_pulse_power _ hq, State.steady_endPerturb, State.steady_setMode hq]
      split <;> simp only [State.steady_closeSafe, hput]

theorem State.steady_send (s : State) (p : Bytes) : q.get (State.send s p) = q.get s := steady_of_forget (State.forget_send rfl ..)

theorem State.steady_reserveLanes (s : State) (ls : List Nat) : q.get (s.reserveLanes ls) = q.get s := by
  rw [State.reserveLanes, State.steady_puts _ rfl]
  exact steady_foldl _ _ (fun t l => State.steady_put _ (loud_lane rfl rfl rfl) _) _

theorem State.steady_modContract (s : State) (f : Contract → Contract) : q.get (State.modContract s f) = q.get s := steady_of_forget (State.forget_modContract rfl ..)

theorem State.steady_recompute (s : State) : q.get (State.recompute s) = q.get s := by
  unfold State.recompute
  split <;> simp only [State.steady_dispatchSlices, State.puts_cons, State.puts_nil, State.steady_put (x := R.TAKE.DIE_SHARE_PERMILLE) _ rfl, State.steady_put (x := R.TAKE.GRANT_RATE_MBPS) _ rfl, State.steady_put (x := R.TAKE.UNSECURED_CAP_BYTES) _ rfl, State.steady_pulse (page := 0x11) _ rfl, State.steady_send, State.steady_bump (x := R.TAKE.RECOMPUTE_COUNT_COUNT) _ rfl, State.steady_takeErr, State.steady_reserveLanes, State.steady_modContract, steady_ite, ite_self]

theorem State.steady_modSlice (s : State) (uid : ℕ) (idx : ℕ) (f : TakeSlice → TakeSlice) : q.get (State.modSlice s uid idx f) = q.get s := steady_of_forget (State.forget_modSlice rfl ..)

theorem State.steady_startReemit (s : State) (uid : ℕ) (idx : ℕ) (l : ℕ) : q.get (State.startReemit s uid idx l) = q.get s := by
  unfold State.startReemit
  split <;> simp only [State.steady_modSlice, State.steady_modLane]

theorem State.steady_emptyLane (s : State) (l : ℕ) : q.get (State.emptyLane s l) = q.get s := (steady_foldl _ _ (fun t w => by
    split
    · exact State.steady_modSlice ..
    · exact (State.steady_startReemit ..).trans (State.steady_modSlice ..)
    · rfl) ..).trans (State.steady_modLane ..)

theorem State.steady_retireLane (hq : q.still = true) (s : State) (l : Nat) : q.get (s.retireLane l) = q.get s := by
  have hput (t : State) : q.get (t.puts [(R.LANE.LANE_STATUS_RETIRED l, 1), (H.RETIRED (lanePage l), 1),
      (R.SHEARS.LANES_LIVE_MASK, setBit (t.get R.SHEARS.LANES_LIVE_MASK) l false)]) = q.get t := by
    simp only [State.puts_cons, State.puts_nil]
    rw [State.steady_put _ rfl, State.steady_put _ (loud_of_place (by simp only [H.RETIRED, lanePage]; omega) (by simp [H.RETIRED]) rfl),
      State.steady_put _ (loud_lane rfl rfl rfl)]
  unfold State.retireLane
  dsimp only
  split
  · rfl
  · simp only [steady_ite, State.steady_enterSafe hq, State.steady_record (page := 0x24) _ rfl, State.steady_pulse (page := 0x24) _ rfl, ite_self,
      State.steady_dispatchSlices, State.steady_recompute, State.steady_emptyLane, State.steady_record _ (noisy_lanePage l),
      State.steady_pulse _ (noisy_lanePage l), hput]

theorem State.steady_showKeys (s : State) : q.get (State.showKeys s) = q.get s := by
  simp only [State.showKeys, State.puts_cons, State.puts_nil, State.steady_put (x := R.CIPHER.SLOTS_USED_CONTEXTS) _ rfl, State.steady_put (x := R.CIPHER.SLOTS_USED_KEYS) _ rfl, State.steady_put (x := R.KEYENG.KE_STATUS_HOLDER) _ rfl, State.steady_put (x := R.KEYENG.KE_STATUS_QUEUED) _ rfl, State.steady_put (x := R.KEYENG.KE_STATUS_STATE) _ rfl]

theorem State.steady_zeroiseKeys (s : State) : q.get (State.zeroiseKeys s) = q.get s := by
  simp only [State.zeroiseKeys, State.steady_pulse (page := 0x28) _ rfl, State.steady_setJobs, State.steady_setKeys, State.steady_showKeys]

theorem State.steady_closeKeys (s : State) : q.get (State.closeKeys s) = q.get s := by
  unfold State.closeKeys
  dsimp only
  (repeat' split) <;> simp only [State.steady_setTake, State.steady_refuseFrames, State.steady_closeTake, State.steady_put (x := R.TAKE.TAKE_STATE_CLOSE_CAUSE) _ rfl, State.steady_padStripe]

theorem State.steady_showTake (s : State) : q.get (State.showTake s) = q.get s := steady_of_forget (State.forget_showTake rfl ..)

theorem State.steady_settle (s : State) : q.get (State.settle s) = q.get s := by
  simp only [State.settle, State.steady_tryTrailer, State.steady_put (x := R.TAKE.SECURED_LEN_BYTES) _ rfl, State.steady_showTake, State.steady_advance]

theorem State.steady_alarm (s : State) (c : ℕ) : q.get (State.alarm s c) = q.get s := by
  simp only [State.alarm, State.steady_zeroiseKeys, State.puts_cons, State.puts_nil, State.steady_put (x := R.KEYENG.ALARM_CAUSE_CAUSE) _ rfl, State.steady_put (x := R.KEYENG.LAST_ALARM_DTIME) _ rfl, State.steady_endPerturb, State.steady_bump (x := R.KEYENG.ALARMS_COUNT) _ rfl, State.steady_pulse (page := 0x29) _ rfl, State.steady_closeKeys, State.steady_record (page := 0x29) _ rfl, State.steady_settle]

theorem State.steady_freeComparator (s : State) (r : Nat) : q.get (s.freeComparator r) = q.get s := by
  have hloud (x : Fld) (hx : x.page = 0xA) : loud x = true := by
    have hmask : x ∉ steadyMasks := by
      simp only [steadyMasks, List.mem_cons, List.not_mem_nil, or_false]
      rintro (rfl | rfl | rfl) <;> cases hx
    have h4 : Nat.ble 10 4 = false := rfl
    have h24 : Nat.ble 24 10 = false := rfl
    have h160 : Nat.ble 160 10 = false := rfl
    simp [loud, steady, hx, hmask, h4, h24, h160]
  rw [State.freeComparator]
  simp only [State.puts_cons, State.puts_nil]
  rw [State.steady_put _ (hloud _ rfl), State.steady_put _ (hloud _ rfl), State.steady_put _ (hloud _ rfl), State.steady_put _ (hloud _ rfl)]

theorem State.steady_showHolders (s : State) : q.get s.showHolders = q.get s := State.steady_puts _ rfl

theorem State.steady_endRole (s : State) (x : Session) (cause : RoleEnd) : q.get (State.endRole s x cause) = q.get s := by
  simp only [State.endRole, State.steady_endPerturb, State.steady_pulse (page := 0xA) _ rfl, State.steady_freeComparator, State.steady_setTrust, State.steady_audit, State.steady_showHolders, steady_ite, ite_self, steady_foldl, implies_true]

theorem State.steady_endRolesOf (s : State) (o : Origin) (cause : RoleEnd) : q.get (State.endRolesOf s o cause) = q.get s := by
  simp only [State.endRolesOf, State.steady_endRole, steady_foldl, implies_true]

theorem State.steady_linkReset (s : State) : q.get s.linkReset = q.get s := by
  unfold State.linkReset
  dsimp only
  rw [State.steady_pulse _ rfl, State.steady_endRolesOf]
  simp only [steady_ite, State.steady_audit, ite_self, State.steady_hold (f := R.GATE.CREDIT_STATE_HELD_RETRAIN) _ rfl, State.steady_setGate,
    State.puts_cons, State.puts_nil, State.steady_put (x := R.GATE.LINK_STATUS_LTSSM) _ rfl, State.steady_put (x := R.GATE.LINK_STATUS_ACTIVE) _ rfl,
    State.steady_put (x := R.GATE.LINK_STATUS_WIDTH) _ rfl]

theorem State.steady_endTrust (s : State) : q.get (State.endTrust s) = q.get s := by
  simp only [State.endTrust, State.steady_endPerturb, State.steady_endRole, steady_foldl, implies_true]

theorem State.steady_deriveMedia (s : State) : q.get (State.deriveMedia s) = q.get s := by
  simp only [State.deriveMedia, State.steady_setKeys, State.steady_showKeys]

theorem State.steady_derived (s : State) (unlock : Bool) : q.get (State.derived s unlock) = q.get s := by
  simp only [State.derived, State.steady_put (x := R.KEYENG.ALARM_CAUSE_CAUSE) _ rfl, State.steady_deriveMedia, State.steady_setKeys, State.steady_pulse (page := 0x29) _ rfl, steady_ite, ite_self]

theorem State.steady_derive (s : State) (unlock : Bool) : q.get (State.derive s unlock) = q.get s := by
  simp only [State.derive, State.steady_setKeys, State.steady_derived, steady_ite, ite_self]

theorem State.steady_failQueue (s : State) (d : ℕ) : q.get (s.failQueue d).2 = q.get s := steady_of_forget (State.forget_failQueue rfl ..)

theorem State.steady_arrayErr (s : State) (code : ℕ) (die : ℕ) (gn : ℕ) : q.get (State.arrayErr s code die gn) = q.get s := by
  simp only [State.arrayErr, State.steady_record (page := 0x62) _ rfl]

theorem State.steady_setReshape (s : State) (r : ReshapeRec) : q.get (State.setReshape s r) = q.get s := steady_of_forget (State.forget_setReshape rfl ..)

theorem State.steady_setArray (s : State) (f : ArraySt → ArraySt) : q.get (State.setArray s f) = q.get s := steady_of_forget (State.forget_setArray rfl ..)

theorem State.steady_closeFull (s : State) : q.get (State.closeFull s) = q.get s := steady_of_forget (State.forget_closeFull rfl ..)

theorem State.steady_startReshape (s : State) (newK : ℕ) : q.get (State.startReshape s newK) = q.get s := by
  simp only [State.startReshape, State.puts_cons, State.puts_nil, State.steady_put (x := R.ARRAY.LAYOUT_OLD_K) _ rfl, State.steady_put (x := R.ARRAY.RESHAPE_POS_UNITS) _ rfl, State.steady_put (x := R.ARRAY.RESHAPE_TOTAL_UNITS) _ rfl, State.steady_setReshape, State.steady_setArray, State.steady_put (x := R.MEDIA.MAXCAP_MB) _ rfl, State.steady_closeFull, steady_ite, ite_self]

theorem State.steady_autoReshape (s : State) : q.get (State.autoReshape s) = q.get s := by
  unfold State.autoReshape
  dsimp only
  (repeat' split) <;> simp only [State.steady_startReshape]

theorem State.steady_cutPinned (s : State) : q.get (State.cutPinned s) = q.get s := steady_of_forget (State.forget_cutPinned rfl ..)

theorem State.steady_cutTake (s : State) : q.get (State.cutTake s) = q.get s := by
  simp only [State.cutTake, State.steady_setTake, State.steady_cutPinned, State.steady_refuseFrame, steady_foldl, implies_true]

theorem State.steady_closeOffline (s : State) : q.get (State.closeOffline s) = q.get s := by
  simp only [State.closeOffline, State.puts_cons, State.puts_nil, State.steady_put (x := R.TAKE.TAKE_STATE_CLOSE_CAUSE) _ rfl, State.steady_setTake, State.steady_closeTake, State.steady_cutTake, State.steady_clearLanes, State.steady_takeErr, steady_ite, ite_self]

theorem State.steady_goOffline (hq : q.still = true) (s : State) (cause : ℕ) : q.get (State.goOffline s cause) = q.get s := by
  simp only [State.goOffline, State.steady_enterSafe hq, State.steady_settle, State.steady_arrayErr, State.steady_put (x := R.ARRAY.ARRAY_STATUS_OFFLINE_CAUSE) _ rfl, State.steady_closeOffline, State.steady_pulse (page := 0x62) _ rfl, steady_ite, ite_self]

theorem State.steady_checkOffline (hq : q.still = true) (s : State) : q.get (State.checkOffline s) = q.get s := by
  simp only [State.checkOffline, State.steady_goOffline hq, steady_ite, ite_self]

theorem State.steady_followChannels (hq : q.still = true) (s : State) : q.get (State.followChannels s) = q.get s := by
  simp only [State.followChannels, State.steady_autoReshape, State.steady_checkOffline hq, steady_ite, ite_self]

theorem State.steady_voidStripe (s : State) (gn : ℕ) (i : ℕ) : q.get (State.voidStripe s gn i) = q.get s := steady_of_forget (State.forget_voidStripe rfl ..)

theorem State.steady_dropPrograms (s : State) (gn : ℕ) (p : ℕ → Bool) : q.get (State.dropPrograms s gn p) = q.get s := steady_of_forget (State.forget_dropPrograms rfl ..)

theorem State.steady_modGroup (s : State) (n : ℕ) (f : Group → Group) : q.get (State.modGroup s n f) = q.get s := steady_of_forget (State.forget_modGroup rfl ..)

theorem State.steady_closeEnding (s : State) : q.get (State.closeEnding s) = q.get s := steady_of_forget (State.forget_closeEnding rfl ..)

theorem State.steady_putIn (s : State) (gn : ℕ) (u : DUnit) : q.get (State.putIn s gn u) = q.get s := steady_of_forget (State.forget_putIn rfl ..)

theorem State.steady_placeBatch (use : GroupUse) (gn : ℕ) (l : List DUnit) (s : State) {t : State} (e : State.placeBatch use gn l s = some t) : q.get t = q.get s := by
  have hput := State.steady_putIn (q := q)
  induction l generalizing s with
  | nil =>
    cases e
    rfl
  | cons u us ih =>
    unfold State.placeBatch at e
    split at e
    · obtain ⟨r, hr, rfl⟩ := Option.map_eq_some_iff.mp e
      exact (steady_foldl _ _ (fun t v => hput ..) _).trans (State.steady_roomFor _ _ _ _ hr)
    · split at e
      next r hr => exact (ih _ e).trans ((hput ..).trans (State.steady_roomFor _ _ _ _ hr))
      · cases e

theorem State.steady_setMedia (s : State) (f : MediaSt → MediaSt) : q.get (State.setMedia s f) = q.get s := steady_of_forget (State.forget_setMedia rfl ..)

theorem State.steady_noPlace (s : State) (use : GroupUse) (nsid : ℕ) : q.get (State.noPlace s use nsid) = q.get s := by
  simp only [State.noPlace, State.steady_pulse (page := 0x61) _ rfl, State.steady_record (page := 0x61) _ rfl, steady_ite, ite_self]

theorem State.steady_placeOrWait (s : State) (w : Waiting) : q.get (State.placeOrWait s w) = q.get s := by
  unfold State.placeOrWait
  split
  · rfl
  · split
    next t ht =>
      split at ht
      · cases ht
      · exact State.steady_placeBatch _ _ _ _ ht
    · exact (State.steady_setMedia ..).trans (State.steady_noPlace ..)

theorem State.steady_writeAgain (s : State) (l : List Waiting) : q.get (State.writeAgain s l) = q.get s := by
  simp only [State.writeAgain, State.steady_padStripe, State.steady_placeOrWait, steady_ite, ite_self, steady_foldl, implies_true]

theorem State.steady_closeLost (s : State) (gn : ℕ) : q.get (State.closeLost s gn) = q.get s := by
  unfold State.closeLost
  split <;> simp only [State.steady_voidStripe, State.steady_dropPrograms, State.steady_setArray, State.steady_modGroup, State.steady_closeEnding, State.steady_writeAgain, steady_ite, ite_self, steady_foldl, implies_true]

theorem State.steady_closeHit (s : State) (ds : List ℕ) : q.get (State.closeHit s ds) = q.get s := by
  simp only [State.closeHit, State.steady_closeLost, steady_ite, ite_self, steady_foldl, implies_true]

theorem State.steady_movePages (s : State) (ds : List ℕ) : q.get (State.movePages s ds) = q.get s := steady_of_forget (State.forget_movePages rfl ..)

theorem State.steady_skipErases (s : State) (ops : List DieOp) : q.get (State.skipErases s ops) = q.get s := steady_of_forget (State.forget_skipErases rfl ..)

theorem State.steady_setJournal (s : State) (l : List ℕ) : q.get (s.setJournal l) = q.get s := State.steady_puts _ rfl

theorem State.steady_replaceJournal (s : State) (d : ℕ) : q.get (State.replaceJournal s d) = q.get s := by
  unfold State.replaceJournal
  dsimp only
  (repeat' split) <;> simp only [State.steady_setJournal, State.steady_arrayErr]

theorem State.steady_markLost (s : State) (d : ℕ) : q.get (s.markLost d) = q.get s := by
  have harray (f : ArraySt → ArraySt) : q.get (s.setArray f) = q.get s := State.steady_setArray ..
  unfold State.markLost
  dsimp only
  split
  · rfl
  · rw [State.steady_replaceJournal, State.steady_arrayErr, State.steady_pulse (page := 0x62) _ rfl,
      State.steady_put _ (loud_of_late (by exact (by decide : 0x24 ≤ 0x62)) rfl), harray]

theorem State.steady_loseDies (hq : q.still = true) (s : State) (ds : List ℕ) : q.get (State.loseDies s ds).2 = q.get s := by
  have hqueues (l : List Nat) (p : List DieOp × State) :
      q.get (l.foldl (fun (p : List DieOp × State) d => let r := p.2.failQueue d; (p.1 ++ r.1, r.2)) p).2 = q.get p.2 := by
    induction l generalizing p with
    | nil => rfl
    | cons d l ih => exact (ih _).trans (State.steady_failQueue ..)
  have hcritical (t : State) (l : List Nat) : q.get (l.foldl (fun t g => t.arrayErr E.ARRAY_CRITICAL 0 g) t) = q.get t :=
    steady_foldl _ _ (fun t g => State.steady_arrayErr ..) _
  have hdrop (t : State) (new : List Nat) : q.get (t.setImage fun i => { i with groups := i.groups.map (·.dropDies new) }) = q.get t := State.steady_setImage ..
  unfold State.loseDies
  dsimp only
  split
  · rfl
  · dsimp only
    rw [State.steady_settle, State.steady_recompute, State.steady_followChannels hq]
    split
    · rw [State.steady_closeHit, State.steady_movePages, hdrop, State.steady_skipErases, hqueues]
      exact steady_foldl _ _ (fun t d => State.steady_markLost ..) _
    · rw [hcritical, State.steady_pulse (page := 0x62) _ rfl, State.steady_closeHit, State.steady_movePages, hdrop, State.steady_skipErases, hqueues]
      exact steady_foldl _ _ (fun t d => State.steady_markLost ..) _

theorem State.steady_holdupShort (s : State) : q.get (State.holdupShort s) = q.get s := by
  unfold State.holdupShort
  split <;> simp only [State.steady_record (page := 0x11) _ rfl, steady_ite, ite_self]

theorem State.steady_cutMaps (s : State) : q.get (State.cutMaps s) = q.get s := steady_of_forget (State.forget_cutMaps rfl ..)

theorem State.steady_loadSlot (s : State) (k : KeySlot) : q.get (State.loadSlot s k) = q.get s := by
  simp only [State.loadSlot, State.steady_setKeys, State.steady_showKeys]

theorem State.steady_mediaKey (s : State) (rec seq : ℕ) : q.get (s.mediaKey rec seq).2 = q.get s := by
  unfold State.mediaKey
  split
  · exact State.steady_loadSlot ..
  · split
    · split
      · exact State.steady_loadSlot ..
      · rfl
    · rfl

theorem State.steady_closeTakeGroups (s : State) (nsid : ℕ) : q.get (State.closeTakeGroups s nsid) = q.get s := steady_of_forget (State.forget_closeTakeGroups rfl ..)

theorem State.steady_sealNs (s : State) (nsid : ℕ) (reason : ℕ) (len : ℕ) (incomplete : Bool) : q.get (State.sealNs s nsid reason len incomplete) = q.get s := steady_of_forget (State.forget_sealNs rfl ..)

theorem State.steady_placeOwed (s : State) (o : ℕ × TakeSt) : q.get (State.placeOwed s o) = q.get s := by
  have htake (t : State) (x : TakeSt) : q.get { t with take := x } = q.get t := steady_of_forget rfl
  have hkeys (t : State) (f : KeySt → KeySt) : q.get (t.setKeys f) = q.get t := State.steady_setKeys ..
  unfold State.placeOwed
  split
  next n c hn hc =>
    have hm := State.steady_mediaKey (q := q) s n.keyRec n.keySeq
    split
    next t ht => rwa [ht] at hm
    next k t ht =>
      rw [ht] at hm
      split
      · exact hm
      · dsimp only
        rw [hkeys, htake, State.steady_closeTakeGroups, State.steady_sealNs, State.steady_placeTrailer, htake]
        exact hm
  · exact hkeys ..

theorem State.steady_owedTrails (s : State) : q.get (State.owedTrails s) = q.get s := by
  simp only [State.owedTrails, State.steady_placeOwed, steady_ite, ite_self, steady_foldl, implies_true]

theorem State.steady_readUnit (s : State) (gn u : ℕ) : q.get (s.readUnit gn u).2 = q.get s := by
  have hreconstructed (info : Nat) : q.get ((s.bump R.ARRAY.RECONSTRUCTED_COUNT).record 0x62 E.ARRAY_RECONSTRUCTED info) = q.get s :=
    (State.steady_record (page := 0x62) _ rfl ..).trans (State.steady_bump _ rfl _)
  have hhole (info : Nat) : q.get (((s.bump R.ARRAY.WRITE_HOLE_COUNT).pulse 0x62 Ev.ARRAY.WRITE_HOLE).record 0x62 E.ARRAY_WRITE_HOLE info) = q.get s :=
    (State.steady_record (page := 0x62) _ rfl ..).trans ((State.steady_pulse (page := 0x62) _ rfl _).trans (State.steady_bump _ rfl _))
  unfold State.readUnit
  dsimp only
  split
  · rfl
  · split
    · rfl
    · split
      · rfl
      · split
        · rfl
        · split
          · exact hreconstructed _
          · split
            · exact hhole _
            · rfl

theorem State.steady_fetchUnit (s : State) (gn u : ℕ) : q.get (s.fetchUnit gn u).2 = q.get s := by
  have hread (t : State) : q.get (t.readUnit gn u).2 = q.get t := State.steady_readUnit ..
  unfold State.fetchUnit
  dsimp only
  split
  · rfl
  · split
    · rfl
    · split
      · exact hread s
      · rw [hread]
        exact steady_foldl _ _ (fun t x => steady_of_forget (State.forget_sendOnfi rfl ..)) _

theorem State.steady_readPlain (s : State) (key : Bytes) (nsid unit : ℕ) : q.get (s.readPlain key nsid unit).2 = q.get s := by
  unfold State.readPlain
  split
  next g u _ =>
    have h := State.steady_fetchUnit (q := q) s g u
    split
    next heq => rwa [heq] at h
    next heq => rwa [heq] at h
  · rfl
  · rfl

theorem State.steady_readUnits (key : Bytes) (nsid : ℕ) (l : List ℕ) (s : State) : q.get (State.readUnits key nsid l s).2 = q.get s := by
  induction l generalizing s with
  | nil => rfl
  | cons u us ih =>
    have h := State.steady_readPlain (q := q) s key nsid u
    unfold State.readUnits
    split
    next heq => rwa [heq] at h
    next t heq =>
      rw [heq] at h
      have hi := ih t
      split
      next heq2 => rw [heq2] at hi; exact hi.trans h
      next heq2 => rw [heq2] at hi; exact hi.trans h

theorem State.steady_readTake (s : State) (n : Ns) (off len : ℕ) : q.get (s.readTake n off len).2 = q.get s := by
  have h := State.steady_mediaKey (q := q) s n.keyRec n.keySeq
  unfold State.readTake
  split
  · exact State.steady_mediaStall ..
  · split
    next heq => rwa [heq] at h
    next key t heq =>
      rw [heq] at h
      dsimp only
      have hu := State.steady_readUnits (q := q) key n.nsid ((List.range (ceilDiv (off + len) 4096 - off / 4096)).map (off / 4096 + ·)) t
      split
      next heq2 => rw [heq2] at hu; exact hu.trans h
      next heq2 => rw [heq2] at hu; exact hu.trans h

theorem State.steady_frameRecords (s : State) (n : Ns) (f : ℕ × ℕ × ℕ) : q.get (s.frameRecords n f).2 = q.get s := by
  have h := State.steady_readTake (q := q) s n f.1 (f.2.2 - f.1)
  unfold State.frameRecords
  split
  next heq => rwa [heq] at h
  next heq => rwa [heq] at h

theorem State.steady_indexedFrames (s : State) (n : Ns) (off entries : ℕ) : q.get (s.indexedFrames n off entries).2 = q.get s := by
  have h := State.steady_readTake (q := q) s n (off + 64) (32 * entries)
  unfold State.indexedFrames
  split
  next heq => rwa [heq] at h
  next es t heq =>
    rw [heq] at h
    refine Eq.trans ?_ h
    refine foldl_keeps (fun r : List (ℕ × List ℕ) × State => q.get r.2) (fun r i => ?_) _ _
    have hr := State.steady_readTake (q := q) r.2 n (leNat (sliceBytes es (32 * i + 16) 8)) 64
    dsimp only
    split
    next heq2 => rwa [heq2] at hr
    next heq2 =>
      rw [heq2] at hr
      exact (State.steady_frameRecords ..).trans hr

theorem State.steady_enterChain (n : Ns) (takeId f off : ℕ) (s : State) : q.get (State.enterChain n takeId f off s) = q.get s := by
  induction f generalizing off s with
  | zero => rfl
  | succ f ih =>
    have h := State.steady_readTake (q := q) s n off 64
    unfold State.enterChain
    split
    · rfl
    · split
      next heq => rwa [heq] at h
      next heq =>
        rw [heq] at h
        split
        · exact h
        · exact (State.steady_enterSpan ..).trans ((State.steady_indexedFrames ..).trans ((ih _ _).trans h))

theorem State.steady_bootSpans (s : State) : q.get s.bootSpans = q.get s := by
  unfold State.bootSpans
  split
  · rfl
  · refine steady_foldl _ _ (fun t n => ?_) s
    split
    · rfl
    · split
      · rfl
      · have h := State.steady_readTake (q := q) t n (4096 * n.nuse - 4096) 4096
        split
        next heq => rwa [heq] at h
        next heq =>
          rw [heq] at h
          split
          · exact (State.steady_enterChain ..).trans h
          · exact h

end

end Sys2Proof.Machine
end

section
/-!
Relocations (R217-R219): GC_VICTIMS is a field of 64 bits, so its count goes on past 2^32 - 1.
-/

namespace Sys2Proof.Machine

/-- A closed group without a stripe. -/
def emptyGroup : Group := ⟨1, 8, .block, 0, [], .closed, [], 0, 0, [], [], false, true, false, none⟩

/-- A device that relocates that group for garbage collection and has counted 2^32 - 1 victims. -/
def manyVictims : State :=
  { State.reset with
    regs := [(R.MEDIA.GC_VICTIMS_COUNT, 2 ^ 32 - 1)]
    media := { State.reset.media with image := { State.reset.media.image with groups := [emptyGroup] }, reloc := some (1, [], 0), patrolled := [1] } }

theorem manyVictims_ready : manyVictims.mayTask 5 = true := by decide +kernel

/-- The next victim is counted as number 2^32. -/
theorem manyVictims_counts : (outState manyVictims (exec .relocationCopyDone manyVictims)).get R.MEDIA.GC_VICTIMS_COUNT = 2 ^ 32 := by decide +kernel

/-- Refutes O14: GC_VICTIMS has 64 bits and counts the victim after 2^32 - 1, where the statement has it stay. -/
theorem not_mediaBackgroundWorks : ¬ Obligations.MediaBackgroundWorks := by
  unfold Obligations.MediaBackgroundWorks
  rintro ⟨-, -, -, -, -, -, -, -, -, hfreed, -⟩
  obtain ⟨t, ht, -, -, -, -, hcount⟩ := hfreed manyVictims 1 0 [] emptyGroup rfl rfl (by decide) manyVictims_ready (by decide +kernel)
  have hout : outState manyVictims (exec .relocationCopyDone manyVictims) = t := congrArg (outState manyVictims) ht
  have hfull := hcount (by decide)
  rw [← hout, manyVictims_counts] at hfull
  exact absurd hfull (by decide +kernel)

end Sys2Proof.Machine
end

section
/-!
The journal (R224-R226): a record that is appended changes only the page being filled, the pages on flash and SEQ.
-/

namespace Sys2Proof.Machine

open Sys2Proof.Laws

/-- `s` without the dies' queues, the metadata pages and the journal's pages. -/
def State.sansJournal (s : State) : State :=
  { s with nand := State.reset.nand,
           media := { s.media with pages := [], nextPage := 0, metaBlocks := [], page := [], pageSince := 0, journal := [] } }

section
variable {s t : State}

theorem State.sansJournal_of_frame (h : forget 0x20000 t = forget 0x20000 s) : t.sansJournal = s.sansJournal :=
  (congrArg State.sansJournal h : (forget 0x20000 t).sansJournal = (forget 0x20000 s).sansJournal)

theorem State.takeUnit_sansJournal {d : Nat} {stripe : Bool} {b : Nat × Nat} (h : s.takeUnit d stripe = some (b, t)) :
    t.sansJournal = s.sansJournal := by
  unfold State.takeUnit at h
  split at h
  · cases h; rfl
  · split at h
    · cases h
    · obtain ⟨b', -, hb⟩ := Option.map_eq_some_iff.mp h
      cases hb; rfl

theorem State.addCopy_sansJournal (s : State) (n i d : Nat) : (s.addCopy n i d).sansJournal = s.sansJournal := by
  unfold State.addCopy
  split
  · rfl
  · split
    · rfl
    next hu => exact (State.sansJournal_of_frame (State.forget_queueOp rfl ..)).trans (State.takeUnit_sansJournal hu :)

theorem State.putPage_sansJournal {kind seq : Nat} {stripe : Bool} {data : Bytes} {n : Nat} (h : s.putPage kind seq stripe data = some (n, t)) :
    t.sansJournal = s.sansJournal := by
  have hfold (l : List (Nat × Nat)) (m : Nat) (u : State) : (l.foldl (fun t d => t.addCopy m d.2 d.1) u).sansJournal = u.sansJournal := by
    induction l generalizing u with
    | nil => rfl
    | cons d l ih => exact (ih _).trans (State.addCopy_sansJournal ..)
  unfold State.putPage at h
  dsimp only at h
  split at h
  · cases h
  · cases h
    exact (hfold ..).trans rfl

theorem State.writeJournal_sansJournal (s : State) : s.writeJournal.sansJournal = s.sansJournal := by
  unfold State.writeJournal
  dsimp only
  split
  · rfl
  · split
    · rfl
    next hp => exact (State.putPage_sansJournal hp :)

theorem State.addRec_sansJournal (s : State) (r : JRec) : (s.addRec r).sansJournal = s.sansJournal := by
  unfold State.addRec
  dsimp only
  split
  · exact State.writeJournal_sansJournal _
  · rfl

/-- An appended record takes the next SEQ. -/
theorem State.journal_sansJournal (s : State) (kind count nsid logical : Nat) (ma : Nat × Nat) :
    (s.journal kind count nsid logical ma).sansJournal = (s.setMedia fun m => { m with seq := m.seq + 1 }).sansJournal :=
  State.addRec_sansJournal ..

/-! ### What two states agree on that differ only so -/

theorem State.groups_of_sansJournal (h : t.sansJournal = s.sansJournal) : t.groups = s.groups :=
  (congrArg State.groups h : t.sansJournal.groups = s.sansJournal.groups)

theorem State.image_of_sansJournal (h : t.sansJournal = s.sansJournal) : t.media.image = s.media.image :=
  (congrArg (fun u : State => u.media.image) h : t.sansJournal.media.image = s.sansJournal.media.image)

theorem State.seq_of_sansJournal (h : t.sansJournal = s.sansJournal) : t.media.seq = s.media.seq :=
  (congrArg (fun u : State => u.media.seq) h : t.sansJournal.media.seq = s.sansJournal.media.seq)

theorem State.freed_of_sansJournal (h : t.sansJournal = s.sansJournal) : t.media.freed = s.media.freed :=
  (congrArg (fun u : State => u.media.freed) h : t.sansJournal.media.freed = s.sansJournal.media.freed)

end

end Sys2Proof.Machine
end

section
/-!
The logical map keeps the copy of the higher SEQ (R220, R252).
-/

namespace Sys2Proof.Machine

open Sys2Proof.Laws

theorem State.mapUnit_of_older {s : State} {nsid logical seq : Nat} {e : MapEnt} (he : s.mapEnt nsid logical = some e)
    (hseq : seq < s.entSeq e) (gn u : Nat) : s.mapUnit nsid logical gn u seq = s := by
  simp only [State.mapUnit, he, if_pos hseq]

theorem State.residePage_image (s : State) (p : Nat) : (s.residePage p).media.image = s.media.image := by
  simp only [State.residePage, apply_ite State.media, State.setMedia_media, apply_ite MediaSt.image, ite_self]

theorem State.needPage_image (s : State) (p : Nat) (use : OpFor) : (s.needPage p use).2.media.image = s.media.image := by
  have hqueue (t : State) (d : Nat) (op : DieOp) : (t.queueOp d op).media = t.media :=
    keeps_media (State.forget_queueOp (T := 0x20000) rfl ..) rfl
  unfold State.needPage
  split
  · split
    · simp only [hqueue, State.residePage_image]
    · exact State.residePage_image ..
  · exact State.residePage_image ..

/-- Marking a page of the map dirty changes no entry. -/
theorem State.dirtyPage_image (s : State) (nsid logical : Nat) : (s.dirtyPage nsid logical).media.image = s.media.image :=
  State.needPage_image ..

/-- A unit that is not older takes the entry, and the map is otherwise as before. -/
theorem State.mapUnit_map_of_newer {s : State} {nsid logical seq : Nat} (h : ∀ e, s.mapEnt nsid logical = some e → s.entSeq e ≤ seq)
    (gn u : Nat) : (s.mapUnit nsid logical gn u seq).media.image.map = assocSet s.media.image.map (nsid, logical) (.mapped gn u) := by
  cases he : s.mapEnt nsid logical with
  | none => simp only [State.mapUnit, he, State.setArray_media, State.setMedia_media, State.dirtyPage_image]; rfl
  | some e =>
    simp only [State.mapUnit, he, if_neg (Nat.not_lt.mpr (h e he)), State.setArray_media, State.setMedia_media, State.dirtyPage_image]
    rfl

/-- Settles O17: an older unit changes nothing, and any other takes its entry only. -/
theorem theNewestCopyWins : Obligations.TheNewestCopyWins := by
  refine ⟨fun s nsid logical gn u seq e he hseq => State.mapUnit_of_older he hseq gn u, fun s nsid logical gn u seq h => ?_,
    fun s nsid logical gn u seq q he hseq => ?_⟩
  · simp only [State.mapEnt, State.mapUnit_map_of_newer h]
    exact ⟨assoc_assocSet_same .., fun n l hne => assoc_assocSet_other _ _ hne⟩
  · rw [State.mapUnit_of_older he hseq, he]

end Sys2Proof.Machine
end

section
/-!
The array's background work: snapshots, the bitmap, rebuilding, resynchronisation and reshaping (R225, R275-R298).
-/

namespace Sys2Proof.Machine

open Sys2Proof.Laws

/-! ### Snapshots and the bitmap -/

section
variable {s t : State} {p : Nat} {n : Snapshot}

theorem exec_stripeSnapshot_new (hn : s.array.snapNew = none) (hd : s.array.snapDirty = true)
    (hp : s.putPage 0 s.makeSnap.mark true s.makeSnap.bytes = some (p, t)) :
    exec .stripeSnapshot s = .next (t.setArray fun a => { a with snapNew := some (p, s.makeSnap), snapDirty := false }) := by
  show execStripeSnapshot s = _
  unfold execStripeSnapshot
  simp only [hn, hd, hp]
  rfl

theorem exec_stripeSnapshot_again (hn : s.array.snapNew = some (p, n)) : exec .stripeSnapshot s = .next (s.requeueCopies p) := by
  show execStripeSnapshot s = _
  unfold execStripeSnapshot
  simp only [hn]

theorem State.makeSnap_seq {last : Option (Nat × Snapshot)} (h : last = s.array.snap ∨ last = s.array.snapNew) (x : Nat × Snapshot) (hx : last = some x) :
    x.2.seq < s.makeSnap.seq := by
  unfold State.makeSnap
  dsimp only
  rcases h with h | h
  · rw [← h, hx]
    exact Nat.lt_succ_of_le (le_max_left ..)
  · rw [← h, hx]
    exact Nat.lt_succ_of_le (le_max_right ..)

theorem State.makeSnap_length : s.makeSnap.stripes.length ≤ 2048 := List.length_take_le ..

theorem State.snapStep_of_done (hn : s.array.snapNew = some (p, n)) (hd : s.pageDone p = true) :
    s.snapStep = (s.setArray fun a => { a with snap := some (p, n), snapNew := none }).clearRegions.issueReady.dropPages := by
  unfold State.snapStep
  simp only [hn]
  exact if_pos hd

/-- The wear of tally words keeps the header. -/
theorem State.wearTally_header (s : State) (a : TallyArea) (is : List Nat) : (s.wearTally a is).tally.header = s.tally.header :=
  foldl_keeps TallySt.header (fun t i => by
    unfold TallySt.wear
    dsimp only
    split <;> rfl) is s.tally

theorem State.writeBitmapHeader_header (s : State) :
    s.writeBitmapHeader.tally.header = List.replicate 2 (bitmapHeader (s.get R.ARRAY.BITMAP_POSITION) s.array.bitmapWrites) :=
  State.wearTally_header ..

/-- The state in which the bitmap lies at a position, its header not yet rewritten. -/
def State.bitmapAt (s : State) (p : Nat) (is : List Nat) : State :=
  ((s.wearTally .bitmap is).setArray fun a => { a with bitmapWrites := 0 }).put R.ARRAY.BITMAP_POSITION p

theorem exec_bitmapMove (h : s.bitmapM ≤ s.array.bitmapWrites) :
    ∃ is, exec .bitmapMove s = .next (s.bitmapAt ((s.get R.ARRAY.BITMAP_POSITION + 1) % 64) is).writeBitmapHeader :=
  ⟨_, if_neg (Nat.not_lt.mpr h)⟩

theorem State.bitmapAt_position (s : State) {p : Nat} (hp : p < 64) (is : List Nat) : (s.bitmapAt p is).get R.ARRAY.BITMAP_POSITION = p :=
  (State.get_put_same ..).trans (Nat.mod_eq_of_lt hp)

end

/-! ### Rebuilding -/

section
variable {s : State}

theorem State.noteWait_keeps (s : State) (gn : Nat) {x : Nat} (hx : x ∈ s.array.noReplacement ∨ x = gn) : x ∈ (s.noteWait gn).array.noReplacement := by
  unfold State.noteWait
  split
  case isTrue h =>
    rcases hx with hx | rfl
    · exact hx
    · simpa using h
  case isFalse =>
    rw [State.arrayErr, State.record_array, State.pulse_array, State.setArray_array, List.mem_append, List.mem_singleton]
    exact hx

theorem State.noteWait_foldl (l : List Nat) (s : State) {x : Nat} (hx : x ∈ s.array.noReplacement ∨ x ∈ l) :
    x ∈ (l.foldl State.noteWait s).array.noReplacement := by
  induction l generalizing s with
  | nil => exact hx.resolve_right List.not_mem_nil
  | cons gn l ih =>
    refine ih _ ?_
    rcases hx with hx | hx
    · exact .inl (s.noteWait_keeps gn (.inl hx))
    · rcases List.mem_cons.mp hx with rfl | hx
      · exact .inl (s.noteWait_keeps _ (.inr rfl))
      · exact .inr hx

theorem exec_rebuildStripe_first {gn i : Nat} {l : List (Nat × Nat)} (hm : s.mayTask 0 = true) (hl : s.toRebuild = (gn, i) :: l)
    (hall : (s.toRebuild.all fun x => s.canRebuild x.1) = true) : exec .rebuildStripe s
      = .next (((s.replaceMembers gn).2.setArray fun a => { a with noReplacement := a.noReplacement.filter (· != gn) }).rebuildAt gn i) := by
  have hnone : ((s.toRebuild.map (·.1)).eraseDups.filter (!s.canRebuild ·)) = [] := by
    rw [List.filter_eq_nil_iff]
    intro x hx
    obtain ⟨y, hy, rfl⟩ := List.mem_map.mp (List.mem_eraseDups.mp hx)
    simpa using List.all_eq_true.mp hall y hy
  have hfind : s.toRebuild.find? (fun x => s.canRebuild x.1) = some (gn, i) := by
    have hgn : s.canRebuild gn = true := List.all_eq_true.mp hall (gn, i) (by rw [hl]; exact List.mem_cons_self)
    rw [hl, List.find?_cons_of_pos (p := fun x : Nat × Nat => s.canRebuild x.1) hgn]
  show execRebuildStripe s = _
  unfold execRebuildStripe
  simp only [hm, hnone, hfind]
  rfl

theorem exec_rebuildStripe_none (hm : s.mayTask 0 = true) (hall : (s.toRebuild.all fun x => !s.canRebuild x.1) = true) :
    exec .rebuildStripe s = .next (((s.toRebuild.map (·.1)).eraseDups.filter (!s.canRebuild ·)).foldl State.noteWait s) := by
  have hfind : s.toRebuild.find? (fun x => s.canRebuild x.1) = none := by
    rw [List.find?_eq_none]
    exact fun x hx => by simpa using List.all_eq_true.mp hall x hx
  show execRebuildStripe s = _
  unfold execRebuildStripe
  simp only [hm, hfind]
  rfl

theorem State.mem_toRebuild {x : Nat × Nat} (h : x ∈ s.toRebuild) :
    (x ∈ s.critical ∨ x ∈ s.degraded ∧ s.mayTask 3 = true) ∧ s.groupClosed x.1 = true ∧ s.rebuilding x = false := by
  obtain ⟨hx, hp⟩ := List.mem_filter.mp h
  simp only [Bool.and_eq_true, Bool.not_eq_true'] at hp
  refine ⟨?_, hp⟩
  split at hx
  case isTrue h3 => exact (List.mem_append.mp hx).imp id fun hd => ⟨hd, h3⟩
  case isFalse => exact .inl hx

/-! ### Resynchronisation -/

theorem State.nextResync_spec {x : Nat × Nat} (h : s.nextResync = some x) : x ∈ s.array.owed
    ∧ (s.openAtStop x = true ∧ s.mayTask 1 = true ∨ s.openAtStop x = false ∧ s.mayTask 4 = true) := by
  have howed {y : Nat × Nat} (hy : y ∈ s.resyncReady) : y ∈ s.array.owed := (List.mem_filter.mp hy).1
  unfold State.nextResync at h
  split at h
  next y hy =>
    split at h
    case isTrue h1 =>
      cases h
      exact ⟨howed (List.mem_of_find?_eq_some hy), .inl ⟨List.find?_some hy, h1⟩⟩
    case isFalse => cases h
  next hn =>
    split at h
    case isTrue h4 =>
      have hmem := List.mem_of_mem_head? h
      exact ⟨howed hmem, .inr ⟨by simpa using List.find?_eq_none.mp hn x hmem, h4⟩⟩
    case isFalse => cases h

theorem exec_resyncStripe {gn i : Nat} (h : s.nextResync = some (gn, i)) : exec .resyncStripe s
    = .next (if (s.resyncAt gn i).array.owed.isEmpty then ((s.resyncAt gn i).pulse 0x62 Ev.ARRAY.RESYNC_DONE).freeEmpty else s.resyncAt gn i) := by
  show execResyncStripe s = _
  unfold execResyncStripe
  simp only [h]

/-! ### Reshaping -/

theorem State.setReshape_array (s : State) (r : ReshapeRec) : (s.setReshape r).array = { s.array with reshape := some r } := rfl

theorem State.setReshape_get (s : State) (r : ReshapeRec) (x : Fld) : (s.setReshape r).get x = s.get x := rfl

theorem State.setReshape_media (s : State) (r : ReshapeRec) : (s.setReshape r).media = s.media := rfl

/-- The groups that a reshape takes in turn, each with its units. -/
def State.reshapeGroups (s : State) (newK : Nat) : List (Nat × Nat) :=
  (((s.groups.filter fun g => g.state != .freed && g.k != newK).map (·.num)).foldl insertSorted []).filterMap fun n =>
    (s.group? n).map fun g => (n, s.groupUnits g)

def State.reshapeTotal (s : State) (newK : Nat) : Nat := ((s.reshapeGroups newK).map (·.2)).foldl (· + ·) 0

/-- The capacity of a narrower layout. -/
def State.narrow (s : State) (newK : Nat) : State :=
  if newK < s.width then s.put R.MEDIA.MAXCAP_MB (narrowedCap (s.get R.MEDIA.MAXCAP_MB) s.width newK) else s

/-- The record of a reshape that begins. -/
def State.newReshape (s : State) (newK : Nat) : ReshapeRec :=
  ⟨s.width, newK, (s.narrow newK).get R.ARRAY.LAYOUT_GENERATION, 0, s.reshapeTotal newK, true⟩

/-- The state in which a reshape has begun, takes not yet closed for want of capacity. -/
def State.reshapeBegun (s : State) (newK : Nat) : State :=
  (((s.narrow newK).setArray fun a => { a with reshapeSeq := s.reshapeGroups newK, reshapeFreed := 0, snapDirty := true }).setReshape
    (s.newReshape newK)).puts
      [(R.ARRAY.LAYOUT_OLD_K, kCode s.width), (R.ARRAY.RESHAPE_POS_UNITS, 0), (R.ARRAY.RESHAPE_TOTAL_UNITS, s.reshapeTotal newK)]

theorem State.narrow_media (s : State) (newK : Nat) : (s.narrow newK).media = s.media := by
  unfold State.narrow
  split <;> rfl

theorem State.startReshape_eq (s : State) (newK : Nat) : s.startReshape newK = (s.reshapeBegun newK).closeFull := rfl

theorem State.reshapeBegun_spec (s : State) (newK : Nat) : (s.reshapeBegun newK).media = s.media
    ∧ (∃ r : ReshapeRec, (s.reshapeBegun newK).array.reshape = some r ∧ r.active = true ∧ r.oldK = s.width ∧ r.newK = newK ∧ r.boundary = 0)
    ∧ (s.reshapeBegun newK).get R.ARRAY.RESHAPE_POS_UNITS = 0
    ∧ (newK < s.width → (s.reshapeBegun newK).get R.MEDIA.MAXCAP_MB
        = narrowedCap (s.get R.MEDIA.MAXCAP_MB) s.width newK % 2 ^ R.MEDIA.MAXCAP_MB.w) := by
  unfold State.reshapeBegun
  simp only [State.puts_cons, State.puts_nil]
  refine ⟨?_, ⟨s.newReshape newK, ?_, rfl, rfl, rfl, rfl⟩, ?_, fun h => ?_⟩
  · simp only [State.put_media, State.setReshape_media, State.setArray_media, State.narrow_media]
  · simp only [State.put_array, State.setReshape_array]
  · rw [State.get_put_of_place _ _ rfl, State.get_put_same]
    rfl
  · rw [State.get_put_of_page _ _ rfl, State.get_put_of_page _ _ rfl, State.get_put_of_page _ _ rfl, State.setReshape_get, State.narrow, if_pos h]
    exact State.get_put_same ..

/-- The record of a reshape that has ended. -/
def State.lastReshape (s : State) (r : ReshapeRec) : ReshapeRec :=
  { r with active := false, gen := min 255 (s.get R.ARRAY.LAYOUT_GENERATION + 1), oldK := r.newK }

/-- The state in which a reshape has ended, the channels not yet looked at. -/
def State.reshapeEnded (s : State) (r : ReshapeRec) : State :=
  (((((s.setArray fun a => { a with reshapeSeq := [] }).setReshape (s.lastReshape r)).setImage fun i =>
    { i with opened := i.opened.filter (·.1 == r.newK) }).puts
      [(R.ARRAY.LAYOUT_K, kCode r.newK), (R.ARRAY.LAYOUT_OLD_K, 0),
       (R.ARRAY.LAYOUT_GENERATION, min 255 (s.get R.ARRAY.LAYOUT_GENERATION + 1))]).pulse 0x62 Ev.ARRAY.RESHAPE_DONE).arrayErr
        E.ARRAY_RESHAPE_DONE 0 0

theorem State.endReshape_eq (s : State) (r : ReshapeRec) : s.endReshape r = (s.reshapeEnded r).followChannels := rfl

theorem kCode_lt (k : Nat) : kCode k < 4 := by
  unfold kCode
  split_ifs <;> decide

theorem State.reshapeEnded_spec (s : State) (r : ReshapeRec) : (s.reshapeEnded r).get R.ARRAY.LAYOUT_K = kCode r.newK
    ∧ (s.reshapeEnded r).get R.ARRAY.LAYOUT_OLD_K = 0
    ∧ (s.reshapeEnded r).get R.ARRAY.LAYOUT_GENERATION = min 255 (s.get R.ARRAY.LAYOUT_GENERATION + 1)
    ∧ (∃ q : ReshapeRec, (s.reshapeEnded r).array.reshape = some q ∧ q.active = false ∧ q.oldK = r.newK)
    ∧ (s.reshapeEnded r).media.image.map = s.media.image.map := by
  have hget {x : Fld} (hx : Nat.ble 0x040 x.off = true) (t : State) :
      ((t.pulse 0x62 Ev.ARRAY.RESHAPE_DONE).arrayErr E.ARRAY_RESHAPE_DONE 0 0).get x = t.get x := by
    rw [State.arrayErr, State.record_get_beyond _ _ _ _ _ _ _ hx, State.pulse_get_beyond _ _ _ hx]
  unfold State.reshapeEnded
  simp only [State.puts_cons, State.puts_nil]
  refine ⟨?_, ?_, ?_, ⟨s.lastReshape r, ?_, rfl, rfl⟩, ?_⟩
  · rw [hget rfl, State.get_put_of_place _ _ rfl, State.get_put_of_place _ _ rfl, State.get_put_same]
    exact Nat.mod_eq_of_lt (kCode_lt _)
  · rw [hget rfl, State.get_put_of_place _ _ rfl, State.get_put_same]
    rfl
  · rw [hget rfl, State.get_put_same]
    exact Nat.mod_eq_of_lt (lt_of_le_of_lt (min_le_left ..) (by decide))
  · rw [State.arrayErr, State.record_array, State.pulse_array, State.put_array, State.put_array, State.put_array, State.setImage, State.setMedia_array,
      State.setReshape_array]
  · rw [State.arrayErr, State.record_media, State.pulse_media, State.put_media, State.put_media, State.put_media, State.setImage, State.setMedia_media,
      State.setReshape_media, State.setArray_media]

/-- The spare capacity that a wider layout gains. -/
def State.widened (s : State) (r : ReshapeRec) : State :=
  if r.oldK < r.newK then s.put R.MEDIA.SPARE_TOTAL_GB (s.get R.MEDIA.SPARE_TOTAL_GB + (s.widenGain r 0 - s.widenGain r s.array.reshapeFreed)) else s

/-- A reshape without units has passed its last one. -/
def State.reshapePassed (s : State) (r : ReshapeRec) : State :=
  (((s.widened r).setArray fun a => { a with reshapeFreed := 0 }).setReshape { r with boundary := 0 }).put R.ARRAY.RESHAPE_POS_UNITS 0

theorem State.reshapePassed_spec (s : State) (r : ReshapeRec) :
    (s.reshapePassed r).get R.ARRAY.LAYOUT_GENERATION = s.get R.ARRAY.LAYOUT_GENERATION ∧ (s.reshapePassed r).media = s.media := by
  unfold State.reshapePassed State.widened
  rw [State.get_put_of_place _ _ rfl, State.setReshape_get, State.put_media, State.setReshape_media, State.setArray_media]
  split
  · exact ⟨State.get_put_of_page _ _ rfl, rfl⟩
  · exact ⟨rfl, rfl⟩

theorem exec_reshapeRegion_empty {r : ReshapeRec} (hr : s.array.reshape = some r) (ha : r.active = true) (hp : s.reshapePaused = false)
    (hm : s.mayReshape = true) (hq : s.array.reshapeSeq = []) (ht : r.total = 0) (hb : r.boundary = 0) :
    exec .reshapeRegion s = .next ((s.reshapePassed r).reshapeEnded { r with boundary := 0 }).followChannels := by
  have hgo : ¬ (!r.active || s.reshapePaused || !s.mayReshape) = true := by simp [ha, hp, hm]
  show execReshapeRegion s = _
  unfold execReshapeRegion
  simp only [hr]
  rw [if_neg hgo]
  simp only [hq, ht, hb, regionParts, groupsBefore, List.any_nil, List.foldl_nil, List.filter_nil, List.length_nil, Nat.zero_min, Bool.false_eq_true,
    if_false, if_true]
  simp only [State.endReshape_eq, State.reshapePassed, State.widened, ht]

theorem exec_reshapeRegion_first {r : ReshapeRec} {n u : Nat} {g : Group} (hr : s.array.reshape = some r) (ha : r.active = true)
    (hp : s.reshapePaused = false) (hm : s.mayReshape = true) (hq : s.array.reshapeSeq = [(n, r.total)]) (hg : s.group? n = some g)
    (hf : g.state ≠ .freed) (hu : u ∈ s.validIdx g) (hlo : r.boundary ≤ u) (hhi : u < min r.total (r.boundary + 262144)) :
    exec .reshapeRegion s = .next (s.copyRange g r.boundary (min r.total (r.boundary + 262144)) false) := by
  have hparts : regionParts 0 r.boundary (min r.total (r.boundary + 262144)) [(n, r.total)]
      = [(n, r.boundary, min r.total (r.boundary + 262144))] := by
    have h1 : max r.boundary 0 - 0 = r.boundary := by omega
    have h2 : min (min r.total (r.boundary + 262144)) (0 + r.total) - 0 = min r.total (r.boundary + 262144) := by omega
    simp only [regionParts, h1, h2]
    rw [if_pos (by omega)]
  have hleft : (g.state != .freed && (s.partBusy g r.boundary (min r.total (r.boundary + 262144))
      || (s.validIdx g).any fun y => decide (r.boundary ≤ y) && decide (y < min r.total (r.boundary + 262144)))) = true := by
    have hany : ((s.validIdx g).any fun y => decide (r.boundary ≤ y) && decide (y < min r.total (r.boundary + 262144))) = true :=
      List.any_eq_true.mpr ⟨u, hu, by simp only [hlo, hhi, decide_true, Bool.and_self]⟩
    rw [hany, Bool.or_true, Bool.and_true]
    simpa using hf
  show execReshapeRegion s = _
  unfold execReshapeRegion
  simp only [hr, ha, hp, hm, hq, hparts, List.any_cons, List.any_nil, hg, hleft, Bool.or_false, List.foldl_cons, List.foldl_nil, if_neg hf]
  rfl

end

/-! ### The command registers of a reshape and of a retired die -/

section
variable {s : State} {o : Origin}

/-- What a start of a reshape does once its write is allowed. -/
def State.reshapeAct (t : State) (k v : Nat) : State :=
  if bitAt v 2 then (t.put R.ARRAY.RESHAPE_CTRL_TARGET_K v).startReshape k else t.put R.ARRAY.RESHAPE_CTRL_TARGET_K v

theorem widthOf_start (k : BitVec 2) : widthOf ((k.toNat + 4) % 4) = widthOf k.toNat ∧ bitAt (k.toNat + 4) 2 = true := by
  revert k
  decide

theorem exec_reshapeStart_acts {k : BitVec 2} (hp : s.powered = true) (hr : s.reaches o 0x62 = true) (hi : s.holds o .installer = true)
    (hb : s.reshapeBusy (widthOf k.toNat) = false) (hroom : s.reshapeNoRoom (widthOf k.toNat) = false) :
    ∃ t : State, s.Accessed t
      ∧ exec (.reshapeStart o k) s = .next ((t.put R.ARRAY.RESHAPE_CTRL_TARGET_K (k.toNat + 4)).startReshape (widthOf k.toNat)) := by
  obtain ⟨hw, hbit⟩ := widthOf_start k
  obtain ⟨t, ht, h⟩ := State.regCmd_acts (off := 0x048) (v := k.toNat + 4) (legal := true)
    (busy := bitAt (k.toNat + 4) 2 && (s.reshapeBusy (widthOf k.toNat) || s.reshapeNoRoom (widthOf k.toNat)))
    (deny := fun t => t.refuseBlock o 0x62 (if s.reshapeBusy (widthOf k.toNat) then E.ARRAY_BUSY else E.ARRAY_NO_ROOM) 0)
    (act := fun t => t.reshapeAct (widthOf k.toNat) (k.toNat + 4)) hp hr (State.meets_of_installer hi _) rfl
    (by rw [hb, hroom, Bool.or_self, Bool.and_false])
  refine ⟨t, ht, congrArg Host.Outcome.next ?_⟩
  rw [State.reshapeAct, if_pos hbit] at h
  refine Eq.trans ?_ h
  rw [State.writeReshapeCtrl, hw]
  rfl

theorem exec_reshapeStart_busy {k : BitVec 2} (hp : s.powered = true) (hr : s.reaches o 0x62 = true) (hi : s.holds o .installer = true)
    (hb : s.reshapeBusy (widthOf k.toNat) = true) :
    ∃ t : State, s.Accessed t ∧ exec (.reshapeStart o k) s = .next (t.refuseBlock o 0x62 E.ARRAY_BUSY 0) := by
  obtain ⟨hw, hbit⟩ := widthOf_start k
  obtain ⟨t, ht, h⟩ := State.regCmd_denies (off := 0x048) (v := k.toNat + 4) (legal := true)
    (busy := bitAt (k.toNat + 4) 2 && (s.reshapeBusy (widthOf k.toNat) || s.reshapeNoRoom (widthOf k.toNat)))
    (deny := fun t => t.refuseBlock o 0x62 (if s.reshapeBusy (widthOf k.toNat) then E.ARRAY_BUSY else E.ARRAY_NO_ROOM) 0)
    (act := fun t => t.reshapeAct (widthOf k.toNat) (k.toNat + 4)) hp hr (State.meets_of_installer hi _) rfl
    (by rw [hb, hbit, Bool.true_or, Bool.and_self])
  refine ⟨t, ht, congrArg Host.Outcome.next ?_⟩
  rw [hb, if_pos rfl] at h
  refine Eq.trans ?_ h
  rw [State.writeReshapeCtrl, hw, hb, if_pos rfl]
  rfl

/-- What a retirement of a die does once its write is allowed. -/
def State.retireAct (t : State) (d v : Nat) : State :=
  let u := t.put R.ARRAY.RETIRE_CTRL_DIE d
  if bitAt v 9 && u.dieLive d then (u.loseDies [d]).2.endOps (u.loseDies [d]).1 else u

theorem retire_value (die : BitVec 9) : (die.toNat + 512) % 512 = die.toNat ∧ bitAt (die.toNat + 512) 9 = true := by
  have h := die.isLt
  refine ⟨by omega, ?_⟩
  simp only [bitAt]
  have : (die.toNat + 512) / 2 ^ 9 = 1 := by omega
  rw [this]
  rfl

theorem State.dieLive_of_get {s t : State} (ha : t.array = s.array) (hg : ∀ x : Fld, x.page ≠ 0x62 → t.get x = s.get x) {d : Nat}
    (hd : d < 512) : t.dieLive d = s.dieLive d := by
  have hch : dieChannel d < 32 := by
    unfold dieChannel
    omega
  have hpage (x : Fld) (hx : x.page = 0x80 + dieChannel d) : t.get x = s.get x := hg x (by omega)
  rw [State.dieLive, State.chActive, hpage _ rfl, hpage _ rfl, ha, State.dieLive, State.chActive]

theorem exec_arrayRetire_acts {die : BitVec 9} (hp : s.powered = true) (hr : s.reaches o 0x62 = true) (hi : s.holds o .installer = true)
    (hb : (s.array.lost.contains die.toNat || !s.critical.isEmpty) = false) (hd : s.dieLive die.toNat = true) :
    ∃ t : State, s.Accessed t ∧ exec (.arrayRetire o die) s
      = .next (((t.put R.ARRAY.RETIRE_CTRL_DIE die.toNat).loseDies [die.toNat]).2.endOps ((t.put R.ARRAY.RETIRE_CTRL_DIE die.toNat).loseDies [die.toNat]).1) := by
  obtain ⟨hv, hbit⟩ := retire_value die
  obtain ⟨t, ht, h⟩ := State.regCmd_acts (off := 0x04C) (v := die.toNat + 512) (legal := true)
    (busy := bitAt (die.toNat + 512) 9 && (s.array.lost.contains die.toNat || !s.critical.isEmpty))
    (deny := fun t => t.refuseBlock o 0x62 E.ARRAY_BUSY die.toNat)
    (act := fun t => t.retireAct die.toNat (die.toNat + 512)) hp hr (State.meets_of_installer hi _) rfl (by rw [hb, Bool.and_false])
  have hlive : (t.put R.ARRAY.RETIRE_CTRL_DIE die.toNat).dieLive die.toNat = true := by
    refine (State.dieLive_of_get ((State.put_array ..).trans (keeps_array ht.1 rfl)) (fun x hx => ?_) die.isLt).trans hd
    exact (State.get_put_of_page _ _ (beq_eq_false_iff_ne.mpr hx)).trans (ht.get x)
  refine ⟨t, ht, congrArg Host.Outcome.next ?_⟩
  rw [State.retireAct, if_pos (by rw [hbit, hlive]; rfl)] at h
  refine Eq.trans ?_ h
  rw [State.writeRetireCtrl, hv]
  rfl

theorem exec_arrayRetire_busy {die : BitVec 9} (hp : s.powered = true) (hr : s.reaches o 0x62 = true) (hi : s.holds o .installer = true)
    (hb : s.array.lost.contains die.toNat = true) :
    ∃ t : State, s.Accessed t ∧ exec (.arrayRetire o die) s = .next (t.refuseBlock o 0x62 E.ARRAY_BUSY die.toNat) := by
  obtain ⟨hv, hbit⟩ := retire_value die
  obtain ⟨t, ht, h⟩ := State.regCmd_denies (off := 0x04C) (v := die.toNat + 512) (legal := true)
    (busy := bitAt (die.toNat + 512) 9 && (s.array.lost.contains die.toNat || !s.critical.isEmpty))
    (deny := fun t => t.refuseBlock o 0x62 E.ARRAY_BUSY die.toNat)
    (act := fun t => t.retireAct die.toNat (die.toNat + 512)) hp hr (State.meets_of_installer hi _) rfl
    (by rw [hb, hbit, Bool.true_or, Bool.and_self])
  refine ⟨t, ht, congrArg Host.Outcome.next ?_⟩
  refine Eq.trans ?_ h
  rw [State.writeRetireCtrl, hv]
  rfl

/-- A refusal of a write that was denied, and what it leaves. -/
theorem State.Accessed.refused {t : State} (h : s.Accessed t) (page code info : Nat) :
    (t.refuseBlock o page code info).refusal = some code ∧ (t.refuseBlock o page code info).media = s.media
      ∧ (t.refuseBlock o page code info).array = s.array :=
  ⟨State.refuseBlock_refusal .., (keeps_media (State.forget_refuseBlock (T := 0x480000620) rfl ..) rfl).trans (keeps_media h.1 rfl),
    (keeps_array (State.forget_refuseBlock (T := 0x480000620) rfl ..) rfl).trans (keeps_array h.1 rfl)⟩

end

/-- Settles O18: each event by its equation, the order of repairs by how the queues of stripes are built. -/
theorem arrayBackgroundWorks : Obligations.ArrayBackgroundWorks := by
  unfold Obligations.ArrayBackgroundWorks
  refine ⟨?_, ?_, ?_, ?_, ?_, ?_, ?_, ?_, ?_, ?_, ?_, ?_, ?_, ?_, ?_, ?_, ?_⟩
  · exact fun s t p hn hd hp => ⟨_, exec_stripeSnapshot_new hn hd hp, rfl, rfl, rfl, rfl, rfl⟩
  · exact fun s p n hn => exec_stripeSnapshot_again hn
  · exact fun s => ⟨rfl, State.makeSnap_length, fun x hx => State.makeSnap_seq (.inl rfl) x hx, fun x hx => State.makeSnap_seq (.inr rfl) x hx⟩
  · exact fun s p n hn hd => ⟨_, State.snapStep_of_done hn hd, rfl, rfl, rfl⟩
  · intro s h
    obtain ⟨is, hexec⟩ := exec_bitmapMove h
    have hpos := s.bitmapAt_position (Nat.mod_lt (s.get R.ARRAY.BITMAP_POSITION + 1) (by decide : 0 < 64)) is
    refine ⟨_, hexec, hpos, rfl, rfl, ?_⟩
    rw [State.writeBitmapHeader_header, hpos]
    rfl
  · exact fun s gn i l hm hl hall => exec_rebuildStripe_first hm hl hall
  · intro s hm hall
    refine ⟨_, exec_rebuildStripe_none hm hall, fun x hx => State.noteWait_foldl _ _ (.inr ?_)⟩
    exact List.mem_filter.mpr ⟨List.mem_eraseDups.mpr (List.mem_map_of_mem hx), List.all_eq_true.mp hall x hx⟩
  · exact fun s x hx => State.mem_toRebuild hx
  · exact fun s gn i h => State.nextResync_spec h
  · intro s gn i h
    refine ⟨fun hne => ?_, fun he => ?_⟩
    · rw [exec_resyncStripe h, if_neg (by simpa using hne)]
    · refine ⟨(s.resyncAt gn i).pulse 0x62 Ev.ARRAY.RESYNC_DONE, ?_, State.pulse_media .., State.pulse_array .., ?_⟩
      · rw [exec_resyncStripe h, if_pos (by simpa using he)]
      · rw [State.pulse_sticky _ _ _ (by decide), if_pos rfl]
  · intro s o k hp hr hi hb hroom
    obtain ⟨t, ht, h⟩ := exec_reshapeStart_acts hp hr hi hb hroom
    refine ⟨_, h, ?_, (keeps_media ht.1 rfl :), (keeps_array ht.1 rfl :)⟩
    rw [State.get_put_same]
    exact (by decide : ∀ k : BitVec 2, (k.toNat + 4) % 2 ^ 2 = k.toNat) k
  · intro s o k hp hr hi hb
    obtain ⟨t, ht, h⟩ := exec_reshapeStart_busy hp hr hi hb
    exact ⟨_, h, ht.refused ..⟩
  · exact fun s newK => ⟨_, State.startReshape_eq s newK, s.reshapeBegun_spec newK⟩
  · intro s r hr ha hp hm hq ht hb
    obtain ⟨hk, hold, hgen, hrec, hmap⟩ := (s.reshapePassed r).reshapeEnded_spec { r with boundary := 0 }
    obtain ⟨hgen', hmedia⟩ := s.reshapePassed_spec r
    exact ⟨_, exec_reshapeRegion_empty hr ha hp hm hq ht hb, hk, hold, hgen.trans (by rw [hgen']), hrec, hmap.trans (by rw [hmedia])⟩
  · exact fun s r n g u hr ha hp hm hq hg hf hu hlo hhi => exec_reshapeRegion_first hr ha hp hm hq hg hf hu hlo hhi
  · intro s o die hp hr hi hl hc hd
    obtain ⟨t, ht, h⟩ := exec_arrayRetire_acts hp hr hi (by rw [hl, hc]; rfl) hd
    refine ⟨_, h, ?_, (keeps_media ht.1 rfl :), (keeps_array ht.1 rfl :)⟩
    rw [State.get_put_same]
    exact Nat.mod_eq_of_lt die.isLt
  · intro s o die hp hr hi hl
    obtain ⟨t, ht, h⟩ := exec_arrayRetire_busy hp hr hi hl
    exact ⟨_, h, ht.refused ..⟩

end Sys2Proof.Machine
end

section
/-!
Integer and lane arithmetic (R338, R339, R344, R348, R349).
-/

namespace Sys2Proof.Machine

section
variable {s : State} {c : Fin 72} {cyc : Nat} {x y : Ctx}

/-- A two-operand operation under an accepted modifier: its result, of which `P` holds on every lane. -/
theorem State.fetchedOn.binary {ok : Bool} (h : s.fetchedOn c 1 cyc x) (hy : x.needD 2 1 = .ok y) (hok : ok = true) (f : Word → Word → Word)
    {P : Word → Prop} (hP : P (f (y.top 1) (y.top 0))) :
    ∃ (t : State) (r : Word), Host.Outcome.next (s.insn c 1 cyc (guardMod ok (Machine.binary f))) = (.next t : Out)
      ∧ s.gave t c y 2 [r] (s.cores[c].pc + 2) ∧ P r := by
  rw [guardMod_of_ok hok]
  exact ⟨_, _, rfl, h.operates hy fun y => [f (y.top 1) (y.top 0)], hP⟩

/-- A one-operand operation under an accepted modifier. -/
theorem State.fetchedOn.unary {ok : Bool} (h : s.fetchedOn c 1 cyc x) (hy : x.needD 1 1 = .ok y) (hok : ok = true) (f : Word → Word)
    {P : Word → Prop} (hP : P (f (y.top 0))) :
    ∃ (t : State) (r : Word), Host.Outcome.next (s.insn c 1 cyc (guardMod ok (Machine.unary f))) = (.next t : Out)
      ∧ s.gave t c y 1 [r] (s.cores[c].pc + 2) ∧ P r := by
  rw [guardMod_of_ok hok]
  exact ⟨_, _, rfl, h.operates hy fun y => [f (y.top 0)], hP⟩

/-- A division by an entry without a zero lane. -/
theorem State.fetchedOn.division {ok : Bool} {m : OpMod} (h : s.fetchedOn c 1 cyc x) (hy : x.needD 2 1 = .ok y)
    (hz : ∀ i < 64 / laneBits m.w, laneAt m.w (y.top 0) i ≠ 0) (hok : ok = true) (f : Word → Word → Word)
    {P : Word → Prop} (hP : P (f (y.top 1) (y.top 0))) :
    ∃ (t : State) (r : Word), Host.Outcome.next (s.insn c 1 cyc (guardMod ok (Machine.division m f))) = (.next t : Out)
      ∧ s.gave t c y 2 [r] (s.cores[c].pc + 2) ∧ P r := by
  have hno : anyZeroLane m (y.top 0) = false := by
    simpa only [anyZeroLane, lanesOf_eq, List.any_eq_false, List.mem_map, List.mem_range, beq_iff_eq, forall_exists_index, and_imp,
      forall_apply_eq_imp_iff₂] using hz
  rw [guardMod_of_ok hok]
  refine ⟨_, _, rfl, h.gives (out := [f (y.top 1) (y.top 0)]) (h.needD_moved hy) ?_, hP⟩
  simp only [Machine.division, hy, hno, Bool.false_eq_true, if_false]

end

/-- Settles O21: the body is the operation on the lanes, and each lane of its result is the integer result narrowed. -/
theorem laneArithmeticIsRight : Obligations.LaneArithmeticIsRight := by
  refine ⟨fun s c m x y h hy hm => ⟨?_, ?_⟩, fun s c m x y h hy hm => ?_, fun s c m x y h hy hm => ?_,
    fun s c m x y h hy hz => ⟨fun hm => ?_, fun hm => ?_⟩, fun s c m x y h hy => ⟨fun hm => ?_, fun hm => ?_⟩,
    fun s c m x y h hy hm => ⟨?_, ?_⟩, fun s c i x y h hy => ⟨_, rfl, h.operates hy fun y => [y.top 0 + i.signExtend 64]⟩⟩
  · exact h.binary hy hm _ fun i hi => laneAt_laneInt m _ _ _ hi
  · exact h.binary hy hm _ fun i hi => laneAt_laneInt m _ _ _ hi
  · exact h.binary hy hm _ fun i hi => laneAt_laneInt m _ _ _ hi
  · refine h.binary hy hm _ fun i hi => ?_
    rw [laneMulh, laneAt_lane2 _ _ _ _ hi, wrapInt_mod, wrapInt_cast]
  · exact h.division hy hz hm _ fun i hi => laneAt_laneInt m _ _ _ hi
  · refine h.division hy hz hm _ fun i hi => ?_
    exact laneAt_laneInt { m with t := false } _ _ _ hi
  · refine h.unary hy hm _ fun i hi => ?_
    rw [laneNeg, laneAt_lane1 _ _ _ hi, narrow_mod, narrow_cast]
  · refine h.unary hy hm _ fun i hi => ?_
    rw [laneAbs, laneAt_lane1 _ _ _ hi, narrow_mod]
    exact narrow_cast { m with s := true } _
  · refine h.binary hy hm _ fun i hi => ?_
    exact laneAt_laneInt { m with t := false } _ _ _ hi
  · refine h.binary hy hm _ fun i hi => ?_
    exact laneAt_laneInt { m with t := false } _ _ _ hi

end Sys2Proof.Machine
end

section
/-!
Comparisons, logic, shifts, counts and lane moves (R338, R340, R347, R348).
-/

namespace Sys2Proof.Machine

/-! ### Comparisons and shifts -/

@[simp] theorem maskLane_mod (w : Lane) (b : Bool) : maskLane w b % 2 ^ laneBits w = maskLane w b := by
  refine Nat.mod_eq_of_lt ?_
  have := Nat.two_pow_pos (laneBits w)
  cases b <;> simp only [maskLane, Bool.false_eq_true, if_false, if_true] <;> omega

/-- A comparison's lane, by what it decides. -/
theorem laneAt_compare (w : Lane) (f : Nat → Nat → Bool) (a b : Word) {i : Nat} (h : i < 64 / laneBits w) :
    laneAt w (lane2 w (fun x y => maskLane w (f x y)) a b) i = if f (laneAt w a i) (laneAt w b i) = true then 2 ^ laneBits w - 1 else 0 := by
  rw [laneAt_lane2 _ _ _ _ h, maskLane_mod, maskLane]

/-- A rotation brings the low bits above the high ones. -/
theorem rotated_eq {b n v : Nat} (hn : n ≤ b) : v * 2 ^ n % 2 ^ b + v / 2 ^ (b - n) = 2 ^ n * (v % 2 ^ (b - n)) + v / 2 ^ (b - n) := by
  have hb : 2 ^ b = 2 ^ n * 2 ^ (b - n) := by rw [← Nat.pow_add, Nat.add_sub_cancel' hn]
  rw [hb, Nat.mul_comm v, Nat.mul_mod_mul_left]

/-- Bit `j` of a number below `2 ^ b` is bit `(j + n) % b` of its rotation by `n`. -/
theorem rotated_testBit {b n v j : Nat} (hv : v < 2 ^ b) (hn : n < b) (hj : j < b) :
    ((v * 2 ^ n % 2 ^ b + v / 2 ^ (b - n)) % 2 ^ b).testBit ((j + n) % b) = v.testBit j := by
  have hb : 2 ^ b = 2 ^ (b - n) * 2 ^ n := by rw [← Nat.pow_add, Nat.sub_add_cancel hn.le]
  have hhigh : v / 2 ^ (b - n) < 2 ^ n := Nat.div_lt_of_lt_mul (hb ▸ hv)
  have hk : (j + n) % b < b := Nat.mod_lt _ (by omega)
  rw [Nat.testBit_mod_two_pow, decide_eq_true hk, Bool.true_and, rotated_eq hn.le, Nat.testBit_two_pow_mul_add _ hhigh]
  by_cases hwrap : j + n < b
  · have hjn : j + n - n = j := Nat.add_sub_cancel ..
    have hlow : j < b - n := by omega
    rw [Nat.mod_eq_of_lt hwrap, if_neg (by omega), hjn, Nat.testBit_mod_two_pow, decide_eq_true hlow, Bool.true_and]
  · have hmod : (j + n) % b = j + n - b := by
      rw [Nat.mod_eq_sub_mod (by omega), Nat.mod_eq_of_lt (by omega)]
    have hback : j + n - b + (b - n) = j := by omega
    rw [hmod, if_pos (by omega), Nat.testBit_div_two_pow, hback]

theorem shiftCount_lt (m : OpMod) (b : Word) : shiftCount m b < laneBits m.w := Nat.mod_lt _ (laneBits_pos m.w)

theorem laneAt_laneRol (m : OpMod) (a b : Word) {i j : Nat} (h : i < 64 / laneBits m.w) (hj : j < laneBits m.w) :
    bitAt (laneAt m.w (laneRol m a b) i) ((j + b.toNat) % laneBits m.w) = bitAt (laneAt m.w a i) j := by
  have hplace : (j + b.toNat) % laneBits m.w = (j + shiftCount m b) % laneBits m.w := by rw [shiftCount, Nat.add_mod_mod]
  rw [laneRol, laneAt_lane1 _ _ _ h, bitAt_eq_testBit, bitAt_eq_testBit, hplace]
  exact rotated_testBit (laneAt_lt ..) (shiftCount_lt m b) hj

/-! ### Counts of bits -/

theorem bitAt_succ (v i : Nat) : bitAt v (i + 1) = bitAt (v / 2) i := by rw [bitAt_eq_testBit, bitAt_eq_testBit, Nat.testBit_succ]

theorem bitAt_zero (v : Nat) : bitAt v 0 = decide (v % 2 = 1) := by rw [bitAt_eq_testBit, Nat.testBit_zero]

theorem popCount_eq (n v : Nat) : popCount n v = ((List.range n).filter (bitAt v)).length := by
  induction n generalizing v with
  | zero => rfl
  | succ n ih =>
    have hsucc : bitAt v ∘ Nat.succ = bitAt (v / 2) := funext fun i => bitAt_succ v i
    rw [popCount, ih, List.range_succ_eq_map, List.filter_cons, List.filter_map, hsucc, bitAt_zero]
    rcases Nat.mod_two_eq_zero_or_one v with h | h <;> simp [h, Nat.add_comm]

theorem leadingZeros_eq {n v : Nat} (h : v < 2 ^ n) : leadingZeros n v = if v = 0 then n else n - 1 - Nat.log2 v := by
  induction n with
  | zero =>
    have : v = 0 := by simpa using h
    simp [leadingZeros, this]
  | succ n ih =>
    rw [leadingZeros]
    by_cases hlow : v < 2 ^ n
    · have hbit : bitAt v n = false := by rw [bitAt_eq_testBit, Nat.testBit_lt_two_pow hlow]
      rw [hbit, ih hlow]
      by_cases h0 : v = 0
      · simp [h0, Nat.add_comm]
      · have := (Nat.log2_lt h0).mpr hlow
        simp only [h0, Bool.false_eq_true, if_false]
        omega
    · have h0 : v ≠ 0 := by rintro rfl; exact hlow (Nat.two_pow_pos n)
      have hlog : Nat.log2 v = n := (Nat.log2_eq_iff h0).mpr ⟨by omega, h⟩
      have hbit : bitAt v n = true := by
        rw [bitAt, beq_iff_eq, Nat.div_eq_of_lt_le (m := v) (k := 1) (by omega) (by rw [Nat.pow_succ] at h; omega)]
      rw [hbit, if_pos rfl, if_neg h0, hlog]
      omega

theorem trailingZeros_spec {n v : Nat} (h : v < 2 ^ n) :
    trailingZeros n v ≤ n ∧ (v = 0 → trailingZeros n v = n)
      ∧ (v ≠ 0 → bitAt v (trailingZeros n v) = true ∧ v % 2 ^ trailingZeros n v = 0) := by
  induction n generalizing v with
  | zero =>
    have : v = 0 := by simpa using h
    simp [trailingZeros, this]
  | succ n ih =>
    rw [trailingZeros]
    split
    next hodd =>
      refine ⟨Nat.zero_le _, fun h0 => by simp [h0] at hodd, fun _ => ⟨?_, Nat.mod_one v⟩⟩
      rw [bitAt_zero, hodd]
      rfl
    next heven =>
      obtain ⟨hle, hzero, hne⟩ := ih (v := v / 2) (by rw [Nat.pow_succ] at h; omega)
      refine ⟨by omega, fun h0 => ?_, fun h0 => ?_⟩
      · rw [hzero (by simp [h0]), Nat.add_comm]
      · obtain ⟨hbit, hmod⟩ := hne (by omega)
        have hdvd : 2 ^ (1 + trailingZeros n (v / 2)) ∣ v := by
          obtain ⟨k, hk⟩ := Nat.dvd_of_mod_eq_zero hmod
          refine ⟨k, ?_⟩
          rw [Nat.pow_add, Nat.mul_assoc, ← hk]
          omega
        refine ⟨?_, Nat.mod_eq_zero_of_dvd hdvd⟩
        rw [Nat.add_comm, bitAt_succ, hbit]

/-- A count that is at most the lane width fits its lane. -/
theorem mod_of_le_laneBits {w : Lane} {n : Nat} (h : n ≤ laneBits w) : n % 2 ^ laneBits w = n :=
  Nat.mod_eq_of_lt (h.trans_lt Nat.lt_two_pow_self)

/-! ### Lanes moved -/

theorem lanesOf_getD {w : Lane} {n : Nat} (v : Word) (h : n < 64 / laneBits w) : (lanesOf w v).getD n 0 = laneAt w v n := by
  rw [lanesOf_eq]
  simp [List.getD_eq_getElem?_getD, h]

theorem modAt_getElem? {α : Type} (l : List α) (n : Nat) (f : α → α) (i : Nat) :
    (modAt l n f)[i]? = if i = n then l[i]?.map f else l[i]? := by
  induction l generalizing n i with
  | nil => simp [modAt]
  | cons x l ih =>
    cases n with
    | zero => cases i <;> simp [modAt]
    | succ n => cases i <;> simp [modAt, ih]

theorem laneAt_laneIns (m : OpMod) (a v : Word) (n : Nat) {i : Nat} (h : i < 64 / laneBits m.w) :
    laneAt m.w (laneIns m a v n) i = if i = n then laneAt m.w v 0 else laneAt m.w a i := by
  rw [laneIns, laneAt_ofLanes _ _ h, List.getD_eq_getElem?_getD, modAt_getElem?, lanesOf_eq]
  split
  · have hlow : bits v.toNat 0 (laneBits m.w) = laneAt m.w v 0 := by rw [laneAt, Nat.mul_zero]
    simp [h, hlow]
  · simp [h]

/-! ### The instructions -/

section
variable {s : State} {c : Fin 72} {cyc : Nat} {x y : Ctx} {m : OpMod}

theorem State.fetchedOn.ext (h : s.fetchedOn c 1 1 x) (hy : x.needD 2 1 = .ok y) (hm : modOk m true true false = true)
    (hn : (y.top 0).toNat < 64 / laneBits m.w) : ∃ t : State, exec (.ext c m) s = .next t
      ∧ s.gave t c y 2 [BitVec.ofInt 64 (laneVal m.w m.s (laneAt m.w (y.top 1) (y.top 0).toNat))] (s.cores[c].pc + 2) := by
  refine ⟨_, rfl, h.gives (h.needD_moved hy) ?_⟩
  rw [guardMod_of_ok hm]
  simp only [hy, Nat.not_le.mpr hn, if_false, laneExt, lanesOf_getD _ hn]

theorem State.fetchedOn.ins (h : s.fetchedOn c 1 1 x) (hy : x.needD 3 1 = .ok y) (hm : modOk m true false false = true)
    (hn : (y.top 0).toNat < 64 / laneBits m.w) : ∃ (t : State) (r : Word), exec (.ins c m) s = .next t ∧ s.gave t c y 3 [r] (s.cores[c].pc + 2)
      ∧ ∀ i < 64 / laneBits m.w, laneAt m.w r i = if i = (y.top 0).toNat then laneAt m.w (y.top 1) 0 else laneAt m.w (y.top 2) i := by
  refine ⟨_, _, rfl, h.gives (out := [laneIns m (y.top 2) (y.top 1) (y.top 0).toNat]) (h.needD_moved hy) ?_,
    fun i hi => laneAt_laneIns m _ _ _ hi⟩
  rw [guardMod_of_ok hm]
  simp only [hy, Nat.not_le.mpr hn, if_false]

end

/-- Settles O22: the body is the operation on the lanes, and each lane of its result is given by the lemmas above. -/
theorem laneLogicIsRight : Obligations.LaneLogicIsRight := by
  intro s c m x h
  refine ⟨fun y hy hm => ⟨?_, ?_, ?_, ?_, ?_, ?_, ?_⟩, fun y hy hm => ?_, fun y hy hm => ?_, fun y hy hm => ⟨?_, ?_, ?_, ?_⟩,
    fun y hy hm hn => h.ext hy hm hn, fun y hy hm hn => h.ins hy hm hn⟩
  · exact h.binary hy hm _ fun i hi => (laneAt_compare _ _ _ _ hi).trans (by simp only [beq_iff_eq])
  · exact h.binary hy hm _ fun i hi => (laneAt_compare _ _ _ _ hi).trans (by simp only [decide_eq_true_eq])
  · exact h.binary hy hm _ fun i hi => (laneAt_compare _ _ _ _ hi).trans (by simp only [decide_eq_true_eq])
  · exact h.binary hy hm _ fun i hi => laneAt_lane1 _ _ _ hi
  · refine h.binary hy hm _ fun i hi => (laneAt_lane1 _ _ _ hi).trans (Nat.mod_eq_of_lt ?_)
    exact (Nat.div_le_self ..).trans_lt (laneAt_lt ..)
  · refine h.binary hy hm _ fun i hi => ?_
    rw [laneSar, laneAt_lane1 _ _ _ hi, wrapInt_mod, wrapInt_cast]
    rfl
  · exact h.binary hy hm _ fun i hi j hj => laneAt_laneRol m _ _ hi hj
  · have hb (f : Word → Word → Word) : guardMod (modOk m false false false) (binary f) x = .ok (y.rep 2 [f (y.top 1) (y.top 0)]) := by
      rw [guardMod_of_ok hm]
      exact Ctx.operate_of_needD hy _
    exact ⟨⟨_, rfl, h.gives (h.needD_moved hy) (hb _)⟩, ⟨_, rfl, h.gives (h.needD_moved hy) (hb _)⟩,
      ⟨_, rfl, h.gives (h.needD_moved hy) (hb _)⟩⟩
  · refine ⟨_, rfl, h.gives (h.needD_moved hy) ?_⟩
    rw [guardMod_of_ok hm]
    exact Ctx.operate_of_needD hy _
  · refine h.unary hy hm _ fun i hi => ?_
    rw [lanePopc, laneAt_lane1 _ _ _ hi, popCount_eq, mod_of_le_laneBits]
    exact (List.length_filter_le ..).trans_eq List.length_range
  · refine h.unary hy hm _ fun i hi => ?_
    rw [laneClz, laneAt_lane1 _ _ _ hi, leadingZeros_eq (laneAt_lt ..), mod_of_le_laneBits]
    split <;> omega
  · refine h.unary hy hm _ fun i hi => ?_
    obtain ⟨hle, hzero, hne⟩ := trailingZeros_spec (laneAt_lt m.w (y.top 0) i)
    rw [laneCtz, laneAt_lane1 _ _ _ hi, mod_of_le_laneBits hle]
    exact ⟨hzero, hne⟩
  · refine h.unary hy hm _ fun i hi => ?_
    have hlow : bits (y.top 0).toNat 0 (laneBits m.w) = laneAt m.w (y.top 0) 0 := by rw [laneAt, Nat.mul_zero]
    rw [laneSplat, laneAt_lane1 _ _ _ hi, hlow, laneAt_mod]

end Sys2Proof.Machine
end

section
/-!
Floating-point instructions (R312-R314, R350).
-/

namespace Sys2Proof.Machine

open Sys2Proof.Laws

/-! ### The end of a floating-point instruction -/

/-- The lanes and flags of a list of results, lane 0 first. -/
def floatOut (w : Lane) (rs : List (Nat × Nat)) : Word × Nat := (ofLanes w (rs.map (·.1)), rs.foldl (fun v r => v ||| r.2) 0)

theorem floatOut_lane (w : Lane) (rs : List (Nat × Nat)) {j : Nat} (h : j < 64 / laneBits w) :
    laneAt w (floatOut w rs).1 j = (rs.getD j (0, 0)).1 % 2 ^ laneBits w := by
  rw [floatOut, laneAt_ofLanes _ _ h]
  simp only [List.getD_eq_getElem?_getD, List.getElem?_map]
  cases rs[j]? <;> rfl

theorem floatOut_flag (w : Lane) {rs : List (Nat × Nat)} {n : Nat} (hn : rs.length ≤ n) (b : Nat) :
    bitAt (floatOut w rs).2 b = true ↔ ∃ j < n, bitAt (rs.getD j (0, 0)).2 b = true := by
  simp only [floatOut, bitAt_eq_testBit, foldl_or_testBit, Nat.zero_testBit, Bool.false_or, List.any_eq_true]
  constructor
  · rintro ⟨r, hr, hb⟩
    obtain ⟨j, hj, rfl⟩ := List.mem_iff_getElem.mp hr
    refine ⟨j, hj.trans_le hn, ?_⟩
    simpa [List.getD_eq_getElem?_getD, hj] using hb
  · rintro ⟨j, -, hb⟩
    by_cases hj : j < rs.length
    · refine ⟨rs[j], List.getElem_mem hj, ?_⟩
      simpa [List.getD_eq_getElem?_getD, hj] using hb
    · rw [List.getD_eq_getElem?_getD, List.getElem?_eq_none (Nat.le_of_not_lt hj)] at hb
      simp at hb

section
variable {s : State} {c : Fin 72} {cyc : Nat} {x y : Ctx}

/-- An instruction whose body comes to lanes and flags on `y`. -/
theorem State.fetchedOn.givesFloat (h : s.fetchedOn c 1 cyc x) (hm : x.DataMoved y) {body : Body} {n : Nat} {w : Lane}
    {rs : List (Nat × Nat)} {res : Nat → Nat × Nat} (hb : body x = .ok ((y.rep n [(floatOut w rs).1]).flags (floatOut w rs).2))
    (hlen : rs.length ≤ 64 / laneBits w) (hres : ∀ j < 64 / laneBits w, rs.getD j (0, 0) = res j) :
    s.gaveFloat (s.insn c 1 cyc body) c y n w res := by
  have hx := h.begun
  have hlate : y.late = none := by rw [hm, hx.eq]
  have hhold : y.hold = none := by rw [hm, hx.eq]
  have heccs : y.eccs = 0 := by rw [hm, hx.eq]
  have hk : y.k = { s.cores[c] with icache := x.k.icache, utlb := x.k.utlb, pc := x.k.pc, ds := y.k.ds, dsp := y.k.dsp, mem := y.k.mem,
                                    spills := y.k.spills } := by
    have hk1 : y.k = { x.k with ds := y.k.ds, dsp := y.k.dsp, mem := y.k.mem, spills := y.k.spills } := congrArg Ctx.k hm
    have hk2 : x.k = { s.cores[c] with icache := x.k.icache, utlb := x.k.utlb, pc := x.k.pc } := congrArg Ctx.k hx.eq
    rw [hk1, hk2]
  have hs : y.s = x.s := by rw [hm]
  have hfixed : y.k.fixed = s.cores[c].fixed := by rw [hk]; rfl
  rw [State.insn_of_ok h hb hlate hhold heccs]
  have hcore := Ctx.retire_core ((y.rep n [(floatOut w rs).1]).flags (floatOut w rs).2) c
  refine ⟨Ctx.retire_ranOn (hs ▸ hx.state) hfixed hx.running, ?_, ?_, ?_, ?_, ?_, ⟨(floatOut w rs).1, ?_, fun j hj => ?_⟩,
    ⟨(floatOut w rs).2, ?_, fun b => ?_⟩⟩
  · have hpc : y.k.pc = x.k.pc := by rw [hk]
    rw [hcore]
    exact hpc.trans h.pc
  · rw [hcore]
    change y.k.rs = _
    rw [hk]
  · rw [hcore]
    change y.k.rsp = _
    rw [hk]
  · rw [hcore]
    rfl
  · rw [hcore]
    rfl
  · rw [hcore]
    rfl
  · rw [floatOut_lane w rs hj, hres j hj]
  · rw [hcore]
    change y.k.status ||| _ = _
    rw [hk]
  · rw [floatOut_flag w hlen b]
    exact exists_congr fun j => and_congr_right fun hj => by rw [hres j hj]

/-- A lane-wise operation of `n` operands under an accepted modifier. -/
theorem State.fetchedOn.floats {ok : Bool} {m : OpMod} {fmt : FFmt} {n : Nat} (h : s.fetchedOn c 1 cyc x) (hy : x.needD n 1 = .ok y)
    (hok : ok = true) (hf : floatFmt m.w = some fmt) {f : FFmt → List Nat → Nat × Nat} {res : Nat → Nat × Nat}
    (hres : ∀ j < 64 / laneBits m.w, f fmt (((List.range n).reverse.map y.top).map fun v => laneAt m.w v j) = res j) :
    ∃ t : State, Host.Outcome.next (s.insn c 1 cyc (guardMod ok (floating m n f))) = (.next t : Out) ∧ s.gaveFloat t c y n m.w res := by
  have hlanes {j : Nat} (hj : j < 64 / laneBits m.w) (l : List Word) :
      (l.map fun v => (lanesOf m.w v).getD j 0) = l.map fun v => laneAt m.w v j :=
    List.map_congr_left fun v _ => by rw [lanesOf_eq]; simp [List.getD_eq_getElem?_getD, hj]
  rw [guardMod_of_ok hok]
  refine ⟨_, rfl, h.givesFloat (rs := (List.range (64 / laneBits m.w)).map fun i =>
    f fmt (((List.range n).reverse.map y.top).map fun v => (lanesOf m.w v).getD i 0)) (h.needD_moved hy) ?_ ?_ fun j hj => ?_⟩
  · simp only [floating, hf, hy]
    rfl
  · rw [List.length_map, List.length_range]
  · rw [List.getD_eq_getElem?_getD, List.getElem?_map, List.getElem?_range hj, Option.map_some, Option.getD_some, hlanes hj, hres j hj]

theorem State.fetchedOn.cvtW {m : OpMod} (h : s.fetchedOn c 1 2 x) (hy : x.needD 1 1 = .ok y) (hm : modOk m false false false = true) :
    ∃ t : State, exec (.cvtW c m) s = .next t ∧ s.gaveFloat t c y 1 .w32 fun j => FFmt.convert half single (laneAt .w16 (y.top 0) j) := by
  refine ⟨_, rfl, h.givesFloat (rs := ((lanesOf .w16 (y.top 0)).take 2).map (FFmt.convert half single)) (h.needD_moved hy) ?_ (Nat.le_refl 2) ?_⟩
  · rw [guardMod_of_ok hm]
    simp only [hy]
    rfl
  · intro j hj
    rcases j with _ | _ | j
    · rfl
    · rfl
    · exact absurd hj (by simp [laneBits])

theorem State.fetchedOn.cvtN {m : OpMod} (h : s.fetchedOn c 1 2 x) (hy : x.needD 1 1 = .ok y) (hm : modOk m false false false = true) :
    ∃ t : State, exec (.cvtN c m) s = .next t
      ∧ s.gaveFloat t c y 1 .w16 fun j => if j < 2 then FFmt.convert single half (laneAt .w32 (y.top 0) j) else (0, 0) := by
  refine ⟨_, rfl, h.givesFloat (rs := (lanesOf .w32 (y.top 0)).map (FFmt.convert single half)) (h.needD_moved hy) ?_ (by decide : 2 ≤ 4) ?_⟩
  · rw [guardMod_of_ok hm]
    simp only [hy]
    rfl
  · intro j _
    rcases j with _ | _ | j
    · rfl
    · rfl
    · rfl

end

/-! ### NaN operands -/

theorem Fp.isNan_iff (a : Fp) : a.isNan = true ↔ ∃ b, a = .nan b := by cases a <;> simp [Fp.isNan]

/-- A sum with a NaN operand. -/
theorem FFmt.addFp_of_nan (f : FFmt) {a b : Fp} (h : (a.isNan || b.isNan) = true) : f.addFp a b = f.nanOf (a.signalling || b.signalling) := by
  cases a <;> cases b <;> simp_all [Fp.isNan, FFmt.addFp, Fp.signalling]

theorem Fp.neg_isNan (a : Fp) : a.neg.isNan = a.isNan := by cases a <;> rfl

theorem Fp.neg_signalling (a : Fp) : a.neg.signalling = a.signalling := by cases a <;> rfl

theorem FFmt.mul_of_nan (f : FFmt) {a b : Nat} (h : ((f.decode a).isNan || (f.decode b).isNan) = true) :
    f.mul a b = f.nanOf ((f.decode a).signalling || (f.decode b).signalling) := by
  unfold FFmt.mul
  cases ha : f.decode a <;> cases hb : f.decode b <;> simp_all [Fp.isNan, Fp.signalling]

theorem FFmt.div_of_nan (f : FFmt) {a b : Nat} (h : ((f.decode a).isNan || (f.decode b).isNan) = true) :
    f.div a b = f.nanOf ((f.decode a).signalling || (f.decode b).signalling) := by
  unfold FFmt.div
  cases ha : f.decode a <;> cases hb : f.decode b <;> simp_all [Fp.isNan, Fp.signalling]

theorem FFmt.minmax_of_nan (f : FFmt) {a b : Nat} (h : ((f.decode a).isNan || (f.decode b).isNan) = true) (mx : Bool) :
    f.minmax mx a b = f.nanOf ((f.decode a).signalling || (f.decode b).signalling) := if_pos h

/-- The canonical quiet NaN of the two formats, and invalid for a signalling operand. -/
theorem FFmt.nanOf_eq {f : FFmt} (hf : f = half ∨ f = single) (sig : Bool) :
    (f.nanOf sig).1 = (if f = half then 0x7E00 else 0x7FC00000) ∧ (f.nanOf sig).2 = if sig = true then 1 else 0 := by
  rcases hf with rfl | rfl <;> cases sig <;> decide

theorem Fp.no_order_with_nan {a b : Fp} (h : (a.isNan || b.isNan) = true) : a.eqv b = false ∧ a.lt b = false := by
  cases a <;> cases b <;> simp_all [Fp.isNan, Fp.eqv, Fp.lt]

/-! ### The obligation -/

/-- Settles O23: the instructions by the lanes of their bodies, and the NaN results by cases on the decoded operands. -/
theorem floatingPointInstructions : Obligations.FloatingPointInstructions := by
  refine ⟨fun s c m fmt hm hf => ⟨fun x y h hy => ⟨?_, ?_, ?_⟩, fun x y h hy => ?_, fun x y h hy => ?_, fun x y h hy => ⟨?_, ?_, ?_, ?_⟩⟩,
    fun s c m fmt x y hm hf h hy => ⟨?_, ?_⟩, fun s c m x y hm h hy => ⟨h.cvtW hy hm, h.cvtN hy hm⟩, fun fmt a b hfmt hnan => ?_⟩
  · exact h.floats hy hm hf fun j hj => rfl
  · exact h.floats hy hm hf fun j hj => rfl
  · exact h.floats hy hm hf fun j hj => rfl
  · have hcyc : (if fmt = single then 12 else 8) = if m.w = .w32 then 12 else 8 := by
      revert hf
      cases m.w <;> simp [floatFmt] <;> rintro rfl <;> decide
    rw [hcyc] at h
    exact h.floats hy hm hf fun j hj => rfl
  · exact h.floats hy hm hf fun j hj => rfl
  · exact h.floats hy hm hf fun j hj => rfl
  · exact h.floats hy hm hf fun j hj => rfl
  · exact h.floats hy hm hf fun j hj => rfl
  · exact h.floats hy hm hf fun j hj => rfl
  · exact h.floats hy hm hf fun j hj => rfl
  · exact h.floats hy hm hf fun j hj => rfl
  · have hneg : ((fmt.decode a).isNan || (fmt.decode b).neg.isNan) = true := by rwa [Fp.neg_isNan]
    have hsub : fmt.sub a b = fmt.nanOf ((fmt.decode a).signalling || (fmt.decode b).signalling) := by
      rw [FFmt.sub, FFmt.addFp_of_nan _ hneg, Fp.neg_signalling]
    obtain ⟨heq, hlt⟩ := Fp.no_order_with_nan hnan
    refine ⟨?_, heq, ?_, fun w sg ha => ?_⟩
    · rw [show fmt.add a b = _ from FFmt.addFp_of_nan fmt hnan, hsub, FFmt.mul_of_nan _ hnan, FFmt.div_of_nan _ hnan,
        FFmt.minmax_of_nan _ hnan, FFmt.minmax_of_nan _ hnan]
      simp only [List.mem_cons, List.not_mem_nil, or_false, or_self, forall_eq]
      exact FFmt.nanOf_eq hfmt _
    · simp only [FFmt.cmplt, hlt, hnan, if_true]
      rfl
    · obtain ⟨q, hq⟩ := (Fp.isNan_iff _).mp ha
      simp only [FFmt.toInt, hq]
      rfl

end Sys2Proof.Machine
end

section
/-!
Stack operations, literals and depths (R303, R304, R307, R341, R344, R347, R354).
-/

namespace Sys2Proof.Machine

open Sys2Proof.Laws

section
variable {s : State} {c : Fin 72} {len cyc : Nat} {x y z w : Ctx}

/-! ### Instructions that move entries of the return stack -/

/-- Such an instruction leaves PC at the next parcel. -/
theorem State.fetchedOn.movesR (h : s.fetchedOn c 1 cyc x) (hz : s.Working c z) (hpc : z.k.pc = x.k.pc) {body : Body} (hb : body x = .ok z) :
    s.ranOn (s.insn c 1 cyc body) c ∧ (s.insn c 1 cyc body).cores[c].ds = z.k.ds ∧ (s.insn c 1 cyc body).cores[c].rs = z.k.rs
      ∧ (s.insn c 1 cyc body).cores[c].pc = s.cores[c].pc + 2 := by
  obtain ⟨hran, hds, hrs, hend, -⟩ := h.ends hz hb
  exact ⟨hran, hds, hrs, hend.trans (hpc.trans h.pc)⟩

theorem State.fetchedOn.tors (h : s.fetchedOn c 1 1 x) (hy : x.needD 1 0 = .ok y) (hz : y.needR 0 1 = .ok z) :
    ∃ t : State, exec (.tors c) s = .next t ∧ s.ranOn t c ∧ t.cores[c].ds = z.k.ds.drop 1 ∧ t.cores[c].rs = (z.top 0, false) :: z.k.rs
      ∧ t.cores[c].pc = s.cores[c].pc + 2 := by
  have hw := h.begun.working.needD hy
  have hpc : z.k.pc = x.k.pc := (Ctx.needR_moved hw.upsets hz).ds_eq.2.trans (h.needD_moved hy).rs_eq.2.1
  exact ⟨_, rfl, h.movesR (((hw.needR hz).rep 1 []).repR 0 [(z.top 0, false)]) hpc (by simp only [hy, hz])⟩

theorem State.fetchedOn.fromrs (h : s.fetchedOn c 1 1 x) (hy : x.needR 1 0 = .ok y) (hz : y.needD 0 1 = .ok z) :
    ∃ t : State, exec (.fromrs c) s = .next t ∧ s.ranOn t c ∧ t.cores[c].ds = z.topR.1 :: z.k.ds ∧ t.cores[c].rs = z.k.rs.drop 1
      ∧ t.cores[c].pc = s.cores[c].pc + 2 := by
  have hw := h.begun.working.needR hy
  have hpc : z.k.pc = x.k.pc := (Ctx.needD_moved hw.upsets hz).rs_eq.2.1.trans (Ctx.needR_moved h.begun.upsets hy).ds_eq.2
  exact ⟨_, rfl, h.movesR (((hw.needD hz).rep 0 [z.topR.1]).repR 1 []) hpc (by simp only [hy, hz])⟩

theorem State.fetchedOn.rscopy (h : s.fetchedOn c 1 1 x) (hy : x.needR 1 1 = .ok y) (hz : y.needD 0 1 = .ok z) :
    ∃ t : State, exec (.rscopy c) s = .next t ∧ s.ranOn t c ∧ t.cores[c].ds = z.topR.1 :: z.k.ds ∧ t.cores[c].rs = z.k.rs
      ∧ t.cores[c].pc = s.cores[c].pc + 2 := by
  have hw := h.begun.working.needR hy
  have hpc : z.k.pc = x.k.pc := (Ctx.needD_moved hw.upsets hz).rs_eq.2.1.trans (Ctx.needR_moved h.begun.upsets hy).ds_eq.2
  exact ⟨_, rfl, h.movesR ((hw.needD hz).rep 0 [z.topR.1]) hpc (by simp only [hy, hz])⟩

theorem State.fetchedOn.rsdrop (h : s.fetchedOn c 1 1 x) (hy : x.needR 1 0 = .ok y) :
    ∃ t : State, exec (.rsdrop c) s = .next t ∧ s.ranOn t c ∧ t.cores[c].ds = y.k.ds ∧ t.cores[c].rs = y.k.rs.drop 1
      ∧ t.cores[c].pc = s.cores[c].pc + 2 :=
  ⟨_, rfl, h.movesR ((h.begun.working.needR hy).repR 1 []) (Ctx.needR_moved h.begun.upsets hy).ds_eq.2 (by simp only [hy])⟩

/-! ### PICK and the depths -/

theorem State.fetchedOn.pick (h : s.fetchedOn c 1 2 x) (hy : x.needD 1 1 = .ok y) (hn : (y.top 0).toNat ≤ 30)
    (hz : Ctx.fillD 5 ((y.top 0).toNat + 2) y = .ok z) (hw : z.roomD ((y.top 0).toNat + 2) ((y.top 0).toNat + 2) = .ok w) :
    ∃ t : State, exec (.pick c) s = .next t ∧ s.gave t c w 1 [z.top ((y.top 0).toNat + 1)] (s.cores[c].pc + 2) := by
  have hxy := h.needD_moved hy
  have hyu := hxy.upsets.trans h.begun.upsets
  have hyz := Ctx.fillD_moved hyu hz
  have hzw := Ctx.roomD_moved (hyz.upsets.trans hyu) hw
  refine ⟨_, rfl, h.gives (hxy.trans (hyz.trans hzw)) ?_⟩
  simp only [hy, Nat.not_lt.mpr hn, if_false, hz, hw]

/-- A fetch changes neither depth. -/
theorem State.fetchedOn.depths (h : s.fetchedOn c len cyc x) : x.k.depth = s.cores[c].depth ∧ x.k.rdepth = s.cores[c].rdepth :=
  ⟨h.begun.core Core.depth fun _ _ _ _ => rfl, h.begun.core Core.rdepth fun _ _ _ _ => rfl⟩

end

/-- Settles O24: each is an operate body, or moves entries between the stacks, and goes on at the next parcel. -/
theorem stackInstructionsMoveEntries : Obligations.StackInstructionsMoveEntries := by
  refine ⟨fun s c x h => ⟨fun y hy => ⟨_, rfl, h.operates hy _⟩, fun y hy => ⟨_, rfl, h.operates hy _⟩, fun y hy => ⟨_, rfl, h.operates hy _⟩,
      fun y hy => ⟨_, rfl, h.operates hy _⟩, fun y hy => ⟨_, rfl, h.operates hy _⟩, fun y hy => ⟨_, rfl, h.operates hy _⟩,
      fun y hy => ⟨_, rfl, h.operates hy _⟩, fun y z hy hz => h.tors hy hz, fun y z hy hz => h.fromrs hy hz, fun y z hy hz => h.rscopy hy hz,
      fun y hy => h.rsdrop hy, fun y v hy => ⟨_, rfl, h.operates hy _⟩, fun y hy => ?_, fun y hy => ?_⟩,
    fun s c x y z w h hy hn hz hw => h.pick hy hn hz hw, fun s c sx v x y h hy => ⟨_, rfl, h.operates hy _⟩,
    fun s c v x y h hy => ⟨_, rfl, h.operates hy _⟩⟩
  · have hd : x.k.depth = s.cores[c].ds.length + (s.cores[c].dsp.toNat - s.cores[c].dsl.toNat) / 8 := h.depths.1
    rw [← hd]
    exact ⟨_, rfl, h.gives (h.needD_moved hy) (Ctx.operate_of_needD hy _)⟩
  · have hd : x.k.rdepth = s.cores[c].rs.length + 8 * (s.cores[c].rsp.toNat - s.cores[c].rsl.toNat) / 72 := h.depths.2
    rw [← hd]
    exact ⟨_, rfl, h.gives (h.needD_moved hy) (Ctx.operate_of_needD hy _)⟩

end Sys2Proof.Machine
end

section
/-!
Bit operations, direct and indirect, and POLL (R308-R310, R346, R351, R354).
-/

namespace Sys2Proof.Machine

open Sys2Proof.Laws

/-! ### Bits of a memory -/

/-- Writing one bit of a canonical memory changes that bit only. -/
theorem memBit_memSetBit {m : List (Nat × Byte)} (h : memWf m = true) (base i n : Nat) (b : Bool) :
    memBit (memSetBit m base i b) base n = if n = i then b else memBit m base n := by
  have hbyte (v : BitVec 8) (j : Nat) (hj : j < 8) (k : Nat) (hk : k < 8) :
      (BitVec.ofNat 8 (setBit v.toNat j b)).toNat.testBit k = if k = j then b else v.toNat.testBit k := by
    rw [BitVec.toNat_ofNat, Nat.testBit_mod_two_pow, decide_eq_true hk, Bool.true_and, testBit_setBit]
  rw [memBit, memSetBit]
  by_cases hd : n / 8 = i / 8
  · rw [hd, memRead_memWrite_same h, hbyte _ _ (Nat.mod_lt _ (by decide)) _ (Nat.mod_lt _ (by decide)), memBit, hd]
    have hiff : n % 8 = i % 8 ↔ n = i := by omega
    simp only [hiff]
  · rw [memRead_memWrite_other h _ _ (by omega), if_neg (by rintro rfl; exact hd rfl), memBit]

section
variable {s : State} {c : Fin 72} {cyc : Nat} {x y : Ctx} {m : OpMod} {p : BitPlace}

theorem Ctx.meetBit_of_clean (hu : y.k.upsets = []) (p : BitPlace) : y.meetBit p = .ok y := by
  cases p with
  | core n => exact Ctx.readLocal_of_clean hu _ _
  | common n => rfl
  | none => rfl

theorem Ctx.changeBit_of_clean (hu : y.k.upsets = []) (p : BitPlace) (b : Bool) : y.changeBit p b = .ok (y.putBit p b) := by
  rw [Ctx.changeBit, Ctx.meetBit_of_clean hu]

/-! ### Direct operations -/

theorem State.fetchedOn.btst (h : s.fetchedOn c 1 1 x) (a : BitVec 10) (hy : x.needD 0 1 = .ok y) : ∃ t : State, exec (.btst c a) s = .next t
    ∧ s.gave t c y 0 [if memBit y.k.mem 0x1E000 a.toNat then 1 else 0] (s.cores[c].pc + 2) := by
  refine ⟨_, rfl, h.gives (h.needD_moved hy) ?_⟩
  simp only [hy, Ctx.meetBit_of_clean (h.begun.working.needD hy).upsets]
  rfl

/-- A direct write of a core bit. -/
theorem State.fetchedOn.changesBit (h : s.fetchedOn c 1 1 x) (hwf : memWf s.cores[c].mem = true) (a : BitVec 10) (b : Bool) :
    ∃ t : State, Host.Outcome.next (s.insn c 1 1 fun x => x.changeBit (.core a.toNat) b) = (.next t : Out) ∧ s.ranOn t c
      ∧ t.cores[c].ds = s.cores[c].ds ∧ t.cores[c].pc = s.cores[c].pc + 2
      ∧ ∀ n, memBit t.cores[c].mem 0x1E000 n = if n = a.toNat then b else memBit s.cores[c].mem 0x1E000 n := by
  obtain ⟨hds, -, hmem⟩ := h.begun.entries
  refine h.ends_next (z := x.putBit (.core a.toNat) b) (h.begun.working.write _) (Ctx.changeBit_of_clean h.begun.upsets _ _)
    fun t hran hd _ hpc hm => ⟨hran, hd.trans hds, hpc.trans h.pc, fun n => ?_⟩
  rw [hm, ← hmem]
  exact memBit_memSetBit (hmem ▸ hwf) _ _ _ _

theorem State.fetchedOn.bst (h : s.fetchedOn c 1 1 x) (a : BitVec 10) (hy : x.needD 1 0 = .ok y) (hwf : memWf y.k.mem = true) :
    ∃ t : State, exec (.bst c a) s = .next t ∧ s.ranOn t c ∧ t.cores[c].ds = y.k.ds.drop 1 ∧ t.cores[c].pc = s.cores[c].pc + 2
      ∧ ∀ n, memBit t.cores[c].mem 0x1E000 n = if n = a.toNat then (y.top 0).getLsbD 0 else memBit y.k.mem 0x1E000 n := by
  have hw := h.begun.working.needD hy
  refine h.ends_next (z := (y.rep 1 []).putBit (.core a.toNat) ((y.top 0).getLsbD 0)) ((hw.rep 1 []).write _) ?_
    fun t hran hd _ hpc hm => ⟨hran, hd, hpc.trans ((h.needD_moved hy).rs_eq.2.1.trans h.pc), fun n => ?_⟩
  · simp only [hy]
    exact Ctx.changeBit_of_clean (y := y.rep 1 []) hw.upsets _ _
  · rw [hm]
    exact memBit_memSetBit hwf _ _ _ _

/-! ### Indirect operations -/

theorem Ctx.bitAddr_of_place (hp : y.s.bitPlace y.k.tag (y.top 0).toNat = p) (hne : p ≠ .none) : y.bitAddr (y.top 0).toNat = .ok p := by
  rw [Ctx.bitAddr, hp]
  cases p with
  | none => exact absurd rfl hne
  | core n => rfl
  | common n => rfl

/-- What an indirect operation on a bit place comes to: entries replaced, and the bit written where `wr` gives a value. -/
theorem bitIndirect_of_place {n : Nat} (common : Nat) (out : Ctx → Bool → List Word) (wr : Ctx → Option Bool) (hm : modOk m false false false = true)
    (hy : x.needD n 1 = .ok y) (hu : y.k.upsets = []) (hp : y.s.bitPlace y.k.tag (y.top 0).toNat = p) (hne : p ≠ .none) :
    bitIndirect m n common out wr x =
      .ok (match wr y with
        | some v => ((y.rep n (out y (y.getBit p))).spend (p.cycles 0 (common - 1))).putBit p v
        | none => (y.rep n (out y (y.getBit p))).spend (p.cycles 0 (common - 1))) := by
  rw [bitIndirect, guardMod_of_ok hm]
  simp only [hy, Ctx.bitAddr_of_place hp hne, Ctx.meetBit_of_clean hu] <;> rfl

/-- Writing a bit changes one memory only. -/
theorem Ctx.putBit_core (z : Ctx) (p : BitPlace) (b : Bool) : (z.putBit p b).k = { z.k with mem := (z.putBit p b).k.mem }
    ∧ (z.putBit p b).late = z.late ∧ (z.putBit p b).hold = z.hold ∧ (z.putBit p b).eccs = z.eccs := by
  cases p <;> exact ⟨rfl, rfl, rfl, rfl⟩

theorem State.fetchedOn.pc_of_needD {n k : Nat} (h : s.fetchedOn c 1 cyc x) (hy : x.needD n k = .ok y) : y.k.pc = s.cores[c].pc + 2 :=
  (h.needD_moved hy).rs_eq.2.1.trans h.pc

/-- An indirect operation that only reads. -/
theorem State.fetchedOn.indirectRead {n common : Nat} {out : Ctx → Bool → List Word} (h : s.fetchedOn c 1 1 x)
    (hm : modOk m false false false = true) (hy : x.needD n 1 = .ok y) (hp : y.s.bitPlace y.k.tag (y.top 0).toNat = p) (hne : p ≠ .none) :
    ∃ t : State, Host.Outcome.next (s.insn c 1 1 (bitIndirect m n common out fun _ => none)) = (.next t : Out)
      ∧ t.cores[c].ds = out y (y.getBit p) ++ y.k.ds.drop n ∧ t.cores[c].pc = s.cores[c].pc + 2 ∧ t.cores[c].mem = y.k.mem ∧ t.mem = s.mem := by
  have hw := h.begun.working.needD hy
  have hpc' := h.pc_of_needD hy
  exact h.ends_next ((hw.rep n _).spend _) (bitIndirect_of_place common out (fun _ => none) hm hy hw.upsets hp hne)
    fun t hran hd _ hpc hmem => ⟨hd, hpc.trans hpc', hmem, hran.mem⟩

/-- An indirect operation that writes `v`. -/
theorem State.fetchedOn.indirectWrite {n common : Nat} {out : Ctx → Bool → List Word} {wr : Ctx → Option Bool} {v : Bool}
    (h : s.fetchedOn c 1 1 x) (hm : modOk m false false false = true) (hy : x.needD n 1 = .ok y)
    (hp : y.s.bitPlace y.k.tag (y.top 0).toNat = p) (hne : p ≠ .none) (hv : wr y = some v) :
    ∃ t : State, Host.Outcome.next (s.insn c 1 1 (bitIndirect m n common out wr)) = (.next t : Out)
      ∧ t.cores[c].ds = out y (y.getBit p) ++ y.k.ds.drop n ∧ t.cores[c].pc = s.cores[c].pc + 2 ∧ t.cores[c].mem = (y.putBit p v).k.mem
      ∧ t.mem = (y.putBit p v).s.mem := by
  have hw := h.begun.working.needD hy
  have hpc' := h.pc_of_needD hy
  obtain ⟨z, hz⟩ : ∃ z, z = (y.rep n (out y (y.getBit p))).spend (p.cycles 0 (common - 1)) := ⟨_, rfl⟩
  have hb : bitIndirect m n common out wr x = .ok (z.putBit p v) := by
    rw [bitIndirect_of_place common out wr hm hy hw.upsets hp hne, hv, hz]
  have hzw : s.Working c z := hz ▸ (hw.rep n _).spend _
  obtain ⟨hk, hl, hh, he⟩ := z.putBit_core p v
  rw [State.insn_of_ok h hb (hl.trans hzw.late) (hh.trans hzw.hold) (he.trans hzw.eccs)]
  refine ⟨_, rfl, ?_, ?_, ?_, ?_⟩
  · rw [Ctx.retire_core, hk, hz]
    rfl
  · rw [Ctx.retire_core, hk, hz]
    exact hpc'
  · rw [Ctx.retire_core, hz]
    cases p <;> rfl
  · rw [keeps_mem (Ctx.retire_frame ..) rfl, hz]
    cases p <;> rfl

theorem State.fetchedOn.poll (h : s.fetchedOn c 1 2 x) (hy : x.needD 1 1 = .ok y) (hp : y.s.bitPlace y.k.tag (y.top 0).toNat = p)
    (hne : p ≠ .none) : ∃ t : State, exec (.poll c) s = .next t ∧ s.ranOn t c
      ∧ t.cores[c].ds = (if y.getBit p then 1 else 0) :: y.k.ds.drop 1 ∧ t.cores[c].pc = s.cores[c].pc + 2 := by
  have hw := h.begun.working.needD hy
  have hpc' := h.pc_of_needD hy
  refine h.ends_next ((hw.rep 1 [bitWord (y.getBit p)]).spend (p.cycles 0 38)) ?_ fun t hran hd _ hpc _ => ⟨hran, hd, hpc.trans hpc'⟩
  simp only [hy, Ctx.bitAddr_of_place hp hne, Ctx.meetBit_of_clean hw.upsets]

theorem State.fetchedOn.btas_of_noPlace (h : s.fetchedOn c 1 1 x) (hm : modOk m false false false = true) (hy : x.needD 1 1 = .ok y)
    (hp : y.s.bitPlace y.k.tag (y.top 0).toNat = .none) :
    exec (.btas c m) s = .next (s.trapped c s.cores[c] ⟨0x0C, (y.top 0).toNat % 2 ^ 48, false, false⟩ s.cores[c].pc) := by
  have hb : y.bitAddr (y.top 0).toNat = .error ⟨0x0C, (y.top 0).toNat % 2 ^ 48, false, false⟩ := by rw [Ctx.bitAddr, hp]
  refine congrArg Host.Outcome.next (State.insn_of_trap h ?_ (by decide : 0x0C ≠ 0x13))
  rw [bitIndirect, guardMod_of_ok hm]
  simp only [hy, hb]

end

/-- Settles O26: a direct operation works on its core bit, an indirect one on the place its address names, or traps. -/
theorem bitInstructions : Obligations.BitInstructions := by
  refine ⟨fun s c a x h hwf => ⟨fun y hy => h.btst a hy, h.changesBit hwf a true, h.changesBit hwf a false, fun y hy hy' => h.bst a hy hy'⟩,
    fun s c m x y p h hm hy hp hne => ⟨h.indirectRead hm hy hp hne, h.indirectWrite hm hy hp hne rfl, h.indirectWrite hm hy hp hne rfl,
      h.indirectWrite hm hy hp hne rfl⟩,
    fun s c m x y p h hm hy hp hne => h.indirectWrite hm hy hp hne rfl, fun s c x y p h hy hp hne => h.poll hy hp hne,
    fun s c m x y h hm hy hp => h.btas_of_noPlace hm hy hp⟩

end Sys2Proof.Machine
end

section
/-!
Branches, calls and returns (R299, R307, R342-R344, R351).
-/

namespace Sys2Proof.Machine

/-! ### Targets -/

theorem ofNat_toNat_self {n : Nat} (a : BitVec n) : BitVec.ofNat n a.toNat = a := by rw [BitVec.ofNat_toNat, BitVec.setWidth_eq]

theorem Ctx.goto_of_even {y : Ctx} {a : Nat} (h0 : a % 2 = 0) (h48 : a < 2 ^ 48) :
    y.goto a = .ok { y with k := { y.k with pc := BitVec.ofNat 48 a } } := by
  rw [Ctx.goto, if_neg (by omega), if_neg (by omega)]

theorem Ctx.goto_of_odd {y : Ctx} {a : Nat} (h : a % 2 = 1) : y.goto a = .error (trapAlign (a % 2 ^ 48) false) := if_pos h

theorem BitVec.getLsbD_zero_eq {n : Nat} (v : BitVec n) : v.getLsbD 0 = decide (v.toNat % 2 = 1) := by
  rw [BitVec.getLsbD, Nat.testBit_zero]

theorem toNat_even {n : Nat} {v : BitVec n} (h : v.getLsbD 0 = false) : v.toNat % 2 = 0 := by
  rw [BitVec.getLsbD_zero_eq, decide_eq_false_iff_not] at h
  omega

theorem toNat_odd {n : Nat} {v : BitVec n} (h : v.getLsbD 0 = true) : v.toNat % 2 = 1 := by
  rwa [BitVec.getLsbD_zero_eq, decide_eq_true_eq] at h

/-- A displacement in parcels, added to PC modulo 2^48. -/
theorem Ctx.target_eq (x : Ctx) {n : Nat} (d : BitVec n) : BitVec.ofNat 48 (x.target d.toInt) = x.k.pc + d.signExtend 48 * 2 := by
  have hd : d.signExtend 48 = BitVec.ofInt 48 d.toInt := rfl
  have hw : BitVec.ofNat 48 (x.target d.toInt) = BitVec.ofInt 48 (x.k.pc.toNat + 2 * d.toInt) := by
    apply BitVec.eq_of_toNat_eq
    rw [Ctx.target, BitVec.toNat_ofNat, wrapInt_mod, BitVec.toNat_ofInt]
    rfl
  rw [hd, hw, BitVec.ofInt_add, BitVec.ofInt_mul]
  simp [mul_comm]

theorem Ctx.target_lt (x : Ctx) (d : Int) : x.target d < 2 ^ 48 := wrapInt_lt ..

theorem Ctx.target_even {x : Ctx} (h : x.k.pc.toNat % 2 = 0) (d : Int) : x.target d % 2 = 0 := by
  have hmod := wrapInt_cast 48 (x.k.pc.toNat + 2 * d)
  rw [Ctx.target]
  omega

section
variable {s : State} {c : Fin 72} {len cyc : Nat} {x y z : Ctx}

/-! ### Jumps and branches -/

theorem State.fetchedOn.jump {n : Nat} (h : s.fetchedOn c len cyc x) (d : BitVec n) :
    s.ranOn (s.insn c len cyc (jumpRel d.toInt)) c ∧ (s.insn c len cyc (jumpRel d.toInt)).cores[c].ds = s.cores[c].ds
      ∧ (s.insn c len cyc (jumpRel d.toInt)).cores[c].rs = s.cores[c].rs
      ∧ (s.insn c len cyc (jumpRel d.toInt)).cores[c].pc = s.cores[c].pc + BitVec.ofNat 48 (2 * len) + d.signExtend 48 * 2 := by
  obtain ⟨hran, hds, hrs, hpc, -⟩ := h.ends (body := jumpRel d.toInt)
    (h.begun.working.jump (BitVec.ofNat 48 (x.target d.toInt))) rfl
  obtain ⟨hxd, hxr, -⟩ := h.begun.entries
  exact ⟨hran, hds.trans hxd, hrs.trans hxr, hpc.trans (by rw [x.target_eq d, h.pc])⟩

/-- A branch on the popped entry, taken when its being zero is `zero`. -/
theorem State.fetchedOn.branch {n : Nat} (h : s.fetchedOn c len cyc x) (hy : x.needD 1 0 = .ok y) (zero : Bool) (d : BitVec n) :
    s.ranOn (s.insn c len cyc (branchRel zero d.toInt)) c ∧ (s.insn c len cyc (branchRel zero d.toInt)).cores[c].ds = y.k.ds.drop 1
      ∧ (s.insn c len cyc (branchRel zero d.toInt)).cores[c].rs = s.cores[c].rs
      ∧ (s.insn c len cyc (branchRel zero d.toInt)).cores[c].pc =
        if (y.top 0 == 0) = zero then s.cores[c].pc + BitVec.ofNat 48 (2 * len) + d.signExtend 48 * 2
        else s.cores[c].pc + BitVec.ofNat 48 (2 * len) := by
  obtain ⟨hyr, hyp, -⟩ := (h.needD_moved hy).rs_eq
  have hrs' : y.k.rs = s.cores[c].rs := hyr.trans h.begun.entries.2.1
  have hpc' : y.k.pc = s.cores[c].pc + BitVec.ofNat 48 (2 * len) := hyp.trans h.pc
  have hw := (h.begun.working.needD hy).rep 1 []
  by_cases hz : (y.top 0 == 0) = zero
  · have htarget := Ctx.target_eq ((y.rep 1 []).spend 1) d
    have hbody : branchRel zero d.toInt x = .ok { (y.rep 1 []).spend 1 with
        k := { ((y.rep 1 []).spend 1).k with pc := BitVec.ofNat 48 (((y.rep 1 []).spend 1).target d.toInt) } } := by
      simp only [branchRel, hy, hz, beq_self_eq_true, if_true, jumpRel]
    obtain ⟨hran, hds, hrs, hpc, -⟩ := h.ends ((hw.spend 1).jump _) hbody
    refine ⟨hran, hds, hrs.trans hrs', hpc.trans ?_⟩
    rw [if_pos hz, ← hpc']
    exact htarget
  · have hbody : branchRel zero d.toInt x = .ok (y.rep 1 []) := by
      simp only [branchRel, hy, beq_eq_false_iff_ne.mpr hz, Bool.false_eq_true, if_false]
    obtain ⟨hran, hds, hrs, hpc, -⟩ := h.ends hw hbody
    refine ⟨hran, hds, hrs.trans hrs', hpc.trans ?_⟩
    rw [if_neg hz, ← hpc']
    rfl

/-! ### Calls and computed targets -/

/-- A call to an even address pushes the address after it with tag 1. -/
theorem State.fetchedOn.call (h : s.fetchedOn c len cyc x) (hy : x.needR 0 1 = .ok y) (a : Ctx → Nat) (h0 : a y % 2 = 0)
    (h48 : a y < 2 ^ 48) :
    s.ranOn (s.insn c len cyc (callTo a)) c ∧ (s.insn c len cyc (callTo a)).cores[c].ds = s.cores[c].ds
      ∧ (s.insn c len cyc (callTo a)).cores[c].rs = ((s.cores[c].pc + BitVec.ofNat 48 (2 * len)).zeroExtend 64, true) :: y.k.rs
      ∧ (s.insn c len cyc (callTo a)).cores[c].pc = BitVec.ofNat 48 (a y) := by
  have hbody : callTo a x = .ok ({ y with k := { y.k with pc := BitVec.ofNat 48 (a y) } }.repR 0 [(BitVec.ofNat 64 x.k.pc.toNat, true)]) := by
    simp only [callTo, hy, Ctx.goto_of_even h0 h48]
  obtain ⟨hran, hds, hrs, hpc, -⟩ := h.ends (((h.begun.working.needR hy).jump _).repR 0 _) hbody
  refine ⟨hran, ?_, hrs.trans ?_, hpc⟩
  · exact hds.trans ((Ctx.needR_moved h.begun.upsets hy).ds_eq.1.trans h.begun.entries.1)
  · rw [h.pc, BitVec.ofNat_toNat]
    rfl

/-- A call relative to the address after it. -/
theorem State.fetchedOn.callRel {n : Nat} (h : s.fetchedOn c len cyc x) (hy : x.needR 0 1 = .ok y) (heven : s.cores[c].pc.getLsbD 0 = false)
    (d : BitVec n) :
    s.ranOn (s.insn c len cyc (callTo fun x => x.target d.toInt)) c
      ∧ (s.insn c len cyc (callTo fun x => x.target d.toInt)).cores[c].ds = s.cores[c].ds
      ∧ (s.insn c len cyc (callTo fun x => x.target d.toInt)).cores[c].rs
        = ((s.cores[c].pc + BitVec.ofNat 48 (2 * len)).zeroExtend 64, true) :: y.k.rs
      ∧ (s.insn c len cyc (callTo fun x => x.target d.toInt)).cores[c].pc
        = s.cores[c].pc + BitVec.ofNat 48 (2 * len) + d.signExtend 48 * 2 := by
  have hpc' : y.k.pc = s.cores[c].pc + BitVec.ofNat 48 (2 * len) := (Ctx.needR_moved h.begun.upsets hy).ds_eq.2.trans h.pc
  have hpar : y.k.pc.toNat % 2 = 0 := by
    have h0 := toNat_even heven
    rw [hpc', BitVec.toNat_add, BitVec.toNat_ofNat]
    omega
  obtain ⟨hran, hds, hrs, hpc⟩ := h.call hy (fun x => x.target d.toInt) (Ctx.target_even hpar _) (Ctx.target_lt ..)
  exact ⟨hran, hds, hrs, hpc.trans ((Ctx.target_eq y d).trans (by rw [hpc']))⟩

theorem State.fetchedOn.jmpi {m : OpMod} (h : s.fetchedOn c 1 3 x) (hm : modOk m false false false = true) (hy : x.needD 1 0 = .ok y)
    (h0 : (y.top 0).getLsbD 0 = false) (h48 : (y.top 0).toNat < 2 ^ 48) :
    ∃ t : State, exec (.jmpi c m) s = .next t ∧ s.ranOn t c ∧ t.cores[c].pc = (y.top 0).truncate 48 ∧ t.cores[c].ds = y.k.ds.drop 1 := by
  refine h.ends_next (((h.begun.working.needD hy).jump (BitVec.ofNat 48 (y.top 0).toNat)).rep 1 []) ?_
    fun t hran hds _ hpc _ => ⟨hran, hpc.trans (BitVec.ofNat_toNat ..), hds⟩
  rw [guardMod_of_ok hm]
  simp only [hy, Ctx.goto_of_even (toNat_even h0) h48]

theorem State.fetchedOn.execCall {m : OpMod} (h : s.fetchedOn c 1 3 x) (hm : modOk m false false false = true) (hy : x.needD 1 0 = .ok y)
    (h0 : (y.top 0).getLsbD 0 = false) (h48 : (y.top 0).toNat < 2 ^ 48) (hz : y.needR 0 1 = .ok z) :
    ∃ t : State, exec (.execCall c m) s = .next t ∧ s.ranOn t c ∧ t.cores[c].pc = (y.top 0).truncate 48 ∧ t.cores[c].ds = y.k.ds.drop 1
      ∧ t.cores[c].rs = ((s.cores[c].pc + 2).zeroExtend 64, true) :: z.k.rs := by
  have hw := h.begun.working.needD hy
  have hzd := (Ctx.needR_moved hw.upsets hz).ds_eq.1
  have htop : z.top 0 = y.top 0 := by rw [Ctx.top, Ctx.top, hzd]
  have hpush : BitVec.ofNat 64 x.k.pc.toNat = (s.cores[c].pc + 2).zeroExtend 64 := by
    rw [BitVec.ofNat_toNat, h.pc]
    rfl
  refine h.ends_next ((((hw.needR hz).jump (BitVec.ofNat 48 (y.top 0).toNat)).rep 1 []).repR 0 [(BitVec.ofNat 64 x.k.pc.toNat, true)]) ?_
    fun t hran hds hrs hpc _ => ⟨hran, hpc.trans (BitVec.ofNat_toNat ..), hds.trans (congrArg (List.drop 1) hzd), hrs.trans ?_⟩
  · rw [guardMod_of_ok hm]
    simp only [hy, hz, htop, Ctx.goto_of_even (toNat_even h0) h48]
  · rw [hpush]
    rfl

theorem State.fetchedOn.ret {m : OpMod} (h : s.fetchedOn c 1 2 x) (hm : modOk m false false false = true) (hy : x.needR 1 0 = .ok y)
    (htag : y.topR.2 = true) (h0 : y.topR.1.getLsbD 0 = false) (h48 : y.topR.1.toNat < 2 ^ 48) :
    ∃ t : State, exec (.ret c m) s = .next t ∧ s.ranOn t c ∧ t.cores[c].pc = y.topR.1.truncate 48 ∧ t.cores[c].rs = y.k.rs.drop 1
      ∧ t.cores[c].ds = s.cores[c].ds := by
  refine h.ends_next (((h.begun.working.needR hy).jump (BitVec.ofNat 48 y.topR.1.toNat)).repR 1 []) ?_
    fun t hran hds hrs hpc _ => ⟨hran, hpc.trans (BitVec.ofNat_toNat ..), hrs,
      hds.trans ((Ctx.needR_moved h.begun.upsets hy).ds_eq.1.trans h.begun.entries.1)⟩
  rw [guardMod_of_ok hm]
  simp only [hy, htag, if_true, Ctx.goto_of_even (toNat_even h0) h48]

theorem State.fetchedOn.ret_of_data {m : OpMod} (h : s.fetchedOn c 1 2 x) (hm : modOk m false false false = true) (hy : x.needR 1 0 = .ok y)
    (htag : y.topR.2 = false) : exec (.ret c m) s = .next (s.trapped c s.cores[c] ⟨0x0F, 0, false, false⟩ s.cores[c].pc) := by
  refine congrArg Host.Outcome.next (State.insn_of_trap h ?_ (by decide))
  rw [guardMod_of_ok hm]
  simp only [hy, htag, Bool.false_eq_true, if_false]

theorem State.fetchedOn.jmpa (h : s.fetchedOn c 4 4 x) {a : BitVec 48} (h0 : a.getLsbD 0 = false) :
    ∃ t : State, exec (.jmpa c a) s = .next t ∧ s.ranOn t c ∧ t.cores[c].pc = a ∧ t.cores[c].ds = s.cores[c].ds
      ∧ t.cores[c].rs = s.cores[c].rs := by
  obtain ⟨hran, hds, hrs, hpc, -⟩ := h.ends (body := fun x => x.goto a.toNat)
    (h.begun.working.jump (BitVec.ofNat 48 a.toNat)) (Ctx.goto_of_even (toNat_even h0) a.isLt)
  obtain ⟨hxd, hxr, -⟩ := h.begun.entries
  exact ⟨_, rfl, hran, hpc.trans (ofNat_toNat_self a), hds.trans hxd, hrs.trans hxr⟩

theorem State.fetchedOn.calla_of_odd (h : s.fetchedOn c 4 4 x) {a : BitVec 48} (h0 : a.getLsbD 0 = true) (hy : x.needR 0 1 = .ok y) :
    exec (.calla c a) s = .next (s.trapped c s.cores[c] ⟨0x0A, a.toNat, false, false⟩ s.cores[c].pc) := by
  have hbody : callTo (fun _ => a.toNat) x = .error ⟨0x0A, a.toNat, false, false⟩ := by
    simp only [callTo, hy, Ctx.goto_of_odd (toNat_odd h0), trapAlign, Nat.mod_eq_of_lt a.isLt]
  exact congrArg Host.Outcome.next (State.insn_of_trap h hbody (by decide : 0x0A ≠ 0x13))

end

theorem ite_zero_eq {α : Type} (v : Word) (a b : α) : (if (v == 0) = true then a else b) = if v = 0 then a else b := by
  simp only [beq_iff_eq]

theorem ite_nonzero_eq {α : Type} (v : Word) (a b : α) : (if (v == 0) = false then a else b) = if v = 0 then b else a := by
  simp only [beq_eq_false_iff_ne, ne_eq, ite_not]

/-- Settles O27: a jump sets PC to its target, a branch where its entry says so, and a call pushes the address after it. -/
theorem controlTransfers : Obligations.ControlTransfers := by
  refine ⟨fun s c d x h => ⟨⟨_, rfl, h.jump d⟩, fun y h0 hy => ⟨_, rfl, h.callRel hy h0 d⟩⟩, fun s c d x y h hy => ?_,
    fun s c d x h => ⟨⟨_, rfl, h.jump d⟩, fun y h0 hy => ?_⟩, fun s c d x y h hy => ?_,
    fun s c a x h => ⟨fun h0 => h.jmpa h0, fun y h0 hy => ?_, fun y h0 hy => h.calla_of_odd h0 hy⟩,
    fun s c m x y h hm hy h0 h48 => ⟨h.jmpi hm hy h0 h48, fun z hz => h.execCall hm hy h0 h48 hz⟩,
    fun s c m x y h hm hy => ⟨fun htag h0 h48 => h.ret hm hy htag h0 h48, fun htag => h.ret_of_data hm hy htag⟩⟩
  · obtain ⟨zran, zds, zrs, zpc⟩ := h.branch hy true d
    obtain ⟨nran, nds, nrs, npc⟩ := h.branch hy false d
    exact ⟨⟨_, rfl, zran, zds, zrs, zpc.trans (ite_zero_eq ..)⟩, ⟨_, rfl, nran, nds, nrs, npc.trans (ite_nonzero_eq ..)⟩⟩
  · obtain ⟨hran, -, hrs, hpc⟩ := h.callRel hy h0 d
    exact ⟨_, rfl, hran, hrs, hpc⟩
  · obtain ⟨zran, zds, -, zpc⟩ := h.branch hy true d
    obtain ⟨nran, nds, -, npc⟩ := h.branch hy false d
    exact ⟨⟨_, rfl, zran, zds, zpc.trans (ite_zero_eq ..)⟩, ⟨_, rfl, nran, nds, npc.trans (ite_nonzero_eq ..)⟩⟩
  · obtain ⟨hran, -, hrs, hpc⟩ := h.call hy (fun _ => a.toNat) (toNat_even h0) a.isLt
    exact ⟨_, rfl, hran, hpc.trans (ofNat_toNat_self a), hrs⟩

end Sys2Proof.Machine
end

section
/-!
Loads and stores of a Crook core on its local memory (R295, R299, R307, R311, R345, R351).
-/

namespace Sys2Proof.Machine

open Sys2Proof.Laws

theorem length_leBytes (n v : Nat) : (leBytes n v).length = n := by
  induction n generalizing v with
  | zero => rfl
  | succ n ih => rw [leBytes, List.length_cons, ih]

section
variable {s : State} {c : Fin 72} {x y : Ctx} {a n : Nat}

/-! ### Accesses to local memory -/

theorem Ctx.locate_of_local (hal : a % n = 0) (ha : a < 0x20000) (need : Need) (wr : Bool) : y.locate a n need wr = .ok (y, none) := by
  rw [Ctx.locate, if_neg (not_not.mpr hal), if_neg (by omega), if_pos ha]

theorem Ctx.load_of_local (hu : y.k.upsets = []) (hal : a % n = 0) (ha : a < 0x20000) :
    y.load a n .none = .ok (y.spend 1, leNat (memReadN y.k.mem a n)) := by
  simp only [Ctx.load, Ctx.locate_of_local hal ha, Ctx.struck, Ctx.readLocal_of_clean hu]

theorem Ctx.store_of_local (hu : y.k.upsets = []) (hal : a % n = 0) (ha : a < 0x20000)
    (hrs : a + n ≤ y.k.rsl.toNat ∨ y.k.rsh.toNat + 72 ≤ a) (v : Nat) :
    y.store a n v = .ok { y.spend 1 with k := { y.k with mem := memWriteN y.k.mem a (leBytes n v) } } := by
  have hout : ¬ (y.k.rsl.toNat < a + n ∧ a < y.k.rsh.toNat + 72) := by omega
  simp only [Ctx.store, Ctx.locate_of_local hal ha, Ctx.writeLocal_of_clean hu, if_neg hout]

/-- A store into the return-stack region (R307). -/
theorem Ctx.store_of_protected (hu : y.k.upsets = []) (hal : a % n = 0) (ha : a < 0x20000)
    (hrs : y.k.rsl.toNat < a + n ∧ a < y.k.rsh.toNat + 72) (v : Nat) : y.store a n v = .error ⟨0x0E, a, true, false⟩ := by
  simp only [Ctx.store, Ctx.locate_of_local hal ha, Ctx.writeLocal_of_clean hu, if_pos hrs]

theorem Ctx.store_of_misaligned (hal : a % n ≠ 0) (v : Nat) : y.store a n v = .error ⟨0x0A, a % 2 ^ 48, true, false⟩ := by
  simp only [Ctx.store, Ctx.locate, if_pos hal, trapAlign]

/-! ### The instructions -/

theorem State.Working.region (h : s.Working c y) :
    y.k.rsl = s.cores[c].rsl ∧ y.k.rsh = s.cores[c].rsh ∧ y.k.lp = s.cores[c].lp :=
  ⟨(congrArg Core.rsl h.fixed : y.k.fixed.rsl = s.cores[c].fixed.rsl), (congrArg Core.rsh h.fixed : y.k.fixed.rsh = s.cores[c].fixed.rsh),
    (congrArg Core.lp h.fixed : y.k.fixed.lp = s.cores[c].fixed.lp)⟩

/-- A load that takes `k` entries, from an aligned local address. -/
theorem State.fetchedOn.loads {k : Nat} {w : Lane} {sx : Bool} {f : Ctx → Word} {body : Body} (h : s.fetchedOn c 1 0 x)
    (hbody : body = loadBody w sx .none k f) (hy : x.needD k 1 = .ok y) (hf : (f y).toNat = a) (hal : a % laneBytes w = 0) (ha : a < 0x20000) :
    ∃ t : State, Host.Outcome.next (s.insn c 1 0 body) = (.next t : Out) ∧ s.ranOn t c ∧ t.cores[c].mem = y.k.mem
      ∧ t.cores[c].pc = s.cores[c].pc + 2
      ∧ t.cores[c].ds = BitVec.ofInt 64 (laneVal w sx (leNat (memReadN y.k.mem a (laneBytes w)))) :: y.k.ds.drop k := by
  have hw := h.begun.working.needD hy
  have hpc' : y.k.pc = s.cores[c].pc + 2 := (h.needD_moved hy).rs_eq.2.1.trans h.pc
  refine h.ends_next ((hw.spend 1).rep k [loaded w sx (leNat (memReadN y.k.mem a (laneBytes w)))]) ?_
    fun t hran hd _ hpc hm => ⟨hran, hm, hpc.trans hpc', hd⟩
  simp only [hbody, loadBody, hy, hf, Ctx.load_of_local hw.upsets hal ha]

/-- A store that takes `k` entries, the lowest the value, to an aligned local address outside the return-stack region. -/
theorem State.fetchedOn.stores {k : Nat} {w : Lane} {f : Ctx → Word} {body : Body} (h : s.fetchedOn c 1 0 x) (hbody : body = storeBody w k f)
    (hy : x.needD k 0 = .ok y) (hf : (f y).toNat = a) (hal : a % laneBytes w = 0) (ha : a < 0x20000)
    (hrs : a + laneBytes w ≤ s.cores[c].rsl.toNat ∨ s.cores[c].rsh.toNat + 72 ≤ a) :
    ∃ t : State, Host.Outcome.next (s.insn c 1 0 body) = (.next t : Out) ∧ s.ranOn t c ∧ t.cores[c].ds = y.k.ds.drop k
      ∧ t.cores[c].pc = s.cores[c].pc + 2
      ∧ t.cores[c].mem = memWriteN y.k.mem a (leBytes (laneBytes w) (laneAt w (y.top (k - 1)) 0)) := by
  have hw := h.begun.working.needD hy
  obtain ⟨hrsl, hrsh, -⟩ := hw.region
  have hpc' : y.k.pc = s.cores[c].pc + 2 := (h.needD_moved hy).rs_eq.2.1.trans h.pc
  have hrs' : a + laneBytes w ≤ y.k.rsl.toNat ∨ y.k.rsh.toNat + 72 ≤ a := by rwa [hrsl, hrsh]
  have hval : bits (y.top (k - 1)).toNat 0 (laneBits w) = laneAt w (y.top (k - 1)) 0 := by rw [laneAt, Nat.mul_zero]
  refine h.ends_next (((hw.write (memWriteN y.k.mem a (leBytes (laneBytes w) (laneAt w (y.top (k - 1)) 0)))).spend 1).rep k []) ?_
    fun t hran hd _ hpc hm => ⟨hran, hd, hpc.trans hpc', hm⟩
  simp only [hbody, storeBody, hy, hf, hval, Ctx.store_of_local hw.upsets hal ha hrs']
  rfl

theorem State.fetchedOn.store_of_protected {m : OpMod} (h : s.fetchedOn c 1 0 x) (hm : modOk m true false false = true)
    (hy : x.needD 2 0 = .ok y) (hal : (y.top 0).toNat % laneBytes m.w = 0) (ha : (y.top 0).toNat < 0x20000)
    (hlo : s.cores[c].rsl.toNat < (y.top 0).toNat + laneBytes m.w) (hhi : (y.top 0).toNat < s.cores[c].rsh.toNat + 72) :
    exec (.store c m) s = .next (s.trapped c s.cores[c] ⟨0x0E, (y.top 0).toNat, true, false⟩ s.cores[c].pc) := by
  have hw := h.begun.working.needD hy
  obtain ⟨hrsl, hrsh, -⟩ := hw.region
  refine congrArg Host.Outcome.next (State.insn_of_trap h ?_ (by decide : 0x0E ≠ 0x13))
  rw [guardMod_of_ok hm]
  simp only [storeBody, hy, Ctx.store_of_protected hw.upsets hal ha ⟨hrsl ▸ hlo, hrsh ▸ hhi⟩]

theorem State.fetchedOn.store_of_misaligned {m : OpMod} (h : s.fetchedOn c 1 0 x) (hm : modOk m true false false = true)
    (hy : x.needD 2 0 = .ok y) (hal : (y.top 0).toNat % laneBytes m.w ≠ 0) :
    exec (.store c m) s = .next (s.trapped c s.cores[c] ⟨0x0A, (y.top 0).toNat % 2 ^ 48, true, false⟩ s.cores[c].pc) := by
  refine congrArg Host.Outcome.next (State.insn_of_trap h ?_ (by decide : 0x0A ≠ 0x13))
  rw [guardMod_of_ok hm]
  simp only [storeBody, hy, Ctx.store_of_misaligned hal]

/-- The address of a local form: LP and the offset, which do not wrap. -/
theorem State.Working.lp_off (h : s.Working c y) (w : Lane) (i : BitVec 8) :
    (y.k.lp.zeroExtend 64 + shortOff w i).toNat = s.cores[c].lp.toNat + i.toNat * laneBytes w := by
  have hw : laneBytes w ≤ 8 := by cases w <;> decide
  have hoff := Nat.mul_le_mul i.isLt.le hw
  have hlp := s.cores[c].lp.isLt
  obtain ⟨-, -, hl⟩ := h.region
  rw [hl, BitVec.toNat_add, shortOff, BitVec.toNat_ofNat, BitVec.toNat_setWidth]
  omega

end

/-- Settles O28: an aligned local access is one read or write of the memory as the fills and spills left it. -/
theorem loadsAndStores : Obligations.LoadsAndStores := by
  refine ⟨fun s c w i x y a h => ⟨fun hy hf hal ha => ?_, fun hy hf hal ha => ?_, fun hy hf hal ha hrs => h.stores rfl hy hf.symm hal ha hrs,
      fun hy hf hal ha hrs => h.stores rfl hy ((h.begun.working.needD hy).lp_off w i |>.trans hf.symm) hal ha hrs⟩,
    fun s c m x y h => ⟨fun hm hy hal ha => h.loads (guardMod_of_ok hm _) hy rfl hal ha,
      fun hm hy hal ha hrs => h.stores (guardMod_of_ok hm _) hy rfl hal ha hrs,
      fun hm hy hal ha hlo hhi => h.store_of_protected hm hy hal ha hlo hhi, fun hm hy hal => h.store_of_misaligned hm hy hal⟩,
    fun m a n b v hwf hb => memRead_memWriteN_other hwf (by rwa [length_leBytes]),
    fun m a n v hwf => ⟨?_, memWriteN_wf hwf _ _⟩⟩
  · exact h.loads rfl hy hf.symm hal ha
  · exact h.loads rfl hy ((h.begun.working.needD hy).lp_off w i |>.trans hf.symm) hal ha
  · have hread := memReadN_memWriteN hwf a (leBytes n v)
    rwa [length_leBytes] at hread

end Sys2Proof.Machine
end

section
/-!
The encoding of the Crook instructions (R337, R341-R354): decoding a sequence of parcels and encoding the instruction gives them back.
-/

namespace Sys2Proof.Machine

/-! ### Parcels -/

theorem ofNat_eq_parcel {p : BitVec 16} {n : Nat} (h : n % 2 ^ 16 = p.toNat) : BitVec.ofNat 16 n = p :=
  BitVec.eq_of_toNat_eq (by rw [BitVec.toNat_ofNat, h])

theorem some_parcel_eq {c : Fin 72} {p : BitVec 16} {n : Nat} (h : n % 2 ^ 16 = p.toNat) : some (c, [BitVec.ofNat 16 n]) = some (c, [p]) := by
  rw [ofNat_eq_parcel h]

/-! ### The operate class (R347-R351) -/

theorem laneCode_laneOf {n : Nat} (h : n < 4) : laneCode (laneOf n) = n := by
  rcases n with _ | _ | _ | _ | n
  · rfl
  · rfl
  · rfl
  · rfl
  · omega

theorem b2n_bitAt (v i : Nat) : b2n (bitAt v i) = v / 2 ^ i % 2 := by
  rcases Nat.mod_two_eq_zero_or_one (v / 2 ^ i) with h | h <;> simp [bitAt, h, b2n]

theorem opParcel_modOf {p : BitVec 16} (hlo : 0xC000 ≤ p.toNat) (hhi : p.toNat < 0xD000) : opParcel (bits p.toNat 4 8) (modOf p.toNat) = p := by
  refine ofNat_eq_parcel ?_
  have hw : laneCode (modOf p.toNat).w = bits p.toNat 0 2 := laneCode_laneOf (Nat.mod_lt _ (by decide))
  have hs : b2n (modOf p.toNat).s = p.toNat / 2 ^ 2 % 2 := b2n_bitAt ..
  have ht : b2n (modOf p.toNat).t = p.toNat / 2 ^ 3 % 2 := b2n_bitAt ..
  rw [hw, hs, ht, bits, bits]
  omega

/-- The modifier of an opcode that accepts none. -/
theorem eq_of_modOk_none {m : OpMod} (h : modOk m false false false = true) : m = ⟨.w64, false, false⟩ := by
  obtain ⟨w, s, t⟩ := m
  cases w <;> cases s <;> cases t <;> first | rfl | cases h

/-- A row of the table names the instruction whose encoding its opcode and modifier are. -/
def OpRow.Encodes (r : OpRow) : Prop :=
  ∀ (c : Fin 72) (m : OpMod), modOk m r.w r.s r.t = true → parcelsOf (r.instr c m) = some (c, [opParcel r.op m])

theorem opStack_encodes : ∀ r ∈ opStack, r.Encodes := by
  simp only [opStack, List.forall_mem_cons, List.not_mem_nil, false_imp_iff, implies_true, and_true]
  refine ⟨?_, ?_, ?_, ?_, ?_, ?_, ?_, ?_, ?_, ?_, ?_, ?_⟩ <;> exact fun c m h => by rw [eq_of_modOk_none h]; rfl

theorem opArith_encodes : ∀ r ∈ opArith, r.Encodes := by
  simp only [opArith, List.forall_mem_cons, List.not_mem_nil, false_imp_iff, implies_true, and_true]
  refine ⟨?_, ?_, ?_, ?_, ?_, ?_, ?_, ?_, ?_, ?_, ?_, ?_, ?_, ?_, ?_, ?_⟩ <;> exact fun c m _ => rfl

theorem opLogic_encodes : ∀ r ∈ opLogic, r.Encodes := by
  simp only [opLogic, List.forall_mem_cons, List.not_mem_nil, false_imp_iff, implies_true, and_true]
  refine ⟨?_, ?_, ?_, ?_, ?_, ?_, ?_, ?_, ?_, ?_, ?_⟩ <;> exact fun c m _ => rfl

theorem opFloat_encodes : ∀ r ∈ opFloat, r.Encodes := by
  simp only [opFloat, List.forall_mem_cons, List.not_mem_nil, false_imp_iff, implies_true, and_true]
  refine ⟨?_, ?_, ?_, ?_, ?_, ?_, ?_, ?_, ?_, ?_, ?_⟩ <;> exact fun c m _ => rfl

theorem opControl_encodes : ∀ r ∈ opControl, r.Encodes := by
  simp only [opControl, List.forall_mem_cons, List.not_mem_nil, false_imp_iff, implies_true, and_true]
  refine ⟨?_, ?_, ?_, ?_, ?_, ?_, ?_, ?_, ?_, ?_, ?_, ?_⟩ <;> exact fun c m _ => rfl

theorem opTable_encodes : ∀ r ∈ opTable, r.Encodes := by
  simp only [opTable, List.forall_mem_append]
  exact ⟨⟨⟨⟨opStack_encodes, opArith_encodes⟩, opLogic_encodes⟩, opFloat_encodes⟩, opControl_encodes⟩

theorem parcelsOf_decodeOp {c : Fin 72} {p : BitVec 16} {i : Instr} (hlo : 0xC000 ≤ p.toNat) (hhi : p.toNat < 0xD000)
    (h : decodeOp c p.toNat = some i) : parcelsOf i = some (c, [p]) := by
  obtain ⟨r, hr, hi⟩ := Option.bind_eq_some_iff.mp h
  have hop : r.op = bits p.toNat 4 8 := by simpa using List.find?_some hr
  dsimp only at hi
  split at hi
  next hok =>
    simp only [Bool.and_eq_true] at hok
    cases hi
    rw [opTable_encodes r (List.mem_of_find?_eq_some hr) c _ hok.1, hop, opParcel_modOf hlo hhi]
  · cases hi

/-! ### The short classes (R342-R346) -/

theorem parcelsOf_decodeBranch (c : Fin 72) {p : BitVec 16} (hlo : 0x8000 ≤ p.toNat) (hhi : p.toNat < 0xC000) :
    parcelsOf (decodeBranch c p.toNat) = some (c, [p]) := by
  unfold decodeBranch
  split <;> refine some_parcel_eq ?_ <;> simp only [bits, BitVec.toNat_ofNat, imp_false] at * <;> omega

theorem laneCode_cases (w : Lane) : laneCode w < 4 := by cases w <;> decide

theorem parcelsOf_decodeShort (c : Fin 72) {p : BitVec 16} (hlo : 0xD000 ≤ p.toNat) (hhi : p.toNat < 0xE000) :
    parcelsOf (decodeShort c p.toNat) = some (c, [p]) := by
  have hw : laneCode (laneOf (bits p.toNat 10 2)) = bits p.toNat 10 2 := laneCode_laneOf (Nat.mod_lt _ (by decide))
  unfold decodeShort
  split <;> refine some_parcel_eq ?_ <;> simp only [hw] <;> simp only [bits, bitAt, beq_iff_eq, beq_eq_false_iff_ne, BitVec.toNat_ofNat] at * <;> omega

theorem parcelsOf_decodeBit (c : Fin 72) {p : BitVec 16} (hlo : 0xE000 ≤ p.toNat) (hhi : p.toNat < 0xF000) :
    parcelsOf (decodeBit c p.toNat) = some (c, [p]) := by
  unfold decodeBit
  split <;> refine some_parcel_eq ?_ <;> simp only [bits, BitVec.toNat_ofNat, imp_false] at * <;> omega

/-! ### The long class (R337, R343, R344, R352-R357) -/

/-- The parcels of a value whose parcels they are. -/
theorem dataParcels_two (q : Nat → BitVec 16) : dataParcels 2 ((q 1).toNat + (q 2).toNat * 2 ^ 16) = [q 1, q 2] := by
  have h1 := (q 1).isLt
  have h2 := (q 2).isLt
  simp only [dataParcels, List.range_succ, List.range_zero, List.nil_append, List.cons_append, List.map_cons, List.map_nil]
  rw [ofNat_eq_parcel (p := q 1) (by omega), ofNat_eq_parcel (p := q 2) (by omega)]

theorem dataParcels_three (q : Nat → BitVec 16) :
    dataParcels 3 ((q 1).toNat + (q 2).toNat * 2 ^ 16 + (q 3).toNat * 2 ^ 32) = [q 1, q 2, q 3] := by
  have h1 := (q 1).isLt
  have h2 := (q 2).isLt
  have h3 := (q 3).isLt
  simp only [dataParcels, List.range_succ, List.range_zero, List.nil_append, List.cons_append, List.map_cons, List.map_nil]
  rw [ofNat_eq_parcel (p := q 1) (by omega), ofNat_eq_parcel (p := q 2) (by omega), ofNat_eq_parcel (p := q 3) (by omega)]

theorem dataParcels_four (q : Nat → BitVec 16) :
    dataParcels 4 ((q 1).toNat + (q 2).toNat * 2 ^ 16 + (q 3).toNat * 2 ^ 32 + (q 4).toNat * 2 ^ 48) = [q 1, q 2, q 3, q 4] := by
  have h1 := (q 1).isLt
  have h2 := (q 2).isLt
  have h3 := (q 3).isLt
  have h4 := (q 4).isLt
  simp only [dataParcels, List.range_succ, List.range_zero, List.nil_append, List.cons_append, List.map_cons, List.map_nil]
  rw [ofNat_eq_parcel (p := q 1) (by omega), ofNat_eq_parcel (p := q 2) (by omega), ofNat_eq_parcel (p := q 3) (by omega),
    ofNat_eq_parcel (p := q 4) (by omega)]

theorem parcelsOf_decodeLong (c : Fin 72) {p : BitVec 16} (q : BitVec 16) (hp : p.toNat / 256 = 0xF4) :
    parcelsOf (decodeLong c p.toNat q.toNat) = some (c, [p, q]) := by
  have hq := q.isLt
  have hlow : BitVec.ofNat 16 (BitVec.ofNat 22 (bits p.toNat 0 6 * 2 ^ 16 + q.toNat)).toNat = q := by
    refine ofNat_eq_parcel ?_
    simp only [bits, BitVec.toNat_ofNat]
    omega
  have hhigh {n : Nat} (h : (n + (BitVec.ofNat 22 (bits p.toNat 0 6 * 2 ^ 16 + q.toNat)).toNat / 2 ^ 16) % 2 ^ 16 = p.toNat) :
      some (c, [BitVec.ofNat 16 (n + (BitVec.ofNat 22 (bits p.toNat 0 6 * 2 ^ 16 + q.toNat)).toNat / 2 ^ 16),
        BitVec.ofNat 16 (BitVec.ofNat 22 (bits p.toNat 0 6 * 2 ^ 16 + q.toNat)).toNat]) = some (c, [p, q]) := by
    rw [ofNat_eq_parcel h, hlow]
  unfold decodeLong
  split <;> refine hhigh ?_ <;> simp only [bits, BitVec.toNat_ofNat, imp_false] at * <;> omega

theorem parcelsOf_decodeControl {c : Fin 72} {p : BitVec 16} {i : Instr} (hp : p.toNat / 256 = 0xFA)
    (h : decodeControl c (p.toNat % 256) = some i) : parcelsOf i = some (c, [p]) := by
  unfold decodeControl at h
  split at h
  case h_8 =>
    split at h
    · cases h
      refine some_parcel_eq ?_
      simp only [BitVec.toNat_ofNat]
      omega
    · cases h
  all_goals
    cases h
    refine congrArg (fun x => some (c, [x])) (BitVec.eq_of_toNat_eq ?_)
    simp only [BitVec.reduceToNat]
    omega

theorem bits_eight (p : BitVec 16) : bits p.toNat 8 8 = p.toNat / 256 := by
  have := p.isLt
  simp only [bits]
  omega

/-- A first parcel that is none of those that data parcels follow stands alone. -/
theorem parcelLen_one {p : BitVec 16} (h : p.toNat / 256 < 0xF0 ∨ 0xF5 ≤ p.toNat / 256) : parcelLen p = 1 := by
  rw [parcelLen, bits_eight]
  split <;> first | rfl | omega

theorem parcelLen_data {p : BitVec 16} : (p.toNat / 256 = 0xF0 → parcelLen p = 3) ∧ (p.toNat / 256 = 0xF1 → parcelLen p = 5)
    ∧ (p.toNat / 256 = 0xF2 → parcelLen p = 4) ∧ (p.toNat / 256 = 0xF3 → parcelLen p = 4) ∧ (p.toNat / 256 = 0xF4 → parcelLen p = 2) := by
  refine ⟨?_, ?_, ?_, ?_, ?_⟩ <;> exact fun h => by rw [parcelLen, bits_eight, h]; rfl

/-- The parcels of the long class, the first of them `q 0`. -/
theorem parcelsOf_decodeF {c : Fin 72} {q : Nat → BitVec 16} {i : Instr} (hp : 0xF000 ≤ (q 0).toNat)
    (h : decodeF c (q 0).toNat (fun j => (q j).toNat) = some i) :
    parcelsOf i = some (c, (List.range (parcelLen (q 0))).map q) := by
  have hlt := (q 0).isLt
  have h1 := (q 1).isLt
  have h2 := (q 2).isLt
  have h3 := (q 3).isLt
  have h4 := (q 4).isLt
  obtain ⟨l0, l1, l2, l3, l4⟩ := parcelLen_data (p := q 0)
  have hone (h : 0xF5 ≤ (q 0).toNat / 256) : (List.range (parcelLen (q 0))).map q = [q 0] := by rw [parcelLen_one (.inr h)]; rfl
  have hb : bits (q 0).toNat 8 4 = (q 0).toNat / 256 - 0xF0 := by simp only [bits]; omega
  unfold decodeF at h
  simp only [hb] at h
  split at h
  next hk =>
    split at h
    next hlow =>
      cases h
      have hhead : BitVec.ofNat 16 (0xF000 + b2n ((q 0).toNat % 256 == 1)) = q 0 := by
        refine ofNat_eq_parcel ?_
        by_cases h1 : (q 0).toNat % 256 = 1 <;> simp [b2n, h1] <;> omega
      have hv : (BitVec.ofNat 32 ((q 1).toNat + (q 2).toNat * 2 ^ 16)).toNat = (q 1).toNat + (q 2).toNat * 2 ^ 16 := by
        rw [BitVec.toNat_ofNat]; omega
      rw [l0 (by omega), parcelsOf, hhead, hv, dataParcels_two]
      rfl
    · cases h
  next hk =>
    split at h
    next hlow =>
      cases h
      have hhead : 0xF100 = q 0 := BitVec.eq_of_toNat_eq (by simp only [BitVec.reduceToNat]; omega)
      have hv : (BitVec.ofNat 64 ((q 1).toNat + (q 2).toNat * 2 ^ 16 + (q 3).toNat * 2 ^ 32 + (q 4).toNat * 2 ^ 48)).toNat
          = (q 1).toNat + (q 2).toNat * 2 ^ 16 + (q 3).toNat * 2 ^ 32 + (q 4).toNat * 2 ^ 48 := by
        rw [BitVec.toNat_ofNat]; omega
      rw [l1 (by omega), parcelsOf, hhead, hv, dataParcels_four]
      rfl
    · cases h
  next hk =>
    split at h
    next hlow =>
      cases h
      have hhead : 0xF200 = q 0 := BitVec.eq_of_toNat_eq (by simp only [BitVec.reduceToNat]; omega)
      have hv : (BitVec.ofNat 48 ((q 1).toNat + (q 2).toNat * 2 ^ 16 + (q 3).toNat * 2 ^ 32)).toNat
          = (q 1).toNat + (q 2).toNat * 2 ^ 16 + (q 3).toNat * 2 ^ 32 := by
        rw [BitVec.toNat_ofNat]; omega
      rw [l2 (by omega), parcelsOf, hhead, hv, dataParcels_three]
      rfl
    · cases h
  next hk =>
    split at h
    next hlow =>
      cases h
      have hhead : 0xF300 = q 0 := BitVec.eq_of_toNat_eq (by simp only [BitVec.reduceToNat]; omega)
      have hv : (BitVec.ofNat 48 ((q 1).toNat + (q 2).toNat * 2 ^ 16 + (q 3).toNat * 2 ^ 32)).toNat
          = (q 1).toNat + (q 2).toNat * 2 ^ 16 + (q 3).toNat * 2 ^ 32 := by
        rw [BitVec.toNat_ofNat]; omega
      rw [l3 (by omega), parcelsOf, hhead, hv, dataParcels_three]
      rfl
    · cases h
  next hk =>
    cases h
    rw [parcelsOf_decodeLong c (q 1) (by omega), l4 (by omega)]
    rfl
  next hk =>
    cases h
    rw [hone (by omega)]
    exact some_parcel_eq (by rw [BitVec.toNat_ofNat]; omega)
  next hk =>
    cases h
    rw [hone (by omega)]
    exact some_parcel_eq (by rw [BitVec.toNat_ofNat]; omega)
  next hk =>
    split at h
    next hmid =>
      cases h
      simp only [bits] at hmid
      rw [hone (by omega)]
      split
      all_goals
        refine some_parcel_eq ?_
        simp only [bitAt, beq_iff_eq, BitVec.toNat_ofNat] at *
        omega
    · cases h
  next hk =>
    rw [hone (by omega)]
    exact parcelsOf_decodeControl (by omega) h
  · cases h
  · cases h
  · cases h
  next =>
    simp only [imp_false] at *
    cases h
    rw [hone (by omega)]
    refine some_parcel_eq ?_
    simp only [bits, BitVec.toNat_ofNat]
    omega

/-! ### All parcels -/

/-- A sequence of as many parcels as its first one asks for, encoded again. -/
theorem parcelsOf_decodeParcels {c : Fin 72} {ps : List (BitVec 16)} {i : Instr} (hlen : ps.length = parcelLen (ps.headD 0))
    (h : decodeParcels c ps = some i) : parcelsOf i = some (c, ps) := by
  have hpos : ps ≠ [] := by
    rintro rfl
    exact absurd hlen (by decide)
  have hhead : ps.headD 0 = ps.getD 0 0 := by cases ps <;> rfl
  have hps : (List.range (parcelLen (ps.getD 0 0))).map (fun j => ps.getD j 0) = ps := by
    rw [← hhead, ← hlen]
    refine List.ext_getElem (by simp) fun j h1 h2 => ?_
    simp [List.getD_eq_getElem?_getD, h2]
  have hone (h : (ps.getD 0 0).toNat < 0xF000) : [ps.getD 0 0] = ps := by
    rw [parcelLen_one (.inl (by omega))] at hps
    exact hps
  unfold decodeParcels at h
  dsimp only at h
  split at h
  next hlo =>
    cases h
    rw [← hone (by omega)]
    refine congrArg (fun p => some (c, [p])) (BitVec.eq_of_toNat_eq ?_)
    rw [BitVec.zeroExtend_eq_setWidth, BitVec.toNat_setWidth, BitVec.toNat_ofNat, List.getD_cons_zero]
    omega
  · split at h
    next hlo hhi =>
      cases h
      rw [parcelsOf_decodeBranch c (by omega) hhi, hone (by omega)]
    · split at h
      next hlo hhi =>
        rw [parcelsOf_decodeOp (by omega) hhi h, hone (by omega)]
      · split at h
        next hlo hhi =>
          cases h
          rw [parcelsOf_decodeShort c (by omega) hhi, hone (by omega)]
        · split at h
          next hlo hhi =>
            cases h
            rw [parcelsOf_decodeBit c (by omega) hhi, hone (by omega)]
          next hlo =>
            rw [parcelsOf_decodeF (q := fun j => ps.getD j 0) (by omega) h, hps]

/-- Whether an operate parcel is reserved does not depend on the core. -/
theorem decodeOp_isSome (c d : Fin 72) (p : Nat) : (decodeOp c p).isSome = (decodeOp d p).isSome := by
  unfold decodeOp
  cases opTable.find? (·.op == bits p 4 8) with
  | none => rfl
  | some r =>
    simp only [Option.bind_some]
    split <;> rfl

theorem decodeControl_isSome (c d : Fin 72) (n : Nat) : (decodeControl c n).isSome = (decodeControl d n).isSome := by
  unfold decodeControl
  split
  case h_8 => split <;> rfl
  all_goals rfl

/-- Nor, of the long class, on the parcels that follow. -/
theorem decodeF_isSome (c d : Fin 72) (p : Nat) (q r : Nat → Nat) : (decodeF c p q).isSome = (decodeF d p r).isSome := by
  unfold decodeF
  dsimp only
  split
  case h_9 => exact decodeControl_isSome ..
  all_goals first | rfl | (split <;> rfl)

theorem decodeParcels_isSome (c d : Fin 72) {ps qs : List (BitVec 16)} (h : ps.getD 0 0 = qs.getD 0 0) :
    (decodeParcels c ps).isSome = (decodeParcels d qs).isSome := by
  simp only [decodeParcels, h]
  split
  · rfl
  · split
    · rfl
    · split
      · exact decodeOp_isSome ..
      · split
        · rfl
        · split
          · rfl
          · exact decodeF_isSome ..

/-- What follows a reserved first parcel does not matter. -/
theorem decodeParcels_of_reserved (c : Fin 72) {ps : List (BitVec 16)} (h : parcelReserved (ps.headD 0) = true) :
    decodeParcels c ps = none := by
  have hhead : [ps.headD 0].getD 0 0 = ps.getD 0 0 := by cases ps <;> rfl
  rw [parcelReserved, ← Option.not_isSome, decodeParcels_isSome 0 c hhead] at h
  simpa using h

end Sys2Proof.Machine
end

section
/-!
SYS, RTI, WAIT, SUBMIT, FENCE, CUSTOM, NOP and TRAP (R323, R325, R337, R352-R357).
-/

namespace Sys2Proof.Machine

open Sys2Proof.Laws

section
variable {s : State} {c : Fin 72} {cyc : Nat} {x y z : Ctx}

theorem State.Begun.sys_eq (h : s.Begun c x) : x.k.sys = s.cores[c].sys := h.core Core.sys fun _ _ _ _ => rfl

/-! ### Instructions that sleep, and instructions with memory errors counted -/

theorem State.insn_of_hold {len : Nat} {body : Body} {w : Nat × Nat} (h : s.fetchedOn c len cyc x) (hb : body x = .ok y) (hh : y.hold = some w)
    (he : y.eccs = 0) : s.insn c len cyc body = y.s.setCore c
      { y.k with pc := s.cores[c].pc, state := .waiting, wait := some w, since := y.s.time, cycle := y.k.cycle + BitVec.ofNat 64 (y.cost - cyc) } := by
  obtain ⟨hrun, -, z, hz, rfl⟩ := h
  simp only [State.insn, hrun, hz, hb, hh, he, ne_eq, not_true_eq_false, if_false] <;> rfl

theorem State.insn_of_done {len : Nat} {body : Body} (h : s.fetchedOn c len cyc x) (hb : body x = .ok y) (hl : y.late = none)
    (hh : y.hold = none) : s.insn c len cyc body = y.eccs.repeat (·.eccTrapped c) (y.retire c) := by
  obtain ⟨hrun, -, z, hz, rfl⟩ := h
  simp only [State.insn, hrun, hz, hb, hl, hh, ne_eq, not_true_eq_false, if_false]

/-! ### SYS -/

theorem State.fetchedOn.sysRead {n : BitVec 4} {v : Word} (h : s.fetchedOn c 1 1 x) (hy : x.needD 0 1 = .ok y)
    (hv : sysValue y.k n.toNat = some v) (hp : s.cores[c].sys = true ∨ n.toNat < 9 ∨ 11 < n.toNat) :
    ∃ t : State, exec (.sysRead c n) s = .next t ∧ s.gave t c y 0 [v] (s.cores[c].pc + 2) := by
  have hmay : ¬ (¬ x.k.sys ∧ 9 ≤ n.toNat ∧ n.toNat ≤ 11) := by
    rw [State.Begun.sys_eq h.begun]
    rintro ⟨hs, h9, h11⟩
    rcases hp with hp | hp | hp
    · exact hs hp
    · omega
    · omega
  have hknown : sysValue x.k n.toNat ≠ none := by
    intro hnone
    have hn : n.toNat < 16 := n.isLt
    revert hv hnone
    generalize n.toNat = i
    unfold sysValue
    split <;> simp
  obtain ⟨w, hw⟩ := Option.ne_none_iff_exists'.mp hknown
  refine ⟨_, rfl, h.gives (h.needD_moved hy) ?_⟩
  simp only [hw, hmay, if_false, Ctx.operate_of_needD hy, hv, Option.getD_some]

theorem State.fetchedOn.sysWrite {n : BitVec 4} {k : Core} (h : s.fetchedOn c 1 (if n = 1 ∨ n = 2 then 2 else 1) x) (hy : x.needD 1 0 = .ok y)
    (h0 : n ≠ 0) (h13 : n.toNat < 13) (hp : s.cores[c].sys = true ∨ n = 3 ∨ n = 8)
    (hk : sysStore (y.rep 1 []).k n.toNat (y.top 0).toNat = some k) :
    ∃ t : State, exec (.sysWrite c n) s = .next t ∧ t.cores[c] = { k with cycle := k.cycle + BitVec.ofNat 64 y.cost, insns := k.insns + 1 }
      ∧ t.mem = s.mem ∧ ∀ d : Fin 72, d ≠ c → t.cores[d] = s.cores[d] := by
  have hmay : ¬ (¬ x.k.sys ∧ n ≠ 3 ∧ n ≠ 8) := by
    rw [State.Begun.sys_eq h.begun]
    rintro ⟨hs, h3, h8⟩
    rcases hp with hp | hp | hp
    · exact hs hp
    · exact h3 hp
    · exact h8 hp
  have hw := h.begun.working.needD hy
  have hbad : ¬ (n = 0 ∨ 13 ≤ n.toNat) := fun hbad => hbad.elim h0 (by omega)
  refine ⟨_, congrArg Host.Outcome.next (State.insn_of_ok (y := { y.rep 1 [] with k := k }) h ?_ hw.late hw.hold hw.eccs), ?_, ?_, ?_⟩
  · simp only [hbad, hmay, if_false, hy, hk]
  · exact Ctx.retire_core ..
  · exact (keeps_mem (Ctx.retire_frame ..) rfl).trans (keeps_mem hw.state rfl)
  · intro d hd
    rw [Ctx.retire_core_other _ hd]
    exact congrArg (fun v : Vector Core 72 => v[d]) (keeps_cores hw.state rfl)

/-! ### RTI, NOP and TRAP -/

theorem State.fetchedOn.nop (h : s.fetchedOn c 1 1 x) : ∃ t : State, exec (.nop c) s = .next t ∧ s.gave t c x 0 [] (s.cores[c].pc + 2) :=
  ⟨_, rfl, h.gives (y := x) rfl rfl⟩

theorem status_withMode (k : Core) (sys trap : Bool) :
    (k.withMode sys trap).sys = sys ∧ (k.withMode sys trap).inTrap = trap
      ∧ ∀ i, 2 ≤ i → (k.withMode sys trap).status.getLsbD i = k.status.getLsbD i := by
  have hbit (i : Nat) : (k.withMode sys trap).status.getLsbD i = (decide (i < 64) && if i = 1 then trap else if i = 0 then sys
      else k.status.getLsbD i) := by
    simp only [Core.withMode, BitVec.getLsbD, BitVec.toNat_ofNat, Nat.testBit_mod_two_pow, testBit_setBit]
  refine ⟨?_, ?_, fun i hi => ?_⟩
  · rw [Core.sys, hbit]
    simp
  · rw [Core.inTrap, hbit]
    simp
  · rw [hbit, if_neg (by omega), if_neg (by omega)]
    by_cases h64 : i < 64
    · simp [h64]
    · simp [h64, BitVec.getLsbD_of_ge k.status i (by omega)]

theorem State.fetchedOn.rti (h : s.fetchedOn c 1 6 x) (hs : s.cores[c].sys = true) : ∃ t : State, exec (.rti c) s = .next t
    ∧ t.cores[c].pc = s.cores[c].trappc ∧ t.cores[c].sys = s.cores[c].trapcause.getLsbD 8 ∧ t.cores[c].inTrap = false
    ∧ t.cores[c].ds = s.cores[c].ds ∧ t.cores[c].rs = s.cores[c].rs ∧ t.mem = s.mem
    ∧ ∀ i, 2 ≤ i → t.cores[c].status.getLsbD i = s.cores[c].status.getLsbD i := by
  have hb := h.begun
  have hw := hb.working
  have hxs : x.k.sys = true := (State.Begun.sys_eq hb).trans hs
  have htp : x.k.trappc = s.cores[c].trappc := hb.core Core.trappc fun _ _ _ _ => rfl
  have htc : x.k.trapcause = s.cores[c].trapcause := hb.core Core.trapcause fun _ _ _ _ => rfl
  have hst : x.k.status = s.cores[c].status := hb.core Core.status fun _ _ _ _ => rfl
  obtain ⟨hds, hrs, -⟩ := hb.entries
  obtain ⟨hsys, htrap, hrest⟩ := status_withMode x.k (x.k.trapcause.getLsbD 8) false
  refine ⟨_, congrArg Host.Outcome.next (State.insn_of_ok (y := { x with k :=
    { x.k.withMode (x.k.trapcause.getLsbD 8) false with pc := x.k.trappc } }) h (if_pos hxs) hw.late hw.hold hw.eccs), ?_⟩
  have hcore := Ctx.retire_core { x with k := { x.k.withMode (x.k.trapcause.getLsbD 8) false with pc := x.k.trappc } } c
  refine ⟨?_, ?_, ?_, ?_, ?_, (keeps_mem (Ctx.retire_frame ..) rfl).trans (keeps_mem hw.state rfl), fun i hi => ?_⟩ <;> rw [hcore]
  · exact htp
  · exact hsys.trans (congrArg (fun v : BitVec 64 => v.getLsbD 8) htc)
  · exact htrap
  · exact hds
  · exact hrs
  · exact (hrest i hi).trans (congrArg (fun v : BitVec 64 => v.getLsbD i) hst)

theorem State.fetchedOn.trap (h : s.fetchedOn c 1 1 x) (n : BitVec 8) :
    exec (.trap c n) s = .next (s.trapped c s.cores[c] ⟨0x13, n.toNat, false, false⟩ (s.cores[c].pc + 2)) := by
  obtain ⟨hrun, -, z, hz, rfl⟩ := h
  change Host.Outcome.next (s.insn c 1 1 fun _ => .error ⟨0x13, n.toNat, false, false⟩) = _
  simp only [State.insn, hrun, hz, ne_eq, not_true_eq_false, if_false, if_true]
  rfl

theorem State.fetchedOn.illegal {p : BitVec 16} (hp : parcelReserved p = true) (h : s.fetchedOn c (parcelLen p) 1 x) :
    exec (.illegalEncoding ⟨c, p⟩) s = .next (s.trapped c s.cores[c] ⟨0x03, 0, false, false⟩ s.cores[c].pc) := by
  change Host.Outcome.next (if parcelReserved p then _ else s) = _
  rw [if_pos hp]
  exact congrArg Host.Outcome.next (State.insn_of_trap h rfl (by decide : 0x03 ≠ 0x13))

/-! ### WAIT -/

theorem Ctx.bitAddr_of_named {p : BitPlace} {a : Nat} (hp : y.s.bitPlace y.k.tag a = p) (hne : p ≠ .none) : y.bitAddr a = .ok p := by
  rw [Ctx.bitAddr, hp]
  cases p with
  | none => exact absurd rfl hne
  | core n => rfl
  | common n => rfl

theorem Ctx.meetBit_of_unbroken (hu : y.k.upsets = []) (p : BitPlace) : y.meetBit p = .ok y := by
  cases p with
  | core n => exact Ctx.readLocal_of_clean hu _ _
  | common n => rfl
  | none => rfl

theorem State.fetchedOn.wait {p : BitPlace} (h : s.fetchedOn c 1 2 x) (hy : x.needD 2 1 = .ok y)
    (hp : y.s.bitPlace y.k.tag (y.top 1).toNat = p) (hne : p ≠ .none) :
    (y.getBit p = true → ∃ t : State, exec (.wait c) s = .next t ∧ s.gave t c y 2 [1] (s.cores[c].pc + 2))
    ∧ (y.getBit p = false → ∃ t : State, exec (.wait c) s = .next t ∧ t.cores[c].state = .waiting ∧ t.cores[c].pc = s.cores[c].pc
        ∧ t.cores[c].ds = y.k.ds ∧ t.cores[c].wait = some ((y.top 1).toNat, (y.top 0).toNat)) := by
  have hw := h.begun.working.needD hy
  refine ⟨fun hbit => ⟨_, rfl, h.gives (h.needD_moved hy) ?_⟩, fun hbit => ?_⟩
  · simp only [hy, Ctx.bitAddr_of_named hp hne, Ctx.meetBit_of_unbroken hw.upsets, hbit, if_true]
  · refine ⟨_, congrArg Host.Outcome.next (State.insn_of_hold (y := { y with hold := some ((y.top 1).toNat, (y.top 0).toNat) }) h ?_ rfl hw.eccs), ?_⟩
    · simp only [hy, Ctx.bitAddr_of_named hp hne, Ctx.meetBit_of_unbroken hw.upsets, hbit, Bool.false_eq_true, if_false]
    · simp [State.setCore]

/-- The bit that a sleeping WAIT awaits, or its limit, ends it (R325). -/
theorem exec_waitWake {a n : Nat} (hs : s.cores[c].state = .waiting) (hw : s.cores[c].wait = some (a, n)) (hb : s.awaited c a = true) :
    exec (.waitWake c) s = .next (s.setCore c (s.cores[c].endWait 1 s.time)) := by
  change execWaitWake c s = _
  simp only [execWaitWake, hs, hw, hb, if_true]

theorem exec_waitTimeout {a n : Nat} (hs : s.cores[c].state = .waiting) (hw : s.cores[c].wait = some (a, n)) :
    exec (.waitTimeout c) s = if n = 0 ∨ s.awaited c a then .next s
      else .next ({ s with time := max s.time (waitDeadline s.cores[c] n) }.setCore c
        (s.cores[c].endWait 0 (max s.time (waitDeadline s.cores[c] n)))) := by
  change execWaitTimeout c s = _
  simp only [execWaitTimeout, hs, hw]

theorem le_waitDeadline (k : Core) (n : Nat) : k.since * 24 + n * 10 ≤ waitDeadline k n * 24 := by
  rw [waitDeadline, ceilDiv]
  omega

theorem State.waitsFor {a n : Nat} (hs : s.cores[c].state = .waiting) (hw : s.cores[c].wait = some (a, n)) :
    (s.awaited c a = true → ∃ t : State, exec (.waitWake c) s = .next t ∧ t.cores[c].state = .running
      ∧ t.cores[c].ds = 1 :: s.cores[c].ds.drop 2 ∧ t.cores[c].pc = s.cores[c].pc + 2 ∧ t.cores[c].wait = none)
    ∧ (s.awaited c a = false → n ≠ 0 → ∃ t : State, exec (.waitTimeout c) s = .next t ∧ t.cores[c].state = .running
      ∧ t.cores[c].ds = 0 :: s.cores[c].ds.drop 2 ∧ t.cores[c].pc = s.cores[c].pc + 2 ∧ s.time ≤ t.time
      ∧ s.cores[c].since * 24 + n * 10 ≤ t.time * 24)
    ∧ (n = 0 → exec (.waitTimeout c) s = .next s) := by
  refine ⟨fun hb => ⟨_, exec_waitWake hs hw hb, ?_⟩, fun hb hn => ⟨_, (exec_waitTimeout hs hw).trans (if_neg (by simp [hb, hn])), ?_⟩,
    fun hn => (exec_waitTimeout hs hw).trans (if_pos (.inl hn))⟩
  · simp [State.setCore, Core.endWait]
  · have hd := le_waitDeadline s.cores[c] n
    simp only [State.setCore, Core.endWait, Fin.getElem_fin, Vector.getElem_set_self, true_and]
    exact ⟨le_max_left .., hd.trans (Nat.mul_le_mul_right _ (le_max_right ..))⟩

/-! ### SUBMIT, FENCE and CUSTOM -/

/-- A context whose dirty lines have been written back. -/
def Ctx.written (x : Ctx) : Ctx :=
  { x with s := { x.s with mem := x.k.dcache.foldl writeLine x.s.mem },
           k := { x.k with dcache := x.k.dcache.map fun l => { l with dirty := false } } }

theorem Ctx.writeBack_of_clean (hu : x.k.upsets = []) : x.writeBack = .ok x.written := by
  have hnone (p : CoreMem) : x.k.broken p = false := by simp [Core.broken, hu]
  have hany : (((x.k.dcache.filter (·.dirty)).map fun l => CoreMem.dline l.tgt l.line).any x.k.broken) = false := by
    simp [hnone]
  simp only [Ctx.writeBack, hany, hu, Bool.false_eq_true, if_false, if_true, Ctx.written]

theorem foldl_writeLine_of_clean (m : MemSt) {ls : List DLine} (h : ∀ l ∈ ls, l.dirty = false) : ls.foldl writeLine m = m := by
  induction ls with
  | nil => rfl
  | cons l ls ih =>
    rw [List.foldl_cons, writeLine, h l List.mem_cons_self]
    exact ih fun l' hl => h l' (List.mem_cons_of_mem _ hl)

/-- Writing back twice writes once. -/
theorem Ctx.written_written_mem (x : Ctx) : x.written.written.s.mem = x.written.s.mem :=
  foldl_writeLine_of_clean _ fun l hl => by
    obtain ⟨l', -, rfl⟩ := List.mem_map.mp hl
    rfl

theorem Ctx.descriptor_of_local {a : Nat} (hu : y.k.upsets = []) (hal : a % 64 = 0) (ha : a < 0x20000) :
    y.descriptor a = .ok (y, memReadN y.k.mem a 64) := by
  have hloc : y.locate a 64 .r false = .ok (y, none) := by
    rw [Ctx.locate, if_neg (not_not.mpr hal), if_neg (by omega), if_pos ha]
  simp only [Ctx.descriptor, hloc, Ctx.readLocal_of_clean hu]

/-- What an instruction reads of the engines and jobs of a state, free values and memories aside. -/
theorem Ctx.written_jobs (hw : s.Working c y) (e f : Nat) (src : JobSrc) : y.written.s.isResetting f = s.isResetting f
    ∧ y.written.s.engineLive e = s.engineLive e ∧ y.written.s.queued src e = s.queued src e ∧ y.written.s.jobs = s.jobs := by
  refine ⟨?_, ?_, ?_, (keeps_jobs hw.state rfl : y.s.jobs = s.jobs)⟩
  · exact (congrArg (State.isResetting · f) hw.state : (forget (2 ^ 2) y.s).isResetting f = (forget (2 ^ 2) s).isResetting f)
  · exact (congrArg (State.engineLive · e) hw.state : (forget (2 ^ 2) y.s).engineLive e = (forget (2 ^ 2) s).engineLive e)
  · exact (congrArg (State.queued · src e) hw.state : (forget (2 ^ 2) y.s).queued src e = (forget (2 ^ 2) s).queued src e)

/-- What SUBMIT leaves when it queues a job: dirty lines written back, both inputs replaced by 0. -/
def Ctx.submitted (y : Ctx) (j : Job) : Ctx :=
  ({ y.written with s := y.written.s.submitJob j.src j.engine j.func j.desc j.done j.cmd } : Ctx).rep 2 [0]

theorem State.fetchedOn.submit {eng : Nat} (h : s.fetchedOn c 1 12 x) (hy : x.needD 2 1 = .ok y) (heng : eng = bits (y.top 0).toNat 0 4)
    (hres : submitReserved (y.top 0).toNat = false) (hown : bitAt (y.top 0).toNat 35 = false) (he : eng < 4) (hal : (y.top 1).toNat % 64 = 0)
    (ha : (y.top 1).toNat < 0x20000) (hr : s.isResetting s.cores[c].func.toNat = false) (hl : s.engineLive eng = true)
    (hq : (s.queued (.cluster ⟨c.val / 8, by omega⟩) eng).length < 64) :
    ∃ (t : State) (j : Job), exec (.submit c) s = .next t ∧ t.cores[c].ds = 0 :: y.k.ds.drop 2 ∧ t.jobs.queue = s.jobs.queue ++ [j]
      ∧ j.engine = eng ∧ j.func = s.cores[c].func.toNat ∧ j.desc = memReadN y.k.mem (y.top 1).toNat 64 ∧ t.cores[c].pc = s.cores[c].pc + 2 := by
  have hw := h.begun.working.needD hy
  subst heng
  have hkeyeng : bits (y.top 0).toNat 0 4 ≠ 4 := by omega
  have hfunc : y.written.k.func = s.cores[c].func := (congrArg Core.func hw.fixed : y.k.fixed.func = s.cores[c].fixed.func)
  obtain ⟨hjr, hje, hjq, hjobs⟩ := Ctx.written_jobs hw (bits (y.top 0).toNat 0 4) s.cores[c].func.toNat (.cluster ⟨c.val / 8, by omega⟩)
  have hfull : ¬ 64 ≤ (s.queued (.cluster ⟨c.val / 8, by omega⟩) (bits (y.top 0).toNat 0 4)).length := by omega
  let j : Job := ⟨s.jobs.next, .cluster ⟨c.val / 8, by omega⟩, bits (y.top 0).toNat 0 4, s.cores[c].func.toNat, memReadN y.k.mem (y.top 1).toNat 64,
    if bitAt (y.top 0).toNat 4 then some (bits (y.top 0).toNat 5 21, y.k.tag, c.val) else none, none⟩
  have hq := keeps_jobs (Ctx.retire_frame (y.submitted j) c) rfl
  refine ⟨_, j, congrArg Host.Outcome.next (State.insn_of_ok (y := y.submitted j) h ?_ hw.late hw.hold hw.eccs), ?_⟩
  · simp only [hy, hres, hkeyeng, and_false, or_self, Ctx.descriptor_of_local hw.upsets hal ha, Ctx.writeBack_of_clean hw.upsets, hown, hfunc, hjr, hje, hjq, hr, hl,
      hfull, Bool.false_eq_true, if_false, Bool.not_true, if_true] <;> rfl
  rw [Ctx.retire_core, hq]
  refine ⟨rfl, ?_, rfl, rfl, rfl, ?_⟩
  · exact congrArg (fun q : JobsSt => q.queue ++ [⟨q.next, j.src, j.engine, j.func, j.desc, j.done, j.cmd⟩]) hjobs
  · have hpc : y.k.pc = x.k.pc := by rw [Ctx.needD_moved h.begun.upsets hy]
    exact hpc.trans h.pc

/-- A stage of FENCE: where it is asked for, `n` cycles and the dirty lines written back. -/
def Ctx.drained (x : Ctx) (b : Bool) (n : Nat) : Ctx := if b then (x.spend n).written else x

theorem Ctx.drained_of_clean (hu : x.k.upsets = []) (b : Bool) (n : Nat) :
    (if b then (x.spend n).writeBack else .ok x) = .ok (x.drained b n) ∧ (x.drained b n).k.upsets = [] := by
  cases b with
  | false => exact ⟨rfl, hu⟩
  | true => exact ⟨Ctx.writeBack_of_clean (x := x.spend n) hu, hu⟩

/-- What FENCE leaves on its options. -/
def Ctx.fenced (x : Ctx) (o : BitVec 4) : Ctx :=
  let a := x.drained (o.getLsbD 0) (8 * x.k.dirtyLines)
  let y := a.drained (o.getLsbD 1) (512 + 8 * a.k.dirtyLines)
  let b := if o.getLsbD 1 then { y with k := { y.k with dcache := [] } } else y
  if o.getLsbD 2 then { b.spend 1024 with k := { b.k with icache := [] } } else b

theorem Ctx.fenced_spec (x : Ctx) (o : BitVec 4) : (x.fenced o).late = x.late ∧ (x.fenced o).hold = x.hold ∧ (x.fenced o).eccs = x.eccs
    ∧ (x.fenced o).k.ds = x.k.ds ∧ (x.fenced o).k.pc = x.k.pc
    ∧ ((o.getLsbD 0 || o.getLsbD 1) = true → (x.fenced o).s.mem = x.k.dcache.foldl writeLine x.s.mem)
    ∧ ((o.getLsbD 0 || o.getLsbD 1) = false → (x.fenced o).s.mem = x.s.mem ∧ (x.fenced o).k.dcache = x.k.dcache)
    ∧ (o.getLsbD 1 = true → (x.fenced o).k.dcache = []) := by
  have htwice := Ctx.written_written_mem x
  simp only [Ctx.written] at htwice
  cases h0 : o.getLsbD 0 <;> cases h1 : o.getLsbD 1 <;> cases h2 : o.getLsbD 2 <;>
    simp only [Ctx.fenced, Ctx.drained, h0, h1, h2, if_true, if_false, Bool.or_false, Bool.or_true, Bool.false_eq_true, Bool.true_eq_false] <;>
    simp [Ctx.spend, Ctx.written, htwice]

theorem State.fetchedOn.fence {o : BitVec 4} (h : s.fetchedOn c 1 4 x) (ho : o ≠ 0) :
    ∃ t : State, exec (.fence c o) s = .next t ∧ t.cores[c].ds = s.cores[c].ds ∧ t.cores[c].pc = s.cores[c].pc + 2
      ∧ ((o.getLsbD 0 || o.getLsbD 1) = true → t.mem = s.cores[c].dcache.foldl writeLine s.mem)
      ∧ ((o.getLsbD 0 || o.getLsbD 1) = false → t.mem = s.mem ∧ t.cores[c].dcache = s.cores[c].dcache)
      ∧ (o.getLsbD 1 = true → t.cores[c].dcache = []) := by
  have hw := h.begun.working
  obtain ⟨hxds, -, -⟩ := h.begun.entries
  have hdc : x.k.dcache = s.cores[c].dcache := (congrArg Core.dcache hw.fixed : x.k.fixed.dcache = s.cores[c].fixed.dcache)
  have hmem : x.s.mem = s.mem := keeps_mem hw.state rfl
  obtain ⟨hl, hh, he, hds, hpc, hwrote, hkept, hdropped⟩ := x.fenced_spec o
  obtain ⟨hbody0, hu⟩ := Ctx.drained_of_clean hw.upsets (o.getLsbD 0) (8 * x.k.dirtyLines)
  have hbody1 := (Ctx.drained_of_clean hu (o.getLsbD 1) (512 + 8 * (x.drained (o.getLsbD 0) (8 * x.k.dirtyLines)).k.dirtyLines)).1
  refine ⟨_, congrArg Host.Outcome.next (State.insn_of_ok (y := x.fenced o) h ?_ (hl.trans hw.late) (hh.trans hw.hold) (he.trans hw.eccs)), ?_⟩
  · simp only [ho, if_false, hbody0, hbody1] <;> rfl
  rw [Ctx.retire_core, keeps_mem (Ctx.retire_frame ..) rfl, ← hdc, ← hmem]
  exact ⟨hds.trans hxds, hpc.trans h.pc, hwrote, hkept, hdropped⟩

theorem State.fetchedOn.custom {e : BitVec 6} {i : BitVec 4} {m : Micro} {v : Nat} (h : s.fetchedOn c 1 2 x)
    (hv : v = (s.cluster (c.val / 8)).entry e.toNat) (hvalid : entValid v = true) (hsys : entSys v = false ∨ s.cores[c].sys = true)
    (hy : x.needD (entIn v) (entOut v) = .ok y)
    (hm : microRun (s.cluster (c.val / 8)).store (entOut v) 256 (microStart y (entIn v) i) (entStart v) = .done m) (hl : m.x.late = none)
    (hh : m.x.hold = none) :
    exec (.custom c e i) s = .next (m.x.eccs.repeat (·.eccTrapped c)
      (({ m.x.rep (entIn v) ((m.o.take (entOut v)).map (·.getD 0)) with cost := y.cost + m.cyc } : Ctx).retire c)) := by
  have hb := h.begun
  have hcl : x.s.cluster (x.c / 8) = s.cluster (c.val / 8) := by
    rw [show x.c = c.val by rw [hb.eq]]
    exact (congrArg (State.cluster · (c.val / 8)) hb.state : (forget (2 ^ 2) x.s).cluster _ = (forget (2 ^ 2) s).cluster _)
  have hrun : (!entValid v || (entSys v && !x.k.sys)) = false := by
    rw [hb.sys_eq, hvalid]
    rcases hsys with hs | hs <;> rw [hs]
    · rfl
    · simp
  subst hv
  have hbody : customBody e i x = .ok { m.x.rep (entIn ((s.cluster (c.val / 8)).entry e.toNat))
      ((m.o.take (entOut ((s.cluster (c.val / 8)).entry e.toNat))).map (·.getD 0)) with cost := y.cost + m.cyc } := by
    rw [customBody]
    simp only [hcl, hrun, hy, hm, Bool.false_eq_true, if_false]
  change Host.Outcome.next (s.insn c 1 2 (customBody e i)) = _
  rw [State.insn_of_done h hbody hl hh]
  rfl

end

/-- Settles O29: instruction by instruction; the decoder's part by `parcelsOf_decodeParcels`. -/
theorem systemInstructions : Obligations.SystemInstructions := by
  unfold Obligations.SystemInstructions
  refine ⟨fun s c n x y v h hy hv hp => h.sysRead hy hv hp, fun s c n x y k h hy h0 h13 hp hk => h.sysWrite hy h0 h13 hp hk, fun s c x h => h.nop,
    fun s c x h hs => h.rti hs, fun s c x y p h hy hp hne => h.wait hy hp hne, fun s c a n hs hw => State.waitsFor hs hw,
    fun s c x y eng h hy heng hres hown he hal ha hr hl hq => h.submit hy heng hres hown he hal ha hr hl hq, fun s c o x h ho => h.fence ho,
    fun s c e i x y m v h hv hvalid hsys hy hm hl hh => h.custom hv hvalid hsys hy hm hl hh, fun s c n x h => h.trap n,
    fun s c p x hp h => h.illegal hp, ?_, ?_⟩
  · exact fun c ps i hlen h => parcelsOf_decodeParcels hlen h
  · exact fun c ps _ h => decodeParcels_of_reserved c h
end Sys2Proof.Machine
end

section
/-!
Trap entry, the double trap and the halted core (R315, R316).
-/

namespace Sys2Proof.Machine

open Sys2Proof.Laws

section
variable (s : State) (c : Fin 72)

@[simp] theorem State.setCore_core (k : Core) : (s.setCore c k).cores[c] = k := by simp [State.setCore]

theorem State.xlateFault_get_of_page {x : Fld} (h : (x.page == 0xB2) = false) (func va unit : Nat) (wr fetch engine : Bool) :
    (s.xlateFault func va unit wr fetch engine).get x = s.get x := by
  have hp : x.page ≠ 0xB2 := by simpa using h
  rw [State.xlateFault, apply_ite (State.get · x)]
  refine ite_eq_left_iff.mpr fun _ => ?_
  rw [State.record_get_of_page _ hp, State.pulse_get_of_page _ hp, State.get_bump_of_page _ _ h]
  simp only [State.putBit]
  rw [State.get_put_of_page _ _ h, State.get_put_of_page _ _ h, State.get_put_of_page _ _ h, State.get_put_of_page _ _ h,
    State.get_put_of_page _ _ h]

theorem corePage_ne_XLATE : (corePage c.val == 0xB2) = false := by
  simp only [corePage, beq_eq_false_iff_ne]
  omega

theorem State.core_of_cores {s t : State} (c : Fin 72) (h : t.cores = s.cores) : t.cores[c] = s.cores[c] := by rw [h]

/-- A trap while STATUS.TRAP is 1 halts the core and is recorded in its page (R316). -/
theorem State.trapCore_of_inTrap (k : Core) (tr : Trap) (pc : BitVec 48) (h : k.inTrap = true) :
    (s.trapCore c k tr pc).cores[c].state = .halted
      ∧ (s.trapCore c k tr pc).bit (H.VALID (corePage c)) = true
      ∧ (s.get (H.VALID (corePage c)) = 0 → (s.trapCore c k tr pc).get (H.CODE (corePage c)) = 0x5811) := by
  simp only [State.trapCore, h, if_true]
  refine ⟨?_, State.record_bit_VALID .., fun hv => State.record_get_CODE ?_ ..⟩
  · exact congrArg Core.state ((State.core_of_cores c ((State.record_cores ..).trans (State.pulse_cores ..))).trans (State.setCore_core ..))
  · rw [State.pulse_get_of_place _ _ _ rfl rfl]
    change State.get (if _ then _ else s) _ = 0
    split
    · exact (s.xlateFault_get_of_page (corePage_ne_XLATE c) ..).trans hv
    · exact hv

/-- A trap otherwise, on a core without a program, is delivered on the core itself (R315). -/
theorem State.trapCore_of_outside (k : Core) (tr : Trap) (pc : BitVec 48) (h : k.inTrap = false) (hprog : k.prog = none) :
    (s.trapCore c k tr pc).cores[c] =
      { ({ k with lastCause := BitVec.ofNat 64 (tr.pack k.sys), lastTrapPc := pc, traps := sat32 (k.traps + 1) } : Core).withMode true true with
        trappc := pc, trapcause := BitVec.ofNat 64 (tr.pack k.sys), pc := k.trapvec, cycle := k.cycle + 6 } := by
  simp only [State.trapCore, h, Bool.false_eq_true, if_false, Core.withMode, hprog, State.setCore_core]

theorem Trap.pack_fields (t : Trap) (sys : Bool) (hc : t.cause < 256) (hd : t.detail < 2 ^ 48) :
    bits (BitVec.ofNat 64 (t.pack sys)).toNat 0 8 = t.cause ∧ (BitVec.ofNat 64 (t.pack sys)).getLsbD 8 = sys
      ∧ (BitVec.ofNat 64 (t.pack sys)).getLsbD 9 = t.wr ∧ (BitVec.ofNat 64 (t.pack sys)).getLsbD 10 = t.fetch
      ∧ bits (BitVec.ofNat 64 (t.pack sys)).toNat 11 5 = 0 ∧ bits (BitVec.ofNat 64 (t.pack sys)).toNat 16 48 = t.detail := by
  have hb (b : Bool) : b2n b < 2 := by cases b <;> decide
  have hsys := hb sys
  have hwr := hb t.wr
  have hf := hb t.fetch
  have hlt : t.pack sys < 2 ^ 64 := by simp only [Trap.pack]; omega
  have hbit {i : Nat} {b : Bool} (hi : i < 64) (h : t.pack sys / 2 ^ i % 2 = b2n b) : (BitVec.ofNat 64 (t.pack sys)).getLsbD i = b := by
    rw [BitVec.getLsbD_ofNat, decide_eq_true hi, Bool.true_and, Nat.testBit_eq_decide_div_mod_eq, h]
    cases b <;> rfl
  rw [BitVec.toNat_ofNat, Nat.mod_eq_of_lt hlt]
  refine ⟨?_, hbit (by decide) ?_, hbit (by decide) ?_, hbit (by decide) ?_, ?_, ?_⟩ <;> simp only [bits, Trap.pack] <;> omega

/-! ### A halted core -/

theorem State.insn_of_halted (len cyc : Nat) (b : Body) (h : s.cores[c].state = .halted) : s.insn c len cyc b = s :=
  if_pos (by rw [h]; decide)

theorem State.parkCore_of_halted (p : Parker) (h : s.cores[c].state = .halted) : s.parkCore c p = s := by
  simp only [State.parkCore, h, reduceCtorEq, if_false]

theorem State.resumeCore_of_halted (p : Parker) (h : s.cores[c].state = .halted) : (s.resumeCore c p).cores[c].state = .halted := by
  simp only [State.resumeCore, h, reduceCtorEq, false_and, if_false, State.setCore_core]

variable {s c}

theorem State.writeCoreCtrl_of_halted (o : Origin) {v : Nat} (hv : bitAt v 2 = false) (h : s.cores[c].state = .halted) :
    (s.writeCoreCtrl o c v).cores[c].state = .halted := by
  have hkeep {t : State} (ht : t.cores = s.cores) : t.cores[c].state = .halted := (congrArg Core.state (State.core_of_cores c ht)).trans h
  rcases State.regCmd_refusal_cases (s := s) (o := o) (page := corePage c) (off := 0x044) (v := v)
    (legal := !(bitAt v 0 && bitAt v 1)) (busy := bitAt v 2 && decide (c.val < 8) && decide (s.liveSystemCores ≤ 2))
    (deny := fun t => t.refuseBlock o (corePage c) E.CROOK_BUSY (crookInfo 0 (t.cores[c]).func.toNat))
    (act := fun t =>
      let t := if bitAt v 0 then t.parkCore c .register else t
      let t := if bitAt v 1 then t.resumeCore c .register else t
      if bitAt v 2 && (t.cores[c]).state != .retired then t.retireCore c else t) with hr | ⟨t, ht, hr⟩ | ⟨t, ht, hr⟩
  · rw [State.writeCoreCtrl, hr]
    exact h
  · rw [State.writeCoreCtrl, hr]
    exact hkeep (keeps_cores ht rfl)
  · have htc := hkeep (keeps_cores ht.1 rfl)
    rw [State.writeCoreCtrl, hr]
    simp only [hv, Bool.false_and, Bool.false_eq_true, if_false, State.parkCore_of_halted t c _ htc, ite_self]
    split
    · exact State.resumeCore_of_halted t c _ htc
    · exact htc

end

/-- Settles O30: the two ways of `State.trapCore`, and a halted core runs, parks and resumes no further. -/
theorem trapEntry : Obligations.TrapEntry := by
  unfold Obligations.TrapEntry
  refine ⟨fun s c k tr pc h => s.trapCore_of_inTrap c k tr pc h, fun s c k tr pc h hprog hcause hdetail => ?_,
    fun s c len cyc b h => s.insn_of_halted c len cyc b h, fun s c o h => ⟨⟨_, rfl, ?_⟩, ⟨_, rfl, ?_⟩, ?_, ?_⟩⟩
  · obtain ⟨h0, h8, h9, h10, h11, h16⟩ := tr.pack_fields k.sys hcause hdetail
    obtain ⟨hsys, htrap, -⟩ := status_withMode
      { k with lastCause := BitVec.ofNat 64 (tr.pack k.sys), lastTrapPc := pc, traps := sat32 (k.traps + 1) } true true
    exact ⟨_, s.trapCore_of_outside c k tr pc h hprog, rfl, rfl, hsys, htrap, rfl, rfl, h0, h8, h9, h10, h11, h16⟩
  · exact State.writeCoreCtrl_of_halted o (by decide) h
  · exact State.writeCoreCtrl_of_halted o (by decide) h
  · change execWaitWake c s = _
    simp only [execWaitWake, h]
  · change execWaitTimeout c s = _
    simp only [execWaitTimeout, h]

end Sys2Proof.Machine
end

section
/-!
Parking, resuming and retiring a core by register (R326, R334).
-/

namespace Sys2Proof.Machine

open Sys2Proof.Laws

section
variable {s : State} {c : Fin 72}

/-- What a parking leaves of the core's other fields: the copy of a dirty line may be written back on the way (R325). -/
theorem State.caught_core (s : State) (c : Fin 72) :
    ∃ ls : List DLine, (s.caught c).cores[c] = { s.cores[c] with dcache := ls } := by
  simp only [State.caught]
  split
  · exact ⟨s.cores[c].dcache, rfl⟩
  · exact ⟨_, State.setCore_core ..⟩

/-- PARK stops a running core where it is (R326). -/
theorem State.parkCore_of_running (p : Parker) (h : s.cores[c].state = .running) :
    (s.parkCore c p).cores[c].state = .parked ∧ (s.parkCore c p).cores[c].pcSnap = s.cores[c].pc
      ∧ (s.parkCore c p).cores[c].ds = s.cores[c].ds ∧ (s.parkCore c p).cores[c].mem = s.cores[c].mem
      ∧ p ∈ (s.parkCore c p).cores[c].parkers ∧ bitAt ((s.parkCore c p).get (H.STICKY (corePage c))) 0 = true := by
  obtain ⟨ls, hls⟩ := s.caught_core c
  have hkeep {α : Type} (f : Core → α) (hf : ∀ (k : Core) (l : List DLine), f { k with dcache := l } = f k) :
      f (s.caught c).cores[c] = f s.cores[c] := by
    rw [hls, hf]
  have hrun : (s.caught c).cores[c].state = .running := (hkeep Core.state fun _ _ => rfl).trans h
  have hpark : s.parkCore c p = ((s.caught c).setCore c
      { (s.caught c).cores[c] with
        parkers := if (s.caught c).cores[c].parkers.contains p then (s.caught c).cores[c].parkers else p :: (s.caught c).cores[c].parkers,
        state := .parked, pcSnap := (s.caught c).cores[c].pc, since := (s.caught c).time }).pulse (corePage c) Ev.CORE.PARKED := by
    simp only [State.parkCore, h, if_true, hrun]
  have hcore := (State.core_of_cores c ((congrArg State.cores hpark).trans (State.pulse_cores ..))).trans (State.setCore_core ..)
  refine ⟨?_, ?_, ?_, ?_, ?_, ?_⟩
  · rw [hcore]
  · rw [hcore]; exact hkeep Core.pc fun _ _ => rfl
  · rw [hcore]; exact hkeep Core.ds fun _ _ => rfl
  · rw [hcore]; exact hkeep Core.mem fun _ _ => rfl
  · rw [hcore]
    dsimp only
    split
    next hp => exact List.contains_iff_mem.mp hp
    next => exact List.mem_cons_self
  · rw [hpark, State.pulse_sticky _ _ _ (by decide)]
    rfl

/-- RESUME of the last park request of a core that has work runs it on (R326). -/
theorem State.resumeCore_of_last {p : Parker} (h : s.cores[c].state = .parked) (hp : s.cores[c].parkers = [p])
    (hw : c.val < 8 ∨ s.cores[c].prog ≠ none) :
    (s.resumeCore c p).cores[c] =
      { s.cores[c] with parkers := [], state := .running, cycle := s.cores[c].cycle + coreCycles s.cores[c].since s.time } := by
  have hstop : ¬ (8 ≤ c.val ∧ s.cores[c].prog = none) := by
    rintro ⟨h8, hn⟩
    rcases hw with hlt | hne
    · omega
    · exact hne hn
  have hleft : [p].filter (· ≠ p) = [] := by simp
  simp only [State.resumeCore, h, hp, hleft, true_and, hstop, if_false, if_true, State.setCore_core]

/-- Withdrawing a core from its function changes no register of the core's page and no core. -/
theorem State.withdrawCore_core_page (s : State) (c : Fin 72) {x : Fld} (hx : x.page = corePage c) :
    (s.withdrawCore c).get x = s.get x := by
  have hlt : x.page < 0x1000 ∧ x.page ≠ 0xB1 := by
    simp only [hx, corePage]
    omega
  unfold State.withdrawCore
  split
  · rfl
  next f _ =>
    have hvf : x.page ≠ 0x1000 + f.p.func := by omega
    dsimp only
    rw [State.record_get_of_page _ hlt.2, State.pulse_get_of_page _ hlt.2, State.pulse_get_of_page _ hvf,
      State.get_put_of_page _ _ (beq_eq_false_iff_ne.mpr hvf)]
    rfl

theorem State.retireCore_core (s : State) (c : Fin 72) : (s.retireCore c).cores[c].state = .retired
    ∧ (s.retireCore c).bit (H.RETIRED (corePage c)) = true := by
  refine ⟨?_, ?_⟩
  · simp only [State.retireCore]
    rw [State.core_of_cores c ((keeps_cores (State.forget_withdrawCore (T := 0x488000420) rfl ..) rfl).trans
      ((State.record_cores ..).trans (State.pulse_cores ..)))]
    exact congrArg Core.state (State.setCore_core ..)
  · simp only [State.retireCore, State.bit]
    rw [State.withdrawCore_core_page _ _ rfl, State.record_get_below _ (by decide : 0x00C < 0x018), State.pulse_get_of_place _ _ _ rfl rfl]
    simp only [State.putBit, State.get_put_same]
    rfl

end

section
variable {s : State} {o : Origin} {c : Fin 72}

theorem State.writeCoreCtrl_acts (hp : s.powered = true) (hr : s.reaches o (corePage c) = true) (hi : s.holds o .installer = true) {v : Nat}
    (hl : (!(bitAt v 0 && bitAt v 1)) = true) (hb : (bitAt v 2 && decide (c.val < 8) && decide (s.liveSystemCores ≤ 2)) = false) :
    ∃ t : State, s.Accessed t ∧ s.writeCoreCtrl o c v =
      (let t := if bitAt v 0 then t.parkCore c .register else t
       let t := if bitAt v 1 then t.resumeCore c .register else t
       if bitAt v 2 && (t.cores[c]).state != .retired then t.retireCore c else t) :=
  State.regCmd_acts hp hr (State.meets_of_installer hi _) hl hb

theorem State.Accessed.core {t : State} (h : s.Accessed t) : t.cores[c] = s.cores[c] := State.core_of_cores c (keeps_cores h.1 rfl)

end

/-- Settles O31: each control bit by the rule of a command register and what the core's move leaves. -/
theorem coreControl : Obligations.CoreControl := by
  unfold Obligations.CoreControl
  intro s o c hp hr hi
  refine ⟨fun h => ?_, fun h hpk hw => ?_, fun h hlive => ?_, fun hc hlive => ?_⟩
  · obtain ⟨t, ht, he⟩ := State.writeCoreCtrl_acts (v := 1) hp hr hi rfl rfl
    have hc := ht.core (c := c)
    obtain ⟨h1, h2, h3, h4, h5, h6⟩ := State.parkCore_of_running (s := t) (c := c) .register (by rw [hc]; exact h)
    refine ⟨_, congrArg Host.Outcome.next he, ?_⟩
    rw [hc] at h2 h3 h4
    exact ⟨h1, h2, h3, h4, h5, h6⟩
  · obtain ⟨t, ht, he⟩ := State.writeCoreCtrl_acts (v := 2) hp hr hi rfl rfl
    have hc := ht.core (c := c)
    have hres := State.resumeCore_of_last (s := t) (c := c) (p := .register) (by rw [hc]; exact h) (by rw [hc]; exact hpk) (by rw [hc]; exact hw)
    refine ⟨_, congrArg Host.Outcome.next he, ?_⟩
    change (t.resumeCore c .register).cores[c].state = _ ∧ (t.resumeCore c .register).cores[c].pc = _ ∧ (t.resumeCore c .register).cores[c].parkers = _
      ∧ (t.resumeCore c .register).cores[c].ds = _
    rw [hres, hc]
    exact ⟨rfl, rfl, rfl, rfl⟩
  · have hbusy : (bitAt 4 2 && decide (c.val < 8) && decide (s.liveSystemCores ≤ 2)) = false := by
      simp only [Bool.and_eq_false_iff, decide_eq_false_iff_not]
      omega
    obtain ⟨t, ht, he⟩ := State.writeCoreCtrl_acts (v := 4) hp hr hi rfl hbusy
    have hret : (t.cores[c].state != .retired) = true := by
      rw [ht.core]
      simpa using h
    refine ⟨t.retireCore c, congrArg Host.Outcome.next (he.trans (if_pos ?_)), t.retireCore_core c⟩
    exact hret
  · obtain ⟨t, ht, he⟩ := State.regCmd_denies (s := s) (o := o) (page := corePage c) (off := 0x044) (v := 4) (legal := true)
      (busy := bitAt 4 2 && decide (c.val < 8) && decide (s.liveSystemCores ≤ 2))
      (deny := fun t => t.refuseBlock o (corePage c) E.CROOK_BUSY (crookInfo 0 (t.cores[c]).func.toNat))
      (act := fun t =>
        let t := if bitAt 4 0 then t.parkCore c .register else t
        let t := if bitAt 4 1 then t.resumeCore c .register else t
        if bitAt 4 2 && (t.cores[c]).state != .retired then t.retireCore c else t)
      hp hr (State.meets_of_installer hi _) rfl (by simp [hc, hlive]; decide)
    refine ⟨_, congrArg Host.Outcome.next he, ?_, State.refuseBlock_refusal ..⟩
    exact (State.record_cores ..).trans (keeps_cores ht.1 rfl)

end Sys2Proof.Machine
end

section
/-!
Loading a cluster's decode table and microcode (R370-R375).
-/

namespace Sys2Proof.Machine

open Sys2Proof.Laws

/-! ### Parking the cores of a cluster -/

section
variable {s : State} {c d : Fin 72}

theorem State.setCore_core_other (k : Core) (h : d ≠ c) : (s.setCore c k).cores[d] = s.cores[d] := by
  simp only [State.setCore, Fin.getElem_fin]
  exact Vector.getElem_set_ne _ _ (fun he => h (Fin.ext he.symm))

theorem State.caught_core_other (h : d ≠ c) : (s.caught c).cores[d] = s.cores[d] := by
  simp only [State.caught]
  split
  · rfl
  · exact State.setCore_core_other _ h

theorem State.parkCore_core_other (p : Parker) (h : d ≠ c) : (s.parkCore c p).cores[d] = s.cores[d] := by
  have hpulse (t : State) (k : Core) (b : Nat) : ((t.setCore c k).pulse (corePage c) b).cores[d] = t.cores[d] :=
    (State.core_of_cores d (State.pulse_cores ..)).trans (State.setCore_core_other _ h)
  have hcaught : (if s.cores[c].state = .running then s.caught c else s).cores[d] = s.cores[d] := by
    split
    · exact State.caught_core_other h
    · rfl
  unfold State.parkCore
  dsimp only
  generalize (if s.cores[c].state = .running then s.caught c else s) = u at hcaught ⊢
  split
  · exact (hpulse ..).trans hcaught
  · exact (hpulse ..).trans hcaught
  · exact (State.setCore_core_other _ h).trans hcaught
  all_goals exact hcaught

theorem State.parkCore_of_parked (p : Parker) (h : s.cores[c].state = .parked) : (s.parkCore c p).cores[c].state = .parked := by
  simp only [State.parkCore, h, reduceCtorEq, if_false, State.setCore_core]

theorem State.foldl_parkCore_of_parked (p : Parker) (cs : List (Fin 72)) (h : s.cores[c].state = .parked) :
    (cs.foldl (fun t k => t.parkCore k p) s).cores[c].state = .parked := by
  induction cs generalizing s with
  | nil => exact h
  | cons k cs ih =>
    refine ih ?_
    by_cases hk : c = k
    · subst hk
      exact State.parkCore_of_parked p h
    · rw [State.parkCore_core_other p hk]
      exact h

/-- Parking a list of cores parks each that ran (R326). -/
theorem State.foldl_parkCore (p : Parker) (cs : List (Fin 72)) (hc : c ∈ cs) (h : s.cores[c].state = .running) :
    (cs.foldl (fun t k => t.parkCore k p) s).cores[c].state = .parked := by
  induction cs generalizing s with
  | nil => exact absurd hc List.not_mem_nil
  | cons k cs ih =>
    by_cases hk : c = k
    · subst hk
      exact State.foldl_parkCore_of_parked p cs (State.parkCore_of_running p h).1
    · exact ih ((List.mem_cons.mp hc).resolve_left hk) (by rw [State.parkCore_core_other p hk]; exact h)

theorem mem_clusterCores {n : Nat} : c ∈ clusterCores n ↔ c.val / 8 = n := by simp [clusterCores]

/-- A load that begins parks the cluster's cores and waits (R371). -/
theorem State.startLoad_spec (s : State) (x : Cmd) (n : Nat) (img : Bytes) : (s.startLoad x n img).mcLoad = some ⟨n, none, img, 2, false⟩
    ∧ (s.startLoad x n img).clusters = s.clusters ∧ (x, AdminFor.microcode) ∈ (s.startLoad x n img).host.waiting
    ∧ ∀ k : Fin 72, k.val / 8 = n → s.cores[k].state = .running → (s.startLoad x n img).cores[k].state = .parked := by
  have hframe (cs : List (Fin 72)) (t : State) : forget 0x481400024 (cs.foldl (fun t k => t.parkCore k .load) t) = forget 0x481400024 t := by
    induction cs generalizing t with
    | nil => rfl
    | cons k cs ih => exact (ih _).trans (State.forget_parkCore (T := 0x481400024) rfl ..)
  refine ⟨?_, ?_, List.mem_append_right _ List.mem_cons_self, fun k hk h => ?_⟩
  · exact (keeps_mcLoad (hframe (clusterCores n) { s with mcLoad := some ⟨n, none, img, 2, false⟩ }) rfl :)
  · exact (keeps_clusters (hframe (clusterCores n) { s with mcLoad := some ⟨n, none, img, 2, false⟩ }) rfl :)
  · exact State.foldl_parkCore .load _ (mem_clusterCores.mpr hk) h

end

/-! ### Writing a cluster -/

section
variable {s : State} {q : Fin 9}

theorem State.cluster_set (x : Cluster) (s : State) : ({ s with clusters := s.clusters.set q.val x } : State).cluster q.val = x := by
  simp [State.cluster, List.getD_eq_getElem?_getD]

theorem Cluster.getD_range {f : Nat → Nat} {n i : Nat} : ((List.range n).map f).getD i 0 = if i < n then f i else 0 := by
  rw [List.getD_eq_getElem?_getD, List.getElem?_map]
  by_cases h : i < n
  · simp [h]
  · simp [h]

/-- A written cluster holds the image's table, store and fingerprint, words not loaded being zero (R372). -/
theorem State.writeCluster_spec (s : State) (q : Fin 9) (img : Bytes) :
    (∀ e < 64, ((s.writeCluster q.val img).cluster q.val).entry e = mcEntry img e)
      ∧ (∀ i, ((s.writeCluster q.val img).cluster q.val).store.getD i 0 = if i < mcWords img then mcWord img i else 0)
      ∧ ((s.writeCluster q.val img).cluster q.val).fingerprint = sliceBytes img 16 32 := by
  have hw : (s.writeCluster q.val img).cluster q.val = { s.clusters[q] with
      table := (List.range 64).map (mcEntry img), store := (List.range (mcWords img)).map (mcWord img), words := mcWords img,
      fingerprint := sliceBytes img 16 32 } := by
    rw [State.writeCluster, dif_pos q.isLt]
    exact State.cluster_set _ s
  rw [hw]
  refine ⟨fun e he => ?_, fun i => Cluster.getD_range, rfl⟩
  exact Cluster.getD_range.trans (if_pos he)

theorem State.writeCluster_frame (s : State) (n : Nat) (img : Bytes) : forget (2 ^ 25) (s.writeCluster n img) = forget (2 ^ 25) s := by
  unfold State.writeCluster
  split <;> rfl

/-- A cleared cluster has no valid entry and a store of zeros (R374). -/
theorem State.clearCluster_spec (s : State) {t : State} {n : Nat} (hn : n < 9) (hc : t.clusters = (s.clearCluster n).clusters) :
    (∀ e, entValid ((t.cluster n).entry e) = false) ∧ (∀ i, (t.cluster n).store.getD i 0 = 0) := by
  have hw : t.cluster n = { Cluster.empty with kept := s.clusters[n].kept } := by
    rw [State.cluster, hc, State.clearCluster, dif_pos hn]
    simp [List.getD_eq_getElem?_getD, hn]
  rw [hw]
  refine ⟨fun e => ?_, fun i => List.getD_nil⟩
  change entValid (([] : List Nat).getD e 0) = false
  rw [List.getD_nil]
  rfl

end

/-! ### The commands -/

section
variable {s : State} {c : Cmd} {n : BitVec 4} {d : Bytes}

theorem exec_microcodeLoad_of_checked (ha : s.adminReady c.fn = true) (hpf : isPf c.fn = true) (hi : s.holds (.pcie c.fn) .installer = true)
    (hlo : 1 ≤ n.toNat) (hhi : n.toNat ≤ 8) (hu : s.updating = false) (hm : s.mcLoad = none) (hlen : d.length = 320 + 16 * mcWords d)
    (hd : dptrLen c.dptr = d.length) (hb : mcBad d = none) :
    exec (.microcodeLoad c n d.length d) s =
      if sliceBytes d 16 32 ≠ sha256 (mcCovered d) then
        .next ((s.auditVendor (.pcie c.fn) 0xC6 [n.toNat, d.length] true).refuseLoad c n.toNat E.MICROCODE_FINGERPRINT 0 Nv.table)
      else .next ((s.auditVendor (.pcie c.fn) 0xC6 [n.toNat, d.length] false).startLoad c n.toNat d) := by
  have hn : ¬ (n.toNat = 0 ∨ 8 < n.toNat) := by omega
  have hl : ¬ (d.length ≠ 320 + 16 * mcWords d ∨ d.length ≠ dptrLen c.dptr ∨ d.length ≠ d.length) := by
    simp [← hlen, hd]
  change execMicrocodeLoad c n d.length d s = _
  simp only [execMicrocodeLoad, ha, hpf, hi, hn, hu, hm, hl, hb, Bool.not_true, Bool.false_eq_true, if_false, Option.isSome_none, Bool.or_self]

theorem refuseLoad_frame (t : State) (c : Cmd) (n code info status : Nat) : forget 0x480000420 (t.refuseLoad c n code info status) = forget 0x480000420 t :=
  State.forget_refuseLoad rfl ..

/-- A load that is not admitted completes and changes no cluster and no core (R371). -/
theorem exec_microcodeLoad_of_refused {len : Nat} (h : s.holds (.pcie c.fn) .installer = false ∨ s.mcLoad.isSome = true ∨ n = 0 ∨ mcBad d ≠ none) :
    ∃ t : State, exec (.microcodeLoad c n len d) s = .next t ∧ forget 0xC80000C20 t = forget 0xC80000C20 s := by
  have hlog (b : Bool) : forget 0xC80000C20 (s.auditVendor (.pcie c.fn) 0xC6 [n.toNat, len] b) = forget 0xC80000C20 s :=
    State.forget_auditVendor rfl ..
  have hdone (t : State) (st : Nat) (ht : forget 0xC80000C20 t = forget 0xC80000C20 s) : forget 0xC80000C20 (t.completeAdmin c st) = forget 0xC80000C20 s :=
    (State.forget_completeAdmin rfl ..).trans ht
  have href (t : State) (code info st : Nat) (ht : forget 0xC80000C20 t = forget 0xC80000C20 s) :
      forget 0xC80000C20 (t.refuseLoad c n.toNat code info st) = forget 0xC80000C20 s := (State.forget_refuseLoad rfl ..).trans ht
  change ∃ t : State, execMicrocodeLoad c n len d s = .next t ∧ _
  unfold execMicrocodeLoad
  dsimp only
  split
  · exact ⟨_, rfl, rfl⟩
  split
  · exact ⟨_, rfl, hdone _ _ rfl⟩
  split
  · exact ⟨_, rfl, hdone _ _ rfl⟩
  next hi =>
  split
  · exact ⟨_, rfl, hdone _ _ (hlog _)⟩
  next hn =>
  split
  · exact ⟨_, rfl, href _ _ _ _ (hlog _)⟩
  next hbusy =>
  split
  · exact ⟨_, rfl, hdone _ _ (hlog _)⟩
  split
  · exact ⟨_, rfl, href _ _ _ _ (hlog _)⟩
  next hb =>
  exfalso
  rcases h with h | h | h | h
  · exact hi (by simp [h])
  · exact hbusy (by simp [h])
  · exact hn (.inl (by simp [h]))
  · exact h hb

end

section
variable {s : State} {m : McLoad} {w : Bytes}

theorem execMicrocodeRecheck_of_written (hm : s.mcLoad = some m) (hp : m.phase = 4) : exec (.microcodeRecheck w) s =
    if sha256 w = sliceBytes m.image 16 32 then
      .next ((((s.keepCluster m.cluster (if bitAt (leNat (sliceBytes m.image 10 2)) 0 then some m.image else none)).bump
        (R.CLUSTER.LOADS_COUNT m.cluster)).pulse (clusterPage m.cluster) Ev.CLUSTER.LOAD_DONE).endLoad m.cluster Nv.ok)
    else if m.again = false then .next { s.writeCluster m.cluster m.image with mcLoad := some { m with again := true } }
    else .next (((s.clearCluster m.cluster).record (clusterPage m.cluster) E.MICROCODE_WRITE_FAIL 0).endLoad m.cluster Nv.internal) := by
  change execMicrocodeRecheck w s = _
  simp only [execMicrocodeRecheck, hm, hp, ne_eq, not_true_eq_false, if_false]

theorem State.bump_get_same (s : State) (x : Fld) (n : Nat) : (s.bump x n).get x = min (s.get x + n) (2 ^ x.w - 1) := by
  rw [State.bump, State.get_put_same]
  exact Nat.mod_eq_of_lt ((min_le_right _ _).trans_lt (Nat.sub_lt (Nat.two_pow_pos _) Nat.one_pos))

end

/-- Settles O32: by the checks of a load, the write of a cluster and the two outcomes of the recheck. -/
theorem microcodeLoads : Obligations.MicrocodeLoads := by
  unfold Obligations.MicrocodeLoads
  refine ⟨fun s c n d ha hpf hi hlo hhi hu hm hlen hd hb => ⟨fun hfp => ?_, fun hfp => ?_⟩, fun s c n len d ha hpf h => ?_, fun s m q hm hp hq => ?_,
    fun s m w hm hp => ⟨fun hw => ?_, fun hw hag => ?_, fun hw hag hn => ?_⟩⟩
  · have haudit : forget 0x800000800 (s.auditVendor (.pcie c.fn) 0xC6 [n.toNat, d.length] false) = forget 0x800000800 s := State.forget_auditVendor rfl ..
    obtain ⟨h1, h2, h3, h4⟩ := (s.auditVendor (.pcie c.fn) 0xC6 [n.toNat, d.length] false).startLoad_spec c n.toNat d
    refine ⟨_, (exec_microcodeLoad_of_checked ha hpf hi hlo hhi hu hm hlen hd hb).trans (if_neg (not_not.mpr hfp)), h1,
      h2.trans (keeps_clusters haudit rfl), h3, fun k hk hrun => h4 k hk ?_⟩
    rw [State.core_of_cores k (keeps_cores haudit rfl)]
    exact hrun
  · have hframe := (State.forget_refuseLoad (T := 0xC80000C20) rfl (s.auditVendor (.pcie c.fn) 0xC6 [n.toNat, d.length] true) c n.toNat
      E.MICROCODE_FINGERPRINT 0 Nv.table).trans (State.forget_auditVendor rfl ..)
    exact ⟨_, (exec_microcodeLoad_of_checked ha hpf hi hlo hhi hu hm hlen hd hb).trans (if_pos hfp), (keeps_mcLoad hframe rfl).trans hm,
      keeps_clusters hframe rfl, keeps_cores hframe rfl, State.mem_completeAdmin_cqes ..⟩
  · obtain ⟨t, ht, hframe⟩ := exec_microcodeLoad_of_refused (len := len) h
    exact ⟨t, ht, keeps_mcLoad hframe rfl, keeps_clusters hframe rfl, keeps_cores hframe rfl⟩
  · obtain ⟨he, hs, hf⟩ := s.writeCluster_spec q m.image
    refine ⟨{ s.writeCluster q.val m.image with mcLoad := some { m with phase := 4 } }, ?_, rfl, he, fun i _ => hs i, hf,
      (keeps_cores (s.writeCluster_frame q.val m.image) rfl :)⟩
    change execMicrocodeClusterParked s = _
    simp only [execMicrocodeClusterParked, hm, hp, hq, ne_eq, not_true_eq_false, if_false]
  · refine ⟨_, (execMicrocodeRecheck_of_written hm hp).trans (if_pos hw), ?_, ?_⟩
    · rw [State.pulse_get_beyond _ _ _ rfl, State.bump_get_same]
      exact congrArg (fun v => min (v + 1) _) (State.get_of_regs (keeps_regs (State.forget_keepCluster (T := 0x2000000) rfl ..) rfl) _)
    · exact (State.pulse_cores ..).trans ((State.bump_cores ..).trans (keeps_cores (State.forget_keepCluster (T := 0x2000000) rfl ..) rfl))
  · exact ⟨_, (execMicrocodeRecheck_of_written hm hp).trans ((if_neg hw).trans (if_pos hag)), rfl, rfl⟩
  · obtain ⟨he, hs⟩ := s.clearCluster_spec hn (State.record_clusters (s.clearCluster m.cluster) (clusterPage m.cluster) E.MICROCODE_WRITE_FAIL 0 0x1F0 0 0)
    refine ⟨_, (execMicrocodeRecheck_of_written hm hp).trans ((if_neg hw).trans (if_neg (by simp [hag]))), he, hs, fun hv => ?_⟩
    refine (State.record_get_CODE ?_ ..).trans rfl
    exact (State.get_of_regs (keeps_regs (State.forget_clearCluster (T := 0x2000000) rfl ..) rfl) _).trans hv

end Sys2Proof.Machine
end

section
/-!
Microwords (R361, R363, R365).
-/

namespace Sys2Proof.Machine

open Sys2Proof.Laws

section
variable {m n : Micro} {out a b v : Nat}

/-- Writing a microword's results changes no core, and of the state at most the free values. -/
theorem microWrites_frame (m : Micro) (x : Ctx) (alu mem st dec : Option (Nat × Word)) :
    (microWrites m x alu mem st dec).1.k = x.k ∧ forget (2 ^ 2) (microWrites m x alu mem st dec).1.s = forget (2 ^ 2) x.s := by
  cases dec with
  | none => exact ⟨rfl, rfl⟩
  | some d =>
    simp only [microWrites]
    split <;> exact ⟨rfl, rfl⟩

/-- Where a microword goes on, it goes on with what it has computed. -/
theorem MicroNext.go_of_ends {c1 c2 c3 c4 : Prop} [Decidable c1] [Decidable c2] [Decidable c3] [Decidable c4] {r : Micro} {e f g h i j k : Nat}
    (hgo : (if c1 then MicroNext.trap r e f else if c2 then .trap r g h else if c3 then (if c4 then .trap r i j else .done r) else .go r k)
      = .go n b) : n = r := by
  by_cases h1 : c1
  · simp [h1] at hgo
  by_cases h2 : c2
  · simp [h1, h2] at hgo
  by_cases h3 : c3
  · by_cases h4 : c4 <;> simp [h1, h2, h3, h4] at hgo
  · have hrb : r = n ∧ k = b := by simpa [h1, h2, h3] using hgo
    exact hrb.1.symm

/-- A microword without a memory operation takes a microcycle and changes only the micro registers (R361). -/
theorem microStep_of_no_access (hv : bits v 25 3 = 0) (h : microStep m out a v = .go n b) :
    n.cyc = m.cyc + 1 ∧ n.x.k = m.x.k ∧ n.x.s.mem = m.x.s.mem ∧ n.x.s.regs = m.x.s.regs := by
  simp only [microStep, hv, if_true] at h
  rw [MicroNext.go_of_ends h]
  obtain ⟨hk, hs⟩ := microWrites_frame m m.x _ _ _ _
  exact ⟨rfl, hk, keeps_mem hs rfl, keeps_regs hs rfl⟩

theorem microMem_load_of_trap (x : Ctx) (w : Lane) (sx : Bool) (a d : Word) (t : Trap) (h : x.load a.toNat (laneBytes w) .none = .error t) :
    microMem x 1 w sx a d = ⟨x.suppress t, 0, t.cause, 1⟩ := by
  simp only [microMem, if_true, h]

theorem microMem_store_of_trap (x : Ctx) (w : Lane) (sx : Bool) (a d : Word) (t : Trap)
    (h : x.store a.toNat (laneBytes w) (bits d.toNat 0 (laneBits w)) = .error t) :
    microMem x 2 w sx a d = ⟨x.suppress t, 0, t.cause, 1⟩ := by
  simp only [microMem, h, if_true, if_neg (by decide : ¬ (2 : Nat) = 1)]

/-- The all-zero microword goes on at the next address (R365). -/
theorem microStep_zero (m : Micro) (out a : Nat) (hc : m.cyc < 255) (_ha : a < 4096) :
    microStep m out a 0 = .go { m with cyc := m.cyc + 1 } ((a + 1) % 4096) := by
  have hb (i w : Nat) : bits 0 i w = 0 := by simp [bits]
  have h256 : ¬ (256 < m.cyc + 1 ∨ (m.cyc + 1 = 256 ∧ (0 : Nat) ≠ 4)) := by omega
  simp only [microStep, hb, if_true, h256, if_false, microWrites]
  simp

end

/-- Settles O33: by the cases of `microStep` and `microMem`. -/
theorem microwordsOnlyTouchWhatTheyMay : Obligations.MicrowordsOnlyTouchWhatTheyMay := by
  unfold Obligations.MicrowordsOnlyTouchWhatTheyMay
  exact ⟨fun _ _ _ _ _ _ hv h => microStep_of_no_access hv h, microMem_load_of_trap, microMem_store_of_trap, microStep_zero⟩

end Sys2Proof.Machine
end

section
/-!
Firmware download, commit, handover and rollback (R329-R333, R473).
-/

namespace Sys2Proof.Machine

open Sys2Proof.Laws

/-! ### Download -/

theorem assoc_foldl_assocSet_other {j : Nat} (d : Bytes) (off k : Nat) (b : List (Nat × Byte)) (hj : j < off + k ∨ off + k + d.length ≤ j) :
    assoc ((d.zipIdx k).foldl (fun b x => assocSet b (off + x.2) x.1) b) j = assoc b j := by
  induction d generalizing k b with
  | nil => rfl
  | cons x d ih =>
    rw [List.length_cons] at hj
    rw [List.zipIdx_cons, List.foldl_cons, ih (k + 1) _ (by omega), assoc_assocSet_other _ _ (by omega)]

theorem assoc_foldl_assocSet {i : Nat} (d : Bytes) (off k : Nat) (b : List (Nat × Byte)) (hi : i < d.length) :
    assoc ((d.zipIdx k).foldl (fun b x => assocSet b (off + x.2) x.1) b) (off + k + i) = d[i]? := by
  induction d generalizing k b i with
  | nil => exact absurd hi (Nat.not_lt_zero _)
  | cons x d ih =>
    rw [List.zipIdx_cons, List.foldl_cons]
    cases i with
    | zero => rw [assoc_foldl_assocSet_other d off (k + 1) _ (by omega), Nat.add_zero, assoc_assocSet_same, List.getElem?_cons_zero]
    | succ i =>
      rw [show off + k + (i + 1) = off + (k + 1) + i by omega, ih _ _ (Nat.lt_of_succ_lt_succ hi), List.getElem?_cons_succ]

@[simp] theorem State.completeAdmin_pwr (s : State) (c : Cmd) (status dw0 dw1 : Nat) : (s.completeAdmin c status dw0 dw1).pwr = s.pwr :=
  keeps_pwr (State.forget_completeAdmin (T := 0x480000420) rfl ..) rfl

/-- A download keeps its bytes at their offset (R473). -/
theorem exec_firmwareImageDownload {s : State} {c : Cmd} {off : Nat} {d : Bytes} (ha : s.adminReady c.fn = true) (hlen : off + d.length ≤ 16777216)
    (hd : d ≠ []) : exec (.firmwareImageDownload c off d) s = .next ((s.setFw fun f => { f with
      buf := d.zipIdx.foldl (fun b x => assocSet b (off + x.2) x.1) f.buf, bufLen := max f.bufLen (off + d.length) }).completeAdmin c Nv.ok) := by
  have hok : ¬ (16777216 < off + d.length ∨ d = []) := by
    rintro (h | h)
    · omega
    · exact hd h
  change execFirmwareImageDownload c off d s = _
  simp only [execFirmwareImageDownload, ha, hok, Bool.not_true, Bool.false_eq_true, if_false]

/-! ### Commit -/

/-- The audit entry of a commit (R473). -/
def State.logCommit (t : State) (c : Cmd) (r n : Nat) (img : Bytes) : State :=
  t.audit (.pcie c.fn) (t.roleByte (.pcie c.fn)) 0x0031 r (commitParam n img)

/-- An image of the download buffer in its slot, the buffer emptied. -/
def State.stored (t : State) (n : Nat) (img : Bytes) : State := t.setFw fun f => { f with slots := assocSet f.slots n img, buf := [], bufLen := 0 }

section
variable {s u : State} {c : Cmd} {slot : Nat} {action : BitVec 3}

theorem exec_firmwareCommit (ha : s.adminReady c.fn = true) (hs : slot = 1 ∨ slot = 2) (hact : action.toNat ≤ 3) (hu : s.pwr.fw.update = none) :
    exec (.firmwareCommit c slot action) s = .next (s.commit c slot action.toNat) := by
  have hslot : ¬ 2 < slot := by omega
  have hact' : ¬ 3 < action.toNat := by omega
  change execFirmwareCommit c slot action s = _
  simp only [execFirmwareCommit, ha, hslot, hact', hu, Bool.not_true, Bool.false_eq_true, if_false, Option.isSome_none]

theorem State.commit_of_accepted {a : Nat} (hs : slot = 1 ∨ slot = 2) (hb : s.pwr.fw.bufLen ≠ 0) (hv : s.verifyImage s.pwr.fw.image 0 0 = (true, u))
    (ha : a ≠ 2) : s.commit c slot a =
      let img := s.pwr.fw.image
      let t := (u.logCommit c 0 slot img).stored slot img
      let later := t.atNextReset slot img
      if a = 0 then t.completeAdmin c Nv.ok
      else if a ≤ 2 then later.completeAdmin c Nv.needsReset
      else
        match s.pwr.fw.running with
        | some old =>
          if sliceBytes old 16 4 = sliceBytes img 16 4 then
            ((t.stage slot img).setFw fun f => { f with update := some (img, 1), inHandover := false }).await c .update
          else later.refuseUpdate.completeAdmin c Nv.needsReset
        | none => later.refuseUpdate.completeAdmin c Nv.needsReset := by
  have hslot : slot ≠ 0 := by omega
  have hnew : ¬ (a = 2 ∨ s.pwr.fw.bufLen = 0) := by omega
  simp only [State.commit, State.commitSlot, hslot, hnew, hv, if_false, ite_self, Option.isSome_some, if_true, Bool.not_true, Bool.false_eq_true] <;> rfl

theorem State.commit_of_rejected {a : Nat} (hs : slot = 1 ∨ slot = 2) (hb : s.pwr.fw.bufLen ≠ 0) (hv : s.verifyImage s.pwr.fw.image 0 0 = (false, u))
    (ha : a ≠ 2) : s.commit c slot a =
      (if a = 0 then (u.logCommit c 1 slot s.pwr.fw.image).refuseUpdate
       else ((u.logCommit c 1 slot s.pwr.fw.image).refuseUpdate.stored slot s.pwr.fw.image).atNextReset slot s.pwr.fw.image).completeAdmin c Nv.badImage := by
  have hslot : slot ≠ 0 := by omega
  have hnew : ¬ (a = 2 ∨ s.pwr.fw.bufLen = 0) := by omega
  simp only [State.commit, State.commitSlot, hslot, hnew, hv, if_false, ite_self, Option.isSome_some, if_true, Bool.not_false] <;> rfl

/-- Verifying an image and logging the commit leave the firmware's state. -/
theorem State.verified_pwr {b : Bool} {img : Bytes} (hv : s.verifyImage img 0 0 = (b, u)) (r n : Nat) (i : Bytes) :
    (u.logCommit c r n i).pwr = s.pwr := by
  have hu : forget 0x480000420 u = forget 0x480000420 s := by
    have := State.forget_verifyImage (T := 0x480000420) rfl s img 0 0
    rwa [hv] at this
  exact (keeps_pwr (State.forget_audit (T := 0x800000800) rfl ..) rfl).trans (keeps_pwr hu rfl)

theorem State.refuseUpdate_pwr (t : State) : t.refuseUpdate.pwr = t.pwr := State.record_pwr ..

theorem State.stored_fw (t : State) (n : Nat) (img : Bytes) :
    (t.stored n img).pwr.fw = { t.pwr.fw with slots := assocSet t.pwr.fw.slots n img, buf := [], bufLen := 0 } := rfl

theorem State.atNextReset_fw (t : State) (n : Nat) (img : Bytes) :
    (t.atNextReset n img).pwr.fw = { t.pwr.fw with nextSlot := some n, region := some img :: t.pwr.fw.region.drop 1 } := rfl

theorem State.stage_fw (t : State) (n : Nat) (img : Bytes) :
    (t.stage n img).pwr.fw = { t.pwr.fw with nextSlot := some n, region := some img :: t.pwr.fw.region.drop 1 } := rfl

end

/-! ### Handover -/

section
variable {s : State} {c : Fin 72}

theorem State.startSystem_core (s : State) (c : Fin 72) : (s.startSystem c).cores[c].state = .running := by
  simp only [State.startSystem, State.setCore_core, Core.keeping]

theorem State.startSystem_core_other {d : Fin 72} (h : d ≠ c) : (s.startSystem c).cores[d] = s.cores[d] :=
  State.setCore_core_other (s := s.fresh.2.fresh.2.fresh.2.fresh.2) _ h

/-- Starting cores that are not retired leaves a running core running and starts each that is named. -/
theorem State.foldl_startSystem (cs : List (Fin 72)) (h : s.cores[c].state ≠ .retired) :
    (c ∈ cs → (cs.foldl (fun t k => if (t.cores[k]).state = .retired then t else t.startSystem k) s).cores[c].state = .running)
    ∧ (s.cores[c].state = .running → (cs.foldl (fun t k => if (t.cores[k]).state = .retired then t else t.startSystem k) s).cores[c].state = .running) := by
  induction cs generalizing s with
  | nil => exact ⟨fun hc => absurd hc List.not_mem_nil, id⟩
  | cons k cs ih =>
    by_cases hk : c = k
    · subst hk
      have hrun : (if (s.cores[c]).state = .retired then s else s.startSystem c).cores[c].state = .running := by
        rw [if_neg h]
        exact s.startSystem_core c
      have hall := (ih (by rw [hrun]; decide)).2 hrun
      exact ⟨fun _ => hall, fun _ => hall⟩
    · have hsame : (if (s.cores[k]).state = .retired then s else s.startSystem k).cores[c] = s.cores[c] := by
        split
        · rfl
        · exact State.startSystem_core_other hk
      obtain ⟨hmem, hrun⟩ := ih (by rw [hsame]; exact h)
      exact ⟨fun hc => hmem ((List.mem_cons.mp hc).resolve_left hk), fun hr => hrun (by rw [hsame]; exact hr)⟩

theorem State.startHalf_core (h : s.cores[c].state ≠ .retired) (hc : c.val < 4) : (s.startHalf 1).cores[c].state = .running :=
  (State.foldl_startSystem (halfOf 1) h).1 (by simp [halfOf, hc])

theorem State.restartEnds_core (h : s.cores[c].state ≠ .retired) : s.restartEnds.cores[c].state ≠ .retired := by
  have hfold (cs : List (Fin 72)) (t : State) (ht : t.cores[c].state ≠ .retired) : (cs.foldl State.startSystem t).cores[c].state ≠ .retired := by
    induction cs generalizing t with
    | nil => exact ht
    | cons k cs ih =>
      refine ih _ ?_
      by_cases hk : c = k
      · subst hk
        rw [t.startSystem_core c]
        decide
      · rw [State.startSystem_core_other hk]
        exact ht
  exact hfold _ _ h

@[simp] theorem State.wake_pwr (s : State) (p : AdminFor → Bool) (status dw0 : Nat) : (s.wake p status dw0).pwr = s.pwr :=
  keeps_pwr (State.forget_wake (T := 0x480000420) rfl ..) rfl

theorem State.wake_cluster (s : State) (p : AdminFor → Bool) (status dw0 n : Nat) : (s.wake p status dw0).cluster n = s.cluster n := by
  rw [State.cluster, keeps_clusters (State.forget_wake (T := 0x480000420) rfl ..) rfl, State.cluster]

theorem State.restartEnds_fw (s : State) : s.restartEnds.pwr.fw = { s.pwr.fw with restart := [] } := by
  have hfold (cs : List (Fin 72)) (t : State) : (cs.foldl State.startSystem t).pwr = t.pwr := by
    induction cs generalizing t with
    | nil => rfl
    | cons k cs ih => exact (ih _).trans (keeps_pwr (State.forget_startSystem (T := 0x1000004) rfl ..) rfl)
  simp only [State.restartEnds, State.setPwr_pwr, hfold]

theorem State.startHalf_pwr (s : State) (run : Nat) : (s.startHalf run).pwr = s.pwr := keeps_pwr (State.forget_startHalf (T := 0x1000004) rfl ..) rfl

/-- A completion leaves every page but those of FAULT and HOSTQ. -/
theorem State.completeAdmin_get_of_page (s : State) (c : Cmd) (status dw0 dw1 : Nat) {x : Fld} (hf : x.page ≠ 0x08) (hh : x.page ≠ 0xB0) :
    (s.completeAdmin c status dw0 dw1).get x = s.get x := by
  rw [State.completeAdmin, State.post_get]
  split
  · rfl
  · rw [State.commandError, State.record_get_of_page _ hf, State.get_bump_of_page _ _ (beq_eq_false_iff_ne.mpr hh), State.setHost_get]

theorem State.wake_get_of_page (s : State) (p : AdminFor → Bool) (status dw0 : Nat) {x : Fld} (hf : x.page ≠ 0x08) (hh : x.page ≠ 0xB0) :
    (s.wake p status dw0).get x = s.get x := by
  have hfold (l : List (Cmd × AdminFor)) (t : State) : (l.foldl (fun t w => t.completeAdmin w.1 status dw0) t).get x = t.get x := by
    induction l generalizing t with
    | nil => rfl
    | cons w l ih => exact (ih _).trans (State.completeAdmin_get_of_page _ _ _ _ _ hf hh)
  exact hfold ..

theorem State.setFw_fw (s : State) (f : FwSt → FwSt) : (s.setFw f).pwr.fw = f s.pwr.fw := rfl

theorem State.fetchResumes_fw (s : State) : s.fetchResumes.pwr.fw = { s.pwr.fw with inHandover := false } := rfl

/-- The first half's resumption (R332): cluster 0 is kept and takes up the image's microcode. -/
theorem exec_handoverResume_first {img : Bytes} (hu : s.pwr.fw.update = some (img, 1)) (hh : s.pwr.fw.inHandover = true) :
    exec .handoverResume s = .next (((((s.restartEnds.setFw fun f => { f with oldCluster := some (s.cluster 0) }).startHalf 1).freeCluster0).fetchResumes).setFw
      fun f => { f with update := some (img, 2) }) := by
  change execHandoverResume s = _
  simp only [execHandoverResume, State.handing, hu, hh, Bool.true_or, Bool.not_true, Bool.false_eq_true, if_false, if_true]

theorem State.resumedFirst_core (s : State) (f g : FwSt → FwSt) :
    (((((s.restartEnds.setFw f).startHalf 1).freeCluster0).fetchResumes).setFw g).cores[c] = ((s.restartEnds.setFw f).startHalf 1).cores[c] :=
  State.core_of_cores c ((keeps_cores (State.forget_setFw (T := 0x10000000) rfl ..) rfl).trans
    ((keeps_cores (State.forget_fetchResumes (T := 0x10000000) rfl _) rfl).trans (keeps_cores (State.forget_freeCluster0 (T := 0x2000004) rfl _) rfl)))

/-- The second half's resumption ends the update. -/
theorem exec_handoverResume_second {img : Bytes} (hu : s.pwr.fw.update = some (img, 2)) (hh : s.pwr.fw.inHandover = true) :
    exec .handoverResume s = .next (((((s.restartEnds.startHalf 2).newMonitor).fetchResumes).setFw fun f =>
      { f with update := none, running := some img, region := List.replicate 3 (some img), oldCluster := none }).wake (· == .update) Nv.ok) := by
  change execHandoverResume s = _
  simp only [execHandoverResume, State.handing, hu, hh, Bool.true_or, Bool.not_true, Bool.false_eq_true, if_false, if_neg (by decide : ¬ (2 : Nat) = 1)]

theorem State.restarted_clusters (s : State) {f : FwSt → FwSt} :
    (((((s.restartEnds.startHalf 2).newMonitor).fetchResumes).setFw f)).clusters = s.clusters :=
  (keeps_clusters (State.forget_setFw (T := 0x10000000) rfl ..) rfl).trans ((keeps_clusters (State.forget_fetchResumes (T := 0x10000000) rfl _) rfl).trans
    ((keeps_clusters (State.forget_newMonitor (T := 0x10000004) rfl _) rfl).trans ((keeps_clusters (State.forget_startHalf (T := 0x1000004) rfl ..) rfl).trans
      (keeps_clusters (State.forget_restartEnds (T := 0x11000004) rfl s) rfl))))

/-- The halves that ran the new image, started again with the old one. -/
def State.restarted (s : State) (run : Nat) : State :=
  if run = 2 then (s.restartEnds.startHalf run).startHalf 1 else s.restartEnds.startHalf run

/-- The old microcode of cluster 0 and the old image in every copy of the boot region. -/
def State.restored (u : State) : State :=
  (match u.pwr.fw.oldCluster with | some q => { u with clusters := u.clusters.set 0 q } | none => u).fetchResumes.setFw fun f =>
    { f with update := none, nextSlot := none, oldCluster := none, region := List.replicate 3 f.running }

theorem State.restarted_fw (s : State) (run : Nat) : (s.restarted run).pwr.fw = { s.pwr.fw with restart := [] } := by
  rw [State.restarted]
  split
  · rw [State.startHalf_pwr, State.startHalf_pwr, State.restartEnds_fw]
  · rw [State.startHalf_pwr, State.restartEnds_fw]

theorem State.restarted_get (s : State) (run : Nat) (x : Fld) : (s.restarted run).get x = s.get x := by
  have hhalf (t : State) (n : Nat) : (t.startHalf n).get x = t.get x :=
    State.get_of_regs (keeps_regs (State.forget_startHalf (T := 0x1000004) rfl ..) rfl) x
  have hre : s.restartEnds.get x = s.get x := State.get_of_regs (keeps_regs (State.forget_restartEnds (T := 0x11000004) rfl ..) rfl) x
  rw [State.restarted]
  split
  · rw [hhalf, hhalf, hre]
  · rw [hhalf, hre]

theorem State.restored_spec (u : State) : u.restored.pwr.fw = { u.pwr.fw with
      inHandover := false, update := none, nextSlot := none, oldCluster := none, region := List.replicate 3 u.pwr.fw.running }
    ∧ (∀ q : Cluster, u.pwr.fw.oldCluster = some q → u.restored.cluster 0 = q) ∧ ∀ x, u.restored.get x = u.get x := by
  cases hq : u.pwr.fw.oldCluster with
  | none =>
    simp only [State.restored, hq]
    exact ⟨rfl, fun q h => (Option.some_ne_none q h.symm).elim, fun x => rfl⟩
  | some q' =>
    simp only [State.restored, hq]
    refine ⟨rfl, fun q h => ?_, fun x => rfl⟩
    cases h
    exact State.cluster_set (q := 0) q' u

/-- A rollback takes up the old image again (R332). -/
theorem exec_crookUpdateRollback {img : Bytes} {run : Nat} (hu : s.pwr.fw.update = some (img, run)) (hh : s.pwr.fw.inHandover = true) :
    exec .crookUpdateRollback s =
      .next (((s.restarted run).restored.record 0x100 E.CROOK_UPDATE_ROLLBACK (crookInfo 0 0x1F0)).wake (· == .update) Nv.internal) := by
  change execCrookUpdateRollback s = _
  simp only [execCrookUpdateRollback, hu, hh, Bool.not_true, Bool.false_eq_true, if_false] <;> rfl

end

theorem exec_firmwareCommit_of_accepted {s u : State} {c : Cmd} {slot : Nat} (ha : s.adminReady c.fn = true) (hs : slot = 1 ∨ slot = 2)
    (hu : s.pwr.fw.update = none) (hb : s.pwr.fw.bufLen ≠ 0) (hv : s.verifyImage s.pwr.fw.image 0 0 = (true, u)) :
    (∃ t : State, exec (.firmwareCommit c slot 0) s = .next t ∧ assoc t.pwr.fw.slots slot = some s.pwr.fw.image ∧ t.pwr.fw.nextSlot = s.pwr.fw.nextSlot
      ∧ (⟨c.fn, 0, 0, c.cid, Nv.ok, 0, 0⟩ : Cqe) ∈ t.host.cqes)
    ∧ (∃ t : State, exec (.firmwareCommit c slot 1) s = .next t ∧ assoc t.pwr.fw.slots slot = some s.pwr.fw.image ∧ t.pwr.fw.nextSlot = some slot
      ∧ t.pwr.fw.region = some s.pwr.fw.image :: s.pwr.fw.region.drop 1 ∧ (⟨c.fn, 0, 0, c.cid, Nv.needsReset, 0, 0⟩ : Cqe) ∈ t.host.cqes)
    ∧ (∀ old : Bytes, s.pwr.fw.running = some old → sliceBytes old 16 4 = sliceBytes s.pwr.fw.image 16 4 →
      ∃ t : State, exec (.firmwareCommit c slot 3) s = .next t ∧ t.pwr.fw.update = some (s.pwr.fw.image, 1) ∧ t.pwr.fw.inHandover = false
        ∧ t.pwr.fw.region = some s.pwr.fw.image :: s.pwr.fw.region.drop 1
        ∧ (c, AdminFor.update) ∈ t.host.waiting) := by
  have hc0 := exec_firmwareCommit (action := 0) (c := c) ha hs (by decide) hu
  have hc1 := exec_firmwareCommit (action := 1) (c := c) ha hs (by decide) hu
  have hc3 := exec_firmwareCommit (action := 3) (c := c) ha hs (by decide) hu
  have hp := congrArg PwrSt.fw (State.verified_pwr (c := c) hv 0 slot s.pwr.fw.image)
  refine ⟨⟨_, hc0.trans (congrArg Host.Outcome.next (State.commit_of_accepted hs hb hv (by decide))), ?_⟩,
    ⟨_, hc1.trans (congrArg Host.Outcome.next (State.commit_of_accepted hs hb hv (by decide))), ?_⟩, fun old hr hfmt =>
    ⟨_, hc3.trans (congrArg Host.Outcome.next (State.commit_of_accepted hs hb hv (by decide))), ?_⟩⟩
  · refine ⟨?_, ?_, State.mem_completeAdmin_cqes ..⟩
    · change assoc (State.completeAdmin _ c Nv.ok).pwr.fw.slots slot = _
      rw [State.completeAdmin_pwr, State.stored_fw, assoc_assocSet_same]
    · change (State.completeAdmin _ c Nv.ok).pwr.fw.nextSlot = _
      rw [State.completeAdmin_pwr, State.stored_fw, hp]
  · refine ⟨?_, ?_, ?_, State.mem_completeAdmin_cqes ..⟩
    · change assoc (State.completeAdmin _ c Nv.needsReset).pwr.fw.slots slot = _
      rw [State.completeAdmin_pwr, State.atNextReset_fw, State.stored_fw, assoc_assocSet_same]
    · change (State.completeAdmin _ c Nv.needsReset).pwr.fw.nextSlot = _
      rw [State.completeAdmin_pwr, State.atNextReset_fw]
    · change (State.completeAdmin _ c Nv.needsReset).pwr.fw.region = _
      rw [State.completeAdmin_pwr, State.atNextReset_fw, State.stored_fw, hp]
  · simp only [hr, hfmt, if_true]
    refine ⟨rfl, rfl, ?_, List.mem_append_right _ List.mem_cons_self⟩
    change (State.stage _ slot _).pwr.fw.region = _
    rw [State.stage_fw, State.stored_fw, hp]

theorem exec_firmwareCommit_of_rejected {s u : State} {c : Cmd} {slot : Nat} {action : BitVec 3} (ha : s.adminReady c.fn = true)
    (hs : slot = 1 ∨ slot = 2) (hact : action.toNat ≤ 1) (hu : s.pwr.fw.update = none) (hb : s.pwr.fw.bufLen ≠ 0)
    (hv : s.verifyImage s.pwr.fw.image 0 0 = (false, u)) :
    ∃ t : State, exec (.firmwareCommit c slot action) s = .next t ∧ t.pwr.fw.update = none ∧ t.pwr.fw.running = s.pwr.fw.running
      ∧ (action = 0 → t.pwr.fw.slots = s.pwr.fw.slots ∧ t.pwr.fw.region = s.pwr.fw.region)
      ∧ (action = 1 → t.pwr.fw.nextSlot = some slot ∧ t.pwr.fw.region = some s.pwr.fw.image :: s.pwr.fw.region.drop 1)
      ∧ (⟨c.fn, 0, 0, c.cid, Nv.badImage, 0, 0⟩ : Cqe) ∈ t.host.cqes := by
  have hne : action.toNat ≠ 2 := by omega
  have hp := congrArg PwrSt.fw (State.verified_pwr (c := c) hv 1 slot s.pwr.fw.image)
  have href := congrArg PwrSt.fw (State.refuseUpdate_pwr (u.logCommit c 1 slot s.pwr.fw.image))
  refine ⟨_, (exec_firmwareCommit ha hs (by omega) hu).trans (congrArg Host.Outcome.next (State.commit_of_rejected hs hb hv hne)), ?_⟩
  rw [State.completeAdmin_pwr]
  refine ⟨?_, ?_, ?_, ?_, State.mem_completeAdmin_cqes ..⟩
  · split
    · rw [href, hp, hu]
    · rw [State.atNextReset_fw, State.stored_fw, href, hp, hu]
  · split
    · rw [href, hp]
    · rw [State.atNextReset_fw, State.stored_fw, href, hp]
  · rintro rfl
    rw [if_pos (by decide), href, hp]
    exact ⟨rfl, rfl⟩
  · rintro rfl
    rw [if_neg (by decide), State.atNextReset_fw, State.stored_fw, href, hp]
    exact ⟨rfl, rfl⟩

/-- A handover that begins parks a half and pauses fetch (R332). -/
theorem exec_firmwareHandover {s : State} {img : Bytes} {run : Nat} (hu : s.pwr.fw.update = some (img, run)) (hh : s.handing = false) :
    ∃ t : State, exec .firmwareHandover s = .next t ∧ t.pwr.fw.inHandover = true
      ∧ ∀ c : Fin 72, c ∈ halfOf run → s.cores[c].state = .running → t.cores[c].state = .parked := by
  refine ⟨((halfOf run).foldl (fun t c => t.parkCore c .handover) (s.setFw fun f => { f with inHandover := true })).transferState, ?_, ?_, fun c hc hrun => ?_⟩
  · change execFirmwareHandover s = _
    simp only [execFirmwareHandover, hu, hh, Bool.false_eq_true, if_false]
  · have hpark (cs : List (Fin 72)) (t : State) : (cs.foldl (fun t c => t.parkCore c .handover) t).pwr = t.pwr := by
      induction cs generalizing t with
      | nil => rfl
      | cons k cs ih => exact (ih _).trans (keeps_pwr (State.forget_parkCore (T := 0x481400024) rfl ..) rfl)
    exact congrArg (fun p : PwrSt => p.fw.inHandover) (hpark ..)
  · exact State.foldl_parkCore .handover _ hc hrun

/-- Settles O34: download, commit by its two verdicts, and the steps of the handover. -/
theorem firmwareUpdates : Obligations.FirmwareUpdates := by
  unfold Obligations.FirmwareUpdates
  refine ⟨fun s c off d ha hlen hd => ⟨_, exec_firmwareImageDownload ha hlen hd, State.mem_completeAdmin_cqes .., ?_, ?_, ?_⟩, ?_, ?_, ?_, ?_, ?_, ?_⟩
  · rw [State.completeAdmin_pwr]; rfl
  · intro i hi
    rw [State.completeAdmin_pwr]
    exact assoc_foldl_assocSet d off 0 _ hi
  · intro j hj
    rw [State.completeAdmin_pwr]
    exact assoc_foldl_assocSet_other d off 0 _ hj
  · rintro s u c slot img ha hs hu hb rfl hv
    exact exec_firmwareCommit_of_accepted ha hs hu hb hv
  · exact fun s u c slot action ha hs hact hu hb hv => exec_firmwareCommit_of_rejected ha hs hact hu hb hv
  · exact fun s img run hu hh => exec_firmwareHandover hu hh
  · intro s img hu hh
    refine ⟨_, exec_handoverResume_first hu hh, ?_, ?_, fun c hc hst => ?_⟩
    · rw [State.setFw_fw, State.fetchResumes_fw]
    · rw [State.setFw_fw]
    · rw [State.resumedFirst_core]
      exact State.startHalf_core (s := s.restartEnds.setFw _) (State.restartEnds_core hst) hc
  · intro s img hu hh
    refine ⟨_, exec_handoverResume_second hu hh, ?_, ?_, ?_, ?_, ?_⟩
    · rw [State.wake_pwr, State.setFw_fw, State.fetchResumes_fw]
    · rw [State.wake_pwr, State.setFw_fw]
    · rw [State.wake_pwr, State.setFw_fw]
    · rw [State.wake_pwr, State.setFw_fw]
      rfl
    · exact (keeps_clusters (State.forget_wake (T := 0x480000420) rfl ..) rfl).trans s.restarted_clusters
  · intro s img run hu hh
    obtain ⟨hfw, hcl, hget⟩ := (s.restarted run).restored_spec
    rw [s.restarted_fw run] at hfw hcl
    refine ⟨_, exec_crookUpdateRollback hu hh, ?_, ?_, ?_, ?_, fun q hq => ?_, fun hv => ?_⟩
    · rw [State.wake_pwr, State.record_pwr, hfw]
    · rw [State.wake_pwr, State.record_pwr, hfw]
    · rw [State.wake_pwr, State.record_pwr, hfw]
    · rw [State.wake_pwr, State.record_pwr, hfw]
    · rw [State.wake_cluster, State.cluster, State.record_clusters]
      exact hcl q hq
    · rw [State.wake_get_of_page _ _ _ _ (by decide) (by decide)]
      exact (State.record_get_CODE ((hget _).trans ((s.restarted_get run _).trans hv)) ..).trans rfl

end Sys2Proof.Machine
end

section
/-!
The checked search (R392, R393): what it reports beside a winner.
-/

namespace Sys2Proof.Machine

theorem State.mem_matches_iff {s : State} {n : Nat} {key mask : List Nat} {skip : List (Nat × Nat)} {w : Nat × Nat × EEnt} :
    w ∈ s.matches n key mask skip ↔
      w.1 ∈ s.tableBanks n ∧ (w.2.1, w.2.2) ∈ (s.bank w.1).array ∧ w.2.2.hits key mask = true ∧ (w.1, w.2.1) ∉ skip := by
  obtain ⟨b, i, e⟩ := w
  simp only [State.matches, List.mem_flatMap, List.mem_filterMap, Option.ite_none_right_eq_some, Option.some.injEq, Prod.mk.injEq,
    Bool.and_eq_true, Bool.not_eq_true', List.contains_eq_mem, decide_eq_false_iff_not]
  constructor
  · rintro ⟨_, hb, ⟨_, _⟩, hmem, ⟨hhit, hskip⟩, rfl, rfl, rfl⟩
    exact ⟨hb, hmem, hhit, hskip⟩
  · rintro ⟨hb, hmem, hhit, hskip⟩
    exact ⟨b, hb, (i, e), hmem, ⟨hhit, hskip⟩, rfl, rfl, rfl⟩

/-- What a winner and its verification mean in the state `t` in which the search ends. -/
def CheckedHit (n : Nat) (key mask : List Nat) (skip : List (Nat × Nat)) (t : State) (w : Nat × Nat × EEnt) (ms : List (Nat × Nat × EEnt))
    (v : Bool) : Prop :=
  winner ms = some w ∧ ms = t.matches n key mask skip
    ∧ (v = true → w.2.2 = entAt (t.bank w.1).shadow (t.bankWidth w.1) w.2.1 ∧ t.pendingWrite w.1 w.2.1 = none)
    ∧ (v = false → t.pendingWrite w.1 w.2.1 ≠ none)

/-- Every round either ends with such a winner or goes on to the next round. -/
theorem State.checkedSearch_hit (n : Nat) (key mask : List Nat) (skip : List (Nat × Nat)) (fuel : Nat) :
    ∀ (again : Nat) (rep : Bool) (s t : State) (w : Nat × Nat × EEnt) (ms : List (Nat × Nat × EEnt)) (r v : Bool),
      State.checkedSearch n key mask skip fuel again rep s = (some (w, ms, r, v), t) → CheckedHit n key mask skip t w ms v := by
  induction fuel with
  | zero => intro again rep s t w ms r v h; simp [State.checkedSearch] at h
  | succ fuel ih =>
    intro again rep s t w ms r v h
    rw [State.checkedSearch] at h
    cases hw : winner (s.matches n key mask skip) with
    | none => simp [hw] at h
    | some x =>
      cases hp : s.pendingWrite x.1 x.2.1 with
      | some j =>
        simp only [hw, hp] at h
        split at h
        · cases h
          exact ⟨hw, rfl, fun h => (by cases h), fun _ => by simp [hp]⟩
        · exact ih _ _ _ _ _ _ _ _ h
      | none =>
        simp only [hw, hp] at h
        split at h
        next hsh =>
          cases h
          exact ⟨hw, rfl, fun _ => ⟨hsh.symm, hp⟩, fun h => (by cases h)⟩
        · exact ih _ _ _ _ _ _ _ _ h

/-- Settles O37: the winner of a round is one of its matches, and the round ends only on the shadow's word or with a write pending. -/
theorem checkedSearchAgreesWithTheShadow : Obligations.CheckedSearchAgreesWithTheShadow := by
  intro s t n fuel again key mask skip rep r v w ms h
  obtain ⟨hw, hms, hv, hu⟩ := State.checkedSearch_hit n key mask skip fuel again rep s t w ms r v h
  obtain ⟨-, -, hhit, hskip⟩ := State.mem_matches_iff.mp (hms ▸ winner_mem hw)
  exact ⟨hhit, hskip, hms, hv, hu⟩

end Sys2Proof.Machine
end

section
/-!
Earmark jobs of one item, their completion, BANK_CFG and the scrubber (R380, R384-R394).
-/

namespace Sys2Proof.Machine

open Sys2Proof.Laws

/-! ### A job from its front to its record -/

section
variable {s : State} {src : JobSrc} {j : Job} {op : Nat} {step : Job → EarRun → Nat → EarRun}

/-- The record of an Earmark job that has ended. -/
def earDone (j : Job) (st items hits repairs : Nat) : JobDone :=
  ⟨j, st, if descN j.desc 40 8 % 32 = 0 then descN j.desc 40 8 else 0, earRecord (descN j.desc 8 4) st items hits repairs, 0⟩

theorem State.earJob_of_refused {st : Nat} (hj : s.jobFor src 1 op 5 = some j) (hb : s.earBegun j.id = false)
    (hr : (s.takeJob j.id).earRefusal j = some st) :
    s.earJob src op step = ((s.takeJob j.id).earErr j st).finishJob (earDone j st 0 0 0) := by
  have hb' : (s.takeJob j.id).earBegun j.id = false := hb
  simp only [State.earJob, hj, hb', Bool.false_eq_true, if_false, hr, earDone]

theorem State.tableRetired_of_admitted (hr : s.earRefusal j = none) : s.tableRetired (descN j.desc 2 1) = false := by
  unfold State.earRefusal at hr
  dsimp only at hr
  split at hr
  · cases hr
  · split at hr
    · cases hr
    next h => simpa using h

/-- A job of one item that is admitted ends with what its item leaves. -/
theorem State.earJob_of_one {r : EarRun} (hj : s.jobFor src 1 op 5 = some j) (hb : s.earBegun j.id = false)
    (hr : (s.takeJob j.id).earRefusal j = none) (hone : descN j.desc 4 4 = 1) (hstep : step j ⟨s.takeJob j.id, 0, 0, 0, none⟩ 0 = r)
    (hstop : r.stop = none) : s.earJob src op step = (r.s.endRun j.id).finishJob (earDone j 0 r.items r.hits r.repairs) := by
  have hb' : (s.takeJob j.id).earBegun j.id = false := hb
  have hrun : (s.takeJob j.id).earRun j.id = ⟨s.takeJob j.id, 0, 0, 0, none⟩ := by
    have hnone : (s.takeJob j.id).ear.runs.find? (·.job == j.id) = none := by
      rw [List.find?_eq_none]
      exact fun p hp hpj => absurd hb (by rw [State.earBegun, Bool.not_eq_false]; exact List.any_eq_true.mpr ⟨p, hp, hpj⟩)
    simp only [State.earRun, hnone]
  have hitem : EarRun.items_ j (step j) 1 ⟨s.takeJob j.id, 0, 0, 0, none⟩ = r := by
    have hret := State.tableRetired_of_admitted hr
    simp only [EarRun.items_, Nat.sub_zero, List.range_one, List.foldl_cons, List.foldl_nil, EarRun.item, Option.isSome_none, hret, Bool.false_eq_true, if_false]
    exact hstep
  have herr (t : State) : t.earErr j 0 = t := rfl
  simp only [State.earJob, hj, hb', Bool.false_eq_true, if_false, hr, hone, hrun, hitem, hstop, Option.getD_none, herr, earDone]

theorem State.finishJob_jobs (t : State) (d : JobDone) : (t.finishJob d).jobs = { t.jobs with finished := t.jobs.finished ++ [d] } := rfl

theorem State.takeJob_gone (id : Nat) : ∀ k ∈ (s.takeJob id).jobs.queue, k.id ≠ id := fun k hk => by
  simpa using (List.mem_filter.mp hk).2

@[simp] theorem State.earErr_ear (t : State) (j : Job) (st : Nat) : (t.earErr j st).ear = t.ear :=
  keeps_ear (State.forget_earErr (T := 0x480000420) rfl ..) rfl

@[simp] theorem State.earErr_mem (t : State) (j : Job) (st : Nat) : (t.earErr j st).mem = t.mem :=
  keeps_mem (State.forget_earErr (T := 0x480000420) rfl ..) rfl

@[simp] theorem State.earErr_jobs (t : State) (j : Job) (st : Nat) : (t.earErr j st).jobs = t.jobs :=
  keeps_jobs (State.forget_earErr (T := 0x480000420) rfl ..) rfl

end

/-! ### One search -/

section
variable {s : State} {n : Nat} {key mask : List Nat}

/-- What a search answers depends on the banks and their configuration only. -/
theorem State.search1_fst (s : State) (n : Nat) (key mask : List Nat) : (s.search1 n key mask [] false).1 =
    ((winner (s.matches n key mask [])).map fun w => resultWord w (s.matches n key mask []) false false).getD 0 := by
  cases hw : winner (s.matches n key mask []) with
  | none => rw [(State.search1_of_no_match (winner_eq_none_iff.mp hw)).1, Option.map_none, Option.getD_none]
  | some w => rw [(State.search1_of_winner hw).1, Option.map_some, Option.getD_some]

/-- The result word of an unchecked search is odd with the REPAIRED bit clear (R383). -/
theorem resultWord_false_bits (w : Nat × Nat × EEnt) (ms : List (Nat × Nat × EEnt)) :
    b2n (resultWord w ms false false % 2 == 1) = resultWord w ms false false % 2 ∧ bitAt (resultWord w ms false false) 3 = false := by
  generalize hr : resultWord w ms false false = r
  unfold resultWord at hr
  have hb := b2n_lt_two (decide (2 ≤ ms.length))
  have hf : b2n false = 0 := rfl
  dsimp only at hr
  generalize b2n (decide (2 ≤ ms.length)) = many at hr hb
  generalize min _ 15 = ties at hr
  rw [hf] at hr
  have hodd : r % 2 = 1 := by omega
  refine ⟨by rw [hodd]; rfl, ?_⟩
  simp only [bitAt, beq_eq_false_iff_ne]
  omega

/-- A search result is 0, or an odd word with the REPAIRED bit clear. -/
theorem State.search1_bits (s : State) (n : Nat) (key mask : List Nat) :
    b2n ((s.search1 n key mask [] false).1 % 2 == 1) = (s.search1 n key mask [] false).1 % 2 ∧ bitAt (s.search1 n key mask [] false).1 3 = false := by
  cases hw : winner (s.matches n key mask []) with
  | none =>
    rw [(State.search1_of_no_match (winner_eq_none_iff.mp hw)).1]
    exact ⟨rfl, rfl⟩
  | some w =>
    rw [(State.search1_of_winner hw).1]
    exact resultWord_false_bits ..

/-- An unchecked search changes counts and the index' last searches only. -/
theorem State.search1_keeps (s : State) (n : Nat) (key mask : List Nat) :
    forget 0x20000020 (s.search1 n key mask [] false).2.2 = forget 0x20000020 s
      ∧ (s.search1 n key mask [] false).2.2.ear.banks = s.ear.banks
      ∧ ∀ x : Fld, x.off < 0x050 → (s.search1 n key mask [] false).2.2.get x = s.get x := by
  have hc : forget 0x20000020 (s.countSearch n) = forget 0x20000020 s := State.forget_countSearch rfl ..
  have hce : (s.countSearch n).ear = s.ear := keeps_ear (s.countSearch_frame n) rfl
  have hcg (x : Fld) (hx : x.off < 0x050) := s.countSearch_get_before_counts n hx
  cases hw : winner (s.matches n key mask []) with
  | none =>
    simp only [State.search1, State.countSearch_matches, Bool.false_eq_true, if_false, hw]
    exact ⟨hc, congrArg EarmarkSt.banks hce, hcg⟩
  | some w =>
    have hbump : forget 0x20000020 ((s.countSearch n).bump (R.BANK.HITS_COUNT w.1)) = forget 0x20000020 s :=
      (State.forget_bump rfl ..).trans hc
    have hget (x : Fld) (hx : x.off < 0x050) : ((s.countSearch n).bump (R.BANK.HITS_COUNT w.1)).get x = s.get x :=
      (State.get_bump_other _ _ (Fld.ne_of_off_lt (hx.trans (by decide : 0x050 < 0x060))).symm).trans (hcg x hx)
    simp only [State.search1, State.countSearch_matches, Bool.false_eq_true, if_false, hw]
    split
    · exact ⟨(State.forget_setEar rfl ..).trans hbump, by rw [State.setEar_ear, State.bump_ear, hce], hget⟩
    · exact ⟨hbump, by rw [State.bump_ear, hce], hget⟩

/-- A list of one unchecked search. -/
theorem listSearch_one (s : State) (n : Nat) (key mask : List Nat) :
    listSearch n key mask false 1 [] s = ([(s.search1 n key mask [] false).1], (s.search1 n key mask [] false).2.2) := by
  cases hw : winner (s.matches n key mask []) with
  | none =>
    have h2 : (s.search1 n key mask [] false).2.1 = none := by simp [State.search1, State.countSearch_matches, hw]
    have h1 : (s.search1 n key mask [] false).1 = 0 := by rw [State.search1_fst, hw]; rfl
    simp only [listSearch, h2, h1]
  | some w =>
    have h2 := (State.search1_of_winner hw).2
    simp only [listSearch, h2]

/-- The state that a search of a key leaves, its result word written to `pieces`. -/
def State.searched (s : State) (n : Nat) (key mask : List Nat) (func : Nat) (pieces : List (Nat × Nat)) : State :=
  { (s.search1 n key mask [] false).2.2 with
    mem := xwriteAux s.xlate func pieces (leBytes 8 (s.search1 n key mask [] false).1) s.mem }

/-- A key of an unchecked search with one result (R385, R386). -/
theorem EarRun.searchItem_of_one {j : Job} {bs : Bytes} (hread : s.xread j.func (descN j.desc 16 8) (8 * s.bankWidth (descN j.desc 2 1)) = .ok bs)
    (hret : s.tableRetired (descN j.desc 2 1) = false) (hfl : descN j.desc 1 1 = 0)
    (hw : xfault s.xlate j.func .w (piecesOf (descN j.desc 24 8) 8) = none) :
    EarRun.searchItem j 1 mask ⟨s, 0, 0, 0, none⟩ 0 = ⟨s.searched (descN j.desc 2 1) (wordsOf bs) mask j.func (piecesOf (descN j.desc 24 8) 8), 1,
      (s.search1 (descN j.desc 2 1) (wordsOf bs) mask [] false).1 % 2, 0, none⟩ := by
  obtain ⟨hframe, -, hget⟩ := s.search1_keeps (descN j.desc 2 1) (wordsOf bs) mask
  obtain ⟨hhit, hrep⟩ := s.search1_bits (descN j.desc 2 1) (wordsOf bs) mask
  have hchk : bitAt (descN j.desc 1 1) 0 = false := by rw [hfl]; rfl
  have htab : (s.search1 (descN j.desc 2 1) (wordsOf bs) mask [] false).2.2.tableRetired (descN j.desc 2 1) = false := by
    have hb (b : Nat) : (s.search1 (descN j.desc 2 1) (wordsOf bs) mask [] false).2.2.bankTable b = s.bankTable b := hget _ (by decide : 0x040 < 0x050)
    have hr (b : Nat) : (s.search1 (descN j.desc 2 1) (wordsOf bs) mask [] false).2.2.bankRetired b = s.bankRetired b := by
      rw [State.bankRetired, hget _ (by decide), State.bankRetired]
    simpa only [State.tableRetired, State.tableBanks, hb, funext hr] using hret
  have hx := keeps_xlate hframe rfl
  have hm := keeps_mem hframe rfl
  have hfetch (k : Bytes → EarRun) : EarRun.fetch ⟨s, 0, 0, 0, none⟩ j.func (descN j.desc 16 8) (8 * s.bankWidth (descN j.desc 2 1)) k = k bs := by
    simp only [EarRun.fetch, hread]
  have hwrite : (s.search1 (descN j.desc 2 1) (wordsOf bs) mask [] false).2.2.xwrite j.func (descN j.desc 24 8)
      (leBytes 8 (s.search1 (descN j.desc 2 1) (wordsOf bs) mask [] false).1) = .ok (s.searched (descN j.desc 2 1) (wordsOf bs) mask j.func
        (piecesOf (descN j.desc 24 8) 8)) := by
    simp only [State.xwrite, length_leBytes, hx, hw, hm, State.searched]
  simp only [EarRun.searchItem, Nat.mul_zero, Nat.add_zero, hfetch, hchk, listSearch_one, htab, Bool.false_eq_true, if_false, List.singleton_append,
    List.take_succ_cons, List.take_zero, List.flatMap_singleton, EarRun.put, hwrite, List.headD_cons, hhit, Nat.zero_add, List.filter_cons, hrep,
    List.filter_nil, List.length_nil]

end

/-! ### Entries of a bank -/

section
variable {s : State} {b e : Nat}

theorem assoc_filter_same (l : List (Nat × EEnt)) (i : Nat) : assoc (l.filter (·.1 != i)) i = none := by
  induction l with
  | nil => rfl
  | cons p l ih =>
    by_cases hp : p.1 = i
    · rwa [List.filter_cons_of_neg (by simp [hp])]
    · rw [List.filter_cons_of_pos (by simp [hp]), assoc, if_neg hp, ih]

theorem assoc_filter_other (l : List (Nat × EEnt)) {i k : Nat} (h : k ≠ i) : assoc (l.filter (·.1 != i)) k = assoc l k := by
  induction l with
  | nil => rfl
  | cons p l ih =>
    by_cases hp : p.1 = i
    · rw [List.filter_cons_of_neg (by simp [hp]), ih, assoc, if_neg (fun e => h (e.symm.trans hp))]
    · rw [List.filter_cons_of_pos (by simp [hp]), assoc, assoc, ih]

theorem entAt_entSet_same (l : List (Nat × EEnt)) (w i : Nat) (x : EEnt) : entAt (entSet l w i x) w i = x := by
  unfold entSet
  split
  next h =>
    rw [entAt, assoc_filter_same, h, Option.getD_none]
  next => rw [entAt, assoc_assocSet_same, Option.getD_some]

theorem entAt_entSet_other (l : List (Nat × EEnt)) (w : Nat) {i k : Nat} (x : EEnt) (h : k ≠ i) : entAt (entSet l w i x) w k = entAt l w k := by
  unfold entSet
  split
  · rw [entAt, assoc_filter_other l h, entAt]
  · rw [entAt, assoc_assocSet_other _ _ h, entAt]

/-- Writing an entry changes its bank's array and shadow there, and no other bank (R380). -/
theorem State.writeEnt_bank (s : State) {b : Nat} (i : Nat) (x : EEnt) (hb : b < s.ear.banks.length) :
    ((s.writeEnt b i x).bank b).array = entSet (s.bank b).array (s.bankWidth b) i (if x.valid then x else EEnt.zero (s.bankWidth b))
      ∧ ((s.writeEnt b i x).bank b).shadow = entSet (s.bank b).shadow (s.bankWidth b) i (if x.valid then x else EEnt.zero (s.bankWidth b))
      ∧ ∀ c, c ≠ b → (s.writeEnt b i x).bank c = s.bank c := by
  have hbank (c : Nat) : (s.writeEnt b i x).bank c = (modAt s.ear.banks b fun k =>
      { k with shadow := entSet k.shadow (s.bankWidth b) i (if x.valid then x else EEnt.zero (s.bankWidth b)),
               array := entSet k.array (s.bankWidth b) i (if x.valid then x else EEnt.zero (s.bankWidth b)) }).getD c ⟨[], [], []⟩ := rfl
  have hb0 : s.bank b = s.ear.banks[b] := by rw [State.bank, List.getD_eq_getElem _ _ hb]
  refine ⟨?_, ?_, fun c hc => ?_⟩
  · rw [hbank, List.getD_eq_getElem?_getD, modAt_getElem?, if_pos rfl, List.getElem?_eq_getElem hb, hb0]; rfl
  · rw [hbank, List.getD_eq_getElem?_getD, modAt_getElem?, if_pos rfl, List.getElem?_eq_getElem hb, hb0]; rfl
  · rw [hbank, List.getD_eq_getElem?_getD, modAt_getElem?, if_neg hc, State.bank, List.getD_eq_getElem?_getD]

end

/-! ### A record to write, an entry to invalidate, an entry to read -/

section
variable {s : State} {j : Job} {b e : Nat} {bs : Bytes}

theorem EarRun.fetch_of_read {r : EarRun} {func a n : Nat} (h : r.s.xread func a n = .ok bs) (k : Bytes → EarRun) : r.fetch func a n k = k bs := by
  simp only [EarRun.fetch, h]

theorem State.writeEnt_jobs (s : State) (b i : Nat) (x : EEnt) : (s.writeEnt b i x).jobs = s.jobs :=
  keeps_jobs (State.forget_writeEnt (T := 0x20000020) rfl ..) rfl

theorem State.writeEnt_mem (s : State) (b i : Nat) (x : EEnt) : (s.writeEnt b i x).mem = s.mem :=
  keeps_mem (State.forget_writeEnt (T := 0x20000020) rfl ..) rfl

/-- The entry that an array write record names (R387). -/
def recordEnt (w : Nat) (bs : Bytes) : EEnt :=
  ⟨(bs.getD 4 0).toNat % 16, bitAt (bs.getD 4 0).toNat 4, (wordsOf (bs.drop 8)).take w, (wordsOf (bs.drop 8)).drop w⟩

theorem recordEnt_kept (w : Nat) (bs : Bytes) : (if (recordEnt w bs).valid then recordEnt w bs else EEnt.zero w)
    = if bitAt (bs.getD 4 0).toNat 4 then ⟨(bs.getD 4 0).toNat % 16, true, (wordsOf (bs.drop 8)).take w, (wordsOf (bs.drop 8)).drop w⟩
      else EEnt.zero w := by
  unfold recordEnt
  cases bitAt (bs.getD 4 0).toNat 4 <;> rfl

theorem EarRun.writeItem_of_named (hread : s.xread j.func (descN j.desc 16 8) (8 + 16 * s.bankWidth (descN j.desc 2 1)) = .ok bs)
    (hent : s.entryId (descN j.desc 2 1) (leNat (bs.take 4)) = some (b, e)) :
    EarRun.writeItem j ⟨s, 0, 0, 0, none⟩ 0 = ⟨s.writeEnt b e (recordEnt (s.bankWidth (descN j.desc 2 1)) bs), 1, 0, 0, none⟩ := by
  unfold EarRun.writeItem
  dsimp only
  rw [Nat.mul_zero, Nat.add_zero, EarRun.fetch_of_read (r := ⟨s, 0, 0, 0, none⟩) hread, hent]
  rfl

theorem EarRun.invalidateItem_of_named (hread : s.xread j.func (descN j.desc 16 8) 4 = .ok bs)
    (hent : s.entryId (descN j.desc 2 1) (leNat bs) = some (b, e)) :
    EarRun.invalidateItem j ⟨s, 0, 0, 0, none⟩ 0 = ⟨s.writeEnt b e (EEnt.zero (s.bankWidth (descN j.desc 2 1))), 1, 0, 0, none⟩ := by
  unfold EarRun.invalidateItem
  dsimp only
  rw [Nat.mul_zero, Nat.add_zero, EarRun.fetch_of_read (r := ⟨s, 0, 0, 0, none⟩) hread, hent]

theorem length_entryRecord (w id : Nat) (x : EEnt) : (entryRecord w id x).length = 8 + 16 * w := by
  have hflat (l : List Nat) (f : Nat → Nat) : (l.flatMap fun i => leBytes 8 (f i)).length = 8 * l.length := by
    rw [List.length_flatMap]
    simp only [length_leBytes, List.map_const', List.sum_replicate, smul_eq_mul, Nat.mul_comm]
  simp only [entryRecord, List.length_append, length_leBytes, hflat, List.length_range]
  omega

/-- The state that a read of entry `e` of bank `b` leaves, its record written to `pieces`. -/
def State.entRead (s : State) (j : Job) (b e id w : Nat) : State :=
  { s with mem := xwriteAux s.xlate j.func (piecesOf (descN j.desc 24 8) (8 + 16 * w)) (entryRecord w id (entAt (s.bank b).shadow w e)) s.mem }

theorem EarRun.readItem_of_named (hread : s.xread j.func (descN j.desc 16 8) 4 = .ok bs)
    (hent : s.entryId (descN j.desc 2 1) (leNat bs) = some (b, e))
    (hw : xfault s.xlate j.func .w (piecesOf (descN j.desc 24 8) (8 + 16 * s.bankWidth (descN j.desc 2 1))) = none) :
    EarRun.readItem j ⟨s, 0, 0, 0, none⟩ 0
      = ⟨s.entRead j b e (leNat bs % 2 ^ 17) (s.bankWidth (descN j.desc 2 1)), 1, 0, 0, none⟩ := by
  unfold EarRun.readItem
  dsimp only
  rw [Nat.mul_zero, Nat.mul_zero, Nat.add_zero, Nat.add_zero, EarRun.fetch_of_read (r := ⟨s, 0, 0, 0, none⟩) hread, hent]
  simp only [EarRun.put, State.xwrite, length_entryRecord, hw, State.entRead]

theorem searchItems_of_unmasked {per : Job → Nat} {i k : Nat} {r : EarRun} (hfl : descN j.desc 1 1 = 0) (hper : per j = k) :
    searchItems per j r i = EarRun.searchItem j k (List.replicate (r.s.bankWidth (descN j.desc 2 1)) (2 ^ 64 - 1)) r i := by
  have hmask : bitAt (descN j.desc 1 1) 1 = false := by rw [hfl]; rfl
  simp only [searchItems, hmask, hper, Bool.false_eq_true, if_false]

/-- Ending a job that had not begun drops no run. -/
theorem State.endRun_ear (hb : s.earBegun j.id = false) : (s.endRun j.id).ear = s.ear := by
  have hall : s.ear.runs.filter (·.job != j.id) = s.ear.runs := List.filter_eq_self.mpr fun p hp => by
    simp only [State.earBegun, List.any_eq_false, beq_iff_eq] at hb
    simpa using hb p hp
  rw [State.endRun, State.setEar_ear, hall]

end

/-! ### The clauses -/

section
variable {s : State} {src : JobSrc} {j : Job} {n w b e : Nat} {bs : Bytes}

theorem earmarkJob_refused {st op : Nat} (hj : s.jobFor src 1 op 5 = some j) (hb : s.earBegun j.id = false)
    (hr : (s.takeJob j.id).earRefusal j = some st) :
    ∃ (t : State) (d : JobDone), (op = 1 → exec (.search src) s = .next t) ∧ (op = 2 → exec (.searchList src) s = .next t)
      ∧ (op = 3 → exec (.earmarkWrite src) s = .next t) ∧ (op = 4 → exec (.invalidate src) s = .next t)
      ∧ (op = 5 → exec (.earmarkRead src) s = .next t) ∧ t.jobs.finished = s.jobs.finished ++ [d] ∧ d.job = j ∧ d.status = st ∧ t.ear = s.ear
      ∧ t.mem = s.mem ∧ (∀ k ∈ t.jobs.queue, k.id ≠ j.id) := by
  have hend (step : Job → EarRun → Nat → EarRun) := State.earJob_of_refused (step := step) hj hb hr
  have hjobs := State.finishJob_jobs ((s.takeJob j.id).earErr j st) (earDone j st 0 0 0)
  rw [State.earErr_jobs] at hjobs
  refine ⟨((s.takeJob j.id).earErr j st).finishJob (earDone j st 0 0 0), earDone j st 0 0 0, ?_, ?_, ?_, ?_, ?_, by rw [hjobs]; rfl, rfl, rfl,
    State.earErr_ear .., State.earErr_mem .., by rw [hjobs]; exact State.takeJob_gone j.id⟩
  all_goals
    rintro rfl
    exact congrArg Host.Outcome.next (hend _)

theorem earmarkJob_search {op : Nat} (hop : op = 1 ∨ op = 2) (hb : s.earBegun j.id = false)
    (hj : s.jobFor src 1 op 5 = some j) (hr : (s.takeJob j.id).earRefusal j = none) (hone : descN j.desc 4 4 = 1) (hfl : descN j.desc 1 1 = 0)
    (hper : op = 2 → descN j.desc 3 1 = 1) (hn : n = descN j.desc 2 1) (hw : w = s.bankWidth n)
    (hread : s.xread j.func (descN j.desc 16 8) (8 * w) = .ok bs) (hput : xfault s.xlate j.func .w (piecesOf (descN j.desc 24 8) 8) = none) :
    ∃ (t : State) (d : JobDone) (r : Nat), (op = 1 → exec (.search src) s = .next t) ∧ (op = 2 → exec (.searchList src) s = .next t)
      ∧ r = (s.search1 n (wordsOf bs) (List.replicate w (2 ^ 64 - 1)) [] false).1
      ∧ t.mem = xwriteAux s.xlate j.func (piecesOf (descN j.desc 24 8) 8) (leBytes 8 r) s.mem
      ∧ t.jobs.finished = s.jobs.finished ++ [d] ∧ d.job = j ∧ d.status = 0
      ∧ d.record = earRecord (descN j.desc 8 4) 0 1 (r % 2) 0 ∧ t.ear.banks = s.ear.banks := by
  subst hn hw
  have hret := State.tableRetired_of_admitted hr
  have hitem (per : Job → Nat) (h1 : per j = 1) := (searchItems_of_unmasked (r := ⟨s.takeJob j.id, 0, 0, 0, none⟩) (i := 0) hfl h1).trans
    (EarRun.searchItem_of_one hread hret hfl hput)
  have hrun (per : Job → Nat) (h1 : per j = 1) := State.earJob_of_one hj hb hr hone (hitem per h1) rfl
  have hkeep := (s.takeJob j.id).search1_keeps (descN j.desc 2 1) (wordsOf bs) (List.replicate (s.bankWidth (descN j.desc 2 1)) (2 ^ 64 - 1))
  have hres : ((s.takeJob j.id).search1 (descN j.desc 2 1) (wordsOf bs) (List.replicate (s.bankWidth (descN j.desc 2 1)) (2 ^ 64 - 1)) [] false).1
      = (s.search1 (descN j.desc 2 1) (wordsOf bs) (List.replicate (s.bankWidth (descN j.desc 2 1)) (2 ^ 64 - 1)) [] false).1 := by
    rw [State.search1_fst, State.search1_fst]
    rfl
  obtain ⟨hframe, hbanks, -⟩ := hkeep
  have hjobs := congrArg (fun q : JobsSt => q.finished ++
    [earDone j 0 1 (((s.takeJob j.id).search1 (descN j.desc 2 1) (wordsOf bs)
      (List.replicate (s.bankWidth (descN j.desc 2 1)) (2 ^ 64 - 1)) [] false).1 % 2) 0]) (keeps_jobs hframe rfl)
  obtain rfl | rfl := hop
  · refine ⟨_, _, _, fun _ => congrArg Host.Outcome.next (hrun (fun _ => 1) rfl), fun h => absurd h (by decide), rfl, ?_, hjobs, rfl, rfl, ?_, hbanks⟩
    · rw [← hres]
      rfl
    · rw [← hres]
      rfl
  · refine ⟨_, _, _, fun h => absurd h (by decide), fun _ => congrArg Host.Outcome.next (hrun (fun j => descN j.desc 3 1) (hper rfl)), rfl, ?_, hjobs,
      rfl, rfl, ?_, hbanks⟩
    · rw [← hres]
      rfl
    · rw [← hres]
      rfl

theorem earmarkJob_write (hj : s.jobFor src 1 3 5 = some j) (hb : s.earBegun j.id = false) (hr : (s.takeJob j.id).earRefusal j = none)
    (hone : descN j.desc 4 4 = 1) (hn : n = descN j.desc 2 1) (hw : w = s.bankWidth n)
    (hread : s.xread j.func (descN j.desc 16 8) (8 + 16 * w) = .ok bs) (hent : s.entryId n (leNat (bs.take 4)) = some (b, e))
    (hlen : b < s.ear.banks.length) (hbw : s.bankWidth b = w) :
    ∃ (t : State) (d : JobDone) (x : EEnt), exec (.earmarkWrite src) s = .next t ∧ t.jobs.finished = s.jobs.finished ++ [d] ∧ d.status = 0
      ∧ x = (if bitAt (bs.getD 4 0).toNat 4 then ⟨(bs.getD 4 0).toNat % 16, true, (wordsOf (bs.drop 8)).take w, (wordsOf (bs.drop 8)).drop w⟩ else EEnt.zero w)
      ∧ entAt (t.bank b).array w e = x ∧ entAt (t.bank b).shadow w e = x
      ∧ (∀ i, i ≠ e → entAt (t.bank b).array w i = entAt (s.bank b).array w i)
      ∧ (∀ c, c ≠ b → t.bank c = s.bank c) ∧ t.mem = s.mem := by
  subst hn hw
  have hrun := State.earJob_of_one (step := fun j r i => r.writeItem j i) hj hb hr hone (EarRun.writeItem_of_named hread hent) rfl
  obtain ⟨harr, hsh, hoth⟩ := (s.takeJob j.id).writeEnt_bank e (recordEnt (s.bankWidth (descN j.desc 2 1)) bs) hlen
  have hwb : (s.takeJob j.id).bankWidth b = s.bankWidth (descN j.desc 2 1) := hbw
  rw [hwb] at harr hsh
  refine ⟨_, earDone j 0 1 0 0, _, congrArg Host.Outcome.next hrun, ?_, rfl, rfl, ?_, ?_, fun i hi => ?_, hoth, ?_⟩
  · have hjobs := congrArg JobsSt.finished ((s.takeJob j.id).writeEnt_jobs b e (recordEnt (s.bankWidth (descN j.desc 2 1)) bs))
    exact congrArg (· ++ _) hjobs
  · exact (congrArg (entAt · _ e) harr).trans ((entAt_entSet_same ..).trans (recordEnt_kept ..))
  · exact (congrArg (entAt · _ e) hsh).trans ((entAt_entSet_same ..).trans (recordEnt_kept ..))
  · exact (congrArg (entAt · _ i) harr).trans (entAt_entSet_other _ _ _ hi)
  · exact (s.takeJob j.id).writeEnt_mem b e (recordEnt (s.bankWidth (descN j.desc 2 1)) bs)

theorem earmarkJob_invalidate (hj : s.jobFor src 1 4 5 = some j) (hb : s.earBegun j.id = false) (hr : (s.takeJob j.id).earRefusal j = none)
    (hone : descN j.desc 4 4 = 1) (hn : n = descN j.desc 2 1) (hread : s.xread j.func (descN j.desc 16 8) 4 = .ok bs)
    (hent : s.entryId n (leNat bs) = some (b, e)) (hlen : b < s.ear.banks.length) (hbw : s.bankWidth b = s.bankWidth n) :
    ∃ (t : State) (d : JobDone), exec (.invalidate src) s = .next t ∧ t.jobs.finished = s.jobs.finished ++ [d] ∧ d.status = 0
      ∧ entAt (t.bank b).array (s.bankWidth b) e = EEnt.zero (s.bankWidth b) ∧ (∀ c, c ≠ b → t.bank c = s.bank c) ∧ t.mem = s.mem := by
  subst hn
  have hrun := State.earJob_of_one (step := fun j r i => r.invalidateItem j i) hj hb hr hone (EarRun.invalidateItem_of_named hread hent) rfl
  obtain ⟨harr, -, hoth⟩ := (s.takeJob j.id).writeEnt_bank e (EEnt.zero (s.bankWidth (descN j.desc 2 1))) hlen
  refine ⟨_, earDone j 0 1 0 0, congrArg Host.Outcome.next hrun, ?_, rfl, ?_, hoth, ?_⟩
  · have hjobs := congrArg JobsSt.finished ((s.takeJob j.id).writeEnt_jobs b e (EEnt.zero (s.bankWidth (descN j.desc 2 1))))
    exact congrArg (· ++ _) hjobs
  · exact (congrArg (entAt · _ e) harr).trans (entAt_entSet_same ..)
  · exact (s.takeJob j.id).writeEnt_mem b e (EEnt.zero (s.bankWidth (descN j.desc 2 1)))

theorem earmarkJob_read (hj : s.jobFor src 1 5 5 = some j) (hb : s.earBegun j.id = false) (hr : (s.takeJob j.id).earRefusal j = none)
    (hone : descN j.desc 4 4 = 1) (hn : n = descN j.desc 2 1) (hw : w = s.bankWidth n) (hread : s.xread j.func (descN j.desc 16 8) 4 = .ok bs)
    (hent : s.entryId n (leNat bs) = some (b, e)) (hput : xfault s.xlate j.func .w (piecesOf (descN j.desc 24 8) (8 + 16 * w)) = none) :
    ∃ (t : State) (d : JobDone), exec (.earmarkRead src) s = .next t ∧ t.jobs.finished = s.jobs.finished ++ [d] ∧ d.status = 0 ∧ t.ear = s.ear
      ∧ t.mem = xwriteAux s.xlate j.func (piecesOf (descN j.desc 24 8) (8 + 16 * w))
          (entryRecord w (leNat bs % 2 ^ 17) (entAt (s.bank b).shadow w e)) s.mem := by
  subst hn hw
  have hrun := State.earJob_of_one (step := fun j r i => r.readItem j i) hj hb hr hone (EarRun.readItem_of_named hread hent hput) rfl
  refine ⟨_, earDone j 0 1 0 0, congrArg Host.Outcome.next hrun, rfl, rfl, ?_, rfl⟩
  exact State.endRun_ear hb

end

/-! ### BANK_CFG and the scrubber -/

section
variable {s : State}

theorem bankCfg_role : ∀ b : Fin 32, needOf (rowsAt (0x40 + b.val) 0x040) = .none := by decide

theorem bankCfg_fields (w : BitVec 2) (tb : BitVec 5) (sh : Bool) : field (w.toNat + tb.toNat * 4 + b2n sh * 128) 0 2 = w.toNat
    ∧ field (w.toNat + tb.toNat * 4 + b2n sh * 128) 2 5 = tb.toNat ∧ bitAt (w.toNat + tb.toNat * 4 + b2n sh * 128) 7 = sh := by
  have hw := w.isLt
  have ht := tb.isLt
  have hs := b2n_lt_two sh
  refine ⟨?_, ?_, ?_⟩
  · unfold field
    omega
  · unfold field
    omega
  · have hbit : (w.toNat + tb.toNat * 4 + b2n sh * 128) / 2 ^ 7 % 2 = b2n sh := by omega
    rw [bitAt, hbit]
    cases sh <;> rfl

theorem State.clearBank_get (s : State) (b : Nat) {x : Fld} (h : x.off = 0x040) : (s.clearBank b).get x = s.get x := by
  rw [State.clearBank, State.pulse_get_beyond _ _ _ (by rw [h]; rfl)]
  exact State.get_put_of_place _ _ (by rw [h]; rfl)

theorem State.clearBank_bank (s : State) {b : Nat} (hb : b < s.ear.banks.length) :
    ((s.clearBank b).bank b).array = [] ∧ ((s.clearBank b).bank b).shadow = [] := by
  have hbank : (s.clearBank b).ear.banks = modAt s.ear.banks b fun k => { k with array := [], shadow := [] } :=
    congrArg EarmarkSt.banks (keeps_ear (State.forget_pulse (T := 0x480000020) rfl ..) rfl)
  simp only [State.bank, hbank, List.getD_eq_getElem?_getD, modAt_getElem?, if_pos, List.getElem?_eq_getElem hb, Option.map_some, Option.getD_some, and_self]


theorem State.setBankCfg_keeps {b width table : Nat} {share : Bool} (h : s.bankCfgChanges b width table = false) :
    (s.setBankCfg b width table share).ear = s.ear := by
  rw [State.setBankCfg, if_neg (by simp [h])]
  rfl

theorem State.setBankCfg_get (s : State) (b width table : Nat) (share : Bool) {x : Fld} (h : x.off = 0x040) :
    (s.setBankCfg b width table share).get x = (((s.put (R.BANK.BANK_CFG_WIDTH b) width).put (R.BANK.BANK_CFG_TABLE b) table).put
      (R.BANK.BANK_CFG_TRIG_SHARE b) (b2n share)).get x := by
  have hhead (t : State) (v : Nat) : (t.put (R.BANK.BANK_STATUS_HEAD b) v).get x = t.get x := State.get_put_of_place _ _ (by rw [h]; rfl)
  unfold State.setBankCfg
  dsimp only
  split
  · rw [State.clearBank_get _ _ h]
    exact hhead ..
  · exact hhead ..

theorem State.setBankCfg_takes (s : State) (b width table : Nat) (share : Bool) (hw : width < 4) (ht : table < 32) :
    (s.setBankCfg b width table share).get (R.BANK.BANK_CFG_WIDTH b) = width
      ∧ (s.setBankCfg b width table share).get (R.BANK.BANK_CFG_TABLE b) = table
      ∧ (s.setBankCfg b width table share).get (R.BANK.BANK_CFG_TRIG_SHARE b) = b2n share := by
  refine ⟨?_, ?_, ?_⟩
  · rw [State.setBankCfg_get _ _ _ _ _ rfl, State.get_put_of_place _ _ (by rfl), State.get_put_of_place _ _ (by rfl), State.get_put_same]
    exact Nat.mod_eq_of_lt hw
  · rw [State.setBankCfg_get _ _ _ _ _ rfl, State.get_put_of_place _ _ (by rfl), State.get_put_same]
    exact Nat.mod_eq_of_lt ht
  · rw [State.setBankCfg_get _ _ _ _ _ rfl, State.get_put_same]
    exact Nat.mod_eq_of_lt (b2n_lt_two share)

theorem State.setBankCfg_clears {b width table : Nat} {share : Bool} (h : s.bankCfgChanges b width table = true) (hb : b < s.ear.banks.length) :
    ((s.setBankCfg b width table share).bank b).array = [] ∧ ((s.setBankCfg b width table share).bank b).shadow = [] := by
  rw [State.setBankCfg, if_pos h]
  exact State.clearBank_bank _ hb

/-- A legal BANK_CFG write reaches its action, or its refusal where the bank may not take it. -/
theorem State.writeBankCfg_meets {o : Origin} {bank : Fin 32} {w : BitVec 2} (tb : BitVec 5) (sh : Bool) (hp : s.powered = true)
    (hr : s.reaches o (0x40 + bank.val) = true) (hw : w ≠ 3) : ∃ t : State, s.Accessed t ∧ exec (.bankCfgWrite o bank w tb sh) s = .next
      (if s.bankCfgBad o bank.val w.toNat tb.toNat then t.refuseBlock o (0x40 + bank.val) E.EARMARK_CONFIG_REFUSED (earInfo bank.val 0 (originFunc o))
        else t.setBankCfg bank.val w.toNat tb.toNat sh) := by
  have hl : (w.toNat != 3) = true := by
    rw [bne_iff_ne]
    exact fun h => hw (BitVec.eq_of_toNat_eq h)
  have hm : s.meets o (needOf (rowsAt (0x40 + bank.val) 0x040)) = true := by
    rw [bankCfg_role]
    rfl
  obtain ⟨hfw, hft, hfs⟩ := bankCfg_fields w tb sh
  obtain ⟨t, ht, h⟩ := State.regCmd_meets (v := w.toNat + tb.toNat * 4 + b2n sh * 128) (busy := s.bankCfgBad o bank.val w.toNat tb.toNat)
    (deny := fun t => t.refuseBlock o (0x40 + bank.val) E.EARMARK_CONFIG_REFUSED (earInfo bank.val 0 (originFunc o)))
    (act := fun t => t.setBankCfg bank.val w.toNat tb.toNat sh) hp hr hm hl
  refine ⟨t, ht, congrArg Host.Outcome.next ?_⟩
  rw [State.writeBankCfg, hfw, hft, hfs]
  exact h

/-- A scrub of one row of a bank of which array and shadow agree changes nothing. -/
theorem State.scrubRow_of_clean {b : Nat} (row : Nat) (h : (s.bank b).array = (s.bank b).shadow) : s.scrubRow row [] b = s := by
  unfold State.scrubRow
  rw [if_neg (by simp), h]
  exact if_pos rfl

theorem State.scrubRows_of_clean (row : Nat) {l : List Nat} (h : ∀ b ∈ l, (s.bank b).array = (s.bank b).shadow) :
    l.foldl (fun t b => t.scrubRow row [] b) s = s := by
  induction l with
  | nil => rfl
  | cons b l ih => rw [List.foldl_cons, State.scrubRow_of_clean row (h b List.mem_cons_self), ih fun c hc => h c (List.mem_cons_of_mem b hc)]

theorem State.earmarkScrub_of_clean (row : BitVec 12) (h : ∀ b < 32, (s.bank b).array = (s.bank b).shadow) :
    ∃ t : State, exec (.earmarkScrub row []) s = .next t ∧ t.ear = s.ear ∧ t.time = s.time + 12000
      ∧ t.get R.EARMARK.SCRUB_REPAIRS_COUNT = s.get R.EARMARK.SCRUB_REPAIRS_COUNT := by
  have hfold := State.scrubRows_of_clean (s := { s with time := s.time + 12000 }) row.toNat (l := List.range 32)
    fun b hb => h b (List.mem_range.mp hb)
  by_cases hr : row = 4095
  · refine ⟨({ s with time := s.time + 12000 }.bump R.EARMARK.SCRUB_PASSES_COUNT).pulse 0x30 Ev.EARMARK.SCRUB_PASS, ?_, ?_, ?_, ?_⟩
    · exact congrArg Host.Outcome.next (by rw [hfold, if_pos hr])
    · exact (keeps_ear (State.forget_pulse (T := 0x480000020) rfl ..) rfl :)
    · exact (keeps_time (State.forget_pulse (T := 0x480000020) rfl ..) rfl :)
    · rw [State.pulse_get_beyond _ _ _ rfl]
      exact State.get_put_of_place _ _ rfl
  · exact ⟨{ s with time := s.time + 12000 }, congrArg Host.Outcome.next (by rw [hfold, if_neg hr]), rfl, rfl, rfl⟩

end

theorem State.earmarkJobComplete_of_done {s : State} {d : JobDone} (hd : s.doneJob 1 = some d) :
    exec .earmarkJobComplete s = .next ((s.dropDone d).endJob d 0 fun t a =>
      (t.xlateFault d.job.func a 0 true false true).record 0x30 E.EARMARK_XLATE_FAULT (earInfo (descN d.job.desc 2 1) 0 d.job.func) d.job.func) := by
  show execEarmarkJobComplete s = _
  rw [execEarmarkJobComplete, hd]

/-- Settles O38, a clause for each kind of job of one item, one for the completion, and the bank registers and the scrubber. -/
theorem earmarkJobsRun : Obligations.EarmarkJobsRun := by
  refine ⟨fun s src j st op hj hb hr _ _ => earmarkJob_refused hj hb hr, fun s src j op n w bs hop hb hj hr _ => earmarkJob_search hop hb hj hr,
    fun s src j n w b e bs hj hb hr _ => earmarkJob_write hj hb hr, fun s src j n b e bs hj hb hr _ => earmarkJob_invalidate hj hb hr,
    fun s src j n w b e bs hj hb hr _ => earmarkJob_read hj hb hr, fun s d hd => ?_, fun s o bank w tb sh hp hr hw hbad => ?_,
    fun s o bank w tb sh hp hr hw hbad => ?_, fun s row => State.earmarkScrub_of_clean row⟩
  · have hrest (e : JobDone) (he : e ∈ (s.dropDone d).jobs.finished) : e.job.id ≠ d.job.id := by simpa using (List.mem_filter.mp he).2
    exact ⟨s.dropDone d, _, State.earmarkJobComplete_of_done hd, rfl, hrest⟩
  · obtain ⟨t, ht, h⟩ := State.writeBankCfg_meets tb sh hp hr hw
    rw [hbad, if_neg Bool.false_ne_true] at h
    have hch : t.bankCfgChanges bank.val w.toNat tb.toNat = s.bankCfgChanges bank.val w.toNat tb.toNat := by
      simp only [State.bankCfgChanges, State.bankTable, ht.get]
    have hear : t.ear = s.ear := keeps_ear ht.1 rfl
    obtain ⟨h1, h2, h3⟩ := t.setBankCfg_takes bank.val w.toNat tb.toNat sh w.isLt tb.isLt
    exact ⟨_, h, h1, h2, h3, fun hc hb => State.setBankCfg_clears (hch.trans hc) (by rwa [hear]),
      fun hc => (State.setBankCfg_keeps (hch.trans hc)).trans hear⟩
  · obtain ⟨t, ht, h⟩ := State.writeBankCfg_meets tb sh hp hr hw
    rw [hbad, if_pos rfl] at h
    exact ⟨_, h, (keeps_ear (State.forget_refuseBlock (T := 0x480000620) rfl ..) rfl).trans (keeps_ear ht.1 rfl), State.refuseBlock_refusal ..⟩

end Sys2Proof.Machine
end

section
/-!
The verdict of a comparison (R438): the comparators' values, the word and the byte, and a disagreement's count and record.
-/

namespace Sys2Proof.Machine

theorem comparator_of_no_flips (same : Bool) : comparator same 0 = if same then 0xA5 else 0x5A := by cases same <;> rfl

theorem verdictWord_of_bytes (a b : BitVec 8) : verdictWord a.toNat b.toNat =
    if a = b then a.toNat + (0xFF - a.toNat) * 2 ^ 8 + a.toNat * 2 ^ 16 + (0xFF - a.toNat) * 2 ^ 24 else 0 := by
  rw [verdictWord]
  by_cases h : a = b
  · subst h
    rw [if_pos rfl, if_pos rfl]
  · rw [if_neg h, if_neg (mt BitVec.eq_of_toNat_eq h)]

/-- The accepted word is read only where both comparators gave a match. -/
theorem verdictWord_accepts_iff (a b : BitVec 8) : verdictWord a.toNat b.toNat = 0x5AA55AA5 ↔ a = 0xA5 ∧ b = 0xA5 := by
  rw [verdictWord_of_bytes]
  have ha : a = 0xA5 ↔ a.toNat = 0xA5 := ⟨fun h => by rw [h]; rfl, fun h => BitVec.eq_of_toNat_eq h⟩
  split
  next h =>
    subst h
    have hlt := a.isLt
    rw [and_self, ha]
    omega
  next h => exact iff_of_false (by decide) fun ⟨ha, hb⟩ => h (ha.trans hb.symm)

theorem verdictByte_of_fault {a b : BitVec 8} (h : a ≠ b ∨ (a ≠ 0xA5 ∧ a ≠ 0x5A)) : verdictByte a.toNat b.toNat = 0 := by
  refine if_neg ?_
  rintro ⟨hab, ha⟩
  rcases h with h | ⟨h1, h2⟩
  · exact h (BitVec.eq_of_toNat_eq hab)
  · exact ha.elim (fun h => h1 (BitVec.eq_of_toNat_eq h)) fun h => h2 (BitVec.eq_of_toNat_eq h)

/-- One comparator undisturbed on a mismatch keeps the accepted word away, whatever disturbs the other. -/
theorem verdictWord_of_mismatch {va vb : BitVec 8} (h : va = 0 ∨ vb = 0) :
    verdictWord (comparator false va) (comparator false vb) ≠ 0x5AA55AA5 := by
  intro hw
  obtain ⟨ha, hb⟩ := (verdictWord_accepts_iff _ _).mp hw
  rcases h with rfl | rfl
  · exact absurd ha (by decide)
  · exact absurd hb (by decide)

theorem State.noteVerdict_of_disagreement {s : State} {a b : Nat} (h : a ≠ b) (info func : Nat) :
    s.noteVerdict a b info func =
      ((s.bump R.DIGEST.VERDICT_FAULTS_COUNT).pulse 0x2A Ev.DIGEST.VERDICT_FAULT).record 0x2A E.DIGEST_VERDICT_FAULT info func :=
  if_pos h

/-- A disagreement is counted, shown as an event, and recorded where no error is held. -/
theorem State.noteVerdict_shows_disagreement (s : State) {a b : Nat} (h : a ≠ b) (info func : Nat) :
    (s.noteVerdict a b info func).get R.DIGEST.VERDICT_FAULTS_COUNT = min (s.get R.DIGEST.VERDICT_FAULTS_COUNT + 1) (2 ^ 32 - 1)
      ∧ bitAt ((s.noteVerdict a b info func).get (H.STICKY 0x2A)) Ev.DIGEST.VERDICT_FAULT = true
      ∧ (s.get (H.VALID 0x2A) = 0 → (s.noteVerdict a b info func).get (H.CODE 0x2A) = E.DIGEST_VERDICT_FAULT) := by
  rw [State.noteVerdict_of_disagreement h]
  refine ⟨?_, ?_, fun hv => ?_⟩
  · rw [State.record_get_beyond _ _ _ _ _ _ _ rfl, State.pulse_get_beyond _ _ _ rfl, State.get_bump_same]
    rfl
  · refine State.record_sticky_of_set (by decide) ?_ ..
    rw [State.pulse_sticky _ _ _ (by decide), if_pos rfl]
  · refine State.record_get_CODE ?_ ..
    rw [State.pulse_get_of_place _ _ _ rfl rfl, State.get_bump_of_place _ _ rfl, hv]

/-- Settles O39: the word and the byte by cases on the comparators' values, and a disagreement by what an event and an error show. -/
theorem verdictsAreExact : Obligations.VerdictsAreExact :=
  ⟨comparator_of_no_flips, verdictWord_of_bytes, rfl, rfl, rfl, rfl, verdictWord_accepts_iff, fun _ _ => verdictByte_of_fault,
    fun _ _ => verdictWord_of_mismatch, fun s _ _ info func h => s.noteVerdict_shows_disagreement h info func⟩

end Sys2Proof.Machine
end

section
/-!
Digest jobs, their completion, and the register-fed units (R435-R441).
-/

namespace Sys2Proof.Machine

open Sys2Proof.Laws

/-! ### Digest jobs -/

section
variable {s : State} {src : JobSrc} {j : Job} {p m e h : Bytes}

/-- A running job of a host function makes its host active; nothing else changes. -/
def State.jobActive (s : State) (src : JobSrc) : State := match src with | .host _ => s.hostActive | .cluster _ => s

theorem State.forget_jobActive (s : State) (src : JobSrc) : forget 0x490000020 (s.jobActive src) = forget 0x490000020 s := by
  cases src with
  | host f => exact State.forget_hostActive rfl s
  | cluster c => rfl

/-- What a digest engine takes for a job: a unit, and the state with the job gone from its queue. -/
def State.digestBegun (s : State) (j : Job) : Nat × State := (s.takeJob j.id).digestUnit

/-- The record of an ended digest job. -/
def digestDone (j : Job) (u : Nat) (r : Nat × Nat × Nat × State) : JobDone :=
  ⟨j, r.1, descN j.desc 56 8, digestRecord (descN j.desc 4 4) r.1 r.2.1 u r.2.2.1, 0⟩

theorem State.digestJob_of_job {op : Nat} (hj : s.jobFor src 2 op 2 = some j) (va vb : BitVec 8) :
    s.digestJob src op va vb = (((s.digestBegun j).2.digestRun j (s.digestBegun j).1 va vb).2.2.2.jobActive src).finishJob
      (digestDone j (s.digestBegun j).1 ((s.digestBegun j).2.digestRun j (s.digestBegun j).1 va vb)) := by
  rw [State.digestJob, hj]
  rfl

theorem State.digestBegun_xread (s : State) (j : Job) (func va n : Nat) : (s.digestBegun j).2.xread func va n = s.xread func va n := rfl

/-- A job whose descriptor is bad (R435). -/
theorem State.digestRun_of_bad (s : State) {j : Job} (hd : digestDescOk j.desc = false) (u : Nat) (va vb : BitVec 8) :
    s.digestRun j u va vb = (2, 0, 0, s.record 0x2A E.DIGEST_BAD_DESCRIPTOR (digestInfo u j.func) j.func) := by
  simp only [State.digestRun, hd, Bool.not_false, if_true]

/-- HASH with its digest written (R436). -/
theorem State.digestRun_of_hash (s : State) {j : Job} (hd : digestDescOk j.desc = true) (hop : descN j.desc 0 1 = 1)
    (hp : (if descPrime j.desc then s.xread j.func (descN j.desc 24 8) (digestBlock (descN j.desc 1 1)) else .ok []) = .ok p)
    (hm : s.xread j.func (descN j.desc 8 8) (descN j.desc 16 8) = .ok m) (hh : h = digest (DigestAlg.ofCode (descN j.desc 1 1)) (p ++ m))
    (hput : descN j.desc 40 8 ≠ 0) (hw : xfault s.xlate j.func .w (piecesOf (descN j.desc 40 8) h.length) = none) (u : Nat) (va vb : BitVec 8) :
    s.digestRun j u va vb
      = (0, 0, descN j.desc 16 8, { s with mem := xwriteAux s.xlate j.func (piecesOf (descN j.desc 40 8) h.length) h s.mem }) := by
  subst hh
  simp only [State.digestRun, hd, Bool.not_true, Bool.false_eq_true, if_false, hp, hm, hput, State.xwrite, hw, hop, if_true]

/-- HASH_COMPARE (R436, R438). -/
theorem State.digestRun_of_compare (s : State) {j : Job} (hd : digestDescOk j.desc = true) (hop : descN j.desc 0 1 = 2)
    (hp : (if descPrime j.desc then s.xread j.func (descN j.desc 24 8) (digestBlock (descN j.desc 1 1)) else .ok []) = .ok p)
    (hm : s.xread j.func (descN j.desc 8 8) (descN j.desc 16 8) = .ok m) (hh : h = digest (DigestAlg.ofCode (descN j.desc 1 1)) (p ++ m))
    (hput : descN j.desc 40 8 = 0) (he : s.xread j.func (descN j.desc 32 8) h.length = .ok e) (u : Nat) (va vb : BitVec 8) :
    s.digestRun j u va vb = (0, verdictByte (comparator (e == h) va) (comparator (e == h) vb), descN j.desc 16 8,
      s.noteVerdict (comparator (e == h) va) (comparator (e == h) vb) (digestInfo u j.func) j.func) := by
  subst hh
  have h21 : ¬(2 = 1) := by decide
  simp only [State.digestRun, hd, Bool.not_true, Bool.false_eq_true, if_false, hp, hm, hput, if_true, hop, h21, he]

/-- The jobs and the memories that a run of a job leaves, given those of its engine. -/
theorem State.jobActive_finish (t : State) (src : JobSrc) (d : JobDone) :
    ((t.jobActive src).finishJob d).jobs.finished = t.jobs.finished ++ [d] ∧ ((t.jobActive src).finishJob d).mem = t.mem
      ∧ ((t.jobActive src).finishJob d).keys = t.keys :=
  ⟨congrArg (fun q : JobsSt => q.finished ++ [d]) (keeps_jobs (t.forget_jobActive src) rfl :), (keeps_mem (t.forget_jobActive src) rfl :),
    (keeps_keys (t.forget_jobActive src) rfl :)⟩

theorem digestJob_hash (hj : s.jobFor src 2 1 2 = some j) (hd : digestDescOk j.desc = true) (hop : descN j.desc 0 1 = 1)
    (hp : (if descPrime j.desc then s.xread j.func (descN j.desc 24 8) (digestBlock (descN j.desc 1 1)) else .ok []) = .ok p)
    (hm : s.xread j.func (descN j.desc 8 8) (descN j.desc 16 8) = .ok m) (hh : h = digest (DigestAlg.ofCode (descN j.desc 1 1)) (p ++ m))
    (hput : descN j.desc 40 8 ≠ 0) (hw : xfault s.xlate j.func .w (piecesOf (descN j.desc 40 8) h.length) = none) :
    ∃ (t : State) (d : JobDone) (u : Nat), exec (.hash src) s = .next t ∧ d.job = j ∧ d.status = 0 ∧ d.record = digestRecord (descN j.desc 4 4) 0 0 u (descN j.desc 16 8)
      ∧ t.jobs.finished = s.jobs.finished ++ [d] ∧ t.mem = xwriteAux s.xlate j.func (piecesOf (descN j.desc 40 8) h.length) h s.mem ∧ t.keys = s.keys := by
  have hrun := (s.digestBegun j).2.digestRun_of_hash hd hop hp hm hh hput hw (s.digestBegun j).1 0 0
  have hjob := State.digestJob_of_job hj 0 0
  rw [hrun] at hjob
  obtain ⟨hjobs, hmem, hkeys⟩ := State.jobActive_finish { (s.digestBegun j).2 with
    mem := xwriteAux s.xlate j.func (piecesOf (descN j.desc 40 8) h.length) h s.mem } src
    (digestDone j (s.digestBegun j).1 (0, 0, descN j.desc 16 8, { (s.digestBegun j).2 with
      mem := xwriteAux s.xlate j.func (piecesOf (descN j.desc 40 8) h.length) h s.mem }))
  exact ⟨_, _, _, congrArg Host.Outcome.next hjob, rfl, rfl, rfl, hjobs, hmem, hkeys⟩

theorem digestJob_compare {va vb : BitVec 8} (hj : s.jobFor src 2 2 2 = some j) (hd : digestDescOk j.desc = true) (hop : descN j.desc 0 1 = 2)
    (hp : (if descPrime j.desc then s.xread j.func (descN j.desc 24 8) (digestBlock (descN j.desc 1 1)) else .ok []) = .ok p)
    (hm : s.xread j.func (descN j.desc 8 8) (descN j.desc 16 8) = .ok m) (hh : h = digest (DigestAlg.ofCode (descN j.desc 1 1)) (p ++ m))
    (hput : descN j.desc 40 8 = 0) (he : s.xread j.func (descN j.desc 32 8) h.length = .ok e) :
    ∃ (t : State) (d : JobDone) (u : Nat), exec (.hashCompare src va vb) s = .next t ∧ d.job = j ∧ d.status = 0 ∧ t.mem = s.mem
      ∧ d.record = digestRecord (descN j.desc 4 4) 0 (verdictByte (comparator (e == h) va) (comparator (e == h) vb)) u (descN j.desc 16 8)
      ∧ t.jobs.finished = s.jobs.finished ++ [d] := by
  have hrun := (s.digestBegun j).2.digestRun_of_compare hd hop hp hm hh hput he (s.digestBegun j).1 va vb
  have hjob := State.digestJob_of_job hj va vb
  rw [hrun] at hjob
  have hnote : forget 0x480000420 _ = forget 0x480000420 (s.digestBegun j).2 := State.forget_noteVerdict rfl (s.digestBegun j).2
    (comparator (e == h) va) (comparator (e == h) vb) (digestInfo (s.digestBegun j).1 j.func) j.func
  have hmem := (State.jobActive_finish _ src (digestDone j (s.digestBegun j).1 (0, verdictByte (comparator (e == h) va) (comparator (e == h) vb),
    descN j.desc 16 8, (s.digestBegun j).2))).2.1.trans (keeps_mem hnote rfl)
  have hjobs := congrArg (· ++ [digestDone j (s.digestBegun j).1 (0, verdictByte (comparator (e == h) va) (comparator (e == h) vb),
    descN j.desc 16 8, (s.digestBegun j).2)]) (congrArg JobsSt.finished (keeps_jobs hnote rfl))
  exact ⟨_, digestDone j (s.digestBegun j).1 (0, verdictByte (comparator (e == h) va) (comparator (e == h) vb), descN j.desc 16 8,
    (s.digestBegun j).2), _, congrArg Host.Outcome.next hjob, rfl, rfl, hmem, rfl, (State.jobActive_finish ..).1.trans hjobs⟩

theorem digestJob_bad {va vb : BitVec 8} {op : Nat} (hop : op = 1 ∨ op = 2) (hj : s.jobFor src 2 op 2 = some j) (hd : digestDescOk j.desc = false) :
    ∃ (t : State) (d : JobDone), (op = 1 → exec (.hash src) s = .next t) ∧ (op = 2 → exec (.hashCompare src va vb) s = .next t) ∧ d.job = j ∧ d.status = 2 ∧ t.jobs.finished = s.jobs.finished ++ [d] ∧ t.mem = s.mem := by
  have hrec : forget 0x480000420 ((s.digestBegun j).2.record 0x2A E.DIGEST_BAD_DESCRIPTOR (digestInfo (s.digestBegun j).1 j.func) j.func)
    = forget 0x480000420 (s.digestBegun j).2 := State.forget_record rfl ..
  have hjob (va vb : BitVec 8) := (State.digestJob_of_job hj va vb).trans (by rw [State.digestRun_of_bad _ hd])
  have hfin := State.jobActive_finish ((s.digestBegun j).2.record 0x2A E.DIGEST_BAD_DESCRIPTOR (digestInfo (s.digestBegun j).1 j.func) j.func) src
    (digestDone j (s.digestBegun j).1 (2, 0, 0, (s.digestBegun j).2.record 0x2A E.DIGEST_BAD_DESCRIPTOR (digestInfo (s.digestBegun j).1 j.func) j.func))
  have hjobs := congrArg JobsSt.finished (keeps_jobs hrec rfl)
  refine ⟨_, _, ?_, ?_, rfl, rfl, hfin.1.trans (congrArg (· ++ _) hjobs), hfin.2.1.trans (keeps_mem hrec rfl :)⟩
  · rintro rfl
    exact congrArg Host.Outcome.next (hjob 0 0)
  · rintro rfl
    exact congrArg Host.Outcome.next (hjob va vb)

theorem State.digestJobComplete_of_done {d : JobDone} (hd : s.doneJob 2 = some d) :
    exec .digestJobComplete s = .next ((s.dropDone d).endJob d (descN d.record 5 1) fun t a =>
      (t.xlateFault d.job.func a 0 true false true).record 0x2A E.DIGEST_XLATE_FAULT (digestInfo (descN d.record 6 1) d.job.func) d.job.func) := by
  show execDigestJobComplete s = _
  rw [execDigestJobComplete, hd]

end

/-! ### Register-fed units -/

section
variable {s t : State} {o : Origin} {f : Feed}

theorem feedCtrl_role : needOf (rowsAt 0x2A 0x050) = .none := by decide

theorem feedWord_role : needOf (rowsAt 0x2A 0x058) = .none := by decide

theorem lastWord_role : needOf (rowsAt 0x2A 0x060) = .none := by decide

theorem State.meets_of_free {need : RoleReq} (h : need = .none) : s.meets o need = true := by
  subst h
  rfl

theorem State.Accessed.feeds (h : s.Accessed t) : t.feeds = s.feeds := keeps_feeds h.1 rfl

theorem State.Accessed.feedSel (h : s.Accessed t) : t.feedSel o = s.feedSel o := h.get _

theorem State.Accessed.feed (h : s.Accessed t) (u : Nat) : t.feed u = s.feed u := by rw [State.feed, h.feeds, State.feed]

theorem State.Accessed.ownFeed (h : s.Accessed t) : t.ownFeed o = s.ownFeed o := by rw [State.ownFeed, h.feedSel, h.feed, State.ownFeed]

theorem State.Accessed.hashing (h : s.Accessed t) : t.hashing o = s.hashing o := by
  simp only [State.hashing, h.ownFeed, h.get]

theorem State.feed_unit {u : Nat} (h : s.feed u = some f) : f.unit = u := by simpa using List.find?_some h

theorem State.of_ownFeed (h : s.ownFeed o = some f) : s.feed f.unit = some f ∧ f.unit = s.feedSel o ∧ f.origin = o := by
  obtain ⟨g, hg, hif⟩ := Option.bind_eq_some_iff.mp h
  split at hif
  next ho =>
    cases hif
    exact ⟨by rwa [State.feed_unit hg], State.feed_unit hg, ho⟩
  · cases hif

theorem State.of_hashing (h : s.hashing o = some f) : s.ownFeed o = some f ∧ s.feed f.unit = some f := by
  obtain ⟨g, hg, hif⟩ := Option.bind_eq_some_iff.mp h
  split at hif
  · cases hif
    exact ⟨hg, (State.of_ownFeed hg).1⟩
  · cases hif

/-- A message of a unit takes the place of the one before. -/
theorem State.feed_setFeed (h : s.feed f.unit = some f) (m : Bytes) : (s.setFeed f.unit m).feed f.unit = some { f with msg := m } := by
  have hkey : (fun g : Feed => g.unit == f.unit) ∘ (fun g : Feed => if g.unit == f.unit then { g with msg := m } else g)
      = fun g : Feed => g.unit == f.unit := by
    funext g
    simp only [Function.comp_apply]
    split <;> rfl
  have hf : s.feeds.find? (·.unit == f.unit) = some f := h
  simp only [State.feed, State.setFeed, List.find?_map, hkey, hf, Option.map_some, BEq.rfl, if_true]

end

section
variable {s t : State} {o : Origin} {f : Feed}

/-- What FEED_CTRL commands, by its bits. -/
theorem State.feedCtrl_of_bits (t : State) (o : Origin) {v : Nat} {c r g : Bool} (hc : bitAt v 0 = c) (hr : bitAt v 1 = r) (hg : bitAt v 2 = g) :
    t.feedCtrl o v =
      let u := (t.put (R.DIGEST.FEED_CTRL_ALG.ofUnit (t.feedSel o)) (v / 8)).put (R.DIGEST.FEED_CTRL_COMPARE.ofUnit (t.feedSel o)) (v / 32)
      let u := if c then u.feedClaim o else u
      let u := if g then u.feedStart o else u
      if r then u.feedRelease o else u := by
  subst hc hr hg
  rfl

/-- A write of FEED_CTRL to one of the four units reaches its effect, or its refusal where another holds the unit. -/
theorem State.writeFeedCtrl_meets (hp : s.powered = true) (hr : s.reaches o 0x2A = true) (hu : 60 ≤ s.feedSel o) (v : Nat) :
    ∃ t : State, s.Accessed t ∧ s.writeFeedCtrl o v = if s.feedBusy o v then t.heldFeed o else t.feedCtrl o v :=
  State.regCmd_meets hp hr (State.meets_of_free feedCtrl_role)
    (by rw [Bool.or_eq_true, State.feedUnitOk, decide_eq_true hu]; exact .inr rfl)

/-- The three command bits of FEED_CTRL lie below its plain fields. -/
theorem feedCtrl_bits (n a b : Nat) : bitAt (n + a * 8 + b * 32) 0 = bitAt n 0 ∧ bitAt (n + a * 8 + b * 32) 1 = bitAt n 1
    ∧ bitAt (n + a * 8 + b * 32) 2 = bitAt n 2 := by
  have h0 : (n + a * 8 + b * 32) / 2 ^ 0 % 2 = n / 2 ^ 0 % 2 := by omega
  have h1 : (n + a * 8 + b * 32) / 2 ^ 1 % 2 = n / 2 ^ 1 % 2 := by omega
  have h2 : (n + a * 8 + b * 32) / 2 ^ 2 % 2 = n / 2 ^ 2 % 2 := by omega
  exact ⟨by rw [bitAt, h0, bitAt], by rw [bitAt, h1, bitAt], by rw [bitAt, h2, bitAt]⟩

theorem State.feedPlain_bits (s : State) (o : Origin) (n : Nat) : bitAt (n + s.feedPlain o) 0 = bitAt n 0 ∧ bitAt (n + s.feedPlain o) 1 = bitAt n 1
    ∧ bitAt (n + s.feedPlain o) 2 = bitAt n 2 := by
  rw [State.feedPlain, ← Nat.add_assoc]
  exact feedCtrl_bits ..

/-- The state with FEED_CTRL's plain fields written. -/
def State.feedFields (t : State) (o : Origin) (v : Nat) : State :=
  (t.put (R.DIGEST.FEED_CTRL_ALG.ofUnit (t.feedSel o)) (v / 8)).put (R.DIGEST.FEED_CTRL_COMPARE.ofUnit (t.feedSel o)) (v / 32)

theorem State.feedFields_sel (t : State) (o : Origin) (v : Nat) : (t.feedFields o v).feedSel o = t.feedSel o := by
  rw [State.feedSel, State.feedFields, State.get_put_of_place _ _ rfl, State.get_put_of_place _ _ rfl, State.feedSel]

theorem State.feedFields_own (t : State) (o : Origin) (v : Nat) : (t.feedFields o v).ownFeed o = t.ownFeed o := by
  rw [State.ownFeed, State.feedFields_sel, State.ownFeed]
  rfl

theorem State.claim_of_free (hp : s.powered = true) (hr : s.reaches o 0x2A = true) (hu : 60 ≤ s.feedSel o) (hfree : s.feed (s.feedSel o) = none)
    (hlive : bitAt (s.get R.DIGEST.UNITS_LIVE_MASK) (s.feedSel o) = true) :
    ∃ t : State, exec (.claim o) s = .next t ∧ t.feed (s.feedSel o) = some ⟨s.feedSel o, o, []⟩
      ∧ t.get (R.DIGEST.FEED_STATUS_STATE.ofUnit (s.feedSel o)) = 1 ∧ t.get (R.DIGEST.FEED_STATUS_ORIGIN.ofUnit (s.feedSel o)) = originCode o := by
  obtain ⟨b0, b1, b2⟩ := s.feedPlain_bits o 1
  obtain ⟨t, ht, hw⟩ := State.writeFeedCtrl_meets hp hr hu (1 + s.feedPlain o)
  have hbusy : s.feedBusy o (1 + s.feedPlain o) = false := by
    simp only [State.feedBusy, b0, b1, b2, State.feedHeld, hfree, hlive]
    rfl
  have hfree' : (t.feedFields o (1 + s.feedPlain o)).feed ((t.feedFields o (1 + s.feedPlain o)).feedSel o) = none := by
    rw [State.feedFields_sel, ht.feedSel]
    exact (ht.feed _).trans hfree
  have hact : t.feedCtrl o (1 + s.feedPlain o) = (t.feedFields o (1 + s.feedPlain o)).feedClaim o := State.feedCtrl_of_bits t o b0 b1 b2
  rw [hbusy, if_neg Bool.false_ne_true, hact, State.feedClaim, hfree', State.feedFields_sel, ht.feedSel] at hw
  have hfeeds : (t.feedFields o (1 + s.feedPlain o)).feeds.find? (·.unit == s.feedSel o) = none := (ht.feed _).trans hfree
  refine ⟨_, congrArg Host.Outcome.next hw, ?_, ?_, ?_⟩
  · show List.find? _ (_ ++ _) = _
    rw [List.find?_append, hfeeds]
    simp
  · show State.get (State.put (State.put (State.put _ _ _) _ _) _ _) _ = 1
    rw [State.get_put_of_place _ _ rfl, State.get_put_of_place _ _ rfl, State.get_put_same]
    rfl
  · show State.get (State.put _ _ _) _ = _
    rw [State.get_put_same]
    cases o <;> rfl

theorem State.claim_of_held (hp : s.powered = true) (hr : s.reaches o 0x2A = true) (hu : 60 ≤ s.feedSel o) (hf : s.feed (s.feedSel o) = some f)
    (ho : f.origin ≠ o) : ∃ t : State, exec (.claim o) s = .next t ∧ t.feeds = s.feeds ∧ t.refusal = some E.DIGEST_HELD := by
  obtain ⟨b0, b1, b2⟩ := s.feedPlain_bits o 1
  obtain ⟨t, ht, hw⟩ := State.writeFeedCtrl_meets hp hr hu (1 + s.feedPlain o)
  have hbusy : s.feedBusy o (1 + s.feedPlain o) = true := by
    have hne : decide (f.origin ≠ o) = true := decide_eq_true ho
    simp only [State.feedBusy, b0, State.feedHeld, hf, hne]
    rfl
  rw [hbusy, if_pos rfl] at hw
  exact ⟨_, congrArg Host.Outcome.next hw, (keeps_feeds (State.forget_refuseBlock (T := 0x480000620) rfl ..) rfl).trans ht.feeds, State.refuseBlock_refusal ..⟩

theorem State.claim_of_low (hp : s.powered = true) (hr : s.reaches o 0x2A = true) (hu : s.feedSel o < 60) :
    ∃ t : State, exec (.claim o) s = .next t ∧ t.feeds = s.feeds := by
  have hbad : ((1 + s.feedPlain o) % 8 == 0 || s.feedUnitOk o) = false := by
    have hmod : (1 + s.feedPlain o) % 8 = 1 := by
      unfold State.feedPlain
      omega
    have hlow : s.feedUnitOk o = false := decide_eq_false (Nat.not_le.mpr hu)
    rw [hmod, hlow]
    rfl
  obtain ⟨t, ht, hw⟩ := State.regCmd_of_illegal (v := 1 + s.feedPlain o) (busy := s.feedBusy o (1 + s.feedPlain o)) (deny := (·.heldFeed o))
    (act := fun t => t.feedCtrl o (1 + s.feedPlain o)) hp hr (State.meets_of_free feedCtrl_role) hbad
  exact ⟨_, congrArg Host.Outcome.next hw, (keeps_feeds (State.forget_refuseAccess (T := 0x480000620) rfl ..) rfl).trans ht.feeds⟩

theorem State.start_of_own (alg : BitVec 2) (cmp : Bool) (hp : s.powered = true) (hr : s.reaches o 0x2A = true) (hu : 60 ≤ s.feedSel o)
    (hf : s.ownFeed o = some f) : ∃ (t : State) (g : Feed), exec (.start o alg cmp) s = .next t ∧ t.feed f.unit = some g ∧ g.msg = [] ∧ g.origin = o
      ∧ t.get (R.DIGEST.FEED_CTRL_ALG.ofUnit f.unit) = alg.toNat
      ∧ t.get (R.DIGEST.FEED_CTRL_COMPARE.ofUnit f.unit) = b2n cmp ∧ t.get (R.DIGEST.FEED_STATUS_STATE.ofUnit f.unit) = 2 := by
  obtain ⟨b0, b1, b2⟩ := feedCtrl_bits 4 alg.toNat (b2n cmp)
  obtain ⟨hfeed, hunit, horigin⟩ := State.of_ownFeed hf
  generalize hv : 4 + alg.toNat * 8 + b2n cmp * 32 = v at b0 b1 b2
  obtain ⟨t, ht, hw⟩ := State.writeFeedCtrl_meets hp hr hu v
  have hbusy : s.feedBusy o v = false := by
    simp only [State.feedBusy, b0, b1, b2, State.feedForeign, hf, ← hunit, hfeed]
    rfl
  have hact : t.feedCtrl o v = (t.feedFields o v).feedStart o := State.feedCtrl_of_bits t o b0 b1 b2
  rw [hbusy, if_neg Bool.false_ne_true, hact, State.feedStart, State.feedFields_own, ht.ownFeed, hf] at hw
  have hfields : t.feedFields o v = (t.put (R.DIGEST.FEED_CTRL_ALG.ofUnit f.unit) (v / 8)).put (R.DIGEST.FEED_CTRL_COMPARE.ofUnit f.unit) (v / 32) := by
    rw [State.feedFields, ht.feedSel, ← hunit]
  have ha := alg.isLt
  have hc := b2n_lt_two cmp
  have hfeed' : (t.feedFields o v).feed f.unit = some f := (ht.feed _).trans hfeed
  have hget (x : Fld) (hx : x ≠ R.DIGEST.FEED_STATUS_STATE.ofUnit f.unit) : (((t.feedFields o v).setFeed f.unit []).put
      (R.DIGEST.FEED_STATUS_STATE.ofUnit f.unit) 2).get x = (t.feedFields o v).get x := State.get_put_other _ _ hx
  refine ⟨((t.feedFields o v).setFeed f.unit []).put (R.DIGEST.FEED_STATUS_STATE.ofUnit f.unit) 2, _, congrArg Host.Outcome.next ?_,
    State.feed_setFeed hfeed' [], rfl, horigin, ?_, ?_, State.get_put_same _ _ _⟩
  · rw [hv, hw]
  · rw [hget _ (Fld.ne_of_place rfl), hfields, State.get_put_of_place _ _ rfl, State.get_put_same]
    show v / 8 % 4 = _
    omega
  · rw [hget _ (Fld.ne_of_place rfl), hfields, State.get_put_same]
    show v / 32 % 2 = _
    omega

theorem State.feedWord_of_hashing (w : BitVec 64) (hp : s.powered = true) (hr : s.reaches o 0x2A = true) (hf : s.hashing o = some f) :
    ∃ (t : State) (g : Feed), exec (.feedWord o w) s = .next t ∧ t.feed f.unit = some g ∧ g.msg = f.msg ++ leBytes 8 w.toNat := by
  obtain ⟨t, ht, hw⟩ := State.regCmd_acts (v := w.toNat) (busy := false) (deny := id) (act := fun t => t.feedWord o w.toNat) hp hr
    (State.meets_of_free feedWord_role) rfl rfl
  rw [State.feedWord, ht.hashing, hf] at hw
  exact ⟨_, _, congrArg Host.Outcome.next hw, State.feed_setFeed ((ht.feed _).trans (State.of_hashing hf).2) _, rfl⟩

theorem State.release_of_own (hp : s.powered = true) (hr : s.reaches o 0x2A = true) (hu : 60 ≤ s.feedSel o) (hf : s.ownFeed o = some f) :
    ∃ t : State, exec (.release o) s = .next t ∧ t.feed f.unit = none ∧ t.get (R.DIGEST.FEED_STATUS_STATE.ofUnit f.unit) = 0 := by
  obtain ⟨b0, b1, b2⟩ := s.feedPlain_bits o 2
  obtain ⟨hfeed, hunit, -⟩ := State.of_ownFeed hf
  obtain ⟨t, ht, hw⟩ := State.writeFeedCtrl_meets hp hr hu (2 + s.feedPlain o)
  have hbusy : s.feedBusy o (2 + s.feedPlain o) = false := by
    simp only [State.feedBusy, b0, b1, b2, State.feedForeign, hf, ← hunit, hfeed]
    rfl
  have hact : t.feedCtrl o (2 + s.feedPlain o) = (t.feedFields o (2 + s.feedPlain o)).feedRelease o := State.feedCtrl_of_bits t o b0 b1 b2
  rw [hbusy, if_neg Bool.false_ne_true, hact, State.feedRelease, State.feedFields_own, ht.ownFeed, hf] at hw
  refine ⟨_, congrArg Host.Outcome.next hw, ?_, ?_⟩
  · exact List.find?_eq_none.mpr fun g hg => by simpa using (List.mem_filter.mp hg).2
  · show State.get (State.put (State.put (State.put _ _ _) _ _) _ _) _ = 0
    rw [State.get_put_of_place _ _ rfl, State.get_put_of_place _ _ rfl, State.get_put_same]
    rfl

end

/-! ### The last word -/

section
variable {s t : State} {o : Origin} {f : Feed}

theorem leNat_lt (bs : Bytes) : leNat bs < 2 ^ (8 * bs.length) := by
  induction bs with
  | nil => exact Nat.one_pos
  | cons b bs ih =>
    have hb : b.toNat < 2 ^ 8 := b.isLt
    rw [leNat, List.length_cons, Nat.mul_add, Nat.mul_one, pow_add]
    omega

theorem length_sliceBytes (bs : Bytes) (off n : Nat) : (sliceBytes bs off n).length = n := by
  simp only [sliceBytes, List.length_append, List.length_replicate, List.length_take]
  omega

/-- RESULT with the first `n` words of a digest written. -/
def State.putResult (s : State) (u : Nat) (h : Bytes) (n : Nat) : State :=
  (List.range n).foldl (fun t i => t.put ((R.DIGEST.RESULT_BYTES i).ofUnit u) (leNat (sliceBytes h (4 * i) 4))) s

theorem State.putResult_succ (s : State) (u : Nat) (h : Bytes) (n : Nat) : s.putResult u h (n + 1)
    = (s.putResult u h n).put ((R.DIGEST.RESULT_BYTES n).ofUnit u) (leNat (sliceBytes h (4 * n) 4)) := by
  rw [State.putResult, List.range_succ, List.foldl_append, List.foldl_cons, List.foldl_nil, State.putResult]

theorem State.putResult_get (s : State) (u : Nat) (h : Bytes) {n i : Nat} (hi : i < n) :
    (s.putResult u h n).get ((R.DIGEST.RESULT_BYTES i).ofUnit u) = leNat (sliceBytes h (4 * i) 4) := by
  induction n with
  | zero => omega
  | succ n ih =>
    rw [State.putResult_succ]
    by_cases hin : i = n
    · subst hin
      have hlt := leNat_lt (sliceBytes h (4 * i) 4)
      rw [length_sliceBytes] at hlt
      rw [State.get_put_same]
      exact Nat.mod_eq_of_lt hlt
    · have hne : (R.DIGEST.RESULT_BYTES i).ofUnit u ≠ (R.DIGEST.RESULT_BYTES n).ofUnit u := fun e => by
        have hoff : 0x070 + 4 * i = 0x070 + 4 * n := congrArg Fld.off e
        omega
      rw [State.get_put_other _ _ hne, ih (by omega)]

theorem State.putResult_get_other (s : State) (u : Nat) (h : Bytes) {n : Nat} (hn : n ≤ 16) {x : Fld} (hx : x.off < 0x070 ∨ 0x0B0 ≤ x.off) :
    (s.putResult u h n).get x = s.get x := by
  induction n with
  | zero => rfl
  | succ n ih =>
    have hne : x ≠ (R.DIGEST.RESULT_BYTES n).ofUnit u := fun e => by
      have hoff : x.off = 0x070 + 4 * n := congrArg Fld.off e
      omega
    rw [State.putResult_succ, State.get_put_other _ _ hne, ih (by omega)]

/-- The state with a message ended: its bytes, RESULT, and FEED_STATUS in DONE. -/
def State.feedDone (s : State) (u : Nat) (m h : Bytes) : State :=
  (((s.setFeed u m).putResult u h 16).put (R.DIGEST.FEED_STATUS_STATE.ofUnit u) 3).pulse 0x2A Ev.DIGEST.FEED_DONE

theorem State.feedDone_result (s : State) (u : Nat) (m h : Bytes) {i : Nat} (hi : i < 16) :
    (s.feedDone u m h).get ((R.DIGEST.RESULT_BYTES i).ofUnit u) = leNat (sliceBytes h (4 * i) 4) := by
  have hne : (R.DIGEST.RESULT_BYTES i).ofUnit u ≠ R.DIGEST.FEED_STATUS_STATE.ofUnit u := fun e => by
    have hoff : 0x070 + 4 * i = 0x054 := congrArg Fld.off e
    omega
  have hoff : 0x040 ≤ ((R.DIGEST.RESULT_BYTES i).ofUnit u).off := Nat.le_trans (by decide : 0x040 ≤ 0x070) (Nat.le_add_right ..)
  rw [State.feedDone, State.pulse_get_beyond_header _ _ _ hoff, State.get_put_other _ _ hne, State.putResult_get _ _ _ hi]

theorem State.feedDone_state (s : State) (u : Nat) (m h : Bytes) : (s.feedDone u m h).get (R.DIGEST.FEED_STATUS_STATE.ofUnit u) = 3 := by
  rw [State.feedDone, State.pulse_get_beyond _ _ _ rfl, State.get_put_same]
  rfl

theorem State.feedDone_get_other (s : State) (u : Nat) (m h : Bytes) {x : Fld} (hb : 0x040 ≤ x.off) (hs : x.off ≠ 0x054)
    (hx : x.off < 0x070 ∨ 0x0B0 ≤ x.off) : (s.feedDone u m h).get x = s.get x := by
  have hne : x ≠ R.DIGEST.FEED_STATUS_STATE.ofUnit u := fun e => hs (congrArg Fld.off e)
  rw [State.feedDone, State.pulse_get_beyond_header _ _ _ hb, State.get_put_other _ _ hne, State.putResult_get_other _ _ _ le_rfl hx]
  rfl

theorem State.feedDone_expect (s : State) (u : Nat) (m h : Bytes) (n : Nat) : (s.feedDone u m h).feedExpect u n = s.feedExpect u n := by
  have hword (i : Nat) : (s.feedDone u m h).get ((R.DIGEST.EXPECT_BYTES i).ofUnit u) = s.get ((R.DIGEST.EXPECT_BYTES i).ofUnit u) := by
    have hoff : 0x0B0 ≤ ((R.DIGEST.EXPECT_BYTES i).ofUnit u).off := Nat.le_add_right ..
    exact s.feedDone_get_other u m h (by omega) (by omega) (.inr hoff)
  simp only [State.feedExpect, hword]

theorem State.noteVerdict_get (s : State) (a b info func : Nat) {x : Fld} (hb : 0x040 ≤ x.off) (hp : x.page ≠ 0x2A) :
    (s.noteVerdict a b info func).get x = s.get x := by
  have hmiss : x ≠ R.DIGEST.MISMATCHES_COUNT := fun e => hp (congrArg Fld.page e)
  have hfault : x ≠ R.DIGEST.VERDICT_FAULTS_COUNT := fun e => hp (congrArg Fld.page e)
  unfold State.noteVerdict
  split
  · rw [State.record_get_beyond_header _ _ _ _ _ _ _ hb, State.pulse_get_beyond_header _ _ _ hb, State.get_bump_other _ _ hfault]
  · split
    · rw [State.record_get_beyond_header _ _ _ _ _ _ _ hb, State.pulse_get_beyond_header _ _ _ hb, State.get_bump_other _ _ hmiss]
    · rfl

theorem verdictWord_lt (same : Bool) (va vb : BitVec 8) : verdictWord (comparator same va) (comparator same vb) < 2 ^ 32 := by
  have ha : comparator same va < 2 ^ 8 := BitVec.isLt _
  have hb : comparator same vb < 2 ^ 8 := BitVec.isLt _
  unfold verdictWord
  split <;> omega

theorem unit_page_ne (u : Nat) : 0x2A + 0x10000 * (0x400 + u) ≠ 0x2A := by omega

/-- A last word ends the message, and compares where COMPARE is set (R437, R438). -/
theorem State.feedLast_of_hashing {w : Nat} {va vb : BitVec 8} {m h : Bytes} (hf : t.hashing o = some f)
    (hm : m = f.msg ++ (leBytes 8 w).take (t.get (R.DIGEST.LAST_COUNT_COUNT.ofUnit f.unit)))
    (hh : h = digest (DigestAlg.ofCode (t.get (R.DIGEST.FEED_CTRL_ALG.ofUnit f.unit))) m) :
    t.feedLast o w va vb = if t.get (R.DIGEST.FEED_CTRL_COMPARE.ofUnit f.unit) = 0 then t.feedDone f.unit m h
      else ((t.feedDone f.unit m h).put (R.DIGEST.VERDICT_VERDICT.ofUnit f.unit) (verdictWord (comparator (t.feedExpect f.unit h.length == h) va)
        (comparator (t.feedExpect f.unit h.length == h) vb))).noteVerdict (comparator (t.feedExpect f.unit h.length == h) va)
        (comparator (t.feedExpect f.unit h.length == h) vb) (digestInfo f.unit (originFunc o)) (originTag o) := by
  subst hm hh
  have hcmp (m h : Bytes) := t.feedDone_get_other f.unit m h (x := R.DIGEST.FEED_CTRL_COMPARE.ofUnit f.unit) (by decide : 0x040 ≤ 0x050)
    (by decide : 0x050 ≠ 0x054) (.inl (by decide : 0x050 < 0x070))
  rw [← hcmp, ← t.feedDone_expect, State.feedLast, hf]
  rfl

theorem State.lastWord_of_hashing {w : BitVec 64} {va vb : BitVec 8} {m h : Bytes} (hp : s.powered = true) (hr : s.reaches o 0x2A = true)
    (hf : s.hashing o = some f) (hm : m = f.msg ++ (leBytes 8 w.toNat).take (s.get (R.DIGEST.LAST_COUNT_COUNT.ofUnit f.unit)))
    (hh : h = digest (DigestAlg.ofCode (s.get (R.DIGEST.FEED_CTRL_ALG.ofUnit f.unit))) m) :
    ∃ t : State, exec (.lastWord o w va vb) s = .next t ∧ t.get (R.DIGEST.FEED_STATUS_STATE.ofUnit f.unit) = 3
      ∧ (∀ i < 16, t.get ((R.DIGEST.RESULT_BYTES i).ofUnit f.unit) = leNat (sliceBytes h (4 * i) 4))
      ∧ (s.get (R.DIGEST.FEED_CTRL_COMPARE.ofUnit f.unit) ≠ 0 → t.get (R.DIGEST.VERDICT_VERDICT.ofUnit f.unit) =
          verdictWord (comparator (s.feedExpect f.unit h.length == h) va) (comparator (s.feedExpect f.unit h.length == h) vb)) := by
  obtain ⟨t, ht, hw⟩ := State.regCmd_acts (v := w.toNat) (busy := false) (deny := id) (act := fun t => t.feedLast o w.toNat va vb) hp hr
    (State.meets_of_free lastWord_role) rfl rfl
  have hexp (n : Nat) : t.feedExpect f.unit n = s.feedExpect f.unit n := by simp only [State.feedExpect, ht.get]
  have hm' : m = f.msg ++ (leBytes 8 w.toNat).take (t.get (R.DIGEST.LAST_COUNT_COUNT.ofUnit f.unit)) := by rwa [ht.get]
  have hh' : h = digest (DigestAlg.ofCode (t.get (R.DIGEST.FEED_CTRL_ALG.ofUnit f.unit))) m := by rwa [ht.get]
  rw [State.feedLast_of_hashing (ht.hashing.trans hf) hm' hh', ht.get, hexp] at hw
  refine ⟨_, congrArg Host.Outcome.next hw, ?_⟩
  split
  next hz => exact ⟨t.feedDone_state .., fun i hi => t.feedDone_result _ _ _ hi, fun hne => absurd hz hne⟩
  · have hnote (v a b i g : Nat) (x : Fld) (hb : 0x040 ≤ x.off) (hx : x.page ≠ 0x2A) (hne : x ≠ R.DIGEST.VERDICT_VERDICT.ofUnit f.unit) :
        (((t.feedDone f.unit m h).put (R.DIGEST.VERDICT_VERDICT.ofUnit f.unit) v).noteVerdict a b i g).get x = (t.feedDone f.unit m h).get x := by
      rw [State.noteVerdict_get _ _ _ _ _ hb hx, State.get_put_other _ _ hne]
    refine ⟨?_, fun i hi => ?_, fun _ => ?_⟩
    · rw [hnote _ _ _ _ _ _ (by decide : 0x040 ≤ 0x054) (unit_page_ne _) (Fld.ne_of_place rfl), State.feedDone_state]
    · have hoff : 0x070 ≤ ((R.DIGEST.RESULT_BYTES i).ofUnit f.unit).off := Nat.le_add_right ..
      rw [hnote _ _ _ _ _ _ (by omega) (unit_page_ne _), State.feedDone_result _ _ _ _ hi]
      intro e
      have hv : ((R.DIGEST.RESULT_BYTES i).ofUnit f.unit).off = 0x06C := congrArg Fld.off e
      omega
    · rw [State.noteVerdict_get _ _ _ _ _ (by decide : 0x040 ≤ 0x06C) (unit_page_ne _), State.get_put_same]
      exact Nat.mod_eq_of_lt (verdictWord_lt ..)

end

/-- Settles O40, job by job and then each write to a register-fed unit. -/
theorem digestJobsRun : Obligations.DigestJobsRun := by
  refine ⟨fun s src j p m h => digestJob_hash, fun s src j p m e h va vb => digestJob_compare, fun s src j op va vb => digestJob_bad, fun s d hd => ?_,
    fun s o => State.claim_of_free, fun s o f => State.claim_of_held, fun s o => State.claim_of_low, fun s o f alg cmp => State.start_of_own alg cmp,
    fun s o f w => State.feedWord_of_hashing w, fun s o f w va vb m h => State.lastWord_of_hashing, fun s o f => State.release_of_own⟩
  have hrest (e : JobDone) (he : e ∈ (s.dropDone d).jobs.finished) : e.job.id ≠ d.job.id := by simpa using (List.mem_filter.mp he).2
  exact ⟨s.dropDone d, _, State.digestJobComplete_of_done hd, rfl, hrest⟩

end Sys2Proof.Machine
end

section
/-!
Cipher jobs, their completion, and the reseeding of a mask generator (R409-R416, R419, R420).
-/

namespace Sys2Proof.Machine

open Sys2Proof.Laws

section
variable {s : State} {src : JobSrc} {j : Job} {op : Nat}

/-- What the cipher engine does with a job, by its operation. -/
def State.cipherDo (f : State) (j : Job) : CipherOut :=
  if descN j.desc 0 1 = 1 ∨ descN j.desc 0 1 = 2 then f.xtsRun j (descN j.desc 0 1 == 1)
  else if descN j.desc 0 1 = 3 ∨ descN j.desc 0 1 = 4 then f.gcmRun j (descN j.desc 0 1 == 3) else (0x02, 0, [], f)

/-- A cipher job begun: a free value drawn and the job gone from its queue. -/
def State.cipherBegun (s : State) (j : Job) : State := s.fresh.2.takeJob j.id

/-- The record of a cipher job that pipeline `p` ended. -/
def cipherDone (j : Job) (p : Nat) (r : CipherOut) : JobDone :=
  ⟨j, r.1, descN j.desc 56 8, cipherRecord (descN j.desc 8 4) r.1 p r.2.1 r.2.2.1, 0⟩

/-- The state in which pipeline `p` has ended a job. -/
def cipherEnd (j : Job) (p : Nat) (r : CipherOut) : State :=
  ((r.2.2.2.cipherErr r.1 p j.func).drawMasks p (ceilDiv r.2.1 16)).finishJob (cipherDone j p r)

/-- A job that need not wait runs on one of the least loaded pipelines. -/
theorem State.cipherJob_of_job (hj : s.jobFor src 3 op 4 = some j) (hw : s.ctxWaits j = false) (hready : s.cipherReady) :
    ∃ p ∈ s.pipesFor, s.cipherJob src op = cipherEnd j p ((s.cipherBegun j).cipherDo j) := by
  obtain ⟨hne, hmasks⟩ := hready
  obtain ⟨p0, ps, hpipes⟩ := List.exists_cons_of_ne_nil hne
  have hmem : (p0 :: ps).getD (s.fresh.1 % (ps.length + 1)) p0 ∈ s.pipesFor := by
    have hlt : s.fresh.1 % (ps.length + 1) < (p0 :: ps).length := Nat.mod_lt _ (Nat.succ_pos _)
    rw [hpipes, List.getD_eq_getElem _ _ hlt]
    exact List.getElem_mem _
  refine ⟨_, hmem, ?_⟩
  simp only [State.cipherJob, hj, hw, Bool.false_eq_true, if_false, hpipes, List.contains_iff_mem.mpr (hmasks _ hmem), Bool.not_true]
  rfl

/-- What a run of a job leaves, given what the job did. -/
theorem cipherEnd_spec (j : Job) (p : Nat) (r : CipherOut) : (cipherEnd j p r).jobs.finished = r.2.2.2.jobs.finished ++ [cipherDone j p r]
    ∧ (cipherEnd j p r).mem = r.2.2.2.mem ∧ (cipherEnd j p r).keys.slots = r.2.2.2.keys.slots ∧ (cipherEnd j p r).keys.ctxs = r.2.2.2.keys.ctxs := by
  have herr : forget 0x480000420 (r.2.2.2.cipherErr r.1 p j.func) = forget 0x480000420 r.2.2.2 := State.forget_cipherErr rfl ..
  have hjobs : (r.2.2.2.cipherErr r.1 p j.func).jobs = r.2.2.2.jobs := keeps_jobs herr rfl
  have hmem : (r.2.2.2.cipherErr r.1 p j.func).mem = r.2.2.2.mem := keeps_mem herr rfl
  have hkeys : (r.2.2.2.cipherErr r.1 p j.func).keys = r.2.2.2.keys := keeps_keys herr rfl
  rw [← hjobs, ← hmem, ← hkeys]
  exact ⟨rfl, rfl, rfl, rfl⟩

/-! ### XTS jobs -/

/-- A job of another kind than GCM waits for no context. -/
theorem State.ctxWaits_of_xts (hop : op = 1 ∨ op = 2) (h : descN j.desc 0 1 = op) : s.ctxWaits j = false := by
  rcases hop with rfl | rfl <;> simp [State.ctxWaits, h]

theorem State.cipherDo_of_xts (f : State) (hop : op = 1 ∨ op = 2) (h : descN j.desc 0 1 = op) : f.cipherDo j = f.xtsRun j (op == 1) := by
  rw [State.cipherDo, h, if_pos hop]

/-- The two XTS commands run the one job. -/
theorem exec_xts {t : State} (h : s.cipherJob src op = t) : (op = 1 → exec (.xtsEncrypt src) s = .next t) ∧ (op = 2 → exec (.xtsDecrypt src) s = .next t) := by
  subst h
  constructor <;> rintro rfl <;> rfl

/-- The state after an XTS job that wrote its output. -/
def State.xtsWrote (f : State) (j : Job) (out : Bytes) : State :=
  { f with mem := xwriteAux f.xlate j.func (piecesOf (descN j.desc 24 8) out.length) out f.mem }.bump R.CIPHER.JOB_BYTES_BYTES (descN j.desc 32 5)

theorem State.xtsRun_of_good {f : State} {k : KeySlot} {bs : Bytes} {enc : Bool} (hd : xtsDescOk j.desc = true) (hlow : 16 ≤ descN j.desc 12 4)
    (hhigh : descN j.desc 12 4 ≤ 2 ^ 24) (hmod : descN j.desc 32 5 % descN j.desc 12 4 = 0) (hk : f.cipherKey j.func (descKey j.desc) true = some k)
    (hr : f.xread j.func (descN j.desc 16 8) (descN j.desc 32 5) = .ok bs)
    (hw : xfault f.xlate j.func .w (piecesOf (descN j.desc 24 8) (xtsUnits enc k.key (descN j.desc 40 16) (chunks (descN j.desc 12 4) bs)).length) = none) :
    f.xtsRun j enc = (0, descN j.desc 32 5, [], f.xtsWrote j (xtsUnits enc k.key (descN j.desc 40 16) (chunks (descN j.desc 12 4) bs))) := by
  have hover : decide (2 ^ 24 < descN j.desc 12 4) = false := decide_eq_false (Nat.not_lt.mpr hhigh)
  simp only [State.xtsRun, hd, Bool.not_true, Bool.false_or, hover, Bool.false_eq_true, Nat.not_lt.mpr hlow, hmod, ne_eq, not_true_eq_false,
    if_false, hk, hr, State.xwrite, hw]
  rfl

theorem xtsJob_of_good {k : KeySlot} {bs out : Bytes} (hop : op = 1 ∨ op = 2) (hj : s.jobFor src 3 op 4 = some j) (ho : descN j.desc 0 1 = op)
    (hready : s.cipherReady) (hd : xtsDescOk j.desc = true) (hlow : 16 ≤ descN j.desc 12 4) (hhigh : descN j.desc 12 4 ≤ 2 ^ 24)
    (hmod : descN j.desc 32 5 % descN j.desc 12 4 = 0) (hk : s.cipherKey j.func (descKey j.desc) true = some k)
    (hr : s.xread j.func (descN j.desc 16 8) (descN j.desc 32 5) = .ok bs)
    (hout : out = xtsUnits (op == 1) k.key (descN j.desc 40 16) (chunks (descN j.desc 12 4) bs))
    (hw : xfault s.xlate j.func .w (piecesOf (descN j.desc 24 8) out.length) = none) :
    ∃ (t : State) (d : JobDone) (p : Nat), (op = 1 → exec (.xtsEncrypt src) s = .next t) ∧ (op = 2 → exec (.xtsDecrypt src) s = .next t)
      ∧ p ∈ s.pipesFor ∧ t.mem = xwriteAux s.xlate j.func (piecesOf (descN j.desc 24 8) out.length) out s.mem
      ∧ t.jobs.finished = s.jobs.finished ++ [d] ∧ d.job = j ∧ d.status = 0 ∧ d.record = cipherRecord (descN j.desc 8 4) 0 p (descN j.desc 32 5) []
      ∧ t.keys.slots = s.keys.slots ∧ t.keys.ctxs = s.keys.ctxs := by
  subst hout
  obtain ⟨p, hp, hjob⟩ := State.cipherJob_of_job hj (State.ctxWaits_of_xts hop ho) hready
  rw [State.cipherDo_of_xts _ hop ho, State.xtsRun_of_good (f := s.cipherBegun j) hd hlow hhigh hmod hk hr hw] at hjob
  obtain ⟨h1, h2⟩ := exec_xts hjob
  exact ⟨_, _, p, h1, h2, hp, (cipherEnd_spec ..).2.1, (cipherEnd_spec ..).1, rfl, rfl, rfl, (cipherEnd_spec ..).2.2⟩

theorem xtsJob_of_bad (hop : op = 1 ∨ op = 2) (hj : s.jobFor src 3 op 4 = some j) (ho : descN j.desc 0 1 = op) (hready : s.cipherReady)
    (hlow : 16 ≤ descN j.desc 12 4) (hbad : xtsDescOk j.desc = false ∨ s.cipherKey j.func (descKey j.desc) true = none) :
    ∃ (t : State) (d : JobDone), (op = 1 → exec (.xtsEncrypt src) s = .next t) ∧ (op = 2 → exec (.xtsDecrypt src) s = .next t)
      ∧ t.jobs.finished = s.jobs.finished ++ [d] ∧ d.job = j ∧ d.status = 2 ∧ t.mem = s.mem ∧ t.keys.slots = s.keys.slots ∧ t.keys.ctxs = s.keys.ctxs := by
  obtain ⟨p, hp, hjob⟩ := State.cipherJob_of_job hj (State.ctxWaits_of_xts hop ho) hready
  have hrun : (s.cipherBegun j).xtsRun j (op == 1) = (2, 0, [], s.cipherBegun j) := by
    rw [State.xtsRun]
    rcases hbad with hd | hk
    · simp only [hd, Bool.not_false, Bool.true_or, if_true]
    · have hk' : (s.cipherBegun j).cipherKey j.func (descKey j.desc) true = none := hk
      simp only [hk', Nat.not_lt.mpr hlow, if_false, ite_self]
  rw [State.cipherDo_of_xts _ hop ho, hrun] at hjob
  obtain ⟨h1, h2⟩ := exec_xts hjob
  exact ⟨_, _, h1, h2, (cipherEnd_spec ..).1, rfl, rfl, (cipherEnd_spec ..).2⟩

/-! ### GCM messages of one segment -/

/-- The context that a job with FIRST opens (R411). -/
def gcmFirst (j : Job) (enc : Bool) : GcmCtx :=
  ⟨descCtx j.desc, j.func, descKey j.desc, enc, sliceBytes j.desc 42 12, descN j.desc 12 4, gcmDeclared j.desc, [], [], []⟩

theorem firstFinal {n : Nat} (h : n % 4 = 3) : bitAt n 0 = true ∧ bitAt n 1 = true := by
  simp only [bitAt, beq_iff_eq]
  omega

/-- A first segment whose context is free goes on with a message of its own. -/
theorem State.gcmRun_of_first {f : State} {k : KeySlot} {enc : Bool} (hd : gcmDescOk j.desc = true) (hf : descN j.desc 1 1 % 4 = 3)
    (hown : f.ownsCtx j.func (descCtx j.desc) = true) (hfree : f.ctxMsg (descCtx j.desc) = none)
    (hk : f.cipherKey j.func (descKey j.desc) false = some k) : f.gcmRun j enc = f.gcmSegment j (gcmFirst j enc) k.key := by
  simp only [State.gcmRun, State.gcmOpen, hd, (firstFinal hf).1, hown, hfree, hk, Bool.not_true, Option.isSome_none, Bool.or_self,
    Bool.false_eq_true, if_false, if_true]
  rfl

/-- A freed context holds no message. -/
theorem State.ctxMsg_freeCtx (s : State) (n : Nat) : (s.freeCtx n).ctxMsg n = none :=
  List.find?_eq_none.mpr fun c hc => by simpa using (List.mem_filter.mp hc).2

/-- The state after a segment that ends its message: its output written and its context free. -/
def State.gcmWrote (f : State) (j : Job) (out : Bytes) : State :=
  ({ f with mem := xwriteAux f.xlate j.func (piecesOf (descN j.desc 24 8) out.length) out f.mem }.bump R.CIPHER.JOB_BYTES_BYTES (descN j.desc 32 5)).freeCtx
    (descCtx j.desc)

theorem State.gcmSegment_encrypts {f : State} {bs : Bytes} {key : Bytes} (hf : descN j.desc 1 1 % 4 = 3) (hlen : gcmDeclared j.desc = descN j.desc 32 5)
    (hr : f.xread j.func (descN j.desc 16 8) (descN j.desc 12 4 + descN j.desc 32 5) = .ok bs) {out : Bytes}
    (hout : out = gcmCrypt key (sliceBytes j.desc 42 12) (sliceBytes bs (descN j.desc 12 4) (descN j.desc 32 5)))
    (hw : xfault f.xlate j.func .w (piecesOf (descN j.desc 24 8) out.length) = none) :
    f.gcmSegment j (gcmFirst j true) key = (0, descN j.desc 32 5,
      (gcmTag key (sliceBytes j.desc 42 12) (bs.take (descN j.desc 12 4)) out).take (descN j.desc 6 1), f.gcmWrote j out) := by
  subst hout
  simp only [State.gcmSegment, gcmFirst, (firstFinal hf).2, hlen, List.length_nil, Nat.zero_add, lt_irrefl, decide_false, Bool.not_true, Bool.and_false,
    Bool.false_and, Bool.false_eq_true, if_false, if_true, Nat.add_zero, hr, List.nil_append, List.drop_zero, State.xwrite, hw]
  rfl

theorem State.gcmSegment_decrypts {f : State} {bs : Bytes} {key : Bytes} (hf : descN j.desc 1 1 % 4 = 3) (hlen : gcmDeclared j.desc = descN j.desc 32 5)
    (hr : f.xread j.func (descN j.desc 16 8) (descN j.desc 12 4 + descN j.desc 32 5 + descN j.desc 6 1) = .ok bs) {good : Prop} [Decidable good] {out : Bytes}
    (hgood : good ↔ (gcmTag key (sliceBytes j.desc 42 12) (bs.take (descN j.desc 12 4)) (sliceBytes bs (descN j.desc 12 4) (descN j.desc 32 5))).take (descN j.desc 6 1)
      = sliceBytes bs (descN j.desc 12 4 + descN j.desc 32 5) (descN j.desc 6 1))
    (hout : out = if good then gcmCrypt key (sliceBytes j.desc 42 12) (sliceBytes bs (descN j.desc 12 4) (descN j.desc 32 5)) else List.replicate (descN j.desc 32 5) 0)
    (hw : xfault f.xlate j.func .w (piecesOf (descN j.desc 24 8) out.length) = none) :
    f.gcmSegment j (gcmFirst j false) key = (if good then 0 else 0x0F, descN j.desc 32 5, [], f.gcmWrote j out) := by
  have hbne {a b : Bytes} (h : good ↔ a = b) : (a != b) = !decide good := by
    rw [bne, Bool.not_inj_iff, beq_eq_decide, decide_eq_decide.mpr h.symm]
  simp only [State.gcmSegment, gcmFirst, (firstFinal hf).2, hlen, List.length_nil, Nat.zero_add, lt_irrefl, decide_false, Bool.not_false, Bool.and_self,
    Bool.and_false, Bool.true_and, Bool.false_eq_true, if_false, if_true, hr, List.nil_append, List.drop_zero, hbne hgood]
  by_cases hg : good
  · rw [if_pos hg] at hout
    subst hout
    simp only [hg, decide_true, Bool.not_true, Bool.false_eq_true, if_false, if_true, State.xwrite, hw]
    rfl
  · rw [if_neg hg] at hout
    subst hout
    simp only [hg, decide_false, Bool.not_false, if_false, if_true, State.xwrite, hw]
    rfl

theorem gcmEncrypt_of_first {k : KeySlot} {bs aad inp out : Bytes} {n : Nat} (hj : s.jobFor src 3 3 4 = some j) (ho : descN j.desc 0 1 = 3)
    (hwait : s.ctxWaits j = false) (hready : s.cipherReady) (hd : gcmDescOk j.desc = true) (hf : descN j.desc 1 1 % 4 = 3)
    (hown : s.ownsCtx j.func (descCtx j.desc) = true) (hfree : s.ctxMsg (descCtx j.desc) = none)
    (hk : s.cipherKey j.func (descKey j.desc) false = some k) (hn : n = descN j.desc 32 5) (hlen : gcmDeclared j.desc = n)
    (hr : s.xread j.func (descN j.desc 16 8) (descN j.desc 12 4 + n) = .ok bs) (ha : aad = bs.take (descN j.desc 12 4))
    (hi : inp = sliceBytes bs (descN j.desc 12 4) n) (hout : out = gcmCrypt k.key (sliceBytes j.desc 42 12) inp)
    (hw : xfault s.xlate j.func .w (piecesOf (descN j.desc 24 8) out.length) = none) :
    ∃ (t : State) (d : JobDone) (p : Nat), exec (.gcmEncrypt src) s = .next t
      ∧ t.mem = xwriteAux s.xlate j.func (piecesOf (descN j.desc 24 8) out.length) out s.mem ∧ t.jobs.finished = s.jobs.finished ++ [d] ∧ d.status = 0
      ∧ d.record = cipherRecord (descN j.desc 8 4) 0 p n ((gcmTag k.key (sliceBytes j.desc 42 12) aad out).take (descN j.desc 6 1))
      ∧ t.ctxMsg (descCtx j.desc) = none ∧ t.keys.slots = s.keys.slots := by
  subst hn ha hi
  obtain ⟨p, -, hjob⟩ := State.cipherJob_of_job hj hwait hready
  have hdo : (s.cipherBegun j).cipherDo j = (s.cipherBegun j).gcmRun j true := by
    rw [State.cipherDo, ho]
    rfl
  rw [hdo, State.gcmRun_of_first (f := s.cipherBegun j) hd hf hown hfree hk, State.gcmSegment_encrypts (f := s.cipherBegun j) hf hlen hr hout hw] at hjob
  obtain ⟨hfin, hmem, hslots, hctxs⟩ := cipherEnd_spec j p (0, descN j.desc 32 5,
    (gcmTag k.key (sliceBytes j.desc 42 12) (bs.take (descN j.desc 12 4)) out).take (descN j.desc 6 1), (s.cipherBegun j).gcmWrote j out)
  refine ⟨_, _, p, congrArg Host.Outcome.next hjob, hmem, hfin, rfl, rfl, ?_, hslots⟩
  rw [State.ctxMsg, hctxs]
  exact State.ctxMsg_freeCtx _ _

theorem gcmDecrypt_of_first {k : KeySlot} {bs aad inp out tag : Bytes} {n : Nat} (hj : s.jobFor src 3 4 4 = some j) (ho : descN j.desc 0 1 = 4)
    (hwait : s.ctxWaits j = false) (hready : s.cipherReady) (hd : gcmDescOk j.desc = true) (hf : descN j.desc 1 1 % 4 = 3)
    (hown : s.ownsCtx j.func (descCtx j.desc) = true) (hfree : s.ctxMsg (descCtx j.desc) = none)
    (hk : s.cipherKey j.func (descKey j.desc) false = some k) (hn : n = descN j.desc 32 5) (hlen : gcmDeclared j.desc = n)
    (hr : s.xread j.func (descN j.desc 16 8) (descN j.desc 12 4 + n + descN j.desc 6 1) = .ok bs) (ha : aad = bs.take (descN j.desc 12 4))
    (hi : inp = sliceBytes bs (descN j.desc 12 4) n) (htag : tag = sliceBytes bs (descN j.desc 12 4 + n) (descN j.desc 6 1))
    (hout : out = (if (gcmTag k.key (sliceBytes j.desc 42 12) aad inp).take (descN j.desc 6 1) = tag then gcmCrypt k.key (sliceBytes j.desc 42 12) inp
      else List.replicate n 0))
    (hw : xfault s.xlate j.func .w (piecesOf (descN j.desc 24 8) out.length) = none) :
    ∃ (t : State) (d : JobDone), exec (.gcmDecrypt src) s = .next t
      ∧ t.mem = xwriteAux s.xlate j.func (piecesOf (descN j.desc 24 8) out.length) out s.mem ∧ t.jobs.finished = s.jobs.finished ++ [d]
      ∧ d.status = (if (gcmTag k.key (sliceBytes j.desc 42 12) aad inp).take (descN j.desc 6 1) = tag then 0 else 0x0F)
      ∧ t.ctxMsg (descCtx j.desc) = none ∧ t.keys.slots = s.keys.slots := by
  subst hn ha hi htag
  obtain ⟨p, -, hjob⟩ := State.cipherJob_of_job hj hwait hready
  have hdo : (s.cipherBegun j).cipherDo j = (s.cipherBegun j).gcmRun j false := by
    rw [State.cipherDo, ho]
    rfl
  rw [hdo, State.gcmRun_of_first (f := s.cipherBegun j) hd hf hown hfree hk,
    State.gcmSegment_decrypts (f := s.cipherBegun j) hf hlen hr Iff.rfl hout hw] at hjob
  obtain ⟨hfin, hmem, hslots, hctxs⟩ := cipherEnd_spec j p (if (gcmTag k.key (sliceBytes j.desc 42 12) (bs.take (descN j.desc 12 4))
    (sliceBytes bs (descN j.desc 12 4) (descN j.desc 32 5))).take (descN j.desc 6 1) = sliceBytes bs (descN j.desc 12 4 + descN j.desc 32 5) (descN j.desc 6 1)
    then 0 else 0x0F, descN j.desc 32 5, [], (s.cipherBegun j).gcmWrote j out)
  refine ⟨_, _, congrArg Host.Outcome.next hjob, hmem, hfin, rfl, ?_, hslots⟩
  rw [State.ctxMsg, hctxs]
  exact State.ctxMsg_freeCtx _ _

/-! ### Completion and reseeding -/

theorem State.cipherJobComplete_of_done {d : JobDone} (hd : s.doneJob 3 = some d) :
    exec .cipherJobComplete s = .next ((s.dropDone d).endJob d 0 fun t a =>
      (t.xlateFault d.job.func a 0 true false true).record 0x28 E.CIPHER_XLATE_FAULT (keyInfo (descN d.record 5 1) 0 d.job.func 0) d.job.func) := by
  show execCipherJobComplete s = _
  rw [execCipherJobComplete, hd]

/-- A generator seeded afresh (R419). -/
def State.reseeded (s : State) (g : Nat) : State :=
  (s.setKeys fun k => { k with masks := k.masks ++ [g], draws := assocSet k.draws g 0 }).bump R.ENTROPY.RESEEDS_COUNT

theorem State.maskReseed_of_spent {g : Fin 7} (hg : g.val ∉ s.keys.masks) : exec (.maskReseed g) s
    = if s.get R.ENTROPY.ES_STATUS_STATE = 1 then .next (s.reseeded g).masked else .next (if g.val < 6 then s.maskStall g.val else s) := by
  show execMaskReseed g s = _
  rw [execMaskReseed, List.contains_eq_mem, decide_eq_false hg, if_neg Bool.false_ne_true]
  rfl

/-- A stall is counted, and recorded where it is due. -/
theorem State.maskStall_cases (s : State) (p : Nat) : ∃ t, t = (s.bump R.CIPHER.MASK_STALLS_COUNT).pulse 0x28 Ev.CIPHER.MASK_STALL ∧
    (s.maskStall p = t ∨ s.maskStall p = (t.record 0x28 E.CIPHER_MASK_STALL (keyInfo p 0 0x1F0 0)).setKeys fun k => { k with stallAt := some s.time }) :=
  ⟨_, rfl, (ite_eq_or_eq ..).symm⟩

theorem State.maskStall_count (s : State) (p : Nat) :
    (s.maskStall p).get R.CIPHER.MASK_STALLS_COUNT = min (s.get R.CIPHER.MASK_STALLS_COUNT + 1) (2 ^ 32 - 1) := by
  obtain ⟨t, ht, hcases⟩ := s.maskStall_cases p
  have hget : t.get R.CIPHER.MASK_STALLS_COUNT = min (s.get R.CIPHER.MASK_STALLS_COUNT + 1) (2 ^ 32 - 1) := by
    rw [ht, State.pulse_get_beyond _ _ _ rfl, State.get_bump_same]
    rfl
  rcases hcases with h | h
  · rw [h, hget]
  · rw [h]
    exact (State.record_get_beyond _ _ _ _ _ _ _ rfl).trans hget

/-- A stall keeps the generators and the slots. -/
theorem State.maskStall_keys (s : State) (p : Nat) : (s.maskStall p).keys.masks = s.keys.masks ∧ (s.maskStall p).keys.slots = s.keys.slots := by
  obtain ⟨t, ht, hcases⟩ := s.maskStall_cases p
  have hkeys : t.keys = s.keys := by rw [ht, State.pulse_keys, State.bump_keys]
  have hrec : (t.record 0x28 E.CIPHER_MASK_STALL (keyInfo p 0 0x1F0 0)).keys = s.keys := (State.record_keys ..).trans hkeys
  rcases hcases with h | h
  · rw [h, hkeys]
    exact ⟨rfl, rfl⟩
  · rw [h]
    exact ⟨(congrArg KeySt.masks hrec :), (congrArg KeySt.slots hrec :)⟩

end

/-- Settles O41, job by job, then the completion and the reseeding. -/
theorem cipherJobsRun : Obligations.CipherJobsRun := by
  refine ⟨fun s src j op k bs out => xtsJob_of_good, fun s src j k bs aad inp out n => gcmEncrypt_of_first,
    fun s src j k bs aad inp out tag n => gcmDecrypt_of_first, fun s src j op => xtsJob_of_bad, fun s d hd => ?_, fun s g hes hg => ?_,
    fun s g hes hg => ?_, fun s g hg => ?_⟩
  · have hrest (e : JobDone) (he : e ∈ (s.dropDone d).jobs.finished) : e.job.id ≠ d.job.id := by simpa using (List.mem_filter.mp he).2
    exact ⟨s.dropDone d, _, State.cipherJobComplete_of_done hd, rfl, rfl, hrest⟩
  · refine ⟨s.reseeded g, by rw [State.maskReseed_of_spent hg, if_pos hes], rfl, assoc_assocSet_same .., ?_⟩
    exact State.get_bump_same ..
  · refine ⟨if g.val < 6 then s.maskStall g.val else s, by rw [State.maskReseed_of_spent hg, if_neg hes], ?_, ?_, fun h6 => ?_⟩
    · split
      · exact (s.maskStall_keys _).1
      · rfl
    · split
      · exact (s.maskStall_keys _).2
      · rfl
    · rw [if_pos h6, State.maskStall_count]
  · show execMaskReseed g s = _
    rw [execMaskReseed, if_pos (List.contains_iff_mem.mpr hg)]

end Sys2Proof.Machine
end

section
/-!
The key engine's jobs (R418, R421, R423).
-/

namespace Sys2Proof.Machine

open Sys2Proof.Laws

section
variable {s u f : State} {j : Job} {op h : Nat} {kek : Bytes}

/-- The record of a key engine job. -/
def keyDone (j : Job) (r : KeyOut) : JobDone := ⟨j, r.1, descN j.desc 56 8, keyRecord (descN j.desc 8 4) r.1 0 ++ r.2.1, 0⟩

/-- The state in which the job at the front has run. -/
def keyEnd (j : Job) (r : KeyOut) : State :=
  ((r.2.2.keyErr j r.1).setKeys fun x => { x with queue := x.queue.drop 1, finished := x.finished ++ [keyDone j r] }).showKeys

/-- What a run leaves, given what the job did. -/
theorem keyEnd_keys (j : Job) (r : KeyOut) : (keyEnd j r).keys
    = { r.2.2.keys with queue := r.2.2.keys.queue.drop 1, finished := r.2.2.keys.finished ++ [keyDone j r] } := by
  have hkeys : (r.2.2.keyErr j r.1).keys = r.2.2.keys := keeps_keys (State.forget_keyErr (T := 0x480000420) rfl ..) rfl
  rw [← hkeys]
  rfl

theorem keyEnd_slot (j : Job) (r : KeyOut) (n : Nat) : (keyEnd j r).keySlot n = r.2.2.keySlot n := by
  rw [State.keySlot, keyEnd_keys, State.keySlot]

/-- A command runs the job at the front where it is of the command's operation and masks are fresh. -/
theorem State.keyJob_of_front (hu : s.fetchKeyJobs = u) (hq : u.keys.queue.head? = some j) (ho : descN j.desc 0 1 = op) (h7 : op ≠ 7)
    (hm : 6 ∈ u.keys.masks) : s.keyJob op = keyEnd j ((u.drawMasks 6 16).runKey j) := by
  simp only [State.keyJob, hu, hq, ho, true_or, if_true, h7, if_false, List.contains_iff_mem.mpr hm]
  rfl

/-- CLEAR needs no masks. -/
theorem State.keyJob_of_clear (hu : s.fetchKeyJobs = u) (hq : u.keys.queue.head? = some j) (ho : descN j.desc 0 1 = 7) :
    s.keyJob 7 = keyEnd j (u.runKey j) := by
  simp only [State.keyJob, hu, hq, ho, true_or, if_true]
  rfl

theorem State.keyJob_waits (hu : s.fetchKeyJobs = u) (hq : u.keys.queue.head? = some j) (ho : descN j.desc 0 1 = op) (h7 : op ≠ 7)
    (hm : 6 ∉ u.keys.masks) : s.keyJob op = u := by
  have hc : u.keys.masks.contains 6 = false := by simpa using hm
  simp only [State.keyJob, hu, hq, ho, true_or, if_true, h7, if_false, hc, Bool.false_eq_true]

/-! ### The slots -/

theorem State.keySlot_loadSlot_same (s : State) (k : KeySlot) : (s.loadSlot k).keySlot k.slot = some k := by
  have hnone : (s.keys.slots.filter (·.slot != k.slot)).find? (·.slot == k.slot) = none :=
    List.find?_eq_none.mpr fun x hx => by simpa using (List.mem_filter.mp hx).2
  show List.find? _ (_ ++ [k]) = some k
  rw [List.find?_append, hnone, Option.none_or]
  exact List.find?_cons_of_pos (p := fun x : KeySlot => x.slot == k.slot) BEq.rfl

theorem find?_slot_filter (l : List KeySlot) {n m : Nat} (h : n ≠ m) : (l.filter (·.slot != m)).find? (·.slot == n) = l.find? (·.slot == n) := by
  rw [List.find?_filter]
  refine congrArg (fun p => List.find? p l) (funext fun x => ?_)
  by_cases hx : x.slot = n
  · simp [hx, h]
  · simp [hx]

theorem State.keySlot_loadSlot_other (s : State) (k : KeySlot) {n : Nat} (h : n ≠ k.slot) : (s.loadSlot k).keySlot n = s.keySlot n := by
  have hk : (k.slot == n) = false := beq_false_of_ne (Ne.symm h)
  show List.find? _ (_ ++ [k]) = _
  rw [List.find?_append, find?_slot_filter _ h, List.find?_singleton, hk, if_neg Bool.false_ne_true, Option.or_none]
  rfl

theorem State.keySlot_clearSlot_same (s : State) (n : Nat) : (s.clearSlot n).keySlot n = none :=
  List.find?_eq_none.mpr fun x hx => by simpa using (List.mem_filter.mp hx).2

theorem State.keySlot_clearSlot_other (s : State) {n m : Nat} (h : n ≠ m) : (s.clearSlot m).keySlot n = s.keySlot n := find?_slot_filter _ h

/-- A host's key material comes with its descriptor, and a host takes a wrapped key with its record. -/
theorem State.keySrc_of_host (f : State) (hs : j.src = .host h) (n : Nat) : f.keySrc j n = .ok (sliceBytes j.desc 64 n) := by
  rw [State.keySrc, hs]

theorem State.keyDst_of_host (f : State) (hs : j.src = .host h) (w : Bytes) : f.keyDst j w = (0, w, f) := by
  rw [State.keyDst, hs]

/-! ### What a job does -/

/-- A function's KEK kept for the next job. -/
def State.kekKept (f : State) (x : List (Nat × Bytes)) : State := f.setKeys fun k => { k with kekFunc := x }

theorem State.kekKept_self (f : State) : f.kekKept f.keys.kekFunc = f := rfl

/-- A function has a KEK exactly where KEK_MEDIA is there; it is kept for the next job (R421, R423). -/
theorem State.kekFor_cases (f : State) (func : Nat) : (f.keys.kekMedia = none ∧ f.kekFor func = (none, f)) ∨ ∃ kek x, f.kekFor func = (some kek, f.kekKept x) := by
  cases hm : f.keys.kekMedia with
  | none =>
    refine .inl ⟨rfl, ?_⟩
    rw [State.kekFor, hm]
  | some m =>
    refine .inr ?_
    simp only [State.kekFor, hm]
    split
    · exact ⟨m, _, Prod.ext rfl f.kekKept_self.symm⟩
    · split
      next k _ => exact ⟨k, _, Prod.ext rfl f.kekKept_self.symm⟩
      · exact ⟨_, _, rfl⟩

theorem State.kekFor_of_some {func : Nat} (hk : (f.kekFor func).1 = some kek) : ∃ x, f.kekFor func = (some kek, f.kekKept x) := by
  rcases f.kekFor_cases func with ⟨-, he⟩ | ⟨k, x, he⟩
  · rw [he] at hk
    cases hk
  · rw [he] at hk
    cases hk
    exact ⟨x, he⟩

theorem State.kekFor_of_media (func : Nat) (hm : f.keys.kekMedia ≠ none) : ∃ kek, (f.kekFor func).1 = some kek := by
  rcases f.kekFor_cases func with ⟨he, -⟩ | ⟨k, x, he⟩
  · exact absurd he hm
  · exact ⟨k, by rw [he]⟩

/-- The slot that a job loads (R418). -/
def keyLoads (j : Job) (key : Bytes) : KeySlot := ⟨descN j.desc 2 2 % 1024, key, descN j.desc 1 1 == 1, j.func, 0⟩

theorem State.runKey_generates (hs : j.src = .host h) (ho : descN j.desc 0 1 = 2) (hd : keyDescOk j.desc true = true) {g : State}
    (hk : f.kekFor j.func = (some kek, g)) (hslot : g.slotCheck j.func (descN j.desc 2 2 % 1024) = 0) {b : Bytes × State}
    (hb : g.freshBytes (keyBytes (descN j.desc 1 1)) = b) : f.runKey j = (0, aesWrap kek b.1, b.2.loadSlot (keyLoads j b.1)) := by
  subst hb
  rw [← State.keyDst_of_host _ hs, State.runKey]
  simp only [hs, hostSrc, hd, ho, hk, hslot, Bool.not_true, Bool.false_eq_true, if_false, if_true, OfNat.ofNat_ne_one, Nat.reduceEqDiff]
  rfl

theorem State.runKey_unwraps (hs : j.src = .host h) (ho : descN j.desc 0 1 = 3) (hd : keyDescOk j.desc true = true) {g : State}
    (hk : f.kekFor j.func = (some kek, g)) (hslot : g.slotCheck j.func (descN j.desc 2 2 % 1024) = 0) {key : Bytes}
    (hu : aesUnwrap kek (sliceBytes j.desc 64 (descN j.desc 12 4)) = some key) : f.runKey j = (0, [], g.loadSlot (keyLoads j key)) := by
  rw [State.runKey]
  simp only [hs, hostSrc, hd, ho, hk, hslot, hu, State.keySrc_of_host g hs, Bool.not_true, Bool.false_eq_true, if_false, if_true, OfNat.ofNat_ne_one, Nat.reduceEqDiff]
  rfl

theorem State.runKey_unwrap_fails (hs : j.src = .host h) (ho : descN j.desc 0 1 = 3) (hd : keyDescOk j.desc true = true) {g : State}
    (hk : f.kekFor j.func = (some kek, g)) (hslot : g.slotCheck j.func (descN j.desc 2 2 % 1024) = 0)
    (hu : aesUnwrap kek (sliceBytes j.desc 64 (descN j.desc 12 4)) = none) : f.runKey j = (0x10, [], g) := by
  rw [State.runKey]
  simp only [hs, hostSrc, hd, ho, hk, hslot, hu, State.keySrc_of_host g hs, Bool.not_true, Bool.false_eq_true, if_false, if_true, OfNat.ofNat_ne_one, Nat.reduceEqDiff]

theorem State.runKey_wraps (hs : j.src = .host h) (ho : descN j.desc 0 1 = 4) (hd : keyDescOk j.desc true = true) {g : State}
    (hk : f.kekFor j.func = (some kek, g)) (hown : g.ownsSlot j.func (descN j.desc 4 2 % 1024) = true) {k : KeySlot}
    (hsrc : g.keySlot (descN j.desc 4 2 % 1024) = some k) (hx : k.xts = (descN j.desc 1 1 == 1)) : f.runKey j = (0, aesWrap kek k.key, g) := by
  rw [← State.keyDst_of_host _ hs, State.runKey]
  simp only [hs, hostSrc, hd, ho, hk, hown, hsrc, hx, BEq.rfl, Bool.not_true, Bool.false_eq_true, if_false, if_true, OfNat.ofNat_ne_one, Nat.reduceEqDiff]

theorem State.runKey_derives (hs : j.src = .host h) (ho : descN j.desc 0 1 = 5) (hd : keyDescOk j.desc true = true) {g : State}
    (hk : f.kekFor j.func = (some kek, g)) (hslot : g.slotCheck j.func (descN j.desc 2 2 % 1024) = 0)
    (hown : g.ownsSlot j.func (descN j.desc 4 2 % 1024) = true) {k : KeySlot} (hsrc : g.keySlot (descN j.desc 4 2 % 1024) = some k) :
    f.runKey j = (0, [], g.loadSlot (keyLoads j (deriveBytes k.key (sliceBytes j.desc 64 (descN j.desc 12 4)) (keyBytes (descN j.desc 1 1))))) := by
  rw [State.runKey]
  simp only [hs, hostSrc, hd, ho, hk, hslot, hown, hsrc, State.keySrc_of_host g hs, Bool.not_true, Bool.false_eq_true, if_false, if_true, OfNat.ofNat_ne_one, Nat.reduceEqDiff]
  rfl

theorem State.runKey_loads (hs : j.src = .host h) (ho : descN j.desc 0 1 = 6) (hd : keyDescOk j.desc true = true) {g : State}
    (hk : f.kekFor j.func = (some kek, g)) (hslot : g.slotCheck j.func (descN j.desc 2 2 % 1024) = 0) (hlow : 128 ≤ descN j.desc 2 2 % 1024) :
    f.runKey j = (0, [], g.loadSlot (keyLoads j (sliceBytes j.desc 64 (descN j.desc 12 4)))) := by
  rw [State.runKey]
  simp only [hs, hostSrc, hd, ho, hk, hslot, Nat.not_lt.mpr hlow, State.keySrc_of_host g hs, Bool.not_true, Bool.false_eq_true, if_false, OfNat.ofNat_ne_one, Nat.reduceEqDiff]
  rfl

theorem State.runKey_clears (ho : descN j.desc 0 1 = 7) (hd : keyDescOk j.desc (hostSrc j.src) = true)
    (hslot : f.slotCheck j.func (descN j.desc 2 2 % 1024) = 0) : f.runKey j = (0, [], f.clearSlot (descN j.desc 2 2 % 1024)) := by
  rw [State.runKey]
  simp only [hd, ho, hslot, Bool.not_true, Bool.false_eq_true, if_false, if_true, OfNat.ofNat_ne_one]

/-- What a slot of another function and a slot in use are answered (R421). -/
theorem State.slotCheck_of_bad {n : Nat} (hslot : f.slotCheck j.func n ≠ 0) : f.slotCheck j.func n = if f.ownsSlot j.func n then 0x12 else 0x11 := by
  unfold State.slotCheck at hslot ⊢
  cases hown : f.ownsSlot j.func n with
  | false => rfl
  | true =>
    simp only [hown, Bool.not_true, Bool.false_eq_true, if_false, if_true] at hslot ⊢
    split at hslot
    next hb => rw [if_pos hb]
    · exact absurd rfl hslot

theorem State.runKey_clear_refused (ho : descN j.desc 0 1 = 7) (hd : keyDescOk j.desc (hostSrc j.src) = true)
    (hslot : f.slotCheck j.func (descN j.desc 2 2 % 1024) ≠ 0) : f.runKey j = (f.slotCheck j.func (descN j.desc 2 2 % 1024), [], f) := by
  rw [State.runKey]
  simp only [hd, ho, Bool.not_true, Bool.false_eq_true, if_false, if_true, OfNat.ofNat_ne_one]

theorem State.runKey_refused (hop : op = 2 ∨ op = 5 ∨ op = 6) (ho : descN j.desc 0 1 = op) (hd : keyDescOk j.desc (hostSrc j.src) = true) {g : State}
    (hk : f.kekFor j.func = (some kek, g)) (hslot : g.slotCheck j.func (descN j.desc 2 2 % 1024) ≠ 0) :
    f.runKey j = (g.slotCheck j.func (descN j.desc 2 2 % 1024), [], g) := by
  have h1 : op ≠ 1 := by omega
  have h7 : op ≠ 7 := by omega
  have h4 : op ≠ 4 := by omega
  rw [State.runKey]
  simp only [hd, ho, hk, h1, h4, h7, Bool.not_true, Bool.false_eq_true, if_false]

theorem State.runKey_derives_keks (ho : descN j.desc 0 1 = 1) (hd : keyDescOk j.desc (hostSrc j.src) = true) (hsys : systemTag j.func = true) :
    f.runKey j = if f.keys.kekMedia.isSome || f.mayDerive then (0, [], f.deriveMedia) else (0x0B, [], f) := by
  rw [State.runKey]
  simp only [hd, ho, hsys, Bool.not_true, Bool.false_eq_true, if_false, if_true]

end

section
variable {s u : State} {j : Job} {h op : Nat} {kek : Bytes}

/-- The state in which a job of a function runs: masks drawn, and the function's KEK kept. -/
def State.keyBegun (u : State) (x : List (Nat × Bytes)) : State := (u.drawMasks 6 16).kekKept x

/-- Drawing masks changes no KEK. -/
theorem State.kekFor_drawMasks (u : State) (func : Nat) : ((u.drawMasks 6 16).kekFor func).1 = (u.kekFor func).1 := by
  have hkek : (u.drawMasks 6 16).kek 2 func ((u.drawMasks 6 16).genOf func) = u.kek 2 func (u.genOf func) := rfl
  have hfunc : (u.drawMasks 6 16).keys.kekFunc = u.keys.kekFunc := rfl
  cases hm : u.keys.kekMedia with
  | none =>
    have hm' : (u.drawMasks 6 16).keys.kekMedia = none := hm
    rw [State.kekFor, State.kekFor, hm, hm']
  | some m =>
    have hm' : (u.drawMasks 6 16).keys.kekMedia = some m := hm
    simp only [State.kekFor, hm, hm', hfunc, hkek]
    split
    · rfl
    · cases assoc u.keys.kekFunc func with
      | none => rfl
      | some k => rfl

theorem State.kekFor_drawn {func : Nat} (hk : (u.kekFor func).1 = some kek) : ∃ x, (u.drawMasks 6 16).kekFor func = (some kek, u.keyBegun x) :=
  State.kekFor_of_some ((u.kekFor_drawMasks func).trans hk)

/-- What a job that loads a slot leaves. -/
theorem keyEnd_loads (j : Job) (w key : Bytes) (g : State) : (keyEnd j (0, w, g.loadSlot (keyLoads j key))).keySlot (descN j.desc 2 2 % 1024) = some (keyLoads j key)
    ∧ (∀ n, n ≠ descN j.desc 2 2 % 1024 → (keyEnd j (0, w, g.loadSlot (keyLoads j key))).keySlot n = g.keySlot n)
    ∧ (keyEnd j (0, w, g.loadSlot (keyLoads j key))).keys.finished = g.keys.finished ++ [keyDone j (0, w, g.loadSlot (keyLoads j key))] := by
  refine ⟨?_, fun n hn => ?_, ?_⟩
  · rw [keyEnd_slot]
    exact State.keySlot_loadSlot_same g (keyLoads j key)
  · rw [keyEnd_slot]
    exact State.keySlot_loadSlot_other g (keyLoads j key) hn
  · rw [keyEnd_keys]
    rfl

end

section
variable {s u : State} {j : Job} {h : Nat} {kek : Bytes}

theorem deriveKeks_of_allowed (hu : s.fetchKeyJobs = u) (hq : u.keys.queue.head? = some j) (ho : descN j.desc 0 1 = 1)
    (hd : keyDescOk j.desc (hostSrc j.src) = true) (hsys : systemTag j.func = true) (hm : 6 ∈ u.keys.masks)
    (hmay : u.keys.kekMedia ≠ none ∨ u.mayDerive = true) :
    ∃ (t : State) (d : JobDone), exec .deriveKeks s = .next t.owedTrails ∧ t.keys.kekMedia = some (u.kek 1 0 0) ∧ t.keys.slots = u.keys.slots
      ∧ t.keys.queue = u.keys.queue.drop 1 ∧ t.keys.finished = u.keys.finished ++ [d] ∧ d.status = 0 := by
  have hcond : ((u.drawMasks 6 16).keys.kekMedia.isSome || (u.drawMasks 6 16).mayDerive) = true := by
    rw [Bool.or_eq_true]
    exact hmay.imp_left Option.isSome_iff_ne_none.mpr
  have hjob := State.keyJob_of_front hu hq ho (by decide) hm
  rw [State.runKey_derives_keks ho hd hsys, if_pos hcond] at hjob
  refine ⟨_, keyDone j (0, [], (u.drawMasks 6 16).deriveMedia), congrArg (fun t : State => Host.Outcome.next t.owedTrails) hjob, ?_⟩
  rw [keyEnd_keys]
  exact ⟨rfl, rfl, rfl, rfl, rfl⟩

theorem deriveKeks_of_locked (hu : s.fetchKeyJobs = u) (hq : u.keys.queue.head? = some j) (ho : descN j.desc 0 1 = 1)
    (hd : keyDescOk j.desc (hostSrc j.src) = true) (hsys : systemTag j.func = true) (hm : 6 ∈ u.keys.masks)
    (hnone : u.keys.kekMedia = none) (hmay : u.mayDerive = false) :
    ∃ (t : State) (d : JobDone), exec .deriveKeks s = .next t.owedTrails ∧ t.keys.kekMedia = none ∧ t.keys.finished = u.keys.finished ++ [d] ∧ d.status = 0x0B := by
  have hmay' : (u.drawMasks 6 16).mayDerive = false := hmay
  have hnone' : (u.drawMasks 6 16).keys.kekMedia = none := hnone
  have hjob := State.keyJob_of_front hu hq ho (by decide) hm
  rw [State.runKey_derives_keks ho hd hsys, hmay', hnone', Option.isSome_none, Bool.or_false, if_neg Bool.false_ne_true] at hjob
  refine ⟨_, keyDone j (0x0B, [], u.drawMasks 6 16), congrArg (fun t : State => Host.Outcome.next t.owedTrails) hjob, ?_⟩
  rw [keyEnd_keys]
  exact ⟨hnone', rfl, rfl⟩

theorem generate_of_owned (hu : s.fetchKeyJobs = u) (hq : u.keys.queue.head? = some j) (hs : j.src = .host h) (ho : descN j.desc 0 1 = 2)
    (hd : keyDescOk j.desc true = true) (hm : 6 ∈ u.keys.masks) (hk : (u.kekFor j.func).1 = some kek)
    (hslot : u.slotCheck j.func (descN j.desc 2 2 % 1024) = 0) :
    ∃ (t : State) (d : JobDone) (key : Bytes), exec .generate s = .next t ∧ key.length = keyBytes (descN j.desc 1 1)
      ∧ t.keySlot (descN j.desc 2 2 % 1024) = some ⟨descN j.desc 2 2 % 1024, key, descN j.desc 1 1 == 1, j.func, 0⟩
      ∧ (∀ n, n ≠ descN j.desc 2 2 % 1024 → t.keySlot n = u.keySlot n)
      ∧ t.keys.finished = u.keys.finished ++ [d] ∧ d.status = 0 ∧ d.record = keyRecord (descN j.desc 8 4) 0 0 ++ aesWrap kek key := by
  obtain ⟨x, hx⟩ := State.kekFor_drawn hk
  have hjob := State.keyJob_of_front hu hq ho (by decide) hm
  rw [State.runKey_generates hs ho hd hx hslot rfl] at hjob
  obtain ⟨hsame, hother, hfin⟩ := keyEnd_loads j (aesWrap kek ((u.keyBegun x).freshBytes (keyBytes (descN j.desc 1 1))).1)
    ((u.keyBegun x).freshBytes (keyBytes (descN j.desc 1 1))).1 ((u.keyBegun x).freshBytes (keyBytes (descN j.desc 1 1))).2
  refine ⟨_, _, _, congrArg Host.Outcome.next hjob, ?_, hsame, hother, hfin, rfl, rfl⟩
  rw [State.freshBytes, List.length_map, List.length_range]

theorem unwrapLoad_of_owned (hu : s.fetchKeyJobs = u) (hq : u.keys.queue.head? = some j) (hs : j.src = .host h) (ho : descN j.desc 0 1 = 3)
    (hd : keyDescOk j.desc true = true) (hm : 6 ∈ u.keys.masks) (hk : (u.kekFor j.func).1 = some kek)
    (hslot : u.slotCheck j.func (descN j.desc 2 2 % 1024) = 0) :
    ∃ (t : State) (d : JobDone), exec .unwrapLoad s = .next t.owedTrails ∧ t.keys.finished = u.keys.finished ++ [d]
      ∧ (∀ key, aesUnwrap kek (sliceBytes j.desc 64 (descN j.desc 12 4)) = some key → d.status = 0
          ∧ t.keySlot (descN j.desc 2 2 % 1024) = some ⟨descN j.desc 2 2 % 1024, key, descN j.desc 1 1 == 1, j.func, 0⟩)
      ∧ (aesUnwrap kek (sliceBytes j.desc 64 (descN j.desc 12 4)) = none → d.status = 0x10 ∧ t.keys.slots = u.keys.slots) := by
  obtain ⟨x, hx⟩ := State.kekFor_drawn hk
  have hjob := State.keyJob_of_front hu hq ho (by decide) hm
  cases hun : aesUnwrap kek (sliceBytes j.desc 64 (descN j.desc 12 4)) with
  | some key =>
    rw [State.runKey_unwraps hs ho hd hx hslot hun] at hjob
    obtain ⟨hsame, -, hfin⟩ := keyEnd_loads j [] key (u.keyBegun x)
    refine ⟨_, _, congrArg (fun t : State => Host.Outcome.next t.owedTrails) hjob, hfin, ?_, fun h => nomatch h⟩
    rintro k ⟨⟩
    exact ⟨rfl, hsame⟩
  | none =>
    rw [State.runKey_unwrap_fails hs ho hd hx hslot hun] at hjob
    refine ⟨_, keyDone j (0x10, [], u.keyBegun x), congrArg (fun t : State => Host.Outcome.next t.owedTrails) hjob, ?_, (fun _ h => nomatch h), fun _ => ⟨rfl, ?_⟩⟩
    · rw [keyEnd_keys]
      rfl
    · rw [keyEnd_keys]
      rfl

theorem wrap_of_owned {k : KeySlot} (hu : s.fetchKeyJobs = u) (hq : u.keys.queue.head? = some j) (hs : j.src = .host h) (ho : descN j.desc 0 1 = 4)
    (hd : keyDescOk j.desc true = true) (hm : 6 ∈ u.keys.masks) (hk : (u.kekFor j.func).1 = some kek)
    (hown : u.ownsSlot j.func (descN j.desc 4 2 % 1024) = true) (hsrc : u.keySlot (descN j.desc 4 2 % 1024) = some k)
    (hxts : k.xts = (descN j.desc 1 1 == 1)) :
    ∃ (t : State) (d : JobDone), exec .wrap s = .next t ∧ t.keys.slots = u.keys.slots ∧ t.keys.finished = u.keys.finished ++ [d] ∧ d.status = 0
      ∧ d.record = keyRecord (descN j.desc 8 4) 0 0 ++ aesWrap kek k.key := by
  obtain ⟨x, hx⟩ := State.kekFor_drawn hk
  have hjob := State.keyJob_of_front hu hq ho (by decide) hm
  rw [State.runKey_wraps hs ho hd hx hown hsrc hxts] at hjob
  refine ⟨_, keyDone j (0, aesWrap kek k.key, u.keyBegun x), congrArg Host.Outcome.next hjob, ?_⟩
  rw [keyEnd_keys]
  exact ⟨rfl, rfl, rfl, rfl⟩

theorem derive_of_owned {k : KeySlot} (hu : s.fetchKeyJobs = u) (hq : u.keys.queue.head? = some j) (hs : j.src = .host h) (ho : descN j.desc 0 1 = 5)
    (hd : keyDescOk j.desc true = true) (hm : 6 ∈ u.keys.masks) (hk : (u.kekFor j.func).1 = some kek)
    (hslot : u.slotCheck j.func (descN j.desc 2 2 % 1024) = 0) (hown : u.ownsSlot j.func (descN j.desc 4 2 % 1024) = true)
    (hsrc : u.keySlot (descN j.desc 4 2 % 1024) = some k) :
    ∃ (t : State) (d : JobDone) (x : KeySlot), exec .derive s = .next t ∧ t.keySlot (descN j.desc 2 2 % 1024) = some x
      ∧ x.key.length = keyBytes (descN j.desc 1 1) ∧ x.xts = (descN j.desc 1 1 == 1) ∧ x.owner = j.func
      ∧ t.keys.finished = u.keys.finished ++ [d] ∧ d.status = 0 := by
  obtain ⟨x, hx⟩ := State.kekFor_drawn hk
  have hjob := State.keyJob_of_front hu hq ho (by decide) hm
  rw [State.runKey_derives hs ho hd hx hslot hown hsrc] at hjob
  obtain ⟨hsame, -, hfin⟩ := keyEnd_loads j [] (deriveBytes k.key (sliceBytes j.desc 64 (descN j.desc 12 4)) (keyBytes (descN j.desc 1 1))) (u.keyBegun x)
  refine ⟨_, _, _, congrArg Host.Outcome.next hjob, hsame, ?_, rfl, rfl, hfin, rfl⟩
  rw [keyLoads, deriveBytes, List.length_map, List.length_range]

theorem loadPlain_of_owned (hu : s.fetchKeyJobs = u) (hq : u.keys.queue.head? = some j) (hs : j.src = .host h) (ho : descN j.desc 0 1 = 6)
    (hd : keyDescOk j.desc true = true) (hm : 6 ∈ u.keys.masks) (hk : (u.kekFor j.func).1 = some kek)
    (hslot : u.slotCheck j.func (descN j.desc 2 2 % 1024) = 0) (hlow : 128 ≤ descN j.desc 2 2 % 1024) :
    ∃ (t : State) (d : JobDone), exec .loadPlain s = .next t
      ∧ t.keySlot (descN j.desc 2 2 % 1024) = some ⟨descN j.desc 2 2 % 1024, sliceBytes j.desc 64 (descN j.desc 12 4), descN j.desc 1 1 == 1, j.func, 0⟩
      ∧ t.keys.finished = u.keys.finished ++ [d] ∧ d.status = 0 := by
  obtain ⟨x, hx⟩ := State.kekFor_drawn hk
  have hjob := State.keyJob_of_front hu hq ho (by decide) hm
  rw [State.runKey_loads hs ho hd hx hslot hlow] at hjob
  obtain ⟨hsame, -, hfin⟩ := keyEnd_loads j [] (sliceBytes j.desc 64 (descN j.desc 12 4)) (u.keyBegun x)
  exact ⟨_, _, congrArg Host.Outcome.next hjob, hsame, hfin, rfl⟩

theorem clear_of_owned (hu : s.fetchKeyJobs = u) (hq : u.keys.queue.head? = some j) (ho : descN j.desc 0 1 = 7)
    (hd : keyDescOk j.desc (hostSrc j.src) = true) (hslot : u.slotCheck j.func (descN j.desc 2 2 % 1024) = 0) :
    ∃ (t : State) (d : JobDone), exec .clear s = .next t ∧ t.keySlot (descN j.desc 2 2 % 1024) = none
      ∧ (∀ n, n ≠ descN j.desc 2 2 % 1024 → t.keySlot n = u.keySlot n) ∧ t.keys.finished = u.keys.finished ++ [d] ∧ d.status = 0 := by
  have hjob := State.keyJob_of_clear hu hq ho
  rw [State.runKey_clears ho hd hslot] at hjob
  refine ⟨_, keyDone j (0, [], u.clearSlot (descN j.desc 2 2 % 1024)), congrArg Host.Outcome.next hjob, ?_, fun n hn => ?_, ?_, rfl⟩
  · rw [keyEnd_slot]
    exact State.keySlot_clearSlot_same u _
  · rw [keyEnd_slot]
    exact State.keySlot_clearSlot_other u hn
  · rw [keyEnd_keys]
    rfl

theorem keyJob_of_bad_slot {op : Nat} (hop : op = 2 ∨ op = 5 ∨ op = 6 ∨ op = 7) (hu : s.fetchKeyJobs = u) (hq : u.keys.queue.head? = some j)
    (ho : descN j.desc 0 1 = op) (hd : keyDescOk j.desc (hostSrc j.src) = true) (hslot : u.slotCheck j.func (descN j.desc 2 2 % 1024) ≠ 0)
    (hready : op = 7 ∨ (u.keys.kekMedia ≠ none ∧ 6 ∈ u.keys.masks)) :
    ∃ g : State, g.keys.slots = u.keys.slots ∧ g.keys.finished = u.keys.finished
      ∧ s.keyJob op = keyEnd j (if u.ownsSlot j.func (descN j.desc 2 2 % 1024) then 0x12 else 0x11, [], g) := by
  rw [← State.slotCheck_of_bad hslot]
  by_cases h7 : op = 7
  · subst h7
    refine ⟨u, rfl, rfl, ?_⟩
    rw [State.keyJob_of_clear hu hq ho, State.runKey_clear_refused ho hd hslot]
  · obtain ⟨hmedia, hm⟩ := hready.resolve_left h7
    obtain ⟨kek, hk⟩ := State.kekFor_of_media j.func hmedia
    obtain ⟨x, hx⟩ := State.kekFor_drawn hk
    refine ⟨u.keyBegun x, rfl, rfl, ?_⟩
    rw [State.keyJob_of_front hu hq ho h7 hm, State.runKey_refused (by omega) ho hd hx hslot]
    rfl

theorem keyJob_refuses {op : Nat} (hop : op = 2 ∨ op = 5 ∨ op = 6 ∨ op = 7) (hu : s.fetchKeyJobs = u) (hq : u.keys.queue.head? = some j)
    (ho : descN j.desc 0 1 = op) (hd : keyDescOk j.desc (hostSrc j.src) = true) (hslot : u.slotCheck j.func (descN j.desc 2 2 % 1024) ≠ 0)
    (hready : op = 7 ∨ (u.keys.kekMedia ≠ none ∧ 6 ∈ u.keys.masks)) :
    ∃ (t : State) (d : JobDone), (op = 2 → exec .generate s = .next t) ∧ (op = 5 → exec .derive s = .next t)
      ∧ (op = 6 → exec .loadPlain s = .next t) ∧ (op = 7 → exec .clear s = .next t) ∧ t.keys.slots = u.keys.slots ∧ t.keys.finished = u.keys.finished ++ [d]
      ∧ d.status = (if u.ownsSlot j.func (descN j.desc 2 2 % 1024) then 0x12 else 0x11) := by
  obtain ⟨g, hslots, hfin, hjob⟩ := keyJob_of_bad_slot hop hu hq ho hd hslot hready
  generalize (if u.ownsSlot j.func (descN j.desc 2 2 % 1024) then 0x12 else 0x11 : Nat) = st at hjob ⊢
  have hexec (i : Instr) (n : Nat) (hi : exec i s = .next (s.keyJob n)) (hn : op = n) : exec i s = .next (keyEnd j (st, [], g)) :=
    hi.trans (congrArg Host.Outcome.next (hn ▸ hjob))
  refine ⟨_, keyDone j (st, [], g), hexec _ 2 rfl, hexec _ 5 rfl, hexec _ 6 rfl, hexec _ 7 rfl, ?_, ?_, rfl⟩
  · rw [keyEnd_keys]
    exact hslots
  · rw [keyEnd_keys]
    exact congrArg (· ++ _) hfin

end

/-- Settles O42, request by request. -/
theorem keyEngineJobsRun : Obligations.KeyEngineJobsRun := by
  refine ⟨fun s u j => deriveKeks_of_allowed, fun s u j h kek => generate_of_owned, fun s u j h kek => unwrapLoad_of_owned, fun s u j h kek k => wrap_of_owned,
    fun s u j h kek k => derive_of_owned, fun s u j h kek => loadPlain_of_owned, fun s u j => clear_of_owned, fun s u j op => keyJob_refuses,
    fun s u j => deriveKeks_of_locked, fun s u j hu hq ho hm => ?_, fun s d ds cl hfin hsrc => ?_, fun s d ds fn hfin hsrc => ?_⟩
  · exact congrArg Host.Outcome.next (State.keyJob_waits hu hq ho (by decide) hm)
  · refine ⟨(s.setKeys fun x => { x with finished := ds }).bump R.KEYENG.JOBS_DONE_COUNT,
      fun u a => u.xlateFault d.job.func a 0 true false true, congrArg Host.Outcome.next ?_, rfl, rfl, rfl⟩
    rw [State.keyComplete, hfin]
    simp only [hsrc]
  · refine ⟨((s.setKeys fun x => { x with finished := ds }).bump R.KEYENG.JOBS_DONE_COUNT).setHost fun h => { h with secOut := assocSet h.secOut fn (padTo 104 d.record) },
      congrArg Host.Outcome.next ?_, rfl, assoc_assocSet_same ..⟩
    rw [State.keyComplete, hfin]
    simp only [hsrc]

end Sys2Proof.Machine
end

section
/-!
Alarms, zeroisation, the entropy source's start-up, UNLOCK and ERASE (R426-R430, R440).
-/

namespace Sys2Proof.Machine

open Sys2Proof.Laws

/-! ### Zeroisation -/

section
variable {s t : State} {o : Origin}

theorem State.showKeys_keys (s : State) : s.showKeys.keys = s.keys := rfl

theorem State.showKeys_jobs (s : State) : s.showKeys.jobs = s.jobs := rfl

/-- A key engine job ended by an alarm (R427). -/
def zeroisedJob (j : Job) : JobDone :=
  ⟨j, 0x0B, descN j.desc 56 8, leBytes 4 (descN j.desc 8 4) ++ leBytes 1 0x0B ++ leBytes 27 0, 0⟩

/-- The key engine's state with every key gone. -/
theorem State.zeroiseKeys_keys (s : State) : s.zeroiseKeys.keysGone ∧ s.zeroiseKeys.keys.finished = s.keys.finished ++ s.keys.queue.map zeroisedJob := by
  unfold State.keysGone State.zeroiseKeys
  dsimp only
  simp only [keeps_keys (State.forget_pulse (T := 0x480000020) rfl _ _ _) rfl]
  exact ⟨⟨rfl, rfl, rfl, rfl, rfl, rfl⟩, rfl⟩

/-- Every job that waited ends as zeroised (R427). -/
theorem State.zeroiseKeys_ends (s : State) {j : Job} (hj : j ∈ s.keys.queue) : ∃ d ∈ s.zeroiseKeys.keys.finished, d.job = j ∧ d.status = 0x0B := by
  rw [s.zeroiseKeys_keys.2]
  exact ⟨_, List.mem_append_right _ (List.mem_map.mpr ⟨j, hj, rfl⟩), rfl, rfl⟩

/-- The cipher engine's ended jobs lose their results (R427). -/
theorem State.zeroiseKeys_jobs (s : State) {d : JobDone} (hd : d ∈ s.zeroiseKeys.jobs.finished) (he : d.job.engine = 3) : d.status = 0x0B := by
  rw [State.zeroiseKeys, keeps_jobs (State.forget_pulse (T := 0x480000020) rfl ..) rfl] at hd
  obtain ⟨x, -, rfl⟩ := List.mem_map.mp hd
  split at he
  next h => rw [if_pos h]
  next h => exact absurd he h

theorem State.zeroiseKeys_get (s : State) {x : Fld} (hb : 0x040 ≤ x.off) (h1 : x ≠ R.CIPHER.SLOTS_USED_KEYS) (h2 : x ≠ R.CIPHER.SLOTS_USED_CONTEXTS)
    (h3 : x ≠ R.KEYENG.KE_STATUS_STATE) (h4 : x ≠ R.KEYENG.KE_STATUS_QUEUED) (h5 : x ≠ R.KEYENG.KE_STATUS_HOLDER) : s.zeroiseKeys.get x = s.get x := by
  rw [State.zeroiseKeys, State.pulse_get_beyond_header _ _ _ hb, State.showKeys, State.puts_cons, State.puts_cons, State.puts_cons, State.puts_cons,
    State.puts_cons, State.puts_nil, State.get_put_other _ _ h5, State.get_put_other _ _ h4, State.get_put_other _ _ h3, State.get_put_other _ _ h2,
    State.get_put_other _ _ h1]
  rfl

/-- The cause and the count of an alarm, shown before the keys go. -/
def State.alarmShown (s : State) (c : Nat) : State :=
  (((s.puts [(R.KEYENG.ALARM_CAUSE_CAUSE, setBit (s.get R.KEYENG.ALARM_CAUSE_CAUSE) c true), (R.KEYENG.LAST_ALARM_DTIME, s.time)]).bump
    R.KEYENG.ALARMS_COUNT).pulse 0x29 Ev.KEYENG.ALARM).record 0x29 E.KEYENG_ALARM 0

theorem State.alarm_eq (s : State) (c : Nat) : s.alarm c = (((s.alarmShown c).zeroiseKeys.closeKeys).endPerturb .alarm).settle := rfl

theorem State.alarmShown_frame (s : State) (c : Nat) : forget 0x480000420 (s.alarmShown c) = forget 0x480000420 s := by
  rw [State.alarmShown, State.forget_record rfl, State.forget_pulse rfl, State.forget_bump rfl, State.forget_puts rfl]

theorem State.alarmShown_get (s : State) (c : Nat) {x : Fld} (hb : 0x040 ≤ x.off) : (s.alarmShown c).get x
    = (((s.put R.KEYENG.ALARM_CAUSE_CAUSE (setBit (s.get R.KEYENG.ALARM_CAUSE_CAUSE) c true)).put R.KEYENG.LAST_ALARM_DTIME s.time).bump
      R.KEYENG.ALARMS_COUNT).get x := by
  rw [State.alarmShown, State.record_get_beyond_header _ _ _ _ _ _ _ hb, State.pulse_get_beyond_header _ _ _ hb]
  rfl

theorem State.alarm_cause (s : State) {c : Nat} (hc : c < 6) : bitAt ((s.alarmShown c).zeroiseKeys.get R.KEYENG.ALARM_CAUSE_CAUSE) c = true := by
  have hw : R.KEYENG.ALARM_CAUSE_CAUSE.w = 6 := rfl
  rw [State.zeroiseKeys_get _ (by decide) (by decide) (by decide) (by decide) (by decide) (by decide), s.alarmShown_get c (by decide),
    State.get_bump_other _ _ (by decide), State.get_put_of_place _ _ rfl, State.get_put_same, hw, bitAt_mod_two_pow _ hc, bitAt_setBit_same]

theorem State.alarm_count (s : State) (c : Nat) :
    (s.alarmShown c).zeroiseKeys.get R.KEYENG.ALARMS_COUNT = min (s.get R.KEYENG.ALARMS_COUNT + 1) (2 ^ 32 - 1) := by
  rw [State.zeroiseKeys_get _ (by decide) (by decide) (by decide) (by decide) (by decide) (by decide), s.alarmShown_get c (by decide), State.bump,
    State.get_put_same, State.get_put_of_place _ _ rfl, State.get_put_of_place _ _ rfl]
  show min (s.get R.KEYENG.ALARMS_COUNT + 1) (2 ^ 32 - 1) % 2 ^ 32 = _
  omega

theorem State.conditions_queue (s : State) (c : Nat) : (s.conditions c).keys.queue = s.keys.queue := by
  unfold State.conditions
  dsimp only
  split
  · rfl
  · split <;> rfl

theorem keyengAlarm_zeroises {c : BitVec 3} (hc : c.toNat ≤ 4) :
    ∃ t : State, exec (.keyengAlarm c) s = .next (t.closeKeys.endPerturb .alarm).settle ∧ t.keysGone ∧ bitAt (t.get R.KEYENG.ALARM_CAUSE_CAUSE) c.toNat = true
      ∧ t.get R.KEYENG.ALARMS_COUNT = min (s.get R.KEYENG.ALARMS_COUNT + 1) (2 ^ 32 - 1) ∧ t.take = s.take
      ∧ (∀ j ∈ s.keys.queue, ∃ d ∈ t.keys.finished, d.job = j ∧ d.status = 0x0B)
      ∧ (∀ d ∈ t.jobs.finished, d.job.engine = 3 → d.status = 0x0B) := by
  have hexec : execKeyengAlarm c s = .next (((((s.conditions c.toNat).alarmShown c.toNat).zeroiseKeys.closeKeys).endPerturb .alarm).settle) :=
    if_neg (Nat.not_lt.mpr hc)
  have hcond : forget 0x100004 (s.conditions c.toNat) = forget 0x100004 s := State.forget_conditions rfl ..
  have hshown := (s.conditions c.toNat).alarmShown_frame c.toNat
  have hzero : forget 0x480110020 ((s.conditions c.toNat).alarmShown c.toNat).zeroiseKeys = forget 0x480110020 ((s.conditions c.toNat).alarmShown c.toNat) :=
    State.forget_zeroiseKeys rfl _
  have hqueue : ((s.conditions c.toNat).alarmShown c.toNat).keys.queue = s.keys.queue := by
    rw [keeps_keys hshown rfl, s.conditions_queue]
  refine ⟨_, hexec, (State.zeroiseKeys_keys _).1, State.alarm_cause _ (by omega), ?_, ?_, fun j hj => State.zeroiseKeys_ends _ (by rwa [hqueue]),
    fun d hd => State.zeroiseKeys_jobs _ hd⟩
  · rw [State.alarm_count, State.get_of_regs (keeps_regs hcond rfl)]
  · exact (keeps_take hzero rfl).trans ((keeps_take hshown rfl).trans (keeps_take hcond rfl))

theorem entropyHealthFail_zeroises {apt : Bool} (hst : s.get R.ENTROPY.ES_STATUS_STATE = 1) :
    ∃ t : State, exec (.entropyHealthFail apt) s = .next (t.closeKeys.endPerturb .alarm).settle ∧ t.keysGone ∧ t.get R.ENTROPY.ES_STATUS_STATE = 2
      ∧ bitAt (t.get R.KEYENG.ALARM_CAUSE_CAUSE) 4 = true := by
  obtain ⟨u, hu⟩ : ∃ u, u = ((((s.put R.ENTROPY.ES_STATUS_STATE 2).bump (if apt then R.ENTROPY.APT_FAILS_COUNT else R.ENTROPY.RCT_FAILS_COUNT)).pulse 0x2B
    Ev.ENTROPY.HEALTH_FAIL).record 0x2B E.ENTROPY_HEALTH_FAIL 0) := ⟨_, rfl⟩
  have hexec : execEntropyHealthFail apt s = .next ((((u.alarmShown 4).zeroiseKeys.closeKeys).endPerturb .alarm).settle) := by
    rw [execEntropyHealthFail, if_neg (by rw [hst]; decide), hu]
    rfl
  have hne : R.ENTROPY.ES_STATUS_STATE ≠ if apt then R.ENTROPY.APT_FAILS_COUNT else R.ENTROPY.RCT_FAILS_COUNT := by cases apt <;> decide
  refine ⟨_, hexec, (State.zeroiseKeys_keys _).1, ?_, State.alarm_cause _ (by decide)⟩
  rw [State.zeroiseKeys_get _ (by decide) (by decide) (by decide) (by decide) (by decide) (by decide), u.alarmShown_get 4 (by decide),
    State.get_bump_other _ _ (by decide), State.get_put_of_page _ _ rfl, State.get_put_of_page _ _ rfl, hu, State.record_get_beyond _ _ _ _ _ _ _ rfl,
    State.pulse_get_beyond _ _ _ rfl, State.get_bump_other _ _ hne, State.get_put_same]
  rfl

theorem entropyStartupDone_seeds (h1 : s.get R.ENTROPY.ES_STATUS_STATE ≠ 1) (h3 : s.get R.ENTROPY.ES_STATUS_STATE ≠ 3) :
    ∃ t : State, exec (.entropyStartupDone true) s = .next t.masked ∧ t.get R.ENTROPY.ES_STATUS_STATE = 1 ∧ t.keys.masks = List.range 7
      ∧ t.keys.slots = s.keys.slots ∧ t.keys.kekMedia = s.keys.kekMedia := by
  obtain ⟨u, hu⟩ : ∃ u, u = ((s.puts [(R.ENTROPY.ES_STATUS_STATE, 1), (R.ENTROPY.ES_STATUS_STARTUP_FAILS, 0)]).setKeys fun k =>
    { k with masks := List.range 7, draws := [] }) := ⟨_, rfl⟩
  have hexec : execEntropyStartupDone true s = .next (u.pulse 0x2B Ev.ENTROPY.HEALTHY).masked := by
    rw [execEntropyStartupDone, hu]
    exact if_neg (by omega)
  have hkeys : (u.pulse 0x2B Ev.ENTROPY.HEALTHY).keys = u.keys := keeps_keys (State.forget_pulse (T := 0x480000020) rfl ..) rfl
  refine ⟨_, hexec, ?_, by rw [hkeys, hu]; rfl, by rw [hkeys, hu]; rfl, by rw [hkeys, hu]; rfl⟩
  rw [State.pulse_get_beyond _ _ _ rfl, hu]
  exact (State.get_put_of_place _ _ rfl).trans (State.get_put_same _ _ _)

end

/-! ### UNLOCK and ERASE -/

section
variable {s t : State} {o : Origin}

theorem keyCtrl_role : needOf (rowsAt 0x29 0x044) = .oper := by decide

theorem State.Accessed.keys (h : s.Accessed t) : t.keys = s.keys := keeps_keys h.1 rfl

theorem erase_zeroises (hp : s.powered = true) (hr : s.reaches o 0x29 = true) (ho : s.holds o .operator = true) :
    ∃ t : State, exec (.erase o) s = .next (t.closeKeys.endPerturb .alarm).settle ∧ t.keysGone ∧ bitAt (t.get R.KEYENG.ALARM_CAUSE_CAUSE) 5 = true := by
  obtain ⟨t, -, h⟩ := State.regCmd_acts (page := 0x29) (off := 0x044) (v := 2) (busy := bitAt 2 0 && s.unlockBarred)
    (deny := fun t => t.refuseBlock o 0x29 E.KEYENG_ALARM_ACTIVE (keyInfo 0 0 (originFunc o) 0))
    (act := fun t => let t := if bitAt 2 0 then t.unlockKeys else t
      if bitAt 2 1 then t.alarm 5 else t) (legal := true) hp hr (State.meets_of_operator ho (.inl keyCtrl_role)) rfl rfl
  exact ⟨_, congrArg Host.Outcome.next h, (State.zeroiseKeys_keys _).1, State.alarm_cause _ (by decide)⟩

theorem unlock_meets (hp : s.powered = true) (hr : s.reaches o 0x29 = true) (ho : s.holds o .operator = true) :
    ∃ t : State, s.Accessed t ∧ exec (.unlock o) s = .next (if s.unlockBarred then
      t.refuseBlock o 0x29 E.KEYENG_ALARM_ACTIVE (keyInfo 0 0 (originFunc o) 0) else t.unlockKeys) := by
  obtain ⟨t, ht, h⟩ := State.regCmd_meets (page := 0x29) (off := 0x044) (v := 1) (busy := bitAt 1 0 && s.unlockBarred)
    (deny := fun t => t.refuseBlock o 0x29 E.KEYENG_ALARM_ACTIVE (keyInfo 0 0 (originFunc o) 0))
    (act := fun t => let t := if bitAt 1 0 then t.unlockKeys else t
      if bitAt 1 1 then t.alarm 5 else t) (legal := true) hp hr (State.meets_of_operator ho (.inl keyCtrl_role)) rfl
  exact ⟨t, ht, congrArg Host.Outcome.next h⟩

/-- An unlock derives KEK_MEDIA and clears the alarm's causes (R428, R440). -/
theorem State.derived_unlock (t : State) : (t.derived true).keys.kekMedia = some (t.kek 1 0 0) ∧ (t.derived true).keys.slots = t.keys.slots
    ∧ (t.derived true).keys.kekFunc = t.keys.kekFunc ∧ (t.derived true).get R.KEYENG.ALARM_CAUSE_CAUSE = 0 := by
  obtain ⟨u, hu⟩ : ∃ u, u = t.deriveMedia.setKeys fun k => { k with derive := none, alarmed := k.alarmed && !true } := ⟨_, rfl⟩
  have hd : t.derived true = (u.put R.KEYENG.ALARM_CAUSE_CAUSE 0).pulse 0x29 Ev.KEYENG.UNLOCKED := by
    rw [hu]
    rfl
  have hkeys : (t.derived true).keys = u.keys := by
    rw [hd]
    exact keeps_keys ((State.forget_pulse (T := 0x480000020) rfl ..).trans (State.forget_put rfl ..)) rfl
  rw [hkeys]
  refine ⟨by rw [hu]; rfl, by rw [hu]; rfl, by rw [hu]; rfl, ?_⟩
  rw [hd, State.pulse_get_beyond _ _ _ rfl, State.get_put_same]
  rfl

theorem State.kek_of_secrets {s t : State} (h : t.secrets = s.secrets) (purpose func gen : Nat) : t.kek purpose func gen = s.kek purpose func gen := by
  obtain ⟨hotp, hgens⟩ := Prod.mk.inj h
  obtain ⟨hmaker, hinst⟩ := Prod.mk.inj hgens
  simp only [State.kek, State.rootKey, State.installerSecret, State.makerBase, State.instBase, State.otpN, hotp, hmaker, hinst]

theorem unlock_derives (hp : s.powered = true) (hr : s.reaches o 0x29 = true) (ho : s.holds o .operator = true) (hb : s.unlockBarred = false)
    (hm : 6 ∈ s.keys.masks) : ∃ t : State, exec (.unlock o) s = .next t.owedTrails ∧ t.keys.kekMedia = some (s.kek 1 0 0) ∧ t.get R.KEYENG.ALARM_CAUSE_CAUSE = 0
      ∧ t.keys.slots = s.keys.slots ∧ t.keys.kekFunc = s.keys.kekFunc := by
  obtain ⟨t, ht, h⟩ := unlock_meets hp hr ho
  rw [hb, if_neg Bool.false_ne_true, State.unlockKeys, State.derive, if_pos (by rw [ht.keys]; exact List.contains_iff_mem.mpr hm)] at h
  obtain ⟨hkek, hslots, hfunc, hcause⟩ := t.derived_unlock
  have hsame : t.kek 1 0 0 = s.kek 1 0 0 := State.kek_of_secrets ht.2.2 ..
  exact ⟨_, h, hkek.trans (by rw [hsame]), hcause, hslots.trans (by rw [ht.keys]), hfunc.trans (by rw [ht.keys])⟩

theorem unlock_barred (hp : s.powered = true) (hr : s.reaches o 0x29 = true) (ho : s.holds o .operator = true)
    (hb : s.keys.conds ≠ 0 ∨ s.get R.ENTROPY.ES_STATUS_STATE ≠ 1) :
    ∃ t : State, exec (.unlock o) s = .next t ∧ t.keys = s.keys ∧ t.refusal = some E.KEYENG_ALARM_ACTIVE := by
  have hbar : s.unlockBarred = true := by
    rw [State.unlockBarred, Bool.or_eq_true, bne_iff_ne, bne_iff_ne]
    exact hb
  obtain ⟨t, ht, h⟩ := unlock_meets hp hr ho
  rw [hbar, if_pos rfl] at h
  exact ⟨_, h, (keeps_keys (State.forget_refuseBlock (T := 0x480000620) rfl ..) rfl).trans ht.keys, State.refuseBlock_refusal ..⟩

/-- Without the operator role KEY_CTRL commands nothing (R440). -/
theorem keyCtrl_unheld (hp : s.powered = true) (hr : s.reaches o 0x29 = true) (ho : s.holds o .operator = false) (v : Nat) :
    (s.writeKeyCtrl o v).keys = s.keys := by
  have hm : s.meets o (needOf (rowsAt 0x29 0x044)) = false := by
    rw [keyCtrl_role]
    exact ho
  exact keeps_keys (State.regCmd_unmet hp hr hm) rfl

end

/-- Settles O43. -/
theorem alarmsZeroiseEveryKey : Obligations.AlarmsZeroiseEveryKey :=
  ⟨fun _ _ => keyengAlarm_zeroises, fun _ _ => entropyHealthFail_zeroises, fun _ => entropyStartupDone_seeds, fun _ _ => erase_zeroises,
    fun _ _ => unlock_derives, fun _ _ => unlock_barred, fun _ _ hp hr ho => ⟨⟨_, rfl, keyCtrl_unheld hp hr ho 1⟩, ⟨_, rfl, keyCtrl_unheld hp hr ho 2⟩⟩⟩

end Sys2Proof.Machine
end

section
/-!
Frozen submission queues (R461-R464).
-/

namespace Sys2Proof.Machine

/-! ### The freeze -/

theorem State.modSq_sq_other (s : State) {fn qid f n : Nat} (g : Sq → Sq) (hg : ∀ q, (g q).fn = q.fn ∧ (g q).qid = q.qid)
    (hne : (f, n) ≠ (fn, qid)) : (s.modSq fn qid g).sq f n = s.sq f n := by
  have hpick (q : Sq) : (if q.fn == fn && q.qid == qid then g q else q).fn = q.fn ∧ (if q.fn == fn && q.qid == qid then g q else q).qid = q.qid := by
    split
    · exact hg q
    · exact ⟨rfl, rfl⟩
  simp only [State.sq, State.modSq, State.setHost_host]
  induction s.host.sqs with
  | nil => rfl
  | cons q qs ih =>
    rw [List.map_cons, List.find?_cons, List.find?_cons, (hpick q).1, (hpick q).2, ih]
    by_cases hq : (q.fn == f && q.qid == n) = true
    · have hno : (q.fn == fn && q.qid == qid) = false := by
        simp only [Bool.and_eq_true, beq_iff_eq] at hq
        rw [Bool.and_eq_false_iff, beq_eq_false_iff_ne, beq_eq_false_iff_ne]
        by_contra hboth
        simp only [not_or, not_not] at hboth
        exact hne (by rw [← hq.1, ← hq.2, hboth.1, hboth.2])
      simp only [hq, hno, Bool.false_eq_true, if_false]
    · simp only [Bool.not_eq_true] at hq
      simp only [hq]

/-- The queue with the error that froze it, unless it was frozen before (R461). -/
def Sq.frozenBy (q : Sq) (cid status time : Nat) : Sq := if q.frozen.isSome then q else { q with frozen := some (cid, status, time) }

/-- A freeze changes only its own queue's freeze, and loses no posted entry. -/
theorem State.freezeSq_host (s : State) (fn qid cid status : Nat) :
    ((s.freezeSq fn qid cid status).host.sqs = s.host.sqs
      ∨ (s.freezeSq fn qid cid status).host.sqs = (s.modSq fn qid fun q => { q with frozen := some (cid, status, s.time) }).host.sqs)
    ∧ s.host.cqes ⊆ (s.freezeSq fn qid cid status).host.cqes := by
  unfold State.freezeSq
  split
  · exact ⟨.inl rfl, List.Subset.refl _⟩
  · split
    · exact ⟨.inl rfl, List.Subset.refl _⟩
    · simp only []
      split
      · simp only [State.record_sqs, State.record_cqes, State.pulse_sqs, State.pulse_cqes]
        exact ⟨.inr rfl, List.Subset.refl _⟩
      · obtain ⟨hsqs, -, hcqes⟩ := State.raiseEvent_host (State.setHost (((s.modSq fn qid fun q =>
          { q with frozen := some (cid, status, s.time) }).countFrozen.pulse 0xB0 Ev.HOSTQ.QUEUE_FROZEN).record 0xB0 E.HOSTQ_QUEUE_FROZEN
            (fn % 512 + (qid % 4096) * 512) fn) fun h => { h with frozenSeen := h.frozenSeen ++ [fn] }) ⟨fn, 7, 0, 0xC1⟩
        simp only [State.setHost_host, State.record_sqs, State.record_cqes, State.pulse_sqs, State.pulse_cqes] at hsqs hcqes
        exact ⟨.inr hsqs, hcqes⟩

theorem State.freezeSq_of_unfrozen {s : State} {fn qid : Nat} {q : Sq} (hq : s.sq fn qid = some q) (hf : q.frozen = none) (h0 : qid ≠ 0)
    (cid status : Nat) :
    (s.freezeSq fn qid cid status).host.sqs = (s.modSq fn qid fun q => { q with frozen := some (cid, status, s.time) }).host.sqs := by
  have hgo : ¬ ((q.frozen.isSome || decide (qid = 0)) = true) := by simp [hf, h0]
  simp only [State.freezeSq, hq, if_neg hgo]
  split
  · simp only [State.record_sqs, State.pulse_sqs]
    rfl
  · refine (State.raiseEvent_host ..).1.trans ?_
    simp only [State.setHost_host, State.record_sqs, State.pulse_sqs]
    rfl

theorem State.freezeSq_of_frozen {s : State} {fn qid : Nat} {q : Sq} (hq : s.sq fn qid = some q) (hf : q.frozen.isSome = true)
    (cid status : Nat) : s.freezeSq fn qid cid status = s := by
  have hstop : (q.frozen.isSome || decide (qid = 0)) = true := by simp [hf]
  simp only [State.freezeSq, hq, if_pos hstop]

/-- The queue of a freeze is then frozen by this error, or as it was. -/
theorem State.freezeSq_sq_same {s : State} {fn qid : Nat} {q : Sq} (hq : s.sq fn qid = some q) (h0 : qid ≠ 0) (cid status : Nat) :
    (s.freezeSq fn qid cid status).sq fn qid = some (q.frozenBy cid status s.time) := by
  cases hf : q.frozen with
  | some x =>
    have hsome : q.frozen.isSome = true := by rw [hf]; rfl
    rw [State.freezeSq_of_frozen hq hsome, hq, Sq.frozenBy, if_pos hsome]
  | none =>
    rw [State.sq_of_sqs (State.freezeSq_of_unfrozen hq hf h0 cid status), State.modSq_sq_same s fn qid (f := fun q =>
      { q with frozen := some (cid, status, s.time) }) fun _ => ⟨rfl, rfl⟩, hq, Sq.frozenBy, hf]
    rfl

theorem State.freezeSq_sq_other (s : State) {fn qid f n : Nat} (hne : (f, n) ≠ (fn, qid)) (cid status : Nat) :
    (s.freezeSq fn qid cid status).sq f n = s.sq f n := by
  rcases (s.freezeSq_host fn qid cid status).1 with h | h
  · exact State.sq_of_sqs h f n
  · rw [State.sq_of_sqs h, State.modSq_sq_other s (fun q => { q with frozen := some (cid, status, s.time) }) (fun _ => ⟨rfl, rfl⟩) hne]

/-! ### The completion -/

/-- The state in which a completion's entry is posted. -/
def State.beforePost (s : State) (k : CmdKey) (c : HCmd) (status : Nat) (keep : Bool) : State :=
  let t := if keep then s.modCmd k fun h => { h with phase := .locked } else s.setHost fun h => { h with cmds := h.cmds.filter (· != c) }
  if status = 0 then t else t.commandError k.fn k.sq k.cid status c.x.nsid (ioLba c.x)

theorem State.beforePost_sqs (s : State) (k : CmdKey) (c : HCmd) (status : Nat) (keep : Bool) :
    (s.beforePost k c status keep).host.sqs = s.host.sqs := by
  have hdone : (if keep then s.modCmd k fun h => { h with phase := .locked } else s.setHost fun h =>
      { h with cmds := h.cmds.filter (· != c) }).host.sqs = s.host.sqs := by
    split <;> rfl
  simp only [State.beforePost]
  split
  · exact hdone
  · rw [State.commandError_sqs, hdone]

theorem State.beforePost_time (s : State) (k : CmdKey) (c : HCmd) (status : Nat) (keep : Bool) :
    (s.beforePost k c status keep).time = s.time := by
  have hdone : (if keep then s.modCmd k fun h => { h with phase := .locked } else s.setHost fun h =>
      { h with cmds := h.cmds.filter (· != c) }).time = s.time := by
    split <;> rfl
  simp only [State.beforePost]
  split
  · exact hdone
  · rw [State.commandError_time, hdone]

/-- The entry that a completion posts. -/
def State.cqeOf (s : State) (k : CmdKey) (status dw0 dw1 : Nat) : Cqe :=
  ⟨k.fn, match s.sq k.fn k.sq with | some q => q.cqid | none => 0, k.sq, k.cid, status, dw0, dw1⟩

theorem State.completeCmd_of_hcmd {s : State} {k : CmdKey} {c : HCmd} (hc : s.hcmd k = some c) (status dw0 dw1 : Nat) (keep : Bool) :
    s.completeCmd k status dw0 dw1 keep =
      (let t := (s.beforePost k c status keep).post (s.cqeOf k status dw0 dw1)
       if status = 0 then t else t.freezeSq k.fn k.sq k.cid status).relock := by
  simp only [State.completeCmd, hc]
  rfl

theorem State.post_time (s : State) (e : Cqe) : (s.post e).time = s.time := Laws.keeps_time (State.post_frame ..) rfl

/-- A completion with an error freezes its own I/O queue alone, and posts its entry. -/
theorem State.completeCmd_of_error {s : State} {k : CmdKey} {c : HCmd} {q : Sq} {st : Nat} (hc : s.hcmd k = some c)
    (hq : s.sq k.fn k.sq = some q) (hst : st ≠ 0) (h0 : k.sq ≠ 0) (d0 d1 : Nat) (keep : Bool) :
    (s.completeCmd k st d0 d1 keep).sq k.fn k.sq = some (q.frozenBy k.cid st s.time)
      ∧ (∀ f n, (f, n) ≠ (k.fn, k.sq) → (s.completeCmd k st d0 d1 keep).sq f n = s.sq f n)
      ∧ (⟨k.fn, q.cqid, k.sq, k.cid, st, d0, d1⟩ : Cqe) ∈ (s.completeCmd k st d0 d1 keep).host.cqes := by
  have hpost (f n : Nat) : ((s.beforePost k c st keep).post (s.cqeOf k st d0 d1)).sq f n = s.sq f n :=
    State.sq_of_sqs ((State.post_sqs ..).trans (s.beforePost_sqs ..)) f n
  simp only [State.completeCmd_of_hcmd hc, if_neg hst, State.sq_of_sqs (State.relock_sqs _)]
  refine ⟨?_, fun f n hne => ?_, ?_⟩
  · rw [State.freezeSq_sq_same ((hpost ..).trans hq) h0, State.post_time, State.beforePost_time]
  · rw [State.freezeSq_sq_other _ hne, hpost]
  · have hrelock (t : State) : t.relock.host.cqes = t.host.cqes := by
      rw [State.relock_host, apply_ite HostSt.cqes]
      exact ite_self _
    rw [hrelock]
    refine (State.freezeSq_host ..).2 ?_
    rw [State.post_cqes, State.cqeOf, hq]
    exact List.mem_append_right _ (List.mem_singleton_self _)

/-- A success, and an error on an admin queue, freeze nothing. -/
theorem State.completeCmd_sqs (s : State) {k : CmdKey} {st : Nat} (h : st = 0 ∨ k.sq = 0) (d0 d1 : Nat) (keep : Bool) :
    (s.completeCmd k st d0 d1 keep).host.sqs = s.host.sqs := by
  cases hc : s.hcmd k with
  | none => simp only [State.completeCmd, hc]
  | some c =>
    have hpost : ((s.beforePost k c st keep).post (s.cqeOf k st d0 d1)).host.sqs = s.host.sqs :=
      (State.post_sqs ..).trans (s.beforePost_sqs ..)
    simp only [State.completeCmd_of_hcmd hc, State.relock_sqs]
    split
    · exact hpost
    next hst =>
      have h0 : k.sq = 0 := h.resolve_left hst
      have hsame (t : State) : (t.freezeSq k.fn k.sq k.cid st) = t := by
        unfold State.freezeSq
        split
        · rfl
        · exact if_pos (by simp [h0])
      rw [hsame, hpost]

/-! ### The thaw -/

theorem State.sqWaits_of_frozen {s : State} {q : Sq} (hf : q.frozen ≠ none) : s.sqWaits q = false := by
  rw [Bool.eq_false_iff]
  exact fun h => hf ((s.sqWaits_iff q).mp h).2.1

theorem exec_queueThaw_of_frozen {s : State} {c : Cmd} {sqid : Nat} {q : Sq} (hr : s.adminReady c.fn = true) (hq : s.sq c.fn sqid = some q)
    (hf : q.frozen ≠ none) : exec (.queueThaw c sqid) s =
      .next (((s.modSq c.fn sqid fun q => { q with frozen := none }).countFrozen.bump R.HOSTQ.THAWS_COUNT).completeAdmin c Nv.ok) := by
  change execQueueThaw c sqid s = _
  simp only [execQueueThaw, hr, hq, Option.isSome_iff_ne_none.mpr hf, Bool.not_true, Bool.false_eq_true, if_false, if_true]

theorem exec_queueThaw_of_unfrozen {s : State} {c : Cmd} {sqid : Nat} (hr : s.adminReady c.fn = true)
    (hf : ∀ q, s.sq c.fn sqid = some q → q.frozen = none) : exec (.queueThaw c sqid) s =
      .next ((s.record 0xB0 E.HOSTQ_THAW_REFUSED (c.fn % 512 + sqid % 4096 * 512) c.fn).completeAdmin c Nv.badField) := by
  change execQueueThaw c sqid s = _
  cases hq : s.sq c.fn sqid with
  | none => simp only [execQueueThaw, hr, hq, Bool.not_true, Bool.false_eq_true, if_false]
  | some q => simp only [execQueueThaw, hr, hq, hf q hq, Option.isSome_none, Bool.not_true, Bool.false_eq_true, if_false]

/-! ### The obligation -/

/-- Settles O45: an error freezes through `freezeSq`, which nothing else calls, and a thaw undoes it. -/
theorem errorsFreezeTheQueue : Obligations.ErrorsFreezeTheQueue := by
  refine ⟨fun s k c q st d0 d1 keep hc hq hst h0 => State.completeCmd_of_error hc hq hst h0 d0 d1 keep,
    fun s k st d0 d1 keep h => s.completeCmd_sqs h d0 d1 keep, fun s x q hq hf => ?_, fun s c sqid q hr hq hf => ?_, fun s c sqid hr hf => ?_⟩
  · change execCommandFetch x s = _
    simp only [execCommandFetch, hq, State.sqWaits_of_frozen hf, Bool.not_false, if_true]
  · refine ⟨_, exec_queueThaw_of_frozen hr hq hf, ?_, State.mem_completeAdmin_cqes .., ?_, State.completeAdmin_cmds ..⟩
    · rw [State.sq_of_sqs (State.completeAdmin_sqs ..)]
      exact (State.modSq_sq_same s c.fn sqid (f := fun q => { q with frozen := none }) fun _ => ⟨rfl, rfl⟩).trans (by rw [hq]; rfl)
    · rw [State.completeAdmin_get_beyond _ _ _ _ _ rfl (Fld.ne_of_place rfl), State.get_bump_same, State.countFrozen,
        State.get_put_of_place _ _ rfl]
      rfl
  · refine ⟨_, exec_queueThaw_of_unfrozen hr hf, ?_, State.mem_completeAdmin_cqes .., ?_⟩
    · rw [State.completeAdmin_sqs, State.record_sqs]
    · rw [State.completeAdmin_get_beyond _ _ _ _ _ rfl (Fld.ne_of_place rfl), State.record_get_beyond _ _ _ _ _ _ _ rfl]

end Sys2Proof.Machine
end

section
/-!
PCIe ports, doorbells and the fetch pause (R446-R460, R494).
-/

namespace Sys2Proof.Machine

open Sys2Proof.Laws

/-! ### A port and its function -/

theorem State.profOf_func {s : State} {func : Nat} {p : Prof} (h : s.profOf func = some p) : p.func = func := by
  simpa using List.find?_some h

theorem State.getD_profOf_func (s : State) (func : Nat) : ((s.profOf func).getD (defaultProf func)).func = func := by
  cases h : s.profOf func with
  | some p => exact State.profOf_func h
  | none =>
    show (defaultProf func).func = func
    unfold defaultProf
    split <;> rfl

/-- What a function is given when it is made (R482). -/
def State.grantOf (s : State) (func : Nat) : Prof :=
  let p := s.liveGrant ((s.profOf func).getD (defaultProf func))
  if p.windows.all (·.isNone) then { p with windows := p.defaultWindows } else p

theorem State.grantOf_func (s : State) (func : Nat) : (s.grantOf func).func = func := by
  have h : (s.liveGrant ((s.profOf func).getD (defaultProf func))).func = func := s.getD_profOf_func func
  simp only [State.grantOf]
  split <;> exact h

theorem State.foldl_turnCore_tenant (f : Core → Core) (l : List Nat) (s : State) :
    (l.foldl (fun t c => t.turnCore c f) s).tenant = s.tenant :=
  foldl_keeps State.tenant (fun t c => keeps_tenant (State.forget_turnCore (T := 0x481000020) rfl t c f) rfl) l s

/-- A function that is made is the last of the list. -/
theorem State.createFn_fns (s : State) (func : Nat) :
    (s.createFn func).tenant.fns = s.tenant.fns ++ [⟨s.grantOf func, s.genOf func + 1, s.slmPlace (s.grantOf func).dram, []⟩] := by
  unfold State.createFn
  simp only []
  rw [keeps_tenant (State.forget_addAdmin (T := 0x80000020) rfl _ _) rfl, keeps_tenant (State.forget_attachAll (T := 0x200000) rfl _ _) rfl]
  show (State.unput (State.ownBanks _ _ func) fun x => x.page != 0x1000 + func).tenant.fns = _
  rw [keeps_tenant (State.forget_unput (T := 0x20) rfl _ _) rfl, keeps_tenant (State.forget_ownBanks (T := 0x20) rfl _ _ _) rfl,
    State.foldl_turnCore_tenant]
  rfl

theorem State.createFn_fn (s : State) (func : Nat) : ((s.createFn func).fn func).isSome = true := by
  rw [State.fn, State.createFn_fns, List.find?_isSome]
  exact ⟨_, List.mem_append_right _ List.mem_cons_self, beq_iff_eq.mpr (s.grantOf_func func)⟩

theorem State.foldl_turnCore_get (f : Core → Core) (l : List Nat) (s : State) {x : Fld} (hx : Nat.ble 0x040 x.off = true) :
    (l.foldl (fun t c => t.turnCore c f) s).get x = s.get x := by
  refine foldl_keeps (State.get · x) (fun t c => ?_) l s
  have hm : (t.modCore c f).get x = t.get x := by
    unfold State.modCore
    split <;> rfl
  simp only [State.turnCore]
  split
  · rw [State.pulse_get_beyond _ _ _ hx, hm]
  · exact hm

theorem State.ownBanks_get (s : State) (mask owner : Nat) {x : Fld} (hx : x.off ≠ 0x044) : (s.ownBanks mask owner).get x = s.get x := by
  refine foldl_keeps (State.get · x) (fun t b => ?_) _ s
  split
  · exact State.get_put_other _ _ fun e => hx (congrArg Fld.off e)
  · rfl

theorem State.createFn_get (s : State) (func : Nat) {x : Fld} (hx : x.page = 0xB0) (hoff : Nat.ble 0x040 x.off = true) (hbank : x.off ≠ 0x044)
    (hq : x ≠ R.HOSTQ.QUEUE_PAIRS_CREATED) (hf : func ≤ 0x101) : (s.createFn func).get x = s.get x := by
  have hkeep : (x.page != 0x1000 + func) = true := by
    rw [bne_iff_ne, hx]
    omega
  unfold State.createFn
  simp only []
  have hadd (t : State) : (t.addAdmin func).get x = t.get x := State.get_put_other _ _ hq
  rw [hadd, State.get_of_regs (keeps_regs (State.forget_attachAll (T := 0x200000) rfl _ _) rfl)]
  show (State.unput (State.ownBanks _ _ func) fun x => x.page != 0x1000 + func).get x = _
  rw [State.unput_get_of_kept _ hkeep, State.ownBanks_get _ _ _ hbank, State.foldl_turnCore_get _ _ _ hoff]
  rfl

theorem exec_perstRelease (s : State) (p : Port) : ∃ t : State, exec (.perstRelease p) s = .next t ∧ t.perstHigh p = true
    ∧ t.get R.HOSTQ.PORT_CFG_MODE = b2n (s.instFlag 5) ∧ (s.mayGrant = true → p = .a ∨ s.instFlag 5 = true → (t.fn (portPf p)).isSome = true)
    ∧ (s.mayGrant = false → t.tenant = s.tenant) := by
  let t := (s.setPerst p true).put R.HOSTQ.PORT_CFG_MODE (b2n (s.instFlag 5))
  have hmode : t.get R.HOSTQ.PORT_CFG_MODE = b2n (s.instFlag 5) := by
    refine (State.get_put_same ..).trans ?_
    cases s.instFlag 5 <;> rfl
  have hgrant : t.mayGrant = s.mayGrant := by
    have hm : t.mode = s.mode := State.get_put_of_page _ _ rfl
    simp only [State.mayGrant, hm]
    rfl
  have hport (h : p = .a ∨ s.instFlag 5 = true) : t.portExists p = true := by
    cases p with
    | a => rfl
    | b =>
      have hi : s.instFlag 5 = true := h.resolve_left (by decide)
      show (t.get R.HOSTQ.PORT_CFG_MODE == 1) = true
      rw [hmode, hi]
      rfl
  have hperst : t.perstHigh p = true := by cases p <;> rfl
  refine ⟨_, rfl, ?_⟩
  show State.perstHigh (if t.mayGrant ∧ t.portExists p ∧ (t.fn (portPf p)).isNone then t.createFn (portPf p) else t) p = true ∧ _
  split
  case isTrue hgo =>
    refine ⟨?_, ?_, fun _ _ => t.createFn_fn _, fun h => ?_⟩
    · have hpwr : (t.createFn (portPf p)).pwr = t.pwr := keeps_pwr (State.forget_createFn (T := 0x489200020) rfl _ _) rfl
      rw [← hperst]
      cases p <;> simp only [State.perstHigh, hpwr]
    · rw [State.createFn_get _ _ rfl rfl (by decide) (by decide) (by cases p <;> decide), hmode]
    · rw [hgrant, h] at hgo
      exact absurd hgo.1 (by decide)
  case isFalse hno =>
    refine ⟨hperst, hmode, fun hg hp => ?_, fun _ => rfl⟩
    by_contra hn
    refine hno ⟨hgrant.trans hg, hport hp, ?_⟩
    simpa using hn

/-- What a port's link register shows once it is written. -/
theorem State.setLink_get (s : State) (p : Port) (speed width : Nat) (flit sris l12 : Bool) :
    (s.setLink p speed width flit sris l12).get (linkFields p).1 = speed % 2 ^ 3
    ∧ (s.setLink p speed width flit sris l12).get (linkFields p).2.1 = width % 2 ^ 5
    ∧ (s.setLink p speed width flit sris l12).get (linkFields p).2.2.1 = b2n flit % 2 := by
  cases p <;> exact ⟨by
    simp only [State.setLink, linkFields, State.puts_cons, State.puts_nil]
    rw [State.get_put_of_place _ _ rfl, State.get_put_of_place _ _ rfl, State.get_put_of_place _ _ rfl, State.get_put_of_place _ _ rfl,
      State.get_put_same]
    rfl, by
    simp only [State.setLink, linkFields, State.puts_cons, State.puts_nil]
    rw [State.get_put_of_place _ _ rfl, State.get_put_of_place _ _ rfl, State.get_put_of_place _ _ rfl, State.get_put_same]
    rfl, by
    simp only [State.setLink, linkFields, State.puts_cons, State.puts_nil]
    rw [State.get_put_of_place _ _ rfl, State.get_put_of_place _ _ rfl, State.get_put_same]
    rfl⟩

theorem linkFields_beyond (p : Port) : Nat.ble 0x040 (linkFields p).1.off = true ∧ Nat.ble 0x040 (linkFields p).2.1.off = true
    ∧ Nat.ble 0x040 (linkFields p).2.2.1.off = true ∧ Nat.ble 0x040 (linkFields p).2.2.2.2.off = true := by cases p <;> exact ⟨rfl, rfl, rfl, rfl⟩

theorem linkEvent_lt (p : Port) : linkEvent p < 32 := by cases p <;> decide

/-- A link register lies outside every page's header. -/
theorem State.setLink_get_header (s : State) (p : Port) (speed width : Nat) (flit sris l12 : Bool) {x : Fld} (hx : x.off < 0x040) :
    (s.setLink p speed width flit sris l12).get x = s.get x := by
  have hne {y : Fld} (hy : Nat.ble 0x040 y.off = true) : x ≠ y := fun e => by
    have := Nat.le_of_ble_eq_true hy
    rw [e] at hx
    omega
  cases p <;>
  · simp only [State.setLink, linkFields, State.puts_cons, State.puts_nil]
    rw [State.get_put_other _ _ (hne rfl), State.get_put_other _ _ (hne rfl), State.get_put_other _ _ (hne rfl),
      State.get_put_other _ _ (hne rfl), State.get_put_other _ _ (hne rfl)]

/-- A port's change of link: the register, and then its event. -/
def State.changeLink (s : State) (p : Port) (speed width : Nat) (flit sris l12 : Bool) : State :=
  (s.setLink p speed width flit sris l12).pulse 0xB0 (linkEvent p)

theorem State.setLink_frame (s : State) (p : Port) (speed width : Nat) (flit sris l12 : Bool) :
    forget 0x20 (s.setLink p speed width flit sris l12) = forget 0x20 s := State.forget_setLink rfl s p speed width flit sris l12

theorem State.perstHigh_of_pwr {s t : State} (h : t.pwr = s.pwr) (p : Port) : t.perstHigh p = s.perstHigh p := by
  cases p <;> simp only [State.perstHigh, h]

theorem State.linkUp_of_speed {s : State} {p : Port} (h : s.get (linkFields p).1 = 0) : s.linkUp p = false := by
  rw [State.linkUp, h]
  rfl

theorem exec_perstAssert (s : State) (p : Port) : ∃ t : State, exec (.perstAssert p) s = .next (t.resetFn (portPf p)) ∧ t.perstHigh p = false
    ∧ t.linkUp p = false ∧ t.host.sqs = s.host.sqs ∧ t.tenant = s.tenant := by
  have hf := State.setLink_frame (s.setPerst p false) p 0 0 false false false
  have hspeed := (State.setLink_get (s.setPerst p false) p 0 0 false false false).1
  have hperst : ((s.setPerst p false).setLink p 0 0 false false false).perstHigh p = false :=
    (State.perstHigh_of_pwr (keeps_pwr hf rfl) p).trans (by cases p <;> rfl)
  have hsqs := congrArg HostSt.sqs (keeps_host hf rfl)
  have htenant := keeps_tenant hf rfl
  refine ⟨_, rfl, ?_⟩
  generalize (s.setPerst p false).setLink p 0 0 false false false = t at hspeed hperst hsqs htenant
  split
  · have hp := State.forget_pulse (T := 0x480000020) rfl t 0xB0 (linkEvent p)
    refine ⟨(State.perstHigh_of_pwr (keeps_pwr hp rfl) p).trans hperst, State.linkUp_of_speed ?_, (State.pulse_sqs ..).trans hsqs,
      (keeps_tenant hp rfl).trans htenant⟩
    exact (State.pulse_get_beyond _ _ _ (linkFields_beyond p).1).trans hspeed
  · exact ⟨hperst, State.linkUp_of_speed hspeed, hsqs, htenant⟩

section
variable {s : State} {p : Port}

theorem State.changeLink_get (s : State) (p : Port) (speed width : Nat) (flit sris l12 : Bool) :
    (s.changeLink p speed width flit sris l12).get (linkFields p).1 = speed % 2 ^ 3
    ∧ (s.changeLink p speed width flit sris l12).get (linkFields p).2.1 = width % 2 ^ 5
    ∧ (s.changeLink p speed width flit sris l12).get (linkFields p).2.2.1 = b2n flit % 2
    ∧ bitAt ((s.changeLink p speed width flit sris l12).get (H.STICKY 0xB0)) (linkEvent p) = true
    ∧ (s.changeLink p speed width flit sris l12).get (H.VALID 0xB0) = s.get (H.VALID 0xB0) := by
  obtain ⟨hs, hw, hf⟩ := s.setLink_get p speed width flit sris l12
  obtain ⟨bs, bw, bf, -⟩ := linkFields_beyond p
  unfold State.changeLink
  rw [State.pulse_get_beyond _ _ _ bs, State.pulse_get_beyond _ _ _ bw, State.pulse_get_beyond _ _ _ bf,
    State.pulse_sticky _ _ _ (linkEvent_lt p), if_pos rfl, State.pulse_get_of_place _ _ _ rfl rfl]
  exact ⟨hs, hw, hf, rfl, State.setLink_get_header _ _ _ _ _ _ _ (by decide : 0x020 < 0x040)⟩

theorem State.changeLink_host (s : State) (p : Port) (speed width : Nat) (flit sris l12 : Bool) :
    (s.changeLink p speed width flit sris l12).host.sansMsix = s.host.sansMsix :=
  (State.pulse_sansMsix ..).trans (congrArg HostSt.sansMsix (keeps_host (s.setLink_frame p speed width flit sris l12) rfl))

theorem exec_pcieLinkUp {sp : BitVec 3} {w : BitVec 5} (flit sris : Bool) (hp : s.perstHigh p = true) (he : s.portExists p = true)
    (h0 : sp ≠ 0) (h7 : sp ≠ 7) (hw : w.toNat ∈ [1, 2, 4, 8, 16]) (hfull : w.toNat ≤ s.fullWidth) :
    exec (.pcieLinkUp p sp w flit sris) s = .next (if sp.toNat < 6 ∨ w.toNat < s.fullWidth then
      (s.changeLink p sp.toNat w.toNat flit sris false).record 0xB0 E.HOSTQ_LINK_DEGRADED (hostqInfo (portPf p) 0 p) (portPf p)
      else s.changeLink p sp.toNat w.toNat flit sris false) := by
  have hz : (sp.toNat == 0) = false := by
    rw [beq_eq_false_iff_ne]
    exact fun e => h0 (BitVec.eq_of_toNat_eq e)
  have hs : (sp.toNat == 7) = false := by
    rw [beq_eq_false_iff_ne]
    exact fun e => h7 (BitVec.eq_of_toNat_eq e)
  show execPcieLinkUp p sp w flit sris s = _
  rw [execPcieLinkUp]
  rw [if_neg]
  · rfl
  · simp only [hp, he, hz, hs, List.contains_iff_mem.mpr hw, Bool.not_true, Bool.or_false, Bool.false_or, decide_eq_true_eq, not_lt]
    exact hfull

theorem exec_hostqLinkDown (h : s.linkUp p = true) : exec (.hostqLinkDown p) s
    = .next ((s.changeLink p 0 0 false false false).record 0xB0 E.HOSTQ_LINK_DOWN (hostqInfo (portPf p) 0 p) (portPf p)) := by
  show execHostqLinkDown p s = _
  rw [execHostqLinkDown, h]
  rfl

/-- L1.2 is entered and left by its bit alone. -/
theorem State.putL12 (s : State) (p : Port) {v : Nat} (hv : v < 2) :
    ((s.put (linkFields p).2.2.2.2 v).pulse 0xB0 (linkEvent p)).get (linkFields p).2.2.2.2 = v
    ∧ ((s.put (linkFields p).2.2.2.2 v).pulse 0xB0 (linkEvent p)).get (linkFields p).1 = s.get (linkFields p).1
    ∧ ((s.put (linkFields p).2.2.2.2 v).pulse 0xB0 (linkEvent p)).host.sqs = s.host.sqs
    ∧ ((s.put (linkFields p).2.2.2.2 v).pulse 0xB0 (linkEvent p)).host.cqes = s.host.cqes := by
  obtain ⟨bs, -, -, bl⟩ := linkFields_beyond p
  rw [State.pulse_get_beyond _ _ _ bl, State.pulse_get_beyond _ _ _ bs, State.get_put_same,
    State.get_put_of_place _ _ (by cases p <;> rfl), State.pulse_sqs, State.pulse_cqes]
  have hw : (linkFields p).2.2.2.2.w = 1 := by cases p <;> rfl
  exact ⟨by rw [hw, pow_one, Nat.mod_eq_of_lt hv], rfl, rfl, rfl⟩

theorem exec_aspmL12Entry (h : s.linkUp p = true) (hl : s.get (linkFields p).2.2.2.2 = 0) :
    exec (.aspmL12Entry p) s = .next ((s.put (linkFields p).2.2.2.2 1).pulse 0xB0 (linkEvent p)) := by
  show execAspmL12Entry p s = _
  rw [execAspmL12Entry, h, hl]
  rfl

theorem exec_aspmL12Exit (h : s.linkUp p = true) (hl : s.get (linkFields p).2.2.2.2 = 1) (hm : s.mode ≠ 1) :
    exec (.aspmL12Exit p) s = .next ((s.put (linkFields p).2.2.2.2 0).pulse 0xB0 (linkEvent p)) := by
  show execAspmL12Exit p s = _
  rw [execAspmL12Exit, h, hl, beq_eq_false_iff_ne.mpr hm]
  rfl

end

/-! ### Doorbells -/

section
variable {s : State} {fn qid v : Nat}

theorem exec_doorbell_sq {q : Sq} (hf : (s.fn fn).isSome = true) (hq : s.sq fn qid = some q) (hv : v < q.size) :
    exec (.doorbellWrite fn qid false v) s = .next (if s.get R.HOSTQ.DB_BITBASE_INDEX + q.gidx < systemBits then
      (s.modSq fn qid fun x => { x with tail := v }).setCommonBit (systemBitBase + (s.get R.HOSTQ.DB_BITBASE_INDEX + q.gidx)) true
      else s.modSq fn qid fun x => { x with tail := v }) := by
  have hn : ¬ (s.fn fn).isNone = true := by rw [← Option.not_isSome, hf]; decide
  show execDoorbellWrite fn qid false v s = _
  simp only [execDoorbellWrite, if_neg hn, hq, if_neg (Nat.not_le.mpr hv), Bool.false_eq_true, if_false]

theorem exec_doorbell_cq {q : Cq} (hf : (s.fn fn).isSome = true) (hq : s.cq fn qid = some q) (hv : v < q.size) :
    exec (.doorbellWrite fn qid true v) s = .next (s.setHost fun h =>
      { h with cqes := dropCqes fn qid ((v + q.size - q.head) % q.size) h.cqes,
               cqs := h.cqs.map fun x => if x.fn == fn && x.qid == qid then { x with head := v } else x }) := by
  have hn : ¬ (s.fn fn).isNone = true := by rw [← Option.not_isSome, hf]; decide
  show execDoorbellWrite fn qid true v s = _
  simp only [execDoorbellWrite, if_neg hn, hq, if_neg (Nat.not_le.mpr hv), if_true]

theorem exec_doorbell_bad (hf : (s.fn fn).isSome = true) (hq : ∀ q, s.sq fn qid = some q → q.size ≤ v) :
    ∃ info, exec (.doorbellWrite fn qid false v) s = .next (s.badDoorbell fn qid info) := by
  have hn : ¬ (s.fn fn).isNone = true := by rw [← Option.not_isSome, hf]; decide
  cases hs : s.sq fn qid with
  | none =>
    refine ⟨0, ?_⟩
    show execDoorbellWrite fn qid false v s = _
    simp only [execDoorbellWrite, if_neg hn, hs, Bool.false_eq_true, if_false]
  | some q =>
    refine ⟨1, ?_⟩
    show execDoorbellWrite fn qid false v s = _
    simp only [execDoorbellWrite, if_neg hn, hs, if_pos (hq q hs), Bool.false_eq_true, if_false]

theorem State.raiseEvent_frame (s : State) (e : AsyncEv) : forget 0x80000000 (s.raiseEvent e) = forget 0x80000000 s :=
  State.forget_raiseEvent rfl s e

theorem State.badDoorbell_spec (s : State) (fn qid info : Nat) : (s.badDoorbell fn qid info).host.sqs = s.host.sqs
    ∧ bitAt ((s.badDoorbell fn qid info).get (H.STICKY 0xB0)) Ev.HOSTQ.BAD_DOORBELL = true
    ∧ (s.get (H.VALID 0xB0) = 0 → (s.badDoorbell fn qid info).get (H.CODE 0xB0) = E.HOSTQ_BAD_DOORBELL)
    ∧ (s.badDoorbell fn qid info).mem = s.mem := by
  have hr := s.raiseEvent_frame ⟨fn, 0, info, 1⟩
  unfold State.badDoorbell
  refine ⟨?_, ?_, fun hv => ?_, ?_⟩
  · rw [State.record_sqs, State.pulse_sqs, (State.raiseEvent_host _ _).1]
  · exact State.record_sticky_of_set (by decide) ((State.pulse_sticky _ _ _ (by decide)).trans (if_pos rfl)) ..
  · rw [State.record_get_CODE]
    · rfl
    · rw [State.pulse_get_of_place _ _ _ rfl rfl, State.get_of_regs (keeps_regs hr rfl), hv]
  · exact (keeps_mem (State.forget_record (T := 0x480000420) rfl ..) rfl).trans ((keeps_mem (State.forget_pulse (T := 0x480000020) rfl ..) rfl).trans
      (keeps_mem hr rfl))

theorem State.cq_map_head {q : Cq} (hq : s.cq fn qid = some q) :
    ((s.host.cqs.map fun x => if x.fn == fn && x.qid == qid then { x with head := v } else x).find? fun x => x.fn == fn && x.qid == qid)
      = some { q with head := v } := by
  rw [find?_map_if (fun x : Cq => x.fn == fn && x.qid == qid) (g := fun x => { x with head := v }) fun _ h => h]
  exact congrArg (Option.map fun x : Cq => { x with head := v }) hq

end

/-! ### The fetch pause and the turns -/

section
variable {s : State}

theorem exec_commandFetch_pauses {x : IoCmd} {q : Sq} (hq : s.sq x.fn x.sq = some q) (h0 : x.sq ≠ 0) (hf : q.frozen = none) (hh : q.head ≠ q.tail)
    (hm : s.mayFetch x.fn = true) (hc : s.hcmd ⟨x.fn, x.sq, x.cid⟩ = none) (ht : (s.fetchTurn x.fn).isSome = true)
    (hl : 8192 < s.host.locksUsed + (s.locksOf x).length) : exec (.commandFetch x) s = .next s.pauseFetch := by
  have hown : q.fn = x.fn ∧ q.qid = x.sq := by simpa using List.find?_some hq
  have hw : s.sqWaits q = true := by simp [State.sqWaits, hown.1, hown.2, h0, hf, hh, hm]
  obtain ⟨t, ht⟩ := Option.isSome_iff_exists.mp ht
  show execCommandFetch x s = _
  simp only [execCommandFetch, hq, hw, hc, ht, Bool.not_true, Bool.false_eq_true, if_false, Option.isSome_none, if_pos hl]

theorem State.pauseFetch_spec (s : State) : s.pauseFetch.host.paused = true ∧ s.pauseFetch.host.cmds = s.host.cmds
    ∧ s.pauseFetch.host.sqs = s.host.sqs ∧ s.pauseFetch.get R.HOSTQ.FETCH_PAUSES_COUNT
      = (if s.host.paused then s.get R.HOSTQ.FETCH_PAUSES_COUNT else min (s.get R.HOSTQ.FETCH_PAUSES_COUNT + 1) (2 ^ 32 - 1)) := by
  unfold State.pauseFetch
  split
  case isTrue h => exact ⟨h, rfl, rfl, rfl⟩
  case isFalse =>
    refine ⟨?_, ?_, ?_, ?_⟩
    · rw [State.record_paused, State.pulse_paused]; rfl
    · rw [State.record_cmds, State.pulse_cmds]; rfl
    · rw [State.record_sqs, State.pulse_sqs]; rfl
    · rw [State.record_get_beyond _ _ _ _ _ _ _ rfl, State.pulse_get_beyond _ _ _ rfl, State.get_bump_same]
      rfl

/-- Every function that waits is among the waiters, and nobody else is. -/
theorem Turns.waiters_func (t : Turns) (active : List (Nat × Nat × Nat)) :
    (∀ w ∈ t.waiters active, ∃ a ∈ active, a.1 = w.func) ∧ (active ≠ [] → t.waiters active ≠ []) := by
  refine ⟨fun w hw => ?_, fun ha hw => ?_⟩
  · rcases List.mem_append.mp hw with hw | hw
    · obtain ⟨r, -, hr⟩ := List.mem_filterMap.mp hw
      obtain ⟨a, hf, rfl⟩ := Option.map_eq_some_iff.mp hr
      exact ⟨a, List.mem_of_find?_eq_some hf, by simpa using List.find?_some hf⟩
    · obtain ⟨a, hf, rfl⟩ := List.mem_map.mp hw
      exact ⟨a, List.mem_of_mem_filter hf, rfl⟩
  · obtain ⟨a, l, rfl⟩ := List.exists_cons_of_ne_nil ha
    obtain ⟨hold, hnew⟩ := List.append_eq_nil_iff.mp hw
    have hring : t.ring.any (·.1 == a.1) = true := by
      by_contra hr
      have : a ∈ (a :: l).filter fun a => !t.ring.any (·.1 == a.1) := List.mem_filter.mpr ⟨List.mem_cons_self, by rw [Bool.not_eq_true] at hr; rw [hr]; rfl⟩
      rw [List.map_eq_nil_iff.mp hnew] at this
      exact List.not_mem_nil this
    obtain ⟨r, hr, he⟩ := List.any_eq_true.mp hring
    have hnone := List.filterMap_eq_nil_iff.mp hold r hr
    rw [Option.map_eq_none_iff, List.find?_eq_none] at hnone
    refine hnone a List.mem_cons_self ?_
    rw [beq_iff_eq] at he ⊢
    exact he.symm

/-- The place that is served first is one of the list's. -/
theorem firstServed_of_ne_nil (cur : Option Nat) {ws : List Waiter} (h : ws ≠ []) : ∃ i r, firstServed cur ws = some (i, r) ∧ i < ws.length := by
  have hgo (l : List (Waiter × Nat)) (b : Option (Nat × Nat)) (hl : ∀ x ∈ l, x.2 < ws.length) (hb : ∀ y, b = some y → y.1 < ws.length)
      (hn : b ≠ none ∨ l ≠ []) : ∃ i r, l.foldl (fun b x =>
        let r := x.1.round (x.2 == 0 && cur == some x.1.func)
        match b with
        | none => some (x.2, r)
        | some y => if r < y.2 then some (x.2, r) else b) b = some (i, r) ∧ i < ws.length := by
    induction l generalizing b with
    | nil =>
      obtain ⟨y, hy⟩ := Option.ne_none_iff_exists'.mp (hn.resolve_right fun e => e rfl)
      exact ⟨y.1, y.2, hy, hb y hy⟩
    | cons x l ih =>
      have hx := hl x List.mem_cons_self
      refine ih _ (fun y hy => hl y (List.mem_cons_of_mem _ hy)) (fun y hy => ?_) (.inl ?_)
      · cases b with
        | none => rw [← Option.some.inj hy]; exact hx
        | some z =>
          simp only [] at hy
          split at hy
          · rw [← Option.some.inj hy]; exact hx
          · exact hb y hy
      · cases b with
        | none => exact Option.some_ne_none _
        | some z =>
          simp only []
          split <;> exact Option.some_ne_none _
  refine hgo ws.zipIdx none (fun x hx => ?_) (fun y hy => nomatch hy) (.inr ?_)
  · exact (List.mem_zipIdx' hx).1
  · simpa [List.zipIdx_eq_nil_iff] using h

/-- Among functions that wait, one has the turn. -/
theorem Turns.pick_of_ne_nil (t : Turns) {active : List (Nat × Nat × Nat)} (h : active ≠ []) : ∃ f u, t.pick active = some (f, u) ∧ ∃ a ∈ active, a.1 = f := by
  obtain ⟨hfunc, hne⟩ := t.waiters_func active
  obtain ⟨i, r, hi, hlt⟩ := firstServed_of_ne_nil t.cur (hne h)
  unfold Turns.pick
  simp only [hi, List.getElem?_eq_getElem hlt]
  exact ⟨_, _, rfl, hfunc _ (List.getElem_mem hlt)⟩

theorem State.fetchTurn_of_waits (hd : s.diesShort = true) (hw : s.shareWaits ≠ []) :
    ∃ f t, (∀ fn, s.fetchTurn fn = if f = fn then some t else none) ∧ s.shareOf f ≠ 0 := by
  obtain ⟨f, t, hp, a, ha, rfl⟩ := s.host.turns.pick_of_ne_nil hw
  refine ⟨a.1, t, fun fn => ?_, ?_⟩
  · simp only [State.fetchTurn, hd, hp, Bool.not_true, Bool.false_eq_true, if_false]
  · obtain ⟨f, hf, rfl⟩ := List.mem_map.mp ha
    simpa using (List.mem_filter.mp hf).2

theorem State.fetchTurn_of_free (h : s.diesShort = false ∨ s.shareWaits = []) (fn : Nat) : s.fetchTurn fn = some s.host.turns := by
  unfold State.fetchTurn
  rcases h with h | h
  · simp [h]
  · split
    · rfl
    · have hp : s.host.turns.pick s.shareWaits = none := by
        rw [h, Turns.pick, show s.host.turns.waiters [] = [] by simp [Turns.waiters]]
        rfl
      simp only [hp]

theorem exec_commandFetch_of_no_turn {x : IoCmd} (h : s.fetchTurn x.fn = none) : exec (.commandFetch x) s = .next s := by
  show execCommandFetch x s = _
  unfold execCommandFetch
  split
  · rfl
  · split
    · rfl
    · split
      · rfl
      · simp only [h]

end

/-- Settles O46: every port event and doorbell writes the registers and queues of its own, and the turn among waiting functions is one function's. -/
theorem portsAndDoorbells : Obligations.PortsAndDoorbells := by
  unfold Obligations.PortsAndDoorbells
  refine ⟨exec_perstRelease, exec_perstAssert, fun s p sp w flit sris hp he h0 h7 hw hfull => ?_, fun s p h => ?_, fun s p h hl => ?_,
    fun s p h hl hm => ?_, fun s fn qid v q hf hq hv => ?_, fun s fn qid v q hf hq hv => ?_, fun s fn qid v hf hq => ?_,
    fun s x q hq h0 hf hh hm hc ht hl => ?_, fun s x hd h0 hw => ?_, fun s fn h => State.fetchTurn_of_free h fn,
    fun s f g t u hd hw hf hg => ?_⟩
  case refine_1 =>
    obtain ⟨hs, hwd, hfl, hst, hva⟩ := s.changeLink_get p sp.toNat w.toNat flit sris false
    obtain ⟨bs, bw, bf, -⟩ := linkFields_beyond p
    rw [Nat.mod_eq_of_lt sp.isLt] at hs
    rw [Nat.mod_eq_of_lt w.isLt] at hwd
    rw [show b2n flit % 2 = b2n flit by cases flit <;> rfl] at hfl
    refine ⟨_, exec_pcieLinkUp flit sris hp he h0 h7 hw hfull, ?_⟩
    split
    case isTrue hdeg =>
      rw [State.record_get_beyond _ _ _ _ _ _ _ bs, State.record_get_beyond _ _ _ _ _ _ _ bw, State.record_get_beyond _ _ _ _ _ _ _ bf]
      refine ⟨hs, hwd, hfl, State.record_sticky_of_set (linkEvent_lt p) hst .., fun hv _ => ?_, fun _ h6 hfw => ?_⟩
      · exact (State.record_get_CODE (hva.trans hv) ..).trans rfl
      · omega
    case isFalse hok => exact ⟨hs, hwd, hfl, hst, fun _ hdeg => absurd hdeg hok, fun hv _ _ => hva.trans hv⟩
  case refine_2 =>
    obtain ⟨hs, -, -, hst, hva⟩ := s.changeLink_get p 0 0 false false false
    have hhost := s.changeLink_host p 0 0 false false false
    refine ⟨_, exec_hostqLinkDown h, State.linkUp_of_speed ?_, State.record_sticky_of_set (linkEvent_lt p) hst .., fun hv => ?_, ?_, ?_⟩
    · exact (State.record_get_beyond _ _ _ _ _ _ _ (linkFields_beyond p).1).trans hs
    · exact (State.record_get_CODE (hva.trans hv) ..).trans rfl
    · exact (State.record_sqs ..).trans (congrArg HostSt.sqs hhost :)
    · exact (State.record_cqes ..).trans (congrArg HostSt.cqes hhost :)
  case refine_3 => exact ⟨_, exec_aspmL12Entry h hl, s.putL12 p (by decide)⟩
  case refine_4 => exact ⟨_, exec_aspmL12Exit h hl hm, s.putL12 p (by decide)⟩
  case refine_5 =>
    have hsq : (s.modSq fn qid fun x => { x with tail := v }).sq fn qid = some { q with tail := v } := by
      rw [State.modSq_sq_same s fn qid (f := fun x => { x with tail := v }) fun _ => ⟨rfl, rfl⟩, hq]
      rfl
    refine ⟨_, exec_doorbell_sq hf hq hv, ?_⟩
    split
    case isTrue hb =>
      refine ⟨hsq, rfl, fun hwf _ => ?_⟩
      exact (memBit_memSetBit hwf ..).trans (if_pos rfl)
    case isFalse hb => exact ⟨hsq, rfl, fun _ h => absurd h hb⟩
  case refine_6 => exact ⟨_, exec_doorbell_cq hf hq hv, State.cq_map_head hq, rfl⟩
  case refine_7 =>
    obtain ⟨info, he⟩ := exec_doorbell_bad hf hq
    obtain ⟨hsqs, hst, hcode, hmem⟩ := s.badDoorbell_spec fn qid info
    exact ⟨_, he, hsqs, hst, hcode, hmem⟩
  case refine_8 =>
    obtain ⟨hpa, hcm, hsq, hct⟩ := s.pauseFetch_spec
    exact ⟨_, exec_commandFetch_pauses hq h0 hf hh hm hc ht hl, hpa, hcm, hsq, hct⟩
  case refine_9 =>
    obtain ⟨f, t, ht, hs⟩ := State.fetchTurn_of_waits hd hw
    exact exec_commandFetch_of_no_turn ((ht x.fn).trans (if_neg fun e => hs (by rw [e, h0])))
  case refine_10 =>
    obtain ⟨k, v, ht, -⟩ := State.fetchTurn_of_waits hd hw
    have hk {n : Nat} {x : Turns} (h : s.fetchTurn n = some x) : k = n := by
      by_contra hn
      rw [ht n, if_neg hn] at h
      cases h
    exact (hk hf).symm.trans (hk hg)

end Sys2Proof.Machine
end

section
/-!
The pools from which profiles are granted (R481, R483-R490): a profile that fits takes nothing that another function holds.
-/

namespace Sys2Proof.Machine

/-! ### The lowest free range -/

/-- A range lies within its bounds and meets none of those in use. -/
def RangeFits (used : List (Nat × Nat)) (lo hi n b : Nat) : Prop :=
  lo ≤ b ∧ b + n ≤ hi ∧ ∀ r ∈ used, b + n ≤ r.1 ∨ r.1 + r.2 ≤ b

theorem foldl_min_mem (b : Nat) (bs : List Nat) : bs.foldl min b ∈ b :: bs := by
  induction bs generalizing b with
  | nil => simp
  | cons c cs ih =>
    rw [List.foldl_cons]
    rcases List.mem_cons.mp (ih (min b c)) with h | h
    · rw [h]
      rcases min_choice b c with h | h <;> simp [h]
    · exact List.mem_cons_of_mem _ (List.mem_cons_of_mem _ h)

theorem lowestRange_fits {used : List (Nat × Nat)} {lo hi n b : Nat} (h : lowestRange used lo hi n = some b) (hn : n ≠ 0) :
    RangeFits used lo hi n b := by
  simp only [lowestRange, if_neg hn] at h
  split at h
  · cases h
  next c cs hc =>
    cases h
    have hmem := foldl_min_mem c cs
    rw [← hc, List.mem_filter] at hmem
    simpa only [RangeFits, Bool.and_eq_true, List.all_eq_true, Bool.or_eq_true, decide_eq_true_eq, and_assoc] using hmem.2

/-! ### What the other functions hold -/

theorem State.mem_claims_of_others {s : State} {func f : Nat} {r : Prof} (hf : f ∈ s.claimants) (hne : f ≠ func) (hr : r ∈ s.claims f) :
    r ∈ (s.claimants.filter fun f => some f != some func).flatMap s.claims :=
  List.mem_flatMap.mpr ⟨f, List.mem_filter.mpr ⟨hf, by simpa using hne⟩, hr⟩

/-- A mask without a bit of the reserved ones shares none with another function's. -/
theorem State.mask_disjoint {s : State} {func f m : Nat} {r : Prof} {g : Prof → Nat}
    (hm : (m &&& s.reservedMask (some func) g == 0) = true) (hf : f ∈ s.claimants) (hne : f ≠ func) (hr : r ∈ s.claims f) (i : Nat) :
    ¬ (m.testBit i = true ∧ (g r).testBit i = true) := by
  rintro ⟨hi, hj⟩
  have hres : (s.reservedMask (some func) g).testBit i = true := by
    rw [State.reservedMask, foldl_or_testBit, Nat.zero_testBit, Bool.false_or, List.any_eq_true]
    exact ⟨r, State.mem_claims_of_others hf hne hr, hj⟩
  have h0 : (m &&& s.reservedMask (some func) g).testBit i = false := by rw [beq_iff_eq.mp hm, Nat.zero_testBit]
  rw [Nat.testBit_and, hi, hres] at h0
  cases h0

/-- A range chosen beside the reserved ones meets none of another function's. -/
theorem State.range_disjoint {s : State} {func f lo hi n b : Nat} {r : Prof} {g : Prof → Nat × Nat}
    (h : lowestRange (s.reservedRanges (some func) g) lo hi n = some b) (hf : f ∈ s.claimants) (hne : f ≠ func) (hr : r ∈ s.claims f) :
    n = 0 ∨ (g r).2 = 0 ∨ b + n ≤ (g r).1 ∨ (g r).1 + (g r).2 ≤ b := by
  by_cases hn : n = 0
  · exact .inl hn
  by_cases hg : (g r).2 = 0
  · exact .inr (.inl hg)
  obtain ⟨-, -, hall⟩ := lowestRange_fits h hn
  refine .inr (.inr (hall _ (List.mem_filter.mpr ⟨List.mem_map_of_mem (State.mem_claims_of_others hf hne hr), ?_⟩)))
  simpa using hg

theorem range_bounds {used : List (Nat × Nat)} {lo hi n b : Nat} (h : lowestRange used lo hi n = some b) : n = 0 ∨ (lo ≤ b ∧ b + n ≤ hi) := by
  by_cases hn : n = 0
  · exact .inl hn
  · obtain ⟨hlo, hhi, -⟩ := lowestRange_fits h hn
    exact .inr ⟨hlo, hhi⟩

/-! ### The obligation -/

/-- Settles O49: the sums and masks are checked, and the ranges are chosen beside those in use. -/
theorem grantsAreExclusive : Obligations.GrantsAreExclusive := by
  intro s p q h
  simp only [State.fitProf] at h
  split at h
  · cases h
  next hfits =>
    simp only [Bool.not_eq_true', Bool.not_eq_false, Bool.and_eq_true, decide_eq_true_eq] at hfits
    obtain ⟨⟨⟨⟨⟨⟨⟨hpairs, hweight⟩, hshare⟩, hdram⟩, -⟩, hcores⟩, -⟩, hbanks⟩ := hfits
    split at h
    next k c w hk hc hw =>
      cases h
      refine ⟨rfl, range_bounds hk, range_bounds hc, ?_, hpairs, hweight, hshare, hdram, fun f hf hne r hr =>
        ⟨State.mask_disjoint hcores hf hne hr, State.mask_disjoint hbanks hf hne hr, State.range_disjoint hk hf hne hr,
          State.range_disjoint hc hf hne hr, State.range_disjoint hw hf hne hr⟩⟩
      exact (range_bounds hw).imp_right And.right
    · cases h

end Sys2Proof.Machine
end

section
/-!
Disabling VFs (R487): the register VFS_ENABLED has 9 bits.
-/

namespace Sys2Proof.Machine

/-- A state without functions whose VFS_ENABLED holds 1000, which no 9-bit field shows. -/
def overEnabled : State := { State.reset with regs := [(R.TENANT.VFS_ENABLED, 1000)] }

/-- Disabling down to 600 VFs leaves 600 modulo 2^9 in the register. -/
theorem overEnabled_disables : exec (.vfDisable 600) overEnabled = .next (overEnabled.put R.TENANT.VFS_ENABLED 600) := rfl

/-- Refutes O50: where VFS_ENABLED holds more than its 9 bits show, the count that VF_DISABLE writes is cut to 9 bits, 600 to 88. -/
theorem not_tenantCommandsRun : ¬ Obligations.TenantCommandsRun := by
  unfold Obligations.TenantCommandsRun
  rintro ⟨-, -, -, -, hdisable, -⟩
  obtain ⟨t, ht, hn, -⟩ := hdisable overEnabled 600 (by decide)
  rw [← Host.Outcome.next.inj (overEnabled_disables.symm.trans ht), State.get_put_same] at hn
  exact absurd hn (by decide)

end Sys2Proof.Machine
end

section
/-!
The discipline of a member's time (R500, R506, log entry 80).
-/

namespace Sys2Proof.Machine

/-- Beside a step, a discipline moves the time by at most the slew drawn, toward set time. -/
theorem State.discipline_of_slew {s : State} {off : Int} (h : off.natAbs ≤ 1000 ∨ s.get R.TAKE.TAKE_STATE_STATE ≠ 0) :
    ∃ m : Nat, m ≤ 100 ∧ m ≤ off.natAbs ∧ (s.discipline off).time = ((s.time : Int) + if 0 ≤ off then (m : Int) else -m).toNat
      ∧ (s.discipline off).drove.offset = off := by
  have hslew : ¬ ((decide (1000 < off.natAbs) && (s.setDrove fun d => { d with offset := off }).get R.TAKE.TAKE_STATE_STATE == 0) = true) := by
    simp only [State.setDrove_get, Bool.and_eq_true, decide_eq_true_eq, beq_iff_eq]
    omega
  refine ⟨min off.natAbs ((s.setDrove fun d => { d with offset := off }).fresh.1 % 101), by omega, by omega, ?_⟩
  simp only [State.discipline, if_neg hslew]
  split <;> exact ⟨rfl, rfl⟩

theorem State.discipline_of_step {s : State} {off : Int} (hbig : 1000 < off.natAbs) (hnone : s.get R.TAKE.TAKE_STATE_STATE = 0) :
    (s.discipline off).time = ((s.time : Int) + off).toNat ∧ (s.discipline off).drove.offset = off := by
  have hstep : (decide (1000 < off.natAbs) && (s.setDrove fun d => { d with offset := off }).get R.TAKE.TAKE_STATE_STATE == 0) = true := by
    simp only [State.setDrove_get, hnone, Bool.and_eq_true, decide_eq_true_eq, beq_self_eq_true, and_true, hbig]
  simp only [State.discipline, if_pos hstep]
  exact ⟨rfl, rfl⟩

theorem State.discipline_take_rtcAt (s : State) (off : Int) :
    (s.discipline off).take = s.take ∧ (s.discipline off).rtcAt = (s.discipline off).time := by
  simp only [State.discipline]
  split
  · exact ⟨rfl, rfl⟩
  · split <;> exact ⟨rfl, rfl⟩

/-- Settles O51: a step needs STATE NONE, and a slew is the drawn part of 100 ns cut at the offset. -/
theorem setTimeStepsOnlyWithoutATake : Obligations.SetTimeStepsOnlyWithoutATake := by
  refine ⟨fun s off hbig hnone hpos => ?_, fun s off h htime => ?_, State.discipline_take_rtcAt⟩
  · obtain ⟨ht, ho⟩ := State.discipline_of_step hbig hnone
    exact ⟨by rw [ht]; omega, ho⟩
  · obtain ⟨m, hm, hoff, ht, ho⟩ := State.discipline_of_slew h
    refine ⟨?_, ?_, fun _ => ⟨?_, ?_⟩, fun _ => ⟨?_, ?_⟩, ho⟩ <;> rw [ht] <;> split <;> omega

end Sys2Proof.Machine
end

section
/-!
SET SERVICE STATUS: the header holds SET_ID in 8 bytes, while a state's register may hold any number.
-/

namespace Sys2Proof.Machine

/-- PF 0 with nothing granted. -/
def emptyPf : Fn := ⟨⟨0, true, 1, 1, 0, 0, 0, 0, 0, 0, 0, 0, 0, 0, [], []⟩, 1, 0, []⟩

/-- A device in IDLE whose SET_ID register holds a number of 65 bits. -/
def wideSetId : State :=
  { State.reset with regs := [(R.DROVE.SET_ID_ID, 2 ^ 64), (R.PWR.MODE_MODE, 3)], tenant := { State.reset.tenant with fns := [emptyPf] } }

theorem leNat_take_lt (n : Nat) (bs : Bytes) : leNat (bs.take n) < 2 ^ (8 * n) :=
  (leNat_lt _).trans_le (Nat.pow_le_pow_right (by decide) (Nat.mul_le_mul_left 8 (List.length_take_le n bs)))

/-- Refutes O53: a state whose SET_ID register holds 2^64, which no premise excludes, gives no 8 bytes of that value. -/
theorem not_setOperationsRun : ¬ Obligations.SetOperationsRun := by
  unfold Obligations.SetOperationsRun
  rintro ⟨hstatus, -⟩
  obtain ⟨t, bs, -, -, hid, -⟩ := hstatus wideSetId ⟨0, 0, 0, 0, []⟩ (by decide) rfl
  have hlt := leNat_take_lt 8 bs
  have hwide : wideSetId.get R.DROVE.SET_ID_ID = 2 ^ 64 := rfl
  rw [hid, hwide] at hlt
  exact absurd hlt (by decide)

end Sys2Proof.Machine
end

section
/-!
DRAM drift (R533): DRIFT_RETRAINS is a field of 24 bits, so its count stays at 2^24 - 1.
-/

namespace Sys2Proof.Machine

/-- A lane's training writes the lane's own fields and no other register. -/
theorem State.trainLane_get_retrains (s : State) (c i : Nat) (hi : i < 10) :
    (s.trainLane c i).get (R.DRAM.DRIFT_RETRAINS c) = s.get (R.DRAM.DRIFT_RETRAINS c) := by
  have hne {x : Fld} (hx : x.off = 0x048 + 4 * i) : R.DRAM.DRIFT_RETRAINS c ≠ x := fun e => by
    have hoff : 0x070 = x.off := congrArg Fld.off e
    omega
  unfold State.trainLane
  simp only [State.puts_cons, State.puts_nil]
  rw [State.get_put_other _ _ (hne rfl), State.get_put_other _ _ (hne rfl), State.get_put_other _ _ (hne rfl)]
  rfl

theorem State.trainLanes_get_retrains (c : Nat) {l : List Nat} (hl : ∀ i ∈ l, i < 10) (s : State) :
    (l.foldl (fun t i => t.trainLane c i) s).get (R.DRAM.DRIFT_RETRAINS c) = s.get (R.DRAM.DRIFT_RETRAINS c) := by
  induction l generalizing s with
  | nil => rfl
  | cons i l ih =>
    rw [List.foldl_cons, ih (fun k hk => hl k (List.mem_cons_of_mem _ hk)), State.trainLane_get_retrains _ _ _ (hl i List.mem_cons_self)]

/-- A retraining leaves the count of retrains alone. -/
theorem State.trainAgain_get_retrains (s : State) (c : Nat) : (s.trainAgain c).get (R.DRAM.DRIFT_RETRAINS c) = s.get (R.DRAM.DRIFT_RETRAINS c) := by
  unfold State.trainAgain
  rw [State.pulse_get_beyond_header _ _ _ (by decide : 0x040 ≤ 0x070), State.get_put_of_place _ _ rfl,
    State.trainLanes_get_retrains c fun i hi => List.mem_range.mp hi]

/-- A live channel 0 whose count of retrains is full. -/
def fullRetrains : State := (State.reset.put (R.DRAM.CH_STATUS_STATE 0) 2).put (R.DRAM.DRIFT_RETRAINS 0) (2 ^ 24 - 1)

/-- A drift of 100 steps on that channel retrains it. -/
theorem fullRetrains_drifts : exec (.dramDriftCheck 0 100) fullRetrains
    = .next (((fullRetrains.sendDram 0 [⟨.modeRead, 0⟩]).bump (R.DRAM.DRIFT_RETRAINS 0)).trainAgain 0) := rfl

/-- Refutes O54: DRIFT_RETRAINS has 24 bits, and on a channel where it holds 2^24 - 1 a drift that retrains leaves it as it is, where the statement
has it go on to 2^24. -/
theorem not_dramCommandsRun : ¬ Obligations.DramCommandsRun := by
  unfold Obligations.DramCommandsRun
  rintro ⟨hdrift, -⟩
  obtain ⟨t, ht, -, hcount, -⟩ := (hdrift fullRetrains 0 100 (by decide)).2 (by decide)
  have hsame : t.get (R.DRAM.DRIFT_RETRAINS 0) = min ((fullRetrains.sendDram 0 [⟨.modeRead, 0⟩]).get (R.DRAM.DRIFT_RETRAINS 0) + 1) (2 ^ 24 - 1) := by
    rw [← Host.Outcome.next.inj (fullRetrains_drifts.symm.trans ht), State.trainAgain_get_retrains, State.get_bump_same]
    rfl
  have hfull : (min (2 ^ 24 - 1 + 1) (2 ^ 24 - 1) : Nat) = min (2 ^ 24 - 1 + 1) (2 ^ 32 - 1) := hsame.symm.trans hcount
  exact absurd hfull (by decide)

end Sys2Proof.Machine
end

section
/-!
A high word written alone (R47) while the page reports RESET_BUSY: the low half of what the pair reads is then 0.
-/

namespace Sys2Proof.Machine

/-- A powered device whose RTC page is in reset, with SET_TIME at 1 and the operator role held by PF 0. -/
def busyRtc : State :=
  { State.reset with
    regs := [(R.PWR.MODE_MODE, 3), (H.RESET_BUSY 4, 1), (R.RTC.SET_TIME, 1)]
    trust := { State.reset.trust with sessions := [⟨.pcie 0, .operator, 0⟩] } }

/-- The high word 1 written alone takes 0, and not the register's 1, for its low word. -/
theorem busyRtc_highWord : (outState busyRtc (exec (.registerWrite (.pcie 0) 4 0x04C 4 1) busyRtc)).get R.RTC.SET_TIME = 2 ^ 32 := by
  decide +kernel

/-- Refutes O58: on a page that reports RESET_BUSY, which no premise excludes, a high word written alone is committed with the low half of what
the pair then reads, 0, while SET_TIME holds 1. -/
theorem not_registersAndSharedResources : ¬ Obligations.RegistersAndSharedResources := by
  unfold Obligations.RegistersAndSharedResources
  rintro ⟨-, -, -, -, hhigh, -⟩
  obtain ⟨t, ht, hset⟩ := hhigh busyRtc (.pcie 0) 1 (by decide) (by decide) (by decide) (by decide) (by decide)
  have hout : outState busyRtc (exec (.registerWrite (.pcie 0) 4 0x04C 4 1) busyRtc) = t := congrArg (outState busyRtc) ht
  rw [← hout, busyRtc_highWord] at hset
  exact absurd hset (by decide)

end Sys2Proof.Machine
end

section
/-!
Frames of a take: finding and changing one, its marks, and the packets that open, fill and end it (R76-R81, R115, R127-R129).
-/

namespace Sys2Proof.Machine

open Sys2Proof.Laws

section
variable {s : State} {f : FrameSt}

theorem State.frame?_of_take {s t : State} (h : t.take = s.take) (uid : Nat) : t.frame? uid = s.frame? uid := by
  rw [State.frame?, h, State.frame?]

/-- A frame that a change of it keeps by its number. -/
theorem State.frame?_modFrame {uid : Nat} (h : s.frame? uid = some f) {g : FrameSt → FrameSt} (hg : ∀ x, (g x).uid = x.uid) :
    (s.modFrame uid g).frame? uid = some (g f) := by
  have hp : (fun x : FrameSt => x.uid == uid) ∘ (fun x => if x.uid == uid then g x else x) = (fun x => x.uid == uid) := by
    funext x
    simp only [Function.comp_apply]
    split
    next hx => rw [hg]
    next => rfl
  have hu : (f.uid == uid) = true := List.find?_some (p := fun x : FrameSt => x.uid == uid) h
  change (s.take.frames.map fun x => if x.uid == uid then g x else x).find? (fun x => x.uid == uid) = some (g f)
  rw [List.find?_map, hp, show s.take.frames.find? (fun x => x.uid == uid) = some f from h, Option.map_some, if_pos hu]

theorem State.uid_of_frame? {uid : Nat} (h : s.frame? uid = some f) : f.uid = uid := by
  simpa using List.find?_some h

/-! ### The marks of an ended frame -/

theorem bitAt_mark_if (m : Nat) (c : Prop) [Decidable c] (i j : Nat) :
    bitAt (if c then mark m i else m) j = (bitAt m j || (decide (j = i) && decide c)) := by
  by_cases hc : c
  · rw [if_pos hc, mark]
    by_cases hj : j = i
    · subst hj
      simp [hc]
    · rw [bitAt_setBit_other _ _ hj]
      simp [hj]
  · simp [hc]

@[simp] theorem State.gateErr_take (s : State) (code stream number : Nat) : (s.gateErr code stream number).take = s.take := State.record_take ..

@[simp] theorem State.showStreams_take (s : State) : s.showStreams.take = s.take := rfl

end

/-- What the end of a frame adds to marks: the conditions of R78 and R81 in the order in which they are met. -/
def FrameSt.endMarks (f : FrameSt) (status : Nat) (crc : Option Nat) (damaged : Bool) : Nat :=
  let m := if decide (f.recv < f.declared) then mark f.marks 0 else f.marks
  let m := if decide (f.declared < f.recv) then mark m 1 else m
  let m := if damaged then mark m 2 else m
  let m := if (match crc with | some c => !decide (f.declared < f.recv) && c != crc32c f.bytes | none => false) then mark m 4 else m
  if status ≠ 0 then mark m 5 else m

/-- Settles O8: each mark bit is set by its own condition. -/
theorem frameEndMarksTheFrame : Obligations.FrameEndMarksTheFrame := by
  unfold Obligations.FrameEndMarksTheFrame
  intro s f status crc damaged hf
  refine ⟨_, { f with marks := f.endMarks status crc damaged, status := status, crc := crc.getD 0, ended := true }, rfl, ?_, rfl, rfl, rfl, ?_⟩
  · refine (State.frame?_of_take ?_ _).trans (State.frame?_modFrame (uid := f.uid) hf
      (g := fun g => { g with marks := f.endMarks status crc damaged, status := status, crc := crc.getD 0, ended := true }) fun _ => rfl)
    simp only [State.showStreams_take, State.bump_take, apply_ite State.take, State.gateErr_take, State.pulse_take, ite_self]
    rfl
  · have hlong : (!decide (f.declared < f.recv)) = decide (f.recv ≤ f.declared) := by
      rw [← decide_not]
      simp only [not_lt]
    simp only [FrameSt.endMarks, bitAt_mark_if, hlong]
    refine ⟨?_, ?_, ?_, ?_, ?_, ?_⟩ <;> simp <;> rfl

end Sys2Proof.Machine
end

section
/-!
The packets of a frame, the completion of its summary key and the release of its slices (R76-R79, R88, R115, R127-R129).
-/

namespace Sys2Proof.Machine

open Sys2Proof.Laws

section
variable (s : State)

@[simp] theorem State.leaveRx_take (p : Bytes → Bool) : (s.leaveRx p).take = s.take := keeps_take (State.forget_leaveRx (T := 0x480001020) rfl ..) rfl

theorem State.level_get_other (page bit : Nat) (b : Bool) {x : Fld} (hr : x ≠ H.RAW page) (hs : x ≠ H.STICKY page) (hc : x ≠ H.COUNT page) :
    (s.level page bit b).get x = s.get x := by
  simp only [State.level]
  split
  · rw [State.pulse_get_other _ _ _ hs hc, State.get_put_other _ _ hr]
  · rw [State.get_put_other _ _ hr]

theorem State.leaveRx_get (p : Bytes → Bool) {x : Fld} (hr : x ≠ H.RAW 0x10) (hs : x ≠ H.STICKY 0x10) (hc : x ≠ H.COUNT 0x10) :
    (s.leaveRx p).get x = s.get x := by
  simp only [State.leaveRx, State.advance, State.level_get_other _ _ _ _ hr hs hc]
  rfl

theorem State.leaveRx_takeLive (p : Bytes → Bool) : (s.leaveRx p).takeLive = s.takeLive := by
  simp only [State.takeLive, State.leaveRx_get _ _ (x := R.TAKE.TAKE_STATE_STATE) (Fld.ne_of_place rfl) (Fld.ne_of_place rfl) (Fld.ne_of_place rfl)]

theorem State.openFrame_of_take {s t : State} (h : t.take = s.take) (n : Nat) : t.openFrame n = s.openFrame n := by
  rw [State.openFrame, h, State.openFrame]

/-- Acknowledgements that go out leave every other part of the take. -/
theorem State.flushAcks_take : s.flushAcks.take = { s.take with acks := (ackTurn [] s.take.acks).2 } := by
  have hsend (l : List Bytes) (t : State) : (l.foldl (fun t p => t.send p) t).take = t.take := by
    induction l generalizing t with
    | nil => rfl
    | cons p l ih => exact ih _
  exact hsend _ _

/-! ### FRAME_BEGIN -/

/-- A FRAME_BEGIN that is taken opens a frame (R76). -/
theorem State.beginFrame_opens (p : FrameBeginPkt) : (s.beginFrame p).take.nextUid = s.take.nextUid + 1
    ∧ ∃ f ∈ (s.beginFrame p).take.frames, f.uid = s.take.nextUid ∧ f.stream = p.stream.toNat ∧ f.number = p.number.toNat
      ∧ f.declared = p.declared.toNat ∧ f.recv = 0 ∧ f.ended = false := by
  have htake {t : State} : (t.lateFrames p.capture.toNat).showStreams.take = t.take :=
    (State.showStreams_take _).trans (keeps_take (State.forget_lateFrames (T := 0x480004420) rfl ..) rfl)
  simp only [State.beginFrame]
  rw [htake]
  simp only [apply_ite State.take, State.gateErr_take, State.pulse_take, ite_self]
  exact ⟨rfl, _, List.mem_append_right _ List.mem_cons_self, rfl, rfl, rfl, rfl, rfl, rfl⟩

/-- A FRAME_BEGIN that is refused opens none, discards what follows on its stream, and is recorded (R76, R88). -/
theorem State.refuseBegin_spec (st n code : Nat) : (s.refuseBegin st n code).take.frames = s.take.frames
    ∧ st ∈ (s.refuseBegin st n code).take.refusing
    ∧ (s.get (H.VALID 0x10) = 0 → (s.refuseBegin st n code).get (H.CODE 0x10) = code % 2 ^ 16) := by
  have hget {t : State} (x : Fld) : t.flushAcks.get x = t.get x :=
    State.get_of_regs (keeps_regs (State.forget_flushAcks (T := 0x3000) rfl _) rfl) x
  have htake : (((s.bump R.GATE.REFUSED_COUNT_COUNT).pulse 0x10 Ev.GATE.FRAME_REFUSED).gateErr code st n).take = s.take := by
    simp only [State.gateErr_take, State.pulse_take, State.bump_take]
  refine ⟨?_, ?_, fun hv => ?_⟩
  · simp only [State.refuseBegin, State.flushAcks_take, State.setTake, htake]
  · simp only [State.refuseBegin, State.flushAcks_take, State.setTake, htake]
    split
    next h => exact List.contains_iff_mem.mp h
    next => exact List.mem_append_right _ List.mem_cons_self
  · simp only [State.refuseBegin, hget]
    refine State.record_get_CODE ?_ ..
    rw [State.pulse_get_of_place _ _ _ rfl rfl, State.get_bump_of_place _ _ rfl]
    exact hv

theorem State.showSummary_take (f : FrameSt) (key : List Nat) : (s.showSummary f key).take = s.take :=
  keeps_take (State.forget_showSummary (T := 0x20) rfl ..) rfl

end

/-- A state to which a FRAME_BEGIN on a stream without an open frame has come: the stream's packets are no longer discarded (R76). -/
def State.beginning (s : State) (p : FrameBeginPkt) : State :=
  (s.leaveRx fun b => pktType b == 0x10 && (b.getD 1 0).toNat % 8 == p.stream.toNat).setTake fun x =>
    { x with refusing := x.refusing.filter (· != p.stream.toNat) }

section
variable {s : State} {p : FrameBeginPkt}

theorem execFrameBegin_of_closed (ho : s.openFrame p.stream.toNat = none) : execFrameBegin p s =
    match (s.beginning p).take.c with
    | some c =>
      if !(s.beginning p).takeLive then .next ((s.beginning p).refuseBegin p.stream.toNat p.number.toNat E.GATE_NO_TAKE)
      else if !bitAt c.streams p.stream.toNat || !beginLegal p then
        .next ((s.beginning p).refuseBegin p.stream.toNat p.number.toNat E.GATE_BAD_FORMAT)
      else .next ((s.beginning p).beginFrame p)
    | none => .next ((s.beginning p).refuseBegin p.stream.toNat p.number.toNat E.GATE_NO_TAKE) := by
  simp only [execFrameBegin, State.openFrame_of_take (s.leaveRx_take _), ho] <;> rfl

theorem State.beginning_take : (s.beginning p).take = { s.take with refusing := s.take.refusing.filter (· != p.stream.toNat) } := by
  simp only [State.beginning, State.setTake, State.leaveRx_take]

theorem exec_frameBegin_of_legal {c : Contract} (ho : s.openFrame p.stream.toNat = none) (hc : s.take.c = some c) (hl : s.takeLive = true)
    (hs : bitAt c.streams p.stream.toNat = true) (hb : beginLegal p = true) : exec (.frameBegin p) s = .next ((s.beginning p).beginFrame p) := by
  have hbl : (s.beginning p).takeLive = true := (s.leaveRx_takeLive _).trans hl
  have hbc : (s.beginning p).take.c = some c := by rw [State.beginning_take]; exact hc
  change execFrameBegin p s = _
  rw [execFrameBegin_of_closed ho]
  simp only [hbc, hbl, hs, hb, Bool.not_true, Bool.or_self, Bool.false_eq_true, if_false]

theorem exec_frameBegin_of_no_take (ho : s.openFrame p.stream.toNat = none) (hc : s.take.c = none) :
    exec (.frameBegin p) s = .next ((s.beginning p).refuseBegin p.stream.toNat p.number.toNat E.GATE_NO_TAKE) := by
  have hbc : (s.beginning p).take.c = none := by rw [State.beginning_take]; exact hc
  change execFrameBegin p s = _
  rw [execFrameBegin_of_closed ho]
  simp only [hbc]

end

/-! ### FRAME_DATA, META and the summary key -/

section
variable {s : State} {f : FrameSt}

/-- The payload of a FRAME_DATA that lies within the frame's declared length. -/
def FrameSt.accepted (f : FrameSt) (p : FrameDataPkt) : Bytes := p.payload.take (f.declared - f.recv)

/-- A frame with the payload of a FRAME_DATA added. -/
def FrameSt.fed (g f : FrameSt) (p : FrameDataPkt) : FrameSt := { g with bytes := g.bytes ++ f.accepted p, recv := g.recv + p.payload.length }

/-- A state whose open frame has taken a FRAME_DATA. -/
def State.fed (s : State) (f : FrameSt) (p : FrameDataPkt) : State :=
  (((s.leaveRx fun b => pktType b == 0x11 && (b.getD 1 0).toNat % 8 == p.stream.toNat).modFrame f.uid (·.fed f p)).bump
    R.GATE.PAYLOAD_RX_BYTES (f.accepted p).length).setTake fun x => { x with ratioRaw := x.ratioRaw + (f.accepted p).length }

theorem exec_frameData_of_next {p : FrameDataPkt} (ho : s.openFrame p.stream.toNat = some f) (hf : s.frame? f.uid = some f)
    (hoff : p.offset.toNat = f.recv) (hn : p.fnumLo.toNat = f.number % 65536) :
    exec (.frameData p) s = .next ((s.fed f p).queueSlices f.uid (wholeSlices (f.fed f p))) ∧ (s.fed f p).frame? f.uid = some (f.fed f p) := by
  have hrx : (s.leaveRx fun b => pktType b == 0x11 && (b.getD 1 0).toNat % 8 == p.stream.toNat).frame? f.uid = some f :=
    (State.frame?_of_take (s.leaveRx_take _) _).trans hf
  have hg : (s.fed f p).frame? f.uid = some (f.fed f p) :=
    (State.frame?_of_take rfl _).trans (State.frame?_modFrame hrx (g := (·.fed f p)) fun _ => rfl)
  have hgo : ¬ (p.offset.toNat ≠ f.recv ∨ p.fnumLo.toNat ≠ f.number % 65536) := by simp [hoff, hn]
  have hexec : execFrameData p s = match (s.fed f p).frame? f.uid with
      | some g => .next ((s.fed f p).queueSlices g.uid (wholeSlices g))
      | none => .next (s.fed f p) := by
    simp only [execFrameData, State.openFrame_of_take (s.leaveRx_take _), ho, if_neg hgo] <;> rfl
  rw [hg] at hexec
  exact ⟨hexec, hg⟩

theorem exec_frameData_of_off {p : FrameDataPkt} (ho : s.openFrame p.stream.toNat = some f) (hf : s.frame? f.uid = some f)
    (hbad : p.offset.toNat ≠ f.recv ∨ p.fnumLo.toNat ≠ f.number % 65536) :
    ∃ t : State, exec (.frameData p) s = .next t ∧ t.frame? f.uid = some { f with marks := mark f.marks 2 }
      ∧ t.take.ratioRaw = s.take.ratioRaw := by
  have hrx : (s.leaveRx fun b => pktType b == 0x11 && (b.getD 1 0).toNat % 8 == p.stream.toNat).frame? f.uid = some f :=
    (State.frame?_of_take (s.leaveRx_take _) _).trans hf
  have hg := State.frame?_modFrame hrx (g := fun g => { g with marks := mark g.marks 2 }) fun _ => rfl
  refine ⟨((((s.leaveRx fun b => pktType b == 0x11 && (b.getD 1 0).toNat % 8 == p.stream.toNat).modFrame f.uid
    fun g => { g with marks := mark g.marks 2 }).pulse 0x10 Ev.GATE.FRAME_OFFSET).gateErr E.GATE_FRAME_OFFSET p.stream.toNat f.number), ?_,
    (State.frame?_of_take ((State.gateErr_take ..).trans (State.pulse_take ..)) _).trans hg, ?_⟩
  · change execFrameData p s = _
    simp only [execFrameData, State.openFrame_of_take (s.leaveRx_take _), ho, if_pos hbad]
  · rw [State.gateErr_take, State.pulse_take]
    change (s.leaveRx _).take.ratioRaw = _
    rw [State.leaveRx_take]

theorem exec_frameEnd_of_open {p : FrameEndPkt} (ho : s.openFrame p.stream.toNat = some f) :
    exec (.frameEnd p) s = .next ((s.leaveRx fun b => pktType b == 0x12 && (b.getD 1 0).toNat % 8 == p.stream.toNat).endFrame f p.status.toNat
      (if bitAt p.flags.toNat 0 then some p.crc.toNat else none) (p.number.toNat != f.number || decide (2 < p.status.toNat))) := by
  change execFrameEnd p s = _
  simp only [execFrameEnd, State.openFrame_of_take (s.leaveRx_take _), ho]

/-- A frame with the data of a META packet stored below offset 4,096 (R79). -/
def FrameSt.described (f : FrameSt) (p : MetaPkt) : FrameSt :=
  let kept := p.data.take (4096 - p.offset.toNat)
  { f with metaMem := memWriteN f.metaMem p.offset.toNat kept,
           metaLen := if kept.isEmpty then f.metaLen else max f.metaLen (p.offset.toNat + kept.length) }

theorem exec_metaPacket_of_open {p : MetaPkt} (ho : s.openFrame p.stream.toNat = some f) (hf : s.frame? f.uid = some f) :
    ∃ t : State, exec (.metaPacket p) s = .next t ∧ t.frame? f.uid = some (f.described p) := by
  have hrx : (s.leaveRx fun b => pktType b == 0x18 && (b.getD 1 0).toNat % 8 == p.stream.toNat).frame? f.uid = some f :=
    (State.frame?_of_take (s.leaveRx_take _) _).trans hf
  have hg := State.frame?_modFrame hrx (g := (·.described p)) fun _ => rfl
  have hexec : exec (.metaPacket p) s = _ := rfl
  change exec (.metaPacket p) s = execMetaPacket p s at hexec
  simp only [execMetaPacket, State.openFrame_of_take (s.leaveRx_take _), ho] at hexec
  split at hexec
  · exact ⟨_, hexec, (State.frame?_of_take ((State.gateErr_take ..).trans (State.pulse_take ..)) _).trans hg⟩
  · exact ⟨_, hexec, hg⟩

/-- A frame whose summary key is known (R115). -/
def FrameSt.keyed (f : FrameSt) (key : List Nat) : FrameSt := { f with key := some key }

theorem exec_summaryKeyComplete_of_ended {uid : Nat} (hf : s.frame? uid = some f) (he : f.ended = true) (hk : f.key = none) :
    ∃ t : State, exec (.summaryKeyComplete uid) s = .next (t.finishFrame uid).settle
      ∧ t.frame? uid = some (f.keyed (summaryKey (frameStats f.pixfmt f.width f.height f.bytes) (summaryInput f) (s.take.keysel.getD f.stream []))) := by
  have hg := State.frame?_modFrame hf
    (g := (·.keyed (summaryKey (frameStats f.pixfmt f.width f.height f.bytes) (summaryInput f) (s.take.keysel.getD f.stream [])))) fun _ => rfl
  have hopen : (!f.ended || f.key.isSome) = false := by rw [he, hk]; rfl
  have hexec : exec (.summaryKeyComplete uid) s = execSummaryKeyComplete uid s := rfl
  simp only [execSummaryKeyComplete, hf, hopen, Bool.false_eq_true, if_false] at hexec
  refine ⟨_, hexec, (State.frame?_of_take ?_ uid).trans hg⟩
  simp only [apply_ite State.take, State.record_take, State.pulse_take, State.bump_take, State.showSummary_take, ite_self]
  rfl

theorem exec_sliceRelease_of_head {c : Contract} {x : TakeSlice} (hc : s.take.c = some c)
    (hx : (s.headFrames.findSome? fun f => (s.nextSlice f).map fun x => (f, x)) = some (f, x)) :
    exec .sliceRelease s = .next ((s.releaseSlice c f x).finishFrame f.uid).settle := by
  change execSliceRelease s = _
  simp only [execSliceRelease, hc, hx]

end

/-- Settles O7: packet by packet; a change of a frame finds it again by its number. -/
theorem framesAreJudgedAndStored : Obligations.FramesAreJudgedAndStored := by
  unfold Obligations.FramesAreJudgedAndStored
  refine ⟨fun s p c ho hc hl hs hb => ⟨(s.beginning p).beginFrame p, ?_⟩, fun s p ho hc => ⟨_, exec_frameBegin_of_no_take ho hc, ?_⟩,
    fun s p f ho hf hoff hn => ?_, fun s p f ho hf hbad => ?_, fun s p f ho => ⟨_, exec_frameEnd_of_open ho, s.leaveRx_take _⟩,
    fun s p f ho hf => ?_, fun s uid f hf he hk => ?_, fun s c f x hc hx => exec_sliceRelease_of_head hc hx⟩
  · obtain ⟨hnext, f, hf, hrest⟩ := (s.beginning p).beginFrame_opens p
    rw [State.beginning_take] at hnext hrest
    exact ⟨f, exec_frameBegin_of_legal ho hc hl hs hb, hnext, hf, hrest⟩
  · obtain ⟨hframes, hst, hcode⟩ := (s.beginning p).refuseBegin_spec p.stream.toNat p.number.toNat E.GATE_NO_TAKE
    rw [State.beginning_take] at hframes
    exact ⟨hframes, hst, fun hv => hcode ((s.leaveRx_get _ (Fld.ne_of_place rfl) (Fld.ne_of_place rfl) (Fld.ne_of_place rfl)).trans hv)⟩
  · obtain ⟨hexec, hg⟩ := exec_frameData_of_next ho hf hoff hn
    exact ⟨_, _, hexec, hg, rfl, rfl, rfl⟩
  · obtain ⟨t, hexec, hg, hraw⟩ := exec_frameData_of_off ho hf hbad
    exact ⟨t, _, hexec, hg, rfl, rfl, bitAt_setBit_same .., hraw⟩
  · obtain ⟨t, hexec, hg⟩ := exec_metaPacket_of_open ho hf
    exact ⟨t, _, hexec, hg, rfl, rfl⟩
  · obtain ⟨t, hexec, hg⟩ := exec_summaryKeyComplete_of_ended hf he hk
    exact ⟨t, _, hexec, hg, rfl⟩

end Sys2Proof.Machine
end

section
/-!
The Gate link: what its state machine keeps, and its commands (R52-R70, R86).
-/

namespace Sys2Proof.Machine

open Sys2Proof.Laws

/-! ### What credits and roles leave of the link -/

/-- The link's state, the take's, and the Gate's counters without the credits that it advertises. -/
def State.linkView (s : State) : Nat × Nat × GateSt :=
  (s.get R.GATE.LINK_STATUS_LTSSM, s.get R.TAKE.TAKE_STATE_STATE, { s.gate with advData := 0, advCtrl := 0 })

/-- A field that is neither the link's state nor the take's. -/
def offLink (x : Fld) : Bool := !(x.off == 0x040 && x.lo == 4 && x.page == 0x10) && !(x.off == 0x040 && x.lo == 0 && x.page == 0x11)

section
variable (s : State)

theorem linkView_of {s t : State} (hg : t.gate = s.gate) (hl : t.get R.GATE.LINK_STATUS_LTSSM = s.get R.GATE.LINK_STATUS_LTSSM)
    (ht : t.get R.TAKE.TAKE_STATE_STATE = s.get R.TAKE.TAKE_STATE_STATE) : t.linkView = s.linkView := by
  simp only [State.linkView, hg, hl, ht]

theorem linkView_of_forget {s t : State} (h : forget 0xFFFFFFFFFFFFEFDF t = forget 0xFFFFFFFFFFFFEFDF s) : t.linkView = s.linkView :=
  linkView_of (keeps_gate h rfl) (State.get_of_regs (keeps_regs h rfl) _) (State.get_of_regs (keeps_regs h rfl) _)

theorem State.linkView_put (x : Fld) (v : Nat) (h : offLink x = true) : (s.put x v).linkView = s.linkView := by
  have hl : R.GATE.LINK_STATUS_LTSSM ≠ x := by rintro rfl; cases h
  have ht : R.TAKE.TAKE_STATE_STATE ≠ x := by rintro rfl; cases h
  exact linkView_of rfl (State.get_put_other _ _ hl) (State.get_put_other _ _ ht)

theorem State.linkView_putBit (x : Fld) (b : Bool) (h : offLink x = true) : (s.putBit x b).linkView = s.linkView := s.linkView_put x _ h

theorem State.linkView_bump (x : Fld) (n : Nat) (h : offLink x = true) : (s.bump x n).linkView = s.linkView := s.linkView_put x _ h

theorem State.linkView_puts (l : List (Fld × Nat)) (h : l.all (fun p => offLink p.1) = true) : (s.puts l).linkView = s.linkView := by
  induction l generalizing s with
  | nil => rfl
  | cons p l ih =>
    obtain ⟨hp, hl⟩ := Bool.and_eq_true_iff.mp h
    exact (ih _ hl).trans (s.linkView_put _ _ hp)

theorem State.linkView_put_page (x : Fld) (v : Nat) (h : (x.page == 0x10 || x.page == 0x11) = false) : (s.put x v).linkView = s.linkView := by
  have hl : R.GATE.LINK_STATUS_LTSSM ≠ x := by rintro rfl; cases h
  have ht : R.TAKE.TAKE_STATE_STATE ≠ x := by rintro rfl; cases h
  exact linkView_of rfl (State.get_put_other _ _ hl) (State.get_put_other _ _ ht)

theorem State.linkView_pulse (page bit : Nat) : (s.pulse page bit).linkView = s.linkView :=
  linkView_of (keeps_gate (State.forget_pulse (T := 0x480000020) rfl ..) rfl) (State.pulse_get_beyond _ _ _ rfl) (State.pulse_get_beyond _ _ _ rfl)

theorem State.linkView_record (page code info func ext last : Nat) : (s.record page code info func ext last).linkView = s.linkView :=
  linkView_of (keeps_gate (State.forget_record (T := 0x480000420) rfl ..) rfl) (State.record_get_beyond _ _ _ _ _ _ _ rfl)
    (State.record_get_beyond _ _ _ _ _ _ _ rfl)

theorem State.linkView_level (page bit : Nat) (b : Bool) : (s.level page bit b).linkView = s.linkView := by
  have hput (v : Nat) : (s.put (H.RAW page) v).linkView = s.linkView := s.linkView_put _ _ rfl
  unfold State.level
  dsimp only
  split
  · rw [State.linkView_pulse, hput]
  · exact hput _

/-- Credits are advertised afresh; the rest of the link is as it was. -/
theorem State.linkView_advance : s.advance.linkView = s.linkView := by
  rw [State.advance, State.linkView_level]
  rfl

theorem State.linkView_hold (x : Fld) (b : Bool) (h : offLink x = true) : (s.hold x b).linkView = s.linkView := by
  rw [State.hold, State.linkView_advance, s.linkView_putBit x b h]

theorem linkView_ite (c : Prop) [Decidable c] (a b : State) : State.linkView (if c then a else b) = if c then a.linkView else b.linkView := apply_ite ..

theorem linkView_foldl {β : Type} (f : State → β → State) (h : ∀ s x, (f s x).linkView = s.linkView) (s : State) (l : List β) :
    (l.foldl f s).linkView = s.linkView := by
  induction l generalizing s with
  | nil => rfl
  | cons x l ih => rw [List.foldl_cons, ih, h]

theorem State.linkView_setTrust (s : State) (f : TrustSt → TrustSt) : State.linkView (State.setTrust s f) = State.linkView s := linkView_of_forget (State.forget_setTrust rfl ..)

theorem State.linkView_audit (s : State) (o : Origin) (role : ℕ) (action : ℕ) (result : ℕ) (param : Bytes) : State.linkView (State.audit s o role action result param) = State.linkView s := linkView_of_forget (State.forget_audit rfl ..)

/-- A perturbation's end leaves the link's state and its counters. -/
theorem State.linkView_endPerturb (s : State) (cause : PerturbEnd) : (s.endPerturb cause).linkView = s.linkView := by
  have hpoints (t : State) : (perturbPages.foldl (fun u p => if u.get (H.POINT p) = 0 then u else u.put (H.POINT p) 0) t).linkView = t.linkView :=
    linkView_foldl _ (fun u p => by rw [linkView_ite, u.linkView_put (H.POINT p) 0 rfl, ite_self]) ..
  unfold State.endPerturb
  split
  · rfl
  · rw [State.linkView_pulse, State.linkView_setTrust, State.linkView_hold _ _ _ rfl, State.linkView_put _ _ _ rfl, hpoints, State.linkView_audit]

theorem State.linkView_freeComparator (s : State) (r : ℕ) : State.linkView (State.freeComparator s r) = State.linkView s := by
  show State.linkView (((State.put _ _ _).put _ _).put _ _ |>.put _ _) = _
  rw [State.linkView_put_page _ _ _ rfl, State.linkView_put_page _ _ _ rfl, State.linkView_put_page _ _ _ rfl, State.linkView_put_page _ _ _ rfl]

theorem State.linkView_showHolders (s : State) : State.linkView (State.showHolders s) = State.linkView s := State.linkView_puts _ _ rfl

theorem State.linkView_endRole (s : State) (x : Session) (cause : RoleEnd) : State.linkView (State.endRole s x cause) = State.linkView s := by simp only [State.endRole, State.linkView_endPerturb, State.linkView_pulse, State.linkView_freeComparator, State.linkView_setTrust, State.linkView_audit, State.linkView_showHolders, linkView_ite, ite_self, linkView_foldl, implies_true]

theorem State.linkView_endRolesOf (s : State) (o : Origin) (cause : RoleEnd) : State.linkView (State.endRolesOf s o cause) = State.linkView s :=
  linkView_foldl _ (fun t x => t.linkView_endRole x cause) ..

/-! ### What the view tells -/

theorem ltssm_of_linkView {t : State} (h : t.linkView = s.linkView) : t.get R.GATE.LINK_STATUS_LTSSM = s.get R.GATE.LINK_STATUS_LTSSM :=
  congrArg Prod.fst h

theorem gateActive_of_linkView {t : State} (h : t.linkView = s.linkView) : t.gateActive = s.gateActive := by
  rw [State.gateActive, ltssm_of_linkView s h, State.gateActive]

theorem gateRetrain_of_linkView {t : State} (h : t.linkView = s.linkView) : t.gateRetrain = s.gateRetrain := by
  rw [State.gateRetrain, ltssm_of_linkView s h, State.gateRetrain]

theorem takeLive_of_linkView {t : State} (h : t.linkView = s.linkView) : t.takeLive = s.takeLive := by
  have ht : t.get R.TAKE.TAKE_STATE_STATE = s.get R.TAKE.TAKE_STATE_STATE := congrArg (fun v => v.2.1) h
  rw [State.takeLive, ht, State.takeLive]

/-- A field of the Gate's counters other than the credits. -/
theorem gate_of_linkView {α : Type} {t : State} (h : t.linkView = s.linkView) (f : GateSt → α) (hf : ∀ g, f { g with advData := 0, advCtrl := 0 } = f g) :
    f t.gate = f s.gate := by
  rw [← hf t.gate, ← hf s.gate]
  exact congrArg (fun v => f v.2.2) h

/-! ### The link down -/

/-- The Gate's counters of a link that is down. -/
def GateSt.cut (g : GateSt) : GateSt :=
  { g with txq := g.heldBack ++ g.txq.filter (pktType · != 0x31), rxBuf := g.rxBuf.filter fun p => pktType p != 0x30 && pktType p != 0x3F,
           replay := [], sent := none, fec := [], replays := 0, nakked := false, ackOut := 0, hbTimes := [], mayTrain := true, limCtrl := none,
           failedAt := none }

/-- The state right after the link goes down, its credits and roles still to follow. -/
def State.linkCut (s : State) : State :=
  (s.puts [(R.GATE.LINK_STATUS_LTSSM, 0), (R.GATE.LINK_STATUS_ACTIVE, 0), (R.GATE.LINK_STATUS_WIDTH, 0)]).setGate GateSt.cut

theorem State.linkView_linkReset : s.linkReset.linkView = s.linkCut.linkView := by
  unfold State.linkReset
  dsimp only
  rw [State.linkView_pulse, State.linkView_endRolesOf, linkView_ite, State.linkView_audit, ite_self, State.linkView_hold _ _ _ rfl]
  rfl

theorem State.linkCut_get {x : Fld} (h : (x.off, x.page) ≠ (0x040, 0x10)) : s.linkCut.get x = s.get x := by
  have hne (y : Fld) (hy : (y.off, y.page) = (0x040, 0x10)) : x ≠ y := fun e => h (e ▸ hy)
  exact (State.get_put_other _ _ (hne _ rfl)).trans ((State.get_put_other _ _ (hne _ rfl)).trans (State.get_put_other _ _ (hne _ rfl)))

/-- A link that goes down is not ACTIVE, may train, and has nothing to replay (R56, R58). -/
theorem State.linkReset_spec : s.linkReset.gateActive = false ∧ s.linkReset.gate.replay = [] ∧ s.linkReset.gate.mayTrain = true
    ∧ s.linkReset.takeLive = s.takeLive := by
  have hltssm : s.linkCut.get R.GATE.LINK_STATUS_LTSSM = 0 :=
    (State.get_put_of_place _ _ rfl).trans ((State.get_put_of_place _ _ rfl).trans (State.get_put_same _ _ _))
  have htake : s.linkCut.takeLive = s.takeLive := by
    rw [State.takeLive, s.linkCut_get (by decide), State.takeLive]
  refine ⟨?_, gate_of_linkView _ s.linkView_linkReset GateSt.replay fun _ => rfl, gate_of_linkView _ s.linkView_linkReset GateSt.mayTrain fun _ => rfl,
    (takeLive_of_linkView _ s.linkView_linkReset).trans htake⟩
  rw [gateActive_of_linkView _ s.linkView_linkReset, State.gateActive, hltssm]
  rfl

end

/-! ### Training -/

section
variable {s : State}

theorem chooseGroup_width {ok maxw : Nat} {g : Nat × Nat} (h : chooseGroup ok maxw = some g) : g.1 < 4 := by
  have hmem := List.mem_of_find?_eq_some h
  simp only [List.mem_cons, List.not_mem_nil, or_false] at hmem
  rcases hmem with rfl | rfl | rfl | rfl | rfl | rfl | rfl <;> decide

theorem State.setActive_active (s : State) (g : Nat × Nat) : (s.setActive g).get R.GATE.LINK_STATUS_LTSSM = 4 := State.get_put_same _ _ _

theorem State.setActive_width (s : State) {g : Nat × Nat} (hg : g.1 < 4) : (s.setActive g).get R.GATE.LINK_STATUS_WIDTH = g.1 :=
  (State.get_put_of_place _ _ rfl).trans ((State.get_put_of_place _ _ rfl).trans ((State.get_put_same _ _ _).trans (Nat.mod_eq_of_lt hg)))

theorem State.level_get_beyond (s : State) (page bit : Nat) (b : Bool) {x : Fld} (h : 0x040 ≤ x.off) : (s.level page bit b).get x = s.get x :=
  s.level_get_other page bit b (Fld.ne_of_off_lt (Nat.lt_of_lt_of_le (by decide : 0x010 < 0x040) h))
    (Fld.ne_of_off_lt (Nat.lt_of_lt_of_le (by decide : 0x018 < 0x040) h)) (Fld.ne_of_off_lt (Nat.lt_of_lt_of_le (by decide : 0x01C < 0x040) h))

theorem State.advance_get_beyond (s : State) {x : Fld} (h : 0x040 ≤ x.off) : s.advance.get x = s.get x :=
  (State.level_get_beyond _ _ _ _ h).trans rfl

/-- Advertising credits with an empty receive buffer, and limits no lower than those of the buffer before. -/
theorem State.advance_gate (s : State) : s.advance.gate.advCtrl = s.gate.rxCtrl + (64 - s.gate.ctrlWaiting)
    ∧ (s.advance.gate.advData = s.gate.advData ∨ s.advance.gate.advData = max s.gate.advData (s.gate.rxData + (8192 - s.gate.dataWaiting))) := by
  have hg (t : State) (b : Bool) : (t.level 0x10 Ev.GATE.CREDITS_HELD b).gate = t.gate := keeps_gate (State.forget_level (T := 0x480000020) rfl ..) rfl
  unfold State.advance
  dsimp only
  rw [hg]
  refine ⟨rfl, ?_⟩
  show ite _ _ _ = _ ∨ ite _ _ _ = _
  split
  · exact .inl rfl
  · exact .inr rfl

/-- The state of a link that has just trained, before its credits are advertised. -/
def State.linkTrained (s : State) (good : Nat) (rev : Bool) (inv : Nat) (g : Nat × Nat) : State :=
  ((s.freshLink.setActive g).puts [(R.GATE.LINK_STATUS_REVERSED, b2n rev), (R.GATE.LANE_POLARITY_INVERTED, inv),
    (R.GATE.LINK_STATUS_LANE_FAILED, 65535 - good)]).endGrace.pulse 0x10 Ev.GATE.LINK_UP

theorem State.endGrace_gate (s : State) : ∃ x, s.endGrace.gate = { s.gate with graceFrom := x } := by
  unfold State.endGrace
  split
  · split
    · exact ⟨none, rfl⟩
    · exact ⟨_, rfl⟩
  · exact ⟨_, rfl⟩

theorem State.endGrace_get (s : State) (x : Fld) : s.endGrace.get x = s.get x :=
  State.get_of_regs (keeps_regs (State.forget_endGrace (T := 0x1000) rfl s) rfl) x

theorem State.linkTrained_get (s : State) (good : Nat) (rev : Bool) (inv : Nat) (g : Nat × Nat) {x : Fld} (h : 0x040 ≤ x.off) :
    (s.linkTrained good rev inv g).get x = ((s.freshLink.setActive g).puts [(R.GATE.LINK_STATUS_REVERSED, b2n rev),
      (R.GATE.LANE_POLARITY_INVERTED, inv), (R.GATE.LINK_STATUS_LANE_FAILED, 65535 - good)]).get x :=
  (State.pulse_get_beyond_header _ _ _ h).trans (State.endGrace_get _ x)

theorem State.linkTrained_gate (s : State) (good : Nat) (rev : Bool) (inv : Nat) (g : Nat × Nat) :
    ∃ x, (s.linkTrained good rev inv g).gate = { s.freshLink.gate with group := g.2, graceFrom := x } := by
  obtain ⟨x, hx⟩ := State.endGrace_gate ((s.freshLink.setActive g).puts [(R.GATE.LINK_STATUS_REVERSED, b2n rev),
    (R.GATE.LANE_POLARITY_INVERTED, inv), (R.GATE.LINK_STATUS_LANE_FAILED, 65535 - good)])
  exact ⟨x, (keeps_gate (State.forget_pulse (T := 0x480000020) rfl ..) rfl).trans hx⟩

theorem gateLinkUp_trains {good inv : BitVec 16} {rev : Bool} {g : Nat × Nat} (hd : s.mayDetect = true) (hf : s.gate.failedAt = none)
    (hg : chooseGroup good.toNat (s.get R.GATE.LINK_CTRL_MAX_WIDTH) = some g) :
    ∃ t : State, exec (.gateLinkUp good rev inv) s = .next (if g.1 < 3 then t.recompute else t) ∧ t.gateActive = true ∧ t.get R.GATE.LINK_STATUS_WIDTH = g.1
      ∧ t.get R.GATE.LANE_POLARITY_INVERTED = inv.toNat ∧ t.gate.group = g.2 ∧ t.gate.advData = 8192 ∧ t.gate.advCtrl = 64
      ∧ t.gate.replay = [] := by
  have hexec : execGateLinkUp good rev inv s = .next (if g.1 < 3 then (s.linkTrained good.toNat rev inv.toNat g).advance.recompute
      else (s.linkTrained good.toNat rev inv.toNat g).advance) := by
    simp only [execGateLinkUp, hg, hd, hf, Bool.not_true, Option.isSome_none, Bool.or_self, Bool.false_eq_true, if_false]
    rfl
  obtain ⟨x, hgate⟩ := s.linkTrained_gate good.toNat rev inv.toNat g
  have hview := (s.linkTrained good.toNat rev inv.toNat g).linkView_advance
  obtain ⟨hctrl, hdata⟩ := (s.linkTrained good.toNat rev inv.toNat g).advance_gate
  refine ⟨_, hexec, ?_, ?_, ?_, ?_, ?_, ?_, ?_⟩
  · rw [gateActive_of_linkView _ hview, State.gateActive, State.linkTrained_get _ _ _ _ _ (by decide)]
    show (State.get (State.put (State.put (State.put _ _ _) _ _) _ _) _ == 4) = true
    rw [State.get_put_of_place _ _ rfl, State.get_put_of_place _ _ rfl, State.get_put_of_place _ _ rfl, State.setActive_active]
    rfl
  · rw [State.advance_get_beyond _ (by decide), State.linkTrained_get _ _ _ _ _ (by decide)]
    show State.get (State.put (State.put (State.put _ _ _) _ _) _ _) _ = _
    rw [State.get_put_of_place _ _ rfl, State.get_put_of_place _ _ rfl, State.get_put_of_place _ _ rfl,
      State.setActive_width _ (chooseGroup_width hg)]
  · rw [State.advance_get_beyond _ (by decide), State.linkTrained_get _ _ _ _ _ (by decide)]
    show State.get (State.put (State.put _ _ _) _ _) _ = _
    rw [State.get_put_of_place _ _ rfl, State.get_put_same]
    exact Nat.mod_eq_of_lt inv.isLt
  · rw [gate_of_linkView _ hview GateSt.group fun _ => rfl, hgate]
  · rw [hgate] at hdata
    rcases hdata with h | h
    · exact h
    · rw [h]
      show max 8192 (0 + (8192 - 0)) = 8192
      rfl
  · rw [hctrl, hgate]
    rfl
  · rw [gate_of_linkView _ hview GateSt.replay fun _ => rfl, hgate]
    rfl

/-- The state of a link whose training failed, its error not yet recorded. -/
def State.trainFailed (s : State) : State := (s.put R.GATE.LINK_STATUS_LTSSM 3).setGate fun g => { g with failedAt := some s.time }

theorem gateTrainFail_waits {good : BitVec 16} (hd : s.mayDetect = true) (hf : s.gate.failedAt = none)
    (hg : chooseGroup good.toNat (s.get R.GATE.LINK_CTRL_MAX_WIDTH) = none) :
    ∃ t : State, exec (.gateTrainFail good) s = .next t ∧ t.gate.failedAt = some s.time
      ∧ (s.get (H.VALID 0x10) = 0 → t.get (H.CODE 0x10) = 0x101C) := by
  have hexec : execGateTrainFail good s = .next (s.trainFailed.record 0x10 E.GATE_TRAIN_FAIL 0 0x1F1) := by
    simp only [execGateTrainFail, hg, hd, hf, Bool.not_true, Option.isSome_none, Bool.or_self, Bool.false_eq_true, if_false, State.trainFailed]
  have hgate : (s.trainFailed.record 0x10 E.GATE_TRAIN_FAIL 0 0x1F1).gate = s.trainFailed.gate :=
    keeps_gate (State.forget_record (T := 0x480000420) rfl ..) rfl
  have hvalid : s.trainFailed.get (H.VALID 0x10) = s.get (H.VALID 0x10) := State.get_put_of_place s 3 rfl
  exact ⟨_, hexec, congrArg GateSt.failedAt hgate, fun hv => State.record_get_CODE (hvalid.trans hv) ..⟩

theorem gateTrainRetry_detects {at_ : Nat} (hf : s.gate.failedAt = some at_) :
    ∃ t : State, exec .gateTrainRetry s = .next t ∧ t.gate.failedAt = none ∧ t.time = max s.time (at_ + 100000000) := by
  refine ⟨({ s with time := max s.time (at_ + 100000000) }.put R.GATE.LINK_STATUS_LTSSM 0).setGate fun g => { g with failedAt := none }, ?_, rfl, rfl⟩
  show execGateTrainRetry s = _
  rw [execGateTrainRetry, hf]

end

/-! ### Lanes lost and retrains -/

section
variable {s : State}

theorem State.linkView_failLane (s : State) (l : Nat) : (s.failLane l).linkView = s.linkView := by
  unfold State.failLane
  dsimp only
  rw [State.linkView_record, State.linkView_pulse, State.linkView_put _ _ _ rfl]

/-- A failed lane shows in LANE_FAILED. -/
theorem State.failLane_shows (s : State) (l : Fin 16) : bitAt ((s.failLane l.val).get R.GATE.LINK_STATUS_LANE_FAILED) l.val = true := by
  unfold State.failLane
  dsimp only
  rw [State.record_get_beyond _ _ _ _ _ _ _ rfl, State.pulse_get_beyond _ _ _ rfl, State.get_put_same]
  have hl := l.isLt
  have hbit := testBit_setBit (s.get R.GATE.LINK_STATUS_LANE_FAILED) l.val true l.val
  rw [if_pos rfl] at hbit
  rw [bitAt_eq_testBit]
  show (setBit (s.get R.GATE.LINK_STATUS_LANE_FAILED) l.val true % 2 ^ 16).testBit l.val = true
  rw [Nat.testBit_mod_two_pow, hbit, decide_eq_true hl]
  rfl

/-- A retrain has begun: the link waits for the camera, and credits are held (R56, R69). -/
theorem State.beginRetrain_spec (s : State) : s.beginRetrain.gateRetrain = true ∧ s.beginRetrain.bit R.GATE.CREDIT_STATE_HELD_RETRAIN = true
    ∧ s.beginRetrain.gate.group = s.gate.group ∧ s.beginRetrain.gate.rxSeq = s.gate.rxSeq
    ∧ ∀ x : Fld, 0x040 ≤ x.off → x ≠ R.GATE.LINK_STATUS_LTSSM → x ≠ R.GATE.LINK_STATUS_ACTIVE → x ≠ R.GATE.CREDIT_STATE_HELD_RETRAIN →
      s.beginRetrain.get x = s.get x := by
  have hview := ((s.idleFlit 1).puts [(R.GATE.LINK_STATUS_LTSSM, 5), (R.GATE.LINK_STATUS_ACTIVE, 0)]).linkView_hold
    R.GATE.CREDIT_STATE_HELD_RETRAIN true rfl
  have hltssm : ((s.idleFlit 1).puts [(R.GATE.LINK_STATUS_LTSSM, 5), (R.GATE.LINK_STATUS_ACTIVE, 0)]).get R.GATE.LINK_STATUS_LTSSM = 5 :=
    (State.get_put_of_place _ _ rfl).trans (State.get_put_same _ _ _)
  refine ⟨?_, ?_, gate_of_linkView _ hview GateSt.group fun _ => rfl, gate_of_linkView _ hview GateSt.rxSeq fun _ => rfl, fun x hx h1 h2 h3 => ?_⟩
  · rw [State.beginRetrain, gateRetrain_of_linkView _ hview, State.gateRetrain, hltssm]
    rfl
  · rw [State.beginRetrain, State.hold, State.bit, State.advance_get_beyond _ (by decide)]
    exact congrArg (· != 0) (State.get_put_same _ _ _)
  · rw [State.beginRetrain, State.hold, State.advance_get_beyond _ hx]
    show State.get (State.put (State.put (State.put _ _ _) _ _) _ _) _ = _
    rw [State.get_put_other _ _ h3, State.get_put_other _ _ h2, State.get_put_other _ _ h1]
    rfl

/-- The state of a link that lost a lane, before the rates are recomputed. -/
def State.laneLost (s : State) (l : Nat) (g : Nat × Nat) : State :=
  (((s.failLane l).put R.GATE.LINK_STATUS_WIDTH g.1).setGate fun x => { x with group := g.2 }).beginRetrain

theorem gateLaneLost_retrains {lane : Fin 16} {g : Nat × Nat} (ha : s.gateActive = true) (hc : s.carries lane.val = true)
    (hg : (s.failLane lane.val).groupLeft = some g) :
    ∃ t : State, exec (.gateLaneLost lane) s = .next t.recompute ∧ t.gateRetrain = true ∧ t.get R.GATE.LINK_STATUS_WIDTH = g.1
      ∧ t.gate.group = g.2 ∧ bitAt (t.get R.GATE.LINK_STATUS_LANE_FAILED) lane.val = true
      ∧ t.bit R.GATE.CREDIT_STATE_HELD_RETRAIN = true := by
  have hexec : execGateLaneLost lane s = .next (s.laneLost lane.val g).recompute := by
    simp only [execGateLaneLost, ha, hc, Bool.not_true, Bool.or_self, Bool.false_eq_true, if_false, State.loseLane, hg, State.laneLost]
  obtain ⟨hretrain, hheld, hgroup, -, hget⟩ :=
    (((s.failLane lane.val).put R.GATE.LINK_STATUS_WIDTH g.1).setGate fun x => { x with group := g.2 }).beginRetrain_spec
  refine ⟨_, hexec, hretrain, ?_, hgroup, ?_, hheld⟩
  · refine (hget _ (by decide) (by decide) (by decide) (by decide)).trans ((State.get_put_same _ _ _).trans ?_)
    exact Nat.mod_eq_of_lt (chooseGroup_width hg)
  · rw [State.laneLost, hget _ (by decide) (by decide) (by decide) (by decide)]
    exact (congrArg (bitAt · lane.val) (State.get_put_of_place _ _ rfl)).trans (s.failLane_shows lane)

/-- The state of a link whose retrain has ended, everything in the replay buffer sent again. -/
def State.retrained (s : State) : State :=
  (((s.setActive (s.get R.GATE.LINK_STATUS_WIDTH, s.gate.group)).hold R.GATE.CREDIT_STATE_HELD_RETRAIN false).setGate fun x =>
    { x with hbDue := ((s.setActive (s.get R.GATE.LINK_STATUS_WIDTH, s.gate.group)).hold R.GATE.CREDIT_STATE_HELD_RETRAIN false).time,
             replays := 0 }).resend

/-- Sending the replay buffer again empties none of it. -/
theorem State.resend_replay (t : State) (due : Nat) : (t.setGate fun x => { x with hbDue := due, replays := 0 }).resend.gate.replay = t.gate.replay := rfl

theorem State.setActive_replay (s : State) (g : Nat × Nat) : (s.setActive g).gate.replay = s.gate.replay := rfl

theorem gateRetrainDone_resumes {g : Nat × Nat} (hr : s.gateRetrain = true) (hg : s.groupLeft = some g) :
    ∃ t : State, exec (.gateRetrainDone 0) s = .next t ∧ t.gateActive = true ∧ t.get R.GATE.LINK_STATUS_WIDTH = s.get R.GATE.LINK_STATUS_WIDTH % 4
      ∧ t.bit R.GATE.CREDIT_STATE_HELD_RETRAIN = false ∧ t.gate.replay = s.gate.replay := by
  have hnone : ((List.range 16).filter fun l => (0 : BitVec 16).getLsbD l && s.carries l) = [] :=
    List.filter_eq_nil_iff.mpr fun l _ => by simp
  have hexec : execGateRetrainDone 0 s = .next s.retrained := by
    simp only [execGateRetrainDone, hr, Bool.not_true, Bool.false_eq_true, if_false, hnone, List.foldl_nil, hg, List.isEmpty_nil, if_true, State.retrained]
  have hview := (s.setActive (s.get R.GATE.LINK_STATUS_WIDTH, s.gate.group)).linkView_hold R.GATE.CREDIT_STATE_HELD_RETRAIN false rfl
  have hget (x : Fld) (hx : x ≠ R.GATE.FLITS_REPLAYED_COUNT) : s.retrained.get x
      = ((s.setActive (s.get R.GATE.LINK_STATUS_WIDTH, s.gate.group)).hold R.GATE.CREDIT_STATE_HELD_RETRAIN false).get x :=
    State.get_put_other _ _ hx
  refine ⟨_, hexec, ?_, ?_, ?_, ?_⟩
  · rw [State.gateActive, hget _ (by decide), ltssm_of_linkView _ hview, State.setActive_active]
    rfl
  · rw [hget _ (by decide), State.hold, State.advance_get_beyond _ (by decide), State.putBit, State.get_put_of_place _ _ rfl]
    show State.get (State.put (State.put (State.put _ _ _) _ _) _ _) _ = _
    rw [State.get_put_of_place _ _ rfl, State.get_put_of_place _ _ rfl, State.get_put_same]
    rfl
  · rw [State.bit, hget _ (by decide), State.hold, State.advance_get_beyond _ (by decide), State.putBit, State.get_put_same]
    rfl
  · rw [State.retrained, State.resend_replay, gate_of_linkView _ hview GateSt.replay fun _ => rfl, State.setActive_replay]

theorem gateLinkDown_resets (ha : s.gateActive = true ∨ s.gateRetrain = true) (ht : s.takeLive = false) :
    ∃ t : State, exec .gateLinkDown s = .next t ∧ t.gateActive = false ∧ t.gate.replay = [] ∧ t.gate.mayTrain = true := by
  have hup : (s.gateActive || s.gateRetrain) = true := by
    rw [Bool.or_eq_true]
    exact ha
  obtain ⟨hact, hrep, htrain, hlive⟩ := (s.record 0x10 E.GATE_LINK_DOWN 0 0x1F1).linkReset_spec
  rw [takeLive_of_linkView _ (s.linkView_record ..), ht] at hlive
  have hexec : execGateLinkDown s = .next (s.record 0x10 E.GATE_LINK_DOWN 0 0x1F1).linkReset := by
    simp only [execGateLinkDown, hup, if_true, State.linkFail, State.linkDown, hlive, Bool.false_eq_true, if_false]
  exact ⟨_, hexec, hact, hrep, htrain⟩

/-- The state at the end of a grace. -/
def State.graceOver (s : State) (at_ : Nat) : State :=
  { s with time := max s.time (at_ + s.get R.GATE.LINK_GRACE_MS_GRACE * 1000000) }.setGate fun g => { g with graceFrom := none }

theorem takeLinkLost_closes {at_ : Nat} (hg : s.gate.graceFrom = some at_) (ht : s.takeLive = true) :
    ∃ t : State, exec .takeLinkLost s = .next (t.closeTake 3 6).settle ∧ t.gate.graceFrom = none
      ∧ t.time = max s.time (at_ + s.get R.GATE.LINK_GRACE_MS_GRACE * 1000000) := by
  have hexec : execTakeLinkLost s = .next ((((s.graceOver at_).takeErr E.TAKE_LINK_LOST).closeTake 3 6).settle) := by
    unfold execTakeLinkLost
    rw [hg]
    exact if_pos ht
  exact ⟨_, hexec, congrArg GateSt.graceFrom (keeps_gate (State.forget_takeErr (T := 0x480000420) rfl ..) rfl :),
    (keeps_time (State.forget_takeErr (T := 0x480000420) rfl ..) rfl :)⟩

end

/-! ### Flits -/

section
variable {s : State} {f : Flit}

theorem State.resend_gate (s : State) : s.resend.gate = { s.gate with ackFrom := s.time } := rfl

/-- Replays leave what was received in order. -/
theorem State.replayAll_rxSeq (s : State) : s.replayAll.gate.rxSeq = s.gate.rxSeq := by
  unfold State.replayAll
  dsimp only
  split
  · rfl
  · split
    · rfl
    · obtain ⟨-, -, -, hseq, -⟩ := (((s.resend.setGate fun g => { g with replays := g.replays + 1 }).pulse 0x10 Ev.GATE.REPLAY_LIMIT).record 0x10
        E.GATE_REPLAY_LIMIT 0 0x1F1).beginRetrain_spec
      rw [hseq]
      have hrec := keeps_gate (State.forget_record (T := 0x480000420) rfl ((s.resend.setGate fun g =>
        { g with replays := g.replays + 1 }).pulse 0x10 Ev.GATE.REPLAY_LIMIT) 0x10 E.GATE_REPLAY_LIMIT 0 0x1F1 0 0) rfl
      have hpulse := keeps_gate (State.forget_pulse (T := 0x480000020) rfl (s.resend.setGate fun g => { g with replays := g.replays + 1 }) 0x10
        Ev.GATE.REPLAY_LIMIT) rfl
      rw [hrec, hpulse]
      rfl

theorem State.applyAck_rxSeq (s : State) (ackt ackseq : Nat) : (s.applyAck ackt ackseq).gate.rxSeq = s.gate.rxSeq := by
  unfold State.applyAck
  split
  · rfl
  · dsimp only
    split
    · exact State.replayAll_rxSeq _
    · rfl

theorem gateFlitRx_good (ha : s.gateActive = true) (hcrc : f.crcOk = true) (htype : bits f.link.toNat 10 2 = 0) (hackt : bits f.link.toNat 22 2 ≠ 3)
    (hl : bits f.link.toNat 48 2 = 0) (hseq : bits f.link.toNat 0 10 = (s.gate.rxSeq + 1) % 1024) :
    ∃ t : State, exec (.gateFlitRx f) s = .next (State.parseArea 60 t f.area).advance.judgeLanes ∧ t.gate.rxSeq = bits f.link.toNat 0 10
      ∧ t.gate.ackOut = 1 ∧ t.gate.nakked = false := by
  have hackt' : (bits f.link.toNat 22 2 == 3) = false := beq_false_of_ne hackt
  obtain ⟨u, hu⟩ : ∃ u, u = ((((s.bump R.GATE.FEC_CORRECTED_COUNT f.fecCorrected.length).noteFec f.fecCorrected).applyAck (bits f.link.toNat 22 2)
    (bits f.link.toNat 12 10)).applyLimits (bits f.link.toNat 24 16) (bits f.link.toNat 40 8)) := ⟨_, rfl⟩
  have hrx : u.gate.rxSeq = s.gate.rxSeq := by
    rw [hu]
    exact State.applyAck_rxSeq ..
  refine ⟨(u.setGate fun g => { g with rxSeq := bits f.link.toNat 0 10, nakked := false, ackOut := 1 }).bump R.GATE.FLITS_RX_COUNT, ?_, rfl, rfl, rfl⟩
  show execGateFlitRx f s = _
  have hlow : decide (2 ≤ 0) = false := rfl
  simp only [execGateFlitRx, ha, hcrc, htype, hackt', hl, ← hu, hrx, hseq, hlow, Bool.not_true, Bool.false_eq_true, if_false, if_true, Bool.or_self,
    zero_ne_one, false_and]

theorem gateFlitRx_bad (ha : s.gateActive = true) (hcrc : f.crcOk = false) (hn : (s.noteFec f.fecCorrected).noisyLane = none) :
    ∃ t : State, exec (.gateFlitRx f) s = .next t ∧ t.gate.rxSeq = s.gate.rxSeq ∧ t.gate.rxBuf = s.gate.rxBuf ∧ t.gate.ackOut = 2
      ∧ t.gate.nakked = true := by
  obtain ⟨u, hu⟩ : ∃ u, u = (((s.bump R.GATE.FEC_CORRECTED_COUNT f.fecCorrected.length).noteFec f.fecCorrected).bump R.GATE.CRC_FAIL_COUNT).nak :=
    ⟨_, rfl⟩
  have hget (x : Fld) (h1 : x ≠ R.GATE.FEC_CORRECTED_COUNT) (h2 : x ≠ R.GATE.CRC_FAIL_COUNT) : u.get x = (s.noteFec f.fecCorrected).get x := by
    rw [hu]
    exact (State.get_bump_other _ _ h2).trans (State.get_bump_other _ _ h1)
  have hgroup : u.gate.group = (s.noteFec f.fecCorrected).gate.group := by rw [hu]; rfl
  have hfec : u.gate.fec = (s.noteFec f.fecCorrected).gate.fec := by rw [hu]; rfl
  have hquiet : u.noisyLane = none := by
    rw [← hn, State.noisyLane, State.noisyLane]
    simp only [State.carries, hgroup, hfec, hget R.GATE.LINK_STATUS_WIDTH (by decide) (by decide),
      hget R.GATE.LANE_FAIL_THRESH_THRESH (by decide) (by decide)]
  have hexec : execGateFlitRx f s = .next u := by
    simp only [execGateFlitRx, ha, hcrc, Bool.not_true, Bool.false_eq_true, if_false, Bool.not_false, Bool.true_or, if_true, ← hu, State.judgeLanes, hquiet]
  exact ⟨u, hexec, by rw [hu]; rfl, by rw [hu]; rfl, by rw [hu]; rfl, by rw [hu]; rfl⟩

theorem gateReplayTimeout_replays (ha : s.gateActive = true) (hr : s.gate.replay ≠ []) (hlim : s.gate.replays < 3) :
    ∃ t : State, exec .gateReplayTimeout s = .next t ∧ t.gate.replays = s.gate.replays + 1 ∧ t.gate.replay = s.gate.replay
      ∧ t.time = max s.time (s.gate.ackFrom + 2000) := by
  have hne : s.gate.replay.isEmpty = false := List.isEmpty_eq_false_iff.mpr hr
  have hlt : s.gate.replays + 1 < 4 := by omega
  refine ⟨{ s with time := max s.time (s.gate.ackFrom + 2000) }.resend.setGate fun g => { g with replays := g.replays + 1 }, ?_, rfl, rfl, rfl⟩
  show execGateReplayTimeout s = _
  rw [execGateReplayTimeout, ha, hne, if_neg (by decide), State.replayAll, if_neg (by rw [hne]; decide)]
  exact congrArg Host.Outcome.next (if_pos hlt)

end

/-! ### Packets and heartbeats sent -/

section
variable {s : State}

/-- The fields of a link area (R60). -/
theorem linkArea_bits {seq ftype ackseq ackt clData clCtrl lstate : Nat} (hf : ftype < 4) :
    bits (linkArea seq ftype ackseq ackt clData clCtrl lstate) 0 10 = seq % 1024
      ∧ bits (linkArea seq ftype ackseq ackt clData clCtrl lstate) 10 2 = ftype
      ∧ bits (linkArea seq ftype ackseq ackt clData clCtrl lstate) 12 10 = ackseq % 1024
      ∧ bits (linkArea seq ftype ackseq ackt clData clCtrl lstate) 22 2 = ackt % 4 := by
  unfold bits linkArea
  refine ⟨?_, ?_, ?_, ?_⟩ <;> omega

theorem pktType_pktHeader {ty stream len : Nat} (h : ty < 256) (rest : Bytes) : pktType (pktHeader ty stream len ++ rest) = ty := by
  show (BitVec.ofNat 8 ty).toNat = ty
  rw [BitVec.toNat_ofNat]
  exact Nat.mod_eq_of_lt h

theorem State.heartbeatPkt_type (s : State) : pktType s.heartbeatPkt = 0x3F := by
  simp only [State.heartbeatPkt, List.append_assoc]
  exact pktType_pktHeader (by decide) _

/-- The flit that carries `ps`. -/
def GateSt.flit (g : GateSt) (ps : List Bytes) : TxFlit := ⟨(g.txSeq + 1) % 1024, ps, g.linkArea ((g.txSeq + 1) % 1024) 0 0⟩

theorem GateSt.flit_bits (g : GateSt) (ps : List Bytes) : bits (g.flit ps).link 0 10 = (g.flit ps).seq ∧ bits (g.flit ps).link 10 2 = 0
    ∧ bits (g.flit ps).link 12 10 = g.rxSeq % 1024 ∧ bits (g.flit ps).link 22 2 = g.ackOut % 4 := by
  obtain ⟨h0, h1, h2, h3⟩ := linkArea_bits (seq := (g.txSeq + 1) % 1024) (ackseq := g.rxSeq) (ackt := g.ackOut) (clData := g.advData)
    (clCtrl := g.advCtrl) (lstate := 0) (by decide : 0 < 4)
  exact ⟨h0.trans (Nat.mod_mod ..), h1, h2, h3⟩

theorem gatePacketSend_sends {p : Bytes} {ps : List Bytes} (hq : s.gate.txq = p :: ps) (ha : s.gateActive = true) (hr : s.gate.replay.length < 512)
    (hm : s.gate.mayCtrl = true) :
    ∃ t : State, exec .gatePacketSend s = .next t ∧ t.gate.txq = ps ∧ t.gate.txCtrl = s.gate.txCtrl + 1
      ∧ ∃ f : TxFlit, t.gate.replay = s.gate.replay ++ [f] ∧ t.gate.sent = some f ∧ f.seq = (s.gate.txSeq + 1) % 1024
        ∧ f.packets.getLast? = some p ∧ (s.gate.hbDue ≤ s.time → ∃ b, f.packets = [b, p] ∧ pktType b = 0x3F)
        ∧ bits f.link 0 10 = f.seq ∧ bits f.link 10 2 = 0 ∧ bits f.link 12 10 = s.gate.rxSeq % 1024 ∧ bits f.link 22 2 = s.gate.ackOut % 4 := by
  have hr' : ¬512 ≤ s.gate.replay.length := by omega
  obtain ⟨u, hu⟩ : ∃ u, u = s.setGate fun g => { g with txq := ps, txCtrl := g.txCtrl + 1 } := ⟨_, rfl⟩
  have hexec : execGatePacketSend s
      = .next (if s.time < s.gate.hbDue then u.payload [p] else (u.payload [u.heartbeatPkt, p]).heartbeatSent) := by
    simp only [execGatePacketSend, hq, ha, hr', hm, Bool.not_true, Bool.false_eq_true, decide_false, Bool.or_self, if_false, hu]
  by_cases hd : s.time < s.gate.hbDue
  · rw [if_pos hd] at hexec
    refine ⟨_, hexec, by rw [hu]; rfl, by rw [hu]; rfl, u.gate.flit [p], by rw [hu]; rfl, rfl, by rw [hu]; rfl, rfl, fun h => absurd hd (by omega), ?_⟩
    rw [hu]
    exact GateSt.flit_bits ..
  · rw [if_neg hd] at hexec
    refine ⟨_, hexec, by rw [hu]; rfl, by rw [hu]; rfl, u.gate.flit [u.heartbeatPkt, p], by rw [hu]; rfl, rfl, by rw [hu]; rfl, rfl,
      fun _ => ⟨_, rfl, u.heartbeatPkt_type⟩, ?_⟩
    rw [hu]
    exact GateSt.flit_bits ..

theorem gateHeartbeatTx_sends (ha : s.gateActive = true) (hr : s.gate.replay.length < 512) :
    ∃ (t : State) (p : Bytes) (f : TxFlit), exec .gateHeartbeatTx s = .next t ∧ t.gate.hbSeq = (s.gate.hbSeq + 1) % 2 ^ 32 ∧ pktType p = 0x3F
      ∧ t.gate.replay = s.gate.replay ++ [f] ∧ f.seq = (s.gate.txSeq + 1) % 1024 ∧ f.packets = [p] ∧ t.gate.txCtrl = s.gate.txCtrl := by
  have hr' : ¬512 ≤ s.gate.replay.length := by omega
  obtain ⟨u, hu⟩ : ∃ u : State, u = { s with time := max s.time s.gate.hbDue } := ⟨_, rfl⟩
  have hexec : execGateHeartbeatTx s = .next (u.payload [u.heartbeatPkt]).heartbeatSent := by
    simp only [execGateHeartbeatTx, ha, hr', Bool.not_true, decide_false, Bool.or_self, Bool.false_eq_true, if_false, hu]
  exact ⟨_, u.heartbeatPkt, u.gate.flit [u.heartbeatPkt], hexec, by rw [hu]; rfl, u.heartbeatPkt_type, by rw [hu]; rfl, by rw [hu]; rfl, rfl,
    by rw [hu]; rfl⟩

theorem heartbeat_measures {p : HeartbeatPkt} {sent : Nat} (h : assoc s.gate.hbTimes p.echoSeq.toNat = some sent) :
    ∃ t : State, exec (.heartbeat p) s = .next t ∧ t.get R.GATE.RTT_NS_RTT = (s.time - sent - p.holdNs.toNat) % 2 ^ 32 := by
  have hview := State.linkView_advance (s.setGate fun g => { g with rxBuf := removeFirst (pktType · == 0x3F) g.rxBuf })
  have htimes : (s.leaveRx (pktType · == 0x3F)).gate.hbTimes = s.gate.hbTimes := gate_of_linkView _ hview GateSt.hbTimes fun _ => rfl
  have htime : (s.leaveRx (pktType · == 0x3F)).time = s.time := keeps_time (State.forget_leaveRx (T := 0x480001020) rfl ..) rfl
  refine ⟨_, ?_, State.get_put_same (s.leaveRx (pktType · == 0x3F)) _ _⟩
  show execHeartbeat p s = _
  simp only [execHeartbeat, htimes, h, htime]

end

/-- Settles O2, a clause for each of the link's commands. -/
theorem gateLinkCommandsComplete : Obligations.GateLinkCommandsComplete :=
  ⟨fun _ _ _ _ _ => gateLinkUp_trains, fun _ _ => gateTrainFail_waits, fun _ _ => gateTrainRetry_detects, fun _ _ _ => gateLaneLost_retrains,
    fun _ _ => gateRetrainDone_resumes, fun _ => gateLinkDown_resets, fun _ _ => takeLinkLost_closes, fun _ _ => gateFlitRx_good,
    fun _ _ => gateFlitRx_bad, fun _ => gateReplayTimeout_replays, fun _ _ _ => gatePacketSend_sends, fun _ => gateHeartbeatTx_sends,
    fun _ _ _ => heartbeat_measures⟩

end Sys2Proof.Machine
end

section
/-!
FULL_RETRAIN and the tunnel's requests (R56, R83-R85).
-/

namespace Sys2Proof.Machine

open Sys2Proof.Laws

section
variable {s : State} {o : Origin}

theorem State.Accessed.linkView {t : State} (h : s.Accessed t) : t.linkView = s.linkView :=
  linkView_of (keeps_gate h.1 rfl) (h.get _) (h.get _)

theorem fullRetrain_value {w : Nat} (h : w % 4 ≠ 0) : (field (1 + 2 * w) 1 2 != 0) = true ∧ bitAt (1 + 2 * w) 0 = true := by
  have hbit : (1 + 2 * w) / 2 ^ 0 % 2 = 1 := by omega
  have hfield : (1 + 2 * w) / 2 ^ 1 % 2 ^ 2 = w % 4 := by omega
  refine ⟨?_, by rw [bitAt, hbit]; rfl⟩
  rw [field, hfield]
  exact bne_iff_ne.mpr h

/-- FULL_RETRAIN reaches the link, or its refusal while a take is open. -/
theorem fullRetrain_meets (hp : s.powered = true) (hr : s.reaches o 0x10 = true) (hi : s.holds o .installer = true)
    (hw : s.get R.GATE.LINK_CTRL_MAX_WIDTH % 4 ≠ 0) :
    ∃ t : State, s.Accessed t ∧ exec (.fullRetrain o) s = .next (if s.takeLive then t.refuseBlock o 0x10 E.GATE_BUSY 0
      else (t.put R.GATE.LINK_CTRL_MAX_WIDTH (field (1 + 2 * s.get R.GATE.LINK_CTRL_MAX_WIDTH) 1 2)).linkReset) := by
  obtain ⟨hlegal, hbit⟩ := fullRetrain_value hw
  obtain ⟨t, ht, h⟩ := State.regCmd_meets (page := 0x10) (off := 0x048) (v := 1 + 2 * s.get R.GATE.LINK_CTRL_MAX_WIDTH)
    (busy := bitAt (1 + 2 * s.get R.GATE.LINK_CTRL_MAX_WIDTH) 0 && s.takeLive) (deny := fun t => t.refuseBlock o 0x10 E.GATE_BUSY 0)
    (act := fun t => let t := t.put R.GATE.LINK_CTRL_MAX_WIDTH (field (1 + 2 * s.get R.GATE.LINK_CTRL_MAX_WIDTH) 1 2)
      if bitAt (1 + 2 * s.get R.GATE.LINK_CTRL_MAX_WIDTH) 0 then t.linkReset else t) hp hr (State.meets_of_installer hi _) hlegal
  refine ⟨t, ht, congrArg Host.Outcome.next (h.trans ?_)⟩
  simp only [hbit, Bool.true_and, if_true]

theorem fullRetrain_resets (hp : s.powered = true) (hr : s.reaches o 0x10 = true) (hi : s.holds o .installer = true) (ht : s.takeLive = false)
    (hw : s.get R.GATE.LINK_CTRL_MAX_WIDTH % 4 ≠ 0) :
    ∃ t : State, exec (.fullRetrain o) s = .next t ∧ t.gateActive = false ∧ t.gate.replay = [] ∧ t.gate.mayTrain = true := by
  obtain ⟨t, -, h⟩ := fullRetrain_meets hp hr hi hw
  rw [ht, if_neg Bool.false_ne_true] at h
  obtain ⟨hact, hrep, htrain, -⟩ := (t.put R.GATE.LINK_CTRL_MAX_WIDTH (field (1 + 2 * s.get R.GATE.LINK_CTRL_MAX_WIDTH) 1 2)).linkReset_spec
  exact ⟨_, h, hact, hrep, htrain⟩

theorem fullRetrain_busy (hp : s.powered = true) (hr : s.reaches o 0x10 = true) (hi : s.holds o .installer = true) (ht : s.takeLive = true)
    (hw : s.get R.GATE.LINK_CTRL_MAX_WIDTH % 4 ≠ 0) :
    ∃ t : State, exec (.fullRetrain o) s = .next t ∧ t.gateActive = s.gateActive ∧ t.gate = s.gate ∧ t.refusal = some 0x1021 := by
  obtain ⟨t, hacc, h⟩ := fullRetrain_meets hp hr hi hw
  rw [ht, if_pos rfl] at h
  have hrec : (t.refuseBlock o 0x10 E.GATE_BUSY 0).linkView = t.linkView := State.linkView_record ..
  have hgate : (t.refuseBlock o 0x10 E.GATE_BUSY 0).gate = t.gate := keeps_gate (State.forget_refuseBlock (T := 0x480000620) rfl ..) rfl
  exact ⟨_, h, gateActive_of_linkView _ (hrec.trans hacc.linkView), hgate.trans (keeps_gate hacc.1 rfl), State.refuseBlock_refusal ..⟩

end

/-! ### The tunnel -/

section
variable {s : State} {p : CtrlReqPkt}

theorem State.linkView_leaveRx (s : State) (q : Bytes → Bool) :
    (s.leaveRx q).linkView = (s.setGate fun g => { g with rxBuf := removeFirst q g.rxBuf }).linkView := State.linkView_advance _

theorem State.leaveRx_txq (s : State) (q : Bytes → Bool) : (s.leaveRx q).gate.txq = s.gate.txq :=
  gate_of_linkView _ (s.linkView_leaveRx q) GateSt.txq fun _ => rfl

theorem State.leaveRx_active (s : State) (q : Bytes → Bool) : (s.leaveRx q).gateActive = s.gateActive :=
  gateActive_of_linkView (s.setGate fun g => { g with rxBuf := removeFirst q g.rxBuf }) (s.linkView_leaveRx q)

theorem State.leaveRx_tunnelOpen (s : State) (q : Bytes → Bool) : (s.leaveRx q).tunnelOpen = s.tunnelOpen := by
  simp only [State.tunnelOpen, s.leaveRx_get q (x := R.GATE.TUNNEL_CTRL_RIGHTS) (Fld.ne_of_place rfl) (Fld.ne_of_place rfl) (Fld.ne_of_place rfl),
    s.leaveRx_get q (x := R.GATE.TUNNEL_CTRL_TUNNEL_EN) (Fld.ne_of_place rfl) (Fld.ne_of_place rfl) (Fld.ne_of_place rfl)]

/-- Taking out the first of some packets leaves one fewer of them. -/
theorem filter_removeFirst {α : Type} {q : α → Bool} {l : List α} (h : l.any q = true) : ((removeFirst q l).filter q).length + 1 = (l.filter q).length := by
  induction l with
  | nil => cases h
  | cons x l ih =>
    cases hx : q x with
    | true => simp [removeFirst, hx]
    | false =>
      rw [List.any_cons, hx, Bool.false_or] at h
      simpa [removeFirst, hx] using ih h

/-- A request that leaves the receive buffer is one of the unanswered ones no longer. -/
theorem State.leaveRx_unanswered (h : s.gate.rxBuf.any (pktType · == 0x30) = true) :
    (s.leaveRx (pktType · == 0x30)).gate.unanswered + 1 = s.gate.unanswered := by
  have hbuf : (s.leaveRx (pktType · == 0x30)).gate.rxBuf = removeFirst (pktType · == 0x30) s.gate.rxBuf :=
    gate_of_linkView _ (s.linkView_leaveRx _) GateSt.rxBuf fun _ => rfl
  have hcount := filter_removeFirst h
  rw [GateSt.unanswered, GateSt.unanswered, hbuf, s.leaveRx_txq]
  omega

/-- An answer goes out at the end of the transmit queue while the link is up. -/
theorem State.answerReq_txq {t : State} (ha : t.gateActive = true) (tag : Nat) (a : RegAnswer) :
    (t.answerReq tag a).gate.txq = t.gate.txq ++ [answerPkt tag a] := by
  rw [State.answerReq, ha, Bool.true_or, if_pos rfl]
  rfl

theorem ctrlReq_refused (hb : s.gate.rxBuf.any (pktType · == 0x30) = true) (ho : s.tunnelOpen = false) (ha : s.gateActive = true) :
    ∃ t : State, exec (.ctrlReq p) s = .next t ∧ t.gate.txq = s.gate.txq ++ [answerPkt p.tag.toNat ⟨4, 0, 0⟩] := by
  have hexec : execCtrlReq p s = .next ((((s.leaveRx (pktType · == 0x30)).pulse 0x10 Ev.GATE.TUNNEL_REFUSED).record 0x10 E.GATE_TUNNEL_RIGHTS 0
      0x1F1).answerReq p.tag.toNat ⟨4, 0, 0⟩) := by
    simp only [execCtrlReq, hb, s.leaveRx_tunnelOpen, ho, Bool.not_true, Bool.false_eq_true, if_false, Bool.not_false, if_true]
  have hview : (((s.leaveRx (pktType · == 0x30)).pulse 0x10 Ev.GATE.TUNNEL_REFUSED).record 0x10 E.GATE_TUNNEL_RIGHTS 0 0x1F1).linkView
      = (s.leaveRx (pktType · == 0x30)).linkView := (State.linkView_record ..).trans (State.linkView_pulse ..)
  refine ⟨_, hexec, ?_⟩
  rw [State.answerReq_txq (by rw [gateActive_of_linkView _ hview, s.leaveRx_active, ha]), gate_of_linkView _ hview GateSt.txq fun _ => rfl,
    s.leaveRx_txq]

/-- A request that was received while the tunnel is open is answered busy beyond 16, else by what it asked. -/
theorem ctrlReq_open (hb : s.gate.rxBuf.any (pktType · == 0x30) = true) (ho : s.tunnelOpen = true) :
    exec (.ctrlReq p) s = .next (if 17 ≤ s.gate.unanswered then (s.leaveRx (pktType · == 0x30)).answerReq p.tag.toNat ⟨3, 0, 0⟩
      else ((s.leaveRx (pktType · == 0x30)).runReq .gate p).2.answerReq p.tag.toNat ((s.leaveRx (pktType · == 0x30)).runReq .gate p).1) := by
  have hcount := State.leaveRx_unanswered hb
  have hiff : 16 ≤ (s.leaveRx (pktType · == 0x30)).gate.unanswered ↔ 17 ≤ s.gate.unanswered := by omega
  show execCtrlReq p s = _
  simp only [execCtrlReq, hb, s.leaveRx_tunnelOpen, ho, Bool.not_true, Bool.false_eq_true, if_false, hiff]
  split <;> rfl

theorem ctrlReq_busy (hb : s.gate.rxBuf.any (pktType · == 0x30) = true) (ho : s.tunnelOpen = true) (ha : s.gateActive = true)
    (hu : 17 ≤ s.gate.unanswered) :
    ∃ t : State, exec (.ctrlReq p) s = .next t ∧ t.gate.txq = s.gate.txq ++ [answerPkt p.tag.toNat ⟨3, 0, 0⟩] := by
  refine ⟨_, (ctrlReq_open hb ho).trans (by rw [if_pos hu]), ?_⟩
  rw [State.answerReq_txq (by rw [s.leaveRx_active, ha]), s.leaveRx_txq]

theorem ctrlReq_bad (hb : s.gate.rxBuf.any (pktType · == 0x30) = true) (ho : s.tunnelOpen = true) (ha : s.gateActive = true)
    (hu : s.gate.unanswered ≤ 16) (hbad : reqBad p = true) :
    ∃ t : State, exec (.ctrlReq p) s = .next t ∧ t.gate.txq = s.gate.txq ++ [answerPkt p.tag.toNat ⟨2, 0, 0⟩] := by
  have hrun : (s.leaveRx (pktType · == 0x30)).runReq .gate p = (⟨2, 0, 0⟩, { s.leaveRx (pktType · == 0x30) with refusal := none }) := by
    rw [State.runReq, if_pos hbad]
  have htxq := State.answerReq_txq (t := { s.leaveRx (pktType · == 0x30) with refusal := none }) ((s.leaveRx_active _).trans ha) p.tag.toNat ⟨2, 0, 0⟩
  exact ⟨_, (ctrlReq_open hb ho).trans (by rw [if_neg (by omega), hrun]), htxq.trans (congrArg (· ++ _) (s.leaveRx_txq _))⟩

/-- A register read leaves the link and its counters. -/
theorem State.linkView_regRead (s : State) (o : Origin) (page off len : Nat) : (s.regRead o page off len).1.linkView = s.linkView := by
  have hrefuse (t : State) (c : Nat) : (t.refuseAccess o page off c).linkView = t.linkView := State.linkView_record ..
  unfold State.regRead
  dsimp only
  split
  · rfl
  · split
    · exact hrefuse _ _
    · split
      · rfl
      · split <;> rfl

theorem ctrlReq_reads (hb : s.gate.rxBuf.any (pktType · == 0x30) = true) (ho : s.tunnelOpen = true) (ha : s.gateActive = true)
    (hu : s.gate.unanswered ≤ 16) (hop : p.op.toNat = 0) (hbad : reqBad p = false) :
    ∃ (t : State) (a : RegAnswer), exec (.ctrlReq p) s = .next t ∧ a = ((s.leaveRx (pktType · == 0x30)).runReq .gate p).1 ∧ a.status = 0 ∧ a.err = 0
      ∧ t.gate.txq = s.gate.txq ++ [answerPkt p.tag.toNat a] := by
  obtain ⟨r, hr⟩ : ∃ r, r = ({ s.leaveRx (pktType · == 0x30) with refusal := none } : State).regRead .gate (p.page.toNat % 512) p.offset.toNat (reqWidth p) :=
    ⟨_, rfl⟩
  have hrun : (s.leaveRx (pktType · == 0x30)).runReq .gate p = (⟨0, 0, r.2⟩, r.1) := by
    rw [State.runReq, if_neg (by rw [hbad]; decide), hop, if_pos rfl, hr]
  have hview : r.1.linkView = (s.leaveRx (pktType · == 0x30)).linkView := by
    rw [hr]
    exact State.linkView_regRead ..
  refine ⟨_, _, (ctrlReq_open hb ho).trans (by rw [if_neg (by omega)]), rfl, by rw [hrun], by rw [hrun], ?_⟩
  rw [hrun, State.answerReq_txq (by rw [gateActive_of_linkView _ hview, s.leaveRx_active, ha]), gate_of_linkView _ hview GateSt.txq fun _ => rfl,
    s.leaveRx_txq]

end

/-- Settles O3. -/
theorem fullRetrainRestartsTheLink : Obligations.FullRetrainRestartsTheLink :=
  ⟨fun _ _ => fullRetrain_resets, fun _ _ => fullRetrain_busy, fun _ _ => ctrlReq_refused, fun _ _ => ctrlReq_busy, fun _ _ => ctrlReq_bad,
    fun _ _ hb ho ha hu hop hbad _ _ => ctrlReq_reads hb ho ha hu hop hbad⟩

end Sys2Proof.Machine
end

section
/-!
TAKE_OPEN: admission, grant and refusal (R92-R98, R111).
-/

namespace Sys2Proof.Machine

open Sys2Proof.Laws

section
variable (s : State)

/-- The mode's pages show the mode; no other register beyond a page's header changes. -/
theorem State.setMode_get (m : Nat) {x : Fld} (hb : 0x040 ≤ x.off) (hx : x.page ≠ 2) : (s.setMode m).get x = s.get x := by
  have hprev : x ≠ R.PWR.MODE_PREV := fun e => hx (congrArg Fld.page e)
  have hmode : x ≠ R.PWR.MODE_MODE := fun e => hx (congrArg Fld.page e)
  unfold State.setMode
  dsimp only
  split
  · rfl
  · rw [State.pulse_get_beyond_header _ _ _ hb]
    exact (State.get_put_other _ _ hmode).trans (State.get_put_other _ _ hprev)

theorem State.follow_get {x : Fld} (hb : 0x040 ≤ x.off) (hx : x.page ≠ 2) : s.follow.get x = s.get x := by
  unfold State.follow
  dsimp only
  split
  · rfl
  · exact s.setMode_get _ hb hx

theorem State.follow_take : s.follow.take = s.take := keeps_take (State.forget_follow (T := 0x490000020) rfl s) rfl

theorem State.follow_gate : s.follow.gate = s.gate := keeps_gate (State.forget_follow (T := 0x490000020) rfl s) rfl

theorem State.leaveRx_gate_txq (q : Bytes → Bool) : (s.leaveRx q).gate.txq = s.gate.txq :=
  gate_of_linkView _ (s.linkView_leaveRx q) GateSt.txq fun _ => rfl

/-- A refused request is answered with its reason, and the take stays as it is (R93). -/
theorem State.refuseTake_spec (p : TakeOpenPkt) (why : Nat) : (s.refuseTake p why).take = s.take
    ∧ (s.refuseTake p why).gate.txq = s.gate.txq ++ [grantPkt p.reqId.toNat 2 why 0 0 0 0 0]
    ∧ ∀ x : Fld, 0x040 ≤ x.off → (s.refuseTake p why).get x = s.get x := by
  have hview : (s.refuseTake p why).linkView = (s.send (grantPkt p.reqId.toNat 2 why 0 0 0 0 0)).linkView :=
    (State.linkView_record ..).trans (State.linkView_pulse ..)
  refine ⟨keeps_take (State.forget_refuseTake (T := 0x480001420) rfl ..) rfl, gate_of_linkView _ hview GateSt.txq fun _ => rfl, fun x hx => ?_⟩
  rw [State.refuseTake, State.record_get_beyond_header _ _ _ _ _ _ _ hx, State.pulse_get_beyond_header _ _ _ hx]
  rfl

end

section
variable {s : State} {p : TakeOpenPkt}

theorem State.leaveRx_takeState (s : State) (q : Bytes → Bool) : (s.leaveRx q).get R.TAKE.TAKE_STATE_STATE = s.get R.TAKE.TAKE_STATE_STATE :=
  s.leaveRx_get q (Fld.ne_of_place rfl) (Fld.ne_of_place rfl) (Fld.ne_of_place rfl)

theorem takeOpen_admits (h : s.get R.TAKE.TAKE_STATE_STATE = 0) :
    ∃ t : State, exec (.takeOpen p) s = .next t.follow ∧ t.get R.TAKE.TAKE_STATE_STATE = 1 ∧ t.take.req = some p ∧ t.gate.txq = s.gate.txq := by
  refine ⟨((s.leaveRx (pktType · == 0x01)).put R.TAKE.TAKE_STATE_STATE 1).setTake fun t => { t with req := some p }, ?_, State.get_put_same _ _ _, rfl,
    s.leaveRx_txq _⟩
  show execTakeOpen p s = _
  rw [execTakeOpen, s.leaveRx_takeState, h, if_pos rfl]

theorem takeOpen_refused (h : 1 ≤ s.get R.TAKE.TAKE_STATE_STATE) :
    ∃ t : State, exec (.takeOpen p) s = .next t ∧ t.take = s.take ∧ t.gate.txq = s.gate.txq ++ [grantPkt p.reqId.toNat 2 0x10 0 0 0 0 0] := by
  obtain ⟨htake, htxq, -⟩ := (s.leaveRx (pktType · == 0x01)).refuseTake_spec p 0x10
  refine ⟨(s.leaveRx (pktType · == 0x01)).refuseTake p 0x10, ?_, htake.trans (s.leaveRx_take _), by rw [htxq, s.leaveRx_txq]⟩
  show execTakeOpen p s = _
  rw [execTakeOpen, s.leaveRx_takeState, if_neg (by omega)]

theorem takeGrant_of_request (hq : s.take.req = some p) (h : s.get R.TAKE.TAKE_STATE_STATE = 1) (ha : s.drove.armed = none) :
    exec .takeGrant s = .next (s.grantTake p) := by
  show execTakeGrant s = _
  rw [execTakeGrant, hq, h, ha]
  exact if_neg (by simp)

theorem takeGrant_refuses {why : Nat} (hq : s.take.req = some p) (h : s.get R.TAKE.TAKE_STATE_STATE = 1) (ha : s.drove.armed = none)
    (hadm : (s.setTake fun t => { t with req := none }).admission p = .refuse why) :
    ∃ t : State, exec .takeGrant s = .next t ∧ t.get R.TAKE.TAKE_STATE_STATE = 0 ∧ t.take = { s.take with req := none }
      ∧ t.gate.txq = s.gate.txq ++ [grantPkt p.reqId.toNat 2 why 0 0 0 0 0] := by
  obtain ⟨htake, htxq, hget⟩ := ((s.setTake fun t => { t with req := none }).put R.TAKE.TAKE_STATE_STATE 0).refuseTake_spec p why
  have hgrant : s.grantTake p = (((s.setTake fun t => { t with req := none }).put R.TAKE.TAKE_STATE_STATE 0).refuseTake p why).follow := by
    unfold State.grantTake
    dsimp only
    rw [hadm]
  refine ⟨_, (takeGrant_of_request hq h ha).trans (congrArg _ hgrant), ?_, (State.follow_take _).trans htake, ?_⟩
  · rw [State.follow_get _ (by decide) (by decide), hget _ (by decide), State.get_put_same]
    rfl
  · rw [State.follow_gate, htxq]
    rfl

/-- The state of a take that was granted, its contract answered. -/
def State.granted (u : State) (p : TakeOpenPkt) (rate d cap lee nsid rec slot : Nat) : State :=
  let o := u.openTake p rate d cap lee nsid rec slot
  let t := o.send (grantPkt p.reqId.toNat (b2n (grantReason p rate d != 0)) (grantReason p rate d) o.takeId rate d cap lee)
  (if grantReason p rate d = 0 then t else t.takeErr E.TAKE_CONTRACT_REDUCED).pulse 0x11 Ev.TAKE.ADMITTED

theorem takeGrant_grants {u : State} {rate d cap lee nsid rec slot : Nat} (hq : s.take.req = some p)
    (h : s.get R.TAKE.TAKE_STATE_STATE = 1) (ha : s.drove.armed = none)
    (hadm : (s.setTake fun t => { t with req := none }).admission p = .grant rate d cap lee)
    (hns : (s.setTake fun t => { t with req := none }).takeNsid = some nsid)
    (hkey : (s.setTake fun t => { t with req := none }).newMediaKey nsid = (some (rec, slot), u)) :
    ∃ o t : State, o = u.openTake p rate d cap lee nsid rec slot ∧ exec .takeGrant s = .next t.follow.settle
      ∧ t.gate.txq = o.gate.txq ++ [grantPkt p.reqId.toNat (b2n (grantReason p rate d != 0)) (grantReason p rate d) o.takeId rate d cap lee]
      ∧ t.take = o.take ∧ t.ns = o.ns := by
  have hgrant : s.grantTake p = (u.granted p rate d cap lee nsid rec slot).follow.settle := by
    unfold State.grantTake
    dsimp only
    rw [hadm, hns]
    dsimp only
    rw [hkey]
    rfl
  obtain ⟨o, ho⟩ : ∃ o, o = u.openTake p rate d cap lee nsid rec slot := ⟨_, rfl⟩
  obtain ⟨v, hv⟩ : ∃ v, v = o.send (grantPkt p.reqId.toNat (b2n (grantReason p rate d != 0)) (grantReason p rate d) o.takeId rate d cap lee) := ⟨_, rfl⟩
  have hframe : forget 0x480000420 (u.granted p rate d cap lee nsid rec slot) = forget 0x480000420 v := by
    subst hv ho
    unfold State.granted
    dsimp only
    rw [State.forget_pulse rfl]
    split
    · rfl
    · exact State.forget_takeErr rfl ..
  refine ⟨o, _, ho, (takeGrant_of_request hq h ha).trans (congrArg _ hgrant), ?_, (keeps_take hframe rfl).trans (by rw [hv]; rfl),
    (keeps_ns hframe rfl).trans (by rw [hv]; rfl)⟩
  rw [keeps_gate hframe rfl, hv]
  rfl

/-- A chain of refusals that ends in a grant passed this one. -/
theorem grant_of_ite {c : Prop} [Decidable c] {why rate d cap lee : Nat} {a : Admission} (h : (if c then .refuse why else a) = Admission.grant rate d cap lee) :
    ¬c ∧ a = .grant rate d cap lee := by
  split at h
  · cases h
  next hc => exact ⟨hc, h⟩

/-- The rate that admission offers (R93, R98). -/
def State.offered (s : State) (p : TakeOpenPkt) : Nat :=
  let rate := min (min p.rate.toNat s.gateLimit) (min (9600 * s.liveLanes) (s.mRate p.tier.toNat * p.minRatio.toNat / 256))
  if bitAt p.flags.toNat 1 && p.digestAlg.toNat == 0 then min rate 76800 else rate

theorem State.offered_le (s : State) (p : TakeOpenPkt) : s.offered p ≤ p.rate.toNat ∧ s.offered p ≤ s.gateLimit ∧ s.offered p ≤ 9600 * s.liveLanes
    ∧ s.offered p ≤ s.mRate p.tier.toNat * p.minRatio.toNat / 256 ∧ (bitAt p.flags.toNat 1 = true → p.digestAlg = 0 → s.offered p ≤ 76800) := by
  unfold State.offered
  dsimp only
  split
  · omega
  next hc =>
    refine ⟨by omega, by omega, by omega, by omega, fun hf ha => absurd ?_ hc⟩
    rw [hf, ha]
    rfl

/-- What a grant keeps to (R93, R94, R98). -/
theorem State.admission_bounds {rate d cap lee : Nat} (h : s.admission p = .grant rate d cap lee) :
    0 < rate ∧ rate ≤ p.rate.toNat ∧ rate ≤ s.gateLimit ∧ rate ≤ 9600 * s.liveLanes
      ∧ rate * 256 ≤ s.mRate p.tier.toNat * p.minRatio.toNat
      ∧ (bitAt p.flags.toNat 1 = true → p.digestAlg = 0 → rate ≤ 76800)
      ∧ (p.duration.toNat ≠ 0 → d ≤ p.duration.toNat)
      ∧ cap ≤ lee * 2 ^ 20 ∧ lee ≤ 1024 * s.get R.TAKE.LEE_RESERVE_GIB
      ∧ openReserved p = false ∧ s.offline = false ∧ s.mode ≠ 7 ∧ s.keys.kekMedia ≠ none := by
  unfold State.admission at h
  obtain ⟨hres, h⟩ := grant_of_ite h
  obtain ⟨-, h⟩ := grant_of_ite h
  obtain ⟨hoff, h⟩ := grant_of_ite h
  obtain ⟨-, h⟩ := grant_of_ite h
  obtain ⟨hsafe, h⟩ := grant_of_ite h
  obtain ⟨hrate, h⟩ := grant_of_ite h
  obtain ⟨-, h⟩ := grant_of_ite h
  obtain ⟨-, h⟩ := grant_of_ite h
  obtain ⟨-, h⟩ := grant_of_ite h
  injection h with h1 h2 h3 h4
  obtain ⟨b1, b2, b3, b4, b5⟩ := s.offered_le p
  have hoffered : s.offered p = rate := h1
  rw [hoffered] at b1 b2 b3 b4 b5
  push Not at hsafe
  refine ⟨?_, b1, b2, b3, ?_, b5, ?_, ?_, ?_, Bool.eq_false_iff.mpr hres, Bool.eq_false_iff.mpr hoff, hsafe.1, ?_⟩
  · have hne : rate ≠ 0 := fun e => hrate (h1.trans e)
    omega
  · omega
  · intro hd
    rw [← h2]
    split
    · exact Nat.zero_le _
    · exact Nat.min_le_left ..
  · rw [← h3, ← h4]
    exact Nat.min_le_right ..
  · rw [← h4]
    exact Nat.min_le_left ..
  · exact fun hk => hsafe.2.1 (by rw [hk]; rfl)

end

/-- Settles O5. -/
theorem takeIsAdmittedOrRefused : Obligations.TakeIsAdmittedOrRefused :=
  ⟨fun _ _ => takeOpen_admits, fun _ _ h _ => takeOpen_refused h, fun _ _ _ => takeGrant_refuses, fun _ _ _ _ _ _ _ _ _ _ => takeGrant_grants,
    fun _ _ _ _ _ _ => State.admission_bounds⟩

end Sys2Proof.Machine
end

section
/-!
The lifecycle of an open take (R95-R118, R127, R247).
-/

namespace Sys2Proof.Machine

open Sys2Proof.Laws

/-! ### Closing -/

section
variable {s : State} {c : Contract}

/-- The state of a take that starts to close, before its trailer is placed. -/
def State.closing (s : State) (reason cause status : Nat) : State :=
  ((((s.settleTriggers.endOpenFrames status).sealAll).puts [(R.TAKE.TAKE_STATE_STATE, 4), (R.TAKE.TAKE_STATE_CLOSE_CAUSE, cause),
    (R.GATE.CREDIT_STATE_HELD_BREACH, 0)]).setTake fun x => { x with reason := reason }).advance

theorem State.closeTake_of_live (ht : s.takeLive = true) {reason : Nat} (hr : reason ≠ 2) (cause status : Nat) :
    s.closeTake reason cause status = (s.closing reason cause status).tryTrailer := by
  simp only [State.closeTake, ht, Bool.not_true, Bool.false_eq_true, if_false, hr, State.closing]

theorem State.closing_spec (s : State) (reason cause status : Nat) : (s.closing reason cause status).get R.TAKE.TAKE_STATE_STATE = 4
    ∧ (s.closing reason cause status).get R.TAKE.TAKE_STATE_CLOSE_CAUSE = cause % 2 ^ 8 ∧ (s.closing reason cause status).take.reason = reason
    ∧ (s.closing reason cause status).time = s.time := by
  have hget (x : Fld) (hx : 0x040 ≤ x.off) : (s.closing reason cause status).get x = ((((s.settleTriggers.endOpenFrames status).sealAll).put
      R.TAKE.TAKE_STATE_STATE 4).put R.TAKE.TAKE_STATE_CLOSE_CAUSE cause |>.put R.GATE.CREDIT_STATE_HELD_BREACH 0).get x := by
    rw [State.closing, State.advance_get_beyond _ hx, State.setTake_get, State.puts_cons, State.puts_cons, State.puts_cons, State.puts_nil]
  have hframe : forget 0x480001020 (s.closing reason cause status) = forget 0x480001020 ((((s.settleTriggers.endOpenFrames status).sealAll).puts
      [(R.TAKE.TAKE_STATE_STATE, 4), (R.TAKE.TAKE_STATE_CLOSE_CAUSE, cause), (R.GATE.CREDIT_STATE_HELD_BREACH, 0)]).setTake fun x =>
        { x with reason := reason }) := State.forget_advance rfl _
  refine ⟨?_, ?_, congrArg TakeSt.reason (keeps_take hframe rfl), (keeps_time hframe rfl).trans ?_⟩
  · rw [hget _ (by decide), State.get_put_of_place _ _ rfl, State.get_put_of_place _ _ rfl, State.get_put_same]
    rfl
  · rw [hget _ (by decide), State.get_put_of_place _ _ rfl, State.get_put_same]
    rfl
  · have hputs : forget 0x2020 ((((s.settleTriggers.endOpenFrames status).sealAll).puts [(R.TAKE.TAKE_STATE_STATE, 4),
        (R.TAKE.TAKE_STATE_CLOSE_CAUSE, cause), (R.GATE.CREDIT_STATE_HELD_BREACH, 0)]).setTake fun x => { x with reason := reason })
        = forget 0x2020 (s.settleTriggers.endOpenFrames status).sealAll := by
      rw [State.forget_setTake rfl, State.forget_puts rfl]
    rw [keeps_time hputs rfl, keeps_time (State.forget_sealAll (T := 0x480004020) rfl (s.settleTriggers.endOpenFrames status)) rfl,
      keeps_time (State.forget_endOpenFrames (T := 0x48001a420) rfl s.settleTriggers status) rfl,
      keeps_time (State.forget_settleTriggers (T := 0x480066420) rfl s) rfl]

theorem takeClose_closes {id : BitVec 64} (ht : s.takeLive = true) (hc : s.take.c = some c) (hid : c.takeId = id.toNat) :
    ∃ t : State, exec (.takeClose id) s = .next t.tryTrailer.settle ∧ t.get R.TAKE.TAKE_STATE_STATE = 4
      ∧ t.get R.TAKE.TAKE_STATE_CLOSE_CAUSE = 1 ∧ t.take.reason = 0 := by
  have hlive : (s.leaveRx (pktType · == 0x03)).takeLive = true := (s.leaveRx_takeLive _).trans ht
  have htid : (s.leaveRx (pktType · == 0x03)).takeId = id.toNat := by
    rw [State.takeId, s.leaveRx_take, hc]
    exact hid
  obtain ⟨hstate, hcause, hreason, -⟩ := (s.leaveRx (pktType · == 0x03)).closing_spec 0 1 2
  refine ⟨(s.leaveRx (pktType · == 0x03)).closing 0 1 2, ?_, hstate, hcause, hreason⟩
  show execTakeClose id s = _
  simp only [execTakeClose, hlive, htid, bne_self_eq_false, Bool.not_true, Bool.or_self, Bool.false_eq_true, if_false,
    State.closeTake_of_live hlive (by decide : 0 ≠ 2)]

theorem takeClose_of_other {id : BitVec 64} (hc : s.take.c = some c) (hid : c.takeId ≠ id.toNat) :
    ∃ t : State, exec (.takeClose id) s = .next t ∧ t.take = s.take ∧ (s.get (H.VALID 0x10) = 0 → t.get (H.CODE 0x10) = 0x101F) := by
  have htid : ((s.leaveRx (pktType · == 0x03)).takeId != id.toNat) = true := by
    rw [State.takeId, s.leaveRx_take, hc]
    exact bne_iff_ne.mpr hid
  have htake : ((s.leaveRx (pktType · == 0x03)).record 0x10 E.GATE_BAD_PACKET 0 0x1F1).take = s.take :=
    (keeps_take (State.forget_record (T := 0x480000420) rfl ..) rfl).trans (s.leaveRx_take _)
  have hvalid : (s.leaveRx (pktType · == 0x03)).get (H.VALID 0x10) = s.get (H.VALID 0x10) :=
    s.leaveRx_get _ (Fld.ne_of_place rfl) (Fld.ne_of_place rfl) (Fld.ne_of_place rfl)
  refine ⟨(s.leaveRx (pktType · == 0x03)).record 0x10 E.GATE_BAD_PACKET 0 0x1F1, ?_, htake, fun hv => State.record_get_CODE (hvalid.trans hv) ..⟩
  show execTakeClose id s = _
  rw [execTakeClose, htid, Bool.or_true, if_pos rfl]

theorem takeDurationExpiry_closes (ht : s.takeLive = true) (hc : s.take.c = some c) (hd : c.duration ≠ 0) :
    ∃ t : State, exec .takeDurationExpiry s = .next t.tryTrailer.settle ∧ t.get R.TAKE.TAKE_STATE_STATE = 4
      ∧ t.get R.TAKE.TAKE_STATE_CLOSE_CAUSE = 2 ∧ t.take.reason = 1
      ∧ t.time = max s.time (s.take.grantTime + c.duration * 1000000000) := by
  have hlive : ({ s with time := max s.time (s.take.grantTime + c.duration * 1000000000) } : State).takeLive = true := ht
  have hd' : (c.duration == 0) = false := beq_false_of_ne hd
  have hclosing := State.closing_spec { s with time := max s.time (s.take.grantTime + c.duration * 1000000000) } 1 2 2
  refine ⟨_, ?_, hclosing⟩
  show execTakeDurationExpiry s = _
  simp only [execTakeDurationExpiry, hc, ht, hd', Bool.not_true, Bool.or_self, Bool.false_eq_true, if_false,
    State.closeTake_of_live hlive (by decide : 1 ≠ 2)]

end

/-! ### The allowance and the ratio -/

section
variable {s : State} {c : Contract}

/-- While credits are held none are advertised for data (R69). -/
theorem State.advance_advData (h : s.dataHeld = true) : s.advance.gate.advData = s.gate.advData := by
  have hg (t : State) (b : Bool) : (t.level 0x10 Ev.GATE.CREDITS_HELD b).gate = t.gate := keeps_gate (State.forget_level (T := 0x480000020) rfl ..) rfl
  rw [State.advance, hg]
  exact if_pos (by rw [h]; rfl)

theorem State.hold_get (s : State) (f : Fld) (b : Bool) {x : Fld} (hb : 0x040 ≤ x.off) (hx : x ≠ f) : (s.hold f b).get x = s.get x := by
  rw [State.hold, State.advance_get_beyond _ hb, State.putBit, State.get_put_other _ _ hx]

theorem State.hold_get_same (s : State) (f : Fld) (b : Bool) (hb : 0x040 ≤ f.off) : (s.hold f b).get f = b2n b % 2 ^ f.w := by
  rw [State.hold, State.advance_get_beyond _ hb, State.putBit, State.get_put_same]

theorem State.hold_take (s : State) (f : Fld) (b : Bool) : (s.hold f b).take = s.take := keeps_take (State.forget_hold (T := 0x480001020) rfl ..) rfl

/-- The state of a take that passed its allowance, its error not yet recorded. -/
def State.breached (s : State) : State :=
  ((((s.put R.TAKE.TAKE_STATE_STATE 3).hold R.GATE.CREDIT_STATE_HELD_BREACH true).bump R.TAKE.BREACH_COUNT_COUNT).pulse 0x11 Ev.TAKE.RATE_BREACH)

theorem State.breached_get (s : State) {x : Fld} (hb : 0x040 ≤ x.off) (hx : x ≠ R.TAKE.BREACH_COUNT_COUNT) :
    s.breached.get x = ((s.put R.TAKE.TAKE_STATE_STATE 3).hold R.GATE.CREDIT_STATE_HELD_BREACH true).get x := by
  rw [State.breached, State.pulse_get_beyond_header _ _ _ hb, State.get_bump_other _ _ hx]

theorem takeRateBreach_holds (hc : s.take.c = some c) (hst : s.get R.TAKE.TAKE_STATE_STATE = 2) (hcap : c.cap ≤ s.unsecured) :
    ∃ t : State, exec .takeRateBreach s = .next t ∧ t.get R.TAKE.TAKE_STATE_STATE = 3 ∧ t.bit R.GATE.CREDIT_STATE_HELD_BREACH = true
      ∧ t.get R.TAKE.BREACH_COUNT_COUNT = min (s.get R.TAKE.BREACH_COUNT_COUNT + 1) (2 ^ 32 - 1)
      ∧ t.gate.advData = s.gate.advData ∧ (s.get (H.VALID 0x11) = 0 → t.get (H.CODE 0x11) = 0x1112) := by
  have hexec : execTakeRateBreach s = .next (s.breached.takeErr E.TAKE_RATE_BREACH) := by
    unfold execTakeRateBreach
    rw [hc]
    exact if_neg (by rw [hst]; omega)
  have hheld : ((s.put R.TAKE.TAKE_STATE_STATE 3).putBit R.GATE.CREDIT_STATE_HELD_BREACH true).dataHeld = true := by
    have hbit : ((s.put R.TAKE.TAKE_STATE_STATE 3).putBit R.GATE.CREDIT_STATE_HELD_BREACH true).bit R.GATE.CREDIT_STATE_HELD_BREACH = true :=
      congrArg (· != 0) (State.get_put_same _ _ _)
    simp only [State.dataHeld, hbit, Bool.true_or]
  refine ⟨_, hexec, ?_, ?_, ?_, ?_, fun hv => ?_⟩
  · rw [State.takeErr, State.record_get_beyond _ _ _ _ _ _ _ rfl, State.breached_get _ (by decide) (by decide),
      State.hold_get _ _ _ (by decide) (by decide), State.get_put_same]
    rfl
  · rw [State.bit, State.takeErr, State.record_get_beyond _ _ _ _ _ _ _ rfl, State.breached_get _ (by decide) (by decide),
      State.hold_get_same _ _ _ (by decide)]
    rfl
  · rw [State.takeErr, State.record_get_beyond _ _ _ _ _ _ _ rfl, State.breached, State.pulse_get_beyond _ _ _ rfl, State.bump, State.get_put_same,
      State.hold_get _ _ _ (by decide) (by decide), State.get_put_of_place _ _ rfl]
    show min (s.get R.TAKE.BREACH_COUNT_COUNT + 1) (2 ^ 32 - 1) % 2 ^ 32 = _
    omega
  · have hgate : (s.breached.takeErr E.TAKE_RATE_BREACH).gate = s.breached.gate := keeps_gate (State.forget_takeErr (T := 0x480000420) rfl ..) rfl
    have hpulse : s.breached.gate = ((s.put R.TAKE.TAKE_STATE_STATE 3).putBit R.GATE.CREDIT_STATE_HELD_BREACH true).advance.gate :=
      keeps_gate (State.forget_pulse (T := 0x480000020) rfl ..) rfl
    rw [hgate, hpulse]
    exact State.advance_advData hheld
  · have hvalid : s.breached.get (H.VALID 0x11) = s.get (H.VALID 0x11) := by
      rw [State.breached, State.pulse_get_of_place _ _ _ rfl rfl, State.get_bump_of_place _ _ rfl, State.hold, State.advance,
        State.level_get_other _ _ _ _ (Fld.ne_of_place rfl) (Fld.ne_of_place rfl) (Fld.ne_of_place rfl)]
      exact (State.get_put_of_place _ _ rfl).trans (State.get_put_of_place _ _ rfl)
    exact State.record_get_CODE (hvalid.trans hv) ..

theorem takeBreachRelease_reopens (hc : s.take.c = some c) (hst : s.get R.TAKE.TAKE_STATE_STATE = 3) (hroom : s.unsecured + releaseMargin c.cap ≤ c.cap) :
    ∃ t : State, exec .takeBreachRelease s = .next t ∧ t.get R.TAKE.TAKE_STATE_STATE = 2 ∧ t.bit R.GATE.CREDIT_STATE_HELD_BREACH = false
      ∧ t.take = s.take := by
  have hexec : execTakeBreachRelease s
      = .next (((s.put R.TAKE.TAKE_STATE_STATE 2).hold R.GATE.CREDIT_STATE_HELD_BREACH false).pulse 0x11 Ev.TAKE.BREACH_CLEAR) := by
    unfold execTakeBreachRelease
    rw [hc]
    exact if_neg (by rw [hst]; omega)
  have htake : (((s.put R.TAKE.TAKE_STATE_STATE 2).hold R.GATE.CREDIT_STATE_HELD_BREACH false).pulse 0x11 Ev.TAKE.BREACH_CLEAR).take = s.take :=
    (keeps_take (State.forget_pulse (T := 0x480000020) rfl ..) rfl).trans (State.hold_take ..)
  refine ⟨_, hexec, ?_, ?_, htake⟩
  · rw [State.pulse_get_beyond _ _ _ rfl, State.hold_get _ _ _ (by decide) (by decide), State.get_put_same]
    rfl
  · rw [State.bit, State.pulse_get_beyond _ _ _ rfl, State.hold_get_same _ _ _ (by decide)]
    rfl

/-- A second of the ratio's measurement has passed. -/
def State.ratioTurn (s : State) : State :=
  { s with time := max s.time (s.take.ratioFrom + 1000000000) }.setTake fun x =>
    { x with ratioFrom := max s.time (s.take.ratioFrom + 1000000000), ratioRaw := 0, ratioStored := x.cont.length }

/-- What the measured ratio shows and warns of. -/
def State.ratioShown (s : State) (c : Contract) (r : Nat) : State :=
  if c.minRatio ≤ r then s.ratioTurn.put R.TAKE.RATIO_NOW_RATIO r
  else (((s.ratioTurn.put R.TAKE.RATIO_NOW_RATIO r).setTake fun x =>
    { x with ratioLow := max s.time (s.take.ratioFrom + 1000000000) }).pulse 0x11 Ev.TAKE.RATIO_LOW).takeErr E.TAKE_RATIO_LOW

theorem State.ratioShown_spec (s : State) (c : Contract) {r : Nat} (hr : r < 65536) : (s.ratioShown c r).take.ratioRaw = 0
    ∧ (s.ratioShown c r).take.ratioStored = s.take.cont.length ∧ (s.ratioShown c r).take.ratioFrom = (s.ratioShown c r).time
    ∧ (s.ratioShown c r).time = max s.time (s.take.ratioFrom + 1000000000) ∧ (s.ratioShown c r).get R.TAKE.RATIO_NOW_RATIO = r := by
  have hshow (t : State) : (t.put R.TAKE.RATIO_NOW_RATIO r).get R.TAKE.RATIO_NOW_RATIO = r :=
    (State.get_put_same _ _ _).trans (Nat.mod_eq_of_lt hr)
  unfold State.ratioShown
  split
  · exact ⟨rfl, rfl, rfl, rfl, hshow _⟩
  · have hframe := (State.forget_takeErr (T := 0x480000420) rfl (((s.ratioTurn.put R.TAKE.RATIO_NOW_RATIO r).setTake fun x =>
      { x with ratioLow := max s.time (s.take.ratioFrom + 1000000000) }).pulse 0x11 Ev.TAKE.RATIO_LOW) E.TAKE_RATIO_LOW).trans
      (State.forget_pulse (T := 0x480000420) rfl ..)
    have htake := keeps_take hframe rfl
    have htime := keeps_time hframe rfl
    rw [htake, htime]
    refine ⟨rfl, rfl, rfl, rfl, ?_⟩
    rw [State.takeErr, State.record_get_beyond _ _ _ _ _ _ _ rfl, State.pulse_get_beyond _ _ _ rfl]
    exact hshow _

theorem takeRatioMeasure_restarts (hc : s.take.c = some c) (ht : s.takeLive = true) :
    ∃ t : State, exec .takeRatioMeasure s = .next t ∧ t.take.ratioRaw = 0 ∧ t.take.ratioStored = s.take.cont.length
      ∧ t.time = max s.time (s.take.ratioFrom + 1000000000) ∧ t.take.ratioFrom = t.time
      ∧ (s.take.ratioRaw ≠ 0 → s.take.ratioStored < s.take.cont.length →
          t.get R.TAKE.RATIO_NOW_RATIO = min 65535 (s.take.ratioRaw * 256 / (s.take.cont.length - s.take.ratioStored))) := by
  by_cases hraw : s.take.ratioRaw = 0
  · have hexec : execTakeRatioMeasure s = .next s.ratioTurn := by
      simp only [execTakeRatioMeasure, hc, ht, Bool.not_true, Bool.false_eq_true, if_false, hraw, if_true]
      rfl
    exact ⟨_, hexec, rfl, rfl, rfl, rfl, fun hne => absurd hraw hne⟩
  · obtain ⟨r, hr⟩ : ∃ r, r = if s.take.cont.length - s.take.ratioStored = 0 then 65535
      else min 65535 (s.take.ratioRaw * 256 / (s.take.cont.length - s.take.ratioStored)) := ⟨_, rfl⟩
    have hexec : execTakeRatioMeasure s = .next (s.ratioShown c r) := by
      simp only [execTakeRatioMeasure, hc, ht, Bool.not_true, Bool.false_eq_true, if_false, hraw, ← hr, State.ratioShown, apply_ite Host.Outcome.next]
      rfl
    have hlt : r < 65536 := by
      rw [hr]
      split <;> omega
    obtain ⟨h1, h2, h3, h4, h5⟩ := s.ratioShown_spec c hlt
    refine ⟨_, hexec, h1, h2, h4, h3, fun _ hst => ?_⟩
    rw [h5, hr, if_neg (by omega)]

theorem secureWindowPad_pads (hc : s.take.c = some c) (htr : s.take.trailer = none) (hno : s.take.noTrailer = false) (hroom : s.tailRoom c ≠ 0)
    (hidx : s.indexDue = false) {u : State} (hu : u = { s with time := max s.time (s.take.tailSince + s.get R.TAKE.SECURE_WINDOW_US * 1000) }) :
    exec .secureWindowPad s = .next (u.appendRaw (padRecord (s.tailRoom c))).settle := by
  have hidx' : u.indexDue = false := by
    rw [hu]
    exact hidx
  have hroom' : u.tailRoom c = s.tailRoom c := by
    rw [hu]
    rfl
  show execSecureWindowPad s = _
  simp only [execSecureWindowPad, hc, htr, hno, beq_false_of_ne hroom, Option.isSome_none, Bool.or_self, Bool.false_eq_true, if_false, ← hu, hidx', hroom', hroom]

end

/-! ### Stripes, the end of a take, and its capacity -/

section
variable {s : State} {c : Contract}

/-- A stripe to close is one of its group's. -/
theorem State.of_stripeToClose {g : Group} {i : Nat} (h : s.stripeToClose = some (g, i)) : g ∈ s.groups ∧ ∃ st, g.stripes[i]? = some st := by
  obtain ⟨y, hy, hfind⟩ := List.exists_of_findSome?_eq_some h
  obtain ⟨x, hx, hpair⟩ := Option.map_eq_some_iff.mp hfind
  obtain ⟨rfl, rfl⟩ := Prod.mk.inj hpair
  exact ⟨hy, x.1, List.mem_zipIdx_iff_getElem?.mp (List.mem_of_find?_eq_some hx)⟩

theorem stripeClose_closes {g : Group} {i : Nat} (h : s.stripeToClose = some (g, i)) :
    ∃ t : State, exec .stripeClose s
        = .next (t.advanceSecured.followCopies.closeFull.retryWaiting.freeEmpty.issueReady.ckptStep).settle ∧ t.array.snapDirty = true
      ∧ ∃ h ∈ t.groups, h.num = g.num ∧ (h.stripes[i]?).map (·.closed) = some true := by
  obtain ⟨hg, st, hst⟩ := State.of_stripeToClose h
  refine ⟨(s.modGroup g.num fun g => { g with stripes := modAt g.stripes i fun st => { st with closed := true } }).setArray fun a =>
    { a with snapDirty := true }, ?_, rfl, { g with stripes := modAt g.stripes i fun st => { st with closed := true } }, ?_, rfl, ?_⟩
  · show execStripeClose s = _
    rw [execStripeClose, h]
  · exact List.mem_map.mpr ⟨g, hg, by rw [beq_self_eq_true, if_pos rfl]⟩
  · show Option.map _ (modAt g.stripes i _)[i]? = _
    rw [modAt_getElem?, if_pos rfl, hst]
    rfl

theorem fallowReservationUsed_erases (hc : s.take.c = some c) (ht : s.takeLive = true) (h0 : c.tier = 0) (hr : s.get R.FALLOW.RESERVED_USER_MB = 0) :
    ∃ t : State, exec .fallowReservationUsed s = .next t.recompute ∧ t.take.c = some { c with tier := 1 } := by
  refine ⟨s.modContract fun c => { c with tier := 1 }, ?_, congrArg (Option.map _) hc⟩
  show execFallowReservationUsed s = _
  simp only [execFallowReservationUsed, hc, ht, h0, hr, Bool.not_true, bne_self_eq_false, Bool.or_self, Bool.false_eq_true, if_false]

theorem mediaCapacityFull_closes (hc : s.take.c = some c) (ht : s.takeLive = true) (h1 : c.tier = 1)
    (hcap : (s.get R.MEDIA.MAXCAP_MB - (s.ns.map Ns.heldMB).foldl (· + ·) 0) * 1000000 ≤ c.cap) :
    ∃ t : State, exec .mediaCapacityFull s = .next (t.closeExhausted 4).settle ∧ t.take = s.take
      ∧ (s.get (H.VALID 0x60) = 0 → t.get (H.CODE 0x60) = E.MEDIA_CAPACITY_FULL) := by
  refine ⟨s.record 0x60 E.MEDIA_CAPACITY_FULL 0 0x1F1, ?_, keeps_take (State.forget_record (T := 0x480000420) rfl ..) rfl,
    fun hv => State.record_get_CODE hv ..⟩
  have hlt : decide (c.cap < (s.get R.MEDIA.MAXCAP_MB - (s.ns.map Ns.heldMB).foldl (· + ·) 0) * 1000000) = false :=
    decide_eq_false (Nat.not_lt.mpr hcap)
  show execMediaCapacityFull s = _
  simp only [execMediaCapacityFull, hc, ht, h1, hlt, Bool.not_true, bne_self_eq_false, Bool.or_self, Bool.false_eq_true, if_false]

/-- The registers and the counters of a take that is no more. -/
def State.takeFreed (u : State) : State :=
  ((u.puts [(R.TAKE.TAKE_STATE_STATE, 0), (R.TAKE.GRANT_RATE_MBPS, 0), (R.TAKE.GRANT_DURATION_SECONDS, 0),
    (R.TAKE.UNSECURED_CAP_BYTES, 0), (R.TAKE.SECURED_LEN_BYTES, 0), (R.TAKE.RATIO_NOW_RATIO, 0), (R.TAKE.DIE_SHARE_PERMILLE, 0),
    (R.FALLOW.RESERVED_USER_MB, 0), (R.DIGEST.UNITS_TAKE_RAW, 0), (R.DIGEST.UNITS_TAKE_STORED, 0)]).setTake fun _ => { TakeSt.reset with
    nextUid := u.take.nextUid, nextId := u.take.nextId, lostFrames := u.take.lostFrames, refusing := u.take.refusing,
    releasing := u.take.releasing }).setTrig fun x => { x with ringFrames := [], drawn := [], short := [] }

theorem State.takeFreed_spec (u : State) : u.takeFreed.take.c = none ∧ u.takeFreed.gate = u.gate := by
  have hframe : forget 0x6020 u.takeFreed = forget 0x6020 u := by
    rw [State.takeFreed, State.forget_setTrig rfl, State.forget_setTake rfl, State.forget_puts rfl]
  refine ⟨?_, keeps_gate hframe rfl⟩
  rw [State.takeFreed, keeps_take (State.forget_setTrig (T := 0x4000) rfl ..) rfl, State.setTake_take]
  rfl

/-- A take that ends gives up its contract; its transmit queue goes on (R118). -/
theorem State.releaseTake_spec (s : State) : s.releaseTake.take.c = none ∧ s.releaseTake.gate.txq = s.gate.txq := by
  have hrel : s.releaseTake = ((s.reserveLanes []).unparkJobs).takeFreed.showStreams.advance := rfl
  obtain ⟨hc, hgate⟩ := ((s.reserveLanes []).unparkJobs).takeFreed_spec
  have hframe : forget 0x18020 ((s.reserveLanes []).unparkJobs) = forget 0x18020 s :=
    (State.forget_unparkJobs rfl _).trans (State.forget_reserveLanes rfl ..)
  generalize ((s.reserveLanes []).unparkJobs).takeFreed = v at hrel hc hgate
  have hstream : v.showStreams.gate = v.gate := keeps_gate (State.forget_showStreams (T := 0x20) rfl v) rfl
  have hadv : v.showStreams.advance.take = v.showStreams.take := keeps_take (State.forget_advance (T := 0x480001020) rfl _) rfl
  rw [hrel, hadv, State.showStreams_take, gate_of_linkView _ (State.linkView_advance v.showStreams) GateSt.txq fun _ => rfl, hstream, hgate]
  exact ⟨hc, congrArg GateSt.txq (keeps_gate hframe rfl)⟩

/-- The state of a take that has ended, its completions not yet sent. -/
def State.takeEnded (s : State) (c : Contract) : State :=
  ((s.sealNs c.nsid s.take.reason s.take.cont.length s.take.noTrailer).closeTakeGroups c.nsid).releaseTake

theorem State.takeEnded_spec (s : State) (c : Contract) : (s.takeEnded c).take.c = none ∧ (s.takeEnded c).gate.txq = s.gate.txq := by
  have hframe : forget 0x802E0000 ((s.sealNs c.nsid s.take.reason s.take.cont.length s.take.noTrailer).closeTakeGroups c.nsid) = forget 0x802E0000 s :=
    (State.forget_closeTakeGroups rfl ..).trans (State.forget_sealNs rfl ..)
  rw [State.takeEnded]
  generalize (s.sealNs c.nsid s.take.reason s.take.cont.length s.take.noTrailer).closeTakeGroups c.nsid = u at hframe
  obtain ⟨h1, h2⟩ := u.releaseTake_spec
  exact ⟨h1, h2.trans (congrArg GateSt.txq (keeps_gate hframe rfl))⟩

/-- What is sent when a take closes (R75, R111, R118). -/
def State.closeSent (s : State) (c : Contract) (top : Bytes) : State :=
  if s.take.reason = 5 ∨ s.take.reason = 6 then s
  else s.send (closedPkt c.takeId s.take.reason (DigestAlg.ofCode c.alg).len s.take.framesStored s.take.rawStored s.take.cont.length s.take.marked top)

theorem State.closeSent_spec (s : State) (c : Contract) (top : Bytes) : (s.closeSent c top).take = s.take
    ∧ (s.closeSent c top).gate.txq = s.gate.txq ++ if s.take.reason = 5 ∨ s.take.reason = 6 then []
      else [closedPkt c.takeId s.take.reason (DigestAlg.ofCode c.alg).len s.take.framesStored s.take.rawStored s.take.cont.length s.take.marked top] := by
  unfold State.closeSent
  split
  · exact ⟨rfl, (List.append_nil _).symm⟩
  · exact ⟨rfl, rfl⟩

/-- A take that ends owes a trailer where its array went offline. -/
def State.owing (s : State) (c : Contract) (x : TakeSt) : State :=
  if x.reason = 8 then s.setKeys fun k => { k with owedTrailers := k.owedTrailers ++ [(c.nsid, x)] } else s

theorem State.owing_take (s : State) (c : Contract) (x : TakeSt) : (s.owing c x).take = s.take := by
  unfold State.owing
  split <;> rfl

theorem State.owing_gate (s : State) (c : Contract) (x : TakeSt) : (s.owing c x).gate = s.gate := by
  unfold State.owing
  split <;> rfl

/-- The digest of a take's stored bytes and its trailer (R75, R117). -/
def takeTop (c : Contract) (x : TakeSt) : Bytes :=
  if x.noTrailer then [] else
    match x.trailer with
    | some (man, _, _) => digest (DigestAlg.ofCode c.alg) (manifest c.alg (x.cont.take man) man).2
    | none => []

theorem State.finishTake_of_trailer (hno : s.take.noTrailer = false) : s.finishTake c
    = (((((s.closeSent c (takeTop c s.take)).owing c s.take).takeEnded c).pulse 0x11 Ev.TAKE.CLOSED).follow).wake (· == .takeClosed) Nv.ok := by
  have htake (top : Bytes) : ((s.closeSent c top).owing c s.take).take = s.take := (State.owing_take ..).trans (s.closeSent_spec c top).1
  have hcut : (if s.take.noTrailer then s.cutTake else s) = s := if_neg (by rw [hno]; decide)
  rw [State.takeEnded, htake, State.finishTake, hcut]
  rfl

theorem takeClosed_ends (hc : s.take.c = some c) (hst : s.get R.TAKE.TAKE_STATE_STATE = 4) (hpf : s.take.pfPhase = 0) (hd : s.takeDone = true)
    (hno : s.take.noTrailer = false) :
    ∃ (t : State) (top : Bytes), exec .takeClosed s = .next t ∧ t.take.c = none
      ∧ t.gate.txq = s.gate.txq ++ if s.take.reason = 5 ∨ s.take.reason = 6 then []
          else [closedPkt c.takeId s.take.reason (DigestAlg.ofCode c.alg).len s.take.framesStored s.take.rawStored
            s.take.cont.length s.take.marked top] := by
  have hfin := State.finishTake_of_trailer (c := c) hno
  generalize takeTop c s.take = top at hfin
  have hexec : execTakeClosed s = .next (s.finishTake c) := by
    unfold execTakeClosed
    rw [hc]
    exact if_neg (by rw [hst, hpf, hd]; decide)
  obtain ⟨-, htxq⟩ := s.closeSent_spec c top
  have howing := State.owing_gate (s.closeSent c top) c s.take
  generalize (s.closeSent c top).owing c s.take = u at hfin howing
  obtain ⟨hnone, hq⟩ := u.takeEnded_spec c
  have hend : forget 0x490000420 (s.finishTake c) = forget 0x490000420 (u.takeEnded c) := by
    rw [hfin, State.forget_wake rfl, State.forget_follow rfl, State.forget_pulse rfl]
  refine ⟨_, top, hexec, (congrArg TakeSt.c (keeps_take hend rfl)).trans hnone, ?_⟩
  rw [keeps_gate hend rfl, hq, howing, htxq]

end

/-- Settles O6, an event of the lifecycle at a time. -/
theorem takeLifecycleMoves : Obligations.TakeLifecycleMoves :=
  ⟨fun _ _ _ => takeClose_closes, fun _ _ _ => takeClose_of_other, fun _ _ => takeDurationExpiry_closes, fun _ _ => takeRateBreach_holds,
    fun _ _ => takeBreachRelease_reopens, fun _ _ hc ht _ => takeRatioMeasure_restarts hc ht, fun _ _ _ hc htr hno hroom hidx hu => secureWindowPad_pads hc htr hno hroom hidx hu,
    fun _ _ _ => stripeClose_closes, fun _ _ => takeClosed_ends, fun _ _ => fallowReservationUsed_erases, fun _ _ => mediaCapacityFull_closes⟩

end Sys2Proof.Machine
end

section
/-!
Triggers and the windows of a ring take (R124-R141).
-/

namespace Sys2Proof.Machine

open Sys2Proof.Laws

/-! ### Windows -/

theorem State.win_of_trig {s t : State} (h : t.trig = s.trig) (i : Nat) : t.win i = s.win i := by rw [State.win, h, State.win]

theorem State.win_modWin (s : State) {i : Nat} (h : i < s.trig.windows.length) (f : Window → Window) : (s.modWin i f).win i = f (s.win i) := by
  show (modAt s.trig.windows i f).getD i Window.free = f (s.trig.windows.getD i Window.free)
  rw [List.getD_eq_getElem?_getD, modAt_getElem?, if_pos rfl, List.getElem?_eq_getElem h, Option.map_some, Option.getD_some,
    List.getD_eq_getElem _ _ h]

/-- A window that is not free is one of the slots. -/
theorem State.win_lt {s : State} {i : Nat} (h : (s.win i).state ≠ 0) : i < s.trig.windows.length := by
  by_contra hi
  rw [State.win, List.getD_eq_default _ _ (Nat.le_of_not_lt hi)] at h
  exact h rfl

/-! ### Triggers arrive -/

section
variable {s : State}

theorem exec_trigger (p : TriggerPkt) (h : s.bit R.TRIG.TRIG_CTRL_GATE_EN = true) : exec (.trigger p) s
    = .next ((s.leaveRx (pktType · == 0x20)).arrive 3 p.tag.toNat p.t.toNat (orDefault p.preMs.toNat (s.get R.TRIG.DEFAULT_PRE_MS))
      (orDefault p.postMs.toNat (s.get R.TRIG.DEFAULT_POST_MS))) := by
  have hget {x : Fld} (hx : x.page = 0x13) : (s.leaveRx (pktType · == 0x20)).get x = s.get x :=
    State.leaveRx_get _ _ (by rintro rfl; cases hx) (by rintro rfl; cases hx) (by rintro rfl; cases hx)
  have hen : (s.leaveRx (pktType · == 0x20)).bit R.TRIG.TRIG_CTRL_GATE_EN = true := by
    rw [State.bit, hget rfl]
    exact h
  show execTrigger p s = _
  unfold execTrigger
  simp only [hen, hget (x := R.TRIG.DEFAULT_PRE_MS) rfl, hget (x := R.TRIG.DEFAULT_POST_MS) rfl]
  rfl

/-- The state in which a pin's edge was counted. -/
def State.edgeSeen (s : State) (pin : Nat) : State := s.setTrig fun x => { x with lastEdge := modAt x.lastEdge pin fun _ => some s.time }

theorem exec_trigPinEdge {pin : Fin 3} {rising : Bool} {ns : Nat} (hns : 100 ≤ ns) (hen : bitAt (s.get R.TRIG.TRIG_CTRL_PIN_EN) pin.val = true)
    (hc : s.countsEdge pin.val rising = true) (hown : pin.val = 2 → s.trigOwnsPin2 = true)
    (hhold : ∀ e, s.trig.lastEdge.getD pin.val none = some e → e + s.get R.TRIG.PIN_HOLDOFF_US * 1000 ≤ s.time) :
    exec (.trigPinEdge pin rising ns) s
      = .next ((s.edgeSeen pin.val).arrive pin.val 0 s.time (s.get R.TRIG.DEFAULT_PRE_MS) (s.get R.TRIG.DEFAULT_POST_MS)) := by
  have hpin : ¬ (pin.val = 2 ∧ (!(s.edgeSeen pin.val).trigOwnsPin2) = true) := by
    rintro ⟨h2, h⟩
    have hsame : (s.edgeSeen pin.val).trigOwnsPin2 = s.trigOwnsPin2 := rfl
    rw [hsame, hown h2] at h
    cases h
  show execTrigPinEdge pin rising ns s = _
  unfold execTrigPinEdge
  dsimp only
  refine (if_neg ?_).trans (if_neg hpin)
  rw [hen, hc]
  cases he : s.trig.lastEdge.getD pin.val none with
  | none => simpa using hns
  | some e => simpa using ⟨hns, hhold e he⟩

theorem exec_swFire {o : Origin} (tag : BitVec 16) (hp : s.powered = true) (hr : s.reaches o 0x13 = true)
    (hen : s.bit R.TRIG.TRIG_CTRL_SW_EN = true) (hm : s.meets o (needOf (rowsAt 0x13 0x070)) = true) :
    ∃ t : State, s.Accessed t ∧ exec (.swFire o tag) s = .next (t.arrive 5 tag.toNat (s.get R.TRIG.SW_TIME_DTIME)
      (orDefault (s.get R.TRIG.SW_PRE_MS_MS) (s.get R.TRIG.DEFAULT_PRE_MS))
      (orDefault (s.get R.TRIG.SW_POST_MS_MS) (s.get R.TRIG.DEFAULT_POST_MS))) := by
  have hv : bitAt (tag.toNat + 2 ^ 31) 31 = true ∧ (tag.toNat + 2 ^ 31) % 65536 = tag.toNat := by
    have h := tag.isLt
    refine ⟨?_, by omega⟩
    have : (tag.toNat + 2 ^ 31) / 2 ^ 31 = 1 := by omega
    rw [bitAt, this]
    rfl
  obtain ⟨t, ht, h⟩ := State.regCmd_acts (off := 0x070) (v := tag.toNat + 2 ^ 31) (legal := true) (busy := false) (deny := id)
    (act := fun t => if bitAt (tag.toNat + 2 ^ 31) 31 then t.swFire ((tag.toNat + 2 ^ 31) % 65536) else t) hp hr hm rfl rfl
  have hfire : t.swFire tag.toNat = t.arrive 5 tag.toNat (s.get R.TRIG.SW_TIME_DTIME)
      (orDefault (s.get R.TRIG.SW_PRE_MS_MS) (s.get R.TRIG.DEFAULT_PRE_MS))
      (orDefault (s.get R.TRIG.SW_POST_MS_MS) (s.get R.TRIG.DEFAULT_POST_MS)) := by
    have hen' : t.bit R.TRIG.TRIG_CTRL_SW_EN = true := by
      rw [State.bit, ht.get]
      exact hen
    rw [State.swFire, hen', ht.get, ht.get, ht.get, ht.get, ht.get]
    rfl
  refine ⟨t, ht, congrArg Host.Outcome.next (h.trans ?_)⟩
  rw [hv.1, hv.2, if_pos rfl, hfire]

theorem exec_ruleSearch_hit {uid tag cls : Nat} {f : FrameSt} {key : List Nat} {u : State} (hf : s.frame? uid = some f) (hk : f.key = some key)
    (hr : f.ruled = false) (hen : s.bit R.TRIG.TRIG_CTRL_RULE_EN = true)
    (hhit : (s.modFrame uid fun g => { g with ruled := true }).ruleHit key = (some (tag, cls), u)) (hc : s.get R.TRIG.RULE_CFG_MIN_CLASS ≤ cls) :
    exec (.ruleSearch uid) s = .next (u.triggerDefault 4 tag f.capture) := by
  show execRuleSearch uid s = _
  unfold execRuleSearch
  simp only [hf, hk, hr, hen, hhit, if_pos hc]
  rfl

/-! ### The triggers of one CTL cycle -/

/-- A trigger as it waits for the end of its cycle. -/
def Fire.at_ (f : Fire) (time : Nat) : Fire := { f with cycle := time / 10 }

/-- The triggers that wait for the end of their cycle. -/
def State.awaiting (s : State) (l : List Fire) : State := s.setTrig fun x => { x with arrived := l }

theorem State.arrive_first (h : s.trig.arrived = []) (f : Fire) :
    s.arrive f.source f.tag f.t f.pre f.post = s.awaiting [f.at_ s.time] := by
  have hset (l : List Fire) : s.setTrig (fun x => { x with arrived := insertFire (f.at_ s.time) x.arrived })
      = s.awaiting (insertFire (f.at_ s.time) s.trig.arrived) := rfl
  unfold State.arrive
  simp only [h, List.all_nil, if_true]
  refine (hset []).trans ?_
  rw [h]
  rfl

theorem State.arrive_second (f g : Fire) :
    (s.awaiting [g.at_ s.time]).arrive f.source f.tag f.t f.pre f.post = s.awaiting (insertFire (f.at_ s.time) [g.at_ s.time]) := by
  have hall : (s.awaiting [g.at_ s.time]).trig.arrived.all (·.cycle == (s.awaiting [g.at_ s.time]).time / 10) = true := by
    show ([g.at_ s.time].all (·.cycle == s.time / 10)) = true
    simp [Fire.at_]
  unfold State.arrive
  rw [if_pos hall]
  rfl

theorem State.settle_awaiting (h : s.trig.arrived = []) (f g : Fire) : (s.awaiting [f.at_ s.time, g.at_ s.time]).settleTriggers
    = (s.trigger f.source f.tag f.t f.pre f.post).trigger g.source g.tag g.t g.pre g.post := by
  have hback : (s.awaiting [f.at_ s.time, g.at_ s.time]).setTrig (fun x => { x with arrived := [] }) = s := by
    show s.awaiting [] = s
    rw [← h]
    rfl
  rw [State.settleTriggers, hback]
  rfl

theorem State.settle_arrived {a b : Fire} (h : s.trig.arrived = [])
    (hab : trigPriority a.source < trigPriority b.source ∨ trigPriority a.source = trigPriority b.source ∧ a.source < b.source) :
    ((s.arrive b.source b.tag b.t b.pre b.post).arrive a.source a.tag a.t a.pre a.post).settleTriggers
        = (s.trigger a.source a.tag a.t a.pre a.post).trigger b.source b.tag b.t b.pre b.post
      ∧ ((s.arrive a.source a.tag a.t a.pre a.post).arrive b.source b.tag b.t b.pre b.post).settleTriggers
        = (s.trigger a.source a.tag a.t a.pre a.post).trigger b.source b.tag b.t b.pre b.post := by
  have hba : ¬ (trigPriority b.source < trigPriority a.source ∨ trigPriority b.source = trigPriority a.source ∧ b.source < a.source) := by omega
  have h1 : insertFire (a.at_ s.time) [b.at_ s.time] = [a.at_ s.time, b.at_ s.time] := if_pos hab
  have h2 : insertFire (b.at_ s.time) [a.at_ s.time] = [a.at_ s.time, b.at_ s.time] := if_neg hba
  rw [State.arrive_first h, State.arrive_first h, State.arrive_second, State.arrive_second, h1, h2, State.settle_awaiting h]
  exact ⟨rfl, rfl⟩

/-! ### A trigger opens a window -/

/-- The window that a trigger opens in a ring take. -/
def openedWindow (src tag a b ring nsid : Nat) (short : Bool) : Window :=
  { Window.free with state := 1, source := src, tag := tag, triggers := 1, start := a, fin := b, ring := ring, preShort := short, nsid := nsid }

/-- The state in which a trigger was accepted with a window of its own. -/
def State.opened (s : State) (i : Nat) (w : Window) : State :=
  let t := ((s.modWin i fun _ => w).bump R.TRIG.ACCEPTED_COUNT_COUNT).pulse 0x13 Ev.TRIG.ACCEPTED
  if w.preShort then t.trigErr E.TRIG_PRE_SHORT w.source (some i) else t

theorem State.opened_win {i : Nat} (h : i < s.trig.windows.length) (w : Window) : (s.opened i w).win i = w := by
  have hwin : (((s.modWin i fun _ => w).bump R.TRIG.ACCEPTED_COUNT_COUNT).pulse 0x13 Ev.TRIG.ACCEPTED).win i = w := by
    rw [State.win_of_trig (State.pulse_trig ..)]
    exact s.win_modWin h fun _ => w
  unfold State.opened
  dsimp only
  split
  · rw [State.trigErr, State.win_of_trig (State.record_trig ..)]
    exact hwin
  · exact hwin

theorem State.trigger_opens {c : Contract} {src tag time pre post i n : Nat} (hc : s.take.c = some c) (hk : c.kind = 1) (hl : s.takeLive = true)
    (hpre : pre ≤ 600000) (hpost : post ≤ 3600000) (h0 : 0 < pre + post) (ht : time ≤ s.time + 3600 * 1000000000)
    (htouch : s.touching (time - pre * 1000000) (time + post * 1000000) = [])
    (hi : (List.range (if trigPriority src ≤ 2 then 64 else 64 - s.get R.TRIG.HW_RESERVE_SLOTS)).find? (fun i => (s.win i).state == 0) = some i)
    (hn : s.takeNsid = some n) :
    s.trigger src tag time pre post = ((s.opened i (openedWindow src tag (time - pre * 1000000) (time + post * 1000000) c.takeId n
      (s.preShort (time - pre * 1000000)))).pinRetained i).pinUnderWay i := by
  have hring : ¬ (c.kind ≠ 1 ∨ (!s.takeLive) = true) := by simp [hk, hl]
  have hbad : ¬ (600000 < pre ∨ 3600000 < post ∨ pre + post = 0 ∨ s.time + 3600000000000 < time) := by omega
  unfold State.trigger
  simp only [hc]
  rw [if_neg hring, if_neg hbad]
  simp only [htouch, hi, hn]
  rfl

/-! ### Windows seal, are copied and end -/

theorem State.sealWindow_open {i : Nat} (h : (s.win i).state = 1) (cut : Bool) : ((s.sealWindow i cut).win i).state = 2
    ∧ ((s.sealWindow i cut).win i).pinned = (s.win i).pinned ∧ (s.sealWindow i cut).time = s.time := by
  have hlt : i < s.trig.windows.length := State.win_lt (by rw [h]; decide)
  rw [State.sealWindow, if_neg (not_not_intro h), State.win_of_trig (State.pulse_trig ..), State.win_modWin _ hlt, State.pulse_time]
  exact ⟨rfl, rfl, rfl⟩

/-- The time at which an open window is settled. -/
def State.settledAt (s : State) (i : Nat) : State := { s with time := max s.time ((s.win i).fin + s.get R.TRIG.SETTLE_MS * 1000000) }

theorem exec_windowSeal {slot : Fin 64} (h : (s.settleTriggers.win slot.val).state = 1) :
    exec (.windowSeal slot) s = .next ((s.settleTriggers.settledAt slot.val).sealWindow slot.val false) :=
  if_neg (not_not_intro h)

/-- The state in which a kept take has its namespace, its header and its catalogue entry, its bytes not yet copied. -/
def State.keptStart (v : State) (slot id : Nat) (n : Ns) (cont : Bytes) (spans : List (Nat × List (Nat × List Nat))) : State :=
  let u := v.setTake fun x => { x with nextId := id + 1 }
  let u := { u with ns := u.ns ++ [n] }
  let u := u.modWin slot fun w => { w with state := 3, keptId := id }
  let u := u.setTrig fun x => { x with copies := x.copies ++ [(slot, cont, 0)] }
  ((spans.foldl (fun v x => v.enterSpan id x.1 x.2) u).catalogChanged).nsChanged n

theorem State.keptStart_win (v : State) {slot : Nat} (h : slot < v.trig.windows.length) (id : Nat) (n : Ns) (cont : Bytes)
    (spans : List (Nat × List (Nat × List Nat))) : (v.keptStart slot id n cont spans).win slot = { v.win slot with state := 3, keptId := id } := by
  have hend (u : State) : (((spans.foldl (fun v x => v.enterSpan id x.1 x.2) u).catalogChanged).nsChanged n).trig = u.trig :=
    (keeps_trig (State.forget_nsChanged (T := 0x80000000) rfl ..) rfl).trans ((keeps_trig (State.forget_catalogChanged (T := 0x80000000) rfl ..) rfl).trans
      (keeps_trig (foldl_frame 0x20000020 _ (fun v x => State.forget_enterSpan rfl ..) ..) rfl))
  rw [State.keptStart]
  simp only []
  rw [State.win_of_trig (hend _)]
  exact v.win_modWin h fun w => { w with state := 3, keptId := id }

theorem exec_windowCopyStart {t₀ t₁ : State} {slot : Fin 64} {ring : Ns} {head : Bytes} {rec k : Nat} (hw : (s.win slot.val).state = 2)
    (hp : s.pinnedSecured (s.win slot.val) = true) (hr : s.nsOfTake (s.win slot.val).ring = some ring)
    (h0 : s.readTake ring 0 8192 = (some head, t₀)) (h1 : t₀.newMediaKey (s.win slot.val).nsid = (some (rec, k), t₁)) :
    ∃ n cont spans, exec (.windowCopyStart slot) s
      = .next (((t₁.windowRecords ring (s.win slot.val)).2.keptStart slot.val t₁.take.nextId n cont spans).copyKept slot.val) := by
  have hgo : ¬ ((s.win slot.val).state ≠ 2 ∨ (!s.pinnedSecured (s.win slot.val)) = true) := by simp [hw, hp]
  show ∃ n cont spans, execWindowCopyStart slot s = _
  unfold execWindowCopyStart
  dsimp only [State.keptStart]
  rw [if_neg hgo, hr]
  simp only [h0, h1]
  exact ⟨_, _, _, rfl⟩

/-- Reading a ring's windows and making a key leave the windows alone. -/
theorem State.windowRecords_trig {t₀ t₁ : State} {ring : Ns} {head : Bytes} {r : Nat × Nat} {nsid : Nat}
    (h0 : s.readTake ring 0 8192 = (some head, t₀)) (h1 : t₀.newMediaKey nsid = (some r, t₁)) (w : Window) :
    (t₁.windowRecords ring w).2.trig = s.trig := by
  have ht0 := keeps_trig (State.forget_readTake (T := 0x480120420) rfl s ring 0 8192) rfl
  have ht1 := keeps_trig (State.forget_newMediaKey (T := 0x8001e0024) rfl t₀ nsid) rfl
  rw [h0] at ht0
  rw [h1] at ht1
  exact (keeps_trig (State.forget_windowRecords (T := 0x480120420) rfl ..) rfl).trans (ht1.trans ht0)

/-- The groups of a kept take are closed, and its namespace holds what was copied. -/
def State.keptClosed (s : State) (w : Window) : State :=
  (s.modNs w.nsid fun n =>
    { n with nuse := n.nsze, tk := n.tk.map fun k => { k with
               opened := false, fin := s.time, flags := b2n w.preShort + b2n w.cut * 2 + b2n w.late * 4 } }).closeTakeGroups w.nsid

/-- A slot's copy is over, and the segments that only its window pinned are free. -/
def State.endCopy (s : State) (slot : Nat) : State :=
  let t := s.setTrig fun k => { k with copies := k.copies.filter (·.1 != slot) }
  t.setTrig fun k => { k with drawn := k.drawn.filter t.pinnedSegs.contains, short := k.short.filter t.pinnedSegs.contains }

theorem State.endCopy_win (s : State) (slot i : Nat) : (s.endCopy slot).win i = s.win i := rfl

theorem State.endCopy_regs (s : State) (slot : Nat) : (s.endCopy slot).regs = s.regs := rfl

/-- The state in which a kept take is closed and its slot is free, before the catalogue shows it. -/
def State.keptEnd (s : State) (slot : Nat) : State := ((s.keptClosed (s.win slot)).modWin slot fun _ => Window.free).endCopy slot

theorem State.keptClosed_frame (w : Window) : forget 0x2E0000 (s.keptClosed w) = forget 0x2E0000 s :=
  (State.forget_closeTakeGroups rfl ..).trans (State.forget_modNs rfl ..)

theorem State.keptEnd_win {slot : Nat} (h : slot < s.trig.windows.length) : (s.keptEnd slot).win slot = Window.free := by
  rw [State.keptEnd, State.endCopy_win, State.win_modWin]
  rw [keeps_trig (State.keptClosed_frame _) rfl]
  exact h

theorem State.modWin_regs (s : State) (i : Nat) (f : Window → Window) : (s.modWin i f).regs = s.regs := rfl

theorem State.keptEnd_get (slot : Nat) (x : Fld) : (s.keptEnd slot).get x = s.get x :=
  State.get_of_regs ((State.endCopy_regs ..).trans ((State.modWin_regs ..).trans (keeps_regs (State.keptClosed_frame _) rfl))) x

/-- A kept take is counted and shown. -/
def State.keptCounted (s : State) (nsid : Nat) : State :=
  let t := ((s.bump R.TRIG.KEPT_COUNT_COUNT).pulse 0x13 Ev.TRIG.KEPT).catalogChanged
  match t.nsOf nsid with
  | some n => t.nsChanged n
  | none => t

theorem State.keptCounted_frame (nsid : Nat) :
    forget 0x80000000 (s.keptCounted nsid) = forget 0x80000000 ((s.bump R.TRIG.KEPT_COUNT_COUNT).pulse 0x13 Ev.TRIG.KEPT) := by
  unfold State.keptCounted
  dsimp only
  split
  · exact (State.forget_nsChanged rfl ..).trans (State.forget_catalogChanged rfl ..)
  · exact State.forget_catalogChanged rfl ..

theorem exec_keptTakeSealed {slot : Fin 64} {x : Nat × Bytes × Nat} (hx : (s.copyKept slot.val).trig.copies.find? (·.1 == slot.val) = some x)
    (hw : ((s.copyKept slot.val).win slot.val).state = 3) (hl : x.2.1.length ≤ x.2.2)
    (ho : ((s.copyKept slot.val).openLogicals ((s.copyKept slot.val).win slot.val).nsid).isEmpty = true) :
    exec (.keptTakeSealed slot) s
      = .next (((s.copyKept slot.val).keptEnd slot.val).keptCounted ((s.copyKept slot.val).win slot.val).nsid) := by
  show execKeptTakeSealed slot s = _
  unfold execKeptTakeSealed
  generalize s.copyKept slot.val = u at *
  have hgo : ¬ ((u.win slot.val).state ≠ 3 ∨ x.2.2 < x.2.1.length ∨ (!(u.openLogicals (u.win slot.val).nsid).isEmpty) = true) := by
    rw [hw, ho]
    simpa using hl
  simp only [hx]
  rw [if_neg hgo]
  dsimp only [State.keptCounted, State.keptEnd, State.keptClosed, State.endCopy]
  split
  next h => simp only [h]
  next h => simp only [h]

end

/-- Settles O10: each trigger and each step of a window by its equation, the order within a cycle by that of the list of those that arrived. -/
theorem triggersAndWindows : Obligations.TriggersAndWindows := by
  unfold Obligations.TriggersAndWindows
  refine ⟨?_, ?_, ?_, ?_, ?_, ?_, ?_, ?_, ?_⟩
  · exact fun s p h => ⟨_, exec_trigger p h, keeps_trig (State.forget_leaveRx (T := 0x480001020) rfl ..) rfl, State.leaveRx_take ..⟩
  · exact fun s pin rising ns hns hen hc hown hhold => ⟨_, exec_trigPinEdge hns hen hc hown hhold, rfl, rfl⟩
  · intro s o tag hp hr hen
    have hneed : needOf (rowsAt 0x13 0x070) = .none := by decide
    obtain ⟨t, ht, h⟩ := exec_swFire tag hp hr hen (by rw [hneed]; rfl)
    exact ⟨t, h, keeps_trig ht.1 rfl, keeps_take ht.1 rfl⟩
  · exact fun s u uid f key tag cls hf hk hr hen hhit hc => exec_ruleSearch_hit hf hk hr hen hhit hc
  · intro s c src tag time pre post i n hc hk hl hpre hpost h0 ht htouch hi hlen hn
    have hi64 : i < s.trig.windows.length := by
      have := List.mem_range.mp (List.mem_of_find?_eq_some hi)
      rw [hlen]
      split at this <;> omega
    refine ⟨_, State.trigger_opens hc hk hl hpre hpost h0 ht htouch hi hn, ?_⟩
    rw [State.opened_win hi64]
    exact ⟨rfl, rfl, rfl, rfl, rfl, rfl⟩
  · exact fun s a b h hab => State.settle_arrived h hab
  · rintro s u slot rfl h
    exact ⟨_, exec_windowSeal h, State.sealWindow_open (s := s.settleTriggers.settledAt slot.val) h false⟩
  · intro s t₀ t₁ slot ring head rec k hw hp hr h0 h1
    obtain ⟨n, cont, spans, hexec⟩ := exec_windowCopyStart hw hp hr h0 h1
    have hlt : slot.val < (t₁.windowRecords ring (s.win slot.val)).2.trig.windows.length := by
      rw [State.windowRecords_trig h0 h1]
      exact State.win_lt (by rw [hw]; decide)
    refine ⟨_, hexec, ?_⟩
    rw [State.keptStart_win _ hlt]
    exact ⟨rfl, rfl⟩
  · rintro s u slot x rfl hx hw hl ho
    have hlt : slot.val < (s.copyKept slot.val).trig.windows.length := State.win_lt (by rw [hw]; decide)
    refine ⟨_, exec_keptTakeSealed hx hw hl ho, ?_, ?_⟩
    · rw [State.win_of_trig (keeps_trig (State.keptCounted_frame _) rfl), State.win_of_trig (State.pulse_trig ..)]
      rw [State.bump, State.win_of_trig (State.put_trig ..), State.keptEnd_win hlt]
      rfl
    · rw [State.get_of_regs (keeps_regs (State.keptCounted_frame _) rfl), State.pulse_get_beyond _ _ _ rfl, State.get_bump_same, State.keptEnd_get]
      rfl

end Sys2Proof.Machine
end

section
/-!
Shears lanes: take slices, re-emissions and jobs (R166-R182).
-/

namespace Sys2Proof.Machine

open Sys2Proof.Laws

/-! ### Lanes -/

section
variable (s : State) {l : Nat} (f : LaneSt → LaneSt)

theorem State.modLane_lane_same (hl : l < 12) : (s.modLane l f).lane l = f (s.lane l) := by
  simp only [State.modLane, State.lane, dif_pos hl]
  exact Vector.getElem_set_self hl

theorem State.modLane_lane_other {m : Nat} (hm : m ≠ l) : (s.modLane l f).lane m = s.lane m := by
  unfold State.modLane
  split
  case isTrue hl =>
    simp only [State.lane]
    split
    case isTrue h => exact Vector.getElem_set_ne hl h hm.symm
    case isFalse => rfl
  case isFalse => rfl

/-- A change of a lane's work shows in two fields of its status. -/
theorem State.modLane_get {x : Fld} (h0 : (x.off, x.lo) ≠ (0x040, 0)) (h8 : (x.off, x.lo) ≠ (0x040, 8)) : (s.modLane l f).get x = s.get x := by
  have hne {y : Fld} (h : (x.off, x.lo) ≠ (y.off, y.lo)) : x ≠ y := fun e => h (by rw [e])
  unfold State.modLane
  split
  · simp only [State.puts_cons, State.puts_nil]
    rw [State.get_put_other _ _ (hne h8), State.get_put_other _ _ (hne h0)]
    rfl
  · rfl

theorem State.modLane_frame : forget 0x8020 (s.modLane l f) = forget 0x8020 s := State.forget_modLane rfl s l f

end

/-- Lanes stand alike in two states: live, reserved, and with the same work. -/
theorem State.laneLive_of_get {s t : State} {m : Nat} (hr : t.get (R.LANE.LANE_STATUS_RETIRED m) = s.get (R.LANE.LANE_STATUS_RETIRED m))
    (he : t.get (H.ENABLE (0x18 + m)) = s.get (H.ENABLE (0x18 + m))) : t.laneLive m = s.laneLive m := by
  rw [State.laneLive, hr, he, State.laneLive]

theorem State.modLane_laneLive (s : State) (l : Nat) (f : LaneSt → LaneSt) (m : Nat) : (s.modLane l f).laneLive m = s.laneLive m :=
  State.laneLive_of_get (s.modLane_get f (by simp [R.LANE.LANE_STATUS_RETIRED]) (by simp [R.LANE.LANE_STATUS_RETIRED]))
    (s.modLane_get f (by simp [H.ENABLE]) (by simp [H.ENABLE]))

theorem State.modLane_laneReserved (s : State) (l : Nat) (f : LaneSt → LaneSt) (m : Nat) : (s.modLane l f).laneReserved m = s.laneReserved m := by
  rw [State.laneReserved, State.bit, s.modLane_get f (by simp [R.LANE.LANE_STATUS_RESERVED]) (by simp [R.LANE.LANE_STATUS_RESERVED])]
  rfl

theorem State.resumeLane_work (s : State) {l : Nat} (hl : l < 12) : ((s.resumeLane l).lane l).work = (s.lane l).held.headD .idle := by
  rw [State.resumeLane, s.modLane_lane_same _ hl]

theorem State.resumeLane_frame (s : State) (l : Nat) : forget 0x8020 (s.resumeLane l) = forget 0x8020 s := s.modLane_frame _

/-! ### Slices -/

theorem State.slice?_of_take {s t : State} (h : t.take = s.take) (uid idx : Nat) : t.slice? uid idx = s.slice? uid idx := by
  rw [State.slice?, h, State.slice?]

theorem State.slice?_modSlice {s : State} {uid idx : Nat} {x : TakeSlice} (h : s.slice? uid idx = some x) {f : TakeSlice → TakeSlice}
    (hf : ∀ y, (f y).uid = y.uid ∧ (f y).idx = y.idx) : (s.modSlice uid idx f).slice? uid idx = some (f x) := by
  have hmap := find?_map_if (fun y : TakeSlice => y.uid == uid && y.idx == idx) (g := f) (fun y hy => by rw [(hf y).1, (hf y).2, hy]) s.take.slices
  exact hmap.trans (congrArg (Option.map f) h)

section
variable {s : State} {lane : Fin 12} {uid idx : Nat}

theorem exec_shearsBlockVerified {n : Nat} {f : FrameSt} {x : TakeSlice} (hw : (s.lane lane.val).work = .slice uid idx n) (hf : s.frame? uid = some f)
    (hx : s.slice? uid idx = some x) (ok : Bool) : exec (.shearsBlockVerified lane ok) s
      = .next (if ok then if n + 1 < sliceBlocks f x then s.modLane lane.val fun y => { y with work := .slice uid idx (n + 1) }
          else s.sliceDone lane.val uid idx
        else (((s.resumeLane lane.val).laneMiss lane.val n 0x1F1 false).startReemit uid idx lane.val).dispatchSlices) := by
  show execShearsBlockVerified lane ok s = _
  unfold execShearsBlockVerified
  simp only [hw, hf, hx]
  split
  · split <;> rfl
  · rfl

/-- The state in which a slice that is verified leaves its lane. -/
theorem State.sliceDone_of_open {c : Contract} {f : FrameSt} {x : TakeSlice} {l : Nat} (hc : s.take.c = some c) (hf : s.frame? uid = some f)
    (hx : s.slice? uid idx = some x) : ∃ t : State, s.sliceDone l uid idx = (t.resumeLane l).dispatchSlices
      ∧ t.slice? uid idx = some { x with status := .verified } ∧ t.lanes = s.lanes := by
  refine ⟨(((s.bump (R.LANE.BYTES_IN_BYTES l) x.raw.raw.length).bump (R.LANE.BYTES_OUT_BYTES l) (sliceBody c f x).length).bump
      (R.LANE.BLOCKS_OUT_COUNT l) (sliceCount c f x)).modSlice uid idx fun y => { y with status := .verified }, ?_, ?_, rfl⟩
  · simp only [State.sliceDone, hc, hf, hx]
  · exact State.slice?_modSlice (f := fun y => { y with status := .verified }) hx fun _ => ⟨rfl, rfl⟩

/-- The state after a re-emission's end was counted. -/
def State.reemitted (s : State) (l : Nat) : State :=
  ((s.bump (R.LANE.REEMIT_COUNT_COUNT l)).bump R.SHEARS.REEMISSIONS_COUNT).pulse (lanePage l) Ev.LANE.REEMITTED

theorem State.reemitted_frame (s : State) (l : Nat) : forget 0x480000020 (s.reemitted l) = forget 0x480000020 s :=
  (State.forget_pulse rfl ..).trans rfl

theorem State.reemitted_get (s : State) (l : Nat) : (s.reemitted l).get (R.LANE.REEMIT_COUNT_COUNT l)
    = min (s.get (R.LANE.REEMIT_COUNT_COUNT l) + 1) (2 ^ 32 - 1) := by
  rw [State.reemitted, State.pulse_get_beyond _ _ _ rfl, State.get_bump_of_place _ _ rfl, State.get_bump_same]
  rfl

theorem exec_shearsReemitDone_ok (hw : (s.lane lane.val).work = .reemit uid idx) :
    exec (.shearsReemitDone lane none) s = .next ((s.reemitted lane.val).sliceDone lane.val uid idx) := by
  show execShearsReemitDone lane none s = _
  unfold execShearsReemitDone
  simp only [hw]
  rfl

theorem exec_shearsReemitDone_miss {x : TakeSlice} {b : Nat} (hw : (s.lane lane.val).work = .reemit uid idx) (hx : s.slice? uid idx = some x)
    (hb : b < x.rawBlocks) : exec (.shearsReemitDone lane (some b)) s = .next (if x.tries < 2 then
      ((((s.reemitted lane.val).resumeLane lane.val).laneMiss lane.val b 0x1F1 true).startReemit uid idx lane.val).dispatchSlices
      else ((((s.reemitted lane.val).resumeLane lane.val).laneMiss lane.val b 0x1F1 true).loseSlice uid idx lane.val).dispatchSlices) := by
  have hx' : (s.reemitted lane.val).slice? uid idx = some x := (State.slice?_of_take (keeps_take (s.reemitted_frame _) rfl) ..).trans hx
  unfold State.reemitted at hx' ⊢
  show execShearsReemitDone lane (some b) s = _
  unfold execShearsReemitDone
  simp only [hw, hx', Option.map_some, Option.getD_some, Nat.mod_eq_of_lt hb]
  split <;> rfl

/-- A slice that is given up is lost, and its frame damaged (R170). -/
theorem State.loseSlice_spec {x : TakeSlice} {f : FrameSt} {l : Nat} (hx : s.slice? uid idx = some x) (hf : s.frame? uid = some f) :
    (s.loseSlice uid idx l).slice? uid idx = some { x with status := .lost }
    ∧ (s.loseSlice uid idx l).frame? uid = some { f with marks := mark f.marks 2 }
    ∧ (s.loseSlice uid idx l).get R.SHEARS.LOST_SLICES_COUNT = min (s.get R.SHEARS.LOST_SLICES_COUNT + 1) (2 ^ 32 - 1) := by
  have hs := State.slice?_modSlice (f := fun y => { y with status := .lost }) hx fun _ => ⟨rfl, rfl⟩
  have hm := State.frame?_modFrame (s := s.modSlice uid idx fun y => { y with status := .lost }) (uid := uid) (f := f)
    hf (g := fun f => { f with marks := mark f.marks 2 }) fun _ => rfl
  unfold State.loseSlice
  refine ⟨?_, ?_, ?_⟩
  · rw [State.slice?_of_take (State.record_take ..), State.slice?_of_take (State.pulse_take ..)]
    exact hs
  · rw [State.frame?_of_take (State.record_take ..), State.frame?_of_take (State.pulse_take ..)]
    exact hm
  · rw [State.record_get_beyond _ _ _ _ _ _ _ rfl, State.pulse_get_beyond _ _ _ rfl, State.get_bump_same]
    rfl

end

/-! ### Jobs that wait for a lane -/

section
variable {s : State}

/-- Without a slice that waits for a lane, only jobs are given lanes. -/
theorem State.dispatchSlices_of_none (h : (s.take.slices.all (·.status != .waiting)) = true) : s.dispatchSlices = s.unparkJobs := by
  have hnone : s.take.slices.filter (·.status == .waiting) = [] := by
    rw [List.filter_eq_nil_iff]
    intro x hx
    have := List.all_eq_true.mp h x hx
    simpa using this
  rw [State.dispatchSlices, hnone]
  rfl

theorem State.unparkJobs_of_no_lane (h : ((List.range 12).find? fun m => !s.laneReserved m && s.laneFree m) = none) : s.unparkJobs = s := by
  unfold State.unparkJobs
  generalize s.jobs.parked = l
  induction l with
  | nil => rfl
  | cons d l ih =>
    rw [List.foldl_cons]
    simp only [h]
    exact ih

theorem State.unparkJobs_of_one {d : JobDone} {m : Nat} (hp : s.jobs.parked = [d])
    (h : ((List.range 12).find? fun m => !s.laneReserved m && s.laneFree m) = some m) :
    (s.unparkJobs.lane m).work = .job d ∧ s.unparkJobs.jobs.parked = [] := by
  have hm : m < 12 := List.mem_range.mp (List.mem_of_find?_eq_some h)
  have he : s.unparkJobs = (s.modLane m fun y => { y with work := .job d }).setJobs fun j =>
      { j with parked := j.parked.filter (·.job.id != d.job.id) } := by
    rw [State.unparkJobs, hp, List.foldl_cons, List.foldl_nil]
    simp only [h]
  rw [he]
  refine ⟨congrArg LaneSt.work (s.modLane_lane_same _ hm), ?_⟩
  have hj : (s.modLane m fun y => { y with work := .job d }).jobs.parked = [d] :=
    (congrArg JobsSt.parked (keeps_jobs (s.modLane_frame _) rfl)).trans hp
  rw [State.setJobs_jobs, hj]
  simp

end

/-! ### What a job's run leaves -/

theorem writeSpans_regs (func : Nat) (ps : List (Nat × Nat)) (bs : Bytes) (acc : List (Nat × Nat)) (s : State) :
    (∀ t, writeSpans func ps bs acc s = .ok t → t.regs = s.regs) ∧ ∀ e, writeSpans func ps bs acc s = .error e → e.2.2.regs = s.regs := by
  induction ps generalizing bs acc s with
  | nil => exact ⟨fun t h => by rw [← Except.ok.inj h], fun e h => nomatch h⟩
  | cons p ps ih =>
    obtain ⟨a, n⟩ := p
    unfold writeSpans
    split
    · exact ⟨fun t h => by rw [← Except.ok.inj h], fun e h => nomatch h⟩
    · simp only []
      cases hw : s.xwrite func a (bs.take (min n bs.length)) with
      | ok t =>
        have ht : t.regs = s.regs := by
          unfold State.xwrite at hw
          split at hw
          · cases hw
          · rw [← Except.ok.inj hw]
        simp only []
        obtain ⟨h1, h2⟩ := ih (bs.drop (min n bs.length)) (acc ++ [(a, min n bs.length)]) t
        exact ⟨fun u h => (h1 u h).trans ht, fun e h => (h2 e h).trans ht⟩
      | error v =>
        simp only []
        exact ⟨fun t h => (nomatch h), fun e h => by rw [← Except.error.inj h]⟩

theorem State.shearsFail_get (s : State) (j : Job) (status reemits : Nat) (spans : List (Nat × Nat)) (x : Fld) :
    (s.shearsFail j status reemits spans).2.get x = s.get x :=
  State.get_of_regs (keeps_regs (State.forget_shearsFail (T := 0x400004) rfl ..) rfl) x

section
variable {x : Fld} (hx : x.page ≠ 0xB2)
include hx

theorem State.xlateFault_get (s : State) (func va unit : Nat) (wr fetch engine : Bool) : (s.xlateFault func va unit wr fetch engine).get x = s.get x := by
  have hne {y : Fld} (hy : y.page = 0xB2) : x ≠ y := fun e => hx ((congrArg Fld.page e).trans hy)
  unfold State.xlateFault
  rw [apply_ite (State.get · x)]
  simp only [State.putBit]
  rw [State.record_get_of_page _ hx, State.pulse_get_of_page _ hx, State.get_bump_other _ _ (hne rfl), State.get_put_other _ _ (hne rfl),
    State.get_put_other _ _ (hne rfl), State.get_put_other _ _ (hne rfl), State.get_put_other _ _ (hne rfl), State.get_put_other _ _ (hne rfl),
    ite_self]

theorem State.shearsPlace_get (s : State) (j : Job) (reemits used crc blocks : Nat) (out : Bytes) :
    (s.shearsPlace j reemits used crc blocks out).2.get x = s.get x := by
  unfold State.shearsPlace
  simp only []
  split
  · rw [State.shearsFail_get, State.xlateFault_get hx]
  · exact State.shearsFail_get ..
  · exact State.shearsFail_get ..
  · split
    next h => rw [State.shearsFail_get, State.xlateFault_get hx, State.get_of_regs ((writeSpans_regs ..).2 _ h)]
    next h =>
      exact (State.get_of_regs (keeps_regs (State.forget_shearsRecord (T := 0x4) rfl ..) rfl) x).trans
        (State.get_of_regs ((writeSpans_regs ..).1 _ h) x)

theorem State.shearsJob_get (s : State) (j : Job) (bad : List Nat) : (s.shearsJob j bad).2.get x = s.get x := by
  unfold State.shearsJob
  simp only []
  split
  · exact State.get_of_regs (keeps_regs (State.forget_shearsRecord (T := 0x4) rfl ..) rfl) x
  · split
    · rw [State.shearsFail_get, State.xlateFault_get hx]
    · split
      · exact State.shearsPlace_get hx ..
      · rw [State.shearsFail_get]
        exact State.get_of_regs (keeps_regs (State.forget_freeSpans (T := 0x4) rfl ..) rfl) x

end

/-- A record names the job that it is of. -/
theorem State.shearsJob_job (s : State) (j : Job) (bad : List Nat) : (s.shearsJob j bad).1.job = j := by
  have hplace (s : State) (reemits used crc blocks : Nat) (out : Bytes) : (s.shearsPlace j reemits used crc blocks out).1.job = j := by
    unfold State.shearsPlace
    simp only []
    split
    · rfl
    · rfl
    · rfl
    · split <;> rfl
  unfold State.shearsJob
  simp only []
  split
  · rfl
  · split
    · rfl
    · split
      · exact hplace ..
      · rfl

/-! ### A job whose blocks mismatch (R169) -/

/-- A mismatch is counted, shown and recorded. -/
def State.showMiss (s : State) (l block func : Nat) : State :=
  ((((s.bump (R.LANE.MISMATCH_COUNT_COUNT l)).bump R.SHEARS.VERIFY_MISMATCHES_COUNT).put (R.LANE.LAST_MISMATCH_BLOCK l) block).pulse (lanePage l)
    Ev.LANE.VERIFY_MISMATCH).record (lanePage l) E.SHEARS_VERIFY_MISMATCH (shearsInfo l func 0) func

/-- The mismatches of a lane within the last second, a new one added. -/
def LaneSt.missedAt (y : LaneSt) (time : Nat) : LaneSt := { y with misses := (y.misses.filter fun x => decide (time < x + 1000000000)) ++ [time] }

/-- A lane's mismatch before the lane's retirement is considered. -/
def State.countMiss (s : State) (l block func : Nat) : State := (s.showMiss l block func).modLane l fun y => y.missedAt s.time

theorem State.laneMiss_eq (s : State) (l block func : Nat) (stored : Bool) : s.laneMiss l block func stored
    = if stored || decide ((s.countMiss l block func).get R.SHEARS.RETIRE_LIMIT_MISMATCHES ≤ ((s.countMiss l block func).lane l).misses.length) then
        (s.countMiss l block func).retireLane l
      else s.countMiss l block func := rfl

section
variable (s : State) {l : Nat} (block func : Nat)

/-- A state's lanes and the registers that give them work. -/
def State.lanesAlike (s t : State) : Prop :=
  (∀ m < 12, (t.lane m).work = (s.lane m).work) ∧ (∀ m, t.laneLive m = s.laneLive m) ∧ (∀ m, t.laneReserved m = s.laneReserved m)
    ∧ t.get R.SHEARS.RETIRE_LIMIT_MISMATCHES = s.get R.SHEARS.RETIRE_LIMIT_MISMATCHES

theorem State.lanesAlike.trans {s t u : State} (h : s.lanesAlike t) (g : t.lanesAlike u) : s.lanesAlike u :=
  ⟨fun m hm => (g.1 m hm).trans (h.1 m hm), fun m => (g.2.1 m).trans (h.2.1 m), fun m => (g.2.2.1 m).trans (h.2.2.1 m), g.2.2.2.trans h.2.2.2⟩

/-- Lanes and the places of registers that tell which of them may work. -/
theorem State.lanesAlike_of_get {s t : State} (hl : t.lanes = s.lanes) (hr : ∀ x : Fld, x.off = 0x008 ∨ x.off = 0x040 ∨ x = R.SHEARS.RETIRE_LIMIT_MISMATCHES →
    t.get x = s.get x) : s.lanesAlike t := by
  refine ⟨fun m _ => by rw [State.lane, hl, State.lane], fun m => State.laneLive_of_get (hr _ (.inr (.inl rfl))) (hr _ (.inl rfl)), fun m => ?_,
    hr _ (.inr (.inr rfl))⟩
  rw [State.laneReserved, State.bit, hr _ (.inr (.inl rfl))]
  rfl

theorem State.pulse_get_lane (page bit : Nat) {x : Fld} (h : x.off = 0x008 ∨ 0x040 ≤ x.off) : (s.pulse page bit).get x = s.get x :=
  State.pulse_get_other _ _ _ (fun e => by simp [e, H.STICKY] at h) (fun e => by simp [e, H.COUNT] at h)

theorem State.record_get_lane (page code info func ext last : Nat) {x : Fld} (h : x.off = 0x008 ∨ 0x040 ≤ x.off) :
    (s.record page code info func ext last).get x = s.get x := by
  rcases h with h | h
  · exact State.record_get_below _ (by omega) ..
  · exact State.record_get_beyond _ _ _ _ _ _ _ (Nat.ble_eq_true_of_le h)

theorem State.showMiss_lanes (l : Nat) : (s.showMiss l block func).lanes = s.lanes :=
  (keeps_lanes (State.forget_record (T := 0x480000420) rfl ..) rfl).trans ((keeps_lanes (State.forget_pulse (T := 0x480000020) rfl ..) rfl).trans rfl)

theorem State.showMiss_alike (hl : l < 12) : s.lanesAlike (s.showMiss l block func) := by
  refine State.lanesAlike_of_get (s.showMiss_lanes block func l) fun x hx => ?_
  have hoff : x.off = 0x008 ∨ 0x040 ≤ x.off := by
    rcases hx with h | h | rfl
    · exact .inl h
    · exact .inr (by omega)
    · exact .inr (by decide)
  have hne {y : Fld} (h1 : y.off ≠ 0x008) (h2 : y.off ≠ 0x040) (h3 : y.off ≠ 0x048 ∨ y.page ≠ 0x24) : x ≠ y := by
    rintro rfl
    rcases hx with h | h | rfl
    · exact h1 h
    · exact h2 h
    · exact absurd h3 (by decide)
  unfold State.showMiss
  rw [State.record_get_lane _ _ _ _ _ _ _ hoff, State.pulse_get_lane _ _ _ hoff, State.get_put_other, State.get_bump_other, State.get_bump_other]
  · refine hne (by simp [R.LANE.MISMATCH_COUNT_COUNT]) (by simp [R.LANE.MISMATCH_COUNT_COUNT]) (.inr ?_)
    simp only [R.LANE.MISMATCH_COUNT_COUNT]
    omega
  · exact hne (by decide) (by decide) (by decide)
  · exact hne (by simp [R.LANE.LAST_MISMATCH_BLOCK]) (by simp [R.LANE.LAST_MISMATCH_BLOCK]) (.inl (by simp [R.LANE.LAST_MISMATCH_BLOCK]))

theorem State.modLane_alike (l : Nat) (f : LaneSt → LaneSt) (hf : ∀ y, (f y).work = y.work) : s.lanesAlike (s.modLane l f) := by
  refine ⟨fun m hm => ?_, fun m => State.modLane_laneLive .., fun m => State.modLane_laneReserved .., s.modLane_get _ (by decide) (by decide)⟩
  by_cases h : m = l
  · subst h
    rw [s.modLane_lane_same _ hm, hf]
  · rw [s.modLane_lane_other _ h]

theorem State.countMiss_alike (hl : l < 12) : s.lanesAlike (s.countMiss l block func) :=
  (s.showMiss_alike block func hl).trans (State.modLane_alike _ l (fun y => y.missedAt s.time) fun _ => rfl)

theorem State.countMiss_misses (hl : l < 12) (m : Nat) :
    ((s.countMiss l block func).lane m).misses.length ≤ (s.lane m).misses.length + 1 := by
  have hlane : (s.showMiss l block func).lane m = s.lane m := by rw [State.lane, s.showMiss_lanes, State.lane]
  by_cases h : m = l
  · subst h
    rw [State.countMiss, State.modLane_lane_same _ _ hl, hlane, LaneSt.missedAt, List.length_append, List.length_singleton]
    exact Nat.succ_le_succ (List.length_filter_le ..)
  · rw [State.countMiss, State.modLane_lane_other _ _ h, hlane]
    exact Nat.le_succ _

theorem State.reemitted_alike (m : Nat) : s.lanesAlike (s.reemitted m) := by
  refine State.lanesAlike_of_get (keeps_lanes (s.reemitted_frame m) rfl) fun x hx => ?_
  have hoff : x.off = 0x008 ∨ 0x040 ≤ x.off := by
    rcases hx with h | h | rfl
    · exact .inl h
    · exact .inr (by omega)
    · exact .inr (by decide)
  have hne {y : Fld} (h1 : y.off ≠ 0x008) (h2 : y.off ≠ 0x040) (h3 : y.off ≠ 0x048) : x ≠ y := by
    rintro rfl
    rcases hx with h | h | rfl
    · exact h1 h
    · exact h2 h
    · exact h3 rfl
  rw [State.reemitted, State.pulse_get_lane _ _ _ hoff, State.get_bump_other _ _ (hne (by decide) (by decide) (by decide)), State.get_bump_other]
  exact hne (by simp [R.LANE.REEMIT_COUNT_COUNT]) (by simp [R.LANE.REEMIT_COUNT_COUNT]) (by simp [R.LANE.REEMIT_COUNT_COUNT])

/-- The next lane for a job's block is one of the twelve, where an unreserved one lives. -/
theorem State.nextJobLane_of_live (hl : l < 12) (hv : s.laneLive l = true) (hr : s.laneReserved l = false) (from_ : Nat) :
    ∃ m, s.nextJobLane from_ = some m ∧ m < 12 := by
  have hmem : l ∈ (List.range 12).map fun i => (from_ + 1 + i) % 12 :=
    List.mem_map.mpr ⟨(l + 12 * from_ + 11 - from_) % 12, List.mem_range.mpr (Nat.mod_lt _ (by decide)), by omega⟩
  have hsome : ((List.range 12).map fun i => (from_ + 1 + i) % 12).find? (fun x => s.laneLive x && !s.laneReserved x) ≠ none := by
    rw [ne_eq, List.find?_eq_none]
    exact fun h => h l hmem (by simp [hv, hr])
  obtain ⟨m, hm⟩ := Option.ne_none_iff_exists'.mp hsome
  refine ⟨m, hm, ?_⟩
  obtain ⟨i, -, rfl⟩ := List.mem_map.mp (List.mem_of_find?_eq_some hm)
  exact Nat.mod_lt _ (by decide)

end

/-- What holds while the failed attempts of a job that began in the state `t` are counted: it is on some lane, and no lane retired. -/
def MissInv (t : State) (x : State × Option Nat × Nat × List Nat) : Prop :=
  t.lanesAlike x.1 ∧ (∀ m, (x.1.lane m).misses.length ≤ (t.lane m).misses.length + x.2.2.2.length) ∧ ∃ m, x.2.1 = some m ∧ m < 12

section
variable {t : State} {l : Nat}

/-- An attempt that fails for the first time leaves the job on some lane. -/
theorem MissInv.step {x : State × Option Nat × Nat × List Nat} (h : MissInv t x) (hl : l < 12) (hv : t.laneLive l = true)
    (hr : t.laneReserved l = false) (func : Nat) {b : Nat} (hb : b ∉ x.2.2.2)
    (hlim : ∀ m < 12, (t.lane m).misses.length + x.2.2.2.length + 1 < t.get R.SHEARS.RETIRE_LIMIT_MISMATCHES) :
    MissInv t (jobMiss func x b) ∧ (jobMiss func x b).2.2.2 = x.2.2.2 ++ [b] := by
  obtain ⟨u, o, c, old⟩ := x
  obtain ⟨ha, hm, m, ho, hm12⟩ := h
  simp only at ha hm ho hb hlim
  subst ho
  have halike := ha.trans (u.countMiss_alike b func hm12)
  have hmiss : u.laneMiss m b func (old.contains b) = u.countMiss m b func := by
    have hno : old.contains b = false := by simpa using hb
    rw [State.laneMiss_eq, hno, Bool.false_or, if_neg]
    rw [decide_eq_true_eq, not_le, halike.2.2.2]
    have h1 := u.countMiss_misses b func hm12 m
    have h2 := hm m
    have h3 := hlim m hm12
    omega
  obtain ⟨n, hn, hn12⟩ := (u.countMiss m b func).nextJobLane_of_live hl ((halike.2.1 l).trans hv) ((halike.2.2.1 l).trans hr) m
  have hstep : jobMiss func (u, some m, c, old) b = ((u.countMiss m b func).reemitted n, some n, n, old ++ [b]) := by
    have hcount : ¬ 2 ≤ old.count b := by rw [List.count_eq_zero_of_not_mem hb]; decide
    simp only [jobMiss, hmiss, if_neg hcount, hn]
    rfl
  rw [hstep]
  refine ⟨⟨halike.trans (State.reemitted_alike _ n), fun k => ?_, n, rfl, hn12⟩, rfl⟩
  have hk : ((u.countMiss m b func).reemitted n).lane k = (u.countMiss m b func).lane k := by
    rw [State.lane, keeps_lanes (State.reemitted_frame _ n) rfl, State.lane]
  have h1 := u.countMiss_misses b func hm12 k
  have h2 := hm k
  simp only [hk, List.length_append, List.length_singleton]
  omega

theorem MissInv.foldl (hl : l < 12) (hv : t.laneLive l = true) (hr : t.laneReserved l = false) (func : Nat) (bs : List Nat)
    {x : State × Option Nat × Nat × List Nat} (h : MissInv t x) (hn : (x.2.2.2 ++ bs).Nodup)
    (hlim : ∀ m < 12, (t.lane m).misses.length + (x.2.2.2 ++ bs).length < t.get R.SHEARS.RETIRE_LIMIT_MISMATCHES) :
    MissInv t (bs.foldl (jobMiss func) x) := by
  induction bs generalizing x with
  | nil => exact h
  | cons b bs ih =>
    have hb : b ∉ x.2.2.2 := fun hb => (List.nodup_append.mp hn).2.2 b hb b List.mem_cons_self rfl
    obtain ⟨hstep, hold⟩ := h.step hl hv hr func hb fun m hm => by
      have := hlim m hm
      rw [List.length_append, List.length_cons] at this
      omega
    rw [List.foldl_cons]
    refine ih hstep ?_ ?_
    · rwa [hold, List.append_assoc]
    · rwa [hold, List.append_assoc]

end

/-- Attempts that name each block once are all made. -/
theorem jobAttempts_of_nodup {bs : List Nat} (h : bs.Nodup) : jobAttempts bs = bs := by
  have hgo (bs acc : List Nat) (h : (acc ++ bs).Nodup) :
      bs.foldl (fun l b => if l.any fun x => decide (3 ≤ l.count x) then l else l ++ [b]) acc = acc ++ bs := by
    induction bs generalizing acc with
    | nil => exact (List.append_nil acc).symm
    | cons b bs ih =>
      have hacc := (List.nodup_append.mp h).1
      have hany : ¬ (acc.any fun x => decide (3 ≤ acc.count x)) = true := by
        rw [List.any_eq_true]
        rintro ⟨x, -, hx⟩
        have := List.nodup_iff_count_le_one.mp hacc x
        have hx := of_decide_eq_true hx
        omega
      have hnext : acc ++ b :: bs = (acc ++ [b]) ++ bs := by rw [List.append_assoc]; rfl
      rw [List.foldl_cons, if_neg hany, ih _ (hnext ▸ h), hnext]
  exact hgo bs [] h

/-! ### Jobs start -/

section
variable {s : State} {src : JobSrc} {lane : Fin 12} {j k : Job} {tn : Turns}

/-- The state in which a job begins to run. -/
def State.started (s : State) (j : Job) (tn : Turns) : State := (s.takeJob j.id).setJobs fun x => { x with turns := tn }

/-- The attempts of a job that fail. -/
def State.failedAttempts (s : State) (j : Job) (op : Nat) (bad : List Nat) : List Nat :=
  if op = 1 ∧ s.shearsRuns j then jobAttempts (bad.filter (· < ceilDiv (descN j.desc 24 8) 65536)) else []

/-- A job that began on a lane is placed on the lane on which it succeeded, or waits for one. -/
def State.seatJob (s : State) (l : Nat) (d : JobDone) : Option Nat → State
  | none => (s.setJobs fun x => { x with parked := x.parked ++ [d] }).resumeLane l
  | some m =>
    if m = l then s
    else (s.resumeLane l).modLane m fun y => { y with work := .job d, held := if y.work == .idle then y.held else y.work :: y.held }

/-- A job that has run, on its first lane. -/
def State.seated (s : State) (l : Nat) (d : JobDone) : State := s.modLane l fun y => { y with work := .job d }

theorem State.seated_work (s : State) {l : Nat} (hl : l < 12) (d : JobDone) : ((s.seated l d).lane l).work = .job d :=
  congrArg LaneSt.work (s.modLane_lane_same _ hl)

theorem State.seated_misses (s : State) (l : Nat) (d : JobDone) (m : Nat) : ((s.seated l d).lane m).misses = (s.lane m).misses := by
  by_cases h : m = l
  · subst h
    by_cases hm : m < 12
    · exact (congrArg LaneSt.misses (s.modLane_lane_same (fun y => { y with work := .job d }) hm)).trans rfl
    · rw [State.lane, State.lane, dif_neg hm, dif_neg hm]
  · exact congrArg LaneSt.misses (s.modLane_lane_other (fun y => { y with work := .job d }) h)

theorem State.startShears_eq {op : Nat} {bad : List Nat} (hj : s.jobFor src 0 op 3 = some j) (hn : s.shearsNext = some (k, tn)) (hk : k.id = j.id)
    (hr : s.laneReserved lane.val = false) (hf : s.laneFree lane.val = true) :
    s.startShears src lane.val op bad
      = (((s.failedAttempts j op bad).foldl (jobMiss j.func) (((s.started j tn).shearsJob j bad).2.seated lane.val ((s.started j tn).shearsJob j bad).1,
          some lane.val, lane.val, [])).1).seatJob lane.val ((s.started j tn).shearsJob j bad).1
        ((s.failedAttempts j op bad).foldl (jobMiss j.func) (((s.started j tn).shearsJob j bad).2.seated lane.val ((s.started j tn).shearsJob j bad).1,
          some lane.val, lane.val, [])).2.1 := by
  have hgo : ¬ ((decide (j.id ≠ k.id) || s.laneReserved lane.val || !s.laneFree lane.val) = true) := by simp [hk, hr, hf]
  simp only [State.startShears, hj, hn]
  rw [if_neg hgo]
  unfold State.seatJob
  split
  · next h => simp only [State.seated, State.failedAttempts, State.started] at h ⊢; simp only [h]
  · next h => simp only [State.seated, State.failedAttempts, State.started] at h ⊢; simp only [h]

theorem State.startShears_of_clean {op : Nat} {bad : List Nat} (hj : s.jobFor src 0 op 3 = some j) (hn : s.shearsNext = some (k, tn))
    (hk : k.id = j.id) (hr : s.laneReserved lane.val = false) (hf : s.laneFree lane.val = true)
    (hb : op = 1 → bad.filter (· < ceilDiv (descN j.desc 24 8) 65536) = []) :
    ((s.startShears src lane.val op bad).lane lane.val).work = .job ((s.started j tn).shearsJob j bad).1 := by
  have hmiss : s.failedAttempts j op bad = [] := by
    unfold State.failedAttempts
    split
    next h => rw [hb h.1]; rfl
    next => rfl
  rw [State.startShears_eq hj hn hk hr hf, hmiss, List.foldl_nil]
  simp only [State.seatJob, if_true]
  exact State.seated_work _ lane.isLt _

theorem State.shearsJob_alike (hl : s.laneReserved lane.val = false) (hf : s.laneFree lane.val = true) (bad : List Nat) (tn : Turns) (j : Job) :
    ((s.started j tn).shearsJob j bad).2.lanes = s.lanes ∧ ((s.started j tn).shearsJob j bad).2.laneLive lane.val = true
    ∧ ((s.started j tn).shearsJob j bad).2.laneReserved lane.val = false
    ∧ ((s.started j tn).shearsJob j bad).2.get R.SHEARS.RETIRE_LIMIT_MISMATCHES = s.get R.SHEARS.RETIRE_LIMIT_MISMATCHES := by
  have hlive : s.laneLive lane.val = true := by
    unfold State.laneFree at hf
    simp only [Bool.and_eq_true] at hf
    exact hf.1.1
  have hget {x : Fld} (hx : x.page ≠ 0xB2) : ((s.started j tn).shearsJob j bad).2.get x = s.get x := State.shearsJob_get hx ..
  have hpage : 0x18 + lane.val ≠ 0xB2 := by omega
  refine ⟨(keeps_lanes (State.forget_shearsJob (T := 0x480400424) rfl ..) rfl).trans rfl, ?_, ?_, hget (by decide)⟩
  · exact (State.laneLive_of_get (hget hpage) (hget hpage)).trans hlive
  · rw [State.laneReserved, State.bit, hget hpage]
    exact hl

theorem State.startShears_of_misses {bad : List Nat} (hj : s.jobFor src 0 1 3 = some j) (hn : s.shearsNext = some (k, tn))
    (hk : k.id = j.id) (hr : s.laneReserved lane.val = false) (hf : s.laneFree lane.val = true) (hd : bad.Nodup)
    (hlim : ∀ m : Fin 12, (s.lane m.val).misses.length + bad.length < s.get R.SHEARS.RETIRE_LIMIT_MISMATCHES) :
    ∃ m < 12, ((s.startShears src lane.val 1 bad).lane m).work = .job ((s.started j tn).shearsJob j bad).1 := by
  obtain ⟨hlanes, hlive, hres, hlimit⟩ := State.shearsJob_alike hr hf bad tn j
  rw [State.startShears_eq hj hn hk hr hf]
  generalize (s.started j tn).shearsJob j bad = r at hlanes hlive hres hlimit ⊢
  have hmiss : (s.failedAttempts j 1 bad).Nodup ∧ (s.failedAttempts j 1 bad).length ≤ bad.length := by
    have hfilter := hd.filter fun b => decide (b < ceilDiv (descN j.desc 24 8) 65536)
    unfold State.failedAttempts
    split
    · rw [jobAttempts_of_nodup hfilter]
      exact ⟨hfilter, List.length_filter_le ..⟩
    · exact ⟨List.nodup_nil, Nat.zero_le _⟩
  have hmis (m : Nat) : ((r.2.seated lane.val r.1).lane m).misses = (s.lane m).misses := by
    rw [State.seated_misses, State.lane, hlanes, State.lane]
  have hlim' : (r.2.seated lane.val r.1).get R.SHEARS.RETIRE_LIMIT_MISMATCHES = s.get R.SHEARS.RETIRE_LIMIT_MISMATCHES :=
    (State.modLane_get _ _ (by decide) (by decide)).trans hlimit
  have hwork := r.2.seated_work lane.isLt r.1
  have hlive' : (r.2.seated lane.val r.1).laneLive lane.val = true := (State.modLane_laneLive ..).trans hlive
  have hres' : (r.2.seated lane.val r.1).laneReserved lane.val = false := (State.modLane_laneReserved ..).trans hres
  generalize r.2.seated lane.val r.1 = t at hmis hlim' hwork hlive' hres' ⊢
  have hinit : MissInv t (t, some lane.val, lane.val, []) :=
    ⟨⟨fun _ _ => rfl, fun _ => rfl, fun _ => rfl, rfl⟩, fun _ => Nat.le_refl _, lane.val, rfl, lane.isLt⟩
  obtain ⟨halike, -, m, hm, hm12⟩ := hinit.foldl lane.isLt hlive' hres' j.func (s.failedAttempts j 1 bad)
    (by rw [List.nil_append]; exact hmiss.1) fun m hm => by
      rw [hmis, hlim', List.nil_append]
      have h1 := hmiss.2
      have h2 := hlim ⟨m, hm⟩
      simp only at h2
      omega
  refine ⟨m, hm12, ?_⟩
  rw [hm]
  simp only [State.seatJob]
  by_cases h : m = lane.val
  · rw [if_pos h, h]
    exact (halike.1 _ lane.isLt).trans hwork
  · rw [if_neg h]
    exact congrArg LaneSt.work (State.modLane_lane_same _ _ hm12)

end

/-! ### A mismatch of a stored slice -/

/-- A lane's last mismatch is a register that its retirement keeps. -/
def lastMismatch (lane : Fin 12) : SteadyFld := .reg (R.LANE.LAST_MISMATCH_BLOCK lane.val) (by revert lane; decide)

theorem lastMismatch_still (lane : Fin 12) : (lastMismatch lane).still = true := by revert lane; decide

theorem State.laneMiss_shows (s : State) (lane : Fin 12) (block func : Nat) :
    (s.laneMiss lane.val block func true).get (R.LANE.LAST_MISMATCH_BLOCK lane.val) = block % 2 ^ (R.LANE.LAST_MISMATCH_BLOCK lane.val).w := by
  have hcount : (lastMismatch lane).get (s.countMiss lane.val block func) = block % 2 ^ (R.LANE.LAST_MISMATCH_BLOCK lane.val).w := by
    rw [State.countMiss, State.steady_modLane, State.showMiss, State.steady_record _ (noisy_lanePage _), State.steady_pulse _ (noisy_lanePage _)]
    exact State.get_put_same ..
  rw [State.laneMiss_eq, Bool.true_or, if_pos rfl]
  exact (State.steady_retireLane (lastMismatch_still lane) _ _).trans hcount

/-! ### A job leaves its lane -/

section
variable {s : State} {lane : Fin 12} {d : JobDone}

theorem exec_shearsJobMigrate (hw : (s.lane lane.val).work = .job d) (h : s.laneLive lane.val = false ∨ s.laneReserved lane.val = true) :
    exec (.shearsJobMigrate lane) s
      = .next (((s.setJobs fun j => { j with parked := j.parked ++ [d] }).resumeLane lane.val).dispatchSlices) := by
  show execShearsJobMigrate lane s = _
  have hno : ¬ (s.laneLive lane.val && !s.laneReserved lane.val) = true := by
    rcases h with h | h <;> simp [h]
  unfold execShearsJobMigrate
  simp only [hw]
  rw [if_neg hno]

/-- The state in which a job has left its lane. -/
def State.parkJob (s : State) (l : Nat) (d : JobDone) : State := (s.setJobs fun j => { j with parked := j.parked ++ [d] }).resumeLane l

theorem State.parkJob_parked (s : State) (l : Nat) (d : JobDone) : (s.parkJob l d).jobs.parked = s.jobs.parked ++ [d] :=
  congrArg JobsSt.parked (keeps_jobs (State.resumeLane_frame ..) rfl)

theorem State.parkJob_frame (s : State) (l : Nat) (d : JobDone) : forget 0x18020 (s.parkJob l d) = forget 0x18020 s :=
  (State.forget_modLane rfl ..).trans rfl

theorem State.parkJob_slices (s : State) (l : Nat) (d : JobDone) : (s.parkJob l d).take.slices = s.take.slices :=
  congrArg TakeSt.slices (keeps_take (s.parkJob_frame l d) rfl)

/-- A lane that a job leaves because it may not work there is not one for another job. -/
theorem State.parkJob_lane (h : s.laneLive lane.val = false ∨ s.laneReserved lane.val = true) (m : Nat) :
    (!(s.parkJob lane.val d).laneReserved m && (s.parkJob lane.val d).laneFree m) = (!s.laneReserved m && s.laneFree m) := by
  have hres : (s.parkJob lane.val d).laneReserved m = s.laneReserved m := State.modLane_laneReserved ..
  have hlive : (s.parkJob lane.val d).laneLive m = s.laneLive m := State.modLane_laneLive ..
  have hdelay : (s.parkJob lane.val d).trust = s.trust := keeps_trust (s.parkJob_frame _ _) rfl
  by_cases hm : m = lane.val
  · subst hm
    rcases h with h | h
    · simp only [State.laneFree, hlive, h, Bool.false_and, Bool.and_false]
    · simp only [hres, h, Bool.not_true, Bool.false_and]
  · have hlane : (s.parkJob lane.val d).lane m = s.lane m := State.modLane_lane_other _ _ hm
    simp only [State.laneFree, hres, hlive, hdelay, hlane]

theorem State.parkJob_find (h : s.laneLive lane.val = false ∨ s.laneReserved lane.val = true) :
    ((List.range 12).find? fun m => !(s.parkJob lane.val d).laneReserved m && (s.parkJob lane.val d).laneFree m)
      = (List.range 12).find? fun m => !s.laneReserved m && s.laneFree m :=
  congrArg (fun p => (List.range 12).find? p) (funext (State.parkJob_lane h))

theorem State.parkJob_dispatch (h : (s.take.slices.all (·.status != .waiting)) = true) (l : Nat) :
    (s.parkJob l d).dispatchSlices = (s.parkJob l d).unparkJobs :=
  State.dispatchSlices_of_none (by rw [State.parkJob_slices]; exact h)

end

/-! ### A job completes -/

/-- The record of a job, its lane written into it. -/
def JobDone.onLane (d : JobDone) (l : Nat) : JobDone := { d with record := overlay d.record 5 [BitVec.ofNat 8 l] }

/-- The counts of a job that ends with success. -/
def State.jobCounted (s : State) (l : Nat) (d : JobDone) : State :=
  ((((s.bump (R.LANE.JOBS_DONE_COUNT l)).pulse (lanePage l) Ev.LANE.JOB_DONE).bump (R.LANE.BYTES_IN_BYTES l) (leNat (sliceBytes d.record 16 8))).bump
    (R.LANE.BYTES_OUT_BYTES l) (leNat (sliceBytes d.record 8 8))).bump (R.LANE.BLOCKS_OUT_COUNT l) d.blocks

/-- The counts and the record of a job that ends with an error. -/
def State.jobFailed (s : State) (l : Nat) (d : JobDone) : State :=
  (if d.status = 1 then ((s.bump (R.LANE.JOBS_FAILED_COUNT l)).pulse (lanePage l) Ev.LANE.JOB_FAILED).bump R.SHEARS.OUT_OF_SPACE_COUNT_COUNT
    else (s.bump (R.LANE.JOBS_FAILED_COUNT l)).pulse (lanePage l) Ev.LANE.JOB_FAILED).record (lanePage l) (shearsCode d.status)
      (shearsInfo l d.job.func d.status) d.job.func

/-- A job has left its lane with its counts. -/
def State.jobEnded (s : State) (l : Nat) (d : JobDone) : State :=
  if d.status = 0 then (s.resumeLane l).jobCounted l d else (s.resumeLane l).jobFailed l d

def State.hostServed (s : State) (d : JobDone) : State := match d.job.src with | .host _ => s.hostActive | .cluster _ => s

section
variable (s : State) (l : Nat) (d : JobDone)

theorem State.jobCounted_get : (s.jobCounted l d).get (R.LANE.JOBS_DONE_COUNT l) = min (s.get (R.LANE.JOBS_DONE_COUNT l) + 1) (2 ^ 32 - 1) := by
  rw [State.jobCounted, State.get_bump_of_place _ _ rfl, State.get_bump_of_place _ _ rfl, State.get_bump_of_place _ _ rfl,
    State.pulse_get_beyond _ _ _ rfl, State.get_bump_same]
  rfl

theorem State.jobFailed_get : (s.jobFailed l d).get (R.LANE.JOBS_FAILED_COUNT l) = min (s.get (R.LANE.JOBS_FAILED_COUNT l) + 1) (2 ^ 32 - 1) := by
  have hpulse : ((s.bump (R.LANE.JOBS_FAILED_COUNT l)).pulse (lanePage l) Ev.LANE.JOB_FAILED).get (R.LANE.JOBS_FAILED_COUNT l)
      = min (s.get (R.LANE.JOBS_FAILED_COUNT l) + 1) (2 ^ 32 - 1) := by
    rw [State.pulse_get_beyond _ _ _ rfl, State.get_bump_same]
    rfl
  rw [State.jobFailed, State.record_get_beyond _ _ _ _ _ _ _ rfl]
  split
  · rw [State.get_bump_of_place _ _ rfl, hpulse]
  · exact hpulse

theorem State.jobCounted_lanes : (s.jobCounted l d).lanes = s.lanes :=
  (keeps_lanes (State.forget_pulse (T := 0x480000020) rfl ..) rfl : (State.pulse _ _ _).lanes = _)

theorem State.jobFailed_lanes : (s.jobFailed l d).lanes = s.lanes := by
  have hpulse : ((s.bump (R.LANE.JOBS_FAILED_COUNT l)).pulse (lanePage l) Ev.LANE.JOB_FAILED).lanes = s.lanes :=
    (keeps_lanes (State.forget_pulse (T := 0x480000020) rfl ..) rfl)
  unfold State.jobFailed
  split
  · exact (keeps_lanes (State.forget_record (T := 0x480000420) rfl ..) rfl).trans hpulse
  · exact (keeps_lanes (State.forget_record (T := 0x480000420) rfl ..) rfl).trans hpulse

theorem State.jobEnded_lanes : (s.jobEnded l d).lanes = (s.resumeLane l).lanes := by
  unfold State.jobEnded
  split
  · exact State.jobCounted_lanes ..
  · exact State.jobFailed_lanes ..

theorem State.hostServed_lanes : (s.hostServed d).lanes = s.lanes := by
  unfold State.hostServed
  split
  · exact keeps_lanes (State.forget_hostActive (T := 0x490000020) rfl _) rfl
  · rfl

theorem State.hostServed_get {x : Fld} (hb : 0x040 ≤ x.off) (hx : x.page ≠ 2) : (s.hostServed d).get x = s.get x := by
  unfold State.hostServed
  split
  · exact State.follow_get _ hb hx
  · rfl

end

section
variable {s : State} {lane : Fin 12} {d : JobDone}

/-- What the engine does where a job's completion record does not reach its place. -/
def recordFault (l : Nat) (d : JobDone) (u : State) (a : Nat) : State :=
  (u.xlateFault d.job.func a 0 true false true).record (lanePage l) E.SHEARS_XLATE_FAULT (shearsInfo l d.job.func 6) d.job.func

theorem exec_shearsJobComplete (hw : (s.lane lane.val).work = .job d) : exec (.shearsJobComplete lane) s
    = .next ((((s.jobEnded lane.val (d.onLane lane.val)).hostServed d).endJob (d.onLane lane.val) 0 (recordFault lane.val d)).dispatchSlices) := by
  show execShearsJobComplete lane s = _
  unfold execShearsJobComplete
  simp only [hw]
  rfl

theorem State.jobServed_get_done (l : Nat) (h : d.status = 0) : ((s.jobEnded l (d.onLane l)).hostServed d).get (R.LANE.JOBS_DONE_COUNT l)
    = min (s.get (R.LANE.JOBS_DONE_COUNT l) + 1) (2 ^ 32 - 1) := by
  have hpage : (R.LANE.JOBS_DONE_COUNT l).page ≠ 2 := by simp only [R.LANE.JOBS_DONE_COUNT]; omega
  rw [State.hostServed_get _ _ (by exact (by decide : 0x040 ≤ 0x068)) hpage, State.jobEnded, if_pos (show (d.onLane l).status = 0 from h), State.jobCounted_get, State.resumeLane,
    State.modLane_get _ _ (by simp [R.LANE.JOBS_DONE_COUNT]) (by simp [R.LANE.JOBS_DONE_COUNT])]

theorem State.jobServed_get_failed (l : Nat) (h : d.status ≠ 0) : ((s.jobEnded l (d.onLane l)).hostServed d).get (R.LANE.JOBS_FAILED_COUNT l)
    = min (s.get (R.LANE.JOBS_FAILED_COUNT l) + 1) (2 ^ 32 - 1) := by
  have hpage : (R.LANE.JOBS_FAILED_COUNT l).page ≠ 2 := by simp only [R.LANE.JOBS_FAILED_COUNT]; omega
  rw [State.hostServed_get _ _ (by exact (by decide : 0x040 ≤ 0x06C)) hpage, State.jobEnded, if_neg (show ¬ (d.onLane l).status = 0 from h), State.jobFailed_get, State.resumeLane,
    State.modLane_get _ _ (by simp [R.LANE.JOBS_FAILED_COUNT]) (by simp [R.LANE.JOBS_FAILED_COUNT])]

theorem State.jobServed_work : (((s.jobEnded lane.val (d.onLane lane.val)).hostServed d).lane lane.val).work = (s.lane lane.val).held.headD .idle := by
  rw [State.lane, State.hostServed_lanes, State.jobEnded_lanes]
  exact s.resumeLane_work lane.isLt

end

/-! ### A retirement by register -/

section
variable {s : State} {o : Origin} {lane : Fin 12}

theorem exec_laneCtrlRetire_acts (hp : s.powered = true) (hr : s.reaches o (lanePage lane.val) = true) (hi : s.holds o .installer = true)
    (hb : s.bit (R.LANE.LANE_STATUS_RESERVED lane.val) = false) :
    ∃ t : State, s.Accessed t ∧ exec (.laneCtrlRetire o lane) s = .next (t.retireLane lane.val) := by
  obtain ⟨t, ht, h⟩ := State.regCmd_acts (off := 0x044) (v := 1) (legal := true)
    (busy := bitAt 1 0 && s.bit (R.LANE.LANE_STATUS_RESERVED lane.val))
    (deny := fun t => t.refuseBlock o (lanePage lane.val) E.SHEARS_BUSY (shearsInfo lane.val (originFunc o) 0))
    (act := fun t => if bitAt 1 0 then t.retireLane lane.val else t) hp hr (State.meets_of_installer hi _) rfl (by rw [hb, Bool.and_false])
  exact ⟨t, ht, congrArg Host.Outcome.next h⟩

theorem exec_laneCtrlRetire_busy (hp : s.powered = true) (hr : s.reaches o (lanePage lane.val) = true) (hi : s.holds o .installer = true)
    (hb : s.bit (R.LANE.LANE_STATUS_RESERVED lane.val) = true) :
    ∃ t : State, s.Accessed t ∧ exec (.laneCtrlRetire o lane) s
      = .next (t.refuseBlock o (lanePage lane.val) E.SHEARS_BUSY (shearsInfo lane.val (originFunc o) 0)) := by
  obtain ⟨t, ht, h⟩ := State.regCmd_denies (off := 0x044) (v := 1) (legal := true)
    (busy := bitAt 1 0 && s.bit (R.LANE.LANE_STATUS_RESERVED lane.val))
    (deny := fun t => t.refuseBlock o (lanePage lane.val) E.SHEARS_BUSY (shearsInfo lane.val (originFunc o) 0))
    (act := fun t => if bitAt 1 0 then t.retireLane lane.val else t) hp hr (State.meets_of_installer hi _) rfl (by rw [hb]; rfl)
  exact ⟨t, ht, congrArg Host.Outcome.next h⟩

end

/-- Settles O11: a lane's blocks and slices by the equation of each event, a slice's last mismatch through the lane's retirement, and a job's
start through the attempts that fail. -/
theorem shearsLanesWork : Obligations.ShearsLanesWork := by
  unfold Obligations.ShearsLanesWork
  refine ⟨?_, ?_, ?_, ?_, ?_, ?_, ?_, ?_, ?_, ?_, ?_, ?_⟩
  · intro s lane uid idx n f x hw hf hx hn
    refine ⟨_, (exec_shearsBlockVerified hw hf hx true).trans (by rw [if_pos rfl, if_pos hn]), ?_, ?_⟩
    · exact congrArg LaneSt.work (s.modLane_lane_same (fun y => { y with work := .slice uid idx (n + 1) }) lane.isLt)
    · exact keeps_take (State.modLane_frame ..) rfl
  · intro s lane uid idx n f x c hw hc hf hx hn
    obtain ⟨t, ht, hslice, hlanes⟩ := State.sliceDone_of_open (l := lane.val) hc hf hx
    exact ⟨t, (exec_shearsBlockVerified hw hf hx true).trans (by rw [if_pos rfl, if_neg (by omega), ht]), hslice, hlanes⟩
  · intro s lane uid idx n f x hw hf hx
    exact ⟨s.resumeLane lane.val, exec_shearsBlockVerified hw hf hx false, keeps_take (State.resumeLane_frame ..) rfl⟩
  · intro s lane uid idx hw
    exact ⟨_, exec_shearsReemitDone_ok hw, keeps_take (State.reemitted_frame ..) rfl, keeps_lanes (State.reemitted_frame ..) rfl,
      State.reemitted_get ..⟩
  · intro s lane uid idx b x hw hx hb
    refine ⟨_, State.laneMiss_shows ((s.reemitted lane.val).resumeLane lane.val) lane b 0x1F1, fun h => ?_, fun h => ?_⟩
    · exact (exec_shearsReemitDone_miss hw hx hb).trans (by rw [if_pos h])
    · exact (exec_shearsReemitDone_miss hw hx hb).trans (by rw [if_neg (Nat.not_lt.mpr h)])
  · exact fun s uid idx l x f hx hf => State.loseSlice_spec hx hf
  · exact fun s lane d hw h => exec_shearsJobMigrate hw h
  · intro s lane d hw h hs
    have hexec : exec (.shearsJobMigrate lane) s = .next (s.parkJob lane.val d).unparkJobs :=
      (exec_shearsJobMigrate hw h).trans (congrArg Host.Outcome.next (State.parkJob_dispatch hs _))
    refine ⟨fun m hp hm => ?_, fun hm => ?_⟩
    · have hparked : (s.parkJob lane.val d).jobs.parked = [d] := by rw [State.parkJob_parked, hp, List.nil_append]
      exact ⟨_, hexec, State.unparkJobs_of_one hparked ((State.parkJob_find h).trans hm)⟩
    · refine ⟨_, hexec, ?_⟩
      rw [State.unparkJobs_of_no_lane ((State.parkJob_find h).trans hm), State.parkJob_parked]
  · intro s o lane hp hr hi hb
    obtain ⟨t, ht, h⟩ := exec_laneCtrlRetire_acts hp hr hi hb
    exact ⟨t, h, keeps_lanes ht.1 rfl, keeps_take ht.1 rfl⟩
  · intro s o lane hp hr hi hb
    obtain ⟨t, ht, h⟩ := exec_laneCtrlRetire_busy hp hr hi hb
    refine ⟨_, h, ?_, ?_, State.refuseBlock_refusal ..⟩
    · exact (keeps_lanes (State.forget_refuseBlock (T := 0x480000620) rfl ..) rfl).trans (keeps_lanes ht.1 rfl)
    · exact (keeps_take (State.forget_refuseBlock (T := 0x480000620) rfl ..) rfl).trans (keeps_take ht.1 rfl)
  · rintro s u src lane j k tn hr hf hn hk rfl
    refine ⟨fun bad hj hbad => ?_, fun bad hj hd hlim => ?_, fun hj => ?_, fun hj => ?_⟩
    · exact ⟨_, rfl, State.startShears_of_clean hj hn hk hr hf fun _ => hbad, State.shearsJob_job ..⟩
    · obtain ⟨m, hm, hwork⟩ := State.startShears_of_misses hj hn hk hr hf hd hlim
      exact ⟨_, m, rfl, hm, hwork, State.shearsJob_job ..⟩
    · exact ⟨_, rfl, State.startShears_of_clean hj hn hk hr hf fun h => absurd h (by decide), State.shearsJob_job ..⟩
    · exact ⟨_, rfl, State.startShears_of_clean hj hn hk hr hf fun h => absurd h (by decide), State.shearsJob_job ..⟩
  · intro s lane d hw
    exact ⟨_, d.onLane lane.val, recordFault lane.val d, exec_shearsJobComplete hw, rfl, rfl, State.jobServed_work,
      State.jobServed_get_done _, State.jobServed_get_failed _⟩

end Sys2Proof.Machine
end

section
/-!
Groups freed and erased, the write buffer and the map pages (R226-R228, R238).
-/

namespace Sys2Proof.Machine

open Sys2Proof.Laws

section
variable {s : State} {g : Nat} {x : Group}

theorem State.num_of_group? (h : s.group? g = some x) : x.num = g := by
  simpa using List.find?_some h

theorem State.group?_of_groups {t : State} (h : t.groups = s.groups) (n : Nat) : t.group? n = s.group? n := by
  rw [State.group?, h, State.group?]

/-- A group that a change of it keeps by its number. -/
theorem State.group?_modGroup (h : s.group? g = some x) {f : Group → Group} (hf : ∀ y, (f y).num = y.num) :
    (s.modGroup g f).group? g = some (f x) := by
  have hp : (fun y : Group => y.num == g) ∘ (fun y => if y.num == g then f y else y) = (fun y => y.num == g) := by
    funext y
    simp only [Function.comp_apply]
    split
    next => rw [hf]
    next => rfl
  have hu : (x.num == g) = true := List.find?_some (p := fun y : Group => y.num == g) h
  change (s.groups.map fun y => if y.num == g then f y else y).find? (fun y => y.num == g) = some (f x)
  rw [List.find?_map, hp, show s.groups.find? (fun y => y.num == g) = some x from h, Option.map_some, if_pos hu]

/-! ### The erase of a freed group -/

/-- The erase of member `m` of group `g`: queued on a live die, marked as done on another. -/
def State.eraseMember (g : Nat) (slc : Bool) (t : State) (m : (Nat × Nat) × Nat) : State :=
  if t.dieLive m.1.1 then t.queueOp m.1.1 ⟨.erase, m.1.2, 0, slc, [], [], 0, .erase g m.2⟩
  else t.modGroup g fun y => { y with erased := insertSorted y.erased m.2 }

/-- A group is erased when it is freed, its records are durable and the pool has room (R238). -/
theorem execGroupErase_of_group (h : s.group? g = some x) : execGroupErase g s =
    if x.state ≠ .freed ∨ x.erasing ∨ !s.freeDurable x ∨ s.copyUnsecured x ∨ s.get R.FALLOW.TARGET_GB * 1000 ≤ s.poolUser then .next s
    else .next ((x.members.zipIdx.foldl (State.eraseMember g x.use.isSlc) (s.releaseWith g)).modGroup g fun y => { y with erasing := true }) := by
  simp only [execGroupErase, h] <;> rfl

theorem State.freeDurable_of_rec {r : JRec} (hr : r ∈ s.media.inFlight.flatten ++ s.media.page) (hk : r.kind = 0x07) (hl : r.logical = x.num) :
    s.freeDurable x = false := by
  have hany : (s.volatileRecs.any fun r => r.kind == 0x07 && r.logical == x.num) = true :=
    List.any_eq_true.mpr ⟨r, hr, by simp [hk, hl]⟩
  simp [State.freeDurable, hany]

theorem State.releaseSeg_keeps (s : State) (nsid seg : Nat) :
    (s.releaseSeg nsid seg).groups = s.groups ∧ (s.releaseSeg nsid seg).media.page = s.media.page := by
  have hd (t : State) (p : ESpan → Bool) : (t.dropSpans p).media = t.media := keeps_media (State.forget_dropSpans (T := 0x20000020) rfl ..) rfl
  have hm : (s.releaseSeg nsid seg).media = (s.setImage fun i => { i with map := i.map.filter fun x =>
      !(x.1.1 == nsid && decide ((if seg = 0 then 2 else seg * 262144) ≤ x.1.2) && decide (x.1.2 < (seg + 1) * 262144)) }).media := by
    simp only [State.releaseSeg, hd, apply_ite State.media, State.setTrig_media, ite_self]
    rfl
  exact ⟨(congrArg (fun m : MediaSt => m.image.groups) hm :), (congrArg MediaSt.page hm :)⟩

theorem State.releaseWith_keeps (s : State) (gn : Nat) :
    (s.releaseWith gn).groups = s.groups ∧ (s.releaseWith gn).media.page = s.media.page := by
  have hfold (l : List (Nat × Nat)) (u : State) : (l.foldl (fun t r => t.releaseSeg r.1 r.2) u).groups = u.groups
      ∧ (l.foldl (fun t r => t.releaseSeg r.1 r.2) u).media.page = u.media.page := by
    induction l generalizing u with
    | nil => exact ⟨rfl, rfl⟩
    | cons r l ih =>
      obtain ⟨hg, hp⟩ := ih (u.releaseSeg r.1 r.2)
      obtain ⟨hg', hp'⟩ := u.releaseSeg_keeps r.1 r.2
      exact ⟨hg.trans hg', hp.trans hp'⟩
  exact hfold ..

theorem State.releaseWith_of_none (gn : Nat) (h : s.take.releasing = []) : s.releaseWith gn = s := by
  simp only [State.releaseWith, h, List.filter_nil, List.foldl_nil]

theorem State.eraseMember_group {u : State} {y : Group} (slc : Bool) (m : (Nat × Nat) × Nat) (hy : u.group? g = some y) :
    ∃ e, (u.eraseMember g slc m).group? g = some { y with erased := e } := by
  unfold State.eraseMember
  split
  · exact ⟨y.erased, (State.group?_of_groups (congrArg (fun v : MediaSt => v.image.groups) (keeps_media (State.forget_queueOp (T := 0x20000) rfl ..) rfl)) g).trans hy⟩
  · exact ⟨_, State.group?_modGroup hy (f := fun y => { y with erased := insertSorted y.erased m.2 }) fun _ => rfl⟩

theorem State.eraseMember_keeps (u : State) (g : Nat) (slc : Bool) (m : (Nat × Nat) × Nat) : (u.eraseMember g slc m).media.page = u.media.page
    ∧ (u.eraseMember g slc m).regs = u.regs ∧ (u.eraseMember g slc m).media.image.map = u.media.image.map := by
  unfold State.eraseMember
  split
  · have hq : forget 0x20000 (u.queueOp m.1.1 ⟨.erase, m.1.2, 0, slc, [], [], 0, .erase g m.2⟩) = forget 0x20000 u := State.forget_queueOp rfl ..
    have hm := keeps_media hq rfl
    exact ⟨congrArg MediaSt.page hm, keeps_regs hq rfl, congrArg (fun v : MediaSt => v.image.map) hm⟩
  · exact ⟨rfl, rfl, rfl⟩

/-- Queueing the erases of a group's members changes its list of erased members and the dies' queues. -/
theorem State.foldl_eraseMember (slc : Bool) (ms : List ((Nat × Nat) × Nat)) {u : State} {y : Group} (hy : u.group? g = some y) :
    (∃ e, (ms.foldl (State.eraseMember g slc) u).group? g = some { y with erased := e })
      ∧ (ms.foldl (State.eraseMember g slc) u).media.page = u.media.page ∧ (ms.foldl (State.eraseMember g slc) u).regs = u.regs
      ∧ (ms.foldl (State.eraseMember g slc) u).media.image.map = u.media.image.map := by
  induction ms generalizing u y with
  | nil => exact ⟨⟨y.erased, hy⟩, rfl, rfl, rfl⟩
  | cons m ms ih =>
    obtain ⟨e, he⟩ := State.eraseMember_group slc m hy
    obtain ⟨hp, hr, hm⟩ := u.eraseMember_keeps g slc m
    obtain ⟨hg, hp', hr', hm'⟩ := ih he
    exact ⟨hg, hp'.trans hp, hr'.trans hr, hm'.trans hm⟩

theorem exec_groupErase_of_durable (h : s.group? g = some x) (hst : x.state = .freed) (her : x.erasing = false) (hd : s.freeDurable x = true)
    (hc : s.copyUnsecured x = false) (hp : s.poolUser < s.get R.FALLOW.TARGET_GB * 1000) :
    ∃ t : State, exec (.groupErase g) s = .next t ∧ (∃ y, t.group? g = some y ∧ y.erasing = true ∧ y.state = .freed)
      ∧ t.media.page = s.media.page ∧ (s.take.releasing = [] → t.regs = s.regs ∧ t.media.image.map = s.media.image.map) := by
  have hgo : ¬ (x.state ≠ .freed ∨ x.erasing ∨ !s.freeDurable x ∨ s.copyUnsecured x ∨ s.get R.FALLOW.TARGET_GB * 1000 ≤ s.poolUser) := by
    simp [hst, her, hd, hc, hp]
  obtain ⟨hg, hpage⟩ := s.releaseWith_keeps g
  obtain ⟨⟨e, he⟩, hpage', hregs, hmap⟩ := State.foldl_eraseMember x.use.isSlc x.members.zipIdx ((State.group?_of_groups hg g).trans h)
  refine ⟨_, (execGroupErase_of_group h).trans (if_neg hgo), ⟨_, State.group?_modGroup he fun _ => rfl, rfl, hst⟩, hpage'.trans hpage, fun hn => ?_⟩
  rw [State.releaseWith_of_none g hn] at hregs hmap
  rw [State.releaseWith_of_none g hn]
  exact ⟨hregs, hmap⟩

theorem exec_groupErased_of_all (h : s.group? g = some x) (hst : x.state = .freed) (her : x.erasing = true)
    (hall : ((List.range x.members.length).all x.erased.contains) = true) :
    ∃ t : State, exec (.groupErased g) s = .next t.retryWaiting.showPool ∧ t.group? g = none ∧ g ∉ t.media.freed
      ∧ t.media.seq = s.media.seq + 1 := by
  have hgo : ¬ (x.state ≠ .freed ∨ !x.erasing ∨ !(List.range x.members.length).all x.erased.contains) := by
    simp only [hst, her, hall]
    simp
  let u := s.setImage fun i => { i with groups := i.groups.filter (·.num != g) }
  have hj := u.journal_sansJournal 0x08 1 0 g (g, 0)
  refine ⟨(u.journal 0x08 1 0 g (g, 0)).setMedia fun m => { m with freed := m.freed.filter (· != g) }, ?_, ?_, ?_, ?_⟩
  · change execGroupErased g s = _
    simp only [execGroupErased, h, if_neg hgo]
    rfl
  · refine (State.group?_of_groups (State.groups_of_sansJournal hj) g).trans ?_
    change (s.groups.filter (·.num != g)).find? (·.num == g) = none
    rw [List.find?_eq_none]
    intro y hy
    simpa using (List.mem_filter.mp hy).2
  · simp [State.setMedia]
  · exact State.seq_of_sansJournal hj

theorem exec_groupErase_of_not_durable (h : s.group? g = some x) (hn : x.freeAt.isSome = true ∨ s.freeDurable x = false ∨ s.copyUnsecured x = true
    ∨ s.get R.FALLOW.TARGET_GB * 1000 ≤ s.poolUser) : exec (.groupErase g) s = .next s := by
  have hd : x.freeAt.isSome = true → s.freeDurable x = false := fun hf => by
    rw [State.freeDurable, Option.isNone_eq_false_iff.mpr hf, Bool.false_and]
  refine (execGroupErase_of_group h).trans (if_pos ?_)
  rcases hn with hf | hf | hc | hp
  · exact .inr (.inr (.inl (by rw [hd hf]; rfl)))
  · exact .inr (.inr (.inl (by rw [hf]; rfl)))
  · exact .inr (.inr (.inr (.inl hc)))
  · exact .inr (.inr (.inr (.inr hp)))

/-! ### Map pages -/

theorem exec_mapPageWriteback_of_dirtiest {p : Nat} {t : State} (hd : s.media.dirtyDir = []) (hp : s.dirtiest = some p)
    (ht : s.placeMeta 3 p (s.mapPageBytes p) = some t) :
    exec .mapPageWriteback s = .next ((t.setMedia fun m => { m with dirty := m.dirty.filter (·.1 != p) }).padStripe .metadata 0) := by
  change execMapPageWriteback s = _
  simp only [execMapPageWriteback, hd, hp, State.writeMap, ht]

theorem State.dirtiest_most {p : Nat} (hp : s.dirtiest = some p) : ∃ n, (p, n) ∈ s.media.dirty ∧ ∀ q ∈ s.media.dirty, q.2 ≤ n := by
  obtain ⟨⟨p', n⟩, hf, rfl⟩ := Option.map_eq_some_iff.mp hp
  have hall := List.find?_some hf
  simp only [List.all_eq_true, decide_eq_true_eq] at hall
  exact ⟨n, List.mem_of_find?_eq_some hf, hall⟩

theorem exec_mapPageWriteback_of_full {d : Nat} {rest : List Nat} (hd : s.media.dirtyDir = d :: rest)
    (hf : 4096 ≤ s.media.dirtyDir.length + s.metaPending 3) : exec .mapPageWriteback s = .next ((s.writeDir d).padStripe .metadata 0) := by
  change execMapPageWriteback s = _
  rw [hd] at hf
  simp only [execMapPageWriteback, hd, hf, decide_true, if_true]

end

/-- Settles O16: a group's erase by its conditions, and the map pages in their order. -/
theorem groupsAreErasedAfterTheirRecords : Obligations.GroupsAreErasedAfterTheirRecords := by
  unfold Obligations.GroupsAreErasedAfterTheirRecords
  refine ⟨fun s g x r h hr hk hl => ?_, fun s g x h hn => ?_, fun s g x h hst her hd hc hp => exec_groupErase_of_durable h hst her hd hc hp,
    fun s g x h hst her hall => exec_groupErased_of_all h hst her hall, fun s hw ho => ?_,
    fun s p t hd hp ht => ⟨exec_mapPageWriteback_of_dirtiest hd hp ht, State.dirtiest_most hp⟩, fun s d rest hd hf => exec_mapPageWriteback_of_full hd hf⟩
  · exact exec_groupErase_of_not_durable h (.inr (.inl (State.freeDurable_of_rec hr hk (hl.trans (State.num_of_group? h).symm))))
  · rcases hn with hf | hc | hp
    · exact exec_groupErase_of_not_durable h (.inl hf)
    · exact exec_groupErase_of_not_durable h (.inr (.inr (.inl hc)))
    · exact exec_groupErase_of_not_durable h (.inr (.inr (.inr hp)))
  · change execBlockWriteBufferDrain s = _
    simp [execBlockWriteBufferDrain, hw, ho]

end Sys2Proof.Machine
end

section
/-!
Placement on distinct channels, and the pieces that parity gives back (R257, R261, R265).
-/

namespace Sys2Proof.Machine

/-! ### Distinct channels -/

theorem dieChannel_of_lt {c d : Nat} (hd : d < 16) : dieChannel (c * 16 + d) = c := by
  rw [dieChannel]
  omega

theorem getD_order_lt {order : List (List Nat)} (h : ∀ l ∈ order, ∀ d ∈ l, d < 16) (c i : Nat) : (order.getD c []).getD i 0 < 16 := by
  have hl : ∀ d ∈ order.getD c [], d < 16 := by
    rw [List.getD_eq_getElem?_getD]
    cases hc : order[c]? with
    | none => exact fun d hd => absurd hd List.not_mem_nil
    | some l => exact h l (List.mem_of_getElem? hc)
  rw [List.getD_eq_getElem?_getD]
  cases hi : (order.getD c [])[i]? with
  | none => exact Nat.zero_lt_succ _
  | some d => exact hl d (List.mem_of_getElem? hi)

/-- A member is added to a row on a channel that it does not use yet, where there is one. -/
theorem layoutMember_distinct {n : Nat} {g : LayoutGen} {row : List Nat} (ho : ∀ l ∈ g.order, ∀ d ∈ l, d < 16)
    (hr : (row.map dieChannel).Nodup) :
    ((layoutMember n g row).2.map dieChannel).Nodup ∧ (layoutMember n g row).1.order = g.order := by
  unfold layoutMember
  dsimp only
  generalize shuffle01 (List.range 32) g.st = r
  generalize hg : (if g.q.all (row.map dieChannel).contains then { g with st := r.2, q := g.q ++ r.1 } else g) = g'
  have hord : g'.order = g.order := by rw [← hg, apply_ite LayoutGen.order, ite_self]
  cases hc : g'.q.find? fun c => !(row.map dieChannel).contains c with
  | none => exact ⟨hr, hord⟩
  | some c =>
    have hfree : (row.map dieChannel).contains c = false := by simpa using List.find?_some hc
    refine ⟨?_, hord⟩
    rw [List.map_append, List.map_singleton, dieChannel_of_lt (getD_order_lt (hord ▸ ho) _ _)]
    refine List.nodup_append.mpr ⟨hr, List.nodup_singleton _, fun a ha b hb => ?_⟩
    rintro rfl
    rw [List.mem_singleton.mp hb] at ha
    simp [ha] at hfree

theorem layoutRow_distinct {n w : Nat} {g : LayoutGen} {row : List Nat} (ho : ∀ l ∈ g.order, ∀ d ∈ l, d < 16)
    (hr : (row.map dieChannel).Nodup) : ((layoutRow n w g row).2.map dieChannel).Nodup := by
  induction w generalizing g row with
  | zero => exact hr
  | succ w ih =>
    obtain ⟨hm, hord⟩ := layoutMember_distinct (n := n) ho hr
    exact ih (hord ▸ ho) hm

theorem modAt_length {α : Type} (l : List α) (n : Nat) (f : α → α) : (modAt l n f).length = l.length := by
  induction l generalizing n with
  | nil => rfl
  | cons x l ih =>
    cases n with
    | zero => rfl
    | succ n => rw [modAt, List.length_cons, List.length_cons, ih]

/-- Replacing one member by a die on a channel of no other keeps the channels distinct. -/
theorem nodup_modAt {row : List Nat} {i d : Nat} (hr : (row.map dieChannel).Nodup)
    (hd : dieChannel d ∉ (row.zipIdx.filter (·.2 != i)).map fun x => dieChannel x.1) : ((modAt row i fun _ => d).map dieChannel).Nodup := by
  have hother (j x : Nat) (hj : j ≠ i) (hx : row[j]? = some x) : dieChannel x ≠ dieChannel d := fun he =>
    hd (he ▸ List.mem_map.mpr ⟨(x, j), List.mem_filter.mpr ⟨List.mk_mem_zipIdx_iff_getElem?.mpr hx, by simpa using hj⟩, rfl⟩)
  rw [List.nodup_iff_getElem?_ne_getElem?] at hr ⊢
  intro j k hjk hk
  rw [List.length_map, modAt_length] at hk
  have hrow := hr j k hjk (by rwa [List.length_map])
  have hjl : j < row.length := hjk.trans hk
  simp only [List.getElem?_map, modAt_getElem?, List.getElem?_eq_getElem hk, List.getElem?_eq_getElem hjl] at hrow ⊢
  by_cases hji : j = i
  · have hki : k ≠ i := by omega
    simpa [hji, hki] using fun he => hother k row[k] hki (List.getElem?_eq_getElem hk) he.symm
  · by_cases hki : k = i
    · simpa [hji, hki] using hother j row[j] hji (List.getElem?_eq_getElem hjl)
    · simpa [hji, hki] using hrow

/-- A substitution of members keeps the channels distinct. -/
theorem State.substitute_distinct {s : State} {n i : Nat} {order : List (List Nat)} {turn row : List Nat} {r : List Nat × List Nat}
    (ho : ∀ l ∈ order, ∀ d ∈ l, d < 16) (hr : (row.map dieChannel).Nodup) (h : s.substitute n order turn i row = some r) :
    (r.1.map dieChannel).Nodup := by
  induction i generalizing r with
  | zero => cases h; exact hr
  | succ i ih =>
    rw [State.substitute] at h
    cases hs : s.substitute n order turn i row with
    | none => simp [hs] at h
    | some r' =>
      obtain ⟨row', turn'⟩ := r'
      have hr' := ih hs
      simp only [hs] at h
      split at h
      · cases h; exact hr'
      · split at h
        · cases h
        next d2 _ htries =>
          cases h
          have hmem : d2 ∈ _ := htries ▸ List.mem_cons_self
          obtain ⟨t, -, ht⟩ := List.mem_filterMap.mp hmem
          split at ht
          next hc =>
            obtain ⟨j, -, hj⟩ := List.mem_map.mp (List.mem_of_find?_eq_some ht)
            obtain ⟨-, hfree⟩ := Bool.and_eq_true_iff.mp hc
            refine nodup_modAt hr' fun hin => ?_
            rw [← hj, dieChannel_of_lt (getD_order_lt ho _ _)] at hin
            rw [List.contains_iff_mem.mpr hin] at hfree
            cases hfree
          next => cases ht

/-! ### Reconstruction -/

theorem missing_of_all (ds : List Bytes) (k : Nat) : ((ds.map some).zipIdx k).filter (fun d : Option Bytes × Nat => d.1.isNone) = [] := by
  refine List.filter_eq_nil_iff.mpr fun x hx => ?_
  obtain ⟨y, -, hy⟩ := List.mem_map.mp (List.fst_mem_of_mem_zipIdx hx)
  simp [← hy]

theorem reconstruct_of_all (ds : List Bytes) (p q : Option Bytes) : reconstruct (ds.map some) p q = some ds := by
  have hmiss := missing_of_all ds 0
  have hknown : (ds.map some).map (fun d => d.getD zeroPiece) = ds := by simp
  have hfew : ¬ 2 < ([] : List Nat).length + (if p.isNone then 1 else 0) + (if q.isNone then 1 else 0) := by
    cases p <;> cases q <;> simp
  simp only [reconstruct, hmiss, hknown, List.map_nil, hfew, if_false]

theorem reconstruct_of_too_few (ds : List (Option Bytes)) (p q : Option Bytes) (h : 2 < rowGone (ds, p, q)) : reconstruct ds p q = none := by
  have hcount : ((ds.zipIdx.filter fun d : Option Bytes × Nat => d.1.isNone).map (·.2)).length = (ds.filter (·.isNone)).length := by
    conv_rhs => rw [← List.zipIdx_map_fst 0 ds, List.filter_map, List.length_map]
    rw [List.length_map]
    rfl
  simp only [reconstruct, hcount]
  exact if_pos h

theorem xorBytes_length {a b : Bytes} (ha : a.length = 4096) (hb : b.length = 4096) : (xorBytes a b).length = 4096 := by
  rw [xorBytes, List.length_zipWith, ha, hb, min_self]

theorem xorBytes_comm (a b : Bytes) : xorBytes a b = xorBytes b a := List.zipWith_comm_of_comm fun x y => BitVec.xor_comm x y

theorem xorBytes_assoc (a b d : Bytes) : xorBytes (xorBytes a b) d = xorBytes a (xorBytes b d) := by
  refine List.ext_getElem? fun i => ?_
  simp only [xorBytes, List.getElem?_zipWith]
  cases a[i]? <;> cases b[i]? <;> cases d[i]? <;> simp [BitVec.xor_assoc]

theorem xorBytes_replicate_zero (a : Bytes) : xorBytes a (List.replicate a.length 0) = a := by
  induction a with
  | nil => rfl
  | cons x a ih => rw [List.length_cons, List.replicate_succ, xorBytes, List.zipWith_cons_cons, show x ^^^ 0 = x from BitVec.xor_zero, ← xorBytes, ih]

theorem xorBytes_replicate_self (a : Bytes) : xorBytes a a = List.replicate a.length 0 := by
  induction a with
  | nil => rfl
  | cons x a ih => rw [List.length_cons, List.replicate_succ, xorBytes, List.zipWith_cons_cons, show x ^^^ x = 0 from BitVec.xor_self, ← xorBytes, ih]

theorem xorBytes_zeroPiece {a : Bytes} (ha : a.length = 4096) : xorBytes a zeroPiece = a := by
  rw [zeroPiece, ← ha, xorBytes_replicate_zero]

theorem xorBytes_self {a : Bytes} (ha : a.length = 4096) : xorBytes a a = zeroPiece := by
  rw [zeroPiece, ← ha, xorBytes_replicate_self]

/-- P of pieces, one of them taken out. -/
theorem foldl_xorBytes_set {ds : List Bytes} (h : ∀ d ∈ ds, d.length = 4096) {x : Nat} (hx : x < ds.length) {a : Bytes} (ha : a.length = 4096) :
    ds.foldl xorBytes a = xorBytes ((ds.set x zeroPiece).foldl xorBytes a) ds[x] ∧ ((ds.set x zeroPiece).foldl xorBytes a).length = 4096 := by
  have hfold (l : List Bytes) (hl : ∀ d ∈ l, d.length = 4096) (b : Bytes) (hb : b.length = 4096) : (l.foldl xorBytes b).length = 4096 := by
    induction l generalizing b with
    | nil => exact hb
    | cons d l ih => exact ih (fun e he => hl e (List.mem_cons_of_mem _ he)) _ (xorBytes_length hb (hl d List.mem_cons_self))
  have hout (l : List Bytes) (b c : Bytes) : l.foldl xorBytes (xorBytes b c) = xorBytes (l.foldl xorBytes b) c := by
    induction l generalizing b with
    | nil => rfl
    | cons d l ih => rw [List.foldl_cons, List.foldl_cons, xorBytes_assoc, xorBytes_comm c d, ← xorBytes_assoc, ih]
  induction ds generalizing x a with
  | nil => exact absurd hx (Nat.not_lt_zero _)
  | cons d ds ih =>
    have hd := h d List.mem_cons_self
    have hds : ∀ e ∈ ds, e.length = 4096 := fun e he => h e (List.mem_cons_of_mem _ he)
    cases x with
    | zero =>
      rw [List.set_cons_zero, List.foldl_cons, List.foldl_cons, xorBytes_zeroPiece ha, hout]
      exact ⟨rfl, hfold _ hds _ ha⟩
    | succ x =>
      rw [List.set_cons_succ, List.foldl_cons, List.foldl_cons, List.getElem_cons_succ]
      exact ih hds (Nat.lt_of_succ_lt_succ hx) (xorBytes_length ha hd)

theorem modAt_eq_set {α : Type} (l : List α) (n : Nat) (a : α) : (modAt l n fun _ => a) = l.set n a := by
  refine List.ext_getElem? fun i => ?_
  rw [modAt_getElem?, List.getElem?_set]
  grind

theorem missing_of_one (ds : List Bytes) (k : Nat) {x : Nat} (hx : x < ds.length) :
    ((((ds.map some).set x none).zipIdx k).filter (fun d : Option Bytes × Nat => d.1.isNone)).map (·.2) = [x + k] := by
  induction ds generalizing x k with
  | nil => exact absurd hx (Nat.not_lt_zero _)
  | cons d ds ih =>
    cases x with
    | zero => simp [missing_of_all]
    | succ x =>
      have hrest := ih (k + 1) (Nat.lt_of_succ_lt_succ hx)
      simp only [List.map_cons, List.set_cons_succ, List.zipIdx_cons, List.filter_cons, Option.isNone_some, Bool.false_eq_true, if_false, hrest]
      rw [Nat.add_right_comm, Nat.add_assoc]

/-- One missing piece comes back from P (R261). -/
theorem reconstruct_of_one {ds : List Bytes} (h : ∀ d ∈ ds, d.length = 4096) {x : Nat} (hx : x < ds.length) :
    reconstruct ((ds.map some).set x none) (some (pOf ds)) (some (qOf ds)) = some ds := by
  have hmiss : ((((ds.map some).set x none).zipIdx.filter fun d : Option Bytes × Nat => d.1.isNone).map (·.2)) = [x] := missing_of_one ds 0 hx
  have hknown : ((ds.map some).set x none).map (fun d => d.getD zeroPiece) = ds.set x zeroPiece := by
    rw [List.map_set, List.map_map]
    simp
  have hback : xorBytes (pOf ds) (pOf (ds.set x zeroPiece)) = ds[x] := by
    obtain ⟨hp, hlen⟩ := foldl_xorBytes_set h hx (a := zeroPiece) List.length_replicate
    rw [pOf, hp, xorBytes_comm, pOf, ← xorBytes_assoc, xorBytes_self hlen, xorBytes_comm, xorBytes_zeroPiece (h _ (List.getElem_mem hx))]
  simp only [reconstruct, hmiss, hknown, hback, modAt_eq_set, List.set_set, List.set_getElem_self]
  simp

/-- Settles O19: a member is only put on a channel of no other, and P is its pieces' sum. -/
theorem stripesSurviveALostChannel : Obligations.StripesSurviveALostChannel := by
  unfold Obligations.StripesSurviveALostChannel
  exact ⟨fun n w g ho => layoutRow_distinct ho List.nodup_nil, fun s n order turn row i r ho hr h => State.substitute_distinct ho hr h,
    reconstruct_of_all, reconstruct_of_too_few, fun ds x h hx => reconstruct_of_one h hx⟩

end Sys2Proof.Machine
end

section
/-!
OTP programming, roles, the audit log and perturbation (R576-R600).
-/

namespace Sys2Proof.Machine

open Sys2Proof.Laws

/-! ### Fields of a byte string -/

theorem leNat_leBytes (n v : Nat) : leNat (leBytes n v) = v % 2 ^ (8 * n) := by
  induction n generalizing v with
  | zero => simp [leBytes, leNat, Nat.mod_one]
  | succ n ih =>
    have hpow : (2 : Nat) ^ (8 * (n + 1)) = 256 * 2 ^ (8 * n) := by rw [Nat.mul_add, Nat.pow_add]; ring
    rw [leBytes, leNat, ih, BitVec.toNat_ofNat, hpow, Nat.mod_mul]

theorem sliceBytes_skip {a : Bytes} {off : Nat} (h : a.length ≤ off) (b : Bytes) (len : Nat) :
    sliceBytes (a ++ b) off len = sliceBytes b (off - a.length) len := by
  simp [sliceBytes, List.drop_append, List.drop_eq_nil_of_le h]

theorem sliceBytes_prefix {a : Bytes} {len : Nat} (h : a.length = len) (b : Bytes) : sliceBytes (a ++ b) 0 len = a := by
  subst h
  simp [sliceBytes]

theorem sliceBytes_all {a : Bytes} {len : Nat} (h : a.length = len) : sliceBytes a 0 len = a := by
  subst h
  simp [sliceBytes]

/-- Bytes that a longer field begins with. -/
theorem sliceBytes_padTo {a : Bytes} {n : Nat} (h : a.length ≤ n) (b : Bytes) : sliceBytes (padTo n a ++ b) 0 a.length = a := by
  have hpad : padTo n a = a ++ List.replicate (n - a.length) 0 := by
    simp [padTo, sliceBytes, List.take_of_length_le h]
  rw [hpad, List.append_assoc, sliceBytes_prefix rfl]

theorem length_padTo (n : Nat) (a : Bytes) : (padTo n a).length = n := length_sliceBytes ..

/-! ### The audit log (R593, R594) -/

section
variable (seq time rtc role : Nat) (o : Origin) (action result : Nat) (param prev : Bytes)

theorem originCode_lt : originCode o < 256 := by cases o <;> simp [originCode]

/-- The fields of an audit entry. -/
theorem auditEntry_fields : (auditEntry seq time rtc role o action result param prev).take 8 = leBytes 8 seq
    ∧ sliceBytes (auditEntry seq time rtc role o action result param prev) 8 8 = leBytes 8 time
    ∧ leNat (sliceBytes (auditEntry seq time rtc role o action result param prev) 24 1) = role % 256
    ∧ leNat (sliceBytes (auditEntry seq time rtc role o action result param prev) 25 1) = originCode o
    ∧ leNat (sliceBytes (auditEntry seq time rtc role o action result param prev) 28 2) = action % 65536
    ∧ leNat (sliceBytes (auditEntry seq time rtc role o action result param prev) 30 1) = result % 256
    ∧ (param.length ≤ 64 → sliceBytes (auditEntry seq time rtc role o action result param prev) 32 param.length = param)
    ∧ (auditEntry seq time rtc role o action result param prev).drop 96 = prev := by
  have hcode := Nat.mod_eq_of_lt (originCode_lt o)
  unfold auditEntry
  simp only [List.append_assoc]
  refine ⟨?_, ?_, ?_, ?_, ?_, ?_, fun h => ?_, ?_⟩
  · rw [List.take_append_of_le_length (by rw [length_leBytes]), List.take_of_length_le (by rw [length_leBytes])]
  · simp [sliceBytes_skip, sliceBytes_prefix, length_leBytes]
  · simp [sliceBytes_skip, sliceBytes_prefix, length_leBytes, leNat_leBytes]
  · simp [sliceBytes_skip, sliceBytes_prefix, length_leBytes, leNat_leBytes, hcode]
  · simp [sliceBytes_skip, sliceBytes_prefix, length_leBytes, leNat_leBytes]
  · simp [sliceBytes_skip, sliceBytes_prefix, length_leBytes, leNat_leBytes]
  · simp only [sliceBytes_skip, length_leBytes, Nat.reduceLeDiff, Nat.reduceSub]
    exact (sliceBytes_skip (by decide) _ _).trans (sliceBytes_padTo h prev)
  · simp [List.drop_append, length_leBytes, length_padTo, List.drop_eq_nil_of_le]

end

section
variable (s : State) (o : Origin) (role action result : Nat) (param : Bytes)

/-- The entry that an audit appends. -/
def State.newAudit : Bytes := auditEntry s.trust.auditSeq s.time s.rtcValue role o action result param s.auditPrev

/-- The audit log after an entry, the oldest dropped where it is full. -/
def State.longerAudit : List Bytes :=
  if 65536 < (s.trust.audit ++ [s.newAudit o role action result param]).length then
    (s.trust.audit ++ [s.newAudit o role action result param]).drop 1
  else s.trust.audit ++ [s.newAudit o role action result param]

theorem State.longerAudit_last : (s.longerAudit o role action result param).getLast? = some (s.newAudit o role action result param) := by
  unfold State.longerAudit
  split
  next h =>
    cases hl : s.trust.audit with
    | nil => rw [hl] at h; exact absurd h (by simp)
    | cons x l => rw [List.cons_append, List.drop_one, List.tail_cons, List.getLast?_concat]
  next => exact List.getLast?_concat

theorem State.audit_trust : (s.audit o role action result param).trust =
    { s.trust with
      audit := s.longerAudit o role action result param
      auditSeq := s.trust.auditSeq + 1
      auditHead := sha256 (s.newAudit o role action result param)
      auditHeadSeq := leNat ((s.newAudit o role action result param).take 8) } := by
  have hsync (u : State) (e : Bytes) (h : u.trust.audit.getLast? = some e) :
      u.auditSync.trust = { u.trust with auditHead := sha256 e, auditHeadSeq := leNat (e.take 8) } := by
    unfold State.auditSync
    rw [h]
    rfl
  exact hsync { s with trust := { s.trust with audit := s.longerAudit o role action result param, auditSeq := s.trust.auditSeq + 1 } } _
    (s.longerAudit_last ..)

theorem State.audit_prev : (s.audit o role action result param).auditPrev = sha256 (s.newAudit o role action result param) := by
  rw [State.auditPrev, State.audit_trust]
  simp only [State.longerAudit_last]

theorem State.longerAudit_length (h : s.trust.audit.length ≤ 65536) : (s.longerAudit o role action result param).length ≤ 65536 := by
  unfold State.longerAudit
  split
  · simpa using h
  · omega

theorem State.audit_time : (s.audit o role action result param).time = s.time := keeps_time (State.forget_audit (T := 0x800000800) rfl ..) rfl

theorem State.audit_get (x : Fld) : (s.audit o role action result param).get x = s.get x :=
  State.get_of_regs (keeps_regs (State.forget_audit (T := 0x800000800) rfl ..) rfl) x

/-- What an audited refusal or failure leaves of the trust state: all but the audit log. -/
def TrustSt.sansAudit (x : TrustSt) : TrustSt := { x with audit := [], auditSeq := 0, auditHead := [], auditHeadSeq := 0 }

theorem State.audit_sansAudit : (s.audit o role action result param).trust.sansAudit = s.trust.sansAudit := by
  rw [State.audit_trust]
  rfl

theorem State.auditCoalesced_sansAudit (cnt : Nat) : (s.auditCoalesced o role action result param cnt).trust.sansAudit = s.trust.sansAudit := by
  have hsync (u : State) : u.auditSync.trust.sansAudit = u.trust.sansAudit := by
    unfold State.auditSync
    split <;> rfl
  unfold State.auditCoalesced
  split
  · exact State.audit_sansAudit ..
  · exact hsync _

theorem State.auditCoalesced_time (cnt : Nat) : (s.auditCoalesced o role action result param cnt).time = s.time :=
  keeps_time (State.forget_auditCoalesced (T := 0x800000800) rfl ..) rfl

theorem State.auditCoalesced_get (cnt : Nat) (x : Fld) : (s.auditCoalesced o role action result param cnt).get x = s.get x :=
  State.get_of_regs (keeps_regs (State.forget_auditCoalesced (T := 0x800000800) rfl ..) rfl) x

end

/-! ### OTP programming (R576-R579) -/

/-- What burning bytes leaves of each byte. -/
theorem burn_from {bs : Bytes} (a k : Nat) {m : List (Nat × Byte)} (h : memWf m = true) :
    memWf ((bs.zipIdx k).foldl (fun m x => memWrite m (a + x.2) (memRead m (a + x.2) ||| x.1)) m) = true
    ∧ ∀ c, memRead ((bs.zipIdx k).foldl (fun m x => memWrite m (a + x.2) (memRead m (a + x.2) ||| x.1)) m) c
      = if a + k ≤ c then memRead m c ||| bs.getD (c - (a + k)) 0 else memRead m c := by
  induction bs generalizing k m with
  | nil => exact ⟨h, fun c => by simp⟩
  | cons b bs ih =>
    obtain ⟨hwf, hread⟩ := ih (k + 1) (memWrite_wf h (a + k) (memRead m (a + k) ||| b))
    refine ⟨hwf, fun c => (hread c).trans ?_⟩
    by_cases hc : c = a + k
    · subst hc
      rw [if_neg (by omega), if_pos le_rfl, memRead_memWrite_same h, Nat.sub_self]
      rfl
    · rw [memRead_memWrite_other h _ _ hc]
      by_cases hlt : a + k ≤ c
      · have hsub : c - (a + k) = c - (a + (k + 1)) + 1 := by omega
        rw [if_pos (by omega), if_pos hlt, hsub, List.getD_cons_succ]
      · rw [if_neg (by omega), if_neg hlt]

theorem burn_wf {m : List (Nat × Byte)} (h : memWf m = true) (a : Nat) (bs : Bytes) : memWf (burn m a bs) = true := (burn_from a 0 h).1

theorem memRead_burn {m : List (Nat × Byte)} (h : memWf m = true) (a : Nat) (bs : Bytes) (c : Nat) :
    memRead (burn m a bs) c = if a ≤ c then memRead m c ||| bs.getD (c - a) 0 else memRead m c := (burn_from a 0 h).2 c

theorem memReadN_ext {m n : List (Nat × Byte)} {a k : Nat} (h : ∀ c, a ≤ c → c < a + k → memRead m c = memRead n c) :
    memReadN m a k = memReadN n a k := by
  refine List.ext_getElem (by rw [length_memReadN, length_memReadN]) fun i hi _ => ?_
  rw [memReadN_getElem, memReadN_getElem]
  rw [length_memReadN] at hi
  exact h _ (Nat.le_add_right ..) (by omega)

theorem memReadN_burn_other {m : List (Nat × Byte)} (h : memWf m = true) {a b k : Nat} {bs : Bytes} (hd : b + k ≤ a ∨ a + bs.length ≤ b) :
    memReadN (burn m a bs) b k = memReadN m b k := by
  refine memReadN_ext fun c h1 h2 => ?_
  rw [memRead_burn h]
  split
  · rw [List.getD_eq_default _ _ (by omega)]
    exact BitVec.or_zero
  · rfl

/-- Bytes burnt into a blank place are there, and bytes of all ones everywhere. -/
theorem memReadN_burn_same {m : List (Nat × Byte)} (h : memWf m = true) {a : Nat} {bs : Bytes}
    (hb : ∀ i (hi : i < bs.length), memRead m (a + i) = 0 ∨ bs[i] = 0xFF) : memReadN (burn m a bs) a bs.length = bs := by
  refine List.ext_getElem (length_memReadN ..) fun i h1 h2 => ?_
  rw [memReadN_getElem, memRead_burn h, if_pos (Nat.le_add_right ..), Nat.add_sub_cancel_left, List.getD_eq_getElem _ _ h2]
  rcases hb i h2 with hz | hf
  · rw [hz]
    exact BitVec.zero_or
  · rw [hf]
    exact BitVec.or_allOnes (w := 8)

/-- The OTP after a generation was programmed: its first byte last, and only where the rest reads back. -/
def burnt (otp : List (Nat × Byte)) (base : Nat) (img : Bytes) (readBack : Bool) : List (Nat × Byte) :=
  if readBack then burn (burn otp (base + 1) (img.drop 1)) base (img.take 1) else burn otp (base + 1) (img.drop 1)

theorem State.burnGen_trust (s : State) (base : Nat) (img : Bytes) (readBack : Bool) :
    (s.burnGen base img readBack).trust = { s.trust with otp := burnt s.trust.otp base img readBack } := by
  have hshow (t : State) : t.showOtp.trust = t.trust := keeps_trust (State.forget_showOtp (T := 0x20) rfl ..) rfl
  rw [State.burnGen, hshow, burnt]
  cases readBack with
  | false => rfl
  | true =>
    rw [if_pos rfl, if_pos rfl, State.pulse_trust]
    rfl

section
variable {m : List (Nat × Byte)} (h : memWf m = true) {base : Nat} {img : Bytes}
include h

theorem burnt_byte (rb : Bool) (i : Nat) : memRead (burnt m base img rb) (base + i)
    = if i = 0 then memRead m base ||| (if rb then img.getD 0 0 else 0) else memRead m (base + i) ||| img.getD i 0 := by
  have hfirst (i : Nat) : memRead (burn m (base + 1) (img.drop 1)) (base + i)
      = if i = 0 then memRead m base else memRead m (base + i) ||| img.getD i 0 := by
    rw [memRead_burn h]
    by_cases hi : i = 0
    · subst hi
      rw [if_neg (by omega), if_pos rfl, Nat.add_zero]
    · have hget : (img.drop 1).getD (base + i - (base + 1)) 0 = img.getD i 0 := by
        have : 1 + (base + i - (base + 1)) = i := by omega
        rw [List.getD_eq_getElem?_getD, List.getElem?_drop, this, List.getD_eq_getElem?_getD]
      rw [if_pos (by omega), if_neg hi, hget]
  unfold burnt
  cases rb with
  | false =>
    simp only [Bool.false_eq_true, if_false, hfirst]
    split
    · exact BitVec.or_zero.symm
    · rfl
  | true =>
    rw [if_pos rfl, memRead_burn (burn_wf h ..), if_pos (Nat.le_add_right ..), hfirst, Nat.add_sub_cancel_left]
    split
    next hi =>
      subst hi
      cases img <;> rfl
    next hi =>
      rw [List.getD_eq_default (img.take 1) _ (by rw [List.length_take]; omega)]
      exact BitVec.or_zero

theorem burnt_other {b k : Nat} (rb : Bool) (hd : b + k ≤ base ∨ base + img.length ≤ b) (hne : img ≠ []) :
    memReadN (burnt m base img rb) b k = memReadN m b k := by
  have hlen : 0 < img.length := List.length_pos_of_ne_nil hne
  have hfirst : memReadN (burn m (base + 1) (img.drop 1)) b k = memReadN m b k :=
    memReadN_burn_other h (by rw [List.length_drop]; omega)
  unfold burnt
  split
  · rw [memReadN_burn_other (burn_wf h ..) (by rw [List.length_take]; omega), hfirst]
  · exact hfirst

/-- A generation burnt into a blank slot reads as its image, the first byte only where the rest read back. -/
theorem burnt_blank (rb : Bool) (hb : ∀ i < img.length, memRead m (base + i) = 0) {i : Nat} (hi : i < img.length) :
    memRead (burnt m base img rb) (base + i) = if i = 0 ∧ rb = false then 0 else img[i] := by
  rw [burnt_byte h, List.getD_eq_getElem _ _ hi, hb i hi]
  by_cases h0 : i = 0
  · subst h0
    have hz : memRead m base = 0 := hb 0 hi
    cases rb with
    | false => simp [hz]
    | true => simp [hz, List.getElem?_eq_getElem hi]
  · rw [if_neg h0, if_neg fun h => h0 h.1]
    exact BitVec.zero_or

theorem burnt_same (hb : ∀ i < img.length, memRead m (base + i) = 0) : memReadN (burnt m base img true) base img.length = img := by
  refine List.ext_getElem (length_memReadN ..) fun i h1 h2 => ?_
  rw [memReadN_getElem, burnt_blank h true hb h2, if_neg (by simp)]

end

theorem blank_of_unused {m : List (Nat × Byte)} {a n : Nat} (h : imgUsed (memReadN m a n) = false) (i : Nat) (hi : i < n) : memRead m (a + i) = 0 := by
  have hmem : memRead m (a + i) ∈ memReadN m a n := by
    have hlen : i < (memReadN m a n).length := by rwa [length_memReadN]
    rw [← memReadN_getElem m a n i hlen]
    exact List.getElem_mem hlen
  have := List.any_eq_false.mp h _ hmem
  simpa using this

/-! ### OTP commands -/

section
variable {s : State} {c : Cmd} {data : Bytes}

/-- The role that programs a generation. -/
def otpRole (data : Bytes) : Role := if data.length = 256 then .maker else .installer

/-- The first blank slot of a generation's block. -/
def State.freeGen (s : State) (data : Bytes) : Option Nat :=
  if data.length = 256 then (List.range 3).find? fun g => !imgUsed (s.makerImage g) else (List.range 4).find? fun g => !imgUsed (s.instImage g)

/-- A valid image for a slot. -/
def State.otpOk (s : State) (data : Bytes) (g : Nat) : Bool :=
  if data.length = 256 then makerOk data && (g == 0 || repeatsFirst (s.makerImage 0) data) else instOk data

/-- An audited attempt to program a generation. -/
def State.otpLogged (s : State) (fn : Nat) (data : Bytes) (g r : Nat) : State :=
  (s.audit (.pcie fn) (otpRole data).num 0x0020 r (otpParam (b2n (!(data.length == 256))) g data)).touch (.pcie fn)

theorem exec_otpProgram_eq (ha : s.adminReady c.fn = true) (hpf : isPf c.fn = true) (rb : Bool) :
    exec (.otpProgram c data rb) s = .next (if s.holdsExactly (.pcie c.fn) (otpRole data) = false then s.completeAdmin c Nv.role
      else if s.otpOk data ((s.freeGen data).getD 0) = false then
        ((s.otpLogged c.fn data ((s.freeGen data).getD 0) 1).record 5 E.OTP_IMAGE_BAD (roleInfo (.pcie c.fn) ((s.freeGen data).getD 0)) c.fn).completeAdmin c
          Nv.badField
      else match s.freeGen data with
        | none => ((s.otpLogged c.fn data 0 1).record 5 E.OTP_EXHAUSTED (roleInfo (.pcie c.fn) 0) c.fn).completeAdmin c Nv.space
        | some g =>
          if rb then ((s.otpLogged c.fn data g 0).burnGen (if data.length = 256 then 256 * g else 768 + 768 * g) data rb).completeAdmin c Nv.ok
          else (((s.otpLogged c.fn data g 0).burnGen (if data.length = 256 then 256 * g else 768 + 768 * g) data rb).record 5 E.OTP_PROGRAM_FAIL
            (roleInfo (.pcie c.fn) g) c.fn).completeAdmin c Nv.internal) := by
  show execOtpProgram c data rb s = _
  unfold execOtpProgram State.otpOk State.freeGen State.otpLogged otpRole
  simp only [ha, hpf, beq_iff_eq, Bool.not_true, Bool.false_eq_true, if_false, Bool.not_eq_true']
  generalize (if data.length = 256 then (List.range 3).find? fun g => !imgUsed (s.makerImage g)
    else (List.range 4).find? fun g => !imgUsed (s.instImage g)) = free
  cases free with
  | none =>
    simp only [Option.getD_none]
    split_ifs <;> rfl
  | some g =>
    simp only [Option.getD_some]
    split_ifs <;> rfl

theorem State.completeAdmin_trust (s : State) (c : Cmd) (status dw0 dw1 : Nat) : (s.completeAdmin c status dw0 dw1).trust = s.trust :=
  keeps_trust (State.forget_completeAdmin (T := 0x480000420) rfl ..) rfl

theorem State.otpLogged_otp (s : State) (fn g r : Nat) (data : Bytes) : (s.otpLogged fn data g r).trust.otp = s.trust.otp
    ∧ (s.otpLogged fn data g r).trust.makerGen = s.trust.makerGen ∧ (s.otpLogged fn data g r).trust.instGen = s.trust.instGen := by
  rw [State.otpLogged, State.touch, State.audit_trust]
  exact ⟨rfl, rfl, rfl⟩

theorem State.otpLogged_get (s : State) (fn g r : Nat) (data : Bytes) (x : Fld) : (s.otpLogged fn data g r).get x = s.get x := State.audit_get ..

theorem imgN_one (img : Bytes) (a : Nat) : imgN img a 1 = (img.getD a 0).toNat := by
  have h : sliceBytes img a 1 = [img.getD a 0] := by
    unfold sliceBytes
    by_cases ha : a < img.length
    · rw [List.drop_eq_getElem_cons ha, List.getD_eq_getElem _ _ ha]
      rfl
    · rw [List.drop_eq_nil_of_le (Nat.le_of_not_lt ha), List.getD_eq_default _ _ (Nat.le_of_not_lt ha)]
      rfl
  rw [imgN, h]
  simp [leNat]

theorem makerOk_head {img : Bytes} (h : makerOk img = true) : (img.getD 0 0).toNat = 0xA5 ∧ (img.getD 1 0).toNat = 1 := by
  unfold makerOk at h
  simp only [Bool.and_eq_true, beq_iff_eq, imgN_one] at h
  exact ⟨h.1.1.2, h.1.2⟩

section
variable {t : State} {g : Nat} {rb : Bool}

theorem State.makerImage_burnt (hwf : memWf s.trust.otp = true) (hlen : data.length = 256) (hg : g < 3) (hb : imgUsed (s.makerImage g) = false)
    (ht : t.trust.otp = burnt s.trust.otp (256 * g) data rb) : (rb = true → t.makerImage g = data)
    ∧ (∀ h < 3, h ≠ g → t.makerImage h = s.makerImage h) ∧ ∀ h < 4, t.instImage h = s.instImage h := by
  have hne : data ≠ [] := fun e => by rw [e] at hlen; cases hlen
  have hblank : ∀ i < data.length, memRead s.trust.otp (256 * g + i) = 0 := fun i hi => blank_of_unused hb i (hlen ▸ hi)
  refine ⟨?_, fun h hh hne' => ?_, fun h hh => ?_⟩
  · rintro rfl
    have hsame := burnt_same hwf hblank
    rw [State.makerImage, State.otpN, ht]
    rwa [hlen] at hsame
  · rw [State.makerImage, State.otpN, ht, burnt_other hwf rb (by omega) hne]
    rfl
  · rw [State.instImage, State.otpN, ht, burnt_other hwf rb (by omega) hne]
    rfl

/-- A slot whose rest did not read back is used and not valid. -/
theorem State.makerImage_unread (hwf : memWf s.trust.otp = true) (hlen : data.length = 256) (hb : imgUsed (s.makerImage g) = false)
    (hok : makerOk data = true) (ht : t.trust.otp = burnt s.trust.otp (256 * g) data false) :
    imgUsed (t.makerImage g) = true ∧ t.makerValid g = false := by
  have hblank : ∀ i < data.length, memRead s.trust.otp (256 * g + i) = 0 := fun i hi => blank_of_unused hb i (hlen ▸ hi)
  obtain ⟨-, h1⟩ := makerOk_head hok
  have hget (i : Nat) (hi : i < 256) : (t.makerImage g).getD i 0 = if i = 0 then 0 else data.getD i 0 := by
    have hlen' : i < (t.makerImage g).length := by rwa [State.makerImage, State.otpN, length_memReadN]
    have hread : (t.makerImage g)[i] = memRead t.trust.otp (256 * g + i) := memReadN_getElem ..
    rw [List.getD_eq_getElem _ _ hlen', hread, ht, burnt_blank hwf false hblank (hlen ▸ hi), List.getD_eq_getElem _ _ (hlen ▸ hi)]
    simp
  refine ⟨List.any_eq_true.mpr ⟨(t.makerImage g).getD 1 0, ?_, ?_⟩, ?_⟩
  · have hlen' : 1 < (t.makerImage g).length := by rw [State.makerImage, State.otpN, length_memReadN]; decide
    rw [List.getD_eq_getElem _ _ hlen']
    exact List.getElem_mem hlen'
  · rw [hget 1 (by decide), if_neg (by decide), bne_iff_ne]
    intro h0
    rw [h0] at h1
    cases h1
  · rw [State.makerValid]
    have hno : makerOk (t.makerImage g) = false := by
      by_contra h
      obtain ⟨h0, -⟩ := makerOk_head (Bool.not_eq_false _ ▸ h)
      rw [hget 0 (by decide), if_pos rfl] at h0
      cases h0
    rw [hno, Bool.false_and]

theorem State.instImage_burnt (hwf : memWf s.trust.otp = true) (hlen : data.length = 768) (hg : g < 4) (hb : imgUsed (s.instImage g) = false)
    (ht : t.trust.otp = burnt s.trust.otp (768 + 768 * g) data true) : t.instImage g = data
    ∧ (∀ h < 4, h ≠ g → t.instImage h = s.instImage h) ∧ ∀ h < 3, t.makerImage h = s.makerImage h := by
  have hne : data ≠ [] := fun e => by rw [e] at hlen; cases hlen
  have hblank : ∀ i < data.length, memRead s.trust.otp (768 + 768 * g + i) = 0 := fun i hi => blank_of_unused hb i (hlen ▸ hi)
  refine ⟨?_, fun h hh hne' => ?_, fun h hh => ?_⟩
  · have hsame := burnt_same hwf hblank
    rw [State.instImage, State.otpN, ht]
    rwa [hlen] at hsame
  · rw [State.instImage, State.otpN, ht, burnt_other hwf true (by omega) hne]
    rfl
  · rw [State.makerImage, State.otpN, ht, burnt_other hwf true (by omega) hne]
    rfl

end

theorem instOk_length {img : Bytes} (h : instOk img = true) : img.length = 768 := by
  unfold instOk at h
  simp only [Bool.and_eq_true, beq_iff_eq] at h
  exact h.1.1.1.1.1.1.1.1

theorem find?_unused {n g : Nat} {f : Nat → Bytes} (h : ((List.range n).find? fun g => !imgUsed (f g)) = some g) : g < n ∧ imgUsed (f g) = false :=
  ⟨List.mem_range.mp (List.mem_of_find?_eq_some h), by simpa using List.find?_some h⟩

section
variable (ha : s.adminReady c.fn = true) (hpf : isPf c.fn = true)
include ha hpf

/-- A valid image goes to the first blank slot. -/
theorem exec_otpProgram_burns (hh : s.holdsExactly (.pcie c.fn) (otpRole data) = true) {g : Nat} (hg : s.freeGen data = some g)
    (hok : s.otpOk data g = true) (rb : Bool) : ∃ t : State, exec (.otpProgram c data rb) s = .next t
      ∧ t.trust.otp = burnt s.trust.otp (if data.length = 256 then 256 * g else 768 + 768 * g) data rb
      ∧ t.trust.makerGen = s.trust.makerGen ∧ t.trust.instGen = s.trust.instGen
      ∧ (⟨c.fn, 0, 0, c.cid, if rb then Nv.ok else Nv.internal, 0, 0⟩ : Cqe) ∈ t.host.cqes := by
  obtain ⟨hotp, hmaker, hinst⟩ := s.otpLogged_otp c.fn g 0 data
  have hburn := (s.otpLogged c.fn data g 0).burnGen_trust (if data.length = 256 then 256 * g else 768 + 768 * g) data rb
  rw [exec_otpProgram_eq ha hpf, if_neg (by simp [hh]), hg]
  simp only [Option.getD_some]
  rw [if_neg (by simp [hok])]
  cases rb with
  | true =>
    refine ⟨_, rfl, ?_⟩
    rw [if_pos rfl, State.completeAdmin_trust, hburn, hotp]
    exact ⟨rfl, hmaker, hinst, State.mem_completeAdmin_cqes ..⟩
  | false =>
    refine ⟨_, rfl, ?_⟩
    rw [if_neg Bool.false_ne_true, State.completeAdmin_trust, State.record_trust, hburn, hotp]
    exact ⟨rfl, hmaker, hinst, State.mem_completeAdmin_cqes ..⟩

theorem exec_otpProgram_denied (rb : Bool) (hh : s.holdsExactly (.pcie c.fn) (otpRole data) = false) :
    exec (.otpProgram c data rb) s = .next (s.completeAdmin c Nv.role) := by
  rw [exec_otpProgram_eq ha hpf, if_pos hh]

theorem exec_otpProgram_bad (rb : Bool) (hh : s.holdsExactly (.pcie c.fn) (otpRole data) = true) (hm : makerOk data = false) (hi : instOk data = false) :
    ∃ t : State, exec (.otpProgram c data rb) s = .next t ∧ t.trust.otp = s.trust.otp
      ∧ (⟨c.fn, 0, 0, c.cid, Nv.badField, 0, 0⟩ : Cqe) ∈ t.host.cqes ∧ (s.get (H.VALID 5) = 0 → t.get (H.CODE 5) = E.OTP_IMAGE_BAD) := by
  have hbad : s.otpOk data ((s.freeGen data).getD 0) = false := by
    unfold State.otpOk
    rw [hm, hi, Bool.false_and, ite_self]
  rw [exec_otpProgram_eq ha hpf, if_neg (by simp [hh]), if_pos hbad]
  refine ⟨_, rfl, ?_, State.mem_completeAdmin_cqes .., fun hv => ?_⟩
  · rw [State.completeAdmin_trust, State.record_trust]
    exact (s.otpLogged_otp ..).1
  · rw [State.completeAdmin_get_of_page _ _ _ _ _ (by decide) (by decide), State.record_get_CODE (by rw [State.otpLogged_get, hv])]
    rfl

theorem exec_otpProgram_full (rb : Bool) (hh : s.holdsExactly (.pcie c.fn) (otpRole data) = true) (hlen : data.length ≠ 256) (hi : instOk data = true)
    (hall : ∀ g < 4, imgUsed (s.instImage g) = true) : ∃ t : State, exec (.otpProgram c data rb) s = .next t ∧ t.trust.otp = s.trust.otp
      ∧ (⟨c.fn, 0, 0, c.cid, Nv.space, 0, 0⟩ : Cqe) ∈ t.host.cqes := by
  have hfree : s.freeGen data = none := by
    rw [State.freeGen, if_neg hlen, List.find?_eq_none]
    exact fun g hg => by simp [hall g (List.mem_range.mp hg)]
  have hok : s.otpOk data 0 = true := by rw [State.otpOk, if_neg hlen, hi]
  rw [exec_otpProgram_eq ha hpf, if_neg (by simp [hh]), hfree]
  simp only [Option.getD_none]
  rw [if_neg (by simp [hok])]
  refine ⟨_, rfl, ?_, State.mem_completeAdmin_cqes ..⟩
  rw [State.completeAdmin_trust, State.record_trust]
  exact (s.otpLogged_otp ..).1

end

/-! ### Decommissioning and the operator credential (R588) -/

theorem exec_decommission_done (ha : s.adminReady c.fn = true) (hwf : memWf s.trust.otp = true) (hh : s.holds (.pcie c.fn) .installer = true) :
    ∃ t : State, exec (.decommission c decomText) s = .next t ∧ t.decomBits = 128 ∧ t.trust.decom = s.trust.decom
      ∧ (⟨c.fn, 0, 0, c.cid, Nv.ok, 0, 0⟩ : Cqe) ∈ t.host.cqes := by
  have htrust := s.audit_trust (.pcie c.fn) (s.roleByte (.pcie c.fn)) 0x0021 0 []
  have hexec : exec (.decommission c decomText) s = .next ((((s.audit (.pcie c.fn) (s.roleByte (.pcie c.fn)) 0x0021 0 []).touch (.pcie c.fn)).setTrust
      fun x => { x with otp := burn x.otp 3840 (List.replicate 16 0xFF) }).completeAdmin c Nv.ok) := by
    show execDecommission c decomText s = _
    unfold execDecommission
    simp only [ha, hh]
    rfl
  have hburnt : memReadN (burn s.trust.otp 3840 (List.replicate 16 0xFF)) 3840 16 = List.replicate 16 0xFF :=
    memReadN_burn_same (bs := List.replicate 16 0xFF) hwf fun i hi => .inr (by rw [List.getElem_replicate])
  refine ⟨_, hexec, ?_, ?_, State.mem_completeAdmin_cqes ..⟩
  · rw [State.decomBits, State.otpN, State.completeAdmin_trust, State.setTrust_trust, State.touch, htrust]
    simp only []
    rw [hburnt]
    decide
  · rw [State.completeAdmin_trust, State.setTrust_trust, State.touch, htrust]

theorem exec_decommission_denied (ha : s.adminReady c.fn = true) (hh : s.holds (.pcie c.fn) .installer = false) :
    exec (.decommission c data) s = .next (s.completeAdmin c Nv.role) := by
  show execDecommission c data s = _
  unfold execDecommission
  simp only [ha, hh]
  rfl

theorem exec_operatorCredential_eq (ha : s.adminReady c.fn = true) (hh : s.holdsExactly (.pcie c.fn) .installer = true) :
    exec (.operatorCredential c data) s = .next (if data.length ≠ 0 ∧ (data.length < 8 ∨ 64 < data.length) then s.completeAdmin c Nv.badField
      else if data.length = 0 then
        (((s.audit (.pcie c.fn) 1 0x0022 0 (leBytes 4 data.length)).touch (.pcie c.fn)).setTrust fun x => { x with cred := none }).completeAdmin c Nv.ok
      else (((((s.audit (.pcie c.fn) 1 0x0022 0 (leBytes 4 data.length)).touch (.pcie c.fn)).freshBytes 16).2).setTrust fun x =>
        { x with cred := some ((((s.audit (.pcie c.fn) 1 0x0022 0 (leBytes 4 data.length)).touch (.pcie c.fn)).freshBytes 16).1,
          sha384 ((((s.audit (.pcie c.fn) 1 0x0022 0 (leBytes 4 data.length)).touch (.pcie c.fn)).freshBytes 16).1 ++ data)) }).completeAdmin c Nv.ok) := by
  show execOperatorCredential c data s = _
  unfold execOperatorCredential
  simp only [ha, hh, Bool.not_true, Bool.false_eq_true, if_false]
  split_ifs <;> rfl

end

end Sys2Proof.Machine
end

section
/-!
Roles: challenges, responses, credentials and lockouts (R584-R592).
-/

namespace Sys2Proof.Machine

open Sys2Proof.Laws

/-! ### The operator credential -/

theorem State.freshBytes_length (s : State) (n : Nat) : (s.freshBytes n).1.length = n := by simp [State.freshBytes]

section
variable {s : State} {c : Cmd} {data : Bytes} (ha : s.adminReady c.fn = true) (hh : s.holdsExactly (.pcie c.fn) .installer = true)
include ha hh

theorem exec_operatorCredential_dropped (hd : data = []) : ∃ t : State, exec (.operatorCredential c data) s = .next t ∧ t.trust.cred = none
    ∧ (⟨c.fn, 0, 0, c.cid, Nv.ok, 0, 0⟩ : Cqe) ∈ t.host.cqes := by
  have hexec := exec_operatorCredential_eq (data := data) ha hh
  rw [if_neg (by simp [hd]), if_pos (by simp [hd])] at hexec
  refine ⟨_, hexec, ?_, State.mem_completeAdmin_cqes ..⟩
  rw [State.completeAdmin_trust]
  rfl

theorem exec_operatorCredential_set (h8 : 8 ≤ data.length) (h64 : data.length ≤ 64) :
    ∃ (t : State) (salt : Bytes), exec (.operatorCredential c data) s = .next t ∧ salt.length = 16 ∧ t.trust.cred = some (salt, sha384 (salt ++ data)) := by
  have hexec := exec_operatorCredential_eq (data := data) ha hh
  rw [if_neg (by omega), if_neg (by omega)] at hexec
  exact ⟨_, _, hexec, State.freshBytes_length _ 16, by rw [State.completeAdmin_trust, State.setTrust_trust]⟩

theorem exec_operatorCredential_refused (h : (1 ≤ data.length ∧ data.length < 8) ∨ 64 < data.length) :
    ∃ t : State, exec (.operatorCredential c data) s = .next t ∧ t.trust.cred = s.trust.cred
      ∧ (⟨c.fn, 0, 0, c.cid, Nv.badField, 0, 0⟩ : Cqe) ∈ t.host.cqes := by
  have hexec := exec_operatorCredential_eq (data := data) ha hh
  rw [if_pos (by omega)] at hexec
  exact ⟨_, hexec, by rw [State.completeAdmin_trust], State.mem_completeAdmin_cqes ..⟩

end

/-! ### What audits and records leave of the trust state -/

section
variable (s : State) (o : Origin) (r : Role)

theorem State.auditRefusal_sansAudit : (s.auditRefusal o r).trust.sansAudit = s.trust.sansAudit := State.auditCoalesced_sansAudit ..

theorem State.auditRefusal_get (x : Fld) : (s.auditRefusal o r).get x = s.get x := State.auditCoalesced_get ..

theorem State.roleErr_trust (code : Nat) : (s.roleErr o r code).trust = s.trust := State.record_trust ..

theorem TrustSt.sessions_of_sansAudit {x y : TrustSt} (h : x.sansAudit = y.sansAudit) : x.sessions = y.sessions := (congrArg TrustSt.sessions h :)

theorem TrustSt.challenges_of_sansAudit {x y : TrustSt} (h : x.sansAudit = y.sansAudit) : x.challenges = y.challenges := (congrArg TrustSt.challenges h :)

theorem TrustSt.lockouts_of_sansAudit {x y : TrustSt} (h : x.sansAudit = y.sansAudit) : x.lockouts = y.lockouts := (congrArg TrustSt.lockouts h :)

theorem State.serial_length : s.serial.length = 16 := by
  unfold State.serial
  split
  · exact length_memReadN ..
  · exact List.length_replicate ..

end

/-! ### Challenges (R584) -/

section
variable {s : State} {o : Origin} {r : Role}

theorem State.authRefused_none (hm : s.mayGain o r = true) (hl : s.lockedOut r = false) (hh : s.otherHolder o r = none) :
    s.authRefused o r = (0, s) := by
  simp [State.authRefused, hm, hl, hh]

/-- The fields of a challenge. -/
theorem State.challengeBytes_fields (nonce : Bytes) (hn : nonce.length = 32) :
    sliceBytes (s.challengeBytes o r nonce) 32 16 = s.serial ∧ (s.challengeBytes o r nonce).length = 64
    ∧ leNat (sliceBytes (s.challengeBytes o r nonce) 48 1) = r.num ∧ leNat (sliceBytes (s.challengeBytes o r nonce) 49 1) = originCode o
    ∧ leNat (sliceBytes (s.challengeBytes o r nonce) 50 2) = originFunc o % 2 ^ 16
    ∧ leNat (sliceBytes (s.challengeBytes o r nonce) 52 4) = (s.lockout r).fails % 2 ^ 32
    ∧ leNat (sliceBytes (s.challengeBytes o r nonce) 56 8) = s.time % 2 ^ 64 := by
  have hs := s.serial_length
  have hr : r.num % 256 = r.num := by cases r <;> rfl
  have ho := Nat.mod_eq_of_lt (originCode_lt o)
  unfold State.challengeBytes
  simp only [List.append_assoc]
  refine ⟨?_, ?_, ?_, ?_, ?_, ?_, ?_⟩
  · simp [sliceBytes_skip, sliceBytes_prefix, hn, hs]
  · simp [length_leBytes, hn, hs]
  · simp [sliceBytes_skip, sliceBytes_prefix, length_leBytes, leNat_leBytes, hn, hs, hr]
  · simp [sliceBytes_skip, sliceBytes_prefix, length_leBytes, leNat_leBytes, hn, hs, ho]
  · simp [sliceBytes_skip, sliceBytes_prefix, length_leBytes, leNat_leBytes, hn, hs]
  · simp [sliceBytes_skip, sliceBytes_prefix, length_leBytes, leNat_leBytes, hn, hs]
  · simp [sliceBytes_skip, sliceBytes_all, length_leBytes, leNat_leBytes, hn, hs]

/-- The bytes of the challenge that an origin is given next. -/
def State.newChallenge (s : State) (o : Origin) (r : Role) : Bytes := (s.freshBytes 32).2.challengeBytes o r (s.freshBytes 32).1

/-- The state that remembers it. -/
def State.challenged (s : State) (o : Origin) (r : Role) : State :=
  (s.freshBytes 32).2.setTrust fun x => { x with challenges := x.challenges.filter (·.origin != o) ++ [⟨o, r, s.newChallenge o r, s.time⟩] }

theorem State.challenge_of_admitted (hr : r ≠ .operator) (hm : s.mayGain o r = true) (hl : s.lockedOut r = false) (hh : s.otherHolder o r = none) :
    s.challenge o r = (0, s.newChallenge o r, s.challenged o r) := by
  unfold State.challenge
  rw [if_neg hr, State.authRefused_none hm hl hh]
  rfl

theorem State.mem_challenged (x : Challenge) : x ∈ (s.challenged o r).trust.challenges ↔
    (x ∈ s.trust.challenges ∧ x.origin ≠ o) ∨ x = ⟨o, r, s.newChallenge o r, s.time⟩ := by
  show x ∈ s.trust.challenges.filter (·.origin != o) ++ [⟨o, r, s.newChallenge o r, s.time⟩] ↔ _
  simp

theorem State.challenge_of_held {h : Origin} (hr : r ≠ .operator) (hm : s.mayGain o r = true) (hl : s.lockedOut r = false) (hh : s.otherHolder o r = some h) :
    s.challenge o r = (4, [], (s.auditRefusal o r).roleErr o r E.ROLE_HELD) := by
  unfold State.challenge State.authRefused
  simp [hr, hm, hl, hh]

theorem State.roleErr_code {code : Nat} (hv : s.get (H.VALID 6) = 0) : (s.roleErr o r code).get (H.CODE 6) = code % 2 ^ 16 :=
  State.record_get_CODE hv ..

end

/-! ### The commands of ROLE AUTH -/

section
variable {s : State} {c : Cmd} {role : BitVec 8} {r : Role} (ha : s.adminReady c.fn = true) (hr : roleOf role.toNat = some r)
include ha hr

theorem exec_roleAuthGetChallenge_eq (len : Nat) : exec (.roleAuthGetChallenge c role len) s = .next (if len ≠ 64 then s.completeAdmin c Nv.length
    else if (s.challenge (.pcie c.fn) r).1 = 0 then (s.challenge (.pcie c.fn) r).2.2.completeData c (s.challenge (.pcie c.fn) r).2.1
    else (s.challenge (.pcie c.fn) r).2.2.authDone c r (s.challenge (.pcie c.fn) r).1) := by
  show execRoleAuthGetChallenge c role len s = _
  unfold execRoleAuthGetChallenge
  simp only [ha, hr, Bool.not_true, Bool.false_eq_true, if_false]
  split_ifs <;> rfl

theorem exec_roleAuthGetChallenge_given {b : Bytes} {u : State} (h : s.challenge (.pcie c.fn) r = (0, b, u)) :
    ∃ t : State, exec (.roleAuthGetChallenge c role 64) s = .next t ∧ t.mem = dptrWrite (hostTarget c.fn) c.dptr b u.mem ∧ t.trust = u.trust
      ∧ (⟨c.fn, 0, 0, c.cid, Nv.ok, 0, 0⟩ : Cqe) ∈ t.host.cqes := by
  refine ⟨u.completeData c b, ?_, ?_, ?_, State.mem_completeAdmin_cqes ..⟩
  · rw [exec_roleAuthGetChallenge_eq ha hr, if_neg (by decide), h, if_pos rfl]
  · exact keeps_mem (State.forget_completeAdmin (T := 0x480000420) rfl ..) rfl
  · exact State.completeAdmin_trust ..

theorem exec_roleAuthRespond_eq (data : Bytes) (va vb : BitVec 8) : exec (.roleAuthRespond c role 48 data va vb) s =
    .next ((s.respond (.pcie c.fn) r (data.take 48) va vb).2.authDone c r (s.respond (.pcie c.fn) r (data.take 48) va vb).1) := by
  show execRoleAuthRespond c role 48 data va vb s = _
  unfold execRoleAuthRespond
  simp only [ha, hr, Bool.not_true, Bool.false_eq_true, if_false, ne_eq, not_true_eq_false]

theorem exec_roleAuthDrop_eq : exec (.roleAuthDrop c role) s = .next ((s.dropRole (.pcie c.fn) r).completeAdmin c Nv.ok) := by
  show execRoleAuthDrop c role s = _
  unfold execRoleAuthDrop
  simp only [ha, hr, Bool.not_true, Bool.false_eq_true, if_false]

end

/-- The completion that names another holder. -/
theorem State.authDone_held {s : State} {c : Cmd} {r : Role} {h : Origin} (hh : s.otherHolder (.pcie c.fn) r = some h) :
    (⟨c.fn, 0, 0, c.cid, Nv.held, originCode h + originFunc h * 2 ^ 16, 0⟩ : Cqe) ∈ (s.authDone c r 4).host.cqes := by
  have heq : s.authDone c r 4 = s.completeAdmin c Nv.held (originCode h + originFunc h * 2 ^ 16) := by
    rw [State.authDone, if_neg (by decide), if_neg (by decide), if_pos rfl, hh]
    rfl
  rw [heq]
  exact State.mem_completeAdmin_cqes ..

/-! ### Failures and lockouts (R590) -/

section
variable (s : State) (o : Origin) (r : Role)

theorem State.lockout_setLockout {s : State} (h : s.trust.lockouts.length = 3) (l : Lockout) : (s.setLockout r l).lockout r = l := by
  have hr : r.num < s.trust.lockouts.length := by rw [h]; cases r <;> decide
  show (modAt s.trust.lockouts r.num fun _ => l).getD r.num ⟨0, 0, 0⟩ = l
  rw [List.getD_eq_getElem?_getD, modAt_getElem?, if_pos rfl, List.getElem?_eq_getElem hr]
  rfl

/-- A failed attempt, audited, counted and recorded. -/
def State.failed : State :=
  ((s.auditCoalesced o r.num 0x0003 2 (leBytes 4 ((s.lockout r).fails + 1)) 4).pulse 6 Ev.ROLE.FAILED).roleErr o r E.ROLE_AUTH_FAIL

/-- The lockout state after a failure. -/
def State.failedLockout : Lockout :=
  if ((s.lockout r).fails + 1) % 5 = 0 then
    ⟨(s.lockout r).fails + 1, (s.lockout r).count + 1, s.time + min 3600 (60 * 2 ^ (s.lockout r).count) * 1000000000⟩
  else { s.lockout r with fails := (s.lockout r).fails + 1 }

theorem State.failed_time : (s.failed o r).time = s.time := by
  rw [State.failed, State.roleErr, State.record_time, State.pulse_time, State.auditCoalesced_time]

theorem State.failed_sansAudit : (s.failed o r).trust.sansAudit = s.trust.sansAudit := by
  rw [State.failed, State.roleErr_trust, State.pulse_trust, State.auditCoalesced_sansAudit]

theorem State.authFail_eq : s.authFail o r = if ((s.lockout r).fails + 1) % 5 = 0 then
    ((s.failed o r).setLockout r (s.failedLockout r)).pulse 6 Ev.ROLE.LOCKOUT else (s.failed o r).setLockout r (s.failedLockout r) := by
  have htime := s.failed_time o r
  unfold State.authFail State.failedLockout
  dsimp only
  split
  · rw [← htime]
    rfl
  · rfl

theorem State.authFail_trust : (s.authFail o r).trust = ((s.failed o r).setLockout r (s.failedLockout r)).trust := by
  rw [State.authFail_eq]
  split
  · exact State.pulse_trust ..
  · rfl

theorem State.authFail_sessions : (s.authFail o r).trust.sessions = s.trust.sessions := by
  rw [State.authFail_trust]
  exact (TrustSt.sessions_of_sansAudit (s.failed_sansAudit o r) :)

theorem State.authFail_challenges : (s.authFail o r).trust.challenges = s.trust.challenges := by
  rw [State.authFail_trust]
  exact (TrustSt.challenges_of_sansAudit (s.failed_sansAudit o r) :)

theorem State.authFail_lockout (h : s.trust.lockouts.length = 3) : (s.authFail o r).lockout r = s.failedLockout r := by
  rw [State.lockout, State.authFail_trust]
  exact State.lockout_setLockout r (by rw [TrustSt.lockouts_of_sansAudit (s.failed_sansAudit o r), h]) _

theorem State.failedLockout_fails : (s.failedLockout r).fails = (s.lockout r).fails + 1 := by
  unfold State.failedLockout
  split <;> rfl

theorem State.authFail_code (hv : s.get (H.VALID 6) = 0) : (s.authFail o r).get (H.CODE 6) = E.ROLE_AUTH_FAIL := by
  have hcode : (s.failed o r).get (H.CODE 6) = E.ROLE_AUTH_FAIL := by
    refine State.roleErr_code ?_
    rw [State.pulse_get_other _ _ _ (Fld.ne_of_place rfl) (Fld.ne_of_place rfl), State.auditCoalesced_get, hv]
  rw [State.authFail_eq]
  split
  · rw [State.pulse_get_other _ _ _ (Fld.ne_of_place rfl) (Fld.ne_of_place rfl)]
    exact hcode
  · exact hcode

end

/-! ### Gaining a role -/

section
variable (s : State) (o : Origin) (r : Role) (method : Nat)

/-- The trust state in which an origin holds a role. -/
def State.gained : State := (s.audit o r.num 0x0001 0 (leBytes 1 r.num ++ leBytes 1 method)).setTrust fun u =>
  { u with sessions := (u.sessions.filter fun x => !(x.origin == o && x.role == r)) ++ [⟨o, r, s.time⟩] }

theorem State.gainRole_eq : s.gainRole o r method = (s.gained o r method).showHolders.pulse 6 Ev.ROLE.GAINED := rfl

theorem State.gainRole_trust : (s.gainRole o r method).trust = (s.gained o r method).trust := by
  rw [State.gainRole_eq, State.pulse_trust]
  rfl

theorem State.mem_grant_sessions : (⟨o, r, s.time⟩ : Session) ∈ (s.grant o r method).trust.sessions := by
  show _ ∈ (s.gainRole o r method).trust.sessions
  rw [State.gainRole_trust]
  exact List.mem_append_right _ (List.mem_singleton_self _)

theorem State.grant_challenges : (s.grant o r method).trust.challenges = s.trust.challenges := by
  show (s.gainRole o r method).trust.challenges = _
  rw [State.gainRole_trust]
  exact (TrustSt.challenges_of_sansAudit (State.audit_sansAudit s ..) :)

theorem State.grant_lockout (h : s.trust.lockouts.length = 3) : (s.grant o r method).lockout r = ⟨0, 0, 0⟩ := by
  refine State.lockout_setLockout r ?_ _
  rw [State.gainRole_trust]
  exact (congrArg List.length (TrustSt.lockouts_of_sansAudit (State.audit_sansAudit ..))).trans h

theorem State.grant_gained : bitAt ((s.grant o r method).get (H.STICKY 6)) Ev.ROLE.GAINED = true := State.pulse_sticky _ _ _ (by decide)

end

/-! ### Responses (R585, R586) -/

section
variable {s : State} {o : Origin} {r : Role} {ch : Challenge} {resp : Bytes}

/-- The state whose challenges of an origin are used up. -/
def State.answered (s : State) (o : Origin) : State := s.setTrust fun x => { x with challenges := x.challenges.filter (·.origin != o) }

theorem State.answered_challenges (hch : s.trust.challenges = [ch]) (ho : ch.origin = o) : (s.answered o).trust.challenges = [] := by
  show s.trust.challenges.filter (·.origin != o) = []
  simp [hch, ho]

theorem State.respond_live (hr : r ≠ .operator) (hm : s.mayGain o r = true) (hch : s.trust.challenges = [ch]) (ho : ch.origin = o) (hcr : ch.role = r)
    (ht : s.time < ch.issued + 10000000000) : s.respond o r resp 0 0 =
      if resp = hmacSha384 (s.roleKey r) ch.bytes then
        (if (s.otherHolder o r).isSome then (4, ((s.answered o).auditRefusal o r).roleErr o r E.ROLE_HELD) else (0, (s.answered o).grant o r 0))
      else (1, ((s.answered o).noteVerdict 0x5A 0x5A (digestInfo 0 0x1F0) 0x1F0).authFail o r) := by
  have hfind : s.trust.challenges.find? (fun x => x.origin == o && x.role == r && decide (s.time < x.issued + 10000000000)) = some ch := by
    simp [hch, ho, hcr, ht]
  have hkey : State.roleKey (s.answered o) r = s.roleKey r := rfl
  unfold State.respond
  rw [if_neg (by simp [hr, hm]), hfind]
  simp only []
  by_cases hok : resp = hmacSha384 (s.roleKey r) ch.bytes
  · have hsame : (resp == hmacSha384 (State.roleKey (s.answered o) r) ch.bytes) = true := by simp [hkey, hok]
    rw [if_pos hok]
    show (if _ then _ else _) = _
    rw [show (s.setTrust fun x => { x with challenges := x.challenges.filter (·.origin != o) }) = s.answered o from rfl, hsame]
    rfl
  · have hsame : (resp == hmacSha384 (State.roleKey (s.answered o) r) ch.bytes) = false := by simp [hkey, hok]
    rw [if_neg hok]
    rw [show (s.setTrust fun x => { x with challenges := x.challenges.filter (·.origin != o) }) = s.answered o from rfl, hsame]
    rfl

theorem State.respond_late (hr : r ≠ .operator) (hm : s.mayGain o r = true) (hch : s.trust.challenges = [ch])
    (ht : ch.issued + 10000000000 ≤ s.time) (va vb : BitVec 8) : s.respond o r resp va vb = (2, s.authFail o r) := by
  have hfind : s.trust.challenges.find? (fun x => x.origin == o && x.role == r && decide (s.time < x.issued + 10000000000)) = none := by
    simp [hch, ht]
  unfold State.respond
  rw [if_neg (by simp [hr, hm]), hfind]

theorem State.noteVerdict_trust (a b info func : Nat) : (s.noteVerdict a b info func).trust = s.trust :=
  keeps_trust (State.forget_noteVerdict (T := 0x480000420) rfl ..) rfl

theorem State.noteVerdict_get_of_page (a b info func : Nat) {x : Fld} (hx : x.page ≠ 0x2A) : (s.noteVerdict a b info func).get x = s.get x := by
  have hbump (y : Fld) (hy : y.page = 0x2A) : (s.bump y).get x = s.get x := State.get_put_other _ _ fun e => hx (e ▸ hy)
  unfold State.noteVerdict
  split
  · rw [State.record_get_of_page _ hx, State.pulse_get_of_page _ hx, hbump _ rfl]
  · split
    · rw [State.record_get_of_page _ hx, State.pulse_get_of_page _ hx, hbump _ rfl]
    · rfl

end

/-! ### The operator's credential as an answer (R588) -/

theorem exec_roleAuthCredential_eq {s : State} {c : Cmd} {salt d data : Bytes} (ha : s.adminReady c.fn = true)
    (hm : s.mayGain (.pcie c.fn) .operator = true) (hl : s.lockedOut .operator = false) (hc : s.trust.cred = some (salt, d)) :
    exec (.roleAuthCredential c 0 data.length data) s = .next (if sha384 (salt ++ data) = d then (s.grant (.pcie c.fn) .operator 1).completeAdmin c Nv.ok
      else (s.authFail (.pcie c.fn) .operator).completeAdmin c Nv.role) := by
  have hcred : s.credential (.pcie c.fn) data = if sha384 (salt ++ data) = d then (0, s.grant (.pcie c.fn) .operator 1)
      else (1, s.authFail (.pcie c.fn) .operator) := by
    unfold State.credential
    rw [State.authRefused_none hm hl rfl, hc]
    simp
  show execRoleAuthCredential c 0 data.length data s = _
  unfold execRoleAuthCredential
  rw [List.take_length, hcred, if_neg (by simp [ha]), if_neg (by decide)]
  split <;> rfl

end Sys2Proof.Machine
end

section
/-!
The end of roles, the ROLE page, and perturbation (R587, R591, R596-R602).
-/

namespace Sys2Proof.Machine

open Sys2Proof.Laws

/-! ### The end of a role -/

section
variable (s : State)

theorem State.audit_sessions (o : Origin) (role action result : Nat) (param : Bytes) :
    (s.audit o role action result param).trust.sessions = s.trust.sessions := TrustSt.sessions_of_sansAudit (State.audit_sansAudit ..)

theorem State.endPerturb_sessions (cause : PerturbEnd) : (s.endPerturb cause).trust.sessions = s.trust.sessions := by
  have hpoints (t : State) : (perturbPages.foldl (fun u p => if u.get (H.POINT p) = 0 then u else u.put (H.POINT p) 0) t).trust = t.trust :=
    foldl_keeps State.trust (fun u p => by split <;> rfl) ..
  have hhold (t : State) (f : Fld) : (t.hold f false).trust = t.trust := keeps_trust (State.forget_hold (T := 0x480001020) rfl ..) rfl
  unfold State.endPerturb
  dsimp only
  split
  · rfl
  · rw [State.pulse_trust, State.setTrust_trust, hhold, State.put_trust, hpoints]
    exact State.audit_sessions ..

/-- What freeing an origin's comparators leaves. -/
theorem State.freeComparators_trust (l : List Nat) :
    (l.foldl (fun u r => (State.freeComparator u r).pulse 0xA Ev.SHARE.RELEASED) s).trust = s.trust := by
  refine foldl_keeps State.trust (fun u r => ?_) ..
  rw [State.pulse_trust]
  rfl

theorem State.endRole_sessions (x : Session) (cause : RoleEnd) : (s.endRole x cause).trust.sessions = s.trust.sessions.filter (· ≠ x) := by
  have hshow (t : State) : t.showHolders.trust = t.trust := rfl
  have haudit := s.audit_sessions x.origin x.role.num 0x0002 0 (leBytes 1 cause.toCode)
  unfold State.endRole
  dsimp only
  rw [hshow]
  generalize hu : State.setTrust _ _ = u
  have hsessions : u.trust.sessions = s.trust.sessions.filter (· ≠ x) := by
    rw [← hu, State.setTrust_trust]
    dsimp only
    split
    · rw [State.endPerturb_sessions, haudit]
    · rw [haudit]
  split
  · exact hsessions
  · rw [State.freeComparators_trust, hsessions]

theorem State.endRole_time (x : Session) (cause : RoleEnd) : (s.endRole x cause).time = s.time :=
  keeps_time (State.forget_endRole (T := 0xc80001820) rfl ..) rfl

/-- The first session of an origin in a role. -/
def State.sessionOf (o : Origin) (r : Role) : Option Session := s.trust.sessions.find? fun x => x.origin == o && x.role == r

theorem State.dropRole_of_some {o : Origin} {r : Role} {y : Session} (h : s.sessionOf o r = some y) :
    (s.dropRole o r).trust.sessions = s.trust.sessions.filter (· ≠ y) := by
  have heq : s.dropRole o r = s.endRole y .drop := by
    unfold State.sessionOf at h
    unfold State.dropRole
    rw [h]
  rw [heq, State.endRole_sessions]

theorem State.dropRole_of_none {o : Origin} {r : Role} (h : s.sessionOf o r = none) : s.dropRole o r = s := by
  unfold State.sessionOf at h
  unfold State.dropRole
  rw [h]

theorem State.dropRole_sub {o : Origin} {r : Role} {x : Session} (hx : x ∈ (s.dropRole o r).trust.sessions) : x ∈ s.trust.sessions := by
  cases h : s.sessionOf o r with
  | none => rwa [s.dropRole_of_none h] at hx
  | some y =>
    rw [s.dropRole_of_some h] at hx
    exact (List.mem_filter.mp hx).1

/-- A dropped role that was held once is no longer held. -/
theorem State.dropRole_drops {o : Origin} {r : Role} (h1 : (s.trust.sessions.filter fun x => x.origin == o && x.role == r).length ≤ 1)
    {x : Session} (hx : x ∈ (s.dropRole o r).trust.sessions) : ¬ (x.origin = o ∧ x.role = r) := by
  rintro ⟨ho, hr⟩
  have hmem (y : Session) (hy : y ∈ s.trust.sessions) (h : (y.origin == o && y.role == r) = true) :
      y ∈ s.trust.sessions.filter fun x => x.origin == o && x.role == r := List.mem_filter.mpr ⟨hy, h⟩
  have hxs : x ∈ s.trust.sessions := s.dropRole_sub hx
  cases h : s.sessionOf o r with
  | none =>
    have := List.find?_eq_none.mp h x hxs
    simp [ho, hr] at this
  | some y =>
    rw [s.dropRole_of_some h] at hx
    have hne : x ≠ y := by simpa using (List.mem_filter.mp hx).2
    have hy' := hmem y (List.mem_of_find?_eq_some h) (List.find?_some (p := fun x : Session => x.origin == o && x.role == r) h)
    have hx' := hmem x hxs (by simp [ho, hr])
    obtain ⟨z, hz⟩ := List.length_eq_one_iff.mp (Nat.le_antisymm h1 (List.length_pos_of_mem hx'))
    rw [hz, List.mem_singleton] at hx' hy'
    exact hne (hx'.trans hy'.symm)

theorem State.showHolders_none (h : s.trust.sessions = []) : s.showHolders.get R.ROLE.HOLDERS_INST_HELD = 0 ∧ s.showHolders.get R.ROLE.HOLDERS_MAKER_HELD = 0 := by
  unfold State.showHolders
  rw [h]
  simp only [State.puts_cons, State.puts_nil]
  refine ⟨?_, ?_⟩
  · rw [State.get_put_of_place _ _ rfl, State.get_put_of_place _ _ rfl, State.get_put_same]
    rfl
  · rw [State.get_put_same]
    rfl

end

/-! ### The registers of an origin's ROLE page (R602) -/

section
variable {s : State} {o : Origin} {r : Role}

/-- A write of AUTH_CTRL with a role reaches its step. -/
theorem State.authCtrl_acts (hp : s.powered = true) (hre : s.reaches o 6 = true) {role : Nat} (hr : roleOf role = some r) (step : Nat)
    (act : Role → State → State) : s.authCtrl o step role act = act r { s.dropLow o 6 with refusal := none } := by
  have hlt : role < 3 := by
    unfold roleOf at hr
    split_ifs at hr <;> omega
  have hneed : needOf (rowsAt 6 0x040) = .none := by decide
  have hmeets : State.meets { s.dropLow o 6 with refusal := none } o .none = true := rfl
  simp only [State.authCtrl, State.regCmd, State.regCmdBy, hp, hre, hneed, hmeets, hr, hlt, decide_true, Bool.not_true, Bool.false_eq_true,
    if_false, if_true, Bool.or_self]

theorem State.authCtrl_reserved (hp : s.powered = true) (hre : s.reaches o 6 = true) (step : Nat) (act : Role → State → State) :
    (s.authCtrl o step 3 act).refusal = some 0x0701 ∧ (s.authCtrl o step 3 act).trust = s.trust := by
  have hneed : needOf (rowsAt 6 0x040) = .none := by decide
  have hmeets : State.meets { s.dropLow o 6 with refusal := none } o .none = true := rfl
  have heq : s.authCtrl o step 3 act = State.refuseAccess { s.dropLow o 6 with refusal := none } o 6 0x040 1 := by
    simp only [State.authCtrl, State.regCmd, State.regCmdBy, hp, hre, hneed, hmeets, Bool.not_true, Bool.false_eq_true, if_false, if_true,
      Bool.or_self, Nat.lt_irrefl, decide_false, Bool.not_false]
  rw [heq, State.refuseAccess]
  exact ⟨State.record_refusal .., State.record_trust ..⟩

theorem State.authStatus_shows (role result why : Nat) : (s.authStatus o role result why).get (R.ROLE.AUTH_STATUS_RESULT.of o) = result % 4
    ∧ (s.authStatus o role result why).get (R.ROLE.AUTH_STATUS_WHY.of o) = why % 256 := by
  unfold State.authStatus
  simp only [State.puts_cons, State.puts_nil]
  refine ⟨?_, ?_⟩
  · rw [State.get_put_of_place _ _ rfl, State.get_put_of_place _ _ rfl, State.get_put_same]
    rfl
  · rw [State.get_put_of_place _ _ rfl, State.get_put_same]
    rfl

theorem State.puts_get_other {l : List (Fld × Nat)} {x : Fld} (h : ∀ p ∈ l, p.1 ≠ x) : (s.puts l).get x = s.get x := by
  induction l generalizing s with
  | nil => rfl
  | cons p l ih =>
    obtain ⟨y, v⟩ := p
    rw [State.puts_cons, ih fun q hq => h q (List.mem_cons_of_mem _ hq), State.get_put_other _ _ (h _ List.mem_cons_self).symm]

/-- Distinct fields written from a list hold what was written. -/
theorem State.puts_get_of_nodup {f : Nat → Fld} (hf : ∀ i j, f i = f j → i = j) (v : Nat → Nat) {n i : Nat} (hi : i < n) :
    (s.puts ((List.range n).map fun j => (f j, v j))).get (f i) = v i % 2 ^ (f i).w := by
  induction n with
  | zero => omega
  | succ n ih =>
    rw [List.range_succ, List.map_append, State.puts, List.foldl_append]
    by_cases h : i = n
    · subst h
      exact State.get_put_same ..
    · exact (State.get_put_other _ _ fun e => h (hf _ _ e)).trans (ih (by omega))

theorem State.stepChallenge_shows {b : Bytes} {u : State} (h : s.challenge o r = (0, b, u)) :
    (s.stepChallenge o r).get (R.ROLE.AUTH_STATUS_RESULT.of o) = 1 ∧ (s.stepChallenge o r).get (R.ROLE.AUTH_STATUS_WHY.of o) = 0
      ∧ ∀ i < 16, (s.stepChallenge o r).get ((R.ROLE.CHALLENGE_BYTES i).of o) = leNat (sliceBytes b (4 * i) 4) := by
  have heq : s.stepChallenge o r = (u.authStatus o r.num 1 0).puts
      ((List.range 16).map fun i => ((R.ROLE.CHALLENGE_BYTES i).of o, leNat (sliceBytes b (4 * i) 4))) := by
    unfold State.stepChallenge
    rw [h]
    rfl
  have hother (x : Fld) (hx : x.off < 0x080) : (s.stepChallenge o r).get x = (u.authStatus o r.num 1 0).get x := by
    rw [heq]
    refine State.puts_get_other fun p hp e => ?_
    obtain ⟨i, -, rfl⟩ := List.mem_map.mp hp
    rw [← e] at hx
    exact absurd hx (by simp [Fld.of, R.ROLE.CHALLENGE_BYTES])
  obtain ⟨hres, hwhy⟩ := State.authStatus_shows (s := u) (o := o) r.num 1 0
  refine ⟨(hother _ (by decide : 0x044 < 0x080)).trans hres, (hother _ (by decide : 0x044 < 0x080)).trans hwhy, fun i hi => ?_⟩
  rw [heq, State.puts_get_of_nodup (f := fun i => (R.ROLE.CHALLENGE_BYTES i).of o) (fun i j e => ?_) _ hi]
  · refine Nat.mod_eq_of_lt ((leNat_lt _).trans_le (Nat.pow_le_pow_right (by decide) ?_))
    rw [length_sliceBytes]
    exact (by decide : 8 * 4 ≤ 32)
  · have hoff : 0x080 + 4 * i = 0x080 + 4 * j := congrArg Fld.off e
    omega

end

/-! ### What time ends -/

section
variable {s : State}

theorem exec_challengeLapse_ends {o : Origin} {ch : Challenge} (hch : s.trust.challenges.find? (·.origin == o) = some ch) :
    ∃ t : State, exec (.challengeLapse o) s = .next t ∧ t.time = max s.time (ch.issued + 10000000000) ∧ (∀ x ∈ t.trust.challenges, x.origin ≠ o)
      ∧ (s.get (R.ROLE.AUTH_STATUS_RESULT.of o) = 1 → t.get (R.ROLE.AUTH_STATUS_RESULT.of o) = 3 ∧ t.get (R.ROLE.AUTH_STATUS_WHY.of o) = 2) := by
  have hexec : exec (.challengeLapse o) s = .next (if s.get (R.ROLE.AUTH_STATUS_RESULT.of o) = 1
      then (State.answered { s with time := max s.time (ch.issued + 10000000000) } o).authStatus o ch.role.num 3 2
      else State.answered { s with time := max s.time (ch.issued + 10000000000) } o) := by
    show execChallengeLapse o s = _
    unfold execChallengeLapse
    rw [hch]
    rfl
  have hgone (x : Challenge) (hx : x ∈ (State.answered { s with time := max s.time (ch.issued + 10000000000) } o).trust.challenges) : x.origin ≠ o := by
    simpa using (List.mem_filter.mp hx).2
  refine ⟨_, hexec, ?_⟩
  by_cases h1 : s.get (R.ROLE.AUTH_STATUS_RESULT.of o) = 1
  · rw [if_pos h1]
    obtain ⟨hres, hwhy⟩ := State.authStatus_shows (s := State.answered { s with time := max s.time (ch.issued + 10000000000) } o) (o := o) ch.role.num 3 2
    exact ⟨rfl, fun x hx => hgone x hx, fun _ => ⟨hres, hwhy⟩⟩
  · rw [if_neg h1]
    exact ⟨rfl, hgone, fun h => absurd h h1⟩

/-- The states in which an idle origin's roles are looked at. -/
def State.idled (s : State) (last : Nat) : State := { s with time := max s.time (last + s.get R.ROLE.IDLE_S_S * 1000000000) }

theorem exec_roleIdleLapse_eq {o : Origin} {l : Nat} {ls : List Nat} (h : (s.trust.sessions.filter (·.origin == o)).map (·.last) = l :: ls) :
    exec (.roleIdleLapse o) s = .next ((s.trust.sessions.filter fun x => x.origin == o
      && decide (x.last + s.get R.ROLE.IDLE_S_S * 1000000000 ≤ (s.idled (ls.foldl min l)).time)).foldl (fun t x => t.endRole x .idle)
        (s.idled (ls.foldl min l))) := by
  show execRoleIdleLapse o s = _
  unfold execRoleIdleLapse
  rw [h]
  rfl

theorem State.endRole_showHolders (x : Session) (cause : RoleEnd) : ∃ u : State, s.endRole x cause = u.showHolders := ⟨_, rfl⟩

/-- The only role of an idle origin ends. -/
theorem exec_roleIdleLapse_ends {o : Origin} {x : Session} (hx : s.trust.sessions = [x]) (ho : x.origin = o) :
    ∃ t : State, exec (.roleIdleLapse o) s = .next t ∧ t.trust.sessions = [] ∧ t.time = max s.time (x.last + s.get R.ROLE.IDLE_S_S * 1000000000)
      ∧ t.get R.ROLE.HOLDERS_INST_HELD = 0 ∧ t.get R.ROLE.HOLDERS_MAKER_HELD = 0 := by
  have hlast : (s.trust.sessions.filter (·.origin == o)).map (·.last) = [x.last] := by simp [hx, ho]
  have hdue : s.trust.sessions.filter (fun y => y.origin == o
      && decide (y.last + s.get R.ROLE.IDLE_S_S * 1000000000 ≤ (s.idled x.last).time)) = [x] := by
    simp [hx, ho, State.idled]
  have hsessions : ((s.idled x.last).endRole x .idle).trust.sessions = [] := by
    rw [State.endRole_sessions]
    simp [State.idled, hx]
  obtain ⟨u, hu⟩ := State.endRole_showHolders (s := s.idled x.last) x .idle
  refine ⟨(s.idled x.last).endRole x .idle, ?_, hsessions, State.endRole_time .., ?_⟩
  · rw [exec_roleIdleLapse_eq hlast, List.foldl_nil, hdue, List.foldl_cons, List.foldl_nil]
  · rw [hu] at hsessions ⊢
    exact u.showHolders_none hsessions

theorem exec_roleLockoutEnd_ends {role : BitVec 2} {r : Role} (hr : roleOf role.toNat = some r) (hu : (s.lockout r).until_ ≠ 0)
    (h3 : s.trust.lockouts.length = 3) : ∃ t : State, exec (.roleLockoutEnd role) s = .next t ∧ t.time = max s.time (s.lockout r).until_
      ∧ t.lockedOut r = false ∧ (t.lockout r).count = (s.lockout r).count := by
  have hlock : (State.setLockout { s with time := max s.time (s.lockout r).until_ } r { s.lockout r with until_ := 0 }).lockout r
      = { s.lockout r with until_ := 0 } := State.lockout_setLockout r h3 _
  refine ⟨State.setLockout { s with time := max s.time (s.lockout r).until_ } r { s.lockout r with until_ := 0 }, ?_, rfl, ?_, ?_⟩
  · show execRoleLockoutEnd role s = _
    unfold execRoleLockoutEnd
    rw [hr]
    exact if_neg hu
  · rw [State.lockedOut, hlock]
    exact decide_eq_false (Nat.not_lt_zero _)
  · rw [hlock]

end

/-! ### Perturbation -/

section
variable {s : State} {o : Origin}

/-- What each step of a fold brings about for its element, and no step undoes, holds in the end. -/
theorem foldl_brings {σ β : Type} {g : σ → β → σ} {P : β → σ → Prop} (hself : ∀ t q, P q (g t q)) (hkeep : ∀ t q p, P p t → P p (g t q))
    {l : List β} {p : β} (hp : p ∈ l) (s : σ) : P p (l.foldl g s) := by
  induction l generalizing s with
  | nil => nomatch hp
  | cons q l ih =>
    rcases List.mem_cons.mp hp with rfl | hp
    · exact List.foldlRecOn l g (hself s p) fun t ht q _ => hkeep t q p ht
    · exact ih hp _

theorem State.put_point_same (t : State) (q : Nat) : (t.put (H.POINT q) 0).get (H.POINT q) = 0 := by
  rw [State.get_put_same]
  exact Nat.zero_mod _

theorem State.put_point_keeps (t : State) (q p : Nat) (h : t.get (H.POINT p) = 0) : (t.put (H.POINT q) 0).get (H.POINT p) = 0 := by
  by_cases hq : H.POINT p = H.POINT q
  · rw [hq, State.put_point_same]
  · rw [State.get_put_other _ _ hq, h]

theorem State.clearPoints {l : List Nat} {p : Nat} (hp : p ∈ l) : (l.foldl (fun t p => t.put (H.POINT p) 0) s).get (H.POINT p) = 0 :=
  foldl_brings (P := fun p t => State.get t (H.POINT p) = 0) State.put_point_same State.put_point_keeps hp s

theorem State.clearPoints_if {l : List Nat} {p : Nat} (hp : p ∈ l) :
    (l.foldl (fun u p => if u.get (H.POINT p) = 0 then u else u.put (H.POINT p) 0) s).get (H.POINT p) = 0 := by
  refine foldl_brings (P := fun p t => State.get t (H.POINT p) = 0) (fun t q => ?_) (fun t q p h => ?_) hp s
  · split
    next h => exact h
    next => exact State.put_point_same ..
  · split
    next => exact h
    next => exact State.put_point_keeps _ _ _ h

theorem State.hold_get_beyond (f : Fld) (b : Bool) {x : Fld} (hx : 0x040 ≤ x.off) (hne : x ≠ f) : (s.hold f b).get x = s.get x := by
  rw [State.hold, State.advance_get_beyond _ hx, State.putBit, State.get_put_other _ _ hne]

/-- A KILL, and every other end, disarms and names no profile. -/
theorem State.endPerturb_ends (cause : PerturbEnd) : (s.endPerturb cause).get R.PERTURB.CTRL_ARM = 0
    ∧ ∀ p ∈ perturbPages, (s.endPerturb cause).get (H.POINT p) = 0 := by
  unfold State.endPerturb
  dsimp only
  split
  next h =>
    obtain ⟨harm, hpoints⟩ := h
    exact ⟨harm, fun p hp => by simpa using List.all_eq_true.mp hpoints p hp⟩
  next =>
    generalize (s.audit (s.trust.armOrigin.getD .firmware) (s.roleByte (s.trust.armOrigin.getD .firmware)) 0x0041 0 (leBytes 1 cause.toCode)) = t
    have hpoint (u : State) (p : Nat) : ((u.hold R.GATE.CREDIT_STATE_HELD_PERTURB false).setTrust fun x =>
        { x with armOrigin := none, injected := [], delays := [] }).get (H.POINT p) = u.get (H.POINT p) := by
      show (u.hold R.GATE.CREDIT_STATE_HELD_PERTURB false).get (H.POINT p) = _
      rw [State.hold, State.advance, State.level_get_other _ _ _ _ (Fld.ne_of_place rfl) (Fld.ne_of_place rfl) (Fld.ne_of_place rfl), State.putBit]
      exact State.get_put_of_place _ _ rfl
    refine ⟨?_, fun p hp => ?_⟩
    · rw [State.pulse_get_other _ _ _ (Fld.ne_of_place rfl) (Fld.ne_of_place rfl)]
      rw [State.setTrust_get, State.hold_get_beyond _ _ (by decide) (by decide), State.get_put_same]
      rfl
    · rw [State.pulse_get_other _ _ _ (Fld.ne_of_place rfl) (Fld.ne_of_place rfl), hpoint, State.get_put_of_place _ _ rfl]
      exact State.clearPoints_if hp

theorem needOf_arm : needOf (rowsAt 9 0x040) ≠ .none := by decide

/-- An origin that may write CTRL and finds perturbation open arms it; else it is refused. -/
theorem exec_arm_arms (hp : s.powered = true) (hre : s.reaches o 9 = true) (hh : s.holds o .installer = true) (hopen : s.perturbOpen = true) :
    ∃ t : State, exec (.arm o) s = .next t ∧ t.get R.PERTURB.CTRL_ARM = 1 ∧ t.trust.armOrigin = some o
      ∧ bitAt (t.get (H.STICKY 9)) Ev.PERTURB.ARMED = true := by
  have hmeets : State.meets { s.dropLow o 9 with refusal := none } o (needOf (rowsAt 9 0x040)) = true :=
    State.meets_of_installer (s := { s.dropLow o 9 with refusal := none }) hh _
  obtain ⟨u, hexec⟩ : ∃ u : State, exec (.arm o) s = .next (u.armBy o) := by
    show ∃ u : State, execArm o s = .next (u.armBy o)
    unfold execArm State.regCmdBy
    rw [if_neg (by simp [hp]), if_neg (by simp [hre]), if_neg (by simp [hmeets, hopen]), if_neg (by simp)]
    exact ⟨_, rfl⟩
  refine ⟨_, hexec, ?_, ?_, State.pulse_sticky _ _ _ (by decide)⟩
  · rw [State.armBy, State.pulse_get_other _ _ _ (by decide) (by decide)]
    exact State.get_put_same ..
  · rw [State.armBy, State.pulse_trust]
    rfl

theorem exec_arm_refused (hp : s.powered = true) (hre : s.reaches o 9 = true) (hopen : s.perturbOpen = false) :
    ∃ t : State, exec (.arm o) s = .next t ∧ t.refusal = some 0x0A02 ∧ t.get R.PERTURB.CTRL_ARM = s.get R.PERTURB.CTRL_ARM := by
  have hexec : exec (.arm o) s = .next ((State.auditLocked { s.dropLow o 9 with refusal := none } o 9 0x040 1
      (State.word { s.dropLow o 9 with refusal := none } o 9 0x040)).refuseAccess o 9 0x040 2) := by
    show execArm o s = _
    unfold execArm State.regCmdBy
    rw [if_neg (by simp [hp]), if_neg (by simp [hre]), if_pos (by simp [hopen]), if_neg needOf_arm]
  refine ⟨_, hexec, State.record_refusal .., ?_⟩
  rw [State.refuseAccess, State.record_get_beyond _ _ _ _ _ _ _ rfl]
  exact State.get_of_regs (keeps_regs (State.forget_auditLocked (T := 0x800000800) rfl ..) rfl) _

theorem exec_kill_ends (hp : s.powered = true) (hre : s.reaches o 9 = true) (hh : s.holds o .installer = true) :
    ∃ t : State, exec (.kill o) s = .next t ∧ t.get R.PERTURB.CTRL_ARM = 0 ∧ (∀ p ∈ perturbPages, t.get (H.POINT p) = 0) := by
  obtain ⟨u, -, hact⟩ := State.regCmd_acts (s := s) (o := o) (page := 9) (off := 0x040) (v := 2) (legal := true) (busy := false) (deny := id)
    (act := fun t => t.endPerturb .kill) hp hre (State.meets_of_installer hh _) rfl rfl
  exact ⟨u.endPerturb .kill, congrArg Host.Outcome.next hact, State.endPerturb_ends _⟩

end

/-! ### Injected faults (R597-R600) -/

section
variable {s : State}

theorem exec_perturbEvent_idle {n : BitVec 4} (h : n.toNat = 0 ∨ s.namedBy n.toNat = []) : exec (.perturbEvent n) s = .next s := by
  show execPerturbEvent n s = _
  unfold execPerturbEvent
  rw [if_pos (by rcases h with h | h <;> simp [h])]

/-- The state in which an event has injected its fault at the pages that name its profile. -/
def State.injectedAt (s : State) (n : Nat) : State :=
  (s.namedBy n).foldl (fun t p => t.inject (s.get (R.PERTURB.PROFILE_A_KIND n)) (s.get (R.PERTURB.PROFILE_B_MAGNITUDE n)) p) s

theorem exec_perturbEvent_injects {n : BitVec 4} (h0 : n.toNat ≠ 0) (hn : s.namedBy n.toNat ≠ []) (hk : s.get (R.PERTURB.PROFILE_A_KIND n.toNat) ≠ 0) :
    ∃ u : State, exec (.perturbEvent n) s = .next (u.spendProfile n.toNat)
      ∧ u.get R.PERTURB.EVENTS_COUNT = min ((s.injectedAt n.toNat).get R.PERTURB.EVENTS_COUNT + 1) (2 ^ 32 - 1)
      ∧ assoc u.trust.injected n.toNat = some ((assoc (s.injectedAt n.toNat).trust.injected n.toNat).getD 0 + 1) := by
  refine ⟨((s.injectedAt n.toNat).bump R.PERTURB.EVENTS_COUNT).setTrust fun x =>
    { x with injected := assocSet x.injected n.toNat ((assoc x.injected n.toNat).getD 0 + 1) }, ?_, ?_, ?_⟩
  · show execPerturbEvent n s = _
    unfold execPerturbEvent
    rw [if_neg (by simp [h0, hn, hk])]
    rfl
  · exact State.get_bump_same ..
  · exact assoc_assocSet_same ..

theorem State.spendProfile_unspent {n k : Nat} (hk : assoc s.trust.injected n = some k) (h : k < s.get (R.PERTURB.PROFILE_A_COUNT n)) :
    s.spendProfile n = s := by
  unfold State.spendProfile
  rw [hk]
  exact if_pos (.inr h)

/-- A profile whose events are used up is named no more. -/
theorem State.spendProfile_spent {n k : Nat} (h1 : 1 ≤ n) (hk : assoc s.trust.injected n = some k) (h0 : s.get (R.PERTURB.PROFILE_A_COUNT n) ≠ 0)
    (h : s.get (R.PERTURB.PROFILE_A_COUNT n) ≤ k) : (s.spendProfile n).namedBy n = []
      ∧ bitAt ((s.spendProfile n).get (H.STICKY 9)) Ev.PERTURB.EXHAUSTED = true := by
  have heq : s.spendProfile n = ((s.namedBy n).foldl (fun t p => t.put (H.POINT p) 0) (s.setTrust fun x =>
      { x with injected := x.injected.filter (·.1 != n) })).pulse 9 Ev.PERTURB.EXHAUSTED := by
    unfold State.spendProfile
    rw [hk]
    exact if_neg (by simp [h0, h])
  rw [heq]
  refine ⟨List.filter_eq_nil_iff.mpr fun p hp => ?_, State.pulse_sticky _ _ _ (by decide)⟩
  rw [State.pulse_get_other _ _ _ (Fld.ne_of_place rfl) (Fld.ne_of_place rfl)]
  by_cases hnamed : p ∈ s.namedBy n
  · rw [State.clearPoints hnamed, beq_iff_eq]
    omega
  · have hkeep : ((s.namedBy n).foldl (fun t p => t.put (H.POINT p) 0) (s.setTrust fun x =>
        { x with injected := x.injected.filter (·.1 != n) })).get (H.POINT p) = s.get (H.POINT p) := by
      refine List.foldlRecOn (motive := fun t : State => t.get (H.POINT p) = s.get (H.POINT p)) _ _ rfl fun t ht q hq => ?_
      rw [State.get_put_other, ht]
      intro e
      have hpq : p = q := congrArg Fld.page e
      exact hnamed (hpq ▸ hq)
    rw [hkeep]
    intro hb
    exact hnamed (List.mem_filter.mpr ⟨hp, hb⟩)

theorem State.inject_delay (mag : Nat) : (s.inject 1 mag 0x10).get R.GATE.CREDIT_STATE_HELD_PERTURB = 1
    ∧ assoc (s.inject 1 mag 0x10).trust.delays 0x10 = some (s.time + 1000 * mag) := by
  have heq : s.inject 1 mag 0x10 = (s.delayPage 0x10 mag).hold R.GATE.CREDIT_STATE_HELD_PERTURB true := if_pos rfl
  have htrust (t : State) (f : Fld) : (t.hold f true).trust = t.trust := keeps_trust (State.forget_hold (T := 0x480001020) rfl ..) rfl
  rw [heq]
  refine ⟨?_, ?_⟩
  · rw [State.hold, State.advance_get_beyond _ (by decide), State.putBit, State.get_put_same]
    rfl
  · rw [htrust]
    show assoc (s.trust.delays.filter (fun p => p.1 != 0x10) ++ [(0x10, s.time + 1000 * mag)]) 0x10 = _
    have happend (l : List (Nat × Nat)) : assoc (l.filter (fun p => p.1 != 0x10) ++ [(0x10, s.time + 1000 * mag)]) 0x10 = some (s.time + 1000 * mag) := by
      induction l with
      | nil => rfl
      | cons p l ih =>
        by_cases hp : p.1 = 0x10
        · rw [List.filter_cons_of_neg (by simp [hp]), ih]
        · rw [List.filter_cons_of_pos (by simp [hp]), List.cons_append, assoc, if_neg hp, ih]
    exact happend _

theorem exec_perturbDelayExpiry_ends {page d : Nat} (h : assoc s.trust.delays page = some d) : ∃ t : State, t.time = max s.time d
    ∧ assoc t.trust.delays page = none
    ∧ exec (.perturbDelayExpiry page) s = .next (if page = 0x10 then t.hold R.GATE.CREDIT_STATE_HELD_PERTURB false else t.dispatchSlices) := by
  refine ⟨State.setTrust { s with time := max s.time d } fun x => { x with delays := x.delays.filter (·.1 != page) }, rfl, ?_, ?_⟩
  · exact assoc_filter_of_dropped s.trust.delays (fun p => p != page) (bne_self_eq_false page)
  · show execPerturbDelayExpiry page s = _
    unfold execPerturbDelayExpiry
    rw [h]

end

/-! ### The obligation -/

/-- Settles O57: what each command of OTP, roles and perturbation comes to, from the trust state that its audits and records leave. -/
theorem rolesOtpAndPerturbation : Obligations.RolesOtpAndPerturbation := by
  unfold Obligations.RolesOtpAndPerturbation
  refine ⟨fun s c data ha hpf hwf => ⟨fun g hlen hh hok hfind hrep => ?_, fun g hlen hh hok hfind => ?_, fun r rb hr => ?_⟩,
    fun s c data ha hwf => ⟨fun hh hd => ?_, fun hh => ?_⟩,
    fun s c data ha hh => ⟨exec_operatorCredential_dropped ha hh, exec_operatorCredential_set ha hh, exec_operatorCredential_refused ha hh⟩,
    fun s o r hr hm hl hh => ?_, fun s o h r hr hm hl hh => ?_, fun s c role r ha hr => ⟨?_, ?_, ?_, ?_, ?_⟩,
    fun s c r h hh => State.authDone_held hh, fun s o r ch resp hr hm hh hch ho hcr ht => ⟨fun hok => ?_, fun hne => ?_⟩,
    fun s o r ch resp va vb hr hm hch ht => State.respond_late hr hm hch ht va vb, fun s o r h3 => ?_,
    fun s c role salt d data ha hrole hm hl hc => ⟨fun hok => ?_, fun hne => ?_⟩,
    fun s o r => ⟨fun x hx => s.dropRole_sub hx, fun h1 x hx => s.dropRole_drops h1 hx⟩,
    fun s o role r va vb hp hre => ⟨fun hr => ?_, fun h3 => ?_⟩, fun s o r b u h _ => State.stepChallenge_shows h,
    fun s o ch hch => exec_challengeLapse_ends hch, fun s o x hx ho => exec_roleIdleLapse_ends hx ho,
    fun s role r hr hu h3 => exec_roleLockoutEnd_ends hr hu h3, fun s o role action result param hparam => ?_,
    fun s o hp hre hh => ⟨exec_arm_arms hp hre hh, exec_arm_refused hp hre, exec_kill_ends hp hre hh⟩,
    fun s n h => exec_perturbEvent_idle h, fun s n h0 hn hk => ?_,
    fun s n k h1 _ hk h0 => ⟨State.spendProfile_unspent hk, State.spendProfile_spent h1 hk h0⟩,
    fun s mag => ⟨_, rfl, State.inject_delay mag⟩, fun s page d h => exec_perturbDelayExpiry_ends h⟩
  · have hrole : otpRole data = .maker := if_pos hlen
    have hfree : s.freeGen data = some g := (if_pos hlen).trans hfind
    obtain ⟨hg, hblank⟩ := find?_unused hfind
    have hfits : s.otpOk data g = true := by
      rw [State.otpOk, if_pos hlen, hok]
      simpa using hrep
    refine ⟨?_, ?_⟩
    · obtain ⟨t, hexec, hotp, hmaker, -, hcqe⟩ := exec_otpProgram_burns ha hpf (hrole ▸ hh) hfree hfits true
      rw [if_pos hlen] at hotp
      obtain ⟨hsame, hother, hinst⟩ := State.makerImage_burnt hwf hlen hg hblank hotp
      exact ⟨t, hexec, hsame rfl, hother, hinst, hmaker, hcqe⟩
    · obtain ⟨t, hexec, hotp, -, -, hcqe⟩ := exec_otpProgram_burns ha hpf (hrole ▸ hh) hfree hfits false
      rw [if_pos hlen] at hotp
      obtain ⟨hused, hvalid⟩ := State.makerImage_unread hwf hlen hblank hok hotp
      exact ⟨t, hexec, hused, hvalid, hcqe⟩
  · have hrole : otpRole data = .installer := if_neg hlen
    have hfree : s.freeGen data = some g := (if_neg hlen).trans hfind
    obtain ⟨hg, hblank⟩ := find?_unused hfind
    obtain ⟨t, hexec, hotp, -, hinst, hcqe⟩ := exec_otpProgram_burns ha hpf (hrole ▸ hh) hfree ((if_neg hlen).trans hok) true
    rw [if_neg hlen] at hotp
    obtain ⟨hsame, hother, hmaker⟩ := State.instImage_burnt hwf (instOk_length hok) hg hblank hotp
    exact ⟨t, hexec, hsame, by rw [State.instValid, hsame, hok], hother, hmaker, hinst, hcqe⟩
  · subst hr
    exact ⟨fun hh => ⟨_, exec_otpProgram_denied ha hpf rb hh, State.completeAdmin_trust .., State.mem_completeAdmin_cqes ..⟩,
      exec_otpProgram_bad ha hpf rb, fun hh hr => exec_otpProgram_full ha hpf rb hh (fun e => by simp [e] at hr)⟩
  · subst hd
    exact exec_decommission_done ha hwf hh
  · exact ⟨_, exec_decommission_denied ha hh, State.completeAdmin_trust .., State.mem_completeAdmin_cqes ..⟩
  · obtain ⟨hserial, hlen, hrole, horigin, hfunc, hfails, htime⟩ := (s.freshBytes 32).2.challengeBytes_fields (o := o) (r := r) (s.freshBytes 32).1
      (s.freshBytes_length 32)
    refine ⟨_, _, State.challenge_of_admitted hr hm hl hh, (State.mem_challenged _).mpr (.inr rfl), fun x hx ho => ?_, ?_,
      fun _ => ⟨hlen, hrole, horigin, hfunc, hfails, htime⟩⟩
    · exact ((State.mem_challenged x).mp hx).resolve_left fun h => h.2 ho
    · rw [s.serial_length]
      exact hserial
  · refine ⟨_, State.challenge_of_held hr hm hl hh, ?_, fun hv => State.roleErr_code ((State.auditRefusal_get ..).trans hv)⟩
    rw [State.roleErr_trust]
    exact TrustSt.sessions_of_sansAudit (State.auditRefusal_sansAudit ..)
  · exact fun b u h => exec_roleAuthGetChallenge_given ha hr h
  · intro why u h hne
    rw [exec_roleAuthGetChallenge_eq ha hr, if_neg (by decide), h, if_neg hne]
  · intro len hlen
    refine ⟨_, exec_roleAuthGetChallenge_eq ha hr len, ?_⟩
    rw [if_pos hlen]
    exact ⟨State.completeAdmin_trust .., State.mem_completeAdmin_cqes ..⟩
  · exact fun data va vb => ⟨_, rfl, exec_roleAuthRespond_eq ha hr data va vb⟩
  · exact ⟨_, exec_roleAuthDrop_eq ha hr, State.mem_completeAdmin_cqes .., State.completeAdmin_trust ..⟩
  · have heq := State.respond_live (resp := resp) hr hm hch ho hcr ht
    rw [if_pos hok, if_neg (by simp [hh])] at heq
    exact ⟨_, heq, State.mem_grant_sessions .., by rw [State.grant_challenges, State.answered_challenges hch ho],
      fun h3 => State.grant_lockout _ _ _ _ h3, State.grant_gained ..⟩
  · have heq := State.respond_live (resp := resp) hr hm hch ho hcr ht
    rw [if_neg hne] at heq
    have hnote := State.noteVerdict_trust (s := s.answered o) 0x5A 0x5A (digestInfo 0 0x1F0) 0x1F0
    refine ⟨_, heq, ?_, ?_, fun h3 => ?_, fun hv => ?_⟩
    · rw [State.authFail_sessions, hnote]
      rfl
    · rw [State.authFail_challenges, hnote, State.answered_challenges hch ho]
    · rw [State.authFail_lockout _ _ _ (by rw [hnote]; exact h3), State.failedLockout_fails, State.lockout, hnote]
      rfl
    · exact State.authFail_code _ _ _ ((State.noteVerdict_get_of_page _ _ _ _ (by decide)).trans hv)
  · rw [State.authFail_lockout _ _ _ h3]
    refine ⟨State.failedLockout_fails .., State.authFail_sessions .., fun h4 => ?_, fun h4 => ?_⟩
    · rw [State.failedLockout, if_pos (by omega)]
      exact ⟨rfl, rfl⟩
    · rw [State.failedLockout, if_neg (by omega)]
  · subst hrole
    have hexec := exec_roleAuthCredential_eq (data := data) ha hm hl hc
    rw [if_pos hok] at hexec
    exact ⟨_, hexec, by rw [State.completeAdmin_trust]; exact State.mem_grant_sessions .., State.mem_completeAdmin_cqes ..⟩
  · subst hrole
    have hexec := exec_roleAuthCredential_eq (data := data) ha hm hl hc
    rw [if_neg hne] at hexec
    exact ⟨_, hexec, by rw [State.completeAdmin_trust, State.authFail_sessions], State.mem_completeAdmin_cqes ..⟩
  · exact ⟨{ s.dropLow o 6 with refusal := none }, rfl, rfl, rfl, congrArg Host.Outcome.next (State.authCtrl_acts hp hre hr 1 _),
      congrArg Host.Outcome.next (State.authCtrl_acts hp hre hr 2 _), congrArg Host.Outcome.next (State.authCtrl_acts hp hre hr 4 _)⟩
  · subst h3
    exact ⟨_, rfl, State.authCtrl_reserved hp hre 1 _⟩
  · obtain ⟨hseq, htime, hrole, horigin, haction, hresult, hpar, hprev⟩ :=
      auditEntry_fields s.trust.auditSeq s.time s.rtcValue role o action result param s.auditPrev
    have htrust := s.audit_trust o role action result param
    refine ⟨s.newAudit o role action result param, ?_, hseq, htime, hrole, horigin, haction, hresult, hpar hparam, hprev, ?_, ?_, State.audit_prev ..,
      fun hlen => ?_⟩
    · rw [htrust]
      exact State.longerAudit_last ..
    · rw [htrust]
    · rw [htrust]
    · rw [htrust]
      exact State.longerAudit_length _ _ _ _ _ _ hlen
  · obtain ⟨u, hexec, hcount, hinj⟩ := exec_perturbEvent_injects h0 hn hk
    exact ⟨_, u, rfl, hexec, hcount, hinj⟩

end Sys2Proof.Machine
end

section
/-!
The Drove links: what sending leaves of the ring's state (R494-R503).
-/

namespace Sys2Proof.Machine

open Sys2Proof.Laws

/-! ### A link, and what sending on it changes -/

/-- A link without what sending changes: its sequence number, its credit, its packets and flits on the way. -/
def DroveLink.core (l : DroveLink) : DroveLink := { l with txSeq := 0, txCtrl := 0, txq := [], replay := [], ackOut := 0, ackFrom := 0 }

@[simp] theorem DroveLink.core_core (l : DroveLink) : l.core.core = l.core := rfl

theorem DroveLink.payload_core (l : DroveLink) (time : Nat) (p : Bytes) : (l.payload time p).core = l.core := rfl

/-- The flit in which a packet leaves. -/
theorem DroveLink.payload_replay (l : DroveLink) (time : Nat) (p : Bytes) :
    ∃ f : TxFlit, (l.payload time p).replay = l.replay ++ [f] ∧ f.packets = [p] := ⟨_, rfl, rfl⟩

theorem DroveLink.open_core (l : DroveLink) : l.core.open_ = l.open_ := rfl

theorem linkPump_core (time : Nat) (q : List Bytes) (l : DroveLink) : (linkPump time q l).core = l.core := by
  induction q generalizing l with
  | nil => rfl
  | cons p q ih =>
    unfold linkPump
    split
    · exact ih _
    · rfl

theorem linkPump_replay (time : Nat) (q : List Bytes) (l : DroveLink) : ∃ m, (linkPump time q l).replay = l.replay ++ m := by
  induction q generalizing l with
  | nil => exact ⟨[], (List.append_nil _).symm⟩
  | cons p q ih =>
    unfold linkPump
    split
    · obtain ⟨m, hm⟩ := ih { l.payload time p with txCtrl := l.txCtrl + 1 }
      obtain ⟨f, hf, -⟩ := l.payload_replay time p
      exact ⟨[f] ++ m, by rw [hm, ← List.append_assoc, ← hf]⟩
    · exact ⟨[], (List.append_nil _).symm⟩

/-- Nothing credited leaves a link whose neighbour has given no credit. -/
theorem linkPump_of_no_credit {time : Nat} {q : List Bytes} {l : DroveLink} (h : l.limCtrl = none) : linkPump time q l = { l with txq := q } := by
  cases q with
  | nil => rfl
  | cons p q =>
    unfold linkPump
    rw [if_neg (by simp [DroveLink.mayCtrl, h])]

/-! ### The ring's state -/

/-- The state of the Drove without what sending on its links changes. -/
def State.ring (s : State) : DroveSt := { s.drove with a := s.drove.a.core, b := s.drove.b.core }

theorem State.ring_link (s : State) (p : Port) : s.ring.link p = (s.drove.link p).core := by cases p <;> rfl

theorem State.ring_of_drove {s t : State} (h : t.drove = s.drove) : t.ring = s.ring := by rw [State.ring, h, State.ring]

/-- A part of the Drove's state that sending does not change. -/
theorem ring_part {α : Type} {s t : State} (h : t.ring = s.ring) (f : DroveSt → α) (hf : ∀ u : State, f u.ring = f u.drove) : f t.drove = f s.drove := by
  rw [← hf t, h, hf s]

theorem ring_core {s t : State} (h : t.ring = s.ring) (p : Port) : (t.drove.link p).core = (s.drove.link p).core := by
  rw [← State.ring_link, h, State.ring_link]

theorem ring_open {s t : State} (h : t.ring = s.ring) (p : Port) : (t.drove.link p).open_ = (s.drove.link p).open_ :=
  (congrArg DroveLink.open_ (ring_core h p) :)

section
variable (s : State)

theorem State.link_modLink_same (p : Port) (f : DroveLink → DroveLink) : (s.modLink p f).drove.link p = f (s.drove.link p) := by cases p <;> rfl

theorem State.link_modLink_other {p q : Port} (h : q ≠ p) (f : DroveLink → DroveLink) : (s.modLink p f).drove.link q = s.drove.link q := by
  cases p <;> cases q
  · exact absurd rfl h
  · rfl
  · rfl
  · exact absurd rfl h

theorem otherPort_ne (p : Port) : otherPort p ≠ p := by cases p <;> decide

theorem State.ring_modLink {f : DroveLink → DroveLink} (hf : ∀ l, (f l).core = l.core) (p : Port) : (s.modLink p f).ring = s.ring := by
  cases p
  · exact congrArg (fun l => { s.ring with a := l }) (hf s.drove.a)
  · exact congrArg (fun l => { s.ring with b := l }) (hf s.drove.b)

theorem State.ring_ite {c : Prop} [Decidable c] (t u : State) : State.ring (if c then t else u) = if c then t.ring else u.ring := apply_ite ..

theorem State.ring_linkSend (p : Port) (pkt : Bytes) : (s.linkSend p pkt).ring = s.ring := by
  unfold State.linkSend
  split
  · exact s.ring_modLink (f := fun l => { l with txq := l.txq ++ [pkt] }) (fun _ => rfl) p
  · rfl

theorem State.ring_setSend (p : Port) (pkt : Bytes) : (s.setSend p pkt).ring = s.ring := by
  unfold State.setSend
  dsimp only
  split
  · rfl
  · split
    · exact s.ring_linkSend ..
    · split
      · rfl
      · exact s.ring_modLink (f := fun l => l.payload s.time pkt) (fun _ => rfl) p

theorem State.ring_passOn (h : DroveHdr) (pkt : Nat → Bytes) : (s.passOn h pkt).ring = s.ring := by
  unfold State.passOn
  split
  · rfl
  · exact State.ring_setSend ..

theorem State.ring_sendForm (p : Port) : (s.sendForm p).ring = s.ring := State.ring_setSend ..

theorem State.ring_resendForm (p : Port) : (s.resendForm p).ring = s.ring := by
  unfold State.resendForm
  dsimp only
  split
  · exact State.ring_sendForm ..
  · exact State.ring_setSend ..

theorem State.ring_announce : s.announce.ring = s.ring := by
  unfold State.announce
  split
  · rw [State.ring_sendForm, State.ring_sendForm]
  · exact State.ring_sendForm ..

theorem State.ring_sendReply (opId : Nat) (a : Nat × Nat × Bytes) : (s.sendReply opId a).ring = s.ring := State.ring_setSend ..

theorem State.ring_formOn (q : FormPkt) : (s.formOn q).ring = s.ring := by
  unfold State.formOn
  dsimp only
  split
  · rfl
  · exact State.ring_setSend ..

theorem State.ring_droveDone : s.droveDone.ring = s.ring := by
  show ({ s.drove with a := (linkPump s.time s.drove.a.txq s.drove.a).core, b := (linkPump s.time s.drove.b.txq s.drove.b).core } : DroveSt) = _
  rw [linkPump_core, linkPump_core]
  rfl

theorem State.link_droveDone (p : Port) : s.droveDone.drove.link p = linkPump s.time (s.drove.link p).txq (s.drove.link p) := by cases p <;> rfl

theorem State.link_otherPort_setSend (p : Port) (pkt : Bytes) : (s.setSend (otherPort p) pkt).drove.link p = s.drove.link p := by
  have hne := (otherPort_ne p).symm
  unfold State.setSend State.linkSend
  dsimp only
  split
  · rfl
  · split
    · split
      · exact s.link_modLink_other hne _
      · rfl
    · split
      · rfl
      · exact s.link_modLink_other hne _

/-- An uncredited packet leaves at once on an open link whose replay buffer has room. -/
theorem State.setSend_now {p : Port} {pkt : Bytes} (ho : (s.drove.link p).open_ = true) (hr : (s.drove.link p).retraining = false)
    (hl : (s.drove.link p).replay.length < 512) (hu : uncredited pkt = true) : s.setSend p pkt = s.modLink p fun l => l.payload s.time pkt := by
  unfold State.setSend
  dsimp only
  rw [if_neg (by simp [ho]), if_neg (by simp [hu]), if_neg (by simp [hr]; omega)]

/-! ### The registers and the other parts -/

theorem State.droveErr_drove (code member port : Nat) : (s.droveErr code member port).drove = s.drove := State.record_drove ..

theorem State.droveDone_frame : forget 0x200000020 s.droveDone = forget 0x200000020 s := State.forget_droveDone rfl ..

/-- The Drove's registers that `showDrove` writes lie behind the header. -/
theorem State.showDrove_get_header {x : Fld} (hx : x.off < 0x040) : s.showDrove.get x = s.get x := by
  refine State.puts_get_other fun p hp e => ?_
  have hoff : ∀ p ∈ ([R.DROVE.SET_STATUS_ACTIVE_ROLE, R.DROVE.SET_STATUS_MEMBER, R.DROVE.SET_STATUS_MANAGER, R.DROVE.SET_STATUS_STANDBY,
      R.DROVE.SET_STATUS_NO_STANDBY, R.DROVE.SET_STATUS_QUORUM, R.DROVE.SET_STATUS_TOPOLOGY, R.DROVE.SET_STATUS_SWAPPED, R.DROVE.SET_STATUS_LIVE,
      R.DROVE.SET_STATUS_HOPS, R.DROVE.EPOCH_EPOCH, R.DROVE.LIVE_MASK_MASK, R.DROVE.LINK_A_UP, R.DROVE.LINK_A_REFUSAL, R.DROVE.LINK_A_NEIGHBOUR,
      R.DROVE.LINK_B_UP, R.DROVE.LINK_B_REFUSAL, R.DROVE.LINK_B_NEIGHBOUR, R.DROVE.LINK_DELAY_A_NS, R.DROVE.LINK_DELAY_B_NS, R.DROVE.TIME_OFFSET_NS,
      R.DROVE.OPS_QUEUED_COUNT] : List Fld), 0x040 ≤ p.off := by decide
  have := hoff p.1 (List.mem_map_of_mem (f := Prod.fst) hp)
  rw [e] at this
  omega

theorem State.droveDone_get_header {x : Fld} (hx : x.off < 0x040) : s.droveDone.get x = s.get x := by
  rw [State.droveDone, State.showDrove_get_header _ hx]
  rfl

theorem State.setSend_get (p : Port) (pkt : Bytes) (x : Fld) : (s.setSend p pkt).get x = s.get x :=
  State.get_of_regs (keeps_regs (State.forget_setSend (T := 0x200000000) rfl ..) rfl) x

theorem State.modLink_get (p : Port) (f : DroveLink → DroveLink) (x : Fld) : (s.modLink p f).get x = s.get x := rfl

theorem State.droveErr_code {code : Nat} (hv : s.get (H.VALID 0xC0) = 0) (member port : Nat) :
    (s.droveErr code member port).get (H.CODE 0xC0) = code % 2 ^ 16 := State.record_get_CODE hv ..

end

end Sys2Proof.Machine
end

section
/-!
Link up, link down, flits and IDENT on a Drove link (R494-R499).
-/

namespace Sys2Proof.Machine

open Sys2Proof.Laws

theorem State.droveDone_core (s : State) (p : Port) : (s.droveDone.drove.link p).core = (s.drove.link p).core := ring_core s.ring_droveDone p

theorem State.droveDone_time (s : State) : s.droveDone.time = s.time := keeps_time (T := 0x200000020) s.droveDone_frame rfl

/-! ### Link up and link down -/

section
variable {s : State} {p : Port}

/-- The state whose link came up, before its IDENT waits there. -/
def State.upLink (s : State) (p : Port) : State := s.takeRole.modLink p fun l => { DroveLink.down with up := true, peer := l.peer }

theorem State.takeRole_link (s : State) (p : Port) : s.takeRole.drove.link p = s.drove.link p := by
  unfold State.takeRole
  split
  · rfl
  · cases p <;> rfl

theorem State.takeRole_time (s : State) : s.takeRole.time = s.time := by
  unfold State.takeRole
  split <;> rfl

theorem State.takeRole_role (h : s.drove.role = 0) : s.takeRole.drove.role = s.droveOtpRole := by
  unfold State.takeRole
  rw [if_neg (by simp [h])]
  rfl

theorem State.upLink_identPkt (s : State) (p : Port) : (s.upLink p).identPkt p = s.takeRole.identPkt p := by cases p <;> rfl

/-- The link with its IDENT waiting. -/
theorem State.linkSend_upLink (s : State) (p : Port) (pkt : Bytes) : (s.upLink p).linkSend p pkt
    = (s.upLink p).modLink p fun l => { l with txq := l.txq ++ [pkt] } := by
  unfold State.linkSend
  rw [if_pos (by rw [State.upLink, State.link_modLink_same])]

theorem State.link_linkSend_upLink (s : State) (p : Port) (pkt : Bytes) : ((s.upLink p).linkSend p pkt).drove.link p
    = { DroveLink.down with up := true, peer := (s.drove.link p).peer, txq := [pkt] } := by
  rw [State.linkSend_upLink, State.link_modLink_same, State.upLink, State.link_modLink_same, State.takeRole_link]
  rfl

theorem State.link_other_linkSend_upLink (s : State) (p : Port) (pkt : Bytes) :
    ((s.upLink p).linkSend p pkt).drove.link (otherPort p) = s.drove.link (otherPort p) := by
  rw [State.linkSend_upLink, State.link_modLink_other _ (otherPort_ne p), State.upLink, State.link_modLink_other _ (otherPort_ne p), State.takeRole_link]

theorem State.time_linkSend_upLink (s : State) (p : Port) (pkt : Bytes) : ((s.upLink p).linkSend p pkt).time = s.time := by
  rw [State.linkSend_upLink]
  exact s.takeRole_time

theorem exec_droveLinkUp_up (hr : s.droveOtpRole ≠ 0) (hm : 3 ≤ s.mode) (hup : (s.drove.link p).up = false) :
    ∃ t : State, exec (.droveLinkUp p) s = .next t ∧ (t.drove.link p).up = true ∧ (t.drove.link p).ident = false ∧ (t.drove.link p).refusal = 0
      ∧ (t.drove.link p).txq = [s.takeRole.identPkt p] ∧ (s.drove.role = 0 → t.drove.role = s.droveOtpRole)
      ∧ t.drove.link (otherPort p) = linkPump s.time (s.drove.link (otherPort p)).txq (s.drove.link (otherPort p)) := by
  have hexec : exec (.droveLinkUp p) s = .next ((s.upLink p).linkSend p ((s.upLink p).identPkt p)).droveDone := by
    show execDroveLinkUp p s = _
    unfold execDroveLinkUp
    rw [if_neg (by omega), if_neg (by simp [hup])]
    rfl
  rw [State.upLink_identPkt] at hexec
  have hlink : ((s.upLink p).linkSend p (s.takeRole.identPkt p)).droveDone.drove.link p
      = { DroveLink.down with up := true, peer := (s.drove.link p).peer, txq := [s.takeRole.identPkt p] } := by
    rw [State.link_droveDone, State.link_linkSend_upLink, linkPump_of_no_credit rfl]
  refine ⟨_, hexec, by rw [hlink], by rw [hlink]; rfl, by rw [hlink]; rfl, by rw [hlink], fun h0 => ?_, ?_⟩
  · rw [ring_part (State.ring_droveDone _) DroveSt.role fun _ => rfl, ring_part (State.ring_linkSend ..) DroveSt.role fun _ => rfl, ← State.takeRole_role h0]
    cases p <;> rfl
  · rw [State.link_droveDone, State.link_other_linkSend_upLink, State.time_linkSend_upLink]

/-- A link that goes down, with its record, before the ring becomes a line. -/
def State.downLink (s : State) (p : Port) : State :=
  ((s.modLink p fun l => { DroveLink.down with peer := l.peer }).pulse 0xC0 Ev.DROVE.LINK_DOWN).droveErr E.DROVE_LINK_DOWN (s.drove.link p).neighbour
    (s.drove.logical p)

theorem State.downLink_drove (s : State) (p : Port) : (s.downLink p).drove = (s.modLink p fun l => { DroveLink.down with peer := l.peer }).drove := by
  rw [State.downLink, State.droveErr_drove, State.pulse_drove]

/-- A line beside the ring before it: nothing but the topology. -/
theorem State.goLine_ring (s : State) : s.goLine.ring = { s.ring with line := true } := by
  unfold State.goLine
  split
  next h => rw [← h]; rfl
  next => exact State.ring_of_drove ((State.droveErr_drove ..).trans (State.pulse_drove ..))

theorem State.pulse_sticky_of_set {page i : Nat} (hi : i < 32) (bit : Nat) (h : bitAt (s.get (H.STICKY page)) i = true) :
    bitAt ((s.pulse page bit).get (H.STICKY page)) i = true := by
  rw [State.pulse_sticky _ _ _ hi, h, ite_self]

theorem State.record_code_later {page : Nat} (hv : s.get (H.VALID page) ≠ 0) (code info func ext last : Nat) :
    (s.record page code info func ext last).get (H.CODE page) = s.get (H.CODE page) := by
  rw [State.record_get_later hv _ _ _ _ _ (Fld.ne_of_place rfl), State.get_bump_other _ _ (Fld.ne_of_place rfl)]

/-- The header of the Drove's page keeps its first error and its set bits as the ring becomes a line. -/
theorem State.goLine_header (s : State) : (∀ i < 32, bitAt (s.get (H.STICKY 0xC0)) i = true → bitAt (s.goLine.get (H.STICKY 0xC0)) i = true)
    ∧ (s.get (H.VALID 0xC0) ≠ 0 → s.goLine.get (H.CODE 0xC0) = s.get (H.CODE 0xC0)) := by
  unfold State.goLine State.droveErr
  split
  · exact ⟨fun _ _ h => h, fun _ => rfl⟩
  · refine ⟨fun i hi h => ?_, fun hv => ?_⟩
    · rw [State.record_sticky _ _ _ _ _ _ _ hi, State.pulse_sticky _ _ _ hi, State.setDrove_get, h, ite_self, ite_self]
    have hkeep (t : State) {x : Fld} (hs : x ≠ H.STICKY 0xC0) (hc : x ≠ H.COUNT 0xC0) : (t.pulse 0xC0 Ev.DROVE.LINE).get x = t.get x :=
      State.pulse_get_other _ _ _ hs hc
    rw [State.record_code_later, hkeep _ (by decide) (by decide), State.setDrove_get]
    rw [hkeep _ (by decide) (by decide), State.setDrove_get]
    exact hv

/-- What the loss of a link brings: a line where there was a ring. -/
theorem State.linkLeft_ring (s : State) (p : Port) : (s.linkLeft p).ring = if s.drove.member.isNone || s.drove.line then s.ring else { s.ring with line := true } := by
  unfold State.linkLeft
  dsimp only
  split
  · rfl
  · split
    · rw [State.ring_announce, State.goLine_ring]
    · rw [State.ring_setSend, State.goLine_ring]

theorem State.announce_get (s : State) (x : Fld) : s.announce.get x = s.get x :=
  State.get_of_regs (keeps_regs (State.forget_announce (T := 0x200000000) rfl ..) rfl) x

theorem State.linkLeft_header (s : State) (p : Port) : (∀ i < 32, bitAt (s.get (H.STICKY 0xC0)) i = true → bitAt ((s.linkLeft p).get (H.STICKY 0xC0)) i = true)
    ∧ (s.get (H.VALID 0xC0) ≠ 0 → (s.linkLeft p).get (H.CODE 0xC0) = s.get (H.CODE 0xC0)) := by
  unfold State.linkLeft
  dsimp only
  split
  · exact ⟨fun _ _ h => h, fun _ => rfl⟩
  · split
    · simp only [State.announce_get]
      exact s.goLine_header
    · simp only [State.setSend_get]
      exact s.goLine_header

theorem exec_droveLinkDown_down (hup : (s.drove.link p).up = true) :
    ∃ t : State, exec (.droveLinkDown p) s = .next t ∧ (t.drove.link p).up = false ∧ bitAt (t.get (H.STICKY 0xC0)) Ev.DROVE.LINK_DOWN = true
      ∧ (s.get (H.VALID 0xC0) = 0 → t.get (H.CODE 0xC0) = E.DROVE_LINK_DOWN)
      ∧ ((s.drove.link p).open_ = true → s.drove.member.isSome = true → t.drove.line = true) := by
  have hexec : exec (.droveLinkDown p) s = .next (if (s.drove.link p).open_ then (s.downLink p).linkLeft p else s.downLink p).droveDone := by
    show execDroveLinkDown p s = _
    unfold execDroveLinkDown
    rw [if_neg (by simp [hup])]
    rfl
  have hdown : ((s.downLink p).drove.link p).up = false := by rw [State.downLink_drove, State.link_modLink_same]; rfl
  have hline : (s.downLink p).drove.line = s.drove.line ∧ (s.downLink p).drove.member = s.drove.member := by
    rw [State.downLink_drove]
    cases p <;> exact ⟨rfl, rfl⟩
  have hsticky : bitAt ((s.downLink p).get (H.STICKY 0xC0)) Ev.DROVE.LINK_DOWN = true := by
    rw [State.downLink, State.droveErr, State.record_sticky _ _ _ _ _ _ _ (by decide), State.pulse_sticky _ _ _ (by decide)]
    rfl
  have hfirst (hv : s.get (H.VALID 0xC0) = 0) : (s.downLink p).get (H.CODE 0xC0) = E.DROVE_LINK_DOWN := by
    rw [State.downLink, State.droveErr_code]
    · rfl
    · rw [State.pulse_get_other _ _ _ (by decide) (by decide), State.modLink_get, hv]
  have hvalid : (s.downLink p).get (H.VALID 0xC0) ≠ 0 := by
    have := State.record_bit_VALID ((s.modLink p fun l => { DroveLink.down with peer := l.peer }).pulse 0xC0 Ev.DROVE.LINK_DOWN) 0xC0 E.DROVE_LINK_DOWN
      ((s.drove.link p).neighbour % 32 + s.drove.logical p % 2 * 32) 0x1F0 0 0
    simpa [State.bit, State.downLink, State.droveErr] using this
  refine ⟨_, hexec, ?_⟩
  by_cases ho : (s.drove.link p).open_ = true
  · rw [if_pos ho]
    have hring := (s.downLink p).linkLeft_ring p
    obtain ⟨hbit, hcode⟩ := (s.downLink p).linkLeft_header p
    refine ⟨?_, ?_, fun hv => ?_, fun _ hm => ?_⟩
    · rw [← hdown]
      refine (congrArg DroveLink.up (State.droveDone_core _ p) :).trans ?_
      have hkeep : ((s.downLink p).linkLeft p).ring.link p = (s.downLink p).ring.link p := by
        rw [hring]
        split
        · rfl
        · cases p <;> rfl
      rw [State.ring_link, State.ring_link] at hkeep
      exact (congrArg DroveLink.up hkeep :)
    · rw [State.droveDone_get_header _ (by decide)]
      exact hbit _ (by decide) hsticky
    · rw [State.droveDone_get_header _ (by decide), hcode hvalid, hfirst hv]
    · rw [ring_part (State.ring_droveDone _) DroveSt.line fun _ => rfl]
      have hnone : s.drove.member.isNone = false := by simpa using hm
      rw [hline.1, hline.2, hnone, Bool.false_or] at hring
      have := congrArg DroveSt.line hring
      split at this
      next h => rw [← h, ← hline.1]; exact this
      next => exact this
  · rw [if_neg ho]
    refine ⟨(congrArg DroveLink.up (State.droveDone_core _ p) :).trans hdown, ?_, fun hv => ?_, fun h => absurd h ho⟩
    · rw [State.droveDone_get_header _ (by decide), hsticky]
    · rw [State.droveDone_get_header _ (by decide), hfirst hv]

end

/-! ### Flits -/

section
variable {s : State} {p : Port} {f : Flit}

/-- What the payload of a flit leaves of a link. -/
def DroveLink.order (l : DroveLink) : Nat × Bool × Bool := (l.rxSeq, l.nakked, l.retraining)

theorem State.droveBad_order (s : State) (p q : Port) : ((s.droveBad p).drove.link q).order = (s.drove.link q).order := by
  rw [State.droveBad, State.droveErr_drove]

theorem State.droveIn_order (s : State) (p : Port) (b : Bytes) : ((s.droveIn p b).drove.link p).order = (s.drove.link p).order := by
  unfold State.droveIn
  dsimp only
  split
  · rw [State.link_modLink_same]
    rfl
  · split
    · rw [State.link_modLink_same, State.link_modLink_same]
      rfl
    · rw [State.droveBad_order, State.link_modLink_same, State.link_modLink_same]
      rfl

theorem State.droveArea_order (p : Port) (n : Nat) (s : State) (a : Bytes) : ((State.droveArea p n s a).drove.link p).order = (s.drove.link p).order := by
  induction n generalizing s a with
  | zero => rfl
  | succ n ih =>
    unfold State.droveArea
    dsimp only
    split
    · rfl
    · split
      · exact State.droveBad_order ..
      · split
        · exact State.droveBad_order ..
        · rw [ih, State.droveIn_order]

/-- A flit's link area applied. -/
def State.areaApplied (s : State) (p : Port) (f : Flit) : State :=
  s.modLink p fun l => l.applyArea s.time (bits f.link.toNat 22 2) (bits f.link.toNat 12 10) (bits f.link.toNat 40 8)

/-- A payload flit in sequence. -/
def State.inSequence (t : State) (p : Port) (f : Flit) : State := t.modLink p fun l => { l with rxSeq := bits f.link.toNat 0 10, nakked := false, ackOut := 1 }

/-- The packets of a flit taken, where it carries some and comes in sequence. -/
def State.payloadTaken (t : State) (p : Port) (f : Flit) : State :=
  if bits f.link.toNat 10 2 = 1 then t
  else if bits f.link.toNat 0 10 = ((t.drove.link p).rxSeq + 1) % 1024 then
    if ((t.inSequence p f).drove.link p).refusal = 0 then State.droveArea p 60 (t.inSequence p f) f.area else t.inSequence p f
  else if (t.drove.link p).nakked then t
  else t.modLink p DroveLink.nak

theorem exec_droveFlitRx_bad (hup : (s.drove.link p).up = true) (hr : (s.drove.link p).retraining = false) (hc : f.crcOk = false) :
    exec (.droveFlitRx p f) s = .next (s.modLink p DroveLink.nak).droveDone := by
  show execDroveFlitRx p f s = _
  unfold execDroveFlitRx
  simp only [hup, hr, hc, Bool.not_true, Bool.not_false, Bool.true_or, Bool.or_self, Bool.false_eq_true, if_false, if_true]

theorem exec_droveFlitRx_good (hup : (s.drove.link p).up = true) (hr : (s.drove.link p).retraining = false) (hc : f.crcOk = true)
    (ht : bits f.link.toNat 10 2 < 2) (ha : bits f.link.toNat 22 2 ≠ 3) (hl : bits f.link.toNat 48 2 = 0) :
    exec (.droveFlitRx p f) s = .next ((s.areaApplied p f).payloadTaken p f).droveDone := by
  show execDroveFlitRx p f s = _
  unfold execDroveFlitRx
  have hgood : ¬ ((!f.crcOk || decide (2 ≤ bits f.link.toNat 10 2) || bits f.link.toNat 22 2 == 3 || decide (2 ≤ bits f.link.toNat 48 2)) = true) := by
    simp [hc, ha, hl, ht]
  simp only [hup, hr, Bool.not_true, Bool.or_self, Bool.false_eq_true, if_false, if_neg hgood]
  rw [if_neg (by rw [hl]; decide)]
  rfl

theorem State.payloadTaken_retraining (t : State) (p : Port) (f : Flit) : ((t.payloadTaken p f).drove.link p).retraining = (t.drove.link p).retraining := by
  have hseq : ((t.inSequence p f).drove.link p).retraining = (t.drove.link p).retraining := by rw [State.inSequence, State.link_modLink_same]
  unfold State.payloadTaken
  split
  · rfl
  · split
    · split
      · exact (congrArg (fun x => x.2.2) (State.droveArea_order p 60 (t.inSequence p f) f.area) :).trans hseq
      · exact hseq
    · split
      · rfl
      · rw [State.link_modLink_same]
        rfl

theorem State.payloadTaken_in_sequence {t : State} (h0 : bits f.link.toNat 10 2 = 0) (hs : bits f.link.toNat 0 10 = ((t.drove.link p).rxSeq + 1) % 1024) :
    ((t.payloadTaken p f).drove.link p).order = (bits f.link.toNat 0 10, false, (t.drove.link p).retraining) := by
  have hseq : ((t.inSequence p f).drove.link p).order = (bits f.link.toNat 0 10, false, (t.drove.link p).retraining) := by
    rw [State.inSequence, State.link_modLink_same]
    rfl
  unfold State.payloadTaken
  rw [if_neg (by omega), if_pos hs]
  split
  · rw [State.droveArea_order, hseq]
  · exact hseq

theorem DroveLink.applyArea_rxSeq (l : DroveLink) (time ackt ackseq clCtrl : Nat) : (l.applyArea time ackt ackseq clCtrl).rxSeq = l.rxSeq := by
  have hreplay (m : DroveLink) : (m.replayAll time).rxSeq = m.rxSeq := by
    unfold DroveLink.replayAll
    split <;> rfl
  unfold DroveLink.applyArea
  dsimp only
  split
  · rw [hreplay]
  · rfl

theorem DroveLink.applyArea_retraining {l : DroveLink} (time ackseq clCtrl : Nat) {ackt : Nat} (h : ackt ≠ 2) :
    (l.applyArea time ackt ackseq clCtrl).retraining = l.retraining := by
  unfold DroveLink.applyArea
  rw [if_neg h]

/-- The fourth NAK in a row that acknowledges nothing retrains the link. -/
theorem DroveLink.applyArea_nak {l : DroveLink} (time clCtrl : Nat) {ackseq : Nat} (hl : l.replay ≠ []) (ha : ackReplay ackseq l.replay = l.replay)
    (h3 : 3 ≤ l.replays) : (l.applyArea time 2 ackseq clCtrl).retraining = true := by
  have hne : l.replay.isEmpty = false := by simpa using hl
  unfold DroveLink.applyArea DroveLink.replayAll
  simp only [ha, if_neg (by decide : ¬ (2 : Nat) = 0), Nat.lt_irrefl, decide_false, Bool.false_eq_true, if_false, if_true, hne, h3, decide_true, Bool.or_true]

theorem exec_droveReplayTimeout_replays (hup : (s.drove.link p).up = true) (hr : (s.drove.link p).retraining = false) (hl : (s.drove.link p).replay ≠ []) :
    ∃ t : State, exec (.droveReplayTimeout p) s = .next t ∧ (t.drove.link p).replays = (s.drove.link p).replays + 1
      ∧ t.time = max s.time ((s.drove.link p).ackFrom + 2000) ∧ (t.drove.link p).retraining = decide (3 ≤ (s.drove.link p).replays)
      ∧ ∃ l, (t.drove.link p).replay = (s.drove.link p).replay ++ l := by
  have hne : (s.drove.link p).replay.isEmpty = false := by simpa using hl
  have hexec : exec (.droveReplayTimeout p) s = .next (State.modLink { s with time := max s.time ((s.drove.link p).ackFrom + 2000) } p
      fun l => l.replayAll (max s.time ((s.drove.link p).ackFrom + 2000))).droveDone := by
    show execDroveReplayTimeout p s = _
    unfold execDroveReplayTimeout
    rw [if_neg (by simp [hup, hr, hne])]
  have hlink : (State.modLink { s with time := max s.time ((s.drove.link p).ackFrom + 2000) } p
      fun l => l.replayAll (max s.time ((s.drove.link p).ackFrom + 2000))).drove.link p
      = { s.drove.link p with
          replays := (s.drove.link p).replays + 1
          ackFrom := max s.time ((s.drove.link p).ackFrom + 2000)
          retraining := decide (3 ≤ (s.drove.link p).replays) } := by
    rw [State.link_modLink_same]
    show DroveLink.replayAll (s.drove.link p) _ = _
    unfold DroveLink.replayAll
    rw [hne, hr]
    rfl
  have hcore := State.droveDone_core (State.modLink { s with time := max s.time ((s.drove.link p).ackFrom + 2000) } p
      fun l => l.replayAll (max s.time ((s.drove.link p).ackFrom + 2000))) p
  rw [hlink] at hcore
  refine ⟨_, hexec, (congrArg DroveLink.replays hcore :), State.droveDone_time _, (congrArg DroveLink.retraining hcore :), ?_⟩
  rw [State.link_droveDone, hlink]
  exact linkPump_replay ..

end

/-! ### IDENT -/

section
variable {s : State} {q : IdentPkt}

/-- A link that stays out of the ring (R497), with its record. -/
theorem State.refuseLink_link (s : State) (p : Port) (why code member : Nat) : (s.refuseLink p why code member).drove.link p
    = { s.drove.link p with refusal := why, txq := [], rxBuf := [] } := by
  rw [State.refuseLink, State.droveErr_drove, State.link_modLink_same]

theorem State.refuseLink_code {p : Port} {code : Nat} (hv : s.get (H.VALID 0xC0) = 0) (why member : Nat) :
    (s.refuseLink p why code member).get (H.CODE 0xC0) = code % 2 ^ 16 := by
  rw [State.refuseLink, State.droveErr_code]
  rw [State.modLink_get, hv]

theorem State.takePkt_core (s : State) (h : DroveHdr) (ty : Nat) {α : Type} (f : DroveLink → α)
    (hf : ∀ l rx adv, f { l with rxBuf := rx, advCtrl := adv } = f l) (p : Port) : f ((s.takePkt h ty).drove.link p) = f (s.drove.link p) := by
  by_cases hp : p = h.port
  · subst hp
    rw [State.takePkt, State.link_modLink_same]
    exact hf ..
  · rw [State.takePkt, State.link_modLink_other _ hp]

/-- The state in which an IDENT was accepted. -/
def State.identTaken (s : State) (q : IdentPkt) : State := (s.takePkt q.h 0x40).modLink q.h.port fun l =>
  { l with ident := true, peer := some q.serial, neighbour := if q.h.src.toNat < 32 then q.h.src.toNat else l.neighbour }

theorem State.identTaken_link (s : State) (q : IdentPkt) : ((s.identTaken q).drove.link q.h.port).ident = true
    ∧ ((s.identTaken q).drove.link q.h.port).refusal = (s.drove.link q.h.port).refusal ∧ ((s.identTaken q).drove.link q.h.port).peer = some q.serial := by
  rw [State.identTaken, State.link_modLink_same]
  exact ⟨rfl, s.takePkt_core q.h 0x40 DroveLink.refusal (fun _ _ _ => rfl) _, rfl⟩

theorem State.modLink_manages (s : State) (p : Port) (f : DroveLink → DroveLink) : (s.modLink p f).drove.manages = s.drove.manages := by cases p <;> rfl

/-- What an accepted neighbour is told. -/
def State.identOn (t : State) (p : Port) : State :=
  if t.drove.member.isNone then t
  else if t.drove.manages then (if t.drove.line || isA p then t.sendForm p else t)
  else if isA p != t.drove.formA then t.resendForm p else t

theorem State.ring_identOn (t : State) (p : Port) : (t.identOn p).ring = t.ring := by
  unfold State.identOn
  split
  · rfl
  · split
    · split
      · exact State.ring_sendForm ..
      · rfl
    · split
      · exact State.ring_resendForm ..
      · rfl

/-- An IDENT of the own set, from another device, that takes no further number. -/
theorem exec_ident_eq (hup : (s.drove.link q.h.port).up = true) (hr : (s.drove.link q.h.port).refusal = 0)
    (hid : q.setId.toNat = s.get R.DROVE.SET_ID_ID) (hser : padTo 16 q.serial ≠ padTo 16 s.serial)
    (hfull : ¬ (s.takePkt q.h 0x40).setFull q.serial = true) (hlost : ¬ ((s.takePkt q.h 0x40).drove.manages && (s.takePkt q.h 0x40).droveOtpRole == 1
      && q.role.toNat == 1 && decide (leNat (s.takePkt q.h 0x40).serial < leNat q.serial)) = true) :
    exec (.ident q) s = .next ((s.identTaken q).identOn q.h.port).droveDone := by
  have hid' : ¬ q.setId.toNat ≠ (s.takePkt q.h 0x40).get R.DROVE.SET_ID_ID := fun h => h hid
  have hopen : ¬ (!(s.drove.link q.h.port).up || (s.drove.link q.h.port).refusal != 0) = true := by simp [hup, hr]
  refine (if_neg hopen).trans ((if_neg hid').trans ((if_neg hser).trans ((if_neg hfull).trans ?_)))
  exact congrArg (fun t : State => Host.Outcome.next (State.identOn (t.modLink q.h.port fun l =>
    { l with ident := true, peer := some q.serial, neighbour := if q.h.src.toNat < 32 then q.h.src.toNat else l.neighbour }) q.h.port).droveDone)
    (if_neg hlost)

theorem exec_ident_accepts (hup : (s.drove.link q.h.port).up = true) (hr : (s.drove.link q.h.port).refusal = 0)
    (hid : q.setId.toNat = s.get R.DROVE.SET_ID_ID) (hser : padTo 16 q.serial ≠ padTo 16 s.serial) (hm : s.drove.manages = false) :
    ∃ t : State, exec (.ident q) s = .next t ∧ (t.drove.link q.h.port).ident = true ∧ (t.drove.link q.h.port).refusal = 0
      ∧ (t.drove.link q.h.port).peer = some q.serial := by
  have hmanages : (s.takePkt q.h 0x40).drove.manages = false := (State.modLink_manages ..).trans hm
  have hexec := exec_ident_eq hup hr hid hser (by simp [State.setFull, hmanages]) (by simp [hmanages])
  have hcore := (State.droveDone_core ((s.identTaken q).identOn q.h.port) q.h.port).trans (ring_core (State.ring_identOn ..) _)
  obtain ⟨hident, hrefusal, hpeer⟩ := s.identTaken_link q
  exact ⟨_, hexec, (congrArg DroveLink.ident hcore :).trans hident, (congrArg DroveLink.refusal hcore :).trans (hrefusal.trans hr),
    (congrArg DroveLink.peer hcore :).trans hpeer⟩

theorem exec_ident_foreign (hup : (s.drove.link q.h.port).up = true) (hr : (s.drove.link q.h.port).refusal = 0)
    (hid : q.setId.toNat ≠ s.get R.DROVE.SET_ID_ID) : exec (.ident q) s
      = .next (((s.takePkt q.h 0x40).refuseLink q.h.port 1 E.DROVE_FOREIGN q.h.src.toNat).pulse 0xC0 Ev.DROVE.FOREIGN).droveDone := by
  have hopen : ¬ (!(s.drove.link q.h.port).up || (s.drove.link q.h.port).refusal != 0) = true := by simp [hup, hr]
  exact (if_neg hopen).trans (if_pos hid)

theorem exec_ident_looped (hup : (s.drove.link q.h.port).up = true) (hr : (s.drove.link q.h.port).refusal = 0)
    (hid : q.setId.toNat = s.get R.DROVE.SET_ID_ID) (hser : padTo 16 q.serial = padTo 16 s.serial) : exec (.ident q) s
      = .next ((s.takePkt q.h 0x40).refuseLink q.h.port 2 E.DROVE_LOOPBACK q.h.src.toNat).droveDone := by
  have hid' : ¬ q.setId.toNat ≠ (s.takePkt q.h 0x40).get R.DROVE.SET_ID_ID := fun h => h hid
  have hopen : ¬ (!(s.drove.link q.h.port).up || (s.drove.link q.h.port).refusal != 0) = true := by simp [hup, hr]
  exact (if_neg hopen).trans ((if_neg hid').trans (if_pos hser))

theorem exec_ident_foreign_refused (hup : (s.drove.link q.h.port).up = true) (hr : (s.drove.link q.h.port).refusal = 0)
    (hid : q.setId.toNat ≠ s.get R.DROVE.SET_ID_ID) : ∃ t : State, exec (.ident q) s = .next t ∧ (t.drove.link q.h.port).refusal = 1
      ∧ (t.drove.link q.h.port).open_ = false ∧ bitAt (t.get (H.STICKY 0xC0)) Ev.DROVE.FOREIGN = true
      ∧ (s.get (H.VALID 0xC0) = 0 → t.get (H.CODE 0xC0) = E.DROVE_FOREIGN) := by
  have hcore := State.droveDone_core (((s.takePkt q.h 0x40).refuseLink q.h.port 1 E.DROVE_FOREIGN q.h.src.toNat).pulse 0xC0 Ev.DROVE.FOREIGN) q.h.port
  rw [State.pulse_drove, State.refuseLink_link] at hcore
  refine ⟨_, exec_ident_foreign hup hr hid, (congrArg DroveLink.refusal hcore :), ?_, ?_, fun hv => ?_⟩
  · refine (congrArg DroveLink.open_ hcore :).trans ?_
    simp [DroveLink.open_, DroveLink.core]
  · rw [State.droveDone_get_header _ (by decide), State.pulse_sticky _ _ _ (by decide)]
    rfl
  · rw [State.droveDone_get_header _ (by decide), State.pulse_get_other _ _ _ (by decide) (by decide), State.refuseLink_code (s := s.takePkt q.h 0x40) hv]
    rfl

theorem exec_ident_looped_refused (hup : (s.drove.link q.h.port).up = true) (hr : (s.drove.link q.h.port).refusal = 0)
    (hid : q.setId.toNat = s.get R.DROVE.SET_ID_ID) (hser : padTo 16 q.serial = padTo 16 s.serial) :
    ∃ t : State, exec (.ident q) s = .next t ∧ (t.drove.link q.h.port).refusal = 2 ∧ (s.get (H.VALID 0xC0) = 0 → t.get (H.CODE 0xC0) = E.DROVE_LOOPBACK) := by
  have hcore := State.droveDone_core ((s.takePkt q.h 0x40).refuseLink q.h.port 2 E.DROVE_LOOPBACK q.h.src.toNat) q.h.port
  rw [State.refuseLink_link] at hcore
  refine ⟨_, exec_ident_looped hup hr hid hser, (congrArg DroveLink.refusal hcore :), fun hv => ?_⟩
  rw [State.droveDone_get_header _ (by decide), State.refuseLink_code (s := s.takePkt q.h 0x40) hv]
  rfl

end

end Sys2Proof.Machine
end

section
/-!
The packets of the Drove and its timers (R500-R516).
-/

namespace Sys2Proof.Machine

open Sys2Proof.Laws

/-! ### FORM -/

section
variable {s : State} {q : FormPkt}

theorem State.resumeHeld_of_none (h : s.drove.held = []) : s.resumeHeld = s := by rw [State.resumeHeld, h, List.foldl_nil]

/-- What a FORM of a ring gives a member that has no number yet. -/
def DroveSt.formed (d : DroveSt) (q : FormPkt) : DroveSt :=
  { d with
    epoch := if d.epoch < q.epoch.toNat then q.epoch.toNat % 2 ^ 32 else d.epoch
    answered := if d.epoch < q.epoch.toNat then [] else d.answered
    line := false
    manager := q.manager.toNat % 32
    standby := if q.standby.toNat < 32 then some q.standby.toNat else none
    member := some (q.nextIndex.toNat % 32)
    formHops := if q.h.src = q.manager then q.nextIndex.toNat % 32 else d.formHops
    formA := if q.h.src = q.manager then isA q.h.port else d.formA
    swapped := if q.h.src = q.manager then isA q.h.port else d.swapped }

theorem State.takeForm_drove (hm : s.drove.manages = false) (hn : s.drove.member = none) (hh : s.drove.held = []) (ht : q.topology = 0) :
    (s.takeForm q).drove = s.drove.formed q := by
  have htop : q.topology.toNat = 0 := by rw [ht]; rfl
  unfold State.takeForm
  simp only [hm, hn, htop, Option.isSome_none, Bool.false_and, Bool.false_eq_true, if_false, Nat.zero_ne_one, true_and, and_true,
    Bool.false_or, decide_eq_true_eq]
  generalize hu : (if s.drove.epoch < q.epoch.toNat then s.setEpoch q.epoch.toNat else s) = u
  have hudrove : u.drove = { s.drove with
      epoch := if s.drove.epoch < q.epoch.toNat then q.epoch.toNat % 2 ^ 32 else s.drove.epoch
      answered := if s.drove.epoch < q.epoch.toNat then [] else s.drove.answered } := by
    rw [← hu]
    split <;> rfl
  generalize hv : State.setDrove (u.setDrove fun d => { d with line := false }) _ = v
  have hvdrove : { v.drove with swapped := if q.h.src = q.manager then isA q.h.port else v.drove.swapped } = s.drove.formed q := by
    rw [← hv]
    simp only [State.setDrove_drove, hudrove, DroveSt.formed, hn, Option.isNone_none, if_true]
  generalize hw : (if q.h.src = q.manager then State.pulse _ 0xC0 Ev.DROVE.FORMED else v) = w
  have hwdrove : w.drove = s.drove.formed q := by
    rw [← hw, ← hvdrove]
    split
    · rw [State.pulse_drove]
      split
      · rw [State.droveErr_drove]
        rfl
      · rfl
    · rfl
  have hheld : w.drove.held = [] := by rw [hwdrove]; exact hh
  rw [State.resumeHeld_of_none hheld, ite_self, hwdrove]

theorem State.takePkt_drove (s : State) (h : DroveHdr) (ty : Nat) {α : Type} (f : DroveSt → α) (hf : ∀ d a b, f { d with a := a, b := b } = f d) :
    f (s.takePkt h ty).drove = f s.drove := by
  unfold State.takePkt State.modLink
  cases h.port
  · exact hf s.drove _ s.drove.b
  · exact hf s.drove s.drove.a _

/-- A FORM that numbers a member. -/
theorem exec_form_joins (hok : s.heeds q.h = true) (he : s.drove.epoch ≤ q.epoch.toNat) (hm : s.drove.manages = false)
    (hroom : q.nextIndex.toNat < s.configN) : exec (.form q) s = .next (((s.takePkt q.h 0x41).takeForm q).formOn q).droveDone := by
  have hfresh : ¬ (!s.heeds q.h || decide (q.epoch.toNat < s.drove.epoch)) = true := by simp [hok, he]
  have hother : ¬ (s.drove.manages && q.epoch.toNat == s.drove.epoch) = true := by simp [hm]
  have hfits : ¬ (s.drove.member.isNone = true ∧ q.topology = 0 ∧ s.configN ≤ q.nextIndex.toNat) := by omega
  exact (if_neg hfresh).trans ((if_neg hother).trans (if_neg hfits))

theorem exec_form_numbers (hok : s.heeds q.h = true) (he : s.drove.epoch ≤ q.epoch.toNat) (hm : s.drove.manages = false)
    (hn : s.drove.member = none) (hh : s.drove.held = []) (ht : q.topology = 0) (hroom : q.nextIndex.toNat < s.configN) :
    ∃ t : State, exec (.form q) s = .next t ∧ t.drove.member = some (q.nextIndex.toNat % 32) ∧ t.drove.manager = q.manager.toNat % 32
      ∧ t.drove.epoch = q.epoch.toNat ∧ t.drove.line = false ∧ (q.h.src = q.manager → t.drove.swapped = isA q.h.port) := by
  have hkeep {α : Type} (f : DroveSt → α) (hf : ∀ d a b, f { d with a := a, b := b } = f d) := s.takePkt_drove q.h 0x41 f hf
  have hform := State.takeForm_drove (s := s.takePkt q.h 0x41) (q := q) ((hkeep DroveSt.manages fun _ _ _ => rfl).trans hm)
    ((hkeep DroveSt.member fun _ _ _ => rfl).trans hn) ((hkeep DroveSt.held fun _ _ _ => rfl).trans hh) ht
  have hring : (((s.takePkt q.h 0x41).takeForm q).formOn q).droveDone.ring = ((s.takePkt q.h 0x41).takeForm q).ring :=
    (State.ring_droveDone _).trans (State.ring_formOn ..)
  have hpart {α : Type} (f : DroveSt → α) (hf : ∀ u : State, f u.ring = f u.drove) :
      f (((s.takePkt q.h 0x41).takeForm q).formOn q).droveDone.drove = f ((s.takePkt q.h 0x41).drove.formed q) := (ring_part hring f hf).trans (by rw [hform])
  have hepoch : (s.takePkt q.h 0x41).drove.epoch = s.drove.epoch := hkeep DroveSt.epoch fun _ _ _ => rfl
  refine ⟨_, exec_form_joins hok he hm hroom, hpart DroveSt.member fun _ => rfl, hpart DroveSt.manager fun _ => rfl, ?_, hpart DroveSt.line fun _ => rfl,
    fun hdirect => (hpart DroveSt.swapped fun _ => rfl).trans (if_pos hdirect)⟩
  refine (hpart DroveSt.epoch fun _ => rfl).trans ?_
  show (if _ then _ else _) = _
  rw [hepoch]
  split
  · exact Nat.mod_eq_of_lt q.epoch.isLt
  · omega

theorem exec_form_stale (he : q.epoch.toNat < s.drove.epoch) : exec (.form q) s = .next (s.takePkt q.h 0x41).droveDone := by
  have hstale : (!s.heeds q.h || decide (q.epoch.toNat < s.drove.epoch)) = true := by simp [he]
  exact if_pos hstale

/-- A part of the Drove's state that neither a packet taken nor sending changes. -/
theorem State.takePkt_done_part (s : State) (h : DroveHdr) (ty : Nat) {α : Type} (f : DroveSt → α) (hf : ∀ d a b, f { d with a := a, b := b } = f d) :
    f (s.takePkt h ty).droveDone.drove = f s.drove :=
  (ring_part (State.ring_droveDone _) f fun u => hf u.drove _ _).trans (s.takePkt_drove h ty f hf)

end

/-! ### Heartbeats -/

section
variable {s : State} {q : DroveHbPkt}

theorem mem_insertMember (x y : Member) (l : List Member) : y ∈ execDroveHeartbeat.insertMember x l ↔ y = x ∨ y ∈ l := by
  induction l with
  | nil => simp [execDroveHeartbeat.insertMember]
  | cons z l ih =>
    unfold execDroveHeartbeat.insertMember
    split
    · simp
    · rw [List.mem_cons, List.mem_cons, ih]
      tauto

/-- A member as its heartbeat shows it. -/
def State.heardMember (s : State) (q : DroveHbPkt) : Member :=
  ⟨q.h.src.toNat, s.time, q.epoch.toNat, q.role.toNat, q.flags.toNat, Int.ofNat q.dtime.toNat - Int.ofNat s.time, isA q.h.port⟩

/-- The state in which a heartbeat's sender is live and the heartbeat passed on. -/
def State.heard (s : State) (q : DroveHbPkt) : State :=
  ((s.takePkt q.h 0x42).setDrove fun d => { d with live := execDroveHeartbeat.insertMember (s.heardMember q) (d.live.filter (·.idx != q.h.src.toNat)) }).passOn
    q.h fun ttl => droveHeader 0x42 q.h.src.toNat 32 q.h.dst.toNat ttl ++ leBytes 4 q.epoch.toNat ++ leBytes 1 q.role.toNat ++ leBytes 1 q.flags.toNat
      ++ leBytes 2 0 ++ leBytes 4 q.live.toNat ++ leBytes 8 q.dtime.toNat ++ leBytes 4 0

theorem State.heard_live (s : State) (q : DroveHbPkt) : (s.heard q).drove.live
    = execDroveHeartbeat.insertMember (s.heardMember q) (s.drove.live.filter (·.idx != q.h.src.toNat)) := by
  have hlive : (s.takePkt q.h 0x42).drove.live = s.drove.live := s.takePkt_drove q.h 0x42 DroveSt.live fun _ _ _ => rfl
  refine (ring_part (State.ring_passOn ..) DroveSt.live fun _ => rfl).trans ?_
  rw [State.setDrove_drove, hlive]

theorem exec_droveHeartbeat_heard (hok : s.heeds q.h = true) (he : s.drove.epoch ≤ q.epoch.toNat) (h32 : q.h.src.toNat < 32)
    (hme : s.drove.member ≠ some q.h.src.toNat) : exec (.droveHeartbeat q) s = .next ((s.heard q).reQuorum.endTaking.chooseStandby).droveDone := by
  have hcounts : ¬ (!s.heeds q.h || decide (q.epoch.toNat < s.drove.epoch) || decide (32 ≤ q.h.src.toNat) || s.drove.member == some q.h.src.toNat) = true := by
    simp [hok, he, h32, hme]
  exact if_neg hcounts

end

/-! ### TIME -/

section
variable {s : State} {q : TimePkt}

/-- The link delay that a TIME gives (R506). -/
def State.timeDelay (s : State) (q : TimePkt) : Nat :=
  if q.echo = 0 then (s.drove.link q.h.port).delay else (s.time - q.echo.toNat - q.hold.toNat) / 2

/-- The state in which a TIME was taken. -/
def State.timed (s : State) (q : TimePkt) : State := (s.takePkt q.h 0x43).modLink q.h.port fun l =>
  { l with delay := s.timeDelay q, heard := some (q.dtime.toNat, s.time), neighbour := if q.h.src.toNat < 32 then q.h.src.toNat else l.neighbour }

theorem State.modLink_part (s : State) (p : Port) (g : DroveLink → DroveLink) {α : Type} (f : DroveSt → α)
    (hf : ∀ d a b, f { d with a := a, b := b } = f d) : f (s.modLink p g).drove = f s.drove := by
  unfold State.modLink
  cases p
  · exact hf s.drove _ s.drove.b
  · exact hf s.drove s.drove.a _

theorem State.timed_part (s : State) (q : TimePkt) {α : Type} (f : DroveSt → α) (hf : ∀ d a b, f { d with a := a, b := b } = f d) :
    f (s.timed q).drove = f s.drove := (State.modLink_part _ _ _ f hf).trans (s.takePkt_drove q.h 0x43 f hf)

theorem exec_time_eq (hok : s.heeds q.h = true) : exec (.time q) s =
    if s.drove.manages || s.drove.member.isNone || !s.drove.quorum || s.drove.portTo s.drove.manager != q.h.port then .next (s.timed q).droveDone
    else .next ((s.timed q).discipline (Int.ofNat (q.dtime.toNat + s.timeDelay q) - Int.ofNat s.time)).droveDone := by
  have hok' : ¬ (!s.heeds q.h) = true := by simp [hok]
  have hcond : ((s.timed q).drove.manages || (s.timed q).drove.member.isNone || !(s.timed q).drove.quorum
      || (s.timed q).drove.portTo (s.timed q).drove.manager != q.h.port)
      = (s.drove.manages || s.drove.member.isNone || !s.drove.quorum || s.drove.portTo s.drove.manager != q.h.port) :=
    s.timed_part q (fun d => d.manages || d.member.isNone || !d.quorum || d.portTo d.manager != q.h.port) fun _ _ _ => rfl
  refine (if_neg hok').trans ?_
  rw [← hcond]
  rfl

end

/-! ### ORDER -/

section
variable {s : State} {q : OrderPkt}

/-- The state in which an ORDER was taken and passed on. -/
def State.ordered (s : State) (q : OrderPkt) : State := (s.takePkt q.h 0x44).passOn q.h fun ttl =>
  orderBytes q.h.src.toNat q.h.dst.toNat ttl q.epoch.toNat q.opId.toNat q.op.toNat q.phase.toNat q.t.toNat q.param

theorem State.ordered_part (s : State) (q : OrderPkt) {α : Type} (f : DroveSt → α) (hf : ∀ d a b, f { d with a := a, b := b } = f d) :
    f (s.ordered q).drove = f s.drove :=
  (ring_part (State.ring_passOn ..) f fun u => hf u.drove _ _).trans (s.takePkt_drove q.h 0x44 f hf)

theorem State.ordered_frame (s : State) (q : OrderPkt) : forget 0x200000000 (s.ordered q) = forget 0x200000000 s :=
  (State.forget_passOn rfl ..).trans (State.forget_takePkt rfl ..)

/-- An ORDER to every member that a member with quorum accepts. -/
theorem exec_order_eq (hok : s.heeds q.h = true) (he : s.drove.epoch ≤ q.epoch.toNat) (hd : q.h.dst = 0xFF) (hn : s.drove.member ≠ none)
    (hme : s.drove.member ≠ some q.h.src.toNat) (hq : s.drove.quorum = true) (hm : s.drove.manages = false) : exec (.order q) s =
    match assoc s.drove.answered (q.opId.toNat, q.phase.toNat) with
    | some r => .next ((s.ordered q).sendReply q.opId.toNat ((r.getD 0 0).toNat, (r.getD 1 0).toNat, r.drop 2)).droveDone
    | none =>
      match (s.ordered q).actOrder q.opId.toNat q.op.toNat q.phase.toNat q.t.toNat q.param with
      | (none, u) => .next u.droveDone
      | (some a, u) => .next ((u.answer q.opId.toNat q.phase.toNat a).sendReply q.opId.toNat a).takeOver.droveDone := by
  have hfresh : ¬ (!s.heeds q.h || decide (q.epoch.toNat < s.drove.epoch)) = true := by simp [hok, he]
  have hmine : ¬ (!(s.forMe q.h || (q.h.dst == 0xFF && s.drove.member != some q.h.src.toNat)) || s.drove.member.isNone || !s.drove.quorum) = true := by
    simp [hd, hme, hq, hn]
  have hman : ¬ s.drove.manages = true := by simp [hm]
  exact (if_neg hfresh).trans ((if_neg hmine).trans (if_neg hman))

theorem exec_order_answered {r : Bytes} (hok : s.heeds q.h = true) (he : s.drove.epoch ≤ q.epoch.toNat) (hd : q.h.dst = 0xFF) (hn : s.drove.member ≠ none)
    (hme : s.drove.member ≠ some q.h.src.toNat) (hq : s.drove.quorum = true) (hm : s.drove.manages = false)
    (hr : assoc s.drove.answered (q.opId.toNat, q.phase.toNat) = some r) : exec (.order q) s
      = .next ((s.ordered q).sendReply q.opId.toNat ((r.getD 0 0).toNat, (r.getD 1 0).toNat, r.drop 2)).droveDone := by
  rw [exec_order_eq hok he hd hn hme hq hm, hr]

theorem exec_order_acts {a : Option (Nat × Nat × Bytes)} {v : State} (hok : s.heeds q.h = true) (he : s.drove.epoch ≤ q.epoch.toNat) (hd : q.h.dst = 0xFF)
    (hn : s.drove.member ≠ none) (hme : s.drove.member ≠ some q.h.src.toNat) (hq : s.drove.quorum = true) (hm : s.drove.manages = false)
    (hr : assoc s.drove.answered (q.opId.toNat, q.phase.toNat) = none)
    (hact : (s.ordered q).actOrder q.opId.toNat q.op.toNat q.phase.toNat q.t.toNat q.param = (a, v)) :
    (∀ x, a = some x → exec (.order q) s = .next ((v.answer q.opId.toNat q.phase.toNat x).sendReply q.opId.toNat x).takeOver.droveDone)
      ∧ (a = none → exec (.order q) s = .next v.droveDone) := by
  rw [exec_order_eq hok he hd hn hme hq hm, hr, hact]
  refine ⟨?_, ?_⟩
  · rintro x rfl
    rfl
  · rintro rfl
    rfl

/-- Without quorum nothing is accepted. -/
theorem exec_order_without_quorum (hq : s.drove.quorum = false) : ∃ u : State, exec (.order q) s = .next u.droveDone
    ∧ (u = s.takePkt q.h 0x44 ∨ u = s.ordered q) := by
  by_cases h : (!s.heeds q.h || decide (q.epoch.toNat < s.drove.epoch)) = true
  · exact ⟨_, if_pos h, .inl rfl⟩
  · have hno : (!(s.forMe q.h || (q.h.dst == 0xFF && s.drove.member != some q.h.src.toNat)) || s.drove.member.isNone || !s.drove.quorum) = true := by
      simp [hq]
    exact ⟨_, (if_neg h).trans (if_pos hno), .inr rfl⟩

end

end Sys2Proof.Machine
end

section
/-!
Answers, set state, registers of other members, and the Drove's timers (R507-R519).
-/

namespace Sys2Proof.Machine

open Sys2Proof.Laws

/-! ### What waits for a set operation -/

section
variable {s : State} {c : Cmd} {tag : Nat}

/-- A set operation's command completed. -/
theorem State.completeSet_eq (h : s.setCmd tag = some c) (status dw0 dw1 : Nat) (data : Bytes) : ∃ u : State, s.completeSet tag status dw0 dw1 data
    = u.completeAdmin c status dw0 dw1 ∧ u.drove = s.drove ∧ u.mem = if data.isEmpty then s.mem else dptrWrite (hostTarget c.fn) c.dptr data s.mem := by
  unfold State.completeSet
  rw [h]
  refine ⟨_, rfl, ?_⟩
  split <;> exact ⟨rfl, rfl⟩

theorem State.completeSet_completes (h : s.setCmd tag = some c) (status dw0 dw1 : Nat) (data : Bytes) :
    (⟨c.fn, 0, 0, c.cid, status, dw0, dw1⟩ : Cqe) ∈ (s.completeSet tag status dw0 dw1 data).droveDone.host.cqes
    ∧ (s.completeSet tag status dw0 dw1 data).droveDone.mem = (if data.isEmpty then s.mem else dptrWrite (hostTarget c.fn) c.dptr data s.mem)
    ∧ (s.completeSet tag status dw0 dw1 data).droveDone.drove.held = s.drove.held := by
  obtain ⟨u, heq, hdrove, hmem⟩ := State.completeSet_eq h status dw0 dw1 data
  rw [heq]
  have hhost := keeps_host (T := 0x200000020) (u.completeAdmin c status dw0 dw1).droveDone_frame rfl
  have hmem' := keeps_mem (T := 0x200000020) (u.completeAdmin c status dw0 dw1).droveDone_frame rfl
  refine ⟨?_, ?_, ?_⟩
  · rw [hhost]
    exact State.mem_completeAdmin_cqes ..
  · rw [hmem', keeps_mem (State.forget_completeAdmin (T := 0x480000420) rfl ..) rfl, hmem]
  · rw [ring_part (State.ring_droveDone _) DroveSt.held fun _ => rfl, keeps_drove (State.forget_completeAdmin (T := 0x480000420) rfl ..) rfl, hdrove]

/-- A command dropped from those that wait is no longer among them. -/
theorem State.dropHeld_tag {x : SetOp} (hx : x ∈ (s.dropHeld tag).drove.held) : x.tag ≠ tag := by
  simpa using (List.mem_filter.mp hx).2

end

/-! ### REPLY -/

section
variable {s : State} {q : ReplyPkt}

theorem State.forMe_eq (s t : State) (h : t.drove.member = s.drove.member) (d : DroveHdr) : t.forMe d = s.forMe d := by rw [State.forMe, h, State.forMe]

theorem exec_reply_eq (hok : s.heeds q.h = true) (he : s.drove.epoch ≤ q.epoch.toNat) (hme : s.forMe q.h = true) :
    exec (.reply q) s = .next (if s.drove.manages then (s.takePkt q.h 0x45).replied q else (s.takePkt q.h 0x45).resulted q).droveDone := by
  have hfresh : ¬ (!s.heeds q.h || decide (q.epoch.toNat < s.drove.epoch)) = true := by simp [hok, he]
  have hmine : ¬ (!s.forMe q.h) = true := by simp [hme]
  exact (if_neg hfresh).trans (if_neg hmine)

/-- What a result carries beside its status. -/
def resultData (s : State) (q : ReplyPkt) (op : SetOp) : Bytes :=
  if op.op = 5 ∧ leNat (sliceBytes q.result 42 2) = 0 then
    snapData q.epoch.toNat (leNat (sliceBytes q.result 8 4)) (leNat (sliceBytes q.result 12 8)) s.configN op.replies
  else []

theorem State.resulted_eq {op : SetOp} (h : s.drove.held.find? (·.tag == q.opId.toNat) = some op) (h1 : leNat (sliceBytes q.result 41 1) ≠ 1) :
    s.resulted q = (s.dropHeld q.opId.toNat).completeSet q.opId.toNat (leNat (sliceBytes q.result 42 2)) (leNat (sliceBytes q.result 0 4))
      (leNat (sliceBytes q.result 4 4)) (resultData s q op) := by
  unfold State.resulted
  dsimp only
  rw [h]
  exact if_neg h1

theorem snapData_nonempty (e o m n : Nat) (rs : List OpReply) : (snapData e o m n rs).isEmpty = false := by
  unfold snapData
  simp [leBytes]

theorem exec_reply_completes {op : SetOp} {c : Cmd} {st : Nat} (hok : s.heeds q.h = true) (he : s.drove.epoch ≤ q.epoch.toNat) (hme : s.forMe q.h = true)
    (hm : s.drove.manages = false) (hop : s.drove.held.find? (·.tag == q.opId.toNat) = some op) (h1 : leNat (sliceBytes q.result 41 1) ≠ 1)
    (hc : s.setCmd q.opId.toNat = some c) (hst : st = leNat (sliceBytes q.result 42 2)) : ∃ t : State, exec (.reply q) s = .next t
      ∧ (∀ x ∈ t.drove.held, x.tag ≠ q.opId.toNat)
      ∧ (⟨c.fn, 0, 0, c.cid, st, leNat (sliceBytes q.result 0 4), leNat (sliceBytes q.result 4 4)⟩ : Cqe) ∈ t.host.cqes
      ∧ t.mem = (if op.op = 5 ∧ st = 0 then dptrWrite (hostTarget c.fn) c.dptr (snapData q.epoch.toNat (leNat (sliceBytes q.result 8 4))
          (leNat (sliceBytes q.result 12 8)) s.configN op.replies) s.mem else s.mem) := by
  subst hst
  have hheld : (s.takePkt q.h 0x45).drove.held = s.drove.held := s.takePkt_drove q.h 0x45 DroveSt.held fun _ _ _ => rfl
  have hcmd : (State.dropHeld (s.takePkt q.h 0x45) q.opId.toNat).setCmd q.opId.toNat = some c := hc
  obtain ⟨hcqe, hmem, hdropped⟩ := State.completeSet_completes hcmd (leNat (sliceBytes q.result 42 2)) (leNat (sliceBytes q.result 0 4))
    (leNat (sliceBytes q.result 4 4)) (resultData (s.takePkt q.h 0x45) q op)
  refine ⟨_, exec_reply_eq hok he hme, ?_⟩
  rw [if_neg (by simp [hm]), State.resulted_eq (by rw [hheld]; exact hop) h1]
  refine ⟨fun x hx => State.dropHeld_tag (hdropped ▸ hx), hcqe, hmem.trans ?_⟩
  unfold resultData
  by_cases h5 : op.op = 5 ∧ leNat (sliceBytes q.result 42 2) = 0
  · rw [if_pos h5, if_pos h5, snapData_nonempty]
    rfl
  · rw [if_neg h5, if_neg h5]
    rfl

/-- The operation under way with one answer more. -/
def SetOp.withReply (x : SetOp) (q : ReplyPkt) : SetOp :=
  { x with
    replies := x.replies ++ [⟨q.h.src.toNat, q.status.toNat, q.reason.toNat, q.result⟩]
    refused := if q.status = 0 then x.refused else some (x.refused.getD (q.h.src.toNat, q.reason.toNat)) }

theorem exec_reply_answers {x : SetOp} (hok : s.heeds q.h = true) (he : s.drove.epoch ≤ q.epoch.toNat) (hme : s.forMe q.h = true)
    (hm : s.drove.manages = true) (h46 : q.result.getD 43 0 ≠ 0x46) (hcur : s.drove.cur = some x) (hid : x.opId = q.opId.toNat) (hsent : x.sent = true)
    (hnew : ∀ r ∈ x.replies, r.idx ≠ q.h.src.toNat) : ∃ (u : State) (y : SetOp), exec (.reply q) s = .next u.goOps.droveDone ∧ u.drove.cur = some y
      ∧ y.replies = x.replies ++ [⟨q.h.src.toNat, q.status.toNat, q.reason.toNat, q.result⟩] ∧ u.take = s.take ∧ u.drove.queue = s.drove.queue := by
  have hcur' : (s.takePkt q.h 0x45).drove.cur = some x := (s.takePkt_drove q.h 0x45 DroveSt.cur fun _ _ _ => rfl).trans hcur
  have hopen : ¬ (x.opId ≠ q.opId.toNat ∨ (!x.sent) = true ∨ x.replies.any (·.idx == q.h.src.toNat) = true) := by
    simpa [hid, hsent] using hnew
  refine ⟨(s.takePkt q.h 0x45).modCur fun c => if c.opId ≠ q.opId.toNat ∨ (!c.sent) = true ∨ c.replies.any (·.idx == q.h.src.toNat) = true then c
    else c.withReply q, x.withReply q, ?_, ?_, rfl, rfl,
    s.takePkt_drove q.h 0x45 DroveSt.queue fun _ _ _ => rfl⟩
  · rw [exec_reply_eq hok he hme, if_pos hm]
    exact congrArg (fun t : State => Host.Outcome.next t.droveDone) (if_neg h46)
  · show ((s.takePkt q.h 0x45).drove.cur.map _) = _
    rw [hcur', Option.map_some, if_neg hopen]

end

/-! ### MIRROR -/

section
variable {s : State} {q : MirrorPkt}

theorem exec_mirror_eq (hok : s.heeds q.h = true) (he : s.drove.epoch ≤ q.epoch.toNat) (hme : s.forMe q.h = true) : exec (.mirror q) s =
    if q.data.getD 0 0 = Config.mirrorVersion then
      .next (((s.takePkt q.h 0x46).setDrove fun d => { d with mirrorBad := false, setState := q.data, mseq := q.mseq.toNat + 1 }).sendReply q.mseq.toNat
        (0, 0, List.replicate 43 (0 : Byte) ++ [0x46])).droveDone
    else .next ((((s.takePkt q.h 0x46).setDrove fun d => { d with mirrorBad := true }).droveErr E.DROVE_MIRROR_VERSION q.h.src.toNat 0).sendReply q.mseq.toNat
        (1, 0, List.replicate 43 (0 : Byte) ++ [0x46])).droveDone := by
  have hfresh : ¬ (!s.heeds q.h || decide (q.epoch.toNat < s.drove.epoch)) = true := by simp [hok, he]
  have hmine : ¬ (!s.forMe q.h) = true := by simp [hme]
  exact (if_neg hfresh).trans (if_neg hmine)

/-- After a reply and the sending that ends a command. -/
theorem State.sendReply_done_part (u : State) (n : Nat) (a : Nat × Nat × Bytes) {α : Type} (f : DroveSt → α) (hf : ∀ v : State, f v.ring = f v.drove) :
    f (u.sendReply n a).droveDone.drove = f u.drove := ring_part ((State.ring_droveDone _).trans (State.ring_sendReply ..)) f hf

theorem exec_mirror_taken (hok : s.heeds q.h = true) (he : s.drove.epoch ≤ q.epoch.toNat) (hme : s.forMe q.h = true) :
    ∃ t : State, exec (.mirror q) s = .next t
      ∧ (q.data.getD 0 0 = Config.mirrorVersion → t.drove.setState = q.data ∧ t.drove.mirrorBad = false)
      ∧ (q.data.getD 0 0 ≠ Config.mirrorVersion → t.drove.setState = s.drove.setState ∧ t.drove.mirrorBad = true
          ∧ (s.get (H.VALID 0xC0) = 0 → t.get (H.CODE 0xC0) = E.DROVE_MIRROR_VERSION)) := by
  rw [exec_mirror_eq hok he hme]
  by_cases hv : q.data.getD 0 0 = Config.mirrorVersion
  · rw [if_pos hv]
    refine ⟨_, rfl, fun _ => ⟨?_, ?_⟩, fun h => absurd hv h⟩
    · rw [State.sendReply_done_part _ _ _ DroveSt.setState fun _ => rfl, State.setDrove_drove]
    · rw [State.sendReply_done_part _ _ _ DroveSt.mirrorBad fun _ => rfl, State.setDrove_drove]
  · rw [if_neg hv]
    refine ⟨_, rfl, fun h => absurd h hv, fun _ => ⟨?_, ?_, fun h0 => ?_⟩⟩
    · rw [State.sendReply_done_part _ _ _ DroveSt.setState fun _ => rfl, State.droveErr_drove, State.setDrove_drove]
      exact s.takePkt_drove q.h 0x46 DroveSt.setState fun _ _ _ => rfl
    · rw [State.sendReply_done_part _ _ _ DroveSt.mirrorBad fun _ => rfl, State.droveErr_drove, State.setDrove_drove]
    · rw [State.droveDone_get_header _ (by decide), State.sendReply, State.setSend_get, State.droveErr_code]
      · rfl
      · rw [State.setDrove_get, State.takePkt, State.modLink_get, h0]

end

/-! ### Registers of other members -/

section
variable {s : State}

theorem exec_regReq_answers {q : RegReqPkt} (hok : s.heeds q.h = true) (hme : s.forMe q.h = true) :
    ∃ r : RegAnswer × State, r = (s.takePkt q.h 0x47).runReq .setManager q.req
      ∧ exec (.regReq q) s = .next (r.2.setSend (r.2.drove.portTo q.h.src.toNat)
          (regRspBytes r.2.drove.src q.h.src.toNat 31 (rspBytes q.req.tag.toNat r.1))).droveDone := by
  have hok' : ¬ (!s.heeds q.h) = true := by simp [hok]
  have hmine : ¬ (!s.forMe q.h) = true := by simp [hme]
  exact ⟨_, rfl, (if_neg hok').trans (if_neg hmine)⟩

theorem answerPkt_nonempty (tag : Nat) (a : RegAnswer) : (answerPkt tag a).isEmpty = false := by
  unfold answerPkt rspPkt
  simp [leBytes]

theorem exec_regRsp_completes {q : RegRspPkt} {x : SetOp} {c : Cmd} (hok : s.heeds q.h = true) (hme : s.forMe q.h = true)
    (hx : s.drove.held.find? (fun x => x.op == 7 && x.sent && x.t == q.h.src.toNat && (reqOf x.param).tag == q.tag) = some x) (hc : s.setCmd x.tag = some c) :
    ∃ t : State, exec (.regRsp q) s = .next t ∧ (∀ y ∈ t.drove.held, y.tag ≠ x.tag) ∧ (⟨c.fn, 0, 0, c.cid, 0, 0, 0⟩ : Cqe) ∈ t.host.cqes
      ∧ t.mem = dptrWrite (hostTarget c.fn) c.dptr (answerPkt q.tag.toNat ⟨q.status.toNat, q.err.toNat, q.data.toNat⟩) s.mem := by
  have hok' : ¬ (!s.heeds q.h) = true := by simp [hok]
  have hmine : ¬ (!s.forMe q.h) = true := by simp [hme]
  have hx' : (s.takePkt q.h 0x48).drove.held.find? (fun x => x.op == 7 && x.sent && x.t == q.h.src.toNat && (reqOf x.param).tag == q.tag) = some x := by
    rw [s.takePkt_drove q.h 0x48 DroveSt.held fun _ _ _ => rfl]
    exact hx
  have hexec : exec (.regRsp q) s = .next (((s.takePkt q.h 0x48).dropHeld x.tag).completeSet x.tag Nv.ok 0 0
      (answerPkt q.tag.toNat ⟨q.status.toNat, q.err.toNat, q.data.toNat⟩)).droveDone := by
    refine (if_neg hok').trans ((if_neg hmine).trans ?_)
    rw [hx']
  have hcmd : (State.dropHeld (s.takePkt q.h 0x48) x.tag).setCmd x.tag = some c := hc
  obtain ⟨hcqe, hmem, hdropped⟩ := State.completeSet_completes hcmd Nv.ok 0 0 (answerPkt q.tag.toNat ⟨q.status.toNat, q.err.toNat, q.data.toNat⟩)
  refine ⟨_, hexec, fun y hy => State.dropHeld_tag (hdropped ▸ hy), hcqe, hmem.trans ?_⟩
  rw [answerPkt_nonempty]
  rfl

end

/-! ### Sending at intervals -/

section
variable {s : State}

theorem droveHbPkt_uncredited (ttl : Nat) : uncredited (s.droveHbPkt ttl) = true := by
  unfold State.droveHbPkt droveHeader
  simp [uncredited, pktType, leBytes]

theorem timePkt_uncredited (l : DroveLink) : uncredited (s.timePkt l) = true := by
  unfold State.timePkt droveHeader
  simp [uncredited, pktType, leBytes]

/-- A packet sent at once is in the next flit. -/
theorem State.setSend_replay {p : Port} {pkt : Bytes} (ho : (s.drove.link p).open_ = true) (hr : (s.drove.link p).retraining = false)
    (hl : (s.drove.link p).replay.length < 512) (hu : uncredited pkt = true) :
    ∃ f : TxFlit, ((s.setSend p pkt).drove.link p).replay = (s.drove.link p).replay ++ [f] ∧ f.packets = [pkt] := by
  rw [State.setSend_now _ ho hr hl hu, State.link_modLink_same]
  exact DroveLink.payload_replay ..

theorem exec_droveHeartbeatTx_sends (hn : s.drove.member ≠ none) (ho : (s.drove.link s.drove.down).open_ = true)
    (hr : (s.drove.link s.drove.down).retraining = false) (hl : (s.drove.link s.drove.down).replay.length < 512) :
    ∃ (u : State) (f : TxFlit), exec .droveHeartbeatTx s = .next (u.endQuiesce).droveDone
      ∧ (u.drove.link s.drove.down).replay = (s.drove.link s.drove.down).replay ++ [f] ∧ f.packets = [s.droveHbPkt (if s.drove.line then 31 else s.configN / 2)] := by
  have hn' : ¬ s.drove.member.isNone = true := by simpa using hn
  obtain ⟨f, hf, hp⟩ := State.setSend_replay ho hr hl (droveHbPkt_uncredited (s := s) (if s.drove.line then 31 else s.configN / 2))
  refine ⟨(s.setSend s.drove.down (s.droveHbPkt (if s.drove.line then 31 else s.configN / 2))).setSend (otherPort s.drove.down)
    (s.droveHbPkt (if s.drove.line then 31 else (s.configN - 1) / 2)), f, ?_, ?_, hp⟩
  · refine (if_neg hn').trans ?_
    cases s.drove.line <;> rfl
  · rw [State.link_otherPort_setSend, hf]

theorem exec_droveTimeTx_sends {p : Port} (ho : (s.drove.link p).open_ = true) (hr : (s.drove.link p).retraining = false)
    (hl : (s.drove.link p).replay.length < 512) : ∃ (u : State) (f : TxFlit), exec .droveTimeTx s = .next u.droveDone
      ∧ (u.drove.link p).replay = (s.drove.link p).replay ++ [f] ∧ f.packets = [s.timePkt (s.drove.link p)] := by
  cases p with
  | a =>
    obtain ⟨f, hf, hp⟩ := State.setSend_replay ho hr hl (timePkt_uncredited (s := s) s.drove.a)
    exact ⟨_, f, rfl, (congrArg DroveLink.replay (State.link_otherPort_setSend _ .a _)).trans hf, hp⟩
  | b =>
    have hlink : (s.setSend .a (s.timePkt s.drove.a)).drove.link .b = s.drove.link .b := State.link_otherPort_setSend s .b _
    obtain ⟨f, hf, hp⟩ := State.setSend_replay (s := s.setSend .a (s.timePkt s.drove.a)) (p := .b) (by rw [hlink]; exact ho) (by rw [hlink]; exact hr)
      (by rw [hlink]; exact hl) (timePkt_uncredited (s := s) s.drove.b)
    exact ⟨_, f, rfl, hf.trans (by rw [hlink]), hp⟩

end

/-! ### Silent members and the standby's takeover -/

section
variable {s : State} {m : Fin 32} {x : Member}

/-- The state in which a silent member is no longer live. -/
def State.silent (s : State) (m : Fin 32) (x : Member) : State :=
  ({ s with time := max s.time (x.heard + 3000000) } : State).setDrove fun d =>
    { d with live := d.live.filter (·.idx != m.val), mirrorBad := d.mirrorBad && !(d.manages && d.standby.isNone && x.role == 2) }

/-- Whether the standby with quorum takes the lost manager's place (R515). -/
def State.takesPlace (s : State) : State :=
  if s.drove.role = 2 ∧ s.drove.quorum = true ∧ s.drove.mirrorBad = false ∧ s.drove.member ≠ none then s.failover else s

theorem exec_droveMemberTimeout_member (hx : s.drove.live.find? (·.idx == m.val) = some x) (hm : s.drove.manager ≠ m.val ∨ s.drove.manages = true) :
    exec (.droveMemberTimeout m) s = .next ((s.silent m x).reQuorum.chooseStandby.endTaking.goOps).droveDone := by
  have hmgr : (decide ((s.silent m x).drove.manager = m.val) && !(s.silent m x).drove.manages) = false := by
    show (decide (s.drove.manager = m.val) && !s.drove.manages) = false
    rcases hm with h | h <;> simp [h]
  have hexec : exec (.droveMemberTimeout m) s = .next ((fun mgr : Bool => (((fun t : State =>
      (if mgr && t.drove.role == 2 && t.drove.quorum && !t.drove.mirrorBad && t.drove.member.isSome then t.failover else t).endTaking.goOps)
        ((if mgr then (s.silent m x).bump R.DROVE.HB_MISSES_COUNT 3 else s.silent m x).reQuorum.chooseStandby)).droveDone))
          (decide ((s.silent m x).drove.manager = m.val) && !(s.silent m x).drove.manages)) := by
    show execDroveMemberTimeout m s = _
    unfold execDroveMemberTimeout
    rw [hx]
    rfl
  rw [hexec, hmgr]
  rfl

theorem exec_droveMemberTimeout_manager (hx : s.drove.live.find? (·.idx == m.val) = some x) (hm : s.drove.manager = m.val) (hn : s.drove.manages = false) :
    exec (.droveMemberTimeout m) s
      = .next ((((s.silent m x).bump R.DROVE.HB_MISSES_COUNT 3).reQuorum.chooseStandby.takesPlace).endTaking.goOps).droveDone := by
  have hmgr : (decide ((s.silent m x).drove.manager = m.val) && !(s.silent m x).drove.manages) = true := by
    show (decide (s.drove.manager = m.val) && !s.drove.manages) = true
    simp [hm, hn]
  have hexec : exec (.droveMemberTimeout m) s = .next ((fun mgr : Bool => (((fun t : State =>
      (if mgr && t.drove.role == 2 && t.drove.quorum && !t.drove.mirrorBad && t.drove.member.isSome then t.failover else t).endTaking.goOps)
        ((if mgr then (s.silent m x).bump R.DROVE.HB_MISSES_COUNT 3 else s.silent m x).reQuorum.chooseStandby)).droveDone))
          (decide ((s.silent m x).drove.manager = m.val) && !(s.silent m x).drove.manages)) := by
    show execDroveMemberTimeout m s = _
    unfold execDroveMemberTimeout
    rw [hx]
    rfl
  rw [hexec, hmgr]
  dsimp only
  rw [if_pos rfl]
  generalize ((s.silent m x).bump R.DROVE.HB_MISSES_COUNT 3).reQuorum.chooseStandby = v
  have hcond : (true && v.drove.role == 2 && v.drove.quorum && !v.drove.mirrorBad && v.drove.member.isSome) = true
      ↔ (v.drove.role = 2 ∧ v.drove.quorum = true ∧ v.drove.mirrorBad = false ∧ v.drove.member ≠ none) := by
    simp [Option.isSome_iff_ne_none, and_assoc]
  rw [State.takesPlace, if_congr hcond rfl rfl]

/-- The new manager's state, before the failover ends. -/
def State.succeeded (s : State) : State :=
  ((((s.setEpoch (s.drove.epoch + 1)).goLine.setDrove fun d =>
    { d with role := 1, manager := d.me, standby := none, taking := true, admitted := d.count, line := true, cur := none, queue := [] }).endRolesOf
      .setManager .manager).sendForm .a).sendForm .b

theorem State.goLine_drove (s : State) : s.goLine.drove = { s.drove with line := true } := by
  unfold State.goLine
  split
  next h => rw [← h]
  next => rw [State.droveErr_drove, State.pulse_drove]; rfl

theorem State.failover_succeeds (s : State) : ∃ w : State, s.failover = w.endTaking ∧ w.drove.role = 1 ∧ w.drove.manager = s.drove.me
    ∧ w.drove.epoch = (s.drove.epoch + 1) % 2 ^ 32 ∧ w.drove.line = true ∧ w.drove.taking = true ∧ w.drove.cur = none ∧ w.drove.queue = []
    ∧ w.drove.member = s.drove.member ∧ w.take = s.take := by
  let u := (s.setEpoch (s.drove.epoch + 1)).goLine.setDrove fun d =>
    { d with role := 1, manager := d.me, standby := none, taking := true, admitted := d.count, line := true, cur := none, queue := [] }
  have hring : s.succeeded.ring = (u.endRolesOf .setManager .manager).ring := (State.ring_sendForm ..).trans (State.ring_sendForm ..)
  have hroles : (u.endRolesOf .setManager .manager).drove = u.drove := keeps_drove (State.forget_endRolesOf (T := 0xc80001820) rfl ..) rfl
  have hpart {α : Type} (f : DroveSt → α) (hf : ∀ u : State, f u.ring = f u.drove) : f s.succeeded.drove = f u.drove :=
    (ring_part hring f hf).trans (by rw [hroles])
  have hu : u.drove = { s.drove with
      line := true, epoch := (s.drove.epoch + 1) % 2 ^ 32, answered := [], role := 1, manager := s.drove.me, standby := none, taking := true
      admitted := s.drove.count, cur := none, queue := [] } := by
    show ({ (s.setEpoch (s.drove.epoch + 1)).goLine.drove with
      role := 1, manager := (s.setEpoch (s.drove.epoch + 1)).goLine.drove.me, standby := none, taking := true
      admitted := (s.setEpoch (s.drove.epoch + 1)).goLine.drove.count, line := true, cur := none, queue := [] } : DroveSt) = _
    rw [State.goLine_drove]
    rfl
  have htake : s.succeeded.take = s.take := by
    have h1 : u.take = s.take := keeps_take (State.forget_goLine (T := 0x680000420) rfl ..) rfl
    have h2 := keeps_take (State.forget_endRolesOf (T := 0xc80001820) rfl u .setManager .manager) rfl
    have h3 := keeps_take (State.forget_sendForm (T := 0x200000000) rfl (u.endRolesOf .setManager .manager) .a) rfl
    exact (keeps_take (State.forget_sendForm (T := 0x200000000) rfl ((u.endRolesOf .setManager .manager).sendForm .a) .b) rfl).trans (h3.trans (h2.trans h1))
  refine ⟨s.succeeded, rfl, ?_, ?_, ?_, ?_, ?_, ?_, ?_, ?_, htake⟩
  · rw [hpart DroveSt.role fun _ => rfl, hu]
  · rw [hpart DroveSt.manager fun _ => rfl, hu]
  · rw [hpart DroveSt.epoch fun _ => rfl, hu]
  · rw [hpart DroveSt.line fun _ => rfl, hu]
  · rw [hpart DroveSt.taking fun _ => rfl, hu]
  · rw [hpart DroveSt.cur fun _ => rfl, hu]
  · rw [hpart DroveSt.queue fun _ => rfl, hu]
  · rw [hpart DroveSt.member fun _ => rfl, hu]

end

/-! ### Time that comes from outside -/

section
variable {s : State}

/-- The state that notes an edge of SYNC_IN. -/
def State.syncedAt (s : State) : State := s.setDrove fun d => { d with syncAt := some s.time }

theorem State.syncedAt_time (s : State) : s.syncedAt.time = s.time := rfl

theorem exec_syncInEdge_sets (hs : s.syncIn = true) : ∃ t : State, exec (.syncInEdge true) s = .next t ∧ t.drove.syncAt = some t.time ∧ t.take = s.take
    ∧ (1000 < ((s.time + 500000000) / 1000000000 * 1000000000 - s.time : Int).natAbs → s.get R.TAKE.TAKE_STATE_STATE = 0 → t.time % 1000000000 = 0) := by
  have hin : ¬ (!true || !s.syncIn) = true := by simp [hs]
  have hoff : (Int.ofNat ((s.time + 500000000) / 1000000000 * 1000000000) - Int.ofNat s.time)
      = ((s.time + 500000000) / 1000000000 * 1000000000 - s.time : Int) := rfl
  rw [← hoff]
  obtain ⟨htake, -⟩ := State.discipline_take_rtcAt s (Int.ofNat ((s.time + 500000000) / 1000000000 * 1000000000) - Int.ofNat s.time)
  refine ⟨(State.syncedAt (s.discipline (Int.ofNat ((s.time + 500000000) / 1000000000 * 1000000000) - Int.ofNat s.time))).showDrove, if_neg hin, ?_, ?_,
    fun hbig hnone => ?_⟩
  · rw [keeps_drove (State.forget_showDrove (T := 0x20) rfl ..) rfl, keeps_time (State.forget_showDrove (T := 0x20) rfl ..) rfl]
    rfl
  · rw [keeps_take (State.forget_showDrove (T := 0x20) rfl ..) rfl]
    exact htake
  rw [keeps_time (State.forget_showDrove (T := 0x20) rfl ..) rfl, State.syncedAt_time, (State.discipline_of_step hbig hnone).1]
  have hsec : ((s.time : Int) + (Int.ofNat ((s.time + 500000000) / 1000000000 * 1000000000) - Int.ofNat s.time)).toNat
      = (s.time + 500000000) / 1000000000 * 1000000000 := by
    rw [hoff]
    omega
  rw [hsec, Nat.mul_mod_left]

/-- A time fault noted and recorded. -/
def State.timeFaulted (s : State) : State := (s.pulse 0xC0 Ev.DROVE.TIME_FAULT).droveErr E.DROVE_TIME_FAULT s.drove.me 0

theorem State.timeFaulted_drove (s : State) : s.timeFaulted.drove = s.drove := by rw [State.timeFaulted, State.droveErr_drove, State.pulse_drove]

theorem State.timeFaulted_time (s : State) : s.timeFaulted.time = s.time := by rw [State.timeFaulted, State.droveErr, State.record_time, State.pulse_time]

theorem State.timeFaulted_sticky (s : State) : bitAt (s.timeFaulted.get (H.STICKY 0xC0)) Ev.DROVE.TIME_FAULT = true := by
  rw [State.timeFaulted, State.droveErr, State.record_sticky _ _ _ _ _ _ _ (by decide), State.pulse_sticky _ _ _ (by decide)]
  rfl

theorem State.timeFaulted_code (hv : s.get (H.VALID 0xC0) = 0) : s.timeFaulted.get (H.CODE 0xC0) = E.DROVE_TIME_FAULT := by
  rw [State.timeFaulted, State.droveErr_code]
  · rfl
  · rw [State.pulse_get_other _ _ _ (by decide) (by decide), hv]

theorem exec_syncInLoss_faults {t0 : Nat} (hs : s.syncIn = true) (ht : s.drove.syncAt = some t0) : ∃ t : State, exec .syncInLoss s = .next t
    ∧ t.drove.syncAt = none ∧ t.time = max s.time (t0 + 2000000000) ∧ bitAt (t.get (H.STICKY 0xC0)) Ev.DROVE.TIME_FAULT = true := by
  have hin : ¬ (!s.syncIn) = true := by simp [hs]
  have hexec : exec .syncInLoss s = .next (({ s with time := max s.time (t0 + 2000000000) } : State).setDrove fun d =>
      { d with syncAt := none, offset := 0, offSince := none }).timeFaulted.showDrove := by
    show execSyncInLoss s = _
    unfold execSyncInLoss
    rw [ht]
    exact if_neg hin
  refine ⟨_, hexec, ?_, ?_, ?_⟩
  · rw [keeps_drove (State.forget_showDrove (T := 0x20) rfl ..) rfl, State.timeFaulted_drove]
    rfl
  · rw [keeps_time (State.forget_showDrove (T := 0x20) rfl ..) rfl, State.timeFaulted_time]
    rfl
  · rw [State.showDrove_get_header _ (by decide), State.timeFaulted_sticky]

theorem exec_droveTimeFault_faults {t0 : Nat} (ht : s.drove.offSince = some t0) (hf : s.drove.faulted = false) : ∃ t : State,
    exec .droveTimeFault s = .next t ∧ t.drove.faulted = true ∧ t.time = max s.time (t0 + 1000000000)
      ∧ bitAt (t.get (H.STICKY 0xC0)) Ev.DROVE.TIME_FAULT = true ∧ (s.get (H.VALID 0xC0) = 0 → t.get (H.CODE 0xC0) = E.DROVE_TIME_FAULT) := by
  have hnot : ¬ s.drove.faulted = true := by simp [hf]
  have hexec : exec .droveTimeFault s = .next (({ s with time := max s.time (t0 + 1000000000) } : State).setDrove fun d => { d with faulted := true }).timeFaulted := by
    show execDroveTimeFault s = _
    unfold execDroveTimeFault
    rw [ht]
    exact if_neg hnot
  refine ⟨_, hexec, ?_, ?_, State.timeFaulted_sticky _, fun hv => ?_⟩
  · rw [State.timeFaulted_drove]
    rfl
  · rw [State.timeFaulted_time]
    rfl
  · exact State.timeFaulted_code (s := ({ s with time := max s.time (t0 + 1000000000) } : State).setDrove fun d => { d with faulted := true }) hv

end

/-- Settles O52: each command of a Drove link, packet or timer by its equation, and what sending leaves of the ring's state. -/
theorem droveLinksAndPackets : Obligations.DroveLinksAndPackets := by
  unfold Obligations.DroveLinksAndPackets
  refine ⟨fun s p hr hm hup => exec_droveLinkUp_up hr hm hup, fun s p hup => exec_droveLinkDown_down hup, fun s p f hup hr hc => ?_,
    fun s p f hup hr hc h0 h3 hl hs => ?_, fun s p f hup hr hc h1 h2 hl hne ha h3 => ?_, fun s p hup hr hl => exec_droveReplayTimeout_replays hup hr hl,
    fun s q hup hr hid hser hm => exec_ident_accepts hup hr hid hser hm, fun s q hup hr hid => exec_ident_foreign_refused hup hr hid,
    fun s q hup hr hid hser => exec_ident_looped_refused hup hr hid hser,
    fun s q hok he hm hn hh ht hroom => exec_form_numbers hok he hm hn hh ht hroom, fun s q he => ?_, fun s q hok he h32 hme => ?_,
    fun s q delay off hok hdelay hoff => ?_, fun s q r hok he hd hn hme hq hm hr => ?_, fun s u v q a hok he hd hn hme hq hm hr hu hact => ?_,
    fun s q hq => ?_, fun s q op c st hok he hme hm hop h1 hc hst => exec_reply_completes hok he hme hm hop h1 hc hst,
    fun s q x hok he hme hm h46 hcur hid hsent hnew => exec_reply_answers hok he hme hm h46 hcur hid hsent hnew,
    fun s q hok he hme => exec_mirror_taken hok he hme, fun s q hok hme => exec_regReq_answers hok hme,
    fun s q x c hok hme hx hc => exec_regRsp_completes hok hme hx hc, fun s hn ho hr hl => exec_droveHeartbeatTx_sends hn ho hr hl,
    fun s p ho hr hl => exec_droveTimeTx_sends ho hr hl, fun s m x hx hm => ⟨_, exec_droveMemberTimeout_member hx hm, rfl, rfl, rfl⟩,
    fun s m x hx hm hn => ⟨(s.silent m x).bump R.DROVE.HB_MISSES_COUNT 3, _, rfl, rfl, rfl, ?_, exec_droveMemberTimeout_manager hx hm hn⟩,
    State.failover_succeeds, fun s hs => exec_syncInEdge_sets hs, fun s t0 hs ht => exec_syncInLoss_faults hs ht,
    fun s t0 ht hf => exec_droveTimeFault_faults ht hf⟩
  · have hcore := State.droveDone_core (s.modLink p DroveLink.nak) p
    rw [State.link_modLink_same] at hcore
    exact ⟨_, exec_droveFlitRx_bad hup hr hc, (congrArg DroveLink.nakked hcore :), (congrArg DroveLink.rxSeq hcore :), (congrArg DroveLink.rxBuf hcore :)⟩
  · have hcore := State.droveDone_core ((s.areaApplied p f).payloadTaken p f) p
    have happlied : (s.areaApplied p f).drove.link p = (s.drove.link p).applyArea s.time (bits f.link.toNat 22 2) (bits f.link.toNat 12 10)
        (bits f.link.toNat 40 8) := State.link_modLink_same ..
    have horder := State.payloadTaken_in_sequence (p := p) (f := f) (t := s.areaApplied p f) h0 (by rw [happlied, DroveLink.applyArea_rxSeq]; exact hs)
    rw [happlied] at horder
    refine ⟨_, exec_droveFlitRx_good hup hr hc (by omega) h3 hl, (congrArg DroveLink.rxSeq hcore :).trans (congrArg Prod.fst horder :),
      (congrArg DroveLink.nakked hcore :).trans (congrArg (fun x => x.2.1) horder :), fun h2 => (congrArg DroveLink.retraining hcore :).trans ?_⟩
    refine (congrArg (fun x => x.2.2) horder :).trans ?_
    rw [DroveLink.applyArea_retraining _ _ _ h2, hr]
  · have hcore := State.droveDone_core ((s.areaApplied p f).payloadTaken p f) p
    refine ⟨_, exec_droveFlitRx_good hup hr hc (by omega) (by omega) hl, (congrArg DroveLink.retraining hcore :).trans ?_⟩
    refine (State.payloadTaken_retraining ..).trans ?_
    rw [State.areaApplied, State.link_modLink_same, h2]
    exact DroveLink.applyArea_nak _ _ hne ha h3
  · exact ⟨_, exec_form_stale he, s.takePkt_done_part q.h 0x41 DroveSt.member fun _ _ _ => rfl, s.takePkt_done_part q.h 0x41 DroveSt.manager fun _ _ _ => rfl,
      s.takePkt_done_part q.h 0x41 DroveSt.epoch fun _ _ _ => rfl, s.takePkt_done_part q.h 0x41 DroveSt.role fun _ _ _ => rfl⟩
  · refine ⟨s.heard q, s.heardMember q, exec_droveHeartbeat_heard hok he h32 hme, ?_, rfl, rfl, rfl, rfl, fun y hy hne => ?_⟩
    · rw [State.heard_live]
      exact (mem_insertMember ..).mpr (.inl rfl)
    · rw [State.heard_live]
      exact (mem_insertMember ..).mpr (.inr (List.mem_filter.mpr ⟨hy, by simpa using hne⟩))
  · have hd : s.timeDelay q = delay := hdelay.symm
    have heq := exec_time_eq (q := q) hok
    have hoff' : Int.ofNat (q.dtime.toNat + s.timeDelay q) - Int.ofNat s.time = off := by rw [hd, hoff]; rfl
    have hlink : (s.timed q).drove.link q.h.port = _ := State.link_modLink_same ..
    rw [hoff'] at heq
    refine ⟨s.timed q, rfl, by rw [hlink]; exact hd, by rw [hlink], s.timed_part q DroveSt.live fun _ _ _ => rfl,
      s.timed_part q DroveSt.member fun _ _ _ => rfl, rfl, fun hm hn hq hp => ?_, fun h => ?_⟩
    · rw [heq, if_neg]
      simp [hm, hn, hq, hp]
    · rw [heq, if_pos]
      rcases h with h | h | h | h <;> simp [h]
  · exact ⟨s.ordered q, exec_order_answered hok he hd hn hme hq hm hr, s.ordered_part q DroveSt.armed fun _ _ _ => rfl,
      s.ordered_part q DroveSt.answered fun _ _ _ => rfl, keeps_take (s.ordered_frame q) rfl, keeps_media (s.ordered_frame q) rfl⟩
  · subst hu
    obtain ⟨hsome, hnone⟩ := exec_order_acts hok he hd hn hme hq hm hr hact
    exact ⟨keeps_take (s.ordered_frame q) rfl, s.ordered_part q DroveSt.armed fun _ _ _ => rfl, s.ordered_part q DroveSt.answered fun _ _ _ => rfl, hsome, hnone⟩
  · obtain ⟨u, hexec, hu⟩ := exec_order_without_quorum (q := q) hq
    have hpart {α : Type} (f : DroveSt → α) (hf : ∀ d a b, f { d with a := a, b := b } = f d) : f u.droveDone.drove = f s.drove := by
      refine (ring_part u.ring_droveDone f fun v => hf v.drove _ _).trans ?_
      rcases hu with rfl | rfl
      · exact s.takePkt_drove q.h 0x44 f hf
      · exact s.ordered_part q f hf
    have htake : u.take = s.take := by
      rcases hu with rfl | rfl
      · rfl
      · exact keeps_take (s.ordered_frame q) rfl
    exact ⟨_, hexec, hpart DroveSt.armed fun _ _ _ => rfl, hpart DroveSt.answered fun _ _ _ => rfl, hpart DroveSt.cur fun _ _ _ => rfl,
      hpart DroveSt.queue fun _ _ _ => rfl, (keeps_take (T := 0x200000020) u.droveDone_frame rfl).trans htake⟩
  · exact State.get_bump_same ..

end Sys2Proof.Machine
end

section
/-!
Mode requests, their vetoes and outcomes (R545-R551).
-/

namespace Sys2Proof.Machine

open Sys2Proof.Laws

/-! ### Outcomes (R551) -/

section
variable (s : State) (target outcome phase : Nat) (r : Refuser)

/-- What the outcome of a request shows. -/
theorem State.setOutcome_shows : (s.setOutcome target outcome r).get R.PWR.LAST_OUTCOME_TARGET = target % 8
    ∧ (s.setOutcome target outcome r).get R.PWR.LAST_OUTCOME_OUTCOME = outcome % 4 ∧ (s.setOutcome target outcome r).get R.PWR.LAST_OUTCOME_BLOCK = r.block % 256
    ∧ (s.setOutcome target outcome r).get R.PWR.LAST_OUTCOME_INSTANCE = r.inst % 256 ∧ (s.setOutcome target outcome r).get R.PWR.LAST_FUNC_FUNC = r.func.getD 0 % 512
    ∧ (s.setOutcome target outcome r).get R.PWR.LAST_FUNC_IS_FUNC = b2n r.func.isSome := by
  unfold State.setOutcome
  simp only [State.puts_cons, State.puts_nil]
  have hbit : b2n r.func.isSome % 2 = b2n r.func.isSome := by cases r.func <;> rfl
  refine ⟨?_, ?_, ?_, ?_, ?_, ?_⟩
  · rw [State.get_put_of_place _ _ rfl, State.get_put_of_place _ _ rfl, State.get_put_of_place _ _ rfl, State.get_put_of_place _ _ rfl,
      State.get_put_of_place _ _ rfl, State.get_put_same]
    rfl
  · rw [State.get_put_of_place _ _ rfl, State.get_put_of_place _ _ rfl, State.get_put_of_place _ _ rfl, State.get_put_of_place _ _ rfl, State.get_put_same]
    rfl
  · rw [State.get_put_of_place _ _ rfl, State.get_put_of_place _ _ rfl, State.get_put_of_place _ _ rfl, State.get_put_same]
    rfl
  · rw [State.get_put_of_place _ _ rfl, State.get_put_of_place _ _ rfl, State.get_put_same]
    rfl
  · rw [State.get_put_of_place _ _ rfl, State.get_put_same]
    rfl
  · rw [State.get_put_same]
    exact hbit

/-- An outcome shows in LAST_OUTCOME and LAST_FUNC alone. -/
theorem State.setOutcome_get {x : Fld} (h : x.page ≠ 2 ∨ x.off ≠ 0x050 ∧ x.off ≠ 0x054) : (s.setOutcome target outcome r).get x = s.get x := by
  unfold State.setOutcome
  simp only [State.puts_cons, State.puts_nil]
  have hne (y : Fld) (hp : y.page = 2) (ho : y.off = 0x050 ∨ y.off = 0x054) : x ≠ y := fun e => by
    subst e
    rcases h with h | h
    · exact h hp
    · exact ho.elim h.1 h.2
  rw [State.get_put_other _ _ (hne _ rfl (.inr rfl)), State.get_put_other _ _ (hne _ rfl (.inr rfl)), State.get_put_other _ _ (hne _ rfl (.inl rfl)),
    State.get_put_other _ _ (hne _ rfl (.inl rfl)), State.get_put_other _ _ (hne _ rfl (.inl rfl)), State.get_put_other _ _ (hne _ rfl (.inl rfl))]

theorem State.setOutcome_frame : forget 0x20 (s.setOutcome target outcome r) = forget 0x20 s := State.forget_puts rfl ..

theorem State.setOutcome_take : (s.setOutcome target outcome r).take = s.take := keeps_take (s.setOutcome_frame ..) rfl

theorem State.setOutcome_media : (s.setOutcome target outcome r).media = s.media := keeps_media (s.setOutcome_frame ..) rfl

theorem State.setOutcome_pwr : (s.setOutcome target outcome r).pwr = s.pwr := keeps_pwr (s.setOutcome_frame ..) rfl

theorem State.setOutcome_mode : (s.setOutcome target outcome r).mode = s.mode := State.setOutcome_get _ _ _ _ (.inr ⟨by decide, by decide⟩)

/-- The accounts of a refusal or an abort, before it is counted and recorded. -/
def State.accounted : State := ((s.setOutcome target outcome r).setPwr fun p =>
    { p with
      history := (histEntry s.time target s.mode outcome phase r :: p.history).take 64
      acct := modAt p.acct target fun a =>
        if decide (outcome = 2) then { a with refusals := sat32 (a.refusals + 1) } else { a with aborts := sat32 (a.aborts + 1) }
      blockAcct := assocSet p.blockAcct r.block (sat32 ((assoc p.blockAcct r.block).getD 0 + 1)) }).wearTally .power [target]

theorem State.accounted_get (x : Fld) : (s.accounted target outcome phase r).get x = (s.setOutcome target outcome r).get x := rfl

theorem State.charge_refusal : s.charge target 2 phase r = (((s.accounted target 2 phase r).bump R.PWR.REFUSALS_COUNT).pulse 2 Ev.PWR.REFUSED).record 2
    E.PWR_ENTRY_REFUSED (target + s.mode * 2 ^ 8 + 2 * 2 ^ 16 + phase * 2 ^ 24) := rfl

theorem State.charge_abort : s.charge target 3 phase r = (((s.accounted target 3 phase r).bump R.PWR.ABORTS_COUNT).pulse 2 Ev.PWR.ABORTED).record 2
    E.PWR_ENTRY_ABORTED (target + s.mode * 2 ^ 8 + 3 * 2 ^ 16 + phase * 2 ^ 24) := rfl

/-- Behind the header of its page and beside its counters, a charge shows its outcome only. -/
theorem State.charge_get {x : Fld} (hx : x.page ≠ 2 ∨ 0x040 ≤ x.off) (h1 : x ≠ R.PWR.REFUSALS_COUNT) (h2 : x ≠ R.PWR.ABORTS_COUNT) :
    (s.charge target outcome phase r).get x = (s.setOutcome target outcome r).get x := by
  have hrecord (t : State) (code info : Nat) : (t.record 2 code info).get x = t.get x := by
    rcases hx with h | h
    · exact t.record_get_of_page h ..
    · exact State.record_get_beyond _ _ _ _ _ _ _ (Nat.ble_eq.mpr h)
  have hpulse (t : State) (bit : Nat) : (t.pulse 2 bit).get x = t.get x := by
    rcases hx with h | h
    · exact t.pulse_get_of_page h bit
    · exact State.pulse_get_beyond_header _ _ _ h
  unfold State.charge
  dsimp only
  rw [hrecord]
  split
  · rw [hpulse, State.get_bump_other _ _ h1]
    rfl
  · rw [hpulse, State.get_bump_other _ _ h2]
    rfl

theorem State.charge_frame : forget 0xc90000420 (s.charge target outcome phase r) = forget 0xc90000420 s := State.forget_charge rfl ..

theorem State.charge_pwr : (s.charge target outcome phase r).pwr = (s.accounted target outcome phase r).pwr := by
  have heq : s.charge target outcome phase r = (if decide (outcome = 2) then ((s.accounted target outcome phase r).bump R.PWR.REFUSALS_COUNT).pulse 2 Ev.PWR.REFUSED
      else ((s.accounted target outcome phase r).bump R.PWR.ABORTS_COUNT).pulse 2 Ev.PWR.ABORTED).record 2
      (if decide (outcome = 2) then E.PWR_ENTRY_REFUSED else E.PWR_ENTRY_ABORTED) (target + s.mode * 2 ^ 8 + outcome * 2 ^ 16 + phase * 2 ^ 24) := rfl
  rw [heq, State.record_pwr]
  split
  · rw [State.pulse_pwr]
    rfl
  · rw [State.pulse_pwr]
    rfl

theorem State.charge_mode : (s.charge target outcome phase r).mode = s.mode :=
  (State.charge_get _ _ _ _ _ (.inr (by decide)) (by decide) (by decide)).trans (State.setOutcome_mode ..)

theorem State.charge_refusals : (s.charge target 2 phase r).get R.PWR.REFUSALS_COUNT = min (s.get R.PWR.REFUSALS_COUNT + 1) (2 ^ 32 - 1) := by
  rw [State.charge_refusal, State.record_get_beyond _ _ _ _ _ _ _ rfl, State.pulse_get_beyond_header _ _ _ (by decide), State.get_bump_same,
    State.accounted_get, State.setOutcome_get _ _ _ _ (.inr ⟨by decide, by decide⟩)]
  rfl

theorem State.charge_code (hv : s.get (H.VALID 2) = 0) : (s.charge target 2 phase r).get (H.CODE 2) = E.PWR_ENTRY_REFUSED := by
  rw [State.charge_refusal, State.record_get_CODE]
  · rfl
  · rw [State.pulse_get_other _ _ _ (by decide) (by decide), State.get_bump_other _ _ (by decide), State.accounted_get,
      State.setOutcome_get _ _ _ _ (.inr ⟨by decide, by decide⟩), hv]

end

/-! ### Vetoes (R546, R547) -/

section
variable {s t : State} {q : PwrReq}

/-- A veto draws a free value at most. -/
theorem State.veto_state (s : State) (q : PwrReq) : ∃ n, (s.veto q).2 = { s with freeNext := n } := by
  have hite {c : Prop} [Decidable c] {v w : Option Refuser × State} (hv : ∃ n, v.2 = { s with freeNext := n }) (hw : ∃ n, w.2 = { s with freeNext := n }) :
      ∃ n, (if c then v else w).2 = { s with freeNext := n } := by
    split
    · exact hv
    · exact hw
  have hself (v : Option Refuser) : ∃ n, ((v, s) : Option Refuser × State).2 = { s with freeNext := n } := ⟨s.freeNext, rfl⟩
  unfold State.veto
  dsimp only
  refine hite (hself _) (hite (hself _) (hite (hself _) (hite (hself _) (hite (hself _) (hite ⟨_, rfl⟩ (hite (hself _) (hite (hself _) (hite (hself _) ?_))))))))
  split <;> exact hself _

/-- Who refuses a request. -/
def State.vetoer (s : State) (q : PwrReq) : Option Refuser :=
  let sleep := q == .doze || q == .fold
  let down := sleep || q == .warm
  let fns := s.busyFns ++ s.laneHosts
  if s.pwr.tran.isSome || s.take.pfPhase != 0 || !s.reqFits q then refuser 3 0
  else if down && s.get R.TAKE.TAKE_STATE_STATE != 0 then refuser 0x11 0
  else if s.pwr.fw.update.isSome then refuser 0x58 0
  else if down && s.mcLoad.isSome then refuser 0x59 ((s.mcLoad.map (·.cluster)).getD 0)
  else if sleep && ((decide (1 ≤ s.drove.role) && decide (s.drove.role ≤ 2) && !s.drove.live.isEmpty) || s.drove.armed.isSome) then refuser 0x50 0
  else if sleep && !fns.isEmpty then some ⟨0x49, 0, some (fns.getD (s.fresh.1 % fns.length) 0)⟩
  else if sleep && (!s.host.cmds.isEmpty || (q == .doze && s.portAwake)) then refuser 0x48 0
  else if sleep && !s.critical.isEmpty then refuser 0x32 0
  else if q == .doze && !s.keys.queue.isEmpty then refuser 0x21 0
  else (if q == .doze then (List.range 8).find? (bitAt (s.get R.VREG.LINK_STATUS_UNSUPPORTED)) else none).bind fun n => refuser 4 n

theorem State.veto_fst (s : State) (q : PwrReq) : (s.veto q).1 = s.vetoer q := by
  unfold State.veto State.vetoer
  simp only [apply_ite Prod.fst]
  cases (if (q == .doze) = true then (List.range 8).find? (bitAt (s.get R.VREG.LINK_STATUS_UNSUPPORTED)) else none) <;> rfl

/-- A veto looks at nothing that an access of a register changes. -/
theorem State.vetoer_forget (s : State) (q : PwrReq) : (forget 0x800000A80 s).vetoer q = s.vetoer q := rfl

theorem State.Accessed.veto {t : State} (h : s.Accessed t) (q : PwrReq) : (t.veto q).1 = (s.veto q).1 := by
  rw [State.veto_fst, State.veto_fst, ← t.vetoer_forget, h.1, s.vetoer_forget]

theorem State.veto_of_take (hq : q = .doze ∨ q = .fold ∨ q = .warm) (ht : s.get R.TAKE.TAKE_STATE_STATE ≠ 0) (hn : s.pwr.tran = none) (hp : s.take.pfPhase = 0)
    (hf : s.reqFits q = true) : (s.veto q).1 = some ⟨0x11, 0, none⟩ := by
  have hdown : ((q == .doze || q == .fold) || q == .warm) = true := by rcases hq with rfl | rfl | rfl <;> rfl
  rw [State.veto_fst, State.vetoer, if_neg (by simp [hn, hp, hf]), if_pos (by simp [hdown, ht])]
  rfl

theorem State.veto_of_transition (h : s.pwr.tran ≠ none ∨ s.reqFits q = false) : (s.veto q).1 = some ⟨3, 0, none⟩ := by
  have hbusy : (s.pwr.tran.isSome || s.take.pfPhase != 0 || !s.reqFits q) = true := by
    rcases h with h | h
    · simp [Option.isSome_iff_ne_none.mpr h]
    · simp [h]
  rw [State.veto_fst, State.vetoer, if_pos hbusy]
  rfl

/-- A request that a veto refuses is charged to who refuses it. -/
theorem State.request_refused {f : Refuser} (h : (s.veto q).1 = some f) (go : State → State) :
    ∃ n, s.request q go = ({ s with freeNext := n } : State).charge q.target 2 0 f := by
  obtain ⟨n, hn⟩ := s.veto_state q
  refine ⟨n, ?_⟩
  unfold State.request
  rw [← hn]
  generalize s.veto q = v at *
  obtain ⟨w, t⟩ := v
  simp only at h
  subst h
  rfl

theorem State.request_starts (h : (s.veto q).1 = none) (go : State → State) :
    ∃ n, s.request q go = go (({ s with freeNext := n } : State).setOutcome q.target 0 ⟨0, 0, none⟩) := by
  obtain ⟨n, hn⟩ := s.veto_state q
  refine ⟨n, ?_⟩
  unfold State.request
  rw [← hn]
  generalize s.veto q = v at *
  obtain ⟨w, t⟩ := v
  simp only at h
  subst h
  rfl

end

/-! ### Requests by register (R545) -/

/-- What the end of a state of SAFE comes to, or its refusal. -/
def State.exitSafe (t : State) : State :=
  match ((List.range 7).find? (bitAt t.causesLeft)).bind causeBlock with
  | some r => t.charge 3 2 0 r
  | none => t.leaveSafe

/-- What an admitted request starts. -/
def PwrReq.go (q : PwrReq) (t : State) : State :=
  match q with
  | .doze => t.startDrain .dozeEntry
  | .fold => t.startDrain .foldEntry
  | .warm => t.startDrain .warm
  | .safeIn => ((t.setOutcome 7 1 ⟨0, 0, none⟩).enterSafe 7).settle
  | .safeOut => t.exitSafe

/-- The role that a request needs (R545). -/
def PwrReq.role : PwrReq → Role
  | .doze => .operator | .fold => .operator | .warm => .installer | .safeIn => .installer | .safeOut => .installer

section
variable {s : State} {o : Origin} {q : PwrReq}

theorem exec_request (hp : s.powered = true) (hr : s.reaches o 2 = true) (h : s.holds o q.role = true) :
    ∃ u : State, s.Accessed u ∧ (q = .doze → exec (.modeReqDoze o) s = .next (u.request q q.go)) ∧ (q = .fold → exec (.modeReqFold o) s = .next (u.request q q.go))
      ∧ (q = .warm → exec (.warm o) s = .next (u.request q q.go)) ∧ (q = .safeIn → exec (.enter o) s = .next (u.request q q.go))
      ∧ (q = .safeOut → exec (.exit o) s = .next (u.request q q.go)) := by
  have hact (off v : Nat) (hm : s.meets o (needOf (rowsAt 2 off)) = true) : ∃ u : State, s.Accessed u
      ∧ s.regCmd o 2 off v true false id (fun t => t.request q q.go) = u.request q q.go := State.regCmd_acts hp hr hm rfl rfl
  have hoper : needOf (rowsAt 2 0x044) = .oper ∨ needOf (rowsAt 2 0x044) = .none := by decide
  cases q with
  | doze =>
    obtain ⟨u, hu, heq⟩ := hact 0x044 1 (State.meets_of_operator h hoper)
    exact ⟨u, hu, fun _ => congrArg Host.Outcome.next heq, nofun, nofun, nofun, nofun⟩
  | fold =>
    obtain ⟨u, hu, heq⟩ := hact 0x044 0 (State.meets_of_operator h hoper)
    exact ⟨u, hu, nofun, fun _ => congrArg Host.Outcome.next heq, nofun, nofun, nofun⟩
  | warm =>
    obtain ⟨u, hu, heq⟩ := hact 0x060 1 (State.meets_of_installer h _)
    exact ⟨u, hu, nofun, nofun, fun _ => congrArg Host.Outcome.next heq, nofun, nofun⟩
  | safeIn =>
    obtain ⟨u, hu, heq⟩ := hact 0x048 1 (State.meets_of_installer h _)
    exact ⟨u, hu, nofun, nofun, nofun, fun _ => congrArg Host.Outcome.next heq, nofun⟩
  | safeOut =>
    obtain ⟨u, hu, heq⟩ := hact 0x048 2 (State.meets_of_installer h _)
    exact ⟨u, hu, nofun, nofun, nofun, nofun, fun _ => congrArg Host.Outcome.next heq⟩

/-- What a veto and an access leave of a state that a request is judged in. -/
structure State.Judged (s t : State) : Prop where
  get : ∀ x, t.get x = s.get x
  time : t.time = s.time
  pwr : t.pwr = s.pwr
  take : t.take = s.take
  media : t.media = s.media
  frame : forget 0x800000A84 t = forget 0x800000A84 s

theorem State.Accessed.judged {u : State} (h : s.Accessed u) (n : Nat) : s.Judged { u with freeNext := n } where
  get := h.get
  time := (keeps_time (s := s) (t := u) h.1 rfl :)
  pwr := (keeps_pwr (s := s) (t := u) h.1 rfl :)
  take := (keeps_take (s := s) (t := u) h.1 rfl :)
  media := (keeps_media (s := s) (t := u) h.1 rfl :)
  frame := (rfl : forget 0x800000A84 { u with freeNext := n } = forget 0x800000A84 u).trans
    (widen (s := s) (t := u) 0x800000A84 rfl h.1)

theorem State.judged_of_freeNext (s : State) (n : Nat) : s.Judged { s with freeNext := n } := ⟨fun _ => rfl, rfl, rfl, rfl, rfl, rfl⟩

theorem State.Judged.mode {t : State} (h : s.Judged t) : t.mode = s.mode := h.get _

/-- A refused request shows who refuses it, and changes no mode. -/
theorem State.Judged.refused {t : State} (h : s.Judged t) (q : PwrReq) (f : Refuser) :
    (t.charge q.target 2 0 f).get R.PWR.LAST_OUTCOME_TARGET = q.target ∧ (t.charge q.target 2 0 f).get R.PWR.LAST_OUTCOME_OUTCOME = 2
    ∧ (t.charge q.target 2 0 f).get R.PWR.LAST_OUTCOME_BLOCK = f.block % 256 ∧ (t.charge q.target 2 0 f).get R.PWR.LAST_OUTCOME_INSTANCE = f.inst % 256
    ∧ (t.charge q.target 2 0 f).get R.PWR.LAST_FUNC_FUNC = f.func.getD 0 % 512 ∧ (t.charge q.target 2 0 f).get R.PWR.LAST_FUNC_IS_FUNC = b2n f.func.isSome
    ∧ (t.charge q.target 2 0 f).pwr.history = (histEntry s.time q.target s.mode 2 0 f :: s.pwr.history).take 64
    ∧ (t.charge q.target 2 0 f).get R.PWR.REFUSALS_COUNT = min (s.get R.PWR.REFUSALS_COUNT + 1) (2 ^ 32 - 1)
    ∧ (s.get (H.VALID 2) = 0 → (t.charge q.target 2 0 f).get (H.CODE 2) = E.PWR_ENTRY_REFUSED)
    ∧ (t.charge q.target 2 0 f).mode = s.mode ∧ (t.charge q.target 2 0 f).pwr.tran = s.pwr.tran ∧ (t.charge q.target 2 0 f).take = s.take
    ∧ (t.charge q.target 2 0 f).media = s.media := by
  have hq : q.target % 8 = q.target := by cases q <;> rfl
  have hget {x : Fld} (hx : 0x040 ≤ x.off) (h1 : x ≠ R.PWR.REFUSALS_COUNT) (h2 : x ≠ R.PWR.ABORTS_COUNT) := t.charge_get q.target 2 0 f (.inr hx) h1 h2
  obtain ⟨htarget, houtcome, hblock, hinst, hfunc, his⟩ := t.setOutcome_shows q.target 2 f
  refine ⟨?_, ?_, ?_, ?_, ?_, ?_, ?_, ?_, fun hv => ?_, ?_, ?_, ?_, ?_⟩
  · rw [hget (by decide) (by decide) (by decide), htarget, hq]
  · rw [hget (by decide) (by decide) (by decide), houtcome]
  · rw [hget (by decide) (by decide) (by decide), hblock]
  · rw [hget (by decide) (by decide) (by decide), hinst]
  · rw [hget (by decide) (by decide) (by decide), hfunc]
  · rw [hget (by decide) (by decide) (by decide), his]
  · rw [State.charge_pwr, ← h.time, ← h.mode, ← h.pwr]
    rfl
  · rw [State.charge_refusals, h.get]
  · exact State.charge_code _ _ _ _ (by rw [h.get, hv])
  · rw [State.charge_mode, h.mode]
  · rw [State.charge_pwr, ← h.pwr]
    rfl
  · rw [keeps_take (t.charge_frame ..) rfl, h.take]
  · rw [keeps_media (t.charge_frame ..) rfl, h.media]

/-- The state of a transition that drains, before the drain begins. -/
def State.drainStarted (s : State) (k : TranKind) : State := s.setPwr fun p => { p with tran := some ⟨k, 2, [], [], 0, false, false, 0⟩ }

section
variable (u : State) (k : TranKind)

theorem State.drainStarted_get (x : Fld) : (u.drainStarted k).get x = u.get x := rfl
theorem State.drainStarted_mode : (u.drainStarted k).mode = u.mode := rfl
theorem State.drainStarted_take : (u.drainStarted k).take = u.take := rfl
theorem State.drainStarted_media : (u.drainStarted k).media = u.media := rfl

end

theorem State.startDrain_eq (s : State) (k : TranKind) :
    s.startDrain k = if (s.drainStarted k).media.formatted then (s.drainStarted k).drainBuffer.startCkpt else s.drainStarted k := rfl

/-- The kind of transition that a request starts, where it starts one. -/
def PwrReq.tran : PwrReq → TranKind
  | .doze => .dozeEntry | .fold => .foldEntry | _ => .warm

theorem PwrReq.go_drains (hq : q = .doze ∨ q = .fold ∨ q = .warm) (t : State) : q.go t = t.startDrain q.tran := by
  rcases hq with rfl | rfl | rfl <;> rfl

/-- An admitted request starts its transition with the drain. -/
theorem State.Judged.started {t : State} (h : s.Judged t) (q : PwrReq) (k : TranKind) :
    ((t.setOutcome q.target 0 ⟨0, 0, none⟩).drainStarted k).pwr.tran = some ⟨k, 2, [], [], 0, false, false, 0⟩
    ∧ ((t.setOutcome q.target 0 ⟨0, 0, none⟩).drainStarted k).get R.PWR.LAST_OUTCOME_TARGET = q.target
    ∧ ((t.setOutcome q.target 0 ⟨0, 0, none⟩).drainStarted k).get R.PWR.LAST_OUTCOME_OUTCOME = 0
    ∧ ((t.setOutcome q.target 0 ⟨0, 0, none⟩).drainStarted k).mode = s.mode ∧ ((t.setOutcome q.target 0 ⟨0, 0, none⟩).drainStarted k).take = s.take
    ∧ ((t.setOutcome q.target 0 ⟨0, 0, none⟩).drainStarted k).media = s.media := by
  have hq : q.target % 8 = q.target := by cases q <;> rfl
  obtain ⟨htarget, houtcome, -⟩ := t.setOutcome_shows q.target 0 ⟨0, 0, none⟩
  refine ⟨rfl, ?_, ?_, ?_, ?_, ?_⟩
  · rw [State.drainStarted_get, htarget, hq]
  · rw [State.drainStarted_get, houtcome]
  · rw [State.drainStarted_mode, State.setOutcome_mode, h.mode]
  · rw [State.drainStarted_take, State.setOutcome_take, h.take]
  · rw [State.drainStarted_media, State.setOutcome_media, h.media]

end

/-! ### DOZE after a time of idleness -/

section
variable {s : State}

/-- The state in which DOZE_AFTER has run out. -/
def State.idledOut (s : State) : State := { s with time := max s.time (s.pwr.idleSince + s.get R.PWR.DOZE_AFTER_S * 1000000000) }

theorem exec_dozeAfterExpiry_eq (hn : s.get R.PWR.DOZE_AFTER_S ≠ 0) (hm : s.mode = 3) :
    exec .dozeAfterExpiry s = .next (s.idledOut.request .doze fun t => t.startDrain .dozeEntry) := by
  have hcond : ¬ (s.get R.PWR.DOZE_AFTER_S = 0 ∨ s.mode ≠ 3) := by
    rintro (h | h)
    · exact hn h
    · exact h hm
  have heq : exec .dozeAfterExpiry s = execDozeAfterExpiry s := rfl
  rw [heq, execDozeAfterExpiry]
  exact if_neg hcond

end

end Sys2Proof.Machine
end

section
/-!
The entry and the end of SAFE (R558, R559).
-/

namespace Sys2Proof.Machine

open Sys2Proof.Laws

/-! ### SAFE (R558, R559) -/

section
variable {s : State}

theorem State.setMode_mode (s : State) {m : Nat} (hm : m < 8) : (s.setMode m).mode = m := by
  unfold State.setMode
  dsimp only
  split
  next h => exact h
  next =>
    rw [State.mode, State.pulse_get_beyond_header _ _ _ (by decide), State.puts_cons, State.puts_cons, State.puts_nil, State.get_put_same]
    exact Nat.mod_eq_of_lt hm

/-- SAFE's causes and the mode, as registers that no end of a take touches. -/
def safeCause : SteadyFld := .reg R.PWR.SAFE_CAUSE_CAUSE rfl

/-- The mode, as such a register. -/
def modeFld : SteadyFld := .reg R.PWR.MODE_MODE rfl

theorem mode_of_steady {s t : State} (h : modeFld.get t = modeFld.get s) : t.mode = s.mode := h

theorem State.setMode_get_power (s : State) (m : Nat) {x : Fld} (hx : 0x040 ≤ x.off) (hne : x.off ≠ 0x040) : (s.setMode m).get x = s.get x := by
  unfold State.setMode
  dsimp only
  split
  · rfl
  · have h (y : Fld) (hy : y.off = 0x040) : x ≠ y := fun e => hne (e ▸ hy)
    rw [State.pulse_get_beyond_header _ _ _ hx, State.puts_cons, State.puts_cons, State.puts_nil, State.get_put_other _ _ (h _ rfl),
      State.get_put_other _ _ (h _ rfl)]
    rfl

/-- The entry of SAFE from a mode in service. -/
theorem State.enterSafe_enters {b : Nat} (hm : s.mode = 3 ∨ s.mode = 4 ∨ s.mode = 5 ∨ s.mode = 6) (h2 : 2 ≤ b) (h8 : b < 8) :
    (s.enterSafe b).mode = 7 ∧ bitAt ((s.enterSafe b).get R.PWR.SAFE_CAUSE_CAUSE) b = true ∧ bitAt ((s.enterSafe b).get (H.STICKY 2)) Ev.PWR.SAFE_ENTERED = true := by
  have heq : s.enterSafe b = (((((s.put R.PWR.SAFE_CAUSE_CAUSE (setBit (s.get R.PWR.SAFE_CAUSE_CAUSE) b true)).closeSafe).setMode 7).endPerturb .safe).pulse 2
      Ev.PWR.SAFE_ENTERED).record 2 E.PWR_SAFE_ENTERED (7 + s.mode * 256) := by
    unfold State.enterSafe
    dsimp only
    rw [if_neg (by omega), if_pos h2, if_neg (by omega)]
  have hcause : bitAt (s.put R.PWR.SAFE_CAUSE_CAUSE (setBit (s.get R.PWR.SAFE_CAUSE_CAUSE) b true) |>.get R.PWR.SAFE_CAUSE_CAUSE) b = true := by
    rw [State.get_put_same, bitAt_mod_two_pow _ (show b < R.PWR.SAFE_CAUSE_CAUSE.w from h8), bitAt_setBit_same]
  generalize hu : (s.put R.PWR.SAFE_CAUSE_CAUSE (setBit (s.get R.PWR.SAFE_CAUSE_CAUSE) b true)) = u at heq hcause
  have hsafe : u.closeSafe.get R.PWR.SAFE_CAUSE_CAUSE = u.get R.PWR.SAFE_CAUSE_CAUSE := State.steady_closeSafe (q := safeCause) u
  rw [heq]
  refine ⟨?_, ?_, ?_⟩
  · rw [State.mode, State.record_get_beyond _ _ _ _ _ _ _ rfl, State.pulse_get_beyond_header _ _ _ (by decide)]
    exact (State.steady_endPerturb (q := modeFld) _ _).trans (State.setMode_mode _ (by decide))
  · rw [State.record_get_beyond _ _ _ _ _ _ _ rfl, State.pulse_get_beyond_header _ _ _ (by decide)]
    rw [show (((u.closeSafe).setMode 7).endPerturb .safe).get R.PWR.SAFE_CAUSE_CAUSE = ((u.closeSafe).setMode 7).get R.PWR.SAFE_CAUSE_CAUSE from
      State.steady_endPerturb (q := safeCause) _ _, State.setMode_get_power _ _ (by decide) (by decide), hsafe]
    exact hcause
  · rw [State.record_sticky _ _ _ _ _ _ _ (by decide), State.pulse_sticky _ _ _ (by decide)]
    rfl

theorem State.follow_range (s : State) (h3 : 3 ≤ s.mode) (h7 : s.mode ≠ 7) : s.follow.mode ≠ 7 ∧ 3 ≤ s.follow.mode := by
  unfold State.follow
  rw [if_neg (by omega)]
  dsimp only
  have hrange (m : Nat) (hm : m = 3 ∨ m = 4 ∨ m = 5 ∨ m = 6) : (s.setMode m).mode ≠ 7 ∧ 3 ≤ (s.setMode m).mode := by
    rw [State.setMode_mode _ (by omega)]
    omega
  refine hrange _ ?_
  split_ifs <;> simp

theorem State.setMode_sticky (s : State) (m : Nat) {i : Nat} (hi : i < 32) (h : bitAt (s.get (H.STICKY 2)) i = true) :
    bitAt ((s.setMode m).get (H.STICKY 2)) i = true := by
  unfold State.setMode
  dsimp only
  split
  · exact h
  · refine State.pulse_sticky_of_set hi _ ?_
    rw [State.puts_cons, State.puts_cons, State.puts_nil, State.get_put_of_place _ _ rfl, State.get_put_of_place _ _ rfl]
    exact h

theorem State.follow_get_power (s : State) {x : Fld} (hx : 0x040 ≤ x.off) (hne : x.off ≠ 0x040) : s.follow.get x = s.get x := by
  unfold State.follow
  split
  · rfl
  · exact s.setMode_get_power _ hx hne

theorem State.follow_sticky (s : State) {i : Nat} (hi : i < 32) (h : bitAt (s.get (H.STICKY 2)) i = true) : bitAt (s.follow.get (H.STICKY 2)) i = true := by
  unfold State.follow
  split
  · exact h
  · exact s.setMode_sticky _ hi h

/-- The state whose causes of SAFE are gone, before the mode follows. -/
def State.causesGone (s : State) : State :=
  if bitAt (s.get R.PWR.SAFE_CAUSE_CAUSE) 0 then
    ((s.put R.PWR.SAFE_CAUSE_CAUSE 0).setOutcome 3 1 ⟨0, 0, none⟩).puts [(R.MEDIA.MEDIA_STATUS_READ_ONLY, 0), (R.MEDIA.MEDIA_STATUS_SAFE_CAUSE, 0)]
  else (s.put R.PWR.SAFE_CAUSE_CAUSE 0).setOutcome 3 1 ⟨0, 0, none⟩

theorem State.leaveSafe_eq (s : State) : s.leaveSafe = if s.causesGone.mode = 7 then ((s.causesGone.setMode 3).pulse 2 Ev.PWR.SAFE_EXITED).follow
    else s.causesGone := rfl

theorem State.causesGone_get (s : State) {x : Fld} (hx : x.page = 2) : s.causesGone.get x = ((s.put R.PWR.SAFE_CAUSE_CAUSE 0).setOutcome 3 1 ⟨0, 0, none⟩).get x := by
  unfold State.causesGone
  have hne (y : Fld) (hy : y.page ≠ 2) : x ≠ y := fun e => hy (e ▸ hx)
  split
  · rw [State.puts_cons, State.puts_cons, State.puts_nil, State.get_put_other _ _ (hne _ (by decide)), State.get_put_other _ _ (hne _ (by decide))]
  · rfl

theorem State.leaveSafe_leaves (s : State) : s.leaveSafe.get R.PWR.SAFE_CAUSE_CAUSE = 0 ∧ s.leaveSafe.get R.PWR.LAST_OUTCOME_OUTCOME = 1
    ∧ (s.mode = 7 → s.leaveSafe.mode ≠ 7 ∧ 3 ≤ s.leaveSafe.mode ∧ bitAt (s.leaveSafe.get (H.STICKY 2)) Ev.PWR.SAFE_EXITED = true) := by
  have hcause : s.causesGone.get R.PWR.SAFE_CAUSE_CAUSE = 0 := by
    rw [State.causesGone_get _ rfl, State.setOutcome_get _ _ _ _ (.inr ⟨by decide, by decide⟩), State.get_put_same]
    rfl
  have houtcome : s.causesGone.get R.PWR.LAST_OUTCOME_OUTCOME = 1 := by
    rw [State.causesGone_get _ rfl, (State.setOutcome_shows ..).2.1]
  have hmode : s.causesGone.mode = s.mode := by
    rw [State.mode, State.causesGone_get _ rfl, State.setOutcome_get _ _ _ _ (.inr ⟨by decide, by decide⟩), State.get_put_of_place _ _ rfl, State.mode]
  have hkeep {x : Fld} (hx : 0x040 ≤ x.off) (hne : x.off ≠ 0x040) : s.leaveSafe.get x = s.causesGone.get x := by
    rw [State.leaveSafe_eq]
    split
    · rw [State.follow_get_power _ hx hne, State.pulse_get_beyond_header _ _ _ hx, State.setMode_get_power _ _ hx hne]
    · rfl
  refine ⟨(hkeep (by decide) (by decide)).trans hcause, (hkeep (by decide) (by decide)).trans houtcome, fun h7 => ?_⟩
  have h3 : ((s.causesGone.setMode 3).pulse 2 Ev.PWR.SAFE_EXITED).mode = 3 := by
    rw [State.mode, State.pulse_get_beyond_header _ _ _ (by decide)]
    exact State.setMode_mode _ (by decide)
  rw [State.leaveSafe_eq, if_pos (hmode.trans h7)]
  obtain ⟨hne, hle⟩ := State.follow_range _ (by rw [h3]) (by rw [h3]; decide)
  refine ⟨hne, hle, State.follow_sticky _ (by decide) ?_⟩
  rw [State.pulse_sticky _ _ _ (by decide)]
  rfl

/-- The causes that stay are judged by media and registers alone. -/
theorem State.causesLeft_forget (s : State) : (forget 0x800000A84 s).causesLeft = s.causesLeft := rfl

theorem causeBlock_block {b : Nat} {f : Refuser} (h : causeBlock b = some f) : f.block < 256 := by
  unfold causeBlock at h
  obtain ⟨x, hx, rfl⟩ := Option.map_eq_some_iff.mp h
  have hall : ([(0, 0x30, 0), (1, 0x32, 0), (2, 0x18, 12), (3, 0x20, 0), (4, 0x58, 0), (5, 0x40, 4), (6, 0x38, 0)] : List (Nat × Nat × Nat)).all
      (fun x => decide (x.2.1 < 256)) = true := by decide
  simpa using List.all_eq_true.mp hall x (List.mem_of_find?_eq_some hx)

end

end Sys2Proof.Machine
end

section
/-!
DOZE: what is quieted, the voltage steps of an entry and of an exit, and the drain's end (R548, R549, R562, R563).
-/

namespace Sys2Proof.Machine

open Sys2Proof.Laws

/-! ### Quieting for DOZE (R548) -/

/-- A core that executes nothing. -/
def Core.Idle (k : Core) : Prop := k.state ≠ .running ∧ k.state ≠ .waiting

section
variable {s : State} {c d : Fin 72}

theorem State.parkCore_idle (s : State) (c : Fin 72) (p : Parker) : (s.parkCore c p).cores[c].Idle := by
  have hpulse (t : State) (k : Core) (b : Nat) (hk : k.Idle) : ((t.setCore c k).pulse (corePage c) b).cores[c].Idle := by
    rw [State.core_of_cores c (State.pulse_cores ..), State.setCore_core]
    exact hk
  have hparked (k : Core) (h : k.state = .parked) : k.Idle := by simp [Core.Idle, h]
  unfold State.parkCore
  dsimp only
  generalize (if s.cores[c].state = .running then s.caught c else s) = u
  split
  · exact hpulse _ _ _ (hparked _ rfl)
  · exact hpulse _ _ _ (hparked _ rfl)
  case h_3 h =>
    rw [State.setCore_core]
    exact hparked _ h
  all_goals
    rename_i h
    constructor <;> rw [h] <;> decide

theorem State.foldl_parkCore_idle (p : Parker) (cs : List (Fin 72)) (h : c ∈ cs ∨ s.cores[c].Idle) : (cs.foldl (fun t k => t.parkCore k p) s).cores[c].Idle := by
  induction cs generalizing s with
  | nil => exact h.resolve_left List.not_mem_nil
  | cons k cs ih =>
    by_cases hk : c = k
    · subst hk
      exact ih (.inr (State.parkCore_idle ..))
    · refine ih ?_
      rw [State.parkCore_core_other p hk]
      exact h.imp (fun hc => (List.mem_cons.mp hc).resolve_left hk) id

/-- A state of a DRAM channel, as a steady register. -/
def dramFld (d : Nat) : SteadyFld := .reg (R.DRAM.CH_STATUS_STATE d) (by simp [steady, R.DRAM.CH_STATUS_STATE, Nat.ble_eq])

theorem dramFld_still (d : Nat) : (dramFld d).still = true := by
  simp [SteadyFld.still, dramFld, R.DRAM.CH_STATUS_STATE]
  omega

theorem dramState_of_steady {s t : State} {d : Nat} (h : (dramFld d).get t = (dramFld d).get s) : t.dramState d = s.dramState d := h

theorem State.dramState_put_other {a b : Nat} (h : a ≠ b) (s : State) (v : Nat) : (s.put (R.DRAM.CH_STATUS_STATE a) v).dramState b = s.dramState b :=
  State.get_put_other _ _ fun e => h (Nat.add_left_cancel (congrArg Fld.page e)).symm

theorem State.dramState_put_same (a : Nat) (s : State) (v : Nat) : (s.put (R.DRAM.CH_STATUS_STATE a) v).dramState a = v % 8 := State.get_put_same ..

/-- Channels in use become those of DOZE. -/
def State.dramDozed (s : State) (l : List Nat) : State := l.foldl (fun t c => if t.dramState c = 2 then t.put (R.DRAM.CH_STATUS_STATE c) 3 else t) s

theorem State.dramDozed_ne (l : List Nat) {a : Nat} (h : a ∈ l ∨ s.dramState a ≠ 2) : (s.dramDozed l).dramState a ≠ 2 := by
  induction l generalizing s with
  | nil => exact h.resolve_left List.not_mem_nil
  | cons b l ih =>
    refine ih ?_
    by_cases hab : b = a
    · subst hab
      right
      dsimp only
      split
      · rw [State.dramState_put_same]
        decide
      · assumption
    · refine h.imp (fun hm => (List.mem_cons.mp hm).resolve_left (Ne.symm hab)) fun hn => ?_
      dsimp only
      split
      · rw [State.dramState_put_other hab]
        exact hn
      · exact hn

/-- The Gate's link down and not to be trained. -/
def State.gateQuiet (t : State) : State :=
  ((if t.gateActive || t.gateRetrain then t.linkReset else t).put R.GATE.LINK_STATUS_LTSSM 0).setGate fun g => { g with mayTrain := false, failedAt := none }

/-- The Drove links down. -/
def State.droveQuiet (t : State) : State :=
  let u := t.puts [(R.DROVE.LINK_A_UP, 0), (R.DROVE.LINK_B_UP, 0), (R.DROVE.SET_STATUS_QUORUM, 0), (R.DROVE.SET_STATUS_LIVE, 1)]
  { u with drove := { u.drove with a := DroveLink.down, b := DroveLink.down, live := [], quorum := false } }

theorem State.quiesce_eq (s : State) :
    s.quiesce = ((((s.eachCore fun t c => t.parkCore c .doze).dramDozed (List.range 4)).put R.CLK.DOMAINS_RUNNING 0x10).gateQuiet).droveQuiet := by
  unfold State.quiesce State.droveQuiet State.gateQuiet State.dramDozed
  rfl

theorem State.steady_gateQuiet {q : SteadyFld} (t : State) : q.get t.gateQuiet = q.get t := by
  unfold State.gateQuiet
  rw [State.steady_setGate, State.steady_put _ rfl]
  split
  · exact State.steady_linkReset t
  · rfl

theorem State.steady_droveQuiet {q : SteadyFld} (t : State) : q.get t.droveQuiet = q.get t := by
  unfold State.droveQuiet
  exact (steady_of_forget (forget_set_drove rfl ..)).trans (State.steady_puts t rfl)

theorem State.droveQuiet_links (t : State) : t.droveQuiet.get R.DROVE.LINK_A_UP = 0 ∧ t.droveQuiet.get R.DROVE.LINK_B_UP = 0 := by
  have hget (x : Fld) : t.droveQuiet.get x
      = ((((t.put R.DROVE.LINK_A_UP 0).put R.DROVE.LINK_B_UP 0).put R.DROVE.SET_STATUS_QUORUM 0).put R.DROVE.SET_STATUS_LIVE 1).get x := rfl
  constructor
  · rw [hget, State.get_put_of_place _ _ rfl, State.get_put_of_place _ _ rfl, State.get_put_of_place _ _ rfl, State.get_put_same]
    rfl
  · rw [hget, State.get_put_of_place _ _ rfl, State.get_put_of_place _ _ rfl, State.get_put_same]
    rfl

theorem State.droveQuiet_gate (t : State) : t.droveQuiet.gate = t.gate := rfl

theorem State.droveQuiet_cores (t : State) : t.droveQuiet.cores = t.cores := rfl

theorem State.gateQuiet_mayTrain (t : State) : t.gateQuiet.gate.mayTrain = false := rfl

theorem State.gateQuiet_cores (t : State) : t.gateQuiet.cores = t.cores := by
  unfold State.gateQuiet
  split
  · exact keeps_cores (State.forget_linkReset (T := 0xc80001820) rfl t) rfl
  · rfl

theorem State.dramDozed_frame (s : State) (l : List Nat) : forget 0x20 (s.dramDozed l) = forget 0x20 s :=
  foldl_frame _ _ (fun t c => by
    split
    · exact State.forget_put rfl ..
    · rfl) _ _

theorem State.quiesce_spec (s : State) : s.quiesce.get R.CLK.DOMAINS_RUNNING = 0x10 ∧ s.quiesce.get R.DROVE.LINK_A_UP = 0 ∧ s.quiesce.get R.DROVE.LINK_B_UP = 0
    ∧ s.quiesce.gate.mayTrain = false ∧ (∀ c : Fin 72, s.quiesce.cores[c].Idle) ∧ ∀ d < 4, s.quiesce.dramState d ≠ 2 := by
  rw [State.quiesce_eq]
  refine ⟨?_, (State.droveQuiet_links _).1, (State.droveQuiet_links _).2, ?_, fun c => ?_, fun d hd => ?_⟩
  · rw [get_of_steady rfl ((State.steady_droveQuiet _).trans (State.steady_gateQuiet _)), State.get_put_same]
    rfl
  · rw [State.droveQuiet_gate, State.gateQuiet_mayTrain]
  · have hcores : ((s.eachCore fun t c => t.parkCore c .doze).dramDozed (List.range 4)).cores = (s.eachCore fun t c => t.parkCore c .doze).cores :=
      keeps_cores (State.dramDozed_frame ..) rfl
    rw [State.droveQuiet_cores, State.gateQuiet_cores, State.put_cores, hcores]
    exact State.foldl_parkCore_idle .doze _ (.inl (List.mem_finRange c))
  · have hne : R.DRAM.CH_STATUS_STATE d ≠ R.CLK.DOMAINS_RUNNING := fun e => by
      have hpage : 0xA0 + d = 1 := congrArg Fld.page e
      omega
    have hkeep : ∀ u : State, (u.put R.CLK.DOMAINS_RUNNING 0x10).gateQuiet.droveQuiet.dramState d = u.dramState d := fun u =>
      (dramState_of_steady ((State.steady_droveQuiet _).trans (State.steady_gateQuiet _))).trans (State.get_put_other _ _ hne)
    rw [hkeep]
    exact State.dramDozed_ne _ (.inl (List.mem_range.mpr hd))

end

end Sys2Proof.Machine
end

section
/-!
The start of a boot: what it leaves in the registers of pages that OTP does not fill (R528, R570, R571).
-/

namespace Sys2Proof.Machine

open Sys2Proof.Laws

/-- The pages that OTP's contents and the layout are shown in. -/
def otpPages : List Nat := [0x00, 0x03, 0x05, 0x10, 0x2B, 0x60, 0x62, 0xC0]

section
variable {s : State} {x : Fld}

theorem State.put_get_off_pages {ps : List Nat} (hx : ps.contains x.page = false) {y : Fld} (hy : ps.contains y.page = true) (s : State) (v : Nat) :
    (s.put y v).get x = s.get x :=
  State.get_put_other _ _ fun e => by
    rw [e, hy] at hx
    cases hx

theorem State.puts_get_off_pages {ps : List Nat} (hx : ps.contains x.page = false) {l : List (Fld × Nat)} (h : l.all (fun p => ps.contains p.1.page) = true) (s : State) :
    (s.puts l).get x = s.get x :=
  State.puts_get_other fun p hp e => by
    have hin := List.all_eq_true.mp h p hp
    rw [e, hx] at hin
    cases hin

theorem State.mirrorOtp_get (hx : otpPages.contains x.page = false) (s : State) : s.mirrorOtp.get x = s.get x := by
  unfold State.mirrorOtp State.showOtp
  dsimp only
  rw [State.puts_get_off_pages hx rfl, State.puts_get_off_pages hx rfl]
  exact foldl_keeps (fun t : State => t.get x) (fun t i => State.put_get_off_pages hx rfl ..) _ _

theorem State.loadSlots_get (hx : otpPages.contains x.page = false) (s : State) : s.loadSlots.get x = s.get x := by
  unfold State.loadSlots
  dsimp only
  rw [State.put_get_off_pages hx rfl]
  exact foldl_keeps (fun t : State => t.get x) (fun t i => State.puts_get_off_pages hx rfl _) _ _

theorem State.takeOtp_get (hx : otpPages.contains x.page = false) (s : State) : s.takeOtp.get x = s.get x := State.loadSlots_get hx _

theorem State.layoutBack_get (hx : otpPages.contains x.page = false) (s : State) : s.layoutBack.get x = s.get x := by
  unfold State.layoutBack
  split
  · rfl
  · exact State.put_get_off_pages hx rfl ..

/-- A boot's accounts. -/
def State.bootBegun (s : State) (cold : Bool) : State :=
  s.setDtime.setPwr fun p => { p with bootPhase := 1, bootAt := s.setDtime.time, modeSince := s.setDtime.time, colds := if cold then p.colds + 1 else p.colds,
                                      idleSince := s.setDtime.time, railsOff := false, residenceOver := false }

/-- The state of a boot with OTP's contents taken, where it is a cold one. -/
def State.bootOtp (s : State) (cold : Bool) : State := if cold then (s.bootBegun cold).takeOtp else s.bootBegun cold

theorem State.startBoot_eq (s : State) (cold : Bool) (cause : Nat) :
    s.startBoot cold cause = ((s.bootOtp cold).mirrorOtp.puts [(R.PWR.RESET_CAUSE_CAUSE, cause),
      (R.PWR.WAKE_CAUSE_SOURCES, if cause = 2 then (s.bootOtp cold).pwr.wakes else 0), (R.CLK.ROOT_STATUS_REF_PRESENT, 1)]).layoutBack := by
  unfold State.startBoot State.bootOtp State.bootBegun
  rfl

theorem State.bootBegun_get (s : State) (cold : Bool) (x : Fld) : (s.bootBegun cold).get x = s.get x :=
  State.get_of_regs (by rw [State.bootBegun, State.setPwr_regs, State.setDtime]) x

theorem State.bootOtp_get (hx : otpPages.contains x.page = false) (s : State) (cold : Bool) : (s.bootOtp cold).get x = s.get x := by
  unfold State.bootOtp
  split
  · rw [State.takeOtp_get hx, State.bootBegun_get]
  · rw [State.bootBegun_get]

theorem State.startBoot_get (hx : otpPages.contains x.page = false) (h1 : x ≠ R.PWR.RESET_CAUSE_CAUSE) (h2 : x ≠ R.PWR.WAKE_CAUSE_SOURCES)
    (h3 : x ≠ R.CLK.ROOT_STATUS_REF_PRESENT) (s : State) (cold : Bool) (cause : Nat) : (s.startBoot cold cause).get x = s.get x := by
  rw [State.startBoot_eq, State.layoutBack_get hx, State.puts_cons, State.puts_cons, State.puts_cons, State.puts_nil, State.get_put_other _ _ h3,
    State.get_put_other _ _ h2, State.get_put_other _ _ h1, State.mirrorOtp_get hx, State.bootOtp_get hx]

theorem State.startBoot_cause (s : State) (cold : Bool) (cause : Nat) : (s.startBoot cold cause).get R.PWR.RESET_CAUSE_CAUSE = cause % 16 := by
  rw [State.startBoot_eq, State.layoutBack_get rfl, State.puts_cons, State.puts_cons, State.puts_cons, State.puts_nil, State.get_put_of_place _ _ rfl,
    State.get_put_of_place _ _ rfl, State.get_put_same]
  rfl

theorem State.startBoot_pwr (s : State) (cold : Bool) (cause : Nat) : (s.startBoot cold cause).pwr = (s.bootBegun cold).pwr := by
  rw [State.startBoot_eq]
  have htail (t : State) (l : List (Fld × Nat)) : (t.mirrorOtp.puts l).layoutBack.pwr = t.pwr := by
    refine (keeps_pwr (State.forget_layoutBack (T := 0x20) rfl _) rfl).trans ?_
    exact (keeps_pwr (State.forget_puts (T := 0x20) rfl ..) rfl).trans (keeps_pwr (State.forget_mirrorOtp (T := 0x20) rfl t) rfl)
  rw [htail]
  unfold State.bootOtp
  split
  · exact keeps_pwr (State.forget_takeOtp (T := 0x820) rfl _) rfl
  · rfl

end

end Sys2Proof.Machine
end

section
/-!
The transitions to DOZE, FOLD and a warm reset, and the regulators' steps (R548, R549, R556, R562, R563).
-/

namespace Sys2Proof.Machine

open Sys2Proof.Laws

/-! ### The mode set and its accounts -/

section
variable {s : State} {x : Tran}

theorem State.setMode_pwr (s : State) (m : Nat) : ∃ a t i, (s.setMode m).pwr = { s.pwr with acct := a, modeSince := t, idleSince := i } := by
  unfold State.setMode
  dsimp only
  split
  · exact ⟨_, _, _, rfl⟩
  · rw [State.pulse_pwr, keeps_pwr (State.forget_puts (T := 0x20) rfl ..) rfl]
    exact ⟨_, _, _, rfl⟩

/-- A move to the mode of DOZE (R549). -/
theorem State.dozeEntered_spec (s : State) :
    ∃ t : State, s.dozeEntered = (if s.pwr.wakes = 0 then t else t.startDozeExit) ∧ t.mode = 1 ∧ t.pwr.tran = none ∧ t.get R.PWR.LAST_OUTCOME_OUTCOME = 1
      ∧ t.pwr.wakes = s.pwr.wakes := by
  obtain ⟨a, b, c, hpwr⟩ := ((s.setPwr fun p => { p with tran := none }).setOutcome 1 1 ⟨0, 0, none⟩).setMode_pwr 1
  rw [State.setOutcome_pwr] at hpwr
  refine ⟨((s.setPwr fun p => { p with tran := none }).setOutcome 1 1 ⟨0, 0, none⟩).setMode 1, ?_, State.setMode_mode _ (by decide), ?_, ?_, ?_⟩
  · have heq : s.dozeEntered = if (((s.setPwr fun p => { p with tran := none }).setOutcome 1 1 ⟨0, 0, none⟩).setMode 1).pwr.wakes = 0
        then ((s.setPwr fun p => { p with tran := none }).setOutcome 1 1 ⟨0, 0, none⟩).setMode 1
        else (((s.setPwr fun p => { p with tran := none }).setOutcome 1 1 ⟨0, 0, none⟩).setMode 1).startDozeExit := rfl
    rw [heq, hpwr]
    rfl
  · rw [hpwr]
    rfl
  · rw [State.setMode_get_power _ _ (by decide) (by decide), (State.setOutcome_shows ..).2.1]
  · rw [hpwr]
    rfl

/-! ### The end of the drain (R548) -/

/-- The drain is over: what it was to write is in flash. -/
def State.Ready (s : State) : Prop := s.media.formatted = false ∨ (s.drained = true ∧ s.bit R.MEDIA.MEDIA_STATUS_CKPT_BUSY = false ∧ (s.offline = true ∨ s.covered = true))

/-- What the end of the drain comes to. -/
def State.drainOver (s : State) (x : Tran) : Out :=
  match x.kind with
  | .dozeEntry =>
    let t := s.quiesce.setPwr fun p => { p with tran := some { x with phase := 4, steps := s.dozeSteps }, wakes := 0, setSteps := [] }
    .next (if s.dozeSteps.isEmpty then t.dozeEntered else t)
  | .foldEntry => .next ((s.setOutcome 0 1 ⟨0, 0, none⟩).enterFold true false)
  | .warm => .next ((s.setOutcome 2 1 ⟨0, 0, none⟩).warmReset 3 true)
  | .dozeExit => .next s

theorem exec_dozeDrainDone (hx : s.pwr.tran = some x) (h2 : x.phase = 2) (hk : x.kind ≠ .dozeExit)
    (hr : s.media.formatted = false ∨ s.drained = true ∧ s.bit R.MEDIA.MEDIA_STATUS_CKPT_BUSY = false) :
    exec .dozeDrainDone s = if (s.media.formatted && !s.offline && !s.covered) = true then .next s.startCkpt else s.drainOver x := by
  have hready : (!s.media.formatted || (s.drained && !s.bit R.MEDIA.MEDIA_STATUS_CKPT_BUSY)) = true := by
    rcases hr with h | ⟨h, hb⟩
    · simp [h]
    · simp [h, hb]
  have hnot : ¬ (x.phase ≠ 2 ∨ x.kind = .dozeExit ∨ (!(!s.media.formatted || (s.drained && !s.bit R.MEDIA.MEDIA_STATUS_CKPT_BUSY))) = true) := by
    rw [hready]
    rintro (h | h | h)
    · exact h h2
    · exact hk h
    · cases h
  have heq : exec .dozeDrainDone s = execDozeDrainDone s := rfl
  rw [heq, execDozeDrainDone, hx]
  exact if_neg hnot

theorem State.Ready.drained_or (h : s.Ready) : s.media.formatted = false ∨ s.drained = true ∧ s.bit R.MEDIA.MEDIA_STATUS_CKPT_BUSY = false :=
  h.imp id fun ⟨hd, hb, _⟩ => ⟨hd, hb⟩

theorem exec_dozeDrainDone_ready (hx : s.pwr.tran = some x) (h2 : x.phase = 2) (hk : x.kind ≠ .dozeExit) (hr : s.Ready) :
    exec .dozeDrainDone s = s.drainOver x := by
  rw [exec_dozeDrainDone hx h2 hk hr.drained_or]
  refine if_neg ?_
  rcases hr with h | ⟨-, -, h | h⟩ <;> simp [h]

theorem exec_dozeDrainDone_uncovered (hx : s.pwr.tran = some x) (h2 : x.phase = 2) (hk : x.kind ≠ .dozeExit) (hf : s.media.formatted = true)
    (hd : s.drained = true) (hb : s.bit R.MEDIA.MEDIA_STATUS_CKPT_BUSY = false) (ho : s.offline = false) (hc : s.covered = false) :
    exec .dozeDrainDone s = .next s.startCkpt := by
  rw [exec_dozeDrainDone hx h2 hk (.inr ⟨hd, hb⟩)]
  exact if_pos (by simp [hf, ho, hc])

theorem drainDone_dozes (hx : s.pwr.tran = some x) (h2 : x.phase = 2) (hr : s.Ready) (hk : x.kind = .dozeEntry) :
    ∃ t : State, t.pwr.tran = some { x with phase := 4, steps := s.dozeSteps } ∧ t.get R.CLK.DOMAINS_RUNNING = 0x10 ∧ t.get R.DROVE.LINK_A_UP = 0 ∧ t.get R.DROVE.LINK_B_UP = 0
      ∧ t.gate.mayTrain = false ∧ (∀ c : Fin 72, t.cores[c].state ≠ .running ∧ t.cores[c].state ≠ .waiting) ∧ (∀ d < 4, t.dramState d ≠ 2)
      ∧ exec .dozeDrainDone s = .next (if s.dozeSteps = [] then t.dozeEntered else t) := by
  obtain ⟨hclk, ha, hb, htrain, hcores, hdram⟩ := s.quiesce_spec
  refine ⟨s.quiesce.setPwr fun p => { p with tran := some { x with phase := 4, steps := s.dozeSteps }, wakes := 0, setSteps := [] }, ?_, ?_, ?_, ?_, ?_, ?_, ?_, ?_⟩
  · rw [State.setPwr]
  · rw [State.setPwr_get, hclk]
  · rw [State.setPwr_get, ha]
  · rw [State.setPwr_get, hb]
  · rw [State.setPwr_gate, htrain]
  · rw [State.setPwr_cores]
    exact hcores
  · intro d hd
    rw [State.dramState, State.setPwr_get]
    exact hdram d hd
  · rw [exec_dozeDrainDone_ready hx h2 (by rw [hk]; decide) hr, State.drainOver, hk]
    simp only [List.isEmpty_iff]

/-! ### Voltage steps and their acknowledgement (R556, R562) -/

variable {slot : Fin 8} {v : VStep} {rest : List VStep}

theorem State.slotFault_bit (s : State) {n : Nat} (hn : n < 8) (b : Bool) : bitAt ((s.slotFault n b).get R.VREG.LINK_STATUS_FAULTED) n = b := by
  rw [State.slotFault, State.get_put_same, bitAt_mod_two_pow _ (show n < R.VREG.LINK_STATUS_FAULTED.w from hn), bitAt_setBit_same]

theorem State.slotFailed_bit (s : State) {n : Nat} (hn : n < 8) : bitAt ((s.slotFailed n).get R.VREG.LINK_STATUS_FAULTED) n = true := by
  rw [State.slotFailed, State.record_get_beyond _ _ _ _ _ _ _ rfl, State.pulse_get_beyond_header _ _ _ (by decide), State.slotFault_bit _ hn]

theorem State.slotFailed_pwr (s : State) (n : Nat) : (s.slotFailed n).pwr = s.pwr := by
  rw [State.slotFailed, State.record_pwr, State.pulse_pwr, State.slotFault, State.put_pwr]

/-- The transition after a step that was acknowledged. -/
def Tran.acked (x : Tran) (v : VStep) (rest : List VStep) : Tran :=
  { x with steps := rest, attempts := 0, doneSteps := if x.reversing then x.doneSteps else v :: x.doneSteps }

theorem exec_vregStepAck (hx : s.pwr.tran = some x) (hs : x.steps = v :: rest) (hv : v.slot = slot.val) (h0 : x.retryAt = 0) :
    exec (.vregStepAck slot) s = .next (if rest = [] then ((s.slotFault slot.val false).setPwr fun p => { p with tran := some (x.acked v rest) }).stepsDone (x.acked v rest)
      else (s.slotFault slot.val false).setPwr fun p => { p with tran := some (x.acked v rest) }) := by
  have hnot : ¬ (v.slot ≠ slot.val ∨ x.retryAt ≠ 0) := by simp [hv, h0]
  have heq : exec (.vregStepAck slot) s = execVregStepAck slot s := rfl
  rw [heq, execVregStepAck]
  simp only [hx, hs]
  rw [if_neg hnot]
  simp only [List.isEmpty_iff]
  rfl

theorem exec_vregStepTimeout (hx : s.pwr.tran = some x) (hs : x.steps = v :: rest) (hv : v.slot = slot.val) (h0 : x.retryAt = 0) :
    exec (.vregStepTimeout slot) s = if x.attempts < 2
      then .next ((s.bump R.VREG.NO_ACK_COUNT_COUNT).setPwr fun p => { p with tran := some { x with attempts := x.attempts + 1 } })
      else .next ((s.bump R.VREG.NO_ACK_COUNT_COUNT).tranFailed x slot.val) := by
  have hnot : ¬ (v.slot ≠ slot.val ∨ x.retryAt ≠ 0) := by simp [hv, h0]
  have heq : exec (.vregStepTimeout slot) s = execVregStepTimeout slot s := rfl
  rw [heq, execVregStepTimeout]
  simp only [hx, hs]
  rw [if_neg hnot]

theorem vregStep_transition (hx : s.pwr.tran = some x) (hs : x.steps = v :: rest) (hv : v.slot = slot.val) (h0 : x.retryAt = 0) :
    (∃ (t : State) (y : Tran), exec (.vregStepAck slot) s = .next (if rest = [] then t.stepsDone y else t)
      ∧ y = { x with steps := rest, attempts := 0, doneSteps := if x.reversing then x.doneSteps else v :: x.doneSteps }
      ∧ t.pwr.tran = some y ∧ bitAt (t.get R.VREG.LINK_STATUS_FAULTED) slot.val = false)
    ∧ (x.attempts < 2 →
      ∃ t : State, exec (.vregStepTimeout slot) s = .next t ∧ t.pwr.tran = some { x with attempts := x.attempts + 1 }
        ∧ t.get R.VREG.NO_ACK_COUNT_COUNT = min (s.get R.VREG.NO_ACK_COUNT_COUNT + 1) (2 ^ 32 - 1))
    ∧ (2 ≤ x.attempts →
      ∃ t : State, exec (.vregStepTimeout slot) s = .next (t.tranFailed x slot.val) ∧ t.pwr = s.pwr
        ∧ t.get R.VREG.NO_ACK_COUNT_COUNT = min (s.get R.VREG.NO_ACK_COUNT_COUNT + 1) (2 ^ 32 - 1)) := by
  refine ⟨⟨_, _, exec_vregStepAck hx hs hv h0, rfl, rfl, State.slotFault_bit s slot.isLt false⟩, fun h2 => ?_, fun h2 => ?_⟩
  · exact ⟨_, (exec_vregStepTimeout hx hs hv h0).trans (if_pos h2), rfl, State.get_bump_same ..⟩
  · exact ⟨_, (exec_vregStepTimeout hx hs hv h0).trans (if_neg (by omega)), State.bump_pwr .., State.get_bump_same ..⟩

/-! ### A transition whose step failed three times (R562, R563) -/

variable {n : Nat}

/-- The transition that steps back. -/
def Tran.back (x : Tran) (back : List VStep) : Tran := { x with reversing := true, steps := back, doneSteps := [], attempts := 0 }

theorem State.tranFailed_aborts (hk : x.kind = .dozeEntry) (hr : x.reversing = false) (s : State) (n : Nat) :
    s.tranFailed x n = (let y := x.back (stepsBack (fun m => s.get (R.VREG.VOUT_SET_MV m)) x.doneSteps)
      let u := ((s.slotFailed n).charge 1 3 4 ⟨4, n, none⟩).setPwr fun p => { p with tran := some y }
      if y.steps = [] then u.stepsDone y else u) := by
  rw [State.tranFailed, if_pos ⟨hk, by simp [hr]⟩]
  simp only [List.isEmpty_iff]
  rfl

theorem State.tranFailed_retries (hk : x.kind = .dozeExit) (hr : x.retried = false) (s : State) (n : Nat) :
    s.tranFailed x n = (s.slotFailed n).setPwr fun p => { p with tran := some { x with attempts := 0, retried := true, retryAt := s.time + 10000000 } } := by
  rw [State.tranFailed, if_neg (by simp [hk]), if_neg (by simp [hr])]

theorem State.tranFailed_folds (hk : x.kind = .dozeExit) (hr : x.retried = true) (s : State) (n : Nat) :
    s.tranFailed x n = (s.slotFailed n).enterFold true true := by
  rw [State.tranFailed, if_neg (by simp [hk]), if_pos hr]

/-- Another page's register is the same after a failed slot is recorded. -/
theorem State.slotFailed_get (s : State) (n : Nat) {y : Fld} (hy : y.page ≠ 3) : (s.slotFailed n).get y = s.get y := by
  rw [State.slotFailed, State.record_get_of_page _ hy, State.pulse_get_of_page _ hy, State.slotFault]
  exact State.get_put_other _ _ fun e => hy (congrArg Fld.page e)

theorem State.slotFailed_recorded (hv : s.get (H.VALID 3) = 0) (hn : n < 8) :
    (s.slotFailed n).get (H.CODE 3) = E.VREG_NO_ACK ∧ (s.slotFailed n).get (H.INFO 3) = n := by
  have hvalid : ((s.slotFault n true).pulse 3 Ev.VREG.NO_ACK).get (H.VALID 3) = 0 := by
    rw [State.pulse_get_other _ _ _ (by decide) (by decide), State.slotFault, State.get_put_other _ _ (by decide), hv]
  rw [State.slotFailed]
  refine ⟨State.record_get_CODE hvalid .., ?_⟩
  rw [State.record_get_first hvalid _ _ _ _ _ (by decide), State.get_bump_other _ _ (by decide), State.get_bump_other _ _ (by decide),
    State.get_put_other _ _ (by decide), State.get_put_same]
  exact Nat.mod_eq_of_lt (show n < 2 ^ 32 by omega)

end

end Sys2Proof.Machine
end

section
/-!
Wake sources, the end of DOZE and of FOLD, and what the regulators report (R552, R557, R562, R563, R568).
-/

namespace Sys2Proof.Machine

open Sys2Proof.Laws

/-! ### Steps of the set points -/

section
variable {s : State} {x : Tran} {slot : Fin 8} {v : VStep} {rest : List VStep}

theorem vregStep_setPoint (hn : s.pwr.tran = none) (hs : s.pwr.setSteps = v :: rest) (hv : v.slot = slot.val) :
    (∃ t : State, exec (.vregStepAck slot) s = .next t ∧ t.pwr.setSteps = rest ∧ bitAt (t.get R.VREG.LINK_STATUS_FAULTED) slot.val = false)
    ∧ (s.pwr.setTries < 2 → ∃ t : State, exec (.vregStepTimeout slot) s = .next t ∧ t.pwr.setSteps = s.pwr.setSteps ∧ t.pwr.setTries = s.pwr.setTries + 1)
    ∧ (2 ≤ s.pwr.setTries → ∃ t : State, exec (.vregStepTimeout slot) s = .next t ∧ (∀ w ∈ t.pwr.setSteps, w.slot ≠ slot.val)
      ∧ bitAt (t.get R.VREG.LINK_STATUS_FAULTED) slot.val = true) := by
  have hack : exec (.vregStepAck slot) s = .next ((s.slotFault slot.val false).setPwr fun p => { p with setSteps := rest, setTries := 0 }) := by
    have heq : exec (.vregStepAck slot) s = execVregStepAck slot s := rfl
    rw [heq, execVregStepAck]
    simp only [hn, hs]
    exact if_pos hv
  have htimeout : exec (.vregStepTimeout slot) s = if s.pwr.setTries < 2
      then .next ((s.bump R.VREG.NO_ACK_COUNT_COUNT).setPwr fun p => { p with setTries := p.setTries + 1 })
      else .next (((s.bump R.VREG.NO_ACK_COUNT_COUNT).slotFailed slot.val).setPwr fun p =>
        { p with setSteps := p.setSteps.filter (·.slot != slot.val), setTries := 0 }) := by
    have heq : exec (.vregStepTimeout slot) s = execVregStepTimeout slot s := rfl
    rw [heq, execVregStepTimeout]
    simp only [hn, hs]
    exact if_neg (not_not_intro hv)
  refine ⟨⟨_, hack, rfl, State.slotFault_bit s slot.isLt false⟩, fun h => ⟨_, htimeout.trans (if_pos h), rfl, rfl⟩, fun h => ?_⟩
  refine ⟨_, htimeout.trans (if_neg (by omega)), fun w hw => ?_, State.slotFailed_bit _ slot.isLt⟩
  simpa using (List.mem_filter.mp hw).2

/-! ### Wake sources (R552) -/

/-- A wake source noted. -/
def State.noteWake (s : State) (src : Nat) : State := s.setPwr fun p => { p with wakes := setBit p.wakes src true }

/-- The supply that the second wake source brings. -/
def State.wakeSupplied (s : State) (src : Nat) : State := if src = 1 ∧ (!s.pwr.dead) = true then s.setPwr fun p => { p with mainOk := true, pfHigh := true } else s

theorem exec_wakeSource (src : Fin 6) (s : State) : exec (.wakeSource src) s = .next ((s.wakeSupplied src.val).wakeUp src.val) := rfl

theorem State.wakeSupplied_regs (s : State) (src : Nat) : (s.wakeSupplied src).regs = s.regs := by
  unfold State.wakeSupplied
  split <;> rfl

theorem State.wakeSupplied_time (s : State) (src : Nat) : (s.wakeSupplied src).time = s.time := by
  unfold State.wakeSupplied
  split <;> rfl

theorem State.wakeSupplied_mode (s : State) (src : Nat) : (s.wakeSupplied src).mode = s.mode := State.get_of_regs (s.wakeSupplied_regs src) _

theorem State.wakeSupplied_pwr (s : State) (src : Nat) : ∃ m p, (s.wakeSupplied src).pwr = { s.pwr with mainOk := m, pfHigh := p } ∧ (s.pwr.mainOk = true → m = true)
    ∧ (s.pwr.pfHigh = true → p = true) := by
  unfold State.wakeSupplied
  split
  · exact ⟨true, true, rfl, fun _ => rfl, fun _ => rfl⟩
  · exact ⟨_, _, rfl, id, id⟩

theorem setBit_true_ne_zero (w i : Nat) : setBit w i true ≠ 0 := fun h => by
  have hbit := bitAt_setBit_same w i true
  rw [h, bitAt, Nat.zero_div] at hbit
  cases hbit

/-- A wake source in FOLD. -/
theorem State.wakeUp_fold {src : Nat} (hm : s.mode = 0) (hs : src ≤ 2) : s.wakeUp src = (s.noteWake src).tryWake := by
  rw [State.wakeUp, if_pos hm, if_pos hs]
  rfl

/-- A wake source in DOZE. -/
theorem State.wakeUp_doze {src : Nat} (hm : s.mode = 1) (hn : s.pwr.tran = none) : s.wakeUp src = (s.noteWake src).startDozeExit := by
  unfold State.wakeUp
  dsimp only
  rw [if_neg (by omega), hn]
  exact if_pos hm

/-- A wake source while DOZE is entered. -/
theorem State.wakeUp_entry {src : Nat} (hm : s.mode ≠ 0) (hx : s.pwr.tran = some x) (hk : x.kind = .dozeEntry) (hr : x.reversing = false) :
    s.wakeUp src = if x.phase = 2 then (s.charge 1 3 2 (wakeBlock src)).setPwr fun p => { p with tran := none } else s.noteWake src := by
  have hnot : ¬ (x.kind ≠ .dozeEntry ∨ x.reversing = true) := by simp [hk, hr]
  unfold State.wakeUp
  dsimp only
  rw [if_neg hm, hx]
  exact if_neg hnot

theorem State.tryWake_wakes (hm : s.mode = 0) (hw : s.pwr.wakes ≠ 0) (hr : s.pwr.residenceOver = true) (ho : s.pwr.mainOk = true) (hp : s.pwr.pfHigh = true)
    (hrails : s.pwr.railsOff = false) (hd : s.pwr.dead = false) : s.tryWake = s.coldReset 2 :=
  if_pos ⟨hm, hw, hr, ho, hp, by simp [hrails], by simp [hd]⟩

theorem State.tryWake_stays (h : s.pwr.wakes = 0 ∨ s.pwr.residenceOver = false) : s.tryWake = s := by
  refine if_neg ?_
  rintro ⟨-, hw, hr, -⟩
  rcases h with h | h
  · exact hw h
  · rw [h] at hr
    cases hr

theorem wakeBlock_block (src : Fin 6) : (wakeBlock src.val).block % 256 = (wakeBlock src.val).block := by
  revert src
  decide

theorem wakeSource_spec (s : State) (src : Fin 6) :
    (s.mode = 0 → src.val ≤ 2 → s.pwr.residenceOver = true → s.pwr.pfHigh = true → s.pwr.mainOk = true → s.pwr.railsOff = false → s.pwr.dead = false →
      ∃ t : State, exec (.wakeSource src) s = .next (t.coldReset 2) ∧ t.pwr.wakes = setBit s.pwr.wakes src.val true ∧ t.regs = s.regs)
    ∧ (s.mode = 0 → src.val ≤ 2 → s.pwr.residenceOver = false →
      ∃ t : State, exec (.wakeSource src) s = .next t ∧ t.pwr.wakes = setBit s.pwr.wakes src.val true ∧ t.mode = 0)
    ∧ (s.mode = 1 → s.pwr.tran = none →
      ∃ t : State, exec (.wakeSource src) s = .next t.startDozeExit ∧ t.pwr.wakes = setBit s.pwr.wakes src.val true ∧ t.regs = s.regs)
    ∧ (∀ x, s.mode ≠ 0 → s.pwr.tran = some x → x.kind = .dozeEntry → x.reversing = false →
      (x.phase = 2 → ∃ t : State, exec (.wakeSource src) s = .next t ∧ t.pwr.tran = none ∧ t.mode = s.mode ∧ t.get R.PWR.LAST_OUTCOME_OUTCOME = 3
        ∧ t.get R.PWR.LAST_OUTCOME_BLOCK = (wakeBlock src.val).block)
      ∧ (x.phase = 4 → ∃ t : State, exec (.wakeSource src) s = .next t ∧ t.pwr.tran = some x ∧ t.pwr.wakes = setBit s.pwr.wakes src.val true)) := by
  obtain ⟨m, p, hpwr, hm, hp⟩ := s.wakeSupplied_pwr src.val
  have hmode := s.wakeSupplied_mode src.val
  have hregs := s.wakeSupplied_regs src.val
  rw [exec_wakeSource]
  generalize s.wakeSupplied src.val = u at *
  have hwakes : (u.noteWake src.val).pwr.wakes = setBit s.pwr.wakes src.val true := by
    rw [State.noteWake, State.setPwr, hpwr]
  refine ⟨fun h0 hs hres hpf hok hrails hd => ?_, fun h0 hs hres => ?_, fun h1 hn => ?_, fun x h0 hx hk hr => ⟨fun h2 => ?_, fun h4 => ?_⟩⟩
  · refine ⟨u.noteWake src.val, ?_, hwakes, hregs⟩
    rw [State.wakeUp_fold (hmode.trans h0) hs, State.tryWake_wakes]
    · exact hmode.trans h0
    · rw [hwakes]
      exact setBit_true_ne_zero _ _
    all_goals
      rw [State.noteWake, State.setPwr, hpwr]
    · exact hres
    · exact hm hok
    · exact hp hpf
    · exact hrails
    · exact hd
  · refine ⟨u.noteWake src.val, ?_, hwakes, hmode.trans h0⟩
    rw [State.wakeUp_fold (hmode.trans h0) hs, State.tryWake_stays (.inr ?_)]
    rw [State.noteWake, State.setPwr, hpwr]
    exact hres
  · exact ⟨u.noteWake src.val, by rw [State.wakeUp_doze (hmode.trans h1) (by rw [hpwr]; exact hn)], hwakes, hregs⟩
  · refine ⟨_, by rw [State.wakeUp_entry (hmode ▸ h0) (by rw [hpwr]; exact hx) hk hr, if_pos h2], rfl, ?_, ?_, ?_⟩
    · exact (State.charge_mode ..).trans hmode
    · rw [State.setPwr_get, State.charge_get _ _ _ _ _ (.inr (by decide)) (by decide) (by decide), (State.setOutcome_shows ..).2.1]
    · rw [State.setPwr_get, State.charge_get _ _ _ _ _ (.inr (by decide)) (by decide) (by decide), (State.setOutcome_shows ..).2.2.1, wakeBlock_block]
  · refine ⟨u.noteWake src.val, by rw [State.wakeUp_entry (hmode ▸ h0) (by rw [hpwr]; exact hx) hk hr, if_neg (by omega)], ?_, hwakes⟩
    rw [State.noteWake, State.setPwr, hpwr]
    exact hx

theorem State.startDozeExit_spec (s : State) : s.startDozeExit.get R.PWR.WAKE_CAUSE_SOURCES = s.pwr.wakes % 64
    ∧ (s.raiseSteps = [] → s.startDozeExit.get R.CLK.DOMAINS_RUNNING = 0x1F ∧ s.startDozeExit.pwr.tran = some ⟨.dozeExit, 4, [], [], 0, false, false, 0⟩)
    ∧ (s.raiseSteps ≠ [] → s.startDozeExit.pwr.tran = some ⟨.dozeExit, 2, s.raiseSteps, [], 0, false, false, 0⟩) := by
  unfold State.startDozeExit
  dsimp only
  refine ⟨?_, fun h => ?_, fun h => ?_⟩
  · rw [State.setPwr_get]
    split
    · rw [State.clocksOn, State.get_put_other _ _ (by decide), State.get_put_same]
      rfl
    · rw [State.get_put_same]
      rfl
  · rw [h]
    exact ⟨by rw [State.setPwr_get, List.isEmpty_nil, if_pos rfl, State.clocksOn, State.get_put_same]; rfl, rfl⟩
  · have hne : s.raiseSteps.isEmpty = false := by simpa using h
    rw [hne]
    rfl

/-! ### The end of FOLD's residence, and rails that were off (R563) -/

/-- The residence in FOLD is over. -/
def State.residenceEnded (s : State) : State :=
  ({ s with time := max s.time (s.pwr.modeSince + 100000000) } : State).setPwr fun p => { p with residenceOver := true }

theorem exec_foldResidenceEnd (hm : s.mode = 0) (hr : s.pwr.residenceOver = false) : exec .foldResidenceEnd s
    = .next s.residenceEnded.tryWake := by
  have heq : exec .foldResidenceEnd s = execFoldResidenceEnd s := rfl
  have hnot : ¬ (s.mode ≠ 0 ∨ s.pwr.residenceOver = true) := by simp [hm, hr]
  rw [heq, execFoldResidenceEnd, if_neg hnot, State.residenceEnded]

theorem foldResidenceEnd_spec (hm : s.mode = 0) (hr : s.pwr.residenceOver = false) :
    ∃ t : State, t.time = max s.time (s.pwr.modeSince + 100000000) ∧ t.pwr.residenceOver = true ∧ t.pwr.wakes = s.pwr.wakes
      ∧ (s.pwr.wakes = 0 → exec .foldResidenceEnd s = .next t)
      ∧ (s.pwr.wakes ≠ 0 → s.pwr.mainOk = true → s.pwr.pfHigh = true → s.pwr.railsOff = false → s.pwr.dead = false →
        exec .foldResidenceEnd s = .next (t.coldReset 2)) := by
  refine ⟨s.residenceEnded, rfl, rfl, rfl, fun hw => ?_, fun hw ho hp hrails hd => ?_⟩
  · rw [exec_foldResidenceEnd hm hr, State.tryWake_stays (s := s.residenceEnded) (.inl hw)]
  · rw [exec_foldResidenceEnd hm hr, State.tryWake_wakes (s := s.residenceEnded) hm hw rfl ho hp hrails hd]

/-- What a reset from FOLD, of a cause beside a power-on, leaves before its boot starts. -/
def State.unfolded (s : State) : State :=
  ((((s.setPwr fun p => { p with acct := modAt (modAt p.acct 0 fun a => { a with ns := a.ns + (s.time - p.modeSince) }) 2
                                           fun a => { a with entries := sat32 (a.entries + 1) } }).puts [(R.PWR.MODE_MODE, 2), (R.PWR.MODE_PREV, 0)]).rebaseRtc.unput
      fun f => !(f == R.RTC.STATUS_OSC_FAIL || (f.page == 4 && decide (0x060 ≤ f.off)))).setPwr fun p => { p with dead := false })

theorem State.coldReset_of_fold (hm : s.mode = 0) {cause : Nat} (hc : 2 ≤ cause) : s.coldReset cause = s.unfolded.startBoot true cause := by
  unfold State.coldReset
  dsimp only
  rw [if_pos hm, if_pos hm, if_pos hc, if_neg (by omega), hm]
  rfl

theorem State.unfolded_get (s : State) {y : Fld} (hy : y.page = 2) (h1 : y ≠ R.PWR.MODE_MODE) (h2 : y ≠ R.PWR.MODE_PREV) : s.unfolded.get y = s.get y := by
  have hkeep : (!(y == R.RTC.STATUS_OSC_FAIL || (y.page == 4 && decide (0x060 ≤ y.off)))) = true := by
    have hne : (y == R.RTC.STATUS_OSC_FAIL) = false := beq_eq_false_iff_ne.mpr fun e => by rw [e] at hy; cases hy
    simp [hne, hy]
  rw [State.unfolded, State.setPwr_get, State.unput_get_of_kept _ hkeep, State.puts_cons, State.puts_cons, State.puts_nil]
  refine (State.get_put_other _ _ h2).trans ((State.get_put_other _ _ h1).trans ?_)
  exact State.setPwr_get ..

theorem State.unfolded_mode (s : State) : s.unfolded.mode = 2 := by
  rw [State.unfolded, State.mode, State.setPwr_get, State.unput_get_of_kept _ rfl, State.puts_cons, State.puts_cons, State.puts_nil]
  exact (State.get_put_of_place _ _ rfl).trans (State.get_put_same ..)

end

end Sys2Proof.Machine
end

section
/-!
The end of DOZE, and what the regulators report and take (R549, R552, R557, R568).
-/

namespace Sys2Proof.Machine

open Sys2Proof.Laws

/-! ### Rails that were off (R563) -/

section
variable {s : State} {x : Tran}

/-- The end of the time that the rails stay off. -/
def State.railsWaited (s : State) : State := { s with time := max s.time (s.pwr.modeSince + 100000000) }

theorem railsOffEnd_spec (hm : s.mode = 0) (hr : s.pwr.railsOff = true) (hd : s.pwr.dead = false) :
    ∃ t : State, exec .railsOffEnd s = .next t ∧ t.mode = 2 ∧ t.get R.PWR.RESET_CAUSE_CAUSE = 6 ∧ t.pwr.bootPhase = 1
      ∧ (s.get (H.VALID 2) = 0 → t.get (H.CODE 2) = E.PWR_WAKE_FAIL) ∧ t.pwr.railsOff = false := by
  have hnot : ¬ (s.mode ≠ 0 ∨ (!s.pwr.railsOff) = true ∨ s.pwr.dead = true) := by simp [hm, hr, hd]
  have heq : exec .railsOffEnd s = execRailsOffEnd s := rfl
  have hreset : s.railsWaited.coldReset 6 = s.railsWaited.unfolded.startBoot true 6 := State.coldReset_of_fold (s := s.railsWaited) hm (by decide)
  have hpwr : (s.railsWaited.unfolded.bootBegun true).pwr.bootPhase = 1 ∧ (s.railsWaited.unfolded.bootBegun true).pwr.railsOff = false := by
    rw [State.bootBegun, State.setPwr]
    exact ⟨rfl, rfl⟩
  rw [heq, execRailsOffEnd, if_neg hnot]
  refine ⟨((s.railsWaited.coldReset 6).record 2 E.PWR_WAKE_FAIL (pwrInfo 3 1 0 2)), rfl, ?_, ?_, ?_, fun hv => ?_, ?_⟩
  · rw [State.mode, State.record_get_beyond _ _ _ _ _ _ _ rfl, hreset, State.startBoot_get rfl (by decide) (by decide) (by decide)]
    exact State.unfolded_mode _
  · rw [State.record_get_beyond _ _ _ _ _ _ _ rfl, hreset, State.startBoot_cause]
  · rw [State.record_pwr, hreset, State.startBoot_pwr]
    exact hpwr.1
  · refine State.record_get_CODE ?_ ..
    rw [hreset, State.startBoot_get rfl (by decide) (by decide) (by decide), State.unfolded_get _ rfl (by decide) (by decide)]
    exact hv
  · rw [State.record_pwr, hreset, State.startBoot_pwr]
    exact hpwr.2

/-! ### The end of DOZE (R549, R552) -/

theorem noisy_of_le {p : Nat} (h : 5 ≤ p) : noisy p = true := by simp [noisy, Nat.ble_eq, h]

theorem noisy_dramPage (c : Nat) : noisy (dramPage c) = true := noisy_of_le (Nat.le_add_right_of_le (by decide))

theorem noisy_corePage (c : Nat) : noisy (corePage c) = true := noisy_of_le (Nat.le_add_right_of_le (by decide))

section
variable {q : SteadyFld}

theorem State.steady_trainAgain (s : State) (c : Nat) : q.get (s.trainAgain c) = q.get s := by
  have hlane (t : State) (i : Nat) : q.get (t.trainLane c i) = q.get t := by
    unfold State.trainLane
    simp only [State.puts_cons, State.puts_nil]
    rw [State.steady_put _ (loud_of_late (Nat.le_add_right_of_le (by decide)) rfl),
      State.steady_put _ (loud_of_late (Nat.le_add_right_of_le (by decide)) rfl),
      State.steady_put _ (loud_of_late (Nat.le_add_right_of_le (by decide)) rfl)]
    exact steady_of_forget ((State.forget_fresh rfl _).trans ((State.forget_fresh rfl _).trans (State.forget_fresh rfl _)))
  rw [State.trainAgain, State.steady_pulse _ (noisy_dramPage c),
    State.steady_put _ (loud_of_late (Nat.le_add_right_of_le (by decide)) rfl)]
  exact steady_foldl _ _ hlane _

theorem State.steady_resumeCore (s : State) (c : Fin 72) (p : Parker) : q.get (s.resumeCore c p) = q.get s := by
  have hturn (n : Nat) (f : Core → Core) : q.get (s.turnCore n f) = q.get s := by
    unfold State.turnCore
    dsimp only
    split
    · rw [State.steady_pulse _ (noisy_corePage n)]
      exact steady_of_forget (State.forget_modCore rfl ..)
    · exact steady_of_forget (State.forget_modCore rfl ..)
  unfold State.resumeCore
  dsimp only
  split
  · exact hturn ..
  · split <;> exact steady_of_forget (State.forget_setCore rfl ..)

end

/-- Channels of DOZE become channels in use. -/
def State.dramWoken (s : State) (l : List Nat) : State := l.foldl (fun t c => if t.dramState c = 3 then t.dramUp c else t) s

theorem State.dramUp_state_same (s : State) (c : Nat) : (s.dramUp c).dramState c = 2 := State.get_put_same ..

theorem State.dramUp_state_other {a b : Nat} (h : a ≠ b) (s : State) : (s.dramUp a).dramState b = s.dramState b := State.dramState_put_other h s 2

theorem State.dramWoken_ne (l : List Nat) {a : Nat} (h : a ∈ l ∨ s.dramState a ≠ 3) : (s.dramWoken l).dramState a ≠ 3 := by
  induction l generalizing s with
  | nil => exact h.resolve_left List.not_mem_nil
  | cons b l ih =>
    refine ih ?_
    dsimp only
    by_cases hab : b = a
    · subst hab
      right
      split
      · rw [State.dramUp_state_same]
        decide
      · assumption
    · refine h.imp (fun hm => (List.mem_cons.mp hm).resolve_left (Ne.symm hab)) fun hn => ?_
      split
      · rw [State.dramUp_state_other hab]
        exact hn
      · exact hn

theorem State.dramWoken_mode (s : State) (l : List Nat) : (s.dramWoken l).mode = s.mode :=
  foldl_keeps State.mode (fun t c => by
    split
    · have hne : R.PWR.MODE_MODE ≠ R.DRAM.CH_STATUS_STATE c := fun e => by
        have hpage : 2 = 0xA0 + c := congrArg Fld.page e
        omega
      exact State.get_put_other _ _ hne
    · rfl) _ _

theorem State.unquiesce_eq (s : State) :
    s.unquiesce = ((s.dramWoken (List.range 4)).eachCore fun t c => t.resumeCore c .doze).setGate fun g => { g with mayTrain := true } := rfl

theorem State.steady_unquiesce {q : SteadyFld} (s : State) : q.get s.unquiesce = q.get (s.dramWoken (List.range 4)) := by
  rw [State.unquiesce_eq, State.steady_setGate]
  exact steady_foldl _ _ (fun t c => State.steady_resumeCore ..) _

theorem State.unquiesce_mode (s : State) : s.unquiesce.mode = s.mode := (mode_of_steady (State.steady_unquiesce s)).trans (s.dramWoken_mode _)

theorem State.unquiesce_dramState (s : State) {d : Nat} (hd : d < 4) : s.unquiesce.dramState d ≠ 3 := by
  have heq : s.unquiesce.dramState d = (s.dramWoken (List.range 4)).dramState d := dramState_of_steady (State.steady_unquiesce s)
  rw [heq]
  exact State.dramWoken_ne _ (.inl (List.mem_range.mpr hd))

theorem State.unquiesce_mayTrain (s : State) : s.unquiesce.gate.mayTrain = true := by
  rw [State.unquiesce_eq, State.setGate]

/-- The training of the channels in use. -/
def State.dramTrained (s : State) : State := (List.range 4).foldl (fun t c => if t.dramUsed c then t.trainAgain c else t) s

theorem State.steady_dramTrained {q : SteadyFld} (s : State) : q.get s.dramTrained = q.get s :=
  steady_foldl _ _ (fun t c => by
    split
    · exact State.steady_trainAgain ..
    · rfl) _

theorem State.dramTrained_frame (s : State) : forget 0x480000024 s.dramTrained = forget 0x480000024 s :=
  foldl_frame _ _ (fun t c => by
    split
    · exact State.forget_trainAgain rfl ..
    · rfl) _ _

/-- The channels rechecked. -/
def State.rechecked (s : State) (bad : List (Nat × Option Nat)) : State := (List.range 32).foldl (fun t c => t.recheck c (assoc bad c)) s

/-- The state of DOZE's end, before the mode is that of idleness. -/
def State.woken (s : State) (bad : List (Nat × Option Nat)) : State :=
  (s.rechecked bad).unquiesce.dramTrained.setPwr fun p => { p with tran := none, wakes := 0 }

/-- The state of DOZE's end. -/
def State.dozeOver (s : State) (bad : List (Nat × Option Nat)) : State := if (s.woken bad).mode = 1 then (s.woken bad).setMode 3 else s.woken bad

theorem exec_dozeRetrainDone (hx : s.pwr.tran = some x) (hk : x.kind = .dozeExit) (h4 : x.phase = 4) (bad : List (Nat × Option Nat)) :
    exec (.dozeRetrainDone bad) s = .next (s.dozeOver bad).settle.follow := by
  have hnot : ¬ (x.kind ≠ .dozeExit ∨ x.phase ≠ 4) := by simp [hk, h4]
  have heq : exec (.dozeRetrainDone bad) s = execDozeRetrainDone bad s := rfl
  rw [heq, execDozeRetrainDone]
  simp only [hx]
  rw [if_neg hnot, State.dozeOver, State.woken, State.dramTrained, State.rechecked]

theorem State.dozeOver_pwr (s : State) (bad : List (Nat × Option Nat)) : (s.dozeOver bad).pwr.tran = none ∧ (s.dozeOver bad).pwr.wakes = 0 := by
  have hw : (s.woken bad).pwr.tran = none ∧ (s.woken bad).pwr.wakes = 0 := by
    rw [State.woken, State.setPwr]
    exact ⟨rfl, rfl⟩
  unfold State.dozeOver
  split
  · obtain ⟨a, b, c, h⟩ := (s.woken bad).setMode_pwr 3
    rw [h]
    exact hw
  · exact hw

/-- A recheck that passes changes no register. -/
theorem State.rechecked_regs (s : State) : (s.rechecked []).regs = s.regs :=
  foldl_keeps State.regs (fun t c => by
    unfold State.recheck
    split <;> rfl) _ _

theorem State.dozeOver_spec (s : State) : (s.mode = 1 → (s.dozeOver []).mode = 3) ∧ (s.dozeOver []).gate.mayTrain = true ∧ ∀ d < 4, (s.dozeOver []).dramState d ≠ 3 := by
  have hmode : (s.woken []).mode = s.mode := by
    rw [State.woken, State.mode, State.setPwr_get]
    exact (mode_of_steady (State.steady_dramTrained _)).trans ((State.unquiesce_mode _).trans (State.get_of_regs s.rechecked_regs _))
  have htrain : (s.woken []).gate.mayTrain = true := by
    rw [State.woken, State.setPwr_gate, keeps_gate (State.dramTrained_frame _) rfl, State.unquiesce_mayTrain]
  have hdram (d : Nat) (hd : d < 4) : (s.woken []).dramState d ≠ 3 := by
    rw [State.woken, State.dramState, State.setPwr_get]
    exact fun h => State.unquiesce_dramState _ hd ((dramState_of_steady (State.steady_dramTrained _)).symm.trans h)
  have hset : ((s.woken []).setMode 3).gate = (s.woken []).gate := keeps_gate (State.forget_setMode (T := 0x490000020) rfl ..) rfl
  unfold State.dozeOver
  refine ⟨fun h1 => ?_, ?_, fun d hd => ?_⟩
  · rw [if_pos (hmode.trans h1), State.setMode_mode _ (by decide)]
  · split
    · rw [hset, htrain]
    · exact htrain
  · split
    · exact fun h => hdram d hd ((dramState_of_steady (State.steady_setMode (dramFld_still d) _ _)).symm.trans h)
    · exact hdram d hd

/-- The recheck of an ACTIVE channel (R549). -/
theorem State.recheck_active {c : Nat} (h : s.chActive c = true) :
    ∃ t : State, s.recheck c none = t ∧ s.recheck c (some none) = t.trained c ∧ (∀ n, s.recheck c (some (some n)) = t.trainFail c n)
      ∧ t.regs = s.regs ∧ t.media = s.media := by
  have hnot : ¬ (!s.chActive c) = true := by simp [h]
  refine ⟨s.setNand fun n => n.sent c [.dcc, .readDq], ?_, ?_, fun n => ?_, rfl, rfl⟩ <;> exact if_neg hnot

theorem State.recheck_inactive {c : Nat} (h : s.chActive c = false) (r : Option (Option Nat)) : s.recheck c r = s := if_pos (by simp [h])

theorem dozeExitRetry_spec (hx : s.pwr.tran = some x) (h0 : x.retryAt ≠ 0) :
    ∃ t : State, exec .dozeExitRetry s = .next t ∧ t.time = max s.time x.retryAt ∧ t.pwr.tran = some { x with retryAt := 0, attempts := 0 } := by
  have heq : exec .dozeExitRetry s = execDozeExitRetry s := rfl
  rw [heq, execDozeExitRetry]
  simp only [hx]
  rw [if_neg h0]
  exact ⟨_, rfl, rfl, rfl⟩

end

/-! ### The watchdog's kick, readings, alerts and set points (R553, R557, R568) -/

section
variable {s : State} {o : Origin}

theorem kick_spec (hp : s.powered = true) (hr : s.reaches o 2 = true) :
    ∃ t : State, exec (.kick o) s = .next t ∧ t.pwr = (if o = .firmware then { s.pwr with kickAt := s.time } else s.pwr) ∧ t.regs = s.regs := by
  have hneed : needOf (rowsAt 2 0x05C) = .none := by decide
  obtain ⟨u, hu, heq⟩ := State.regCmd_acts (s := s) (o := o) (page := 2) (off := 0x05C) (v := 1) (legal := true) (busy := false) (deny := id)
    (act := fun t => if o = .firmware then t.setPwr fun p => { p with kickAt := t.time } else t) hp hr (by rw [hneed]; rfl) rfl rfl
  have hpwr : u.pwr = s.pwr := keeps_pwr hu.1 rfl
  have htime : u.time = s.time := keeps_time hu.1 rfl
  have hregs : u.regs = s.regs := keeps_regs hu.1 rfl
  refine ⟨_, congrArg Host.Outcome.next heq, ?_, ?_⟩
  · split
    · rw [← hpwr, ← htime]
      rfl
    · exact hpwr
  · split
    · exact hregs
    · exact hregs

theorem vregTelemetryPoll_spec (rs : List VregReading) (hm : 2 ≤ s.mode) : exec (.vregTelemetryPoll rs) s = .next (rs.foldl State.slotReading s) := by
  have heq : exec (.vregTelemetryPoll rs) s = execVregTelemetryPoll rs s := rfl
  rw [heq, execVregTelemetryPoll, if_neg (by omega)]

/-- The figures that a reading shows. -/
def State.slotShown (s : State) (r : VregReading) : State :=
  (s.puts [(R.VREG.VOUT_MEAS_MV r.slot, r.mv.toNat), (R.VREG.TELEM_IOUT r.slot, r.iout.toNat), (R.VREG.TELEM_POUT r.slot, r.pout.toNat)]).setPwr fun p =>
    { p with acct := modAt p.acct s.mode fun a => { a with energy := a.energy + 10 * r.pout.toNat } }

variable {r : VregReading}

theorem State.slotReading_eq (h8 : r.slot < 8) (hpres : bitAt (s.get R.VREG.LINK_STATUS_PRESENT) r.slot = true)
    (hsup : bitAt (s.get R.VREG.LINK_STATUS_UNSUPPORTED) r.slot = false) : s.slotReading r =
      if (!r.ack) = true then s.bump R.VREG.NO_ACK_COUNT_COUNT
      else if (!r.pecOk) = true then (s.bump R.VREG.PEC_ERRORS_COUNT).bump R.VREG.NO_ACK_COUNT_COUNT
      else if s.mode = 2 ∧ (!r.linear) = true then
        (s.put R.VREG.LINK_STATUS_UNSUPPORTED (setBit (s.get R.VREG.LINK_STATUS_UNSUPPORTED) r.slot true)).record 3 E.VREG_UNSUPPORTED r.slot
      else if (s.slotShown r).get (R.SHARE.OWNER_BLOCK 5) = 0x0B ∧ r.status ≠ 0 then ((s.slotShown r).pulse 3 Ev.VREG.FAULT).record 3 E.VREG_FAULT r.slot
      else s.slotShown r := by
  have hnot : ¬ (8 ≤ r.slot ∨ (!bitAt (s.get R.VREG.LINK_STATUS_PRESENT) r.slot) = true ∨ bitAt (s.get R.VREG.LINK_STATUS_UNSUPPORTED) r.slot = true) := by
    simp [hpres, hsup]
    omega
  exact if_neg hnot

theorem State.slotShown_get (s : State) (r : VregReading) :
    (s.slotShown r).get (R.VREG.VOUT_MEAS_MV r.slot) = r.mv.toNat ∧ (s.slotShown r).get (R.VREG.TELEM_IOUT r.slot) = r.iout.toNat
      ∧ (s.slotShown r).get (R.VREG.TELEM_POUT r.slot) = r.pout.toNat := by
  have hmeas (y : Fld) (hy : y.off = 0x08C + 0x10 * r.slot) : R.VREG.VOUT_MEAS_MV r.slot ≠ y := fun e => by
    have hoff : 0x088 + 0x10 * r.slot = y.off := congrArg Fld.off e
    omega
  have hiout : R.VREG.TELEM_IOUT r.slot ≠ R.VREG.TELEM_POUT r.slot := fun e => absurd (congrArg Fld.lo e) (by exact (by decide : (0 : Nat) ≠ 16))
  rw [State.slotShown, State.setPwr_get, State.setPwr_get, State.setPwr_get]
  simp only [State.puts_cons, State.puts_nil]
  refine ⟨?_, ?_, State.get_put_same _ _ _ |>.trans (Nat.mod_eq_of_lt r.pout.isLt)⟩
  · rw [State.get_put_other _ _ (hmeas _ rfl), State.get_put_other _ _ (hmeas _ rfl), State.get_put_same]
    exact Nat.mod_eq_of_lt r.mv.isLt
  · rw [State.get_put_other _ _ hiout, State.get_put_same]
    exact Nat.mod_eq_of_lt r.iout.isLt

theorem State.slotShown_owner (s : State) (r : VregReading) : (s.slotShown r).get (R.SHARE.OWNER_BLOCK 5) = s.get (R.SHARE.OWNER_BLOCK 5) := by
  have hne (y : Fld) (hy : y.page = 3) : R.SHARE.OWNER_BLOCK 5 ≠ y := fun e => by
    rw [← e] at hy
    cases hy
  rw [State.slotShown, State.setPwr_get]
  simp only [State.puts_cons, State.puts_nil]
  rw [State.get_put_other _ _ (hne _ rfl), State.get_put_other _ _ (hne _ rfl), State.get_put_other _ _ (hne _ rfl)]

theorem slotReading_spec (h8 : r.slot < 8) (hpres : bitAt (s.get R.VREG.LINK_STATUS_PRESENT) r.slot = true)
    (hsup : bitAt (s.get R.VREG.LINK_STATUS_UNSUPPORTED) r.slot = false) :
    (r.ack = false → (s.slotReading r).get R.VREG.NO_ACK_COUNT_COUNT = min (s.get R.VREG.NO_ACK_COUNT_COUNT + 1) (2 ^ 32 - 1))
    ∧ (r.ack = true → r.pecOk = false → (s.slotReading r).get R.VREG.PEC_ERRORS_COUNT = min (s.get R.VREG.PEC_ERRORS_COUNT + 1) (2 ^ 32 - 1))
    ∧ (r.ack = true → r.pecOk = true → s.mode = 2 → r.linear = false →
      bitAt ((s.slotReading r).get R.VREG.LINK_STATUS_UNSUPPORTED) r.slot = true
        ∧ (s.get (H.VALID 3) = 0 → (s.slotReading r).get (H.CODE 3) = E.VREG_UNSUPPORTED))
    ∧ (r.ack = true → r.pecOk = true → s.mode ≠ 2 ∨ r.linear = true →
      (s.slotReading r).get (R.VREG.VOUT_MEAS_MV r.slot) = r.mv.toNat ∧ (s.slotReading r).get (R.VREG.TELEM_IOUT r.slot) = r.iout.toNat
        ∧ (s.slotReading r).get (R.VREG.TELEM_POUT r.slot) = r.pout.toNat
        ∧ (s.get (R.SHARE.OWNER_BLOCK 5) = 0x0B → r.status ≠ 0 → bitAt ((s.slotReading r).get (H.STICKY 3)) Ev.VREG.FAULT = true)) := by
  rw [State.slotReading_eq h8 hpres hsup]
  refine ⟨fun ha => ?_, fun ha hp => ?_, fun ha hp hm hl => ?_, fun ha hp hml => ?_⟩
  · rw [if_pos (by simp [ha]), State.get_bump_same]
    rfl
  · rw [if_neg (by simp [ha]), if_pos (by simp [hp]), State.get_bump_other _ _ (by decide), State.get_bump_same]
    rfl
  · rw [if_neg (by simp [ha]), if_neg (by simp [hp]), if_pos ⟨hm, by simp [hl]⟩]
    refine ⟨?_, fun hv => State.record_get_CODE ?_ ..⟩
    · rw [State.record_get_beyond _ _ _ _ _ _ _ rfl, State.get_put_same, bitAt_mod_two_pow _ (show r.slot < R.VREG.LINK_STATUS_UNSUPPORTED.w from h8),
        bitAt_setBit_same]
    · rw [State.get_put_other _ _ (by decide), hv]
  · have hnl : ¬ (s.mode = 2 ∧ (!r.linear) = true) := by
      rintro ⟨h2, hl⟩
      rcases hml with h | h
      · exact h h2
      · simp [h] at hl
    rw [if_neg (by simp [ha]), if_neg (by simp [hp]), if_neg hnl, State.slotShown_owner]
    obtain ⟨hmv, hiout, hpout⟩ := s.slotShown_get r
    have hfault {y : Fld} (hy : y.off = 0x088 + 0x10 * r.slot ∨ y.off = 0x08C + 0x10 * r.slot) :
        (((s.slotShown r).pulse 3 Ev.VREG.FAULT).record 3 E.VREG_FAULT r.slot).get y = (s.slotShown r).get y := by
      have hb : 0x040 ≤ y.off := by omega
      rw [State.record_get_beyond _ _ _ _ _ _ _ (Nat.ble_eq.mpr hb), State.pulse_get_beyond_header _ _ _ hb]
    refine ⟨?_, ?_, ?_, fun ho hst => ?_⟩
    · split
      · rw [hfault (.inl rfl), hmv]
      · exact hmv
    · split
      · rw [hfault (.inr rfl), hiout]
      · exact hiout
    · split
      · rw [hfault (.inr rfl), hpout]
      · exact hpout
    · rw [if_pos ⟨ho, hst⟩, State.record_sticky _ _ _ _ _ _ _ (by decide), State.pulse_sticky _ _ _ (by decide)]
      rfl

/-! ### Alerts of the regulators -/

/-- The fault of a slot recorded. -/
def State.slotAlert (st : List (BitVec 16)) (t : State) (n : Nat) : State :=
  if (bitAt (t.get R.VREG.LINK_STATUS_PRESENT) n && !bitAt (t.get R.VREG.LINK_STATUS_UNSUPPORTED) n && st.getD n 0 != 0) = true then
    (t.pulse 3 Ev.VREG.FAULT).record 3 E.VREG_FAULT n
  else t

theorem State.slotAlert_get (st : List (BitVec 16)) (t : State) (n : Nat) {y : Fld} (hy : 0x040 ≤ y.off) : (t.slotAlert st n).get y = t.get y := by
  unfold State.slotAlert
  split
  · rw [State.record_get_beyond _ _ _ _ _ _ _ (Nat.ble_eq.mpr hy), State.pulse_get_beyond_header _ _ _ hy]
  · rfl

theorem State.slotAlert_pwr (st : List (BitVec 16)) (t : State) (n : Nat) : (t.slotAlert st n).pwr = t.pwr := by
  unfold State.slotAlert
  split
  · rw [State.record_pwr, State.pulse_pwr]
  · rfl

theorem State.slotAlert_keeps (st : List (BitVec 16)) (t : State) (n : Nat) (h : bitAt (t.get (H.STICKY 3)) Ev.VREG.FAULT = true) :
    bitAt ((t.slotAlert st n).get (H.STICKY 3)) Ev.VREG.FAULT = true := by
  unfold State.slotAlert
  split
  · exact State.record_sticky_of_set (by decide) (State.pulse_sticky_of_set (by decide) _ h) ..
  · exact h

/-- A slot that is present, is supported and reports a fault. -/
def State.Alerts (s : State) (st : List (BitVec 16)) (n : Nat) : Prop :=
  bitAt (s.get R.VREG.LINK_STATUS_PRESENT) n = true ∧ bitAt (s.get R.VREG.LINK_STATUS_UNSUPPORTED) n = false ∧ st.getD n 0 ≠ 0

theorem State.foldl_slotAlert_sticky (st : List (BitVec 16)) {n : Nat} (l : List Nat) (s : State) (hs : s.Alerts st n)
    (hn : n ∈ l ∨ bitAt (s.get (H.STICKY 3)) Ev.VREG.FAULT = true) : bitAt ((l.foldl (State.slotAlert st) s).get (H.STICKY 3)) Ev.VREG.FAULT = true := by
  induction l generalizing s with
  | nil => exact hn.resolve_left List.not_mem_nil
  | cons m l ih =>
    have hkeep : (s.slotAlert st m).Alerts st n := by
      rw [State.Alerts, State.slotAlert_get _ _ _ (by decide), State.slotAlert_get _ _ _ (by decide)]
      exact hs
    refine ih _ hkeep ?_
    by_cases hnm : n = m
    · subst hnm
      obtain ⟨hpres, hsup, hst⟩ := hs
      rw [State.slotAlert, if_pos (by simp only [hpres, hsup, Bool.not_false, Bool.and_self, Bool.true_and, bne_iff_ne, ne_eq]; exact hst)]
      refine .inr (State.record_sticky_of_set (by decide) ?_ ..)
      rw [State.pulse_sticky _ _ _ (by decide)]
      rfl
    · exact hn.imp (fun hm => (List.mem_cons.mp hm).resolve_left hnm) (State.slotAlert_keeps st s m)

theorem pmbAlert_spec (st : List (BitVec 16)) (hm : 2 ≤ s.mode) (ho : s.get (R.SHARE.OWNER_BLOCK 5) = 3) :
    ∃ t : State, exec (.pmbAlert st) s = .next t ∧ t.mode = s.mode ∧ t.pwr = s.pwr
      ∧ (∀ n < 8, bitAt (s.get R.VREG.LINK_STATUS_PRESENT) n = true → bitAt (s.get R.VREG.LINK_STATUS_UNSUPPORTED) n = false → st.getD n 0 ≠ 0 →
        bitAt (t.get (H.STICKY 3)) Ev.VREG.FAULT = true) := by
  have hnot : ¬ (s.mode < 2 ∨ s.get (R.SHARE.OWNER_BLOCK 5) ≠ 3) := by
    rw [ho]
    omega
  have heq : exec (.pmbAlert st) s = execPmbAlert st s := rfl
  rw [heq, execPmbAlert, if_neg hnot]
  refine ⟨(List.range 8).foldl (State.slotAlert st) s, rfl, ?_, ?_, fun n hn hpres hsup hst =>
    State.foldl_slotAlert_sticky st _ s ⟨hpres, hsup, hst⟩ (.inl (List.mem_range.mpr hn))⟩
  · exact foldl_keeps State.mode (fun t n => State.slotAlert_get st t n (by decide)) _ _
  · exact foldl_keeps State.pwr (fun t n => State.slotAlert_pwr st t n) _ _

/-! ### Set points (R557) -/

variable {slot : Fin 8} {mv : BitVec 16}

theorem State.takeSetPoint_takes {n v : Nat} (hr : s.get (R.VREG.SLOT_CFG_RAIL n) ≤ 2) (hs : s.pwr.setSteps = []) :
    s.takeSetPoint n v = (s.put (R.VREG.VOUT_SET_MV n) v).setPwr fun p => { p with setSteps := p.setSteps ++ stepsTo n 64 (s.get (R.VREG.VOUT_SET_MV n)) v } := by
  have hsome : ¬ (railRange (s.get (R.VREG.SLOT_CFG_RAIL n))).isNone = true := by
    unfold railRange
    split_ifs with h1 h2
    · simp
    · simp
    · omega
  refine (if_neg hsome).trans ?_
  rw [hs]
  rfl

theorem setMv_spec (hp : s.powered = true) (hr : s.reaches o 3 = true) (hi : s.holds o .installer = true) :
    (s.setPointOk slot.val mv.toNat = false →
      ∃ t : State, exec (.setMv o slot mv) s = .next t ∧ t.refusal = some 0x0401 ∧ t.get (R.VREG.VOUT_SET_MV slot.val) = s.get (R.VREG.VOUT_SET_MV slot.val))
    ∧ (s.setPointOk slot.val mv.toNat = true → s.setPointBusy slot.val mv.toNat = true →
      ∃ t : State, exec (.setMv o slot mv) s = .next t ∧ t.refusal = some E.VREG_BUSY ∧ t.get (R.VREG.VOUT_SET_MV slot.val) = s.get (R.VREG.VOUT_SET_MV slot.val))
    ∧ (s.setPointOk slot.val mv.toNat = true → s.setPointBusy slot.val mv.toNat = false → s.get (R.VREG.SLOT_CFG_RAIL slot.val) ≤ 2 → s.pwr.setSteps = [] →
      ∃ t : State, exec (.setMv o slot mv) s = .next t ∧ t.get (R.VREG.VOUT_SET_MV slot.val) = mv.toNat
        ∧ t.pwr.setSteps = stepsTo slot.val 64 (s.get (R.VREG.VOUT_SET_MV slot.val)) mv.toNat) := by
  have hb : 0x040 ≤ (R.VREG.VOUT_SET_MV slot.val).off := Nat.le_add_right_of_le (by decide)
  have hmeets := State.meets_of_installer hi (needOf (rowsAt 3 (0x088 + 0x10 * slot.val)))
  refine ⟨fun hok => ?_, fun hok hbusy => ?_, fun hok hbusy hrail hsteps => ?_⟩
  · obtain ⟨u, hu, heq⟩ := State.regCmd_of_illegal (v := mv.toNat) (busy := s.setPointBusy slot.val mv.toNat)
      (deny := fun t => t.refuseBlock o 3 E.VREG_BUSY slot.val) (act := fun t => t.takeSetPoint slot.val mv.toNat) hp hr hmeets hok
    refine ⟨_, congrArg Host.Outcome.next heq, State.record_refusal .., ?_⟩
    exact (State.record_get_beyond _ _ _ _ _ _ _ (Nat.ble_eq.mpr hb)).trans (hu.get _)
  · obtain ⟨u, hu, heq⟩ := State.regCmd_denies (v := mv.toNat) (deny := fun t => t.refuseBlock o 3 E.VREG_BUSY slot.val)
      (act := fun t => t.takeSetPoint slot.val mv.toNat) hp hr hmeets hok hbusy
    refine ⟨_, congrArg Host.Outcome.next heq, State.refuseBlock_refusal .., ?_⟩
    exact (State.record_get_beyond _ _ _ _ _ _ _ (Nat.ble_eq.mpr hb)).trans (hu.get _)
  · obtain ⟨u, hu, heq⟩ := State.regCmd_acts (v := mv.toNat) (deny := fun t => t.refuseBlock o 3 E.VREG_BUSY slot.val)
      (act := fun t => t.takeSetPoint slot.val mv.toNat) hp hr hmeets hok hbusy
    have hpwr : u.pwr = s.pwr := keeps_pwr hu.1 rfl
    rw [State.takeSetPoint_takes (by rw [hu.get]; exact hrail) (by rw [hpwr]; exact hsteps)] at heq
    refine ⟨_, congrArg Host.Outcome.next heq, ?_, ?_⟩
    · rw [State.setPwr_get, State.get_put_same]
      exact Nat.mod_eq_of_lt mv.isLt
    · rw [hu.get, State.setPwr, State.put_pwr, hpwr, hsteps]
      rfl

end

end Sys2Proof.Machine
end

section
/-!
Requests, and the assembly of the statement on modes and transitions.
-/

namespace Sys2Proof.Machine

open Sys2Proof.Laws

section
variable {s : State} {o : Origin} {q : PwrReq} {x : Tran}

theorem request_refused (hp : s.powered = true) (hr : s.reaches o 2 = true) (hrole : s.holds o q.role = true) {f : Refuser} (hf : (s.veto q).1 = some f) :
    ∃ t : State, (q = .doze → exec (.modeReqDoze o) s = .next t) ∧ (q = .fold → exec (.modeReqFold o) s = .next t)
        ∧ (q = .warm → exec (.warm o) s = .next t) ∧ (q = .safeIn → exec (.enter o) s = .next t) ∧ (q = .safeOut → exec (.exit o) s = .next t)
        ∧ t.get R.PWR.LAST_OUTCOME_TARGET = q.target ∧ t.get R.PWR.LAST_OUTCOME_OUTCOME = 2
        ∧ t.get R.PWR.LAST_OUTCOME_BLOCK = f.block % 256 ∧ t.get R.PWR.LAST_OUTCOME_INSTANCE = f.inst % 256
        ∧ t.get R.PWR.LAST_FUNC_FUNC = f.func.getD 0 % 512 ∧ t.get R.PWR.LAST_FUNC_IS_FUNC = b2n f.func.isSome
        ∧ t.pwr.history = (histEntry s.time q.target s.mode 2 0 f :: s.pwr.history).take 64
        ∧ t.get R.PWR.REFUSALS_COUNT = min (s.get R.PWR.REFUSALS_COUNT + 1) (2 ^ 32 - 1)
        ∧ (s.get (H.VALID 2) = 0 → t.get (H.CODE 2) = E.PWR_ENTRY_REFUSED)
        ∧ t.mode = s.mode ∧ t.pwr.tran = s.pwr.tran ∧ t.take = s.take ∧ t.media = s.media := by
  obtain ⟨u, hu, hdoze, hfold, hwarm, hin, hout⟩ := exec_request hp hr hrole
  obtain ⟨n, hn⟩ := State.request_refused ((hu.veto q).trans hf) q.go
  rw [hn] at hdoze hfold hwarm hin hout
  exact ⟨_, hdoze, hfold, hwarm, hin, hout, (hu.judged n).refused q f⟩

theorem request_drains (hp : s.powered = true) (hr : s.reaches o 2 = true) (hrole : s.holds o q.role = true) (hf : (s.veto q).1 = none)
    (hq : q = .doze ∨ q = .fold ∨ q = .warm) :
    ∃ t u : State, u = (if t.media.formatted then t.drainBuffer.startCkpt else t) ∧ t.pwr.tran = some ⟨q.tran, 2, [], [], 0, false, false, 0⟩
        ∧ t.get R.PWR.LAST_OUTCOME_TARGET = q.target ∧ t.get R.PWR.LAST_OUTCOME_OUTCOME = 0 ∧ t.mode = s.mode ∧ t.take = s.take ∧ t.media = s.media
        ∧ (q = .doze → exec (.modeReqDoze o) s = .next u) ∧ (q = .fold → exec (.modeReqFold o) s = .next u) ∧ (q = .warm → exec (.warm o) s = .next u) := by
  obtain ⟨u, hu, hdoze, hfold, hwarm, -, -⟩ := exec_request hp hr hrole
  obtain ⟨n, hn⟩ := State.request_starts ((hu.veto q).trans hf) q.go
  rw [hn, PwrReq.go_drains hq, State.startDrain_eq] at hdoze hfold hwarm
  obtain ⟨htran, htarget, hout, hmode, htake, hmedia⟩ := (hu.judged n).started q q.tran
  exact ⟨_, _, rfl, htran, htarget, hout, hmode, htake, hmedia, hdoze, hfold, hwarm⟩

theorem dozeAfterExpiry_spec (hn : s.get R.PWR.DOZE_AFTER_S ≠ 0) (hm : s.mode = 3) :
    ((s.idledOut.veto .doze).1 = none →
        ∃ v : State, v.pwr.tran = some ⟨.dozeEntry, 2, [], [], 0, false, false, 0⟩
          ∧ exec .dozeAfterExpiry s = .next (if v.media.formatted then v.drainBuffer.startCkpt else v))
      ∧ (∀ f, (s.idledOut.veto .doze).1 = some f → ∃ t : State, exec .dozeAfterExpiry s = .next t ∧ t.mode = 3 ∧ t.pwr.tran = s.pwr.tran
        ∧ t.get R.PWR.LAST_OUTCOME_OUTCOME = 2 ∧ t.get R.PWR.LAST_OUTCOME_BLOCK = f.block % 256) := by
  rw [exec_dozeAfterExpiry_eq hn hm]
  refine ⟨fun hf => ?_, fun f hf => ?_⟩
  · obtain ⟨n, hstart⟩ := State.request_starts hf fun t => t.startDrain .dozeEntry
    rw [hstart, State.startDrain_eq]
    exact ⟨_, ((s.idledOut.judged_of_freeNext n).started .doze .dozeEntry).1, rfl⟩
  · obtain ⟨n, hstart⟩ := State.request_refused hf fun t => t.startDrain .dozeEntry
    rw [hstart]
    obtain ⟨-, hout, hblock, -, -, -, -, -, -, hmode, htran, -⟩ := (s.idledOut.judged_of_freeNext n).refused .doze f
    exact ⟨_, rfl, hmode.trans hm, htran, hout, hblock⟩

/-- What an outcome leaves of the causes of SAFE. -/
theorem State.causesLeft_setOutcome (s : State) (target outcome : Nat) (r : Refuser) : (s.setOutcome target outcome r).causesLeft = s.causesLeft := by
  have hmedia (y : Fld) (hy : y.page ≠ 2) : (s.setOutcome target outcome r).get y = s.get y := State.setOutcome_get _ _ _ _ (.inl hy)
  rw [State.causesLeft, State.causesLeft, State.freeSpare, State.freeSpare, hmedia R.MEDIA.SPARE_LOW_GB (by decide), hmedia R.MEDIA.SPARE_TOTAL_GB (by decide),
    hmedia R.MEDIA.SPARE_USED_GB (by decide), State.setOutcome_get (x := R.PWR.SAFE_CAUSE_CAUSE) _ _ _ _ (.inr ⟨by decide, by decide⟩)]

theorem State.Accessed.causesLeft {u : State} (h : s.Accessed u) (n : Nat) : ({ u with freeNext := n } : State).causesLeft = s.causesLeft := by
  rw [← State.causesLeft_forget, (h.judged n).frame, State.causesLeft_forget]

theorem enter_spec (hp : s.powered = true) (hr : s.reaches o 2 = true) (hi : s.holds o .installer = true) (hf : (s.veto .safeIn).1 = none) :
    ∃ t : State, exec (.enter o) s = .next (t.enterSafe 7).settle ∧ t.get R.PWR.LAST_OUTCOME_OUTCOME = 1 ∧ t.get R.PWR.LAST_OUTCOME_TARGET = 7 ∧ t.mode = s.mode := by
  obtain ⟨u, hu, -, -, -, hin, -⟩ := exec_request (q := .safeIn) hp hr hi
  obtain ⟨n, hn⟩ := State.request_starts ((hu.veto .safeIn).trans hf) (PwrReq.go .safeIn)
  rw [hn] at hin
  refine ⟨_, hin rfl, (State.setOutcome_shows ..).2.1, (State.setOutcome_shows ..).1, ?_⟩
  rw [State.setOutcome_mode, State.setOutcome_mode]
  exact hu.get _

theorem exit_reached (hp : s.powered = true) (hr : s.reaches o 2 = true) (hi : s.holds o .installer = true) (hf : (s.veto .safeOut).1 = none) :
    ∃ t : State, exec (.exit o) s = .next t.exitSafe ∧ t.causesLeft = s.causesLeft ∧ t.mode = s.mode ∧ t.get R.PWR.SAFE_CAUSE_CAUSE = s.get R.PWR.SAFE_CAUSE_CAUSE := by
  obtain ⟨u, hu, -, -, -, -, hout⟩ := exec_request (q := .safeOut) hp hr hi
  obtain ⟨n, hn⟩ := State.request_starts ((hu.veto .safeOut).trans hf) (PwrReq.go .safeOut)
  rw [hn] at hout
  refine ⟨_, hout rfl, ?_, ?_, ?_⟩
  · rw [State.causesLeft_setOutcome, hu.causesLeft]
  · rw [State.setOutcome_mode]
    exact hu.get _
  · rw [State.setOutcome_get _ _ _ _ (.inr ⟨by decide, by decide⟩)]
    exact hu.get _

theorem exit_leaves (hp : s.powered = true) (hr : s.reaches o 2 = true) (hi : s.holds o .installer = true) (hf : (s.veto .safeOut).1 = none)
    (hc : ∀ b < 7, bitAt s.causesLeft b = false) :
    ∃ t : State, exec (.exit o) s = .next t ∧ t.get R.PWR.SAFE_CAUSE_CAUSE = 0 ∧ t.get R.PWR.LAST_OUTCOME_OUTCOME = 1
        ∧ (s.mode = 7 → t.mode ≠ 7 ∧ 3 ≤ t.mode ∧ bitAt (t.get (H.STICKY 2)) Ev.PWR.SAFE_EXITED = true) := by
  obtain ⟨t, ht, hcauses, hmode, -⟩ := exit_reached hp hr hi hf
  have hnone : (List.range 7).find? (bitAt t.causesLeft) = none := by
    rw [hcauses, List.find?_eq_none]
    intro b hb
    simp [hc b (List.mem_range.mp hb)]
  obtain ⟨hcause, hout, hexit⟩ := t.leaveSafe_leaves
  refine ⟨t.leaveSafe, ?_, hcause, hout, fun h7 => hexit (hmode.trans h7)⟩
  rw [ht, State.exitSafe, hnone]
  rfl

theorem find?_range_first {p : Nat → Bool} {n b : Nat} (hb : b < n) (hp : p b = true) (hfirst : ∀ a < b, p a = false) : (List.range n).find? p = some b := by
  rw [List.find?_range_eq_some]
  exact ⟨hp, List.mem_range.mpr hb, fun a ha => by simp [hfirst a ha]⟩

theorem exit_refused {b : Nat} {f : Refuser} (hp : s.powered = true) (hr : s.reaches o 2 = true) (hi : s.holds o .installer = true) (hf : (s.veto .safeOut).1 = none)
    (hb : b < 7) (hc : bitAt s.causesLeft b = true) (hfirst : ∀ a < b, bitAt s.causesLeft a = false) (hblock : causeBlock b = some f) :
    ∃ t : State, exec (.exit o) s = .next t ∧ t.get R.PWR.SAFE_CAUSE_CAUSE = s.get R.PWR.SAFE_CAUSE_CAUSE ∧ t.mode = s.mode
        ∧ t.get R.PWR.LAST_OUTCOME_OUTCOME = 2 ∧ t.get R.PWR.LAST_OUTCOME_BLOCK = f.block := by
  obtain ⟨t, ht, hcauses, hmode, hcause⟩ := exit_reached hp hr hi hf
  have hget {y : Fld} (hy : 0x040 ≤ y.off) (h1 : y ≠ R.PWR.REFUSALS_COUNT) (h2 : y ≠ R.PWR.ABORTS_COUNT) : (t.charge 3 2 0 f).get y = (t.setOutcome 3 2 f).get y :=
    t.charge_get 3 2 0 f (.inr hy) h1 h2
  obtain ⟨-, hout, hshown, -⟩ := t.setOutcome_shows 3 2 f
  refine ⟨t.charge 3 2 0 f, ?_, ?_, ?_, ?_, ?_⟩
  · rw [ht, State.exitSafe, hcauses, find?_range_first hb hc hfirst, Option.bind_some, hblock]
  · rw [hget (by decide) (by decide) (by decide), State.setOutcome_get _ _ _ _ (.inr ⟨by decide, by decide⟩), hcause]
  · rw [State.charge_mode, hmode]
  · rw [hget (by decide) (by decide) (by decide), hout]
  · rw [hget (by decide) (by decide) (by decide), hshown, Nat.mod_eq_of_lt (causeBlock_block hblock)]

theorem tranFailed_spec {n : Nat} (hn : n < 8) :
    (x.kind = .dozeEntry → x.reversing = false →
      ∃ (u : State) (y : Tran), s.tranFailed x n = (if y.steps = [] then u.stepsDone y else u) ∧ u.pwr.tran = some y ∧ y.reversing = true
        ∧ y.steps = stepsBack (fun m => s.get (R.VREG.VOUT_SET_MV m)) x.doneSteps ∧ u.mode = s.mode ∧ u.get R.PWR.LAST_OUTCOME_OUTCOME = 3
        ∧ u.get R.PWR.LAST_OUTCOME_BLOCK = 4 ∧ u.get R.PWR.LAST_OUTCOME_INSTANCE = n
        ∧ u.pwr.history = (histEntry s.time 1 s.mode 3 4 ⟨4, n, none⟩ :: s.pwr.history).take 64 ∧ bitAt (u.get R.VREG.LINK_STATUS_FAULTED) n = true
        ∧ (s.get (H.VALID 3) = 0 → u.get (H.CODE 3) = E.VREG_NO_ACK ∧ u.get (H.INFO 3) = n))
    ∧ (x.kind = .dozeExit → x.retried = false →
      ∃ t : State, s.tranFailed x n = t ∧ t.pwr.tran = some { x with attempts := 0, retried := true, retryAt := s.time + 10000000 }
        ∧ bitAt (t.get R.VREG.LINK_STATUS_FAULTED) n = true)
    ∧ (x.kind = .dozeExit → x.retried = true →
      ∃ t : State, s.tranFailed x n = t.enterFold true true ∧ bitAt (t.get R.VREG.LINK_STATUS_FAULTED) n = true ∧ t.pwr = s.pwr) := by
  refine ⟨fun hk hr => ?_, fun hk hr => ?_, fun hk hr => ⟨_, State.tranFailed_folds hk hr s n, s.slotFailed_bit hn, s.slotFailed_pwr n⟩⟩
  · have hget {y : Fld} (hy : y.page ≠ 2 ∨ 0x040 ≤ y.off) (h1 : y ≠ R.PWR.REFUSALS_COUNT) (h2 : y ≠ R.PWR.ABORTS_COUNT) :
        ((s.slotFailed n).charge 1 3 4 ⟨4, n, none⟩).get y = ((s.slotFailed n).setOutcome 1 3 ⟨4, n, none⟩).get y := State.charge_get _ _ _ _ _ hy h1 h2
    have hvreg {y : Fld} (hy : y.page = 3) : ((s.slotFailed n).charge 1 3 4 ⟨4, n, none⟩).get y = (s.slotFailed n).get y := by
      have hne (z : Fld) (hz : z.page = 2) : y ≠ z := fun e => by
        rw [e, hz] at hy
        cases hy
      rw [hget (.inl (by rw [hy]; decide)) (hne _ rfl) (hne _ rfl), State.setOutcome_get _ _ _ _ (.inl (by rw [hy]; decide))]
    obtain ⟨-, hout, hblock, hinst, -⟩ := (s.slotFailed n).setOutcome_shows 1 3 ⟨4, n, none⟩
    have hmode : (s.slotFailed n).mode = s.mode := s.slotFailed_get n (by decide)
    have htime : (s.slotFailed n).time = s.time := by
      rw [State.slotFailed, State.record_time, State.pulse_time]
      rfl
    refine ⟨((s.slotFailed n).charge 1 3 4 ⟨4, n, none⟩).setPwr fun p => { p with tran := some (x.back (stepsBack (fun m => s.get (R.VREG.VOUT_SET_MV m)) x.doneSteps)) },
      x.back (stepsBack (fun m => s.get (R.VREG.VOUT_SET_MV m)) x.doneSteps), State.tranFailed_aborts hk hr s n, rfl, rfl, rfl, ?_, ?_, ?_, ?_, ?_, ?_, fun hv => ?_⟩
    · exact (State.charge_mode ..).trans hmode
    · rw [State.setPwr_get, hget (.inr (by decide)) (by decide) (by decide), hout]
    · rw [State.setPwr_get, hget (.inr (by decide)) (by decide) (by decide), hblock]
      rfl
    · rw [State.setPwr_get, hget (.inr (by decide)) (by decide) (by decide), hinst]
      exact Nat.mod_eq_of_lt (by show n < 256; omega)
    · rw [State.setPwr, State.charge_pwr, ← htime, ← hmode, ← s.slotFailed_pwr n]
      rfl
    · rw [State.setPwr_get, hvreg rfl, s.slotFailed_bit hn]
    · rw [State.setPwr_get, State.setPwr_get, hvreg rfl, hvreg rfl]
      exact State.slotFailed_recorded hv hn
  · refine ⟨_, State.tranFailed_retries hk hr s n, rfl, ?_⟩
    rw [State.setPwr_get, s.slotFailed_bit hn]

end

/-- Settles O55: a request is admitted or charged to who refuses it, and each command of a transition takes the next of its steps. -/
theorem modeRequestsAndTransitions : Obligations.ModeRequestsAndTransitions := by
  unfold Obligations.ModeRequestsAndTransitions
  refine ⟨fun s o q r hqr hp hr hrole => ?_, fun s q hq ht hn hp hf => State.veto_of_take hq ht hn hp hf, fun s q h => State.veto_of_transition h,
    fun s hn hm => ⟨s.idledOut, rfl, dozeAfterExpiry_spec hn hm⟩,
    fun s o hp hr hi => ⟨enter_spec hp hr hi, exit_leaves hp hr hi, fun b f => exit_refused hp hr hi⟩,
    fun s hm b h2 h8 => ⟨_, rfl, State.enterSafe_enters hm h2 h8⟩, fun s x hx h2 hready => ⟨fun hk => drainDone_dozes hx h2 hready hk, fun hk => ?_, fun hk => ?_⟩,
    fun s x hx h2 hk hf hd hb ho hc => exec_dozeDrainDone_uncovered hx h2 hk hf hd hb ho hc, fun s _ => s.dozeEntered_spec,
    fun s slot x v rest hx hs hv h0 => vregStep_transition hx hs hv h0, fun s x n hn => tranFailed_spec hn,
    fun s slot v rest hn hs hv => vregStep_setPoint hn hs hv, fun s src => wakeSource_spec s src, fun s => ⟨_, rfl, s.startDozeExit_spec⟩,
    fun s x hx hk h4 => ?_, fun s x bad hx hk h4 => ⟨_, exec_dozeRetrainDone hx hk h4 bad, (s.dozeOver_pwr bad).1⟩, fun s c h => State.recheck_active h,
    fun s c r h => State.recheck_inactive h r, fun s x hx h0 => dozeExitRetry_spec hx h0, fun s hm hr => foldResidenceEnd_spec hm hr,
    fun s hm hr hd => railsOffEnd_spec hm hr hd, fun s o hp hr => kick_spec hp hr, fun s rs hm => vregTelemetryPoll_spec rs hm,
    fun s r h8 hpres hsup => slotReading_spec h8 hpres hsup, fun s st hm ho => pmbAlert_spec st hm ho, fun s o slot mv hp hr hi => setMv_spec hp hr hi⟩
  · have hrq : r = q.role := by
      simp only [List.mem_cons, Prod.mk.injEq, List.not_mem_nil, or_false] at hqr
      rcases hqr with ⟨rfl, rfl⟩ | ⟨rfl, rfl⟩ | ⟨rfl, rfl⟩ | ⟨rfl, rfl⟩ | ⟨rfl, rfl⟩ <;> rfl
    subst hrq
    refine ⟨fun f hf => request_refused hp hr hrole hf, fun hf k hk => ?_⟩
    have hkq : (q = .doze ∨ q = .fold ∨ q = .warm) ∧ k = q.tran := by
      simp only [List.mem_cons, Prod.mk.injEq, List.not_mem_nil, or_false] at hk
      rcases hk with ⟨rfl, rfl⟩ | ⟨rfl, rfl⟩ | ⟨rfl, rfl⟩ <;> exact ⟨by simp, rfl⟩
    obtain ⟨hq, rfl⟩ := hkq
    exact request_drains hp hr hrole hf hq
  · refine ⟨s.setOutcome 0 1 ⟨0, 0, none⟩, ?_, (State.setOutcome_shows ..).2.1, s.setOutcome_pwr ..⟩
    rw [exec_dozeDrainDone_ready hx h2 (by rw [hk]; decide) hready, State.drainOver, hk]
  · refine ⟨s.setOutcome 2 1 ⟨0, 0, none⟩, ?_, (State.setOutcome_shows ..).2.1, s.setOutcome_pwr ..⟩
    rw [exec_dozeDrainDone_ready hx h2 (by rw [hk]; decide) hready, State.drainOver, hk]
  · obtain ⟨hmode, htrain, hdram⟩ := s.dozeOver_spec
    exact ⟨_, exec_dozeRetrainDone hx hk h4 [], (s.dozeOver_pwr []).1, (s.dozeOver_pwr []).2, hmode, htrain, hdram⟩

end Sys2Proof.Machine
end

section
/-!
Power failure: what a take keeps on the way, and the phases of the sequence (R104-R106, R559).
-/

namespace Sys2Proof.Machine

open Sys2Proof.Laws

/-! ### What the triggers that are pending, and the end of perturbation, leave of a take -/

/-- The contract and the frames of a take, and the registers of its page, are as before. -/
structure State.TakeKept (s t : State) : Prop where
  c : t.take.c = s.take.c
  frames : t.take.frames = s.take.frames
  get : ∀ x : Fld, x.page = 0x11 → t.get x = s.get x

section
variable {s t u : State}

theorem State.TakeKept.refl (s : State) : s.TakeKept s := ⟨rfl, rfl, fun _ _ => rfl⟩

theorem State.TakeKept.trans (h : s.TakeKept t) (k : t.TakeKept u) : s.TakeKept u :=
  ⟨k.c.trans h.c, k.frames.trans h.frames, fun x hx => (k.get x hx).trans (h.get x hx)⟩

theorem State.TakeKept.of_forget (h : forget 0xFFFFFFFFFFFFDFDF t = forget 0xFFFFFFFFFFFFDFDF s) : s.TakeKept t :=
  ⟨congrArg TakeSt.c (keeps_take h rfl), congrArg TakeSt.frames (keeps_take h rfl), fun x _ => State.get_of_regs (keeps_regs h rfl) x⟩

theorem State.takeKept_put (s : State) {y : Fld} (hy : y.page ≠ 0x11) (v : Nat) : s.TakeKept (s.put y v) :=
  ⟨rfl, rfl, fun _ hx => State.get_put_other _ _ fun e => hy (e ▸ hx)⟩

theorem State.takeKept_pulse (s : State) {page : Nat} (hp : page ≠ 0x11) (bit : Nat) : s.TakeKept (s.pulse page bit) :=
  ⟨congrArg TakeSt.c (State.pulse_take ..), congrArg TakeSt.frames (State.pulse_take ..), fun _ hx => s.pulse_get_of_page (fun e => hp (e.symm.trans hx)) bit⟩

theorem State.takeKept_record (s : State) {page : Nat} (hp : page ≠ 0x11) (code info func ext last : Nat) : s.TakeKept (s.record page code info func ext last) :=
  ⟨congrArg TakeSt.c (State.record_take ..), congrArg TakeSt.frames (State.record_take ..), fun _ hx => s.record_get_of_page (fun e => hp (e.symm.trans hx)) ..⟩

theorem takeKept_foldl {β : Type} (g : State → β → State) (h : ∀ (t : State) b, t.TakeKept (g t b)) (l : List β) (s : State) : s.TakeKept (l.foldl g s) := by
  induction l generalizing s with
  | nil => exact .refl s
  | cons b l ih => exact (h s b).trans (ih _)

theorem takeKept_ite (c : Prop) [Decidable c] (h : s.TakeKept t) (k : s.TakeKept u) : s.TakeKept (if c then t else u) := by
  split
  · exact h
  · exact k

theorem State.takeKept_modWin (s : State) (i : Nat) (f : Window → Window) : s.TakeKept (s.modWin i f) := .of_forget (State.forget_modWin rfl ..)

theorem State.takeKept_setTrig (s : State) (f : TrigSt → TrigSt) : s.TakeKept (s.setTrig f) := .of_forget (State.forget_setTrig rfl ..)

theorem State.takeKept_keepSeg (s : State) (nsid seg : Nat) : s.TakeKept (s.keepSeg nsid seg) := by
  unfold State.keepSeg
  split
  · exact .refl s
  · dsimp only
    refine State.TakeKept.trans ?_ (.of_forget ((State.forget_setMedia rfl ..).trans (State.forget_setImage rfl ..)))
    refine State.TakeKept.trans ?_ (takeKept_foldl _ (fun t _ => .of_forget (State.forget_journal rfl ..)) _ _)
    exact ⟨rfl, rfl, fun _ _ => rfl⟩

theorem State.takeKept_trigErr (s : State) (code src : Nat) (slot : Option Nat) : s.TakeKept (s.trigErr code src slot) := s.takeKept_record (by decide) ..

theorem State.takeKept_cutWindow (s : State) (i : Nat) : s.TakeKept (s.cutWindow i) :=
  (s.takeKept_modWin i _).trans ((State.takeKept_pulse _ (by decide) _).trans ((State.takeKept_pulse _ (by decide) _).trans (State.takeKept_trigErr ..)))

theorem State.takeKept_cutSealed (s : State) (i : Nat) : s.TakeKept (s.cutSealed i) :=
  (s.takeKept_modWin i _).trans ((State.takeKept_pulse _ (by decide) _).trans (State.takeKept_trigErr ..))

theorem State.takeKept_pinSpan (s : State) (i a b : Nat) : s.TakeKept (s.pinSpan i a b).2 := by
  have hkeep (l : List Nat) : s.TakeKept (l.foldl (fun t x => match t.take.c with | some c => t.keepSeg c.nsid x | none => t) s) :=
    takeKept_foldl _ (fun t x => by
      split
      · exact State.takeKept_keepSeg ..
      · exact .refl t) _ _
  unfold State.pinSpan
  dsimp only
  split
  · exact takeKept_ite _ (State.takeKept_cutWindow ..) (State.takeKept_cutSealed ..)
  · refine takeKept_ite _ (hkeep _) (takeKept_ite _ ((hkeep _).trans (State.takeKept_setTrig ..)) ?_)
    exact (hkeep _).trans ((State.takeKept_setTrig ..).trans ((State.takeKept_pulse _ (by decide) _).trans (State.takeKept_trigErr ..)))

theorem State.takeKept_pinFrame (s : State) (i : Nat) (f : Nat × Nat × Nat) : s.TakeKept (s.pinFrame i f) := by
  unfold State.pinFrame
  dsimp only
  exact takeKept_ite _ (.refl s) (takeKept_ite _ ((State.takeKept_pinSpan ..).trans (State.takeKept_modWin ..)) (State.takeKept_pinSpan ..))

theorem State.takeKept_pinRetained (s : State) (i : Nat) : s.TakeKept (s.pinRetained i) :=
  takeKept_foldl _ (fun t _ => takeKept_ite _ (State.takeKept_pinFrame ..) (.refl t)) _ _

theorem State.takeKept_pinArriving (s : State) (i : Nat) (f : FrameSt) : s.TakeKept (s.pinArriving i f) := by
  unfold State.pinArriving
  split
  · exact .refl s
  · dsimp only
    exact takeKept_ite _ (.refl s) (takeKept_ite _ ((State.takeKept_pinSpan ..).trans (State.takeKept_modWin ..)) (State.takeKept_pinSpan ..))

theorem State.takeKept_pinUnderWay (s : State) (i : Nat) : s.TakeKept (s.pinUnderWay i) := takeKept_foldl _ (fun t f => t.takeKept_pinArriving i f) _ _

theorem State.takeKept_bump (s : State) {y : Fld} (hy : y.page ≠ 0x11) (n : Nat) : s.TakeKept (s.bump y n) := s.takeKept_put hy _

theorem State.takeKept_refuseTrigger (s : State) (code src : Nat) : s.TakeKept (s.refuseTrigger code src) :=
  (s.takeKept_bump (by decide) _).trans ((State.takeKept_pulse _ (by decide) _).trans (State.takeKept_trigErr ..))

theorem State.takeKept_trigger (s : State) (src tag time pre post : Nat) : s.TakeKept (s.trigger src tag time pre post) := by
  have haccept (t : State) : t.TakeKept ((t.bump R.TRIG.ACCEPTED_COUNT_COUNT).pulse 0x13 Ev.TRIG.ACCEPTED) :=
    (t.takeKept_bump (by decide) _).trans (State.takeKept_pulse _ (by decide) _)
  unfold State.trigger
  split
  · refine takeKept_ite _ (State.takeKept_refuseTrigger ..) (takeKept_ite _ (State.takeKept_refuseTrigger ..) ?_)
    dsimp only
    split
    · refine State.TakeKept.trans ?_ (State.takeKept_pinUnderWay ..)
      refine State.TakeKept.trans ?_ (State.takeKept_pinRetained ..)
      refine State.TakeKept.trans ?_ (State.takeKept_pulse _ (by decide) _)
      refine State.TakeKept.trans ?_ (State.takeKept_bump _ (by decide) _)
      refine State.TakeKept.trans ?_ (haccept _)
      exact (takeKept_foldl _ (fun t j => t.takeKept_modWin j _) _ _).trans (State.takeKept_modWin ..)
    · split
      · refine State.TakeKept.trans ?_ (State.takeKept_pinUnderWay ..)
        refine State.TakeKept.trans ?_ (State.takeKept_pinRetained ..)
        exact takeKept_ite _ (((State.takeKept_modWin ..).trans (haccept _)).trans (State.takeKept_trigErr ..)) ((State.takeKept_modWin ..).trans (haccept _))
      · exact State.takeKept_refuseTrigger ..
  · exact State.takeKept_refuseTrigger ..

theorem State.takeKept_settleTriggers (s : State) : s.TakeKept s.settleTriggers :=
  (s.takeKept_setTrig _).trans (takeKept_foldl _ (fun t _ => t.takeKept_trigger ..) _ _)

theorem State.takeKept_advance (s : State) : s.TakeKept s.advance := by
  have hraw (t : State) (b : Bool) : t.TakeKept (t.level 0x10 Ev.GATE.CREDITS_HELD b) := by
    unfold State.level
    exact takeKept_ite _ ((State.takeKept_put _ (by decide) _).trans (State.takeKept_pulse _ (by decide) _)) (State.takeKept_put _ (by decide) _)
  exact State.TakeKept.trans (.of_forget (State.forget_setGate rfl ..)) (hraw ..)

theorem State.takeKept_hold (s : State) {y : Fld} (hy : y.page ≠ 0x11) (b : Bool) : s.TakeKept (s.hold y b) :=
  (s.takeKept_put hy _).trans (State.takeKept_advance _)

theorem perturbPages_ne_take {p : Nat} (h : p ∈ perturbPages) : p ≠ 0x11 := by
  revert h p
  decide

theorem State.takeKept_endPerturb (s : State) (cause : PerturbEnd) : s.TakeKept (s.endPerturb cause) := by
  have hpoints (t : State) : t.TakeKept (perturbPages.foldl (fun u p => if u.get (H.POINT p) = 0 then u else u.put (H.POINT p) 0) t) := by
    refine List.foldlRecOn (motive := fun u => t.TakeKept u) _ _ (.refl t) fun u hu p hp => hu.trans ?_
    exact takeKept_ite _ (.refl u) (State.takeKept_put u (y := H.POINT p) (perturbPages_ne_take hp) 0)
  unfold State.endPerturb
  dsimp only
  refine takeKept_ite _ (.refl s) ?_
  refine State.TakeKept.trans ?_ (State.takeKept_pulse _ (by decide) _)
  refine State.TakeKept.trans ?_ (.of_forget (State.forget_setTrust rfl ..))
  refine State.TakeKept.trans ?_ (State.takeKept_hold _ (by decide) _)
  refine State.TakeKept.trans ?_ (State.takeKept_put _ (by decide) _)
  exact State.TakeKept.trans (.of_forget (State.forget_audit rfl ..)) (hpoints _)

theorem State.TakeKept.takeLive (h : s.TakeKept t) : t.takeLive = s.takeLive := by
  rw [State.takeLive, State.takeLive, h.get _ rfl]

end

/-! ### The sequence (R559) -/

section
variable {s : State} {c : Contract}

/-- PWR_FAIL_N noted. -/
def State.pfNoted (s : State) : State := s.setPwr fun p => { p with pfHigh := false }

theorem exec_pwrFailN {n : Nat} (hn : 2000 ≤ n) (hd : s.pwr.dead = false) (hp : s.take.pfPhase = 0) : exec (.pwrFailN n) s
    = if s.mode = 0 then .next s.pfNoted
      else if s.mode = 1 then .next (s.pfNoted.enterFold true false)
      else if s.pwr.bootPhase ≠ 0 then .next (s.pfNoted.enterFold false false)
      else .next s.pfNoted.powerFailure.follow := by
  have hnot : ¬ (n < 2000 ∨ s.pwr.dead = true) := by simp [hd]; omega
  have heq : exec (.pwrFailN n) s = execPwrFailN n s := rfl
  have hphase (t : State) (ht : t.take = s.take) : (t.mode = 0 ∨ t.take.pfPhase ≠ 0) ↔ t.mode = 0 := by simp [ht, hp]
  rw [heq, execPwrFailN, if_neg hnot]
  simp only [hphase _ (State.setPwr_take ..)]
  rfl

theorem pwrFailN_spec {n : Nat} (hn : 2000 ≤ n) (hd : s.pwr.dead = false) (hp : s.take.pfPhase = 0) :
    ∃ t : State, t.pwr = { s.pwr with pfHigh := false } ∧ t.regs = s.regs ∧ t.take = s.take
      ∧ (s.mode = 0 → exec (.pwrFailN n) s = .next t) ∧ (s.mode = 1 → exec (.pwrFailN n) s = .next (t.enterFold true false))
      ∧ (2 ≤ s.mode → s.pwr.bootPhase ≠ 0 → exec (.pwrFailN n) s = .next (t.enterFold false false))
      ∧ (2 ≤ s.mode → s.pwr.bootPhase = 0 → exec (.pwrFailN n) s = .next t.powerFailure.follow) := by
  have heq := exec_pwrFailN hn hd hp
  refine ⟨s.pfNoted, rfl, rfl, rfl, fun h0 => ?_, fun h1 => ?_, fun h2 hb => ?_, fun h2 hb => ?_⟩
  · rw [heq, if_pos h0]
  · rw [heq, if_neg (by omega), if_pos h1]
  · rw [heq, if_neg (by omega), if_neg (by omega), if_pos hb]
  · rw [heq, if_neg (by omega), if_neg (by omega), if_neg (by simp [hb])]

/-- A power failure begun. -/
def State.pfBegun (s : State) : State := (s.setPwr fun p => { p with pfBegun := true, tran := none, setSteps := [] }).endPerturb .powerFail

/-- A power failure of a live take, before the record is made. -/
def State.pfTaken (s : State) : State :=
  (((s.pfBegun.settleTriggers.hold R.GATE.CREDIT_STATE_HELD_PWRFAIL true).put R.TAKE.TAKE_STATE_STATE 5).pulse 0x11 Ev.TAKE.PWRFAIL).put
    R.TAKE.TAKE_STATE_CLOSE_CAUSE 8

theorem State.takeKept_pfBegun (s : State) : s.TakeKept s.pfBegun :=
  State.TakeKept.trans (.of_forget (State.forget_setPwr rfl ..)) (State.takeKept_endPerturb ..)

theorem State.pfBegun_pwr (s : State) : s.pfBegun.pwr = { s.pwr with pfBegun := true, tran := none, setSteps := [] } :=
  keeps_pwr (State.forget_endPerturb (T := 0xc80001820) rfl ..) rfl

/-- The take as its triggers are settled and its credits withheld. -/
def State.pfHeld (s : State) : State := s.pfBegun.settleTriggers.hold R.GATE.CREDIT_STATE_HELD_PWRFAIL true

theorem State.takeKept_pfHeld (s : State) : s.TakeKept s.pfHeld :=
  s.takeKept_pfBegun.trans ((State.takeKept_settleTriggers _).trans (State.takeKept_hold _ (by decide) _))

theorem State.pfHeld_pwr (s : State) : s.pfHeld.pwr = { s.pwr with pfBegun := true, tran := none, setSteps := [] } := by
  rw [State.pfHeld, keeps_pwr (State.forget_hold (T := 0x480001020) rfl ..) rfl, keeps_pwr (State.forget_settleTriggers (T := 0x480066420) rfl _) rfl, State.pfBegun_pwr]

theorem State.pfHeld_holds (s : State) : s.pfHeld.get R.GATE.CREDIT_STATE_HELD_PWRFAIL = 1 := by
  rw [State.pfHeld, State.hold, State.advance_get_beyond _ (by decide), State.putBit, State.get_put_same]
  rfl

theorem State.pfTaken_eq (s : State) :
    s.pfTaken = ((s.pfHeld.put R.TAKE.TAKE_STATE_STATE 5).pulse 0x11 Ev.TAKE.PWRFAIL).put R.TAKE.TAKE_STATE_CLOSE_CAUSE 8 := rfl

theorem State.pfTaken_take (s : State) : s.pfTaken.take = s.pfHeld.take := by
  rw [State.pfTaken_eq, State.put_take, State.pulse_take, State.put_take]

theorem State.powerFailure_of_live (hc : s.take.c = some c) (hl : s.takeLive = true) :
    s.powerFailure = (s.pfTaken.takeErr E.TAKE_POWER_FAIL).setTake fun x => { x with pfPhase := 1 } := by
  have hlive : s.pfBegun.takeLive = true := s.takeKept_pfBegun.takeLive.trans hl
  have hsome : ((s.pfHeld.put R.TAKE.TAKE_STATE_STATE 5).pulse 0x11 Ev.TAKE.PWRFAIL).take.c.isSome = true := by
    rw [State.pulse_take, State.put_take, s.takeKept_pfHeld.c, hc]
    rfl
  have heq : s.powerFailure = (let live := s.pfBegun.takeLive
      let t := if live then s.pfBegun.settleTriggers else s.pfBegun
      let t := (t.hold R.GATE.CREDIT_STATE_HELD_PWRFAIL true).put R.TAKE.TAKE_STATE_STATE 5
      let t := t.pulse 0x11 Ev.TAKE.PWRFAIL
      if t.take.c.isSome then
        let t := if live then t.put R.TAKE.TAKE_STATE_CLOSE_CAUSE 8 else t
        (t.takeErr E.TAKE_POWER_FAIL).setTake fun x => { x with pfPhase := if live then 1 else 2 }
      else (t.setTake fun x => { x with req := none }).lastPhases) := by
    unfold State.powerFailure
    rfl
  rw [heq]
  simp only [hlive, if_true]
  exact if_pos hsome

theorem powerFailure_spec (hc : s.take.c = some c) (hl : s.takeLive = true) :
    ∃ t : State, s.powerFailure = t ∧ t.get R.TAKE.TAKE_STATE_STATE = 5 ∧ t.get R.TAKE.TAKE_STATE_CLOSE_CAUSE = 8 ∧ t.take.pfPhase = 1 ∧ t.pwr.pfBegun = true
      ∧ t.pwr.tran = none ∧ t.get R.GATE.CREDIT_STATE_HELD_PWRFAIL = 1 ∧ t.take.c = some c ∧ t.take.frames = s.take.frames
      ∧ bitAt (t.get (H.STICKY 0x11)) Ev.TAKE.PWRFAIL = true ∧ (s.get (H.VALID 0x11) = 0 → t.get (H.CODE 0x11) = E.TAKE_POWER_FAIL) := by
  have hget {x : Fld} (hx : 0x040 ≤ x.off) : ((s.pfTaken.takeErr E.TAKE_POWER_FAIL).setTake fun x => { x with pfPhase := 1 }).get x = s.pfTaken.get x := by
    rw [State.setTake_get, State.takeErr, State.record_get_beyond _ _ _ _ _ _ _ (Nat.ble_eq.mpr hx)]
  have hpwr : (s.pfTaken.takeErr E.TAKE_POWER_FAIL).pwr = { s.pwr with pfBegun := true, tran := none, setSteps := [] } := by
    rw [State.takeErr, State.record_pwr, State.pfTaken_eq, State.put_pwr, State.pulse_pwr, State.put_pwr, State.pfHeld_pwr]
  have htake : (s.pfTaken.takeErr E.TAKE_POWER_FAIL).take = s.pfHeld.take := by
    rw [State.takeErr, State.record_take, State.pfTaken_take]
  refine ⟨_, State.powerFailure_of_live hc hl, ?_, ?_, rfl, ?_, ?_, ?_, ?_, ?_, ?_, fun hv => ?_⟩
  · rw [hget (by decide), State.pfTaken_eq, State.get_put_of_place _ _ rfl, State.pulse_get_beyond_header _ _ _ (by decide), State.get_put_same]
    rfl
  · rw [hget (by decide), State.pfTaken_eq, State.get_put_same]
    rfl
  · rw [State.setTake_pwr, hpwr]
  · rw [State.setTake_pwr, hpwr]
  · rw [hget (by decide), State.pfTaken_eq, State.get_put_other _ _ (by decide), State.pulse_get_beyond_header _ _ _ (by decide),
      State.get_put_other _ _ (by decide), State.pfHeld_holds]
  · rw [State.setTake_take, htake, s.takeKept_pfHeld.c, hc]
  · rw [State.setTake_take, htake, s.takeKept_pfHeld.frames]
  · rw [State.setTake_get, State.takeErr]
    refine State.record_sticky_of_set (by decide) ?_ ..
    rw [State.pfTaken_eq, State.get_put_of_place _ _ rfl, State.pulse_sticky _ _ _ (by decide)]
    rfl
  · rw [State.setTake_get, State.takeErr]
    refine State.record_get_CODE ?_ ..
    rw [State.pfTaken_eq, State.get_put_other _ _ (by decide), State.pulse_get_other _ _ _ (by decide) (by decide), State.get_put_other _ _ (by decide),
      s.takeKept_pfHeld.get _ rfl, hv]

theorem powerfailDrainEnd_spec (h : s.take.pfPhase = 1) : ∃ t : State, exec .powerfailDrainEnd s = .next t ∧ t.take.pfPhase = 2 :=
  ⟨_, if_neg (not_not_intro h), rfl⟩

theorem State.sealAll_take (s : State) : s.sealAll.take = s.take := keeps_take (State.forget_sealAll (T := 0x480004020) rfl s) rfl

theorem powerfailFlushDone_spec (hc : s.take.c = some c) (h2 : s.take.pfPhase = 2) (hf : s.take.frames = []) :
    ∃ t : State, t.take.pfPhase = 3 ∧ t.take.c = some c ∧ t.take.trailer = s.take.trailer ∧ t.take.noTrailer = s.take.noTrailer
      ∧ exec .powerfailFlushDone s
        = .next (if s.take.noTrailer = true ∨ s.take.trailer ≠ none then t else (t.setTake fun x => { x with reason := 5 }).placeTrailer c 5) := by
  have htake : (s.sealAll.setTake fun x => { x with pfPhase := 3 }).take = { s.take with pfPhase := 3 } := by
    rw [State.setTake_take, State.sealAll_take]
  have hnot : ¬ (s.take.pfPhase ≠ 2 ∨ (!s.take.frames.isEmpty) = true) := by simp [h2, hf]
  refine ⟨s.sealAll.setTake fun x => { x with pfPhase := 3 }, ?_, ?_, ?_, ?_, ?_⟩
  · rw [htake]
  · rw [htake]
    exact hc
  · rw [htake]
  · rw [htake]
  have heq : exec .powerfailFlushDone s = execPowerfailFlushDone s := rfl
  rw [heq, execPowerfailFlushDone]
  simp only [hc]
  rw [if_neg hnot, htake]
  cases s.take.noTrailer <;> cases s.take.trailer <;> rfl

theorem State.finishTake_ends (s : State) (c : Contract) : (s.finishTake c).take.c = none := by
  unfold State.finishTake
  dsimp only
  generalize (if s.take.noTrailer then s.cutTake else s) = u
  have hend (v : State) (nsid reason len : Nat) (b : Bool) :
      (((((((v.sealNs nsid reason len b).closeTakeGroups c.nsid).releaseTake).pulse 0x11 Ev.TAKE.CLOSED).follow).wake (· == .takeClosed) Nv.ok)).take.c = none := by
    have hframe (w : State) : forget 0x490000420 (((w.pulse 0x11 Ev.TAKE.CLOSED).follow).wake (· == .takeClosed) Nv.ok) = forget 0x490000420 w :=
      (State.forget_wake rfl ..).trans ((State.forget_follow rfl _).trans (State.forget_pulse rfl ..))
    rw [keeps_take (hframe _) rfl]
    exact (State.releaseTake_spec _).1
  exact hend ..

theorem powerfailCloseDone_spec (hc : s.take.c = some c) (h3 : s.take.pfPhase = 3) (hd : s.takeDone = true) :
    ∃ t : State, exec .powerfailCloseDone s = .next t.follow.lastPhases ∧ t.take.c = none
      ∧ t.get R.TAKE.TAKE_STATE_STATE = (if s.pwr.pfBegun = true then 5 else 0) := by
  have hnot : ¬ (s.take.pfPhase ≠ 3 ∨ (!s.takeDone) = true) := by simp [h3, hd]
  refine ⟨(s.finishTake c).put R.TAKE.TAKE_STATE_STATE (if s.pwr.pfBegun then 5 else 0), ?_, s.finishTake_ends c, ?_⟩
  · have heq : exec .powerfailCloseDone s = execPowerfailCloseDone s := rfl
    rw [heq, execPowerfailCloseDone]
    simp only [hc]
    rw [if_neg hnot]
  · rw [State.get_put_same]
    cases s.pwr.pfBegun <;> rfl

theorem lastPhases_unformatted (h : s.media.formatted = false) :
    ∃ t : State, s.lastPhases = t.enterFold true false ∧ t.pwr.pfBegun = false ∧ t.regs = s.regs :=
  ⟨s.setPwr fun p => { p with pfBegun := false }, if_neg (by simp [h]), rfl, rfl⟩

end

end Sys2Proof.Machine
end

section
/-!
Resets: what the loss of power or a reset takes, and what it leaves (R528, R559, R570, R571).
-/

namespace Sys2Proof.Machine

open Sys2Proof.Laws

/-! ### The end of every role and of perturbation -/

/-- What the end of roles leaves of OTP's contents, the accounts of the block and the registers that hold them. -/
structure State.Untrusted (s t : State) : Prop where
  secrets : t.secrets = s.secrets
  idle : t.get R.ROLE.IDLE_S_S = s.get R.ROLE.IDLE_S_S

section
variable {s t u : State}

theorem State.Untrusted.refl (s : State) : s.Untrusted s := ⟨rfl, rfl⟩

theorem State.Untrusted.trans (h : s.Untrusted t) (k : t.Untrusted u) : s.Untrusted u := ⟨k.secrets.trans h.secrets, k.idle.trans h.idle⟩

theorem secrets_of_trust (h : t.trust = s.trust) : t.secrets = s.secrets := by rw [State.secrets, State.secrets, h]

theorem secrets_of_sansAudit (h : t.trust.sansAudit = s.trust.sansAudit) : t.secrets = s.secrets := by
  have hsecrets (v : State) : v.secrets = (v.trust.sansAudit.otp, v.trust.sansAudit.makerGen, v.trust.sansAudit.instGen) := rfl
  rw [hsecrets, hsecrets, h]

theorem State.Untrusted.of_forget (h : forget 0xFFFFFFFFFFFFF7DF t = forget 0xFFFFFFFFFFFFF7DF s) : s.Untrusted t :=
  ⟨secrets_of_trust (keeps_trust h rfl), State.get_of_regs (keeps_regs h rfl) _⟩

theorem untrusted_foldl {β : Type} (g : State → β → State) (h : ∀ (t : State) b, t.Untrusted (g t b)) (l : List β) (s : State) : s.Untrusted (l.foldl g s) := by
  induction l generalizing s with
  | nil => exact .refl s
  | cons b l ih => exact (h s b).trans (ih _)

theorem untrusted_ite (c : Prop) [Decidable c] (h : s.Untrusted t) (k : s.Untrusted u) : s.Untrusted (if c then t else u) := by
  split
  · exact h
  · exact k

theorem State.untrusted_put (s : State) {y : Fld} (hy : y.page ≠ 6 ∨ y.off ≠ 0x048) (v : Nat) : s.Untrusted (s.put y v) :=
  ⟨rfl, State.get_put_other _ _ fun e => by
    rw [← e] at hy
    exact hy.elim (fun h => h rfl) fun h => h rfl⟩

theorem State.untrusted_puts (s : State) {l : List (Fld × Nat)} (h : l.all (fun p => p.1.page != 6 || p.1.off != 0x048) = true) : s.Untrusted (s.puts l) := by
  induction l generalizing s with
  | nil => exact .refl s
  | cons p l ih =>
    rw [List.all_cons, Bool.and_eq_true, Bool.or_eq_true, bne_iff_ne, bne_iff_ne] at h
    exact (s.untrusted_put h.1 _).trans (ih _ h.2)

theorem State.untrusted_pulse (s : State) (page bit : Nat) : s.Untrusted (s.pulse page bit) :=
  ⟨secrets_of_trust (State.pulse_trust ..), State.pulse_get_beyond_header _ _ _ (by decide)⟩

theorem State.untrusted_audit (s : State) (o : Origin) (role action result : Nat) (param : Bytes) : s.Untrusted (s.audit o role action result param) :=
  ⟨secrets_of_sansAudit (State.audit_sansAudit ..), State.audit_get ..⟩

theorem State.untrusted_setTrust (s : State) {f : TrustSt → TrustSt} (hf : ∀ x, ((f x).otp, (f x).makerGen, (f x).instGen) = (x.otp, x.makerGen, x.instGen)) :
    s.Untrusted (s.setTrust f) := ⟨hf s.trust, rfl⟩

theorem State.untrusted_hold (s : State) {y : Fld} (hy : y.page ≠ 6) (b : Bool) : s.Untrusted (s.hold y b) := by
  have hadv (t : State) : t.Untrusted t.advance :=
    ⟨secrets_of_trust (keeps_trust (State.forget_advance (T := 0x480001020) rfl _) rfl), State.advance_get_beyond _ (by decide)⟩
  exact (s.untrusted_put (.inl hy) _).trans (hadv _)

theorem State.untrusted_endPerturb (s : State) (cause : PerturbEnd) : s.Untrusted (s.endPerturb cause) := by
  unfold State.endPerturb
  dsimp only
  refine untrusted_ite _ (.refl s) ?_
  refine State.Untrusted.trans ?_ (State.untrusted_pulse ..)
  refine State.Untrusted.trans ?_ (State.untrusted_setTrust _ fun _ => rfl)
  refine State.Untrusted.trans ?_ (State.untrusted_hold _ (by decide) _)
  refine State.Untrusted.trans ?_ (State.untrusted_put _ (.inl (by decide)) _)
  exact (s.untrusted_audit ..).trans (untrusted_foldl _ (fun t p => untrusted_ite _ (.refl t) (t.untrusted_put (y := H.POINT p) (.inr (by decide : (0x02C : Nat) ≠ 0x048)) 0)) _ _)

theorem State.untrusted_freeComparator (s : State) (r : Nat) : s.Untrusted (s.freeComparator r) := s.untrusted_puts rfl

theorem State.untrusted_endRole (s : State) (x : Session) (cause : RoleEnd) : s.Untrusted (s.endRole x cause) := by
  unfold State.endRole
  dsimp only
  refine State.Untrusted.trans ?_ (State.untrusted_puts _ rfl)
  have hends : s.Untrusted (((if (s.audit x.origin x.role.num 0x0002 0 (leBytes 1 cause.toCode)).trust.armOrigin = some x.origin ∧ x.role ≠ .operator then
      (s.audit x.origin x.role.num 0x0002 0 (leBytes 1 cause.toCode)).endPerturb .role else s.audit x.origin x.role.num 0x0002 0 (leBytes 1 cause.toCode)).setTrust
        fun u => { u with sessions := u.sessions.filter (· ≠ x) })) :=
    (untrusted_ite _ ((s.untrusted_audit ..).trans (State.untrusted_endPerturb ..)) (s.untrusted_audit ..)).trans (State.untrusted_setTrust _ fun _ => rfl)
  exact untrusted_ite _ hends (hends.trans (untrusted_foldl _ (fun t r => (t.untrusted_freeComparator r).trans (State.untrusted_pulse ..)) _ _))

theorem State.untrusted_endTrust (s : State) : s.Untrusted s.endTrust :=
  (untrusted_foldl _ (fun t x => t.untrusted_endRole x .reset) _ _).trans (State.untrusted_endPerturb ..)

theorem State.untrusted_setMode (s : State) (m : Nat) : s.Untrusted (s.setMode m) :=
  ⟨secrets_of_trust (keeps_trust (State.forget_setMode (T := 0x490000020) rfl ..) rfl), State.setMode_get (s := s) (m := m) (x := R.ROLE.IDLE_S_S) (by decide) (by decide)⟩

end

/-! ### What is lost -/

/-- What the loss of power, or a reset, leaves of a state. -/
structure State.Lost (s t : State) (warm : Bool) : Prop where
  takeless : t.take.c = none
  keyless : t.keysGone
  alarmed : t.keys.alarmed = (warm && s.keys.alarmed)
  roleless : t.trust.sessions = []
  secrets : t.secrets = s.secrets
  still : t.pwr.tran = none
  cleanStop : t.pwr.cleanStop = s.pwr.cleanStop
  wakes : t.pwr.wakes = s.pwr.wakes
  colds : t.pwr.colds = s.pwr.colds
  flash : t.nand.flash = s.nand.flash
  formatted : t.media.formatted = s.media.formatted
  pending : t.pending = s.pending
  kept : ∀ x : Fld, x.page < 0x80 → x.page ≠ 0x13 → (if warm then keptWarm x else keptAlways x) = true → t.get x = s.get x
  dropped : ∀ x : Fld, x.page < 0x80 → (if warm then keptWarm x else keptAlways x) = false → t.get x = resetOf x

section
variable {s : State} {x : Fld}

theorem State.channelsOff_get (hx : x.page < 0x80) (s : State) : s.channelsOff.get x = s.get x := by
  have hdram (t : State) (c v : Nat) : (t.put (R.DRAM.CH_STATUS_STATE c) v).get x = t.get x := State.get_put_other _ _ fun e => by
    have hpage : x.page = 0xA0 + c := congrArg Fld.page e
    omega
  have hnand (t : State) (c v : Nat) : (t.put (R.NAND.CH_STATUS_STATE c) v).get x = t.get x := State.get_put_other _ _ fun e => by
    have hpage : x.page = 0x80 + c := congrArg Fld.page e
    omega
  unfold State.channelsOff
  dsimp only
  exact (foldl_keeps (fun t : State => t.get x) (fun t c => hnand t c _) _ _).trans (foldl_keeps (fun t : State => t.get x) (fun t c => hdram t c _) _ _)

/-- What a reset loses from, once the windows and the take are cut. -/
def State.cutOff (s : State) : State := s.rebaseRtc.cutWindows.cutAtLoss

theorem State.cutOff_frame (s : State) : forget 0x480306038 s.cutOff = forget 0x480306038 s :=
  (State.forget_cutAtLoss rfl _).trans ((State.forget_cutWindows rfl _).trans rfl)

theorem State.cutOff_get (s : State) (hx : x.page ≠ 0x13) : s.cutOff.get x = s.get x := by
  have hseal (t : State) (i : Nat) : (t.sealWindow i true).get x = t.get x := by
    unfold State.sealWindow
    dsimp only
    split
    · rfl
    · exact (State.pulse_get_of_page _ hx _).trans (State.get_of_regs (State.modWin_regs ..) _)
  have hcut (t : State) : t.cutAtLoss.get x = t.get x := State.get_of_regs (keeps_regs (State.forget_cutAtLoss (T := 0x80302000) rfl t) rfl) x
  rw [State.cutOff, hcut]
  unfold State.cutWindows
  refine (State.get_of_regs (keeps_regs (State.forget_setTrig (T := 0x4000) rfl ..) rfl) x).trans ?_
  refine (State.get_of_regs (keeps_regs (State.forget_cutPinned (T := 0x4000) rfl _) rfl) x).trans ?_
  exact foldl_keeps (fun t : State => t.get x) (fun t i => by
    split
    · exact hseal t i
    · rfl) _ _

theorem State.cutOff_alarmed (s : State) : s.cutOff.keys.alarmed = s.keys.alarmed := by
  have hcut : s.rebaseRtc.cutWindows.keys = s.keys := keeps_keys ((State.forget_cutWindows (T := 0x480004038) rfl _).trans rfl) rfl
  unfold State.cutOff State.cutAtLoss
  generalize s.rebaseRtc.cutWindows = u at hcut ⊢
  have hseal (t : State) (nsid reason len : Nat) (b : Bool) : (t.sealNs nsid reason len b).keys = t.keys := keeps_keys (State.forget_sealNs (T := 0x80200000) rfl ..) rfl
  have halarmed : u.keys.alarmed = s.keys.alarmed := congrArg KeySt.alarmed hcut
  split
  · rw [hcut]
  · dsimp only
    split
    · rw [hcut]
    · split
      · split
        · rw [hseal, hcut]
        · rw [State.setKeys_keys, hseal]
          exact halarmed
      · rw [if_neg Bool.false_ne_true, State.setKeys_keys, hseal]
        exact halarmed

theorem State.unput_regs (s : State) (keep : Fld → Bool) : (s.unput keep).regs = s.regs.filter fun p => keep p.1 := rfl

/-- What a reset loses, before the channels go off. -/
theorem State.lose_parts (s : State) (warm : Bool) : ∃ t : State, s.lose warm = (if warm then t.channelsOff else t) ∧ s.cutOff.Lost t warm := by
  have hkeep (u : State) {keep : Fld → Bool} {t : State} (h : t.regs = u.regs.filter fun p => keep p.1) (y : Fld) : t.get y = (u.unput keep).get y :=
    State.get_of_regs (h.trans (State.unput_regs ..).symm) y
  unfold State.lose State.cutOff
  dsimp only
  generalize s.rebaseRtc.cutWindows.cutAtLoss = u
  refine ⟨_, rfl, ?_⟩
  exact
    { takeless := rfl, keyless := ⟨rfl, rfl, rfl, rfl, rfl, rfl⟩, alarmed := rfl, roleless := rfl, secrets := rfl, still := rfl, cleanStop := rfl, wakes := rfl,
      colds := rfl, flash := rfl, formatted := rfl, pending := rfl,
      kept := fun x _ _ h => (hkeep u (keep := fun y => if warm then keptWarm y else keptAlways y) rfl x).trans (State.unput_get_of_kept _ h)
      dropped := fun x _ h => (hkeep u (keep := fun y => if warm then keptWarm y else keptAlways y) rfl x).trans (State.unput_get_of_dropped _ h) }

theorem State.Lost.channelsOff {t : State} {warm : Bool} (h : s.Lost t warm) : s.Lost t.channelsOff warm := by
  have hframe : forget 0x20 t.channelsOff = forget 0x20 t := State.forget_channelsOff rfl t
  have hkeys : t.channelsOff.keys = t.keys := keeps_keys hframe rfl
  have htrust : t.channelsOff.trust = t.trust := keeps_trust hframe rfl
  have hpwr : t.channelsOff.pwr = t.pwr := keeps_pwr hframe rfl
  exact
    { takeless := (congrArg TakeSt.c (keeps_take hframe rfl)).trans h.takeless, keyless := by rw [State.keysGone, hkeys]; exact h.keyless
      alarmed := by rw [hkeys]; exact h.alarmed
      roleless := by rw [htrust]; exact h.roleless
      secrets := (secrets_of_trust htrust).trans h.secrets, still := by rw [hpwr]; exact h.still
      cleanStop := by rw [hpwr]; exact h.cleanStop
      wakes := by rw [hpwr]; exact h.wakes
      colds := by rw [hpwr]; exact h.colds
      flash := (congrArg NandSt.flash (keeps_nand hframe rfl)).trans h.flash
      formatted := (congrArg MediaSt.formatted (keeps_media hframe rfl)).trans h.formatted, pending := (keeps_pending hframe rfl).trans h.pending
      kept := fun x hx h13 hk => (State.channelsOff_get hx t).trans (h.kept x hx h13 hk)
      dropped := fun x hx hk => (State.channelsOff_get hx t).trans (h.dropped x hx hk) }

/-- What is cut off before a loss is not lost from. -/
theorem State.Lost.of_cutOff {t : State} {warm : Bool} (h : s.cutOff.Lost t warm) : s.Lost t warm := by
  have halarmed := s.cutOff_alarmed
  have hget {y : Fld} (hy : y.page ≠ 0x13) : s.cutOff.get y = s.get y := s.cutOff_get hy
  have hframe := s.cutOff_frame
  generalize s.cutOff = u at h halarmed hget hframe
  have hpwr : u.pwr = s.pwr := keeps_pwr hframe rfl
  have hnand : u.nand = s.nand := keeps_nand hframe rfl
  have hmedia : u.media = s.media := keeps_media hframe rfl
  exact
    { takeless := h.takeless, keyless := h.keyless
      alarmed := by rw [h.alarmed, halarmed]
      roleless := h.roleless, secrets := h.secrets.trans (secrets_of_trust (keeps_trust hframe rfl)), still := h.still
      cleanStop := by rw [h.cleanStop, hpwr]
      wakes := by rw [h.wakes, hpwr]
      colds := by rw [h.colds, hpwr]
      flash := by rw [h.flash, hnand]
      formatted := by rw [h.formatted, hmedia]
      pending := h.pending.trans (keeps_pending hframe rfl)
      kept := fun x hx h13 hk => (h.kept x hx h13 hk).trans (hget h13)
      dropped := h.dropped }

theorem State.lose_lost (s : State) (warm : Bool) : s.Lost (s.lose warm) warm := by
  obtain ⟨t, heq, h⟩ := s.lose_parts warm
  rw [heq]
  cases warm with
  | false => exact h.of_cutOff
  | true => exact h.of_cutOff.channelsOff

end

end Sys2Proof.Machine
end

section
/-!
FOLD, the loss of power and the resets: what each leaves (R528, R546, R559, R570, R571).
-/

namespace Sys2Proof.Machine

open Sys2Proof.Laws

section
variable {s t : State} {x : Fld}

/-! ### The steps before a loss -/

/-- The end of trust and the move to a mode, before what that mode loses. -/
theorem State.leave_untrusted (s : State) (m : Nat) : s.Untrusted (s.endTrust.setMode m) := s.untrusted_endTrust.trans (State.untrusted_setMode ..)

theorem State.leave_frame (s : State) (m : Nat) : forget 0xC90001820 (s.endTrust.setMode m) = forget 0xC90001820 s :=
  (State.forget_setMode rfl ..).trans (State.forget_endTrust rfl s)

theorem State.leave_pwr (s : State) (m : Nat) : ∃ a i j, (s.endTrust.setMode m).pwr = { s.pwr with acct := a, modeSince := i, idleSince := j } := by
  have hpwr : s.endTrust.pwr = s.pwr := keeps_pwr (State.forget_endTrust (T := 0xC80001820) rfl s) rfl
  rw [← hpwr]
  exact State.setMode_pwr ..

/-- A state's account of its clean stop and of the wake sources, as a mode is left. -/
def State.departing (s : State) (m : Nat) (f : PwrSt → PwrSt) : State := (s.endTrust.setMode m).setPwr f

theorem State.departing_lost (s : State) (m : Nat) (f : PwrSt → PwrSt) (warm : Bool) : (s.departing m f).Lost ((s.departing m f).lose warm) warm := State.lose_lost ..

theorem State.departing_flash (s : State) (m : Nat) (f : PwrSt → PwrSt) : (s.departing m f).nand.flash = s.nand.flash :=
  congrArg NandSt.flash (keeps_nand (s.leave_frame m) rfl)

theorem State.departing_formatted (s : State) (m : Nat) (f : PwrSt → PwrSt) : (s.departing m f).media.formatted = s.media.formatted :=
  congrArg MediaSt.formatted (keeps_media (s.leave_frame m) rfl)

theorem State.departing_pending (s : State) (m : Nat) (f : PwrSt → PwrSt) : (s.departing m f).pending = s.pending := keeps_pending (s.leave_frame m) rfl

theorem State.departing_secrets (s : State) (m : Nat) (f : PwrSt → PwrSt) : (s.departing m f).secrets = s.secrets := (s.leave_untrusted m).secrets

theorem instGen_of_secrets (h : t.secrets = s.secrets) : t.trust.instGen = s.trust.instGen := congrArg (fun x => x.2.2) h

theorem otp_of_secrets (h : t.secrets = s.secrets) : t.trust.otp = s.trust.otp := congrArg Prod.fst h

/-! ### FOLD and the loss of power -/

theorem State.puts_mode_mode (s : State) (m p : Nat) : (s.puts [(R.PWR.MODE_MODE, m), (R.PWR.MODE_PREV, p)]).mode = m % 8 := by
  rw [State.puts_cons, State.puts_cons, State.puts_nil, State.mode, State.get_put_of_place _ _ rfl, State.get_put_same]
  rfl

theorem State.puts_mode_prev (s : State) (m p : Nat) : (s.puts [(R.PWR.MODE_MODE, m), (R.PWR.MODE_PREV, p)]).get R.PWR.MODE_PREV = p % 8 := by
  rw [State.puts_cons, State.puts_cons, State.puts_nil, State.get_put_same]
  rfl

theorem State.puts_mode_get (s : State) (m p : Nat) (hx : x.page ≠ 2) : (s.puts [(R.PWR.MODE_MODE, m), (R.PWR.MODE_PREV, p)]).get x = s.get x := by
  rw [State.puts_cons, State.puts_cons, State.puts_nil, State.get_put_other _ _ fun e => hx (congrArg Fld.page e), State.get_put_other _ _ fun e => hx (congrArg Fld.page e)]

theorem enterFold_spec (s : State) (clean off : Bool) :
    ∃ t : State, s.enterFold clean off = t ∧ t.mode = 0 ∧ t.get R.PWR.MODE_PREV = s.mode % 8 ∧ t.take.c = none ∧ t.keys.kekMedia = none ∧ t.keys.slots = []
      ∧ t.trust.sessions = [] ∧ t.trust.otp = s.trust.otp ∧ t.pwr.tran = none ∧ t.pwr.bootPhase = 0 ∧ t.pwr.railsOff = off ∧ t.pwr.residenceOver = false ∧ t.pwr.wakes = 0
      ∧ t.pwr.cleanStop = (clean || s.pwr.cleanStop) ∧ t.nand.flash = s.nand.flash ∧ t.media.formatted = s.media.formatted := by
  let f : PwrSt → PwrSt := fun p => { p with cleanStop := clean || p.cleanStop, stoppedAt := s.rtcTicks, wakes := 0 }
  have hlost := s.departing_lost 0 f false
  have hflash := s.departing_flash 0 f
  have hformatted := s.departing_formatted 0 f
  have hotp := otp_of_secrets (s.departing_secrets 0 f)
  obtain ⟨a, i, j, hpwr⟩ := s.leave_pwr 0
  have hleft : (s.departing 0 f).pwr = f { s.pwr with acct := a, modeSince := i, idleSince := j } := congrArg f hpwr
  have heq : s.enterFold clean off
      = (((s.departing 0 f).lose false).setPwr fun p => { p with bootPhase := 0, railsOff := off, residenceOver := false, modeSince := s.time }).puts
          [(R.PWR.MODE_MODE, 0), (R.PWR.MODE_PREV, s.mode)] := by
    unfold State.enterFold State.departing
    rfl
  generalize s.departing 0 f = u at *
  generalize u.lose false = v at *
  obtain ⟨hkek, -, hslots, -⟩ := hlost.keyless
  refine ⟨_, heq, State.puts_mode_mode .., State.puts_mode_prev .., hlost.takeless, hkek, hslots, hlost.roleless, (otp_of_secrets hlost.secrets).trans hotp, hlost.still, rfl, rfl,
    rfl, ?_, ?_, hlost.flash.trans hflash, hlost.formatted.trans hformatted⟩
  · exact hlost.wakes.trans (congrArg PwrSt.wakes hleft)
  · exact hlost.cleanStop.trans (congrArg PwrSt.cleanStop hleft)

theorem powerCut_spec (hm : s.mode ≠ 0) :
    ∃ t : State, exec .powerCut s = .next t ∧ t.mode = 0 ∧ t.pwr.dead = true ∧ t.take.c = none ∧ t.keys.kekMedia = none ∧ t.trust.sessions = []
      ∧ t.trust.otp = s.trust.otp ∧ t.nand.flash = s.nand.flash ∧ t.pwr.cleanStop = s.pwr.cleanStop := by
  have heq : exec .powerCut s = execPowerCut s := rfl
  rw [heq, execPowerCut, if_neg hm]
  have hlost := (s.setPwr fun p => { p with stoppedAt := s.rtcTicks }).lose_lost false
  have hotp : (s.setPwr fun p => { p with stoppedAt := s.rtcTicks }).trust.otp = s.trust.otp := rfl
  have hflash : (s.setPwr fun p => { p with stoppedAt := s.rtcTicks }).nand.flash = s.nand.flash := rfl
  have hclean : (s.setPwr fun p => { p with stoppedAt := s.rtcTicks }).pwr.cleanStop = s.pwr.cleanStop := rfl
  generalize (s.setPwr fun p => { p with stoppedAt := s.rtcTicks }) = u at *
  generalize u.lose false = v at *
  exact ⟨_, rfl, State.puts_mode_mode .., rfl, hlost.takeless, hlost.keyless.1, hlost.roleless, (otp_of_secrets hlost.secrets).trans hotp, hlost.flash.trans hflash,
    hlost.cleanStop.trans hclean⟩

/-! ### A boot's start -/

theorem newestInst_of_otp (h : t.trust.otp = s.trust.otp) : t.newestInst = s.newestInst := by
  have hof (u : State) : u.newestInst = { State.reset with trust := { TrustSt.reset with otp := u.trust.otp } }.newestInst := rfl
  rw [hof t, hof s, h]

theorem newestMaker_of_otp (h : t.trust.otp = s.trust.otp) : t.newestMaker = s.newestMaker := by
  have hof (u : State) : u.newestMaker = { State.reset with trust := { TrustSt.reset with otp := u.trust.otp } }.newestMaker := rfl
  rw [hof t, hof s, h]

theorem State.startBoot_frame (s : State) (cold : Bool) (cause : Nat) : forget 0x1000083A (s.startBoot cold cause) = forget 0x1000083A s := State.forget_startBoot rfl ..

/-- What a cold boot takes from OTP. -/
def TrustSt.booted (x : TrustSt) (cold : Bool) (maker inst : Option Nat) (decom : Bool) : TrustSt :=
  if cold then { x with makerGen := maker, instGen := inst, decom := decom } else x

theorem State.takeOtp_trust (s : State) : ∃ d, s.takeOtp.trust = { s.trust with makerGen := s.newestMaker, instGen := s.newestInst, decom := d } :=
  ⟨_, keeps_trust (State.forget_loadSlots (T := 0x20) rfl _) rfl⟩

theorem State.bootBegun_trust (s : State) (cold : Bool) : (s.bootBegun cold).trust = s.trust := by rw [State.bootBegun, State.setPwr_trust, State.setDtime]

theorem State.startBoot_trust (s : State) (cold : Bool) (cause : Nat) :
    ∃ d, (s.startBoot cold cause).trust = s.trust.booted cold s.newestMaker s.newestInst d := by
  have htail (t : State) (l : List (Fld × Nat)) : (t.mirrorOtp.puts l).layoutBack.trust = t.trust :=
    (keeps_trust (State.forget_layoutBack (T := 0x20) rfl _) rfl).trans
      ((keeps_trust (State.forget_puts (T := 0x20) rfl ..) rfl).trans (keeps_trust (State.forget_mirrorOtp (T := 0x20) rfl t) rfl))
  rw [State.startBoot_eq, htail, State.bootOtp]
  have hbegun := s.bootBegun_trust cold
  generalize s.bootBegun cold = u at hbegun ⊢
  cases cold with
  | false => exact ⟨false, hbegun⟩
  | true =>
    obtain ⟨d, hd⟩ := u.takeOtp_trust
    rw [hbegun, newestInst_of_otp (congrArg TrustSt.otp hbegun), newestMaker_of_otp (congrArg TrustSt.otp hbegun)] at hd
    exact ⟨d, hd⟩

theorem TrustSt.booted_sessions (x : TrustSt) (cold : Bool) (m i : Option Nat) (d : Bool) : (x.booted cold m i d).sessions = x.sessions := by
  cases cold <;> rfl

theorem TrustSt.booted_otp (x : TrustSt) (cold : Bool) (m i : Option Nat) (d : Bool) : (x.booted cold m i d).otp = x.otp := by
  cases cold <;> rfl

theorem TrustSt.booted_gens (x : TrustSt) (m i : Option Nat) (d : Bool) : (x.booted true m i d).instGen = i ∧ (x.booted true m i d).makerGen = m := ⟨rfl, rfl⟩

/-- The boot's start as the rules that follow it see it. -/
theorem State.startBoot_started (s : State) (cold : Bool) (cause : Nat) :
    (s.startBoot cold cause).pwr.bootPhase = 1 ∧ (s.startBoot cold cause).take = s.take ∧ (s.startBoot cold cause).keys = s.keys
      ∧ (s.startBoot cold cause).trust.sessions = s.trust.sessions ∧ (s.startBoot cold cause).trust.otp = s.trust.otp
      ∧ (s.startBoot cold cause).nand = s.nand ∧ (s.startBoot cold cause).pending = s.pending := by
  obtain ⟨d, htrust⟩ := s.startBoot_trust cold cause
  have hframe := s.startBoot_frame cold cause
  refine ⟨?_, keeps_take hframe rfl, keeps_keys hframe rfl, ?_, ?_, keeps_nand hframe rfl, keeps_pending hframe rfl⟩
  · rw [State.startBoot_pwr]
    rfl
  · rw [htrust, TrustSt.booted_sessions]
  · rw [htrust, TrustSt.booted_otp]

/-! ### A warm reset -/

/-- The state of a warm reset before its boot. -/
def State.warmed (s : State) (clean : Bool) : State :=
  ((s.departing 2 fun p => { p with cleanStop := clean || p.cleanStop, stoppedAt := s.rtcTicks }).lose true).puts [(R.PWR.MODE_MODE, 2), (R.PWR.MODE_PREV, s.mode)]

theorem State.warmReset_eq (s : State) (cause : Nat) (clean : Bool) : s.warmReset cause clean = (s.warmed clean).startBoot false cause := by
  unfold State.warmReset State.warmed State.departing
  rfl

theorem State.warmReset_get (hx : x.page < 0x80) (h13 : x.page ≠ 0x13) (h2 : x.page ≠ 2) (hp : otpPages.contains x.page = false) (h1 : x ≠ R.CLK.ROOT_STATUS_REF_PRESENT)
    (s : State) (cause : Nat) (clean : Bool) :
    (keptWarm x = true → (s.warmReset cause clean).get x = (s.endTrust.setMode 2).get x) ∧ (keptWarm x = false → (s.warmReset cause clean).get x = resetOf x) := by
  rw [State.warmReset_eq, State.startBoot_get hp (fun e => h2 (congrArg Fld.page e)) (fun e => h2 (congrArg Fld.page e)) h1, State.warmed, State.puts_mode_get _ _ _ h2]
  have hlost := s.departing_lost 2 (fun p => { p with cleanStop := clean || p.cleanStop, stoppedAt := s.rtcTicks }) true
  exact ⟨fun h => (hlost.kept x hx h13 h).trans (State.setPwr_get ..), fun h => hlost.dropped x hx h⟩

theorem State.warmReset_mode (s : State) (cause : Nat) (clean : Bool) : (s.warmReset cause clean).mode = 2 := by
  rw [State.warmReset_eq, State.mode, State.startBoot_get rfl (by decide) (by decide) (by decide)]
  exact State.puts_mode_mode ..

theorem State.warmReset_power (s : State) (cause : Nat) (clean : Bool) {y : Fld} (hy : y.page = 2) (h1 : y ≠ R.PWR.RESET_CAUSE_CAUSE) (h2 : y ≠ R.PWR.WAKE_CAUSE_SOURCES)
    (h3 : y.off ≠ 0x040) (hk : keptWarm y = false) : (s.warmReset cause clean).get y = resetOf y := by
  have hoff : otpPages.contains y.page = false := by rw [hy]; rfl
  have hmode (z : Fld) (hz : z.off = 0x040) : y ≠ z := fun e => h3 (e ▸ hz)
  rw [State.warmReset_eq, State.startBoot_get hoff h1 h2 (fun e => by rw [e] at hy; cases hy), State.warmed, State.puts_cons, State.puts_cons, State.puts_nil,
    State.get_put_other _ _ (hmode _ rfl), State.get_put_other _ _ (hmode _ rfl)]
  exact (s.departing_lost 2 _ true).dropped y (by omega) hk

theorem State.warmReset_started (s : State) (cause : Nat) (clean : Bool) :
    (s.warmReset cause clean).pwr.bootPhase = 1 ∧ (s.warmReset cause clean).take.c = none ∧ (s.warmReset cause clean).keysGone
      ∧ (s.warmReset cause clean).trust.sessions = [] ∧ (s.warmReset cause clean).trust.otp = s.trust.otp ∧ (s.warmReset cause clean).trust.instGen = s.trust.instGen
      ∧ (s.warmReset cause clean).nand.flash = s.nand.flash ∧ (s.warmReset cause clean).pending = s.pending := by
  let f : PwrSt → PwrSt := fun p => { p with cleanStop := clean || p.cleanStop, stoppedAt := s.rtcTicks }
  have hlost := s.departing_lost 2 f true
  have hflash := s.departing_flash 2 f
  have hpending := s.departing_pending 2 f
  have hsecrets := hlost.secrets.trans (s.departing_secrets 2 f)
  obtain ⟨hphase, htake, hkeys, hsessions, hotp, hnand, hpend⟩ := (s.warmed clean).startBoot_started false cause
  obtain ⟨d, htrust⟩ := (s.warmed clean).startBoot_trust false cause
  have hinst : ((s.warmed clean).startBoot false cause).trust.instGen = (s.warmed clean).trust.instGen := congrArg TrustSt.instGen htrust
  have hwarmed : s.warmed clean = ((s.departing 2 f).lose true).puts [(R.PWR.MODE_MODE, 2), (R.PWR.MODE_PREV, s.mode)] := by
    unfold State.warmed
    rfl
  have hsame := instGen_of_secrets hsecrets
  have hotps := otp_of_secrets hsecrets
  rw [State.warmReset_eq]
  generalize (s.warmed clean).startBoot false cause = v at *
  generalize s.warmed clean = w at *
  generalize (s.departing 2 f).lose true = u at *
  subst hwarmed
  rw [State.keysGone, hphase, htake, hkeys, hsessions, hotp, hnand, hpend, hinst]
  exact ⟨rfl, hlost.takeless, hlost.keyless, hlost.roleless, hotps, hsame, hlost.flash.trans hflash, hlost.pending.trans hpending⟩

theorem warmReset_spec (s : State) (cause : Nat) (clean : Bool) :
    ∃ t : State, s.warmReset cause clean = t ∧ t.mode = 2 ∧ t.get R.PWR.MODE_PREV = s.mode % 8 ∧ t.get R.PWR.RESET_CAUSE_CAUSE = cause % 16 ∧ t.pwr.bootPhase = 1
      ∧ t.take.c = none ∧ t.get R.TAKE.TAKE_STATE_STATE = 0 ∧ t.keys.kekMedia = none ∧ t.trust.sessions = [] ∧ t.trust.otp = s.trust.otp
      ∧ t.trust.instGen = s.trust.instGen ∧ t.get R.ROLE.IDLE_S_S = s.get R.ROLE.IDLE_S_S ∧ t.nand.flash = s.nand.flash ∧ t.pending = s.pending := by
  obtain ⟨hphase, htake, hkeys, hsessions, hotp, hinst, hflash, hpend⟩ := s.warmReset_started cause clean
  refine ⟨_, rfl, s.warmReset_mode cause clean, ?_, ?_, hphase, htake, ?_, hkeys.1, hsessions, hotp, hinst, ?_, hflash, hpend⟩
  · rw [State.warmReset_eq, State.startBoot_get rfl (by decide) (by decide) (by decide)]
    exact State.puts_mode_prev ..
  · rw [State.warmReset_eq]
    exact State.startBoot_cause ..
  · exact (State.warmReset_get (by decide) (by decide) (by decide) rfl (by decide) s cause clean).2 (by decide)
  · exact ((State.warmReset_get (by decide) (by decide) (by decide) rfl (by decide) s cause clean).1 (by decide)).trans (s.leave_untrusted 2).idle

/-! ### A cold reset -/

/-- The state that a cold reset of a device in service has lost everything to. -/
def State.colded (s : State) : State := (s.departing 2 fun p => { p with stoppedAt := s.rtcTicks }).lose false

/-- What a cold reset does to the clock, the mode and the lockouts before its boot. -/
def State.coldTail (s : State) (from_ cause : Nat) : State :=
  let t := s.puts [(R.PWR.MODE_MODE, 2), (R.PWR.MODE_PREV, from_)]
  let t := t.rebaseRtc.unput fun f => !(f == R.RTC.STATUS_OSC_FAIL || (f.page == 4 && decide (0x060 ≤ f.off)))
  let t := if 2 ≤ cause then t else t.setTrust fun x => { x with lockouts := TrustSt.reset.lockouts }
  let t := if cause = 0 then
      let f := t.fresh
      { f.2 with rtcBase := f.1 % 2 ^ 63, regs := f.2.regs.filter fun x => x.1.page != 4 }
    else t
  t.setPwr fun p => { p with dead := false }

theorem State.coldReset_eq (hm : s.mode ≠ 0) (cause : Nat) : s.coldReset cause = (s.colded.coldTail s.mode cause).startBoot true cause := by
  unfold State.coldReset State.coldTail State.colded State.departing
  dsimp only
  rw [if_neg hm, if_neg hm]

theorem State.coldTail_kept (s : State) (from_ cause : Nat) :
    (s.coldTail from_ cause).take = s.take ∧ (s.coldTail from_ cause).keys = s.keys ∧ (s.coldTail from_ cause).trust.sessions = s.trust.sessions
      ∧ (s.coldTail from_ cause).trust.otp = s.trust.otp ∧ (s.coldTail from_ cause).nand = s.nand
      ∧ (s.coldTail from_ cause).pwr = { s.pwr with dead := false } := by
  unfold State.coldTail
  dsimp only
  generalize hu : State.unput _ _ = u
  have hframe : forget 0x38 u = forget 0x38 s :=
    hu ▸ (State.forget_unput rfl ..).trans ((State.forget_rebaseRtc rfl ..).trans (State.forget_puts rfl ..))
  rw [← keeps_take hframe rfl, ← keeps_keys hframe rfl, ← keeps_trust hframe rfl, ← keeps_nand hframe rfl, ← keeps_pwr hframe rfl]
  clear hu hframe
  split <;> split <;> exact ⟨rfl, rfl, rfl, rfl, rfl, rfl⟩

/-- Whether a cold reset's clock keeps a register. -/
def keptCold (cause : Nat) (y : Fld) : Bool := !(y == R.RTC.STATUS_OSC_FAIL || (y.page == 4 && decide (0x060 ≤ y.off))) && !(decide (cause = 0) && y.page == 4)

theorem State.coldTail_get (s : State) (from_ cause : Nat) (y : Fld) :
    (s.coldTail from_ cause).get y = ((s.puts [(R.PWR.MODE_MODE, 2), (R.PWR.MODE_PREV, from_)]).unput (keptCold cause)).get y := by
  have hregs : (s.coldTail from_ cause).regs = (s.puts [(R.PWR.MODE_MODE, 2), (R.PWR.MODE_PREV, from_)]).regs.filter fun p => keptCold cause p.1 := by
    unfold State.coldTail keptCold
    dsimp only
    by_cases h0 : cause = 0
    · rw [if_pos h0, if_neg (by omega : ¬2 ≤ cause)]
      simp only [h0, decide_true, Bool.true_and]
      refine (List.filter_filter ..).trans (List.filter_congr fun p _ => ?_)
      exact Bool.and_comm _ _
    · rw [if_neg h0]
      simp only [h0, decide_false, Bool.false_and, Bool.not_false, Bool.and_true]
      split <;> rfl
  exact State.get_of_regs (hregs.trans (State.unput_regs ..).symm) y

theorem State.coldTail_mode (s : State) (from_ cause : Nat) : (s.coldTail from_ cause).mode = 2 := by
  have hkeep : keptCold cause R.PWR.MODE_MODE = true := by
    rw [keptCold, Bool.and_comm (decide (cause = 0))]
    rfl
  rw [State.mode, State.coldTail_get, State.unput_get_of_kept _ hkeep]
  exact State.puts_mode_mode ..

theorem coldReset_spec (s : State) (cause : Nat) (hm : s.mode ≠ 0) :
    ∃ t : State, s.coldReset cause = t ∧ t.mode = 2 ∧ t.get R.PWR.RESET_CAUSE_CAUSE = cause % 16 ∧ t.pwr.bootPhase = 1 ∧ t.take.c = none ∧ t.keys.kekMedia = none
      ∧ t.trust.sessions = [] ∧ t.trust.otp = s.trust.otp ∧ t.trust.instGen = s.newestInst ∧ t.trust.makerGen = s.newestMaker
      ∧ t.get R.ROLE.IDLE_S_S = 600 ∧ t.nand.flash = s.nand.flash ∧ t.pwr.colds = s.pwr.colds + 1 ∧ t.get R.RTC.STATUS_OSC_FAIL = 0
      ∧ t.keys.alarmed = false := by
  let f : PwrSt → PwrSt := fun p => { p with stoppedAt := s.rtcTicks }
  have hlost : (s.departing 2 f).Lost s.colded false := s.departing_lost 2 f false
  have hflash : s.colded.nand.flash = s.nand.flash := hlost.flash.trans (s.departing_flash 2 f)
  have hotp : s.colded.trust.otp = s.trust.otp := otp_of_secrets (hlost.secrets.trans (s.departing_secrets 2 f))
  have hcolds : s.colded.pwr.colds = s.pwr.colds := by
    obtain ⟨a, i, j, hpwr⟩ := s.leave_pwr 2
    have hleft : (s.departing 2 f).pwr = f { s.pwr with acct := a, modeSince := i, idleSince := j } := congrArg f hpwr
    exact hlost.colds.trans (hleft.symm ▸ rfl)
  have heq := State.coldReset_eq hm cause
  obtain ⟨htake, hkeys, hsessions, hsameOtp, hnand, hpwr⟩ := s.colded.coldTail_kept s.mode cause
  have hmode := s.colded.coldTail_mode s.mode cause
  have hidle : (s.colded.coldTail s.mode cause).get R.ROLE.IDLE_S_S = 600 := by
    have hkeep : keptCold cause R.ROLE.IDLE_S_S = true := by
      rw [keptCold, Bool.and_comm (decide (cause = 0))]
      rfl
    rw [State.coldTail_get, State.unput_get_of_kept _ hkeep, State.puts_mode_get _ _ _ (by decide)]
    exact hlost.dropped _ (by decide) (by decide)
  have hosc : (s.colded.coldTail s.mode cause).get R.RTC.STATUS_OSC_FAIL = 0 := by
    rw [State.coldTail_get, State.unput_get_of_dropped _ (by rw [keptCold]; rfl)]
    rfl
  obtain ⟨hphase, hbtake, hbkeys, hbsessions, hbotp, hbnand, -⟩ := (s.colded.coldTail s.mode cause).startBoot_started true cause
  obtain ⟨d, htrust⟩ := (s.colded.coldTail s.mode cause).startBoot_trust true cause
  have hboot := (s.colded.coldTail s.mode cause).startBoot_pwr true cause
  rw [newestInst_of_otp (hsameOtp.trans hotp), newestMaker_of_otp (hsameOtp.trans hotp)] at htrust
  generalize s.colded.coldTail s.mode cause = v at *
  generalize s.colded = w at *
  refine ⟨_, heq, ?_, State.startBoot_cause .., hphase, ?_, ?_, ?_, ?_, ?_, ?_, ?_, ?_, ?_, ?_, ?_⟩
  · rw [State.mode, State.startBoot_get rfl (by decide) (by decide) (by decide)]
    exact hmode
  · rw [hbtake, htake]
    exact hlost.takeless
  · rw [hbkeys, hkeys]
    exact hlost.keyless.1
  · rw [hbsessions, hsessions]
    exact hlost.roleless
  · rw [hbotp, hsameOtp, hotp]
  · rw [htrust, (TrustSt.booted_gens ..).1]
  · rw [htrust, (TrustSt.booted_gens ..).2]
  · rw [State.startBoot_get rfl (by decide) (by decide) (by decide)]
    exact hidle
  · rw [hbnand, hnand, hflash]
  · have hcount : (v.bootBegun true).pwr.colds = v.pwr.colds + 1 := rfl
    rw [hboot, hcount, hpwr]
    exact congrArg (· + 1) hcolds
  · rw [State.startBoot_get rfl (by decide) (by decide) (by decide)]
    exact hosc
  · rw [hbkeys, hkeys]
    exact hlost.alarmed

theorem exec_coldReset_spec (s : State) : exec (.coldReset 0) s = .next (s.coldReset 0) ∧ exec (.coldReset 1) s = .next (s.coldReset 1)
    ∧ (s.mode = 0 → s.pwr.railsOff = false → s.pwr.dead = false → exec (.coldReset 2) s = .next (s.coldReset 2)) := by
  have heq (c : BitVec 4) : exec (.coldReset c) s = execColdReset c s := rfl
  refine ⟨?_, ?_, fun hm hr hd => ?_⟩
  · rw [heq, execColdReset]
    exact if_pos (by decide)
  · rw [heq, execColdReset]
    exact if_pos (by decide)
  · rw [heq, execColdReset]
    refine (if_neg (by decide)).trans (if_pos ⟨rfl, hm, ?_, ?_⟩)
    · rw [hr]; rfl
    · rw [hd]; rfl

/-! ### The watchdog and a lost lock -/

theorem exec_pwrWatchdog (s : State) : exec .pwrWatchdog s = execPwrWatchdog s := rfl

theorem pwrWatchdog_resets (hm : 2 ≤ s.mode) (hr : s.pwr.fw.running ≠ none) (hh : s.handing = false) :
    ∃ t : State, exec .pwrWatchdog s = .next t ∧ t.mode = 2 ∧ t.get R.PWR.RESET_CAUSE_CAUSE = 4 ∧ t.get (H.CODE 2) = E.PWR_WATCHDOG ∧ t.pwr.bootPhase = 1 ∧ t.take.c = none := by
  have hruns : s.pwr.fw.running.isNone = false := by
    cases h : s.pwr.fw.running with
    | none => exact absurd h hr
    | some _ => rfl
  have hgo : ¬((decide (s.mode < 2) || s.pwr.fw.running.isNone || s.handing) = true) := by
    rw [hruns, hh, decide_eq_false (by omega)]
    decide
  rw [exec_pwrWatchdog, execPwrWatchdog, if_neg hgo]
  dsimp only
  generalize ({ s with time := max s.time (s.pwr.kickAt + 1000000000) } : State) = u
  obtain ⟨hphase, htake, -⟩ := u.warmReset_started 4 false
  have hvalid : (u.warmReset 4 false).get (H.VALID 2) = 0 :=
    State.warmReset_power u 4 false rfl (by decide) (by decide) (by decide) (by decide)
  have hcause : (u.warmReset 4 false).get R.PWR.RESET_CAUSE_CAUSE = 4 := by
    rw [State.warmReset_eq]
    exact State.startBoot_cause ..
  refine ⟨_, rfl, ?_, ?_, State.record_get_CODE hvalid .., ?_, ?_⟩
  · exact (State.record_get_beyond _ _ _ _ _ _ _ rfl).trans (u.warmReset_mode ..)
  · exact (State.record_get_beyond _ _ _ _ _ _ _ rfl).trans hcause
  · rw [State.record_pwr, hphase]
  · rw [State.record_take, htake]

theorem pwrWatchdog_waits (h : s.pwr.fw.running = none ∨ s.handing = true) : exec .pwrWatchdog s = .next s := by
  refine if_pos ?_
  rcases h with h | h
  · rw [h, Option.isNone_none, Bool.or_true, Bool.true_or]
  · rw [h, Bool.or_true]

theorem clkLockLost_spec (hm : s.mode ≠ 0) :
    ∃ t : State, exec .clkLockLost s = .next t ∧ t.mode = 2 ∧ t.get R.PWR.RESET_CAUSE_CAUSE = 5 ∧ t.get (H.CODE 1) = E.CLK_LOCK_LOST ∧ t.keysGone
      ∧ t.get R.CLK.ROOT_STATUS_LOCK_LOSSES = min (s.get R.CLK.ROOT_STATUS_LOCK_LOSSES + 1) (2 ^ 16 - 1) ∧ t.pwr.bootPhase = 1 := by
  have heq : exec .clkLockLost s = execClkLockLost s := rfl
  rw [heq, execClkLockLost, if_neg hm]
  dsimp only
  have hcount : ((s.bump R.CLK.ROOT_STATUS_LOCK_LOSSES).alarm 1).get R.CLK.ROOT_STATUS_LOCK_LOSSES = min (s.get R.CLK.ROOT_STATUS_LOCK_LOSSES + 1) (2 ^ 16 - 1) :=
    (get_of_steady (x := R.CLK.ROOT_STATUS_LOCK_LOSSES) rfl (State.steady_alarm ..)).trans (State.get_bump_same ..)
  generalize (s.bump R.CLK.ROOT_STATUS_LOCK_LOSSES).alarm 1 = u at hcount ⊢
  obtain ⟨hphase, -, hkeys, -⟩ := u.warmReset_started 5 false
  have hcause : (u.warmReset 5 false).get R.PWR.RESET_CAUSE_CAUSE = 5 := by
    rw [State.warmReset_eq]
    exact State.startBoot_cause ..
  have hmode := u.warmReset_mode 5 false
  have hloss : (u.warmReset 5 false).get R.CLK.ROOT_STATUS_LOCK_LOSSES = u.get R.CLK.ROOT_STATUS_LOCK_LOSSES := by
    refine ((State.warmReset_get (by decide) (by decide) (by decide) rfl (by decide) u 5 false).1 (by decide)).trans ?_
    refine (State.setMode_get (x := R.CLK.ROOT_STATUS_LOCK_LOSSES) _ _ (by decide) (by decide)).trans ?_
    exact get_of_steady (x := R.CLK.ROOT_STATUS_LOCK_LOSSES) rfl (State.steady_endTrust ..)
  have hvalid : (u.warmReset 5 false).get (H.VALID 1) = 0 :=
    (State.warmReset_get (by decide) (by decide) (by decide) rfl (by decide) u 5 false).2 (by decide)
  generalize u.warmReset 5 false = v at *
  have hfirst : (v.pulse 1 Ev.CLK.LOCK_LOST).get (H.VALID 1) = 0 := (State.pulse_get_of_place _ _ _ rfl rfl).trans hvalid
  have hget {y : Fld} (hy : Nat.ble 0x040 y.off = true) : ((v.pulse 1 Ev.CLK.LOCK_LOST).record 1 E.CLK_LOCK_LOST 0).get y = v.get y :=
    (State.record_get_beyond _ _ _ _ _ _ _ hy).trans (State.pulse_get_beyond _ _ _ hy)
  refine ⟨_, rfl, (hget rfl).trans hmode, (hget rfl).trans hcause, State.record_get_CODE hfirst .., ?_, (hget rfl).trans (hloss.trans hcount), ?_⟩
  · rw [State.keysGone, State.record_keys, State.pulse_keys]
    exact hkeys
  · rw [State.record_pwr, State.pulse_pwr, hphase]

end

end Sys2Proof.Machine
end

section
/-!
The clock's alarms, temperature, the expiry of service and the first phase of the boot (R104, R528–R531, R545, R559, R631–R634).
-/

namespace Sys2Proof.Machine

open Sys2Proof.Laws

section
variable {s : State}

/-! ### The real-time clock -/

theorem rtcTicks_of_regs {s t : State} (hr : t.regs = s.regs) (hb : t.rtcBase = s.rtcBase) (ha : t.rtcAt = s.rtcAt) (ht : t.time = s.time) : t.rtcTicks = s.rtcTicks := by
  rw [State.rtcTicks, State.rtcTicks, State.get_of_regs hr, State.get_of_regs hr, hb, ha, ht]

theorem rtcAlarmFire_spec {k : Fin 4} (he : s.get (R.RTC.ALARM_CTRL_EN k.val) ≠ 0) (hf : s.get (R.RTC.ALARM_CTRL_FIRED k.val) ≠ 1) (hd : s.pwr.dead = false)
    (ht : s.get (R.RTC.ALARM_TIME_TIME k.val) % 2 ^ 63 ≤ s.rtcTicks) :
    ∃ t : State, exec (.rtcAlarmFire k) s = .next (if s.get (R.RTC.ALARM_CTRL_WAKE k.val) = 1 then t.wakeUp 0 else t) ∧ t.get (R.RTC.ALARM_CTRL_FIRED k.val) = 1
      ∧ bitAt (t.get (H.STICKY 4)) k.val = true ∧ t.time = s.time := by
  have heq : exec (.rtcAlarmFire k) s = execRtcAlarmFire k s := rfl
  have hnot : ¬(s.get (R.RTC.ALARM_CTRL_EN k.val) = 0 ∨ s.get (R.RTC.ALARM_CTRL_FIRED k.val) = 1 ∨ s.pwr.dead = true) := by
    rw [hd]
    simp [he, hf]
  have htime : s.timeOfTicks (s.get (R.RTC.ALARM_TIME_TIME k.val) % 2 ^ 63) = s.time := if_pos ht
  rw [heq, execRtcAlarmFire]
  dsimp only
  rw [if_neg hnot, if_neg fun h => absurd h.1 (Nat.not_lt.mpr ht), htime]
  refine ⟨_, rfl, ?_, ?_, ?_⟩
  · have hoff : 0x040 ≤ (R.RTC.ALARM_CTRL_FIRED k.val).off := Nat.le_add_right_of_le (by decide)
    rw [State.pulse_get_beyond_header _ _ _ hoff, State.get_put_same]
    rfl
  · exact (State.pulse_sticky _ _ _ (Nat.lt_trans k.isLt (by decide))).trans (if_pos rfl)
  · rw [State.pulse_time]
    rfl

theorem rtcOscFail_spec (ho : s.get R.RTC.STATUS_OSC_FAIL ≠ 1) (hd : s.pwr.dead = false) :
    ∃ t : State, exec .rtcOscFail s = .next t ∧ t.get R.RTC.STATUS_OSC_FAIL = 1 ∧ t.get R.RTC.STATUS_VALID = 0 ∧ t.rtcTicks = s.rtcTicks
      ∧ (s.get (H.VALID 4) = 0 → t.get (H.CODE 4) = E.RTC_OSC_FAIL) := by
  have heq : exec .rtcOscFail s = execRtcOscFail s := rfl
  have hnot : ¬(s.get R.RTC.STATUS_OSC_FAIL = 1 ∨ s.pwr.dead = true) := by
    rw [hd]
    simp [ho]
  rw [heq, execRtcOscFail, if_neg hnot]
  have hget {y : Fld} (t : State) (hy : Nat.ble 0x040 y.off = true) : ((t.pulse 4 Ev.RTC.OSC_FAIL).record 4 E.RTC_OSC_FAIL 0).get y = t.get y :=
    (State.record_get_beyond _ _ _ _ _ _ _ hy).trans (State.pulse_get_beyond _ _ _ hy)
  have hfail : (s.rebaseRtc.puts [(R.RTC.STATUS_OSC_FAIL, 1), (R.RTC.STATUS_VALID, 0)]).get R.RTC.STATUS_OSC_FAIL = 1 := by
    rw [State.puts_cons, State.puts_cons, State.puts_nil]
    exact (State.get_put_of_place _ _ rfl).trans (State.get_put_same ..)
  refine ⟨_, rfl, (hget _ rfl).trans hfail, (hget _ rfl).trans (State.get_put_same ..), ?_, fun hv => ?_⟩
  · rw [State.rtcTicks, if_pos ((hget _ rfl).trans hfail), State.record_rtcBase, State.pulse_rtcBase]
    rfl
  · refine State.record_get_CODE ?_ ..
    rw [State.pulse_get_of_place _ _ _ rfl rfl, State.puts_cons, State.puts_cons, State.puts_nil]
    refine (State.get_put_of_place _ _ rfl).trans ((State.get_put_of_place _ _ rfl).trans ?_)
    exact (State.get_of_regs rfl _).trans hv

theorem rtcLoad_spec {o : Origin} (hp : s.powered = true) (hr : s.reaches o 4 = true) (ho : s.holds o .operator = true) :
    ∃ t : State, exec (.rtcLoad o) s = .next t ∧ t.rtcValue = s.get R.RTC.SET_TIME % 2 ^ 63 ∧ t.get R.RTC.STATUS_VALID = 1 := by
  have heq : exec (.rtcLoad o) s = .next (s.regCmd o 4 0x050 1 true false id State.loadRtc) := rfl
  have hneed : needOf (rowsAt 4 0x050) = .oper := by decide
  obtain ⟨t, ht, h⟩ := State.regCmd_acts (v := 1) (deny := id) (act := State.loadRtc) hp hr (State.meets_of_operator ho (.inl hneed)) rfl rfl
  refine ⟨_, heq.trans (congrArg Host.Outcome.next h), ?_, ?_⟩
  · have hbase : t.loadRtc.rtcTicks = t.get R.RTC.SET_TIME % 2 ^ 63 := by
      have hb : t.loadRtc.rtcBase = t.get R.RTC.SET_TIME % 2 ^ 63 := rfl
      have hzero : t.loadRtc.time - t.loadRtc.rtcAt = 0 := Nat.sub_self t.time
      rw [State.rtcTicks, hzero, Nat.zero_mul, Nat.zero_div, Nat.add_zero, ite_self, hb]
    rw [State.rtcValue, hbase, ht.get, Nat.mod_mod]
  · exact State.get_put_same ..

/-! ### Temperature -/

section
variable {q : SteadyFld}

theorem State.steady_caught (s : State) (c : Fin 72) : q.get (s.caught c) = q.get s := steady_of_forget (State.forget_caught rfl ..)

theorem State.steady_parkCore (s : State) (c : Fin 72) (p : Parker) : q.get (s.parkCore c p) = q.get s := by
  have hset (t : State) (k : Core) : q.get (t.setCore c k) = q.get t := steady_of_forget (State.forget_setCore rfl ..)
  have hcaught : q.get (if s.cores[c].state = .running then s.caught c else s) = q.get s := by
    split
    · exact State.steady_caught ..
    · rfl
  unfold State.parkCore
  dsimp only
  rw [← hcaught]
  generalize (if s.cores[c].state = .running then s.caught c else s) = u
  split
  · exact (State.steady_pulse _ (noisy_corePage c) _).trans (hset ..)
  · exact (State.steady_pulse _ (noisy_corePage c) _).trans (hset ..)
  · exact hset ..
  · rfl
  · rfl
  · rfl
  · rfl

theorem State.steady_thermalAlarm (s : State) (bit : Nat) (out : Bool) : q.get (s.thermalAlarm bit out) = q.get s := by
  unfold State.thermalAlarm
  dsimp only
  split
  · exact (State.steady_alarm ..).trans (State.steady_setKeys ..)
  · exact State.steady_setKeys ..

end

theorem thermalStage_lt (cur thr : Nat) (tj : Int) : thermalStage cur thr tj < 4 := by
  unfold thermalStage
  split
  · decide
  · split
    · decide
    · split <;> decide

theorem thermalStage_high {cur : Nat} (thr : Nat) {tj : Int} (ht : 440 ≤ tj) (hc : cur ≤ 1) : thermalStage cur thr tj = 2 :=
  (if_neg (by omega)).trans (if_pos (.inl ht))

/-- The registers of a temperature sample. -/
def State.tempShown (s : State) (tj : Int) (sensor new : Nat) : State :=
  s.puts [(R.DEV.TEMP_TJ, wrapInt 12 tj), (R.DEV.TEMP_SENSOR, sensor), (R.DEV.TEMP_PEAK_TJ, wrapInt 12 (max (signedOf 12 (s.get R.DEV.TEMP_PEAK_TJ)) tj)),
    (R.DEV.THERMAL_STATUS_STAGE, new)]

theorem State.tempShown_get (s : State) (tj : Int) {sensor new : Nat} (hs : sensor < 16) (hn : new < 4) :
    (s.tempShown tj sensor new).get R.DEV.TEMP_TJ = wrapInt 12 tj ∧ (s.tempShown tj sensor new).get R.DEV.TEMP_SENSOR = sensor
      ∧ (s.tempShown tj sensor new).get R.DEV.THERMAL_STATUS_STAGE = new := by
  rw [State.tempShown, State.puts_cons, State.puts_cons, State.puts_cons, State.puts_cons, State.puts_nil]
  refine ⟨?_, ?_, ?_⟩
  · rw [State.get_put_of_place _ _ rfl, State.get_put_of_place _ _ rfl, State.get_put_of_place _ _ rfl, State.get_put_same]
    exact wrapInt_mod 12 tj
  · rw [State.get_put_of_place _ _ rfl, State.get_put_of_place _ _ rfl, State.get_put_same]
    exact Nat.mod_eq_of_lt hs
  · rw [State.get_put_same]
    exact Nat.mod_eq_of_lt hn

/-- The time spent throttled, and what a move to a hotter stage records. -/
def State.staged (s : State) (cur new : Nat) : State :=
  let t := s.countThrottle cur new
  let t := if cur = 0 ∧ 1 ≤ new then (t.pulse 0 Ev.DEV.THROTTLE).record 0 E.DEV_THERMAL_THROTTLE t.devInfo else t
  if cur ≤ 1 ∧ 2 ≤ new then (t.pulse 0 Ev.DEV.HIGH).record 0 E.DEV_THERMAL_HIGH t.devInfo else t

theorem State.countThrottle_get (s : State) (cur new : Nat) {x : Fld} (hx : x.off ≠ 0x064) : (s.countThrottle cur new).get x = s.get x := by
  have hbump (n : Nat) : (s.bump R.DEV.THROTTLE_MS_MS n).get x = s.get x := State.get_bump_other _ _ fun e => hx (congrArg Fld.off e)
  unfold State.countThrottle
  dsimp only
  rw [State.setPwr_get]
  split
  · split
    · rfl
    · rw [State.setPwr_get, hbump]
  · rfl

theorem State.countThrottle_tj (s : State) (cur new : Nat) : (s.countThrottle cur new).pwr.tj = s.pwr.tj := by
  unfold State.countThrottle
  dsimp only
  split
  · split <;> rfl
  · rfl

theorem State.staged_get (s : State) (cur new : Nat) {x : Fld} (hb : Nat.ble 0x040 x.off = true) (hx : x.off ≠ 0x064) : (s.staged cur new).get x = s.get x := by
  have hnoted (t : State) (e code info : Nat) : ((t.pulse 0 e).record 0 code info).get x = t.get x :=
    (State.record_get_beyond _ _ _ _ _ _ _ hb).trans (State.pulse_get_beyond _ _ _ hb)
  unfold State.staged
  dsimp only
  rw [← s.countThrottle_get cur new hx]
  generalize s.countThrottle cur new = u
  split <;> split <;> simp only [hnoted]

theorem State.staged_tj (s : State) (cur new : Nat) : (s.staged cur new).pwr.tj = s.pwr.tj := by
  have hnoted (t : State) (e code info : Nat) : ((t.pulse 0 e).record 0 code info).pwr = t.pwr := by rw [State.record_pwr, State.pulse_pwr]
  unfold State.staged
  dsimp only
  rw [← s.countThrottle_tj cur new]
  generalize s.countThrottle cur new = u
  split <;> split <;> simp only [hnoted]

theorem State.staged_high (s : State) {cur new : Nat} (hc : cur ≤ 1) (hn : 2 ≤ new) : bitAt ((s.staged cur new).get (H.STICKY 0)) Ev.DEV.HIGH = true := by
  unfold State.staged
  dsimp only
  rw [if_pos (⟨hc, hn⟩ : cur ≤ 1 ∧ 2 ≤ new)]
  exact State.record_sticky_of_set (by decide) (State.pulse_sticky _ _ _ (by decide)) ..

/-- The user cores parked, or let run on, as the stage asks. -/
def State.cooled (s : State) (cur new : Nat) : State :=
  if 2 ≤ new then s.eachCore fun t c => if 8 ≤ c.val then t.parkCore c .thermal else t
  else if 2 ≤ cur then s.eachCore fun t c => t.resumeCore c .thermal else s

theorem State.steady_cooled {q : SteadyFld} (s : State) (cur new : Nat) : q.get (s.cooled cur new) = q.get s := by
  unfold State.cooled State.eachCore
  split
  · exact steady_foldl _ _ (fun t c => by
      split
      · exact State.steady_parkCore ..
      · rfl) _
  · split
    · exact steady_foldl _ _ (fun t c => State.steady_resumeCore ..) _
    · rfl

theorem State.cooled_pwr (s : State) (cur new : Nat) : (s.cooled cur new).pwr = s.pwr := by
  unfold State.cooled State.eachCore
  split
  · exact foldl_keeps State.pwr (fun t c => by
      split
      · exact keeps_pwr (State.forget_parkCore (T := 0x481400024) rfl ..) rfl
      · rfl) _ _
  · split
    · exact foldl_keeps State.pwr (fun t c => keeps_pwr (State.forget_resumeCore (T := 0x481000020) rfl ..) rfl) _ _
    · rfl

theorem State.cooled_parks (s : State) {cur new : Nat} (hn : 2 ≤ new) {c : Fin 72} (hc : 8 ≤ c.val) : (s.cooled cur new).cores[c].state ≠ .running := by
  have hfold (cs : List (Fin 72)) (t : State) (h : c ∈ cs ∨ t.cores[c].Idle) :
      (cs.foldl (fun t k => if 8 ≤ k.val then t.parkCore k .thermal else t) t).cores[c].Idle := by
    induction cs generalizing t with
    | nil => exact h.resolve_left List.not_mem_nil
    | cons k cs ih =>
      refine ih _ ?_
      dsimp only
      by_cases hk : c = k
      · subst hk
        rw [if_pos hc]
        exact .inr (State.parkCore_idle ..)
      · refine h.imp (fun hm => (List.mem_cons.mp hm).resolve_left hk) fun hi => ?_
        split
        · rw [State.parkCore_core_other _ hk]
          exact hi
        · exact hi
  rw [State.cooled, if_pos hn]
  exact (hfold _ s (.inl (List.mem_finRange c))).1

theorem exec_thermalSample (hm : s.mode ≠ 0) (tj : Int) (sensor : BitVec 4) : exec (.thermalSample tj sensor) s
    = .next ((((((s.tempShown tj sensor.toNat (thermalStage (s.get R.DEV.THERMAL_STATUS_STAGE) (s.get R.DEV.THERMAL_CTRL_THROTTLE_C) tj)).setPwr fun p =>
        { p with tj := tj, hotSince := if tj < 500 then none else some (p.hotSince.getD s.time) }).staged (s.get R.DEV.THERMAL_STATUS_STAGE)
          (thermalStage (s.get R.DEV.THERMAL_STATUS_STAGE) (s.get R.DEV.THERMAL_CTRL_THROTTLE_C) tj)).cooled (s.get R.DEV.THERMAL_STATUS_STAGE)
            (thermalStage (s.get R.DEV.THERMAL_STATUS_STAGE) (s.get R.DEV.THERMAL_CTRL_THROTTLE_C) tj)).thermalAlarm 2 (decide (500 < tj))).thermalAlarm 3 (decide (tj < -200))).tryPhase2 := by
  have heq : exec (.thermalSample tj sensor) s = execThermalSample tj sensor s := rfl
  rw [heq, execThermalSample, if_neg hm]
  unfold State.cooled State.staged State.tempShown
  rfl

theorem thermalSample_spec (tj : Int) (sensor : BitVec 4) (hm : s.mode ≠ 0) :
    ∃ t : State, exec (.thermalSample tj sensor) s = .next ((t.thermalAlarm 2 (decide (500 < tj))).thermalAlarm 3 (decide (tj < -200))).tryPhase2
      ∧ t.get R.DEV.TEMP_TJ = wrapInt 12 tj ∧ t.get R.DEV.TEMP_SENSOR = sensor.toNat ∧ t.pwr.tj = tj
      ∧ t.get R.DEV.THERMAL_STATUS_STAGE = thermalStage (s.get R.DEV.THERMAL_STATUS_STAGE) (s.get R.DEV.THERMAL_CTRL_THROTTLE_C) tj
      ∧ (440 ≤ tj → s.get R.DEV.THERMAL_STATUS_STAGE ≤ 1 → t.get R.DEV.THERMAL_STATUS_STAGE = 2
        ∧ (∀ c : Fin 72, 8 ≤ c.val → t.cores[c].state ≠ .running) ∧ bitAt (t.get (H.STICKY 0)) Ev.DEV.HIGH = true) := by
  have hhigh : 440 ≤ tj → s.get R.DEV.THERMAL_STATUS_STAGE ≤ 1 →
      thermalStage (s.get R.DEV.THERMAL_STATUS_STAGE) (s.get R.DEV.THERMAL_CTRL_THROTTLE_C) tj = 2 := thermalStage_high _
  have hlt := thermalStage_lt (s.get R.DEV.THERMAL_STATUS_STAGE) (s.get R.DEV.THERMAL_CTRL_THROTTLE_C) tj
  have heq := exec_thermalSample hm tj sensor
  generalize thermalStage (s.get R.DEV.THERMAL_STATUS_STAGE) (s.get R.DEV.THERMAL_CTRL_THROTTLE_C) tj = new at *
  generalize s.get R.DEV.THERMAL_STATUS_STAGE = cur at *
  obtain ⟨htj, hsensor, hstage⟩ := s.tempShown_get tj sensor.isLt hlt
  have hpwr : ((s.tempShown tj sensor.toNat new).setPwr fun p => { p with tj := tj, hotSince := if tj < 500 then none else some (p.hotSince.getD s.time) }).pwr.tj = tj := rfl
  have hregs (x : Fld) : ((s.tempShown tj sensor.toNat new).setPwr fun p => { p with tj := tj, hotSince := if tj < 500 then none else some (p.hotSince.getD s.time) }).get x
    = (s.tempShown tj sensor.toNat new).get x := State.setPwr_get ..
  generalize ((s.tempShown tj sensor.toNat new).setPwr fun p => { p with tj := tj, hotSince := if tj < 500 then none else some (p.hotSince.getD s.time) }) = u at *
  have hcool {x : Fld} (hx : steady x = true) : ((u.staged cur new).cooled cur new).get x = (u.staged cur new).get x := get_of_steady hx (State.steady_cooled ..)
  have hget {x : Fld} (hx : steady x = true) (hb : Nat.ble 0x040 x.off = true) (h64 : x.off ≠ 0x064) :
      ((u.staged cur new).cooled cur new).get x = (s.tempShown tj sensor.toNat new).get x :=
    (hcool hx).trans ((State.staged_get _ _ _ hb h64).trans (hregs x))
  refine ⟨_, heq, (hget rfl rfl (by decide)).trans htj, (hget rfl rfl (by decide)).trans hsensor, ?_, (hget rfl rfl (by decide)).trans hstage, fun ht hc => ?_⟩
  · rw [State.cooled_pwr, State.staged_tj]
    exact hpwr
  · have hnew : 2 ≤ new := (hhigh ht hc).ge
    refine ⟨(hget rfl rfl (by decide)).trans (hstage.trans (hhigh ht hc)), fun c hcore => State.cooled_parks _ hnew hcore, ?_⟩
    rw [hcool rfl]
    exact State.staged_high _ hc hnew

theorem devThermalShutdown_spec {a : Nat} (hh : s.pwr.hotSince = some a) (hm : 2 ≤ s.mode) (hb : s.pwr.bootPhase = 0) (hp : s.take.pfPhase = 0) :
    ∃ t : State, exec .devThermalShutdown s = .next (if t.take.c.isSome then t.setTake fun x => { x with pfPhase := 2 } else t.lastPhases)
      ∧ t.get R.DEV.THERMAL_STATUS_STAGE = 3 ∧ t.pwr.thermal = true ∧ t.pwr.tran = none ∧ (s.get (H.VALID 0) = 0 → t.get (H.CODE 0) = E.DEV_THERMAL_SHUTDOWN) := by
  have heq : exec .devThermalShutdown s = execDevThermalShutdown s := rfl
  have hnot : ¬(s.mode < 2 ∨ s.pwr.bootPhase ≠ 0 ∨ s.take.pfPhase ≠ 0) := by simp [hb, hp, Nat.not_lt.mpr hm]
  rw [heq, execDevThermalShutdown]
  simp only [hh]
  rw [if_neg hnot]
  have hstage : (({ s with time := max s.time (a + 100000000) } : State).put R.DEV.THERMAL_STATUS_STAGE 3).get R.DEV.THERMAL_STATUS_STAGE = 3 := State.get_put_same ..
  have hvalid : (({ s with time := max s.time (a + 100000000) } : State).put R.DEV.THERMAL_STATUS_STAGE 3).get (H.VALID 0) = s.get (H.VALID 0) := State.get_put_of_place _ _ rfl
  generalize (({ s with time := max s.time (a + 100000000) } : State).put R.DEV.THERMAL_STATUS_STAGE 3) = u at hstage hvalid ⊢
  have halarm {x : Fld} (hx : steady x = true) (t : State) : (t.thermalAlarm 2 true).get x = t.get x := get_of_steady hx (State.steady_thermalAlarm ..)
  refine ⟨_, rfl, ?_, rfl, rfl, fun hv => ?_⟩
  · rw [State.setPwr_get, halarm rfl, State.record_get_beyond _ _ _ _ _ _ _ rfl, State.pulse_get_beyond _ _ _ rfl, hstage]
  · rw [State.setPwr_get, halarm rfl]
    exact State.record_get_CODE ((State.pulse_get_of_place _ _ _ rfl rfl).trans (hvalid.trans hv)) ..

/-! ### The expiry of service -/

theorem serveActivityExpiry_spec {a : Nat} (ha : s.pwr.serveAt = some a) (hm : 3 ≤ s.mode) :
    ∃ t : State, exec .serveActivityExpiry s = .next t ∧ t.time = max s.time (a + 100000000) ∧ t.take = s.take
      ∧ t.mode = (if s.mode = 7 then 7 else if s.get R.TAKE.TAKE_STATE_STATE ≠ 0 then 4 else 3) := by
  have heq : exec .serveActivityExpiry s = execServeActivityExpiry s := rfl
  rw [heq, execServeActivityExpiry]
  simp only [ha]
  rw [if_neg (Nat.not_lt.mpr hm)]
  refine ⟨_, rfl, ?_, ?_, ?_⟩
  · rw [keeps_time (State.forget_follow (T := 0x490000020) rfl _) rfl]
  · rw [keeps_take (State.forget_follow (T := 0x490000020) rfl _) rfl]
  · have hserving : ({ s with time := max s.time (a + 100000000) } : State).serving = false := by
      have hs : ({ s with time := max s.time (a + 100000000) } : State).serving = match s.pwr.serveAt with
        | some t => decide (max s.time (a + 100000000) < t + 100000000) | none => false := rfl
      rw [hs, ha]
      exact decide_eq_false (by omega)
    have hmode : ({ s with time := max s.time (a + 100000000) } : State).mode = s.mode := rfl
    have htake : ({ s with time := max s.time (a + 100000000) } : State).get R.TAKE.TAKE_STATE_STATE = s.get R.TAKE.TAKE_STATE_STATE := rfl
    generalize ({ s with time := max s.time (a + 100000000) } : State) = u at *
    unfold State.follow
    rw [hmode]
    by_cases h7 : s.mode = 7
    · rw [if_pos (.inr h7), if_pos h7, hmode, h7]
    · rw [if_neg (by omega), if_neg h7]
      dsimp only
      rw [hserving, htake]
      by_cases hz : s.get R.TAKE.TAKE_STATE_STATE = 0
      · simp only [hz, bne_self_eq_false, Bool.false_and, Bool.false_eq_true, if_false, ne_eq, not_true_eq_false]
        exact State.setMode_mode _ (by decide)
      · have hne : (s.get R.TAKE.TAKE_STATE_STATE != 0) = true := bne_iff_ne.mpr hz
        simp only [hne, Bool.true_and, Bool.false_eq_true, if_false, if_true, ne_eq, hz, not_false_eq_true]
        exact State.setMode_mode _ (by decide)

/-! ### The first phase of the boot -/

theorem State.badGens_get (s : State) {x : Fld} (hx : x.page ≠ 5) : s.badGens.get x = s.get x := by
  unfold State.badGens
  dsimp only
  exact foldl_keeps (fun t : State => t.get x) (fun t g => (State.record_get_of_page (t.pulse 5 Ev.OTP.GEN_BAD) hx ..).trans (State.pulse_get_of_page t hx _)) _ _

theorem pllLocked_spec (hz : BitVec 32) (hb : s.pwr.bootPhase = 1) (hl : s.pwr.locked = false) :
    ∃ t : State, exec (.pllLocked hz) s = .next t.tryPhase2 ∧ t.get R.CLK.ROOT_STATUS_LOCKED = 1 ∧ t.get R.CLK.REF_FREQ_HZ = hz.toNat ∧ t.pwr.locked = true ∧ t.pwr.bootPhase = 1 := by
  have heq : exec (.pllLocked hz) s = execPllLocked hz s := rfl
  have hnot : ¬(s.pwr.bootPhase ≠ 1 ∨ s.pwr.locked = true) := by simp [hb, hl]
  rw [heq, execPllLocked, if_neg hnot]
  dsimp only
  have hlocked : (s.puts [(R.CLK.ROOT_STATUS_LOCKED, 1), (R.CLK.REF_FREQ_HZ, hz.toNat)]).get R.CLK.ROOT_STATUS_LOCKED = 1 := by
    rw [State.puts_cons, State.puts_cons, State.puts_nil]
    exact (State.get_put_of_place _ _ rfl).trans (State.get_put_same ..)
  have hfreq : (s.puts [(R.CLK.ROOT_STATUS_LOCKED, 1), (R.CLK.REF_FREQ_HZ, hz.toNat)]).get R.CLK.REF_FREQ_HZ = hz.toNat := by
    rw [State.puts_cons, State.puts_cons, State.puts_nil, State.get_put_same]
    exact Nat.mod_eq_of_lt hz.isLt
  have hphase : (s.puts [(R.CLK.ROOT_STATUS_LOCKED, 1), (R.CLK.REF_FREQ_HZ, hz.toNat)]).pwr.bootPhase = 1 := hb
  generalize s.puts [(R.CLK.ROOT_STATUS_LOCKED, 1), (R.CLK.REF_FREQ_HZ, hz.toNat)] = u at *
  refine ⟨_, rfl, ?_, ?_, rfl, ?_⟩
  · rw [State.setPwr_get, State.badGens_get _ (by decide), hlocked]
  · rw [State.setPwr_get, State.badGens_get _ (by decide), hfreq]
  · have hpwr : u.badGens.pwr = u.pwr := keeps_pwr (State.forget_badGens (T := 0x480000420) rfl u) rfl
    rw [State.setPwr_pwr, hpwr]
    exact hphase

/-- Every flash channel that is off starts its training. -/
def State.flashTrains (s : State) (l : List Nat) : State :=
  l.foldl (fun t c => if t.get (R.NAND.CH_STATUS_STATE c) = 0 then t.puts [(R.NAND.CH_STATUS_STATE c, 1), (R.NAND.CH_STATUS_PWR_EN c, 1)] else t) s

/-- Every DRAM channel that is off starts its training. -/
def State.dramTrains (s : State) (l : List Nat) : State := l.foldl (fun t c => if t.dramState c = 0 then t.put (R.DRAM.CH_STATUS_STATE c) 1 else t) s

theorem State.flashTrains_get (l : List Nat) (s : State) {x : Fld} (hx : ∀ c ∈ l, x.page ≠ 0x80 + c) : (s.flashTrains l).get x = s.get x := by
  induction l generalizing s with
  | nil => rfl
  | cons a l ih =>
    refine (ih _ fun c hc => hx c (List.mem_cons_of_mem a hc)).trans ?_
    have hne (y : Fld) (hy : y.page = 0x80 + a) : x ≠ y := fun e => hx a List.mem_cons_self ((congrArg Fld.page e).trans hy)
    dsimp only
    split
    · rw [State.puts_cons, State.puts_cons, State.puts_nil, State.get_put_other _ _ (hne _ rfl), State.get_put_other _ _ (hne _ rfl)]
    · rfl

theorem State.flashTrains_state {l : List Nat} (s : State) {c : Nat} (hl : l.Nodup) (hc : c ∈ l) (h : s.get (R.NAND.CH_STATUS_STATE c) = 0) :
    (s.flashTrains l).get (R.NAND.CH_STATUS_STATE c) = 1 ∧ (s.flashTrains l).get (R.NAND.CH_STATUS_PWR_EN c) = 1 := by
  induction l generalizing s with
  | nil => exact absurd hc List.not_mem_nil
  | cons a l ih =>
    obtain ⟨ha, hl⟩ := List.nodup_cons.mp hl
    have hstep : s.flashTrains (a :: l)
      = (if s.get (R.NAND.CH_STATUS_STATE a) = 0 then s.puts [(R.NAND.CH_STATUS_STATE a, 1), (R.NAND.CH_STATUS_PWR_EN a, 1)] else s).flashTrains l := rfl
    by_cases hac : c = a
    · subst hac
      have hout (x : Fld) (hx : x.page = 0x80 + c) : ∀ d ∈ l, x.page ≠ 0x80 + d := fun d hd e => ha (by
        have : c = d := by omega
        exact this ▸ hd)
      rw [hstep, if_pos h, State.flashTrains_get l _ (hout _ rfl), State.flashTrains_get l _ (hout _ rfl), State.puts_cons, State.puts_cons, State.puts_nil]
      exact ⟨(State.get_put_of_place _ _ rfl).trans (State.get_put_same ..), State.get_put_same ..⟩
    · rw [hstep]
      refine ih _ hl ((List.mem_cons.mp hc).resolve_left hac) ?_
      have hne (y : Fld) (hy : y.page = 0x80 + a) : R.NAND.CH_STATUS_STATE c ≠ y := fun e => hac (by
        have hpage : 0x80 + c = 0x80 + a := (congrArg Fld.page e).trans hy
        omega)
      split
      · rw [State.puts_cons, State.puts_cons, State.puts_nil, State.get_put_other _ _ (hne _ rfl), State.get_put_other _ _ (hne _ rfl), h]
      · exact h

theorem State.dramTrains_get (l : List Nat) (s : State) {x : Fld} (hx : ∀ c ∈ l, x.page ≠ 0xA0 + c) : (s.dramTrains l).get x = s.get x := by
  induction l generalizing s with
  | nil => rfl
  | cons a l ih =>
    refine (ih _ fun c hc => hx c (List.mem_cons_of_mem a hc)).trans ?_
    dsimp only
    split
    · exact State.get_put_other _ _ fun e => hx a List.mem_cons_self (congrArg Fld.page e)
    · rfl

theorem State.dramTrains_state {l : List Nat} (s : State) {c : Nat} (hc : c ∈ l) (h : s.dramState c = 0 ∨ s.dramState c = 1) : (s.dramTrains l).dramState c = 1 := by
  have hone (l : List Nat) (t : State) (ht : t.dramState c = 1) : (t.dramTrains l).dramState c = 1 := by
    induction l generalizing t with
    | nil => exact ht
    | cons a l ih =>
      refine ih _ ?_
      by_cases hac : a = c
      · subst hac
        dsimp only
        rw [if_neg (by omega)]
        exact ht
      · dsimp only
        split
        · rw [State.dramState_put_other hac, ht]
        · exact ht
  induction l generalizing s with
  | nil => exact absurd hc List.not_mem_nil
  | cons a l ih =>
    have hstep : s.dramTrains (a :: l) = (if s.dramState a = 0 then s.put (R.DRAM.CH_STATUS_STATE a) 1 else s).dramTrains l := rfl
    by_cases hac : a = c
    · subst hac
      rw [hstep]
      refine hone _ _ ?_
      split
      · exact State.dramState_put_same ..
      · omega
    · rw [hstep]
      refine ih _ ((List.mem_cons.mp hc).resolve_left (Ne.symm hac)) ?_
      split
      · rw [State.dramState_put_other hac]
        exact h
      · exact h

theorem tryPhase2_spec (hb : s.pwr.bootPhase = 1) (hl : s.pwr.locked = true) (ht : s.pwr.thermal = false) :
    ∃ t : State, s.tryPhase2 = t ∧ t.pwr.bootPhase = 2 ∧ (∀ c < 4, s.dramState c = 0 → t.dramState c = 1)
      ∧ (∀ c < 32, s.get (R.NAND.CH_STATUS_STATE c) = 0 → t.get (R.NAND.CH_STATUS_STATE c) = 1 ∧ t.get (R.NAND.CH_STATUS_PWR_EN c) = 1) := by
  have hgo : s.tryPhase2 = ((s.flashTrains (List.range 32)).dramTrains (List.range 4)).setPwr fun p => { p with bootPhase := 2 } := by
    rw [State.tryPhase2, if_pos ⟨hb, hl, by rw [ht]; rfl⟩]
    unfold State.endPhase1 State.flashTrains State.dramTrains
    rfl
  refine ⟨_, hgo, rfl, fun c hc h => ?_, fun c hc h => ?_⟩
  · have hsame : (s.flashTrains (List.range 32)).dramState c = s.dramState c := State.flashTrains_get _ _ fun d hd e => by
      have hpage : 0xA0 + c = 0x80 + d := e
      have hlt := List.mem_range.mp hd
      omega
    have hone := State.dramTrains_state (s.flashTrains (List.range 32)) (List.mem_range.mpr hc) (.inl (hsame.trans h))
    generalize (s.flashTrains (List.range 32)).dramTrains (List.range 4) = u at hone ⊢
    exact hone
  · have hsame (x : Fld) (hx : x.page = 0x80 + c) : (((s.flashTrains (List.range 32)).dramTrains (List.range 4)).setPwr fun p => { p with bootPhase := 2 }).get x
        = (s.flashTrains (List.range 32)).get x :=
      (State.setPwr_get ..).trans (State.dramTrains_get _ _ fun d hd e => by
        have hpage : 0xA0 + d = 0x80 + c := e.symm.trans hx
        omega)
    rw [hsame _ rfl, hsame _ rfl]
    exact State.flashTrains_state s List.nodup_range (List.mem_range.mpr hc) h

end

end Sys2Proof.Machine
end

section
/-!
The boot's training and its image: what is shown of DRAM, which image is accepted, and the mailbox (R559, R564–R568).
-/

namespace Sys2Proof.Machine

open Sys2Proof.Laws

section
variable {s t : State}

/-! ### Training of DRAM -/

/-- Whether a trained channel passes: the device says so, and every lane's eye is wide enough. -/
def dramPasses (r : DramTraining) (c : Nat) : Bool :=
  (r.chans.getD c (0, false, false, false)).2.2.2 && (List.range 10).all fun i => decide (16 ≤ ((r.lanes.getD c []).getD i (0, 0, 0)).2.2)

theorem State.dramState_put_off (s : State) {y : Fld} (hy : y.off ≠ 0x040 ∨ y.lo ≠ 0) (v c : Nat) : (s.put y v).dramState c = s.dramState c :=
  State.get_put_other _ _ fun e => by
    rw [← e] at hy
    exact hy.elim (fun h => h rfl) fun h => h rfl

theorem State.dramState_puts_off (s : State) {l : List (Fld × Nat)} (h : l.all (fun p => p.1.off != 0x040 || p.1.lo != 0) = true) (c : Nat) :
    (s.puts l).dramState c = s.dramState c :=
  State.puts_get_other (x := R.DRAM.CH_STATUS_STATE c) fun p hp e => by
    have hin := List.all_eq_true.mp h p hp
    rw [e] at hin
    cases hin

theorem State.dramState_pulse (s : State) (page bit c : Nat) : (s.pulse page bit).dramState c = s.dramState c := State.pulse_get_beyond _ _ _ rfl

theorem State.dramState_record (s : State) (page code info c : Nat) : (s.record page code info).dramState c = s.dramState c := State.record_get_beyond _ _ _ _ _ _ _ rfl

/-- The sizes and the eyes that training found. -/
def State.dramShown (r : DramTraining) (s : State) (c : Nat) : State :=
  (List.range 10).foldl (fun t i =>
    t.puts [(R.DRAM.TRAIN_LANE_RD_DQS c i, ((r.lanes.getD c []).getD i (0, 0, 0)).1), (R.DRAM.TRAIN_LANE_WR_DQ c i, ((r.lanes.getD c []).getD i (0, 0, 0)).2.1),
      (R.DRAM.TRAIN_LANE_EYE c i, ((r.lanes.getD c []).getD i (0, 0, 0)).2.2)])
    (s.puts [(R.DRAM.CONFIG_GIB c, (r.chans.getD c (0, false, false, false)).1), (R.DRAM.CONFIG_X8 c, b2n (r.chans.getD c (0, false, false, false)).2.1),
      (R.DRAM.CONFIG_RANKS c, b2n (r.chans.getD c (0, false, false, false)).2.2.1)])

theorem State.dramShown_state (r : DramTraining) (s : State) (c d : Nat) : (s.dramShown r c).dramState d = s.dramState d := by
  refine (foldl_keeps (fun t : State => t.dramState d) (fun t i => ?_) _ _).trans (State.dramState_puts_off _ rfl d)
  rw [State.puts_cons, State.puts_cons, State.puts_cons, State.puts_nil]
  have hput (t : State) {y : Fld} (hy : 0x041 ≤ y.off) (v : Nat) : (t.put y v).dramState d = t.dramState d := State.dramState_put_off t (.inl (by omega)) v d
  rw [hput _ (Nat.le_add_right_of_le (by decide)), hput _ (Nat.le_add_right_of_le (by decide)), hput _ (Nat.le_add_right_of_le (by decide))]

/-- A channel that fails its training is retired. -/
def State.dramFailed (s : State) (c : Nat) : State :=
  let t := (s.pulse (dramPage c) Ev.DRAM.TRAIN_FAIL).record (dramPage c) E.DRAM_TRAIN_FAIL (dramInfo c 0 0 0 0)
  let t := t.puts [(R.DRAM.CH_STATUS_STATE c, 6), (R.DRAM.CH_STATUS_RETIRE_CAUSE c, 1), (H.RETIRED (dramPage c), 1)]
  ((t.pulse (dramPage c) Ev.DRAM.RETIRED).pulse 0xA4 Ev.DRAMC.RETIREMENT).record (dramPage c) E.DRAM_CHANNEL_RETIRED (dramInfo c 0 0 0 0)

theorem State.dramResult_eq (r : DramTraining) (s : State) (c : Nat) :
    s.dramResult r c = if s.dramState c ≠ 1 then s else if dramPasses r c = true then ((s.dramShown r c).dramUp c).pulse (dramPage c) Ev.DRAM.TRAINED else (s.dramShown r c).dramFailed c := by
  unfold State.dramResult State.dramShown State.dramFailed dramPasses
  rfl

theorem State.dramFailed_state (s : State) (c : Nat) : (s.dramFailed c).dramState c = 6 := by
  unfold State.dramFailed
  dsimp only
  rw [State.dramState_record, State.dramState_pulse, State.dramState_pulse, State.puts_cons, State.puts_cons, State.puts_cons, State.puts_nil,
    State.dramState_put_off _ (.inl (by decide : (0x00C : Nat) ≠ 0x040)), State.dramState_put_off _ (.inr (Nat.succ_ne_zero 7)), State.dramState_put_same]

theorem State.dramFailed_state_other (s : State) {c d : Nat} (h : c ≠ d) : (s.dramFailed c).dramState d = s.dramState d := by
  unfold State.dramFailed
  dsimp only
  rw [State.dramState_record, State.dramState_pulse, State.dramState_pulse, State.puts_cons, State.puts_cons, State.puts_cons, State.puts_nil,
    State.dramState_put_off _ (.inl (by decide : (0x00C : Nat) ≠ 0x040)), State.dramState_put_off _ (.inr (Nat.succ_ne_zero 7)), State.dramState_put_other h,
    State.dramState_record, State.dramState_pulse]

theorem State.dramResult_state (r : DramTraining) (s : State) (c : Nat) (h : s.dramState c = 1) : (s.dramResult r c).dramState c = if dramPasses r c = true then 2 else 6 := by
  rw [State.dramResult_eq, if_neg (not_not_intro h)]
  split
  · rw [State.dramState_pulse, State.dramUp_state_same]
  · rw [State.dramFailed_state]

theorem State.dramResult_state_other (r : DramTraining) (s : State) {c d : Nat} (h : c ≠ d) : (s.dramResult r c).dramState d = s.dramState d := by
  rw [State.dramResult_eq]
  split
  · rfl
  · split
    · rw [State.dramState_pulse, State.dramUp_state_other h, State.dramShown_state]
    · rw [State.dramFailed_state_other _ h, State.dramShown_state]

theorem State.foldl_dramResult (r : DramTraining) {l : List Nat} (s : State) {c : Nat} (hl : l.Nodup) (hc : c ∈ l) (h : s.dramState c = 1) :
    (l.foldl (State.dramResult r) s).dramState c = if dramPasses r c = true then 2 else 6 := by
  have hout (l : List Nat) (t : State) (hn : c ∉ l) : (l.foldl (State.dramResult r) t).dramState c = t.dramState c := by
    induction l generalizing t with
    | nil => rfl
    | cons a l ih => exact (ih _ fun hm => hn (List.mem_cons_of_mem a hm)).trans (State.dramResult_state_other r t fun e => hn (e ▸ List.mem_cons_self))
  induction l generalizing s with
  | nil => exact absurd hc List.not_mem_nil
  | cons a l ih =>
    obtain ⟨ha, hl⟩ := List.nodup_cons.mp hl
    by_cases hac : a = c
    · subst hac
      exact (hout l _ ha).trans (State.dramResult_state r s a h)
    · exact ih _ hl ((List.mem_cons.mp hc).resolve_left (Ne.symm hac)) ((State.dramResult_state_other r s hac).trans h)

theorem configFields_page : ∀ f ∈ configFields, f.page < 0xA0 := by
  intro f hf
  rw [configFields, List.mem_append] at hf
  rcases hf with hf | hf
  · simp only [List.mem_cons, List.not_mem_nil, or_false] at hf
    rcases hf with rfl | rfl | rfl <;> decide
  · obtain ⟨c, hc, hf⟩ := List.mem_flatMap.mp hf
    have hlt := List.mem_range.mp hc
    have hpage : f.page = 0x80 + c := by
      simp only [List.cons_append, List.nil_append, List.mem_cons, List.mem_map] at hf
      rcases hf with rfl | rfl | ⟨i, -, rfl⟩ <;> rfl
    omega

theorem configValues_fields (b : Bytes) : ∀ p ∈ configValues b, p.1 ∈ configFields := by
  have hfold (l : List Fld) (r : List (Fld × Nat) × Bytes) (hr : ∀ p ∈ r.1, p.1 ∈ configFields) (hl : ∀ f ∈ l, f ∈ configFields) :
      ∀ p ∈ (l.foldl (fun (r : List (Fld × Nat) × Bytes) f => (r.1 ++ [(f, leNat (r.2.take f.bytes))], r.2.drop f.bytes)) r).1, p.1 ∈ configFields := by
    induction l generalizing r with
    | nil => exact hr
    | cons f l ih =>
      refine ih _ (fun p hp => ?_) fun g hg => hl g (List.mem_cons_of_mem f hg)
      rcases List.mem_append.mp hp with hp | hp
      · exact hr p hp
      · rw [List.mem_singleton.mp hp]
        exact hl f List.mem_cons_self
  exact hfold configFields _ (fun p hp => absurd hp List.not_mem_nil) fun f hf => hf

theorem State.loadConfig_dramState (s : State) (c : Nat) : s.loadConfig.dramState c = s.dramState c := by
  have hkeep : (!isConfig (R.DRAM.CH_STATUS_STATE c)) = true := by
    have h11 : (0xA0 + c == 0x11) = false := beq_false_of_ne (by omega)
    have h60 : (0xA0 + c == 0x60) = false := beq_false_of_ne (by omega)
    simp [isConfig, R.DRAM.CH_STATUS_STATE, h11, h60]
  have hputs (u : State) {l : List (Fld × Nat)} (hl : ∀ p ∈ l, p.1 ∈ configFields) : (u.puts (l.filter (·.2 != 0))).dramState c = u.dramState c :=
    State.puts_get_other fun p hp e => by
      have hlt := configFields_page _ (hl p (List.mem_of_mem_filter hp))
      have hpage : p.1.page = 0xA0 + c := congrArg Fld.page e
      omega
  have hunput : (s.unput fun f => !isConfig f).dramState c = s.dramState c := State.unput_get_of_kept s hkeep
  unfold State.loadConfig
  dsimp only
  refine (hputs _ ?_).trans hunput
  split
  · exact configValues_fields _
  · intro p hp
    rw [State.configDefaults] at hp
    obtain ⟨f, hf, rfl⟩ := List.mem_map.mp hp
    exact hf

theorem State.poolDram_dramState (s : State) (c : Nat) : s.poolDram.dramState c = s.dramState c := State.dramState_put_off _ (.inl (by decide)) _ c

theorem State.showDram_dramState (s : State) {c : Nat} (hc : c < 4) : s.showDram.dramState c = s.dramState c := by
  have hput (t : State) {y : Fld} (hy : y.page = 0xA4) (v : Nat) : (t.put y v).dramState c = t.dramState c := State.get_put_other _ _ fun e => by
    have hpage : 0xA0 + c = 0xA4 := (congrArg Fld.page e).trans hy
    omega
  rw [State.showDram, State.puts_cons, State.puts_cons, State.puts_nil, hput _ rfl, hput _ rfl]

theorem bootSources_of_secrets (h : t.secrets = s.secrets) : t.bootSources = s.bootSources := by
  have hof (u : State) : u.bootSources = { State.reset with trust := { TrustSt.reset with otp := u.secrets.1, makerGen := u.secrets.2.1, instGen := u.secrets.2.2 } }.bootSources := rfl
  rw [hof t, hof s, h]

theorem bootTrainingDone_unsupported {r : DramTraining} (hb : s.pwr.bootPhase = 2) (hh : s.pwr.held = .no) (hc : ∀ c < 32, s.get (R.NAND.CH_STATUS_STATE c) ≠ 1)
    (hr : dramSupported r = false) :
    ∃ t : State, exec (.bootTrainingDone r) s = .next t ∧ t.pwr.held = .dram ∧ t.pwr.bootPhase = 2 ∧ (s.get (H.VALID 0xA4) = 0 → t.get (H.CODE 0xA4) = E.DRAM_UNSUPPORTED) := by
  have heq : exec (.bootTrainingDone r) s = execBootTrainingDone r s := rfl
  have hnot : ¬(s.pwr.bootPhase ≠ 2 ∨ s.pwr.held ≠ .no ∨ (List.range 32).any (fun c => s.get (R.NAND.CH_STATUS_STATE c) == 1) = true) := by
    simpa [hb, hh] using hc
  rw [heq, execBootTrainingDone, if_neg hnot, if_pos (by rw [hr]; rfl)]
  refine ⟨_, rfl, rfl, ?_, fun hv => ?_⟩
  · rw [State.setPwr_pwr, State.record_pwr]
    exact hb
  · rw [State.setPwr_get]
    exact State.record_get_CODE hv ..

/-- The state of a boot whose DRAM is trained. -/
def State.bootTrained (s : State) (r : DramTraining) : State :=
  let t := ((List.range 4).foldl (State.dramResult r) s).showDram
  (if 2 ≤ t.liveDram then t else (t.record 0xA4 E.DRAM_TOO_FEW (dramInfo 0 0 0 0 0)).enterSafe 5).loadConfig.poolDram

theorem State.bootTrained_state (s : State) (r : DramTraining) {c : Nat} (hc : c < 4) (h : s.dramState c = 1) : (s.bootTrained r).dramState c = if dramPasses r c = true then 2 else 6 := by
  unfold State.bootTrained
  dsimp only
  rw [State.poolDram_dramState, State.loadConfig_dramState, ← State.foldl_dramResult r s List.nodup_range (List.mem_range.mpr hc) h,
    ← State.showDram_dramState ((List.range 4).foldl (State.dramResult r) s) hc]
  generalize ((List.range 4).foldl (State.dramResult r) s).showDram = u
  split
  · rfl
  · rw [dramState_of_steady (State.steady_enterSafe (dramFld_still c) ..), State.dramState_record]

theorem bootTrainingDone_supported {r : DramTraining} (hb : s.pwr.bootPhase = 2) (hh : s.pwr.held = .no) (hc : ∀ c < 32, s.get (R.NAND.CH_STATUS_STATE c) ≠ 1)
    (hr : dramSupported r = true) :
    ∃ t : State, exec (.bootTrainingDone r) s = .next (if t.pwr.sources = [] then t.holdBoot else t) ∧ t.pwr.bootPhase = 3 ∧ t.pwr.sources = t.bootSources
        ∧ ∀ c < 4, s.dramState c = 1 → t.dramState c = if dramPasses r c = true then 2 else 6 := by
  have heq : exec (.bootTrainingDone r) s = execBootTrainingDone r s := rfl
  have hnot : ¬(s.pwr.bootPhase ≠ 2 ∨ s.pwr.held ≠ .no ∨ (List.range 32).any (fun c => s.get (R.NAND.CH_STATUS_STATE c) == 1) = true) := by
    simpa [hb, hh] using hc
  have hdone : execBootTrainingDone r s = .next (if ((s.bootTrained r).setPwr fun p =>
      { p with bootPhase := 3, dramTrained := true, sources := (s.bootTrained r).bootSources }).pwr.sources.isEmpty = true then
        ((s.bootTrained r).setPwr fun p => { p with bootPhase := 3, dramTrained := true, sources := (s.bootTrained r).bootSources }).holdBoot
      else (s.bootTrained r).setPwr fun p => { p with bootPhase := 3, dramTrained := true, sources := (s.bootTrained r).bootSources }) := by
    rw [execBootTrainingDone, if_neg hnot, if_neg (by rw [hr]; decide)]
    unfold State.bootTrained
    rfl
  have hstate {c : Nat} (hc : c < 4) (h : s.dramState c = 1) := s.bootTrained_state r hc h
  rw [heq, hdone]
  generalize s.bootTrained r = u at hstate ⊢
  refine ⟨u.setPwr fun p => { p with bootPhase := 3, dramTrained := true, sources := u.bootSources }, ?_, rfl, ?_, fun c hc h => ?_⟩
  · simp only [List.isEmpty_iff]
  · exact (bootSources_of_secrets rfl).symm
  · exact hstate hc h

/-! ### The image -/

/-- A state's part that the acceptance of an image rests on. -/
def secretState (x : List (Nat × Byte) × Option Nat × Option Nat) : State :=
  { State.reset with trust := { TrustSt.reset with otp := x.1, makerGen := x.2.1, instGen := x.2.2 } }

theorem bootKey_of_secrets (h : t.secrets = s.secrets) : t.bootKey = s.bootKey := by
  have hof (u : State) : u.bootKey = (secretState u.secrets).bootKey := rfl
  rw [hof t, hof s, h]

theorem mailboxOn_of_secrets (h : t.secrets = s.secrets) : t.mailboxOn = s.mailboxOn := by
  have hof (u : State) : u.mailboxOn = (secretState u.secrets).mailboxOn := rfl
  rw [hof t, hof s, h]

theorem verifyImage_of_secrets (h : t.secrets = s.secrets) (img : Bytes) (va vb : BitVec 8) : (t.verifyImage img va vb).1 = (s.verifyImage img va vb).1 := by
  have hkey := bootKey_of_secrets h
  have hof (u : State) : (u.verifyImage img va vb).1 = match u.bootKey with
      | none => false
      | some key => bootLayoutOk img && verdictAccepts (comparator (img.drop (img.length - 48) == hmacSha384 key (img.take (img.length - 48))) va)
          (comparator (img.drop (img.length - 48) == hmacSha384 key (img.take (img.length - 48))) vb) := by
    unfold State.verifyImage
    cases u.bootKey with
    | none => rfl
    | some key => cases hl : bootLayoutOk img <;> simp
  rw [hof t, hof s, hkey]

theorem verifyImage_iff_mac {img key : Bytes} (hk : s.bootKey = some key) (hl : bootLayoutOk img = true) :
    (s.verifyImage img 0 0).1 = true ↔ img.drop (img.length - 48) = hmacSha384 key (img.take (img.length - 48)) := by
  have haccepts (same : Bool) : verdictAccepts (comparator same 0) (comparator same 0) = same := by cases same <;> decide
  unfold State.verifyImage
  simp only [hk, hl, Bool.not_true, Bool.false_eq_true, if_false, haccepts, beq_iff_eq]

theorem State.verifyImage_frame (s : State) (img : Bytes) (va vb : BitVec 8) : forget 0x480000420 (s.verifyImage img va vb).2 = forget 0x480000420 s :=
  State.forget_verifyImage rfl ..

theorem State.verifyImage_get (s : State) (img : Bytes) (va vb : BitVec 8) {x : Fld} (hx : x.page ≠ 0x2A) : (s.verifyImage img va vb).2.get x = s.get x := by
  have hnote (a b info func : Nat) : (s.noteVerdict a b info func).get x = s.get x := by
    have hnoted (y : Fld) (hy : y.page = 0x2A) (e code : Nat) : (((s.bump y).pulse 0x2A e).record 0x2A code info func).get x = s.get x := by
      rw [State.record_get_of_page _ hx, State.pulse_get_of_page _ hx, State.get_bump_other _ _ fun e => hx ((congrArg Fld.page e).trans hy)]
    unfold State.noteVerdict
    split
    · exact hnoted _ rfl ..
    · split
      · exact hnoted _ rfl ..
      · rfl
  unfold State.verifyImage
  split
  · rfl
  · split
    · rfl
    · exact hnote ..

theorem State.countBoot_get (s : State) (src copy : Nat) (ok : Bool) (x : Fld) : (s.countBoot src copy ok).get x = (s.bump R.PWR.BOOT_ATTEMPTS).get x := rfl

theorem State.countBoot_pwr (s : State) (src copy : Nat) (ok : Bool) : (s.countBoot src copy ok).pwr = s.pwr := keeps_pwr (State.forget_countBoot (T := 0x800000020) rfl ..) rfl

/-- The state once an image is checked and the attempt counted. -/
def State.imageTried (s : State) (img : Bytes) (va vb : BitVec 8) (src copy : Nat) (ok : Bool) : State := (s.verifyImage img va vb).2.countBoot src copy ok

theorem State.imageTried_attempts (s : State) (img : Bytes) (va vb : BitVec 8) (src copy : Nat) (ok : Bool) :
    (s.imageTried img va vb src copy ok).get R.PWR.BOOT_ATTEMPTS = min (s.get R.PWR.BOOT_ATTEMPTS + 1) 255 := by
  rw [State.imageTried, State.countBoot_get, State.get_bump_same, State.verifyImage_get _ _ _ _ (by decide)]
  rfl

theorem State.imageTried_get (s : State) (img : Bytes) (va vb : BitVec 8) (src copy : Nat) (ok : Bool) {x : Fld} (hx : x.page ≠ 0x2A) (hn : x ≠ R.PWR.BOOT_ATTEMPTS) :
    (s.imageTried img va vb src copy ok).get x = s.get x := by
  rw [State.imageTried, State.countBoot_get, State.get_bump_other _ _ hn, State.verifyImage_get _ _ _ _ hx]

theorem State.imageTried_pwr (s : State) (img : Bytes) (va vb : BitVec 8) (src copy : Nat) (ok : Bool) : (s.imageTried img va vb src copy ok).pwr = s.pwr := by
  rw [State.imageTried, State.countBoot_pwr, keeps_pwr (s.verifyImage_frame ..) rfl]

/-- Whether an image is the one that its source holds. -/
def State.imageFits (s : State) (img : Bytes) (src copy : Nat) : Bool :=
  src != 0 || (match s.pwr.fw.region.getD copy none with | some r => r == img | none => true)

theorem State.imageFits_of {img : Bytes} {src copy : Nat}
    (h : src ≠ 0 ∨ s.pwr.fw.region.getD copy none = none ∨ s.pwr.fw.region.getD copy none = some img) : s.imageFits img src copy = true := by
  unfold State.imageFits
  rcases h with h | h | h
  · rw [bne_iff_ne.mpr h, Bool.true_or]
  · rw [h, Bool.or_true]
  · simp only [h, beq_self_eq_true, Bool.or_true]

theorem State.imageFits_of_other {img r : Bytes} {copy : Nat} (h : s.pwr.fw.region.getD copy none = some r) (hr : r ≠ img) : s.imageFits img 0 copy = false := by
  unfold State.imageFits
  simp only [h, beq_false_of_ne hr, bne_self_eq_false, Bool.or_self]

/-- A source that gave no image is given up. -/
def State.sourceDone (s : State) (src : Nat) (rest : List (Nat × Nat)) : State :=
  if src = 0 then (s.setPwr fun p => { p with sources := rest }).record 2 E.PWR_BOOT_FALLBACK (pwrInfo 3 2 0 3) else s.setPwr fun p => { p with sources := rest }

theorem exec_bootImageCheck {img : Bytes} {va vb : BitVec 8} {src copy : Nat} {rest : List (Nat × Nat)} {ok : Bool} (hb : s.pwr.bootPhase = 3) (hh : s.pwr.held = .no)
    (hs : s.pwr.sources = (src, copy) :: rest) (hok : ((s.verifyImage img va vb).1 && s.imageFits img src copy) = ok) :
    exec (.bootImageCheck img va vb) s
      = if ok = true then .next ((s.imageTried img va vb src copy ok).acceptImage img src copy)
        else .next (if rest.isEmpty = true then ((s.imageTried img va vb src copy ok).sourceDone src rest).holdBoot else (s.imageTried img va vb src copy ok).sourceDone src rest) := by
  have heq : exec (.bootImageCheck img va vb) s = execBootImageCheck img va vb s := rfl
  rw [heq, execBootImageCheck, if_neg (by simp [hb, hh]), ← hok]
  simp only [hs]
  unfold State.imageFits State.imageTried State.sourceDone
  rfl

theorem bootImageCheck_accepts {img : Bytes} {va vb : BitVec 8} {src copy : Nat} {rest : List (Nat × Nat)} (hb : s.pwr.bootPhase = 3) (hh : s.pwr.held = .no)
    (hs : s.pwr.sources = (src, copy) :: rest) (hv : (s.verifyImage img va vb).1 = true)
    (hf : src ≠ 0 ∨ s.pwr.fw.region.getD copy none = none ∨ s.pwr.fw.region.getD copy none = some img) :
    ∃ u : State, exec (.bootImageCheck img va vb) s = .next (u.acceptImage img src copy) ∧ u.get R.PWR.BOOT_ATTEMPTS = min (s.get R.PWR.BOOT_ATTEMPTS + 1) 255 := by
  rw [exec_bootImageCheck hb hh hs (by rw [hv, State.imageFits_of hf, Bool.true_and]), if_pos rfl]
  exact ⟨_, rfl, State.imageTried_attempts ..⟩

theorem bootImageCheck_falls_back {img : Bytes} {va vb : BitVec 8} {src copy : Nat} {rest : List (Nat × Nat)} (hb : s.pwr.bootPhase = 3) (hh : s.pwr.held = .no)
    (hs : s.pwr.sources = (src, copy) :: rest)
    (hv : (s.verifyImage img va vb).1 = false ∨ (src = 0 ∧ ∃ r, s.pwr.fw.region.getD copy none = some r ∧ r ≠ img)) :
    ∃ u : State, exec (.bootImageCheck img va vb) s = .next (if rest = [] then u.holdBoot else u) ∧ u.pwr.sources = rest ∧ u.pwr.bootPhase = 3
        ∧ u.pwr.fw.running = s.pwr.fw.running ∧ u.get R.PWR.BOOT_ATTEMPTS = min (s.get R.PWR.BOOT_ATTEMPTS + 1) 255
        ∧ (src = 0 → s.get (H.VALID 2) = 0 → u.get (H.CODE 2) = E.PWR_BOOT_FALLBACK) := by
  have hno : ((s.verifyImage img va vb).1 && s.imageFits img src copy) = false := by
    rcases hv with h | ⟨rfl, r, hr, hne⟩
    · rw [h, Bool.false_and]
    · rw [State.imageFits_of_other hr hne, Bool.and_false]
  rw [exec_bootImageCheck hb hh hs hno, if_neg Bool.false_ne_true]
  have htried := s.imageTried_attempts img va vb src copy false
  have hvalid : (s.imageTried img va vb src copy false).get (H.VALID 2) = s.get (H.VALID 2) := State.imageTried_get _ _ _ _ _ _ _ (by decide) (by decide)
  have hpwr := s.imageTried_pwr img va vb src copy false
  generalize s.imageTried img va vb src copy false = u at htried hvalid hpwr ⊢
  have hset : (u.setPwr fun p => { p with sources := rest }).pwr = { s.pwr with sources := rest } := by rw [State.setPwr_pwr, hpwr]
  simp only [List.isEmpty_iff]
  refine ⟨u.sourceDone src rest, rfl, ?_⟩
  rw [State.sourceDone]
  by_cases h0 : src = 0
  · rw [if_pos h0, State.record_pwr, hset, State.record_get_beyond _ _ _ _ _ _ _ rfl, State.setPwr_get]
    exact ⟨rfl, hb, rfl, htried, fun _ hv => State.record_get_CODE ((State.setPwr_get ..).trans (hvalid.trans hv)) ..⟩
  · rw [if_neg h0, hset, State.setPwr_get]
    exact ⟨rfl, hb, rfl, htried, fun h => absurd h h0⟩

theorem holdBoot_spec (s : State) : ∃ t : State, s.holdBoot = t ∧ t.pwr.held = .noImage ∧ (s.get (H.VALID 2) = 0 → t.get (H.CODE 2) = E.PWR_BOOT_FAIL) := by
  refine ⟨_, rfl, rfl, fun hv => ?_⟩
  rw [State.holdBoot, State.setPwr_get]
  exact State.record_get_CODE hv ..

theorem acceptImage_spec (s : State) (img : Bytes) (src copy : Nat) :
    ∃ t : State, s.acceptImage img src copy = t ∧ t.pwr.bootPhase = 4 ∧ t.pwr.fw.running = some img ∧ t.pwr.keysLocked = true ∧ t.pwr.held = .no
      ∧ t.get R.PWR.BOOT_SOURCE = src % 4 ∧ t.get R.PWR.BOOT_COPY = copy % 4 := by
  refine ⟨_, rfl, ?_⟩
  unfold State.acceptImage
  dsimp only
  have hstart (l : List (Fin 72)) (u : State) :
      forget 0x1000004 (l.foldl (fun t c => if (t.cores[c]).state = .retired then t else t.startSystem c) u) = forget 0x1000004 u :=
    foldl_keeps (forget 0x1000004) (fun t c => by
      split
      · rfl
      · exact State.forget_startSystem rfl ..) _ _
  rw [keeps_pwr (hstart ..) rfl, State.get_of_regs (keeps_regs (hstart ..) rfl), State.get_of_regs (keeps_regs (hstart ..) rfl), State.setPwr_get, State.setPwr_get,
    State.puts_cons, State.puts_cons, State.puts_nil]
  exact ⟨rfl, rfl, rfl, rfl, (State.get_put_of_place _ _ rfl).trans (State.get_put_same ..), State.get_put_same ..⟩

/-! ### The mailbox -/

/-- What a write of GO does to a device that holds its boot. -/
def State.mailboxGo (t : State) : State :=
  if t.pwr.held = .no then t
  else if !t.mailboxOn then t
  else if t.pwr.held = .dram ∨ t.get R.PWR.MBOX_LEN_BYTES < 4096 ∨ 16777216 < t.get R.PWR.MBOX_LEN_BYTES then t.put R.PWR.MBOX_CTRL_STATE 2
  else if (t.verifyImage (t.mem.read .hostA (4096 * t.get R.PWR.MBOX_ADDR_ADDR) (t.get R.PWR.MBOX_LEN_BYTES)) 0 0).1 = true then
    ((t.imageTried (t.mem.read .hostA (4096 * t.get R.PWR.MBOX_ADDR_ADDR) (t.get R.PWR.MBOX_LEN_BYTES)) 0 0 2 0
      (t.verifyImage (t.mem.read .hostA (4096 * t.get R.PWR.MBOX_ADDR_ADDR) (t.get R.PWR.MBOX_LEN_BYTES)) 0 0).1).put R.PWR.MBOX_CTRL_STATE 3).acceptImage
        (t.mem.read .hostA (4096 * t.get R.PWR.MBOX_ADDR_ADDR) (t.get R.PWR.MBOX_LEN_BYTES)) 2 0
  else (t.imageTried (t.mem.read .hostA (4096 * t.get R.PWR.MBOX_ADDR_ADDR) (t.get R.PWR.MBOX_LEN_BYTES)) 0 0 2 0
      (t.verifyImage (t.mem.read .hostA (4096 * t.get R.PWR.MBOX_ADDR_ADDR) (t.get R.PWR.MBOX_LEN_BYTES)) 0 0).1).put R.PWR.MBOX_CTRL_STATE 2

theorem exec_go (o : Origin) (s : State) : exec (.go o) s = .next (s.regCmd o 2 0x09C 1 true false id State.mailboxGo) := by
  have heq : exec (.go o) s = execGo o s := rfl
  rw [heq, execGo]
  unfold State.mailboxGo State.imageTried
  rfl

theorem go_spec {o : Origin} (hp : s.powered = true) (hr : s.reaches o 2 = true) (hh : s.pwr.held ≠ .no) (hm : s.mailboxOn = true) :
    (s.pwr.held = .dram ∨ s.get R.PWR.MBOX_LEN_BYTES < 4096 ∨ 16777216 < s.get R.PWR.MBOX_LEN_BYTES →
      ∃ t : State, exec (.go o) s = .next t ∧ t.get R.PWR.MBOX_CTRL_STATE = 2 ∧ t.pwr = s.pwr)
    ∧ (∀ img, s.pwr.held = .noImage → 4096 ≤ s.get R.PWR.MBOX_LEN_BYTES → s.get R.PWR.MBOX_LEN_BYTES ≤ 16777216 →
      img = s.mem.read .hostA (4096 * s.get R.PWR.MBOX_ADDR_ADDR) (s.get R.PWR.MBOX_LEN_BYTES) →
      ((s.verifyImage img 0 0).1 = true → ∃ u : State, exec (.go o) s = .next (u.acceptImage img 2 0) ∧ u.get R.PWR.MBOX_CTRL_STATE = 3)
      ∧ ((s.verifyImage img 0 0).1 = false → ∃ t : State, exec (.go o) s = .next t ∧ t.get R.PWR.MBOX_CTRL_STATE = 2 ∧ t.pwr = s.pwr)) := by
  have hneed : needOf (rowsAt 2 0x09C) = .none := by decide
  obtain ⟨t, ht, h⟩ := State.regCmd_acts (v := 1) (deny := id) (act := State.mailboxGo) hp hr (by rw [hneed]; rfl) rfl rfl
  have hpwr : t.pwr = s.pwr := keeps_pwr ht.1 rfl
  have hmem : t.mem = s.mem := keeps_mem ht.1 rfl
  have hon : ¬((!t.mailboxOn) = true) := by rw [mailboxOn_of_secrets ht.2.2, hm]; decide
  have hverify (img : Bytes) := verifyImage_of_secrets ht.2.2 img 0 0
  rw [exec_go, h, State.mailboxGo, hpwr, hmem, ht.get, ht.get, if_neg hh, if_neg hon]
  refine ⟨fun hbad => ?_, fun img hno hlow hhigh himg => ?_⟩
  · rw [if_pos hbad]
    exact ⟨_, rfl, State.get_put_same .., hpwr⟩
  · rw [if_neg (by rw [hno]; simp only [reduceCtorEq, false_or]; omega), ← himg, hverify]
    refine ⟨fun hv => ?_, fun hv => ?_⟩
    · rw [if_pos hv]
      exact ⟨_, rfl, State.get_put_same ..⟩
    · rw [if_neg (by rw [hv]; decide)]
      refine ⟨_, rfl, State.get_put_same .., ?_⟩
      have htried := t.imageTried_pwr img 0 0 2 0 (s.verifyImage img 0 0).1
      generalize t.imageTried img 0 0 2 0 (s.verifyImage img 0 0).1 = u at htried
      exact htried.trans hpwr

end

end Sys2Proof.Machine
end

section
/-!
What formats the device and maps a unit: the work of the array and the journal leaves the map's entries and `formatted` as they were (R245).
-/

namespace Sys2Proof.Machine

open Sys2Proof.Laws

section

/-- Whether the device is formatted, and the map's entries. -/
@[reducible] def MediaSt.base (m : MediaSt) : Bool × List ((Nat × Nat) × MapEnt) := (m.formatted, m.image.map)

theorem MediaSt.formatted_of_base {m m' : MediaSt} (h : m.base = m'.base) : m.formatted = m'.formatted := congrArg Prod.fst h

theorem MediaSt.map_of_base {m m' : MediaSt} (h : m.base = m'.base) : m.image.map = m'.image.map := congrArg Prod.snd h

theorem MediaSt.of_base_eq {m : MediaSt} {b : Bool} {l : List ((Nat × Nat) × MapEnt)} (h : m.base = (b, l)) : m.formatted = b ∧ m.image.map = l := Prod.mk.inj h

theorem fmt_of_forget {s t : State} (h : forget 0xFFFFFFFFFFFBFFFF t = forget 0xFFFFFFFFFFFBFFFF s) : t.media.base = s.media.base :=
  congrArg MediaSt.base (keeps_media h rfl)

theorem fmt_ite (c : Prop) [Decidable c] (s t : State) : (if c then s else t).media.base = if c then s.media.base else t.media.base :=
  apply_ite (fun u : State => u.media.base) ..

theorem fmt_foldl {β : Type} (g : State → β → State) (l : List β) (h : ∀ s x, (g s x).media.base = s.media.base) (s : State) :
    (l.foldl g s).media.base = s.media.base :=
  foldl_keeps (fun u : State => u.media.base) h l s

theorem State.fmt_puts (s : State) (l : List (Fld × ℕ)) : (State.puts s l).media.base = s.media.base := fmt_of_forget (State.forget_puts rfl ..)

theorem State.fmt_endPerturb (s : State) (cause : PerturbEnd) : (State.endPerturb s cause).media.base = s.media.base := fmt_of_forget (State.forget_endPerturb rfl ..)

theorem State.fmt_put (s : State) (f : Fld) (v : ℕ) : (State.put s f v).media.base = s.media.base := fmt_of_forget (State.forget_put rfl ..)

theorem State.fmt_setMode (s : State) (m : ℕ) : (State.setMode s m).media.base = s.media.base := fmt_of_forget (State.forget_setMode rfl ..)

theorem State.fmt_pulse (s : State) (page : ℕ) (bit : ℕ) : (State.pulse s page bit).media.base = s.media.base := fmt_of_forget (State.forget_pulse rfl ..)

theorem State.fmt_refuseFrames (s : State) (p : FrameSt → Bool) : (State.refuseFrames s p).media.base = s.media.base := fmt_of_forget (State.forget_refuseFrames rfl ..)

theorem State.fmt_setTake (s : State) (f : TakeSt → TakeSt) : (State.setTake s f).media.base = s.media.base := fmt_of_forget (State.forget_setTake rfl ..)

theorem State.fmt_sealAll (s : State) : (State.sealAll s).media.base = s.media.base := fmt_of_forget (State.forget_sealAll rfl ..)

theorem State.fmt_refuseTrigger (s : State) (code : ℕ) (src : ℕ) : (State.refuseTrigger s code src).media.base = s.media.base := fmt_of_forget (State.forget_refuseTrigger rfl ..)

theorem State.fmt_modWin (s : State) (i : ℕ) (f : Window → Window) : (State.modWin s i f).media.base = s.media.base := fmt_of_forget (State.forget_modWin rfl ..)

theorem State.fmt_setMedia (s : State) (f : MediaSt → MediaSt) (h : ∀ m, (f m).base = m.base) : (s.setMedia f).media.base = s.media.base := h s.media

theorem State.fmt_queueOp (s : State) (d : ℕ) (op : DieOp) : (State.queueOp s d op).media.base = s.media.base := fmt_of_forget (State.forget_queueOp rfl ..)

theorem State.fmt_modPage (s : State) (n : Nat) (f : MPage → MPage) : (s.modPage n f).media.base = s.media.base := rfl

theorem State.fmt_takeUnit (s : State) (d : Nat) (stripe : Bool) {t : (Nat × Nat) × State} (e : s.takeUnit d stripe = some t) : t.2.media.base = s.media.base := by
  unfold State.takeUnit at e
  split at e
  · cases e
    rfl
  · split at e
    · cases e
    · obtain ⟨b, -, rfl⟩ := Option.map_eq_some_iff.mp e
      rfl

theorem State.fmt_addCopy (s : State) (n i d : Nat) : (s.addCopy n i d).media.base = s.media.base := by
  unfold State.addCopy
  split
  · rfl
  · split
    · rfl
    next b t ht =>
      dsimp only
      rw [State.fmt_queueOp, State.fmt_modPage]
      exact State.fmt_takeUnit s d _ ht

theorem State.fmt_putPage (s : State) (kind seq : Nat) (stripe : Bool) (data : Bytes) {t : Nat × State} (e : s.putPage kind seq stripe data = some t) :
    t.2.media.base = s.media.base := by
  unfold State.putPage at e
  dsimp only at e
  split at e
  · cases e
  · cases e
    exact (fmt_foldl _ _ (fun u d => State.fmt_addCopy ..) _).trans (State.fmt_setMedia _ _ fun _ => rfl)

theorem State.fmt_writeJournal (s : State) : s.writeJournal.media.base = s.media.base := by
  unfold State.writeJournal
  dsimp only
  split
  · rfl
  next r hr =>
    split
    · rfl
    next n t hp =>
      exact (State.fmt_setMedia t _ fun _ => rfl).trans (State.fmt_putPage s 4 r.seq false (journalBytes (s.media.page.take 2048)) hp)

theorem State.fmt_addRec (s : State) (r : JRec) : (State.addRec s r).media.base = s.media.base := by
  simp only [State.addRec, State.fmt_writeJournal, State.fmt_setMedia, fmt_ite, ite_self, implies_true]

theorem State.fmt_nextSeq (s : State) : s.nextSeq.2.media.base = s.media.base := rfl

theorem State.fmt_journal (s : State) (kind : ℕ) (count : ℕ) (nsid : ℕ) (logical : ℕ) (ma : ℕ × ℕ) : (State.journal s kind count nsid logical ma).media.base = s.media.base := by
  simp only [State.journal, State.fmt_addRec, State.fmt_nextSeq]

theorem State.fmt_setImage (s : State) (f : MapImage → MapImage) (h : ∀ i, (f i).map = i.map) : (s.setImage f).media.base = s.media.base :=
  Prod.ext rfl (h s.media.image)

theorem State.fmt_keepSeg (s : State) (nsid : ℕ) (seg : ℕ) : (State.keepSeg s nsid seg).media.base = s.media.base := by
  simp only [State.keepSeg, State.fmt_setMedia, State.fmt_setTake, State.fmt_journal, State.fmt_setImage, fmt_ite, ite_self, fmt_foldl, implies_true]

theorem State.fmt_cutWindow (s : State) (i : ℕ) : (State.cutWindow s i).media.base = s.media.base := fmt_of_forget (State.forget_cutWindow rfl ..)

theorem State.fmt_cutSealed (s : State) (i : ℕ) : (State.cutSealed s i).media.base = s.media.base := fmt_of_forget (State.forget_cutSealed rfl ..)

theorem State.fmt_setTrig (s : State) (f : TrigSt → TrigSt) : (State.setTrig s f).media.base = s.media.base := fmt_of_forget (State.forget_setTrig rfl ..)

theorem State.fmt_trigErr (s : State) (code : ℕ) (src : ℕ) (slot : Option ℕ) : (State.trigErr s code src slot).media.base = s.media.base := fmt_of_forget (State.forget_trigErr rfl ..)

theorem State.fmt_pinSpan (s : State) (i a b : Nat) : (s.pinSpan i a b).2.media.base = s.media.base := by
  have hkeep (t : State) (l : List Nat) : (l.foldl (fun t x => match t.take.c with | some c => t.keepSeg c.nsid x | none => t) t).media.base = t.media.base :=
    fmt_foldl _ _ (fun t x => by cases t.take.c with | none => rfl | some c => exact State.fmt_keepSeg ..) _
  unfold State.pinSpan
  dsimp only
  split
  · dsimp only
    split
    · exact State.fmt_cutWindow ..
    · exact State.fmt_cutSealed ..
  · dsimp only
    split
    · exact hkeep ..
    · split
      · rw [State.fmt_setTrig]
        exact hkeep ..
      · rw [State.fmt_trigErr, State.fmt_pulse, State.fmt_setTrig]
        exact hkeep ..

theorem State.fmt_pinFrame (s : State) (i : ℕ) (f : ℕ × ℕ × ℕ) : (State.pinFrame s i f).media.base = s.media.base := by
  simp only [State.pinFrame, State.fmt_modWin, State.fmt_pinSpan, fmt_ite, ite_self]

theorem State.fmt_pinRetained (s : State) (i : ℕ) : (State.pinRetained s i).media.base = s.media.base := by
  simp only [State.pinRetained, State.fmt_pinFrame, fmt_ite, ite_self, fmt_foldl, implies_true]

theorem State.fmt_pinArriving (s : State) (i : ℕ) (f : FrameSt) : (State.pinArriving s i f).media.base = s.media.base := by
  unfold State.pinArriving
  split <;> simp only [State.fmt_modWin, State.fmt_pinSpan, fmt_ite, ite_self]

theorem State.fmt_pinUnderWay (s : State) (i : ℕ) : (State.pinUnderWay s i).media.base = s.media.base := by
  simp only [State.pinUnderWay, State.fmt_pinArriving, fmt_foldl, implies_true]

theorem State.fmt_bump (s : State) (f : Fld) (n : ℕ) : (State.bump s f n).media.base = s.media.base := fmt_of_forget (State.forget_bump rfl ..)

theorem State.fmt_trigger (s : State) (src : ℕ) (tag : ℕ) (time : ℕ) (pre : ℕ) (post : ℕ) : (State.trigger s src tag time pre post).media.base = s.media.base := by
  unfold State.trigger
  dsimp only
  (repeat' split) <;> simp only [State.fmt_refuseTrigger, State.fmt_modWin, State.fmt_pulse, State.fmt_pinRetained, State.fmt_pinUnderWay, State.fmt_bump, State.fmt_trigErr, fmt_foldl, implies_true]

theorem State.fmt_settleTriggers (s : State) : (State.settleTriggers s).media.base = s.media.base := by
  simp only [State.settleTriggers, State.fmt_trigger, State.fmt_setTrig, fmt_foldl, implies_true]

theorem State.fmt_advance (s : State) : (State.advance s).media.base = s.media.base := fmt_of_forget (State.forget_advance rfl ..)

theorem State.fmt_enterSpan (s : State) (takeId : ℕ) (off : ℕ) (fs : List (ℕ × List ℕ)) : (State.enterSpan s takeId off fs).media.base = s.media.base := fmt_of_forget (State.forget_enterSpan rfl ..)

theorem State.fmt_modGroup (s : State) (n : ℕ) (f : Group → Group) : (State.modGroup s n f).media.base = s.media.base := rfl

theorem State.fmt_logFrees (s : State) : (State.logFrees s).media.base = s.media.base := by
  simp only [State.logFrees, State.fmt_journal, State.fmt_modGroup, fmt_foldl, implies_true]

theorem State.fmt_freeGroup (s : State) (gn : ℕ) : (State.freeGroup s gn).media.base = s.media.base := by
  simp only [State.freeGroup, State.fmt_setMedia, State.fmt_modGroup, State.fmt_logFrees, implies_true]

theorem State.fmt_freeEmpty (s : State) : (State.freeEmpty s).media.base = s.media.base := by
  simp only [State.freeEmpty, State.fmt_freeGroup, fmt_foldl, implies_true]

theorem State.fmt_startRelease (s : State) (nsid : ℕ) (seg : ℕ) : (State.startRelease s nsid seg).media.base = s.media.base := by
  simp only [State.startRelease, State.fmt_freeEmpty, State.fmt_setTake, State.fmt_journal]

theorem State.releaseTo_keeps {α : Type} (v : State → α) (nsid n : Nat) (h : ∀ t seg, v (State.startRelease t nsid seg) = v t) (k : Nat) (s : State) :
    v (State.releaseTo nsid n k s) = v s := by
  -- the recursion's own principle: the list of free segments is kept opaque, for the kernel would evaluate its length
  have hrec (P : (State → State) → Prop) (F : (t : ℕ) → Nat.below (motive := fun _ => State → State) t → State → State) (h0 : ∀ b, P (F 0 b))
      (hs : ∀ k (b : Nat.below (motive := fun _ => State → State) (k + 1)), P b.1 → P (F (k + 1) b)) (k : Nat) :
      P (Nat.brecOn (motive := fun _ => State → State) k F) := by
    induction k with
    | zero => exact h0 _
    | succ k ih => exact hs k _ ih
  revert s
  delta State.releaseTo State.releaseTo._f
  generalize State.freeSegs = g
  refine hrec (fun f => ∀ s, v (f s) = v s) _ ?_ ?_ k
  · exact fun b s => rfl
  · intro k b ih s
    dsimp only
    split
    · rfl
    · split
      · rfl
      · exact (ih _).trans (h ..)

theorem State.fmt_releaseTo (nsid n k : Nat) (s : State) : (State.releaseTo nsid n k s).media.base = s.media.base :=
  State.releaseTo_keeps (fun u : State => u.media.base) nsid n (fun t seg => State.fmt_startRelease t nsid seg) k s

theorem State.fmt_ringRoom (s : State) (c : Contract) (newLen : ℕ) : (State.ringRoom s c newLen).media.base = s.media.base := by
  simp only [State.ringRoom, State.fmt_releaseTo, fmt_ite, ite_self]

theorem State.fmt_mediaStall (s : State) : (State.mediaStall s).media.base = s.media.base := fmt_of_forget (State.forget_mediaStall rfl ..)

theorem State.fmt_mediaBytes (s : State) (n : ℕ) : (State.mediaBytes s n).media.base = s.media.base := fmt_of_forget (State.forget_mediaBytes rfl ..)

theorem State.fmt_setArray (s : State) (f : ArraySt → ArraySt) : (State.setArray s f).media.base = s.media.base := fmt_of_forget (State.forget_setArray rfl ..)

theorem State.fmt_issueStripe (s : State) (g : Group) (i : ℕ) : (State.issueStripe s g i).media.base = s.media.base := by
  simp only [State.issueStripe, State.fmt_setArray, State.fmt_modGroup, State.fmt_queueOp, fmt_foldl, implies_true]

theorem State.fmt_issueGroup (s : State) (g : Group) : (State.issueGroup s g).media.base = s.media.base := by
  simp only [State.issueGroup, State.fmt_issueStripe, fmt_ite, ite_self, fmt_foldl, implies_true]

theorem State.fmt_putIn (s : State) (gn : Nat) (u : DUnit) : (s.putIn gn u).media.base = s.media.base := by
  have hput (t : State) : (t.modGroup gn fun g => g.putUnit (s.stripeUnits g) { u with seq := s.nextSeq.1, logged := false }).media.base = t.media.base := rfl
  unfold State.putIn
  dsimp only
  split
  · rw [State.fmt_issueGroup, hput, State.fmt_nextSeq]
  · rw [hput, State.fmt_nextSeq]

theorem State.fmt_markRegions (s : State) (ms : List (ℕ × ℕ)) : (State.markRegions s ms).media.base = s.media.base := fmt_of_forget (State.forget_markRegions rfl ..)

theorem State.fmt_openGroup (s : State) (use : GroupUse) (nsid : Nat) {t : State} (e : s.openGroup use nsid = some t) : t.media.base = s.media.base := by
  unfold State.openGroup at e
  dsimp only at e
  split at e
  · cases e
  · split at e
    · cases e
    · cases e
      rw [State.fmt_markRegions, State.fmt_journal]
      split
      · rw [State.fmt_put]
        rfl
      · rfl

theorem State.fmt_padGroup (gn : ℕ) (x0 : ℕ) (x1 : State) : (State.padGroup gn x0 x1).media.base = x1.media.base := by
  fun_induction State.padGroup gn x0 x1 <;> simp only [State.fmt_putIn, *]

theorem State.fmt_padStripe (s : State) (use : GroupUse) (gn : ℕ) : (State.padStripe s use gn).media.base = s.media.base := by
  simp only [State.padStripe, State.fmt_padGroup, fmt_foldl, implies_true]

theorem State.fmt_roomFor (s : State) (use : GroupUse) (gn need : Nat) {r : Nat × State} (e : s.roomFor use gn need = some r) :
    r.2.media.base = s.media.base := by
  unfold State.roomFor at e
  split at e
  · cases e
    rfl
  · split at e
    · cases e
    next u hu =>
      obtain ⟨g, -, rfl⟩ := Option.map_eq_some_iff.mp e
      exact (State.fmt_openGroup _ _ _ hu).trans (State.fmt_padStripe ..)

theorem State.fmt_placeUnit (s : State) (use : GroupUse) (gn nsid kind logical flags : Nat) (data : Bytes) (cmd : Option CmdKey) {t : State}
    (e : s.placeUnit use gn nsid kind logical flags data cmd = some t) : t.media.base = s.media.base := by
  unfold State.placeUnit at e
  split at e
  · cases e
  · obtain ⟨r, hr, rfl⟩ := Option.map_eq_some_iff.mp e
    exact (State.fmt_putIn ..).trans (State.fmt_roomFor _ _ _ _ hr)

theorem State.fmt_placeTake (x0 : ℕ) (x1 : State) : (State.placeTake x0 x1).media.base = x1.media.base := by
  induction x0 generalizing x1 with
  | zero => rfl
  | succ n ih =>
    unfold State.placeTake
    split
    · rfl
    · dsimp only
      split
      · rfl
      · split
        · rfl
        · split
          · rfl
          next t ht =>
            refine (ih _).trans ((State.fmt_setImage _ _ fun _ => rfl).trans ?_)
            rw [State.fmt_mediaBytes, State.fmt_setTake]
            exact State.fmt_placeUnit _ _ _ _ _ _ _ _ _ ht

theorem State.fmt_placeAll (s : State) : (State.placeAll s).media.base = s.media.base := by
  simp only [State.placeAll, State.fmt_mediaStall, State.fmt_placeTake, fmt_ite, ite_self]

theorem State.fmt_appendRaw (s : State) (bs : Bytes) : (State.appendRaw s bs).media.base = s.media.base := by
  unfold State.appendRaw
  split <;> simp only [State.fmt_setTake, State.fmt_ringRoom, State.fmt_placeAll]

theorem State.fmt_appendIndex (s : State) (c : Contract) : (State.appendIndex s c).media.base = s.media.base := by
  simp only [State.appendIndex, State.fmt_setTake, State.fmt_enterSpan, State.fmt_appendRaw]

theorem State.fmt_placeTrailer (s : State) (c : Contract) (reason : ℕ) : (State.placeTrailer s c reason).media.base = s.media.base := by
  simp only [State.placeTrailer, State.fmt_appendIndex, State.fmt_setTake, State.fmt_appendRaw, State.fmt_padStripe]

theorem State.fmt_tryTrailer (s : State) : (State.tryTrailer s).media.base = s.media.base := by
  unfold State.tryTrailer
  split <;> simp only [State.fmt_placeTrailer, fmt_ite, ite_self]

theorem State.fmt_takeErr (s : State) (code : ℕ) : (State.takeErr s code).media.base = s.media.base := fmt_of_forget (State.forget_takeErr rfl ..)

theorem State.fmt_endOpenFrames (s : State) (status : ℕ) : (State.endOpenFrames s status).media.base = s.media.base := fmt_of_forget (State.forget_endOpenFrames rfl ..)

theorem State.fmt_closeTake (s : State) (reason : ℕ) (cause : ℕ) (frameStatus : ℕ) : (State.closeTake s reason cause frameStatus).media.base = s.media.base := by
  simp only [State.closeTake, State.fmt_puts, State.fmt_setTake, State.fmt_sealAll, State.fmt_settleTriggers, State.fmt_advance, State.fmt_tryTrailer, State.fmt_takeErr, State.fmt_endOpenFrames, fmt_ite, ite_self]

theorem State.fmt_closeSafe (s : State) : (State.closeSafe s).media.base = s.media.base := by
  simp only [State.closeSafe, State.fmt_refuseFrames, State.fmt_closeTake, State.fmt_endOpenFrames, fmt_ite, ite_self]

theorem State.fmt_record (s : State) (page : ℕ) (code : ℕ) (info : ℕ) (func : ℕ) (ext : ℕ) (last : ℕ) : (State.record s page code info func ext last).media.base = s.media.base := fmt_of_forget (State.forget_record rfl ..)

theorem State.fmt_enterSafe (s : State) (bit : ℕ) : (State.enterSafe s bit).media.base = s.media.base := by
  simp only [State.enterSafe, State.fmt_endPerturb, State.fmt_put, State.fmt_setMode, State.fmt_pulse, State.fmt_closeSafe, State.fmt_record, fmt_ite, ite_self]

theorem State.fmt_closeExhausted (s : State) (cause : ℕ) : (State.closeExhausted s cause).media.base = s.media.base := by
  unfold State.closeExhausted
  split <;> simp only [State.fmt_refuseFrames, State.fmt_closeTake, State.fmt_endOpenFrames, fmt_ite, ite_self]

theorem State.fmt_showTake (s : State) : (State.showTake s).media.base = s.media.base := fmt_of_forget (State.forget_showTake rfl ..)

theorem State.fmt_settle (s : State) : (State.settle s).media.base = s.media.base := by
  simp only [State.settle, State.fmt_tryTrailer, State.fmt_put, State.fmt_showTake, State.fmt_advance]

theorem State.fmt_exhaustSpares (s : State) : (State.exhaustSpares s).media.base = s.media.base := by
  simp only [State.exhaustSpares, State.fmt_puts, State.fmt_enterSafe, State.fmt_pulse, State.fmt_closeExhausted, State.fmt_record, State.fmt_settle]

theorem State.fmt_convertSpare (s : State) (x : ℕ) : (State.convertSpare s x).media.base = s.media.base := by
  simp only [State.convertSpare, State.fmt_puts, State.fmt_bump, State.fmt_pulse, State.fmt_journal, State.fmt_record]

theorem State.fmt_mediaErr (s : State) (code : ℕ) (gn : ℕ) : (State.mediaErr s code gn).media.base = s.media.base := fmt_of_forget (State.forget_mediaErr rfl ..)

theorem State.fmt_pageMap (s : State) : (State.pageMap s).media.base = s.media.base := by
  simp only [State.pageMap, State.fmt_setMedia, State.fmt_pulse, State.fmt_put, State.fmt_mediaErr, fmt_ite, ite_self, implies_true]

theorem State.fmt_dropPages (s : State) : (State.dropPages s).media.base = s.media.base := by
  simp only [State.dropPages, State.fmt_setMedia, State.fmt_queueOp, fmt_foldl, implies_true]

theorem State.fmt_writePointer (s : State) (num : ℕ) : (State.writePointer s num).media.base = s.media.base := fmt_of_forget (State.forget_writePointer rfl ..)

theorem State.fmt_takeCkpt (s : State) (c : Ckpt) : (State.takeCkpt s c).media.base = s.media.base := by
  simp only [State.takeCkpt, State.fmt_dropPages, State.fmt_setMedia, State.fmt_pulse, State.fmt_put, State.fmt_writePointer, implies_true]

theorem State.fmt_programUnit (s : State) (die : ℕ) (block : ℕ) (pu : ℕ) (ps : List (ℕ × Bytes × Bytes)) : (State.programUnit s die block pu ps).media.base = s.media.base := fmt_of_forget (State.forget_programUnit rfl ..)

theorem State.fmt_pageProgrammed (s : State) (n i d b u : Nat) : (s.pageProgrammed n i d b u).media.base = s.media.base := by
  unfold State.pageProgrammed
  split
  · rfl
  · rw [State.fmt_modPage, State.fmt_programUnit]

theorem State.fmt_sendOnfi (s : State) (d : ℕ) (cmds : List OnfiCmd) : (State.sendOnfi s d cmds).media.base = s.media.base := fmt_of_forget (State.forget_sendOnfi rfl ..)

theorem State.fmt_putPageNow (s : State) (kind seq : Nat) (data : Bytes) : (s.putPageNow kind seq data).2.media.base = s.media.base := by
  unfold State.putPageNow
  dsimp only
  refine (fmt_foldl _ _ (fun t d => ?_) _).trans (State.fmt_setMedia _ _ fun _ => rfl)
  split
  · rfl
  next b v hv =>
    rw [State.fmt_pageProgrammed, State.fmt_sendOnfi, State.fmt_modPage]
    exact State.fmt_takeUnit t _ _ hv

theorem State.fmt_setReshape (s : State) (r : ReshapeRec) : (State.setReshape s r).media.base = s.media.base := fmt_of_forget (State.forget_setReshape rfl ..)

theorem State.fmt_resizeSlc (s : State) : (State.resizeSlc s).media.base = s.media.base := rfl

end

end Sys2Proof.Machine
end

section
/-!
The last phases of the boot: self-tests, tables, the map, recovery and the readiness of the device (R559, R569, R570, R572).
-/

namespace Sys2Proof.Machine

open Sys2Proof.Laws

section
variable {s : State}

/-! ### Self-tests -/

/-- The units of a mask that a self-test found bad go, one by one. -/
theorem foldl_clearBad {n : Nat} {x : Fld} (hw : n ≤ x.w) (bad : Nat) (step : State → Nat → State)
    (hstep : ∀ (t : State) p, p < n → (step t p).get x = if (bitAt bad p && bitAt (t.get x) p) = true then setBit (t.get x) p false % 2 ^ x.w else t.get x)
    (l : List Nat) (hl : ∀ p ∈ l, p < n) (s : State) {i : Nat} (hi : i < n) :
    bitAt ((l.foldl step s).get x) i = (bitAt (s.get x) i && !(l.contains i && bitAt bad i)) := by
  induction l generalizing s with
  | nil => simp
  | cons p l ih =>
    have hone : bitAt ((step s p).get x) i = (bitAt (s.get x) i && !(i == p && bitAt bad i)) := by
      rw [hstep s p (hl p List.mem_cons_self)]
      by_cases hip : i = p
      · subst hip
        split
        next h => rw [bitAt_mod_two_pow _ (by omega), bitAt_setBit_same, (Bool.and_eq_true_iff.mp h).1]; simp
        next h => cases hb : bitAt bad i <;> cases hv : bitAt (s.get x) i <;> simp_all
      · rw [beq_false_of_ne hip, Bool.false_and, Bool.not_false, Bool.and_true]
        split
        · rw [bitAt_mod_two_pow _ (by omega), bitAt_setBit_other _ _ hip]
        · rfl
    rw [List.foldl_cons, ih (fun q hq => hl q (List.mem_cons_of_mem p hq)), hone, List.contains_cons]
    cases bitAt (s.get x) i <;> cases bitAt bad i <;> cases i == p <;> cases l.contains i <;> rfl

theorem State.retirePipes_live (s : State) (bad : Nat) {i : Nat} (hi : i < 6) :
    bitAt ((s.retirePipes bad).get R.CIPHER.PIPES_LIVE) i = (bitAt (s.get R.CIPHER.PIPES_LIVE) i && !bitAt bad i) := by
  have hin : (List.range 6).contains i = true := List.contains_iff_mem.mpr (List.mem_range.mpr hi)
  refine (foldl_clearBad (n := 6) (x := R.CIPHER.PIPES_LIVE) (le_refl 6) bad _ (fun t p _ => ?_) (List.range 6) (fun p hp => List.mem_range.mp hp) s hi).trans ?_
  · split
    · rw [State.record_get_beyond _ _ _ _ _ _ _ rfl, State.pulse_get_beyond _ _ _ rfl, State.get_put_same]
    · rfl
  · rw [hin, Bool.true_and]

theorem State.retireUnits_live (s : State) (bad : Nat) {i : Nat} (hi : i < 64) :
    bitAt ((s.retireUnits bad).get R.DIGEST.UNITS_LIVE_MASK) i = (bitAt (s.get R.DIGEST.UNITS_LIVE_MASK) i && !bitAt bad i) := by
  have hin : (List.range 64).contains i = true := List.contains_iff_mem.mpr (List.mem_range.mpr hi)
  refine (foldl_clearBad (n := 64) (x := R.DIGEST.UNITS_LIVE_MASK) (le_refl 64) bad _ (fun t p _ => ?_) (List.range 64) (fun p hp => List.mem_range.mp hp) s hi).trans ?_
  · split
    · rw [State.record_get_beyond _ _ _ _ _ _ _ rfl, State.pulse_get_beyond _ _ _ rfl, State.get_put_same]
    · rfl
  · rw [hin, Bool.true_and]

theorem State.retireUnits_pipes (s : State) (bad : Nat) : (s.retireUnits bad).get R.CIPHER.PIPES_LIVE = s.get R.CIPHER.PIPES_LIVE :=
  foldl_keeps (fun t : State => t.get R.CIPHER.PIPES_LIVE) (fun t u => by
    split
    · rw [State.record_get_beyond _ _ _ _ _ _ _ rfl, State.pulse_get_beyond _ _ _ rfl, State.get_put_other _ _ (by decide)]
    · rfl) _ _

theorem State.retirePipes_units (s : State) (bad : Nat) : (s.retirePipes bad).get R.DIGEST.UNITS_LIVE_MASK = s.get R.DIGEST.UNITS_LIVE_MASK :=
  foldl_keeps (fun t : State => t.get R.DIGEST.UNITS_LIVE_MASK) (fun t u => by
    split
    · rw [State.record_get_beyond _ _ _ _ _ _ _ rfl, State.pulse_get_beyond _ _ _ rfl, State.get_put_other _ _ (by decide)]
    · rfl) _ _

/-- Entering SAFE sets its cause's bit of SAFE_CAUSE, whatever the mode, and nothing else of it. -/
theorem State.enterSafe_get_cause (s : State) (b : Nat) :
    (s.enterSafe b).get R.PWR.SAFE_CAUSE_CAUSE = setBit (s.get R.PWR.SAFE_CAUSE_CAUSE) b true % 2 ^ R.PWR.SAFE_CAUSE_CAUSE.w := by
  rw [← State.get_put_same s]
  unfold State.enterSafe
  dsimp only
  generalize s.put R.PWR.SAFE_CAUSE_CAUSE (setBit (s.get R.PWR.SAFE_CAUSE_CAUSE) b true) = u
  have hclose : (if 2 ≤ b then u.closeSafe else u).get R.PWR.SAFE_CAUSE_CAUSE = u.get R.PWR.SAFE_CAUSE_CAUSE := by
    split
    · exact State.steady_closeSafe (q := safeCause) u
    · rfl
  generalize (if 2 ≤ b then u.closeSafe else u) = v at hclose ⊢
  split
  · rfl
  · split
    · exact hclose
    · rw [State.record_get_beyond _ _ _ _ _ _ _ rfl, State.pulse_get_beyond _ _ _ rfl,
        get_of_steady (x := R.PWR.SAFE_CAUSE_CAUSE) rfl (State.steady_endPerturb (q := safeCause) _ _), State.setMode_get_power _ _ (by decide) (by decide), hclose]

theorem State.enterSafe_cause (s : State) {b : Nat} (hb : b < 8) : bitAt ((s.enterSafe b).get R.PWR.SAFE_CAUSE_CAUSE) b = true := by
  rw [State.enterSafe_get_cause, bitAt_mod_two_pow (w := R.PWR.SAFE_CAUSE_CAUSE.w) _ hb, bitAt_setBit_same]

theorem bootSelfTestDone_spec (pipes : BitVec 6) (units : BitVec 64) (hb : s.pwr.bootPhase = 4) :
    ∃ t : State, exec (.bootSelfTestDone pipes units) s = .next t ∧ t.pwr.bootPhase = 5
      ∧ (∀ p < 6, bitAt (t.get R.CIPHER.PIPES_LIVE) p = (bitAt (s.get R.CIPHER.PIPES_LIVE) p && !bitAt pipes.toNat p))
      ∧ (∀ u < 64, bitAt (t.get R.DIGEST.UNITS_LIVE_MASK) u = (bitAt (s.get R.DIGEST.UNITS_LIVE_MASK) u && !bitAt units.toNat u))
      ∧ (t.livePipes < 5 → bitAt (t.get R.PWR.SAFE_CAUSE_CAUSE) 3 = true) := by
  have heq : exec (.bootSelfTestDone pipes units) s = execBootSelfTestDone pipes units s := rfl
  rw [heq, execBootSelfTestDone, if_neg (not_not_intro hb)]
  dsimp only
  have hpipes (p : Nat) (hp : p < 6) : bitAt (((s.retirePipes pipes.toNat).retireUnits units.toNat).get R.CIPHER.PIPES_LIVE) p
      = (bitAt (s.get R.CIPHER.PIPES_LIVE) p && !bitAt pipes.toNat p) := by rw [State.retireUnits_pipes, State.retirePipes_live _ _ hp]
  have hunits (u : Nat) (hu : u < 64) : bitAt (((s.retirePipes pipes.toNat).retireUnits units.toNat).get R.DIGEST.UNITS_LIVE_MASK) u
      = (bitAt (s.get R.DIGEST.UNITS_LIVE_MASK) u && !bitAt units.toNat u) := by rw [State.retireUnits_live _ _ hu, State.retirePipes_units]
  generalize (s.retirePipes pipes.toNat).retireUnits units.toNat = v at hpipes hunits ⊢
  have hsafe {q : SteadyFld} (hq : q.still = true) : q.get (if v.livePipes < 5 then v.enterSafe 3 else v) = q.get v := by
    split
    · exact State.steady_enterSafe hq ..
    · rfl
  have hcause : v.livePipes < 5 → bitAt ((if v.livePipes < 5 then v.enterSafe 3 else v).get R.PWR.SAFE_CAUSE_CAUSE) 3 = true := fun h => by
    rw [if_pos h]
    exact v.enterSafe_cause (by decide)
  generalize (if v.livePipes < 5 then v.enterSafe 3 else v) = w at hsafe hcause ⊢
  have hderive {q : SteadyFld} : q.get (if w.mayDerive then w.derive false else w) = q.get w := by
    split
    · exact State.steady_derive ..
    · rfl
  generalize (if w.mayDerive = true then w.derive false else w) = t at hderive ⊢
  have hp : t.get R.CIPHER.PIPES_LIVE = v.get R.CIPHER.PIPES_LIVE :=
    (get_of_steady (x := R.CIPHER.PIPES_LIVE) rfl hderive).trans (get_of_steady (x := R.CIPHER.PIPES_LIVE) rfl (hsafe rfl))
  have hu : t.get R.DIGEST.UNITS_LIVE_MASK = v.get R.DIGEST.UNITS_LIVE_MASK :=
    (get_of_steady (x := R.DIGEST.UNITS_LIVE_MASK) rfl hderive).trans (get_of_steady (x := R.DIGEST.UNITS_LIVE_MASK) rfl (hsafe rfl))
  refine ⟨_, rfl, rfl, fun p h => ?_, fun u h => ?_, fun h => ?_⟩
  · rw [State.setPwr_get, hp, hpipes p h]
  · rw [State.setPwr_get, hu, hunits u h]
  · have hlive : (t.setPwr fun p => { p with bootPhase := 5 }).livePipes = v.livePipes := by
      rw [State.livePipes, State.setPwr_get, hp, State.livePipes]
    rw [hlive] at h
    rw [State.setPwr_get, get_of_steady (x := R.PWR.SAFE_CAUSE_CAUSE) rfl hderive]
    exact hcause h

/-! ### Tables and the map -/

theorem bootTablesDone_spec (hb : s.pwr.bootPhase = 5) : ∃ t : State, exec .bootTablesDone s = .next t ∧ t.pwr.bootPhase = 6 := by
  have heq : exec .bootTablesDone s = execBootTablesDone s := rfl
  rw [heq, execBootTablesDone, if_neg (not_not_intro hb)]
  dsimp only
  exact ⟨_, rfl, congrArg PwrSt.bootPhase (keeps_pwr (State.forget_portFnsBack (T := 0x489200020) rfl _) rfl)⟩

/-- The map paged, where DRAM is too small for it. -/
def State.mapPaged (s : State) : State := if s.blockLimit < s.blockGB then s.pageMap else s

/-- What the boot does with the map once it is loaded or made. -/
def State.mapSettled (s : State) : State := s.chargeSpares.checkSpares.resizeSlc.bootPatrol.mapPaged.showPool

theorem State.fmt_checkSpares (s : State) : s.checkSpares.media.base = s.media.base := by
  unfold State.checkSpares
  dsimp only
  split
  · rfl
  · split
    · exact State.fmt_exhaustSpares ..
    · have hconvert := s.fmt_convertSpare s.spareWanted
      generalize s.convertSpare s.spareWanted = t at hconvert ⊢
      split
      · exact (State.fmt_exhaustSpares ..).trans hconvert
      · exact hconvert

theorem State.fmt_bootPatrol (s : State) : s.bootPatrol.media.base = s.media.base := by
  unfold State.bootPatrol
  generalize 30 * 86400 * 32768 = n
  exact State.fmt_setMedia _ _ fun _ => rfl

theorem State.fmt_mapPaged (s : State) : s.mapPaged.media.base = s.media.base := by
  unfold State.mapPaged
  split
  · exact State.fmt_pageMap s
  · rfl

theorem State.fmt_mapSettled (s : State) : s.mapSettled.media.base = s.media.base := by
  have hspares (t : State) : t.chargeSpares.media.base = t.media.base := fmt_of_forget (State.forget_put rfl ..)
  have hpool (t : State) : t.showPool.media.base = t.media.base := fmt_of_forget (State.forget_showPool rfl t)
  rw [State.mapSettled, hpool, State.fmt_mapPaged, State.fmt_bootPatrol, State.fmt_resizeSlc, State.fmt_checkSpares, hspares]

theorem State.mapSettled_formatted (s : State) : s.mapSettled.media.formatted = s.media.formatted := MediaSt.formatted_of_base s.fmt_mapSettled

/-- A format leaves the device formatted and no unit mapped (R245). -/
theorem State.format_base (s : State) : s.format.media.base = (true, []) := by
  have hcap (t : State) : t.formatCap.2.media.base = t.media.base := by
    unfold State.formatCap
    split <;> rfl
  have hputs (t : State) (l : List (Fld × Nat)) : (t.puts l).media.base = t.media.base := fmt_of_forget (State.forget_puts rfl ..)
  have hjournal (t : State) (l : List Nat) : (t.setJournal l).media.base = t.media.base := hputs ..
  have hspares (t : State) : t.chargeSpares.media.base = t.media.base := fmt_of_forget (State.forget_put rfl ..)
  have hhead (t : State) : t.writeBitmapHeader.media.base = t.media.base := rfl
  have hnand (t : State) (f : NandSt → NandSt) : (t.setNand f).media.base = t.media.base := rfl
  have hreshape (t : State) (r : ReshapeRec) : (t.setReshape r).media.base = t.media.base := rfl
  have htally (t : State) (f : TallySt → TallySt) : (t.setTally f).media.base = t.media.base := rfl
  have harray (t : State) (f : ArraySt → ArraySt) : (t.setArray f).media.base = t.media.base := rfl
  unfold State.format
  dsimp only
  rw [State.fmt_resizeSlc, hhead, hjournal, hspares, hputs, hcap, hputs, hnand, hreshape, htally, harray, State.setMedia_media]
  rfl

theorem State.fmt_installCkpt (s : State) : s.installCkpt.media.base = s.media.base := by
  unfold State.installCkpt
  exact (State.fmt_takeCkpt ..).trans (State.fmt_putPageNow ..)

theorem State.firstFormat_formatted (hi : s.trust.instGen ≠ none) (hc : bitAt (s.get R.PWR.SAFE_CAUSE_CAUSE) 6 = false) (hd : s.liveDies ≠ []) :
    s.firstFormat.media.formatted = true := by
  have hsome : s.trust.instGen.isSome = true := Option.isSome_iff_ne_none.mpr hi
  have hlive : s.liveDies.isEmpty = false := List.isEmpty_eq_false_iff.mpr hd
  unfold State.firstFormat
  rw [if_pos (by rw [hsome, hc, hlive]; rfl)]
  exact (MediaSt.of_base_eq ((State.fmt_installCkpt _).trans (State.format_base _))).1

theorem State.firstFormat_none (hi : s.trust.instGen = none) : s.firstFormat = s := by
  unfold State.firstFormat
  rw [if_neg (by rw [hi]; simp)]

theorem bootMapLoaded_spec (hb : s.pwr.bootPhase = 6) :
    ∃ t : State, exec .bootMapLoaded s = .next t ∧ t.pwr.bootPhase = 7
      ∧ (s.bootCkpt = none → s.trust.instGen ≠ none → bitAt (s.get R.PWR.SAFE_CAUSE_CAUSE) 6 = false → s.liveDies ≠ [] → t.media.formatted = true)
      ∧ (s.bootCkpt = none → s.trust.instGen = none → t.media.formatted = s.media.formatted) := by
  have heq : exec .bootMapLoaded s = .next ((match s.bootCkpt with
      | some (c, scan) => if s.media.formatted then (((s.loadMap c scan).restoreLost c).restoreSafe c).restoreRing c else s.firstFormat
      | none => s.firstFormat).mapSettled.setPwr fun p => { p with bootPhase := 7 }) := by
    have hexec : exec .bootMapLoaded s = execBootMapLoaded s := rfl
    rw [hexec, execBootMapLoaded, if_neg (not_not_intro hb)]
    unfold State.mapSettled State.mapPaged
    rfl
  refine ⟨_, heq, rfl, fun hn hi hc hd => ?_, fun hn hi => ?_⟩
  · rw [State.setPwr_media, State.mapSettled_formatted]
    simp only [hn]
    exact State.firstFormat_formatted hi hc hd
  · rw [State.setPwr_media, State.mapSettled_formatted]
    simp only [hn]
    rw [State.firstFormat_none hi]

/-! ### Recovery -/

/-- The boot's phase, which no block's end of work touches. -/
def phaseFld : SteadyFld := .power (·.bootPhase) fun _ _ _ _ => rfl

theorem State.startResync_case (s : State) (c : Nat × List (Nat × Nat) × List (Nat × Nat)) (hc : c.1 < 4) : (s.startResync c).get R.ARRAY.ARRAY_STATUS_RESYNC_CASE = c.1 := by
  unfold State.startResync
  dsimp only
  split
  · rw [State.get_put_same]
    exact Nat.mod_eq_of_lt hc
  · rw [State.record_get_beyond _ _ _ _ _ _ _ rfl, State.get_put_same]
    exact Nat.mod_eq_of_lt hc

/-- The losses found at the boot, and what they end. -/
def State.bootLosses (s : State) : State :=
  let bad := s.liveDies.filter s.wrongDie
  let t := s.setPwr fun p => { p with bootPhase := 8 }
  ((((if bad.isEmpty then t else (t.loseDies bad).2).closeHit t.array.lost).followChannels).holdupShort.cutMaps).owedTrails

theorem State.steady_bootLosses {q : SteadyFld} (hq : q.still = true) (s : State) : q.get s.bootLosses = q.get (s.setPwr fun p => { p with bootPhase := 8 }) := by
  unfold State.bootLosses
  dsimp only
  rw [State.steady_owedTrails, State.steady_cutMaps, State.steady_holdupShort, State.steady_followChannels hq, State.steady_closeHit]
  split
  · rfl
  · exact State.steady_loseDies hq ..

theorem bootRecoveryDone_spec (hb : s.pwr.bootPhase = 7) :
    ∃ t : State, exec .bootRecoveryDone s = .next t ∧ t.pwr.bootPhase = 8
      ∧ (s.media.formatted = true → s.pwr.cleanStop = false → s.newestSnap = none →
        t.get R.ARRAY.ARRAY_STATUS_RESYNC_CASE = (if s.headerReads = true then 2 else 3)) := by
  have heq : exec .bootRecoveryDone s
      = .next (if !s.media.formatted then s else s.startResync (if s.pwr.cleanStop then s.owedResync else s.chooseResync)).bootLosses := by
    have hexec : exec .bootRecoveryDone s = execBootRecoveryDone s := rfl
    rw [hexec, execBootRecoveryDone, if_neg (not_not_intro hb)]
    unfold State.bootLosses
    rfl
  refine ⟨_, heq, State.steady_bootLosses (q := phaseFld) rfl _, fun hf hc hn => ?_⟩
  rw [get_of_steady (x := R.ARRAY.ARRAY_STATUS_RESYNC_CASE) rfl (State.steady_bootLosses rfl _), State.setPwr_get, hf, hc]
  have hchoose : s.chooseResync.1 = if s.headerReads = true then 2 else 3 := by
    unfold State.chooseResync
    simp only [hn]
    split <;> rfl
  simp only [Bool.not_true, Bool.false_eq_true, if_false]
  rw [State.startResync_case _ _ (by rw [hchoose]; split <;> decide), hchoose]

/-! ### Readiness -/

/-- A word with a bit set there stays so. -/
theorem foldl_setBit_grows (l : List (Nat × Bool)) (v : Nat) {i : Nat} (h : bitAt v i = true ∨ (i, true) ∈ l) :
    bitAt (l.foldl (fun v x => if x.2 then setBit v x.1 true else v) v) i = true := by
  induction l generalizing v with
  | nil => exact h.resolve_right List.not_mem_nil
  | cons x l ih =>
    refine ih _ ?_
    dsimp only
    by_cases hx : x = (i, true)
    · subst hx
      exact .inl (bitAt_setBit_same ..)
    · refine h.imp (fun hv => ?_) fun hm => (List.mem_cons.mp hm).resolve_left (Ne.symm hx)
      split
      · by_cases hi : i = x.1
        · rw [← hi, bitAt_setBit_same]
        · rw [bitAt_setBit_other _ _ hi, hv]
      · exact hv

theorem exists_bitAt {v w : Nat} (h0 : v ≠ 0) (hw : v < 2 ^ w) : ∃ i < w, bitAt v i = true := by
  by_contra hno
  refine h0 (Nat.eq_of_testBit_eq fun i => ?_)
  rw [Nat.zero_testBit, ← bitAt_eq_testBit]
  by_cases hi : i < w
  · exact Bool.eq_false_iff.mpr fun hb => hno ⟨i, hi, hb⟩
  · rw [bitAt_eq_testBit]
    exact Nat.testBit_lt_two_pow (Nat.lt_of_lt_of_le hw (Nat.pow_le_pow_right (by decide) (by omega)))

theorem ne_zero_of_bitAt {v i : Nat} (h : bitAt v i = true) : v ≠ 0 := fun e => by
  rw [e, bitAt_eq_testBit, Nat.zero_testBit] at h
  cases h

theorem State.safeAtReady_get (s : State) {x : Fld} (hx : x ≠ R.PWR.SAFE_CAUSE_CAUSE) : s.safeAtReady.get x = s.get x := State.get_put_other _ _ hx

theorem State.safeAtReady_clear (hc : s.get R.PWR.SAFE_CAUSE_CAUSE = 0) (hl : 0 < s.liveLanes) (hp : 5 ≤ s.livePipes) (hs : 2 ≤ s.liveSystemCores) (hd : 2 ≤ s.liveDram) :
    s.safeAtReady.get R.PWR.SAFE_CAUSE_CAUSE = 0 := by
  rw [State.safeAtReady, State.get_put_same, hc]
  rw [decide_eq_false (Nat.pos_iff_ne_zero.mp hl), decide_eq_false (Nat.not_lt.mpr hp), decide_eq_false (Nat.not_lt.mpr hs), decide_eq_false (Nat.not_lt.mpr hd)]
  rfl

theorem State.safeAtReady_hit (hw : s.get R.PWR.SAFE_CAUSE_CAUSE < 256)
    (h : s.get R.PWR.SAFE_CAUSE_CAUSE ≠ 0 ∨ s.liveLanes = 0 ∨ s.livePipes < 5 ∨ s.liveSystemCores < 2 ∨ s.liveDram < 2) :
    s.safeAtReady.get R.PWR.SAFE_CAUSE_CAUSE ≠ 0 := by
  have hbit {i : Nat} (hi : i < 8) (hb : bitAt (s.get R.PWR.SAFE_CAUSE_CAUSE) i = true ∨ (i, true) ∈ [(2, decide (s.liveLanes = 0)), (3, decide (s.livePipes < 5)),
      (4, decide (s.liveSystemCores < 2)), (5, decide (s.liveDram < 2))]) : s.safeAtReady.get R.PWR.SAFE_CAUSE_CAUSE ≠ 0 := by
    refine ne_zero_of_bitAt (i := i) ?_
    rw [State.safeAtReady, State.get_put_same, bitAt_mod_two_pow (w := R.PWR.SAFE_CAUSE_CAUSE.w) _ hi]
    exact foldl_setBit_grows _ _ hb
  rcases h with h | h | h | h | h
  · obtain ⟨i, hi, hb⟩ := exists_bitAt (w := 8) h hw
    exact hbit hi (.inl hb)
  · exact hbit (i := 2) (by decide) (.inr (by simp [h]))
  · exact hbit (i := 3) (by decide) (.inr (by simp [h]))
  · exact hbit (i := 4) (by decide) (.inr (by simp [h]))
  · exact hbit (i := 5) (by decide) (.inr (by simp [h]))

/-- The state of a boot that is over, before its mode. -/
def State.bootOver (s : State) : State :=
  (((s.safeAtReady.put R.PWR.BOOT_READY_MS (min 65535 ((s.time - s.pwr.bootAt) / 1000000))).setPwr fun p =>
    { p with bootPhase := 0, cleanStop := false, pfBegun := false, thermal := false, kickAt := s.time }).setGate fun g => { g with mayTrain := true }).bootSpans

theorem State.bootOver_kept (s : State) : s.bootOver.pwr.bootPhase = 0 ∧ s.bootOver.pwr.cleanStop = false ∧ s.bootOver.gate.mayTrain = true := by
  unfold State.bootOver
  rw [keeps_pwr (State.forget_bootSpans (T := 0x4a0120420) rfl _) rfl, keeps_gate (State.forget_bootSpans (T := 0x4a0120420) rfl _) rfl]
  exact ⟨rfl, rfl, rfl⟩

theorem State.bootOver_get (s : State) {x : Fld} (hx : steady x = true) (hn : x ≠ R.PWR.BOOT_READY_MS) : s.bootOver.get x = s.safeAtReady.get x := by
  rw [State.bootOver, get_of_steady hx (State.steady_bootSpans ..)]
  exact State.get_put_other _ _ hn

theorem exec_bootReady (hb : s.pwr.bootPhase = 8) : exec .bootReady s
    = if s.bootOver.get R.PWR.SAFE_CAUSE_CAUSE = 0 then .next (s.bootOver.setMode 3)
      else .next (((s.bootOver.setMode 7).pulse 2 Ev.PWR.SAFE_ENTERED).record 2 E.PWR_SAFE_ENTERED (7 + 2 * 256)) := by
  have hexec : exec .bootReady s = execBootReady s := rfl
  rw [hexec, execBootReady, if_neg (not_not_intro hb)]
  unfold State.bootOver
  rfl

theorem State.setMode_kept (s : State) (m : Nat) : (s.setMode m).pwr.bootPhase = s.pwr.bootPhase ∧ (s.setMode m).pwr.cleanStop = s.pwr.cleanStop ∧ (s.setMode m).gate = s.gate := by
  obtain ⟨a, i, j, h⟩ := s.setMode_pwr m
  rw [h, keeps_gate (State.forget_setMode (T := 0x490000020) rfl s m) rfl]
  exact ⟨rfl, rfl, rfl⟩

theorem State.setMode_valid (s : State) (m : Nat) : (s.setMode m).get (H.VALID 2) = s.get (H.VALID 2) := by
  unfold State.setMode
  dsimp only
  split
  · rfl
  · rw [State.pulse_get_of_place _ _ _ rfl rfl, State.puts_cons, State.puts_cons, State.puts_nil, State.get_put_of_place _ _ rfl, State.get_put_of_place _ _ rfl]
    rfl

theorem bootReady_spec (hb : s.pwr.bootPhase = 8) :
    ∃ t : State, exec .bootReady s = .next t ∧ t.pwr.bootPhase = 0 ∧ t.gate.mayTrain = true ∧ t.pwr.cleanStop = false
      ∧ (s.get R.PWR.SAFE_CAUSE_CAUSE = 0 → 0 < s.liveLanes → 5 ≤ s.livePipes → 2 ≤ s.liveSystemCores → 2 ≤ s.liveDram → t.mode = 3)
      ∧ (s.get R.PWR.SAFE_CAUSE_CAUSE < 256 → s.get R.PWR.SAFE_CAUSE_CAUSE ≠ 0 ∨ s.liveLanes = 0 ∨ s.livePipes < 5 ∨ s.liveSystemCores < 2 ∨ s.liveDram < 2 →
        t.mode = 7 ∧ (s.get (H.VALID 2) = 0 → t.get (H.CODE 2) = E.PWR_SAFE_ENTERED)) := by
  obtain ⟨hphase, hclean, htrain⟩ := s.bootOver_kept
  have hcause : s.bootOver.get R.PWR.SAFE_CAUSE_CAUSE = s.safeAtReady.get R.PWR.SAFE_CAUSE_CAUSE := s.bootOver_get rfl (by decide)
  have hvalid : s.bootOver.get (H.VALID 2) = s.get (H.VALID 2) := (s.bootOver_get rfl (by decide)).trans (s.safeAtReady_get (by decide))
  rw [exec_bootReady hb]
  generalize s.bootOver = u at *
  by_cases hz : u.get R.PWR.SAFE_CAUSE_CAUSE = 0
  · rw [if_pos hz]
    obtain ⟨h1, h2, h3⟩ := u.setMode_kept 3
    refine ⟨_, rfl, h1.trans hphase, (congrArg GateSt.mayTrain h3).trans htrain, h2.trans hclean, fun _ _ _ _ _ => u.setMode_mode (by decide), fun hw h => ?_⟩
    exact absurd (hcause.symm.trans hz) (State.safeAtReady_hit hw h)
  · rw [if_neg hz]
    obtain ⟨h1, h2, h3⟩ := u.setMode_kept 7
    have hmode := u.setMode_mode (m := 7) (by decide)
    have hfirst := (u.setMode_valid 7).trans hvalid
    generalize u.setMode 7 = v at *
    refine ⟨_, rfl, ?_, ?_, ?_, fun hc hl hp hs hd => absurd (hcause.trans (State.safeAtReady_clear hc hl hp hs hd)) hz, fun _ _ => ⟨?_, fun hv => ?_⟩⟩
    · rw [State.record_pwr, State.pulse_pwr, h1, hphase]
    · rw [State.record_gate, State.pulse_gate, h3, htrain]
    · rw [State.record_pwr, State.pulse_pwr, h2, hclean]
    · rw [State.mode, State.record_get_beyond _ _ _ _ _ _ _ rfl, State.pulse_get_beyond _ _ _ rfl]
      exact hmode
    · exact State.record_get_CODE ((State.pulse_get_of_place _ _ _ rfl rfl).trans (hfirst.trans hv)) ..

end

end Sys2Proof.Machine
end

section
namespace Sys2Proof.Machine

/-- Settles O56: the power-failure sequence and what it closes, the loss of power and every reset as what each leaves, the clock and temperature by their
registers, and the boot phase by phase. -/
theorem powerLossResetsAndBoot : Obligations.PowerLossResetsAndBoot :=
  ⟨fun _ _ hn => if_pos (Or.inl hn),
    fun _ _ hn hd hp => pwrFailN_spec hn hd hp,
    fun _ _ hc hl => powerFailure_spec hc hl,
    fun _ hp => powerfailDrainEnd_spec hp,
    fun _ _ hc hp hf => powerfailFlushDone_spec hc hp hf,
    fun _ _ hc hp hd => powerfailCloseDone_spec hc hp hd,
    fun _ hf => lastPhases_unformatted hf,
    fun s clean off _ => enterFold_spec s clean off,
    fun _ hm => powerCut_spec hm,
    warmReset_spec,
    coldReset_spec,
    exec_coldReset_spec,
    fun _ hm hr hh => pwrWatchdog_resets hm hr hh,
    fun _ _ h => pwrWatchdog_waits h,
    fun _ hm => clkLockLost_spec hm,
    fun _ _ he hf hd ht => rtcAlarmFire_spec he hf hd ht,
    fun _ ho hd => rtcOscFail_spec ho hd,
    fun _ _ hp hr ho => rtcLoad_spec hp hr ho,
    fun _ tj sensor hm => thermalSample_spec tj sensor hm,
    fun _ _ hh hm hb hp => devThermalShutdown_spec hh hm hb hp,
    fun _ _ ha hm => serveActivityExpiry_spec ha hm,
    fun _ hz hb hl => pllLocked_spec hz hb hl,
    fun _ hb hl ht => tryPhase2_spec hb hl ht,
    fun _ _ hb hh hc => ⟨fun hr => bootTrainingDone_unsupported hb hh hc hr, fun hr => by
      obtain ⟨t, heq, hphase, hsources, hstate⟩ := bootTrainingDone_supported hb hh hc hr
      exact ⟨t, heq, hphase, hsources, fun c hc _ h => hstate c hc h⟩⟩,
    fun _ _ _ _ _ _ _ hb hh hs => ⟨fun hv hf => bootImageCheck_accepts hb hh hs hv hf, fun hv => bootImageCheck_falls_back hb hh hs hv⟩,
    fun _ _ _ hk hl => verifyImage_iff_mac hk hl,
    holdBoot_spec,
    acceptImage_spec,
    fun _ _ hp hr hh hm => go_spec hp hr hh hm,
    fun _ pipes units hb => bootSelfTestDone_spec pipes units hb,
    fun _ hb => bootTablesDone_spec hb,
    fun _ hb => bootMapLoaded_spec hb,
    fun _ hb => bootRecoveryDone_spec hb,
    fun _ hb => bootReady_spec hb⟩

end Sys2Proof.Machine
end

section
/-!
A format of a namespace whose key record has the number that the next record takes: the new key's record is dropped with the old one (R24, R424).
-/

namespace Sys2Proof.Machine

open Sys2Proof.Laws

section
variable {s : State}

theorem State.writeKeyPage_records (s : State) (n : Nat) : (s.writeKeyPage n).keys.records = s.keys.records := by
  unfold State.writeKeyPage
  split
  next t ht =>
    have hframe : forget 0x8000E0020 ((t.padStripe .metadata 0)) = forget 0x8000E0020 s :=
      (State.forget_padStripe rfl ..).trans (State.forget_placeUnit rfl _ _ _ _ _ _ _ _ _ ht)
    have hkeys : (t.padStripe .metadata 0).keys.records = s.keys.records := congrArg KeySt.records (keeps_keys hframe rfl)
    exact hkeys
  · rfl

theorem State.clearSlots_records (l : List KeySlot) (s : State) : (l.foldl (fun t k => t.clearSlot k.slot) s).keys.records = s.keys.records :=
  foldl_keeps (fun t : State => t.keys.records) (fun t k => by
    unfold State.clearSlot
    have hshow (u : State) : u.showKeys.keys = u.keys := keeps_keys (State.forget_puts (T := 0x20) rfl ..) rfl
    rw [hshow]
    rfl) _ _

/-- A dropped record leaves the others. -/
theorem State.dropKey_records (s : State) (rec : Nat) : (s.dropKey rec).keys.records = s.keys.records.filter (·.num != rec) := by
  unfold State.dropKey
  dsimp only
  have hslots := State.clearSlots_records (s.keys.slots.filter fun k => k.ref == rec) s
  generalize (s.keys.slots.filter fun k => k.ref == rec).foldl (fun t k => t.clearSlot k.slot) s = t at hslots ⊢
  split
  · rw [State.writeKeyPage_records, State.setKeys_keys]
    exact congrArg (List.filter (·.num != rec)) hslots
  next h =>
    rw [hslots]
    refine (List.filter_eq_self.mpr fun r hr => ?_).symm
    exact bne_iff_ne.mpr fun e => h (List.any_eq_true.mpr ⟨r, hr, beq_iff_eq.mpr e⟩)

/-- A new key's record is the next one, with the SEQ that comes next. -/
theorem State.newMediaKey_records {kek : Bytes} {slot : Nat} (hk : s.keys.kekMedia = some kek) (hs : s.systemSlot = some slot) (nsid : Nat) :
    (s.newMediaKey nsid).1 = some (s.keys.nextRec, slot)
      ∧ ∃ w, (s.newMediaKey nsid).2.keys.records = s.keys.records ++ [⟨s.keys.nextRec, s.media.seq, nsid, w⟩] := by
  unfold State.newMediaKey
  simp only [hk, hs]
  refine ⟨True.intro, aesWrap kek (s.freshBytes 64).1, ?_⟩
  have hload (t : State) (k : KeySlot) : (t.loadSlot k).keys.records = t.keys.records := by
    unfold State.loadSlot
    have hshow (u : State) : u.showKeys.keys = u.keys := keeps_keys (State.forget_puts (T := 0x20) rfl ..) rfl
    rw [hshow]
    rfl
  rw [hload, State.writeKeyPage_records]
  rfl

/-- What a format does to the namespaces and to the key records. -/
theorem State.formatNs_kept {c : Cmd} {n : Ns} {num slot : Nat} (h : (s.newMediaKey n.nsid).1 = some (num, slot)) :
    (s.formatNs c n).ns = (s.ns.map fun x => if x.nsid == n.nsid then { x with keyRec := num, keySeq := (s.newMediaKey n.nsid).2.keySeq num } else x)
      ∧ (s.formatNs c n).keys.records = (s.newMediaKey n.nsid).2.keys.records.filter (·.num != n.keyRec) := by
  have hns : (s.newMediaKey n.nsid).2.ns = s.ns := keeps_ns (State.forget_newMediaKey (T := 0x8001e0024) rfl ..) rfl
  unfold State.formatNs
  generalize s.newMediaKey n.nsid = r at h hns ⊢
  obtain ⟨a, t⟩ := r
  dsimp only at h hns
  subst h
  dsimp only
  have hdrop : (t.dropKey n.keyRec).ns = t.ns := keeps_ns (State.forget_dropKey (T := 0x8001e0020) rfl ..) rfl
  have hrecords := t.dropKey_records n.keyRec
  have htail (u : State) (v : Nat) :
      forget 0x4800E0420 ((((u.forgetData n.nsid).zeroRange n.nsid 0 v).freeEmpty.nsChanged n).completeAdmin c Nv.ok) = forget 0x4800E0420 u :=
    (State.forget_completeAdmin rfl ..).trans ((State.forget_nsChanged rfl ..).trans ((State.forget_freeEmpty rfl _).trans
      ((State.forget_zeroRange rfl ..).trans (State.forget_forgetData rfl ..))))
  generalize t.dropKey n.keyRec = d at hdrop hrecords ⊢
  rw [keeps_ns (htail ..) rfl, keeps_keys (htail ..) rfl]
  refine ⟨?_, hrecords⟩
  rw [← hns, ← hdrop]
  rfl

end

/-- A namespace whose key record has the number of the record that comes next. -/
def staleNs : Ns := ⟨1, .block, 0, 0, [], 1, 0, none, []⟩

/-- A device in service with that namespace. -/
def staleState : State :=
  { State.reset with
    regs := [(R.PWR.MODE_MODE, 3)], ns := [staleNs], tenant := { State.reset.tenant with fns := [emptyPf] }, keys := { KeySt.reset with kekMedia := some [] } }

/-- A command of PF A for that namespace. -/
def staleCmd : Cmd := ⟨0, 0, 0, 1, []⟩

theorem staleState_format : exec (.formatNvm staleCmd 0 0) staleState = .next (staleState.formatNs staleCmd staleNs) := by
  have heq : exec (.formatNvm staleCmd 0 0) staleState = execFormatNvm staleCmd 0 0 staleState := rfl
  have hready : staleState.adminReady staleCmd.fn = true := by decide
  have hsees : staleState.seesNs staleCmd.fn staleCmd.nsid = some staleNs := rfl
  have hwrite : staleState.readOnly = false := by decide
  rw [heq, execFormatNvm, hready]
  simp only [hsees, hwrite]
  rfl

/-- The namespace then names a record that is not there. -/
theorem staleState_formatted : ((staleState.formatNs staleCmd staleNs).nsOf 1).map (·.keySeq) = some 1 ∧ (staleState.formatNs staleCmd staleNs).keySeq 1 = 0 := by
  obtain ⟨hkey, w, hrecords⟩ := State.newMediaKey_records (s := staleState) (kek := []) (slot := 0) rfl rfl staleNs.nsid
  have hlist : (staleState.newMediaKey staleNs.nsid).2.keys.records = [⟨1, 1, 1, w⟩] := hrecords
  obtain ⟨hns, hkept⟩ := State.formatNs_kept (c := staleCmd) (n := staleNs) hkey
  have hseq : (staleState.newMediaKey staleNs.nsid).2.keySeq 1 = 1 := by rw [State.keySeq, hlist]; rfl
  refine ⟨?_, ?_⟩
  · rw [State.nsOf, hns]
    have hone : (staleState.newMediaKey staleNs.nsid).2.keySeq staleState.keys.nextRec = 1 := hseq
    rw [hone]
    rfl
  · have hnone : (staleState.formatNs staleCmd staleNs).keys.records = [] := by
      rw [hkept]
      rw [hlist]
      rfl
    rw [State.keySeq, hnone]
    rfl

/-- Refutes O48: a namespace whose KEY_REF names the number that the next key record takes. A format makes the record of the new key, then drops the records of the
old key's number, and so the new one with them: the namespace has the record's SEQ, 1, and no record of that number is left, which the statement reads as 0. -/
theorem not_adminCommandsRun : ¬ Obligations.AdminCommandsRun := by
  intro h
  obtain ⟨-, -, -, -, -, -, -, -, -, -, -, -, -, -, -, hformat, -⟩ := h
  have hkey : (staleState.newMediaKey staleNs.nsid).1 = some (1, 0) := (State.newMediaKey_records (s := staleState) (kek := []) (slot := 0) rfl rfl staleNs.nsid).1
  obtain ⟨t, m, heq, hm, -, hseq, -⟩ := hformat staleState staleCmd staleNs 0 1 0 (by decide) rfl rfl (by decide) (by decide) hkey
  have ht : staleState.formatNs staleCmd staleNs = t := Host.Outcome.next.inj (staleState_format.symm.trans heq)
  subst ht
  obtain ⟨hone, hzero⟩ := staleState_formatted
  have hm' : (staleState.formatNs staleCmd staleNs).nsOf 1 = some m := hm
  rw [hm', Option.map_some, Option.some.injEq, hseq, hzero] at hone
  exact absurd hone (by decide)

end Sys2Proof.Machine
end

section
/-!
What reading a host range leaves of the host interface: the work on the media, the keys and the array only ever counts messages of an interrupt there.
-/

namespace Sys2Proof.Machine

open Sys2Proof.Laws

theorem sansMsix_of_forget {s t : State} (h : forget 0xFFFFFFFF7FFFFFFF t = forget 0xFFFFFFFF7FFFFFFF s) : t.host.sansMsix = s.host.sansMsix :=
  congrArg HostSt.sansMsix (keeps_host h rfl)

theorem sansMsix_ite (c : Prop) [Decidable c] (s t : State) : (if c then s else t).host.sansMsix = if c then s.host.sansMsix else t.host.sansMsix :=
  apply_ite (fun u : State => u.host.sansMsix) ..

theorem sansMsix_foldl {β : Type} (g : State → β → State) (h : ∀ s x, (g s x).host.sansMsix = s.host.sansMsix) (l : List β) (s : State) :
    (l.foldl g s).host.sansMsix = s.host.sansMsix :=
  foldl_keeps (fun u : State => u.host.sansMsix) h l s

theorem State.setPwr_sansMsix (s : State) (f : PwrSt → PwrSt) : (State.setPwr s f).host.sansMsix = s.host.sansMsix := sansMsix_of_forget (State.forget_setPwr rfl ..)

theorem State.puts_sansMsix (s : State) (l : List (Fld × ℕ)) : (State.puts s l).host.sansMsix = s.host.sansMsix := sansMsix_of_forget (State.forget_puts rfl ..)

theorem State.setMode_sansMsix (s : State) (m : ℕ) : (State.setMode s m).host.sansMsix = s.host.sansMsix := by simp only [State.setMode, State.puts_sansMsix, State.pulse_sansMsix, State.setPwr_sansMsix, sansMsix_ite, ite_self]

theorem State.follow_sansMsix (s : State) : (State.follow s).host.sansMsix = s.host.sansMsix := by simp only [State.follow, State.setMode_sansMsix, sansMsix_ite, ite_self]

theorem State.hostActive_sansMsix (s : State) : (State.hostActive s).host.sansMsix = s.host.sansMsix := by simp only [State.hostActive, State.setPwr_sansMsix, State.follow_sansMsix]

theorem State.bump_sansMsix (s : State) (f : Fld) (n : ℕ) : (State.bump s f n).host.sansMsix = s.host.sansMsix := sansMsix_of_forget (State.forget_bump rfl ..)

theorem State.readUnit_sansMsix (s : State) (gn : ℕ) (u : ℕ) : (State.readUnit s gn u).2.host.sansMsix = s.host.sansMsix := by
    unfold State.readUnit
    dsimp only
    (repeat' split) <;> simp only [State.pulse_sansMsix, State.bump_sansMsix, State.record_sansMsix]

theorem State.sendOnfi_sansMsix (s : State) (d : ℕ) (cmds : List OnfiCmd) : (State.sendOnfi s d cmds).host.sansMsix = s.host.sansMsix := sansMsix_of_forget (State.forget_sendOnfi rfl ..)

theorem State.fetchUnit_sansMsix (s : State) (gn : ℕ) (u : ℕ) : (State.fetchUnit s gn u).2.host.sansMsix = s.host.sansMsix := by
    unfold State.fetchUnit
    dsimp only
    (repeat' split) <;> simp only [State.readUnit_sansMsix, State.sendOnfi_sansMsix, sansMsix_foldl, implies_true]

theorem State.loseMeta_sansMsix (s : State) (gn : ℕ) (u : ℕ) : (State.loseMeta s gn u).host.sansMsix = s.host.sansMsix := sansMsix_of_forget (State.forget_loseMeta rfl ..)

theorem State.loseUnit_sansMsix (s : State) (nsid : ℕ) (logical : ℕ) : (State.loseUnit s nsid logical).host.sansMsix = s.host.sansMsix := sansMsix_of_forget (State.forget_loseUnit rfl ..)

theorem State.readToMove_sansMsix (s : State) (nsid : ℕ) (logical : ℕ) (gn : ℕ) (u : ℕ) : (State.readToMove s nsid logical gn u).2.host.sansMsix = s.host.sansMsix := by
    have h := State.fetchUnit_sansMsix s gn u
    unfold State.readToMove
    split
    next heq => rwa [heq] at h
    next t heq =>
      rw [heq] at h
      dsimp only
      split
      · exact h
      · split
        · exact (State.loseMeta_sansMsix ..).trans h
        · exact (State.loseUnit_sansMsix ..).trans h

theorem State.noPlace_sansMsix (s : State) (use : GroupUse) (nsid : ℕ) : (State.noPlace s use nsid).host.sansMsix = s.host.sansMsix := by simp only [State.noPlace, State.pulse_sansMsix, State.record_sansMsix, sansMsix_ite, ite_self]

theorem State.countCopy_sansMsix (s : State) : (State.countCopy s).host.sansMsix = s.host.sansMsix := sansMsix_of_forget (State.forget_countCopy rfl ..)

theorem State.placeUnit_sansMsix (s : State) (use : GroupUse) (gn : ℕ) (nsid : ℕ) (kind : ℕ) (logical : ℕ) (flags : ℕ) (data : Bytes) (cmd : Option CmdKey) {t} (e : State.placeUnit s use gn nsid kind logical flags data cmd = some t) : t.host.sansMsix = s.host.sansMsix := sansMsix_of_forget (State.forget_placeUnit rfl  _ _ _ _ _ _ _ _ _ e)

theorem State.copyUnits_sansMsix (use : GroupUse) (gn : ℕ) (g : ℕ) (x0 : List (ℕ × ℕ × ℕ × ℕ)) (x1 : State) : (State.copyUnits use gn g x0 x1).host.sansMsix = x1.host.sansMsix := by
    induction x0 generalizing x1 with
    | nil => rfl
    | cons x rest ih =>
      obtain ⟨nsid, kind, logical, u⟩ := x
      have h := State.readToMove_sansMsix x1 nsid logical g u
      unfold State.copyUnits
      split
      next heq => rw [heq] at h; exact (ih _).trans h
      next heq =>
        rw [heq] at h
        split
        · exact (State.noPlace_sansMsix ..).trans h
        next hp => exact (ih _).trans ((State.countCopy_sansMsix _).trans ((State.placeUnit_sansMsix _ _ _ _ _ _ _ _ _ hp).trans h))

theorem State.roomFor_sansMsix (s : State) (use : GroupUse) (gn : ℕ) (need : ℕ) {t} (e : State.roomFor s use gn need = some t) : t.2.host.sansMsix = s.host.sansMsix := sansMsix_of_forget (State.forget_roomFor rfl  _ _ _ _ e)

theorem State.putIn_sansMsix (s : State) (gn : ℕ) (u : DUnit) : (State.putIn s gn u).host.sansMsix = s.host.sansMsix := sansMsix_of_forget (State.forget_putIn rfl ..)

theorem State.copyExtents_sansMsix (nsid : ℕ) (g : ℕ) (x0 : List (List (ℕ × ℕ))) (x1 : State) : (State.copyExtents nsid g x0 x1).host.sansMsix = x1.host.sansMsix := by
    induction x0 generalizing x1 with
    | nil => rfl
    | cons us rest ih =>
      unfold State.copyExtents
      split
      · exact State.noPlace_sansMsix ..
      next dst t hroom =>
        have hmoved : t.host.sansMsix = x1.host.sansMsix := by
          split at hroom
          · cases hroom
          · exact State.roomFor_sansMsix _ _ _ _ hroom
        refine (ih _).trans ((sansMsix_foldl _ (fun v u => State.putIn_sansMsix ..) _ _).trans (Eq.trans ?_ hmoved))
        refine List.foldlRecOn us (motive := fun p : List DUnit × State => p.2.host.sansMsix = t.host.sansMsix) _ rfl fun p hp x _ =>
          Eq.trans ?_ hp
        have h := State.readToMove_sansMsix p.2 nsid x.1 g x.2
        split
        next heq => rw [heq] at h; exact (State.countCopy_sansMsix _).trans h
        next heq => rwa [heq] at h

theorem State.padStripe_sansMsix (s : State) (use : GroupUse) (gn : ℕ) : (State.padStripe s use gn).host.sansMsix = s.host.sansMsix := sansMsix_of_forget (State.forget_padStripe rfl ..)

theorem State.copyWhere_sansMsix (s : State) (g : Group) (p : ℕ → Bool) (slcOut : Bool) : (State.copyWhere s g p slcOut).host.sansMsix = s.host.sansMsix := by
    unfold State.copyWhere
    split <;> simp only [State.copyUnits_sansMsix, State.copyExtents_sansMsix, State.padStripe_sansMsix]

theorem State.resyncEnd_sansMsix (s : State) (gn : ℕ) (i : ℕ) (f : Stripe → Stripe) : (State.resyncEnd s gn i f).host.sansMsix = s.host.sansMsix := sansMsix_of_forget (State.forget_resyncEnd rfl ..)

theorem State.resyncAt_sansMsix (s : State) (gn : ℕ) (i : ℕ) : (State.resyncAt s gn i).host.sansMsix = s.host.sansMsix := by
    unfold State.resyncAt
    split <;> simp only [State.copyWhere_sansMsix, State.resyncEnd_sansMsix, sansMsix_ite, ite_self]

theorem State.resyncAhead_sansMsix (s : State) (gn : ℕ) (u : ℕ) : (State.resyncAhead s gn u).host.sansMsix = s.host.sansMsix := by
    unfold State.resyncAhead
    dsimp only
    (repeat' split) <;> simp only [State.resyncAt_sansMsix]

theorem State.aheadOf_sansMsix (s : State) (nsid : ℕ) (lba : ℕ) (count : ℕ) : (State.aheadOf s nsid lba count).host.sansMsix = s.host.sansMsix := by
    unfold State.aheadOf
    split
    · rfl
    · refine sansMsix_foldl _ (fun t i => ?_) _ _
      split
      · exact State.resyncAhead_sansMsix ..
      · rfl

theorem State.mediaKey_sansMsix (s : State) (rec : ℕ) (seq : ℕ) : (State.mediaKey s rec seq).2.host.sansMsix = s.host.sansMsix := sansMsix_of_forget (State.forget_mediaKey rfl ..)

theorem State.fresh_sansMsix (s : State) : (State.fresh s).2.host.sansMsix = s.host.sansMsix := sansMsix_of_forget (State.forget_fresh rfl ..)

theorem State.readLba_sansMsix (s : State) (key : Bytes) (nsid : ℕ) (lba : ℕ) : (State.readLba s key nsid lba).2.host.sansMsix = s.host.sansMsix := by
    unfold State.readLba
    split
    · rfl
    · split
      · rfl
      next g u _ =>
        have h := State.readUnit_sansMsix s g u
        split <;> next heq => rwa [heq] at h
      · split
        next g u _ =>
          have hf : s.fresh.2.host.sansMsix = s.host.sansMsix := State.fresh_sansMsix s
          have h := State.fetchUnit_sansMsix s.fresh.2 g u
          dsimp only
          split
          · exact hf
          · split <;> next heq => rw [heq] at h; exact h.trans hf
        · rfl

theorem State.readLbas_sansMsix (key : Bytes) (nsid : ℕ) (x0 : List ℕ) (x1 : State) : (State.readLbas key nsid x0 x1).2.host.sansMsix = x1.host.sansMsix := by
    induction x0 generalizing x1 with
    | nil => rfl
    | cons l ls ih =>
      have h := State.readLba_sansMsix x1 key nsid l
      unfold State.readLbas
      split
      next heq => rwa [heq] at h
      next t heq =>
        rw [heq] at h
        have h2 := ih t
        split <;> next heq2 => rw [heq2] at h2; exact h2.trans h

theorem State.mediaBytes_sansMsix (s : State) (n : ℕ) : (State.mediaBytes s n).host.sansMsix = s.host.sansMsix := sansMsix_of_forget (State.forget_mediaBytes rfl ..)

theorem State.readRange_sansMsix (s : State) (n : Ns) (lba : ℕ) (count : ℕ) : (State.readRange s n lba count).2.host.sansMsix = s.host.sansMsix := by
    have h := State.mediaKey_sansMsix s n.keyRec n.keySeq
    unfold State.readRange
    split
    next heq => rwa [heq] at h
    next heq =>
      rw [heq] at h
      exact (State.readLbas_sansMsix ..).trans ((State.mediaBytes_sansMsix ..).trans h)

end Sys2Proof.Machine
end

section
/-!
How an I/O command runs: what it finds ready, what refuses it, the start of its reads and its completion (R219, R458, R465).
-/

namespace Sys2Proof.Machine

open Sys2Proof.Laws

section
variable {s t : State} {k : CmdKey} {c : HCmd} {n : Ns} {op : Nat}

/-- The host's view of a command that ends: its entry, of whatever completion queue. -/
def State.Posted (t : State) (k : CmdKey) (status dw0 dw1 : Nat) : Prop := ∃ cq : Nat, (⟨k.fn, cq, k.sq, k.cid, status, dw0, dw1⟩ : Cqe) ∈ t.host.cqes

theorem State.hcmd_of_sansMsix (h : t.host.sansMsix = s.host.sansMsix) (k : CmdKey) : t.hcmd k = s.hcmd k := by
  have hcmds : t.host.cmds = s.host.cmds := (congrArg HostSt.cmds h :)
  rw [State.hcmd, hcmds, State.hcmd]

theorem State.hcmd_of_host (h : t.host = s.host) (k : CmdKey) : t.hcmd k = s.hcmd k := State.hcmd_of_sansMsix (congrArg _ h) k

theorem State.relock_cqes (t : State) : t.relock.host.cqes = t.host.cqes := by
  rw [State.relock_host, apply_ite HostSt.cqes]
  exact ite_self _

/-- A command that runs posts its entry when it completes. -/
theorem State.completeCmd_posted (hc : s.hcmd k = some c) (st d0 d1 : Nat) (keep : Bool) : (s.completeCmd k st d0 d1 keep).Posted k st d0 d1 := by
  rw [State.completeCmd_of_hcmd hc]
  have hmem : s.cqeOf k st d0 d1 ∈ ((s.beforePost k c st keep).post (s.cqeOf k st d0 d1)).host.cqes := by
    rw [State.post_cqes]
    exact List.mem_append_right _ (List.mem_singleton_self _)
  refine ⟨_, (congrArg (s.cqeOf k st d0 d1 ∈ ·) (State.relock_cqes _)).mpr ?_⟩
  dsimp only
  split
  · exact hmem
  · exact (State.freezeSq_host ..).2 hmem

theorem State.completeCmd_mem (s : State) (k : CmdKey) (st d0 d1 : Nat) (keep : Bool) : (s.completeCmd k st d0 d1 keep).mem = s.mem :=
  keeps_mem (State.forget_completeCmd (T := 0x480000420) rfl ..) rfl

theorem State.completeCmd_media (s : State) (k : CmdKey) (st d0 d1 : Nat) (keep : Bool) : (s.completeCmd k st d0 d1 keep).media = s.media :=
  keeps_media (State.forget_completeCmd (T := 0x480000420) rfl ..) rfl

theorem State.hostActive_mem (s : State) : s.hostActive.mem = s.mem := keeps_mem (State.forget_hostActive (T := 0x490000020) rfl s) rfl

theorem State.hostActive_media (s : State) : s.hostActive.media = s.media := keeps_media (State.forget_hostActive (T := 0x490000020) rfl s) rfl

theorem State.hcmd_of_readyCmd (h : s.readyCmd k op = some c) : s.hcmd k = some c ∧ c.phase = .ready ∧ c.x.opcode = op := by
  obtain ⟨d, hd, hif⟩ := Option.bind_eq_some_iff.mp h
  split at hif
  next hready =>
    cases hif
    obtain ⟨hphase, hop⟩ := Bool.and_eq_true_iff.mp hready
    exact ⟨hd, eq_of_beq hphase, eq_of_beq hop⟩
  · cases hif

/-- The command has the key's function, queue and identifier, and is not one that only keeps its lock. -/
def namesCmd (k : CmdKey) (h : HCmd) : Bool := h.x.fn == k.fn && h.x.sq == k.sq && h.x.cid == k.cid && h.phase != .locked

theorem State.hcmd_eq_find (s : State) (k : CmdKey) : s.hcmd k = s.host.cmds.find? (namesCmd k) := rfl

theorem State.names_of_hcmd (h : s.hcmd k = some c) : namesCmd k c = true := List.find?_some (p := namesCmd k) h

theorem State.fn_of_hcmd (h : s.hcmd k = some c) : c.x.fn = k.fn := by
  have hk := State.names_of_hcmd h
  simp only [namesCmd, Bool.and_eq_true, beq_iff_eq] at hk
  exact hk.1.1.1

theorem State.modCmd_cmds (s : State) (k : CmdKey) (f : HCmd → HCmd) :
    (s.modCmd k f).host.cmds = s.host.cmds.map fun h => if namesCmd k h then f h else h := rfl

/-- A change of a command that its key still names shows in the command. -/
theorem State.hcmd_modCmd (hc : s.hcmd k = some c) (f : HCmd → HCmd) (hf : ∀ h, namesCmd k h = true → namesCmd k (f h) = true) :
    (s.modCmd k f).hcmd k = some (f c) := by
  rw [State.hcmd_eq_find] at hc ⊢
  rw [State.modCmd_cmds]
  generalize s.host.cmds = l at hc
  induction l with
  | nil => cases hc
  | cons h l ih =>
    rw [List.map_cons]
    by_cases hh : namesCmd k h = true
    · rw [List.find?_cons_of_pos hh, Option.some.injEq] at hc
      subst hc
      rw [if_pos hh, List.find?_cons_of_pos (hf _ hh)]
    · rw [List.find?_cons_of_neg hh] at hc
      rw [if_neg hh, List.find?_cons_of_neg hh]
      exact ih hc

/-- A command stays named in any phase but that of a lock that stays. -/
theorem names_left (k : CmdKey) (h : HCmd) (m : Nat) (hh : namesCmd k h = true) : namesCmd k { h with left := m, phase := .running } = true := by
  simp only [namesCmd, Bool.and_eq_true] at hh ⊢
  exact ⟨hh.1, rfl⟩

/-! ### A command in its place -/

theorem State.ioRun_go {wr data : Bool} {go : State → HCmd → Ns → State} (hc : s.readyCmd k op = some c)
    (hio : s.ioCheck c.x wr (ioLba c.x) (ioNlb c.x) = 0) (hn : s.ioNs c.x = some n) (hshort : (data && ioShort c.x (4096 * ioNlb c.x)) = false)
    (hlost : s.pageLost n.nsid (ioLba c.x) (ioNlb c.x) = false) : s.ioRun k op wr data go = .next (go s c n) := by
  simp only [State.ioRun, hc, hio, hn, hshort, hlost, Bool.false_eq_true, if_false]

theorem State.ioRun_refused {wr data : Bool} {go : State → HCmd → Ns → State} {st : Nat} (hc : s.readyCmd k op = some c)
    (hio : s.ioCheck c.x wr (ioLba c.x) (ioNlb c.x) = st) (hst : st ≠ 0) : s.ioRun k op wr data go = .next (s.completeCmd k st) := by
  obtain ⟨m, rfl⟩ := Nat.exists_eq_succ_of_ne_zero hst
  simp only [State.ioRun, hc, hio]

theorem State.ioRun_lost {wr data : Bool} {go : State → HCmd → Ns → State} (hc : s.readyCmd k op = some c)
    (hio : s.ioCheck c.x wr (ioLba c.x) (ioNlb c.x) = 0) (hn : s.ioNs c.x = some n) (hshort : ioShort c.x (4096 * ioNlb c.x) = false)
    (hlost : s.pageLost n.nsid (ioLba c.x) (ioNlb c.x) = true) : s.ioRun k op wr data go = .next s := by
  simp only [State.ioRun, hc, hio, hn, hshort, hlost, Bool.and_false, Bool.false_eq_true, if_false, if_true]

/-- A Read, Compare or Verify that passes its checks starts its reads. -/
theorem exec_reading (hop : op = 2 ∨ op = 5 ∨ op = 0x0C) (hc : s.readyCmd k op = some c) (hio : s.ioCheck c.x false (ioLba c.x) (ioNlb c.x) = 0)
    (hn : s.ioNs c.x = some n) (hshort : op = 0x0C ∨ ioShort c.x (4096 * ioNlb c.x) = false)
    (hlost : s.pageLost n.nsid (ioLba c.x) (ioNlb c.x) = false) :
    (op = 2 → exec (.read k) s = .next (s.startReads k [(n.nsid, ioLba c.x, ioNlb c.x)]))
      ∧ (op = 5 → exec (.compare k) s = .next (s.startReads k [(n.nsid, ioLba c.x, ioNlb c.x)]))
      ∧ (op = 0x0C → exec (.verify k) s = .next (s.startReads k [(n.nsid, ioLba c.x, ioNlb c.x)])) := by
  refine ⟨fun h => ?_, fun h => ?_, fun h => ?_⟩ <;> subst h
  · exact State.ioRun_go (data := true) (go := fun s c n => s.startReads k [(n.nsid, ioLba c.x, ioNlb c.x)]) hc hio hn (hshort.resolve_left (by decide)) hlost
  · exact State.ioRun_go (data := true) (go := fun s c n => s.startReads k [(n.nsid, ioLba c.x, ioNlb c.x)]) hc hio hn (hshort.resolve_left (by decide)) hlost
  · exact State.ioRun_go (data := false) (go := fun s c n => s.startReads k [(n.nsid, ioLba c.x, ioNlb c.x)]) hc hio hn rfl hlost

/-! ### The start of the reads -/

theorem State.startReads_single (s : State) (k : CmdKey) (a b m : Nat) :
    s.startReads k [(a, b, m)] =
      if (s.queueReads k a b m).1 = 0 then ((s.queueReads k a b m).2.modCmd k fun h => { h with left := (s.queueReads k a b m).1, phase := .running }).finishIo k
      else (s.queueReads k a b m).2.modCmd k fun h => { h with left := (s.queueReads k a b m).1, phase := .running } := by
  simp only [State.startReads, List.foldl_cons, List.foldl_nil, Nat.zero_add]

theorem State.hcmd_queueReads (hc : s.hcmd k = some c) (a b m : Nat) : (s.queueReads k a b m).2.hcmd k = some c :=
  (State.hcmd_of_host (keeps_host (State.forget_queueReads (T := 0x60000) rfl ..) rfl) k).trans hc

/-- A command with reads to make is running, with their number left, and nothing has gone to the host. -/
theorem State.startReads_runs (hc : s.hcmd k = some c) (a b m : Nat) (hm : (s.queueReads k a b m).1 ≠ 0) :
    (s.startReads k [(a, b, m)]).hcmd k = some { c with left := (s.queueReads k a b m).1, phase := .running }
      ∧ (s.startReads k [(a, b, m)]).mem = s.mem ∧ (s.startReads k [(a, b, m)]).host.cqes = s.host.cqes := by
  have hframe := State.forget_queueReads (T := 0x60000) rfl s k a b m
  rw [State.startReads_single, if_neg hm]
  refine ⟨State.hcmd_modCmd (State.hcmd_queueReads hc a b m) _ fun h hh => names_left k h _ hh,
    (keeps_mem hframe rfl :), (congrArg HostSt.cqes (keeps_host hframe rfl) :)⟩

end

end Sys2Proof.Machine
end

section
/-!
The end of a Read, Compare or Verify: once its reads are made, its range is read, decrypted, and given to the host or compared (R219, R227, R251).
-/

namespace Sys2Proof.Machine

open Sys2Proof.Laws

section
variable {s t u v : State} {k : CmdKey} {c : HCmd} {n : Ns} {op : Nat}

theorem State.nsid_of_ioNs {x : IoCmd} (h : s.ioNs x = some n) : n.nsid = x.nsid := by
  obtain ⟨m, hm, hif⟩ := Option.bind_eq_some_iff.mp h
  split at hif
  · cases hif
    exact eq_of_beq (List.find?_some (p := fun m : Ns => m.nsid == x.nsid) hm)
  · cases hif

/-- What the checks of an I/O command without fault say of its namespace and the media keys (R458). -/
theorem State.ioCheck_passed {x : IoCmd} {wr : Bool} {lba m : Nat} (h : s.ioCheck x wr lba m = 0) (hn : s.ioNs x = some n) :
    (n.kind = .block ∨ n.kind = .take) ∧ s.keys.kekMedia.isNone = false := by
  simp only [State.ioCheck, hn] at h
  by_cases hkind : n.kind ≠ .block ∧ n.kind ≠ .take
  · rw [if_pos hkind] at h
    exact absurd h (by decide)
  · rw [if_neg hkind] at h
    refine ⟨by tauto, ?_⟩
    split at h
    · exact absurd h (by decide)
    · split at h
      · exact absurd h (by decide)
      next hkek => exact Bool.eq_false_iff.mpr hkek

theorem State.readsOf_of_lbas (hn : s.ioNs c.x = some n) (hkind : n.kind = .block ∨ n.kind = .take) :
    s.readsOf c.x = [(n.nsid, ioLba c.x, ioNlb c.x)] := by
  rw [State.nsid_of_ioNs hn]
  rcases hkind with h | h <;> simp only [State.readsOf, hn, h]

/-! ### What queueing the reads leaves -/

theorem State.queueOp_media (s : State) (d : Nat) (op : DieOp) : (s.queueOp d op).media = s.media :=
  keeps_media (State.forget_queueOp (T := 0x20000) rfl ..) rfl

/-- A page that becomes resident changes nothing of the map that does not read which pages are. -/
theorem State.needPage_media {α : Type} (f : MediaSt → α) (hf : ∀ m l, f { m with resident := l } = f m) (s : State) (p : Nat) (use : OpFor) :
    f (s.needPage p use).2.media = f s.media := by
  have hreside : f (s.residePage p).media = f s.media := by
    unfold State.residePage
    split
    · rfl
    · exact hf ..
  unfold State.needPage
  split
  · split
    · exact (congrArg f (State.queueOp_media ..)).trans hreside
    · exact hreside
  · exact hreside

/-- Nor do the reads that a range needs. -/
theorem State.queueReads_media {α : Type} (f : MediaSt → α) (hf : ∀ m l, f { m with resident := l } = f m) (s : State) (k : CmdKey)
    (a b m : Nat) : f (s.queueReads k a b m).2.media = f s.media := by
  have hpages : f (s.needPages k a b m).2.media = f s.media := by
    unfold State.needPages
    split
    · rfl
    · exact List.foldlRecOn _ (motive := fun r : Nat × State => f r.2.media = f s.media) _ rfl fun r hr p _ =>
        (State.needPage_media f hf r.2 p (.cmd k)).trans hr
  exact (foldl_keeps (fun t : State => f t.media) (fun t o => congrArg f (State.queueOp_media ..)) _ _).trans hpages

theorem State.pageLost_of (hns : t.ns = s.ns) (hl : t.media.lostPages = s.media.lostPages) (a b m : Nat) : t.pageLost a b m = s.pageLost a b m := by
  have htake (x : Nat) : t.nsIsTake x = s.nsIsTake x := by rw [State.nsIsTake, hns, State.nsIsTake]
  simp only [State.pageLost, State.pagesOf, State.mapPageOf, htake, hl]

theorem State.readyPipes_of (hregs : t.regs = s.regs) (hkeys : t.keys = s.keys) : t.readyPipes = s.readyPipes := by
  simp only [State.readyPipes, State.get, hregs, hkeys]

/-- The state in which a command's reads are made, none of them outstanding. -/
def State.reading (s : State) (k : CmdKey) (n : Ns) (c : HCmd) : State :=
  (s.queueReads k n.nsid (ioLba c.x) (ioNlb c.x)).2.readingCmd k

theorem State.reading_frame (s : State) (k : CmdKey) (n : Ns) (c : HCmd) : forget 0x80060000 (s.reading k n c) = forget 0x80060000 s :=
  (State.forget_modCmd rfl ..).trans (State.forget_queueReads rfl ..)

theorem State.reading_hcmd (hc : s.hcmd k = some c) (n : Ns) : (s.reading k n c).hcmd k = some { c with left := 0, phase := .running } :=
  State.hcmd_modCmd (State.hcmd_queueReads hc ..) _ fun h hh => names_left k h _ hh

theorem State.reading_map (s : State) (k : CmdKey) (n : Ns) (c : HCmd) : (s.reading k n c).media.image = s.media.image :=
  State.queueReads_media MediaSt.image (fun _ _ => rfl) ..

theorem State.reading_lostPages (s : State) (k : CmdKey) (n : Ns) (c : HCmd) : (s.reading k n c).media.lostPages = s.media.lostPages :=
  State.queueReads_media MediaSt.lostPages (fun _ _ => rfl) ..

/-! ### The end -/

/-- What the data read do: they go to the host, are compared with the host's, or were only to be read. -/
def State.ending (u : State) (k : CmdKey) (c : HCmd) (bs : Bytes) : State :=
  if c.x.opcode = 5 then
    if u.hostActive.fromHost c.x.fn c.x.dptr (4096 * ioNlb c.x) = bs then u.hostActive.completeCmd k Nv.ok else u.hostActive.completeCmd k Nv.compareFail
  else if c.x.opcode = 0x0C then u.completeCmd k Nv.ok
  else ((u.toHost c.x.fn c.x.dptr bs).hostActive).completeCmd k Nv.ok

theorem State.finishIo_of_readRange {bs : Bytes} (hc : t.hcmd k = some c) (hn : t.ioNs c.x = some n) (hkind : n.kind = .block ∨ n.kind = .take)
    (hkek : t.keys.kekMedia.isNone = false) (hpipes : t.readyPipes ≠ []) (hlost : t.pageLost n.nsid (ioLba c.x) (ioNlb c.x) = false)
    (hre : (t.aheadOf n.nsid (ioLba c.x) (ioNlb c.x)).resyncFirst n.nsid (ioLba c.x) (ioNlb c.x) = false)
    (hread : (t.aheadOf n.nsid (ioLba c.x) (ioNlb c.x)).readRange n (ioLba c.x) (ioNlb c.x) = (some bs, u)) :
    t.finishIo k = u.ending k c bs := by
  have hns : (t.aheadOf n.nsid (ioLba c.x) (ioNlb c.x)).ns = t.ns := keeps_ns (State.forget_aheadOf (T := 0xc801e0420) rfl ..) rfl
  have hn' := (State.ioNs_of_ns hns c.x).trans hn
  simp only [State.finishIo, hc, hn, State.readsOf_of_lbas hn hkind, State.readsOf_of_lbas hn' hkind, hkek, List.isEmpty_eq_false_iff.mpr hpipes, List.any_cons, List.any_nil, hlost,
    List.foldl_cons, List.foldl_nil, hre, Bool.false_and, Bool.or_false, Bool.false_eq_true, if_false]
  rcases hkind with h | h <;> simp only [h, hread] <;> rfl

theorem State.ending_spec {bs : Bytes} (hc : u.hcmd k = some c) (hop : c.x.opcode = 2 ∨ c.x.opcode = 5 ∨ c.x.opcode = 0x0C) :
    (u.ending k c bs).Posted k (if c.x.opcode = 5 ∧ u.fromHost c.x.fn c.x.dptr (4096 * ioNlb c.x) ≠ bs then Nv.compareFail else 0) 0 0
      ∧ (u.ending k c bs).mem = (if c.x.opcode = 2 then dptrWrite (hostTarget c.x.fn) c.x.dptr bs u.mem else u.mem)
      ∧ (u.ending k c bs).media = u.media := by
  have hhost (w : State) (hw : w.host = u.host) : w.hostActive.hcmd k = some c :=
    (State.hcmd_of_sansMsix ((State.hostActive_sansMsix w).trans (congrArg HostSt.sansMsix hw)) k).trans hc
  have hfrom : u.hostActive.fromHost c.x.fn c.x.dptr (4096 * ioNlb c.x) = u.fromHost c.x.fn c.x.dptr (4096 * ioNlb c.x) := by
    rw [State.fromHost, State.hostActive_mem, State.fromHost]
  rcases hop with h | h | h
  · simp only [State.ending, h, Nat.reduceEqDiff, if_false, if_true, false_and]
    exact ⟨State.completeCmd_posted (hhost (u.toHost c.x.fn c.x.dptr bs) rfl) .., (State.completeCmd_mem ..).trans (State.hostActive_mem _),
      (State.completeCmd_media ..).trans (State.hostActive_media _)⟩
  · simp only [State.ending, h, Nat.reduceEqDiff, if_false, if_true, true_and, hfrom]
    by_cases he : u.fromHost c.x.fn c.x.dptr (4096 * ioNlb c.x) = bs
    · rw [if_pos he, if_neg (not_not.mpr he)]
      exact ⟨State.completeCmd_posted (hhost _ rfl) .., (State.completeCmd_mem ..).trans (State.hostActive_mem _),
        (State.completeCmd_media ..).trans (State.hostActive_media _)⟩
    · rw [if_neg he, if_pos he]
      exact ⟨State.completeCmd_posted (hhost _ rfl) .., (State.completeCmd_mem ..).trans (State.hostActive_mem _),
        (State.completeCmd_media ..).trans (State.hostActive_media _)⟩
  · simp only [State.ending, h, Nat.reduceEqDiff, if_false, if_true, false_and]
    exact ⟨State.completeCmd_posted hc .., State.completeCmd_mem .., State.completeCmd_media ..⟩

theorem State.aheadOf_of_none (h : s.array.owed = []) (a b m : Nat) : s.aheadOf a b m = s := if_pos (by rw [h]; rfl)

/-- A Read, Compare or Verify without a read to make ends at once, and posts what the data say (R219, R251). -/
theorem startReads_ends {bs : Bytes} (hop : c.x.opcode = 2 ∨ c.x.opcode = 5 ∨ c.x.opcode = 0x0C) (hc : s.hcmd k = some c)
    (hio : s.ioCheck c.x false (ioLba c.x) (ioNlb c.x) = 0) (hn : s.ioNs c.x = some n) (hlost : s.pageLost n.nsid (ioLba c.x) (ioNlb c.x) = false)
    (h0 : (s.queueReads k n.nsid (ioLba c.x) (ioNlb c.x)).1 = 0) (hpipes : s.readyPipes ≠ [])
    (hv : v = (s.reading k n c).aheadOf n.nsid (ioLba c.x) (ioNlb c.x)) (hre : v.resyncFirst n.nsid (ioLba c.x) (ioNlb c.x) = false)
    (hread : v.readRange n (ioLba c.x) (ioNlb c.x) = (some bs, u)) (ht : t = s.startReads k [(n.nsid, ioLba c.x, ioNlb c.x)]) :
    t.Posted k (if c.x.opcode = 5 ∧ s.fromHost c.x.fn c.x.dptr (4096 * ioNlb c.x) ≠ bs then Nv.compareFail else 0) 0 0
      ∧ t.mem = (if c.x.opcode = 2 then dptrWrite (hostTarget c.x.fn) c.x.dptr bs s.mem else s.mem)
      ∧ (s.array.owed = [] → t.media.image.map = s.media.image.map) := by
  obtain ⟨hkind, hkek⟩ := State.ioCheck_passed hio hn
  have hf := s.reading_frame k n c
  have hns : (s.reading k n c).ns = s.ns := keeps_ns hf rfl
  have hahead : forget 0xc801e0420 v = forget 0xc801e0420 (s.reading k n c) := hv ▸ State.forget_aheadOf rfl ..
  have hrange : forget 0x480120424 u = forget 0x480120424 v := (congrArg (fun x : Option Bytes × State => forget 0x480120424 x.2) hread).symm.trans
    (State.forget_readRange rfl ..)
  have hmem : u.mem = s.mem := (keeps_mem hrange rfl).trans ((keeps_mem hahead rfl).trans (keeps_mem hf rfl))
  have hu : u.hcmd k = some { c with left := 0, phase := .running } := by
    have hu' : u.host.sansMsix = v.host.sansMsix := by
      have h := State.readRange_sansMsix v n (ioLba c.x) (ioNlb c.x)
      rwa [hread] at h
    have hv' : v.host.sansMsix = (s.reading k n c).host.sansMsix := hv ▸ State.aheadOf_sansMsix ..
    exact (State.hcmd_of_sansMsix (hu'.trans hv') k).trans (State.reading_hcmd hc n)
  have hend : t = u.ending k { c with left := 0, phase := .running } bs := by
    rw [ht, State.startReads_single, if_pos h0, h0]
    exact State.finishIo_of_readRange (State.reading_hcmd hc n) ((State.ioNs_of_ns hns _).trans hn) hkind
      ((congrArg (fun q : KeySt => q.kekMedia.isNone) (keeps_keys hf rfl)).trans hkek)
      (fun e => hpipes ((State.readyPipes_of (keeps_regs hf rfl) (keeps_keys hf rfl)).symm.trans e))
      ((State.pageLost_of hns (s.reading_lostPages k n c) ..).trans hlost) (hv ▸ hre) (hv ▸ hread)
  obtain ⟨hposted, hm, hmedia⟩ := State.ending_spec (bs := bs) hu hop
  have hfrom : u.fromHost c.x.fn c.x.dptr (4096 * ioNlb c.x) = s.fromHost c.x.fn c.x.dptr (4096 * ioNlb c.x) := by rw [State.fromHost, hmem, State.fromHost]
  rw [hend]
  refine ⟨hfrom ▸ hposted, hmem ▸ hm, fun howed => ?_⟩
  have harray : (s.reading k n c).array.owed = [] := (congrArg ArraySt.owed (keeps_array hf rfl)).trans howed
  rw [hmedia, keeps_media hrange rfl, hv, State.aheadOf_of_none harray, State.reading_map]

end

end Sys2Proof.Machine
end

section
/-!
Write Zeroes and a deallocation change exactly the entries of their ranges (R225, R252).
-/

namespace Sys2Proof.Machine

open Sys2Proof.Laws

section
variable {s t : State}

theorem State.dirtyPage_media {α : Type} (f : MediaSt → α) (hf : ∀ m l, f { m with resident := l } = f m) (hd : ∀ m l, f { m with dirty := l } = f m)
    (s : State) (nsid logical : Nat) : f (s.dirtyPage nsid logical).media = f s.media :=
  (hd ..).trans (State.needPage_media f hf ..)

/-! ### Entries that read as zeros -/

/-- One entry that Write Zeroes sets. -/
def State.zeroEnt (q nsid lo : Nat) (t : State) (i : Nat) : State :=
  (t.setImage fun m => { m with map := assocSet m.map (nsid, lo + i) (.zeroes q) }).dirtyPage nsid (lo + i)

theorem State.zeroEnt_map (q nsid lo : Nat) (t : State) (i : Nat) :
    (t.zeroEnt q nsid lo i).media.image.map = assocSet t.media.image.map (nsid, lo + i) (.zeroes q) :=
  (congrArg MapImage.map (State.dirtyPage_image ..) :)

theorem State.zeroEnts_mapEnt (q nsid lo m a b : Nat) (s : State) :
    ((List.range m).foldl (State.zeroEnt q nsid lo) s).mapEnt a b = if a = nsid ∧ lo ≤ b ∧ b < lo + m then some (.zeroes q) else s.mapEnt a b := by
  induction m with
  | zero => exact (if_neg (by omega)).symm
  | succ m ih =>
    rw [List.range_succ, List.foldl_concat, State.mapEnt, State.zeroEnt_map]
    by_cases he : (a, b) = (nsid, lo + m)
    · obtain ⟨rfl, rfl⟩ := Prod.mk.inj he
      rw [assoc_assocSet_same, if_pos ⟨rfl, by omega, by omega⟩]
    · have hiff : (a = nsid ∧ lo ≤ b ∧ b < lo + (m + 1)) ↔ (a = nsid ∧ lo ≤ b ∧ b < lo + m) := by
        rw [Prod.mk.injEq] at he
        omega
      rw [assoc_assocSet_other _ _ he, ← State.mapEnt, ih]
      simp only [hiff]

theorem State.zeroEnt_seq (q nsid lo : Nat) (t : State) (i : Nat) : (t.zeroEnt q nsid lo i).media.seq = t.media.seq := by
  rw [State.zeroEnt, State.dirtyPage_media MediaSt.seq (fun _ _ => rfl) fun _ _ => rfl]
  rfl

theorem State.zeroEnts_seq (q nsid lo : Nat) (l : List Nat) (s : State) : (l.foldl (State.zeroEnt q nsid lo) s).media.seq = s.media.seq :=
  foldl_keeps (fun t : State => t.media.seq) (State.zeroEnt_seq q nsid lo) l s

/-- A run of Write Zeroes before its record. -/
def State.zeroedRun (s : State) (nsid : Nat) (r : Nat × Nat) : State :=
  let hit := fun (l : Nat) => decide (r.1 ≤ l) && decide (l < r.1 + r.2)
  let t := (List.range r.2).foldl (State.zeroEnt s.media.seq nsid r.1) s
  let t := t.cancelWhere fun u => u.kind == 1 && u.nsid == nsid && hit u.logical
  let t := t.setArray fun a => { a with holes := a.holes.filter fun x => !(x.1 == nsid && hit x.2) }
  t.setMedia fun m => { m with
    hints := m.hints.filter fun h => !(h.1.1 == nsid && hit h.1.2)
    wbuf := m.wbuf.filter fun w => !(w.nsid == nsid && hit w.lba) }

theorem State.zeroRun_eq (s : State) (nsid : Nat) (r : Nat × Nat) : s.zeroRun nsid r = (s.zeroedRun nsid r).journal 0x04 r.2 nsid r.1 (0, 0) := rfl

theorem State.zeroedRun_map (s : State) (nsid : Nat) (r : Nat × Nat) :
    (s.zeroedRun nsid r).media.image.map = ((List.range r.2).foldl (State.zeroEnt s.media.seq nsid r.1) s).media.image.map := rfl

theorem State.zeroedRun_seq (s : State) (nsid : Nat) (r : Nat × Nat) : (s.zeroedRun nsid r).media.seq = s.media.seq :=
  State.zeroEnts_seq s.media.seq nsid r.1 (List.range r.2) s

theorem State.journal_map (s : State) (kind m nsid logical : Nat) (ma : Nat × Nat) : (s.journal kind m nsid logical ma).media.image.map = s.media.image.map :=
  (congrArg MapImage.map (State.image_of_sansJournal (State.journal_sansJournal s kind m nsid logical ma)) :)

theorem State.journal_mediaSeq (s : State) (kind m nsid logical : Nat) (ma : Nat × Nat) : (s.journal kind m nsid logical ma).media.seq = s.media.seq + 1 :=
  (State.seq_of_sansJournal (State.journal_sansJournal s kind m nsid logical ma) :)

theorem State.mapEnt_of_map (h : t.media.image.map = s.media.image.map) (a b : Nat) : t.mapEnt a b = s.mapEnt a b := by
  rw [State.mapEnt, h, State.mapEnt]

theorem State.zeroRun_mapEnt (s : State) (nsid lo m a b : Nat) :
    (s.zeroRun nsid (lo, m)).mapEnt a b = if a = nsid ∧ lo ≤ b ∧ b < lo + m then some (.zeroes s.media.seq) else s.mapEnt a b := by
  rw [State.zeroRun_eq, State.mapEnt_of_map ((State.journal_map ..).trans (State.zeroedRun_map ..)), State.zeroEnts_mapEnt]

theorem State.zeroRun_seq (s : State) (nsid : Nat) (r : Nat × Nat) : (s.zeroRun nsid r).media.seq = s.media.seq + 1 := by
  rw [State.zeroRun_eq, State.journal_mediaSeq, State.zeroedRun_seq]

/-- What a Write Zeroes of `m` units at `lo` makes of the map, with the SEQs that its records take (R252). -/
def ZeroedMap (s t : State) (nsid lo m : Nat) : Prop :=
  ∀ a b, if a = nsid ∧ lo ≤ b ∧ b < lo + m then ∃ q, s.media.seq ≤ q ∧ q < t.media.seq ∧ t.mapEnt a b = some (.zeroes q) else t.mapEnt a b = s.mapEnt a b

/-- A run and the runs after it. -/
theorem ZeroedMap.step {u : State} {nsid lo d m : Nat} (hle : d = min 65535 m) (hseq : t.media.seq = s.media.seq + 1) (hmono : t.media.seq ≤ u.media.seq)
    (hrun : ∀ a b, t.mapEnt a b = if a = nsid ∧ lo ≤ b ∧ b < lo + d then some (.zeroes s.media.seq) else s.mapEnt a b)
    (hrest : ZeroedMap t u nsid (lo + 65535) (m - 65535)) : ZeroedMap s u nsid lo m := by
  intro a b
  have hr := hrest a b
  have h1 := hrun a b
  by_cases hlate : a = nsid ∧ lo + 65535 ≤ b ∧ b < lo + 65535 + (m - 65535)
  · rw [if_pos hlate] at hr
    obtain ⟨q, hq, hqu, hent⟩ := hr
    rw [if_pos (by omega)]
    exact ⟨q, by omega, hqu, hent⟩
  · rw [if_neg hlate] at hr
    by_cases hfirst : a = nsid ∧ lo ≤ b ∧ b < lo + d
    · rw [if_pos hfirst] at h1
      rw [if_pos (by omega)]
      exact ⟨s.media.seq, Nat.le_refl _, by omega, hr.trans h1⟩
    · rw [if_neg hfirst] at h1
      rw [if_neg (by omega)]
      exact hr.trans h1

theorem State.zeroRuns_map (nsid f lo m : Nat) (hm : m ≤ 65535 * f) (s : State) :
    ZeroedMap s ((runsOf f lo m).foldl (fun t r => t.zeroRun nsid r) s) nsid lo m
      ∧ s.media.seq ≤ ((runsOf f lo m).foldl (fun t r => t.zeroRun nsid r) s).media.seq := by
  induction f generalizing lo m s with
  | zero => exact ⟨fun a b => by rw [if_neg (by omega)]; rfl, Nat.le_refl _⟩
  | succ f ih =>
    unfold runsOf
    split
    next h0 => exact ⟨fun a b => by rw [if_neg (by omega)]; rfl, Nat.le_refl _⟩
    next h0 =>
      obtain ⟨hrest, hmono⟩ := ih (lo + 65535) (m - 65535) (by omega) (s.zeroRun nsid (lo, min 65535 m))
      have hseq := s.zeroRun_seq nsid (lo, min 65535 m)
      exact ⟨ZeroedMap.step rfl hseq hmono (fun a b => State.zeroRun_mapEnt ..) hrest, (by omega : s.media.seq ≤ _).trans hmono⟩

/-- Write Zeroes changes the entries of its range, and no others. -/
theorem State.zeroRange_map (s : State) (nsid lo m : Nat) : ZeroedMap s (s.zeroRange nsid lo m) nsid lo m :=
  (State.zeroRuns_map nsid (m / 65535 + 1) lo m (by omega) s).1

/-! ### Entries that go -/

theorem State.unmapUnit_map (s : State) (nsid logical : Nat) :
    (s.unmapUnit nsid logical).media.image.map = s.media.image.map.filter fun x => x.1 != (nsid, logical) :=
  (congrArg MapImage.map (State.dirtyPage_image ..) :)

theorem State.unmapUnit_mapEnt (s : State) (nsid logical a b : Nat) :
    (s.unmapUnit nsid logical).mapEnt a b = if (a, b) = (nsid, logical) then none else s.mapEnt a b := by
  rw [State.mapEnt, State.unmapUnit_map]
  split
  next h => exact assoc_filter_of_dropped _ (fun x => x != (nsid, logical)) (by simp [h])
  next h => exact assoc_filter_of_kept _ (fun x => x != (nsid, logical)) (by simpa using h)

theorem State.unmapUnits_mapEnt (l : List ((Nat × Nat) × MapEnt)) (a b : Nat) (s : State) :
    (l.foldl (fun t x => t.unmapUnit x.1.1 x.1.2) s).mapEnt a b = if ∃ x ∈ l, x.1 = (a, b) then none else s.mapEnt a b := by
  induction l generalizing s with
  | nil => exact (if_neg (by simp)).symm
  | cons y l ih =>
    rw [List.foldl_cons, ih, State.unmapUnit_mapEnt]
    by_cases hy : y.1 = (a, b)
    · rw [if_pos hy.symm, ite_self, if_pos ⟨y, List.mem_cons_self, hy⟩]
    · rw [if_neg (Ne.symm hy)]
      simp only [List.mem_cons, exists_eq_or_imp, hy, false_or]

theorem assoc_eq_none {α β : Type} [DecidableEq α] {l : List (α × β)} {a : α} (h : ∀ x ∈ l, x.1 ≠ a) : assoc l a = none := by
  induction l with
  | nil => rfl
  | cons x l ih =>
    rw [assoc, if_neg (h x List.mem_cons_self)]
    exact ih fun y hy => h y (List.mem_cons_of_mem _ hy)

theorem State.journalRuns_map (s : State) (kind nsid lba m : Nat) : (s.journalRuns kind nsid lba m).media.image.map = s.media.image.map :=
  foldl_keeps (fun t : State => t.media.image.map) (fun _ _ => State.journal_map ..) _ s

/-- A deallocation clears the entries of its range, and no others (R252). -/
theorem State.deallocate_mapEnt (s : State) (nsid : Nat) (r : Nat × Nat) (a b : Nat) :
    (s.deallocate nsid r).mapEnt a b = if a = nsid ∧ r.1 ≤ b ∧ b < r.1 + r.2 then none else s.mapEnt a b := by
  have hmap : (s.deallocate nsid r).media.image.map = ((s.media.image.map.filter fun x =>
      x.1.1 == nsid && decide (r.1 ≤ x.1.2) && decide (x.1.2 < r.1 + r.2)).foldl (fun t x => t.unmapUnit x.1.1 x.1.2) s).media.image.map :=
    (State.journalRuns_map ..).trans rfl
  rw [State.mapEnt_of_map hmap, State.unmapUnits_mapEnt]
  by_cases hin : a = nsid ∧ r.1 ≤ b ∧ b < r.1 + r.2
  · rw [if_pos hin]
    split
    · rfl
    next hno =>
      refine assoc_eq_none fun x hx he => hno ⟨x, List.mem_filter.mpr ⟨hx, ?_⟩, he⟩
      simp only [he, hin, beq_self_eq_true, decide_true, Bool.and_self]
  · rw [if_neg hin, if_neg]
    rintro ⟨x, hx, he⟩
    have hhit := (List.mem_filter.mp hx).2
    simp only [he, Bool.and_eq_true, beq_iff_eq, decide_eq_true_eq, and_assoc] at hhit
    exact hin hhit

theorem State.deallocates_mapEnt (nsid : Nat) (l : List (Nat × Nat)) (a b : Nat) (s : State) :
    (l.foldl (fun t r => t.deallocate nsid r) s).mapEnt a b = if ∃ r ∈ l, a = nsid ∧ r.1 ≤ b ∧ b < r.1 + r.2 then none else s.mapEnt a b := by
  induction l generalizing s with
  | nil => exact (if_neg (by simp)).symm
  | cons r l ih =>
    rw [List.foldl_cons, ih, State.deallocate_mapEnt]
    by_cases hr : a = nsid ∧ r.1 ≤ b ∧ b < r.1 + r.2
    · rw [if_pos hr, ite_self, if_pos ⟨r, List.mem_cons_self, hr⟩]
    · simp only [List.mem_cons, exists_eq_or_imp, hr, false_or, if_false]

end

end Sys2Proof.Machine
end

section
/-!
The I/O commands of the host, one by one, and what refuses or delays them (R219, R251, R252, R458).
-/

namespace Sys2Proof.Machine

open Sys2Proof.Laws

section
variable {s t u : State} {k : CmdKey} {c : HCmd} {n : Ns} {op : Nat}

theorem State.hostActive_hcmd (h : s.hcmd k = some c) : s.hostActive.hcmd k = some c := (State.hcmd_of_sansMsix (State.hostActive_sansMsix s) k).trans h

theorem State.hostActive_cqes (s : State) : s.hostActive.host.cqes = s.host.cqes := (congrArg HostSt.cqes (State.hostActive_sansMsix s) :)

/-- A command that completes and keeps its lock stays in the list, locked. -/
theorem State.completeCmd_locked (hc : s.hcmd k = some c) : { c with phase := .locked } ∈ (s.completeCmd k Nv.ok 0 0 true).host.cmds := by
  have hmem : c ∈ s.host.cmds := List.mem_of_find?_eq_some (p := namesCmd k) hc
  rw [State.completeCmd_of_hcmd hc]
  refine State.mem_relock_cmds ?_ fun h => nomatch h
  show _ ∈ ((s.beforePost k c Nv.ok true).post _).host.cmds
  rw [State.post_cmds]
  exact List.mem_map.mpr ⟨c, hmem, if_pos (State.names_of_hcmd hc)⟩

/-! ### Writes -/

/-- The units of a Write that the buffer takes. -/
def State.bufferedUnits (s : State) (c : HCmd) (n : Ns) : List BufEnt :=
  (chunks 4096 (s.fromHost c.x.fn c.x.dptr (4096 * ioNlb c.x))).zipIdx.map fun x => ⟨n.nsid, ioLba c.x + x.2, x.1, 4096 * ioNlb c.x⟩

/-- A Write taken into the buffer, before its entry is posted. -/
def State.bufferWrite (s : State) (k : CmdKey) (c : HCmd) (n : Ns) : State :=
  ((s.setMedia fun m => { m with wbuf := m.wbuf ++ s.bufferedUnits c n }).modCmd k fun h => { h with left := ioNlb c.x }).hostActive

theorem exec_write_of_holdup (hc : s.readyCmd k 1 = some c) (hio : s.ioCheck c.x true (ioLba c.x) (ioNlb c.x) = 0) (hn : s.ioNs c.x = some n)
    (hshort : ioShort c.x (4096 * ioNlb c.x) = false) (hlost : s.pageLost n.nsid (ioLba c.x) (ioNlb c.x) = false)
    (hup : 50 ≤ s.get R.TAKE.HOLDUP_HOLDUP_MS) (hroom : s.media.wbuf.length + ioNlb c.x ≤ 16384) :
    exec (.write k) s = .next ((s.bufferWrite k c n).completeCmd k Nv.ok 0 0 true) := by
  have heq : exec (.write k) s = execWrite k s := rfl
  rw [heq, execWrite, State.ioRun_go (data := true) hc hio hn hshort hlost]
  dsimp only
  rw [if_pos hup, if_neg (Nat.not_lt.mpr hroom), List.map_map]
  rfl

theorem State.bufferWrite_hcmd (hc : s.hcmd k = some c) (n : Ns) : (s.bufferWrite k c n).hcmd k = some { c with left := ioNlb c.x } :=
  State.hostActive_hcmd (State.hcmd_modCmd (s := s.setMedia _) hc _ fun _ hh => hh)

theorem State.bufferWrite_mem (s : State) (k : CmdKey) (c : HCmd) (n : Ns) : (s.bufferWrite k c n).mem = s.mem := State.hostActive_mem _

theorem State.bufferWrite_media (s : State) (k : CmdKey) (c : HCmd) (n : Ns) :
    (s.bufferWrite k c n).media = { s.media with wbuf := s.media.wbuf ++ s.bufferedUnits c n } := State.hostActive_media _

/-! ### Write Zeroes -/

/-- The map after Write Zeroes, and the host's activity noted. -/
def State.zeroed (s : State) (c : HCmd) (n : Ns) : State := (s.zeroRange n.nsid (ioLba c.x) (ioNlb c.x)).hostActive

theorem State.zeroed_frame (s : State) (c : HCmd) (n : Ns) : forget 0x4900e0020 (s.zeroed c n) = forget 0x4900e0020 s :=
  (State.forget_hostActive rfl _).trans (State.forget_zeroRange rfl ..)

theorem State.zeroed_media (s : State) (c : HCmd) (n : Ns) : (s.zeroed c n).media = (s.zeroRange n.nsid (ioLba c.x) (ioNlb c.x)).media :=
  State.hostActive_media _

theorem State.zeroed_host (s : State) (c : HCmd) (n : Ns) : (s.zeroed c n).host.sansMsix = s.host.sansMsix :=
  (State.hostActive_sansMsix _).trans (congrArg HostSt.sansMsix (keeps_host (State.forget_zeroRange (T := 0xe0000) rfl ..) rfl))

theorem State.zeroed_hcmd (hc : s.hcmd k = some c) (n : Ns) : (s.zeroed c n).hcmd k = some c := (State.hcmd_of_sansMsix (s.zeroed_host c n) k).trans hc

theorem State.zeroed_holdup (s : State) (c : HCmd) (n : Ns) : (s.zeroed c n).get R.TAKE.HOLDUP_HOLDUP_MS = s.get R.TAKE.HOLDUP_HOLDUP_MS := by
  have hzero : (s.zeroRange n.nsid (ioLba c.x) (ioNlb c.x)).get R.TAKE.HOLDUP_HOLDUP_MS = s.get R.TAKE.HOLDUP_HOLDUP_MS :=
    State.get_of_regs (keeps_regs (State.forget_zeroRange (T := 0xe0000) rfl ..) rfl) _
  exact (State.follow_get _ (x := R.TAKE.HOLDUP_HOLDUP_MS) (by decide) (by decide)).trans hzero

/-- A Write Zeroes that waits for its record. -/
def State.zeroWaiting (t : State) (k : CmdKey) : State :=
  (t.modCmd k fun h => { h with phase := .running, left := 1 }).setMedia fun m => { m with zeroWaits := m.zeroWaits ++ [(k, t.media.seq - 1)] }

theorem State.zeroWaiting_media (t : State) (k : CmdKey) :
    (t.zeroWaiting k).media = { t.media with zeroWaits := t.media.zeroWaits ++ [(k, t.media.seq - 1)] } := rfl

theorem State.zeroWaiting_mem (t : State) (k : CmdKey) : (t.zeroWaiting k).mem = t.mem := rfl

theorem State.zeroWaiting_cqes (t : State) (k : CmdKey) : (t.zeroWaiting k).host.cqes = t.host.cqes := rfl

theorem State.zeroWaiting_hcmd (hc : t.hcmd k = some c) : (t.zeroWaiting k).hcmd k = some { c with phase := .running, left := 1 } := by
  refine State.hcmd_modCmd hc (fun h => { h with phase := .running, left := 1 }) fun h hh => ?_
  simp only [namesCmd, Bool.and_eq_true] at hh ⊢
  exact ⟨hh.1, rfl⟩

theorem exec_writeZeroes (hc : s.readyCmd k 8 = some c) (hio : s.ioCheck c.x true (ioLba c.x) (ioNlb c.x) = 0) (hn : s.ioNs c.x = some n)
    (hlost : s.pageLost n.nsid (ioLba c.x) (ioNlb c.x) = false) :
    exec (.writeZeroes k) s = .next (if 50 ≤ s.get R.TAKE.HOLDUP_HOLDUP_MS then (s.zeroed c n).completeCmd k Nv.ok else (s.zeroed c n).zeroWaiting k) := by
  have heq : exec (.writeZeroes k) s = execWriteZeroes k s := rfl
  rw [heq, execWriteZeroes, State.ioRun_go (data := false) hc hio hn rfl hlost]
  dsimp only
  rw [← State.zeroed, State.zeroed_holdup]
  rfl

/-! ### Deallocation -/

theorem exec_datasetManagement_of_outOfRange (hc : s.readyCmd k 9 = some c) (hio : s.ioCheck c.x true 0 0 = 0) (hn : s.ioNs c.x = some n)
    (hout : ∃ r ∈ s.dsmRanges c.x, n.nsze < r.1 + r.2) : exec (.datasetManagement k) s = .next (s.completeCmd k Nv.outOfRange) := by
  have heq : exec (.datasetManagement k) s = execDatasetManagement k s := rfl
  obtain ⟨r, hr, hlt⟩ := hout
  rw [heq, execDatasetManagement]
  simp only [hc, hn, hio]
  rw [if_pos (List.any_eq_true.mpr ⟨r, hr, decide_eq_true hlt⟩)]

/-- The map after a deallocation, and the host's activity noted. -/
def State.deallocated (s : State) (c : HCmd) (n : Ns) : State := ((s.dsmRanges c.x).foldl (fun t r => t.deallocate n.nsid r) s).hostActive

theorem exec_datasetManagement (hc : s.readyCmd k 9 = some c) (hio : s.ioCheck c.x true 0 0 = 0) (hn : s.ioNs c.x = some n)
    (hfit : ∀ r ∈ s.dsmRanges c.x, r.1 + r.2 ≤ n.nsze ∧ s.pageLost n.nsid r.1 r.2 = false) (hbit : bitAt c.x.cdw11 2 = true) :
    exec (.datasetManagement k) s = .next ((s.deallocated c n).completeCmd k Nv.ok) := by
  have heq : exec (.datasetManagement k) s = execDatasetManagement k s := rfl
  have hin : ¬ ((s.dsmRanges c.x).any fun r => decide (n.nsze < r.1 + r.2)) = true := by
    rw [List.any_eq_true]
    rintro ⟨r, hr, hlt⟩
    exact Nat.not_lt.mpr (hfit r hr).1 (of_decide_eq_true hlt)
  have hpages : ¬ ((s.dsmRanges c.x).any fun r => s.pageLost n.nsid r.1 r.2) = true := by
    rw [List.any_eq_true]
    rintro ⟨r, hr, hlost⟩
    exact absurd hlost (by rw [(hfit r hr).2]; decide)
  rw [heq, execDatasetManagement]
  simp only [hc, hn, hio]
  rw [if_neg hin, if_neg hpages, hbit]
  rfl

theorem State.deallocates_frame (s : State) (c : HCmd) (n : Ns) :
    forget 0xe0000 ((s.dsmRanges c.x).foldl (fun t r => t.deallocate n.nsid r) s) = forget 0xe0000 s :=
  foldl_frame _ _ (fun _ _ => State.forget_deallocate rfl ..) _ s

theorem State.deallocated_hcmd (hc : s.hcmd k = some c) (n : Ns) : (s.deallocated c n).hcmd k = some c :=
  State.hostActive_hcmd ((State.hcmd_of_host (keeps_host (s.deallocates_frame c n) rfl) k).trans hc)

theorem State.deallocated_mem (s : State) (c : HCmd) (n : Ns) : (s.deallocated c n).mem = s.mem :=
  (State.hostActive_mem _).trans (keeps_mem (s.deallocates_frame c n) rfl)

/-! ### Flush -/

theorem exec_flush (hc : s.readyCmd k 0 = some c) (hn : (s.ioNs c.x).isSome = true) (hoff : s.offline = false) :
    exec (.flush k) s = .next (s.completeCmd k Nv.ok) := by
  obtain ⟨n, hn⟩ := Option.isSome_iff_exists.mp hn
  have heq : exec (.flush k) s = execFlush k s := rfl
  rw [heq, execFlush]
  simp only [hc, hn, hoff]
  rfl

/-! ### Commands that queue a job on an engine -/

/-- An engine command once its job waits. -/
def State.jobQueued (s : State) (k : CmdKey) (c : HCmd) (e : Nat) : State :=
  ((s.modCmd k fun h => { h with phase := .running }).hostActive).submitJob (.host k.fn) e k.fn (s.fromHost k.fn c.x.dptr 64) none (some k)

theorem State.engineCmd_queues {e : Nat} (hc : s.readyCmd k op = some c) (hn : s.ioNs c.x = some n) (hkind : n.kind = .compute)
    (hid : n.nsid = 0x400 + k.fn) (hoff : s.offline = false) (hlen : 64 ≤ dptrLen c.x.dptr)
    (hroom : e = 0 → (s.jobs.queue.filter (·.engine == 0)).length < 1024) : s.engineCmd k op e = .next (s.jobQueued k c e) := by
  have hfull : ¬ (e = 0 ∧ 1024 ≤ (s.jobs.queue.filter (·.engine == 0)).length) := fun h => Nat.not_le.mpr (hroom h.1) h.2
  have hns : ¬ (n.kind ≠ .compute ∨ n.nsid ≠ 0x400 + k.fn) := by rw [hkind, hid]; simp
  simp only [State.engineCmd, hc, hn]
  rw [if_neg hns, hoff, if_neg Bool.false_ne_true, if_neg (Nat.not_lt.mpr hlen), if_neg hfull]
  rfl

theorem State.jobQueued_spec (hc : s.hcmd k = some c) (e : Nat) :
    (s.jobQueued k c e).jobs.queue = s.jobs.queue ++ [⟨s.jobs.next, .host k.fn, e, k.fn, s.fromHost k.fn c.x.dptr 64, none, some k⟩]
      ∧ (s.jobQueued k c e).hcmd k = some { c with phase := .running } ∧ (s.jobQueued k c e).mem = s.mem
      ∧ (s.jobQueued k c e).host.cqes = s.host.cqes := by
  have hjobs : (State.hostActive (s.modCmd k fun h => { h with phase := .running })).jobs = s.jobs :=
    (keeps_jobs (State.forget_hostActive (T := 0x490000020) rfl _) rfl).trans rfl
  refine ⟨?_, State.hostActive_hcmd (State.hcmd_modCmd hc _ fun h hh => ?_), State.hostActive_mem _, State.hostActive_cqes _⟩
  · show (State.hostActive _).jobs.queue ++ [(⟨(State.hostActive _).jobs.next, _, _, _, _, _, _⟩ : Job)] = _
    rw [hjobs]
  · simp only [namesCmd, Bool.and_eq_true] at hh ⊢
    exact ⟨hh.1, rfl⟩

/-! ### The memory commands -/

theorem State.slmRun_go {b : Nat × Nat} {go : State → HCmd → Nat → Nat → State} (hc : s.hcmd k = some c) (hphase : c.phase = .ready)
    (hn : s.ioNs c.x = some n) (hkind : n.kind = .memory) (hoff : s.offline = false) (hb : s.slmBase c.x = some b) :
    s.slmRun k go = .next (go s c b.1 b.2) := by
  simp only [State.slmRun, hc, hn, hb]
  rw [if_neg (not_not.mpr hphase), if_neg (not_not.mpr hkind), hoff, if_neg Bool.false_ne_true]

end

end Sys2Proof.Machine
end

section
/-!
The memory commands and FRAME READ (R76, R251), and the statement of the host's commands.
-/

namespace Sys2Proof.Machine

open Sys2Proof.Laws

section
variable {s t u : State} {k : CmdKey} {c : HCmd} {n : Ns} {op : Nat}

/-- A command that a memory command can be: in its memory namespace, within it, with a data pointer that is long enough. -/
structure SlmReady (s : State) (k : CmdKey) (c : HCmd) (n : Ns) (b : Nat × Nat) : Prop where
  hcmd : s.hcmd k = some c
  phase : c.phase = .ready
  ns : s.ioNs c.x = some n
  kind : n.kind = .memory
  online : s.offline = false
  base : s.slmBase c.x = some b

theorem SlmReady.run {b : Nat × Nat} (h : SlmReady s k c n b) (go : State → HCmd → Nat → Nat → State) : s.slmRun k go = .next (go s c b.1 b.2) :=
  State.slmRun_go h.hcmd h.phase h.ns h.kind h.online h.base

theorem SlmReady.memoryRead {b : Nat × Nat} {bs : Bytes} (h : SlmReady s k c n b) (hfit : slmByte c.x + c.x.cdw12 ≤ b.2)
    (hshort : ioShort c.x c.x.cdw12 = false) (hpoison : s.mem.poisoned .dram (b.1 + slmByte c.x) c.x.cdw12 = false)
    (hread : s.xread k.fn (slmVa + slmByte c.x) c.x.cdw12 = .ok bs) :
    exec (.memoryRead k) s = .next (((s.toHost k.fn c.x.dptr bs).hostActive).completeCmd k Nv.ok) := by
  have heq : exec (.memoryRead k) s = execMemoryRead k s := rfl
  rw [heq, execMemoryRead, h.run]
  dsimp only
  rw [if_neg (Nat.not_lt.mpr hfit), hshort, hpoison, if_neg Bool.false_ne_true, if_neg Bool.false_ne_true, hread]

theorem SlmReady.memoryRead_poisoned {b : Nat × Nat} (h : SlmReady s k c n b) (hfit : slmByte c.x + c.x.cdw12 ≤ b.2)
    (hshort : ioShort c.x c.x.cdw12 = false) (hpoison : s.mem.poisoned .dram (b.1 + slmByte c.x) c.x.cdw12 = true) :
    exec (.memoryRead k) s = .next (s.completeCmd k Nv.unrecovered) := by
  have heq : exec (.memoryRead k) s = execMemoryRead k s := rfl
  rw [heq, execMemoryRead, h.run]
  dsimp only
  rw [if_neg (Nat.not_lt.mpr hfit), hshort, hpoison, if_neg Bool.false_ne_true, if_pos rfl]

/-- What a Memory Write does once its checks pass, by whether every page of it may be written. -/
theorem SlmReady.memoryWrite {b : Nat × Nat} (h : SlmReady s k c n b) (hfit : slmByte c.x + c.x.cdw12 ≤ b.2)
    (hshort : ioShort c.x c.x.cdw12 = false) :
    exec (.memoryWrite k) s = .next (match s.xwrite k.fn (slmVa + slmByte c.x) (s.fromHost k.fn c.x.dptr c.x.cdw12) with
      | .error x => (s.xlateFault k.fn x 0 true false true).completeCmd k Nv.dataError
      | .ok t => t.hostActive.completeCmd k Nv.ok) := by
  have heq : exec (.memoryWrite k) s = execMemoryWrite k s := rfl
  rw [heq, execMemoryWrite, h.run]
  dsimp only
  rw [if_neg (Nat.not_lt.mpr hfit), hshort]
  exact congrArg Host.Outcome.next (if_neg Bool.false_ne_true)

/-- The state after a write through the function's translations. -/
def State.xwritten (s : State) (f va : Nat) (bs : Bytes) : State := { s with mem := xwriteAux s.xlate f (piecesOf va bs.length) bs s.mem }

theorem State.xwrite_of_granted {f va : Nat} {bs : Bytes} (h : xfault s.xlate f .w (piecesOf va bs.length) = none) :
    s.xwrite f va bs = .ok (s.xwritten f va bs) := by
  simp only [State.xwrite, h]
  rfl

theorem State.xwrite_of_fault {f va a : Nat} {bs : Bytes} (h : xfault s.xlate f .w (piecesOf va bs.length) = some a) : s.xwrite f va bs = .error a := by
  simp only [State.xwrite, h]

theorem State.xlateFault_hcmd (hc : s.hcmd k = some c) (f va core : Nat) (w i host : Bool) : (s.xlateFault f va core w i host).hcmd k = some c := by
  refine (State.hcmd_of_sansMsix ?_ k).trans hc
  rw [State.xlateFault, sansMsix_ite, State.record_sansMsix, State.pulse_sansMsix]
  exact ite_self _

theorem SlmReady.memoryRead_spec {b : Nat × Nat} {bs : Bytes} (h : SlmReady s k c n b) (hfit : slmByte c.x + c.x.cdw12 ≤ b.2)
    (hshort : ioShort c.x c.x.cdw12 = false) (hpoison : s.mem.poisoned .dram (b.1 + slmByte c.x) c.x.cdw12 = false)
    (hread : s.xread k.fn (slmVa + slmByte c.x) c.x.cdw12 = .ok bs) :
    ∃ t : State, exec (.memoryRead k) s = .next t ∧ t.Posted k 0 0 0 ∧ t.mem = dptrWrite (hostTarget k.fn) c.x.dptr bs s.mem :=
  ⟨_, h.memoryRead hfit hshort hpoison hread,
    State.completeCmd_posted (State.hostActive_hcmd ((State.hcmd_of_host (t := s.toHost k.fn c.x.dptr bs) rfl k).trans h.hcmd)) ..,
    (State.completeCmd_mem ..).trans (State.hostActive_mem _)⟩

theorem SlmReady.memoryWrite_spec {b : Nat × Nat} {out : Bytes} (h : SlmReady s k c n b) (hfit : slmByte c.x + c.x.cdw12 ≤ b.2)
    (hshort : ioShort c.x c.x.cdw12 = false) (hout : out = s.fromHost k.fn c.x.dptr c.x.cdw12) :
    (xfault s.xlate k.fn .w (piecesOf (slmVa + slmByte c.x) out.length) = none →
      ∃ t : State, exec (.memoryWrite k) s = .next t ∧ t.Posted k 0 0 0
        ∧ t.mem = xwriteAux s.xlate k.fn (piecesOf (slmVa + slmByte c.x) out.length) out s.mem)
    ∧ ∀ a, xfault s.xlate k.fn .w (piecesOf (slmVa + slmByte c.x) out.length) = some a →
      ∃ t : State, exec (.memoryWrite k) s = .next t ∧ t.Posted k Nv.dataError 0 0 ∧ t.mem = s.mem := by
  have hexec := h.memoryWrite hfit hshort
  rw [← hout] at hexec
  refine ⟨fun hx => ?_, fun a hx => ?_⟩
  · rw [State.xwrite_of_granted hx] at hexec
    exact ⟨_, hexec, State.completeCmd_posted (State.hostActive_hcmd ((State.hcmd_of_host (t := s.xwritten k.fn (slmVa + slmByte c.x) out) rfl k).trans h.hcmd)) ..,
      (State.completeCmd_mem ..).trans (State.hostActive_mem _)⟩
  · rw [State.xwrite_of_fault hx] at hexec
    exact ⟨_, hexec, State.completeCmd_posted (State.xlateFault_hcmd h.hcmd ..) ..,
      (State.completeCmd_mem ..).trans (keeps_mem (State.forget_xlateFault (T := 0x480000420) rfl ..) rfl)⟩

theorem SlmReady.memoryCopy {b : Nat × Nat} {r : Nat × Nat × Nat} (h : SlmReady s k c n b) (hone : s.copySources c.x = [r])
    (hio : s.ioCheck { c.x with nsid := r.1 } false r.2.1 r.2.2 = 0) (hfit : slmByte c.x + 4096 * r.2.2 ≤ b.2)
    (hlost : s.pageLost r.1 r.2.1 r.2.2 = false) : exec (.memoryCopy k) s = .next (s.startReads k [r]) := by
  have heq : exec (.memoryCopy k) s = execMemoryCopy k s := rfl
  rw [heq, execMemoryCopy, h.run]
  simp only [hone, List.findSome?_cons, List.findSome?_nil, hio, if_true, List.map_cons, List.map_nil, List.foldl_cons, List.foldl_nil, Nat.zero_add,
    List.any_cons, List.any_nil, hlost, Bool.or_false]
  rw [if_neg (Nat.not_lt.mpr hfit), if_neg Bool.false_ne_true]

/-! ### FRAME READ of a frame's own record -/

/-- The answer to FRAME READ for the part that is the frame's record, `fr`, found at `fo`. -/
def State.frameAnswer (u : State) (k : CmdKey) (c : HCmd) (fr : Bytes) (bad : List Nat) (fo off len : Nat) : State :=
  if lostIn bad fo fr.length = true then u.completeCmd k Nv.unrecovered
  else if fr.length ≤ off then u.completeCmd k Nv.badField
  else ((u.toHost c.x.fn c.x.dptr (sliceBytes fr off (min len (fr.length - off)))).hostActive).completeCmd k Nv.ok (min len (fr.length - off)) (frameDw1 fr 0)

/-- The answer to FRAME READ, whether it found the frame or not. -/
def State.frameFound (u : State) (k : CmdKey) (c : HCmd) (cont : Bytes) (bad : List Nat) (off len : Nat) : Option Nat → State
  | none => u.completeCmd k Nv.frameNotFound
  | some fo => u.frameAnswer k c (recAt cont fo) bad fo off len

/-- A FRAME READ of the frame's record that may read the take's container. -/
structure FrameReady (s : State) (k : CmdKey) (c : HCmd) (n : Ns) : Prop where
  ready : s.readyCmd k 0x82 = some c
  ns : s.ioNs c.x = some n
  kind : n.kind = .take
  online : s.offline = false
  kek : s.keys.kekMedia ≠ none
  some_ : c.x.cdw15 % 2 ^ 27 ≠ 0
  bounded : c.x.cdw15 % 2 ^ 27 ≤ 67108864
  part : bits c.x.cdw12 8 3 = 3
  room : c.x.cdw15 % 2 ^ 27 ≤ dptrLen c.x.dptr
  paged : s.pageLost n.nsid 0 n.nuse = false
  synced : (s.aheadOf n.nsid 0 n.nuse).resyncFirst n.nsid 0 n.nuse = false
  pipes : s.readyPipes ≠ []

/- The two reads are made opaque and the tail is a lemma of its own, so that the kernel compares the branches without evaluating them. -/
theorem FrameReady.exec_frameRead {cont : Bytes} {bad : List Nat} {at_ size : Nat} {fo : Option Nat} (h : FrameReady s k c n) (hcont : s.containerOf n = (cont, bad, u))
    (hat : at_ = c.x.cdw13 + c.x.cdw14 % 256 * 2 ^ 32) (hsize : size = c.x.cdw15 % 2 ^ 27)
    (hfo : fo = findFrame n cont (c.x.cdw10 + c.x.cdw11 * 2 ^ 32) (c.x.cdw12 % 8) (c.x.cdw12 / 2 ^ 16)) :
    exec (.frameRead k) s = .next (u.frameFound k c cont bad at_ size fo) := by
  have heq : exec (.frameRead k) s = execFrameRead k s := rfl
  have hkek : ¬ s.keys.kekMedia.isNone = true := fun e => h.kek (Option.isNone_iff_eq_none.mp e)
  have hpipes : ¬ s.readyPipes.isEmpty = true := fun e => h.pipes (List.isEmpty_iff.mp e)
  rw [heq, execFrameRead]
  generalize findFrame = find at hfo ⊢
  generalize State.containerOf = container at hcont ⊢
  split
  next hnone => rw [h.ready] at hnone; cases hnone
  next c' hc' =>
    obtain rfl : c = c' := Option.some.inj (h.ready.symm.trans hc')
    extract_lets x part off len
    have hpart : part = 3 := h.part
    have hroom : len ≤ dptrLen x.dptr := h.room
    have hlen : ¬ (3 < part ∨ len = 0 ∨ 67108864 < len) := by
      rintro (h3 | h0 | hb)
      · exact absurd h3 (by rw [hpart]; decide)
      · exact h.some_ h0
      · exact Nat.not_lt.mpr h.bounded hb
    have hx : c.x = x := rfl
    have hoff' : at_ = off := hat
    have hsize' : size = len := hsize
    clear_value part off len x
    subst hpart hoff' hsize' hx
    split
    next hnone => rw [h.ns] at hnone; cases hnone
    next n' hn' =>
      obtain rfl : n = n' := Option.some.inj (h.ns.symm.trans hn')
      rw [if_neg (not_not.mpr h.kind), if_neg (Bool.eq_false_iff.mp h.online), if_neg hkek, if_neg hlen, if_neg (Nat.not_lt.mpr hroom),
        if_neg (fun e => absurd e.1 (by decide)), if_neg (Bool.eq_false_iff.mp h.paged), if_neg (Bool.eq_false_iff.mp h.synced), if_neg hpipes]
      clear hc' hn' hkek hpipes heq hlen hroom hat hsize h
      as_aux_lemma =>
        split
        next cont' bad' u' hcont' =>
          cases hcont.symm.trans hcont'
          split
          next hf =>
            cases hfo.trans hf
            rfl
          next a hf =>
            cases hfo.trans hf
            extract_lets fr st first rs one body sizeOf_ whole m sl gone out
            have hwhole : whole = fr.length := rfl
            have hm : m = min size (fr.length - at_) := rfl
            have hout : out = some (sliceBytes fr at_ m, 0) := rfl
            have hfr : fr = recAt cont a := rfl
            clear_value whole m out first fr
            subst hwhole hm hout hfr
            rw [State.frameFound, State.frameAnswer]
            by_cases hl : lostIn bad a (recAt cont a).length = true
            · rw [if_pos hl, if_pos (Bool.or_eq_true_iff.mpr (.inl hl))]
            · have hgone : ¬ (lostIn bad a (recAt cont a).length || (3 != 0 && 3 != 3 && (recAt cont a).length == 0 && lostIn bad first (a - first))) = true := by
                rw [Bool.eq_false_iff.mpr hl]
                exact Bool.false_ne_true
              rw [if_neg hl, if_neg hgone]
              by_cases ho : (recAt cont a).length ≤ at_
              · rw [if_pos ho, if_pos ho]
              · rw [if_neg ho, if_neg ho]

/-- Reading a container without stripes to resynchronise leaves the map alone. -/
theorem State.containerOf_media (howed : s.array.owed = []) {cont : Bytes} {bad : List Nat} (hcont : s.containerOf n = (cont, bad, u)) : u.media = s.media := by
  have h : (s.containerOf n).2.2.media = s.media := by
    have hkey := State.forget_mediaKey (T := 0x100020) rfl s n.keyRec n.keySeq
    unfold State.containerOf
    rw [State.aheadOf_of_none howed]
    split
    next heq => rw [heq] at hkey; exact keeps_media hkey rfl
    next key t heq =>
      rw [heq] at hkey
      refine Eq.trans (List.foldlRecOn _ (motive := fun p : Bytes × List Nat × State => p.2.2.media = t.media) _ rfl fun p hp i _ => Eq.trans ?_ hp)
        (keeps_media hkey rfl)
      have hread : (p.2.2.readPlain key n.nsid i).2.media = p.2.2.media := keeps_media (State.forget_readPlain (T := 0x480020420) rfl ..) rfl
      split <;> next heq => rwa [heq] at hread
  rwa [hcont] at h

theorem State.frameAnswer_media (u : State) (k : CmdKey) (c : HCmd) (fr : Bytes) (bad : List Nat) (fo off len : Nat) :
    (u.frameAnswer k c fr bad fo off len).media = u.media := by
  unfold State.frameAnswer
  split
  · exact State.completeCmd_media ..
  · split
    · exact State.completeCmd_media ..
    · exact (State.completeCmd_media ..).trans (State.hostActive_media _)

end

end Sys2Proof.Machine
end

section
/-!
The statement of the host's I/O commands.
-/

namespace Sys2Proof.Machine

open Sys2Proof.Laws

section
variable {s t u : State} {k : CmdKey} {c : HCmd} {n : Ns} {op : Nat}

/-- A Write that the buffer takes completes, keeps its lock and changes nothing durable (R219). -/
theorem write_buffered (hc : s.readyCmd k 1 = some c) (hio : s.ioCheck c.x true (ioLba c.x) (ioNlb c.x) = 0) (hn : s.ioNs c.x = some n)
    (hshort : ioShort c.x (4096 * ioNlb c.x) = false) (hlost : s.pageLost n.nsid (ioLba c.x) (ioNlb c.x) = false)
    (hup : 50 ≤ s.get R.TAKE.HOLDUP_HOLDUP_MS) (hroom : s.media.wbuf.length + ioNlb c.x ≤ 16384) :
    ∃ t : State, exec (.write k) s = .next t ∧ t.Posted k 0 0 0 ∧ t.mem = s.mem ∧ t.media.wbuf = s.media.wbuf ++ s.bufferedUnits c n
      ∧ (∃ h ∈ t.host.cmds, h.x = c.x ∧ h.locks = c.locks ∧ h.phase = .locked ∧ h.left = ioNlb c.x) ∧ t.media.image = s.media.image := by
  obtain ⟨hcmd, -, -⟩ := State.hcmd_of_readyCmd hc
  have hbuf := State.bufferWrite_hcmd hcmd n
  have hmedia := (State.completeCmd_media (s.bufferWrite k c n) k Nv.ok 0 0 true).trans (s.bufferWrite_media k c n)
  exact ⟨_, exec_write_of_holdup hc hio hn hshort hlost hup hroom, State.completeCmd_posted hbuf .., (State.completeCmd_mem ..).trans (s.bufferWrite_mem k c n),
    congrArg MediaSt.wbuf hmedia, ⟨_, State.completeCmd_locked hbuf, rfl, rfl, rfl, rfl⟩, (congrArg MediaSt.image hmedia :)⟩

/-- Write Zeroes changes its entries, and ends at once under hold-up and else with its record (R252). -/
theorem writeZeroes_runs (hc : s.readyCmd k 8 = some c) (hio : s.ioCheck c.x true (ioLba c.x) (ioNlb c.x) = 0) (hn : s.ioNs c.x = some n)
    (hlost : s.pageLost n.nsid (ioLba c.x) (ioNlb c.x) = false) :
    ∃ t : State, exec (.writeZeroes k) s = .next t ∧ t.mem = s.mem ∧ ZeroedMap s t n.nsid (ioLba c.x) (ioNlb c.x)
      ∧ (50 ≤ s.get R.TAKE.HOLDUP_HOLDUP_MS → t.Posted k 0 0 0)
      ∧ (s.get R.TAKE.HOLDUP_HOLDUP_MS < 50 → t.host.cqes = s.host.cqes ∧ (k, t.media.seq - 1) ∈ t.media.zeroWaits
          ∧ t.hcmd k = some { c with phase := .running, left := 1 }) := by
  obtain ⟨hcmd, -, -⟩ := State.hcmd_of_readyCmd hc
  have hexec := exec_writeZeroes hc hio hn hlost
  have hz := State.zeroed_hcmd hcmd n
  have hmem : (s.zeroed c n).mem = s.mem := keeps_mem (s.zeroed_frame c n) rfl
  have hmap (t : State) (ht : t.media.image.map = (s.zeroed c n).media.image.map) (hseq : t.media.seq = (s.zeroed c n).media.seq) :
      ZeroedMap s t n.nsid (ioLba c.x) (ioNlb c.x) := by
    intro a b
    rw [State.mapEnt_of_map (t := t) (s := s.zeroRange n.nsid (ioLba c.x) (ioNlb c.x)) (ht.trans (by rw [State.zeroed_media])), hseq, State.zeroed_media]
    exact s.zeroRange_map n.nsid (ioLba c.x) (ioNlb c.x) a b
  by_cases hup : 50 ≤ s.get R.TAKE.HOLDUP_HOLDUP_MS
  · rw [if_pos hup] at hexec
    have hmedia := State.completeCmd_media (s.zeroed c n) k Nv.ok 0 0 false
    exact ⟨_, hexec, (State.completeCmd_mem ..).trans hmem, hmap _ (by rw [hmedia]) (by rw [hmedia]), fun _ => State.completeCmd_posted hz ..,
      fun h => absurd hup (Nat.not_le.mpr h)⟩
  · rw [if_neg hup] at hexec
    have hmedia := (s.zeroed c n).zeroWaiting_media k
    refine ⟨_, hexec, (State.zeroWaiting_mem ..).trans hmem, hmap _ (by rw [hmedia]) (by rw [hmedia]), fun h => absurd h hup,
      fun _ => ⟨(State.zeroWaiting_cqes ..).trans (congrArg HostSt.cqes (s.zeroed_host c n) :), ?_, State.zeroWaiting_hcmd hz⟩⟩
    rw [hmedia]
    exact List.mem_append_right _ (List.mem_singleton_self _)

/-- A deallocation clears its ranges' entries alone and completes (R252). -/
theorem datasetManagement_runs (hc : s.readyCmd k 9 = some c) (hio : s.ioCheck c.x true 0 0 = 0) (hn : s.ioNs c.x = some n)
    (hfit : ∀ r ∈ s.dsmRanges c.x, r.1 + r.2 ≤ n.nsze ∧ s.pageLost n.nsid r.1 r.2 = false) (hbit : bitAt c.x.cdw11 2 = true) :
    ∃ t : State, exec (.datasetManagement k) s = .next t ∧ t.Posted k 0 0 0 ∧ t.mem = s.mem
      ∧ (∀ r ∈ s.dsmRanges c.x, ∀ b, r.1 ≤ b → b < r.1 + r.2 → t.mapEnt n.nsid b = none)
      ∧ (∀ a b, (a ≠ n.nsid ∨ ∀ r ∈ s.dsmRanges c.x, b < r.1 ∨ r.1 + r.2 ≤ b) → t.mapEnt a b = s.mapEnt a b) := by
  obtain ⟨hcmd, -, -⟩ := State.hcmd_of_readyCmd hc
  have hmap (a b : Nat) : ((s.deallocated c n).completeCmd k Nv.ok).mapEnt a b =
      if ∃ r ∈ s.dsmRanges c.x, a = n.nsid ∧ r.1 ≤ b ∧ b < r.1 + r.2 then none else s.mapEnt a b := by
    rw [← State.deallocates_mapEnt]
    exact State.mapEnt_of_map (by rw [State.completeCmd_media, State.deallocated, State.hostActive_media]) a b
  refine ⟨_, exec_datasetManagement hc hio hn hfit hbit, State.completeCmd_posted (State.deallocated_hcmd hcmd n) ..,
    (State.completeCmd_mem ..).trans (s.deallocated_mem c n), fun r hr b hlo hhi => ?_, fun a b h => ?_⟩
  · rw [hmap, if_pos ⟨r, hr, rfl, hlo, hhi⟩]
  · rw [hmap, if_neg]
    rintro ⟨r, hr, rfl, hlo, hhi⟩
    rcases h with h | h
    · exact h rfl
    · have := h r hr
      omega

theorem State.frameFound_media (u : State) (k : CmdKey) (c : HCmd) (cont : Bytes) (bad : List Nat) (off len : Nat) (fo : Option Nat) :
    (u.frameFound k c cont bad off len fo).media = u.media := by
  cases fo with
  | none => exact State.completeCmd_media ..
  | some a => exact State.frameAnswer_media ..

/-- What an answered FRAME READ posts and writes. -/
theorem State.frameFound_spec {cont : Bytes} {bad : List Nat} {off len : Nat} {fo : Option Nat} (hu : u.hcmd k = some c) :
    ∃ cq : Nat,
      (fo = none → (⟨k.fn, cq, k.sq, k.cid, Nv.frameNotFound, 0, 0⟩ : Cqe) ∈ (u.frameFound k c cont bad off len fo).host.cqes)
      ∧ (∀ a r m, fo = some a → r = recAt cont a → lostIn bad a r.length = false → off < r.length → m = min len (r.length - off) →
          (⟨k.fn, cq, k.sq, k.cid, 0, m, frameDw1 r 0⟩ : Cqe) ∈ (u.frameFound k c cont bad off len fo).host.cqes
            ∧ (u.frameFound k c cont bad off len fo).mem = dptrWrite (hostTarget c.x.fn) c.x.dptr (sliceBytes r off m) u.mem)
      ∧ (∀ a, fo = some a → lostIn bad a (recAt cont a).length = true →
          (⟨k.fn, cq, k.sq, k.cid, Nv.unrecovered, 0, 0⟩ : Cqe) ∈ (u.frameFound k c cont bad off len fo).host.cqes)
      ∧ (∀ a, fo = some a → lostIn bad a (recAt cont a).length = false → (recAt cont a).length ≤ off →
          (⟨k.fn, cq, k.sq, k.cid, Nv.badField, 0, 0⟩ : Cqe) ∈ (u.frameFound k c cont bad off len fo).host.cqes) := by
  cases fo with
  | none =>
    obtain ⟨cq, hposted⟩ := State.completeCmd_posted hu Nv.frameNotFound 0 0 false
    exact ⟨cq, fun _ => hposted, fun _ _ _ h => (nomatch h), fun _ h => (nomatch h), fun _ h => nomatch h⟩
  | some a =>
    rw [State.frameFound, State.frameAnswer]
    by_cases hl : lostIn bad a (recAt cont a).length = true
    · obtain ⟨cq, hposted⟩ := State.completeCmd_posted hu Nv.unrecovered 0 0 false
      rw [if_pos hl]
      refine ⟨cq, fun h => (nomatch h), ?_, fun _ _ _ => hposted, ?_⟩
      · rintro b r m ⟨⟩ rfl hno
        exact absurd hl (Bool.eq_false_iff.mp hno)
      · rintro b ⟨⟩ hno
        exact absurd hl (Bool.eq_false_iff.mp hno)
    · rw [if_neg hl]
      by_cases ho : (recAt cont a).length ≤ off
      · obtain ⟨cq, hposted⟩ := State.completeCmd_posted hu Nv.badField 0 0 false
        rw [if_pos ho]
        refine ⟨cq, fun h => (nomatch h), ?_, ?_, fun _ _ _ _ => hposted⟩
        · rintro b r m ⟨⟩ rfl - hlt
          exact absurd ho (Nat.not_le.mpr hlt)
        · rintro b ⟨⟩ hyes
          exact absurd hyes hl
      · rw [if_neg ho]
        obtain ⟨cq, hposted⟩ := State.completeCmd_posted (State.hostActive_hcmd (s := u.toHost c.x.fn c.x.dptr
          (sliceBytes (recAt cont a) off (min len ((recAt cont a).length - off)))) hu) Nv.ok (min len ((recAt cont a).length - off))
          (frameDw1 (recAt cont a) 0) false
        refine ⟨cq, fun h => (nomatch h), ?_, ?_, ?_⟩
        · rintro b r m ⟨⟩ rfl - - rfl
          exact ⟨hposted, (State.completeCmd_mem ..).trans (State.hostActive_mem _)⟩
        · rintro b ⟨⟩ hyes
          exact absurd hyes hl
        · rintro b ⟨⟩ - hpast
          exact absurd hpast ho

/-- A FRAME READ of the frame's record is answered with its bytes, or with why not (R76, R251). -/
theorem frameRead_answers {cont : Bytes} {bad : List Nat} {off len : Nat} {fo : Option Nat} (h : FrameReady s k c n) (hcont : s.containerOf n = (cont, bad, u))
    (hat : off = c.x.cdw13 + c.x.cdw14 % 256 * 2 ^ 32) (hlen : len = c.x.cdw15 % 2 ^ 27)
    (hfo : fo = findFrame n cont (c.x.cdw10 + c.x.cdw11 * 2 ^ 32) (c.x.cdw12 % 8) (c.x.cdw12 / 2 ^ 16)) (hu : u.hcmd k = some c) :
    ∃ (t : State) (cq : Nat), exec (.frameRead k) s = .next t ∧ (s.array.owed = [] → t.media.image.map = s.media.image.map)
      ∧ (fo = none → (⟨k.fn, cq, k.sq, k.cid, Nv.frameNotFound, 0, 0⟩ : Cqe) ∈ t.host.cqes)
      ∧ (∀ a r m, fo = some a → r = recAt cont a → lostIn bad a r.length = false → off < r.length → m = min len (r.length - off) →
          (⟨k.fn, cq, k.sq, k.cid, 0, m, frameDw1 r 0⟩ : Cqe) ∈ t.host.cqes ∧ t.mem = dptrWrite (hostTarget c.x.fn) c.x.dptr (sliceBytes r off m) u.mem)
      ∧ (∀ a, fo = some a → lostIn bad a (recAt cont a).length = true → (⟨k.fn, cq, k.sq, k.cid, Nv.unrecovered, 0, 0⟩ : Cqe) ∈ t.host.cqes)
      ∧ (∀ a, fo = some a → lostIn bad a (recAt cont a).length = false → (recAt cont a).length ≤ off →
          (⟨k.fn, cq, k.sq, k.cid, Nv.badField, 0, 0⟩ : Cqe) ∈ t.host.cqes) := by
  obtain ⟨cq, hspec⟩ := State.frameFound_spec (cont := cont) (bad := bad) (off := off) (len := len) (fo := fo) hu
  refine ⟨_, cq, h.exec_frameRead hcont hat hlen hfo, fun howed => ?_, hspec⟩
  rw [State.frameFound_media, State.containerOf_media howed hcont]

/-- The five commands on a range of units run alike. -/
theorem ioCommands_run {P : Out} (h : ∀ data go, s.ioRun k op (op == 1 || op == 8) data go = P) :
    (op = 2 → exec (.read k) s = P) ∧ (op = 5 → exec (.compare k) s = P) ∧ (op = 0x0C → exec (.verify k) s = P) ∧ (op = 1 → exec (.write k) s = P)
      ∧ (op = 8 → exec (.writeZeroes k) s = P) := by
  refine ⟨?_, ?_, ?_, ?_, ?_⟩ <;> rintro rfl
  · have heq : exec (.read k) s = execRead k s := rfl
    rw [heq, execRead]
    exact h ..
  · have heq : exec (.compare k) s = execCompare k s := rfl
    rw [heq, execCompare]
    exact h ..
  · have heq : exec (.verify k) s = execVerify k s := rfl
    rw [heq, execVerify]
    exact h ..
  · have heq : exec (.write k) s = execWrite k s := rfl
    rw [heq, execWrite]
    exact h ..
  · have heq : exec (.writeZeroes k) s = execWriteZeroes k s := rfl
    rw [heq, execWriteZeroes]
    exact h ..

/-- A command that its checks refuse completes with the status that they give, whichever it is (R458). -/
theorem ioCommands_refused {st : Nat} {wr : Bool} (hwr : wr = (op == 1 || op == 8)) (hc : s.readyCmd k op = some c)
    (hio : s.ioCheck c.x wr (ioLba c.x) (ioNlb c.x) = st) (hst : st ≠ 0) :
    (op = 2 → exec (.read k) s = .next (s.completeCmd k st)) ∧ (op = 5 → exec (.compare k) s = .next (s.completeCmd k st))
      ∧ (op = 0x0C → exec (.verify k) s = .next (s.completeCmd k st)) ∧ (op = 1 → exec (.write k) s = .next (s.completeCmd k st))
      ∧ (op = 8 → exec (.writeZeroes k) s = .next (s.completeCmd k st)) := by
  subst hwr
  exact ioCommands_run fun _ _ => State.ioRun_refused hc hio hst

/-- A command that needs a lost page of the map waits for it. -/
theorem ioCommands_wait {wr : Bool} (hwr : wr = (op == 1 || op == 8)) (hc : s.readyCmd k op = some c)
    (hio : s.ioCheck c.x wr (ioLba c.x) (ioNlb c.x) = 0) (hn : s.ioNs c.x = some n) (hshort : ioShort c.x (4096 * ioNlb c.x) = false)
    (hlost : s.pageLost n.nsid (ioLba c.x) (ioNlb c.x) = true) :
    (op = 2 → exec (.read k) s = .next s) ∧ (op = 5 → exec (.compare k) s = .next s) ∧ (op = 0x0C → exec (.verify k) s = .next s)
      ∧ (op = 1 → exec (.write k) s = .next s) ∧ (op = 8 → exec (.writeZeroes k) s = .next s) := by
  subst hwr
  exact ioCommands_run fun _ _ => State.ioRun_lost hc hio hn hshort hlost

end

/-- Settles O47: each command in its place, by what it starts, completes, refuses or waits for. -/
theorem hostCommandsRun : Obligations.HostCommandsRun := by
  unfold Obligations.HostCommandsRun
  refine ⟨?_, ?_, ?_, ?_, ?_, ?_, ?_, ?_, ?_, ?_, ?_, ?_, ?_⟩
  · rintro s k c n op m hop hc hio hn hshort hlost rfl hm
    obtain ⟨hr, hcmp, hv⟩ := exec_reading hop hc hio hn hshort hlost
    obtain ⟨hcmd, -, -⟩ := State.hcmd_of_readyCmd hc
    exact ⟨_, hr, hcmp, hv, State.startReads_runs hcmd _ _ _ hm⟩
  · rintro s u v k c n op bs hop hc hio hn hshort hlost h0 hpipes hv hre hread
    obtain ⟨hr, hcmp, hvf⟩ := exec_reading hop hc hio hn hshort hlost
    obtain ⟨hcmd, -, rfl⟩ := State.hcmd_of_readyCmd hc
    obtain ⟨⟨cq, hposted⟩, hmem, hmap⟩ := startReads_ends hop hcmd hio hn hlost h0 hpipes hv hre hread rfl
    exact ⟨_, cq, _, hr, hcmp, hvf, hposted, rfl, hmem, hmap⟩
  · rintro s k c n hc hio hn hshort hlost hup hroom
    obtain ⟨t, hexec, ⟨cq, hposted⟩, hrest⟩ := write_buffered hc hio hn hshort hlost hup hroom
    exact ⟨t, cq, hexec, hposted, hrest⟩
  · rintro s k c hc hn hoff
    obtain ⟨hcmd, -, -⟩ := State.hcmd_of_readyCmd hc
    obtain ⟨cq, hposted⟩ := State.completeCmd_posted hcmd Nv.ok 0 0 false
    exact ⟨_, cq, exec_flush hc hn hoff, hposted, State.completeCmd_media .., State.completeCmd_mem ..⟩
  · rintro s k c n hc hio hn hlost
    exact writeZeroes_runs hc hio hn hlost
  · rintro s k c n hc hio hn hfit hbit
    obtain ⟨t, hexec, ⟨cq, hposted⟩, hrest⟩ := datasetManagement_runs hc hio hn hfit hbit
    exact ⟨t, cq, hexec, hposted, hrest⟩
  · rintro s k c n hc hio hn hout
    obtain ⟨hcmd, -, -⟩ := State.hcmd_of_readyCmd hc
    obtain ⟨cq, hposted⟩ := State.completeCmd_posted hcmd Nv.outOfRange 0 0 false
    exact ⟨_, cq, exec_datasetManagement_of_outOfRange hc hio hn hout, hposted, State.completeCmd_media ..⟩
  · rintro s u k c n cont bad fo off len hc hn hkind hoff hkek hlen hlen0 hmax hpart hroom hlost hre hpipes hcont hat hfo hu
    exact frameRead_answers ⟨hc, hn, hkind, hoff, hkek, hlen ▸ hlen0, hlen ▸ hmax, hpart, hlen ▸ hroom, hlost, hre, hpipes⟩ hcont hat hlen hfo hu
  · rintro s k c n op e hope hc hn hkind hid hoff hlen hroom
    obtain ⟨hcmd, -, -⟩ := State.hcmd_of_readyCmd hc
    have hrun := State.engineCmd_queues hc hn hkind hid hoff hlen hroom
    refine ⟨s.jobQueued k c e, ?_, ?_, ?_, State.jobQueued_spec hcmd e⟩
    · rintro rfl
      obtain rfl : e = 1 := by omega
      exact hrun
    · rintro rfl
      obtain rfl : e = 0 := by omega
      exact hrun
    · rintro rfl
      obtain rfl : e = 2 := by omega
      exact hrun
  · rintro s k c n b out hc hphase hn hkind hoff hb hfit hshort hout
    have h : SlmReady s k c n b := ⟨hc, hphase, hn, hkind, hoff, hb⟩
    obtain ⟨hwrite, hfault⟩ := h.memoryWrite_spec hfit hshort hout
    refine ⟨fun bs hpoison hread => ?_, fun hpoison => ?_, fun hx => ?_, fun a hx => ?_⟩
    · obtain ⟨t, hexec, ⟨cq, hposted⟩, hmem⟩ := h.memoryRead_spec hfit hshort hpoison hread
      exact ⟨t, cq, hexec, hposted, hmem⟩
    · obtain ⟨cq, hposted⟩ := State.completeCmd_posted hc Nv.unrecovered 0 0 false
      exact ⟨_, cq, h.memoryRead_poisoned hfit hshort hpoison, hposted, State.completeCmd_mem ..⟩
    · obtain ⟨t, hexec, ⟨cq, hposted⟩, hmem⟩ := hwrite hx
      exact ⟨t, cq, hexec, hposted, hmem⟩
    · obtain ⟨t, hexec, ⟨cq, hposted⟩, hmem⟩ := hfault a hx
      exact ⟨t, cq, hexec, hposted, hmem⟩
  · rintro s k c n b r m hc hphase hn hkind hoff hb hone hio hfit hlost rfl hm
    obtain ⟨hcmd, hmem, -⟩ := State.startReads_runs hc r.1 r.2.1 r.2.2 hm
    exact ⟨_, SlmReady.memoryCopy ⟨hc, hphase, hn, hkind, hoff, hb⟩ hone hio hfit hlost, hcmd, hmem⟩
  · rintro s k c op st wr hop hwr hc hio hst
    obtain ⟨hcmd, -, -⟩ := State.hcmd_of_readyCmd hc
    obtain ⟨cq, hposted⟩ := State.completeCmd_posted hcmd st 0 0 false
    obtain ⟨h2, h5, hC, h1, h8⟩ := ioCommands_refused hwr hc hio hst
    exact ⟨_, cq, h2, h5, hC, h1, h8, hposted, State.completeCmd_mem .., State.completeCmd_media ..⟩
  · rintro s t k c n op wr hop hwr rfl hc hio hn hshort hlost
    exact ioCommands_wait hwr hc hio hn hshort hlost

end Sys2Proof.Machine
end

section
/-!
SALVAGE and REFORMAT (R284, R285, R468).
-/

namespace Sys2Proof.Machine

open Sys2Proof.Laws

section
variable {s a u : State} {c : Cmd}

/-- A vendor command of a PF that holds the role acts on the state in which it is audited. -/
theorem State.vendorCmd_of_held {r : Role} (hpf : isPf c.fn = true) (hr : s.holds (.pcie c.fn) r = true) (op : Nat) (cdws : List Nat) (act : State → State) :
    s.vendorCmd c op r cdws act = act (s.auditVendor (.pcie c.fn) op cdws false) := by
  rw [State.vendorCmd, hpf, hr]
  rfl

theorem State.auditVendor_ns (s : State) (o : Origin) (op : Nat) (cdws : List Nat) (refused : Bool) : (s.auditVendor o op cdws refused).ns = s.ns :=
  keeps_ns (State.forget_auditVendor (T := 0x800000800) rfl ..) rfl

theorem State.auditVendor_media (s : State) (o : Origin) (op : Nat) (cdws : List Nat) (refused : Bool) : (s.auditVendor o op cdws refused).media = s.media :=
  keeps_media (State.forget_auditVendor (T := 0x800000800) rfl ..) rfl

theorem State.auditVendor_mode (s : State) (o : Origin) (op : Nat) (cdws : List Nat) (refused : Bool) : (s.auditVendor o op cdws refused).mode = s.mode :=
  State.get_of_regs (keeps_regs (State.forget_auditVendor (T := 0x800000800) rfl ..) rfl) R.PWR.MODE_MODE

/-! ### SALVAGE -/

/-- The units salvaged, their validity bits written. -/
def State.salvaged (u : State) (c : Cmd) (count first validity : Nat) (n : Ns) (key : Bytes) : State :=
  let r := State.salvageUnits key n ((List.range (256 * count)).map (256 * first + ·)) u
  { r.2.2 with mem := r.2.2.mem.write (hostTarget c.fn) validity (packBits r.2.1) }

theorem exec_salvage_eq {count first validity : Nat} {n : Ns} {key : Bytes} (ha : s.adminReady c.fn = true) (hpf : isPf c.fn = true)
    (hr : s.holds (.pcie c.fn) .operator = true) (hn : s.nsOf c.nsid = some n) (hkind : n.kind = .take ∨ n.kind = .block) (h1 : 1 ≤ count)
    (h64 : count ≤ 64) (hv : validity % 8 = 0) (hlen : count * 2 ^ 20 ≤ dptrLen c.dptr)
    (heq : a = s.auditVendor (.pcie c.fn) 0xC4 [1 + count * 65536, 0, first % 2 ^ 32, first / 2 ^ 32, validity % 2 ^ 32, validity / 2 ^ 32] false)
    (hpipes : a.readyPipes.isEmpty = false) (hkey : a.mediaKey n.keyRec n.keySeq = (some key, u)) :
    exec (.salvage c count first validity) s = .next ((u.salvaged c count first validity n key).hostActive.completeData c
      (State.salvageUnits key n ((List.range (256 * count)).map (256 * first + ·)) u).1) := by
  have hexec : exec (.salvage c count first validity) s = execSalvage c count first validity s := rfl
  have han : a.nsOf c.nsid = some n := by rw [State.nsOf, heq, State.auditVendor_ns, ← State.nsOf, hn]
  have hkinds : ¬ (n.kind ≠ .take ∧ n.kind ≠ .block) := by tauto
  have hbad : ¬ ((n.kind ≠ .take ∧ n.kind ≠ .block) ∨ count = 0 ∨ 64 < count ∨ validity % 8 ≠ 0 ∨ dptrLen c.dptr < count * 2 ^ 20) := by
    rintro (h | h | h | h | h)
    · exact hkinds h
    · omega
    · omega
    · exact h hv
    · exact Nat.not_lt.mpr hlen h
  rw [hexec, execSalvage, ha, State.vendorCmd_of_held hpf hr, ← heq]
  simp only [han, hkey]
  rw [if_neg hbad, hpipes]
  rfl

/-! ### REFORMAT -/

theorem exec_reformat_eq (ha : s.adminReady c.fn = true) (hpf : isPf c.fn = true) (hr : s.holds (.pcie c.fn) .installer = true) (m : BitVec 32)
    (heq : a = s.auditVendor (.pcie c.fn) 0xC4 [2, m.toNat] false) :
    exec (.reformat c m) s = .next (if s.mode ≠ 7 ∨ m ≠ reformatMagic then a.completeAdmin c Nv.badField
      else a.destroyAll.format.installCkpt.endSafe.checkSpares.showOtp.completeAdmin c Nv.ok) := by
  have hexec : exec (.reformat c m) s = execReformat c m s := rfl
  have hmode : a.mode = s.mode := heq ▸ s.auditVendor_mode ..
  rw [hexec, execReformat, ha, State.vendorCmd_of_held hpf hr, ← heq]
  simp only [hmode]
  rfl

/-- The namespaces that outlive a REFORMAT hold no take and no blocks. -/
def State.Unmedia (s : State) : Prop := ∀ n ∈ s.ns, n.kind ≠ .take ∧ n.kind ≠ .block

theorem State.Unmedia.of_kinds {t : State} (h : s.Unmedia) (hk : t.ns.map (·.kind) = s.ns.map (·.kind)) : t.Unmedia := by
  intro n hn
  have hkind : n.kind ∈ s.ns.map (·.kind) := hk ▸ List.mem_map_of_mem hn
  obtain ⟨m, hm, he⟩ := List.mem_map.mp hkind
  exact he ▸ h m hm

theorem State.Unmedia.of_ns {t : State} (h : s.Unmedia) (hk : t.ns = s.ns) : t.Unmedia := h.of_kinds (congrArg _ hk)

theorem State.destroyAll_unmedia (s : State) : s.destroyAll.Unmedia := by
  unfold State.destroyAll
  dsimp only
  refine State.Unmedia.of_ns ?_ (keeps_ns (State.forget_wake (T := 0x480000420) rfl ..) rfl)
  refine State.Unmedia.of_ns ?_ (keeps_ns (State.forget_showKeys (T := 0x20) rfl _) rfl)
  intro n hn
  have hkept := (List.mem_filter.mp hn).2
  cases hkind : n.kind <;> simp [hkind] at hkept ⊢

theorem State.showTake_kinds (s : State) : s.showTake.ns.map (·.kind) = s.ns.map (·.kind) := by
  unfold State.showTake
  split
  · rfl
  · rw [State.modNs, List.map_map]
    refine List.map_congr_left fun n _ => ?_
    dsimp only [Function.comp]
    split <;> rfl

theorem State.settle_kinds (s : State) : s.settle.ns.map (·.kind) = s.ns.map (·.kind) := by
  have htry : s.advance.tryTrailer.ns = s.ns := (keeps_ns (State.forget_tryTrailer (T := 0xca01e2420) rfl _) rfl).trans
    (keeps_ns (State.forget_advance (T := 0x480001020) rfl _) rfl)
  unfold State.settle
  dsimp only
  rw [State.showTake_kinds, State.put_ns, htry]

theorem State.exhaustSpares_kinds (s : State) : s.exhaustSpares.ns.map (·.kind) = s.ns.map (·.kind) := by
  unfold State.exhaustSpares
  dsimp only
  rw [State.settle_kinds, keeps_ns (State.forget_enterSafe (T := 0xcb01ffc20) rfl ..) rfl, keeps_ns (State.forget_closeExhausted (T := 0xca01ff420) rfl ..) rfl,
    keeps_ns (State.forget_record (T := 0x480000420) rfl ..) rfl, keeps_ns (State.forget_pulse (T := 0x480000020) rfl ..) rfl,
    keeps_ns (State.forget_puts (T := 0x20) rfl ..) rfl]

/-- What checking the spares changes, one of its two ends or both. -/
theorem State.checkSpares_keeps {α : Type} (v : State → α) (hc : ∀ t x, v (State.convertSpare t x) = v t) (he : ∀ t, v (State.exhaustSpares t) = v t) (s : State) :
    v s.checkSpares = v s := by
  unfold State.checkSpares
  dsimp only
  split
  · rfl
  · split
    · exact he s
    · split
      · exact (he _).trans (hc ..)
      · exact hc ..

theorem State.checkSpares_kinds (s : State) : s.checkSpares.ns.map (·.kind) = s.ns.map (·.kind) :=
  State.checkSpares_keeps (fun t : State => t.ns.map (·.kind)) (fun _ _ => congrArg _ (keeps_ns (State.forget_convertSpare (T := 0x480060420) rfl ..) rfl))
    State.exhaustSpares_kinds s

/-! ### The cause of SAFE that an offline array is -/

theorem State.offline_of_cause {t : State} (h : t.get R.PWR.SAFE_CAUSE_CAUSE = s.get R.PWR.SAFE_CAUSE_CAUSE) : t.offline = s.offline := by
  rw [State.offline, h, State.offline]

theorem State.steady_closeExhausted {q : SteadyFld} (s : State) (cause : Nat) : q.get (s.closeExhausted cause) = q.get s := by
  unfold State.closeExhausted
  split
  · rfl
  · split
    · rfl
    · dsimp only
      rw [State.steady_closeTake, State.steady_refuseFrames, State.steady_endOpenFrames]

theorem State.enterSafe_offline (s : State) {b : Nat} (hb : b ≠ 1) : (s.enterSafe b).offline = s.offline := by
  rw [State.offline, State.enterSafe_get_cause, bitAt_mod_two_pow (w := R.PWR.SAFE_CAUSE_CAUSE.w) _ (by decide), bitAt_setBit_other _ _ hb.symm, State.offline]

theorem State.exhaustSpares_offline (s : State) : s.exhaustSpares.offline = s.offline := by
  unfold State.exhaustSpares
  dsimp only
  rw [State.offline_of_cause (State.steady_settle (q := safeCause) _), State.enterSafe_offline _ (by decide),
    State.offline_of_cause (State.steady_closeExhausted (q := safeCause) _ _)]
  refine State.offline_of_cause ?_
  rw [State.record_get_beyond _ _ _ _ _ _ _ rfl, State.pulse_get_beyond _ _ _ rfl, State.puts_cons, State.puts_cons, State.puts_nil,
    State.get_put_of_page _ _ rfl, State.get_put_of_page _ _ rfl]

theorem State.convertSpare_offline (s : State) (x : Nat) : (s.convertSpare x).offline = s.offline := by
  have hjournal (t : State) (n : Nat) : (t.journal 0x0C 1 0 n (0, 0)).get R.PWR.SAFE_CAUSE_CAUSE = t.get R.PWR.SAFE_CAUSE_CAUSE :=
    State.get_of_regs (keeps_regs (State.forget_journal (T := 0x60000) rfl ..) rfl) _
  refine State.offline_of_cause ?_
  unfold State.convertSpare
  dsimp only
  rw [State.record_get_beyond _ _ _ _ _ _ _ rfl, State.pulse_get_beyond _ _ _ rfl, State.get_bump_of_page _ _ rfl, hjournal, State.puts_cons,
    State.puts_cons, State.puts_nil, State.get_put_of_page _ _ rfl, State.get_put_of_page _ _ rfl]

theorem State.endSafe_offline (s : State) : s.endSafe.offline = false := by
  unfold State.endSafe
  dsimp only
  split
  · rw [State.offline, s.leaveSafe_leaves.1]
    rfl
  · rw [State.offline, State.get_put_same, bitAt_mod_two_pow (w := R.PWR.SAFE_CAUSE_CAUSE.w) _ (by decide), bitAt_eq_testBit, Nat.testBit_and]
    exact Bool.and_false _

/-! ### What REFORMAT leaves -/

theorem State.endSafe_media (s : State) : s.endSafe.media = s.media := keeps_media (State.forget_endSafe (T := 0x490000020) rfl s) rfl

/-- A reformatted device holds no media namespace, is formatted and in service, and maps no unit (R285). -/
theorem State.reformatted_spec (s : State) (c : Cmd) {t : State}
    (ht : t = s.destroyAll.format.installCkpt.endSafe.checkSpares.showOtp.completeAdmin c Nv.ok) :
    t.Unmedia ∧ t.media.base = (true, []) ∧ t.offline = false := by
  have hshow : forget 0x480000420 t = forget 0x480000420 s.destroyAll.format.installCkpt.endSafe.checkSpares :=
    ht ▸ (State.forget_completeAdmin rfl ..).trans (State.forget_showOtp rfl _)
  have hns : s.destroyAll.format.installCkpt.endSafe.ns = s.destroyAll.ns := (keeps_ns (State.forget_endSafe (T := 0x490000020) rfl _) rfl).trans
    ((keeps_ns (State.forget_installCkpt (T := 0xc80060020) rfl _) rfl).trans (keeps_ns (State.forget_format (T := 0x8000e0024) rfl _) rfl))
  refine ⟨((s.destroyAll_unmedia.of_ns hns).of_kinds (State.checkSpares_kinds _)).of_ns (keeps_ns hshow rfl), ?_, ?_⟩
  · rw [keeps_media hshow rfl, State.fmt_checkSpares, State.endSafe_media, State.fmt_installCkpt, State.format_base]
  · have hget : t.get R.PWR.SAFE_CAUSE_CAUSE = s.destroyAll.format.installCkpt.endSafe.checkSpares.get R.PWR.SAFE_CAUSE_CAUSE := by
      rw [ht]
      exact (State.completeAdmin_ok_get ..).trans (State.puts_get_off_pages (ps := [R.OTP.OTP_STATUS_LIFECYCLE.page]) rfl rfl _)
    rw [State.offline_of_cause hget, State.checkSpares_keeps State.offline State.convertSpare_offline State.exhaustSpares_offline, State.endSafe_offline]

end

/-- Settles O20: SALVAGE gives the units read, REFORMAT empties the device in SAFE and touches no namespace outside it. -/
theorem salvageAndReformat : Obligations.SalvageAndReformat := by
  unfold Obligations.SalvageAndReformat
  refine ⟨?_, ?_, ?_⟩
  · rintro s a u c count first validity n key ha hpf hr hn hkind h1 h64 hv hlen heq hpipes hkey
    refine ⟨(u.salvaged c count first validity n key).hostActive, _, exec_salvage_eq ha hpf hr hn hkind h1 h64 hv hlen heq hpipes hkey,
      State.mem_completeAdmin_cqes .., keeps_mem (State.forget_completeAdmin (T := 0x480000420) rfl ..) rfl, State.hostActive_mem _⟩
  · rintro s c ha hpf hr hmode
    have hexec := exec_reformat_eq ha hpf hr reformatMagic rfl
    rw [if_neg (by simp [hmode])] at hexec
    obtain ⟨hns, hbase, hoff⟩ := State.reformatted_spec _ c rfl
    obtain ⟨hformatted, hmap⟩ := MediaSt.of_base_eq hbase
    exact ⟨_, hexec, State.mem_completeAdmin_cqes .., hns, hformatted, hmap, hoff⟩
  · rintro s c m ha hpf hr hnot
    have hexec := exec_reformat_eq ha hpf hr m rfl
    rw [if_pos hnot] at hexec
    exact ⟨_, hexec, (keeps_ns (State.forget_completeAdmin (T := 0x480000420) rfl ..) rfl).trans (s.auditVendor_ns ..),
      (keeps_media (State.forget_completeAdmin (T := 0x480000420) rfl ..) rfl).trans (s.auditVendor_media ..)⟩

end Sys2Proof.Machine
end

section
/-!
The state after reset and its idle step (R44, R545, log entries 1 and 57).
-/

namespace Sys2Proof.Machine

/-- What may upset a core's memories leaves its state, and of the rest everything but the free values. -/
theorem State.coreUpsets_of_off (s : State) (h : ∀ c : Fin 72, s.cores[c].state = .off) :
    s.coreUpsets = { s with freeNext := s.freeNext + 1, cores := s.coreUpsets.cores } ∧ ∀ c : Fin 72, s.coreUpsets.cores[c].state = .off := by
  suffices hfold : ∀ (l : List (Nat × Nat × Nat × Bool)) (t : State), (∀ c : Fin 72, t.cores[c].state = .off) →
      l.foldl (fun t u => t.modCore u.1 fun k => k.upset (k.place u.2.1 u.2.2.1) u.2.2.2) t
          = { t with cores := (l.foldl (fun t u => t.modCore u.1 fun k => k.upset (k.place u.2.1 u.2.2.1) u.2.2.2) t).cores }
        ∧ ∀ c : Fin 72, (l.foldl (fun t u => t.modCore u.1 fun k => k.upset (k.place u.2.1 u.2.2.1) u.2.2.2) t).cores[c].state = .off from
    hfold _ { s with freeNext := s.freeNext + 1 } h
  intro l
  induction l with
  | nil => exact fun t ht => ⟨rfl, ht⟩
  | cons u l ih =>
    intro t ht
    have hmod : ∀ c : Fin 72, (t.modCore u.1 fun k => k.upset (k.place u.2.1 u.2.2.1) u.2.2.2).cores[c].state = .off := by
      intro c
      rw [State.modCore]
      split
      next hu =>
        by_cases hc : c.val = u.1
        · simp only [Fin.getElem_fin, hc, Vector.getElem_set_self]
          exact ht ⟨u.1, hu⟩
        · simp only [Fin.getElem_fin]
          rw [Vector.getElem_set_ne _ _ (Ne.symm hc)]
          exact ht c
      next => exact ht c
    obtain ⟨he, hoff⟩ := ih _ hmod
    refine ⟨?_, hoff⟩
    rw [List.foldl_cons, he, State.modCore]
    split <;> rfl

theorem reset_tick : State.reset.settleTriggers.tick = { State.reset with time := 10 } := by
  rfl

theorem reset_idle : State.reset.idle = ({ State.reset with time := 10 } : State).coreUpsets := by
  rw [State.idle, reset_tick]
  rfl

/-- Settles O60: by evaluation; only the free value that may upset a core's memories is not known. -/
theorem resetIsAsTheRulesSay : Obligations.ResetIsAsTheRulesSay := by
  unfold Obligations.ResetIsAsTheRulesSay
  have hoff : ∀ c : Fin 72, State.reset.cores[c].state = .off := fun c => by simp [State.reset, Core.off]
  obtain ⟨he, hc⟩ := ({ State.reset with time := 10 } : State).coreUpsets_of_off hoff
  refine ⟨rfl, rfl, rfl, fun p => ⟨rfl, rfl, rfl, rfl, rfl⟩, fun f => rfl, rfl, rfl, rfl, rfl, rfl, rfl, rfl, rfl, rfl, rfl, rfl, rfl, rfl, hoff,
    State.reset.idle, rfl, ?_, ?_⟩
  · rw [reset_idle]
    exact he
  · rw [reset_idle]
    exact hc

end Sys2Proof.Machine
end

section
/-!
What no step undoes (R577, R593): the commands that wait, the memories' canonical form, the OTP's set bits and the next audit SEQ, as a relation
between two states, and how the ways to build a state keep it.
-/

namespace Sys2Proof.Machine

open Sys2Proof.Laws

/-- Every bit set in one memory is set in the other. -/
def BitsKept (m m' : List (Nat × Byte)) : Prop :=
  ∀ a i : Nat, (memRead m a).getLsbD i = true → (memRead m' a).getLsbD i = true

/-- What a state's queue, memories, OTP and next audit SEQ become, without anything undone. -/
structure State.KeepsAs (s : State) (queue : List Instr) (m : MemSt) (otp : List (Nat × Byte)) (seq : Nat) : Prop where
  queue : queue = s.pending
  mem : s.mem.wf = true → m.wf = true
  otpWf : memWf s.trust.otp = true → memWf otp = true
  bits : memWf s.trust.otp = true → BitsKept s.trust.otp otp
  seq : s.trust.auditSeq ≤ seq

/-- The second state undoes nothing of the first's queue, memories, OTP and audit log. -/
def State.Kept (s t : State) : Prop := s.KeepsAs t.pending t.mem t.trust.otp t.trust.auditSeq

/-- Every state that an outcome leads to undoes nothing. -/
def State.KeptOut (s : State) : Out → Prop
  | .next t => s.Kept t
  | .fault _ | .refused _ => True

/-- The state of a core's context, where there is one, undoes nothing. -/
def State.KeptCtx (s : State) : Except Trap Ctx → Prop
  | .ok y => s.Kept y.s
  | .error _ => True

/-- An instruction's effect undoes nothing of the state that its context holds. -/
def Body.Keeps (b : Body) : Prop := ∀ (s : State) (x : Ctx), s.Kept x.s → s.KeptCtx (b x)

/-- The registers that a microword leaves, whatever follows it. -/
def MicroNext.micro : MicroNext → Micro
  | .go m _ | .done m | .trap m _ _ => m

/-! ### How a state is built -/

section

variable {r s t : State} {q : List Instr} {m : MemSt} {o : List (Nat × Byte)} {n : Nat}

theorem State.kept_refl (s : State) : s.Kept s := ⟨rfl, id, id, fun _ _ _ => id, le_rfl⟩

theorem State.Kept.trans (h : r.Kept s) (h' : s.Kept t) : r.Kept t :=
  ⟨h'.queue.trans h.queue, h'.mem ∘ h.mem, h'.otpWf ∘ h.otpWf, fun w a i hb => h'.bits (h.otpWf w) a i (h.bits w a i hb), h.seq.trans h'.seq⟩

theorem State.keepsAs_self : r.KeepsAs s.pending s.mem s.trust.otp s.trust.auditSeq = r.Kept s := rfl

theorem State.kept_mk {v1 v2 v3 v4 v5 v6 v7 v8 v9 v10 v11 v12 tr v14 v15 v16 v17 v18 v19 v20 v21 v22 v23 v24 v26 v27 v28 v29 v30 v31 v32 v33 v34 v35 v36} :
    r.Kept ⟨q, v1, v2, v3, v4, v5, v6, v7, v8, v9, v10, v11, v12, tr, v14, v15, v16, v17, v18, v19, v20, v21, v22, v23, v24, m, v26, v27, v28, v29, v30, v31, v32, v33, v34, v35, v36⟩
      = r.KeepsAs q m tr.otp tr.auditSeq := rfl

theorem State.keepsAs_mem (h : r.KeepsAs q m o n) {m' : MemSt} (hw : m.wf = true → m'.wf = true) : r.KeepsAs q m' o n :=
  ⟨h.queue, hw ∘ h.mem, h.otpWf, h.bits, h.seq⟩

theorem State.kept_ite {c : Prop} [Decidable c] : r.Kept (if c then s else t) = if c then r.Kept s else r.Kept t := apply_ite ..

theorem State.Kept.ite {c : Prop} [Decidable c] (hs : r.Kept s) (ht : r.Kept t) : r.Kept (if c then s else t) := by
  split
  · exact hs
  · exact ht

theorem State.kept_dite {c : Prop} [Decidable c] {f : c → State} {g : ¬c → State} :
    r.Kept (if h : c then f h else g h) = if h : c then r.Kept (f h) else r.Kept (g h) := apply_dite ..

theorem State.kept_foldl {β : Type} {g : State → β → State} {l : List β} (hg : ∀ (t : State) x, r.Kept (g t x) = r.Kept t) :
    r.Kept (l.foldl g s) = r.Kept s := by
  induction l generalizing s with
  | nil => rfl
  | cons x l ih => exact ih.trans (hg s x)

theorem State.kept_foldl_of {β : Type} {g : State → β → State} {l : List β} (h : r.Kept s) (hg : ∀ (t : State) x, t.Kept (g t x)) :
    r.Kept (l.foldl g s) :=
  List.foldlRecOn (motive := r.Kept) l g h fun t ht x _ => ht.trans (hg t x)

theorem State.keptCtx_ok {a : Except Trap Ctx} {y : Ctx} (h : r.KeptCtx a) (e : a = .ok y) : r.Kept y.s := by
  rw [e] at h
  exact h

theorem State.keptCtx_bind {a : Except Trap Ctx} {g : Ctx → Except Trap Ctx} :
    r.KeptCtx a → (∀ y : Ctx, r.Kept y.s → r.KeptCtx (g y)) → r.KeptCtx (match a with | .error t => .error t | .ok y => g y) := by
  intro ha hg
  cases a with
  | error t => trivial
  | ok y => exact hg y ha

theorem State.keptCtx_ite {c : Prop} [Decidable c] {a b : Except Trap Ctx} (ha : r.KeptCtx a) (hb : r.KeptCtx b) : r.KeptCtx (if c then a else b) := by
  split
  · exact ha
  · exact hb

theorem State.kept_of_forget (h : forget 0xFFFFFFFFFFBFF7FE t = forget 0xFFFFFFFFFFBFF7FE s) : r.Kept t = r.Kept s := by
  rw [State.Kept, keeps_pending h rfl, keeps_mem h rfl, keeps_trust h rfl]
  rfl

theorem State.kept_snd {α : Type} {p : α × State} {a : α} (e : p = (a, t)) (h : r.Kept p.2 = r.Kept s) : r.Kept t = r.Kept s := by
  rw [← h, e]

theorem State.Kept.snd {α : Type} {p : α × State} {a : α} (h : r.Kept p.2) (e : p = (a, t)) : r.Kept t := by
  rw [e] at h
  exact h

theorem State.keptOut_next : r.KeptOut (.next s) = r.Kept s := rfl

theorem State.keptOut_fault (f : Fault) : r.KeptOut (.fault f) = True := rfl

theorem State.keptOut_refused (f : Refusal) : r.KeptOut (.refused f) = True := rfl

theorem State.keptOut_of_ite {c : Prop} [Decidable c] {b : Out} (hs : r.Kept s) (hb : r.KeptOut b) : r.KeptOut (if c then .next s else b) := by
  split
  · exact hs
  · exact hb

theorem State.keptOut_ite {c : Prop} [Decidable c] {a b : Out} : r.KeptOut (if c then a else b) = if c then r.KeptOut a else r.KeptOut b := apply_ite ..

end

end Sys2Proof.Machine
end

section
/-!
How writes to a memory and to the OTP keep the canonical form and the set bits.
-/

namespace Sys2Proof.Machine

open Sys2Proof.Laws

theorem MemSt.wf_iff (m : MemSt) :
    m.wf = true ↔ memWf m.dram = true ∧ memWf m.common = true ∧ memWf m.hostA = true ∧ memWf m.hostB = true := by
  simp only [MemSt.wf, Bool.and_eq_true, and_assoc]

theorem MemSt.at_wf {m : MemSt} (h : m.wf = true) (t : Target) : memWf (m.at t) = true := by
  obtain ⟨hd, hc, ha, hb⟩ := m.wf_iff.mp h
  cases t
  · exact hd
  · exact hc
  · exact ha
  · exact hb

theorem MemSt.set_wf {m : MemSt} (h : m.wf = true) (t : Target) {l : List (Nat × Byte)} (hl : memWf l = true) : (m.set t l).wf = true := by
  obtain ⟨hd, hc, ha, hb⟩ := m.wf_iff.mp h
  cases t
  · exact (MemSt.wf_iff _).mpr ⟨hl, hc, ha, hb⟩
  · exact (MemSt.wf_iff _).mpr ⟨hd, hl, ha, hb⟩
  · exact (MemSt.wf_iff _).mpr ⟨hd, hc, hl, hb⟩
  · exact (MemSt.wf_iff _).mpr ⟨hd, hc, ha, hl⟩

theorem MemSt.cleanse_wf {m : MemSt} (h : m.wf = true) (t : Target) (a n : Nat) : (m.cleanse t a n).wf = true := by
  unfold MemSt.cleanse
  split
  · exact h
  · exact h

theorem MemSt.write_wf {m : MemSt} (h : m.wf = true) (t : Target) (a : Nat) (bs : Bytes) : (m.write t a bs).wf = true :=
  MemSt.cleanse_wf (MemSt.set_wf h t (memWriteN_wf (MemSt.at_wf h t) a bs)) t a bs.length

theorem MemSt.setCommonBit_wf {m : MemSt} (h : m.wf = true) (n : Nat) (b : Bool) : ({ m with common := memSetBit m.common 0 n b } : MemSt).wf = true := by
  obtain ⟨hd, hc, ha, hb⟩ := m.wf_iff.mp h
  exact (MemSt.wf_iff _).mpr ⟨hd, memSetBit_wf hc 0 n b, ha, hb⟩

theorem writeLine_wf {m : MemSt} (h : m.wf = true) (l : DLine) : (writeLine m l).wf = true := by
  unfold writeLine
  split
  · exact MemSt.write_wf h ..
  · exact h

theorem foldl_writeLine_wf {m : MemSt} (h : m.wf = true) (ls : List DLine) : (ls.foldl writeLine m).wf = true :=
  List.foldlRecOn (motive := fun m : MemSt => m.wf = true) ls writeLine h fun _ hm l _ => writeLine_wf hm l

theorem xwriteAux_wf (t : List XEnt) (func : Nat) (ps : List (Nat × Nat)) (bs : Bytes) {m : MemSt} (h : m.wf = true) :
    (xwriteAux t func ps bs m).wf = true := by
  induction ps generalizing bs m with
  | nil => exact h
  | cons p ps ih =>
    rw [xwriteAux]
    refine ih _ ?_
    split
    · exact MemSt.write_wf h ..
    · exact h

theorem dptrWrite_wf (t : Target) (ds : List DSeg) (bs : Bytes) {m : MemSt} (h : m.wf = true) : (dptrWrite t ds bs m).wf = true := by
  induction ds generalizing bs m with
  | nil => exact h
  | cons d ds ih =>
    cases d with
    | block a n => exact ih _ (MemSt.write_wf h ..)
    | bitBucket n => exact ih _ h

theorem State.kept_memWrite {r s : State} (h : r.Kept s) (t : Target) (a : Nat) (bs : Bytes) : r.Kept { s with mem := s.mem.write t a bs } :=
  State.keepsAs_mem h fun hw => MemSt.write_wf hw t a bs

theorem bitsKept_refl (m : List (Nat × Byte)) : BitsKept m m := fun _ _ => id

theorem bitsKept_burn {m : List (Nat × Byte)} (h : memWf m = true) (a : Nat) (bs : Bytes) : BitsKept m (burn m a bs) := by
  intro c i hb
  rw [memRead_burn h]
  split
  · rw [BitVec.getLsbD_or, hb, Bool.true_or]
  · exact hb

end Sys2Proof.Machine
end

section
/-!
What each of the model's functions keeps (`State.Kept`), in the model's order: register fields, events, errors and the Tally, memories and
translation, core stacks and contexts, host completion, Earmark banks, the Gate link, and flash contents.
-/

namespace Sys2Proof.Machine

open Sys2Proof.Laws

variable {r s : State} {x : Ctx}

/-! ### Register fields -/

theorem State.kept_put (f : Fld) (v : Nat) : r.Kept (s.put f v) = r.Kept s := by simp only [State.put, State.kept_mk, State.keepsAs_self]

theorem State.kept_putBit (f : Fld) (b : Bool) : r.Kept (s.putBit f b) = r.Kept s := by simp only [State.putBit, State.kept_put]

theorem State.kept_bump (f : Fld) (n : Nat) : r.Kept (s.bump f n) = r.Kept s := by simp only [State.bump, State.kept_put]

theorem State.kept_puts (l : List (Fld × Nat)) : r.Kept (s.puts l) = r.Kept s := by
  simp only [State.puts, State.kept_foldl, implies_true, State.kept_put]

theorem State.kept_unput (keep : Fld → Bool) : r.Kept (s.unput keep) = r.Kept s := by simp only [State.unput, State.kept_mk, State.keepsAs_self]

/-! ### Free values -/

theorem State.kept_fresh : r.Kept s.fresh.2 = r.Kept s := by simp only [State.fresh, State.kept_mk, State.keepsAs_self]

theorem State.kept_freshBytes (n : Nat) : r.Kept (s.freshBytes n).2 = r.Kept s := by simp only [State.freshBytes, State.kept_mk, State.keepsAs_self]

/-! ### Events and errors -/

theorem State.kept_countMsi (fn vec : Nat) : r.Kept (s.countMsi fn vec) = r.Kept s := by simp only [State.countMsi, State.kept_mk, State.keepsAs_self]

theorem State.kept_pageIrq (page : Nat) : r.Kept (s.pageIrq page) = r.Kept s := by
  simp only [State.pageIrq, ite_self, State.kept_ite, State.kept_foldl, implies_true, State.kept_countMsi]

theorem State.kept_irqAfter {t : State} (page : Nat) : r.Kept (s.irqAfter t page) = r.Kept t := by
  simp only [State.irqAfter, State.kept_ite, State.kept_pageIrq, ite_self]

theorem State.kept_rise (page bit : Nat) : r.Kept (s.rise page bit) = r.Kept s := by
  simp only [State.rise, State.kept_mk, State.keepsAs_self, State.kept_put]

theorem State.kept_pulse (page bit : Nat) : r.Kept (s.pulse page bit) = r.Kept s := by
  simp only [State.pulse, State.kept_bump, State.kept_irqAfter, State.kept_rise]

theorem State.kept_level (page bit : Nat) (b : Bool) : r.Kept (s.level page bit b) = r.Kept s := by
  simp only [State.level, ite_self, State.kept_ite, State.kept_pulse, State.kept_put]

theorem State.kept_report (r' : Report) : r.Kept (s.report r') = r.Kept s := by
  simp only [State.report, ite_self, State.kept_mk, State.keepsAs_self, State.kept_ite]

theorem State.kept_recordPage (page code info : Nat) : r.Kept (s.recordPage page code info) = r.Kept s := by
  simp only [State.recordPage, ite_self, State.kept_ite, State.kept_bump, State.kept_irqAfter, State.kept_put, State.kept_rise]

theorem State.kept_record (page code info func ext last : Nat) : r.Kept (s.record page code info func ext last) = r.Kept s := by
  simp only [State.record, State.kept_recordPage, State.kept_report]

/-! ### Origins and roles -/

theorem State.kept_touch (o : Origin) : r.Kept (s.touch o) = r.Kept s := by simp only [State.touch, State.kept_mk, State.keepsAs_self]

/-! ### The Tally (R21) -/

theorem State.kept_wearTally (a : TallyArea) (is : List Nat) : r.Kept (s.wearTally a is) = r.Kept s := by
  simp only [State.wearTally, State.kept_mk, State.keepsAs_self]

theorem State.kept_setTally (f : TallySt → TallySt) : r.Kept (s.setTally f) = r.Kept s := by
  simp only [State.setTally, State.kept_mk, State.keepsAs_self]

theorem State.kept_countBoot (src copy : Nat) (ok : Bool) : r.Kept (s.countBoot src copy ok) = r.Kept s := by
  simp only [State.countBoot, State.kept_bump, State.kept_setTally, State.kept_wearTally]

theorem State.kept_auditSync : r.Kept s.auditSync = r.Kept s := by
  unfold State.auditSync
  (repeat' split) <;> simp only [State.kept_mk, State.keepsAs_self, State.kept_wearTally]

theorem State.kept_audit (h : r.Kept s) (o : Origin) (role action result : Nat) (param : Bytes) : r.Kept (s.audit o role action result param) := by
  rw [State.audit, State.kept_auditSync]
  exact ⟨h.queue, h.mem, h.otpWf, h.bits, h.seq.trans (Nat.le_succ _)⟩

theorem State.kept_auditCoalesced (h : r.Kept s) (o : Origin) (role action result : Nat) (param : Bytes) (cnt : Nat) : r.Kept (s.auditCoalesced o role action result param cnt)
    := by
  unfold State.auditCoalesced
  (repeat' split) <;> simp only [State.kept_mk, State.keepsAs_self, State.kept_audit, State.kept_auditSync, h]

/-! ### Pieces used across blocks -/

theorem State.kept_setGate (f : GateSt → GateSt) : r.Kept (s.setGate f) = r.Kept s := by simp only [State.setGate, State.kept_mk, State.keepsAs_self]

theorem State.kept_setTake (f : TakeSt → TakeSt) : r.Kept (s.setTake f) = r.Kept s := by simp only [State.setTake, State.kept_mk, State.keepsAs_self]

theorem State.kept_setTrig (f : TrigSt → TrigSt) : r.Kept (s.setTrig f) = r.Kept s := by simp only [State.setTrig, State.kept_mk, State.keepsAs_self]

theorem State.kept_setJobs (f : JobsSt → JobsSt) : r.Kept (s.setJobs f) = r.Kept s := by simp only [State.setJobs, State.kept_mk, State.keepsAs_self]

theorem State.kept_setNand (f : NandSt → NandSt) : r.Kept (s.setNand f) = r.Kept s := by simp only [State.setNand, State.kept_mk, State.keepsAs_self]

theorem State.kept_setMedia (f : MediaSt → MediaSt) : r.Kept (s.setMedia f) = r.Kept s := by
  simp only [State.setMedia, State.kept_mk, State.keepsAs_self]

theorem State.kept_setArray (f : ArraySt → ArraySt) : r.Kept (s.setArray f) = r.Kept s := by
  simp only [State.setArray, State.kept_mk, State.keepsAs_self]

theorem State.kept_setKeys (f : KeySt → KeySt) : r.Kept (s.setKeys f) = r.Kept s := by simp only [State.setKeys, State.kept_mk, State.keepsAs_self]

theorem State.kept_setTrust {f : TrustSt → TrustSt} (ho : ∀ x, (f x).otp = x.otp) (hn : ∀ x, (f x).auditSeq = x.auditSeq) :
    r.Kept (s.setTrust f) = r.Kept s := by
  rw [State.setTrust, State.kept_mk, ho, hn]
  rfl

/-! ### Memories and translation -/

theorem State.kept_xlateFault (func va unit : Nat) (wr fetch engine : Bool) : r.Kept (s.xlateFault func va unit wr fetch engine) = r.Kept s := by
  simp only [State.xlateFault, ite_self, State.kept_ite, State.kept_bump, State.kept_pulse, State.kept_put, State.kept_putBit, State.kept_record]

theorem State.kept_xwrite (h : r.Kept s) {f va : Nat} {bs : Bytes} {t : State} (e : s.xwrite f va bs = .ok t) : r.Kept t := by
  unfold State.xwrite at e
  split at e
  · cases e
  · cases e
    exact State.keepsAs_mem h fun hw => xwriteAux_wf _ _ _ _ hw

/-! ### Bits -/

theorem State.kept_setCommonBit (h : r.Kept s) (n : Nat) (b : Bool) : r.Kept (s.setCommonBit n b) :=
  State.keepsAs_mem h fun hw => MemSt.setCommonBit_wf hw n b

theorem State.kept_modCore (c : Nat) (f : Core → Core) : r.Kept (s.modCore c f) = r.Kept s := by
  unfold State.modCore
  (repeat' split) <;> simp only [State.kept_mk, State.keepsAs_self]

theorem State.kept_setDone (h : r.Kept s) (d : Option (Nat × Nat × Nat)) : r.Kept (s.setDone d) := by
  unfold State.setDone
  (repeat' split) <;> simp only [State.kept_modCore, State.kept_setCommonBit, h]

/-! ### The mode and what moves it with activity -/

theorem State.kept_setPwr (f : PwrSt → PwrSt) : r.Kept (s.setPwr f) = r.Kept s := by simp only [State.setPwr, State.kept_mk, State.keepsAs_self]

theorem State.kept_setMode (m : Nat) : r.Kept (s.setMode m) = r.Kept s := by
  simp only [State.setMode, ite_self, State.kept_ite, State.kept_pulse, State.kept_puts, State.kept_setPwr]

theorem State.kept_follow : r.Kept s.follow = r.Kept s := by simp only [State.follow, ite_self, State.kept_ite, State.kept_setMode]

theorem State.kept_hostActive : r.Kept s.hostActive = r.Kept s := by simp only [State.hostActive, State.kept_follow, State.kept_setPwr]

/-! ### Memory errors -/

theorem Ctx.kept_meet (h : r.Kept x.s) (p : CoreMem) : r.Kept (x.meet p).s := by
  unfold Ctx.meet
  split
  · exact (State.kept_pulse ..).mpr h
  · exact h

theorem Ctx.kept_foldl_meet (h : r.Kept x.s) (ps : List CoreMem) : r.Kept (ps.foldl Ctx.meet x).s :=
  List.foldlRecOn (motive := fun y : Ctx => r.Kept y.s) ps Ctx.meet h fun _ hy p _ => Ctx.kept_meet hy p

theorem Ctx.kept_readLocal (h : r.Kept x.s) (a n : Nat) : r.KeptCtx (x.readLocal a n) := by
  unfold Ctx.readLocal
  split
  · exact h
  · split
    · trivial
    · exact Ctx.kept_foldl_meet h _

theorem Ctx.kept_writeLocal (h : r.Kept x.s) (a n : Nat) : r.KeptCtx (x.writeLocal a n) := by
  unfold Ctx.writeLocal
  split
  · exact h
  split
  · exact h
  · exact Ctx.kept_readLocal h ..

/-! ### Stacks -/

theorem Ctx.kept_fillD (h : r.Kept x.s) (f n : Nat) : r.KeptCtx (Ctx.fillD f n x) := by
  induction f generalizing x with
  | zero => exact h
  | succ f ih =>
    unfold Ctx.fillD
    split
    · exact h
    split
    · trivial
    split
    next => trivial
    next y e =>
      have hy : r.Kept y.s := State.keptCtx_ok (Ctx.kept_readLocal h ..) e
      exact ih (x := y.fillD1) hy

theorem Ctx.kept_roomD (h : r.Kept x.s) (n m : Nat) : r.KeptCtx (x.roomD n m) := by
  unfold Ctx.roomD
  split
  · exact h
  split
  · trivial
  · exact h

theorem Ctx.kept_needD (h : r.Kept x.s) (n m : Nat) : r.KeptCtx (x.needD n m) := by
  unfold Ctx.needD
  split
  next => trivial
  next e => exact Ctx.kept_roomD (State.keptCtx_ok (Ctx.kept_fillD h ..) e) ..

theorem Ctx.kept_fillR (h : r.Kept x.s) (f n : Nat) : r.KeptCtx (Ctx.fillR f n x) := by
  induction f generalizing x with
  | zero => exact h
  | succ f ih =>
    unfold Ctx.fillR
    split
    · exact h
    split
    · trivial
    split
    next => trivial
    next y e =>
      have hy : r.Kept y.s := State.keptCtx_ok (Ctx.kept_readLocal h ..) e
      exact ih (x := y.fillR1) hy

theorem Ctx.kept_needR (h : r.Kept x.s) (n m : Nat) : r.KeptCtx (x.needR n m) := by
  unfold Ctx.needR
  split
  next => trivial
  next y e =>
    have hy : r.Kept y.s := State.keptCtx_ok (Ctx.kept_fillR h ..) e
    split
    · exact hy
    split
    · trivial
    · exact hy

theorem Ctx.kept_operate (h : r.Kept x.s) (n m : Nat) (f : Ctx → List Word) : r.KeptCtx (x.operate n m f) := by
  unfold Ctx.operate
  split
  next => trivial
  next y e =>
    have hy : r.Kept y.s := State.keptCtx_ok (Ctx.kept_needD h ..) e
    exact hy

theorem Ctx.kept_goto (h : r.Kept x.s) (a : Nat) : r.KeptCtx (x.goto a) := by
  unfold Ctx.goto
  split
  · trivial
  split
  · trivial
  · exact h

/-! ### Memory -/

theorem Ctx.lookup_state {va : Nat} {p : XEnt × Ctx} (e : x.lookup va = some p) : p.2.s = x.s := by
  unfold Ctx.lookup at e
  split at e
  · cases e
    rfl
  · split at e
    · cases e
    · cases e
      rfl

theorem Ctx.locate_state {a n : Nat} {need : Need} {wr : Bool} {p : Ctx × Option (Target × Nat)} (e : x.locate a n need wr = .ok p) : p.1.s = x.s := by
  unfold Ctx.locate at e
  split at e
  · cases e
  split at e
  · cases e
  split at e
  · cases e
    rfl
  split at e
  · cases e
  split at e
  · cases e
  next hl =>
    split at e
    · cases e
      exact Ctx.lookup_state hl
    · cases e

theorem Ctx.kept_fillCost (h : r.Kept x.s) (t : Target) : r.Kept (x.fillCost t).s := by
  cases t
  · exact h
  · exact h
  · exact (State.kept_fresh ..).mpr h
  · exact (State.kept_fresh ..).mpr h

theorem Ctx.kept_meetLine (h : r.Kept x.s) (t : Target) (pa : Nat) : r.KeptCtx (x.meetLine t pa) := by
  unfold Ctx.meetLine
  split
  · exact h
  · dsimp only
    split
    · exact Ctx.kept_meet h _
    · split
      · trivial
      · exact h

theorem Ctx.kept_fillLine (h : r.Kept x.s) (t : Target) (pa : Nat) : r.KeptCtx (x.fillLine t pa) := by
  unfold Ctx.fillLine
  split
  · exact h
  · extract_lets old m l
    have hm : x.s.mem.wf = true → m.wf = true := fun hw => foldl_writeLine_wf hw _
    clear_value old m l
    split
    · trivial
    · exact Ctx.kept_fillCost (x := { x with s := { x.s with mem := m }, k := { x.k with dcache := x.k.dcache.drop old.length ++ [l] } })
        ⟨h.queue, hm ∘ h.mem, h.otpWf, h.bits, h.seq⟩ t

theorem Ctx.kept_useLine (h : r.Kept x.s) (t : Target) (pa : Nat) (wr : Bool) : r.KeptCtx (x.useLine t pa wr) := by
  unfold Ctx.useLine
  split
  · trivial
  · split
    next => trivial
    next e => exact Ctx.kept_fillLine (State.keptCtx_ok (Ctx.kept_meetLine h ..) e) ..

theorem Ctx.struck_state (p : CoreMem) (e : Ecc) : (x.struck p e).s = x.s := by
  cases e
  · rfl
  · rfl
  · rfl

theorem Ctx.kept_load (h : r.Kept x.s) {a n : Nat} {e : Ecc} {p : Ctx × Nat} (el : x.load a n e = .ok p) : r.Kept p.1.s := by
  unfold Ctx.load at el
  split at el
  next => cases el
  next y ey =>
    have hy : r.Kept (y.struck (.word (a / 8)) e).s := by
      rw [Ctx.struck_state, Ctx.locate_state ey]
      exact h
    split at el
    next => cases el
    next z ez =>
      have hz : r.Kept z.s := State.keptCtx_ok (Ctx.kept_readLocal hy ..) ez
      cases el
      exact hz
  next ey =>
    cases el
    exact Ctx.locate_state ey ▸ h
  next y t pa _ ey =>
    have hy : r.Kept y.s := Ctx.locate_state ey ▸ h
    split at el
    next => cases el
    next ez =>
      cases el
      refine State.keptCtx_ok (Ctx.kept_useLine ?_ ..) ez
      split
      · exact (Ctx.struck_state ..).symm ▸ hy
      · exact hy

theorem Ctx.kept_store (h : r.Kept x.s) (a n v : Nat) : r.KeptCtx (x.store a n v) := by
  unfold Ctx.store
  split
  next => trivial
  next y ey =>
    have hy : r.Kept y.s := Ctx.locate_state ey ▸ h
    split
    next => trivial
    next ez =>
      have hz := State.keptCtx_ok (Ctx.kept_writeLocal hy ..) ez
      split
      · trivial
      · exact hz
  next y pa ey =>
    have hy : r.Kept y.s := Ctx.locate_state ey ▸ h
    exact State.keepsAs_mem hy fun hw => MemSt.write_wf hw ..
  next y t pa _ ey =>
    have hy : r.Kept y.s := Ctx.locate_state ey ▸ h
    split
    next => trivial
    next z ez =>
      have hz : r.Kept z.s := State.keptCtx_ok (Ctx.kept_useLine hy ..) ez
      show r.Kept (if _ then _ else _ : Ctx).s
      split
      · exact hz
      · exact hz

theorem Ctx.kept_writeBack (h : r.Kept x.s) : r.KeptCtx x.writeBack := by
  unfold Ctx.writeBack
  extract_lets dirty y
  have hy : r.KeepsAs y.s.pending y.s.mem y.s.trust.otp y.s.trust.auditSeq := by
    show r.Kept (if _ then _ else _ : Ctx).s
    split
    · exact h
    · exact Ctx.kept_foldl_meet h _
  split
  · trivial
  · exact ⟨hy.queue, fun hw => foldl_writeLine_wf (h.mem hw) _, hy.otpWf, hy.bits, hy.seq⟩

/-! ### Bits -/

theorem Ctx.kept_putBit (h : r.Kept x.s) (p : BitPlace) (b : Bool) : r.Kept (x.putBit p b).s := by
  cases p
  · exact h
  · exact State.kept_setCommonBit h ..
  · exact h

theorem Ctx.kept_meetBit (h : r.Kept x.s) (p : BitPlace) : r.KeptCtx (x.meetBit p) := by
  cases p
  · exact Ctx.kept_readLocal h ..
  · exact h
  · exact h

/-! ### Traps -/

theorem State.kept_setCore (c : Fin 72) (k : Core) : r.Kept (s.setCore c k) = r.Kept s := by
  simp only [State.setCore, State.kept_mk, State.keepsAs_self]

theorem State.kept_stopProgram (c : Fin 72) (k : Core) (pc : BitVec 48) : r.Kept (s.stopProgram c k pc) = r.Kept s := by
  simp only [State.stopProgram, State.kept_pulse, State.kept_record, State.kept_setCore]

theorem State.kept_monitor (c : Fin 72) (k0 k : Core) (p : ProgRun) (t : Trap) : r.Kept (s.monitor c k0 k p t) = r.Kept s := by
  unfold State.monitor
  dsimp only
  (repeat' split) <;> simp only [State.kept_fresh, State.kept_pulse, State.kept_setCore, State.kept_stopProgram]

theorem State.kept_trapCore (c : Fin 72) (k : Core) (t : Trap) (trappc : BitVec 48) : r.Kept (s.trapCore c k t trappc) = r.Kept s := by
  unfold State.trapCore
  (repeat' split) <;> simp only [State.kept_monitor, State.kept_pulse, State.kept_record, State.kept_setCore, State.kept_xlateFault]

/-! ### Running an instruction -/

theorem Ctx.kept_fetchLine (h : r.Kept x.s) (t : Target) (pa : Nat) : r.KeptCtx (x.fetchLine t pa) := by
  unfold Ctx.fetchLine
  extract_lets p k y
  have hy : r.Kept y.s := by
    show r.Kept (if _ then _ else _ : Ctx).s
    split
    · exact h
    · exact Ctx.kept_meet h _
  split
  · exact hy
  · split
    · trivial
    · refine Ctx.kept_fillCost ?_ t
      exact hy

theorem Ctx.kept_fetch1 (h : r.Kept x.s) (a : Nat) : r.KeptCtx (x.fetch1 a) := by
  unfold Ctx.fetch1
  split
  · trivial
  split
  · trivial
  split
  · trivial
  split
  next => trivial
  next el =>
    split
    · exact Ctx.kept_fetchLine (Ctx.lookup_state el ▸ h) ..
    · trivial

theorem Ctx.kept_fetch (h : r.Kept x.s) (n a : Nat) : r.KeptCtx (Ctx.fetch n a x) := by
  induction n generalizing a x with
  | zero => exact h
  | succ n ih =>
    unfold Ctx.fetch
    split
    next => trivial
    next e => exact ih (State.keptCtx_ok (Ctx.kept_fetch1 h a) e) _

theorem Ctx.kept_retire (h : r.Kept x.s) (c : Fin 72) : r.Kept (x.retire c) := by
  simp only [Ctx.retire, State.kept_ite, State.kept_hostActive, State.kept_setCore, ite_self, h]

/-! ### Parking -/

theorem State.kept_caught (h : r.Kept s) (c : Fin 72) : r.Kept (s.caught c) :=
  .ite h (State.keepsAs_mem ((State.kept_fresh ..).mpr h) fun hw => foldl_writeLine_wf hw _)

theorem State.kept_parkCore (h : r.Kept s) (c : Fin 72) (p : Parker) : r.Kept (s.parkCore c p) := by
  unfold State.parkCore
  dsimp only
  (repeat' split) <;> simp only [State.kept_caught, State.kept_pulse, State.kept_setCore, h]

theorem State.kept_turnCore (c : Nat) (f : Core → Core) : r.Kept (s.turnCore c f) = r.Kept s := by
  simp only [State.turnCore, ite_self, State.kept_ite, State.kept_modCore, State.kept_pulse]

theorem State.kept_resumeCore (c : Fin 72) (p : Parker) : r.Kept (s.resumeCore c p) = r.Kept s := by
  simp only [State.resumeCore, ite_self, State.kept_ite, State.kept_setCore, State.kept_turnCore]

theorem State.kept_modFn (func : Nat) (g : Fn → Fn) : r.Kept (s.modFn func g) = r.Kept s := by
  simp only [State.modFn, State.kept_mk, State.keepsAs_self]

theorem State.kept_withdrawCore (c : Nat) : r.Kept (s.withdrawCore c) = r.Kept s := by
  unfold State.withdrawCore
  (repeat' split) <;> simp only [State.kept_modFn, State.kept_pulse, State.kept_put, State.kept_record]

theorem State.kept_retireCore (c : Fin 72) : r.Kept (s.retireCore c) = r.Kept s := by
  simp only [State.retireCore, State.kept_pulse, State.kept_putBit, State.kept_record, State.kept_setCore, State.kept_withdrawCore]

/-! ### Jobs -/

theorem State.kept_takeJob (id : Nat) : r.Kept (s.takeJob id) = r.Kept s := by simp only [State.takeJob, State.kept_setJobs]

theorem State.kept_submitJob (src : JobSrc) (engine func : Nat) (desc : Bytes) (done : Option (Nat × Nat × Nat)) (cmd : Option CmdKey) : r.Kept (s.submitJob src engine func
    desc done cmd) = r.Kept s := by
  simp only [State.submitJob, State.kept_setJobs]

/-! ### Data pointers -/

theorem State.kept_setHost (f : HostSt → HostSt) : r.Kept (s.setHost f) = r.Kept s := by simp only [State.setHost, State.kept_mk, State.keepsAs_self]

theorem State.kept_toHost (h : r.Kept s) (fn : Nat) (d : List DSeg) (bs : Bytes) : r.Kept (s.toHost fn d bs) :=
  State.keepsAs_mem h (dptrWrite_wf _ d bs)

/-! ### Interrupts and events -/

theorem State.kept_msi (fn vec : Nat) : r.Kept (s.msi fn vec) = r.Kept s := by simp only [State.msi, State.kept_setHost]

theorem State.kept_modSq (fn qid : Nat) (f : Sq → Sq) : r.Kept (s.modSq fn qid f) = r.Kept s := by simp only [State.modSq, State.kept_setHost]

theorem State.kept_post (e : Cqe) : r.Kept (s.post e) = r.Kept s := by
  unfold State.post
  (repeat' split) <;> simp only [State.kept_msi, State.kept_setHost]

theorem State.kept_raiseEvent (e : AsyncEv) : r.Kept (s.raiseEvent e) = r.Kept s := by
  unfold State.raiseEvent
  (repeat' split) <;> simp only [State.kept_post, State.kept_setHost]

theorem State.kept_vendorEvent (fn page : Nat) : r.Kept (s.vendorEvent fn page) = r.Kept s := by simp only [State.vendorEvent, State.kept_raiseEvent]

theorem State.kept_nsChanged (n : Ns) : r.Kept (s.nsChanged n) = r.Kept s := by
  simp only [State.nsChanged, State.kept_foldl, implies_true, State.kept_raiseEvent, State.kept_setHost]

theorem State.kept_catalogChanged : r.Kept s.catalogChanged = r.Kept s := by simp only [State.catalogChanged, State.kept_setHost]

/-! ### Errors and completion -/

theorem State.kept_commandError (fn sq cid status nsid lba : Nat) : r.Kept (s.commandError fn sq cid status nsid lba) = r.Kept s := by
  simp only [State.commandError, State.kept_bump, State.kept_record, State.kept_setHost]

theorem State.kept_completeAdmin (c : Cmd) (status dw0 dw1 : Nat) : r.Kept (s.completeAdmin c status dw0 dw1) = r.Kept s := by
  simp only [State.completeAdmin, ite_self, State.kept_ite, State.kept_commandError, State.kept_post]

theorem State.kept_completeData (h : r.Kept s) (c : Cmd) (bs : Bytes) : r.Kept (s.completeData c bs) := by
  simp only [State.completeData, State.kept_completeAdmin, State.kept_toHost, h]

theorem State.kept_modCmd (k : CmdKey) (f : HCmd → HCmd) : r.Kept (s.modCmd k f) = r.Kept s := by simp only [State.modCmd, State.kept_setHost]

theorem State.kept_relock : r.Kept s.relock = r.Kept s := by simp only [State.relock, State.kept_put, State.kept_setHost]

theorem State.kept_countFrozen : r.Kept s.countFrozen = r.Kept s := by simp only [State.countFrozen, State.kept_put]

theorem State.kept_freezeSq (fn qid cid status : Nat) : r.Kept (s.freezeSq fn qid cid status) = r.Kept s := by
  unfold State.freezeSq
  (repeat' split) <;> simp only [ite_self, State.kept_ite, State.kept_countFrozen, State.kept_modSq, State.kept_pulse, State.kept_record, State.kept_setHost,
    State.kept_vendorEvent]

theorem State.kept_completeCmd (k : CmdKey) (status dw0 dw1 : Nat) (keep : Bool) : r.Kept (s.completeCmd k status dw0 dw1 keep) = r.Kept s := by
  unfold State.completeCmd
  (repeat' split) <;> simp only [State.kept_commandError, State.kept_freezeSq, State.kept_modCmd, State.kept_post, State.kept_relock, State.kept_setHost]

theorem State.kept_unitProgrammed (k : CmdKey) : r.Kept (s.unitProgrammed k) = r.Kept s := by
  unfold State.unitProgrammed
  (repeat' split) <;> simp only [State.kept_completeCmd, State.kept_relock, State.kept_setHost]

/-! ### Admin commands that wait -/

theorem State.kept_wake (p : AdminFor → Bool) (status dw0 : Nat) : r.Kept (s.wake p status dw0) = r.Kept s := by
  simp only [State.wake, State.kept_foldl, implies_true, State.kept_completeAdmin, State.kept_setHost]

theorem State.kept_await (c : Cmd) (w : AdminFor) : r.Kept (s.await c w) = r.Kept s := by simp only [State.await, State.kept_setHost]

/-! ### Engine jobs -/

theorem State.kept_endJob (h : r.Kept s) (d : JobDone) (verdict : Nat) {fault : State → Nat → State} (hf : ∀ (t : State) a, t.Kept (fault t a)) :
    r.Kept (s.endJob d verdict fault) := by
  unfold State.endJob
  extract_lets t u
  have ht : r.Kept t := by
    refine .ite h ?_
    split
    next e => exact State.kept_xwrite h e
    next => exact h.trans (hf ..)
  have hu : r.Kept u := State.kept_setDone ht _
  split
  · exact hu
  · exact (State.kept_completeCmd ..).mpr hu

theorem State.kept_finishJob (d : JobDone) : r.Kept (s.finishJob d) = r.Kept s := by simp only [State.finishJob, State.kept_setJobs]

theorem State.kept_dropDone (d : JobDone) : r.Kept (s.dropDone d) = r.Kept s := by simp only [State.dropDone, State.kept_setJobs]

/-! ### Banks and tables -/

theorem State.kept_setEar (f : EarmarkSt → EarmarkSt) : r.Kept (s.setEar f) = r.Kept s := by
  simp only [State.setEar, State.kept_mk, State.keepsAs_self]

theorem State.kept_modBank (b : Nat) (f : EBank → EBank) : r.Kept (s.modBank b f) = r.Kept s := by
  simp only [State.modBank, State.kept_put, State.kept_setEar]

theorem State.kept_writeEnt (b i : Nat) (e : EEnt) : r.Kept (s.writeEnt b i e) = r.Kept s := by
  simp only [State.writeEnt, State.kept_bump, State.kept_modBank]

theorem State.kept_wipeBank (b : Nat) : r.Kept (s.wipeBank b) = r.Kept s := by simp only [State.wipeBank, State.kept_modBank, State.kept_setEar]

theorem State.kept_clearBank (b : Nat) : r.Kept (s.clearBank b) = r.Kept s := by simp only [State.clearBank, State.kept_pulse, State.kept_wipeBank]

theorem State.kept_defaultBank (b : Nat) : r.Kept (s.defaultBank b) = r.Kept s := by simp only [State.defaultBank, State.kept_puts]

/-! ### Repair and retirement -/

theorem State.kept_withdrawBank (b : Nat) : r.Kept (s.withdrawBank b) = r.Kept s := by
  unfold State.withdrawBank
  (repeat' split) <;> simp only [State.kept_modFn, State.kept_pulse, State.kept_puts, State.kept_record]

theorem State.kept_retireBank (b : Nat) : r.Kept (s.retireBank b) = r.Kept s := by
  simp only [State.retireBank, State.kept_pulse, State.kept_puts, State.kept_record, State.kept_withdrawBank]

theorem State.kept_countRepair (b row : Nat) (scrub : Bool) : r.Kept (s.countRepair b row scrub) = r.Kept s := by
  simp only [State.countRepair, ite_self, State.kept_ite, State.kept_bump, State.kept_modBank, State.kept_pulse, State.kept_put, State.kept_record, State.kept_retireBank]

/-! ### Jobs -/

theorem State.kept_endRun (id : Nat) : r.Kept (s.endRun id) = r.Kept s := by simp only [State.endRun, State.kept_setEar]

theorem EarRun.kept_fetch {x : EarRun} (func a n : Nat) {k : Bytes → EarRun} (hk : ∀ bs, r.Kept (k bs).s = r.Kept x.s) : r.Kept (x.fetch func a n k).s = r.Kept x.s := by
  unfold EarRun.fetch
  split
  · exact hk _
  · exact State.kept_xlateFault ..

theorem EarRun.kept_writeItem (j : Job) (x : EarRun) (i : Nat) : r.Kept (x.writeItem j i).s = r.Kept x.s :=
  EarRun.kept_fetch _ _ _ fun bs => by
    split
    · rfl
    · exact State.kept_writeEnt ..

theorem EarRun.kept_invalidateItem (j : Job) (x : EarRun) (i : Nat) : r.Kept (x.invalidateItem j i).s = r.Kept x.s :=
  EarRun.kept_fetch _ _ _ fun bs => by
    split
    · rfl
    · exact State.kept_writeEnt ..

theorem State.earRun_s (s : State) (id : Nat) : (s.earRun id).s = s := by
  unfold State.earRun
  split
  · rfl
  · rfl

theorem EarRun.kept_keep (x : EarRun) (id : Nat) : r.Kept (x.keep id) = r.Kept x.s := State.kept_setEar _

theorem State.kept_earWriteOne (j : Job) : r.Kept (s.earWriteOne j) = r.Kept s := by
  rw [State.earWriteOne, EarRun.kept_keep, EarRun.item]
  split
  · rw [State.earRun_s]
  split
  · exact congrArg r.Kept (State.earRun_s ..)
  split
  · rw [EarRun.kept_writeItem, State.earRun_s]
  · rw [EarRun.kept_invalidateItem, State.earRun_s]

/-! ### Searches -/

theorem State.kept_countSearch (n : Nat) : r.Kept (s.countSearch n) = r.Kept s := by
  simp only [State.countSearch, State.kept_foldl, implies_true, State.kept_bump]

theorem State.kept_checkedSearch (n : Nat) (key mask : List Nat) (skip : List (Nat × Nat)) (f again : Nat) (rep : Bool) :
    r.Kept (State.checkedSearch n key mask skip f again rep s).2 = r.Kept s := by
  induction f generalizing again rep s with
  | zero => rfl
  | succ f ih =>
    unfold State.checkedSearch
    dsimp only
    split
    next => rfl
    next =>
      split
      next =>
        split
        · rfl
        · rw [ih, State.kept_ite, State.kept_earWriteOne, ite_self, State.kept_fresh]
      next =>
        split
        · rfl
        · rw [ih, State.kept_countRepair, State.kept_modBank]

theorem State.kept_search1 (n : Nat) (key mask : List Nat) (skip : List (Nat × Nat)) (checked : Bool) : r.Kept (s.search1 n key mask skip checked).2.2 = r.Kept s := by
  unfold State.search1
  extract_lets t fin
  have ht : r.Kept t = r.Kept s := State.kept_countSearch ..
  have hf : ∀ w ms rep ver u, r.Kept (fin w ms rep ver u).2.2 = r.Kept u := fun w ms rep ver u => by
    simp only [fin, State.kept_ite, State.kept_setEar, State.kept_bump, ite_self]
  clear_value t fin
  split
  · split
    next e => exact (State.kept_snd e (State.kept_checkedSearch ..)).trans ht
    next e => exact (hf ..).trans ((State.kept_snd e (State.kept_checkedSearch ..)).trans ht)
  · split
    next => exact ht
    next => exact (hf ..).trans ht

/-! ### Trigger rules -/

theorem State.kept_ruleHit (key : List Nat) : r.Kept (s.ruleHit key).2 = r.Kept s := by
  unfold State.ruleHit
  dsimp only
  (repeat' split) <;> simp only [State.kept_record, State.kept_search1, State.kept_setEar]

/-! ### The frame index -/

theorem State.kept_formIndex : r.Kept s.formIndex = r.Kept s := by
  simp only [State.formIndex, State.kept_foldl, implies_true, State.kept_puts, State.kept_setEar]

theorem State.kept_dropSpans (p : ESpan → Bool) : r.Kept (s.dropSpans p) = r.Kept s := by
  simp only [State.dropSpans, State.kept_foldl, implies_true, State.kept_setEar, State.kept_writeEnt]

theorem State.kept_enterSpan (takeId off : Nat) (fs : List (Nat × List Nat)) : r.Kept (s.enterSpan takeId off fs) = r.Kept s := by
  unfold State.enterSpan
  dsimp only
  (repeat' split) <;> simp only [State.kept_dropSpans, State.kept_setEar, State.kept_writeEnt]

/-! ### BANK_CFG -/

theorem State.kept_setBankCfg (b width table : Nat) (share : Bool) : r.Kept (s.setBankCfg b width table share) = r.Kept s := by
  simp only [State.setBankCfg, ite_self, State.kept_ite, State.kept_clearBank, State.kept_puts]

theorem State.kept_loseEnt (b i row : Nat) : r.Kept (s.loseEnt b i row) = r.Kept s := by
  simp only [State.loseEnt, ite_self, State.kept_ite, State.kept_bump, State.kept_modBank, State.kept_pulse, State.kept_record, State.kept_writeEnt]

/-! ### The credits the Gate advertises and what withholds them -/

theorem State.kept_advance : r.Kept s.advance = r.Kept s := by simp only [State.advance, State.kept_level, State.kept_setGate]

theorem State.kept_hold (f : Fld) (b : Bool) : r.Kept (s.hold f b) = r.Kept s := by simp only [State.hold, State.kept_advance, State.kept_putBit]

/-! ### Operations of roles -/

theorem State.kept_endPerturb (h : r.Kept s) (cause : PerturbEnd) : r.Kept (s.endPerturb cause) := by
  simp only [State.endPerturb, ite_self, State.kept_foldl_of, State.kept_ite, State.kept_refl, implies_true, State.kept_audit, State.kept_hold, State.kept_pulse, State.kept_put,
    State.kept_setTrust, h]

theorem State.kept_showHolders : r.Kept s.showHolders = r.Kept s := by simp only [State.showHolders, State.kept_puts]

theorem State.kept_freeComparator (r' : Nat) : r.Kept (s.freeComparator r') = r.Kept s := by simp only [State.freeComparator, State.kept_puts]

theorem State.kept_endRole (h : r.Kept s) (x : Session) (cause : RoleEnd) : r.Kept (s.endRole x cause) := by
  simp only [State.endRole, ite_self, State.kept_foldl_of, State.kept_ite, State.kept_refl, implies_true, State.kept_audit, State.kept_endPerturb, State.kept_freeComparator,
    State.kept_pulse, State.kept_setTrust, State.kept_showHolders, h]

theorem State.kept_endRolesOf (h : r.Kept s) (o : Origin) (cause : RoleEnd) : r.Kept (s.endRolesOf o cause) := by
  simp only [State.endRolesOf, State.kept_foldl_of, State.kept_refl, implies_true, State.kept_endRole, h]

theorem State.kept_gainRole (h : r.Kept s) (o : Origin) (r' : Role) (method : Nat) : r.Kept (s.gainRole o r' method) := by
  simp only [State.gainRole, implies_true, State.kept_audit, State.kept_pulse, State.kept_setTrust, State.kept_showHolders, h]

theorem State.kept_setLockout (r' : Role) (l : Lockout) : r.Kept (s.setLockout r' l) = r.Kept s := by
  simp only [State.setLockout, implies_true, State.kept_setTrust]

/-! ### Link -/

theorem State.kept_setActive (g : Nat × Nat) : r.Kept (s.setActive g) = r.Kept s := by
  simp only [State.setActive, State.kept_puts, State.kept_setGate]

theorem State.kept_gateErr (code stream number : Nat) : r.Kept (s.gateErr code stream number) = r.Kept s := by
  simp only [State.gateErr, State.kept_record]

/-! ### The receive buffer -/

theorem State.kept_leaveRx (p : Bytes → Bool) : r.Kept (s.leaveRx p) = r.Kept s := by
  simp only [State.leaveRx, State.kept_advance, State.kept_setGate]

theorem State.kept_send (p : Bytes) : r.Kept (s.send p) = r.Kept s := by simp only [State.send, State.kept_setGate]

theorem State.kept_parseArea (x0 : Nat) {x1 : State} (x2 : Bytes) : r.Kept (State.parseArea x0 x1 x2) = r.Kept x1 :=
  State.kept_of_forget (State.forget_parseArea (T := 0xFFFFFFFFFFBFF7FE) rfl ..)

/-! ### Sending -/

theorem State.kept_payload (ps : List Bytes) : r.Kept (s.payload ps) = r.Kept s := by simp only [State.payload, State.kept_setGate]

theorem State.kept_idleFlit (lstate : Nat) : r.Kept (s.idleFlit lstate) = r.Kept s := by simp only [State.idleFlit, State.kept_setGate]

/-! ### Acknowledgement -/

theorem State.kept_resend : r.Kept s.resend = r.Kept s := by simp only [State.resend, State.kept_bump, State.kept_setGate]

theorem State.kept_beginRetrain : r.Kept s.beginRetrain = r.Kept s := by
  simp only [State.beginRetrain, State.kept_hold, State.kept_idleFlit, State.kept_puts]

theorem State.kept_replayAll : r.Kept s.replayAll = r.Kept s := by
  simp only [State.replayAll, ite_self, State.kept_ite, State.kept_beginRetrain, State.kept_pulse, State.kept_record, State.kept_resend, State.kept_setGate]

theorem State.kept_applyAck (ackt ackseq : Nat) : r.Kept (s.applyAck ackt ackseq) = r.Kept s := by
  simp only [State.applyAck, ite_self, State.kept_ite, State.kept_replayAll, State.kept_setGate]

theorem State.kept_applyLimits (clData clCtrl : Nat) : r.Kept (s.applyLimits clData clCtrl) = r.Kept s := by
  simp only [State.applyLimits, State.kept_setGate]

theorem State.kept_linkReset (h : r.Kept s) : r.Kept s.linkReset := by
  simp only [State.linkReset, ite_self, State.kept_ite, State.kept_audit, State.kept_endRolesOf, State.kept_hold, State.kept_pulse, State.kept_puts, State.kept_setGate, h]

/-! ### Flash contents -/

theorem State.kept_programUnit (die block pu : Nat) (ps : List (Nat × Bytes × Bytes)) : r.Kept (s.programUnit die block pu ps) = r.Kept s := by
  simp only [State.programUnit, State.kept_setNand]

theorem State.kept_eraseBlock (die block : Nat) : r.Kept (s.eraseBlock die block) = r.Kept s := by simp only [State.eraseBlock, State.kept_setNand]

/-! ### The sequencer -/

theorem State.kept_sendOnfi (d : Nat) (cmds : List OnfiCmd) : r.Kept (s.sendOnfi d cmds) = r.Kept s := by
  simp only [State.sendOnfi, State.kept_setNand]

theorem State.kept_setSent (d n : Nat) : r.Kept (s.setSent d n) = r.Kept s := by simp only [State.setSent, State.kept_setNand]

theorem State.kept_beginOps (d : Nat) : r.Kept (s.beginOps d) = r.Kept s := by
  unfold State.beginOps
  (repeat' split) <;> simp only [ite_self, State.kept_ite, State.kept_sendOnfi, State.kept_setSent]

theorem State.kept_queueOp (d : Nat) (op : DieOp) : r.Kept (s.queueOp d op) = r.Kept s := by
  simp only [State.queueOp, State.kept_beginOps, State.kept_setNand]

theorem State.kept_askStatus (d : Nat) : r.Kept (s.askStatus d) = r.Kept s := by
  simp only [State.askStatus, ite_self, State.kept_ite, State.kept_sendOnfi]

theorem State.kept_popOp (d : Nat) : r.Kept (s.popOp d) = r.Kept s := by
  unfold State.popOp
  dsimp only
  (repeat' split) <;> simp only [State.kept_askStatus, State.kept_beginOps, State.kept_sendOnfi, State.kept_setNand, State.kept_setSent]

end Sys2Proof.Machine
end

section
/-!
What each of the model's functions keeps (`State.Kept`), in the model's order: block groups, the map and its journal, key slots and the key engine,
ring segments and windows, frames and slices, the ends of a take, and spares.
-/

namespace Sys2Proof.Machine

open Sys2Proof.Laws

variable {r s : State} {x : Ctx}

/-! ### Blocks and the pool -/

theorem State.kept_setImage (f : MapImage → MapImage) : r.Kept (s.setImage f) = r.Kept s := by simp only [State.setImage, State.kept_setMedia]

theorem State.kept_modGroup (n : Nat) (f : Group → Group) : r.Kept (s.modGroup n f) = r.Kept s := by simp only [State.modGroup, State.kept_setImage]

/-! ### Device-metadata pages -/

theorem State.kept_modPage (n : Nat) (f : MPage → MPage) : r.Kept (s.modPage n f) = r.Kept s := by simp only [State.modPage, State.kept_setMedia]

theorem State.kept_addCopy (n : Nat) (i : Nat) (d : Nat) : r.Kept (State.addCopy s n i d) = r.Kept s :=
  State.kept_of_forget (State.forget_addCopy (T := 0xFFFFFFFFFFBFF7FE) rfl ..)

theorem State.kept_putPage (kind : Nat) (seq : Nat) (stripe : Bool) (data : Bytes) {t : _} (e : State.putPage s kind seq stripe data = some t) : r.Kept t.2 = r.Kept s :=
  State.kept_of_forget (State.forget_putPage (T := 0xFFFFFFFFFFBFF7FE) rfl _ _ _ _ _ e)

theorem State.kept_pageProgrammed (n i d block unit : Nat) : r.Kept (s.pageProgrammed n i d block unit) = r.Kept s := by
  unfold State.pageProgrammed
  (repeat' split) <;> simp only [State.kept_modPage, State.kept_programUnit]

theorem State.kept_dropPages : r.Kept s.dropPages = r.Kept s := by
  simp only [State.dropPages, State.kept_foldl, implies_true, State.kept_queueOp, State.kept_setMedia]

/-! ### Journal -/

theorem State.kept_nextSeq : r.Kept s.nextSeq.2 = r.Kept s := by simp only [State.nextSeq, State.kept_setMedia]

theorem State.kept_writeJournal : r.Kept (State.writeJournal s) = r.Kept s :=
  State.kept_of_forget (State.forget_writeJournal (T := 0xFFFFFFFFFFBFF7FE) rfl ..)

theorem State.kept_addRec (r' : JRec) : r.Kept (s.addRec r') = r.Kept s := by
  simp only [State.addRec, ite_self, State.kept_ite, State.kept_setMedia, State.kept_writeJournal]

theorem State.kept_journal (kind count nsid logical : Nat) (ma : Nat × Nat) : r.Kept (s.journal kind count nsid logical ma) = r.Kept s := by
  simp only [State.journal, State.kept_addRec, State.kept_nextSeq]

theorem State.kept_journalRuns (kind nsid lba n : Nat) : r.Kept (s.journalRuns kind nsid lba n) = r.Kept s := by
  simp only [State.journalRuns, State.kept_foldl, implies_true, State.kept_journal]

/-! ### Opening a group -/

theorem State.kept_writeBitmapHeader : r.Kept s.writeBitmapHeader = r.Kept s := by
  simp only [State.writeBitmapHeader, State.kept_setTally, State.kept_wearTally]

theorem State.kept_writeBitmap (l regions : List Nat) : r.Kept (s.writeBitmap l regions) = r.Kept s := by
  simp only [State.writeBitmap, State.kept_setArray, State.kept_wearTally, State.kept_writeBitmapHeader]

theorem State.kept_noPlace (use : GroupUse) (nsid : Nat) : r.Kept (s.noPlace use nsid) = r.Kept s := by
  simp only [State.noPlace, ite_self, State.kept_ite, State.kept_pulse, State.kept_record]

/-! ### Stripes -/

theorem State.kept_issueStripe (g : Group) (i : Nat) : r.Kept (s.issueStripe g i) = r.Kept s := by
  simp only [State.issueStripe, State.kept_foldl, implies_true, State.kept_modGroup, State.kept_queueOp, State.kept_setArray]

theorem State.kept_issueGroup (g : Group) : r.Kept (s.issueGroup g) = r.Kept s := by
  simp only [State.issueGroup, ite_self, State.kept_ite, State.kept_foldl, implies_true, State.kept_issueStripe]

theorem State.kept_issueReady : r.Kept s.issueReady = r.Kept s := by
  simp only [State.issueReady, State.kept_foldl, implies_true, State.kept_issueGroup]

theorem State.kept_padStripe (use : GroupUse) (gn : Nat) : r.Kept (State.padStripe s use gn) = r.Kept s :=
  State.kept_of_forget (State.forget_padStripe (T := 0xFFFFFFFFFFBFF7FE) rfl ..)

theorem State.kept_placeUnit (use : GroupUse) (gn : Nat) (nsid : Nat) (kind : Nat) (logical : Nat) (flags : Nat) (data : Bytes) (cmd : Option CmdKey) {t : State} (e : State.placeUnit s use gn nsid kind logical flags data cmd = some t) : r.Kept t = r.Kept s :=
  State.kept_of_forget (State.forget_placeUnit (T := 0xFFFFFFFFFFBFF7FE) rfl _ _ _ _ _ _ _ _ _ e)

/-! ### The map -/

theorem State.kept_residePage (p : Nat) : r.Kept (s.residePage p) = r.Kept s := by
  simp only [State.residePage, ite_self, State.kept_ite, State.kept_setMedia]

theorem State.kept_needPage (p : Nat) (use : OpFor) : r.Kept (s.needPage p use).2 = r.Kept s := by
  unfold State.needPage
  (repeat' split) <;> simp only [State.kept_queueOp, State.kept_residePage]

theorem State.kept_dirtyPage (nsid logical : Nat) : r.Kept (s.dirtyPage nsid logical) = r.Kept s := by
  simp only [State.dirtyPage, State.kept_needPage, State.kept_setMedia]

theorem State.kept_dirtyDirPage (d : Nat) : r.Kept (s.dirtyDirPage d) = r.Kept s := by simp only [State.dirtyDirPage, State.kept_setMedia]

theorem State.kept_mapUnit (nsid logical gn u seq : Nat) : r.Kept (s.mapUnit nsid logical gn u seq) = r.Kept s := by
  unfold State.mapUnit
  (repeat' split) <;> simp only [State.kept_dirtyPage, State.kept_setArray, State.kept_setImage, State.kept_setMedia]

theorem State.kept_unmapUnit (nsid logical : Nat) : r.Kept (s.unmapUnit nsid logical) = r.Kept s := by
  simp only [State.unmapUnit, State.kept_dirtyPage, State.kept_setImage]

theorem State.kept_cancelWhere (p : DUnit → Bool) : r.Kept (s.cancelWhere p) = r.Kept s := by
  simp only [State.cancelWhere, State.kept_setImage, State.kept_setMedia]

theorem State.kept_mapMember (g : Group) (i m : Nat) : r.Kept (s.mapMember g i m) = r.Kept s := by
  simp only [State.mapMember, ite_self, State.kept_ite, State.kept_foldl, implies_true, State.kept_dirtyDirPage, State.kept_mapUnit]

theorem State.kept_addUnitRec (o : OwedRec) : r.Kept (s.addUnitRec o) = r.Kept s := by
  simp only [State.addUnitRec, ite_self, State.kept_ite, State.kept_addRec]

theorem State.kept_markRecs (l : List OwedRec) : r.Kept (s.markRecs l) = r.Kept s := by simp only [State.markRecs, State.kept_setImage]

theorem State.kept_logFrees : r.Kept s.logFrees = r.Kept s := by
  simp only [State.logFrees, State.kept_foldl, implies_true, State.kept_journal, State.kept_modGroup]

theorem State.kept_logReady : r.Kept s.logReady = r.Kept s := by
  simp only [State.logReady, State.kept_foldl, implies_true, State.kept_addUnitRec, State.kept_journal, State.kept_logFrees, State.kept_markRecs, State.kept_modGroup]

theorem State.kept_closeGroup (gn : Nat) : r.Kept (s.closeGroup gn) = r.Kept s := by
  simp only [State.closeGroup, State.kept_modGroup, State.kept_setArray]

theorem State.kept_closeEnding : r.Kept s.closeEnding = r.Kept s := by
  simp only [State.closeEnding, State.kept_foldl, implies_true, State.kept_closeGroup, State.kept_logReady]

theorem State.kept_freeGroup (gn : Nat) : r.Kept (s.freeGroup gn) = r.Kept s := by
  simp only [State.freeGroup, State.kept_logFrees, State.kept_modGroup, State.kept_setMedia]

theorem State.kept_freeEmpty : r.Kept s.freeEmpty = r.Kept s := by simp only [State.freeEmpty, State.kept_foldl, implies_true, State.kept_freeGroup]

theorem State.kept_closeFull : r.Kept s.closeFull = r.Kept s := by
  simp only [State.closeFull, State.kept_foldl, implies_true, State.kept_closeGroup, State.kept_logReady]

theorem State.kept_voidUnissued (gn : Nat) : r.Kept (s.voidUnissued gn) = r.Kept s := by simp only [State.voidUnissued, State.kept_modGroup]

theorem State.kept_closeTakeGroups (nsid : Nat) : r.Kept (s.closeTakeGroups nsid) = r.Kept s := by
  simp only [State.closeTakeGroups, State.kept_foldl, implies_true, State.kept_closeGroup, State.kept_logReady, State.kept_voidUnissued]

theorem State.kept_queueRefresh (gn : Nat) : r.Kept (s.queueRefresh gn) = r.Kept s := by
  simp only [State.queueRefresh, ite_self, State.kept_ite, State.kept_setMedia]

/-! ### Units that wait for a place -/

theorem State.kept_placeBatch (use : GroupUse) (gn : Nat) (x0 : List DUnit) {x1 : State} {t : State} (e : State.placeBatch use gn x0 x1 = some t) : r.Kept t = r.Kept x1 :=
  State.kept_of_forget (State.forget_placeBatch (T := 0xFFFFFFFFFFBFF7FE) rfl _ _ _ _ e)

theorem State.kept_placeOrWait (w : Waiting) : r.Kept (State.placeOrWait s w) = r.Kept s :=
  State.kept_of_forget (State.forget_placeOrWait (T := 0xFFFFFFFFFFBFF7FE) rfl ..)

theorem State.kept_retryWaiting : r.Kept s.retryWaiting = r.Kept s := by
  unfold State.retryWaiting
  dsimp only
  rw [State.kept_foldl fun t w => by simp only [State.kept_ite, State.kept_padStripe, ite_self], State.kept_foldl fun t w => ?_, State.kept_setMedia]
  split
  · rfl
  · split
    next e =>
      split at e
      · cases e
      · exact State.kept_placeBatch _ _ _ e
    next => exact State.kept_setMedia ..

/-! ### Slots -/

theorem State.kept_showKeys : r.Kept s.showKeys = r.Kept s := by simp only [State.showKeys, State.kept_puts]

theorem State.kept_loadSlot (k : KeySlot) : r.Kept (s.loadSlot k) = r.Kept s := by simp only [State.loadSlot, State.kept_setKeys, State.kept_showKeys]

theorem State.kept_clearSlot (n : Nat) : r.Kept (s.clearSlot n) = r.Kept s := by simp only [State.clearSlot, State.kept_setKeys, State.kept_showKeys]

/-! ### KEKs -/

theorem State.kept_deriveMedia : r.Kept s.deriveMedia = r.Kept s := by simp only [State.deriveMedia, State.kept_setKeys, State.kept_showKeys]

theorem State.kept_kekFor (func : Nat) : r.Kept (s.kekFor func).2 = r.Kept s := by
  unfold State.kekFor
  (repeat' split) <;> simp only [State.kept_setKeys]

/-! ### Masks -/

theorem State.kept_drawMasks (g blocks : Nat) : r.Kept (s.drawMasks g blocks) = r.Kept s := by simp only [State.drawMasks, State.kept_setKeys]

theorem State.kept_maskStall (p : Nat) : r.Kept (s.maskStall p) = r.Kept s := by
  simp only [State.maskStall, ite_self, State.kept_ite, State.kept_bump, State.kept_pulse, State.kept_record, State.kept_setKeys]

theorem State.kept_mediaStall : r.Kept s.mediaStall = r.Kept s := by
  unfold State.mediaStall
  (repeat' split) <;> simp only [State.kept_maskStall]

theorem State.kept_mediaBytes (n : Nat) : r.Kept (s.mediaBytes n) = r.Kept s := by simp only [State.mediaBytes, State.kept_bump, State.kept_drawMasks]

/-! ### Media keys -/

theorem State.kept_writeKeyPage (n : Nat) : r.Kept (State.writeKeyPage s n) = r.Kept s :=
  State.kept_of_forget (State.forget_writeKeyPage (T := 0xFFFFFFFFFFBFF7FE) rfl ..)

theorem State.kept_writeKeyPages : r.Kept s.writeKeyPages = r.Kept s := by
  simp only [State.writeKeyPages, State.kept_foldl, implies_true, State.kept_writeKeyPage]

theorem State.kept_newMediaKey (nsid : Nat) : r.Kept (s.newMediaKey nsid).2 = r.Kept s := by
  unfold State.newMediaKey
  (repeat' split) <;> simp only [State.kept_freshBytes, State.kept_loadSlot, State.kept_nextSeq, State.kept_setKeys, State.kept_writeKeyPage]

theorem State.kept_mediaKey (rec seq : Nat) : r.Kept (s.mediaKey rec seq).2 = r.Kept s := by
  unfold State.mediaKey
  (repeat' split) <;> simp only [State.kept_loadSlot]

theorem State.kept_dropKey (rec : Nat) : r.Kept (s.dropKey rec) = r.Kept s := by
  simp only [State.dropKey, ite_self, State.kept_ite, State.kept_foldl, implies_true, State.kept_clearSlot, State.kept_setKeys, State.kept_writeKeyPage]

/-! ### Alarms -/

theorem State.kept_zeroiseKeys : r.Kept s.zeroiseKeys = r.Kept s := by
  simp only [State.zeroiseKeys, State.kept_pulse, State.kept_setJobs, State.kept_setKeys, State.kept_showKeys]

/-! ### Key engine jobs -/

theorem State.kept_offerKeyJob (j : Job) : r.Kept (s.offerKeyJob j) = r.Kept s := by
  simp only [State.offerKeyJob, ite_self, State.kept_ite, State.kept_bump, State.kept_pulse, State.kept_record, State.kept_setKeys, State.kept_showKeys]

theorem State.kept_fetchKeyJobs : r.Kept s.fetchKeyJobs = r.Kept s := by
  simp only [State.fetchKeyJobs, State.kept_foldl, implies_true, State.kept_offerKeyJob, State.kept_takeJob]

theorem State.kept_keyErr (j : Job) (st : Nat) : r.Kept (s.keyErr j st) = r.Kept s := by
  simp only [State.keyErr, ite_self, State.kept_ite, State.kept_record]

theorem State.kept_keyDst (h : r.Kept s) (j : Job) (w : Bytes) : r.Kept (s.keyDst j w).2.2 := by
  unfold State.keyDst
  split
  · exact h
  · split
    next e => exact State.kept_xwrite h e
    next => exact (State.kept_xlateFault ..).mpr h

theorem State.kept_runKey (h : r.Kept s) (j : Job) : r.Kept (s.runKey j).2.2 := by
  unfold State.runKey
  extract_lets d op ty slot src fault
  have hf : ∀ a, r.Kept (fault a).2.2 := fun a => (State.kept_xlateFault ..).mpr h
  split
  · exact h
  split
  · split
    · exact h
    · split
      · exact (State.kept_deriveMedia ..).mpr h
      · exact h
  split
  · split
    · exact (State.kept_clearSlot ..).mpr h
    · exact h
  split
  next => exact h
  next kek t e =>
    have ht : r.Kept t := Eq.mpr (State.kept_snd e (State.kept_kekFor _)) h
    clear_value d op ty slot src fault
    split
    · split
      · exact ht
      split
      · exact ht
      split
      · exact State.kept_keyDst ht ..
      · exact ht
    split
    · have hl : ∀ k, r.Kept (t.loadSlot k) := fun k => (State.kept_loadSlot ..).mpr ht
      dsimp only
      split
      · exact State.kept_keyDst ((State.kept_loadSlot ..).mpr ((State.kept_freshBytes ..).mpr ht)) ..
      split
      · split
        · exact hf _
        split
        · exact hl _
        · exact ht
      split
      · split
        · exact ht
        split
        · exact hf _
        · exact ht
        · exact hl _
      split
      · exact ht
      split
      · exact hf _
      · exact hl _
    · exact ht

theorem State.kept_runFront (h : r.Kept s) (j : Job) : r.Kept (s.runFront j) := by
  simp only [State.runFront, State.kept_showKeys, State.kept_setKeys, State.kept_keyErr, State.kept_runKey, h]

theorem State.kept_keyJob (h : r.Kept s) (op : Nat) : r.Kept (s.keyJob op) := by
  unfold State.keyJob
  dsimp only
  (repeat' split) <;> simp only [State.kept_drawMasks, State.kept_fetchKeyJobs, State.kept_runFront, h]

theorem State.kept_closeKeyJobs (h : r.Kept s) (func : Nat) : r.Kept (s.closeKeyJobs func) := by
  unfold State.closeKeyJobs
  extract_lets t done u
  have ht : r.Kept t := by
    dsimp only [t]
    split
    next j _ =>
      split
      · have hj := State.kept_runFront h j
        exact ⟨hj.queue, h.mem, hj.otpWf, hj.bits, hj.seq⟩
      · exact h
    next => exact h
  refine State.kept_foldl_of ((State.kept_setKeys ..).mpr ht) fun v d => ?_
  exact State.kept_setDone ((State.kept_bump ..).mpr v.kept_refl) _

theorem State.kept_keyComplete (h : r.Kept s) : r.Kept s.keyComplete := by
  unfold State.keyComplete
  (repeat' split) <;> simp only [State.kept_refl, implies_true, State.kept_bump, State.kept_endJob, State.kept_setHost, State.kept_setKeys, State.kept_wake,
    State.kept_xlateFault, h]

/-! ### Rates -/

theorem State.kept_modNs (nsid : Nat) (f : Ns → Ns) : r.Kept (s.modNs nsid f) = r.Kept s := by
  simp only [State.modNs, State.kept_mk, State.keepsAs_self]

theorem State.kept_takeErr (code : Nat) : r.Kept (s.takeErr code) = r.Kept s := by simp only [State.takeErr, State.kept_record]

/-! ### Ring segments and windows -/

theorem State.kept_modWin (i : Nat) (f : Window → Window) : r.Kept (s.modWin i f) = r.Kept s := by simp only [State.modWin, State.kept_setTrig]

theorem State.kept_trigErr (code src : Nat) (slot : Option Nat) : r.Kept (s.trigErr code src slot) = r.Kept s := by
  simp only [State.trigErr, State.kept_record]

theorem State.kept_sealWindow (i : Nat) (cut : Bool) : r.Kept (s.sealWindow i cut) = r.Kept s := by
  simp only [State.sealWindow, ite_self, State.kept_ite, State.kept_modWin, State.kept_pulse]

theorem State.kept_pinSpan (i : Nat) (a : Nat) (b : Nat) : r.Kept (State.pinSpan s i a b).2 = r.Kept s :=
  State.kept_of_forget (State.forget_pinSpan (T := 0xFFFFFFFFFFBFF7FE) rfl ..)

theorem State.kept_pinFrame (i : Nat) (f : Nat × Nat × Nat) : r.Kept (s.pinFrame i f) = r.Kept s := by
  simp only [State.pinFrame, ite_self, State.kept_ite, State.kept_modWin, State.kept_pinSpan]

theorem State.kept_pinArriving (i : Nat) (f : FrameSt) : r.Kept (s.pinArriving i f) = r.Kept s := by
  unfold State.pinArriving
  (repeat' split) <;> simp only [ite_self, State.kept_ite, State.kept_modWin, State.kept_pinSpan]

theorem State.kept_joinWindows (uid capture : Nat) (f : Nat × Nat × Nat) : r.Kept (s.joinWindows uid capture f) = r.Kept s := by
  simp only [State.joinWindows, ite_self, State.kept_ite, State.kept_foldl, implies_true, State.kept_modWin, State.kept_pinFrame]

theorem State.kept_releaseSeg (nsid seg : Nat) : r.Kept (s.releaseSeg nsid seg) = r.Kept s := by
  simp only [State.releaseSeg, ite_self, State.kept_ite, State.kept_dropSpans, State.kept_modNs, State.kept_setImage, State.kept_setTake, State.kept_setTrig]

theorem State.kept_releaseWith (gn : Nat) : r.Kept (s.releaseWith gn) = r.Kept s := by
  simp only [State.releaseWith, State.kept_foldl, implies_true, State.kept_releaseSeg]

theorem State.kept_ringRoom (c : Contract) (newLen : Nat) : r.Kept (State.ringRoom s c newLen) = r.Kept s :=
  State.kept_of_forget (State.forget_ringRoom (T := 0xFFFFFFFFFFBFF7FE) rfl ..)

/-! ### Placing the container on media -/

theorem State.kept_placeAll : r.Kept (State.placeAll s) = r.Kept s :=
  State.kept_of_forget (State.forget_placeAll (T := 0xFFFFFFFFFFBFF7FE) rfl ..)

theorem State.kept_appendRaw (bs : Bytes) : r.Kept (s.appendRaw bs) = r.Kept s := by
  unfold State.appendRaw
  (repeat' split) <;> simp only [State.kept_placeAll, State.kept_ringRoom, State.kept_setTake]

/-! ### Records -/

theorem State.kept_appendIndex (c : Contract) : r.Kept (s.appendIndex c) = r.Kept s := by
  simp only [State.appendIndex, State.kept_appendRaw, State.kept_enterSpan, State.kept_setTake]

theorem State.kept_appendRec (bs : Bytes) : r.Kept (s.appendRec bs) = r.Kept s := by
  unfold State.appendRec
  (repeat' split) <;> simp only [State.kept_appendIndex, State.kept_appendRaw]

/-! ### Frames -/

theorem State.kept_modFrame (uid : Nat) (f : FrameSt → FrameSt) : r.Kept (s.modFrame uid f) = r.Kept s := by
  simp only [State.modFrame, State.kept_setTake]

theorem State.kept_showStreams : r.Kept s.showStreams = r.Kept s := by simp only [State.showStreams, State.kept_put]

theorem State.kept_finishFrame (uid : Nat) : r.Kept (s.finishFrame uid) = r.Kept s := by
  unfold State.finishFrame
  (repeat' split) <;> simp only [ite_self, State.kept_ite, State.kept_appendIndex, State.kept_appendRaw, State.kept_appendRec, State.kept_joinWindows, State.kept_modFrame,
    State.kept_setTake, State.kept_setTrig]

/-! ### Acknowledgement -/

theorem State.kept_flushAcks : r.Kept s.flushAcks = r.Kept s := by
  simp only [State.flushAcks, State.kept_foldl, implies_true, State.kept_send, State.kept_setTake]

theorem State.kept_ackFrame (f : FrameSt) (status stored time : Nat) : r.Kept (s.ackFrame f status stored time) = r.Kept s := by
  simp only [State.ackFrame, State.kept_flushAcks, State.kept_setTake]

theorem State.kept_unawait (uid : Nat) : r.Kept (s.unawait uid) = r.Kept s := by simp only [State.unawait, State.kept_setTrig]

theorem State.kept_refuseFrame (f : FrameSt) : r.Kept (s.refuseFrame f) = r.Kept s := by
  simp only [State.refuseFrame, State.kept_ackFrame, State.kept_takeErr, State.kept_unawait]

theorem State.kept_advanceSecured : r.Kept s.advanceSecured = r.Kept s := by
  unfold State.advanceSecured
  (repeat' split) <;> simp only [State.kept_foldl, implies_true, State.kept_ackFrame, State.kept_bump, State.kept_setTake]

theorem State.kept_showTake : r.Kept s.showTake = r.Kept s := by
  unfold State.showTake
  (repeat' split) <;> simp only [State.kept_modNs]

/-! ### Lanes -/

theorem State.kept_modLane (l : Nat) (f : LaneSt → LaneSt) : r.Kept (s.modLane l f) = r.Kept s := by
  unfold State.modLane
  (repeat' split) <;> simp only [State.kept_mk, State.keepsAs_self, State.kept_puts]

theorem State.kept_unparkJobs : r.Kept (State.unparkJobs s) = r.Kept s :=
  State.kept_of_forget (State.forget_unparkJobs (T := 0xFFFFFFFFFFBFF7FE) rfl ..)

theorem State.kept_dispatchSlices : r.Kept (State.dispatchSlices s) = r.Kept s :=
  State.kept_of_forget (State.forget_dispatchSlices (T := 0xFFFFFFFFFFBFF7FE) rfl ..)

theorem State.kept_queueSlices (uid n : Nat) : r.Kept (s.queueSlices uid n) = r.Kept s := by
  unfold State.queueSlices
  (repeat' split) <;> simp only [State.kept_dispatchSlices, State.kept_modFrame, State.kept_setTake]

theorem State.kept_endFrame (f : FrameSt) (status : Nat) (crc : Option Nat) (damaged : Bool) : r.Kept (s.endFrame f status crc damaged) = r.Kept s := by
  simp only [State.endFrame, ite_self, State.kept_ite, State.kept_bump, State.kept_gateErr, State.kept_modFrame, State.kept_pulse, State.kept_queueSlices,
    State.kept_showStreams]

theorem State.kept_endOpenFrames (status : Nat) : r.Kept (s.endOpenFrames status) = r.Kept s := by
  simp only [State.endOpenFrames, State.kept_foldl, implies_true, State.kept_endFrame]

/-! ### Acceptance -/

theorem State.kept_refuseTrigger (code src : Nat) : r.Kept (s.refuseTrigger code src) = r.Kept s := by
  simp only [State.refuseTrigger, State.kept_bump, State.kept_pulse, State.kept_trigErr]

theorem State.kept_pinRetained (i : Nat) : r.Kept (s.pinRetained i) = r.Kept s := by
  simp only [State.pinRetained, ite_self, State.kept_ite, State.kept_foldl, implies_true, State.kept_pinFrame]

theorem State.kept_pinUnderWay (i : Nat) : r.Kept (s.pinUnderWay i) = r.Kept s := by
  simp only [State.pinUnderWay, State.kept_foldl, implies_true, State.kept_pinArriving]

theorem State.kept_trigger (src tag time pre post : Nat) : r.Kept (s.trigger src tag time pre post) = r.Kept s := by
  unfold State.trigger
  dsimp only
  (repeat' split) <;> simp only [State.kept_foldl, implies_true, State.kept_bump, State.kept_modWin, State.kept_pinRetained, State.kept_pinUnderWay, State.kept_pulse,
    State.kept_refuseTrigger, State.kept_trigErr]

theorem State.kept_settleTriggers : r.Kept s.settleTriggers = r.Kept s := by
  simp only [State.settleTriggers, State.kept_foldl, implies_true, State.kept_setTrig, State.kept_trigger]

theorem State.kept_arrive (src tag time pre post : Nat) : r.Kept (s.arrive src tag time pre post) = r.Kept s := by
  simp only [State.arrive, ite_self, State.kept_ite, State.kept_setTrig, State.kept_settleTriggers]

/-! ### Lanes a contract reserves -/

theorem State.kept_reserveLanes (ls : List Nat) : r.Kept (s.reserveLanes ls) = r.Kept s := by
  simp only [State.reserveLanes, State.kept_foldl, implies_true, State.kept_put, State.kept_puts]

/-! ### Recomputation -/

theorem State.kept_modContract (f : Contract → Contract) : r.Kept (s.modContract f) = r.Kept s := by simp only [State.modContract, State.kept_setTake]

theorem State.kept_recompute : r.Kept s.recompute = r.Kept s := by
  unfold State.recompute
  (repeat' split) <;> simp only [ite_self, State.kept_ite, State.kept_bump, State.kept_dispatchSlices, State.kept_modContract, State.kept_pulse, State.kept_puts,
    State.kept_reserveLanes, State.kept_send, State.kept_takeErr]

/-! ### Frames that cannot be secured -/

theorem State.kept_cutPinned : r.Kept s.cutPinned = r.Kept s := by simp only [State.cutPinned, State.kept_setTrig]

theorem State.kept_cutTake : r.Kept s.cutTake = r.Kept s := by
  simp only [State.cutTake, State.kept_foldl, implies_true, State.kept_cutPinned, State.kept_refuseFrame, State.kept_setTake]

theorem State.kept_clearLanes (gone : List FrameSt) : r.Kept (State.clearLanes s gone) = r.Kept s :=
  State.kept_of_forget (State.forget_clearLanes (T := 0xFFFFFFFFFFBFF7FE) rfl ..)

theorem State.kept_refuseFrames (p : FrameSt → Bool) : r.Kept (s.refuseFrames p) = r.Kept s := by
  simp only [State.refuseFrames, State.kept_foldl, implies_true, State.kept_clearLanes, State.kept_refuseFrame, State.kept_setTake]

/-! ### The trailer -/

theorem State.kept_placeTrailer (c : Contract) (reason : Nat) : r.Kept (s.placeTrailer c reason) = r.Kept s := by
  simp only [State.placeTrailer, State.kept_appendIndex, State.kept_appendRaw, State.kept_padStripe, State.kept_setTake]

theorem State.kept_tryTrailer : r.Kept s.tryTrailer = r.Kept s := by
  unfold State.tryTrailer
  (repeat' split) <;> simp only [State.kept_placeTrailer]

/-! ### Closing -/

theorem State.kept_sealAll : r.Kept s.sealAll = r.Kept s := by
  simp only [State.sealAll, ite_self, State.kept_ite, State.kept_foldl, implies_true, State.kept_sealWindow]

theorem State.kept_closeTake (reason cause frameStatus : Nat) : r.Kept (s.closeTake reason cause frameStatus) = r.Kept s := by
  simp only [State.closeTake, ite_self, State.kept_ite, State.kept_advance, State.kept_endOpenFrames, State.kept_puts, State.kept_sealAll, State.kept_setTake,
    State.kept_settleTriggers, State.kept_takeErr, State.kept_tryTrailer]

theorem State.kept_closeExhausted (cause : Nat) : r.Kept (s.closeExhausted cause) = r.Kept s := by
  unfold State.closeExhausted
  (repeat' split) <;> simp only [State.kept_closeTake, State.kept_endOpenFrames, State.kept_refuseFrames]

theorem State.kept_closeOffline : r.Kept s.closeOffline = r.Kept s := by
  simp only [State.closeOffline, ite_self, State.kept_ite, State.kept_clearLanes, State.kept_closeTake, State.kept_cutTake, State.kept_puts, State.kept_setTake,
    State.kept_takeErr]

theorem State.kept_closeSafe : r.Kept s.closeSafe = r.Kept s := by
  simp only [State.closeSafe, ite_self, State.kept_ite, State.kept_closeTake, State.kept_endOpenFrames, State.kept_refuseFrames]

theorem State.kept_closeKeys : r.Kept s.closeKeys = r.Kept s := by
  unfold State.closeKeys
  dsimp only
  (repeat' split) <;> simp only [State.kept_closeTake, State.kept_padStripe, State.kept_put, State.kept_refuseFrames, State.kept_setTake]

theorem State.kept_releaseTake : r.Kept s.releaseTake = r.Kept s := by
  simp only [State.releaseTake, State.kept_advance, State.kept_puts, State.kept_reserveLanes, State.kept_setTake, State.kept_setTrig, State.kept_showStreams,
    State.kept_unparkJobs]

theorem State.kept_sealNs (nsid reason len : Nat) (incomplete : Bool) : r.Kept (s.sealNs nsid reason len incomplete) = r.Kept s := by
  unfold State.sealNs
  dsimp only
  (repeat' split) <;> simp only [State.kept_catalogChanged, State.kept_modNs, State.kept_nsChanged]

/-! ### The mode and what moves it without a request -/

theorem State.kept_enterSafe (h : r.Kept s) (bit : Nat) : r.Kept (s.enterSafe bit) := by
  simp only [State.enterSafe, ite_self, State.kept_ite, State.kept_closeSafe, State.kept_endPerturb, State.kept_pulse, State.kept_put, State.kept_record, State.kept_setMode, h]

/-! ### Reading a take back -/

theorem State.kept_readPlain (key : Bytes) (nsid : Nat) (unit : Nat) : r.Kept (State.readPlain s key nsid unit).2 = r.Kept s :=
  State.kept_of_forget (State.forget_readPlain (T := 0xFFFFFFFFFFBFF7FE) rfl ..)

theorem State.kept_readTake (n : Ns) (off : Nat) (len : Nat) : r.Kept (State.readTake s n off len).2 = r.Kept s :=
  State.kept_of_forget (State.forget_readTake (T := 0xFFFFFFFFFFBFF7FE) rfl ..)

/-! ### Settling -/

theorem State.kept_settle : r.Kept s.settle = r.Kept s := by
  simp only [State.settle, State.kept_advance, State.kept_put, State.kept_showTake, State.kept_tryTrailer]

/-! ### System cores -/

theorem State.kept_startSystem (c : Fin 72) : r.Kept (s.startSystem c) = r.Kept s := by
  simp only [State.startSystem, State.kept_fresh, State.kept_setCore]

theorem State.kept_checkSystem (h : r.Kept s) : r.Kept s.checkSystem := by
  simp only [State.checkSystem, ite_self, State.kept_ite, State.kept_enterSafe, h]

theorem State.kept_restartSystem (h : r.Kept s) (c : Fin 72) : r.Kept (s.restartSystem c) := by
  simp only [State.restartSystem, State.kept_parkCore, State.kept_setPwr, h]

theorem State.kept_restartEnds : r.Kept s.restartEnds = r.Kept s := by
  simp only [State.restartEnds, State.kept_foldl, implies_true, State.kept_setPwr, State.kept_startSystem]

/-! ### Uncorrectable errors -/

theorem State.kept_eccTrapped (h : r.Kept s) (c : Fin 72) : r.Kept (s.eccTrapped c) := by
  simp only [State.eccTrapped, ite_self, State.kept_ite, State.kept_checkSystem, State.kept_pulse, State.kept_record, State.kept_restartSystem, State.kept_retireCore,
    State.kept_setCore, h]

theorem State.kept_trapped (h : r.Kept s) (c : Fin 72) (k : Core) (t : Trap) (pc : BitVec 48) : r.Kept (s.trapped c k t pc) := by
  simp only [State.trapped, ite_self, State.kept_ite, State.kept_checkSystem, State.kept_eccTrapped, State.kept_trapCore, h]

/-! ### CUSTOM -/

theorem Ctx.suppress_state (t : Trap) : (x.suppress t).s = x.s := by
  unfold Ctx.suppress
  split
  · rfl
  · rfl

theorem kept_microWrites (h : r.Kept x.s) (m : Micro) (alu mem st dec : Option (Nat × Word)) : r.Kept (microWrites m x alu mem st dec).1.s := by
  unfold microWrites
  split
  · exact h
  · dsimp only
    split
    · exact (State.kept_fresh ..).mpr h
    · exact h

theorem State.kept_mcTrap (c e cause addr func : Nat) : r.Kept (s.mcTrap c e cause addr func) = r.Kept s := by
  simp only [State.mcTrap, State.kept_bump, State.kept_pulse, State.kept_puts, State.kept_record]

/-! ### One instruction -/

theorem kept_repeat {f : State → State} (hf : ∀ t : State, r.Kept t → r.Kept (f t)) (h : r.Kept s) (n : Nat) : r.Kept (n.repeat f s) := by
  induction n with
  | zero => exact h
  | succ n ih => exact hf _ ih

theorem keeps_guardMod {ok : Bool} {b : Body} (hb : b.Keeps) : (guardMod ok b).Keeps := by
  intro r x h
  unfold guardMod
  split
  · exact hb r x h
  · trivial

theorem keeps_unary (f : Word → Word) : (unary f).Keeps := fun _ _ h => Ctx.kept_operate h ..

theorem keeps_binary (f : Word → Word → Word) : (binary f).Keeps := fun _ _ h => Ctx.kept_operate h ..

theorem keeps_pushWord (w : Word) : (pushWord w).Keeps := fun _ _ h => Ctx.kept_operate h ..

theorem keeps_shuffle (n m : Nat) (f : Ctx → List Word) : (shuffle n m f).Keeps := fun _ _ h => Ctx.kept_operate h ..

theorem keeps_division (m : OpMod) (f : Word → Word → Word) : (division m f).Keeps := by
  intro r x h
  unfold division
  split
  next => trivial
  next y e =>
    have hy : r.Kept y.s := State.keptCtx_ok (Ctx.kept_needD h ..) e
    split
    · trivial
    · exact hy

theorem keeps_floating (m : OpMod) (n : Nat) (f : FFmt → List Nat → Nat × Nat) : (floating m n f).Keeps := by
  intro r x h
  unfold floating
  split
  next => trivial
  next =>
    split
    next => trivial
    next y e =>
      have hy : r.Kept y.s := State.keptCtx_ok (Ctx.kept_needD h ..) e
      exact hy

theorem keeps_loadBody (w : Lane) (sx : Bool) (e : Ecc) (n : Nat) (f : Ctx → Word) : (loadBody w sx e n f).Keeps := by
  intro r x h
  unfold loadBody
  split
  next => trivial
  next y ey =>
    have hy : r.Kept y.s := State.keptCtx_ok (Ctx.kept_needD h ..) ey
    split
    next => trivial
    next ez => exact Ctx.kept_load hy ez

theorem keeps_storeBody (w : Lane) (n : Nat) (f : Ctx → Word) : (storeBody w n f).Keeps := by
  intro r x h
  unfold storeBody
  split
  next => trivial
  next y ey =>
    have hy : r.Kept y.s := State.keptCtx_ok (Ctx.kept_needD h ..) ey
    split
    next => trivial
    next z ez =>
      have hz : r.Kept z.s := State.keptCtx_ok (Ctx.kept_store hy ..) ez
      exact hz

theorem keeps_bitIndirect (m : OpMod) (n common : Nat) (out : Ctx → Bool → List Word) (wr : Ctx → Option Bool) : (bitIndirect m n common out wr).Keeps := by
  refine keeps_guardMod fun r x h => ?_
  split
  next => trivial
  next y ey =>
    have hy : r.Kept y.s := State.keptCtx_ok (Ctx.kept_needD h ..) ey
    split
    next => trivial
    next p _ =>
      split
      next => trivial
      next w ew =>
        have hw : r.Kept w.s := State.keptCtx_ok (Ctx.kept_meetBit hy ..) ew
        dsimp only
        show r.Kept (Ctx.s _)
        split
        · exact Ctx.kept_putBit (x := (w.rep n (out w (w.getBit p))).spend _) hw ..
        · exact hw

theorem keeps_jumpRel (d : Int) : (jumpRel d).Keeps := fun _ _ h => h

theorem keeps_branchRel (zero : Bool) (d : Int) : (branchRel zero d).Keeps := by
  intro r x h
  unfold branchRel
  split
  next => trivial
  next y e =>
    have hy : r.Kept y.s := State.keptCtx_ok (Ctx.kept_needD h ..) e
    dsimp only
    split
    · exact hy
    · exact hy

theorem keeps_callTo (a : Ctx → Nat) : (callTo a).Keeps := by
  intro r x h
  unfold callTo
  split
  next => trivial
  next y e =>
    have hy : r.Kept y.s := State.keptCtx_ok (Ctx.kept_needR h ..) e
    split
    next => trivial
    next z ez =>
      have hz : r.Kept z.s := State.keptCtx_ok (Ctx.kept_goto hy _) ez
      exact hz

theorem kept_microMem (h : r.Kept x.s) (mop : Nat) (w : Lane) (sx : Bool) (a data : Word) : r.Kept (microMem x mop w sx a data).x.s := by
  unfold microMem
  split
  · split
    next => exact (Ctx.suppress_state _).symm ▸ h
    next e => exact Ctx.kept_load h e
  split
  · split
    next => exact (Ctx.suppress_state _).symm ▸ h
    next e => exact State.keptCtx_ok (Ctx.kept_store h ..) e
  · split
    next => exact h
    next =>
      split
      next => exact (Ctx.suppress_state _).symm ▸ h
      next z e =>
        have hz : r.Kept z.s := State.keptCtx_ok (Ctx.kept_meetBit h _) e
        show r.Kept (if _ then _ else _ : Ctx).s
        split
        · exact hz
        · exact Ctx.kept_putBit hz ..

theorem kept_microStep {m : Micro} (h : r.Kept m.x.s) (out at_ v : Nat) : r.Kept (microStep m out at_ v).micro.x.s := by
  unfold microStep
  extract_lets mod imm d dmode mop md sop cond res q cyc alu mem st dec w o n
  have hq : r.Kept q.x.s := by
    show r.Kept (if _ then _ else _ : MicroMem).x.s
    split
    · exact h
    · exact kept_microMem h ..
  have hn : r.Kept n.x.s := kept_microWrites hq ..
  clear_value n
  split
  · exact hn
  split
  · exact hn
  split
  · split
    · exact hn
    · exact hn
  · exact hn

theorem kept_microRun (store : List Nat) (out f : Nat) {m : Micro} (h : r.Kept m.x.s) (a : Nat) : r.Kept (microRun store out f m a).micro.x.s := by
  induction f generalizing m a with
  | zero => exact h
  | succ f ih =>
    have hs := kept_microStep h out a (store.getD a 0)
    unfold microRun
    split
    next e =>
      rw [e] at hs
      exact ih hs _
    next => exact hs

theorem keeps_customBody (e : BitVec 6) (imm : BitVec 4) : (customBody e imm).Keeps := by
  intro r x h
  unfold customBody
  dsimp only
  split
  · trivial
  · split
    next => trivial
    next y ey =>
      have hy : r.Kept y.s := State.keptCtx_ok (Ctx.kept_needD h ..) ey
      have hr := kept_microRun (r := r) (x.s.cluster (x.c / 8)).store (entOut ((x.s.cluster (x.c / 8)).entry e.toNat)) 256
        (m := microStart y (entIn ((x.s.cluster (x.c / 8)).entry e.toNat)) imm) hy (entStart ((x.s.cluster (x.c / 8)).entry e.toNat))
      split
      next em =>
        rw [em] at hr
        exact hr
      next em =>
        rw [em] at hr
        exact hr
      next em =>
        rw [em] at hr
        exact (State.kept_mcTrap ..).mpr hr

theorem State.kept_insn (h : r.Kept s) (c : Fin 72) (len cyc : Nat) {body : Body} (hb : body.Keeps) : r.Kept (s.insn c len cyc body) := by
  unfold State.insn
  dsimp only
  split
  · exact h
  split
  next => exact State.kept_trapped h ..
  next x ex =>
    have hx : r.Kept x.s := State.keptCtx_ok (Ctx.kept_fetch (x := ⟨s, c, s.cores[c], cyc, none, none, 0⟩) h ..) ex
    split
    next => exact State.kept_trapped h ..
    next y ey =>
      have hy : r.Kept y.s := State.keptCtx_ok (hb r { x with k := { x.k with pc := s.cores[c].pc + BitVec.ofNat 48 (2 * len) } } hx) ey
      refine kept_repeat (fun t ht => State.kept_eccTrapped ht c) ?_ _
      split
      · exact (State.kept_setCore ..).mpr hy
      · exact State.kept_trapped hy ..
      · exact Ctx.kept_retire hy c

theorem State.kept_coreUpsets : r.Kept s.coreUpsets = r.Kept s := by
  simp only [State.coreUpsets, State.kept_mk, State.keepsAs_self, State.kept_foldl, implies_true, State.kept_modCore]

/-! ### Errors -/

theorem State.kept_mediaErr (code gn : Nat) : r.Kept (s.mediaErr code gn) = r.Kept s := by simp only [State.mediaErr, State.kept_record]

theorem State.kept_arrayErr (code die gn : Nat) : r.Kept (s.arrayErr code die gn) = r.Kept s := by simp only [State.arrayErr, State.kept_record]

/-! ### Spares -/

theorem State.kept_chargeSpares : r.Kept s.chargeSpares = r.Kept s := by simp only [State.chargeSpares, State.kept_put]

theorem State.kept_exhaustSpares (h : r.Kept s) : r.Kept s.exhaustSpares := by
  simp only [State.exhaustSpares, State.kept_closeExhausted, State.kept_enterSafe, State.kept_pulse, State.kept_puts, State.kept_record, State.kept_settle, h]

theorem State.kept_convertSpare (x : Nat) : r.Kept (s.convertSpare x) = r.Kept s := by
  simp only [State.convertSpare, State.kept_bump, State.kept_journal, State.kept_pulse, State.kept_puts, State.kept_record]

theorem State.kept_checkSpares (h : r.Kept s) : r.Kept s.checkSpares := by
  simp only [State.checkSpares, ite_self, State.kept_ite, State.kept_convertSpare, State.kept_exhaustSpares, h]

theorem State.kept_restoreSpare : r.Kept s.restoreSpare = r.Kept s := by
  simp only [State.restoreSpare, ite_self, State.kept_ite, State.kept_convertSpare]

theorem State.kept_retireBlock (h : r.Kept s) (d b gn : Nat) : r.Kept (s.retireBlock d b gn) := by
  simp only [State.retireBlock, ite_self, State.kept_ite, State.kept_bump, State.kept_chargeSpares, State.kept_checkSpares, State.kept_journal, State.kept_mediaErr,
    State.kept_pulse, State.kept_setImage, State.kept_setMedia, h]

/-! ### Valid units and copies -/

theorem State.kept_copyWhere (g : Group) (p : Nat → Bool) (slcOut : Bool) : r.Kept (State.copyWhere s g p slcOut) = r.Kept s :=
  State.kept_of_forget (State.forget_copyWhere (T := 0xFFFFFFFFFFBFF7FE) rfl ..)

theorem State.kept_copyRange (g : Group) (lo hi : Nat) (slcOut : Bool) : r.Kept (s.copyRange g lo hi slcOut) = r.Kept s := by
  simp only [State.copyRange, State.kept_copyWhere]

/-! ### Array state -/

theorem State.kept_goOffline (h : r.Kept s) (cause : Nat) : r.Kept (s.goOffline cause) := by
  simp only [State.goOffline, ite_self, State.kept_ite, State.kept_arrayErr, State.kept_closeOffline, State.kept_enterSafe, State.kept_pulse, State.kept_put, State.kept_settle,
    h]

theorem State.kept_checkOffline (h : r.Kept s) : r.Kept s.checkOffline := by
  simp only [State.checkOffline, ite_self, State.kept_ite, State.kept_goOffline, h]

theorem State.kept_checkRow (h : r.Kept s) (gn i piece : Nat) : r.Kept (s.checkRow gn i piece) := by
  simp only [State.checkRow, ite_self, State.kept_ite, State.kept_goOffline, h]

/-! ### Rewriting -/

theorem State.kept_writeAgain (l : List Waiting) : r.Kept (s.writeAgain l) = r.Kept s := by
  simp only [State.writeAgain, ite_self, State.kept_ite, State.kept_foldl, implies_true, State.kept_padStripe, State.kept_placeOrWait]

theorem State.kept_voidStripe (gn i : Nat) : r.Kept (s.voidStripe gn i) = r.Kept s := by
  unfold State.voidStripe
  (repeat' split) <;> simp only [State.kept_modGroup, State.kept_setArray]

theorem State.kept_regroup (d : Nat) (old : List DieOp) (gone : DieOp → Bool) : r.Kept (s.regroup d old gone) = r.Kept s := by
  unfold State.regroup
  dsimp only
  (repeat' split) <;> simp only [State.kept_beginOps, State.kept_sendOnfi, State.kept_setSent]

theorem State.kept_dropPrograms (gn : Nat) (p : Nat → Bool) : r.Kept (s.dropPrograms gn p) = r.Kept s := by
  simp only [State.dropPrograms, State.kept_foldl, implies_true, State.kept_regroup, State.kept_setNand]

theorem State.kept_closeLost (gn : Nat) : r.Kept (s.closeLost gn) = r.Kept s := by
  unfold State.closeLost
  (repeat' split) <;> simp only [State.kept_foldl, implies_true, State.kept_closeEnding, State.kept_dropPrograms, State.kept_modGroup, State.kept_setArray,
    State.kept_voidStripe, State.kept_writeAgain]

theorem State.kept_endStripe (gn i : Nat) : r.Kept (s.endStripe gn i) = r.Kept s := by
  unfold State.endStripe
  (repeat' split) <;> simp only [State.kept_modGroup, State.kept_setArray]

theorem State.kept_programFailed (h : r.Kept s) (gn i m : Nat) : r.Kept (s.programFailed gn i m) := by
  unfold State.programFailed
  (repeat' split) <;> simp only [State.kept_closeGroup, State.kept_endStripe, State.kept_modGroup, State.kept_queueRefresh, State.kept_retireBlock, State.kept_voidUnissued,
    State.kept_writeAgain, h]

/-! ### Pages that move -/

theorem State.kept_moveCopy (n i : Nat) : r.Kept (s.moveCopy n i) = r.Kept s := by
  unfold State.moveCopy
  (repeat' split) <;> simp only [State.kept_addCopy]

theorem State.kept_requeueCopies (n : Nat) : r.Kept (s.requeueCopies n) = r.Kept s := by
  unfold State.requeueCopies
  (repeat' split) <;> simp only [State.kept_foldl, implies_true, State.kept_moveCopy]

theorem State.kept_movePages (ds : List Nat) : r.Kept (s.movePages ds) = r.Kept s := by
  simp only [State.movePages, State.kept_foldl, implies_true, State.kept_requeueCopies, State.kept_setMedia]

/-! ### Reshape -/

theorem State.kept_setReshape (r' : ReshapeRec) : r.Kept (s.setReshape r') = r.Kept s := by
  simp only [State.setReshape, State.kept_setArray, State.kept_setTally, State.kept_wearTally]

theorem State.kept_startReshape (newK : Nat) : r.Kept (s.startReshape newK) = r.Kept s := by
  simp only [State.startReshape, ite_self, State.kept_ite, State.kept_closeFull, State.kept_put, State.kept_puts, State.kept_setArray, State.kept_setReshape]

theorem State.kept_autoReshape : r.Kept s.autoReshape = r.Kept s := by
  unfold State.autoReshape
  dsimp only
  (repeat' split) <;> simp only [State.kept_startReshape]

/-! ### Lost members -/

theorem State.kept_setJournal (l : List Nat) : r.Kept (s.setJournal l) = r.Kept s := by simp only [State.setJournal, State.kept_puts]

theorem State.kept_replaceJournal (d : Nat) : r.Kept (s.replaceJournal d) = r.Kept s := by
  unfold State.replaceJournal
  dsimp only
  (repeat' split) <;> simp only [State.kept_arrayErr, State.kept_setJournal]

theorem State.kept_markLost (d : Nat) : r.Kept (s.markLost d) = r.Kept s := by
  simp only [State.markLost, ite_self, State.kept_ite, State.kept_arrayErr, State.kept_pulse, State.kept_put, State.kept_replaceJournal, State.kept_setArray]

theorem State.kept_failQueue (d : Nat) : r.Kept (s.failQueue d).2 = r.Kept s := by simp only [State.failQueue, State.kept_setNand]

theorem State.kept_skipErases (ops : List DieOp) : r.Kept (State.skipErases s ops) = r.Kept s :=
  State.kept_of_forget (State.forget_skipErases (T := 0xFFFFFFFFFFBFF7FE) rfl ..)

theorem State.kept_followChannels (h : r.Kept s) : r.Kept s.followChannels := by
  simp only [State.followChannels, ite_self, State.kept_ite, State.kept_autoReshape, State.kept_checkOffline, h]

theorem State.kept_closeHit (ds : List Nat) : r.Kept (s.closeHit ds) = r.Kept s := by
  simp only [State.closeHit, ite_self, State.kept_ite, State.kept_foldl, implies_true, State.kept_closeLost]

theorem State.kept_loseDies (h : r.Kept s) (ds : List Nat) : r.Kept (s.loseDies ds).2 := by
  unfold State.loseDies
  extract_lets new c0 t1 q t2 t3 t4 crit t5
  split
  · exact h
  · have hq : r.Kept q.2 := by
      refine List.foldlRecOn (motive := fun p : List DieOp × State => r.Kept p.2) _ _ ?_ fun p hp d _ => (State.kept_failQueue ..).mpr hp
      exact (State.kept_foldl fun t x => State.kept_markLost ..).mpr h
    have h4 : r.Kept t4 := by
      simp only [t4, t3, t2, State.kept_closeHit, State.kept_movePages, State.kept_setImage, State.kept_skipErases, hq]
    have h5 : r.Kept t5 := by
      refine .ite h4 ?_
      simp only [State.kept_foldl, State.kept_arrayErr, State.kept_pulse, implies_true, h4]
    clear_value t5 q
    exact (State.kept_settle ..).mpr ((State.kept_recompute ..).mpr (State.kept_followChannels h5))

/-! ### The SLC region -/

theorem State.kept_resizeSlc : r.Kept s.resizeSlc = r.Kept s := by simp only [State.resizeSlc, State.kept_setMedia]

/-! ### Format -/

theorem State.kept_formatCap : r.Kept s.formatCap.2 = r.Kept s := by
  unfold State.formatCap
  (repeat' split) <;> simp only [State.kept_fresh]

theorem State.kept_format : r.Kept s.format = r.Kept s := by
  simp only [State.format, State.kept_chargeSpares, State.kept_formatCap, State.kept_puts, State.kept_resizeSlc, State.kept_setArray, State.kept_setJournal, State.kept_setMedia,
    State.kept_setNand, State.kept_setReshape, State.kept_setTally, State.kept_writeBitmapHeader]

end Sys2Proof.Machine
end

section
/-!
What each of the model's functions keeps (`State.Kept`), in the model's order: stripes and array state, the background tasks of the media map and the
array, jobs of the engines, functions and their profiles.
-/

namespace Sys2Proof.Machine

open Sys2Proof.Laws

variable {r s : State} {x : Ctx}

/-! ### Replacement blocks -/

theorem State.kept_replaceMembers (h : r.Kept s) (gn : Nat) : r.Kept (s.replaceMembers gn).2 := by
  unfold State.replaceMembers
  split
  · exact h
  · refine List.foldlRecOn (motive := fun p : Bool × State => r.Kept p.2) _ _ h fun p hp m _ => ?_
    split
    · exact hp
    · split
      · exact hp
      · exact State.kept_checkSpares ((State.kept_chargeSpares ..).mpr ((State.kept_setImage ..).mpr ((State.kept_modGroup ..).mpr hp)))

/-! ### Journal and checkpoints -/

theorem State.kept_removeTake (nsid : Nat) : r.Kept (s.removeTake nsid) = r.Kept s := by
  unfold State.removeTake
  (repeat' split) <;> simp only [State.kept_mk, State.keepsAs_self, State.kept_cancelWhere, State.kept_catalogChanged, State.kept_closeTakeGroups, State.kept_dropKey,
    State.kept_dropSpans, State.kept_freeEmpty, State.kept_nsChanged, State.kept_restoreSpare, State.kept_setImage, State.kept_setTake, State.kept_wake]

theorem State.kept_recsDurable (rs : List JRec) : r.Kept (s.recsDurable rs) = r.Kept s := by
  simp only [State.recsDurable, State.kept_foldl, implies_true, State.kept_completeCmd, State.kept_removeTake, State.kept_setMedia]

theorem kept_execJournalPageWrite (h : r.Kept s) : r.KeptOut (execJournalPageWrite s) := by
  simp only [execJournalPageWrite, ite_self, State.kept_mk, State.keepsAs_self, State.keptOut_next, State.keptOut_ite, State.kept_writeJournal, h]

theorem State.kept_placeMeta (kind logical : Nat) (data : Bytes) {t : State} (e : s.placeMeta kind logical data = some t) : r.Kept t = r.Kept s :=
  State.kept_placeUnit _ _ _ _ _ _ _ _ e

theorem State.kept_writeMap (p : Nat) : r.Kept (s.writeMap p) = r.Kept s := by
  unfold State.writeMap
  split
  next e => exact (State.kept_setMedia ..).trans (State.kept_placeMeta _ _ _ e)
  next => exact State.kept_noPlace ..

theorem State.kept_writeDir (d : Nat) : r.Kept (s.writeDir d) = r.Kept s := by
  unfold State.writeDir
  split
  next e => exact (State.kept_setMedia ..).trans (State.kept_placeMeta _ _ _ e)
  next => exact State.kept_noPlace ..

theorem State.kept_writeAudit : r.Kept s.writeAudit = r.Kept s := by
  unfold State.writeAudit
  split
  next => rfl
  next =>
    dsimp only
    split
    next e => exact (State.kept_setMedia ..).trans (State.kept_placeMeta _ _ _ e)
    next => exact State.kept_noPlace ..

theorem State.kept_fixCkpt : r.Kept s.fixCkpt = r.Kept s := by
  simp only [State.fixCkpt, ite_self, State.kept_ite, State.kept_foldl, implies_true, State.kept_padStripe, State.kept_setMedia, State.kept_writeJournal,
    State.kept_writeKeyPages, State.kept_writeMap]

theorem State.kept_writeDirs (c : Ckpt) : r.Kept (s.writeDirs c) = r.Kept s := by
  simp only [State.writeDirs, State.kept_foldl, implies_true, State.kept_padStripe, State.kept_setMedia, State.kept_writeDir]

theorem State.kept_sendCkpt (c : Ckpt) : r.Kept (s.sendCkpt c) = r.Kept s := by
  unfold State.sendCkpt
  dsimp only
  split
  next e => exact (State.kept_setMedia ..).trans (State.kept_putPage _ _ _ _ e)
  next => rfl

theorem State.kept_ckptStep : r.Kept s.ckptStep = r.Kept s := by
  unfold State.ckptStep
  (repeat' split) <;> simp only [ite_self, State.kept_ite, State.kept_fixCkpt, State.kept_sendCkpt, State.kept_writeDirs]

theorem State.kept_startCkpt : r.Kept s.startCkpt = r.Kept s := by
  simp only [State.startCkpt, State.kept_ckptStep, State.kept_put, State.kept_setMedia]

theorem State.kept_writePointer (num : Nat) : r.Kept (s.writePointer num) = r.Kept s := by
  simp only [State.writePointer, State.kept_setTally, State.kept_wearTally]

theorem State.kept_takeCkpt (c : Ckpt) : r.Kept (s.takeCkpt c) = r.Kept s := by
  simp only [State.takeCkpt, State.kept_dropPages, State.kept_pulse, State.kept_put, State.kept_setMedia, State.kept_writePointer]

theorem State.kept_putPageNow (kind : Nat) (seq : Nat) (data : Bytes) : r.Kept (State.putPageNow s kind seq data).2 = r.Kept s :=
  State.kept_of_forget (State.forget_putPageNow (T := 0xFFFFFFFFFFBFF7FE) rfl ..)

theorem State.kept_installCkpt : r.Kept s.installCkpt = r.Kept s := by simp only [State.installCkpt, State.kept_putPageNow, State.kept_takeCkpt]

theorem State.kept_ckptReady : r.Kept s.ckptReady.2 = r.Kept s := by
  unfold State.ckptReady
  (repeat' split) <;> simp only [State.kept_ckptStep, State.kept_requeueCopies, State.kept_startCkpt]

theorem kept_execJournalPageDurable (h : r.Kept s) : r.KeptOut (execJournalPageDurable s) := by
  unfold execJournalPageDurable
  (repeat' split) <;> simp only [State.keptOut_next, State.kept_ckptStep, State.kept_closeEnding, State.kept_recsDurable, State.kept_requeueCopies, State.kept_retryWaiting,
    State.kept_setMedia, h]

theorem kept_execCheckpointPeriod (h : r.Kept s) : r.KeptOut (execCheckpointPeriod s) := by
  simp only [execCheckpointPeriod, ite_self, State.kept_mk, State.keepsAs_self, State.keptOut_next, State.keptOut_ite, State.kept_startCkpt, h]

theorem kept_execCheckpointJournalLimit (h : r.Kept s) : r.KeptOut (execCheckpointJournalLimit s) := by
  simp only [execCheckpointJournalLimit, ite_self, State.keptOut_next, State.keptOut_ite, State.kept_startCkpt, h]

/-! ### The SLC region -/

theorem kept_execSlcResize (h : r.Kept s) : r.KeptOut (execSlcResize s) := by
  simp only [execSlcResize, ite_self, State.keptOut_next, State.keptOut_ite, State.kept_resizeSlc, h]

theorem State.kept_relocate (g : Group) (why : Nat) : r.Kept (s.relocate g why) = r.Kept s := by
  simp only [State.relocate, ite_self, State.kept_ite, State.kept_copyRange, State.kept_freeGroup, State.kept_setMedia]

theorem kept_execSlcMigration (h : r.Kept s) : r.KeptOut (execSlcMigration s) := by
  unfold execSlcMigration
  (repeat' split) <;> simp only [State.keptOut_next, State.kept_relocate, h]

/-! ### Garbage collection -/

theorem State.kept_showPool : r.Kept s.showPool = r.Kept s := by simp only [State.showPool, State.kept_level]

theorem State.kept_noteGreedy : r.Kept s.noteGreedy = r.Kept s := by
  simp only [State.noteGreedy, ite_self, State.kept_ite, State.kept_pulse, State.kept_putBit]

theorem kept_execGcVictimSelect (h : r.Kept s) : r.KeptOut (execGcVictimSelect s) := by
  unfold execGcVictimSelect
  dsimp only
  (repeat' split) <;> simp only [State.keptOut_next, State.kept_freeEmpty, State.kept_noteGreedy, State.kept_relocate, State.kept_showPool, h]

theorem kept_execRefreshRelocate (h : r.Kept s) : r.KeptOut (execRefreshRelocate s) := by
  unfold execRefreshRelocate
  dsimp only
  (repeat' split) <;> simp only [State.keptOut_next, State.kept_mediaErr, State.kept_pulse, State.kept_relocate, State.kept_setMedia, State.kept_showPool, h]

theorem State.kept_readGroup (g : Group) : r.Kept (s.readGroup g) = r.Kept s := by
  simp only [State.readGroup, ite_self, State.kept_ite, State.kept_foldl, implies_true, State.kept_queueOp]

theorem kept_execPatrol (h : r.Kept s) : r.KeptOut (execPatrol s) := by
  unfold execPatrol
  dsimp only
  (repeat' split) <;> simp only [State.kept_mk, State.keepsAs_self, State.keptOut_next, State.kept_readGroup, State.kept_setMedia, h]

theorem kept_execWearLevel (h : r.Kept s) (ch : Fin 32) (die : Fin 16) : r.KeptOut (execWearLevel ch die s) := by
  unfold execWearLevel
  (repeat' split) <;> simp only [State.keptOut_next, State.kept_relocate, State.kept_showPool, h]

theorem kept_execRelocationCopyDone (h : r.Kept s) : r.KeptOut (execRelocationCopyDone s) := by
  unfold execRelocationCopyDone
  (repeat' split) <;> simp only [State.keptOut_next, State.kept_bump, State.kept_copyRange, State.kept_freeGroup, State.kept_retryWaiting, State.kept_setMedia, h]

/-! ### Erasure -/

theorem kept_execGroupErase (h : r.Kept s) (g : Nat) : r.KeptOut (execGroupErase g s) := by
  unfold execGroupErase
  (repeat' split) <;> simp only [ite_self, State.kept_foldl_of, State.kept_ite, State.kept_refl, implies_true, State.keptOut_next, State.kept_modGroup, State.kept_queueOp,
    State.kept_releaseWith, h]

theorem kept_execGroupErased (h : r.Kept s) (g : Nat) : r.KeptOut (execGroupErased g s) := by
  unfold execGroupErased
  (repeat' split) <;> simp only [State.keptOut_next, State.kept_journal, State.kept_retryWaiting, State.kept_setImage, State.kept_setMedia, State.kept_showPool, h]

/-! ### Map pages, write buffer, key table -/

theorem kept_execMapPageWriteback (h : r.Kept s) : r.KeptOut (execMapPageWriteback s) := by
  unfold execMapPageWriteback
  (repeat' split) <;> simp only [ite_self, State.kept_ite, State.keptOut_next, State.kept_padStripe, State.kept_writeAudit, State.kept_writeDir, State.kept_writeMap, h]

theorem State.kept_drainOne (w : BufEnt) (use : GroupUse) : r.Kept (s.drainOne w use) = r.Kept s := by
  unfold State.drainOne
  split
  next => rfl
  next =>
    split
    · exact State.kept_mediaStall ..
    split
    next e => exact State.kept_snd e (State.kept_mediaKey ..)
    next t e =>
      have ht : r.Kept (t.mediaBytes 4096) = r.Kept s := (State.kept_mediaBytes ..).trans (State.kept_snd e (State.kept_mediaKey ..))
      dsimp only
      split
      next => exact (State.kept_noPlace ..).trans ht
      next e' =>
        rw [State.kept_setImage, State.kept_setMedia]
        exact (State.kept_placeUnit _ _ _ _ _ _ _ _ e').trans ht

theorem State.kept_drainBuffer : r.Kept s.drainBuffer = r.Kept s := by
  simp only [State.drainBuffer, State.kept_foldl, implies_true, State.kept_drainOne, State.kept_padStripe]

theorem kept_execBlockWriteBufferDrain (h : r.Kept s) : r.KeptOut (execBlockWriteBufferDrain s) := by
  simp only [execBlockWriteBufferDrain, ite_self, State.keptOut_next, State.keptOut_ite, State.kept_drainBuffer, State.kept_showPool, h]

theorem State.kept_purgeKeyPage (n : Nat) : r.Kept (s.purgeKeyPage n) = r.Kept s := by
  unfold State.purgeKeyPage
  (repeat' split) <;> simp only [State.kept_foldl, implies_true, State.kept_closeGroup, State.kept_freeEmpty, State.kept_logReady, State.kept_queueRefresh, State.kept_setKeys]

theorem kept_execKeyTablePurge (h : r.Kept s) : r.KeptOut (execKeyTablePurge s) := by
  simp only [execKeyTablePurge, ite_self, State.kept_foldl_of, State.kept_refl, implies_true, State.keptOut_next, State.keptOut_ite, State.kept_purgeKeyPage,
    State.kept_writeKeyPages, h]

/-! ### Snapshot and bitmap -/

theorem State.kept_clearRegions : r.Kept s.clearRegions = r.Kept s := by
  simp only [State.clearRegions, ite_self, State.kept_ite, State.kept_writeBitmap]

theorem kept_execStripeSnapshot (h : r.Kept s) : r.KeptOut (execStripeSnapshot s) := by
  unfold execStripeSnapshot
  split
  next => exact (State.kept_requeueCopies ..).mpr h
  next =>
    refine State.keptOut_of_ite h ?_
    dsimp only
    split
    next e => exact (State.kept_setArray ..).mpr (Eq.mpr (State.kept_putPage _ _ _ _ e) h)
    next => exact h

theorem State.kept_snapStep : r.Kept s.snapStep = r.Kept s := by
  unfold State.snapStep
  (repeat' split) <;> simp only [State.kept_clearRegions, State.kept_dropPages, State.kept_issueReady, State.kept_setArray]

theorem kept_execBitmapMove (h : r.Kept s) : r.KeptOut (execBitmapMove s) := by
  simp only [execBitmapMove, ite_self, State.keptOut_next, State.keptOut_ite, State.kept_put, State.kept_setArray, State.kept_wearTally, State.kept_writeBitmapHeader, h]

/-! ### Resynchronisation -/

theorem State.kept_resyncEnd (gn i : Nat) (f : Stripe → Stripe) : r.Kept (s.resyncEnd gn i f) = r.Kept s := by
  simp only [State.resyncEnd, State.kept_modGroup, State.kept_setArray]

theorem State.kept_resyncAt (gn i : Nat) : r.Kept (s.resyncAt gn i) = r.Kept s := by
  unfold State.resyncAt
  (repeat' split) <;> simp only [ite_self, State.kept_ite, State.kept_copyWhere, State.kept_resyncEnd]

theorem kept_execResyncStripe (h : r.Kept s) : r.KeptOut (execResyncStripe s) := by
  unfold execResyncStripe
  (repeat' split) <;> simp only [ite_self, State.kept_ite, State.keptOut_next, State.kept_freeEmpty, State.kept_pulse, State.kept_resyncAt, h]

/-! ### Rebuild -/

theorem State.kept_rebuildAt (h : r.Kept s) (gn i : Nat) : r.Kept (s.rebuildAt gn i) := by
  unfold State.rebuildAt
  (repeat' split) <;> simp only [ite_self, State.kept_foldl_of, State.kept_ite, State.kept_refl, implies_true, State.kept_goOffline, State.kept_queueOp, State.kept_resyncAt,
    State.kept_sendOnfi, h]

theorem State.kept_rebuildEvents (crit : Bool) : r.Kept (s.rebuildEvents crit) = r.Kept s := by
  simp only [State.rebuildEvents, ite_self, State.kept_ite, State.kept_pulse]

theorem State.kept_rebuilt (gn i m d block : Nat) (ps : List (Nat × Bytes × Bytes)) : r.Kept (s.rebuilt gn i m d block ps) = r.Kept s := by
  simp only [State.rebuilt, State.kept_bump, State.kept_modGroup, State.kept_programUnit, State.kept_rebuildEvents]

theorem State.kept_rebuildFailed (h : r.Kept s) (gn i m d block : Nat) : r.Kept (s.rebuildFailed gn i m d block) := by
  simp only [State.rebuildFailed, State.kept_modGroup, State.kept_queueRefresh, State.kept_rebuildEvents, State.kept_retireBlock, h]

theorem State.kept_noteWait (gn : Nat) : r.Kept (s.noteWait gn) = r.Kept s := by
  simp only [State.noteWait, ite_self, State.kept_ite, State.kept_arrayErr, State.kept_pulse, State.kept_setArray]

theorem kept_execRebuildStripe (h : r.Kept s) : r.KeptOut (execRebuildStripe s) := by
  unfold execRebuildStripe
  refine State.keptOut_of_ite h ?_
  extract_lets l t
  have ht : r.Kept t := State.kept_foldl_of h fun u _ => (State.kept_noteWait ..).mpr u.kept_refl
  clear_value t
  split
  next => exact ht
  next => exact State.kept_rebuildAt ((State.kept_setArray ..).mpr (State.kept_replaceMembers ht _)) ..

/-! ### Reshape -/

theorem State.kept_endReshape (h : r.Kept s) (r' : ReshapeRec) : r.Kept (s.endReshape r') := by
  simp only [State.endReshape, State.kept_arrayErr, State.kept_followChannels, State.kept_pulse, State.kept_puts, State.kept_setArray, State.kept_setImage,
    State.kept_setReshape, h]

theorem kept_execReshapeRegion (h : r.Kept s) : r.KeptOut (execReshapeRegion s) := by
  unfold execReshapeRegion
  split
  next => exact h
  next x _ =>
    refine State.keptOut_of_ite h ?_
    extract_lets hi parts left passed t1 n gain t2 x2 t4
    have h1 : r.Kept t1 := (State.kept_foldl fun t n => by
      split
      · simp only [State.kept_ite, State.kept_freeGroup, ite_self]
      · rfl).mpr h
    have h4 : r.Kept t4 := by
      simp only [t4, t2, State.kept_put, State.kept_setReshape, State.kept_setArray, State.kept_ite, ite_self, h1]
    clear_value t4 left parts
    split
    · refine (State.kept_foldl fun t x => ?_).mpr h
      split
      · simp only [State.kept_ite, State.kept_copyRange, ite_self]
      · rfl
    · exact .ite (State.kept_endReshape h4 _) h4

/-! ### Lanes -/

theorem State.kept_modSlice (uid idx : Nat) (f : TakeSlice → TakeSlice) : r.Kept (s.modSlice uid idx f) = r.Kept s := by
  simp only [State.modSlice, State.kept_setTake]

theorem State.kept_startReemit (uid idx l : Nat) : r.Kept (s.startReemit uid idx l) = r.Kept s := by
  unfold State.startReemit
  (repeat' split) <;> simp only [State.kept_modLane, State.kept_modSlice]

theorem State.kept_resumeLane (l : Nat) : r.Kept (s.resumeLane l) = r.Kept s := by simp only [State.resumeLane, State.kept_modLane]

theorem State.kept_emptyLane (l : Nat) : r.Kept (State.emptyLane s l) = r.Kept s :=
  State.kept_of_forget (State.forget_emptyLane (T := 0xFFFFFFFFFFBFF7FE) rfl ..)

theorem State.kept_retireLane (h : r.Kept s) (l : Nat) : r.Kept (s.retireLane l) := by
  simp only [State.retireLane, ite_self, State.kept_ite, State.kept_dispatchSlices, State.kept_emptyLane, State.kept_enterSafe, State.kept_pulse, State.kept_puts,
    State.kept_recompute, State.kept_record, h]

theorem State.kept_laneMiss (h : r.Kept s) (l block func : Nat) (stored : Bool) : r.Kept (s.laneMiss l block func stored) := by
  simp only [State.laneMiss, ite_self, State.kept_ite, State.kept_bump, State.kept_modLane, State.kept_pulse, State.kept_put, State.kept_record, State.kept_retireLane, h]

/-! ### Output -/

theorem kept_writePages (h : r.Kept s) (func : Nat) (ps : List (Nat × Nat)) (bs : Bytes) : r.Kept (writePages func ps bs s) := by
  refine List.foldlRecOn (motive := fun p : State × Bytes => r.Kept p.1) _ _ h fun p hp x _ => ?_
  show r.Kept (match p.1.xwrite func x.1 (p.2.take x.2) with | .ok u => u | .error _ => p.1)
  split
  next e => exact State.kept_xwrite hp e
  next => exact hp

theorem kept_zeroSpans (h : r.Kept s) (func : Nat) (ps : List (Nat × Nat)) : r.Kept (zeroSpans func ps s) := by
  simp only [zeroSpans, kept_writePages, h]

/-! ### Jobs -/

theorem State.kept_shearsRecord (d : Bytes) (status reemits out used crc chains : Nat) : r.Kept (s.shearsRecord d status reemits out used crc chains).2 = r.Kept s := by
  unfold State.shearsRecord
  (repeat' split) <;> simp only [State.kept_freshBytes]

theorem State.kept_shearsFail (h : r.Kept s) (j : Job) (status reemits : Nat) (spans : List (Nat × Nat)) : r.Kept (s.shearsFail j status reemits spans).2 := by
  simp only [State.shearsFail, State.kept_shearsRecord, kept_zeroSpans, h]

theorem State.kept_freeSpans (spans : List (Nat × Nat)) : r.Kept (s.freeSpans spans).2 = r.Kept s := by simp only [State.freeSpans, State.kept_fresh]

theorem kept_writeSpans (h : r.Kept s) (func : Nat) (ps : List (Nat × Nat)) (bs : Bytes) (acc : List (Nat × Nat)) :
    (∀ t, writeSpans func ps bs acc s = .ok t → r.Kept t) ∧ ∀ p, writeSpans func ps bs acc s = .error p → r.Kept p.2.2 := by
  induction ps generalizing bs acc s with
  | nil => exact ⟨fun t e => by cases e; exact h, fun p e => by cases e⟩
  | cons x ps ih =>
    unfold writeSpans
    dsimp only
    split
    · exact ⟨fun t e => by cases e; exact h, fun p e => by cases e⟩
    · split
      next ew => exact ih (State.kept_xwrite h ew) _ _
      next => exact ⟨fun t e => by (cases e), fun p e => by cases e; exact h⟩

theorem State.kept_shearsPlace (h : r.Kept s) (j : Job) (reemits used crc blocks : Nat) (out : Bytes) :
    r.Kept (s.shearsPlace j reemits used crc blocks out).2 := by
  unfold State.shearsPlace
  dsimp only
  split
  next => exact State.kept_shearsFail ((State.kept_xlateFault ..).mpr h) ..
  next => exact State.kept_shearsFail h ..
  next => exact State.kept_shearsFail h ..
  next =>
    split
    next e => exact State.kept_shearsFail ((State.kept_xlateFault ..).mpr ((kept_writeSpans h ..).2 _ e)) ..
    next e => exact (State.kept_shearsRecord ..).mpr ((kept_writeSpans h ..).1 _ e)

theorem State.kept_shearsJob (h : r.Kept s) (j : Job) (bad : List Nat) : r.Kept (s.shearsJob j bad).2 := by
  unfold State.shearsJob
  dsimp only
  (repeat' split) <;> simp only [State.kept_freeSpans, State.kept_shearsFail, State.kept_shearsPlace, State.kept_shearsRecord, State.kept_xlateFault, h]

theorem kept_jobMiss (func : Nat) {p : State × Option Nat × Nat × List Nat} (h : r.Kept p.1) (b : Nat) : r.Kept (jobMiss func p b).1 := by
  unfold jobMiss
  dsimp only
  split
  · exact h
  · split
    · exact State.kept_laneMiss h ..
    · split
      · exact State.kept_laneMiss h ..
      · exact (State.kept_pulse ..).mpr ((State.kept_bump ..).mpr ((State.kept_bump ..).mpr (State.kept_laneMiss h ..)))

theorem State.kept_startShears (h : r.Kept s) (src : JobSrc) (l op : Nat) (bad : List Nat) : r.Kept (s.startShears src l op bad) := by
  unfold State.startShears
  split
  next j k turns _ _ =>
    split
    · exact h
    · extract_lets q blocks miss t w
      have hq : r.Kept q.2 := State.kept_shearsJob ((State.kept_setJobs ..).mpr ((State.kept_takeJob ..).mpr h)) ..
      have hw : r.Kept w.1 :=
        List.foldlRecOn (motive := fun p : State × Option Nat × Nat × List Nat => r.Kept p.1) _ _ ((State.kept_modLane ..).mpr hq) fun p hp b _ =>
          kept_jobMiss _ hp b
      clear_value w
      split
      · exact (State.kept_resumeLane ..).mpr ((State.kept_setJobs ..).mpr hw)
      · exact .ite hw ((State.kept_modLane ..).mpr ((State.kept_resumeLane ..).mpr hw))
  next => exact h

/-! ### Reads -/

theorem State.kept_needPages (k : CmdKey) (nsid : Nat) (lba : Nat) (count : Nat) : r.Kept (State.needPages s k nsid lba count).2 = r.Kept s :=
  State.kept_of_forget (State.forget_needPages (T := 0xFFFFFFFFFFBFF7FE) rfl ..)

theorem State.kept_queueReads (k : CmdKey) (nsid lba count : Nat) : r.Kept (s.queueReads k nsid lba count).2 = r.Kept s := by
  simp only [State.queueReads, State.kept_foldl, implies_true, State.kept_needPages, State.kept_queueOp]

theorem State.kept_aheadOf (nsid : Nat) (lba : Nat) (count : Nat) : r.Kept (State.aheadOf s nsid lba count) = r.Kept s :=
  State.kept_of_forget (State.forget_aheadOf (T := 0xFFFFFFFFFFBFF7FE) rfl ..)

theorem State.kept_readRange (n : Ns) (lba : Nat) (count : Nat) : r.Kept (State.readRange s n lba count).2 = r.Kept s :=
  State.kept_of_forget (State.forget_readRange (T := 0xFFFFFFFFFFBFF7FE) rfl ..)

/-! ### Source ranges of a memory copy -/

theorem State.kept_readSources (l : List (Nat × Nat × Nat)) : r.Kept (s.readSources l).2 = r.Kept s := by
  induction l generalizing s with
  | nil => rfl
  | cons x l ih =>
    unfold State.readSources
    split
    next => rfl
    next =>
      split
      next e => exact State.kept_snd e (State.kept_readRange ..)
      next b t e =>
        have ht : r.Kept t = r.Kept s := State.kept_snd e (State.kept_readRange ..)
        split
        next e' => exact (State.kept_snd e' ih).trans ht
        next e' => exact (State.kept_snd e' ih).trans ht

/-! ### Completion -/

theorem State.kept_finishIo (h : r.Kept s) (k : CmdKey) : r.Kept (s.finishIo k) := by
  unfold State.finishIo
  split
  next => exact h
  next c _ =>
    split
    next => exact (State.kept_completeCmd ..).mpr h
    next =>
      split
      · exact (State.kept_completeCmd ..).mpr h
      split
      · exact (State.kept_modCmd ..).mpr ((State.kept_mediaStall ..).mpr h)
      split
      · exact (State.kept_modCmd ..).mpr h
      extract_lets u
      have hu : r.Kept u := (State.kept_foldl fun t x => State.kept_aheadOf ..).mpr h
      clear_value u
      split
      · exact (State.kept_modCmd ..).mpr hu
      split
      · split
        next => exact (State.kept_completeCmd ..).mpr hu
        next =>
          split
          next e => exact (State.kept_completeCmd ..).mpr (Eq.mpr (State.kept_snd e (State.kept_readSources _)) hu)
          next bs t e =>
            have ht : r.Kept t := Eq.mpr (State.kept_snd e (State.kept_readSources _)) hu
            split
            next => exact (State.kept_completeCmd ..).mpr ((State.kept_xlateFault ..).mpr ht)
            next ew => exact (State.kept_completeCmd ..).mpr ((State.kept_hostActive ..).mpr (State.kept_xwrite ht ew))
      · split
        next e => exact (State.kept_completeCmd ..).mpr (Eq.mpr (State.kept_snd e (State.kept_readRange ..)) hu)
        next bs t e =>
          have ht : r.Kept t := Eq.mpr (State.kept_snd e (State.kept_readRange ..)) hu
          simp only [State.kept_ite, State.kept_completeCmd, State.kept_hostActive, State.kept_toHost, ht, ite_self]

theorem State.kept_resumeReading (h : r.Kept s) (p : HCmd → Bool) : r.Kept (s.resumeReading p) := by
  simp only [State.resumeReading, State.kept_foldl_of, State.kept_refl, implies_true, State.kept_finishIo, h]

theorem State.kept_readEnded (h : r.Kept s) (k : CmdKey) : r.Kept (s.readEnded k) := by
  unfold State.readEnded
  (repeat' split) <;> simp only [State.kept_finishIo, State.kept_modCmd, h]

theorem State.kept_startReads (h : r.Kept s) (k : CmdKey) (ranges : List (Nat × Nat × Nat)) : r.Kept (s.startReads k ranges) := by
  unfold State.startReads
  extract_lets q t
  have hq : r.Kept q.2 := List.foldlRecOn (motive := fun p : Nat × State => r.Kept p.2) _ _ h fun p hp x _ => (State.kept_queueReads ..).mpr hp
  have ht : r.Kept t := (State.kept_modCmd ..).mpr hq
  exact .ite (State.kept_finishIo ht k) ht

theorem State.kept_endOps (h : r.Kept s) (ops : List DieOp) : r.Kept (s.endOps ops) :=
  State.kept_foldl_of h fun t o => by
    split
    · exact .ite (State.kept_readEnded t.kept_refl _) t.kept_refl
    · exact t.kept_refl

/-! ### Contexts -/

theorem State.kept_freeCtx (n : Nat) : r.Kept (s.freeCtx n) = r.Kept s := by simp only [State.freeCtx, State.kept_setKeys, State.kept_showKeys]

theorem State.kept_setCtx (c : GcmCtx) : r.Kept (s.setCtx c) = r.Kept s := by simp only [State.setCtx, State.kept_setKeys, State.kept_showKeys]

/-! ### Running a job -/

theorem State.kept_cipherErr (st pipe func : Nat) : r.Kept (s.cipherErr st pipe func) = r.Kept s := by
  simp only [State.cipherErr, ite_self, State.kept_ite, State.kept_bump, State.kept_pulse, State.kept_record]

theorem State.kept_xtsRun (h : r.Kept s) (j : Job) (enc : Bool) : r.Kept (s.xtsRun j enc).2.2.2 := by
  unfold State.xtsRun
  dsimp only
  split
  · exact h
  split
  · exact h
  split
  · exact h
  split
  next => exact h
  next =>
    split
    next => exact (State.kept_xlateFault ..).mpr h
    next =>
      split
      next => exact (State.kept_xlateFault ..).mpr h
      next e => exact (State.kept_bump ..).mpr (State.kept_xwrite h e)

theorem State.kept_gcmSegment (h : r.Kept s) (j : Job) (c : GcmCtx) (key : Bytes) : r.Kept (s.gcmSegment j c key).2.2.2 := by
  have hx : ∀ a b, r.Kept ((s.xlateFault j.func a 0 b false true).freeCtx c.ctx) := fun a b =>
    (State.kept_freeCtx ..).mpr ((State.kept_xlateFault ..).mpr h)
  unfold State.gcmSegment
  extract_lets d final aadLen n tagLen isOver isUnder check gone m
  split
  next => exact hx ..
  next src _ =>
    extract_lets aad inp all seg ct mac bad out
    split
    next => exact hx ..
    next t e =>
      have ht : r.Kept (t.bump R.CIPHER.JOB_BYTES_BYTES m) := (State.kept_bump ..).mpr (State.kept_xwrite h e)
      have hg : r.Kept (gone (t.bump R.CIPHER.JOB_BYTES_BYTES m)) := (State.kept_freeCtx ..).mpr ht
      have hc : ∀ x, r.Kept ((t.bump R.CIPHER.JOB_BYTES_BYTES m).setCtx x) := fun x => (State.kept_setCtx ..).mpr ht
      clear_value gone out bad mac ct seg
      dsimp only
      split
      · exact hg
      split
      · exact hg
      split
      · exact hg
      split
      · exact hg
      · exact hc _

theorem State.kept_gcmRun (h : r.Kept s) (j : Job) (enc : Bool) : r.Kept (s.gcmRun j enc).2.2.2 := by
  unfold State.gcmRun
  extract_lets d n own fail
  have hf : ∀ st, r.Kept (fail st).2.2.2 := fun st => .ite ((State.kept_freeCtx ..).mpr h) h
  clear_value fail
  split
  · exact hf _
  split
  next => exact hf _
  next =>
    split
    next => exact hf _
    next => exact State.kept_gcmSegment h ..

theorem State.kept_cipherJob (h : r.Kept s) (src : JobSrc) (op : Nat) : r.Kept (s.cipherJob src op) := by
  unfold State.cipherJob
  split
  next => exact h
  next j _ =>
    split
    · exact h
    split
    next => exact h
    next =>
      extract_lets c pipe f o q
      have hc : r.Kept c.2 := (State.kept_fresh ..).mpr h
      have hf : r.Kept f := (State.kept_takeJob ..).mpr hc
      have hq : r.Kept q.2.2.2 := by
        dsimp only [q]
        split
        · exact State.kept_xtsRun hf ..
        split
        · exact State.kept_gcmRun hf ..
        · exact hf
      clear_value q
      split
      · exact (State.kept_maskStall ..).mpr hc
      · exact (State.kept_finishJob ..).mpr ((State.kept_drawMasks ..).mpr ((State.kept_cipherErr ..).mpr hq))

/-! ### Commands -/

theorem kept_execXtsEncrypt (h : r.Kept s) (src : JobSrc) : r.KeptOut (execXtsEncrypt src s) := by
  simp only [execXtsEncrypt, State.keptOut_next, State.kept_cipherJob, h]

theorem kept_execXtsDecrypt (h : r.Kept s) (src : JobSrc) : r.KeptOut (execXtsDecrypt src s) := by
  simp only [execXtsDecrypt, State.keptOut_next, State.kept_cipherJob, h]

theorem kept_execGcmEncrypt (h : r.Kept s) (src : JobSrc) : r.KeptOut (execGcmEncrypt src s) := by
  simp only [execGcmEncrypt, State.keptOut_next, State.kept_cipherJob, h]

theorem kept_execGcmDecrypt (h : r.Kept s) (src : JobSrc) : r.KeptOut (execGcmDecrypt src s) := by
  simp only [execGcmDecrypt, State.keptOut_next, State.kept_cipherJob, h]

theorem kept_execCipherJobComplete (h : r.Kept s) : r.KeptOut (execCipherJobComplete s) := by
  unfold execCipherJobComplete
  (repeat' split) <;> simp only [State.kept_refl, implies_true, State.keptOut_next, State.kept_dropDone, State.kept_endJob, State.kept_record, State.kept_xlateFault, h]

/-! ### Refusals and audit -/

theorem State.kept_refuseAccess (o : Origin) (page off cond : Nat) : r.Kept (s.refuseAccess o page off cond) = r.Kept s := by
  simp only [State.refuseAccess, State.kept_mk, State.keepsAs_self, State.kept_record]

theorem State.kept_refuseBlock (o : Origin) (page code info : Nat) : r.Kept (s.refuseBlock o page code info) = r.Kept s := by
  simp only [State.refuseBlock, State.kept_mk, State.keepsAs_self, State.kept_record]

theorem State.kept_auditWrite (h : r.Kept s) (o : Origin) (page off v old result : Nat) : r.Kept (s.auditWrite o page off v old result) := by
  simp only [State.auditWrite, State.kept_audit, State.kept_touch, h]

theorem State.kept_auditLocked (h : r.Kept s) (o : Origin) (page off v old : Nat) : r.Kept (s.auditLocked o page off v old) := by
  simp only [State.auditLocked, State.kept_auditCoalesced, h]

theorem State.kept_dropLow (o : Origin) (page : Nat) : r.Kept (s.dropLow o page) = r.Kept s := by
  simp only [State.dropLow, State.kept_mk, State.keepsAs_self]

theorem State.kept_noPage (o : Origin) (off : Nat) : r.Kept (s.noPage o off) = r.Kept s := by
  unfold State.noPage
  (repeat' split) <;> simp only [State.kept_pulse, State.kept_refuseAccess]

/-! ### A register's command -/

theorem State.kept_regCmdBy (h : r.Kept s) (o : Origin) (page off v : Nat) (locked legal busy : Bool) {log : State → Nat → State} {deny act : State → State}
    (hlog : ∀ (t : State) n, t.Kept (log t n)) (hdeny : ∀ t : State, t.Kept (deny t)) (hact : ∀ t : State, t.Kept (act t)) :
    r.Kept (s.regCmdBy o page off v locked legal busy log deny act) := by
  have hs : r.Kept { s.dropLow o page with refusal := none } := by simp only [State.kept_mk, State.keepsAs_self, State.kept_dropLow, h]
  unfold State.regCmdBy
  refine .ite h (.ite ((State.kept_noPage ..).mpr h) ?_)
  dsimp only
  refine .ite ((State.kept_refuseAccess ..).mpr (.ite hs (State.kept_auditLocked hs ..))) (.ite ((State.kept_refuseAccess ..).mpr hs) ?_)
  have ht := State.Kept.ite (c := needOf (rowsAt page off) = .none) hs (hs.trans (hlog _ (b2n busy)))
  exact .ite (ht.trans (hdeny _)) (ht.trans (hact _))

theorem State.kept_regCmd (h : r.Kept s) (o : Origin) (page off v : Nat) (legal busy : Bool) {deny act : State → State}
    (hdeny : ∀ t : State, t.Kept (deny t)) (hact : ∀ t : State, t.Kept (act t)) : r.Kept (s.regCmd o page off v legal busy deny act) :=
  State.kept_regCmdBy h o page off v false legal busy (fun t _ => State.kept_auditWrite t.kept_refl ..) hdeny hact

/-! ### Verdicts -/

theorem State.kept_noteVerdict (a b info func : Nat) : r.Kept (s.noteVerdict a b info func) = r.Kept s := by
  simp only [State.noteVerdict, ite_self, State.kept_ite, State.kept_bump, State.kept_pulse, State.kept_record]

/-! ### Jobs -/

theorem State.kept_digestUnit : r.Kept s.digestUnit.2 = r.Kept s := by simp only [State.digestUnit, State.kept_fresh]

theorem State.kept_digestRun (h : r.Kept s) (j : Job) (unit : Nat) (va vb : BitVec 8) : r.Kept (s.digestRun j unit va vb).2.2.2 := by
  unfold State.digestRun
  extract_lets d n info fault alg pre
  have hf : ∀ a w, r.Kept (fault a w).2.2.2 := fun a w => by simp only [fault, State.kept_record, State.kept_xlateFault, h]
  split
  · exact (State.kept_record ..).mpr h
  split
  next => exact hf ..
  next => exact hf ..
  next =>
    extract_lets dig put
    have hput : ∀ t, put = .ok t → r.Kept t := by
      intro t e
      dsimp only [put] at e
      split at e
      · cases e
        exact h
      · exact State.kept_xwrite h e
    clear_value put
    split
    next => exact hf ..
    next t =>
      have ht : r.Kept t := hput t rfl
      split
      · exact ht
      split
      next => simp only [State.kept_record, State.kept_xlateFault, ht]
      next => exact (State.kept_noteVerdict ..).mpr ht

theorem State.kept_digestJob (h : r.Kept s) (src : JobSrc) (op : Nat) (va vb : BitVec 8) : r.Kept (s.digestJob src op va vb) := by
  unfold State.digestJob
  (repeat' split) <;> simp only [State.kept_digestRun, State.kept_digestUnit, State.kept_finishJob, State.kept_hostActive, State.kept_takeJob, h]

/-! ### Register-fed units -/

theorem State.kept_heldFeed (o : Origin) : r.Kept (s.heldFeed o) = r.Kept s := by simp only [State.heldFeed, State.kept_refuseBlock]

theorem State.kept_feedClaim (o : Origin) : r.Kept (s.feedClaim o) = r.Kept s := by
  simp only [State.feedClaim, ite_self, State.kept_mk, State.keepsAs_self, State.kept_ite, State.kept_puts]

theorem State.kept_freeFeed (u : Nat) : r.Kept (s.freeFeed u) = r.Kept s := by
  simp only [State.freeFeed, State.kept_mk, State.keepsAs_self, State.kept_puts]

theorem State.kept_feedRelease (o : Origin) : r.Kept (s.feedRelease o) = r.Kept s := by
  unfold State.feedRelease
  (repeat' split) <;> simp only [State.kept_freeFeed]

theorem State.kept_setFeed (u : Nat) (m : Bytes) : r.Kept (s.setFeed u m) = r.Kept s := by
  simp only [State.setFeed, State.kept_mk, State.keepsAs_self]

theorem State.kept_feedStart (o : Origin) : r.Kept (s.feedStart o) = r.Kept s := by
  unfold State.feedStart
  (repeat' split) <;> simp only [State.kept_put, State.kept_setFeed]

theorem State.kept_feedCtrl (o : Origin) (v : Nat) : r.Kept (s.feedCtrl o v) = r.Kept s := by
  simp only [State.feedCtrl, ite_self, State.kept_ite, State.kept_feedClaim, State.kept_feedRelease, State.kept_feedStart, State.kept_puts]

theorem State.kept_feedWord (o : Origin) (w : Nat) : r.Kept (s.feedWord o w) = r.Kept s := by
  unfold State.feedWord
  (repeat' split) <;> simp only [State.kept_setFeed]

theorem State.kept_feedLast (o : Origin) (w : Nat) (va vb : BitVec 8) : r.Kept (s.feedLast o w va vb) = r.Kept s := by
  unfold State.feedLast
  (repeat' split) <;> simp only [ite_self, State.kept_ite, State.kept_foldl, implies_true, State.kept_noteVerdict, State.kept_pulse, State.kept_put, State.kept_setFeed]

theorem State.kept_releaseFeeds (o : Origin) : r.Kept (s.releaseFeeds o) = r.Kept s := by
  simp only [State.releaseFeeds, State.kept_foldl, implies_true, State.kept_freeFeed]

/-! ### Functions -/

theorem State.kept_setTenant (f : TenantSt → TenantSt) : r.Kept (s.setTenant f) = r.Kept s := by
  simp only [State.setTenant, State.kept_mk, State.keepsAs_self]

/-! ### XLATE entries of a function (R497) -/

theorem State.kept_invalidate (func : Nat) : r.Kept (s.invalidate func) = r.Kept s := by
  simp only [State.invalidate, State.kept_foldl, implies_true, State.kept_bump, State.kept_fresh, State.kept_modCore, State.kept_put]

theorem State.kept_showXlate : r.Kept s.showXlate = r.Kept s := by simp only [State.showXlate, State.kept_put]

theorem State.kept_remap (f : Fn) {t : State} (e : s.remap f = some t) : r.Kept t = r.Kept s := by
  unfold State.remap at e
  dsimp only at e
  split at e
  · cases e
  · cases e
    simp only [State.kept_showXlate, State.kept_ite, State.kept_invalidate, State.kept_mk, State.keepsAs_self, ite_self]

theorem State.kept_unmapFn (func : Nat) : r.Kept (s.unmapFn func) = r.Kept s := by
  simp only [State.unmapFn, State.kept_mk, State.keepsAs_self, State.kept_invalidate, State.kept_showXlate]

/-! ### Queues of a controller -/

theorem State.kept_countQueues : r.Kept s.countQueues = r.Kept s := by simp only [State.countQueues, State.kept_put]

theorem State.kept_addAdmin (func : Nat) : r.Kept (s.addAdmin func) = r.Kept s := by
  simp only [State.addAdmin, State.kept_countQueues, State.kept_setHost]

theorem State.kept_dropQueues (func : Nat) : r.Kept (s.dropQueues func) = r.Kept s := by
  simp only [State.dropQueues, State.kept_countFrozen, State.kept_countQueues, State.kept_relock, State.kept_setHost]

/-! ### Creation and removal -/

theorem State.kept_ownBanks (mask owner : Nat) : r.Kept (s.ownBanks mask owner) = r.Kept s := by
  simp only [State.ownBanks, ite_self, State.kept_ite, State.kept_foldl, implies_true, State.kept_put]

theorem State.kept_attachAll (p : Prof) : r.Kept (s.attachAll p) = r.Kept s := by
  simp only [State.attachAll, State.kept_foldl, implies_true, State.kept_modNs]

theorem State.kept_createFn (func : Nat) : r.Kept (s.createFn func) = r.Kept s := by
  simp only [State.createFn, State.kept_mk, State.keepsAs_self, State.kept_foldl, implies_true, State.kept_addAdmin, State.kept_attachAll, State.kept_ownBanks,
    State.kept_setTenant, State.kept_turnCore, State.kept_unput]

theorem State.kept_removeFn (func : Nat) : r.Kept (s.removeFn func) = r.Kept s := by
  unfold State.removeFn
  (repeat' split) <;> simp only [State.kept_mk, State.keepsAs_self, State.kept_foldl, implies_true, State.kept_dropQueues, State.kept_modCore, State.kept_ownBanks,
    State.kept_setHost, State.kept_setKeys, State.kept_setTenant, State.kept_unmapFn]

/-! ### Reset of a function -/

theorem State.kept_abortOutput (h : r.Kept s) (d : JobDone) : r.Kept (s.abortOutput d) := by
  simp only [State.abortOutput, State.kept_freshBytes, kept_writePages, h]

theorem State.kept_abortLane (h : r.Kept s) (func l : Nat) : r.Kept (s.abortLane func l) := by
  simp only [State.abortLane, ite_self, State.kept_foldl_of, State.kept_ite, State.kept_refl, implies_true, State.kept_abortOutput, State.kept_modLane, State.kept_record,
    State.kept_resumeLane, h]

theorem State.kept_abortJobs (h : r.Kept s) (func : Nat) : r.Kept (s.abortJobs func) := by
  unfold State.abortJobs
  extract_lets ciphers queued tables t1 waiting parked t2 t3 t4 t5 t6 t7
  have h2 : r.Kept t2 := State.kept_foldl_of (State.kept_foldl_of h fun t l => State.kept_abortLane t.kept_refl ..) fun t d =>
    State.kept_abortOutput t.kept_refl d
  have h4 : r.Kept t4 := by
    simp only [t4, t3, State.kept_foldl, State.kept_record, State.kept_endRun, implies_true, h2]
  have h6 : r.Kept t6 := State.kept_closeKeyJobs ((State.kept_setJobs ..).mpr h4) func
  simp only [t7, State.kept_dispatchSlices, State.kept_showKeys, State.kept_releaseFeeds, State.kept_foldl, State.kept_record, implies_true, h6]

theorem State.kept_dropBanks (func : Nat) : r.Kept (s.dropBanks func) = r.Kept s := by
  simp only [State.dropBanks, State.kept_foldl, implies_true, State.kept_clearBank, State.kept_defaultBank]

theorem State.kept_startReset (h : r.Kept s) (func : Nat) : r.Kept (s.startReset func) := by
  unfold State.startReset
  refine .ite h ?_
  extract_lets t1 t2 t3 mask t4
  have h2 : r.Kept t2 := (State.kept_dropQueues ..).mpr (State.kept_abortJobs ((State.kept_setTenant ..).mpr h) func)
  have h4 : r.Kept t4 :=
    State.kept_foldl_of ((State.kept_dropBanks ..).mpr h2) fun t c => .ite (State.kept_parkCore t.kept_refl ..) t.kept_refl
  exact State.kept_endRolesOf ((State.kept_unmapFn ..).mpr h4) ..

theorem State.kept_zeroise (h : r.Kept s) (f : Fn) : r.Kept (s.zeroise f) := by
  unfold State.zeroise
  extract_lets p keyIn ctxIn t1 t2 t3 t4 t5 bits m
  have h5 : r.Kept t5 := by
    simp only [t5, t4, t3, t2, t1, State.kept_modFn, State.kept_setHost, State.kept_foldl, State.kept_defaultBank, State.kept_wipeBank,
      State.kept_turnCore, State.kept_showKeys, State.kept_setKeys, implies_true, h]
  have hm : t5.mem.wf = true → memWf m = true := by
    intro hw
    obtain ⟨-, hc, -, -⟩ := (MemSt.wf_iff _).mp hw
    dsimp only [m]
    split
    · exact hc
    · exact memZero_wf hc ..
  refine State.keepsAs_mem h5 fun hw => ?_
  obtain ⟨hd, -, ha, hb⟩ := (MemSt.wf_iff _).mp hw
  exact (MemSt.wf_iff _).mpr ⟨memZero_wf hd .., hm hw, ha, hb⟩

theorem State.kept_endReset (h : r.Kept s) (func start : Nat) : r.Kept (s.endReset func start) := by
  unfold State.endReset
  (repeat' split) <;> simp only [ite_self, State.kept_mk, State.keepsAs_self, State.kept_ite, State.kept_addAdmin, State.kept_attachAll, State.kept_bump, State.kept_createFn,
    State.kept_pulse, State.kept_put, State.kept_record, State.kept_removeFn, State.kept_setTenant, State.kept_zeroise, h]

theorem State.kept_resetFn (h : r.Kept s) (func : Nat) : r.Kept (s.resetFn func) := by
  simp only [State.resetFn, ite_self, State.kept_foldl_of, State.kept_ite, State.kept_refl, implies_true, State.kept_put, State.kept_startReset, h]

/-! ### Profiles -/

theorem State.kept_refuseProfile (c : Cmd) (func status : Nat) : r.Kept (s.refuseProfile c func status) = r.Kept s := by
  simp only [State.refuseProfile, State.kept_completeAdmin, State.kept_pulse, State.kept_record]

theorem kept_execSetProfile (h : r.Kept s) (c : Cmd) (func : Nat) (data : Bytes) : r.KeptOut (execSetProfile c func data s) := by
  unfold execSetProfile
  (repeat' split) <;> simp only [State.keptOut_next, State.kept_completeAdmin, State.kept_pulse, State.kept_refuseProfile, State.kept_setTenant, h]

theorem kept_execClearProfile (h : r.Kept s) (c : Cmd) (func : Nat) : r.KeptOut (execClearProfile c func s) := by
  simp only [execClearProfile, ite_self, State.keptOut_next, State.keptOut_ite, State.kept_completeAdmin, State.kept_refuseProfile, State.kept_setTenant, h]

/-! ### Functions -/

theorem kept_execFunctionReset (h : r.Kept s) (fn : Nat) : r.KeptOut (execFunctionReset fn s) := by
  simp only [execFunctionReset, State.keptOut_next, State.kept_resetFn, h]

theorem kept_execFunctionResetDone (h : r.Kept s) (fn : Nat) : r.KeptOut (execFunctionResetDone fn s) := by
  unfold execFunctionResetDone
  (repeat' split) <;> simp only [State.keptOut_next, State.kept_endReset, h]

theorem kept_execControllerReset (h : r.Kept s) (fn : Nat) : r.KeptOut (execControllerReset fn s) := by
  simp only [execControllerReset, ite_self, State.keptOut_next, State.keptOut_ite, State.kept_addAdmin, State.kept_dropQueues, h]

theorem kept_execVfEnable (h : r.Kept s) (numVfs : Nat) : r.KeptOut (execVfEnable numVfs s) := by
  unfold execVfEnable
  refine State.keptOut_of_ite h ?_
  dsimp only
  have hs : r.Kept ((List.range numVfs).map (· + 1) |>.foldl (fun t f => match assoc t.tenant.resetting f with
      | some start => if t.staysEnabled f then t else t.endReset f start
      | none => t) s) := State.kept_foldl_of h fun t f => by
    split
    · exact .ite t.kept_refl (State.kept_endReset t.kept_refl ..)
    · exact t.kept_refl
  refine (State.kept_foldl fun t f => ?_).mpr ((State.kept_put ..).mpr hs)
  simp only [State.kept_ite, State.kept_createFn, ite_self]

theorem kept_execVfDisable (h : r.Kept s) (numVfs : Nat) : r.KeptOut (execVfDisable numVfs s) := by
  simp only [execVfDisable, State.kept_foldl_of, State.kept_refl, implies_true, State.keptOut_next, State.kept_put, State.kept_startReset, h]

/-! ### Programs -/

theorem State.kept_copySections (h : r.Kept s) (func : Nat) (img : Bytes) : r.Kept (s.copySections func img) :=
  State.kept_foldl_of h fun t _ => State.keepsAs_mem t.kept_refl fun hw => xwriteAux_wf _ _ _ _ hw

theorem State.kept_placeProg (h : r.Kept s) (fn slot : Nat) (img : Bytes) : r.Kept (s.placeProg fn slot img) := by
  simp only [State.placeProg, State.kept_copySections, State.kept_setHost, h]

theorem State.kept_loadProgram (h : r.Kept s) (c : Cmd) (slot : Nat) (data : Bytes) : r.Kept (s.loadProgram c slot data) := by
  unfold State.loadProgram
  split
  next => exact (State.kept_completeAdmin ..).mpr h
  next =>
    split
    · exact (State.kept_completeAdmin ..).mpr h
    split
    · exact (State.kept_completeAdmin ..).mpr ((State.kept_record ..).mpr h)
    split
    · exact (State.kept_completeAdmin ..).mpr ((State.kept_record ..).mpr h)
    split
    next => simp only [State.kept_completeAdmin, State.kept_record, State.kept_pulse, h]
    next e => exact (State.kept_completeAdmin ..).mpr (Eq.mpr (State.kept_remap _ e) (State.kept_placeProg h ..))

theorem kept_execLoadProgram (h : r.Kept s) (c : Cmd) (slot : Nat) (data : Bytes) : r.KeptOut (execLoadProgram c slot data s) := by
  simp only [execLoadProgram, ite_self, State.keptOut_next, State.keptOut_ite, State.kept_await, State.kept_loadProgram, h]

theorem kept_execProgramActivation (h : r.Kept s) (c : Cmd) (slot : Nat) (act : Bool) : r.KeptOut (execProgramActivation c slot act s) := by
  unfold execProgramActivation
  (repeat' split) <;> simp only [State.keptOut_next, State.kept_completeAdmin, State.kept_setHost, h]

theorem State.kept_startImage (h : r.Kept s) (c : Nat) (img : Bytes) (cmd : CmdKey) (index n : Nat) : r.Kept (s.startImage c img cmd index n) := by
  unfold State.startImage
  dsimp only
  (repeat' split) <;> simp only [State.kept_setCore, State.kept_trapped, h]

theorem kept_execExecuteProgram (h : r.Kept s) (k : CmdKey) : r.KeptOut (execExecuteProgram k s) := by
  have hc : ∀ st, r.KeptOut (.next (s.completeCmd k st)) := fun st => (State.kept_completeCmd ..).mpr h
  unfold execExecuteProgram
  split
  next => exact h
  next =>
    refine State.keptOut_of_ite h ?_
    split
    next => exact hc _
    next => exact hc _
    next =>
      refine State.keptOut_of_ite h (State.keptOut_of_ite (hc _) (State.keptOut_of_ite (hc _) ?_))
      dsimp only
      split
      next =>
        refine State.keptOut_of_ite (hc _) (State.keptOut_of_ite (hc _) ?_)
        rw [State.keptOut_next, State.kept_hostActive, State.kept_modCmd]
        exact State.kept_foldl_of (State.kept_memWrite h ..) fun t c => State.kept_startImage t.kept_refl ..
      next => exact hc _

theorem State.kept_freeCores (k : CmdKey) : r.Kept (s.freeCores k) = r.Kept s := by
  simp only [State.freeCores, State.kept_foldl, implies_true, State.kept_modCore]

theorem kept_execProgramCoresEnded (h : r.Kept s) (fn : Nat) : r.KeptOut (execProgramCoresEnded fn s) := by
  unfold execProgramCoresEnded
  dsimp only
  (repeat' split) <;> simp only [State.keptOut_next, State.kept_completeCmd, State.kept_freeCores, h]

/-! ### Memory range sets -/

theorem State.kept_setRanges (c : Cmd) (f : Fn) (sets : List (Nat × List MemRange)) (dw0 : Nat) : r.Kept (s.setRanges c f sets dw0) = r.Kept s := by
  unfold State.setRanges
  split
  next e => exact (State.kept_completeAdmin ..).trans ((State.kept_remap _ e).trans (State.kept_modFn ..))
  next => simp only [State.kept_completeAdmin, State.kept_record, State.kept_pulse]

theorem kept_execMemoryRangeSet (h : r.Kept s) (c : Cmd) (sel : BitVec 4) (rsid : Nat) (ranges : List MemRange) : r.KeptOut (execMemoryRangeSet c sel rsid ranges s) := by
  unfold execMemoryRangeSet
  dsimp only
  (repeat' split) <;> simp only [State.keptOut_next, State.kept_completeAdmin, State.kept_setRanges, h]

/-! ### Admin commands over queues -/

theorem kept_execCreateIoCq (h : r.Kept s) (c : Cmd) (qid size vec : Nat) (ien pc : Bool) : r.KeptOut (execCreateIoCq c qid size vec ien pc s) := by
  simp only [execCreateIoCq, ite_self, State.keptOut_next, State.keptOut_ite, State.kept_completeAdmin, State.kept_setHost, h]

theorem kept_execCreateIoSq (h : r.Kept s) (c : Cmd) (qid size cqid : Nat) (pc : Bool) : r.KeptOut (execCreateIoSq c qid size cqid pc s) := by
  simp only [execCreateIoSq, ite_self, State.keptOut_next, State.keptOut_ite, State.kept_completeAdmin, State.kept_countQueues, State.kept_setHost, h]

theorem State.kept_endQueue (fn qid : Nat) : r.Kept (s.endQueue fn qid) = r.Kept s := by
  simp only [State.endQueue, State.kept_foldl, implies_true, State.kept_completeCmd]

theorem kept_execDeleteIoSq (h : r.Kept s) (c : Cmd) (qid : Nat) : r.KeptOut (execDeleteIoSq c qid s) := by
  simp only [execDeleteIoSq, ite_self, State.keptOut_next, State.keptOut_ite, State.kept_completeAdmin, State.kept_countFrozen, State.kept_countQueues, State.kept_endQueue,
    State.kept_setHost, h]

theorem kept_execDeleteIoCq (h : r.Kept s) (c : Cmd) (qid : Nat) : r.KeptOut (execDeleteIoCq c qid s) := by
  simp only [execDeleteIoCq, ite_self, State.keptOut_next, State.keptOut_ite, State.kept_completeAdmin, State.kept_setHost, h]

/-! ### Abort and thaw -/

theorem State.kept_stopCores (k : CmdKey) : r.Kept (s.stopCores k) = r.Kept s :=
  State.kept_foldl fun t c => by
    split
    · split
      · simp only [State.kept_ite, State.kept_stopProgram, ite_self]
      · rfl
    · rfl

theorem State.kept_unfetched (k : CmdKey) : r.Kept (s.unfetched k).2 = r.Kept s := by
  unfold State.unfetched
  (repeat' split) <;> simp only [State.kept_fresh]

theorem kept_execAbort (h : r.Kept s) (c : Cmd) (sqid acid : Nat) : r.KeptOut (execAbort c sqid acid s) := by
  unfold execAbort
  dsimp only
  (repeat' split) <;> simp only [State.keptOut_next, State.kept_completeAdmin, State.kept_completeCmd, State.kept_freeCores, State.kept_setHost, State.kept_stopCores,
    State.kept_unfetched, h]

theorem kept_execQueueThaw (h : r.Kept s) (c : Cmd) (sqid : Nat) : r.KeptOut (execQueueThaw c sqid s) := by
  unfold execQueueThaw
  (repeat' split) <;> simp only [State.keptOut_next, State.kept_bump, State.kept_completeAdmin, State.kept_countFrozen, State.kept_modSq, State.kept_record, h]

/-! ### Features and events -/

theorem kept_execSetFeatures (h : r.Kept s) (c : Cmd) (fid : Nat) (v : BitVec 32) : r.KeptOut (execSetFeatures c fid v s) := by
  simp only [execSetFeatures, ite_self, State.keptOut_next, State.keptOut_ite, State.kept_completeAdmin, State.kept_setHost, h]

theorem kept_execGetFeatures (h : r.Kept s) (c : Cmd) (fid : Nat) : r.KeptOut (execGetFeatures c fid s) := by
  simp only [execGetFeatures, ite_self, State.keptOut_next, State.keptOut_ite, State.kept_completeAdmin, h]

theorem kept_execAsyncEventRequest (h : r.Kept s) (c : Cmd) : r.KeptOut (execAsyncEventRequest c s) := by
  unfold execAsyncEventRequest
  (repeat' split) <;> simp only [State.keptOut_next, State.kept_completeAdmin, State.kept_raiseEvent, State.kept_setHost, h]

theorem kept_execInvalidCommandOpcode (h : r.Kept s) (c : Cmd) (opcode : BitVec 8) : r.KeptOut (execInvalidCommandOpcode c opcode s) := by
  simp only [execInvalidCommandOpcode, ite_self, State.keptOut_next, State.keptOut_ite, State.kept_completeAdmin, h]

end Sys2Proof.Machine
end

section
/-!
What each of the model's functions keeps (`State.Kept`), in the model's order: the error rings, loads, stores and microcode, boot images and updates,
DRAM channels, container reads, host commands and ports, the flash channels, and admin queues.
-/

namespace Sys2Proof.Machine

open Sys2Proof.Laws

variable {r s : State} {x : Ctx}

/-! ### The error rings -/

theorem State.kept_setFault (f : FaultSt → FaultSt) : r.Kept (s.setFault f) = r.Kept s := by
  simp only [State.setFault, State.kept_mk, State.keepsAs_self]

theorem State.kept_ringEvent (sev fn : Nat) : r.Kept (s.ringEvent sev fn) = r.Kept s := by
  simp only [State.ringEvent, ite_self, State.kept_ite, State.kept_vendorEvent]

theorem State.kept_newEntry (e : RingEntry) : r.Kept (s.newEntry e) = r.Kept s := by
  simp only [State.newEntry, ite_self, State.kept_ite, State.kept_pulse, State.kept_ringEvent, State.kept_setFault]

theorem State.kept_enterReport (r' : Report) : r.Kept (s.enterReport r') = r.Kept s := by
  simp only [State.enterReport, ite_self, State.kept_ite, State.kept_bump, State.kept_newEntry, State.kept_pulse, State.kept_ringEvent, State.kept_setFault]

theorem State.kept_consumeDev (lo hi : Nat) : r.Kept (s.consumeDev lo hi) = r.Kept s := by
  unfold State.consumeDev
  dsimp only
  (repeat' split) <;> simp only [State.kept_newEntry, State.kept_recordPage, State.kept_setFault]

theorem State.kept_consumeFunc (fn lo hi : Nat) : r.Kept (s.consumeFunc fn lo hi) = r.Kept s := by
  simp only [State.consumeFunc, ite_self, State.kept_ite, State.kept_ringEvent, State.kept_setFault]

theorem kept_execFaultIntake (h : r.Kept s) : r.KeptOut (execFaultIntake s) := by
  unfold execFaultIntake
  (repeat' split) <;> simp only [State.keptOut_next, State.kept_enterReport, State.kept_setFault, h]

/-! ### Loads and stores of the Crook cores -/

theorem kept_execLd (h : r.Kept s) (c : Fin 72) (w : Lane) (i : BitVec 8) (e : Ecc) : r.KeptOut (execLd c w i e s) := by
  simp only [execLd, State.keptOut_next, State.kept_insn, keeps_loadBody, h]

theorem kept_execLdl (h : r.Kept s) (c : Fin 72) (w : Lane) (i : BitVec 8) (e : Ecc) : r.KeptOut (execLdl c w i e s) := by
  simp only [execLdl, State.keptOut_next, State.kept_insn, keeps_loadBody, h]

theorem kept_execSt (h : r.Kept s) (c : Fin 72) (w : Lane) (i : BitVec 8) : r.KeptOut (execSt c w i s) := by
  simp only [execSt, State.keptOut_next, State.kept_insn, keeps_storeBody, h]

theorem kept_execStl (h : r.Kept s) (c : Fin 72) (w : Lane) (i : BitVec 8) : r.KeptOut (execStl c w i s) := by
  simp only [execStl, State.keptOut_next, State.kept_insn, keeps_storeBody, h]

theorem kept_execLoad (h : r.Kept s) (c : Fin 72) (m : OpMod) (e : Ecc) : r.KeptOut (execLoad c m e s) := by
  simp only [execLoad, State.keptOut_next, State.kept_insn, keeps_guardMod, keeps_loadBody, h]

theorem kept_execStore (h : r.Kept s) (c : Fin 72) (m : OpMod) : r.KeptOut (execStore c m s) := by
  simp only [execStore, State.keptOut_next, State.kept_insn, keeps_guardMod, keeps_storeBody, h]

/-! ### CUSTOM -/

theorem kept_execCustom (h : r.Kept s) (c : Fin 72) (e : BitVec 6) (m : BitVec 4) : r.KeptOut (execCustom c e m s) := by
  simp only [execCustom, State.keptOut_next, State.kept_insn, keeps_customBody, h]

/-! ### Vendor commands -/

theorem State.kept_auditVendor (h : r.Kept s) (o : Origin) (op : Nat) (cdws : List Nat) (refused : Bool) : r.Kept (s.auditVendor o op cdws refused) := by
  simp only [State.auditVendor, State.kept_audit, State.kept_touch, h]

/-! ### Boot images -/

theorem State.kept_verifyImage (img : Bytes) (va vb : BitVec 8) : r.Kept (s.verifyImage img va vb).2 = r.Kept s := by
  unfold State.verifyImage
  (repeat' split) <;> simp only [State.kept_noteVerdict]

theorem State.kept_setFw (f : FwSt → FwSt) : r.Kept (s.setFw f) = r.Kept s := by simp only [State.setFw, State.kept_mk, State.keepsAs_self]

/-! ### Download and commit -/

theorem kept_execFirmwareImageDownload (h : r.Kept s) (c : Cmd) (off : Nat) (data : Bytes) : r.KeptOut (execFirmwareImageDownload c off data s) := by
  simp only [execFirmwareImageDownload, ite_self, State.keptOut_next, State.keptOut_ite, State.kept_completeAdmin, State.kept_setFw, h]

theorem State.kept_refuseUpdate : r.Kept s.refuseUpdate = r.Kept s := by simp only [State.refuseUpdate, State.kept_record]

theorem State.kept_commitSlot (slot : Nat) : r.Kept (s.commitSlot slot).2 = r.Kept s := by
  unfold State.commitSlot
  (repeat' split) <;> simp only [State.kept_fresh]

theorem State.kept_atNextReset (slot : Nat) (img : Bytes) : r.Kept (s.atNextReset slot img) = r.Kept s := by
  simp only [State.atNextReset, State.kept_setFw]

theorem State.kept_commonPlace (n : Nat) : r.Kept (s.commonPlace n).2 = r.Kept s := by simp only [State.commonPlace, State.kept_fresh]

theorem State.kept_toCommon (h : r.Kept s) (b : Bytes) : r.Kept (s.toCommon b) :=
  State.keepsAs_mem ((State.kept_commonPlace ..).mpr h) fun hw => MemSt.write_wf hw ..

theorem State.kept_stage (h : r.Kept s) (slot : Nat) (img : Bytes) : r.Kept (s.stage slot img) := by
  simp only [State.stage, State.kept_atNextReset, State.kept_toCommon, h]

theorem State.kept_commit (h : r.Kept s) (c : Cmd) (slot action : Nat) : r.Kept (s.commit c slot action) := by
  unfold State.commit
  dsimp only
  (repeat' split) <;> simp only [State.kept_atNextReset, State.kept_audit, State.kept_await, State.kept_commitSlot, State.kept_completeAdmin, State.kept_refuseUpdate,
    State.kept_setFw, State.kept_stage, State.kept_verifyImage, h]

theorem kept_execFirmwareCommit (h : r.Kept s) (c : Cmd) (slot : Nat) (action : BitVec 3) : r.KeptOut (execFirmwareCommit c slot action s) := by
  simp only [execFirmwareCommit, ite_self, State.keptOut_next, State.keptOut_ite, State.kept_commit, State.kept_completeAdmin, h]

/-! ### Handover -/

theorem State.kept_transferState (h : r.Kept s) : r.Kept s.transferState := by
  simp only [State.transferState, State.kept_fresh, State.kept_freshBytes, State.kept_toCommon, h]

theorem kept_execFirmwareHandover (h : r.Kept s) : r.KeptOut (execFirmwareHandover s) := by
  unfold execFirmwareHandover
  split
  next => exact h
  next =>
    exact State.keptOut_of_ite h (State.kept_transferState (State.kept_foldl_of ((State.kept_setFw ..).mpr h) fun t c => State.kept_parkCore t.kept_refl ..))

theorem State.kept_startHalf (run : Nat) : r.Kept (s.startHalf run) = r.Kept s := by
  simp only [State.startHalf, ite_self, State.kept_ite, State.kept_foldl, implies_true, State.kept_startSystem]

/-! ### Microcode images -/

theorem State.kept_writeCluster (n : Nat) (img : Bytes) : r.Kept (s.writeCluster n img) = r.Kept s := by
  unfold State.writeCluster
  (repeat' split) <;> simp only [State.kept_mk, State.keepsAs_self]

theorem State.kept_keepCluster (n : Nat) (img : Option Bytes) : r.Kept (s.keepCluster n img) = r.Kept s := by
  unfold State.keepCluster
  (repeat' split) <;> simp only [State.kept_mk, State.keepsAs_self]

theorem State.kept_clearCluster (n : Nat) : r.Kept (s.clearCluster n) = r.Kept s := by
  unfold State.clearCluster
  (repeat' split) <;> simp only [State.kept_mk, State.keepsAs_self]

theorem State.kept_freeCluster0 : r.Kept s.freeCluster0 = r.Kept s := by
  simp only [State.freeCluster0, State.kept_mk, State.keepsAs_self, State.kept_fresh]

theorem State.kept_newMonitor : r.Kept s.newMonitor = r.Kept s := by simp only [State.newMonitor, State.kept_fresh, State.kept_setFw]

theorem State.kept_fetchResumes : r.Kept s.fetchResumes = r.Kept s := by
  simp only [State.fetchResumes, State.kept_mk, State.keepsAs_self, State.kept_setFw]

theorem kept_execHandoverResume (h : r.Kept s) : r.KeptOut (execHandoverResume s) := by
  unfold execHandoverResume
  (repeat' split) <;> simp only [State.keptOut_next, State.kept_fetchResumes, State.kept_freeCluster0, State.kept_newMonitor, State.kept_restartEnds, State.kept_setFw,
    State.kept_startHalf, State.kept_wake, h]

theorem kept_execCrookUpdateRollback (h : r.Kept s) : r.KeptOut (execCrookUpdateRollback s) := by
  unfold execCrookUpdateRollback
  dsimp only
  (repeat' split) <;> simp only [State.kept_mk, State.keepsAs_self, State.keptOut_next, State.kept_fetchResumes, State.kept_record, State.kept_restartEnds, State.kept_setFw,
    State.kept_startHalf, State.kept_wake, h]

/-! ### Microcode loads -/

theorem State.kept_refuseLoad (c : Cmd) (n code info status : Nat) : r.Kept (s.refuseLoad c n code info status) = r.Kept s := by
  simp only [State.refuseLoad, State.kept_completeAdmin, State.kept_pulse, State.kept_record]

theorem State.kept_startLoad (h : r.Kept s) (c : Cmd) (n : Nat) (img : Bytes) : r.Kept (s.startLoad c n img) :=
  (State.kept_await ..).mpr (State.kept_foldl_of (s := { s with mcLoad := some ⟨n, none, img, 2, false⟩ }) h fun t k => State.kept_parkCore t.kept_refl ..)

theorem kept_execMicrocodeLoad (h : r.Kept s) (c : Cmd) (cluster : BitVec 4) (len : Nat) (data : Bytes) : r.KeptOut (execMicrocodeLoad c cluster len data s) := by
  unfold execMicrocodeLoad
  (repeat' split) <;> simp only [ite_self, State.keptOut_next, State.keptOut_ite, State.kept_auditVendor, State.kept_completeAdmin, State.kept_refuseLoad, State.kept_startLoad,
    h]

theorem kept_execMicrocodeClusterParked (h : r.Kept s) : r.KeptOut (execMicrocodeClusterParked s) := by
  unfold execMicrocodeClusterParked
  (repeat' split) <;> simp only [State.kept_mk, State.keepsAs_self, State.keptOut_next, State.kept_writeCluster, h]

theorem State.kept_stopMismatched (n : Nat) : r.Kept (s.stopMismatched n) = r.Kept s := by
  simp only [State.stopMismatched, ite_self, State.kept_ite, State.kept_foldl, implies_true, State.kept_bump, State.kept_pulse, State.kept_record, State.kept_stopProgram]

theorem State.kept_endLoad (h : r.Kept s) (n status : Nat) : r.Kept (s.endLoad n status) := by
  simp only [State.endLoad, State.kept_foldl_of, State.kept_mk, State.keepsAs_self, State.kept_foldl, State.kept_refl, implies_true, State.kept_loadProgram,
    State.kept_resumeCore, State.kept_setHost, State.kept_stopMismatched, State.kept_wake, h]

theorem kept_execMicrocodeRecheck (h : r.Kept s) (written : Bytes) : r.KeptOut (execMicrocodeRecheck written s) := by
  unfold execMicrocodeRecheck
  (repeat' split) <;> simp only [State.kept_mk, State.keepsAs_self, State.keptOut_next, State.kept_bump, State.kept_clearCluster, State.kept_endLoad, State.kept_keepCluster,
    State.kept_pulse, State.kept_record, State.kept_writeCluster, h]

/-! ### DRAM channels -/

theorem State.kept_showDram : r.Kept s.showDram = r.Kept s := by simp only [State.showDram, State.kept_puts]

theorem State.kept_poolDram : r.Kept s.poolDram = r.Kept s := by simp only [State.poolDram, State.kept_fresh, State.kept_put]

theorem State.kept_pageMap : r.Kept s.pageMap = r.Kept s := by
  simp only [State.pageMap, ite_self, State.kept_ite, State.kept_mediaErr, State.kept_pulse, State.kept_put, State.kept_setMedia]

theorem State.kept_retireDram (h : r.Kept s) (c cause : Nat) : r.Kept (s.retireDram c cause) := by
  simp only [State.retireDram, ite_self, State.kept_ite, State.kept_enterSafe, State.kept_pageMap, State.kept_poolDram, State.kept_pulse, State.kept_puts, State.kept_recompute,
    State.kept_record, State.kept_showDram, h]

theorem State.kept_noteUe (c : Nat) : r.Kept (s.noteUe c) = r.Kept s := by simp only [State.noteUe, State.kept_mk, State.keepsAs_self]

theorem State.kept_noteReplay (c : Nat) : r.Kept (s.noteReplay c) = r.Kept s := by simp only [State.noteReplay, State.kept_mk, State.keepsAs_self]

theorem State.kept_setDram (f : DramSt → DramSt) : r.Kept (s.setDram f) = r.Kept s := by simp only [State.setDram, State.kept_mk, State.keepsAs_self]

theorem State.kept_sendDram (c : Nat) (cs : List DramCmd) : r.Kept (s.sendDram c cs) = r.Kept s := by simp only [State.sendDram, State.kept_setDram]

theorem State.kept_dramUp (c : Nat) : r.Kept (s.dramUp c) = r.Kept s := by simp only [State.dramUp, State.kept_put, State.kept_setDram]

theorem State.kept_reissue (c : Nat) : r.Kept (s.reissue c) = r.Kept s := by simp only [State.reissue, State.kept_setDram]

theorem State.kept_loseTakeData : r.Kept s.loseTakeData = r.Kept s := by
  unfold State.loseTakeData
  dsimp only
  split
  next => rfl
  next =>
    rw [State.kept_settle, State.kept_dispatchSlices, State.kept_foldl fun t i => ?_, State.kept_modFrame, State.kept_modSlice, State.kept_fresh]
    (repeat' split) <;> simp only [State.kept_resumeLane]

theorem State.kept_loseBufferData : r.Kept s.loseBufferData = r.Kept s := by
  unfold State.loseBufferData
  dsimp only
  (repeat' split) <;> simp only [State.kept_bump, State.kept_fresh, State.kept_pulse, State.kept_record, State.kept_setArray, State.kept_setMedia, State.kept_unitProgrammed]

theorem State.kept_loseShadow : r.Kept s.loseShadow = r.Kept s := by
  unfold State.loseShadow
  dsimp only
  (repeat' split) <;> simp only [State.kept_fresh, State.kept_loseEnt]

theorem State.kept_loseMapPage : r.Kept s.loseMapPage = r.Kept s := by
  unfold State.loseMapPage
  dsimp only
  (repeat' split) <;> simp only [State.kept_fresh, State.kept_setMedia]

theorem State.kept_loseData (h : r.Kept s) (kind addr : Nat) : r.Kept (s.loseData kind addr) :=
  .ite ((State.kept_loseMapPage ..).mpr h) (.ite ((State.kept_loseTakeData ..).mpr h) (.ite ((State.kept_loseBufferData ..).mpr h)
    (.ite ((State.kept_loseShadow ..).mpr h) (.ite (State.keepsAs_mem h id) h))))

/-! ### DRAM commands -/

theorem State.kept_trainLane (c i : Nat) : r.Kept (s.trainLane c i) = r.Kept s := by simp only [State.trainLane, State.kept_fresh, State.kept_puts]

theorem State.kept_trainAgain (c : Nat) : r.Kept (s.trainAgain c) = r.Kept s := by
  simp only [State.trainAgain, State.kept_foldl, implies_true, State.kept_pulse, State.kept_put, State.kept_trainLane]

theorem kept_execDramDriftCheck (h : r.Kept s) (ch : Fin 4) (d : ℤ) : r.KeptOut (execDramDriftCheck ch d s) := by
  simp only [execDramDriftCheck, ite_self, State.kept_foldl_of, State.kept_refl, implies_true, State.keptOut_next, State.keptOut_ite, State.kept_bump, State.kept_put,
    State.kept_sendDram, State.kept_trainAgain, h]

theorem kept_execDramRefresh (h : r.Kept s) (ch : Fin 4) : r.KeptOut (execDramRefresh ch s) := by
  simp only [execDramRefresh, ite_self, State.kept_mk, State.keepsAs_self, State.keptOut_next, State.keptOut_ite, State.kept_fresh, State.kept_sendDram, State.kept_setDram, h]

theorem State.kept_dramReplay (h : r.Kept s) (c : Nat) : r.Kept (s.dramReplay c) := by
  simp only [State.dramReplay, ite_self, State.kept_ite, State.kept_bump, State.kept_noteReplay, State.kept_pulse, State.kept_put, State.kept_record, State.kept_reissue,
    State.kept_retireDram, h]

theorem kept_execDramAlert (h : r.Kept s) (ch : Fin 4) : r.KeptOut (execDramAlert ch s) := by
  simp only [execDramAlert, State.keptOut_next, State.kept_dramReplay, h]

theorem kept_execDramUncorrectable (h : r.Kept s) (ch : Fin 4) (addr : BitVec 64) (kind : BitVec 4) : r.KeptOut (execDramUncorrectable ch addr kind s) := by
  simp only [execDramUncorrectable, ite_self, State.kept_ite, State.keptOut_next, State.keptOut_ite, State.kept_bump, State.kept_fresh, State.kept_loseData, State.kept_noteUe,
    State.kept_pulse, State.kept_puts, State.kept_record, State.kept_retireDram, h]

theorem kept_execDramScrub (h : r.Kept s) (ch : Fin 4) (corrected : Nat) (last : Bool) : r.KeptOut (execDramScrub ch corrected last s) := by
  simp only [execDramScrub, ite_self, State.kept_ite, State.keptOut_next, State.keptOut_ite, State.kept_bump, State.kept_pulse, h]

theorem kept_execDramEvacuationDone (h : r.Kept s) (ch : Fin 4) : r.KeptOut (execDramEvacuationDone ch s) := by
  simp only [execDramEvacuationDone, ite_self, State.keptOut_next, State.keptOut_ite, State.kept_pulse, State.kept_put, h]

/-! ### Triggers as they arrive -/

theorem State.kept_triggerDefault (src tag time : Nat) : r.Kept (s.triggerDefault src tag time) = r.Kept s := by
  simp only [State.triggerDefault, State.kept_arrive]

theorem State.kept_swFire (tag : Nat) : r.Kept (s.swFire tag) = r.Kept s := by simp only [State.swFire, ite_self, State.kept_ite, State.kept_arrive]

/-! ### Kept takes -/

theorem State.kept_placeKept (key : Bytes) (nsid : Nat) (cont : Bytes) (f p : Nat) : r.Kept (State.placeKept key nsid cont f p s).2 = r.Kept s := by
  induction f generalizing p s with
  | zero => rfl
  | succ f ih =>
    unfold State.placeKept
    split
    · rfl
    · split
      next => rfl
      next e => exact (ih _).trans ((State.kept_mediaBytes ..).trans (State.kept_placeUnit _ _ _ _ _ _ _ _ e))

theorem State.kept_copyKept (slot : Nat) : r.Kept (s.copyKept slot) = r.Kept s := by
  unfold State.copyKept
  split
  next =>
    split
    next e => exact State.kept_snd e (State.kept_mediaKey ..)
    next e =>
      simp only [State.kept_ite, State.kept_setTrig, State.kept_padStripe, State.kept_mediaStall, State.kept_noPlace, State.kept_placeKept, ite_self]
      exact State.kept_snd e (State.kept_mediaKey ..)
  next => rfl

/-! ### The I/O commands of the host -/

theorem State.kept_ioRun (h : r.Kept s) (k : CmdKey) (op : Nat) (wr data : Bool) {go : State → HCmd → Ns → State} (hgo : ∀ (t : State) c n, t.Kept (go t c n)) :
    r.KeptOut (s.ioRun k op wr data go) := by
  unfold State.ioRun
  (repeat' split) <;> simp only [State.keptOut_next, State.kept_completeCmd, h, h.trans (hgo ..)]

theorem kept_execRead (h : r.Kept s) (k : CmdKey) : r.KeptOut (execRead k s) := by
  simp only [execRead, State.kept_refl, implies_true, State.kept_ioRun, State.kept_startReads, h]

theorem kept_execCompare (h : r.Kept s) (k : CmdKey) : r.KeptOut (execCompare k s) := by
  simp only [execCompare, State.kept_refl, implies_true, State.kept_ioRun, State.kept_startReads, h]

theorem kept_execVerify (h : r.Kept s) (k : CmdKey) : r.KeptOut (execVerify k s) := by
  simp only [execVerify, State.kept_refl, implies_true, State.kept_ioRun, State.kept_startReads, h]

theorem State.kept_writeThrough (key : Bytes) (k : CmdKey) (use : GroupUse) (nsid : Nat) (l : List (Nat × Bytes)) {t : State}
    (e : State.writeThrough key k use nsid l s = some t) : r.Kept t = r.Kept s := by
  induction l generalizing s with
  | nil =>
    cases e
    rfl
  | cons x l ih =>
    unfold State.writeThrough at e
    split at e
    next => cases e
    next eu =>
      have hu := (State.kept_placeUnit (r := r) _ _ _ _ _ _ _ _ eu)
      exact (ih e).trans ((State.kept_setImage ..).trans ((State.kept_mediaBytes ..).trans hu))

theorem kept_execWrite (h : r.Kept s) (k : CmdKey) : r.KeptOut (execWrite k s) :=
  State.kept_ioRun h k 1 true true fun t c n => by
    dsimp only
    split
    · refine .ite t.kept_refl ?_
      simp only [State.kept_completeCmd, State.kept_hostActive, State.kept_modCmd, State.kept_setMedia, t.kept_refl]
    split
    · exact (State.kept_mediaStall ..).mpr t.kept_refl
    split
    next e => exact (State.kept_completeCmd ..).mpr (Eq.mpr (State.kept_snd e (State.kept_mediaKey ..)) t.kept_refl)
    next key u e =>
      have hu : t.Kept (u.modCmd k fun h => { h with left := ioNlb c.x, phase := .running }) :=
        (State.kept_modCmd ..).mpr (Eq.mpr (State.kept_snd e (State.kept_mediaKey ..)) t.kept_refl)
      split
      next => exact (State.kept_noPlace ..).mpr t.kept_refl
      next ew => exact (State.kept_hostActive ..).mpr ((State.kept_padStripe ..).mpr (Eq.mpr (State.kept_writeThrough _ _ _ _ _ ew) hu))

theorem kept_execFlush (h : r.Kept s) (k : CmdKey) : r.KeptOut (execFlush k s) := by
  unfold execFlush
  (repeat' split) <;> simp only [State.keptOut_next, State.kept_completeCmd, h]

theorem State.kept_zeroRun (nsid : Nat) (r' : Nat × Nat) : r.Kept (s.zeroRun nsid r') = r.Kept s := by
  simp only [State.zeroRun, State.kept_foldl, implies_true, State.kept_cancelWhere, State.kept_dirtyPage, State.kept_journal, State.kept_setArray, State.kept_setImage,
    State.kept_setMedia]

theorem State.kept_zeroRange (nsid lba count : Nat) : r.Kept (s.zeroRange nsid lba count) = r.Kept s := by
  simp only [State.zeroRange, State.kept_foldl, implies_true, State.kept_zeroRun]

theorem kept_execWriteZeroes (h : r.Kept s) (k : CmdKey) : r.KeptOut (execWriteZeroes k s) := by
  simp only [execWriteZeroes, ite_self, State.kept_ite, State.kept_refl, implies_true, State.kept_completeCmd, State.kept_hostActive, State.kept_ioRun, State.kept_modCmd,
    State.kept_setMedia, State.kept_zeroRange, h]

theorem State.kept_deallocate (nsid : Nat) (r' : Nat × Nat) : r.Kept (s.deallocate nsid r') = r.Kept s := by
  simp only [State.deallocate, State.kept_foldl, implies_true, State.kept_cancelWhere, State.kept_journalRuns, State.kept_setArray, State.kept_setMedia, State.kept_unmapUnit]

theorem kept_execDatasetManagement (h : r.Kept s) (k : CmdKey) : r.KeptOut (execDatasetManagement k s) := by
  unfold execDatasetManagement
  (repeat' split) <;> simp only [ite_self, State.kept_foldl_of, State.kept_refl, implies_true, State.keptOut_next, State.keptOut_ite, State.kept_completeCmd,
    State.kept_deallocate, State.kept_hostActive, h]

/-! ### Frames -/

theorem State.kept_containerOf (n : Ns) : r.Kept (State.containerOf s n).2.2 = r.Kept s :=
  State.kept_of_forget (State.forget_containerOf (T := 0xFFFFFFFFFFBFF7FE) rfl ..)

/- The two reads are made opaque and the tail is a lemma of its own, so that the kernel compares the branches without evaluating them. -/
theorem kept_execFrameRead (h : r.Kept s) (k : CmdKey) : r.KeptOut (execFrameRead k s) := by
  have hc : ∀ st, r.KeptOut (.next (s.completeCmd k st)) := fun st => (State.kept_completeCmd ..).mpr h
  have hcont : ∀ n, r.Kept (s.containerOf n).2.2 := fun n => (State.kept_containerOf ..).mpr h
  have ha : ∀ a b c, r.Kept (s.aheadOf a b c) := fun a b c => (State.kept_aheadOf ..).mpr h
  have hm : r.Kept s.mediaStall := (State.kept_mediaStall ..).mpr h
  rw [execFrameRead]
  generalize findFrame = find
  generalize State.containerOf = container at hcont ⊢
  split
  next => exact h
  next =>
    extract_lets x part off len
    clear_value len off part
    split
    next => exact hc _
    next n _ =>
      refine State.keptOut_of_ite (hc _) (State.keptOut_of_ite (hc _) (State.keptOut_of_ite (hc _) (State.keptOut_of_ite (hc _)
        (State.keptOut_of_ite (hc _) (State.keptOut_of_ite h (State.keptOut_of_ite h (State.keptOut_of_ite (ha ..) (State.keptOut_of_ite hm ?_))))))))
      clear hc ha hm
      as_aux_lemma =>
        have ht := hcont n
        split
        next cont bad t e =>
          rw [e] at ht
          have hd : ∀ st, r.KeptOut (.next (t.completeCmd k st)) := fun st => (State.kept_completeCmd ..).mpr ht
          split
          next => exact hd _
          next =>
            extract_lets fr st first rs one body size whole m sl gone out
            clear_value out m whole
            refine State.keptOut_of_ite (hd _) (State.keptOut_of_ite (hd _) ?_)
            split
            next => exact hd _
            next => exact (State.kept_completeCmd ..).mpr ((State.kept_hostActive ..).mpr (State.kept_toHost ht ..))

/-! ### Engine jobs -/

theorem State.kept_engineCmd (h : r.Kept s) (k : CmdKey) (op engine : Nat) : r.KeptOut (s.engineCmd k op engine) := by
  unfold State.engineCmd
  (repeat' split) <;> simp only [State.keptOut_next, State.kept_completeCmd, State.kept_hostActive, State.kept_modCmd, State.kept_submitJob, h]

theorem kept_execEarmarkSearch (h : r.Kept s) (k : CmdKey) : r.KeptOut (execEarmarkSearch k s) := by
  simp only [execEarmarkSearch, State.kept_engineCmd, h]

theorem kept_execShearsJob (h : r.Kept s) (k : CmdKey) : r.KeptOut (execShearsJob k s) := by simp only [execShearsJob, State.kept_engineCmd, h]

theorem kept_execDigestJob (h : r.Kept s) (k : CmdKey) : r.KeptOut (execDigestJob k s) := by simp only [execDigestJob, State.kept_engineCmd, h]

/-! ### Subsystem Local Memory -/

theorem State.kept_slmRun (h : r.Kept s) (k : CmdKey) {go : State → HCmd → Nat → Nat → State} (hgo : ∀ (t : State) c a b, t.Kept (go t c a b)) :
    r.KeptOut (s.slmRun k go) := by
  unfold State.slmRun
  (repeat' split) <;> simp only [State.keptOut_next, State.kept_completeCmd, h, h.trans (hgo ..)]

theorem kept_execMemoryRead (h : r.Kept s) (k : CmdKey) : r.KeptOut (execMemoryRead k s) :=
  State.kept_slmRun h k fun t c base size => by
    have hc : ∀ st, t.Kept (t.completeCmd k st) := fun st => (State.kept_completeCmd ..).mpr t.kept_refl
    dsimp only
    refine .ite (hc _) (.ite (hc _) (.ite (hc _) ?_))
    split
    · exact (State.kept_completeCmd ..).mpr ((State.kept_xlateFault ..).mpr t.kept_refl)
    · exact (State.kept_completeCmd ..).mpr ((State.kept_hostActive ..).mpr (State.kept_toHost t.kept_refl ..))

theorem kept_execMemoryWrite (h : r.Kept s) (k : CmdKey) : r.KeptOut (execMemoryWrite k s) :=
  State.kept_slmRun h k fun t c _ size => by
    have hc : ∀ st, t.Kept (t.completeCmd k st) := fun st => (State.kept_completeCmd ..).mpr t.kept_refl
    dsimp only
    refine .ite (hc _) (.ite (hc _) ?_)
    split
    next => exact (State.kept_completeCmd ..).mpr ((State.kept_xlateFault ..).mpr t.kept_refl)
    next e => exact (State.kept_completeCmd ..).mpr ((State.kept_hostActive ..).mpr (State.kept_xwrite t.kept_refl e))

theorem kept_execMemoryCopy (h : r.Kept s) (k : CmdKey) : r.KeptOut (execMemoryCopy k s) :=
  State.kept_slmRun h k fun t c _ size => by
    dsimp only
    split
    · exact (State.kept_completeCmd ..).mpr t.kept_refl
    · exact .ite ((State.kept_completeCmd ..).mpr t.kept_refl) (.ite t.kept_refl (State.kept_startReads t.kept_refl ..))

/-! ### Ports -/

theorem State.kept_setPerst (p : Port) (v : Bool) : r.Kept (s.setPerst p v) = r.Kept s := by simp only [State.setPerst, State.kept_setPwr]

theorem State.kept_setLink (p : Port) (speed width : Nat) (flit sris l12 : Bool) : r.Kept (s.setLink p speed width flit sris l12) = r.Kept s := by
  simp only [State.setLink, State.kept_puts]

theorem kept_execPerstRelease (h : r.Kept s) (port : Port) : r.KeptOut (execPerstRelease port s) := by
  simp only [execPerstRelease, ite_self, State.kept_ite, State.keptOut_next, State.kept_createFn, State.kept_put, State.kept_setPerst, h]

theorem kept_execPerstAssert (h : r.Kept s) (port : Port) : r.KeptOut (execPerstAssert port s) := by
  simp only [execPerstAssert, ite_self, State.kept_ite, State.keptOut_next, State.kept_pulse, State.kept_resetFn, State.kept_setLink, State.kept_setPerst, h]

theorem kept_execPcieLinkUp (h : r.Kept s) (port : Port) (speed : BitVec 3) (width : BitVec 5) (flit sris : Bool) : r.KeptOut (execPcieLinkUp port speed width flit sris s) :=
    by
  simp only [execPcieLinkUp, ite_self, State.kept_ite, State.keptOut_next, State.keptOut_ite, State.kept_pulse, State.kept_record, State.kept_setLink, h]

theorem kept_execHostqLinkDown (h : r.Kept s) (port : Port) : r.KeptOut (execHostqLinkDown port s) := by
  simp only [execHostqLinkDown, ite_self, State.keptOut_next, State.keptOut_ite, State.kept_pulse, State.kept_record, State.kept_setLink, h]

theorem kept_execAspmL12Entry (h : r.Kept s) (port : Port) : r.KeptOut (execAspmL12Entry port s) := by
  simp only [execAspmL12Entry, ite_self, State.keptOut_next, State.keptOut_ite, State.kept_pulse, State.kept_put, h]

theorem kept_execAspmL12Exit (h : r.Kept s) (port : Port) : r.KeptOut (execAspmL12Exit port s) := by
  simp only [execAspmL12Exit, ite_self, State.keptOut_next, State.keptOut_ite, State.kept_pulse, State.kept_put, h]

/-! ### Doorbells -/

theorem State.kept_badDoorbell (fn qid info : Nat) : r.Kept (s.badDoorbell fn qid info) = r.Kept s := by
  simp only [State.badDoorbell, State.kept_pulse, State.kept_raiseEvent, State.kept_record]

theorem kept_execDoorbellWrite (h : r.Kept s) (fn qid : Nat) (isCq : Bool) (v : Nat) : r.KeptOut (execDoorbellWrite fn qid isCq v s) := by
  unfold execDoorbellWrite
  (repeat' split) <;> simp only [ite_self, State.kept_ite, State.keptOut_next, State.kept_badDoorbell, State.kept_modSq, State.kept_setCommonBit, State.kept_setHost, h]

/-! ### Fetch -/

theorem State.kept_fetched (x : IoCmd) (c : HCmd) : r.Kept (s.fetched x c) = r.Kept s := by
  simp only [State.fetched, State.kept_bump, State.kept_modSq, State.kept_setHost]

theorem State.kept_pauseFetch : r.Kept s.pauseFetch = r.Kept s := by
  simp only [State.pauseFetch, ite_self, State.kept_ite, State.kept_bump, State.kept_pulse, State.kept_record, State.kept_setHost]

theorem State.kept_fetchNext (h : r.Kept s) (x : IoCmd) (locks : List RLock) : r.KeptOut (s.fetchNext x locks) := by
  simp only [State.fetchNext, ite_self, State.kept_ite, State.keptOut_next, State.keptOut_ite, State.kept_bump, State.kept_completeCmd, State.kept_fetched, State.kept_relock,
    State.kept_setHost, h]

theorem kept_execCommandFetch (h : r.Kept s) (x : IoCmd) : r.KeptOut (execCommandFetch x s) := by
  unfold execCommandFetch
  (repeat' split) <;> simp only [ite_self, State.keptOut_next, State.keptOut_ite, State.kept_fetchNext, State.kept_pauseFetch, State.kept_setHost, h]

/-! ### The flash channels -/

theorem State.kept_nandErr (c code die step row : Nat) : r.Kept (s.nandErr c code die step row) = r.Kept s := by
  simp only [State.nandErr, State.kept_record]

/-! ### Training -/

theorem kept_execNandTrainStart (h : r.Kept s) : r.KeptOut (execNandTrainStart s) := by
  simp only [execNandTrainStart, ite_self, State.kept_foldl_of, State.kept_ite, State.kept_refl, implies_true, State.keptOut_next, State.kept_puts, h]

theorem State.kept_trainFail (h : r.Kept s) (c step : Nat) : r.Kept (s.trainFail c step) := by
  unfold State.trainFail
  extract_lets t1 t2 t3 q
  have h3 : r.Kept t3 := by
    simp only [t3, t2, t1, State.kept_putBit, State.kept_nandErr, State.kept_pulse, State.kept_setNand, State.kept_put, h]
  exact .ite (State.kept_endOps (State.kept_followChannels (State.kept_loseDies h3 _)) _) h3

theorem State.kept_loseFailed (h : r.Kept s) : r.Kept s.loseFailed := by
  simp only [State.loseFailed, ite_self, State.kept_ite, State.kept_endOps, State.kept_loseDies, h]

theorem State.kept_trained (h : r.Kept s) (c : Nat) : r.Kept (s.trained c) := by
  simp only [State.trained, ite_self, State.kept_ite, State.kept_followChannels, State.kept_pulse, State.kept_puts, State.kept_setNand, h]

theorem State.kept_partMismatch (h : r.Kept s) (c : Nat) : r.Kept (s.partMismatch c) := by
  simp only [State.partMismatch, ite_self, State.kept_foldl_of, State.kept_ite, State.kept_refl, implies_true, State.kept_enterSafe, State.kept_nandErr, State.kept_put,
    State.kept_puts, h]

theorem State.kept_showCode : r.Kept s.showCode = r.Kept s := by
  unfold State.showCode
  (repeat' split) <;> simp only [State.kept_foldl, implies_true, State.kept_puts]

theorem kept_execNandTrainDone (h : r.Kept s) (ch : Fin 32) (r' : NandTraining) : r.KeptOut (execNandTrainDone ch r' s) := by
  unfold execNandTrainDone
  dsimp only
  (repeat' split) <;> simp only [State.keptOut_next, State.kept_loseFailed, State.kept_partMismatch, State.kept_puts, State.kept_setNand, State.kept_showCode,
    State.kept_trainFail, State.kept_trained, h]

theorem kept_execNandZqShort (h : r.Kept s) (ch : Fin 32) : r.KeptOut (execNandZqShort ch s) := by
  simp only [execNandZqShort, ite_self, State.kept_mk, State.keepsAs_self, State.keptOut_next, State.keptOut_ite, State.kept_setNand, h]

/-! ### Channel and die faults -/

theorem State.kept_channelOff (h : r.Kept s) (c st : Nat) : r.Kept (s.channelOff c st) := by
  unfold State.channelOff
  extract_lets t q
  have ht : r.Kept t := by simp only [t, State.kept_setNand, State.kept_puts, h]
  exact State.kept_endOps (State.kept_followChannels (State.kept_loseDies ht _)) _

theorem kept_execNandPwrFault (h : r.Kept s) (ch : Fin 32) : r.KeptOut (execNandPwrFault ch s) := by
  simp only [execNandPwrFault, ite_self, State.keptOut_next, State.keptOut_ite, State.kept_channelOff, State.kept_nandErr, State.kept_pulse, State.kept_put, h]

theorem kept_execNandDieReset (h : r.Kept s) (ch : Fin 32) (die : Fin 16) : r.KeptOut (execNandDieReset ch die s) := by
  simp only [execNandDieReset, ite_self, State.keptOut_next, State.keptOut_ite, State.kept_sendOnfi, State.kept_setNand, h]

theorem kept_execNandDieTimeout (h : r.Kept s) (ch : Fin 32) (die : Fin 16) : r.KeptOut (execNandDieTimeout ch die s) := by
  simp only [execNandDieTimeout, ite_self, State.keptOut_next, State.keptOut_ite, State.kept_bump, State.kept_endOps, State.kept_loseDies, State.kept_nandErr, State.kept_pulse,
    State.kept_put, h]

/-! ### Reads -/

theorem State.kept_setFront (d : Nat) (o : DieOp) : r.Kept (s.setFront d o) = r.Kept s := by simp only [State.setFront, State.kept_setNand]

theorem State.kept_readAt (d : Nat) (o : DieOp) (es : List Nat) : r.Kept (s.readAt d o es) = r.Kept s := by
  simp only [State.readAt, State.kept_sendOnfi, State.kept_setNand]

theorem State.kept_restoreEntry (d : Nat) : r.Kept (s.restoreEntry d) = r.Kept s := by
  simp only [State.restoreEntry, ite_self, State.kept_ite, State.kept_sendOnfi, State.kept_setNand]

theorem State.kept_refreshBlock (d b : Nat) : r.Kept (s.refreshBlock d b) = r.Kept s := by
  unfold State.refreshBlock
  (repeat' split) <;> simp only [State.kept_queueRefresh]

theorem State.kept_forgetFault (d block pu piece : Nat) : r.Kept (s.forgetFault d block pu piece) = r.Kept s := by
  simp only [State.forgetFault, State.kept_setNand]

theorem State.kept_decoded (d : Nat) (o : DieOp) (cls piece bits_ : Nat) : r.Kept (s.decoded d o cls piece bits_) = r.Kept s := by
  simp only [State.decoded, ite_self, State.kept_ite, State.kept_bump, State.kept_forgetFault, State.kept_pulse, State.kept_refreshBlock]

theorem State.kept_uncorrectable (h : r.Kept s) (d : Nat) (o : DieOp) (piece : Nat) : r.Kept (s.uncorrectable d o piece) := by
  unfold State.uncorrectable
  dsimp only
  (repeat' split) <;> simp only [State.kept_bump, State.kept_checkRow, State.kept_nandErr, State.kept_pulse, State.kept_puts, State.kept_refreshBlock, State.kept_setNand, h]

theorem State.kept_endRead (h : r.Kept s) (d : Nat) (o : DieOp) : r.Kept (s.endRead d o) := by
  unfold State.endRead
  (repeat' split) <;> simp only [State.kept_popOp, State.kept_readEnded, State.kept_restoreEntry, h]

theorem State.kept_reportErased (d : Nat) (o : DieOp) (piece : Nat) : r.Kept (s.reportErased d o piece) = r.Kept s := by
  simp only [State.reportErased, State.kept_setNand]

theorem State.kept_classed (h : r.Kept s) (d : Nat) (o : DieOp) (cls piece n : Nat) : r.Kept (s.classed d o cls piece n) := by
  simp only [State.classed, ite_self, State.kept_ite, State.kept_decoded, State.kept_uncorrectable, h]

theorem State.kept_decodeAll (h : r.Kept s) (cls d : Nat) (o : DieOp) (ps : List Nat) (rs : List CwOutcome) :
    r.Kept (State.decodeAll cls d o ps rs s).2 := by
  induction ps generalizing rs s with
  | nil => exact h
  | cons p ps ih =>
    unfold State.decodeAll
    split
    next => exact ih h []
    next =>
      split
      · exact ih ((State.kept_reportErased ..).mpr h) _
      · split
        next => exact ih (State.kept_classed h ..) _
        next => exact ih h _

theorem State.kept_giveUp (h : r.Kept s) (d : Nat) (o : DieOp) (left : List Nat) : r.Kept (s.giveUp d o left) :=
  State.kept_endRead (State.kept_foldl_of h fun t _ => State.kept_uncorrectable t.kept_refl ..) d o

theorem State.kept_nextLevel (d : Nat) (o : DieOp) (n : Nat) : r.Kept (s.nextLevel d o n) = r.Kept s := by
  simp only [State.nextLevel, ite_self, State.kept_ite, State.kept_readAt]

theorem kept_execNandReadDone (h : r.Kept s) (ch : Fin 32) (die : Fin 16) (rs : List CwOutcome) : r.KeptOut (execNandReadDone ch die rs s) := by
  unfold execNandReadDone
  dsimp only
  (repeat' split) <;> simp only [State.keptOut_next, State.kept_decodeAll, State.kept_endRead, State.kept_giveUp, State.kept_nextLevel, State.kept_setFront, h]

theorem kept_execNandRetryStep (h : r.Kept s) (ch : Fin 32) (die : Fin 16) (rs : List CwOutcome) : r.KeptOut (execNandRetryStep ch die rs s) := by
  unfold execNandRetryStep
  dsimp only
  (repeat' split) <;> simp only [State.keptOut_next, State.kept_decodeAll, State.kept_endRead, State.kept_nextLevel, State.kept_setFront, h]

theorem kept_execNandSoftDecode (h : r.Kept s) (ch : Fin 32) (die : Fin 16) (rs : List CwOutcome) : r.KeptOut (execNandSoftDecode ch die rs s) := by
  unfold execNandSoftDecode
  dsimp only
  (repeat' split) <;> simp only [State.keptOut_next, State.kept_decodeAll, State.kept_giveUp, h]

/-! ### Programs and erases -/

theorem State.kept_programmed (h : r.Kept s) (d : Nat) (o : DieOp) (gn i m : Nat) : r.Kept (s.programmed d o gn i m) := by
  unfold State.programmed
  (repeat' split) <;> simp only [ite_self, State.kept_foldl_of, State.kept_ite, State.kept_refl, implies_true, State.kept_logReady, State.kept_mapMember, State.kept_modGroup,
    State.kept_programUnit, State.kept_resumeReading, State.kept_setImage, State.kept_unitProgrammed, h]

theorem State.kept_programFail (c d : Nat) (o : DieOp) : r.Kept (s.programFail c d o) = r.Kept s := by
  simp only [State.programFail, State.kept_bump, State.kept_nandErr, State.kept_pulse]

theorem State.kept_eraseFail (c d : Nat) (o : DieOp) : r.Kept (s.eraseFail c d o) = r.Kept s := by
  simp only [State.eraseFail, State.kept_bump, State.kept_nandErr, State.kept_pulse]

theorem kept_execNandProgramDone (h : r.Kept s) (ch : Fin 32) (die : Fin 16) (pass : Bool) : r.KeptOut (execNandProgramDone ch die pass s) := by
  unfold execNandProgramDone
  dsimp only
  (repeat' split) <;> simp only [State.keptOut_next, State.kept_ckptStep, State.kept_endStripe, State.kept_logReady, State.kept_moveCopy, State.kept_pageProgrammed,
    State.kept_popOp, State.kept_programFail, State.kept_programFailed, State.kept_programmed, State.kept_rebuildFailed, State.kept_rebuilt, State.kept_retireBlock,
    State.kept_snapStep, h]

theorem State.kept_blockErased (d b : Nat) : r.Kept (s.blockErased d b) = r.Kept s := by
  simp only [State.blockErased, State.kept_eraseBlock, State.kept_setImage]

theorem kept_execNandEraseDone (h : r.Kept s) (ch : Fin 32) (die : Fin 16) (pass : Bool) : r.KeptOut (execNandEraseDone ch die pass s) := by
  unfold execNandEraseDone
  dsimp only
  (repeat' split) <;> simp only [State.keptOut_next, State.kept_blockErased, State.kept_eraseFail, State.kept_modGroup, State.kept_popOp, State.kept_retireBlock,
    State.kept_setMedia, State.kept_showPool, h]

/-! ### Owed trailers -/

theorem State.kept_placeOwed (o : Nat × TakeSt) : r.Kept (s.placeOwed o) = r.Kept s := by
  unfold State.placeOwed
  split
  next =>
    split
    next e => exact State.kept_snd e (State.kept_mediaKey ..)
    next e =>
      have ht := State.kept_snd (r := r) e (State.kept_mediaKey ..)
      split
      next => exact ht
      next =>
        simp only [State.kept_setKeys, State.kept_mk, State.keepsAs_self, State.kept_closeTakeGroups, State.kept_sealNs, State.kept_placeTrailer]
        exact ht
  next => rfl

theorem State.kept_owedTrails : r.Kept s.owedTrails = r.Kept s := by
  simp only [State.owedTrails, ite_self, State.kept_ite, State.kept_foldl, implies_true, State.kept_placeOwed]

/-! ### Alarms -/

theorem State.kept_alarm (h : r.Kept s) (c : Nat) : r.Kept (s.alarm c) := by
  simp only [State.alarm, State.kept_bump, State.kept_closeKeys, State.kept_endPerturb, State.kept_pulse, State.kept_puts, State.kept_record, State.kept_settle,
    State.kept_zeroiseKeys, h]

theorem State.kept_derived (unlock : Bool) : r.Kept (s.derived unlock) = r.Kept s := by
  simp only [State.derived, ite_self, State.kept_ite, State.kept_deriveMedia, State.kept_pulse, State.kept_put, State.kept_setKeys]

theorem State.kept_derive (unlock : Bool) : r.Kept (s.derive unlock) = r.Kept s := by
  simp only [State.derive, ite_self, State.kept_ite, State.kept_derived, State.kept_setKeys]

theorem State.kept_unlockKeys : r.Kept s.unlockKeys = r.Kept s := by simp only [State.unlockKeys, State.kept_derive, State.kept_owedTrails]

theorem State.kept_masked (h : r.Kept s) : r.Kept s.masked := by
  unfold State.masked
  (repeat' split) <;> simp only [ite_self, State.kept_ite, State.kept_derive, State.kept_owedTrails, State.kept_placeAll, State.kept_resumeReading, State.kept_settle, h]

/-! ### Commands -/

theorem kept_execDeriveKeks (h : r.Kept s) : r.KeptOut (execDeriveKeks s) := by
  simp only [execDeriveKeks, State.keptOut_next, State.kept_keyJob, State.kept_owedTrails, h]

theorem kept_execGenerate (h : r.Kept s) : r.KeptOut (execGenerate s) := by simp only [execGenerate, State.keptOut_next, State.kept_keyJob, h]

theorem kept_execUnwrapLoad (h : r.Kept s) : r.KeptOut (execUnwrapLoad s) := by
  simp only [execUnwrapLoad, State.keptOut_next, State.kept_keyJob, State.kept_owedTrails, h]

theorem kept_execWrap (h : r.Kept s) : r.KeptOut (execWrap s) := by simp only [execWrap, State.keptOut_next, State.kept_keyJob, h]

theorem kept_execDerive (h : r.Kept s) : r.KeptOut (execDerive s) := by simp only [execDerive, State.keptOut_next, State.kept_keyJob, h]

theorem kept_execLoadPlain (h : r.Kept s) : r.KeptOut (execLoadPlain s) := by simp only [execLoadPlain, State.keptOut_next, State.kept_keyJob, h]

theorem kept_execClear (h : r.Kept s) : r.KeptOut (execClear s) := by simp only [execClear, State.keptOut_next, State.kept_keyJob, h]

theorem kept_execKeyengJobComplete (h : r.Kept s) : r.KeptOut (execKeyengJobComplete s) := by
  simp only [execKeyengJobComplete, State.keptOut_next, State.kept_keyComplete, h]

theorem State.kept_conditions (c : Nat) : r.Kept (s.conditions c) = r.Kept s := by
  simp only [State.conditions, ite_self, State.kept_ite, State.kept_fresh, State.kept_setKeys]

theorem kept_execKeyengAlarm (h : r.Kept s) (src : BitVec 3) : r.KeptOut (execKeyengAlarm src s) := by
  simp only [execKeyengAlarm, ite_self, State.keptOut_next, State.keptOut_ite, State.kept_alarm, State.kept_conditions, h]

theorem State.kept_condsEnd : r.Kept s.condsEnd = r.Kept s := by
  simp only [State.condsEnd, ite_self, State.kept_ite, State.kept_fresh, State.kept_setKeys]

theorem kept_execMaskReseed (h : r.Kept s) (g : Fin 7) : r.KeptOut (execMaskReseed g s) := by
  simp only [execMaskReseed, ite_self, State.kept_ite, State.keptOut_next, State.keptOut_ite, State.kept_bump, State.kept_maskStall, State.kept_masked, State.kept_setKeys, h]

theorem kept_execEntropyHealthFail (h : r.Kept s) (apt : Bool) : r.KeptOut (execEntropyHealthFail apt s) := by
  simp only [execEntropyHealthFail, ite_self, State.keptOut_next, State.keptOut_ite, State.kept_alarm, State.kept_bump, State.kept_pulse, State.kept_put, State.kept_record, h]

theorem kept_execEntropyStartupDone (h : r.Kept s) (ok : Bool) : r.KeptOut (execEntropyStartupDone ok s) := by
  simp only [execEntropyStartupDone, ite_self, State.kept_ite, State.keptOut_next, State.keptOut_ite, State.kept_alarm, State.kept_masked, State.kept_pulse, State.kept_puts,
    State.kept_record, State.kept_setKeys, h]

end Sys2Proof.Machine
end

section
/-!
What each of the model's functions keeps (`State.Kept`), in the model's order: the OTP generations, mode changes and vetoes, the lifecycle of a take,
DOZE and FOLD, regulators and resets, recovery and the boot.
-/

namespace Sys2Proof.Machine

open Sys2Proof.Laws

variable {r s : State} {x : Ctx}

/-! ### The OTP generations -/

theorem State.kept_loadSlots : r.Kept s.loadSlots = r.Kept s := by
  simp only [State.loadSlots, State.kept_foldl, implies_true, State.kept_put, State.kept_puts]

theorem State.kept_showOtp : r.Kept s.showOtp = r.Kept s := by simp only [State.showOtp, State.kept_puts]

theorem State.kept_mirrorOtp : r.Kept s.mirrorOtp = r.Kept s := by
  simp only [State.mirrorOtp, State.kept_foldl, implies_true, State.kept_put, State.kept_puts, State.kept_showOtp]

theorem State.kept_takeOtp : r.Kept s.takeOtp = r.Kept s := by simp only [State.takeOtp, implies_true, State.kept_loadSlots, State.kept_setTrust]

theorem State.kept_badGens : r.Kept s.badGens = r.Kept s := by
  simp only [State.badGens, State.kept_foldl, implies_true, State.kept_pulse, State.kept_record]

/-! ### Outcomes -/

theorem State.kept_setOutcome (target outcome : Nat) (r' : Refuser) : r.Kept (s.setOutcome target outcome r') = r.Kept s := by
  simp only [State.setOutcome, State.kept_puts]

theorem State.kept_charge (target outcome phase : Nat) (r' : Refuser) : r.Kept (s.charge target outcome phase r') = r.Kept s := by
  simp only [State.charge, ite_self, State.kept_ite, State.kept_bump, State.kept_pulse, State.kept_record, State.kept_setOutcome, State.kept_setPwr, State.kept_wearTally]

/-! ### Vetoes -/

theorem State.kept_veto (q : PwrReq) : r.Kept (s.veto q).2 = r.Kept s := by
  unfold State.veto
  generalize (if (q == .doze) = true then (List.range 8).find? (bitAt (s.get R.VREG.LINK_STATUS_UNSUPPORTED)) else none) = o
  cases o <;> simp only [apply_ite Prod.snd, State.kept_ite, State.kept_fresh, ite_self]

theorem State.kept_request (h : r.Kept s) (q : PwrReq) {go : State → State} (hgo : ∀ t : State, t.Kept (go t)) : r.Kept (s.request q go) := by
  have hv := (State.kept_veto q).mpr h
  unfold State.request
  split
  next e =>
    rw [e] at hv
    exact (State.kept_charge ..).mpr hv
  next e =>
    rw [e] at hv
    exact ((State.kept_setOutcome ..).mpr hv).trans (hgo _)

/-! ### Quiesce and resume -/

theorem State.kept_eachCore (h : r.Kept s) {f : State → Fin 72 → State} (hf : ∀ (t : State) c, t.Kept (f t c)) : r.Kept (s.eachCore f) :=
  State.kept_foldl_of h hf

theorem State.kept_quiesce (h : r.Kept s) : r.Kept s.quiesce := by
  unfold State.quiesce
  extract_lets t1 t2 t3 t4 t5 t6
  have h1 : r.Kept t1 := State.kept_eachCore h fun t c => State.kept_parkCore t.kept_refl ..
  have h6 : r.Kept t6 := by
    simp only [t6, t5, t4, t3, t2, State.kept_puts, State.kept_setGate, State.kept_put, State.kept_ite, State.kept_linkReset, State.kept_foldl,
      implies_true, ite_self, h1]
  clear_value t6
  exact h6

theorem State.kept_clocksOn : r.Kept s.clocksOn = r.Kept s := by simp only [State.clocksOn, State.kept_put]

theorem State.kept_unquiesce (h : r.Kept s) : r.Kept s.unquiesce := by
  simp only [State.unquiesce, ite_self, State.kept_foldl_of, State.kept_ite, State.kept_refl, implies_true, State.kept_dramUp, State.kept_eachCore, State.kept_resumeCore,
    State.kept_setGate, h]

/-! ### Takes -/

theorem State.kept_cutAtLoss : r.Kept s.cutAtLoss = r.Kept s := by
  unfold State.cutAtLoss
  (repeat' split) <;> simp only [ite_self, State.kept_mk, State.keepsAs_self, State.kept_ite, State.kept_sealNs, State.kept_setKeys]

theorem State.kept_cutWindows : r.Kept s.cutWindows = r.Kept s := by
  simp only [State.cutWindows, ite_self, State.kept_ite, State.kept_foldl, implies_true, State.kept_cutPinned, State.kept_sealWindow, State.kept_setTrig]

/-! ### The whole -/

theorem State.kept_rebaseRtc : r.Kept s.rebaseRtc = r.Kept s := by simp only [State.rebaseRtc, State.kept_mk, State.keepsAs_self]

theorem State.kept_channelsOff : r.Kept s.channelsOff = r.Kept s := by simp only [State.channelsOff, State.kept_foldl, implies_true, State.kept_put]

theorem State.kept_lose (h : r.Kept s) (warm : Bool) : r.Kept (s.lose warm) := by
  have hc : r.Kept ((s.rebaseRtc.cutWindows).cutAtLoss) := by simp only [State.kept_cutAtLoss, State.kept_cutWindows, State.kept_rebaseRtc, h]
  unfold State.lose
  generalize (s.rebaseRtc.cutWindows).cutAtLoss = u at hc
  dsimp only
  rw [State.kept_ite, State.kept_channelsOff, ite_self, State.kept_mk]
  refine ⟨hc.queue, fun hw => ?_, hc.otpWf, hc.bits, hc.seq⟩
  obtain ⟨-, -, ha, hb⟩ := (MemSt.wf_iff _).mp (hc.mem hw)
  exact (MemSt.wf_iff _).mpr ⟨rfl, rfl, ha, hb⟩

theorem State.kept_endTrust (h : r.Kept s) : r.Kept s.endTrust :=
  State.kept_endPerturb (State.kept_foldl_of h fun t _ => State.kept_endRole t.kept_refl ..) _

theorem State.kept_enterFold (h : r.Kept s) (clean railsOff : Bool) : r.Kept (s.enterFold clean railsOff) := by
  simp only [State.enterFold, State.kept_endTrust, State.kept_lose, State.kept_puts, State.kept_setMode, State.kept_setPwr, h]

theorem State.kept_portFnsBack : r.Kept s.portFnsBack = r.Kept s := by simp only [State.portFnsBack, ite_self, State.kept_ite, State.kept_createFn]

theorem State.kept_layoutBack : r.Kept s.layoutBack = r.Kept s := by simp only [State.layoutBack, ite_self, State.kept_ite, State.kept_put]

theorem State.kept_setDtime : r.Kept (State.setDtime s) = r.Kept s :=
  State.kept_of_forget (State.forget_setDtime (T := 0xFFFFFFFFFFBFF7FE) rfl ..)

theorem State.kept_startBoot (cold : Bool) (cause : Nat) : r.Kept (s.startBoot cold cause) = r.Kept s := by
  simp only [State.startBoot, ite_self, State.kept_ite, State.kept_layoutBack, State.kept_mirrorOtp, State.kept_puts, State.kept_setDtime, State.kept_setPwr, State.kept_takeOtp]

theorem State.kept_coldReset (h : r.Kept s) (cause : Nat) : r.Kept (s.coldReset cause) := by
  simp only [State.coldReset, ite_self, State.kept_mk, State.keepsAs_self, State.kept_ite, implies_true, State.kept_endTrust, State.kept_fresh, State.kept_lose, State.kept_puts,
    State.kept_rebaseRtc, State.kept_setMode, State.kept_setPwr, State.kept_setTrust, State.kept_startBoot, State.kept_unput, h]

theorem State.kept_warmReset (h : r.Kept s) (cause : Nat) (clean : Bool) : r.Kept (s.warmReset cause clean) := by
  simp only [State.warmReset, State.kept_endTrust, State.kept_lose, State.kept_puts, State.kept_setMode, State.kept_setPwr, State.kept_startBoot, h]

/-! ### The lifecycle of a take -/

theorem State.kept_refuseTake (p : TakeOpenPkt) (reason : Nat) : r.Kept (s.refuseTake p reason) = r.Kept s := by
  simp only [State.refuseTake, State.kept_pulse, State.kept_record, State.kept_send]

theorem kept_execTakeOpen (h : r.Kept s) (p : TakeOpenPkt) : r.KeptOut (execTakeOpen p s) := by
  simp only [execTakeOpen, ite_self, State.keptOut_next, State.keptOut_ite, State.kept_follow, State.kept_leaveRx, State.kept_put, State.kept_refuseTake, State.kept_setTake, h]

theorem State.kept_openTake (p : TakeOpenPkt) (rate duration cap lee nsid rec slot : Nat) : r.Kept (s.openTake p rate duration cap lee nsid rec slot) = r.Kept s := by
  unfold State.openTake
  extract_lets m id lanes res c sels tk n u t₁ reset t₂ t₃ t₄ fl hd
  have ht₃ : r.Kept t₃ = r.Kept s := State.kept_mk.trans (State.keepsAs_self.trans ((State.kept_setTake _).trans (State.kept_puts _)))
  have ht₄ : r.Kept t₄ = r.Kept t₃ := State.kept_reserveLanes ..
  clear_value t₄ n hd
  exact (State.kept_nsChanged _).trans (State.kept_catalogChanged.trans ((State.kept_appendRaw _).trans (ht₄.trans ht₃)))

theorem State.kept_grantTake (p : TakeOpenPkt) : r.Kept (s.grantTake p) = r.Kept s := by
  unfold State.grantTake
  extract_lets u no
  have hu : r.Kept u = r.Kept s := State.kept_setTake ..
  have hno : ∀ t why, r.Kept (no t why) = r.Kept t := fun t why => by
    simp only [no, State.kept_follow, State.kept_refuseTake, State.kept_put]
  clear_value u
  split
  next => exact (hno ..).trans hu
  next =>
    split
    next e => exact (hno ..).trans ((State.kept_snd e (State.kept_newMediaKey ..)).trans hu)
    next e =>
      simp only [State.kept_settle, State.kept_follow, State.kept_pulse, State.kept_ite, State.kept_takeErr, State.kept_send, State.kept_openTake,
        ite_self]
      exact (State.kept_snd e (State.kept_newMediaKey ..)).trans hu
  next => exact (hno ..).trans hu

theorem kept_execTakeGrant (h : r.Kept s) : r.KeptOut (execTakeGrant s) := by
  unfold execTakeGrant
  (repeat' split) <;> simp only [State.keptOut_next, State.kept_grantTake, h]

theorem kept_execTakeClose (h : r.Kept s) (id : BitVec 64) : r.KeptOut (execTakeClose id s) := by
  simp only [execTakeClose, ite_self, State.keptOut_next, State.keptOut_ite, State.kept_closeTake, State.kept_leaveRx, State.kept_record, State.kept_settle, h]

theorem kept_execTakeDurationExpiry (h : r.Kept s) : r.KeptOut (execTakeDurationExpiry s) := by
  unfold execTakeDurationExpiry
  (repeat' split) <;> simp only [State.kept_mk, State.keepsAs_self, State.keptOut_next, State.kept_closeTake, State.kept_settle, h]

theorem kept_execTakeRateBreach (h : r.Kept s) : r.KeptOut (execTakeRateBreach s) := by
  unfold execTakeRateBreach
  (repeat' split) <;> simp only [State.keptOut_next, State.kept_bump, State.kept_hold, State.kept_pulse, State.kept_put, State.kept_takeErr, h]

theorem kept_execTakeBreachRelease (h : r.Kept s) : r.KeptOut (execTakeBreachRelease s) := by
  unfold execTakeBreachRelease
  (repeat' split) <;> simp only [State.keptOut_next, State.kept_hold, State.kept_pulse, State.kept_put, h]

theorem kept_execTakeRatioMeasure (h : r.Kept s) : r.KeptOut (execTakeRatioMeasure s) := by
  unfold execTakeRatioMeasure
  (repeat' split) <;> simp only [ite_self, State.kept_mk, State.keepsAs_self, State.keptOut_next, State.keptOut_ite, State.kept_pulse, State.kept_put, State.kept_setTake,
    State.kept_takeErr, h]

theorem kept_execSecureWindowPad (h : r.Kept s) : r.KeptOut (execSecureWindowPad s) := by
  unfold execSecureWindowPad
  (repeat' split) <;> simp only [ite_self, State.kept_mk, State.keepsAs_self, State.kept_ite, State.keptOut_next, State.kept_appendIndex, State.kept_appendRaw,
    State.kept_settle, h]

theorem State.kept_followCopies : r.Kept s.followCopies = r.Kept s := by
  simp only [State.followCopies, State.kept_foldl, implies_true, State.kept_modNs]

theorem kept_execStripeClose (h : r.Kept s) : r.KeptOut (execStripeClose s) := by
  unfold execStripeClose
  (repeat' split) <;> simp only [State.keptOut_next, State.kept_advanceSecured, State.kept_ckptStep, State.kept_closeFull, State.kept_followCopies, State.kept_freeEmpty,
    State.kept_issueReady, State.kept_modGroup, State.kept_retryWaiting, State.kept_setArray, State.kept_settle, h]

theorem State.kept_finishTake (c : Contract) : r.Kept (s.finishTake c) = r.Kept s := by
  simp only [State.finishTake, ite_self, State.kept_ite, State.kept_closeTakeGroups, State.kept_cutTake, State.kept_follow, State.kept_pulse, State.kept_releaseTake,
    State.kept_sealNs, State.kept_send, State.kept_setKeys, State.kept_wake]

theorem kept_execTakeClosed (h : r.Kept s) : r.KeptOut (execTakeClosed s) := by
  unfold execTakeClosed
  (repeat' split) <;> simp only [State.keptOut_next, State.kept_finishTake, h]

theorem kept_execFallowReservationUsed (h : r.Kept s) : r.KeptOut (execFallowReservationUsed s) := by
  unfold execFallowReservationUsed
  (repeat' split) <;> simp only [State.keptOut_next, State.kept_modContract, State.kept_recompute, h]

theorem kept_execMediaCapacityFull (h : r.Kept s) : r.KeptOut (execMediaCapacityFull s) := by
  unfold execMediaCapacityFull
  (repeat' split) <;> simp only [ite_self, State.keptOut_next, State.keptOut_ite, State.kept_closeExhausted, State.kept_record, State.kept_settle, h]

/-! ### Requests -/

theorem State.kept_startDrain (k : TranKind) : r.Kept (s.startDrain k) = r.Kept s := by
  simp only [State.startDrain, ite_self, State.kept_ite, State.kept_drainBuffer, State.kept_setPwr, State.kept_startCkpt]

theorem kept_execModeReqDoze (h : r.Kept s) (o : Origin) : r.KeptOut (execModeReqDoze o s) := by
  simp only [execModeReqDoze, State.kept_refl, implies_true, id_eq, State.keptOut_next, State.kept_regCmd, State.kept_request, State.kept_startDrain, h]

theorem kept_execModeReqFold (h : r.Kept s) (o : Origin) : r.KeptOut (execModeReqFold o s) := by
  simp only [execModeReqFold, State.kept_refl, implies_true, id_eq, State.keptOut_next, State.kept_regCmd, State.kept_request, State.kept_startDrain, h]

theorem kept_execDozeAfterExpiry (h : r.Kept s) : r.KeptOut (execDozeAfterExpiry s) :=
  State.keptOut_of_ite h (State.kept_request (s := { s with time := max s.time (s.pwr.idleSince + s.get R.PWR.DOZE_AFTER_S * 1000000000) }) h _
    fun t => (State.kept_startDrain ..).mpr t.kept_refl)

theorem kept_execEnter (h : r.Kept s) (o : Origin) : r.KeptOut (execEnter o s) :=
  State.kept_regCmd h _ _ _ _ _ _ (fun t => t.kept_refl) fun t => State.kept_request t.kept_refl _ fun u =>
    (State.kept_settle ..).mpr (State.kept_enterSafe ((State.kept_setOutcome ..).mpr u.kept_refl) _)

theorem State.kept_leaveSafe : r.Kept s.leaveSafe = r.Kept s := by
  simp only [State.leaveSafe, ite_self, State.kept_ite, State.kept_follow, State.kept_pulse, State.kept_put, State.kept_puts, State.kept_setMode, State.kept_setOutcome]

theorem kept_execExit (h : r.Kept s) (o : Origin) : r.KeptOut (execExit o s) :=
  State.kept_regCmd h _ _ _ _ _ _ (fun t => t.kept_refl) fun t => State.kept_request t.kept_refl _ fun u => by
    dsimp only
    split
    · exact (State.kept_charge ..).mpr u.kept_refl
    · exact (State.kept_leaveSafe ..).mpr u.kept_refl

/-! ### DOZE -/

theorem State.kept_startDozeExit : r.Kept s.startDozeExit = r.Kept s := by
  simp only [State.startDozeExit, ite_self, State.kept_ite, State.kept_clocksOn, State.kept_put, State.kept_setPwr]

theorem State.kept_dozeEntered : r.Kept s.dozeEntered = r.Kept s := by
  simp only [State.dozeEntered, ite_self, State.kept_ite, State.kept_setMode, State.kept_setOutcome, State.kept_setPwr, State.kept_startDozeExit]

theorem kept_execDozeDrainDone (h : r.Kept s) : r.KeptOut (execDozeDrainDone s) := by
  unfold execDozeDrainDone
  (repeat' split) <;> simp only [ite_self, State.kept_ite, State.keptOut_next, State.keptOut_ite, State.kept_dozeEntered, State.kept_enterFold, State.kept_quiesce,
    State.kept_setOutcome, State.kept_setPwr, State.kept_startCkpt, State.kept_warmReset, h]

theorem State.kept_stepsDone (x : Tran) : r.Kept (s.stepsDone x) = r.Kept s := by
  unfold State.stepsDone
  (repeat' split) <;> simp only [State.kept_clocksOn, State.kept_dozeEntered, State.kept_setPwr]

theorem State.kept_slotFault (n : Nat) (b : Bool) : r.Kept (s.slotFault n b) = r.Kept s := by simp only [State.slotFault, State.kept_put]

theorem kept_execVregStepAck (h : r.Kept s) (slot : Fin 8) : r.KeptOut (execVregStepAck slot s) := by
  unfold execVregStepAck
  (repeat' split) <;> simp only [ite_self, State.keptOut_next, State.keptOut_ite, State.kept_setPwr, State.kept_slotFault, State.kept_stepsDone, h]

/-! ### Steps that fail -/

theorem State.kept_slotFailed (n : Nat) : r.Kept (s.slotFailed n) = r.Kept s := by
  simp only [State.slotFailed, State.kept_pulse, State.kept_record, State.kept_slotFault]

theorem State.kept_tranFailed (h : r.Kept s) (x : Tran) (n : Nat) : r.Kept (s.tranFailed x n) := by
  simp only [State.tranFailed, ite_self, State.kept_ite, State.kept_charge, State.kept_enterFold, State.kept_setPwr, State.kept_slotFailed, State.kept_stepsDone, h]

theorem kept_execVregStepTimeout (h : r.Kept s) (slot : Fin 8) : r.KeptOut (execVregStepTimeout slot s) := by
  unfold execVregStepTimeout
  (repeat' split) <;> simp only [ite_self, State.keptOut_next, State.keptOut_ite, State.kept_bump, State.kept_setPwr, State.kept_slotFailed, State.kept_tranFailed, h]

theorem kept_execDozeExitRetry (h : r.Kept s) : r.KeptOut (execDozeExitRetry s) := by
  unfold execDozeExitRetry
  (repeat' split) <;> simp only [State.kept_mk, State.keepsAs_self, State.keptOut_next, State.kept_setPwr, h]

/-! ### Waking -/

theorem State.kept_tryWake (h : r.Kept s) : r.Kept s.tryWake := by simp only [State.tryWake, ite_self, State.kept_ite, State.kept_coldReset, h]

theorem State.kept_wakeUp (h : r.Kept s) (src : Nat) : r.Kept (s.wakeUp src) := by
  unfold State.wakeUp
  (repeat' split) <;> simp only [State.kept_charge, State.kept_setPwr, State.kept_startDozeExit, State.kept_tryWake, h]

theorem kept_execWakeSource (h : r.Kept s) (src : Fin 6) : r.KeptOut (execWakeSource src s) := by
  simp only [execWakeSource, ite_self, State.kept_ite, State.keptOut_next, State.kept_setPwr, State.kept_wakeUp, h]

theorem State.kept_recheck (h : r.Kept s) (c : Nat) (r' : Option (Option Nat)) : r.Kept (s.recheck c r') := by
  unfold State.recheck
  (repeat' split) <;> simp only [State.kept_setNand, State.kept_trainFail, State.kept_trained, h]

theorem kept_execDozeRetrainDone (h : r.Kept s) (bad : List (Nat × Option Nat)) : r.KeptOut (execDozeRetrainDone bad s) := by
  unfold execDozeRetrainDone
  split
  next => exact h
  next =>
    refine State.keptOut_of_ite h ?_
    extract_lets t1 t2 t3 t4
    have h2 : r.Kept t2 := State.kept_unquiesce (State.kept_foldl_of h fun t c => State.kept_recheck t.kept_refl ..)
    have h4 : r.Kept t4 := by
      simp only [t4, t3, State.kept_setPwr, State.kept_foldl, State.kept_ite, State.kept_trainAgain, implies_true, ite_self, h2]
    simp only [State.keptOut_next, State.kept_follow, State.kept_settle, State.kept_ite, State.kept_setMode, ite_self, h4]

theorem kept_execFoldResidenceEnd (h : r.Kept s) : r.KeptOut (execFoldResidenceEnd s) := by
  simp only [execFoldResidenceEnd, ite_self, State.kept_mk, State.keepsAs_self, State.keptOut_next, State.keptOut_ite, State.kept_setPwr, State.kept_tryWake, h]

theorem kept_execRailsOffEnd (h : r.Kept s) : r.KeptOut (execRailsOffEnd s) :=
  State.keptOut_of_ite h ((State.kept_record ..).mpr (State.kept_coldReset (s := { s with time := max s.time (s.pwr.modeSince + 100000000) }) h 6))

/-! ### Resets -/

theorem kept_execKick (h : r.Kept s) (o : Origin) : r.KeptOut (execKick o s) := by
  simp only [execKick, ite_self, State.kept_ite, State.kept_refl, implies_true, id_eq, State.keptOut_next, State.kept_regCmd, State.kept_setPwr, h]

theorem kept_execPwrWatchdog (h : r.Kept s) : r.KeptOut (execPwrWatchdog s) :=
  State.keptOut_of_ite h ((State.kept_record ..).mpr (State.kept_warmReset (s := { s with time := max s.time (s.pwr.kickAt + 1000000000) }) h ..))

theorem kept_execWarm (h : r.Kept s) (o : Origin) : r.KeptOut (execWarm o s) := by
  simp only [execWarm, State.kept_refl, implies_true, id_eq, State.keptOut_next, State.kept_regCmd, State.kept_request, State.kept_startDrain, h]

theorem kept_execColdReset (h : r.Kept s) (cause : BitVec 4) : r.KeptOut (execColdReset cause s) := by
  simp only [execColdReset, ite_self, State.keptOut_next, State.keptOut_ite, State.kept_coldReset, kept_execRailsOffEnd, h]

theorem kept_execClkLockLost (h : r.Kept s) : r.KeptOut (execClkLockLost s) := by
  simp only [execClkLockLost, ite_self, State.keptOut_next, State.keptOut_ite, State.kept_alarm, State.kept_bump, State.kept_pulse, State.kept_record, State.kept_warmReset, h]

/-! ### Regulators -/

theorem State.kept_slotReading (r' : VregReading) : r.Kept (s.slotReading r') = r.Kept s := by
  simp only [State.slotReading, ite_self, State.kept_ite, State.kept_bump, State.kept_pulse, State.kept_put, State.kept_puts, State.kept_record, State.kept_setPwr]

theorem kept_execVregTelemetryPoll (h : r.Kept s) (rs : List VregReading) : r.KeptOut (execVregTelemetryPoll rs s) := by
  simp only [execVregTelemetryPoll, ite_self, State.kept_foldl_of, State.kept_refl, implies_true, State.keptOut_next, State.keptOut_ite, State.kept_slotReading, h]

theorem kept_execPmbAlert (h : r.Kept s) (status : List (BitVec 16)) : r.KeptOut (execPmbAlert status s) := by
  simp only [execPmbAlert, ite_self, State.kept_foldl_of, State.kept_ite, State.kept_refl, implies_true, State.keptOut_next, State.keptOut_ite, State.kept_pulse,
    State.kept_record, h]

theorem State.kept_takeSetPoint (n v : Nat) : r.Kept (s.takeSetPoint n v) = r.Kept s := by
  simp only [State.takeSetPoint, ite_self, State.kept_ite, State.kept_put, State.kept_setPwr]

theorem kept_execSetMv (h : r.Kept s) (o : Origin) (slot : Fin 8) (mv : BitVec 16) : r.KeptOut (execSetMv o slot mv s) := by
  simp only [execSetMv, State.kept_refl, implies_true, State.keptOut_next, State.kept_refuseBlock, State.kept_regCmd, State.kept_takeSetPoint, h]

/-! ### RTC -/

theorem kept_execRtcAlarmFire (h : r.Kept s) (k : Fin 4) : r.KeptOut (execRtcAlarmFire k s) := by
  simp only [execRtcAlarmFire, ite_self, State.kept_mk, State.keepsAs_self, State.kept_ite, State.keptOut_next, State.keptOut_ite, State.kept_pulse, State.kept_put,
    State.kept_wakeUp, h]

theorem kept_execRtcOscFail (h : r.Kept s) : r.KeptOut (execRtcOscFail s) := by
  simp only [execRtcOscFail, ite_self, State.keptOut_next, State.keptOut_ite, State.kept_pulse, State.kept_puts, State.kept_rebaseRtc, State.kept_record, h]

theorem State.kept_loadRtc : r.Kept s.loadRtc = r.Kept s := by simp only [State.loadRtc, State.kept_mk, State.keepsAs_self, State.kept_put]

theorem kept_execRtcLoad (h : r.Kept s) (o : Origin) : r.KeptOut (execRtcLoad o s) := by
  simp only [execRtcLoad, State.kept_refl, implies_true, id_eq, State.keptOut_next, State.kept_loadRtc, State.kept_regCmd, h]

/-! ### Temperature -/

theorem State.kept_countThrottle (cur new : Nat) : r.Kept (s.countThrottle cur new) = r.Kept s := by
  unfold State.countThrottle
  (repeat' split) <;> simp only [State.kept_bump, State.kept_setPwr]

theorem State.kept_thermalAlarm (h : r.Kept s) (bit : Nat) (out : Bool) : r.Kept (s.thermalAlarm bit out) := by
  simp only [State.thermalAlarm, ite_self, State.kept_ite, State.kept_alarm, State.kept_setKeys, h]

theorem State.kept_endPhase1 : r.Kept s.endPhase1 = r.Kept s := by
  simp only [State.endPhase1, ite_self, State.kept_ite, State.kept_foldl, implies_true, State.kept_put, State.kept_puts, State.kept_setPwr]

theorem State.kept_tryPhase2 : r.Kept s.tryPhase2 = r.Kept s := by simp only [State.tryPhase2, ite_self, State.kept_ite, State.kept_endPhase1]

theorem kept_execThermalSample (h : r.Kept s) (tjq : Int) (sensor : BitVec 4) : r.KeptOut (execThermalSample tjq sensor s) := by
  unfold execThermalSample
  refine State.keptOut_of_ite h ?_
  extract_lets cur new peak t1 t2 t3 t4 t5 t6
  have h5 : r.Kept t5 := by
    simp only [t5, t4, t3, t2, t1, State.kept_ite, State.kept_record, State.kept_pulse, State.kept_countThrottle, State.kept_setPwr, State.kept_puts,
      ite_self, h]
  have h6 : r.Kept t6 :=
    .ite (State.kept_eachCore h5 fun t c => .ite (State.kept_parkCore t.kept_refl ..) t.kept_refl)
      (.ite (State.kept_eachCore h5 fun t c => (State.kept_resumeCore ..).mpr t.kept_refl) h5)
  exact (State.kept_tryPhase2 ..).mpr (State.kept_thermalAlarm (State.kept_thermalAlarm h6 ..) ..)

/-! ### The power-failure sequence -/

theorem State.kept_lastPhases (h : r.Kept s) : r.Kept s.lastPhases := by
  simp only [State.lastPhases, ite_self, State.kept_ite, State.kept_drainBuffer, State.kept_enterFold, State.kept_setPwr, State.kept_setTake, State.kept_startCkpt, h]

theorem kept_execCheckpointDone (h : r.Kept s) : r.KeptOut (execCheckpointDone s) := by
  unfold execCheckpointDone
  split
  next e => exact Eq.mpr (State.kept_snd e (State.kept_ckptReady ..)) h
  next c t e =>
    have ht : r.Kept (t.takeCkpt c) := (State.kept_takeCkpt ..).mpr (Eq.mpr (State.kept_snd e (State.kept_ckptReady ..)) h)
    split
    · exact State.kept_enterFold ((State.kept_setPwr ..).mpr ht) ..
    · exact ht

theorem kept_execDevThermalShutdown (h : r.Kept s) : r.KeptOut (execDevThermalShutdown s) := by
  unfold execDevThermalShutdown
  (repeat' split) <;> simp only [ite_self, State.kept_mk, State.keepsAs_self, State.kept_ite, State.keptOut_next, State.kept_lastPhases, State.kept_pulse, State.kept_put,
    State.kept_record, State.kept_setPwr, State.kept_setTake, State.kept_thermalAlarm, h]

theorem State.kept_powerFailure (h : r.Kept s) : r.Kept s.powerFailure := by
  simp only [State.powerFailure, ite_self, State.kept_ite, State.kept_endPerturb, State.kept_hold, State.kept_lastPhases, State.kept_pulse, State.kept_put, State.kept_setPwr,
    State.kept_setTake, State.kept_settleTriggers, State.kept_takeErr, h]

theorem kept_execPwrFailN (h : r.Kept s) (lowNs : Nat) : r.KeptOut (execPwrFailN lowNs s) := by
  simp only [execPwrFailN, ite_self, State.keptOut_next, State.keptOut_ite, State.kept_enterFold, State.kept_follow, State.kept_powerFailure, State.kept_setPwr, h]

theorem kept_execPowerfailDrainEnd (h : r.Kept s) : r.KeptOut (execPowerfailDrainEnd s) := by
  simp only [execPowerfailDrainEnd, ite_self, State.keptOut_next, State.keptOut_ite, State.kept_endOpenFrames, State.kept_setTake, h]

theorem kept_execPowerfailFlushDone (h : r.Kept s) : r.KeptOut (execPowerfailFlushDone s) := by
  unfold execPowerfailFlushDone
  (repeat' split) <;> simp only [ite_self, State.keptOut_next, State.keptOut_ite, State.kept_placeTrailer, State.kept_sealAll, State.kept_setTake, h]

theorem kept_execPowerfailCloseDone (h : r.Kept s) : r.KeptOut (execPowerfailCloseDone s) := by
  unfold execPowerfailCloseDone
  (repeat' split) <;> simp only [State.keptOut_next, State.kept_finishTake, State.kept_follow, State.kept_lastPhases, State.kept_put, h]

theorem kept_execPowerCut (h : r.Kept s) : r.KeptOut (execPowerCut s) := by
  simp only [execPowerCut, ite_self, State.kept_ite, State.keptOut_next, State.kept_lose, State.kept_puts, State.kept_setPwr, h]

theorem kept_execServeActivityExpiry (h : r.Kept s) : r.KeptOut (execServeActivityExpiry s) := by
  unfold execServeActivityExpiry
  (repeat' split) <;> simp only [State.kept_mk, State.keepsAs_self, State.keptOut_next, State.kept_follow, h]

/-! ### Records -/

theorem State.kept_unmapRange (nsid lo hi : Nat) : r.Kept (s.unmapRange nsid lo hi) = r.Kept s := by simp only [State.unmapRange, State.kept_setImage]

theorem State.kept_zeroUnits (nsid lo n seq : Nat) : r.Kept (s.zeroUnits nsid lo n seq) = r.Kept s := by
  simp only [State.zeroUnits, State.kept_setImage]

theorem State.kept_mapExtent (r' : JRec) : r.Kept (s.mapExtent r') = r.Kept s := by
  unfold State.mapExtent
  (repeat' split) <;> simp only [State.kept_foldl, implies_true, State.kept_mapUnit]

theorem State.kept_replayRelease (r' : JRec) : r.Kept (s.replayRelease r') = r.Kept s := by
  simp only [State.replayRelease, State.kept_modNs, State.kept_unmapRange]

theorem State.kept_applyMap (r' : JRec) : r.Kept (s.applyMap r') = r.Kept s := by
  unfold State.applyMap
  (repeat' split) <;> simp only [State.kept_mapExtent, State.kept_mapUnit, State.kept_replayRelease, State.kept_setImage, State.kept_unmapRange, State.kept_zeroUnits]

theorem State.kept_applyRec (r' : JRec) : r.Kept (s.applyRec r') = r.Kept s := by
  simp only [State.applyRec, ite_self, State.kept_ite, State.kept_applyMap, State.kept_bump, State.kept_puts]

/-! ### The scan -/

theorem State.kept_mapFound (l : List OwedRec) : r.Kept (s.mapFound l) = r.Kept s := by
  simp only [State.mapFound, State.kept_foldl, implies_true, State.kept_mapUnit]

theorem State.kept_markLogged (seqJ : Nat) : r.Kept (s.markLogged seqJ) = r.Kept s := by simp only [State.markLogged, State.kept_setImage]

/-! ### A map page that DRAM has lost -/

theorem State.kept_reloadPage (p : Nat) : r.Kept (s.reloadPage p) = r.Kept s := by
  simp only [State.reloadPage, State.kept_residePage, State.kept_setImage, State.kept_setMedia]

theorem State.kept_resumeReads (h : r.Kept s) (p : Nat) : r.Kept (s.resumeReads p) := by simp only [State.resumeReads, State.kept_resumeReading, h]

theorem kept_execMapPageReload (h : r.Kept s) (page : Nat) : r.KeptOut (execMapPageReload page s) := by
  simp only [execMapPageReload, ite_self, State.keptOut_next, State.keptOut_ite, State.kept_mediaErr, State.kept_reloadPage, State.kept_resumeReads, h]

/-! ### The boot -/

theorem kept_execPllLocked (h : r.Kept s) (hz : BitVec 32) : r.KeptOut (execPllLocked hz s) := by
  simp only [execPllLocked, ite_self, State.keptOut_next, State.keptOut_ite, State.kept_badGens, State.kept_puts, State.kept_setPwr, State.kept_tryPhase2, h]

/-! ### Training -/

theorem State.kept_dramResult (r' : DramTraining) (c : Nat) : r.Kept (State.dramResult r' s c) = r.Kept s := by
  simp only [State.dramResult, ite_self, State.kept_ite, State.kept_foldl, implies_true, State.kept_dramUp, State.kept_pulse, State.kept_puts, State.kept_record]

theorem State.kept_loadConfig : r.Kept s.loadConfig = r.Kept s := by simp only [State.loadConfig, State.kept_puts, State.kept_unput]

theorem State.kept_keepConfig : r.Kept s.keepConfig = r.Kept s := by simp only [State.keepConfig, State.kept_setPwr]

theorem State.kept_holdBoot : r.Kept s.holdBoot = r.Kept s := by simp only [State.holdBoot, State.kept_record, State.kept_setPwr]

theorem kept_execBootTrainingDone (h : r.Kept s) (r' : DramTraining) : r.KeptOut (execBootTrainingDone r' s) := by
  simp only [execBootTrainingDone, ite_self, State.kept_foldl_of, State.kept_ite, State.kept_refl, implies_true, State.keptOut_next, State.keptOut_ite, State.kept_dramResult,
    State.kept_enterSafe, State.kept_holdBoot, State.kept_loadConfig, State.kept_poolDram, State.kept_record, State.kept_setPwr, State.kept_showDram, h]

/-! ### The boot image -/

theorem State.kept_acceptImage (h : r.Kept s) (img : Bytes) (src copy : Nat) : r.Kept (s.acceptImage img src copy) := by
  simp only [State.acceptImage, ite_self, State.kept_foldl_of, State.kept_ite, State.kept_refl, implies_true, State.kept_newMonitor, State.kept_puts, State.kept_setFw,
    State.kept_setPwr, State.kept_startSystem, State.kept_toCommon, h]

theorem kept_execBootImageCheck (h : r.Kept s) (img : Bytes) (va vb : BitVec 8) : r.KeptOut (execBootImageCheck img va vb s) := by
  unfold execBootImageCheck
  (repeat' split) <;> simp only [ite_self, State.keptOut_next, State.keptOut_ite, State.kept_acceptImage, State.kept_countBoot, State.kept_holdBoot, State.kept_record,
    State.kept_setPwr, State.kept_verifyImage, h]

theorem kept_execGo (h : r.Kept s) (o : Origin) : r.KeptOut (execGo o s) := by
  simp only [execGo, ite_self, State.kept_ite, State.kept_refl, implies_true, id_eq, State.keptOut_next, State.kept_acceptImage, State.kept_countBoot, State.kept_put,
    State.kept_regCmd, State.kept_verifyImage, h]

/-! ### Self-tests and tables -/

theorem State.kept_retirePipes (bad : Nat) : r.Kept (s.retirePipes bad) = r.Kept s := by
  simp only [State.retirePipes, ite_self, State.kept_ite, State.kept_foldl, implies_true, State.kept_pulse, State.kept_put, State.kept_record]

theorem State.kept_retireUnits (bad : Nat) : r.Kept (s.retireUnits bad) = r.Kept s := by
  simp only [State.retireUnits, ite_self, State.kept_ite, State.kept_foldl, implies_true, State.kept_pulse, State.kept_put, State.kept_record]

theorem kept_execBootSelfTestDone (h : r.Kept s) (pipes : BitVec 6) (units : BitVec 64) : r.KeptOut (execBootSelfTestDone pipes units s) := by
  simp only [execBootSelfTestDone, ite_self, State.kept_ite, State.keptOut_next, State.keptOut_ite, State.kept_derive, State.kept_enterSafe, State.kept_retirePipes,
    State.kept_retireUnits, State.kept_setPwr, h]

theorem kept_execBootTablesDone (h : r.Kept s) : r.KeptOut (execBootTablesDone s) := by
  refine State.keptOut_of_ite h ?_
  dsimp only
  rw [State.keptOut_next, State.kept_portFnsBack, State.kept_setPwr, State.kept_formIndex, State.kept_foldl fun t i => ?_]
  · exact h
  · split
    · exact State.kept_writeCluster ..
    · rfl

/-! ### The map -/

theorem State.kept_loadReshape : r.Kept s.loadReshape = r.Kept s := by
  unfold State.loadReshape
  (repeat' split) <;> simp only [State.kept_put, State.kept_setArray]

theorem State.kept_loadGroups (c : Ckpt) : r.Kept (s.loadGroups c) = r.Kept s := by
  simp only [State.loadGroups, State.kept_put, State.kept_puts, State.kept_setImage]

theorem State.kept_loadMap (c : Ckpt) (scan : Bool) : r.Kept (s.loadMap c scan) = r.Kept s := by
  simp only [State.loadMap, ite_self, State.kept_ite, State.kept_foldl, implies_true, State.kept_applyRec, State.kept_freeEmpty, State.kept_loadGroups, State.kept_loadReshape,
    State.kept_mapFound, State.kept_markLogged, State.kept_mediaErr, State.kept_pulse, State.kept_put, State.kept_puts, State.kept_record, State.kept_recsDurable,
    State.kept_setArray, State.kept_setMedia]

theorem State.kept_bootPatrol : r.Kept s.bootPatrol = r.Kept s := by simp only [State.bootPatrol, State.kept_setMedia]

theorem State.kept_restoreRing (c : Ckpt) : r.Kept (s.restoreRing c) = r.Kept s := by simp only [State.restoreRing, State.kept_setFault]

theorem State.kept_restoreLost (c : Ckpt) : r.Kept (s.restoreLost c) = r.Kept s := by
  simp only [State.restoreLost, State.kept_puts, State.kept_setArray]

theorem State.kept_restoreSafe (c : Ckpt) : r.Kept (s.restoreSafe c) = r.Kept s := by
  simp only [State.restoreSafe, ite_self, State.kept_ite, State.kept_put, State.kept_puts]

theorem State.kept_firstFormat : r.Kept s.firstFormat = r.Kept s := by
  simp only [State.firstFormat, ite_self, State.kept_ite, State.kept_format, State.kept_installCkpt, State.kept_setMedia]

theorem kept_execBootMapLoaded (h : r.Kept s) : r.KeptOut (execBootMapLoaded s) := by
  unfold execBootMapLoaded
  dsimp only
  (repeat' split) <;> simp only [State.keptOut_next, State.kept_bootPatrol, State.kept_chargeSpares, State.kept_checkSpares, State.kept_firstFormat, State.kept_loadMap,
    State.kept_pageMap, State.kept_resizeSlc, State.kept_restoreLost, State.kept_restoreRing, State.kept_restoreSafe, State.kept_setPwr, State.kept_showPool, h]

/-! ### Recovery -/

theorem State.kept_oweStripe (x : Nat × Nat) : r.Kept (s.oweStripe x) = r.Kept s := by simp only [State.oweStripe, State.kept_modGroup]

theorem State.kept_closeAtStop : r.Kept s.closeAtStop = r.Kept s := by
  simp only [State.closeAtStop, ite_self, State.kept_ite, State.kept_foldl, implies_true, State.kept_closeGroup, State.kept_logReady, State.kept_voidUnissued]

theorem State.kept_startResync (c : Nat × List (Nat × Nat) × List (Nat × Nat)) : r.Kept (s.startResync c) = r.Kept s := by
  simp only [State.startResync, ite_self, State.kept_ite, State.kept_foldl, implies_true, State.kept_closeAtStop, State.kept_oweStripe, State.kept_put, State.kept_record,
    State.kept_setArray]

theorem State.kept_cutMaps : r.Kept s.cutMaps = r.Kept s := by simp only [State.cutMaps, State.kept_foldl, implies_true, State.kept_setImage]

theorem State.kept_holdupShort : r.Kept s.holdupShort = r.Kept s := by
  unfold State.holdupShort
  (repeat' split) <;> simp only [State.kept_record]

theorem kept_execBootRecoveryDone (h : r.Kept s) : r.KeptOut (execBootRecoveryDone s) := by
  simp only [execBootRecoveryDone, ite_self, State.kept_ite, State.keptOut_next, State.keptOut_ite, State.kept_closeHit, State.kept_cutMaps, State.kept_followChannels,
    State.kept_holdupShort, State.kept_loseDies, State.kept_owedTrails, State.kept_setPwr, State.kept_startResync, h]

/-! ### The frame index at READY -/

theorem State.kept_bootSpans : r.Kept (State.bootSpans s) = r.Kept s :=
  State.kept_of_forget (State.forget_bootSpans (T := 0xFFFFFFFFFFBFF7FE) rfl ..)

/-! ### READY -/

theorem State.kept_safeAtReady : r.Kept s.safeAtReady = r.Kept s := by simp only [State.safeAtReady, State.kept_put]

theorem kept_execBootReady (h : r.Kept s) : r.KeptOut (execBootReady s) := by
  simp only [execBootReady, ite_self, State.keptOut_next, State.keptOut_ite, State.kept_bootSpans, State.kept_pulse, State.kept_put, State.kept_record, State.kept_safeAtReady,
    State.kept_setGate, State.kept_setMode, State.kept_setPwr, h]

/-! ### The integer and lane operations of the operate class -/

theorem kept_execAdd (h : r.Kept s) (c : Fin 72) (m : OpMod) : r.KeptOut (execAdd c m s) := by
  simp only [execAdd, State.keptOut_next, State.kept_insn, keeps_guardMod, keeps_binary, h]

theorem kept_execSub (h : r.Kept s) (c : Fin 72) (m : OpMod) : r.KeptOut (execSub c m s) := by
  simp only [execSub, State.keptOut_next, State.kept_insn, keeps_guardMod, keeps_binary, h]

theorem kept_execMul (h : r.Kept s) (c : Fin 72) (m : OpMod) : r.KeptOut (execMul c m s) := by
  simp only [execMul, State.keptOut_next, State.kept_insn, keeps_guardMod, keeps_binary, h]

theorem kept_execMulh (h : r.Kept s) (c : Fin 72) (m : OpMod) : r.KeptOut (execMulh c m s) := by
  simp only [execMulh, State.keptOut_next, State.kept_insn, keeps_guardMod, keeps_binary, h]

theorem kept_execDiv (h : r.Kept s) (c : Fin 72) (m : OpMod) : r.KeptOut (execDiv c m s) := by
  simp only [execDiv, State.keptOut_next, State.kept_insn, keeps_guardMod, keeps_division, h]

theorem kept_execMod (h : r.Kept s) (c : Fin 72) (m : OpMod) : r.KeptOut (execMod c m s) := by
  simp only [execMod, State.keptOut_next, State.kept_insn, keeps_guardMod, keeps_division, h]

theorem kept_execNeg (h : r.Kept s) (c : Fin 72) (m : OpMod) : r.KeptOut (execNeg c m s) := by
  simp only [execNeg, State.keptOut_next, State.kept_insn, keeps_guardMod, keeps_unary, h]

theorem kept_execAbs (h : r.Kept s) (c : Fin 72) (m : OpMod) : r.KeptOut (execAbs c m s) := by
  simp only [execAbs, State.keptOut_next, State.kept_insn, keeps_guardMod, keeps_unary, h]

theorem kept_execMin (h : r.Kept s) (c : Fin 72) (m : OpMod) : r.KeptOut (execMin c m s) := by
  simp only [execMin, State.keptOut_next, State.kept_insn, keeps_guardMod, keeps_binary, h]

theorem kept_execMax (h : r.Kept s) (c : Fin 72) (m : OpMod) : r.KeptOut (execMax c m s) := by
  simp only [execMax, State.keptOut_next, State.kept_insn, keeps_guardMod, keeps_binary, h]

theorem kept_execCmpeq (h : r.Kept s) (c : Fin 72) (m : OpMod) : r.KeptOut (execCmpeq c m s) := by
  simp only [execCmpeq, State.keptOut_next, State.kept_insn, keeps_guardMod, keeps_binary, h]

theorem kept_execCmplt (h : r.Kept s) (c : Fin 72) (m : OpMod) : r.KeptOut (execCmplt c m s) := by
  simp only [execCmplt, State.keptOut_next, State.kept_insn, keeps_guardMod, keeps_binary, h]

theorem kept_execCmpltu (h : r.Kept s) (c : Fin 72) (m : OpMod) : r.KeptOut (execCmpltu c m s) := by
  simp only [execCmpltu, State.keptOut_next, State.kept_insn, keeps_guardMod, keeps_binary, h]

theorem kept_execAnd (h : r.Kept s) (c : Fin 72) (m : OpMod) : r.KeptOut (execAnd c m s) := by
  simp only [execAnd, State.keptOut_next, State.kept_insn, keeps_guardMod, keeps_binary, h]

theorem kept_execOr (h : r.Kept s) (c : Fin 72) (m : OpMod) : r.KeptOut (execOr c m s) := by
  simp only [execOr, State.keptOut_next, State.kept_insn, keeps_guardMod, keeps_binary, h]

theorem kept_execXor (h : r.Kept s) (c : Fin 72) (m : OpMod) : r.KeptOut (execXor c m s) := by
  simp only [execXor, State.keptOut_next, State.kept_insn, keeps_guardMod, keeps_binary, h]

theorem kept_execNot (h : r.Kept s) (c : Fin 72) (m : OpMod) : r.KeptOut (execNot c m s) := by
  simp only [execNot, State.keptOut_next, State.kept_insn, keeps_guardMod, keeps_unary, h]

theorem kept_execShl (h : r.Kept s) (c : Fin 72) (m : OpMod) : r.KeptOut (execShl c m s) := by
  simp only [execShl, State.keptOut_next, State.kept_insn, keeps_guardMod, keeps_binary, h]

theorem kept_execShr (h : r.Kept s) (c : Fin 72) (m : OpMod) : r.KeptOut (execShr c m s) := by
  simp only [execShr, State.keptOut_next, State.kept_insn, keeps_guardMod, keeps_binary, h]

theorem kept_execSar (h : r.Kept s) (c : Fin 72) (m : OpMod) : r.KeptOut (execSar c m s) := by
  simp only [execSar, State.keptOut_next, State.kept_insn, keeps_guardMod, keeps_binary, h]

theorem kept_execRol (h : r.Kept s) (c : Fin 72) (m : OpMod) : r.KeptOut (execRol c m s) := by
  simp only [execRol, State.keptOut_next, State.kept_insn, keeps_guardMod, keeps_binary, h]

theorem kept_execPopc (h : r.Kept s) (c : Fin 72) (m : OpMod) : r.KeptOut (execPopc c m s) := by
  simp only [execPopc, State.keptOut_next, State.kept_insn, keeps_guardMod, keeps_unary, h]

theorem kept_execClz (h : r.Kept s) (c : Fin 72) (m : OpMod) : r.KeptOut (execClz c m s) := by
  simp only [execClz, State.keptOut_next, State.kept_insn, keeps_guardMod, keeps_unary, h]

theorem kept_execCtz (h : r.Kept s) (c : Fin 72) (m : OpMod) : r.KeptOut (execCtz c m s) := by
  simp only [execCtz, State.keptOut_next, State.kept_insn, keeps_guardMod, keeps_unary, h]

theorem kept_execSplat (h : r.Kept s) (c : Fin 72) (m : OpMod) : r.KeptOut (execSplat c m s) := by
  simp only [execSplat, State.keptOut_next, State.kept_insn, keeps_guardMod, keeps_unary, h]

theorem kept_execExt (h : r.Kept s) (c : Fin 72) (m : OpMod) : r.KeptOut (execExt c m s) :=
  State.kept_insn h c 1 1 (keeps_guardMod fun _ _ hx => State.keptCtx_bind (Ctx.kept_needD hx ..) fun _ hy => State.keptCtx_ite trivial hy)

theorem kept_execIns (h : r.Kept s) (c : Fin 72) (m : OpMod) : r.KeptOut (execIns c m s) :=
  State.kept_insn h c 1 1 (keeps_guardMod fun _ _ hx => State.keptCtx_bind (Ctx.kept_needD hx ..) fun _ hy => State.keptCtx_ite trivial hy)

end Sys2Proof.Machine
end

section
/-!
What each of the model's functions keeps (`State.Kept`), in the model's order: the Crook instructions, the Drove links and packets, Earmark jobs, the
Gate link, Shears lanes, triggers, and the registers that command a block.
-/

namespace Sys2Proof.Machine

open Sys2Proof.Laws

variable {r s : State} {x : Ctx}

/-! ### Direct and indirect bit operations -/

theorem kept_execBtst (h : r.Kept s) (c : Fin 72) (a : BitVec 10) : r.KeptOut (execBtst c a s) :=
  State.kept_insn h c 1 1 fun _ _ hx => State.keptCtx_bind (Ctx.kept_needD hx ..) fun _ hy => State.keptCtx_bind (Ctx.kept_meetBit hy _) fun _ hz => hz

theorem Ctx.kept_changeBit (h : r.Kept x.s) (p : BitPlace) (b : Bool) : r.KeptCtx (x.changeBit p b) := by
  unfold Ctx.changeBit
  split
  next => trivial
  next e => exact Ctx.kept_putBit (State.keptCtx_ok (Ctx.kept_meetBit h p) e) ..

theorem kept_execBset (h : r.Kept s) (c : Fin 72) (a : BitVec 10) : r.KeptOut (execBset c a s) :=
  State.kept_insn h c 1 1 fun _ _ hx => Ctx.kept_changeBit hx ..

theorem kept_execBclr (h : r.Kept s) (c : Fin 72) (a : BitVec 10) : r.KeptOut (execBclr c a s) :=
  State.kept_insn h c 1 1 fun _ _ hx => Ctx.kept_changeBit hx ..

theorem kept_execBst (h : r.Kept s) (c : Fin 72) (a : BitVec 10) : r.KeptOut (execBst c a s) :=
  State.kept_insn h c 1 1 fun _ _ hx => State.keptCtx_bind (Ctx.kept_needD hx ..) fun y hy => Ctx.kept_changeBit (x := y.rep 1 []) hy ..

theorem kept_execBtsti (h : r.Kept s) (c : Fin 72) (m : OpMod) : r.KeptOut (execBtsti c m s) := by
  simp only [execBtsti, State.keptOut_next, State.kept_insn, keeps_bitIndirect, h]

theorem kept_execBseti (h : r.Kept s) (c : Fin 72) (m : OpMod) : r.KeptOut (execBseti c m s) := by
  simp only [execBseti, State.keptOut_next, State.kept_insn, keeps_bitIndirect, h]

theorem kept_execBclri (h : r.Kept s) (c : Fin 72) (m : OpMod) : r.KeptOut (execBclri c m s) := by
  simp only [execBclri, State.keptOut_next, State.kept_insn, keeps_bitIndirect, h]

theorem kept_execBsti (h : r.Kept s) (c : Fin 72) (m : OpMod) : r.KeptOut (execBsti c m s) := by
  simp only [execBsti, State.keptOut_next, State.kept_insn, keeps_bitIndirect, h]

theorem kept_execBtas (h : r.Kept s) (c : Fin 72) (m : OpMod) : r.KeptOut (execBtas c m s) := by
  simp only [execBtas, State.keptOut_next, State.kept_insn, keeps_bitIndirect, h]

theorem kept_execPoll (h : r.Kept s) (c : Fin 72) : r.KeptOut (execPoll c s) := by
  refine State.kept_insn h c 1 2 fun r x hx => State.keptCtx_bind (Ctx.kept_needD hx ..) fun y hy => ?_
  split
  next => trivial
  next => exact State.keptCtx_bind (Ctx.kept_meetBit hy _) fun _ hz => hz

/-! ### The instruction at the PC -/

theorem kept_execIllegalEncoding (h : r.Kept s) (b : BadParcel) : r.KeptOut (execIllegalEncoding b s) :=
  State.Kept.ite (State.kept_insn h _ _ _ fun _ _ _ => trivial) h

/-! ### Floating point on binary32 and binary16 lanes -/

theorem kept_execFadd (h : r.Kept s) (c : Fin 72) (m : OpMod) : r.KeptOut (execFadd c m s) := by
  simp only [execFadd, State.keptOut_next, State.kept_insn, keeps_guardMod, keeps_floating, h]

theorem kept_execFsub (h : r.Kept s) (c : Fin 72) (m : OpMod) : r.KeptOut (execFsub c m s) := by
  simp only [execFsub, State.keptOut_next, State.kept_insn, keeps_guardMod, keeps_floating, h]

theorem kept_execFmul (h : r.Kept s) (c : Fin 72) (m : OpMod) : r.KeptOut (execFmul c m s) := by
  simp only [execFmul, State.keptOut_next, State.kept_insn, keeps_guardMod, keeps_floating, h]

theorem kept_execFdiv (h : r.Kept s) (c : Fin 72) (m : OpMod) : r.KeptOut (execFdiv c m s) := by
  simp only [execFdiv, State.keptOut_next, State.kept_insn, keeps_guardMod, keeps_floating, h]

theorem kept_execFma (h : r.Kept s) (c : Fin 72) (m : OpMod) : r.KeptOut (execFma c m s) := by
  simp only [execFma, State.keptOut_next, State.kept_insn, keeps_guardMod, keeps_floating, h]

theorem kept_execFmin (h : r.Kept s) (c : Fin 72) (m : OpMod) : r.KeptOut (execFmin c m s) := by
  simp only [execFmin, State.keptOut_next, State.kept_insn, keeps_guardMod, keeps_floating, h]

theorem kept_execFmax (h : r.Kept s) (c : Fin 72) (m : OpMod) : r.KeptOut (execFmax c m s) := by
  simp only [execFmax, State.keptOut_next, State.kept_insn, keeps_guardMod, keeps_floating, h]

theorem kept_execFcmpeq (h : r.Kept s) (c : Fin 72) (m : OpMod) : r.KeptOut (execFcmpeq c m s) := by
  simp only [execFcmpeq, State.keptOut_next, State.kept_insn, keeps_guardMod, keeps_floating, h]

theorem kept_execFcmplt (h : r.Kept s) (c : Fin 72) (m : OpMod) : r.KeptOut (execFcmplt c m s) := by
  simp only [execFcmplt, State.keptOut_next, State.kept_insn, keeps_guardMod, keeps_floating, h]

theorem kept_execCvtF (h : r.Kept s) (c : Fin 72) (m : OpMod) : r.KeptOut (execCvtF c m s) := by
  simp only [execCvtF, State.keptOut_next, State.kept_insn, keeps_guardMod, keeps_floating, h]

theorem kept_execCvtI (h : r.Kept s) (c : Fin 72) (m : OpMod) : r.KeptOut (execCvtI c m s) := by
  simp only [execCvtI, State.keptOut_next, State.kept_insn, keeps_guardMod, keeps_floating, h]

theorem kept_execCvtW (h : r.Kept s) (c : Fin 72) (m : OpMod) : r.KeptOut (execCvtW c m s) :=
  State.kept_insn h c 1 2 (keeps_guardMod fun _ _ hx => State.keptCtx_bind (Ctx.kept_needD hx ..) fun _ hy => hy)

theorem kept_execCvtN (h : r.Kept s) (c : Fin 72) (m : OpMod) : r.KeptOut (execCvtN c m s) :=
  State.kept_insn h c 1 2 (keeps_guardMod fun _ _ hx => State.keptCtx_bind (Ctx.kept_needD hx ..) fun _ hy => hy)

/-! ### Literals -/

theorem kept_execLit (h : r.Kept s) (c : Fin 72) (v : BitVec 15) : r.KeptOut (execLit c v s) := by
  simp only [execLit, State.keptOut_next, State.kept_insn, keeps_pushWord, h]

theorem kept_execJmp (h : r.Kept s) (c : Fin 72) (d : BitVec 12) : r.KeptOut (execJmp c d s) := by
  simp only [execJmp, State.keptOut_next, State.kept_insn, keeps_jumpRel, h]

theorem kept_execJz (h : r.Kept s) (c : Fin 72) (d : BitVec 12) : r.KeptOut (execJz c d s) := by
  simp only [execJz, State.keptOut_next, State.kept_insn, keeps_branchRel, h]

theorem kept_execJnz (h : r.Kept s) (c : Fin 72) (d : BitVec 12) : r.KeptOut (execJnz c d s) := by
  simp only [execJnz, State.keptOut_next, State.kept_insn, keeps_branchRel, h]

theorem kept_execCall (h : r.Kept s) (c : Fin 72) (d : BitVec 12) : r.KeptOut (execCall c d s) := by
  simp only [execCall, State.keptOut_next, State.kept_insn, keeps_callTo, h]

theorem kept_execJmpLong (h : r.Kept s) (c : Fin 72) (d : BitVec 22) : r.KeptOut (execJmpLong c d s) := by
  simp only [execJmpLong, State.keptOut_next, State.kept_insn, keeps_jumpRel, h]

theorem kept_execJzLong (h : r.Kept s) (c : Fin 72) (d : BitVec 22) : r.KeptOut (execJzLong c d s) := by
  simp only [execJzLong, State.keptOut_next, State.kept_insn, keeps_branchRel, h]

theorem kept_execJnzLong (h : r.Kept s) (c : Fin 72) (d : BitVec 22) : r.KeptOut (execJnzLong c d s) := by
  simp only [execJnzLong, State.keptOut_next, State.kept_insn, keeps_branchRel, h]

theorem kept_execCallLong (h : r.Kept s) (c : Fin 72) (d : BitVec 22) : r.KeptOut (execCallLong c d s) := by
  simp only [execCallLong, State.keptOut_next, State.kept_insn, keeps_callTo, h]

theorem kept_execLit32 (h : r.Kept s) (c : Fin 72) (sx : Bool) (v : BitVec 32) : r.KeptOut (execLit32 c sx v s) := by
  simp only [execLit32, State.keptOut_next, State.kept_insn, keeps_pushWord, h]

theorem kept_execLit64 (h : r.Kept s) (c : Fin 72) (v : BitVec 64) : r.KeptOut (execLit64 c v s) := by
  simp only [execLit64, State.keptOut_next, State.kept_insn, keeps_pushWord, h]

theorem kept_execJmpa (h : r.Kept s) (c : Fin 72) (t : BitVec 48) : r.KeptOut (execJmpa c t s) :=
  State.kept_insn h c 4 4 fun _ _ hx => Ctx.kept_goto hx _

theorem kept_execCalla (h : r.Kept s) (c : Fin 72) (t : BitVec 48) : r.KeptOut (execCalla c t s) := by
  simp only [execCalla, State.keptOut_next, State.kept_insn, keeps_callTo, h]

theorem kept_execAddi (h : r.Kept s) (c : Fin 72) (i : BitVec 8) : r.KeptOut (execAddi c i s) := by
  simp only [execAddi, State.keptOut_next, State.kept_insn, keeps_unary, h]

theorem kept_execExecCall (h : r.Kept s) (c : Fin 72) (m : OpMod) : r.KeptOut (execExecCall c m s) :=
  State.kept_insn h c 1 3 (keeps_guardMod fun _ _ hx => State.keptCtx_bind (Ctx.kept_needD hx ..) fun _ hy =>
    State.keptCtx_bind (Ctx.kept_needR hy ..) fun _ hz => State.keptCtx_bind (Ctx.kept_goto hz _) fun _ hw => hw)

theorem kept_execRet (h : r.Kept s) (c : Fin 72) (m : OpMod) : r.KeptOut (execRet c m s) :=
  State.kept_insn h c 1 2 (keeps_guardMod fun _ _ hx => State.keptCtx_bind (Ctx.kept_needR hx ..) fun _ hy =>
    State.keptCtx_ite (State.keptCtx_bind (Ctx.kept_goto hy _) fun _ hz => hz) trivial)

theorem kept_execJmpi (h : r.Kept s) (c : Fin 72) (m : OpMod) : r.KeptOut (execJmpi c m s) :=
  State.kept_insn h c 1 3 (keeps_guardMod fun _ _ hx => State.keptCtx_bind (Ctx.kept_needD hx ..) fun _ hy =>
    State.keptCtx_bind (Ctx.kept_goto hy _) fun _ hz => hz)

/-! ### The stack operations of the operate class -/

theorem kept_execDup (h : r.Kept s) (c : Fin 72) : r.KeptOut (execDup c s) := by
  simp only [execDup, State.keptOut_next, State.kept_insn, keeps_shuffle, h]

theorem kept_execDrop (h : r.Kept s) (c : Fin 72) : r.KeptOut (execDrop c s) := by
  simp only [execDrop, State.keptOut_next, State.kept_insn, keeps_shuffle, h]

theorem kept_execSwap (h : r.Kept s) (c : Fin 72) : r.KeptOut (execSwap c s) := by
  simp only [execSwap, State.keptOut_next, State.kept_insn, keeps_shuffle, h]

theorem kept_execOver (h : r.Kept s) (c : Fin 72) : r.KeptOut (execOver c s) := by
  simp only [execOver, State.keptOut_next, State.kept_insn, keeps_shuffle, h]

theorem kept_execNip (h : r.Kept s) (c : Fin 72) : r.KeptOut (execNip c s) := by
  simp only [execNip, State.keptOut_next, State.kept_insn, keeps_shuffle, h]

theorem kept_execTuck (h : r.Kept s) (c : Fin 72) : r.KeptOut (execTuck c s) := by
  simp only [execTuck, State.keptOut_next, State.kept_insn, keeps_shuffle, h]

theorem kept_execRot (h : r.Kept s) (c : Fin 72) : r.KeptOut (execRot c s) := by
  simp only [execRot, State.keptOut_next, State.kept_insn, keeps_shuffle, h]

theorem kept_execPick (h : r.Kept s) (c : Fin 72) : r.KeptOut (execPick c s) :=
  State.kept_insn h c 1 2 fun _ _ hx => State.keptCtx_bind (Ctx.kept_needD hx ..) fun _ hy => State.keptCtx_ite trivial
    (State.keptCtx_bind (Ctx.kept_fillD hy ..) fun _ hz => State.keptCtx_bind (Ctx.kept_roomD hz ..) fun _ hw => hw)

theorem kept_execTors (h : r.Kept s) (c : Fin 72) : r.KeptOut (execTors c s) :=
  State.kept_insn h c 1 1 fun _ _ hx => State.keptCtx_bind (Ctx.kept_needD hx ..) fun _ hy => State.keptCtx_bind (Ctx.kept_needR hy ..) fun _ hz => hz

theorem kept_execFromrs (h : r.Kept s) (c : Fin 72) : r.KeptOut (execFromrs c s) :=
  State.kept_insn h c 1 1 fun _ _ hx => State.keptCtx_bind (Ctx.kept_needR hx ..) fun _ hy => State.keptCtx_bind (Ctx.kept_needD hy ..) fun _ hz => hz

theorem kept_execRscopy (h : r.Kept s) (c : Fin 72) : r.KeptOut (execRscopy c s) :=
  State.kept_insn h c 1 1 fun _ _ hx => State.keptCtx_bind (Ctx.kept_needR hx ..) fun _ hy => State.keptCtx_bind (Ctx.kept_needD hy ..) fun _ hz => hz

theorem kept_execRsdrop (h : r.Kept s) (c : Fin 72) : r.KeptOut (execRsdrop c s) :=
  State.kept_insn h c 1 1 fun _ _ hx => State.keptCtx_bind (Ctx.kept_needR hx ..) fun _ hy => hy

theorem kept_execDepth (h : r.Kept s) (c : Fin 72) : r.KeptOut (execDepth c s) :=
  State.kept_insn h c 1 1 fun _ _ hx => Ctx.kept_operate hx ..

theorem kept_execRdepth (h : r.Kept s) (c : Fin 72) : r.KeptOut (execRdepth c s) :=
  State.kept_insn h c 1 1 fun _ _ hx => Ctx.kept_operate hx ..

/-! ### TRAP -/

theorem kept_execTrap (h : r.Kept s) (c : Fin 72) (n : BitVec 8) : r.KeptOut (execTrap c n s) :=
  State.kept_insn h c 1 1 fun _ _ _ => trivial

theorem kept_execSysRead (h : r.Kept s) (c : Fin 72) (n : BitVec 4) : r.KeptOut (execSysRead c n s) := by
  refine State.kept_insn h c 1 1 fun r x hx => ?_
  split
  next => trivial
  next => exact State.keptCtx_ite trivial (Ctx.kept_operate hx ..)

theorem kept_execSysWrite (h : r.Kept s) (c : Fin 72) (n : BitVec 4) : r.KeptOut (execSysWrite c n s) := by
  refine State.kept_insn h c 1 _ fun r x hx => State.keptCtx_ite trivial (State.keptCtx_ite trivial ?_)
  refine State.keptCtx_bind (Ctx.kept_needD hx ..) fun y hy => ?_
  dsimp only
  split
  next => trivial
  next => exact hy

theorem kept_execNop (h : r.Kept s) (c : Fin 72) : r.KeptOut (execNop c s) :=
  State.kept_insn h c 1 1 fun _ _ hx => hx

theorem kept_execRti (h : r.Kept s) (c : Fin 72) : r.KeptOut (execRti c s) :=
  State.kept_insn h c 1 6 fun _ _ hx => State.keptCtx_ite hx trivial

theorem kept_execWait (h : r.Kept s) (c : Fin 72) : r.KeptOut (execWait c s) := by
  refine State.kept_insn h c 1 2 fun r x hx => State.keptCtx_bind (Ctx.kept_needD hx ..) fun y hy => ?_
  split
  next => trivial
  next => exact State.keptCtx_bind (Ctx.kept_meetBit hy _) fun _ hz => State.keptCtx_ite hz hz

theorem kept_execWaitWake (h : r.Kept s) (c : Fin 72) : r.KeptOut (execWaitWake c s) := by
  unfold execWaitWake
  dsimp only
  (repeat' split) <;> simp only [State.keptOut_next, State.kept_setCore, h]

theorem kept_execWaitTimeout (h : r.Kept s) (c : Fin 72) : r.KeptOut (execWaitTimeout c s) := by
  unfold execWaitTimeout
  dsimp only
  (repeat' split) <;> simp only [State.kept_mk, State.keepsAs_self, State.keptOut_next, State.kept_setCore, h]

theorem Ctx.kept_descriptor (h : r.Kept x.s) {a : Nat} {p : Ctx × Bytes} (e : x.descriptor a = .ok p) : r.Kept p.1.s := by
  unfold Ctx.descriptor at e
  split at e
  next => cases e
  next y el =>
    have hy : r.Kept y.s := Ctx.locate_state el ▸ h
    split at e
    next => cases e
    next ez =>
      cases e
      exact State.keptCtx_ok (Ctx.kept_readLocal hy ..) ez
  next y _ el =>
    cases e
    exact Ctx.locate_state el ▸ h
  next y _ _ _ el =>
    have hy : r.Kept y.s := Ctx.locate_state el ▸ h
    split at e
    next => cases e
    next ez =>
      cases e
      exact State.keptCtx_ok (Ctx.kept_useLine hy ..) ez

theorem kept_execSubmit (h : r.Kept s) (c : Fin 72) : r.KeptOut (execSubmit c s) := by
  refine State.kept_insn h c 1 12 fun r x hx => State.keptCtx_bind (Ctx.kept_needD hx ..) fun y hy =>
    State.keptCtx_ite trivial (State.keptCtx_ite trivial ?_)
  split
  next => trivial
  next z desc ez =>
    have hz : r.Kept z.s := Ctx.kept_descriptor hy ez
    refine State.keptCtx_bind (Ctx.kept_writeBack hz) fun w hw => ?_
    exact State.Kept.ite ((State.kept_submitJob ..).mpr hw) hw

theorem kept_execFence (h : r.Kept s) (c : Fin 72) (o : BitVec 4) : r.KeptOut (execFence c o s) := by
  refine State.kept_insn h c 1 4 fun r x hx => State.keptCtx_ite trivial ?_
  refine State.keptCtx_bind (State.keptCtx_ite (Ctx.kept_writeBack (x := x.spend _) hx) hx) fun a ha => ?_
  refine State.keptCtx_bind (State.keptCtx_ite (Ctx.kept_writeBack (x := a.spend _) ha) ha) fun y hy => ?_
  show r.Kept (Ctx.s _)
  (repeat' split) <;> exact hy

/-! ### Digest jobs of cores and hosts -/

theorem kept_execHash (h : r.Kept s) (src : JobSrc) : r.KeptOut (execHash src s) := by
  simp only [execHash, State.keptOut_next, State.kept_digestJob, h]

theorem kept_execHashCompare (h : r.Kept s) (src : JobSrc) (va vb : BitVec 8) : r.KeptOut (execHashCompare src va vb s) := by
  simp only [execHashCompare, State.keptOut_next, State.kept_digestJob, h]

theorem kept_execDigestJobComplete (h : r.Kept s) : r.KeptOut (execDigestJobComplete s) := by
  unfold execDigestJobComplete
  (repeat' split) <;> simp only [State.kept_refl, implies_true, State.keptOut_next, State.kept_dropDone, State.kept_endJob, State.kept_record, State.kept_xlateFault, h]

/-! ### The Drove set's shared operations -/

theorem State.kept_setDrove (f : DroveSt → DroveSt) : r.Kept (s.setDrove f) = r.Kept s := by
  simp only [State.setDrove, State.kept_mk, State.keepsAs_self]

theorem State.kept_modLink (p : Port) (f : DroveLink → DroveLink) : r.Kept (s.modLink p f) = r.Kept s := by
  simp only [State.modLink, State.kept_setDrove]

theorem State.kept_droveErr (code member port : Nat) : r.Kept (s.droveErr code member port) = r.Kept s := by
  simp only [State.droveErr, State.kept_record]

theorem State.kept_showDrove : r.Kept s.showDrove = r.Kept s := by simp only [State.showDrove, State.kept_puts]

/-! ### Links (R507, R508) -/

theorem State.kept_drovePump : r.Kept s.drovePump = r.Kept s := by simp only [State.drovePump, State.kept_setDrove]

theorem State.kept_linkSend (p : Port) (pkt : Bytes) : r.Kept (s.linkSend p pkt) = r.Kept s := by
  simp only [State.linkSend, ite_self, State.kept_ite, State.kept_modLink]

theorem State.kept_setSend (p : Port) (pkt : Bytes) : r.Kept (s.setSend p pkt) = r.Kept s := by
  simp only [State.setSend, ite_self, State.kept_ite, State.kept_linkSend, State.kept_modLink]

theorem State.kept_droveDone : r.Kept s.droveDone = r.Kept s := by simp only [State.droveDone, State.kept_drovePump, State.kept_showDrove]

/-! ### Packets (R508) -/

theorem State.kept_passOn (h' : DroveHdr) (pkt : Nat → Bytes) : r.Kept (s.passOn h' pkt) = r.Kept s := by
  simp only [State.passOn, ite_self, State.kept_ite, State.kept_setSend]

theorem State.kept_takePkt (h' : DroveHdr) (ty : Nat) : r.Kept (s.takePkt h' ty) = r.Kept s := by simp only [State.takePkt, State.kept_modLink]

/-! ### Formation (R510-R512, R515) -/

theorem State.kept_sendForm (p : Port) : r.Kept (s.sendForm p) = r.Kept s := by simp only [State.sendForm, State.kept_setSend]

theorem State.kept_announce : r.Kept s.announce = r.Kept s := by simp only [State.announce, ite_self, State.kept_ite, State.kept_sendForm]

theorem State.kept_resendForm (p : Port) : r.Kept (s.resendForm p) = r.Kept s := by
  simp only [State.resendForm, ite_self, State.kept_ite, State.kept_sendForm, State.kept_setSend]

theorem State.kept_goLine : r.Kept s.goLine = r.Kept s := by
  simp only [State.goLine, ite_self, State.kept_ite, State.kept_droveErr, State.kept_pulse, State.kept_setDrove]

theorem State.kept_setEpoch (e : Nat) : r.Kept (s.setEpoch e) = r.Kept s := by simp only [State.setEpoch, State.kept_setDrove]

/-! ### Set time (R517, R518) -/

theorem State.kept_shiftTime (d : ℤ) : r.Kept (s.shiftTime d) = r.Kept s := by simp only [State.shiftTime, State.kept_mk, State.keepsAs_self]

theorem State.kept_discipline (off : ℤ) : r.Kept (s.discipline off) = r.Kept s := by
  simp only [State.discipline, ite_self, State.kept_ite, State.kept_fresh, State.kept_setDrove, State.kept_shiftTime]

theorem State.kept_tick : r.Kept s.tick = r.Kept s := by simp only [State.tick, ite_self, State.kept_mk, State.keepsAs_self, State.kept_ite]

/-! ### What an armed start holds (R521) -/

theorem State.kept_disarm : r.Kept s.disarm = r.Kept s := by
  unfold State.disarm
  (repeat' split) <;> simp only [State.kept_follow, State.kept_puts, State.kept_reserveLanes, State.kept_setDrove, State.kept_setTake]

/-! ### Earmark jobs -/

theorem kept_listSearch (n : Nat) (key mask : List Nat) (checked : Bool) (f : Nat) (skip : List (Nat × Nat)) :
    r.Kept (listSearch n key mask checked f skip s).2 = r.Kept s := by
  induction f generalizing skip s with
  | zero => rfl
  | succ f ih =>
    unfold listSearch
    dsimp only
    split
    · exact State.kept_search1 ..
    · exact (ih _).trans (State.kept_search1 ..)

theorem State.kept_earErr (j : Job) (status : Nat) : r.Kept (s.earErr j status) = r.Kept s := by
  simp only [State.earErr, ite_self, State.kept_ite, State.kept_record]

theorem EarRun.kept_put {x : EarRun} (h : r.Kept x.s) (func a : Nat) (bs : Bytes) {k : State → EarRun} (hk : ∀ t, r.Kept t → r.Kept (k t).s) :
    r.Kept (x.put func a bs k).s := by
  unfold EarRun.put
  split
  next e => exact hk _ (State.kept_xwrite h e)
  next => exact (State.kept_xlateFault ..).mpr h

theorem EarRun.kept_fetch_of {x : EarRun} (h : r.Kept x.s) (func a n : Nat) {k : Bytes → EarRun} (hk : ∀ bs, r.Kept (k bs).s) :
    r.Kept (x.fetch func a n k).s := by
  unfold EarRun.fetch
  split
  · exact hk _
  · exact (State.kept_xlateFault ..).mpr h

theorem EarRun.kept_searchItem {x : EarRun} (h : r.Kept x.s) (j : Job) (per : Nat) (mask : List Nat) (i : Nat) : r.Kept (x.searchItem j per mask i).s := by
  refine EarRun.kept_fetch_of h _ _ _ fun bs => ?_
  extract_lets q out
  have hq : r.Kept q.2 := (kept_listSearch ..).mpr h
  clear_value q
  split
  · exact hq
  · exact EarRun.kept_put (x := { x with s := q.2 }) hq _ _ _ fun t ht => ht

theorem EarRun.kept_readItem {x : EarRun} (h : r.Kept x.s) (j : Job) (i : Nat) : r.Kept (x.readItem j i).s := by
  refine EarRun.kept_fetch_of h _ _ _ fun bs => ?_
  split
  · exact h
  · exact EarRun.kept_put h _ _ _ fun t ht => ht

/-- The items of a job undo nothing. -/
def ItemKeeps (step : EarRun → Nat → EarRun) : Prop := ∀ (r : State) (x : EarRun) (i : Nat), r.Kept x.s → r.Kept (step x i).s

theorem itemKeeps_searchItems (per : Job → Nat) (j : Job) : ItemKeeps (searchItems per j) := by
  intro r x i h
  unfold searchItems
  dsimp only
  split
  · exact EarRun.kept_fetch_of h _ _ _ fun m => EarRun.kept_searchItem h ..
  · exact EarRun.kept_searchItem h ..

theorem itemKeeps_writeItem (j : Job) : ItemKeeps (EarRun.writeItem j) := fun _ _ _ h => (EarRun.kept_writeItem ..).mpr h

theorem itemKeeps_invalidateItem (j : Job) : ItemKeeps (EarRun.invalidateItem j) := fun _ _ _ h => (EarRun.kept_invalidateItem ..).mpr h

theorem itemKeeps_readItem (j : Job) : ItemKeeps (EarRun.readItem j) := fun _ _ _ h => EarRun.kept_readItem h ..

theorem itemKeeps_earItems (j : Job) : ItemKeeps (earItems j) := by
  unfold earItems
  split
  · exact itemKeeps_searchItems _ j
  · exact itemKeeps_searchItems _ j
  · exact itemKeeps_writeItem j
  · exact itemKeeps_invalidateItem j
  · exact itemKeeps_readItem j

theorem EarRun.kept_item {x : EarRun} (h : r.Kept x.s) (j : Job) {step : EarRun → Nat → EarRun} (hs : ItemKeeps step) : r.Kept (x.item j step).s := by
  unfold EarRun.item
  split
  · exact h
  split
  · exact h
  · exact hs _ _ _ h

theorem EarRun.kept_items {x : EarRun} (h : r.Kept x.s) (j : Job) {step : EarRun → Nat → EarRun} (hs : ItemKeeps step) (n : Nat) :
    r.Kept (EarRun.items_ j step n x).s :=
  List.foldlRecOn (motive := fun y : EarRun => r.Kept y.s) _ _ h fun _ hy _ _ => EarRun.kept_item hy j hs

theorem State.kept_earRun (h : r.Kept s) (id : Nat) : r.Kept (s.earRun id).s := (s.earRun_s id).symm ▸ h

theorem State.kept_earJob (h : r.Kept s) (src : JobSrc) (op : Nat) {step : Job → EarRun → Nat → EarRun} (hs : ∀ j, ItemKeeps (step j)) :
    r.Kept (s.earJob src op step) := by
  unfold State.earJob
  split
  next => exact h
  next j _ =>
    have ht : r.Kept (s.takeJob j.id) := (State.kept_takeJob ..).mpr h
    dsimp only
    split
    next => exact (State.kept_finishJob ..).mpr ((State.kept_earErr ..).mpr ht)
    next =>
      rw [State.kept_finishJob, State.kept_earErr, State.kept_endRun]
      exact EarRun.kept_items (State.kept_earRun ht _) j (hs j) _

/-! ### The ports -/

theorem State.kept_portCycle (h : r.Kept s) (n : Nat) : r.Kept (s.portCycle n) := by
  unfold State.portCycle
  dsimp only
  have hf : r.Kept s.fresh.2 := (State.kept_fresh ..).mpr h
  split
  next => exact hf
  next j _ =>
    have ht : r.Kept (((s.fresh.2.earRun j.id).item j (earItems j)).keep j.id) :=
      (EarRun.kept_keep ..).mpr (EarRun.kept_item (State.kept_earRun hf _) j (itemKeeps_earItems j))
    exact .ite ht ((State.kept_setEar ..).mpr ht)

theorem State.kept_earReads (h : r.Kept s) : r.Kept s.earReads :=
  State.kept_foldl_of h fun t j => (EarRun.kept_keep ..).mpr (EarRun.kept_item (State.kept_earRun t.kept_refl _) j (itemKeeps_earItems j))

theorem State.kept_earTick (h : r.Kept s) : r.Kept s.earTick :=
  .ite h (State.kept_earReads (State.kept_foldl_of h fun t _ => State.kept_foldl_of t.kept_refl fun u n => State.kept_portCycle u.kept_refl n))

theorem kept_execSearch (h : r.Kept s) (src : JobSrc) : r.KeptOut (execSearch src s) := State.kept_earJob h src 1 fun j => itemKeeps_searchItems _ j

theorem kept_execSearchList (h : r.Kept s) (src : JobSrc) : r.KeptOut (execSearchList src s) := State.kept_earJob h src 2 fun j => itemKeeps_searchItems _ j

theorem kept_execEarmarkWrite (h : r.Kept s) (src : JobSrc) : r.KeptOut (execEarmarkWrite src s) := State.kept_earJob h src 3 fun j => itemKeeps_writeItem j

theorem kept_execInvalidate (h : r.Kept s) (src : JobSrc) : r.KeptOut (execInvalidate src s) := State.kept_earJob h src 4 fun j => itemKeeps_invalidateItem j

theorem kept_execEarmarkRead (h : r.Kept s) (src : JobSrc) : r.KeptOut (execEarmarkRead src s) := State.kept_earJob h src 5 fun j => itemKeeps_readItem j

theorem kept_execEarmarkJobComplete (h : r.Kept s) : r.KeptOut (execEarmarkJobComplete s) := by
  unfold execEarmarkJobComplete
  (repeat' split) <;> simp only [State.kept_refl, implies_true, State.keptOut_next, State.kept_dropDone, State.kept_endJob, State.kept_record, State.kept_xlateFault, h]

/-! ### Scrubbing -/

theorem State.kept_scrubRow (row : Nat) (lost : List Nat) (b : Nat) : r.Kept (s.scrubRow row lost b) = r.Kept s := by
  simp only [State.scrubRow, ite_self, State.kept_ite, State.kept_countRepair, State.kept_loseEnt, State.kept_modBank]

theorem kept_execEarmarkScrub (h : r.Kept s) (row : BitVec 12) (lost : List Nat) : r.KeptOut (execEarmarkScrub row lost s) := by
  simp only [execEarmarkScrub, ite_self, State.kept_mk, State.keepsAs_self, State.kept_ite, State.kept_foldl, implies_true, State.keptOut_next, State.kept_bump,
    State.kept_pulse, State.kept_scrubRow, h]

/-! ### The Gate link -/

theorem State.kept_trainTick : r.Kept s.trainTick = r.Kept s := by
  simp only [State.trainTick, ite_self, State.kept_ite, State.kept_fresh, State.kept_put]

theorem State.kept_idleTick : r.Kept s.idleTick = r.Kept s := by simp only [State.idleTick, ite_self, State.kept_ite, State.kept_idleFlit]

theorem State.kept_freshLink : r.Kept s.freshLink = r.Kept s := by simp only [State.freshLink, State.kept_setGate]

theorem State.kept_endGrace : r.Kept s.endGrace = r.Kept s := by
  unfold State.endGrace
  (repeat' split) <;> simp only [State.kept_setGate]

theorem kept_execGateLinkUp (h : r.Kept s) (good : BitVec 16) (rev : Bool) (inv : BitVec 16) : r.KeptOut (execGateLinkUp good rev inv s) := by
  unfold execGateLinkUp
  (repeat' split) <;> simp only [State.keptOut_next, State.kept_advance, State.kept_endGrace, State.kept_freshLink, State.kept_pulse, State.kept_puts, State.kept_recompute,
    State.kept_setActive, h]

theorem kept_execGateTrainFail (h : r.Kept s) (good : BitVec 16) : r.KeptOut (execGateTrainFail good s) := by
  simp only [execGateTrainFail, ite_self, State.keptOut_next, State.keptOut_ite, State.kept_put, State.kept_record, State.kept_setGate, h]

theorem kept_execGateTrainRetry (h : r.Kept s) : r.KeptOut (execGateTrainRetry s) := by
  unfold execGateTrainRetry
  (repeat' split) <;> simp only [State.kept_mk, State.keepsAs_self, State.keptOut_next, State.kept_put, State.kept_setGate, h]

theorem State.kept_linkDown (h : r.Kept s) : r.Kept s.linkDown := by
  simp only [State.linkDown, ite_self, State.kept_ite, State.kept_endOpenFrames, State.kept_linkReset, State.kept_setGate, h]

theorem State.kept_linkFail (h : r.Kept s) : r.Kept s.linkFail := by simp only [State.linkFail, State.kept_linkDown, State.kept_record, h]

theorem State.kept_failLane (l : Nat) : r.Kept (s.failLane l) = r.Kept s := by
  simp only [State.failLane, State.kept_pulse, State.kept_put, State.kept_record]

theorem State.kept_loseLane (h : r.Kept s) (l : Nat) : r.Kept (s.loseLane l) := by
  unfold State.loseLane
  dsimp only
  (repeat' split) <;> simp only [State.kept_beginRetrain, State.kept_failLane, State.kept_linkFail, State.kept_put, State.kept_recompute, State.kept_setGate, h]

theorem kept_execGateLaneLost (h : r.Kept s) (lane : Fin 16) : r.KeptOut (execGateLaneLost lane s) := by
  simp only [execGateLaneLost, ite_self, State.keptOut_next, State.keptOut_ite, State.kept_loseLane, h]

theorem State.kept_noteFec (lanes : List (Fin 16)) : r.Kept (s.noteFec lanes) = r.Kept s := by simp only [State.noteFec, State.kept_setGate]

theorem State.kept_judgeLanes (h : r.Kept s) : r.Kept s.judgeLanes := by
  unfold State.judgeLanes
  (repeat' split) <;> simp only [State.kept_loseLane, State.kept_setGate, h]

theorem kept_execGateRetrainDone (h : r.Kept s) (bad : BitVec 16) : r.KeptOut (execGateRetrainDone bad s) := by
  unfold execGateRetrainDone
  dsimp only
  (repeat' split) <;> simp only [State.kept_foldl_of, State.kept_refl, implies_true, State.keptOut_next, State.kept_failLane, State.kept_hold, State.kept_linkFail,
    State.kept_recompute, State.kept_resend, State.kept_setActive, State.kept_setGate, h]

theorem kept_execGateLinkDown (h : r.Kept s) : r.KeptOut (execGateLinkDown s) := by
  simp only [execGateLinkDown, ite_self, State.keptOut_next, State.keptOut_ite, State.kept_linkFail, h]

theorem kept_execTakeLinkLost (h : r.Kept s) : r.KeptOut (execTakeLinkLost s) := by
  unfold execTakeLinkLost
  (repeat' split) <;> simp only [ite_self, State.kept_mk, State.keepsAs_self, State.keptOut_next, State.keptOut_ite, State.kept_closeTake, State.kept_setGate, State.kept_settle,
    State.kept_takeErr, h]

/-! ### Flits -/

theorem State.kept_nak : r.Kept s.nak = r.Kept s := by simp only [State.nak, State.kept_setGate]

theorem kept_execGateFlitRx (h : r.Kept s) (f : Flit) : r.KeptOut (execGateFlitRx f s) := by
  simp only [execGateFlitRx, ite_self, State.kept_ite, State.keptOut_next, State.keptOut_ite, State.kept_advance, State.kept_applyAck, State.kept_applyLimits,
    State.kept_beginRetrain, State.kept_bump, State.kept_judgeLanes, State.kept_nak, State.kept_noteFec, State.kept_parseArea, State.kept_setGate, h]

theorem kept_execGateReplayTimeout (h : r.Kept s) : r.KeptOut (execGateReplayTimeout s) := by
  simp only [execGateReplayTimeout, ite_self, State.kept_mk, State.keepsAs_self, State.keptOut_next, State.keptOut_ite, State.kept_replayAll, h]

theorem State.kept_heartbeatSent : r.Kept s.heartbeatSent = r.Kept s := by simp only [State.heartbeatSent, State.kept_setGate]

theorem kept_execGateHeartbeatTx (h : r.Kept s) : r.KeptOut (execGateHeartbeatTx s) := by
  simp only [execGateHeartbeatTx, ite_self, State.kept_mk, State.keepsAs_self, State.keptOut_next, State.keptOut_ite, State.kept_heartbeatSent, State.kept_payload, h]

theorem kept_execGatePacketSend (h : r.Kept s) : r.KeptOut (execGatePacketSend s) := by
  unfold execGatePacketSend
  (repeat' split) <;> simp only [State.keptOut_next, State.kept_heartbeatSent, State.kept_payload, State.kept_setGate, h]

theorem kept_execHeartbeat (h : r.Kept s) (p : HeartbeatPkt) : r.KeptOut (execHeartbeat p s) := by
  unfold execHeartbeat
  dsimp only
  (repeat' split) <;> simp only [State.keptOut_next, State.kept_leaveRx, State.kept_put, h]

/-! ### What Shears lanes do -/

theorem State.kept_sliceDone (l uid idx : Nat) : r.Kept (s.sliceDone l uid idx) = r.Kept s := by
  unfold State.sliceDone
  (repeat' split) <;> simp only [State.kept_bump, State.kept_dispatchSlices, State.kept_modSlice, State.kept_resumeLane]

theorem kept_execShearsBlockVerified (h : r.Kept s) (lane : Fin 12) (ok : Bool) : r.KeptOut (execShearsBlockVerified lane ok s) := by
  unfold execShearsBlockVerified
  (repeat' split) <;> simp only [State.keptOut_next, State.kept_dispatchSlices, State.kept_laneMiss, State.kept_modLane, State.kept_resumeLane, State.kept_sliceDone,
    State.kept_startReemit, h]

theorem State.kept_loseSlice (uid idx l : Nat) : r.Kept (s.loseSlice uid idx l) = r.Kept s := by
  simp only [State.loseSlice, State.kept_bump, State.kept_modFrame, State.kept_modSlice, State.kept_pulse, State.kept_record]

theorem kept_execShearsReemitDone (h : r.Kept s) (lane : Fin 12) (miss : Option Nat) : r.KeptOut (execShearsReemitDone lane miss s) := by
  unfold execShearsReemitDone
  dsimp only
  (repeat' split) <;> simp only [State.keptOut_next, State.kept_bump, State.kept_dispatchSlices, State.kept_laneMiss, State.kept_loseSlice, State.kept_pulse,
    State.kept_resumeLane, State.kept_sliceDone, State.kept_startReemit, h]

theorem kept_execShearsJobMigrate (h : r.Kept s) (lane : Fin 12) : r.KeptOut (execShearsJobMigrate lane s) := by
  unfold execShearsJobMigrate
  dsimp only
  (repeat' split) <;> simp only [State.keptOut_next, State.kept_dispatchSlices, State.kept_resumeLane, State.kept_setJobs, h]

theorem kept_execCompress (h : r.Kept s) (src : JobSrc) (lane : Fin 12) (bad : List Nat) : r.KeptOut (execCompress src lane bad s) := by
  simp only [execCompress, State.keptOut_next, State.kept_startShears, h]

theorem kept_execInflate (h : r.Kept s) (src : JobSrc) (lane : Fin 12) : r.KeptOut (execInflate src lane s) := by
  simp only [execInflate, State.keptOut_next, State.kept_startShears, h]

theorem kept_execInflateUnpredict (h : r.Kept s) (src : JobSrc) (lane : Fin 12) : r.KeptOut (execInflateUnpredict src lane s) := by
  simp only [execInflateUnpredict, State.keptOut_next, State.kept_startShears, h]

theorem kept_execShearsJobComplete (h : r.Kept s) (lane : Fin 12) : r.KeptOut (execShearsJobComplete lane s) := by
  unfold execShearsJobComplete
  dsimp only
  (repeat' split) <;> simp only [State.kept_refl, implies_true, State.keptOut_next, State.kept_bump, State.kept_dispatchSlices, State.kept_endJob, State.kept_hostActive,
    State.kept_pulse, State.kept_record, State.kept_resumeLane, State.kept_xlateFault, h]

/-! ### Triggers -/

theorem kept_execTrigger (h : r.Kept s) (p : TriggerPkt) : r.KeptOut (execTrigger p s) := by
  simp only [execTrigger, ite_self, State.keptOut_next, State.keptOut_ite, State.kept_arrive, State.kept_leaveRx, h]

theorem kept_execTrigPinEdge (h : r.Kept s) (pin : Fin 3) (rising : Bool) (heldNs : Nat) : r.KeptOut (execTrigPinEdge pin rising heldNs s) := by
  simp only [execTrigPinEdge, ite_self, State.keptOut_next, State.keptOut_ite, State.kept_setTrig, State.kept_trigErr, State.kept_triggerDefault, h]

theorem kept_execRuleSearch (h : r.Kept s) (uid : Nat) : r.KeptOut (execRuleSearch uid s) := by
  unfold execRuleSearch
  dsimp only
  (repeat' split) <;> simp only [State.keptOut_next, State.kept_modFrame, State.kept_ruleHit, State.kept_triggerDefault, h]

theorem kept_execWindowSeal (h : r.Kept s) (slot : Fin 64) : r.KeptOut (execWindowSeal slot s) := by
  simp only [execWindowSeal, ite_self, State.kept_mk, State.keepsAs_self, State.keptOut_next, State.keptOut_ite, State.kept_sealWindow, State.kept_settleTriggers, h]

theorem State.kept_windowRecords (n : Ns) (w : Window) : r.Kept (State.windowRecords s n w).2 = r.Kept s :=
  State.kept_of_forget (State.forget_windowRecords (T := 0xFFFFFFFFFFBFF7FE) rfl ..)

theorem kept_execWindowCopyStart (h : r.Kept s) (slot : Fin 64) : r.KeptOut (execWindowCopyStart slot s) := by
  unfold execWindowCopyStart
  refine State.keptOut_of_ite h ?_
  split
  next => exact h
  next ring _ =>
    split
    next e => exact Eq.mpr (State.kept_snd e (State.kept_readTake ..)) h
    next head t e =>
      have ht : r.Kept t := Eq.mpr (State.kept_snd e (State.kept_readTake ..)) h
      split
      next e => exact Eq.mpr (State.kept_snd e (State.kept_newMediaKey ..)) ht
      next rec _ u e =>
        have hu : r.Kept u := Eq.mpr (State.kept_snd e (State.kept_newMediaKey ..)) ht
        extract_lets id dur alg hdr q b0 b tk n v1 v2 v3 v4 v5
        have h1 : r.Kept v1 := (State.kept_setTake ..).mpr ((State.kept_windowRecords ..).mpr hu)
        clear_value v1
        have h2 : r.Kept v2 := h1
        clear_value v2 b
        have h5 : r.Kept v5 := by
          simp only [v5, v4, v3, State.kept_foldl, State.kept_enterSpan, State.kept_setTrig, State.kept_modWin, implies_true, h2]
        exact (State.kept_copyKept ..).mpr ((State.kept_nsChanged ..).mpr ((State.kept_catalogChanged ..).mpr h5))

theorem kept_execKeptTakeSealed (h : r.Kept s) (slot : Fin 64) : r.KeptOut (execKeptTakeSealed slot s) := by
  unfold execKeptTakeSealed
  dsimp only
  (repeat' split) <;> simp only [State.keptOut_next, State.kept_bump, State.kept_catalogChanged, State.kept_closeTakeGroups, State.kept_copyKept, State.kept_modNs,
    State.kept_modWin, State.kept_nsChanged, State.kept_pulse, State.kept_setTrig, h]

/-! ### Gate and triggers -/

theorem State.kept_writeLinkCtrl (h : r.Kept s) (o : Origin) (v : Nat) : r.Kept (s.writeLinkCtrl o v) := by
  simp only [State.writeLinkCtrl, ite_self, State.kept_ite, State.kept_refl, implies_true, State.kept_linkReset, State.kept_put, State.kept_refuseBlock, State.kept_regCmd, h]

theorem kept_execFullRetrain (h : r.Kept s) (o : Origin) : r.KeptOut (execFullRetrain o s) := by
  simp only [execFullRetrain, State.keptOut_next, State.kept_writeLinkCtrl, h]

theorem State.kept_writeSwFire (h : r.Kept s) (o : Origin) (v : Nat) : r.Kept (s.writeSwFire o v) := by
  simp only [State.writeSwFire, ite_self, State.kept_ite, State.kept_refl, implies_true, id_eq, State.kept_regCmd, State.kept_swFire, h]

theorem kept_execSwFire (h : r.Kept s) (o : Origin) (tag : BitVec 16) : r.KeptOut (execSwFire o tag s) := by
  simp only [execSwFire, State.keptOut_next, State.kept_writeSwFire, h]

/-! ### Lanes and channels -/

theorem State.kept_writeLaneCtrl (h : r.Kept s) (o : Origin) (l v : Nat) : r.Kept (s.writeLaneCtrl o l v) := by
  simp only [State.writeLaneCtrl, ite_self, State.kept_ite, State.kept_refl, implies_true, State.kept_refuseBlock, State.kept_regCmd, State.kept_retireLane, h]

theorem kept_execLaneCtrlRetire (h : r.Kept s) (o : Origin) (lane : Fin 12) : r.KeptOut (execLaneCtrlRetire o lane s) := by
  simp only [execLaneCtrlRetire, State.keptOut_next, State.kept_writeLaneCtrl, h]

theorem State.kept_writePwrCtrl (h : r.Kept s) (o : Origin) (c v : Nat) : r.Kept (s.writePwrCtrl o c v) := by
  simp only [State.writePwrCtrl, ite_self, State.kept_ite, State.kept_refl, implies_true, id_eq, State.kept_channelOff, State.kept_pulse, State.kept_putBit, State.kept_regCmd,
    h]

theorem kept_execForceOff (h : r.Kept s) (o : Origin) (ch : Fin 32) : r.KeptOut (execForceOff o ch s) := by
  simp only [execForceOff, State.keptOut_next, State.kept_writePwrCtrl, h]

theorem State.kept_retrain (h : r.Kept s) (c : Nat) (ok : Bool) : r.Kept (s.retrain c ok) := by
  simp only [State.retrain, ite_self, State.kept_ite, State.kept_fresh, State.kept_trainFail, State.kept_trained, h]

theorem State.kept_writeTrainCtrl (h : r.Kept s) (o : Origin) (c v : Nat) (ok : Bool) : r.Kept (s.writeTrainCtrl o c v ok) := by
  simp only [State.writeTrainCtrl, ite_self, State.kept_ite, State.kept_refl, implies_true, State.kept_refuseBlock, State.kept_regCmd, State.kept_retrain, h]

theorem kept_execRetrain (h : r.Kept s) (o : Origin) (ch : Fin 32) (ok : Bool) : r.KeptOut (execRetrain o ch ok s) := by
  simp only [execRetrain, State.keptOut_next, State.kept_writeTrainCtrl, h]

/-! ### Media and array -/

theorem State.kept_writeMediaCtrl (h : r.Kept s) (o : Origin) (v : Nat) : r.Kept (s.writeMediaCtrl o v) := by
  simp only [State.writeMediaCtrl, ite_self, State.kept_ite, State.kept_refl, implies_true, State.kept_refuseBlock, State.kept_regCmd, State.kept_startCkpt, h]

theorem kept_execCkptNow (h : r.Kept s) (o : Origin) : r.KeptOut (execCkptNow o s) := by
  simp only [execCkptNow, State.keptOut_next, State.kept_writeMediaCtrl, h]

theorem State.kept_writeReshapeCtrl (h : r.Kept s) (o : Origin) (v : Nat) : r.Kept (s.writeReshapeCtrl o v) := by
  simp only [State.writeReshapeCtrl, ite_self, State.kept_ite, State.kept_refl, implies_true, State.kept_put, State.kept_refuseBlock, State.kept_regCmd, State.kept_startReshape,
    h]

theorem kept_execReshapeStart (h : r.Kept s) (o : Origin) (k : BitVec 2) : r.KeptOut (execReshapeStart o k s) := by
  simp only [execReshapeStart, State.keptOut_next, State.kept_writeReshapeCtrl, h]

theorem State.kept_writeRetireCtrl (h : r.Kept s) (o : Origin) (v : Nat) : r.Kept (s.writeRetireCtrl o v) := by
  refine State.kept_regCmd h _ _ _ _ _ _ (fun t => (State.kept_refuseBlock ..).mpr t.kept_refl) fun t => ?_
  have ht : t.Kept (t.put R.ARRAY.RETIRE_CTRL_DIE (v % 512)) := (State.kept_put ..).mpr t.kept_refl
  exact .ite (State.kept_endOps (State.kept_loseDies ht _) _) ht

theorem kept_execArrayRetire (h : r.Kept s) (o : Origin) (die : BitVec 9) : r.KeptOut (execArrayRetire o die s) := by
  simp only [execArrayRetire, State.keptOut_next, State.kept_writeRetireCtrl, h]

/-! ### Cores and clusters -/

theorem State.kept_writeCoreCtrl (h : r.Kept s) (o : Origin) (c : Fin 72) (v : Nat) : r.Kept (s.writeCoreCtrl o c v) := by
  simp only [State.writeCoreCtrl, ite_self, State.kept_ite, State.kept_refl, implies_true, State.kept_parkCore, State.kept_refuseBlock, State.kept_regCmd, State.kept_resumeCore,
    State.kept_retireCore, h]

theorem kept_execCorePark (h : r.Kept s) (o : Origin) (c : Fin 72) : r.KeptOut (execCorePark o c s) := by
  simp only [execCorePark, State.keptOut_next, State.kept_writeCoreCtrl, h]

theorem kept_execCoreResume (h : r.Kept s) (o : Origin) (c : Fin 72) : r.KeptOut (execCoreResume o c s) := by
  simp only [execCoreResume, State.keptOut_next, State.kept_writeCoreCtrl, h]

theorem kept_execCoreRetire (h : r.Kept s) (o : Origin) (c : Fin 72) : r.KeptOut (execCoreRetire o c s) := by
  simp only [execCoreRetire, State.keptOut_next, State.kept_writeCoreCtrl, h]

/-! ### Earmark banks -/

theorem State.kept_writeBankCfg (h : r.Kept s) (o : Origin) (b v : Nat) : r.Kept (s.writeBankCfg o b v) := by
  simp only [State.writeBankCfg, State.kept_refl, implies_true, State.kept_refuseBlock, State.kept_regCmd, State.kept_setBankCfg, h]

theorem kept_execBankCfgWrite (h : r.Kept s) (o : Origin) (bank : Fin 32) (width : BitVec 2) (table : BitVec 5) (share : Bool) : r.KeptOut (execBankCfgWrite o bank width table
    share s) := by
  simp only [execBankCfgWrite, State.keptOut_next, State.kept_writeBankCfg, h]

/-! ### Keys and digests -/

theorem State.kept_writeKeyCtrl (h : r.Kept s) (o : Origin) (v : Nat) : r.Kept (s.writeKeyCtrl o v) := by
  simp only [State.writeKeyCtrl, ite_self, State.kept_ite, State.kept_refl, implies_true, State.kept_alarm, State.kept_refuseBlock, State.kept_regCmd, State.kept_unlockKeys, h]

theorem kept_execUnlock (h : r.Kept s) (o : Origin) : r.KeptOut (execUnlock o s) := by
  simp only [execUnlock, State.keptOut_next, State.kept_writeKeyCtrl, h]

theorem kept_execErase (h : r.Kept s) (o : Origin) : r.KeptOut (execErase o s) := by
  simp only [execErase, State.keptOut_next, State.kept_writeKeyCtrl, h]

theorem State.kept_writeFeedCtrl (h : r.Kept s) (o : Origin) (v : Nat) : r.Kept (s.writeFeedCtrl o v) := by
  simp only [State.writeFeedCtrl, State.kept_refl, implies_true, State.kept_feedCtrl, State.kept_heldFeed, State.kept_regCmd, h]

theorem kept_execClaim (h : r.Kept s) (o : Origin) : r.KeptOut (execClaim o s) := by
  simp only [execClaim, State.keptOut_next, State.kept_writeFeedCtrl, h]

theorem kept_execRelease (h : r.Kept s) (o : Origin) : r.KeptOut (execRelease o s) := by
  simp only [execRelease, State.keptOut_next, State.kept_writeFeedCtrl, h]

theorem kept_execStart (h : r.Kept s) (o : Origin) (alg : BitVec 2) (cmp : Bool) : r.KeptOut (execStart o alg cmp s) := by
  simp only [execStart, State.keptOut_next, State.kept_writeFeedCtrl, h]

theorem State.kept_writeFeedWord (h : r.Kept s) (o : Origin) (v : Nat) : r.Kept (s.writeFeedWord o v) := by
  simp only [State.writeFeedWord, State.kept_refl, implies_true, id_eq, State.kept_feedWord, State.kept_regCmd, h]

theorem kept_execFeedWord (h : r.Kept s) (o : Origin) (w : BitVec 64) : r.KeptOut (execFeedWord o w s) := by
  simp only [execFeedWord, State.keptOut_next, State.kept_writeFeedWord, h]

theorem State.kept_writeLastWord (h : r.Kept s) (o : Origin) (v : Nat) (va vb : BitVec 8) : r.Kept (s.writeLastWord o v va vb) := by
  simp only [State.writeLastWord, State.kept_refl, implies_true, id_eq, State.kept_feedLast, State.kept_regCmd, h]

theorem kept_execLastWord (h : r.Kept s) (o : Origin) (w : BitVec 64) (va vb : BitVec 8) : r.KeptOut (execLastWord o w va vb s) := by
  simp only [execLastWord, State.keptOut_next, State.kept_writeLastWord, h]

/-! ### DRAM and faults -/

theorem State.kept_writeDramRetire (h : r.Kept s) (o : Origin) (c v : Nat) : r.Kept (s.writeDramRetire o c v) := by
  simp only [State.writeDramRetire, ite_self, State.kept_ite, State.kept_refl, implies_true, State.kept_refuseBlock, State.kept_regCmd, State.kept_retireDram, h]

theorem kept_execDramRetire (h : r.Kept s) (o : Origin) (ch : Fin 4) : r.KeptOut (execDramRetire o ch s) := by
  simp only [execDramRetire, State.keptOut_next, State.kept_writeDramRetire, h]

theorem State.kept_writeConsume (h : r.Kept s) (o : Origin) (v : Nat) : r.Kept (s.writeConsume o v) := by
  simp only [State.writeConsume, State.kept_refl, implies_true, id_eq, State.kept_consumeDev, State.kept_regCmdBy, h]

theorem kept_execFaultConsume (h : r.Kept s) (o : Origin) (n : BitVec 13) : r.KeptOut (execFaultConsume o n s) := by
  simp only [execFaultConsume, State.keptOut_next, State.kept_writeConsume, h]

end Sys2Proof.Machine
end

section
/-!
What each of the model's functions keeps (`State.Kept`), in the model's order: shared resources, roles, the audit log and perturbation, register
accesses, and the operations of a Drove set.
-/

namespace Sys2Proof.Machine

open Sys2Proof.Laws

variable {r s : State} {x : Ctx}

/-! ### Shared resources -/

theorem State.kept_claimResult (o : Origin) (v : Nat) : r.Kept (s.claimResult o v) = r.Kept s := by simp only [State.claimResult, State.kept_put]

theorem State.kept_claimRefused (o : Origin) (r' v : Nat) : r.Kept (s.claimRefused o r' v) = r.Kept s := by
  simp only [State.claimRefused, State.kept_claimResult, State.kept_pulse, State.kept_record]

theorem State.kept_setOwner (r' origin func blk : Nat) : r.Kept (s.setOwner r' origin func blk) = r.Kept s := by
  simp only [State.setOwner, State.kept_puts]

theorem State.kept_shareClaim (o : Origin) (r' : Nat) : r.Kept (s.shareClaim o r') = r.Kept s := by
  simp only [State.shareClaim, ite_self, State.kept_ite, State.kept_claimRefused, State.kept_claimResult, State.kept_pulse, State.kept_setOwner]

theorem State.kept_shareRelease (o : Origin) (r' : Nat) : r.Kept (s.shareRelease o r') = r.Kept s := by
  simp only [State.shareRelease, ite_self, State.kept_ite, State.kept_claimRefused, State.kept_claimResult, State.kept_freeComparator, State.kept_pulse, State.kept_put,
    State.kept_setOwner]

theorem State.kept_shareAssign (o : Origin) (r' blk : Nat) : r.Kept (s.shareAssign o r' blk) = r.Kept s := by
  simp only [State.shareAssign, ite_self, State.kept_ite, State.kept_claimRefused, State.kept_claimResult, State.kept_fresh, State.kept_pulse, State.kept_put,
    State.kept_setOwner]

theorem State.kept_claim (h : r.Kept s) (o : Origin) (r' action blk : Nat) : r.Kept (s.claim o r' action blk) := by
  simp only [State.claim, ite_self, State.kept_ite, State.kept_refl, implies_true, id_eq, State.kept_regCmd, State.kept_shareAssign, State.kept_shareClaim,
    State.kept_shareRelease, h]

theorem kept_execShareClaim (h : r.Kept s) (o : Origin) (r' : BitVec 3) : r.KeptOut (execShareClaim o r' s) := by
  simp only [execShareClaim, State.keptOut_next, State.kept_claim, h]

theorem kept_execShareRelease (h : r.Kept s) (o : Origin) (r' : BitVec 3) : r.KeptOut (execShareRelease o r' s) := by
  simp only [execShareRelease, State.keptOut_next, State.kept_claim, h]

theorem kept_execShareAssign (h : r.Kept s) (o : Origin) (r' : BitVec 3) (blk : BitVec 8) : r.KeptOut (execShareAssign o r' blk s) := by
  simp only [execShareAssign, State.keptOut_next, State.kept_claim, h]

theorem kept_execGpioEdge (h : r.Kept s) (level : Bool) : r.KeptOut (execGpioEdge level s) := by
  simp only [execGpioEdge, ite_self, State.keptOut_next, State.keptOut_ite, State.kept_pulse, State.kept_putBit, h]

/-! ### OTP -/

theorem State.kept_burn (h : r.Kept s) (a : Nat) (bs : Bytes) : r.Kept (s.setTrust fun x => { x with otp := burn x.otp a bs }) :=
  ⟨h.queue, h.mem, fun w => burn_wf (h.otpWf w) a bs, fun w b i hb => bitsKept_burn (h.otpWf w) a bs b i (h.bits w b i hb), h.seq⟩

theorem State.kept_burnGen (h : r.Kept s) (base : Nat) (img : Bytes) (readBack : Bool) : r.Kept (s.burnGen base img readBack) := by
  have ht := State.kept_burn h (base + 1) (img.drop 1)
  exact (State.kept_showOtp ..).mpr (.ite ((State.kept_pulse ..).mpr (State.kept_burn ht base (img.take 1))) ht)

theorem kept_execOtpProgram (h : r.Kept s) (c : Cmd) (data : Bytes) (readBack : Bool) : r.KeptOut (execOtpProgram c data readBack s) := by
  unfold execOtpProgram
  dsimp only
  (repeat' split) <;> simp only [State.keptOut_next, State.kept_audit, State.kept_burnGen, State.kept_completeAdmin, State.kept_record, State.kept_touch, h]

theorem kept_execDecommission (h : r.Kept s) (c : Cmd) (data : Bytes) : r.KeptOut (execDecommission c data s) := by
  unfold execDecommission
  dsimp only
  refine State.keptOut_of_ite h ?_
  refine State.keptOut_of_ite ((State.kept_completeAdmin ..).mpr h) ?_
  refine State.keptOut_of_ite ((State.kept_completeAdmin ..).mpr h) ?_
  exact (State.kept_completeAdmin ..).mpr (State.kept_burn ((State.kept_touch ..).mpr (State.kept_audit h ..)) ..)

theorem kept_execOperatorCredential (h : r.Kept s) (c : Cmd) (data : Bytes) : r.KeptOut (execOperatorCredential c data s) := by
  simp only [execOperatorCredential, ite_self, State.kept_ite, implies_true, State.keptOut_next, State.keptOut_ite, State.kept_audit, State.kept_completeAdmin,
    State.kept_freshBytes, State.kept_setTrust, State.kept_touch, h]

/-! ### Roles -/

theorem State.kept_roleErr (o : Origin) (r' : Role) (code : Nat) : r.Kept (s.roleErr o r' code) = r.Kept s := by
  simp only [State.roleErr, State.kept_record]

theorem State.kept_auditRefusal (h : r.Kept s) (o : Origin) (r' : Role) : r.Kept (s.auditRefusal o r') := by
  simp only [State.auditRefusal, State.kept_auditCoalesced, h]

theorem State.kept_authFail (h : r.Kept s) (o : Origin) (r' : Role) : r.Kept (s.authFail o r') := by
  simp only [State.authFail, ite_self, State.kept_ite, State.kept_auditCoalesced, State.kept_pulse, State.kept_roleErr, State.kept_setLockout, h]

theorem State.kept_grant (h : r.Kept s) (o : Origin) (r' : Role) (method : Nat) : r.Kept (s.grant o r' method) := by
  simp only [State.grant, State.kept_gainRole, State.kept_setLockout, h]

theorem State.kept_authRefused (h : r.Kept s) (o : Origin) (r' : Role) : r.Kept (s.authRefused o r').2 := by
  unfold State.authRefused
  (repeat' split) <;> simp only [State.kept_auditRefusal, State.kept_roleErr, h]

theorem State.kept_challenge (h : r.Kept s) (o : Origin) (r' : Role) : r.Kept (s.challenge o r').2.2 := by
  unfold State.challenge
  dsimp only
  (repeat' split) <;> simp only [implies_true, State.kept_auditRefusal, State.kept_authRefused, State.kept_freshBytes, State.kept_setTrust, h]

theorem State.kept_respond (h : r.Kept s) (o : Origin) (r' : Role) (resp : Bytes) (va vb : BitVec 8) : r.Kept (s.respond o r' resp va vb).2 := by
  unfold State.respond
  dsimp only
  (repeat' split) <;> simp only [implies_true, State.kept_auditRefusal, State.kept_authFail, State.kept_grant, State.kept_noteVerdict, State.kept_roleErr, State.kept_setTrust,
    h]

theorem State.kept_credential (h : r.Kept s) (o : Origin) (data : Bytes) : r.Kept (s.credential o data).2 := by
  unfold State.credential
  dsimp only
  (repeat' split) <;> simp only [State.kept_authFail, State.kept_authRefused, State.kept_grant, h]

theorem State.kept_dropRole (h : r.Kept s) (o : Origin) (r' : Role) : r.Kept (s.dropRole o r') := by
  unfold State.dropRole
  (repeat' split) <;> simp only [State.kept_endRole, h]

/-! ### ROLE AUTH -/

theorem State.kept_authDone (c : Cmd) (r' : Role) (why : Nat) : r.Kept (s.authDone c r' why) = r.Kept s := by
  simp only [State.authDone, ite_self, State.kept_ite, State.kept_completeAdmin]

theorem kept_execRoleAuthGetChallenge (h : r.Kept s) (c : Cmd) (role : BitVec 8) (len : Nat) : r.KeptOut (execRoleAuthGetChallenge c role len s) := by
  unfold execRoleAuthGetChallenge
  (repeat' split) <;> simp only [ite_self, State.kept_ite, State.keptOut_next, State.kept_authDone, State.kept_challenge, State.kept_completeAdmin, State.kept_completeData, h]

theorem kept_execRoleAuthRespond (h : r.Kept s) (c : Cmd) (role : BitVec 8) (len : Nat) (data : Bytes) (va vb : BitVec 8) : r.KeptOut (execRoleAuthRespond c role len data va
    vb s) := by
  unfold execRoleAuthRespond
  (repeat' split) <;> simp only [State.keptOut_next, State.kept_authDone, State.kept_completeAdmin, State.kept_respond, h]

theorem kept_execRoleAuthCredential (h : r.Kept s) (c : Cmd) (role : BitVec 8) (len : Nat) (data : Bytes) : r.KeptOut (execRoleAuthCredential c role len data s) := by
  simp only [execRoleAuthCredential, ite_self, State.keptOut_next, State.keptOut_ite, State.kept_authDone, State.kept_completeAdmin, State.kept_credential, h]

theorem kept_execRoleAuthDrop (h : r.Kept s) (c : Cmd) (role : BitVec 8) : r.KeptOut (execRoleAuthDrop c role s) := by
  unfold execRoleAuthDrop
  (repeat' split) <;> simp only [State.keptOut_next, State.kept_completeAdmin, State.kept_dropRole, h]

/-! ### The ROLE page -/

theorem State.kept_authStatus (o : Origin) (role result why : Nat) : r.Kept (s.authStatus o role result why) = r.Kept s := by
  simp only [State.authStatus, State.kept_puts]

theorem State.kept_authCtrl (h : r.Kept s) (o : Origin) (step role : Nat) {act : Role → State → State} (hact : ∀ a (t : State), t.Kept (act a t)) :
    r.Kept (s.authCtrl o step role act) :=
  State.kept_regCmd h _ _ _ _ _ _ (fun t => t.kept_refl) fun t => by
    split
    · exact hact _ t
    · exact t.kept_refl

theorem State.kept_stepChallenge (h : r.Kept s) (o : Origin) (r' : Role) : r.Kept (s.stepChallenge o r') := by
  simp only [State.stepChallenge, ite_self, State.kept_ite, State.kept_authStatus, State.kept_challenge, State.kept_puts, h]

theorem State.kept_stepRespond (h : r.Kept s) (o : Origin) (va vb : BitVec 8) (r' : Role) : r.Kept (s.stepRespond o va vb r') := by
  simp only [State.stepRespond, State.kept_authStatus, State.kept_respond, h]

theorem State.kept_stepDrop (h : r.Kept s) (o : Origin) (r' : Role) : r.Kept (s.stepDrop o r') := by
  simp only [State.stepDrop, State.kept_authStatus, State.kept_dropRole, h]

theorem kept_execAuthChallenge (h : r.Kept s) (o : Origin) (role : BitVec 2) : r.KeptOut (execAuthChallenge o role s) := by
  simp only [execAuthChallenge, State.kept_refl, implies_true, State.keptOut_next, State.kept_authCtrl, State.kept_stepChallenge, h]

theorem kept_execAuthCheckResponse (h : r.Kept s) (o : Origin) (role : BitVec 2) (va vb : BitVec 8) : r.KeptOut (execAuthCheckResponse o role va vb s) := by
  simp only [execAuthCheckResponse, State.kept_refl, implies_true, State.keptOut_next, State.kept_authCtrl, State.kept_stepRespond, h]

theorem kept_execAuthDrop (h : r.Kept s) (o : Origin) (role : BitVec 2) : r.KeptOut (execAuthDrop o role s) := by
  simp only [execAuthDrop, State.kept_refl, implies_true, State.keptOut_next, State.kept_authCtrl, State.kept_stepDrop, h]

theorem kept_execChallengeLapse (h : r.Kept s) (o : Origin) : r.KeptOut (execChallengeLapse o s) := by
  unfold execChallengeLapse
  (repeat' split) <;> simp only [ite_self, State.kept_mk, State.keepsAs_self, State.kept_ite, implies_true, State.keptOut_next, State.kept_authStatus, State.kept_setTrust, h]

theorem kept_execRoleIdleLapse (h : r.Kept s) (o : Origin) : r.KeptOut (execRoleIdleLapse o s) := by
  unfold execRoleIdleLapse
  dsimp only
  split
  next => exact h
  next => exact State.kept_foldl_of h fun t x => State.kept_endRole t.kept_refl ..

theorem kept_execRoleLockoutEnd (h : r.Kept s) (role : BitVec 2) : r.KeptOut (execRoleLockoutEnd role s) := by
  unfold execRoleLockoutEnd
  (repeat' split) <;> simp only [ite_self, State.kept_mk, State.keepsAs_self, State.keptOut_next, State.keptOut_ite, State.kept_setLockout, h]

/-! ### Perturbation -/

theorem State.kept_auditPerturb (h : r.Kept s) (o : Origin) (page n result : Nat) : r.Kept (s.auditPerturb o page n result) := by
  simp only [State.auditPerturb, State.kept_audit, State.kept_touch, h]

theorem State.kept_armBy (o : Origin) : r.Kept (s.armBy o) = r.Kept s := by
  simp only [State.armBy, implies_true, State.kept_pulse, State.kept_put, State.kept_setTrust]

theorem kept_execArm (h : r.Kept s) (o : Origin) : r.KeptOut (execArm o s) := by
  simp only [execArm, State.kept_refl, implies_true, id_eq, State.keptOut_next, State.kept_armBy, State.kept_auditPerturb, State.kept_regCmdBy, h]

theorem kept_execKill (h : r.Kept s) (o : Origin) : r.KeptOut (execKill o s) := by
  simp only [execKill, State.kept_refl, implies_true, id_eq, State.keptOut_next, State.kept_endPerturb, State.kept_regCmd, h]

theorem State.kept_flipRow (b : Nat) (mag : Nat) : r.Kept (State.flipRow s b mag) = r.Kept s :=
  State.kept_of_forget (State.forget_flipRow (T := 0xFFFFFFFFFFBFF7FE) rfl ..)

theorem State.kept_flipBurst (c mag : Nat) : r.Kept (s.flipBurst c mag) = r.Kept s := by
  simp only [State.flipBurst, ite_self, State.kept_ite, State.kept_bump, State.kept_fresh, State.kept_pulse]

theorem State.kept_delayPage (page us : Nat) : r.Kept (s.delayPage page us) = r.Kept s := by
  simp only [State.delayPage, implies_true, State.kept_setTrust]

theorem State.kept_inject (h : r.Kept s) (kind mag page : Nat) : r.Kept (s.inject kind mag page) := by
  simp only [State.inject, ite_self, State.kept_foldl_of, State.kept_ite, State.kept_refl, implies_true, State.kept_delayPage, State.kept_dramReplay, State.kept_flipBurst,
    State.kept_flipRow, State.kept_hold, h]

theorem State.kept_spendProfile (n : Nat) : r.Kept (s.spendProfile n) = r.Kept s := by
  simp only [State.spendProfile, ite_self, State.kept_ite, State.kept_foldl, implies_true, State.kept_pulse, State.kept_put, State.kept_setTrust]

theorem kept_execPerturbEvent (h : r.Kept s) (n : BitVec 4) : r.KeptOut (execPerturbEvent n s) := by
  simp only [execPerturbEvent, ite_self, State.kept_foldl_of, State.kept_refl, implies_true, State.keptOut_next, State.keptOut_ite, State.kept_bump, State.kept_inject,
    State.kept_setTrust, State.kept_spendProfile, h]

theorem kept_execPerturbDelayExpiry (h : r.Kept s) (page : Nat) : r.KeptOut (execPerturbDelayExpiry page s) := by
  unfold execPerturbDelayExpiry
  (repeat' split) <;> simp only [State.kept_mk, State.keepsAs_self, implies_true, State.keptOut_next, State.kept_dispatchSlices, State.kept_hold, State.kept_setTrust, h]

/-! ### Register accesses from every origin -/

theorem kept_outState {o : Out} (h : r.Kept s) (ho : r.KeptOut o) : r.Kept (outState s o) := by
  cases o
  · exact ho
  · exact h
  · exact h

/-! ### The common header -/

theorem State.kept_writeMask (h : r.Kept s) (o : Origin) (page v : Nat) : r.Kept (s.writeMask o page v) := by
  simp only [State.writeMask, State.kept_refl, implies_true, id_eq, State.kept_irqAfter, State.kept_put, State.kept_regCmd, h]

theorem State.kept_writeSticky (h : r.Kept s) (o : Origin) (page v : Nat) : r.Kept (s.writeSticky o page v) := by
  simp only [State.writeSticky, State.kept_refl, implies_true, id_eq, State.kept_put, State.kept_regCmd, h]

theorem State.kept_clearErr (page : Nat) : r.Kept (s.clearErr page) = r.Kept s := by simp only [State.clearErr, State.kept_puts]

theorem State.kept_writeErrCode (h : r.Kept s) (o : Origin) (page v : Nat) : r.Kept (s.writeErrCode o page v) := by
  simp only [State.writeErrCode, ite_self, State.kept_ite, State.kept_refl, implies_true, id_eq, State.kept_clearErr, State.kept_regCmd, h]

theorem State.kept_stopJob (l : Nat) (w : LaneWork) : r.Kept (s.stopJob l w) = r.Kept s := by
  unfold State.stopJob
  (repeat' split) <;> simp only [State.kept_completeCmd, State.kept_record]

theorem State.kept_resetLane (l : Nat) : r.Kept (s.resetLane l) = r.Kept s := by
  simp only [State.resetLane, State.kept_foldl, implies_true, State.kept_modLane, State.kept_stopJob, State.kept_unput]

theorem State.kept_resetBank (b : Nat) : r.Kept (s.resetBank b) = r.Kept s := by
  simp only [State.resetBank, State.kept_clearBank, State.kept_modBank, State.kept_unput]

theorem State.kept_softReset (page : Nat) : r.Kept (s.softReset page) = r.Kept s := by
  unfold State.softReset
  (repeat' split) <;> simp only [State.kept_resetBank, State.kept_resetLane]

theorem State.kept_writePageCtrl (h : r.Kept s) (o : Origin) (page v : Nat) : r.Kept (s.writePageCtrl o page v) := by
  unfold State.writePageCtrl
  (repeat' split) <;> simp only [State.kept_refl, implies_true, State.kept_putBit, State.kept_refuseAccess, State.kept_regCmd, State.kept_softReset, h]

theorem State.kept_writePerturbSel (h : r.Kept s) (o : Origin) (page v : Nat) : r.Kept (s.writePerturbSel o page v) := by
  unfold State.writePerturbSel
  (repeat' split) <;> simp only [ite_self, State.kept_ite, State.kept_refl, implies_true, id_eq, State.kept_auditPerturb, State.kept_put, State.kept_regCmdBy,
    State.kept_setTrust, h]

theorem State.kept_writeHeader (h : r.Kept s) (o : Origin) (page off v : Nat) : r.Kept (s.writeHeader o page off v) := by
  simp only [State.writeHeader, ite_self, State.kept_ite, State.kept_refl, implies_true, id_eq, State.kept_regCmd, State.kept_writeErrCode, State.kept_writeMask,
    State.kept_writePageCtrl, State.kept_writePerturbSel, State.kept_writeSticky, h]

/-! ### Plain fields -/

theorem State.kept_putRow (o : Origin) (page v : Nat) (r' : RegRow) : r.Kept (s.putRow o page v r') = r.Kept s := by
  unfold State.putRow
  (repeat' split) <;> simp only [State.kept_put]

theorem State.kept_putRows (o : Origin) (page off v : Nat) : r.Kept (s.putRows o page off v) = r.Kept s := by
  simp only [State.putRows, ite_self, State.kept_ite, State.kept_foldl, implies_true, State.kept_keepConfig, State.kept_putRow]

theorem State.kept_writePlain (h : r.Kept s) (o : Origin) (page off v : Nat) (locked legal busy : Bool) {deny after : State → State}
    (hdeny : ∀ t : State, t.Kept (deny t)) (hafter : ∀ t : State, t.Kept (after t)) : r.Kept (s.writePlain o page off v locked legal busy deny after) :=
  State.kept_regCmdBy h _ _ _ _ _ _ _ (fun t _ => State.kept_auditWrite t.kept_refl ..) hdeny fun t =>
    ((State.kept_putRows ..).mpr t.kept_refl).trans (hafter _)

/-! ### Registers with conditions of their own -/

theorem State.kept_writeTakeCfg (h : r.Kept s) (o : Origin) (off v : Nat) : r.Kept (s.writeTakeCfg o off v) := by
  simp only [State.writeTakeCfg, State.kept_refl, implies_true, id_eq, State.kept_refuseBlock, State.kept_writePlain, h]

theorem State.kept_writeFallow (h : r.Kept s) (o : Origin) (off v : Nat) : r.Kept (s.writeFallow o off v) := by
  simp only [State.writeFallow, State.kept_refl, implies_true, id_eq, State.kept_showPool, State.kept_writePlain, h]

theorem State.kept_writeProfile (h : r.Kept s) (o : Origin) (off v : Nat) : r.Kept (s.writeProfile o off v) := by
  simp only [State.writeProfile, State.kept_refl, implies_true, State.kept_audit, State.kept_putRows, State.kept_refuseBlock, State.kept_regCmdBy, State.kept_touch, h]

theorem State.kept_writePerturbCtrl (h : r.Kept s) (o : Origin) (v : Nat) : r.Kept (s.writePerturbCtrl o v) := by
  simp only [State.writePerturbCtrl, ite_self, State.kept_ite, State.kept_refl, implies_true, id_eq, State.kept_auditWrite, State.kept_endPerturb, State.kept_put,
    State.kept_regCmdBy, kept_execArm, kept_outState, h]

theorem State.kept_writeAlarm (h : r.Kept s) (o : Origin) (off v : Nat) : r.Kept (s.writeAlarm o off v) := by
  simp only [State.writeAlarm, State.kept_refl, implies_true, id_eq, State.kept_writePlain, h]

theorem State.kept_writeTrim (h : r.Kept s) (o : Origin) (v : Nat) : r.Kept (s.writeTrim o v) := by
  simp only [State.writeTrim, State.kept_refl, implies_true, id_eq, State.kept_putRows, State.kept_rebaseRtc, State.kept_regCmd, h]

theorem State.kept_onBit (h : r.Kept s) (o : Origin) (page off v : Nat) (b : Bool) {act : State} (hact : r.Kept act) : r.Kept (s.onBit o page off v b act) :=
  .ite hact (State.kept_regCmd h _ _ _ _ _ _ (fun t => t.kept_refl) fun t => t.kept_refl)

theorem State.kept_writeModeReq (h : r.Kept s) (o : Origin) (v : Nat) : r.Kept (s.writeModeReq o v) := by
  simp only [State.writeModeReq, ite_self, State.kept_ite, State.kept_refl, implies_true, id_eq, State.kept_regCmd, kept_execModeReqDoze, kept_execModeReqFold, kept_outState, h]

theorem State.kept_writeSafeCtrl (h : r.Kept s) (o : Origin) (v : Nat) : r.Kept (s.writeSafeCtrl o v) := by
  simp only [State.writeSafeCtrl, ite_self, State.kept_ite, State.kept_refl, implies_true, id_eq, State.kept_regCmd, kept_execEnter, kept_execExit, kept_outState, h]

theorem State.kept_writePwr (h : r.Kept s) (o : Origin) (off v : Nat) : r.Kept (s.writePwr o off v) := by
  unfold State.writePwr
  refine .ite (State.kept_writeModeReq h ..) (.ite (State.kept_writeSafeCtrl h ..) (.ite ?_ (.ite ?_ (.ite ?_ ?_))))
  · exact State.kept_onBit h _ _ _ _ _ (kept_outState h (kept_execKick h o))
  · exact State.kept_onBit h _ _ _ _ _ (kept_outState h (kept_execWarm h o))
  · exact State.kept_onBit h _ _ _ _ _ (kept_outState h (kept_execGo h o))
  · exact State.kept_writePlain h _ _ _ _ _ _ _ (fun t => t.kept_refl) fun t => t.kept_refl

theorem State.kept_writeVreg (h : r.Kept s) (o : Origin) (off v : Nat) : r.Kept (s.writeVreg o off v) := by
  unfold State.writeVreg
  (repeat' split) <;> simp only [State.kept_refl, implies_true, id_eq, State.kept_writePlain, kept_execSetMv, kept_outState, h]

theorem State.kept_writeRtc (h : r.Kept s) (o : Origin) (off v : Nat) : r.Kept (s.writeRtc o off v) := by
  unfold State.writeRtc
  refine .ite ?_ (.ite (State.kept_writeTrim h ..) (.ite (State.kept_writeAlarm h ..) ?_))
  · exact State.kept_onBit h _ _ _ _ _ (kept_outState h (kept_execRtcLoad h o))
  · exact State.kept_writePlain h _ _ _ _ _ _ _ (fun t => t.kept_refl) fun t => t.kept_refl

theorem State.kept_writeAuthCtrl (h : r.Kept s) (o : Origin) (v : Nat) : r.Kept (s.writeAuthCtrl o v) := by
  simp only [State.writeAuthCtrl, ite_self, State.kept_ite, State.kept_refl, implies_true, id_eq, State.kept_authCtrl, State.kept_regCmd, State.kept_stepChallenge,
    State.kept_stepDrop, State.kept_stepRespond, h]

theorem State.kept_writeDigest (h : r.Kept s) (o : Origin) (off v : Nat) : r.Kept (s.writeDigest o off v) := by
  simp only [State.writeDigest, ite_self, State.kept_ite, State.kept_refl, implies_true, id_eq, State.kept_writeFeedCtrl, State.kept_writeFeedWord, State.kept_writeLastWord,
    State.kept_writePlain, h]

theorem State.kept_writeNand (h : r.Kept s) (o : Origin) (c off v : Nat) : r.Kept (s.writeNand o c off v) := by
  simp only [State.writeNand, ite_self, State.kept_ite, State.kept_refl, implies_true, id_eq, State.kept_fresh, State.kept_writePlain, State.kept_writePwrCtrl,
    State.kept_writeTrainCtrl, h]

/-! ### A write -/

theorem State.kept_writeBlock (h : r.Kept s) (o : Origin) (page : Nat) (k : PageKind) (off v : Nat) : r.Kept (s.writeBlock o page k off v) := by
  unfold State.writeBlock
  (repeat' split) <;> simp only [State.kept_refl, implies_true, id_eq, State.kept_claim, State.kept_writeAuthCtrl, State.kept_writeBankCfg, State.kept_writeConsume,
    State.kept_writeCoreCtrl, State.kept_writeDigest, State.kept_writeDramRetire, State.kept_writeFallow, State.kept_writeKeyCtrl, State.kept_writeLaneCtrl,
    State.kept_writeLinkCtrl, State.kept_writeMediaCtrl, State.kept_writeNand, State.kept_writePerturbCtrl, State.kept_writePlain, State.kept_writeProfile,
    State.kept_writePwr, State.kept_writeReshapeCtrl, State.kept_writeRetireCtrl, State.kept_writeRtc, State.kept_writeSwFire, State.kept_writeTakeCfg, State.kept_writeVreg,
    h]

theorem State.kept_writeReg (h : r.Kept s) (o : Origin) (page off v : Nat) : r.Kept (s.writeReg o page off v) := by
  unfold State.writeReg
  (repeat' split) <;> simp only [State.kept_writeBlock, State.kept_writeHeader, h]

theorem State.kept_holdLow (h : r.Kept s) (o : Origin) (page off v : Nat) : r.Kept (s.holdLow o page off v) :=
  .ite h (State.kept_regCmdBy h _ _ _ _ _ _ _ (fun t _ => t.kept_refl) (fun t => t.kept_refl) fun t => t.kept_refl)

theorem State.kept_write32 (h : r.Kept s) (o : Origin) (page off v : Nat) : r.Kept (s.write32 o page off v) := by
  simp only [State.write32, ite_self, State.kept_ite, State.kept_dropLow, State.kept_holdLow, State.kept_refuseAccess, State.kept_writeReg, h]

theorem State.kept_writeHalf (h : r.Kept s) (o : Origin) (page off v : Nat) : r.Kept (s.writeHalf o page off v) := by
  simp only [State.writeHalf, ite_self, State.kept_mk, State.keepsAs_self, State.kept_ite, State.kept_refuseAccess, State.kept_writeReg, h]

theorem State.kept_regWrite (h : r.Kept s) (o : Origin) (page off len v : Nat) : r.Kept (s.regWrite o page off len v) := by
  simp only [State.regWrite, ite_self, State.kept_ite, State.kept_dropLow, State.kept_noPage, State.kept_refuseAccess, State.kept_write32, State.kept_writeHalf,
    State.kept_writeReg, h]

/-! ### A read -/

theorem State.kept_regRead (o : Origin) (page off len : Nat) : r.Kept (s.regRead o page off len).1 = r.Kept s := by
  unfold State.regRead
  (repeat' split) <;> simp only [State.kept_mk, State.keepsAs_self, State.kept_refuseAccess]

/-! ### Commands -/

theorem kept_execRegisterWrite (h : r.Kept s) (o : Origin) (page off len : Nat) (v : BitVec 64) : r.KeptOut (execRegisterWrite o page off len v s) := by
  simp only [execRegisterWrite, State.keptOut_next, State.kept_regWrite, h]

theorem kept_execRegisterRead (h : r.Kept s) (o : Origin) (page off len : Nat) : r.KeptOut (execRegisterRead o page off len s) := by
  simp only [execRegisterRead, State.kept_mk, State.keepsAs_self, State.keptOut_next, State.kept_regRead, h]

theorem kept_execErrCodeClear (h : r.Kept s) (o : Origin) (page : Nat) : r.KeptOut (execErrCodeClear o page s) := by
  simp only [execErrCodeClear, State.keptOut_next, State.kept_regWrite, h]

theorem kept_execEnableClear (h : r.Kept s) (o : Origin) (page : Nat) : r.KeptOut (execEnableClear o page s) := by
  simp only [execEnableClear, State.keptOut_next, State.kept_regWrite, h]

theorem kept_execSoftReset (h : r.Kept s) (o : Origin) (page : Nat) : r.KeptOut (execSoftReset o page s) := by
  simp only [execSoftReset, State.keptOut_next, State.kept_regWrite, h]

theorem kept_execPerturbPointSelect (h : r.Kept s) (o : Origin) (page : Nat) (point : BitVec 8) : r.KeptOut (execPerturbPointSelect o page point s) := by
  simp only [execPerturbPointSelect, State.keptOut_next, State.kept_regWrite, h]

theorem kept_execPendingLowDiscard (h : r.Kept s) (o : Origin) : r.KeptOut (execPendingLowDiscard o s) := by
  unfold execPendingLowDiscard
  (repeat' split) <;> simp only [State.kept_mk, State.keepsAs_self, State.keptOut_next, h]

/-! ### Register requests as packets -/

theorem State.kept_runReq (h : r.Kept s) (o : Origin) (p : CtrlReqPkt) : r.Kept (s.runReq o p).2 := by
  unfold State.runReq
  extract_lets page off u q t
  have hu : r.Kept u := h
  split
  · exact hu
  split
  · exact (State.kept_regRead ..).mpr hu
  · split
    · exact State.kept_regWrite hu ..
    · exact State.kept_regWrite hu ..

theorem State.kept_answerReq (tag : Nat) (a : RegAnswer) : r.Kept (s.answerReq tag a) = r.Kept s := by
  simp only [State.answerReq, ite_self, State.kept_ite, State.kept_send]

theorem kept_execCtrlReq (h : r.Kept s) (p : CtrlReqPkt) : r.KeptOut (execCtrlReq p s) := by
  simp only [execCtrlReq, ite_self, State.keptOut_next, State.keptOut_ite, State.kept_answerReq, State.kept_leaveRx, State.kept_pulse, State.kept_record, State.kept_runReq, h]

/-! ### At each member -/

theorem State.kept_prepareStart (opId t : Nat) (param : Bytes) : r.Kept (s.prepareStart opId t param).2 = r.Kept s := by
  unfold State.prepareStart
  dsimp only
  (repeat' split) <;> simp only [State.kept_follow, State.kept_puts, State.kept_reserveLanes, State.kept_setDrove, State.kept_setTake]

theorem State.kept_actOrder (opId op phase t : Nat) (param : Bytes) : r.Kept (s.actOrder opId op phase t param).2 = r.Kept s := by
  unfold State.actOrder
  dsimp only
  (repeat' split) <;> simp only [State.kept_disarm, State.kept_prepareStart, State.kept_setDrove]

theorem State.kept_answer (opId phase : Nat) (a : Nat × Nat × Bytes) : r.Kept (s.answer opId phase a) = r.Kept s := by
  simp only [State.answer, State.kept_bump, State.kept_setDrove]

theorem State.kept_sendReply (opId : Nat) (a : Nat × Nat × Bytes) : r.Kept (s.sendReply opId a) = r.Kept s := by
  simp only [State.sendReply, State.kept_setSend]

/-! ### Completion at the issuer -/

theorem State.kept_completeSet (h : r.Kept s) (tag status dw0 dw1 : Nat) (data : Bytes) : r.Kept (s.completeSet tag status dw0 dw1 data) := by
  unfold State.completeSet
  (repeat' split) <;> simp only [State.kept_completeAdmin, State.kept_setHost, State.kept_toHost, h]

theorem State.kept_sendResult (op : SetOp) (status dw0 dw1 : Nat) : r.Kept (s.sendResult op status dw0 dw1) = r.Kept s := by
  simp only [State.sendResult, State.kept_foldl, implies_true, State.kept_setSend]

theorem State.kept_finishOp (h : r.Kept s) (op : SetOp) (status dw0 dw1 : Nat) : r.Kept (s.finishOp op status dw0 dw1) := by
  simp only [State.finishOp, ite_self, State.kept_ite, State.kept_completeSet, State.kept_sendResult, h]

/-! ### At the manager -/

theorem State.kept_modCur (f : SetOp → SetOp) : r.Kept (s.modCur f) = r.Kept s := by simp only [State.modCur, State.kept_setDrove]

theorem State.kept_mirror : r.Kept s.mirror.2 = r.Kept s := by
  unfold State.mirror
  (repeat' split) <;> simp only [State.kept_freshBytes, State.kept_setDrove, State.kept_setSend]

theorem State.kept_broadcast (op : SetOp) : r.Kept (s.broadcast op) = r.Kept s := by simp only [State.broadcast, State.kept_setSend]

theorem State.kept_reform : r.Kept s.reform = r.Kept s := by simp only [State.reform, State.kept_announce, State.kept_setDrove, State.kept_setEpoch]

theorem State.kept_emptyQueue (h : r.Kept s) : r.Kept s.emptyQueue := by
  simp only [State.emptyQueue, State.kept_foldl_of, State.kept_refl, implies_true, State.kept_finishOp, State.kept_setDrove, h]

theorem State.kept_endCur (h : r.Kept s) (op : SetOp) (status dw0 dw1 : Nat) : r.Kept (s.endCur op status dw0 dw1) := by
  simp only [State.endCur, State.kept_finishOp, State.kept_setDrove, h]

theorem State.kept_launch : r.Kept s.launch = r.Kept s := by
  unfold State.launch
  split
  next => rfl
  next op _ =>
    split
    · rfl
    · extract_lets op' t
      have ht : r.Kept t = r.Kept s := by simp only [t, State.kept_broadcast, State.kept_modCur]
      clear_value t op'
      split
      next e => exact (State.kept_snd e (State.kept_actOrder ..)).trans ht
      next e => exact ((State.kept_modCur ..).trans (State.kept_answer ..)).trans ((State.kept_snd e (State.kept_actOrder ..)).trans ht)

theorem State.kept_phaseDone (h : r.Kept s) : r.Kept s.phaseDone := by
  unfold State.phaseDone
  (repeat' split) <;> simp only [ite_self, State.kept_ite, State.kept_emptyQueue, State.kept_endCur, State.kept_mirror, State.kept_modCur, State.kept_reform,
    State.kept_setDrove, h]

theorem State.kept_popSetOp (h : r.Kept s) : r.Kept s.popSetOp := by
  unfold State.popSetOp
  (repeat' split) <;> simp only [State.kept_endCur, State.kept_setDrove, h]

theorem State.kept_runOps (h : r.Kept s) (f : Nat) : r.Kept (State.runOps f s) := by
  induction f generalizing s with
  | zero => exact h
  | succ f ih => exact ih (State.kept_phaseDone ((State.kept_launch ..).mpr (State.kept_popSetOp h)))

theorem State.kept_goOps (h : r.Kept s) : r.Kept s.goOps := State.kept_runOps h 30

theorem State.kept_offerOp (h : r.Kept s) (op : SetOp) : r.Kept (s.offerOp op) := by
  simp only [State.offerOp, ite_self, State.kept_ite, State.kept_droveErr, State.kept_finishOp, State.kept_goOps, State.kept_mirror, State.kept_setDrove, h]

theorem State.kept_dropHeld (tag : Nat) : r.Kept (s.dropHeld tag) = r.Kept s := by simp only [State.dropHeld, State.kept_setDrove]

theorem State.kept_forwardAccess (h : r.Kept s) (op : SetOp) : r.Kept (s.forwardAccess op) := by
  simp only [State.forwardAccess, ite_self, State.kept_ite, State.kept_completeSet, State.kept_dropHeld, State.kept_runReq, State.kept_setDrove, State.kept_setSend, h]

theorem State.kept_forwardOp (h : r.Kept s) (op : SetOp) : r.Kept (s.forwardOp op) := by
  simp only [State.forwardOp, ite_self, State.kept_ite, State.kept_dropHeld, State.kept_forwardAccess, State.kept_offerOp, State.kept_setSend, h]

theorem State.kept_resumeHeld (h : r.Kept s) : r.Kept s.resumeHeld := by
  simp only [State.resumeHeld, State.kept_foldl_of, State.kept_refl, implies_true, State.kept_forwardOp, h]

theorem State.kept_yieldOps (h : r.Kept s) : r.Kept s.yieldOps := by
  simp only [State.yieldOps, ite_self, State.kept_foldl_of, State.kept_ite, State.kept_refl, implies_true, State.kept_completeSet, State.kept_setDrove, h]

/-! ### Liveness and quorum (R514, R516) -/

theorem State.kept_reQuorum (h : r.Kept s) : r.Kept s.reQuorum := by
  simp only [State.reQuorum, ite_self, State.kept_ite, State.kept_droveErr, State.kept_goOps, State.kept_pulse, State.kept_resumeHeld, State.kept_setDrove, h]

theorem State.kept_endTaking (h : r.Kept s) : r.Kept s.endTaking := by
  simp only [State.endTaking, ite_self, State.kept_ite, State.kept_bump, State.kept_droveErr, State.kept_goOps, State.kept_pulse, State.kept_resumeHeld, State.kept_setDrove, h]

theorem State.kept_failover (h : r.Kept s) : r.Kept s.failover := by
  simp only [State.failover, State.kept_endRolesOf, State.kept_endTaking, State.kept_goLine, State.kept_sendForm, State.kept_setDrove, State.kept_setEpoch, h]

theorem State.kept_chooseStandby (h : r.Kept s) : r.Kept s.chooseStandby := by
  simp only [State.chooseStandby, ite_self, State.kept_ite, State.kept_goOps, State.kept_setDrove, h]

/-! ### Links -/

theorem State.kept_takeRole : r.Kept s.takeRole = r.Kept s := by simp only [State.takeRole, ite_self, State.kept_ite, State.kept_setDrove]

theorem kept_execDroveLinkUp (h : r.Kept s) (p : Port) : r.KeptOut (execDroveLinkUp p s) := by
  simp only [execDroveLinkUp, ite_self, State.keptOut_next, State.keptOut_ite, State.kept_droveDone, State.kept_linkSend, State.kept_modLink, State.kept_takeRole, h]

theorem State.kept_linkLeft (p : Port) : r.Kept (s.linkLeft p) = r.Kept s := by
  simp only [State.linkLeft, ite_self, State.kept_ite, State.kept_announce, State.kept_goLine, State.kept_setSend]

theorem kept_execDroveLinkDown (h : r.Kept s) (p : Port) : r.KeptOut (execDroveLinkDown p s) := by
  simp only [execDroveLinkDown, ite_self, State.kept_ite, State.keptOut_next, State.keptOut_ite, State.kept_droveDone, State.kept_droveErr, State.kept_linkLeft,
    State.kept_modLink, State.kept_pulse, h]

theorem State.kept_droveArea (p : Port) (x0 : Nat) {x1 : State} (x2 : Bytes) : r.Kept (State.droveArea p x0 x1 x2) = r.Kept x1 :=
  State.kept_of_forget (State.forget_droveArea (T := 0xFFFFFFFFFFBFF7FE) rfl ..)

theorem kept_execDroveFlitRx (h : r.Kept s) (p : Port) (f : Flit) : r.KeptOut (execDroveFlitRx p f s) := by
  simp only [execDroveFlitRx, ite_self, State.kept_ite, State.keptOut_next, State.keptOut_ite, State.kept_droveArea, State.kept_droveDone, State.kept_modLink, h]

theorem kept_execDroveReplayTimeout (h : r.Kept s) (p : Port) : r.KeptOut (execDroveReplayTimeout p s) := by
  simp only [execDroveReplayTimeout, ite_self, State.kept_mk, State.keepsAs_self, State.keptOut_next, State.keptOut_ite, State.kept_droveDone, State.kept_modLink, h]

/-! ### Formation -/

theorem State.kept_refuseLink (p : Port) (why code member : Nat) : r.Kept (s.refuseLink p why code member) = r.Kept s := by
  simp only [State.refuseLink, State.kept_droveErr, State.kept_modLink]

theorem kept_execIdent (h : r.Kept s) (q : IdentPkt) : r.KeptOut (execIdent q s) := by
  simp only [execIdent, ite_self, State.kept_ite, State.keptOut_next, State.keptOut_ite, State.kept_droveDone, State.kept_droveErr, State.kept_modLink, State.kept_pulse,
    State.kept_refuseLink, State.kept_resendForm, State.kept_sendForm, State.kept_setDrove, State.kept_takePkt, h]

theorem State.kept_ringClosed (h : r.Kept s) (next topology : Nat) : r.Kept (s.ringClosed next topology) := by
  simp only [State.ringClosed, ite_self, State.kept_ite, State.kept_announce, State.kept_pulse, State.kept_reQuorum, State.kept_setDrove, h]

theorem State.kept_takeForm (h : r.Kept s) (q : FormPkt) : r.Kept (s.takeForm q) := by
  unfold State.takeForm
  extract_lets d p top mgr changed s1 s2 s3 direct s4 swap new t s5 s6
  have h5 : r.Kept s5 := by
    dsimp only [s5, t, s4, s3, s2, s1]
    simp only [State.kept_ite, State.kept_pulse, State.kept_droveErr, State.kept_setDrove, State.kept_goLine, State.kept_setEpoch,
      State.kept_yieldOps, ite_self, h]
  have h6 : r.Kept s6 := .ite (State.kept_endRolesOf h5 ..) h5
  exact .ite (State.kept_resumeHeld h6) h6

theorem State.kept_formOn (q : FormPkt) : r.Kept (s.formOn q) = r.Kept s := by simp only [State.formOn, ite_self, State.kept_ite, State.kept_setSend]

theorem kept_execForm (h : r.Kept s) (q : FormPkt) : r.KeptOut (execForm q s) := by
  simp only [execForm, ite_self, State.keptOut_next, State.keptOut_ite, State.kept_announce, State.kept_droveDone, State.kept_formOn, State.kept_goLine, State.kept_refuseLink,
    State.kept_ringClosed, State.kept_takeForm, State.kept_takePkt, h]

/-! ### Liveness -/

theorem kept_execDroveHeartbeat (h : r.Kept s) (q : DroveHbPkt) : r.KeptOut (execDroveHeartbeat q s) := by
  unfold execDroveHeartbeat
  extract_lets m ok t x u v
  have ht : r.Kept t := (State.kept_takePkt ..).mpr h
  have hv : r.Kept v := by simp only [v, u, State.kept_passOn, State.kept_setDrove, ht]
  exact State.keptOut_of_ite ((State.kept_droveDone ..).mpr ht) ((State.kept_droveDone ..).mpr (State.kept_chooseStandby (State.kept_endTaking (State.kept_reQuorum hv))))

theorem State.kept_endQuiesce (h : r.Kept s) : r.Kept s.endQuiesce := by
  unfold State.endQuiesce
  (repeat' split) <;> simp only [ite_self, State.kept_ite, State.kept_answer, State.kept_goOps, State.kept_modCur, State.kept_sendReply, State.kept_setDrove, h]

theorem kept_execDroveHeartbeatTx (h : r.Kept s) : r.KeptOut (execDroveHeartbeatTx s) := by
  simp only [execDroveHeartbeatTx, ite_self, State.keptOut_next, State.keptOut_ite, State.kept_droveDone, State.kept_endQuiesce, State.kept_setSend, h]

theorem kept_execDroveMemberTimeout (h : r.Kept s) (m : Fin 32) : r.KeptOut (execDroveMemberTimeout m s) := by
  unfold execDroveMemberTimeout
  split
  next => exact h
  next x _ =>
    extract_lets t1 t2 mgr t3 t4 t5
    have h1 : r.Kept t1 := h
    clear_value t1
    have h3 : r.Kept t3 := by simp only [t3, t2, State.kept_ite, State.kept_bump, State.kept_setDrove, ite_self, h1]
    have h4 : r.Kept t4 := State.kept_chooseStandby (State.kept_reQuorum h3)
    have h5 : r.Kept t5 := .ite (State.kept_failover h4) h4
    exact (State.kept_droveDone ..).mpr (State.kept_goOps (State.kept_endTaking h5))

/-! ### Set time -/

theorem kept_execDroveTimeTx (h : r.Kept s) : r.KeptOut (execDroveTimeTx s) := by
  simp only [execDroveTimeTx, State.keptOut_next, State.kept_droveDone, State.kept_setSend, h]

theorem kept_execTime (h : r.Kept s) (q : TimePkt) : r.KeptOut (execTime q s) := by
  simp only [execTime, ite_self, State.keptOut_next, State.keptOut_ite, State.kept_discipline, State.kept_droveDone, State.kept_modLink, State.kept_takePkt, h]

theorem kept_execSyncInEdge (h : r.Kept s) (rising : Bool) : r.KeptOut (execSyncInEdge rising s) := by
  simp only [execSyncInEdge, ite_self, State.keptOut_next, State.keptOut_ite, State.kept_discipline, State.kept_setDrove, State.kept_showDrove, h]

theorem kept_execSyncInLoss (h : r.Kept s) : r.KeptOut (execSyncInLoss s) := by
  unfold execSyncInLoss
  (repeat' split) <;> simp only [State.kept_mk, State.keepsAs_self, State.keptOut_next, State.kept_droveErr, State.kept_pulse, State.kept_setDrove, State.kept_showDrove, h]

theorem kept_execDroveTimeFault (h : r.Kept s) : r.KeptOut (execDroveTimeFault s) := by
  unfold execDroveTimeFault
  (repeat' split) <;> simp only [State.kept_mk, State.keepsAs_self, State.keptOut_next, State.kept_droveErr, State.kept_pulse, State.kept_setDrove, h]

/-! ### Operations -/

theorem State.kept_requested (h : r.Kept s) (q : OrderPkt) : r.Kept (s.requested q) := by simp only [State.requested, State.kept_offerOp, h]

theorem State.kept_takeOver (h : r.Kept s) : r.Kept s.takeOver := by
  simp only [State.takeOver, ite_self, State.kept_ite, State.kept_announce, State.kept_endRolesOf, State.kept_setDrove, State.kept_setEpoch, h]

theorem kept_execOrder (h : r.Kept s) (q : OrderPkt) : r.KeptOut (execOrder q s) := by
  unfold execOrder
  extract_lets d ok t u mine op ph
  have ht : r.Kept t := (State.kept_takePkt ..).mpr h
  have hu : r.Kept u := (State.kept_passOn ..).mpr ht
  clear_value u t
  refine State.keptOut_of_ite ((State.kept_droveDone ..).mpr ht) (State.keptOut_of_ite ((State.kept_droveDone ..).mpr hu) ?_)
  refine State.keptOut_of_ite ((State.kept_droveDone ..).mpr (.ite (State.kept_requested hu _) hu)) ?_
  split
  next => exact (State.kept_droveDone ..).mpr ((State.kept_sendReply ..).mpr hu)
  next =>
    split
    next e => exact (State.kept_droveDone ..).mpr (Eq.mpr (State.kept_snd e (State.kept_actOrder ..)) hu)
    next e =>
      exact (State.kept_droveDone ..).mpr (State.kept_takeOver ((State.kept_sendReply ..).mpr ((State.kept_answer ..).mpr
        (Eq.mpr (State.kept_snd e (State.kept_actOrder ..)) hu))))

theorem State.kept_replied (h : r.Kept s) (q : ReplyPkt) : r.Kept (s.replied q) := by
  simp only [State.replied, ite_self, State.kept_ite, State.kept_chooseStandby, State.kept_goOps, State.kept_modCur, State.kept_setDrove, h]

theorem State.kept_resulted (h : r.Kept s) (q : ReplyPkt) : r.Kept (s.resulted q) := by
  unfold State.resulted
  dsimp only
  (repeat' split) <;> simp only [State.kept_completeSet, State.kept_setDrove, h]

theorem kept_execReply (h : r.Kept s) (q : ReplyPkt) : r.KeptOut (execReply q s) := by
  simp only [execReply, ite_self, State.kept_ite, State.keptOut_next, State.keptOut_ite, State.kept_droveDone, State.kept_passOn, State.kept_replied, State.kept_resulted,
    State.kept_takePkt, h]

theorem kept_execMirror (h : r.Kept s) (q : MirrorPkt) : r.KeptOut (execMirror q s) := by
  simp only [execMirror, ite_self, State.keptOut_next, State.keptOut_ite, State.kept_droveDone, State.kept_droveErr, State.kept_passOn, State.kept_sendReply,
    State.kept_setDrove, State.kept_takePkt, h]

theorem kept_execRegReq (h : r.Kept s) (q : RegReqPkt) : r.KeptOut (execRegReq q s) := by
  simp only [execRegReq, ite_self, State.keptOut_next, State.keptOut_ite, State.kept_droveDone, State.kept_passOn, State.kept_runReq, State.kept_setSend, State.kept_takePkt, h]

theorem kept_execRegRsp (h : r.Kept s) (q : RegRspPkt) : r.KeptOut (execRegRsp q s) := by
  unfold execRegRsp
  dsimp only
  (repeat' split) <;> simp only [State.keptOut_next, State.kept_completeSet, State.kept_dropHeld, State.kept_droveDone, State.kept_passOn, State.kept_takePkt, h]

end Sys2Proof.Machine
end

section
/-!
What each of the model's functions keeps (`State.Kept`), in the model's order: SET SERVICE and armed starts, frames of a take, Identify and log pages,
namespaces, and the idle step.
-/

namespace Sys2Proof.Machine

open Sys2Proof.Laws

variable {r s : State} {x : Ctx}

/-! ### STATUS (R524) -/

theorem State.kept_serialOf (m : Nat) : r.Kept (s.serialOf m).2 = r.Kept s := by
  unfold State.serialOf
  dsimp only
  (repeat' split) <;> simp only [State.kept_freshBytes]

theorem State.kept_statusEntry (m : Nat) : r.Kept (s.statusEntry m).2 = r.Kept s := by
  unfold State.statusEntry
  dsimp only
  (repeat' split) <;> simp only [State.kept_fresh, State.kept_freshBytes, State.kept_serialOf]

theorem State.kept_statusEntries : r.Kept s.statusEntries.2 = r.Kept s := by
  unfold State.statusEntries
  exact List.foldlRecOn (motive := fun p : Bytes × State => r.Kept p.2 = r.Kept s) _ _ rfl fun p hp m _ => (State.kept_statusEntry ..).trans hp

theorem kept_execSetServiceStatus (h : r.Kept s) (c : Cmd) : r.KeptOut (execSetServiceStatus c s) := by
  simp only [execSetServiceStatus, ite_self, State.keptOut_next, State.keptOut_ite, State.kept_completeAdmin, State.kept_completeData, State.kept_statusEntries, h]

/-! ### Operations -/

theorem State.kept_issueOp (h : r.Kept s) (c : Cmd) (op t : Nat) (param : Bytes) : r.Kept (s.issueOp c op t param) := by
  simp only [State.issueOp, State.kept_await, State.kept_droveDone, State.kept_forwardOp, State.kept_setDrove, h]

theorem State.kept_setService (h : r.Kept s) (c : Cmd) (action : Nat) (role : Option Role) (cdw12 cdw13 : Nat) {act : State → State}
    (hact : ∀ t : State, t.Kept (act t)) : r.Kept (s.setService c action role cdw12 cdw13 act) := by
  unfold State.setService
  refine .ite ((State.kept_completeAdmin ..).mpr h) ?_
  split
  · exact h.trans (hact s)
  · exact .ite ((State.kept_completeAdmin ..).mpr h) ((State.kept_auditVendor h ..).trans (hact _))

theorem kept_execArmTake (h : r.Kept s) (c : Cmd) (t : BitVec 64) (data : Bytes) : r.KeptOut (execArmTake c t data s) := by
  simp only [execArmTake, ite_self, State.kept_ite, State.kept_refl, implies_true, State.keptOut_next, State.keptOut_ite, State.kept_completeAdmin, State.kept_issueOp,
    State.kept_setService, h]

theorem kept_execCancel (h : r.Kept s) (c : Cmd) (opId : BitVec 32) : r.KeptOut (execCancel c opId s) := by
  simp only [execCancel, ite_self, State.kept_refl, implies_true, State.keptOut_next, State.keptOut_ite, State.kept_issueOp, State.kept_setService, h]

theorem kept_execBarrier (h : r.Kept s) (c : Cmd) : r.KeptOut (execBarrier c s) := by
  simp only [execBarrier, ite_self, State.kept_refl, implies_true, State.keptOut_next, State.keptOut_ite, State.kept_issueOp, State.kept_setService, h]

theorem kept_execSnapshot (h : r.Kept s) (c : Cmd) : r.KeptOut (execSnapshot c s) := by
  simp only [execSnapshot, ite_self, State.kept_refl, implies_true, State.keptOut_next, State.keptOut_ite, State.kept_issueOp, State.kept_setService, h]

theorem kept_execSetReset (h : r.Kept s) (c : Cmd) : r.KeptOut (execSetReset c s) := by
  simp only [execSetReset, ite_self, State.kept_refl, implies_true, State.keptOut_next, State.keptOut_ite, State.kept_issueOp, State.kept_setService, h]

theorem kept_execHandback (h : r.Kept s) (c : Cmd) : r.KeptOut (execHandback c s) := by
  simp only [execHandback, ite_self, State.kept_refl, implies_true, State.keptOut_next, State.keptOut_ite, State.kept_issueOp, State.kept_setService, h]

theorem kept_execRegAccess (h : r.Kept s) (c : Cmd) (member : BitVec 8) (p : CtrlReqPkt) : r.KeptOut (execRegAccess c member p s) := by
  simp only [execRegAccess, ite_self, State.kept_ite, State.keptOut_next, State.keptOut_ite, State.kept_auditVendor, State.kept_completeAdmin, State.kept_issueOp, h]

theorem kept_execSetServiceTimeout (h : r.Kept s) : r.KeptOut (execSetServiceTimeout s) := by
  unfold execSetServiceTimeout
  (repeat' split) <;> simp only [State.kept_mk, State.keepsAs_self, State.keptOut_next, State.kept_completeSet, State.kept_setDrove, h]

/-! ### Armed starts -/

theorem kept_execArmedStart (h : r.Kept s) : r.KeptOut (execArmedStart s) := by
  unfold execArmedStart
  (repeat' split) <;> simp only [State.kept_mk, State.keepsAs_self, State.keptOut_next, State.kept_grantTake, State.kept_put, State.kept_reserveLanes, State.kept_setDrove, h]

theorem kept_execDroveStartLost (h : r.Kept s) : r.KeptOut (execDroveStartLost s) := by
  unfold execDroveStartLost
  (repeat' split) <;> simp only [State.kept_mk, State.keepsAs_self, State.keptOut_next, State.kept_disarm, State.kept_droveErr, State.kept_pulse, h]

/-! ### Frames of a take -/

theorem State.kept_refuseBegin (stream number code : Nat) : r.Kept (s.refuseBegin stream number code) = r.Kept s := by
  simp only [State.refuseBegin, State.kept_bump, State.kept_flushAcks, State.kept_gateErr, State.kept_pulse, State.kept_setTake]

theorem State.kept_lateFrames (capture : Nat) : r.Kept (s.lateFrames capture) = r.Kept s := by
  simp only [State.lateFrames, ite_self, State.kept_ite, State.kept_foldl, implies_true, State.kept_modWin, State.kept_pulse, State.kept_trigErr]

theorem State.kept_beginFrame (p : FrameBeginPkt) : r.Kept (s.beginFrame p) = r.Kept s := by
  simp only [State.beginFrame, ite_self, State.kept_ite, State.kept_gateErr, State.kept_lateFrames, State.kept_pulse, State.kept_setTake, State.kept_showStreams]

theorem kept_execFrameBegin (h : r.Kept s) (p : FrameBeginPkt) : r.KeptOut (execFrameBegin p s) := by
  unfold execFrameBegin
  dsimp only
  (repeat' split) <;> simp only [State.keptOut_next, State.kept_beginFrame, State.kept_endFrame, State.kept_gateErr, State.kept_leaveRx, State.kept_pulse,
    State.kept_refuseBegin, State.kept_setTake, h]

theorem State.kept_noFrame (stream number : Nat) : r.Kept (s.noFrame stream number) = r.Kept s := by
  simp only [State.noFrame, ite_self, State.kept_ite, State.kept_gateErr]

theorem kept_execFrameData (h : r.Kept s) (p : FrameDataPkt) : r.KeptOut (execFrameData p s) := by
  unfold execFrameData
  dsimp only
  (repeat' split) <;> simp only [State.keptOut_next, State.kept_bump, State.kept_gateErr, State.kept_leaveRx, State.kept_modFrame, State.kept_noFrame, State.kept_pulse,
    State.kept_queueSlices, State.kept_setTake, h]

theorem kept_execFrameEnd (h : r.Kept s) (p : FrameEndPkt) : r.KeptOut (execFrameEnd p s) := by
  unfold execFrameEnd
  dsimp only
  (repeat' split) <;> simp only [State.keptOut_next, State.kept_endFrame, State.kept_leaveRx, State.kept_noFrame, State.kept_setTake, h]

theorem kept_execMetaPacket (h : r.Kept s) (p : MetaPkt) : r.KeptOut (execMetaPacket p s) := by
  unfold execMetaPacket
  dsimp only
  (repeat' split) <;> simp only [State.keptOut_next, State.kept_gateErr, State.kept_leaveRx, State.kept_modFrame, State.kept_noFrame, State.kept_pulse, h]

theorem State.kept_showSummary (f : FrameSt) (key : List Nat) : r.Kept (s.showSummary f key) = r.Kept s := by
  simp only [State.showSummary, State.kept_foldl, implies_true, State.kept_bump, State.kept_put, State.kept_puts]

theorem kept_execSummaryKeyComplete (h : r.Kept s) (uid : Nat) : r.KeptOut (execSummaryKeyComplete uid s) := by
  unfold execSummaryKeyComplete
  (repeat' split) <;> simp only [ite_self, State.kept_ite, State.keptOut_next, State.kept_bump, State.kept_finishFrame, State.kept_modFrame, State.kept_pulse, State.kept_record,
    State.kept_settle, State.kept_showSummary, h]

theorem State.kept_releaseSlice (c : Contract) (f : FrameSt) (x : TakeSlice) : r.Kept (s.releaseSlice c f x) = r.Kept s := by
  unfold State.releaseSlice
  dsimp only
  (repeat' split) <;> simp only [State.kept_foldl, implies_true, State.kept_appendIndex, State.kept_appendRaw, State.kept_modFrame, State.kept_pinArriving, State.kept_setTake]

theorem kept_execSliceRelease (h : r.Kept s) : r.KeptOut (execSliceRelease s) := by
  unfold execSliceRelease
  (repeat' split) <;> simp only [State.keptOut_next, State.kept_finishFrame, State.kept_releaseSlice, State.kept_settle, h]

/-! ### Identify -/

theorem State.kept_identifyNs (n : Ns) : r.Kept (s.identifyNs n).2 = r.Kept s := by simp only [State.identifyNs, State.kept_freshBytes]

theorem State.kept_identifyCtrl (fn : Nat) : r.Kept (s.identifyCtrl fn).2 = r.Kept s := by simp only [State.identifyCtrl, State.kept_freshBytes]

theorem kept_execIdentify (h : r.Kept s) (c : Cmd) (cns cntid : Nat) : r.KeptOut (execIdentify c cns cntid s) := by
  unfold execIdentify
  dsimp only
  (repeat' split) <;> simp only [State.keptOut_next, State.kept_completeAdmin, State.kept_completeData, State.kept_freshBytes, State.kept_identifyCtrl, State.kept_identifyNs, h]

/-! ### Standard pages -/

theorem State.kept_smartPage : r.Kept s.smartPage.2 = r.Kept s := by simp only [State.smartPage, State.kept_freshBytes]

theorem State.kept_slotPage : r.Kept s.slotPage.2 = r.Kept s := by simp only [State.slotPage, State.kept_freshBytes]

/-! ### The command -/

theorem State.kept_logPage (fn lid : Nat) {p : Bytes × State} (e : s.logPage fn lid = .ok p) : r.Kept p.2 = r.Kept s := by
  unfold State.logPage at e
  split at e
  · cases e
    rfl
  split at e
  · cases e
    exact State.kept_smartPage ..
  split at e
  · cases e
    exact State.kept_slotPage ..
  split at e
  · cases e
    rfl
  split at e
  · cases e
    rfl
  split at e
  · cases e
    rfl
  split at e
  · cases e
    rfl
  split at e
  · split at e
    · cases e
      rfl
    · cases e
  split at e
  · split at e
    · cases e
      exact State.kept_touch ..
    · cases e
  split at e
  · cases e
    rfl
  · cases e

theorem State.kept_clearPage (fn lid : Nat) : r.Kept (s.clearPage fn lid) = r.Kept s := by simp only [State.clearPage, State.kept_setHost]

theorem State.kept_consumePage (fn off len : Nat) : r.Kept (s.consumePage fn off len) = r.Kept s := by
  simp only [State.consumePage, ite_self, State.kept_ite, State.kept_consumeDev, State.kept_consumeFunc]

theorem kept_execGetLogPage (h : r.Kept s) (c : Cmd) (lid : Nat) (lsp : BitVec 4) (rae : Bool) (off len : Nat) : r.KeptOut (execGetLogPage c lid lsp rae off len s) := by
  unfold execGetLogPage
  refine State.keptOut_of_ite h ?_
  split
  next => exact (State.kept_completeAdmin ..).mpr h
  next page t e =>
    have ht : r.Kept t := Eq.mpr (State.kept_logPage (r := r) _ _ e) h
    refine State.keptOut_of_ite ((State.kept_completeAdmin ..).mpr h) ?_
    simp only [State.keptOut_next, State.kept_ite, State.kept_consumePage, State.kept_clearPage, ite_self]
    exact State.kept_completeData ht ..

/-! ### Block namespaces -/

theorem State.kept_createNs (c : Cmd) (nsze : Nat) : r.Kept (s.createNs c nsze) = r.Kept s := by
  unfold State.createNs
  split
  next => exact State.kept_completeAdmin ..
  next =>
    split
    next e => exact (State.kept_completeAdmin ..).trans (State.kept_snd e (State.kept_newMediaKey ..))
    next e =>
      simp only [State.kept_completeAdmin, State.kept_journal, State.kept_mk, State.keepsAs_self]
      exact State.kept_snd e (State.kept_newMediaKey ..)

theorem State.kept_forgetData (nsid : Nat) : r.Kept (s.forgetData nsid) = r.Kept s := by
  simp only [State.forgetData, State.kept_cancelWhere, State.kept_setArray, State.kept_setImage, State.kept_setMedia]

theorem State.kept_deleteNs (n : Ns) : r.Kept (s.deleteNs n) = r.Kept s := by
  simp only [State.deleteNs, State.kept_mk, State.keepsAs_self, State.kept_dropKey, State.kept_forgetData, State.kept_freeEmpty, State.kept_journal, State.kept_nsChanged,
    State.kept_restoreSpare]

theorem kept_execNamespaceManagement (h : r.Kept s) (c : Cmd) (sel : BitVec 4) (nsze ncap flbas dps : Nat) : r.KeptOut (execNamespaceManagement c sel nsze ncap flbas dps s) :=
    by
  unfold execNamespaceManagement
  (repeat' split) <;> simp only [State.keptOut_next, State.kept_completeAdmin, State.kept_createNs, State.kept_deleteNs, h]

theorem kept_execNamespaceAttachment (h : r.Kept s) (c : Cmd) (sel : BitVec 4) (ctrls : List Nat) : r.KeptOut (execNamespaceAttachment c sel ctrls s) := by
  unfold execNamespaceAttachment
  (repeat' split) <;> simp only [State.keptOut_next, State.kept_completeAdmin, State.kept_modNs, State.kept_nsChanged, h]

theorem State.kept_formatNs (c : Cmd) (n : Ns) : r.Kept (s.formatNs c n) = r.Kept s := by
  unfold State.formatNs
  split
  next e => exact (State.kept_completeAdmin ..).trans (State.kept_snd e (State.kept_newMediaKey ..))
  next e =>
    simp only [State.kept_completeAdmin, State.kept_nsChanged, State.kept_freeEmpty, State.kept_zeroRange, State.kept_forgetData, State.kept_modNs,
      State.kept_dropKey]
    exact State.kept_snd e (State.kept_newMediaKey ..)

theorem kept_execFormatNvm (h : r.Kept s) (c : Cmd) (lbaf : Nat) (ses : BitVec 3) : r.KeptOut (execFormatNvm c lbaf ses s) := by
  unfold execFormatNvm
  (repeat' split) <;> simp only [State.keptOut_next, State.kept_completeAdmin, State.kept_formatNs, h]

/-! ### Key requests of a function -/

theorem kept_execKeyRequest (h : r.Kept s) (c : Cmd) (data : Bytes) : r.KeptOut (execKeyRequest c data s) := by
  simp only [execKeyRequest, ite_self, State.keptOut_next, State.keptOut_ite, State.kept_await, State.kept_completeAdmin, State.kept_offerKeyJob, State.kept_setHost,
    State.kept_setJobs, h]

theorem kept_execSecurityReceive (h : r.Kept s) (c : Cmd) : r.KeptOut (execSecurityReceive c s) := by
  unfold execSecurityReceive
  (repeat' split) <;> simp only [State.keptOut_next, State.kept_completeData, State.kept_freshBytes, h]

/-! ### TAKE ADMIN -/

theorem State.kept_vendorCmd (h : r.Kept s) (c : Cmd) (op : Nat) (a : Role) (cdws : List Nat) {act : State → State} (hact : ∀ t : State, t.Kept (act t)) :
    r.Kept (s.vendorCmd c op a cdws act) :=
  .ite ((State.kept_completeAdmin ..).mpr h) (.ite ((State.kept_completeAdmin ..).mpr h) ((State.kept_auditVendor h ..).trans (hact _)))

theorem kept_execTakeAdminClose (h : r.Kept s) (c : Cmd) (id : BitVec 64) : r.KeptOut (execTakeAdminClose c id s) := by
  simp only [execTakeAdminClose, ite_self, State.kept_ite, State.kept_refl, implies_true, State.keptOut_next, State.keptOut_ite, State.kept_await, State.kept_closeTake,
    State.kept_completeAdmin, State.kept_settle, State.kept_vendorCmd, h]

theorem kept_execTakeAdminDelete (h : r.Kept s) (c : Cmd) (id : BitVec 64) : r.KeptOut (execTakeAdminDelete c id s) := by
  refine State.keptOut_of_ite h (State.kept_vendorCmd h _ _ _ _ fun t => ?_)
  split
  · exact (State.kept_completeAdmin ..).mpr t.kept_refl
  · exact .ite ((State.kept_completeAdmin ..).mpr t.kept_refl) ((State.kept_await ..).mpr ((State.kept_journal ..).mpr t.kept_refl))

/-! ### ARRAY SERVICE -/

theorem State.kept_salvageUnit (key : Bytes) (n : Ns) (u : Nat) : r.Kept (s.salvageUnit key n u).2 = r.Kept s := by
  unfold State.salvageUnit
  (repeat' split) <;> simp only [State.kept_readPlain]

theorem State.kept_salvageUnits (key : Bytes) (n : Ns) (us : List Nat) : r.Kept (State.salvageUnits key n us s).2.2 = r.Kept s := by
  induction us generalizing s with
  | nil => rfl
  | cons u us ih => exact ih.trans (State.kept_salvageUnit ..)

theorem kept_execSalvage (h : r.Kept s) (c : Cmd) (count first validity : Nat) : r.KeptOut (execSalvage c count first validity s) := by
  refine State.keptOut_of_ite h (State.kept_vendorCmd h _ _ _ _ fun t => ?_)
  have hc : ∀ st, t.Kept (t.completeAdmin c st) := fun st => (State.kept_completeAdmin ..).mpr t.kept_refl
  split
  next => exact hc _
  next n _ =>
    refine .ite (hc _) (.ite ((State.kept_completeAdmin ..).mpr ((State.kept_mediaStall ..).mpr t.kept_refl)) ?_)
    split
    next e => exact (State.kept_completeAdmin ..).mpr (Eq.mpr (State.kept_snd e (State.kept_mediaKey ..)) t.kept_refl)
    next key u e =>
      have hu : t.Kept u := Eq.mpr (State.kept_snd e (State.kept_mediaKey ..)) t.kept_refl
      have hv := Eq.mpr (State.kept_salvageUnits (r := t) key n ((List.range (256 * count)).map (256 * first + ·))) hu
      dsimp only
      generalize State.salvageUnits key n ((List.range (256 * count)).map (256 * first + ·)) u = q at hv
      exact State.kept_completeData ((State.kept_hostActive ..).mpr (State.kept_memWrite hv ..)) ..

theorem State.kept_destroyAll : r.Kept s.destroyAll = r.Kept s := by
  unfold State.destroyAll
  (repeat' split) <;> simp only [ite_self, State.kept_mk, State.keepsAs_self, State.kept_ite, State.kept_foldl, implies_true, State.kept_catalogChanged, State.kept_completeCmd,
    State.kept_dropSpans, State.kept_finishTake, State.kept_nsChanged, State.kept_relock, State.kept_setHost, State.kept_setKeys, State.kept_setTake, State.kept_setTrig,
    State.kept_showKeys, State.kept_wake]

theorem State.kept_endSafe : r.Kept s.endSafe = r.Kept s := by
  simp only [State.endSafe, ite_self, State.kept_ite, State.kept_leaveSafe, State.kept_put]

theorem kept_execReformat (h : r.Kept s) (c : Cmd) (magic : BitVec 32) : r.KeptOut (execReformat c magic s) := by
  simp only [execReformat, ite_self, State.kept_ite, State.kept_refl, implies_true, State.keptOut_next, State.keptOut_ite, State.kept_checkSpares, State.kept_completeAdmin,
    State.kept_destroyAll, State.kept_endSafe, State.kept_format, State.kept_installCkpt, State.kept_showOtp, State.kept_vendorCmd, h]

/-! ### The step -/

theorem State.kept_idle (h : r.Kept s) : r.Kept s.idle := by
  simp only [State.idle, State.kept_condsEnd, State.kept_coreUpsets, State.kept_earTick, State.kept_idleTick, State.kept_settleTriggers, State.kept_tick, State.kept_trainTick,
    h]

end Sys2Proof.Machine
end

section
/-!
Every command, and every step, undoes nothing of the queue, the memories, the OTP and the audit log (R577, R593).
-/

namespace Sys2Proof.Machine

open Sys2Proof.Laws

variable {r s : State} {x : Ctx}

theorem kept_exec (h : r.Kept s) (i : Instr) : r.KeptOut (exec i s) := by
  unfold exec
  (repeat' split) <;> simp only [kept_execAbort, kept_execAbs, kept_execAdd, kept_execAddi, kept_execAnd, kept_execArm, kept_execArmTake, kept_execArmedStart,
    kept_execArrayRetire, kept_execAspmL12Entry, kept_execAspmL12Exit, kept_execAsyncEventRequest, kept_execAuthChallenge, kept_execAuthCheckResponse, kept_execAuthDrop,
    kept_execBankCfgWrite, kept_execBarrier, kept_execBclr, kept_execBclri, kept_execBitmapMove, kept_execBlockWriteBufferDrain, kept_execBootImageCheck,
    kept_execBootMapLoaded, kept_execBootReady, kept_execBootRecoveryDone, kept_execBootSelfTestDone, kept_execBootTablesDone, kept_execBootTrainingDone, kept_execBset,
    kept_execBseti, kept_execBst, kept_execBsti, kept_execBtas, kept_execBtst, kept_execBtsti, kept_execCall, kept_execCallLong, kept_execCalla, kept_execCancel,
    kept_execChallengeLapse, kept_execCheckpointDone, kept_execCheckpointJournalLimit, kept_execCheckpointPeriod, kept_execCipherJobComplete, kept_execCkptNow, kept_execClaim,
    kept_execClear, kept_execClearProfile, kept_execClkLockLost, kept_execClz, kept_execCmpeq, kept_execCmplt, kept_execCmpltu, kept_execColdReset, kept_execCommandFetch,
    kept_execCompare, kept_execCompress, kept_execControllerReset, kept_execCorePark, kept_execCoreResume, kept_execCoreRetire, kept_execCreateIoCq, kept_execCreateIoSq,
    kept_execCrookUpdateRollback, kept_execCtrlReq, kept_execCtz, kept_execCustom, kept_execCvtF, kept_execCvtI, kept_execCvtN, kept_execCvtW, kept_execDatasetManagement,
    kept_execDecommission, kept_execDeleteIoCq, kept_execDeleteIoSq, kept_execDepth, kept_execDerive, kept_execDeriveKeks, kept_execDevThermalShutdown, kept_execDigestJob,
    kept_execDigestJobComplete, kept_execDiv, kept_execDoorbellWrite, kept_execDozeAfterExpiry, kept_execDozeDrainDone, kept_execDozeExitRetry, kept_execDozeRetrainDone,
    kept_execDramAlert, kept_execDramDriftCheck, kept_execDramEvacuationDone, kept_execDramRefresh, kept_execDramRetire, kept_execDramScrub, kept_execDramUncorrectable,
    kept_execDrop, kept_execDroveFlitRx, kept_execDroveHeartbeat, kept_execDroveHeartbeatTx, kept_execDroveLinkDown, kept_execDroveLinkUp, kept_execDroveMemberTimeout,
    kept_execDroveReplayTimeout, kept_execDroveStartLost, kept_execDroveTimeFault, kept_execDroveTimeTx, kept_execDup, kept_execEarmarkJobComplete, kept_execEarmarkRead,
    kept_execEarmarkScrub, kept_execEarmarkSearch, kept_execEarmarkWrite, kept_execEnableClear, kept_execEnter, kept_execEntropyHealthFail, kept_execEntropyStartupDone,
    kept_execErase, kept_execErrCodeClear, kept_execExecCall, kept_execExecuteProgram, kept_execExit, kept_execExt, kept_execFadd, kept_execFallowReservationUsed,
    kept_execFaultConsume, kept_execFaultIntake, kept_execFcmpeq, kept_execFcmplt, kept_execFdiv, kept_execFeedWord, kept_execFence, kept_execFirmwareCommit,
    kept_execFirmwareHandover, kept_execFirmwareImageDownload, kept_execFlush, kept_execFma, kept_execFmax, kept_execFmin, kept_execFmul, kept_execFoldResidenceEnd,
    kept_execForceOff, kept_execForm, kept_execFormatNvm, kept_execFrameBegin, kept_execFrameData, kept_execFrameEnd, kept_execFrameRead, kept_execFromrs, kept_execFsub,
    kept_execFullRetrain, kept_execFunctionReset, kept_execFunctionResetDone, kept_execGateFlitRx, kept_execGateHeartbeatTx, kept_execGateLaneLost, kept_execGateLinkDown,
    kept_execGateLinkUp, kept_execGatePacketSend, kept_execGateReplayTimeout, kept_execGateRetrainDone, kept_execGateTrainFail, kept_execGateTrainRetry,
    kept_execGcVictimSelect, kept_execGcmDecrypt, kept_execGcmEncrypt, kept_execGenerate, kept_execGetFeatures, kept_execGetLogPage, kept_execGo, kept_execGpioEdge,
    kept_execGroupErase, kept_execGroupErased, kept_execHandback, kept_execHandoverResume, kept_execHash, kept_execHashCompare, kept_execHeartbeat, kept_execHostqLinkDown,
    kept_execIdent, kept_execIdentify, kept_execIllegalEncoding, kept_execInflate, kept_execInflateUnpredict, kept_execIns, kept_execInvalidCommandOpcode, kept_execInvalidate,
    kept_execJmp, kept_execJmpLong, kept_execJmpa, kept_execJmpi, kept_execJnz, kept_execJnzLong, kept_execJournalPageDurable, kept_execJournalPageWrite, kept_execJz,
    kept_execJzLong, kept_execKeptTakeSealed, kept_execKeyRequest, kept_execKeyTablePurge, kept_execKeyengAlarm, kept_execKeyengJobComplete, kept_execKick, kept_execKill,
    kept_execLaneCtrlRetire, kept_execLastWord, kept_execLd, kept_execLdl, kept_execLit, kept_execLit32, kept_execLit64, kept_execLoad, kept_execLoadPlain,
    kept_execLoadProgram, kept_execMapPageReload, kept_execMapPageWriteback, kept_execMaskReseed, kept_execMax, kept_execMediaCapacityFull, kept_execMemoryCopy,
    kept_execMemoryRangeSet, kept_execMemoryRead, kept_execMemoryWrite, kept_execMetaPacket, kept_execMicrocodeClusterParked, kept_execMicrocodeLoad,
    kept_execMicrocodeRecheck, kept_execMin, kept_execMirror, kept_execMod, kept_execModeReqDoze, kept_execModeReqFold, kept_execMul, kept_execMulh,
    kept_execNamespaceAttachment, kept_execNamespaceManagement, kept_execNandDieReset, kept_execNandDieTimeout, kept_execNandEraseDone, kept_execNandProgramDone,
    kept_execNandPwrFault, kept_execNandReadDone, kept_execNandRetryStep, kept_execNandSoftDecode, kept_execNandTrainDone, kept_execNandTrainStart, kept_execNandZqShort,
    kept_execNeg, kept_execNip, kept_execNop, kept_execNot, kept_execOperatorCredential, kept_execOr, kept_execOrder, kept_execOtpProgram, kept_execOver, kept_execPatrol,
    kept_execPcieLinkUp, kept_execPendingLowDiscard, kept_execPerstAssert, kept_execPerstRelease, kept_execPerturbDelayExpiry, kept_execPerturbEvent,
    kept_execPerturbPointSelect, kept_execPick, kept_execPllLocked, kept_execPmbAlert, kept_execPoll, kept_execPopc, kept_execPowerCut, kept_execPowerfailCloseDone,
    kept_execPowerfailDrainEnd, kept_execPowerfailFlushDone, kept_execProgramActivation, kept_execProgramCoresEnded, kept_execPwrFailN, kept_execPwrWatchdog,
    kept_execQueueThaw, kept_execRailsOffEnd, kept_execRdepth, kept_execRead, kept_execRebuildStripe, kept_execReformat, kept_execRefreshRelocate, kept_execRegAccess,
    kept_execRegReq, kept_execRegRsp, kept_execRegisterRead, kept_execRegisterWrite, kept_execRelease, kept_execRelocationCopyDone, kept_execReply, kept_execReshapeRegion,
    kept_execReshapeStart, kept_execResyncStripe, kept_execRet, kept_execRetrain, kept_execRol, kept_execRoleAuthCredential, kept_execRoleAuthDrop,
    kept_execRoleAuthGetChallenge, kept_execRoleAuthRespond, kept_execRoleIdleLapse, kept_execRoleLockoutEnd, kept_execRot, kept_execRscopy, kept_execRsdrop,
    kept_execRtcAlarmFire, kept_execRtcLoad, kept_execRtcOscFail, kept_execRti, kept_execRuleSearch, kept_execSalvage, kept_execSar, kept_execSearch, kept_execSearchList,
    kept_execSecureWindowPad, kept_execSecurityReceive, kept_execServeActivityExpiry, kept_execSetFeatures, kept_execSetMv, kept_execSetProfile, kept_execSetReset,
    kept_execSetServiceStatus, kept_execSetServiceTimeout, kept_execShareAssign, kept_execShareClaim, kept_execShareRelease, kept_execShearsBlockVerified, kept_execShearsJob,
    kept_execShearsJobComplete, kept_execShearsJobMigrate, kept_execShearsReemitDone, kept_execShl, kept_execShr, kept_execSlcMigration, kept_execSlcResize,
    kept_execSliceRelease, kept_execSnapshot, kept_execSoftReset, kept_execSplat, kept_execSt, kept_execStart, kept_execStl, kept_execStore, kept_execStripeClose,
    kept_execStripeSnapshot, kept_execSub, kept_execSubmit, kept_execSummaryKeyComplete, kept_execSwFire, kept_execSwap, kept_execSyncInEdge, kept_execSyncInLoss,
    kept_execSysRead, kept_execSysWrite, kept_execTakeAdminClose, kept_execTakeAdminDelete, kept_execTakeBreachRelease, kept_execTakeClose, kept_execTakeClosed,
    kept_execTakeDurationExpiry, kept_execTakeGrant, kept_execTakeLinkLost, kept_execTakeOpen, kept_execTakeRateBreach, kept_execTakeRatioMeasure, kept_execThermalSample,
    kept_execTime, kept_execTors, kept_execTrap, kept_execTrigPinEdge, kept_execTrigger, kept_execTuck, kept_execUnlock, kept_execUnwrapLoad, kept_execVerify,
    kept_execVfDisable, kept_execVfEnable, kept_execVregStepAck, kept_execVregStepTimeout, kept_execVregTelemetryPoll, kept_execWait, kept_execWaitTimeout, kept_execWaitWake,
    kept_execWakeSource, kept_execWarm, kept_execWearLevel, kept_execWindowCopyStart, kept_execWindowSeal, kept_execWrap, kept_execWrite, kept_execWriteZeroes, kept_execXor,
    kept_execXtsDecrypt, kept_execXtsEncrypt, h]

/-- Whatever a step runs, it takes one command and undoes nothing else. -/
theorem step_kept {s t : State} (h : step s = .next t) : ({ s with pending := s.pending.tail } : State).Kept t := by
  have hr : ({ s with pending := s.pending.tail } : State).KeptOut (step s) := by
    unfold step
    split
    next e =>
      refine State.kept_idle (State.kept_mk.mpr ?_)
      rw [e]
      exact State.kept_refl _
    next i rest e =>
      refine kept_exec ?_ i
      rw [e]
      exact State.kept_refl _
  rw [h] at hr
  exact hr

/-- Settles O59: every function of the model keeps the relation between the states before and after, up to the commands and the step. -/
theorem everyStepKeepsMemoriesAndOtp : Obligations.EveryStepKeepsMemoriesAndOtp := by
  unfold Obligations.EveryStepKeepsMemoriesAndOtp
  intro s t h hm ho
  have hk := step_kept h
  exact ⟨hk.mem hm, hk.otpWf ho, hk.queue, hk.bits ho, hk.seq⟩

end Sys2Proof.Machine
end
